-- ==== Sys2Proof/Word.lean ====
section
/-! DEFINITION. The word types of the Lorou 9 and the plainest facts of a register field: its place in the word and
its access type (Table 0.5). -/

namespace Sys2Proof

/-- A byte of a frame, a key, a table entry or a data segment. -/
abbrev Byte := BitVec 8

/-- A register or instruction word. -/
abbrev Word := BitVec 32

/-- A sequence of bytes: a frame, a key, an entry. -/
abbrev Bytes := List (BitVec 8)

/-- A field of a 32-bit register: its least significant bit and its width. -/
structure Fld where
  lo : Nat
  w : Nat
  deriving DecidableEq, Repr

/-- The access types of Table 0.5. -/
inductive FTy where
  /-- Read and write. -/
  | rw
  /-- Read only: a write is ignored. -/
  | ro
  /-- Write 1 to clear. -/
  | w1c
  /-- Read clears. -/
  | rc
  /-- Write only: reads zero. -/
  | wo
  /-- Self-clearing command bit. -/
  | sc
  /-- Read and write, refused unless the block is idle. -/
  | rwi
  /-- Read and write, refused outside a presence window. -/
  | rwp
  deriving DecidableEq, Repr

end Sys2Proof
end

