-- ==== Sys2Proof/Syntax.lean ====
section
/-! DEFINITION. The commands of the block, one constructor per row of the opcode table, and the shapes of what they
carry: a received frame, a structure image, a container, what a Round boundary observes. -/

namespace Sys2Proof

/-! ### Numbers of things -/

/-- A PCI Express function, 0 (the Warden's) to 16. -/
abbrev FnNo := Fin 17
/-- An owner: 0 is the Warden, n the Pitch n. -/
abbrev OwnerNo := Fin 17
/-- A pipeline. -/
abbrev PipeNo := Fin 16
/-- A stage of a pipeline. -/
abbrev StageNo := Fin 24
/-- A port. -/
abbrev PortNo := Fin 1024
/-- A lane of the part. -/
abbrev LaneNo := Fin 1024
/-- A lane group. -/
abbrev GroupNo := Fin 64
/-- A queue class. -/
abbrev ClassNo := Fin 16
/-- An Ostler thread. -/
abbrev ThreadNo := Fin 512
/-- A host DMA ring of a function. -/
abbrev RingNo := Fin 4
/-- A skip region of the Postilion. -/
abbrev RegionNo := Fin 37
/-- A switched power domain. -/
abbrev DomainNo := Fin 144
/-- An address of the 512 MiB register window. -/
abbrev Addr := BitVec 29


/-! ### The structure image (chapters "Parsing and Classification", "Match-Action Stages", "Action Microcode") -/

/-- What a TRANSITIONS entry leads to (Table 5.1). -/
inductive ParseOut where
  | state (n : Nat)
  | accept
  | malformed (reason : Nat)
  deriving DecidableEq, Repr

/-- A field of the header window: byte offset, bit offset from the most significant bit of that byte, and width. -/
structure WinField where
  off : Nat
  bit : Nat
  width : Nat
  deriving DecidableEq, Repr

/-- The ADVANCE of a state (Table 5.1). -/
inductive ParseAdv where
  | fixed (n : Nat)
  | field (f : WinField) (scale add min max : Nat)
  deriving DecidableEq, Repr

/-- One TRANSITIONS entry: value, mask and outcome. -/
structure ParseTrans where
  value : Nat
  mask : Nat
  out : ParseOut
  deriving DecidableEq, Repr

/-- One EXTRACT run: source offset, length and target byte of the header vector. -/
structure ParseRun where
  src : Nat
  len : Nat
  dst : Nat
  deriving DecidableEq, Repr

/-- A state of the parse graph (Table 5.1). -/
structure ParseState where
  select : List WinField := []
  trans : List ParseTrans := []
  extract : List ParseRun := []
  adv : ParseAdv := .fixed 0
  check : Nat := 0
  flags : Nat := 0
  hash : Nat := 0
  deriving DecidableEq, Repr

/-- One byte of a key: a byte of the header vector, or byte `b` (0 the most significant) of metadata register `r`. -/
inductive KeySrc where
  | hv (i : Nat)
  | mreg (r b : Nat)
  deriving DecidableEq, Repr

/-- An exact-match table of a stage (R161, R164): the WIDTH code, log2 of the depth, and the key selectors. -/
structure EmTable where
  width : Nat
  depthLog2 : Nat
  selA : List KeySrc
  selB : Option (List KeySrc) := none
  deriving DecidableEq, Repr

/-- Where a TCAM table's search takes its global mask set (R191): a constant, or two bits of a metadata register. -/
inductive MaskSel where
  | const (g : Nat)
  | bits (r lo : Nat)
  deriving DecidableEq, Repr

/-- A TCAM table of a stage (R186, R198, R199): the width in blocks, the first block of each slice, PREFILTER, the BANKS
code, the key selector and the mask set. -/
structure TcTable where
  width : Nat
  slices : List Nat
  prefilter : Bool := false
  banks : Nat := 0
  sel : List KeySrc
  gsel : MaskSel := .const 0
  deriving DecidableEq, Repr

/-- A directory entry of a stage (R222). -/
structure DirEntry where
  e : Nat
  start : Nat
  slots : Nat
  cust : Bool := false
  deriving DecidableEq, Repr

/-- What an image gives one stage: its exact-match tables 0 to 3, its TCAM tables 0 and 1, its directory, and the words
of its store below 3072 that are not zero, as (word, value). -/
structure StageImg where
  em : List (Option EmTable) := []
  tc : List (Option TcTable) := []
  dir : List DirEntry := []
  words : List (Nat × Word) := []
  deriving DecidableEq, Repr

/-- The Ostler firmware of an image (R449): the vendor words of its device part and of its Pitch part that are not zero, as
(word, value). -/
structure Firmware where
  device : List (Nat × Word) := []
  pitch : List (Nat × Word) := []
  deriving DecidableEq, Repr

/-- A structure image as the loader reads it: its bytes, with header and signature block (R592), and what its body, in Qualar's layout,
holds. -/
structure Image where
  raw : Bytes := []
  graph : List ParseState := []
  /-- The emit mask of each state of the graph (Table 8.2). -/
  emit : List Nat := []
  /-- The deparse list: offset and length of each item in the header vector. -/
  deparse : List (Nat × Nat) := []
  stages : List StageImg := []
  /-- The pool layout: SIZE code and COUNT of each pool. -/
  pools : List (Nat × Nat) := []
  firmware : Firmware := {}
  /-- The digest selection (R408): DSEL, and the runs of header window bytes as offset and length. DSEL 0: none. -/
  dsel : Nat := 0
  runs : List (Nat × Nat) := []
  deriving DecidableEq, Repr

/-- A container as the part reads it (R591): its bytes, and what its sections hold in Qualar's layout: the words of the device firmware that
are not zero, and the structure images in the order of the section table, whose own bytes are those of their sections. -/
structure Container where
  raw : Bytes := []
  device : List (Nat × Word) := []
  images : List Image := []
  deriving DecidableEq, Repr

/-! ### What arrives from outside -/

/-- When the reference bit of a received frame reached the stamp point (R364): how long before now, in 1/64 ns, the word edge was, and the
position of the bit within the word, in unit intervals. -/
structure RefAt where
  age : Nat := 0
  ui : Nat := 0
  deriving DecidableEq, Repr

/-- A frame that reaches a port's MAC: its bytes from destination address through FCS, on an Onazel port the symbols between its SOF
marker and the next marker in place of these, whether its PCS check failed, the codewords corrected and not correctable and the symbols
corrected with it, and when its reference bit reached the stamp point. -/
structure RxFrame where
  bytes : Bytes
  syms : List (Fin 4) := []
  pcsErr : Bool := false
  fecCorr : Nat := 0
  fecUncorr : Nat := 0
  fecSym : Nat := 0
  age : RefAt := {}
  deriving DecidableEq, Repr

/-- What the receive path of a port finds (R119, R134): block or alignment lock of the PCS, codeword lock of the FEC, and on a
forwarded-clock port the sync headers of each lane, good or bad, since they were last given. -/
structure PcsObs where
  lock : Bool := true
  fec : Bool := true
  headers : List (List Bool) := []
  deriving DecidableEq, Repr

/-- What an Onazel port receives against its line code (R124, R125): a run of identical symbols that is no good marker, by its level and
length, with the data symbols of the frame that it cuts short, or data symbols after an idle marker. -/
inductive OnzBad where
  | run (level : Fin 4) (len : Nat) (syms : List (Fin 4) := [])
  | stray (syms : List (Fin 4))
  deriving DecidableEq, Repr

/-- What the part observes by the time of a Round boundary. -/
structure RoundObs where
  /-- Eye histograms of lanes that published a figure, as lane, then (bin width, counts) of each eye. -/
  eyes : List (Nat × List (Nat × List Nat)) := []
  /-- Bit errors of pattern checkers since they were last taken, as lane and count. -/
  prbs : List (Nat × Nat) := []
  /-- The Postilion computed its grants by the boundary (R516). -/
  granted : Bool := true
  /-- The lowest input of the Round in mV, its average and peak input power in 0.25 W. -/
  vin : Nat := 48000
  pavg : Nat := 0
  ppeak : Nat := 0
  /-- Power drawn by domains, and leakage of regions, in 0.25 W. -/
  use : List (Nat × Nat) := []
  leak : List (Nat × Nat) := []
  /-- Power of the unswitched consumers in 0.25 W (R500). -/
  unswitched : Nat := 0
  /-- Forward error correction counts of ports since the last boundary: port, codewords corrected, codewords not
  correctable, symbols corrected. -/
  fec : List (Nat × Nat × Nat × Nat) := []
  deriving DecidableEq, Repr

/-- What an I2C master finds on its bus when it checks it (R600): SDA low, SDA still low after nine pulses, SCL held low, and a bit driven high
that reads back low. -/
structure I2cBus where
  sdaLow : Bool := false
  sdaAfter : Bool := false
  sclLow : Bool := false
  readBack : Bool := false
  deriving DecidableEq, Repr

/-- How the host asks the SMBus target (R602): the read that the command's row gives, with or without PEC, a write protocol, or another command
code. -/
inductive SmbAsk where
  | read (pec : Bool := false)
  | write
  | other (code : BitVec 8)
  deriving DecidableEq, Repr

/-- The bit of a memory that flips: in a row of an exact-match table or its time stamp, in the array or the shadow of a TCAM
entry (V from bit 0, M from bit 80W, VALID at 160W; the shadow by chain position), in a microcode store, in a buffer (by 16-byte
word), in Ostler data memory (the bit of a quad's segment) or in a program store. -/
inductive UpsetAt where
  | emRow (p : PipeNo) (st : StageNo) (loc bit : Nat)
  | emStamp (p : PipeNo) (st : StageNo) (loc : Nat) (bit : Fin 16)
  | tcArray (p : PipeNo) (key bit : Nat)
  | tcShadow (p : PipeNo) (key : Nat) (pos : Fin 8) (bit : Fin 241)
  | store (p : PipeNo) (st : StageNo) (bank : Fin 2) (word : Fin 4096) (bit : Fin 32)
  | buffer (handle word : Nat) (bit : Fin 128)
  | data (quad : Fin 128) (bit : Fin 1048576)
  | program (owner : OwnerNo) (word : Fin 65536) (bit : Fin 32)
  deriving DecidableEq, Repr

/-! ### The commands -/

/-- The commands and events of the opcode table, one constructor per row. A read that names no size is one of 32 bits. -/
inductive Instr where
  /-- REGISTER_WRITE (R11): A write to a register that has no row of its own stores or ignores each field by its access type. -/
  | registerWrite (fn : FnNo) (addr : Addr) (size : Nat) (v : BitVec 64)
  /-- RC_READ (R11): A read of an RC register returns its value and clears it, an event in the same cycle being counted after the clear. -/
  | rcRead (fn : FnNo) (addr : Addr) (size : Nat := 4)
  /-- COUNTER_PAIR_READ (R528): A read of the low register of a pair returns it and loads the high word into the requester's hold for a later coherent read. -/
  | counterPairRead (rq : Fin 21) (own : FnNo) (addr : Addr) (size : Nat := 4)
  /-- TIME_NS_READ (R335): A read of TIME_NS returns N and flags and copies S and F into the requester's shadows in the same time clock cycle. -/
  | timeNsRead (rq : Fin 21) (own : FnNo) (size : Nat := 4)
  /-- ROUND_EFFECTIVE_WRITE (R36): A write to a Round-effective register stores the value as pending and sets its pending bit until a boundary applies it. -/
  | roundEffectiveWrite (fn : FnNo) (addr : Addr) (v : Word)
  /-- ROUND_BOUNDARY (R34): At each Round boundary the part applies grants, rate changes, ageing Round, audit step and scheduled sheet closes in order. -/
  | roundBoundary (obs : RoundObs)
  /-- FRAME_ARRIVAL (R20): A frame received on a port is stamped, checked for PCS error, FCS, runt and oversize, and admitted to the buffer or dropped. -/
  | frameArrival (n : PortNo) (rx : RxFrame)
  /-- BERTH_TAKE (R25): Ready packets take the berths of a pipeline tick in order of readiness and rotating lane priority. -/
  | berthTake (p : PipeNo) (egress : Bool) (credit : Nat)
  /-- STAGE_ENTER (R160): A packet enters a stage and is served over 4 ticks: keys, lookups, searches and microwords. -/
  | stageEnter (p : PipeNo) (st : StageNo)
  /-- TM_ENQUEUE (R293): A packet leaving ingress stage 15 is resolved, policed, checked against limits and enqueued or dropped with a code. -/
  | tmEnqueue (p : PipeNo)
  /-- REPLICA_MAKE (R300): The replicator makes up to 16 replicas of its head packet per tick, each meeting the queue limits. -/
  | replicaMake (p : PipeNo)
  /-- SCHEDULER_SELECT (R313): A port scheduler selects the next frame by Timetable, committed, strict priority and DWRR order. -/
  | schedulerSelect (n : PortNo)
  /-- TT_RELEASE_DUE (R389): A held Timetable packet becomes due for release when the time base reaches D − LEAD. -/
  | ttReleaseDue (n : PortNo) (c : ClassNo)
  /-- DEPARSE (R219): The deparser builds the outgoing frame, inserts timestamps, fixes checksums and computes the FCS. -/
  | deparse (p : PipeNo) (slot : Nat)
  /-- FRAME_TX_START (R371): The MAC starts a frame at its fixed start slot, with Timetable lateness judged. -/
  | frameTxStart (n : PortNo)
  /-- FRAME_TX_END (R270): The whole frame has been sent and its buffer hold released. -/
  | frameTxEnd (n : PortNo)
  /-- CONTROL_FRAME_SEND (R114): The MAC sends a built pause, PFC, time link or calibration frame at the next frame boundary. -/
  | controlFrameSend (n : PortNo)
  /-- PFC_REFRESH (R307): While XOFF is asserted a PFC frame is sent again every REFRESH period. -/
  | pfcRefresh (n : PortNo)
  /-- PAUSE_RX (R111): A received pause frame in FC_MODE 1 pauses all classes of the port. -/
  | pauseRx (n : PortNo) (quanta : Fin 65536)
  /-- PFC_RX (R111): A received PFC frame in FC_MODE 2 pauses the mapped classes of enabled priorities. -/
  | pfcRx (n : PortNo) (vec : Fin 65536) (quanta : List Nat)
  /-- MAC_CTRL_OTHER_RX (R111): Another MAC control frame is consumed without action and counted. -/
  | macCtrlOtherRx (n : PortNo)
  /-- PAUSE_EXPIRY (R112): A class's pause time runs out and the class is released. -/
  | pauseExpiry (n : PortNo) (c : ClassNo)
  /-- PORT_ENABLE (R91): A write of EN = 1 starts the port's outputs within 10 µs, or is refused. -/
  | portEnable (fn : FnNo) (n : PortNo) (v : Word)
  /-- PORT_DISABLE (R92): A write of EN = 0 squelches the port within 0.1 µs and flushes its queues. -/
  | portDisable (fn : FnNo) (n : PortNo) (v : Word)
  /-- FORMATION_TIMELINE_END (R93): At the end of the rate or width change timeline enabled new ports leave squelch. -/
  | formationTimelineEnd (g : GroupNo)
  /-- SIGNAL_LOSS (R81): A receiver input falling below 50 mV reports loss of signal. -/
  | signalLoss (l : LaneNo)
  /-- SIGNAL_RETURN (R81): A receiver input rising above 80 mV clears loss of signal. -/
  | signalReturn (l : LaneNo)
  /-- CDR_LOCK_LOSS (R82): A receiver loses clock-and-data lock and reports CDR_LOCK = 0. -/
  | cdrLockLoss (l : LaneNo)
  /-- CDR_LOCK (R82): A receiver locks within 100 µs of the signal returning. -/
  | cdrLock (l : LaneNo)
  /-- ADAPT_DONE (R82): Initial adaptation completes and sets ADAPT_DONE. -/
  | adaptDone (l : LaneNo) (ctle : Fin 32) (taps : List Nat)
  /-- FWD_CLOCK_LOSS (R83): The forwarded clock on lane 15 loses lock and the data lanes lose CDR lock. -/
  | fwdClockLoss (g : GroupNo)
  /-- FIR_LOAD (R85): LG_CTL.FIR_LOAD loads the group tap set on enabled lanes, refusing invalid sets. -/
  | firLoad (fn : FnNo) (g : GroupNo) (v : Word)
  /-- LANE_FIR_LOAD (R85): LG_LN_FIR_B.LOAD loads the lane's own tap set. -/
  | laneFirLoad (fn : FnNo) (g : GroupNo) (l : Fin 16) (v : Word)
  /-- CHK_PAT_WRITE (R98): A write to CHK_PAT clears the error count and restarts the checker. -/
  | chkPatWrite (fn : FnNo) (g : GroupNo) (l : Fin 16) (v : Word)
  /-- PRBS_LOCK (R98): The pattern checker declares lock after 256 error-free bits. -/
  | prbsLock (l : LaneNo)
  /-- PRBS_LOL (R98): The checker drops lock after 64 wrong bits in 256 and reseeds. -/
  | prbsLol (l : LaneNo) (errs : Nat)
  /-- EYE_SCAN_GO (R100): LG_LN_EYE_CTL.GO starts an eye scan at the chosen offset. -/
  | eyeScanGo (fn : FnNo) (g : GroupNo) (l : Fin 16) (v : Word)
  /-- EYE_SCAN_DONE (R100): The eye scan count is final and GO clears. -/
  | eyeScanDone (l : LaneNo) (errs : Nat)
  /-- LINK_UP_RISE (R119): All link conditions hold and LINK_UP sets. -/
  | linkUpRise (n : PortNo) (pcs : PcsObs := {})
  /-- LINK_DOWN (R120): LINK_UP falls on loss of signal, lock or a received fault, and the port's queues stop being served. -/
  | linkDown (n : PortNo)
  /-- LOCAL_FAULT_RX (R119): Receipt of Local Fault makes the port send Remote Fault. -/
  | localFaultRx (n : PortNo) (on : Bool)
  /-- REMOTE_FAULT_RX (R119): Receipt of Remote Fault makes the port send idle. -/
  | remoteFaultRx (n : PortNo) (on : Bool)
  /-- AN_FAIL (R116): Auto-negotiation resolving to another formation sets AN_FAIL and restarts after 1 s. -/
  | anFail (n : PortNo)
  /-- AN_RESTART (R116): Auto-negotiation restarts 1 s after a failure. -/
  | anRestart (n : PortNo)
  /-- TRAIN_TIMEOUT (R118): The training timer expires, setting TRAIN_TIMEOUT and restarting training. -/
  | trainTimeout (n : PortNo)
  /-- ONZ_TRAINING_BLOCK_RX (R128): A received Onazel training block advances role resolution, tuning, RX_READY or GO. -/
  | onzTrainingBlockRx (n : PortNo) (syms : List (Fin 4))
  /-- ONZ_IDLE_MARKER_RX (R128): A received idle marker ends a frame or sets LINK_UP after training. -/
  | onzIdleMarkerRx (n : PortNo)
  /-- ONZ_TRAINING_MARKER_RX (R130): A training marker in data drops LINK_UP and restarts training. -/
  | onzTrainingMarkerRx (n : PortNo)
  /-- ONZ_MARKER_ERROR (R124): A run of level 2 or bad length is counted as a marker error; `inFrame` says that a frame was in progress at the run. -/
  | onzMarkerError (n : PortNo) (bad : OnzBad) (inFrame : Bool)
  /-- ONZ_MARKER_TIMEOUT (R130): No valid SOF or idle marker for 1 µs drops LINK_UP. -/
  | onzMarkerTimeout (n : PortNo)
  /-- ALIGN_BLOCK_RX (R132): Forwarded-clock alignment blocks align the port after two valid periods. -/
  | alignBlockRx (n : PortNo) (blocks : List Bytes)
  /-- ALIGNMENT_LOSS (R132): Four periods of missing alignment blocks declare loss of alignment. -/
  | alignmentLoss (n : PortNo)
  /-- LEARN_PROCESS (R173): The table engine acts on the learn request at the FIFO head: insert, refresh, move or refuse. -/
  | learnProcess (p : PipeNo) (st : StageNo)
  /-- STASH_REINSERT (R171): After a row is freed the engine tries to move one stash entry into the ways. -/
  | stashReinsert (p : PipeNo) (st : StageNo)
  /-- AGER_VISIT (R176): Every 64 ticks the ager visits one index and removes entries aged beyond AGE_LIMIT. -/
  | agerVisit (p : PipeNo) (st : StageNo)
  /-- PARITY_INVALIDATE (R178): The engine clears VALID of a row that failed parity and issues a PARITY notification. -/
  | parityInvalidate (p : PipeNo) (st : StageNo)
  /-- EM_READ_ADDR (R182): Indirect READ_ADDR reads a row or stash slot and its timestamp. -/
  | emReadAddr (fn : FnNo) (p : PipeNo) (st : StageNo) (v : Word)
  /-- EM_WRITE_ADDR (R182): Indirect WRITE_ADDR writes an entry whole at a location. -/
  | emWriteAddr (fn : FnNo) (p : PipeNo) (st : StageNo) (v : Word)
  /-- EM_LOOKUP_CMD (R182): Indirect LOOKUP looks a key up and returns the entry. -/
  | emLookupCmd (fn : FnNo) (p : PipeNo) (st : StageNo) (v : Word)
  /-- EM_INSERT (R182): Indirect INSERT inserts an entry under the insertion and eviction rules. -/
  | emInsert (fn : FnNo) (p : PipeNo) (st : StageNo) (v : Word)
  /-- EM_UPDATE (R182): Indirect UPDATE rewrites STATIC, ACTION and DATA of a present key. -/
  | emUpdate (fn : FnNo) (p : PipeNo) (st : StageNo) (v : Word)
  /-- EM_DELETE (R182): Indirect DELETE clears VALID of a present key. -/
  | emDelete (fn : FnNo) (p : PipeNo) (st : StageNo) (v : Word)
  /-- EM_FLUSH_DYNAMIC (R182): Indirect FLUSH_DYNAMIC starts clearing every dynamic entry in steps. -/
  | emFlushDynamic (fn : FnNo) (p : PipeNo) (st : StageNo) (v : Word)
  /-- EM_FLUSH_STEP (R182): One flush step clears dynamic entries of 16 indices or the stash. -/
  | emFlushStep (p : PipeNo) (st : StageNo)
  /-- STG_NOTE_POP (R180): STG_NOTE_CTL.POP removes the head notification record. -/
  | stgNotePop (fn : FnNo) (p : PipeNo) (st : StageNo)
  /-- TC_GMASK_TAKE (R192): TC_GMASK_CTL.TAKE copies the four staged global mask sets into use. -/
  | tcGmaskTake (fn : FnNo) (p : PipeNo) (st : StageNo) (t : Fin 2)
  /-- TC_READ_ADDR (R210): TCAM READ_ADDR reads the shadow of an entry and compares it with the array. -/
  | tcReadAddr (fn : FnNo) (p : PipeNo) (v : Word)
  /-- TC_WRITE_ADDR (R210): TCAM WRITE_ADDR writes an entry whole at an address. -/
  | tcWriteAddr (fn : FnNo) (p : PipeNo) (v : Word)
  /-- TC_INSERT (R202): TCAM INSERT places an entry in priority order, shifting rows. -/
  | tcInsert (fn : FnNo) (p : PipeNo) (v : Word)
  /-- TC_DELETE_ADDR (R210): TCAM DELETE_ADDR clears VALID at an address. -/
  | tcDeleteAddr (fn : FnNo) (p : PipeNo) (v : Word)
  /-- TC_UPDATE_RESULT (R210): TCAM UPDATE_RESULT rewrites ACTION and DATA at an address. -/
  | tcUpdateResult (fn : FnNo) (p : PipeNo) (v : Word)
  /-- TC_SEARCH_CMD (R210): TCAM SEARCH searches a key on the engine's own port and returns the winner. -/
  | tcSearchCmd (fn : FnNo) (p : PipeNo) (v : Word)
  /-- TC_FLUSH (R210): TCAM FLUSH clears VALID of every entry of a table. -/
  | tcFlush (fn : FnNo) (p : PipeNo) (v : Word)
  /-- SCRUB_VISIT (R204): The scrubber compares one block row's array and shadow copies. -/
  | scrubVisit (p : PipeNo)
  /-- TC_INVALIDATE (R206): The engine clears VALID of a faulty entry in both copies. -/
  | tcInvalidate (p : PipeNo)
  /-- UC_SWAP_GO (R234): STG_UC_SWAP.GO checks every standby bank and swaps them or reports the first failure. -/
  | ucSwapGo (fn : FnNo) (p : PipeNo)
  /-- UC_SWAP_LAND (R235): The checked standby banks become active and DRAINING sets. -/
  | ucSwapLand (p : PipeNo)
  /-- UC_SWAP_DRAIN_END (R235): No packet of the old bank remains and DRAINING clears. -/
  | ucSwapDrainEnd (p : PipeNo)
  /-- UC_STBY_WRITE (R235): A write to STG_UC_STBY stores a standby word or is ignored during a swap. -/
  | ucStbyWrite (fn : FnNo) (p : PipeNo) (st : StageNo) (k : Fin 1024) (v : Word)
  /-- IMAGE_LOAD (R596): DEV_LOAD_CTL.GO loads, re-seats or refuses a pipeline image. -/
  | imageLoad (fn : FnNo) (f : FnNo) (v : Word) (img : Option Image)
  /-- VER_OPEN (R248): VER_CMD OPEN opens a group, or is held or refused by state. -/
  | verOpen (fn : FnNo) (p : PipeNo) (v : Word)
  /-- VER_COMMIT (R253): VER_CMD COMMIT sends the commit toward every pipeline of the Pitch, now or at a Round. -/
  | verCommit (fn : FnNo) (p : PipeNo) (v : Word)
  /-- VER_ABANDON (R252): VER_CMD ABANDON starts undoing an open group. -/
  | verAbandon (fn : FnNo) (p : PipeNo) (v : Word)
  /-- VER_BAD_CMD (R253): A VER_CMD code of 0 or 4 to 15 returns RESULT 0x4. -/
  | verBadCmd (fn : FnNo) (p : PipeNo) (v : Word)
  /-- COMMIT_APPLY (R254): A pipeline applies a crossing commit and its ingress gives the new tag. -/
  | commitApply (p : PipeNo)
  /-- DRAIN_COMPLETE (R258): No live packet of the old tag remains and retiring starts. -/
  | drainComplete (n : OwnerNo)
  /-- RETIRE_DONE (R259): The old view is cleared, STATE returns to IDLE and a held OPEN takes effect. -/
  | retireDone (n : OwnerNo)
  /-- ABANDON_DONE (R252): The abandoned group is undone and STATE returns to IDLE. -/
  | abandonDone (n : OwnerNo)
  /-- DRAIN_TIMEOUT (R260): The drain limit passes with the drain incomplete. -/
  | drainTimeout (n : OwnerNo)
  /-- G_INSERT (R249): Group operation G_INSERT inserts an entry visible in the pending view only. -/
  | gInsert (fn : FnNo) (p : PipeNo) (v : Word)
  /-- G_REPLACE (R249): Group operation G_REPLACE stages a new entry and marks the old one current-only. -/
  | gReplace (fn : FnNo) (p : PipeNo) (v : Word)
  /-- G_DELETE (R249): Group operation G_DELETE marks an entry current-only. -/
  | gDelete (fn : FnNo) (p : PipeNo) (v : Word)
  /-- G_TC_INSERT (R249): Group operation G_TC_INSERT inserts a TCAM entry in the pending view only. -/
  | gTcInsert (fn : FnNo) (p : PipeNo) (v : Word)
  /-- G_TC_DELETE (R249): Group operation G_TC_DELETE marks a TCAM entry current-only. -/
  | gTcDelete (fn : FnNo) (p : PipeNo) (v : Word)
  /-- BPM_AUD_POP (R284): BPM_AUD_CTL.POP removes the head orphan report. -/
  | bpmAudPop (fn : FnNo) (n : OwnerNo)
  /-- BPM_RECLAIM (R285): BPM_RECLAIM.GO checks a reported buffer and frees it if unreferenced. -/
  | bpmReclaim (fn : FnNo) (n : OwnerNo) (v : Word)
  /-- BPM_FENCE_GO (R287): BPM_FENCE_CTL.GO fences a slice by command. -/
  | bpmFenceGo (fn : FnNo) (v : Word)
  /-- BANK_CONTROLLER_FAULT (R287): A bank controller fault or error threshold fences its slice. -/
  | bankControllerFault (sl : Fin 16)
  /-- PORT_LIVE_SET (R297): LIVE sets after LINK_UP has held for UP_HOLD ms. -/
  | portLiveSet (n : PortNo)
  /-- WATCHDOG_CHECK (R310): Every 100 µs the watchdog enters or leaves discard mode for stalled queues. -/
  | watchdogCheck
  /-- DOWN_FLUSH_EXPIRY (R322): A port down for DOWN_FLUSH µs enters DOWN_DROP and drops its queues. -/
  | downFlushExpiry (n : PortNo)
  /-- TM_IA_READ (R326): TM indirect READ reads a policer, member group, slot or multicast group. -/
  | tmIaRead (fn : FnNo) (p : PipeNo) (v : Word)
  /-- TM_IA_WRITE (R326): TM indirect WRITE writes a whole entry, pending for policers. -/
  | tmIaWrite (fn : FnNo) (p : PipeNo) (v : Word)
  /-- TM_IA_READ_CLEAR (R326): TM indirect READ_CLEAR reads a policer and clears its colour counts. -/
  | tmIaReadClear (fn : FnNo) (p : PipeNo) (v : Word)
  /-- TIME_SET_GO (R336): TIME_SET_CTL.GO loads the staged time next cycle, or arms it for the next PPS_IN edge. -/
  | timeSetGo (fn : FnNo) (v : Word)
  /-- TIME_SET_TIMEOUT (R336): No PPS_IN edge within 1.1 s of an AT = 1 set refuses it. -/
  | timeSetTimeout
  /-- TIME_ADJ_GO (R333): TIME_ADJ_CTL.GO adds an adjustment as a trim or a step. -/
  | timeAdjGo (fn : FnNo) (v : Word)
  /-- TIME_FREQ_WRITE (R332): A write of TIME_FREQ sets the frequency word or is refused under a servo. -/
  | timeFreqWrite (fn : FnNo) (v : Word)
  /-- TIME_SRC_CHANGE (R341): A change of SRC restarts the servo, clears holdover and is audited. -/
  | timeSrcChange (fn : FnNo) (v : Word)
  /-- COUNTER_FAULT (R331): The two time base copies differ, VALID clears and counting continues from copy 0. -/
  | counterFault (second : Bool) (bit : Fin 122)
  /-- PPS_IN_EDGE (R342): A PPS_IN rising edge feeds the servo, applies an AT = 1 set, or is an outlier. -/
  | ppsInEdge (age : Nat)
  /-- SERVO_CORRECTION (R342): The servo applies a correction by ADJ or as a step. Under SRC 1 `ref` is the age, in 1/16 ns, of a rising
  edge of TIME_REF_IN that it measures first (R341). -/
  | servoCorrection (ref : Option Nat := none)
  /-- SOURCE_LOSS (R343): A time source is declared lost and the time base enters holdover. -/
  | sourceLoss
  /-- SOURCE_REVERT (R345): A source free of loss for REVERT seconds resumes servo control and leaves holdover. -/
  | sourceRevert
  /-- TIME_LINK_FRAME_TX (R346): Each interval a time link frame is sent on every active time link port. -/
  | timeLinkFrameTx
  /-- TIME_LINK_FRAME_RX (R348): A received time link frame yields offset and delay and updates the dataset. -/
  | timeLinkFrameRx (k : Fin 4) (bytes : Bytes) (age : RefAt)
  /-- DATASET_EXPIRY (R350): A link's dataset expires after TIMEOUT intervals without a valid frame. -/
  | datasetExpiry (k : Fin 4)
  /-- PPS_ARM (R353): TIME_PPS_CTL.ARM takes START, PERIOD and WIDTH and arms the output. -/
  | ppsArm (fn : FnNo) (k : Fin 4) (v : Word)
  /-- PPS_DISARM (R354): TIME_PPS_CTL.DISARM returns the output to its inactive level. -/
  | ppsDisarm (fn : FnNo) (k : Fin 4) (v : Word)
  /-- PPS_EDGE_EMIT (R340): A scheduled pulse edge is emitted when the time base reaches it, or skipped or late on a step. -/
  | ppsEdgeEmit (k : Fin 4)
  /-- EVT_CAPTURE (R356): An edge on a capture input enters its FIFO with time, STEP_SEQ and holdover. -/
  | evtCapture (k : Fin 4) (fall : Bool) (age : Nat)
  /-- TIME_EVT_POP (R356): TIME_EVT_CTL.POP removes the head capture entry. -/
  | timeEvtPop (fn : FnNo) (k : Fin 4) (v : Word)
  /-- TXQ_POP (R378): PORT_TS_TXQ_CTL.POP removes the head two-step record. -/
  | txqPop (fn : FnNo) (n : PortNo)
  /-- CAL_GO (R381): PORT_TS_CAL_CTL.GO starts a loopback calibration, or refuses it. -/
  | calGo (fn : FnNo) (n : PortNo) (v : Word)
  /-- CAL_FRAME_TX (R381): A calibration frame is sent every 1 µs during a run. -/
  | calFrameTx (n : PortNo)
  /-- CAL_FRAME_RX (R381): A returned calibration frame is matched and its residual taken. -/
  | calFrameRx (n : PortNo) (bytes : Bytes) (age : RefAt)
  /-- CAL_DONE (R381): A calibration run ends with MEAN, SPREAD and its result. -/
  | calDone (n : PortNo)
  /-- TT_LATE_POP (R396): TT_LATE_CTL.POP removes the head late record. -/
  | ttLatePop (fn : FnNo) (n : OwnerNo)
  /-- WB_FLUSH (R413): WB_STRM_CTL.FLUSH closes the stream's open sheet. -/
  | wbFlush (fn : FnNo) (n : OwnerNo) (v : Word)
  /-- WB_KEY_IDX_WRITE (R416): A change of KEY_IDX closes the open sheet with CLOSE 4 and is audited. -/
  | wbKeyIdxWrite (fn : FnNo) (n : OwnerNo) (v : Word)
  /-- WB_KEY_GO (R415): WB_KEY_CTL.GO loads or erases a key slot, or refuses it. -/
  | wbKeyGo (fn : FnNo) (v : Word)
  /-- WB_EXP_PORT_WRITE (R421): A write to WB_EXP_PORT is accepted only for a port of the named Pitch. -/
  | wbExpPortWrite (fn : FnNo) (k : Fin 4) (v : Word)
  /-- SHEET_HASH_DONE (R412): A hash engine completes CHAIN and TAG of a closed sheet. -/
  | sheetHashDone (n : OwnerNo)
  /-- SHEET_EXPORT (R422): A sheet frame is offered to an export port queue, or retried on refusal. -/
  | sheetExport (n : OwnerNo)
  /-- EXPORT_RETRY (R422): A refused sheet is offered again 1 µs later to the next port. -/
  | exportRetry (n : OwnerNo)
  /-- HASH_ENGINE_LOSS (R418): A hash engine goes out of service and streams run at half rate. -/
  | hashEngineLoss (e : Fin 2)
  /-- HASH_ENGINE_RETURN (R418): A hash engine returns to service and pending gaps are written. -/
  | hashEngineReturn (e : Fin 2)
  /-- OST_ADD (R458): Ostler ADD: d = a + b. -/
  | ostAdd (t : ThreadNo)
  /-- OST_SUB (R458): Ostler SUB: d = a − b. -/
  | ostSub (t : ThreadNo)
  /-- OST_AND (R458): Ostler AND: d = a AND b. -/
  | ostAnd (t : ThreadNo)
  /-- OST_OR (R458): Ostler OR: d = a OR b. -/
  | ostOr (t : ThreadNo)
  /-- OST_XOR (R458): Ostler XOR: d = a XOR b. -/
  | ostXor (t : ThreadNo)
  /-- OST_SHL (R458): Ostler SHL: d = a << (b mod 32). -/
  | ostShl (t : ThreadNo)
  /-- OST_SHR (R458): Ostler SHR: logical right shift. -/
  | ostShr (t : ThreadNo)
  /-- OST_SAR (R458): Ostler SAR: arithmetic right shift. -/
  | ostSar (t : ThreadNo)
  /-- OST_MUL (R458): Ostler MUL: low 32 bits of a × b. -/
  | ostMul (t : ThreadNo)
  /-- OST_MULHU (R458): Ostler MULHU: high 32 bits of unsigned a × b. -/
  | ostMulhu (t : ThreadNo)
  /-- OST_SLTU (R458): Ostler SLTU: d = 1 if a < b unsigned. -/
  | ostSltu (t : ThreadNo)
  /-- OST_SLT (R458): Ostler SLT: d = 1 if a < b signed. -/
  | ostSlt (t : ThreadNo)
  /-- OST_ADDI (R458): Ostler ADDI: d = a + sign-extended imm. -/
  | ostAddi (t : ThreadNo)
  /-- OST_ANDI (R458): Ostler ANDI: d = a AND imm. -/
  | ostAndi (t : ThreadNo)
  /-- OST_ORI (R458): Ostler ORI: d = a OR imm. -/
  | ostOri (t : ThreadNo)
  /-- OST_XORI (R458): Ostler XORI: d = a XOR imm. -/
  | ostXori (t : ThreadNo)
  /-- OST_SHLI (R458): Ostler SHLI: shift left by IMM[4:0]. -/
  | ostShli (t : ThreadNo)
  /-- OST_SHRI (R458): Ostler SHRI: logical shift right by IMM[4:0]. -/
  | ostShri (t : ThreadNo)
  /-- OST_SARI (R458): Ostler SARI: arithmetic shift right by IMM[4:0]. -/
  | ostSari (t : ThreadNo)
  /-- OST_LUI (R458): Ostler LUI: d = imm << 16. -/
  | ostLui (t : ThreadNo)
  /-- OST_SLTIU (R458): Ostler SLTIU: d = 1 if a < imm unsigned. -/
  | ostSltiu (t : ThreadNo)
  /-- OST_LDW (R440): Ostler LDW loads a data word, faulting on misalignment or range. -/
  | ostLdw (t : ThreadNo)
  /-- OST_LDH (R440): Ostler LDH loads a data half-word. -/
  | ostLdh (t : ThreadNo)
  /-- OST_LDB (R440): Ostler LDB loads a data byte. -/
  | ostLdb (t : ThreadNo)
  /-- OST_STW (R441): Ostler STW stores a data word. -/
  | ostStw (t : ThreadNo)
  /-- OST_STH (R441): Ostler STH stores a data half-word. -/
  | ostSth (t : ThreadNo)
  /-- OST_STB (R441): Ostler STB stores a data byte. -/
  | ostStb (t : ThreadNo)
  /-- OST_AMOADD (R441): Ostler AMOADD atomically adds to a word and returns the old value. -/
  | ostAmoadd (t : ThreadNo)
  /-- OST_AMOSWAP (R441): Ostler AMOSWAP atomically swaps a word and returns the old value. -/
  | ostAmoswap (t : ThreadNo)
  /-- OST_BEQ (R458): Ostler BEQ branches if a = b. -/
  | ostBeq (t : ThreadNo)
  /-- OST_BNE (R458): Ostler BNE branches if a ≠ b. -/
  | ostBne (t : ThreadNo)
  /-- OST_BLTU (R458): Ostler BLTU branches if a < b unsigned. -/
  | ostBltu (t : ThreadNo)
  /-- OST_BGEU (R458): Ostler BGEU branches if a ≥ b unsigned. -/
  | ostBgeu (t : ThreadNo)
  /-- OST_JMP (R458): Ostler JMP jumps to TARGET. -/
  | ostJmp (t : ThreadNo)
  /-- OST_CALL (R443): Ostler CALL allocates a window and jumps, trapping on overflow. -/
  | ostCall (t : ThreadNo)
  /-- OST_JR (R455): Ostler JR jumps to a register address, faulting XFER from customer code. -/
  | ostJr (t : ThreadNo)
  /-- OST_CALLR (R443): Ostler CALLR calls a register address with a new window. -/
  | ostCallr (t : ThreadNo)
  /-- OST_RET (R443): Ostler RET returns and releases a window, trapping on underflow. -/
  | ostRet (t : ThreadNo)
  /-- OST_FORK (R434): Ostler FORK starts the lowest FREE thread of the owner. -/
  | ostFork (t : ThreadNo)
  /-- OST_JOIN (R436): Ostler JOIN collects an exit value, waits, or faults on a bad or cyclic target. -/
  | ostJoin (t : ThreadNo)
  /-- OST_EXIT (R435): Ostler EXIT ends the thread, releasing holds and waking a joiner. -/
  | ostExit (t : ThreadNo)
  /-- OST_WAITT (R439): Ostler WAITT sleeps until a NOW deadline or a selected event. -/
  | ostWaitt (t : ThreadNo)
  /-- WAITT_WAKE (R439): A waiting thread becomes READY when its deadline or event arrives. -/
  | waittWake (t : ThreadNo)
  /-- OST_RDT (R438): Ostler RDT returns NOW halves, the thread ID or the owner. -/
  | ostRdt (t : ThreadNo)
  /-- OST_FLD (R459): Ostler FLD reads a register in the owner's function view. -/
  | ostFld (t : ThreadNo)
  /-- OST_FST (R459): Ostler FST writes a register in the owner's function view. -/
  | ostFst (t : ThreadNo)
  /-- ACCESS_COMPLETE (R441): A waited data, fabric or buffer access completes and the thread becomes READY. -/
  | accessComplete (t : ThreadNo)
  /-- OST_XGET (R462): Ostler XGET pops an exception copy into a handle slot. -/
  | ostXget (t : ThreadNo)
  /-- OST_BALLOC (R461): Ostler BALLOC requests a buffer into a slot. -/
  | ostBalloc (t : ThreadNo)
  /-- OST_BFREE (R461): Ostler BFREE releases a slot's hold. -/
  | ostBfree (t : ThreadNo)
  /-- OST_BLD (R461): Ostler BLD reads from a buffer or exception header. -/
  | ostBld (t : ThreadNo)
  /-- OST_BST (R461): Ostler BST writes into a buffer. -/
  | ostBst (t : ThreadNo)
  /-- OST_BSEND (R463): Ostler BSEND sends a slot's frame into a port queue. -/
  | ostBsend (t : ThreadNo)
  /-- OST_HPUT (R461): Ostler HPUT moves a slot's handle to a register, keeping the hold. -/
  | ostHput (t : ThreadNo)
  /-- OST_HTAKE (R461): Ostler HTAKE puts a handle into a slot without a hold. -/
  | ostHtake (t : ThreadNo)
  /-- OST_SYS (R458): Ostler SYS runs a vendor-only function, faulting PRIV from customer code. -/
  | ostSys (t : ThreadNo)
  /-- OST_ILLEGAL (R458): An unlisted Ostler opcode faults with ILLEGAL. -/
  | ostIllegal (t : ThreadNo)
  /-- OST_THREAD_RESET (R464): OST_THR_CTL.RESET resets a thread to FREE, releasing its holds. -/
  | ostThreadReset (fn : FnNo) (t : ThreadNo)
  /-- SUP_START (R430): OST_OWN_CTL.SUP_START restarts the owner's supervisor. -/
  | supStart (fn : FnNo) (n : OwnerNo)
  /-- OST_KICK (R439): OST_OWN_CTL.KICK raises the KICK event for waiting threads. -/
  | ostKick (fn : FnNo) (n : OwnerNo)
  /-- OST_PS_DATA_WRITE (R452): A write of OST_PS_DATA stores a customer word and steps the address, or is refused. -/
  | ostPsDataWrite (fn : FnNo) (n : OwnerNo) (v : Word)
  /-- OST_CUST_ENABLE (R453): OST_CUST_CTL.EN = 1 starts the customer region check. -/
  | ostCustEnable (fn : FnNo) (n : OwnerNo)
  /-- OST_CUST_CHECK_DONE (R453): The customer region check ends; on success STATE becomes ON and the entry thread starts. -/
  | ostCustCheckDone (n : OwnerNo)
  /-- OST_CUST_DISABLE (R454): OST_CUST_CTL.EN = 0 turns the region OFF and faults threads running in it. -/
  | ostCustDisable (fn : FnNo) (n : OwnerNo)
  /-- SMP_RESTART (R486): CNT_SMP_CTL.RESTART empties the sample buffer. -/
  | smpRestart (fn : FnNo) (n : OwnerNo) (v : Word)
  /-- CNT_SNAP_GO (R470): CNT_SNAP_CTL.GO fixes a snapshot instant for the owner's counters. -/
  | cntSnapGo (fn : FnNo) (n : OwnerNo)
  /-- CNT_SNAP_DONE (R470): Every counter copy is taken, FROZEN sets and the instant is recorded. -/
  | cntSnapDone (n : OwnerNo)
  /-- CNT_THAW (R472): CNT_SNAP_CTL.THAW clears FROZEN and reads return live values. -/
  | cntThaw (fn : FnNo) (n : OwnerNo)
  /-- INPUT_DROP_REGRANT (R493): A sampled input fall below the budget re-grants from the new budget within 20 µs. -/
  | inputDropRegrant (mv : Fin 65536)
  /-- INPUT_UNDERVOLTAGE (R491): Input below 5.4 V for 10 µs turns off every switched domain and asserts FAULT_N. -/
  | inputUndervoltage
  /-- INPUT_OVERVOLTAGE (R614): Input above 63 V stops the converter and every rail falls. -/
  | inputOvervoltage
  /-- DROOP_TRIP (R506): A region's voltage below its droop threshold withholds pulses within 4 ticks; `dip` is how far it stands below the
  set point, in 2.5 mV. -/
  | droopTrip (r : RegionNo) (dip : Nat := 33)
  /-- DROOP_RECOVERY (R506): After 1 µs above threshold the added skip falls by 8 each µs. -/
  | droopRecovery (r : RegionNo)
  /-- THERMAL_SAMPLE (R515): Every 10 µs the sensors are compared with WARN and LIMIT and skip ratios adjusted. -/
  | thermalSample (ts : List (Nat × Int))
  /-- THERMAL_TRIP (R515): A sensor reaching 112 °C turns off every switched domain and asserts FAULT_N. -/
  | thermalTrip
  /-- NEIGHBOUR_EQUALISE (R513): A neighbour pair beyond a limit is equalised in voltage, temperature or skip ratio; `diff` is the voltage
  difference in mV, and `gone` says that it lies within 50 mV. -/
  | neighbourEqualise (a b : RegionNo) (q : Fin 3) (gone : Bool) (diff : Nat := 61)
  /-- MARGIN_LOW (R509): A path monitor reporting low margin holds its region at k of at least 8. -/
  | marginLow (r : RegionNo)
  /-- LANE_GROUP_ADMIT (R547): A due lane group is admitted and starts calibrating. -/
  | laneGroupAdmit (g : GroupNo)
  /-- LANE_GROUP_CAL_DONE (R547): A lane group finishes calibration, setting READY or failing. -/
  | laneGroupCalDone (g : GroupNo) (ok : Bool)
  /-- DOMAIN_ADMIT (R545): The Postilion admits a switched domain after the previous one on its rail is ready. -/
  | domainAdmit (d : DomainNo)
  /-- DOMAIN_READY (R545): A domain passes or fails its self-test and sets its ready or fail bit. -/
  | domainReady (d : DomainNo) (ok : Bool)
  /-- DOMAIN_FAULT (R570): A run-time fault of a switched domain turns it off and holds its pipeline. -/
  | domainFault (d : DomainNo)
  /-- REFCLK_LOSS (R521): REFCLK missing or off frequency sets REF_LOSS and PLLs hold frequency. -/
  | refclkLoss
  /-- REFCLK_RETURN (R521): REFCLK good for 1 ms lets PLLs steer back to lock. -/
  | refclkReturn
  /-- PLL_LOSS_OF_LOCK (R568): A device PLL loses lock with the effects of Table 21.3. -/
  | pllLossOfLock (k : Fin 7)
  /-- PLL_RELOCK (R568): A device PLL relocks and the part recovers as Table 21.3 gives. -/
  | pllRelock (k : Fin 7)
  /-- FABRIC_LOSS (R569): The fabric or PCIe endpoint silent for 10 µs asserts FAULT_N. -/
  | fabricLoss (pcie : Bool)
  /-- PIT_COMMIT_GO (R64): PIT_COMMIT.GO commits staged pipeline owners or reports the first failed condition. -/
  | pitCommitGo (fn : FnNo)
  /-- PIT_CTL_WRITE (R69): A write of PIT_CTL holds or releases a Pitch in reset. -/
  | pitCtlWrite (fn : FnNo) (n : OwnerNo) (v : Word)
  /-- DEVICE_RESET_GO (R530): CLK_RST_DEV.GO runs a Warden device reset. -/
  | deviceResetGo (fn : FnNo)
  /-- PORT_RESET_GO (R532): PORT_RST.GO squelches and resets the port's link logic. -/
  | portResetGo (fn : FnNo) (n : PortNo)
  /-- PORT_RESET_RESTART (R532): After 10 µs of reset the port starts as at first enable. -/
  | portResetRestart (n : PortNo)
  /-- LANE_RESET_GO (R533): LG_LN_RST.GO returns a receiver to its state before lock. -/
  | laneResetGo (fn : FnNo) (g : GroupNo) (l : Fin 16)
  /-- POWER_GOOD (R538): Input rising above 5.8 V starts bring-up: rails, ROM, fuses and PLLs. -/
  | powerGood (loop refOk : Bool) (stop : Fin 10) (plls : Fin 128)
  /-- PERST_DEASSERT (R538): PERST_N deasserting releases PCIe internal reset and the link trains. -/
  | perstDeassert
  /-- PCIE_LINK_UP (R540): The PCIe link comes up and all 17 functions enumerate. -/
  | pcieLinkUp (speed : Fin 8) (lanes : Fin 32)
  /-- SPI_BOOT_READ (R541): The part discovers the SPI flash and reads the container, or waits for the host. -/
  | spiBootRead (modes : Fin 32) (block : Bytes) (four : Bool := false)
  /-- DEVICE_LOAD (R542): A container with good signatures fixes the layout, fills the store and is audited. -/
  | deviceLoad (c : Container)
  /-- CONTAINER_PUSH_GO (R595): DEV_PUSH_CTL.GO reads a container from host memory. -/
  | containerPushGo (fn : FnNo) (ok : Bool)
  /-- IRQ_PEND_WRITE (R560): A W1C write to IRQ_PEND clears bits and resends the MSI if the condition stays set. -/
  | irqPendWrite (fn : FnNo) (n : OwnerNo) (v : Word)
  /-- IRQ_HIST_POP (R564): IRQ_HIST_CTL.POP removes the head history entry. -/
  | irqHistPop (fn : FnNo) (n : OwnerNo)
  /-- DMA_TAIL_WRITE (R581): A write of a ring's TAIL hands descriptors to the part or is a ring error. -/
  | dmaTailWrite (fn : FnNo) (f : FnNo) (r : RingNo) (v : Word)
  /-- DMA_RING_EN_WRITE (R590): A write of DMA_RING_CTL.EN starts or stops a ring, zeroing HEAD and TAIL when cleared. -/
  | dmaRingEnWrite (fn : FnNo) (f : FnNo) (r : RingNo) (v : Word)
  /-- DMA_TX_DESCRIPTOR (R583): A ring 0 descriptor injects a frame into a port queue. -/
  | dmaTxDescriptor (f : FnNo) (desc frame : Bytes) (err : Bool)
  /-- DMA_EXC_WRITE (R585): An exception copy is written with its header to a ring 1 or 2 descriptor. -/
  | dmaExcWrite (f : FnNo) (r : RingNo) (desc : Bytes) (err : Bool)
  /-- DMA_SHEET_WRITE (R588): A Waybill sheet is written whole to a ring 3 descriptor. -/
  | dmaSheetWrite (f : FnNo) (desc : Bytes) (err : Bool)
  /-- DMA_FREE (R587): A write of DMA_FREE releases a kept hold. -/
  | dmaFree (fn : FnNo) (f : FnNo) (v : Word)
  /-- FUNCTION_LEVEL_RESET (R577): An FLR of a function stops its rings and resets its DMA state. -/
  | functionLevelReset (f : FnNo)
  /-- PCIE_HOT_RESET (R577): A hot or conventional reset resets every function's PCIe and DMA state. -/
  | pcieHotReset
  /-- I2C_WRITE (R598): An I2C write transfer of KIND 0. -/
  | i2cWrite (fn : FnNo) (m : Fin 8) (v : Word)
  /-- I2C_READ (R598): An I2C read transfer of KIND 1. -/
  | i2cRead (fn : FnNo) (m : Fin 8) (v : Word)
  /-- I2C_WRITE_READ (R598): An I2C write then read with repeated START, KIND 2. -/
  | i2cWriteRead (fn : FnNo) (m : Fin 8) (v : Word)
  /-- I2C_BAD_KIND (R598): An I2C command of KIND 3 returns result 0x5. -/
  | i2cBadKind (fn : FnNo) (m : Fin 8) (v : Word)
  /-- I2C_ADDRESS_RETRY (R599): After an address NACK the master retries after GAP_US. -/
  | i2cAddressRetry (m : Fin 8)
  /-- I2C_DONE (R598): An I2C transfer ends with STOP and a result. -/
  | i2cDone (m : Fin 8) (res : Fin 16) (done : Nat) (bytes : Bytes) (bus : I2cBus := {}) (after : I2cBus := {})
  /-- CMIS_READ (R601): A CMIS mailbox read asks firmware for module bytes. -/
  | cmisRead (fn : FnNo) (n : PortNo) (v : Word)
  /-- CMIS_WRITE (R601): A CMIS mailbox write, allowed only by SB_CMIS_WR. -/
  | cmisWrite (fn : FnNo) (n : PortNo) (v : Word)
  /-- CMIS_DONE (R601): Firmware completes a mailbox request with a result. -/
  | cmisDone (n : PortNo) (res : Fin 16) (bytes : Bytes)
  /-- SMB_STATUS (R602): SMBus command 0x00 returns stage and fault status. -/
  | smbStatus (ask : SmbAsk := .read)
  /-- SMB_INPUT_VOLTAGE (R602): SMBus command 0x01 returns the input voltage. -/
  | smbInputVoltage (ask : SmbAsk := .read)
  /-- SMB_INPUT_POWER (R602): SMBus command 0x02 returns average input power. -/
  | smbInputPower (ask : SmbAsk := .read)
  /-- SMB_HOTTEST_SENSOR (R602): SMBus command 0x03 returns the hottest sensor reading. -/
  | smbHottestSensor (ask : SmbAsk := .read)
  /-- SMB_IRQ_SUMMARY (R602): SMBus command 0x04 returns IRQ_SUM[0] and the highest severity. -/
  | smbIrqSummary (ask : SmbAsk := .read)
  /-- SMB_SERIAL (R602): SMBus command 0x05 returns the fused serial. -/
  | smbSerial (ask : SmbAsk := .read)
  /-- SMB_PCIE_STATUS (R602): SMBus command 0x06 returns PCIe link state. -/
  | smbPcieStatus (ask : SmbAsk := .read)
  /-- JTAG_BYPASS (R603): TAP instruction BYPASS. -/
  | jtagBypass (code : BitVec 8 := 0xFF)
  /-- JTAG_IDCODE (R603): TAP instruction IDCODE returns 0x1A10954F. -/
  | jtagIdcode
  /-- JTAG_SAMPLE_PRELOAD (R603): TAP instruction SAMPLE/PRELOAD. -/
  | jtagSamplePreload (bits : List Bool := [])
  /-- JTAG_EXTEST (R603): TAP instruction EXTEST takes the lands when permitted. -/
  | jtagExtest
  /-- JTAG_EXTEST_PULSE (R603): TAP instruction EXTEST_PULSE under IEEE 1149.6. -/
  | jtagExtestPulse
  /-- JTAG_EXTEST_TRAIN (R603): TAP instruction EXTEST_TRAIN under IEEE 1149.6. -/
  | jtagExtestTrain
  /-- JTAG_CLAMP (R603): TAP instruction CLAMP. -/
  | jtagClamp
  /-- JTAG_HIGHZ (R603): TAP instruction HIGHZ. -/
  | jtagHighz
  /-- JTAG_TEST_LOGIC_RESET (R603): Test-Logic-Reset selects IDCODE. -/
  | jtagTestLogicReset
  /-- PRESENCE_ASSERT (R605): PRESENCE_N held low for 50 ms opens or restarts the presence window. -/
  | presenceAssert
  /-- PRESENCE_RELEASE (R605): PRESENCE_N rising starts the WINDOW countdown. -/
  | presenceRelease
  /-- PRESENCE_WINDOW_EXPIRY (R605): The presence window's time ends and it closes. -/
  | presenceWindowExpiry
  /-- PRES_CLOSE (R605): DEV_PRES_CTL.CLOSE closes the presence window. -/
  | presClose (fn : FnNo) (v : Word)
  /-- SEAL_OPEN (R607): 16 wrong seal bits open the loop and close the presence window. -/
  | sealOpen
  /-- SEAL_CLOSE (R607): The seal loop closes after 1 s without a wrong bit. -/
  | sealClose
  /-- FWD_CLOCK_LOCK (R83): The receiver of lane 15 locks to the forwarded clock and LG_STATUS.FWD_LOCK sets, letting the data lanes sample and a MODE 5 port come up. -/
  | fwdClockLock (g : GroupNo)
  /-- TX_PLL_LOSS_OF_LOCK (R521): A lane group transmit PLL loses lock and LG_CAUSE.PLL_LOL sets and persists while PLL_LOCK is 0. -/
  | txPllLossOfLock (g : GroupNo)
  /-- TX_PLL_RELOCK (R521): A lane group transmit PLL regains lock, PLL_LOCK sets and the persisting PLL_LOL cause ends. -/
  | txPllRelock (g : GroupNo)
  /-- ALWAYS_ON_DOMAIN_LOST (R491): The input falls below 5.0 V and the always-on domain is lost, so the next rise above 5.8 V is a power-on reset. -/
  | alwaysOnDomainLost (mv : Fin 5000 := 4999)
  /-- OVERVOLTAGE_RECOVERY (R614): After the converter stopped above 63 V, the input falls back below 61 V and the part starts as at a power-on reset. -/
  | overvoltageRecovery (loop refOk : Bool) (stop : Fin 10) (plls : Fin 128)
  /-- DMA_COMPLETION_TIMEOUT (R576): A DMA read not completed within 10 ms is a completion timeout and stops its ring as a ring error. -/
  | dmaCompletionTimeout (f : FnNo) (r : RingNo)
  /-- PCIE_CONFIG_WRITE (R560): A host write to a function's configuration space unmasks its MSI vector, sending a held message, or changes MSI enable or Interrupt Disable and thus INTA. -/
  | pcieConfigWrite (f : FnNo) (msiEn mask intxDis : Bool) (mps : Fin 3 := 0) (mrrs : Fin 6 := 2)
  /-- OST_PS_DATA_READ (R452): A read of OST_PS_DATA returns the program word at OST_PS_ADDR and steps the address by one. -/
  | ostPsDataRead (fn : FnNo) (n : OwnerNo)
  /-- AN_COMPLETE (R116): Clause 73 auto-negotiation resolves to the port's own formation, AN_DONE sets and the port moves on to training or data. -/
  | anComplete (n : PortNo)
  /-- LINK_TRAINING_FRAME_RX (R117): A received IEEE link training frame carries the partner's coefficient requests, which the port applies or answers at limit, until training completes and TRAIN_DONE sets. -/
  | linkTrainingFrameRx (n : PortNo) (l : LaneNo) (tap : Fin 6) (dir : Fin 4) (done : Bool)
  /-- MEMORY_UPSET (R178): A bit of a table, TCAM, store, buffer or data memory array flips, to be found later by parity, shadow comparison or SECDED. -/
  | memoryUpset (at_ : UpsetAt)
  deriving DecidableEq, Repr

end Sys2Proof
end

