-- ==== Sys2Proof/Config.lean ====
section
/-! DEFINITION. What the manual leaves open: free values. Nothing in Lean can evaluate these constants, so whatever is
proved of the machine holds for every value of them. A meaning takes a fresh one by applying the constant to
`State.freeIx`, a plain counter that it then advances. Each use is named in the assumption log. -/

namespace Sys2Proof.Config

/-- A free number below 2^32: a random draw, a bounded but unstated count, an unstated word. -/
opaque freeWord : Nat → BitVec 32

/-- A free byte: the contents of memory that no rule gives. -/
opaque freeByte : Nat → BitVec 8

/-- A free choice between two behaviours that the manual both allows. -/
opaque freeBool : Nat → Bool

/-- The Postilion cycles that stage `stage` takes to adopt Round `round`, of which at most 100 count (R175). -/
opaque stageLag : Nat → Nat → Nat

/-- The symbols of SSPRBS, as IEEE 802.3 Clause 120 defines it (R97): the manual gives none of them. -/
opaque ssprbs : Nat → Fin 4

/-- The phase of the transmit clock of a port at a start slot, and the position of the reference bit in its word (R364). -/
opaque txEdge : Nat → Nat → Nat × Nat

/-- The fused set point code of a region (R507). -/
opaque vfuse : Nat → BitVec 8

end Sys2Proof.Config
end

