-- ==== Sys2Proof/Machine/Map.lean ====
section
/-! DEFINITION. Sparse maps: every array of the machine (registers, counters, table rows, program words, data bytes,
buffers, queues) is a list of (index, value) pairs in one canonical form, indexes strictly rising and no entry equal to
what an unlisted index reads as. `d` says what an unlisted index reads as: the reset contents. -/

namespace Sys2Proof.Machine

/-- A sparse array: (index, value) pairs. -/
abbrev SMap (α : Type) := List (Nat × α)

/-- The value at index `k`; an unlisted index reads as `d k`. -/
def SMap.get {α : Type} (d : Nat → α) : SMap α → Nat → α
  | [], k => d k
  | (k', v) :: m, k => if k = k' then v else SMap.get d m k

/-- Insert an entry before the first greater index. -/
def SMap.ins {α : Type} : SMap α → Nat → α → SMap α
  | [], k, v => [(k, v)]
  | e :: m, k, v => if k < e.1 then (k, v) :: e :: m else e :: SMap.ins m k v

/-- Write `v` at index `k`, keeping the canonical form: the entry of `k` goes, and a value other than `d k` is listed. -/
def SMap.put {α : Type} [DecidableEq α] (d : Nat → α) (m : SMap α) (k : Nat) (v : α) : SMap α :=
  let rest := m.filter fun e => e.1 != k
  if v = d k then rest else SMap.ins rest k v

/-- Every listed index is above `b`, and the indexes rise strictly. -/
def SMap.rising {α : Type} : Nat → SMap α → Bool
  | _, [] => true
  | b, (k, _) :: m => decide (b < k) && SMap.rising k m

/-- The indexes rise strictly. -/
def SMap.sorted {α : Type} : SMap α → Bool
  | [] => true
  | (k, _) :: m => SMap.rising k m

/-- The canonical form: strictly rising indexes, and no entry equal to what an unlisted index reads as. -/
def SMap.wf {α : Type} [DecidableEq α] (d : Nat → α) (m : SMap α) : Bool :=
  SMap.sorted m && m.all fun e => decide (e.2 ≠ d e.1)

/-- Remove every index that `p` picks (the index reads as reset again). -/
def SMap.drop {α : Type} (m : SMap α) (p : Nat → Bool) : SMap α :=
  m.filter fun e => !p e.1

end Sys2Proof.Machine
end

