-- ==== Sys2Proof/Machine/RegMap.lean ====
section
/-! DEFINITION. The register window of Table 22.1, register by register: for each register of spec/ its
address as a function of its indexes (namespace `R`), its fields (namespace `F`), its access types and
its reset value; for each 48-bit counter the address of its COUNT_LO word (namespace `C`). The addresses,
fields, types and reset values are those of the "Registers" section of each chapter; the regions are those
of Tables 22.1 to 22.3. -/

namespace Sys2Proof.Machine

/-- A region of the register window with the indexes that select one instance of it (Tables 22.1 to 22.3). -/
inductive Region where
  /-- The device block, Table 22.3. -/
  | dev
  /-- An owner page of the interrupt block. -/
  | irqPage (n : Nat)
  /-- The global part of the interrupt block. -/
  | irqG
  /-- The Postilion block. -/
  | pst
  /-- Clocks and resets. -/
  | clk
  /-- The global page of the Pitch control block. -/
  | pitG
  /-- A Pitch page of the Pitch control block. -/
  | pitPage (n : Nat)
  /-- The time base block. -/
  | time
  /-- A Timetable page. -/
  | tt (n : Nat)
  /-- The global page of the Waybill. -/
  | wb
  /-- A Waybill stream page. -/
  | wbStrm (n : Nat)
  /-- A lane group. -/
  | lg (g : Nat)
  /-- A lane of a lane group. -/
  | lane (g : Nat) (l : Nat)
  /-- A port. -/
  | port (n : Nat)
  /-- The Buffer Pool Manager global registers. -/
  | bpm
  /-- A Buffer Pool Manager owner page. -/
  | bpmPage (n : Nat)
  /-- A Buffer Pool Manager writer window. -/
  | bpmWr (p : Nat)
  /-- A traffic manager pipeline window. -/
  | tmPipe (p : Nat)
  /-- A traffic manager port region. -/
  | tmPort (n : Nat)
  /-- An Ostler cluster. -/
  | ostCl (c : Nat)
  /-- An Ostler thread. -/
  | ostThr (c : Nat) (k : Nat) (t : Nat)
  /-- An Ostler owner page. -/
  | ostOwn (n : Nat)
  /-- A counter page. -/
  | cnt (n : Nat)
  /-- A host DMA page. -/
  | dma (f : Nat)
  /-- A host DMA ring. -/
  | ring (f : Nat) (r : Nat)
  /-- The sideband block. -/
  | sb
  /-- A parser window. -/
  | par (p : Nat)
  /-- A stage window. -/
  | stg (p : Nat) (s : Nat)
  /-- A TCAM engine window. -/
  | tc (p : Nat)
  /-- A version block window. -/
  | ver (p : Nat)
  /-- A berth block window. -/
  | berth (p : Nat)
  /-- No register: a gap or a reserved range (R578). -/
  | none
  deriving DecidableEq, Repr

/-- The name of every register of the manual that is not a counter. -/
inductive RegId where
  | DEV_ID_PART | DEV_ID_VER | DEV_ID_FUSED_PIPES | DEV_ID_KEYHASH | DEV_ROUND_NUM | DEV_ROUND_PHASE
  | DEV_BOOT_STATUS | DEV_BOOT_CAUSE | DEV_BOOT_STAMP | DEV_BOOT_HASH | DEV_PRES_STATUS | DEV_PRES_CTL
  | DEV_PRES_CAUSE | DEV_PRES_REFUSED | DEV_PRES_LAST | DEV_JTAG_CTL | DEV_PUSH_ADDR_LO | DEV_PUSH_ADDR_HI
  | DEV_PUSH_LEN | DEV_PUSH_CTL | DEV_LOAD_CTL | DEV_LOAD_ADDR_LO | DEV_LOAD_ADDR_HI | DEV_LOAD_LEN
  | DEV_IMG_STATUS | DEV_IMG_HASH | IRQ_SUM | IRQ_PEND | IRQ_EN | IRQ_CTL
  | IRQ_OWN_CAUSE | IRQ_HIST_CTL | IRQ_HIST_ID | IRQ_HIST_S | IRQ_HIST_SF | IRQ_HIST_NS
  | IRQ_LAST_ID | IRQ_LAST_S | IRQ_LAST_SF | IRQ_LAST_NS | IRQ_HIST_LOST | IRQ_FAULTN
  | IRQ_WMASK | IRQ_BLK | PST_STATUS | PST_VIN | PST_PIN | PST_BUDGET
  | PST_CAP | PST_SHARED | PST_CAUSE | PST_THERM_THR | PST_DROOP_CTL | PST_PIT_CTL
  | PST_PIT_SHARE | PST_PIT_GRANT | PST_PIT_USE | PST_REG_STATUS | PST_REG_CTL | PST_REG_VTABLE
  | PST_REG_GRANT | PST_DOM_STATUS | PST_SENSOR | PST_DOM_READY | PST_DOM_FAIL | CLK_STATUS
  | CLK_CAUSE | CLK_RST_DEV | CLK_RST_STATUS | PIT_MAP_STAGE | PIT_MAP | PIT_COMMIT
  | PIT_MIR_CTL | PIT_MIR_TRUNC | PIT_MIR_RATE | PIT_MIR_BURST | PIT_MIR_SRC | PIT_MIR_DROP
  | PIT_AV_CNT | PIT_AV_ADDR | PIT_OST_OWNER | PIT_CTL | PIT_STATUS | PIT_XDROP
  | PIT_MC_RANGE | PIT_BUF_RSV | LG_CTL | LG_STATUS | LG_LMF_THR | LG_CAUSE
  | LG_TX_FIR | LG_LN_STATUS | LG_LN_CAUSE | LG_LN_FIR_A | LG_LN_FIR_B | LG_LN_FIR_CUR_A
  | LG_LN_FIR_CUR_B | LG_LN_RXEQ | LG_LN_RXEQ_TAP | LG_LN_TEST | LG_LN_PRBS_ERR_LO | LG_LN_PRBS_ERR_HI
  | LG_LN_EYE_CTL | LG_LN_EYE_RES | LG_LN_RST | PORT_FORM | PORT_CTL | PORT_STATUS
  | PORT_CAUSE | PORT_AN_CTL | PORT_PFC_MAP | PORT_SA_LO | PORT_SA_HI | PORT_ONZ_CTL
  | PORT_TS_CTL | PORT_TS_RX_DLY | PORT_TS_TX_DLY | PORT_TS_RX_ASYM | PORT_TS_TX_ASYM | PORT_TS_CAL_RX
  | PORT_TS_CAL_TX | PORT_TS_P2P_DLY | PORT_TS_CAL_CTL | PORT_TS_CAL_LOOP | PORT_TS_CAL_MEAN | PORT_TS_CAL_SPREAD
  | PORT_TS_TXQ_HDR | PORT_TS_TXQ_S | PORT_TS_TXQ_SF | PORT_TS_TXQ_NS | PORT_TS_TXQ_CTL | PORT_TS_CAUSE
  | PORT_TT_LEAD | PORT_TT_TIE | PORT_TT_LATE_MAX | PORT_RST | PORT_CMIS_CMD | PORT_CMIS_ADDR
  | PORT_CMIS_STATUS | PORT_CMIS_DATA | PAR_STATUS | PAR_HASH_SEED | PAR_EXC_MASK | PAR_CAUSE
  | PAR_EXC_POL_CTL | PAR_EXC_CIR | PAR_EXC_PIR | PAR_EXC_CBS | PAR_EXC_PBS | STG_STATUS
  | STG_CAUSE | STG_PAR_ADDR | STG_EM_CFG | STG_EM_CTL | STG_EM_AGE | STG_EM_SEED
  | STG_EM_OCC | STG_IA_CMD | STG_IA_STATUS | STG_IA_TS | STG_IA_DATA | STG_NOTE_HDR
  | STG_NOTE_ROUND | STG_NOTE_CTL | STG_NOTE_ENTRY | TC_CFG | TC_OCC | TC_GMASK_CTL
  | TC_GMASK | STG_UC_CAUSE | STG_UC_ERR | STG_UC_SWAP | STG_UC_SWAP_ERR | STG_UC_HASH
  | STG_UC_DIR | STG_UC_WORD | STG_UC_STBY | STG_ACT_CHAIN | TC_ENG_STATUS | TC_CAUSE
  | TC_ERR_ADDR | TC_SCRUB_CTL | TC_SCRUB_POS | TC_IA_CMD | TC_IA_STATUS | TC_IA_ENT
  | TC_IA_RES_HI | TC_IA_RES_LO | TC_IA_VAL | TC_IA_MASK | VER_CMD | VER_STATUS
  | VER_NUM | VER_DRAIN_LIMIT | VER_CAUSE | VER_DRAIN_LAST | VER_PIPE | VER_OLD_LIVE
  | VER_GW_CMD | VER_GW_STATUS | BPM_STATUS | BPM_CAUSE | BPM_DFREE | BPM_FENCE_CTL
  | BPM_AUDIT_CTL | BPM_POOL_CFG | BPM_POOL_FREE | BPM_POOL_EFF | BPM_POOL_UNRSV | BPM_OWN_CAUSE
  | BPM_OWN_HOLD | BPM_OWN_RSV | BPM_RQ_QUOTA | BPM_RQ_HOLD | BPM_AUD_HEAD | BPM_AUD_INFO
  | BPM_AUD_CTL | BPM_RECLAIM | BPM_WR_QUOTA | BPM_WR_HOLD | TM_IA_CMD | TM_IA_STATUS
  | TM_PIPE_CAUSE | TM_IA_DATA | TM_PORT_CTL | TM_PORT_STATUS | TM_PORT_CAUSE | TM_PORT_LIMIT
  | TM_PORT_SHP_CTL | TM_PORT_CIR | TM_PORT_PIR | TM_PORT_CBS | TM_PORT_PBS | TM_PFC_CTL
  | TM_WD_CTL | TM_FC_STATUS | TM_IN_PORT_XOFF | TM_IN_PORT_XON | TM_IN_PORT_OCC | TM_Q_LIMIT
  | TM_Q_SCHED | TM_Q_SHP_CTL | TM_Q_CIR | TM_Q_PIR | TM_Q_CBS | TM_Q_PBS
  | TM_Q_DEPTH | TM_IN_XOFF | TM_IN_XON | TM_IN_DROP | TM_IN_OCC | TIME_NS
  | TIME_SHD_S | TIME_SHD_SF | TIME_STATUS | TIME_CAUSE | TIME_SET_S | TIME_SET_SF
  | TIME_SET_NS | TIME_SET_CTL | TIME_ADJ_NS | TIME_ADJ_CTL | TIME_FREQ | TIME_STEP_THR
  | TIME_SRC_CTL | TIME_SRC_ERR | TIME_TRIM_SUM | TIME_PPS_IN_COMP | TIME_STEP_CNT | TIME_TRIM_CNT
  | TIME_PPS_OUTLIER | TIME_TL_BAD | TIME_PPS_CTL | TIME_PPS_START_S | TIME_PPS_START_SF | TIME_PPS_START_NS
  | TIME_PPS_PERIOD | TIME_PPS_WIDTH | TIME_PPS_SKIP | TIME_PPS_LATE | TIME_EVT_CTL | TIME_EVT_S
  | TIME_EVT_SF | TIME_EVT_NS | TIME_EVT_INFO | TIME_EVT_LOST | TIME_SYNCE_CTL | TIME_TL_CTL
  | TIME_TL_SELF | TIME_TL_SERIAL_LO | TIME_TL_SERIAL_HI | TIME_TL_PORT | TIME_TL_STAT | TIME_TL_GM_LO
  | TIME_TL_GM_HI | TIME_TL_OFS | TIME_TL_DELAY | TT_CTL | TT_FLOOR | TT_ADV_CTL
  | TT_ADV | TT_CAUSE | TT_LATE_CTL | TT_LATE_ID | TT_LATE_DS | TT_LATE_DSF
  | TT_LATE_DNS | TT_LATE_AMT | WB_STATUS | WB_CAUSE | WB_ETYPE | WB_KEY_CTL
  | WB_KEY_DATA | WB_KEY_KCV | WB_EXP_PORT | WB_EXP_DA_HI | WB_EXP_DA_LO | WB_STRM_CTL
  | WB_STRM_QUOTA | WB_STRM_STATUS | WB_STRM_CAUSE | WB_STRM_SEQ_LO | WB_STRM_SEQ_HI | WB_STRM_SHEET_LO
  | WB_STRM_SHEET_HI | OST_SLOT | OST_THR_STATE | OST_THR_FAULT | OST_THR_FADDR | OST_THR_WIN
  | OST_THR_CTL | OST_THR_HSLOT | OST_OWN_STATUS | OST_OWN_CAUSE | OST_OWN_CTL | OST_OWN_COUNT
  | OST_CUST_CTL | OST_CUST_ERR | OST_PS_ADDR | OST_PS_DATA | OST_FQ_HEAD | CNT_SNAP_CTL
  | CNT_SNAP_S | CNT_SNAP_SF | CNT_SNAP_NS | CNT_SNAP_ROUND | CNT_CAUSE | CNT_MON_CTL
  | CNT_MON_N | CNT_MON_MAX | CNT_SMP_CTL | CNT_SMP_FILT | CNT_SMP_PTR | CNT_SMP_ENTRY_LO
  | CNT_SMP_ENTRY_HI | DMA_RING_CTL | DMA_RING_BASE_LO | DMA_RING_BASE_HI | DMA_RING_TAIL | DMA_RING_HEAD
  | DMA_RING_ERR | DMA_CAUSE | DMA_FREE | DMA_EXC_STEER | SB_I2C_CTL | SB_I2C_CMD
  | SB_I2C_STATUS | SB_I2C_DATA | SB_GPIO_OUT | SB_GPIO_OE | SB_GPIO_IN | SB_CAUSE
  | SB_CMIS_WR | SB_CAGE_MAP
  deriving DecidableEq, Repr

/-- One row of a register map: the register, its offset in its region, its own indexes (count and stride, outermost
first), its reset value, its fields with their access types (Table 0.5), and whether it is Round-effective (R36). -/
structure Row where
  id : RegId
  off : Nat
  dims : List (Nat × Nat) := []
  reset : Nat := 0
  fields : List (Fld × FTy) := []
  roundEff : Bool := false
  deriving DecidableEq, Repr

/-- One row of a counter table: the offset of COUNT_LO in its region and its indexes. -/
structure CRow where
  off : Nat
  dims : List (Nat × Nat) := []
  deriving DecidableEq, Repr


/-! ### The device block, Table 22.3 -/

/-- The address of DEV_ID_PART. -/
def R.DEV_ID_PART : Nat := 0x0
def F.DEV_ID_PART.PART : Fld := ⟨0, 16⟩
/-- The address of DEV_ID_VER. -/
def R.DEV_ID_VER : Nat := 0x0 + 0x4
def F.DEV_ID_VER.MAJOR : Fld := ⟨8, 8⟩
def F.DEV_ID_VER.MINOR : Fld := ⟨0, 8⟩
/-- The address of DEV_ID_FUSED_PIPES. -/
def R.DEV_ID_FUSED_PIPES : Nat := 0x0 + 0x8
def F.DEV_ID_FUSED_PIPES.PIPES : Fld := ⟨0, 16⟩
/-- The address of DEV_ID_KEYHASH. -/
def R.DEV_ID_KEYHASH (i : Nat) : Nat := 0x0 + i * 0x4 + 0x10
def F.DEV_ID_KEYHASH.HASH : Fld := ⟨0, 32⟩
/-- The address of DEV_ROUND_NUM. -/
def R.DEV_ROUND_NUM : Nat := 0x0 + 0x80
def F.DEV_ROUND_NUM.ROUND : Fld := ⟨0, 32⟩
/-- The address of DEV_ROUND_PHASE. -/
def R.DEV_ROUND_PHASE : Nat := 0x0 + 0x84
def F.DEV_ROUND_PHASE.ROUND_LO : Fld := ⟨16, 16⟩
def F.DEV_ROUND_PHASE.PHASE : Fld := ⟨0, 16⟩
/-- The address of DEV_BOOT_STATUS. -/
def R.DEV_BOOT_STATUS : Nat := 0x0 + 0x100
def F.DEV_BOOT_STATUS.STOPPED : Fld := ⟨31, 1⟩
def F.DEV_BOOT_STATUS.SOURCE : Fld := ⟨28, 2⟩
def F.DEV_BOOT_STATUS.SPI_MODE : Fld := ⟨20, 4⟩
def F.DEV_BOOT_STATUS.STAGE : Fld := ⟨0, 4⟩
/-- The address of DEV_BOOT_CAUSE. -/
def R.DEV_BOOT_CAUSE : Nat := 0x0 + 0x104
def F.DEV_BOOT_CAUSE.DOM_FAIL : Fld := ⟨5, 1⟩
def F.DEV_BOOT_CAUSE.LOADER : Fld := ⟨4, 1⟩
def F.DEV_BOOT_CAUSE.HOST_SIG : Fld := ⟨3, 1⟩
def F.DEV_BOOT_CAUSE.SPI_SIG : Fld := ⟨2, 1⟩
def F.DEV_BOOT_CAUSE.SPI_FORMAT : Fld := ⟨1, 1⟩
def F.DEV_BOOT_CAUSE.SPI_NONE : Fld := ⟨0, 1⟩
/-- The address of DEV_BOOT_STAMP. -/
def R.DEV_BOOT_STAMP (i : Nat) : Nat := 0x0 + i * 0x4 + 0x140
def F.DEV_BOOT_STAMP.DONE : Fld := ⟨31, 1⟩
def F.DEV_BOOT_STAMP.MS : Fld := ⟨0, 20⟩
/-- The address of DEV_BOOT_HASH. -/
def R.DEV_BOOT_HASH (i : Nat) : Nat := 0x0 + i * 0x4 + 0x180
def F.DEV_BOOT_HASH.HASH : Fld := ⟨0, 32⟩
/-- The address of DEV_PRES_STATUS. -/
def R.DEV_PRES_STATUS : Nat := 0x0 + 0x200
def F.DEV_PRES_STATUS.OPEN : Fld := ⟨31, 1⟩
def F.DEV_PRES_STATUS.HELD : Fld := ⟨30, 1⟩
def F.DEV_PRES_STATUS.SEAL_OK : Fld := ⟨29, 1⟩
def F.DEV_PRES_STATUS.REMAIN : Fld := ⟨0, 10⟩
/-- The address of DEV_PRES_CTL. -/
def R.DEV_PRES_CTL : Nat := 0x0 + 0x204
def F.DEV_PRES_CTL.CLOSE : Fld := ⟨31, 1⟩
def F.DEV_PRES_CTL.WINDOW : Fld := ⟨0, 10⟩
/-- The address of DEV_PRES_CAUSE. -/
def R.DEV_PRES_CAUSE : Nat := 0x0 + 0x208
def F.DEV_PRES_CAUSE.SEAL_CLOSE : Fld := ⟨4, 1⟩
def F.DEV_PRES_CAUSE.SEAL_OPEN : Fld := ⟨3, 1⟩
def F.DEV_PRES_CAUSE.REFUSED : Fld := ⟨2, 1⟩
def F.DEV_PRES_CAUSE.WIN_CLOSE : Fld := ⟨1, 1⟩
def F.DEV_PRES_CAUSE.WIN_OPEN : Fld := ⟨0, 1⟩
/-- The address of DEV_PRES_REFUSED. -/
def R.DEV_PRES_REFUSED : Nat := 0x0 + 0x20C
def F.DEV_PRES_REFUSED.COUNT : Fld := ⟨0, 32⟩
/-- The address of DEV_PRES_LAST. -/
def R.DEV_PRES_LAST : Nat := 0x0 + 0x210
def F.DEV_PRES_LAST.FN : Fld := ⟨27, 5⟩
def F.DEV_PRES_LAST.OFFSET : Fld := ⟨0, 27⟩
/-- The address of DEV_JTAG_CTL. -/
def R.DEV_JTAG_CTL : Nat := 0x0 + 0x300
def F.DEV_JTAG_CTL.EXTEST_EN : Fld := ⟨31, 1⟩
def F.DEV_JTAG_CTL.USED : Fld := ⟨1, 1⟩
def F.DEV_JTAG_CTL.REFUSED : Fld := ⟨0, 1⟩
/-- The address of DEV_PUSH_ADDR_LO. -/
def R.DEV_PUSH_ADDR_LO : Nat := 0x0 + 0x400
def F.DEV_PUSH_ADDR_LO.VALUE : Fld := ⟨0, 32⟩
/-- The address of DEV_PUSH_ADDR_HI. -/
def R.DEV_PUSH_ADDR_HI : Nat := 0x0 + 0x404
def F.DEV_PUSH_ADDR_HI.VALUE : Fld := ⟨0, 32⟩
/-- The address of DEV_PUSH_LEN. -/
def R.DEV_PUSH_LEN : Nat := 0x0 + 0x408
def F.DEV_PUSH_LEN.VALUE : Fld := ⟨0, 32⟩
/-- The address of DEV_PUSH_CTL. -/
def R.DEV_PUSH_CTL : Nat := 0x0 + 0x40C
def F.DEV_PUSH_CTL.GO : Fld := ⟨31, 1⟩
/-- The address of DEV_LOAD_CTL. -/
def R.DEV_LOAD_CTL (i : Nat) : Nat := 0x0 + i * 0x20 + 0x800
def F.DEV_LOAD_CTL.GO : Fld := ⟨31, 1⟩
def F.DEV_LOAD_CTL.SRC : Fld := ⟨30, 1⟩
def F.DEV_LOAD_CTL.RESULT : Fld := ⟨24, 4⟩
def F.DEV_LOAD_CTL.INDEX : Fld := ⟨20, 4⟩
def F.DEV_LOAD_CTL.PIPES : Fld := ⟨0, 16⟩
/-- The address of DEV_LOAD_ADDR_LO. -/
def R.DEV_LOAD_ADDR_LO (i : Nat) : Nat := 0x0 + i * 0x20 + 0x804
def F.DEV_LOAD_ADDR_LO.VALUE : Fld := ⟨0, 32⟩
/-- The address of DEV_LOAD_ADDR_HI. -/
def R.DEV_LOAD_ADDR_HI (i : Nat) : Nat := 0x0 + i * 0x20 + 0x808
def F.DEV_LOAD_ADDR_HI.VALUE : Fld := ⟨0, 32⟩
/-- The address of DEV_LOAD_LEN. -/
def R.DEV_LOAD_LEN (i : Nat) : Nat := 0x0 + i * 0x20 + 0x80C
def F.DEV_LOAD_LEN.VALUE : Fld := ⟨0, 32⟩
/-- The address of DEV_IMG_STATUS. -/
def R.DEV_IMG_STATUS (i : Nat) : Nat := 0x0 + i * 0x40 + 0x1000
def F.DEV_IMG_STATUS.LOADED : Fld := ⟨31, 1⟩
def F.DEV_IMG_STATUS.HOOKS : Fld := ⟨30, 1⟩
def F.DEV_IMG_STATUS.LOADS : Fld := ⟨0, 16⟩
/-- The address of DEV_IMG_HASH. -/
def R.DEV_IMG_HASH (i j : Nat) : Nat := 0x0 + i * 0x40 + j * 0x4 + 0x1020
def F.DEV_IMG_HASH.HASH : Fld := ⟨0, 32⟩

/-! ### An owner page of the interrupt block -/

/-- The address of IRQ_SUM. -/
def R.IRQ_SUM (n : Nat) : Nat := 0x10000 + n * 0x200
def F.IRQ_SUM.SRC : Fld := ⟨0, 32⟩
/-- The address of IRQ_PEND. -/
def R.IRQ_PEND (n : Nat) : Nat := 0x10000 + n * 0x200 + 0x4
def F.IRQ_PEND.SRC : Fld := ⟨0, 32⟩
/-- The address of IRQ_EN. -/
def R.IRQ_EN (n : Nat) : Nat := 0x10000 + n * 0x200 + 0x8
def F.IRQ_EN.SRC : Fld := ⟨0, 32⟩
/-- The address of IRQ_CTL. -/
def R.IRQ_CTL (n : Nat) : Nat := 0x10000 + n * 0x200 + 0xC
def F.IRQ_CTL.C : Fld := ⟨31, 1⟩
def F.IRQ_CTL.PIN_EN : Fld := ⟨30, 1⟩
def F.IRQ_CTL.MAX_SEV : Fld := ⟨8, 2⟩
def F.IRQ_CTL.HIST_MIN : Fld := ⟨4, 2⟩
def F.IRQ_CTL.SUM_MIN : Fld := ⟨0, 2⟩
/-- The address of IRQ_OWN_CAUSE. -/
def R.IRQ_OWN_CAUSE (n : Nat) : Nat := 0x10000 + n * 0x200 + 0x10
def F.IRQ_OWN_CAUSE.DOM_FAULT : Fld := ⟨7, 1⟩
def F.IRQ_OWN_CAUSE.PIPE_FAULT : Fld := ⟨6, 1⟩
def F.IRQ_OWN_CAUSE.XDROP : Fld := ⟨5, 1⟩
def F.IRQ_OWN_CAUSE.HIST_LOST : Fld := ⟨4, 1⟩
def F.IRQ_OWN_CAUSE.BUSY : Fld := ⟨3, 1⟩
def F.IRQ_OWN_CAUSE.CFG : Fld := ⟨2, 1⟩
def F.IRQ_OWN_CAUSE.IDLE_VIOL : Fld := ⟨1, 1⟩
def F.IRQ_OWN_CAUSE.AV : Fld := ⟨0, 1⟩
/-- The address of IRQ_HIST_CTL. -/
def R.IRQ_HIST_CTL (n : Nat) : Nat := 0x10000 + n * 0x200 + 0x20
def F.IRQ_HIST_CTL.POP : Fld := ⟨31, 1⟩
def F.IRQ_HIST_CTL.LEVEL : Fld := ⟨0, 6⟩
/-- The address of IRQ_HIST_ID. -/
def R.IRQ_HIST_ID (n : Nat) : Nat := 0x10000 + n * 0x200 + 0x24
def F.IRQ_HIST_ID.VALID : Fld := ⟨31, 1⟩
def F.IRQ_HIST_ID.SEV : Fld := ⟨29, 2⟩
def F.IRQ_HIST_ID.SRC : Fld := ⟨24, 5⟩
def F.IRQ_HIST_ID.BIT : Fld := ⟨16, 5⟩
def F.IRQ_HIST_ID.INST : Fld := ⟨0, 11⟩
/-- The address of IRQ_HIST_S. -/
def R.IRQ_HIST_S (n : Nat) : Nat := 0x10000 + n * 0x200 + 0x28
def F.IRQ_HIST_S.S_LO : Fld := ⟨0, 32⟩
/-- The address of IRQ_HIST_SF. -/
def R.IRQ_HIST_SF (n : Nat) : Nat := 0x10000 + n * 0x200 + 0x2C
def F.IRQ_HIST_SF.S_HI : Fld := ⟨16, 16⟩
def F.IRQ_HIST_SF.FRAC : Fld := ⟨0, 16⟩
/-- The address of IRQ_HIST_NS. -/
def R.IRQ_HIST_NS (n : Nat) : Nat := 0x10000 + n * 0x200 + 0x30
def F.IRQ_HIST_NS.NS : Fld := ⟨0, 30⟩
/-- The address of IRQ_LAST_ID. -/
def R.IRQ_LAST_ID (n : Nat) : Nat := 0x10000 + n * 0x200 + 0x40
def F.IRQ_LAST_ID.VALID : Fld := ⟨31, 1⟩
def F.IRQ_LAST_ID.SEV : Fld := ⟨29, 2⟩
def F.IRQ_LAST_ID.SRC : Fld := ⟨24, 5⟩
def F.IRQ_LAST_ID.BIT : Fld := ⟨16, 5⟩
def F.IRQ_LAST_ID.INST : Fld := ⟨0, 11⟩
/-- The address of IRQ_LAST_S. -/
def R.IRQ_LAST_S (n : Nat) : Nat := 0x10000 + n * 0x200 + 0x44
def F.IRQ_LAST_S.S_LO : Fld := ⟨0, 32⟩
/-- The address of IRQ_LAST_SF. -/
def R.IRQ_LAST_SF (n : Nat) : Nat := 0x10000 + n * 0x200 + 0x48
def F.IRQ_LAST_SF.S_HI : Fld := ⟨16, 16⟩
def F.IRQ_LAST_SF.FRAC : Fld := ⟨0, 16⟩
/-- The address of IRQ_LAST_NS. -/
def R.IRQ_LAST_NS (n : Nat) : Nat := 0x10000 + n * 0x200 + 0x4C
def F.IRQ_LAST_NS.NS : Fld := ⟨0, 30⟩
/-- The address of IRQ_HIST_LOST. -/
def R.IRQ_HIST_LOST (n : Nat) : Nat := 0x10000 + n * 0x200 + 0x50
def F.IRQ_HIST_LOST.COUNT : Fld := ⟨0, 32⟩

/-! ### The global part of the interrupt block -/

/-- The address of IRQ_FAULTN. -/
def R.IRQ_FAULTN : Nat := 0x10000 + 0x3000
def F.IRQ_FAULTN.STATE : Fld := ⟨31, 1⟩
def F.IRQ_FAULTN.FORCE : Fld := ⟨30, 1⟩
def F.IRQ_FAULTN.PITCH : Fld := ⟨1, 16⟩
/-- The address of IRQ_WMASK. -/
def R.IRQ_WMASK (n : Nat) : Nat := 0x13040 + n * 0x4
def F.IRQ_WMASK.SRC : Fld := ⟨0, 32⟩
/-- The address of IRQ_BLK. -/
def R.IRQ_BLK (i j : Nat) : Nat := 0x10000 + i * 0x100 + j * 0x4 + 0x4000
def F.IRQ_BLK.REGS : Fld := ⟨0, 32⟩

/-! ### The Postilion block -/

/-- The address of PST_STATUS. -/
def R.PST_STATUS : Nat := 0x20000
def F.PST_STATUS.REF_LOCK : Fld := ⟨31, 1⟩
def F.PST_STATUS.EXEMPT_ANY : Fld := ⟨30, 1⟩
/-- The address of PST_VIN. -/
def R.PST_VIN : Nat := 0x20000 + 0x4
def F.PST_VIN.MV : Fld := ⟨0, 16⟩
/-- The address of PST_PIN. -/
def R.PST_PIN : Nat := 0x20000 + 0x8
def F.PST_PIN.PEAK : Fld := ⟨16, 16⟩
def F.PST_PIN.AVG : Fld := ⟨0, 16⟩
/-- The address of PST_BUDGET. -/
def R.PST_BUDGET : Nat := 0x20000 + 0xC
def F.PST_BUDGET.INPUT : Fld := ⟨16, 16⟩
def F.PST_BUDGET.DIE : Fld := ⟨0, 16⟩
/-- The address of PST_CAP. -/
def R.PST_CAP : Nat := 0x20000 + 0x10
def F.PST_CAP.PENDING : Fld := ⟨31, 1⟩
def F.PST_CAP.W4 : Fld := ⟨0, 16⟩
/-- The address of PST_SHARED. -/
def R.PST_SHARED : Nat := 0x20000 + 0x14
def F.PST_SHARED.PENDING : Fld := ⟨31, 1⟩
def F.PST_SHARED.W4 : Fld := ⟨0, 16⟩
/-- The address of PST_CAUSE. -/
def R.PST_CAUSE : Nat := 0x20000 + 0x18
def F.PST_CAUSE.LG_DEFER : Fld := ⟨11, 1⟩
def F.PST_CAUSE.POSTILION : Fld := ⟨10, 1⟩
def F.PST_CAUSE.MARGIN : Fld := ⟨9, 1⟩
def F.PST_CAUSE.FORCE_CLIP : Fld := ⟨8, 1⟩
def F.PST_CAUSE.SHARE_SCALED : Fld := ⟨7, 1⟩
def F.PST_CAUSE.THERM_LIMIT : Fld := ⟨6, 1⟩
def F.PST_CAUSE.THERM_WARN : Fld := ⟨5, 1⟩
def F.PST_CAUSE.NEIGHBOUR : Fld := ⟨4, 1⟩
def F.PST_CAUSE.DROOP : Fld := ⟨3, 1⟩
def F.PST_CAUSE.INPUT_DROP : Fld := ⟨2, 1⟩
def F.PST_CAUSE.EXEMPT_SKIP : Fld := ⟨1, 1⟩
def F.PST_CAUSE.EXEMPT_UNMET : Fld := ⟨0, 1⟩
/-- The address of PST_THERM_THR. -/
def R.PST_THERM_THR : Nat := 0x20000 + 0x1C
def F.PST_THERM_THR.TRIP : Fld := ⟨16, 8⟩
def F.PST_THERM_THR.LIMIT : Fld := ⟨8, 8⟩
def F.PST_THERM_THR.WARN : Fld := ⟨0, 8⟩
/-- The address of PST_DROOP_CTL. -/
def R.PST_DROOP_CTL : Nat := 0x20000 + 0x20
def F.PST_DROOP_CTL.K : Fld := ⟨8, 6⟩
def F.PST_DROOP_CTL.THR : Fld := ⟨0, 5⟩
/-- The address of PST_PIT_CTL. -/
def R.PST_PIT_CTL (n : Nat) : Nat := 0x20040 + n * 0x10
def F.PST_PIT_CTL.PENDING : Fld := ⟨31, 1⟩
def F.PST_PIT_CTL.EXEMPT : Fld := ⟨0, 1⟩
/-- The address of PST_PIT_SHARE. -/
def R.PST_PIT_SHARE (n : Nat) : Nat := 0x20044 + n * 0x10
def F.PST_PIT_SHARE.PENDING : Fld := ⟨31, 1⟩
def F.PST_PIT_SHARE.W4 : Fld := ⟨0, 16⟩
/-- The address of PST_PIT_GRANT. -/
def R.PST_PIT_GRANT (n : Nat) : Nat := 0x20048 + n * 0x10
def F.PST_PIT_GRANT.KMAX : Fld := ⟨24, 6⟩
def F.PST_PIT_GRANT.W4 : Fld := ⟨0, 16⟩
/-- The address of PST_PIT_USE. -/
def R.PST_PIT_USE (n : Nat) : Nat := 0x2004C + n * 0x10
def F.PST_PIT_USE.W4 : Fld := ⟨0, 16⟩
/-- The address of PST_REG_STATUS. -/
def R.PST_REG_STATUS (i : Nat) : Nat := 0x20000 + i * 0x10 + 0x200
def F.PST_REG_STATUS.FORCED : Fld := ⟨31, 1⟩
def F.PST_REG_STATUS.DROOP : Fld := ⟨30, 1⟩
def F.PST_REG_STATUS.K_EFF : Fld := ⟨24, 6⟩
def F.PST_REG_STATUS.K_GRANT : Fld := ⟨16, 6⟩
def F.PST_REG_STATUS.VSET : Fld := ⟨8, 8⟩
/-- The address of PST_REG_CTL. -/
def R.PST_REG_CTL (i : Nat) : Nat := 0x20000 + i * 0x10 + 0x204
def F.PST_REG_CTL.FORCE_EN : Fld := ⟨31, 1⟩
def F.PST_REG_CTL.FORCE_K : Fld := ⟨0, 6⟩
/-- The address of PST_REG_VTABLE. -/
def R.PST_REG_VTABLE (i : Nat) : Nat := 0x20000 + i * 0x10 + 0x208
def F.PST_REG_VTABLE.VALUE : Fld := ⟨0, 16⟩
/-- The address of PST_REG_GRANT. -/
def R.PST_REG_GRANT (i : Nat) : Nat := 0x20000 + i * 0x10 + 0x20C
def F.PST_REG_GRANT.VALUE : Fld := ⟨0, 16⟩
/-- The address of PST_DOM_STATUS. -/
def R.PST_DOM_STATUS (i : Nat) : Nat := 0x20000 + i * 0x4 + 0x600
def F.PST_DOM_STATUS.ON : Fld := ⟨31, 1⟩
def F.PST_DOM_STATUS.USE : Fld := ⟨0, 16⟩
/-- The address of PST_SENSOR. -/
def R.PST_SENSOR (i : Nat) : Nat := 0x20000 + i * 0x4 + 0x900
def F.PST_SENSOR.VALID : Fld := ⟨31, 1⟩
def F.PST_SENSOR.TEMP : Fld := ⟨0, 16⟩
/-- The address of PST_DOM_READY. -/
def R.PST_DOM_READY (i : Nat) : Nat := 0x20000 + i * 0x4 + 0xC00
def F.PST_DOM_READY.DOMS : Fld := ⟨0, 32⟩
/-- The address of PST_DOM_FAIL. -/
def R.PST_DOM_FAIL (i : Nat) : Nat := 0x20000 + i * 0x4 + 0xC20
def F.PST_DOM_FAIL.DOMS : Fld := ⟨0, 32⟩
/-- The address of COUNT_LO of PST_DROOP_EVENTS. -/
def C.PST_DROOP_EVENTS : Nat := 0x20000 + 0xA00
/-- The address of COUNT_LO of PST_EXEMPT_SKIP. -/
def C.PST_EXEMPT_SKIP : Nat := 0x20000 + 0xA08
/-- The address of COUNT_LO of PST_INPUT_DROP. -/
def C.PST_INPUT_DROP : Nat := 0x20000 + 0xA10
/-- The address of COUNT_LO of PST_NEIGHBOUR_EQ. -/
def C.PST_NEIGHBOUR_EQ : Nat := 0x20000 + 0xA18

/-! ### Clocks and resets -/

/-- The address of CLK_STATUS. -/
def R.CLK_STATUS : Nat := 0x30000
def F.CLK_STATUS.REF_OK : Fld := ⟨31, 1⟩
def F.CLK_STATUS.PLL_LOCK : Fld := ⟨0, 7⟩
/-- The address of CLK_CAUSE. -/
def R.CLK_CAUSE : Nat := 0x30000 + 0x4
def F.CLK_CAUSE.PLL_LOL : Fld := ⟨1, 1⟩
def F.CLK_CAUSE.REF_LOSS : Fld := ⟨0, 1⟩
/-- The address of CLK_RST_DEV. -/
def R.CLK_RST_DEV : Nat := 0x30000 + 0x10
def F.CLK_RST_DEV.GO : Fld := ⟨31, 1⟩
def F.CLK_RST_DEV.BUSY : Fld := ⟨0, 1⟩
/-- The address of CLK_RST_STATUS. -/
def R.CLK_RST_STATUS : Nat := 0x30000 + 0x14
def F.CLK_RST_STATUS.LAST : Fld := ⟨30, 2⟩
def F.CLK_RST_STATUS.DEV_RESETS : Fld := ⟨0, 16⟩

/-! ### The global page of the Pitch control block -/

/-- The address of PIT_MAP_STAGE. -/
def R.PIT_MAP_STAGE (i : Nat) : Nat := 0x40000 + i * 0x4
def F.PIT_MAP_STAGE.OWNER : Fld := ⟨0, 5⟩
/-- The address of PIT_MAP. -/
def R.PIT_MAP (i : Nat) : Nat := 0x40000 + i * 0x4 + 0x40
def F.PIT_MAP.OWNER : Fld := ⟨0, 5⟩
/-- The address of PIT_COMMIT. -/
def R.PIT_COMMIT : Nat := 0x40000 + 0x80
def F.PIT_COMMIT.RESULT : Fld := ⟨4, 4⟩
def F.PIT_COMMIT.GO : Fld := ⟨0, 1⟩
/-- The address of PIT_MIR_CTL. -/
def R.PIT_MIR_CTL : Nat := 0x40000 + 0x100
def F.PIT_MIR_CTL.EN : Fld := ⟨31, 1⟩
def F.PIT_MIR_CTL.DIR : Fld := ⟨28, 2⟩
def F.PIT_MIR_CTL.CLASS : Fld := ⟨16, 4⟩
def F.PIT_MIR_CTL.DEST_PORT : Fld := ⟨0, 10⟩
/-- The address of PIT_MIR_TRUNC. -/
def R.PIT_MIR_TRUNC : Nat := 0x40000 + 0x104
def F.PIT_MIR_TRUNC.LEN : Fld := ⟨0, 14⟩
/-- The address of PIT_MIR_RATE. -/
def R.PIT_MIR_RATE : Nat := 0x40000 + 0x108
def F.PIT_MIR_RATE.CIR : Fld := ⟨0, 21⟩
/-- The address of PIT_MIR_BURST. -/
def R.PIT_MIR_BURST : Nat := 0x40000 + 0x10C
def F.PIT_MIR_BURST.BYTES : Fld := ⟨0, 24⟩
/-- The address of PIT_MIR_SRC. -/
def R.PIT_MIR_SRC (i : Nat) : Nat := 0x40000 + i * 0x4 + 0x180
def F.PIT_MIR_SRC.PORTS : Fld := ⟨0, 32⟩
/-- The address of PIT_MIR_DROP. -/
def R.PIT_MIR_DROP : Nat := 0x40000 + 0x200
def F.PIT_MIR_DROP.COUNT : Fld := ⟨0, 32⟩
/-- The address of PIT_AV_CNT. -/
def R.PIT_AV_CNT (i : Nat) : Nat := 0x40000 + i * 0x10 + 0x300
def F.PIT_AV_CNT.COUNT : Fld := ⟨0, 32⟩
/-- The address of PIT_AV_ADDR. -/
def R.PIT_AV_ADDR (i : Nat) : Nat := 0x40000 + i * 0x10 + 0x304
def F.PIT_AV_ADDR.WRITE : Fld := ⟨31, 1⟩
def F.PIT_AV_ADDR.SIZE : Fld := ⟨30, 1⟩
def F.PIT_AV_ADDR.ADDR : Fld := ⟨0, 29⟩
/-- The address of PIT_OST_OWNER. -/
def R.PIT_OST_OWNER (i : Nat) : Nat := 0x40000 + i * 0x4 + 0x800
def F.PIT_OST_OWNER.OWNER : Fld := ⟨0, 5⟩

/-! ### A Pitch page of the Pitch control block -/

/-- The address of PIT_CTL. -/
def R.PIT_CTL (n : Nat) : Nat := 0x40000 + n * 0x1000
def F.PIT_CTL.WARDEN_HOLD : Fld := ⟨1, 1⟩
def F.PIT_CTL.SELF_RESET : Fld := ⟨0, 1⟩
/-- The address of PIT_STATUS. -/
def R.PIT_STATUS (n : Nat) : Nat := 0x40000 + n * 0x1000 + 0x4
def F.PIT_STATUS.PIPES : Fld := ⟨16, 16⟩
def F.PIT_STATUS.DEV_FAULT : Fld := ⟨1, 1⟩
def F.PIT_STATUS.IN_RESET : Fld := ⟨0, 1⟩
/-- The address of PIT_XDROP. -/
def R.PIT_XDROP (n : Nat) : Nat := 0x40000 + n * 0x1000 + 0x8
def F.PIT_XDROP.COUNT : Fld := ⟨0, 32⟩
/-- The address of PIT_MC_RANGE. -/
def R.PIT_MC_RANGE (n : Nat) : Nat := 0x40000 + n * 0x1000 + 0xC
def F.PIT_MC_RANGE.COUNT : Fld := ⟨8, 7⟩
def F.PIT_MC_RANGE.BASE : Fld := ⟨0, 6⟩
/-- The address of PIT_BUF_RSV. -/
def R.PIT_BUF_RSV (n i : Nat) : Nat := 0x40000 + n * 0x1000 + i * 0x4 + 0x100
def F.PIT_BUF_RSV.RSV : Fld := ⟨0, 21⟩

/-! ### A lane group -/

/-- The address of LG_CTL. -/
def R.LG_CTL (g : Nat) : Nat := 0x100000 + g * 0x4000
def F.LG_CTL.FIR_LOAD : Fld := ⟨8, 1⟩
def F.LG_CTL.FWD_RATE : Fld := ⟨6, 2⟩
def F.LG_CTL.FWD_EN : Fld := ⟨5, 1⟩
def F.LG_CTL.ADAPT_CONT : Fld := ⟨0, 1⟩
/-- The address of LG_STATUS. -/
def R.LG_STATUS (g : Nat) : Nat := 0x100000 + g * 0x4000 + 0x4
def F.LG_STATUS.LMF_MIN : Fld := ⟨24, 8⟩
def F.LG_STATUS.FWD_LOCK : Fld := ⟨2, 1⟩
def F.LG_STATUS.READY : Fld := ⟨1, 1⟩
def F.LG_STATUS.PLL_LOCK : Fld := ⟨0, 1⟩
/-- The address of LG_LMF_THR. -/
def R.LG_LMF_THR (g : Nat) : Nat := 0x100000 + g * 0x4000 + 0x8
def F.LG_LMF_THR.WARN : Fld := ⟨8, 8⟩
def F.LG_LMF_THR.ALARM : Fld := ⟨0, 8⟩
/-- The address of LG_CAUSE. -/
def R.LG_CAUSE (g : Nat) : Nat := 0x100000 + g * 0x4000 + 0xC
def F.LG_CAUSE.FWD_LOL : Fld := ⟨18, 1⟩
def F.LG_CAUSE.PLL_LOL : Fld := ⟨17, 1⟩
def F.LG_CAUSE.CFG : Fld := ⟨16, 1⟩
def F.LG_CAUSE.LANES : Fld := ⟨0, 16⟩
/-- The address of LG_TX_FIR. -/
def R.LG_TX_FIR (g i : Nat) : Nat := 0x100000 + g * 0x4000 + i * 0x4 + 0x10
def F.LG_TX_FIR.COEF : Fld := ⟨0, 8⟩

/-! ### A lane of a lane group -/

/-- The address of LG_LN_STATUS. -/
def R.LG_LN_STATUS (g l : Nat) : Nat := 0x100800 + g * 0x4000 + l * 0x380
def F.LG_LN_STATUS.LMF : Fld := ⟨24, 8⟩
def F.LG_LN_STATUS.RATE : Fld := ⟨16, 3⟩
def F.LG_LN_STATUS.LMF_STALE : Fld := ⟨5, 1⟩
def F.LG_LN_STATUS.ADAPT_DONE : Fld := ⟨4, 1⟩
def F.LG_LN_STATUS.CDR_LOCK : Fld := ⟨2, 1⟩
def F.LG_LN_STATUS.LOS : Fld := ⟨1, 1⟩
def F.LG_LN_STATUS.SQUELCHED : Fld := ⟨0, 1⟩
/-- The address of LG_LN_CAUSE. -/
def R.LG_LN_CAUSE (g l : Nat) : Nat := 0x100800 + g * 0x4000 + l * 0x380 + 0x4
def F.LG_LN_CAUSE.EYE_CFG : Fld := ⟨7, 1⟩
def F.LG_LN_CAUSE.PRBS_LOL : Fld := ⟨6, 1⟩
def F.LG_LN_CAUSE.PAT : Fld := ⟨5, 1⟩
def F.LG_LN_CAUSE.FIR_RANGE : Fld := ⟨4, 1⟩
def F.LG_LN_CAUSE.LMF_ALARM : Fld := ⟨3, 1⟩
def F.LG_LN_CAUSE.LMF_WARN : Fld := ⟨2, 1⟩
def F.LG_LN_CAUSE.LOL : Fld := ⟨1, 1⟩
def F.LG_LN_CAUSE.LOS : Fld := ⟨0, 1⟩
/-- The address of LG_LN_FIR_A. -/
def R.LG_LN_FIR_A (g l : Nat) : Nat := 0x100800 + g * 0x4000 + l * 0x380 + 0x10
def F.LG_LN_FIR_A.T3 : Fld := ⟨24, 8⟩
def F.LG_LN_FIR_A.T2 : Fld := ⟨16, 8⟩
def F.LG_LN_FIR_A.T1 : Fld := ⟨8, 8⟩
def F.LG_LN_FIR_A.T0 : Fld := ⟨0, 8⟩
/-- The address of LG_LN_FIR_B. -/
def R.LG_LN_FIR_B (g l : Nat) : Nat := 0x100800 + g * 0x4000 + l * 0x380 + 0x14
def F.LG_LN_FIR_B.OWN : Fld := ⟨31, 1⟩
def F.LG_LN_FIR_B.LOAD : Fld := ⟨30, 1⟩
def F.LG_LN_FIR_B.T5 : Fld := ⟨8, 8⟩
def F.LG_LN_FIR_B.T4 : Fld := ⟨0, 8⟩
/-- The address of LG_LN_FIR_CUR_A. -/
def R.LG_LN_FIR_CUR_A (g l : Nat) : Nat := 0x100800 + g * 0x4000 + l * 0x380 + 0x18
def F.LG_LN_FIR_CUR_A.T3 : Fld := ⟨24, 8⟩
def F.LG_LN_FIR_CUR_A.T2 : Fld := ⟨16, 8⟩
def F.LG_LN_FIR_CUR_A.T1 : Fld := ⟨8, 8⟩
def F.LG_LN_FIR_CUR_A.T0 : Fld := ⟨0, 8⟩
/-- The address of LG_LN_FIR_CUR_B. -/
def R.LG_LN_FIR_CUR_B (g l : Nat) : Nat := 0x100800 + g * 0x4000 + l * 0x380 + 0x1C
def F.LG_LN_FIR_CUR_B.T5 : Fld := ⟨8, 8⟩
def F.LG_LN_FIR_CUR_B.T4 : Fld := ⟨0, 8⟩
/-- The address of LG_LN_RXEQ. -/
def R.LG_LN_RXEQ (g l : Nat) : Nat := 0x100800 + g * 0x4000 + l * 0x380 + 0x20
def F.LG_LN_RXEQ.FREEZE : Fld := ⟨31, 1⟩
def F.LG_LN_RXEQ.CTLE : Fld := ⟨0, 5⟩
/-- The address of LG_LN_RXEQ_TAP. -/
def R.LG_LN_RXEQ_TAP (g l i : Nat) : Nat := 0x100800 + g * 0x4000 + l * 0x380 + i * 0x4 + 0x80
def F.LG_LN_RXEQ_TAP.COEF : Fld := ⟨0, 8⟩
/-- The address of LG_LN_TEST. -/
def R.LG_LN_TEST (g l : Nat) : Nat := 0x100800 + g * 0x4000 + l * 0x380 + 0x40
def F.LG_LN_TEST.RX_ON : Fld := ⟨31, 1⟩
def F.LG_LN_TEST.TX_INV : Fld := ⟨30, 1⟩
def F.LG_LN_TEST.RX_INV : Fld := ⟨29, 1⟩
def F.LG_LN_TEST.LOOP : Fld := ⟨24, 2⟩
def F.LG_LN_TEST.CHK_PAT : Fld := ⟨16, 4⟩
def F.LG_LN_TEST.GEN_PAT : Fld := ⟨8, 4⟩
def F.LG_LN_TEST.TX_SRC : Fld := ⟨0, 1⟩
/-- The address of LG_LN_PRBS_ERR_LO. -/
def R.LG_LN_PRBS_ERR_LO (g l : Nat) : Nat := 0x100800 + g * 0x4000 + l * 0x380 + 0x48
def F.LG_LN_PRBS_ERR_LO.COUNT_LO : Fld := ⟨0, 32⟩
/-- The address of LG_LN_PRBS_ERR_HI. -/
def R.LG_LN_PRBS_ERR_HI (g l : Nat) : Nat := 0x100800 + g * 0x4000 + l * 0x380 + 0x4C
def F.LG_LN_PRBS_ERR_HI.LOCK : Fld := ⟨31, 1⟩
def F.LG_LN_PRBS_ERR_HI.COUNT_HI : Fld := ⟨0, 16⟩
/-- The address of LG_LN_EYE_CTL. -/
def R.LG_LN_EYE_CTL (g l : Nat) : Nat := 0x100800 + g * 0x4000 + l * 0x380 + 0x60
def F.LG_LN_EYE_CTL.GO : Fld := ⟨31, 1⟩
def F.LG_LN_EYE_CTL.EYE : Fld := ⟨29, 2⟩
def F.LG_LN_EYE_CTL.PHASE : Fld := ⟨16, 6⟩
def F.LG_LN_EYE_CTL.VOFF : Fld := ⟨7, 9⟩
def F.LG_LN_EYE_CTL.LEN : Fld := ⟨0, 4⟩
/-- The address of LG_LN_EYE_RES. -/
def R.LG_LN_EYE_RES (g l : Nat) : Nat := 0x100800 + g * 0x4000 + l * 0x380 + 0x64
def F.LG_LN_EYE_RES.ERRS : Fld := ⟨0, 32⟩
/-- The address of LG_LN_RST. -/
def R.LG_LN_RST (g l : Nat) : Nat := 0x100800 + g * 0x4000 + l * 0x380 + 0xC0
def F.LG_LN_RST.GO : Fld := ⟨31, 1⟩

/-! ### A port -/

/-- The address of PORT_FORM. -/
def R.PORT_FORM (n : Nat) : Nat := 0x200000 + n * 0x400
def F.PORT_FORM.PENDING : Fld := ⟨31, 1⟩
def F.PORT_FORM.FEC : Fld := ⟨8, 2⟩
def F.PORT_FORM.MODE : Fld := ⟨4, 4⟩
def F.PORT_FORM.WIDTH : Fld := ⟨0, 3⟩
/-- The address of PORT_CTL. -/
def R.PORT_CTL (n : Nat) : Nat := 0x200000 + n * 0x400 + 0x4
def F.PORT_CTL.EN : Fld := ⟨31, 1⟩
def F.PORT_CTL.FC_MODE : Fld := ⟨29, 2⟩
def F.PORT_CTL.MAXLEN : Fld := ⟨0, 14⟩
/-- The address of PORT_STATUS. -/
def R.PORT_STATUS (n : Nat) : Nat := 0x200000 + n * 0x400 + 0x8
def F.PORT_STATUS.LINK_UP : Fld := ⟨31, 1⟩
def F.PORT_STATUS.RX_LF : Fld := ⟨30, 1⟩
def F.PORT_STATUS.RX_RF : Fld := ⟨29, 1⟩
def F.PORT_STATUS.AN_DONE : Fld := ⟨28, 1⟩
def F.PORT_STATUS.TRAIN_DONE : Fld := ⟨27, 1⟩
def F.PORT_STATUS.ONZ_STATE : Fld := ⟨24, 3⟩
def F.PORT_STATUS.ONZ_ROLE : Fld := ⟨22, 2⟩
def F.PORT_STATUS.FEC_LOCK : Fld := ⟨21, 1⟩
def F.PORT_STATUS.PAUSED : Fld := ⟨11, 1⟩
def F.PORT_STATUS.MODE_APPLIED : Fld := ⟨4, 4⟩
def F.PORT_STATUS.WIDTH_APPLIED : Fld := ⟨0, 3⟩
/-- The address of PORT_CAUSE. -/
def R.PORT_CAUSE (n : Nat) : Nat := 0x200000 + n * 0x400 + 0xC
def F.PORT_CAUSE.FEC_UNCORR : Fld := ⟨8, 1⟩
def F.PORT_CAUSE.ONZ_RESTART : Fld := ⟨7, 1⟩
def F.PORT_CAUSE.TRAIN_TIMEOUT : Fld := ⟨6, 1⟩
def F.PORT_CAUSE.AN_FAIL : Fld := ⟨5, 1⟩
def F.PORT_CAUSE.CFG : Fld := ⟨4, 1⟩
def F.PORT_CAUSE.FORM_REFUSED : Fld := ⟨3, 1⟩
def F.PORT_CAUSE.RX_RF : Fld := ⟨2, 1⟩
def F.PORT_CAUSE.RX_LF : Fld := ⟨1, 1⟩
def F.PORT_CAUSE.LINK_DOWN : Fld := ⟨0, 1⟩
/-- The address of PORT_AN_CTL. -/
def R.PORT_AN_CTL (n : Nat) : Nat := 0x200000 + n * 0x400 + 0x10
def F.PORT_AN_CTL.AN_EN : Fld := ⟨31, 1⟩
def F.PORT_AN_CTL.TRAIN_EN : Fld := ⟨30, 1⟩
def F.PORT_AN_CTL.TRAIN_MAX : Fld := ⟨0, 13⟩
/-- The address of PORT_PFC_MAP. -/
def R.PORT_PFC_MAP (n i : Nat) : Nat := 0x200000 + n * 0x400 + i * 0x4 + 0x20
def F.PORT_PFC_MAP.EN : Fld := ⟨4, 1⟩
def F.PORT_PFC_MAP.CLASS : Fld := ⟨0, 4⟩
/-- The address of PORT_SA_LO. -/
def R.PORT_SA_LO (n : Nat) : Nat := 0x200000 + n * 0x400 + 0x40
def F.PORT_SA_LO.SA_LO : Fld := ⟨0, 32⟩
/-- The address of PORT_SA_HI. -/
def R.PORT_SA_HI (n : Nat) : Nat := 0x200000 + n * 0x400 + 0x44
def F.PORT_SA_HI.SA_HI : Fld := ⟨0, 16⟩
/-- The address of PORT_ONZ_CTL. -/
def R.PORT_ONZ_CTL (n : Nat) : Nat := 0x200000 + n * 0x400 + 0x50
def F.PORT_ONZ_CTL.LMF_MIN : Fld := ⟨0, 8⟩
/-- The address of PORT_TS_CTL. -/
def R.PORT_TS_CTL (n : Nat) : Nat := 0x200000 + n * 0x400 + 0x60
def F.PORT_TS_CTL.P2P : Fld := ⟨31, 1⟩
/-- The address of PORT_TS_RX_DLY. -/
def R.PORT_TS_RX_DLY (n : Nat) : Nat := 0x200000 + n * 0x400 + 0x64
def F.PORT_TS_RX_DLY.DLY : Fld := ⟨0, 16⟩
/-- The address of PORT_TS_TX_DLY. -/
def R.PORT_TS_TX_DLY (n : Nat) : Nat := 0x200000 + n * 0x400 + 0x68
def F.PORT_TS_TX_DLY.DLY : Fld := ⟨0, 16⟩
/-- The address of PORT_TS_RX_ASYM. -/
def R.PORT_TS_RX_ASYM (n : Nat) : Nat := 0x200000 + n * 0x400 + 0x6C
def F.PORT_TS_RX_ASYM.ASYM : Fld := ⟨0, 32⟩
/-- The address of PORT_TS_TX_ASYM. -/
def R.PORT_TS_TX_ASYM (n : Nat) : Nat := 0x200000 + n * 0x400 + 0x70
def F.PORT_TS_TX_ASYM.ASYM : Fld := ⟨0, 32⟩
/-- The address of PORT_TS_CAL_RX. -/
def R.PORT_TS_CAL_RX (n : Nat) : Nat := 0x200000 + n * 0x400 + 0x74
def F.PORT_TS_CAL_RX.CAL : Fld := ⟨0, 16⟩
/-- The address of PORT_TS_CAL_TX. -/
def R.PORT_TS_CAL_TX (n : Nat) : Nat := 0x200000 + n * 0x400 + 0x78
def F.PORT_TS_CAL_TX.CAL : Fld := ⟨0, 16⟩
/-- The address of PORT_TS_P2P_DLY. -/
def R.PORT_TS_P2P_DLY (n : Nat) : Nat := 0x200000 + n * 0x400 + 0x7C
def F.PORT_TS_P2P_DLY.DLY : Fld := ⟨0, 32⟩
/-- The address of PORT_TS_CAL_CTL. -/
def R.PORT_TS_CAL_CTL (n : Nat) : Nat := 0x200000 + n * 0x400 + 0x80
def F.PORT_TS_CAL_CTL.GO : Fld := ⟨31, 1⟩
def F.PORT_TS_CAL_CTL.RESULT : Fld := ⟨4, 4⟩
def F.PORT_TS_CAL_CTL.COUNT : Fld := ⟨0, 2⟩
/-- The address of PORT_TS_CAL_LOOP. -/
def R.PORT_TS_CAL_LOOP (n : Nat) : Nat := 0x200000 + n * 0x400 + 0x84
def F.PORT_TS_CAL_LOOP.VALUE : Fld := ⟨0, 32⟩
/-- The address of PORT_TS_CAL_MEAN. -/
def R.PORT_TS_CAL_MEAN (n : Nat) : Nat := 0x200000 + n * 0x400 + 0x88
def F.PORT_TS_CAL_MEAN.VALUE : Fld := ⟨0, 32⟩
/-- The address of PORT_TS_CAL_SPREAD. -/
def R.PORT_TS_CAL_SPREAD (n : Nat) : Nat := 0x200000 + n * 0x400 + 0x8C
def F.PORT_TS_CAL_SPREAD.VALUE : Fld := ⟨0, 32⟩
/-- The address of PORT_TS_TXQ_HDR. -/
def R.PORT_TS_TXQ_HDR (n : Nat) : Nat := 0x200000 + n * 0x400 + 0x90
def F.PORT_TS_TXQ_HDR.VALID : Fld := ⟨31, 1⟩
def F.PORT_TS_TXQ_HDR.MSGTYPE : Fld := ⟨24, 4⟩
def F.PORT_TS_TXQ_HDR.DOMAIN : Fld := ⟨16, 8⟩
def F.PORT_TS_TXQ_HDR.SEQ : Fld := ⟨0, 16⟩
/-- The address of PORT_TS_TXQ_S. -/
def R.PORT_TS_TXQ_S (n : Nat) : Nat := 0x200000 + n * 0x400 + 0x94
def F.PORT_TS_TXQ_S.S_LO : Fld := ⟨0, 32⟩
/-- The address of PORT_TS_TXQ_SF. -/
def R.PORT_TS_TXQ_SF (n : Nat) : Nat := 0x200000 + n * 0x400 + 0x98
def F.PORT_TS_TXQ_SF.S_HI : Fld := ⟨16, 16⟩
def F.PORT_TS_TXQ_SF.FRAC : Fld := ⟨0, 16⟩
/-- The address of PORT_TS_TXQ_NS. -/
def R.PORT_TS_TXQ_NS (n : Nat) : Nat := 0x200000 + n * 0x400 + 0x9C
def F.PORT_TS_TXQ_NS.NS : Fld := ⟨0, 30⟩
/-- The address of PORT_TS_TXQ_CTL. -/
def R.PORT_TS_TXQ_CTL (n : Nat) : Nat := 0x200000 + n * 0x400 + 0xA0
def F.PORT_TS_TXQ_CTL.POP : Fld := ⟨31, 1⟩
def F.PORT_TS_TXQ_CTL.LEVEL : Fld := ⟨0, 5⟩
/-- The address of PORT_TS_CAUSE. -/
def R.PORT_TS_CAUSE (n : Nat) : Nat := 0x200000 + n * 0x400 + 0xA4
def F.PORT_TS_CAUSE.TC_SAT : Fld := ⟨3, 1⟩
def F.PORT_TS_CAUSE.CAL_FAIL : Fld := ⟨2, 1⟩
def F.PORT_TS_CAUSE.TXQ_LOST : Fld := ⟨1, 1⟩
def F.PORT_TS_CAUSE.OOR : Fld := ⟨0, 1⟩
/-- The address of PORT_TT_LEAD. -/
def R.PORT_TT_LEAD (n : Nat) : Nat := 0x200000 + n * 0x400 + 0xB0
def F.PORT_TT_LEAD.LEAD : Fld := ⟨0, 20⟩
/-- The address of PORT_TT_TIE. -/
def R.PORT_TT_TIE (n : Nat) : Nat := 0x200000 + n * 0x400 + 0xB4
def F.PORT_TT_TIE.PTR : Fld := ⟨0, 10⟩
/-- The address of PORT_TT_LATE_MAX. -/
def R.PORT_TT_LATE_MAX (n : Nat) : Nat := 0x200000 + n * 0x400 + 0xB8
def F.PORT_TT_LATE_MAX.LATENESS : Fld := ⟨0, 32⟩
/-- The address of PORT_RST. -/
def R.PORT_RST (n : Nat) : Nat := 0x200000 + n * 0x400 + 0xC0
def F.PORT_RST.GO : Fld := ⟨31, 1⟩
/-- The address of PORT_CMIS_CMD. -/
def R.PORT_CMIS_CMD (n : Nat) : Nat := 0x200000 + n * 0x400 + 0x300
def F.PORT_CMIS_CMD.GO : Fld := ⟨31, 1⟩
def F.PORT_CMIS_CMD.WRITE : Fld := ⟨30, 1⟩
def F.PORT_CMIS_CMD.LEN : Fld := ⟨0, 8⟩
/-- The address of PORT_CMIS_ADDR. -/
def R.PORT_CMIS_ADDR (n : Nat) : Nat := 0x200000 + n * 0x400 + 0x304
def F.PORT_CMIS_ADDR.BANK : Fld := ⟨16, 8⟩
def F.PORT_CMIS_ADDR.PAGE : Fld := ⟨8, 8⟩
def F.PORT_CMIS_ADDR.OFFSET : Fld := ⟨0, 8⟩
/-- The address of PORT_CMIS_STATUS. -/
def R.PORT_CMIS_STATUS (n : Nat) : Nat := 0x200000 + n * 0x400 + 0x308
def F.PORT_CMIS_STATUS.RESULT : Fld := ⟨28, 4⟩
/-- The address of PORT_CMIS_DATA. -/
def R.PORT_CMIS_DATA (n i : Nat) : Nat := 0x200000 + n * 0x400 + i * 0x4 + 0x340
def F.PORT_CMIS_DATA.BYTES : Fld := ⟨0, 32⟩
/-- The address of COUNT_LO of RX_FRAMES. -/
def C.RX_FRAMES (n : Nat) : Nat := 0x200000 + n * 0x400 + 0x100
/-- The address of COUNT_LO of RX_BYTES. -/
def C.RX_BYTES (n : Nat) : Nat := 0x200000 + n * 0x400 + 0x108
/-- The address of COUNT_LO of RX_FCS_ERR. -/
def C.RX_FCS_ERR (n : Nat) : Nat := 0x200000 + n * 0x400 + 0x110
/-- The address of COUNT_LO of RX_RUNT. -/
def C.RX_RUNT (n : Nat) : Nat := 0x200000 + n * 0x400 + 0x118
/-- The address of COUNT_LO of RX_OVERSIZE. -/
def C.RX_OVERSIZE (n : Nat) : Nat := 0x200000 + n * 0x400 + 0x120
/-- The address of COUNT_LO of RX_PCS_ERR. -/
def C.RX_PCS_ERR (n : Nat) : Nat := 0x200000 + n * 0x400 + 0x128
/-- The address of COUNT_LO of RX_MAC_CTRL. -/
def C.RX_MAC_CTRL (n : Nat) : Nat := 0x200000 + n * 0x400 + 0x130
/-- The address of COUNT_LO of RX_MAC_CTRL_OTHER. -/
def C.RX_MAC_CTRL_OTHER (n : Nat) : Nat := 0x200000 + n * 0x400 + 0x138
/-- The address of COUNT_LO of RX_ADMIT_DROP. -/
def C.RX_ADMIT_DROP (n : Nat) : Nat := 0x200000 + n * 0x400 + 0x140
/-- The address of COUNT_LO of RX_ENTRY_DROP. -/
def C.RX_ENTRY_DROP (n : Nat) : Nat := 0x200000 + n * 0x400 + 0x148
/-- The address of COUNT_LO of RX_RESET_DROP. -/
def C.RX_RESET_DROP (n : Nat) : Nat := 0x200000 + n * 0x400 + 0x150
/-- The address of COUNT_LO of TX_FRAMES. -/
def C.TX_FRAMES (n : Nat) : Nat := 0x200000 + n * 0x400 + 0x158
/-- The address of COUNT_LO of TX_BYTES. -/
def C.TX_BYTES (n : Nat) : Nat := 0x200000 + n * 0x400 + 0x160
/-- The address of COUNT_LO of TX_MAC_CTRL. -/
def C.TX_MAC_CTRL (n : Nat) : Nat := 0x200000 + n * 0x400 + 0x168
/-- The address of COUNT_LO of TX_OVERSIZE_DROP. -/
def C.TX_OVERSIZE_DROP (n : Nat) : Nat := 0x200000 + n * 0x400 + 0x170
/-- The address of COUNT_LO of TX_CUT. -/
def C.TX_CUT (n : Nat) : Nat := 0x200000 + n * 0x400 + 0x178
/-- The address of COUNT_LO of FEC_CORR_CW. -/
def C.FEC_CORR_CW (n : Nat) : Nat := 0x200000 + n * 0x400 + 0x180
/-- The address of COUNT_LO of FEC_UNCORR_CW. -/
def C.FEC_UNCORR_CW (n : Nat) : Nat := 0x200000 + n * 0x400 + 0x188
/-- The address of COUNT_LO of FEC_CORR_SYM. -/
def C.FEC_CORR_SYM (n : Nat) : Nat := 0x200000 + n * 0x400 + 0x190
/-- The address of COUNT_LO of ONZ_STUFF. -/
def C.ONZ_STUFF (n : Nat) : Nat := 0x200000 + n * 0x400 + 0x198
/-- The address of COUNT_LO of ONZ_STUFF_FRAMES. -/
def C.ONZ_STUFF_FRAMES (n : Nat) : Nat := 0x200000 + n * 0x400 + 0x1A0
/-- The address of COUNT_LO of ONZ_MARKER_ERR. -/
def C.ONZ_MARKER_ERR (n : Nat) : Nat := 0x200000 + n * 0x400 + 0x1A8
/-- The address of COUNT_LO of ONZ_ALIGN_ERR. -/
def C.ONZ_ALIGN_ERR (n : Nat) : Nat := 0x200000 + n * 0x400 + 0x1B0
/-- The address of COUNT_LO of ONZ_TB_ERR. -/
def C.ONZ_TB_ERR (n : Nat) : Nat := 0x200000 + n * 0x400 + 0x1B8
/-- The address of COUNT_LO of ONZ_RESTARTS. -/
def C.ONZ_RESTARTS (n : Nat) : Nat := 0x200000 + n * 0x400 + 0x1C0
/-- The address of COUNT_LO of TS_INSERT. -/
def C.TS_INSERT (n : Nat) : Nat := 0x200000 + n * 0x400 + 0x1C8
/-- The address of COUNT_LO of TS_TC_CORR. -/
def C.TS_TC_CORR (n : Nat) : Nat := 0x200000 + n * 0x400 + 0x1D0
/-- The address of COUNT_LO of TS_TWO_STEP. -/
def C.TS_TWO_STEP (n : Nat) : Nat := 0x200000 + n * 0x400 + 0x1D8
/-- The address of COUNT_LO of TS_TXQ_LOST. -/
def C.TS_TXQ_LOST (n : Nat) : Nat := 0x200000 + n * 0x400 + 0x1E0
/-- The address of COUNT_LO of TS_OOR. -/
def C.TS_OOR (n : Nat) : Nat := 0x200000 + n * 0x400 + 0x1E8
/-- The address of COUNT_LO of TS_TC_SAT. -/
def C.TS_TC_SAT (n : Nat) : Nat := 0x200000 + n * 0x400 + 0x1F0
/-- The address of COUNT_LO of TT_DUE. -/
def C.TT_DUE (n : Nat) : Nat := 0x200000 + n * 0x400 + 0x1F8
/-- The address of COUNT_LO of TT_LATE. -/
def C.TT_LATE (n : Nat) : Nat := 0x200000 + n * 0x400 + 0x200

/-! ### A parser window -/

/-- The address of PAR_STATUS. -/
def R.PAR_STATUS (p : Nat) : Nat := 0x10000000 + p * 0x1000000
def F.PAR_STATUS.LOADED : Fld := ⟨31, 1⟩
def F.PAR_STATUS.STATES : Fld := ⟨16, 7⟩
/-- The address of PAR_HASH_SEED. -/
def R.PAR_HASH_SEED (p : Nat) : Nat := 0x10000000 + p * 0x1000000 + 0x4
def F.PAR_HASH_SEED.SEED : Fld := ⟨0, 32⟩
/-- The address of PAR_EXC_MASK. -/
def R.PAR_EXC_MASK (p : Nat) : Nat := 0x10000000 + p * 0x1000000 + 0x8
def F.PAR_EXC_MASK.REASONS : Fld := ⟨1, 15⟩
/-- The address of PAR_CAUSE. -/
def R.PAR_CAUSE (p : Nat) : Nat := 0x10000000 + p * 0x1000000 + 0xC
def F.PAR_CAUSE.IDLE_VIOL : Fld := ⟨2, 1⟩
def F.PAR_CAUSE.EXC_RED : Fld := ⟨1, 1⟩
def F.PAR_CAUSE.MALFORMED : Fld := ⟨0, 1⟩
/-- Where PAR_EXC_POL_CTL of Pitch n is held (Pitch-wide). -/
def R.PAR_EXC_POL_CTL (n : Nat) : Nat := 0x20000000 + n * 0x1000 + 0x200
def F.PAR_EXC_POL_CTL.PENDING : Fld := ⟨31, 1⟩
def F.PAR_EXC_POL_CTL.TOKEN_RESET : Fld := ⟨1, 1⟩
def F.PAR_EXC_POL_CTL.EN : Fld := ⟨0, 1⟩
/-- Where PAR_EXC_CIR of Pitch n is held (Pitch-wide). -/
def R.PAR_EXC_CIR (n : Nat) : Nat := 0x20000000 + n * 0x1000 + 0x204
def F.PAR_EXC_CIR.PENDING : Fld := ⟨31, 1⟩
def F.PAR_EXC_CIR.RATE : Fld := ⟨0, 19⟩
/-- Where PAR_EXC_PIR of Pitch n is held (Pitch-wide). -/
def R.PAR_EXC_PIR (n : Nat) : Nat := 0x20000000 + n * 0x1000 + 0x208
def F.PAR_EXC_PIR.PENDING : Fld := ⟨31, 1⟩
def F.PAR_EXC_PIR.RATE : Fld := ⟨0, 19⟩
/-- Where PAR_EXC_CBS of Pitch n is held (Pitch-wide). -/
def R.PAR_EXC_CBS (n : Nat) : Nat := 0x20000000 + n * 0x1000 + 0x20C
def F.PAR_EXC_CBS.PENDING : Fld := ⟨31, 1⟩
def F.PAR_EXC_CBS.BYTES : Fld := ⟨0, 24⟩
/-- Where PAR_EXC_PBS of Pitch n is held (Pitch-wide). -/
def R.PAR_EXC_PBS (n : Nat) : Nat := 0x20000000 + n * 0x1000 + 0x210
def F.PAR_EXC_PBS.PENDING : Fld := ⟨31, 1⟩
def F.PAR_EXC_PBS.BYTES : Fld := ⟨0, 24⟩
/-- The address of COUNT_LO of PAR_CNT. -/
def C.PAR_CNT (p i : Nat) : Nat := 0x10000000 + p * 0x1000000 + i * 0x8 + 0x100
/-- The address of COUNT_LO of PAR_FRAG_CNT. -/
def C.PAR_FRAG_CNT (p : Nat) : Nat := 0x10000000 + p * 0x1000000 + 0x180
/-- The address of COUNT_LO of PAR_EXC_GREEN. -/
def C.PAR_EXC_GREEN (p : Nat) : Nat := 0x10000000 + p * 0x1000000 + 0x188
/-- The address of COUNT_LO of PAR_EXC_YELLOW. -/
def C.PAR_EXC_YELLOW (p : Nat) : Nat := 0x10000000 + p * 0x1000000 + 0x190
/-- The address of COUNT_LO of PAR_EXC_RED. -/
def C.PAR_EXC_RED (p : Nat) : Nat := 0x10000000 + p * 0x1000000 + 0x198

/-! ### A stage window -/

/-- The address of STG_STATUS. -/
def R.STG_STATUS (p s : Nat) : Nat := 0x10100000 + p * 0x1000000 + s * 0x80000
def F.STG_STATUS.LOADED : Fld := ⟨31, 1⟩
def F.STG_STATUS.BLOCKS : Fld := ⟨16, 7⟩
def F.STG_STATUS.TABLES : Fld := ⟨0, 3⟩
/-- The address of STG_CAUSE. -/
def R.STG_CAUSE (p s : Nat) : Nat := 0x10100000 + p * 0x1000000 + s * 0x80000 + 0x4
def F.STG_CAUSE.NOTE_FULL : Fld := ⟨4, 1⟩
def F.STG_CAUSE.LEARN_DROP : Fld := ⟨3, 1⟩
def F.STG_CAUSE.IDLE_VIOL : Fld := ⟨2, 1⟩
def F.STG_CAUSE.CFG : Fld := ⟨1, 1⟩
def F.STG_CAUSE.PARITY : Fld := ⟨0, 1⟩
/-- The address of STG_PAR_ADDR. -/
def R.STG_PAR_ADDR (p s : Nat) : Nat := 0x10100000 + p * 0x1000000 + s * 0x80000 + 0x8
def F.STG_PAR_ADDR.VALID : Fld := ⟨31, 1⟩
def F.STG_PAR_ADDR.TS : Fld := ⟨30, 1⟩
def F.STG_PAR_ADDR.TABLE : Fld := ⟨20, 2⟩
def F.STG_PAR_ADDR.STASH : Fld := ⟨19, 1⟩
def F.STG_PAR_ADDR.WAY : Fld := ⟨16, 2⟩
def F.STG_PAR_ADDR.ROW : Fld := ⟨0, 16⟩
/-- The address of STG_EM_CFG. -/
def R.STG_EM_CFG (p s i : Nat) : Nat := 0x10100000 + p * 0x1000000 + s * 0x80000 + i * 0x40 + 0x40
def F.STG_EM_CFG.DEFINED : Fld := ⟨31, 1⟩
def F.STG_EM_CFG.DUAL_KEY : Fld := ⟨30, 1⟩
def F.STG_EM_CFG.LEARN : Fld := ⟨29, 1⟩
def F.STG_EM_CFG.WIDTH : Fld := ⟨24, 2⟩
def F.STG_EM_CFG.DEPTH_LOG2 : Fld := ⟨16, 4⟩
def F.STG_EM_CFG.KEY_LEN : Fld := ⟨0, 7⟩
/-- The address of STG_EM_CTL. -/
def R.STG_EM_CTL (p s i : Nat) : Nat := 0x10100000 + p * 0x1000000 + s * 0x80000 + i * 0x40 + 0x44
def F.STG_EM_CTL.NOTIFY : Fld := ⟨16, 8⟩
def F.STG_EM_CTL.AGE_SHIFT : Fld := ⟨8, 4⟩
def F.STG_EM_CTL.MAX_DEPTH : Fld := ⟨4, 2⟩
def F.STG_EM_CTL.EVICT : Fld := ⟨0, 2⟩
/-- The address of STG_EM_AGE. -/
def R.STG_EM_AGE (p s i : Nat) : Nat := 0x10100000 + p * 0x1000000 + s * 0x80000 + i * 0x40 + 0x48
def F.STG_EM_AGE.AGE_LIMIT : Fld := ⟨0, 15⟩
/-- The address of STG_EM_SEED. -/
def R.STG_EM_SEED (p s i j : Nat) : Nat := 0x10100000 + p * 0x1000000 + s * 0x80000 + i * 0x40 + j * 0x4 + 0x50
def F.STG_EM_SEED.SEED : Fld := ⟨0, 32⟩
/-- The address of STG_EM_OCC. -/
def R.STG_EM_OCC (p s i : Nat) : Nat := 0x10100000 + p * 0x1000000 + s * 0x80000 + i * 0x40 + 0x60
def F.STG_EM_OCC.STASH_USED : Fld := ⟨27, 5⟩
def F.STG_EM_OCC.ENTRIES : Fld := ⟨0, 20⟩
/-- The address of STG_IA_CMD. -/
def R.STG_IA_CMD (p s : Nat) : Nat := 0x10100000 + p * 0x1000000 + s * 0x80000 + 0x1000
def F.STG_IA_CMD.GO : Fld := ⟨31, 1⟩
def F.STG_IA_CMD.OP : Fld := ⟨24, 4⟩
def F.STG_IA_CMD.TABLE : Fld := ⟨20, 2⟩
def F.STG_IA_CMD.STASH : Fld := ⟨19, 1⟩
def F.STG_IA_CMD.WAY : Fld := ⟨16, 2⟩
def F.STG_IA_CMD.ROW : Fld := ⟨0, 16⟩
/-- The address of STG_IA_STATUS. -/
def R.STG_IA_STATUS (p s : Nat) : Nat := 0x10100000 + p * 0x1000000 + s * 0x80000 + 0x1004
def F.STG_IA_STATUS.RESULT : Fld := ⟨28, 4⟩
def F.STG_IA_STATUS.STASH : Fld := ⟨19, 1⟩
def F.STG_IA_STATUS.WAY : Fld := ⟨16, 2⟩
def F.STG_IA_STATUS.ROW : Fld := ⟨0, 16⟩
/-- The address of STG_IA_TS. -/
def R.STG_IA_TS (p s : Nat) : Nat := 0x10100000 + p * 0x1000000 + s * 0x80000 + 0x1008
def F.STG_IA_TS.TS : Fld := ⟨0, 16⟩
/-- The address of STG_IA_DATA. -/
def R.STG_IA_DATA (p s i : Nat) : Nat := 0x10100000 + p * 0x1000000 + s * 0x80000 + i * 0x4 + 0x1040
def F.STG_IA_DATA.BYTES : Fld := ⟨0, 32⟩
/-- The address of STG_NOTE_HDR. -/
def R.STG_NOTE_HDR (p s : Nat) : Nat := 0x10100000 + p * 0x1000000 + s * 0x80000 + 0x2000
def F.STG_NOTE_HDR.KIND : Fld := ⟨28, 4⟩
def F.STG_NOTE_HDR.TABLE : Fld := ⟨20, 2⟩
def F.STG_NOTE_HDR.STASH : Fld := ⟨19, 1⟩
def F.STG_NOTE_HDR.WAY : Fld := ⟨16, 2⟩
def F.STG_NOTE_HDR.ROW : Fld := ⟨0, 16⟩
/-- The address of STG_NOTE_ROUND. -/
def R.STG_NOTE_ROUND (p s : Nat) : Nat := 0x10100000 + p * 0x1000000 + s * 0x80000 + 0x2004
def F.STG_NOTE_ROUND.ROUND : Fld := ⟨0, 32⟩
/-- The address of STG_NOTE_CTL. -/
def R.STG_NOTE_CTL (p s : Nat) : Nat := 0x10100000 + p * 0x1000000 + s * 0x80000 + 0x2008
def F.STG_NOTE_CTL.POP : Fld := ⟨31, 1⟩
def F.STG_NOTE_CTL.LEVEL : Fld := ⟨0, 9⟩
/-- The address of STG_NOTE_ENTRY. -/
def R.STG_NOTE_ENTRY (p s i : Nat) : Nat := 0x10100000 + p * 0x1000000 + s * 0x80000 + i * 0x4 + 0x2040
def F.STG_NOTE_ENTRY.BYTES : Fld := ⟨0, 32⟩
/-- The address of TC_CFG. -/
def R.TC_CFG (p s i : Nat) : Nat := 0x10100000 + p * 0x1000000 + s * 0x80000 + i * 0x400 + 0x3000
def F.TC_CFG.DEFINED : Fld := ⟨31, 1⟩
def F.TC_CFG.PREFILTER : Fld := ⟨30, 1⟩
def F.TC_CFG.BANKS : Fld := ⟨28, 2⟩
def F.TC_CFG.SLICES : Fld := ⟨16, 8⟩
def F.TC_CFG.WIDTH : Fld := ⟨0, 4⟩
/-- The address of TC_OCC. -/
def R.TC_OCC (p s i : Nat) : Nat := 0x10100000 + p * 0x1000000 + s * 0x80000 + i * 0x400 + 0x3004
def F.TC_OCC.ENTRIES : Fld := ⟨0, 18⟩
/-- The address of TC_GMASK_CTL. -/
def R.TC_GMASK_CTL (p s i : Nat) : Nat := 0x10100000 + p * 0x1000000 + s * 0x80000 + i * 0x400 + 0x3008
def F.TC_GMASK_CTL.TAKE : Fld := ⟨31, 1⟩
/-- The address of TC_GMASK. -/
def R.TC_GMASK (p s i j m : Nat) : Nat := 0x10100000 + p * 0x1000000 + s * 0x80000 + i * 0x400 + j * 0x50 + m * 0x4 + 0x3100
def F.TC_GMASK.BITS : Fld := ⟨0, 32⟩
/-- The address of STG_UC_CAUSE. -/
def R.STG_UC_CAUSE (p s : Nat) : Nat := 0x10100000 + p * 0x1000000 + s * 0x80000 + 0x3800
def F.STG_UC_CAUSE.SWAP_FAIL : Fld := ⟨3, 1⟩
def F.STG_UC_CAUSE.STBY_BUSY : Fld := ⟨2, 1⟩
def F.STG_UC_CAUSE.BAD_ACTION : Fld := ⟨1, 1⟩
def F.STG_UC_CAUSE.PARITY : Fld := ⟨0, 1⟩
/-- The address of STG_UC_ERR. -/
def R.STG_UC_ERR (p s : Nat) : Nat := 0x10100000 + p * 0x1000000 + s * 0x80000 + 0x3804
def F.STG_UC_ERR.VALID : Fld := ⟨31, 1⟩
def F.STG_UC_ERR.BANK : Fld := ⟨12, 1⟩
def F.STG_UC_ERR.WORD : Fld := ⟨0, 12⟩
/-- Where STG_UC_SWAP of pipeline p is held (pipeline-wide). -/
def R.STG_UC_SWAP (p : Nat) : Nat := 0x20200000 + p * 0x4000 + 0x3840
def F.STG_UC_SWAP.GO : Fld := ⟨31, 1⟩
def F.STG_UC_SWAP.RESULT : Fld := ⟨4, 4⟩
def F.STG_UC_SWAP.CHECKED : Fld := ⟨2, 1⟩
def F.STG_UC_SWAP.DRAINING : Fld := ⟨1, 1⟩
def F.STG_UC_SWAP.BANK : Fld := ⟨0, 1⟩
/-- Where STG_UC_SWAP_ERR of pipeline p is held (pipeline-wide). -/
def R.STG_UC_SWAP_ERR (p : Nat) : Nat := 0x20200000 + p * 0x4000 + 0x3844
def F.STG_UC_SWAP_ERR.VALID : Fld := ⟨31, 1⟩
def F.STG_UC_SWAP_ERR.STAGE : Fld := ⟨24, 5⟩
def F.STG_UC_SWAP_ERR.CHECK : Fld := ⟨16, 4⟩
def F.STG_UC_SWAP_ERR.WORD : Fld := ⟨0, 12⟩
/-- Where STG_UC_HASH of pipeline p is held (pipeline-wide). -/
def R.STG_UC_HASH (p i : Nat) : Nat := 0x20200000 + p * 0x4000 + i * 0x4 + 0x3860
def F.STG_UC_HASH.HASH : Fld := ⟨0, 32⟩
/-- The address of STG_UC_DIR. -/
def R.STG_UC_DIR (p s i : Nat) : Nat := 0x10100000 + p * 0x1000000 + s * 0x80000 + i * 0x4 + 0x3900
def F.STG_UC_DIR.DEFINED : Fld := ⟨31, 1⟩
def F.STG_UC_DIR.CUST : Fld := ⟨30, 1⟩
def F.STG_UC_DIR.SLOTS : Fld := ⟨25, 5⟩
def F.STG_UC_DIR.START : Fld := ⟨0, 12⟩
/-- The address of STG_UC_WORD. -/
def R.STG_UC_WORD (p s i : Nat) : Nat := 0x10100000 + p * 0x1000000 + s * 0x80000 + i * 0x4 + 0x40000
def F.STG_UC_WORD.WORD : Fld := ⟨0, 32⟩
/-- The address of STG_UC_STBY. -/
def R.STG_UC_STBY (p s i : Nat) : Nat := 0x10100000 + p * 0x1000000 + s * 0x80000 + i * 0x4 + 0x44000
def F.STG_UC_STBY.WORD : Fld := ⟨0, 32⟩
/-- The address of STG_ACT_CHAIN. -/
def R.STG_ACT_CHAIN (p s i : Nat) : Nat := 0x10100000 + p * 0x1000000 + s * 0x80000 + i * 0x4 + 0x5F000
def F.STG_ACT_CHAIN.CHAIN : Fld := ⟨0, 32⟩
/-- The address of COUNT_LO of EM_LOOKUPS. -/
def C.EM_LOOKUPS (p s i : Nat) : Nat := 0x10100000 + p * 0x1000000 + s * 0x80000 + i * 0x100 + 0x400
/-- The address of COUNT_LO of EM_HITS. -/
def C.EM_HITS (p s i : Nat) : Nat := 0x10100000 + p * 0x1000000 + s * 0x80000 + i * 0x100 + 0x408
/-- The address of COUNT_LO of EM_LEARN_REQ. -/
def C.EM_LEARN_REQ (p s i : Nat) : Nat := 0x10100000 + p * 0x1000000 + s * 0x80000 + i * 0x100 + 0x410
/-- The address of COUNT_LO of EM_LEARN_MERGED. -/
def C.EM_LEARN_MERGED (p s i : Nat) : Nat := 0x10100000 + p * 0x1000000 + s * 0x80000 + i * 0x100 + 0x418
/-- The address of COUNT_LO of EM_LEARN_DROP. -/
def C.EM_LEARN_DROP (p s i : Nat) : Nat := 0x10100000 + p * 0x1000000 + s * 0x80000 + i * 0x100 + 0x420
/-- The address of COUNT_LO of EM_LEARNED. -/
def C.EM_LEARNED (p s i : Nat) : Nat := 0x10100000 + p * 0x1000000 + s * 0x80000 + i * 0x100 + 0x428
/-- The address of COUNT_LO of EM_INSERT_FAIL. -/
def C.EM_INSERT_FAIL (p s i : Nat) : Nat := 0x10100000 + p * 0x1000000 + s * 0x80000 + i * 0x100 + 0x430
/-- The address of COUNT_LO of EM_MOVE_REFUSED. -/
def C.EM_MOVE_REFUSED (p s i : Nat) : Nat := 0x10100000 + p * 0x1000000 + s * 0x80000 + i * 0x100 + 0x438
/-- The address of COUNT_LO of EM_LEARN_REFRESH. -/
def C.EM_LEARN_REFRESH (p s i : Nat) : Nat := 0x10100000 + p * 0x1000000 + s * 0x80000 + i * 0x100 + 0x440
/-- The address of COUNT_LO of EM_MOVED. -/
def C.EM_MOVED (p s i : Nat) : Nat := 0x10100000 + p * 0x1000000 + s * 0x80000 + i * 0x100 + 0x448
/-- The address of COUNT_LO of EM_EVICTED. -/
def C.EM_EVICTED (p s i : Nat) : Nat := 0x10100000 + p * 0x1000000 + s * 0x80000 + i * 0x100 + 0x450
/-- The address of COUNT_LO of EM_AGED. -/
def C.EM_AGED (p s i : Nat) : Nat := 0x10100000 + p * 0x1000000 + s * 0x80000 + i * 0x100 + 0x458
/-- The address of COUNT_LO of EM_PARITY. -/
def C.EM_PARITY (p s i : Nat) : Nat := 0x10100000 + p * 0x1000000 + s * 0x80000 + i * 0x100 + 0x460
/-- The address of COUNT_LO of EM_TS_PARITY. -/
def C.EM_TS_PARITY (p s i : Nat) : Nat := 0x10100000 + p * 0x1000000 + s * 0x80000 + i * 0x100 + 0x468
/-- The address of COUNT_LO of EM_NOTE_DROP. -/
def C.EM_NOTE_DROP (p s i : Nat) : Nat := 0x10100000 + p * 0x1000000 + s * 0x80000 + i * 0x100 + 0x470
/-- The address of COUNT_LO of UC_PARITY. -/
def C.UC_PARITY (p s : Nat) : Nat := 0x10100000 + p * 0x1000000 + s * 0x80000 + 0x800
/-- The address of COUNT_LO of UC_BAD_ACTION. -/
def C.UC_BAD_ACTION (p s : Nat) : Nat := 0x10100000 + p * 0x1000000 + s * 0x80000 + 0x808
/-- The address of COUNT_LO of ACT_CHAIN_MISS. -/
def C.ACT_CHAIN_MISS (p s : Nat) : Nat := 0x10100000 + p * 0x1000000 + s * 0x80000 + 0x810
/-- The address of COUNT_LO of TC_SEARCHES. -/
def C.TC_SEARCHES (p s i : Nat) : Nat := 0x10100000 + p * 0x1000000 + s * 0x80000 + i * 0x400 + 0x3300
/-- The address of COUNT_LO of TC_HITS. -/
def C.TC_HITS (p s i : Nat) : Nat := 0x10100000 + p * 0x1000000 + s * 0x80000 + i * 0x400 + 0x3308
/-- The address of COUNT_LO of TC_SLICE_PAR_MISS. -/
def C.TC_SLICE_PAR_MISS (p s i : Nat) : Nat := 0x10100000 + p * 0x1000000 + s * 0x80000 + i * 0x400 + 0x3310
/-- The address of COUNT_LO of ACT_PKTS. -/
def C.ACT_PKTS (p s i : Nat) : Nat := 0x10100000 + p * 0x1000000 + s * 0x80000 + i * 0x10 + 0x60000
/-- The address of COUNT_LO of ACT_BYTES. -/
def C.ACT_BYTES (p s i : Nat) : Nat := 0x10100000 + p * 0x1000000 + s * 0x80000 + i * 0x10 + 0x60008

/-! ### A TCAM engine window -/

/-- The address of TC_ENG_STATUS. -/
def R.TC_ENG_STATUS (p : Nat) : Nat := 0x10D00000 + p * 0x1000000
def F.TC_ENG_STATUS.LOADED : Fld := ⟨31, 1⟩
def F.TC_ENG_STATUS.BLOCKS : Fld := ⟨16, 8⟩
def F.TC_ENG_STATUS.SEARCHED : Fld := ⟨0, 7⟩
/-- The address of TC_CAUSE. -/
def R.TC_CAUSE (p : Nat) : Nat := 0x10D00000 + p * 0x1000000 + 0x4
def F.TC_CAUSE.IDLE_VIOL : Fld := ⟨3, 1⟩
def F.TC_CAUSE.NORMALISED : Fld := ⟨2, 1⟩
def F.TC_CAUSE.SHADOW_PAR : Fld := ⟨1, 1⟩
def F.TC_CAUSE.MISMATCH : Fld := ⟨0, 1⟩
/-- The address of TC_ERR_ADDR. -/
def R.TC_ERR_ADDR (p : Nat) : Nat := 0x10D00000 + p * 0x1000000 + 0x8
def F.TC_ERR_ADDR.VALID : Fld := ⟨31, 1⟩
def F.TC_ERR_ADDR.PARITY : Fld := ⟨30, 1⟩
def F.TC_ERR_ADDR.STAGE : Fld := ⟨19, 5⟩
def F.TC_ERR_ADDR.TABLE : Fld := ⟨18, 1⟩
def F.TC_ERR_ADDR.ADDR : Fld := ⟨0, 17⟩
/-- The address of TC_SCRUB_CTL. -/
def R.TC_SCRUB_CTL (p : Nat) : Nat := 0x10D00000 + p * 0x1000000 + 0x10
def F.TC_SCRUB_CTL.EN : Fld := ⟨31, 1⟩
def F.TC_SCRUB_CTL.INTERVAL : Fld := ⟨0, 11⟩
/-- The address of TC_SCRUB_POS. -/
def R.TC_SCRUB_POS (p : Nat) : Nat := 0x10D00000 + p * 0x1000000 + 0x14
def F.TC_SCRUB_POS.BLOCK : Fld := ⟨16, 7⟩
def F.TC_SCRUB_POS.ROW : Fld := ⟨0, 10⟩
/-- The address of TC_IA_CMD. -/
def R.TC_IA_CMD (p : Nat) : Nat := 0x10D00000 + p * 0x1000000 + 0x1000
def F.TC_IA_CMD.GO : Fld := ⟨31, 1⟩
def F.TC_IA_CMD.OP : Fld := ⟨24, 4⟩
def F.TC_IA_CMD.STAGE : Fld := ⟨19, 5⟩
def F.TC_IA_CMD.TABLE : Fld := ⟨18, 1⟩
def F.TC_IA_CMD.ADDR : Fld := ⟨0, 17⟩
/-- The address of TC_IA_STATUS. -/
def R.TC_IA_STATUS (p : Nat) : Nat := 0x10D00000 + p * 0x1000000 + 0x1004
def F.TC_IA_STATUS.RESULT : Fld := ⟨28, 4⟩
def F.TC_IA_STATUS.MOVES : Fld := ⟨18, 10⟩
def F.TC_IA_STATUS.ADDR : Fld := ⟨0, 17⟩
/-- The address of TC_IA_ENT. -/
def R.TC_IA_ENT (p : Nat) : Nat := 0x10D00000 + p * 0x1000000 + 0x1008
def F.TC_IA_ENT.VALID : Fld := ⟨31, 1⟩
def F.TC_IA_ENT.GSEL : Fld := ⟨16, 2⟩
def F.TC_IA_ENT.PRIO : Fld := ⟨0, 16⟩
/-- The address of TC_IA_RES_HI. -/
def R.TC_IA_RES_HI (p : Nat) : Nat := 0x10D00000 + p * 0x1000000 + 0x100C
def F.TC_IA_RES_HI.ACTION : Fld := ⟨28, 4⟩
def F.TC_IA_RES_HI.DATA_HI : Fld := ⟨0, 28⟩
/-- The address of TC_IA_RES_LO. -/
def R.TC_IA_RES_LO (p : Nat) : Nat := 0x10D00000 + p * 0x1000000 + 0x1010
def F.TC_IA_RES_LO.DATA_LO : Fld := ⟨0, 32⟩
/-- The address of TC_IA_VAL. -/
def R.TC_IA_VAL (p i : Nat) : Nat := 0x10D00000 + p * 0x1000000 + i * 0x4 + 0x1040
def F.TC_IA_VAL.BYTES : Fld := ⟨0, 32⟩
/-- The address of TC_IA_MASK. -/
def R.TC_IA_MASK (p i : Nat) : Nat := 0x10D00000 + p * 0x1000000 + i * 0x4 + 0x1090
def F.TC_IA_MASK.BYTES : Fld := ⟨0, 32⟩
/-- The address of COUNT_LO of TC_INSERTS. -/
def C.TC_INSERTS (p : Nat) : Nat := 0x10D00000 + p * 0x1000000 + 0x2000
/-- The address of COUNT_LO of TC_MOVES. -/
def C.TC_MOVES (p : Nat) : Nat := 0x10D00000 + p * 0x1000000 + 0x2008
/-- The address of COUNT_LO of TC_SCRUB_ROWS. -/
def C.TC_SCRUB_ROWS (p : Nat) : Nat := 0x10D00000 + p * 0x1000000 + 0x2010
/-- The address of COUNT_LO of TC_NORMALISED. -/
def C.TC_NORMALISED (p : Nat) : Nat := 0x10D00000 + p * 0x1000000 + 0x2018
/-- The address of COUNT_LO of TC_MISMATCH. -/
def C.TC_MISMATCH (p : Nat) : Nat := 0x10D00000 + p * 0x1000000 + 0x2020
/-- The address of COUNT_LO of TC_SHADOW_PAR. -/
def C.TC_SHADOW_PAR (p : Nat) : Nat := 0x10D00000 + p * 0x1000000 + 0x2028

/-! ### A version block window -/

/-- Where VER_CMD of Pitch n is held (Pitch-wide). -/
def R.VER_CMD (n : Nat) : Nat := 0x20100000 + n * 0x1000 + 0x0
def F.VER_CMD.GO : Fld := ⟨31, 1⟩
def F.VER_CMD.CMD : Fld := ⟨24, 4⟩
def F.VER_CMD.AT_ROUND : Fld := ⟨8, 1⟩
def F.VER_CMD.RESULT : Fld := ⟨4, 4⟩
/-- Where VER_STATUS of Pitch n is held (Pitch-wide). -/
def R.VER_STATUS (n : Nat) : Nat := 0x20100000 + n * 0x1000 + 0x4
def F.VER_STATUS.TAG : Fld := ⟨16, 1⟩
def F.VER_STATUS.OPEN_HELD : Fld := ⟨8, 1⟩
def F.VER_STATUS.STATE : Fld := ⟨0, 3⟩
/-- Where VER_NUM of Pitch n is held (Pitch-wide). -/
def R.VER_NUM (n : Nat) : Nat := 0x20100000 + n * 0x1000 + 0x8
def F.VER_NUM.NUM : Fld := ⟨0, 32⟩
/-- Where VER_DRAIN_LIMIT of Pitch n is held (Pitch-wide). -/
def R.VER_DRAIN_LIMIT (n : Nat) : Nat := 0x20100000 + n * 0x1000 + 0xC
def F.VER_DRAIN_LIMIT.LIMIT : Fld := ⟨0, 20⟩
/-- Where VER_CAUSE of Pitch n is held (Pitch-wide). -/
def R.VER_CAUSE (n : Nat) : Nat := 0x20100000 + n * 0x1000 + 0x10
def F.VER_CAUSE.CMD_REFUSED : Fld := ⟨2, 1⟩
def F.VER_CAUSE.GRP_LOST : Fld := ⟨1, 1⟩
def F.VER_CAUSE.DRAIN_TIMEOUT : Fld := ⟨0, 1⟩
/-- Where VER_DRAIN_LAST of Pitch n is held (Pitch-wide). -/
def R.VER_DRAIN_LAST (n : Nat) : Nat := 0x20100000 + n * 0x1000 + 0x14
def F.VER_DRAIN_LAST.NS : Fld := ⟨0, 32⟩
/-- The address of VER_PIPE. -/
def R.VER_PIPE (p : Nat) : Nat := 0x10E00000 + p * 0x1000000 + 0x100
def F.VER_PIPE.LANDED : Fld := ⟨31, 1⟩
def F.VER_PIPE.TAG : Fld := ⟨16, 1⟩
def F.VER_PIPE.ROWS : Fld := ⟨0, 12⟩
/-- The address of VER_OLD_LIVE. -/
def R.VER_OLD_LIVE (p : Nat) : Nat := 0x10E00000 + p * 0x1000000 + 0x104
def F.VER_OLD_LIVE.COUNT : Fld := ⟨0, 21⟩
/-- The address of VER_GW_CMD. -/
def R.VER_GW_CMD (p : Nat) : Nat := 0x10E00000 + p * 0x1000000 + 0x110
def F.VER_GW_CMD.GO : Fld := ⟨31, 1⟩
def F.VER_GW_CMD.OP : Fld := ⟨24, 4⟩
def F.VER_GW_CMD.STAGE : Fld := ⟨19, 5⟩
def F.VER_GW_CMD.TABLE : Fld := ⟨17, 2⟩
def F.VER_GW_CMD.ADDR : Fld := ⟨0, 17⟩
/-- The address of VER_GW_STATUS. -/
def R.VER_GW_STATUS (p : Nat) : Nat := 0x10E00000 + p * 0x1000000 + 0x114
def F.VER_GW_STATUS.RESULT : Fld := ⟨28, 4⟩
def F.VER_GW_STATUS.LOC : Fld := ⟨0, 20⟩
/-- The address of COUNT_LO of VER_GRP_LOST. -/
def C.VER_GRP_LOST (p : Nat) : Nat := 0x10E00000 + p * 0x1000000 + 0x180

/-! ### The Buffer Pool Manager global registers -/

/-- The address of BPM_STATUS. -/
def R.BPM_STATUS : Nat := 0x300000
def F.BPM_STATUS.LAYOUT : Fld := ⟨31, 1⟩
def F.BPM_STATUS.POOLS : Fld := ⟨16, 4⟩
def F.BPM_STATUS.FENCED : Fld := ⟨0, 16⟩
/-- The address of BPM_CAUSE. -/
def R.BPM_CAUSE : Nat := 0x300000 + 0x4
def F.BPM_CAUSE.INCONSISTENT : Fld := ⟨4, 1⟩
def F.BPM_CAUSE.UNCORR : Fld := ⟨3, 1⟩
def F.BPM_CAUSE.FENCE : Fld := ⟨2, 1⟩
def F.BPM_CAUSE.DFREE : Fld := ⟨1, 1⟩
def F.BPM_CAUSE.LAYOUT : Fld := ⟨0, 1⟩
/-- The address of BPM_DFREE. -/
def R.BPM_DFREE : Nat := 0x300000 + 0x8
def F.BPM_DFREE.SRC : Fld := ⟨24, 8⟩
def F.BPM_DFREE.HANDLE : Fld := ⟨0, 24⟩
/-- The address of BPM_FENCE_CTL. -/
def R.BPM_FENCE_CTL : Nat := 0x300000 + 0x10
def F.BPM_FENCE_CTL.GO : Fld := ⟨31, 1⟩
def F.BPM_FENCE_CTL.SLICE : Fld := ⟨16, 4⟩
def F.BPM_FENCE_CTL.UNCORR_THR : Fld := ⟨0, 16⟩
/-- The address of BPM_AUDIT_CTL. -/
def R.BPM_AUDIT_CTL : Nat := 0x300000 + 0x14
def F.BPM_AUDIT_CTL.EN : Fld := ⟨31, 1⟩
def F.BPM_AUDIT_CTL.LIMIT : Fld := ⟨0, 15⟩
/-- The address of BPM_POOL_CFG. -/
def R.BPM_POOL_CFG (i : Nat) : Nat := 0x300000 + i * 0x10 + 0x100
def F.BPM_POOL_CFG.DEFINED : Fld := ⟨31, 1⟩
def F.BPM_POOL_CFG.SIZE : Fld := ⟨24, 3⟩
def F.BPM_POOL_CFG.COUNT : Fld := ⟨0, 22⟩
/-- The address of BPM_POOL_FREE. -/
def R.BPM_POOL_FREE (i : Nat) : Nat := 0x300000 + i * 0x10 + 0x104
def F.BPM_POOL_FREE.COUNT : Fld := ⟨0, 22⟩
/-- The address of BPM_POOL_EFF. -/
def R.BPM_POOL_EFF (i : Nat) : Nat := 0x300000 + i * 0x10 + 0x108
def F.BPM_POOL_EFF.COUNT : Fld := ⟨0, 22⟩
/-- The address of BPM_POOL_UNRSV. -/
def R.BPM_POOL_UNRSV (i : Nat) : Nat := 0x300000 + i * 0x10 + 0x10C
def F.BPM_POOL_UNRSV.COUNT : Fld := ⟨0, 22⟩
/-- The address of COUNT_LO of BPM_SLICE_CORR. -/
def C.BPM_SLICE_CORR (i : Nat) : Nat := 0x300000 + i * 0x10 + 0x400
/-- The address of COUNT_LO of BPM_SLICE_UNCORR. -/
def C.BPM_SLICE_UNCORR (i : Nat) : Nat := 0x300000 + i * 0x10 + 0x408
/-- The address of COUNT_LO of BPM_INCONSISTENT. -/
def C.BPM_INCONSISTENT : Nat := 0x300000 + 0x500

/-! ### A Buffer Pool Manager owner page -/

/-- The address of BPM_OWN_CAUSE. -/
def R.BPM_OWN_CAUSE (n : Nat) : Nat := 0x301000 + n * 0x1000
def F.BPM_OWN_CAUSE.DFREE : Fld := ⟨5, 1⟩
def F.BPM_OWN_CAUSE.SLICE_LOSS : Fld := ⟨4, 1⟩
def F.BPM_OWN_CAUSE.QUOTA : Fld := ⟨3, 1⟩
def F.BPM_OWN_CAUSE.REFUSE : Fld := ⟨2, 1⟩
def F.BPM_OWN_CAUSE.AUDIT_DROP : Fld := ⟨1, 1⟩
def F.BPM_OWN_CAUSE.ORPHAN : Fld := ⟨0, 1⟩
/-- The address of BPM_OWN_HOLD. -/
def R.BPM_OWN_HOLD (n i : Nat) : Nat := 0x301000 + n * 0x1000 + i * 0x4 + 0x40
def F.BPM_OWN_HOLD.COUNT : Fld := ⟨0, 22⟩
/-- The address of BPM_OWN_RSV. -/
def R.BPM_OWN_RSV (n i : Nat) : Nat := 0x301000 + n * 0x1000 + i * 0x4 + 0x60
def F.BPM_OWN_RSV.COUNT : Fld := ⟨0, 22⟩
/-- The address of BPM_RQ_QUOTA. -/
def R.BPM_RQ_QUOTA (n i j : Nat) : Nat := 0x301000 + n * 0x1000 + i * 0x20 + j * 0x4 + 0x100
def F.BPM_RQ_QUOTA.QUOTA : Fld := ⟨0, 22⟩
/-- The address of BPM_RQ_HOLD. -/
def R.BPM_RQ_HOLD (n i j : Nat) : Nat := 0x301000 + n * 0x1000 + i * 0x20 + j * 0x4 + 0x200
def F.BPM_RQ_HOLD.COUNT : Fld := ⟨0, 22⟩
/-- The address of BPM_AUD_HEAD. -/
def R.BPM_AUD_HEAD (n : Nat) : Nat := 0x301000 + n * 0x1000 + 0x400
def F.BPM_AUD_HEAD.VALID : Fld := ⟨31, 1⟩
def F.BPM_AUD_HEAD.HANDLE : Fld := ⟨0, 24⟩
/-- The address of BPM_AUD_INFO. -/
def R.BPM_AUD_INFO (n : Nat) : Nat := 0x301000 + n * 0x1000 + 0x404
def F.BPM_AUD_INFO.HOLDER : Fld := ⟨24, 8⟩
def F.BPM_AUD_INFO.HOLDS : Fld := ⟨16, 8⟩
def F.BPM_AUD_INFO.ALLOC : Fld := ⟨0, 16⟩
/-- The address of BPM_AUD_CTL. -/
def R.BPM_AUD_CTL (n : Nat) : Nat := 0x301000 + n * 0x1000 + 0x408
def F.BPM_AUD_CTL.POP : Fld := ⟨31, 1⟩
def F.BPM_AUD_CTL.LEVEL : Fld := ⟨0, 6⟩
/-- The address of BPM_RECLAIM. -/
def R.BPM_RECLAIM (n : Nat) : Nat := 0x301000 + n * 0x1000 + 0x410
def F.BPM_RECLAIM.GO : Fld := ⟨31, 1⟩
def F.BPM_RECLAIM.RESULT : Fld := ⟨24, 4⟩
def F.BPM_RECLAIM.HANDLE : Fld := ⟨0, 24⟩
/-- The address of COUNT_LO of BPM_ADMITTED. -/
def C.BPM_ADMITTED (n : Nat) : Nat := 0x301000 + n * 0x1000 + 0x800
/-- The address of COUNT_LO of BPM_REFUSE_QUOTA. -/
def C.BPM_REFUSE_QUOTA (n : Nat) : Nat := 0x301000 + n * 0x1000 + 0x808
/-- The address of COUNT_LO of BPM_REFUSE_RESERVE. -/
def C.BPM_REFUSE_RESERVE (n : Nat) : Nat := 0x301000 + n * 0x1000 + 0x810
/-- The address of COUNT_LO of BPM_REFUSE_EMPTY. -/
def C.BPM_REFUSE_EMPTY (n : Nat) : Nat := 0x301000 + n * 0x1000 + 0x818
/-- The address of COUNT_LO of BPM_SLICE_LOSS. -/
def C.BPM_SLICE_LOSS (n : Nat) : Nat := 0x301000 + n * 0x1000 + 0x820
/-- The address of COUNT_LO of BPM_OWN_DFREE. -/
def C.BPM_OWN_DFREE (n : Nat) : Nat := 0x301000 + n * 0x1000 + 0x828
/-- The address of COUNT_LO of BPM_ORPHANS. -/
def C.BPM_ORPHANS (n : Nat) : Nat := 0x301000 + n * 0x1000 + 0x830
/-- The address of COUNT_LO of BPM_AUDIT_DROP. -/
def C.BPM_AUDIT_DROP (n : Nat) : Nat := 0x301000 + n * 0x1000 + 0x838
/-- The address of COUNT_LO of BPM_RECLAIMED. -/
def C.BPM_RECLAIMED (n : Nat) : Nat := 0x301000 + n * 0x1000 + 0x840

/-! ### A Buffer Pool Manager writer window -/

/-- The address of BPM_WR_QUOTA. -/
def R.BPM_WR_QUOTA (p i : Nat) : Nat := 0x320000 + p * 0x100 + i * 0x4
def F.BPM_WR_QUOTA.VALUE : Fld := ⟨0, 22⟩
/-- The address of BPM_WR_HOLD. -/
def R.BPM_WR_HOLD (p i : Nat) : Nat := 0x320000 + p * 0x100 + i * 0x4 + 0x20
def F.BPM_WR_HOLD.VALUE : Fld := ⟨0, 22⟩

/-! ### A traffic manager pipeline window -/

/-- The address of TM_IA_CMD. -/
def R.TM_IA_CMD (p : Nat) : Nat := 0x410000 + p * 0x4000
def F.TM_IA_CMD.GO : Fld := ⟨31, 1⟩
def F.TM_IA_CMD.OP : Fld := ⟨24, 4⟩
def F.TM_IA_CMD.TARGET : Fld := ⟨20, 3⟩
def F.TM_IA_CMD.INDEX : Fld := ⟨0, 16⟩
/-- The address of TM_IA_STATUS. -/
def R.TM_IA_STATUS (p : Nat) : Nat := 0x410000 + p * 0x4000 + 0x4
def F.TM_IA_STATUS.RESULT : Fld := ⟨28, 4⟩
/-- The address of TM_PIPE_CAUSE. -/
def R.TM_PIPE_CAUSE (p : Nat) : Nat := 0x410000 + p * 0x4000 + 0x8
def F.TM_PIPE_CAUSE.IDLE_VIOL : Fld := ⟨1, 1⟩
def F.TM_PIPE_CAUSE.CFG : Fld := ⟨0, 1⟩
/-- The address of TM_IA_DATA. -/
def R.TM_IA_DATA (p i : Nat) : Nat := 0x410000 + p * 0x4000 + i * 0x4 + 0x40
def F.TM_IA_DATA.WORD : Fld := ⟨0, 32⟩
/-- The address of COUNT_LO of TM_DROP. -/
def C.TM_DROP (p i : Nat) : Nat := 0x410000 + p * 0x4000 + i * 0x8 + 0x2000

/-! ### A traffic manager port region -/

/-- The address of TM_PORT_CTL. -/
def R.TM_PORT_CTL (n : Nat) : Nat := 0x500000 + n * 0x800
def F.TM_PORT_CTL.UP_HOLD : Fld := ⟨16, 8⟩
def F.TM_PORT_CTL.DOWN_FLUSH : Fld := ⟨0, 16⟩
/-- The address of TM_PORT_STATUS. -/
def R.TM_PORT_STATUS (n : Nat) : Nat := 0x500000 + n * 0x800 + 0x4
def F.TM_PORT_STATUS.LIVE : Fld := ⟨31, 1⟩
def F.TM_PORT_STATUS.DOWN_DROP : Fld := ⟨30, 1⟩
def F.TM_PORT_STATUS.DISCARD : Fld := ⟨0, 16⟩
/-- The address of TM_PORT_CAUSE. -/
def R.TM_PORT_CAUSE (n : Nat) : Nat := 0x500000 + n * 0x800 + 0x8
def F.TM_PORT_CAUSE.DOWN_FLUSH : Fld := ⟨4, 1⟩
def F.TM_PORT_CAUSE.HEADROOM : Fld := ⟨3, 1⟩
def F.TM_PORT_CAUSE.LIMIT : Fld := ⟨2, 1⟩
def F.TM_PORT_CAUSE.WD_EXIT : Fld := ⟨1, 1⟩
def F.TM_PORT_CAUSE.WD_ENTER : Fld := ⟨0, 1⟩
/-- The address of TM_PORT_LIMIT. -/
def R.TM_PORT_LIMIT (n : Nat) : Nat := 0x500000 + n * 0x800 + 0xC
def F.TM_PORT_LIMIT.LIMIT : Fld := ⟨0, 20⟩
/-- The address of TM_PORT_SHP_CTL. -/
def R.TM_PORT_SHP_CTL (n : Nat) : Nat := 0x500000 + n * 0x800 + 0x10
def F.TM_PORT_SHP_CTL.PENDING : Fld := ⟨31, 1⟩
def F.TM_PORT_SHP_CTL.TOKEN_RESET : Fld := ⟨0, 1⟩
/-- The address of TM_PORT_CIR. -/
def R.TM_PORT_CIR (n : Nat) : Nat := 0x500000 + n * 0x800 + 0x14
def F.TM_PORT_CIR.PENDING : Fld := ⟨31, 1⟩
def F.TM_PORT_CIR.RATE : Fld := ⟨0, 21⟩
/-- The address of TM_PORT_PIR. -/
def R.TM_PORT_PIR (n : Nat) : Nat := 0x500000 + n * 0x800 + 0x18
def F.TM_PORT_PIR.PENDING : Fld := ⟨31, 1⟩
def F.TM_PORT_PIR.RATE : Fld := ⟨0, 21⟩
/-- The address of TM_PORT_CBS. -/
def R.TM_PORT_CBS (n : Nat) : Nat := 0x500000 + n * 0x800 + 0x1C
def F.TM_PORT_CBS.PENDING : Fld := ⟨31, 1⟩
def F.TM_PORT_CBS.BYTES : Fld := ⟨0, 24⟩
/-- The address of TM_PORT_PBS. -/
def R.TM_PORT_PBS (n : Nat) : Nat := 0x500000 + n * 0x800 + 0x20
def F.TM_PORT_PBS.PENDING : Fld := ⟨31, 1⟩
def F.TM_PORT_PBS.BYTES : Fld := ⟨0, 24⟩
/-- The address of TM_PFC_CTL. -/
def R.TM_PFC_CTL (n : Nat) : Nat := 0x500000 + n * 0x800 + 0x24
def F.TM_PFC_CTL.REFRESH : Fld := ⟨16, 12⟩
def F.TM_PFC_CTL.QUANTA : Fld := ⟨0, 16⟩
/-- The address of TM_WD_CTL. -/
def R.TM_WD_CTL (n : Nat) : Nat := 0x500000 + n * 0x800 + 0x28
def F.TM_WD_CTL.T : Fld := ⟨0, 10⟩
/-- The address of TM_FC_STATUS. -/
def R.TM_FC_STATUS (n : Nat) : Nat := 0x500000 + n * 0x800 + 0x2C
def F.TM_FC_STATUS.PORT_XOFF : Fld := ⟨16, 1⟩
def F.TM_FC_STATUS.CLASS_XOFF : Fld := ⟨0, 16⟩
/-- The address of TM_IN_PORT_XOFF. -/
def R.TM_IN_PORT_XOFF (n : Nat) : Nat := 0x500000 + n * 0x800 + 0x30
def F.TM_IN_PORT_XOFF.UNITS : Fld := ⟨0, 20⟩
/-- The address of TM_IN_PORT_XON. -/
def R.TM_IN_PORT_XON (n : Nat) : Nat := 0x500000 + n * 0x800 + 0x34
def F.TM_IN_PORT_XON.UNITS : Fld := ⟨0, 20⟩
/-- The address of TM_IN_PORT_OCC. -/
def R.TM_IN_PORT_OCC (n : Nat) : Nat := 0x500000 + n * 0x800 + 0x38
def F.TM_IN_PORT_OCC.UNITS : Fld := ⟨0, 20⟩
/-- The address of TM_Q_LIMIT. -/
def R.TM_Q_LIMIT (n i : Nat) : Nat := 0x500000 + n * 0x800 + i * 0x20 + 0x40
def F.TM_Q_LIMIT.LIMIT : Fld := ⟨0, 20⟩
/-- The address of TM_Q_SCHED. -/
def R.TM_Q_SCHED (n i : Nat) : Nat := 0x500000 + n * 0x800 + i * 0x20 + 0x44
def F.TM_Q_SCHED.MODE : Fld := ⟨31, 1⟩
def F.TM_Q_SCHED.WEIGHT : Fld := ⟨0, 8⟩
/-- The address of TM_Q_SHP_CTL. -/
def R.TM_Q_SHP_CTL (n i : Nat) : Nat := 0x500000 + n * 0x800 + i * 0x20 + 0x48
def F.TM_Q_SHP_CTL.PENDING : Fld := ⟨31, 1⟩
def F.TM_Q_SHP_CTL.TOKEN_RESET : Fld := ⟨0, 1⟩
/-- The address of TM_Q_CIR. -/
def R.TM_Q_CIR (n i : Nat) : Nat := 0x500000 + n * 0x800 + i * 0x20 + 0x4C
def F.TM_Q_CIR.PENDING : Fld := ⟨31, 1⟩
def F.TM_Q_CIR.RATE : Fld := ⟨0, 21⟩
/-- The address of TM_Q_PIR. -/
def R.TM_Q_PIR (n i : Nat) : Nat := 0x500000 + n * 0x800 + i * 0x20 + 0x50
def F.TM_Q_PIR.PENDING : Fld := ⟨31, 1⟩
def F.TM_Q_PIR.RATE : Fld := ⟨0, 21⟩
/-- The address of TM_Q_CBS. -/
def R.TM_Q_CBS (n i : Nat) : Nat := 0x500000 + n * 0x800 + i * 0x20 + 0x54
def F.TM_Q_CBS.PENDING : Fld := ⟨31, 1⟩
def F.TM_Q_CBS.BYTES : Fld := ⟨0, 24⟩
/-- The address of TM_Q_PBS. -/
def R.TM_Q_PBS (n i : Nat) : Nat := 0x500000 + n * 0x800 + i * 0x20 + 0x58
def F.TM_Q_PBS.PENDING : Fld := ⟨31, 1⟩
def F.TM_Q_PBS.BYTES : Fld := ⟨0, 24⟩
/-- The address of TM_Q_DEPTH. -/
def R.TM_Q_DEPTH (n i : Nat) : Nat := 0x500000 + n * 0x800 + i * 0x20 + 0x5C
def F.TM_Q_DEPTH.PAUSED : Fld := ⟨31, 1⟩
def F.TM_Q_DEPTH.DISCARD : Fld := ⟨30, 1⟩
def F.TM_Q_DEPTH.BYTES : Fld := ⟨0, 28⟩
/-- The address of TM_IN_XOFF. -/
def R.TM_IN_XOFF (n i : Nat) : Nat := 0x500000 + n * 0x800 + i * 0x10 + 0x240
def F.TM_IN_XOFF.UNITS : Fld := ⟨0, 20⟩
/-- The address of TM_IN_XON. -/
def R.TM_IN_XON (n i : Nat) : Nat := 0x500000 + n * 0x800 + i * 0x10 + 0x244
def F.TM_IN_XON.UNITS : Fld := ⟨0, 20⟩
/-- The address of TM_IN_DROP. -/
def R.TM_IN_DROP (n i : Nat) : Nat := 0x500000 + n * 0x800 + i * 0x10 + 0x248
def F.TM_IN_DROP.UNITS : Fld := ⟨0, 20⟩
/-- The address of TM_IN_OCC. -/
def R.TM_IN_OCC (n i : Nat) : Nat := 0x500000 + n * 0x800 + i * 0x10 + 0x24C
def F.TM_IN_OCC.UNITS : Fld := ⟨0, 20⟩
/-- The address of COUNT_LO of TM_IN_DROP_CNT. -/
def C.TM_IN_DROP_CNT (n : Nat) : Nat := 0x500000 + n * 0x800 + 0x340
/-- The address of COUNT_LO of TM_Q_ENQ_FRAMES. -/
def C.TM_Q_ENQ_FRAMES (n i : Nat) : Nat := 0x500000 + n * 0x800 + i * 0x40 + 0x400
/-- The address of COUNT_LO of TM_Q_ENQ_BYTES. -/
def C.TM_Q_ENQ_BYTES (n i : Nat) : Nat := 0x500000 + n * 0x800 + i * 0x40 + 0x408
/-- The address of COUNT_LO of TM_Q_DROP_FRAMES. -/
def C.TM_Q_DROP_FRAMES (n i : Nat) : Nat := 0x500000 + n * 0x800 + i * 0x40 + 0x410
/-- The address of COUNT_LO of TM_Q_DROP_BYTES. -/
def C.TM_Q_DROP_BYTES (n i : Nat) : Nat := 0x500000 + n * 0x800 + i * 0x40 + 0x418
/-- The address of COUNT_LO of TM_Q_TX_FRAMES. -/
def C.TM_Q_TX_FRAMES (n i : Nat) : Nat := 0x500000 + n * 0x800 + i * 0x40 + 0x420
/-- The address of COUNT_LO of TM_Q_TX_BYTES. -/
def C.TM_Q_TX_BYTES (n i : Nat) : Nat := 0x500000 + n * 0x800 + i * 0x40 + 0x428
/-- The address of COUNT_LO of TM_Q_WD_ENTRIES. -/
def C.TM_Q_WD_ENTRIES (n i : Nat) : Nat := 0x500000 + n * 0x800 + i * 0x40 + 0x430
/-- The address of COUNT_LO of TM_Q_WD_DISCARD. -/
def C.TM_Q_WD_DISCARD (n i : Nat) : Nat := 0x500000 + n * 0x800 + i * 0x40 + 0x438

/-! ### The time base block -/

/-- The address of TIME_NS. -/
def R.TIME_NS : Nat := 0x80000
def F.TIME_NS.VALID : Fld := ⟨31, 1⟩
def F.TIME_NS.HOLDOVER : Fld := ⟨30, 1⟩
def F.TIME_NS.NS : Fld := ⟨0, 30⟩
/-- Where TIME_SHD_S of requester rq is held (one pair per requester). -/
def R.TIME_SHD_S (rq : Nat) : Nat := 0x20300000 + rq * 0x10 + 0x4
def F.TIME_SHD_S.S_LO : Fld := ⟨0, 32⟩
/-- Where TIME_SHD_SF of requester rq is held (one pair per requester). -/
def R.TIME_SHD_SF (rq : Nat) : Nat := 0x20300000 + rq * 0x10 + 0x8
def F.TIME_SHD_SF.S_HI : Fld := ⟨16, 16⟩
def F.TIME_SHD_SF.FRAC : Fld := ⟨0, 16⟩
/-- The address of TIME_STATUS. -/
def R.TIME_STATUS : Nat := 0x80000 + 0x10
def F.TIME_STATUS.VALID : Fld := ⟨31, 1⟩
def F.TIME_STATUS.HOLDOVER : Fld := ⟨30, 1⟩
def F.TIME_STATUS.CNT_FAULT : Fld := ⟨29, 1⟩
def F.TIME_STATUS.LOCKED : Fld := ⟨28, 1⟩
def F.TIME_STATUS.TL_SLAVE : Fld := ⟨24, 1⟩
def F.TIME_STATUS.TL_PARENT : Fld := ⟨20, 2⟩
def F.TIME_STATUS.SRC : Fld := ⟨0, 3⟩
/-- The address of TIME_CAUSE. -/
def R.TIME_CAUSE : Nat := 0x80000 + 0x14
def F.TIME_CAUSE.PPS_CFG : Fld := ⟨12, 1⟩
def F.TIME_CAUSE.SYNCE_SQ : Fld := ⟨11, 1⟩
def F.TIME_CAUSE.TL_CHANGE : Fld := ⟨10, 1⟩
def F.TIME_CAUSE.TL_NO_MASTER : Fld := ⟨9, 1⟩
def F.TIME_CAUSE.EVT_OVF : Fld := ⟨8, 1⟩
def F.TIME_CAUSE.PPS_LATE : Fld := ⟨7, 1⟩
def F.TIME_CAUSE.PPS_SKIP : Fld := ⟨6, 1⟩
def F.TIME_CAUSE.SRC_BUSY : Fld := ⟨5, 1⟩
def F.TIME_CAUSE.CNT_FAULT : Fld := ⟨4, 1⟩
def F.TIME_CAUSE.PPS_OUTLIER : Fld := ⟨3, 1⟩
def F.TIME_CAUSE.REF_LOSS : Fld := ⟨2, 1⟩
def F.TIME_CAUSE.HOLDOVER : Fld := ⟨1, 1⟩
def F.TIME_CAUSE.STEP : Fld := ⟨0, 1⟩
/-- The address of TIME_SET_S. -/
def R.TIME_SET_S : Nat := 0x80000 + 0x20
def F.TIME_SET_S.S_LO : Fld := ⟨0, 32⟩
/-- The address of TIME_SET_SF. -/
def R.TIME_SET_SF : Nat := 0x80000 + 0x24
def F.TIME_SET_SF.S_HI : Fld := ⟨16, 16⟩
def F.TIME_SET_SF.FRAC : Fld := ⟨0, 16⟩
/-- The address of TIME_SET_NS. -/
def R.TIME_SET_NS : Nat := 0x80000 + 0x28
def F.TIME_SET_NS.NS : Fld := ⟨0, 30⟩
/-- The address of TIME_SET_CTL. -/
def R.TIME_SET_CTL : Nat := 0x80000 + 0x2C
def F.TIME_SET_CTL.GO : Fld := ⟨31, 1⟩
def F.TIME_SET_CTL.AT : Fld := ⟨8, 1⟩
def F.TIME_SET_CTL.RESULT : Fld := ⟨4, 4⟩
/-- The address of TIME_ADJ_NS. -/
def R.TIME_ADJ_NS : Nat := 0x80000 + 0x30
def F.TIME_ADJ_NS.NS : Fld := ⟨0, 32⟩
/-- The address of TIME_ADJ_CTL. -/
def R.TIME_ADJ_CTL : Nat := 0x80000 + 0x34
def F.TIME_ADJ_CTL.GO : Fld := ⟨31, 1⟩
def F.TIME_ADJ_CTL.RESULT : Fld := ⟨24, 4⟩
def F.TIME_ADJ_CTL.FRAC : Fld := ⟨0, 16⟩
/-- The address of TIME_FREQ. -/
def R.TIME_FREQ : Nat := 0x80000 + 0x38
def F.TIME_FREQ.ADJ : Fld := ⟨0, 32⟩
/-- The address of TIME_STEP_THR. -/
def R.TIME_STEP_THR : Nat := 0x80000 + 0x3C
def F.TIME_STEP_THR.NS : Fld := ⟨0, 20⟩
/-- The address of TIME_SRC_CTL. -/
def R.TIME_SRC_CTL : Nat := 0x80000 + 0x40
def F.TIME_SRC_CTL.REVERT : Fld := ⟨8, 8⟩
def F.TIME_SRC_CTL.BW : Fld := ⟨4, 2⟩
def F.TIME_SRC_CTL.SRC : Fld := ⟨0, 3⟩
/-- The address of TIME_SRC_ERR. -/
def R.TIME_SRC_ERR : Nat := 0x80000 + 0x44
def F.TIME_SRC_ERR.VALUE : Fld := ⟨0, 32⟩
/-- The address of TIME_TRIM_SUM. -/
def R.TIME_TRIM_SUM : Nat := 0x80000 + 0x48
def F.TIME_TRIM_SUM.VALUE : Fld := ⟨0, 32⟩
/-- The address of TIME_PPS_IN_COMP. -/
def R.TIME_PPS_IN_COMP : Nat := 0x80000 + 0x4C
def F.TIME_PPS_IN_COMP.VALUE : Fld := ⟨0, 32⟩
/-- The address of TIME_STEP_CNT. -/
def R.TIME_STEP_CNT : Nat := 0x80000 + 0x50
def F.TIME_STEP_CNT.COUNT : Fld := ⟨0, 32⟩
/-- The address of TIME_TRIM_CNT. -/
def R.TIME_TRIM_CNT : Nat := 0x80000 + 0x54
def F.TIME_TRIM_CNT.COUNT : Fld := ⟨0, 32⟩
/-- The address of TIME_PPS_OUTLIER. -/
def R.TIME_PPS_OUTLIER : Nat := 0x80000 + 0x58
def F.TIME_PPS_OUTLIER.COUNT : Fld := ⟨0, 32⟩
/-- The address of TIME_TL_BAD. -/
def R.TIME_TL_BAD : Nat := 0x80000 + 0x5C
def F.TIME_TL_BAD.COUNT : Fld := ⟨0, 32⟩
/-- The address of TIME_PPS_CTL. -/
def R.TIME_PPS_CTL (i : Nat) : Nat := 0x80000 + i * 0x20 + 0x100
def F.TIME_PPS_CTL.ARM : Fld := ⟨31, 1⟩
def F.TIME_PPS_CTL.DISARM : Fld := ⟨30, 1⟩
def F.TIME_PPS_CTL.MODE : Fld := ⟨28, 2⟩
def F.TIME_PPS_CTL.LATE : Fld := ⟨27, 1⟩
def F.TIME_PPS_CTL.INV : Fld := ⟨26, 1⟩
def F.TIME_PPS_CTL.STATE : Fld := ⟨24, 2⟩
/-- The address of TIME_PPS_START_S. -/
def R.TIME_PPS_START_S (i : Nat) : Nat := 0x80000 + i * 0x20 + 0x104
def F.TIME_PPS_START_S.S_LO : Fld := ⟨0, 32⟩
/-- The address of TIME_PPS_START_SF. -/
def R.TIME_PPS_START_SF (i : Nat) : Nat := 0x80000 + i * 0x20 + 0x108
def F.TIME_PPS_START_SF.S_HI : Fld := ⟨16, 16⟩
def F.TIME_PPS_START_SF.FRAC : Fld := ⟨0, 16⟩
/-- The address of TIME_PPS_START_NS. -/
def R.TIME_PPS_START_NS (i : Nat) : Nat := 0x80000 + i * 0x20 + 0x10C
def F.TIME_PPS_START_NS.NS : Fld := ⟨0, 30⟩
/-- The address of TIME_PPS_PERIOD. -/
def R.TIME_PPS_PERIOD (i : Nat) : Nat := 0x80000 + i * 0x20 + 0x110
def F.TIME_PPS_PERIOD.NS : Fld := ⟨0, 32⟩
/-- The address of TIME_PPS_WIDTH. -/
def R.TIME_PPS_WIDTH (i : Nat) : Nat := 0x80000 + i * 0x20 + 0x114
def F.TIME_PPS_WIDTH.NS : Fld := ⟨0, 32⟩
/-- The address of TIME_PPS_SKIP. -/
def R.TIME_PPS_SKIP (i : Nat) : Nat := 0x80000 + i * 0x20 + 0x118
def F.TIME_PPS_SKIP.COUNT : Fld := ⟨0, 32⟩
/-- The address of TIME_PPS_LATE. -/
def R.TIME_PPS_LATE (i : Nat) : Nat := 0x80000 + i * 0x20 + 0x11C
def F.TIME_PPS_LATE.COUNT : Fld := ⟨0, 32⟩
/-- The address of TIME_EVT_CTL. -/
def R.TIME_EVT_CTL (i : Nat) : Nat := 0x80000 + i * 0x20 + 0x200
def F.TIME_EVT_CTL.POP : Fld := ⟨31, 1⟩
def F.TIME_EVT_CTL.EDGE : Fld := ⟨29, 2⟩
def F.TIME_EVT_CTL.LEVEL : Fld := ⟨0, 5⟩
/-- The address of TIME_EVT_S. -/
def R.TIME_EVT_S (i : Nat) : Nat := 0x80000 + i * 0x20 + 0x204
def F.TIME_EVT_S.S_LO : Fld := ⟨0, 32⟩
/-- The address of TIME_EVT_SF. -/
def R.TIME_EVT_SF (i : Nat) : Nat := 0x80000 + i * 0x20 + 0x208
def F.TIME_EVT_SF.S_HI : Fld := ⟨16, 16⟩
def F.TIME_EVT_SF.FRAC : Fld := ⟨0, 16⟩
/-- The address of TIME_EVT_NS. -/
def R.TIME_EVT_NS (i : Nat) : Nat := 0x80000 + i * 0x20 + 0x20C
def F.TIME_EVT_NS.VALID : Fld := ⟨31, 1⟩
def F.TIME_EVT_NS.FALL : Fld := ⟨30, 1⟩
def F.TIME_EVT_NS.NS : Fld := ⟨0, 30⟩
/-- The address of TIME_EVT_INFO. -/
def R.TIME_EVT_INFO (i : Nat) : Nat := 0x80000 + i * 0x20 + 0x210
def F.TIME_EVT_INFO.STEP_SEQ : Fld := ⟨24, 8⟩
def F.TIME_EVT_INFO.HOLDOVER : Fld := ⟨0, 1⟩
/-- The address of TIME_EVT_LOST. -/
def R.TIME_EVT_LOST (i : Nat) : Nat := 0x80000 + i * 0x20 + 0x214
def F.TIME_EVT_LOST.COUNT : Fld := ⟨0, 32⟩
/-- The address of TIME_SYNCE_CTL. -/
def R.TIME_SYNCE_CTL (i : Nat) : Nat := 0x80000 + i * 0x4 + 0x300
def F.TIME_SYNCE_CTL.EN : Fld := ⟨31, 1⟩
def F.TIME_SYNCE_CTL.SQUELCH : Fld := ⟨30, 1⟩
def F.TIME_SYNCE_CTL.SQ : Fld := ⟨29, 1⟩
def F.TIME_SYNCE_CTL.FREQ : Fld := ⟨28, 1⟩
def F.TIME_SYNCE_CTL.LANE : Fld := ⟨0, 10⟩
/-- The address of TIME_TL_CTL. -/
def R.TIME_TL_CTL : Nat := 0x80000 + 0x400
def F.TIME_TL_CTL.ETYPE : Fld := ⟨16, 16⟩
def F.TIME_TL_CTL.TIMEOUT : Fld := ⟨8, 4⟩
def F.TIME_TL_CTL.INTERVAL : Fld := ⟨0, 3⟩
/-- The address of TIME_TL_SELF. -/
def R.TIME_TL_SELF : Nat := 0x80000 + 0x404
def F.TIME_TL_SELF.CLASS : Fld := ⟨8, 8⟩
def F.TIME_TL_SELF.ACCURACY : Fld := ⟨0, 8⟩
/-- The address of TIME_TL_SERIAL_LO. -/
def R.TIME_TL_SERIAL_LO : Nat := 0x80000 + 0x408
def F.TIME_TL_SERIAL_LO.SERIAL : Fld := ⟨0, 32⟩
/-- The address of TIME_TL_SERIAL_HI. -/
def R.TIME_TL_SERIAL_HI : Nat := 0x80000 + 0x40C
def F.TIME_TL_SERIAL_HI.SERIAL : Fld := ⟨0, 32⟩
/-- The address of TIME_TL_PORT. -/
def R.TIME_TL_PORT (i : Nat) : Nat := 0x80000 + i * 0x4 + 0x410
def F.TIME_TL_PORT.EN : Fld := ⟨31, 1⟩
def F.TIME_TL_PORT.PORT : Fld := ⟨0, 10⟩
/-- The address of TIME_TL_STAT. -/
def R.TIME_TL_STAT (i : Nat) : Nat := 0x80000 + i * 0x20 + 0x440
def F.TIME_TL_STAT.CURRENT : Fld := ⟨31, 1⟩
def F.TIME_TL_STAT.PARENT : Fld := ⟨30, 1⟩
def F.TIME_TL_STAT.PEER_VALID : Fld := ⟨29, 1⟩
def F.TIME_TL_STAT.PEER_HOLDOVER : Fld := ⟨28, 1⟩
def F.TIME_TL_STAT.STEPS : Fld := ⟨24, 4⟩
def F.TIME_TL_STAT.GM_CLASS : Fld := ⟨16, 8⟩
def F.TIME_TL_STAT.GM_ACC : Fld := ⟨8, 8⟩
/-- The address of TIME_TL_GM_LO. -/
def R.TIME_TL_GM_LO (i : Nat) : Nat := 0x80000 + i * 0x20 + 0x444
def F.TIME_TL_GM_LO.VALUE : Fld := ⟨0, 32⟩
/-- The address of TIME_TL_GM_HI. -/
def R.TIME_TL_GM_HI (i : Nat) : Nat := 0x80000 + i * 0x20 + 0x448
def F.TIME_TL_GM_HI.VALUE : Fld := ⟨0, 32⟩
/-- The address of TIME_TL_OFS. -/
def R.TIME_TL_OFS (i : Nat) : Nat := 0x80000 + i * 0x20 + 0x44C
def F.TIME_TL_OFS.VALUE : Fld := ⟨0, 32⟩
/-- The address of TIME_TL_DELAY. -/
def R.TIME_TL_DELAY (i : Nat) : Nat := 0x80000 + i * 0x20 + 0x450
def F.TIME_TL_DELAY.VALUE : Fld := ⟨0, 32⟩

/-! ### A Timetable page -/

/-- The address of TT_CTL. -/
def R.TT_CTL (n : Nat) : Nat := 0xC0000 + n * 0x800
def F.TT_CTL.PENDING : Fld := ⟨31, 1⟩
def F.TT_CTL.EN : Fld := ⟨16, 1⟩
def F.TT_CTL.CLASSES : Fld := ⟨0, 16⟩
/-- The address of TT_FLOOR. -/
def R.TT_FLOOR (n : Nat) : Nat := 0xC0000 + n * 0x800 + 0x4
def F.TT_FLOOR.PENDING : Fld := ⟨31, 1⟩
def F.TT_FLOOR.FLOOR : Fld := ⟨0, 20⟩
/-- The address of TT_ADV_CTL. -/
def R.TT_ADV_CTL (n : Nat) : Nat := 0xC0000 + n * 0x800 + 0x8
def F.TT_ADV_CTL.MCAST : Fld := ⟨16, 11⟩
def F.TT_ADV_CTL.KMAX : Fld := ⟨0, 6⟩
/-- The address of TT_ADV. -/
def R.TT_ADV (n : Nat) : Nat := 0xC0000 + n * 0x800 + 0xC
def F.TT_ADV.VALID : Fld := ⟨31, 1⟩
def F.TT_ADV.BELOW : Fld := ⟨30, 1⟩
def F.TT_ADV.ADV : Fld := ⟨0, 20⟩
/-- The address of TT_CAUSE. -/
def R.TT_CAUSE (n : Nat) : Nat := 0xC0000 + n * 0x800 + 0x10
def F.TT_CAUSE.LATE_LOST : Fld := ⟨2, 1⟩
def F.TT_CAUSE.BELOW_ADV : Fld := ⟨1, 1⟩
def F.TT_CAUSE.LATE : Fld := ⟨0, 1⟩
/-- The address of TT_LATE_CTL. -/
def R.TT_LATE_CTL (n : Nat) : Nat := 0xC0000 + n * 0x800 + 0x14
def F.TT_LATE_CTL.POP : Fld := ⟨31, 1⟩
def F.TT_LATE_CTL.LEVEL : Fld := ⟨0, 7⟩
/-- The address of TT_LATE_ID. -/
def R.TT_LATE_ID (n : Nat) : Nat := 0xC0000 + n * 0x800 + 0x20
def F.TT_LATE_ID.VALID : Fld := ⟨31, 1⟩
def F.TT_LATE_ID.REASON : Fld := ⟨28, 3⟩
def F.TT_LATE_ID.EPORT : Fld := ⟨10, 10⟩
def F.TT_LATE_ID.IPORT : Fld := ⟨0, 10⟩
/-- The address of TT_LATE_DS. -/
def R.TT_LATE_DS (n : Nat) : Nat := 0xC0000 + n * 0x800 + 0x24
def F.TT_LATE_DS.S_LO : Fld := ⟨0, 32⟩
/-- The address of TT_LATE_DSF. -/
def R.TT_LATE_DSF (n : Nat) : Nat := 0xC0000 + n * 0x800 + 0x28
def F.TT_LATE_DSF.S_HI : Fld := ⟨16, 16⟩
def F.TT_LATE_DSF.FRAC : Fld := ⟨0, 16⟩
/-- The address of TT_LATE_DNS. -/
def R.TT_LATE_DNS (n : Nat) : Nat := 0xC0000 + n * 0x800 + 0x2C
def F.TT_LATE_DNS.NS : Fld := ⟨0, 30⟩
/-- The address of TT_LATE_AMT. -/
def R.TT_LATE_AMT (n : Nat) : Nat := 0xC0000 + n * 0x800 + 0x30
def F.TT_LATE_AMT.LATENESS : Fld := ⟨0, 32⟩
/-- The address of COUNT_LO of TT_LATE_BY. -/
def C.TT_LATE_BY (n i : Nat) : Nat := 0xC0000 + n * 0x800 + i * 0x8 + 0x100
/-- The address of COUNT_LO of TT_LATE_LOST. -/
def C.TT_LATE_LOST (n : Nat) : Nat := 0xC0000 + n * 0x800 + 0x140

/-! ### The global page of the Waybill -/

/-- The address of WB_STATUS. -/
def R.WB_STATUS : Nat := 0xC9000
def F.WB_STATUS.LOADED : Fld := ⟨16, 16⟩
def F.WB_STATUS.ENGINE_UP : Fld := ⟨0, 2⟩
/-- The address of WB_CAUSE. -/
def R.WB_CAUSE : Nat := 0xC9000 + 0x4
def F.WB_CAUSE.EXP_CFG : Fld := ⟨2, 1⟩
def F.WB_CAUSE.QUOTA_CFG : Fld := ⟨1, 1⟩
def F.WB_CAUSE.ENGINE : Fld := ⟨0, 1⟩
/-- The address of WB_ETYPE. -/
def R.WB_ETYPE : Nat := 0xC9000 + 0x8
def F.WB_ETYPE.ETYPE : Fld := ⟨0, 16⟩
/-- The address of WB_KEY_CTL. -/
def R.WB_KEY_CTL : Nat := 0xC9000 + 0x10
def F.WB_KEY_CTL.GO : Fld := ⟨31, 1⟩
def F.WB_KEY_CTL.SLOT : Fld := ⟨16, 4⟩
def F.WB_KEY_CTL.LEN : Fld := ⟨8, 6⟩
def F.WB_KEY_CTL.RESULT : Fld := ⟨4, 4⟩
/-- The address of WB_KEY_DATA. -/
def R.WB_KEY_DATA (i : Nat) : Nat := 0xC9000 + i * 0x4 + 0x20
def F.WB_KEY_DATA.BYTES : Fld := ⟨0, 32⟩
/-- The address of WB_KEY_KCV. -/
def R.WB_KEY_KCV (i : Nat) : Nat := 0xC9000 + i * 0x4 + 0x40
def F.WB_KEY_KCV.KCV : Fld := ⟨0, 32⟩
/-- The address of WB_EXP_PORT. -/
def R.WB_EXP_PORT (i : Nat) : Nat := 0xC9000 + i * 0x10 + 0x80
def F.WB_EXP_PORT.EN : Fld := ⟨31, 1⟩
def F.WB_EXP_PORT.PITCH : Fld := ⟨24, 5⟩
def F.WB_EXP_PORT.CLASS : Fld := ⟨16, 4⟩
def F.WB_EXP_PORT.PORT : Fld := ⟨0, 10⟩
/-- The address of WB_EXP_DA_HI. -/
def R.WB_EXP_DA_HI (i : Nat) : Nat := 0xC9000 + i * 0x10 + 0x84
def F.WB_EXP_DA_HI.BYTE0 : Fld := ⟨8, 8⟩
def F.WB_EXP_DA_HI.BYTE1 : Fld := ⟨0, 8⟩
/-- The address of WB_EXP_DA_LO. -/
def R.WB_EXP_DA_LO (i : Nat) : Nat := 0xC9000 + i * 0x10 + 0x88
def F.WB_EXP_DA_LO.BYTES : Fld := ⟨0, 32⟩

/-! ### A Waybill stream page -/

/-- The address of WB_STRM_CTL. -/
def R.WB_STRM_CTL (n : Nat) : Nat := 0xCA000 + n * 0x400
def F.WB_STRM_CTL.DMA : Fld := ⟨31, 1⟩
def F.WB_STRM_CTL.KEY_IDX : Fld := ⟨24, 4⟩
def F.WB_STRM_CTL.BACKLOG : Fld := ⟨16, 6⟩
def F.WB_STRM_CTL.CLOSE_ROUNDS : Fld := ⟨8, 8⟩
def F.WB_STRM_CTL.FLUSH : Fld := ⟨0, 1⟩
/-- The address of WB_STRM_QUOTA. -/
def R.WB_STRM_QUOTA (n : Nat) : Nat := 0xCA000 + n * 0x400 + 0x4
def F.WB_STRM_QUOTA.RATE : Fld := ⟨0, 12⟩
/-- The address of WB_STRM_STATUS. -/
def R.WB_STRM_STATUS (n : Nat) : Nat := 0xCA000 + n * 0x400 + 0x8
def F.WB_STRM_STATUS.OPEN : Fld := ⟨31, 1⟩
def F.WB_STRM_STATUS.COUNT : Fld := ⟨16, 9⟩
def F.WB_STRM_STATUS.HELD : Fld := ⟨0, 6⟩
/-- The address of WB_STRM_CAUSE. -/
def R.WB_STRM_CAUSE (n : Nat) : Nat := 0xCA000 + n * 0x400 + 0xC
def F.WB_STRM_CAUSE.NOKEY : Fld := ⟨2, 1⟩
def F.WB_STRM_CAUSE.EXP_STALL : Fld := ⟨1, 1⟩
def F.WB_STRM_CAUSE.GAP : Fld := ⟨0, 1⟩
/-- The address of WB_STRM_SEQ_LO. -/
def R.WB_STRM_SEQ_LO (n : Nat) : Nat := 0xCA000 + n * 0x400 + 0x10
def F.WB_STRM_SEQ_LO.VALUE : Fld := ⟨0, 32⟩
/-- The address of WB_STRM_SEQ_HI. -/
def R.WB_STRM_SEQ_HI (n : Nat) : Nat := 0xCA000 + n * 0x400 + 0x14
def F.WB_STRM_SEQ_HI.VALUE : Fld := ⟨0, 16⟩
/-- The address of WB_STRM_SHEET_LO. -/
def R.WB_STRM_SHEET_LO (n : Nat) : Nat := 0xCA000 + n * 0x400 + 0x18
def F.WB_STRM_SHEET_LO.VALUE : Fld := ⟨0, 32⟩
/-- The address of WB_STRM_SHEET_HI. -/
def R.WB_STRM_SHEET_HI (n : Nat) : Nat := 0xCA000 + n * 0x400 + 0x1C
def F.WB_STRM_SHEET_HI.VALUE : Fld := ⟨0, 32⟩
/-- The address of COUNT_LO of WB_RECORDS. -/
def C.WB_RECORDS (n : Nat) : Nat := 0xCA000 + n * 0x400 + 0x100
/-- The address of COUNT_LO of WB_LOST. -/
def C.WB_LOST (n : Nat) : Nat := 0xCA000 + n * 0x400 + 0x108
/-- The address of COUNT_LO of WB_GAPS. -/
def C.WB_GAPS (n : Nat) : Nat := 0xCA000 + n * 0x400 + 0x110
/-- The address of COUNT_LO of WB_SHEETS. -/
def C.WB_SHEETS (n : Nat) : Nat := 0xCA000 + n * 0x400 + 0x118
/-- The address of COUNT_LO of WB_EXPORTED. -/
def C.WB_EXPORTED (n : Nat) : Nat := 0xCA000 + n * 0x400 + 0x120
/-- The address of COUNT_LO of WB_EXP_RETRY. -/
def C.WB_EXP_RETRY (n : Nat) : Nat := 0xCA000 + n * 0x400 + 0x128
/-- The address of COUNT_LO of WB_SHEETS_LOST. -/
def C.WB_SHEETS_LOST (n : Nat) : Nat := 0xCA000 + n * 0x400 + 0x130
/-- The address of COUNT_LO of WB_REQ_DROP. -/
def C.WB_REQ_DROP (n : Nat) : Nat := 0xCA000 + n * 0x400 + 0x138

/-! ### An Ostler cluster -/

/-- The address of OST_SLOT. -/
def R.OST_SLOT (c i j : Nat) : Nat := 0x800000 + c * 0x100000 + i * 0x40 + j * 0x4 + 0x1000
def F.OST_SLOT.SLOT0 : Fld := ⟨0, 4⟩
def F.OST_SLOT.EN0 : Fld := ⟨7, 1⟩
def F.OST_SLOT.SLOT1 : Fld := ⟨8, 4⟩
def F.OST_SLOT.EN1 : Fld := ⟨15, 1⟩
def F.OST_SLOT.SLOT2 : Fld := ⟨16, 4⟩
def F.OST_SLOT.EN2 : Fld := ⟨23, 1⟩
def F.OST_SLOT.SLOT3 : Fld := ⟨24, 4⟩
def F.OST_SLOT.EN3 : Fld := ⟨31, 1⟩

/-! ### An Ostler thread -/

/-- The address of OST_THR_STATE. -/
def R.OST_THR_STATE (c k t : Nat) : Nat := 0x810000 + c * 0x100000 + k * 0x1000 + t * 0x100
def F.OST_THR_STATE.STATE : Fld := ⟨29, 3⟩
def F.OST_THR_STATE.DETACH : Fld := ⟨28, 1⟩
def F.OST_THR_STATE.TRAP : Fld := ⟨27, 1⟩
def F.OST_THR_STATE.OWNER : Fld := ⟨16, 5⟩
def F.OST_THR_STATE.PC : Fld := ⟨0, 16⟩
/-- The address of OST_THR_FAULT. -/
def R.OST_THR_FAULT (c k t : Nat) : Nat := 0x810000 + c * 0x100000 + k * 0x1000 + t * 0x100 + 0x4
def F.OST_THR_FAULT.VALID : Fld := ⟨31, 1⟩
def F.OST_THR_FAULT.CODE : Fld := ⟨24, 5⟩
def F.OST_THR_FAULT.DETAIL : Fld := ⟨20, 2⟩
def F.OST_THR_FAULT.PC : Fld := ⟨0, 16⟩
/-- The address of OST_THR_FADDR. -/
def R.OST_THR_FADDR (c k t : Nat) : Nat := 0x810000 + c * 0x100000 + k * 0x1000 + t * 0x100 + 0x8
def F.OST_THR_FADDR.VALUE : Fld := ⟨0, 32⟩
/-- The address of OST_THR_WIN. -/
def R.OST_THR_WIN (c k t : Nat) : Nat := 0x810000 + c * 0x100000 + k * 0x1000 + t * 0x100 + 0xC
def F.OST_THR_WIN.SPILLED : Fld := ⟨8, 5⟩
def F.OST_THR_WIN.RESIDENT : Fld := ⟨4, 3⟩
def F.OST_THR_WIN.CWP : Fld := ⟨0, 3⟩
/-- The address of OST_THR_CTL. -/
def R.OST_THR_CTL (c k t : Nat) : Nat := 0x810000 + c * 0x100000 + k * 0x1000 + t * 0x100 + 0x10
def F.OST_THR_CTL.RESET : Fld := ⟨31, 1⟩
/-- The address of OST_THR_HSLOT. -/
def R.OST_THR_HSLOT (c k t i : Nat) : Nat := 0x810000 + c * 0x100000 + k * 0x1000 + t * 0x100 + i * 0x4 + 0x20
def F.OST_THR_HSLOT.VALID : Fld := ⟨31, 1⟩
def F.OST_THR_HSLOT.HANDLE : Fld := ⟨0, 24⟩

/-! ### An Ostler owner page -/

/-- The address of OST_OWN_STATUS. -/
def R.OST_OWN_STATUS (n : Nat) : Nat := 0x880000 + n * 0x1000
def F.OST_OWN_STATUS.SUP : Fld := ⟨23, 9⟩
def F.OST_OWN_STATUS.SUP_STATE : Fld := ⟨20, 3⟩
def F.OST_OWN_STATUS.FW : Fld := ⟨19, 1⟩
/-- The address of OST_OWN_CAUSE. -/
def R.OST_OWN_CAUSE (n : Nat) : Nat := 0x880000 + n * 0x1000 + 0x4
def F.OST_OWN_CAUSE.FW_IGNORED : Fld := ⟨7, 1⟩
def F.OST_OWN_CAUSE.CUST_NOSTART : Fld := ⟨6, 1⟩
def F.OST_OWN_CAUSE.CUST_BUSY : Fld := ⟨5, 1⟩
def F.OST_OWN_CAUSE.CUST_FAIL : Fld := ⟨4, 1⟩
def F.OST_OWN_CAUSE.EXC_DROP : Fld := ⟨3, 1⟩
def F.OST_OWN_CAUSE.FQ_LOST : Fld := ⟨2, 1⟩
def F.OST_OWN_CAUSE.SUP_FAULT : Fld := ⟨1, 1⟩
def F.OST_OWN_CAUSE.FAULT : Fld := ⟨0, 1⟩
/-- The address of OST_OWN_CTL. -/
def R.OST_OWN_CTL (n : Nat) : Nat := 0x880000 + n * 0x1000 + 0x8
def F.OST_OWN_CTL.SUP_START : Fld := ⟨31, 1⟩
def F.OST_OWN_CTL.KICK : Fld := ⟨30, 1⟩
/-- The address of OST_OWN_COUNT. -/
def R.OST_OWN_COUNT (n : Nat) : Nat := 0x880000 + n * 0x1000 + 0xC
def F.OST_OWN_COUNT.THREADS : Fld := ⟨16, 10⟩
def F.OST_OWN_COUNT.FREE : Fld := ⟨0, 10⟩
/-- The address of OST_CUST_CTL. -/
def R.OST_CUST_CTL (n : Nat) : Nat := 0x880000 + n * 0x1000 + 0x10
def F.OST_CUST_CTL.EN : Fld := ⟨31, 1⟩
def F.OST_CUST_CTL.STATE : Fld := ⟨8, 2⟩
def F.OST_CUST_CTL.RESULT : Fld := ⟨4, 4⟩
/-- The address of OST_CUST_ERR. -/
def R.OST_CUST_ERR (n : Nat) : Nat := 0x880000 + n * 0x1000 + 0x14
def F.OST_CUST_ERR.VALID : Fld := ⟨31, 1⟩
def F.OST_CUST_ERR.CHECK : Fld := ⟨16, 4⟩
def F.OST_CUST_ERR.WORD : Fld := ⟨0, 16⟩
/-- The address of OST_PS_ADDR. -/
def R.OST_PS_ADDR (n : Nat) : Nat := 0x880000 + n * 0x1000 + 0x18
def F.OST_PS_ADDR.ADDR : Fld := ⟨0, 16⟩
/-- The address of OST_PS_DATA. -/
def R.OST_PS_DATA (n : Nat) : Nat := 0x880000 + n * 0x1000 + 0x1C
def F.OST_PS_DATA.WORD : Fld := ⟨0, 32⟩
/-- The address of OST_FQ_HEAD. -/
def R.OST_FQ_HEAD (n : Nat) : Nat := 0x880000 + n * 0x1000 + 0x20
def F.OST_FQ_HEAD.VALID : Fld := ⟨31, 1⟩
def F.OST_FQ_HEAD.LEVEL : Fld := ⟨16, 5⟩
def F.OST_FQ_HEAD.THREAD : Fld := ⟨0, 9⟩
/-- The address of COUNT_LO of OST_FORKS. -/
def C.OST_FORKS (n : Nat) : Nat := 0x880000 + n * 0x1000 + 0x100
/-- The address of COUNT_LO of OST_FORK_FAIL. -/
def C.OST_FORK_FAIL (n : Nat) : Nat := 0x880000 + n * 0x1000 + 0x108
/-- The address of COUNT_LO of OST_FAULTS. -/
def C.OST_FAULTS (n : Nat) : Nat := 0x880000 + n * 0x1000 + 0x110
/-- The address of COUNT_LO of OST_FQ_LOST. -/
def C.OST_FQ_LOST (n : Nat) : Nat := 0x880000 + n * 0x1000 + 0x118
/-- The address of COUNT_LO of OST_SPILLS. -/
def C.OST_SPILLS (n : Nat) : Nat := 0x880000 + n * 0x1000 + 0x120
/-- The address of COUNT_LO of OST_FILLS. -/
def C.OST_FILLS (n : Nat) : Nat := 0x880000 + n * 0x1000 + 0x128
/-- The address of COUNT_LO of OST_EXC_TAKEN. -/
def C.OST_EXC_TAKEN (n : Nat) : Nat := 0x880000 + n * 0x1000 + 0x130
/-- The address of COUNT_LO of OST_EXC_DROP. -/
def C.OST_EXC_DROP (n : Nat) : Nat := 0x880000 + n * 0x1000 + 0x138
/-- The address of COUNT_LO of OST_FABRIC_AV. -/
def C.OST_FABRIC_AV (n : Nat) : Nat := 0x880000 + n * 0x1000 + 0x140

/-! ### A counter page -/

/-- The address of CNT_SNAP_CTL. -/
def R.CNT_SNAP_CTL (n : Nat) : Nat := 0xC00000 + n * 0x10000
def F.CNT_SNAP_CTL.GO : Fld := ⟨31, 1⟩
def F.CNT_SNAP_CTL.THAW : Fld := ⟨30, 1⟩
def F.CNT_SNAP_CTL.BUSY : Fld := ⟨1, 1⟩
def F.CNT_SNAP_CTL.FROZEN : Fld := ⟨0, 1⟩
/-- The address of CNT_SNAP_S. -/
def R.CNT_SNAP_S (n : Nat) : Nat := 0xC00000 + n * 0x10000 + 0x4
def F.CNT_SNAP_S.S_LO : Fld := ⟨0, 32⟩
/-- The address of CNT_SNAP_SF. -/
def R.CNT_SNAP_SF (n : Nat) : Nat := 0xC00000 + n * 0x10000 + 0x8
def F.CNT_SNAP_SF.S_HI : Fld := ⟨16, 16⟩
def F.CNT_SNAP_SF.FRAC : Fld := ⟨0, 16⟩
/-- The address of CNT_SNAP_NS. -/
def R.CNT_SNAP_NS (n : Nat) : Nat := 0xC00000 + n * 0x10000 + 0xC
def F.CNT_SNAP_NS.NS : Fld := ⟨0, 30⟩
/-- The address of CNT_SNAP_ROUND. -/
def R.CNT_SNAP_ROUND (n : Nat) : Nat := 0xC00000 + n * 0x10000 + 0x10
def F.CNT_SNAP_ROUND.ROUND : Fld := ⟨0, 32⟩
/-- The address of CNT_CAUSE. -/
def R.CNT_CAUSE (n : Nat) : Nat := 0xC00000 + n * 0x10000 + 0x20
def F.CNT_CAUSE.SMP_CFG : Fld := ⟨3, 1⟩
def F.CNT_CAUSE.SMP_FULL : Fld := ⟨2, 1⟩
def F.CNT_CAUSE.MON_CFG : Fld := ⟨1, 1⟩
def F.CNT_CAUSE.MON : Fld := ⟨0, 1⟩
/-- The address of CNT_MON_CTL. -/
def R.CNT_MON_CTL (n i : Nat) : Nat := 0xC00000 + n * 0x10000 + i * 0x40 + 0x100
def F.CNT_MON_CTL.EN : Fld := ⟨31, 1⟩
def F.CNT_MON_CTL.ABOVE : Fld := ⟨30, 1⟩
def F.CNT_MON_CTL.SRC : Fld := ⟨27, 3⟩
def F.CNT_MON_CTL.SUB : Fld := ⟨19, 5⟩
def F.CNT_MON_CTL.INDEX : Fld := ⟨0, 10⟩
/-- The address of CNT_MON_N. -/
def R.CNT_MON_N (n i : Nat) : Nat := 0xC00000 + n * 0x10000 + i * 0x40 + 0x104
def F.CNT_MON_N.VALUE : Fld := ⟨0, 28⟩
/-- The address of CNT_MON_MAX. -/
def R.CNT_MON_MAX (n i : Nat) : Nat := 0xC00000 + n * 0x10000 + i * 0x40 + 0x108
def F.CNT_MON_MAX.VALUE : Fld := ⟨0, 28⟩
/-- The address of CNT_SMP_CTL. -/
def R.CNT_SMP_CTL (n : Nat) : Nat := 0xC00000 + n * 0x10000 + 0x1000
def F.CNT_SMP_CTL.EN : Fld := ⟨31, 1⟩
def F.CNT_SMP_CTL.RESTART : Fld := ⟨30, 1⟩
def F.CNT_SMP_CTL.MODE : Fld := ⟨29, 1⟩
def F.CNT_SMP_CTL.JITTER : Fld := ⟨28, 1⟩
def F.CNT_SMP_CTL.PERIOD : Fld := ⟨0, 16⟩
/-- The address of CNT_SMP_FILT. -/
def R.CNT_SMP_FILT (n : Nat) : Nat := 0xC00000 + n * 0x10000 + 0x1004
def F.CNT_SMP_FILT.THREAD_EN : Fld := ⟨31, 1⟩
def F.CNT_SMP_FILT.THREAD : Fld := ⟨16, 9⟩
def F.CNT_SMP_FILT.REGION : Fld := ⟨12, 2⟩
def F.CNT_SMP_FILT.CLASSES : Fld := ⟨0, 7⟩
/-- The address of CNT_SMP_PTR. -/
def R.CNT_SMP_PTR (n : Nat) : Nat := 0xC00000 + n * 0x10000 + 0x1008
def F.CNT_SMP_PTR.FULL : Fld := ⟨31, 1⟩
def F.CNT_SMP_PTR.WRAPPED : Fld := ⟨30, 1⟩
def F.CNT_SMP_PTR.NEXT : Fld := ⟨16, 12⟩
def F.CNT_SMP_PTR.COUNT : Fld := ⟨0, 13⟩
/-- The address of CNT_SMP_ENTRY_LO. -/
def R.CNT_SMP_ENTRY_LO (n i : Nat) : Nat := 0xC00000 + n * 0x10000 + i * 0x8 + 0x8000
def F.CNT_SMP_ENTRY_LO.VALUE : Fld := ⟨0, 32⟩
/-- The address of CNT_SMP_ENTRY_HI. -/
def R.CNT_SMP_ENTRY_HI (n i : Nat) : Nat := 0xC00000 + n * 0x10000 + i * 0x8 + 0x8004
def F.CNT_SMP_ENTRY_HI.VALUE : Fld := ⟨0, 32⟩
/-- The address of COUNT_LO of CNT_TICKS_ABOVE. -/
def C.CNT_TICKS_ABOVE (n i : Nat) : Nat := 0xC00000 + n * 0x10000 + i * 0x40 + 0x110
/-- The address of COUNT_LO of CNT_EPISODES. -/
def C.CNT_EPISODES (n i : Nat) : Nat := 0xC00000 + n * 0x10000 + i * 0x40 + 0x118
/-- The address of COUNT_LO of SMP_TAKEN. -/
def C.SMP_TAKEN (n : Nat) : Nat := 0xC00000 + n * 0x10000 + 0x1010
/-- The address of COUNT_LO of SMP_LOST. -/
def C.SMP_LOST (n : Nat) : Nat := 0xC00000 + n * 0x10000 + 0x1018
/-- The address of COUNT_LO of SMP_OVERWRITE. -/
def C.SMP_OVERWRITE (n : Nat) : Nat := 0xC00000 + n * 0x10000 + 0x1020

/-! ### A host DMA ring -/

/-- The address of DMA_RING_CTL. -/
def R.DMA_RING_CTL (f r : Nat) : Nat := 0xD10000 + f * 0x1000 + r * 0x40
def F.DMA_RING_CTL.EN : Fld := ⟨31, 1⟩
def F.DMA_RING_CTL.STOPPED : Fld := ⟨30, 1⟩
def F.DMA_RING_CTL.SIZE_LOG2 : Fld := ⟨0, 4⟩
/-- The address of DMA_RING_BASE_LO. -/
def R.DMA_RING_BASE_LO (f r : Nat) : Nat := 0xD10000 + f * 0x1000 + r * 0x40 + 0x4
def F.DMA_RING_BASE_LO.ADDR_LO : Fld := ⟨6, 26⟩
/-- The address of DMA_RING_BASE_HI. -/
def R.DMA_RING_BASE_HI (f r : Nat) : Nat := 0xD10000 + f * 0x1000 + r * 0x40 + 0x8
def F.DMA_RING_BASE_HI.ADDR_HI : Fld := ⟨0, 32⟩
/-- The address of DMA_RING_TAIL. -/
def R.DMA_RING_TAIL (f r : Nat) : Nat := 0xD10000 + f * 0x1000 + r * 0x40 + 0xC
def F.DMA_RING_TAIL.INDEX : Fld := ⟨0, 16⟩
/-- The address of DMA_RING_HEAD. -/
def R.DMA_RING_HEAD (f r : Nat) : Nat := 0xD10000 + f * 0x1000 + r * 0x40 + 0x10
def F.DMA_RING_HEAD.INDEX : Fld := ⟨0, 16⟩
/-- The address of DMA_RING_ERR. -/
def R.DMA_RING_ERR (f r : Nat) : Nat := 0xD10000 + f * 0x1000 + r * 0x40 + 0x14
def F.DMA_RING_ERR.VALID : Fld := ⟨31, 1⟩
def F.DMA_RING_ERR.CODE : Fld := ⟨24, 4⟩
def F.DMA_RING_ERR.INDEX : Fld := ⟨0, 16⟩

/-! ### A host DMA page -/

/-- The address of DMA_CAUSE. -/
def R.DMA_CAUSE (f : Nat) : Nat := 0xD10000 + f * 0x1000 + 0x100
def F.DMA_CAUSE.IDLE_VIOL : Fld := ⟨12, 1⟩
def F.DMA_CAUSE.DONE : Fld := ⟨8, 4⟩
def F.DMA_CAUSE.RING_ERR : Fld := ⟨4, 4⟩
def F.DMA_CAUSE.DESC_ERR : Fld := ⟨3, 1⟩
def F.DMA_CAUSE.EXC_DROP : Fld := ⟨2, 1⟩
def F.DMA_CAUSE.BAD_FREE : Fld := ⟨1, 1⟩
def F.DMA_CAUSE.TX_REFUSED : Fld := ⟨0, 1⟩
/-- The address of DMA_FREE. -/
def R.DMA_FREE (f : Nat) : Nat := 0xD10000 + f * 0x1000 + 0x104
def F.DMA_FREE.HANDLE : Fld := ⟨0, 24⟩
/-- The address of DMA_EXC_STEER. -/
def R.DMA_EXC_STEER (f i : Nat) : Nat := 0xD10000 + f * 0x1000 + i * 0x4 + 0x800
def F.DMA_EXC_STEER.ENTRY : Fld := ⟨0, 32⟩
/-- The address of COUNT_LO of DMA_TX_FRAMES. -/
def C.DMA_TX_FRAMES (f : Nat) : Nat := 0xD10000 + f * 0x1000 + 0x200
/-- The address of COUNT_LO of DMA_TX_REFUSED. -/
def C.DMA_TX_REFUSED (f : Nat) : Nat := 0xD10000 + f * 0x1000 + 0x208
/-- The address of COUNT_LO of DMA_EXC_WRITTEN. -/
def C.DMA_EXC_WRITTEN (f : Nat) : Nat := 0xD10000 + f * 0x1000 + 0x210
/-- The address of COUNT_LO of DMA_EXC_DROP. -/
def C.DMA_EXC_DROP (f : Nat) : Nat := 0xD10000 + f * 0x1000 + 0x218
/-- The address of COUNT_LO of DMA_WB_SHEETS. -/
def C.DMA_WB_SHEETS (f : Nat) : Nat := 0xD10000 + f * 0x1000 + 0x220

/-! ### The sideband block -/

/-- The address of SB_I2C_CTL. -/
def R.SB_I2C_CTL (i : Nat) : Nat := 0xE00000 + i * 0x100 + 0x1000
def F.SB_I2C_CTL.SPEED : Fld := ⟨24, 2⟩
def F.SB_I2C_CTL.RETRIES : Fld := ⟨16, 4⟩
def F.SB_I2C_CTL.GAP_US : Fld := ⟨0, 16⟩
/-- The address of SB_I2C_CMD. -/
def R.SB_I2C_CMD (i : Nat) : Nat := 0xE00000 + i * 0x100 + 0x1004
def F.SB_I2C_CMD.GO : Fld := ⟨31, 1⟩
def F.SB_I2C_CMD.KIND : Fld := ⟨29, 2⟩
def F.SB_I2C_CMD.WLEN : Fld := ⟨16, 8⟩
def F.SB_I2C_CMD.RLEN : Fld := ⟨8, 8⟩
def F.SB_I2C_CMD.ADDR : Fld := ⟨0, 7⟩
/-- The address of SB_I2C_STATUS. -/
def R.SB_I2C_STATUS (i : Nat) : Nat := 0xE00000 + i * 0x100 + 0x1008
def F.SB_I2C_STATUS.RESULT : Fld := ⟨28, 4⟩
def F.SB_I2C_STATUS.RECOVERED : Fld := ⟨27, 1⟩
def F.SB_I2C_STATUS.TRIES : Fld := ⟨16, 4⟩
def F.SB_I2C_STATUS.BYTES : Fld := ⟨0, 8⟩
/-- The address of SB_I2C_DATA. -/
def R.SB_I2C_DATA (i j : Nat) : Nat := 0xE00000 + i * 0x100 + j * 0x4 + 0x1040
def F.SB_I2C_DATA.BYTES : Fld := ⟨0, 32⟩
/-- The address of SB_GPIO_OUT. -/
def R.SB_GPIO_OUT : Nat := 0xE00000 + 0x3000
def F.SB_GPIO_OUT.PINS : Fld := ⟨0, 16⟩
/-- The address of SB_GPIO_OE. -/
def R.SB_GPIO_OE : Nat := 0xE00000 + 0x3004
def F.SB_GPIO_OE.PINS : Fld := ⟨0, 16⟩
/-- The address of SB_GPIO_IN. -/
def R.SB_GPIO_IN : Nat := 0xE00000 + 0x3008
def F.SB_GPIO_IN.PINS : Fld := ⟨0, 16⟩
/-- The address of SB_CAUSE. -/
def R.SB_CAUSE : Nat := 0xE00000 + 0x4000
def F.SB_CAUSE.I2C_STUCK : Fld := ⟨8, 8⟩
def F.SB_CAUSE.I2C_NACK : Fld := ⟨0, 8⟩
/-- The address of SB_CMIS_WR. -/
def R.SB_CMIS_WR : Nat := 0xE00000 + 0x4004
def F.SB_CMIS_WR.PITCH : Fld := ⟨1, 16⟩
/-- The address of SB_CAGE_MAP. -/
def R.SB_CAGE_MAP (i : Nat) : Nat := 0xE00000 + i * 0x4 + 0x8000
def F.SB_CAGE_MAP.VALID : Fld := ⟨31, 1⟩
def F.SB_CAGE_MAP.MASTER : Fld := ⟨28, 3⟩
def F.SB_CAGE_MAP.MUX_ADDR : Fld := ⟨19, 7⟩
def F.SB_CAGE_MAP.MUX_CHAN : Fld := ⟨16, 3⟩
def F.SB_CAGE_MAP.MOD_ADDR : Fld := ⟨0, 7⟩

/-! ### A berth block window -/

/-- The address of COUNT_LO of IG_TICKS. -/
def C.IG_TICKS (p : Nat) : Nat := 0x10F00000 + p * 0x1000000
/-- The address of COUNT_LO of EG_TICKS. -/
def C.EG_TICKS (p : Nat) : Nat := 0x10F00000 + p * 0x1000000 + 0x40
/-- The address of COUNT_LO of IG_CARRIED. -/
def C.IG_CARRIED (p : Nat) : Nat := 0x10F00000 + p * 0x1000000 + 0x8
/-- The address of COUNT_LO of EG_CARRIED. -/
def C.EG_CARRIED (p : Nat) : Nat := 0x10F00000 + p * 0x1000000 + 0x48
/-- The address of COUNT_LO of IG_WASTED. -/
def C.IG_WASTED (p : Nat) : Nat := 0x10F00000 + p * 0x1000000 + 0x10
/-- The address of COUNT_LO of EG_WASTED. -/
def C.EG_WASTED (p : Nat) : Nat := 0x10F00000 + p * 0x1000000 + 0x50
/-- The address of COUNT_LO of IG_STARVED_FRONT. -/
def C.IG_STARVED_FRONT (p : Nat) : Nat := 0x10F00000 + p * 0x1000000 + 0x18
/-- The address of COUNT_LO of EG_STARVED_FRONT. -/
def C.EG_STARVED_FRONT (p : Nat) : Nat := 0x10F00000 + p * 0x1000000 + 0x58
/-- The address of COUNT_LO of IG_STARVED_BACK. -/
def C.IG_STARVED_BACK (p : Nat) : Nat := 0x10F00000 + p * 0x1000000 + 0x20
/-- The address of COUNT_LO of EG_STARVED_BACK. -/
def C.EG_STARVED_BACK (p : Nat) : Nat := 0x10F00000 + p * 0x1000000 + 0x60
/-- The address of COUNT_LO of EG_DROP. -/
def C.EG_DROP (p i : Nat) : Nat := 0x10F00000 + p * 0x1000000 + i * 0x8 + 0x1000

/-! ### The register maps, one list for each kind of region -/

def rows_dev_0 : List Row :=
  [⟨.DEV_ID_PART, 0x0, [], 0xA109, [(F.DEV_ID_PART.PART, .ro)], false⟩,
   ⟨.DEV_ID_VER, 0x4, [], 0x200, [(F.DEV_ID_VER.MAJOR, .ro), (F.DEV_ID_VER.MINOR, .ro)], false⟩,
   ⟨.DEV_ID_FUSED_PIPES, 0x8, [], 0x0, [(F.DEV_ID_FUSED_PIPES.PIPES, .ro)], false⟩,
   ⟨.DEV_ID_KEYHASH, 0x10, [(4, 0x4)], 0x0, [(F.DEV_ID_KEYHASH.HASH, .ro)], false⟩,
   ⟨.DEV_ROUND_NUM, 0x80, [], 0x0, [(F.DEV_ROUND_NUM.ROUND, .ro)], false⟩,
   ⟨.DEV_ROUND_PHASE, 0x84, [], 0x0, [(F.DEV_ROUND_PHASE.ROUND_LO, .ro), (F.DEV_ROUND_PHASE.PHASE, .ro)], false⟩,
   ⟨.DEV_BOOT_STATUS, 0x100, [], 0x0, [(F.DEV_BOOT_STATUS.STOPPED, .ro), (F.DEV_BOOT_STATUS.SOURCE, .ro), (F.DEV_BOOT_STATUS.SPI_MODE, .ro), (F.DEV_BOOT_STATUS.STAGE, .ro)], false⟩,
   ⟨.DEV_BOOT_CAUSE, 0x104, [], 0x0, [(F.DEV_BOOT_CAUSE.DOM_FAIL, .w1c), (F.DEV_BOOT_CAUSE.LOADER, .w1c), (F.DEV_BOOT_CAUSE.HOST_SIG, .w1c), (F.DEV_BOOT_CAUSE.SPI_SIG, .w1c), (F.DEV_BOOT_CAUSE.SPI_FORMAT, .w1c), (F.DEV_BOOT_CAUSE.SPI_NONE, .w1c)], false⟩,
   ⟨.DEV_BOOT_STAMP, 0x140, [(10, 0x4)], 0x0, [(F.DEV_BOOT_STAMP.DONE, .ro), (F.DEV_BOOT_STAMP.MS, .ro)], false⟩,
   ⟨.DEV_BOOT_HASH, 0x180, [(8, 0x4)], 0x0, [(F.DEV_BOOT_HASH.HASH, .ro)], false⟩,
   ⟨.DEV_PRES_STATUS, 0x200, [], 0x0, [(F.DEV_PRES_STATUS.OPEN, .ro), (F.DEV_PRES_STATUS.HELD, .ro), (F.DEV_PRES_STATUS.SEAL_OK, .ro), (F.DEV_PRES_STATUS.REMAIN, .ro)], false⟩,
   ⟨.DEV_PRES_CTL, 0x204, [], 0x3C, [(F.DEV_PRES_CTL.CLOSE, .sc), (F.DEV_PRES_CTL.WINDOW, .rwp)], false⟩]

def rows_dev_1 : List Row :=
  [⟨.DEV_PRES_CAUSE, 0x208, [], 0x0, [(F.DEV_PRES_CAUSE.SEAL_CLOSE, .w1c), (F.DEV_PRES_CAUSE.SEAL_OPEN, .w1c), (F.DEV_PRES_CAUSE.REFUSED, .w1c), (F.DEV_PRES_CAUSE.WIN_CLOSE, .w1c), (F.DEV_PRES_CAUSE.WIN_OPEN, .w1c)], false⟩,
   ⟨.DEV_PRES_REFUSED, 0x20C, [], 0x0, [(F.DEV_PRES_REFUSED.COUNT, .ro)], false⟩,
   ⟨.DEV_PRES_LAST, 0x210, [], 0x0, [(F.DEV_PRES_LAST.FN, .ro), (F.DEV_PRES_LAST.OFFSET, .ro)], false⟩,
   ⟨.DEV_JTAG_CTL, 0x300, [], 0x0, [(F.DEV_JTAG_CTL.EXTEST_EN, .rwp), (F.DEV_JTAG_CTL.USED, .ro), (F.DEV_JTAG_CTL.REFUSED, .ro)], false⟩,
   ⟨.DEV_PUSH_ADDR_LO, 0x400, [], 0x0, [(F.DEV_PUSH_ADDR_LO.VALUE, .rw)], false⟩,
   ⟨.DEV_PUSH_ADDR_HI, 0x404, [], 0x0, [(F.DEV_PUSH_ADDR_HI.VALUE, .rw)], false⟩,
   ⟨.DEV_PUSH_LEN, 0x408, [], 0x0, [(F.DEV_PUSH_LEN.VALUE, .rw)], false⟩,
   ⟨.DEV_PUSH_CTL, 0x40C, [], 0x0, [(F.DEV_PUSH_CTL.GO, .sc)], false⟩,
   ⟨.DEV_LOAD_CTL, 0x800, [(17, 0x20)], 0x0, [(F.DEV_LOAD_CTL.GO, .sc), (F.DEV_LOAD_CTL.SRC, .rw), (F.DEV_LOAD_CTL.RESULT, .ro), (F.DEV_LOAD_CTL.INDEX, .rw), (F.DEV_LOAD_CTL.PIPES, .rw)], false⟩,
   ⟨.DEV_LOAD_ADDR_LO, 0x804, [(17, 0x20)], 0x0, [(F.DEV_LOAD_ADDR_LO.VALUE, .rw)], false⟩,
   ⟨.DEV_LOAD_ADDR_HI, 0x808, [(17, 0x20)], 0x0, [(F.DEV_LOAD_ADDR_HI.VALUE, .rw)], false⟩,
   ⟨.DEV_LOAD_LEN, 0x80C, [(17, 0x20)], 0x0, [(F.DEV_LOAD_LEN.VALUE, .rw)], false⟩]

def rows_dev_2 : List Row :=
  [⟨.DEV_IMG_STATUS, 0x1000, [(16, 0x40)], 0x0, [(F.DEV_IMG_STATUS.LOADED, .ro), (F.DEV_IMG_STATUS.HOOKS, .ro), (F.DEV_IMG_STATUS.LOADS, .ro)], false⟩,
   ⟨.DEV_IMG_HASH, 0x1020, [(16, 0x40), (8, 0x4)], 0x0, [(F.DEV_IMG_HASH.HASH, .ro)], false⟩]

/-- The registers of a region of kind `dev`. -/
def rows_dev : List Row := rows_dev_0 ++ rows_dev_1 ++ rows_dev_2

def rows_irqPage_0 : List Row :=
  [⟨.IRQ_SUM, 0x0, [], 0x0, [(F.IRQ_SUM.SRC, .ro)], false⟩,
   ⟨.IRQ_PEND, 0x4, [], 0x0, [(F.IRQ_PEND.SRC, .w1c)], false⟩,
   ⟨.IRQ_EN, 0x8, [], 0x0, [(F.IRQ_EN.SRC, .rw)], false⟩,
   ⟨.IRQ_CTL, 0xC, [], 0x11, [(F.IRQ_CTL.C, .ro), (F.IRQ_CTL.PIN_EN, .rw), (F.IRQ_CTL.MAX_SEV, .ro), (F.IRQ_CTL.HIST_MIN, .rw), (F.IRQ_CTL.SUM_MIN, .rw)], false⟩,
   ⟨.IRQ_OWN_CAUSE, 0x10, [], 0x0, [(F.IRQ_OWN_CAUSE.DOM_FAULT, .w1c), (F.IRQ_OWN_CAUSE.PIPE_FAULT, .w1c), (F.IRQ_OWN_CAUSE.XDROP, .w1c), (F.IRQ_OWN_CAUSE.HIST_LOST, .w1c), (F.IRQ_OWN_CAUSE.BUSY, .w1c), (F.IRQ_OWN_CAUSE.CFG, .w1c), (F.IRQ_OWN_CAUSE.IDLE_VIOL, .w1c), (F.IRQ_OWN_CAUSE.AV, .w1c)], false⟩,
   ⟨.IRQ_HIST_CTL, 0x20, [], 0x0, [(F.IRQ_HIST_CTL.POP, .sc), (F.IRQ_HIST_CTL.LEVEL, .ro)], false⟩,
   ⟨.IRQ_HIST_ID, 0x24, [], 0x0, [(F.IRQ_HIST_ID.VALID, .ro), (F.IRQ_HIST_ID.SEV, .ro), (F.IRQ_HIST_ID.SRC, .ro), (F.IRQ_HIST_ID.BIT, .ro), (F.IRQ_HIST_ID.INST, .ro)], false⟩,
   ⟨.IRQ_HIST_S, 0x28, [], 0x0, [(F.IRQ_HIST_S.S_LO, .ro)], false⟩,
   ⟨.IRQ_HIST_SF, 0x2C, [], 0x0, [(F.IRQ_HIST_SF.S_HI, .ro), (F.IRQ_HIST_SF.FRAC, .ro)], false⟩,
   ⟨.IRQ_HIST_NS, 0x30, [], 0x0, [(F.IRQ_HIST_NS.NS, .ro)], false⟩,
   ⟨.IRQ_LAST_ID, 0x40, [], 0x0, [(F.IRQ_LAST_ID.VALID, .ro), (F.IRQ_LAST_ID.SEV, .ro), (F.IRQ_LAST_ID.SRC, .ro), (F.IRQ_LAST_ID.BIT, .ro), (F.IRQ_LAST_ID.INST, .ro)], false⟩,
   ⟨.IRQ_LAST_S, 0x44, [], 0x0, [(F.IRQ_LAST_S.S_LO, .ro)], false⟩]

def rows_irqPage_1 : List Row :=
  [⟨.IRQ_LAST_SF, 0x48, [], 0x0, [(F.IRQ_LAST_SF.S_HI, .ro), (F.IRQ_LAST_SF.FRAC, .ro)], false⟩,
   ⟨.IRQ_LAST_NS, 0x4C, [], 0x0, [(F.IRQ_LAST_NS.NS, .ro)], false⟩,
   ⟨.IRQ_HIST_LOST, 0x50, [], 0x0, [(F.IRQ_HIST_LOST.COUNT, .ro)], false⟩]

/-- The registers of a region of kind `irqPage`. -/
def rows_irqPage : List Row := rows_irqPage_0 ++ rows_irqPage_1

def rows_irqG_0 : List Row :=
  [⟨.IRQ_FAULTN, 0x3000, [], 0x0, [(F.IRQ_FAULTN.STATE, .ro), (F.IRQ_FAULTN.FORCE, .rw), (F.IRQ_FAULTN.PITCH, .rw)], false⟩,
   ⟨.IRQ_WMASK, 0x3044, [(16, 0x4)], 0x0, [(F.IRQ_WMASK.SRC, .rw)], false⟩,
   ⟨.IRQ_BLK, 0x4000, [(32, 0x100), (64, 0x4)], 0x0, [(F.IRQ_BLK.REGS, .ro)], false⟩]

/-- The registers of a region of kind `irqG`. -/
def rows_irqG : List Row := rows_irqG_0

def rows_pst_0 : List Row :=
  [⟨.PST_STATUS, 0x0, [], 0x0, [(F.PST_STATUS.REF_LOCK, .ro), (F.PST_STATUS.EXEMPT_ANY, .ro)], false⟩,
   ⟨.PST_VIN, 0x4, [], 0x0, [(F.PST_VIN.MV, .ro)], false⟩,
   ⟨.PST_PIN, 0x8, [], 0x0, [(F.PST_PIN.PEAK, .ro), (F.PST_PIN.AVG, .ro)], false⟩,
   ⟨.PST_BUDGET, 0xC, [], 0x0, [(F.PST_BUDGET.INPUT, .ro), (F.PST_BUDGET.DIE, .ro)], false⟩,
   ⟨.PST_CAP, 0x10, [], 0x19C8, [(F.PST_CAP.PENDING, .ro), (F.PST_CAP.W4, .rw)], true⟩,
   ⟨.PST_SHARED, 0x14, [], 0xA0, [(F.PST_SHARED.PENDING, .ro), (F.PST_SHARED.W4, .rw)], true⟩,
   ⟨.PST_CAUSE, 0x18, [], 0x0, [(F.PST_CAUSE.LG_DEFER, .w1c), (F.PST_CAUSE.POSTILION, .w1c), (F.PST_CAUSE.MARGIN, .w1c), (F.PST_CAUSE.FORCE_CLIP, .w1c), (F.PST_CAUSE.SHARE_SCALED, .w1c), (F.PST_CAUSE.THERM_LIMIT, .w1c), (F.PST_CAUSE.THERM_WARN, .w1c), (F.PST_CAUSE.NEIGHBOUR, .w1c), (F.PST_CAUSE.DROOP, .w1c), (F.PST_CAUSE.INPUT_DROP, .w1c), (F.PST_CAUSE.EXEMPT_SKIP, .w1c), (F.PST_CAUSE.EXEMPT_UNMET, .w1c)], false⟩,
   ⟨.PST_THERM_THR, 0x1C, [], 0x70675F, [(F.PST_THERM_THR.TRIP, .ro), (F.PST_THERM_THR.LIMIT, .rw), (F.PST_THERM_THR.WARN, .rw)], false⟩,
   ⟨.PST_DROOP_CTL, 0x20, [], 0x2010, [(F.PST_DROOP_CTL.K, .rw), (F.PST_DROOP_CTL.THR, .rw)], false⟩,
   ⟨.PST_PIT_CTL, 0x50, [(16, 0x10)], 0x0, [(F.PST_PIT_CTL.PENDING, .ro), (F.PST_PIT_CTL.EXEMPT, .rwp)], true⟩,
   ⟨.PST_PIT_SHARE, 0x54, [(16, 0x10)], 0x0, [(F.PST_PIT_SHARE.PENDING, .ro), (F.PST_PIT_SHARE.W4, .rw)], true⟩,
   ⟨.PST_PIT_GRANT, 0x58, [(16, 0x10)], 0x0, [(F.PST_PIT_GRANT.KMAX, .ro), (F.PST_PIT_GRANT.W4, .ro)], false⟩]

def rows_pst_1 : List Row :=
  [⟨.PST_PIT_USE, 0x5C, [(16, 0x10)], 0x0, [(F.PST_PIT_USE.W4, .ro)], false⟩,
   ⟨.PST_REG_STATUS, 0x200, [(37, 0x10)], 0x0, [(F.PST_REG_STATUS.FORCED, .ro), (F.PST_REG_STATUS.DROOP, .ro), (F.PST_REG_STATUS.K_EFF, .ro), (F.PST_REG_STATUS.K_GRANT, .ro), (F.PST_REG_STATUS.VSET, .ro)], false⟩,
   ⟨.PST_REG_CTL, 0x204, [(37, 0x10)], 0x0, [(F.PST_REG_CTL.FORCE_EN, .rw), (F.PST_REG_CTL.FORCE_K, .rw)], false⟩,
   ⟨.PST_REG_VTABLE, 0x208, [(37, 0x10)], 0x0, [(F.PST_REG_VTABLE.VALUE, .ro)], false⟩,
   ⟨.PST_REG_GRANT, 0x20C, [(37, 0x10)], 0x0, [(F.PST_REG_GRANT.VALUE, .ro)], false⟩,
   ⟨.PST_DOM_STATUS, 0x600, [(144, 0x4)], 0x0, [(F.PST_DOM_STATUS.ON, .ro), (F.PST_DOM_STATUS.USE, .ro)], false⟩,
   ⟨.PST_SENSOR, 0x900, [(64, 0x4)], 0x0, [(F.PST_SENSOR.VALID, .ro), (F.PST_SENSOR.TEMP, .ro)], false⟩,
   ⟨.PST_DOM_READY, 0xC00, [(5, 0x4)], 0x0, [(F.PST_DOM_READY.DOMS, .ro)], false⟩,
   ⟨.PST_DOM_FAIL, 0xC20, [(5, 0x4)], 0x0, [(F.PST_DOM_FAIL.DOMS, .ro)], false⟩]

/-- The registers of a region of kind `pst`. -/
def rows_pst : List Row := rows_pst_0 ++ rows_pst_1

def rows_clk_0 : List Row :=
  [⟨.CLK_STATUS, 0x0, [], 0x0, [(F.CLK_STATUS.REF_OK, .ro), (F.CLK_STATUS.PLL_LOCK, .ro)], false⟩,
   ⟨.CLK_CAUSE, 0x4, [], 0x0, [(F.CLK_CAUSE.PLL_LOL, .w1c), (F.CLK_CAUSE.REF_LOSS, .w1c)], false⟩,
   ⟨.CLK_RST_DEV, 0x10, [], 0x0, [(F.CLK_RST_DEV.GO, .sc), (F.CLK_RST_DEV.BUSY, .ro)], false⟩,
   ⟨.CLK_RST_STATUS, 0x14, [], 0x0, [(F.CLK_RST_STATUS.LAST, .ro), (F.CLK_RST_STATUS.DEV_RESETS, .ro)], false⟩]

/-- The registers of a region of kind `clk`. -/
def rows_clk : List Row := rows_clk_0

def rows_pitG_0 : List Row :=
  [⟨.PIT_MAP_STAGE, 0x0, [(16, 0x4)], 0x0, [(F.PIT_MAP_STAGE.OWNER, .rwp)], false⟩,
   ⟨.PIT_MAP, 0x40, [(16, 0x4)], 0x0, [(F.PIT_MAP.OWNER, .ro)], false⟩,
   ⟨.PIT_COMMIT, 0x80, [], 0x0, [(F.PIT_COMMIT.RESULT, .ro), (F.PIT_COMMIT.GO, .sc)], false⟩,
   ⟨.PIT_MIR_CTL, 0x100, [], 0x0, [(F.PIT_MIR_CTL.EN, .rwp), (F.PIT_MIR_CTL.DIR, .rwp), (F.PIT_MIR_CTL.CLASS, .rwp), (F.PIT_MIR_CTL.DEST_PORT, .rwp)], false⟩,
   ⟨.PIT_MIR_TRUNC, 0x104, [], 0x0, [(F.PIT_MIR_TRUNC.LEN, .rwp)], false⟩,
   ⟨.PIT_MIR_RATE, 0x108, [], 0x0, [(F.PIT_MIR_RATE.CIR, .rwp)], false⟩,
   ⟨.PIT_MIR_BURST, 0x10C, [], 0x0, [(F.PIT_MIR_BURST.BYTES, .rwp)], false⟩,
   ⟨.PIT_MIR_SRC, 0x180, [(32, 0x4)], 0x0, [(F.PIT_MIR_SRC.PORTS, .rwp)], false⟩,
   ⟨.PIT_MIR_DROP, 0x200, [], 0x0, [(F.PIT_MIR_DROP.COUNT, .rc)], false⟩,
   ⟨.PIT_AV_CNT, 0x300, [(17, 0x10)], 0x0, [(F.PIT_AV_CNT.COUNT, .rc)], false⟩,
   ⟨.PIT_AV_ADDR, 0x304, [(17, 0x10)], 0x0, [(F.PIT_AV_ADDR.WRITE, .ro), (F.PIT_AV_ADDR.SIZE, .ro), (F.PIT_AV_ADDR.ADDR, .ro)], false⟩,
   ⟨.PIT_OST_OWNER, 0x800, [(128, 0x4)], 0x0, [(F.PIT_OST_OWNER.OWNER, .rwi)], false⟩]

/-- The registers of a region of kind `pitG`. -/
def rows_pitG : List Row := rows_pitG_0

def rows_pitPage_0 : List Row :=
  [⟨.PIT_CTL, 0x0, [], 0x0, [(F.PIT_CTL.WARDEN_HOLD, .rw), (F.PIT_CTL.SELF_RESET, .rw)], false⟩,
   ⟨.PIT_STATUS, 0x4, [], 0x0, [(F.PIT_STATUS.PIPES, .ro), (F.PIT_STATUS.DEV_FAULT, .ro), (F.PIT_STATUS.IN_RESET, .ro)], false⟩,
   ⟨.PIT_XDROP, 0x8, [], 0x0, [(F.PIT_XDROP.COUNT, .rc)], false⟩,
   ⟨.PIT_MC_RANGE, 0xC, [], 0x0, [(F.PIT_MC_RANGE.COUNT, .rwi), (F.PIT_MC_RANGE.BASE, .rwi)], false⟩,
   ⟨.PIT_BUF_RSV, 0x100, [(8, 0x4)], 0x0, [(F.PIT_BUF_RSV.RSV, .rwi)], false⟩]

/-- The registers of a region of kind `pitPage`. -/
def rows_pitPage : List Row := rows_pitPage_0

def rows_lg_0 : List Row :=
  [⟨.LG_CTL, 0x0, [], 0x1, [(F.LG_CTL.FIR_LOAD, .sc), (F.LG_CTL.FWD_RATE, .rwi), (F.LG_CTL.FWD_EN, .rwi), (F.LG_CTL.ADAPT_CONT, .rw)], false⟩,
   ⟨.LG_STATUS, 0x4, [], 0x0, [(F.LG_STATUS.LMF_MIN, .ro), (F.LG_STATUS.FWD_LOCK, .ro), (F.LG_STATUS.READY, .ro), (F.LG_STATUS.PLL_LOCK, .ro)], false⟩,
   ⟨.LG_LMF_THR, 0x8, [], 0x3018, [(F.LG_LMF_THR.WARN, .rw), (F.LG_LMF_THR.ALARM, .rw)], false⟩,
   ⟨.LG_CAUSE, 0xC, [], 0x0, [(F.LG_CAUSE.FWD_LOL, .w1c), (F.LG_CAUSE.PLL_LOL, .w1c), (F.LG_CAUSE.CFG, .w1c), (F.LG_CAUSE.LANES, .ro)], false⟩,
   ⟨.LG_TX_FIR, 0x10, [(6, 0x4)], 0x0, [(F.LG_TX_FIR.COEF, .rw)], false⟩]

/-- The registers of a region of kind `lg`. -/
def rows_lg : List Row := rows_lg_0

def rows_lane_0 : List Row :=
  [⟨.LG_LN_STATUS, 0x0, [], 0x70023, [(F.LG_LN_STATUS.LMF, .ro), (F.LG_LN_STATUS.RATE, .ro), (F.LG_LN_STATUS.LMF_STALE, .ro), (F.LG_LN_STATUS.ADAPT_DONE, .ro), (F.LG_LN_STATUS.CDR_LOCK, .ro), (F.LG_LN_STATUS.LOS, .ro), (F.LG_LN_STATUS.SQUELCHED, .ro)], false⟩,
   ⟨.LG_LN_CAUSE, 0x4, [], 0x0, [(F.LG_LN_CAUSE.EYE_CFG, .w1c), (F.LG_LN_CAUSE.PRBS_LOL, .w1c), (F.LG_LN_CAUSE.PAT, .w1c), (F.LG_LN_CAUSE.FIR_RANGE, .w1c), (F.LG_LN_CAUSE.LMF_ALARM, .w1c), (F.LG_LN_CAUSE.LMF_WARN, .w1c), (F.LG_LN_CAUSE.LOL, .w1c), (F.LG_LN_CAUSE.LOS, .w1c)], false⟩,
   ⟨.LG_LN_FIR_A, 0x10, [], 0x70F80000, [(F.LG_LN_FIR_A.T3, .rw), (F.LG_LN_FIR_A.T2, .rw), (F.LG_LN_FIR_A.T1, .rw), (F.LG_LN_FIR_A.T0, .rw)], false⟩,
   ⟨.LG_LN_FIR_B, 0x14, [], 0xF8, [(F.LG_LN_FIR_B.OWN, .rw), (F.LG_LN_FIR_B.LOAD, .sc), (F.LG_LN_FIR_B.T5, .rw), (F.LG_LN_FIR_B.T4, .rw)], false⟩,
   ⟨.LG_LN_FIR_CUR_A, 0x18, [], 0x0, [(F.LG_LN_FIR_CUR_A.T3, .ro), (F.LG_LN_FIR_CUR_A.T2, .ro), (F.LG_LN_FIR_CUR_A.T1, .ro), (F.LG_LN_FIR_CUR_A.T0, .ro)], false⟩,
   ⟨.LG_LN_FIR_CUR_B, 0x1C, [], 0x0, [(F.LG_LN_FIR_CUR_B.T5, .ro), (F.LG_LN_FIR_CUR_B.T4, .ro)], false⟩,
   ⟨.LG_LN_RXEQ, 0x20, [], 0x0, [(F.LG_LN_RXEQ.FREEZE, .rw), (F.LG_LN_RXEQ.CTLE, .ro)], false⟩,
   ⟨.LG_LN_RXEQ_TAP, 0x80, [(12, 0x4)], 0x0, [(F.LG_LN_RXEQ_TAP.COEF, .ro)], false⟩,
   ⟨.LG_LN_TEST, 0x40, [], 0x0, [(F.LG_LN_TEST.RX_ON, .rw), (F.LG_LN_TEST.TX_INV, .rwi), (F.LG_LN_TEST.RX_INV, .rwi), (F.LG_LN_TEST.LOOP, .rw), (F.LG_LN_TEST.CHK_PAT, .rw), (F.LG_LN_TEST.GEN_PAT, .rw), (F.LG_LN_TEST.TX_SRC, .rw)], false⟩,
   ⟨.LG_LN_PRBS_ERR_LO, 0x48, [], 0x0, [(F.LG_LN_PRBS_ERR_LO.COUNT_LO, .ro)], false⟩,
   ⟨.LG_LN_PRBS_ERR_HI, 0x4C, [], 0x0, [(F.LG_LN_PRBS_ERR_HI.LOCK, .ro), (F.LG_LN_PRBS_ERR_HI.COUNT_HI, .ro)], false⟩,
   ⟨.LG_LN_EYE_CTL, 0x60, [], 0x0, [(F.LG_LN_EYE_CTL.GO, .sc), (F.LG_LN_EYE_CTL.EYE, .rw), (F.LG_LN_EYE_CTL.PHASE, .rw), (F.LG_LN_EYE_CTL.VOFF, .rw), (F.LG_LN_EYE_CTL.LEN, .rw)], false⟩]

def rows_lane_1 : List Row :=
  [⟨.LG_LN_EYE_RES, 0x64, [], 0x0, [(F.LG_LN_EYE_RES.ERRS, .ro)], false⟩,
   ⟨.LG_LN_RST, 0xC0, [], 0x0, [(F.LG_LN_RST.GO, .sc)], false⟩]

/-- The registers of a region of kind `lane`. -/
def rows_lane : List Row := rows_lane_0 ++ rows_lane_1

def rows_port_0 : List Row :=
  [⟨.PORT_FORM, 0x0, [], 0x0, [(F.PORT_FORM.PENDING, .ro), (F.PORT_FORM.FEC, .rw), (F.PORT_FORM.MODE, .rw), (F.PORT_FORM.WIDTH, .rw)], true⟩,
   ⟨.PORT_CTL, 0x4, [], 0x2800, [(F.PORT_CTL.EN, .rw), (F.PORT_CTL.FC_MODE, .rwi), (F.PORT_CTL.MAXLEN, .rwi)], false⟩,
   ⟨.PORT_STATUS, 0x8, [], 0x0, [(F.PORT_STATUS.LINK_UP, .ro), (F.PORT_STATUS.RX_LF, .ro), (F.PORT_STATUS.RX_RF, .ro), (F.PORT_STATUS.AN_DONE, .ro), (F.PORT_STATUS.TRAIN_DONE, .ro), (F.PORT_STATUS.ONZ_STATE, .ro), (F.PORT_STATUS.ONZ_ROLE, .ro), (F.PORT_STATUS.FEC_LOCK, .ro), (F.PORT_STATUS.PAUSED, .ro), (F.PORT_STATUS.MODE_APPLIED, .ro), (F.PORT_STATUS.WIDTH_APPLIED, .ro)], false⟩,
   ⟨.PORT_CAUSE, 0xC, [], 0x0, [(F.PORT_CAUSE.FEC_UNCORR, .w1c), (F.PORT_CAUSE.ONZ_RESTART, .w1c), (F.PORT_CAUSE.TRAIN_TIMEOUT, .w1c), (F.PORT_CAUSE.AN_FAIL, .w1c), (F.PORT_CAUSE.CFG, .w1c), (F.PORT_CAUSE.FORM_REFUSED, .w1c), (F.PORT_CAUSE.RX_RF, .w1c), (F.PORT_CAUSE.RX_LF, .w1c), (F.PORT_CAUSE.LINK_DOWN, .w1c)], false⟩,
   ⟨.PORT_AN_CTL, 0x10, [], 0x0, [(F.PORT_AN_CTL.AN_EN, .rwi), (F.PORT_AN_CTL.TRAIN_EN, .rwi), (F.PORT_AN_CTL.TRAIN_MAX, .rwi)], false⟩,
   ⟨.PORT_PFC_MAP, 0x20, [(8, 0x4)], 0x0, [(F.PORT_PFC_MAP.EN, .rwi), (F.PORT_PFC_MAP.CLASS, .rwi)], false⟩,
   ⟨.PORT_SA_LO, 0x40, [], 0x0, [(F.PORT_SA_LO.SA_LO, .rw)], false⟩,
   ⟨.PORT_SA_HI, 0x44, [], 0x0, [(F.PORT_SA_HI.SA_HI, .rw)], false⟩,
   ⟨.PORT_ONZ_CTL, 0x50, [], 0x40, [(F.PORT_ONZ_CTL.LMF_MIN, .rwi)], false⟩,
   ⟨.PORT_TS_CTL, 0x60, [], 0x0, [(F.PORT_TS_CTL.P2P, .rw)], false⟩,
   ⟨.PORT_TS_RX_DLY, 0x64, [], 0x0, [(F.PORT_TS_RX_DLY.DLY, .ro)], false⟩,
   ⟨.PORT_TS_TX_DLY, 0x68, [], 0x0, [(F.PORT_TS_TX_DLY.DLY, .ro)], false⟩]

def rows_port_1 : List Row :=
  [⟨.PORT_TS_RX_ASYM, 0x6C, [], 0x0, [(F.PORT_TS_RX_ASYM.ASYM, .rwp)], false⟩,
   ⟨.PORT_TS_TX_ASYM, 0x70, [], 0x0, [(F.PORT_TS_TX_ASYM.ASYM, .rwp)], false⟩,
   ⟨.PORT_TS_CAL_RX, 0x74, [], 0x0, [(F.PORT_TS_CAL_RX.CAL, .rwp)], false⟩,
   ⟨.PORT_TS_CAL_TX, 0x78, [], 0x0, [(F.PORT_TS_CAL_TX.CAL, .rwp)], false⟩,
   ⟨.PORT_TS_P2P_DLY, 0x7C, [], 0x0, [(F.PORT_TS_P2P_DLY.DLY, .rw)], false⟩,
   ⟨.PORT_TS_CAL_CTL, 0x80, [], 0x0, [(F.PORT_TS_CAL_CTL.GO, .sc), (F.PORT_TS_CAL_CTL.RESULT, .ro), (F.PORT_TS_CAL_CTL.COUNT, .rw)], false⟩,
   ⟨.PORT_TS_CAL_LOOP, 0x84, [], 0x0, [(F.PORT_TS_CAL_LOOP.VALUE, .rw)], false⟩,
   ⟨.PORT_TS_CAL_MEAN, 0x88, [], 0x0, [(F.PORT_TS_CAL_MEAN.VALUE, .ro)], false⟩,
   ⟨.PORT_TS_CAL_SPREAD, 0x8C, [], 0x0, [(F.PORT_TS_CAL_SPREAD.VALUE, .ro)], false⟩,
   ⟨.PORT_TS_TXQ_HDR, 0x90, [], 0x0, [(F.PORT_TS_TXQ_HDR.VALID, .ro), (F.PORT_TS_TXQ_HDR.MSGTYPE, .ro), (F.PORT_TS_TXQ_HDR.DOMAIN, .ro), (F.PORT_TS_TXQ_HDR.SEQ, .ro)], false⟩,
   ⟨.PORT_TS_TXQ_S, 0x94, [], 0x0, [(F.PORT_TS_TXQ_S.S_LO, .ro)], false⟩,
   ⟨.PORT_TS_TXQ_SF, 0x98, [], 0x0, [(F.PORT_TS_TXQ_SF.S_HI, .ro), (F.PORT_TS_TXQ_SF.FRAC, .ro)], false⟩]

def rows_port_2 : List Row :=
  [⟨.PORT_TS_TXQ_NS, 0x9C, [], 0x0, [(F.PORT_TS_TXQ_NS.NS, .ro)], false⟩,
   ⟨.PORT_TS_TXQ_CTL, 0xA0, [], 0x0, [(F.PORT_TS_TXQ_CTL.POP, .sc), (F.PORT_TS_TXQ_CTL.LEVEL, .ro)], false⟩,
   ⟨.PORT_TS_CAUSE, 0xA4, [], 0x0, [(F.PORT_TS_CAUSE.TC_SAT, .w1c), (F.PORT_TS_CAUSE.CAL_FAIL, .w1c), (F.PORT_TS_CAUSE.TXQ_LOST, .w1c), (F.PORT_TS_CAUSE.OOR, .w1c)], false⟩,
   ⟨.PORT_TT_LEAD, 0xB0, [], 0x0, [(F.PORT_TT_LEAD.LEAD, .ro)], false⟩,
   ⟨.PORT_TT_TIE, 0xB4, [], 0x0, [(F.PORT_TT_TIE.PTR, .ro)], false⟩,
   ⟨.PORT_TT_LATE_MAX, 0xB8, [], 0x0, [(F.PORT_TT_LATE_MAX.LATENESS, .rc)], false⟩,
   ⟨.PORT_RST, 0xC0, [], 0x0, [(F.PORT_RST.GO, .sc)], false⟩,
   ⟨.PORT_CMIS_CMD, 0x300, [], 0x0, [(F.PORT_CMIS_CMD.GO, .sc), (F.PORT_CMIS_CMD.WRITE, .rw), (F.PORT_CMIS_CMD.LEN, .rw)], false⟩,
   ⟨.PORT_CMIS_ADDR, 0x304, [], 0x0, [(F.PORT_CMIS_ADDR.BANK, .rw), (F.PORT_CMIS_ADDR.PAGE, .rw), (F.PORT_CMIS_ADDR.OFFSET, .rw)], false⟩,
   ⟨.PORT_CMIS_STATUS, 0x308, [], 0x0, [(F.PORT_CMIS_STATUS.RESULT, .ro)], false⟩,
   ⟨.PORT_CMIS_DATA, 0x340, [(32, 0x4)], 0x0, [(F.PORT_CMIS_DATA.BYTES, .rw)], false⟩]

/-- The registers of a region of kind `port`. -/
def rows_port : List Row := rows_port_0 ++ rows_port_1 ++ rows_port_2

def rows_par_0 : List Row :=
  [⟨.PAR_STATUS, 0x0, [], 0x0, [(F.PAR_STATUS.LOADED, .ro), (F.PAR_STATUS.STATES, .ro)], false⟩,
   ⟨.PAR_HASH_SEED, 0x4, [], 0xFFFFFFFF, [(F.PAR_HASH_SEED.SEED, .rwi)], false⟩,
   ⟨.PAR_EXC_MASK, 0x8, [], 0x0, [(F.PAR_EXC_MASK.REASONS, .rw)], false⟩,
   ⟨.PAR_CAUSE, 0xC, [], 0x0, [(F.PAR_CAUSE.IDLE_VIOL, .w1c), (F.PAR_CAUSE.EXC_RED, .w1c), (F.PAR_CAUSE.MALFORMED, .w1c)], false⟩,
   ⟨.PAR_EXC_POL_CTL, 0x200, [], 0x0, [(F.PAR_EXC_POL_CTL.PENDING, .ro), (F.PAR_EXC_POL_CTL.TOKEN_RESET, .rw), (F.PAR_EXC_POL_CTL.EN, .rw)], true⟩,
   ⟨.PAR_EXC_CIR, 0x204, [], 0x0, [(F.PAR_EXC_CIR.PENDING, .ro), (F.PAR_EXC_CIR.RATE, .rw)], true⟩,
   ⟨.PAR_EXC_PIR, 0x208, [], 0x0, [(F.PAR_EXC_PIR.PENDING, .ro), (F.PAR_EXC_PIR.RATE, .rw)], true⟩,
   ⟨.PAR_EXC_CBS, 0x20C, [], 0x2800, [(F.PAR_EXC_CBS.PENDING, .ro), (F.PAR_EXC_CBS.BYTES, .rw)], true⟩,
   ⟨.PAR_EXC_PBS, 0x210, [], 0x2800, [(F.PAR_EXC_PBS.PENDING, .ro), (F.PAR_EXC_PBS.BYTES, .rw)], true⟩]

/-- The registers of a region of kind `par`. -/
def rows_par : List Row := rows_par_0

def rows_stg_0 : List Row :=
  [⟨.STG_STATUS, 0x0, [], 0x0, [(F.STG_STATUS.LOADED, .ro), (F.STG_STATUS.BLOCKS, .ro), (F.STG_STATUS.TABLES, .ro)], false⟩,
   ⟨.STG_CAUSE, 0x4, [], 0x0, [(F.STG_CAUSE.NOTE_FULL, .w1c), (F.STG_CAUSE.LEARN_DROP, .w1c), (F.STG_CAUSE.IDLE_VIOL, .w1c), (F.STG_CAUSE.CFG, .w1c), (F.STG_CAUSE.PARITY, .w1c)], false⟩,
   ⟨.STG_PAR_ADDR, 0x8, [], 0x0, [(F.STG_PAR_ADDR.VALID, .ro), (F.STG_PAR_ADDR.TS, .ro), (F.STG_PAR_ADDR.TABLE, .ro), (F.STG_PAR_ADDR.STASH, .ro), (F.STG_PAR_ADDR.WAY, .ro), (F.STG_PAR_ADDR.ROW, .ro)], false⟩,
   ⟨.STG_EM_CFG, 0x40, [(4, 0x40)], 0x0, [(F.STG_EM_CFG.DEFINED, .ro), (F.STG_EM_CFG.DUAL_KEY, .ro), (F.STG_EM_CFG.LEARN, .ro), (F.STG_EM_CFG.WIDTH, .ro), (F.STG_EM_CFG.DEPTH_LOG2, .ro), (F.STG_EM_CFG.KEY_LEN, .ro)], false⟩,
   ⟨.STG_EM_CTL, 0x44, [(4, 0x40)], 0x30, [(F.STG_EM_CTL.NOTIFY, .rw), (F.STG_EM_CTL.AGE_SHIFT, .rwi), (F.STG_EM_CTL.MAX_DEPTH, .rw), (F.STG_EM_CTL.EVICT, .rw)], false⟩,
   ⟨.STG_EM_AGE, 0x48, [(4, 0x40)], 0x0, [(F.STG_EM_AGE.AGE_LIMIT, .rw)], false⟩,
   ⟨.STG_EM_SEED, 0x50, [(4, 0x40), (4, 0x4)], 0x0, [(F.STG_EM_SEED.SEED, .rwi)], false⟩,
   ⟨.STG_EM_OCC, 0x60, [(4, 0x40)], 0x0, [(F.STG_EM_OCC.STASH_USED, .ro), (F.STG_EM_OCC.ENTRIES, .ro)], false⟩,
   ⟨.STG_IA_CMD, 0x1000, [], 0x0, [(F.STG_IA_CMD.GO, .sc), (F.STG_IA_CMD.OP, .rw), (F.STG_IA_CMD.TABLE, .rw), (F.STG_IA_CMD.STASH, .rw), (F.STG_IA_CMD.WAY, .rw), (F.STG_IA_CMD.ROW, .rw)], false⟩,
   ⟨.STG_IA_STATUS, 0x1004, [], 0x0, [(F.STG_IA_STATUS.RESULT, .ro), (F.STG_IA_STATUS.STASH, .ro), (F.STG_IA_STATUS.WAY, .ro), (F.STG_IA_STATUS.ROW, .ro)], false⟩,
   ⟨.STG_IA_TS, 0x1008, [], 0x0, [(F.STG_IA_TS.TS, .ro)], false⟩,
   ⟨.STG_IA_DATA, 0x1040, [(32, 0x4)], 0x0, [(F.STG_IA_DATA.BYTES, .rw)], false⟩]

def rows_stg_1 : List Row :=
  [⟨.STG_NOTE_HDR, 0x2000, [], 0x0, [(F.STG_NOTE_HDR.KIND, .ro), (F.STG_NOTE_HDR.TABLE, .ro), (F.STG_NOTE_HDR.STASH, .ro), (F.STG_NOTE_HDR.WAY, .ro), (F.STG_NOTE_HDR.ROW, .ro)], false⟩,
   ⟨.STG_NOTE_ROUND, 0x2004, [], 0x0, [(F.STG_NOTE_ROUND.ROUND, .ro)], false⟩,
   ⟨.STG_NOTE_CTL, 0x2008, [], 0x0, [(F.STG_NOTE_CTL.POP, .sc), (F.STG_NOTE_CTL.LEVEL, .ro)], false⟩,
   ⟨.STG_NOTE_ENTRY, 0x2040, [(16, 0x4)], 0x0, [(F.STG_NOTE_ENTRY.BYTES, .ro)], false⟩,
   ⟨.TC_CFG, 0x3000, [(2, 0x400)], 0x0, [(F.TC_CFG.DEFINED, .ro), (F.TC_CFG.PREFILTER, .ro), (F.TC_CFG.BANKS, .ro), (F.TC_CFG.SLICES, .ro), (F.TC_CFG.WIDTH, .ro)], false⟩,
   ⟨.TC_OCC, 0x3004, [(2, 0x400)], 0x0, [(F.TC_OCC.ENTRIES, .ro)], false⟩,
   ⟨.TC_GMASK_CTL, 0x3008, [(2, 0x400)], 0x0, [(F.TC_GMASK_CTL.TAKE, .sc)], false⟩,
   ⟨.TC_GMASK, 0x3100, [(2, 0x400), (4, 0x50), (20, 0x4)], 0xFFFFFFFF, [(F.TC_GMASK.BITS, .rw)], false⟩,
   ⟨.STG_UC_CAUSE, 0x3800, [], 0x0, [(F.STG_UC_CAUSE.SWAP_FAIL, .w1c), (F.STG_UC_CAUSE.STBY_BUSY, .w1c), (F.STG_UC_CAUSE.BAD_ACTION, .w1c), (F.STG_UC_CAUSE.PARITY, .w1c)], false⟩,
   ⟨.STG_UC_ERR, 0x3804, [], 0x0, [(F.STG_UC_ERR.VALID, .ro), (F.STG_UC_ERR.BANK, .ro), (F.STG_UC_ERR.WORD, .ro)], false⟩,
   ⟨.STG_UC_SWAP, 0x3840, [], 0x0, [(F.STG_UC_SWAP.GO, .sc), (F.STG_UC_SWAP.RESULT, .ro), (F.STG_UC_SWAP.CHECKED, .ro), (F.STG_UC_SWAP.DRAINING, .ro), (F.STG_UC_SWAP.BANK, .ro)], false⟩,
   ⟨.STG_UC_SWAP_ERR, 0x3844, [], 0x0, [(F.STG_UC_SWAP_ERR.VALID, .ro), (F.STG_UC_SWAP_ERR.STAGE, .ro), (F.STG_UC_SWAP_ERR.CHECK, .ro), (F.STG_UC_SWAP_ERR.WORD, .ro)], false⟩]

def rows_stg_2 : List Row :=
  [⟨.STG_UC_HASH, 0x3860, [(8, 0x4)], 0x0, [(F.STG_UC_HASH.HASH, .ro)], false⟩,
   ⟨.STG_UC_DIR, 0x3900, [(128, 0x4)], 0x0, [(F.STG_UC_DIR.DEFINED, .ro), (F.STG_UC_DIR.CUST, .ro), (F.STG_UC_DIR.SLOTS, .ro), (F.STG_UC_DIR.START, .ro)], false⟩,
   ⟨.STG_UC_WORD, 0x40000, [(4096, 0x4)], 0x0, [(F.STG_UC_WORD.WORD, .ro)], false⟩,
   ⟨.STG_UC_STBY, 0x44000, [(1024, 0x4)], 0x0, [(F.STG_UC_STBY.WORD, .rw)], false⟩,
   ⟨.STG_ACT_CHAIN, 0x5F000, [(16, 0x4)], 0x0, [(F.STG_ACT_CHAIN.CHAIN, .rw)], false⟩]

/-- The registers of a region of kind `stg`. -/
def rows_stg : List Row := rows_stg_0 ++ rows_stg_1 ++ rows_stg_2

def rows_tc_0 : List Row :=
  [⟨.TC_ENG_STATUS, 0x0, [], 0x0, [(F.TC_ENG_STATUS.LOADED, .ro), (F.TC_ENG_STATUS.BLOCKS, .ro), (F.TC_ENG_STATUS.SEARCHED, .ro)], false⟩,
   ⟨.TC_CAUSE, 0x4, [], 0x0, [(F.TC_CAUSE.IDLE_VIOL, .w1c), (F.TC_CAUSE.NORMALISED, .w1c), (F.TC_CAUSE.SHADOW_PAR, .w1c), (F.TC_CAUSE.MISMATCH, .w1c)], false⟩,
   ⟨.TC_ERR_ADDR, 0x8, [], 0x0, [(F.TC_ERR_ADDR.VALID, .ro), (F.TC_ERR_ADDR.PARITY, .ro), (F.TC_ERR_ADDR.STAGE, .ro), (F.TC_ERR_ADDR.TABLE, .ro), (F.TC_ERR_ADDR.ADDR, .ro)], false⟩,
   ⟨.TC_SCRUB_CTL, 0x10, [], 0x80000010, [(F.TC_SCRUB_CTL.EN, .rw), (F.TC_SCRUB_CTL.INTERVAL, .rw)], false⟩,
   ⟨.TC_SCRUB_POS, 0x14, [], 0x0, [(F.TC_SCRUB_POS.BLOCK, .ro), (F.TC_SCRUB_POS.ROW, .ro)], false⟩,
   ⟨.TC_IA_CMD, 0x1000, [], 0x0, [(F.TC_IA_CMD.GO, .sc), (F.TC_IA_CMD.OP, .rw), (F.TC_IA_CMD.STAGE, .rw), (F.TC_IA_CMD.TABLE, .rw), (F.TC_IA_CMD.ADDR, .rw)], false⟩,
   ⟨.TC_IA_STATUS, 0x1004, [], 0x0, [(F.TC_IA_STATUS.RESULT, .ro), (F.TC_IA_STATUS.MOVES, .ro), (F.TC_IA_STATUS.ADDR, .ro)], false⟩,
   ⟨.TC_IA_ENT, 0x1008, [], 0x0, [(F.TC_IA_ENT.VALID, .ro), (F.TC_IA_ENT.GSEL, .rw), (F.TC_IA_ENT.PRIO, .rw)], false⟩,
   ⟨.TC_IA_RES_HI, 0x100C, [], 0x0, [(F.TC_IA_RES_HI.ACTION, .rw), (F.TC_IA_RES_HI.DATA_HI, .rw)], false⟩,
   ⟨.TC_IA_RES_LO, 0x1010, [], 0x0, [(F.TC_IA_RES_LO.DATA_LO, .rw)], false⟩,
   ⟨.TC_IA_VAL, 0x1040, [(20, 0x4)], 0x0, [(F.TC_IA_VAL.BYTES, .rw)], false⟩,
   ⟨.TC_IA_MASK, 0x1090, [(20, 0x4)], 0x0, [(F.TC_IA_MASK.BYTES, .rw)], false⟩]

/-- The registers of a region of kind `tc`. -/
def rows_tc : List Row := rows_tc_0

def rows_ver_0 : List Row :=
  [⟨.VER_CMD, 0x0, [], 0x0, [(F.VER_CMD.GO, .sc), (F.VER_CMD.CMD, .rw), (F.VER_CMD.AT_ROUND, .rw), (F.VER_CMD.RESULT, .ro)], false⟩,
   ⟨.VER_STATUS, 0x4, [], 0x0, [(F.VER_STATUS.TAG, .ro), (F.VER_STATUS.OPEN_HELD, .ro), (F.VER_STATUS.STATE, .ro)], false⟩,
   ⟨.VER_NUM, 0x8, [], 0x0, [(F.VER_NUM.NUM, .ro)], false⟩,
   ⟨.VER_DRAIN_LIMIT, 0xC, [], 0x2710, [(F.VER_DRAIN_LIMIT.LIMIT, .rw)], false⟩,
   ⟨.VER_CAUSE, 0x10, [], 0x0, [(F.VER_CAUSE.CMD_REFUSED, .w1c), (F.VER_CAUSE.GRP_LOST, .w1c), (F.VER_CAUSE.DRAIN_TIMEOUT, .w1c)], false⟩,
   ⟨.VER_DRAIN_LAST, 0x14, [], 0x0, [(F.VER_DRAIN_LAST.NS, .ro)], false⟩,
   ⟨.VER_PIPE, 0x100, [], 0x0, [(F.VER_PIPE.LANDED, .ro), (F.VER_PIPE.TAG, .ro), (F.VER_PIPE.ROWS, .ro)], false⟩,
   ⟨.VER_OLD_LIVE, 0x104, [], 0x0, [(F.VER_OLD_LIVE.COUNT, .ro)], false⟩,
   ⟨.VER_GW_CMD, 0x110, [], 0x0, [(F.VER_GW_CMD.GO, .sc), (F.VER_GW_CMD.OP, .rw), (F.VER_GW_CMD.STAGE, .rw), (F.VER_GW_CMD.TABLE, .rw), (F.VER_GW_CMD.ADDR, .rw)], false⟩,
   ⟨.VER_GW_STATUS, 0x114, [], 0x0, [(F.VER_GW_STATUS.RESULT, .ro), (F.VER_GW_STATUS.LOC, .ro)], false⟩]

/-- The registers of a region of kind `ver`. -/
def rows_ver : List Row := rows_ver_0

def rows_bpm_0 : List Row :=
  [⟨.BPM_STATUS, 0x0, [], 0x0, [(F.BPM_STATUS.LAYOUT, .ro), (F.BPM_STATUS.POOLS, .ro), (F.BPM_STATUS.FENCED, .ro)], false⟩,
   ⟨.BPM_CAUSE, 0x4, [], 0x0, [(F.BPM_CAUSE.INCONSISTENT, .w1c), (F.BPM_CAUSE.UNCORR, .w1c), (F.BPM_CAUSE.FENCE, .w1c), (F.BPM_CAUSE.DFREE, .w1c), (F.BPM_CAUSE.LAYOUT, .w1c)], false⟩,
   ⟨.BPM_DFREE, 0x8, [], 0x0, [(F.BPM_DFREE.SRC, .ro), (F.BPM_DFREE.HANDLE, .ro)], false⟩,
   ⟨.BPM_FENCE_CTL, 0x10, [], 0x10, [(F.BPM_FENCE_CTL.GO, .sc), (F.BPM_FENCE_CTL.SLICE, .rw), (F.BPM_FENCE_CTL.UNCORR_THR, .rw)], false⟩,
   ⟨.BPM_AUDIT_CTL, 0x14, [], 0x80000640, [(F.BPM_AUDIT_CTL.EN, .rw), (F.BPM_AUDIT_CTL.LIMIT, .rw)], false⟩,
   ⟨.BPM_POOL_CFG, 0x100, [(8, 0x10)], 0x0, [(F.BPM_POOL_CFG.DEFINED, .ro), (F.BPM_POOL_CFG.SIZE, .ro), (F.BPM_POOL_CFG.COUNT, .ro)], false⟩,
   ⟨.BPM_POOL_FREE, 0x104, [(8, 0x10)], 0x0, [(F.BPM_POOL_FREE.COUNT, .ro)], false⟩,
   ⟨.BPM_POOL_EFF, 0x108, [(8, 0x10)], 0x0, [(F.BPM_POOL_EFF.COUNT, .ro)], false⟩,
   ⟨.BPM_POOL_UNRSV, 0x10C, [(8, 0x10)], 0x0, [(F.BPM_POOL_UNRSV.COUNT, .ro)], false⟩]

/-- The registers of a region of kind `bpm`. -/
def rows_bpm : List Row := rows_bpm_0

def rows_bpmPage_0 : List Row :=
  [⟨.BPM_OWN_CAUSE, 0x0, [], 0x0, [(F.BPM_OWN_CAUSE.DFREE, .w1c), (F.BPM_OWN_CAUSE.SLICE_LOSS, .w1c), (F.BPM_OWN_CAUSE.QUOTA, .w1c), (F.BPM_OWN_CAUSE.REFUSE, .w1c), (F.BPM_OWN_CAUSE.AUDIT_DROP, .w1c), (F.BPM_OWN_CAUSE.ORPHAN, .w1c)], false⟩,
   ⟨.BPM_OWN_HOLD, 0x40, [(8, 0x4)], 0x0, [(F.BPM_OWN_HOLD.COUNT, .ro)], false⟩,
   ⟨.BPM_OWN_RSV, 0x60, [(8, 0x4)], 0x0, [(F.BPM_OWN_RSV.COUNT, .ro)], false⟩,
   ⟨.BPM_RQ_QUOTA, 0x100, [(8, 0x20), (8, 0x4)], 0x3FFFFF, [(F.BPM_RQ_QUOTA.QUOTA, .rw)], false⟩,
   ⟨.BPM_RQ_HOLD, 0x200, [(8, 0x20), (8, 0x4)], 0x0, [(F.BPM_RQ_HOLD.COUNT, .ro)], false⟩,
   ⟨.BPM_AUD_HEAD, 0x400, [], 0x0, [(F.BPM_AUD_HEAD.VALID, .ro), (F.BPM_AUD_HEAD.HANDLE, .ro)], false⟩,
   ⟨.BPM_AUD_INFO, 0x404, [], 0x0, [(F.BPM_AUD_INFO.HOLDER, .ro), (F.BPM_AUD_INFO.HOLDS, .ro), (F.BPM_AUD_INFO.ALLOC, .ro)], false⟩,
   ⟨.BPM_AUD_CTL, 0x408, [], 0x0, [(F.BPM_AUD_CTL.POP, .sc), (F.BPM_AUD_CTL.LEVEL, .ro)], false⟩,
   ⟨.BPM_RECLAIM, 0x410, [], 0x0, [(F.BPM_RECLAIM.GO, .sc), (F.BPM_RECLAIM.RESULT, .ro), (F.BPM_RECLAIM.HANDLE, .rw)], false⟩]

/-- The registers of a region of kind `bpmPage`. -/
def rows_bpmPage : List Row := rows_bpmPage_0

def rows_bpmWr_0 : List Row :=
  [⟨.BPM_WR_QUOTA, 0x0, [(8, 0x4)], 0x3FFFFF, [(F.BPM_WR_QUOTA.VALUE, .rw)], false⟩,
   ⟨.BPM_WR_HOLD, 0x20, [(8, 0x4)], 0x0, [(F.BPM_WR_HOLD.VALUE, .ro)], false⟩]

/-- The registers of a region of kind `bpmWr`. -/
def rows_bpmWr : List Row := rows_bpmWr_0

def rows_tmPipe_0 : List Row :=
  [⟨.TM_IA_CMD, 0x0, [], 0x0, [(F.TM_IA_CMD.GO, .sc), (F.TM_IA_CMD.OP, .rw), (F.TM_IA_CMD.TARGET, .rw), (F.TM_IA_CMD.INDEX, .rw)], false⟩,
   ⟨.TM_IA_STATUS, 0x4, [], 0x0, [(F.TM_IA_STATUS.RESULT, .ro)], false⟩,
   ⟨.TM_PIPE_CAUSE, 0x8, [], 0x0, [(F.TM_PIPE_CAUSE.IDLE_VIOL, .w1c), (F.TM_PIPE_CAUSE.CFG, .w1c)], false⟩,
   ⟨.TM_IA_DATA, 0x40, [(32, 0x4)], 0x0, [(F.TM_IA_DATA.WORD, .rw)], false⟩]

/-- The registers of a region of kind `tmPipe`. -/
def rows_tmPipe : List Row := rows_tmPipe_0

def rows_tmPort_0 : List Row :=
  [⟨.TM_PORT_CTL, 0x0, [], 0xA03E8, [(F.TM_PORT_CTL.UP_HOLD, .rw), (F.TM_PORT_CTL.DOWN_FLUSH, .rw)], false⟩,
   ⟨.TM_PORT_STATUS, 0x4, [], 0x0, [(F.TM_PORT_STATUS.LIVE, .ro), (F.TM_PORT_STATUS.DOWN_DROP, .ro), (F.TM_PORT_STATUS.DISCARD, .ro)], false⟩,
   ⟨.TM_PORT_CAUSE, 0x8, [], 0x0, [(F.TM_PORT_CAUSE.DOWN_FLUSH, .w1c), (F.TM_PORT_CAUSE.HEADROOM, .w1c), (F.TM_PORT_CAUSE.LIMIT, .w1c), (F.TM_PORT_CAUSE.WD_EXIT, .w1c), (F.TM_PORT_CAUSE.WD_ENTER, .w1c)], false⟩,
   ⟨.TM_PORT_LIMIT, 0xC, [], 0xFFFFF, [(F.TM_PORT_LIMIT.LIMIT, .rw)], false⟩,
   ⟨.TM_PORT_SHP_CTL, 0x10, [], 0x0, [(F.TM_PORT_SHP_CTL.PENDING, .ro), (F.TM_PORT_SHP_CTL.TOKEN_RESET, .rw)], true⟩,
   ⟨.TM_PORT_CIR, 0x14, [], 0x0, [(F.TM_PORT_CIR.PENDING, .ro), (F.TM_PORT_CIR.RATE, .rw)], true⟩,
   ⟨.TM_PORT_PIR, 0x18, [], 0x0, [(F.TM_PORT_PIR.PENDING, .ro), (F.TM_PORT_PIR.RATE, .rw)], true⟩,
   ⟨.TM_PORT_CBS, 0x1C, [], 0x2800, [(F.TM_PORT_CBS.PENDING, .ro), (F.TM_PORT_CBS.BYTES, .rw)], true⟩,
   ⟨.TM_PORT_PBS, 0x20, [], 0x2800, [(F.TM_PORT_PBS.PENDING, .ro), (F.TM_PORT_PBS.BYTES, .rw)], true⟩,
   ⟨.TM_PFC_CTL, 0x24, [], 0xFFFF, [(F.TM_PFC_CTL.REFRESH, .rw), (F.TM_PFC_CTL.QUANTA, .rw)], false⟩,
   ⟨.TM_WD_CTL, 0x28, [], 0x0, [(F.TM_WD_CTL.T, .rw)], false⟩,
   ⟨.TM_FC_STATUS, 0x2C, [], 0x0, [(F.TM_FC_STATUS.PORT_XOFF, .ro), (F.TM_FC_STATUS.CLASS_XOFF, .ro)], false⟩]

def rows_tmPort_1 : List Row :=
  [⟨.TM_IN_PORT_XOFF, 0x30, [], 0x0, [(F.TM_IN_PORT_XOFF.UNITS, .rw)], false⟩,
   ⟨.TM_IN_PORT_XON, 0x34, [], 0x0, [(F.TM_IN_PORT_XON.UNITS, .rw)], false⟩,
   ⟨.TM_IN_PORT_OCC, 0x38, [], 0x0, [(F.TM_IN_PORT_OCC.UNITS, .ro)], false⟩,
   ⟨.TM_Q_LIMIT, 0x40, [(16, 0x20)], 0x400, [(F.TM_Q_LIMIT.LIMIT, .rw)], false⟩,
   ⟨.TM_Q_SCHED, 0x44, [(16, 0x20)], 0x1, [(F.TM_Q_SCHED.MODE, .rw), (F.TM_Q_SCHED.WEIGHT, .rw)], false⟩,
   ⟨.TM_Q_SHP_CTL, 0x48, [(16, 0x20)], 0x0, [(F.TM_Q_SHP_CTL.PENDING, .ro), (F.TM_Q_SHP_CTL.TOKEN_RESET, .rw)], true⟩,
   ⟨.TM_Q_CIR, 0x4C, [(16, 0x20)], 0x0, [(F.TM_Q_CIR.PENDING, .ro), (F.TM_Q_CIR.RATE, .rw)], true⟩,
   ⟨.TM_Q_PIR, 0x50, [(16, 0x20)], 0x0, [(F.TM_Q_PIR.PENDING, .ro), (F.TM_Q_PIR.RATE, .rw)], true⟩,
   ⟨.TM_Q_CBS, 0x54, [(16, 0x20)], 0x2800, [(F.TM_Q_CBS.PENDING, .ro), (F.TM_Q_CBS.BYTES, .rw)], true⟩,
   ⟨.TM_Q_PBS, 0x58, [(16, 0x20)], 0x2800, [(F.TM_Q_PBS.PENDING, .ro), (F.TM_Q_PBS.BYTES, .rw)], true⟩,
   ⟨.TM_Q_DEPTH, 0x5C, [(16, 0x20)], 0x0, [(F.TM_Q_DEPTH.PAUSED, .ro), (F.TM_Q_DEPTH.DISCARD, .ro), (F.TM_Q_DEPTH.BYTES, .ro)], false⟩,
   ⟨.TM_IN_XOFF, 0x240, [(16, 0x10)], 0x0, [(F.TM_IN_XOFF.UNITS, .rw)], false⟩]

def rows_tmPort_2 : List Row :=
  [⟨.TM_IN_XON, 0x244, [(16, 0x10)], 0x0, [(F.TM_IN_XON.UNITS, .rw)], false⟩,
   ⟨.TM_IN_DROP, 0x248, [(16, 0x10)], 0xFFFFF, [(F.TM_IN_DROP.UNITS, .rw)], false⟩,
   ⟨.TM_IN_OCC, 0x24C, [(16, 0x10)], 0x0, [(F.TM_IN_OCC.UNITS, .ro)], false⟩]

/-- The registers of a region of kind `tmPort`. -/
def rows_tmPort : List Row := rows_tmPort_0 ++ rows_tmPort_1 ++ rows_tmPort_2

def rows_time_0 : List Row :=
  [⟨.TIME_NS, 0x0, [], 0x0, [(F.TIME_NS.VALID, .ro), (F.TIME_NS.HOLDOVER, .ro), (F.TIME_NS.NS, .ro)], false⟩,
   ⟨.TIME_SHD_S, 0x4, [], 0x0, [(F.TIME_SHD_S.S_LO, .ro)], false⟩,
   ⟨.TIME_SHD_SF, 0x8, [], 0x0, [(F.TIME_SHD_SF.S_HI, .ro), (F.TIME_SHD_SF.FRAC, .ro)], false⟩,
   ⟨.TIME_STATUS, 0x10, [], 0x0, [(F.TIME_STATUS.VALID, .ro), (F.TIME_STATUS.HOLDOVER, .ro), (F.TIME_STATUS.CNT_FAULT, .ro), (F.TIME_STATUS.LOCKED, .ro), (F.TIME_STATUS.TL_SLAVE, .ro), (F.TIME_STATUS.TL_PARENT, .ro), (F.TIME_STATUS.SRC, .ro)], false⟩,
   ⟨.TIME_CAUSE, 0x14, [], 0x0, [(F.TIME_CAUSE.PPS_CFG, .w1c), (F.TIME_CAUSE.SYNCE_SQ, .w1c), (F.TIME_CAUSE.TL_CHANGE, .w1c), (F.TIME_CAUSE.TL_NO_MASTER, .w1c), (F.TIME_CAUSE.EVT_OVF, .w1c), (F.TIME_CAUSE.PPS_LATE, .w1c), (F.TIME_CAUSE.PPS_SKIP, .w1c), (F.TIME_CAUSE.SRC_BUSY, .w1c), (F.TIME_CAUSE.CNT_FAULT, .w1c), (F.TIME_CAUSE.PPS_OUTLIER, .w1c), (F.TIME_CAUSE.REF_LOSS, .w1c), (F.TIME_CAUSE.HOLDOVER, .w1c), (F.TIME_CAUSE.STEP, .w1c)], false⟩,
   ⟨.TIME_SET_S, 0x20, [], 0x0, [(F.TIME_SET_S.S_LO, .rw)], false⟩,
   ⟨.TIME_SET_SF, 0x24, [], 0x0, [(F.TIME_SET_SF.S_HI, .rw), (F.TIME_SET_SF.FRAC, .rw)], false⟩,
   ⟨.TIME_SET_NS, 0x28, [], 0x0, [(F.TIME_SET_NS.NS, .rw)], false⟩,
   ⟨.TIME_SET_CTL, 0x2C, [], 0x0, [(F.TIME_SET_CTL.GO, .sc), (F.TIME_SET_CTL.AT, .rw), (F.TIME_SET_CTL.RESULT, .ro)], false⟩,
   ⟨.TIME_ADJ_NS, 0x30, [], 0x0, [(F.TIME_ADJ_NS.NS, .rw)], false⟩,
   ⟨.TIME_ADJ_CTL, 0x34, [], 0x0, [(F.TIME_ADJ_CTL.GO, .sc), (F.TIME_ADJ_CTL.RESULT, .ro), (F.TIME_ADJ_CTL.FRAC, .rw)], false⟩,
   ⟨.TIME_FREQ, 0x38, [], 0x0, [(F.TIME_FREQ.ADJ, .rw)], false⟩]

def rows_time_1 : List Row :=
  [⟨.TIME_STEP_THR, 0x3C, [], 0x3E8, [(F.TIME_STEP_THR.NS, .rwp)], false⟩,
   ⟨.TIME_SRC_CTL, 0x40, [], 0x510, [(F.TIME_SRC_CTL.REVERT, .rwp), (F.TIME_SRC_CTL.BW, .rwp), (F.TIME_SRC_CTL.SRC, .rwp)], false⟩,
   ⟨.TIME_SRC_ERR, 0x44, [], 0x0, [(F.TIME_SRC_ERR.VALUE, .ro)], false⟩,
   ⟨.TIME_TRIM_SUM, 0x48, [], 0x0, [(F.TIME_TRIM_SUM.VALUE, .ro)], false⟩,
   ⟨.TIME_PPS_IN_COMP, 0x4C, [], 0x0, [(F.TIME_PPS_IN_COMP.VALUE, .rw)], false⟩,
   ⟨.TIME_STEP_CNT, 0x50, [], 0x0, [(F.TIME_STEP_CNT.COUNT, .ro)], false⟩,
   ⟨.TIME_TRIM_CNT, 0x54, [], 0x0, [(F.TIME_TRIM_CNT.COUNT, .ro)], false⟩,
   ⟨.TIME_PPS_OUTLIER, 0x58, [], 0x0, [(F.TIME_PPS_OUTLIER.COUNT, .ro)], false⟩,
   ⟨.TIME_TL_BAD, 0x5C, [], 0x0, [(F.TIME_TL_BAD.COUNT, .ro)], false⟩,
   ⟨.TIME_PPS_CTL, 0x100, [(4, 0x20)], 0x0, [(F.TIME_PPS_CTL.ARM, .sc), (F.TIME_PPS_CTL.DISARM, .sc), (F.TIME_PPS_CTL.MODE, .rw), (F.TIME_PPS_CTL.LATE, .rw), (F.TIME_PPS_CTL.INV, .rw), (F.TIME_PPS_CTL.STATE, .ro)], false⟩,
   ⟨.TIME_PPS_START_S, 0x104, [(4, 0x20)], 0x0, [(F.TIME_PPS_START_S.S_LO, .rw)], false⟩,
   ⟨.TIME_PPS_START_SF, 0x108, [(4, 0x20)], 0x0, [(F.TIME_PPS_START_SF.S_HI, .rw), (F.TIME_PPS_START_SF.FRAC, .rw)], false⟩]

def rows_time_2 : List Row :=
  [⟨.TIME_PPS_START_NS, 0x10C, [(4, 0x20)], 0x0, [(F.TIME_PPS_START_NS.NS, .rw)], false⟩,
   ⟨.TIME_PPS_PERIOD, 0x110, [(4, 0x20)], 0x3B9ACA00, [(F.TIME_PPS_PERIOD.NS, .rw)], false⟩,
   ⟨.TIME_PPS_WIDTH, 0x114, [(4, 0x20)], 0x5F5E100, [(F.TIME_PPS_WIDTH.NS, .rw)], false⟩,
   ⟨.TIME_PPS_SKIP, 0x118, [(4, 0x20)], 0x0, [(F.TIME_PPS_SKIP.COUNT, .ro)], false⟩,
   ⟨.TIME_PPS_LATE, 0x11C, [(4, 0x20)], 0x0, [(F.TIME_PPS_LATE.COUNT, .ro)], false⟩,
   ⟨.TIME_EVT_CTL, 0x200, [(4, 0x20)], 0x0, [(F.TIME_EVT_CTL.POP, .sc), (F.TIME_EVT_CTL.EDGE, .rw), (F.TIME_EVT_CTL.LEVEL, .ro)], false⟩,
   ⟨.TIME_EVT_S, 0x204, [(4, 0x20)], 0x0, [(F.TIME_EVT_S.S_LO, .ro)], false⟩,
   ⟨.TIME_EVT_SF, 0x208, [(4, 0x20)], 0x0, [(F.TIME_EVT_SF.S_HI, .ro), (F.TIME_EVT_SF.FRAC, .ro)], false⟩,
   ⟨.TIME_EVT_NS, 0x20C, [(4, 0x20)], 0x0, [(F.TIME_EVT_NS.VALID, .ro), (F.TIME_EVT_NS.FALL, .ro), (F.TIME_EVT_NS.NS, .ro)], false⟩,
   ⟨.TIME_EVT_INFO, 0x210, [(4, 0x20)], 0x0, [(F.TIME_EVT_INFO.STEP_SEQ, .ro), (F.TIME_EVT_INFO.HOLDOVER, .ro)], false⟩,
   ⟨.TIME_EVT_LOST, 0x214, [(4, 0x20)], 0x0, [(F.TIME_EVT_LOST.COUNT, .ro)], false⟩,
   ⟨.TIME_SYNCE_CTL, 0x300, [(2, 0x4)], 0x0, [(F.TIME_SYNCE_CTL.EN, .rw), (F.TIME_SYNCE_CTL.SQUELCH, .rw), (F.TIME_SYNCE_CTL.SQ, .ro), (F.TIME_SYNCE_CTL.FREQ, .rw), (F.TIME_SYNCE_CTL.LANE, .rw)], false⟩]

def rows_time_3 : List Row :=
  [⟨.TIME_TL_CTL, 0x400, [], 0x88B50303, [(F.TIME_TL_CTL.ETYPE, .rw), (F.TIME_TL_CTL.TIMEOUT, .rw), (F.TIME_TL_CTL.INTERVAL, .rw)], false⟩,
   ⟨.TIME_TL_SELF, 0x404, [], 0xF8FE, [(F.TIME_TL_SELF.CLASS, .rw), (F.TIME_TL_SELF.ACCURACY, .rw)], false⟩,
   ⟨.TIME_TL_SERIAL_LO, 0x408, [], 0x0, [(F.TIME_TL_SERIAL_LO.SERIAL, .ro)], false⟩,
   ⟨.TIME_TL_SERIAL_HI, 0x40C, [], 0x0, [(F.TIME_TL_SERIAL_HI.SERIAL, .ro)], false⟩,
   ⟨.TIME_TL_PORT, 0x410, [(4, 0x4)], 0x0, [(F.TIME_TL_PORT.EN, .rw), (F.TIME_TL_PORT.PORT, .rw)], false⟩,
   ⟨.TIME_TL_STAT, 0x440, [(4, 0x20)], 0x0, [(F.TIME_TL_STAT.CURRENT, .ro), (F.TIME_TL_STAT.PARENT, .ro), (F.TIME_TL_STAT.PEER_VALID, .ro), (F.TIME_TL_STAT.PEER_HOLDOVER, .ro), (F.TIME_TL_STAT.STEPS, .ro), (F.TIME_TL_STAT.GM_CLASS, .ro), (F.TIME_TL_STAT.GM_ACC, .ro)], false⟩,
   ⟨.TIME_TL_GM_LO, 0x444, [(4, 0x20)], 0x0, [(F.TIME_TL_GM_LO.VALUE, .ro)], false⟩,
   ⟨.TIME_TL_GM_HI, 0x448, [(4, 0x20)], 0x0, [(F.TIME_TL_GM_HI.VALUE, .ro)], false⟩,
   ⟨.TIME_TL_OFS, 0x44C, [(4, 0x20)], 0x0, [(F.TIME_TL_OFS.VALUE, .ro)], false⟩,
   ⟨.TIME_TL_DELAY, 0x450, [(4, 0x20)], 0x0, [(F.TIME_TL_DELAY.VALUE, .ro)], false⟩]

/-- The registers of a region of kind `time`. -/
def rows_time : List Row := rows_time_0 ++ rows_time_1 ++ rows_time_2 ++ rows_time_3

def rows_tt_0 : List Row :=
  [⟨.TT_CTL, 0x0, [], 0x0, [(F.TT_CTL.PENDING, .ro), (F.TT_CTL.EN, .rwp), (F.TT_CTL.CLASSES, .rwp)], true⟩,
   ⟨.TT_FLOOR, 0x4, [], 0xC80, [(F.TT_FLOOR.PENDING, .ro), (F.TT_FLOOR.FLOOR, .rwp)], true⟩,
   ⟨.TT_ADV_CTL, 0x8, [], 0x0, [(F.TT_ADV_CTL.MCAST, .rw), (F.TT_ADV_CTL.KMAX, .rw)], false⟩,
   ⟨.TT_ADV, 0xC, [], 0x0, [(F.TT_ADV.VALID, .ro), (F.TT_ADV.BELOW, .ro), (F.TT_ADV.ADV, .ro)], false⟩,
   ⟨.TT_CAUSE, 0x10, [], 0x0, [(F.TT_CAUSE.LATE_LOST, .w1c), (F.TT_CAUSE.BELOW_ADV, .w1c), (F.TT_CAUSE.LATE, .w1c)], false⟩,
   ⟨.TT_LATE_CTL, 0x14, [], 0x0, [(F.TT_LATE_CTL.POP, .sc), (F.TT_LATE_CTL.LEVEL, .ro)], false⟩,
   ⟨.TT_LATE_ID, 0x20, [], 0x0, [(F.TT_LATE_ID.VALID, .ro), (F.TT_LATE_ID.REASON, .ro), (F.TT_LATE_ID.EPORT, .ro), (F.TT_LATE_ID.IPORT, .ro)], false⟩,
   ⟨.TT_LATE_DS, 0x24, [], 0x0, [(F.TT_LATE_DS.S_LO, .ro)], false⟩,
   ⟨.TT_LATE_DSF, 0x28, [], 0x0, [(F.TT_LATE_DSF.S_HI, .ro), (F.TT_LATE_DSF.FRAC, .ro)], false⟩,
   ⟨.TT_LATE_DNS, 0x2C, [], 0x0, [(F.TT_LATE_DNS.NS, .ro)], false⟩,
   ⟨.TT_LATE_AMT, 0x30, [], 0x0, [(F.TT_LATE_AMT.LATENESS, .ro)], false⟩]

/-- The registers of a region of kind `tt`. -/
def rows_tt : List Row := rows_tt_0

def rows_wb_0 : List Row :=
  [⟨.WB_STATUS, 0x0, [], 0x3, [(F.WB_STATUS.LOADED, .ro), (F.WB_STATUS.ENGINE_UP, .ro)], false⟩,
   ⟨.WB_CAUSE, 0x4, [], 0x0, [(F.WB_CAUSE.EXP_CFG, .w1c), (F.WB_CAUSE.QUOTA_CFG, .w1c), (F.WB_CAUSE.ENGINE, .w1c)], false⟩,
   ⟨.WB_ETYPE, 0x8, [], 0x88B6, [(F.WB_ETYPE.ETYPE, .rwp)], false⟩,
   ⟨.WB_KEY_CTL, 0x10, [], 0x0, [(F.WB_KEY_CTL.GO, .sc), (F.WB_KEY_CTL.SLOT, .rw), (F.WB_KEY_CTL.LEN, .rw), (F.WB_KEY_CTL.RESULT, .ro)], false⟩,
   ⟨.WB_KEY_DATA, 0x20, [(8, 0x4)], 0x0, [(F.WB_KEY_DATA.BYTES, .wo)], false⟩,
   ⟨.WB_KEY_KCV, 0x40, [(16, 0x4)], 0x0, [(F.WB_KEY_KCV.KCV, .ro)], false⟩,
   ⟨.WB_EXP_PORT, 0x80, [(4, 0x10)], 0x0, [(F.WB_EXP_PORT.EN, .rwp), (F.WB_EXP_PORT.PITCH, .rwp), (F.WB_EXP_PORT.CLASS, .rwp), (F.WB_EXP_PORT.PORT, .rwp)], false⟩,
   ⟨.WB_EXP_DA_HI, 0x84, [(4, 0x10)], 0x0, [(F.WB_EXP_DA_HI.BYTE0, .rwp), (F.WB_EXP_DA_HI.BYTE1, .rwp)], false⟩,
   ⟨.WB_EXP_DA_LO, 0x88, [(4, 0x10)], 0x0, [(F.WB_EXP_DA_LO.BYTES, .rwp)], false⟩]

/-- The registers of a region of kind `wb`. -/
def rows_wb : List Row := rows_wb_0

def rows_wbStrm_0 : List Row :=
  [⟨.WB_STRM_CTL, 0x0, [], 0x80100, [(F.WB_STRM_CTL.DMA, .rwp), (F.WB_STRM_CTL.KEY_IDX, .rwp), (F.WB_STRM_CTL.BACKLOG, .rw), (F.WB_STRM_CTL.CLOSE_ROUNDS, .rw), (F.WB_STRM_CTL.FLUSH, .sc)], false⟩,
   ⟨.WB_STRM_QUOTA, 0x4, [], 0x0, [(F.WB_STRM_QUOTA.RATE, .rw)], false⟩,
   ⟨.WB_STRM_STATUS, 0x8, [], 0x0, [(F.WB_STRM_STATUS.OPEN, .ro), (F.WB_STRM_STATUS.COUNT, .ro), (F.WB_STRM_STATUS.HELD, .ro)], false⟩,
   ⟨.WB_STRM_CAUSE, 0xC, [], 0x0, [(F.WB_STRM_CAUSE.NOKEY, .w1c), (F.WB_STRM_CAUSE.EXP_STALL, .w1c), (F.WB_STRM_CAUSE.GAP, .w1c)], false⟩,
   ⟨.WB_STRM_SEQ_LO, 0x10, [], 0x0, [(F.WB_STRM_SEQ_LO.VALUE, .ro)], false⟩,
   ⟨.WB_STRM_SEQ_HI, 0x14, [], 0x0, [(F.WB_STRM_SEQ_HI.VALUE, .ro)], false⟩,
   ⟨.WB_STRM_SHEET_LO, 0x18, [], 0x0, [(F.WB_STRM_SHEET_LO.VALUE, .ro)], false⟩,
   ⟨.WB_STRM_SHEET_HI, 0x1C, [], 0x0, [(F.WB_STRM_SHEET_HI.VALUE, .ro)], false⟩]

/-- The registers of a region of kind `wbStrm`. -/
def rows_wbStrm : List Row := rows_wbStrm_0

def rows_ostCl_0 : List Row :=
  [⟨.OST_SLOT, 0x1000, [(8, 0x40), (16, 0x4)], 0x0, [(F.OST_SLOT.SLOT0, .rw), (F.OST_SLOT.EN0, .rw), (F.OST_SLOT.SLOT1, .rw), (F.OST_SLOT.EN1, .rw), (F.OST_SLOT.SLOT2, .rw), (F.OST_SLOT.EN2, .rw), (F.OST_SLOT.SLOT3, .rw), (F.OST_SLOT.EN3, .rw)], false⟩]

/-- The registers of a region of kind `ostCl`. -/
def rows_ostCl : List Row := rows_ostCl_0

def rows_ostThr_0 : List Row :=
  [⟨.OST_THR_STATE, 0x0, [], 0x0, [(F.OST_THR_STATE.STATE, .ro), (F.OST_THR_STATE.DETACH, .ro), (F.OST_THR_STATE.TRAP, .ro), (F.OST_THR_STATE.OWNER, .ro), (F.OST_THR_STATE.PC, .ro)], false⟩,
   ⟨.OST_THR_FAULT, 0x4, [], 0x0, [(F.OST_THR_FAULT.VALID, .ro), (F.OST_THR_FAULT.CODE, .ro), (F.OST_THR_FAULT.DETAIL, .ro), (F.OST_THR_FAULT.PC, .ro)], false⟩,
   ⟨.OST_THR_FADDR, 0x8, [], 0x0, [(F.OST_THR_FADDR.VALUE, .ro)], false⟩,
   ⟨.OST_THR_WIN, 0xC, [], 0x10, [(F.OST_THR_WIN.SPILLED, .ro), (F.OST_THR_WIN.RESIDENT, .ro), (F.OST_THR_WIN.CWP, .ro)], false⟩,
   ⟨.OST_THR_CTL, 0x10, [], 0x0, [(F.OST_THR_CTL.RESET, .sc)], false⟩,
   ⟨.OST_THR_HSLOT, 0x20, [(4, 0x4)], 0x0, [(F.OST_THR_HSLOT.VALID, .ro), (F.OST_THR_HSLOT.HANDLE, .ro)], false⟩]

/-- The registers of a region of kind `ostThr`. -/
def rows_ostThr : List Row := rows_ostThr_0

def rows_ostOwn_0 : List Row :=
  [⟨.OST_OWN_STATUS, 0x0, [], 0x0, [(F.OST_OWN_STATUS.SUP, .ro), (F.OST_OWN_STATUS.SUP_STATE, .ro), (F.OST_OWN_STATUS.FW, .ro)], false⟩,
   ⟨.OST_OWN_CAUSE, 0x4, [], 0x0, [(F.OST_OWN_CAUSE.FW_IGNORED, .w1c), (F.OST_OWN_CAUSE.CUST_NOSTART, .w1c), (F.OST_OWN_CAUSE.CUST_BUSY, .w1c), (F.OST_OWN_CAUSE.CUST_FAIL, .w1c), (F.OST_OWN_CAUSE.EXC_DROP, .w1c), (F.OST_OWN_CAUSE.FQ_LOST, .w1c), (F.OST_OWN_CAUSE.SUP_FAULT, .w1c), (F.OST_OWN_CAUSE.FAULT, .w1c)], false⟩,
   ⟨.OST_OWN_CTL, 0x8, [], 0x0, [(F.OST_OWN_CTL.SUP_START, .sc), (F.OST_OWN_CTL.KICK, .sc)], false⟩,
   ⟨.OST_OWN_COUNT, 0xC, [], 0x0, [(F.OST_OWN_COUNT.THREADS, .ro), (F.OST_OWN_COUNT.FREE, .ro)], false⟩,
   ⟨.OST_CUST_CTL, 0x10, [], 0x0, [(F.OST_CUST_CTL.EN, .rwp), (F.OST_CUST_CTL.STATE, .ro), (F.OST_CUST_CTL.RESULT, .ro)], false⟩,
   ⟨.OST_CUST_ERR, 0x14, [], 0x0, [(F.OST_CUST_ERR.VALID, .ro), (F.OST_CUST_ERR.CHECK, .ro), (F.OST_CUST_ERR.WORD, .ro)], false⟩,
   ⟨.OST_PS_ADDR, 0x18, [], 0x0, [(F.OST_PS_ADDR.ADDR, .rw)], false⟩,
   ⟨.OST_PS_DATA, 0x1C, [], 0x0, [(F.OST_PS_DATA.WORD, .rw)], false⟩,
   ⟨.OST_FQ_HEAD, 0x20, [], 0x0, [(F.OST_FQ_HEAD.VALID, .ro), (F.OST_FQ_HEAD.LEVEL, .ro), (F.OST_FQ_HEAD.THREAD, .ro)], false⟩]

/-- The registers of a region of kind `ostOwn`. -/
def rows_ostOwn : List Row := rows_ostOwn_0

def rows_cnt_0 : List Row :=
  [⟨.CNT_SNAP_CTL, 0x0, [], 0x0, [(F.CNT_SNAP_CTL.GO, .sc), (F.CNT_SNAP_CTL.THAW, .sc), (F.CNT_SNAP_CTL.BUSY, .ro), (F.CNT_SNAP_CTL.FROZEN, .ro)], false⟩,
   ⟨.CNT_SNAP_S, 0x4, [], 0x0, [(F.CNT_SNAP_S.S_LO, .ro)], false⟩,
   ⟨.CNT_SNAP_SF, 0x8, [], 0x0, [(F.CNT_SNAP_SF.S_HI, .ro), (F.CNT_SNAP_SF.FRAC, .ro)], false⟩,
   ⟨.CNT_SNAP_NS, 0xC, [], 0x0, [(F.CNT_SNAP_NS.NS, .ro)], false⟩,
   ⟨.CNT_SNAP_ROUND, 0x10, [], 0x0, [(F.CNT_SNAP_ROUND.ROUND, .ro)], false⟩,
   ⟨.CNT_CAUSE, 0x20, [], 0x0, [(F.CNT_CAUSE.SMP_CFG, .w1c), (F.CNT_CAUSE.SMP_FULL, .w1c), (F.CNT_CAUSE.MON_CFG, .w1c), (F.CNT_CAUSE.MON, .w1c)], false⟩,
   ⟨.CNT_MON_CTL, 0x100, [(32, 0x40)], 0x0, [(F.CNT_MON_CTL.EN, .rw), (F.CNT_MON_CTL.ABOVE, .ro), (F.CNT_MON_CTL.SRC, .rw), (F.CNT_MON_CTL.SUB, .rw), (F.CNT_MON_CTL.INDEX, .rw)], false⟩,
   ⟨.CNT_MON_N, 0x104, [(32, 0x40)], 0x0, [(F.CNT_MON_N.VALUE, .rw)], false⟩,
   ⟨.CNT_MON_MAX, 0x108, [(32, 0x40)], 0x0, [(F.CNT_MON_MAX.VALUE, .rc)], false⟩,
   ⟨.CNT_SMP_CTL, 0x1000, [], 0x400, [(F.CNT_SMP_CTL.EN, .rw), (F.CNT_SMP_CTL.RESTART, .sc), (F.CNT_SMP_CTL.MODE, .rw), (F.CNT_SMP_CTL.JITTER, .rw), (F.CNT_SMP_CTL.PERIOD, .rw)], false⟩,
   ⟨.CNT_SMP_FILT, 0x1004, [], 0x7F, [(F.CNT_SMP_FILT.THREAD_EN, .rw), (F.CNT_SMP_FILT.THREAD, .rw), (F.CNT_SMP_FILT.REGION, .rw), (F.CNT_SMP_FILT.CLASSES, .rw)], false⟩,
   ⟨.CNT_SMP_PTR, 0x1008, [], 0x0, [(F.CNT_SMP_PTR.FULL, .ro), (F.CNT_SMP_PTR.WRAPPED, .ro), (F.CNT_SMP_PTR.NEXT, .ro), (F.CNT_SMP_PTR.COUNT, .ro)], false⟩]

def rows_cnt_1 : List Row :=
  [⟨.CNT_SMP_ENTRY_LO, 0x8000, [(4096, 0x8)], 0x0, [(F.CNT_SMP_ENTRY_LO.VALUE, .ro)], false⟩,
   ⟨.CNT_SMP_ENTRY_HI, 0x8004, [(4096, 0x8)], 0x0, [(F.CNT_SMP_ENTRY_HI.VALUE, .ro)], false⟩]

/-- The registers of a region of kind `cnt`. -/
def rows_cnt : List Row := rows_cnt_0 ++ rows_cnt_1

def rows_ring_0 : List Row :=
  [⟨.DMA_RING_CTL, 0x0, [], 0x6, [(F.DMA_RING_CTL.EN, .rw), (F.DMA_RING_CTL.STOPPED, .ro), (F.DMA_RING_CTL.SIZE_LOG2, .rwi)], false⟩,
   ⟨.DMA_RING_BASE_LO, 0x4, [], 0x0, [(F.DMA_RING_BASE_LO.ADDR_LO, .rwi)], false⟩,
   ⟨.DMA_RING_BASE_HI, 0x8, [], 0x0, [(F.DMA_RING_BASE_HI.ADDR_HI, .rwi)], false⟩,
   ⟨.DMA_RING_TAIL, 0xC, [], 0x0, [(F.DMA_RING_TAIL.INDEX, .rw)], false⟩,
   ⟨.DMA_RING_HEAD, 0x10, [], 0x0, [(F.DMA_RING_HEAD.INDEX, .ro)], false⟩,
   ⟨.DMA_RING_ERR, 0x14, [], 0x0, [(F.DMA_RING_ERR.VALID, .ro), (F.DMA_RING_ERR.CODE, .ro), (F.DMA_RING_ERR.INDEX, .ro)], false⟩]

/-- The registers of a region of kind `ring`. -/
def rows_ring : List Row := rows_ring_0

def rows_dma_0 : List Row :=
  [⟨.DMA_CAUSE, 0x100, [], 0x0, [(F.DMA_CAUSE.IDLE_VIOL, .w1c), (F.DMA_CAUSE.DONE, .w1c), (F.DMA_CAUSE.RING_ERR, .w1c), (F.DMA_CAUSE.DESC_ERR, .w1c), (F.DMA_CAUSE.EXC_DROP, .w1c), (F.DMA_CAUSE.BAD_FREE, .w1c), (F.DMA_CAUSE.TX_REFUSED, .w1c)], false⟩,
   ⟨.DMA_FREE, 0x104, [], 0x0, [(F.DMA_FREE.HANDLE, .wo)], false⟩,
   ⟨.DMA_EXC_STEER, 0x800, [(64, 0x4)], 0x0, [(F.DMA_EXC_STEER.ENTRY, .rw)], false⟩]

/-- The registers of a region of kind `dma`. -/
def rows_dma : List Row := rows_dma_0

def rows_sb_0 : List Row :=
  [⟨.SB_I2C_CTL, 0x1000, [(8, 0x100)], 0x301F4, [(F.SB_I2C_CTL.SPEED, .rw), (F.SB_I2C_CTL.RETRIES, .rw), (F.SB_I2C_CTL.GAP_US, .rw)], false⟩,
   ⟨.SB_I2C_CMD, 0x1004, [(8, 0x100)], 0x0, [(F.SB_I2C_CMD.GO, .sc), (F.SB_I2C_CMD.KIND, .rw), (F.SB_I2C_CMD.WLEN, .rw), (F.SB_I2C_CMD.RLEN, .rw), (F.SB_I2C_CMD.ADDR, .rw)], false⟩,
   ⟨.SB_I2C_STATUS, 0x1008, [(8, 0x100)], 0x0, [(F.SB_I2C_STATUS.RESULT, .ro), (F.SB_I2C_STATUS.RECOVERED, .ro), (F.SB_I2C_STATUS.TRIES, .ro), (F.SB_I2C_STATUS.BYTES, .ro)], false⟩,
   ⟨.SB_I2C_DATA, 0x1040, [(8, 0x100), (32, 0x4)], 0x0, [(F.SB_I2C_DATA.BYTES, .rw)], false⟩,
   ⟨.SB_GPIO_OUT, 0x3000, [], 0x0, [(F.SB_GPIO_OUT.PINS, .rw)], false⟩,
   ⟨.SB_GPIO_OE, 0x3004, [], 0x0, [(F.SB_GPIO_OE.PINS, .rw)], false⟩,
   ⟨.SB_GPIO_IN, 0x3008, [], 0x0, [(F.SB_GPIO_IN.PINS, .ro)], false⟩,
   ⟨.SB_CAUSE, 0x4000, [], 0x0, [(F.SB_CAUSE.I2C_STUCK, .w1c), (F.SB_CAUSE.I2C_NACK, .w1c)], false⟩,
   ⟨.SB_CMIS_WR, 0x4004, [], 0x0, [(F.SB_CMIS_WR.PITCH, .rw)], false⟩,
   ⟨.SB_CAGE_MAP, 0x8000, [(1024, 0x4)], 0x0, [(F.SB_CAGE_MAP.VALID, .rw), (F.SB_CAGE_MAP.MASTER, .rw), (F.SB_CAGE_MAP.MUX_ADDR, .rw), (F.SB_CAGE_MAP.MUX_CHAN, .rw), (F.SB_CAGE_MAP.MOD_ADDR, .rw)], false⟩]

/-- The registers of a region of kind `sb`. -/
def rows_sb : List Row := rows_sb_0

/-- The counters of a region of kind `port`. -/
def crows_port : List CRow :=
  [⟨0x100, []⟩, ⟨0x108, []⟩, ⟨0x110, []⟩, ⟨0x118, []⟩, ⟨0x120, []⟩, ⟨0x128, []⟩, ⟨0x130, []⟩, ⟨0x138, []⟩, ⟨0x140, []⟩, ⟨0x148, []⟩, ⟨0x150, []⟩, ⟨0x158, []⟩, ⟨0x160, []⟩, ⟨0x168, []⟩, ⟨0x170, []⟩, ⟨0x178, []⟩, ⟨0x180, []⟩, ⟨0x188, []⟩, ⟨0x190, []⟩, ⟨0x198, []⟩, ⟨0x1A0, []⟩, ⟨0x1A8, []⟩, ⟨0x1B0, []⟩, ⟨0x1B8, []⟩, ⟨0x1C0, []⟩, ⟨0x1C8, []⟩, ⟨0x1D0, []⟩, ⟨0x1D8, []⟩, ⟨0x1E0, []⟩, ⟨0x1E8, []⟩, ⟨0x1F0, []⟩, ⟨0x1F8, []⟩, ⟨0x200, []⟩]

/-- The counters of a region of kind `par`. -/
def crows_par : List CRow :=
  [⟨0x100, [(16, 0x8)]⟩, ⟨0x180, []⟩, ⟨0x188, []⟩, ⟨0x190, []⟩, ⟨0x198, []⟩]

/-- The counters of a region of kind `stg`. -/
def crows_stg : List CRow :=
  [⟨0x400, [(4, 0x100)]⟩, ⟨0x408, [(4, 0x100)]⟩, ⟨0x410, [(4, 0x100)]⟩, ⟨0x418, [(4, 0x100)]⟩, ⟨0x420, [(4, 0x100)]⟩, ⟨0x428, [(4, 0x100)]⟩, ⟨0x430, [(4, 0x100)]⟩, ⟨0x438, [(4, 0x100)]⟩, ⟨0x440, [(4, 0x100)]⟩, ⟨0x448, [(4, 0x100)]⟩, ⟨0x450, [(4, 0x100)]⟩, ⟨0x458, [(4, 0x100)]⟩, ⟨0x460, [(4, 0x100)]⟩, ⟨0x468, [(4, 0x100)]⟩, ⟨0x470, [(4, 0x100)]⟩, ⟨0x800, []⟩, ⟨0x808, []⟩, ⟨0x810, []⟩, ⟨0x3300, [(2, 0x400)]⟩, ⟨0x3308, [(2, 0x400)]⟩, ⟨0x3310, [(2, 0x400)]⟩, ⟨0x60000, [(1024, 0x10)]⟩, ⟨0x60008, [(1024, 0x10)]⟩]

/-- The counters of a region of kind `tc`. -/
def crows_tc : List CRow :=
  [⟨0x2000, []⟩, ⟨0x2008, []⟩, ⟨0x2010, []⟩, ⟨0x2018, []⟩, ⟨0x2020, []⟩, ⟨0x2028, []⟩]

/-- The counters of a region of kind `ver`. -/
def crows_ver : List CRow :=
  [⟨0x180, []⟩]

/-- The counters of a region of kind `bpmPage`. -/
def crows_bpmPage : List CRow :=
  [⟨0x800, []⟩, ⟨0x808, []⟩, ⟨0x810, []⟩, ⟨0x818, []⟩, ⟨0x820, []⟩, ⟨0x828, []⟩, ⟨0x830, []⟩, ⟨0x838, []⟩, ⟨0x840, []⟩]

/-- The counters of a region of kind `bpm`. -/
def crows_bpm : List CRow :=
  [⟨0x400, [(16, 0x10)]⟩, ⟨0x408, [(16, 0x10)]⟩, ⟨0x500, []⟩]

/-- The counters of a region of kind `tmPipe`. -/
def crows_tmPipe : List CRow :=
  [⟨0x2000, [(256, 0x8)]⟩]

/-- The counters of a region of kind `tmPort`. -/
def crows_tmPort : List CRow :=
  [⟨0x340, []⟩, ⟨0x400, [(16, 0x40)]⟩, ⟨0x408, [(16, 0x40)]⟩, ⟨0x410, [(16, 0x40)]⟩, ⟨0x418, [(16, 0x40)]⟩, ⟨0x420, [(16, 0x40)]⟩, ⟨0x428, [(16, 0x40)]⟩, ⟨0x430, [(16, 0x40)]⟩, ⟨0x438, [(16, 0x40)]⟩]

/-- The counters of a region of kind `tt`. -/
def crows_tt : List CRow :=
  [⟨0x100, [(7, 0x8)]⟩, ⟨0x140, []⟩]

/-- The counters of a region of kind `wbStrm`. -/
def crows_wbStrm : List CRow :=
  [⟨0x100, []⟩, ⟨0x108, []⟩, ⟨0x110, []⟩, ⟨0x118, []⟩, ⟨0x120, []⟩, ⟨0x128, []⟩, ⟨0x130, []⟩, ⟨0x138, []⟩]

/-- The counters of a region of kind `ostOwn`. -/
def crows_ostOwn : List CRow :=
  [⟨0x100, []⟩, ⟨0x108, []⟩, ⟨0x110, []⟩, ⟨0x118, []⟩, ⟨0x120, []⟩, ⟨0x128, []⟩, ⟨0x130, []⟩, ⟨0x138, []⟩, ⟨0x140, []⟩]

/-- The counters of a region of kind `berth`. -/
def crows_berth : List CRow :=
  [⟨0x0, []⟩, ⟨0x40, []⟩, ⟨0x8, []⟩, ⟨0x48, []⟩, ⟨0x10, []⟩, ⟨0x50, []⟩, ⟨0x18, []⟩, ⟨0x58, []⟩, ⟨0x20, []⟩, ⟨0x60, []⟩, ⟨0x1000, [(256, 0x8)]⟩]

/-- The counters of a region of kind `cnt`. -/
def crows_cnt : List CRow :=
  [⟨0x110, [(32, 0x40)]⟩, ⟨0x118, [(32, 0x40)]⟩, ⟨0x1010, []⟩, ⟨0x1018, []⟩, ⟨0x1020, []⟩]

/-- The counters of a region of kind `pst`. -/
def crows_pst : List CRow :=
  [⟨0xA00, []⟩, ⟨0xA08, []⟩, ⟨0xA10, []⟩, ⟨0xA18, []⟩]

/-- The counters of a region of kind `dma`. -/
def crows_dma : List CRow :=
  [⟨0x200, []⟩, ⟨0x208, []⟩, ⟨0x210, []⟩, ⟨0x218, []⟩, ⟨0x220, []⟩]

/-- The register map of a region. -/
def rowsOf : Region → List Row
  | .dev => rows_dev
  | .irqPage _ => rows_irqPage
  | .irqG => rows_irqG
  | .pst => rows_pst
  | .clk => rows_clk
  | .pitG => rows_pitG
  | .pitPage _ => rows_pitPage
  | .time => rows_time
  | .tt _ => rows_tt
  | .wb => rows_wb
  | .wbStrm _ => rows_wbStrm
  | .lg _ => rows_lg
  | .lane _ _ => rows_lane
  | .port _ => rows_port
  | .bpm => rows_bpm
  | .bpmPage _ => rows_bpmPage
  | .bpmWr _ => rows_bpmWr
  | .tmPipe _ => rows_tmPipe
  | .tmPort _ => rows_tmPort
  | .ostCl _ => rows_ostCl
  | .ostThr _ _ _ => rows_ostThr
  | .ostOwn _ => rows_ostOwn
  | .cnt _ => rows_cnt
  | .dma _ => rows_dma
  | .ring _ _ => rows_ring
  | .sb => rows_sb
  | .par _ => rows_par
  | .stg _ _ => rows_stg
  | .tc _ => rows_tc
  | .ver _ => rows_ver
  | .berth _ => []
  | .none => []

/-- The counter table of a region. -/
def crowsOf : Region → List CRow
  | .dev => []
  | .irqPage _ => []
  | .irqG => []
  | .pst => crows_pst
  | .clk => []
  | .pitG => []
  | .pitPage _ => []
  | .time => []
  | .tt _ => crows_tt
  | .wb => []
  | .wbStrm _ => crows_wbStrm
  | .lg _ => []
  | .lane _ _ => []
  | .port _ => crows_port
  | .bpm => crows_bpm
  | .bpmPage _ => crows_bpmPage
  | .bpmWr _ => []
  | .tmPipe _ => crows_tmPipe
  | .tmPort _ => crows_tmPort
  | .ostCl _ => []
  | .ostThr _ _ _ => []
  | .ostOwn _ => crows_ostOwn
  | .cnt _ => crows_cnt
  | .dma _ => crows_dma
  | .ring _ _ => []
  | .sb => []
  | .par _ => crows_par
  | .stg _ _ => crows_stg
  | .tc _ => crows_tc
  | .ver _ => crows_ver
  | .berth _ => crows_berth
  | .none => []

/-- The first address of a region. -/
def baseOf : Region → Nat
  | .dev => 0x0
  | .irqPage n => 0x10000 + n * 0x200
  | .irqG => 0x10000
  | .pst => 0x20000
  | .clk => 0x30000
  | .pitG => 0x40000
  | .pitPage n => 0x40000 + n * 0x1000
  | .time => 0x80000
  | .tt n => 0xC0000 + n * 0x800
  | .wb => 0xC9000
  | .wbStrm n => 0xCA000 + n * 0x400
  | .lg g => 0x100000 + g * 0x4000
  | .lane g l => 0x100800 + g * 0x4000 + l * 0x380
  | .port n => 0x200000 + n * 0x400
  | .bpm => 0x300000
  | .bpmPage n => 0x301000 + n * 0x1000
  | .bpmWr p => 0x320000 + p * 0x100
  | .tmPipe p => 0x410000 + p * 0x4000
  | .tmPort n => 0x500000 + n * 0x800
  | .ostCl c => 0x800000 + c * 0x100000
  | .ostThr c k t => 0x810000 + c * 0x100000 + k * 0x1000 + t * 0x100
  | .ostOwn n => 0x880000 + n * 0x1000
  | .cnt n => 0xC00000 + n * 0x10000
  | .dma f => 0xD10000 + f * 0x1000
  | .ring f r => 0xD10000 + f * 0x1000 + r * 0x40
  | .sb => 0xE00000
  | .par p => 0x10000000 + p * 0x1000000
  | .stg p s => 0x10100000 + p * 0x1000000 + s * 0x80000
  | .tc p => 0x10D00000 + p * 0x1000000
  | .ver p => 0x10E00000 + p * 0x1000000
  | .berth p => 0x10F00000 + p * 0x1000000
  | .none => 0

/-- The region that an address of the register window lies in (Tables 22.1 to 22.3). -/
def regionOf (a : Nat) : Region :=
  if a < 0x10000 then .dev
  else if a < 0x12200 then .irqPage ((a - 0x10000) / 0x200)
  else if a < 0x20000 then .irqG
  else if a < 0x30000 then .pst
  else if a < 0x40000 then .clk
  else if a < 0x41000 then .pitG
  else if a < 0x51000 then .pitPage ((a - 0x40000) / 0x1000)
  else if a < 0x80000 then .none
  else if a < 0xC0000 then .time
  else if a < 0xC0800 then .none
  else if a < 0xC8800 then .tt ((a - 0xC0000) / 0x800)
  else if a < 0xC9000 then .none
  else if a < 0xCA000 then .wb
  else if a < 0xCE400 then .wbStrm ((a - 0xCA000) / 0x400)
  else if a < 0x100000 then .none
  else if a < 0x200000 then
    let g := (a - 0x100000) / 0x4000
    let o := (a - 0x100000) % 0x4000
    if o < 0x800 then .lg g
    else if (o - 0x800) / 0x380 < 16 then .lane g ((o - 0x800) / 0x380) else .none
  else if a < 0x300000 then .port ((a - 0x200000) / 0x400)
  else if a < 0x301000 then .bpm
  else if a < 0x312000 then .bpmPage ((a - 0x301000) / 0x1000)
  else if a < 0x320000 then .none
  else if a < 0x321000 then .bpmWr ((a - 0x320000) / 0x100)
  else if a < 0x410000 then .none
  else if a < 0x450000 then .tmPipe ((a - 0x410000) / 0x4000)
  else if a < 0x500000 then .none
  else if a < 0x700000 then .tmPort ((a - 0x500000) / 0x800)
  else if a < 0x800000 then .none
  else if a < 0xC00000 then
    let c := (a - 0x800000) / 0x100000
    let o := (a - 0x800000) % 0x100000
    if o < 0x10000 then .ostCl c
    else if o < 0x18000 then .ostThr c ((o - 0x10000) / 0x1000) (o % 0x1000 / 0x100)
    else if c = 0 ∧ 0x80000 ≤ o ∧ o < 0x91000 then .ostOwn ((o - 0x80000) / 0x1000)
    else .none
  else if a < 0xD10000 then .cnt ((a - 0xC00000) / 0x10000)
  else if a < 0xD21000 then
    let f := (a - 0xD10000) / 0x1000
    let o := (a - 0xD10000) % 0x1000
    if o < 0x100 then .ring f (o / 0x40) else .dma f
  else if a < 0xE00000 then .none
  else if a < 0xF00000 then .sb
  else if a < 0x10000000 then .none
  else if a < 0x20000000 then
    let p := (a - 0x10000000) / 0x1000000
    let o := a % 0x1000000
    if o < 0x100000 then .par p
    else if o < 0xD00000 then .stg p ((o - 0x100000) / 0x80000)
    else if o < 0xE00000 then .tc p
    else if o < 0xF00000 then .ver p
    else .berth p
  else .none

/-- Registers that several windows or requesters share are held once, above the register window: the Pitch-wide
exception policer (R150) and version registers, the pipeline-wide swap registers, and the time shadows, one pair for
each requester. This is one window address of each, for its layout and its reset value. -/
def windowOf (a : Nat) : Nat :=
  if a < 0x20000000 then a
  else if a < 0x20100000 then 0x10000000 + a % 0x1000
  else if a < 0x20200000 then 0x10E00000 + a % 0x1000
  else if a < 0x20300000 then 0x10100000 + a % 0x4000
  else 0x80000 + a % 0x10

/-- The indexes that an offset `d` from the first instance of a register selects, `none` where it selects none. -/
def splitIdx : List (Nat × Nat) → Nat → Option (List Nat)
  | [], d => if d = 0 then some [] else none
  | (c, st) :: rest, d =>
    if d / st < c then (splitIdx rest (d % st)).map (d / st :: ·) else none

/-- The row of a register map whose register holds the offset `o`, with the register's own indexes. -/
def findRow : List Row → Nat → Option (Row × List Nat)
  | [], _ => none
  | r :: rs, o =>
    if r.off ≤ o then
      match splitIdx r.dims (o - r.off) with
      | some ix => some (r, ix)
      | none => findRow rs o
    else findRow rs o

/-- The register at an address of the window: its region, its row and its own indexes. -/
def findReg (a : Nat) : Option (Region × Row × List Nat) :=
  let g := regionOf a
  (findRow (rowsOf g) (a - baseOf g)).map fun (r, ix) => (g, r, ix)

/-- Whether the offset `o` is COUNT_LO (`some false`) or COUNT_HI (`some true`) of a counter of the table. -/
def findCRow : List CRow → Nat → Option Bool
  | [], _ => none
  | r :: rs, o =>
    if r.off ≤ o ∧ (splitIdx r.dims (o - r.off)).isSome then some false
    else if r.off + 4 ≤ o ∧ (splitIdx r.dims (o - 4 - r.off)).isSome then some true
    else findCRow rs o

/-- The counter at an address: the address of its COUNT_LO word, and whether the address is that of COUNT_HI. -/
def findCnt (a : Nat) : Option (Nat × Bool) :=
  let g := regionOf a
  (findCRow (crowsOf g) (a - baseOf g)).map fun hi => (if hi then a - 4 else a, hi)

/-- The reset value of the register at an address: the value of its register map; the registers whose reset value
depends on their index (LG_TX_FIR, STG_EM_SEED, OST_SLOT, IRQ_CTL) follow the words of their chapters; the fused values
(DEV_ID_VER, DEV_ID_FUSED_PIPES, DEV_ID_KEYHASH, the serial) are read from `State.fuse`. An address that holds no register reads zero (R578). -/
def resetValue (a : Nat) : BitVec 32 :=
  match findReg (windowOf a) with
  | none => 0
  | some (g, r, ix) =>
    match r.id, g, ix with
    | .LG_TX_FIR, _, [t] => if t = 2 ∨ t = 4 then 0xF8 else if t = 3 then 0x70 else 0
    | .STG_EM_SEED, _, [_, w] => BitVec.ofNat 32 (w * 0x55555555)
    | .OST_SLOT, _, [_, i] => BitVec.ofNat 32 (0x80808080 + 0x03020100 + (4 * i % 16) * 0x01010101)
    | .IRQ_CTL, .irqPage n, _ => if n = 0 then 0x40000011 else 0x11
    | _, _, _ => BitVec.ofNat 32 r.reset

end Sys2Proof.Machine
end

