-- ==== Sys2Proof/Machine/State.lean ====
section
/-! DEFINITION. The state of the part, as plain data, and the part right after a power-on reset. -/

namespace Sys2Proof.Machine

/-! ### Common pieces -/

/-- A value of the time base: whole seconds S (48 bits), nanoseconds N below 10^9, and the fraction F in 2^-16 ns. -/
structure TimeVal where
  s : Nat := 0
  n : Nat := 0
  f : Nat := 0
  deriving DecidableEq, Repr

/-- A token bucket. `lack` is how far the bucket is below full, in 1/128,000 byte: a rate of r Mb/s adds r of these units
in each 1/16 ns. `at16` is the instant, in 1/16 ns, up to which the refill is counted. 0 is a full bucket (R630). -/
structure Bucket where
  lack : Nat := 0
  at16 : Nat := 0
  deriving DecidableEq, Repr

/-- What the fuses of one part hold (R4, R593, R627, R628). -/
structure Fuse where
  /-- DEV_ID_FUSED_PIPES: 0 on the AEL-L9-1024, 0xFF00 on the AEL-L9-512. -/
  fusedPipes : BitVec 16 := 0
  /-- DEV_ID_VER: 0x0200 for revision B0. -/
  version : Word := 0x0200
  /-- The fused serial (R628). -/
  serial : BitVec 64 := 0
  /-- The digest of the loader's key, fused at test: a SHA-384 (R593). -/
  keyHash : Bytes := []
  deriving DecidableEq, Repr

/-- An entry of a history queue (R564). -/
structure HistEntry where
  t : TimeVal
  sev : Nat
  src : Nat
  inst : Nat
  bit : Nat
  /-- The management fabric cycle of the start (log entry 116). -/
  cyc : Nat := 0
  deriving DecidableEq, Repr

/-- The settings of a function's configuration space: those that its interrupt reads (R560), and the codes of Max_Payload_Size and
Max_Read_Request_Size, 128 bytes times a power of two (R576). PRESUMED: they start at 128 and 512 bytes, as PCI Express has it (log entry
172). -/
structure PcieCfg where
  msiEn : Bool := false
  msiMask : Bool := false
  /-- A message that fell due while masked (the Pending bit). -/
  msiHeld : Bool := false
  intxDis : Bool := false
  mps : Nat := 0
  mrrs : Nat := 2
  deriving DecidableEq, Repr

/-- What configuration space gives of a function and software does not change (R574 to R576): IDs and class code, the bytes that BAR0 maps, the
MSI vectors, the bits of a tag, and whether its own requests set Relaxed Ordering. -/
structure PcieIdent where
  vendor : Nat := 0x1D9E
  device : Nat
  classCode : Nat := 0x020000
  bar0 : Nat := 512 * 2 ^ 20
  msiVectors : Nat := 1
  tagBits : Nat := 10
  relaxed : Bool := false
  deriving DecidableEq, Repr

/-- The training of a lane rate (R117): IEEE 802.3 Clause 72 at 26.5625 Gb/s, Clause 136 at 53.125 Gb/s, Clause 162 at 106.25 Gb/s,
and that of IEEE 802.3dj at 212.5 Gb/s. -/
inductive TrainClause where
  | c72
  | c136
  | c162
  | dj
  deriving DecidableEq, Repr

/-- What the output of a lane shows (R83, R90, R91, R96, R99, R116, R117, R119). -/
inductive LineSig where
  | squelched
  /-- The 1010 pattern of the clock lane of a forwarded-clock group (R83). -/
  | clock
  /-- A pattern of Table 3.3 on a PAM4 or an NRZ lane, from the generator's register; code 0 is an idle generator (R96, R97). -/
  | pattern (pat : Nat) (pam4 : Bool) (seed : Nat)
  /-- The received symbols, retimed (R99, far-end loopback). -/
  | farEnd
  /-- Auto-negotiation with one technology ability, a MODE and a WIDTH, and one FEC ability, the codeword length (R116). -/
  | autoNeg (mode width : Nat) (fec : Option Nat)
  | training (c : TrainClause)
  | localFault
  | remoteFault
  /-- Idle, without frames. -/
  | idle
  /-- Frames and idle of a port whose link is up. -/
  | data
  /-- Onazel training blocks, and Onazel markers and frames (R126, R127). -/
  | onzTrain
  | onzData
  deriving DecidableEq, Repr

/-- What an I2C master does on its bus (R598 to R600): START, an address with its read bit, a byte written, bytes read, STOP, and the nine
pulses that free a held bus. -/
inductive I2cTok where
  | start
  | addr (a : Nat) (read : Bool)
  | write (b : Byte)
  | read (n : Nat)
  | stop
  | pulses
  deriving DecidableEq, Repr

/-- What the part gives to the outside at its lands and over PCI Express, in order. -/
inductive Emit where
  /-- The output of a lane begins to show this. -/
  | line (lane : Nat) (sig : LineSig)
  /-- Symbols that an Onazel port sends, markers and stuff symbols included (R121 to R127). -/
  | symbols (port : Nat) (syms : List Nat)
  /-- Blocks that a forwarded-clock port sends, each as lane, sync header and eight bytes (R131, R132). -/
  | blocks (port : Nat) (bs : List (Nat × Nat × Bytes))
  /-- Bytes that leave a port, destination address through FCS; `cut` when a disable or a reset ended the frame early. -/
  | frame (port : Nat) (bytes : Bytes) (cut : Bool)
  /-- A frame that the MAC or the part builds itself (pause, PFC, time link, calibration). -/
  | ctrlFrame (port : Nat) (bytes : Bytes)
  /-- The answer to a coefficient request of a link training frame, as PORT, lane and "coefficient at limit" (R117). -/
  | trainAnswer (port lane : Nat) (atLimit : Bool)
  /-- The MSI message of a function (R560). -/
  | msi (fn : Nat)
  /-- Bytes that the part writes at the buffer of a descriptor in host memory (R581). -/
  | hostWrite (fn ring index : Nat) (bytes : Bytes)
  /-- A descriptor that the part writes back: the bytes of LEN, HANDLE and STATUS, each at its offset in the descriptor, in the order in
  which they are written (R581, Table 22.4, Table 22.5). -/
  | hostDesc (fn ring index : Nat) (fields : List (Nat × Bytes))
  /-- The completion of a register read: requester, address, value. -/
  | readData (rq addr : Nat) (v : BitVec 64)
  /-- The data of an SMBus read, with its PEC where the host clocks it; or the target does not acknowledge (R602). -/
  | smbus (bytes : Bytes)
  | smbusNack
  /-- A TAP instruction taken, and what the register then selected holds where the manual gives it (R603). -/
  | jtag (ir : BitVec 8) (dr : Option (BitVec 32))
  /-- What the lands show under a TAP instruction that has taken them: the boundary-scan register, or nothing under HIGHZ (R90, R603). -/
  | scan (bits : Option (List Bool))
  /-- An edge of a PPS output (R340): the output and its new level. -/
  | pps (k : Nat) (level : Bool)
  /-- A SyncE output begins to give out the recovered clock of a lane, divided to this frequency in kHz, or is held low (R359, R360). -/
  | synce (j : Nat) (clk : Option (Nat × Nat))
  /-- What an I2C master does on its bus, at its speed in kHz (R598 to R600). -/
  | i2c (master khz : Nat) (bus : List I2cTok)
  /-- What the vendor firmware does on the module of port n: the cage that serves it, as its word of SB_CAGE_MAP, bank, page and offset, and the
  bytes written (R601). -/
  | cmis (port : Nat) (cage : BitVec 32) (bank page off : Nat) (bytes : Bytes)
  /-- A read of the SPI flash that the part begins: its read mode, 3 or 4 address bytes, and the first address (R541, R597). -/
  | spiRead (mode addrBytes addr : Nat)
  /-- A read request to host memory that function `fn` of the part makes: an address and a length (R576, R592, R595, R596). -/
  | hostRead (fn addr len : Nat)
  /-- The part has left the SPI bus (R597). -/
  | spiFree
  deriving DecidableEq, Repr

/-- The tag of a held high word (R528): the address of the low word whose read loaded it, and the word. -/
structure Hold where
  tag : Option Nat := none
  word : Word := 0
  deriving DecidableEq, Repr

/-! ### Lanes and ports (chapters "SerDes Lanes" and "Ports, MACs and Line Modes") -/

/-- A step that continuous adaptation took at the last boundary: the setting (0 to 11: a tap; 12: CTLE), its value
before the step, and the Lane Margin Figure before it (R86). -/
structure AdaptStep where
  setting : Nat
  old : Nat
  lmf : Nat
  deriving DecidableEq, Repr

/-- What a lane holds beside its registers. -/
structure LaneSt where
  /-- The lane was locked, adapted and without an eye scan since the Round began (R88). -/
  whole : Bool := false
  /-- Consecutive counting Rounds with the LMF below WARN and below ALARM, counted to 2 (R89). -/
  warnRun : Nat := 0
  alarmRun : Nat := 0
  /-- The LMF_WARN and LMF_ALARM causes persist (R89). -/
  warnOn : Bool := false
  alarmOn : Bool := false
  /-- The step of continuous adaptation that the next boundary judges (R86). -/
  step : Option AdaptStep := none
  /-- The tap set last loaded, t0 to t5, signed (R85, R127). -/
  loaded : List Int := []
  /-- What the lane gives to its output; an IEEE 1149.6 instruction that takes the lands covers it (R90). -/
  sig : LineSig := .squelched
  /-- The deskew delay of a data lane of a forwarded-clock group, in 1/32 UI (R83). -/
  deskew : Int := 0
  /-- The pattern generator's register (R97). -/
  gen : Nat := 0
  /-- Block lock of a forwarded-clock lane, the sync headers seen in the present window of 64 and the bad ones among them (R131). -/
  blkLock : Bool := false
  hdrs : Nat := 0
  badHdrs : Nat := 0
  deriving DecidableEq, Repr

/-- A training block's payload as it stands between two Onazel partners (Table 4.5). -/
structure OnzBlock where
  nonce : Nat
  state : Nat
  role : Nat
  reqTap : Nat
  reqDir : Nat
  ack : Nat
  count : Nat
  seq : Nat
  deriving DecidableEq, Repr

/-- The Onazel training state of a port beside PORT_STATUS (R128, R129). -/
structure OnzSt where
  nonce : Nat := 0
  /-- Consecutive valid blocks received since SEEK. -/
  good : Nat := 0
  partnerNonce : Option Nat := none
  partnerReady : Bool := false
  /-- The ACK that the partner last sent. -/
  partnerAck : Nat := 0
  /-- The tap change this end asks for: tap and direction; 6 is no request (R128 step 3). -/
  reqTap : Nat := 6
  reqDir : Nat := 0
  /-- The ACK this end sends for the partner's request. -/
  ack : Nat := 0
  /-- COUNT of the next GO block. -/
  count : Nat := 0
  /-- The number of the next block sent, and whether a block with RX_READY has been (R128 step 5). -/
  seq : Nat := 0
  readySent : Bool := false
  deriving DecidableEq, Repr

/-- What a port holds beside its registers. -/
structure PortSt where
  /-- FEC of the applied formation (Table 4.1). -/
  fec : Nat := 0
  /-- The lanes of the port are in the timeline of R93. -/
  timeline : Bool := false
  /-- A port reset of R532 is in progress. -/
  inPortReset : Bool := false
  /-- For each paused class the instant, in 1/16 ns, at which its pause time ends (R112). -/
  pause : SMap (Option Nat) := []
  /-- Auto-negotiation failed and waits 1 s to restart (R116). -/
  anWait : Bool := false
  onz : OnzSt := {}
  /-- The receive path has locked since the port started (R91); the PCS, and the FEC, have lock (R119). -/
  locked : Bool := false
  pcsLock : Bool := false
  fecLock : Bool := false
  /-- The 58-bit states of the transmit scrambler and of the receive descrambler (R121, R131). -/
  scram : Nat := 0
  descram : Nat := 0
  /-- The register of the PRBS31 of training blocks (R127), 0 before the first. -/
  prbs : Nat := 0
  /-- The instant, in 1/6800 ns, at which the next training block starts (R127). -/
  due : Nat := 0
  /-- A forwarded-clock port: the block slots sent on each lane since its last alignment block, that block's own among them (R132); the
  instant, in 1/6800 ns, up to which it has sent blocks; the blocks of started frames that wait for a slot; and the bytes of gap that stand
  behind the last of them, counted to 12 (R107, R131). -/
  blk : Nat := 0
  sent : Nat := 0
  fwdQ : List (Nat × Bytes) := []
  gap : Nat := 12
  /-- Frames on their way through a near-end or parallel loopback, each with its failing its check; and the instant, in 1/16 ns, of the
  last change of LOOP on a lane of the port (R99). -/
  loopRx : List (Bytes × Bool) := []
  loopAt : Nat := 0
  /-- The level of the last symbol sent and its run length (R123). -/
  runLevel : Nat := 0
  runLen : Nat := 0
  /-- Forwarded-clock alignment: consecutive periods with every block valid, consecutive periods without, and the lane
  at each position (R132). -/
  alignGood : Nat := 0
  alignBad : Nat := 0
  aligned : Bool := false
  order : List Nat := []
  deriving DecidableEq, Repr

/-! ### Packets and pipelines (chapters "Architecture", "Parsing", "Match-Action Stages", "Associative Search",
"Action Microcode", "Updating Tables") -/

/-- What a packet is, beside a frame received on a port. -/
inductive PktKind where
  /-- A frame that came through the parser and the ingress stages. -/
  | plain
  /-- A copy made by multicast replication (R300). -/
  | replica
  /-- A copy of the mirror session: it runs no microcode (R229). -/
  | mirror
  /-- A frame injected by host DMA or sent by an Ostler thread, which enters a port queue directly. -/
  | injected
  /-- A Waybill sheet on its way to an export port. -/
  | sheet (stream : Nat)
  deriving DecidableEq, Repr

/-- A lookup result that waits for the microwords (R225). -/
structure LookRes where
  hit : Bool := false
  action : Nat := 0
  addr : Nat := 0
  data : Bytes := []
  deriving DecidableEq, Repr

/-- A packet: what travels with it through the pipelines and the queues. -/
structure Pkt where
  kind : PktKind := .plain
  /-- The buffer handle, and the requester that holds it for this packet. -/
  handle : Nat := 0
  rq : Nat := 0
  /-- Ingress port; 1024 for a packet that came through none. -/
  port : Nat := 0
  /-- Frame length, destination address through FCS. -/
  len : Nat := 0
  /-- Bytes 0 to 511 of the frame, less its FCS (R136). -/
  win : Bytes := []
  hv : Bytes := []
  /-- m0 to m31. -/
  m : List Nat := []
  /-- The ingress stamp (R367), the count of time steps at it, and the sum of the steps and trims of the time base up to
  it, in 2^-16 ns (R379, R385). -/
  stamp : TimeVal := {}
  steps : Nat := 0
  moves : Int := 0
  /-- HOLDOVER, and VALID = 0, at the ingress stamp (R406). -/
  hold : Bool := false
  notSet : Bool := false
  /-- PORT_TS_P2P_DLY of the ingress port at the ingress stamp (R380). -/
  p2p : Nat := 0
  /-- The version tag (R245). -/
  tag : Bool := false
  /-- The tick of its ingress half in which the packet becomes ready, the berth that it took last (R25), and the tick of the half in which
  it took it (R23). -/
  ready : Nat := 0
  berth : Nat := 0
  tick : Nat := 0
  /-- The tick of the traffic manager in which it entered it; in a queue, the first in which it can be selected; once selected, that in which
  it enters the egress half (R292, Table 11.1). -/
  tmTick : Nat := 0
  /-- Egress port and queue class, once the traffic manager has placed the packet. -/
  outPort : Nat := 0
  cls : Nat := 0
  /-- Timetable (R384): the floor in 1/16 ns that the packet took at enqueue, if it is a Timetable packet. -/
  floor : Option Nat := none
  /-- The packet is due for release (R389), and the late reason of Table 14.2 that held at D − LEAD, 0 for none. -/
  dueNow : Bool := false
  reason : Nat := 0
  /-- A counter fault released the packet at once: it counts as late with reason TIME (R400). -/
  freed : Bool := false
  /-- The frame counts in the ingress occupancy of its port and class (R302). -/
  inCharged : Bool := false
  /-- The packet is lossless (R304). -/
  lossless : Bool := false
  deriving DecidableEq, Repr

/-- An exception copy that waits to be judged (R149): its EXC_CODE and POINT, the packet, its steering, whether it has its hold, and whether it
has still to ask for it (R276). -/
structure ExcWait where
  code : Nat
  point : Nat
  pkt : Pkt
  steer : Nat
  held : Bool
  ask : Bool
  deriving DecidableEq, Repr

/-- A row of an exact-match way or a stash slot (R165, R246). `bad` holds the 8-byte halves whose parity fails. -/
structure EmRow where
  bytes : Bytes := []
  ts : Nat := 0
  see : Nat := 3
  bad : List Nat := []
  tsBad : Bool := false
  deriving DecidableEq, Repr

/-- A learn request (R172). -/
structure LearnReq where
  table : Nat
  key : Bytes
  action : Nat
  data : Bytes
  deriving DecidableEq, Repr

/-- A notification record (R180). -/
structure Note where
  kind : Nat
  /-- TABLE, STASH, WAY and ROW in the places of STG_NOTE_HDR. -/
  loc : Nat
  round : Nat
  entry : Bytes
  deriving DecidableEq, Repr

/-- An operation that stands as source 2 of a table engine (R168, R201, R250): the indirect command, or the group operation that the
word of VER_GW_CMD gives. -/
inductive EngJob where
  | indirect
  | group (cmd : Word)
  deriving DecidableEq, Repr

/-- What a stage holds beside its registers. Locations are bits 21:0 of STG_NOTE_HDR: TABLE, STASH, WAY, ROW. -/
structure EmStage where
  rows : SMap EmRow := []
  learn : List LearnReq := []
  notes : List Note := []
  /-- The ager's next visit: the index in the stage's sweep (R176). -/
  ager : Nat := 0
  /-- Locations freed, for which a stash entry is to be tried (R171). -/
  freed : List Nat := []
  /-- Locations whose parity failed, to be invalidated (R178). -/
  toClear : List Nat := []
  /-- The next step of a running FLUSH_DYNAMIC (R182). -/
  flush : Option Nat := none
  /-- The operation that stands as source 2, the ticks that the engine's present operation has taken, and whether that is source 2. -/
  job : Option EngJob := none
  busy : Nat := 0
  onJob : Bool := false
  deriving DecidableEq, Repr

/-- A TCAM entry: the array's VALID, V and M, and the shadow (R189). V and M are numbers of 80W bits. `bad` holds the
chain positions whose shadow parity fails. -/
structure TcRow where
  aValid : Bool := false
  aV : Nat := 0
  aM : Nat := 0
  valid : Bool := false
  v : Nat := 0
  msk : Nat := 0
  prio : Nat := 0
  action : Nat := 0
  data : Nat := 0
  see : Nat := 3
  bad : List Nat := []
  deriving DecidableEq, Repr

/-- An INSERT that makes its copies (R202, R203): the copies still to make, each as destination and source key, the last one made,
where the entry then goes and the entry, and the number of copies. -/
structure TcMove where
  todo : List (Nat × Nat)
  pair : Option (Nat × Nat) := none
  key : Nat
  row : TcRow
  copies : Nat
  deriving DecidableEq, Repr

/-- What the TCAM engine of a pipeline holds beside its registers. An entry is keyed by (2 × stage + table) × 2^17 + A. -/
structure TcPipe where
  rows : SMap TcRow := []
  /-- Entries found faulty, to be invalidated (R206). -/
  toClear : List Nat := []
  /-- The operation that stands as source 2, the ticks that the engine's present operation has taken, the copies of an INSERT, and the
  ticks since the scrubber's last visit (R201). -/
  job : Option EngJob := none
  busy : Nat := 0
  move : Option TcMove := none
  since : Nat := 0
  deriving DecidableEq, Repr

/-- What a stage's microcode store holds: words 0 to 3071, the two customer banks, and the words whose parity fails, as
bank × 4096 + word. -/
structure UcStore where
  words : SMap Word := []
  bank0 : SMap Word := []
  bank1 : SMap Word := []
  bad : List Nat := []
  deriving DecidableEq, Repr

/-- A berth column of a pipeline half: the tick of the half in which it entered, the packets that took its berths and are still in the
half, and its berths by class (R479). -/
structure Col where
  tick : Nat := 0
  left : Nat
  carried : Nat
  wasted : Nat
  front : Nat
  back : Nat
  deriving DecidableEq, Repr

/-- What a pipeline holds beside its registers. -/
structure PipeSt where
  /-- The loaded structure image (R237). -/
  img : Option Image := none
  /-- The pipeline entry queue (R26), in the order of readiness. -/
  entry : List Pkt := []
  /-- The rotation of the lane priority (R25). -/
  rot : Nat := 0
  /-- The rotation of the ports over the egress berths (R315). -/
  egRot : Nat := 0
  /-- Ticks of the ingress half and of the egress half since the pipeline was last cleared, and whether the berths of the present
  tick of each are still to be taken (R25, R28). -/
  igTick : Nat := 0
  egTick : Nat := 0
  igOpen : Bool := false
  egOpen : Bool := false
  /-- The last pulse was withheld from the ingress half, or from the egress half (R495). -/
  igSkip : Bool := false
  egSkip : Bool := false
  /-- Packets that wait to enter stage s; at 24 those that wait for the traffic manager, at 25 for the deparser; at 26 those in the parser, and
  at 27 those that stage 15 has served and that are still in it. -/
  at_ : SMap (List Pkt) := []
  /-- Packets that the schedulers selected and that wait for an egress berth (R27), and the ports that the berths of the last tick left
  unserved, in their order (R315). -/
  egress : List Pkt := []
  egWait : List Nat := []
  /-- Exception copies offered in the present time clock cycle (R149). -/
  excWait : List ExcWait := []
  /-- The berth columns in the ingress half and in the egress half, oldest first. -/
  igCols : List Col := []
  egCols : List Col := []
  /-- The replicator FIFO (R300): each packet with the ports of the replicas still to be made. -/
  repl : List (Pkt × List Nat) := []
  /-- The tick of the traffic manager in which the replicator may act next. -/
  replAt : Nat := 0
  /-- The checked standby banks wait to land (R235). -/
  swapDue : Bool := false
  /-- A new image was loaded after that check, so that it does not count for the bank (R635). -/
  swapOld : Bool := false
  /-- A commit crosses to the pipeline (R254). -/
  landing : Bool := false
  deriving DecidableEq, Repr

/-- What the version block of a Pitch holds beside its registers. -/
structure VerSt where
  /-- An accepted COMMIT that waits for a Round boundary, and how many boundaries away its own is (R255). -/
  atRound : Option Nat := none
  /-- The instant, in 1/16 ns, of the last application (R258). -/
  applied : Nat := 0
  /-- The same instant in time clock cycles (R260, R330). -/
  appliedNow : Nat := 0
  /-- The drain stays beyond its limit (R260). -/
  late : Bool := false
  deriving DecidableEq, Repr

/-- The two buckets of a policer (R148). -/
structure Buckets where
  tc : Bucket := {}
  tp : Bucket := {}
  deriving DecidableEq, Repr

/-! ### The shared buffer (chapter "Buffer Pool Manager") -/

/-- A buffer with STATE = 1 (R270). -/
structure Buf where
  /-- The requester of the primary hold, until it is released, and the owner the buffer counts against. -/
  primary : Option Nat
  owner : Nat
  /-- The requesters of the copy holds. -/
  copies : List Nat := []
  /-- ROUND_LO at allocation. -/
  alloc : Nat := 0
  /-- The frame bytes it holds. -/
  bytes : Bytes := []
  /-- Flipped bits, as 128 × (16-byte word) + bit (R286). -/
  flips : List Nat := []
  deriving DecidableEq, Repr

/-- An orphan mark: the check's ROUND_LO, and whether the buffer has been reported (R282). -/
structure Orphan where
  round : Nat
  reported : Bool
  deriving DecidableEq, Repr

/-- A report of the leaked-buffer audit (R284). -/
structure AudRep where
  handle : Nat
  holder : Nat
  holds : Nat
  alloc : Nat
  deriving DecidableEq, Repr

/-- A reclaim that runs (R285): the handle, the instant in 1/16 ns at which its check ends, the buffer as it found it, and whether the handle
has been used since. -/
structure Recl where
  handle : Nat
  due : Nat
  seen : Buf
  used : Bool := false
  deriving DecidableEq, Repr

/-- What the Buffer Pool Manager holds beside its registers. -/
structure BpmSt where
  bufs : SMap (Option Buf) := []
  /-- The next slice of each pool's rotation (R269). -/
  rot : SMap Nat := []
  orphans : SMap (Option Orphan) := []
  /-- Buffers out of service (R283). -/
  out : SMap Bool := []
  /-- The audit FIFO of each owner. -/
  fifo : SMap (List AudRep) := []
  /-- Uncorrectable errors of each slice in the current Round (R287). -/
  errs : SMap Nat := []
  /-- The reclaim that each owner's page runs. -/
  recl : SMap (Option Recl) := []
  deriving DecidableEq, Repr

/-! ### Queues and policers (chapter "Queueing, Scheduling, Shaping and Policing") -/

/-- A frame that the deparser has given to the MAC of a port, with the packet it came from. -/
structure TxFrame where
  pkt : Pkt
  bytes : Bytes
  /-- The egress stamp, and the instants, in 1/16 ns, at which the frame starts and ends on the wire. -/
  stamp : TimeVal := {}
  start : Nat := 0
  stop : Nat := 0
  /-- Lateness in 1/16 ns and its reason, for a late Timetable frame (R393, R394). -/
  late : Nat := 0
  reason : Nat := 0
  started : Bool := false
  /-- The frame fails its check at its receiver: a bank word of it was read with an uncorrectable error (R286), or LOOP of a lane
  changed while it was sent (R99). -/
  bad : Bool := false
  deriving DecidableEq, Repr

/-- A control frame that the MAC is to send: its bytes without FCS, and whether it is a pause or PFC frame, a time link
frame of link k, or a calibration frame. -/
inductive CtlKind where
  | fc
  | timeLink (k : Nat)
  | cal (seq : Nat)
  deriving DecidableEq, Repr

/-- A queue (port, class). -/
structure QueueSt where
  pkts : List Pkt := []
  /-- The DWRR deficit (R314). -/
  deficit : Nat := 0
  cb : Bucket := {}
  pb : Bucket := {}
  /-- The start of the current stall, and the instant since which a queue in discard mode has been empty (R310, R311), in
  1/16 ns. -/
  stallAt : Option Nat := none
  emptyAt : Option Nat := none
  deriving DecidableEq, Repr

/-- What the traffic manager and the MAC's transmit path hold of a port beside its registers. -/
structure PortTm where
  cb : Bucket := {}
  pb : Bucket := {}
  /-- The DWRR queue being visited, and whether its visit has begun (R314). -/
  cur : Nat := 0
  visited : Bool := false
  /-- Frames in the MAC's transmit path, in order. -/
  tx : List TxFrame := []
  /-- Control frames ready for the MAC, in order (R114). -/
  ctl : List CtlKind := []
  /-- Classes whose XOFF asserts or has just released since the last frame was built (R306); bit 16 is the port (R308). -/
  changed : Nat := 0
  /-- The end, in 1/16 ns, of the last frame given to the wire, and of the last control frame. -/
  lastEnd : Nat := 0
  ctlEnd : Nat := 0
  /-- Control frames that have a slot and wait for the frames ahead of them, as start in 1/16 ns and bytes without FCS (R114). -/
  ctlLine : List (Nat × Bytes) := []
  /-- The spans of real time, in 1/16 ns and newest first, that the frames of the MAC take on the wire (R394). -/
  spans : List (Nat × Nat) := []
  deriving DecidableEq, Repr

/-- A multicast packet whose replicas have not all been transmitted or dropped (R301). -/
structure McRec where
  left : Nat
  port : Nat
  cls : Nat
  len : Nat
  rq : Nat
  charged : Bool
  deriving DecidableEq, Repr

/-- The configuration of a policer: Table 11.5, words 0 to 4 without PENDING. -/
structure PolCfg where
  cir : Nat := 0
  pir : Nat := 0
  cbs : Nat := 10240
  pbs : Nat := 10240
  act : Nat := 0
  deriving DecidableEq, Repr

/-- A policer: its configuration, the configuration that the coming boundary applies and the one that waits for the boundary after it
(R36), its buckets and its colour counts. -/
structure PolSt where
  cfg : PolCfg := {}
  pend : Option PolCfg := none
  late : Option PolCfg := none
  b : Buckets := {}
  green : Nat := 0
  yellow : Nat := 0
  red : Nat := 0
  deriving DecidableEq, Repr

/-- What the traffic manager holds. -/
structure TmSt where
  /-- The ticks of the traffic manager region, and whether the last pulse was withheld from it (R292, R495). -/
  tick : Nat := 0
  skip : Bool := false
  /-- What passed the copy point of the mirror session in the present tick: each packet and its frame (R276). -/
  mir : List (Pkt × Bytes) := []
  /-- Queues, at port × 16 + class. -/
  q : SMap QueueSt := []
  ports : SMap PortTm := []
  /-- Ingress occupancy, at port × 16 + class (R302). -/
  occ : SMap Nat := []
  mc : SMap (Option McRec) := []
  /-- Policers and member slots, at pipeline × 2^16 + index; member groups, at pipeline × 2^12 + index. -/
  pol : SMap PolSt := []
  grp : SMap Word := []
  slot : SMap Word := []
  /-- Multicast groups: the bitmap of ports (R299). -/
  mcast : SMap Nat := []
  /-- What the last policer READ returned in words 4 to 7 of TM_IA_DATA and software cannot write, by pipeline (Table 11.5). -/
  polRo : SMap (List Nat) := []
  deriving DecidableEq, Repr

/-! ### The time base (chapter "The Time Base") -/

/-- One of the two counters of the time base (R331). -/
structure TimeRaw where
  s : Nat := 0
  n : Nat := 0
  fr : Nat := 0
  deriving DecidableEq, Repr

/-- How the time base ran up to an instant `until16`, in 1/16 ns of real time, at which it was set, stepped, trimmed or given another
rate: its value at time clock edge `edge`, in 2^-44 ns, what each cycle adds, and what then stood of steps, HOLDOVER, VALID and CNT_FAULT.
Frames and edges whose instant lies before that moment are stamped by it (R338, R361, log entry 140). -/
structure TimeSeg where
  until16 : Nat
  edge : Nat
  v : Int
  inc : Int
  steps : Nat
  moves : Int
  hold : Bool
  notSet : Bool
  /-- The two counters differ (R331). -/
  fault : Bool
  deriving DecidableEq, Repr

/-- A pulse output (R353): START, PERIOD and WIDTH as the arm took them. Times are in units of 2^-16 ns. -/
structure PpsSt where
  start : Nat := 0
  period : Nat := 0
  width : Nat := 0
  /-- The next leading edge, and the end of a pulse in progress. -/
  next : Option Nat := none
  stop : Option Nat := none
  /-- A step passed over scheduled edges and LATE is 1: an edge is due in the next cycle (R340). -/
  lateDue : Bool := false
  /-- A DISARM waits for the end of the pulse in progress (R354). -/
  disarm : Bool := false
  /-- An arm stands: START is scheduled (R353). -/
  on : Bool := false
  /-- The output has been armed since power-on (R536). -/
  ever : Bool := false
  deriving DecidableEq, Repr

/-- A captured edge (R356, R358). -/
structure EvtRec where
  t : TimeVal
  fall : Bool
  seq : Nat
  hold : Bool
  deriving DecidableEq, Repr

/-- A capture input: its FIFO and the instant of the last captured edge, in 1/16 ns. -/
structure EvtSt where
  fifo : List EvtRec := []
  last : Option Nat := none
  deriving DecidableEq, Repr

/-- A time link (R346 to R350): T1 of the last four frames sent, and T1 and T2 of the last valid frame received. -/
structure TlSt where
  sent : List TimeVal := []
  echo : Option (TimeVal × TimeVal) := none
  deriving DecidableEq, Repr

/-- The time base (R328): seconds S, nanoseconds N, and the fraction in 2^-44 ns; this is copy 0. -/
structure TimeSt where
  s : Nat := 0
  n : Nat := 0
  fr : Nat := 0
  /-- Copy 1, while it differs from copy 0 (R331). -/
  copy1 : Option TimeRaw := none
  /-- Time clock cycles since the time clock locked: NOW (R438). -/
  now : Nat := 0
  /-- The edge of an AT = 1 set whose value the time base takes in the next time clock cycle, in 1/16 ns of real time (R336). -/
  setDue : Option Nat := none
  /-- The exact trim sum since the last step (R334), and the sum of every step and trim (R339), in 2^-16 ns. -/
  sigma : Int := 0
  moves : Int := 0
  /-- The servo's last errors in 1/16 ns, newest first, and the error that waits for its correction (R342). -/
  errs : List Int := []
  corr : Option Int := none
  /-- Outliers in a row (R343). -/
  outliers : Nat := 0
  /-- The frequency words of the lock, newest first, each with the instant in 1/16 ns from which it was in use (R344). -/
  adjs : List (Nat × Int) := []
  /-- The source has been locked since it was selected (R345), and is now lost (R343). -/
  wasLocked : Bool := false
  lost : Bool := false
  /-- The source is back and the first correction ends holdover (R345). -/
  back : Bool := false
  pps : SMap PpsSt := []
  evt : SMap EvtSt := []
  tl : SMap TlSt := []
  /-- The shadows of the 21 requesters: S and F (R335). -/
  shadow : SMap (Nat × Nat) := []
  /-- A SyncE output is held low by SQUELCH (R360). -/
  synceLow : Bool := false
  /-- What each SyncE output gives out: a lane and a frequency in kHz (R359). -/
  synce : SMap (Option (Nat × Nat)) := []
  /-- How the time base ran before, newest first. -/
  past : List TimeSeg := []
  deriving DecidableEq, Repr

/-- A record of the transmit capture FIFO (R378). -/
structure TxqRec where
  t : TimeVal
  msgType : Nat
  domain : Nat
  seq : Nat
  deriving DecidableEq, Repr

/-- A running calibration (R381): frames still to send, the next sequence number, the frames that may return with their egress stamps and
the instants, in 1/16 ns, at which they start, and the residuals taken so far. -/
structure CalRun where
  left : Nat
  /-- PORT_TS_CAL_LOOP as it stood at GO (R523). -/
  loop : Nat := 0
  seq : Nat := 0
  sent : List (Nat × TimeVal × Nat) := []
  got : Nat := 0
  sum : Int := 0
  lo : Int := 0
  hi : Int := 0
  deriving DecidableEq, Repr

/-- A record of a Pitch's late FIFO (R396). -/
structure LateRec where
  eport : Nat
  iport : Nat
  reason : Nat
  d : TimeVal
  amt : Nat
  deriving DecidableEq, Repr

/-- What the timestamp units and Timetable hold beside registers. -/
structure TsSt where
  txq : SMap (List TxqRec) := []
  cal : SMap (Option CalRun) := []
  late : SMap (List LateRec) := []
  /-- The receive compensations of a port before each write, each with the instant of the write in 1/16 ns, newest first (R368). -/
  rxOld : SMap (List (Nat × Int)) := []
  /-- The same of PORT_TS_P2P_DLY (R380). -/
  p2pOld : SMap (List (Nat × Int)) := []
  deriving DecidableEq, Repr

/-! ### The Waybill (chapter "Waybill: Authenticated Timestamp Records") -/

/-- A gap that awaits its record (R410): reason, count, first number and the times covered. -/
structure Gap where
  reason : Nat
  count : Nat
  first : Nat
  tFirst : TimeVal
  tLast : TimeVal
  hold : Bool
  deriving DecidableEq, Repr

/-- An open sheet: its records of 32 bytes, and the numbers and ingress stamps they hold. -/
structure OpenSheet where
  recs : List Bytes := []
  baseS : Nat := 0
  handle : Option Nat := none
  /-- Round boundaries since the first record entered the stream. -/
  rounds : Nat := 0
  first : Nat := 0
  tLo : Option TimeVal := none
  tHi : Option TimeVal := none
  /-- The time base was in holdover at one of those stamps. -/
  hold : Bool := false
  deriving DecidableEq, Repr

/-- Where a closed sheet stands: before or in a hash engine, ready, in a port queue, or refused and to be offered again (R422). -/
inductive SheetAt where
  | hashing
  | ready
  | queued (port : Nat)
  | retry
  deriving DecidableEq, Repr

/-- A closed sheet. -/
structure Sheet where
  num : Nat
  /-- KEY_INDEX, and the key of that slot at the close. -/
  key : Nat
  kb : Bytes
  close : Nat
  recs : List Bytes
  baseS : Nat
  handle : Option Nat
  first : Nat
  tLo : Option TimeVal
  tHi : Option TimeVal
  hold : Bool := false
  /-- Header to trailer, once CHAIN and TAG are computed. -/
  bytes : Bytes := []
  place : SheetAt := .hashing
  deriving DecidableEq, Repr

/-- A record stream (R403). -/
structure WbStream where
  seq : Nat := 0
  sheet : Nat := 0
  /-- CHAIN of the last sheet hashed. -/
  chain : Bytes := List.replicate 32 0
  cur : Option OpenSheet := none
  closed : List Sheet := []
  gaps : List Gap := []
  /-- The record bucket (R417). -/
  b : Bucket := {}
  /-- The export port whose turn is next (R421). -/
  rot : Nat := 0
  /-- A sheet has closed with an empty key slot, and the slot has stayed empty (R416). -/
  noKey : Bool := false
  deriving DecidableEq, Repr

/-- A frame record of the tick that runs now, not yet presented: its pipeline, its stream, its bytes without a number, its ingress stamp and
whether the time base was then in holdover (R409). -/
structure WbDue where
  pipe : Nat
  strm : Nat
  body : Bytes
  t : TimeVal
  hold : Bool
  deriving DecidableEq, Repr

/-- The Waybill beside its registers. -/
structure WbSt where
  strm : SMap WbStream := []
  keys : SMap Bytes := []
  /-- The frame records of the tick that runs now, in the order in which their frames left the deparsers. -/
  due : List WbDue := []
  /-- The stream whose sheet each hash engine closes (R418, R426). -/
  eng : SMap (Option Nat) := []
  deriving DecidableEq, Repr

/-! ### Ostlers, exceptions and counters (chapters "Ostler Engines", "Counters, Berth Accounting and Sampling",
"Management Interfaces, Presence and Address Map") -/

/-- An exception copy in a queue: its handle, its 64-byte header and its frame length (R585). -/
structure ExcCopy where
  handle : Nat
  hdr : Bytes
  len : Nat
  deriving DecidableEq, Repr

/-- A handle slot (R460): the handle, the exception header where XGET filled it, and whether the slot carries a hold. -/
structure HSlot where
  handle : Nat
  hdr : Option Bytes := none
  hold : Bool := true
  deriving DecidableEq, Repr

/-- An access on its way (R441): the register that takes the result, if any. -/
structure Access where
  rd : Option Nat
  val : Word
  deriving DecidableEq, Repr

/-- A sampled instruction in flight (R484): class, word, KIND so far and NOW at issue. -/
structure Smp where
  cls : Nat
  pc : Nat
  kind : Nat
  at_ : Nat
  deriving DecidableEq, Repr

/-- A hardware thread (R431, R442 to R444). -/
structure Thr where
  st : Nat := 0
  detach : Bool := false
  trap : Bool := false
  /-- The trap is an overflow; and the word that trapped. -/
  trapOver : Bool := false
  trapPc : Nat := 0
  pc : Nat := 0
  /-- Window registers at window × 16 + r, globals at 128 + r. -/
  r : SMap Word := []
  cwp : Nat := 0
  resident : Nat := 1
  spilled : Nat := 0
  /-- The spill area: frame × 16 + r. -/
  spill : SMap Word := []
  faultV : Bool := false
  code : Nat := 0
  detail : Nat := 0
  faultPc : Nat := 0
  faddr : Word := 0
  slots : SMap (Option HSlot) := []
  /-- The exit value, the target of a JOIN, and the register that a wait fills. -/
  exitVal : Word := 0
  target : Nat := 0
  /-- A JOIN that the arbiter has yet to decide: the Ostler pulse of the cycle that issued it, and RA (R437). -/
  ask : Option (Nat × Word) := none
  rd : Nat := 0
  deadline : Nat := 0
  mask : Nat := 0
  /-- Selected events seen, among them a KICK that came while waiting. -/
  kicked : Bool := false
  /-- NOW[63:32] as the last RDT latched it (R438). -/
  nowHi : Word := 0
  acc : Option Access := none
  smp : Option Smp := none
  deriving DecidableEq, Repr

/-- A core (R432): its slot pointer; and its cycles of the core tick that began at instant `at_` in which it has not issued, oldest first, each
as the number of the Ostler pulse that began it and the slot that stood in it, as OST_SLOT gave it then. -/
structure OstCore where
  slot : Nat := 0
  at_ : Nat := 0
  due : List (Nat × Nat) := []
  deriving DecidableEq, Repr

/-- The Ostler engines beside their registers. -/
structure OstSt where
  thr : SMap Thr := []
  /-- The cores, at cluster × 8 + core. -/
  core : SMap OstCore := []
  /-- Program words at owner × 2^16 + word, and those whose parity fails. -/
  ps : SMap Word := []
  psBad : SMap Bool := []
  /-- Data bytes at quad × 2^17 + offset, and flipped bits as 8 × that + bit. -/
  data : SMap Byte := []
  flips : List Nat := []
  /-- Exception queues, at owner × 4 + cluster; fault queues of the owners. -/
  exc : SMap (List ExcCopy) := []
  fq : SMap (List Nat) := []
  deriving DecidableEq, Repr

/-- A snapshot of an owner's counters (R470): the pipelines the owner held, and the copies. -/
structure Snap where
  pipes : List Nat := []
  copies : SMap (BitVec 48) := []
  deriving DecidableEq, Repr

/-- A snapshot that runs (R470): its instant T, in 1/16 ns of real time, and, once T has come, its copies with the time base, in 2^-16 ns,
and the Round at T. -/
structure SnapRun where
  at_ : Nat
  got : Option (Snap × Nat × Word) := none
  deriving DecidableEq, Repr

/-- The counter block beside its registers and counters. -/
structure CntSt where
  snap : SMap (Option Snap) := []
  /-- The snapshots that run, by owner (R470). -/
  run : SMap (Option SnapRun) := []
  /-- Monitors, at owner × 32 + number, whose EN was written 1 since their last tick (R476, R478). -/
  fresh : SMap Bool := []
  /-- Passing instructions still to count before the next sample (R484). -/
  left : SMap Nat := []
  /-- Sample entries, at owner × 4096 + index: HI and LO. -/
  buf : SMap (BitVec 64) := []
  deriving DecidableEq, Repr

/-- Host DMA beside its registers: the FIFOs of exception rings, at function × 4 + ring, and the kept handles. -/
structure DmaSt where
  fifo : SMap (List ExcCopy) := []
  kept : SMap (List Nat) := []
  /-- The function whose turn comes next in the rotation (R589). -/
  turn : Nat := 0
  deriving DecidableEq, Repr

/-! ### Power, clocks, bring-up and the side interfaces -/

/-- A skip region beside PST_REG_STATUS. -/
structure RegionSt where
  /-- What the thermal limit adds (R515), what the neighbour rule adds (R513) and the droop response's ratio (R506). -/
  therm : Nat := 0
  nb : Nat := 0
  droop : Nat := 0
  /-- The path monitor reported low margin (R509). -/
  margin : Bool := false
  /-- Steps of 2.5 mV that the neighbour rule added to the set point (R513). -/
  vraise : Nat := 0
  /-- The skip ratio at which the region drew the power last measured (R499). -/
  kUse : Nat := 0
  /-- The ratio latched for the frame of 64 pulses in progress, while the region has ticks (R496, R632). -/
  kFrame : Option Nat := none
  deriving DecidableEq, Repr

/-- An image load that runs or waits (R596): the function of DEV_LOAD_CTL, who wrote GO, the target pipelines, whether a presence
window was open when GO landed (R606), whether the image comes from the store, and the image, none where its read fails. -/
structure LoadJob where
  f : Nat
  fn : Nat
  ost : Bool
  pipes : List Nat
  presOpen : Bool
  stored : Bool
  img : Option Image
  /-- Where a standalone image lies in host memory, and its length; the instant, in 1/16 ns, by which a load from the store ends (R545). -/
  addr : Nat := 0
  len : Nat := 0
  due : Nat := 0
  deriving DecidableEq, Repr

/-- A step of bring-up that the part times by itself: the instant at which it ends, in 1/16 ns; how many of steps 1 to 4 succeed; the PLLs
that lock at step 4; the seal loop closed; REFCLK good; and whether the reads of a pushed container complete (R538, R541, R544, R595). -/
structure BootRun where
  due : Nat := 0
  stop : Nat := 4
  plls : Nat := 0
  loop : Bool := true
  refOk : Bool := true
  ok : Bool := true
  deriving DecidableEq, Repr

/-- A commit of Pitch boundaries that runs (R65, R68): the instant at which it completes, in 1/16 ns, the owners that it gives pipelines 0 to
15, and the writes of PIT_CTL held for it, each with its function and Pitch. -/
structure CommitRun where
  due : Nat
  map : List Nat
  held : List (Nat × Nat × Word) := []
  deriving DecidableEq, Repr

/-- What the Postilion, the clocks and the boot hold beside registers. -/
structure PowerSt where
  /-- The skip regions. -/
  reg : SMap RegionSt := []
  /-- Neighbour pairs now beyond a limit, and those that are being brought together, as (region, region, quantity): 0 voltage, 1 temperature, 2
  ratio (R513). -/
  beyond : List (Nat × Nat × Nat) := []
  equal : List (Nat × Nat × Nat) := []
  /-- Leakage of each region in 0.25 W as the Postilion last took it (R499). -/
  leak : SMap Nat := []
  /-- Power of the unswitched consumers in 0.25 W as last taken (R500). -/
  unsw : Nat := 0
  /-- The budget B behind the grants in force, in 1/60 of 0.25 W (R493). -/
  b60 : Nat := 0
  /-- Some lane group waits for power (R504), and the instant, in 1/16 ns, from which the rails that the last admitted group shares have
  recovered (R547). -/
  lgWait : Bool := false
  lgRail : Nat := 0
  /-- The PLLs have locked in bring-up (R490). -/
  pllsUp : Bool := false
  /-- The step of bring-up now in progress (R538, R541). -/
  boot : Option BootRun := none
  /-- The input stands below 3.0 V (R537). -/
  inLow : Bool := false
  /-- The last boundary applied no grant (R516); the need of the exempt Pitches is unmet (R503). -/
  postil : Bool := false
  unmet : Bool := false
  /-- Domains that a run-time fault turned off (R570). -/
  faulted : SMap Bool := []
  /-- Calibration failures of each lane group (R547). -/
  lgFails : SMap Nat := []
  /-- Step 1 of bring-up has ended, so Rounds run (R631), and the Postilion cycles since the last Round boundary (R7). -/
  rounds : Bool := false
  cyc : Nat := 0
  /-- The instant of power good, and of the last lock of the core PLL and of the Ostler PLL, in 1/16 ns (R496). -/
  goodAt : Nat := 0
  coreLock : Nat := 0
  ostLock : Nat := 0
  /-- The input is up; TRIP or undervoltage holds every domain off; the converter stopped above 63 V. -/
  alive : Bool := false
  trip : Bool := false
  under : Bool := false
  overV : Bool := false
  /-- The management fabric is lost; the PCIe endpoint is lost (R569). -/
  fabricLost : Bool := false
  pcieLost : Bool := false
  /-- The container being loaded comes from the host (R595). -/
  push : Bool := false
  /-- LEN of that push, as GO took it (R523). -/
  pushLen : Nat := 0
  /-- PERST_N is deasserted, and the PCIe link is up at this speed and width. -/
  perst : Bool := false
  linkUp : Bool := false
  speed : Nat := 0
  lanes : Nat := 0
  /-- The image store: the images of the container by INDEX (R542). -/
  store : List (Nat × Image) := []
  /-- Image loads in the order in which they were accepted: the first runs, the others wait (R596). -/
  loads : List LoadJob := []
  /-- The commit of Pitch boundaries that runs (R65). -/
  commit : Option CommitRun := none
  deriving DecidableEq, Repr

/-- Presence and seal (R605 to R609), with instants in 1/16 ns. -/
structure PresSt where
  openAt : Nat := 0
  riseAt : Nat := 0
  window : Nat := 0
  deriving DecidableEq, Repr

/-- What a transfer of an I2C master took with it at GO (R523): the words of SB_I2C_CMD and SB_I2C_CTL and the data bytes; and the attempts made
at the address, with the instant in 1/16 ns at which the present one begins (R599). -/
structure I2cRun where
  cmd : Word := 0
  ctl : Word := 0
  data : Bytes := []
  tries : Nat := 1
  next : Nat := 0
  deriving DecidableEq, Repr

/-- The side interfaces beside their registers. -/
structure SideSt where
  /-- Ports whose CMIS request waits, oldest first (R601). -/
  cmis : List Nat := []
  /-- The instruction register of the TAP, and what the boundary-scan register drives under an instruction that takes the lands (R603). -/
  ir : Nat := 1
  bsr : List Bool := []
  /-- The transfer that each I2C master runs. -/
  i2c : SMap I2cRun := []
  /-- The request of each port: the words of PORT_CMIS_CMD and PORT_CMIS_ADDR and the data bytes (R523). -/
  cmisTook : SMap (Word × Word × Bytes) := []
  /-- Masters whose bus was last found stuck (R600). -/
  stuck : SMap Bool := []
  deriving DecidableEq, Repr

/-! ### The part -/

/-- The interrupt block beside its registers. -/
structure IrqSt where
  pcie : SMap PcieCfg := []
  hist : SMap (List HistEntry) := []
  /-- The entry that each tree shows in IRQ_LAST (R565). -/
  last : SMap (Option HistEntry) := []
  /-- One more than the management fabric cycle of each function's last access violation; 0 for none (R56). -/
  avCyc : SMap Nat := []
  /-- One more than the management fabric cycle in which Pitch n's own function last wrote PIT_CTL[n]; 0 for none (R69). -/
  pitCyc : SMap Nat := []
  /-- Pitches that no bit of PIT_CTL holds any more and that leave reset at the end of the management fabric cycle (R69). -/
  pitLeave : List Nat := []
  /-- Pitches that a bit of PIT_CTL newly holds and that enter reset at the end of the management fabric cycle (R69). -/
  pitEnter : List Nat := []
  deriving DecidableEq, Repr

/-- The reasons for which the part stops. The manual gives every command an effect; no meaning raises a fault. -/
inductive Fault where
  /-- Not raised by any meaning. Safe. -/
  | none
  deriving DecidableEq, Repr

/-- The reasons for which a command has no meaning. -/
inductive Refusal where
  /-- The command is not modelled; named by its mnemonic. Raised by the dispatch only. Safe. -/
  | notModelled (mnemonic : String)
  /-- OST_SYS from vendor code: the manual gives no effect of the vendor functions (R458). Safe. -/
  | vendorSys
  deriving DecidableEq, Repr

/-- The state of the part. -/
structure State where
  pending : List Instr := []
  regs : SMap Word := []
  pendRegs : SMap Word := []
  lateRegs : SMap Word := []
  cnts : SMap (BitVec 48) := []
  fuse : Fuse := {}
  t16 : Nat := 0
  time : TimeSt := {}
  freeIx : Nat := 0
  outbox : List Emit := []
  irq : IrqSt := {}
  ports : SMap PortSt := []
  lanes : SMap LaneSt := []
  pipes : SMap PipeSt := []
  em : SMap EmStage := []
  tc : SMap TcPipe := []
  gmask : SMap Word := []
  uc : SMap UcStore := []
  ver : SMap VerSt := []
  bpm : BpmSt := {}
  excPol : SMap Buckets := []
  mirror : Bucket := {}
  tm : TmSt := {}
  ts : TsSt := {}
  wb : WbSt := {}
  ost : OstSt := {}
  ctr : CntSt := {}
  dma : DmaSt := {}
  pw : PowerSt := {}
  pres : PresSt := {}
  side : SideSt := {}
  /-- The held high words of counter pairs (R528, R633), at requester × 512 + block. -/
  holds : SMap Hold := []
  deriving DecidableEq, Repr

/-- The part right after a power-on reset, before the rails rise: every register at its reset value, nothing stored. -/
def State.reset : State := {}

end Sys2Proof.Machine
end

