-- ==== Sys2Proof/Machine/Ops.lean ====
section
/-! DEFINITION. The named operations over the registers, the counters and the plain data of the machine that every
block uses: reading and writing a register field (R8, R11), counting (R135, R185, R468), ownership (R41, R42, R556),
the time base value (R328), free values, and bytes in network and little-endian order (R9, R10). -/

namespace Sys2Proof.Machine

/-- Bit `i` of a number. -/
def nbit (v i : Nat) : Bool := v / 2 ^ i % 2 == 1

/-- The cycles of the time clock so far, in 1/16 ns: what refills, pause times and the watchdog count (R330). -/
def State.clk16 (s : State) : Nat := 16 * s.time.now

/-- A bit as a number. -/
def bitN (b : Bool) : Nat := if b then 1 else 0

/-- Put `x` into a list that stands in the order `le`, before what it is no greater than. -/
def insertBy {α : Type} (le : α → α → Bool) (x : α) : List α → List α
  | [] => [x]
  | y :: ys => if le x y then x :: y :: ys else y :: insertBy le x ys

/-- A list in the order `le`; what is equal in it keeps its order. -/
def sortBy {α : Type} (le : α → α → Bool) (xs : List α) : List α := xs.foldr (insertBy le) []

/-! ### Register fields -/

/-- A field of a word, as a number. -/
def fldOf (w : Word) (f : Fld) : Nat := w.toNat / 2 ^ f.lo % 2 ^ f.w

/-- A word with one field replaced. -/
def putFld (w : Word) (f : Fld) (v : Nat) : Word :=
  BitVec.ofNat 32 (w.toNat - fldOf w f * 2 ^ f.lo + v % 2 ^ f.w * 2 ^ f.lo)

/-- The mask of a field. -/
def maskOf (f : Fld) : Nat := (2 ^ f.w - 1) * 2 ^ f.lo

/-- The word that the register at `a` holds. -/
def State.reg (s : State) (a : Nat) : Word := SMap.get resetValue s.regs a

/-- Store a word in the register at `a`. -/
def State.setReg (s : State) (a : Nat) (v : Word) : State := { s with regs := SMap.put resetValue s.regs a v }

/-- A field of the register at `a`. -/
def State.fld (s : State) (a : Nat) (f : Fld) : Nat := fldOf (s.reg a) f

/-- Store a field of the register at `a`, leaving its other bits. -/
def State.setFld (s : State) (a : Nat) (f : Fld) (v : Nat) : State := s.setReg a (putFld (s.reg a) f v)

/-- A one-bit field as a Boolean. -/
def State.bit (s : State) (a : Nat) (f : Fld) : Bool := decide (s.fld a f ≠ 0)

/-- Store a one-bit field. -/
def State.setBit (s : State) (a : Nat) (f : Fld) (b : Bool) : State := s.setFld a f (if b then 1 else 0)

/-- The register at `a` returns to its reset value. -/
def State.resetReg (s : State) (a : Nat) : State := s.setReg a (resetValue a)

/-- Every register and every pending value whose address `p` picks returns to its reset value. -/
def State.resetRegs (s : State) (p : Nat → Bool) : State :=
  { s with regs := SMap.drop s.regs p, pendRegs := SMap.drop s.pendRegs p, lateRegs := SMap.drop s.lateRegs p }

/-- A sign-extended field of `w` bits. -/
def sext (w v : Nat) : Int := if v < 2 ^ (w - 1) then (v : Int) else (v : Int) - (2 ^ w : Nat)

/-- The low `w` bits of an integer in two's complement. -/
def trunc (w : Nat) (v : Int) : Nat := (v % (2 ^ w : Nat)).toNat

/-! ### Counters -/

/-- The value of the 48-bit counter whose COUNT_LO is at `a`. -/
def State.cnt (s : State) (a : Nat) : Nat := (SMap.get (fun _ => 0) s.cnts a).toNat

/-- Set a 48-bit counter. -/
def State.setCnt (s : State) (a v : Nat) : State :=
  { s with cnts := SMap.put (fun _ => 0) s.cnts a (BitVec.ofNat 48 v) }

/-- Add to a 48-bit counter, which saturates at 2^48 − 1 (R135, R468). -/
def State.addCnt (s : State) (a k : Nat) : State := s.setCnt a (min (s.cnt a + k) (2 ^ 48 - 1))

/-- Add to a 48-bit counter that wraps (R483). -/
def State.addCntWrap (s : State) (a k : Nat) : State := s.setCnt a (s.cnt a + k)

/-- Every counter whose address `p` picks returns to 0. -/
def State.clearCnts (s : State) (p : Nat → Bool) : State := { s with cnts := SMap.drop s.cnts p }

/-- Add to a 32-bit count register that saturates at 0xFFFFFFFF. -/
def State.addSat32 (s : State) (a k : Nat) : State :=
  s.setReg a (BitVec.ofNat 32 (min ((s.reg a).toNat + k) (2 ^ 32 - 1)))

/-- Add to a 32-bit count register that wraps at 2^32. -/
def State.addWrap32 (s : State) (a k : Nat) : State := s.setReg a (BitVec.ofNat 32 ((s.reg a).toNat + k))

/-! ### Ownership (R41, R42) -/

/-- The owner of pipeline p: a Pitch 1 to 16, or 0 when it is unassigned. -/
def State.ownerOfPipe (s : State) (p : Nat) : Nat := s.fld (R.PIT_MAP p) F.PIT_MAP.OWNER

/-- The pipeline of a lane or port. -/
def pipeOfPort (n : Nat) : Nat := n / 64

/-- The Pitch of a port, 0 when its pipeline is unassigned. -/
def State.ownerOfPort (s : State) (n : Nat) : Nat := s.ownerOfPipe (pipeOfPort n)

/-- The pipelines that Pitch n owns, lowest first. -/
def State.pipesOf (s : State) (n : Nat) : List Nat := (List.range 16).filter fun p => s.ownerOfPipe p == n

/-- Pitch n exists while it owns at least one pipeline. -/
def State.pitchExists (s : State) (n : Nat) : Bool := decide (n ≠ 0) && (s.pipesOf n != [])

/-- Pitch n is held in reset, or is about to leave it (R69), or owns no pipeline. -/
def State.inReset (s : State) (n : Nat) : Bool :=
  ((s.bit (R.PIT_CTL n) F.PIT_CTL.WARDEN_HOLD || s.bit (R.PIT_CTL n) F.PIT_CTL.SELF_RESET) && !s.irq.pitEnter.contains n) ||
    s.irq.pitLeave.contains n || !s.pitchExists n

/-- The bit of domain d in PST_DOM_READY or PST_DOM_FAIL. -/
def State.domBit (s : State) (reg : Nat → Nat) (d : Nat) : Bool := nbit (s.reg (reg (d / 32))).toNat (d % 32)

/-- A half or the arrays of pipeline p failed (R546, R570). -/
def State.pipeFailed (s : State) (p : Nat) : Bool :=
  s.domBit R.PST_DOM_FAIL (64 + p) || s.domBit R.PST_DOM_FAIL (80 + p) || s.domBit R.PST_DOM_FAIL (112 + p)

/-- The pipeline is held: it is unassigned, its Pitch is in reset, or one of its domains failed. -/
def State.pipeHeld (s : State) (p : Nat) : Bool :=
  s.ownerOfPipe p == 0 || s.inReset (s.ownerOfPipe p) || s.pipeFailed p

/-- A PLL of CLK_STATUS is locked: 0 core tick, 1 time, 2 Ostler, 3 fabric, 4 bridge, 5 Waybill, 6 PCIe. -/
def State.pllOk (s : State) (k : Nat) : Bool := nbit (s.fld R.CLK_STATUS F.CLK_STATUS.PLL_LOCK) k

/-- The pipeline runs: it is not held, its domains are ready, and the core tick and the bridges run (R497, R568). -/
def State.pipeRuns (s : State) (p : Nat) : Bool :=
  !s.pipeHeld p && s.domBit R.PST_DOM_READY (64 + p) && s.domBit R.PST_DOM_READY (80 + p) && s.domBit R.PST_DOM_READY (112 + p) &&
    s.pllOk 0 && s.pllOk 4

/-- A TAP instruction has the lands (R603). -/
def State.landsTaken (s : State) : Bool := decide (3 ≤ s.side.ir ∧ s.side.ir ≤ 7)

/-- Traffic and time outputs do not reach the lands: a TAP instruction has them, or had them after STAGE 9 (R603). -/
def State.outputsLost (s : State) : Bool := s.landsTaken || s.bit R.DEV_JTAG_CTL F.DEV_JTAG_CTL.USED

/-- The pipeline is fused off (R1, R4). -/
def State.pipeFused (s : State) (p : Nat) : Bool := s.fuse.fusedPipes.getLsbD p

/-! ### Time (R328) -/

/-- A time base value in units of 2^-16 ns. -/
def TimeVal.units (t : TimeVal) : Nat := (t.s * 1000000000 + t.n) * 65536 + t.f

/-- The time base value of a number of units of 2^-16 ns. -/
def TimeVal.ofUnits (u : Nat) : TimeVal :=
  { s := u / 65536 / 1000000000 % 2 ^ 48, n := u / 65536 % 1000000000, f := u % 65536 }

/-- A time base value moved by a signed number of units of 2^-16 ns; it does not go below 0. -/
def TimeVal.shift (t : TimeVal) (d : Int) : TimeVal := TimeVal.ofUnits ((t.units : Int) + d).toNat

/-- The time base now: S, N and F, F being the top 16 of the 44 fraction bits (R328). -/
def State.tnow (s : State) : TimeVal := { s := s.time.s, n := s.time.n, f := s.time.fr / 2 ^ 28 }

/-- The frequency word in use (R332). -/
def State.adj (s : State) : Int := sext 32 (s.reg R.TIME_FREQ).toNat

/-- How the time base runs now: each cycle adds 1 ns and the frequency word, and none while the time PLL is not locked (R328, R568). -/
def State.segNow (s : State) : TimeSeg :=
  { until16 := s.t16, edge := s.t16 / 16, v := ((s.time.s * 1000000000 + s.time.n : Nat) : Int) * 2 ^ 44 + s.time.fr,
    inc := if s.pllOk 1 then 2 ^ 44 + s.adj else 0, steps := (s.reg R.TIME_STEP_CNT).toNat, moves := s.time.moves,
    hold := s.bit R.TIME_STATUS F.TIME_STATUS.HOLDOVER, notSet := !s.bit R.TIME_STATUS F.TIME_STATUS.VALID,
    fault := s.bit R.TIME_STATUS F.TIME_STATUS.CNT_FAULT }

/-- The time base is about to be set, moved or given another rate: how it ran so far is kept. -/
def State.timeMark (s : State) : State := { s with time := { s.time with past := s.segNow :: s.time.past } }

/-- How the time base ran at the instant `x`, in 1/64 ns of real time. -/
def State.segAt (s : State) (x : Nat) : TimeSeg :=
  ((s.time.past.filter fun g => decide (x < 4 * g.until16)).getLast?).getD s.segNow

/-- The time base of a run at the instant `x`, in 1/64 ns of real time, in 2^-44 ns: its value at the last time clock edge before it and
the phase from that edge (R364). -/
def TimeSeg.at (g : TimeSeg) (x : Nat) : Int :=
  g.v + ((x / 64 : Nat) - (g.edge : Int)) * g.inc + (if g.inc = 0 then 0 else ((x % 64 : Nat) : Int) * 2 ^ 38)

/-- The time base at the instant `x`, in 1/64 ns of real time, past or still to come, in 2^-44 ns. -/
def State.timeAt (s : State) (x : Nat) : Int := (s.segAt x).at x

/-- The time base at the instant `x`, with every step and trim since then (R339). -/
def State.timeMoved (s : State) (x : Nat) : Int := s.timeAt x + (s.time.moves - (s.segAt x).moves) * 2 ^ 28

/-- The time base `age` 1/16 ns before now, in 2^-44 ns. -/
def State.fine (s : State) (age : Nat) : Int := s.timeAt (4 * (s.t16 - age))

/-- A number of 2^-44 ns less a delay in 1/3400 ns, rounded to the nearest 1/16 ns, a tie going up (R364). -/
def stamp16 (v d : Int) : Int := (v * 3400 - d * 2 ^ 44 + 1700 * 2 ^ 40) / (3400 * 2 ^ 40)

/-- A time base value of a number of 1/16 ns; it does not go below 0. -/
def TimeVal.of16 (v : Int) : TimeVal := TimeVal.ofUnits (v.toNat * 4096)

/-- The time base now, refined to 1/16 ns. -/
def State.tfine (s : State) (age : Nat) : TimeVal := TimeVal.of16 (stamp16 (s.fine age) 0)

/-- A value of the time base as the six and four bytes of a PTP timestamp use it, S in 48 bits. -/
def TimeVal.word (t : TimeVal) : Nat := t.s * 2 ^ 48 + t.n * 2 ^ 16 + t.f

/-! ### Free values -/

/-- A free number, and the machine with the next free value due. -/
def State.freeWord (s : State) : Nat × State :=
  ((Config.freeWord s.freeIx).toNat, { s with freeIx := s.freeIx + 1 })

/-- A free choice. -/
def State.freeBool (s : State) : Bool × State := (Config.freeBool s.freeIx, { s with freeIx := s.freeIx + 1 })

/-! ### Bytes -/

/-- A sequence of bytes as a number, most significant byte first (R9). -/
def beNat : Bytes → Nat := List.foldl (fun a b => a * 256 + b.toNat) 0

/-- A sequence of bytes as a number, least significant byte first (R10). -/
def leNat : Bytes → Nat := List.foldr (fun b a => b.toNat + 256 * a) 0

/-- The low `k` bytes of a number, least significant first. -/
def natLE : Nat → Nat → Bytes
  | 0, _ => []
  | k + 1, n => BitVec.ofNat 8 n :: natLE k (n / 256)

/-- The low `k` bytes of a number, most significant first. -/
def natBE (k n : Nat) : Bytes := (natLE k n).reverse

/-- Byte `i` of a sequence; a byte beyond its end reads zero. -/
def byteAt (bs : Bytes) (i : Nat) : Byte := bs.getD i 0

/-- `len` bytes from offset `off`; bytes beyond the end read zero. -/
def slice (bs : Bytes) (off len : Nat) : Bytes :=
  let t := (bs.drop off).take len
  t ++ List.replicate (len - t.length) 0

/-- Replace bytes from offset `off`; bytes that fall beyond the end are dropped. -/
def splice (bs : Bytes) (off : Nat) (new : Bytes) : Bytes :=
  bs.take off ++ new.take (bs.length - off) ++ bs.drop (off + new.length)

/-- Bytes brought to length `n`: cut, or filled with zeros at the end. -/
def fitBytes (n : Nat) (bs : Bytes) : Bytes := bs.take n ++ List.replicate (n - bs.length) 0

/-- The element at index `i` replaced. -/
def listSet {α : Type} : List α → Nat → α → List α
  | [], _, _ => []
  | _ :: t, 0, v => v :: t
  | h :: t, i + 1, v => h :: listSet t i v

/-- A number with bit `i` set. -/
def setNBit (v i : Nat) : Nat := if nbit v i then v else v + 2 ^ i

/-- A number with bit `i` cleared. -/
def clrNBit (v i : Nat) : Nat := if nbit v i then v - 2 ^ i else v

/-! ### What leaves the part -/

/-- Give something to the outside. -/
def State.emit (s : State) (e : Emit) : State := { s with outbox := s.outbox ++ [e] }

/-- What function f is to PCI Express (R575). -/
def pcieIdent (f : Nat) : PcieIdent := { device := if f = 0 then 0xA900 else 0xA901 }

/-- The settings of function f's configuration space. -/
def State.pcieCfg (s : State) (f : Nat) : PcieCfg := SMap.get (fun _ => {}) s.irq.pcie f

/-- Function f reads `len` bytes of host memory from an address, in requests of at most Max_Read_Request_Size bytes that cross no multiple of it
(R576; PCI Express lets none cross a multiple of 4,096). -/
def State.hostReads (s : State) (f addr len : Nat) : State :=
  let m := 128 * 2 ^ (s.pcieCfg f).mrrs
  ((List.range (if len = 0 then 0 else (addr + len + m - 1) / m - addr / m)).map (addr / m + ·)).foldl (fun s k =>
    let lo := max addr (k * m)
    s.emit (.hostRead f lo (min (addr + len) ((k + 1) * m) - lo))) s

/-- The command does not apply in this state, or is carried out: the outcome of every command that ends in a state. -/
abbrev Out := Host.Outcome State Fault Refusal

end Sys2Proof.Machine
end

