-- ==== Sys2Proof/Machine/Digest.lean ====
section
/-! DEFINITION. The checksums and digests of the part: CRC-32C (R156), the Ethernet FCS, the Internet checksum (R144),
SHA-256 and HMAC-SHA-256 (R412). All work on numbers below 2^32. -/

namespace Sys2Proof.Machine

/-! ### Reflected CRCs -/

/-- One bit of a reflected CRC with reversed polynomial `poly`. -/
def crcBit (poly c : Nat) : Nat := if c % 2 = 1 then Nat.xor (c / 2) poly else c / 2

/-- One byte of a reflected CRC. -/
def crcByte (poly c : Nat) (b : Byte) : Nat :=
  let x := Nat.xor c b.toNat
  let x := crcBit poly (crcBit poly (crcBit poly (crcBit poly x)))
  crcBit poly (crcBit poly (crcBit poly (crcBit poly x)))

/-- CRC-32C: polynomial 0x1EDC6F41, least significant bit first, the seed loaded as written, the result inverted (R156). -/
def crc32c (seed : Nat) (bs : Bytes) : Nat := Nat.xor (bs.foldl (crcByte 0x82F63B78) seed) 0xFFFFFFFF

/-- The frame check sequence of Ethernet, as the number whose least significant byte is sent first. -/
def fcs32 (bs : Bytes) : Nat := Nat.xor (bs.foldl (crcByte 0xEDB88320) 0xFFFFFFFF) 0xFFFFFFFF

/-- A frame with its FCS. -/
def withFcs (bs : Bytes) : Bytes := bs ++ natLE 4 (fcs32 bs)

/-- The FCS of a frame is right. -/
def fcsOk (frame : Bytes) : Bool :=
  decide (4 ≤ frame.length) &&
    decide (natLE 4 (fcs32 (frame.take (frame.length - 4))) = frame.drop (frame.length - 4))

/-! ### The Internet checksum -/

/-- The sum of the 16-bit words of a sequence of bytes, first byte most significant; an odd last byte is padded. -/
def sum16 : Bytes → Nat
  | a :: b :: t => a.toNat * 256 + b.toNat + sum16 t
  | [a] => a.toNat * 256
  | [] => 0

/-- A sum folded to 16 bits in ones' complement. -/
def fold16 (n : Nat) : Nat :=
  let a := n % 65536 + n / 65536
  let b := a % 65536 + a / 65536
  b % 65536 + b / 65536

/-! ### SHA-256 -/

def shaK : List Nat :=
  [0x428a2f98, 0x71374491, 0xb5c0fbcf, 0xe9b5dba5, 0x3956c25b, 0x59f111f1, 0x923f82a4, 0xab1c5ed5] ++
  [0xd807aa98, 0x12835b01, 0x243185be, 0x550c7dc3, 0x72be5d74, 0x80deb1fe, 0x9bdc06a7, 0xc19bf174] ++
  [0xe49b69c1, 0xefbe4786, 0x0fc19dc6, 0x240ca1cc, 0x2de92c6f, 0x4a7484aa, 0x5cb0a9dc, 0x76f988da] ++
  [0x983e5152, 0xa831c66d, 0xb00327c8, 0xbf597fc7, 0xc6e00bf3, 0xd5a79147, 0x06ca6351, 0x14292967] ++
  [0x27b70a85, 0x2e1b2138, 0x4d2c6dfc, 0x53380d13, 0x650a7354, 0x766a0abb, 0x81c2c92e, 0x92722c85] ++
  [0xa2bfe8a1, 0xa81a664b, 0xc24b8b70, 0xc76c51a3, 0xd192e819, 0xd6990624, 0xf40e3585, 0x106aa070] ++
  [0x19a4c116, 0x1e376c08, 0x2748774c, 0x34b0bcb5, 0x391c0cb3, 0x4ed8aa4a, 0x5b9cca4f, 0x682e6ff3] ++
  [0x748f82ee, 0x78a5636f, 0x84c87814, 0x8cc70208, 0x90befffa, 0xa4506ceb, 0xbef9a3f7, 0xc67178f2]

def shaInit : List Nat :=
  [0x6a09e667, 0xbb67ae85, 0x3c6ef372, 0xa54ff53a, 0x510e527f, 0x9b05688c, 0x1f83d9ab, 0x5be0cd19]

/-- A 32-bit word rotated right. -/
def rotr (x n : Nat) : Nat := x / 2 ^ n + x % 2 ^ n * 2 ^ (32 - n)

def xor3 (a b c : Nat) : Nat := Nat.xor (Nat.xor a b) c

/-- The next word of the message schedule, from its last 16 words, oldest first. -/
def shaNext (w : List Nat) : Nat :=
  let a := w.getD 1 0
  let b := w.getD 14 0
  (w.getD 0 0 + xor3 (rotr a 7) (rotr a 18) (a / 2 ^ 3) + w.getD 9 0 + xor3 (rotr b 17) (rotr b 19) (b / 2 ^ 10))
    % 2 ^ 32

/-- One round on the working words a to h. -/
def shaRound (st : List Nat) (k w : Nat) : List Nat :=
  match st with
  | [a, b, c, d, e, f, g, h] =>
    let t1 := h + xor3 (rotr e 6) (rotr e 11) (rotr e 25) + Nat.xor (Nat.land e f) (Nat.land (2 ^ 32 - 1 - e) g) + k + w
    let t2 := xor3 (rotr a 2) (rotr a 13) (rotr a 22) + xor3 (Nat.land a b) (Nat.land a c) (Nat.land b c)
    [(t1 + t2) % 2 ^ 32, a, b, c, (d + t1) % 2 ^ 32, e, f, g]
  | _ => st

/-- The rounds over the constants left, with the last 16 words of the schedule. -/
def shaRounds : List Nat → List Nat → List Nat → List Nat
  | [], _, st => st
  | k :: ks, w, st => shaRounds ks (w.drop 1 ++ [shaNext w]) (shaRound st k (w.getD 0 0))

/-- The big-endian 32-bit words of a sequence of bytes. -/
def words32 : Bytes → List Nat
  | a :: b :: c :: d :: t => (((a.toNat * 256 + b.toNat) * 256 + c.toNat) * 256 + d.toNat) :: words32 t
  | _ => []

/-- One 64-byte block. -/
def shaBlock (h : List Nat) (blk : Bytes) : List Nat :=
  List.zipWith (fun a b => (a + b) % 2 ^ 32) h (shaRounds shaK (words32 blk) h)

/-- All blocks; `n` bounds their number. -/
def shaBlocks : Nat → List Nat → Bytes → List Nat
  | 0, h, _ => h
  | n + 1, h, bs => shaBlocks n (shaBlock h (bs.take 64)) (bs.drop 64)

/-- SHA-256 of a sequence of bytes. -/
def sha256 (bs : Bytes) : Bytes :=
  let pad := (119 - bs.length % 64) % 64
  let m := bs ++ [0x80] ++ List.replicate pad 0 ++ natBE 8 (bs.length * 8)
  (shaBlocks (m.length / 64) shaInit m).flatMap (natBE 4)

/-- HMAC-SHA-256. -/
def hmac256 (key msg : Bytes) : Bytes :=
  let k := fitBytes 64 (if 64 < key.length then sha256 key else key)
  let x := fun p => k.map fun b => b ^^^ (BitVec.ofNat 8 p)
  sha256 (x 0x5C ++ sha256 (x 0x36 ++ msg))

end Sys2Proof.Machine
end

