-- ==== Sys2Proof/Machine/Ecdsa.lean ====
section
/-! DEFINITION. The signature of the boot container and of structure images (R593): SHA-384, and the verification of ECDSA over P-384. Their
constants are those of the public standards that the manual names (log entry 8). Points are in projective coordinates, so that no step divides. -/

namespace Sys2Proof.Machine

/-! ### SHA-384 -/

def sha5K : List Nat :=
  [0x428a2f98d728ae22, 0x7137449123ef65cd, 0xb5c0fbcfec4d3b2f, 0xe9b5dba58189dbbc, 0x3956c25bf348b538] ++
  [0x59f111f1b605d019, 0x923f82a4af194f9b, 0xab1c5ed5da6d8118, 0xd807aa98a3030242, 0x12835b0145706fbe] ++
  [0x243185be4ee4b28c, 0x550c7dc3d5ffb4e2, 0x72be5d74f27b896f, 0x80deb1fe3b1696b1, 0x9bdc06a725c71235] ++
  [0xc19bf174cf692694, 0xe49b69c19ef14ad2, 0xefbe4786384f25e3, 0x0fc19dc68b8cd5b5, 0x240ca1cc77ac9c65] ++
  [0x2de92c6f592b0275, 0x4a7484aa6ea6e483, 0x5cb0a9dcbd41fbd4, 0x76f988da831153b5, 0x983e5152ee66dfab] ++
  [0xa831c66d2db43210, 0xb00327c898fb213f, 0xbf597fc7beef0ee4, 0xc6e00bf33da88fc2, 0xd5a79147930aa725] ++
  [0x06ca6351e003826f, 0x142929670a0e6e70, 0x27b70a8546d22ffc, 0x2e1b21385c26c926, 0x4d2c6dfc5ac42aed] ++
  [0x53380d139d95b3df, 0x650a73548baf63de, 0x766a0abb3c77b2a8, 0x81c2c92e47edaee6, 0x92722c851482353b] ++
  [0xa2bfe8a14cf10364, 0xa81a664bbc423001, 0xc24b8b70d0f89791, 0xc76c51a30654be30, 0xd192e819d6ef5218] ++
  [0xd69906245565a910, 0xf40e35855771202a, 0x106aa07032bbd1b8, 0x19a4c116b8d2d0c8, 0x1e376c085141ab53] ++
  [0x2748774cdf8eeb99, 0x34b0bcb5e19b48a8, 0x391c0cb3c5c95a63, 0x4ed8aa4ae3418acb, 0x5b9cca4f7763e373] ++
  [0x682e6ff3d6b2b8a3, 0x748f82ee5defb2fc, 0x78a5636f43172f60, 0x84c87814a1f0ab72, 0x8cc702081a6439ec] ++
  [0x90befffa23631e28, 0xa4506cebde82bde9, 0xbef9a3f7b2c67915, 0xc67178f2e372532b, 0xca273eceea26619c] ++
  [0xd186b8c721c0c207, 0xeada7dd6cde0eb1e, 0xf57d4f7fee6ed178, 0x06f067aa72176fba, 0x0a637dc5a2c898a6] ++
  [0x113f9804bef90dae, 0x1b710b35131c471b, 0x28db77f523047d84, 0x32caab7b40c72493, 0x3c9ebe0a15c9bebc] ++
  [0x431d67c49c100d4c, 0x4cc5d4becb3e42b6, 0x597f299cfc657e2a, 0x5fcb6fab3ad6faec, 0x6c44198c4a475817]

def sha384Init : List Nat :=
  [0xcbbb9d5dc1059ed8, 0x629a292a367cd507, 0x9159015a3070dd17, 0x152fecd8f70e5939, 0x67332667ffc00b31] ++
  [0x8eb44a8768581511, 0xdb0c2e0d64f98fa7, 0x47b5481dbefa4fa4]

/-- A 64-bit word rotated right. -/
def rotr64 (x n : Nat) : Nat := x / 2 ^ n + x % 2 ^ n * 2 ^ (64 - n)

/-- The next word of the message schedule, from its last 16 words, oldest first. -/
def sha5Next (w : List Nat) : Nat :=
  let a := w.getD 1 0
  let b := w.getD 14 0
  (w.getD 0 0 + xor3 (rotr64 a 1) (rotr64 a 8) (a / 2 ^ 7) + w.getD 9 0 + xor3 (rotr64 b 19) (rotr64 b 61) (b / 2 ^ 6)) % 2 ^ 64

/-- One round on the working words a to h. -/
def sha5Round (st : List Nat) (k w : Nat) : List Nat :=
  match st with
  | [a, b, c, d, e, f, g, h] =>
    let t1 := h + xor3 (rotr64 e 14) (rotr64 e 18) (rotr64 e 41) + Nat.xor (Nat.land e f) (Nat.land (2 ^ 64 - 1 - e) g) + k + w
    let t2 := xor3 (rotr64 a 28) (rotr64 a 34) (rotr64 a 39) + xor3 (Nat.land a b) (Nat.land a c) (Nat.land b c)
    [(t1 + t2) % 2 ^ 64, a, b, c, (d + t1) % 2 ^ 64, e, f, g]
  | _ => st

/-- The rounds over the constants left, with the last 16 words of the schedule. -/
def sha5Rounds : List Nat → List Nat → List Nat → List Nat
  | [], _, st => st
  | k :: ks, w, st => sha5Rounds ks (w.drop 1 ++ [sha5Next w]) (sha5Round st k (w.getD 0 0))

/-- One 128-byte block. -/
def sha5Block (h : List Nat) (blk : Bytes) : List Nat :=
  List.zipWith (fun a b => (a + b) % 2 ^ 64) h (sha5Rounds sha5K ((List.range 16).map fun k => beNat (slice blk (8 * k) 8)) h)

/-- All blocks; `n` bounds their number. -/
def sha5Blocks : Nat → List Nat → Bytes → List Nat
  | 0, h, _ => h
  | n + 1, h, bs => sha5Blocks n (sha5Block h (bs.take 128)) (bs.drop 128)

/-- SHA-384 of a sequence of bytes. -/
def sha384 (bs : Bytes) : Bytes :=
  let pad := (239 - bs.length % 128) % 128
  let m := bs ++ [0x80] ++ List.replicate pad 0 ++ natBE 16 (bs.length * 8)
  ((sha5Blocks (m.length / 128) sha384Init m).take 6).flatMap (natBE 8)

/-! ### The curve P-384 -/

def p384P : Nat := 2 ^ 384 - 2 ^ 128 - 2 ^ 96 + 2 ^ 32 - 1
def p384N : Nat := 0xffffffffffffffffffffffffffffffffffffffffffffffffc7634d81f4372ddf581a0db248b0a77aecec196accc52973
def p384B : Nat := 0xb3312fa7e23ee7e4988e056be3f82d19181d9c6efe8141120314088f5013875ac656398d8a2ed19d2a85c8edd3ec2aef
def p384Gx : Nat := 0xaa87ca22be8b05378eb1c71ef320ad746e1d3b628ba79b9859f741e082542a385502f25dbf55296c3a545e3872760ab7
def p384Gy : Nat := 0x3617de4a96262c6f5d9e98bf9292dc29f8f41dbd289a147ce9da3113b5f0b8c00a60b1ce1d7e819d7a431d7c90ea0e5f

/-- A point (x / z², y / z³); z is 0 at infinity. -/
structure JPoint where
  x : Nat
  y : Nat
  z : Nat
  deriving DecidableEq, Repr

/-- A difference in the field. -/
def fSub (a b : Nat) : Nat := (a + p384P - b) % p384P

/-- Twice a point. -/
def JPoint.dbl (q : JPoint) : JPoint :=
  if q.z = 0 then q
  else
    let d := q.z * q.z % p384P
    let g := q.y * q.y % p384P
    let b := q.x * g % p384P
    let a := 3 * (fSub q.x d * ((q.x + d) % p384P)) % p384P
    let x := fSub (a * a % p384P) (8 * b % p384P)
    ⟨x, fSub (a * fSub (4 * b % p384P) x % p384P) (8 * (g * g) % p384P), 2 * (q.y * q.z) % p384P⟩

/-- The sum of two points. -/
def JPoint.add (q r : JPoint) : JPoint :=
  if q.z = 0 then r
  else if r.z = 0 then q
  else
    let qq := q.z * q.z % p384P
    let rr := r.z * r.z % p384P
    let u := q.x * rr % p384P
    let s := q.y * (r.z * rr % p384P) % p384P
    let h := fSub (r.x * qq % p384P) u
    let k := fSub (r.y * (q.z * qq % p384P) % p384P) s
    if h = 0 then (if k = 0 then q.dbl else ⟨1, 1, 0⟩)
    else
      let hh := h * h % p384P
      let hc := h * hh % p384P
      let v := u * hh % p384P
      let x := fSub (fSub (k * k % p384P) hc) (2 * v % p384P)
      ⟨x, fSub (k * fSub v x % p384P) (s * hc % p384P), h * (q.z * r.z % p384P) % p384P⟩

/-- The bits 383 to 0 of a number, the first the most significant. -/
def bits384 (a : Nat) : List Bool := (List.range 384).map fun i => a.testBit (383 - i)

/-- The sum of a multiple of g and one of q, whose bits are given together; `gq` is g + q. -/
def mulAdd (g q gq : JPoint) : List (Bool × Bool) → JPoint → JPoint
  | [], acc => acc
  | (a, b) :: t, acc =>
    let d := acc.dbl
    mulAdd g q gq t (if a then (if b then d.add gq else d.add g) else if b then d.add q else d)

/-- A power modulo the order of the group, by the bits of the exponent. -/
def powN (a : Nat) : List Bool → Nat → Nat
  | [], acc => acc
  | b :: t, acc =>
    let d := acc * acc % p384N
    powN a t (if b then d * a % p384N else d)

/-- ECDSA over P-384: the signature (r, s) of the digest e is good under the point (x, y). -/
def ecdsaOk (x y e r s : Nat) : Bool :=
  if x < p384P ∧ y < p384P ∧ y * y % p384P = (x * x * x + (p384P - 3) * x + p384B) % p384P ∧ 0 < r ∧ r < p384N ∧ 0 < s ∧ s < p384N then
    let w := powN s (bits384 (p384N - 2)) 1
    let g : JPoint := ⟨p384Gx, p384Gy, 1⟩
    let q : JPoint := ⟨x, y, 1⟩
    let t := mulAdd g q (g.add q) ((bits384 (e * w % p384N)).zip (bits384 (r * w % p384N))) ⟨1, 1, 0⟩
    let zz := t.z * t.z % p384P
    decide (t.z ≠ 0 ∧ (r * zz % p384P = t.x ∨ (r + p384N < p384P ∧ (r + p384N) * zz % p384P = t.x)))
  else false

/-! ### The signature block (R593) -/

/-- What stands before the 256-byte signature block of an image or a container. -/
def signedPart (raw : Bytes) : Bytes := raw.take (raw.length - 256)

/-- The last 256 bytes are a signature block that is good for the bytes before it: its layout, the digest of its key, which must be `key`, and
the signature. -/
def sigGood (key raw : Bytes) : Bool :=
  let b := raw.drop (raw.length - 256)
  decide (256 ≤ raw.length ∧ b.getD 0 0 = 4 ∧ slice b 97 63 = List.replicate 63 0 ∧ sha384 (b.take 97) = key) &&
    ecdsaOk (beNat (slice b 1 48)) (beNat (slice b 49 48)) (beNat (sha384 (signedPart raw))) (beNat (slice b 160 48)) (beNat (slice b 208 48))

end Sys2Proof.Machine
end

