-- ==== Sys2Proof/Machine/Container.lean ====
section
/-! DEFINITION. The boot container and structure images as bytes: their headers, the section table and the hashes (R591, R592). -/

namespace Sys2Proof.Machine

/-- A structure image starts with MAGIC, FORMAT 1 and its length in bytes 8 to 11. DESIGN CHOICE: the length is that of the whole image, its
signature block included; an image whose header fails is outside the loader's limits (log entry 8). -/
def imageHeadOk (raw : Bytes) : Bool :=
  decide (320 ≤ raw.length ∧ slice raw 0 4 = [0x41, 0x4C, 0x39, 0x49] ∧ leNat (slice raw 4 2) = 1 ∧ leNat (slice raw 8 4) = raw.length)

/-- The image hash: SHA-256 over header and body, without the signature block. -/
def imageHash (img : Image) : Bytes := sha256 (signedPart img.raw)

/-- The bytes that a container's header gives as its length, and how many sections. -/
def totalLen (raw : Bytes) : Nat := leNat (slice raw 8 4)
def sectCount (raw : Bytes) : Nat := leNat (slice raw 6 2)

/-- The header of a container is valid (Table 22.7), and it fits the image store. -/
def containerHeadOk (raw : Bytes) : Bool :=
  decide (slice raw 0 4 = [0x41, 0x4C, 0x39, 0x43] ∧ leNat (slice raw 4 2) = 1 ∧ 2 ≤ sectCount raw ∧ sectCount raw ≤ 17 ∧
    totalLen raw % 4 = 0 ∧ totalLen raw ≤ 13107200 ∧ slice raw 12 4 = List.replicate 4 0 ∧ slice raw 48 16 = List.replicate 16 0)

/-- An entry of the section table. -/
structure Sect where
  kind : Nat
  index : Nat
  off : Nat
  len : Nat
  deriving DecidableEq, Repr

/-- The section table, from byte 64. -/
def sectsOf (raw : Bytes) : List Sect :=
  (List.range (sectCount raw)).map fun i =>
    let b := slice raw (64 + 16 * i) 16
    ⟨leNat (slice b 0 2), leNat (slice b 2 2), leNat (slice b 4 4), leNat (slice b 8 4)⟩

/-- A section does not overlap the one that starts next, by offset. -/
def apartList : List Sect → Bool
  | [] => true
  | a :: t => (t.all fun b => decide (a.off + a.len ≤ b.off ∨ b.off + b.len ≤ a.off)) && apartList t

/-- Two numbers of a list are never equal. -/
def allDiff : List Nat → Bool
  | [] => true
  | x :: xs => !xs.contains x && allDiff xs

/-- The section table of a container is valid, and the container has its whole length. DESIGN CHOICE: no section lies over the header or the
table (log entry 8). -/
def sectsOk (raw : Bytes) : Bool :=
  let ss := sectsOf raw
  let imgs := ss.filter fun e => e.kind = 2
  decide (raw.length = totalLen raw) &&
  (List.range (sectCount raw)).all (fun i => decide (slice raw (76 + 16 * i) 4 = List.replicate 4 0)) &&
  (ss.all fun e => decide ((e.kind = 1 ∨ e.kind = 2) ∧ e.off % 64 = 0 ∧ 64 + 16 * sectCount raw ≤ e.off ∧ e.off + e.len + 256 ≤ totalLen raw)) &&
  apartList ss && decide ((ss.filter fun e => e.kind = 1).length = 1) && (imgs.all fun e => decide (e.index ≤ 15)) &&
  allDiff (imgs.map (·.index))

/-- The images of a container by INDEX: what each holds, with the bytes of its section. -/
def containerImages (c : Container) : List (Nat × Image) :=
  List.zipWith (fun e g => (e.index, ({ g with raw := slice c.raw e.off e.len } : Image))) ((sectsOf c.raw).filter fun e => e.kind = 2) c.images

end Sys2Proof.Machine
end

