-- ==== Sys2Proof/Machine/Irq.lean ====
section
/-! DEFINITION. The interrupt trees (chapter "Faults and Interrupts"): severities, the place of every detail cause
register, the summary and block cause vectors, the start of a cause with its pending bit, history entry and MSI, and
access violations. -/

namespace Sys2Proof.Machine

/-- The severity of each bit of each detail cause register, bit 0 first (Table 21.1; R555 and the DMA register map
for those of the management interfaces). A register that is no detail cause has none. -/
def sevList : RegId → List Nat
  | .LG_CAUSE => [0, 0, 0, 0, 0, 0, 0, 0, 0, 0, 0, 0, 0, 0, 0, 0, 1, 2, 2]
  | .LG_LN_CAUSE => [2, 2, 1, 2, 1, 1, 0, 1]
  | .PORT_CAUSE => [2, 2, 2, 1, 1, 2, 2, 0, 1]
  | .PORT_TS_CAUSE => [1, 1, 1, 1]
  | .PAR_CAUSE => [0, 1, 1]
  | .STG_CAUSE => [1, 1, 1, 1, 2]
  | .STG_UC_CAUSE => [2, 1, 1, 1]
  | .TC_CAUSE => [1, 1, 0, 1]
  | .VER_CAUSE => [2, 1, 1]
  | .BPM_CAUSE => [1, 1, 2, 2, 2]
  | .BPM_OWN_CAUSE => [1, 1, 0, 0, 2, 1]
  | .TM_PORT_CAUSE => [2, 0, 0, 2, 2]
  | .TM_PIPE_CAUSE => [1, 1]
  | .TIME_CAUSE => [0, 2, 2, 1, 3, 1, 1, 1, 1, 2, 0, 1, 1]
  | .TT_CAUSE => [1, 1, 1]
  | .WB_CAUSE => [2, 1, 1]
  | .WB_STRM_CAUSE => [1, 2, 2]
  | .OST_OWN_CAUSE => [1, 2, 1, 1, 1, 1, 1, 1]
  | .CNT_CAUSE => [0, 1, 0, 1]
  | .PST_CAUSE => [2, 1, 1, 0, 2, 1, 2, 1, 1, 2, 3, 1]
  | .CLK_CAUSE => [2, 3]
  | .DEV_BOOT_CAUSE => [1, 1, 1, 1, 1, 2]
  | .IRQ_OWN_CAUSE => [1, 1, 1, 1, 1, 0, 3, 2]
  | .DEV_PRES_CAUSE => [0, 0, 1, 2, 0]
  | .SB_CAUSE => [1, 1, 1, 1, 1, 1, 1, 1, 2, 2, 2, 2, 2, 2, 2, 2]
  | .DMA_CAUSE => [1, 1, 1, 2, 2, 2, 2, 2, 0, 0, 0, 0, 1]
  | _ => []

/-! ### Where a cause stands in the trees (R556, R557, Table 21.2) -/

/-- The place of a detail cause register: its source b, its instance 32k + i, and its owner. -/
structure CauseLoc where
  src : Nat
  inst : Nat
  owner : Nat
  deriving DecidableEq, Repr

/-- The place of the detail cause register at a window address, from its name and region. -/
def State.causeLocOf (s : State) (g : Region) (id : RegId) : Option CauseLoc :=
  match id, g with
  | .IRQ_OWN_CAUSE, .irqPage n => some (if n = 0 then ⟨0, 0, 0⟩ else ⟨1, n, n⟩)
  | .DEV_BOOT_CAUSE, _ => some ⟨0, 1, 0⟩
  | .DEV_PRES_CAUSE, _ => some ⟨1, 0, 0⟩
  | .PST_CAUSE, _ => some ⟨2, 0, 0⟩
  | .CLK_CAUSE, _ => some ⟨3, 0, 0⟩
  | .TIME_CAUSE, _ => some ⟨4, 0, 0⟩
  | .TT_CAUSE, .tt n => some ⟨5, n, n⟩
  | .WB_STRM_CAUSE, .wbStrm n => some ⟨6, n, n⟩
  | .WB_CAUSE, _ => some ⟨6, 31, 0⟩
  | .LG_CAUSE, .lg g => some ⟨7, g, s.ownerOfPipe (g / 4)⟩
  | .LG_LN_CAUSE, .lane g _ => some ⟨7, g, s.ownerOfPipe (g / 4)⟩
  | .PORT_CAUSE, .port n => some ⟨8, n, s.ownerOfPort n⟩
  | .PORT_TS_CAUSE, .port n => some ⟨8, n, s.ownerOfPort n⟩
  | .BPM_OWN_CAUSE, .bpmPage n => some ⟨9, n, n⟩
  | .BPM_CAUSE, _ => some ⟨9, 31, 0⟩
  | .TM_PORT_CAUSE, .tmPort n => some ⟨10, n, s.ownerOfPort n⟩
  | .TM_PIPE_CAUSE, .tmPipe p => some ⟨10, 1024 + p, s.ownerOfPipe p⟩
  | .OST_OWN_CAUSE, .ostOwn n => some ⟨11, n, n⟩
  | .CNT_CAUSE, .cnt n => some ⟨12, n, n⟩
  | .DMA_CAUSE, .dma f => some ⟨13, f, f⟩
  | .SB_CAUSE, _ => some ⟨14, 0, 0⟩
  | .PAR_CAUSE, .par p => some ⟨16 + p, 0, s.ownerOfPipe p⟩
  | .TC_CAUSE, .tc p => some ⟨16 + p, 1, s.ownerOfPipe p⟩
  | .STG_CAUSE, .stg p st => some ⟨16 + p, 8 + st, s.ownerOfPipe p⟩
  | .STG_UC_CAUSE, .stg p st => some ⟨16 + p, 32 + st, s.ownerOfPipe p⟩
  | _, _ => none

/-- The places of the detail cause register held at `a`, and its name. VER_CAUSE of a Pitch stands in the block cause of
every pipeline of its Pitch (R556); its first place is that of the lowest pipeline. -/
def State.causeLocs (s : State) (a : Nat) : List CauseLoc × Option RegId :=
  match findReg (windowOf a) with
  | none => ([], none)
  | some (g, r, _) =>
    if r.id = .VER_CAUSE then
      let n := (a - 0x20100000) / 0x1000
      ((s.pipesOf n).map fun p => ⟨16 + p, 2, n⟩, some r.id)
    else match s.causeLocOf g r.id with
      | some l => ([l], some r.id)
      | none => ([], none)

/-- The severity of a bit of a detail cause register (R553). -/
def sevOf (id : RegId) (bit : Nat) : Nat := (sevList id).getD bit 0

/-- The bits of a detail cause register, with their severities. -/
def causeBits (id : RegId) (v : Word) : List (Nat × Nat) :=
  ((List.range (sevList id).length).filter fun i => v.getLsbD i).map fun i => (i, sevOf id i)

/-- Every set detail bit of the part: its place, its bit and its severity. Only registers that differ from their
reset value are listed, and every detail cause register resets to 0. -/
def State.setCauses (s : State) : List (CauseLoc × Nat × Nat) :=
  s.regs.flatMap fun e =>
    match s.causeLocs e.1 with
    | (ls, some id) => ls.flatMap fun l => (causeBits id e.2).map fun b => (l, b.1, b.2)
    | _ => []

/-! ### The tree (R557, R558, R567) -/

/-- The index of the severity-bearing registers whose shared faults show in every Pitch (R567). DOM_FAULT counts for a
shared domain, which is the only kind that sets it (`State.domShared`). -/
def State.devFaultSev (s : State) : Nat :=
  let regs := [(R.PST_CAUSE, RegId.PST_CAUSE), (R.CLK_CAUSE, .CLK_CAUSE), (R.TIME_CAUSE, .TIME_CAUSE),
    (R.BPM_CAUSE, .BPM_CAUSE), (R.WB_CAUSE, .WB_CAUSE), (R.DEV_PRES_CAUSE, .DEV_PRES_CAUSE)]
  let sevs := regs.flatMap fun e => (causeBits e.2 (s.reg e.1)).map fun b => b.2
  let dom := if s.bit (R.IRQ_OWN_CAUSE 0) F.IRQ_OWN_CAUSE.DOM_FAULT then [2] else []
  ((sevs ++ dom).filter fun v => decide (2 ≤ v)).foldl max 0

/-- PIT_STATUS[n].DEV_FAULT of every existing Pitch (R567). -/
def State.devFault (s : State) : Bool := decide (s.devFaultSev ≠ 0)

/-- IRQ_SUM[n] without bit 15 of tree 0 (R558). -/
def State.irqSumBase (s : State) (n : Nat) : Nat :=
  let mn := s.fld (R.IRQ_CTL n) F.IRQ_CTL.SUM_MIN
  let base := (s.setCauses).foldl
    (fun acc c => if c.1.owner = n ∧ mn ≤ c.2.2 then setNBit acc c.1.src else acc) 0
  if n ≠ 0 ∧ s.devFault ∧ s.pitchExists n then setNBit base 0 else base

/-- IRQ_BLK[15][0]: bit n is IRQ_SUM[n] AND IRQ_WMASK[n] not 0 (Table 21.2). -/
def State.irqAnyPitch (s : State) : Nat :=
  ((List.range 16).map (· + 1)).foldl
    (fun acc n => if Nat.land (s.irqSumBase n) (s.reg (R.IRQ_WMASK n)).toNat ≠ 0 then setNBit acc n else acc) 0

/-- IRQ_SUM[n] (R558). -/
def State.irqSum (s : State) (n : Nat) : Nat :=
  if n = 0 ∧ s.irqAnyPitch ≠ 0 then setNBit (s.irqSumBase 0) 15 else s.irqSumBase n

/-- The place of a cause register lies in the view of function fn: that of function 0 holds every one, that of function n those of Pitch n,
and, while it owns no pipeline, of these only its interrupt, Waybill stream, counter and DMA pages (R54, R573). -/
def State.inView (s : State) (fn : Nat) (l : CauseLoc) : Bool :=
  decide (fn = 0) || (decide (l.owner = fn) && (s.pitchExists fn || [1, 6, 12, 13].contains l.src))

/-- IRQ_BLK[b][k] as function fn sees it: the bits of the registers in its view (R557, R573). -/
def State.irqBlk (s : State) (fn b k : Nat) : Nat :=
  if b = 15 then (if fn = 0 ∧ k = 0 then s.irqAnyPitch else 0)
  else (s.setCauses).foldl
    (fun acc c => if c.1.src = b ∧ c.1.inst / 32 = k ∧ s.inView fn c.1 then setNBit acc (c.1.inst % 32)
      else acc) 0

/-- IRQ_CTL[n].MAX_SEV: the highest severity of any set detail bit of the tree. -/
def State.irqMaxSev (s : State) (n : Nat) : Nat :=
  (s.setCauses).foldl (fun acc c => if c.1.owner = n then max acc c.2.2 else acc) 0

/-- The interrupt condition C_n (R560). -/
def State.irqC (s : State) (n : Nat) : Bool :=
  decide (Nat.land (s.reg (R.IRQ_PEND n)).toNat (s.reg (R.IRQ_EN n)).toNat ≠ 0)

/-! ### The interrupt (R560, R561) -/

/-- Function n sends its MSI message, or holds it while the vector is masked (R560). -/
def State.sendMsi (s : State) (n : Nat) : State :=
  let c := SMap.get (fun _ => {}) s.irq.pcie n
  if !c.msiEn then s
  else if c.msiMask then
    { s with irq := { s.irq with pcie := SMap.put (fun _ => {}) s.irq.pcie n { c with msiHeld := true } } }
  else s.emit (.msi n)

/-- INTA of function n is asserted (R560). -/
def State.intaLevel (s : State) (n : Nat) : Bool :=
  let c := SMap.get (fun _ => {}) s.irq.pcie n
  !c.msiEn && !c.intxDis && s.irqC n

/-- IRQ_N is driven low (R561). -/
def State.irqNLow (s : State) : Bool := s.irqC 0 && s.bit (R.IRQ_CTL 0) F.IRQ_CTL.PIN_EN

/-! ### The start of a cause (R559, R564, R565) -/

/-- Set bit b of IRQ_PEND[n]; a rise of C_n sends the MSI (R559, R560). -/
def State.setPend (s : State) (n b : Nat) : State :=
  let s' := s.setReg (R.IRQ_PEND n) (BitVec.ofNat 32 (setNBit (s.reg (R.IRQ_PEND n)).toNat b))
  if !s.irqC n && s'.irqC n then s'.sendMsi n else s'

/-- The capacity of history queue n (R564). -/
def histCap (n : Nat) : Nat := if n = 0 then 32 else 8

/-- The history queue of tree n. -/
def State.hist (s : State) (n : Nat) : List HistEntry := SMap.get (fun _ => []) s.irq.hist n

/-- The IRQ_HIST_ID word of an entry. -/
def histId (e : HistEntry) : Word :=
  BitVec.ofNat 32 (2 ^ 31 + e.sev * 2 ^ 29 + e.src * 2 ^ 24 + e.bit * 2 ^ 16 + e.inst)

/-- The management fabric cycle that runs now: cycles of 1.25 ns, counted from power-on (Table 19.1, log entry 116). -/
def State.fabCycle (s : State) : Nat := s.t16 / 20

/-- The entry of a cause that starts now (R564). -/
def State.histNow (s : State) (sev src inst bit : Nat) : HistEntry := ⟨s.tnow, sev, src, inst, bit, s.fabCycle⟩

/-- IRQ_LAST of tree n shows the entry (R565). -/
def State.setLast (s : State) (n : Nat) (e : HistEntry) : State :=
  let s : State := { s with irq := { s.irq with last := SMap.put (fun _ => none) s.irq.last n (some e) } }
  let s := s.setReg (R.IRQ_LAST_ID n) (histId e)
  let s := s.setReg (R.IRQ_LAST_S n) (BitVec.ofNat 32 e.t.s)
  let s := s.setReg (R.IRQ_LAST_SF n) (BitVec.ofNat 32 (e.t.s / 2 ^ 32 * 2 ^ 16 + e.t.f))
  s.setReg (R.IRQ_LAST_NS n) (BitVec.ofNat 32 e.t.n)

/-- Entry a stands before entry b of the same cycle: by source, instance and bit (R564). -/
def HistEntry.before (a b : HistEntry) : Bool :=
  decide (a.src < b.src ∨ (a.src = b.src ∧ (a.inst < b.inst ∨ (a.inst = b.inst ∧ a.bit < b.bit))))

/-- A history with one more entry, which stands behind those of earlier cycles and in its order among those of its own (R564). -/
def histInsert (e : HistEntry) : List HistEntry → List HistEntry
  | [] => [e]
  | x :: xs => if decide (x.cyc = e.cyc) && e.before x then e :: x :: xs else x :: histInsert e xs

/-- The entry that IRQ_LAST of tree n shows. -/
def State.lastEntry (s : State) (n : Nat) : Option HistEntry := SMap.get (fun _ => none) s.irq.last n

/-- Replace history queue n. -/
def State.setHist (s : State) (n : Nat) (q : List HistEntry) : State :=
  { s with irq := { s.irq with hist := SMap.put (fun _ => []) s.irq.hist n q } }

/-- IRQ_LAST of tree n shows the entry, unless it shows one of the same cycle that stands behind it (R564, R565). -/
def State.showLast (s : State) (n : Nat) (e : HistEntry) : State :=
  if (s.lastEntry n).any fun x => decide (x.cyc = e.cyc) && e.before x then s else s.setLast n e

/-- Enter an entry in history queue n. Of a queue that has no room for it the last entry is not kept: HIST_LOST sets and IRQ_HIST_LOST
counts; the start of HIST_LOST is itself such a lost entry (R564, R565). -/
def State.pushHist (s : State) (n : Nat) (e : HistEntry) : State :=
  let q := histInsert e (s.hist n)
  if q.length ≤ histCap n then (s.setHist n q).showLast n e
  else
    let s := ((s.setHist n (q.take (histCap n))).addWrap32 (R.IRQ_HIST_LOST n) 1).showLast n e
    if s.bit (R.IRQ_OWN_CAUSE n) F.IRQ_OWN_CAUSE.HIST_LOST then s
    else
      let s := s.setBit (R.IRQ_OWN_CAUSE n) F.IRQ_OWN_CAUSE.HIST_LOST true
      let src := if n = 0 then 0 else 1
      let sv := sevOf .IRQ_OWN_CAUSE 4
      let s := if s.fld (R.IRQ_CTL n) F.IRQ_CTL.SUM_MIN ≤ sv then s.setPend n src else s
      if s.fld (R.IRQ_CTL n) F.IRQ_CTL.HIST_MIN ≤ sv then
        (s.addWrap32 (R.IRQ_HIST_LOST n) 1).setLast n (s.histNow sv src n 4)
      else s

/-- A cause of source `src` and severity `sev` starts in tree n: its pending bit and its history entry (R559, R564). -/
def State.startIn (s : State) (n src inst bit sev : Nat) : State :=
  let s := if s.fld (R.IRQ_CTL n) F.IRQ_CTL.SUM_MIN ≤ sev then s.setPend n src else s
  if s.fld (R.IRQ_CTL n) F.IRQ_CTL.HIST_MIN ≤ sev then s.pushHist n (s.histNow sev src inst bit) else s

/-- PIT_STATUS[n].DEV_FAULT (R75, R567). -/
def State.devFaultIn (s : State) (n : Nat) : Bool := s.devFault && s.pitchExists n

/-- The highest severity among what feeds bit 15 of tree 0 from tree n: its set detail bits and DEV (R557, R564). -/
def State.feedSev (s : State) (n : Nat) : Nat :=
  let m := (s.reg (R.IRQ_WMASK n)).toNat
  let mn := s.fld (R.IRQ_CTL n) F.IRQ_CTL.SUM_MIN
  (s.setCauses).foldl (fun acc c => if c.1.owner = n ∧ mn ≤ c.2.2 ∧ nbit m c.1.src then max acc c.2.2 else acc)
    (if nbit m 0 && s.devFaultIn n then s.devFaultSev else 0)

/-- The Pitch that raises bit 15 of tree 0: the lowest that feeds it. -/
def State.feeder (s : State) : Nat := (((List.range 16).map (· + 1)).find? fun n => nbit s.irqAnyPitch n).getD 0

/-- The rises that follow a change from `before` to `s`: DEV in the tree of each Pitch that comes to show it, and bit 15 of tree 0, raised
by the Pitch that feeds it, with the severity of what does (R559, R564, R567). -/
def State.rises (s before : State) : State :=
  let devs := ((List.range 16).map (· + 1)).filter fun n => !before.devFaultIn n && s.devFaultIn n
  let dev := s.devFaultSev
  let s := devs.foldl (fun s n => s.startIn n 0 0 1 dev) s
  if before.irqAnyPitch = 0 ∧ s.irqAnyPitch ≠ 0 then s.startIn 0 15 s.feeder 0 (s.feedSev s.feeder) else s

/-- A cause starts: bit `bit` of the detail cause register held at `a` (R559). VER_CAUSE sets the pending bit of every
pipeline of its Pitch, and is entered in the history once, under the lowest (R564). -/
def State.arise (s : State) (a bit : Nat) : State :=
  match s.causeLocs a with
  | (l :: ls, some id) =>
    let sv := sevOf id bit
    let s1 := s.setReg a (BitVec.ofNat 32 (setNBit (s.reg a).toNat bit))
    let s2 := s1.startIn l.owner l.src l.inst bit sv
    let s3 := ls.foldl
      (fun s l => if s.fld (R.IRQ_CTL l.owner) F.IRQ_CTL.SUM_MIN ≤ sv then s.setPend l.owner l.src else s) s2
    s3.rises s
  | _ => s.setReg a (BitVec.ofNat 32 (setNBit (s.reg a).toNat bit))

/-- Set a detail bit: a bit that stands already starts no cause (R559). -/
def State.causeBit (s : State) (a bit : Nat) : State := if (s.reg a).getLsbD bit then s else s.arise a bit

/-- Set a one-bit field of a detail cause register. -/
def State.cause (s : State) (a : Nat) (f : Fld) : State := s.causeBit a f.lo

/-- A persisting cause first arises: it starts whether or not its bit still stands from before (R559). -/
def State.ariseF (s : State) (a : Nat) (f : Fld) : State := s.arise a f.lo

/-! ### Access violations (R14, R53, R56) -/

/-- A violation of function f at offset `a` gives way to the one recorded: that one came in the same fabric cycle and stands at a
higher offset (R56). -/
def State.avYields (s : State) (f a : Nat) : Bool :=
  decide (SMap.get (fun _ => 0) s.irq.avCyc f = s.fabCycle + 1) && decide (a % 2 ^ 29 < (s.reg (R.PIT_AV_ADDR f)).toNat % 2 ^ 29)

/-- An access violation of function f: it is counted, recorded and raised in the tree of f. -/
def State.accessViolation (s : State) (f a : Nat) (write badSize : Bool) : State :=
  let yields := s.avYields f a
  let s := s.addSat32 (R.PIT_AV_CNT f) 1
  let s := { s with irq := { s.irq with avCyc := SMap.put (fun _ => 0) s.irq.avCyc f (s.fabCycle + 1) } }
  let s := if yields then s
    else s.setReg (R.PIT_AV_ADDR f)
      (BitVec.ofNat 32 ((if write then 2 ^ 31 else 0) + (if badSize then 2 ^ 30 else 0) + a % 2 ^ 29))
  s.cause (R.IRQ_OWN_CAUSE f) F.IRQ_OWN_CAUSE.AV

/-- A busy write: a 1 written to an SC bit while its action runs, in a block whose own causes name no other bit (R11). -/
def State.busyWrite (s : State) (f : Nat) : State := s.cause (R.IRQ_OWN_CAUSE f) F.IRQ_OWN_CAUSE.BUSY

/-- One more refusal across a Pitch boundary in PIT_XDROP[n]; a rise raises XDROP (R48, R49, R50). -/
def State.xdrop (s : State) (n k : Nat) : State :=
  if n = 0 ∨ k = 0 then s
  else (s.addSat32 (R.PIT_XDROP n) k).cause (R.IRQ_OWN_CAUSE n) F.IRQ_OWN_CAUSE.XDROP

end Sys2Proof.Machine
end

