-- ==== Sys2Proof/Machine/Lane.lean ====
section
/-! DEFINITION. SerDes lanes (chapter "SerDes Lanes"): which port a lane belongs to, the tap sets of R84 and R85, the
Lane Margin Figure of R87, its alarms, continuous adaptation, and squelch. -/

namespace Sys2Proof.Machine

/-! ### Formation queries (R16, R101) -/

/-- The hidden state of a port. -/
def State.port (s : State) (n : Nat) : PortSt := SMap.get (fun _ => {}) s.ports n

/-- Replace the hidden state of a port. -/
def State.setPort (s : State) (n : Nat) (q : PortSt) : State :=
  { s with ports := SMap.put (fun _ => {}) s.ports n q }

/-- The hidden state of a lane. -/
def State.lane (s : State) (l : Nat) : LaneSt := SMap.get (fun _ => {}) s.lanes l

/-- Replace the hidden state of a lane. -/
def State.setLane (s : State) (l : Nat) (q : LaneSt) : State :=
  { s with lanes := SMap.put (fun _ => {}) s.lanes l q }

/-- The lanes of a WIDTH code: 0 forms no port, 1 to 4 are 1, 2, 4 and 8 lanes. -/
def widthLanes (w : Nat) : Nat := if w = 1 then 1 else if w = 2 then 2 else if w = 3 then 4 else if w = 4 then 8 else 0

/-- The lanes of the formation applied to port n, 0 while it is not formed. -/
def State.width (s : State) (n : Nat) : Nat := widthLanes (s.fld (R.PORT_STATUS n) F.PORT_STATUS.WIDTH_APPLIED)

/-- n is the first lane of a formed port. -/
def State.formed (s : State) (n : Nat) : Bool := decide (0 < s.width n)

/-- The line mode applied to port n. -/
def State.mode (s : State) (n : Nat) : Nat := s.fld (R.PORT_STATUS n) F.PORT_STATUS.MODE_APPLIED

/-- EN acts: the port is formed and its enable bit is set (R105). -/
def State.portEnabled (s : State) (n : Nat) : Bool := s.formed n && s.bit (R.PORT_CTL n) F.PORT_CTL.EN

/-- The lanes of port n. -/
def State.lanesOf (s : State) (n : Nat) : List Nat := (List.range (s.width n)).map (n + ·)

/-- The formed port that a lane belongs to. -/
def State.portOfLane (s : State) (l : Nat) : Option Nat :=
  ((List.range (l % 8 + 1)).map (l - ·)).find? fun n => decide (l < n + s.width n)

/-- The lane belongs to an enabled port. -/
def State.laneEnabled (s : State) (l : Nat) : Bool :=
  match s.portOfLane l with
  | some n => s.portEnabled n
  | none => false

/-- Some port whose first lane lies in group g is enabled. -/
def State.groupHasEnabled (s : State) (g : Nat) : Bool :=
  (List.range 16).any fun i => s.portEnabled (16 * g + i)

/-- Some port of pipeline p is enabled. -/
def State.pipeHasEnabled (s : State) (p : Nat) : Bool :=
  (List.range 64).any fun i => s.portEnabled (64 * p + i)

/-- The port of a lane is in IEEE mode, Onazel or forwarded-clock mode; the RATE code of its lanes (Table 3.1). -/
def State.rateCode (s : State) (n : Nat) : Nat :=
  let m := s.mode n
  if m = 0 ∨ m = 4 then 0 else if m = 1 then 1 else if m = 2 then 2 else if m = 3 then 3
  else if s.fld (R.LG_CTL (n / 16)) F.LG_CTL.FWD_RATE = 1 then 4 else 3

/-- The MAC rate of a port in Gb/s (Table 4.1). -/
def State.macRate (s : State) (n : Nat) : Nat :=
  let per := match s.rateCode n with
    | 0 => 200
    | 1 => 100
    | 2 => 50
    | 3 => 25
    | _ => 50
  per * s.width n

/-! ### Lane registers -/

/-- A register of a lane, by its lane number. -/
def laneReg (f : Nat → Nat → Nat) (l : Nat) : Nat := f (l / 16) (l % 16)

def State.los (s : State) (l : Nat) : Bool := s.bit (laneReg R.LG_LN_STATUS l) F.LG_LN_STATUS.LOS
def State.cdrLock (s : State) (l : Nat) : Bool := s.bit (laneReg R.LG_LN_STATUS l) F.LG_LN_STATUS.CDR_LOCK
def State.adaptDone (s : State) (l : Nat) : Bool := s.bit (laneReg R.LG_LN_STATUS l) F.LG_LN_STATUS.ADAPT_DONE
def State.rxOn (s : State) (l : Nat) : Bool := s.bit (laneReg R.LG_LN_TEST l) F.LG_LN_TEST.RX_ON
def State.loop (s : State) (l : Nat) : Nat := s.fld (laneReg R.LG_LN_TEST l) F.LG_LN_TEST.LOOP
def State.eyeBusy (s : State) (l : Nat) : Bool := s.bit (laneReg R.LG_LN_EYE_CTL l) F.LG_LN_EYE_CTL.GO

/-- The lane group is admitted and calibrated (R504, R547). -/
def State.lgReady (s : State) (g : Nat) : Bool := s.bit (R.LG_STATUS g) F.LG_STATUS.READY

/-- The lane is lane 15 of a forwarded-clock group (R83). -/
def State.fwd15 (s : State) (l : Nat) : Bool := s.bit (R.LG_CTL (l / 16)) F.LG_CTL.FWD_EN && decide (l % 16 = 15)

/-- The link logic of port n runs: it is enabled, in no rate or width change and no port reset, and the clocks of the part run (R93, R532,
R568). -/
def State.linkRuns (s : State) (n : Nat) : Bool :=
  s.portEnabled n && !(s.port n).timeline && !(s.port n).inPortReset && s.pllOk 0 && s.pllOk 4

/-- The lane's port is enabled, or RX_ON holds its receiver on: only such a lane raises causes. -/
def State.laneWatched (s : State) (l : Nat) : Bool := s.laneEnabled l || s.rxOn l

/-- The receiver is powered: its group is ready, and its port is enabled or RX_ON holds it on; the clock lane of a
forwarded-clock group, with the group's ports. -/
def State.rxPowered (s : State) (l : Nat) : Bool :=
  s.lgReady (l / 16) && (s.laneWatched l || (s.fwd15 l && s.groupHasEnabled (l / 16)))

/-- A lane raises a cause. -/
def State.laneCause (s : State) (l : Nat) (f : Fld) : State :=
  if s.laneWatched l then s.cause (laneReg R.LG_LN_CAUSE l) f else s

/-- A persisting cause of a lane first arises. -/
def State.laneArise (s : State) (l : Nat) (f : Fld) : State :=
  if s.laneWatched l then s.ariseF (laneReg R.LG_LN_CAUSE l) f else s

/-! ### Tap sets (R84, R85) -/

/-- A tap set is valid when t3 lies in 32 to 127 and the magnitudes sum to at most 128 (R84). -/
def firValid (t : List Int) : Bool :=
  decide (32 ≤ t.getD 3 0 ∧ t.getD 3 0 ≤ 127 ∧ (t.map Int.natAbs).sum ≤ 128)

/-- The group set of lane group g, t0 to t5. -/
def State.groupFir (s : State) (g : Nat) : List Int :=
  (List.range 6).map fun t => sext 8 (s.fld (R.LG_TX_FIR g t) F.LG_TX_FIR.COEF)

/-- The lane's own set, t0 to t5. -/
def State.laneFir (s : State) (l : Nat) : List Int :=
  let a := (s.reg (laneReg R.LG_LN_FIR_A l)).toNat
  let b := (s.reg (laneReg R.LG_LN_FIR_B l)).toNat
  [sext 8 (a % 256), sext 8 (a / 2 ^ 8 % 256), sext 8 (a / 2 ^ 16 % 256), sext 8 (a / 2 ^ 24),
   sext 8 (b % 256), sext 8 (b / 2 ^ 8 % 256)]

/-- The working set of a lane, as LG_LN_FIR_CUR_A and LG_LN_FIR_CUR_B show it. -/
def State.workFir (s : State) (l : Nat) : List Int :=
  let a := (s.reg (laneReg R.LG_LN_FIR_CUR_A l)).toNat
  let b := (s.reg (laneReg R.LG_LN_FIR_CUR_B l)).toNat
  [sext 8 (a % 256), sext 8 (a / 2 ^ 8 % 256), sext 8 (a / 2 ^ 16 % 256), sext 8 (a / 2 ^ 24),
   sext 8 (b % 256), sext 8 (b / 2 ^ 8 % 256)]

/-- Put a set to work on a lane. -/
def State.setWorkFir (s : State) (l : Nat) (t : List Int) : State :=
  let b := fun i => trunc 8 (t.getD i 0)
  let s := s.setReg (laneReg R.LG_LN_FIR_CUR_A l)
    (BitVec.ofNat 32 (b 0 + b 1 * 2 ^ 8 + b 2 * 2 ^ 16 + b 3 * 2 ^ 24))
  s.setReg (laneReg R.LG_LN_FIR_CUR_B l) (BitVec.ofNat 32 (b 4 + b 5 * 2 ^ 8))

/-- The lane uses its own set. -/
def State.ownFir (s : State) (l : Nat) : Bool := s.bit (laneReg R.LG_LN_FIR_B l) F.LG_LN_FIR_B.OWN

/-- Load a lane's tap set: its own set when OWN is 1, else the group set. A set that is not valid is refused: the lane
keeps its working set and the range cause sets (R84, R85). -/
def State.loadFir (s : State) (l : Nat) : State :=
  let own := s.ownFir l
  let t := if own then s.laneFir l else s.groupFir (l / 16)
  if firValid t then (s.setWorkFir l t).setLane l { s.lane l with loaded := t }
  else if own then s.laneCause l F.LG_LN_CAUSE.FIR_RANGE
  else s.cause (R.LG_CAUSE (l / 16)) F.LG_CAUSE.CFG

/-! ### The receive path of a port (R119, R134) -/

def State.anEn (s : State) (n : Nat) : Bool :=
  s.bit (R.PORT_AN_CTL n) F.PORT_AN_CTL.AN_EN && decide (s.mode n ≤ 3)
def State.trainEn (s : State) (n : Nat) : Bool :=
  s.bit (R.PORT_AN_CTL n) F.PORT_AN_CTL.TRAIN_EN && decide (s.mode n ≤ 3)

/-- The codeword length, in bits, of the FEC of port n; none without FEC (Table 4.1). -/
def State.fecBits (s : State) (n : Nat) : Option Nat :=
  let m := s.mode n
  let w := s.width n
  if m ≤ 2 then some 5440
  else if m = 3 then (if w = 8 then some 5440 else if w = 1 ∧ (s.port n).fec = 1 then none else some 5280)
  else none

/-- The lane ignores its receive land: near-end or parallel loopback (R99). -/
def State.landsOff (s : State) (l : Nat) : Bool := decide (s.loop l = 1 ∨ s.loop l = 3)

/-- The receiver of a lane gives symbols: it has clock-and-data lock, or parallel loopback bypasses it (R99). -/
def State.laneGives (s : State) (l : Nat) : Bool := s.cdrLock l || decide (s.loop l = 3)

/-- The port's receive path has locked: every lane gives symbols, an IEEE port has PCS lock, and FEC lock where its mode has FEC, and a
forwarded-clock port has FWD_LOCK, block lock on every lane and alignment (R119, R134). -/
def State.rxPathUp (s : State) (n : Nat) : Bool :=
  (s.lanesOf n).all s.laneGives &&
  (decide (s.mode n = 4) ||
    (if s.mode n = 5 then
      s.bit (R.LG_STATUS (n / 16)) F.LG_STATUS.FWD_LOCK && ((s.lanesOf n).all fun l => (s.lane l).blkLock) && (s.port n).aligned
    else (s.port n).pcsLock && ((s.fecBits n).isNone || (s.port n).fecLock)))

/-! ### Test patterns (R97) -/

/-- A pair of bits, the first most significant, as a level by Gray code; and back. -/
def grayLevel (a b : Bool) : Nat := if a then (if b then 2 else 3) else if b then 1 else 0
def grayBits (lv : Nat) : Bool × Bool := (decide (2 ≤ lv), decide (lv = 1 ∨ lv = 2))

/-- The degree and the feedback exponents of the polynomial of a pattern of Table 3.3. -/
def prbsPoly (pat : Nat) : Nat × List Nat :=
  match pat with
  | 1 => (7, [7, 6])
  | 2 => (9, [9, 5])
  | 3 | 7 => (13, [13, 12, 2, 1])
  | 4 => (15, [15, 14])
  | 5 => (23, [23, 18])
  | _ => (31, [31, 28])

/-- `k` bits of a PRBS and the register after them. The register holds the last bits, the newest in bit 0. -/
def prbsBits (poly : Nat × List Nat) : Nat → Nat → List Bool × Nat
  | 0, st => ([], st)
  | k + 1, st =>
    let b := poly.2.foldl (fun x e => xor x (nbit st (e - 1))) false
    let (bs, st) := prbsBits poly k ((st * 2 + bitN b) % 2 ^ poly.1)
    (b :: bs, st)

/-- Bits taken in pairs and mapped to levels. -/
def grayLevels : List Bool → List Nat
  | a :: b :: rest => grayLevel a b :: grayLevels rest
  | _ => []

/-- The first `k` symbols of a pattern of Table 3.3, from the generator's register. PRBS13Q and PRBS31Q are PRBS13 and PRBS31 in Gray
mapped pairs. An NRZ lane has the levels 0 and 1. -/
def patSymbols (pat : Nat) (pam4 : Bool) (seed k : Nat) : List Nat :=
  if pat = 9 then (List.range k).map fun i => (Config.ssprbs i).val
  else if pat = 10 then (List.range k).map fun i => if i % 16 < 8 then (if pam4 then 3 else 1) else 0
  else if pam4 then grayLevels (prbsBits (prbsPoly pat) (2 * k) seed).1
  else (prbsBits (prbsPoly pat) k seed).1.map bitN

/-- The wrong bits of a received symbol: those that differ after Gray decoding (R98). -/
def symErrs (pam4 : Bool) (want got : Nat) : Nat :=
  if pam4 then
    bitN (xor (grayBits want).1 (grayBits got).1) + bitN (xor (grayBits want).2 (grayBits got).2)
  else if want = got then 0 else 1

/-! ### Squelch (R90) -/

/-- The outputs of port n are driven, loopback apart: its group is ready, and it is enabled and outside the timeline of R93 and
a port reset (R90, R93, R504). -/
def State.portDrives (s : State) (n : Nat) : Bool :=
  s.lgReady (n / 16) && s.portEnabled n && !(s.port n).timeline && !(s.port n).inPortReset && !s.pipeHeld (pipeOfPort n) &&
    s.pllOk 0 && s.pllOk 4

/-- The clock output of a forwarded-clock group is driven: its group is ready and some port of it is enabled. It belongs to no port, so
no change of a port's rate or width squelches it (R80, R83). DESIGN CHOICE: it leaves squelch with the first port of its group that is
enabled, and returns to it with the last (log entry 148). -/
def State.clockDrives (s : State) (g : Nat) : Bool :=
  s.lgReady g && s.groupHasEnabled g && !s.pipeHeld (g / 4) && s.pllOk 0 && s.pllOk 4

/-- The output of a lane is driven: that of its port is, or the clock output of its group, and the lane is in neither near-end nor
parallel loopback (R83, R90). -/
def State.drives (s : State) (l : Nat) : Bool :=
  decide (s.loop l ≠ 1 ∧ s.loop l ≠ 3) &&
  (if s.fwd15 l then s.clockDrives (l / 16) else (s.portOfLane l).any s.portDrives)

/-- The pattern generator drives a lane of port n: its MAC sends nothing (R96). -/
def State.genOn (s : State) (n : Nat) : Bool :=
  (s.lanesOf n).any fun l => s.bit (laneReg R.LG_LN_TEST l) F.LG_LN_TEST.TX_SRC

/-- What port n sends of itself reaches its lands: its outputs are driven, no lane of it is in a loopback or drives a pattern, and no TAP
instruction has the lands (R90, R96, R99, R603). -/
def State.lineFree (s : State) (n : Nat) : Bool :=
  !s.outputsLost && s.drives n && !s.genOn n && (s.lanesOf n).all fun l => decide (s.loop l = 0)

/-- The training clause of port n, by its lane rate (R117). -/
def State.trainClause (s : State) (n : Nat) : TrainClause :=
  match s.mode n with
  | 0 => .dj
  | 1 => .c162
  | 2 => .c136
  | _ => .c72

/-- The lane carries NRZ symbols: its port is formed at an NRZ rate (Table 3.1). -/
def State.laneNrz (s : State) (l : Nat) : Bool := (s.portOfLane l).any fun n => decide (s.mode n = 3 ∨ s.mode n = 5)

/-- A pattern code that Table 3.3 refuses on the lane: 11 to 15, and 7 to 9 on an NRZ lane (R97). DEDUCED: a code that stands when a
formation makes its lane NRZ is refused from then on (log entry 149). -/
def State.patRefused (s : State) (l v : Nat) : Bool := decide (11 ≤ v) || (decide (7 ≤ v ∧ v ≤ 9) && s.laneNrz l)

/-- What port n sends on its lanes beside frames (R91, R116, R117, R119, R126, R128). An IEEE or forwarded-clock port sends Local Fault
until its receive path first locks, and then Remote Fault while it is not locked or receives Local Fault (log entry 120). -/
def State.portSig (s : State) (n : Nat) : LineSig :=
  let st := R.PORT_STATUS n
  if s.mode n = 4 then (if s.fld st F.PORT_STATUS.ONZ_STATE = 6 then .onzData else .onzTrain)
  else if s.anEn n && !s.bit st F.PORT_STATUS.AN_DONE then .autoNeg (s.mode n) (s.width n) (s.fecBits n)
  else if s.trainEn n && !s.bit st F.PORT_STATUS.TRAIN_DONE then .training (s.trainClause n)
  else if !s.rxPathUp n then (if (s.port n).locked then .remoteFault else .localFault)
  else if s.bit st F.PORT_STATUS.RX_LF then .remoteFault
  else if s.bit st F.PORT_STATUS.LINK_UP then .data
  else .idle

/-- The register from which a generator of pattern `pat` starts: some state of it other than all zeros, which sends no PRBS (R97). -/
def patSeed (pat w : Nat) : Nat := w % (2 ^ (prbsPoly pat).1 - 1) + 1

/-- What the output of a lane shows. DESIGN CHOICE: in far-end loopback it shows the received symbols also where TX_SRC is 1 (log
entry 154). -/
def State.lineSig (s : State) (l : Nat) : LineSig :=
  if !s.drives l then .squelched
  else if s.fwd15 l then .clock
  else if s.loop l = 2 then .farEnd
  else
    let t := laneReg R.LG_LN_TEST l
    match s.portOfLane l with
    | none => .squelched
    | some n =>
      if s.bit t F.LG_LN_TEST.TX_SRC then
        let v := s.fld t F.LG_LN_TEST.GEN_PAT
        .pattern (if s.patRefused l v then 0 else v) (!s.laneNrz l) (patSeed v (s.lane l).gen)
      else s.portSig n

/-- The output of a lane changes, if what it shows has; while a TAP instruction has the lands nothing of it is seen (R90). -/
def State.lineShow (s : State) (l : Nat) : State :=
  let g := s.lineSig l
  if (s.lane l).sig = g then s
  else
    let s := s.setLane l { s.lane l with sig := g }
    if s.landsTaken then s else s.emit (.line l g)

/-- A TAP instruction has given the lands back: the outputs of the lanes return to what they show (R90). -/
def State.linesBack (s : State) : State := (List.range 1024).foldl (fun s l => s.emit (.line l (s.lane l).sig)) s

/-- The outputs of the lanes of port n. -/
def State.linePort (s : State) (n : Nat) : State := (s.lanesOf n).foldl (fun s l => s.lineShow l) s

/-- Show in LG_LN_STATUS whether a lane is squelched, and its rate; and what its output now gives. -/
def State.showLane (s : State) (l : Nat) : State :=
  let s := s.setBit (laneReg R.LG_LN_STATUS l) F.LG_LN_STATUS.SQUELCHED (!s.drives l)
  let rate := match s.portOfLane l with
    | some n => if s.portEnabled n then s.rateCode n else 7
    | none => 7
  (s.setFld (laneReg R.LG_LN_STATUS l) F.LG_LN_STATUS.RATE rate).lineShow l

/-- The receiver of a lane returns to its state before lock (R533): lock and adaptation are lost, CTLE and all 12 taps
return to their initial values. -/
def State.rxUnlock (s : State) (l : Nat) : State :=
  let st := laneReg R.LG_LN_STATUS l
  let s := (s.setBit st F.LG_LN_STATUS.CDR_LOCK false).setBit st F.LG_LN_STATUS.ADAPT_DONE false
  let s := s.setFld (laneReg R.LG_LN_RXEQ l) F.LG_LN_RXEQ.CTLE 0
  let s := (List.range 12).foldl
    (fun s k => s.setReg (R.LG_LN_RXEQ_TAP (l / 16) (l % 16) k) (resetValue (R.LG_LN_RXEQ_TAP (l / 16) (l % 16) k))) s
  s.setLane l { s.lane l with whole := false, step := none, blkLock := false, hdrs := 0, badHdrs := 0 }

/-- A receiver that is off: the lane is not locked, and LOS reads 1, a rise of which starts its cause (R81). DESIGN CHOICE: LMF reads 0 and
stale at once, where R88 speaks of the boundary alone (log entry 153). -/
def State.rxOff (s : State) (l : Nat) : State :=
  let st := laneReg R.LG_LN_STATUS l
  let s := s.rxUnlock l
  let s := if s.los l then s else (s.setBit st F.LG_LN_STATUS.LOS true).laneArise l F.LG_LN_CAUSE.LOS
  (s.setFld st F.LG_LN_STATUS.LMF 0).setBit st F.LG_LN_STATUS.LMF_STALE true

/-! ### The Lane Margin Figure (R87 to R89) -/

/-- The samples in bins `lo` to `hi`. -/
def binSum (hist : List Nat) (lo hi : Nat) : Nat := ((hist.drop lo).take (hi + 1 - lo)).sum

/-- The opening of one eye: the largest run of bins that includes the threshold's bin `t` and holds at most 4 samples. -/
def eyeOpening (hist : List Nat) (t : Nat) : Nat :=
  (List.range (t + 1)).foldl (fun best lo =>
    (List.range (hist.length - t)).foldl (fun best k =>
      if binSum hist lo (t + k) ≤ 4 then max best (t + k - lo + 1) else best) best) 0

/-- The LMF of a lane's eyes, each a threshold bin and a histogram: the smallest opening, limited to 255 (R87). -/
def lmfOf : List (Nat × List Nat) → Nat
  | [] => 0
  | e :: es => es.foldl (fun m e => min m (eyeOpening e.2 e.1)) (min 255 (eyeOpening e.2 e.1))

/-- The alarms of one lane after a counting Round with figure `v` (R89). -/
def State.lmfAlarms (s : State) (l v : Nat) : State :=
  let thr := R.LG_LMF_THR (l / 16)
  let w := s.fld thr F.LG_LMF_THR.WARN
  let a := s.fld thr F.LG_LMF_THR.ALARM
  let q := s.lane l
  let wr := if v < w then min 2 (q.warnRun + 1) else 0
  let ar := if v < a then min 2 (q.alarmRun + 1) else 0
  let wOn := if w + 8 ≤ v then false else q.warnOn || decide (wr = 2)
  let aOn := if a + 8 ≤ v then false else q.alarmOn || decide (ar = 2)
  let s := s.setLane l { q with warnRun := wr, alarmRun := ar, warnOn := wOn, alarmOn := aOn }
  let s := if wOn && !q.warnOn then s.laneArise l F.LG_LN_CAUSE.LMF_WARN else s
  if aOn && !q.alarmOn then s.laneArise l F.LG_LN_CAUSE.LMF_ALARM else s

/-- The alarms of one lane start anew: no run of low Rounds stands and no alarm persists (R37, R89). -/
def State.lmfClear (s : State) (l : Nat) : State :=
  let q := s.lane l
  if q.warnRun = 0 ∧ q.alarmRun = 0 ∧ !q.warnOn ∧ !q.alarmOn then s
  else s.setLane l { q with warnRun := 0, alarmRun := 0, warnOn := false, alarmOn := false }

/-- The figure of the Round just ended for one lane: it counts only if the lane was locked, adapted and without a scan
for the whole Round; lane 15 of a forwarded-clock group always reads 0 and stale (R83, R88). -/
def State.lmfRound (s : State) (l : Nat) (eyes : List (Nat × List Nat)) : State :=
  let st := laneReg R.LG_LN_STATUS l
  let q := s.lane l
  let now := s.cdrLock l && s.adaptDone l && !s.eyeBusy l
  let s' :=
    if q.whole && now && !s.fwd15 l then
      let v := lmfOf eyes
      ((s.setFld st F.LG_LN_STATUS.LMF v).setBit st F.LG_LN_STATUS.LMF_STALE false).lmfAlarms l v
    else (s.setFld st F.LG_LN_STATUS.LMF 0).setBit st F.LG_LN_STATUS.LMF_STALE true
  s'.setLane l { s'.lane l with whole := now }

/-- LG_STATUS[g].LMF_MIN: the lowest counting figure of the group, 0 if none counted. -/
def State.lmfMin (s : State) (g : Nat) : State :=
  let figs := ((List.range 16).filter fun i =>
      !s.bit (R.LG_LN_STATUS g i) F.LG_LN_STATUS.LMF_STALE).map fun i =>
      s.fld (R.LG_LN_STATUS g i) F.LG_LN_STATUS.LMF
  s.setFld (R.LG_STATUS g) F.LG_STATUS.LMF_MIN
    (match figs with
     | [] => 0
     | v :: vs => vs.foldl min v)

/-- One setting of a receiver: tap 0 to 11, or 12 for CTLE. -/
def State.rxSetting (s : State) (l k : Nat) : Nat :=
  if k = 12 then s.fld (laneReg R.LG_LN_RXEQ l) F.LG_LN_RXEQ.CTLE
  else s.fld (R.LG_LN_RXEQ_TAP (l / 16) (l % 16) k) F.LG_LN_RXEQ_TAP.COEF

/-- Set one setting of a receiver. -/
def State.setRxSetting (s : State) (l k v : Nat) : State :=
  if k = 12 then s.setFld (laneReg R.LG_LN_RXEQ l) F.LG_LN_RXEQ.CTLE v
  else s.setFld (R.LG_LN_RXEQ_TAP (l / 16) (l % 16) k) F.LG_LN_RXEQ_TAP.COEF v

/-- Continuous adaptation of one lane at a Round boundary: the step of the last boundary is reverted if the figure fell,
and one setting moves by one step. Which setting moves, and which way, is a free choice (R86). Where adaptation is held at the next
boundary the step is judged at the first boundary at which it runs again, and the 0 of a stale Round counts as a fall (log entry 121). DESIGN
CHOICE: a step past the end of a setting's range, CTLE 0 or 31, a tap -128 or 127, leaves the setting in place; R86 does not say what such a
step does (log entry 174). -/
def State.adaptRound (s : State) (l : Nat) : State :=
  let q := s.lane l
  if !(s.bit (R.LG_CTL (l / 16)) F.LG_CTL.ADAPT_CONT) || !s.adaptDone l || !s.cdrLock l ||
      s.bit (laneReg R.LG_LN_RXEQ l) F.LG_LN_RXEQ.FREEZE || s.eyeBusy l then s
  else
    let lmf := s.fld (laneReg R.LG_LN_STATUS l) F.LG_LN_STATUS.LMF
    let s := match q.step with
      | some st => if lmf < st.lmf then s.setRxSetting l st.setting st.old else s
      | none => s
    let (w, s) := s.freeWord
    let k := w % 13
    let old := s.rxSetting l k
    let up := nbit w 31
    let new := if k = 12 then (if up then min 31 (old + 1) else old - 1)
      else if up then trunc 8 (min 127 (sext 8 old + 1)) else trunc 8 (max (-128) (sext 8 old - 1))
    (s.setRxSetting l k new).setLane l { s.lane l with step := some ⟨k, old, lmf⟩ }

/-! ### The pattern checker (R97, R98) -/

/-- The 48-bit error count of a checker. -/
def State.prbsErrs (s : State) (l : Nat) : Nat :=
  s.fld (laneReg R.LG_LN_PRBS_ERR_LO l) F.LG_LN_PRBS_ERR_LO.COUNT_LO +
    s.fld (laneReg R.LG_LN_PRBS_ERR_HI l) F.LG_LN_PRBS_ERR_HI.COUNT_HI * 2 ^ 32

/-- Set the error count of a checker. -/
def State.setPrbsErrs (s : State) (l v : Nat) : State :=
  (s.setFld (laneReg R.LG_LN_PRBS_ERR_LO l) F.LG_LN_PRBS_ERR_LO.COUNT_LO v).setFld
    (laneReg R.LG_LN_PRBS_ERR_HI l) F.LG_LN_PRBS_ERR_HI.COUNT_HI (v / 2 ^ 32)

/-- The checker restarts and its count clears (R98). -/
def State.prbsRestart (s : State) (l : Nat) : State :=
  (s.setPrbsErrs l 0).setBit (laneReg R.LG_LN_PRBS_ERR_HI l) F.LG_LN_PRBS_ERR_HI.LOCK false

/-- The checker is running: its pattern is neither off nor refused. -/
def State.prbsOn (s : State) (l : Nat) : Bool :=
  let v := s.fld (laneReg R.LG_LN_TEST l) F.LG_LN_TEST.CHK_PAT
  decide (v ≠ 0) && !s.patRefused l v

/-- A locked checker adds wrong bits; the count saturates at 2^48 − 1 (R98). -/
def State.prbsAdd (s : State) (l k : Nat) : State :=
  if s.prbsOn l && s.bit (laneReg R.LG_LN_PRBS_ERR_HI l) F.LG_LN_PRBS_ERR_HI.LOCK then
    s.setPrbsErrs l (min (s.prbsErrs l + k) (2 ^ 48 - 1))
  else s

/-- The wrong bits that a locked checker has found since they were last taken enter its count, before the count is read or stands still
(R98). How many they are is free here; a Round boundary and the loss of lock give their number (log entry 122). -/
def State.prbsTake (s : State) (l : Nat) : State :=
  if s.prbsOn l && s.bit (laneReg R.LG_LN_PRBS_ERR_HI l) F.LG_LN_PRBS_ERR_HI.LOCK then
    let (w, s) := s.freeWord
    s.prbsAdd l w
  else s

/-! ### SyncE outputs (R359, R360) -/

/-- Output j is held low because SQUELCH is 1 and its lane reports LOS or no lock. -/
def State.synceSquelched (s : State) (j : Nat) : Bool :=
  let c := R.TIME_SYNCE_CTL j
  let l := s.fld c F.TIME_SYNCE_CTL.LANE
  s.bit c F.TIME_SYNCE_CTL.SQUELCH && (s.los l || !s.cdrLock l)

/-- Output j is held low now (TIME_SYNCE_CTL.SQ). -/
def State.synceHeld (s : State) (j : Nat) : Bool :=
  let c := R.TIME_SYNCE_CTL j
  let l := s.fld c F.TIME_SYNCE_CTL.LANE
  !s.bit c F.TIME_SYNCE_CTL.EN || !s.laneEnabled l ||
    (s.bit (R.LG_CTL (l / 16)) F.LG_CTL.FWD_EN && decide (l % 16 < 15)) || s.synceSquelched j

/-- Some output is held low for SQUELCH: EN is 1 and its lane lies in an enabled port. -/
def State.synceLowNow (s : State) : Bool :=
  (List.range 2).any fun j =>
    let c := R.TIME_SYNCE_CTL j
    s.bit c F.TIME_SYNCE_CTL.EN && s.laneEnabled (s.fld c F.TIME_SYNCE_CTL.LANE) && s.synceSquelched j

/-- What output j gives out: the recovered clock of its lane, divided to 156.25 or 78.125 MHz (in kHz), or nothing while it is held low
(R359). -/
def State.synceClk (s : State) (j : Nat) : Option (Nat × Nat) :=
  let c := R.TIME_SYNCE_CTL j
  if s.synceHeld j then none
  else some (s.fld c F.TIME_SYNCE_CTL.LANE, if s.bit c F.TIME_SYNCE_CTL.FREQ then 78125 else 156250)

/-- Output j gives out what it should; between two clocks it is held low (R359, R360, log entry 146). -/
def State.synceShow (s : State) (j : Nat) : State :=
  let old := SMap.get (fun _ => none) s.time.synce j
  let new := s.synceClk j
  if old = new then s
  else
    let s := { s with time := { s.time with synce := SMap.put (fun _ => none) s.time.synce j new } }
    if s.outputsLost then s
    else
      let s := if old.isSome && new.isSome then s.emit (.synce j none) else s
      s.emit (.synce j new)

/-- A TAP instruction has given the lands back: each SyncE output returns to what it gives out (R359, R603). -/
def State.synceBack (s : State) : State :=
  (List.range 2).foldl (fun s j => s.emit (.synce j (SMap.get (fun _ => none) s.time.synce j))) s

/-- The SyncE outputs and their cause follow the lanes (R359, R360). -/
def State.synceCheck (s : State) : State :=
  let s := (s.synceShow 0).synceShow 1
  if s.synceLowNow = s.time.synceLow then s
  else
    let s := { s with time := { s.time with synceLow := s.synceLowNow } }
    if s.time.synceLow then s.ariseF R.TIME_CAUSE F.TIME_CAUSE.SYNCE_SQ else s

end Sys2Proof.Machine
end

