-- ==== Sys2Proof/Machine/Port.lean ====
section
/-! DEFINITION. Ports, MACs and line modes (chapter "Ports, MACs and Line Modes"): the formation check of R102 and R103,
pause and PFC (R111, R112), the Onazel line code and its training (R121 to R130), and forwarded-clock alignment (R132). -/

namespace Sys2Proof.Machine

/-! ### Formation (R102, R103) -/

/-- A formation: WIDTH code, MODE and FEC, as PORT_FORM holds them. -/
structure Formation where
  width : Nat
  mode : Nat
  fec : Nat
  deriving DecidableEq, Repr

/-- The formation that a PORT_FORM word asks for. -/
def formOfWord (w : Word) : Formation :=
  ⟨fldOf w F.PORT_FORM.WIDTH, fldOf w F.PORT_FORM.MODE, fldOf w F.PORT_FORM.FEC⟩

/-- The formation applied to port n. -/
def State.formation (s : State) (n : Nat) : Formation :=
  ⟨s.fld (R.PORT_STATUS n) F.PORT_STATUS.WIDTH_APPLIED, s.mode n, (s.port n).fec⟩

/-- A combination of Table 4.1. WIDTH 0 forms no port, and its other fields are not judged (R103). -/
def formAllowed (f : Formation) : Bool :=
  decide (f.width = 0) ||
  (decide (f.width ≤ 4) && decide (f.mode ≤ 5) &&
   (decide (f.fec = 0) || (decide (f.fec = 1) && decide (f.mode = 3 ∧ f.width = 1))) &&
   !(decide (f.mode = 3) && decide (f.width = 2)) &&
   !(decide (f.mode = 4) && decide (f.width ≠ 1)))

/-- The check of R103 over the formations of the 16 ports of group g, given from its first port up. -/
def State.groupFormOk (s : State) (g : Nat) (fs : List Formation) : Bool :=
  let fwd := s.bit (R.LG_CTL g) F.LG_CTL.FWD_EN
  let idx := List.range 16
  let wid := fun i => widthLanes (fs.getD i ⟨0, 0, 0⟩).width
  idx.all fun i =>
    let f := fs.getD i ⟨0, 0, 0⟩
    formAllowed f &&
    (decide (f.width = 0) ||
      (decide (i % wid i = 0 ∧ i + wid i ≤ 16) &&
       (idx.all fun j => decide (j ≤ i ∨ i + wid i ≤ j ∨ wid j = 0)) &&
       (if fwd then decide (f.mode = 5 ∧ i + wid i ≤ 15) else decide (f.mode ≠ 5)) &&
       !s.pipeFused (g / 4)))

/-! ### Pause and PFC (R111 to R115) -/

/-- The classes of port n that a received pause or PFC frame holds, with the ends of their pause times. -/
def State.pauseOf (s : State) (n c : Nat) : Option Nat := SMap.get (fun _ => none) (s.port n).pause c

/-- Class c of port n is paused (R112). -/
def State.paused (s : State) (n c : Nat) : Bool := (s.pauseOf n c).isSome

/-- PORT_STATUS.PAUSED: some class of the port is paused. -/
def State.portPaused (s : State) (n : Nat) : Bool := (s.port n).pause != []

/-- Set or release the pause of a class. -/
def State.setPause (s : State) (n c : Nat) (e : Option Nat) : State :=
  s.setPort n { s.port n with pause := SMap.put (fun _ => none) (s.port n).pause c e }

/-- A pause time of q quanta for class c: q × 512 bit times at the MAC rate; 0 releases the class (R112). -/
def State.pauseClass (s : State) (n q c : Nat) : State :=
  if q = 0 then s.setPause n c none else s.setPause n c (some (s.clk16 + q * 8192 / max 1 (s.macRate n)))

/-- Every class of the port is released from pause at once (R115). -/
def State.pauseRelease (s : State) (n : Nat) : State := s.setPort n { s.port n with pause := [] }

def State.fcMode (s : State) (n : Nat) : Nat := s.fld (R.PORT_CTL n) F.PORT_CTL.FC_MODE

/-- The class that PFC priority p of port n maps to, if the priority is enabled (R113). -/
def State.pfcClass (s : State) (n p : Nat) : Option Nat :=
  if s.bit (R.PORT_PFC_MAP n p) F.PORT_PFC_MAP.EN then some (s.fld (R.PORT_PFC_MAP n p) F.PORT_PFC_MAP.CLASS) else none

/-- The PFC priority that maps to class c, if an enabled one does. -/
def State.pfcPrio (s : State) (n c : Nat) : Option Nat :=
  (List.range 8).find? fun p => decide (s.pfcClass n p = some c)

def State.linkUp (s : State) (n : Nat) : Bool := s.bit (R.PORT_STATUS n) F.PORT_STATUS.LINK_UP

/-- A pause frame reaches the MAC: in FC_MODE 1 it pauses all 16 classes (Table 4.2). -/
def State.rxPause (s : State) (n quanta : Nat) : State :=
  if !s.linkUp n then s
  else if s.fcMode n = 1 then
    (((List.range 16).foldl (fun s c => s.pauseClass n quanta c) s)).addCnt (C.RX_MAC_CTRL n) 1
  else s.addCnt (C.RX_MAC_CTRL_OTHER n) 1

/-- A PFC frame reaches the MAC: in FC_MODE 2 it pauses each class mapped from an enabled priority whose bit is set; a
frame that sets no such bit is not acted on (R111). -/
def State.rxPfc (s : State) (n vec : Nat) (quanta : List Nat) : State :=
  if !s.linkUp n then s
  else
    let hits := (List.range 8).filter fun p => nbit vec p && (s.pfcClass n p).isSome
    if s.fcMode n = 2 ∧ hits ≠ [] then
      (hits.foldl (fun s p =>
        match s.pfcClass n p with
        | some c => s.pauseClass n (quanta.getD p 0) c
        | none => s) s).addCnt (C.RX_MAC_CTRL n) 1
    else s.addCnt (C.RX_MAC_CTRL_OTHER n) 1

/-- Another MAC control frame is consumed without action (R111). -/
def State.rxMacCtrlOther (s : State) (n : Nat) : State :=
  if !s.linkUp n then s else s.addCnt (C.RX_MAC_CTRL_OTHER n) 1

/-- The source address of generated control frames. -/
def State.portSa (s : State) (n : Nat) : Bytes :=
  natBE 2 (s.fld (R.PORT_SA_HI n) F.PORT_SA_HI.SA_HI) ++ natBE 4 (s.reg (R.PORT_SA_LO n)).toNat

/-- A MAC control frame without its FCS, padded to 60 bytes (R114). -/
def State.macCtrlFrame (s : State) (n opcode : Nat) (body : Bytes) : Bytes :=
  fitBytes 60 (natBE 6 0x0180C2000001 ++ s.portSa n ++ natBE 2 0x8808 ++ natBE 2 opcode ++ body)

/-! ### Auto-negotiation and training (R116 to R118) -/

/-- TRAIN_MAX in ms: 0 takes Table 4.3, above 4,000 acts as 4,000 (R118). -/
def State.trainMaxMs (s : State) (n : Nat) : Nat :=
  let v := s.fld (R.PORT_AN_CTL n) F.PORT_AN_CTL.TRAIN_MAX
  if v = 0 then (if s.mode n = 3 ∨ s.mode n = 4 then 500 else 3000) else min v 4000


/-- MAXLEN of port n as it acts (R106). -/
def State.maxLen (s : State) (n : Nat) : Nat := max 64 (min 10240 (s.fld (R.PORT_CTL n) F.PORT_CTL.MAXLEN))

/-- The check that a received frame of port n fails: its counter, in the order of R109; none where it passes (R20, R108). -/
def State.frameFault (s : State) (n : Nat) (bs : Bytes) : Option Nat :=
  if !fcsOk bs then some (C.RX_FCS_ERR n)
  else if bs.length < 64 then some (C.RX_RUNT n)
  else if s.maxLen n < bs.length then some (C.RX_OVERSIZE n)
  else none

/-- The conditions of LINK_UP that the part itself holds: the port is enabled, its receive path is locked, it receives
no fault, and auto-negotiation and training, where enabled, have completed (R119, R134). -/
def State.linkReady (s : State) (n : Nat) : Bool :=
  s.linkRuns n && s.rxPathUp n && !s.bit (R.PORT_STATUS n) F.PORT_STATUS.RX_LF && !s.bit (R.PORT_STATUS n) F.PORT_STATUS.RX_RF &&
  (!s.anEn n || s.bit (R.PORT_STATUS n) F.PORT_STATUS.AN_DONE) &&
  (!s.trainEn n || s.bit (R.PORT_STATUS n) F.PORT_STATUS.TRAIN_DONE)

/-! ### PCS lock (R119, R131) -/

/-- The Clause 49 block lock rule on one lane, for one received sync header: 64 good headers in a row lock, and 16 bad ones in a window of
64 drop the lock. Without lock a bad header moves the receiver on to the next position (log entry 124). -/
def LaneSt.header (q : LaneSt) (good : Bool) : LaneSt :=
  let h := q.hdrs + 1
  let b := q.badHdrs + bitN (!good)
  if !q.blkLock then
    (if !good then { q with hdrs := 0, badHdrs := 0 }
     else if h = 64 then { q with blkLock := true, hdrs := 0, badHdrs := 0 }
     else { q with hdrs := h, badHdrs := 0 })
  else if b = 16 then { q with blkLock := false, hdrs := 0, badHdrs := 0 }
  else if h = 64 then { q with hdrs := 0, badHdrs := 0 }
  else { q with hdrs := h, badHdrs := b }

/-- What the PCS and the FEC of port n have found: block or alignment lock, FEC lock, and the sync headers of the lanes of a
forwarded-clock port. A port whose lanes give no symbols finds nothing. -/
def State.pcsRx (s : State) (n : Nat) (o : PcsObs) : State :=
  if !s.linkRuns n || !(s.lanesOf n).all s.laneGives then s
  else
    let s := if s.mode n = 5 then
        (s.lanesOf n).zipIdx.foldl (fun s e =>
          s.setLane e.1 ((o.headers.getD e.2 []).foldl (fun q g => q.header g) (s.lane e.1))) s
      else s
    let s := s.setPort n { s.port n with pcsLock := o.lock, fecLock := o.fec && (s.fecBits n).isSome }
    if s.rxPathUp n then s.setPort n { s.port n with locked := true } else s

/-- The PCS and the FEC of port n have no lock. -/
def State.pcsDown (s : State) (n : Nat) : State :=
  let s := s.setPort n { s.port n with pcsLock := false, fecLock := false }
  (s.lanesOf n).foldl (fun s l => s.setLane l { s.lane l with blkLock := false, hdrs := 0, badHdrs := 0 }) s

/-! ### The scrambler (R121, R131) -/

/-- One bit through the self-synchronous scrambler: the scrambled bit, and the last 58 scrambled bits (R121). -/
def scrambleBit (st : Nat) (d : Bool) : Bool × Nat :=
  let o := xor d (xor (nbit st 38) (nbit st 57))
  (o, (st * 2 + bitN o) % 2 ^ 58)

/-- Bits through the descrambler, and the last 58 received bits after them. -/
def descramble : Nat → List Bool → List Bool × Nat
  | st, [] => ([], st)
  | st, r :: rest =>
    let (ds, st') := descramble ((st * 2 + bitN r) % 2 ^ 58) rest
    (xor r (xor (nbit st 38) (nbit st 57)) :: ds, st')

/-! ### The Onazel line code (R121 to R126) -/

/-- The bits of a byte, least significant first. -/
def byteBits (b : Byte) : List Bool := (List.range 8).map fun i => b.getLsbD i

/-- Bytes from their bits, least significant first; bits beyond the last whole byte are left. -/
def bitsBytes : List Bool → Bytes
  | a :: b :: c :: d :: e :: f :: g :: h :: rest =>
    BitVec.ofNat 8 (bitN a + 2 * bitN b + 4 * bitN c + 8 * bitN d + 16 * bitN e + 32 * bitN f + 64 * bitN g + 128 * bitN h) ::
      bitsBytes rest
  | _ => []

/-- The data symbols of a list of bits, and the scrambler after them. -/
def dataSymbols : Nat → List Bool → List Nat × Nat
  | st, a :: b :: rest =>
    let (x, st) := scrambleBit st a
    let (y, st) := scrambleBit st b
    let (ys, st) := dataSymbols st rest
    (grayLevel x y :: ys, st)
  | st, _ => ([], st)

/-- A level with its lowest bit inverted: the stuff symbol's level (R123). -/
def stuffLevel (l : Nat) : Nat := if l % 2 = 0 then l + 1 else l - 1

/-- What is sent outside a marker run: the symbols with their stuff symbols, the number of these, and the run level and length after
them. -/
def stuffRun : Nat → Nat → List Nat → List Nat × Nat × Nat × Nat
  | lv, len, [] => ([], 0, lv, len)
  | lv, len, x :: xs =>
    let len' := if x = lv then len + 1 else 1
    if len' = 31 then
      let (ys, k, lv', n') := stuffRun (stuffLevel x) 1 xs
      (x :: stuffLevel x :: ys, k + 1, lv', n')
    else
      let (ys, k, lv', n') := stuffRun x len' xs
      (x :: ys, k, lv', n')

/-- What the receiver keeps of the symbols outside a marker run: it discards the symbol after 31 identical ones (R123). -/
def unstuff : Nat → Nat → List Nat → List Nat
  | _, _, [] => []
  | lv, len, x :: xs =>
    if len = 31 ∧ x ≠ lv then unstuff x 1 xs
    else x :: unstuff x (if x = lv then len + 1 else 1) xs

/-- The level of the run of a marker, by its breaks (Table 4.4): 0 for SOF, 3 for idle, 2 for training. -/
def markerLevel (brk : Nat) : Nat := if brk = 0 then 3 else if brk = 3 then 0 else 1

/-- An Onazel port sends a marker of the given break level: the lead break, which may need a stuff symbol, 40 symbols of the marker level,
and the trail break, which starts a new run (R122, R123). The result is what it sends and the stuff symbols in it. -/
def State.onzMarker (s : State) (n brk : Nat) : State × List Nat × Nat :=
  let q := s.port n
  let (ys, k, _, _) := stuffRun q.runLevel q.runLen [brk]
  (s.setPort n { q with runLevel := brk, runLen := 1 }, ys ++ List.replicate 40 (markerLevel brk) ++ [brk], k)

/-- An Onazel port sends bits as data: scrambled, in pairs, and stuffed (R121, R123). -/
def State.onzData (s : State) (n : Nat) (bits : List Bool) : State × List Nat × Nat :=
  let q := s.port n
  let d := dataSymbols q.scram bits
  let r := stuffRun q.runLevel q.runLen d.1
  (s.setPort n { q with scram := d.2, runLevel := r.2.2.1, runLen := r.2.2.2 }, r.1, r.2.1)

/-- Where what a port now sends starts, in 1/6800 ns, given the end of what it sent last: there, or now where the port has rested for more
than a core tick. -/
def State.lineBase (s : State) (due : Nat) : Nat := if s.t16 * 425 ≤ due + 4250 then due else s.t16 * 425

/-- Symbols leave an Onazel port, `k` of them stuff symbols; what follows them starts at their end, an Onazel lane sending 106.25 symbols in
1 ns. In far-end loopback the MAC's symbols are discarded (R99, R126). -/
def State.onzOut (s : State) (n : Nat) (syms : List Nat) (k : Nat) : State :=
  let s := s.setPort n { s.port n with due := s.lineBase (s.port n).due + 64 * syms.length }
  (if s.lineFree n then s.emit (.symbols n syms) else s).addCnt (C.ONZ_STUFF n) k

/-- An Onazel port sends a frame: the SOF marker and the scrambled, stuffed data. Stuff symbols count in ONZ_STUFF, and
a frame that carried one among its data in ONZ_STUFF_FRAMES (R126, log entry 137). -/
def State.onzSendFrame (s : State) (n : Nat) (bytes : Bytes) : State :=
  let (s, m, k0) := s.onzMarker n 0
  let (s, d, k) := s.onzData n (bytes.flatMap byteBits)
  let s := s.onzOut n (m ++ d) (k0 + k)
  if 0 < k then s.addCnt (C.ONZ_STUFF_FRAMES n) 1 else s

/-- An Onazel port with no frame ready sends an idle marker (R126). The manual does not say to which frame, if any, a stuff symbol behind
its lead break belongs: it counts in ONZ_STUFF alone (log entry 125). -/
def State.onzSendIdle (s : State) (n : Nat) : State :=
  let (s, m, k) := s.onzMarker n 3
  s.onzOut n m k

/-- The data that an Onazel port receives after the trail break `brk` of a marker: its stuff symbols removed, and descrambled (R121, R123,
R125). -/
def State.onzGet (s : State) (n brk : Nat) (syms : List Nat) : List Bool × State :=
  let q := s.port n
  let bits := (unstuff brk 1 syms).flatMap fun lv => [(grayBits lv).1, (grayBits lv).2]
  let (ds, st) := descramble q.descram bits
  (ds, s.setPort n { q with descram := st })

/-! ### Onazel training (R127 to R130) -/

/-- CRC-16 of x^16 + x^12 + x^5 + 1, initial value 0xFFFF, over bits sent first to last (Table 4.5). -/
def crc16 (bits : List Bool) : Nat :=
  bits.foldl (fun c b =>
    let top := xor (nbit c 15) b
    let c' := c * 2 % 65536
    if top then Nat.xor c' 0x1021 else c') 0xFFFF

/-- The bits of a number, from bit `hi` down to bit `lo`. -/
def bitsDown (v hi lo : Nat) : List Bool := (List.range (hi + 1 - lo)).map fun i => nbit v (hi - i)

/-- The fields of a training payload (Table 4.5). -/
def onzParse (p : Nat) : OnzBlock :=
  { nonce := p / 2 ^ 96 % 2 ^ 32, state := p / 2 ^ 93 % 8, role := p / 2 ^ 91 % 4, reqTap := p / 2 ^ 88 % 8,
    reqDir := p / 2 ^ 86 % 4, ack := p / 2 ^ 84 % 4, count := p / 2 ^ 76 % 256, seq := p / 2 ^ 16 % 2 ^ 16 }

/-- A payload whose CRC matches and whose STATE and ROLE are ones that are sent (R127). -/
def onzValid (p : Nat) : Bool :=
  decide (crc16 (bitsDown p 127 16) = p % 65536) && decide ((onzParse p).state ≤ 4 ∧ (onzParse p).role ≤ 2)

/-- The payload of a block (Table 4.5). -/
def onzPayload (b : OnzBlock) : Nat :=
  let v := b.nonce * 2 ^ 96 + b.state * 2 ^ 93 + b.role * 2 ^ 91 + b.reqTap * 2 ^ 88 + b.reqDir * 2 ^ 86 +
    b.ack * 2 ^ 84 + b.count * 2 ^ 76 + b.seq * 2 ^ 16
  v + crc16 (bitsDown v 127 16)

def State.onzState (s : State) (n : Nat) : Nat := s.fld (R.PORT_STATUS n) F.PORT_STATUS.ONZ_STATE
def State.onzRole (s : State) (n : Nat) : Nat := s.fld (R.PORT_STATUS n) F.PORT_STATUS.ONZ_ROLE
def State.setOnzState (s : State) (n v : Nat) : State := s.setFld (R.PORT_STATUS n) F.PORT_STATUS.ONZ_STATE v
def State.setOnz (s : State) (n : Nat) (o : OnzSt) : State := s.setPort n { s.port n with onz := o }

/-- The payload of the next training block of an Onazel port. -/
def State.onzSends (s : State) (n : Nat) : Nat :=
  let o := (s.port n).onz
  onzPayload
    { nonce := o.nonce, state := s.onzState n - 1, role := s.onzRole n, reqTap := o.reqTap, reqDir := o.reqDir,
      ack := o.ack, count := (if s.onzState n = 5 then o.count else 0), seq := o.seq }

/-- Step 1 of R128: a fresh nonce, SEEK and ROLE 0. -/
def State.onzSeek (s : State) (n : Nat) : State :=
  let (w, s) := s.freeWord
  let s := s.setOnz n { nonce := w % 2 ^ 32, seq := (s.port n).onz.seq }
  (s.setOnzState n 1).setFld (R.PORT_STATUS n) F.PORT_STATUS.ONZ_ROLE 0

/-- A training restart: back to step 1, counted (R129). -/
def State.onzRestart (s : State) (n : Nat) : State :=
  ((s.onzSeek n).addCnt (C.ONZ_RESTARTS n) 1).cause (R.PORT_CAUSE n) F.PORT_CAUSE.ONZ_RESTART

/-- Step 4 of R128: the lane is adapted and its counting LMF reaches LMF_MIN, so the end sends RX_READY. -/
def State.onzTryReady (s : State) (n : Nat) : State :=
  let st := laneReg R.LG_LN_STATUS n
  if s.onzState n = 3 && s.adaptDone n && !s.bit st F.LG_LN_STATUS.LMF_STALE &&
      decide (s.fld (R.PORT_ONZ_CTL n) F.PORT_ONZ_CTL.LMF_MIN ≤ s.fld st F.LG_LN_STATUS.LMF) then
    (s.setOnzState n 4).setOnz n { (s.port n).onz with readySent := false }
  else s

/-- Step 5 of R128: a leader that has sent RX_READY and has received it goes on to GO. -/
def State.onzLead (s : State) (n : Nat) : State :=
  let o := (s.port n).onz
  if s.onzState n = 4 ∧ s.onzRole n = 1 ∧ o.partnerReady ∧ o.readySent then (s.setOnzState n 5).setOnz n { o with count := 15 } else s

/-- The partner's request for a tap change, answered in ACK: 1 applied, 2 tap at ±127, 3 refused because the set would
break R84. A request is acted on once, until it is withdrawn (R127, R128 step 3). DEDUCED: a request to hold changes nothing and has no
answer (log entry 152). -/
def State.onzRequest (s : State) (n : Nat) (b : OnzBlock) : State :=
  let o := (s.port n).onz
  if b.reqTap = 6 then s.setOnz n { o with ack := 0 }
  else if b.reqTap = 7 ∨ o.ack ≠ 0 ∨ b.reqDir = 0 then s
  else if b.reqDir = 3 then (s.setWorkFir n (s.lane n).loaded).setOnz n { o with ack := 1 }
  else
    let t := s.workFir n
    let v := t.getD b.reqTap 0 + (if b.reqDir = 1 then 1 else -1)
    if v < -127 ∨ 127 < v then s.setOnz n { o with ack := 2 }
    else if firValid (listSet t b.reqTap v) then (s.setWorkFir n (listSet t b.reqTap v)).setOnz n { o with ack := 1 }
    else s.setOnz n { o with ack := 3 }

/-- Step 2 of R128 once two consecutive valid blocks have come: the higher nonce leads; equal nonces draw again. -/
def State.onzResolve (s : State) (n pn : Nat) : State :=
  let o := (s.port n).onz
  if o.nonce = pn then s.onzRestart n
  else
    let s := s.setOnz n { o with partnerNonce := some pn, partnerReady := false, ack := 0, good := 2 }
    (s.setOnzState n 2).setFld (R.PORT_STATUS n) F.PORT_STATUS.ONZ_ROLE (if pn < o.nonce then 1 else 2)

/-- The partner's answer to this end's request: a request is held until the answer comes (R128 step 3). -/
def State.onzAnswer (s : State) (n : Nat) (b : OnzBlock) : State :=
  let o := { (s.port n).onz with partnerAck := b.ack }
  s.setOnz n (if o.reqTap < 6 ∧ b.ack ≠ 0 then { o with reqTap := 6, reqDir := 0 } else o)

/-- In TUNE an end may request a tap change, once the answer to its last request has returned to 0 (R128 step 3). Whether it does, and
which, is free (log entry 126). -/
def State.onzAsk (s : State) (n : Nat) : State :=
  let o := (s.port n).onz
  if s.onzState n ≠ 3 ∨ o.reqTap < 6 ∨ o.partnerAck ≠ 0 then s
  else
    let (b, s) := s.freeBool
    let (w, s) := s.freeWord
    if b then s.setOnz n { o with reqTap := w % 6, reqDir := w / 8 % 3 + 1 } else s

/-- The 300 bits of PRBS31 of a training block and its register after them, from the register number w (R127). -/
def onzFill (w : Nat) : List Bool × Nat := prbsBits (prbsPoly 6) 300 (w % (2 ^ 31 - 1) + 1)

/-- An Onazel port in training sends its next block: the training marker, the payload and 300 bits of PRBS31 (R127). After RESOLVED it
goes on to TUNE, and after the GO block with COUNT 0 to data, where it sends idle markers (R128). -/
def State.onzBlockTx (s : State) (n : Nat) : State :=
  let s := s.onzAsk n
  let st := s.onzState n
  let o := (s.port n).onz
  let f := if (s.port n).prbs = 0 then s.freeWord else ((s.port n).prbs - 1, s)
  let r := onzFill f.1
  let s := f.2
  let p := s.onzSends n
  let s := s.setPort n { s.port n with prbs := r.2 }
  let m := s.onzMarker n 2
  let d := m.1.onzData n (bitsDown p 127 0 ++ r.1)
  let k := m.2.2 + d.2.2
  let s := d.1.onzOut n (m.2.1 ++ d.2.1) k
  let s := s.setOnz n { o with seq := (o.seq + 1) % 2 ^ 16, count := o.count - 1, readySent := o.readySent || decide (st = 4) }
  if st = 2 then s.setOnzState n 3
  else if st = 5 ∧ o.count = 0 then ((s.setOnzState n 6).onzSendIdle n).linePort n
  else s.onzLead n



/-- A received training block advances the training of port n (R127 to R129). -/
def State.onzBlockRx (s : State) (n payload : Nat) : State :=
  let st := s.onzState n
  if !s.linkRuns n || decide (s.mode n ≠ 4) || decide (st = 0 ∨ 6 ≤ st) then s
  else if !onzValid payload then
    (s.addCnt (C.ONZ_TB_ERR n) 1).setOnz n { (s.port n).onz with good := if st = 1 then 0 else (s.port n).onz.good }
  else
    let b := onzParse payload
    let o := (s.port n).onz
    let role := s.onzRole n
    if role ≠ 0 ∧ b.role = role then s.onzRestart n
    else if st = 1 then
      if o.good = 0 then s.setOnz n { o with good := 1 } else s.onzResolve n b.nonce
    else if o.partnerNonce ≠ some b.nonce then
      if (if b.nonce < o.nonce then 1 else 2) = role then s.onzResolve n b.nonce else s.onzRestart n
    else
      let s := (s.onzRequest n b).onzAnswer n b
      let s := s.setOnz n { (s.port n).onz with partnerReady := (s.port n).onz.partnerReady || decide (3 ≤ b.state) }
      let s := s.onzTryReady n
      if s.onzState n = 4 ∧ role = 2 ∧ b.state = 4 then
        (s.setOnzState n 5).setOnz n { (s.port n).onz with count := b.count }
      else s.onzLead n

/-- The symbols of a training block after its marker reach port n: its payload is the first 128 bits, bit 127 first. -/
def State.onzBlockSyms (s : State) (n : Nat) (syms : List Nat) : State :=
  let (ds, s) := s.onzGet n 2 syms
  s.onzBlockRx n (((ds.take 128)).foldl (fun v b => 2 * v + bitN b) 0)

/-! ### Forwarded-clock blocks (R131, R132) -/

/-- The data blocks of a frame's bytes and its terminate block, with their sync headers (Clause 49; log entry 124). -/
def dataBlocks : Nat → Bytes → List (Nat × Bytes)
  | 0, _ => []
  | k + 1, bs =>
    if bs.length < 8 then
      [(2, fitBytes 8 (BitVec.ofNat 8 ([0x87, 0x99, 0xAA, 0xB4, 0xCC, 0xD2, 0xE1, 0xFF].getD bs.length 0) :: bs))]
    else (1, bs.take 8) :: dataBlocks k (bs.drop 8)

/-- The preamble and the delimiter of a frame, behind their first byte, which the start block stands for. -/
def preamble : Bytes := [0x55, 0x55, 0x55, 0x55, 0x55, 0x55, 0xD5]

/-- A block of idle. -/
def idleBlock : Nat × Bytes := (2, [0x1E, 0, 0, 0, 0, 0, 0, 0])

/-- A frame behind a gap of `gap` bytes starts in the second half of its start block, behind four bytes of idle. -/
def startsLate (gap : Nat) : Bool := decide (gap < 4 ∨ (8 ≤ gap ∧ gap < 12))

/-- The blocks of a frame behind a gap of `gap` bytes: what idle block the 12 bytes of inter-frame gap still ask for, the start block with
the preamble and delimiter, the data, and the end (R107, Clause 49; log entry 124). -/
def frameBlocks (gap : Nat) (bs : Bytes) : List (Nat × Bytes) :=
  (if gap < 8 then [idleBlock] else []) ++
  (if startsLate gap then (2, [0x33, 0, 0, 0, 0] ++ preamble.take 3) :: dataBlocks (bs.length + 1) (preamble.drop 3 ++ bs)
   else (2, 0x78 :: preamble) :: dataBlocks (bs.length + 1) bs)

/-- The bytes of gap that the end block of such a frame leaves behind it. -/
def tailGap (gap : Nat) (bs : Bytes) : Nat := 8 - (bs.length + if startsLate gap then 4 else 0) % 8

/-- Bits through the scrambler. -/
def scrambleBits : Nat → List Bool → List Bool × Nat
  | st, [] => ([], st)
  | st, d :: rest =>
    let (x, st) := scrambleBit st d
    let (xs, st) := scrambleBits st rest
    (x :: xs, st)

/-- The block that fills the line of a forwarded-clock port: the ordered sets of the fault that it sends, or idle (Clause 49; R119, R131; log
entry 124). -/
def fillBlock (g : LineSig) : Nat × Bytes :=
  match g with
  | .localFault => (2, [0x55, 0, 0, 1, 0, 0, 0, 1])
  | .remoteFault => (2, [0x55, 0, 0, 2, 0, 0, 0, 2])
  | _ => idleBlock

/-- The time, in 1/6800 ns, that a block takes on a lane of forwarded-clock port n. -/
def State.blockTime (s : State) (n : Nat) : Nat := 66 * (if s.rateCode n = 4 then 128 else 256)

/-- A forwarded-clock port starts a frame: its blocks stand in line for the next slots (R107, R131). -/
def State.fwdFrame (s : State) (n : Nat) (bytes : Bytes) : State :=
  let q := s.port n
  s.setPort n { q with fwdQ := q.fwdQ ++ frameBlocks q.gap bytes, gap := tailGap q.gap bytes }

/-- The blocks of one slot, one for each of the `w` lanes by position: those that stand in line, and then what fills the line. -/
def State.fwdSlot (s : State) (n w : Nat) : List (Nat × Bytes) :=
  let now := (s.port n).fwdQ.take w
  now ++ List.replicate (w - now.length) (fillBlock (s.portSig n))

/-- A forwarded-clock port sends a slot of blocks, block k of the port on the lane at position k mod w; the eight bytes are scrambled and
the sync header is not (R131). DEDUCED: the scrambler runs once ahead of the distribution to the lanes (log entry 151). -/
def State.fwdBlocks (s : State) (n : Nat) : State :=
  let q := s.port n
  let w := s.width n
  let (out, st) := (s.fwdSlot n w).zipIdx.foldl (fun (acc : List (Nat × Nat × Bytes) × Nat) e =>
    let (xs, st) := scrambleBits acc.2 (e.1.2.flatMap byteBits)
    (acc.1 ++ [(n + e.2, e.1.1, bitsBytes xs)], st)) ([], q.scram)
  let s := s.setPort n { q with scram := st, fwdQ := q.fwdQ.drop w, gap := min 12 (q.gap + 8 * (w - q.fwdQ.length)) }
  if s.lineFree n then s.emit (.blocks n out) else s

/-- The alignment block of the lane at position `k` of a port of `w` lanes (R132). -/
def alignBlock (w k : Nat) : Bytes :=
  let h : Bytes := [0x5A, BitVec.ofNat 8 k, BitVec.ofNat 8 w, 0]
  h ++ h.map fun b => ~~~b

/-- A forwarded-clock port whose last slot has gone out has its turn: the next slot, which is that of the alignment blocks, not scrambled,
once in 16,384 (R131, R132). A port whose generator drives sends neither (R96). -/
def State.alignTurn (s : State) (n : Nat) : State :=
  let q := s.port n
  let w := s.width n
  if s.mode n ≠ 5 ∨ !s.drives n ∨ s.genOn n ∨ s.t16 * 425 < q.sent then s
  else
    let s := s.setPort n { q with blk := (q.blk + 1) % 16384, sent := s.lineBase q.sent + s.blockTime n }
    if q.blk ≠ 0 then s.fwdBlocks n
    else if s.lineFree n then s.emit (.blocks n ((List.range w).map fun k => (n + k, 2, alignBlock w k)))
    else s

/-! ### Forwarded-clock alignment (R132) -/

/-- A valid alignment block of a port of width w: 0x5A, the lane's position, the width, zero, and their complements. -/
def alignValid (w : Nat) (b : Bytes) : Bool :=
  let h := (List.range 4).map fun i => (byteAt b i).toNat
  decide (b.length = 8) && decide (h.getD 0 0 = 0x5A ∧ h.getD 1 0 < w ∧ h.getD 2 0 = w ∧ h.getD 3 0 = 0) &&
  (List.range 4).all fun i => decide ((byteAt b (4 + i)).toNat = 255 - h.getD i 0)

/-- The lane that carries each position, given the blocks of the port's lanes in lane order; none where two lanes carry
one position. -/
def alignOrder (w : Nat) (bs : List Bytes) : Option (List Nat) :=
  let pos := bs.map fun b => (byteAt b 1).toNat
  if bs.length = w ∧ (bs.all (alignValid w)) ∧ pos.Nodup then some ((List.range w).map fun k => pos.idxOf k) else none

end Sys2Proof.Machine
end

