-- ==== Sys2Proof/Machine/Bpm.lean ====
section
/-! DEFINITION. The Buffer Pool Manager (chapter "Buffer Pool Manager"): the layout, the reserves and quotas, the grant
of a buffer, copy holds, moves and releases, and slice fencing. The audit and reclaim stand in Audit.lean. -/

namespace Sys2Proof.Machine

/-! ### Layout and handles (R265 to R268) -/

/-- The bytes of a SIZE code (Table 10.1). -/
def sizeBytes (c : Nat) : Nat := if c = 6 then 10240 else 128 * 2 ^ c

def State.poolDefined (s : State) (q : Nat) : Bool := decide (q < 8) && s.bit (R.BPM_POOL_CFG q) F.BPM_POOL_CFG.DEFINED
def State.poolCount (s : State) (q : Nat) : Nat := s.fld (R.BPM_POOL_CFG q) F.BPM_POOL_CFG.COUNT
def State.poolBytes (s : State) (q : Nat) : Nat := sizeBytes (s.fld (R.BPM_POOL_CFG q) F.BPM_POOL_CFG.SIZE)

/-- A layout is fixed (R266). -/
def State.layoutFixed (s : State) : Bool := s.bit R.BPM_STATUS F.BPM_STATUS.LAYOUT

/-- The pool that takes `len` bytes: the smallest size of at least `len` (R267). Sizes rise with the pool number. -/
def State.poolFor (s : State) (len : Nat) : Option Nat :=
  (List.range 8).find? fun q => s.poolDefined q && decide (len ≤ s.poolBytes q)

def poolOfH (h : Nat) : Nat := h / 2 ^ 21
def indexOfH (h : Nat) : Nat := h % 2 ^ 21
/-- The slice of a buffer: INDEX[3:0] (R268). -/
def sliceOfH (h : Nat) : Nat := h % 16
def handleOf (q i : Nat) : Nat := q * 2 ^ 21 + i

/-- The handle names a defined pool and an index below its count. -/
def State.handleOk (s : State) (h : Nat) : Bool :=
  decide (h < 2 ^ 24) && s.poolDefined (poolOfH h) && decide (indexOfH h < s.poolCount (poolOfH h))

/-! ### Requesters (R272) -/

/-- The code of requester r of owner n. -/
def rqCode (n r : Nat) : Nat := 0x10 + 8 * n + r

/-- The owner of a requester: the owner of pipeline p for an ingress writer, else n. -/
def State.rqOwner (s : State) (code : Nat) : Nat := if code < 16 then s.ownerOfPipe code else (code - 16) / 8

/-- The quota of a requester in a pool. -/
def State.rqQuota (s : State) (code q : Nat) : Nat :=
  if code < 16 then s.fld (R.BPM_WR_QUOTA code q) F.BPM_WR_QUOTA.VALUE
  else s.fld (R.BPM_RQ_QUOTA ((code - 16) / 8) ((code - 16) % 8) q) F.BPM_RQ_QUOTA.QUOTA

/-! ### Buffers (R270) -/

/-- The buffer of a handle; none while its STATE is 0. -/
def State.buf (s : State) (h : Nat) : Option Buf := SMap.get (fun _ => none) s.bpm.bufs h

/-- Replace a buffer's record. -/
def State.setBuf (s : State) (h : Nat) (b : Option Buf) : State :=
  { s with bpm := { s.bpm with bufs := SMap.put (fun _ => none) s.bpm.bufs h b } }

/-- Buffer h is held, and by no requester of owner n: another owner has it (R47). -/
def State.foreignBuf (s : State) (n h : Nat) : Bool :=
  (s.buf h).any fun b => (b.primary.toList ++ b.copies).all fun r => decide (s.rqOwner r ≠ n)

/-- Owner n has a hold on buffer h. -/
def State.ownBuf (s : State) (n h : Nat) : Bool := (s.buf h).isSome && !s.foreignBuf n h

/-- The holds on a buffer. -/
def Buf.holds (b : Buf) : Nat := b.copies.length + (if b.primary.isSome then 1 else 0)

/-- The holds that a requester has on a buffer. -/
def Buf.holdsOf (b : Buf) (code : Nat) : Nat := b.copies.count code + (if b.primary = some code then 1 else 0)

/-- The allocated buffers of pool q, with their handles. -/
def State.poolBufs (s : State) (q : Nat) : List (Nat × Buf) :=
  s.bpm.bufs.filterMap fun e => if poolOfH e.1 = q then e.2.map fun b => (e.1, b) else none

/-- BPM_RQ_HOLD and BPM_WR_HOLD: the holds of a requester in a pool, copy holds included. -/
def State.rqHolds (s : State) (code q : Nat) : Nat := ((s.poolBufs q).map fun e => e.2.holdsOf code).sum

/-- BPM_OWN_HOLD: the buffers of a pool charged to an owner, each until its last hold is released (R273). -/
def State.ownHolds (s : State) (n q : Nat) : Nat := ((s.poolBufs q).filter fun e => e.2.owner == n).length

/-! ### Effective counts and reserves (R278) -/

def State.sliceFenced (s : State) (sl : Nat) : Bool := nbit (s.fld R.BPM_STATUS F.BPM_STATUS.FENCED) sl

/-- F: the fenced slices. -/
def State.fencedCount (s : State) : Nat := ((List.range 16).filter s.sliceFenced).length

/-- The buffer has been taken out of service (R283). -/
def State.outOfService (s : State) (h : Nat) : Bool := SMap.get (fun _ => false) s.bpm.out h

/-- X: the buffers of q in unfenced slices that are out of service. -/
def State.outCount (s : State) (q : Nat) : Nat :=
  (s.bpm.out.filter fun e => e.2 && decide (poolOfH e.1 = q) && !s.sliceFenced (sliceOfH e.1)).length

/-- E: the effective count of a pool. -/
def State.poolEff (s : State) (q : Nat) : Nat :=
  if s.poolDefined q then s.poolCount q * (16 - s.fencedCount) / 16 - s.outCount q else 0

/-- The scaled reserve of Pitch n in a pool. -/
def State.scaledRsv (s : State) (n q : Nat) : Nat :=
  s.fld (R.PIT_BUF_RSV n q) F.PIT_BUF_RSV.RSV * (16 - s.fencedCount) / 16

/-- The sum of the scaled reserves of a pool. -/
def State.scaledSum (s : State) (q : Nat) : Nat := (((List.range 16).map (· + 1)).map fun n => s.scaledRsv n q).sum

/-- The effective reserve of Pitch n in a pool. -/
def State.effRsv (s : State) (n q : Nat) : Nat :=
  let sum := s.scaledSum q
  let e := s.poolEff q
  if sum ≤ e then s.scaledRsv n q else s.scaledRsv n q * e / sum

/-- The unreserved count of a pool. -/
def State.unreserved (s : State) (q : Nat) : Nat :=
  s.poolEff q - (((List.range 16).map (· + 1)).map fun n => s.effRsv n q).sum

/-! ### Free lists (R269) -/

/-- The places, in rising order, of the buffers of pool q and slice sl that are not free: index i stands at i / 16. -/
def State.usedPlaces (s : State) (q sl : Nat) : List Nat :=
  let used := (s.poolBufs q).map (·.1) ++
    (s.bpm.out.filter fun e => e.2 && decide (poolOfH e.1 = q) && (s.buf e.1).isNone).map (·.1)
  sortBy (fun a b => decide (a ≤ b)) ((used.filter fun h => sliceOfH h == sl).map fun h => indexOfH h / 16)

/-- The free buffers of pool q in slice sl. -/
def State.freeInSlice (s : State) (q sl : Nat) : Nat := s.poolCount q / 16 - (s.usedPlaces q sl).length

/-- BPM_POOL_FREE: the free buffers in unfenced slices. -/
def State.poolFree (s : State) (q : Nat) : Nat :=
  if s.poolDefined q then
    (((List.range 16).filter fun sl => !s.sliceFenced sl).map fun sl => s.freeInSlice q sl).sum
  else 0

/-- The place of the k-th free buffer, given the places in use in rising order. -/
def kthFree (used : List Nat) (k : Nat) : Nat := used.foldl (fun i u => if u ≤ i then i + 1 else i) k

/-- The next slice of pool q's rotation whose free list is not empty. -/
def State.nextSlice (s : State) (q : Nat) : Option Nat :=
  let r := SMap.get (fun _ => 0) s.bpm.rot q
  ((List.range 16).map fun i => (r + i) % 16).find? fun sl => !s.sliceFenced sl && decide (0 < s.freeInSlice q sl)

/-! ### Decisions (R273 to R276) -/

/-- What the Buffer Pool Manager answers. -/
inductive BpmAns where
  | granted (h : Nat)
  | quota
  | reserve
  | empty
  deriving DecidableEq, Repr

/-- A refusal is counted for its owner and sets its cause (R275). -/
def State.bpmRefuse (s : State) (n : Nat) (a : BpmAns) : State :=
  match a with
  | .granted _ => s
  | .quota => (s.addCnt (C.BPM_REFUSE_QUOTA n) 1).cause (R.BPM_OWN_CAUSE n) F.BPM_OWN_CAUSE.QUOTA
  | .reserve => (s.addCnt (C.BPM_REFUSE_RESERVE n) 1).cause (R.BPM_OWN_CAUSE n) F.BPM_OWN_CAUSE.REFUSE
  | .empty => (s.addCnt (C.BPM_REFUSE_EMPTY n) 1).cause (R.BPM_OWN_CAUSE n) F.BPM_OWN_CAUSE.REFUSE

/-- The first condition of R273 that fails for a new buffer of pool q. -/
def State.bpmJudge (s : State) (rq q : Nat) : Option BpmAns :=
  let n := s.rqOwner rq
  if s.rqQuota rq q ≤ s.rqHolds rq q then some .quota
  else if (if n = 0 then s.unreserved q else s.effRsv n q) ≤ s.ownHolds n q then some .reserve
  else if (s.nextSlice q).isNone then some .empty
  else none

/-- A request for a new buffer of `len` bytes by requester `rq`, which will hold `bytes` (R267, R269, R273, R275). The
free list's order is not given: which of the free buffers of the slice is taken is a free choice. -/
def State.bpmAlloc (s : State) (rq len : Nat) (bytes : Bytes) : BpmAns × State :=
  let n := s.rqOwner rq
  match (if s.layoutFixed then s.poolFor len else none) with
  | none => (.empty, s.bpmRefuse n .empty)
  | some q =>
    match s.bpmJudge rq q with
    | some a => (a, s.bpmRefuse n a)
    | none =>
      match s.nextSlice q with
      | none => (.empty, s.bpmRefuse n .empty)
      | some sl =>
        let (w, s) := s.freeWord
        let place := kthFree (s.usedPlaces q sl) (w % max 1 (s.freeInSlice q sl))
        let h := handleOf q (place * 16 + sl)
        let b : Buf :=
          { primary := some rq, owner := n, alloc := (s.reg R.DEV_ROUND_NUM).toNat % 65536, bytes := bytes }
        let s := s.setBuf h (some b)
        let s := { s with bpm := { s.bpm with rot := SMap.put (fun _ => 0) s.bpm.rot q ((sl + 1) % 16) } }
        (.granted h, s.addCnt (C.BPM_ADMITTED n) 1)

/-- A copy hold for requester `rq` on buffer `h`: condition 1 only; EMPTY when STATE is 0 (R274, R276). HOLDS never
exceeds 1,025 (R270). DESIGN CHOICE: a buffer that only another owner holds is refused as one that is gone (R47, log entry 158). -/
def State.bpmCopy (s : State) (rq h : Nat) : Bool × State :=
  let n := s.rqOwner rq
  match s.buf h with
  | none => (false, s.bpmRefuse n .empty)
  | some b =>
    if s.foreignBuf n h then (false, s.bpmRefuse n .empty)
    else if s.rqQuota rq (poolOfH h) ≤ s.rqHolds rq (poolOfH h) then (false, s.bpmRefuse n .quota)
    else (true, s.setBuf h (some { b with copies := b.copies ++ [rq] }))

/-- A move of the primary hold of buffer `h` to requester `rq` (R274), as a copy hold is judged. -/
def State.bpmMove (s : State) (rq h : Nat) : Bool × State :=
  let n := s.rqOwner rq
  match s.buf h with
  | none => (false, s.bpmRefuse n .empty)
  | some b =>
    if s.foreignBuf n h then (false, s.bpmRefuse n .empty)
    else if s.rqQuota rq (poolOfH h) ≤ s.rqHolds rq (poolOfH h) then (false, s.bpmRefuse n .quota)
    else (true, s.setBuf h (some { b with primary := some rq }))

/-- Release one hold of requester `rq` on buffer `h`; at the last the buffer is free again (R270). -/
def State.bpmRelease (s : State) (rq h : Nat) : State :=
  match s.buf h with
  | none => s
  | some b =>
    let b' := if b.primary = some rq then { b with primary := none } else { b with copies := b.copies.erase rq }
    s.setBuf h (if b'.holds = 0 then none else some b')

/-- A double free by requester `rq` (R271). -/
def State.bpmDoubleFree (s : State) (rq h : Nat) : State :=
  let n := s.rqOwner rq
  let s := if s.bit R.BPM_CAUSE F.BPM_CAUSE.DFREE then s
    else s.setReg R.BPM_DFREE (BitVec.ofNat 32 (rq * 2 ^ 24 + h % 2 ^ 24))
  let s := s.addCnt (C.BPM_OWN_DFREE n) 1
  (s.cause (R.BPM_OWN_CAUSE n) F.BPM_OWN_CAUSE.DFREE).cause R.BPM_CAUSE F.BPM_CAUSE.DFREE

/-- The holds of every requester that `p` picks are released (R280). -/
def State.bpmReleaseAll (s : State) (p : Nat → Bool) : State :=
  s.bpm.bufs.foldl (fun s e =>
    match s.buf e.1 with
    | none => s
    | some b =>
      let b' := { b with primary := if b.primary.any p then none else b.primary, copies := b.copies.filter fun c => !p c }
      s.setBuf e.1 (if b'.holds = 0 then none else some b')) s

/-- Write bytes into a buffer. -/
def State.setBufBytes (s : State) (h : Nat) (bytes : Bytes) : State :=
  match s.buf h with
  | none => s
  | some b => s.setBuf h (some { b with bytes := bytes, flips := [] })

/-! ### Errors and fencing (R286 to R288) -/

/-- The buffer lies in a fenced slice. -/
def State.bufFenced (s : State) (h : Nat) : Bool := s.sliceFenced (sliceOfH h)

/-- Fence a slice (R287). -/
def State.fenceSlice (s : State) (sl : Nat) : State :=
  if s.sliceFenced sl then s
  else
    let s := s.setFld R.BPM_STATUS F.BPM_STATUS.FENCED (setNBit (s.fld R.BPM_STATUS F.BPM_STATUS.FENCED) sl)
    s.ariseF R.BPM_CAUSE F.BPM_CAUSE.FENCE

/-- A frame that requester `rq` holds in a fenced slice is lost: it counts for the owner of its primary holder (R288). -/
def State.sliceLoss (s : State) (rq h : Nat) : State :=
  let n := match s.buf h with
    | some b => b.owner
    | none => s.rqOwner rq
  (s.addCnt (C.BPM_SLICE_LOSS n) 1).cause (R.BPM_OWN_CAUSE n) F.BPM_OWN_CAUSE.SLICE_LOSS

/-- An uncorrectable error in a slice: counted, and the fence of BPM_FENCE_CTL.UNCORR_THR (R286, R287). -/
def State.uncorrError (s : State) (sl : Nat) : State :=
  let k := SMap.get (fun _ => 0) s.bpm.errs sl + 1
  let s := { s with bpm := { s.bpm with errs := SMap.put (fun _ => 0) s.bpm.errs sl k } }
  let s := (s.addCnt (C.BPM_SLICE_UNCORR sl) 1).cause R.BPM_CAUSE F.BPM_CAUSE.UNCORR
  let thr := s.fld R.BPM_FENCE_CTL F.BPM_FENCE_CTL.UNCORR_THR
  if thr ≠ 0 ∧ thr ≤ k then s.fenceSlice sl else s

/-- Read the words of 16 bytes that hold bytes `off` to `off + len - 1` of a buffer: one flipped bit in a word is
corrected and counted, more are uncorrectable (R286). Answers whether an uncorrectable error was found; a fenced buffer
fails as one does (R288). -/
def State.readBuf (s : State) (h off len : Nat) : Bool × State :=
  match s.buf h with
  | none => (false, s)
  | some b =>
    if s.bufFenced h then (true, s)
    else
      let ws := (List.range (if len = 0 then 0 else (off + len - 1) / 16 - off / 16 + 1)).map (off / 16 + ·)
      ws.foldl (fun acc w =>
        let k := (b.flips.filter fun f => f / 128 == w).length
        if k = 0 then acc
        else if k = 1 then (acc.1, acc.2.addCnt (C.BPM_SLICE_CORR (sliceOfH h)) 1)
        else (true, acc.2.uncorrError (sliceOfH h))) (false, s)

end Sys2Proof.Machine
end

