-- ==== Sys2Proof/Machine/Bucket.lean ====
section
/-! DEFINITION. Token buckets: refill from the time clock (R30), the two-rate three-colour judgement of R148, and the
bucket settings of a token reset (R151, R321). -/

namespace Sys2Proof.Machine

/-- A bucket at instant `now` (1/16 ns) under a rate of `rate` Mb/s. -/
def Bucket.refill (b : Bucket) (rate now : Nat) : Bucket := { lack := b.lack - rate * (now - b.at16), at16 := now }

/-- The tokens of a refilled bucket of `depth` bytes, in 1/128,000 byte. -/
def Bucket.level (b : Bucket) (depth : Nat) : Nat := depth * 128000 - b.lack

/-- Take `n` bytes. -/
def Bucket.take (b : Bucket) (n : Nat) : Bucket := { b with lack := b.lack + n * 128000 }

/-- A full bucket at instant `now`. -/
def Bucket.full (now : Nat) : Bucket := { lack := 0, at16 := now }

/-- An empty bucket of `depth` bytes at instant `now`. -/
def Bucket.empty (depth now : Nat) : Bucket := { lack := depth * 128000, at16 := now }

/-- The bucket keeps its level when its depth changes, as far as the new depth holds it. -/
def Bucket.redepth (b : Bucket) (old new : Nat) : Bucket := { b with lack := new * 128000 - min (b.level old) (new * 128000) }

/-- A colour of a judged packet or copy. -/
inductive Colour where
  | green
  | yellow
  | red
  deriving DecidableEq, Repr

/-- The settings of a two-rate meter. -/
structure Meter where
  cir : Nat
  pir : Nat
  cbs : Nat
  pbs : Nat
  deriving DecidableEq, Repr

/-- Judge `n` bytes at instant `now`, colour-blind. A PIR below CIR acts as CIR; with CIR 0 the committed bucket holds
nothing (R148). -/
def Meter.judge (m : Meter) (b : Buckets) (n now : Nat) : Colour × Buckets :=
  let tc := if m.cir = 0 then Bucket.empty m.cbs now else b.tc.refill m.cir now
  let tp := b.tp.refill (max m.cir m.pir) now
  if tp.level m.pbs < n * 128000 then (.red, ⟨tc, tp⟩)
  else if m.cir = 0 ∨ tc.level m.cbs < n * 128000 then (.yellow, ⟨tc, tp.take n⟩)
  else (.green, ⟨tc.take n, tp.take n⟩)

/-- Both buckets of a meter set full, or empty, at instant `now`. -/
def Meter.setBoth (m : Meter) (empty : Bool) (now : Nat) : Buckets :=
  if empty then ⟨Bucket.empty m.cbs now, Bucket.empty m.pbs now⟩ else ⟨Bucket.full now, Bucket.full now⟩

end Sys2Proof.Machine
end

