-- ==== Sys2Proof/Machine/Wb.lean ====
section
/-! DEFINITION. The Waybill (chapter "Waybill: Authenticated Timestamp Records"): streams, records, gap records, sheets
with their chain and tag, keys, and the audit events that every gated command, time step and reset enters. Export stands
in Export.lean and Dma.lean. -/

namespace Sys2Proof.Machine

def State.strm (s : State) (n : Nat) : WbStream := SMap.get (fun _ => {}) s.wb.strm n
def State.setStrm (s : State) (n : Nat) (q : WbStream) : State :=
  { s with wb := { s.wb with strm := SMap.put (fun _ => {}) s.wb.strm n q } }

/-- A time in the format of R407: S[29:0], N and F[15:12]. -/
def wbTime (t : TimeVal) : Bytes := natBE 8 (t.s % 2 ^ 30 * 2 ^ 34 + t.n * 16 + t.f / 4096)

/-- The fused serial, most significant byte first. -/
def State.serialBytes (s : State) : Bytes := natBE 8 s.fuse.serial.toNat

/-- The key in a slot, none while the slot is empty (R415). -/
def State.wbKey (s : State) (slot : Nat) : Option Bytes :=
  if nbit (s.fld R.WB_STATUS F.WB_STATUS.LOADED) slot then some (SMap.get (fun _ => []) s.wb.keys slot) else none

/-- The slot that stream n names. -/
def State.keyIdx (s : State) (n : Nat) : Nat := s.fld (R.WB_STRM_CTL n) F.WB_STRM_CTL.KEY_IDX

/-- BACKLOG as it acts (R420). -/
def State.wbBacklog (s : State) (n : Nat) : Nat := max 1 (s.fld (R.WB_STRM_CTL n) F.WB_STRM_CTL.BACKLOG)

/-- The backlog of a stream is full. -/
def State.wbStalled (s : State) (n : Nat) : Bool := decide (s.wbBacklog n ≤ (s.strm n).closed.length)

/-- The hash engines in service (R418). -/
def State.enginesUp (s : State) : Nat :=
  let e := s.fld R.WB_STATUS F.WB_STATUS.ENGINE_UP
  e % 2 + e / 2

/-! ### Sheets (R412, R413) -/

/-- The 64-byte header of a sheet (Table 15.4). -/
def sheetHeader (n : Nat) (serial prev : Bytes) (q : Sheet) : Bytes :=
  [0x57, 0x42, 1, (if n = 0 then 1 else 0), BitVec.ofNat 8 n, BitVec.ofNat 8 q.key] ++ natBE 2 q.recs.length ++ serial ++
    natBE 8 q.num ++ natBE 6 q.baseS ++ [BitVec.ofNat 8 q.close, 0] ++ fitBytes 32 prev

/-- A sheet whole, header to trailer, and its CHAIN. -/
def sheetBytes (n : Nat) (serial prev : Bytes) (q : Sheet) : Bytes × Bytes :=
  let body := sheetHeader n serial prev q ++ q.recs.flatten
  let chain := sha256 body
  (body ++ chain ++ (if q.key = 0xFF then List.replicate 32 0 else hmac256 q.kb body), chain)

/-- A closed sheet of stream n is gone: it leaves the backlog and its buffer is released. -/
def State.wbGone (s : State) (n : Nat) (q : Sheet) : State :=
  let w := s.strm n
  let s := s.setStrm n { w with closed := w.closed.filter fun x => x.num ≠ q.num }
  match q.handle with
  | some h => s.bpmRelease (rqCode n 5) h
  | none => s

/-- A closed sheet whose buffer cannot be read is lost and counted (R288; log entry 143). -/
def State.sheetLose (s : State) (n num : Nat) : State :=
  match (s.strm n).closed.find? fun q => q.num = num with
  | none => s
  | some q => (s.wbGone n q).addCnt (C.WB_SHEETS_LOST n) 1

/-! ### The hash engines (R418, R426) -/

/-- Hash engine e is in service. -/
def State.engUp (s : State) (e : Nat) : Bool := nbit (s.fld R.WB_STATUS F.WB_STATUS.ENGINE_UP) e

/-- The stream whose sheet engine e closes. -/
def State.engAt (s : State) (e : Nat) : Option Nat := SMap.get (fun _ => none) s.wb.eng e
def State.setEng (s : State) (e : Nat) (n : Option Nat) : State := { s with wb := { s.wb with eng := SMap.put (fun _ => none) s.wb.eng e n } }

/-- An engine closes a sheet of stream n. -/
def State.inEngine (s : State) (n : Nat) : Bool := (List.range 2).any fun e => s.engUp e && decide (s.engAt e = some n)

/-- A closed sheet of stream n waits for an engine: one at a time, for each takes the CHAIN of the one before (R412). -/
def State.engWaits (s : State) (n : Nat) : Bool := (s.strm n).closed.any (fun q => decide (q.place = .hashing)) && !s.inEngine n

/-- A free engine takes a sheet: the audit stream's first (R418). DESIGN CHOICE: which of several Pitch streams it serves is free (log entry
169). -/
def State.engTake (s : State) (e : Nat) : State :=
  if !s.engUp e || (s.engAt e).isSome then s
  else if s.engWaits 0 then s.setEng e (some 0)
  else match ((List.range 16).map (· + 1)).filter s.engWaits with
  | [] => s
  | [n] => s.setEng e (some n)
  | n :: ns =>
    let (w, s) := s.freeWord
    s.setEng e (some ((n :: ns).getD (w % (ns.length + 1)) n))

/-- The engines take what waits. -/
def State.engServe (s : State) : State := (s.engTake 0).engTake 1

/-- The engine that closes a sheet of stream n is free. -/
def State.engDone (s : State) (n : Nat) : State :=
  ((List.range 2).foldl (fun s e => if s.engAt e = some n then s.setEng e none else s) s).engServe

/-- The first closed sheet of stream n that is not hashed is hashed (R412). One that cannot be read from its buffer is lost (R286, R288). -/
def State.wbHashNow (s : State) (n : Nat) : State :=
  match (s.strm n).closed.find? fun q => q.place = .hashing with
  | none => s
  | some q =>
    match q.handle.elim (false, s) fun h => s.readBuf h 0 (64 + q.recs.flatten.length) with
    | (true, s) => s.sheetLose n q.num
    | (false, s) =>
      let w := s.strm n
      let (bytes, chain) := sheetBytes n s.serialBytes w.chain q
      let s := s.setStrm n { w with
        closed := w.closed.map fun x => if x.num = q.num then { q with bytes := bytes, place := .ready } else x, chain := chain }
      match q.handle with
      | some h => s.setBufBytes h bytes
      | none => s

/-- The engine that closes a sheet of stream n has done so (R412, R418). -/
def State.wbHash (s : State) (n : Nat) : State := if s.inEngine n then (s.wbHashNow n).engDone n else s

/-- The Waybill finds the buffer of the open sheet of stream n fenced and gives it up: the sheet is lost, and if it holds records its number
is passed over (R288, log entry 143). -/
def State.wbFenced (s : State) (n : Nat) : State :=
  let w := s.strm n
  match w.cur with
  | none => s
  | some o =>
    match o.handle with
    | none => s
    | some h =>
      if !s.bufFenced h then s
      else
        let s := (s.setStrm n { w with cur := none, sheet := if o.recs.isEmpty then w.sheet else w.sheet + 1 }).bpmRelease (rqCode n 5) h
        if o.recs.isEmpty then s else s.addCnt (C.WB_SHEETS_LOST n) 1

/-- Open a sheet: refused while the backlog is full or the buffer is (R413, R420). Before a pool layout is fixed stream 0
opens without a buffer (R552). `first` is the first number the sheet will hold. -/
def State.wbOpen (s : State) (n first : Nat) : Bool × State :=
  if s.wbStalled n then (false, s)
  else if n = 0 && !s.layoutFixed then
    (true, s.setStrm n { s.strm n with cur := some { baseS := s.time.s, first := first } })
  else
    match s.bpmAlloc (rqCode n 5) 8320 [] with
    | (.granted h, s) =>
      (true, s.setStrm n { s.strm n with cur := some { baseS := s.time.s, handle := some h, first := first } })
    | (_, s) => (false, s)

/-- EXP_STALL of stream n follows a change that began with its backlog full or not (R420). -/
def State.stallRise (s : State) (n : Nat) (was : Bool) : State :=
  if !s.wbStalled n then s
  else if was then s.cause (R.WB_STRM_CAUSE n) F.WB_STRM_CAUSE.EXP_STALL
  else s.ariseF (R.WB_STRM_CAUSE n) F.WB_STRM_CAUSE.EXP_STALL

/-- NOKEY of stream n: a sheet closes with an empty slot, or the slot holds a key again (R416). -/
def State.setNoKey (s : State) (n : Nat) (b : Bool) : State := s.setStrm n { s.strm n with noKey := b }

/-- The slot of stream n is empty at a close: NOKEY persists from the first such close (R416, R559). -/
def State.noKeyRise (s : State) (n : Nat) : State :=
  if (s.strm n).noKey then s.cause (R.WB_STRM_CAUSE n) F.WB_STRM_CAUSE.NOKEY
  else (s.setNoKey n true).ariseF (R.WB_STRM_CAUSE n) F.WB_STRM_CAUSE.NOKEY

/-- NOKEY of a stream whose slot holds a key persists no longer. -/
def State.noKeyEnd (s : State) : State :=
  (List.range 17).foldl (fun s n => if (s.strm n).noKey && (s.wbKey (s.keyIdx n)).isSome then s.setNoKey n false else s) s

/-- Close the open sheet of a stream with a CLOSE code; a sheet that holds no record never closes (R413, R416, R420). An engine takes the
closed sheet if one is free. -/
def State.wbClose (s : State) (n code : Nat) : State :=
  let w := s.strm n
  match w.cur with
  | none => s
  | some o =>
    if o.recs.isEmpty then s
    else
      let slot := s.keyIdx n
      let q : Sheet :=
        { num := w.sheet, key := if (s.wbKey slot).isSome then slot else 0xFF, kb := (s.wbKey slot).getD [], close := code,
          recs := o.recs, baseS := o.baseS, handle := o.handle, first := o.first, tLo := o.tLo, tHi := o.tHi, hold := o.hold }
      let was := s.wbStalled n
      let s := (s.setStrm n { w with cur := none, closed := w.closed ++ [q], sheet := w.sheet + 1 }).addCnt (C.WB_SHEETS n) 1
      let s := if (s.wbKey slot).isSome then s else s.noKeyRise n
      (s.stallRise n was).engServe

/-- Make room for `k` records: a sheet with too few slots closes as full, and a sheet is opened when none is open. -/
def State.wbRoom (s : State) (n k first : Nat) : Bool × State :=
  let s := s.wbFenced n
  match (s.strm n).cur with
  | some o =>
    if o.recs.length + k ≤ 256 then (true, s) else (s.wbClose n 0).wbOpen n first
  | none => s.wbOpen n first

/-- Put a record into the open sheet, which closes as full at 256 records. `ts` are the ingress stamps it covers, at one of which the time
base was in holdover or at none. -/
def State.wbPut (s : State) (n : Nat) (rec : Bytes) (ts : List TimeVal) (hold : Bool) : State :=
  let w := s.strm n
  match w.cur with
  | none => s
  | some o =>
    let lo := fun (a : Option TimeVal) (t : TimeVal) => some (a.elim t fun x => if t.units < x.units then t else x)
    let hi := fun (a : Option TimeVal) (t : TimeVal) => some (a.elim t fun x => if x.units < t.units then t else x)
    let o := { o with recs := o.recs ++ [rec], tLo := ts.foldl lo o.tLo, tHi := ts.foldl hi o.tHi, hold := o.hold || hold && !ts.isEmpty }
    let s := s.setStrm n { w with cur := some o }
    if 256 ≤ o.recs.length then s.wbClose n 0 else s

/-! ### Gaps (R410, R411) -/

/-- A gap record (Table 15.2). -/
def gapRec (n : Nat) (g : Gap) : Bytes :=
  [(if g.hold then 0x44 else 0x40), BitVec.ofNat 8 (g.reason * 16)] ++ natBE 4 g.count ++ natBE 6 g.first ++
    wbTime g.tFirst ++ wbTime g.tLast ++ [BitVec.ofNat 8 n, 0, 0, 0]

/-- The first number that the stream's next sheet holds: that of the first gap that takes numbers, else `sq`. -/
def State.wbFirst (s : State) (n sq : Nat) : Nat :=
  match (s.strm n).gaps.find? fun g => decide (g.reason ≤ 4) with
  | some g => g.first
  | none => sq

/-- Write the gaps that await their records. Answers false when a sheet could not be opened. -/
def State.wbGaps (s : State) (n sq : Nat) : Nat → Bool × State
  | 0 => ((s.strm n).gaps.isEmpty, s)
  | fuel + 1 =>
    match (s.strm n).gaps with
    | [] => (true, s)
    | g :: rest =>
      match s.wbRoom n 1 (s.wbFirst n sq) with
      | (false, s) => (false, s)
      | (true, s) =>
        let s := s.setStrm n { s.strm n with gaps := rest }
        let s := s.wbPut n (gapRec n g) (if g.reason ≤ 4 then [g.tFirst, g.tLast] else []) g.hold
        let s := (s.addCnt (C.WB_GAPS n) 1).cause (R.WB_STRM_CAUSE n) F.WB_STRM_CAUSE.GAP
        State.wbGaps s n sq fuel

/-- A record of number `sq` is lost for `reason`: it joins the last gap of that reason, or starts one. -/
def State.wbLose (s : State) (n reason sq : Nat) (t : TimeVal) (hold : Bool) : State :=
  let w := s.strm n
  let new : Gap := { reason := reason, count := 1, first := sq, tFirst := t, tLast := t, hold := hold }
  let gaps := match w.gaps.getLast? with
    | some g =>
      if g.reason = reason ∧ g.count < 2 ^ 32 - 1 then
        w.gaps.dropLast ++ [{ g with
          count := g.count + 1, tFirst := if t.units < g.tFirst.units then t else g.tFirst,
          tLast := if g.tLast.units < t.units then t else g.tLast, hold := g.hold || hold }]
      else w.gaps ++ [new]
    | none => [new]
  (s.setStrm n { w with gaps := gaps }).addCnt (C.WB_LOST n) 1

/-- The record bucket of a stream as of now (R417). -/
def State.wbRate (s : State) (n : Nat) : Nat :=
  let r := min 3200 (s.fld (R.WB_STRM_QUOTA n) F.WB_STRM_QUOTA.RATE)
  if s.enginesUp = 2 then 8 * r else 4 * r

def State.wbRefill (s : State) (n : Nat) : State :=
  s.setStrm n { s.strm n with b := (s.strm n).b.refill (s.wbRate n) s.clk16 }

/-- Present a record that takes the next number (R409). `mk` builds its records, one or two, from the number; `t` is its
ingress stamp or time. Stream 0 takes no quota and is never lost for ENGINE (R418). -/
def State.wbPresent (s : State) (n : Nat) (mk : Nat → List Bytes) (t : TimeVal) (hold : Bool) : State :=
  let sq := (s.strm n).seq
  let s := s.setStrm n { s.strm n with seq := (sq + 1) % 2 ^ 48 }
  let s := s.wbRefill n
  if n ≠ 0 && s.enginesUp = 0 then s.wbLose n 3 sq t hold
  else if n ≠ 0 && decide ((s.strm n).b.level 4096 < 128000) then s.wbLose n 1 sq t hold
  else
    let s := if n = 0 then s else s.setStrm n { s.strm n with b := (s.strm n).b.take 1 }
    match s.wbGaps n sq ((s.strm n).gaps.length) with
    | (false, s) => s.wbLose n 2 sq t hold
    | (true, s) =>
      let recs := mk sq
      match s.wbRoom n recs.length sq with
      | (false, s) => s.wbLose n 2 sq t hold
      | (true, s) => (recs.foldl (fun s r => s.wbPut n r (if n = 0 then [] else [t]) hold) s).addCnt (C.WB_RECORDS n) 1

/-- Put a record among those of the tick: in ascending order of pipelines, and behind those of its own (R409). -/
def wbInsert (e : WbDue) : List WbDue → List WbDue
  | [] => [e]
  | x :: xs => if e.pipe < x.pipe then e :: x :: xs else x :: wbInsert e xs

/-- The frame records of a tick are presented to their streams, and each takes its number (R409). -/
def State.wbTick (s : State) : State :=
  s.wb.due.foldl (fun s e => s.wbPresent e.strm (fun sq => [splice e.body 6 (natBE 6 sq)]) e.t e.hold)
    { s with wb := { s.wb with due := [] } }

/-! ### Audit events (R423, R424, Table 15.7) -/

/-- Enter an event in stream 0, with an extension record when its data exceed 12 bytes. -/
def State.audit (s : State) (ev : Nat) (refused : Bool) (subj : Nat) (data : Bytes) : State :=
  let hold := s.bit R.TIME_STATUS F.TIME_STATUS.HOLDOVER
  let r := (s.reg R.DEV_ROUND_NUM).toNat % 65536
  let t := s.tnow
  s.wbPresent 0 (fun sq =>
    let head := [BitVec.ofNat 8 (0x80 + (if refused then 0x20 else 0) + (if hold then 4 else 0)), BitVec.ofNat 8 ev] ++
      natBE 2 subj ++ natBE 2 r ++ natBE 6 sq ++ wbTime t ++ fitBytes 12 data
    if data.length ≤ 12 then [head]
    else [head, [0xC0, BitVec.ofNat 8 ev] ++ List.replicate 10 0 ++ fitBytes 20 (data.drop 12)]) t hold

/-- Event 0x06: an RWP write, accepted or refused: register offset, old value and new value. -/
def State.auditWrite (s : State) (refused : Bool) (subj addr : Nat) (old new : Word) : State :=
  s.audit 0x06 refused subj (natBE 4 addr ++ natBE 4 old.toNat ++ natBE 4 new.toNat)

/-! ### Commands on streams and keys (R413, R415, R416, R418) -/

/-- The 32 bytes of WB_KEY_DATA. -/
def State.wbKeyData (s : State) : Bytes := (List.range 8).flatMap fun k => natBE 4 (s.reg (R.WB_KEY_DATA k)).toNat

/-- A slot is named by some stream. -/
def State.keyNamed (s : State) (slot : Nat) : Bool := (List.range 17).any fun n => s.keyIdx n == slot

/-- WB_KEY_DATA is cleared after every GO. -/
def State.wbKeyWipe (s : State) : State := (List.range 8).foldl (fun s k => s.setReg (R.WB_KEY_DATA k) 0) s

/-- Report a result of WB_KEY_CTL. -/
def State.wbKeyDone (s : State) (res : Nat) : State := (s.setFld R.WB_KEY_CTL F.WB_KEY_CTL.RESULT res).wbKeyWipe

/-- An accepted WB_KEY_CTL.GO: load or erase the slot (Table 15.5), with audit event 0x0F. -/
def State.wbKeyLoad (s : State) : State :=
  let slot := s.fld R.WB_KEY_CTL F.WB_KEY_CTL.SLOT
  let len := s.fld R.WB_KEY_CTL F.WB_KEY_CTL.LEN
  let old := s.fld R.WB_STATUS F.WB_STATUS.LOADED
  let key := s.wbKeyData.take len
  let kcv := if len = 0 then 0 else beNat ((hmac256 key (List.replicate 32 0)).take 4)
  let ev := fun (s : State) (refused : Bool) => s.audit 0x0F refused slot (natBE 4 kcv ++ [BitVec.ofNat 8 len])
  if nbit old slot && s.keyNamed slot then (ev s true).wbKeyDone 1
  else if len ≠ 0 ∧ (len < 16 ∨ 32 < len) then (ev s true).wbKeyDone 2
  else
    let s := { s with wb := { s.wb with keys := SMap.put (fun _ => []) s.wb.keys slot key } }
    let s := s.setFld R.WB_STATUS F.WB_STATUS.LOADED (if len = 0 then clrNBit old slot else setNBit old slot)
    let s := (s.setReg (R.WB_KEY_KCV slot) (BitVec.ofNat 32 kcv)).noKeyEnd
    (ev s false).wbKeyDone 0

/-- A change of KEY_IDX: the open sheet closes with CLOSE 4 under the old slot, and event 0x10 is entered (R416). -/
def State.wbKeyIdx (s : State) (n slot : Nat) : State :=
  let old := s.keyIdx n
  if old = slot then s
  else
    let s := s.wbClose n 4
    let s := (s.setFld (R.WB_STRM_CTL n) F.WB_STRM_CTL.KEY_IDX slot).noKeyEnd
    s.audit 0x10 false n [BitVec.ofNat 8 old, BitVec.ofNat 8 slot]

/-- Duty 5 of R34: every open sheet whose CLOSE_ROUNDS have passed closes by schedule (R413). -/
def State.wbRound (s : State) : State :=
  (List.range 17).foldl (fun s n =>
    match (s.strm n).cur with
    | none => s
    | some o =>
      if o.recs.isEmpty then s
      else
        let s := s.setStrm n { s.strm n with cur := some { o with rounds := o.rounds + 1 } }
        let lim := s.fld (R.WB_STRM_CTL n) F.WB_STRM_CTL.CLOSE_ROUNDS
        if lim ≠ 0 ∧ lim ≤ o.rounds + 1 then s.wbClose n 1 else s) s

/-- A loss of stream n for ENGINE awaits its gap record. -/
def State.engineGap (s : State) (n : Nat) : Bool := (s.strm n).gaps.any fun g => decide (g.reason = 3)

/-- A hash engine leaves or returns to service: each stream's bucket is counted at its old rate first, the sheet that it was closing goes to
the other engine, and the losses of the time when both were out have their gap records when one returns (R418, R426). -/
def State.wbEngine (s : State) (e : Nat) (up : Bool) : State :=
  let s := (List.range 17).foldl (fun s n => s.wbRefill n) s
  let was := s.enginesUp
  let old := s.fld R.WB_STATUS F.WB_STATUS.ENGINE_UP
  let s := s.setFld R.WB_STATUS F.WB_STATUS.ENGINE_UP (if up then setNBit old (e % 2) else clrNBit old (e % 2))
  let s := (if up then s else s.setEng (e % 2) none).engServe
  if up then
    (if was ≠ 0 then s
     else (List.range 17).foldl (fun s n => if s.engineGap n then (s.wbGaps n (s.strm n).seq (s.strm n).gaps.length).2 else s) s)
  else if was = 2 then s.ariseF R.WB_CAUSE F.WB_CAUSE.ENGINE
  else s.cause R.WB_CAUSE F.WB_CAUSE.ENGINE

/-- A sheet has left the part whole: its buffer is released (R420). -/
def State.wbExported (s : State) (n num : Nat) : State :=
  match (s.strm n).closed.find? fun q => q.num = num with
  | none => s
  | some q => (s.wbGone n q).addCnt (C.WB_EXPORTED n) 1

/-- Set the place of a closed sheet. -/
def State.wbPlace (s : State) (n num : Nat) (p : SheetAt) : State :=
  let w := s.strm n
  s.setStrm n { w with closed := w.closed.map fun q => if q.num = num then { q with place := p } else q }

/-- A WB request that ends without a record (R405). -/
def State.wbReqDrop (s : State) (n : Nat) : State := if n = 0 then s else s.addCnt (C.WB_REQ_DROP n) 1

/-! ### Pitch reset (R414, R425) -/

/-- What steps 1 to 4 of a Pitch reset dropped: frames, and the times of the first and the last drop. -/
structure ResetDrops where
  count : Nat
  tFirst : TimeVal
  tLast : TimeVal
  deriving DecidableEq, Repr

/-- The runs of sheets whose numbers follow one another, of a list in rising order. -/
def sheetRuns (l : List Sheet) : List (List Sheet) :=
  l.foldr (fun q acc =>
    match acc with
    | (x :: r) :: rest => if x.num = q.num + 1 then (q :: x :: r) :: rest else [q] :: (x :: r) :: rest
    | _ => [[q]]) []

/-- A count cut into parts that COUNT of a gap record holds, each with what comes before it (R410). -/
def countParts (k : Nat) : List (Nat × Nat) :=
  let m := 2 ^ 32 - 1
  (List.range ((k + m - 1) / m)).map fun i => (i * m, min m (k - i * m))

/-- Steps 5 and 6 of Table 2.4 for stream n: the sheets not wholly exported and the records of the open sheet are lost, the gaps are written
into the open sheet, which keeps its number, and that sheet closes with CLOSE 2. DESIGN CHOICE: lost sheets whose numbers do not follow one
another take a SHEETS gap for each run, and a DISCARD gap beyond 2^32 − 1 numbers goes on in another (log entry 170). -/
def State.wbReset (s : State) (n : Nat) (d : ResetDrops) : State :=
  let unhashed := (s.strm n).closed.filter fun q => q.place = .hashing
  let s := unhashed.foldl (fun s _ => s.wbHashNow n) s
  let w := s.strm n
  let lost := w.closed
  let s := lost.foldl (fun s q => match q.handle with
    | some h => s.bpmRelease (rqCode n 5) h
    | none => s) s
  let s := match w.cur with
    | some o => (match o.handle with
      | some h => s.bpmRelease (rqCode n 5) h
      | none => s)
    | none => s
  let s := if lost.isEmpty then s else s.addCnt (C.WB_SHEETS_LOST n) lost.length
  let opened := w.cur.toList
  let firsts := lost.map (·.first) ++ (opened.filter fun o => !o.recs.isEmpty).map (·.first)
  let waits := w.gaps.filter fun g => decide (g.reason ≤ 4)
  let tl := lost.filterMap (·.tLo) ++ opened.filterMap (·.tLo) ++ waits.map (·.tFirst)
  let th := lost.filterMap (·.tHi) ++ opened.filterMap (·.tHi) ++ waits.map (·.tLast)
  let holds := (lost.any (·.hold)) || (opened.any (·.hold)) || waits.any (·.hold)
  let lo := fun (l : List TimeVal) => l.foldl (fun a t => if t.units < a.units then t else a) (l.headD {})
  let hi := fun (l : List TimeVal) => l.foldl (fun a t => if a.units < t.units then t else a) {}
  let held := s.bit R.TIME_STATUS F.TIME_STATUS.HOLDOVER
  let g6 : List Gap := (sheetRuns lost).map fun r =>
    { reason := 6, count := r.length, first := (r.map (·.num)).headD 0 % 2 ^ 48, tFirst := lo (r.filterMap (·.tLo)),
      tLast := hi (r.filterMap (·.tHi)), hold := r.any (·.hold) }
  let g4 : List Gap := match firsts with
    | [] => []
    | f :: _ => (countParts ((w.seq + 2 ^ 48 - f) % 2 ^ 48)).map fun c =>
        { reason := 4, count := c.2, first := (f + c.1) % 2 ^ 48, tFirst := lo tl, tLast := hi th, hold := holds }
  let g5 : List Gap := if d.count = 0 then []
    else [{ reason := 5, count := d.count, first := w.seq, tFirst := d.tFirst, tLast := d.tLast, hold := held }]
  let kept := if g4.isEmpty then w.gaps else []
  let base := (opened.head?.map (·.baseS)).getD s.time.s
  let wasOpen := !opened.isEmpty
  let gaps := kept ++ g6 ++ g4 ++ g5
  let s := (s.setStrm n { w with cur := none, closed := [], gaps := gaps }).engDone n
  if gaps.isEmpty then s
  else
    match s.wbGaps n w.seq gaps.length with
    | (true, s) =>
      let s := match (s.strm n).cur with
        | some o => if wasOpen then s.setStrm n { s.strm n with cur := some { o with baseS := base } } else s
        | none => s
      s.wbClose n 2
    | (false, s) => s

end Sys2Proof.Machine
end

