-- ==== Sys2Proof/Machine/Time.lean ====
section
/-! DEFINITION. The time base (chapter "The Time Base"): counting, sets, trims and steps, the servo and holdover, pulse
outputs, captures, SyncE outputs, and the election of a time link parent. Time link frames stand in TimeLink.lean. -/

namespace Sys2Proof.Machine

def State.setTime (s : State) (t : TimeSt) : State := { s with time := t }

/-! ### Counting (R328, R331) -/

/-- A counter one time clock cycle later, with the frequency word `adj` in 2^-44 ns (R328). -/
def TimeRaw.cycle (c : TimeRaw) (adj : Int) : TimeRaw :=
  let v := (((c.n * 2 ^ 44 + c.fr + 2 ^ 44 : Nat) : Int) + adj).toNat
  let n := v / 2 ^ 44
  if 1000000000 ≤ n then { s := (c.s + 1) % 2 ^ 48, n := n - 1000000000, fr := v % 2 ^ 44 }
  else { s := c.s, n := n, fr := v % 2 ^ 44 }

/-- A counter moved by `a` units of 2^-16 ns, the hidden fraction unchanged (R333). -/
def TimeRaw.move (c : TimeRaw) (a : Int) : TimeRaw :=
  let v := ((((c.s * 1000000000 + c.n) * 2 ^ 44 + c.fr : Nat) : Int) + a * 2 ^ 28).toNat
  { s := v / 2 ^ 44 / 1000000000 % 2 ^ 48, n := v / 2 ^ 44 % 1000000000, fr := v % 2 ^ 44 }

/-- Copy 0 of the time base. -/
def TimeSt.raw (t : TimeSt) : TimeRaw := ⟨t.s, t.n, t.fr⟩

/-- The time base with copy 0 given; copy 1 is kept only while it differs (R331). -/
def TimeSt.withRaw (t : TimeSt) (c : TimeRaw) (c1 : Option TimeRaw) : TimeSt :=
  { t with s := c.s, n := c.n, fr := c.fr, copy1 := c1 }


/-- One time clock cycle (R328, R438). -/
def State.timeCycle (s : State) : State :=
  let t := s.time
  s.setTime { t.withRaw (t.raw.cycle s.adj) (t.copy1.map fun c => c.cycle s.adj) with now := (t.now + 1) % 2 ^ 64 }

/-- The time base counts: its PLL is locked and has been since bring-up (R329, R568). -/
def State.timeRuns (s : State) : Bool := nbit (s.fld R.CLK_STATUS F.CLK_STATUS.PLL_LOCK) 1

def State.timeValid (s : State) : Bool := s.bit R.TIME_STATUS F.TIME_STATUS.VALID
def State.holdover (s : State) : Bool := s.bit R.TIME_STATUS F.TIME_STATUS.HOLDOVER
/-- The source in use: codes 4 to 7 act as 0 (Table 12.1). -/
def State.timeSrc (s : State) : Nat := s.fld R.TIME_STATUS F.TIME_STATUS.SRC
/-- TIME_STEP_THR as it acts, in ns. -/
def State.stepThr (s : State) : Nat := min 1000000 (s.fld R.TIME_STEP_THR F.TIME_STEP_THR.NS)

/-- A counter fault (R331). -/
def State.counterFault (s : State) (c0 c1 : TimeRaw) : State :=
  let s := s.timeMark
  let s := s.setTime (s.time.withRaw c0 (if c1 = c0 then none else some c1))
  if c1 = c0 then s.setBit R.TIME_STATUS F.TIME_STATUS.CNT_FAULT false
  else
    let s := (s.setBit R.TIME_STATUS F.TIME_STATUS.CNT_FAULT true).setBit R.TIME_STATUS F.TIME_STATUS.VALID false
    s.ariseF R.TIME_CAUSE F.TIME_CAUSE.CNT_FAULT

/-- A counter with one bit flipped: 0 to 43 the fraction, 44 to 73 N, 74 to 121 S. -/
def TimeRaw.flip (c : TimeRaw) (b : Nat) : TimeRaw :=
  if b < 44 then { c with fr := Nat.xor c.fr (2 ^ b) }
  else if b < 74 then { c with n := Nat.xor c.n (2 ^ (b - 44)) }
  else if b < 122 then { c with s := Nat.xor c.s (2 ^ (b - 74)) }
  else c

/-! ### Pulse outputs (R340, R353, R354) -/

def State.ppsOut (s : State) (k : Nat) : PpsSt := SMap.get (fun _ => {}) s.time.pps k
def State.setPps (s : State) (k : Nat) (p : PpsSt) : State :=
  s.setTime { s.time with pps := SMap.put (fun _ => {}) s.time.pps k p }

def State.ppsMode (s : State) (k : Nat) : Nat := s.fld (R.TIME_PPS_CTL k) F.TIME_PPS_CTL.MODE

/-- The level of an output: low before its first arm, else its inactive level or a pulse (R353, Table 20.1). -/
def State.ppsLevel (s : State) (k : Nat) : Bool :=
  let p := s.ppsOut k
  p.ever && (xor p.stop.isSome (s.bit (R.TIME_PPS_CTL k) F.TIME_PPS_CTL.INV))

/-- Give the land its new level, if it changed. -/
def State.ppsShow (s before : State) (k : Nat) : State :=
  if before.ppsLevel k = s.ppsLevel k || s.outputsLost then s else s.emit (.pps k (s.ppsLevel k))

/-- The time outputs are lost no more: the PPS and SyncE outputs return to what the part's logic shows (R603). -/
def State.timeBack (s : State) : State := ((List.range 4).foldl (fun s k => s.emit (.pps k (s.ppsLevel k))) s).synceBack

/-- A TAP instruction has given the lands back: the lanes return to the state of R90, and the time outputs to what they give unless they stay
lost (R603). -/
def State.landsBack (s : State) : State := if s.outputsLost then s.linesBack else s.linesBack.timeBack

/-- The first scheduled leading edge after instant `t` (R353). -/
def ppsNext (p : PpsSt) (mode t : Nat) : Option Nat :=
  if !p.on then none
  else if mode = 1 then (if t < p.start then some p.start else none)
  else if mode = 2 then
    (if t < p.start then some p.start else some (p.start + ((t - p.start) / p.period + 1) * p.period))
  else none

/-- The scheduled leading edges at or before instant `t`. -/
def ppsCount (p : PpsSt) (mode t : Nat) : Nat :=
  if !p.on ∨ t < p.start then 0 else if mode = 1 then 1 else if mode = 2 then (t - p.start) / p.period + 1 else 0

/-- The schedule is read again from instant `t` on. -/
def State.ppsResume (s : State) (k t : Nat) : State :=
  let p := s.ppsOut k
  s.setPps k { p with next := ppsNext p (s.ppsMode k) t }

/-- The output emits a leading edge at instant `t`; its pulse ends WIDTH later. -/
def State.ppsRise (s : State) (k t : Nat) : State :=
  let p := s.ppsOut k
  let s1 := s.setPps k { p with stop := some (t + p.width), next := ppsNext p (s.ppsMode k) t, lateDue := false }
  let s1 := s1.setBit (R.TIME_PPS_CTL k) F.TIME_PPS_CTL.ARM false
  (s1.setFld (R.TIME_PPS_CTL k) F.TIME_PPS_CTL.STATE 2).ppsShow s k

/-- The output ends its pulse. A one-shot that is not armed again is then done, and a DISARM that waited takes effect (R354). -/
def State.ppsFall (s : State) (k : Nat) : State :=
  let p := s.ppsOut k
  let over_ := p.disarm || (decide (s.ppsMode k = 1) && p.next.isNone && !p.lateDue)
  let s1 := s.setPps k { p with stop := none, disarm := false, on := p.on && !p.disarm }
  let s1 := if p.disarm then s1.setBit (R.TIME_PPS_CTL k) F.TIME_PPS_CTL.DISARM false else s1
  (if over_ then s1.setFld (R.TIME_PPS_CTL k) F.TIME_PPS_CTL.STATE 3 else s1).ppsShow s k

/-- Emit the edge that is due on output k: a late edge after a step, the end of a pulse, or a leading edge (R340). -/
def State.ppsDue (s : State) (k : Nat) : State :=
  let p := s.ppsOut k
  let t := s.tnow.units
  if p.lateDue then
    ((s.ppsRise k t).addWrap32 (R.TIME_PPS_LATE k) 1).cause R.TIME_CAUSE F.TIME_CAUSE.PPS_LATE
  else if p.stop.any fun e => decide (e ≤ t) then s.ppsFall k
  else if p.next.any fun e => decide (e ≤ t) then s.ppsRise k t
  else s

/-- A step from instant `t0` to `t1` passes over edges of output k (R340). -/
def State.ppsStep (s : State) (t0 t1 k : Nat) : State :=
  let p := s.ppsOut k
  let m := if p.disarm then 0 else s.ppsMode k
  let n := ppsCount p m t1 - ppsCount p m t0
  let d : Int := (t1 : Int) - t0
  let late := s.bit (R.TIME_PPS_CTL k) F.TIME_PPS_CTL.LATE
  let s := s.setPps k { p with
    next := ppsNext p m t1, stop := p.stop.map fun e => ((e : Int) + d).toNat,
    lateDue := p.lateDue || (late && decide (0 < n)) }
  if late ∨ n = 0 then s
  else
    let s := (s.addWrap32 (R.TIME_PPS_SKIP k) n).cause R.TIME_CAUSE F.TIME_CAUSE.PPS_SKIP
    if m = 1 then (s.setFld (R.TIME_PPS_CTL k) F.TIME_PPS_CTL.STATE 3).setBit (R.TIME_PPS_CTL k) F.TIME_PPS_CTL.ARM false
    else s

/-- A trim that passes an edge emits it in the trim's cycle (R340). -/
def State.ppsTrim (s : State) (k : Nat) : State :=
  if (s.ppsOut k).next.any fun e => decide (e ≤ s.tnow.units) then s.ppsRise k s.tnow.units else s

/-- A 48-bit S, N and F staged in three registers, in units of 2^-16 ns. -/
def State.staged (s : State) (rs rsf rns : Nat) : Nat :=
  TimeVal.units { s := (s.reg rs).toNat + (s.reg rsf).toNat / 2 ^ 16 * 2 ^ 32, n := (s.reg rns).toNat % 2 ^ 30,
                  f := (s.reg rsf).toNat % 2 ^ 16 }

/-- TIME_PPS_CTL[k].ARM (R353, R354). -/
def State.ppsArm (s : State) (k : Nat) : State :=
  if 1000000000 ≤ (s.reg (R.TIME_PPS_START_NS k)).toNat % 2 ^ 30 then s.cause R.TIME_CAUSE F.TIME_CAUSE.PPS_CFG
  else
    let start := s.staged (R.TIME_PPS_START_S k) (R.TIME_PPS_START_SF k) (R.TIME_PPS_START_NS k)
    let per := max 1000 (min 4000000000 (s.reg (R.TIME_PPS_PERIOD k)).toNat)
    let w := max 8 (s.reg (R.TIME_PPS_WIDTH k)).toNat
    let width := if per ≤ w then per / 2 else w
    let s := s.setBit (R.TIME_PPS_CTL k) F.TIME_PPS_CTL.DISARM false
    let p := { s.ppsOut k with
      start := start, period := per * 65536, width := width * 65536, on := true, ever := true, lateDue := false, disarm := false }
    let t := s.tnow.units
    let s1 := s.setPps k { p with next := ppsNext p (s.ppsMode k) t }
    let s1 :=
      if s.ppsMode k = 1 ∧ start ≤ t then
        let s1 := (s1.setFld (R.TIME_PPS_CTL k) F.TIME_PPS_CTL.STATE 3).addWrap32 (R.TIME_PPS_SKIP k) 1
        s1.cause R.TIME_CAUSE F.TIME_CAUSE.PPS_SKIP
      else (s1.setFld (R.TIME_PPS_CTL k) F.TIME_PPS_CTL.STATE 1).setBit (R.TIME_PPS_CTL k) F.TIME_PPS_CTL.ARM true
    s1.ppsShow s k

/-- TIME_PPS_CTL[k].DISARM (R354). -/
def State.ppsDisarm (s : State) (k : Nat) : State :=
  let p := s.ppsOut k
  let s := s.setBit (R.TIME_PPS_CTL k) F.TIME_PPS_CTL.ARM false
  if p.stop.isSome then
    (s.setPps k { p with next := none, lateDue := false, disarm := true, on := false }).setBit (R.TIME_PPS_CTL k) F.TIME_PPS_CTL.DISARM true
  else (s.setPps k { p with next := none, lateDue := false, on := false }).setFld (R.TIME_PPS_CTL k) F.TIME_PPS_CTL.STATE 3

/-- MODE of output k has become 0 or 3: the output goes to its inactive level, and a DISARM that waited for the end of the pulse takes
effect (R353, R354). -/
def State.ppsHalt (s : State) (k : Nat) : State :=
  let p := s.ppsOut k
  let s1 := s.setPps k { p with stop := none, lateDue := false, disarm := false }
  if p.disarm then
    (s1.setBit (R.TIME_PPS_CTL k) F.TIME_PPS_CTL.DISARM false).setFld (R.TIME_PPS_CTL k) F.TIME_PPS_CTL.STATE 3
  else s1

/-- A write of function `fn` to TIME_PPS_CTL[k]: MODE, LATE and INV are stored, then DISARM and ARM act; each is a busy write while it
still runs (R11, R353, R354). -/
def State.ppsWrite (s : State) (fn k : Nat) (v : Word) : State :=
  let c := R.TIME_PPS_CTL k
  let f := fun (s : State) (f : Fld) => s.setFld c f (fldOf v f)
  let s1 := f (f (f s F.TIME_PPS_CTL.MODE) F.TIME_PPS_CTL.LATE) F.TIME_PPS_CTL.INV
  let s1 := if fldOf v F.TIME_PPS_CTL.MODE = 3 then s1.cause R.TIME_CAUSE F.TIME_CAUSE.PPS_CFG else s1
  let s1 := if s.ppsMode k = s1.ppsMode k then s1
    else
      let s2 := s1.ppsResume k s1.tnow.units
      if s1.ppsMode k = 0 ∨ s1.ppsMode k = 3 then s2.ppsHalt k else s2
  let s1 := s1.ppsShow s k
  let s1 :=
    if fldOf v F.TIME_PPS_CTL.DISARM = 0 then s1
    else if s.bit c F.TIME_PPS_CTL.DISARM then s1.busyWrite fn else s1.ppsDisarm k
  if fldOf v F.TIME_PPS_CTL.ARM = 0 then s1
  else if s.bit c F.TIME_PPS_CTL.ARM then s1.busyWrite fn else s1.ppsArm k

/-! ### Sets, trims and steps (R333, R334, R336) -/

/-- TIME_TRIM_SUM: Σ to the nearest 1/16 ns, a tie going away from zero, saturating. -/
def State.showSigma (s : State) : State :=
  let v := s.time.sigma
  let r : Int := if 0 ≤ v then (v + 2048) / 4096 else -((-v + 2048) / 4096)
  s.setReg R.TIME_TRIM_SUM (BitVec.ofInt 32 (max (-(2 ^ 31)) (min (2 ^ 31 - 1) r)))

/-- What every step does, from `before` on (R334, R339, R340). -/
def State.stepped (s : State) (before : TimeVal) : State :=
  let d : Int := (s.tnow.units : Int) - before.units
  let s := (s.setTime { s.time with sigma := 0, moves := s.time.moves + d }).showSigma
  let s := (s.addWrap32 R.TIME_STEP_CNT 1).cause R.TIME_CAUSE F.TIME_CAUSE.STEP
  let s := (List.range 4).foldl (fun s k => s.ppsStep before.units s.tnow.units k) s
  s.audit 0x08 false 0 (wbTime before)

/-- Both copies move by `a` units of 2^-16 ns. -/
def State.timeMove (s : State) (a : Int) : State :=
  let s := s.timeMark
  s.setTime (s.time.withRaw (s.time.raw.move a) (s.time.copy1.map fun c => c.move a))

/-- The time base takes a step of `a` units of 2^-16 ns. -/
def State.timeStep (s : State) (a : Int) : State := (s.timeMove a).stepped s.tnow

/-- The average of the frequency words over the last 16 s of lock, or over the whole lock if shorter (R344). -/
def State.adjAverage (s : State) : Int :=
  let lim := s.t16 - 256000000000
  let (sum, span, _) := s.time.adjs.foldl (fun (acc : Int × Nat × Nat) e =>
    let lo := max e.1 lim
    if acc.2.2 ≤ lo then (acc.1, acc.2.1, min acc.2.2 lo)
    else (acc.1 + e.2 * ((acc.2.2 - lo : Nat) : Int), acc.2.1 + (acc.2.2 - lo), lo)) (0, 0, s.t16)
  if span = 0 then (s.time.adjs.head?.map (·.2)).getD s.adj else sum / (span : Int)

/-- The servo starts its measurement anew (R337). A lock that ends with it leaves its average (R344). -/
def State.servoRestart (s : State) : State :=
  let adjs := if s.bit R.TIME_STATUS F.TIME_STATUS.LOCKED then [(s.t16, s.adjAverage)] else s.time.adjs
  (s.setTime { s.time with errs := [], corr := none, outliers := 0, adjs := adjs }).setBit R.TIME_STATUS F.TIME_STATUS.LOCKED false

/-- A set is applied: both copies take `v`, in 2^-44 ns, VALID sets and the counter fault ends (R331, R334, R336). -/
def State.timeLoad (s : State) (v : Nat) : State :=
  let s := s.timeMark
  let c : TimeRaw := { s := v / 2 ^ 44 / 1000000000 % 2 ^ 48, n := v / 2 ^ 44 % 1000000000, fr := v % 2 ^ 44 }
  let s1 := s.setTime (s.time.withRaw c none)
  let s1 := (s1.setBit R.TIME_STATUS F.TIME_STATUS.VALID true).setBit R.TIME_STATUS F.TIME_STATUS.CNT_FAULT false
  (s1.stepped s.tnow).servoRestart

/-- The staged set, in units of 2^-16 ns. -/
def State.stagedSet (s : State) : Nat := s.staged R.TIME_SET_S R.TIME_SET_SF R.TIME_SET_NS

def State.setResult (s : State) (r : Nat) : State := s.setFld R.TIME_SET_CTL F.TIME_SET_CTL.RESULT r

/-- A set awaits its edge. -/
def State.setBusy (s : State) : Bool := decide (s.fld R.TIME_SET_CTL F.TIME_SET_CTL.RESULT = 0xF)

/-- TIME_SET_CTL.GO with AT as written (R336). -/
def State.timeSetGo (s : State) : State :=
  if 1000000000 ≤ (s.reg R.TIME_SET_NS).toNat % 2 ^ 30 then s.setResult 2
  else if s.bit R.TIME_SET_CTL F.TIME_SET_CTL.AT then (s.setResult 0xF).setBit R.TIME_SET_CTL F.TIME_SET_CTL.GO true
  else (s.timeLoad (s.stagedSet * 2 ^ 28)).setResult 0

/-- The PPS_IN edge of an AT = 1 set, `age` 1/16 ns ago: the edge reads exactly the staged value (R336). Where the present cycle began before
the time base can stand, the next takes the value. -/
def State.timeSetAt (s : State) (age : Nat) : State :=
  let v : Int := (s.stagedSet : Int) * 2 ^ 28 + ((age : Int) - (s.t16 % 16 : Nat)) * 2 ^ 40
  if s.time.setDue.isSome then s
  else if v < 0 then s.setTime { s.time with setDue := some (s.t16 - age) }
  else ((s.timeLoad v.toNat).setResult 0).setBit R.TIME_SET_CTL F.TIME_SET_CTL.GO false

/-- A time clock cycle takes the value of a set whose edge lay in the cycle before. -/
def State.timeSetTurn (s : State) : State :=
  match s.time.setDue with
  | none => s
  | some e =>
    let s := s.setTime { s.time with setDue := none }
    ((s.timeLoad (s.stagedSet * 2 ^ 28 + (s.t16 - s.t16 % 16 - e) * 2 ^ 40)).setResult 0).setBit R.TIME_SET_CTL F.TIME_SET_CTL.GO false

/-- No edge within 1.1 s of an AT = 1 set (R336). -/
def State.timeSetTimeout (s : State) : State :=
  if s.setBusy then (s.setResult 3).setBit R.TIME_SET_CTL F.TIME_SET_CTL.GO false else s

def State.srcBusy (s : State) : State := s.cause R.TIME_CAUSE F.TIME_CAUSE.SRC_BUSY

/-- TIME_ADJ_CTL.GO: the adjustment as a trim or a step (R333, R334). -/
def State.timeAdjGo (s : State) : State :=
  let a : Int := sext 32 (s.reg R.TIME_ADJ_NS).toNat * 65536 + s.fld R.TIME_ADJ_CTL F.TIME_ADJ_CTL.FRAC
  let res := fun (s : State) r => s.setFld R.TIME_ADJ_CTL F.TIME_ADJ_CTL.RESULT r
  if s.timeSrc ≠ 0 then res s.srcBusy 3
  else if (s.tnow.units : Int) + a < 0 then res s 2
  else
    let thr : Int := (s.stepThr : Int) * 65536
    let sum := s.time.sigma + a
    if a ≤ thr ∧ -thr ≤ a ∧ sum ≤ thr ∧ -thr ≤ sum then
      let s := s.timeMove a
      let s := (s.setTime { s.time with sigma := sum, moves := s.time.moves + a }).showSigma
      let s := s.addWrap32 R.TIME_TRIM_CNT 1
      res ((List.range 4).foldl State.ppsTrim s) 0
    else res (s.timeStep a) 0

/-- The frequency word takes a new value. -/
def State.setAdj (s : State) (v : Word) : State := s.timeMark.setReg R.TIME_FREQ v

/-- A write of TIME_FREQ: the word in use, or refused while the servo holds it (R332). -/
def State.timeFreqWrite (s : State) (v : Word) : State :=
  if s.timeSrc ≠ 0 then s.srcBusy else s.setAdj v

/-! ### The servo and holdover (R341 to R345, R551) -/

/-- The servo takes a measured error of `e` 1/16 ns (R342). -/
def State.servoError (s : State) (e : Int) : State :=
  let errs := e :: s.time.errs.take 7
  let locked := decide (errs.length = 8) && errs.all fun x => decide (x ≤ 128 ∧ -128 ≤ x)
  let was := s.bit R.TIME_STATUS F.TIME_STATUS.LOCKED
  let adjs := if locked == was then s.time.adjs else [(s.t16, if locked then s.adj else s.adjAverage)]
  let s := s.setTime { s.time with
    errs := errs, corr := some e, outliers := 0, adjs := adjs, wasLocked := s.time.wasLocked || locked }
  let s := s.setBit R.TIME_STATUS F.TIME_STATUS.LOCKED locked
  s.setReg R.TIME_SRC_ERR (BitVec.ofInt 32 (max (-(2 ^ 31)) (min (2 ^ 31 - 1) e)))

/-- HOLDOVER ends at the first correction after the source is back (R345). -/
def State.holdoverEnd (s : State) : State :=
  if s.time.back then
    let s := s.setTime { s.time with back := false }
    if s.holdover then
      (s.setBit R.TIME_STATUS F.TIME_STATUS.HOLDOVER false).audit 0x0B false 0 [BitVec.ofNat 8 s.timeSrc]
    else s
  else s

/-- The loop writes ADJ; the value it computes is free (R342). -/
def State.servoLoop (s : State) : State :=
  let (w, s) := s.freeWord
  let s := s.setAdj (BitVec.ofNat 32 w)
  if s.bit R.TIME_STATUS F.TIME_STATUS.LOCKED then s.setTime { s.time with adjs := (s.t16, s.adj) :: s.time.adjs } else s

/-- Under SRC 1 the servo measures the phase of a rising edge of TIME_REF_IN, `age` 1/16 ns ago, against the time base's nearest whole
100 ns: an error like every other (R341, R342; log entry 139). It ends no row of outliers of PPS_IN (R343). -/
def State.refIn (s : State) (age : Nat) : State :=
  if s.timeSrc ≠ 1 ∨ s.time.lost then s
  else
    let r := stamp16 (s.timeMoved (4 * (s.t16 - age))) 0 % 1600
    let t := s.servoError (if r ≤ 800 then r else r - 1600)
    t.setTime { t.time with outliers := s.time.outliers }

/-- The servo applies its pending correction: as the first set of a time link slave, as a step, or by ADJ, whose value the
loop computes and the manual leaves open (R342, R551). -/
def State.servoCorrect (s : State) : State :=
  match s.time.corr with
  | none => s
  | some e =>
    let s := s.setTime { s.time with corr := none }
    let s :=
      if s.timeSrc = 3 && !s.timeValid then s.timeLoad ((s.fine 0 - ((s.t16 % 16 : Nat) : Int) * 2 ^ 40 - e * 2 ^ 40).toNat)
      else if (s.stepThr : Int) * 16 < e ∨ e < -((s.stepThr : Int) * 16) then s.timeStep (-e * 4096)
      else
        s.servoLoop
    s.holdoverEnd

/-- The distance, in 1/16 ns, of a time from the nearest whole second. -/
def secondDist (t16 : Int) : Int :=
  let r := t16 % 16000000000
  if r ≤ 8000000000 then r else r - 16000000000

/-- A PPS_IN rising edge `age` 1/16 ns ago (R336, R342, R343). -/
def State.ppsIn (s : State) (age : Nat) : State :=
  if s.setBusy then s.timeSetAt age
  else if (s.timeSrc ≠ 1 ∧ s.timeSrc ≠ 2) ∨ s.time.lost then s
  else
    let e := secondDist (stamp16 (s.fine age) 0) - sext 32 (s.reg R.TIME_PPS_IN_COMP).toNat
    if s.bit R.TIME_STATUS F.TIME_STATUS.LOCKED && decide (16000 < e ∨ e < -16000) then
      let s := (s.addWrap32 R.TIME_PPS_OUTLIER 1).cause R.TIME_CAUSE F.TIME_CAUSE.PPS_OUTLIER
      if s.time.outliers < 2 then s.setTime { s.time with outliers := s.time.outliers + 1 }
      else ((s.setTime { s.time with outliers := 0, corr := none }).timeStep (-e * 4096)).holdoverEnd
    else s.servoError e

/-- The source is declared lost (R343, R344); under SRC 3 only while the part has no parent. -/
def State.sourceLoss (s : State) : State :=
  if s.timeSrc = 0 ∨ s.time.lost ∨ (s.timeSrc = 3 ∧ s.bit R.TIME_STATUS F.TIME_STATUS.TL_SLAVE) then s
  else
    let avg := s.adjAverage
    let locked := s.bit R.TIME_STATUS F.TIME_STATUS.LOCKED
    let s := s.setTime { s.time with
      lost := true, corr := none, back := false, adjs := if locked then [(s.t16, avg)] else s.time.adjs }
    let s := s.ariseF R.TIME_CAUSE F.TIME_CAUSE.REF_LOSS
    if s.time.wasLocked && !s.holdover then
      let s := s.setAdj (BitVec.ofInt 32 avg)
      let s := (s.setBit R.TIME_STATUS F.TIME_STATUS.HOLDOVER true).ariseF R.TIME_CAUSE F.TIME_CAUSE.HOLDOVER
      s.audit 0x0A false 0 [BitVec.ofNat 8 s.timeSrc]
    else s

/-- The source has stayed free of loss for REVERT seconds (R345). A lock that stands goes on from now: the time without a source is none of
its time (R344). -/
def State.sourceBack (s : State) : State :=
  if !s.time.lost ∨ (s.timeSrc = 3 ∧ !s.bit R.TIME_STATUS F.TIME_STATUS.TL_SLAVE) then s
  else
    let locked := s.bit R.TIME_STATUS F.TIME_STATUS.LOCKED
    s.setTime { s.time with lost := false, back := true, adjs := if locked then [(s.t16, s.adj)] else s.time.adjs }

/-! ### The parent of the time link (R349 to R351) -/

/-- Dataset k, as class, accuracy, serial and steps. -/
def State.tlData (s : State) (k : Nat) : List Nat :=
  let st := R.TIME_TL_STAT k
  [s.fld st F.TIME_TL_STAT.GM_CLASS, s.fld st F.TIME_TL_STAT.GM_ACC,
   (s.reg (R.TIME_TL_GM_HI k)).toNat * 2 ^ 32 + (s.reg (R.TIME_TL_GM_LO k)).toNat, s.fld st F.TIME_TL_STAT.STEPS]

/-- The part's own dataset. -/
def State.tlOwn (s : State) : List Nat :=
  [s.fld R.TIME_TL_SELF F.TIME_TL_SELF.CLASS, s.fld R.TIME_TL_SELF F.TIME_TL_SELF.ACCURACY, s.fuse.serial.toNat, 0]

/-- One dataset is better than another: the first field that differs decides, lower being better (R349). -/
def tlBetter : List Nat → List Nat → Bool
  | a :: as, b :: bs => if a = b then tlBetter as bs else decide (a < b)
  | _, _ => false

/-- Dataset k is a current candidate (R350). -/
def State.tlCand (s : State) (k : Nat) : Bool :=
  s.bit (R.TIME_TL_STAT k) F.TIME_TL_STAT.CURRENT && s.bit (R.TIME_TL_STAT k) F.TIME_TL_STAT.PEER_VALID &&
  decide ((s.tlData k).getD 2 0 ≠ s.fuse.serial.toNat ∧ (s.tlData k).getD 3 0 ≠ 14)

/-- Dataset k as a candidate: STEPS one higher. -/
def State.tlAsCand (s : State) (k : Nat) : List Nat := listSet (s.tlData k) 3 ((s.tlData k).getD 3 0 + 1)

/-- The parent that R350 names. -/
def State.tlBest (s : State) : Option Nat :=
  if s.timeSrc ≠ 3 then none
  else
    (List.range 4).foldl (fun best k =>
      if s.tlCand k && tlBetter (s.tlAsCand k) (best.elim s.tlOwn s.tlAsCand) then some k else best) none

/-- The parent now. -/
def State.tlParent (s : State) : Option Nat :=
  if s.bit R.TIME_STATUS F.TIME_STATUS.TL_SLAVE then some (s.fld R.TIME_STATUS F.TIME_STATUS.TL_PARENT) else none

/-- The part selects its parent again (R351). TL_NO_MASTER starts when the part comes to be without a parent under SRC 3. -/
def State.tlSelect (s : State) : State :=
  let old := s.tlParent
  let new := s.tlBest
  let s := s.setBit R.TIME_STATUS F.TIME_STATUS.TL_SLAVE new.isSome
  let s := s.setFld R.TIME_STATUS F.TIME_STATUS.TL_PARENT (new.getD 0)
  let s := (List.range 4).foldl (fun s k => s.setBit (R.TIME_TL_STAT k) F.TIME_TL_STAT.PARENT (decide (new = some k))) s
  let s := if old = new then s else s.cause R.TIME_CAUSE F.TIME_CAUSE.TL_CHANGE
  if s.timeSrc ≠ 3 then s
  else if new.isNone then
    (if old.isNone && s.bit R.TIME_CAUSE F.TIME_CAUSE.TL_NO_MASTER then s
      else s.ariseF R.TIME_CAUSE F.TIME_CAUSE.TL_NO_MASTER).sourceLoss
  else s

/-- TIME_SRC_CTL takes a new value, already allowed (R341). -/
def State.timeSrcWrite (s : State) (v : Word) : State :=
  let old := s.fld R.TIME_SRC_CTL F.TIME_SRC_CTL.SRC
  let new := fldOf v F.TIME_SRC_CTL.SRC
  let s := s.setFld R.TIME_SRC_CTL F.TIME_SRC_CTL.REVERT (fldOf v F.TIME_SRC_CTL.REVERT)
  let s := s.setFld R.TIME_SRC_CTL F.TIME_SRC_CTL.BW (fldOf v F.TIME_SRC_CTL.BW)
  let s := if 4 ≤ new then s.srcBusy else s
  if old = new then s
  else
    let s := s.setFld R.TIME_SRC_CTL F.TIME_SRC_CTL.SRC new
    let s := s.setFld R.TIME_STATUS F.TIME_STATUS.SRC (if 4 ≤ new then 0 else new)
    let s := s.servoRestart.timeMark.setBit R.TIME_STATUS F.TIME_STATUS.HOLDOVER false
    let s := s.setTime { s.time with adjs := [], wasLocked := false, lost := false, back := false }
    let s := s.audit 0x09 false 0 [BitVec.ofNat 8 old, BitVec.ofNat 8 new]
    s.tlSelect

/-- A link's dataset expires (R350). -/
def State.tlExpire (s : State) (k : Nat) : State :=
  if s.bit (R.TIME_TL_STAT k) F.TIME_TL_STAT.CURRENT then
    (s.setBit (R.TIME_TL_STAT k) F.TIME_TL_STAT.CURRENT false).tlSelect
  else s

/-! ### Captures (R356, R358) -/

def State.evtIn (s : State) (k : Nat) : EvtSt := SMap.get (fun _ => {}) s.time.evt k
def State.setEvt (s : State) (k : Nat) (e : EvtSt) : State :=
  s.setTime { s.time with evt := SMap.put (fun _ => {}) s.time.evt k e }

/-- An edge on capture input k, `age` 1/16 ns ago: the time, STEP_SEQ and HOLDOVER are those of the edge. -/
def State.evtEdge (s : State) (k : Nat) (fall : Bool) (age : Nat) : State :=
  let sel := s.fld (R.TIME_EVT_CTL k) F.TIME_EVT_CTL.EDGE
  let e := s.evtIn k
  let at_ := s.t16 - age
  if !nbit sel (if fall then 1 else 0) then s
  else if e.last.any fun l => decide (at_ < l + 128) then s.addWrap32 (R.TIME_EVT_LOST k) 1
  else if 16 ≤ e.fifo.length then
    ((s.setEvt k { e with last := some at_ }).addWrap32 (R.TIME_EVT_LOST k) 1).cause R.TIME_CAUSE F.TIME_CAUSE.EVT_OVF
  else
    let g := s.segAt (4 * at_)
    s.setEvt k { fifo := e.fifo ++ [{ t := s.tfine age, fall := fall, seq := g.steps % 256, hold := g.hold }], last := some at_ }

/-- Remove the head entry; no effect on an empty FIFO. -/
def State.evtPop (s : State) (k : Nat) : State := s.setEvt k { s.evtIn k with fifo := (s.evtIn k).fifo.tail }

/-! ### Shadows (R335) -/

/-- A read of TIME_NS by requester `rq`: S and F enter its shadows; the word read. -/
def State.timeNsRead (s : State) (rq : Nat) : Word × State :=
  let v := (s.reg R.TIME_STATUS).toNat / 2 ^ 30 * 2 ^ 30 + s.time.n
  (BitVec.ofNat 32 v,
   s.setTime { s.time with shadow := SMap.put (fun _ => (0, 0)) s.time.shadow rq (s.time.s, s.time.fr / 2 ^ 28) })

end Sys2Proof.Machine
end

