-- ==== Sys2Proof/Machine/Ts.lean ====
section
/-! DEFINITION. Timestamps and due times (chapters "Per-Frame Timestamps and PTP" and "Timetable: Equalised-Latency
Release"): the internal delays of R366, the stamps of R367, the lead of R388, the due time of R385, the precision of
Table 14.1 and the floor advisory of R397. -/

namespace Sys2Proof.Machine

/-! ### Internal delays (R366, Table 13.1), in 1/3400 ns -/


/-- 2^k with the lane rate 212.5 / 2^(k-1) Gb/s. -/
def State.rateDiv (s : State) (n : Nat) : Nat :=
  match s.rateCode n with
  | 0 => 2
  | 1 => 4
  | 2 => 8
  | 3 => 16
  | _ => 8

def State.rxDly (s : State) (n : Nat) : Nat :=
  if s.mode n = 4 then 44200
  else
    match s.fecBits n with
    | some c => 130560 + c * s.rateDiv n * 8 / max 1 (s.width n)
    | none => 40800 + 66 * s.rateDiv n * 8

def State.txDly (s : State) (n : Nat) : Nat :=
  if s.mode n = 4 then 30600
  else
    match s.fecBits n with
    | some c => 70720 + c * s.rateDiv n / max 1 (s.width n)
    | none => 34000 + 66 * s.rateDiv n * 8

/-- A delay in 1/3400 ns as PORT_TS_RX_DLY and PORT_TS_TX_DLY show it: the nearest 1/16 ns. -/
def dlyShown (d : Nat) : Nat := (d * 16 + 1700) / 3400

/-! ### Stamps (R364, R367) -/

/-- CAL_RX + RX_ASYM, and CAL_TX + TX_ASYM, in 1/16 ns. -/
def State.rxComp (s : State) (n : Nat) : Int :=
  sext 16 (s.fld (R.PORT_TS_CAL_RX n) F.PORT_TS_CAL_RX.CAL) + sext 32 (s.reg (R.PORT_TS_RX_ASYM n)).toNat
def State.txComp (s : State) (n : Nat) : Int :=
  sext 16 (s.fld (R.PORT_TS_CAL_TX n) F.PORT_TS_CAL_TX.CAL) + sext 32 (s.reg (R.PORT_TS_TX_ASYM n)).toNat

/-- The receive compensation of port n before its writes, newest first. -/
def State.rxOlds (s : State) (n : Nat) : List (Nat × Int) := SMap.get (fun _ => []) s.ts.rxOld n

/-- The receive compensation of port n was `old` until now. -/
def State.rxCompMark (s : State) (n : Nat) (old : Int) : State :=
  if s.rxComp n = old then s
  else { s with ts := { s.ts with rxOld := SMap.put (fun _ => []) s.ts.rxOld n ((s.t16, old) :: s.rxOlds n) } }

/-- Of a value now and its values before each write, newest first, the one at the instant `x`, in 1/64 ns. -/
def oldAt (olds : List (Nat × Int)) (now : Int) (x : Nat) : Int :=
  ((olds.filter fun e => decide (x < 4 * e.1)).getLast?.map (·.2)).getD now

/-- The receive compensation of port n at the instant `x`, in 1/64 ns (R368). -/
def State.rxCompAt (s : State) (n x : Nat) : Int := oldAt (s.rxOlds n) (s.rxComp n) x

/-- PORT_TS_P2P_DLY of port n, its values before its writes, and the mark of a write (R380). -/
def State.p2pDly (s : State) (n : Nat) : Int := ((s.reg (R.PORT_TS_P2P_DLY n)).toNat : Int)
def State.p2pOlds (s : State) (n : Nat) : List (Nat × Int) := SMap.get (fun _ => []) s.ts.p2pOld n
def State.p2pMark (s : State) (n : Nat) (old : Int) : State :=
  if s.p2pDly n = old then s
  else { s with ts := { s.ts with p2pOld := SMap.put (fun _ => []) s.ts.p2pOld n ((s.t16, old) :: s.p2pOlds n) } }

/-- PORT_TS_P2P_DLY of port n at the instant `x`, in 1/64 ns (R380). -/
def State.p2pAt (s : State) (n x : Nat) : Nat := (oldAt (s.p2pOlds n) (s.p2pDly n) x).toNat

/-- A unit interval of the lanes of port n, in 1/3400 ns (Table 3.1). -/
def State.uiLen (s : State) (n : Nat) : Nat :=
  match s.rateCode n with
  | 0 => 32
  | 1 | 4 => 64
  | _ => 128

/-- The instant, in 1/64 ns, of the word edge of a received frame. -/
def State.edge64 (s : State) (r : RefAt) : Nat := 4 * s.t16 - r.age

/-- The instant, in 1/64 ns, of the reference point of a received frame: its reference bit at the lands (R361, R366). -/
def State.refPoint (s : State) (n : Nat) (r : RefAt) : Nat :=
  (s.edge64 r * 3400 + r.ui * s.uiLen n * 64 - s.rxDly n * 64) / 3400

/-- The ingress stamp of a frame at port n: the time base at the word edge, the position of the reference bit, and the delays and
compensation at its reference point (R364, R367, R368). -/
def State.ingressStamp (s : State) (n : Nat) (r : RefAt) : TimeVal :=
  TimeVal.of16 (stamp16 (s.timeAt (s.edge64 r)) ((s.rxDly n : Int) - r.ui * s.uiLen n) - s.rxCompAt n (s.refPoint n r))

/-- The time base, in 2^-44 ns, at the instant `at_` (1/16 ns), now or later. -/
def State.fineAt (s : State) (at_ : Nat) : Int := s.timeAt (4 * at_)

/-- Where, within the 1/16 ns of its start slot, the reference bit of a frame leaves the stamp point, in 1/64 ns, and its position in the
word, in unit intervals: the phase of the transmit clock is free (R364, log entry 145). -/
def txEdge (n start : Nat) : Nat × Nat := ((Config.txEdge n start).1 % 4, (Config.txEdge n start).2 % 64)

/-- The egress stamp of a frame whose start slot is the instant `start`: the time base at the word edge, the position of the reference bit,
and the delays and compensation (R364, R367). -/
def State.egressStamp (s : State) (n start : Nat) : TimeVal :=
  let ui := (txEdge n start).2 * s.uiLen n
  let edge := 4 * start + (txEdge n start).1 - ui * 64 / 3400
  TimeVal.of16 (stamp16 (s.timeAt edge) (-(s.txDly n : Int) - ui) + s.txComp n)

/-! ### Timetable settings (R384, R386, R388) -/

/-- Class c of Pitch n is marked. -/
def State.marked (s : State) (n c : Nat) : Bool :=
  s.bit (R.TT_CTL n) F.TT_CTL.EN && nbit (s.fld (R.TT_CTL n) F.TT_CTL.CLASSES) c

/-- The floor in force, in 1/16 ns. -/
def State.ttFloor (s : State) (n : Nat) : Nat := max 3200 (min 1048560 (s.fld (R.TT_FLOOR n) F.TT_FLOOR.FLOOR))

/-- The pulses of 64 that are not withheld at KMAX. -/
def State.ttU (s : State) (n : Nat) : Nat := 64 - s.fld (R.TT_ADV_CTL n) F.TT_ADV_CTL.KMAX

/-- LEAD of port e times 64 − KMAX, in 1/54400 ns (1/16 of 1/3400 ns). -/
def State.ttLeadU (s : State) (e : Nat) : Int :=
  let u : Int := s.ttU (s.ownerOfPort e)
  2560 * 54400 + u * (10 * 54400 + (s.txDly e : Int) * 16 + s.txComp e * 3400)

/-- LEAD of port e as PORT_TT_LEAD shows it: the nearest 1/16 ns. -/
def State.ttLeadShown (s : State) (e : Nat) : Int :=
  let u : Int := s.ttU (s.ownerOfPort e)
  (s.ttLeadU e * 2 + u * 3400) / (u * 6800)

/-- The due time D of a Timetable packet with floor `fl`, in 2^-16 ns (R385). -/
def State.ttDue (s : State) (k : Pkt) (fl : Nat) : Int :=
  ((k.stamp.units + fl * 4096 : Nat) : Int) + (s.time.moves - k.moves)

/-- A time base of `v`, in 2^-44 ns, is at least D − LEAD of port e (R389), `d` being D in 2^-16 ns. -/
def State.ttReachedAt (s : State) (e : Nat) (d v : Int) : Bool :=
  let u : Int := s.ttU (s.ownerOfPort e)
  decide (u * d * 54400 * 2 ^ 28 ≤ u * v * 54400 + s.ttLeadU e * 2 ^ 44)

/-- The time base is at least D − LEAD of port e (R389), `d` being D in 2^-16 ns. -/
def State.ttReached (s : State) (e : Nat) (d : Int) : Bool := s.ttReachedAt e d (s.fine 0)

/-- The time base had a counter fault when it came to D − LEAD of port e for a packet with due time `d` (R394): the first of its runs that
reached it decides. -/
def State.ttFaultAt (s : State) (e : Nat) (d : Int) : Bool :=
  ((s.time.past.filter fun g => s.ttReachedAt e (d - (s.time.moves - g.moves)) (g.at (4 * g.until16))).getLast?.map
    (·.fault)).getD s.segNow.fault

/-- The guard of R392: an ordinary frame of `len` bytes that port e starts now is off the wire before `d`. -/
def State.ttGuard (s : State) (e len : Nat) (d : Int) : Bool :=
  let u : Int := s.ttU (s.ownerOfPort e)
  let r : Int := s.macRate e
  decide (r * (u * s.fine 0 * 54400 + s.ttLeadU e * 2 ^ 44) + u * (((len + 20) * 8 : Nat) : Int) * 54400 * 2 ^ 44
    ≤ r * u * d * 54400 * 2 ^ 28)

/-- The MAC target of a frame with due time `d` at the stamp point of port e, in 1/3400 of 2^-44 ns (R389). -/
def State.ttTarget (s : State) (e : Nat) (d : Int) : Int :=
  d * 2 ^ 28 * 3400 - (s.txDly e : Int) * 2 ^ 44 - s.txComp e * 2 ^ 40 * 3400

/-- The precision of Table 14.1 in 1/10 ns. -/
def State.ttPrecision (s : State) (e : Nat) : Nat :=
  let r := s.macRate e
  if s.mode e = 4 then 6 else if 200 ≤ r then 7 else if r = 100 then 9 else if r = 50 then 12 else 19

/-- A frame with egress stamp `t` and due time `d` exceeds the precision of its port (R393). -/
def State.ttIsLate (s : State) (e : Nat) (t : TimeVal) (d : Int) : Bool :=
  decide ((s.ttPrecision e : Int) * 65536 < ((t.units : Int) - d) * 10)

/-- The egress stamp minus the due time, in 1/16 ns, a tie going up (R393). -/
def ttLateness (t : TimeVal) (d : Int) : Int := ((t.units : Int) - d + 2048) / 4096

/-! ### The floor advisory (R397) -/

/-- The ports of Pitch n that are enabled. -/
def State.enabledPorts (s : State) (n : Nat) : List Nat :=
  (s.pipesOf n).flatMap fun p => ((List.range 64).map (64 * p + ·)).filter s.portEnabled

/-- The ingress term of R397 for port i, in 1/1600 of 1/54400 ns. -/
def State.ttInTerm (s : State) (i : Nat) : Int :=
  ((s.rxDly i : Int) * 16 + s.rxComp i * 3400) * 1600 + ((s.maxLen i * 8 * (1600 / max 1 (s.macRate i)) : Nat) : Int) * 54400

/-- The largest of a list of integers. -/
def maxInt : List Int → Int
  | [] => 0
  | x :: xs => xs.foldl max x

/-- The floor advisory of Pitch n in 1/16 ns; none without an enabled port. -/
def State.ttAdvisory (s : State) (n : Nat) : Option Nat :=
  match s.enabledPorts n with
  | [] => none
  | ps =>
    let u : Int := s.ttU n
    let m := min 1024 (s.fld (R.TT_ADV_CTL n) F.TT_ADV_CTL.MCAST)
    let x := u * maxInt (ps.map s.ttInTerm) + u * 10 * 54400 * 1600 + ((108 + (m + 15) / 16 : Nat) : Int) * 40 * 54400 * 1600 +
      maxInt (ps.map s.ttLeadU) * 1600
    let d := u * 3400 * 1600
    some (max 3200 ((x + d - 1) / d).toNat)

/-- TT_ADV[n].BELOW (R398). -/
def State.ttBelow (s : State) (n : Nat) : Bool :=
  s.bit (R.TT_CTL n) F.TT_CTL.EN && (s.ttAdvisory n).any fun a => decide (s.ttFloor n < a)

/-- BELOW_ADV starts in every Pitch whose floor has come to lie below its advisory since `before` (R398). -/
def State.belowCheck (s before : State) : State :=
  ((List.range 16).map (· + 1)).foldl (fun s n =>
    if s.ttBelow n && !before.ttBelow n then s.ariseF (R.TT_CAUSE n) F.TT_CAUSE.BELOW_ADV else s) s

/-! ### Late records (R395, R396) -/

/-- The late FIFO of Pitch n. -/
def State.lateQ (s : State) (n : Nat) : List LateRec := SMap.get (fun _ => []) s.ts.late n
def State.setLateQ (s : State) (n : Nat) (q : List LateRec) : State :=
  { s with ts := { s.ts with late := SMap.put (fun _ => []) s.ts.late n q } }

/-- A Timetable frame leaves port e, `amt` 1/16 ns late for `reason`; reason 0 is on time (R395). -/
def State.ttSent (s : State) (e iport reason amt : Nat) (d : Int) : State :=
  let n := s.ownerOfPort e
  let s := s.addCnt (C.TT_DUE e) 1
  if reason = 0 then s
  else
    let s := (s.addCnt (C.TT_LATE e) 1).addCnt (C.TT_LATE_BY n (reason - 1)) 1
    let amt := min amt (2 ^ 32 - 1)
    let s := if (s.reg (R.PORT_TT_LATE_MAX e)).toNat < amt then s.setReg (R.PORT_TT_LATE_MAX e) (BitVec.ofNat 32 amt) else s
    let s := s.cause (R.TT_CAUSE n) F.TT_CAUSE.LATE
    if 64 ≤ (s.lateQ n).length then (s.addCnt (C.TT_LATE_LOST n) 1).cause (R.TT_CAUSE n) F.TT_CAUSE.LATE_LOST
    else s.setLateQ n (s.lateQ n ++ [⟨e, iport, reason, TimeVal.ofUnits d.toNat, amt⟩])

/-- TT_LATE_CTL.POP: the head record leaves; no effect on an empty FIFO. -/
def State.latePop (s : State) (n : Nat) : State := s.setLateQ n (s.lateQ n).tail

/-! ### Two-step capture (R378) -/

/-- The transmit capture FIFO of port n. -/
def State.txq (s : State) (n : Nat) : List TxqRec := SMap.get (fun _ => []) s.ts.txq n
def State.setTxq (s : State) (n : Nat) (q : List TxqRec) : State :=
  { s with ts := { s.ts with txq := SMap.put (fun _ => []) s.ts.txq n q } }

def State.txqPush (s : State) (n : Nat) (r : TxqRec) : State :=
  if 16 ≤ (s.txq n).length then (s.addCnt (C.TS_TXQ_LOST n) 1).cause (R.PORT_TS_CAUSE n) F.PORT_TS_CAUSE.TXQ_LOST
  else (s.setTxq n (s.txq n ++ [r])).addCnt (C.TS_TWO_STEP n) 1

def State.txqPop (s : State) (n : Nat) : State := s.setTxq n (s.txq n).tail

/-! ### Loopback calibration (R381, Table 13.3) -/

/-- The running calibration of port n. -/
def State.calRun (s : State) (n : Nat) : Option CalRun := SMap.get (fun _ => none) s.ts.cal n
def State.setCal (s : State) (n : Nat) (c : Option CalRun) : State :=
  { s with ts := { s.ts with cal := SMap.put (fun _ => none) s.ts.cal n c } }

/-- The frames that PORT_TS_CAL_CTL.COUNT asks for. -/
def State.calCount (s : State) (n : Nat) : Nat := 2 ^ (10 + s.fld (R.PORT_TS_CAL_CTL n) F.PORT_TS_CAL_CTL.COUNT)

def State.calResult (s : State) (n r : Nat) : State := s.setFld (R.PORT_TS_CAL_CTL n) F.PORT_TS_CAL_CTL.RESULT r

/-- PORT_TS_CAL_CTL.GO with COUNT as written. -/
def State.calGo (s : State) (n : Nat) : State :=
  if s.portEnabled n && s.linkUp n then
    ((s.calResult n 0xF).setBit (R.PORT_TS_CAL_CTL n) F.PORT_TS_CAL_CTL.GO true).setCal n
      (some { left := s.calCount n, loop := (s.reg (R.PORT_TS_CAL_LOOP n)).toNat })
  else s.calResult n 1

/-- The run ends with result `r`. -/
def State.calEnd (s : State) (n r : Nat) : State :=
  let s := ((s.setCal n none).calResult n r).setBit (R.PORT_TS_CAL_CTL n) F.PORT_TS_CAL_CTL.GO false
  if r = 2 ∨ r = 3 then s.cause (R.PORT_TS_CAUSE n) F.PORT_TS_CAUSE.CAL_FAIL else s

/-- A running calibration is aborted (R381). -/
def State.calAbort (s : State) (n : Nat) : State := if (s.calRun n).isSome then s.calEnd n 3 else s

/-- The run has sent its frames and waited for them: MEAN and SPREAD of the frames that returned, and the result. The mean
is rounded to the nearest 1/16 ns, a tie going up. -/
def State.calDone (s : State) (n : Nat) : State :=
  match s.calRun n with
  | none => s
  | some c =>
    if c.left ≠ 0 then s
    else
      let mean : Int := if c.got = 0 then 0 else (c.sum * 2 + c.got) / (2 * c.got)
      let s := s.setReg (R.PORT_TS_CAL_MEAN n) (BitVec.ofInt 32 mean)
      let s := s.setReg (R.PORT_TS_CAL_SPREAD n) (BitVec.ofInt 32 (c.hi - c.lo))
      s.calEnd n (if c.seq ≤ 2 * c.got then 0 else 2)

/-- A calibration frame with sequence number `q` returned, its reference bit having reached the stamp point at `age`: matched if it was
sent in this run within the last 10 µs. -/
def State.calReturn (s : State) (n q : Nat) (age : RefAt) : State :=
  match s.calRun n with
  | none => s.addWrap32 R.TIME_TL_BAD 1
  | some c =>
    match c.sent.find? fun e => e.1 = q with
    | none => s
    | some (_, t, at_) =>
      let x := s.ingressStamp n age
      let d : Int := (x.units : Int) / 4096 - (t.units : Int) / 4096 - c.loop
      let c := { c with sent := c.sent.filter fun e => e.1 ≠ q }
      if s.edge64 age ≤ 4 * (at_ + 160000) then
        s.setCal n (some { c with
          got := c.got + 1, sum := c.sum + d, lo := if c.got = 0 then d else min c.lo d, hi := if c.got = 0 then d else max c.hi d })
      else s.setCal n (some c)

end Sys2Proof.Machine
end

