-- ==== Sys2Proof/Machine/TimeLink.lean ====
section
/-! DEFINITION. Time link frames (R346 to R351): the frame of Table 12.2, its reception, the measurement of R348 and the
dataset of the link. The election stands in Time.lean, the sending in Tx.lean. -/

namespace Sys2Proof.Machine

/-- The port that time link k names, where it takes part (R346). -/
def State.tlPort (s : State) (k : Nat) : Option Nat :=
  let r := R.TIME_TL_PORT k
  let n := s.fld r F.TIME_TL_PORT.PORT
  if s.bit r F.TIME_TL_PORT.EN && s.portEnabled n && s.linkUp n then some n else none

/-- The time link of port n. DESIGN CHOICE: of two that name it, the first (log entry 167). -/
def State.tlOfPort (s : State) (n : Nat) : Option Nat := (List.range 4).find? fun k => decide (s.tlPort k = some n)

def State.tlSt (s : State) (k : Nat) : TlSt := SMap.get (fun _ => {}) s.time.tl k
def State.setTl (s : State) (k : Nat) (t : TlSt) : State :=
  s.setTime { s.time with tl := SMap.put (fun _ => {}) s.time.tl k t }

/-- The dataset that the part advertises: class, accuracy, serial and steps (R349). -/
def State.tlAdvert (s : State) : List Nat :=
  match s.tlParent with
  | some k => s.tlAsCand k
  | none => s.tlOwn

/-- A time of Table 12.2: S, N and F in 12 bytes. -/
def tlTime (t : TimeVal) : Bytes := natBE 12 t.word

/-- The frame that link k sends from port n with departure `t1`, without its FCS (Table 12.2). -/
def State.tlFrame (s : State) (k n : Nat) (t1 : TimeVal) : Bytes :=
  let a := s.tlAdvert
  let e := (s.tlSt k).echo
  natBE 6 0x0180C200000E ++ s.portSa n ++ natBE 2 (s.fld R.TIME_TL_CTL F.TIME_TL_CTL.ETYPE) ++
    [1, BitVec.ofNat 8 ((if s.timeValid then 128 else 0) + (if s.holdover then 64 else 0)), BitVec.ofNat 8 (a.getD 0 0),
     BitVec.ofNat 8 (a.getD 1 0)] ++ natBE 8 (a.getD 2 0) ++ [BitVec.ofNat 8 (a.getD 3 0), 0] ++ tlTime t1 ++
    (match e with
      | some (x, y) => tlTime x ++ tlTime y
      | none => List.replicate 24 0)

/-- The time in 12 bytes of a frame. -/
def tlTimeAt (bs : Bytes) (off : Nat) : TimeVal :=
  { s := beNat (slice bs off 6), n := beNat (slice bs (off + 6) 4), f := beNat (slice bs (off + 10) 2) }

/-- Half of a difference in 2^-16 ns, in 1/16 ns: the nearest, a tie going up (R348). -/
def half16 (x : Int) : Int := (x + 4096) / 8192

/-- A 32-bit signed value, saturating. -/
def sat32 (x : Int) : Word := BitVec.ofInt 32 (max (-(2 ^ 31)) (min (2 ^ 31 - 1) x))

/-- A time link frame with a VERSION or a STEPS that is discarded (R347). -/
def tlBad (bs : Bytes) : Bool := decide (byteAt bs 14 ≠ 1 ∨ 15 ≤ (byteAt bs 26).toNat)

/-- A time link frame whose checks have passed reaches link k: its bytes from destination through FCS; its reference bit reached the stamp
point `age` 1/16 ns ago (R347, R348, R350, R351). -/
def State.tlReceive (s : State) (k : Nat) (bs : Bytes) (age : RefAt) : State :=
  match s.tlPort k with
  | none => s
  | some n =>
    if tlBad bs then s.addWrap32 R.TIME_TL_BAD 1
    else
      let t4 := s.ingressStamp n age
      let t1 := tlTimeAt bs 28
      let e1 := tlTimeAt bs 40
      let e2 := tlTimeAt bs 52
      let st := R.TIME_TL_STAT k
      let fl := (byteAt bs 15).toNat
      let w := 2 ^ 31 + (s.fld st F.TIME_TL_STAT.PARENT) * 2 ^ 30 + fl / 64 % 4 / 2 * 2 ^ 29 + fl / 64 % 2 * 2 ^ 28 +
        (byteAt bs 26).toNat * 2 ^ 24 + (byteAt bs 16).toNat * 2 ^ 16 + (byteAt bs 17).toNat * 2 ^ 8
      let ser := beNat (slice bs 18 8)
      let changed := (s.reg st).toNat ≠ w ∨ (s.tlData k).getD 2 0 ≠ ser
      let s := s.setReg st (BitVec.ofNat 32 w)
      let s := s.setReg (R.TIME_TL_GM_LO k) (BitVec.ofNat 32 ser)
      let s := s.setReg (R.TIME_TL_GM_HI k) (BitVec.ofNat 32 (ser / 2 ^ 32))
      let s := s.setTl k { s.tlSt k with echo := some (t1, t4) }
      let s := if changed then s.tlSelect else s
      if (s.tlSt k).sent.any fun t => decide (t = e1) then
        let u := fun (t : TimeVal) => (t.units : Int)
        let dly := half16 ((u t4 - u e1) - (u t1 - u e2))
        let ofs := half16 ((u e2 - u e1) + (u t1 - u t4))
        let s := s.setReg (R.TIME_TL_OFS k) (sat32 ofs)
        let s := s.setReg (R.TIME_TL_DELAY k) (sat32 dly)
        if s.timeSrc = 3 ∧ s.tlParent = some k ∧ !s.time.lost then s.servoError (-ofs) else s
      else s

/-- The frame of link k leaves with departure `t1`: it is one of the last four sent (R348). -/
def State.tlSentAt (s : State) (k : Nat) (t1 : TimeVal) : State :=
  s.setTl k { s.tlSt k with sent := t1 :: (s.tlSt k).sent.take 3 }

end Sys2Proof.Machine
end

