-- ==== Sys2Proof/Machine/Parser.lean ====
section
/-! DEFINITION. The parser (chapter "Parsing and Classification"): the walk of a parse graph, the checks of R144 and
R145, the symmetric flow hash, the exception policer of a Pitch. -/

namespace Sys2Proof.Machine

/-! ### Pipelines -/

/-- What pipeline p holds beside its registers. -/
def State.pipe (s : State) (p : Nat) : PipeSt := SMap.get (fun _ => {}) s.pipes p

def State.setPipe (s : State) (p : Nat) (q : PipeSt) : State :=
  { s with pipes := SMap.put (fun _ => {}) s.pipes p q }

/-- The packets of pipeline p that wait at place `k`. -/
def State.waiting (s : State) (p k : Nat) : List Pkt := SMap.get (fun _ => []) (s.pipe p).at_ k

/-- The half of pipeline p that holds stage st runs, and its last pulse was not withheld: it may use its arrays (R495). -/
def State.stageOn (s : State) (p st : Nat) : Bool :=
  s.pipeRuns p && !(if st < 16 then (s.pipe p).igSkip else (s.pipe p).egSkip)

/-- Pipeline p runs, and the last pulse was not withheld from the traffic manager (R495). -/
def State.tmOn (s : State) (p : Nat) : Bool := s.pipeRuns p && !s.tm.skip

def State.setWaiting (s : State) (p k : Nat) (l : List Pkt) : State :=
  s.setPipe p { s.pipe p with at_ := SMap.put (fun _ => []) (s.pipe p).at_ k l }

/-! ### Reads (R138, R142) -/

/-- The value of a field of the window at position `pos`. -/
def winField (win : Bytes) (pos : Nat) (f : WinField) : Nat :=
  let n := (f.bit + f.width + 7) / 8
  beNat (slice win (pos + f.off) n) / 2 ^ (8 * n - f.bit - f.width) % 2 ^ f.width

/-- The bytes a field reads, as first byte and count. -/
def fieldSpan (pos : Nat) (f : WinField) : Nat × Nat := (pos + f.off, (f.bit + f.width + 7) / 8)

/-- The spans of bytes that one visit reads: its CHECK, SELECT, EXTRACT and the field of a FIELD advance. -/
def visitSpans (st : ParseState) (win : Bytes) (pos : Nat) : List (Nat × Nat) :=
  st.select.map (fieldSpan pos) ++ st.extract.map (fun r => (pos + r.src, r.len)) ++
  (if st.check = 1 then [(pos, 20)]
   else if st.check = 2 then [(pos, 1), (pos + 2, 2), (pos + 6, 2), (pos, (byteAt win pos).toNat % 16 * 4)]
   else if st.check = 3 then [(pos, 8)] else []) ++
  (match st.adv with
   | .fixed _ => []
   | .field f _ _ _ _ => [fieldSpan pos f])

/-- The reason of the lowest failing byte of the spans, 0 when every read succeeds: DEPTH at byte 256 or beyond, else
TRUNCATED at or beyond `lim`, the frame's end less its FCS. -/
def readFail (lim : Nat) (spans : List (Nat × Nat)) : Nat :=
  let edge := min 256 lim
  let bad := (spans.filter fun sp => decide (0 < sp.2 ∧ edge < sp.1 + sp.2)).map fun sp => max sp.1 edge
  match bad with
  | [] => 0
  | b :: bs => if 256 ≤ bs.foldl min b then 2 else 1

/-! ### Checks (R144 to R146) -/

/-- What a CHECK finds. -/
inductive CheckRes where
  | pass
  | frag
  | fail (reason : Nat)
  deriving DecidableEq, Repr

/-- Run a CHECK at `pos` of a frame that ends, less its FCS, at `lim`. -/
def runCheck (c : Nat) (win : Bytes) (pos lim : Nat) : CheckRes :=
  let b := fun i => (byteAt win (pos + i)).toNat
  if c = 3 then (if b 2 * 32 + b 3 / 8 ≠ 0 ∨ b 3 % 2 = 1 then .frag else .pass)
  else if c = 1 ∨ c = 2 then
    let ihl := b 0 % 16
    let total := b 2 * 256 + b 3
    if b 0 / 16 ≠ 4 then .fail 6
    else if ihl < 5 ∨ total < ihl * 4 ∨ lim - pos < total then .fail 5
    else if c = 2 ∧ fold16 (sum16 (slice win pos (ihl * 4))) ≠ 0xFFFF then .fail 7
    else if b 6 / 32 % 2 = 1 ∨ b 6 % 32 * 256 + b 7 ≠ 0 then .frag
    else .pass
  else .pass

/-- The advance from `pos`: the new position, or the reason it fails, LENGTH, DEPTH, TRUNCATED in that order (R142). An advance may take
the position exactly to the end of the frame less its FCS, where R141 does not say whether that is TRUNCATED (log entry 129). -/
def runAdv (a : ParseAdv) (win : Bytes) (pos lim : Nat) : Except Nat Nat :=
  let go := fun n => if 256 < pos + n then .error 2 else if lim < pos + n then .error 1 else .ok (pos + n)
  match a with
  | .fixed n => go n
  | .field f scale add mn mx =>
    let n := winField win pos f * scale + add
    if n < mn ∨ mx < n then .error 5 else go n

/-! ### The walk (R138 to R146) -/

/-- The walk as it stands: the position, the header vector, IMAGE_FLAGS, the last state, and the HASH marks visited, in
order, as kind and position. -/
structure Walk where
  pos : Nat := 0
  hv : Bytes := List.replicate 128 0
  flags : Nat := 0
  last : Nat := 0
  marks : List (Nat × Nat) := []
  deriving DecidableEq, Repr

/-- How a walk ended: its reason (0 at ACCEPT) and whether the packet is a fragment. -/
structure WalkEnd where
  w : Walk
  reason : Nat
  frag : Bool := false
  deriving DecidableEq, Repr

/-- The select key at `pos`, first field most significant. -/
def selectKey (st : ParseState) (win : Bytes) (pos : Nat) : Nat :=
  st.select.foldl (fun k f => k * 2 ^ f.width + winField win pos f) 0

/-- Walk from state `n` with `fuel` visits left (R140: 16 visits). -/
def walkFrom (g : List ParseState) (win : Bytes) (lim : Nat) : Nat → Nat → Walk → WalkEnd
  | 0, _, w => ⟨w, 3, false⟩
  | fuel + 1, n, w =>
    let st := g.getD n {}
    let w := { w with last := n }
    match readFail lim (visitSpans st win w.pos) with
    | r + 1 => ⟨w, r + 1, false⟩
    | 0 =>
      let hv := st.extract.foldl (fun hv r => splice hv r.dst (slice win (w.pos + r.src) r.len)) w.hv
      let w := { w with hv := hv, flags := Nat.lor w.flags st.flags, marks := w.marks ++ [(st.hash, w.pos)] }
      match runCheck st.check win w.pos lim with
      | .fail r => ⟨w, r, false⟩
      | .frag =>
        match runAdv st.adv win w.pos lim with
        | .ok p => ⟨{ w with pos := p }, 0, true⟩
        | .error _ => ⟨w, 0, true⟩
      | .pass =>
        let key := selectKey st win w.pos
        match st.trans.find? fun t => decide (Nat.land key t.mask = Nat.land t.value t.mask) with
        | none => ⟨w, 4, false⟩
        | some t =>
          match t.out with
          | .malformed r => ⟨w, r, false⟩
          | out =>
            match runAdv st.adv win w.pos lim with
            | .error r => ⟨w, r, false⟩
            | .ok p =>
              let w := { w with pos := p }
              match out with
              | .state m => walkFrom g win lim fuel m w
              | _ => ⟨w, 0, false⟩

/-! ### The flow hash (R154 to R156) -/

/-- Join two endpoints, the lower first. -/
def sortPair (a b : Bytes) : Bytes := if beNat a ≤ beNat b then a ++ b else b ++ a

/-- The marks after the last HASH = 1 state, and its position. -/
def lastIp : List (Nat × Nat) → Option (Nat × List (Nat × Nat))
  | [] => none
  | m :: ms =>
    match lastIp ms with
    | some r => some r
    | none => if m.1 = 1 then some (m.2, ms) else none

/-- The flow hash key of a walk that ended at ACCEPT, none where there is none (Table 5.4). Bytes at or beyond the end of
the frame read as zero, and so do those beyond the parse depth (R136; log entry 131). -/
def flowKey (marks : List (Nat × Nat)) (win : Bytes) (frag : Bool) : Option Bytes :=
  let win := win.take 256
  let eth : Option Bytes :=
    match marks.reverse.find? fun m => m.1 = 3 with
    | some m => some ([0, 0] ++ sortPair (slice win (m.2 + 6) 6) (slice win m.2 6))
    | none => none
  match lastIp marks with
  | none => eth
  | some (pos, rest) =>
    let ver := (byteAt win pos).toNat / 16
    let l4 := rest.find? fun m => m.1 = 2
    let port := fun o =>
      match l4 with
      | some m => if frag then [0, 0] else slice win (m.2 + o) 2
      | none => ([0, 0] : Bytes)
    if ver = 4 then
      some ([4, byteAt win (pos + 9)] ++
        sortPair (slice win (pos + 12) 4 ++ port 0) (slice win (pos + 16) 4 ++ port 2))
    else if ver = 6 then
      let proto := (rest.filter fun m => m.1 = 4).foldl (fun _ m => byteAt win m.2) (byteAt win (pos + 6))
      some ([6, proto] ++ sortPair (slice win (pos + 8) 16 ++ port 0) (slice win (pos + 24) 16 ++ port 2))
    else eth

/-! ### What the parser hands on (R158) -/

/-- Registers m0 to m2 of Table 5.5. -/
def parserRegs (e : WalkEnd) (hash : Option Nat) (port len : Nat) : List Nat :=
  [e.w.flags % 256 * 2 ^ 24 + (if e.reason ≠ 0 then 2 ^ 23 else 0) + (if e.frag then 2 ^ 22 else 0) +
      (if hash.isSome then 2 ^ 21 else 0) + e.reason % 16 * 2 ^ 16 + e.w.last % 64 * 2 ^ 10 + port % 1024,
   hash.getD 0,
   len % 2 ^ 14 * 2 ^ 16 + e.w.pos % 512]

/-- Parse a packet of pipeline p. -/
def State.parseWalk (s : State) (p : Nat) (g : List ParseState) (k : Pkt) : WalkEnd × Option Nat :=
  let e := walkFrom g k.win (k.len - 4) 16 0 {}
  let hash := if e.reason ≠ 0 then none
    else (flowKey e.w.marks k.win e.frag).map (crc32c (s.reg (R.PAR_HASH_SEED p)).toNat)
  (e, hash)

/-- The counters and causes of one walk that ended with `reason`, at a fragment or not (R143, R146). -/
def State.parseCount (s : State) (p reason : Nat) (frag : Bool) : State :=
  let s := s.addCnt (C.PAR_CNT p reason) 1
  let s := if frag then s.addCnt (C.PAR_FRAG_CNT p) 1 else s
  if reason ≠ 0 then s.cause (R.PAR_CAUSE p) F.PAR_CAUSE.MALFORMED else s

/-! ### The exception policer (R147 to R152) -/

/-- The settings of the policer of Pitch n as they act. -/
def State.excMeter (s : State) (n : Nat) : Meter :=
  { cir := min 400000 (s.fld (R.PAR_EXC_CIR n) F.PAR_EXC_CIR.RATE)
    pir := min 400000 (s.fld (R.PAR_EXC_PIR n) F.PAR_EXC_PIR.RATE)
    cbs := max 10240 (s.fld (R.PAR_EXC_CBS n) F.PAR_EXC_CBS.BYTES)
    pbs := max 10240 (s.fld (R.PAR_EXC_PBS n) F.PAR_EXC_PBS.BYTES) }

def State.excBuckets (s : State) (n : Nat) : Buckets := SMap.get (fun _ => {}) s.excPol n
def State.setExcBuckets (s : State) (n : Nat) (b : Buckets) : State :=
  { s with excPol := SMap.put (fun _ => {}) s.excPol n b }

def State.excEnabled (s : State) (n : Nat) : Bool := s.bit (R.PAR_EXC_POL_CTL n) F.PAR_EXC_POL_CTL.EN

/-- The policer of the Pitch of pipeline p judges a copy of `len` bytes; the colour is counted (R147, R148). -/
def State.excJudge (s : State) (p len : Nat) : Colour × State :=
  let n := s.ownerOfPipe p
  let (c, b) := (s.excMeter n).judge (s.excBuckets n) len s.clk16
  let s := s.setExcBuckets n b
  match c with
  | .green => (c, s.addCnt (C.PAR_EXC_GREEN p) 1)
  | .yellow => (c, s.addCnt (C.PAR_EXC_YELLOW p) 1)
  | .red => (c, (s.addCnt (C.PAR_EXC_RED p) 1).cause (R.PAR_CAUSE p) F.PAR_CAUSE.EXC_RED)

end Sys2Proof.Machine
end

