-- ==== Sys2Proof/Machine/Uc.lean ====
section
/-! DEFINITION. Action microcode (chapter "Action Microcode"): the microword and its effect, the running of a segment,
the store with its banks and parity, and the load checks of Table 8.7. -/

namespace Sys2Proof.Machine

/-! ### The microword (R213) -/

def ucOp (w : Word) : Nat := w.toNat / 2 ^ 26
def ucD (w : Word) : Nat := w.toNat / 2 ^ 21 % 32
def ucA (w : Word) : Nat := w.toNat / 2 ^ 16 % 32
def ucB (w : Word) : Nat := w.toNat % 2 ^ 16

/-- What one berth's microwords see and change. `res` holds the lookup results by result index; `dlen` the bytes of DATA of each
exact-match table. -/
structure UcRun where
  m : List Nat
  hv : Bytes
  win : Bytes
  /-- The end of the frame less its FCS. -/
  lim : Nat
  res : List LookRes := []
  dlen : List Nat := []
  /-- The request of the last LEARN, whose key is still to come (R227). -/
  learn : Option LearnReq := none
  /-- Action counters named by CNT, in order, each with m2.FRAME_LEN as it then stood (R214, R221). -/
  counts : List (Nat × Nat) := []
  /-- The word that failed parity, as bank × 4096 + word (R240). -/
  parity : Option Nat := none
  deriving DecidableEq, Repr

def UcRun.reg (r : UcRun) (i : Nat) : Nat := r.m.getD i 0
def UcRun.setM (r : UcRun) (i v : Nat) : UcRun := { r with m := listSet r.m i (v % 2 ^ 32) }

/-- Replace bits lo to lo + w − 1 of a number. -/
def putBits (v lo w x : Nat) : Nat := v - v / 2 ^ lo % 2 ^ w * 2 ^ lo + x % 2 ^ w * 2 ^ lo

/-- The ALU opcodes 0x02 to 0x0C (Table 8.4). -/
def ucAlu (op a b : Nat) : Nat :=
  match op with
  | 0x02 => a + b
  | 0x03 => a + 2 ^ 32 - b
  | 0x04 => Nat.land a b
  | 0x05 => Nat.lor a b
  | 0x06 => Nat.xor a b
  | 0x07 => a * 2 ^ (b % 32)
  | 0x08 => a / 2 ^ (b % 32)
  | 0x09 => min a b
  | 0x0A => max a b
  | 0x0B => if a < b then 1 else 0
  | 0x0C => if a = b then 1 else 0
  | _ => 0

/-- The immediate opcodes 0x10 to 0x1A. -/
def ucImm (op a imm : Nat) : Nat :=
  match op with
  | 0x10 => a + imm
  | 0x11 => a + 2 ^ 32 - imm
  | 0x12 => Nat.land a imm
  | 0x13 => Nat.lor a imm
  | 0x14 => Nat.xor a imm
  | 0x15 => a * 2 ^ (imm % 32)
  | 0x16 => a / 2 ^ (imm % 32)
  | 0x17 => if a < imm then 1 else 0
  | 0x18 => if a = imm then 1 else 0
  | 0x19 => imm
  | 0x1A => imm * 2 ^ 16 + a % 2 ^ 16
  | _ => 0

/-- Word k of a lookup result (R225): an exact-match result below index 8, a TCAM result at 8 and 9. -/
def resWord (i : Nat) (r : LookRes) (k : Nat) : Nat :=
  if !r.hit then 0
  else if k = 0 then 2 ^ 31 + r.action * 2 ^ 20 + (if 8 ≤ i then r.addr % 2 ^ 17 else 0)
  else if 8 ≤ i then
    (if k = 1 then beNat (slice r.data 0 4) else if k = 2 then beNat (slice r.data 4 4) else 0)
  else beNat (slice r.data (4 * (k - 1)) 4)

/-- The learn request that a LEARN builds, in any segment; its key is KEY_A of the berth's lookup (R227). -/
def ucLearn (r : UcRun) (a b : Nat) : LearnReq :=
  let n := r.dlen.getD (b % 4) 0
  { table := b % 4, key := [], action := b / 16 % 16,
    data := ((List.range ((n + 3) / 4)).flatMap fun i => natBE 4 (r.reg (a + i))).take n }

/-- What follows a microword. -/
inductive UcNext where
  | seq
  | jump (w : Nat)
  | done
  deriving DecidableEq, Repr

/-- The effect of one microword (Table 8.4). A refused opcode, which no checked store holds, ends the segment. -/
def ucStep (w : Word) (r : UcRun) : UcRun × UcNext :=
  let op := ucOp w
  let d := ucD w
  let a := r.reg (ucA w)
  let b := ucB w
  let tgt := b % 4096
  let go := fun (c : Bool) => (r, if c then UcNext.jump tgt else .seq)
  if op = 0x00 then (r, .seq)
  else if op = 0x01 then (r, .done)
  else if op ≤ 0x0C then (r.setM d (ucAlu op a (r.reg (b % 32))), .seq)
  else if 0x10 ≤ op ∧ op ≤ 0x1A then (r.setM d (ucImm op a b), .seq)
  else if op = 0x1C then (r.setM d (a / 2 ^ (b / 32 % 32) % 2 ^ (b % 32 + 1)), .seq)
  else if op = 0x1D then (r.setM d (putBits (r.reg d) (b / 32 % 32) (b % 32 + 1) a), .seq)
  else if op = 0x20 then (r.setM d (beNat (slice r.hv (b / 128) (b / 32 % 4 + 1))), .seq)
  else if op = 0x21 then ({ r with hv := splice r.hv (b / 128) (natBE (b / 32 % 4 + 1) a) }, .seq)
  else if op = 0x22 then (r.setM d (beNat (slice (r.win.take r.lim) (b / 128) (b / 32 % 4 + 1))), .seq)
  else if op = 0x28 then go (a = 0)
  else if op = 0x29 then go (a ≠ 0)
  else if op = 0x2A then go (nbit a d)
  else if op = 0x2B then go (!nbit a d)
  else if op = 0x2C then go true
  else if op = 0x30 then (r.setM d (resWord (b / 256 % 16) (r.res.getD (b / 256 % 16) {}) (b % 32)), .seq)
  else if op = 0x31 then ({ r with learn := some (ucLearn r (ucA w) b) }, .seq)
  else if op = 0x32 then
    (r.setM 7 (putBits (putBits (r.reg 7) 31 1 1) 16 8 b), .seq)
  else if op = 0x33 then
    let v := putBits (putBits (putBits (r.reg 8) 27 3 (b / 2 ^ 12)) 26 1 (b / 2 ^ 9)) 0 9 b
    (r.setM 8 (if nbit b 9 then putBits v 9 9 a else v), .seq)
  else if op = 0x34 then (r.setM 8 (putBits (r.reg 8) 31 1 1), .seq)
  else if op = 0x35 then (r.setM 8 (putBits (putBits (r.reg 8) 30 1 1) 18 8 b), .seq)
  else if op = 0x36 then ({ r with counts := r.counts ++ [(b % 1024, r.reg 2 / 2 ^ 16 % 2 ^ 14)] }, .seq)
  else (r, .done)

/-- Run at most `fuel` words from `pc` (R214). Answers where the segment stands, none once it has ended. A word whose
parity fails runs as END (R240). -/
def ucRun (fetch : Nat → Option Word) (bank : Nat) : Nat → Nat → UcRun → UcRun × Option Nat
  | 0, pc, r => (r, some pc)
  | fuel + 1, pc, r =>
    match fetch pc with
    | none => ({ r with parity := some ((if pc < 3072 then 0 else bank) * 4096 + pc) }, none)
    | some w =>
      match ucStep w r with
      | (r, .done) => (r, none)
      | (r, .seq) => ucRun fetch bank fuel (pc + 1) r
      | (r, .jump t) => ucRun fetch bank fuel t r

/-! ### The store (R233 to R240) -/

/-- The store of stage st of pipeline p. -/
def State.ucStore (s : State) (p st : Nat) : UcStore := SMap.get (fun _ => {}) s.uc (p * 24 + st)
def State.setUcStore (s : State) (p st : Nat) (u : UcStore) : State :=
  { s with uc := SMap.put (fun _ => {}) s.uc (p * 24 + st) u }

/-- A word of the store; for words of 3072 and above, that of the given bank. -/
def UcStore.word (u : UcStore) (bank w : Nat) : Word :=
  if w < 3072 then SMap.get (fun _ => 0) u.words w
  else SMap.get (fun _ => 0) (if bank = 0 then u.bank0 else u.bank1) (w - 3072)

/-- The bank part of a parity mark: customer words carry their bank, the others none. -/
def ucMark (bank w : Nat) : Nat := (if w < 3072 then 0 else bank) * 4096 + w

/-- A fetch of the given bank: none when the word's parity fails. -/
def UcStore.fetch (u : UcStore) (bank w : Nat) : Option Word :=
  if u.bad.contains (ucMark bank w) then none else some (u.word bank w)

/-- Write a word, with fresh parity. -/
def UcStore.put (u : UcStore) (bank w : Nat) (v : Word) : UcStore :=
  let u := { u with bad := u.bad.filter fun x => x ≠ ucMark bank w }
  if w < 3072 then { u with words := SMap.put (fun _ => 0) u.words w v }
  else if bank = 0 then { u with bank0 := SMap.put (fun _ => 0) u.bank0 (w - 3072) v }
  else { u with bank1 := SMap.put (fun _ => 0) u.bank1 (w - 3072) v }

/-- The active customer bank of pipeline p. -/
def State.ucBank (s : State) (p : Nat) : Nat := s.fld (R.STG_UC_SWAP p) F.STG_UC_SWAP.BANK
def State.ucChecked (s : State) (p : Nat) : Bool := s.bit (R.STG_UC_SWAP p) F.STG_UC_SWAP.CHECKED

/-- A directory entry, from its register. -/
def State.ucDir (s : State) (p st e : Nat) : Option DirEntry :=
  let a := R.STG_UC_DIR p st e
  if s.bit a F.STG_UC_DIR.DEFINED then
    some { e := e, start := s.fld a F.STG_UC_DIR.START, slots := s.fld a F.STG_UC_DIR.SLOTS,
           cust := s.bit a F.STG_UC_DIR.CUST }
  else none

/-- The words an entry may run: its SLOTS, or none for a hook while the active bank is not checked (R635). -/
def State.ucSlots (s : State) (p : Nat) (d : DirEntry) : Nat :=
  if d.cust && !s.ucChecked p then 0 else d.slots

/-- A word that failed parity is counted and recorded (R240). -/
def State.ucParity (s : State) (p st mark : Nat) : State :=
  let s := s.addCnt (C.UC_PARITY p st) 1
  let s := if s.bit (R.STG_UC_CAUSE p st) F.STG_UC_CAUSE.PARITY then s
    else s.setReg (R.STG_UC_ERR p st) (BitVec.ofNat 32 (2 ^ 31 + mark))
  s.cause (R.STG_UC_CAUSE p st) F.STG_UC_CAUSE.PARITY

/-- STG_UC_HASH: SHA-256 of the active banks of stages 0 to 23, word by word, most significant byte first. -/
def State.ucHash (s : State) (p : Nat) : Bytes :=
  if (s.pipe p).img.isNone then List.replicate 32 0
  else
    let bank := s.ucBank p
    sha256 ((List.range 24).flatMap fun st =>
      let u := s.ucStore p st
      (List.range 1024).flatMap fun i => natBE 4 (u.word bank (3072 + i)).toNat)

/-! ### Load checks (Table 8.7) -/

/-- The shape of an opcode: whether D and A are named, and the mask of the named B bits; none for a refused opcode. Every
bit outside the named fields must be zero (R221). -/
def ucShape (op : Nat) : Option (Bool × Bool × Nat) :=
  if op ≤ 0x01 then some (false, false, 0)
  else if op ≤ 0x0C then some (true, true, 0x1F)
  else if 0x10 ≤ op ∧ op ≤ 0x14 then some (true, true, 0xFFFF)
  else if op = 0x15 ∨ op = 0x16 then some (true, true, 0x1F)
  else if op = 0x17 ∨ op = 0x18 ∨ op = 0x1A then some (true, true, 0xFFFF)
  else if op = 0x19 then some (true, false, 0xFFFF)
  else if op = 0x1C ∨ op = 0x1D then some (true, true, 0x3FF)
  else if op = 0x20 ∨ op = 0x22 then some (true, false, 0xFFE0)
  else if op = 0x21 then some (false, true, 0xFFE0)
  else if op = 0x28 ∨ op = 0x29 then some (false, true, 0xFFF)
  else if op = 0x2A ∨ op = 0x2B then some (true, true, 0xFFF)
  else if op = 0x2C then some (false, false, 0xFFF)
  else if op = 0x30 then some (true, false, 0xF1F)
  else if op = 0x31 then some (false, true, 0xF3)
  else if op = 0x32 ∨ op = 0x35 then some (false, false, 0xFF)
  else if op = 0x33 then some (false, true, 0x73FF)
  else if op = 0x34 then some (false, false, 0)
  else if op = 0x36 then some (false, false, 0x3FF)
  else none

/-- The opcode writes register D. -/
def ucWritesD (op : Nat) : Bool :=
  decide (2 ≤ op ∧ op ≤ 0x1D) || decide (op = 0x20 ∨ op = 0x22 ∨ op = 0x30)

/-- The kind of a segment, as far as the checks of its words depend on it. -/
inductive SegKind where
  | pre
  | malformed
  | action
  deriving DecidableEq, Repr

/-- Whether a lookup result index names a table that the stage defines (R225). DESIGN CHOICE: results 4 to 7 of a table without KEY_B pass, and
every word of one reads zero (log entry 174). -/
def resDefined (si : StageImg) (i : Nat) : Bool :=
  let em := fun t => (si.em.getD t none)
  if i < 4 then (em i).isSome
  else if i < 8 then (em (i - 4)).isSome
  else if i < 10 then (si.tc.getD (i - 8) none).isSome
  else false

/-- The data bytes of an exact-match table: E − 4 − K. -/
def emDataBytes (t : EmTable) : Nat := 16 * 2 ^ t.width - 4 - t.selA.length

/-- The first check of Table 8.7 below 6 or above that one word fails, for a segment of words `start` to
`start + slots − 1`. -/
def ucWordCheck (si : StageImg) (kind : SegKind) (start slots w : Nat) (v : Word) : Option Nat :=
  let op := ucOp v
  let d := ucD v
  let a := ucA v
  let b := ucB v
  match ucShape op with
  | none => some 1
  | some (dn, an, mask) =>
    if (!dn && decide (d ≠ 0)) || (!an && decide (a ≠ 0)) || decide (Nat.land b mask ≠ b) then some 1
    else if ucWritesD op && decide (d = 3 ∨ d = 4 ∨ d = 5 ∨ d = 6 ∨ d = 10) then some 2
    else if decide (op = 0x20 ∨ op = 0x21) && decide (128 < b / 128 + (b / 32 % 4 + 1)) then some 3
    else if decide (op = 0x22) && decide (512 < b / 128 + (b / 32 % 4 + 1)) then some 3
    else if decide (op = 0x1C ∨ op = 0x1D) && decide (32 < b / 32 % 32 + (b % 32 + 1)) then some 4
    else if decide (0x28 ≤ op ∧ op ≤ 0x2C) && decide (b % 4096 ≤ w ∨ start + slots ≤ b % 4096) then some 5
    else if decide (op = 0x30) && (decide (kind ≠ .action) || !resDefined si (b / 256 % 16)) then some 7
    else if decide (op = 0x31) then
      match si.em.getD (b % 4) none with
      | none => some 8
      | some t =>
        if kind = .malformed ∨ t.width = 3 ∨ 32 < a + (emDataBytes t + 3) / 4 then some 8 else none
    else if decide (op = 0x33 ∧ 6 ≤ b / 2 ^ 12 % 8) then some 9
    else none

/-- The words that follow word `w`: none ends the path. -/
def ucSucc (w : Nat) (v : Word) : List Nat :=
  let op := ucOp v
  if op = 0x01 then []
  else if op = 0x2C then [ucB v % 4096]
  else if 0x28 ≤ op ∧ op ≤ 0x2B then [w + 1, ucB v % 4096]
  else [w + 1]

/-- The first failure, in word order, of a segment: `ws` are its words in order from `w`, `live` the words that some path
reaches. A path that runs past the last word fails check 6 at that word. DESIGN CHOICE: a word that no path reaches is not checked (R216, R221,
R230, R234, R635, log entry 174). -/
def ucSegCheck (si : StageImg) (kind : SegKind) (start slots : Nat) : Nat → List Word → List Nat → Option (Nat × Nat)
  | _, [], _ => none
  | w, v :: vs, live =>
    if live.contains w then
      let nx := ucSucc w v
      let off := vs.isEmpty && nx.contains (w + 1)
      match ucWordCheck si kind start slots w v with
      | some c => some (w, if off then min c 6 else c)
      | none => if off then some (w, 6) else ucSegCheck si kind start slots (w + 1) vs (live ++ nx)
    else ucSegCheck si kind start slots (w + 1) vs live

/-- The first failure of one directory entry's segment over a store, as word and check. -/
def ucEntryCheck (si : StageImg) (fetch : Nat → Word) (d : DirEntry) : Option (Nat × Nat) :=
  let kind : SegKind := if d.e = 0 then .pre else if d.e = 1 then .malformed else .action
  ucSegCheck si kind d.start d.slots d.start ((List.range d.slots).map fun i => fetch (d.start + i)) [d.start]

/-- The lower of two failures by word, then by check. -/
def minFail : Option (Nat × Nat) → Option (Nat × Nat) → Option (Nat × Nat)
  | none, y => y
  | x, none => x
  | some a, some b => if a.1 < b.1 ∨ (a.1 = b.1 ∧ a.2 ≤ b.2) then some a else some b

/-- The first failure, in word and check order, among the hooks of a stage over one customer bank. -/
def ucHooksCheck (si : StageImg) (fetch : Nat → Word) : Option (Nat × Nat) :=
  (si.dir.filter (·.cust)).foldl (fun acc d => minFail acc (ucEntryCheck si fetch d)) none

/-- The first failure over the standby banks of the 24 stages, as stage, word and check (R234). -/
def State.ucSwapCheck (s : State) (p : Nat) : Option (Nat × Nat × Nat) :=
  match (s.pipe p).img with
  | none => none
  | some img =>
    let bank := 1 - s.ucBank p
    (List.range 24).findSome? fun st =>
      (ucHooksCheck (img.stages.getD st {}) (fun w => (s.ucStore p st).word bank w)).map fun f => (st, f.1, f.2)

/-- The image declares customer hooks. -/
def Image.hasHooks (img : Image) : Bool := img.stages.any fun si => si.dir.any (·.cust)

end Sys2Proof.Machine
end

