-- ==== Sys2Proof/Machine/Em.lean ====
section
/-! DEFINITION. Exact-match tables and the table engine of a stage (chapter "Match-Action Stages, Exact-Match Tables and
Learning"): lookup, insertion by moves, eviction, learning, ageing, parity, notifications and indirect access. A location
is TABLE, STASH, WAY and ROW in the places of STG_IA_STATUS and STG_NOTE_HDR. -/

namespace Sys2Proof.Machine

/-! ### Layout (R164 to R166) -/

def State.emStage (s : State) (p st : Nat) : EmStage := SMap.get (fun _ => {}) s.em (p * 24 + st)
def State.setEmStage (s : State) (p st : Nat) (e : EmStage) : State :=
  { s with em := SMap.put (fun _ => {}) s.em (p * 24 + st) e }

def State.emDefined (s : State) (p st t : Nat) : Bool :=
  decide (t < 4) && s.bit (R.STG_EM_CFG p st t) F.STG_EM_CFG.DEFINED
/-- E, D and K of a table. -/
def State.emE (s : State) (p st t : Nat) : Nat := 16 * 2 ^ s.fld (R.STG_EM_CFG p st t) F.STG_EM_CFG.WIDTH
def State.emD (s : State) (p st t : Nat) : Nat := 2 ^ s.fld (R.STG_EM_CFG p st t) F.STG_EM_CFG.DEPTH_LOG2
def State.emK (s : State) (p st t : Nat) : Nat := s.fld (R.STG_EM_CFG p st t) F.STG_EM_CFG.KEY_LEN

def wayLoc (t w row : Nat) : Nat := t * 2 ^ 20 + w * 2 ^ 16 + row
def stashLoc (t i : Nat) : Nat := t * 2 ^ 20 + 2 ^ 19 + i
def locTable (loc : Nat) : Nat := loc / 2 ^ 20 % 4
def locStash (loc : Nat) : Bool := nbit loc 19

def EmStage.row (e : EmStage) (loc : Nat) : EmRow := SMap.get (fun _ => {}) e.rows loc
def EmStage.setRow (e : EmStage) (loc : Nat) (r : EmRow) : EmStage := { e with rows := SMap.put (fun _ => {}) e.rows loc r }
def State.emRow (s : State) (p st loc : Nat) : EmRow := (s.emStage p st).row loc
def State.setEmRow (s : State) (p st loc : Nat) (r : EmRow) : State := s.setEmStage p st ((s.emStage p st).setRow loc r)

/-- The fields of Table 6.2. -/
def EmRow.valid (r : EmRow) : Bool := nbit (byteAt r.bytes 3).toNat 7
def EmRow.static (r : EmRow) : Bool := nbit (byteAt r.bytes 3).toNat 6
def EmRow.action (r : EmRow) : Nat := (byteAt r.bytes 2).toNat % 16
def EmRow.key (r : EmRow) (k : Nat) : Bytes := slice r.bytes 4 k

/-- The location belongs to a group: it is visible in one view only (R249). A flip of its VALID leaves it in the group (R261). -/
def EmRow.marked (r : EmRow) : Bool := decide (r.see ≠ 3)

/-- The row with VALID cleared, in both views and with fresh parity. -/
def EmRow.clear (r : EmRow) : EmRow :=
  { r with bytes := splice r.bytes 3 [BitVec.ofNat 8 ((byteAt r.bytes 3).toNat % 128)], see := 3, bad := [] }

/-- An entry of E bytes: header, key and data. -/
def emEntry (e : Nat) (static : Bool) (action : Nat) (key data : Bytes) : Bytes :=
  fitBytes e ([0, 0, BitVec.ofNat 8 action, (if static then 0xC0 else 0x80)] ++ key ++ data)

/-- The candidate row of a key in way w (R166). -/
def State.emCand (s : State) (p st t : Nat) (key : Bytes) (w : Nat) : Nat :=
  crc32c (s.reg (R.STG_EM_SEED p st t w)).toNat key % s.emD p st t

/-- The four candidate locations of a key, way 0 first. -/
def State.emCands (s : State) (p st t : Nat) (key : Bytes) : List Nat :=
  (List.range 4).map fun w => wayLoc t w (s.emCand p st t key w)

/-- The stash slots of a table. -/
def stashLocs (t : Nat) : List Nat := (List.range 16).map (stashLoc t)

/-- U of a table: bits 15 + s to s of the Round the stage has taken. The stage takes a new Round within 1 µs, 100 cycles
of the Postilion, of its boundary, at an instant that is open (R175). -/
def State.emUnit (s : State) (p st t : Nat) : Nat :=
  let r := (s.reg R.DEV_ROUND_NUM).toNat
  let ph := s.fld R.DEV_ROUND_PHASE F.DEV_ROUND_PHASE.PHASE
  let taken := if 100 ≤ ph then r else if Config.stageLag (p * 24 + st) r % 101 ≤ ph then r else (r + 2 ^ 32 - 1) % 2 ^ 32
  taken / 2 ^ min 8 (s.fld (R.STG_EM_CTL p st t) F.STG_EM_CTL.AGE_SHIFT) % 65536

/-! ### Groups -/

/-- A marked location left its group (R261, R262). -/
def State.grpLost (s : State) (p : Nat) : State :=
  (s.addCnt (C.VER_GRP_LOST p) 1).cause (R.VER_CAUSE (s.ownerOfPipe p)) F.VER_CAUSE.GRP_LOST

/-- The tag of key operations: the pending view while the group is OPEN, else the current (R262). -/
def State.iaTag (s : State) (p : Nat) : Nat :=
  let n := s.ownerOfPipe p
  let c := s.fld (R.VER_STATUS n) F.VER_STATUS.TAG
  if s.fld (R.VER_STATUS n) F.VER_STATUS.STATE = 1 then 1 - c else c

/-! ### Parity and notifications (R178 to R181) -/

/-- A parity error is found at `loc` (R178; `ts` for the timestamp array, R179). -/
def State.emParity (s : State) (p st loc : Nat) (ts : Bool) : State :=
  let s := s.addCnt (if ts then C.EM_TS_PARITY p st (locTable loc) else C.EM_PARITY p st (locTable loc)) 1
  let s := if s.bit (R.STG_CAUSE p st) F.STG_CAUSE.PARITY then s
    else s.setReg (R.STG_PAR_ADDR p st) (BitVec.ofNat 32 (2 ^ 31 + (if ts then 2 ^ 30 else 0) + loc % 2 ^ 22))
  let s := s.cause (R.STG_CAUSE p st) F.STG_CAUSE.PARITY
  let e := s.emStage p st
  if ts ∨ e.toClear.contains loc then s else s.setEmStage p st { e with toClear := e.toClear ++ [loc] }

/-- A timestamp row that failed parity is rewritten to the current unit (R179). -/
def State.emTsRepair (s : State) (p st loc : Nat) : State :=
  let s := s.emParity p st loc true
  s.setEmRow p st loc { s.emRow p st loc with ts := s.emUnit p st (locTable loc), tsBad := false }

/-- The engine reads the timestamp of a location: one that fails parity is found and rewritten (R179). -/
def State.emTsRead (s : State) (p st loc : Nat) : State := if (s.emRow p st loc).tsBad then s.emTsRepair p st loc else s

/-- The kind of notification is enabled (R180). -/
def State.noteOn (s : State) (p st t kind : Nat) : Bool :=
  decide (kind = 7) || nbit (s.fld (R.STG_EM_CTL p st t) F.STG_EM_CTL.NOTIFY) kind

/-- The notification FIFO's free places. -/
def State.noteRoom (s : State) (p st : Nat) : Nat := 256 - (s.emStage p st).notes.length

/-- Push a notification record; NOTE_FULL sets when the FIFO becomes full (R180). -/
def State.pushNote (s : State) (p st kind loc : Nat) (entry : Bytes) : State :=
  if !s.noteOn p st (locTable loc) kind then s
  else if s.noteRoom p st = 0 then
    (if kind = 7 then s.addCnt (C.EM_NOTE_DROP p st (locTable loc)) 1 else s)
  else
    let e := s.emStage p st
    let n : Note := { kind := kind, loc := loc, round := (s.reg R.DEV_ROUND_NUM).toNat, entry := fitBytes 64 entry }
    let s := s.setEmStage p st { e with notes := e.notes ++ [n] }
    if s.noteRoom p st = 0 then s.ariseF (R.STG_CAUSE p st) F.STG_CAUSE.NOTE_FULL else s

/-! ### Lookup (R167, R246) -/

/-- The first location that holds the key, among its candidate rows and the stash, with parity good and visible under
`vis`; and the locations read whose parity fails. -/
def State.emFind (s : State) (p st t : Nat) (key : Bytes) (vis : EmRow → Bool) : Option Nat × List Nat :=
  let e := s.emStage p st
  let locs := s.emCands p st t key ++ stashLocs t
  (locs.find? fun l =>
      let r := e.row l
      r.valid && r.bad.isEmpty && vis r && decide (r.key (s.emK p st t) = key),
   locs.filter fun l => !(e.row l).bad.isEmpty)

/-- A location is visible to a packet of tag v. -/
def seen (v : Nat) (r : EmRow) : Bool := nbit r.see v

/-- The parity errors of a lookup are recorded. DESIGN CHOICE: of several in one lookup the first, in the order of ways and then of stash
slots, comes first, so STG_PAR_ADDR records it and it is invalidated first (R178, log entry 164). -/
def State.emParities (s : State) (p st : Nat) (locs : List Nat) : State :=
  locs.foldl (fun s l => s.emParity p st l false) s

/-- A lookup of a packet of tag v: the result, with the timestamp refreshed on a hit and the counters (R167, R175). -/
def State.emLookup (s : State) (p st t : Nat) (key : Bytes) (v : Nat) : LookRes × State :=
  let (hit, bad) := s.emFind p st t key (seen v)
  let s := (s.emParities p st bad).addCnt (C.EM_LOOKUPS p st t) 1
  match hit with
  | none => ({}, s)
  | some l =>
    let r := s.emRow p st l
    let s := s.setEmRow p st l { r with ts := s.emUnit p st t, tsBad := false }
    ({ hit := true, action := r.action, addr := 0, data := r.bytes.drop (4 + s.emK p st t) },
     s.addCnt (C.EM_HITS p st t) 1)

/-! ### Insertion (R169 to R171) -/

/-- What an insertion did. -/
inductive EmIns where
  | inserted (loc : Nat)
  | stashed (loc : Nat)
  | evicted (loc : Nat) (victim : EmRow)
  | failed
  deriving DecidableEq, Repr

/-- One level of the breadth-first search: paths, each from its last row back to a candidate row. Each is extended, in
order, by the other candidate rows of its last row's occupant, ways ascending. -/
def State.emExtend (s : State) (p st t : Nat) (paths : List (List Nat)) : List (List Nat) :=
  paths.flatMap fun path =>
    match path with
    | [] => []
    | l :: _ =>
      let r := s.emRow p st l
      if !r.bad.isEmpty then []
      else ((s.emCands p st t (r.key (s.emK p st t))).filter fun c => !path.contains c).map (· :: path)

/-- The search for a chain of at most `depth` moves that ends in an empty row (R169). -/
def State.emSearch (s : State) (p st t : Nat) : Nat → List (List Nat) → Option (List Nat)
  | depth, paths =>
    match paths.find? (fun path => path.head?.any fun l => !(s.emRow p st l).valid && (s.emRow p st l).bad.isEmpty) with
    | some path => some path
    | none =>
      match depth with
      | 0 => none
      | d + 1 => State.emSearch s p st t d (s.emExtend p st t paths)

/-- The locations below level `skip` that the search reads and whose parity fails. -/
def State.emSearchBad (s : State) (p st t : Nat) : Nat → Nat → List (List Nat) → List Nat
  | depth, skip, paths =>
    let here := if skip = 0 then (paths.filterMap (·.head?)).filter fun l => !(s.emRow p st l).bad.isEmpty else []
    let found := paths.any fun path => path.head?.any fun l => !(s.emRow p st l).valid && (s.emRow p st l).bad.isEmpty
    match depth with
    | 0 => here
    | d + 1 => if found then here else here ++ State.emSearchBad s p st t d (skip - 1) (s.emExtend p st t paths)

/-- Carry out the moves of a path, empty end first: each occupant is written to its new row, then its old row cleared. The
last row of the path is then free. -/
def State.emMoves (s : State) (p st : Nat) : List Nat → State
  | dst :: src :: rest =>
    let s := s.emTsRead p st src
    let r := s.emRow p st src
    let s := (s.setEmRow p st dst r).setEmRow p st src r.clear
    State.emMoves s p st (src :: rest)
  | _ => s

/-- The free candidate row that the ways give a key, after the moves that free it, if any (R169). Parity errors found by
the search's reads are recorded, those of the candidate rows only with `skip` 0 (R179). -/
def State.emPlace (s : State) (p st t skip : Nat) (key : Bytes) : Option Nat × State :=
  let depth := s.fld (R.STG_EM_CTL p st t) F.STG_EM_CTL.MAX_DEPTH
  let start := (s.emCands p st t key).map fun l => [l]
  let bad := s.emSearchBad p st t depth skip start
  match s.emSearch p st t depth start with
  | none => (none, s.emParities p st bad.dedup)
  | some path => (some (path.getLast?.getD 0), (s.emMoves p st path).emParities p st bad.dedup)

/-- The victim that the EVICT policy chooses among the candidate rows whose parity is good (R170, R178, R261). Policy 2 reads the
timestamps of its candidates. -/
def State.emVictim (s : State) (p st t : Nat) (key : Bytes) : Option Nat × State :=
  let pol := s.fld (R.STG_EM_CTL p st t) F.STG_EM_CTL.EVICT
  let cs := (s.emCands p st t key).filter fun l =>
    let r := s.emRow p st l
    r.bad.isEmpty && r.valid && !r.static && !r.marked
  let s := if pol = 2 then cs.foldl (fun s l => s.emTsRead p st l) s else s
  let age := fun l => (s.emUnit p st t + 65536 - (s.emRow p st l).ts) % 65536
  if pol = 1 then
    let (w, s) := s.freeWord
    (if cs.isEmpty then none else cs[w % cs.length]?, s)
  else if pol = 2 then
    (cs.foldl (fun acc l =>
      match acc with
      | none => some l
      | some b => if age b < age l then some l else some b) none, s)
  else (none, s)

/-- Insert an entry whose key no location holds, visible in the views `see`; `evict` false makes EVICT act as 0. The reads
of the search find parity errors in the candidate rows (R179). -/
def State.emInsert (s : State) (p st t : Nat) (entry : Bytes) (see : Nat) (evict : Bool) : EmIns × State :=
  let key := slice entry 4 (s.emK p st t)
  let row : EmRow := { bytes := entry, ts := s.emUnit p st t, see := see }
  match s.emPlace p st t 1 key with
  | (some l, s) => (.inserted l, s.setEmRow p st l row)
  | (none, s) =>
    match (stashLocs t).find? fun l => !(s.emRow p st l).valid && (s.emRow p st l).bad.isEmpty with
    | some l => (.stashed l, s.setEmRow p st l row)
    | none =>
      if !evict then (.failed, s)
      else
        let (v, s) := s.emVictim p st t key
        match v with
        | none => (.failed, s)
        | some l =>
          let old := s.emRow p st l
          (.evicted l old, (s.setEmRow p st l row).addCnt (C.EM_EVICTED p st t) 1)

/-- A row has been freed by a deletion, ageing or a flush: a stash entry is to be tried for it (R171). -/
def State.emFreed (s : State) (p st loc : Nat) : State :=
  if locStash loc then s
  else s.setEmStage p st { s.emStage p st with freed := (s.emStage p st).freed ++ [loc] }

/-- Clear a location outside a group operation; a marked one leaves its group. -/
def State.emClear (s : State) (p st loc : Nat) : State :=
  let r := s.emRow p st loc
  let s := s.setEmRow p st loc r.clear
  if r.marked then s.grpLost p else s

/-- Write a location whole outside a group operation, visible to both tags (R262). -/
def State.emWrite (s : State) (p st loc : Nat) (bytes : Bytes) : State :=
  let r := s.emRow p st loc
  let s := s.setEmRow p st loc { bytes := bytes, ts := s.emUnit p st (locTable loc) }
  if r.marked then s.grpLost p else s

/-- The stash entry tried for a freed row: the lowest valid slot whose candidate rows include it, else the lowest valid
slot (R171). -/
def State.stashPick (s : State) (p st loc : Nat) : Option Nat :=
  let t := locTable loc
  let vs := (stashLocs t).filter fun l => (s.emRow p st l).valid && (s.emRow p st l).bad.isEmpty
  match vs.find? fun l => (s.emCands p st t ((s.emRow p st l).key (s.emK p st t))).contains loc with
  | some l => some l
  | none => vs.head?

/-! ### Learning (R172, R173, R181, R261) -/

/-- A learn request enters the learn FIFO (R172). -/
def State.learnRequest (s : State) (p st : Nat) (q : LearnReq) : State :=
  let s := s.addCnt (C.EM_LEARN_REQ p st q.table) 1
  let e := s.emStage p st
  match e.learn.findIdx? fun x => decide (x.table = q.table ∧ x.key = q.key) with
  | some i => (s.setEmStage p st { e with learn := listSet e.learn i q }).addCnt (C.EM_LEARN_MERGED p st q.table) 1
  | none =>
    if 256 ≤ e.learn.length then
      (s.addCnt (C.EM_LEARN_DROP p st q.table) 1).cause (R.STG_CAUSE p st) F.STG_CAUSE.LEARN_DROP
    else s.setEmStage p st { e with learn := e.learn ++ [q] }

/-- The outcome of a learn request at the head of the FIFO: the notifications it would issue, as kind, location and
entry, and the machine after it (Table 6.3). A marked location that holds the key is judged before an unmarked one (R261). DESIGN CHOICE:
INSERT_FAIL, whose entry has no place, shows the table with WAY and ROW 0 (log entry 118), and LEARNED enters the FIFO before EVICTED (log
entry 164). -/
def State.learnOutcome (s : State) (p st : Nat) (q : LearnReq) : List (Nat × Nat × Bytes) × State :=
  let t := q.table
  let entry := emEntry (s.emE p st t) false q.action q.key q.data
  let (hit, bad) := s.emFind p st t q.key (fun _ => true)
  let (marked, _) := s.emFind p st t q.key EmRow.marked
  let s := s.emParities p st bad
  match marked.or hit with
  | none =>
    match s.emInsert p st t entry 3 true with
    | (.inserted l, s) => ([(1, l, entry)], s.addCnt (C.EM_LEARNED p st t) 1)
    | (.stashed l, s) => ([(1, l, entry)], s.addCnt (C.EM_LEARNED p st t) 1)
    | (.evicted l v, s) => ([(1, l, entry), (5, l, v.bytes)], s.addCnt (C.EM_LEARNED p st t) 1)
    | (.failed, s) => ([(6, t * 2 ^ 20, entry)], s.addCnt (C.EM_INSERT_FAIL p st t) 1)
  | some l =>
    let r := s.emRow p st l
    let data := fun (b : Bytes) => (fitBytes (s.emE p st t) b).drop (4 + s.emK p st t)
    if r.static || r.marked then
      ([(3, l, fitBytes 48 r.bytes ++ slice entry 4 16)], s.addCnt (C.EM_MOVE_REFUSED p st t) 1)
    else if r.action = q.action ∧ data r.bytes = data entry then
      ([], (s.setEmRow p st l { r with ts := s.emUnit p st t, tsBad := false }).addCnt (C.EM_LEARN_REFRESH p st t) 1)
    else
      ([(2, l, entry)],
       (s.setEmRow p st l { bytes := entry, ts := s.emUnit p st t }).addCnt (C.EM_MOVED p st t) 1)

/-- The engine is free: no operation runs. -/
def EmStage.free (e : EmStage) : Bool := decide (e.busy = 0)

/-- The engine is free, and no source that R168 serves before the learn requests has work: no entry waits for invalidation, and no indirect
command stands. -/
def State.emLearnTurn (s : State) (p st : Nat) : Bool :=
  (s.emStage p st).free && (s.emStage p st).toClear.isEmpty && (s.emStage p st).flush.isNone && (s.emStage p st).job.isNone

/-- The machine after the learn request at the head of the FIFO; none where there is none, or where its enabled notifications
find no room and it waits (R181). -/
def State.learnNext (s : State) (p st : Nat) : Option State :=
  match (s.emStage p st).learn with
  | [] => none
  | q :: rest =>
    let s1 := s.setEmStage p st { s.emStage p st with learn := rest }
    let (notes, s2) := s1.learnOutcome p st q
    let on := notes.filter fun n => s.noteOn p st q.table n.1
    if s.noteRoom p st < on.length then none
    else some (on.foldl (fun s n => s.pushNote p st n.1 n.2.1 n.2.2) s2)

/-- The engine acts on the learn request at the head of the FIFO, in its turn (R168). -/
def State.learnProcess (s : State) (p st : Nat) : State :=
  if s.emLearnTurn p st then (s.learnNext p st).getD s else s

/-- One reinsertion in its turn (R168, R171): the head of the freed rows is taken; a stash entry that finds no place stays. -/
def State.stashReinsert (s : State) (p st : Nat) : State :=
  match (s.emStage p st).freed with
  | [] => s
  | loc :: rest =>
    if !s.emLearnTurn p st || (s.learnNext p st).isSome then s
    else
      let s := s.setEmStage p st { s.emStage p st with freed := rest }
      match s.stashPick p st loc with
      | none => s
      | some l =>
        let s := s.emTsRead p st l
        let r := s.emRow p st l
        match s.emPlace p st (locTable loc) 0 (r.key (s.emK p st (locTable loc))) with
        | (none, s) => s
        | (some d, s) => (s.setEmRow p st d r).setEmRow p st l r.clear

/-! ### Ageing and parity invalidation (R176 to R179) -/

/-- The visits of one sweep of the tables of a stage, in order: each index of each table, then its stash. Answers the
locations of visit `i`, none past the end. -/
def State.agerVisitLocs (s : State) (p st : Nat) : List Nat → Nat → Option (List Nat)
  | [], _ => none
  | t :: ts, i =>
    let d := s.emD p st t
    if i < d then some ((List.range 4).map fun w => wayLoc t w i)
    else if i = d then some (stashLocs t)
    else State.agerVisitLocs s p st ts (i - d - 1)

/-- The ager looks at one location: parity repair, then removal of an aged dynamic entry. Answers false when it stops at
a removal that it cannot report (R181). -/
def State.ageLoc (s : State) (p st loc : Nat) : Bool × State :=
  let t := locTable loc
  let r := s.emRow p st loc
  if !r.bad.isEmpty then (true, s.emParity p st loc false)
  else
    let s := s.emTsRead p st loc
    let r := s.emRow p st loc
    let limit := s.fld (R.STG_EM_AGE p st t) F.STG_EM_AGE.AGE_LIMIT
    let age := (s.emUnit p st t + 65536 - r.ts) % 65536
    if limit = 0 || !r.valid || r.static || r.marked || decide (age < limit) then (true, s)
    else if s.noteOn p st t 4 && decide (s.noteRoom p st = 0) then (false, s)
    else
      let s := (s.setEmRow p st loc r.clear).addCnt (C.EM_AGED p st t) 1
      (true, (s.pushNote p st 4 loc r.bytes).emFreed p st loc)

/-- One visit of the ager, for which it waits until the engine is free (R168, R176). It stays at a visit that it could not finish. -/
def State.agerVisit (s : State) (p st : Nat) : State :=
  if !(s.emStage p st).free then s
  else
  let tabs := (List.range 4).filter fun t => s.emDefined p st t
  let i := (s.emStage p st).ager
  let (i, locs) := match s.agerVisitLocs p st tabs i with
    | some l => (i, l)
    | none => (0, (s.agerVisitLocs p st tabs 0).getD [])
  let (ok, s) := locs.foldl (fun acc l => if acc.1 then acc.2.ageLoc p st l else acc) (true, s)
  s.setEmStage p st { s.emStage p st with ager := if ok then i + 1 else i }

/-- The engine, free for it, clears a row that failed parity and issues the notification (R168, R178). -/
def State.parityInvalidate (s : State) (p st : Nat) : State :=
  if !(s.emStage p st).free then s
  else
  match (s.emStage p st).toClear with
  | [] => s
  | loc :: rest =>
    let s := s.setEmStage p st { s.emStage p st with toClear := rest }
    let r := s.emRow p st loc
    if r.bad.isEmpty then s
    else (s.emClear p st loc).pushNote p st 7 loc r.bytes

/-! ### Indirect access (R182, R183) -/

/-- STG_IA_DATA as entry bytes. -/
def State.iaBytes (s : State) (p st n : Nat) : Bytes :=
  ((List.range ((n + 3) / 4)).flatMap fun k => natLE 4 (s.reg (R.STG_IA_DATA p st k)).toNat).take n

/-- Return an entry in STG_IA_DATA; the words beyond it are written zero. -/
def State.setIaBytes (s : State) (p st : Nat) (b : Bytes) : State :=
  (List.range 32).foldl (fun s k => s.setReg (R.STG_IA_DATA p st k) (BitVec.ofNat 32 (leNat (slice b (4 * k) 4)))) s

/-- Report a result and a location. DESIGN CHOICE: a miss, a failed INSERT, a flush and a refusal, of which the manual names no
location, show 0 (log entry 118). -/
def State.iaDone (s : State) (p st res loc : Nat) : State :=
  s.setReg (R.STG_IA_STATUS p st) (BitVec.ofNat 32 (res * 2 ^ 28 + loc % 2 ^ 20))

/-- The entry at a location and its timestamp, returned. DESIGN CHOICE: where the timestamp fails parity STG_IA_TS shows the unit that it is
rewritten to (R179, log entry 164). -/
def State.iaReturn (s : State) (p st loc : Nat) : State :=
  let s := s.emTsRead p st loc
  let r := s.emRow p st loc
  (s.setIaBytes p st (fitBytes (s.emE p st (locTable loc)) r.bytes)).setReg (R.STG_IA_TS p st) (BitVec.ofNat 32 r.ts)

/-- READ_ADDR. -/
def State.iaRead (s : State) (p st loc : Nat) : State :=
  let r := s.emRow p st loc
  let s := s.iaReturn p st loc
  if r.bad.isEmpty then s.iaDone p st 0 loc else (s.emParity p st loc false).iaDone p st 8 loc

/-- WRITE_ADDR. -/
def State.iaWrite (s : State) (p st loc : Nat) : State :=
  (s.emWrite p st loc (s.iaBytes p st (s.emE p st (locTable loc)))).iaDone p st 0 loc

/-- The location of the key in STG_IA_DATA, in the view of R262. -/
def State.iaFind (s : State) (p st t : Nat) : Option Nat × State :=
  let key := slice (s.iaBytes p st (s.emE p st t)) 4 (s.emK p st t)
  let (hit, bad) := s.emFind p st t key (seen (s.iaTag p))
  (hit, s.emParities p st bad)

/-- LOOKUP. -/
def State.iaLookup (s : State) (p st t : Nat) : State :=
  match s.iaFind p st t with
  | (none, s) => s.iaDone p st 1 0
  | (some l, s) => (s.iaReturn p st l).iaDone p st 0 l

/-- The entry that INSERT and the group operations take from STG_IA_DATA: VALID is set, STATIC, ACTION and DATA are as
written. -/
def State.iaEntry (s : State) (p st t : Nat) : Bytes :=
  let e := s.emE p st t
  let k := s.emK p st t
  let b := s.iaBytes p st e
  emEntry e (nbit (byteAt b 3).toNat 6) ((byteAt b 2).toNat % 16) (slice b 4 k) (b.drop (4 + k))

/-- INSERT. -/
def State.iaInsert (s : State) (p st t : Nat) : State :=
  match s.iaFind p st t with
  | (some l, s) => s.iaDone p st 5 l
  | (none, s) =>
    match s.emInsert p st t (s.iaEntry p st t) 3 true with
    | (.inserted l, s) => s.iaDone p st 0 l
    | (.stashed l, s) => s.iaDone p st 2 l
    | (.evicted l v, s) => (s.setIaBytes p st (fitBytes (s.emE p st t) v.bytes)).iaDone p st 3 l
    | (.failed, s) => s.iaDone p st 4 0

/-- UPDATE. -/
def State.iaUpdate (s : State) (p st t : Nat) : State :=
  match s.iaFind p st t with
  | (none, s) => s.iaDone p st 1 0
  | (some l, s) => (s.emWrite p st l (s.iaEntry p st t)).iaDone p st 0 l

/-- DELETE. -/
def State.iaDelete (s : State) (p st t : Nat) : State :=
  match s.iaFind p st t with
  | (none, s) => s.iaDone p st 1 0
  | (some l, s) => ((s.emClear p st l).emFreed p st l).iaDone p st 0 l

/-- The engine takes an operation as source 2: GO reads 1 until it is done (R168, R250, log entry 136). -/
def State.iaTake (s : State) (p st : Nat) (j : EngJob) : State :=
  let s := s.setEmStage p st { s.emStage p st with job := some j }
  s.setBit (R.STG_IA_CMD p st) F.STG_IA_CMD.GO true

/-- FLUSH_DYNAMIC starts: GO reads 1 and RESULT 0xF until its last step. -/
def State.iaFlush (s : State) (p st : Nat) : State :=
  let s := s.setEmStage p st { s.emStage p st with flush := some 0 }
  (s.setBit (R.STG_IA_CMD p st) F.STG_IA_CMD.GO true).iaDone p st 0xF 0

/-- Clear the dynamic entries among some locations. -/
def State.flushLocs (s : State) (p st : Nat) (locs : List Nat) : State :=
  locs.foldl (fun s l =>
    let r := s.emRow p st l
    if r.valid && !r.static then (s.emClear p st l).emFreed p st l else s) s

/-- One step of FLUSH_DYNAMIC: 16 consecutive indexes, or at the end the stash (R182). What runs and invalidations come first (R168). -/
def State.flushStep (s : State) (p st : Nat) : State :=
  match (if (s.emStage p st).free && (s.emStage p st).toClear.isEmpty then (s.emStage p st).flush else none) with
  | none => s
  | some i =>
    let t := s.fld (R.STG_IA_CMD p st) F.STG_IA_CMD.TABLE
    let d := s.emD p st t
    if i * 16 < d then
      let locs := (List.range 16).flatMap fun k => (List.range 4).map fun w => wayLoc t w (i * 16 + k)
      let s := s.flushLocs p st locs
      s.setEmStage p st { s.emStage p st with flush := some (i + 1) }
    else
      let s := s.flushLocs p st (stashLocs t)
      let s := s.setEmStage p st { s.emStage p st with flush := none }
      (s.setBit (R.STG_IA_CMD p st) F.STG_IA_CMD.GO false).iaDone p st 0 0

/-- STG_IA_CMD holds a bad command (result 0x6 of Table 6.6). -/
def State.iaBad (s : State) (p st : Nat) : Bool :=
  let a := R.STG_IA_CMD p st
  let op := s.fld a F.STG_IA_CMD.OP
  let t := s.fld a F.STG_IA_CMD.TABLE
  let row := s.fld a F.STG_IA_CMD.ROW
  decide (7 ≤ op) || !s.emDefined p st t ||
    (decide (op ≤ 1) && (if s.bit a F.STG_IA_CMD.STASH then decide (15 < row) else decide (s.emD p st t ≤ row)))

/-- The operation that STG_IA_CMD holds is judged, and waits for the engine (R168, R182; refusals of Table 6.6). DESIGN CHOICE: where
0x7 and 0x6 both apply, 0x7 is given (log entry 118). -/
def State.iaGo (s : State) (p st : Nat) : State :=
  if s.pipeHeld p || (s.pipe p).img.isNone then
    (s.cause (R.STG_CAUSE p st) F.STG_CAUSE.IDLE_VIOL).iaDone p st 7 0
  else if s.iaBad p st then s.iaDone p st 6 0
  else (s.iaTake p st .indirect).iaDone p st 0xF 0

/-- The engine carries out the operation that STG_IA_CMD holds (R182). -/
def State.iaRun (s : State) (p st : Nat) : State :=
  let a := R.STG_IA_CMD p st
  let op := s.fld a F.STG_IA_CMD.OP
  let t := s.fld a F.STG_IA_CMD.TABLE
  let row := s.fld a F.STG_IA_CMD.ROW
  let loc := if s.bit a F.STG_IA_CMD.STASH then stashLoc t row else wayLoc t (s.fld a F.STG_IA_CMD.WAY) row
  if s.iaBad p st then s.iaDone p st 6 0
  else if op = 0 then s.iaRead p st loc
  else if op = 1 then s.iaWrite p st loc
  else if op = 2 then s.iaLookup p st t
  else if op = 3 then s.iaInsert p st t
  else if op = 4 then s.iaUpdate p st t
  else if op = 5 then s.iaDelete p st t
  else s.iaFlush p st

/-- STG_NOTE_CTL.POP removes the head record. -/
def State.notePop (s : State) (p st : Nat) : State :=
  s.setEmStage p st { s.emStage p st with notes := (s.emStage p st).notes.drop 1 }

/-! ### Reset (R184) -/

/-- A Pitch reset of a stage: every entry, both FIFOs and the stash are emptied, a running operation aborts with 0x7, the
ager restarts. A group operation gives its own result (R263). -/
def State.emReset (s : State) (p st : Nat) : State :=
  let running := s.bit (R.STG_IA_CMD p st) F.STG_IA_CMD.GO
  let group := match (s.emStage p st).job with
    | some (.group _) => true
    | _ => false
  let s := (s.setEmStage p st {}).setBit (R.STG_IA_CMD p st) F.STG_IA_CMD.GO false
  if running && !group then s.iaDone p st 7 0 else s

end Sys2Proof.Machine
end

