-- ==== Sys2Proof/Machine/Exc.lean ====
section
/-! DEFINITION. Exception copies (R147, R231, R462, R584 to R586): the judgement, the 64-byte header, the steering by
EXC_CODE, and the queues of the rings and of the Ostler clusters. -/

namespace Sys2Proof.Machine

/-! ### Ostler quads (R76, R429) -/

/-- The owner of quad q, and the quads of an owner. -/
def State.quadOwner (s : State) (q : Nat) : Nat := s.fld (R.PIT_OST_OWNER q) F.PIT_OST_OWNER.OWNER
def State.quadsOf (s : State) (n : Nat) : List Nat := (List.range 128).filter fun q => s.quadOwner q == n

/-- Owner n has a quad in cluster c. -/
def State.inCluster (s : State) (n c : Nat) : Bool := (s.quadsOf n).any fun q => q / 32 == c

/-! ### The queues -/

/-- The exception queue of owner n in cluster c (R462). -/
def State.excQ (s : State) (n c : Nat) : List ExcCopy := SMap.get (fun _ => []) s.ost.exc (n * 4 + c)
def State.setExcQ (s : State) (n c : Nat) (q : List ExcCopy) : State :=
  { s with ost := { s.ost with exc := SMap.put (fun _ => []) s.ost.exc (n * 4 + c) q } }

/-- The FIFO of exception ring r of function f (R586). -/
def State.ringQ (s : State) (f r : Nat) : List ExcCopy := SMap.get (fun _ => []) s.dma.fifo (f * 4 + r)
def State.setRingQ (s : State) (f r : Nat) (q : List ExcCopy) : State :=
  { s with dma := { s.dma with fifo := SMap.put (fun _ => []) s.dma.fifo (f * 4 + r) q } }

/-- A copy that is not made (R584). -/
def State.excNotMade (s : State) (n : Nat) : State :=
  (s.addCnt (C.DMA_EXC_DROP n) 1).cause (R.DMA_CAUSE n) F.DMA_CAUSE.EXC_DROP

/-- A copy that an Ostler queue does not take (R462). -/
def State.excOstDrop (s : State) (n : Nat) : State :=
  ((s.addCnt (C.OST_EXC_DROP n) 1).cause (R.OST_OWN_CAUSE n) F.OST_OWN_CAUSE.EXC_DROP).excNotMade n

/-- The destination of an EXC_CODE (R584). -/
def State.excSteer (s : State) (n code : Nat) : Nat :=
  (s.reg (R.DMA_EXC_STEER n (code / 4))).toNat / 2 ^ (8 * (code % 4)) % 256

/-- The requester that holds a copy steered to `d`. -/
def excRq (n d : Nat) : Option Nat :=
  if d = 1 ∨ d = 2 then some (rqCode n 4) else if 0x10 ≤ d ∧ d ≤ 0x13 then some (rqCode n (d - 0x10)) else none

/-- The hold of a copy, which it may have already (R274). -/
def State.excHold (s : State) (rq h : Nat) (held : Bool) : Bool × State := if held then (true, s) else s.bpmCopy rq h

/-- A copy that is not made gives up its hold. -/
def State.excFree (s : State) (n d h : Nat) (held : Bool) : State :=
  match excRq n d with
  | some rq => if held then s.bpmRelease rq h else s
  | none => s

/-- Send a copy on, steered to `d`: it has its hold, or takes it, or is not made (R274, R462, R584, R586). -/
def State.excRoute (s : State) (n d : Nat) (held : Bool) (c : ExcCopy) : State :=
  if d = 1 ∨ d = 2 then
    if 64 ≤ (s.ringQ n d).length then (s.excFree n d c.handle held).excNotMade n
    else
      match s.excHold (rqCode n 4) c.handle held with
      | (true, s) => s.setRingQ n d (s.ringQ n d ++ [c])
      | (false, s) => s.excNotMade n
  else if 0x10 ≤ d ∧ d ≤ 0x13 ∧ s.inCluster n (d - 0x10) then
    let k := d - 0x10
    if 256 ≤ (s.excQ n k).length then (s.excFree n d c.handle held).excOstDrop n
    else
      match s.excHold (rqCode n k) c.handle held with
      | (true, s) => s.setExcQ n k (s.excQ n k ++ [c])
      | (false, s) => s.excNotMade n
  else (s.excFree n d c.handle held).excNotMade n

/-! ### The header (Table 22.6) -/

/-- The header of a copy made of packet k, with metadata `m`, at POINT 0 (parser, ingress) or 1 (egress). -/
def excHeader (n code colour point : Nat) (k : Pkt) (m : List Nat) : Bytes :=
  let r := fun i => m.getD i 0
  let w0 := code * 2 ^ 24 + colour * 2 ^ 23 + point * 2 ^ 22 + r 6 / 2 ^ 20 % 4 * 2 ^ 20 + n * 2 ^ 15 + k.port % 2 ^ 10
  ([w0, r 7, r 0, r 1, r 2, r 3, r 4, r 5, if point = 1 then r 10 else 0] ++ (List.range 7).map fun i => r (12 + i)).flatMap
    (natLE 4)

/-- A packet of pipeline p offers an exception copy with `code`. The copies of one time clock cycle are judged when it ends; from the end of
the tick until then the copy keeps its frame, where it can (R147, R149, R231, R276; log entry 132). -/
def State.excOffer (s : State) (p code point : Nat) (k : Pkt) : State :=
  let n := s.ownerOfPipe p
  if !s.excEnabled n then s
  else
    s.setPipe p { s.pipe p with excWait := (s.pipe p).excWait ++ [⟨code, point, k, s.excSteer n code, false, true⟩] }

/-- The copies offered in a tick ask for their holds when it ends, after its releases, in ascending pipeline (R276). -/
def State.excAsks (s : State) : State :=
  (List.range 16).foldl (fun s p =>
    let xs := (s.pipe p).excWait
    if !xs.any (·.ask) then s
    else
      let (ys, s) := xs.foldl (fun (acc : List ExcWait × State) x =>
        match if x.ask then excRq (s.ownerOfPipe p) x.steer else none with
        | none => (acc.1 ++ [{ x with ask := false }], acc.2)
        | some rq =>
          match acc.2.bpmCopy rq x.pkt.handle with
          | (true, s) => (acc.1 ++ [{ x with ask := false, held := true }], s)
          | (false, _) => (acc.1 ++ [{ x with ask := false }], acc.2)) ([], s)
      s.setPipe p { s.pipe p with excWait := ys }) s

/-- The policer of the Pitch of pipeline p judges a copy, and a green or yellow copy is made. While EN is 0 none is made and nothing is
counted (R147, R148). -/
def State.excSettle (s : State) (p : Nat) (x : ExcWait) : State :=
  let n := s.ownerOfPipe p
  if !s.excEnabled n then s.excFree n x.steer x.pkt.handle x.held
  else
  match s.excJudge p x.pkt.len with
  | (.red, s) => s.excFree n x.steer x.pkt.handle x.held
  | (c, s) =>
    s.excRoute n x.steer x.held
      { handle := x.pkt.handle, hdr := excHeader n x.code (if c = .yellow then 1 else 0) x.point x.pkt x.pkt.m, len := x.pkt.len }

/-- A time clock cycle ends: the copies offered in it are judged in ascending pipeline index and, within a pipeline, berth index (R149). DESIGN
CHOICE: copies of one pipeline with the same berth index, of its parser and its two exits or of two ticks of the cycle, on whose order R149 is
silent, are judged in the order in which they were offered (log entry 132). -/
def State.excTurn (s : State) : State :=
  (List.range 16).foldl (fun s p =>
    let xs := sortBy (fun a b => decide (a.pkt.berth ≤ b.pkt.berth)) (s.pipe p).excWait
    if xs.isEmpty then s
    else xs.foldl (fun s x => s.excSettle p x) (s.setPipe p { s.pipe p with excWait := [] })) s

end Sys2Proof.Machine
end

