-- ==== Sys2Proof/Machine/Tc.lean ====
section
/-! DEFINITION. TCAM tables and the TCAM engine of a pipeline (chapter "Associative Search"): search, ordered insertion,
the scrubber, invalidation and indirect access. An entry is keyed by (2 × stage + table) × 2^17 + A. -/

namespace Sys2Proof.Machine

/-! ### Layout (R186 to R192) -/

def State.tcPipe (s : State) (p : Nat) : TcPipe := SMap.get (fun _ => {}) s.tc p
def State.setTcPipe (s : State) (p : Nat) (e : TcPipe) : State := { s with tc := SMap.put (fun _ => {}) s.tc p e }
def State.tcRow (s : State) (p key : Nat) : TcRow := SMap.get (fun _ => {}) (s.tcPipe p).rows key
def State.setTcRow (s : State) (p key : Nat) (r : TcRow) : State :=
  s.setTcPipe p { s.tcPipe p with rows := SMap.put (fun _ => {}) (s.tcPipe p).rows key r }

def tcKey (st t a : Nat) : Nat := (2 * st + t) * 2 ^ 17 + a

def State.tcDefined (s : State) (p st t : Nat) : Bool :=
  decide (st < 24 ∧ t < 2) && s.bit (R.TC_CFG p st t) F.TC_CFG.DEFINED
/-- W, and the number of slices. -/
def State.tcW (s : State) (p st t : Nat) : Nat := s.fld (R.TC_CFG p st t) F.TC_CFG.WIDTH
def State.tcSlices (s : State) (p st t : Nat) : Nat := s.fld (R.TC_CFG p st t) F.TC_CFG.SLICES
/-- The number of banks: 1 without bank select. -/
def State.tcBanks (s : State) (p st t : Nat) : Nat := 2 ^ s.fld (R.TC_CFG p st t) F.TC_CFG.BANKS

/-- Bytes held little-endian in words of 4 from register `f`, as a key of `n` bytes: the first byte most significant. -/
def keyOfWords (f : Nat → Word) (n : Nat) : Nat :=
  beNat (((List.range 20).flatMap fun k => natLE 4 (f k).toNat).take n)

/-- Global mask set g in use by a table, over its 10W key bytes (R191). -/
def State.tcMask (s : State) (p st t g : Nat) : Nat :=
  keyOfWords (fun k => SMap.get (fun _ => 0xFFFFFFFF) s.gmask (((p * 24 + st) * 2 + t) * 80 + g * 20 + k))
    (10 * s.tcW p st t)

/-- TC_GMASK_CTL.TAKE copies the four staged sets into use (R192). -/
def State.gmaskTake (s : State) (p st t : Nat) : State :=
  (List.range 80).foldl (fun s i =>
    let k := ((p * 24 + st) * 2 + t) * 80 + i
    let v := s.reg (R.TC_GMASK p st t (i / 20) (i % 20))
    { s with gmask := SMap.put (fun _ => 0xFFFFFFFF) s.gmask k v }) s

/-- The bank that the bank bits of a key or value name (R199). -/
def State.tcBankOf (s : State) (p st t v : Nat) : Nat :=
  let top := v / 2 ^ (80 * s.tcW p st t - 8)
  let b := s.tcBanks p st t
  if b = 4 then top / 64 else if b = 2 then top / 128 else 0

/-- The first slice and the number of slices of a bank. -/
def State.tcBankSlices (s : State) (p st t b : Nat) : Nat × Nat :=
  let n := s.tcSlices p st t / s.tcBanks p st t
  (b * n, n)

/-! ### Faults (R206, R207) -/

/-- Where the entry found at `key` stands for good: INSERT moves what it has copied out of its old row (R202). -/
def TcPipe.lasting (q : TcPipe) (key : Nat) : Nat :=
  match q.move.bind (·.pair) with
  | some (dst, src) => if key = src then dst else key
  | none => key

/-- A real difference or a shadow parity failure of an entry: counted, recorded where it was found, and queued for invalidation where the
entry lasts (R206, R207). -/
def State.tcFault (s : State) (p key : Nat) (parity : Bool) : State :=
  let f := if parity then F.TC_CAUSE.SHADOW_PAR else F.TC_CAUSE.MISMATCH
  let s := s.addCnt (if parity then C.TC_SHADOW_PAR p else C.TC_MISMATCH p) 1
  let st := key / 2 ^ 18
  let s := if s.bit (R.TC_CAUSE p) f then s
    else s.setReg (R.TC_ERR_ADDR p)
      (BitVec.ofNat 32 (2 ^ 31 + (if parity then 2 ^ 30 else 0) + st * 2 ^ 19 + key / 2 ^ 17 % 2 * 2 ^ 18 + key % 2 ^ 17))
  let s := s.cause (R.TC_CAUSE p) f
  let e := s.tcPipe p
  let k := e.lasting key
  if e.toClear.contains k then s else s.setTcPipe p { e with toClear := e.toClear ++ [k] }

/-! ### Search (R191, R193, R199, R246) -/

/-- The array row matches a key under mask g. -/
def TcRow.matches (r : TcRow) (key g : Nat) : Bool :=
  r.aValid && decide (Nat.land (Nat.land (Nat.xor r.aV key) r.aM) g = 0)

/-- The slice winners of a search in view v, lowest slice first: in each slice of the bank the lowest visible matching
row. -/
def State.tcWinners (s : State) (p st t key g v : Nat) : List (Nat × TcRow) :=
  let (lo, n) := s.tcBankSlices p st t (s.tcBankOf p st t key)
  let base := tcKey st t 0
  let hits := (s.tcPipe p).rows.filter fun e =>
    decide (base + lo * 1024 ≤ e.1 ∧ e.1 < base + (lo + n) * 1024) && nbit e.2.see v && e.2.matches key g
  hits.foldl (fun acc e => if acc.any fun w => w.1 / 1024 == e.1 / 1024 then acc else acc ++ [e]) []

/-- The winner among slice winners whose shadow parity is good: the greatest PRIO, then the lowest slice. -/
def tcBest (ws : List (Nat × TcRow)) : Option (Nat × TcRow) :=
  (ws.filter fun w => w.2.bad.isEmpty).foldl (fun acc w =>
    match acc with
    | none => some w
    | some b => if b.2.prio < w.2.prio then some w else some b) none

/-- The other row in which the entry of key k stands while INSERT moves it (R203). -/
def TcPipe.twin (q : TcPipe) (k : Nat) : Option Nat :=
  (q.move.bind (·.pair)).bind fun e => if e.1 = k then some e.2 else if e.2 = k then some e.1 else none

/-- A search: the winner, and the machine with the faulty slice winners handled. It gives the address of either copy of an entry that
moves (R203). -/
def State.tcSearch (s : State) (p st t key g v : Nat) : Option (Nat × TcRow) × Bool × State :=
  let ws := s.tcWinners p st t key g v
  let bad := ws.filter fun w => !w.2.bad.isEmpty
  let s' := bad.foldl (fun s w => s.tcFault p w.1 true) s
  match tcBest ws with
  | none => (none, !bad.isEmpty, s')
  | some w =>
    match (s.tcPipe p).twin w.1 with
    | none => (some w, !bad.isEmpty, s')
    | some k =>
      let (other, s') := s'.freeBool
      (some (if other then k else w.1, w.2), !bad.isEmpty, s')

/-- A packet's search, counted (Table 7.5). -/
def State.tcLookup (s : State) (p st t key g v : Nat) : LookRes × State :=
  let (best, bad, s) := s.tcSearch p st t key g v
  let s := s.addCnt (C.TC_SEARCHES p st t) 1
  let s := if bad then s.addCnt (C.TC_SLICE_PAR_MISS p st t) 1 else s
  match best with
  | none => ({}, s)
  | some (k, r) =>
    ({ hit := true, action := r.action, addr := k % 2 ^ 17, data := natBE 8 r.data }, s.addCnt (C.TC_HITS p st t) 1)

/-! ### Writing (R190, R202) -/

/-- An entry with both copies equal, its value normalised under its mask (R190). -/
def tcEntry (v m prio action data see : Nat) : TcRow :=
  { aValid := true, aV := Nat.land v m, aM := m, valid := true, v := Nat.land v m, msk := m, prio := prio,
    action := action, data := data, see := see }

/-- The row with VALID cleared in both copies, and visible to both tags again. -/
def TcRow.clear (r : TcRow) : TcRow := { r with aValid := false, valid := false, see := 3 }

/-- The location belongs to a group: it is visible in one view only (R249). A flip of its VALID leaves it in the group (R261). -/
def TcRow.marked (r : TcRow) : Bool := decide (r.see ≠ 3)

/-- The row as a copy writes it: its value normalised under its mask in both copies (R190). -/
def TcRow.copied (r : TcRow) : TcRow := { r with aV := Nat.land r.aV r.aM, v := Nat.land r.v r.msk }

/-- One copy of a row, whole, in the array and the shadow (R202). An entry found faulty is looked for where it now goes (R206). -/
def State.tcCopy (s : State) (p : Nat) (c : Nat × Nat) : State :=
  let s := s.setTcRow p c.1 (s.tcRow p c.2).copied
  s.setTcPipe p { s.tcPipe p with toClear := (s.tcPipe p).toClear.map fun k => if k = c.2 then c.1 else k }

/-- Where the ordered insertion into the candidate slices puts an entry (R202): its address, and the copies that free it in their
order, each as destination and source key; none when FULL. DESIGN CHOICE: where VALID differs between array and shadow, a row is free to INSERT,
and has VALID 0 to DELETE_ADDR and UPDATE_RESULT, as the shadow has it (log entry 174). -/
def State.tcPlace (s : State) (p st t lo n : Nat) (r : TcRow) : Option (Nat × List (Nat × Nat)) :=
  let free := fun sl i => !(s.tcRow p (tcKey st t (sl * 1024 + i))).valid
  match ((List.range n).map (lo + ·)).find? fun sl => (List.range 1024).any (free sl) with
  | none => none
  | some sl =>
    let base := tcKey st t (sl * 1024)
    let row := fun i => s.tcRow p (base + i)
    let i := ((List.range 1024).filter fun k => (row k).valid && decide (r.prio ≤ (row k).prio)).foldl
      (fun _ k => k + 1) 0
    let jd := ((List.range 1024).find? fun k => decide (i < k) && free sl k)
    let ju := ((List.range i).filter (free sl)).getLast?
    let down := fun j => some (sl * 1024 + i, (List.range (j - i)).map fun x => (base + j - x, base + j - x - 1))
    let up := fun j => some (sl * 1024 + (i - 1), (List.range (i - 1 - j)).map fun x => (base + j + x, base + j + x + 1))
    if i < 1024 && free sl i then some (sl * 1024 + i, [])
    else
      match jd, ju with
      | some j, none => down j
      | some j, some u => if j - i ≤ i - u then down j else up u
      | none, some u => up u
      | none, none => none

/-- INSERT with its bank rule (R200, R202): the copies to make, or the result of Table 7.4 that refuses it. -/
def State.tcInsert (s : State) (p st t : Nat) (r : TcRow) : Nat ⊕ TcMove :=
  let w := s.tcW p st t
  let b := s.tcBanks p st t
  let need := if b = 4 then 0xC0 else if b = 2 then 0x80 else 0
  if Nat.land (r.msk / 2 ^ (80 * w - 8)) need ≠ need then .inl 3
  else
    let (lo, n) := s.tcBankSlices p st t (s.tcBankOf p st t r.v)
    match s.tcPlace p st t lo n r with
    | none => .inl 2
    | some (a, cs) => .inr { todo := cs, key := tcKey st t a, row := r, copies := cs.length }

/-- A location changed outside a group operation: a marked one leaves its group (R262). -/
def State.tcOutside (s : State) (p : Nat) (old : TcRow) : State := if old.marked then s.grpLost p else s

/-- An operation of the engine runs: it has had a tick, or an INSERT makes its copies. -/
def TcPipe.runs (q : TcPipe) : Bool := q.move.isSome || decide (q.busy ≠ 0)

/-- The engine invalidates the entry found faulty first, in one tick, before any operation but one that runs (R201, R206, R208). DESIGN CHOICE: the
invalidation keeps its row: where the operation that ran has put another entry there meanwhile, it is that entry which is cleared (log entry
174). -/
def State.tcInvalidate (s : State) (p : Nat) : State :=
  match (s.tcPipe p).toClear with
  | [] => s
  | k :: rest =>
    if (s.tcPipe p).runs then s
    else
      let s := s.setTcPipe p { s.tcPipe p with toClear := rest }
      let r := s.tcRow p k
      (s.setTcRow p k r.clear).tcOutside p r

/-! ### The scrubber (R204 to R206) -/

/-- The blocks that belong to tables, ascending, each with its stage, table, slice and chain position. -/
def tcBlocks (img : Image) : List (Nat × Nat × Nat × Nat × Nat) :=
  let all := (List.range 24).flatMap fun st => (List.range 2).flatMap fun t =>
    match (img.stages.getD st {}).tc.getD t none with
    | none => []
    | some tb => (List.range tb.slices.length).flatMap fun sl => (List.range tb.width).map fun j =>
        (tb.slices.getD sl 0 + j, st, t, sl, j)
  sortBy (fun a b => decide (a.1 ≤ b.1)) all

/-- What comparing the two copies of one block row finds. -/
inductive TcDiff where
  | same
  | normal
  | mismatch
  | parity
  deriving DecidableEq, Repr

/-- Compare the array and shadow of chain position j of an entry W blocks wide (R204 to R206). -/
def tcCompare (r : TcRow) (w j : Nat) : TcDiff :=
  let seg := fun (x : Nat) => x / 2 ^ (80 * (w - 1 - j)) % 2 ^ 80
  let am := seg r.aM
  let sm := seg r.msk
  let av := seg r.aV
  let sv := seg r.v
  if r.bad.contains j then .parity
  else if (j = 0 ∧ r.aValid ≠ r.valid) ∨ am ≠ sm ∨ Nat.land (Nat.xor av sv) am ≠ 0 then .mismatch
  else if Nat.land av am ≠ av ∨ Nat.land sv sm ≠ sv then .normal
  else .same

/-- A row with the value bits of segment j under don't-care mask bits zero in both copies. -/
def tcNormalise (r : TcRow) (w j : Nat) : TcRow :=
  let lo := 80 * (w - 1 - j)
  let seg := fun (x : Nat) => x / 2 ^ lo % 2 ^ 80
  { r with aV := putBits r.aV lo 80 (Nat.land (seg r.aV) (seg r.aM)), v := putBits r.v lo 80 (Nat.land (seg r.v) (seg r.msk)) }

/-- TC_SCRUB_CTL.INTERVAL as it acts, in ticks. -/
def State.scrubEvery (s : State) (p : Nat) : Nat := max 4 (min 1024 (s.fld (R.TC_SCRUB_CTL p) F.TC_SCRUB_CTL.INTERVAL))

/-- Four times INTERVAL ticks have passed since the scrubber's last visit: it goes ahead of the indirect command (R201). -/
def State.scrubLate (s : State) (p : Nat) : Bool :=
  s.bit (R.TC_SCRUB_CTL p) F.TC_SCRUB_CTL.EN && decide (4 * s.scrubEvery p ≤ (s.tcPipe p).since)

/-- It is the scrubber's turn (R201): no invalidation waits, no operation runs, and none stands before it. -/
def State.scrubTurn (s : State) (p : Nat) : Bool :=
  let q := s.tcPipe p
  q.toClear.isEmpty && !q.runs && (q.job.isNone || s.scrubLate p)

/-- One visit of the scrubber. -/
def State.scrubStep (s : State) (p : Nat) : State :=
  let s := s.setTcPipe p { s.tcPipe p with since := 0 }
  match (s.pipe p).img with
  | none => s
  | some img =>
    let blocks := tcBlocks img
    let a := R.TC_SCRUB_POS p
    let b := s.fld a F.TC_SCRUB_POS.BLOCK
    let row := s.fld a F.TC_SCRUB_POS.ROW
    if !s.bit (R.TC_SCRUB_CTL p) F.TC_SCRUB_CTL.EN || blocks.isEmpty then s
    else
      let at_ := (blocks.find? fun x => decide (b ≤ x.1))
      let (blk, st, t, sl, j) := at_.getD (blocks.headD (0, 0, 0, 0, 0))
      let row := if blk = b then row else 0
      let k := tcKey st t (sl * 1024 + row)
      let r := s.tcRow p k
      let w := s.tcW p st t
      let s := s.addCnt (C.TC_SCRUB_ROWS p) 1
      let s := match tcCompare r w j with
        | .same => s
        | .normal => ((s.setTcRow p k (tcNormalise r w j)).addCnt (C.TC_NORMALISED p) 1).cause (R.TC_CAUSE p) F.TC_CAUSE.NORMALISED
        | .mismatch => s.tcFault p k false
        | .parity => s.tcFault p k true
      let nextBlk := ((blocks.find? fun x => decide (blk < x.1)).getD (blocks.headD (0, 0, 0, 0, 0))).1
      let (b', r') := if row + 1 < 1024 then (blk, row + 1) else (nextBlk, 0)
      (s.setFld a F.TC_SCRUB_POS.BLOCK b').setFld a F.TC_SCRUB_POS.ROW r'

/-- A visit of the scrubber in its turn. -/
def State.scrubVisit (s : State) (p : Nat) : State := if s.scrubTurn p then s.scrubStep p else s

/-! ### Indirect access (R210) -/

/-- Report a result and an address; MOVES shows the copies of the last INSERT. DESIGN CHOICE: of READ_ADDR, DELETE_ADDR and UPDATE_RESULT
the address is the commanded one after result 0x1 too; another result of which the manual names no address shows 0 (log entry 118). -/
def State.tcDone (s : State) (p res addr : Nat) : State :=
  (s.setFld (R.TC_IA_STATUS p) F.TC_IA_STATUS.RESULT res).setFld (R.TC_IA_STATUS p) F.TC_IA_STATUS.ADDR (addr % 2 ^ 17)

/-- The value and mask in the indirect registers. -/
def State.tcIaVal (s : State) (p w : Nat) : Nat := keyOfWords (fun k => s.reg (R.TC_IA_VAL p k)) (10 * w)
def State.tcIaMask (s : State) (p w : Nat) : Nat := keyOfWords (fun k => s.reg (R.TC_IA_MASK p k)) (10 * w)

/-- DATA and ACTION in the indirect registers. -/
def State.tcIaData (s : State) (p : Nat) : Nat :=
  s.fld (R.TC_IA_RES_HI p) F.TC_IA_RES_HI.DATA_HI * 2 ^ 32 + (s.reg (R.TC_IA_RES_LO p)).toNat
def State.tcIaAction (s : State) (p : Nat) : Nat := s.fld (R.TC_IA_RES_HI p) F.TC_IA_RES_HI.ACTION

/-- The entry that the indirect registers hold. -/
def State.tcIaEntry (s : State) (p st t see : Nat) : TcRow :=
  let w := s.tcW p st t
  tcEntry (s.tcIaVal p w) (s.tcIaMask p w) (s.fld (R.TC_IA_ENT p) F.TC_IA_ENT.PRIO) (s.tcIaAction p) (s.tcIaData p) see

/-- A key as the words of TC_IA_VAL or TC_IA_MASK show it. -/
def keyWords (w v : Nat) : List Word :=
  let bs := fitBytes 80 (natBE (10 * w) v)
  (List.range 20).map fun k => BitVec.ofNat 32 (leNat (slice bs (4 * k) 4))

/-- Return the shadow of an entry in the indirect registers. -/
def State.tcReturn (s : State) (p st t : Nat) (r : TcRow) : State :=
  let w := s.tcW p st t
  let put := fun (f : Nat → Nat) (ws : List Word) (s : State) =>
    (List.range 20).foldl (fun s k => s.setReg (f k) (ws.getD k 0)) s
  let s := put (R.TC_IA_VAL p) (keyWords w r.v) s
  let s := put (R.TC_IA_MASK p) (keyWords w r.msk) s
  let s := (s.setBit (R.TC_IA_ENT p) F.TC_IA_ENT.VALID r.valid).setFld (R.TC_IA_ENT p) F.TC_IA_ENT.PRIO r.prio
  let s := s.setReg (R.TC_IA_RES_HI p) (BitVec.ofNat 32 (r.action * 2 ^ 28 + r.data / 2 ^ 32))
  s.setReg (R.TC_IA_RES_LO p) (BitVec.ofNat 32 r.data)

/-- READ_ADDR: the shadow is returned and compared with the array over every block of the chain. -/
def State.tcRead (s : State) (p st t a : Nat) : State :=
  let r := s.tcRow p (tcKey st t a)
  let w := s.tcW p st t
  let ds := (List.range w).map (tcCompare r w)
  let s := s.tcReturn p st t r
  if ds.contains .parity then (s.tcFault p (tcKey st t a) true).tcDone p 6 a
  else if ds.contains .mismatch then (s.tcFault p (tcKey st t a) false).tcDone p 6 a
  else s.tcDone p (if r.valid then 0 else 1) a

/-- WRITE_ADDR. -/
def State.tcWrite (s : State) (p st t a : Nat) : State :=
  let k := tcKey st t a
  ((s.setTcRow p k (s.tcIaEntry p st t 3)).tcOutside p (s.tcRow p k)).tcDone p 0 a

/-- DELETE_ADDR. DESIGN CHOICE: after result 0x1 ADDR shows the commanded address (log entry 118). -/
def State.tcDelete (s : State) (p st t a : Nat) : State :=
  let r := s.tcRow p (tcKey st t a)
  if !r.valid then s.tcDone p 1 a
  else ((s.setTcRow p (tcKey st t a) r.clear).tcOutside p r).tcDone p 0 a

/-- UPDATE_RESULT: VALID, V, M and PRIO are unchanged; a location it writes becomes visible to both tags (R262). -/
def State.tcUpdate (s : State) (p st t a : Nat) : State :=
  let r := s.tcRow p (tcKey st t a)
  if !r.valid then s.tcDone p 1 a
  else
    let r' := { r with action := s.tcIaAction p, data := s.tcIaData p, see := 3 }
    ((s.setTcRow p (tcKey st t a) r').tcOutside p r).tcDone p 0 a

/-- SEARCH on the engine's own port, in the view of R262. A slice winner whose parity fails counts as in any search (R207). -/
def State.tcIaSearch (s : State) (p st t : Nat) : State :=
  let g := s.tcMask p st t (s.fld (R.TC_IA_ENT p) F.TC_IA_ENT.GSEL)
  let (best, bad, s) := s.tcSearch p st t (s.tcIaVal p (s.tcW p st t)) g (s.iaTag p)
  let s := if bad then s.addCnt (C.TC_SLICE_PAR_MISS p st t) 1 else s
  match best with
  | none => s.tcDone p 1 0
  | some (k, r) => (s.tcReturn p st t r).tcDone p 0 (k % 2 ^ 17)

/-- FLUSH clears VALID of every entry of the table, in both copies. -/
def State.tcFlush (s : State) (p st t : Nat) : State :=
  let keys := ((s.tcPipe p).rows.filter fun e => decide (e.1 / 2 ^ 17 = 2 * st + t) && (e.2.valid || e.2.aValid)).map (·.1)
  (keys.foldl (fun s k => (s.setTcRow p k (s.tcRow p k).clear).tcOutside p (s.tcRow p k)) s).tcDone p 0 0

/-- The engine takes an operation as source 2: GO reads 1 until it is done (R201, R210, R250, log entry 136). -/
def State.tcTake (s : State) (p : Nat) (j : EngJob) : State :=
  let s := s.setTcPipe p { s.tcPipe p with job := some j }
  s.setBit (R.TC_IA_CMD p) F.TC_IA_CMD.GO true

/-- The engine has done the operation that stood as source 2. -/
def State.tcFree (s : State) (p : Nat) : State :=
  let s := s.setTcPipe p { s.tcPipe p with job := none }
  s.setBit (R.TC_IA_CMD p) F.TC_IA_CMD.GO false

/-- TC_IA_CMD holds a bad command (result 0x4 of Table 7.4). -/
def State.tcBad (s : State) (p : Nat) : Bool :=
  let c := R.TC_IA_CMD p
  let op := s.fld c F.TC_IA_CMD.OP
  let st := s.fld c F.TC_IA_CMD.STAGE
  let t := s.fld c F.TC_IA_CMD.TABLE
  decide (7 ≤ op) || !s.tcDefined p st t ||
    (decide (op = 0 ∨ op = 1 ∨ op = 3 ∨ op = 4) && decide (1024 * s.tcSlices p st t ≤ s.fld c F.TC_IA_CMD.ADDR))

/-- The operation that TC_IA_CMD holds is judged, and waits for the engine (R201, R210; refusals of Table 7.4). DESIGN CHOICE: where
0x5 and 0x4 both apply, 0x5 is given (log entry 118). -/
def State.tcGo (s : State) (p : Nat) : State :=
  if s.pipeHeld p || (s.pipe p).img.isNone then
    (s.cause (R.TC_CAUSE p) F.TC_CAUSE.IDLE_VIOL).tcDone p 5 0
  else if s.tcBad p then s.tcDone p 4 0
  else (s.tcTake p .indirect).tcDone p 0xF 0

/-- An INSERT is placed: the engine goes on with its copies. -/
def State.tcStart (s : State) (p : Nat) (m : TcMove) : State := s.setTcPipe p { s.tcPipe p with move := some m }

/-- The engine carries out the operation that TC_IA_CMD holds (R210). An INSERT that is placed goes on with its copies. -/
def State.tcRun (s : State) (p : Nat) : State :=
  let c := R.TC_IA_CMD p
  let op := s.fld c F.TC_IA_CMD.OP
  let st := s.fld c F.TC_IA_CMD.STAGE
  let t := s.fld c F.TC_IA_CMD.TABLE
  let a := s.fld c F.TC_IA_CMD.ADDR
  if s.tcBad p then (s.tcFree p).tcDone p 4 0
  else if op = 0 then (s.tcFree p).tcRead p st t a
  else if op = 1 then (s.tcFree p).tcWrite p st t a
  else if op = 2 then
    match s.tcInsert p st t (s.tcIaEntry p st t 3) with
    | .inl r => ((s.tcFree p).setFld (R.TC_IA_STATUS p) F.TC_IA_STATUS.MOVES 0).tcDone p r 0
    | .inr m => s.tcStart p m
  else if op = 3 then (s.tcFree p).tcDelete p st t a
  else if op = 4 then (s.tcFree p).tcUpdate p st t a
  else if op = 5 then (s.tcFree p).tcIaSearch p st t
  else (s.tcFree p).tcFlush p st t

/-- The tables are empty, and the scrubber stands at block 0 row 0. An operation that stands as source 2 stays. -/
def State.tcEmpty (s : State) (p : Nat) : State :=
  (s.setTcPipe p { job := (s.tcPipe p).job, busy := (s.tcPipe p).busy }).resetReg (R.TC_SCRUB_POS p)

/-- A Pitch reset of the engine (R211): entries invalid, a running operation aborts with 0x5, the scrubber at block 0 row 0. A group
operation gives its own result (R263). -/
def State.tcReset (s : State) (p : Nat) : State :=
  let own := decide ((s.tcPipe p).job = some .indirect)
  let s := ((s.setTcPipe p {}).resetReg (R.TC_SCRUB_POS p)).setBit (R.TC_IA_CMD p) F.TC_IA_CMD.GO false
  if own then s.tcDone p 5 0 else s

end Sys2Proof.Machine
end

