-- ==== Sys2Proof/Machine/Stage.lean ====
section
/-! DEFINITION. The pipelines: berths and their classes (R25, R28, R479 to R481), the parser at the berth (R158, R215,
R245), and the passage of a packet through a stage (R160, R223, R228). -/

namespace Sys2Proof.Machine

/-! ### Metadata fields (Table 8.3) -/

def Pkt.r (k : Pkt) (i : Nat) : Nat := k.m.getD i 0
/-- A field of a metadata register. -/
def Pkt.f (k : Pkt) (i lo w : Nat) : Nat := k.r i / 2 ^ lo % 2 ^ w
def Pkt.setF (k : Pkt) (i lo w v : Nat) : Pkt := { k with m := listSet k.m i (putBits (k.r i) lo w v) }

def Pkt.drop (k : Pkt) : Bool := nbit (k.r 7) 31
def Pkt.dropCode (k : Pkt) : Nat := k.f 7 16 8
/-- m0.MALFORMED as it stands: a microword that writes it decides what later ingress stages run, which R143 does not say (log entry 130). -/
def Pkt.malformed (k : Pkt) : Bool := nbit (k.r 0) 23

/-- The packet runs egress microcode: mirror copies, injected frames and sheets do not (R229, R422, R583). -/
def Pkt.runs (k : Pkt) : Bool := decide (k.kind = .plain ∨ k.kind = .replica)

/-! ### Berth columns (R479 to R481) -/

/-- The columns in a half of pipeline p, and a change of them. -/
def State.cols (s : State) (p : Nat) (eg : Bool) : List Col := if eg then (s.pipe p).egCols else (s.pipe p).igCols
def State.setCols (s : State) (p : Nat) (eg : Bool) (cs : List Col) : State :=
  s.setPipe p (if eg then { s.pipe p with egCols := cs } else { s.pipe p with igCols := cs })

/-- A column leaves a half: the half's tick counts, and each of its 8 berths under its class. A berth whose packet nothing wasted is
carried (R479, R481). -/
def State.colCount (s : State) (p : Nat) (eg : Bool) (c : Col) : State :=
  let b := fun (i e : Nat → Nat) => if eg then e p else i p
  let s := s.addCntWrap (b C.IG_TICKS C.EG_TICKS) 1
  let s := s.addCntWrap (b C.IG_CARRIED C.EG_CARRIED) (c.carried + c.left)
  let s := s.addCntWrap (b C.IG_WASTED C.EG_WASTED) c.wasted
  let s := s.addCntWrap (b C.IG_STARVED_FRONT C.EG_STARVED_FRONT) c.front
  s.addCntWrap (b C.IG_STARVED_BACK C.EG_STARVED_BACK) c.back

/-- A column whose berths held nothing, because no packet was waiting. -/
def emptyCol : Col := { left := 0, carried := 0, wasted := 0, front := 8, back := 0 }

/-- The ticks from a berth to the half's end: the parser and ingress stages 0 to 15, or egress stages 0 to 7 and the deparser (Table 1.2,
R479). -/
def halfDepth (eg : Bool) : Nat := if eg then 38 else 72

/-- The present tick of a half. -/
def PipeSt.now (q : PipeSt) (eg : Bool) : Nat := if eg then q.egTick else q.igTick

/-- The column that leaves the half in its present tick is counted: each tick counts one (R28, R479). DESIGN CHOICE: in the first ticks
after a start, where no column entered so long ago, its berths held nothing (log entry 157). -/
def State.colOut (s : State) (p : Nat) (eg : Bool) : State :=
  match s.cols p eg with
  | [] => s.colCount p eg emptyCol
  | c :: cs =>
    if c.tick + halfDepth eg ≤ (s.pipe p).now eg then (s.colCount p eg c).setCols p eg cs
    else s.colCount p eg emptyCol

/-- The first column with a packet in the half loses one, carried or wasted. -/
def colLeave (wasted : Bool) : List Col → List Col
  | [] => []
  | c :: cs =>
    if c.left = 0 then c :: colLeave wasted cs
    else
      (if wasted then { c with left := c.left - 1, wasted := c.wasted + 1 }
       else { c with left := c.left - 1, carried := c.carried + 1 }) :: cs

/-- A packet leaves a half of pipeline p. -/
def State.berthLeave (s : State) (p : Nat) (eg wasted : Bool) : State := s.setCols p eg (colLeave wasted (s.cols p eg))

/-! ### The berth and the parser -/

/-- The tag that pipeline p's ingress gives (R253, R257). -/
def State.pipeTag (s : State) (p : Nat) : Nat := s.fld (R.VER_PIPE p) F.VER_PIPE.TAG

/-- A packet takes an ingress berth of pipeline p: version tag, bank, parse and metadata of Table 8.2 (R158, R215, R235, R245). -/
def State.parsePkt (s : State) (p : Nat) (k : Pkt) : Pkt :=
  let img := (s.pipe p).img.getD {}
  let (e, hash) := s.parseWalk p img.graph k
  let tag := s.pipeTag p
  let step := decide (k.steps ≠ (s.reg R.TIME_STEP_CNT).toNat)
  let b := fun (c : Bool) => if c then 1 else 0
  let m6 := s.ownerOfPipe p * 2 ^ 27 + p * 2 ^ 23 + tag * 2 ^ 22 + b step * 2 ^ 21 + b k.hold * 2 ^ 20 + s.ucBank p * 2 ^ 19
  let m := parserRegs e hash k.port k.len ++
    [k.stamp.n, k.stamp.s % 2 ^ 32, k.stamp.s / 2 ^ 32 * 2 ^ 16 + k.stamp.f, m6, 2 ^ 31, 0, 0, 0, img.emit.getD e.w.last 0] ++
    List.replicate 20 0
  { k with hv := e.w.hv, m := m, tag := decide (tag = 1) }

/-- A packet leaves the parser of pipeline p: it is counted, and the parser offers an exception copy of one that it found malformed (R147,
R159, R483). -/
def State.parserOut (s : State) (p : Nat) (k : Pkt) : State :=
  let reason := k.f 0 16 4
  let s := s.parseCount p reason (nbit (k.r 0) 22)
  if reason ≠ 0 && nbit (s.fld (R.PAR_EXC_MASK p) F.PAR_EXC_MASK.REASONS * 2) reason then s.excOffer p (0xF0 + reason) 0 k else s

/-- The entry queue in the order in which packets take berths: by readiness, then by the rotating lane priority, which
stands at lane 64p + rot (R25). -/
def berthOrder (rot : Nat) (q : List Pkt) : List Pkt :=
  let key := fun (k : Pkt) => k.ready * 64 + (k.port + 64 - rot % 64) % 64
  sortBy (fun a b => decide (key a ≤ key b)) q

/-- The packets of the entry queue that are ready in the present tick of the ingress half, and those that are not yet (R25). -/
def PipeSt.isReady (q : PipeSt) (k : Pkt) : Bool := decide (k.ready ≤ q.igTick)

/-- The berths of the present tick of the ingress half: ready packets take at most 8 of them, as far as `credit` lets them (R25, R480).
Once they are taken the tick has no more. -/
def State.berthIngress (s : State) (p credit : Nat) : State :=
  let q := s.pipe p
  let es := berthOrder q.rot (q.entry.filter q.isReady)
  let r := min 8 es.length
  let n := min r credit
  let s := s.setPipe p { q with entry := es.drop n ++ q.entry.filter (fun k => !q.isReady k), igOpen := false }
  let s := s.setWaiting p 26 (s.waiting p 26 ++ (es.take n).zipIdx.map fun e => s.parsePkt p { e.1 with berth := e.2, tick := q.igTick })
  s.setCols p false (s.cols p false ++ [{ tick := q.igTick, left := n, carried := 0, wasted := 0, front := 8 - r, back := r - n }])

/-- The ports with a selected frame, in the order in which they are served: those that the last tick left unserved keep their order, and the
others follow in rotating order, starting at port 64p + rot, so that a port waits one tick at most for every 8 ahead of it (R315). -/
def egressPorts (wait : List Nat) (rot : Nat) (q : List Pkt) : List Nat :=
  let ports := (q.map (·.outPort)).eraseDups
  let key := fun (n : Nat) => (n % 64 + 64 - rot % 64) % 64
  wait.filter ports.contains ++ sortBy (fun a b => decide (key a ≤ key b)) (ports.filter fun n => !wait.contains n)

/-- The selected frames in the order in which they take egress berths: the first of each port, then the second of each, and so on. -/
def egressOrder (wait : List Nat) (rot : Nat) (q : List Pkt) : List Pkt :=
  let ports := egressPorts wait rot q
  let nth := fun (i : Nat) (k : Pkt) => ((q.take i).filter fun x => x.outPort == k.outPort).length
  (sortBy (fun a b => decide (a.1 ≤ b.1))
    (q.zipIdx.map fun e => (nth e.2 e.1 * 64 + ports.idxOf e.1.outPort, e.1))).map (·.2)

/-- The selected frames whose header window has been read, so that they can take a berth in the present tick (Table 11.1). -/
def State.egReady (s : State) (p : Nat) : List Pkt := (s.pipe p).egress.filter fun k => decide (k.tmTick ≤ s.tm.tick)

/-- The berths of the present tick of the egress half: selected frames take at most 8 of them, as far as `credit` lets them (R27, R480). -/
def State.berthEgress (s : State) (p credit : Nat) : State :=
  let q := s.pipe p
  let ready := s.egReady p
  let es := egressOrder q.egWait q.egRot ready
  let r := min 8 es.length
  let n := min r credit
  let served := (es.take n).map (·.outPort)
  let s := s.setPipe p { q with
    egress := es.drop n ++ q.egress.filter (fun k => decide (s.tm.tick < k.tmTick)), egOpen := false,
    egWait := (egressPorts q.egWait q.egRot ready).filter fun n => !served.contains n }
  let s := s.setWaiting p 16 (s.waiting p 16 ++ (es.take n).zipIdx.map fun e => { e.1 with berth := e.2, tick := q.egTick })
  s.setCols p true (s.cols p true ++ [{ tick := q.egTick, left := n, carried := 0, wasted := 0, front := 8 - r, back := r - n }])

/-- The berths of a half's present tick are taken, where they have not been. -/
def State.berthTake (s : State) (p : Nat) (eg : Bool) (credit : Nat) : State :=
  if eg then (if (s.pipe p).egOpen then s.berthEgress p credit else s)
  else if (s.pipe p).igOpen then s.berthIngress p credit else s

/-- A rotation over 64 places, which stands at the first in the first tick and moves on by one every tick (R25, R315). -/
def rotNext (ticks rot : Nat) : Nat := if ticks = 0 then rot else (rot + 1) % 64

/-- A half of pipeline p has a tick (R25, R28, R315). Berths of the tick before that nothing took had no credit; the rotation moves on. -/
def State.berthTick (s : State) (p : Nat) (eg : Bool) : State :=
  let s := s.berthTake p eg 0
  let q := s.pipe p
  s.setPipe p (if eg then { q with egTick := q.egTick + 1, egOpen := true, egRot := rotNext q.egTick q.egRot }
    else { q with igTick := q.igTick + 1, igOpen := true, rot := rotNext q.igTick q.rot })

/-! ### A stage (R160, R223) -/

/-- The bytes of a key. -/
def keyBytes (hv : Bytes) (m : List Nat) (sel : List KeySrc) : Bytes :=
  sel.map fun k => match k with
    | .hv i => byteAt hv i
    | .mreg r b => BitVec.ofNat 8 (m.getD r 0 / 2 ^ (8 * (3 - b)))

/-- A CNT of action counter k for a frame of `len` bytes: the packet or byte counter at `a` and, chained, its high half
at `h` (R474). -/
def State.chainAdd (s : State) (a h v : Nat) : State :=
  if s.cnt h = 2 ^ 48 - 1 ∧ s.cnt a = 2 ^ 48 - 1 then s
  else if s.cnt a + v < 2 ^ 48 then s.setCnt a (s.cnt a + v)
  else if s.cnt h = 2 ^ 48 - 1 then s.setCnt a (2 ^ 48 - 1)
  else (s.setCnt a (s.cnt a + v - 2 ^ 48)).setCnt h (s.cnt h + 1)

/-- A CNT of action counter c (R473 to R475). -/
def State.actCount (s : State) (p st c len : Nat) : State :=
  let chained := (s.reg (R.STG_ACT_CHAIN p st (c / 2 / 32))).getLsbD (c / 2 % 32)
  if chained then
    if c % 2 = 1 then s.addCnt (C.ACT_CHAIN_MISS p st) 1
    else (s.chainAdd (C.ACT_PKTS p st c) (C.ACT_PKTS p st (c + 1)) 1).chainAdd (C.ACT_BYTES p st c) (C.ACT_BYTES p st (c + 1)) len
  else (s.addCnt (C.ACT_PKTS p st c) 1).addCnt (C.ACT_BYTES p st c) len

/-- Run at most `fuel` words from `pc`, recording a word whose parity fails. -/
def State.ucGo (s : State) (p st bank fuel pc : Nat) (r : UcRun) : UcRun × Option Nat × State :=
  let (r, nx) := ucRun ((s.ucStore p st).fetch bank) bank fuel pc r
  match r.parity with
  | some w => ({ r with parity := none }, nx, s.ucParity p st w)
  | none => (r, nx, s)

/-- Run a segment whole. -/
def State.ucSeg (s : State) (p st bank : Nat) (d : DirEntry) (r : UcRun) : UcRun × State :=
  let n := s.ucSlots p d
  if n = 0 then (r, s)
  else
    let (r, _, s) := s.ucGo p st bank n d.start r
    (r, s)

/-- The segment that table t (4 and 5 the TCAM tables) runs for its result: the action of a hit, else the default. A hit
whose action is not defined runs the default and is counted (R223, R226). -/
def State.ucTable (s : State) (p st bank t : Nat) (q : LookRes) (r : UcRun) : UcRun × State :=
  let dflt := s.ucDir p st (16 + 17 * t + 16)
  let (d, s) :=
    if q.hit then
      match s.ucDir p st (16 + 17 * t + q.action % 16) with
      | some d => (some d, s)
      | none => (dflt, (s.addCnt (C.UC_BAD_ACTION p st) 1).cause (R.STG_UC_CAUSE p st) F.STG_UC_CAUSE.BAD_ACTION)
    else (dflt, s)
  match d with
  | some d => s.ucSeg p st bank d r
  | none => (r, s)

/-- The lookups of a stage with keys formed from `hv` and `m`, as the 10 results of R225. -/
def State.stageLookups (s : State) (p st v : Nat) (si : StageImg) (hv : Bytes) (m : List Nat) : List LookRes × State :=
  let em := fun (sel : EmTable → Option (List KeySrc)) (acc : List LookRes × State) t =>
    match (si.em.getD t none).bind sel with
    | none => (acc.1 ++ [{}], acc.2)
    | some ks =>
      let (q, s) := acc.2.emLookup p st t (keyBytes hv m ks) v
      (acc.1 ++ [q], s)
  let tc := fun (acc : List LookRes × State) t =>
    match si.tc.getD t none with
    | none => (acc.1 ++ [{}], acc.2)
    | some tb =>
      let g := match tb.gsel with
        | .const g => g
        | .bits r lo => m.getD r 0 / 2 ^ lo % 4
      let (q, s) := acc.2.tcLookup p st t (beNat (fitBytes (10 * tb.width) (keyBytes hv m tb.sel))) (acc.2.tcMask p st t g) v
      (acc.1 ++ [q], s)
  let acc := (List.range 4).foldl (em fun t => some t.selA) ([], s)
  let acc := (List.range 4).foldl (em (·.selB)) acc
  (List.range 2).foldl tc acc

/-- A packet is served by stage st of pipeline p (R160, R223, R227, R228). -/
def State.stageRun (s : State) (p st : Nat) (k : Pkt) : Pkt × State :=
  let si := ((s.pipe p).img.getD {}).stages.getD st {}
  let bank := if st < 16 then k.f 6 19 1 else k.f 10 20 1
  let dlen := (List.range 4).map fun t => ((si.em.getD t none).map emDataBytes).getD 0
  let r0 : UcRun := { m := k.m, hv := k.hv, win := k.win, lim := k.len - 4, dlen := dlen }
  let done := fun (keys : List Bytes) (r : UcRun) (s : State) =>
    let s := r.counts.foldl (fun s c => s.actCount p st c.1 c.2) s
    let s := match r.learn with
      | some q => s.learnRequest p st { q with key := keys.getD q.table [] }
      | none => s
    ({ k with m := r.m, hv := r.hv }, s)
  if !k.runs then (k, s)
  else if decide (st < 16) && k.malformed then
    match s.ucDir p st 1 with
    | none => (k, s)
    | some d =>
      let (r, s) := s.ucSeg p st bank d r0
      done [] r s
  else
    let pre := s.ucDir p st 0
    let n := (pre.map (s.ucSlots p)).getD 0
    let (r, nx, s) := if n = 0 then (r0, none, s) else s.ucGo p st bank (min 6 n) ((pre.map (·.start)).getD 0) r0
    let keys := (List.range 4).map fun t => ((si.em.getD t none).map fun tb => keyBytes r.hv r.m tb.selA).getD []
    let (res, s) := s.stageLookups p st (if k.tag then 1 else 0) si r.hv r.m
    let (r, s) := match nx with
      | some pc =>
        let (r, _, s) := s.ucGo p st bank (n - 6) pc r
        (r, s)
      | none => (r, s)
    let (r, s) := (List.range 6).foldl (fun (acc : UcRun × State) t =>
      let on := if t < 4 then (si.em.getD t none).isSome else (si.tc.getD (t - 4) none).isSome
      if on then acc.2.ucTable p st bank t (res.getD (if t < 4 then t else t + 4) {}) acc.1 else acc)
      ({ r with res := res }, s)
    done keys r s

/-- m10 and m16 to m31 at entry to egress stage 0 of pipeline p (R217). -/
def State.egressEntry (s : State) (p : Nat) (k : Pkt) : Pkt :=
  if !k.runs then k
  else
    let m10 := (if k.kind = .replica then 2 ^ 31 else 0) + s.ucBank p * 2 ^ 20 + k.cls * 2 ^ 16 + k.outPort
    { k with m := (listSet k.m 10 m10).take 16 ++ List.replicate 16 0 }

/-- EXC = 1 at the end of a half offers a copy, and the part clears EXC (R231). -/
def State.excAtExit (s : State) (p point : Nat) (k : Pkt) : Pkt × State :=
  if k.runs && nbit (k.r 8) 30 then
    let s := s.excOffer p (k.f 8 18 8) point k
    (k.setF 8 30 1 0, s)
  else (k, s)

/-- The ticks of its half in which a packet that took a berth in tick `t` enters stage st, and has passed it (R23, Table 1.2). -/
def stageFrom (t st : Nat) : Nat := if st < 16 then t + 8 + 4 * st else t + 4 * (st - 16)
def stageBy (t st : Nat) : Nat := stageFrom t st + 4

/-- The packet that has waited longest for stage st of pipeline p, and whose ticks in it have begun, passes through it (R23). From ingress
stage 15 it goes to the traffic manager once those ticks are over, from egress stage 7 to the deparser. -/
def State.stageEnter (s : State) (p st : Nat) : State :=
  match s.waiting p st with
  | [] => s
  | k :: rest =>
    if (s.pipe p).now (decide (16 ≤ st)) < stageFrom k.tick st then s
    else
    let s := s.setWaiting p st rest
    let k := if st = 16 then s.egressEntry p k else k
    let (k, s) := s.stageRun p st k
    if st = 15 then
      let (k, s) := s.excAtExit p 0 k
      (s.setWaiting p 27 (s.waiting p 27 ++ [k])).berthLeave p false k.drop
    else if st = 23 then
      let (k, s) := s.excAtExit p 1 k
      s.setWaiting p 25 (s.waiting p 25 ++ [k])
    else s.setWaiting p (st + 1) (s.waiting p (st + 1) ++ [k])

/-- Packets whose ticks in the parser are over leave it (Table 1.2). -/
def State.parserPass (s : State) (p : Nat) : State :=
  let ks := s.waiting p 26
  let out := ks.filter fun k => decide (k.tick + 8 ≤ (s.pipe p).igTick)
  let s := s.setWaiting p 26 (ks.filter fun k => decide ((s.pipe p).igTick < k.tick + 8))
  let s := s.setWaiting p 0 (s.waiting p 0 ++ out)
  out.foldl (fun s k => s.parserOut p k) s

/-- Packets whose ticks in stage 15 are over enter the traffic manager in its present tick (R292). -/
def State.tmEnter (s : State) (p : Nat) : State :=
  let ks := s.waiting p 27
  let out := (ks.filter fun k => decide (stageBy k.tick 15 ≤ (s.pipe p).igTick)).map fun k => { k with tmTick := s.tm.tick }
  let s := s.setWaiting p 27 (ks.filter fun k => decide ((s.pipe p).igTick < stageBy k.tick 15))
  s.setWaiting p 24 (s.waiting p 24 ++ out)

/-- Packets whose ticks in stage st are over pass it, at most `fuel` of them: no step takes longer than Table 1.2 gives it (R23). Within
those ticks a packet passes with its STAGE_ENTER (log entry 157). -/
def State.stagePass (s : State) (p st : Nat) : Nat → State
  | 0 => s
  | fuel + 1 =>
    match s.waiting p st with
    | [] => s
    | k :: _ => if stageBy k.tick st ≤ (s.pipe p).now (decide (16 ≤ st)) then (s.stageEnter p st).stagePass p st fuel else s

end Sys2Proof.Machine
end

