-- ==== Sys2Proof/Machine/Tm.lean ====
section
/-! DEFINITION. The traffic manager (chapter "Queueing, Scheduling, Shaping and Policing"): enqueue and drop codes,
member groups, multicast replication, limits, pause and PFC generation, the watchdog, the port scheduler with its shapers
and its Timetable order, and the mirror session of R57 to R62. -/

namespace Sys2Proof.Machine

/-! ### State access -/

def State.ptm (s : State) (n : Nat) : PortTm := SMap.get (fun _ => {}) s.tm.ports n
def State.setPtm (s : State) (n : Nat) (q : PortTm) : State :=
  { s with tm := { s.tm with ports := SMap.put (fun _ => {}) s.tm.ports n q } }

/-- The queue of port n and class c. -/
def State.tmq (s : State) (n c : Nat) : QueueSt := SMap.get (fun _ => {}) s.tm.q (n * 16 + c)
def State.setTmq (s : State) (n c : Nat) (q : QueueSt) : State :=
  { s with tm := { s.tm with q := SMap.put (fun _ => {}) s.tm.q (n * 16 + c) q } }

/-- The depth of a queue and of a port (R303). -/
def QueueSt.depth (q : QueueSt) : Nat := (q.pkts.map (·.len)).sum
def State.portDepth (s : State) (n : Nat) : Nat := ((List.range 16).map fun c => (s.tmq n c).depth).sum

/-- The ingress occupancy of a class and of a port (R302). -/
def State.inOcc (s : State) (n c : Nat) : Nat := SMap.get (fun _ => 0) s.tm.occ (n * 16 + c)
def State.portOcc (s : State) (n : Nat) : Nat := ((List.range 16).map fun c => s.inOcc n c).sum

/-- Queue c of port n is in discard mode (R311). -/
def State.discarding (s : State) (n c : Nat) : Bool := nbit (s.fld (R.TM_PORT_STATUS n) F.TM_PORT_STATUS.DISCARD) c
def State.downDrop (s : State) (n : Nat) : Bool := s.bit (R.TM_PORT_STATUS n) F.TM_PORT_STATUS.DOWN_DROP
def State.live (s : State) (n : Nat) : Bool := s.bit (R.TM_PORT_STATUS n) F.TM_PORT_STATUS.LIVE
def State.setLive (s : State) (n : Nat) (b : Bool) : State := s.setBit (R.TM_PORT_STATUS n) F.TM_PORT_STATUS.LIVE b

/-- Put a control frame in line at the MAC of port n, once (R114). -/
def State.ctlPush (s : State) (n : Nat) (c : CtlKind) : State :=
  if (s.ptm n).ctl.contains c then s else s.setPtm n { s.ptm n with ctl := (s.ptm n).ctl ++ [c] }

/-! ### Pause and PFC from the part (R306 to R308) -/

/-- Assert or release by thresholds in 256-byte units. -/
def xoffNext (was : Bool) (occ xoff xon : Nat) : Bool :=
  if xoff = 0 then false
  else if xoff * 256 ≤ occ then true
  else was && decide (min xon xoff * 256 ≤ occ)

/-- The classes (bit 16: the port) that assert XOFF on port n, as the occupancies stand. -/
def State.fcNow (s : State) (n : Nat) : Nat :=
  let old := (s.reg (R.TM_FC_STATUS n)).toNat
  if s.fcMode n = 2 then
    (List.range 16).foldl (fun acc c =>
      if (s.pfcPrio n c).isSome &&
          xoffNext (nbit old c) (s.inOcc n c) (s.fld (R.TM_IN_XOFF n c) F.TM_IN_XOFF.UNITS)
            (s.fld (R.TM_IN_XON n c) F.TM_IN_XON.UNITS) then setNBit acc c else acc) 0
  else if s.fcMode n = 1 then
    (if xoffNext (nbit old 16) (s.portOcc n) (s.fld (R.TM_IN_PORT_XOFF n) F.TM_IN_PORT_XOFF.UNITS)
        (s.fld (R.TM_IN_PORT_XON n) F.TM_IN_PORT_XON.UNITS) then 2 ^ 16 else 0)
  else 0

/-- XOFF of port n follows its occupancies; a change calls for one pause or PFC frame. -/
def State.fcEval (s : State) (n : Nat) : State :=
  let old := (s.reg (R.TM_FC_STATUS n)).toNat
  let new := s.fcNow n
  if old = new then s
  else
    let s := s.setReg (R.TM_FC_STATUS n) (BitVec.ofNat 32 new)
    let s := s.setPtm n { s.ptm n with changed := Nat.lor (s.ptm n).changed (Nat.xor old new) }
    s.ctlPush n .fc

/-- The pause or PFC frame that port n now builds, without its FCS; none in FC_MODE 0 or with nothing to say. -/
def State.fcFrame (s : State) (n : Nat) : Option Bytes :=
  let now := (s.reg (R.TM_FC_STATUS n)).toNat
  let say := Nat.lor now (s.ptm n).changed
  let quanta := s.fld (R.TM_PFC_CTL n) F.TM_PFC_CTL.QUANTA
  if s.fcMode n = 1 then
    (if nbit say 16 then some (s.macCtrlFrame n 1 (natBE 2 (if nbit now 16 then quanta else 0))) else none)
  else if s.fcMode n = 2 then
    let on := fun p => (s.pfcClass n p).any fun c => nbit say c
    let vec := (List.range 8).foldl (fun a p => if on p then setNBit a p else a) 0
    let times := (List.range 8).flatMap fun p =>
      natBE 2 (if (s.pfcClass n p).any fun c => nbit now c then quanta else 0)
    if vec = 0 then none else some (s.macCtrlFrame n 0x0101 (natBE 2 vec ++ times))
  else none

/-- PFC_REFRESH: the port asserts XOFF still (R307). -/
def State.fcRefresh (s : State) (n : Nat) : State :=
  if (s.reg (R.TM_FC_STATUS n)).toNat = 0 then s else s.ctlPush n .fc

/-- Add to, or take from, the ingress occupancy of port n in class c. -/
def State.occAdd (s : State) (n c k : Nat) : State :=
  { s with tm := { s.tm with occ := SMap.put (fun _ => 0) s.tm.occ (n * 16 + c) (s.inOcc n c + k) } }.fcEval n
def State.occSub (s : State) (n c k : Nat) : State :=
  { s with tm := { s.tm with occ := SMap.put (fun _ => 0) s.tm.occ (n * 16 + c) (s.inOcc n c - k) } }.fcEval n

/-! ### The end of a packet -/

/-- One replica of a multicast packet has been transmitted or dropped (R301). -/
def State.mcDone (s : State) (h : Nat) : State :=
  match SMap.get (fun _ => none) s.tm.mc h with
  | none => s
  | some r =>
    let put := fun (s : State) v => { s with tm := { s.tm with mc := SMap.put (fun _ => none) s.tm.mc h v } }
    if 1 < r.left then put s (some { r with left := r.left - 1 })
    else
      let s := (put s none).bpmRelease r.rq h
      if r.charged then s.occSub r.port r.cls r.len else s

/-- The closed sheet of stream n whose buffer is `h`. -/
def State.sheetOf (s : State) (n h : Nat) : Option Sheet := (s.strm n).closed.find? fun q => q.handle = some h

/-- A packet is gone: transmitted whole (`sent`) or dropped. Its holds are released; a sheet that was dropped stays with
the assembler, unless its slice is fenced (R270, R288, R301, R302, R422). -/
def State.pktGone (s : State) (k : Pkt) (sent : Bool) : State :=
  match k.kind with
  | .replica => s.mcDone k.handle
  | .sheet n =>
    match s.sheetOf n k.handle with
    | none => s
    | some q =>
      if sent then s.wbExported n q.num else if s.bufFenced k.handle then s.sheetLose n q.num else s.wbPlace n q.num .retry
  | _ =>
    let s := s.bpmRelease k.rq k.handle
    if k.inCharged then s.occSub k.port k.cls k.len else s

/-- A packet or replica with WB = 1 ends without a record (R405). -/
def State.wbDropped (s : State) (k : Pkt) : State :=
  if k.runs && nbit (k.r 8) 31 then s.wbReqDrop (s.ownerOfPort k.port) else s

/-- TM_DROP[code] of the ingress pipeline; frames that came through no port have none (R294). -/
def State.tmDropCount (s : State) (k : Pkt) (code : Nat) : State :=
  if k.port < 1024 then s.addCnt (C.TM_DROP (pipeOfPort k.port) code) 1 else s

/-- A drop at queue (n, c): the counts of Table 11.6 and the cause of a limit (R294, R311). -/
def State.qDropCount (s : State) (n c len code : Nat) : State :=
  let s := (s.addCnt (C.TM_Q_DROP_FRAMES n c) 1).addCnt (C.TM_Q_DROP_BYTES n c) len
  let s := if code = 0xF5 then s.addCnt (C.TM_Q_WD_DISCARD n c) 1 else s
  if code = 0xF8 ∨ code = 0xF9 then s.cause (R.TM_PORT_CAUSE n) F.TM_PORT_CAUSE.LIMIT else s

/-- A whole packet that came from the pipelines is dropped at enqueue. -/
def State.dropWhole (s : State) (k : Pkt) (code : Nat) : State :=
  let s := (s.tmDropCount k code).addCnt (C.TM_IN_DROP_CNT k.port) 1
  (s.wbDropped k).pktGone k false

/-- A frame at or after queue (n, c), or a replica, is dropped. -/
def State.dropQueued (s : State) (n c : Nat) (k : Pkt) (code : Nat) : State :=
  (((s.tmDropCount k code).qDropCount n c k.len code).wbDropped k).pktGone k false

/-! ### The watchdog (R310, R311) -/

/-- TM_WD_CTL.T in 1/16 ns, 0 for off. -/
def State.wdTime (s : State) (n : Nat) : Nat := min 1000 (s.fld (R.TM_WD_CTL n) F.TM_WD_CTL.T) * 16000000

/-- A received frame can pause class c of port n (Table 4.2). -/
def State.pausable (s : State) (n c : Nat) : Bool :=
  decide (s.fcMode n = 1) || (decide (s.fcMode n = 2) && (s.pfcPrio n c).isSome)

/-- The stall of queue (n, c) starts or ends. -/
def State.stallEval (s : State) (n c : Nat) : State :=
  let q := s.tmq n c
  if decide (s.wdTime n ≠ 0) && s.pausable n c && !s.discarding n c && !q.pkts.isEmpty && s.paused n c then
    (if q.stallAt.isSome then s else s.setTmq n c { q with stallAt := some s.clk16 })
  else if q.stallAt.isSome then s.setTmq n c { q with stallAt := none }
  else s

def State.stallEvals (s : State) (n : Nat) : State := (List.range 16).foldl (fun s c => s.stallEval n c) s

/-- Every frame of queue (n, c) is dropped. -/
def State.flushQueue (s : State) (n c code : Nat) : State :=
  let ps := (s.tmq n c).pkts
  let s := s.setTmq n c { s.tmq n c with pkts := [] }
  (ps.foldl (fun s k => s.dropQueued n c k code) s).stallEval n c

/-- Every queue of port n is flushed. -/
def State.flushPort (s : State) (n code : Nat) : State := (List.range 16).foldl (fun s c => s.flushQueue n c code) s

def State.setDiscard (s : State) (n c : Nat) (b : Bool) : State :=
  let d := s.fld (R.TM_PORT_STATUS n) F.TM_PORT_STATUS.DISCARD
  s.setFld (R.TM_PORT_STATUS n) F.TM_PORT_STATUS.DISCARD (if b then setNBit d c else clrNBit d c)

/-- Queue (n, c) enters discard mode. -/
def State.wdEnter (s : State) (n c : Nat) : State :=
  let first := decide (s.fld (R.TM_PORT_STATUS n) F.TM_PORT_STATUS.DISCARD = 0)
  let s := (s.setDiscard n c true).addCnt (C.TM_Q_WD_ENTRIES n c) 1
  let s := s.setTmq n c { s.tmq n c with stallAt := none, emptyAt := some s.clk16 }
  let s := if first then s.ariseF (R.TM_PORT_CAUSE n) F.TM_PORT_CAUSE.WD_ENTER
    else s.cause (R.TM_PORT_CAUSE n) F.TM_PORT_CAUSE.WD_ENTER
  s.flushQueue n c 0xF5

/-- Queue (n, c) leaves discard mode. -/
def State.wdLeave (s : State) (n c : Nat) : State :=
  let s := (s.setDiscard n c false).setTmq n c { s.tmq n c with emptyAt := none }
  (s.cause (R.TM_PORT_CAUSE n) F.TM_PORT_CAUSE.WD_EXIT).stallEval n c

/-- One look of the watchdog at queue (n, c). -/
def State.wdLook (s : State) (n c : Nat) : State :=
  let t := s.wdTime n
  if s.discarding n c then
    (if (s.tmq n c).emptyAt.any fun x => decide (x + t ≤ s.clk16) then s.wdLeave n c else s)
  else if t ≠ 0 && ((s.tmq n c).stallAt.any fun x => decide (x + t ≤ s.clk16)) then s.wdEnter n c
  else s

/-- One look of the watchdog at every watched queue. -/
def State.wdCheck (s : State) : State := s.tm.q.foldl (fun s e => s.wdLook (e.1 / 16) (e.1 % 16)) s

/-! ### Limits (R302 to R304) -/

/-- A packet of ingress port n in class c is lossless. -/
def State.isLossless (s : State) (n c : Nat) : Bool := decide (n < 1024) && s.pausable n c

/-- Step 6 of R293 at queue (n, c): the code of the first check that fails. -/
def State.step6 (s : State) (n c len : Nat) (lossless : Bool) : Option Nat :=
  if s.downDrop n then some 0xF6
  else if s.discarding n c then some 0xF5
  else if lossless then none
  else if s.fld (R.TM_Q_LIMIT n c) F.TM_Q_LIMIT.LIMIT * 256 < (s.tmq n c).depth + len then some 0xF9
  else if s.fld (R.TM_PORT_LIMIT n) F.TM_PORT_LIMIT.LIMIT * 256 < s.portDepth n + len then some 0xF8
  else none

/-! ### Timetable in the queue (R384, R389, R394) -/

/-- The late reason of Table 14.2 that holds now for a packet of queue (n, c): rows 1, 3, 4 and 5. -/
def State.cntFault (s : State) : Bool := s.bit R.TIME_STATUS F.TIME_STATUS.CNT_FAULT

/-- A shaper: committed rate and depth, peak rate and depth. -/
structure Shp where
  cir : Nat
  cbs : Nat
  pir : Nat
  pbs : Nat
  deriving DecidableEq, Repr

def State.qShp (s : State) (n c : Nat) : Shp :=
  ⟨min 1600000 (s.fld (R.TM_Q_CIR n c) F.TM_Q_CIR.RATE), max 64 (s.fld (R.TM_Q_CBS n c) F.TM_Q_CBS.BYTES),
   min 1600000 (s.fld (R.TM_Q_PIR n c) F.TM_Q_PIR.RATE), max 64 (s.fld (R.TM_Q_PBS n c) F.TM_Q_PBS.BYTES)⟩
def State.portShp (s : State) (n : Nat) : Shp :=
  ⟨min 1600000 (s.fld (R.TM_PORT_CIR n) F.TM_PORT_CIR.RATE), max 64 (s.fld (R.TM_PORT_CBS n) F.TM_PORT_CBS.BYTES),
   min 1600000 (s.fld (R.TM_PORT_PIR n) F.TM_PORT_PIR.RATE), max 64 (s.fld (R.TM_PORT_PBS n) F.TM_PORT_PBS.BYTES)⟩

/-- A bucket holds 0 or more; a rate of 0 turns it off (R316, R317). -/
def bucketOk (b : Bucket) (rate depth now : Nat) : Bool :=
  decide (rate = 0) || decide ((b.refill rate now).lack ≤ depth * 128000)

/-- The peak bucket of queue (n, c) lets a frame go. -/
def State.peakOk (s : State) (n c : Nat) : Bool :=
  bucketOk (s.tmq n c).pb (s.qShp n c).pir (s.qShp n c).pbs s.clk16

/-- Both buckets of the port's shaper let a frame go (Table 11.3). -/
def State.portOk (s : State) (n : Nat) : Bool :=
  bucketOk (s.ptm n).cb (s.portShp n).cir (s.portShp n).cbs s.clk16 && bucketOk (s.ptm n).pb (s.portShp n).pir (s.portShp n).pbs s.clk16

/-- The class is paused for the scheduler: a received pause has no effect in discard mode (R311, R312). DESIGN CHOICE: of the 200 ns that
R112 leaves, none passes before the selection of a paused class stops, and a frame that was selected before still starts (log entry 150). -/
def State.held (s : State) (n c : Nat) : Bool := s.paused n c && !s.discarding n c

/-- The first row of Table 14.2, of rows 1 and 3 to 5, that holds now for a packet of queue (n, c); 0 for none. -/
def State.lateReason (s : State) (n c : Nat) : Nat :=
  if s.cntFault then 1
  else if !s.linkUp n then 3
  else if s.held n c then 4
  else if !s.peakOk n c || !s.portOk n then 5
  else 0

/-- A Timetable packet enters queue n: due at once when its release instant is past, or under a counter fault (R394,
R400). Of a release instant that is past, a counter fault that stood at it is the reason before the late enqueue (Table 14.2). -/
def State.ttArrive (s : State) (n : Nat) (k : Pkt) : Pkt :=
  match k.floor with
  | none => k
  | some fl =>
    if s.cntFault then { k with dueNow := true, reason := 1, freed := true }
    else if s.ttReached n (s.ttDue k fl) then
      { k with dueNow := true, reason := if s.ttFaultAt n (s.ttDue k fl) then 1 else 2 }
    else k

/-- The packets of queue (n, c) whose release instant has come become due (R389). -/
def State.ttReleaseDue (s : State) (n c : Nat) : State :=
  let q := s.tmq n c
  s.setTmq n c { q with pkts := q.pkts.map fun k =>
    match k.floor with
    | some fl => if !k.dueNow && s.ttReached n (s.ttDue k fl) then { k with dueNow := true, reason := s.lateReason n c } else k
    | none => k }

/-- A counter fault: every held Timetable frame is released at once, with reason TIME (R400). -/
def State.ttFault (s : State) : State :=
  s.tm.q.foldl (fun s e =>
    let q := s.tmq (e.1 / 16) (e.1 % 16)
    s.setTmq (e.1 / 16) (e.1 % 16) { q with
      pkts := q.pkts.map fun k =>
        if k.floor.isSome && !k.dueNow then { k with dueNow := true, reason := 1, freed := true } else k }) s

/-- The floor that a packet of Pitch n takes at enqueue in class c (R384). -/
def State.ttMark (s : State) (n c : Nat) : Option Nat := if s.marked n c then some (s.ttFloor n) else none

/-! ### Enqueue -/

/-- A frame that passed its checks joins queue (n, c). -/
def State.tmPush (s : State) (n c : Nat) (k : Pkt) : State :=
  let k := s.ttArrive n { k with outPort := n, cls := c }
  let s := (s.addCnt (C.TM_Q_ENQ_FRAMES n c) 1).addCnt (C.TM_Q_ENQ_BYTES n c) k.len
  (s.setTmq n c { s.tmq n c with pkts := (s.tmq n c).pkts ++ [k] }).stallEval n c

/-- Code 0xF1 or 0xF2 of R295 for port n and a packet of Pitch `pit`. -/
def State.portCode (s : State) (pit n : Nat) : Option Nat :=
  if s.ownerOfPort n ≠ pit then some 0xF1 else if !s.portEnabled n then some 0xF2 else none

/-- The slot that a member group gives: from slot `i`, following at most `fuel` backups, the first valid slot whose port is
live (R296). -/
def State.memberFrom (s : State) (p : Nat) : Nat → Nat → Option Nat
  | 0, _ => none
  | fuel + 1, i =>
    let w := (SMap.get (fun _ => 0) s.tm.slot (p * 2 ^ 16 + i % 2 ^ 16)).toNat
    let n := w / 2 ^ 16 % 1024
    if nbit w 31 && s.live n then some n
    else if nbit w 30 then s.memberFrom p fuel (w % 2 ^ 16)
    else none

/-- The multicast groups of Pitch n: BASE and COUNT in units of 1,024; a COUNT above 64 acts as 0 (R49, R78). -/
def State.mcInRange (s : State) (n g : Nat) : Bool :=
  let c := s.fld (R.PIT_MC_RANGE n) F.PIT_MC_RANGE.COUNT
  let b := s.fld (R.PIT_MC_RANGE n) F.PIT_MC_RANGE.BASE
  decide (n ≠ 0 ∧ c ≤ 64 ∧ b * 1024 ≤ g ∧ g < (b + c) * 1024)

/-- Where a packet goes. -/
inductive Dest where
  | one (n : Nat)
  | many (ns : List Nat)
  | no (code : Nat)
  deriving DecidableEq, Repr

/-- Step 3 of R293, with the refusals that R48 and R49 count. -/
def State.resolve (s : State) (p : Nat) (k : Pkt) : Dest × State :=
  let pit := s.ownerOfPipe p
  let dest := k.f 7 0 16
  let one := fun n =>
    match s.portCode pit n with
    | none => (Dest.one n, s)
    | some c => (.no c, if c = 0xF1 then s.xdrop pit 1 else s)
  match k.f 7 28 2 with
  | 0 => one (dest % 1024)
  | 1 =>
    if !s.mcInRange pit dest then (.no 0xF1, s.xdrop pit 1)
    else
      let bm := SMap.get (fun _ => 0) s.tm.mcast dest
      let ok := (List.range 1024).filter fun i => nbit bm i && decide (i ≠ k.port) && s.portEnabled i
      let mine := ok.filter fun i => s.ownerOfPort i == pit
      let s := s.xdrop pit (ok.length - mine.length)
      (if mine.isEmpty then .no 0xF3 else .many mine, s)
  | _ =>
    let w := (SMap.get (fun _ => 0) s.tm.grp (p * 2 ^ 12 + dest)).toNat
    if 4096 ≤ dest || !nbit w 31 then (.no 0xFE, s)
    else
      let h := if nbit (k.r 0) 21 then k.r 1 else 0
      match s.memberFrom p 4 (w % 2 ^ 16 + h * (w / 2 ^ 16 % 256 + 1) / 2 ^ 32) with
      | none => (.no 0xFD, s)
      | some n => one n

def State.policer (s : State) (p i : Nat) : PolSt := SMap.get (fun _ => {}) s.tm.pol (p * 2 ^ 16 + i)
def State.setPolicer (s : State) (p i : Nat) (q : PolSt) : State :=
  { s with tm := { s.tm with pol := SMap.put (fun _ => {}) s.tm.pol (p * 2 ^ 16 + i) q } }

/-- The meter of a policer configuration. -/
def PolCfg.meter (c : PolCfg) : Meter := ⟨c.cir, c.pir, max 10240 c.cbs, max 10240 c.pbs⟩

/-- Step 4 of R293: the drop code, or the packet with its class after the colour's action (R319, Table 11.4). -/
def State.police (s : State) (p : Nat) (k : Pkt) : Except Nat Pkt × State :=
  if !nbit (k.r 9) 31 then (.ok k, s)
  else
    let i := k.f 9 0 16
    let q := s.policer p i
    let (col, b) := q.cfg.meter.judge q.b (k.f 2 16 14) s.clk16
    let up := fun v => min (v + 1) (2 ^ 32 - 1)
    let act := q.cfg.act
    let move := fun c => Except.ok (k.setF 7 24 4 c)
    match col with
    | .green => (.ok k, s.setPolicer p i { q with b := b, green := up q.green })
    | .yellow =>
      (if act % 4 = 2 then .error 0xFB else if act % 4 = 1 then move (act / 2 ^ 12 % 16) else .ok k,
       s.setPolicer p i { q with b := b, yellow := up q.yellow })
    | .red =>
      (if act / 4 % 4 = 2 then .ok k else if act / 4 % 4 = 1 then move (act / 2 ^ 8 % 16) else .error 0xFC,
       s.setPolicer p i { q with b := b, red := up q.red })

/-- Steps 5 to 7 of R293 for a packet that passed the policer. -/
def State.tmAdmit (s : State) (p : Nat) (k : Pkt) (d : Dest) : State :=
  let c := k.f 7 24 4
  let loss := s.isLossless k.port c
  if s.fld (R.TM_IN_DROP k.port c) F.TM_IN_DROP.UNITS * 256 < s.inOcc k.port c + k.len then
    let s := if loss then s.cause (R.TM_PORT_CAUSE k.port) F.TM_PORT_CAUSE.HEADROOM else s
    s.dropWhole k 0xFA
  else
    let k := { k with cls := c, lossless := loss, floor := s.ttMark (s.ownerOfPipe p) c }
    match d with
    | .no code => s.dropWhole k code
    | .one n =>
      match s.step6 n c k.len loss with
      | some code => (s.qDropCount n c k.len code).dropWhole k code
      | none => (s.occAdd k.port c k.len).tmPush n c { k with inCharged := true, tmTick := k.tmTick + 3 }
    | .many ns =>
      match s.bpmMove (rqCode (s.ownerOfPipe p) 6) k.handle with
      | (false, s) => s.dropWhole k 0xF7
      | (true, s) =>
        let k := { k with rq := rqCode (s.ownerOfPipe p) 6, tmTick := k.tmTick + 2 }
        let q := s.pipe p
        if 512 ≤ q.repl.length then s.dropWhole k 0xF0
        else
          let r : McRec := { left := ns.length, port := k.port, cls := c, len := k.len, rq := k.rq, charged := true }
          let s := { s with tm := { s.tm with mc := SMap.put (fun _ => none) s.tm.mc k.handle (some r) } }
          (s.setPipe p { q with repl := q.repl ++ [({ k with kind := .replica }, ns)] }).occAdd k.port c k.len

/-- The packet of pipeline p that left ingress stage 15 first passes steps 1 to 7 of R293, within the three ticks of Table 11.1. -/
def State.tmEnqueue (s : State) (p : Nat) : State :=
  match s.waiting p 24 with
  | [] => s
  | k :: rest =>
    let s := s.setWaiting p 24 rest
    if k.drop then s.dropWhole k k.dropCode
    else if k.f 7 28 2 = 3 then s.dropWhole k 0xFF
    else if s.bufFenced k.handle then (s.sliceLoss k.rq k.handle).dropWhole k 0xF4
    else
      match s.resolve p k with
      | (.no code, s) => s.dropWhole k code
      | (d, s) =>
        match s.police p k with
        | (.error code, s) => s.dropWhole k code
        | (.ok k, s) => s.tmAdmit p k d

/-- A frame that enters a port queue directly: a mirror copy, an injected frame or a sheet (R61, R422, R583). Answers
whether it was enqueued. -/
def State.tmDirect (s : State) (n c : Nat) (k : Pkt) : Bool × State :=
  if !s.portEnabled n then (false, (s.tmDropCount k 0xF2).qDropCount n c k.len 0xF2)
  else
    match s.step6 n c k.len false with
    | some code => (false, (s.tmDropCount k code).qDropCount n c k.len code)
    | none => (true, s.tmPush n c { k with tmTick := s.tm.tick + 1 })

/-- Packets whose three ticks are over pass R293, at most `fuel` of them (Table 11.1). -/
def State.tmPass (s : State) (p : Nat) : Nat → State
  | 0 => s
  | fuel + 1 =>
    match s.waiting p 24 with
    | [] => s
    | k :: _ => if k.tmTick + 3 ≤ s.tm.tick then (s.tmEnqueue p).tmPass p fuel else s

/-- One tick of the replicator of pipeline p: at most 16 replicas of the packet at its head, once in the tick (R300). -/
def State.replicaMake (s : State) (p : Nat) : State :=
  match (s.pipe p).repl with
  | [] => s
  | (k, ns) :: rest =>
    if s.tm.tick < k.tmTick ∨ s.tm.tick < (s.pipe p).replAt then s
    else
    let left := ns.drop 16
    let s := s.setPipe p { s.pipe p with repl := if left.isEmpty then rest else (k, left) :: rest, replAt := s.tm.tick + 1 }
    let k := { k with tmTick := s.tm.tick + 1 }
    (ns.take 16).foldl (fun s n =>
      if !s.portEnabled n then s.dropQueued n k.cls k 0xF2
      else
        match s.step6 n k.cls k.len k.lossless with
        | some code => s.dropQueued n k.cls k code
        | none => s.tmPush n k.cls k) s

/-! ### The scheduler (R312 to R317, R390 to R392) -/

/-- The head of a queue, unless it is a Timetable packet, which goes by its due time alone (R312, log entry 147). -/
def QueueSt.head (q : QueueSt) : Option Pkt := q.pkts.head?.filter fun k => k.floor.isNone

/-- Remove the first packet equal to `k`. -/
def QueueSt.take (q : QueueSt) (k : Pkt) : QueueSt := { q with pkts := q.pkts.erase k }

/-- The Timetable packets of port n that are held and not yet released, with their due times. -/
def State.ttHeld (s : State) (n : Nat) : List (Pkt × Int) :=
  (List.range 16).flatMap fun c => (s.tmq n c).pkts.filterMap fun k => k.floor.map fun fl => (k, s.ttDue k fl)

/-- The smallest due time held for port n (R392). -/
def State.ttNext (s : State) (n : Nat) : Option Int :=
  match (s.ttHeld n).map (·.2) with
  | [] => none
  | d :: ds => some (ds.foldl min d)

/-- Queue (n, c) is eligible for its ordinary head (R312, R392). -/
def State.eligible (s : State) (n c : Nat) : Option Pkt :=
  let q := s.tmq n c
  match q.head with
  | none => none
  | some k =>
    if s.held n c || !s.peakOk n c || decide (s.tm.tick < k.tmTick) then none
    else if s.marked (s.ownerOfPort n) c then some k
    else
      match s.ttNext n with
      | some d => if s.ttGuard n k.len d then some k else none
      | none => some k

def State.isDwrr (s : State) (n c : Nat) : Bool := s.bit (R.TM_Q_SCHED n c) F.TM_Q_SCHED.MODE
def State.dwrrAdd (s : State) (n c : Nat) : Nat := max 1 (s.fld (R.TM_Q_SCHED n c) F.TM_Q_SCHED.WEIGHT) * 128

/-- The DWRR choice among the queues of `set`, in ascending class order: visits from the class `cur` on (R314). -/
def State.dwrr (s : State) (n : Nat) (set : List (Nat × Pkt)) : Nat → Nat → Bool → State × Option (Nat × Pkt)
  | 0, _, _ => (s, none)
  | fuel + 1, cur, visited =>
    match if visited then set.find? (fun e => e.1 = cur) else none with
    | some (c, k) =>
      let q := s.tmq n c
      if k.len ≤ q.deficit then
        ((s.setTmq n c { q with deficit := q.deficit - k.len }).setPtm n { s.ptm n with cur := c, visited := true }, some (c, k))
      else s.dwrr n set fuel cur false
    | none =>
      match (set.find? fun e => decide (cur < e.1)).orElse fun _ => set.head? with
      | none => (s, none)
      | some (c, _) =>
        let q := s.tmq n c
        (s.setTmq n c { q with deficit := q.deficit + s.dwrrAdd n c }).dwrr n set fuel c true

/-- A queue found empty has its deficit set to 0. -/
def State.dwrrClear (s : State) (n : Nat) : State :=
  (List.range 16).foldl (fun s c =>
    let q := s.tmq n c
    if q.pkts.isEmpty && decide (q.deficit ≠ 0) then s.setTmq n c { q with deficit := 0 } else s) s

/-- A bucket of `depth` bytes after a frame of `len` bytes: it never falls below −10,240 bytes (R317). -/
def Bucket.spend (b : Bucket) (depth len : Nat) : Bucket :=
  let t := b.take len
  { t with lack := min t.lack ((depth + 10240) * 128000) }

/-- Subtract a frame from the buckets of its queue and its port whose rate is not 0 (R317). -/
def State.shpTake (s : State) (n c len : Nat) : State :=
  let one := fun (b : Bucket) rate depth => if rate = 0 then b else (b.refill rate s.clk16).spend depth len
  let q := s.tmq n c
  let p := s.ptm n
  let s1 := s.setTmq n c { q with cb := one q.cb (s.qShp n c).cir (s.qShp n c).cbs, pb := one q.pb (s.qShp n c).pir (s.qShp n c).pbs }
  s1.setPtm n { p with
    cb := one p.cb (s.portShp n).cir (s.portShp n).cbs, pb := one p.pb (s.portShp n).pir (s.portShp n).pbs }

/-- The selected packet leaves its queue: into an egress berth's wait, to enter the egress half 25 ticks later, or dropped when its slice is
fenced (R288, R292). -/
def State.dispatch (s : State) (n c : Nat) (k : Pkt) : State :=
  let s := s.setTmq n c ((s.tmq n c).take k)
  if s.bufFenced k.handle then ((s.sliceLoss k.rq k.handle).dropQueued n c k 0xF4).stallEval n c
  else
    let s := s.shpTake n c k.len
    let s := (s.addCnt (C.TM_Q_TX_FRAMES n c) 1).addCnt (C.TM_Q_TX_BYTES n c) k.len
    let s := s.setTmq n c { s.tmq n c with stallAt := none }
    let p := pipeOfPort n
    (s.setPipe p { s.pipe p with egress := (s.pipe p).egress ++ [{ k with tmTick := s.tm.tick + 25 }] }).stallEval n c

/-- The order of due Timetable frames of port n: D, then ingress port counted from the tie pointer (R390, R391). -/
def ttFirst (ptr : Nat) : List (Pkt × Int) → Option (Pkt × Int)
  | [] => none
  | x :: xs => some (xs.foldl (fun a b =>
    let key := fun (k : Pkt) => (k.port + 1024 - ptr) % 1024
    if b.2 < a.2 ∨ (b.2 = a.2 ∧ key b.1 < key a.1) then b else a) x)

/-- The scheduler of port n selects a frame, if one may go (R313, R390). -/
def State.schedulerSelect (s : State) (n : Nat) : State :=
  if !s.linkUp n || !s.portOk n then s
  else
    let due := (s.ttHeld n).filter fun e =>
      e.1.dueNow && !s.held n e.1.cls && s.peakOk n e.1.cls && decide (e.1.tmTick ≤ s.tm.tick)
    let ptr := s.fld (R.PORT_TT_TIE n) F.PORT_TT_TIE.PTR
    match ttFirst ptr due with
    | some (k, d) =>
      let tie := due.any fun e => decide (e.2 = d ∧ e.1 ≠ k)
      let s := if tie then s.setFld (R.PORT_TT_TIE n) F.PORT_TT_TIE.PTR ((k.port + 1) % 1024) else s
      s.dispatch n k.cls k
    | none =>
      let s := s.dwrrClear n
      let elig := (List.range 16).filterMap fun c => (s.eligible n c).map fun k => (c, k)
      let com := elig.filter fun e =>
        decide ((s.qShp n e.1).cir ≠ 0) && bucketOk (s.tmq n e.1).cb (s.qShp n e.1).cir (s.qShp n e.1).cbs s.clk16
      let set := if com.isEmpty then elig else com
      match (set.filter fun e => !s.isDwrr n e.1).getLast? with
      | some (c, k) => s.dispatch n c k
      | none =>
        match s.dwrr n set 3000 (s.ptm n).cur (s.ptm n).visited with
        | (s, some (c, k)) => s.dispatch n c k
        | (s, none) => s

/-! ### When a port goes away (R297, R322 to R324) -/

/-- LIVE sets, LINK_UP having stayed 1 for UP_HOLD ms. -/
def State.liveSet (s : State) (n : Nat) : State := if s.linkUp n then s.setLive n true else s

/-- LINK_UP has stayed 0 for DOWN_FLUSH µs. -/
def State.downFlush (s : State) (n : Nat) : State :=
  if s.linkUp n || !s.portEnabled n || s.downDrop n || decide (s.fld (R.TM_PORT_CTL n) F.TM_PORT_CTL.DOWN_FLUSH = 0) then s
  else
    let s := s.setBit (R.TM_PORT_STATUS n) F.TM_PORT_STATUS.DOWN_DROP true
    (s.ariseF (R.TM_PORT_CAUSE n) F.TM_PORT_CAUSE.DOWN_FLUSH).flushPort n 0xF6

/-- The watchdog state, the deficits and XOFF of port n end (R323). A port that still runs releases XOFF by a frame. -/
def State.tmPortEnd (s : State) (n : Nat) : State :=
  let s := (List.range 16).foldl (fun s c =>
    s.setTmq n c { s.tmq n c with deficit := 0, stallAt := none, emptyAt := none }) s
  let s := s.setFld (R.TM_PORT_STATUS n) F.TM_PORT_STATUS.DISCARD 0
  let old := (s.reg (R.TM_FC_STATUS n)).toNat
  let s := s.setReg (R.TM_FC_STATUS n) 0
  let s := s.setPtm n { s.ptm n with cur := 0, visited := false, ctl := [], changed := if s.linkUp n then old else 0 }
  if s.linkUp n && decide (old ≠ 0) then s.ctlPush n .fc else s

/-! ### Indirect access (R326, Table 11.5) -/

/-- The words of TM_IA_DATA as a WRITE takes them. -/
def State.tmData (s : State) (p k : Nat) : Nat := (s.reg (R.TM_IA_DATA p k)).toNat

/-- The words of TM_IA_DATA after a READ. -/
def State.setTmData (s : State) (p : Nat) (ws : List Nat) : State :=
  (List.range 32).foldl (fun s k => s.setReg (R.TM_IA_DATA p k) (BitVec.ofNat 32 (ws.getD k 0))) s

/-- A policer as DATA[0] to DATA[7]: pending values where a WRITE waits for its boundary. -/
def PolSt.words (q : PolSt) : List Nat :=
  let c := (q.late.orElse fun _ => q.pend).getD q.cfg
  let b := if q.pend.isSome || q.late.isSome then 2 ^ 31 else 0
  [c.cir, c.pir, c.cbs, c.pbs, b + c.act, q.green, q.yellow, q.red]

/-- The bits that Table 11.5 gives a word. -/
def andBits (v m : Nat) : Nat := Nat.land v m

/-- A Round-effective write now waits for the boundary after the coming one (R36). -/
def State.lateInRound (s : State) : Bool := decide (62400 ≤ s.fld R.DEV_ROUND_PHASE F.DEV_ROUND_PHASE.PHASE)

/-- Word 0 of a member group as a WRITE takes it. -/
def State.tmGroup (s : State) (p : Nat) : Nat := andBits (s.tmData p 0) 0x80FFFFFF

/-- The result that refuses the operation of TM_IA_CMD of pipeline p; 0 where none does. -/
def State.tmIaRefusal (s : State) (p : Nat) : Nat :=
  let op := s.fld (R.TM_IA_CMD p) F.TM_IA_CMD.OP
  let tg := s.fld (R.TM_IA_CMD p) F.TM_IA_CMD.TARGET
  let i := s.fld (R.TM_IA_CMD p) F.TM_IA_CMD.INDEX
  let grp := s.tmGroup p
  if s.pipeHeld p then 3
  else if 2 < op ∨ 3 < tg ∨ (op = 2 ∧ tg ≠ 0) ∨ (tg = 1 ∧ 4096 ≤ i) ∨
      (tg = 1 ∧ op = 1 ∧ 65536 < grp % 2 ^ 16 + grp / 2 ^ 16 % 256 + 1) then 1
  else if tg = 3 && !s.mcInRange (s.ownerOfPipe p) i then 2
  else 0

/-- TM_IA_STATUS of pipeline p shows a result; GO reads 1 while it is 0xF, busy. -/
def State.tmIaDone (s : State) (p r : Nat) : State :=
  (s.setFld (R.TM_IA_STATUS p) F.TM_IA_STATUS.RESULT r).setBit (R.TM_IA_CMD p) F.TM_IA_CMD.GO (decide (r = 0xF))

/-- The operation of pipeline p is refused. -/
def State.tmIaRefuse (s : State) (p r : Nat) : State :=
  let s := s.tmIaDone p r
  if r = 3 then s.cause (R.TM_PIPE_CAUSE p) F.TM_PIPE_CAUSE.IDLE_VIOL else s

/-- TM_IA_CMD.GO of pipeline p: the operation is judged, and runs for one tick (R326). -/
def State.tmIaGo (s : State) (p : Nat) : State :=
  let r := s.tmIaRefusal p
  if r ≠ 0 then s.tmIaRefuse p r else s.tmIaDone p 0xF

/-- The operation that TM_IA_CMD of pipeline p names is carried out: it writes or reads a whole entry (R326, Table 11.5). -/
def State.tmIaRun (s : State) (p : Nat) : State :=
  let op := s.fld (R.TM_IA_CMD p) F.TM_IA_CMD.OP
  let tg := s.fld (R.TM_IA_CMD p) F.TM_IA_CMD.TARGET
  let i := s.fld (R.TM_IA_CMD p) F.TM_IA_CMD.INDEX
  let d := s.tmData p
  let grp := s.tmGroup p
  let r := s.tmIaRefusal p
  if r ≠ 0 then s.tmIaRefuse p r
  else
    let s := s.tmIaDone p 0
    match tg, decide (op = 1) with
    | 0, true =>
      let c : PolCfg := ⟨d 0 % 2 ^ 21, d 1 % 2 ^ 21, d 2 % 2 ^ 24, d 3 % 2 ^ 24, andBits (d 4) 0x4000FF0F⟩
      let q := s.policer p i
      let s := s.setPolicer p i (if s.lateInRound then { q with late := some c } else { q with pend := some c })
      if c.act % 4 = 3 ∨ c.act / 4 % 4 = 3 then s.cause (R.TM_PIPE_CAUSE p) F.TM_PIPE_CAUSE.CFG else s
    | 0, false =>
      let q := s.policer p i
      let s := s.setTmData p q.words
      let ro := [0, 0, 0, 0, q.words.getD 4 0 / 2 ^ 31 * 2 ^ 31, q.green, q.yellow, q.red]
      let s := { s with tm := { s.tm with polRo := SMap.put (fun _ => []) s.tm.polRo p ro } }
      if op = 2 then s.setPolicer p i { q with green := 0, yellow := 0, red := 0 } else s
    | 1, true => { s with tm := { s.tm with grp := SMap.put (fun _ => 0) s.tm.grp (p * 2 ^ 12 + i) (BitVec.ofNat 32 grp) } }
    | 1, false => s.setTmData p [(SMap.get (fun _ => 0) s.tm.grp (p * 2 ^ 12 + i)).toNat]
    | 2, true =>
      { s with tm := { s.tm with
          slot := SMap.put (fun _ => 0) s.tm.slot (p * 2 ^ 16 + i) (BitVec.ofNat 32 (andBits (d 0) 0xC3FFFFFF)) } }
    | 2, false => s.setTmData p [(SMap.get (fun _ => 0) s.tm.slot (p * 2 ^ 16 + i)).toNat]
    | _, true =>
      let v := (List.range 32).foldr (fun k a => d k + 2 ^ 32 * a) 0
      { s with tm := { s.tm with mcast := SMap.put (fun _ => 0) s.tm.mcast i v } }
    | _, false =>
      let v := SMap.get (fun _ => 0) s.tm.mcast i
      s.setTmData p ((List.range 32).map fun k => v / 2 ^ (32 * k) % 2 ^ 32)

/-- A tick of the traffic manager: the indirect operation of each pipeline that runs one is carried out. -/
def State.tmIaTurn (s : State) : State :=
  (List.range 16).foldl (fun s p => if s.bit (R.TM_IA_CMD p) F.TM_IA_CMD.GO then s.tmIaRun p else s) s

/-- A pulse of the core tick clock reaches the traffic manager region, or is withheld from it (R292, R300, R495): the replicators end their
tick, the next begins, and the packets whose ticks at enqueue are over pass. -/
def State.tmPulse (s : State) (on : Bool) : State :=
  if !on then { s with tm := { s.tm with skip := true } }
  else
    let s := (List.range 16).foldl (fun s p => s.replicaMake p) s
    let s : State := { s with tm := { s.tm with tick := s.tm.tick + 1, skip := false } }
    ((List.range 16).foldl (fun s p => s.tmPass p (s.waiting p 24).length) s).tmIaTurn

/-- A Round boundary applies the pending configuration of every policer whose Pitch runs, and sets its buckets (R321). -/
def State.polRound (s : State) : State :=
  s.tm.pol.foldl (fun s e =>
    let p := e.1 / 2 ^ 16
    let i := e.1 % 2 ^ 16
    let q := s.policer p i
    match q.pend with
    | none => s.setPolicer p i { q with pend := q.late, late := none }
    | some c => s.setPolicer p i { q with cfg := c, pend := q.late, late := none, b := c.meter.setBoth (nbit c.act 30) s.clk16 }) s

/-- Both buckets of the shaper of queue (n, c), or of port n, are set full or empty (R321). -/
def State.qShpReset (s : State) (n c : Nat) : State :=
  let e := s.bit (R.TM_Q_SHP_CTL n c) F.TM_Q_SHP_CTL.TOKEN_RESET
  let f := fun d => if e then Bucket.empty d s.clk16 else Bucket.full s.clk16
  s.setTmq n c { s.tmq n c with cb := f (s.qShp n c).cbs, pb := f (s.qShp n c).pbs }
def State.portShpReset (s : State) (n : Nat) : State :=
  let e := s.bit (R.TM_PORT_SHP_CTL n) F.TM_PORT_SHP_CTL.TOKEN_RESET
  let f := fun d => if e then Bucket.empty d s.clk16 else Bucket.full s.clk16
  s.setPtm n { s.ptm n with cb := f (s.portShp n).cbs, pb := f (s.portShp n).pbs }

/-! ### The mirror session (R57 to R62) -/

def State.mirDrop (s : State) : State := s.addSat32 R.PIT_MIR_DROP 1

/-- The session copies at this point (0 ingress, 1 egress) for source port n. -/
def State.mirSource (s : State) (n pt : Nat) : Bool :=
  let dir := s.fld R.PIT_MIR_CTL F.PIT_MIR_CTL.DIR
  s.bit R.PIT_MIR_CTL F.PIT_MIR_CTL.EN && (decide (dir = pt) || decide (dir = 2)) &&
    (s.reg (R.PIT_MIR_SRC (n / 32))).getLsbD (n % 32) && s.formed n && !s.inReset (s.ownerOfPort n)

/-- The bytes of a copy: whole, or cut with a new FCS. -/
def State.mirCut (s : State) (bs : Bytes) : Bytes :=
  let l := s.fld R.PIT_MIR_TRUNC F.PIT_MIR_TRUNC.LEN
  let l := if l = 0 then bs.length else if l < 64 ∨ 10240 < l then 64 else l
  if bs.length ≤ l then bs else withFcs (bs.take (l - 4))

/-- A frame passes the copy point `pt` of port n: at most one copy of it is made, when the tick ends (R58, R59, R276). DESIGN CHOICE: a copy is
never copied again where it leaves, on which the spec is silent (log entry 134). -/
def State.mirrorCopy (s : State) (n pt : Nat) (k : Pkt) (frame : Bytes) : State :=
  if !s.mirSource n pt || decide (k.kind = .mirror) then s
  else { s with tm := { s.tm with mir := s.tm.mir ++ [(k, frame)] } }

/-- The mirror session makes its copy of a frame. DESIGN CHOICE: a copy that finds no buffer takes no token of the mirror bucket, on which the
spec is silent (log entry 133). -/
def State.mirrorMake (s : State) (k : Pkt) (frame : Bytes) : State :=
    let dst := s.fld R.PIT_MIR_CTL F.PIT_MIR_CTL.DEST_PORT
    let c := s.fld R.PIT_MIR_CTL F.PIT_MIR_CTL.CLASS
    let bs := s.mirCut frame
    let cir := min 1600000 (s.fld R.PIT_MIR_RATE F.PIT_MIR_RATE.CIR)
    let depth := max 10240 (s.fld R.PIT_MIR_BURST F.PIT_MIR_BURST.BYTES)
    let b := s.mirror.refill cir s.clk16
    if s.inReset (s.ownerOfPort dst) || !s.portEnabled dst then s.mirDrop
    else if cir = 0 ∨ b.level depth < bs.length * 128000 then { s with mirror := b }.mirDrop
    else
      match s.bpmAlloc (rqCode 0 7) bs.length bs with
      | (.granted h, s) =>
        let s := { s with mirror := b.take bs.length }
        let k : Pkt := { kind := .mirror, handle := h, rq := rqCode 0 7, port := k.port, len := bs.length, win := bs.take 512 }
        match s.tmDirect dst c k with
        | (true, s) => s
        | (false, s) => s.pktGone k false
      | (_, s) => s.mirDrop

/-- The mirror writer has its turn at the end of a tick, the last of those that ask for buffers (R276). -/
def State.mirrorTurn (s : State) : State :=
  s.tm.mir.foldl (fun s e => s.mirrorMake e.1 e.2) { s with tm := { s.tm with mir := [] } }

end Sys2Proof.Machine
end

