-- ==== Sys2Proof/Machine/Tx.lean ====
section
/-! DEFINITION. From the deparser to the lands: the outgoing frame (R219), insertion (R372 to R377), the capture of R378,
the Waybill record of a frame (R404 to R408), start slots and lateness (R371, R389, R393), the MAC's own frames (R114,
R346, R381) and the end of a frame (R270). -/

namespace Sys2Proof.Machine

/-! ### Building the frame (R219) -/

/-- Parts 1 and 2 of the outgoing frame: the header vector bytes that m11 selects, then the frame from PARSED_LEN up to its
old FCS. -/
def emitParts (list : List (Nat × Nat)) (k : Pkt) (frame : Bytes) : Bytes :=
  (list.zipIdx.flatMap fun e => if nbit (k.r 11) e.2 then slice k.hv e.1.1 e.1.2 else []) ++
    (frame.take (k.len - 4)).drop (k.f 2 0 9)

/-- Zero padding to 60 bytes. -/
def padFrame (bs : Bytes) : Bytes := bs ++ List.replicate (60 - bs.length) 0

/-! ### Insertion (R372 to R376) -/

/-- A 64-bit correctionField with `x` added, saturating at 2^63 − 1, and whether it saturated (R373). -/
def corrAdd (old : Nat) (x : Int) : Nat × Bool :=
  if old = 2 ^ 63 - 1 then (old, false)
  else
    let v := sext 64 old + x
    if 2 ^ 63 - 1 < v then (2 ^ 63 - 1, true) else (trunc 64 v, false)

/-- The bytes that insertion writes, as offset and contents, and whether a correctionField saturates (Table 13.2). -/
def insertion (mode off : Nat) (e : Bytes) (t : TimeVal) (res : Int) : List (Nat × Bytes) × Bool :=
  let corr := beNat (slice e (off + 8) 8)
  let two := (byteAt e (off + 6)).getLsbD 1
  match mode with
  | 1 =>
    if two then ([], false)
    else
      let (c, sat) := corrAdd corr t.f
      ([(off + 34, natBE 6 t.s ++ natBE 4 t.n), (off + 8, natBE 8 c)], sat)
  | 2 =>
    let (c, sat) := corrAdd corr res
    ([(off + 8, natBE 8 c)], sat)
  | 3 => ([(off, natBE 6 t.s ++ natBE 4 t.n)], false)
  | 4 => ([(off, natBE 4 t.s ++ natBE 4 t.n)], false)
  | 5 => ([(off, natBE 4 t.n)], false)
  | _ => ([], false)

/-- Insertion is refused (R374). -/
def insertRefused (ws : List (Nat × Bytes)) (len off : Nat) (fix : Bool) (udp : Nat) : Bool :=
  (ws.any fun w => decide (len < w.1 + w.2.length)) ||
  (fix && (decide (len ≤ udp + 1) || (ws.any fun w => decide (w.1 < udp + 2 ∧ udp < w.1 + w.2.length)) ||
    decide (udp % 2 = 1) || decide (off % 2 = 1)))

/-- The 16-bit words of a frame, from even offsets. -/
def words16 : Bytes → List Nat
  | a :: b :: r => (a.toNat * 256 + b.toNat) :: words16 r
  | [a] => [a.toNat * 256]
  | [] => []

/-- The UDP checksum after the words of `e` became those of `e'` (R376). -/
def udpFix (hc : Nat) (e e' : Bytes) : Nat :=
  if hc = 0 then 0
  else
    let sum := ((words16 e).zip (words16 e')).foldl (fun a w => if w.1 = w.2 then a else a + (65535 - w.1) + w.2) (65535 - hc)
    let v := 65535 - fold16 sum
    if v = 0 then 65535 else v

/-- The residence time of a packet with egress stamp `t`, in 2^-16 ns, with the link delay of R380. -/
def State.residence (s : State) (k : Pkt) (t : TimeVal) : Int :=
  (t.units : Int) - k.stamp.units - (s.time.moves - k.moves) +
    (if k.port < 1024 && s.bit (R.PORT_TS_CTL k.port) F.PORT_TS_CTL.P2P then (k.p2p : Int) else 0)

/-- What the deparser of port n writes into the emitted bytes `e` of a packet with egress stamp `t`. -/
def State.tsInsert (s : State) (n : Nat) (k : Pkt) (e : Bytes) (t : TimeVal) : Bytes × State :=
  let mode := k.f 8 27 3
  let off := k.f 8 0 9
  let fix := nbit (k.r 8) 26
  let udp := k.f 8 9 9
  if !k.runs then (e, s)
  else
    match insertion mode off e t (s.residence k t) with
    | ([], _) =>
      if mode = 1 then
        (e, s.txqPush n ⟨t, (byteAt e off).toNat % 16, (byteAt e (off + 4)).toNat, beNat (slice e (off + 30) 2)⟩)
      else (e, s)
    | (ws, sat) =>
      if insertRefused ws e.length off fix udp then
        (e, (s.addCnt (C.TS_OOR n) 1).cause (R.PORT_TS_CAUSE n) F.PORT_TS_CAUSE.OOR)
      else
        let e1 := ws.foldl (fun e w => splice e w.1 w.2) e
        let e2 := if fix then splice e1 udp (natBE 2 (udpFix (beNat (slice e udp 2)) e e1)) else e1
        let s := s.addCnt (if mode = 2 then C.TS_TC_CORR n else C.TS_INSERT n) 1
        let s := if sat then (s.addCnt (C.TS_TC_SAT n) 1).cause (R.PORT_TS_CAUSE n) F.PORT_TS_CAUSE.TC_SAT else s
        (e2, s)

/-! ### The Waybill record of a frame (R404 to R408) -/

/-- DSEL and DIGEST of a packet. -/
def State.wbDigest (s : State) (k : Pkt) : Nat × Bytes :=
  let img := (s.pipe (pipeOfPort k.port)).img.getD {}
  if img.dsel = 0 then (0, List.replicate 8 0)
  else (img.dsel, (sha256 (natBE 2 (k.f 2 16 14) ++ img.runs.flatMap fun r => slice k.win r.1 r.2)).take 8)

/-- The frame record of packet k, sent by port n with egress stamp `t`, late for `reason` (0: not late). -/
def State.frameRec (s : State) (n : Nat) (k : Pkt) (t : TimeVal) (reason seq : Nat) : Bytes :=
  let b := fun (c : Bool) v => if c then v else 0
  let d := s.wbDigest k
  let ofs := (t.units - k.stamp.units) / 4096
  [BitVec.ofNat 8 (b k.floor.isSome 32 + b (decide (reason ≠ 0)) 16 + b (decide (k.steps ≠ (s.reg R.TIME_STEP_CNT).toNat)) 8 +
      b k.hold 4 + b k.notSet 2),
   BitVec.ofNat 8 (reason * 32 + s.ownerOfPort k.port)] ++
    natBE 3 (k.cls * 2 ^ 20 + k.port % 1024 * 2 ^ 10 + n) ++ [BitVec.ofNat 8 d.1] ++ natBE 6 seq ++ wbTime k.stamp ++
    natBE 4 (min ofs (2 ^ 32 - 1)) ++ d.2

/-- The frame of packet k, from the deparser of port n's pipeline, has its record for the stream of the Pitch of its ingress pipeline, and
the stream takes it with the others of the tick (R409). -/
def State.wbFrame (s : State) (n : Nat) (k : Pkt) (t : TimeVal) (reason : Nat) : State :=
  let e : WbDue := { pipe := pipeOfPort n, strm := s.ownerOfPort k.port, body := s.frameRec n k t reason 0, t := k.stamp, hold := k.hold }
  { s with wb := { s.wb with due := wbInsert e s.wb.due } }

/-! ### The MAC (R107, R371) -/

/-- The time on the wire of a frame of `len` bytes at port n, in 1/16 ns, rounded up (R107). -/
def State.wire16 (s : State) (n len : Nat) : Nat :=
  let r := max 1 (s.macRate n)
  ((len + 20) * 128 + r - 1) / r


/-- What the MAC of port n sends reaches the output lands: its link is up, no lane of it is in loopback, and no TAP instruction
has the lands (R99, R119, R603). -/
def State.macDrives (s : State) (n : Nat) : Bool :=
  s.linkUp n && !s.outputsLost && (s.lanesOf n).all fun l => decide (s.loop l = 0)

/-- Every lane of port n is in near-end or parallel loopback: what its MAC sends comes back to it (R99). -/
def State.loopedBack (s : State) (n : Nat) : Bool := s.formed n && (s.lanesOf n).all s.landsOff

/-- The bytes of a frame that a MAC sends. -/
def Emit.bytes : Emit → Bytes
  | .frame _ b _ => b
  | .ctrlFrame _ b => b
  | _ => []

/-- The frame of a MAC was cut off. -/
def Emit.wasCut : Emit → Bool
  | .frame _ _ c => c
  | _ => false

/-- What the MAC of port n sends leaves at the lands, or goes through a loopback (R99). -/
def State.emitMac (s : State) (n : Nat) (e : Emit) : State :=
  if s.loopedBack n && s.linkUp n then s.setPort n { s.port n with loopRx := (s.port n).loopRx ++ [(e.bytes, e.wasCut)] }
  else if s.macDrives n then s.emit e else s

/-- The symbols of an Onazel port, or the blocks of a forwarded-clock port, for a frame that its MAC starts; no frame leaves with the link
down (R119, R121, R131). -/
def State.lineFrame (s : State) (n : Nat) (bytes : Bytes) : State :=
  if !s.linkUp n then s
  else if s.mode n = 4 then s.onzSendFrame n bytes else if s.mode n = 5 then s.fwdFrame n bytes else s

/-- A frame scheduled to a port whose generator drives is dropped and counted; the counter is not stated (R96). -/
def State.genDrop (s : State) (n : Nat) : State :=
  let (b, s) := s.freeBool
  s.addCnt (if b then C.TX_CUT n else C.TX_OVERSIZE_DROP n) 1

/-- The lateness that a late frame shows. A frame that a counter fault releases counts as late though it may leave before its
due time (R400); what it then shows is not stated. -/
def State.lateAmount (s : State) (amt : Int) : Nat × State :=
  if 0 ≤ amt then (amt.toNat, s) else s.freeWord

/-! ### The start slot (R371, R387, R389, R390) -/

/-- The longest time, in 1/16 ns rounded up, from one boundary at which the MAC of port n can start a frame to the next (Table 14.1). -/
def State.startGrain (s : State) (n : Nat) : Nat :=
  if s.mode n = 4 then 1 else (1024 + max 1 (s.macRate n) - 1) / max 1 (s.macRate n)

/-- When the MAC of port n is next free, in 1/16 ns: behind the frames whose slots it has fixed and the control frame last sent. -/
def State.macFree (s : State) (n : Nat) : Nat := max (s.ptm n).lastEnd (s.ptm n).ctlEnd

/-- A frame that starts at the instant `x` crosses the transmit plane within the precision of port n of its due time `d` (R387). -/
def State.onTarget (s : State) (n : Nat) (d : Int) (x : Nat) : Bool :=
  let e : Int := (s.egressStamp n x).units - d
  decide (e * 10 ≤ (s.ttPrecision n : Int) * 65536 ∧ -((s.ttPrecision n : Int) * 65536) ≤ e * 10)

/-- The instant, in 1/16 ns, at which the time base as it runs comes nearest to the MAC target of a frame with due time `d` (R389). -/
def State.targetInst (s : State) (n : Nat) (d : Int) : Nat :=
  let g := s.segNow
  let v := s.ttTarget n d / 3400 - g.v
  if g.inc ≤ 0 then s.t16 else (((g.edge : Int) * 16 + (v * 16 + g.inc / 2) / g.inc).toNat)

/-- The slot at which the MAC of port n starts a frame with due time `d`, if any, `slot` naming one of the boundaries that it may take. A
Timetable frame that is early starts at the boundary nearest its target; every other frame, and one that a counter fault released, at the
first boundary that it can take (log entry 145). -/
def State.txSlot (s : State) (n slot : Nat) (d : Option Int) : Nat :=
  let first := max s.t16 (s.macFree n)
  match d.filter fun d => decide (s.fineAt first * 3400 < s.ttTarget n d) with
  | some d => if s.onTarget n d (max first slot) then max first slot else max first (s.targetInst n d)
  | none => max first (min slot (first + s.startGrain n))

/-- What the deparser of pipeline p puts out for packet k: the bytes without FCS where it computes that, before insertion (R219). -/
def State.rawOut (s : State) (p : Nat) (k : Pkt) (frame : Bytes) : Bytes :=
  match k.kind with
  | .sheet _ => k.win ++ frame
  | .mirror => frame
  | .injected => frame.take k.len
  | _ => emitParts (((s.pipe p).img.getD {}).deparse) k frame

/-- The bytes of the frame, whole: padded and with a new FCS where the deparser computes it. -/
def wholeOut (k : Pkt) (e : Bytes) : Bytes :=
  match k.kind with
  | .sheet _ => withFcs e
  | .mirror | .injected => e
  | _ => withFcs (padFrame e)

/-- The spans of a port's frames on the wire with one more, ones without a gap between them being one. -/
def spanAdd (start stop : Nat) : List (Nat × Nat) → List (Nat × Nat)
  | (a, b) :: r => if b = start then (a, stop) :: r else (start, stop) :: (a, b) :: r
  | [] => [(start, stop)]

/-- The MAC of port n was, or will be, still sending a frame at the MAC target of a frame with due time `d` (R394): that frame began no
later than the target, and ends after it. -/
def State.ttContend (s : State) (n : Nat) (d : Int) : Bool :=
  (s.ptm n).spans.any fun e =>
    decide (s.timeMoved (4 * e.1) * 3400 ≤ s.ttTarget n d ∧ s.ttTarget n d < s.timeMoved (4 * e.2) * 3400)

/-- The frame reaches the MAC no later than its MAC target, with due time `d` (R389). -/
def State.ttInTime (s : State) (n : Nat) (d : Int) : Bool := decide (s.fineAt s.t16 * 3400 ≤ s.ttTarget n d)

/-- Packet k, emitted by port n as the bytes `e`, enters the MAC: insertion, its Waybill record, its mirror copy and its slot (R232, R276,
R371, R393, R394). DEDUCED: a late frame that reached the MAC in time waits there behind another, which takes the slot at its target, and so
contends (worked example 3 of chapter 14, log entry 171). -/
def State.toMac (s : State) (n slot : Nat) (k : Pkt) (e : Bytes) (bad : Bool) : State :=
  let due := k.floor.map fun fl => s.ttDue k fl
  let start := s.txSlot n slot (if k.freed then none else due)
  let t := s.egressStamp n start
  let isLate := due.any fun d => k.freed || s.ttIsLate n t d
  let contend := due.any fun d => s.ttContend n d || s.ttInTime n d
  let reason := if !isLate then 0 else if k.reason ≠ 0 then k.reason else if contend then 6 else 7
  let (late, s) := s.lateAmount (if isLate then due.elim 0 fun d => ttLateness t d else 0)
  let (e, s) := s.tsInsert n k e t
  let bytes := wholeOut k e
  let s := if k.runs && nbit (k.r 8) 31 then s.wbFrame n k t reason else s
  let s := s.mirrorCopy n 1 k bytes
  let stop := start + s.wire16 n bytes.length
  let f : TxFrame :=
    { pkt := k, bytes := bytes, stamp := t, start := start, stop := stop, late := late, reason := reason, bad := bad }
  s.setPtm n { s.ptm n with tx := (s.ptm n).tx ++ [f], lastEnd := stop, spans := spanAdd start stop (s.ptm n).spans }

/-- The deparser of pipeline p gives the packet that waits for it to the MAC of its port. `slot`, in 1/16 ns of real time, names the boundary
that the MAC takes where more than one will do (`State.txSlot`). A frame in a fenced slice is never sent (R288). A frame longer than MAXLEN
passes the copy point and is dropped at the MAC; it has no insertion and no record (R108, R232, log entry 141). DESIGN CHOICE: a packet whose
owner holds its buffer no more sends nothing, for the buffer may hold a frame of another Pitch (R47, log entry 158). -/
def State.deparse (s : State) (p slot : Nat) : State :=
  match s.waiting p 25 with
  | [] => s
  | k :: rest =>
    if (s.pipe p).egTick < k.tick + 32 then s
    else
    let s := s.setWaiting p 25 rest
    let n := k.outPort
    if k.runs && k.drop then
      (((s.berthLeave p true true).addCnt (C.EG_DROP p k.dropCode) 1).wbDropped k).pktGone k false
    else
      let s := s.berthLeave p true false
      if !s.portEnabled n then (s.wbDropped k).pktGone k false
      else if !s.ownBuf (s.rqOwner k.rq) k.handle then (s.wbDropped k).pktGone k false
      else if s.bufFenced k.handle then ((s.sliceLoss k.rq k.handle).wbDropped k).pktGone k false
      else if s.genOn n then ((s.genDrop n).wbDropped k).pktGone k false
      else
        let frame := (s.buf k.handle).elim [] (·.bytes)
        let (bad, s) := s.readBuf k.handle 0 frame.length
        let e := s.rawOut p k frame
        if s.maxLen n < (wholeOut k e).length then
          (((s.mirrorCopy n 1 k (wholeOut k e)).addCnt (C.TX_OVERSIZE_DROP n) 1).wbDropped k).pktGone k false
        else s.toMac n slot k e bad

/-- The bytes of a frame as they leave: with an inverted FCS where it fails its check (R99, R286). -/
def TxFrame.sent (f : TxFrame) : Bytes :=
  if f.bad then f.bytes.take (f.bytes.length - 4) ++ (f.bytes.drop (f.bytes.length - 4)).map fun b => ~~~b else f.bytes

/-- A control frame leaves port n (R114, R126). -/
def State.ctlOut (s : State) (n : Nat) (b : Bytes) : State :=
  (s.emitMac n (.ctrlFrame n (withFcs b))).lineFrame n (withFcs b)

/-- A control frame whose slot lies before that of every frame in the MAC leaves; it stands behind the others (R114). -/
def State.ctlLeave (s : State) (n : Nat) : State :=
  ((s.ptm n).ctlLine.filter fun c => (s.ptm n).tx.all fun f => !f.started && decide (c.1 < f.start)).foldl
    (fun s c => (s.setPtm n { s.ptm n with ctlLine := (s.ptm n).ctlLine.erase c }).ctlOut n c.2) s

/-- An Onazel port with no frame behind what it has sent sends an idle marker (R126). -/
def State.onzRest (s : State) (n : Nat) : State :=
  if decide (s.mode n = 4) && (s.ptm n).tx.isEmpty && (s.ptm n).ctlLine.isEmpty then s.onzSendIdle n else s

/-- The MAC of port n starts its next frame, and a Timetable frame is judged (R371, R393, R395). -/
def State.txStart (s : State) (n : Nat) : State :=
  match (s.ptm n).tx.find? fun f => !f.started with
  | none => s
  | some f =>
    let s := s.setPtm n { s.ptm n with tx := (s.ptm n).tx.map fun g => if g = f then { g with started := true } else g }
    let s := s.lineFrame n f.sent
    match f.pkt.floor with
    | none => s
    | some fl => s.ttSent n f.pkt.port f.reason f.late (s.ttDue f.pkt fl)

/-- The frame that port n is sending has left whole (R270). -/
def State.txEnd (s : State) (n : Nat) : State :=
  match (s.ptm n).tx with
  | [] => s
  | f :: rest =>
    if !f.started then s
    else
      let s := s.setPtm n { s.ptm n with tx := rest }
      let s := (s.addCnt (C.TX_FRAMES n) 1).addCnt (C.TX_BYTES n) f.bytes.length
      let s := s.emitMac n (.frame n f.sent false)
      ((s.ctlLeave n).onzRest n).pktGone f.pkt true

/-- The frames in the MAC of port n are cut or lost: the port stops at once (R92, R533, Table 2.4). -/
def State.txCut (s : State) (n : Nat) : State :=
  let fs := (s.ptm n).tx
  let s := s.setPtm n { s.ptm n with
    tx := [], lastEnd := 0, ctlLine := [],
    spans := (s.ptm n).spans.filterMap fun e => if e.1 < s.t16 then some (e.1, min e.2 s.t16) else none }
  let s := s.setPort n { s.port n with fwdQ := [], gap := 12 }
  fs.foldl (fun s f =>
    let s := if f.started then (s.addCnt (C.TX_CUT n) 1).emitMac n (.frame n f.sent true) else s
    s.pktGone f.pkt false) s

/-- The generator of a lane of port n begins to drive: the frame being sent is cut, and those scheduled to the port are dropped and counted
(R96). -/
def State.genStart (s : State) (n : Nat) : State :=
  ((s.ptm n).tx.filter fun f => !f.started).foldl (fun s _ => s.genDrop n) (s.txCut n)

/-! ### Frames that the MAC builds (R114, R346, R381) -/

/-- A Timetable frame on its way to port n has its MAC target before the instant `stop`. -/
def State.ttBefore (s : State) (n stop : Nat) : Bool :=
  let p := pipeOfPort n
  let mine := ((s.pipe p).egress ++ (List.range 10).flatMap fun i => s.waiting p (16 + i)).filter fun k =>
    decide (k.outPort = n)
  let ds := (s.ttHeld n).map (·.2) ++ mine.filterMap fun k => k.floor.map fun fl => s.ttDue k fl
  ds.any fun d => decide (s.ttTarget n d < s.fineAt stop * 3400)

/-- A calibration frame without its FCS (R381). -/
def State.calFrame (s : State) (n seq : Nat) : Bytes :=
  fitBytes 60 (natBE 6 0x0180C200000E ++ s.portSa n ++ natBE 2 (s.fld R.TIME_TL_CTL F.TIME_TL_CTL.ETYPE) ++ [0x81] ++ natBE 2 seq)

/-- The start of a frame of wire time `w` that the MAC of port n sends at the next frame boundary: the first gap from now on between the
control frame last sent and the frames whose slots are fixed, which nothing delays (R114, R371). -/
def State.ctlStart (s : State) (n w : Nat) : Nat :=
  (s.ptm n).tx.foldl (fun t f => if f.started ∨ f.start < t + w then max t f.stop else t) (max s.t16 (s.ptm n).ctlEnd)

/-- A control frame has its slot at `start`: it leaves once the frames ahead of it have (R114). -/
def State.ctlGive (s : State) (n start : Nat) (b : Bytes) : State :=
  ((s.setPtm n { s.ptm n with ctlLine := (s.ptm n).ctlLine ++ [(start, b)] }).ctlLeave n).onzRest n

/-- The MAC of port n sends the control frame that is next in line, at the next frame boundary, unless a Timetable frame is
due to start before it would end (R114, R392). One longer than MAXLEN is dropped (R108). -/
def State.ctlSend (s : State) (n : Nat) : State :=
  match (s.ptm n).ctl with
  | [] => s
  | c :: rest =>
    let len := match c with
      | .timeLink _ => 68
      | _ => 64
    let w := s.wire16 n len
    let start := s.ctlStart n w
    if !s.linkUp n || s.ttBefore n (start + w) then s
    else if s.genOn n then s.setPtm n { s.ptm n with ctl := rest }
    else if s.maxLen n < len then (s.setPtm n { s.ptm n with ctl := rest }).addCnt (C.TX_OVERSIZE_DROP n) 1
    else
      let t := s.egressStamp n start
      let s1 := s.setPtm n { s.ptm n with ctl := rest, ctlEnd := start + w, spans := spanAdd start (start + w) (s.ptm n).spans }
      match c with
      | .fc =>
        match s.fcFrame n with
        | none => s.setPtm n { s.ptm n with ctl := rest, changed := 0 }
        | some b => ((s1.setPtm n { s1.ptm n with changed := 0 }).addCnt (C.TX_MAC_CTRL n) 1).ctlGive n start b
      | .timeLink k => (s1.tlSentAt k t).ctlGive n start (s.tlFrame k n t)
      | .cal q =>
        let s1 := match s1.calRun n with
          | some r => s1.setCal n (some { r with sent := r.sent ++ [(q, t, start)] })
          | none => s1
        s1.ctlGive n start (s.calFrame n q)

/-- Each interval, one time link frame on every active time link port (R346). DESIGN CHOICE: of two links that name one port the first sends
(log entry 167). -/
def State.tlTx (s : State) : State :=
  (List.range 4).foldl (fun s k =>
    match s.tlPort k with
    | some n => if s.tlOfPort n = some k then s.ctlPush n (.timeLink k) else s
    | none => s) s

/-! ### What an Onazel port sends of itself (R126, R127) -/

/-- An Onazel port sends an idle marker now: it is in data, its last symbols have gone out, and no frame whose slot is fixed starts before
the marker would end (R126, log entry 155). -/
def State.onzIdleTurn (s : State) (n : Nat) : State :=
  if s.t16 * 425 < (s.port n).due ∨ s.t16 < (s.ptm n).ctlEnd ∨ (s.ptm n).ctlLine ≠ [] ∨
      (s.ptm n).tx.any fun f => f.started || decide (f.start * 425 < s.t16 * 425 + 64 * 43) then s
  else s.onzSendIdle n

/-- An Onazel port has its turn: in training its next block when that is due, and in data idle markers while no frame is ready, of which two
may begin within a core tick. A port whose generator drives sends neither (R96, R126, R127). -/
def State.onzTurn (s : State) (n : Nat) : State :=
  if s.mode n ≠ 4 ∨ s.onzState n = 0 ∨ !s.drives n ∨ s.genOn n then s
  else if s.onzState n = 6 then (s.onzIdleTurn n).onzIdleTurn n
  else if s.t16 * 425 < (s.port n).due then s
  else s.onzBlockTx n

/-- Each µs of a run, a calibration frame (R381). A frame that falls due while the link is down is not sent. -/
def State.calTx (s : State) (n : Nat) : State :=
  match s.calRun n with
  | none => s
  | some c =>
    if c.left = 0 then s
    else
      let s1 := s.setCal n (some { c with left := c.left - 1, seq := c.seq + 1 })
      if s.linkUp n then s1.ctlPush n (.cal c.seq) else s1

end Sys2Proof.Machine
end

