-- ==== Sys2Proof/Machine/Audit.lean ====
section
/-! DEFINITION. The leaked-buffer audit and reclaim (R281 to R285). -/

namespace Sys2Proof.Machine

/-- The handles of the packets that a pipeline holds, from its entry to its deparser, and of its exception copies that hold their
frames on their way to be judged. -/
def PipeSt.handles (q : PipeSt) : List Nat :=
  (q.entry ++ q.egress ++ q.repl.map (·.1) ++ q.at_.flatMap (·.2) ++ (q.excWait.filter (·.held)).map (·.pkt)).map (·.handle)

/-- The handles of a stream's sheets. -/
def WbStream.handles (w : WbStream) : List Nat :=
  ((w.cur.bind (·.handle)).toList) ++ w.closed.filterMap (·.handle)

/-- The handle stands in one of the places of R281. -/
def State.referenced (s : State) (h : Nat) : Bool :=
  (s.pipes.any fun e => e.2.handles.contains h) ||
  (s.tm.q.any fun e => e.2.pkts.any fun k => k.handle == h) ||
  (s.tm.ports.any fun e => e.2.tx.any fun f => f.pkt.handle == h) ||
  (s.ost.exc.any fun e => e.2.any fun c => c.handle == h) ||
  (s.dma.fifo.any fun e => e.2.any fun c => c.handle == h) ||
  (s.ost.thr.any fun e => e.2.slots.any fun x => x.2.any fun y => y.handle == h) ||
  (s.wb.strm.any fun e => e.2.handles.contains h)

/-! ### The audit (R282 to R284) -/

def State.orphan (s : State) (h : Nat) : Option Orphan := SMap.get (fun _ => none) s.bpm.orphans h
def State.setOrphan (s : State) (h : Nat) (o : Option Orphan) : State :=
  { s with bpm := { s.bpm with orphans := SMap.put (fun _ => none) s.bpm.orphans h o } }

/-- The audit FIFO of owner n. -/
def State.audQ (s : State) (n : Nat) : List AudRep := SMap.get (fun _ => []) s.bpm.fifo n
def State.setAudQ (s : State) (n : Nat) (q : List AudRep) : State :=
  { s with bpm := { s.bpm with fifo := SMap.put (fun _ => []) s.bpm.fifo n q } }

/-- The code shown for the primary holder of a buffer. -/
def Buf.holder (b : Buf) : Nat := b.primary.getD 0xFF

/-- Report an orphan to the owner of its primary holder, where its FIFO has room. -/
def State.audReport (s : State) (h : Nat) (b : Buf) (o : Orphan) : State :=
  let n := (b.primary.map s.rqOwner).getD b.owner
  if 32 ≤ (s.audQ n).length then
    (s.addCnt (C.BPM_AUDIT_DROP n) 1).cause (R.BPM_OWN_CAUSE n) F.BPM_OWN_CAUSE.AUDIT_DROP
  else
    let first := (s.audQ n).isEmpty
    let s := s.setAudQ n (s.audQ n ++ [⟨h, b.holder, min 255 b.holds, b.alloc⟩])
    let s := (s.addCnt (C.BPM_ORPHANS n) 1).setOrphan h (some { o with reported := true })
    if first then s.ariseF (R.BPM_OWN_CAUSE n) F.BPM_OWN_CAUSE.ORPHAN else s.cause (R.BPM_OWN_CAUSE n) F.BPM_OWN_CAUSE.ORPHAN

/-- A check finds a buffer referenced while free: counted each time, and the buffer is out of service (R283). -/
def State.inconsistent (s : State) (h : Nat) : State :=
  let s := if s.bit R.BPM_CAUSE F.BPM_CAUSE.INCONSISTENT then s
    else s.setReg R.BPM_DFREE (BitVec.ofNat 32 (0xFE * 2 ^ 24 + h % 2 ^ 24))
  let s := (s.addCnt C.BPM_INCONSISTENT 1).cause R.BPM_CAUSE F.BPM_CAUSE.INCONSISTENT
  { s with bpm := { s.bpm with out := SMap.put (fun _ => false) s.bpm.out h true } }

/-- BPM_AUDIT_CTL.LIMIT as it acts. -/
def State.audLimit (s : State) : Nat := max 16 (s.fld R.BPM_AUDIT_CTL F.BPM_AUDIT_CTL.LIMIT)

/-- The check of one buffer at Round `r` (its low 16 bits). -/
def State.audCheck (s : State) (h r : Nat) : State :=
  match s.buf h with
  | none => s.setOrphan h none
  | some b =>
    if s.referenced h then s.setOrphan h none
    else
      match s.orphan h with
      | none => s.setOrphan h (some ⟨r, false⟩)
      | some o => if !o.reported && decide (s.audLimit < (r + 65536 - o.round) % 65536) then s.audReport h b o else s

/-- Every handle that stands in some place of R281. -/
def State.allHandles (s : State) : List Nat :=
  (s.pipes.flatMap fun e => e.2.handles) ++ (s.tm.q.flatMap fun e => e.2.pkts.map (·.handle)) ++
    (s.tm.ports.flatMap fun e => e.2.tx.map fun f => f.pkt.handle) ++ (s.ost.exc.flatMap fun e => e.2.map (·.handle)) ++
    (s.dma.fifo.flatMap fun e => e.2.map (·.handle)) ++
    (s.ost.thr.flatMap fun e => e.2.slots.filterMap fun x => x.2.map (·.handle)) ++ s.wb.strm.flatMap fun e => e.2.handles

/-- Duty 4 of R34 at the boundary that begins Round `r`: the buffers of slice r mod 16. -/
def State.auditRound (s : State) (r : Nat) : State :=
  if !s.bit R.BPM_AUDIT_CTL F.BPM_AUDIT_CTL.EN then s
  else
    let mine := fun (h : Nat) => sliceOfH h == r % 16
    let s := ((s.allHandles.filter fun h => mine h && s.handleOk h && (s.buf h).isNone).dedup).foldl
      (fun s h => s.inconsistent h) s
    (((s.bpm.bufs.map (·.1) ++ s.bpm.orphans.map (·.1)).filter mine).dedup).foldl (fun s h => s.audCheck h (r % 65536)) s

/-- BPM_AUD_CTL.POP. -/
def State.audPop (s : State) (n : Nat) : State := s.setAudQ n (s.audQ n).tail

/-! ### Reclaim (R285, Table 10.3) -/

/-- The reclaim that page n runs. -/
def State.recl (s : State) (n : Nat) : Option Recl := SMap.get (fun _ => none) s.bpm.recl n
def State.setRecl (s : State) (n : Nat) (x : Option Recl) : State :=
  { s with bpm := { s.bpm with recl := SMap.put (fun _ => none) s.bpm.recl n x } }

/-- The reclaim of page n ends with a result. -/
def State.reclaimEnd (s : State) (n r : Nat) : State :=
  let a := R.BPM_RECLAIM n
  ((s.setRecl n none).setBit a F.BPM_RECLAIM.GO false).setFld a F.BPM_RECLAIM.RESULT r

/-- BPM_RECLAIM[n].GO with the handle as written, while no reclaim of page n runs. DESIGN CHOICE: the check of the places of R281 takes a
free time within the 2 µs that step 2 allows (log entry 159). -/
def State.reclaim (s : State) (n : Nat) : State :=
  let a := R.BPM_RECLAIM n
  let h := s.fld a F.BPM_RECLAIM.HANDLE
  if n ≠ 0 && s.inReset n then s.reclaimEnd n 6
  else if !s.handleOk h then s.reclaimEnd n 4
  else
    match s.buf h with
    | none => s.reclaimEnd n 2
    | some b =>
      if n ≠ 0 ∧ b.primary.map s.rqOwner ≠ some n then s.reclaimEnd n 3
      else
        let (w, s) := s.freeWord
        ((s.setRecl n (some ⟨h, s.t16 + 1 + w % 32000, b, s.referenced h⟩)).setBit a F.BPM_RECLAIM.GO true).setFld a F.BPM_RECLAIM.RESULT 0xF

/-- Every hold and charge of buffer h is released at once, the holds that functions keep of it among them. -/
def State.reclaimFree (s : State) (h : Nat) : State :=
  let s := s.setBuf h none
  { s with dma := { s.dma with kept := s.dma.kept.filterMap fun e =>
      let l := e.2.filter (· != h)
      if l.isEmpty then none else some (e.1, l) } }

/-- A buffer's record without its flipped bits, which no use of it makes (R286). -/
def Buf.clean (b : Buf) : Buf := { b with flips := [] }

/-- The reclaim of page n goes on: a use of the handle makes it fail, and at its end it frees the buffer. -/
def State.reclaimStep (s : State) (n : Nat) : State :=
  match s.recl n with
  | none => s
  | some x =>
    let used := x.used || s.referenced x.handle || decide ((s.buf x.handle).map Buf.clean ≠ some x.seen.clean)
    if s.t16 < x.due then (if used = x.used then s else s.setRecl n (some { x with used := used }))
    else if used then s.reclaimEnd n 1
    else ((s.reclaimFree x.handle).addCnt (C.BPM_RECLAIMED n) 1).reclaimEnd n 0

/-- The reclaims that run go on (R285). -/
def State.reclaimTurn (s : State) : State := if s.bpm.recl.isEmpty then s else (List.range 17).foldl (fun s n => s.reclaimStep n) s

end Sys2Proof.Machine
end

