-- ==== Sys2Proof/Machine/Export.lean ====
section
/-! DEFINITION. The export of Waybill sheets through ports (R419 to R422). -/

namespace Sys2Proof.Machine

/-- Stream n leaves by host DMA: stream 0 always (R419). -/
def State.wbByDma (s : State) (n : Nat) : Bool :=
  decide (n = 0) || s.bit (R.WB_STRM_CTL n) F.WB_STRM_CTL.DMA

/-- Export slot k serves stream n (R421). -/
def State.expServes (s : State) (n k : Nat) : Bool :=
  let a := R.WB_EXP_PORT k
  s.bit a F.WB_EXP_PORT.EN && decide (s.fld a F.WB_EXP_PORT.PITCH = n ∧ s.ownerOfPort (s.fld a F.WB_EXP_PORT.PORT) = n)

/-- The port of export slot k takes a frame of `len` bytes (R421). -/
def State.expFits (s : State) (k len : Nat) : Bool := decide (len ≤ s.maxLen (s.fld (R.WB_EXP_PORT k) F.WB_EXP_PORT.PORT))

/-- The header of a sheet frame: WB_EXP_DA, the source address of the port, WB_ETYPE (R421). -/
def State.expHeader (s : State) (k : Nat) : Bytes :=
  natBE 2 (s.reg (R.WB_EXP_DA_HI k)).toNat ++ natBE 4 (s.reg (R.WB_EXP_DA_LO k)).toNat ++
    s.portSa (s.fld (R.WB_EXP_PORT k) F.WB_EXP_PORT.PORT) ++ natBE 2 (s.reg R.WB_ETYPE).toNat

/-- A sheet is offered to the queue of the next enabled port of its stream (R421, R422). Ports whose MAXLEN is too small are passed over and
raise EXP_CFG. A refused sheet waits for the retry. -/
def State.sheetOffer (s : State) (n : Nat) (q : Sheet) : State :=
  match q.handle with
  | none => s
  | some h =>
    let len := 18 + q.bytes.length
    let turn := (List.range 4).map fun i => ((s.strm n).rot + i) % 4
    let serve := turn.filter (s.expServes n)
    let passed := serve.takeWhile fun k => !s.expFits k len
    let s := if passed.isEmpty then s else s.cause R.WB_CAUSE F.WB_CAUSE.EXP_CFG
    match serve.find? fun k => s.expFits k len with
    | none => s
    | some k =>
      let e := s.fld (R.WB_EXP_PORT k) F.WB_EXP_PORT.PORT
      let s := s.setStrm n { s.strm n with rot := (k + 1) % 4 }
      let p : Pkt := { kind := .sheet n, handle := h, rq := rqCode n 5, port := 1024, len := len, win := s.expHeader k }
      match s.tmDirect e (s.fld (R.WB_EXP_PORT k) F.WB_EXP_PORT.CLASS) p with
      | (true, s) => s.wbPlace n q.num (.queued e)
      | (false, s) => s.wbPlace n q.num .retry

/-- A sheet stands in the queue of a port. -/
def Sheet.inQueue (q : Sheet) : Bool :=
  match q.place with
  | .queued _ => true
  | _ => false

/-- The sheet of stream n whose export is next: the oldest that no port holds, for sheets leave in the order of their numbers (R413). -/
def State.sheetDue (s : State) (n : Nat) : Option Sheet := (s.strm n).closed.find? fun q => !q.inQueue

/-- The sheet of stream n that is next goes to an export port once it is ready. -/
def State.sheetExport (s : State) (n : Nat) : State :=
  if n = 0 ∨ 16 < n ∨ s.wbByDma n then s
  else match (s.sheetDue n).filter fun q => q.place = .ready with
  | none => s
  | some q => s.sheetOffer n q

/-- A refused or dropped sheet of stream n is offered again, 1 µs later, to the next port in rotation (R422). -/
def State.exportRetry (s : State) (n : Nat) : State :=
  if n = 0 ∨ 16 < n ∨ s.wbByDma n then s
  else match (s.strm n).closed.find? fun q => q.place = .retry with
  | none => s
  | some q =>
    if (List.range 4).any fun k => s.expServes n k && s.expFits k (18 + q.bytes.length) then
      (s.addCnt (C.WB_EXP_RETRY n) 1).sheetOffer n q
    else s

/-- EN of every export slot clears when its port no longer belongs to the named Pitch (R421). -/
def State.expLeave (s : State) : State :=
  (List.range 4).foldl (fun s k =>
    let a := R.WB_EXP_PORT k
    if s.bit a F.WB_EXP_PORT.EN && decide (s.ownerOfPort (s.fld a F.WB_EXP_PORT.PORT) ≠ s.fld a F.WB_EXP_PORT.PITCH) then
      s.setBit a F.WB_EXP_PORT.EN false
    else s) s

end Sys2Proof.Machine
end

