-- ==== Sys2Proof/Machine/Cnt.lean ====
section
/-! DEFINITION. Counters in general, the snapshot, the threshold monitors and the sampler of Ostler instructions
(chapter "Counters, Berth Accounting and Sampling"). -/

namespace Sys2Proof.Machine

/-! ### Snapshots (R469 to R472) -/

/-- The owner of the counter at an address (Table 17.1). -/
def State.cntOwner (s : State) (a : Nat) : Option Nat :=
  match regionOf a with
  | .port n => some (s.ownerOfPort n)
  | .tmPort n => some (s.ownerOfPort n)
  | .par p => some (s.ownerOfPipe p)
  | .stg p _ => some (s.ownerOfPipe p)
  | .tc p => some (s.ownerOfPipe p)
  | .ver p => some (s.ownerOfPipe p)
  | .berth p => some (s.ownerOfPipe p)
  | .tmPipe p => some (s.ownerOfPipe p)
  | .bpmWr p => some (s.ownerOfPipe p)
  | .bpm => some 0
  | .bpmPage n => some n
  | .tt n => some n
  | .wbStrm n => some n
  | .ostOwn n => some n
  | .cnt n => some n
  | .dma f => some f
  | .pst => some 0
  | _ => none

def State.snapBusy (s : State) (n : Nat) : Bool := s.bit (R.CNT_SNAP_CTL n) F.CNT_SNAP_CTL.BUSY
def State.frozen (s : State) (n : Nat) : Bool := s.bit (R.CNT_SNAP_CTL n) F.CNT_SNAP_CTL.FROZEN
def State.setSnap (s : State) (n : Nat) (c : Option Snap) : State :=
  { s with ctr := { s.ctr with snap := SMap.put (fun _ => none) s.ctr.snap n c } }

/-- What a read of the counter at `a` returns: its copy while its owner's counters are frozen (R470). -/
def State.cntRead (s : State) (a : Nat) : Nat :=
  match s.cntOwner a with
  | none => s.cnt a
  | some n =>
    if s.frozen n then
      match SMap.get (fun _ => none) s.ctr.snap n with
      | some c => (SMap.get (fun _ => 0) c.copies a).toNat
      | none => s.cnt a
    else s.cnt a

/-- The snapshot of owner n that runs. -/
def State.snapRun (s : State) (n : Nat) : Option SnapRun := SMap.get (fun _ => none) s.ctr.run n
def State.setSnapRun (s : State) (n : Nat) (r : Option SnapRun) : State :=
  { s with ctr := { s.ctr with run := SMap.put (fun _ => none) s.ctr.run n r } }

/-- THAW clears FROZEN and the reads return live values (R472). -/
def State.snapThaw (s : State) (n : Nat) : State :=
  (s.setBit (R.CNT_SNAP_CTL n) F.CNT_SNAP_CTL.FROZEN false).setSnap n none

/-- No snapshot of owner n runs: BUSY and, as any SC bit whose action is done, GO read 0 (R11). -/
def State.snapIdle (s : State) (n : Nat) : State :=
  (s.setBit (R.CNT_SNAP_CTL n) F.CNT_SNAP_CTL.BUSY false).setBit (R.CNT_SNAP_CTL n) F.CNT_SNAP_CTL.GO false

/-- A write of CNT_SNAP_CTL[n] by function f: GO, judged first, then THAW. GO fixes the instant T as NOW plus 1,000 ns, and reads 1 while the
copies are being taken (R11, R470, R472). -/
def State.snapWrite (s : State) (f n : Nat) (go thaw : Bool) : State :=
  let s1 :=
    if !go then s
    else if s.snapBusy n || s.frozen n then s.busyWrite f
    else ((s.setBit (R.CNT_SNAP_CTL n) F.CNT_SNAP_CTL.BUSY true).setBit (R.CNT_SNAP_CTL n) F.CNT_SNAP_CTL.GO true).setSnapRun n (some { at_ := (s.t16 / 16 + 1000) * 16 })
  if thaw then s1.snapThaw n else s1

/-- Every counter of owner n copies its value as it stands, with the time base and the Round at the instant T (R470). -/
def State.snapTake (s : State) (n : Nat) (r : SnapRun) : State :=
  let c : Snap := { pipes := s.pipesOf n, copies := s.cnts.filter fun e => decide (s.cntOwner e.1 = some n) }
  s.setSnapRun n (some { r with got := some (c, (s.timeAt (4 * r.at_) / 2 ^ 28).toNat, s.reg R.DEV_ROUND_NUM) })

/-- The copies of owner n are taken: FROZEN sets, and the time base and the Round at T are recorded (R470). -/
def State.snapDone (s : State) (n : Nat) : State :=
  match s.snapRun n with
  | some { got := some (c, u, round), .. } =>
    let t := TimeVal.ofUnits u
    let s := (s.setSnap n (some c)).setSnapRun n none
    let s := s.setReg (R.CNT_SNAP_S n) (BitVec.ofNat 32 t.s)
    let s := s.setReg (R.CNT_SNAP_SF n) (BitVec.ofNat 32 (t.s / 2 ^ 32 * 2 ^ 16 + t.f))
    let s := s.setReg (R.CNT_SNAP_NS n) (BitVec.ofNat 32 t.n)
    let s := s.setReg (R.CNT_SNAP_ROUND n) round
    (s.snapIdle n).setBit (R.CNT_SNAP_CTL n) F.CNT_SNAP_CTL.FROZEN true
  | _ => s

/-- Time comes to the instant `t1` (1/16 ns): a snapshot whose T lies before it has its copies, and 1 µs after T it is over (R470). -/
def State.snapTurn (s : State) (t1 : Nat) : State :=
  (List.range 17).foldl (fun s n =>
    match s.snapRun n with
    | some r =>
      let s := if r.got.isNone && decide (r.at_ < t1) then s.snapTake n r else s
      if r.at_ + 16000 < t1 then s.snapDone n else s
    | none => s) s

/-- A reset of owner n discards its copies (R472). -/
def State.snapReset (s : State) (n : Nat) : State :=
  ((s.snapThaw n).setSnapRun n none).snapIdle n

/-! ### Threshold monitors (R476 to R478) -/

/-- The source of a monitor: SRC, INDEX and SUB, and the skip region whose ticks it counts. -/
structure MonSrc where
  src : Nat
  index : Nat
  sub : Nat
  deriving DecidableEq, Repr

/-- The source that a CNT_MON_CTL word names. -/
def monSrcOf (w : Word) : MonSrc :=
  ⟨fldOf w F.CNT_MON_CTL.SRC, fldOf w F.CNT_MON_CTL.INDEX, fldOf w F.CNT_MON_CTL.SUB⟩

/-- A monitor of owner n may name the source (R477). -/
def State.monAllowed (s : State) (n : Nat) (m : MonSrc) : Bool :=
  let own := fun o => decide (n = 0 ∨ o = n)
  if m.src = 0 then true
  else if m.src = 1 ∨ m.src = 3 then decide (m.sub < 16) && own (s.ownerOfPort m.index)
  else if m.src = 2 then own (s.ownerOfPort m.index)
  else if m.src = 4 ∨ m.src = 6 then decide (m.index < 16) && own (s.ownerOfPipe m.index)
  else if m.src = 5 then decide (m.index ≤ 16 ∧ m.sub < 8) && own m.index
  else decide (m.index < 16 ∧ m.sub < 24) && own (s.ownerOfPipe m.index)

/-- The occupancy of a monitor source (Table 17.2). -/
def State.monOcc (s : State) (m : MonSrc) : Nat :=
  if m.src = 1 then (if s.formed m.index then (s.tmq m.index m.sub).depth else 0)
  else if m.src = 2 then (if s.formed m.index then s.portDepth m.index else 0)
  else if m.src = 3 then (if s.formed m.index then s.inOcc m.index m.sub else 0)
  else if m.src = 4 then (s.pipe m.index).entry.length
  else if m.src = 5 then s.ownHolds m.index m.sub
  else if m.src = 6 then (s.pipe m.index).repl.length
  else (s.emStage m.index m.sub).learn.length

/-- The skip region of a source's ticks, and the pipeline that must not be held for the region to tick. -/
def MonSrc.region (m : MonSrc) : Nat :=
  if m.src = 4 then m.index else if m.src = 7 then (if m.sub < 16 then m.index else 16 + m.index) else 32

def State.monAbove (s : State) (n i : Nat) : Bool := s.bit (R.CNT_MON_CTL n i) F.CNT_MON_CTL.ABOVE

/-- Some monitor of owner n is above its threshold; one that is disabled is so until its next tick (R478). -/
def State.monAny (s : State) (n : Nat) : Bool := (List.range 32).any fun i => s.monAbove n i

/-- The monitor at `k`, owner × 32 + number, has been enabled since its last tick, or not. -/
def State.setFresh (s : State) (k : Nat) (b : Bool) : State :=
  { s with ctr := { s.ctr with fresh := SMap.put (fun _ => false) s.ctr.fresh k b } }

/-- CNT_CAUSE.MON starts when the first monitor of owner n goes above (R476). -/
def State.monCause (s before : State) (n : Nat) : State :=
  if s.monAny n && !before.monAny n then s.ariseF (R.CNT_CAUSE n) F.CNT_CAUSE.MON else s

/-- One tick of monitor i of owner n, the first since its last write being the one from which that write acts (R476, R478). -/
def State.monTick (s : State) (n i : Nat) : State :=
  let a := R.CNT_MON_CTL n i
  let m := monSrcOf (s.reg a)
  let first := SMap.get (fun _ => false) s.ctr.fresh (n * 32 + i)
  let s := s.setFresh (n * 32 + i) false
  if !s.bit a F.CNT_MON_CTL.EN || decide (m.src = 0) || !s.monAllowed n m then s.setBit a F.CNT_MON_CTL.ABOVE false
  else
    let occ := s.monOcc m
    let s := s.setReg (R.CNT_MON_MAX n i) (BitVec.ofNat 32 (max (s.reg (R.CNT_MON_MAX n i)).toNat (min occ 0xFFFFFFF)))
    if (s.reg (R.CNT_MON_N n i)).toNat < occ then
      let s1 := s.addCnt (C.CNT_TICKS_ABOVE n i) 1
      if s.monAbove n i && !first then s1
      else ((s1.addCnt (C.CNT_EPISODES n i) 1).setBit a F.CNT_MON_CTL.ABOVE true).monCause s n
    else s.setBit a F.CNT_MON_CTL.ABOVE false

/-- The monitors that have been configured, as owner and number. -/
def State.monitors (s : State) : List (Nat × Nat) :=
  s.regs.filterMap fun e =>
    let o := e.1 % 0x10000
    if 0xC00000 ≤ e.1 ∧ e.1 < 0xD10000 ∧ 0x100 ≤ o ∧ o < 0x900 ∧ o % 0x40 = 0 then
      some ((e.1 - 0xC00000) / 0x10000, (o - 0x100) / 0x40)
    else none

/-- A tick of every region that `ticks` picks. -/
def State.monTicks (s : State) (ticks : Nat → Bool) : State :=
  s.monitors.foldl (fun s e =>
    let m := monSrcOf (s.reg (R.CNT_MON_CTL e.1 e.2))
    if !s.monAllowed e.1 m then (if ticks 32 then s.monTick e.1 e.2 else s)
    else if ticks m.region && !(decide (m.src = 4 ∨ m.src = 7) && s.pipeHeld m.index) then s.monTick e.1 e.2
    else s) s

/-- A write of CNT_MON_CTL: the source is judged, and the write acts from the next tick of the source's region, until which ABOVE stays; a
monitor that may watch nothing reads ABOVE = 0 (R476 to R478). -/
def State.monWrite (s : State) (n i : Nat) (v : Word) : State :=
  let m := monSrcOf v
  let keep := s.monAllowed n m && decide (m.src ≠ 0) && s.monAbove n i
  let s := s.setReg (R.CNT_MON_CTL n i) (putFld v F.CNT_MON_CTL.ABOVE (if keep then 1 else 0))
  let s := if fldOf v F.CNT_MON_CTL.EN = 1 then s.setFresh (n * 32 + i) true else s
  if s.monAllowed n m then s else s.cause (R.CNT_CAUSE n) F.CNT_CAUSE.MON_CFG

/-! ### The sampler (R484 to R487) -/

/-- The interval to the next sample, drawn under JITTER (R484). -/
def State.smpInterval (s : State) (n : Nat) : Nat × State :=
  let p := max 1 (s.fld (R.CNT_SMP_CTL n) F.CNT_SMP_CTL.PERIOD)
  if s.bit (R.CNT_SMP_CTL n) F.CNT_SMP_CTL.JITTER && decide (2 ≤ p) then
    let (w, s) := s.freeWord
    (p / 2 + w % p, s)
  else (p, s)

def State.setSmpLeft (s : State) (n v : Nat) : State :=
  { s with ctr := { s.ctr with left := SMap.put (fun _ => 0) s.ctr.left n v } }

/-- The interval count of owner n restarts (R484, R488). -/
def State.smpRestartCount (s : State) (n : Nat) : State :=
  let (v, s) := s.smpInterval n
  s.setSmpLeft n v

def State.smpEn (s : State) (n : Nat) : Bool := s.bit (R.CNT_SMP_CTL n) F.CNT_SMP_CTL.EN

/-- An instruction of class `cls` at word `pc` of thread `th` passes the filter of owner n (R484). -/
def State.smpPasses (s : State) (n th cls pc : Nat) : Bool :=
  let a := R.CNT_SMP_FILT n
  let g := s.fld a F.CNT_SMP_FILT.REGION
  s.smpEn n && nbit (s.fld a F.CNT_SMP_FILT.CLASSES) cls &&
    (decide (g = 0 ∨ g = 3) || decide (g = 1 ∧ pc < 0xC000) || decide (g = 2 ∧ 0xC000 ≤ pc)) &&
    (!s.bit a F.CNT_SMP_FILT.THREAD_EN || decide (s.fld a F.CNT_SMP_FILT.THREAD = th))

def State.thr (s : State) (t : Nat) : Thr := SMap.get (fun _ => {}) s.ost.thr t
def State.setThr (s : State) (t : Nat) (q : Thr) : State :=
  { s with ost := { s.ost with thr := SMap.put (fun _ => {}) s.ost.thr t q } }

/-- A sampled instruction is in flight on the core of thread t. -/
def State.smpOnCore (s : State) (t : Nat) : Bool :=
  (List.range 16).any fun k => (s.thr (t / 16 * 16 + k)).smp.isSome

/-- An instruction of thread t, of owner n, issues: it is counted, or sampled when the interval has run out (R484). -/
def State.smpIssue (s : State) (n t cls pc : Nat) : State :=
  if !s.smpPasses n t cls pc then s
  else
    let left := SMap.get (fun _ => 0) s.ctr.left n
    if left ≠ 0 then s.setSmpLeft n (left - 1)
    else if s.smpOnCore t then s
    else
      let s := s.setThr t { s.thr t with smp := some { cls := cls, pc := pc, kind := 0, at_ := s.time.now } }
      let s := s.smpRestartCount n
      s.setSmpLeft n (SMap.get (fun _ => 0) s.ctr.left n - 1)

/-- The sampled instruction of thread t also waited, trapped or faulted: the highest KIND stands (Table 17.3). -/
def State.smpKind (s : State) (t k : Nat) : State :=
  match (s.thr t).smp with
  | none => s
  | some q => s.setThr t { s.thr t with smp := some { q with kind := max q.kind k } }

def State.smpEntry (s : State) (n i : Nat) : BitVec 64 := SMap.get (fun _ => 0) s.ctr.buf (n * 4096 + i)

/-- The words of a sample entry (Table 17.3). -/
def smpWords (t now : Nat) (q : Smp) : BitVec 64 :=
  BitVec.ofNat 64
    ((t * 2 ^ 23 + q.kind * 2 ^ 20 + q.cls * 2 ^ 17 + q.pc) * 2 ^ 32 +
      (min (now - q.at_) 1048575) * 2 ^ 12 + q.at_ / 2 ^ 10 % 2 ^ 12)

/-- Write one entry at NEXT (R486). -/
def State.smpWrite (s : State) (n : Nat) (e : BitVec 64) : State :=
  let a := R.CNT_SMP_PTR n
  let wrap := s.bit (R.CNT_SMP_CTL n) F.CNT_SMP_CTL.MODE
  let count := s.fld a F.CNT_SMP_PTR.COUNT
  let next := s.fld a F.CNT_SMP_PTR.NEXT
  if count = 4096 ∧ !wrap then s.addCnt (C.SMP_LOST n) 1
  else
    let s := { s with ctr := { s.ctr with buf := SMap.put (fun _ => 0) s.ctr.buf (n * 4096 + next) e } }
    let s := s.setFld a F.CNT_SMP_PTR.NEXT ((next + 1) % 4096)
    let s := s.addCnt (C.SMP_TAKEN n) 1
    if count = 4096 then
      (s.addCnt (C.SMP_OVERWRITE n) 1).setBit a F.CNT_SMP_PTR.WRAPPED true
    else
      let s := s.setFld a F.CNT_SMP_PTR.COUNT (count + 1)
      if count + 1 = 4096 ∧ !wrap then (s.setBit a F.CNT_SMP_PTR.FULL true).ariseF (R.CNT_CAUSE n) F.CNT_CAUSE.SMP_FULL
      else s

/-- The sampled instruction of thread t, of owner n, completes (R485). -/
def State.smpComplete (s : State) (n t : Nat) : State :=
  match (s.thr t).smp with
  | none => s
  | some q => (s.setThr t { s.thr t with smp := none }).smpWrite n (smpWords t s.time.now q)

/-- The sampled instruction of thread t is lost (R487). -/
def State.smpLose (s : State) (n t : Nat) : State :=
  match (s.thr t).smp with
  | none => s
  | some _ => (s.setThr t { s.thr t with smp := none }).addCnt (C.SMP_LOST n) 1

/-- RESTART empties the sample buffer of owner n (R486). -/
def State.smpRestart (s : State) (n : Nat) : State := s.resetReg (R.CNT_SMP_PTR n)

/-- The threads of owner n. -/
def State.threadsOf (s : State) (n : Nat) : List Nat :=
  (List.range 512).filter fun t => s.fld (R.PIT_OST_OWNER (t / 4)) F.PIT_OST_OWNER.OWNER == n

/-- A write of CNT_SMP_CTL: RESTART, the settings, and EN: 1 restarts the interval count, 0 loses the samples in flight
(R484, R486, R487). -/
def State.smpCtlWrite (s : State) (n : Nat) (v : Word) : State :=
  let was := s.smpEn n
  let s := if fldOf v F.CNT_SMP_CTL.RESTART = 1 then s.smpRestart n else s
  let s := s.setReg (R.CNT_SMP_CTL n) (putFld v F.CNT_SMP_CTL.RESTART 0)
  if s.smpEn n && !was then s.smpRestartCount n
  else if !s.smpEn n && was then
    ((s.threadsOf n).filter fun t => (s.thr t).smp.isSome).foldl (fun s t => s.smpLose n t) s
  else s

/-- A write of CNT_SMP_FILT: REGION 3 raises SMP_CFG (R484). -/
def State.smpFiltWrite (s : State) (n : Nat) (v : Word) : State :=
  let s := s.setReg (R.CNT_SMP_FILT n) v
  if fldOf v F.CNT_SMP_FILT.REGION = 3 then s.cause (R.CNT_CAUSE n) F.CNT_CAUSE.SMP_CFG else s

/-- The counter page of Pitch n at a reset of the Pitch (R472, R488). -/
def State.cntReset (s : State) (n : Nat) : State :=
  let s := (s.snapReset n).smpRestart n
  let s := s.smpRestartCount n
  let s := { s with ctr := { s.ctr with buf := SMap.drop s.ctr.buf fun i => i / 4096 == n } }
  let s := (List.range 32).foldl (fun s i =>
    (s.setBit (R.CNT_MON_CTL n i) F.CNT_MON_CTL.ABOVE false).resetReg (R.CNT_MON_MAX n i)) s
  s.clearCnts fun a => decide (∃ i ∈ List.range 32, a = C.CNT_TICKS_ABOVE n i ∨ a = C.CNT_EPISODES n i)

end Sys2Proof.Machine
end

