-- ==== Sys2Proof/Machine/OstCore.lean ====
section
/-! DEFINITION. The Ostler engines (chapter "Ostler Engines"): threads, windows, faults, the program store, the customer
region, handle slots and waits. -/

namespace Sys2Proof.Machine

/-! ### Owners and threads (R429 to R431) -/

/-- The owner of thread t. -/
def State.thrOwner (s : State) (t : Nat) : Nat := s.quadOwner (t / 4)

/-- The cluster of thread t. -/
def thrCluster (t : Nat) : Nat := t / 128

/-- The supervisor of owner n: the first thread of its lowest quad (R430). -/
def State.supervisor (s : State) (n : Nat) : Option Nat := (s.quadsOf n).head?.map (4 * ·)

/-- The Ostler PLL is locked: threads make progress (R568). -/
def State.ostClock (s : State) : Bool := nbit (s.fld R.CLK_STATUS F.CLK_STATUS.PLL_LOCK) 2

/-- The vendor region of owner n holds firmware. -/
def State.ostFw (s : State) (n : Nat) : Bool := s.bit (R.OST_OWN_STATUS n) F.OST_OWN_STATUS.FW

/-- OST_CUST_CTL[n].STATE: 0 OFF, 1 CHECKING, 2 ON. -/
def State.custState (s : State) (n : Nat) : Nat := s.fld (R.OST_CUST_CTL n) F.OST_CUST_CTL.STATE
def State.setCustState (s : State) (n v : Nat) : State := s.setFld (R.OST_CUST_CTL n) F.OST_CUST_CTL.STATE v
def State.custResult (s : State) (n v : Nat) : State := s.setFld (R.OST_CUST_CTL n) F.OST_CUST_CTL.RESULT v

/-- The owner's threads may run: the Warden's, or those of a Pitch that is not in reset. -/
def State.ostMayRun (s : State) (n : Nat) : Bool := decide (n = 0) || !s.inReset n

/-! ### Registers and windows (R442, R443) -/

/-- The window in use: 7 in a window trap. -/
def Thr.win (q : Thr) : Nat := if q.trap then 7 else q.cwp

/-- The thread is stopped: FREE, DONE or FAULTED (Table 16.1, R77). -/
def Thr.stopped (q : Thr) : Bool := decide (q.st = 0 ∨ q.st = 5 ∨ q.st = 6)

/-- The place of register r of the window in use. -/
def Thr.place (q : Thr) (r : Nat) : Nat := if r < 16 then q.win * 16 + r else 128 + (r - 16)

/-- Register r: w0 to w15, then g0 to g15; g0 reads zero. -/
def Thr.reg (q : Thr) (r : Nat) : Word := if r = 16 then 0 else SMap.get (fun _ => 0) q.r (q.place r)

/-- Write register r; g0 ignores writes. -/
def Thr.setR (q : Thr) (r : Nat) (v : Word) : Thr :=
  if r = 16 then q else { q with r := SMap.put (fun _ => 0) q.r (q.place r) v }

/-! ### The cores (R432) -/

def State.core (s : State) (c : Nat) : OstCore := SMap.get (fun _ => {}) s.ost.core c
def State.setCore (s : State) (c : Nat) (x : OstCore) : State :=
  { s with ost := { s.ost with core := SMap.put (fun _ => {}) s.ost.core c x } }

/-- Slot i of core c (cluster × 8 + core), as OST_SLOT holds it: EN in bit 7, THREAD in bits 3:0. -/
def State.ostSlotAt (s : State) (c i : Nat) : Nat := (s.reg (R.OST_SLOT (c / 8) (c % 8) (i / 4))).toNat / 2 ^ (8 * (i % 4)) % 256

/-- Ostler pulse j begins a clock cycle of core c: the slot pointer steps on, and the core may issue once. Two pulses can fall in one core tick:
their cycles stand one behind the other. -/
def State.coreCycle (s : State) (j c : Nat) : State :=
  let x := s.core c
  let i := (x.slot + 1) % 64
  s.setCore c { slot := i, at_ := s.t16, due := (if x.at_ = s.t16 then x.due else []) ++ [(j, s.ostSlotAt c i)] }

/-- The thread that core c issues in a cycle with slot `v`: that of the slot, if the slot is enabled and the thread READY; else the first READY
thread after it in ascending order, whatever its owner. -/
def State.slotPick (s : State) (c v : Nat) : Option Nat :=
  let ready := fun k => decide ((s.thr (16 * c + k)).st = 1)
  if nbit v 7 && ready (v % 16) then some (16 * c + v % 16)
  else (((List.range 16).map fun j => (v % 16 + 1 + j) % 16).find? ready).map (16 * c + ·)

/-- The thread that core c issues in its oldest cycle. -/
def State.corePick (s : State) (c : Nat) : Option Nat := (s.core c).due.head?.bind fun e => s.slotPick c e.2

/-- Thread t issues next on its core: the Ostler clock runs, the core has not issued in this cycle, and its choice falls on t (R432,
R568). -/
def State.ostTurn (s : State) (t : Nat) : Bool := decide (t < 512) && s.ostClock && decide (s.corePick (t / 16) = some t)

/-- The core of thread t has issued in this cycle. -/
def State.coreIssued (s : State) (t : Nat) : State :=
  let x := s.core (t / 16)
  s.setCore (t / 16) { x with due := x.due.tail }

/-- The cluster of thread t has been admitted and has not failed (R546). -/
def State.clusterUp (s : State) (t : Nat) : Bool := s.domBit R.PST_DOM_READY (128 + thrCluster t)

/-- The fields of an instruction (R457). -/
def iOp (w : Word) : Nat := w.toNat / 2 ^ 26
def iRd (w : Word) : Nat := w.toNat / 2 ^ 21 % 32
def iRa (w : Word) : Nat := w.toNat / 2 ^ 16 % 32
def iRb (w : Word) : Nat := w.toNat / 2 ^ 11 % 32
def iFn (w : Word) : Nat := w.toNat % 2 ^ 11
def iImm (w : Word) : Nat := w.toNat % 2 ^ 16

/-- The immediate, sign-extended to 32 bits. -/
def iSx (w : Word) : Word := BitVec.ofInt 32 (sext 16 (iImm w))

/-- The bits of an instruction that Table 16.6 leaves unnamed (R458). -/
def ostUnused (op fn : Nat) : Nat :=
  if op ≤ 0x0C then 0x7FF
  else if 0x14 ≤ op ∧ op ≤ 0x16 then 0xFFE0
  else if op = 0x17 ∨ op = 0x35 then 0x1F0000
  else if op = 0x26 ∨ op = 0x27 then 0x7FF
  else if op = 0x2C ∨ op = 0x2D then 0x3FF0000
  else if op = 0x2E ∨ op = 0x2F ∨ op = 0x33 then 0x3E0FFFF
  else if op = 0x30 then 0x3FFFFFF
  else if op = 0x31 then 0x7FE
  else if op = 0x32 then 0xFFFF
  else if op = 0x34 then 0x7F8
  else if op = 0x38 ∨ op = 0x3A then 0x1FFFFC
  else if op = 0x39 then 0xFFFC
  else if op = 0x3B ∨ op = 0x3C then 0xFFF0
  else if op = 0x3D then 0x3E007FC
  else if op = 0x3E then (if nbit fn 4 then 0x3E0FFEC else 0x1FFFEC)
  else 0

/-- An opcode that Table 16.6 lists. -/
def ostListed (op : Nat) : Bool :=
  decide (1 ≤ op ∧ op ≤ 0x0C) || decide (0x10 ≤ op ∧ op ≤ 0x18) || decide (0x20 ≤ op ∧ op ≤ 0x3F)

/-- The class of a listed opcode: 0 to 6 are A, M, B, T, F, K and V. -/
def ostClass (op : Nat) : Nat :=
  if op < 0x20 then 0 else if op ≤ 0x27 then 1 else if op ≤ 0x30 then 2 else if op ≤ 0x35 then 3
  else if op ≤ 0x37 then 4 else if op ≤ 0x3E then 5 else 6

/-- A nonzero unused field, or a BLD or BST of no size (R458, R461). -/
def ostBadField (w : Word) : Bool :=
  decide (Nat.land w.toNat (ostUnused (iOp w) (iFn w)) ≠ 0) ||
  (decide (iOp w = 0x3B ∨ iOp w = 0x3C) && decide (iFn w / 4 % 4 = 3))

/-! ### The end of a thread's wait for another (R435, R436) -/

/-- The thread that waits to join thread t. -/
def State.joiner (s : State) (t : Nat) : Option Nat :=
  (s.ost.thr.find? fun e => decide (e.2.st = 3 ∧ e.2.ask = none ∧ e.2.target = t)).map (·.1)

/-- An instruction of thread t completes: its sample is written. That of a CALL or RET that took a window trap is not, for it completes when
it runs again (R485). -/
def State.smpDone (s : State) (t : Nat) : State :=
  let q := s.thr t
  if q.trap && q.smp.any fun x => decide (x.kind = 3) then s else s.smpComplete (s.thrOwner t) t

/-- A waiting thread receives its value and becomes READY. -/
def State.thrWake (s : State) (t : Nat) (v : Word) (kind : Nat) : State :=
  let q := s.thr t
  let s := s.setThr t { q.setR q.rd v with st := 1, kicked := false }
  (s.smpKind t kind).smpDone t

/-- A joiner of thread t, where there is one, receives v. -/
def State.joinWake (s : State) (t : Nat) (v : Word) : State :=
  match s.joiner t with
  | none => s
  | some j => s.thrWake j v 2

/-- The requester whose hold of buffer h a thread of requester `rq` gives up: its own where it holds the buffer, else any (R461,
R463). -/
def State.holdRq (s : State) (rq h : Nat) : Nat :=
  match s.buf h with
  | none => rq
  | some b => if b.holdsOf rq ≠ 0 then rq else b.primary.getD (b.copies.headD 0)

/-- Release one hold in the name of requester `rq`, as BFREE does: of `rq` where it holds the buffer, else any hold of it
(R461). -/
def State.ostRelease (s : State) (rq h : Nat) : State := if (s.buf h).isSome then s.bpmRelease (s.holdRq rq h) h else s

/-- Every hold in the handle slots of thread t is released and the slots are emptied (R435, R464). -/
def State.slotsFree (s : State) (t : Nat) : State :=
  let rq := rqCode (s.thrOwner t) (thrCluster t)
  let q := s.thr t
  let s := s.setThr t { q with slots := [] }
  q.slots.foldl (fun s e => match e.2 with
    | some x => if x.hold then s.bpmRelease rq x.handle else s
    | none => s) s

/-- Reset of thread t (R464). -/
def State.thrReset (s : State) (t : Nat) : State :=
  let s := (s.slotsFree t).joinWake t 0xFFFFFFFF
  (s.smpLose (s.thrOwner t) t).setThr t {}

/-- A thread starts: READY at a word, with g1 and g2. -/
def State.thrStart (s : State) (t pc : Nat) (g1 g2 : Word) (detach : Bool) : State :=
  s.setThr t ((({ st := 1, pc := pc % 65536, detach := detach } : Thr).setR 17 g1).setR 18 g2)

/-- The exit of thread t with a value (R435). -/
def State.thrExit (s : State) (t : Nat) (v : Word) : State :=
  let s := (s.slotsFree t).smpComplete (s.thrOwner t) t
  if (s.thr t).detach then s.setThr t {}
  else if (s.joiner t).isSome then (s.joinWake t v).setThr t {}
  else s.setThr t { s.thr t with st := 5, exitVal := v }

/-! ### Faults (R445 to R447) -/

def State.fq (s : State) (n : Nat) : List Nat := SMap.get (fun _ => []) s.ost.fq n
def State.setFq (s : State) (n : Nat) (q : List Nat) : State :=
  { s with ost := { s.ost with fq := SMap.put (fun _ => []) s.ost.fq n q } }

/-- Some thread of owner n is FAULTED. -/
def State.anyFaulted (s : State) (n : Nat) : Bool :=
  s.ost.thr.any fun e => decide (e.2.st = 6) && decide (s.thrOwner e.1 = n)

/-- Thread t stops with a fault record (R446). -/
def State.thrStop (s : State) (t code detail : Nat) (addr : Word) : State :=
  let n := s.thrOwner t
  let had := s.anyFaulted n
  let q := s.thr t
  let s := s.setThr t { q with st := 6, faultV := true, code := code, detail := detail, faultPc := q.pc, faddr := addr,
                                  acc := none, kicked := false, ask := none }
  let s := s.addCnt (C.OST_FAULTS n) 1
  let s := if 16 ≤ (s.fq n).length then
      (s.addCnt (C.OST_FQ_LOST n) 1).cause (R.OST_OWN_CAUSE n) F.OST_OWN_CAUSE.FQ_LOST
    else s.setFq n (s.fq n ++ [t])
  let s := if had then s.cause (R.OST_OWN_CAUSE n) F.OST_OWN_CAUSE.FAULT
    else s.ariseF (R.OST_OWN_CAUSE n) F.OST_OWN_CAUSE.FAULT
  let s := if s.supervisor n = some t then s.ariseF (R.OST_OWN_CAUSE n) F.OST_OWN_CAUSE.SUP_FAULT else s
  ((s.joinWake t 0xFFFFFFFF).smpKind t 4).smpComplete n t

/-- Thread t faults; a fault in a window trap is a double window fault, and its own code stands in the address (R445). -/
def State.thrFault (s : State) (t code : Nat) (addr : Word) : State :=
  if (s.thr t).trap then s.thrStop t 13 2 (BitVec.ofNat 32 code) else s.thrStop t code 0 addr

/-- A double window fault of case 0 or 1, whose address the manual does not give (R445). -/
def State.winDouble (s : State) (t detail : Nat) : State :=
  let (w, s) := s.freeWord
  s.thrStop t 13 detail (BitVec.ofNat 32 w)

/-! ### Fetch and issue (R448, R451, R454, R455, R458) -/

def State.psWord (s : State) (n pc : Nat) : Word := SMap.get (fun _ => 0) s.ost.ps (n * 65536 + pc)
def State.psBadAt (s : State) (n pc : Nat) : Bool := SMap.get (fun _ => false) s.ost.psBad (n * 65536 + pc)
def customer (pc : Nat) : Bool := decide (0xC000 ≤ pc)

/-- The row that a word executes: its opcode, 0x40 for HTAKE, and 0x41 for an opcode that Table 16.6 does not list. -/
def ostRow (w : Word) : Nat :=
  if !ostListed (iOp w) then 0x41 else if iOp w = 0x3E ∧ nbit (iFn w) 4 then 0x40 else iOp w

/-- Thread t issues its next instruction, if its core's choice falls on it and that instruction is of row `row`. `body` is the effect of
the word; a fetch that fails, a refused opcode, an unused field and a class V word of a customer stop the thread. -/
def State.ostIssue (s : State) (t row : Nat) (body : State → Word → State) : State :=
  let q := s.thr t
  let n := s.thrOwner t
  let a := BitVec.ofNat 32 q.pc
  if !s.ostTurn t then s
  else if customer q.pc && decide (s.custState n ≠ 2) then (s.coreIssued t).thrFault t 3 a
  else if s.psBadAt n q.pc then (s.coreIssued t).thrFault t 5 a
  else
    let w := s.psWord n q.pc
    if ostRow w ≠ row then s
    else if row = 0x41 then (s.coreIssued t).thrFault t 1 w
    else
      let s := (s.coreIssued t).smpIssue n t (ostClass (iOp w)) q.pc
      if iOp w = 0x3F ∧ customer q.pc then s.thrFault t 2 w
      else if ostBadField w then s.thrFault t 1 w
      else body s w

/-- The word of thread t that issues next, if it can issue. -/
def State.ostNext (s : State) (t : Nat) : Option Word :=
  if s.ostTurn t then some (s.psWord (s.thrOwner t) (s.thr t).pc) else none

/-- The instruction of thread t is complete and the thread goes on at `pc`. -/
def State.ostTo (s : State) (t pc : Nat) : State :=
  (s.setThr t { s.thr t with pc := pc % 65536 }).smpDone t

/-- The instruction of thread t is complete; the next word follows. -/
def State.ostOn (s : State) (t : Nat) : State := s.ostTo t ((s.thr t).pc + 1)

/-- The instruction of thread t writes RD and the next word follows. -/
def State.ostRd (s : State) (t rd : Nat) (v : Word) : State := (s.setThr t ((s.thr t).setR rd v)).ostOn t

/-- The instruction of thread t waits for an access that will give `v` to register `rd` (R431, R441). -/
def State.ostWait (s : State) (t : Nat) (rd : Option Nat) (v : Word) : State :=
  let q := s.thr t
  (s.setThr t { q with st := 4, pc := (q.pc + 1) % 65536, acc := some ⟨rd, v⟩ }).smpKind t 1

/-- The access of thread t completes (R441). -/
def State.accessComplete (s : State) (t : Nat) : State :=
  let q := s.thr t
  if q.st ≠ 4 then s
  else
    match q.acc with
    | none => s
    | some a =>
      let q := match a.rd with
        | some r => q.setR r a.val
        | none => q
      (s.setThr t { q with st := 1, acc := none }).smpDone t

/-! ### Arithmetic and logic (Table 16.6) -/

/-- A class A instruction of format R: d is a function of a and b. -/
def State.ostAluR (s : State) (t row : Nat) (f : Word → Word → Word) : State :=
  s.ostIssue t row fun s w => s.ostRd t (iRd w) (f ((s.thr t).reg (iRa w)) ((s.thr t).reg (iRb w)))

/-- A class A instruction of format I: d is a function of a and the word. -/
def State.ostAluI (s : State) (t row : Nat) (f : Word → Word → Word) : State :=
  s.ostIssue t row fun s w => s.ostRd t (iRd w) (f ((s.thr t).reg (iRa w)) w)

/-- The immediate, zero-extended to 32 bits. -/
def iZx (w : Word) : Word := BitVec.ofNat 32 (iImm w)

/-- A truth value as a register holds it. -/
def boolWord (b : Bool) : Word := if b then 1 else 0

/-- The high 32 bits of the unsigned product (MULHU). -/
def mulHigh (a b : Word) : Word := BitVec.ofNat 32 (a.toNat * b.toNat / 2 ^ 32)

/-! ### Data memory (R440, R441) -/

/-- The place of byte address `a` of owner n's data space, if it exists: quad × 2^17 + offset. -/
def State.dataPlace (s : State) (n a : Nat) : Option Nat := ((s.quadsOf n)[a / 2 ^ 17]?).map fun q => q * 2 ^ 17 + a % 2 ^ 17

/-- The flips of the 4-byte word that holds the place (SECDED). -/
def State.dataFlips (s : State) (pl : Nat) : Nat := (s.ost.flips.filter fun f => f / 32 == pl / 4).length

/-- `k` data bytes from a place as a number, least significant byte first. -/
def State.dataRead (s : State) (pl k : Nat) : Nat :=
  leNat ((List.range k).map fun i => SMap.get (fun _ => 0) s.ost.data (pl + i))

/-- Store `k` bytes at a place; their flipped bits are gone. -/
def State.dataWrite (s : State) (pl k v : Nat) : State :=
  let d := (List.range k).foldl (fun m i => SMap.put (fun _ => 0) m (pl + i) (BitVec.ofNat 8 (v / 256 ^ i))) s.ost.data
  { s with ost := { s.ost with
    data := d, flips := s.ost.flips.filter fun f => !(decide (pl ≤ f / 8 ∧ f / 8 < pl + k)) } }

/-- A data access of `k` bytes at address `a` by thread t: aligned and in range, it goes on at its place; else it faults. -/
def State.ostData (s : State) (t k : Nat) (a : Word) (go : State → Nat → State) : State :=
  if a.toNat % k ≠ 0 then s.thrFault t 6 a
  else
    match s.dataPlace (s.thrOwner t) a.toNat with
    | none => s.thrFault t 7 a
    | some pl => go s pl

/-- The effective address of a load, a store or a fabric access. -/
def State.ostEa (s : State) (t : Nat) (w : Word) : Word := (s.thr t).reg (iRa w) + iSx w

/-- A load of `k` bytes, zero-extended. -/
def State.ostLoad (s : State) (t row k : Nat) : State :=
  s.ostIssue t row fun s w =>
    s.ostData t k (s.ostEa t w) fun s pl =>
      if 2 ≤ s.dataFlips pl then s.thrFault t 8 (s.ostEa t w)
      else s.ostWait t (some (iRd w)) (BitVec.ofNat 32 (s.dataRead pl k))

/-- A store of the low `k` bytes of RD. -/
def State.ostStore (s : State) (t row k : Nat) : State :=
  s.ostIssue t row fun s w =>
    s.ostData t k (s.ostEa t w) fun s pl => (s.dataWrite pl k ((s.thr t).reg (iRd w)).toNat).ostWait t none 0

/-- An atomic: the word at a becomes a function of the old word and b, and d takes the old word. -/
def State.ostAmo (s : State) (t row : Nat) (f : Word → Word → Word) : State :=
  s.ostIssue t row fun s w =>
    let a := (s.thr t).reg (iRa w)
    s.ostData t 4 a fun s pl =>
      if 2 ≤ s.dataFlips pl then s.thrFault t 8 a
      else
        let old := BitVec.ofNat 32 (s.dataRead pl 4)
        (s.dataWrite pl 4 (f old ((s.thr t).reg (iRb w))).toNat).ostWait t (some (iRd w)) old

/-! ### Branches, calls and window traps (R443 to R445) -/

/-- A branch of format B: RA stands in bits 25:21 and RB in bits 20:16; the offset counts from the next word. -/
def State.ostBranch (s : State) (t row : Nat) (p : Word → Word → Bool) : State :=
  s.ostIssue t row fun s w =>
    let q := s.thr t
    if p (q.reg (iRd w)) (q.reg (iRa w)) then s.ostTo t (((q.pc : Int) + 1 + sext 16 (iImm w)) % 65536).toNat else s.ostOn t

/-- A window trap: the thread enters window 7 at the vendor's handler (R444). -/
def State.winTrap (s : State) (t : Nat) (deep : Bool) : State :=
  let n := s.thrOwner t
  let q := s.thr t
  let s := s.setThr t { q with trap := true, trapOver := deep, trapPc := q.pc, pc := if deep then 0x100 else 0x104 }
  (s.addCnt (if deep then C.OST_SPILLS n else C.OST_FILLS n) 1).smpKind t 3

/-- The registers of a window, copied between the windows and the spill area, or cleared. -/
def copyRegs (f : Nat → Word) (dst : SMap Word) (base : Nat) : SMap Word :=
  (List.range 16).foldl (fun m i => SMap.put (fun _ => 0) m (base + i) (f i)) dst

/-- The handler of a window trap returns: the frame has moved, TRAP clears and the CALL or RET runs again (R444). -/
def Thr.trapReturn (q : Thr) : Thr :=
  if q.trapOver then
    let old := (q.cwp + 8 - q.resident) % 7
    { q with trap := false, pc := q.trapPc, resident := q.resident - 1, spilled := q.spilled + 1,
             spill := copyRegs (fun i => SMap.get (fun _ => 0) q.r (old * 16 + i)) q.spill (q.spilled * 16) }
  else
    let back := (q.cwp + 6) % 7
    { q with trap := false, pc := q.trapPc, resident := q.resident + 1, spilled := q.spilled - 1,
             r := copyRegs (fun i => SMap.get (fun _ => 0) q.spill ((q.spilled - 1) * 16 + i)) q.r (back * 16) }

/-- CALL and CALLR to `pc` (R443). -/
def State.ostCall (s : State) (t pc : Nat) : State :=
  let q := s.thr t
  if q.trap then s.winDouble t 1
  else if q.resident = 7 then (if 16 ≤ q.spilled then s.winDouble t 0 else s.winTrap t true)
  else
    let c := (q.cwp + 1) % 7
    let r := copyRegs (fun i => if i = 15 then BitVec.ofNat 32 ((q.pc + 1) % 65536) else 0) q.r (c * 16)
    (s.setThr t { q with cwp := c, resident := q.resident + 1, r := r }).ostTo t pc

/-- RET (R435, R443, R444). -/
def State.ostRet (s : State) (t : Nat) : State :=
  let q := s.thr t
  if q.trap then
    let s := s.smpDone t
    s.setThr t (s.thr t).trapReturn
  else if q.resident = 1 then (if 0 < q.spilled then s.winTrap t false else s.thrExit t 0)
  else
    let pc := (q.reg 15).toNat % 65536
    (s.setThr t { q with cwp := (q.cwp + 6) % 7, resident := q.resident - 1 }).ostTo t pc

/-- A jump by JR or CALLR to a[15:0]; from a customer word only to a customer word or an entry that customers may call
(R455). The fault record holds the target, which is a[15:0] (Table 16.3). -/
def State.ostXfer (s : State) (t : Nat) (a : Word) (go : State → Nat → State) : State :=
  let pc := a.toNat % 65536
  if customer (s.thr t).pc && !customer pc && !decide (0x200 ≤ pc ∧ pc ≤ 0x2FF) then s.thrFault t 4 (BitVec.ofNat 32 pc) else go s pc

/-! ### Creating, joining, waiting (R434 to R439) -/

/-- The lowest FREE thread of owner n in cluster c, else in the other clusters in ascending order; none of a cluster that is not up
(R546). -/
def State.freeThread (s : State) (n c : Nat) : Option Nat :=
  let fs := (s.threadsOf n).filter fun t => decide ((s.thr t).st = 0) && s.clusterUp t
  match fs.find? fun t => decide (thrCluster t = c) with
  | some t => some t
  | none => fs.head?

/-- FORK (R434). -/
def State.ostFork (s : State) (t : Nat) (w : Word) : State :=
  let n := s.thrOwner t
  let q := s.thr t
  match s.freeThread n (thrCluster t) with
  | none => (s.addCnt (C.OST_FORK_FAIL n) 1).ostRd t (iRd w) 0xFFFFFFFF
  | some c =>
    let s := s.thrStart c (q.reg (iRa w)).toNat (q.reg (iRb w)) (BitVec.ofNat 32 t) (nbit (iFn w) 0)
    (s.addCnt (C.OST_FORKS n) 1).ostRd t (iRd w) (BitVec.ofNat 32 c)

/-- The chain of joins from thread t leads to `goal` (R437). -/
def State.joinChain (s : State) (goal : Nat) : Nat → Nat → Bool
  | 0, _ => false
  | k + 1, t => decide (t = goal) || (decide ((s.thr t).st = 3 ∧ (s.thr t).ask = none) && s.joinChain goal k (s.thr t).target)

/-- JOIN: the caller asks its owner's arbiter, which decides when the cycle that issued it is over (R437). -/
def State.ostJoin (s : State) (t j : Nat) (w : Word) : State :=
  let q := s.thr t
  s.setThr t { q with st := 3, ask := some (j, q.reg (iRa w)), rd := iRd w }

/-- The arbiter decides the JOIN of thread t (Table 16.2). -/
def State.joinDecide (s : State) (t : Nat) : State :=
  let q := s.thr t
  match q.ask with
  | none => s
  | some (_, a) =>
    let s := s.setThr t { q with st := 1, ask := none }
    let g := a.toNat
    let x := s.thr g
    if 512 ≤ g ∨ s.thrOwner g ≠ s.thrOwner t ∨ g = t ∨ x.st = 0 ∨ x.detach ∨ (s.joiner g).isSome then s.thrFault t 11 a
    else if x.st = 5 then (s.setThr g {}).ostRd t q.rd x.exitVal
    else if x.st = 6 then s.ostRd t q.rd 0xFFFFFFFF
    else if s.joinChain t 512 g then s.thrFault t 12 a
    else s.setThr t { q with st := 3, ask := none, target := g, pc := (q.pc + 1) % 65536 }

/-- The callers whose JOINs wait for the arbiter: those of an earlier cycle first, those of one cycle in ascending ID. -/
def State.joinAsks (s : State) : List Nat :=
  (sortBy (fun a b => decide (a.2 ≤ b.2)) (s.ost.thr.filterMap fun e => e.2.ask.map fun x => (e.1, x.1))).map (·.1)

/-- The arbiters decide, one JOIN at a time, each decision seeing those before it (R437). -/
def State.joinTurn (s : State) : State := s.joinAsks.foldl (fun s t => s.joinDecide t) s

/-- The selected events present for thread t (R439). -/
def State.thrEvents (s : State) (t m : Nat) (kicked : Bool) : Nat :=
  let n := s.thrOwner t
  (if nbit m 0 ∧ s.excQ n (thrCluster t) ≠ [] then 1 else 0) + (if nbit m 1 ∧ s.fq n ≠ [] then 2 else 0) +
    (if nbit m 2 ∧ kicked then 4 else 0)

/-- WAITT (R439). -/
def State.ostWaitt (s : State) (t : Nat) (w : Word) : State :=
  let q := s.thr t
  let dl := (q.reg (iRa w)).toNat * 2 ^ 32 + (q.reg (iRb w)).toNat
  let m := iFn w % 8
  let ev := s.thrEvents t m false
  if dl ≤ s.time.now ∨ ev ≠ 0 then
    s.ostRd t (iRd w) (BitVec.ofNat 32 ((if dl ≤ s.time.now then 8 else 0) + ev))
  else s.setThr t { q with st := 2, deadline := dl, mask := m, rd := iRd w, kicked := false, pc := (q.pc + 1) % 65536 }

/-- A waiting thread whose deadline or event has come becomes READY (R439). -/
def State.waittWake (s : State) (t : Nat) : State :=
  let q := s.thr t
  if q.st ≠ 2 then s
  else
    let ev := s.thrEvents t q.mask q.kicked
    let due := decide (q.deadline ≤ s.time.now)
    if due || decide (ev ≠ 0) then s.thrWake t (BitVec.ofNat 32 ((if due then 8 else 0) + ev)) 2 else s

/-- KICK: the waiting threads of owner n see the event (R439). -/
def State.ostKick (s : State) (n : Nat) : State :=
  let seen := fun (e : Nat × Thr) =>
    if decide (e.2.st = 2) && nbit e.2.mask 2 && decide (s.thrOwner e.1 = n) then (e.1, { e.2 with kicked := true })
    else e
  { s with ost := { s.ost with thr := s.ost.thr.map seen } }

/-- RDT (R438). A selector above 3 gives no stated value. -/
def State.ostRdt (s : State) (t : Nat) (w : Word) : State :=
  let q := s.thr t
  let sel := iImm w
  if sel = 0 then
    (s.setThr t { q with nowHi := BitVec.ofNat 32 (s.time.now / 2 ^ 32) }).ostRd t (iRd w) (BitVec.ofNat 32 s.time.now)
  else if sel = 1 then s.ostRd t (iRd w) q.nowHi
  else if sel = 2 then s.ostRd t (iRd w) (BitVec.ofNat 32 t)
  else if sel = 3 then s.ostRd t (iRd w) (BitVec.ofNat 32 (s.thrOwner t))
  else
    let (v, s) := s.freeWord
    s.ostRd t (iRd w) (BitVec.ofNat 32 v)

/-! ### Buffers (R460 to R463) -/

def Thr.slot (q : Thr) (i : Nat) : Option HSlot := SMap.get (fun _ => none) q.slots i
def State.setSlot (s : State) (t i : Nat) (x : Option HSlot) : State :=
  s.setThr t { s.thr t with slots := SMap.put (fun _ => none) (s.thr t).slots i x }

/-- The requester of thread t's buffers. -/
def State.thrRq (s : State) (t : Nat) : Nat := rqCode (s.thrOwner t) (thrCluster t)


/-- The instruction needs slot i full (R461). -/
def State.ostSlot (s : State) (t i : Nat) (go : State → HSlot → State) : State :=
  match (s.thr t).slot i with
  | none => s.thrFault t 9 (BitVec.ofNat 32 i)
  | some x => go s x

/-- The instruction needs slot i full, with a buffer that no other owner has: one that another owner has taken since HTAKE faults as
HTAKE of it would (R47, R461, log entry 117). -/
def State.ostOwnSlot (s : State) (t i : Nat) (go : State → HSlot → State) : State :=
  s.ostSlot t i fun s x => if s.foreignBuf (s.thrOwner t) x.handle then s.thrFault t 9 (BitVec.ofNat 32 i) else go s x

/-- The instruction needs slot i empty (R461). -/
def State.ostEmpty (s : State) (t i : Nat) (go : State → State) : State :=
  if ((s.thr t).slot i).isSome then s.thrFault t 9 (BitVec.ofNat 32 i) else go s

/-- XGET (R462). -/
def State.ostXget (s : State) (t : Nat) (w : Word) : State :=
  let i := iImm w % 4
  let n := s.thrOwner t
  let c := thrCluster t
  s.ostEmpty t i fun s =>
    match s.excQ n c with
    | [] => s.ostRd t (iRd w) 0
    | x :: rest =>
      let s := ((s.setExcQ n c rest).setSlot t i (some { handle := x.handle, hdr := some x.hdr })).addCnt (C.OST_EXC_TAKEN n) 1
      s.ostRd t (iRd w) (BitVec.ofNat 32 (0x80000000 + x.handle))

/-- BALLOC (R461). -/
def State.ostBalloc (s : State) (t : Nat) (w : Word) : State :=
  let i := iImm w % 4
  s.ostEmpty t i fun s =>
    let len := ((s.thr t).reg (iRa w)).toNat
    if len = 0 ∨ 10240 < len then s.ostRd t (iRd w) 5
    else
      match s.bpmAlloc (s.thrRq t) len [] with
      | (.granted h, s) => (s.setSlot t i (some { handle := h })).ostRd t (iRd w) 1
      | (.quota, s) => s.ostRd t (iRd w) 2
      | (.reserve, s) => s.ostRd t (iRd w) 3
      | (.empty, s) => s.ostRd t (iRd w) 4

/-- BFREE (R461, R271). -/
def State.ostBfree (s : State) (t : Nat) (w : Word) : State :=
  let i := iImm w % 4
  s.ostSlot t i fun s x =>
    let rq := s.thrRq t
    let s := s.setSlot t i none
    if (s.buf x.handle).isSome && !s.foreignBuf (s.thrOwner t) x.handle then (s.ostRelease rq x.handle).ostRd t (iRd w) 0
    else (s.bpmDoubleFree rq x.handle).ostRd t (iRd w) 1

/-- `k` bytes of a buffer from an offset; a byte that nothing has written is free. -/
def State.bufBytesAt (s : State) (h off k : Nat) : Bytes × State :=
  let bs := ((s.buf h).map (·.bytes)).getD []
  ((List.range k).map fun i => (bs[off + i]?).getD (Config.freeByte (s.freeIx + i)), { s with freeIx := s.freeIx + k })

/-- A buffer access of thread t failed: the hold is released, the slot emptied, and the thread faults (R461, R288). -/
def State.ostBufFail (s : State) (t i : Nat) (x : HSlot) (a : Word) : State :=
  let rq := s.thrRq t
  let s := s.setSlot t i none
  (if x.hold then s.bpmRelease rq x.handle else s).thrFault t 10 a

/-- The buffer size of a handle's pool. -/
def State.handleBytes (s : State) (h : Nat) : Nat := s.poolBytes (poolOfH h)

/-- BLD (R461, R462). -/
def State.ostBld (s : State) (t : Nat) (w : Word) : State :=
  let i := iFn w % 4
  let k := 4 / 2 ^ (iFn w / 4 % 4)
  let a := (s.thr t).reg (iRa w)
  s.ostOwnSlot t i fun s x =>
    if a.toNat % k ≠ 0 then s.thrFault t 6 a
    else if 16320 ≤ a.toNat ∧ a.toNat < 16384 ∧ x.hdr.isSome then
      s.ostWait t (some (iRd w)) (BitVec.ofNat 32 (leNat (slice (x.hdr.getD []) (a.toNat - 16320) k)))
    else if s.handleBytes x.handle ≤ a.toNat then s.thrFault t 10 a
    else
      match s.readBuf x.handle a.toNat k with
      | (true, s) => s.ostBufFail t i x a
      | (false, s) =>
        let (bs, s) := s.bufBytesAt x.handle a.toNat k
        s.ostWait t (some (iRd w)) (BitVec.ofNat 32 (leNat bs))

/-- Bytes are stored in buffer h from an offset on; a byte before them that nothing has written is free. The words of 16 bytes that they
fall in are written back whole, corrected (R286). -/
def State.bufPut (s : State) (h off : Nat) (v : Bytes) : State :=
  match s.buf h with
  | none => s
  | some b =>
    let gap := off - b.bytes.length
    let bs := b.bytes ++ (List.range gap).map fun j => Config.freeByte (s.freeIx + j)
    let s := { s with freeIx := s.freeIx + gap }
    s.setBuf h (some { b with
      bytes := bs.take off ++ v ++ bs.drop (off + v.length),
      flips := b.flips.filter fun f => !(decide (off / 16 ≤ f / 128 ∧ f / 128 ≤ (off + v.length - 1) / 16)) })

/-- BST (R461): the words that it changes in part are read first, and fail as a read does. -/
def State.ostBst (s : State) (t : Nat) (w : Word) : State :=
  let i := iFn w % 4
  let k := 4 / 2 ^ (iFn w / 4 % 4)
  let a := (s.thr t).reg (iRa w)
  s.ostOwnSlot t i fun s x =>
    if a.toNat % k ≠ 0 then s.thrFault t 6 a
    else if s.handleBytes x.handle ≤ a.toNat then s.thrFault t 10 a
    else
      match s.readBuf x.handle a.toNat k with
      | (true, s) => s.ostBufFail t i x a
      | (false, s) => (s.bufPut x.handle a.toNat (natLE k ((s.thr t).reg (iRd w)).toNat)).ostWait t none 0

/-- HPUT (R461): the hold stays and nothing references it. -/
def State.ostHput (s : State) (t : Nat) (w : Word) : State :=
  let i := iFn w % 4
  s.ostSlot t i fun s x => (s.setSlot t i none).ostRd t (iRd w) (BitVec.ofNat 32 x.handle)

/-- HTAKE (R461): the slot takes a handle without a hold. -/
def State.ostHtake (s : State) (t : Nat) (w : Word) : State :=
  let i := iFn w % 4
  let h := ((s.thr t).reg (iRa w)).toNat % 2 ^ 24
  s.ostEmpty t i fun s =>
    let foreign := (s.buf h).any fun b => b.primary.any fun r => decide (s.rqOwner r ≠ s.thrOwner t)
    if foreign || !s.handleOk h then s.thrFault t 9 (BitVec.ofNat 32 i)
    else (s.setSlot t i (some { handle := h, hold := false })).ostOn t

/-- BSEND (R463). The engine reads the frame for its FCS, and a word that it cannot read fails as a BLD's does (R286, R288). -/
def State.ostBsend (s : State) (t : Nat) (w : Word) : State :=
  let i := iFn w % 4
  let a := (s.thr t).reg (iRa w)
  let b := ((s.thr t).reg (iRb w)).toNat
  let n := s.thrOwner t
  let e := b % 2 ^ 10
  let c := b / 2 ^ 16 % 16
  s.ostOwnSlot t i fun s x =>
    if a.toNat < 64 ∨ s.handleBytes x.handle < a.toNat then s.thrFault t 10 a
    else
      match s.readBuf x.handle 0 a.toNat with
      | (true, s) => s.ostBufFail t i x a
      | (false, s) =>
        let (bs, s) := s.bufBytesAt x.handle 0 (a.toNat - 4)
        let off := min (((s.buf x.handle).map (·.bytes.length)).getD 0) (a.toNat - 4)
        let s := s.bufPut x.handle off ((withFcs bs).drop off)
        let k : Pkt := { kind := .injected, handle := x.handle, rq := s.holdRq (s.thrRq t) x.handle, port := 1024, len := a.toNat,
                         win := bs.take 512 }
        let s := s.setSlot t i none
        if n ≠ 0 ∧ s.ownerOfPort e ≠ n then ((s.xdrop n 1).pktGone k false).ostOn t
        else
          match s.tmDirect e c k with
          | (true, s) => s.ostOn t
          | (false, s) => (s.pktGone k false).ostOn t

/-! ### The customer region and the program store (R448 to R456) -/

/-- The first check of Table 16.5 that a customer word at `pc` fails. -/
def custWordCheck (pc : Nat) (w : Word) : Option Nat :=
  let op := iOp w
  let ok := fun a => customer a || decide (0x200 ≤ a ∧ a ≤ 0x2FF)
  if !ostListed op || decide (op = 0x3F) then some 1
  else if ostBadField w then some 2
  else if 0x28 ≤ op ∧ op ≤ 0x2B ∧ !ok (((pc : Int) + 1 + sext 16 (iImm w)) % 65536).toNat then some 3
  else if (op = 0x2C ∨ op = 0x2D) ∧ !ok (iImm w) then some 3
  else if op = 0x35 ∧ 3 < iImm w then some 4
  else none

/-- The first failure of the customer region of owner n, from word `pc` up. -/
def State.custCheck (s : State) (n : Nat) : Nat → Nat → Option (Nat × Nat)
  | 0, _ => none
  | k + 1, pc =>
    match custWordCheck pc (s.psWord n pc) with
    | some c => some (c, pc)
    | none => s.custCheck n k (pc + 1)

/-- The customer entry thread of owner n starts, as if the supervisor forked it (R456); none does while its Pitch is in reset (R71), and an
owner without a quad has no FREE thread. -/
def State.custEntry (s : State) (n : Nat) : State :=
  if !s.ostMayRun n then s
  else
    match (s.supervisor n).bind fun sup => (s.freeThread n (thrCluster sup)).map fun c => (sup, c) with
    | none => s.cause (R.OST_OWN_CAUSE n) F.OST_OWN_CAUSE.CUST_NOSTART
    | some (sup, c) => (s.thrStart c 0xC000 0 (BitVec.ofNat 32 sup) true).addCnt (C.OST_FORKS n) 1

/-- The customer region check of owner n ends (R453). -/
def State.custCheckDone (s : State) (n : Nat) : State :=
  if s.custState n ≠ 1 then s
  else
    match s.custCheck n 16384 0xC000 with
    | none =>
      (((s.setCustState n 2).custResult n 0).resetReg (R.OST_CUST_ERR n)).custEntry n
    | some (c, pc) =>
      let s := ((s.setCustState n 0).custResult n 1).setReg (R.OST_CUST_ERR n) (BitVec.ofNat 32 (2 ^ 31 + c * 2 ^ 16 + pc))
      s.cause (R.OST_OWN_CAUSE n) F.OST_OWN_CAUSE.CUST_FAIL

/-- A busy write of the customer region (R11, R452, R453). -/
def State.custBusy (s : State) (n : Nat) : State := s.cause (R.OST_OWN_CAUSE n) F.OST_OWN_CAUSE.CUST_BUSY

/-- The Pitch is in reset, owns no quad or has no vendor firmware: a write of EN = 1 has RESULT 0x2 (R453). -/
def State.custCannot (s : State) (n : Nat) : Bool := (decide (n ≠ 0) && s.inReset n) || decide (s.quadsOf n = []) || !s.ostFw n

/-- A write of EN = 1 (R453). -/
def State.custEnable (s : State) (n : Nat) : State :=
  if s.custState n = 1 then s.custBusy n
  else if s.custCannot n then s.custResult n 2
  else ((s.setBit (R.OST_CUST_CTL n) F.OST_CUST_CTL.EN true).setCustState n 1).custResult n 0xF

/-- A write of EN = 0 (R454). -/
def State.custDisable (s : State) (n : Nat) : State :=
  if s.custState n = 1 then s.custBusy n
  else
    let s := ((s.setBit (R.OST_CUST_CTL n) F.OST_CUST_CTL.EN false).setCustState n 0).custResult n 0
    ((s.threadsOf n).filter fun t => customer (s.thr t).pc && decide (1 ≤ (s.thr t).st ∧ (s.thr t).st ≤ 4)).foldl
      (fun s t => s.thrFault t 3 (BitVec.ofNat 32 (s.thr t).pc)) s

/-- OST_PS_ADDR steps by one (R452). -/
def State.psStep (s : State) (n : Nat) : State :=
  s.setFld (R.OST_PS_ADDR n) F.OST_PS_ADDR.ADDR (s.fld (R.OST_PS_ADDR n) F.OST_PS_ADDR.ADDR + 1)

/-- A write of OST_PS_DATA[n] by function f (R449, R452). -/
def State.psWrite (s : State) (f n a : Nat) (v : Word) : State :=
  let pc := s.fld (R.OST_PS_ADDR n) F.OST_PS_ADDR.ADDR
  let s1 :=
    if !customer pc then s.accessViolation f a true false
    else if s.custState n ≠ 0 then s.custBusy n
    else
      { s with ost := { s.ost with
        ps := SMap.put (fun _ => 0) s.ost.ps (n * 65536 + pc) v,
        psBad := SMap.put (fun _ => false) s.ost.psBad (n * 65536 + pc) false } }
  s1.psStep n

/-- Owner n may start a supervisor in thread t: its vendor region holds firmware, it is not in reset, and the cluster is up (R430,
R546). -/
def State.supMay (s : State) (n t : Nat) : Bool := s.ostFw n && s.ostMayRun n && s.clusterUp t

/-- Start the supervisor of owner n, while its vendor region holds firmware (R430). -/
def State.supStart (s : State) (n : Nat) : State :=
  match s.supervisor n with
  | none => s
  | some t => if s.supMay n t then s.thrStart t 0 (BitVec.ofNat 32 n) 0 false else s

/-- SUP_START: the supervisor is reset and started (R447). -/
def State.supRestart (s : State) (n : Nat) : State :=
  match s.supervisor n with
  | none => s
  | some t => if s.supMay n t then (s.thrReset t).supStart n else s

/-- The vendor region of owner n takes a firmware part (R449). -/
def State.fwLoad (s : State) (n : Nat) (ws : List (Nat × Word)) : State :=
  let old := s.ost.ps.filter fun e => decide (n * 65536 ≤ e.1 ∧ e.1 < n * 65536 + 0xC000)
  let new := ws.foldl (fun m e => if e.1 < 0xC000 then SMap.put (fun _ => 0) m (n * 65536 + e.1) e.2 else m) ([] : SMap Word)
  if s.ostFw n ∧ old = new then s
  else
    let s := (s.threadsOf n).foldl (fun s t => s.thrReset t) s
    let keep := s.ost.ps.filter fun e => !(decide (n * 65536 ≤ e.1 ∧ e.1 < n * 65536 + 0xC000))
    let ps := new.foldl (fun m e => SMap.put (fun _ => 0) m e.1 e.2) keep
    let bad := SMap.drop s.ost.psBad fun a => decide (n * 65536 ≤ a ∧ a < n * 65536 + 0xC000)
    let s := { s with ost := { s.ost with ps := ps, psBad := bad } }
    (s.setBit (R.OST_OWN_STATUS n) F.OST_OWN_STATUS.FW true).supStart n

/-- A re-seat writes every vendor word of owner n back, as the signed firmware `ws` holds it (R450, R451). -/
def State.fwReseat (s : State) (n : Nat) (ws : List (Nat × Word)) : State :=
  let vendor := fun (a : Nat) => decide (n * 65536 ≤ a ∧ a < n * 65536 + 0xC000)
  let ps := ws.foldl (fun m e => if e.1 < 0xC000 then SMap.put (fun _ => 0) m (n * 65536 + e.1) e.2 else m) (SMap.drop s.ost.ps vendor)
  { s with ost := { s.ost with ps := ps, psBad := SMap.drop s.ost.psBad vendor } }

/-! ### Resets (R464 to R466) -/

/-- The data segments of the quads that `p` picks are cleared to zero. -/
def State.dataClear (s : State) (p : Nat → Bool) : State :=
  { s with ost := { s.ost with
    data := SMap.drop s.ost.data fun a => p (a / 2 ^ 17), flips := s.ost.flips.filter fun f => !p (f / 2 ^ 20) } }

/-- Step 5 of a reset of Pitch n: its threads, queues, segments and causes (R465). -/
def State.ostReset (s : State) (n : Nat) : State :=
  let s := (s.threadsOf n).foldl (fun s t => s.thrReset t) s
  let s := (List.range 4).foldl (fun s c =>
    ((s.excQ n c).foldl (fun s x => s.bpmRelease (rqCode n c) x.handle) s).setExcQ n c []) s
  let qs := s.quadsOf n
  ((s.setFq n []).dataClear fun q => qs.contains q).resetReg (R.OST_OWN_CAUSE n)

/-- Owner n leaves reset: its supervisor and its customer entry thread start (R430, R456). -/
def State.ostRelease1 (s : State) (n : Nat) : State :=
  let s := s.supStart n
  if s.custState n = 2 then s.custEntry n else s

/-- Quad q takes another owner: its stopped threads are reset under the old one, and its data is cleared (R466). -/
def State.quadMove (s : State) (q n : Nat) : State :=
  let s := (List.range 4).foldl (fun s i => s.thrReset (4 * q + i)) s
  (s.setFld (R.PIT_OST_OWNER q) F.PIT_OST_OWNER.OWNER n).dataClear fun x => x == q

end Sys2Proof.Machine
end

