-- ==== Sys2Proof/Machine/Dma.lean ====
section
/-! DEFINITION. Host DMA (R576 to R590): rings, injected frames, exception copies, sheets, kept holds and ring errors, and the
PCI Express resets (R577). -/

namespace Sys2Proof.Machine

/-! ### Rings -/

/-- The size of ring r of function f, in descriptors. -/
def State.ringSize (s : State) (f r : Nat) : Nat := 2 ^ max 6 (s.fld (R.DMA_RING_CTL f r) F.DMA_RING_CTL.SIZE_LOG2)
def State.ringHead (s : State) (f r : Nat) : Nat := s.fld (R.DMA_RING_HEAD f r) F.DMA_RING_HEAD.INDEX
def State.ringTail (s : State) (f r : Nat) : Nat := s.fld (R.DMA_RING_TAIL f r) F.DMA_RING_TAIL.INDEX
def State.ringEn (s : State) (f r : Nat) : Bool := s.bit (R.DMA_RING_CTL f r) F.DMA_RING_CTL.EN

/-- The ring runs, and the descriptor at HEAD belongs to the part. -/
def State.ringReady (s : State) (f r : Nat) : Bool :=
  s.ringEn f r && !s.bit (R.DMA_RING_CTL f r) F.DMA_RING_CTL.STOPPED && decide (s.ringHead f r ≠ s.ringTail f r) && s.pw.linkUp &&
    !s.pw.pcieLost && !s.pw.fabricLost

/-- A ring error stops the ring (R590). -/
def State.ringError (s : State) (f r code index : Nat) : State :=
  let s := s.setBit (R.DMA_RING_CTL f r) F.DMA_RING_CTL.STOPPED true
  let s := s.setReg (R.DMA_RING_ERR f r) (BitVec.ofNat 32 (2 ^ 31 + code * 2 ^ 24 + index % 65536))
  s.arise (R.DMA_CAUSE f) (F.DMA_CAUSE.RING_ERR.lo + r)

/-- A write of TAIL of a running ring: the descriptors that it adds must fit, and it must be below the ring size (R581). -/
def State.tailWrite (s : State) (f r : Nat) (v : Word) : State :=
  let t := fldOf v F.DMA_RING_TAIL.INDEX
  let size := s.ringSize f r
  if !s.ringEn f r || s.bit (R.DMA_RING_CTL f r) F.DMA_RING_CTL.STOPPED then s.setFld (R.DMA_RING_TAIL f r) F.DMA_RING_TAIL.INDEX t
  else
    let held := (s.ringTail f r + size - s.ringHead f r) % size
    let more := (t + size - s.ringTail f r % size) % size
    if size ≤ t ∨ size ≤ held + more then s.ringError f r 3 t
    else s.setFld (R.DMA_RING_TAIL f r) F.DMA_RING_TAIL.INDEX t

/-- A write of DMA_RING_CTL (R535, R590). EN = 0 sets HEAD and TAIL to 0 and ends STOPPED; a ring that starts with a TAIL that is not below its
size has a bad TAIL (R581). -/
def State.ringCtlWrite (s : State) (f r : Nat) (v : Word) : State :=
  let a := R.DMA_RING_CTL f r
  let on := s.ringEn f r
  let en := decide (fldOf v F.DMA_RING_CTL.EN = 1)
  let size := fldOf v F.DMA_RING_CTL.SIZE_LOG2
  let s := if size = s.fld a F.DMA_RING_CTL.SIZE_LOG2 then s
    else if on || en then s.cause (R.DMA_CAUSE f) F.DMA_CAUSE.IDLE_VIOL
    else s.setFld a F.DMA_RING_CTL.SIZE_LOG2 size
  let s := s.setBit a F.DMA_RING_CTL.EN en
  if en then (if !on && decide (s.ringSize f r ≤ s.ringTail f r) then s.ringError f r 3 (s.ringTail f r) else s)
  else ((s.setBit a F.DMA_RING_CTL.STOPPED false).setReg (R.DMA_RING_HEAD f r) 0).setReg (R.DMA_RING_TAIL f r) 0

/-! ### Descriptors (Table 22.4) -/

/-- `k` bytes of a descriptor, little-endian. -/
def descFld (d : Bytes) (off k : Nat) : Nat := leNat (slice d off k)
def descLen (d : Bytes) : Nat := descFld d 8 2
def descCtl (d : Bytes) : Nat := descFld d 12 4

/-- A descriptor with a reserved field that is not zero, or a misaligned ADDR. -/
def descBad (r : Nat) (d : Bytes) : Bool :=
  decide (descFld d 0 8 % 4 ≠ 0) || decide (descFld d 20 4 ≠ 0) || decide (descFld d 28 4 ≠ 0) ||
  (if r = 0 then
    decide (descFld d 10 2 ≠ 0) || decide (descCtl d / 2 ^ 10 % 2 ^ 6 ≠ 0) || decide (descCtl d / 2 ^ 22 ≠ 0)
   else decide ((if r = 3 then descCtl d else descCtl d / 2) ≠ 0))

/-- What the part writes into a descriptor: LEN on rings 1 to 3, HANDLE of a kept copy, then STATUS with DONE, little-endian (R10, R581,
Table 22.4). -/
def descBack (r len : Nat) (handle : Option Nat) (code : Nat) : List (Nat × Bytes) :=
  (if r = 0 then [] else [(10, natLE 2 len)]) ++ (handle.elim [] fun h => [(16, natLE 4 h)]) ++ [(24, natLE 4 (2 ^ 31 + code))]

/-- A descriptor is written back, and HEAD advances (R581). -/
def State.ringDone (s : State) (f r len : Nat) (handle : Option Nat) (code : Nat) : State :=
  let h := s.ringHead f r
  let s := s.emit (.hostDesc f r h (descBack r len handle code))
  let s := s.setFld (R.DMA_RING_HEAD f r) F.DMA_RING_HEAD.INDEX ((h + 1) % s.ringSize f r)
  s.causeBit (R.DMA_CAUSE f) (F.DMA_CAUSE.DONE.lo + r)

/-- The sheet of stream f that waits for the host: the oldest that no port holds, once it is hashed (R413). -/
def State.sheetNext (s : State) (f : Nat) : Option Sheet := (s.sheetDue f).filter fun q => q.place = .ready ∨ q.place = .retry

/-- Ring r of function f has work: it runs, and a frame, a copy or a sheet waits for its descriptor. -/
def State.ringWork (s : State) (f r : Nat) : Bool :=
  s.ringReady f r &&
    (decide (r = 0) || (if r = 3 then s.wbByDma f && (s.sheetNext f).isSome else !(s.ringQ f r).isEmpty))

/-- Function f has work in the rotation; sheets of stream 0 stand outside it. -/
def State.dmaWork (s : State) (f : Nat) : Bool :=
  (List.range 4).any fun r => s.ringWork f r && !(decide (f = 0) && decide (r = 3))

/-- The function that the rotation serves next (R589). -/
def State.dmaNext (s : State) : Option Nat := ((List.range 17).map fun i => (s.dma.turn + i) % 17).find? s.dmaWork

/-- The engines serve ring r of function f now: sheets of stream 0 first, then the functions in rotation (R589, log entry 144). -/
def State.dmaTurn (s : State) (f r : Nat) : Bool :=
  s.ringWork f r && (if s.ringWork 0 3 then decide (f = 0 ∧ r = 3) else decide (s.dmaNext = some f))

/-- The rotation goes on behind function f. -/
def State.dmaServed (s : State) (f r : Nat) : State :=
  if f = 0 ∧ r = 3 then s else { s with dma := { s.dma with turn := (f + 1) % 17 } }

/-- The engines take the descriptor at HEAD of ring r in its turn: `err` says that a read ended in a completion error, and a malformed
descriptor stops the ring (R582, R589, R590). -/
def State.ringTake (s : State) (f r : Nat) (d : Bytes) (err : Bool) (go : State → State) : State :=
  if 17 ≤ f ∨ !s.dmaTurn f r then s
  else
    let s := s.dmaServed f r
    if err then s.ringError f r 1 (s.ringHead f r)
    else if descBad r d then s.ringError f r 2 (s.ringHead f r)
    else go s

/-- A DMA read of ring r is not completed within 10 ms (R576). -/
def State.ringTimeout (s : State) (f r : Nat) : State :=
  if 17 ≤ f ∨ 4 ≤ r ∨ !s.ringReady f r then s else s.ringError f r 1 (s.ringHead f r)

/-! ### Kept holds (R586, R587) -/

def State.kept (s : State) (f : Nat) : List Nat := SMap.get (fun _ => []) s.dma.kept f
def State.setKept (s : State) (f : Nat) (l : List Nat) : State :=
  { s with dma := { s.dma with kept := SMap.put (fun _ => []) s.dma.kept f l } }

/-- A write of DMA_FREE. -/
def State.dmaFree (s : State) (f h : Nat) : State :=
  if (s.buf h).isNone then s.bpmDoubleFree (rqCode f 4) h
  else if (s.kept f).contains h then (s.setKept f ((s.kept f).erase h)).bpmRelease (rqCode f 4) h
  else s.cause (R.DMA_CAUSE f) F.DMA_CAUSE.BAD_FREE

/-! ### Ring 0: frames (R583) -/

/-- A ring 0 descriptor completes and nothing was sent. -/
def State.txRefuse (s : State) (f code : Nat) : State :=
  (((s.ringDone f 0 0 none code).addCnt (C.DMA_TX_REFUSED f) 1).cause (R.DMA_CAUSE f) F.DMA_CAUSE.TX_REFUSED)

/-- The frame of a ring 0 descriptor stands in buffer `h`: it goes to step 6 of R293. -/
def State.txInject (s : State) (f : Nat) (d : Bytes) (h len : Nat) : State :=
  let s := (s.ringDone f 0 0 none 0).addCnt (C.DMA_TX_FRAMES f) 1
  let e := descCtl d % 2 ^ 10
  let win := (((s.buf h).elim [] (·.bytes)).take (len - 4)).take 512
  let k : Pkt := { kind := .injected, handle := h, rq := rqCode f 4, port := 1024, len := len, win := win }
  if f ≠ 0 ∧ s.ownerOfPort e ≠ f then (s.xdrop f 1).pktGone k false
  else
    match s.tmDirect e (descCtl d / 2 ^ 16 % 16) k with
    | (true, s) => s
    | (false, s) => s.pktGone k false

/-- The last 4 of `len` bytes as the FCS. -/
def fcsAt (bs : Bytes) (len : Nat) : Bytes := withFcs (bs.take (len - 4)) ++ bs.drop len

/-- The descriptor at HEAD of ring 0, and the frame at its address. An L above the size of a buffer named by handle completes with one of the
two codes of a frame not sent, which one the manual does not give. A buffer that cannot be read for its FCS stops the ring, as a failed data
read does, and is released (R286, R288, R590, log entry 143). -/
def State.dmaTx (s : State) (f : Nat) (d frame : Bytes) (err : Bool) : State :=
  s.ringTake f 0 d err fun s =>
    let len := descLen d
    let rq := rqCode f 4
    let mkFcs := nbit (descCtl d) 20
    if len < 64 ∨ 10240 < len then s.txRefuse f 6
    else if nbit (descCtl d) 21 then
      let h := descFld d 16 4
      if !(s.kept f).contains h || !s.ownBuf f h then s.txRefuse f 7
      else if s.poolBytes (poolOfH h) < len then
        let (b, s) := s.freeBool
        s.txRefuse f (if b then 6 else 7)
      else if mkFcs then
        match s.readBuf h 0 len with
        | (true, s) => (((s.ringError f 0 1 (s.ringHead f 0)).setKept f ((s.kept f).erase h))).bpmRelease rq h
        | (false, s) =>
          let (bs, s) := s.bufBytesAt h 0 (len - 4)
          let off := min (((s.buf h).map (·.bytes.length)).getD 0) (len - 4)
          ((s.bufPut h off ((withFcs bs).drop off)).setKept f ((s.kept f).erase h)).txInject f d h len
      else (s.setKept f ((s.kept f).erase h)).txInject f d h len
    else
      let bs := fitBytes len frame
      match s.bpmAlloc rq len (if mkFcs then fcsAt bs len else bs) with
      | (.granted h, s) => s.txInject f d h len
      | (.quota, s) => s.txRefuse f 1
      | (.reserve, s) => s.txRefuse f 2
      | (.empty, s) => s.txRefuse f 3

/-! ### Rings 1 and 2: exception copies (R585, R586) -/

/-- A buffer that ring r was to write out cannot be read: the data read fails and stops the ring (R286, R590; log entry 143). Where its
slice is fenced the engine gives the buffer up by `free` (R288). -/
def State.ringBufError (s : State) (f r h : Nat) (free : State → State) : State :=
  let s := s.ringError f r 1 (s.ringHead f r)
  if s.bufFenced h then free s else s

/-- The descriptor at HEAD of ring 1 or 2 takes the oldest copy. DESIGN CHOICE: a copy whose buffer its function no longer holds is not made,
for the buffer may hold a frame of another Pitch (R47, log entry 158). -/
def State.dmaExc (s : State) (f r : Nat) (d : Bytes) (err : Bool) : State :=
  if r ≠ 1 ∧ r ≠ 2 then s
  else
    match s.ringQ f r with
    | [] => s
    | c :: rest =>
      s.ringTake f r d err fun s =>
        if !s.ownBuf f c.handle then (s.setRingQ f r rest).excNotMade f
        else match s.readBuf c.handle 0 c.len with
        | (true, s) => s.ringBufError f r c.handle fun s => (s.setRingQ f r rest).bpmRelease (rqCode f 4) c.handle
        | (false, s) =>
          let s := s.setRingQ f r rest
          let (bs, s) := s.bufBytesAt c.handle 0 c.len
          let all := c.hdr ++ bs
          let cut := decide (descLen d < all.length)
          let out := all.take (descLen d)
          let keep := nbit (descCtl d) 0
          let s := s.emit (.hostWrite f r (s.ringHead f r) out)
          let s := if keep then s.setKept f (s.kept f ++ [c.handle]) else s.bpmRelease (rqCode f 4) c.handle
          (s.ringDone f r out.length (if keep then some c.handle else none) (if cut then 5 else 0)).addCnt (C.DMA_EXC_WRITTEN f) 1

/-! ### Ring 3: sheets (R588) -/

/-- The descriptor at HEAD of ring 3 takes the oldest sheet that is ready. -/
def State.dmaSheet (s : State) (f : Nat) (d : Bytes) (err : Bool) : State :=
  match s.sheetNext f with
  | none => s
  | some q =>
    s.ringTake f 3 d err fun s =>
      if descLen d < q.bytes.length then (s.ringDone f 3 0 none 4).cause (R.DMA_CAUSE f) F.DMA_CAUSE.DESC_ERR
      else
        match q.handle.elim (false, s) fun h => s.readBuf h 0 q.bytes.length with
        | (true, s) => s.ringBufError f 3 (q.handle.getD 0) fun s => s.sheetLose f q.num
        | (false, s) =>
          let s := s.emit (.hostWrite f 3 (s.ringHead f 3) q.bytes)
          ((s.ringDone f 3 q.bytes.length none 0).wbExported f q.num).addCnt (C.DMA_WB_SHEETS f) 1

/-! ### Resets (R577, Table 2.5) -/

/-- Exception copies of function f that wait to be judged and are steered to its rings are gone. -/
def State.excRingClear (s : State) (f : Nat) : State :=
  (s.pipesOf f).foldl (fun s p =>
    let q := s.pipe p
    if q.excWait.any fun x => decide (x.steer = 1 ∨ x.steer = 2) then
      s.setPipe p { q with excWait := q.excWait.filter fun x => decide (x.steer ≠ 1 ∧ x.steer ≠ 2) }
    else s) s

/-- Every hold charged to the DMA requester of function f is released, kept holds and those of its frames on their way included, and its
copies are gone (R577). -/
def State.dmaRelease (s : State) (f : Nat) : State :=
  let s := (s.bpmReleaseAll fun c => c == rqCode f 4).excRingClear f
  ((s.setRingQ f 1 []).setRingQ f 2 []).setKept f []

/-- The counters of page f. -/
def dmaCounters (f : Nat) : List Nat :=
  [C.DMA_TX_FRAMES f, C.DMA_TX_REFUSED f, C.DMA_EXC_WRITTEN f, C.DMA_EXC_DROP f, C.DMA_WB_SHEETS f]

/-- A Pitch reset stops the rings of function n and resets their pointers. -/
def State.dmaPitchReset (s : State) (n : Nat) : State :=
  let s := s.dmaRelease n
  let s := (List.range 4).foldl (fun s r =>
    let s := (s.setBit (R.DMA_RING_CTL n r) F.DMA_RING_CTL.EN false).setBit (R.DMA_RING_CTL n r) F.DMA_RING_CTL.STOPPED false
    (s.setReg (R.DMA_RING_HEAD n r) 0).setReg (R.DMA_RING_TAIL n r) 0) s
  s.clearCnts fun a => (dmaCounters n).contains a

/-- A Function Level Reset of function f. -/
def State.flr (s : State) (f : Nat) : State :=
  if 17 ≤ f then s
  else
    let s := s.dmaRelease f
    let s := s.resetRegs fun a => decide (0xD10000 + f * 0x1000 ≤ a ∧ a < 0xD11000 + f * 0x1000)
    s.clearCnts fun a => (dmaCounters f).contains a

/-- A hot or conventional reset: every function as for FLR, and its configuration space; the link retrains. -/
def State.hotReset (s : State) : State :=
  let s := (List.range 17).foldl (fun s f => s.flr f) s
  { s with irq := { s.irq with pcie := [] }, pw := { s.pw with linkUp := false } }

end Sys2Proof.Machine
end

