-- ==== Sys2Proof/Machine/Pres.lean ====
section
/-! DEFINITION. Presence and seal (R605 to R609): the window, the gate on RWP fields and gated commands, and their audit
events. -/

namespace Sys2Proof.Machine

/-- Who issues a register access: the function whose view it has, and whether an Ostler thread issues it. -/
structure Issuer where
  fn : Nat
  ost : Bool := false
  deriving DecidableEq, Repr

/-- A presence window is open. -/
def State.presOpen (s : State) : Bool := s.bit R.DEV_PRES_STATUS F.DEV_PRES_STATUS.OPEN

/-- PRESENCE_N is low. -/
def State.presHeld (s : State) : Bool := s.bit R.DEV_PRES_STATUS F.DEV_PRES_STATUS.HELD

/-- WINDOW as it acts, in seconds. -/
def State.presWindow (s : State) : Nat := max 5 (min 600 (s.fld R.DEV_PRES_CTL F.DEV_PRES_CTL.WINDOW))

/-- DEV_PRES_STATUS.REMAIN: whole seconds left; 0 while the window is held or closed. -/
def State.presRemain (s : State) : Nat :=
  if !s.presOpen || s.presHeld then 0 else (s.pres.riseAt + s.pres.window * 16000000000 - s.t16) / 16000000000

/-- A refused gated command is counted and recorded (R608). -/
def State.presRefuse (s : State) (i : Issuer) (a : Nat) : State :=
  let s := s.addWrap32 R.DEV_PRES_REFUSED 1
  let s := s.setReg R.DEV_PRES_LAST (BitVec.ofNat 32 ((if i.ost then 0x1F else i.fn) * 2 ^ 27 + a % 2 ^ 27))
  s.cause R.DEV_PRES_CAUSE F.DEV_PRES_CAUSE.REFUSED

/-- A write that would change RWP fields of the register at window address `a` from `old` to `new`: accepted or refused,
with audit event 0x06 for `subj` (R608). -/
def State.rwpGate (s : State) (i : Issuer) (subj a : Nat) (old new : Word) : Bool × State :=
  if old = new then (true, s)
  else if s.presOpen then (true, s.auditWrite false subj a old new)
  else (false, (s.presRefuse i a).auditWrite true subj a old new)

/-- The window opens, or restarts (R605). -/
def State.presStart (s : State) : State :=
  let was := s.presOpen
  let w := s.presWindow
  let s := s.setBit R.DEV_PRES_STATUS F.DEV_PRES_STATUS.OPEN true
  let s := { s with pres := { s.pres with openAt := if was then s.pres.openAt else s.t16, window := w } }
  (s.cause R.DEV_PRES_CAUSE F.DEV_PRES_CAUSE.WIN_OPEN).audit 0x02 false 0 (natBE 2 w)

/-- The window closes (R605, R609). -/
def State.presEnd (s : State) : State :=
  if s.presOpen then
    let t := (s.t16 - s.pres.openAt) / 16000000000
    let s := s.setBit R.DEV_PRES_STATUS F.DEV_PRES_STATUS.OPEN false
    (s.cause R.DEV_PRES_CAUSE F.DEV_PRES_CAUSE.WIN_CLOSE).audit 0x03 false 0 (natBE 2 t)
  else s

/-- The seal loop is closed. -/
def State.sealOk (s : State) : Bool := s.bit R.DEV_PRES_STATUS F.DEV_PRES_STATUS.SEAL_OK

/-- PRESENCE_N has been low for 50 ms. The window cannot open while the seal loop is open, or before step 2 of bring-up
ends, when STAGE becomes 2 (R605, Table 20.2). -/
def State.presAssert (s : State) : State :=
  let s := s.setBit R.DEV_PRES_STATUS F.DEV_PRES_STATUS.HELD true
  if s.pw.alive && s.sealOk && decide (2 ≤ s.fld R.DEV_BOOT_STATUS F.DEV_BOOT_STATUS.STAGE) then s.presStart else s

/-- PRESENCE_N rises. -/
def State.presRelease (s : State) : State :=
  if s.presHeld then
    { s.setBit R.DEV_PRES_STATUS F.DEV_PRES_STATUS.HELD false with pres := { s.pres with riseAt := s.t16 } }
  else s

/-- The window's time has ended: WINDOW seconds have passed since PRESENCE_N rose. -/
def State.presOver (s : State) : Bool := !s.presHeld && decide (s.pres.riseAt + s.pres.window * 16000000000 ≤ s.t16)

/-- The window's time ends. -/
def State.presExpire (s : State) : State := if s.presOver then s.presEnd else s

/-- The seal loop opens (R607). -/
def State.sealOpens (s : State) : State :=
  if s.sealOk then
    let s := s.setBit R.DEV_PRES_STATUS F.DEV_PRES_STATUS.SEAL_OK false
    ((s.ariseF R.DEV_PRES_CAUSE F.DEV_PRES_CAUSE.SEAL_OPEN).audit 0x04 false 0 []).presEnd
  else s

/-- The seal loop closes (R607). -/
def State.sealCloses (s : State) : State :=
  if s.sealOk || !s.pw.rounds then s
  else
    let s := s.setBit R.DEV_PRES_STATUS F.DEV_PRES_STATUS.SEAL_OK true
    (s.cause R.DEV_PRES_CAUSE F.DEV_PRES_CAUSE.SEAL_CLOSE).audit 0x05 false 0 []

end Sys2Proof.Machine
end

