-- ==== Sys2Proof/Machine/Pst.lean ====
section
/-! DEFINITION. Power, droop and thermal control (chapter "Power, Droop and Thermal Control"): domains and skip regions, the
budget and the Round grant, droop, limits, neighbours, and the admission of lane groups. Powers are in 0.25 W. -/

namespace Sys2Proof.Machine

/-! ### Domains (R494, R545) -/

def State.domOn (s : State) (d : Nat) : Bool := s.bit (R.PST_DOM_STATUS d) F.PST_DOM_STATUS.ON
def State.domUse (s : State) (d : Nat) : Nat := s.fld (R.PST_DOM_STATUS d) F.PST_DOM_STATUS.USE
def State.domReady (s : State) (d : Nat) : Bool := s.domBit R.PST_DOM_READY d
def State.domFail (s : State) (d : Nat) : Bool := s.domBit R.PST_DOM_FAIL d

/-- Set or clear the bit of domain d in PST_DOM_READY or PST_DOM_FAIL. -/
def State.setDomBit (s : State) (reg : Nat → Nat) (d : Nat) (b : Bool) : State :=
  let v := (s.reg (reg (d / 32))).toNat
  s.setReg (reg (d / 32)) (BitVec.ofNat 32 (if b then setNBit v (d % 32) else clrNBit v (d % 32)))

/-- Region r takes no grant (R497). DESIGN CHOICE: K_GRANT reads 0 until its next grant, so a region that is admitted runs unskipped till then
(log entry 160). -/
def State.noGrant (s : State) (r : Nat) : State :=
  (s.setReg (R.PST_REG_GRANT r) 0).setFld (R.PST_REG_STATUS r) F.PST_REG_STATUS.K_GRANT 0

/-- A domain is turned off: it clears its READY bit, a lane group what LG_STATUS shows of it, and a half or a cluster its grant. -/
def State.domDown (s : State) (d : Nat) : State :=
  let s := (s.setBit (R.PST_DOM_STATUS d) F.PST_DOM_STATUS.ON false).setDomBit R.PST_DOM_READY d false
  if d < 64 then
    ((s.setBit (R.LG_STATUS d) F.LG_STATUS.READY false).setBit (R.LG_STATUS d) F.LG_STATUS.PLL_LOCK false).setBit
      (R.LG_STATUS d) F.LG_STATUS.FWD_LOCK false
  else if d < 96 then s.noGrant (d - 64)
  else if 128 ≤ d ∧ d < 132 then s.noGrant (d - 95)
  else s

/-- Some domain stands in PST_DOM_FAIL. -/
def State.anyDomFail (s : State) : Bool := (List.range 5).any fun k => decide (s.reg (R.PST_DOM_FAIL k) ≠ 0)

/-- A domain enters PST_DOM_FAIL; DEV_BOOT_CAUSE.DOM_FAIL persists while any stands there (R546). -/
def State.domFailed (s : State) (d : Nat) : State :=
  let had := s.anyDomFail
  let s := s.setDomBit R.PST_DOM_FAIL d true
  if had then s.cause R.DEV_BOOT_CAUSE F.DEV_BOOT_CAUSE.DOM_FAIL else s.ariseF R.DEV_BOOT_CAUSE F.DEV_BOOT_CAUSE.DOM_FAIL

/-- The device domains in the order of admission (R545). -/
def deviceDoms : List Nat :=
  (List.range 16).map (96 + ·) ++ (List.range 8).map (136 + ·) ++ [132, 133] ++ (List.range 4).map (128 + ·) ++ [135]

/-- The domains of pipeline p: its halves and its arrays. -/
def pipeDoms (p : Nat) : List Nat := [64 + p, 80 + p, 112 + p]

/-! ### Skip regions (R495, R496) -/

def State.region (s : State) (r : Nat) : RegionSt := SMap.get (fun _ => {}) s.pw.reg r
def State.setRegion (s : State) (r : Nat) (q : RegionSt) : State :=
  { s with pw := { s.pw with reg := SMap.put (fun _ => {}) s.pw.reg r q } }

/-- The domains of region r (Table 18.4). -/
def regionDoms (r : Nat) : List Nat :=
  if r < 16 then [64 + r] else if r < 32 then [64 + r] else if r = 32 then (List.range 16).map (96 + ·) else [95 + r]

def State.regionOn (s : State) (r : Nat) : Bool := (regionDoms r).any s.domOn
def State.regionUse (s : State) (r : Nat) : Nat := ((regionDoms r).map s.domUse).sum
def State.kGrant (s : State) (r : Nat) : Nat := s.fld (R.PST_REG_STATUS r) F.PST_REG_STATUS.K_GRANT
def State.kEff (s : State) (r : Nat) : Nat := s.fld (R.PST_REG_STATUS r) F.PST_REG_STATUS.K_EFF

/-- The regions beside region r (Table 18.5). -/
def neighbours (r : Nat) : List Nat :=
  if r < 16 then [r + 16, 32] else if r < 32 then [r - 16, 32]
  else if r = 32 then (List.range 32) ++ [33, 34, 35, 36] else [32]

/-- The 6-bit reversal of i. -/
def rev6 (i : Nat) : Nat := ((List.range 6).map fun b => i / 2 ^ b % 2 * 2 ^ (5 - b)).sum

/-- Pulse i of a frame is withheld at skip ratio k (R496). -/
def withheld (i k : Nat) : Bool := decide (rev6 (i % 64) < k)

def State.exempt (s : State) (n : Nat) : Bool := s.bit (R.PST_PIT_CTL n) F.PST_PIT_CTL.EXEMPT
def State.exemptAny (s : State) : Bool := (List.range 17).any fun n => decide (1 ≤ n) && s.exempt n

/-- The Pitch that region r belongs to, 0 for a shared one. -/
def State.regionPitch (s : State) (r : Nat) : Nat := if r < 32 then s.ownerOfPipe (r % 16) else 0

/-- Region r is exempt: a half of an exempt Pitch, or the traffic manager region while any Pitch is exempt (R502). -/
def State.regionExempt (s : State) (r : Nat) : Bool :=
  if r < 32 then decide (s.regionPitch r ≠ 0) && s.exempt (s.regionPitch r) else decide (r = 32) && s.exemptAny

/-! ### The ratio in force (R506, R509, R512, R513, R515) -/

def State.forced (s : State) (r : Nat) : Bool := s.bit (R.PST_REG_CTL r) F.PST_REG_CTL.FORCE_EN

/-- What region r runs at by its grant or its forced ratio and its path monitor. No grant withholds a pulse from an exempt region (R502). -/
def State.kPower (s : State) (r : Nat) : Nat := if s.regionExempt r then 0 else s.kGrant r
def State.kBase (s : State) (r : Nat) : Nat :=
  let k := if s.forced r then s.fld (R.PST_REG_CTL r) F.PST_REG_CTL.FORCE_K else s.kPower r
  max k (if (s.region r).margin then 8 else 0)

/-- What the neighbour rule adds to region r, nothing while it is exempt (R513). -/
def State.kNb (s : State) (r : Nat) : Nat := if s.regionExempt r then 0 else (s.region r).nb

/-- What region r runs at by its grant or its forced ratio, its path monitor, its thermal and its neighbour raise. -/
def State.kRaw (s : State) (r : Nat) : Nat := min 63 (s.kBase r + (s.region r).therm + s.kNb r)

/-- Lower the larger ratio of each pair of admitted regions to the smaller plus 32 (R512). -/
def State.kClip (s : State) (ks : List Nat) : List Nat :=
  (List.range 37).map fun r =>
    ((neighbours r).filter s.regionOn).foldl (fun k x => min k (ks.getD x 0 + 32)) (ks.getD r 0)

/-- The ratios of the 37 regions clipped under R512, without the droop response. -/
def State.kClipped (s : State) : List Nat := s.kClip (s.kClip ((List.range 37).map s.kRaw))

/-- The ratios in force of the 37 regions: clipped under R512, then raised by the droop response of the region or of a
neighbour (R506). -/
def State.kAll (s : State) : List Nat :=
  let ks := s.kClipped
  (List.range 37).map fun r =>
    let d := (neighbours r).foldl (fun d x => max d ((s.region x).droop - 32)) (s.region r).droop
    max (ks.getD r 0) d

/-- The neighbours to whose ratio plus 32 the forced ratio of region r is clipped (R513). -/
def State.forceClips (s : State) (r : Nat) : List Nat :=
  let k := s.fld (R.PST_REG_CTL r) F.PST_REG_CTL.FORCE_K
  if s.forced r then ((neighbours r).filter s.regionOn).filter fun x => decide (s.kRaw x + 32 < k) else []

/-- The code VFUSE of region r, fused at test: free, but that neighbouring regions lie within 8 codes, 20 mV, of each other (R507). -/
def fusedV (r : Nat) : Nat :=
  let raw := fun x => (Config.vfuse x).toNat
  let near := fun lo hi x => max (lo - 8) (min (min (hi + 8) 255) x)
  let tm := raw 32
  if r = 32 then tm
  else if 16 ≤ r ∧ r < 32 then
    let ing := near tm tm (raw (r - 16))
    near (max tm ing) (min tm ing) (raw r)
  else near tm tm (raw r)

/-- The set point code of region r (R508, R513). -/
def State.vset (s : State) (r : Nat) : Nat :=
  s.fld (R.PST_REG_VTABLE r) F.PST_REG_VTABLE.VALUE + 6 + (if s.regionExempt r then 8 else 0) + (s.region r).vraise

/-- The pairs whose forced ratio is clipped, as (region, neighbour, 2). -/
def State.clippedPairs (s : State) : List (Nat × Nat × Nat) := (List.range 37).flatMap fun r => (s.forceClips r).map fun x => (r, x, 2)

/-- The pairs whose forced ratio is clipped are noted. A new one went beyond the skip limit for the instant before the clip, so NEIGHBOUR and
FORCE_CLIP set and its episode counts, which lasts as long as the clip (R513). NEIGHBOUR persists only while some pair stays beyond a limit. -/
def State.clipNote (s : State) : State :=
  let now := s.clippedPairs
  let k := (now.filter fun e => !s.pw.equal.contains e).length
  let s := { s with pw := { s.pw with equal := (s.pw.equal.filter fun e => decide (e.2.2 ≠ 2)) ++ now } }
  if k = 0 then s
  else
    let s := (s.addCnt C.PST_NEIGHBOUR_EQ k).cause R.PST_CAUSE F.PST_CAUSE.FORCE_CLIP
    if s.pw.beyond.isEmpty then s.ariseF R.PST_CAUSE F.PST_CAUSE.NEIGHBOUR else s.cause R.PST_CAUSE F.PST_CAUSE.NEIGHBOUR

/-- PST_REG_STATUS of every region follows what acts on it. -/
def State.kRefresh (s : State) : State :=
  let ks := s.kAll
  State.clipNote <| (List.range 37).foldl (fun s r =>
    let a := R.PST_REG_STATUS r
    let v := putFld (s.reg a) F.PST_REG_STATUS.K_EFF (ks.getD r 0)
    let v := putFld v F.PST_REG_STATUS.FORCED (if s.forced r then 1 else 0)
    let v := putFld v F.PST_REG_STATUS.DROOP (if (s.region r).droop ≠ 0 then 1 else 0)
    s.setReg a (putFld v F.PST_REG_STATUS.VSET (s.vset r))) s

/-- A write of PST_REG_CTL[r]. DESIGN CHOICE: a forced ratio written anew begins its clip, and its episode, anew (R513, log entry 173). -/
def State.forceWrite (s : State) (r : Nat) (v : Word) : State :=
  let s := s.setReg (R.PST_REG_CTL r) v
  State.kRefresh { s with pw := { s.pw with equal := s.pw.equal.filter fun e => decide (e.1 ≠ r ∨ e.2.2 ≠ 2) } }

/-- No pair of admitted regions is granted ratios beyond the skip limit: the larger is lowered (R512). -/
def State.grantClip (s : State) : State :=
  let clip := fun (s : State) =>
    let ks := s.kClip ((List.range 37).map s.kGrant)
    (List.range 37).foldl (fun s r => s.setFld (R.PST_REG_STATUS r) F.PST_REG_STATUS.K_GRANT (ks.getD r 0)) s
  clip (clip s)

/-- The region whose power a domain is. -/
def domRegion (d : Nat) : Option Nat :=
  if 64 ≤ d ∧ d < 96 then some (d - 64) else if 96 ≤ d ∧ d < 112 then some 32 else if 128 ≤ d ∧ d < 132 then some (d - 95) else none

/-- A domain is powered. That of a skip region comes beside its neighbours, within the limit of R512. -/
def State.domUp (s : State) (d : Nat) : State :=
  let s := s.setBit (R.PST_DOM_STATUS d) F.PST_DOM_STATUS.ON true
  if (domRegion d).isSome then s.grantClip.kRefresh else s

/-! ### The budget (R491, R492) -/

/-- PST_CAP as it acts. -/
def State.cap (s : State) : Nat := max 1200 (min 7200 (s.fld R.PST_CAP F.PST_CAP.W4))

/-- B in 1/60 of 0.25 W at an input of `mv` millivolts: the cap, or eleven twelfths of L (R491, R492). -/
def State.budget60 (s : State) (mv : Nat) : Nat := min (s.cap * 60) (min 396000 (mv * 11))

/-- The die budget of a B in 1/60 of 0.25 W (Table 18.1); the table gives none outside 6 to 60 V. -/
def dieBudget (mv b60 : Nat) : Option Nat :=
  if mv < 6000 ∨ 60000 < mv then none
  else some ((b60 - 9360) * 100 / (60 * (if 36000 ≤ mv then 111 else if 18000 ≤ mv then 113 else 116)))

/-! ### The Round grant (R499 to R503) -/

def State.leakOf (s : State) (r : Nat) : Nat := SMap.get (fun _ => 0) s.pw.leak r

/-- The demand of region r at k = 0 (R499). -/
def State.d0 (s : State) (r : Nat) : Rat :=
  let lk : Rat := (s.leakOf r : Int)
  let p : Rat := (s.regionUse r : Int)
  lk + (p - lk) * 64 / ((64 - (s.region r).kUse : Nat) : Int)

/-- The halves of Pitch n that are admitted. -/
def State.halvesOf (s : State) (n : Nat) : List Nat :=
  ((s.pipesOf n).flatMap fun p => [p, 16 + p]).filter s.regionOn

/-- The demand of the halves of Pitch n. -/
def State.pitchD0 (s : State) (n : Nat) : Rat := ((s.halvesOf n).map s.d0).sum

/-- A non-exempt Pitch in the allocation: its number, its weight, its demand and what it has. -/
structure Claim where
  n : Nat
  w : Rat
  d : Rat
  g : Rat
  deriving DecidableEq, Repr

/-- Give what is left to Pitches whose demand exceeds their grant, in proportion to their weights, never beyond the
demand, until none is left (R500). -/
def pourOut : Nat → Rat → List Claim → List Claim
  | 0, _, cs => cs
  | k + 1, left, cs =>
    let tot := ((cs.filter fun c => decide (c.g < c.d)).map (·.w)).sum
    if left ≤ 0 ∨ tot = 0 then cs
    else
      let cs' := cs.map fun c => if c.g < c.d then { c with g := min c.d (c.g + left * c.w / tot) } else c
      pourOut k (left - ((cs'.map (·.g)).sum - (cs.map (·.g)).sum)) cs'

/-- A number of 0.25 W rounded down. -/
def floorW (q : Rat) : Nat := q.floor.toNat

/-- The skip ratio of a region with demand d, leakage lk and grant g (R499); where it draws no more than its leakage the
rule gives no ratio below a full grant, and the free value `w` stands. -/
def kOf (g d lk : Rat) (w : Nat) : Nat :=
  if d ≤ g then 0 else if d ≤ lk then w % 64 else min 63 (64 * (d - g) / (d - lk)).ceil.toNat

/-- The regions that share PST_SHARED: the traffic manager region unless it is exempt, then the Ostler clusters. -/
def State.sharedRegions (s : State) : List Nat := ((if s.exemptAny then [] else [32]) ++ [33, 34, 35, 36]).filter s.regionOn

/-- Grants of the shared regions in order, out of `left`. -/
def State.shareOut (s : State) : Rat → List Nat → List (Nat × Rat)
  | _, [] => []
  | left, r :: rs =>
    let g := min left (s.d0 r)
    (r, g) :: s.shareOut (left - g) rs

/-- What stays of the die budget for the Pitches' halves before exempt Pitches are served (R500). -/
def State.availFixed (s : State) (die : Nat) : Rat :=
  let fixed := s.pw.unsw + ((([134, 135, 132, 133] ++ (List.range 8).map (136 + ·)).map s.domUse).sum) +
    (((List.range 64).filter s.domOn).map s.domUse).sum + (((List.range 16).filter fun p => s.domOn (112 + p)).map fun p => s.domUse (112 + p)).sum
  ((die : Int) - (fixed : Int) : Int)

/-- The Postilion's allocation of a die budget: the grants of the regions, the grants of the Pitches, whether shares were
scaled, whether the exempt Pitches leave too little and whether their need is unmet (R500, R503). -/
structure Plan where
  reg : List (Nat × Rat)
  pit : List (Nat × Rat)
  scaled : Bool
  short : Bool
  unmet : Bool

/-- What the claims `cs` leave of the budget, which is `left` beyond what they have, goes to them by their shares, and what is left then by
free weights, where no share is left (R500). -/
def State.pourAll (s : State) (left : Rat) (cs : List Claim) : List Claim × State :=
  let base := (cs.map (·.g)).sum
  let cs := pourOut 17 left cs
  let rest := left + base - (cs.map (·.g)).sum
  let (w, s') := s.freeWord
  if 0 < rest ∧ cs.any fun c => decide (c.g < c.d) then
    (pourOut 17 rest (cs.map fun c => { c with w := ((w / (c.n + 1) % 1000 + 1 : Nat) : Int) }), s')
  else (cs, s)

/-- The power of region r at skip ratio k (R499). -/
def State.dAt (s : State) (r k : Nat) : Rat :=
  ((s.leakOf r : Int) : Rat) + (s.d0 r - (s.leakOf r : Int)) * ((64 - k : Nat) : Int) / 64

/-- The Postilion's allocation (R500). Where the exempt Pitches leave too little for the others at the largest ratio of R512, which is 32
beside an exempt region, every other region takes that ratio, the Ostler clusters too, and the need is unmet if that does not suffice
(R503). -/
def State.plan (s : State) (die : Nat) : Plan × State :=
  let pits := ((List.range 16).map (· + 1)).filter fun n => s.pitchExists n && !s.inReset n
  let ex := pits.filter s.exempt
  let non := pits.filter fun n => !s.exempt n
  let avail0 := s.availFixed die - (ex.map s.pitchD0).sum - (if s.exemptAny ∧ s.regionOn 32 then s.d0 32 else 0)
  let shared := s.shareOut (max 0 (min ((s.fld R.PST_SHARED F.PST_SHARED.W4 : Int) : Rat) avail0)) s.sharedRegions
  let avail := avail0 - (shared.map (·.2)).sum
  let hs := (non.flatMap s.halvesOf).map fun r => (r, s.dAt r 32)
  let os := s.sharedRegions.map fun r => (r, s.dAt r 32)
  let need := (hs.map (·.2)).sum
  let short := s.exemptAny && decide (avail < need)
  let exG := ex.map fun n => (n, s.pitchD0 n)
  let tm := if s.exemptAny ∧ s.regionOn 32 then [((32 : Nat), s.d0 32)] else []
  if short then
    let pit := non.map fun n => (n, ((hs.filter fun h => (s.halvesOf n).contains h.1).map (·.2)).sum)
    ({ reg := tm ++ os ++ (ex.flatMap s.halvesOf).map (fun r => (r, s.d0 r)) ++ hs, pit := exG ++ pit,
       scaled := false, short := true, unmet := decide (avail0 < need + (os.map (·.2)).sum) }, s)
  else
    let base := non.map fun n =>
      let d := s.pitchD0 n
      let sh : Rat := ((s.fld (R.PST_PIT_SHARE n) F.PST_PIT_SHARE.W4 : Int) : Rat)
      ({ n := n, w := sh, d := d, g := min sh d } : Claim)
    let sum := (base.map (·.g)).sum
    let scaled := decide (avail < sum)
    let base := if scaled then base.map fun c => { c with g := c.g * max 0 avail / sum } else base
    let (cs, s') := if scaled then (base, s) else s.pourAll (avail - sum) base
    let pit := exG ++ cs.map fun c => (c.n, c.g)
    let halves := pit.flatMap fun e =>
      let g : Rat := ((floorW e.2 : Int) : Rat)
      let d := s.pitchD0 e.1
      (s.halvesOf e.1).map fun r => (r, if s.exempt e.1 ∨ d ≤ e.2 then s.d0 r else if d = 0 then 0 else g * s.d0 r / d)
    ({ reg := tm ++ shared ++ halves, pit := pit, scaled := scaled, short := false, unmet := false }, s')

/-- Grants and the skip ratios they imply are applied (R499 to R503, duty 1 of R34). What is not in the plan takes none (R497). -/
def State.applyPlan (s : State) (pl : Plan) : State :=
  let s := ((List.range 37).filter fun r => !(pl.reg.any fun e => e.1 == r)).foldl (fun s r => s.noGrant r) s
  let s := (((List.range 16).map (· + 1)).filter fun n => !(pl.pit.any fun e => e.1 == n)).foldl
    (fun s n => s.setReg (R.PST_PIT_GRANT n) 0) s
  let s := pl.reg.foldl (fun s e =>
    let r := e.1
    let d := s.d0 r
    let g : Rat := if d ≤ e.2 then d else ((floorW e.2 : Int) : Rat)
    let lk : Rat := (s.leakOf r : Int)
    let (w, s') := if g < d ∧ d ≤ lk then s.freeWord else (0, s)
    let s := s'.setReg (R.PST_REG_GRANT r) (BitVec.ofNat 32 (floorW e.2 % 65536))
    s.setFld (R.PST_REG_STATUS r) F.PST_REG_STATUS.K_GRANT (if s.regionExempt r then 0 else kOf g d lk w)) s
  let s := s.grantClip
  let s := pl.pit.foldl (fun s e =>
    let km := ((s.halvesOf e.1).map s.kGrant).foldl max 0
    s.setReg (R.PST_PIT_GRANT e.1) (BitVec.ofNat 32 (km * 2 ^ 24 + floorW e.2 % 65536))) s
  let s := if pl.scaled then s.cause R.PST_CAUSE F.PST_CAUSE.SHARE_SCALED else s
  s.kRefresh

/-- The neighbour rule finds the hotter region of a pair exempt (R513). -/
def State.hotExempt (s : State) : Bool := s.pw.beyond.any fun e => decide (e.2.2 = 1) && s.regionExempt e.1

/-- The need of the exempt Pitches is unmet, or stays unmet for a hot exempt region (R503, R513). -/
def State.unmetNow (s : State) : Bool := s.pw.unmet || s.hotExempt

/-- EXEMPT_UNMET follows a change from `before`: it persists from when the need is first unmet. -/
def State.unmetRise (s before : State) : State :=
  if s.unmetNow && !before.unmetNow then s.ariseF R.PST_CAUSE F.PST_CAUSE.EXEMPT_UNMET else s

/-- Lane group g is idle: no port of the group is enabled and no lane of it has RX_ON (R505). -/
def State.lgIdle (s : State) (g : Nat) : Bool :=
  !s.groupHasEnabled g && !((List.range 16).any fun i => s.rxOn (16 * g + i))

/-- The receivers of a group that is turned off are off. -/
def State.lgOff (s : State) (g : Nat) : State :=
  let fwd := s.bit (R.LG_STATUS g) F.LG_STATUS.FWD_LOCK
  let s := s.domDown g
  let s := (List.range 16).foldl (fun s i => (s.rxOff (16 * g + i)).showLane (16 * g + i)) s
  (if fwd then s.ariseF (R.LG_CAUSE g) F.LG_CAUSE.FWD_LOL else s).synceCheck

/-- The idle policy (R505): a group that calibrates finishes first (R547). -/
def State.idlePolicy (s : State) : State :=
  (List.range 64).foldl (fun s g => if s.domOn g && s.lgReady g && s.lgIdle g then s.lgOff g else s) s

/-- Compute and apply the grants of a budget at an input of `mv` millivolts (R492, R500). Where the exempt Pitches leave too little, idle lane
groups are turned off first (R503). -/
def State.regrant (s : State) (mv : Nat) : State :=
  let before := s
  let b60 := s.budget60 mv
  let (w, s) := match dieBudget mv b60 with
    | some d => (d, s)
    | none => s.freeWord
  let die := w % 65536
  let s := s.setReg R.PST_BUDGET (BitVec.ofNat 32 (b60 / 60 * 2 ^ 16 + die))
  let s := if (s.plan die).1.short then s.idlePolicy else s
  let (pl, s) := s.plan die
  let s := s.applyPlan pl
  let s := { s with pw := { s.pw with unmet := pl.unmet, b60 := b60 } }
  s.unmetRise before

/-- What was measured by the boundary: powers, leakage and the input (R492, R499). -/
def State.takeMeasures (s : State) (o : RoundObs) : State :=
  let s := s.setReg R.PST_VIN (BitVec.ofNat 32 (o.vin % 65536))
  let s := s.setReg R.PST_PIN (BitVec.ofNat 32 (o.ppeak % 65536 * 2 ^ 16 + o.pavg % 65536))
  let s := o.use.foldl (fun s e => if e.1 < 144 then s.setFld (R.PST_DOM_STATUS e.1) F.PST_DOM_STATUS.USE e.2 else s) s
  let lk := o.leak.foldl (fun m e => SMap.put (fun _ => 0) m e.1 e.2) s.pw.leak
  let s := { s with pw := { s.pw with leak := lk, unsw := o.unswitched } }
  let s := (List.range 37).foldl (fun s r => s.setRegion r { s.region r with kUse := s.kEff r }) s
  ((List.range 16).map (· + 1)).foldl (fun s n =>
    let ds := (s.pipesOf n).flatMap fun p => pipeDoms p ++ (List.range 4).map (4 * p + ·)
    s.setReg (R.PST_PIT_USE n) (BitVec.ofNat 32 (min 65535 (ds.map s.domUse).sum))) s

/-- The hotter regions of pairs that are being brought together in temperature rise by 8; one that is exempt skips nothing (R513). -/
def State.nbRound (s : State) : State :=
  let hot := (List.range 37).filter fun r => s.pw.equal.any fun e => decide (e.1 = r ∧ e.2.2 = 1)
  hot.foldl (fun s r => if s.regionExempt r then s else s.setRegion r { s.region r with nb := min 63 ((s.region r).nb + 8) }) s

/-- Duty 1 of a Round boundary (R34): the idle policy, and unless the Postilion has not computed them (R516), the neighbour rule's raises, the
measures and the grants. The marks of exemption have been applied, and the set points follow them (R508). -/
def State.grantRound (s : State) (o : RoundObs) : State :=
  let s := s.idlePolicy
  let first := !s.pw.postil
  let s := { s with pw := { s.pw with postil := !o.granted } }
  if !o.granted then
    (if first then s.ariseF R.PST_CAUSE F.PST_CAUSE.POSTILION else s.cause R.PST_CAUSE F.PST_CAUSE.POSTILION).kRefresh
  else (s.nbRound.takeMeasures o).regrant o.vin

/-! ### Between Rounds (R493, R506, R509, R513, R515) -/

/-- A sampled input of `mv` millivolts lowers L × 11 / 12 below the budget behind the grants in force: they are re-granted (R493), unless the
Postilion has missed its boundary (Table 2.6). -/
def State.inputDrop (s : State) (mv : Nat) : State :=
  if min 396000 (mv * 11) < s.pw.b60 && !s.pw.postil then
    ((s.regrant mv).addCnt C.PST_INPUT_DROP 1).cause R.PST_CAUSE F.PST_CAUSE.INPUT_DROP
  else s

/-- PST_DROOP_CTL.K as it acts. -/
def State.droopK (s : State) : Nat := max 8 (s.fld R.PST_DROOP_CTL F.PST_DROOP_CTL.K)

/-- PST_DROOP_CTL.THR as it acts, in steps of 2.5 mV. -/
def State.droopThr (s : State) : Nat := max 8 (min 32 (s.fld R.PST_DROOP_CTL F.PST_DROOP_CTL.THR))

/-- The voltage of region r stands `dip` steps of 2.5 mV below its set point: its droop detector trips beyond the threshold (R506). -/
def State.droopTrip (s : State) (r dip : Nat) : State :=
  if 37 ≤ r ∨ dip ≤ s.droopThr then s
  else
    let s := s.setRegion r { s.region r with droop := max (s.kPower r) s.droopK }
    (s.kRefresh.addCnt C.PST_DROOP_EVENTS 1).cause R.PST_CAUSE F.PST_CAUSE.DROOP

/-- The added skip of region r falls by 8 (R506). -/
def State.droopRecover (s : State) (r : Nat) : State :=
  let q := s.region r
  if q.droop = 0 then s
  else
    let d := q.droop - 8
    (s.setRegion r { q with droop := if d ≤ s.kPower r then 0 else d }).kRefresh

/-- The path monitor of region r reports low margin (R509). -/
def State.marginLow (s : State) (r : Nat) : State :=
  if 37 ≤ r then s
  else ((s.setRegion r { s.region r with margin := true }).kRefresh).cause R.PST_CAUSE F.PST_CAUSE.MARGIN

/-- The thermal thresholds as they act, in 0.25 °C. -/
def State.thermLimit (s : State) : Int := (min 105 (s.fld R.PST_THERM_THR F.PST_THERM_THR.LIMIT) * 4 : Nat)
def State.thermWarn (s : State) : Int :=
  min s.thermLimit ((s.fld R.PST_THERM_THR F.PST_THERM_THR.WARN * 4 : Nat) : Int)

/-- The reading of sensor x in 0.25 °C, once it has been sampled. -/
def State.sensor (s : State) (x : Nat) : Option Int :=
  if s.bit (R.PST_SENSOR x) F.PST_SENSOR.VALID then some (sext 16 (s.fld (R.PST_SENSOR x) F.PST_SENSOR.TEMP)) else none

/-- Some sensor reads at or above WARN. -/
def State.warm (s : State) : Bool := (List.range 64).any fun x => (s.sensor x).any fun t => decide (s.thermWarn ≤ t)

/-- A region or a chiplet is held by the thermal limit: a sensor of either stands at it, or the ratio of a region is still raised. -/
def State.thermHeld (s : State) : Bool :=
  ((List.range 37).any fun r => decide ((s.region r).therm ≠ 0)) ||
  (((List.range 37) ++ (List.range 24).map (40 + ·)).any fun x => (s.sensor x).any fun t => decide (s.thermLimit ≤ t))

/-- The lane groups over which chiplet sensor x lies (Table 18.7). -/
def sensorGroups (x : Nat) : List Nat :=
  let c := (x - 40) / 3
  let i := (x - 40) % 3
  (List.range (if i = 2 then 2 else 3)).map (8 * c + 3 * i + ·)

/-- THERM_WARN and THERM_LIMIT follow a change from `before`. -/
def State.thermRise (s before : State) : State :=
  let s := if s.warm && !before.warm then s.ariseF R.PST_CAUSE F.PST_CAUSE.THERM_WARN else s
  if s.thermHeld && !before.thermHeld then s.ariseF R.PST_CAUSE F.PST_CAUSE.THERM_LIMIT else s

/-- The thermal limit adds to the ratio of region r no more than acts, up to 63 and under R512, so that it falls from there (R515). -/
def State.thermTrim (s : State) (ks : List Nat) (r : Nat) : State :=
  let q := s.region r
  let t := min q.therm (ks.getD r 0 - s.kBase r)
  if q.therm = t then s else s.setRegion r { q with therm := t }

/-- A pair goes beyond a limit: NEIGHBOUR persists while it stays there, and the pair is brought together. DESIGN CHOICE: an episode lasts until
that ends, so a pair that comes back beyond its limit before then does not count again (R513, log entry 173). -/
def State.beyondStart (s : State) (e : Nat × Nat × Nat) : State :=
  let first := s.pw.beyond.isEmpty
  let known := s.pw.equal.contains e
  let s := { s with pw := { s.pw with beyond := s.pw.beyond ++ [e], equal := if known then s.pw.equal else s.pw.equal ++ [e] } }
  let s := if known then s else s.addCnt C.PST_NEIGHBOUR_EQ 1
  if first then s.ariseF R.PST_CAUSE F.PST_CAUSE.NEIGHBOUR else s.cause R.PST_CAUSE F.PST_CAUSE.NEIGHBOUR

/-- An episode ends; the raise that the temperature of region a made ends with its last pair (R513). -/
def State.equalEnd (s : State) (e : Nat × Nat × Nat) : State :=
  let s := { s with pw := { s.pw with equal := s.pw.equal.erase e } }
  if e.2.2 = 1 && !s.pw.equal.any fun x => decide (x.1 = e.1 ∧ x.2.2 = 1) then s.setRegion e.1 { s.region e.1 with nb := 0 } else s

/-- The pair e is found beyond its limit (`far`) or not, and near enough to be left alone (`close`) or not (R512, R513). -/
def State.pairFound (s : State) (e : Nat × Nat × Nat) (far close : Bool) : State :=
  let s :=
    if far then (if s.pw.beyond.contains e then s else s.beyondStart e)
    else if s.pw.beyond.contains e then { s with pw := { s.pw with beyond := s.pw.beyond.erase e } } else s
  if close && s.pw.equal.contains e then s.equalEnd e else s

/-- The sensors of the pair (a, b), a the hotter: the limit is 30 °C, and the pair is left alone within 25 °C (R512, R513). -/
def State.tempPair (s : State) (a b : Nat) : State :=
  match s.sensor a, s.sensor b with
  | some x, some y => s.pairFound (a, b, 1) (decide (120 < x - y)) (decide (x - y ≤ 100))
  | _, _ => s

/-- Every 10 µs: the sensors are sampled, and the thermal limit and the neighbour rule judge them (R512 to R515). -/
def State.thermalSample (s : State) (ts : List (Nat × Int)) : State :=
  let before := s
  let s := ts.foldl (fun s e => if e.1 < 64 then s.setReg (R.PST_SENSOR e.1) (BitVec.ofNat 32 (2 ^ 31 + trunc 16 e.2)) else s) s
  let s := (List.range 37).foldl (fun s r =>
    match s.sensor r with
    | none => s
    | some t =>
      let q := s.region r
      if s.thermLimit ≤ t then s.setRegion r { q with therm := min 63 (q.therm + 4) }
      else if t ≤ s.thermLimit - 12 then s.setRegion r { q with therm := q.therm - 4 }
      else s) s
  let s := (List.range 24).foldl (fun s i =>
    if (s.sensor (40 + i)).any fun t => decide (s.thermLimit ≤ t) then
      (sensorGroups (40 + i)).foldl (fun s g => if s.domOn g && !s.groupHasEnabled g then s.lgOff g else s) s
    else s) s
  let s := (List.range 37).foldl (fun s r => s.thermTrim s.kClipped r) s
  let s := (List.range 37).foldl (fun s a => (neighbours a).foldl (fun s b => s.tempPair a b) s) s
  (s.kRefresh.thermRise before).unmetRise before

/-- A step of the equalisation of pair (a, b) in quantity q: 0 voltage, where a has the lower set point and the monitors differ by `diff`
mV; 1 temperature, which the sensors of the pair give; 2 skip ratio, whose clip the refresh of the ratios makes and notes. The limit of the
voltage is 60 mV, and until the pair lies within 50 mV each step, one each 10 µs, raises the set point by 2.5 mV (R512, R513). -/
def State.neighbourEq (s : State) (a b q diff : Nat) : State :=
  let e := (a, b, 0)
  if !(neighbours a).contains b || decide (37 ≤ a ∨ 2 < q) then s
  else if q = 2 then s.kRefresh
  else if q = 1 then (s.tempPair a b).kRefresh.unmetRise s
  else
    let s := s.pairFound e (decide (60 < diff)) (decide (diff ≤ 50))
    if s.pw.equal.contains e then (s.setRegion a { s.region a with vraise := (s.region a).vraise + 1 }).kRefresh else s

/-! ### Lane groups (R504, R547) -/

/-- Group g is due for admission behind a bridge that is powered (R18, R547). -/
def State.lgDue (s : State) (g : Nat) : Bool :=
  decide (g < 64) && !s.domOn g && !s.domFail g && !s.lgIdle g && !s.pipeHeld (g / 4) && !s.pipeFused (g / 4) &&
    s.domOn (136 + g / 8) && !s.domFail (136 + g / 8)

/-- What the dies draw under the grants in force, in 1/100 of 0.25 W, a group not yet measured at its full power. -/
def State.inForce (s : State) : Nat :=
  let fixed := s.pw.unsw + ((([134, 135, 132, 133] ++ (List.range 8).map (136 + ·)).map s.domUse).sum) +
    (((List.range 16).filter fun p => s.domOn (112 + p)).map fun p => s.domUse (112 + p)).sum
  let grants := (((List.range 37).filter s.regionOn).map fun r => s.fld (R.PST_REG_GRANT r) F.PST_REG_GRANT.VALUE).sum
  let lgs := (((List.range 64).filter s.domOn).map fun g => if s.domUse g = 0 then 4352 else s.domUse g * 100).sum
  (fixed + grants) * 100 + lgs

/-- The full power of one more lane group, 10.88 W, fits in the die budget (R504). -/
def State.lgFits (s : State) : Bool := decide (s.inForce + 4352 ≤ s.fld R.PST_BUDGET F.PST_BUDGET.DIE * 100)

/-- Some group waits because its power does not fit. -/
def State.lgWaits (s : State) : Bool := ((List.range 64).any s.lgDue) && !s.lgFits

/-- Groups that calibrate now. -/
def State.lgCal (s : State) : Nat := ((List.range 64).filter fun g => s.domOn g && !s.lgReady g).length

/-- Group g comes to its turn: it is admitted, or waits for power (R504, R547). DESIGN CHOICE: admission and the recovery of the rails take
a free time within the 0.5 ms that R547 allows (log entry 161). -/
def State.lgAdmit (s : State) (g : Nat) : State :=
  if !s.lgDue g || ((List.range g).any s.lgDue) || decide (8 ≤ s.lgCal ∨ s.t16 < s.pw.lgRail) ||
      decide (s.fld R.DEV_BOOT_STATUS F.DEV_BOOT_STATUS.STAGE ≠ 9) then s
  else if !s.lgFits then
    if s.pw.lgWait then s.cause R.PST_CAUSE F.PST_CAUSE.LG_DEFER
    else { s with pw := { s.pw with lgWait := true } }.ariseF R.PST_CAUSE F.PST_CAUSE.LG_DEFER
  else
    let (w, s) := s.freeWord
    { s with pw := { s.pw with lgWait := false, lgRail := s.t16 + 1 + w % 8000000 } }.domUp g

/-- No lane group waits for power any more (R504). -/
def State.lgWaitEnd (s : State) : State :=
  if s.pw.lgWait && !s.lgWaits then { s with pw := { s.pw with lgWait := false } } else s

end Sys2Proof.Machine
end

