-- ==== Sys2Proof/Machine/PortCtl.lean ====
section
/-! DEFINITION. The life of a port and of its lanes (chapters "SerDes Lanes" and "Ports, MACs and Line Modes"): LINK_UP,
enable and disable, formation changes, port and lane reset, and what is seen at the receive lands. -/

namespace Sys2Proof.Machine

/-! ### LINK_UP (R119, R120, R130, R134) -/

/-- LINK_UP of port n falls: its queues are not served, it is not live, and control frames in line are not sent. -/
def State.linkFall (s : State) (n : Nat) : State :=
  if !s.linkUp n then s
  else
    let s := (s.setBit (R.PORT_STATUS n) F.PORT_STATUS.LINK_UP false).setLive n false
    let s := ((s.setPtm n { s.ptm n with ctl := [], ctlLine := [] }).stallEvals n).linePort n
    s.ariseF (R.PORT_CAUSE n) F.PORT_CAUSE.LINK_DOWN

/-- LINK_UP of port n rises: DOWN_DROP ends (R322), and with an UP_HOLD of 0 the port is live at once (R297). -/
def State.linkRise (s : State) (n : Nat) : State :=
  let s := s.setBit (R.PORT_STATUS n) F.PORT_STATUS.LINK_UP true
  let s := s.setBit (R.TM_PORT_STATUS n) F.TM_PORT_STATUS.DOWN_DROP false
  let s := if s.fld (R.TM_PORT_CTL n) F.TM_PORT_CTL.UP_HOLD = 0 then s.setLive n true else s
  (s.stallEvals n).linePort n

/-- The link of port n is lost; an Onazel port in data returns to step 1 of its training (R120, R130). -/
def State.linkLost (s : State) (n : Nat) : State :=
  let s := s.linkFall n
  if s.mode n = 4 ∧ s.onzState n = 6 then
    let s := s.onzSeek n
    (s.setPort n { s.port n with due := s.t16 * 425 }).linePort n
  else s.linePort n

/-- The receive path of port n is judged: LINK_UP rises where every condition of R119 or R134 holds, and falls where the path has no lock
(R120, R134). -/
def State.linkTry (s : State) (n : Nat) : State :=
  if s.mode n = 4 then s.linePort n
  else if s.linkReady n && !s.linkUp n then s.linkRise n
  else if s.linkUp n && !s.rxPathUp n then s.linkLost n
  else s.linePort n

/-! ### Lock (R81 to R83) -/

/-- A receiver loses clock-and-data lock: LOL starts, and the link of the lane's port is lost. -/
def State.lockLost (s : State) (l : Nat) : State :=
  if !s.cdrLock l then s
  else
    let st := laneReg R.LG_LN_STATUS l
    let s := (s.setBit st F.LG_LN_STATUS.CDR_LOCK false).setBit st F.LG_LN_STATUS.ADAPT_DONE false
    let s := (s.setLane l { s.lane l with whole := false, step := none }).laneArise l F.LG_LN_CAUSE.LOL
    let s := match s.portOfLane l with
      | some n => (s.pcsDown n).linkLost n
      | none => s
    s.synceCheck

/-- The input of a powered receiver falls below 50 mV. In near-end and parallel loopback the receive lands are ignored (R99). -/
def State.signalLoss (s : State) (l : Nat) : State :=
  if !s.rxPowered l || s.los l || s.landsOff l then s
  else
    let s := (s.setBit (laneReg R.LG_LN_STATUS l) F.LG_LN_STATUS.LOS true).laneArise l F.LG_LN_CAUSE.LOS
    let s := match s.portOfLane l with
      | some n => (s.pcsDown n).linkLost n
      | none => s
    s.synceCheck

/-- A powered receiver detects a signal. -/
def State.signalReturn (s : State) (l : Nat) : State :=
  if !s.rxPowered l then s
  else (s.setBit (laneReg R.LG_LN_STATUS l) F.LG_LN_STATUS.LOS false).synceCheck

/-- The lane's receiver is held: its port is in the timeline of R93 or in a port reset. -/
def State.rxHeld (s : State) (l : Nat) : Bool :=
  (s.portOfLane l).any fun n => (s.port n).timeline || (s.port n).inPortReset

def State.fwdLock (s : State) (g : Nat) : Bool := s.bit (R.LG_STATUS g) F.LG_STATUS.FWD_LOCK

/-- A data lane of a forwarded-clock group trains its deskew delay at each lock: some figure within ±2 UI, in 1/32 UI (R83). -/
def State.deskewTrain (s : State) (l : Nat) : State :=
  if s.bit (R.LG_CTL (l / 16)) F.LG_CTL.FWD_EN && !s.fwd15 l then
    let (w, s) := s.freeWord
    s.setLane l { s.lane l with deskew := (w % 129 : Nat) - 64 }
  else s

/-- A powered receiver with a signal locks; a data lane of a forwarded-clock group samples with the forwarded clock and so
needs FWD_LOCK. -/
def State.cdrLocks (s : State) (l : Nat) : State :=
  if !s.rxPowered l || s.los l || s.rxHeld l || !s.pllOk 4 ||
      (s.bit (R.LG_CTL (l / 16)) F.LG_CTL.FWD_EN && !s.fwd15 l && !s.fwdLock (l / 16)) then s
  else ((s.setBit (laneReg R.LG_LN_STATUS l) F.LG_LN_STATUS.CDR_LOCK true).deskewTrain l).synceCheck

/-- Initial adaptation of a locked lane completes with these settings; FREEZE holds every setting (R82, R86). -/
def State.adapted (s : State) (l ctle : Nat) (taps : List Nat) : State :=
  if !s.cdrLock l || s.adaptDone l then s
  else
    let s := if s.bit (laneReg R.LG_LN_RXEQ l) F.LG_LN_RXEQ.FREEZE then s
      else (List.range 13).foldl (fun s k => s.setRxSetting l k (if k = 12 then ctle else taps.getD k 0)) s
    let s := s.setBit (laneReg R.LG_LN_STATUS l) F.LG_LN_STATUS.ADAPT_DONE true
    if s.mode l = 4 then s.onzTryReady l else s

/-- The forwarded clock on lane 15 of group g loses lock: so do the data lanes (R83). -/
def State.fwdLoss (s : State) (g : Nat) : State :=
  if !s.fwdLock g then s
  else
    let s := (s.setBit (R.LG_STATUS g) F.LG_STATUS.FWD_LOCK false).ariseF (R.LG_CAUSE g) F.LG_CAUSE.FWD_LOL
    (List.range 15).foldl (fun s i => s.lockLost (16 * g + i)) s

/-- The receiver of a lane goes off; with lane 15 of a forwarded-clock group FWD_LOCK falls (R81, R83). -/
def State.rxDown (s : State) (l : Nat) : State :=
  let s := s.rxOff l
  if s.fwd15 l then s.fwdLoss (l / 16) else s

/-- The clock lane of group g goes off with the last receiver of its group (R81, R83). -/
def State.fwdOff (s : State) (g : Nat) : State :=
  let l := 16 * g + 15
  if s.fwd15 l && !s.rxPowered l then s.rxDown l else s

/-- The receiver of lane 15 locks to the forwarded clock. -/
def State.fwdLocks (s : State) (g : Nat) : State :=
  if s.bit (R.LG_CTL g) F.LG_CTL.FWD_EN && s.rxPowered (16 * g + 15) && s.pllOk 4 then
    s.setBit (R.LG_STATUS g) F.LG_STATUS.FWD_LOCK true
  else s

/-- The transmit PLL of group g loses lock, or regains it (R521). -/
def State.txPllLoss (s : State) (g : Nat) : State :=
  if !s.bit (R.LG_STATUS g) F.LG_STATUS.PLL_LOCK then s
  else (s.setBit (R.LG_STATUS g) F.LG_STATUS.PLL_LOCK false).ariseF (R.LG_CAUSE g) F.LG_CAUSE.PLL_LOL
def State.txPllLock (s : State) (g : Nat) : State :=
  if s.lgReady g then s.setBit (R.LG_STATUS g) F.LG_STATUS.PLL_LOCK true else s

/-! ### Starting and stopping a port -/

/-- A MODE 5 port of a group whose FWD_RATE is 2 or 3 cannot be enabled. -/
def State.badFwdRate (s : State) (n : Nat) : Bool :=
  decide (s.mode n = 5) && decide (2 ≤ s.fld (R.LG_CTL (n / 16)) F.LG_CTL.FWD_RATE)

/-- The link logic of port n is as before its first enable. -/
def State.linkClear (s : State) (n : Nat) : State :=
  let a := R.PORT_STATUS n
  let s := (s.setBit a F.PORT_STATUS.RX_LF false).setBit a F.PORT_STATUS.RX_RF false
  let s := (s.setBit a F.PORT_STATUS.AN_DONE false).setBit a F.PORT_STATUS.TRAIN_DONE false
  let s := (s.setFld a F.PORT_STATUS.ONZ_STATE 0).setFld a F.PORT_STATUS.ONZ_ROLE 0
  s.setPort n { s.port n with
    anWait := false, onz := {}, alignGood := 0, alignBad := 0, aligned := false, order := [], locked := false, pcsLock := false,
    fecLock := false, loopRx := [], due := s.t16 * 425, blk := 0, sent := s.t16 * 425, fwdQ := [], gap := 12 }

def State.showLanes (s : State) (ls : List Nat) : State := ls.foldl (fun s l => s.showLane l) s

/-- The outputs of port n leave squelch, if nothing holds them, and its link logic starts; `load` says that its tap sets are
loaded (R85, R91, R128). DEDUCED: an Onazel port sends one idle marker as it leaves squelch, and then its training blocks (R91, R128, log
entry 156). -/
def State.portStart (s : State) (n : Nat) (load : Bool) : State :=
  if !s.portDrives n || s.badFwdRate n then s
  else
    let s := if load then (s.lanesOf n).foldl (fun s l => s.loadFir l) s else s
    let s := s.linkClear n
    let s := if s.mode n = 4 then s.onzSeek n else s
    let s := (s.showLanes (s.lanesOf n ++ [16 * (n / 16) + 15])).synceCheck
    if s.mode n = 4 then s.onzSendIdle n else s

/-- Port n has just been enabled: a loss of signal then standing on a lane starts its cause (R81), and the port starts. -/
def State.portEnable (s : State) (n : Nat) : State :=
  if !s.formed n then s
  else ((s.lanesOf n).foldl (fun s l => if s.los l then s.laneArise l F.LG_LN_CAUSE.LOS else s) s).portStart n true

/-- What ends with every stop of port n: the frames being sent are cut, the queues are flushed with code 0xF2, LINK_UP falls, and
pause and a calibration end (R92, R115, R323, Table 13.3). -/
def State.portEnd (s : State) (n : Nat) : State :=
  let s := ((s.txCut n).linkFall n).flushPort n 0xF2
  ((s.tmPortEnd n).pauseRelease n).calAbort n

/-- Port n is disabled: EN clears, its receivers go off unless RX_ON holds them on, its outputs squelch (R92). -/
def State.portDisable (s : State) (n : Nat) : State :=
  if !s.formed n then s.setBit (R.PORT_CTL n) F.PORT_CTL.EN false
  else
    let s := (s.portEnd n).setLive n false
    let s := (s.setBit (R.PORT_CTL n) F.PORT_CTL.EN false).linkClear n
    let s := s.setPort n { s.port n with inPortReset := false }
    let s := s.setBit (R.PORT_RST n) F.PORT_RST.GO false
    let s := ((s.lanesOf n).foldl (fun s l => if s.rxOn l then s else s.rxOff l) s).fwdOff (n / 16)
    ((s.showLanes (s.lanesOf n ++ [16 * (n / 16) + 15])).stallEvals n).synceCheck

/-- Port n may be enabled (R105): its Pitch is not in reset, its pipeline has a structure image and no failed domain. -/
def State.enAllowed (s : State) (n : Nat) : Bool :=
  let p := pipeOfPort n
  !s.inReset (s.ownerOfPipe p) && (s.pipe p).img.isSome && !s.pipeFailed p && !s.badFwdRate n

/-- A write of PORT_CTL[n] (R43, R105, R111, R535). FC_MODE and MAXLEN are idle while the port stays disabled through the
write, or is not formed. Of a write whose enable is ignored the other fields are stored all the same, which the manual does not say
(log entry 127). -/
def State.portCtlWrite (s : State) (n : Nat) (v : Word) : State :=
  let a := R.PORT_CTL n
  let on := s.bit a F.PORT_CTL.EN
  let ask := decide (fldOf v F.PORT_CTL.EN = 1)
  let own := s.ownerOfPort n
  let refuse := ask && !on && (decide (own = 0) || !s.enAllowed n)
  let s := if !refuse then s
    else if own = 0 then s.cause (R.IRQ_OWN_CAUSE 0) F.IRQ_OWN_CAUSE.IDLE_VIOL
    else s.cause (R.PORT_CAUSE n) F.PORT_CAUSE.CFG
  let en := ask && !refuse
  let idle := !s.formed n || (!on && !en)
  let old := s.reg a
  let put := fun (s : State) (f : Fld) =>
    if fldOf v f = fldOf old f then s
    else if idle then s.setFld a f (fldOf v f)
    else s.cause (R.PORT_CAUSE n) F.PORT_CAUSE.CFG
  let s := put (put s F.PORT_CTL.FC_MODE) F.PORT_CTL.MAXLEN
  let s := if s.fcMode n = 3 ∧ fldOf old F.PORT_CTL.FC_MODE ≠ 3 then s.cause (R.PORT_CAUSE n) F.PORT_CAUSE.CFG else s
  let s := if s.fcMode n = fldOf old F.PORT_CTL.FC_MODE then s else (s.fcEval n).stallEvals n
  if en && !on then (s.setBit a F.PORT_CTL.EN true).portEnable n
  else if on && !ask then s.portDisable n
  else s

/-- A write of PORT_PFC_MAP[n][p]: refused where another enabled priority maps the class already (R113). -/
def State.pfcMapWrite (s : State) (n p : Nat) (v : Word) : State :=
  let a := R.PORT_PFC_MAP n p
  let en := fldOf v F.PORT_PFC_MAP.EN
  let c := fldOf v F.PORT_PFC_MAP.CLASS
  if en = s.fld a F.PORT_PFC_MAP.EN ∧ c = s.fld a F.PORT_PFC_MAP.CLASS then s
  else if s.portEnabled n || (decide (en = 1) && (List.range 8).any fun q => decide (q ≠ p) && decide (s.pfcClass n q = some c)) then
    s.cause (R.PORT_CAUSE n) F.PORT_CAUSE.CFG
  else (((s.setFld a F.PORT_PFC_MAP.EN en).setFld a F.PORT_PFC_MAP.CLASS c).fcEval n).stallEvals n

/-! ### Formation changes (R93 to R95, R101, R103, R637) -/

/-- Two formations are the same; one that forms no port has no other field. -/
def Formation.same (a b : Formation) : Bool := decide (a.width = b.width) && (decide (a.width = 0) || decide (a = b))

/-- A formation takes effect on port n. -/
def State.setFormation (s : State) (n : Nat) (f : Formation) : State :=
  let s := s.setFld (R.PORT_STATUS n) F.PORT_STATUS.WIDTH_APPLIED f.width
  (s.setFld (R.PORT_STATUS n) F.PORT_STATUS.MODE_APPLIED f.mode).setPort n { s.port n with fec := f.fec }

/-- A pattern code that stands on lane l is refused under its new formation: it acts as 0 and sets PAT (R97, log entry 149). -/
def State.patCheck (s : State) (l : Nat) : State :=
  let t := laneReg R.LG_LN_TEST l
  let s := if s.patRefused l (s.fld t F.LG_LN_TEST.CHK_PAT) then
      s.setBit (laneReg R.LG_LN_PRBS_ERR_HI l) F.LG_LN_PRBS_ERR_HI.LOCK false else s
  if s.patRefused l (s.fld t F.LG_LN_TEST.CHK_PAT) || s.patRefused l (s.fld t F.LG_LN_TEST.GEN_PAT) then
    s.laneCause l F.LG_LN_CAUSE.PAT
  else s

/-- The pending formations of group g meet the boundary: all apply, or none (R103). -/
def State.formGroup (s : State) (g : Nat) (pend : List (Nat × Word)) : State :=
  let ports := (List.range 16).map (16 * g + ·)
  let want := fun n => match pend.lookup n with
    | some w => formOfWord w
    | none => s.formation n
  if !s.groupFormOk g (ports.map want) then
    pend.foldl (fun s e => s.cause (R.PORT_CAUSE e.1) F.PORT_CAUSE.FORM_REFUSED) s
  else
    let fs := ports.map fun n => (n, want n, s.formation n)
    let ch := fs.filter fun e => !e.2.1.same e.2.2
    let olds := (ch.filter fun e => decide (e.2.2.width ≠ 0)).map (·.1)
    let news := (ch.filter fun e => decide (e.2.1.width ≠ 0)).map fun e => (e.1, widthLanes e.2.1.width)
    let lanes := (olds.flatMap s.lanesOf ++ news.flatMap fun e => (List.range e.2).map (e.1 + ·)).eraseDups
    let s := olds.foldl (fun s n => s.portEnd n) s
    let s := lanes.foldl (fun s l => s.lockLost l) s
    let s := olds.foldl (fun s n => (s.linkClear n).setPort n { s.port n with inPortReset := false, timeline := false }) s
    let s := olds.foldl (fun s n => s.setBit (R.PORT_RST n) F.PORT_RST.GO false) s
    let s := fs.foldl (fun s e => if (pend.lookup e.1).isSome then s.setFormation e.1 e.2.1 else s) s
    let s := news.foldl (fun s e => s.setPort e.1 { s.port e.1 with timeline := true }) s
    let s := (lanes.foldl (fun s l => if s.laneWatched l then s else s.rxOff l) s).fwdOff g
    let s := lanes.foldl (fun s l => s.patCheck l) s
    (s.showLanes (if lanes.isEmpty then [] else lanes ++ [16 * g + 15])).synceCheck

/-- The boundary applies the pending formations, group by group. -/
def State.formRound (s : State) (pend : List (Nat × Word)) : State :=
  (List.range 64).foldl (fun s g =>
    let ps := pend.filter fun e => decide (e.1 / 16 = g)
    if ps.isEmpty then s else s.formGroup g ps) s

/-- The timeline of group g ends: the tap sets of the new ports are loaded, and the ports that are enabled start (R85, R93). -/
def State.timelineEnd (s : State) (g : Nat) : State :=
  let ns := ((List.range 16).map (16 * g + ·)).filter fun n => (s.port n).timeline
  ns.foldl (fun s n =>
    let s := s.setPort n { s.port n with timeline := false }
    let s := (s.lanesOf n).foldl (fun s l => s.loadFir l) s
    if !s.portEnabled n then s
    else
      let s := (s.lanesOf n).foldl (fun s l => if s.los l then s.laneCause l F.LG_LN_CAUSE.LOS else s) s
      s.portStart n false) s

/-! ### Resets (R532 to R534) -/

/-- A running eye scan ends with this count. -/
def State.eyeEnd (s : State) (l errs : Nat) : State :=
  (s.setReg (laneReg R.LG_LN_EYE_RES l) (BitVec.ofNat 32 (min errs (2 ^ 32 - 1)))).setBit
    (laneReg R.LG_LN_EYE_CTL l) F.LG_LN_EYE_CTL.GO false

/-- The receiver of a lane is held in reset: its checker is not locked, and a running eye scan is aborted (R529, R532). -/
def State.rxAbort (s : State) (l : Nat) : State :=
  let s := s.setBit (laneReg R.LG_LN_PRBS_ERR_HI l) F.LG_LN_PRBS_ERR_HI.LOCK false
  if s.eyeBusy l then s.eyeEnd l (2 ^ 32 - 1) else s

/-- PORT_RST.GO of port n, written by function f. -/
def State.portReset (s : State) (f n : Nat) : State :=
  if (s.port n).inPortReset then s.busyWrite f
  else if !s.portEnabled n || s.inReset (s.ownerOfPort n) then s
  else if (s.port n).timeline then s.cause (R.PORT_CAUSE n) F.PORT_CAUSE.CFG
  else
    let s := (s.txCut n).linkFall n
    let s := (s.lanesOf n).foldl (fun s l => ((s.lockLost l).rxUnlock l).rxAbort l) s
    let s := ((s.linkClear n).pauseRelease n).stallEvals n
    let s := s.setPort n { s.port n with inPortReset := true }
    let s := s.setBit (R.PORT_RST n) F.PORT_RST.GO true
    s.showLanes (s.lanesOf n)

/-- The 10 µs of a port reset end: the port starts as at its first enable. -/
def State.portRestart (s : State) (n : Nat) : State :=
  if !(s.port n).inPortReset then s
  else
    let s := s.setPort n { s.port n with inPortReset := false }
    let s := (s.setBit (R.PORT_RST n) F.PORT_RST.GO false).portStart n false
    if s.mode n = 4 then s.addCnt (C.ONZ_RESTARTS n) 1 else s

/-- LG_LN_RST.GO of lane l; a port reset or a Pitch reset that covers the lane governs. -/
def State.laneReset (s : State) (l : Nat) : State :=
  if (s.portOfLane l).any (fun n => (s.port n).inPortReset) || s.pipeHeld (l / 64) then s
  else
    let s := if s.fwd15 l then s.fwdLoss (l / 16) else s
    let s := ((s.lockLost l).rxUnlock l).prbsRestart l
    let s := s.setFld (laneReg R.LG_LN_STATUS l) F.LG_LN_STATUS.LMF 0
    let s := s.setBit (laneReg R.LG_LN_STATUS l) F.LG_LN_STATUS.LMF_STALE true
    if s.eyeBusy l then s.eyeEnd l (2 ^ 32 - 1) else s

/-! ### Lane registers -/

/-- LG_CTL.FIR_LOAD of group g: every enabled lane that uses the group set loads it. -/
def State.firLoad (s : State) (g : Nat) : State :=
  (List.range 16).foldl (fun s i =>
    let l := 16 * g + i
    if s.laneEnabled l && !s.ownFir l then s.loadFir l else s) s

/-- A write of LG_CTL[g] (R83, R86, R535). -/
def State.lgCtlWrite (s : State) (g : Nat) (v : Word) : State :=
  let a := R.LG_CTL g
  let idle := !s.groupHasEnabled g
  let old := s.reg a
  let s := s.setFld a F.LG_CTL.ADAPT_CONT (fldOf v F.LG_CTL.ADAPT_CONT)
  let put := fun (s : State) (f : Fld) =>
    if fldOf v f = fldOf old f then s
    else if idle then s.setFld a f (fldOf v f)
    else s.cause (R.LG_CAUSE g) F.LG_CAUSE.CFG
  let s := put (put s F.LG_CTL.FWD_EN) F.LG_CTL.FWD_RATE
  let s := if s.fld a F.LG_CTL.FWD_RATE ≠ fldOf old F.LG_CTL.FWD_RATE ∧ 2 ≤ s.fld a F.LG_CTL.FWD_RATE then
      s.cause (R.LG_CAUSE g) F.LG_CAUSE.CFG else s
  let l := 16 * g + 15
  let s := if s.fld a F.LG_CTL.FWD_EN = fldOf old F.LG_CTL.FWD_EN then s
    else (List.range 15).foldl (fun s i => s.lockLost (16 * g + i)) s
  let s := if s.bit a F.LG_CTL.FWD_EN then
      (s.setFld (laneReg R.LG_LN_STATUS l) F.LG_LN_STATUS.LMF 0).setBit (laneReg R.LG_LN_STATUS l) F.LG_LN_STATUS.LMF_STALE true
    else s.setBit (R.LG_STATUS g) F.LG_STATUS.FWD_LOCK false
  let s := if fldOf v F.LG_CTL.FIR_LOAD = 1 then s.firLoad g else s
  s.showLane l

/-- A write of LG_LN_FIR_B of lane l (R85). -/
def State.firBWrite (s : State) (l : Nat) (v : Word) : State :=
  let a := laneReg R.LG_LN_FIR_B l
  let s := s.setReg a (putFld (v &&& 0x8000FFFF) F.LG_LN_FIR_B.LOAD 0)
  if fldOf v F.LG_LN_FIR_B.LOAD = 1 && s.laneEnabled l && s.ownFir l then s.loadFir l else s

/-- LOOP of lane l of an enabled port has changed: what is in flight on the port fails its check at its receiver, the frame that the port
sends, the frame that it receives, and the frames in a loopback, which its MAC counts at once (R99, log entry 138). -/
def State.loopChange (s : State) (l : Nat) : State :=
  match s.portOfLane l with
  | none => s
  | some n =>
    if !s.portEnabled n then s
    else
      let s := s.setPtm n { s.ptm n with tx := (s.ptm n).tx.map fun f => if f.started then { f with bad := true } else f }
      let k := (s.port n).loopRx.length
      let s := s.setPort n { s.port n with loopRx := [], loopAt := s.t16 }
      if k = 0 then s else s.addCnt (C.RX_FCS_ERR n) k

/-- A write of LG_LN_TEST of lane l (R81, R96 to R99, R535). A write of CHK_PAT other than off clears the count and restarts the
checker, also where it changes other fields alone, which the manual does not say (log entry 128); off stops it and holds its count. -/
def State.laneTestWrite (s : State) (l : Nat) (v : Word) : State :=
  let s := s.prbsTake l
  let a := laneReg R.LG_LN_TEST l
  let old := s.reg a
  let put := fun (s : State) (f : Fld) => s.setFld a f (fldOf v f)
  let rwi := fun (s : State) (f : Fld) =>
    if fldOf v f = fldOf old f then s
    else if s.laneEnabled l then s.cause (R.LG_CAUSE (l / 16)) F.LG_CAUSE.CFG
    else put s f
  let s := rwi (rwi s F.LG_LN_TEST.TX_INV) F.LG_LN_TEST.RX_INV
  let s := [F.LG_LN_TEST.RX_ON, F.LG_LN_TEST.LOOP, F.LG_LN_TEST.CHK_PAT, F.LG_LN_TEST.GEN_PAT, F.LG_LN_TEST.TX_SRC].foldl put s
  let was := fldOf old F.LG_LN_TEST.RX_ON = 1
  let s := if s.rxOn l && !was then
      (if s.los l then s.laneArise l F.LG_LN_CAUSE.LOS else s)
    else if !s.rxOn l && was && !s.rxPowered l then s.rxDown l else s
  let s := if fldOf v F.LG_LN_TEST.LOOP = fldOf old F.LG_LN_TEST.LOOP then s else s.loopChange l
  let s := if fldOf v F.LG_LN_TEST.TX_SRC = 1 ∧ fldOf old F.LG_LN_TEST.TX_SRC = 0 then
      (let (w, s) := s.freeWord
       s.setLane l { s.lane l with gen := w })
    else s
  let bad := s.patRefused l (fldOf v F.LG_LN_TEST.CHK_PAT) || s.patRefused l (fldOf v F.LG_LN_TEST.GEN_PAT)
  let s := if bad then s.laneCause l F.LG_LN_CAUSE.PAT else s
  let s := if s.prbsOn l then s.prbsRestart l
    else s.setBit (laneReg R.LG_LN_PRBS_ERR_HI l) F.LG_LN_PRBS_ERR_HI.LOCK false
  let s := if fldOf v F.LG_LN_TEST.TX_SRC = 1 ∧ fldOf old F.LG_LN_TEST.TX_SRC = 0 then
      (match s.portOfLane l with
       | some n => if s.portEnabled n then s.genStart n else s
       | none => s)
    else s
  (s.showLane l).synceCheck

/-- The checker of lane l declares lock, or drops it with `errs` wrong bits (R98). -/
def State.prbsLocks (s : State) (l : Nat) : State :=
  if s.prbsOn l && s.rxPowered l && !s.rxHeld l then s.setBit (laneReg R.LG_LN_PRBS_ERR_HI l) F.LG_LN_PRBS_ERR_HI.LOCK true else s
def State.prbsLoses (s : State) (l errs : Nat) : State :=
  let a := laneReg R.LG_LN_PRBS_ERR_HI l
  if s.prbsOn l && s.bit a F.LG_LN_PRBS_ERR_HI.LOCK then
    ((s.prbsAdd l errs).setBit a F.LG_LN_PRBS_ERR_HI.LOCK false).laneCause l F.LG_LN_CAUSE.PRBS_LOL
  else s

/-- A write of LG_LN_EYE_CTL of lane l by function f (R100). -/
def State.eyeWrite (s : State) (f l : Nat) (v : Word) : State :=
  let a := laneReg R.LG_LN_EYE_CTL l
  let busy := s.eyeBusy l
  let s := s.setReg a (putFld (v &&& 0x603FFF8F) F.LG_LN_EYE_CTL.GO (if busy then 1 else 0))
  if fldOf v F.LG_LN_EYE_CTL.GO = 0 then s
  else if busy then s.busyWrite f
  else if s.fld a F.LG_LN_EYE_CTL.EYE = 3 then (s.eyeEnd l 0).laneCause l F.LG_LN_CAUSE.EYE_CFG
  else if !s.cdrLock l then s.eyeEnd l (2 ^ 32 - 1)
  else
    let s := (s.setBit a F.LG_LN_EYE_CTL.GO true).setBit (laneReg R.LG_LN_STATUS l) F.LG_LN_STATUS.LMF_STALE true
    s.setLane l { s.lane l with whole := false }

def State.eyeDone (s : State) (l errs : Nat) : State := if s.eyeBusy l then s.eyeEnd l errs else s

/-! ### What a port receives beside frames -/

/-- A fault of R119 begins or ends; `f` is RX_LF or RX_RF of PORT_STATUS and `c` its cause. -/
def State.faultRx (s : State) (n : Nat) (f c : Fld) (on : Bool) : State :=
  let a := R.PORT_STATUS n
  if !s.linkRuns n || decide (s.mode n = 4) || s.bit a f == on then s
  else
    let s := s.setBit a f on
    if on then (s.ariseF (R.PORT_CAUSE n) c).linkLost n else s.linePort n

/-- Auto-negotiation fails, restarts or completes (R116). -/
def State.anFails (s : State) (n : Nat) : State :=
  if s.linkRuns n && s.anEn n && !s.bit (R.PORT_STATUS n) F.PORT_STATUS.AN_DONE then
    (s.setPort n { s.port n with anWait := true }).cause (R.PORT_CAUSE n) F.PORT_CAUSE.AN_FAIL
  else s
def State.anRestarts (s : State) (n : Nat) : State := s.setPort n { s.port n with anWait := false }
def State.anCompletes (s : State) (n : Nat) : State :=
  if s.linkRuns n && s.anEn n && !(s.port n).anWait then
    (s.setBit (R.PORT_STATUS n) F.PORT_STATUS.AN_DONE true).linePort n
  else s

/-- Port n is in link training: its link logic runs, its negotiation done, its training not (R117). -/
def State.training (s : State) (n : Nat) : Bool :=
  s.linkRuns n && s.trainEn n && (!s.anEn n || s.bit (R.PORT_STATUS n) F.PORT_STATUS.AN_DONE) &&
    !s.bit (R.PORT_STATUS n) F.PORT_STATUS.TRAIN_DONE

/-- The training timer of port n ends (R118, R129). -/
def State.trainExpires (s : State) (n : Nat) : State :=
  let cause := fun (s : State) => s.cause (R.PORT_CAUSE n) F.PORT_CAUSE.TRAIN_TIMEOUT
  if s.mode n = 4 then
    (if s.linkRuns n && decide (1 ≤ s.onzState n ∧ s.onzState n ≤ 5) then (cause s).onzRestart n else s)
  else if s.training n then
    let s := (s.lanesOf n).foldl (fun s l => s.setWorkFir l (s.lane l).loaded) (cause s)
    if s.anEn n then (s.setBit (R.PORT_STATUS n) F.PORT_STATUS.AN_DONE false).linePort n else s
  else s

/-- A training frame on a lane of port n: the partner asks for tap `tap` to move, up (1), down (2), or back to the loaded set (3);
`done` says that training completes with it (R117). -/
def State.trainRx (s : State) (n l tap dir : Nat) (done : Bool) : State :=
  if !s.training n || !(s.lanesOf n).contains l then s
  else
    let t := s.workFir l
    let v := t.getD tap 0 + (if dir = 1 then 1 else -1)
    let s := if dir = 0 ∨ 6 ≤ tap then s
      else if dir = 3 then (s.setWorkFir l (s.lane l).loaded).emit (.trainAnswer n l false)
      else if -128 ≤ v ∧ v ≤ 127 ∧ firValid (listSet t tap v) then (s.setWorkFir l (listSet t tap v)).emit (.trainAnswer n l false)
      else s.emit (.trainAnswer n l true)
    if done then (s.setBit (R.PORT_STATUS n) F.PORT_STATUS.TRAIN_DONE true).linePort n else s

/-- An idle or SOF marker reaches an Onazel port in data (R128). -/
def State.onzMarkerUp (s : State) (n : Nat) : State :=
  if s.linkRuns n && decide (s.mode n = 4 ∧ s.onzState n = 6) && !s.linkUp n then s.linkRise n else s

/-- A training marker arrives, or no marker for 1 µs (R130). -/
def State.onzDrop (s : State) (n : Nat) : State :=
  if s.portEnabled n && decide (s.mode n = 4 ∧ s.onzState n = 6) then s.linkLost n else s

/-- A run of identical symbols acts as its level gives: SOF or idle, training, or none (R124). -/
def State.onzRun (s : State) (n level : Nat) : State :=
  if level = 0 ∨ level = 3 then s.onzMarkerUp n else if level = 1 then s.onzDrop n else s

/-- A marker error: a run of level 2, or of a bad length, which acts as its level gives. A frame in progress is counted as an FCS
error; its data symbols pass through the descrambler all the same (R121, R124, R125). -/
def State.onzBadMarker (s : State) (n level : Nat) (syms : List Nat) (inFrame : Bool) : State :=
  if !s.portEnabled n || decide (s.mode n ≠ 4) then s
  else
    let s := s.addCnt (C.ONZ_MARKER_ERR n) 1
    let s := if inFrame then (s.onzGet n 0 syms).2 else s
    let s := if inFrame && s.linkUp n then s.addCnt (C.RX_FCS_ERR n) 1 else s
    s.onzRun n level

/-- What reaches an Onazel port against its line code. A run of fewer than 32 symbols is none that is recognised, one of 36 to 44 of
another level than 2 is a good marker; data symbols after an idle marker are discarded and counted as a marker error (R124, R125). -/
def State.onzBadRx (s : State) (n : Nat) (bad : OnzBad) (inFrame : Bool) : State :=
  match bad with
  | .run level len syms =>
    if len < 32 then s
    else if level.val ≠ 2 ∧ 36 ≤ len ∧ len ≤ 44 then s.onzRun n level
    else s.onzBadMarker n level (syms.map Fin.val) inFrame
  | .stray syms =>
    if !s.portEnabled n || decide (s.mode n ≠ 4) then s else ((s.onzGet n 3 (syms.map Fin.val)).2).addCnt (C.ONZ_MARKER_ERR n) 1

/-- A MODE 5 port loses alignment (R132). -/
def State.alignLost (s : State) (n : Nat) : State :=
  (s.setPort n { s.port n with aligned := false, alignGood := 0, alignBad := 0 }).linkLost n

/-- One period's alignment blocks of the lanes of port n, in lane order. Of a lane that gives no symbols the block is missing (R132). -/
def State.alignRx (s : State) (n : Nat) (bs : List Bytes) : State :=
  if !s.linkRuns n || decide (s.mode n ≠ 5) then s
  else
    let q := s.port n
    match alignOrder (s.width n) ((s.lanesOf n).zipIdx.map fun e => if s.laneGives e.1 then bs.getD e.2 [] else []) with
    | some o =>
      let g := min 2 (q.alignGood + 1)
      s.setPort n { q with
        alignGood := g, alignBad := 0, aligned := q.aligned || decide (g = 2), order := if g = 2 then o else q.order }
    | none =>
      if 3 ≤ q.alignBad then s.alignLost n else s.setPort n { q with alignGood := 0, alignBad := q.alignBad + 1 }

/-! ### Lane groups come ready (R504, R547) -/

/-- Group g finishes calibration: it is ready and its enabled ports start; or it fails, and after three failures stays off. -/
def State.lgCalDone (s : State) (g : Nat) (ok : Bool) : State :=
  if decide (64 ≤ g) || !s.domOn g || s.lgReady g then s
  else if ok then
    let s := ((s.setBit (R.LG_STATUS g) F.LG_STATUS.READY true).setBit (R.LG_STATUS g) F.LG_STATUS.PLL_LOCK true).setDomBit
      R.PST_DOM_READY g true
    (List.range 16).foldl (fun s i => s.portStart (16 * g + i) true) s
  else
    let k := SMap.get (fun _ => 0) s.pw.lgFails g + 1
    let s := { s with pw := { s.pw with lgFails := SMap.put (fun _ => 0) s.pw.lgFails g k } }
    let s := s.lgOff g
    if 3 ≤ k then s.domFailed g else s

end Sys2Proof.Machine
end

