-- ==== Sys2Proof/Machine/Rx.lean ====
section
/-! DEFINITION. A frame reaches a port: the checks of R20 and R109, the frames that the MAC consumes (R110, R346, R381), the
buffer (R21), the mirror copy of an ingress port (R57 to R62) and the pipeline entry queue (R25, R26). -/

namespace Sys2Proof.Machine

/-- The FEC of port n has codeword lock: the mode has FEC, and its lanes give symbols (R119). -/
def State.fecLock (s : State) (n : Nat) : Bool :=
  (s.fecBits n).isSome && s.portEnabled n && (s.lanesOf n).all s.laneGives && (s.port n).fecLock

/-- FEC counts of port n (Table 4.6): codewords corrected, codewords not correctable, symbols corrected. -/
def State.fecCount (s : State) (n corr unc sym : Nat) : State :=
  if !s.fecLock n then s
  else
    let s := ((s.addCnt (C.FEC_CORR_CW n) corr).addCnt (C.FEC_UNCORR_CW n) unc).addCnt (C.FEC_CORR_SYM n) sym
    if unc = 0 then s else s.cause (R.PORT_CAUSE n) F.PORT_CAUSE.FEC_UNCORR

/-- A frame refused by its checks: its counter, under the first fault in the order of R109. -/
def State.rxFault (s : State) (n : Nat) (rx : RxFrame) : Option Nat :=
  if rx.pcsErr || decide (rx.fecUncorr ≠ 0) then some (C.RX_PCS_ERR n) else s.frameFault n rx.bytes

/-- A MAC control frame, by its opcode (R110, R111). -/
def State.macCtrlRx (s : State) (n : Nat) (bs : Bytes) : State :=
  let op := beNat (slice bs 14 2)
  let s := if op = 1 then s.rxPause n (beNat (slice bs 16 2))
    else if op = 0x0101 then s.rxPfc n (beNat (slice bs 16 2)) ((List.range 8).map fun p => beNat (slice bs (18 + 2 * p) 2))
    else s.rxMacCtrlOther n
  s.stallEvals n

/-- The packet of a checked frame: what travels with it, with the time base as it stood at its reference point, and the tick in which it
is ready (R25, R338, R367). -/
def State.rxPkt (s : State) (n h : Nat) (rx : RxFrame) : Pkt :=
  let g := s.segAt (s.edge64 rx.age)
  { handle := h, rq := pipeOfPort n, port := n, len := rx.bytes.length, win := (rx.bytes.take (rx.bytes.length - 4)).take 512,
    stamp := s.ingressStamp n rx.age, steps := g.steps, moves := g.moves, hold := g.hold, notSet := g.notSet,
    p2p := s.p2pAt n (s.refPoint n rx.age), ready := (s.pipe (pipeOfPort n)).igTick + 1 }

/-- A checked frame is written to a buffer and enters the entry queue of its pipeline, or is dropped (R21, R26). -/
def State.rxAdmit (s : State) (n : Nat) (rx : RxFrame) : State :=
  let p := pipeOfPort n
  let s := (s.addCnt (C.RX_FRAMES n) 1).addCnt (C.RX_BYTES n) rx.bytes.length
  match s.bpmAlloc p rx.bytes.length rx.bytes with
  | (.granted h, s) =>
    let k := s.rxPkt n h rx
    let s := s.mirrorCopy n 0 k rx.bytes
    if 256 ≤ (s.pipe p).entry.length then (s.addCnt (C.RX_ENTRY_DROP n) 1).bpmRelease p h
    else s.setPipe p { s.pipe p with entry := (s.pipe p).entry ++ [k] }
  | (_, s) => s.addCnt (C.RX_ADMIT_DROP n) 1

/-- The frame has the EtherType of the time links: the MAC consumes it, on whatever port it comes (R346, R381). -/
def State.linkFrame (s : State) (bs : Bytes) : Bool := decide (beNat (slice bs 12 2) = s.fld R.TIME_TL_CTL F.TIME_TL_CTL.ETYPE)

/-- The MAC of port n consumes a frame of the time links: the return of a calibration frame, a frame of the link that names the port, or a
frame that is checked and discarded (R346, R347, R381). -/
def State.linkFrameRx (s : State) (n : Nat) (bs : Bytes) (age : RefAt) : State :=
  match s.frameFault n bs with
  | some c => (if c = C.RX_FCS_ERR n then s.addWrap32 R.TIME_TL_BAD 1 else s).addCnt c 1
  | none =>
    if (s.calRun n).isSome && decide (byteAt bs 14 = 0x81) then s.calReturn n (beNat (slice bs 15 2)) age
    else
      match s.tlOfPort n with
      | some k => s.tlReceive k bs age
      | none => if tlBad bs then s.addWrap32 R.TIME_TL_BAD 1 else s

/-- What reaches the MAC of port n with a frame (R99, R121 to R125): in near-end and parallel loopback the next frame of its own, and none
where none is on its way, but for a frame of the lands that was in flight at the change; on an Onazel port the data that its symbols hold.
The result is the frame, whether it is a whole number of bytes, and whether it was in flight at a change of LOOP and so fails its check. -/
def State.rxLine (s : State) (n : Nat) (rx : RxFrame) : Option (RxFrame × Bool × Bool) × State :=
  let hit := decide (s.edge64 rx.age < 4 * (s.port n).loopAt)
  if ((s.lanesOf n).any s.landsOff) && !hit then
    match (s.port n).loopRx with
    | [] => (none, s)
    | e :: rest => (some ({ rx with bytes := e.1 }, true, e.2), s.setPort n { s.port n with loopRx := rest })
  else
    if s.mode n = 4 then
      let (ds, s) := s.onzGet n 0 (rx.syms.map Fin.val)
      (some ({ rx with bytes := bitsBytes ds }, ds.length % 8 = 0, hit), s)
    else (some (rx, true, hit), s)

/-- Far-end loopback sends the received symbols on, whatever the MAC makes of them (R99). -/
def State.farEnd (s : State) (n : Nat) (rx : RxFrame) : State :=
  if s.formed n && !s.outputsLost && (s.lanesOf n).all fun l => s.drives l && decide (s.loop l = 2) then
    s.emit (.frame n rx.bytes rx.pcsErr)
  else s

/-- A frame reaches port n. A port receives only while LINK_UP is 1 at the frame's start; the SOF marker that sets LINK_UP counts
as such a start (R638). A frame of the time links, too, is checked against MAXLEN (R108). -/
def State.frameArrival (s : State) (n : Nat) (rx : RxFrame) : State :=
  match s.rxLine n rx with
  | (none, s) => s
  | (some (rx, whole, hit), s) =>
  let s := ((s.farEnd n rx).fecCount n rx.fecCorr rx.fecUncorr rx.fecSym).onzMarkerUp n
  if !s.linkUp n then s
  else if !whole then s.addCnt (C.ONZ_ALIGN_ERR n) 1
  else if hit then s.addCnt (if rx.pcsErr || decide (rx.fecUncorr ≠ 0) then C.RX_PCS_ERR n else C.RX_FCS_ERR n) 1
  else
    if !(rx.pcsErr || decide (rx.fecUncorr ≠ 0)) && s.linkFrame rx.bytes then s.linkFrameRx n rx.bytes rx.age
    else
      match s.rxFault n rx with
      | some c => s.addCnt c 1
      | none =>
        if beNat (slice rx.bytes 12 2) = 0x8808 then s.macCtrlRx n rx.bytes
        else if s.pipeHeld (pipeOfPort n) then s
        else s.rxAdmit n rx

/-- A calibration frame returns to port n; on a port that is not running a calibration it is discarded and counted (R381). It is checked as
every received frame is (R108). -/
def State.calFrameRx (s : State) (n : Nat) (bs : Bytes) (age : RefAt) : State :=
  if s.linkUp n && decide (byteAt bs 14 = 0x81) && s.linkFrame bs then s.linkFrameRx n bs age else s

/-- A time link frame reaches the port of link k; it is checked as every received frame is (R108, R347). -/
def State.tlFrameRx (s : State) (k : Nat) (bs : Bytes) (age : RefAt) : State :=
  match s.tlPort k with
  | none => s
  | some n =>
    match s.frameFault n bs with
    | some c => (if c = C.RX_FCS_ERR n then s.addWrap32 R.TIME_TL_BAD 1 else s).addCnt c 1
    | none => s.tlReceive k bs age

end Sys2Proof.Machine
end

