-- ==== Sys2Proof/Machine/Side.lean ====
section
/-! DEFINITION. The side interfaces (R598 to R604): I2C masters, the CMIS mailbox, the SMBus target and the TAP; and FAULT_N
(R566). -/

namespace Sys2Proof.Machine

/-! ### FAULT_N and bring-up queries (R544, R566) -/

def State.stage (s : State) : Nat := s.fld R.DEV_BOOT_STATUS F.DEV_BOOT_STATUS.STAGE
def State.stopped (s : State) : Bool := s.bit R.DEV_BOOT_STATUS F.DEV_BOOT_STATUS.STOPPED

/-- FAULT_N is driven low (R537, R544, R566): from an input of 3.0 V up while no rail stands, before step 3 has ended, on a part that has
stopped, and for the causes it shows. Below 3.0 V it is undriven. -/
def State.faultNLow (s : State) : Bool :=
  !s.pw.inLow &&
  (!s.pw.alive || decide (s.stage ≤ 2) || s.stopped || s.bit R.IRQ_FAULTN F.IRQ_FAULTN.FORCE || s.pw.under || s.pw.trip || s.pw.overV ||
   s.pw.fabricLost || s.pw.pcieLost ||
   s.setCauses.any fun c => decide (c.2.2 = 3) &&
     (decide (c.1.owner = 0) || nbit (s.fld R.IRQ_FAULTN F.IRQ_FAULTN.PITCH) (c.1.owner - 1)))

/-! ### Lands of the side interfaces (Table 20.1) -/

/-- The lands of the SPI bus: chip select and clock at rest until the boot read of step 6 begins, in use by it, and released after step 6
(Table 20.1, R597). -/
inductive SpiLands where
  | rest (cs clk : Bool)
  | inUse
  | released
  deriving DecidableEq, Repr

/-- What stands at the lands of the SPI bus. -/
def State.spiLands (s : State) : SpiLands :=
  if s.stage ≤ 3 then .rest true false else if s.stage < 8 then .inUse else .released

/-- SCL and SDA of I2C master m: released until firmware issues a transfer, and while none runs. -/
def State.i2cLands (s : State) (m : Nat) : Option (Bool × Bool) :=
  if s.bit (R.SB_I2C_CMD m) F.SB_I2C_CMD.GO then none else some (true, true)

/-! ### I2C (R598 to R600, Table 22.9) -/

/-- An I2C command fits its KIND: lengths of at most 128; a write reads nothing, a read writes nothing and reads something, a
write then read does both. -/
def i2cFits (w : Word) : Bool :=
  let k := fldOf w F.SB_I2C_CMD.KIND
  let wl := fldOf w F.SB_I2C_CMD.WLEN
  let rl := fldOf w F.SB_I2C_CMD.RLEN
  decide (wl ≤ 128 ∧ rl ≤ 128) &&
  (if k = 0 then decide (rl = 0) else if k = 1 then decide (wl = 0 ∧ 0 < rl) else if k = 2 then decide (0 < wl ∧ 0 < rl) else false)

/-- The bytes of 32 data words, byte 4k of word k in bits 7:0. -/
def State.dataWords (s : State) (a : Nat → Nat) : Bytes := (List.range 32).flatMap fun k => natLE 4 (s.reg (a k)).toNat

/-- The transfer that master m runs. -/
def State.i2cRun (s : State) (m : Nat) : I2cRun := SMap.get (fun _ => {}) s.side.i2c m

/-- Give master m a transfer, or an attempt of one. -/
def State.setI2c (s : State) (m : Nat) (r : I2cRun) : State := { s with side := { s.side with i2c := SMap.put (fun _ => {}) s.side.i2c m r } }

/-- The speed of a transfer in kHz (SB_I2C_CTL.SPEED). -/
def I2cRun.khz (r : I2cRun) : Nat :=
  let v := fldOf r.ctl F.SB_I2C_CTL.SPEED
  if v = 1 then 400 else if v = 2 then 1000 else 100

/-- A write of SB_I2C_CMD of master m by function f. A transfer takes its command, SPEED, RETRIES, GAP_US and its data with it (R523). -/
def State.i2cWrite (s : State) (f m : Nat) (v : Word) : State :=
  let a := R.SB_I2C_CMD m
  let busy := s.bit a F.SB_I2C_CMD.GO
  let s := s.setReg a (putFld (v &&& 0x60FFFF7F) F.SB_I2C_CMD.GO (if busy then 1 else 0))
  if fldOf v F.SB_I2C_CMD.GO = 0 then s
  else if busy then s.busyWrite f
  else if !i2cFits v then s.setReg (R.SB_I2C_STATUS m) (BitVec.ofNat 32 (5 * 2 ^ 28))
  else
    let s := s.setI2c m { cmd := v, ctl := s.reg (R.SB_I2C_CTL m), data := s.dataWords (R.SB_I2C_DATA m), next := s.t16 }
    (s.setBit a F.SB_I2C_CMD.GO true).setReg (R.SB_I2C_STATUS m) (BitVec.ofNat 32 (15 * 2 ^ 28 + 2 ^ 16))

/-- TRIES shows the attempts at the address; a sixteenth, for which the field has no value, shows a free one (R599). -/
def State.i2cTries (s : State) (m n : Nat) : State :=
  if n < 16 then s.setFld (R.SB_I2C_STATUS m) F.SB_I2C_STATUS.TRIES n
  else
    let (w, s) := s.freeWord
    s.setFld (R.SB_I2C_STATUS m) F.SB_I2C_STATUS.TRIES w

/-- An attempt at a target: START, its address with the read bit, and what follows. -/
def i2cAddr (r : I2cRun) (read : Bool) : List I2cTok := [.start, .addr (fldOf r.cmd F.SB_I2C_CMD.ADDR) read]

/-- The transfer of master m is at an attempt whose START is out. -/
def State.i2cOut (s : State) (m : Nat) : Bool := s.bit (R.SB_I2C_CMD m) F.SB_I2C_CMD.GO && decide ((s.i2cRun m).next ≤ s.t16)

/-- A target did not acknowledge its address: master m sends STOP and, if it has a retry left, tries again after GAP_US (R599). -/
def State.i2cRetry (s : State) (m : Nat) : State :=
  let r := s.i2cRun m
  if s.i2cOut m && decide (r.tries ≤ fldOf r.ctl F.SB_I2C_CTL.RETRIES) then
    let s := s.emit (.i2c m r.khz (i2cAddr r (decide (fldOf r.cmd F.SB_I2C_CMD.KIND = 1)) ++ [.stop]))
    (s.setI2c m { r with tries := r.tries + 1, next := s.t16 + fldOf r.ctl F.SB_I2C_CTL.GAP_US * 16000 }).i2cTries m (r.tries + 1)
  else s

/-- Put bytes in data words, from byte 0 up; the bytes beyond them stay. -/
def State.setDataWords (s : State) (a : Nat → Nat) (bs : Bytes) : State :=
  let all := splice (s.dataWords a) 0 bs
  (List.range 32).foldl (fun s k => s.setReg (a k) (BitVec.ofNat 32 (leNat (slice all (4 * k) 4)))) s

/-- The bytes that a transfer writes and those that it reads, by its KIND. -/
def I2cRun.wlen (r : I2cRun) : Nat := if fldOf r.cmd F.SB_I2C_CMD.KIND = 1 then 0 else fldOf r.cmd F.SB_I2C_CMD.WLEN
def I2cRun.rlen (r : I2cRun) : Nat := if fldOf r.cmd F.SB_I2C_CMD.KIND = 0 then 0 else fldOf r.cmd F.SB_I2C_CMD.RLEN

/-- A check of the bus finds it stuck (R600). -/
def i2cStuck (b : I2cBus) : Bool := b.sclLow || (b.sdaLow && b.sdaAfter) || b.readBack

/-- What the master does where a check finds SDA low: nine pulses, and STOP (R600). -/
def i2cFrees (b : I2cBus) : List I2cTok := if b.sdaLow then [.pulses, .stop] else []

/-- What a transfer has done on its bus once `n` of its data bytes are complete and it ends with result `res`, of 0, 1, 2 and 4: a write, a
read, or a write, a repeated START and a read. A byte written that was not acknowledged has been sent (R598, R599). -/
def I2cRun.bus (r : I2cRun) (res n : Nat) : List I2cTok :=
  let w := min r.wlen (if res = 2 then n + 1 else n)
  let rd := if r.rlen = 0 ∨ n < r.wlen ∨ (res = 2 ∧ w ≠ n) then [] else i2cAddr r true ++ (if n = r.wlen then [] else [.read (n - r.wlen)])
  if fldOf r.cmd F.SB_I2C_CMD.KIND = 1 then rd ++ [.stop]
  else i2cAddr r false ++ (r.data.take w).map .write ++ rd ++ [.stop]

/-- The results with which the transfer of master m can end where its bus is free: done, an address not acknowledged with no retry left, a data
byte not acknowledged, SCL stretched beyond 25 ms. -/
def State.i2cMay (s : State) (m res : Nat) : Bool :=
  let r := s.i2cRun m
  decide (res = 0 ∨ (res = 1 ∧ r.tries = fldOf r.ctl F.SB_I2C_CTL.RETRIES + 1) ∨ res = 2 ∨ res = 4)

/-- The transfer of master m ends with a result of Table 22.9: `done` data bytes completed, and the bytes read. Before its START the master
finds its bus as `bus`, which may end it, and after result 4 as `after` (R600). -/
def State.i2cEnd (s : State) (m res done : Nat) (bs : Bytes) (bus after : I2cBus) : State :=
  let r := s.i2cRun m
  if !s.i2cOut m || decide (8 ≤ m) || (!i2cStuck bus && !s.i2cMay m res) then s
  else
    let held := i2cStuck bus || (decide (res = 4) && i2cStuck after)
    let n := if i2cStuck bus then 0 else if res = 0 then r.wlen + r.rlen else min done (r.wlen + r.rlen)
    let toks := i2cFrees bus ++ (if i2cStuck bus then [] else r.bus res n ++ (if res = 4 then i2cFrees after else []))
    let st := R.SB_I2C_STATUS m
    let s := (s.setFld st F.SB_I2C_STATUS.RESULT (if held then 3 else res)).setFld st F.SB_I2C_STATUS.BYTES n
    let s := (s.setBit st F.SB_I2C_STATUS.RECOVERED (!held && (bus.sdaLow || (decide (res = 4) && after.sdaLow)))).setBit
      (R.SB_I2C_CMD m) F.SB_I2C_CMD.GO false
    let s := if toks.isEmpty then s else s.emit (.i2c m r.khz toks)
    let s := if n ≤ r.wlen then s else s.setDataWords (R.SB_I2C_DATA m) (bs.take (n - r.wlen))
    let was := SMap.get (fun _ => false) s.side.stuck m && i2cStuck bus
    let s := s.setI2c m {}
    let s := { s with side := { s.side with stuck := SMap.put (fun _ => false) s.side.stuck m held } }
    if held then (if was then s.causeBit R.SB_CAUSE (8 + m) else s.arise R.SB_CAUSE (8 + m))
    else if res = 1 then s.causeBit R.SB_CAUSE m
    else s

/-! ### The CMIS mailbox (R601) -/

def State.cmisResult (s : State) (n r : Nat) : State := s.setFld (R.PORT_CMIS_STATUS n) F.PORT_CMIS_STATUS.RESULT r

/-- The supervisor of owner 0 is running. -/
def State.sup0Runs (s : State) : Bool :=
  (s.supervisor 0).any fun t => decide ((s.thr t).st ≠ 0 ∧ (s.thr t).st ≠ 5 ∧ (s.thr t).st ≠ 6) && s.ostFw 0

/-- A write of a module of port n is allowed: its port is the Warden's, or SB_CMIS_WR allows its Pitch (R601). -/
def State.cmisMayWrite (s : State) (n : Nat) : Bool :=
  let own := s.ownerOfPort n
  decide (own = 0) || nbit (s.fld R.SB_CMIS_WR F.SB_CMIS_WR.PITCH) (own - 1)

/-- The request of port n breaks a limit: LEN of 0 or above 128, OFFSET + LEN above 256, or a write that SB_CMIS_WR does not allow
its Pitch. -/
def State.cmisBad (s : State) (n : Nat) (v : Word) : Bool :=
  let len := fldOf v F.PORT_CMIS_CMD.LEN
  decide (len = 0 ∨ 128 < len ∨ 256 < s.fld (R.PORT_CMIS_ADDR n) F.PORT_CMIS_ADDR.OFFSET + len) ||
    (decide (fldOf v F.PORT_CMIS_CMD.WRITE = 1) && !s.cmisMayWrite n)

/-- The request that the mailbox of port n carries. -/
def State.cmisReq (s : State) (n : Nat) : Word × Word × Bytes := SMap.get (fun _ => (0, 0, [])) s.side.cmisTook n

/-- The mailbox of port n waits, with a request, or no more. -/
def State.setCmis (s : State) (n : Nat) (q : List Nat) (r : Word × Word × Bytes) : State :=
  { s with side := { s.side with cmis := q, cmisTook := SMap.put (fun _ => (0, 0, [])) s.side.cmisTook n r } }

/-- A write of PORT_CMIS_CMD of port n by function f. A request takes its command, its address and its data with it (R523). -/
def State.cmisWrite (s : State) (f n : Nat) (v : Word) : State :=
  let a := R.PORT_CMIS_CMD n
  let busy := s.bit a F.PORT_CMIS_CMD.GO
  let s := s.setReg a (putFld (v &&& 0x400000FF) F.PORT_CMIS_CMD.GO (if busy then 1 else 0))
  if fldOf v F.PORT_CMIS_CMD.GO = 0 then s
  else if busy then s.busyWrite f
  else if !s.bit (R.SB_CAGE_MAP n) F.SB_CAGE_MAP.VALID then s.cmisResult n 1
  else if s.cmisBad n v then s.cmisResult n 4
  else if !s.sup0Runs then s.cmisResult n 5
  else
    let s := s.setCmis n (s.side.cmis ++ [n]) (v, s.reg (R.PORT_CMIS_ADDR n), s.dataWords (R.PORT_CMIS_DATA n))
    (s.setBit a F.PORT_CMIS_CMD.GO true).cmisResult n 15

/-- The vendor firmware completes the request of port n: no older request of its cage waits. Result 0, 2 or 3 of Table 22.9, and
the bytes read. A write whose bit of SB_CMIS_WR has been cleared meanwhile is not served (R601). -/
def State.cmisDone (s : State) (n res : Nat) (bs : Bytes) : State :=
  let older := s.side.cmis.takeWhile fun k => k ≠ n
  let cage := s.reg (R.SB_CAGE_MAP n)
  if !s.side.cmis.contains n || (older.any fun k => s.reg (R.SB_CAGE_MAP k) == cage) || !([0, 2, 3].contains res) then s
  else
    let (v, ad, data) := s.cmisReq n
    let wr := decide (fldOf v F.PORT_CMIS_CMD.WRITE = 1)
    let len := fldOf v F.PORT_CMIS_CMD.LEN
    let s := (s.setCmis n (s.side.cmis.erase n) (0, 0, [])).setBit (R.PORT_CMIS_CMD n) F.PORT_CMIS_CMD.GO false
    if wr && !s.cmisMayWrite n then s.cmisResult n 4
    else
      let s := (s.cmisResult n res).emit (.cmis n cage (fldOf ad F.PORT_CMIS_ADDR.BANK) (fldOf ad F.PORT_CMIS_ADDR.PAGE)
        (fldOf ad F.PORT_CMIS_ADDR.OFFSET) (if wr then data.take len else []))
      if decide (res = 0) && !wr then s.setDataWords (R.PORT_CMIS_DATA n) (bs.take len) else s

/-- A Pitch reset aborts the mailbox of port n. -/
def State.cmisAbort (s : State) (n : Nat) : State :=
  if s.side.cmis.contains n then
    ((s.setCmis n (s.side.cmis.erase n) (0, 0, [])).setBit (R.PORT_CMIS_CMD n) F.PORT_CMIS_CMD.GO false).cmisResult n 6
  else s

/-! ### The SMBus target (R602, Table 22.10) -/

/-- One bit, and one byte, of the CRC-8 of an SMBus PEC: x^8 + x^2 + x + 1, most significant bit first (log entry 92). -/
def pecBit (c : Nat) : Nat := if 128 ≤ c then Nat.xor (c * 2 % 256) 7 else c * 2
def pecByte (c : Nat) (b : Byte) : Nat :=
  let x := Nat.xor c b.toNat
  pecBit (pecBit (pecBit (pecBit (pecBit (pecBit (pecBit (pecBit x)))))))

/-- The PEC of a read of command `code` that gives `bs`: over the address with the write bit, the code, the address with the read bit, a Block
Read's count, and the data. -/
def smbPec (code : Nat) (block : Bool) (bs : Bytes) : Byte :=
  let head : Bytes := [0x58, BitVec.ofNat 8 code, 0x59] ++ (if block then [BitVec.ofNat 8 bs.length] else [])
  BitVec.ofNat 8 ((head ++ bs).foldl pecByte 0)

/-- The target answers, from the end of step 2 while the rails stand: the data of the command, with its PEC where the host clocks it. It does
not acknowledge a write protocol, or a code of no command (R602). -/
def State.smbAnswer (s : State) (code : Nat) (ask : SmbAsk) (block : Bool) (bs : Bytes) : State :=
  if s.stage ≤ 1 ∨ !s.pw.alive then s
  else match ask with
  | .read pec => s.emit (.smbus (bs ++ if pec then [smbPec code block bs] else []))
  | .write => s.emit .smbusNack
  | .other c => if 6 < c.toNat then s.emit .smbusNack else s.emit (.smbus bs)

/-- A word, least significant byte first, 0xFFFF while its source is not running. -/
def smbWord (v : Option Nat) : Bytes := natLE 2 (v.getD 0xFFFF)

def State.smbStatus (s : State) : Bytes :=
  let b := fun (c : Bool) => if c then 1 else 0
  natLE 1 (b s.stopped * 128 + b s.faultNLow * 64 + b s.pw.trip * 32 + b (s.pw.fabricLost || s.pw.pcieLost) * 16 + s.stage)

/-- The hottest sensor that has been sampled. -/
def State.hottest (s : State) : Option Int :=
  ((List.range 64).filterMap s.sensor).foldl (fun m t => match m with
    | some x => some (max x t)
    | none => some t) none

/-- The Postilion has measured a Round (PST_VIN, PST_PIN). -/
def State.pstSampled (s : State) : Bool := decide (s.reg R.PST_VIN ≠ 0)

/-- IRQ_SUM[0], then IRQ_CTL[0].MAX_SEV, once the management fabric is clocked. -/
def State.smbIrq (s : State) : Bytes :=
  if s.pllOk 3 then natLE 4 (s.irqSum 0) ++ natLE 1 (s.irqMaxSev 0) else List.replicate 5 0xFF

/-- The fused serial, once step 3 has read the fuses (Table 20.2). -/
def State.smbSerial (s : State) : Bytes := if 3 ≤ s.stage then natLE 8 s.fuse.serial.toNat else List.replicate 8 0xFF

/-- The state of the PCIe link, once the endpoint is out of its internal reset (R538). -/
def State.smbPcie (s : State) : Bytes :=
  if s.pw.linkUp then natLE 1 (128 + s.pw.speed % 8 * 16 + s.pw.lanes % 16)
  else if s.pw.perst && s.pllOk 6 && s.pllOk 3 then natLE 1 0 else [0xFF]

/-! ### The TAP (R603) -/

/-- A code loaded into the TAP that names no instruction of a row of its own is BYPASS (R603). -/
def tapCode (c : BitVec 8) : Nat := if 1 ≤ c.toNat ∧ c.toNat ≤ 7 then 0xFF else c.toNat

/-- What the lands show under the TAP instruction `ir`: nothing under HIGHZ, what the boundary-scan register drives under another that takes
them (R90, R603). -/
def State.scanShow (s : State) (ir : Nat) : State :=
  if ir = 7 then s.emit (.scan none) else if s.landsTaken then s.emit (.scan (some s.side.bsr)) else s

/-- Set what the boundary-scan register drives. -/
def State.setBsr (s : State) (bits : List Bool) : State := { s with side := { s.side with bsr := bits } }

/-- A TAP instruction is taken, on a part whose rails stand. Where it gives back lands that the one before it held, the outputs return to what
the part's logic shows (R90, R603). -/
def State.jtagTake (s : State) (ir : Nat) (dr : Option (BitVec 32)) : State :=
  if !s.pw.alive then s
  else
    let t := { s with side := { s.side with ir := ir } }.emit (.jtag (BitVec.ofNat 8 ir) dr)
    if s.landsTaken && !t.landsTaken then t.landsBack else t.scanShow ir

/-- SAMPLE/PRELOAD puts bits into the boundary-scan register. The manual gives no cells of that register (log entry 92). -/
def State.jtagPreload (s : State) (bits : List Bool) : State :=
  if !s.pw.alive then s else (s.jtagTake 2 none).setBsr bits

/-- An instruction that takes the lands: accepted below STAGE 9, while stopped, or with EXTEST_EN; else the TAP loads BYPASS. -/
def State.jtagLands (s : State) (ir : Nat) : State :=
  let ok := decide (s.stage < 9) || s.stopped || s.bit R.DEV_JTAG_CTL F.DEV_JTAG_CTL.EXTEST_EN
  if !s.pw.alive then s
  else if ok then
    let s := if s.stage = 9 then s.setBit R.DEV_JTAG_CTL F.DEV_JTAG_CTL.USED true else s
    s.jtagTake ir none
  else (s.setBit R.DEV_JTAG_CTL F.DEV_JTAG_CTL.REFUSED true).jtagTake 0xFF none

end Sys2Proof.Machine
end

