-- ==== Sys2Proof/Machine/Ver.lean ====
section
/-! DEFINITION. Versions and group commits (chapter "Updating Tables Under Traffic"): the commands of VER_CMD, the group
operations, the commit as it crosses and lands, the drain, and the retiring and undoing of a group. -/

namespace Sys2Proof.Machine

def State.verSt (s : State) (n : Nat) : VerSt := SMap.get (fun _ => {}) s.ver n
def State.setVer (s : State) (n : Nat) (v : VerSt) : State := { s with ver := SMap.put (fun _ => {}) s.ver n v }

def State.verState (s : State) (n : Nat) : Nat := s.fld (R.VER_STATUS n) F.VER_STATUS.STATE
def State.setVerState (s : State) (n v : Nat) : State := s.setFld (R.VER_STATUS n) F.VER_STATUS.STATE v

/-- The tag of the next version: pending in OPEN and COMMITTING (Table 9.1). -/
def State.verTag (s : State) (n : Nat) : Nat := (s.reg (R.VER_NUM n)).toNat % 2

/-! ### Marked locations (R249, R251) -/

/-- The marked exact-match locations of pipeline p: stage and location. -/
def State.emMarked (s : State) (p : Nat) : List (Nat × Nat) :=
  s.em.flatMap fun e => if e.1 / 24 = p then (e.2.rows.filter fun r => r.2.marked).map fun r => (e.1 % 24, r.1) else []

/-- The marked TCAM entries of pipeline p. -/
def State.tcMarked (s : State) (p : Nat) : List Nat := ((s.tcPipe p).rows.filter fun r => r.2.marked).map (·.1)

/-- VER_PIPE.ROWS. -/
def State.verRows (s : State) (p : Nat) : Nat := (s.emMarked p).length + (s.tcMarked p).length

/-! ### Live packets (R258) -/

/-- The old tag of the Pitch, while packets of it count. -/
def State.oldTag (s : State) (n : Nat) : Option Bool :=
  if s.verState n = 2 then some (decide (s.verTag n = 1)) else if s.verState n = 3 then some (decide (s.verTag n = 0)) else none

/-- The packets that count in pipeline p: before enqueue in its ingress half, from enqueue on at its ports. -/
def State.livePkts (s : State) (p : Nat) : List Pkt :=
  let q := s.pipe p
  ((List.range 25).flatMap fun i => s.waiting p i) ++ q.egress ++ q.repl.map (·.1) ++
    (s.tm.q.flatMap fun e => if pipeOfPort (e.1 / 16) = p then e.2.pkts else [])

/-- VER_OLD_LIVE[p]. -/
def State.oldLive (s : State) (p : Nat) : Nat :=
  match s.oldTag (s.ownerOfPipe p) with
  | none => 0
  | some t => ((s.livePkts p).filter fun k => k.runs && (k.tag == t)).length

/-! ### Commands (R248, R252, R253) -/

/-- VER_CMD reports a result; every refusal sets CMD_REFUSED. -/
def State.verResult (s : State) (n r : Nat) : State :=
  let s := s.setFld (R.VER_CMD n) F.VER_CMD.RESULT r
  if r = 0 ∨ r = 3 then s else s.cause (R.VER_CAUSE n) F.VER_CAUSE.CMD_REFUSED

def State.verOpen (s : State) (n : Nat) : State :=
  let st := s.verState n
  if s.inReset n then s.verResult n 2
  else if st = 0 then (s.setVerState n 1).verResult n 0
  else if st = 3 ∨ st = 4 ∨ st = 5 then (s.setBit (R.VER_STATUS n) F.VER_STATUS.OPEN_HELD true).verResult n 3
  else s.verResult n 1

/-- An accepted commit leaves the version block toward every pipeline of the Pitch (R253). -/
def State.commitLeave (s : State) (n : Nat) : State :=
  let s := s.setVer n { s.verSt n with atRound := none }
  (s.pipesOf n).foldl (fun s p => s.setPipe p { s.pipe p with landing := true }) (s.setVerState n 2)

/-- The boundaries up to the one that applies a write made now (R36). -/
def State.boundariesLeft (s : State) : Nat := if s.lateInRound then 2 else 1

/-- A group operation runs in a pipeline of Pitch n (R252, R253). -/
def State.groupRuns (s : State) (n : Nat) : Bool := (s.pipesOf n).any fun p => s.bit (R.VER_GW_CMD p) F.VER_GW_CMD.GO

/-- COMMIT (R253, R255). DESIGN CHOICE: one accepted while another waits for its Round boundary takes that one's place, with its own boundary or,
with AT_ROUND 0, at once, so that the two give one version (log entry 174). -/
def State.verCommit (s : State) (n : Nat) : State :=
  let st := s.verState n
  if s.inReset n then s.verResult n 2
  else if 2 ≤ st then s.verResult n 1
  else if s.groupRuns n then s.verResult n 5
  else
    let s := s.verResult n 0
    if s.bit (R.VER_CMD n) F.VER_CMD.AT_ROUND then s.setVer n { s.verSt n with atRound := some s.boundariesLeft }
    else s.commitLeave n

/-- An abandoned group takes with it a commit that still waits for its boundary. -/
def State.verAbandon (s : State) (n : Nat) : State :=
  if s.inReset n then s.verResult n 2
  else if s.verState n ≠ 1 then s.verResult n 1
  else if s.groupRuns n then s.verResult n 5
  else ((s.setVer n { s.verSt n with atRound := none }).setVerState n 5).verResult n 0

/-- A CMD of 0 or 4 to 15 (Table 9.4). DESIGN CHOICE: of a Pitch in reset it shows RESULT 0x2 rather than 0x4 (log entry 174). -/
def State.verBadCmd (s : State) (n : Nat) : State := if s.inReset n then s.verResult n 2 else s.verResult n 4

/-- VER_CMD.GO with CMD and AT_ROUND as written. -/
def State.verGo (s : State) (n : Nat) : State :=
  match s.fld (R.VER_CMD n) F.VER_CMD.CMD with
  | 1 => s.verOpen n
  | 2 => s.verCommit n
  | 3 => s.verAbandon n
  | _ => s.verBadCmd n

/-- At a Round boundary the commits that wait for it leave (R255). -/
def State.verRound (s : State) : State :=
  ((List.range 16).map (· + 1)).foldl (fun s n =>
    match (s.verSt n).atRound with
    | none => s
    | some k =>
      if 1 < k then s.setVer n { s.verSt n with atRound := some (k - 1) }
      else if s.verState n ≤ 1 then s.commitLeave n
      else s.setVer n { s.verSt n with atRound := none }) s

/-! ### Landing, drain and retire (R254, R258 to R260) -/

/-- Pipeline p applies a crossing commit (R254). -/
def State.commitApply (s : State) (p : Nat) : State :=
  let n := s.ownerOfPipe p
  if !(s.pipe p).landing then s
  else
    let s := s.setPipe p { s.pipe p with landing := false }
    let s := s.setFld (R.VER_PIPE p) F.VER_PIPE.TAG (1 - s.verTag n)
    if (s.pipesOf n).any fun q => (s.pipe q).landing then s
    else
      let s := s.addWrap32 (R.VER_NUM n) 1
      let s := s.setFld (R.VER_STATUS n) F.VER_STATUS.TAG (s.verTag n)
      (s.setVer n { s.verSt n with applied := s.t16, appliedNow := s.time.now, late := false }).setVerState n 3

/-- The drain of Pitch n is complete. -/
def State.drainComplete (s : State) (n : Nat) : State :=
  if s.verState n ≠ 3 || (s.pipesOf n).any fun p => decide (s.oldLive p ≠ 0) then s
  else
    let ns := min (2 ^ 32 - 1) ((s.t16 - (s.verSt n).applied) / 16)
    let s := s.setReg (R.VER_DRAIN_LAST n) (BitVec.ofNat 32 ns)
    (s.setVer n { s.verSt n with late := false }).setVerState n 4

/-- The drain limit of Pitch n has passed, in time clock cycles from the last application, and packets of the old tag live (R260, R330).
A LIMIT of 0 sets none, and one above 1,000,000 µs acts as 1,000,000. -/
def State.drainLate (s : State) (n : Nat) : Bool :=
  let lim := min 1000000 (s.fld (R.VER_DRAIN_LIMIT n) F.VER_DRAIN_LIMIT.LIMIT)
  decide (lim ≠ 0 ∧ (s.verSt n).appliedNow + 1000 * lim ≤ s.time.now) && (s.pipesOf n).any fun p => decide (s.oldLive p ≠ 0)

/-- The drain limit passes with the drain incomplete (R260). -/
def State.drainTimeout (s : State) (n : Nat) : State :=
  if s.verState n ≠ 3 || (s.verSt n).late || !s.drainLate n then s
  else (s.setVer n { s.verSt n with late := true }).ariseF (R.VER_CAUSE n) F.VER_CAUSE.DRAIN_TIMEOUT

/-- The engines of pipeline p end a group: locations visible to tag `gone` only are cleared, those visible to tag `kept` only
become visible to both; `stamp` gives them the current unit (R252, R259). DESIGN CHOICE: a row that an abandon frees can receive a stash entry, as
R259 says of one that retire frees (log entry 174). -/
def State.verSweep (s : State) (p gone : Nat) (stamp : Bool) : State :=
  let s := (s.emMarked p).foldl (fun s e =>
    let r := s.emRow p e.1 e.2
    if r.see = 2 ^ gone then (s.setEmRow p e.1 e.2 r.clear).emFreed p e.1 e.2
    else if stamp then s.setEmRow p e.1 e.2 { r with see := 3, ts := s.emUnit p e.1 (locTable e.2), tsBad := false }
    else s.setEmRow p e.1 e.2 { r with see := 3 }) s
  (s.tcMarked p).foldl (fun s k =>
    let r := s.tcRow p k
    s.setTcRow p k (if r.see = 2 ^ gone then r.clear else { r with see := 3 })) s

/-- STATE returns to IDLE; a held OPEN takes effect. -/
def State.verIdle (s : State) (n : Nat) : State :=
  if s.bit (R.VER_STATUS n) F.VER_STATUS.OPEN_HELD then
    (s.setBit (R.VER_STATUS n) F.VER_STATUS.OPEN_HELD false).setVerState n 1
  else s.setVerState n 0

def State.retireDone (s : State) (n : Nat) : State :=
  if s.verState n ≠ 4 then s
  else ((s.pipesOf n).foldl (fun s p => s.verSweep p (1 - s.verTag n) true) s).verIdle n

def State.abandonDone (s : State) (n : Nat) : State :=
  if s.verState n ≠ 5 then s
  else ((s.pipesOf n).foldl (fun s p => s.verSweep p (1 - s.verTag n) false) s).verIdle n

/-! ### Group operations (R249 to R251) -/

/-- A group operation shows a result and a location; GO reads 1 while the result is 0xF, busy. DESIGN CHOICE: LOC reads 0 where no location was
placed or marked: while busy, and after a refusal, a miss or an abort (R249, log entry 174). -/
def State.gwDone (s : State) (p res loc : Nat) : State :=
  ((s.setFld (R.VER_GW_STATUS p) F.VER_GW_STATUS.RESULT res).setFld (R.VER_GW_STATUS p) F.VER_GW_STATUS.LOC loc).setBit (R.VER_GW_CMD p)
    F.VER_GW_CMD.GO (decide (res = 0xF))

/-- Place the entry of STG_IA_DATA in the pending view `v`. -/
def State.gwPlace (s : State) (p st t v : Nat) : Option Nat × State :=
  match s.emInsert p st t (s.iaEntry p st t) (2 ^ v) false with
  | (.inserted l, s) => (some l, s)
  | (.stashed l, s) => (some l, s)
  | (_, s) => (none, s)

/-- The location of the key of STG_IA_DATA that the pending view shows. -/
def State.gwFind (s : State) (p st t v : Nat) : Option Nat × State :=
  let key := slice (s.iaBytes p st (s.emE p st t)) 4 (s.emK p st t)
  let (hit, bad) := s.emFind p st t key (seen v)
  (hit, s.emParities p st bad)

def State.gInsert (s : State) (p st t v : Nat) : State :=
  match s.gwFind p st t v with
  | (some _, s) => s.gwDone p 2 0
  | (none, s) =>
    if 2048 < s.verRows p + 1 then s.gwDone p 5 0
    else
      match s.gwPlace p st t v with
      | (some l, s) => s.gwDone p 0 (l % 2 ^ 20)
      | (none, s) => s.gwDone p 3 0

def State.gReplace (s : State) (p st t v : Nat) : State :=
  match s.gwFind p st t v with
  | (none, s) => s.gwDone p 1 0
  | (some l, s) =>
    let r := s.emRow p st l
    if r.marked then s.gwDone p 8 0
    else if 2048 < s.verRows p + 2 then s.gwDone p 5 0
    else
      match (s.setEmRow p st l { r with see := 2 ^ (1 - v) }).gwPlace p st t v with
      | (some l', s) => s.gwDone p 0 (l' % 2 ^ 20)
      | (none, s') => (s'.setEmRow p st l { s'.emRow p st l with see := 3 }).gwDone p 3 0

def State.gDelete (s : State) (p st t v : Nat) : State :=
  match s.gwFind p st t v with
  | (none, s) => s.gwDone p 1 0
  | (some l, s) =>
    let r := s.emRow p st l
    if r.marked then s.gwDone p 8 0
    else if 2048 < s.verRows p + 1 then s.gwDone p 5 0
    else (s.setEmRow p st l { r with see := 2 ^ (1 - v) }).gwDone p 0 (l % 2 ^ 20)

/-- G_TC_INSERT, of which a placed entry goes on with its copies. -/
def State.gTcInsert (s : State) (p st t v : Nat) : State :=
  if 2048 < s.verRows p + 1 then (s.tcFree p).gwDone p 5 0
  else
    match s.tcInsert p st t (s.tcIaEntry p st t (2 ^ v)) with
    | .inl r => (s.tcFree p).gwDone p (if r = 2 then 3 else 4) 0
    | .inr m => s.tcStart p m

def State.gTcDelete (s : State) (p st t v a : Nat) : State :=
  let r := s.tcRow p (tcKey st t a)
  if !r.valid then s.gwDone p 1 0
  else if r.marked then s.gwDone p 8 0
  else if 2048 < s.verRows p + 1 then s.gwDone p 5 0
  else (s.setTcRow p (tcKey st t a) { r with see := 2 ^ (1 - v) }).gwDone p 0 a

/-- The result that refuses the group operation of the word `c` (Table 9.5); 0 where none does. Once a commit that waits for its boundary is
accepted no further operation joins the group (R256). DESIGN CHOICE: the result is then 0x7 (log entry 165). -/
def State.gwRefusal (s : State) (p : Nat) (c : Word) : Nat :=
  let op := fldOf c F.VER_GW_CMD.OP
  let st := fldOf c F.VER_GW_CMD.STAGE
  let t := fldOf c F.VER_GW_CMD.TABLE
  if s.pipeHeld p || (s.pipe p).img.isNone then 9
  else if 5 ≤ op || decide (24 ≤ st) || (if op ≤ 2 then !s.emDefined p st t else !s.tcDefined p st t) ||
      (decide (op = 4) && decide (1024 * s.tcSlices p st t ≤ fldOf c F.VER_GW_CMD.ADDR)) then 6
  else if s.verState (s.ownerOfPipe p) ≠ 1 ∨ (s.verSt (s.ownerOfPipe p)).atRound.isSome then 7
  else 0

/-- VER_GW_CMD.GO of pipeline p with its other fields as written: the operation is judged, and stands in the place of the indirect
command of its engine (R250, Tables 9.2 and 9.5). -/
def State.gwGo (s : State) (p : Nat) : State :=
  let c := s.reg (R.VER_GW_CMD p)
  let r := s.gwRefusal p c
  if r ≠ 0 then s.gwDone p r 0
  else
    let s := s.gwDone p 0xF 0
    if fldOf c F.VER_GW_CMD.OP ≤ 2 then s.iaTake p (fldOf c F.VER_GW_CMD.STAGE) (.group c) else s.tcTake p (.group c)

/-- The engine carries out the group operation of the word `c`. -/
def State.gwRun (s : State) (p : Nat) (c : Word) : State :=
  let op := fldOf c F.VER_GW_CMD.OP
  let st := fldOf c F.VER_GW_CMD.STAGE
  let t := fldOf c F.VER_GW_CMD.TABLE
  let v := 1 - s.verTag (s.ownerOfPipe p)
  let r := s.gwRefusal p c
  if r ≠ 0 then (if op ≤ 2 then s else s.tcFree p).gwDone p r 0
  else
    match op with
    | 0 => s.gInsert p st t v
    | 1 => s.gReplace p st t v
    | 2 => s.gDelete p st t v
    | 3 => s.gTcInsert p st t v
    | _ => (s.tcFree p).gTcDelete p st t v (fldOf c F.VER_GW_CMD.ADDR)

/-! ### The turns of the engines (R168, R201, R203, R250) -/

/-- The table engine of a stage has a tick: while an invalidation or an operation as source 2 stands, the one that runs, or that R168 puts first
when the engine is free, ends at a tick that is open, the 48th at the latest. -/
def State.iaTurn (s : State) (p st : Nat) : State :=
  let e := s.emStage p st
  if e.toClear.isEmpty && e.job.isNone then s
  else
    let onJob := e.job.isSome && (if e.free then e.toClear.isEmpty else e.onJob || e.toClear.isEmpty)
    let (ends, s) := s.freeBool
    if !ends && decide (e.busy < 47) then s.setEmStage p st { e with busy := e.busy + 1, onJob := onJob }
    else
      let s := s.setEmStage p st { e with busy := 0 }
      if !onJob then s.parityInvalidate p st
      else
        let s := (s.setEmStage p st { e with busy := 0, job := none }).setBit (R.STG_IA_CMD p st) F.STG_IA_CMD.GO false
        match e.job with
        | some (.group c) => s.gwRun p c
        | _ => s.iaRun p st

/-- One tick of an INSERT that is placed: a copy, or at the end the entry itself (R202, R203). DESIGN CHOICE: a G_TC_INSERT counts in TC_INSERTS
and TC_MOVES and shows TC_IA_STATUS.MOVES as an indirect INSERT does (R250, log entry 174). -/
def State.tcMoveTurn (s : State) (p : Nat) (m : TcMove) : State :=
  match m.todo with
  | c :: rest =>
    let s := s.tcCopy p c
    s.setTcPipe p { s.tcPipe p with move := some { m with todo := rest, pair := some c } }
  | [] =>
    let j := (s.tcPipe p).job
    let s := ((s.setTcRow p m.key m.row).addCnt (C.TC_MOVES p) m.copies).addCnt (C.TC_INSERTS p) 1
    let s := s.setTcPipe p { s.tcPipe p with move := none }
    let s := (s.tcFree p).setFld (R.TC_IA_STATUS p) F.TC_IA_STATUS.MOVES m.copies
    match j with
    | some (.group _) => s.gwDone p 0 (m.key % 2 ^ 17)
    | _ => s.tcDone p 0 (m.key % 2 ^ 17)

/-- An ordered insertion stands as source 2. -/
def State.tcInserts (s : State) (p : Nat) : Bool :=
  match (s.tcPipe p).job with
  | some .indirect => decide (s.fld (R.TC_IA_CMD p) F.TC_IA_CMD.OP = 2)
  | some (.group c) => decide (fldOf c F.VER_GW_CMD.OP = 3)
  | none => false

/-- A tick of the operation `j` that stands as source 2: it ends at a tick that is open, a position search at its 16th at the latest,
another operation at its 1,024th (R203, R210, log entry 136). -/
def State.tcJobTurn (s : State) (p : Nat) (j : EngJob) : State :=
  let q := s.tcPipe p
  let (ends, s) := s.freeBool
  if !ends && decide (q.busy + 1 < (if s.tcInserts p then 16 else 1024)) then s.setTcPipe p { q with busy := q.busy + 1 }
  else
    let s := s.setTcPipe p { q with busy := 0 }
    match j with
    | .group c => s.gwRun p c
    | .indirect => s.tcRun p

/-- The TCAM engine of a pipeline has a tick (R201). What runs goes on: an INSERT that is placed makes a copy. When the engine is free it
takes an invalidation, then the scrubber where that is late, then the operation that stands as source 2. -/
def State.tcTurn (s : State) (p : Nat) : State :=
  let s := s.setTcPipe p { s.tcPipe p with since := (s.tcPipe p).since + 1 }
  let q := s.tcPipe p
  match q.move with
  | some m => s.tcMoveTurn p m
  | none =>
    if !q.runs && !q.toClear.isEmpty then s.tcInvalidate p
    else if !q.runs && s.scrubLate p then s.scrubStep p
    else
      match q.job with
      | none => s
      | some j => s.tcJobTurn p j

/-! ### Pitch reset (R263) -/

def State.verReset (s : State) (n : Nat) : State :=
  let s := (s.setReg (R.VER_STATUS n) 0).setReg (R.VER_NUM n) 0
  let s := (s.setVer n {}).setReg (R.VER_CAUSE n) 0
  (s.pipesOf n).foldl (fun s p =>
    let s := s.setPipe p { s.pipe p with landing := false }
    let s := if s.bit (R.VER_GW_CMD p) F.VER_GW_CMD.GO then s.gwDone p 0xA 0 else s
    (s.setFld (R.VER_PIPE p) F.VER_PIPE.TAG 0).setCnt (C.VER_GRP_LOST p) 0) s

end Sys2Proof.Machine
end

