-- ==== Sys2Proof/Machine/Pitch.lean ====
section
/-! DEFINITION. Pitches (chapter "Pitches and the Warden"): who owns a register, reset entry and release (R69 to R74), the
commit of boundaries (R63 to R67), and the settings of R45, R77 and R78. -/

namespace Sys2Proof.Machine

/-! ### Ownership of registers (R42, Table 2.2) -/

/-- The owner whose register, counter or shared Pitch-wide or pipeline-wide register stands at `a`: a Pitch, or 0; none for a block
that is not divided. -/
def State.regOwner (s : State) (a : Nat) : Option Nat :=
  if 0x20300000 ≤ a then none
  else if 0x20200000 ≤ a then some (s.ownerOfPipe ((a - 0x20200000) / 0x4000))
  else if 0x20000000 ≤ a then some (a % 0x100000 / 0x1000)
  else match regionOf a with
  | .irqPage n | .pitPage n | .tt n | .wbStrm n | .bpmPage n | .ostOwn n | .cnt n | .dma n | .ring n _ => some n
  | .lg g | .lane g _ => some (s.ownerOfPipe (g / 4))
  | .port n | .tmPort n => some (s.ownerOfPort n)
  | .tmPipe p | .bpmWr p | .par p | .stg p _ | .tc p | .ver p | .berth p => some (s.ownerOfPipe p)
  | .ostThr c k t => some (s.quadOwner (32 * c + 4 * k + t / 4))
  | _ => none

/-! ### Reset entry (R70, Table 2.4, Table 2.5) -/

def State.held2 (s : State) (n : Nat) : Bool :=
  s.bit (R.PIT_CTL n) F.PIT_CTL.WARDEN_HOLD || s.bit (R.PIT_CTL n) F.PIT_CTL.SELF_RESET

/-- The packets and frames that steps 1 to 4 of Table 2.4 drop. -/
def State.resetPkts (s : State) (n : Nat) : Nat :=
  let pipes := (s.pipesOf n).map fun p =>
    let q := s.pipe p
    q.entry.length + q.egress.length + (q.at_.map fun e => e.2.length).sum + (q.repl.map fun e => e.2.length).sum
  let qs := s.tm.q.map fun e => if s.ownerOfPort (e.1 / 16) = n then e.2.pkts.length else 0
  let tx := s.tm.ports.map fun e => if s.ownerOfPort e.1 = n then e.2.tx.length else 0
  pipes.sum + qs.sum + tx.sum

/-- The berths of one half that hold dropped packets are wasted and counted: with the packets the columns are gone (R481, Table 2.4). -/
def State.wasteCols (s : State) (p : Nat) (eg : Bool) : State :=
  ((s.cols p eg).foldl (fun s c => s.colCount p eg { c with left := 0, wasted := c.wasted + c.left }) s).setCols p eg []

/-- Step 2 for pipeline p: its packets are dropped; a swap whose check has passed is aborted (R236). The image stays. -/
def State.pipeClear (s : State) (p : Nat) : State :=
  let q := s.pipe p
  let ks := q.entry ++ q.egress ++ q.at_.flatMap (·.2)
  let s := ks.foldl (fun s k => s.pktGone k false) s
  let s := q.repl.foldl (fun s e => e.2.foldl (fun s _ => s.mcDone e.1.handle) s) s
  let s := (s.wasteCols p false).wasteCols p true
  let s := if q.swapDue then s.setFld (R.STG_UC_SWAP p) F.STG_UC_SWAP.RESULT 4 else s
  let s := if q.swapDue then s.setBit (R.STG_UC_SWAP p) F.STG_UC_SWAP.GO false else s
  let s := s.setBit (R.STG_UC_SWAP p) F.STG_UC_SWAP.DRAINING false
  let s := s.setPipe p { img := q.img }
  let pol := s.tm.pol.filterMap fun e =>
    if e.1 / 2 ^ 16 = p then (if e.2.cfg = {} then none else some (e.1, { cfg := e.2.cfg })) else some e
  let grp := SMap.drop s.tm.grp fun i => i / 2 ^ 12 == p
  let slot := SMap.drop s.tm.slot fun i => i / 2 ^ 16 == p
  let s := { s with tm := { s.tm with pol := pol, grp := grp, slot := slot } }
  let s := (List.range 24).foldl (fun s st => s.emReset p st) s
  s.tcReset p

/-- What a Pitch reset does with the lanes of pipeline p: running scans end, checkers restart, the LMF alarms start anew, and the lane
groups are off. -/
def State.lanesClear (s : State) (p : Nat) : State :=
  let s := (List.range 64).foldl (fun s i =>
    let l := 64 * p + i
    let s := if s.eyeBusy l then s.eyeEnd l 0 else s
    let s := s.lmfClear l
    if s.prbsErrs l = 0 then s else s.prbsRestart l) s
  (List.range 4).foldl (fun s i => s.lgOff (4 * p + i)) s

/-- The registers beside causes that a reset of Pitch n returns to their reset values. -/
def pitchClears : List RegId :=
  [.PIT_XDROP, .IRQ_PEND, .IRQ_LAST_ID, .IRQ_LAST_S, .IRQ_LAST_SF, .IRQ_LAST_NS, .IRQ_HIST_LOST, .PORT_TT_LATE_MAX, .PORT_TT_TIE,
   .STG_PAR_ADDR, .TC_ERR_ADDR]

/-- The register at `a` is cleared by a reset of Pitch n: a cause of its tree, or one of `pitchClears`. -/
def State.pitchCleared (s : State) (n a : Nat) : Bool :=
  ((s.causeLocs a).1.any fun l => l.owner == n) ||
  (decide (s.regOwner a = some n) && (findReg (windowOf a)).any fun r => pitchClears.contains r.2.1.id)

/-- The pipeline whose own register, counter or shared pipeline-wide register stands at `a`. -/
def pipeAt (a : Nat) : Option Nat :=
  if 0x20200000 ≤ a ∧ a < 0x20300000 then some ((a - 0x20200000) / 0x4000)
  else if 0x20000000 ≤ a then none
  else match regionOf a with
  | .lg g | .lane g _ => some (g / 4)
  | .port n | .tmPort n => some (n / 64)
  | .tmPipe p | .par p | .stg p _ | .tc p | .berth p => some p
  | _ => none

/-- The register at `a` is cleared with pipeline p when it changes owner (R66): a cause of its blocks, or one of `pitchClears`. -/
def pipeCleared (p a : Nat) : Bool :=
  decide (pipeAt a = some p) && (findReg (windowOf a)).any fun r => decide (sevList r.2.1.id ≠ []) || pitchClears.contains r.2.1.id

/-- A Round-effective value that a reset of Pitch n discards (R37). The Warden's power registers and the formations are not the
Pitch's. -/
def State.pitchPends (s : State) (n a : Nat) : Bool := decide (s.regOwner a = some n)

/-- The pending values of the registers that `p` picks are discarded. -/
def State.dropPend (s : State) (p : Nat → Bool) : State :=
  { s with pendRegs := SMap.drop s.pendRegs p, lateRegs := SMap.drop s.lateRegs p }

/-- Reset entry of Pitch n, all of Table 2.4. -/
def State.pitchEnter (s : State) (n : Nat) : State :=
  let ps := s.pipesOf n
  let ports := ps.flatMap fun p => (List.range 64).map (64 * p + ·)
  let s := s.wbTick
  let count := s.resetPkts n
  let now := s.tnow
  let s := ports.foldl (fun s e => s.cmisAbort e) s
  let s := ports.foldl (fun s e => (s.portDisable e).setBit (R.TM_PORT_STATUS e) F.TM_PORT_STATUS.DOWN_DROP false) s
  let s := ps.foldl (fun s p => s.pipeClear p) s
  let mine := fun (e : Nat) => s.ownerOfPort e == n
  let tm := { s.tm with
    q := SMap.drop s.tm.q fun i => mine (i / 16)
    ports := SMap.drop s.tm.ports mine
    occ := SMap.drop s.tm.occ fun i => mine (i / 16)
    mc := s.tm.mc.filter fun e => !(e.2.any fun r => s.rqOwner r.rq == n)
    mcast := SMap.drop s.tm.mcast (s.mcInRange n) }
  let ts := { s.ts with txq := SMap.drop s.ts.txq mine, late := SMap.drop s.ts.late (· == n) }
  let s := { s with tm := tm, ts := ts }
  let s := ports.foldl (fun s e => s.setReg (R.TM_FC_STATUS e) 0) s
  let s := (s.ostReset n).dmaPitchReset n
  let s := (s.bpmReleaseAll fun c => s.rqOwner c == n && c != rqCode n 5).setAudQ n []
  let s := if (s.recl n).isSome then s.reclaimEnd n 5 else s
  let s := s.wbReset n ⟨count, now, now⟩
  let s := (s.verReset n).cntReset n
  let s := ps.foldl (fun s p => s.lanesClear p) s
  let s := ps.foldl (fun s p => (pipeDoms p).foldl (fun s d => s.domDown d) s) s
  let s := (s.setReg (R.PST_PIT_GRANT n) 0).kRefresh
  let s := s.dropPend (s.pitchPends n)
  let s := { s with regs := SMap.drop s.regs (s.pitchCleared n) }
  let s := s.clearCnts fun a => decide (s.regOwner a = some n)
  { s with irq := { s.irq with hist := SMap.drop s.irq.hist (· == n), last := SMap.drop s.irq.last (· == n) } }

/-- Pitch n leaves reset (R74, R152, R324, R430, R456, R570): every bucket is full, a pipeline that a run-time fault holds may be admitted
again, and the supervisor starts. -/
def State.pitchLeave (s : State) (n : Nat) : State :=
  let ps := s.pipesOf n
  let mine := fun (e : Nat) => s.ownerOfPort e == n
  let tm := { s.tm with
    q := SMap.drop s.tm.q fun i => mine (i / 16)
    ports := SMap.drop s.tm.ports mine
    pol := s.tm.pol.map fun e => if ps.contains (e.1 / 2 ^ 16) then (e.1, { e.2 with b := {} }) else e }
  let s := { s with tm := tm, excPol := SMap.drop s.excPol (· == n) }
  let s := (ps.flatMap pipeDoms).foldl (fun s d =>
    if SMap.get (fun _ => false) s.pw.faulted d then
      { s.setDomBit R.PST_DOM_FAIL d false with pw := { s.pw with faulted := SMap.put (fun _ => false) s.pw.faulted d false } }
    else s) s
  s.ostRelease1 n

/-- The Pitches that leave reset at the end of a management fabric cycle. -/
def State.setPitLeave (s : State) (ns : List Nat) : State := { s with irq := { s.irq with pitLeave := ns } }

/-- The Pitches that enter reset at the end of the management fabric cycle. -/
def State.setPitEnter (s : State) (ns : List Nat) : State := { s with irq := { s.irq with pitEnter := ns } }

/-- The state of Pitch n follows its two bits of PIT_CTL, which held it before or not (R69). It enters and leaves reset at the end of the
management fabric cycle, so that writes of one cycle act as their results. -/
def State.pitFollow (s : State) (n : Nat) (was : Bool) : State :=
  if !s.pitchExists n then s
  else if !was && s.held2 n then
    (if s.irq.pitLeave.contains n then s.setPitLeave (s.irq.pitLeave.filter (· != n)) else s.setPitEnter (s.irq.pitEnter ++ [n]))
  else if was && !s.held2 n then
    (if s.irq.pitEnter.contains n then s.setPitEnter (s.irq.pitEnter.filter (· != n)) else s.setPitLeave (s.irq.pitLeave ++ [n]))
  else s

/-- The management fabric cycle ends: the Pitches that a bit newly holds enter reset, and those that no bit holds leave it. -/
def State.pitCycleEnd (s : State) : State :=
  let s := s.irq.pitEnter.foldl (fun s n => s.pitchEnter n) (s.setPitEnter [])
  s.irq.pitLeave.foldl (fun s n => s.pitchLeave n) (s.setPitLeave [])

/-- Pitch n's own function has written PIT_CTL[n] in the management fabric cycle that runs now (R69). -/
def State.pitWrote (s : State) (n : Nat) : Bool := decide (SMap.get (fun _ => 0) s.irq.pitCyc n = s.fabCycle + 1)

/-- A write of PIT_CTL[n] by function f reaches the Pitch (R69, R634). In a cycle in which function n has written SELF_RESET, function 0's
word is applied to WARDEN_HOLD alone. A hold write to a Pitch that owns no pipeline runs no entry of Table 2.4, where R70 is silent (DESIGN
CHOICE, log entry 135). -/
def State.pitCtlApply (s : State) (f n : Nat) (v : Word) : State :=
  let a := R.PIT_CTL n
  let hold := s.fld a F.PIT_CTL.WARDEN_HOLD
  let was := s.held2 n
  let s := if f ≠ 0 ∧ fldOf v F.PIT_CTL.WARDEN_HOLD ≠ hold then s.accessViolation f a true false else s
  let s := if f = 0 then s.setFld a F.PIT_CTL.WARDEN_HOLD (fldOf v F.PIT_CTL.WARDEN_HOLD) else s
  let s := if f = 0 && s.pitWrote n then s else s.setFld a F.PIT_CTL.SELF_RESET (fldOf v F.PIT_CTL.SELF_RESET)
  let s := if f = 0 then s else { s with irq := { s.irq with pitCyc := SMap.put (fun _ => 0) s.irq.pitCyc n (s.fabCycle + 1) } }
  s.pitFollow n was

/-- The owners `map` of pipelines 0 to 15 would change the set of pipelines of Pitch n (R64). -/
def State.mapAffects (s : State) (map : List Nat) (n : Nat) : Bool :=
  (List.range 16).any fun p =>
    let o := map.getD p 0
    decide (o ≠ s.ownerOfPipe p) && (decide (o = n) || decide (s.ownerOfPipe p = n))

/-- A write of PIT_CTL[n] by function f would take Pitch n out of reset. -/
def State.pitFrees (s : State) (f n : Nat) (v : Word) : Bool :=
  let a := R.PIT_CTL n
  let hold := if f = 0 then fldOf v F.PIT_CTL.WARDEN_HOLD else s.fld a F.PIT_CTL.WARDEN_HOLD
  let self := if f = 0 && s.pitWrote n then s.fld a F.PIT_CTL.SELF_RESET else fldOf v F.PIT_CTL.SELF_RESET
  s.held2 n && decide (hold = 0 ∧ self = 0)

/-- A write of PIT_CTL[n] by function f. While a commit that affects Pitch n runs, a write that would take it out of reset is held until the
commit completes (R68). -/
def State.pitCtlWrite (s : State) (f n : Nat) (v : Word) : State :=
  match s.pw.commit with
  | some c =>
    if s.mapAffects c.map n && s.pitFrees f n v then
      { s with pw := { s.pw with commit := some { c with held := c.held ++ [(f, n, v)] } } }
    else s.pitCtlApply f n v
  | none => s.pitCtlApply f n v

/-! ### Settings (R45, R77, R78) -/

def State.wardenIdle (s : State) : State := s.cause (R.IRQ_OWN_CAUSE 0) F.IRQ_OWN_CAUSE.IDLE_VIOL

/-- The range of Pitch n in units of 1,024 groups: first unit and count. -/
def mcRangeOf (w : Word) : Nat × Nat :=
  let c := fldOf w F.PIT_MC_RANGE.COUNT
  (fldOf w F.PIT_MC_RANGE.BASE, if 64 < c then 0 else c)

/-- A write of PIT_MC_RANGE[n]. -/
def State.mcRangeWrite (s : State) (n : Nat) (v : Word) : State :=
  let a := R.PIT_MC_RANGE n
  let v := v &&& 0x7F3F
  let r := mcRangeOf v
  let clash := (List.range 17).any fun m =>
    let q := mcRangeOf (s.reg (R.PIT_MC_RANGE m))
    decide (1 ≤ m ∧ m ≠ n ∧ r.2 ≠ 0 ∧ q.2 ≠ 0 ∧ r.1 < q.1 + q.2 ∧ q.1 < r.1 + r.2)
  if v = s.reg a then s
  else if !s.inReset n || clash || decide (r.2 ≠ 0 ∧ 64 < r.1 + r.2) then s.wardenIdle
  else s.setReg a v

/-- A write of PIT_BUF_RSV[n][q]. -/
def State.bufRsvWrite (s : State) (n q : Nat) (v : Word) : State :=
  let a := R.PIT_BUF_RSV n q
  let x := fldOf v F.PIT_BUF_RSV.RSV
  let others := ((List.range 17).map fun m =>
    if 1 ≤ m ∧ m ≠ n then s.fld (R.PIT_BUF_RSV m q) F.PIT_BUF_RSV.RSV else 0).sum
  if x = s.fld a F.PIT_BUF_RSV.RSV then s
  else if !s.inReset n || decide (s.poolCount q < others + x) then s.wardenIdle
  else s.setFld a F.PIT_BUF_RSV.RSV x

/-- A write of PIT_OST_OWNER[q]. -/
def State.ostOwnerWrite (s : State) (q : Nat) (v : Word) : State :=
  let new := fldOf v F.PIT_OST_OWNER.OWNER
  let cur := s.quadOwner q
  let still := (List.range 4).all fun i => (s.thr (4 * q + i)).stopped
  let ok := fun n => decide (n = 0) || s.held2 n
  if new = cur then s
  else if 17 ≤ new ∨ (q < 4 ∧ new ≠ 0) then s.wardenIdle
  else if !still || !ok cur || !ok new then s.wardenIdle
  else s.quadMove q new

/-! ### The commit (R63 to R68) -/

/-- The owner that stands staged for pipeline p. -/
def State.stagedOwner (s : State) (p : Nat) : Nat := s.fld (R.PIT_MAP_STAGE p) F.PIT_MAP_STAGE.OWNER

/-- The first condition of Table 2.3 that fails; 0 where every one holds. -/
def State.commitCheck (s : State) : Nat :=
  let ps := List.range 16
  let ch := ps.filter fun p => decide (s.stagedOwner p ≠ s.ownerOfPipe p)
  let hit := (ch.flatMap fun p => [s.stagedOwner p, s.ownerOfPipe p]).filter fun n => decide (n ≠ 0)
  let still := fun n => s.held2 n && !s.irq.pitEnter.contains n
  let dst := s.fld R.PIT_MIR_CTL F.PIT_MIR_CTL.DEST_PORT
  if ps.any fun p => decide (17 ≤ s.stagedOwner p) then 1
  else if ps.any fun p => decide (s.stagedOwner p ≠ 0) && s.pipeFused p then 2
  else if hit.any fun n => !still n then 3
  else if s.bit R.PIT_MIR_CTL F.PIT_MIR_CTL.EN && ch.contains (dst / 64) then 4
  else if s.pw.loads.any fun j => j.pipes.any ch.contains then 5
  else 0

/-- The register at `a` belongs to the switched domains of pipeline p, whose retention storage a change of owner clears (R498). -/
def pipeRetained (p a : Nat) : Bool :=
  decide (a < 0x20000000) && match regionOf a with
  | .lg g | .lane g _ => decide (g / 4 = p)
  | .par q | .stg q _ | .tc q | .berth q => decide (q = p)
  | _ => false

/-- The structure of pipeline p is removed (R66, R498): its image, its microcode in both banks, its table layouts, and the settings of its
lane groups, parser, stages and TCAM. DESIGN CHOICE: BANK, RESULT and STG_UC_SWAP_ERR of the customer banks, on which R236 is silent, return
to 0 with them. -/
def State.unload (s : State) (p : Nat) : State :=
  let s := s.setPipe p {}
  let s := (List.range 24).foldl (fun s st => s.setUcStore p st {}) s
  let s := { s with regs := SMap.drop s.regs fun a => decide (0x20200000 + p * 0x4000 ≤ a ∧ a < 0x20204000 + p * 0x4000) }
  let s := { s with regs := SMap.drop s.regs (pipeRetained p) }
  let s := (List.range 8).foldl (fun s i => s.setReg (R.DEV_IMG_HASH p i) 0) s
  (s.setBit (R.DEV_IMG_STATUS p) F.DEV_IMG_STATUS.LOADED false).setBit (R.DEV_IMG_STATUS p) F.DEV_IMG_STATUS.HOOKS false

/-- Pitch n, which owned pipelines, owns none (R67). -/
def State.pitchEmptied (s : State) (n : Nat) : State :=
  let s := s.setReg (R.PIT_MC_RANGE n) 0
  let s := (List.range 8).foldl (fun s q => s.setReg (R.PIT_BUF_RSV n q) 0) s
  let s := (s.quadsOf n).foldl (fun s q => s.quadMove q 0) s
  let ps := fun (a : Nat) => a / 65536 == n
  let s := { s with ost := { s.ost with ps := SMap.drop s.ost.ps ps, psBad := SMap.drop s.ost.psBad ps } }
  let s := (s.setBit (R.OST_OWN_STATUS n) F.OST_OWN_STATUS.FW false).setBit (R.OST_CUST_CTL n) F.OST_CUST_CTL.EN false
  let s := s.setCustState n 0
  let pst := fun (a : Nat) => a == R.PST_PIT_SHARE n || a == R.PST_PIT_CTL n
  let ids : List RegId := [.TT_CTL, .TT_FLOOR, .TT_ADV_CTL, .WB_STRM_QUOTA, .PAR_EXC_POL_CTL, .PAR_EXC_CIR, .PAR_EXC_PIR, .PAR_EXC_CBS,
    .PAR_EXC_PBS, .BPM_RQ_QUOTA, .CNT_MON_CTL, .CNT_MON_N, .CNT_SMP_CTL, .CNT_SMP_FILT]
  let back := fun (s : State) (a : Nat) => pst a ||
    (decide (s.regOwner a = some n) && (findReg (windowOf a)).any fun r => ids.contains r.2.1.id)
  let s := s.resetRegs (back s)
  { s with excPol := SMap.drop s.excPol (· == n) }

/-- The commit of the owners `map` is carried out: every changed pipeline is cleared and takes its new owner. -/
def State.commitApplyMap (s : State) (map : List Nat) : State :=
  let ch := (List.range 16).filter fun p => decide (map.getD p 0 ≠ s.ownerOfPipe p)
  let olds := (ch.map s.ownerOfPipe).eraseDups.filter fun n => decide (n ≠ 0)
  let ports := ch.flatMap fun p => (List.range 64).map (64 * p + ·)
  let s := ports.foldl (fun s e => if s.portEnabled e then s.portDisable e else s) s
  let s := ch.foldl (fun s p => s.unload (p)) (ch.foldl (fun s p => (s.pipeClear p).lanesClear p) s)
  let moved := fun (f : Nat → Nat → Bool) (a : Nat) => ch.any fun p => f p a
  let s := { s with regs := SMap.drop s.regs (moved pipeCleared) }
  let s := s.clearCnts (moved fun p a => decide (pipeAt a = some p))
  let s := s.dropPend fun a => decide (a < 0x20000000) && (moved pipeRetained a || match regionOf a with
    | .port e | .tmPort e => ch.contains (e / 64)
    | _ => false)
  let s := ch.foldl (fun s p => s.setFld (R.PIT_MAP p) F.PIT_MAP.OWNER (map.getD p 0)) s
  let s := (olds.filter fun n => !s.pitchExists n).foldl (fun s n => s.pitchEmptied n) s
  s.expLeave

/-- The staged owners of pipelines 0 to 15. -/
def State.stagedMap (s : State) : List Nat := (List.range 16).map s.stagedOwner

/-- The owners of pipelines 0 to 15, 5 bits each, as event 0x0C carries them. -/
def ownerBytes (map : List Nat) : Bytes := natBE 10 (map.foldl (fun v n => v * 32 + n) 0)

/-- PIT_COMMIT.GO. The check is made at once, on the owners then staged; a commit that passes runs for up to 10 µs (R64, R65). -/
def State.pitCommit (s : State) (i : Issuer) : State :=
  let busy := s.bit R.PIT_COMMIT F.PIT_COMMIT.GO
  if !s.presOpen then
    (s.presRefuse i R.PIT_COMMIT).audit 0x0C true 0 (ownerBytes s.stagedMap ++ natBE 1 (s.fld R.PIT_COMMIT F.PIT_COMMIT.RESULT))
  else if busy then s.busyWrite i.fn
  else
    let res := s.commitCheck
    if res = 0 then
      let (w, s) := s.freeWord
      let s := (s.setFld R.PIT_COMMIT F.PIT_COMMIT.RESULT 15).setBit R.PIT_COMMIT F.PIT_COMMIT.GO true
      { s with pw := { s.pw with commit := some { due := s.t16 + 1 + w % 160000, map := s.stagedMap } } }
    else (s.setFld R.PIT_COMMIT F.PIT_COMMIT.RESULT res).audit 0x0C true 0 (ownerBytes s.stagedMap ++ natBE 1 res)

/-- The commit `c` completes: its owners take effect, and the writes held for it are applied (R65, R68). -/
def State.commitEnd (s : State) (c : CommitRun) : State :=
  let s : State := { s with pw := { s.pw with commit := none } }
  let s := (s.commitApplyMap c.map).kRefresh.rises s
  let s := (s.setFld R.PIT_COMMIT F.PIT_COMMIT.RESULT 0).setBit R.PIT_COMMIT F.PIT_COMMIT.GO false
  c.held.foldl (fun s e => s.pitCtlApply e.1 e.2.1 e.2.2) (s.audit 0x0C false 0 (ownerBytes c.map ++ natBE 1 0))

/-- A commit whose time has come completes. -/
def State.commitTurn (s : State) : State :=
  match s.pw.commit with
  | some c => if s.t16 < c.due then s else s.commitEnd c
  | none => s

end Sys2Proof.Machine
end

