-- ==== Sys2Proof/Machine/Loader.lean ====
section
/-! DEFINITION. Structure images: the loader limits, the image load and re-seat, and the device load (R137, R161, R164, R186, R224,
R230, R233, R237 to R239, R265, R266, R408, R449, R542, R594, R596, R636, R637). -/

namespace Sys2Proof.Machine

/-! ### The loader limits -/

/-- A state of a graph of n states is within Table 5.1, and its transitions name states that exist. -/
def stateOk (n : Nat) (st : ParseState) : Bool :=
  decide (st.select.length ≤ 4 ∧ (st.select.map (·.width)).sum ≤ 32) &&
  (st.select.all fun f => decide (f.off ≤ 63 ∧ f.bit ≤ 7 ∧ 1 ≤ f.width ∧ f.width ≤ 16)) &&
  decide (st.trans.length ≤ 16) &&
  (st.trans.all fun t => match t.out with
    | .state k => decide (k < n)
    | .accept => true
    | .malformed r => decide (8 ≤ r ∧ r ≤ 15)) &&
  decide (st.extract.length ≤ 8 ∧ (st.extract.map (·.len)).sum ≤ 64) &&
  (st.extract.all fun r => decide (r.src ≤ 63 ∧ 1 ≤ r.len ∧ r.len ≤ 32 ∧ r.dst + r.len ≤ 128)) &&
  (match st.adv with
    | .fixed k => decide (k ≤ 64)
    | .field f scale add lo hi => decide (f.off ≤ 63 ∧ f.bit ≤ 7 ∧ 1 ≤ f.width ∧ f.width ≤ 8 ∧ scale ∈ [1, 2, 4, 8] ∧ add ≤ 63 ∧
        lo ≤ hi ∧ hi ≤ 256)) &&
  decide (st.check ≤ 3 ∧ st.flags < 256 ∧ st.hash ≤ 4)

/-- The parse graph (R137). -/
def graphOk (img : Image) : Bool :=
  decide (1 ≤ img.graph.length ∧ img.graph.length ≤ 64) && img.graph.all (stateOk img.graph.length) &&
  ((img.stages.take 16).any fun si => si.dir.any fun d => d.e = 1)

/-- A key selector names bytes that exist. -/
def selOk (sel : List KeySrc) : Bool := sel.all fun k => match k with
  | .hv i => decide (i < 128)
  | .mreg r b => decide (r < 32 ∧ b < 4)

/-- The blocks of an exact-match table (R164). -/
def emBlocks (t : EmTable) : Nat := 4 * 2 ^ t.width * 2 ^ (t.depthLog2 - 12)

/-- An exact-match table (R164). -/
def emTableOk (t : EmTable) : Bool :=
  decide (t.width ≤ 3 ∧ 12 ≤ t.depthLog2 ∧ 1 ≤ t.selA.length ∧ t.selA.length + 4 ≤ 16 * 2 ^ t.width) && selOk t.selA &&
  (t.selB.all fun b => selOk b && decide (b.length = t.selA.length))

/-- The blocks of a stage's exact-match tables (R161). -/
def stageBlocks (si : StageImg) : Nat := ((si.em.filterMap id).map emBlocks).sum

/-- The blocks of a TCAM table, and those that one search reaches (R186, Table 7.1). -/
def tcBlockCount (t : TcTable) : Nat := t.width * t.slices.length
def tcSearched (t : TcTable) : Nat := tcBlockCount t / 2 ^ t.banks

/-- A TCAM table (R186, R191, Table 7.1). -/
def tcTableOk (t : TcTable) : Bool :=
  let b := tcBlockCount t
  decide (1 ≤ t.width ∧ t.width ≤ 8 ∧ 1 ≤ t.slices.length ∧ t.slices.length ≤ 128 ∧ b ≤ 128 ∧ t.banks ≤ 2) &&
  (t.slices.all fun f => decide (f % 8 + t.width ≤ 8 ∧ f < 128)) &&
  decide (t.prefilter = true → b ≤ 32) &&
  (if t.banks = 0 then decide (b ≤ 64)
   else decide (33 ≤ b ∧ t.slices.length % 2 ^ t.banks = 0 ∧ tcSearched t ≤ 32)) &&
  decide (t.sel.length = 10 * t.width) && selOk t.sel &&
  (match t.gsel with
    | .const g => decide (g ≤ 3)
    | .bits r lo => decide (r < 32 ∧ lo ≤ 30))

/-- Every exact-match and TCAM table of the image, and the blocks of the pipeline. -/
def tablesOk (img : Image) : Bool :=
  (img.stages.all fun si => decide (si.em.length ≤ 4 ∧ si.tc.length ≤ 2 ∧ stageBlocks si ≤ 64) &&
    ((si.em.filterMap id).all emTableOk) && (si.tc.filterMap id).all tcTableOk) &&
  decide ((img.stages.map stageBlocks).sum ≤ 128) &&
  (let blocks := (tcBlocks img).map (·.1)
   decide (blocks.length ≤ 128) && allDiff blocks) &&
  decide (((img.stages.flatMap fun si => si.tc.filterMap id).map tcSearched).sum ≤ 64)

/-- Table t of a stage, exact-match 0 to 3 or TCAM 4 and 5, is defined (R222). -/
def tabDefined (si : StageImg) (t : Nat) : Bool := if t < 4 then (si.em.getD t none).isSome else (si.tc.getD (t - 4) none).isSome

/-- The word `w` of a stage as the image gives it. -/
def imgWord (si : StageImg) (w : Nat) : Word := (si.words.lookup w).getD 0

/-- The directory and the segments of stage st (R222, R224, R230, R233, R635, Table 8.7). -/
def stageCodeOk (st : Nat) (si : StageImg) : Bool :=
  let most := fun t => (si.dir.filter fun d => 16 + 17 * t ≤ d.e && decide (d.e ≤ 32 + 17 * t)).foldl (fun m d => max m d.slots) 0
  let defd := (List.range 6).filter (tabDefined si)
  allDiff (si.dir.map (·.e)) &&
  (si.dir.all fun d =>
    decide (d.start ≤ 4095 ∧ d.slots ≤ (if d.e = 1 then 24 else 12)) &&
    decide (d.e ≤ 1 ∨ (16 ≤ d.e ∧ d.e ≤ 117)) &&
    decide (d.e ≠ 1 ∨ st < 16) &&
    (decide (d.e ≤ 1) || tabDefined si ((d.e - 16) / 17)) &&
    decide (if d.cust then 3072 ≤ d.start ∧ d.start + d.slots ≤ 4096 else d.start < 3072 ∧ d.start + d.slots ≤ 3072)) &&
  (defd.all fun t => si.dir.any fun d => d.e = 32 + 17 * t) &&
  decide ((defd.map most).sum ≤ 12) &&
  (si.words.all fun e => decide (e.1 < 3072)) &&
  (si.dir.all fun d => d.cust || (ucEntryCheck si (imgWord si) d).isNone)

/-- The deparse list and the digest selection (R219, R408). -/
def listsOk (img : Image) : Bool :=
  decide (img.deparse.length ≤ 32 ∧ (img.deparse.map (·.2)).sum ≤ 128) && (img.deparse.all fun i => decide (i.1 + i.2 ≤ 128)) &&
  decide (img.dsel ≤ 255 ∧ img.runs.length ≤ 16 ∧ (img.runs.map (·.2)).sum ≤ 128) &&
  (img.runs.all fun r => decide (r.1 + r.2 ≤ 512)) && decide (img.dsel = 0 → img.runs = [])

/-- The pool layout (R265). -/
def poolsOk (ps : List (Nat × Nat)) : Bool :=
  decide (1 ≤ ps.length ∧ ps.length ≤ 8) && (ps.all fun p => decide (p.1 ≤ 6 ∧ p.2 ≠ 0 ∧ p.2 % 16 = 0)) &&
  ((List.range (ps.length - 1)).all fun i => decide ((ps.getD i (0, 0)).1 < (ps.getD (i + 1) (0, 0)).1)) &&
  decide ((ps.map (·.1)).getLast? = some 6) &&
  decide ((ps.map (·.2)).sum ≤ 2097152 ∧ (ps.map fun p => p.2 * sizeBytes p.1).sum ≤ 268435456)

/-- The Ostler firmware lies in the vendor region. -/
def firmwareOk (fw : Firmware) : Bool := (fw.device ++ fw.pitch).all fun e => decide (e.1 < 0xC000)

/-- Every loader limit. -/
def imageOk (img : Image) : Bool :=
  imageHeadOk img.raw && decide (img.stages.length ≤ 24) && graphOk img && tablesOk img &&
  ((List.range img.stages.length).all fun st => stageCodeOk st (img.stages.getD st {})) && listsOk img && poolsOk img.pools &&
  firmwareOk img.firmware

/-! ### What a load sets -/

/-- A layout takes effect (R266). -/
def State.fixLayout (s : State) (ps : List (Nat × Nat)) : State :=
  let s := (List.range 8).foldl (fun s q =>
    let a := R.BPM_POOL_CFG q
    match ps[q]? with
    | none => s.setReg a 0
    | some p => ((s.setBit a F.BPM_POOL_CFG.DEFINED true).setFld a F.BPM_POOL_CFG.SIZE p.1).setFld a F.BPM_POOL_CFG.COUNT p.2) s
  (s.setBit R.BPM_STATUS F.BPM_STATUS.LAYOUT true).setFld R.BPM_STATUS F.BPM_STATUS.POOLS ps.length

/-- The layout in force: the size code and the count of each pool. -/
def State.layout (s : State) : List (Nat × Nat) :=
  ((List.range 8).filter s.poolDefined).map fun q => (s.fld (R.BPM_POOL_CFG q) F.BPM_POOL_CFG.SIZE, s.poolCount q)

/-- Some action of a stage learns into its table t. -/
def learnsInto (si : StageImg) (t : Nat) : Bool :=
  si.dir.any fun d => !d.cust && (List.range d.slots).any fun i =>
    let v := imgWord si (d.start + i)
    decide (ucOp v = 0x31 ∧ ucB v % 4 = t)

/-- STG_EM_CFG, TC_CFG and STG_UC_DIR of stage st as an image gives them. -/
def emCfgWord (si : StageImg) (t : Nat) : Word :=
  match si.em.getD t none with
  | none => 0
  | some x => BitVec.ofNat 32 (2 ^ 31 + (if x.selB.isSome then 2 ^ 30 else 0) + (if learnsInto si t then 2 ^ 29 else 0) + x.width * 2 ^ 24 +
      x.depthLog2 * 2 ^ 16 + x.selA.length)
def tcCfgWord (si : StageImg) (t : Nat) : Word :=
  match si.tc.getD t none with
  | none => 0
  | some x => BitVec.ofNat 32 (2 ^ 31 + (if x.prefilter then 2 ^ 30 else 0) + x.banks * 2 ^ 28 + x.slices.length * 2 ^ 16 + x.width)
def dirWord (si : StageImg) (e : Nat) : Word :=
  match si.dir.find? fun d => d.e = e with
  | none => 0
  | some d =>
    putFld (putFld (putFld (putFld 0 F.STG_UC_DIR.DEFINED 1) F.STG_UC_DIR.CUST (if d.cust then 1 else 0)) F.STG_UC_DIR.SLOTS d.slots)
      F.STG_UC_DIR.START d.start

/-- A SHA-256 in eight registers: byte 4k in bits 31:24. -/
def State.setHash (s : State) (r : Nat → Nat) (h : Bytes) : State :=
  (List.range 8).foldl (fun s k => s.setReg (r k) (BitVec.ofNat 32 (beNat (slice h (4 * k) 4)))) s
def State.hashOf (s : State) (r : Nat → Nat) : Bytes := (List.range 8).flatMap fun k => natBE 4 (s.reg (r k)).toNat

/-- LOADS of pipeline p counts an accepted load or re-seat, and wraps. -/
def State.loadCount (s : State) (p : Nat) : State :=
  s.setFld (R.DEV_IMG_STATUS p) F.DEV_IMG_STATUS.LOADS (s.fld (R.DEV_IMG_STATUS p) F.DEV_IMG_STATUS.LOADS + 1)

/-- The signed words of an image for stage st, as words 0 to 3071 of its store hold them. -/
def signedWords (img : Image) (st : Nat) : SMap Word :=
  (img.stages.getD st {}).words.foldl (fun m e => if e.1 < 3072 then SMap.put (fun _ => 0) m e.1 e.2 else m) []

/-- The signed words of an image stand in the store of stage st, and their parity is good (R239). -/
def State.signedPut (s : State) (p st : Nat) (img : Image) : State :=
  let u := s.ucStore p st
  s.setUcStore p st { u with words := signedWords img st, bad := u.bad.filter fun m => decide (3072 ≤ m % 4096) }

/-- The learn requests that wait in a stage when a new image stands are dropped. DESIGN CHOICE: they count as LEARN_DROP, so that every
request has its outcome (R173, log entry 26). -/
def State.learnWipe (s : State) (p st : Nat) : State :=
  (s.emStage p st).learn.foldl (fun s q => s.addCnt (C.EM_LEARN_DROP p st q.table) 1) s

/-- A new image stands on pipeline p: its structure, its store words and its registers; both customer banks and the choice of bank
stay, CHECKED clears and a swap on its way lands unchecked (R635), and the tables start empty. An operation of an engine goes on. DESIGN
CHOICE: with the tables the notification FIFOs, the waiting invalidations, the freed rows and the agers' positions start anew (log
entry 26). -/
def State.imagePut (s : State) (p : Nat) (img : Image) : State :=
  let s := s.setPipe p { s.pipe p with img := some img, swapOld := true }
  let s := (List.range 24).foldl (fun s st =>
    let si := img.stages.getD st {}
    let s := s.signedPut p st img
    let s := s.learnWipe p st
    let s := s.setEmStage p st { job := (s.emStage p st).job, busy := (s.emStage p st).busy, flush := (s.emStage p st).flush }
    let s := (List.range 4).foldl (fun s t => s.setReg (R.STG_EM_CFG p st t) (emCfgWord si t)) s
    let s := (List.range 2).foldl (fun s t => s.setReg (R.TC_CFG p st t) (tcCfgWord si t)) s
    (List.range 128).foldl (fun s e => s.setReg (R.STG_UC_DIR p st e) (dirWord si e)) s) s
  let s := s.tcEmpty p
  let s := s.setBit (R.STG_UC_SWAP p) F.STG_UC_SWAP.CHECKED false
  let s := (s.setBit (R.DEV_IMG_STATUS p) F.DEV_IMG_STATUS.LOADED true).setBit (R.DEV_IMG_STATUS p) F.DEV_IMG_STATUS.HOOKS (Image.hasHooks img)
  (s.setHash (R.DEV_IMG_HASH p) (imageHash img)).loadCount p

/-- Every signed store word of pipeline p is written back into place (R239). -/
def State.imageReseat (s : State) (p : Nat) (img : Image) : State :=
  ((List.range 24).foldl (fun s st => s.signedPut p st img) s).loadCount p

/-- The words of a firmware part as the vendor region of owner n holds them. -/
def fwMap (n : Nat) (ws : List (Nat × Word)) : SMap Word :=
  ws.foldl (fun m e => if e.1 < 0xC000 then SMap.put (fun _ => 0) m (n * 65536 + e.1) e.2 else m) []

/-- The vendor region of owner n holds the words `ws`, but where a word has failed parity. -/
def State.fwSame (s : State) (n : Nat) (ws : List (Nat × Word)) : Bool :=
  let good := fun (e : Nat × Word) => !s.psBadAt n (e.1 % 65536)
  decide ((s.ost.ps.filter fun e => decide (n * 65536 ≤ e.1 ∧ e.1 < n * 65536 + 0xC000) && good e) = (fwMap n ws).filter good)

/-- The device part of an image (R449): the first fills owner 0's region; a later one that differs is ignored. -/
def State.fwDevice (s : State) (ws : List (Nat × Word)) : State :=
  if !s.ostFw 0 then s.fwLoad 0 ws
  else if s.fwSame 0 ws then s
  else s.cause (R.OST_OWN_CAUSE 0) F.OST_OWN_CAUSE.FW_IGNORED

/-! ### The image load (R596, R636, Table 22.8) -/

/-- The image hash on pipeline p; none where no image is loaded. -/
def State.imgHash (s : State) (p : Nat) : Option Bytes :=
  if s.bit (R.DEV_IMG_STATUS p) F.DEV_IMG_STATUS.LOADED then some (s.hashOf (R.DEV_IMG_HASH p)) else none

/-- The result of a load of `img` onto the pipelines `ps`, judged on the image, with the window as it stood when GO landed (R606,
R636, steps 4 to 9). -/
def State.loadResult (s : State) (stored presOpen : Bool) (ps : List Nat) (img : Image) : Nat :=
  if !stored && !sigGood s.fuse.keyHash img.raw then 2
  else if ps.all fun p => decide (s.imgHash p = some (imageHash img)) then 1
  else if !presOpen then 3
  else if ps.any s.pipeHasEnabled then 4
  else if s.layoutFixed && decide (s.layout ≠ img.pools) then 7
  else if !imageOk img then 8
  else 0

/-- The load of `img` onto `ps` is accepted: a new image, or a re-seat. -/
def State.loadAccept (s : State) (ps : List Nat) (img : Image) (reseat : Bool) : State :=
  let owners := (ps.map s.ownerOfPipe).eraseDups
  if reseat then
    let s := ps.foldl (fun s p => s.imageReseat p img) s
    let s := if s.fwSame 0 img.firmware.device then s.fwReseat 0 img.firmware.device else s
    (owners.filter fun n => s.fwSame n img.firmware.pitch).foldl (fun s n => s.fwReseat n img.firmware.pitch) s
  else
    let s := if s.layoutFixed then s else s.fixLayout img.pools
    let s := ps.foldl (fun s p => s.imagePut p img) s
    owners.foldl (fun s n => s.fwLoad n img.firmware.pitch) (s.fwDevice img.firmware.device)

/-- Event 0x0E of a load for each target pipeline; where no image was read, its hash is free. -/
def State.loadAudit (s : State) (refused : Bool) (ps : List Nat) (img : Option Image) : State :=
  let (h, s) := match img with
    | some i => (imageHash i, s)
    | none => ((List.range 32).map fun i => Config.freeByte (s.freeIx + i), { s with freeIx := s.freeIx + 32 })
  ps.foldl (fun s p => s.audit 0x0E refused p (fitBytes 32 h)) s

/-- A load of function f onto `ps` ends with a result (R596). -/
def State.loadFin (s : State) (f r : Nat) (ps : List Nat) (img : Option Image) : State :=
  ((s.setFld (R.DEV_LOAD_CTL f) F.DEV_LOAD_CTL.RESULT r).setBit (R.DEV_LOAD_CTL f) F.DEV_LOAD_CTL.GO false).loadAudit (decide (2 ≤ r)) ps img

/-- DEV_LOAD_CTL[f].GO, with its fields as written; `read` is the image that a read of host memory gives, none where the read fails.
The command is judged at once (R636, step 1); a load that it allows runs, or waits for those before it (R596). -/
def State.imageLoad (s : State) (i : Issuer) (f : Nat) (read : Option Image) : State :=
  let a := R.DEV_LOAD_CTL f
  let ps := (List.range 16).filter fun p => nbit (s.fld a F.DEV_LOAD_CTL.PIPES) p
  let own := fun p => !s.pipeFused p && (if f = 0 then decide (s.ownerOfPipe p ≠ 0) else decide (s.ownerOfPipe p = f))
  let host := s.bit a F.DEV_LOAD_CTL.SRC
  let len := (s.reg (R.DEV_LOAD_LEN f)).toNat
  let addr := (s.reg (R.DEV_LOAD_ADDR_LO f)).toNat + (s.reg (R.DEV_LOAD_ADDR_HI f)).toNat * 2 ^ 32
  let read := read.map fun g => { g with raw := g.raw.take len }
  let img := if host then read else s.pw.store.lookup (s.fld a F.DEV_LOAD_CTL.INDEX)
  if s.bit a F.DEV_LOAD_CTL.GO then s.busyWrite i.fn
  else if ps.isEmpty || !ps.all own then s.loadFin f 5 ps none
  else if if host then decide (len < 320 ∨ 13107200 < len) else img.isNone then s.loadFin f 6 ps none
  else if s.pw.commit.isSome then s.loadFin f 9 ps (if host then none else img)
  else
    let job : LoadJob :=
      { f := f, fn := i.fn, ost := i.ost, pipes := ps, presOpen := s.presOpen, stored := !host, img := img
        addr := addr, len := len, due := s.t16 + 1600000000 - 170 }
    let s := { s with pw := { s.pw with loads := s.pw.loads ++ [job] } }
    (s.setFld a F.DEV_LOAD_CTL.RESULT 15).setBit a F.DEV_LOAD_CTL.GO true

/-- A load ends (R596, R636). One onto a pipeline that failed is refused (Table 20.3) with a result that the manual does not give. -/
def State.loadEnd (s : State) (j : LoadJob) : State :=
  match j.img with
  | none => s.loadFin j.f 9 j.pipes none
  | some img =>
    let r := s.loadResult j.stored j.presOpen j.pipes img
    if r < 2 && j.pipes.any s.pipeFailed then
      let (w, s) := s.freeWord
      s.loadFin j.f (2 + w % 8) j.pipes (some img)
    else
      let s := if r = 3 then s.presRefuse { fn := j.fn, ost := j.ost } (R.DEV_LOAD_CTL j.f) else s
      let s := if r = 7 then s.cause R.BPM_CAUSE F.BPM_CAUSE.LAYOUT else s
      let s := if r < 2 then s.loadAccept j.pipes img (decide (r = 1)) else s
      s.loadFin j.f r j.pipes (some img)

/-- The first load may end at any tick, and one from the store ends within 100 ms of its command, whatever stands before it (R545). The time of
a load from host memory the manual leaves open (log entry 136). -/
def State.loadTurn (s : State) : State :=
  match s.pw.loads with
  | [] => s
  | j :: rest =>
    let (ends, s) := s.freeBool
    if ends || s.pw.loads.any fun j => j.stored && decide (j.due ≤ s.t16) then
      let s := if j.stored then s else s.hostReads j.f j.addr j.len
      State.loadEnd { s with pw := { s.pw with loads := rest } } j
    else s

/-! ### The boot and the device load (R538 to R543, R594, R595) -/

/-- STAGE k has finished: the whole milliseconds since power good (R538). -/
def State.bootStamp (s : State) (k : Nat) : State :=
  s.setReg (R.DEV_BOOT_STAMP k) (BitVec.ofNat 32 (2 ^ 31 + (s.t16 - s.pw.goodAt) / 16000000 % 2 ^ 20))

def State.setStage (s : State) (k : Nat) : State := s.setFld R.DEV_BOOT_STATUS F.DEV_BOOT_STATUS.STAGE k

def State.setBoot (s : State) (b : Option BootRun) : State := { s with pw := { s.pw with boot := b } }

/-- A step of bring-up that the part times by itself begins, with STAGE k: it ends at a free instant within `ms` milliseconds (Table 20.4,
R541, log entry 163). -/
def State.bootBegin (s : State) (k ms : Nat) (b : BootRun) : State :=
  let (w, s) := s.freeWord
  (s.setStage k).setBoot (some { b with due := s.t16 + 1 + w % (ms * 16000000) })

/-- The part waits for the host, for the cause given. -/
def State.waitHost (s : State) (c : Fld) : State := (s.setStage 5).cause R.DEV_BOOT_CAUSE c

/-- The check of a container (R594): the cause of the first failure. -/
def State.containerBad (s : State) (c : Container) : Option Fld :=
  let sig := if s.pw.push then F.DEV_BOOT_CAUSE.HOST_SIG else F.DEV_BOOT_CAUSE.SPI_SIG
  let imgs := (containerImages c).map (·.2)
  if !containerHeadOk c.raw || !sectsOk c.raw then some F.DEV_BOOT_CAUSE.SPI_FORMAT
  else if !sigGood s.fuse.keyHash c.raw || imgs.any fun g => !sigGood s.fuse.keyHash g.raw then some sig
  else if (imgs.map (·.pools)).eraseDups.length ≠ 1 || !imgs.all imageOk || !(c.device.all fun e => e.1 < 0xC000) then
    some F.DEV_BOOT_CAUSE.LOADER
  else none

/-- The container as the part has read it: of one that the host pushed, LEN bytes (R595). -/
def State.readBytes (s : State) (c : Container) : Container :=
  if s.pw.push then { c with raw := c.raw.take s.pw.pushLen } else c

/-- The container that stands at STAGE 7 is checked and loaded, or the part waits for the host again (R541, R542). A push is then done, and with
step 6 the part leaves the SPI bus (R522, R597). -/
def State.deviceLoad (s : State) (c : Container) : State :=
  if s.stage ≠ 7 ∨ s.stopped then s
  else
    let c := s.readBytes c
    let s := s.setBit R.DEV_PUSH_CTL F.DEV_PUSH_CTL.GO false
    match s.containerBad c with
    | some f => (s.bootStamp 7).waitHost f
    | none =>
      let imgs := containerImages c
      let s := (s.emit .spiFree).fixLayout ((imgs.map fun e => e.2.pools).headD [])
      let s := s.fwLoad 0 c.device
      let s := { s with pw := { s.pw with store := imgs } }
      let h := sha256 c.raw
      let s := s.setHash R.DEV_BOOT_HASH h
      let s := s.setFld R.DEV_BOOT_STATUS F.DEV_BOOT_STATUS.SOURCE (if s.pw.push then 2 else 1)
      ((s.audit 0x0E false 0xFFFF (fitBytes 32 h)).bootStamp 7).setStage 8

/-- SPI_MODE of a flash that declares the read modes `set`, bit k - 1 for mode k: the fastest, modes 1 to 5 being in the order of their
speed; 0 where none answers (R541). -/
def spiMode (set : Nat) : Nat := (List.range 5).foldl (fun m k => if nbit set k then k + 1 else m) 0

/-- Step 6 begins, after step 4: no SPI flash answers (`mode` 0), or one answers in a read mode, with addresses of 3 or, where it declares
them, 4 bytes; the part reads its first block from address 0, and the whole container if its header is valid (R541, R597). -/
def State.spiRead (s : State) (mode : Nat) (four : Bool) (block : Bytes) : State :=
  if s.stage ≠ 3 ∨ s.stopped ∨ !s.bit (R.DEV_BOOT_STAMP 3) F.DEV_BOOT_STAMP.DONE ∨ 5 < mode then s
  else
    let s := s.setFld R.DEV_BOOT_STATUS F.DEV_BOOT_STATUS.SPI_MODE mode
    if mode = 0 then s.waitHost F.DEV_BOOT_CAUSE.SPI_NONE
    else
      let s := s.emit (.spiRead mode (if four then 4 else 3) 0)
      if !containerHeadOk block then s.waitHost F.DEV_BOOT_CAUSE.SPI_FORMAT
      else State.bootBegin { s with pw := { s.pw with push := false } } 4 790 {}

/-- DEV_PUSH_CTL.GO of function f (R595), which reads 1 until the container has been checked (R522): the part reads LEN bytes of host memory;
`ok` says that every read will complete. -/
def State.pushGo (s : State) (f : Nat) (ok : Bool) : State :=
  if s.stage ≠ 5 ∨ s.stopped then s.busyWrite f
  else
    let len := (s.reg R.DEV_PUSH_LEN).toNat
    let s := (s.bootStamp 5).setBit R.DEV_PUSH_CTL F.DEV_PUSH_CTL.GO true
    let s := s.hostReads 0 ((s.reg R.DEV_PUSH_ADDR_LO).toNat + (s.reg R.DEV_PUSH_ADDR_HI).toNat * 2 ^ 32) len
    State.bootBegin { s with pw := { s.pw with push := true, pushLen := len } } 6 10 { ok := ok }

/-- The container has been read, from the flash at STAGE 4 or from the host at STAGE 6; or a read of the host's failed (R541, R595). -/
def State.readEnd (s : State) (ok : Bool) : State :=
  let s := s.setBoot none
  if !ok then (s.setBit R.DEV_PUSH_CTL F.DEV_PUSH_CTL.GO false).waitHost F.DEV_BOOT_CAUSE.HOST_SIG else (s.bootStamp s.stage).setStage 7

/-- Step 7 ends when every device domain is ready or failed: STAGE reads 9 (R545). -/
def State.deviceDone (s : State) : State :=
  if s.stage = 8 && deviceDoms.all fun d => s.domReady d || s.domFail d then (s.bootStamp 8).setStage 9 else s

end Sys2Proof.Machine
end

