-- ==== Sys2Proof/Machine/Clk.lean ====
section
/-! DEFINITION. Input power, power-on and device reset, device clocks, and the admission and faults of switched domains (R491, R521,
R530, R531, R538 to R546, R568 to R570, R614). -/

namespace Sys2Proof.Machine

/-! ### Every domain off (R491, R515, R614) -/

/-- Every lane output squelches and every LINK_UP falls (R568). -/
def State.squelchAll (s : State) : State :=
  (List.range 1024).foldl (fun s n => if s.portEnabled n then (s.txCut n).linkFall n else s) s

/-- The arrays of pipeline p lose their power: no table or TCAM entry is kept (R498). -/
def State.arraysLost (s : State) (p : Nat) : State := ((List.range 24).foldl (fun s st => s.emReset p st) s).tcReset p

/-- Every switched domain is turned off: the arrays lose their entries, and without its domain the PCIe link is down. -/
def State.domsOff (s : State) : State :=
  let s := (List.range 144).foldl (fun s d =>
    if !s.domOn d then s
    else if d < 64 then s.lgOff d
    else if 112 ≤ d ∧ d < 128 then (s.domDown d).arraysLost (d - 112)
    else if d = 132 ∨ d = 133 then (s.domDown d).wbEngine (d - 132) false
    else s.domDown d) s.squelchAll
  State.kRefresh { s with pw := { s.pw with linkUp := false } }

/-- The input stays below 5.4 V for 10 µs. -/
def State.undervolt (s : State) : State :=
  if !s.pw.alive then s
  else
    let s := s.domsOff
    { s with pw := { s.pw with under := true } }

/-- A sensor reaches 112 °C (R515). -/
def State.thermTrip (s : State) : State :=
  if !s.pw.alive then s
  else
    let s := s.domsOff
    { s with pw := { s.pw with trip := true } }

/-- The input falls to `mv` millivolts, below 5.0 V: the always-on domain is lost, and below 3.0 V FAULT_N is undriven (R491, R537). -/
def State.alwaysOnLost (s : State) (mv : Nat) : State :=
  let low := decide (mv < 3000)
  if !s.pw.alive then { s with pw := { s.pw with inLow := low } }
  else
    let s := s.domsOff
    { s with pw := { s.pw with alive := false, boot := none, inLow := low } }

/-- The input passes 63 V: the converter stops and every rail falls (R614). -/
def State.overvolt (s : State) : State :=
  if !s.pw.alive then s
  else
    let s := s.domsOff
    { s with pw := { s.pw with alive := false, boot := none, overV := true } }

/-! ### Power-on reset (R538, R544) -/

/-- Bound of step k + 1 of bring-up, of 1 to 4, in milliseconds (Table 20.4, R544). -/
def bootMs (k : Nat) : Nat := if k = 0 then 6 else if k = 1 then 4 else 10

/-- STAGE k of steps 1 to 4 begins. Rails and PLLs that fail do so at 10 ms (R544). -/
def State.bootStage (s : State) (k : Nat) (b : BootRun) : State :=
  if k = b.stop ∧ (k = 0 ∨ k = 3) then (s.setStage k).setBoot (some { b with due := s.t16 + 160000000 })
  else s.bootBegin k (bootMs k) b

/-- Power good: a power-on reset, whose step 1 begins. `b` says how many of steps 1 to 4 will succeed, whether the seal loop reads closed,
whether REFCLK is good and which PLLs lock. The free values that a power-on reset meets are those still due. -/
def State.powerUp (s : State) (b : BootRun) : State :=
  let s0 := State.reset
  State.bootStage { s0 with
    pending := s.pending, fuse := s.fuse, outbox := s.outbox, t16 := s.t16, freeIx := s.freeIx,
    pw := { s0.pw with alive := true, goodAt := s.t16 } } 0 b

/-- Step k + 1 fails: the part stops there (R544). -/
def State.bootStop (s : State) (k : Nat) (b : BootRun) : State :=
  let s := (s.setBoot none).setBit R.DEV_BOOT_STATUS F.DEV_BOOT_STATUS.STOPPED true
  if k = 3 then (s.setFld R.CLK_STATUS F.CLK_STATUS.PLL_LOCK b.plls).ariseF R.CLK_CAUSE F.CLK_CAUSE.PLL_LOL else s

/-- What the end of step 1 starts: Rounds, the monitor of REFCLK, the audit stream, and the comparison of the seal loop, which is found closed
or open (R521, R609, R631). DESIGN CHOICE: the stream starts with the first rails, so that event 0x01 stands before every other (log entry
163). -/
def State.bootRails (s : State) (b : BootRun) : State :=
  let s := ({ s with pw := { s.pw with rounds := true } }.setBit R.CLK_STATUS F.CLK_STATUS.REF_OK b.refOk).setBit
    R.DEV_PRES_STATUS F.DEV_PRES_STATUS.SEAL_OK true
  let s := s.audit 0x01 false 0 [0]
  let s := if b.loop then s else s.sealOpens
  if b.refOk then s else s.ariseF R.CLK_CAUSE F.CLK_CAUSE.REF_LOSS

/-- What the end of step 3 loads from the fuses: the voltage table. -/
def State.bootFuses (s : State) : State :=
  ((List.range 37).foldl (fun s r => s.setFld (R.PST_REG_VTABLE r) F.PST_REG_VTABLE.VALUE (fusedV r)) s).kRefresh

/-- What the end of step 4 leaves: every PLL locked, and the oscillator with REFCLK (R490, R496). -/
def State.bootPlls (s : State) : State :=
  let s : State := { s with pw := { s.pw with boot := none, pllsUp := true, coreLock := s.t16, ostLock := s.t16 } }
  (s.setFld R.CLK_STATUS F.CLK_STATUS.PLL_LOCK 127).setBit R.PST_STATUS F.PST_STATUS.REF_LOCK (s.bit R.CLK_STATUS F.CLK_STATUS.REF_OK)

/-- STAGE k, of 0 to 3, ends: it has failed, or the next step begins (Table 20.2). -/
def State.bootStep (s : State) (k : Nat) (b : BootRun) : State :=
  if k = b.stop then s.bootStop k b
  else
    let s := s.bootStamp k
    match k with
    | 0 => (s.bootRails b).bootStage 1 b
    | 1 => s.bootStage 2 b
    | 2 => s.bootFuses.bootStage 3 b
    | _ => s.bootPlls

/-- The step of bring-up in progress ends when its time has come (R538). -/
def State.bootTurn (s : State) : State :=
  match s.pw.boot with
  | none => s
  | some b => if s.t16 < b.due then s else if s.stage ≤ 3 then s.bootStep s.stage b else s.readEnd b.ok

/-- The input passes 5.8 V: after a loss of the always-on domain a power-on reset. DESIGN CHOICE: after a fall between 5.0 V and 5.4 V,
where that domain and what is not switched stood, the part takes up step 7 again (R491, log entry 162). -/
def State.powerGood (s : State) (loop refOk : Bool) (stop plls : Nat) : State :=
  if s.pw.overV then s
  else if !s.pw.alive then s.powerUp { stop := stop, plls := plls, loop := loop, refOk := refOk }
  else if s.pw.under then
    let s := { s with pw := { s.pw with under := false } }
    if s.stage = 9 then s.setStage 8 else s
  else s

/-- After the converter stopped above 63 V, the input falls back below 61 V (R614). -/
def State.overvoltRecovery (s : State) (loop refOk : Bool) (stop plls : Nat) : State :=
  if s.pw.overV then s.powerUp { stop := stop, plls := plls, loop := loop, refOk := refOk } else s

/-- PERST_N is deasserted: at the later of this and step 4 the PCIe internal reset is released (R538). -/
def State.perstDeassert (s : State) : State :=
  if s.pw.alive then { s with pw := { s.pw with perst := true } } else s

/-- The PCIe link may come up: its internal reset is released, and no fall of the input or trip holds its domain off (R491, R515,
R538). -/
def State.pcieMay (s : State) : Bool :=
  s.pw.alive && s.pw.perst && s.pllOk 6 && s.pllOk 3 && !s.pw.linkUp && !s.pw.under && !s.pw.trip

/-- A speed of 2.5 to 32 GT/s, as code 1 to 5, and a width of at most 8 lanes (R574). -/
def pcieTrains (speed lanes : Nat) : Bool := decide (1 ≤ speed ∧ speed ≤ 5 ∧ (lanes = 1 ∨ lanes = 2 ∨ lanes = 4 ∨ lanes = 8))

/-- The PCIe link comes up (R540). -/
def State.pcieUp (s : State) (speed lanes : Nat) : State :=
  if s.pcieMay && pcieTrains speed lanes then
    let s := (s.domUp 134).setDomBit R.PST_DOM_READY 134 true
    { s with pw := { s.pw with linkUp := true, speed := speed, lanes := lanes } }
  else s

/-! ### REFCLK and the device PLLs (R521, R568, R569, Table 21.3) -/

def State.refLoss (s : State) : State :=
  if !s.bit R.CLK_STATUS F.CLK_STATUS.REF_OK then s
  else
    let s := (s.setBit R.CLK_STATUS F.CLK_STATUS.REF_OK false).setBit R.PST_STATUS F.PST_STATUS.REF_LOCK false
    s.ariseF R.CLK_CAUSE F.CLK_CAUSE.REF_LOSS

def State.refReturn (s : State) : State :=
  if s.pw.alive && !s.bit R.CLK_STATUS F.CLK_STATUS.REF_OK then
    (s.setBit R.CLK_STATUS F.CLK_STATUS.REF_OK true).setBit R.PST_STATUS F.PST_STATUS.REF_LOCK s.pw.pllsUp
  else s

/-- The management fabric or the PCIe endpoint has stopped answering for 10 µs (R569). -/
def State.fabricLoss (s : State) (pcie : Bool) : State :=
  if pcie then { s with pw := { s.pw with pcieLost := true } } else { s with pw := { s.pw with fabricLost := true } }

/-- The outputs that were driven show what they do now (R90, R568). -/
def State.squelchShow (s : State) : State :=
  s.showLanes ((List.range 1024).filter fun l => !s.bit (laneReg R.LG_LN_STATUS l) F.LG_LN_STATUS.SQUELCHED)

/-- PLL k loses lock. Without the clock of the bridges every lane is lost (Table 21.3). The Ostler clock stops with its PLL (`State.ostClock`). -/
def State.pllLoss (s : State) (k : Nat) : State :=
  if !s.pllOk k ∨ 6 < k then s
  else
    let lock := s.fld R.CLK_STATUS F.CLK_STATUS.PLL_LOCK
    let s := (if k = 1 then s.timeMark else s).setFld R.CLK_STATUS F.CLK_STATUS.PLL_LOCK (clrNBit lock k)
    let s := s.ariseF R.CLK_CAUSE F.CLK_CAUSE.PLL_LOL
    match k with
    | 0 => s.squelchAll.squelchShow
    | 4 => ((List.range 1024).foldl (fun s l => s.lockLost l) s.squelchAll).squelchShow
    | 1 => (s.counterFault s.time.raw (s.time.raw.flip 0)).ttFault
    | 3 => s.fabricLoss false
    | 5 => (s.wbEngine 0 false).wbEngine 1 false
    | 6 => s.fabricLoss true
    | _ => s

/-- Every Pitch is held: those that were not enter reset (R568). -/
def State.holdAll (s : State) : State :=
  ((List.range 16).map (· + 1)).foldl (fun s n =>
    let was := s.held2 n
    (s.setBit (R.PIT_CTL n) F.PIT_CTL.WARDEN_HOLD true).pitFollow n was) s

/-- Hash engine e returns to service where its domain is ready. -/
def State.engineBack (s : State) (e : Nat) : State := if s.domReady (132 + e) then s.wbEngine e true else s

/-- PLL k relocks, while REFCLK is good, on a part whose PLLs had locked in bring-up (R544). -/
def State.pllRelock (s : State) (k : Nat) : State :=
  if s.pllOk k || decide (6 < k) || !s.bit R.CLK_STATUS F.CLK_STATUS.REF_OK || !s.pw.pllsUp || !s.pw.alive then s
  else
    let lock := s.fld R.CLK_STATUS F.CLK_STATUS.PLL_LOCK
    let s := (if k = 1 then s.timeMark else s).setFld R.CLK_STATUS F.CLK_STATUS.PLL_LOCK (setNBit lock k)
    match k with
    | 0 => { s.holdAll with pw := { s.holdAll.pw with coreLock := s.t16 } }
    | 2 => { s with pw := { s.pw with ostLock := s.t16 } }
    | 4 => s.holdAll
    | 5 => (s.engineBack 0).engineBack 1
    | _ => s

/-! ### Domains (R545, R546, R570, Table 20.3) -/

/-- The domains that come before domain d in its order of admission. -/
def State.domBefore (s : State) (d : Nat) : List Nat :=
  if deviceDoms.contains d then deviceDoms.takeWhile (· != d)
  else ((s.pipesOf (s.ownerOfPipe (d % 16))).flatMap pipeDoms).takeWhile (· != d)

/-- Two domains have a rail in common that admits one domain at a time. -/
def sameRail (a b : Nat) : Bool :=
  let sram := fun d => decide (96 ≤ d ∧ d < 128)
  let mgmt := fun d => decide (132 ≤ d)
  (sram a && sram b) || (mgmt a && mgmt b)

/-- Domain d may be admitted: in its order, one at a time on a rail. -/
def State.domDue (s : State) (d : Nat) : Bool :=
  let p := d % 16
  let dev := deviceDoms.contains d
  let pipe := decide (64 ≤ d ∧ d < 128) && !dev
  !s.domOn d && !s.domFail d && s.pw.alive && !s.pw.under && !s.pw.trip && !s.stopped &&
    ((dev && decide (s.stage = 8)) || (pipe && decide (s.stage = 9) && !s.pipeHeld p && !s.pipeFused p)) &&
    (s.domBefore d).all (fun e => s.domOn e || s.domFail e || (pipe && (s.pipeHeld (e % 16) || s.pipeFused (e % 16)))) &&
    (List.range 144).all fun e => !(sameRail d e && s.domOn e && !s.domReady e && !s.domFail e)

def State.domAdmit (s : State) (d : Nat) : State := if s.domDue d then s.domUp d else s

/-- The effect of the loss of domain d on the rest of the part (Table 20.3, R418, R464, R498, R570). -/
def State.domLost (s : State) (d : Nat) : State :=
  if d < 96 then s
  else if 112 ≤ d ∧ d < 128 then s.arraysLost (d - 112)
  else if d < 112 then s.fenceSlice (d - 96)
  else if d < 132 then ((List.range 128).map (128 * (d - 128) + ·)).foldl (fun s t => if (s.thr t).st = 0 then s else s.thrReset t) s
  else if d < 134 then (if nbit (s.fld R.WB_STATUS F.WB_STATUS.ENGINE_UP) (d - 132) then s.wbEngine (d - 132) false else s)
  else if 136 ≤ d ∧ d < 144 then
    let c := d - 136
    let s := (List.range 128).foldl (fun s i =>
      let n := 128 * c + i
      if s.portEnabled n then (s.txCut n).linkFall n else s) s
    (List.range 8).foldl (fun s i => s.lgOff (8 * c + i)) s
  else s

/-- Pipeline p is held by a fault of one of its domains: its ports squelch, its packets are lost and counted in TM_DROP, and the frames that
its queues hold in DROP_FRAMES. DESIGN CHOICE: the frames of the queues with code 0xF6, that of a port that is down, and the packets under
some code (R570, Table 21.4, log entry 168). -/
def State.pipeFault (s : State) (p : Nat) : State :=
  let s := (List.range 64).foldl (fun s i =>
    let n := 64 * p + i
    if s.portEnabled n then s.showLanes (s.lanesOf n) |>.txCut n |>.linkFall n |>.flushPort n 0xF6 else s) s
  let q := s.pipe p
  let (w, s) := s.freeWord
  let lose := fun (s : State) k => (s.tmDropCount k (w % 256)).wbDropped k
  let ks := q.entry ++ q.at_.flatMap (·.2) ++ q.egress
  let s := ks.foldl (fun s k => (lose s k).pktGone k false) s
  let s := q.repl.foldl (fun s e => e.2.foldl (fun s _ => (lose s e.1).mcDone e.1.handle) s) s
  let s := s.setPipe p { s.pipe p with entry := [], at_ := [], egress := [], repl := [] }
  let n := s.ownerOfPipe p
  if n = 0 then s else s.ariseF (R.IRQ_OWN_CAUSE n) F.IRQ_OWN_CAUSE.PIPE_FAULT

/-- Domain d passes its self-test, or fails it (R545, R546). -/
def State.domDone (s : State) (d : Nat) (ok : Bool) : State :=
  if !s.domOn d || s.domReady d || s.domFail d || decide (d < 64) then s
  else if ok then
    let s := s.setDomBit R.PST_DOM_READY d true
    let s := if d = 128 then s.supStart 0 else s
    let s := if d = 132 ∨ d = 133 then s.wbEngine (d - 132) true else s
    s.deviceDone
  else
    let s := (((s.domDown d).domFailed d).domLost d).kRefresh
    let s := if (64 ≤ d ∧ d < 96) ∨ (112 ≤ d ∧ d < 128) then s.pipeFault (d % 16) else s
    s.deviceDone

/-- A domain that belongs to no one pipeline is shared, a bridge while its two pipelines belong to different Pitches (Table 2.1). -/
def State.domShared (s : State) (d : Nat) : Bool :=
  decide (128 ≤ d) &&
    (decide (d < 136) ||
      (let a := s.ownerOfPipe (2 * (d - 136))
       let b := s.ownerOfPipe (2 * (d - 136) + 1)
       decide (a ≠ 0 ∧ b ≠ 0 ∧ a ≠ b)))

/-- A run-time fault of domain d (R570). A slice is fenced instead. -/
def State.domFault (s : State) (d : Nat) : State :=
  if !s.domOn d || decide (d < 64 ∨ 144 ≤ d) then s
  else if 96 ≤ d ∧ d < 112 then s.fenceSlice (d - 96)
  else
    let s := (((s.domDown d).domFailed d).domLost d).kRefresh
    let s := { s with pw := { s.pw with faulted := SMap.put (fun _ => false) s.pw.faulted d (decide (d < 128) || s.domShared d) } }
    if d < 128 then s.pipeFault (d % 16)
    else if s.domShared d then s.ariseF (R.IRQ_OWN_CAUSE 0) F.IRQ_OWN_CAUSE.DOM_FAULT
    else s

/-! ### Warden device reset (R530, R531) -/

/-- The registers that a device reset keeps: the always-on domain and the clocks, the state of presence and seal, the time base with its
source, its servo, its PPS outputs and its frequency (R531), and what R572 keeps of every tree. -/
def deviceKeeps : List RegId :=
  [.DEV_ROUND_NUM, .DEV_ROUND_PHASE, .DEV_PRES_STATUS, .CLK_STATUS, .CLK_CAUSE, .CLK_RST_STATUS, .PST_REG_VTABLE, .TIME_STATUS,
   .TIME_FREQ, .TIME_STEP_THR, .TIME_SRC_CTL, .TIME_SRC_ERR, .TIME_PPS_CTL, .TIME_PPS_START_S, .TIME_PPS_START_SF,
   .TIME_PPS_START_NS, .TIME_PPS_PERIOD, .TIME_PPS_WIDTH, .IRQ_EN, .IRQ_CTL, .IRQ_WMASK]

def deviceKept (a : Nat) : Bool := (findReg (windowOf a)).any fun r => deviceKeeps.contains r.2.1.id

/-- What a device reset leaves of the machine `s`, whose Pitches are all in reset. The neighbour rule's raise of a set point stays until a
power-on reset (R513), a part that has stopped stays stopped (R544), and the domain of the PCIe link stays with it (R531). The datasets of
the time links are gone, and the part selects its parent again (R351). -/
def State.deviceCleared (s : State) : State :=
  let s0 := State.reset
  let pw := { s0.pw with
    alive := s.pw.alive, trip := s.pw.trip, under := s.pw.under, overV := s.pw.overV, fabricLost := s.pw.fabricLost,
    pcieLost := s.pw.pcieLost, perst := s.pw.perst, linkUp := s.pw.linkUp, speed := s.pw.speed, lanes := s.pw.lanes,
    rounds := s.pw.rounds, cyc := s.pw.cyc, goodAt := s.pw.goodAt, coreLock := s.pw.coreLock, ostLock := s.pw.ostLock,
    pllsUp := s.pw.pllsUp, inLow := s.pw.inLow,
    reg := s.pw.reg.filterMap fun e =>
      if e.2.margin || decide (e.2.vraise ≠ 0) then some (e.1, { margin := e.2.margin, vraise := e.2.vraise }) else none }
  let t := s.time
  let time := { t with sigma := 0, shadow := [], tl := [], synceLow := false, setDue := none }
  let jt := (s.reg R.DEV_JTAG_CTL).toNat % 2
  let link := s.domOn 134
  let linkReady := s.domReady 134
  let stop := s.stopped
  let st := s.fld R.DEV_BOOT_STATUS F.DEV_BOOT_STATUS.STAGE
  let stamps := (List.range 4).map fun k => s.reg (R.DEV_BOOT_STAMP k)
  let refl := s.bit R.PST_STATUS F.PST_STATUS.REF_LOCK
  let s1 : State := { s0 with
    pending := s.pending, fuse := s.fuse, outbox := s.outbox, t16 := s.t16, freeIx := s.freeIx, time := time,
    regs := s.regs.filter fun e => deviceKept e.1
    irq := { pcie := s.irq.pcie }, pres := s.pres, pw := pw, side := { s0.side with ir := s.side.ir } }
  let s1 := (s1.setReg R.DEV_JTAG_CTL (BitVec.ofNat 32 jt)).setBit R.PST_STATUS F.PST_STATUS.REF_LOCK refl
  let s1 := (List.range 4).foldl (fun s k => s.setReg (R.DEV_BOOT_STAMP k) (stamps.getD k 0)) s1
  let s1 := (s1.setBit (R.PST_DOM_STATUS 134) F.PST_DOM_STATUS.ON link).setDomBit R.PST_DOM_READY 134 linkReady
  ((s1.setStage (min st 3)).setBit R.DEV_BOOT_STATUS F.DEV_BOOT_STATUS.STOPPED stop).tlSelect.kRefresh.synceCheck

/-- CLK_RST_DEV.GO. Outside a window it is refused; otherwise every step of R530 is carried out. -/
def State.deviceReset (s : State) (i : Issuer) (v : Word) : State :=
  let a := R.CLK_RST_DEV
  if !s.presOpen then (s.presRefuse i a).auditWrite true 0 a (s.reg a) v
  else
    let n := s.fld R.CLK_RST_STATUS F.CLK_RST_STATUS.DEV_RESETS
    let s := ((List.range 16).map (· + 1)).foldl (fun s n => if s.pitchExists n && (!s.held2 n || s.irq.pitEnter.contains n) then s.pitchEnter n else s) s
    let lost := s.outputsLost
    let s := s.deviceCleared
    let s := if lost && !s.outputsLost then s.timeBack else s
    let s := s.setFld R.CLK_RST_STATUS F.CLK_RST_STATUS.LAST 1
    let s := s.setFld R.CLK_RST_STATUS F.CLK_RST_STATUS.DEV_RESETS (min 0xFFFF (n + 1))
    s.audit 0x01 false 0 [1]

end Sys2Proof.Machine
end

