-- ==== Sys2Proof/Machine/Tick.lean ====
section
/-! DEFINITION. What passes with time alone, in one core tick of 0.625 ns (R6, R7, R496, R632): the time base and the Postilion clock
advance, and the skip regions have their ticks, at which monitors sample and withheld pulses of exempt regions count. -/

namespace Sys2Proof.Machine

/-- The droop response that acts on region r: its own, or 32 less than that of a neighbour (R506). -/
def State.droopOn (s : State) (r : Nat) : Nat :=
  (neighbours r).foldl (fun d x => max d ((s.region x).droop - 32)) (s.region r).droop

/-- Pulse i of the frame reaches core tick region r: the region has begun on a frame boundary, and the ratio latched for the frame,
or raised within it by the droop response, does not withhold the pulse (R496, R632). -/
def State.regionTick (s : State) (i r : Nat) : Bool :=
  match (s.region r).kFrame with
  | none => false
  | some k => !withheld i (max k (s.droopOn r))

/-- Region r has ticks in the frame that begins: it is on, and a half only with its pipeline running (R632). -/
def State.framed (s : State) (r : Nat) : Bool := s.regionOn r && (decide (32 ≤ r) || s.pipeRuns (r % 16))

/-- At pulse 0 of a frame of their clock the regions `rs` take the ratio then in force, and begin or end their ticks (R632). -/
def State.latchFrame (s : State) (rs : List Nat) : State :=
  rs.foldl (fun s r =>
    let q := s.region r
    s.setRegion r { q with kFrame := if s.framed r then some (s.kEff r) else none }) s

/-- Pulse i is withheld from exempt regions, by the droop response or the thermal limit (R502). -/
def State.exemptSkips (s : State) (i : Nat) : State :=
  let k := ((List.range 33).filter fun r => s.regionExempt r && (s.region r).kFrame.isSome && !s.regionTick i r).length
  if k = 0 then s else (s.addCnt C.PST_EXEMPT_SKIP k).cause R.PST_CAUSE F.PST_CAUSE.EXEMPT_SKIP

/-- Packets whose ticks in the deparser are over pass it, at most `fuel` of them (R23, log entry 157). -/
def State.deparsePass (s : State) (p : Nat) : Nat → State
  | 0 => s
  | fuel + 1 =>
    match s.waiting p 25 with
    | [] => s
    | k :: _ => if k.tick + halfDepth true ≤ (s.pipe p).egTick then (s.deparse p 0).deparsePass p fuel else s

/-- The stages of a half. -/
def halfStages (eg : Bool) : List Nat := if eg then (List.range 8).map (16 + ·) else List.range 16

/-- The berths of a half move on in lockstep (R23, R479): packets whose ticks in a step are over pass it, and the column that leaves the
half is counted. -/
def State.lockstep (s : State) (p : Nat) (eg : Bool) : State :=
  let s := if eg then s else s.parserPass p
  let s := (halfStages eg).foldl (fun s st => s.stagePass p st (s.waiting p st).length) s
  let s := if eg then s.deparsePass p (s.waiting p 25).length else s.tmEnter p
  s.colOut p eg

/-- A half of pipeline p has a core tick: its berths pass and its engines take a turn (R25, R28, R29, R168, R201). -/
def State.halfTick (s : State) (p : Nat) (eg : Bool) : State :=
  let s := (s.berthTick p eg).lockstep p eg
  if !s.pipeRuns p then s
  else
    let s := (halfStages eg).foldl (fun s st => s.iaTurn p st) s
    if eg then s else s.tcTurn p

/-- Pipelines have the pulses that reach their halves, every egress half before every ingress half, so that what leaves the part's egress side
is released before anything is asked for (R29, R276). A half that has begun its ticks has them to pulse 63 of the frame, whatever becomes of
its domain; that of a Pitch in reset has its last ticks with nothing in it to move, and its accounting stays clear (R632, Table 2.5, log entry
157). -/
def State.pipeTicks (s : State) (ticks : Nat → Bool) : State :=
  let held := fun (s : State) p => s.ownerOfPipe p == 0 || s.inReset (s.ownerOfPipe p)
  let s := (List.range 16).foldl (fun s p =>
    if held s p then s
    else
      let s := s.setPipe p { s.pipe p with egSkip := !ticks (16 + p) }
      if ticks (16 + p) then s.halfTick p true else s) s
  (List.range 16).foldl (fun s p =>
    if held s p then s
    else
      let s := s.setPipe p { s.pipe p with igSkip := !ticks p }
      if ticks p then s.halfTick p false else s) s

/-- Pulse j of the Ostler clock since its PLL locked: the clusters that it reaches begin a cycle of their cores (R432, R496, R632). -/
def State.ostPulse (s : State) (j : Nat) : State :=
  let s := if j % 64 = 0 then s.latchFrame [33, 34, 35, 36] else s
  (List.range 4).foldl (fun s c =>
    if s.regionTick (j % 64) (33 + c) then (List.range 8).foldl (fun s k => s.coreCycle j (8 * c + k)) s else s) s

/-- The pulses of the Ostler clock from instant `t0` to `t1`, in 1/16 ns: one every 0.5 ns (Table 18.4). The JOINs of the cycles before are
decided first (R437). -/
def State.ostPulses (s : State) (t0 t1 : Nat) : State :=
  let s := s.joinTurn
  let a := (t0 - s.pw.ostLock) / 8
  ((List.range ((t1 - s.pw.ostLock) / 8 - a)).map (a + ·)).foldl (fun s j => s.ostPulse j) s

/-- Pulse i of the core tick clock. -/
def State.corePulse (s : State) (i : Nat) : State :=
  let s := if i = 0 then s.latchFrame (List.range 33) else s
  let on := (List.range 33).filter fun r => s.regionTick i r
  let s := s.tmPulse (on.contains 32)
  ((s.exemptSkips i).monTicks fun r => on.contains r).pipeTicks fun r => on.contains r

/-- Postilion cycles of a Round: PHASE counts them up to 62,499, which it shows until the boundary (R7, R34). -/
def State.postCycles (s : State) (k : Nat) : State :=
  let c := s.pw.cyc + k
  State.setFld { s with pw := { s.pw with cyc := c } } R.DEV_ROUND_PHASE F.DEV_ROUND_PHASE.PHASE (min 62499 c)

/-- The ports that send of themselves have their turns: Onazel ports in training, and forwarded-clock ports (R127, R132). -/
def State.lineTurns (s : State) : State :=
  (List.range 1024).foldl (fun s n =>
    if s.mode n = 4 then s.onzTurn n else if s.mode n = 5 then s.alignTurn n else s) s

/-- 0.625 ns pass. -/
def State.tick (s : State) : State :=
  let t0 := s.t16
  let t1 := t0 + 10
  if !s.pw.alive then { s with t16 := t1 }
  else
    let s : State := { s.excAsks.wbTick.mirrorTurn.snapTurn t1 with t16 := t1 }
    let s := if t0 / 20 < t1 / 20 then s.pitCycleEnd else s
    let s := s.commitTurn.bootTurn
    let s := if t0 / 16 < t1 / 16 then s.excTurn else s
    let s := if t0 / 16 < t1 / 16 ∧ s.timeRuns then s.timeCycle.timeSetTurn else s
    let s := if s.pw.rounds ∧ t0 / 160 < t1 / 160 then s.postCycles 1 else s
    let s := s.lgWaitEnd.reclaimTurn.loadTurn.lineTurns
    let s := if s.pllOk 2 then s.ostPulses t0 t1 else s
    if s.pllOk 0 then s.corePulse ((t1 - s.pw.coreLock) / 10 % 64) else s

end Sys2Proof.Machine
end

