-- ==== Sys2Proof/Machine/Round.lean ====
section
/-! DEFINITION. The Round boundary (R34 to R37): pending values apply, and the duties run in their order. -/

namespace Sys2Proof.Machine

/-- Values that await a boundary, without their pending bit. -/
def State.dueWords (s : State) : List (Nat × Word) := s.pendRegs.map fun e => (e.1, e.2 &&& 0x7FFFFFFF)

/-- The name of the register held at `a`. -/
def regIdAt (a : Nat) : Option RegId := (findReg (windowOf a)).map fun r => r.2.1.id

/-- The register at `a` is one of `ids`. -/
def regIn (a : Nat) (ids : List RegId) : Bool := (regIdAt a).any fun i => ids.contains i

/-- The queue shaper, as port × 16 + class, to which the register at `a` belongs. -/
def qShaperAt (a : Nat) : Option Nat :=
  match findReg (windowOf a) with
  | some (.tmPort n, r, [c]) =>
    if [RegId.TM_Q_SHP_CTL, .TM_Q_CIR, .TM_Q_PIR, .TM_Q_CBS, .TM_Q_PBS].contains r.id then some (n * 16 + c) else none
  | _ => none

/-- The port shaper to which the register at `a` belongs. -/
def pShaperAt (a : Nat) : Option Nat :=
  match findReg (windowOf a) with
  | some (.tmPort n, r, _) =>
    if [RegId.TM_PORT_SHP_CTL, .TM_PORT_CIR, .TM_PORT_PIR, .TM_PORT_CBS, .TM_PORT_PBS].contains r.id then some n else none
  | _ => none

/-- The Pitch whose exception policer the register at `a` configures. -/
def excPolAt (a : Nat) : Option Nat :=
  if regIn a [.PAR_EXC_POL_CTL, .PAR_EXC_CIR, .PAR_EXC_PIR, .PAR_EXC_CBS, .PAR_EXC_PBS] then some (a % 0x100000 / 0x1000) else none

/-- The port whose formation the register at `a` holds. -/
def formAt (a : Nat) : Option Nat :=
  match findReg a with
  | some (.port n, r, _) => if r.id = .PORT_FORM then some n else none
  | _ => none

/-- A pending value is applied; one of type RWP is entered in the audit stream as event 0x07 (R386, Table 22.11). -/
def State.applyPend (s : State) (a : Nat) (v : Word) : State :=
  let old := s.reg a
  let s := s.setReg a v
  if regIn a [.TT_CTL, .TT_FLOOR, .PST_PIT_CTL] then
    let n := if regIn a [.PST_PIT_CTL] then (a - 0x20040) / 0x10 else (a - 0xC0000) / 0x800
    s.audit 0x07 false n (natBE 4 a ++ natBE 4 old.toNat ++ natBE 4 v.toNat)
  else s

/-- Duty 2: pending values other than formations apply, and each shaper and policer they touch sets its buckets (R151, R321). -/
def State.pendRound (s : State) (due : List (Nat × Word)) : State :=
  let due := due.filter fun e => (formAt e.1).isNone
  let s := due.foldl (fun s e => s.applyPend e.1 e.2) s
  let s := (due.filterMap fun e => qShaperAt e.1).eraseDups.foldl (fun s i => s.qShpReset (i / 16) (i % 16)) s
  let s := (due.filterMap fun e => pShaperAt e.1).eraseDups.foldl (fun s n => s.portShpReset n) s
  let s := (due.filterMap fun e => excPolAt e.1).eraseDups.foldl (fun s n =>
    { s with excPol := SMap.put (fun _ => {}) s.excPol n ((s.excMeter n).setBoth (s.bit (R.PAR_EXC_POL_CTL n) F.PAR_EXC_POL_CTL.TOKEN_RESET) s.clk16) }) s
  s.polRound

/-- The lanes at a boundary: error counts, margin figures, continuous adaptation, and the ports whose training waits for a
figure (R86 to R89, R98, R128). -/
def State.laneRound (s : State) (o : RoundObs) : State :=
  let s := o.prbs.foldl (fun s e => s.prbsAdd e.1 e.2) s
  let s := (List.range 1024).foldl (fun s l => s.lmfRound l ((o.eyes.lookup l).getD [])) s
  let s := (List.range 64).foldl (fun s g => s.lmfMin g) s
  let s := (List.range 1024).foldl (fun s l => if s.laneWatched l then s.adaptRound l else s) s
  (List.range 1024).foldl (fun s n => if s.mode n = 4 && s.portEnabled n then s.onzTryReady n else s) s

/-- A Round boundary is due: Rounds run, and the Round has lasted its 62,500 cycles of 10 ns (R7, R631). -/
def State.roundDue (s : State) : Bool := s.pw.alive && s.pw.rounds && decide (62500 ≤ s.pw.cyc)

/-- Duty 3: the Round count advances, and the next Round's cycles are counted from its start. -/
def State.nextRound (s : State) : State :=
  let r := ((s.reg R.DEV_ROUND_NUM).toNat + 1) % 2 ^ 32
  let c := s.pw.cyc - 62500
  let s := { s with pw := { s.pw with cyc := c } }
  (s.setReg R.DEV_ROUND_NUM (BitVec.ofNat 32 r)).setFld R.DEV_ROUND_PHASE F.DEV_ROUND_PHASE.PHASE (min 62499 c)

/-- A Round boundary, with what the part observed in the Round that ends. -/
def State.roundBoundary (s : State) (o : RoundObs) : State :=
  if !s.roundDue then s
  else
    let before := s
    let due := s.dueWords
    let s := { s with pendRegs := s.lateRegs, lateRegs := [], bpm := { s.bpm with errs := [] } }
    let s := o.fec.foldl (fun s e => s.fecCount e.1 e.2.1 e.2.2.1 e.2.2.2) s
    let s := s.laneRound o
    let power := due.filter fun e => e.1 < 0x30000
    let s := power.foldl (fun s e => s.applyPend e.1 e.2) s
    let s := (s.unmetRise before).grantRound o
    let s := s.pendRound (due.filter fun e => !decide (e.1 < 0x30000))
    let forms := due.filterMap fun e => (formAt e.1).map fun n => (n, e.2)
    let s := forms.foldl (fun s e => s.setReg (R.PORT_FORM e.1) e.2) s
    let s := s.formRound forms
    let s := s.nextRound.verRound
    let s := (s.auditRound (s.reg R.DEV_ROUND_NUM).toNat).wbRound
    s.belowCheck before

end Sys2Proof.Machine
end

