-- ==== Sys2Proof/Machine/RegRead.lean ====
section
/-! DEFINITION. Reading the register window: where an address is held, the fields that follow other state, the view of each
function (R52 to R56, R290, R427, R573, Table 2.2), and the effects of a read (R11, R13, R14, R528, R335, R578, R633). -/

namespace Sys2Proof.Machine

/-! ### Where an address is held -/

/-- Where a window address lies: in a register held at an address, in a counter, in a range that reads zero, or where no
register is (R578). -/
inductive Place where
  | reg (a : Nat) (g : Region) (r : Row) (ix : List Nat)
  | cnt (a : Nat) (hi : Bool)
  | zero
  | gap
  deriving DecidableEq, Repr

/-- The address at which a window address is held: the Pitch-wide registers of a pipeline's window are held once for its
Pitch, the pipeline-wide ones once for the pipeline (R150, R264, R235). None where a Pitch-wide one lies in the window of an unassigned
pipeline, which has no Pitch (R578). -/
def State.physAddr (s : State) (rq a : Nat) : Option Nat :=
  match regionOf a with
  | .par p =>
    let o := a % 0x1000000
    if 0x200 ≤ o ∧ o < 0x214 then
      (if s.ownerOfPipe p = 0 then none else some (0x20000000 + s.ownerOfPipe p * 0x1000 + o))
    else some a
  | .ver p =>
    let o := a % 0x100000
    if o < 0x100 then (if s.ownerOfPipe p = 0 then none else some (0x20100000 + s.ownerOfPipe p * 0x1000 + o)) else some a
  | .stg p _ =>
    let o := (a % 0x1000000 - 0x100000) % 0x80000
    if 0x3840 ≤ o ∧ o < 0x3880 then some (0x20200000 + p * 0x4000 + o) else some a
  | _ => if a = 0x80004 ∨ a = 0x80008 then some (0x20300000 + rq * 0x10 + a % 0x10) else some a

/-- Offsets that hold no register and read zero without a violation for function 0 (R578): the global pages of Timetable and
of the traffic manager. -/
def zeroRange (a : Nat) : Bool := decide ((0xC0000 ≤ a ∧ a < 0xC0800) ∨ (0x400000 ≤ a ∧ a < 0x410000))

/-- The pipeline of a register window that belongs to one pipeline, or to one of its lane groups, lanes or ports. -/
def pipeOfRegion : Region → Option Nat
  | .lg g | .lane g _ => some (g / 4)
  | .port n | .tmPort n => some (pipeOfPort n)
  | .tmPipe p | .bpmWr p | .par p | .stg p _ | .tc p | .ver p | .berth p => some p
  | _ => none

/-- Where a window address lies, for requester `rq` of function `fn`. The windows of pipelines that are fused off are space that no
function owns (R3). -/
def State.place (s : State) (fn rq a : Nat) : Place :=
  if (pipeOfRegion (regionOf a)).any s.pipeFused then .gap
  else
    match s.physAddr rq a with
    | none => .zero
    | some pa =>
      match findReg a with
      | some (g, r, ix) => .reg pa g r ix
      | none =>
        match findCnt a with
        | some (c, hi) => .cnt c hi
        | none => if fn = 0 ∧ zeroRange a then .zero else .gap

/-! ### Views (R52 to R54, Table 2.2) -/

/-- The thread of a thread window. -/
def thrOf (c k t : Nat) : Nat := 128 * c + 16 * k + t

/-- The index of a register's own row, 0 where it has none. -/
def ix0 (ix : List Nat) : Nat := ix.headD 0

/-- The second index of a register's own row. -/
def ix1 (ix : List Nat) : Nat := ix.getD 1 0

/-- The third index of a register's own row. -/
def ix2 (ix : List Nat) : Nat := ix.getD 2 0

/-- Function `fn` decodes a register for reading. -/
def State.viewRead (s : State) (fn : Nat) (g : Region) (id : Option RegId) (ix : List Nat) : Bool :=
  if fn = 0 then true
  else
    let lives := s.pitchExists fn
    match g with
    | .dev =>
      match id with
      | some .DEV_ID_PART | some .DEV_ID_VER | some .DEV_ID_FUSED_PIPES | some .DEV_ID_KEYHASH | some .DEV_ROUND_NUM
      | some .DEV_ROUND_PHASE | some .DEV_PRES_STATUS => true
      | some .DEV_LOAD_CTL | some .DEV_LOAD_ADDR_LO | some .DEV_LOAD_ADDR_HI | some .DEV_LOAD_LEN => lives && decide (ix0 ix = fn)
      | some .DEV_IMG_STATUS | some .DEV_IMG_HASH => lives && decide (s.ownerOfPipe (ix0 ix) = fn)
      | _ => false
    | .irqG => decide (id = some .IRQ_BLK)
    | .pst =>
      match id with
      | some .PST_PIT_CTL | some .PST_PIT_SHARE | some .PST_PIT_GRANT | some .PST_PIT_USE => lives && decide (ix0 ix + 1 = fn)
      | _ => false
    | .pitG => decide ((id = some .PIT_AV_CNT ∨ id = some .PIT_AV_ADDR) ∧ ix0 ix = fn)
    | .time =>
      match id with
      | some .TIME_NS | some .TIME_SHD_S | some .TIME_SHD_SF | some .TIME_STATUS => lives
      | _ => false
    | .irqPage n | .pitPage n | .wbStrm n | .cnt n | .dma n | .ring n _ => decide (n = fn)
    | .tt n | .bpmPage n | .ostOwn n => lives && decide (n = fn)
    | .ostThr c k t => lives && decide (s.quadOwner (thrOf c k t / 4) = fn)
    | _ => match pipeOfRegion g with
      | some p => decide (s.ownerOfPipe p = fn)
      | none => false

/-- Function `fn` decodes a register for writing (R55, R290, log entry 142). -/
def State.viewWrite (s : State) (fn : Nat) (g : Region) (id : Option RegId) (ix : List Nat) : Bool :=
  s.viewRead fn g id ix && (decide (fn = 0) ||
    match g with
    | .dev =>
      match id with
      | some .DEV_LOAD_CTL | some .DEV_LOAD_ADDR_LO | some .DEV_LOAD_ADDR_HI | some .DEV_LOAD_LEN => true
      | _ => false
    | .irqG | .pst | .pitG | .time => false
    | .bpmWr _ => decide (id = some .BPM_WR_QUOTA)
    | .pitPage _ => decide (id = some .PIT_CTL)
    | .bpmPage _ =>
      match id with
      | some .BPM_RQ_QUOTA | some .BPM_AUD_CTL | some .BPM_RECLAIM | some .BPM_OWN_CAUSE => true
      | _ => false
    | .wbStrm _ =>
      match id with
      | some .WB_STRM_CTL | some .WB_STRM_CAUSE => true
      | _ => false
    | _ => true)

/-! ### Fields that follow other state -/

/-- A word with the named fields replaced. -/
def putFlds (w : Word) (fs : List (Fld × Nat)) : Word := fs.foldl (fun w f => putFld w f.1 f.2) w


/-- Bits 31:0 of S, as TIME_SHD_S holds them. -/
def wS (t : TimeVal) : Word := BitVec.ofNat 32 t.s

/-- Bits 47:32 of S and the fraction, as TIME_SHD_SF holds them. -/
def wSF (t : TimeVal) : Word := BitVec.ofNat 32 (t.s / 2 ^ 32 * 2 ^ 16 + t.f)

/-- Word k of a sequence of bytes, byte 4k in bits 31:24. -/
def wordBE (bs : Bytes) (k : Nat) : Word := BitVec.ofNat 32 (beNat (slice bs (4 * k) 4))

/-- Word k of a sequence of bytes, byte 4k in bits 7:0. -/
def wordLE (bs : Bytes) (k : Nat) : Word := BitVec.ofNat 32 (leNat (slice bs (4 * k) 4))

/-- The device block. -/
def State.liveDev (s : State) (a : Nat) (id : RegId) (ix : List Nat) : Word :=
  match id with
  | .DEV_ID_VER => s.fuse.version
  | .DEV_ID_FUSED_PIPES => BitVec.ofNat 32 s.fuse.fusedPipes.toNat
  | .DEV_ID_KEYHASH => wordBE s.fuse.keyHash (ix0 ix)
  | .DEV_ROUND_PHASE => putFlds (s.reg a) [(F.DEV_ROUND_PHASE.ROUND_LO, (s.reg R.DEV_ROUND_NUM).toNat)]
  | .DEV_PRES_STATUS => putFlds (s.reg a) [(F.DEV_PRES_STATUS.REMAIN, s.presRemain)]
  | _ => s.reg a

/-- A page of the interrupt block. -/
def State.liveIrq (s : State) (n a : Nat) (id : RegId) : Word :=
  let h := (s.hist n).head?
  match id with
  | .IRQ_SUM => BitVec.ofNat 32 (s.irqSum n)
  | .IRQ_CTL => putFlds (s.reg a) [(F.IRQ_CTL.C, bitN (s.irqC n)), (F.IRQ_CTL.MAX_SEV, s.irqMaxSev n)]
  | .IRQ_HIST_CTL => putFlds (s.reg a) [(F.IRQ_HIST_CTL.LEVEL, (s.hist n).length)]
  | .IRQ_HIST_ID => (h.map histId).getD 0
  | .IRQ_HIST_S => (h.map fun e => wS e.t).getD 0
  | .IRQ_HIST_SF => (h.map fun e => wSF e.t).getD 0
  | .IRQ_HIST_NS => (h.map fun e => BitVec.ofNat 32 e.t.n).getD 0
  | _ => s.reg a

/-- The Pitch control block, a Pitch page. -/
def State.livePit (s : State) (n a : Nat) (id : RegId) : Word :=
  match id with
  | .PIT_STATUS => putFlds 0
      [(F.PIT_STATUS.PIPES, (s.pipesOf n).foldl setNBit 0), (F.PIT_STATUS.DEV_FAULT, bitN (s.devFault && s.pitchExists n)),
       (F.PIT_STATUS.IN_RESET, bitN (s.inReset n))]
  | _ => s.reg a

/-- The time base block. -/
def State.liveTime (s : State) (rq a : Nat) (id : RegId) (ix : List Nat) : Word :=
  let k := ix0 ix
  let e := (s.evtIn k).fifo.head?
  match id with
  | .TIME_NS => BitVec.ofNat 32 ((s.reg R.TIME_STATUS).toNat / 2 ^ 30 * 2 ^ 30 + s.time.n)
  | .TIME_SHD_S => BitVec.ofNat 32 (SMap.get (fun _ => (0, 0)) s.time.shadow rq).1
  | .TIME_SHD_SF =>
    let q := SMap.get (fun _ => (0, 0)) s.time.shadow rq
    wSF { s := q.1, f := q.2 }
  | .TIME_EVT_CTL => putFlds (s.reg a) [(F.TIME_EVT_CTL.LEVEL, (s.evtIn k).fifo.length)]
  | .TIME_EVT_S => (e.map fun r => wS r.t).getD 0
  | .TIME_EVT_SF => (e.map fun r => wSF r.t).getD 0
  | .TIME_EVT_NS => (e.map fun r => putFlds 0
      [(F.TIME_EVT_NS.VALID, 1), (F.TIME_EVT_NS.FALL, bitN r.fall), (F.TIME_EVT_NS.NS, r.t.n)]).getD 0
  | .TIME_EVT_INFO => (e.map fun r => putFlds 0
      [(F.TIME_EVT_INFO.STEP_SEQ, r.seq), (F.TIME_EVT_INFO.HOLDOVER, bitN r.hold)]).getD 0
  | .TIME_SYNCE_CTL => putFlds (s.reg a) [(F.TIME_SYNCE_CTL.SQ, bitN (s.synceHeld k))]
  | .TIME_TL_SERIAL_LO => BitVec.ofNat 32 s.fuse.serial.toNat
  | .TIME_TL_SERIAL_HI => BitVec.ofNat 32 (s.fuse.serial.toNat / 2 ^ 32)
  | _ => s.reg a

/-- A Timetable page. -/
def State.liveTt (s : State) (n a : Nat) (id : RegId) : Word :=
  let h := (s.lateQ n).head?
  match id with
  | .TT_ADV => match s.ttAdvisory n with
    | some v => putFlds 0 [(F.TT_ADV.VALID, 1), (F.TT_ADV.BELOW, bitN (s.ttBelow n)), (F.TT_ADV.ADV, v)]
    | none => putFlds 0 [(F.TT_ADV.BELOW, bitN (s.ttBelow n))]
  | .TT_LATE_CTL => putFlds (s.reg a) [(F.TT_LATE_CTL.LEVEL, (s.lateQ n).length)]
  | .TT_LATE_ID => (h.map fun r => putFlds 0 [(F.TT_LATE_ID.VALID, 1), (F.TT_LATE_ID.REASON, r.reason),
      (F.TT_LATE_ID.EPORT, r.eport), (F.TT_LATE_ID.IPORT, r.iport)]).getD 0
  | .TT_LATE_DS => (h.map fun r => wS r.d).getD 0
  | .TT_LATE_DSF => (h.map fun r => wSF r.d).getD 0
  | .TT_LATE_DNS => (h.map fun r => BitVec.ofNat 32 r.d.n).getD 0
  | .TT_LATE_AMT => (h.map fun r => BitVec.ofNat 32 r.amt).getD 0
  | _ => s.reg a

/-- A Waybill stream page. -/
def State.liveWb (s : State) (n a : Nat) (id : RegId) : Word :=
  let w := s.strm n
  match id with
  | .WB_STRM_CTL => if n = 0 then putFlds (s.reg a) [(F.WB_STRM_CTL.DMA, 1)] else s.reg a
  | .WB_STRM_STATUS => putFlds 0 [(F.WB_STRM_STATUS.OPEN, bitN w.cur.isSome),
      (F.WB_STRM_STATUS.COUNT, (w.cur.map fun o => o.recs.length).getD 0), (F.WB_STRM_STATUS.HELD, w.closed.length)]
  | .WB_STRM_SEQ_LO => BitVec.ofNat 32 w.seq
  | .WB_STRM_SEQ_HI => BitVec.ofNat 32 (w.seq / 2 ^ 32)
  | .WB_STRM_SHEET_LO => BitVec.ofNat 32 w.sheet
  | .WB_STRM_SHEET_HI => BitVec.ofNat 32 (w.sheet / 2 ^ 32)
  | _ => s.reg a

/-- LG_CAUSE with its LANES. -/
def State.liveLg (s : State) (g a : Nat) (id : RegId) : Word :=
  match id with
  | .LG_CAUSE => putFlds (s.reg a) [(F.LG_CAUSE.LANES,
      (List.range 16).foldl (fun v l => if s.reg (R.LG_LN_CAUSE g l) ≠ 0 then setNBit v l else v) 0)]
  | _ => s.reg a

/-- A port. -/
def State.livePort (s : State) (n a : Nat) (id : RegId) : Word :=
  let h := (s.txq n).head?
  match id with
  | .PORT_STATUS => putFlds (s.reg a)
      [(F.PORT_STATUS.FEC_LOCK, bitN (s.fecLock n)), (F.PORT_STATUS.PAUSED, bitN (s.portPaused n))]
  | .PORT_TS_RX_DLY => BitVec.ofNat 32 (if s.formed n then dlyShown (s.rxDly n) else 0)
  | .PORT_TS_TX_DLY => BitVec.ofNat 32 (if s.formed n then dlyShown (s.txDly n) else 0)
  | .PORT_TT_LEAD => (BitVec.ofInt 20 (if s.formed n then s.ttLeadShown n else 0)).setWidth 32
  | .PORT_TS_TXQ_HDR => (h.map fun r => putFlds 0 [(F.PORT_TS_TXQ_HDR.VALID, 1), (F.PORT_TS_TXQ_HDR.MSGTYPE, r.msgType),
      (F.PORT_TS_TXQ_HDR.DOMAIN, r.domain), (F.PORT_TS_TXQ_HDR.SEQ, r.seq)]).getD 0
  | .PORT_TS_TXQ_S => (h.map fun r => wS r.t).getD 0
  | .PORT_TS_TXQ_SF => (h.map fun r => wSF r.t).getD 0
  | .PORT_TS_TXQ_NS => (h.map fun r => BitVec.ofNat 32 r.t.n).getD 0
  | .PORT_TS_TXQ_CTL => putFlds (s.reg a) [(F.PORT_TS_TXQ_CTL.LEVEL, (s.txq n).length)]
  | _ => s.reg a

/-- The Buffer Pool Manager's global registers. -/
def State.liveBpm (s : State) (a : Nat) (id : RegId) (ix : List Nat) : Word :=
  let q := ix0 ix
  match id with
  | .BPM_POOL_FREE => BitVec.ofNat 32 (s.poolFree q)
  | .BPM_POOL_EFF => BitVec.ofNat 32 (if s.poolDefined q then s.poolEff q else 0)
  | .BPM_POOL_UNRSV => BitVec.ofNat 32 (if s.poolDefined q then s.unreserved q else 0)
  | _ => s.reg a

/-- A page of the Buffer Pool Manager. -/
def State.liveBpmPage (s : State) (n a : Nat) (id : RegId) (ix : List Nat) : Word :=
  let h := (s.audQ n).head?
  match id with
  | .BPM_OWN_HOLD => BitVec.ofNat 32 (s.ownHolds n (ix0 ix))
  | .BPM_OWN_RSV => BitVec.ofNat 32 (if n = 0 then s.unreserved (ix0 ix) else s.effRsv n (ix0 ix))
  | .BPM_RQ_HOLD => BitVec.ofNat 32 (s.rqHolds (rqCode n (ix0 ix)) (ix1 ix))
  | .BPM_AUD_HEAD => (h.map fun r => putFlds 0 [(F.BPM_AUD_HEAD.VALID, 1), (F.BPM_AUD_HEAD.HANDLE, r.handle)]).getD 0
  | .BPM_AUD_INFO => (h.map fun r => putFlds 0 [(F.BPM_AUD_INFO.HOLDER, r.holder), (F.BPM_AUD_INFO.HOLDS, min 255 r.holds),
      (F.BPM_AUD_INFO.ALLOC, r.alloc)]).getD 0
  | .BPM_AUD_CTL => putFlds (s.reg a) [(F.BPM_AUD_CTL.LEVEL, (s.audQ n).length)]
  | _ => s.reg a

/-- The bits of word k of TM_IA_DATA that a target takes from software (Table 11.5). -/
def tmMask (target k : Nat) : Nat :=
  match target with
  | 0 => [0x1FFFFF, 0x1FFFFF, 0xFFFFFF, 0xFFFFFF, 0x4000FF0F].getD k 0
  | 1 => if k = 0 then 0x80FFFFFF else 0
  | 2 => if k = 0 then 0xC3FFFFFF else 0
  | 3 => 0xFFFFFFFF
  | _ => 0

/-- Word k of TM_IA_DATA of pipeline p, as the target that TM_IA_CMD names uses it: the words and bits that the target does not use read
zero. -/
def State.tmIaData (s : State) (p k : Nat) : Word :=
  let tg := s.fld (R.TM_IA_CMD p) F.TM_IA_CMD.TARGET
  (s.reg (R.TM_IA_DATA p k) &&& BitVec.ofNat 32 (tmMask tg k)) |||
    (if tg = 0 then BitVec.ofNat 32 ((SMap.get (fun _ => []) s.tm.polRo p).getD k 0) else 0)

/-- A traffic manager port. -/
def State.liveTm (s : State) (n a : Nat) (id : RegId) (ix : List Nat) : Word :=
  let c := ix0 ix
  match id with
  | .TM_IN_PORT_OCC => BitVec.ofNat 32 ((s.portOcc n + 255) / 256)
  | .TM_IN_OCC => BitVec.ofNat 32 ((s.inOcc n c + 255) / 256)
  | .TM_Q_DEPTH => putFlds 0 [(F.TM_Q_DEPTH.PAUSED, bitN (s.paused n c)), (F.TM_Q_DEPTH.DISCARD, bitN (s.discarding n c)),
      (F.TM_Q_DEPTH.BYTES, (s.tmq n c).depth)]
  | _ => s.reg a

/-- An Ostler thread. -/
def State.liveThr (s : State) (t a : Nat) (id : RegId) (ix : List Nat) : Word :=
  let q := s.thr t
  match id with
  | .OST_THR_STATE => putFlds 0 [(F.OST_THR_STATE.STATE, q.st), (F.OST_THR_STATE.DETACH, bitN q.detach),
      (F.OST_THR_STATE.TRAP, bitN q.trap), (F.OST_THR_STATE.OWNER, s.thrOwner t), (F.OST_THR_STATE.PC, q.pc)]
  | .OST_THR_FAULT =>
    if q.faultV then putFlds 0 [(F.OST_THR_FAULT.VALID, 1), (F.OST_THR_FAULT.CODE, q.code), (F.OST_THR_FAULT.DETAIL, q.detail),
      (F.OST_THR_FAULT.PC, q.faultPc)]
    else 0
  | .OST_THR_FADDR => if q.faultV then q.faddr else 0
  | .OST_THR_WIN => putFlds 0 [(F.OST_THR_WIN.SPILLED, q.spilled), (F.OST_THR_WIN.RESIDENT, q.resident),
      (F.OST_THR_WIN.CWP, q.cwp)]
  | .OST_THR_HSLOT => ((q.slot (ix0 ix)).map fun x => putFlds 0 [(F.OST_THR_HSLOT.VALID, 1), (F.OST_THR_HSLOT.HANDLE, x.handle)]).getD 0
  | _ => s.reg a

/-- An Ostler owner page. -/
def State.liveOst (s : State) (n a : Nat) (id : RegId) : Word :=
  let ts := s.threadsOf n
  match id with
  | .OST_OWN_STATUS => match s.supervisor n with
    | some t => putFlds (s.reg a) [(F.OST_OWN_STATUS.SUP, t), (F.OST_OWN_STATUS.SUP_STATE, (s.thr t).st)]
    | none => s.reg a
  | .OST_OWN_COUNT => putFlds 0 [(F.OST_OWN_COUNT.THREADS, ts.length),
      (F.OST_OWN_COUNT.FREE, (ts.filter fun t => decide ((s.thr t).st = 0)).length)]
  | .OST_PS_DATA => s.psWord n (s.fld (R.OST_PS_ADDR n) F.OST_PS_ADDR.ADDR)
  | .OST_FQ_HEAD => match (s.fq n) with
    | [] => 0
    | t :: _ => putFlds 0 [(F.OST_FQ_HEAD.VALID, 1), (F.OST_FQ_HEAD.LEVEL, (s.fq n).length), (F.OST_FQ_HEAD.THREAD, t)]
  | _ => s.reg a

/-- A stage. -/
def State.liveStg (s : State) (p st a : Nat) (id : RegId) (ix : List Nat) : Word :=
  let img := (s.pipe p).img
  let si := (img.bind fun i => i.stages[st]?).getD {}
  let e := s.emStage p st
  let nt := e.notes.head?
  match id with
  | .STG_STATUS => putFlds 0 [(F.STG_STATUS.LOADED, bitN img.isSome), (F.STG_STATUS.BLOCKS, stageBlocks si),
      (F.STG_STATUS.TABLES, (si.em.filterMap fun t => t).length)]
  | .STG_EM_OCC =>
    let rs := e.rows.filter fun r => decide (locTable r.1 = ix0 ix) && r.2.valid
    putFlds 0 [(F.STG_EM_OCC.STASH_USED, (rs.filter fun r => locStash r.1).length), (F.STG_EM_OCC.ENTRIES, rs.length)]
  | .STG_NOTE_HDR => (nt.map fun q => putFlds (BitVec.ofNat 32 (q.loc % 2 ^ 22)) [(F.STG_NOTE_HDR.KIND, q.kind)]).getD 0
  | .STG_NOTE_ROUND => (nt.map fun q => BitVec.ofNat 32 q.round).getD 0
  | .STG_NOTE_CTL => putFlds (s.reg a) [(F.STG_NOTE_CTL.LEVEL, e.notes.length)]
  | .STG_NOTE_ENTRY => (nt.map fun q => wordLE q.entry (ix0 ix)).getD 0
  | .TC_OCC => BitVec.ofNat 32 ((s.tcPipe p).rows.filter fun r => decide (r.1 / 2 ^ 17 = 2 * st + ix0 ix) && r.2.valid).length
  | .STG_UC_HASH => wordBE (s.ucHash p) (ix0 ix)
  | .STG_UC_WORD => (s.ucStore p st).word (s.ucBank p) (ix0 ix)
  | .STG_UC_STBY => (s.ucStore p st).word (1 - s.ucBank p) (3072 + ix0 ix)
  | _ => s.reg a

/-- A word of which only the bytes before byte `n` of the sequence it belongs to are kept. -/
def keepBytes (n k : Nat) (w : Word) : Word := BitVec.ofNat 32 (w.toNat % 2 ^ (8 * min 4 (n - 4 * k)))

/-- Key bytes of the table that TC_IA_CMD names; 80 where it names none. -/
def State.tcIaLen (s : State) (p : Nat) : Nat :=
  let c := R.TC_IA_CMD p
  let st := s.fld c F.TC_IA_CMD.STAGE
  let t := s.fld c F.TC_IA_CMD.TABLE
  if s.tcDefined p st t then 10 * s.tcW p st t else 80

/-- The TCAM engine. -/
def State.liveTc (s : State) (p a : Nat) (id : RegId) (ix : List Nat) : Word :=
  match id with
  | .TC_ENG_STATUS =>
    let ts := ((s.pipe p).img.map fun i => i.stages.flatMap fun si => si.tc.filterMap fun t => t).getD []
    putFlds 0 [(F.TC_ENG_STATUS.LOADED, bitN (!ts.isEmpty)), (F.TC_ENG_STATUS.BLOCKS, (ts.map tcBlockCount).sum),
      (F.TC_ENG_STATUS.SEARCHED, (ts.map tcSearched).sum)]
  | .TC_IA_VAL | .TC_IA_MASK => keepBytes (s.tcIaLen p) (ix0 ix) (s.reg a)
  | _ => s.reg a

/-- The version block's registers of a pipeline. -/
def State.liveVer (s : State) (p a : Nat) (id : RegId) : Word :=
  match id with
  | .VER_PIPE => putFlds (s.reg a) [(F.VER_PIPE.LANDED, bitN (s.ownerOfPipe p != 0 && !s.pipeHeld p && !(s.pipe p).landing)),
      (F.VER_PIPE.ROWS, s.verRows p)]
  | .VER_OLD_LIVE => BitVec.ofNat 32 (s.oldLive p)
  | _ => s.reg a

/-- What a register shows now: held at `a`, for requester `rq` of function `fn`. -/
def State.liveReg (s : State) (fn rq a : Nat) (g : Region) (id : RegId) (ix : List Nat) : Word :=
  match g with
  | .dev => s.liveDev a id ix
  | .irqPage n => s.liveIrq n a id
  | .irqG =>
    if id = .IRQ_BLK then BitVec.ofNat 32 (s.irqBlk fn (ix0 ix) (ix1 ix))
    else if id = .IRQ_FAULTN then putFlds (s.reg a) [(F.IRQ_FAULTN.STATE, bitN s.faultNLow)] else s.reg a
  | .pst => if id = .PST_STATUS then putFlds (s.reg a) [(F.PST_STATUS.EXEMPT_ANY, bitN s.exemptAny)] else s.reg a
  | .pitPage n => s.livePit n a id
  | .time => s.liveTime rq a id ix
  | .tt n => s.liveTt n a id
  | .wbStrm n => s.liveWb n a id
  | .lg g => s.liveLg g a id
  | .port n => s.livePort n a id
  | .bpm => s.liveBpm a id ix
  | .bpmPage n => s.liveBpmPage n a id ix
  | .bpmWr p => if id = .BPM_WR_HOLD then BitVec.ofNat 32 (s.rqHolds p (ix0 ix)) else s.reg a
  | .tmPipe p => if id = .TM_IA_DATA then s.tmIaData p (ix0 ix) else s.reg a
  | .tmPort n => s.liveTm n a id ix
  | .ostThr c k t => s.liveThr (thrOf c k t) a id ix
  | .ostOwn n => s.liveOst n a id
  | .cnt n =>
    if id = .CNT_SMP_ENTRY_LO then BitVec.ofNat 32 (s.smpEntry n (ix0 ix)).toNat
    else if id = .CNT_SMP_ENTRY_HI then BitVec.ofNat 32 ((s.smpEntry n (ix0 ix)).toNat / 2 ^ 32)
    else s.reg a
  | .par p =>
    if id = .PAR_STATUS then
      (match (s.pipe p).img with
       | some i => putFlds 0 [(F.PAR_STATUS.LOADED, 1), (F.PAR_STATUS.STATES, i.graph.length)]
       | none => 0)
    else s.reg a
  | .stg p st => s.liveStg p st a id ix
  | .tc p => s.liveTc p a id ix
  | .ver p => s.liveVer p a id
  | _ => s.reg a

/-- The value of a Round-effective register that waits for a boundary, with PENDING set (R36). -/
def State.waitingReg (s : State) (a : Nat) : Option Word :=
  let late := SMap.get (fun _ => 0) s.lateRegs a
  let pend := SMap.get (fun _ => 0) s.pendRegs a
  if late ≠ 0 then some late else if pend ≠ 0 then some pend else none

/-- What a read of a register shows: write-only fields read zero, and so do SC bits whose register holds none (R11). -/
def State.showReg (s : State) (fn rq a : Nat) (g : Region) (r : Row) (ix : List Nat) : Word :=
  let v := (s.waitingReg a).getD (s.liveReg fn rq a g r.id ix)
  r.fields.foldl (fun v f => if f.2 = .wo then putFld v f.1 0 else v) v

/-! ### Reading (R11, R13, R14, R528) -/

/-- A block of the requester's held high words: the rows of Table 22.1, each pipeline by its window (R633). -/
def holdBlock : Region → Nat
  | .dev => 0
  | .irqPage _ | .irqG => 1
  | .pst => 2
  | .clk => 3
  | .pitG | .pitPage _ => 4
  | .time => 5
  | .tt _ => 6
  | .wb | .wbStrm _ => 7
  | .lg _ | .lane _ _ => 8
  | .port _ => 9
  | .bpm | .bpmPage _ | .bpmWr _ => 10
  | .tmPipe _ | .tmPort _ => 11
  | .ostCl _ | .ostThr _ _ _ | .ostOwn _ => 12
  | .cnt _ => 13
  | .dma _ | .ring _ _ => 14
  | .sb => 15
  | .par p => 16 + p * 28
  | .stg p st => 16 + p * 28 + 1 + st
  | .tc p => 16 + p * 28 + 25
  | .ver p => 16 + p * 28 + 26
  | .berth p => 16 + p * 28 + 27
  | .none => 510

/-- Registers, other than counters, whose next word is the high word of a pair (R528). -/
def pairLow : RegId → Bool
  | .LG_LN_PRBS_ERR_LO | .WB_STRM_SEQ_LO | .WB_STRM_SHEET_LO | .CNT_SMP_ENTRY_LO | .TIME_TL_SERIAL_LO | .TIME_TL_GM_LO => true
  | _ => false

/-- The high words of those pairs. -/
def pairHigh : RegId → Bool
  | .LG_LN_PRBS_ERR_HI | .WB_STRM_SEQ_HI | .WB_STRM_SHEET_HI | .CNT_SMP_ENTRY_HI | .TIME_TL_SERIAL_HI | .TIME_TL_GM_HI => true
  | _ => false

/-- The index of a requester's held high word of a block. -/
def holdIx (rq : Nat) (g : Region) : Nat := rq * 512 + holdBlock g

/-- The held high word. -/
def State.hold (s : State) (rq : Nat) (g : Region) : Hold := SMap.get (fun _ => {}) s.holds (holdIx rq g)

/-- Set the held high word. -/
def State.setHold (s : State) (rq : Nat) (g : Region) (h : Hold) : State :=
  { s with holds := SMap.put (fun _ => {}) s.holds (holdIx rq g) h }

/-- A read of the low word of a pair loads the high word into the requester's hold of the block (R528). -/
def State.pairLoad (s : State) (rq a : Nat) (hi : Word) : State := s.setHold rq (regionOf a) ⟨some a, hi⟩

/-- A read of a high word: the held one where its tag matches, which is then consumed, else the live one (R528). -/
def State.pairTake (s : State) (rq a : Nat) (hi : Word) : Word × State :=
  let h := s.hold rq (regionOf a)
  if h.tag = some (a - 4) then (h.word, s.setHold rq (regionOf a) {}) else (hi, s)

/-- The two words of a counter (R135, R185). -/
def cntWord (v : Nat) (hi : Bool) : Word := BitVec.ofNat 32 (if hi then v / 2 ^ 32 else v)

/-- The pins that read back: a driven pin reads what it drives, an undriven one what the board drives, which is free (R604). -/
def State.gpioRead (s : State) : Word × State :=
  let f := s.freeWord
  let oe := s.reg R.SB_GPIO_OE
  ((s.reg R.SB_GPIO_OUT &&& oe) ||| (BitVec.ofNat 32 f.1 &&& ~~~oe &&& 0xFFFF), f.2)

/-- Clear the RC fields of a register that a read returned (R11). -/
def State.clearRc (s : State) (a : Nat) (r : Row) : State :=
  s.setReg a (r.fields.foldl (fun v f => if f.2 = .rc then putFld v f.1 0 else v) (s.reg a))

/-- What a register counts of what lies outside the part is brought up to date before it is read: the error count of a checker (R98). -/
def State.readFresh (s : State) (g : Region) (r : Row) : State :=
  match g with
  | .lane gr l => if r.id = .LG_LN_PRBS_ERR_LO || r.id = .LG_LN_PRBS_ERR_HI then s.prbsTake (16 * gr + l) else s
  | _ => s

/-- The effects of a read beside the value it returns. -/
def State.readReg (s : State) (fn rq a pa : Nat) (g : Region) (r : Row) (ix : List Nat) : Word × State :=
  let s := s.readFresh g r
  let v := s.showReg fn rq pa g r ix
  if r.id = .TIME_NS then s.timeNsRead rq
  else if r.id = .SB_GPIO_IN then s.gpioRead
  else if r.id = .OST_PS_DATA then (match g with | .ostOwn n => (v, s.psStep n) | _ => (v, s))
  else if pairHigh r.id then s.pairTake rq a v
  else if pairLow r.id then
    (match s.place fn rq (a + 4) with
     | .reg pa' g' r' ix' => (v, s.pairLoad rq a (s.showReg fn rq pa' g' r' ix'))
     | _ => (v, s))
  else if r.fields.any fun f => f.2 = .rc then (v, s.clearRc pa r)
  else (v, s)

/-- A 32-bit read of function `fn` for requester `rq`: its value and its effects. Outside the view, or where no register is, it
returns zero and is an access violation (R14, R53, R578). -/
def State.regRead (s : State) (fn rq a : Nat) : Word × State :=
  match s.place fn rq a with
  | .gap => (0, s.accessViolation fn a false false)
  | .zero => if fn = 0 then (0, s) else (0, s.accessViolation fn a false false)
  | .reg pa g r ix =>
    if s.viewRead fn g (some r.id) ix then s.readReg fn rq a pa g r ix else (0, s.accessViolation fn a false false)
  | .cnt c hi =>
    if s.viewRead fn (regionOf a) none [] then
      (if hi then s.pairTake rq a (cntWord (s.cntRead c) true)
       else (cntWord (s.cntRead c) false, s.pairLoad rq a (cntWord (s.cntRead c) true)))
    else (0, s.accessViolation fn a false false)


/-- A read of `size` bytes by function `fn` for requester `rq`: an aligned 32-bit read, an aligned 64-bit one as two, lower address
first; any other returns zero and is an access violation (R13, R14, R55). -/
def State.sizedRead (s : State) (fn rq a size : Nat) : BitVec 64 × State :=
  if size = 4 ∧ a % 4 = 0 then
    let q := s.regRead fn rq a
    (q.1.zeroExtend 64, q.2)
  else if size = 8 ∧ a % 8 = 0 then
    let lo := s.regRead fn rq a
    let hi := lo.2.regRead fn rq (a + 4)
    (hi.1 ++ lo.1, hi.2)
  else (0, s.accessViolation fn a false true)

/-- A read for requester `rq` of function `fn`: the completion leaves the part. -/
def State.readOut (s : State) (fn rq a size : Nat) : State :=
  let q := s.sizedRead fn rq a size
  q.2.emit (.readData rq a q.1)

end Sys2Proof.Machine
end

