-- ==== Sys2Proof/Machine/RegWrite.lean ====
section
/-! DEFINITION. Writing the register window: the access types (R11, R12, R535, R608), the causes that persist under W1C, the
writes that act (SC bits and the registers whose chapters give a write an effect), and the view (R53, R634). -/

namespace Sys2Proof.Machine

/-- One 32-bit write: who makes it, the window address, the address the register is held at, its place, the value in the
register's fields, and what the command brings: the image that a read of host memory gives, and whether a push's reads all
complete. -/
structure Wr where
  i : Issuer
  a : Nat
  pa : Nat
  g : Region
  row : Row
  ix : List Nat
  v : Word
  img : Option Image := none
  push : Option Bool := none
  deriving DecidableEq, Repr

/-- A field of the value written. -/
def Wr.fld (w : Wr) (f : Fld) : Nat := fldOf w.v f

/-- A one-bit field of the value written. -/
def Wr.bit (w : Wr) (f : Fld) : Bool := decide (fldOf w.v f ≠ 0)

/-- The mask of the fields that `p` picks. -/
def Row.mask (r : Row) (p : FTy → Bool) : Word :=
  BitVec.ofNat 32 ((r.fields.filter fun f => p f.2).foldl (fun m f => m + maskOf f.1) 0)

/-- A word with the bits of a mask taken from another. -/
def mix (old new mask : Word) : Word := (old &&& ~~~mask) ||| (new &&& mask)

/-! ### Causes that persist (R11, R563) -/

/-- Bits of a detail cause register whose causes persist now. -/
def State.persist (s : State) (a : Nat) (g : Region) (id : RegId) : Word :=
  let b := fun (f : Fld) (c : Bool) => if c then 2 ^ f.lo else 0
  BitVec.ofNat 32 <| match id, g with
  | .LG_CAUSE, .lg g =>
    b F.LG_CAUSE.PLL_LOL (!s.bit (R.LG_STATUS g) F.LG_STATUS.PLL_LOCK) +
      b F.LG_CAUSE.FWD_LOL (!s.bit (R.LG_STATUS g) F.LG_STATUS.FWD_LOCK && s.groupHasEnabled g)
  | .LG_LN_CAUSE, .lane g l =>
    let n := 16 * g + l
    b F.LG_LN_CAUSE.LOS (s.laneWatched n && s.los n) + b F.LG_LN_CAUSE.LOL (s.laneWatched n && !s.cdrLock n) +
      b F.LG_LN_CAUSE.LMF_WARN (s.lane n).warnOn + b F.LG_LN_CAUSE.LMF_ALARM (s.lane n).alarmOn
  | .PORT_CAUSE, .port n =>
    b F.PORT_CAUSE.LINK_DOWN (s.portEnabled n && !s.linkUp n) +
      b F.PORT_CAUSE.RX_LF (s.bit (R.PORT_STATUS n) F.PORT_STATUS.RX_LF) +
      b F.PORT_CAUSE.RX_RF (s.bit (R.PORT_STATUS n) F.PORT_STATUS.RX_RF)
  | .STG_CAUSE, .stg p st => b F.STG_CAUSE.NOTE_FULL (decide (s.noteRoom p st = 0))
  | .VER_CAUSE, _ => b F.VER_CAUSE.DRAIN_TIMEOUT (s.verSt ((a - 0x20100000) / 0x1000)).late
  | .BPM_CAUSE, _ => b F.BPM_CAUSE.FENCE (decide (0 < s.fencedCount))
  | .BPM_OWN_CAUSE, .bpmPage n => b F.BPM_OWN_CAUSE.ORPHAN (!(s.audQ n).isEmpty)
  | .TM_PORT_CAUSE, .tmPort n =>
    b F.TM_PORT_CAUSE.DOWN_FLUSH (s.downDrop n) +
      b F.TM_PORT_CAUSE.WD_ENTER (decide (s.fld (R.TM_PORT_STATUS n) F.TM_PORT_STATUS.DISCARD ≠ 0))
  | .TIME_CAUSE, _ =>
    b F.TIME_CAUSE.HOLDOVER s.holdover + b F.TIME_CAUSE.REF_LOSS s.time.lost +
      b F.TIME_CAUSE.CNT_FAULT s.time.copy1.isSome +
      b F.TIME_CAUSE.TL_NO_MASTER (decide (s.timeSrc = 3) && !s.bit R.TIME_STATUS F.TIME_STATUS.TL_SLAVE) +
      b F.TIME_CAUSE.SYNCE_SQ s.synceLowNow
  | .TT_CAUSE, .tt n => b F.TT_CAUSE.BELOW_ADV (s.ttBelow n)
  | .WB_CAUSE, _ => b F.WB_CAUSE.ENGINE (decide (s.enginesUp < 2))
  | .WB_STRM_CAUSE, .wbStrm n =>
    b F.WB_STRM_CAUSE.NOKEY (s.strm n).noKey + b F.WB_STRM_CAUSE.EXP_STALL (s.wbStalled n)
  | .OST_OWN_CAUSE, .ostOwn n =>
    b F.OST_OWN_CAUSE.SUP_FAULT ((s.supervisor n).any fun t => decide ((s.thr t).st = 6)) +
      b F.OST_OWN_CAUSE.FAULT (s.anyFaulted n)
  | .CNT_CAUSE, .cnt n =>
    b F.CNT_CAUSE.MON (s.monAny n) + b F.CNT_CAUSE.SMP_FULL (s.bit (R.CNT_SMP_PTR n) F.CNT_SMP_PTR.FULL)
  | .PST_CAUSE, _ =>
    b F.PST_CAUSE.EXEMPT_UNMET s.unmetNow + b F.PST_CAUSE.POSTILION s.pw.postil +
      b F.PST_CAUSE.NEIGHBOUR (!s.pw.beyond.isEmpty) + b F.PST_CAUSE.THERM_LIMIT s.thermHeld +
      b F.PST_CAUSE.THERM_WARN s.warm + b F.PST_CAUSE.LG_DEFER s.lgWaits
  | .CLK_CAUSE, _ =>
    b F.CLK_CAUSE.PLL_LOL (decide (s.fld R.CLK_STATUS F.CLK_STATUS.PLL_LOCK ≠ 0x7F)) +
      b F.CLK_CAUSE.REF_LOSS (!s.bit R.CLK_STATUS F.CLK_STATUS.REF_OK)
  | .DEV_BOOT_CAUSE, _ => b F.DEV_BOOT_CAUSE.DOM_FAIL s.anyDomFail
  | .IRQ_OWN_CAUSE, .irqPage n =>
    if n = 0 then
      b F.IRQ_OWN_CAUSE.DOM_FAULT (s.pw.faulted.any fun e => e.2 && decide (128 ≤ e.1) && !s.domReady e.1)
    else b F.IRQ_OWN_CAUSE.PIPE_FAULT ((s.pipesOf n).any s.pipeFailed)
  | .DEV_PRES_CAUSE, _ => b F.DEV_PRES_CAUSE.SEAL_OPEN (!s.sealOk)
  | .SB_CAUSE, _ => 2 ^ 8 * ((List.range 8).foldl (fun v m => if SMap.get (fun _ => false) s.side.stuck m then setNBit v m else v) 0)
  | .DMA_CAUSE, .dma f =>
    2 ^ 4 * ((List.range 4).foldl (fun v r => if s.bit (R.DMA_RING_CTL f r) F.DMA_RING_CTL.STOPPED then setNBit v r else v) 0)
  | _, _ => 0

/-! ### RWI fields (R535, Table 19.3) -/

/-- The block of an RWI field is idle; registers that their own writes judge do not come here. -/
def State.rwiIdle (s : State) (w : Wr) : Bool :=
  match w.row.id, w.g with
  | .PORT_AN_CTL, .port n | .PORT_ONZ_CTL, .port n => !s.portEnabled n
  | .PAR_HASH_SEED, .par p => !s.pipeHasEnabled p
  | .STG_EM_CTL, .stg p _ => !s.pipeHasEnabled p
  | .STG_EM_SEED, .stg p st =>
    !s.pipeHasEnabled p && !((s.emStage p st).rows.any fun r => decide (locTable r.1 = ix0 w.ix) && r.2.valid)
  | .DMA_RING_BASE_LO, .ring f r | .DMA_RING_BASE_HI, .ring f r => !s.ringEn f r
  | _, _ => true

/-- The idle violation of Table 19.3. -/
def State.rwiCause (s : State) (w : Wr) : State :=
  match w.g with
  | .port n => s.cause (R.PORT_CAUSE n) F.PORT_CAUSE.CFG
  | .par p => s.cause (R.PAR_CAUSE p) F.PAR_CAUSE.IDLE_VIOL
  | .stg p st => s.cause (R.STG_CAUSE p st) F.STG_CAUSE.IDLE_VIOL
  | .ring f _ => s.cause (R.DMA_CAUSE f) F.DMA_CAUSE.IDLE_VIOL
  | _ => s

/-! ### RWP fields (R608) -/

/-- The subject of audit event 0x06: the Pitch of the register, or 0. -/
def State.subject (s : State) (w : Wr) : Nat :=
  match w.g with
  | .pst => if w.row.id = .PST_PIT_CTL then ix0 w.ix + 1 else 0
  | .tt n | .wbStrm n | .ostOwn n => n
  | .port n => s.ownerOfPort n
  | _ => 0

/-- A write that would change RWP fields of a register that holds `old`: whether they may be stored, with its audit entry. -/
def State.gate (s : State) (w : Wr) (old : Word) : Bool × State :=
  let m := w.row.mask (· == .rwp)
  if (old &&& m) = (w.v &&& m) then (true, s) else s.rwpGate w.i (s.subject w) w.a old w.v

/-! ### A plain write -/

/-- A write of a Round-effective register stores a pending value with PENDING set (R36). Its RWP fields are judged against the
value as it stands; a write that changes only refused RWP fields, or none, makes no pending value of them. -/
def State.pendWrite (s : State) (w : Wr) : State :=
  let old := (s.waitingReg w.pa).getD (s.reg w.pa)
  let q := s.gate w old
  let wr := w.row.mask fun t => t == .rw || (q.1 && t == .rwp)
  let new := mix old w.v wr
  let rwOnly := w.row.fields.any fun f => f.2 == .rw
  if !rwOnly && (new &&& wr) = (old &&& wr) then q.2
  else
    let nw := putFld new ⟨31, 1⟩ 1
    if s.lateInRound then { q.2 with lateRegs := SMap.put (fun _ => 0) q.2.lateRegs w.pa nw }
    else { q.2 with pendRegs := SMap.put (fun _ => 0) q.2.pendRegs w.pa nw }

/-- A write that only stores: RW, WO, W1C, RWI and RWP fields by their types; RO and RC fields ignore it, and SC bits start
nothing. -/
def State.plainWrite (s : State) (w : Wr) : State :=
  if w.row.roundEff then s.pendWrite w
  else
    let old := s.reg w.pa
    let q := s.gate w old
    let s := q.2
    let rwi := w.row.mask (· == .rwi)
    let idle := s.rwiIdle w
    let wr := w.row.mask fun t => t == .rw || t == .wo || (q.1 && t == .rwp) || (idle && t == .rwi)
    let clr := w.v &&& w.row.mask (· == .w1c) &&& ~~~s.persist w.pa w.g w.row.id
    let s := s.setReg w.pa (mix old w.v wr &&& ~~~clr)
    if !idle && (old &&& rwi) ≠ (w.v &&& rwi) then s.rwiCause w else s

/-- The audit entry of a refused key command, or of one whose result refuses it (R415, R424). -/
def State.keyRefused (s : State) : State :=
  let len := s.fld R.WB_KEY_CTL F.WB_KEY_CTL.LEN
  let key := s.wbKeyData.take len
  let kcv := if len = 0 then 0 else beNat ((hmac256 key (List.replicate 32 0)).take 4)
  s.audit 0x0F true (s.fld R.WB_KEY_CTL F.WB_KEY_CTL.SLOT) (natBE 4 kcv ++ [BitVec.ofNat 8 len])

/-! ### Device, interrupts, power, clocks -/

/-- The device block. -/
def State.writeDev (s : State) (w : Wr) : State :=
  match w.row.id with
  | .DEV_PRES_CTL =>
    let s := s.plainWrite w
    if w.bit F.DEV_PRES_CTL.CLOSE then s.presEnd else s
  | .DEV_PUSH_CTL =>
    if w.bit F.DEV_PUSH_CTL.GO then
      (match w.push with
       | some ok => s.pushGo w.i.fn ok
       | none => let q := s.freeBool; q.2.pushGo w.i.fn q.1)
    else s
  | .DEV_LOAD_CTL =>
    let s := s.plainWrite w
    if w.bit F.DEV_LOAD_CTL.GO then s.imageLoad w.i (ix0 w.ix) w.img else s
  | _ => s.plainWrite w

/-- A write of IRQ_PEND: MSI is sent again while C_n stays 1 (R560). -/
def State.pendClear (s : State) (n : Nat) (w : Wr) : State :=
  let s := s.plainWrite w
  if s.irqC n then s.sendMsi n else s

/-- The interrupt block. -/
def State.writeIrq (s : State) (w : Wr) : State :=
  match w.row.id, w.g with
  | .IRQ_PEND, .irqPage n => s.pendClear n w
  | .IRQ_EN, .irqPage n =>
    let s1 := s.plainWrite w
    if !s.irqC n && s1.irqC n then s1.sendMsi n else s1
  | .IRQ_CTL, .irqPage n =>
    let s1 := s.plainWrite w
    let s1 := if n = 0 then s1 else s1.setFld w.pa F.IRQ_CTL.PIN_EN 0
    s1.rises s
  | .IRQ_HIST_CTL, .irqPage n =>
    if w.bit F.IRQ_HIST_CTL.POP then
      s.setHist n (s.hist n).tail
    else s
  | .IRQ_WMASK, _ =>
    (s.plainWrite w).rises s
  | _, _ => s.plainWrite w

/-- The Postilion. -/
def State.writePst (s : State) (w : Wr) : State :=
  match w.row.id with
  | .PST_THERM_THR => (s.plainWrite w).thermRise s
  | .PST_REG_CTL => s.forceWrite (ix0 w.ix) w.v
  | _ => s.plainWrite w

/-- Clocks and resets. -/
def State.writeClk (s : State) (w : Wr) : State :=
  match w.row.id with
  | .CLK_RST_DEV => if w.bit F.CLK_RST_DEV.GO then s.deviceReset w.i w.v else s
  | _ => s.plainWrite w

/-! ### Pitch control -/

/-- The mirror bucket as it stands now, and its depth. -/
def State.mirrorNow (s : State) : Bucket :=
  s.mirror.refill (min 1600000 (s.fld R.PIT_MIR_RATE F.PIT_MIR_RATE.CIR)) s.clk16

/-- The depth of the mirror bucket (R59). -/
def State.mirrorDepth (s : State) : Nat := max 10240 (s.fld R.PIT_MIR_BURST F.PIT_MIR_BURST.BYTES)

/-- Pitch control. -/
def State.writePit (s : State) (w : Wr) : State :=
  match w.row.id, w.g with
  | .PIT_COMMIT, _ => if w.bit F.PIT_COMMIT.GO then s.pitCommit w.i else s
  | .PIT_MIR_CTL, _ =>
    let old := s.reg w.pa
    let s := s.plainWrite w
    if s.reg w.pa ≠ old ∧ s.fld w.pa F.PIT_MIR_CTL.DIR = 3 then s.cause (R.IRQ_OWN_CAUSE 0) F.IRQ_OWN_CAUSE.CFG else s
  | .PIT_MIR_RATE, _ => State.plainWrite { s with mirror := s.mirrorNow } w
  | .PIT_MIR_BURST, _ =>
    let d := s.mirrorDepth
    let s1 := State.plainWrite { s with mirror := s.mirrorNow } w
    { s1 with mirror := s1.mirror.redepth d s1.mirrorDepth }
  | .PIT_OST_OWNER, _ => s.ostOwnerWrite (ix0 w.ix) w.v
  | .PIT_CTL, .pitPage n => s.pitCtlWrite w.i.fn n w.v
  | .PIT_MC_RANGE, .pitPage n => s.mcRangeWrite n w.v
  | .PIT_BUF_RSV, .pitPage n => s.bufRsvWrite n (ix0 w.ix) w.v
  | _, _ => s.plainWrite w

/-! ### Time, Timetable, Waybill -/

/-- The time base. -/
def State.writeTime (s : State) (w : Wr) : State :=
  match w.row.id with
  | .TIME_SET_S | .TIME_SET_SF | .TIME_SET_NS => if s.setBusy then s.busyWrite w.i.fn else s.plainWrite w
  | .TIME_SET_CTL =>
    let busy := s.setBusy
    let s := s.plainWrite w
    if !w.bit F.TIME_SET_CTL.GO then s else if busy then s.busyWrite w.i.fn else s.timeSetGo
  | .TIME_ADJ_CTL =>
    let s := s.plainWrite w
    if w.bit F.TIME_ADJ_CTL.GO then s.timeAdjGo else s
  | .TIME_FREQ => s.timeFreqWrite w.v
  | .TIME_SRC_CTL =>
    let q := s.gate w (s.reg w.pa)
    if q.1 then q.2.timeSrcWrite w.v else q.2
  | .TIME_PPS_CTL => s.ppsWrite w.i.fn (ix0 w.ix) w.v
  | .TIME_EVT_CTL =>
    let s := s.plainWrite w
    if w.bit F.TIME_EVT_CTL.POP then s.evtPop (ix0 w.ix) else s
  | .TIME_TL_PORT =>
    let k := ix0 w.ix
    let old := s.fld (R.TIME_TL_PORT k) F.TIME_TL_PORT.PORT
    let s := s.plainWrite w
    (if s.fld (R.TIME_TL_PORT k) F.TIME_TL_PORT.PORT = old then s else s.setTl k {}).tlSelect
  | .TIME_TL_CTL | .TIME_TL_SELF => (s.plainWrite w).tlSelect
  | _ => s.plainWrite w

/-- A Timetable page. -/
def State.writeTt (s : State) (w : Wr) : State :=
  match w.row.id, w.g with
  | .TT_LATE_CTL, .tt n => if w.bit F.TT_LATE_CTL.POP then s.latePop n else s
  | _, _ => s.plainWrite w

/-- The write of WB_EXP_PORT[k] names a port of the Pitch it names (R421). -/
def State.expOwned (s : State) (v : Word) : Bool :=
  let n := fldOf v F.WB_EXP_PORT.PITCH
  decide (1 ≤ n ∧ n ≤ 16) && decide (s.ownerOfPort (fldOf v F.WB_EXP_PORT.PORT) = n)

/-- A write of WB_EXP_PORT[k]: gated, and accepted only when the port belongs to the Pitch; otherwise entered as refused. -/
def State.expPortWrite (s : State) (w : Wr) : State :=
  if s.presOpen && s.reg w.pa ≠ w.v && !s.expOwned w.v then s.auditWrite true 0 w.a (s.reg w.pa) w.v else s.plainWrite w

/-- WB_KEY_CTL.GO outside a window is refused; inside one it loads or erases the slot. -/
def State.keyGo (s : State) (i : Issuer) : State :=
  if s.presOpen then s.wbKeyLoad else (((s.presRefuse i R.WB_KEY_CTL).keyRefused).setFld R.WB_KEY_CTL F.WB_KEY_CTL.GO 0).wbKeyWipe

/-- The global page of the Waybill. -/
def State.writeWb (s : State) (w : Wr) : State :=
  match w.row.id with
  | .WB_KEY_CTL =>
    let s := s.plainWrite w
    if w.bit F.WB_KEY_CTL.GO then s.keyGo w.i else s
  | .WB_EXP_PORT => s.expPortWrite w
  | _ => s.plainWrite w

/-- A write of WB_STRM_CTL[n] (R413, R416, R419, R427, R634): function n stores CLOSE_ROUNDS and FLUSH alone, and a change that
it offers of another field is a violation; function 0's DMA and KEY_IDX are gated. -/
def State.strmCtlWrite (s : State) (n : Nat) (w : Wr) : State :=
  let a := R.WB_STRM_CTL n
  let dma := if n = 0 then s.fld a F.WB_STRM_CTL.DMA else w.fld F.WB_STRM_CTL.DMA
  let key := w.fld F.WB_STRM_CTL.KEY_IDX
  let old := s.reg a
  let s := s.setFld a F.WB_STRM_CTL.CLOSE_ROUNDS (w.fld F.WB_STRM_CTL.CLOSE_ROUNDS)
  let dDma := decide (dma ≠ fldOf old F.WB_STRM_CTL.DMA)
  let dKey := decide (key ≠ fldOf old F.WB_STRM_CTL.KEY_IDX)
  let s :=
    if w.i.fn ≠ 0 then
      (if dDma || dKey || w.fld F.WB_STRM_CTL.BACKLOG ≠ fldOf old F.WB_STRM_CTL.BACKLOG then s.accessViolation w.i.fn w.a true false
       else s)
    else
      let was := s.wbStalled n
      let s := (s.setFld a F.WB_STRM_CTL.BACKLOG (w.fld F.WB_STRM_CTL.BACKLOG)).stallRise n was
      if !(dDma || dKey) then s
      else if !s.presOpen then (s.presRefuse w.i w.a).auditWrite true n w.a old w.v
      else
        let s := if dDma then (s.auditWrite false n w.a old w.v).setFld a F.WB_STRM_CTL.DMA dma else s
        s.wbKeyIdx n key
  if w.bit F.WB_STRM_CTL.FLUSH then s.wbClose n 3 else s

/-- A write of WB_STRM_QUOTA[n]: ignored in page 0, and refused where the rates would exceed 3,200 (R417). -/
def State.strmQuotaWrite (s : State) (n : Nat) (w : Wr) : State :=
  let r := w.fld F.WB_STRM_QUOTA.RATE
  let others := (((List.range 17).filter fun m => decide (1 ≤ m ∧ m ≠ n)).map fun m =>
    min 3200 (s.fld (R.WB_STRM_QUOTA m) F.WB_STRM_QUOTA.RATE)).sum
  if n = 0 then s
  else if 3200 < others + min 3200 r then s.cause R.WB_CAUSE F.WB_CAUSE.QUOTA_CFG
  else (s.wbRefill n).setFld (R.WB_STRM_QUOTA n) F.WB_STRM_QUOTA.RATE r

/-- A stream page of the Waybill. -/
def State.writeStrm (s : State) (w : Wr) : State :=
  match w.row.id, w.g with
  | .WB_STRM_CTL, .wbStrm n => s.strmCtlWrite n w
  | .WB_STRM_QUOTA, .wbStrm n => s.strmQuotaWrite n w
  | _, _ => s.plainWrite w

/-! ### Lanes, ports, buffers, queues -/

/-- A lane group or a lane. -/
def State.writeLane (s : State) (w : Wr) : State :=
  match w.row.id, w.g with
  | .LG_CTL, .lg g => s.lgCtlWrite g w.v
  | .LG_LN_FIR_B, .lane g l => s.firBWrite (16 * g + l) w.v
  | .LG_LN_TEST, .lane g l => s.laneTestWrite (16 * g + l) w.v
  | .LG_LN_EYE_CTL, .lane g l => s.eyeWrite w.i.fn (16 * g + l) w.v
  | .LG_LN_RST, .lane g l => if w.bit F.LG_LN_RST.GO then s.laneReset (16 * g + l) else s
  | _, _ => s.plainWrite w

/-- A port. -/
def State.writePort (s : State) (w : Wr) : State :=
  match w.row.id, w.g with
  | .PORT_CTL, .port n => s.portCtlWrite n w.v
  | .PORT_PFC_MAP, .port n => s.pfcMapWrite n (ix0 w.ix) w.v
  | .PORT_TS_CAL_CTL, .port n =>
    let busy := (s.calRun n).isSome
    let s := s.plainWrite w
    if !w.bit F.PORT_TS_CAL_CTL.GO then s else if busy then s.busyWrite w.i.fn else s.calGo n
  | .PORT_TS_TXQ_CTL, .port n => if w.bit F.PORT_TS_TXQ_CTL.POP then s.txqPop n else s
  | .PORT_TS_RX_ASYM, .port n | .PORT_TS_CAL_RX, .port n => (s.plainWrite w).rxCompMark n (s.rxComp n)
  | .PORT_TS_P2P_DLY, .port n => (s.plainWrite w).p2pMark n (s.p2pDly n)
  | .PORT_RST, .port n => if w.bit F.PORT_RST.GO then s.portReset w.i.fn n else s
  | .PORT_CMIS_CMD, .port n => s.cmisWrite w.i.fn n w.v
  | _, _ => s.plainWrite w

/-- Slot r of owner n is a requester of Table 10.2. -/
def rqGiven (n r : Nat) : Bool := decide (r < 6) || (if n = 0 then decide (r = 7) else decide (r = 6))

/-- The Buffer Pool Manager. -/
def State.writeBpm (s : State) (w : Wr) : State :=
  match w.row.id, w.g with
  | .BPM_FENCE_CTL, _ =>
    let s := s.plainWrite w
    if w.bit F.BPM_FENCE_CTL.GO then s.fenceSlice (w.fld F.BPM_FENCE_CTL.SLICE) else s
  | .BPM_RQ_QUOTA, .bpmPage n => if rqGiven n (ix0 w.ix) then s.plainWrite w else s
  | .BPM_AUD_CTL, .bpmPage n => if w.bit F.BPM_AUD_CTL.POP then s.audPop n else s
  | .BPM_RECLAIM, .bpmPage n =>
    let s := s.plainWrite w
    if !w.bit F.BPM_RECLAIM.GO then s else if (s.recl n).isSome then s.busyWrite w.i.fn else s.reclaim n
  | _, _ => s.plainWrite w

/-- The traffic manager. -/
def State.writeTm (s : State) (w : Wr) : State :=
  match w.row.id, w.g with
  | .TM_IA_CMD, .tmPipe p =>
    if s.bit w.pa F.TM_IA_CMD.GO then s.busyWrite w.i.fn
    else
      let s := s.plainWrite w
      if w.bit F.TM_IA_CMD.GO then s.tmIaGo p else s
  | .TM_IA_DATA, .tmPipe p =>
    if s.bit (R.TM_IA_CMD p) F.TM_IA_CMD.GO then s.busyWrite w.i.fn
    else
      let m := BitVec.ofNat 32 (tmMask (s.fld (R.TM_IA_CMD p) F.TM_IA_CMD.TARGET) (ix0 w.ix))
      s.setReg w.pa (mix (s.reg w.pa) w.v m)
  | .TM_Q_SCHED, .tmPort n =>
    let s := s.plainWrite w
    s.setTmq n (ix0 w.ix) { s.tmq n (ix0 w.ix) with deficit := 0 }
  | .TM_WD_CTL, .tmPort n => (s.plainWrite w).stallEvals n
  | .TM_IN_PORT_XOFF, .tmPort n | .TM_IN_PORT_XON, .tmPort n | .TM_IN_XOFF, .tmPort n | .TM_IN_XON, .tmPort n =>
    (s.plainWrite w).fcEval n
  | _, _ => s.plainWrite w

/-! ### Ostlers, counters, DMA, sideband -/

/-- A write of OST_CUST_CTL[n] (R453, R454): busy while a check runs; a change of EN is gated. A write of EN = 1 starts a check whatever EN
was, and one of EN = 0 in OFF leaves all as it is (log entry 65); one of EN = 1 that ends with RESULT 0x2 changes nothing and is entered as
refused. -/
def State.custWrite (s : State) (n : Nat) (w : Wr) : State :=
  if s.custState n = 1 then s.custBusy n
  else if !w.bit F.OST_CUST_CTL.EN && !s.bit w.pa F.OST_CUST_CTL.EN then s
  else if w.bit F.OST_CUST_CTL.EN && !s.bit w.pa F.OST_CUST_CTL.EN && s.presOpen && s.custCannot n then
    (s.auditWrite true (s.subject w) w.a (s.reg w.pa) w.v).custResult n 2
  else
    let q := s.gate w (s.reg w.pa)
    if !q.1 then q.2 else if w.bit F.OST_CUST_CTL.EN then q.2.custEnable n else q.2.custDisable n

/-- The Ostlers. -/
def State.writeOst (s : State) (w : Wr) : State :=
  match w.row.id, w.g with
  | .OST_THR_CTL, .ostThr c k t => if w.bit F.OST_THR_CTL.RESET then s.thrReset (thrOf c k t) else s
  | .OST_OWN_CTL, .ostOwn n =>
    let s := if w.bit F.OST_OWN_CTL.SUP_START then s.supRestart n else s
    if w.bit F.OST_OWN_CTL.KICK then s.ostKick n else s
  | .OST_CUST_CTL, .ostOwn n => s.custWrite n w
  | .OST_PS_DATA, .ostOwn n => s.psWrite w.i.fn n w.a w.v
  | _, _ => s.plainWrite w

/-- A counter page. -/
def State.writeCnt (s : State) (w : Wr) : State :=
  match w.row.id, w.g with
  | .CNT_SNAP_CTL, .cnt n => s.snapWrite w.i.fn n (w.bit F.CNT_SNAP_CTL.GO) (w.bit F.CNT_SNAP_CTL.THAW)
  | .CNT_MON_CTL, .cnt n => s.monWrite n (ix0 w.ix) w.v
  | .CNT_SMP_CTL, .cnt n => s.smpCtlWrite n w.v
  | .CNT_SMP_FILT, .cnt n => s.smpFiltWrite n w.v
  | _, _ => s.plainWrite w

/-- Host DMA. -/
def State.writeDma (s : State) (w : Wr) : State :=
  match w.row.id, w.g with
  | .DMA_RING_CTL, .ring f r => s.ringCtlWrite f r w.v
  | .DMA_RING_TAIL, .ring f r => s.tailWrite f r w.v
  | .DMA_FREE, .dma f => s.dmaFree f (w.fld F.DMA_FREE.HANDLE)
  | _, _ => s.plainWrite w

/-- The sideband block. -/
def State.writeSb (s : State) (w : Wr) : State :=
  match w.row.id with
  | .SB_I2C_CMD => s.i2cWrite w.i.fn (ix0 w.ix) w.v
  | _ => s.plainWrite w

/-! ### Pipelines -/

/-- The result of a swap that is refused, with its audit entry (R234). -/
def State.swapRefuse (s : State) (p r : Nat) : State :=
  (s.setFld (R.STG_UC_SWAP p) F.STG_UC_SWAP.RESULT r).audit 0x0D true p (s.ucHash p)

/-- STG_UC_SWAP.GO of pipeline p (R234, R235). The checks are made at once; the banks land later. -/
def State.swapGo (s : State) (i : Issuer) (p a : Nat) : State :=
  let c := R.STG_UC_SWAP p
  if !s.presOpen then (s.presRefuse i a).audit 0x0D true p (s.ucHash p)
  else if (s.pipe p).swapDue then s.busyWrite i.fn
  else if s.bit c F.STG_UC_SWAP.DRAINING then s.swapRefuse p 2
  else if s.inReset (s.ownerOfPipe p) || !((s.pipe p).img.any fun g => Image.hasHooks g) then s.swapRefuse p 3
  else
    match s.ucSwapCheck p with
    | some (st, wd, ck) =>
      (s.setReg (R.STG_UC_SWAP_ERR p) (putFlds 0 [(F.STG_UC_SWAP_ERR.VALID, 1), (F.STG_UC_SWAP_ERR.STAGE, st),
        (F.STG_UC_SWAP_ERR.CHECK, ck), (F.STG_UC_SWAP_ERR.WORD, wd)])).swapRefuse p 1 |>.cause (R.STG_UC_CAUSE p 0) F.STG_UC_CAUSE.SWAP_FAIL
    | none =>
      let s := (s.setReg (R.STG_UC_SWAP_ERR p) 0).setPipe p { s.pipe p with swapDue := true, swapOld := false }
      (s.setFld c F.STG_UC_SWAP.RESULT 15).setBit c F.STG_UC_SWAP.GO true

/-- The checked standby banks of pipeline p land (R235). -/
def State.swapLand (s : State) (p : Nat) : State :=
  if !(s.pipe p).swapDue then s
  else
    let c := R.STG_UC_SWAP p
    let chk := if (s.pipe p).swapOld then 0 else 1
    let s := s.setPipe p { s.pipe p with swapDue := false, swapOld := false }
    let s := s.setReg c (putFlds 0 [(F.STG_UC_SWAP.CHECKED, chk), (F.STG_UC_SWAP.DRAINING, 1), (F.STG_UC_SWAP.BANK, 1 - s.ucBank p)])
    s.audit 0x0D false p (s.ucHash p)

/-- A packet of the bank that is not active remains in a stage of pipeline p: it took its bank at its ingress berth, and takes
another as it enters egress stage 0 (R235). -/
def State.oldBankIn (s : State) (p : Nat) : Bool :=
  let old := fun (r lo : Nat) (k : Pkt) => k.runs && decide (k.f r lo 1 ≠ s.ucBank p)
  ((List.range 16).any fun st => (s.waiting p st).any (old 6 19)) ||
  ((List.range 7).any fun i => (s.waiting p (17 + i)).any (old 10 20))

/-- No packet of the old bank remains in any stage of pipeline p (R235). -/
def State.swapDrained (s : State) (p : Nat) : State :=
  if s.oldBankIn p then s else s.setBit (R.STG_UC_SWAP p) F.STG_UC_SWAP.DRAINING false

/-- A write of standby word 3072 + k of a stage (R235). -/
def State.stbyWrite (s : State) (f p st k : Nat) (v : Word) : State :=
  if (s.pipe p).swapDue || s.bit (R.STG_UC_SWAP p) F.STG_UC_SWAP.DRAINING then
    (s.cause (R.STG_UC_CAUSE p st) F.STG_UC_CAUSE.STBY_BUSY).busyWrite f
  else s.setUcStore p st ((s.ucStore p st).put (1 - s.ucBank p) (3072 + k) v)

/-- A stage. -/
def State.writeStg (s : State) (w : Wr) : State :=
  match w.row.id, w.g with
  | .STG_IA_CMD, .stg p st =>
    if s.bit w.pa F.STG_IA_CMD.GO then s.busyWrite w.i.fn
    else
      let s := s.plainWrite w
      if w.bit F.STG_IA_CMD.GO then s.iaGo p st else s
  | .STG_IA_DATA, .stg p st => if s.bit (R.STG_IA_CMD p st) F.STG_IA_CMD.GO then s.busyWrite w.i.fn else s.plainWrite w
  | .STG_NOTE_CTL, .stg p st => if w.bit F.STG_NOTE_CTL.POP then s.notePop p st else s
  | .TC_GMASK_CTL, .stg p st => if w.bit F.TC_GMASK_CTL.TAKE then s.gmaskTake p st (ix0 w.ix) else s
  | .STG_UC_SWAP, .stg p _ => if w.bit F.STG_UC_SWAP.GO then s.swapGo w.i p w.a else s
  | .STG_EM_CTL, .stg p st =>
    let s := s.plainWrite w
    if w.fld F.STG_EM_CTL.EVICT = 3 then s.cause (R.STG_CAUSE p st) F.STG_CAUSE.CFG else s
  | .STG_UC_STBY, .stg p st => s.stbyWrite w.i.fn p st (ix0 w.ix) w.v
  | _, _ => s.plainWrite w

/-- The TCAM engine: while GO reads 1, writes of its indirect registers are busy writes (R210). -/
def State.writeTc (s : State) (w : Wr) : State :=
  match w.row.id, w.g with
  | .TC_IA_CMD, .tc p =>
    if s.bit w.pa F.TC_IA_CMD.GO then s.busyWrite w.i.fn
    else
      let s := s.plainWrite w
      if w.bit F.TC_IA_CMD.GO then s.tcGo p else s
  | .TC_IA_VAL, .tc p | .TC_IA_MASK, .tc p | .TC_IA_ENT, .tc p | .TC_IA_RES_HI, .tc p | .TC_IA_RES_LO, .tc p
  | .TC_IA_STATUS, .tc p =>
    if s.bit (R.TC_IA_CMD p) F.TC_IA_CMD.GO then s.busyWrite w.i.fn else s.plainWrite w
  | _, _ => s.plainWrite w

/-- The engine that a group operation of the word `v` names is busy (R250). -/
def State.gwBusy (s : State) (p : Nat) (v : Word) : Bool :=
  let st := fldOf v F.VER_GW_CMD.STAGE
  if fldOf v F.VER_GW_CMD.OP ≤ 2 then decide (st < 24) && s.bit (R.STG_IA_CMD p st) F.STG_IA_CMD.GO
  else s.bit (R.TC_IA_CMD p) F.TC_IA_CMD.GO

/-- The version block: a GO of VER_GW_CMD while a group operation or the engine's own indirect command runs is a busy write (R11,
R250). -/
def State.writeVer (s : State) (w : Wr) : State :=
  match w.row.id, w.g with
  | .VER_CMD, .ver p =>
    let s := s.plainWrite w
    if w.bit F.VER_CMD.GO then s.verGo (s.ownerOfPipe p) else s
  | .VER_GW_CMD, .ver p =>
    let busy := s.bit w.pa F.VER_GW_CMD.GO || s.gwBusy p w.v
    let s := s.plainWrite w
    if !w.bit F.VER_GW_CMD.GO then s else if busy then s.busyWrite w.i.fn else s.gwGo p
  | _, _ => s.plainWrite w

/-! ### The write -/

/-- What a write of a register does. -/
def State.regAct (s : State) (w : Wr) : State :=
  match w.g with
  | .dev => s.writeDev w
  | .irqPage _ | .irqG => s.writeIrq w
  | .pst => s.writePst w
  | .clk => s.writeClk w
  | .pitG | .pitPage _ => s.writePit w
  | .time => s.writeTime w
  | .tt _ => s.writeTt w
  | .wb => s.writeWb w
  | .wbStrm _ => s.writeStrm w
  | .lg _ | .lane _ _ => s.writeLane w
  | .port _ => s.writePort w
  | .bpm | .bpmPage _ | .bpmWr _ => s.writeBpm w
  | .tmPipe _ | .tmPort _ => s.writeTm w
  | .ostThr _ _ _ | .ostOwn _ => s.writeOst w
  | .cnt _ => s.writeCnt w
  | .dma _ | .ring _ _ => s.writeDma w
  | .sb => s.writeSb w
  | .stg _ _ => s.writeStg w
  | .tc _ => s.writeTc w
  | .ver _ => s.writeVer w
  | _ => s.plainWrite w

/-- What follows a write in the causes that other state drives: BELOW_ADV and the SyncE outputs (R360, R398). -/
def State.settle (s before : State) : State := (s.belowCheck before).synceCheck

/-- A 32-bit write, with what the command brings. Outside the view, or where no register is, it is ignored and is an access
violation (R14, R53, R578); a write of a counter, which is read only, is ignored. -/
def State.regWriteX (s : State) (i : Issuer) (a : Nat) (v : Word) (img : Option Image) (push : Option Bool) : State :=
  match s.place i.fn i.fn a with
  | .gap => s.accessViolation i.fn a true false
  | .zero => if i.fn = 0 then s else s.accessViolation i.fn a true false
  | .reg pa g r ix =>
    if s.viewWrite i.fn g (some r.id) ix then
      (s.regAct ⟨i, a, pa, g, r, ix, v &&& r.mask fun _ => true, img, push⟩).settle s
    else s.accessViolation i.fn a true false
  | .cnt _ _ => if s.viewWrite i.fn (regionOf a) none [] then s else s.accessViolation i.fn a true false

/-- A 32-bit write. -/
def State.regWrite (s : State) (i : Issuer) (a : Nat) (v : Word) : State := s.regWriteX i a v none none

/-- A write of `size` bytes over PCI Express: aligned 32-bit writes are carried out, aligned 64-bit ones as two, lower address
first; any other is an access violation (R13, R14, R55). -/
def State.hostWrite (s : State) (fn a size : Nat) (v : BitVec 64) : State :=
  let i : Issuer := { fn := fn }
  if size = 4 ∧ a % 4 = 0 then s.regWrite i a (v.truncate 32)
  else if size = 8 ∧ a % 8 = 0 then
    (s.regWrite i a (v.truncate 32)).regWrite i (a + 4) ((v >>> 32).truncate 32)
  else s.accessViolation fn a true true

end Sys2Proof.Machine
end

