-- ==== Sys2Proof/Machine/OstFab.lean ====
section
/-! DEFINITION. FLD and FST: the register accesses that Ostler threads make in the view of their owner (R459), and the other
accesses whose effects the manual gives only through the register window. -/

namespace Sys2Proof.Machine

/-- The requester of an Ostler cluster's reads (R528). -/
def clusterRq (t : Nat) : Nat := 17 + thrCluster t

/-- An access of function `fn` lies outside its view, or where no register is (R53, R578). -/
def State.outside (s : State) (fn rq a : Nat) (write : Bool) : Bool :=
  match s.place fn rq a with
  | .gap => true
  | .zero => decide (fn ≠ 0)
  | .reg _ g r ix => if write then !s.viewWrite fn g (some r.id) ix else !s.viewRead fn g (some r.id) ix
  | .cnt _ _ => if write then !s.viewWrite fn (regionOf a) none [] else !s.viewRead fn (regionOf a) none []

/-- Accesses outside the view of owner n also count in FABRIC_AV (R459). -/
def State.fabricAv (s : State) (n : Nat) (out : Bool) : State := if out then s.addCnt (C.OST_FABRIC_AV n) 1 else s

/-- The access of thread t, which waits for it, will give `v`; where the access itself stopped the thread or started it anew, its
result is discarded (R447). -/
def State.fabWait (s : State) (t : Nat) (rd : Option Nat) (v : Word) : State :=
  let q := s.thr t
  if q.st = 4 then s.setThr t { q with acc := some ⟨rd, v⟩ } else s

/-- An access of an Ostler thread that is not aligned faults; while the management fabric is lost it waits for ever. -/
def State.ostFabric (s : State) (t row : Nat) (go : State → Nat → Word → State) : State :=
  s.ostIssue t row fun s w =>
    let a := s.ostEa t w
    if a.toNat % 4 ≠ 0 then s.thrFault t 6 a
    else if s.pw.fabricLost then s.setThr t { s.thr t with st := 4, acc := none }
    else go s a.toNat w

/-- FLD: read a register. -/
def State.ostFld (s : State) (t : Nat) : State :=
  s.ostFabric t 0x36 fun s a w =>
    let n := s.thrOwner t
    let s := s.ostWait t none 0
    let q := s.regRead n (clusterRq t) a
    (q.2.fabricAv n (s.outside n (clusterRq t) a false)).fabWait t (some (iRd w)) q.1

/-- FST: write a register with RD. -/
def State.ostFst (s : State) (t : Nat) : State :=
  s.ostFabric t 0x37 fun s a w =>
    let n := s.thrOwner t
    let v := (s.thr t).reg (iRd w)
    let s := s.ostWait t none 0
    let s1 := s.regWrite { fn := n, ost := true } a v
    (s1.fabricAv n (s.outside n (clusterRq t) a true)).fabWait t none 0

end Sys2Proof.Machine
end

