-- ==== Sys2Proof/Machine/Cmd.lean ====
section
/-! DEFINITION. How a command reaches the part: accesses of the PCI Express functions, which need the endpoint and the management
fabric (R569), writes that carry a command, and the few events whose effect stands in no block: upsets of memories (R178,
R206, R240, R286), upsets of the time counters (R331) and writes of a configuration space (R560). -/

namespace Sys2Proof.Machine

/-- Functions reach the register window: the PCIe link is up (R540, R544), and neither the endpoint nor the management fabric is lost
(R569). -/
def State.reach (s : State) : Bool := s.pw.linkUp && !s.pw.pcieLost && !s.pw.fabricLost

/-- A function as issuer. -/
def host (fn : Nat) : Issuer := { fn := fn }

/-- A write by function `fn` of a value in which fields are set, as the command's row gives. -/
def State.command (s : State) (fn a : Nat) (v : Word) (fs : List (Fld × Nat)) : State :=
  if s.reach then s.regWrite (host fn) a (putFlds v fs) else s

/-- A write of any size by function `fn`. -/
def State.hostStore (s : State) (fn a size : Nat) (v : BitVec 64) : State := if s.reach then s.hostWrite fn a size v else s

/-- A read by function `fn`; its completion leaves the part. -/
def State.hostLoad (s : State) (fn a size : Nat) : State := if s.reach then s.readOut fn fn a size else s

/-- A read by one of the 21 requesters (R528): 0 to 16 are the functions, 17 to 20 the Ostler clusters, which read in the view of
the owner `own`, 32 bits at a time, and fault before a read that is not aligned (R459). -/
def State.reqLoad (s : State) (rq own a size : Nat) : State :=
  if rq < 17 then s.hostLoad rq a size
  else if s.pw.fabricLost || decide (a % 4 ≠ 0) then s
  else s.readOut own rq a 4

/-- The pipeline-wide swap register in the window of stage 0 of pipeline p. -/
def swapAddr (p : Nat) : Nat := 0x10103840 + p * 0x1000000

/-- VER_CMD in the window of pipeline p. -/
def verAddr (p : Nat) : Nat := 0x10E00000 + p * 0x1000000

/-- OST_THR_CTL of a thread. -/
def thrAddr (t : Nat) : Nat := R.OST_THR_CTL (t / 128) (t / 16 % 8) (t % 16)

/-- A VER_CMD code of 0 or 4 to 15 (R253). -/
def State.badVerCmd (s : State) (fn p : Nat) (v : Word) : State :=
  if 1 ≤ fldOf v F.VER_CMD.CMD ∧ fldOf v F.VER_CMD.CMD ≤ 3 then s else s.command fn (verAddr p) v [(F.VER_CMD.GO, 1)]

/-- A bit of one copy of the time counter flips (R331). While the copies differ, held Timetable frames are released (R400). -/
def State.copyFlip (s : State) (second : Bool) (bit : Nat) : State :=
  let r := s.time.raw
  let r1 := s.time.copy1.getD r
  let t := if second then s.counterFault r (r1.flip bit) else s.counterFault (r.flip bit) r1
  if t.time.copy1.isSome then t.ttFault else t

/-- SYS: the vendor functions have no effect that the manual gives; in the customer region it faults (R458). -/
def State.ostSys (s : State) (t : Nat) : Out :=
  let q := s.thr t
  let vendor := (s.ostNext t).any fun w =>
    decide (ostRow w = 0x3F) && !customer q.pc && !s.psBadAt (s.thrOwner t) q.pc && !ostBadField w
  if vendor then .refused .vendorSys else .next (s.ostIssue t 0x3F fun s _ => s)

/-- A write of a function's configuration space: MSI enable, the vector's mask and Interrupt Disable. A held message is sent once
the vector is unmasked (R560). -/
def State.pcieConfig (s : State) (f : Nat) (en mask dis : Bool) (mps mrrs : Nat) : State :=
  let c := s.pcieCfg f
  let send := c.msiHeld && en && !mask
  let c' : PcieCfg := { msiEn := en, msiMask := mask, msiHeld := c.msiHeld && !send, intxDis := dis, mps := mps, mrrs := mrrs }
  let s := { s with irq := { s.irq with pcie := SMap.put (fun _ => {}) s.irq.pcie f c' } }
  if send then s.emit (.msi f) else s

/-! ### Upsets -/

/-- A number with bit `i` inverted. -/
def flipNBit (v i : Nat) : Nat := if nbit v i then clrNBit v i else setNBit v i

/-- Bit `i` of a sequence of bytes inverted, bit 0 being bit 0 of byte 0. -/
def flipBit (bs : Bytes) (i : Nat) : Bytes := listSet bs (i / 8) (byteAt bs (i / 8) ^^^ BitVec.ofNat 8 (2 ^ (i % 8)))

/-- An element put in a list, or taken out where it stands there: parity after one more flip. -/
def toggle (l : List Nat) (x : Nat) : List Nat := if l.contains x then l.erase x else l ++ [x]

/-- A bit of a memory flips; the flip is found later by parity, shadow comparison or SECDED. A place that the loaded tables do not
define holds no bit. DEDUCED: the shadow holds VALID, PRIO, ACTION and DATA with chain position 0 (log entry 119). -/
def State.upset (s : State) : UpsetAt → State
  | .emRow p st loc bit =>
    let t := locTable loc
    let e := s.emE p st t
    if !s.emDefined p st t || decide (8 * e ≤ bit) || !(if locStash loc then decide (loc % 2 ^ 16 < 16) else decide (loc % 2 ^ 16 < s.emD p st t)) then s
    else
      let r := s.emRow p st loc
      s.setEmRow p st loc { r with bytes := flipBit (fitBytes e r.bytes) bit, bad := toggle r.bad (bit / 64) }
  | .emStamp p st loc bit =>
    if !s.emDefined p st (locTable loc) then s
    else
      let r := s.emRow p st loc
      s.setEmRow p st loc { r with ts := flipNBit r.ts bit, tsBad := !r.tsBad }
  | .tcArray p key bit =>
    let st := key / 2 ^ 18
    let t := key / 2 ^ 17 % 2
    let w := 80 * s.tcW p st t
    if !s.tcDefined p st t || decide (1024 * s.tcSlices p st t ≤ key % 2 ^ 17 ∨ 2 * w < bit) then s
    else
      let r := s.tcRow p key
      s.setTcRow p key (if bit < w then { r with aV := flipNBit r.aV bit }
        else if bit < 2 * w then { r with aM := flipNBit r.aM (bit - w) } else { r with aValid := !r.aValid })
  | .tcShadow p key pos bit =>
    let st := key / 2 ^ 18
    let t := key / 2 ^ 17 % 2
    let w := s.tcW p st t
    if !s.tcDefined p st t || decide (1024 * s.tcSlices p st t ≤ key % 2 ^ 17 ∨ w ≤ pos.val ∨ (0 < pos.val ∧ 160 ≤ bit.val)) then s
    else
      let r := s.tcRow p key
      let i := 80 * (w - 1 - pos.val) + bit.val % 80
      let r := if bit.val < 80 then { r with v := flipNBit r.v i } else if bit.val < 160 then { r with msk := flipNBit r.msk i }
        else if bit.val < 161 then { r with valid := !r.valid } else if bit.val < 177 then { r with prio := flipNBit r.prio (bit - 161) }
        else if bit.val < 181 then { r with action := flipNBit r.action (bit - 177) } else { r with data := flipNBit r.data (bit - 181) }
      s.setTcRow p key { r with bad := toggle r.bad pos }
  | .store p st bank word bit =>
    let u := s.ucStore p st
    let m := ucMark bank word
    let u' := u.put bank word (u.word bank word ^^^ BitVec.ofNat 32 (2 ^ bit.val))
    s.setUcStore p st { u' with bad := toggle u.bad m }
  | .buffer h w bit =>
    match s.buf h with
    | none => s
    | some b => if s.poolBytes (poolOfH h) ≤ 16 * w then s else s.setBuf h (some { b with flips := toggle b.flips (128 * w + bit.val) })
  | .data quad bit => { s with ost := { s.ost with flips := toggle s.ost.flips (quad.val * 2 ^ 20 + bit.val) } }
  | .program n word bit =>
    let k := n.val * 65536 + word.val
    { s with ost := { s.ost with
      ps := SMap.put (fun _ => 0) s.ost.ps k (s.psWord n word ^^^ BitVec.ofNat 32 (2 ^ bit.val)),
      psBad := SMap.put (fun _ => false) s.ost.psBad k (!s.psBadAt n word) } }

end Sys2Proof.Machine
end

