-- ==== Sys2Proof/Machine/ExecCnt.lean ====
section
/-! DEFINITION. Meanings of the commands: counter sampling and snapshots. -/

namespace Sys2Proof.Machine

/-- SMP_RESTART (R486): CNT_SMP_CTL.RESTART empties the sample buffer. -/
def execSmpRestart (fn : FnNo) (n : OwnerNo) (v : Word) (s : State) : Out :=
  .next (s.command fn (R.CNT_SMP_CTL n) v [(F.CNT_SMP_CTL.RESTART, 1)])

/-- CNT_SNAP_GO (R470): CNT_SNAP_CTL.GO fixes a snapshot instant for the owner's counters. -/
def execCntSnapGo (fn : FnNo) (n : OwnerNo) (s : State) : Out :=
  .next (s.command fn (R.CNT_SNAP_CTL n) 0 [(F.CNT_SNAP_CTL.GO, 1)])

/-- CNT_SNAP_DONE (R470): Every counter copy is taken, FROZEN sets and the instant is recorded. -/
def execCntSnapDone (n : OwnerNo) (s : State) : Out := .next (s.snapDone n)

/-- CNT_THAW (R472): CNT_SNAP_CTL.THAW clears FROZEN and reads return live values. -/
def execCntThaw (fn : FnNo) (n : OwnerNo) (s : State) : Out :=
  .next (s.command fn (R.CNT_SNAP_CTL n) 0 [(F.CNT_SNAP_CTL.THAW, 1)])

end Sys2Proof.Machine
end

