-- ==== Sys2Proof/Machine/ExecData.lean ====
section
/-! DEFINITION. Meanings of the commands: frames, pipelines, the traffic manager and the buffer pool. -/

namespace Sys2Proof.Machine

/-- FRAME_ARRIVAL (R20): A frame received on a port is stamped, checked for PCS error, FCS, runt and oversize, and admitted to
the buffer or dropped. -/
def execFrameArrival (n : PortNo) (rx : RxFrame) (s : State) : Out := .next (s.frameArrival n rx)

/-- BERTH_TAKE (R25): Ready packets take the berths of a pipeline tick in order of readiness and rotating lane priority. -/
def execBerthTake (p : PipeNo) (egress : Bool) (credit : Nat) (s : State) : Out :=
  .next (if s.pipeRuns p then s.berthTake p egress credit else s)

/-- STAGE_ENTER (R160): A packet enters a stage and is served over 4 ticks: keys, lookups, searches and microwords. -/
def execStageEnter (p : PipeNo) (st : StageNo) (s : State) : Out := .next (if s.stageOn p st then s.stageEnter p st else s)

/-- TM_ENQUEUE (R293): A packet leaving ingress stage 15 is resolved, policed, checked against limits and enqueued or dropped
with a code. -/
def execTmEnqueue (p : PipeNo) (s : State) : Out := .next (if s.tmOn p then s.tmEnqueue p else s)

/-- REPLICA_MAKE (R300): The replicator makes up to 16 replicas of its head packet per tick, each meeting the queue limits. -/
def execReplicaMake (p : PipeNo) (s : State) : Out := .next (if s.tmOn p then s.replicaMake p else s)

/-- SCHEDULER_SELECT (R313): A port scheduler selects the next frame by Timetable, committed, strict priority and DWRR order. -/
def execSchedulerSelect (n : PortNo) (s : State) : Out := .next (if s.tmOn (pipeOfPort n) then s.schedulerSelect n else s)

/-- TT_RELEASE_DUE (R389): A held Timetable packet becomes due for release when the time base reaches D − LEAD. -/
def execTtReleaseDue (n : PortNo) (c : ClassNo) (s : State) : Out :=
  .next (if s.pipeRuns (pipeOfPort n) then s.ttReleaseDue n c else s)

/-- DEPARSE (R219): The deparser builds the outgoing frame, inserts timestamps, fixes checksums and computes the FCS. -/
def execDeparse (p : PipeNo) (slot : Nat) (s : State) : Out := .next (if s.stageOn p 16 then s.deparse p slot else s)

/-- FRAME_TX_START (R371): The MAC starts a frame at its fixed start slot, with Timetable lateness judged. -/
def execFrameTxStart (n : PortNo) (s : State) : Out := .next (s.txStart n)

/-- FRAME_TX_END (R270): The whole frame has been sent and its buffer hold released. -/
def execFrameTxEnd (n : PortNo) (s : State) : Out := .next (s.txEnd n)

/-- CONTROL_FRAME_SEND (R114): The MAC sends a built pause, PFC, time link or calibration frame at the next frame boundary. -/
def execControlFrameSend (n : PortNo) (s : State) : Out := .next (s.ctlSend n)

/-- PFC_REFRESH (R307): While XOFF is asserted a PFC frame is sent again every REFRESH period. -/
def execPfcRefresh (n : PortNo) (s : State) : Out := .next (s.fcRefresh n)

/-- PAUSE_RX (R111): A received pause frame in FC_MODE 1 pauses all classes of the port. -/
def execPauseRx (n : PortNo) (quanta : Fin 65536) (s : State) : Out := .next (if s.linkUp n then (s.rxPause n quanta).stallEvals n else s)

/-- PFC_RX (R111): A received PFC frame in FC_MODE 2 pauses the mapped classes of enabled priorities. -/
def execPfcRx (n : PortNo) (vec : Fin 65536) (quanta : List Nat) (s : State) : Out :=
  .next (if s.linkUp n then (s.rxPfc n vec quanta).stallEvals n else s)

/-- MAC_CTRL_OTHER_RX (R111): Another MAC control frame is consumed without action and counted. -/
def execMacCtrlOtherRx (n : PortNo) (s : State) : Out := .next (if s.linkUp n then s.rxMacCtrlOther n else s)

/-- PAUSE_EXPIRY (R112): A class's pause time runs out and the class is released. -/
def execPauseExpiry (n : PortNo) (c : ClassNo) (s : State) : Out :=
  .next (if s.paused n c then (s.setPause n c none).stallEval n c else s)

/-- PORT_LIVE_SET (R297): LIVE sets after LINK_UP has held for UP_HOLD ms. -/
def execPortLiveSet (n : PortNo) (s : State) : Out := .next (s.liveSet n)

/-- WATCHDOG_CHECK (R310): Every 100 µs the watchdog enters or leaves discard mode for stalled queues. -/
def execWatchdogCheck (s : State) : Out := .next (s.wdCheck)

/-- DOWN_FLUSH_EXPIRY (R322): A port down for DOWN_FLUSH µs enters DOWN_DROP and drops its queues. -/
def execDownFlushExpiry (n : PortNo) (s : State) : Out := .next (s.downFlush n)

/-- TM_IA_READ (R326): TM indirect READ reads a policer, member group, slot or multicast group. -/
def execTmIaRead (fn : FnNo) (p : PipeNo) (v : Word) (s : State) : Out :=
  .next (s.command fn (R.TM_IA_CMD p) v [(F.TM_IA_CMD.OP, 0), (F.TM_IA_CMD.GO, 1)])

/-- TM_IA_WRITE (R326): TM indirect WRITE writes a whole entry, pending for policers. -/
def execTmIaWrite (fn : FnNo) (p : PipeNo) (v : Word) (s : State) : Out :=
  .next (s.command fn (R.TM_IA_CMD p) v [(F.TM_IA_CMD.OP, 1), (F.TM_IA_CMD.GO, 1)])

/-- TM_IA_READ_CLEAR (R326): TM indirect READ_CLEAR reads a policer and clears its colour counts. -/
def execTmIaReadClear (fn : FnNo) (p : PipeNo) (v : Word) (s : State) : Out :=
  .next (s.command fn (R.TM_IA_CMD p) v [(F.TM_IA_CMD.OP, 2), (F.TM_IA_CMD.GO, 1)])

/-- BPM_AUD_POP (R284): BPM_AUD_CTL.POP removes the head orphan report. -/
def execBpmAudPop (fn : FnNo) (n : OwnerNo) (s : State) : Out :=
  .next (s.command fn (R.BPM_AUD_CTL n) 0 [(F.BPM_AUD_CTL.POP, 1)])

/-- BPM_RECLAIM (R285): BPM_RECLAIM.GO checks a reported buffer and frees it if unreferenced. -/
def execBpmReclaim (fn : FnNo) (n : OwnerNo) (v : Word) (s : State) : Out :=
  .next (s.command fn (R.BPM_RECLAIM n) v [(F.BPM_RECLAIM.GO, 1)])

/-- BPM_FENCE_GO (R287): BPM_FENCE_CTL.GO fences a slice by command. -/
def execBpmFenceGo (fn : FnNo) (v : Word) (s : State) : Out := .next (s.command fn R.BPM_FENCE_CTL v [(F.BPM_FENCE_CTL.GO, 1)])

/-- BANK_CONTROLLER_FAULT (R287): A bank controller fault or error threshold fences its slice. -/
def execBankControllerFault (sl : Fin 16) (s : State) : Out := .next (s.fenceSlice sl)

end Sys2Proof.Machine
end

