-- ==== Sys2Proof/Machine/ExecDma.lean ====
section
/-! DEFINITION. Meanings of the commands: DMA rings. -/

namespace Sys2Proof.Machine

/-- DMA_TAIL_WRITE (R581): A write of a ring's TAIL hands descriptors to the part or is a ring error. -/
def execDmaTailWrite (fn : FnNo) (f : FnNo) (r : RingNo) (v : Word) (s : State) : Out :=
  .next (s.command fn (R.DMA_RING_TAIL f r) v [])

/-- DMA_RING_EN_WRITE (R590): A write of DMA_RING_CTL.EN starts or stops a ring, zeroing HEAD and TAIL when cleared. -/
def execDmaRingEnWrite (fn : FnNo) (f : FnNo) (r : RingNo) (v : Word) (s : State) : Out :=
  .next (s.command fn (R.DMA_RING_CTL f r) v [])

/-- DMA_TX_DESCRIPTOR (R583): A ring 0 descriptor injects a frame into a port queue. -/
def execDmaTxDescriptor (f : FnNo) (desc frame : Bytes) (err : Bool) (s : State) : Out := .next (s.dmaTx f desc frame err)

/-- DMA_EXC_WRITE (R585): An exception copy is written with its header to a ring 1 or 2 descriptor. -/
def execDmaExcWrite (f : FnNo) (r : RingNo) (desc : Bytes) (err : Bool) (s : State) : Out := .next (s.dmaExc f r desc err)

/-- DMA_SHEET_WRITE (R588): A Waybill sheet is written whole to a ring 3 descriptor. -/
def execDmaSheetWrite (f : FnNo) (desc : Bytes) (err : Bool) (s : State) : Out := .next (s.dmaSheet f desc err)

/-- DMA_FREE (R587): A write of DMA_FREE releases a kept hold. -/
def execDmaFree (fn : FnNo) (f : FnNo) (v : Word) (s : State) : Out := .next (s.command fn (R.DMA_FREE f) v [])

/-- DMA_COMPLETION_TIMEOUT (R576): A DMA read not completed within 10 ms is a completion timeout and stops its ring as a ring
error. -/
def execDmaCompletionTimeout (f : FnNo) (r : RingNo) (s : State) : Out := .next (s.ringTimeout f r)

end Sys2Proof.Machine
end

