-- ==== Sys2Proof/Machine/ExecLane.lean ====
section
/-! DEFINITION. Meanings of the commands: lanes and lane groups. -/

namespace Sys2Proof.Machine

/-- SIGNAL_LOSS (R81): A receiver input falling below 50 mV reports loss of signal. -/
def execSignalLoss (l : LaneNo) (s : State) : Out := .next (s.signalLoss l)

/-- SIGNAL_RETURN (R81): A receiver input rising above 80 mV clears loss of signal. -/
def execSignalReturn (l : LaneNo) (s : State) : Out := .next (s.signalReturn l)

/-- CDR_LOCK_LOSS (R82): A receiver loses clock-and-data lock and reports CDR_LOCK = 0. -/
def execCdrLockLoss (l : LaneNo) (s : State) : Out := .next (s.lockLost l)

/-- CDR_LOCK (R82): A receiver locks within 100 µs of the signal returning. -/
def execCdrLock (l : LaneNo) (s : State) : Out := .next (s.cdrLocks l)

/-- ADAPT_DONE (R82): Initial adaptation completes and sets ADAPT_DONE. -/
def execAdaptDone (l : LaneNo) (ctle : Fin 32) (taps : List Nat) (s : State) : Out := .next (s.adapted l ctle taps)

/-- FWD_CLOCK_LOSS (R83): The forwarded clock on lane 15 loses lock and the data lanes lose CDR lock. -/
def execFwdClockLoss (g : GroupNo) (s : State) : Out := .next (s.fwdLoss g)

/-- FWD_CLOCK_LOCK (R83): The receiver of lane 15 locks to the forwarded clock and LG_STATUS.FWD_LOCK sets, letting the data
lanes sample and a MODE 5 port come up. -/
def execFwdClockLock (g : GroupNo) (s : State) : Out := .next (s.fwdLocks g)

/-- TX_PLL_LOSS_OF_LOCK (R521): A lane group transmit PLL loses lock and LG_CAUSE.PLL_LOL sets and persists while PLL_LOCK is 0. -/
def execTxPllLossOfLock (g : GroupNo) (s : State) : Out := .next (s.txPllLoss g)

/-- TX_PLL_RELOCK (R521): A lane group transmit PLL regains lock, PLL_LOCK sets and the persisting PLL_LOL cause ends. -/
def execTxPllRelock (g : GroupNo) (s : State) : Out := .next (s.txPllLock g)

/-- FIR_LOAD (R85): LG_CTL.FIR_LOAD loads the group tap set on enabled lanes, refusing invalid sets. -/
def execFirLoad (fn : FnNo) (g : GroupNo) (v : Word) (s : State) : Out :=
  .next (s.command fn (R.LG_CTL g) v [(F.LG_CTL.FIR_LOAD, 1)])

/-- LANE_FIR_LOAD (R85): LG_LN_FIR_B.LOAD loads the lane's own tap set. -/
def execLaneFirLoad (fn : FnNo) (g : GroupNo) (l : Fin 16) (v : Word) (s : State) : Out :=
  .next (s.command fn (R.LG_LN_FIR_B g l) v [(F.LG_LN_FIR_B.LOAD, 1)])

/-- CHK_PAT_WRITE (R98): A write to CHK_PAT clears the error count and restarts the checker. -/
def execChkPatWrite (fn : FnNo) (g : GroupNo) (l : Fin 16) (v : Word) (s : State) : Out :=
  .next (s.command fn (R.LG_LN_TEST g l) v [])

/-- PRBS_LOCK (R98): The pattern checker declares lock after 256 error-free bits. -/
def execPrbsLock (l : LaneNo) (s : State) : Out := .next (s.prbsLocks l)

/-- PRBS_LOL (R98): The checker drops lock after 64 wrong bits in 256 and reseeds. -/
def execPrbsLol (l : LaneNo) (errs : Nat) (s : State) : Out := .next (s.prbsLoses l errs)

/-- EYE_SCAN_GO (R100): LG_LN_EYE_CTL.GO starts an eye scan at the chosen offset. -/
def execEyeScanGo (fn : FnNo) (g : GroupNo) (l : Fin 16) (v : Word) (s : State) : Out :=
  .next (s.command fn (R.LG_LN_EYE_CTL g l) v [(F.LG_LN_EYE_CTL.GO, 1)])

/-- EYE_SCAN_DONE (R100): The eye scan count is final and GO clears. -/
def execEyeScanDone (l : LaneNo) (errs : Nat) (s : State) : Out := .next (s.eyeDone l errs)

/-- LANE_GROUP_ADMIT (R547): A due lane group is admitted and starts calibrating. -/
def execLaneGroupAdmit (g : GroupNo) (s : State) : Out := .next (s.lgAdmit g)

/-- LANE_GROUP_CAL_DONE (R547): A lane group finishes calibration, setting READY or failing. -/
def execLaneGroupCalDone (g : GroupNo) (ok : Bool) (s : State) : Out := .next (s.lgCalDone g ok)

/-- LANE_RESET_GO (R533): LG_LN_RST.GO returns a receiver to its state before lock. -/
def execLaneResetGo (fn : FnNo) (g : GroupNo) (l : Fin 16) (s : State) : Out :=
  .next (s.command fn (R.LG_LN_RST g l) 0 [(F.LG_LN_RST.GO, 1)])

end Sys2Proof.Machine
end

