-- ==== Sys2Proof/Machine/ExecOst.lean ====
section
/-! DEFINITION. Meanings of the commands: the Ostler threads. -/

namespace Sys2Proof.Machine

/-- OST_ADD (R458): Ostler ADD: d = a + b. -/
def execOstAdd (t : ThreadNo) (s : State) : Out := .next (s.ostAluR t 0x01 fun a b => a + b)

/-- OST_SUB (R458): Ostler SUB: d = a − b. -/
def execOstSub (t : ThreadNo) (s : State) : Out := .next (s.ostAluR t 0x02 fun a b => a - b)

/-- OST_AND (R458): Ostler AND: d = a AND b. -/
def execOstAnd (t : ThreadNo) (s : State) : Out := .next (s.ostAluR t 0x03 fun a b => a &&& b)

/-- OST_OR (R458): Ostler OR: d = a OR b. -/
def execOstOr (t : ThreadNo) (s : State) : Out := .next (s.ostAluR t 0x04 fun a b => a ||| b)

/-- OST_XOR (R458): Ostler XOR: d = a XOR b. -/
def execOstXor (t : ThreadNo) (s : State) : Out := .next (s.ostAluR t 0x05 fun a b => a ^^^ b)

/-- OST_SHL (R458): Ostler SHL: d = a << (b mod 32). -/
def execOstShl (t : ThreadNo) (s : State) : Out := .next (s.ostAluR t 0x06 fun a b => a <<< (b.toNat % 32))

/-- OST_SHR (R458): Ostler SHR: logical right shift. -/
def execOstShr (t : ThreadNo) (s : State) : Out := .next (s.ostAluR t 0x07 fun a b => a >>> (b.toNat % 32))

/-- OST_SAR (R458): Ostler SAR: arithmetic right shift. -/
def execOstSar (t : ThreadNo) (s : State) : Out := .next (s.ostAluR t 0x08 fun a b => a.sshiftRight (b.toNat % 32))

/-- OST_MUL (R458): Ostler MUL: low 32 bits of a × b. -/
def execOstMul (t : ThreadNo) (s : State) : Out := .next (s.ostAluR t 0x09 fun a b => a * b)

/-- OST_MULHU (R458): Ostler MULHU: high 32 bits of unsigned a × b. -/
def execOstMulhu (t : ThreadNo) (s : State) : Out := .next (s.ostAluR t 0x0C fun a b => mulHigh a b)

/-- OST_SLTU (R458): Ostler SLTU: d = 1 if a < b unsigned. -/
def execOstSltu (t : ThreadNo) (s : State) : Out := .next (s.ostAluR t 0x0A fun a b => boolWord (a.ult b))

/-- OST_SLT (R458): Ostler SLT: d = 1 if a < b signed. -/
def execOstSlt (t : ThreadNo) (s : State) : Out := .next (s.ostAluR t 0x0B fun a b => boolWord (a.slt b))

/-- OST_ADDI (R458): Ostler ADDI: d = a + sign-extended imm. -/
def execOstAddi (t : ThreadNo) (s : State) : Out := .next (s.ostAluI t 0x10 fun a w => a + iSx w)

/-- OST_ANDI (R458): Ostler ANDI: d = a AND imm. -/
def execOstAndi (t : ThreadNo) (s : State) : Out := .next (s.ostAluI t 0x11 fun a w => a &&& iZx w)

/-- OST_ORI (R458): Ostler ORI: d = a OR imm. -/
def execOstOri (t : ThreadNo) (s : State) : Out := .next (s.ostAluI t 0x12 fun a w => a ||| iZx w)

/-- OST_XORI (R458): Ostler XORI: d = a XOR imm. -/
def execOstXori (t : ThreadNo) (s : State) : Out := .next (s.ostAluI t 0x13 fun a w => a ^^^ iZx w)

/-- OST_SHLI (R458): Ostler SHLI: shift left by IMM[4:0]. -/
def execOstShli (t : ThreadNo) (s : State) : Out := .next (s.ostAluI t 0x14 fun a w => a <<< (iImm w % 32))

/-- OST_SHRI (R458): Ostler SHRI: logical shift right by IMM[4:0]. -/
def execOstShri (t : ThreadNo) (s : State) : Out := .next (s.ostAluI t 0x15 fun a w => a >>> (iImm w % 32))

/-- OST_SARI (R458): Ostler SARI: arithmetic shift right by IMM[4:0]. -/
def execOstSari (t : ThreadNo) (s : State) : Out := .next (s.ostAluI t 0x16 fun a w => a.sshiftRight (iImm w % 32))

/-- OST_LUI (R458): Ostler LUI: d = imm << 16. -/
def execOstLui (t : ThreadNo) (s : State) : Out := .next (s.ostAluI t 0x17 fun _ w => iZx w <<< 16)

/-- OST_SLTIU (R458): Ostler SLTIU: d = 1 if a < imm unsigned. -/
def execOstSltiu (t : ThreadNo) (s : State) : Out := .next (s.ostAluI t 0x18 fun a w => boolWord (a.ult (iZx w)))

/-- OST_LDW (R440): Ostler LDW loads a data word, faulting on misalignment or range. -/
def execOstLdw (t : ThreadNo) (s : State) : Out := .next (s.ostLoad t 0x20 4)

/-- OST_LDH (R440): Ostler LDH loads a data half-word. -/
def execOstLdh (t : ThreadNo) (s : State) : Out := .next (s.ostLoad t 0x21 2)

/-- OST_LDB (R440): Ostler LDB loads a data byte. -/
def execOstLdb (t : ThreadNo) (s : State) : Out := .next (s.ostLoad t 0x22 1)

/-- OST_STW (R441): Ostler STW stores a data word. -/
def execOstStw (t : ThreadNo) (s : State) : Out := .next (s.ostStore t 0x23 4)

/-- OST_STH (R441): Ostler STH stores a data half-word. -/
def execOstSth (t : ThreadNo) (s : State) : Out := .next (s.ostStore t 0x24 2)

/-- OST_STB (R441): Ostler STB stores a data byte. -/
def execOstStb (t : ThreadNo) (s : State) : Out := .next (s.ostStore t 0x25 1)

/-- OST_AMOADD (R441): Ostler AMOADD atomically adds to a word and returns the old value. -/
def execOstAmoadd (t : ThreadNo) (s : State) : Out := .next (s.ostAmo t 0x26 fun old b => old + b)

/-- OST_AMOSWAP (R441): Ostler AMOSWAP atomically swaps a word and returns the old value. -/
def execOstAmoswap (t : ThreadNo) (s : State) : Out := .next (s.ostAmo t 0x27 fun _ b => b)

/-- OST_BEQ (R458): Ostler BEQ branches if a = b. -/
def execOstBeq (t : ThreadNo) (s : State) : Out := .next (s.ostBranch t 0x28 fun a b => a == b)

/-- OST_BNE (R458): Ostler BNE branches if a ≠ b. -/
def execOstBne (t : ThreadNo) (s : State) : Out := .next (s.ostBranch t 0x29 fun a b => a != b)

/-- OST_BLTU (R458): Ostler BLTU branches if a < b unsigned. -/
def execOstBltu (t : ThreadNo) (s : State) : Out := .next (s.ostBranch t 0x2A fun a b => a.ult b)

/-- OST_BGEU (R458): Ostler BGEU branches if a ≥ b unsigned. -/
def execOstBgeu (t : ThreadNo) (s : State) : Out := .next (s.ostBranch t 0x2B fun a b => !a.ult b)

/-- OST_JMP (R458): Ostler JMP jumps to TARGET. -/
def execOstJmp (t : ThreadNo) (s : State) : Out :=
  .next (s.ostIssue t 0x2C fun s w => s.ostTo t (iImm w))

/-- OST_CALL (R443): Ostler CALL allocates a window and jumps, trapping on overflow. -/
def execOstCall (t : ThreadNo) (s : State) : Out :=
  .next (s.ostIssue t 0x2D fun s w => s.ostCall t (iImm w))

/-- OST_JR (R455): Ostler JR jumps to a register address, faulting XFER from customer code. -/
def execOstJr (t : ThreadNo) (s : State) : Out :=
  .next (s.ostIssue t 0x2E fun s w => s.ostXfer t ((s.thr t).reg (iRa w)) fun s pc => s.ostTo t pc)

/-- OST_CALLR (R443): Ostler CALLR calls a register address with a new window. -/
def execOstCallr (t : ThreadNo) (s : State) : Out :=
  .next (s.ostIssue t 0x2F fun s w => s.ostXfer t ((s.thr t).reg (iRa w)) fun s pc => s.ostCall t pc)

/-- OST_RET (R443): Ostler RET returns and releases a window, trapping on underflow. -/
def execOstRet (t : ThreadNo) (s : State) : Out := .next (s.ostIssue t 0x30 fun s _ => s.ostRet t)

/-- OST_FORK (R434): Ostler FORK starts the lowest FREE thread of the owner. -/
def execOstFork (t : ThreadNo) (s : State) : Out := .next (s.ostIssue t 0x31 fun s w => s.ostFork t w)

/-- OST_JOIN (R436): Ostler JOIN collects an exit value, waits, or faults on a bad or cyclic target, as the join arbiter decides. -/
def execOstJoin (t : ThreadNo) (s : State) : Out :=
  let j := ((s.core (t / 16)).due.head?.map (·.1)).getD 0
  .next (s.ostIssue t 0x32 fun s w => s.ostJoin t j w)

/-- OST_EXIT (R435): Ostler EXIT ends the thread, releasing holds and waking a joiner. -/
def execOstExit (t : ThreadNo) (s : State) : Out := .next (s.ostIssue t 0x33 fun s w => s.thrExit t ((s.thr t).reg (iRa w)))

/-- OST_WAITT (R439): Ostler WAITT sleeps until a NOW deadline or a selected event. -/
def execOstWaitt (t : ThreadNo) (s : State) : Out := .next (s.ostIssue t 0x34 fun s w => s.ostWaitt t w)

/-- WAITT_WAKE (R439): A waiting thread becomes READY when its deadline or event arrives. -/
def execWaittWake (t : ThreadNo) (s : State) : Out := .next (s.waittWake t)

/-- OST_RDT (R438): Ostler RDT returns NOW halves, the thread ID or the owner. -/
def execOstRdt (t : ThreadNo) (s : State) : Out := .next (s.ostIssue t 0x35 fun s w => s.ostRdt t w)

/-- OST_FLD (R459): Ostler FLD reads a register in the owner's function view. -/
def execOstFld (t : ThreadNo) (s : State) : Out := .next (s.ostFld t)

/-- OST_FST (R459): Ostler FST writes a register in the owner's function view. -/
def execOstFst (t : ThreadNo) (s : State) : Out := .next (s.ostFst t)

/-- ACCESS_COMPLETE (R441): A waited data, fabric or buffer access completes and the thread becomes READY. -/
def execAccessComplete (t : ThreadNo) (s : State) : Out := .next (s.accessComplete t)

/-- OST_XGET (R462): Ostler XGET pops an exception copy into a handle slot. -/
def execOstXget (t : ThreadNo) (s : State) : Out := .next (s.ostIssue t 0x38 fun s w => s.ostXget t w)

/-- OST_BALLOC (R461): Ostler BALLOC requests a buffer into a slot. -/
def execOstBalloc (t : ThreadNo) (s : State) : Out := .next (s.ostIssue t 0x39 fun s w => s.ostBalloc t w)

/-- OST_BFREE (R461): Ostler BFREE releases a slot's hold. -/
def execOstBfree (t : ThreadNo) (s : State) : Out := .next (s.ostIssue t 0x3A fun s w => s.ostBfree t w)

/-- OST_BLD (R461): Ostler BLD reads from a buffer or exception header. -/
def execOstBld (t : ThreadNo) (s : State) : Out := .next (s.ostIssue t 0x3B fun s w => s.ostBld t w)

/-- OST_BST (R461): Ostler BST writes into a buffer. -/
def execOstBst (t : ThreadNo) (s : State) : Out := .next (s.ostIssue t 0x3C fun s w => s.ostBst t w)

/-- OST_BSEND (R463): Ostler BSEND sends a slot's frame into a port queue. -/
def execOstBsend (t : ThreadNo) (s : State) : Out := .next (s.ostIssue t 0x3D fun s w => s.ostBsend t w)

/-- OST_HPUT (R461): Ostler HPUT moves a slot's handle to a register, keeping the hold. -/
def execOstHput (t : ThreadNo) (s : State) : Out := .next (s.ostIssue t 0x3E fun s w => s.ostHput t w)

/-- OST_HTAKE (R461): Ostler HTAKE puts a handle into a slot without a hold. -/
def execOstHtake (t : ThreadNo) (s : State) : Out := .next (s.ostIssue t 0x40 fun s w => s.ostHtake t w)

/-- OST_SYS (R458): Ostler SYS runs a vendor-only function, faulting PRIV from customer code. -/
def execOstSys (t : ThreadNo) (s : State) : Out := s.ostSys t

/-- OST_ILLEGAL (R458): An unlisted Ostler opcode faults with ILLEGAL. -/
def execOstIllegal (t : ThreadNo) (s : State) : Out := .next (s.ostIssue t 0x41 fun s _ => s)

/-- OST_THREAD_RESET (R464): OST_THR_CTL.RESET resets a thread to FREE, releasing its holds. -/
def execOstThreadReset (fn : FnNo) (t : ThreadNo) (s : State) : Out :=
  .next (s.command fn (thrAddr t) 0 [(F.OST_THR_CTL.RESET, 1)])

/-- SUP_START (R430): OST_OWN_CTL.SUP_START restarts the owner's supervisor. -/
def execSupStart (fn : FnNo) (n : OwnerNo) (s : State) : Out :=
  .next (s.command fn (R.OST_OWN_CTL n) 0 [(F.OST_OWN_CTL.SUP_START, 1)])

/-- OST_KICK (R439): OST_OWN_CTL.KICK raises the KICK event for waiting threads. -/
def execOstKick (fn : FnNo) (n : OwnerNo) (s : State) : Out :=
  .next (s.command fn (R.OST_OWN_CTL n) 0 [(F.OST_OWN_CTL.KICK, 1)])

/-- OST_PS_DATA_WRITE (R452): A write of OST_PS_DATA stores a customer word and steps the address, or is refused. -/
def execOstPsDataWrite (fn : FnNo) (n : OwnerNo) (v : Word) (s : State) : Out := .next (s.command fn (R.OST_PS_DATA n) v [])

/-- OST_PS_DATA_READ (R452): A read of OST_PS_DATA returns the program word at OST_PS_ADDR and steps the address by one. -/
def execOstPsDataRead (fn : FnNo) (n : OwnerNo) (s : State) : Out := .next (s.hostLoad fn (R.OST_PS_DATA n) 4)

/-- OST_CUST_ENABLE (R453): OST_CUST_CTL.EN = 1 starts the customer region check. -/
def execOstCustEnable (fn : FnNo) (n : OwnerNo) (s : State) : Out :=
  .next (s.command fn (R.OST_CUST_CTL n) 0 [(F.OST_CUST_CTL.EN, 1)])

/-- OST_CUST_CHECK_DONE (R453): The customer region check ends; on success STATE becomes ON and the entry thread starts. -/
def execOstCustCheckDone (n : OwnerNo) (s : State) : Out := .next (s.custCheckDone n)

/-- OST_CUST_DISABLE (R454): OST_CUST_CTL.EN = 0 turns the region OFF and faults threads running in it. -/
def execOstCustDisable (fn : FnNo) (n : OwnerNo) (s : State) : Out :=
  .next (s.command fn (R.OST_CUST_CTL n) 0 [(F.OST_CUST_CTL.EN, 0)])

end Sys2Proof.Machine
end

