-- ==== Sys2Proof/Machine/ExecPort.lean ====
section
/-! DEFINITION. Meanings of the commands: ports: enabling, formation, links and training. -/

namespace Sys2Proof.Machine

/-- PORT_ENABLE (R91): A write of EN = 1 starts the port's outputs within 10 µs, or is refused. -/
def execPortEnable (fn : FnNo) (n : PortNo) (v : Word) (s : State) : Out :=
  .next (s.command fn (R.PORT_CTL n) v [(F.PORT_CTL.EN, 1)])

/-- PORT_DISABLE (R92): A write of EN = 0 squelches the port within 0.1 µs and flushes its queues. -/
def execPortDisable (fn : FnNo) (n : PortNo) (v : Word) (s : State) : Out :=
  .next (s.command fn (R.PORT_CTL n) v [(F.PORT_CTL.EN, 0)])

/-- FORMATION_TIMELINE_END (R93): At the end of the rate or width change timeline enabled new ports leave squelch. -/
def execFormationTimelineEnd (g : GroupNo) (s : State) : Out := .next (s.timelineEnd g)

/-- LINK_UP_RISE (R119): All link conditions hold and LINK_UP sets. -/
def execLinkUpRise (n : PortNo) (s : State) (pcs : PcsObs := {}) : Out := .next ((s.pcsRx n pcs).linkTry n)

/-- LINK_DOWN (R120): LINK_UP falls on loss of signal, lock or a received fault, and the port's queues stop being served. -/
def execLinkDown (n : PortNo) (s : State) : Out := .next ((s.pcsDown n).linkLost n)

/-- LOCAL_FAULT_RX (R119): Receipt of Local Fault makes the port send Remote Fault. -/
def execLocalFaultRx (n : PortNo) (on : Bool) (s : State) : Out := .next (s.faultRx n F.PORT_STATUS.RX_LF F.PORT_CAUSE.RX_LF on)

/-- REMOTE_FAULT_RX (R119): Receipt of Remote Fault makes the port send idle. -/
def execRemoteFaultRx (n : PortNo) (on : Bool) (s : State) : Out :=
  .next (s.faultRx n F.PORT_STATUS.RX_RF F.PORT_CAUSE.RX_RF on)

/-- AN_FAIL (R116): Auto-negotiation resolving to another formation sets AN_FAIL and restarts after 1 s. -/
def execAnFail (n : PortNo) (s : State) : Out := .next (s.anFails n)

/-- AN_RESTART (R116): Auto-negotiation restarts 1 s after a failure. -/
def execAnRestart (n : PortNo) (s : State) : Out := .next (s.anRestarts n)

/-- AN_COMPLETE (R116): Clause 73 auto-negotiation resolves to the port's own formation, AN_DONE sets and the port moves on to
training or data. -/
def execAnComplete (n : PortNo) (s : State) : Out := .next (s.anCompletes n)

/-- TRAIN_TIMEOUT (R118): The training timer expires, setting TRAIN_TIMEOUT and restarting training. -/
def execTrainTimeout (n : PortNo) (s : State) : Out := .next (s.trainExpires n)

/-- LINK_TRAINING_FRAME_RX (R117): A received IEEE link training frame carries the partner's coefficient requests, which the port
applies or answers at limit, until training completes and TRAIN_DONE sets. -/
def execLinkTrainingFrameRx (n : PortNo) (l : LaneNo) (tap : Fin 6) (dir : Fin 4) (done : Bool) (s : State) : Out :=
  .next (s.trainRx n l tap dir done)

/-- ONZ_TRAINING_BLOCK_RX (R128): A received Onazel training block advances role resolution, tuning, RX_READY or GO. -/
def execOnzTrainingBlockRx (n : PortNo) (syms : List (Fin 4)) (s : State) : Out := .next (s.onzBlockSyms n (syms.map Fin.val))

/-- ONZ_IDLE_MARKER_RX (R128): A received idle marker ends a frame or sets LINK_UP after training. -/
def execOnzIdleMarkerRx (n : PortNo) (s : State) : Out := .next (s.onzMarkerUp n)

/-- ONZ_TRAINING_MARKER_RX (R130): A training marker in data drops LINK_UP and restarts training. -/
def execOnzTrainingMarkerRx (n : PortNo) (s : State) : Out := .next (s.onzDrop n)

/-- ONZ_MARKER_ERROR (R124): A run of level 2 or bad length is counted as a marker error. -/
def execOnzMarkerError (n : PortNo) (bad : OnzBad) (inFrame : Bool) (s : State) : Out := .next (s.onzBadRx n bad inFrame)

/-- ONZ_MARKER_TIMEOUT (R130): No valid SOF or idle marker for 1 µs drops LINK_UP. -/
def execOnzMarkerTimeout (n : PortNo) (s : State) : Out := .next (s.onzDrop n)

/-- ALIGN_BLOCK_RX (R132): Forwarded-clock alignment blocks align the port after two valid periods. -/
def execAlignBlockRx (n : PortNo) (blocks : List Bytes) (s : State) : Out := .next (s.alignRx n blocks)

/-- ALIGNMENT_LOSS (R132): Four periods of missing alignment blocks declare loss of alignment. -/
def execAlignmentLoss (n : PortNo) (s : State) : Out := .next (s.alignLost n)

/-- PORT_RESET_GO (R532): PORT_RST.GO squelches and resets the port's link logic. -/
def execPortResetGo (fn : FnNo) (n : PortNo) (s : State) : Out := .next (s.command fn (R.PORT_RST n) 0 [(F.PORT_RST.GO, 1)])

/-- PORT_RESET_RESTART (R532): After 10 µs of reset the port starts as at first enable. -/
def execPortResetRestart (n : PortNo) (s : State) : Out := .next (s.portRestart n)

end Sys2Proof.Machine
end

