-- ==== Sys2Proof/Machine/ExecPower.lean ====
section
/-! DEFINITION. Meanings of the commands: power, clocks and the thermal loop. -/

namespace Sys2Proof.Machine

/-- INPUT_DROP_REGRANT (R493): A sampled input fall below the budget re-grants from the new budget within 20 µs. -/
def execInputDropRegrant (mv : Fin 65536) (s : State) : Out := .next (s.inputDrop mv)

/-- INPUT_UNDERVOLTAGE (R491): Input below 5.4 V for 10 µs turns off every switched domain and asserts FAULT_N. -/
def execInputUndervoltage (s : State) : Out := .next (s.undervolt)

/-- INPUT_OVERVOLTAGE (R614): Input above 63 V stops the converter and every rail falls. -/
def execInputOvervoltage (s : State) : Out := .next (s.overvolt)

/-- DROOP_TRIP (R506): A region's voltage below its droop threshold withholds pulses within 4 ticks. -/
def execDroopTrip (r : RegionNo) (s : State) (dip : Nat := 33) : Out := .next (s.droopTrip r dip)

/-- DROOP_RECOVERY (R506): After 1 µs above threshold the added skip falls by 8 each µs. -/
def execDroopRecovery (r : RegionNo) (s : State) : Out := .next (s.droopRecover r)

/-- THERMAL_SAMPLE (R515): Every 10 µs the sensors are compared with WARN and LIMIT and skip ratios adjusted. -/
def execThermalSample (ts : List (Nat × Int)) (s : State) : Out :=
  .next (s.thermalSample (ts.filter fun e => decide (e.1 < 64)))

/-- THERMAL_TRIP (R515): A sensor reaching 112 °C turns off every switched domain and asserts FAULT_N. -/
def execThermalTrip (s : State) : Out := .next (s.thermTrip)

/-- NEIGHBOUR_EQUALISE (R513): A neighbour pair beyond a limit is equalised in voltage, temperature or skip ratio. -/
def execNeighbourEqualise (a b : RegionNo) (q : Fin 3) (gone : Bool) (s : State) (diff : Nat := 61) : Out :=
  .next (s.neighbourEq a b q (if gone then min 50 diff else diff))

/-- MARGIN_LOW (R509): A path monitor reporting low margin holds its region at k of at least 8. -/
def execMarginLow (r : RegionNo) (s : State) : Out := .next (s.marginLow r)

/-- DOMAIN_ADMIT (R545): The Postilion admits a switched domain after the previous one on its rail is ready. -/
def execDomainAdmit (d : DomainNo) (s : State) : Out := .next (s.domAdmit d)

/-- DOMAIN_READY (R545): A domain passes or fails its self-test and sets its ready or fail bit. -/
def execDomainReady (d : DomainNo) (ok : Bool) (s : State) : Out := .next (s.domDone d ok)

/-- DOMAIN_FAULT (R570): A run-time fault of a switched domain turns it off and holds its pipeline. -/
def execDomainFault (d : DomainNo) (s : State) : Out := .next (s.domFault d)

/-- REFCLK_LOSS (R521): REFCLK missing or off frequency sets REF_LOSS and PLLs hold frequency. -/
def execRefclkLoss (s : State) : Out := .next (s.refLoss)

/-- REFCLK_RETURN (R521): REFCLK good for 1 ms lets PLLs steer back to lock. -/
def execRefclkReturn (s : State) : Out := .next (s.refReturn)

/-- PLL_LOSS_OF_LOCK (R568): A device PLL loses lock with the effects of Table 21.3. -/
def execPllLossOfLock (k : Fin 7) (s : State) : Out := .next (s.pllLoss k)

/-- PLL_RELOCK (R568): A device PLL relocks and the part recovers as Table 21.3 gives. -/
def execPllRelock (k : Fin 7) (s : State) : Out := .next (s.pllRelock k)

/-- FABRIC_LOSS (R569): The fabric or PCIe endpoint silent for 10 µs asserts FAULT_N. -/
def execFabricLoss (pcie : Bool) (s : State) : Out := .next (s.fabricLoss pcie)

/-- POWER_GOOD (R538): Input rising above 5.8 V starts bring-up: rails, ROM, fuses and PLLs. -/
def execPowerGood (loop refOk : Bool) (stop : Fin 10) (plls : Fin 128) (s : State) : Out :=
  .next (s.powerGood loop refOk stop plls)

/-- ALWAYS_ON_DOMAIN_LOST (R491): The input falls below 5.0 V and the always-on domain is lost, so the next rise above 5.8 V is a
power-on reset. -/
def execAlwaysOnDomainLost (s : State) (mv : Fin 5000 := 4999) : Out := .next (s.alwaysOnLost mv)

/-- OVERVOLTAGE_RECOVERY (R614): After the converter stopped above 63 V, the input falls back below 61 V and the part starts as
at a power-on reset. -/
def execOvervoltageRecovery (loop refOk : Bool) (stop : Fin 10) (plls : Fin 128) (s : State) : Out :=
  .next (s.overvoltRecovery loop refOk stop plls)

end Sys2Proof.Machine
end

