-- ==== Sys2Proof/Machine/ExecReg.lean ====
section
/-! DEFINITION. Meanings of the commands: register accesses and the Round boundary. -/

namespace Sys2Proof.Machine

/-- REGISTER_WRITE (R11): A write to a register that has no row of its own stores or ignores each field by its access type. -/
def execRegisterWrite (fn : FnNo) (addr : Addr) (size : Nat) (v : BitVec 64) (s : State) : Out :=
  .next (s.hostStore fn addr.toNat size v)

/-- RC_READ (R11): A read of an RC register returns its value and clears it, an event in the same cycle being counted after the
clear. -/
def execRcRead (fn : FnNo) (addr : Addr) (s : State) (size : Nat := 4) : Out := .next (s.hostLoad fn addr.toNat size)

/-- COUNTER_PAIR_READ (R528): A read of the low register of a pair returns it and loads the high word into the requester's hold
for a later coherent read. -/
def execCounterPairRead (rq : Fin 21) (own : FnNo) (addr : Addr) (s : State) (size : Nat := 4) : Out :=
  .next (s.reqLoad rq own addr.toNat size)

/-- TIME_NS_READ (R335): A read of TIME_NS returns N and flags and copies S and F into the requester's shadows in the same time
clock cycle. -/
def execTimeNsRead (rq : Fin 21) (own : FnNo) (s : State) (size : Nat := 4) : Out := .next (s.reqLoad rq own R.TIME_NS size)

/-- ROUND_EFFECTIVE_WRITE (R36): A write to a Round-effective register stores the value as pending and sets its pending bit until
a boundary applies it. -/
def execRoundEffectiveWrite (fn : FnNo) (addr : Addr) (v : Word) (s : State) : Out :=
  .next (if (findReg addr.toNat).any fun r => r.2.1.roundEff then s.hostStore fn addr.toNat 4 (v.zeroExtend 64) else s)

/-- ROUND_BOUNDARY (R34): At each Round boundary the part applies grants, rate changes, ageing Round, audit step and scheduled
sheet closes in order. -/
def execRoundBoundary (obs : RoundObs) (s : State) : Out := .next (s.roundBoundary obs)

end Sys2Proof.Machine
end

