-- ==== Sys2Proof/Machine/ExecReset.lean ====
section
/-! DEFINITION. Meanings of the commands: resets, boot, interrupts, presence and the seal. -/

namespace Sys2Proof.Machine

/-- PIT_COMMIT_GO (R64): PIT_COMMIT.GO commits staged pipeline owners or reports the first failed condition. -/
def execPitCommitGo (fn : FnNo) (s : State) : Out := .next (s.command fn R.PIT_COMMIT 0 [(F.PIT_COMMIT.GO, 1)])

/-- PIT_CTL_WRITE (R69): A write of PIT_CTL holds or releases a Pitch in reset. -/
def execPitCtlWrite (fn : FnNo) (n : OwnerNo) (v : Word) (s : State) : Out :=
  .next (if n.val = 0 then s else s.command fn (R.PIT_CTL n) v [])

/-- DEVICE_RESET_GO (R530): CLK_RST_DEV.GO runs a Warden device reset. -/
def execDeviceResetGo (fn : FnNo) (s : State) : Out := .next (s.command fn R.CLK_RST_DEV 0 [(F.CLK_RST_DEV.GO, 1)])

/-- PERST_DEASSERT (R538): PERST_N deasserting releases PCIe internal reset and the link trains. -/
def execPerstDeassert (s : State) : Out := .next (s.perstDeassert)

/-- PCIE_LINK_UP (R540): The PCIe link comes up and all 17 functions enumerate. -/
def execPcieLinkUp (speed : Fin 8) (lanes : Fin 32) (s : State) : Out := .next (s.pcieUp speed lanes)

/-- SPI_BOOT_READ (R541): The part discovers the SPI flash, which declares a set of read modes and may declare 4-byte addresses, and whose first
block is `block`, and reads the container, or waits for the host. -/
def execSpiBootRead (modes : Fin 32) (block : Bytes) (s : State) (four : Bool := false) : Out := .next (s.spiRead (spiMode modes) four block)

/-- DEVICE_LOAD (R542): A container with good signatures fixes the layout, fills the store and is audited. -/
def execDeviceLoad (c : Container) (s : State) : Out := .next (s.deviceLoad c)

/-- CONTAINER_PUSH_GO (R595): DEV_PUSH_CTL.GO reads a container from host memory. -/
def execContainerPushGo (fn : FnNo) (ok : Bool) (s : State) : Out :=
  .next (if s.reach then s.regWriteX (host fn) R.DEV_PUSH_CTL (putFlds 0 [(F.DEV_PUSH_CTL.GO, 1)]) none (some ok) else s)

/-- FUNCTION_LEVEL_RESET (R577): An FLR of a function stops its rings and resets its DMA state. -/
def execFunctionLevelReset (f : FnNo) (s : State) : Out := .next (s.flr f)

/-- PCIE_HOT_RESET (R577): A hot or conventional reset resets every function's PCIe and DMA state. -/
def execPcieHotReset (s : State) : Out := .next (s.hotReset)

/-- PCIE_CONFIG_WRITE (R560): A host write to a function's configuration space unmasks its MSI vector, sending a held message, or
changes MSI enable or Interrupt Disable and thus INTA, or Max_Payload_Size, to at most 512 bytes, and Max_Read_Request_Size, to at most
4,096 (R576). -/
def execPcieConfigWrite (f : FnNo) (msiEn mask intxDis : Bool) (s : State) (mps : Fin 3 := 0) (mrrs : Fin 6 := 2) : Out :=
  .next (s.pcieConfig f msiEn mask intxDis mps mrrs)

/-- IRQ_PEND_WRITE (R560): A W1C write to IRQ_PEND clears bits and resends the MSI if the condition stays set. -/
def execIrqPendWrite (fn : FnNo) (n : OwnerNo) (v : Word) (s : State) : Out := .next (s.command fn (R.IRQ_PEND n) v [])

/-- IRQ_HIST_POP (R564): IRQ_HIST_CTL.POP removes the head history entry. -/
def execIrqHistPop (fn : FnNo) (n : OwnerNo) (s : State) : Out :=
  .next (s.command fn (R.IRQ_HIST_CTL n) 0 [(F.IRQ_HIST_CTL.POP, 1)])

/-- PRESENCE_ASSERT (R605): PRESENCE_N held low for 50 ms opens or restarts the presence window. -/
def execPresenceAssert (s : State) : Out := .next (s.presAssert)

/-- PRESENCE_RELEASE (R605): PRESENCE_N rising starts the WINDOW countdown. -/
def execPresenceRelease (s : State) : Out := .next (s.presRelease)

/-- PRESENCE_WINDOW_EXPIRY (R605): The presence window's time ends and it closes. -/
def execPresenceWindowExpiry (s : State) : Out := .next (s.presExpire)

/-- PRES_CLOSE (R605): DEV_PRES_CTL.CLOSE closes the presence window. -/
def execPresClose (fn : FnNo) (v : Word) (s : State) : Out := .next (s.command fn R.DEV_PRES_CTL v [(F.DEV_PRES_CTL.CLOSE, 1)])

/-- SEAL_OPEN (R607): 16 wrong seal bits open the loop and close the presence window. -/
def execSealOpen (s : State) : Out := .next (s.sealOpens)

/-- SEAL_CLOSE (R607): The seal loop closes after 1 s without a wrong bit. -/
def execSealClose (s : State) : Out := .next (s.sealCloses)

end Sys2Proof.Machine
end

