-- ==== Sys2Proof/Machine/ExecSide.lean ====
section
/-! DEFINITION. Meanings of the commands: the sideband ports: I2C, CMIS, SMBus and JTAG. -/

namespace Sys2Proof.Machine

/-- I2C_WRITE (R598): An I2C write transfer of KIND 0. -/
def execI2cWrite (fn : FnNo) (m : Fin 8) (v : Word) (s : State) : Out :=
  .next (s.command fn (R.SB_I2C_CMD m) v [(F.SB_I2C_CMD.KIND, 0), (F.SB_I2C_CMD.GO, 1)])

/-- I2C_READ (R598): An I2C read transfer of KIND 1. -/
def execI2cRead (fn : FnNo) (m : Fin 8) (v : Word) (s : State) : Out :=
  .next (s.command fn (R.SB_I2C_CMD m) v [(F.SB_I2C_CMD.KIND, 1), (F.SB_I2C_CMD.GO, 1)])

/-- I2C_WRITE_READ (R598): An I2C write then read with repeated START, KIND 2. -/
def execI2cWriteRead (fn : FnNo) (m : Fin 8) (v : Word) (s : State) : Out :=
  .next (s.command fn (R.SB_I2C_CMD m) v [(F.SB_I2C_CMD.KIND, 2), (F.SB_I2C_CMD.GO, 1)])

/-- I2C_BAD_KIND (R598): An I2C command of KIND 3 returns result 0x5. -/
def execI2cBadKind (fn : FnNo) (m : Fin 8) (v : Word) (s : State) : Out :=
  .next (s.command fn (R.SB_I2C_CMD m) v [(F.SB_I2C_CMD.KIND, 3), (F.SB_I2C_CMD.GO, 1)])

/-- I2C_ADDRESS_RETRY (R599): After an address NACK the master retries after GAP_US. -/
def execI2cAddressRetry (m : Fin 8) (s : State) : Out := .next (s.i2cRetry m)

/-- I2C_DONE (R598): An I2C transfer ends with STOP and a result. -/
def execI2cDone (m : Fin 8) (res : Fin 16) (done : Nat) (bytes : Bytes) (bus : I2cBus) (s : State) (after : I2cBus := {}) : Out :=
  .next (s.i2cEnd m res done bytes bus after)

/-- CMIS_READ (R601): A CMIS mailbox read asks firmware for module bytes. -/
def execCmisRead (fn : FnNo) (n : PortNo) (v : Word) (s : State) : Out :=
  .next (s.command fn (R.PORT_CMIS_CMD n) v [(F.PORT_CMIS_CMD.WRITE, 0), (F.PORT_CMIS_CMD.GO, 1)])

/-- CMIS_WRITE (R601): A CMIS mailbox write, allowed only by SB_CMIS_WR. -/
def execCmisWrite (fn : FnNo) (n : PortNo) (v : Word) (s : State) : Out :=
  .next (s.command fn (R.PORT_CMIS_CMD n) v [(F.PORT_CMIS_CMD.WRITE, 1), (F.PORT_CMIS_CMD.GO, 1)])

/-- CMIS_DONE (R601): Firmware completes a mailbox request with a result. -/
def execCmisDone (n : PortNo) (res : Fin 16) (bytes : Bytes) (s : State) : Out := .next (s.cmisDone n res bytes)

/-- SMB_STATUS (R602): SMBus command 0x00 returns stage and fault status. -/
def execSmbStatus (s : State) (ask : SmbAsk := .read) : Out := .next (s.smbAnswer 0x00 ask false s.smbStatus)

/-- SMB_INPUT_VOLTAGE (R602): SMBus command 0x01 returns the input voltage. -/
def execSmbInputVoltage (s : State) (ask : SmbAsk := .read) : Out :=
  .next (s.smbAnswer 0x01 ask false (smbWord (if s.pstSampled then some (s.reg R.PST_VIN).toNat else none)))

/-- SMB_INPUT_POWER (R602): SMBus command 0x02 returns average input power. -/
def execSmbInputPower (s : State) (ask : SmbAsk := .read) : Out :=
  .next (s.smbAnswer 0x02 ask false (smbWord (if s.pstSampled then some (s.fld R.PST_PIN F.PST_PIN.AVG) else none)))

/-- SMB_HOTTEST_SENSOR (R602): SMBus command 0x03 returns the hottest sensor reading. -/
def execSmbHottestSensor (s : State) (ask : SmbAsk := .read) : Out :=
  .next (s.smbAnswer 0x03 ask false (smbWord (s.hottest.map fun t => trunc 16 t)))

/-- SMB_IRQ_SUMMARY (R602): SMBus command 0x04 returns IRQ_SUM[0] and the highest severity. -/
def execSmbIrqSummary (s : State) (ask : SmbAsk := .read) : Out := .next (s.smbAnswer 0x04 ask true s.smbIrq)

/-- SMB_SERIAL (R602): SMBus command 0x05 returns the fused serial. -/
def execSmbSerial (s : State) (ask : SmbAsk := .read) : Out := .next (s.smbAnswer 0x05 ask true s.smbSerial)

/-- SMB_PCIE_STATUS (R602): SMBus command 0x06 returns PCIe link state. -/
def execSmbPcieStatus (s : State) (ask : SmbAsk := .read) : Out := .next (s.smbAnswer 0x06 ask false s.smbPcie)

/-- JTAG_BYPASS (R603): TAP instruction BYPASS; a code that names no instruction acts as it. -/
def execJtagBypass (s : State) (code : BitVec 8 := 0xFF) : Out := .next (s.jtagTake (tapCode code) none)

/-- JTAG_IDCODE (R603): TAP instruction IDCODE returns 0x1A10954F. -/
def execJtagIdcode (s : State) : Out := .next (s.jtagTake 0x01 (some 0x1A10954F))

/-- JTAG_SAMPLE_PRELOAD (R603): TAP instruction SAMPLE/PRELOAD. -/
def execJtagSamplePreload (s : State) (bits : List Bool := []) : Out := .next (s.jtagPreload bits)

/-- JTAG_EXTEST (R603): TAP instruction EXTEST takes the lands when permitted. -/
def execJtagExtest (s : State) : Out := .next (s.jtagLands 0x03)

/-- JTAG_EXTEST_PULSE (R603): TAP instruction EXTEST_PULSE under IEEE 1149.6. -/
def execJtagExtestPulse (s : State) : Out := .next (s.jtagLands 0x04)

/-- JTAG_EXTEST_TRAIN (R603): TAP instruction EXTEST_TRAIN under IEEE 1149.6. -/
def execJtagExtestTrain (s : State) : Out := .next (s.jtagLands 0x05)

/-- JTAG_CLAMP (R603): TAP instruction CLAMP. -/
def execJtagClamp (s : State) : Out := .next (s.jtagLands 0x06)

/-- JTAG_HIGHZ (R603): TAP instruction HIGHZ. -/
def execJtagHighz (s : State) : Out := .next (s.jtagLands 0x07)

/-- JTAG_TEST_LOGIC_RESET (R603): Test-Logic-Reset selects IDCODE. -/
def execJtagTestLogicReset (s : State) : Out := .next (s.jtagTake 0x01 (some 0x1A10954F))

end Sys2Proof.Machine
end

