-- ==== Sys2Proof/Machine/ExecTable.lean ====
section
/-! DEFINITION. Meanings of the commands: the tables of the stages, the microcode banks, image loads and memory upsets. -/

namespace Sys2Proof.Machine

/-- LEARN_PROCESS (R173): The table engine acts on the learn request at the FIFO head: insert, refresh, move or refuse. -/
def execLearnProcess (p : PipeNo) (st : StageNo) (s : State) : Out := .next (if s.stageOn p st then s.learnProcess p st else s)

/-- STASH_REINSERT (R171): After a row is freed the engine tries to move one stash entry into the ways. -/
def execStashReinsert (p : PipeNo) (st : StageNo) (s : State) : Out := .next (if s.stageOn p st then s.stashReinsert p st else s)

/-- AGER_VISIT (R176): Every 64 ticks the ager visits one index and removes entries aged beyond AGE_LIMIT. -/
def execAgerVisit (p : PipeNo) (st : StageNo) (s : State) : Out := .next (if s.stageOn p st then s.agerVisit p st else s)

/-- PARITY_INVALIDATE (R178): The engine clears VALID of a row that failed parity and issues a PARITY notification. -/
def execParityInvalidate (p : PipeNo) (st : StageNo) (s : State) : Out :=
  .next (if s.stageOn p st then s.parityInvalidate p st else s)

/-- EM_READ_ADDR (R182): Indirect READ_ADDR reads a row or stash slot and its timestamp. -/
def execEmReadAddr (fn : FnNo) (p : PipeNo) (st : StageNo) (v : Word) (s : State) : Out :=
  .next (s.command fn (R.STG_IA_CMD p st) v [(F.STG_IA_CMD.OP, 0), (F.STG_IA_CMD.GO, 1)])

/-- EM_WRITE_ADDR (R182): Indirect WRITE_ADDR writes an entry whole at a location. -/
def execEmWriteAddr (fn : FnNo) (p : PipeNo) (st : StageNo) (v : Word) (s : State) : Out :=
  .next (s.command fn (R.STG_IA_CMD p st) v [(F.STG_IA_CMD.OP, 1), (F.STG_IA_CMD.GO, 1)])

/-- EM_LOOKUP_CMD (R182): Indirect LOOKUP looks a key up and returns the entry. -/
def execEmLookupCmd (fn : FnNo) (p : PipeNo) (st : StageNo) (v : Word) (s : State) : Out :=
  .next (s.command fn (R.STG_IA_CMD p st) v [(F.STG_IA_CMD.OP, 2), (F.STG_IA_CMD.GO, 1)])

/-- EM_INSERT (R182): Indirect INSERT inserts an entry under the insertion and eviction rules. -/
def execEmInsert (fn : FnNo) (p : PipeNo) (st : StageNo) (v : Word) (s : State) : Out :=
  .next (s.command fn (R.STG_IA_CMD p st) v [(F.STG_IA_CMD.OP, 3), (F.STG_IA_CMD.GO, 1)])

/-- EM_UPDATE (R182): Indirect UPDATE rewrites STATIC, ACTION and DATA of a present key. -/
def execEmUpdate (fn : FnNo) (p : PipeNo) (st : StageNo) (v : Word) (s : State) : Out :=
  .next (s.command fn (R.STG_IA_CMD p st) v [(F.STG_IA_CMD.OP, 4), (F.STG_IA_CMD.GO, 1)])

/-- EM_DELETE (R182): Indirect DELETE clears VALID of a present key. -/
def execEmDelete (fn : FnNo) (p : PipeNo) (st : StageNo) (v : Word) (s : State) : Out :=
  .next (s.command fn (R.STG_IA_CMD p st) v [(F.STG_IA_CMD.OP, 5), (F.STG_IA_CMD.GO, 1)])

/-- EM_FLUSH_DYNAMIC (R182): Indirect FLUSH_DYNAMIC starts clearing every dynamic entry in steps. -/
def execEmFlushDynamic (fn : FnNo) (p : PipeNo) (st : StageNo) (v : Word) (s : State) : Out :=
  .next (s.command fn (R.STG_IA_CMD p st) v [(F.STG_IA_CMD.OP, 6), (F.STG_IA_CMD.GO, 1)])

/-- EM_FLUSH_STEP (R182): One flush step clears dynamic entries of 16 indices or the stash. -/
def execEmFlushStep (p : PipeNo) (st : StageNo) (s : State) : Out := .next (if s.stageOn p st then s.flushStep p st else s)

/-- STG_NOTE_POP (R180): STG_NOTE_CTL.POP removes the head notification record. -/
def execStgNotePop (fn : FnNo) (p : PipeNo) (st : StageNo) (s : State) : Out :=
  .next (s.command fn (R.STG_NOTE_CTL p st) 0 [(F.STG_NOTE_CTL.POP, 1)])

/-- TC_GMASK_TAKE (R192): TC_GMASK_CTL.TAKE copies the four staged global mask sets into use. -/
def execTcGmaskTake (fn : FnNo) (p : PipeNo) (st : StageNo) (t : Fin 2) (s : State) : Out :=
  .next (s.command fn (R.TC_GMASK_CTL p st t) 0 [(F.TC_GMASK_CTL.TAKE, 1)])

/-- TC_READ_ADDR (R210): TCAM READ_ADDR reads the shadow of an entry and compares it with the array. -/
def execTcReadAddr (fn : FnNo) (p : PipeNo) (v : Word) (s : State) : Out :=
  .next (s.command fn (R.TC_IA_CMD p) v [(F.TC_IA_CMD.OP, 0), (F.TC_IA_CMD.GO, 1)])

/-- TC_WRITE_ADDR (R210): TCAM WRITE_ADDR writes an entry whole at an address. -/
def execTcWriteAddr (fn : FnNo) (p : PipeNo) (v : Word) (s : State) : Out :=
  .next (s.command fn (R.TC_IA_CMD p) v [(F.TC_IA_CMD.OP, 1), (F.TC_IA_CMD.GO, 1)])

/-- TC_INSERT (R202): TCAM INSERT places an entry in priority order, shifting rows. -/
def execTcInsert (fn : FnNo) (p : PipeNo) (v : Word) (s : State) : Out :=
  .next (s.command fn (R.TC_IA_CMD p) v [(F.TC_IA_CMD.OP, 2), (F.TC_IA_CMD.GO, 1)])

/-- TC_DELETE_ADDR (R210): TCAM DELETE_ADDR clears VALID at an address. -/
def execTcDeleteAddr (fn : FnNo) (p : PipeNo) (v : Word) (s : State) : Out :=
  .next (s.command fn (R.TC_IA_CMD p) v [(F.TC_IA_CMD.OP, 3), (F.TC_IA_CMD.GO, 1)])

/-- TC_UPDATE_RESULT (R210): TCAM UPDATE_RESULT rewrites ACTION and DATA at an address. -/
def execTcUpdateResult (fn : FnNo) (p : PipeNo) (v : Word) (s : State) : Out :=
  .next (s.command fn (R.TC_IA_CMD p) v [(F.TC_IA_CMD.OP, 4), (F.TC_IA_CMD.GO, 1)])

/-- TC_SEARCH_CMD (R210): TCAM SEARCH searches a key on the engine's own port and returns the winner. -/
def execTcSearchCmd (fn : FnNo) (p : PipeNo) (v : Word) (s : State) : Out :=
  .next (s.command fn (R.TC_IA_CMD p) v [(F.TC_IA_CMD.OP, 5), (F.TC_IA_CMD.GO, 1)])

/-- TC_FLUSH (R210): TCAM FLUSH clears VALID of every entry of a table. -/
def execTcFlush (fn : FnNo) (p : PipeNo) (v : Word) (s : State) : Out :=
  .next (s.command fn (R.TC_IA_CMD p) v [(F.TC_IA_CMD.OP, 6), (F.TC_IA_CMD.GO, 1)])

/-- SCRUB_VISIT (R204): The scrubber compares one block row's array and shadow copies. -/
def execScrubVisit (p : PipeNo) (s : State) : Out := .next (if s.stageOn p 0 then s.scrubVisit p else s)

/-- TC_INVALIDATE (R206): The engine clears VALID of a faulty entry in both copies. -/
def execTcInvalidate (p : PipeNo) (s : State) : Out := .next (if s.stageOn p 0 then s.tcInvalidate p else s)

/-- UC_SWAP_GO (R234): STG_UC_SWAP.GO checks every standby bank and swaps them or reports the first failure. -/
def execUcSwapGo (fn : FnNo) (p : PipeNo) (s : State) : Out := .next (s.command fn (swapAddr p) 0 [(F.STG_UC_SWAP.GO, 1)])

/-- UC_SWAP_LAND (R235): The checked standby banks become active and DRAINING sets. -/
def execUcSwapLand (p : PipeNo) (s : State) : Out := .next (s.swapLand p)

/-- UC_SWAP_DRAIN_END (R235): No packet of the old bank remains and DRAINING clears. -/
def execUcSwapDrainEnd (p : PipeNo) (s : State) : Out := .next (s.swapDrained p)

/-- UC_STBY_WRITE (R235): A write to STG_UC_STBY stores a standby word or is ignored during a swap. -/
def execUcStbyWrite (fn : FnNo) (p : PipeNo) (st : StageNo) (k : Fin 1024) (v : Word) (s : State) : Out :=
  .next (s.command fn (R.STG_UC_STBY p st k) v [])

/-- IMAGE_LOAD (R596): DEV_LOAD_CTL.GO loads, re-seats or refuses a pipeline image. -/
def execImageLoad (fn : FnNo) (f : FnNo) (v : Word) (img : Option Image) (s : State) : Out :=
  .next (if s.reach then s.regWriteX (host fn) (R.DEV_LOAD_CTL f) (putFlds v [(F.DEV_LOAD_CTL.GO, 1)]) img none else s)

/-- MEMORY_UPSET (R178): A bit of a table, TCAM, store, buffer or data memory array flips, to be found later by parity, shadow
comparison or SECDED. -/
def execMemoryUpset (at_ : UpsetAt) (s : State) : Out := .next (s.upset at_)

end Sys2Proof.Machine
end

