-- ==== Sys2Proof/Machine/ExecTime.lean ====
section
/-! DEFINITION. Meanings of the commands: time, its sources, and timestamps. -/

namespace Sys2Proof.Machine

/-- TIME_SET_GO (R336): TIME_SET_CTL.GO loads the staged time next cycle, or arms it for the next PPS_IN edge. -/
def execTimeSetGo (fn : FnNo) (v : Word) (s : State) : Out := .next (s.command fn R.TIME_SET_CTL v [(F.TIME_SET_CTL.GO, 1)])

/-- TIME_SET_TIMEOUT (R336): No PPS_IN edge within 1.1 s of an AT = 1 set refuses it. -/
def execTimeSetTimeout (s : State) : Out := .next (s.timeSetTimeout)

/-- TIME_ADJ_GO (R333): TIME_ADJ_CTL.GO adds an adjustment as a trim or a step. -/
def execTimeAdjGo (fn : FnNo) (v : Word) (s : State) : Out := .next (s.command fn R.TIME_ADJ_CTL v [(F.TIME_ADJ_CTL.GO, 1)])

/-- TIME_FREQ_WRITE (R332): A write of TIME_FREQ sets the frequency word or is refused under a servo. -/
def execTimeFreqWrite (fn : FnNo) (v : Word) (s : State) : Out := .next (s.command fn R.TIME_FREQ v [])

/-- TIME_SRC_CHANGE (R341): A change of SRC restarts the servo, clears holdover and is audited. -/
def execTimeSrcChange (fn : FnNo) (v : Word) (s : State) : Out := .next (s.command fn R.TIME_SRC_CTL v [])

/-- COUNTER_FAULT (R331): The two time base copies differ, VALID clears and counting continues from copy 0. -/
def execCounterFault (second : Bool) (bit : Fin 122) (s : State) : Out := .next (s.copyFlip second bit)

/-- PPS_IN_EDGE (R342): A PPS_IN rising edge feeds the servo, applies an AT = 1 set, or is an outlier. -/
def execPpsInEdge (age : Nat) (s : State) : Out := .next (s.ppsIn age)

/-- SERVO_CORRECTION (R342): The servo applies a correction by ADJ or as a step. -/
def execServoCorrection (s : State) (ref : Option Nat := none) : Out := .next ((ref.elim s s.refIn).servoCorrect)

/-- SOURCE_LOSS (R343): A time source is declared lost and the time base enters holdover. -/
def execSourceLoss (s : State) : Out := .next (s.sourceLoss)

/-- SOURCE_REVERT (R345): A source free of loss for REVERT seconds resumes servo control and leaves holdover. -/
def execSourceRevert (s : State) : Out := .next (s.sourceBack)

/-- TIME_LINK_FRAME_TX (R346): Each interval a time link frame is sent on every active time link port. -/
def execTimeLinkFrameTx (s : State) : Out := .next (s.tlTx)

/-- TIME_LINK_FRAME_RX (R348): A received time link frame yields offset and delay and updates the dataset. -/
def execTimeLinkFrameRx (k : Fin 4) (bytes : Bytes) (age : RefAt) (s : State) : Out := .next (s.tlFrameRx k bytes age)

/-- DATASET_EXPIRY (R350): A link's dataset expires after TIMEOUT intervals without a valid frame. -/
def execDatasetExpiry (k : Fin 4) (s : State) : Out := .next (s.tlExpire k)

/-- PPS_ARM (R353): TIME_PPS_CTL.ARM takes START, PERIOD and WIDTH and arms the output. -/
def execPpsArm (fn : FnNo) (k : Fin 4) (v : Word) (s : State) : Out :=
  .next (s.command fn (R.TIME_PPS_CTL k) v [(F.TIME_PPS_CTL.ARM, 1)])

/-- PPS_DISARM (R354): TIME_PPS_CTL.DISARM returns the output to its inactive level. -/
def execPpsDisarm (fn : FnNo) (k : Fin 4) (v : Word) (s : State) : Out :=
  .next (s.command fn (R.TIME_PPS_CTL k) v [(F.TIME_PPS_CTL.DISARM, 1)])

/-- PPS_EDGE_EMIT (R340): A scheduled pulse edge is emitted when the time base reaches it, or skipped or late on a step. -/
def execPpsEdgeEmit (k : Fin 4) (s : State) : Out := .next (s.ppsDue k)

/-- EVT_CAPTURE (R356): An edge on a capture input enters its FIFO with time, STEP_SEQ and holdover. -/
def execEvtCapture (k : Fin 4) (fall : Bool) (age : Nat) (s : State) : Out := .next (s.evtEdge k fall age)

/-- TIME_EVT_POP (R356): TIME_EVT_CTL.POP removes the head capture entry. -/
def execTimeEvtPop (fn : FnNo) (k : Fin 4) (v : Word) (s : State) : Out :=
  .next (s.command fn (R.TIME_EVT_CTL k) v [(F.TIME_EVT_CTL.POP, 1)])

/-- TXQ_POP (R378): PORT_TS_TXQ_CTL.POP removes the head two-step record. -/
def execTxqPop (fn : FnNo) (n : PortNo) (s : State) : Out :=
  .next (s.command fn (R.PORT_TS_TXQ_CTL n) 0 [(F.PORT_TS_TXQ_CTL.POP, 1)])

/-- CAL_GO (R381): PORT_TS_CAL_CTL.GO starts a loopback calibration, or refuses it. -/
def execCalGo (fn : FnNo) (n : PortNo) (v : Word) (s : State) : Out :=
  .next (s.command fn (R.PORT_TS_CAL_CTL n) v [(F.PORT_TS_CAL_CTL.GO, 1)])

/-- CAL_FRAME_TX (R381): A calibration frame is sent every 1 µs during a run. -/
def execCalFrameTx (n : PortNo) (s : State) : Out := .next (s.calTx n)

/-- CAL_FRAME_RX (R381): A returned calibration frame is matched and its residual taken. -/
def execCalFrameRx (n : PortNo) (bytes : Bytes) (age : RefAt) (s : State) : Out := .next (s.calFrameRx n bytes age)

/-- CAL_DONE (R381): A calibration run ends with MEAN, SPREAD and its result. -/
def execCalDone (n : PortNo) (s : State) : Out := .next (s.calDone n)

/-- TT_LATE_POP (R396): TT_LATE_CTL.POP removes the head late record. -/
def execTtLatePop (fn : FnNo) (n : OwnerNo) (s : State) : Out :=
  .next (s.command fn (R.TT_LATE_CTL n) 0 [(F.TT_LATE_CTL.POP, 1)])

end Sys2Proof.Machine
end

