-- ==== Sys2Proof/Machine/ExecVer.lean ====
section
/-! DEFINITION. Meanings of the commands: versions of the tables and global writes. -/

namespace Sys2Proof.Machine

/-- VER_OPEN (R248): VER_CMD OPEN opens a group, or is held or refused by state. -/
def execVerOpen (fn : FnNo) (p : PipeNo) (v : Word) (s : State) : Out :=
  .next (s.command fn (verAddr p) v [(F.VER_CMD.CMD, 1), (F.VER_CMD.GO, 1)])

/-- VER_COMMIT (R253): VER_CMD COMMIT sends the commit toward every pipeline of the Pitch, now or at a Round. -/
def execVerCommit (fn : FnNo) (p : PipeNo) (v : Word) (s : State) : Out :=
  .next (s.command fn (verAddr p) v [(F.VER_CMD.CMD, 2), (F.VER_CMD.GO, 1)])

/-- VER_ABANDON (R252): VER_CMD ABANDON starts undoing an open group. -/
def execVerAbandon (fn : FnNo) (p : PipeNo) (v : Word) (s : State) : Out :=
  .next (s.command fn (verAddr p) v [(F.VER_CMD.CMD, 3), (F.VER_CMD.GO, 1)])

/-- VER_BAD_CMD (R253): A VER_CMD code of 0 or 4 to 15 returns RESULT 0x4. -/
def execVerBadCmd (fn : FnNo) (p : PipeNo) (v : Word) (s : State) : Out := .next (s.badVerCmd fn p v)

/-- COMMIT_APPLY (R254): A pipeline applies a crossing commit and its ingress gives the new tag. -/
def execCommitApply (p : PipeNo) (s : State) : Out := .next (s.commitApply p)

/-- DRAIN_COMPLETE (R258): No live packet of the old tag remains and retiring starts. -/
def execDrainComplete (n : OwnerNo) (s : State) : Out := .next (if n.val = 0 then s else s.drainComplete n)

/-- RETIRE_DONE (R259): The old view is cleared, STATE returns to IDLE and a held OPEN takes effect. -/
def execRetireDone (n : OwnerNo) (s : State) : Out := .next (if n.val = 0 then s else s.retireDone n)

/-- ABANDON_DONE (R252): The abandoned group is undone and STATE returns to IDLE. -/
def execAbandonDone (n : OwnerNo) (s : State) : Out := .next (if n.val = 0 then s else s.abandonDone n)

/-- DRAIN_TIMEOUT (R260): The drain limit passes with the drain incomplete. -/
def execDrainTimeout (n : OwnerNo) (s : State) : Out := .next (if n.val = 0 then s else s.drainTimeout n)

/-- G_INSERT (R249): Group operation G_INSERT inserts an entry visible in the pending view only. -/
def execGInsert (fn : FnNo) (p : PipeNo) (v : Word) (s : State) : Out :=
  .next (s.command fn (R.VER_GW_CMD p) v [(F.VER_GW_CMD.OP, 0), (F.VER_GW_CMD.GO, 1)])

/-- G_REPLACE (R249): Group operation G_REPLACE stages a new entry and marks the old one current-only. -/
def execGReplace (fn : FnNo) (p : PipeNo) (v : Word) (s : State) : Out :=
  .next (s.command fn (R.VER_GW_CMD p) v [(F.VER_GW_CMD.OP, 1), (F.VER_GW_CMD.GO, 1)])

/-- G_DELETE (R249): Group operation G_DELETE marks an entry current-only. -/
def execGDelete (fn : FnNo) (p : PipeNo) (v : Word) (s : State) : Out :=
  .next (s.command fn (R.VER_GW_CMD p) v [(F.VER_GW_CMD.OP, 2), (F.VER_GW_CMD.GO, 1)])

/-- G_TC_INSERT (R249): Group operation G_TC_INSERT inserts a TCAM entry in the pending view only. -/
def execGTcInsert (fn : FnNo) (p : PipeNo) (v : Word) (s : State) : Out :=
  .next (s.command fn (R.VER_GW_CMD p) v [(F.VER_GW_CMD.OP, 3), (F.VER_GW_CMD.GO, 1)])

/-- G_TC_DELETE (R249): Group operation G_TC_DELETE marks a TCAM entry current-only. -/
def execGTcDelete (fn : FnNo) (p : PipeNo) (v : Word) (s : State) : Out :=
  .next (s.command fn (R.VER_GW_CMD p) v [(F.VER_GW_CMD.OP, 4), (F.VER_GW_CMD.GO, 1)])

end Sys2Proof.Machine
end

