-- ==== Sys2Proof/Machine/ExecWb.lean ====
section
/-! DEFINITION. Meanings of the commands: the Witness block. -/

namespace Sys2Proof.Machine

/-- WB_FLUSH (R413): WB_STRM_CTL.FLUSH closes the stream's open sheet. -/
def execWbFlush (fn : FnNo) (n : OwnerNo) (v : Word) (s : State) : Out :=
  .next (s.command fn (R.WB_STRM_CTL n) v [(F.WB_STRM_CTL.FLUSH, 1)])

/-- WB_KEY_IDX_WRITE (R416): A change of KEY_IDX closes the open sheet with CLOSE 4 and is audited. -/
def execWbKeyIdxWrite (fn : FnNo) (n : OwnerNo) (v : Word) (s : State) : Out := .next (s.command fn (R.WB_STRM_CTL n) v [])

/-- WB_KEY_GO (R415): WB_KEY_CTL.GO loads or erases a key slot, or refuses it. -/
def execWbKeyGo (fn : FnNo) (v : Word) (s : State) : Out := .next (s.command fn R.WB_KEY_CTL v [(F.WB_KEY_CTL.GO, 1)])

/-- WB_EXP_PORT_WRITE (R421): A write to WB_EXP_PORT is accepted only for a port of the named Pitch. -/
def execWbExpPortWrite (fn : FnNo) (k : Fin 4) (v : Word) (s : State) : Out := .next (s.command fn (R.WB_EXP_PORT k) v [])

/-- SHEET_HASH_DONE (R412): A hash engine completes CHAIN and TAG of a closed sheet. -/
def execSheetHashDone (n : OwnerNo) (s : State) : Out := .next (s.wbHash n)

/-- SHEET_EXPORT (R422): A sheet frame is offered to an export port queue, or retried on refusal. -/
def execSheetExport (n : OwnerNo) (s : State) : Out := .next (s.sheetExport n)

/-- EXPORT_RETRY (R422): A refused sheet is offered again 1 µs later to the next port. -/
def execExportRetry (n : OwnerNo) (s : State) : Out := .next (s.exportRetry n)

/-- HASH_ENGINE_LOSS (R418): A hash engine goes out of service and streams run at half rate. -/
def execHashEngineLoss (e : Fin 2) (s : State) : Out := .next (s.wbEngine e false)

/-- HASH_ENGINE_RETURN (R418): A hash engine returns to service and pending gaps are written. -/
def execHashEngineReturn (e : Fin 2) (s : State) : Out := .next (s.wbEngine e true)

end Sys2Proof.Machine
end

