-- ==== Sys2Proof/Machine/Dispatch.lean ====
section
/-! DEFINITION. One arm per command of the opcode table: each calls its meaning. -/

namespace Sys2Proof.Machine

/-- The effect of a command on everything but the queue. -/
def exec (i : Instr) (s : State) : Host.Outcome State Fault Refusal :=
  match i with
  | .registerWrite fn addr size v => Sys2Proof.Machine.execRegisterWrite fn addr size v s
  | .rcRead fn addr size => Sys2Proof.Machine.execRcRead fn addr s size
  | .counterPairRead rq own addr size => Sys2Proof.Machine.execCounterPairRead rq own addr s size
  | .timeNsRead rq own size => Sys2Proof.Machine.execTimeNsRead rq own s size
  | .roundEffectiveWrite fn addr v => Sys2Proof.Machine.execRoundEffectiveWrite fn addr v s
  | .roundBoundary obs => Sys2Proof.Machine.execRoundBoundary obs s
  | .frameArrival n rx => Sys2Proof.Machine.execFrameArrival n rx s
  | .berthTake p egress credit => Sys2Proof.Machine.execBerthTake p egress credit s
  | .stageEnter p st => Sys2Proof.Machine.execStageEnter p st s
  | .tmEnqueue p => Sys2Proof.Machine.execTmEnqueue p s
  | .replicaMake p => Sys2Proof.Machine.execReplicaMake p s
  | .schedulerSelect n => Sys2Proof.Machine.execSchedulerSelect n s
  | .ttReleaseDue n c => Sys2Proof.Machine.execTtReleaseDue n c s
  | .deparse p slot => Sys2Proof.Machine.execDeparse p slot s
  | .frameTxStart n => Sys2Proof.Machine.execFrameTxStart n s
  | .frameTxEnd n => Sys2Proof.Machine.execFrameTxEnd n s
  | .controlFrameSend n => Sys2Proof.Machine.execControlFrameSend n s
  | .pfcRefresh n => Sys2Proof.Machine.execPfcRefresh n s
  | .pauseRx n quanta => Sys2Proof.Machine.execPauseRx n quanta s
  | .pfcRx n vec quanta => Sys2Proof.Machine.execPfcRx n vec quanta s
  | .macCtrlOtherRx n => Sys2Proof.Machine.execMacCtrlOtherRx n s
  | .pauseExpiry n c => Sys2Proof.Machine.execPauseExpiry n c s
  | .portEnable fn n v => Sys2Proof.Machine.execPortEnable fn n v s
  | .portDisable fn n v => Sys2Proof.Machine.execPortDisable fn n v s
  | .formationTimelineEnd g => Sys2Proof.Machine.execFormationTimelineEnd g s
  | .signalLoss l => Sys2Proof.Machine.execSignalLoss l s
  | .signalReturn l => Sys2Proof.Machine.execSignalReturn l s
  | .cdrLockLoss l => Sys2Proof.Machine.execCdrLockLoss l s
  | .cdrLock l => Sys2Proof.Machine.execCdrLock l s
  | .adaptDone l ctle taps => Sys2Proof.Machine.execAdaptDone l ctle taps s
  | .fwdClockLoss g => Sys2Proof.Machine.execFwdClockLoss g s
  | .firLoad fn g v => Sys2Proof.Machine.execFirLoad fn g v s
  | .laneFirLoad fn g l v => Sys2Proof.Machine.execLaneFirLoad fn g l v s
  | .chkPatWrite fn g l v => Sys2Proof.Machine.execChkPatWrite fn g l v s
  | .prbsLock l => Sys2Proof.Machine.execPrbsLock l s
  | .prbsLol l errs => Sys2Proof.Machine.execPrbsLol l errs s
  | .eyeScanGo fn g l v => Sys2Proof.Machine.execEyeScanGo fn g l v s
  | .eyeScanDone l errs => Sys2Proof.Machine.execEyeScanDone l errs s
  | .linkUpRise n pcs => Sys2Proof.Machine.execLinkUpRise n s pcs
  | .linkDown n => Sys2Proof.Machine.execLinkDown n s
  | .localFaultRx n on => Sys2Proof.Machine.execLocalFaultRx n on s
  | .remoteFaultRx n on => Sys2Proof.Machine.execRemoteFaultRx n on s
  | .anFail n => Sys2Proof.Machine.execAnFail n s
  | .anRestart n => Sys2Proof.Machine.execAnRestart n s
  | .trainTimeout n => Sys2Proof.Machine.execTrainTimeout n s
  | .onzTrainingBlockRx n syms => Sys2Proof.Machine.execOnzTrainingBlockRx n syms s
  | .onzIdleMarkerRx n => Sys2Proof.Machine.execOnzIdleMarkerRx n s
  | .onzTrainingMarkerRx n => Sys2Proof.Machine.execOnzTrainingMarkerRx n s
  | .onzMarkerError n bad inFrame => Sys2Proof.Machine.execOnzMarkerError n bad inFrame s
  | .onzMarkerTimeout n => Sys2Proof.Machine.execOnzMarkerTimeout n s
  | .alignBlockRx n blocks => Sys2Proof.Machine.execAlignBlockRx n blocks s
  | .alignmentLoss n => Sys2Proof.Machine.execAlignmentLoss n s
  | .learnProcess p st => Sys2Proof.Machine.execLearnProcess p st s
  | .stashReinsert p st => Sys2Proof.Machine.execStashReinsert p st s
  | .agerVisit p st => Sys2Proof.Machine.execAgerVisit p st s
  | .parityInvalidate p st => Sys2Proof.Machine.execParityInvalidate p st s
  | .emReadAddr fn p st v => Sys2Proof.Machine.execEmReadAddr fn p st v s
  | .emWriteAddr fn p st v => Sys2Proof.Machine.execEmWriteAddr fn p st v s
  | .emLookupCmd fn p st v => Sys2Proof.Machine.execEmLookupCmd fn p st v s
  | .emInsert fn p st v => Sys2Proof.Machine.execEmInsert fn p st v s
  | .emUpdate fn p st v => Sys2Proof.Machine.execEmUpdate fn p st v s
  | .emDelete fn p st v => Sys2Proof.Machine.execEmDelete fn p st v s
  | .emFlushDynamic fn p st v => Sys2Proof.Machine.execEmFlushDynamic fn p st v s
  | .emFlushStep p st => Sys2Proof.Machine.execEmFlushStep p st s
  | .stgNotePop fn p st => Sys2Proof.Machine.execStgNotePop fn p st s
  | .tcGmaskTake fn p st t => Sys2Proof.Machine.execTcGmaskTake fn p st t s
  | .tcReadAddr fn p v => Sys2Proof.Machine.execTcReadAddr fn p v s
  | .tcWriteAddr fn p v => Sys2Proof.Machine.execTcWriteAddr fn p v s
  | .tcInsert fn p v => Sys2Proof.Machine.execTcInsert fn p v s
  | .tcDeleteAddr fn p v => Sys2Proof.Machine.execTcDeleteAddr fn p v s
  | .tcUpdateResult fn p v => Sys2Proof.Machine.execTcUpdateResult fn p v s
  | .tcSearchCmd fn p v => Sys2Proof.Machine.execTcSearchCmd fn p v s
  | .tcFlush fn p v => Sys2Proof.Machine.execTcFlush fn p v s
  | .scrubVisit p => Sys2Proof.Machine.execScrubVisit p s
  | .tcInvalidate p => Sys2Proof.Machine.execTcInvalidate p s
  | .ucSwapGo fn p => Sys2Proof.Machine.execUcSwapGo fn p s
  | .ucSwapLand p => Sys2Proof.Machine.execUcSwapLand p s
  | .ucSwapDrainEnd p => Sys2Proof.Machine.execUcSwapDrainEnd p s
  | .ucStbyWrite fn p st k v => Sys2Proof.Machine.execUcStbyWrite fn p st k v s
  | .imageLoad fn f v img => Sys2Proof.Machine.execImageLoad fn f v img s
  | .verOpen fn p v => Sys2Proof.Machine.execVerOpen fn p v s
  | .verCommit fn p v => Sys2Proof.Machine.execVerCommit fn p v s
  | .verAbandon fn p v => Sys2Proof.Machine.execVerAbandon fn p v s
  | .verBadCmd fn p v => Sys2Proof.Machine.execVerBadCmd fn p v s
  | .commitApply p => Sys2Proof.Machine.execCommitApply p s
  | .drainComplete n => Sys2Proof.Machine.execDrainComplete n s
  | .retireDone n => Sys2Proof.Machine.execRetireDone n s
  | .abandonDone n => Sys2Proof.Machine.execAbandonDone n s
  | .drainTimeout n => Sys2Proof.Machine.execDrainTimeout n s
  | .gInsert fn p v => Sys2Proof.Machine.execGInsert fn p v s
  | .gReplace fn p v => Sys2Proof.Machine.execGReplace fn p v s
  | .gDelete fn p v => Sys2Proof.Machine.execGDelete fn p v s
  | .gTcInsert fn p v => Sys2Proof.Machine.execGTcInsert fn p v s
  | .gTcDelete fn p v => Sys2Proof.Machine.execGTcDelete fn p v s
  | .bpmAudPop fn n => Sys2Proof.Machine.execBpmAudPop fn n s
  | .bpmReclaim fn n v => Sys2Proof.Machine.execBpmReclaim fn n v s
  | .bpmFenceGo fn v => Sys2Proof.Machine.execBpmFenceGo fn v s
  | .bankControllerFault sl => Sys2Proof.Machine.execBankControllerFault sl s
  | .portLiveSet n => Sys2Proof.Machine.execPortLiveSet n s
  | .watchdogCheck => Sys2Proof.Machine.execWatchdogCheck s
  | .downFlushExpiry n => Sys2Proof.Machine.execDownFlushExpiry n s
  | .tmIaRead fn p v => Sys2Proof.Machine.execTmIaRead fn p v s
  | .tmIaWrite fn p v => Sys2Proof.Machine.execTmIaWrite fn p v s
  | .tmIaReadClear fn p v => Sys2Proof.Machine.execTmIaReadClear fn p v s
  | .timeSetGo fn v => Sys2Proof.Machine.execTimeSetGo fn v s
  | .timeSetTimeout => Sys2Proof.Machine.execTimeSetTimeout s
  | .timeAdjGo fn v => Sys2Proof.Machine.execTimeAdjGo fn v s
  | .timeFreqWrite fn v => Sys2Proof.Machine.execTimeFreqWrite fn v s
  | .timeSrcChange fn v => Sys2Proof.Machine.execTimeSrcChange fn v s
  | .counterFault second bit => Sys2Proof.Machine.execCounterFault second bit s
  | .ppsInEdge age => Sys2Proof.Machine.execPpsInEdge age s
  | .servoCorrection ref => Sys2Proof.Machine.execServoCorrection s ref
  | .sourceLoss => Sys2Proof.Machine.execSourceLoss s
  | .sourceRevert => Sys2Proof.Machine.execSourceRevert s
  | .timeLinkFrameTx => Sys2Proof.Machine.execTimeLinkFrameTx s
  | .timeLinkFrameRx k bytes age => Sys2Proof.Machine.execTimeLinkFrameRx k bytes age s
  | .datasetExpiry k => Sys2Proof.Machine.execDatasetExpiry k s
  | .ppsArm fn k v => Sys2Proof.Machine.execPpsArm fn k v s
  | .ppsDisarm fn k v => Sys2Proof.Machine.execPpsDisarm fn k v s
  | .ppsEdgeEmit k => Sys2Proof.Machine.execPpsEdgeEmit k s
  | .evtCapture k fall age => Sys2Proof.Machine.execEvtCapture k fall age s
  | .timeEvtPop fn k v => Sys2Proof.Machine.execTimeEvtPop fn k v s
  | .txqPop fn n => Sys2Proof.Machine.execTxqPop fn n s
  | .calGo fn n v => Sys2Proof.Machine.execCalGo fn n v s
  | .calFrameTx n => Sys2Proof.Machine.execCalFrameTx n s
  | .calFrameRx n bytes age => Sys2Proof.Machine.execCalFrameRx n bytes age s
  | .calDone n => Sys2Proof.Machine.execCalDone n s
  | .ttLatePop fn n => Sys2Proof.Machine.execTtLatePop fn n s
  | .wbFlush fn n v => Sys2Proof.Machine.execWbFlush fn n v s
  | .wbKeyIdxWrite fn n v => Sys2Proof.Machine.execWbKeyIdxWrite fn n v s
  | .wbKeyGo fn v => Sys2Proof.Machine.execWbKeyGo fn v s
  | .wbExpPortWrite fn k v => Sys2Proof.Machine.execWbExpPortWrite fn k v s
  | .sheetHashDone n => Sys2Proof.Machine.execSheetHashDone n s
  | .sheetExport n => Sys2Proof.Machine.execSheetExport n s
  | .exportRetry n => Sys2Proof.Machine.execExportRetry n s
  | .hashEngineLoss e => Sys2Proof.Machine.execHashEngineLoss e s
  | .hashEngineReturn e => Sys2Proof.Machine.execHashEngineReturn e s
  | .ostAdd t => Sys2Proof.Machine.execOstAdd t s
  | .ostSub t => Sys2Proof.Machine.execOstSub t s
  | .ostAnd t => Sys2Proof.Machine.execOstAnd t s
  | .ostOr t => Sys2Proof.Machine.execOstOr t s
  | .ostXor t => Sys2Proof.Machine.execOstXor t s
  | .ostShl t => Sys2Proof.Machine.execOstShl t s
  | .ostShr t => Sys2Proof.Machine.execOstShr t s
  | .ostSar t => Sys2Proof.Machine.execOstSar t s
  | .ostMul t => Sys2Proof.Machine.execOstMul t s
  | .ostMulhu t => Sys2Proof.Machine.execOstMulhu t s
  | .ostSltu t => Sys2Proof.Machine.execOstSltu t s
  | .ostSlt t => Sys2Proof.Machine.execOstSlt t s
  | .ostAddi t => Sys2Proof.Machine.execOstAddi t s
  | .ostAndi t => Sys2Proof.Machine.execOstAndi t s
  | .ostOri t => Sys2Proof.Machine.execOstOri t s
  | .ostXori t => Sys2Proof.Machine.execOstXori t s
  | .ostShli t => Sys2Proof.Machine.execOstShli t s
  | .ostShri t => Sys2Proof.Machine.execOstShri t s
  | .ostSari t => Sys2Proof.Machine.execOstSari t s
  | .ostLui t => Sys2Proof.Machine.execOstLui t s
  | .ostSltiu t => Sys2Proof.Machine.execOstSltiu t s
  | .ostLdw t => Sys2Proof.Machine.execOstLdw t s
  | .ostLdh t => Sys2Proof.Machine.execOstLdh t s
  | .ostLdb t => Sys2Proof.Machine.execOstLdb t s
  | .ostStw t => Sys2Proof.Machine.execOstStw t s
  | .ostSth t => Sys2Proof.Machine.execOstSth t s
  | .ostStb t => Sys2Proof.Machine.execOstStb t s
  | .ostAmoadd t => Sys2Proof.Machine.execOstAmoadd t s
  | .ostAmoswap t => Sys2Proof.Machine.execOstAmoswap t s
  | .ostBeq t => Sys2Proof.Machine.execOstBeq t s
  | .ostBne t => Sys2Proof.Machine.execOstBne t s
  | .ostBltu t => Sys2Proof.Machine.execOstBltu t s
  | .ostBgeu t => Sys2Proof.Machine.execOstBgeu t s
  | .ostJmp t => Sys2Proof.Machine.execOstJmp t s
  | .ostCall t => Sys2Proof.Machine.execOstCall t s
  | .ostJr t => Sys2Proof.Machine.execOstJr t s
  | .ostCallr t => Sys2Proof.Machine.execOstCallr t s
  | .ostRet t => Sys2Proof.Machine.execOstRet t s
  | .ostFork t => Sys2Proof.Machine.execOstFork t s
  | .ostJoin t => Sys2Proof.Machine.execOstJoin t s
  | .ostExit t => Sys2Proof.Machine.execOstExit t s
  | .ostWaitt t => Sys2Proof.Machine.execOstWaitt t s
  | .waittWake t => Sys2Proof.Machine.execWaittWake t s
  | .ostRdt t => Sys2Proof.Machine.execOstRdt t s
  | .ostFld t => Sys2Proof.Machine.execOstFld t s
  | .ostFst t => Sys2Proof.Machine.execOstFst t s
  | .accessComplete t => Sys2Proof.Machine.execAccessComplete t s
  | .ostXget t => Sys2Proof.Machine.execOstXget t s
  | .ostBalloc t => Sys2Proof.Machine.execOstBalloc t s
  | .ostBfree t => Sys2Proof.Machine.execOstBfree t s
  | .ostBld t => Sys2Proof.Machine.execOstBld t s
  | .ostBst t => Sys2Proof.Machine.execOstBst t s
  | .ostBsend t => Sys2Proof.Machine.execOstBsend t s
  | .ostHput t => Sys2Proof.Machine.execOstHput t s
  | .ostHtake t => Sys2Proof.Machine.execOstHtake t s
  | .ostSys t => Sys2Proof.Machine.execOstSys t s
  | .ostIllegal t => Sys2Proof.Machine.execOstIllegal t s
  | .ostThreadReset fn t => Sys2Proof.Machine.execOstThreadReset fn t s
  | .supStart fn n => Sys2Proof.Machine.execSupStart fn n s
  | .ostKick fn n => Sys2Proof.Machine.execOstKick fn n s
  | .ostPsDataWrite fn n v => Sys2Proof.Machine.execOstPsDataWrite fn n v s
  | .ostCustEnable fn n => Sys2Proof.Machine.execOstCustEnable fn n s
  | .ostCustCheckDone n => Sys2Proof.Machine.execOstCustCheckDone n s
  | .ostCustDisable fn n => Sys2Proof.Machine.execOstCustDisable fn n s
  | .smpRestart fn n v => Sys2Proof.Machine.execSmpRestart fn n v s
  | .cntSnapGo fn n => Sys2Proof.Machine.execCntSnapGo fn n s
  | .cntSnapDone n => Sys2Proof.Machine.execCntSnapDone n s
  | .cntThaw fn n => Sys2Proof.Machine.execCntThaw fn n s
  | .inputDropRegrant mv => Sys2Proof.Machine.execInputDropRegrant mv s
  | .inputUndervoltage => Sys2Proof.Machine.execInputUndervoltage s
  | .inputOvervoltage => Sys2Proof.Machine.execInputOvervoltage s
  | .droopTrip r dip => Sys2Proof.Machine.execDroopTrip r s dip
  | .droopRecovery r => Sys2Proof.Machine.execDroopRecovery r s
  | .thermalSample ts => Sys2Proof.Machine.execThermalSample ts s
  | .thermalTrip => Sys2Proof.Machine.execThermalTrip s
  | .neighbourEqualise a b q gone diff => Sys2Proof.Machine.execNeighbourEqualise a b q gone s diff
  | .marginLow r => Sys2Proof.Machine.execMarginLow r s
  | .laneGroupAdmit g => Sys2Proof.Machine.execLaneGroupAdmit g s
  | .laneGroupCalDone g ok => Sys2Proof.Machine.execLaneGroupCalDone g ok s
  | .domainAdmit d => Sys2Proof.Machine.execDomainAdmit d s
  | .domainReady d ok => Sys2Proof.Machine.execDomainReady d ok s
  | .domainFault d => Sys2Proof.Machine.execDomainFault d s
  | .refclkLoss => Sys2Proof.Machine.execRefclkLoss s
  | .refclkReturn => Sys2Proof.Machine.execRefclkReturn s
  | .pllLossOfLock k => Sys2Proof.Machine.execPllLossOfLock k s
  | .pllRelock k => Sys2Proof.Machine.execPllRelock k s
  | .fabricLoss pcie => Sys2Proof.Machine.execFabricLoss pcie s
  | .pitCommitGo fn => Sys2Proof.Machine.execPitCommitGo fn s
  | .pitCtlWrite fn n v => Sys2Proof.Machine.execPitCtlWrite fn n v s
  | .deviceResetGo fn => Sys2Proof.Machine.execDeviceResetGo fn s
  | .portResetGo fn n => Sys2Proof.Machine.execPortResetGo fn n s
  | .portResetRestart n => Sys2Proof.Machine.execPortResetRestart n s
  | .laneResetGo fn g l => Sys2Proof.Machine.execLaneResetGo fn g l s
  | .powerGood loop refOk stop plls => Sys2Proof.Machine.execPowerGood loop refOk stop plls s
  | .perstDeassert => Sys2Proof.Machine.execPerstDeassert s
  | .pcieLinkUp speed lanes => Sys2Proof.Machine.execPcieLinkUp speed lanes s
  | .spiBootRead modes block four => Sys2Proof.Machine.execSpiBootRead modes block s four
  | .deviceLoad c => Sys2Proof.Machine.execDeviceLoad c s
  | .containerPushGo fn ok => Sys2Proof.Machine.execContainerPushGo fn ok s
  | .irqPendWrite fn n v => Sys2Proof.Machine.execIrqPendWrite fn n v s
  | .irqHistPop fn n => Sys2Proof.Machine.execIrqHistPop fn n s
  | .dmaTailWrite fn f r v => Sys2Proof.Machine.execDmaTailWrite fn f r v s
  | .dmaRingEnWrite fn f r v => Sys2Proof.Machine.execDmaRingEnWrite fn f r v s
  | .dmaTxDescriptor f desc frame err => Sys2Proof.Machine.execDmaTxDescriptor f desc frame err s
  | .dmaExcWrite f r desc err => Sys2Proof.Machine.execDmaExcWrite f r desc err s
  | .dmaSheetWrite f desc err => Sys2Proof.Machine.execDmaSheetWrite f desc err s
  | .dmaFree fn f v => Sys2Proof.Machine.execDmaFree fn f v s
  | .functionLevelReset f => Sys2Proof.Machine.execFunctionLevelReset f s
  | .pcieHotReset => Sys2Proof.Machine.execPcieHotReset s
  | .i2cWrite fn m v => Sys2Proof.Machine.execI2cWrite fn m v s
  | .i2cRead fn m v => Sys2Proof.Machine.execI2cRead fn m v s
  | .i2cWriteRead fn m v => Sys2Proof.Machine.execI2cWriteRead fn m v s
  | .i2cBadKind fn m v => Sys2Proof.Machine.execI2cBadKind fn m v s
  | .i2cAddressRetry m => Sys2Proof.Machine.execI2cAddressRetry m s
  | .i2cDone m res done bytes bus after => Sys2Proof.Machine.execI2cDone m res done bytes bus s after
  | .cmisRead fn n v => Sys2Proof.Machine.execCmisRead fn n v s
  | .cmisWrite fn n v => Sys2Proof.Machine.execCmisWrite fn n v s
  | .cmisDone n res bytes => Sys2Proof.Machine.execCmisDone n res bytes s
  | .smbStatus ask => Sys2Proof.Machine.execSmbStatus s ask
  | .smbInputVoltage ask => Sys2Proof.Machine.execSmbInputVoltage s ask
  | .smbInputPower ask => Sys2Proof.Machine.execSmbInputPower s ask
  | .smbHottestSensor ask => Sys2Proof.Machine.execSmbHottestSensor s ask
  | .smbIrqSummary ask => Sys2Proof.Machine.execSmbIrqSummary s ask
  | .smbSerial ask => Sys2Proof.Machine.execSmbSerial s ask
  | .smbPcieStatus ask => Sys2Proof.Machine.execSmbPcieStatus s ask
  | .jtagBypass code => Sys2Proof.Machine.execJtagBypass s code
  | .jtagIdcode => Sys2Proof.Machine.execJtagIdcode s
  | .jtagSamplePreload bits => Sys2Proof.Machine.execJtagSamplePreload s bits
  | .jtagExtest => Sys2Proof.Machine.execJtagExtest s
  | .jtagExtestPulse => Sys2Proof.Machine.execJtagExtestPulse s
  | .jtagExtestTrain => Sys2Proof.Machine.execJtagExtestTrain s
  | .jtagClamp => Sys2Proof.Machine.execJtagClamp s
  | .jtagHighz => Sys2Proof.Machine.execJtagHighz s
  | .jtagTestLogicReset => Sys2Proof.Machine.execJtagTestLogicReset s
  | .presenceAssert => Sys2Proof.Machine.execPresenceAssert s
  | .presenceRelease => Sys2Proof.Machine.execPresenceRelease s
  | .presenceWindowExpiry => Sys2Proof.Machine.execPresenceWindowExpiry s
  | .presClose fn v => Sys2Proof.Machine.execPresClose fn v s
  | .sealOpen => Sys2Proof.Machine.execSealOpen s
  | .sealClose => Sys2Proof.Machine.execSealClose s
  | .fwdClockLock g => Sys2Proof.Machine.execFwdClockLock g s
  | .txPllLossOfLock g => Sys2Proof.Machine.execTxPllLossOfLock g s
  | .txPllRelock g => Sys2Proof.Machine.execTxPllRelock g s
  | .alwaysOnDomainLost mv => Sys2Proof.Machine.execAlwaysOnDomainLost s mv
  | .overvoltageRecovery loop refOk stop plls => Sys2Proof.Machine.execOvervoltageRecovery loop refOk stop plls s
  | .dmaCompletionTimeout f r => Sys2Proof.Machine.execDmaCompletionTimeout f r s
  | .pcieConfigWrite f msiEn mask intxDis mps mrrs => Sys2Proof.Machine.execPcieConfigWrite f msiEn mask intxDis s mps mrrs
  | .ostPsDataRead fn n => Sys2Proof.Machine.execOstPsDataRead fn n s
  | .anComplete n => Sys2Proof.Machine.execAnComplete n s
  | .linkTrainingFrameRx n l tap dir done => Sys2Proof.Machine.execLinkTrainingFrameRx n l tap dir done s
  | .memoryUpset at_ => Sys2Proof.Machine.execMemoryUpset at_ s

end Sys2Proof.Machine
end

