-- ==== Sys2Proof/Safety.lean ====
section
/-! DEFINITION. What claims about runs are stated in: the canonical form of what the part holds, what no command may do, and what an operation of a
thread or a side interface gives, stores or waits for. -/

namespace Sys2Proof.Machine

/-- The registers, their pending values, the counters, the global masks, the Ostlers' threads, program store and data memory, the
sample buffers and the packet buffers are in canonical form: equal contents are equal data. -/
structure State.canonical (s : State) : Prop where
  regs : SMap.wf resetValue s.regs = true
  pendRegs : SMap.wf (fun _ => 0) s.pendRegs = true
  lateRegs : SMap.wf (fun _ => 0) s.lateRegs = true
  cnts : SMap.wf (fun _ => 0) s.cnts = true
  gmask : SMap.wf (fun _ => 0xFFFFFFFF) s.gmask = true
  thr : SMap.wf (fun _ => {}) s.ost.thr = true
  ps : SMap.wf (fun _ => 0) s.ost.ps = true
  psBad : SMap.wf (fun _ => false) s.ost.psBad = true
  data : SMap.wf (fun _ => 0) s.ost.data = true
  buf : SMap.wf (fun _ => 0) s.ctr.buf = true
  bufs : SMap.wf (fun _ => none) s.bpm.bufs = true

/-- What holds from one state to a later one whatever commands act between them: the fuses stay as they are, no output that left
the part is taken back, no free value is met twice, the commands that wait are the same, and the canonical form is kept. -/
structure Kept (s t : State) : Prop where
  fuse : t.fuse = s.fuse
  queue : t.pending = s.pending
  outbox : s.outbox <+: t.outbox
  free : s.freeIx ≤ t.freeIx
  canonical : s.canonical → t.canonical

/-! ### Writes that a function may make -/

/-- Function `fn` may write the register at window address `a`: the endpoint and the management fabric reach it, a register is there,
and it stands in the function's view (R53, R569). -/
def State.writable (s : State) (fn a : Nat) : Bool :=
  s.reach && match s.place fn fn a with
    | .reg _ g r ix => s.viewWrite fn g (some r.id) ix
    | _ => false

/-- A word as the register at window address `a` takes it: bits outside its fields drop out. -/
def taken (a : Nat) (v : Word) : Word :=
  match findReg a with
  | some (_, r, _) => v &&& r.mask fun _ => true
  | none => v

/-- The state after function `fn` wrote a word to the RW fields of the register at window address `a`; the register's other fields
keep what they hold (R11). -/
def State.wrote (s : State) (fn a : Nat) (v : Word) : State :=
  match findReg a, s.physAddr fn a with
  | some (_, r, _), some pa => s.setReg pa (mix (s.reg pa) (taken a v) (r.mask (· == .rw)))
  | _, _ => s

/-! ### What the start of a cause may change -/

/-- The addresses of the interrupt block. -/
def irqBlock (a : Nat) : Prop := 0x10000 ≤ a ∧ a < 0x20000

/-- From `s` to `t` only the registers at the addresses `as`, the registers of the interrupt block, the history queues and held
messages changed, and only MSI messages left the part. -/
structure Alarms (as : List Nat) (s t : State) : Prop where
  regs : ∀ b, b ∉ as → ¬ irqBlock b → t.reg b = s.reg b
  rest : { t with regs := s.regs, irq := s.irq, outbox := s.outbox } = s
  out : ∃ ms : List Emit, t.outbox = s.outbox ++ ms ∧ ∀ m ∈ ms, ∃ n, m = .msi n

/-! ### What one instruction of an Ostler thread may change -/

/-- Thread `t` issues the word `w` next: it is ready on a clocked engine and its core's choice of this cycle, the word is whole and sets
no unused field, and in the customer region that region is on (R432, R448, R451, R454, R458, R568). -/
structure State.Issues (s : State) (t : Nat) (w : Word) : Prop where
  ready : t < 512 ∧ (s.thr t).st = 1 ∧ s.ostTurn t = true
  region : customer (s.thr t).pc = true → s.custState (s.thrOwner t) = 2
  word : s.psWord (s.thrOwner t) (s.thr t).pc = w ∧ s.psBadAt (s.thrOwner t) (s.thr t).pc = false
  fields : ostBadField w = false

/-- The state in which the effect of the word `w` of thread `t` begins: its core has issued in this cycle, and the word has been counted
or sampled (R432, R484). -/
def State.issued (s : State) (t : Nat) (w : Word) : State :=
  (s.coreIssued t).smpIssue (s.thrOwner t) t (ostClass (iOp w)) (s.thr t).pc

/-- From `s` to `u` thread `t` came to be `q`, but for a sample in flight, and beside data memory nothing else changed but its core, which
may have issued in this cycle, and what the sampling of its owner writes: the sample buffer, its pointer, its counters, its cause, and a
free value drawn for an interval. -/
structure Ran (t : Nat) (q : Thr) (s u : State) : Prop where
  thread : u.thr t = { q with smp := (u.thr t).smp }
  others : ∀ i, i ≠ t → u.thr i = s.thr i
  ost : { u.ost with thr := s.ost.thr, data := s.ost.data, flips := s.ost.flips, core := s.ost.core } = s.ost
  cores : ∀ c, c ≠ t / 16 → u.core c = s.core c
  regs : ∀ a, a ≠ R.CNT_SMP_PTR (s.thrOwner t) → a ≠ R.CNT_CAUSE (s.thrOwner t) → ¬ irqBlock a → u.reg a = s.reg a
  cnts : ∀ c, c ≠ C.SMP_TAKEN (s.thrOwner t) → c ≠ C.SMP_LOST (s.thrOwner t) → c ≠ C.SMP_OVERWRITE (s.thrOwner t) → u.cnt c = s.cnt c
  rest : { u with ost := s.ost, ctr := s.ctr, regs := s.regs, cnts := s.cnts, irq := s.irq, outbox := s.outbox, freeIx := s.freeIx } = s

/-- From `s` to `u` thread `t`, having issued the word `w`, put `v` in RD and goes on with the next word; g0 reads zero and takes nothing,
the other registers stay, and so does data memory (R442, R457). -/
structure Gave (t : Nat) (w v : Word) (s u : State) : Prop where
  data : u.ost.data = s.ost.data ∧ u.ost.flips = s.ost.flips
  ran : Ran t { (s.thr t).setR (iRd w) v with pc := ((s.thr t).pc + 1) % 65536 } s u
  value : iRd w ≠ 16 → (u.thr t).reg (iRd w) = v
  zero : (u.thr t).reg 16 = 0
  kept : ∀ r, (s.thr t).place r ≠ (s.thr t).place (iRd w) → (u.thr t).reg r = (s.thr t).reg r

/-- From `s` to `u` thread `t` goes on at word `pc`, and nothing else of it changed (R443, R455). -/
structure Went (t pc : Nat) (s u : State) : Prop where
  data : u.ost.data = s.ost.data
  ran : Ran t { s.thr t with pc := pc } s u

/-- From `s` to `u` thread `t` called word `pc`: a new window of zeros, but for w15 with the word after the call, stands in use (R443). -/
structure Called (t pc : Nat) (s u : State) : Prop where
  data : u.ost.data = s.ost.data
  ran : Ran t { s.thr t with
    pc := pc, cwp := ((s.thr t).cwp + 1) % 7, resident := (s.thr t).resident + 1, r := (u.thr t).r } s u
  back : (u.thr t).reg 15 = BitVec.ofNat 32 (((s.thr t).pc + 1) % 65536)
  fresh : ∀ r, r < 15 → (u.thr t).reg r = 0
  globals : ∀ r, 16 ≤ r → r < 32 → (u.thr t).reg r = (s.thr t).reg r

/-- From `s` to `u` thread `t` waits for an access that will give `v` to register `rd`, the next word following (R431, R441). -/
def Waits (t : Nat) (rd : Option Nat) (v : Word) (s u : State) : Prop :=
  Ran t { s.thr t with st := 4, pc := ((s.thr t).pc + 1) % 65536, acc := some ⟨rd, v⟩ } s u

/-- A byte of data memory at a place: quad × 2^17 + offset. -/
def State.dataByte (s : State) (pl : Nat) : Byte := SMap.get (fun _ => 0) s.ost.data pl

/-- From `s` to `u` the `k` bytes at a place of data memory became `v`, least significant byte first, and every other byte stayed. -/
structure Stored (pl k v : Nat) (s u : State) : Prop where
  bytes : ∀ j, j < k → u.dataByte (pl + j) = BitVec.ofNat 8 (v / 256 ^ j)
  others : ∀ x, (x < pl ∨ pl + k ≤ x) → u.dataByte x = s.dataByte x

/-- Thread `t` may access `k` bytes of its owner's data space at address `a`, which stand at place `pl` (R440). -/
structure State.DataAt (s : State) (t k : Nat) (a : Word) (pl : Nat) : Prop where
  aligned : a.toNat % k = 0
  place : s.dataPlace (s.thrOwner t) a.toNat = some pl

/-- A jump by JR or CALLR from word `pc` to `target` is one that the part takes: a customer word enters the vendor region at its entries
alone (R455). -/
def jumpAllowed (pc target : Nat) : Prop := pc < 0xC000 ∨ 0xC000 ≤ target ∨ (0x200 ≤ target ∧ target ≤ 0x2FF)

/-! ### What the side interfaces do -/

/-- From `s` to `t` I2C master `m` began the transfer of the command word `w`, of kind `k`, with the speed, the retries, the gap and the data that
stood then (R523, R598). -/
structure I2cBegun (m k : Nat) (w : Word) (s t : State) : Prop where
  kind : t.fld (R.SB_I2C_CMD m) F.SB_I2C_CMD.KIND = k
  busy : t.bit (R.SB_I2C_CMD m) F.SB_I2C_CMD.GO = true
  result : t.fld (R.SB_I2C_STATUS m) F.SB_I2C_STATUS.RESULT = 15
  tries : t.fld (R.SB_I2C_STATUS m) F.SB_I2C_STATUS.TRIES = 1
  took : t.i2cRun m = { cmd := w, ctl := s.reg (R.SB_I2C_CTL m), data := s.dataWords (R.SB_I2C_DATA m), tries := 1, next := s.t16 }
  regs : ∀ a, a ≠ R.SB_I2C_CMD m → a ≠ R.SB_I2C_STATUS m → t.reg a = s.reg a
  rest : ∃ r d, t = { s with regs := r, side := d }

/-- From `s` to `t` the mailbox of port `n` took the request word `w`, a write where `wr` (R599): without a cage it answers 1, beyond its
limits 4, without a supervisor 5, and else waits for the firmware, with the WRITE, LEN, address and data of then (R523). -/
structure CmisTaken (n : Nat) (wr : Bool) (w : Word) (s t : State) : Prop where
  kind : t.bit (R.PORT_CMIS_CMD n) F.PORT_CMIS_CMD.WRITE = wr
  result : t.fld (R.PORT_CMIS_STATUS n) F.PORT_CMIS_STATUS.RESULT = (if s.bit (R.SB_CAGE_MAP n) F.SB_CAGE_MAP.VALID = false then 1
    else if s.cmisBad n w = true then 4 else if s.sup0Runs = false then 5 else 15)
  busy : t.bit (R.PORT_CMIS_CMD n) F.PORT_CMIS_CMD.GO = true ↔ t.fld (R.PORT_CMIS_STATUS n) F.PORT_CMIS_STATUS.RESULT = 15
  queue : t.side.cmis = if t.bit (R.PORT_CMIS_CMD n) F.PORT_CMIS_CMD.GO = true then s.side.cmis ++ [n] else s.side.cmis
  took : t.bit (R.PORT_CMIS_CMD n) F.PORT_CMIS_CMD.GO = true →
    ∃ v, t.cmisReq n = (v, s.reg (R.PORT_CMIS_ADDR n), s.dataWords (R.PORT_CMIS_DATA n)) ∧
      fldOf v F.PORT_CMIS_CMD.WRITE = (if wr then 1 else 0) ∧ fldOf v F.PORT_CMIS_CMD.LEN = fldOf w F.PORT_CMIS_CMD.LEN
  regs : ∀ a, a ≠ R.PORT_CMIS_CMD n → a ≠ R.PORT_CMIS_STATUS n → t.reg a = s.reg a
  rest : ∃ r d, t = { s with regs := r, side := d }

/-- The SMBus target answers some bytes. -/
def State.smbSays (s : State) (bs : Bytes) : State := { s with outbox := s.outbox ++ [.smbus bs] }

/-- What the SMBus target does as the host asks for command `code`, whose data are `bs`, a Block Read or a plain one (R602). -/
def State.smbReply (s : State) (code : Nat) (block : Bool) (ask : SmbAsk) (bs : Bytes) : State :=
  match ask with
  | .read false => s.smbSays bs
  | .read true => s.smbSays (bs ++ [smbPec code block bs])
  | .write => { s with outbox := s.outbox ++ [.smbusNack] }
  | .other c => if 6 < c.toNat then { s with outbox := s.outbox ++ [.smbusNack] } else s.smbSays bs

/-- What the outputs show once a TAP instruction has given the lands back: every lane, and every PPS and SyncE output but where an instruction
was taken at STAGE 9 since reset (R90, R603). -/
def State.landsShown (s : State) : List Emit :=
  (List.range 1024).map (fun l => .line l (s.lane l).sig) ++
    if s.bit R.DEV_JTAG_CTL F.DEV_JTAG_CTL.USED = true then []
    else (List.range 4).map (fun k => .pps k (s.ppsLevel k)) ++
      (List.range 2).map (fun j => .synce j (SMap.get (fun _ => none) s.time.synce j))

/-- What the lands show as the TAP takes instruction `ir`: the outputs, where it gives back lands that the one before it held; what the
boundary-scan register drives, or nothing under HIGHZ, where it takes them. -/
def State.tapBacks (s : State) (ir : Nat) : List Emit :=
  if ir = 7 then [.scan none]
  else if 3 ≤ ir ∧ ir < 7 then [.scan (some s.side.bsr)]
  else if s.landsTaken = true then s.landsShown else []

/-- The TAP holds an instruction and gives out a data register, and what the lands then show. -/
def State.tapTakes (s : State) (ir : Nat) (dr : Option Word) : State :=
  { s with side := { s.side with ir := ir }, outbox := s.outbox ++ .jtag (BitVec.ofNat 8 ir) dr :: s.tapBacks ir }

/-- The TAP may take the lands: before STAGE 9, on a part that stopped, or where EXTEST_EN allows it (R603). -/
def State.tapMay (s : State) : Bool :=
  decide (s.stage < 9) || s.stopped || s.bit R.DEV_JTAG_CTL F.DEV_JTAG_CTL.EXTEST_EN

/-- From `s` to `t` the TAP took instruction `ir`, which takes the lands, or BYPASS where it may not (R603). -/
structure TapLands (ir : Nat) (s t : State) : Prop where
  ir : t.side.ir = if s.tapMay = true then ir else 0xFF
  out : t.outbox = s.outbox ++ .jtag (BitVec.ofNat 8 t.side.ir) none :: s.tapBacks t.side.ir
  refused : t.bit R.DEV_JTAG_CTL F.DEV_JTAG_CTL.REFUSED = (!s.tapMay || s.bit R.DEV_JTAG_CTL F.DEV_JTAG_CTL.REFUSED)
  used : t.bit R.DEV_JTAG_CTL F.DEV_JTAG_CTL.USED = ((s.tapMay && decide (s.stage = 9)) || s.bit R.DEV_JTAG_CTL F.DEV_JTAG_CTL.USED)
  regs : ∀ a, a ≠ R.DEV_JTAG_CTL → t.reg a = s.reg a
  rest : ∃ r, t = { s with regs := r, side := { s.side with ir := t.side.ir }, outbox := t.outbox }

end Sys2Proof.Machine
end

