-- ==== Sys2Proof/Certificates/Slice0/Obligations.lean ====
section
/-! DEFINITION. The statements about the model, one definition each. -/

open Sys2Proof Sys2Proof.Machine

/-- A step takes the command at the front of the queue: it is that command's effect on the state with the queue's rest, and leaves
the queue's rest waiting. -/
def Obligations.StepRunsFront : Prop :=
  ∀ (c : Instr) (rest : List Instr) (s : State), s.pending = c :: rest →
    step s = exec c { s with pending := rest } ∧ ∀ t, step s = .next t → t.pending = rest

/-- With no command waiting, a step is one core tick of 0.625 ns (log entry 3, DESIGN CHOICE): it keeps the fuses, the queue and the
canonical form, takes back no output, and where the part has no power only the time since reset passes. -/
def Obligations.IdleTick : Prop :=
  ∀ (s : State), s.pending = [] →
    step s = .next s.tick ∧ Kept s s.tick ∧ (s.pw.alive = false → s.tick = { s with t16 := s.t16 + 10 })

/-- The machine right after reset (the reset values of the manual's register tables; what has none there is zero by log
entry 2, DESIGN CHOICE): everything it holds is in canonical form, nothing waits and nothing has left the part, every
register holds its reset value and every counter 0. -/
def Obligations.ResetState : Prop :=
  State.reset.canonical ∧ State.reset.pending = [] ∧ State.reset.outbox = [] ∧
    (∀ a, State.reset.reg a = resetValue a) ∧ (∀ a, State.reset.cnt a = 0) ∧
    State.reset.pendRegs = [] ∧ State.reset.lateRegs = []

/-- Whatever command acts, the fuses stay (R12), the commands that wait stay, and what is held in canonical form stays so; of the model's
own fields, the outbox takes nothing back (log entry 113, DESIGN CHOICE) and no free value is met twice (log entry 9, DESIGN CHOICE). -/
def Obligations.ExecKept : Prop :=
  ∀ (c : Instr) (s t : State), exec c s = .next t → Kept s t

/-- Every step keeps the canonical form of the registers, the pending values, the counters, the masks, the Ostlers' memories and the
buffers. -/
def Obligations.CanonicalKept : Prop :=
  ∀ (s t : State), s.canonical → step s = .next t → t.canonical

/-- Every command answers a next state in every state, but one: SYS executed in the vendor region of a program store, whose
sub-functions the manual leaves to the vendor's firmware (R458), is refused by name; nowhere does the machine fault. -/
def Obligations.EveryCommandAnswers : Prop :=
  (∀ (c : Instr) (s : State), (∃ t, exec c s = .next t) ∨ ∃ n, c = .ostSys n ∧ exec c s = .refused .vendorSys) ∧
  (∀ (n : ThreadNo) (s : State) (w : Word), s.ostNext n = some w → ostRow w = 0x3F → ostBadField w = false →
    s.psBadAt (s.thrOwner n) (s.thr n).pc = false →
    (customer (s.thr n).pc = false → exec (.ostSys n) s = .refused .vendorSys) ∧
    (customer (s.thr n).pc = true → ∃ t, exec (.ostSys n) s = .next t))

/-- A write over PCI Express that has no row of its own (R13, R14, R53, R55): to a register in the function's view it acts on that
register; elsewhere, with another size or misaligned, it is ignored and is an access violation; eight bytes are two writes, the lower
address first; and a part whose endpoint or management fabric is lost takes none. Of two violations in one cycle the record keeps the
one at the higher offset (R56; the cycle is the fabric's, log entry 116). -/
def Obligations.RegisterWriteRoutes : Prop :=
  ∀ (fn : FnNo) (addr : Addr) (v : BitVec 64) (s : State),
    (s.reach = false → ∀ size, exec (.registerWrite fn addr size v) s = .next s) ∧
    (s.reach = true →
      (∀ size, (size ≠ 4 ∨ addr.toNat % 4 ≠ 0) → (size ≠ 8 ∨ addr.toNat % 8 ≠ 0) →
        exec (.registerWrite fn addr size v) s = .next (s.accessViolation fn addr.toNat true true)) ∧
      (addr.toNat % 4 = 0 →
        (s.writable fn addr.toNat = true → ∀ pa g r ix, s.place fn fn addr.toNat = .reg pa g r ix →
          exec (.registerWrite fn addr 4 v) s =
            .next ((s.regAct ⟨host fn, addr.toNat, pa, g, r, ix, v.truncate 32 &&& r.mask fun _ => true, none, none⟩).settle s)) ∧
        (s.place fn fn addr.toNat = .gap →
          exec (.registerWrite fn addr 4 v) s = .next (s.accessViolation fn addr.toNat true false)) ∧
        (∀ pa g r ix, s.place fn fn addr.toNat = .reg pa g r ix → s.viewWrite fn g (some r.id) ix = false →
          exec (.registerWrite fn addr 4 v) s = .next (s.accessViolation fn addr.toNat true false))) ∧
      (addr.toNat % 8 = 0 → exec (.registerWrite fn addr 8 v) s =
        .next ((s.regWrite (host fn) addr.toNat (v.truncate 32)).regWrite (host fn) (addr.toNat + 4) ((v >>> 32).truncate 32)))) ∧
    (∀ (write bad : Bool) (a : Nat), ∃ t, t = s.accessViolation fn a write bad ∧
      t.reg (R.PIT_AV_CNT fn) = BitVec.ofNat 32 (min ((s.reg (R.PIT_AV_CNT fn)).toNat + 1) (2 ^ 32 - 1)) ∧
      (s.avYields fn a = false → (t.reg (R.PIT_AV_ADDR fn)).toNat % 2 ^ 29 = a % 2 ^ 29 ∧
        (t.reg (R.PIT_AV_ADDR fn)).getLsbD 31 = write ∧ (t.reg (R.PIT_AV_ADDR fn)).getLsbD 30 = bad ∧
        ∀ b, t.avYields fn b = decide (b % 2 ^ 29 < a % 2 ^ 29)) ∧
      (s.avYields fn a = true → t.reg (R.PIT_AV_ADDR fn) = s.reg (R.PIT_AV_ADDR fn)) ∧
      (t.reg (R.IRQ_OWN_CAUSE fn)).getLsbD F.IRQ_OWN_CAUSE.AV.lo = true ∧
      Alarms [R.PIT_AV_CNT fn, R.PIT_AV_ADDR fn] s t)

/-- A write that only stores, by the access types (R11, R535): of a register that is not Round-effective, RW and WO fields take the
value, RO, RC and SC fields keep theirs, W1C bits clear where a 1 is written and their cause does not persist, RWI fields change only
while their block is idle; no two fields of a register overlap. RWP fields take the value only inside a presence window or where it
changes none of them (R608). -/
def Obligations.AccessTypes : Prop :=
  ∀ (s : State) (w : Wr), findReg w.a = some (w.g, w.row, w.ix) → w.row.roundEff = false →
    (∀ f ∈ w.row.fields, ∀ f' ∈ w.row.fields, f ≠ f' → f.1.lo + f.1.w ≤ f'.1.lo ∨ f'.1.lo + f'.1.w ≤ f.1.lo) ∧
    (∀ f ∈ w.row.fields, 1 ≤ f.1.w ∧ f.1.lo + f.1.w ≤ 32) ∧
    ((∀ f ∈ w.row.fields, f.2 ≠ .rwp) → ∃ t : State,
      (t = s.setReg w.pa (t.reg w.pa)) ∧
      (∀ f ∈ w.row.fields,
        ((f.2 = .rw ∨ f.2 = .wo) → t.fld w.pa f.1 = fldOf w.v f.1) ∧
        ((f.2 = .ro ∨ f.2 = .rc ∨ f.2 = .sc) → t.fld w.pa f.1 = s.fld w.pa f.1) ∧
        (f.2 = .rwi → t.fld w.pa f.1 = if s.rwiIdle w then fldOf w.v f.1 else s.fld w.pa f.1) ∧
        (f.2 = .w1c → ∀ i, f.1.lo ≤ i → i < f.1.lo + f.1.w →
          (t.reg w.pa).getLsbD i = ((s.reg w.pa).getLsbD i && !(w.v.getLsbD i && !(s.persist w.pa w.g w.row.id).getLsbD i)))) ∧
      (s.rwiIdle w = true → s.plainWrite w = t) ∧
      (s.rwiIdle w = false → s.plainWrite w =
        if (s.reg w.pa &&& w.row.mask (· == .rwi)) = (w.v &&& w.row.mask (· == .rwi)) then t else t.rwiCause w)) ∧
    (∀ f ∈ w.row.fields, f.2 = .rwp → (s.reg w.pa &&& w.row.mask (· == .rwp)) ≠ (w.v &&& w.row.mask (· == .rwp)) →
      (s.gate w (s.reg w.pa)).1 = s.presOpen)

/-- A write of a Round-effective register in the function's view is held as pending, with its pending bit, and the register keeps its
value (R36); one of the last 100 cycles of the Round (1 µs, 1,600 ticks of 1/1.6 GHz) waits for the boundary after the next. What waits is
what a read shows (log entry 12, DEDUCED; a register that shows nothing else). Fields of type RWP join the pending value where the presence
window lets the write through, and of a refused write nothing waits anew (R608). -/
def Obligations.RoundEffective : Prop :=
  (∀ (fn : FnNo) (addr : Addr) (s : State) (pa : Nat) (g : Region) (r : Row) (ix : List Nat) (nw : Word),
    s.reach = true → addr.toNat % 4 = 0 → s.place fn fn addr.toNat = .reg pa g r ix → s.viewRead fn g (some r.id) ix = true →
    r.roundEff = true → (∀ f ∈ r.fields, f.2 = .rw ∨ f.2 = .ro ∨ f.2 = .rwp) → s.waitingReg pa = some nw → r.id ≠ .TIME_NS →
    r.id ≠ .SB_GPIO_IN → r.id ≠ .OST_PS_DATA → pairHigh r.id = false → pairLow r.id = false → (∀ gr l, g ≠ .lane gr l) →
    exec (.rcRead fn addr 4) s = .next (s.emit (.readData fn addr.toNat (nw.zeroExtend 64)))) ∧
  (∀ (s : State) (w : Wr) (old : Word), w.row.roundEff = true → old = (s.waitingReg w.pa).getD (s.reg w.pa) →
    (s.lateInRound = false → SMap.get (fun _ => 0) s.lateRegs w.pa = 0) →
    (old &&& w.row.mask (· == .rwp)) ≠ (w.v &&& w.row.mask (· == .rwp)) → (s.gate w old).1 = s.presOpen ∧
    (s.presOpen = true → (s.plainWrite w).waitingReg w.pa =
      some (putFld (mix old w.v (w.row.mask fun t => t == .rw || t == .rwp)) ⟨31, 1⟩ 1)) ∧
    (s.presOpen = false → (∀ f ∈ w.row.fields, f.2 ≠ .rw) → s.plainWrite w = (s.gate w old).2 ∧
      ∀ a, (s.plainWrite w).waitingReg a = s.waitingReg a)) ∧
  ∀ (fn : FnNo) (addr : Addr) (v : Word) (s : State) (pa : Nat) (g : Region) (r : Row) (ix : List Nat) (nw : Word),
    addr.toNat % 4 = 0 → s.writable fn addr.toNat = true → s.place fn fn addr.toNat = .reg pa g r ix → findReg addr.toNat = some (g, r, ix) →
    r.roundEff = true → (∀ f ∈ r.fields, f.2 ≠ .rwp) → (s.lateInRound = false → SMap.get (fun _ => 0) s.lateRegs pa = 0) →
    nw = putFld (mix ((s.waitingReg pa).getD (s.reg pa)) (taken addr.toNat v) (r.mask (· == .rw))) ⟨31, 1⟩ 1 →
    ∃ t, exec (.roundEffectiveWrite fn addr v) s = .next (t.settle s) ∧ t.regs = s.regs ∧ t.waitingReg pa = some nw ∧
      t = (if s.lateInRound then { s with lateRegs := SMap.put (fun _ => 0) s.lateRegs pa nw }
           else { s with pendRegs := SMap.put (fun _ => 0) s.pendRegs pa nw })

/-- The Round boundary (R7, R34, R631): a part without power, and a Round that has not lasted its 62,500 cycles, pass none; else what
waited for this boundary applies and what waits for the next one moves up, and the duties run in R34's order: the grants, rates, policers
and formations, the Round's number, which advances by one with the phase at the start of the next Round, the version block, the audit of
buffers, the Waybill. The model's own are the lanes' turn before them, the power registers' values before the grants (log entry 74,
DEDUCED), and that PORT_FORM takes its value though the formation is refused (log entry 15, DEDUCED). -/
def Obligations.RoundBoundaryOrder : Prop :=
  ∀ (o : RoundObs) (s : State),
    ((s.pw.alive = false ∨ s.pw.rounds = false ∨ s.pw.cyc < 62500) → exec (.roundBoundary o) s = .next s) ∧
    (s.pw.alive = true → s.pw.rounds = true → 62500 ≤ s.pw.cyc → ∃ (n : Nat) (s0 s1 s2 s3 s4 s5 : State),
      s0 = { s with pendRegs := s.lateRegs, lateRegs := [], bpm := { s.bpm with errs := [] } } ∧
      s1 = (o.fec.foldl (fun s e => s.fecCount e.1 e.2.1 e.2.2.1 e.2.2.2) s0).laneRound o ∧
      s2 = (((s.dueWords.filter fun e => decide (e.1 < 0x30000)).foldl (fun s e => s.applyPend e.1 e.2) s1).unmetRise s).grantRound o ∧
      s3 = s2.pendRound (s.dueWords.filter fun e => !decide (e.1 < 0x30000)) ∧
      s4 = ((s.dueWords.filterMap fun e => (formAt e.1).map fun n => (n, e.2)).foldl (fun s e => s.setReg (R.PORT_FORM e.1) e.2) s3).formRound
        (s.dueWords.filterMap fun e => (formAt e.1).map fun n => (n, e.2)) ∧
      n = ((s4.reg R.DEV_ROUND_NUM).toNat + 1) % 2 ^ 32 ∧ s5 = s4.nextRound ∧
      s5.reg R.DEV_ROUND_NUM = BitVec.ofNat 32 n ∧
      s5.fld R.DEV_ROUND_PHASE F.DEV_ROUND_PHASE.PHASE = min 62499 (s4.pw.cyc - 62500) ∧ s5.pw.cyc = s4.pw.cyc - 62500 ∧
      (∀ a, a ≠ R.DEV_ROUND_NUM → a ≠ R.DEV_ROUND_PHASE → s5.reg a = s4.reg a) ∧
      exec (.roundBoundary o) s =
        .next (((s5.verRound.auditRound (s5.verRound.reg R.DEV_ROUND_NUM).toNat).wbRound).belowCheck s))

/-- Reads (R11, R13, R14, R335, R528): a read of an RC register answers its value and clears it; a read outside the view, of another size
or misaligned answers zero and is an access violation; a read of a counter's low word holds its high word for the requester, and the read
of the high word that follows answers that one, whatever the counter did between; a read of TIME_NS answers N and takes S and F into
the requester's shadows; an aligned read of eight bytes is two reads, the lower address first; without the endpoint or the management
fabric, and before the PCIe link is up (R540), a function's read does nothing, nor does a misaligned one of an Ostler cluster (R459).
Function 0, which every view holds (R52), completes its reads of every RC register, of the pair of RX_FRAMES and of TIME_NS. -/
def Obligations.Reads : Prop :=
  ∀ (s : State),
    (∀ (addr : Addr) (f : Fld), s.reach = true → s.waitingReg addr.toNat = none →
      (addr.toNat = R.PIT_MIR_DROP ∧ f = F.PIT_MIR_DROP.COUNT ∨
       (∃ n, n < 17 ∧ addr.toNat = R.PIT_AV_CNT n ∧ f = F.PIT_AV_CNT.COUNT) ∨
       (∃ n, 1 ≤ n ∧ n < 17 ∧ addr.toNat = R.PIT_XDROP n ∧ f = F.PIT_XDROP.COUNT) ∨
       (∃ n, n < 1024 ∧ s.pipeFused (n / 64) = false ∧ addr.toNat = R.PORT_TT_LATE_MAX n ∧ f = F.PORT_TT_LATE_MAX.LATENESS) ∨
       (∃ n i, n < 17 ∧ i < 32 ∧ addr.toNat = R.CNT_MON_MAX n i ∧ f = F.CNT_MON_MAX.VALUE)) →
      ∃ t, exec (.rcRead 0 addr 4) s = .next t ∧ t.fld addr.toNat f = 0 ∧ (∀ a, a ≠ addr.toNat → t.reg a = s.reg a) ∧
        t.outbox = s.outbox ++ [.readData 0 addr.toNat ((s.reg addr.toNat).zeroExtend 64)]) ∧
    (∀ (fn : FnNo) (addr : Addr) pa g r ix f, s.reach = true → addr.toNat % 4 = 0 → s.place fn fn addr.toNat = .reg pa g r ix →
      s.viewRead fn g (some r.id) ix = true → r.fields = [(f, .rc)] →
      ∃ t, exec (.rcRead fn addr 4) s = .next t ∧ t.fld pa f = 0 ∧ (∀ a, a ≠ pa → t.reg a = s.reg a) ∧
        t.outbox = s.outbox ++ [.readData fn addr.toNat ((s.showReg fn fn pa g r ix).zeroExtend 64)]) ∧
    (∀ (fn : FnNo) (addr : Addr), s.reach = true →
      (addr.toNat % 4 = 0 → s.place fn fn addr.toNat = .gap →
        exec (.rcRead fn addr 4) s = .next ((s.accessViolation fn addr.toNat false false).emit (.readData fn addr.toNat 0))) ∧
      (∀ size, (size ≠ 4 ∨ addr.toNat % 4 ≠ 0) → (size ≠ 8 ∨ addr.toNat % 8 ≠ 0) →
        exec (.rcRead fn addr size) s = .next ((s.accessViolation fn addr.toNat false true).emit (.readData fn addr.toNat 0))) ∧
      (addr.toNat % 8 = 0 → ∀ lo hi s1 s2, s.regRead fn fn addr.toNat = (lo, s1) → s1.regRead fn fn (addr.toNat + 4) = (hi, s2) →
        exec (.rcRead fn addr 8) s = .next (s2.emit (.readData fn addr.toNat (hi ++ lo))))) ∧
    (∀ (fn : FnNo) (addr : Addr) (size : Nat), s.reach = false → exec (.rcRead fn addr size) s = .next s) ∧
    (∀ (n : PortNo) (addr : Addr), s.reach = true → s.pipeFused (n.val / 64) = false → addr.toNat = C.RX_FRAMES n →
      ∃ t, exec (.counterPairRead 0 0 addr 4) s = .next t ∧ t.cnts = s.cnts ∧ t.regs = s.regs ∧
        t.hold 0 (.port n) = ⟨some addr.toNat, cntWord (s.cntRead (C.RX_FRAMES n)) true⟩ ∧
        t.outbox = s.outbox ++ [.readData 0 addr.toNat ((cntWord (s.cntRead (C.RX_FRAMES n)) false).zeroExtend 64)]) ∧
    (∀ (rq : Fin 21) (own : FnNo) (addr : Addr) (c : Nat) (fn : Nat), fn = (if rq.val < 17 then rq.val else own.val) →
      (rq.val < 17 → s.reach = true) → s.pw.fabricLost = false → addr.toNat % 4 = 0 → s.place fn rq addr.toNat = .cnt c false →
      s.viewRead fn (regionOf addr.toNat) none [] = true →
      ∃ t, exec (.counterPairRead rq own addr 4) s = .next t ∧ t.regs = s.regs ∧ t.cnts = s.cnts ∧
        t.outbox = s.outbox ++ [.readData rq addr.toNat ((cntWord (s.cntRead c) false).zeroExtend 64)] ∧
        ∀ (u : State) (hi : Addr), hi.toNat = addr.toNat + 4 → regionOf hi.toNat = regionOf addr.toNat → u.holds = t.holds →
          (rq.val < 17 → u.reach = true) → u.pw.fabricLost = false →
          u.place fn rq hi.toNat = .cnt c true → u.viewRead fn (regionOf hi.toNat) none [] = true →
          ∃ z, exec (.counterPairRead rq own hi 4) u = .next z ∧
            z.outbox = u.outbox ++ [.readData rq hi.toNat ((cntWord (s.cntRead c) true).zeroExtend 64)]) ∧
    (∀ (rq : Fin 21) (own : FnNo) (addr : Addr) (size : Nat), 17 ≤ rq.val → (s.pw.fabricLost = true ∨ addr.toNat % 4 ≠ 0) →
      exec (.counterPairRead rq own addr size) s = .next s) ∧
    (s.reach = true →
      ∃ t, exec (.timeNsRead 0 0 4) s = .next t ∧ t.regs = s.regs ∧
        SMap.get (fun _ => (0, 0)) t.time.shadow 0 = (s.time.s, s.time.fr / 2 ^ 28) ∧
        t.outbox = s.outbox ++ [.readData 0 R.TIME_NS
          ((BitVec.ofNat 32 ((s.reg R.TIME_STATUS).toNat / 2 ^ 30 * 2 ^ 30 + s.time.n)).zeroExtend 64)]) ∧
    (s.reach = true → s.waitingReg (R.TIME_SHD_S 0) = none →
      ∃ (t : State) (hi lo : Word), exec (.timeNsRead 0 0 8) s = .next t ∧ hi = BitVec.ofNat 32 s.time.s ∧
        lo = BitVec.ofNat 32 ((s.reg R.TIME_STATUS).toNat / 2 ^ 30 * 2 ^ 30 + s.time.n) ∧
        t.outbox = s.outbox ++ [.readData 0 R.TIME_NS (hi ++ lo)]) ∧
    (∀ (rq : Fin 21) (own : FnNo) (fn : Nat), fn = (if rq.val < 17 then rq.val else own.val) →
      (rq.val < 17 → s.reach = true) → s.pw.fabricLost = false → s.viewRead fn .time (some .TIME_NS) [] = true →
      ∃ t, exec (.timeNsRead rq own 4) s = .next t ∧ t.regs = s.regs ∧
        SMap.get (fun _ => (0, 0)) t.time.shadow rq = (s.time.s, s.time.fr / 2 ^ 28) ∧
        t.outbox = s.outbox ++ [.readData rq R.TIME_NS
          ((BitVec.ofNat 32 ((s.reg R.TIME_STATUS).toNat / 2 ^ 30 * 2 ^ 30 + s.time.n)).zeroExtend 64)])

/-- What happens to a lane and its group (R81 to R83, R86, R98, R100, R521). Loss of signal sets LOS and takes the link of the port down, as
does loss of lock, which clears CDR_LOCK and ADAPT_DONE; a signal clears LOS, and lock sets CDR_LOCK where nothing holds the receiver.
Adaptation takes the settings found and sets ADAPT_DONE; FREEZE keeps every setting. The forwarded clock and the transmit PLL show and
raise their loss. A running checker locks, and one that was locked adds the wrong bits, saturating, and drops lock with PRBS_LOL; a
running scan ends with its count, saturating, and GO clears. -/
def Obligations.LaneEvents : Prop :=
  (∀ (l : LaneNo) (s : State),
      (s.rxPowered l = true → s.los l = false → s.loop l ≠ 1 → s.loop l ≠ 3 →
        ∃ s1, s1 = (s.setBit (laneReg R.LG_LN_STATUS l) F.LG_LN_STATUS.LOS true).laneArise l F.LG_LN_CAUSE.LOS ∧ s1.los l = true ∧
          exec (.signalLoss l) s = .next
            (match s1.portOfLane l with
             | some n => ((s1.pcsDown n).linkLost n).synceCheck
             | none => s1.synceCheck)) ∧
      (s.loop l = 1 ∨ s.loop l = 3 → exec (.signalLoss l) s = .next s) ∧
      (s.cdrLock l = true →
        ∃ s1, s1 = (((s.setBit (laneReg R.LG_LN_STATUS l) F.LG_LN_STATUS.CDR_LOCK false).setBit (laneReg R.LG_LN_STATUS l)
            F.LG_LN_STATUS.ADAPT_DONE false).setLane l { s.lane l with whole := false, step := none }).laneArise l F.LG_LN_CAUSE.LOL ∧
          s1.cdrLock l = false ∧ s1.adaptDone l = false ∧
          exec (.cdrLockLoss l) s = .next
            (match s1.portOfLane l with
             | some n => ((s1.pcsDown n).linkLost n).synceCheck
             | none => s1.synceCheck)) ∧
      (s.rxPowered l = true →
        ∃ t, exec (.signalReturn l) s = .next t ∧ t.los l = false ∧ t.cdrLock l = s.cdrLock l ∧
          t = (s.setBit (laneReg R.LG_LN_STATUS l) F.LG_LN_STATUS.LOS false).synceCheck) ∧
      (s.rxPowered l = true → s.los l = false → s.rxHeld l = false →
        s.bit (R.LG_CTL (l.val / 16)) F.LG_CTL.FWD_EN = false ∨ s.fwd15 l = true ∨ s.fwdLock (l.val / 16) = true →
        ∃ t, exec (.cdrLock l) s = .next t ∧ t.cdrLock l = true ∧ t.los l = false ∧
          t = ((s.setBit (laneReg R.LG_LN_STATUS l) F.LG_LN_STATUS.CDR_LOCK true).deskewTrain l).synceCheck)) ∧
  (∀ (l : LaneNo) (ctle : Fin 32) (taps : List Nat) (s : State), s.cdrLock l = true → s.adaptDone l = false → s.mode l ≠ 4 →
      ∃ t, exec (.adaptDone l ctle taps) s = .next t ∧ t.adaptDone l = true ∧
        (s.bit (laneReg R.LG_LN_RXEQ l) F.LG_LN_RXEQ.FREEZE = false →
          t.rxSetting l 12 = ctle ∧ ∀ k, k < 12 → t.rxSetting l k = taps.getD k 0 % 256) ∧
        (s.bit (laneReg R.LG_LN_RXEQ l) F.LG_LN_RXEQ.FREEZE = true →
          t = s.setBit (laneReg R.LG_LN_STATUS l) F.LG_LN_STATUS.ADAPT_DONE true) ∧
        (∀ a, a ≠ laneReg R.LG_LN_STATUS l → a ≠ laneReg R.LG_LN_RXEQ l →
          (∀ k, k < 12 → a ≠ R.LG_LN_RXEQ_TAP (l.val / 16) (l.val % 16) k) → t.reg a = s.reg a) ∧
        ∃ r, t = { s with regs := r }) ∧
  (∀ (g : GroupNo) (s : State),
      (s.fwdLock g = true →
        exec (.fwdClockLoss g) s = .next
          (((List.range 15).foldl (fun s i => s.lockLost (16 * g + i)) (s.setBit (R.LG_STATUS g) F.LG_STATUS.FWD_LOCK false)).ariseF
            (R.LG_CAUSE g) F.LG_CAUSE.FWD_LOL)) ∧
      (s.bit (R.LG_CTL g) F.LG_CTL.FWD_EN = true → s.rxPowered (16 * g + 15) = true →
        ∃ t, exec (.fwdClockLock g) s = .next t ∧ t.fwdLock g = true ∧ (∀ a, a ≠ R.LG_STATUS g → t.reg a = s.reg a) ∧
          ∃ r, t = { s with regs := r }) ∧
      (s.bit (R.LG_STATUS g) F.LG_STATUS.PLL_LOCK = true →
        ∃ t, exec (.txPllLossOfLock g) s = .next t ∧ t.bit (R.LG_STATUS g) F.LG_STATUS.PLL_LOCK = false ∧
          (t.reg (R.LG_CAUSE g)).getLsbD F.LG_CAUSE.PLL_LOL.lo = true ∧ Alarms [R.LG_STATUS g, R.LG_CAUSE g] s t) ∧
      (s.lgReady g = true →
        ∃ t, exec (.txPllRelock g) s = .next t ∧ t.bit (R.LG_STATUS g) F.LG_STATUS.PLL_LOCK = true ∧
          (∀ a, a ≠ R.LG_STATUS g → t.reg a = s.reg a) ∧ ∃ r, t = { s with regs := r })) ∧
  (∀ (l : LaneNo) (errs : Nat) (s : State),
      (s.prbsOn l = true → s.rxPowered l = true → s.rxHeld l = false →
        ∃ t, exec (.prbsLock l) s = .next t ∧ t.bit (laneReg R.LG_LN_PRBS_ERR_HI l) F.LG_LN_PRBS_ERR_HI.LOCK = true ∧
          t.prbsErrs l = s.prbsErrs l ∧ (∀ a, a ≠ laneReg R.LG_LN_PRBS_ERR_HI l → t.reg a = s.reg a) ∧ ∃ r, t = { s with regs := r }) ∧
      (s.prbsOn l = true → s.bit (laneReg R.LG_LN_PRBS_ERR_HI l) F.LG_LN_PRBS_ERR_HI.LOCK = true →
        ∃ t, exec (.prbsLol l errs) s = .next t ∧ t.bit (laneReg R.LG_LN_PRBS_ERR_HI l) F.LG_LN_PRBS_ERR_HI.LOCK = false ∧
          t.prbsErrs l = min (s.prbsErrs l + errs) (2 ^ 48 - 1) ∧
          (s.laneWatched l = true → (t.reg (laneReg R.LG_LN_CAUSE l)).getLsbD F.LG_LN_CAUSE.PRBS_LOL.lo = true) ∧
          Alarms [laneReg R.LG_LN_PRBS_ERR_LO l, laneReg R.LG_LN_PRBS_ERR_HI l, laneReg R.LG_LN_CAUSE l] s t) ∧
      (s.eyeBusy l = true →
        ∃ t, exec (.eyeScanDone l errs) s = .next t ∧ t.eyeBusy l = false ∧
          t.reg (laneReg R.LG_LN_EYE_RES l) = BitVec.ofNat 32 (min errs (2 ^ 32 - 1)) ∧
          (∀ a, a ≠ laneReg R.LG_LN_EYE_RES l → a ≠ laneReg R.LG_LN_EYE_CTL l → t.reg a = s.reg a) ∧ ∃ r, t = { s with regs := r }))

/-- Writes of a lane's and a group's command bits (R83, R85, R98, R100, R533), by a function that may make them: FIR_LOAD loads the group's
lanes; LOAD loads the lane's own set; a write of CHK_PAT that runs the checker clears its count and restarts it; GO starts a scan of a
locked lane and ends one of an unlocked lane at once with 0xFFFFFFFF; a lane reset takes the receiver back to before lock, and of the clock
lane of a forwarded-clock group the forwarded clock with it. The model's own are that a write which changes other fields of LG_LN_TEST alone
restarts the checker too (log entry 128, DESIGN CHOICE) and that a scan of EYE 3 is refused before lock is looked at (log entry 94, DEDUCED). -/
def Obligations.LaneCommands : Prop :=
  ∀ (fn : FnNo) (g : GroupNo) (l : Fin 16) (v : Word) (s : State),
    (∀ w s1 s2, s.writable fn (R.LG_CTL g) = true → w = taken (R.LG_CTL g) (putFlds v [(F.LG_CTL.FIR_LOAD, 1)]) →
      fldOf w F.LG_CTL.FWD_EN = s.fld (R.LG_CTL g) F.LG_CTL.FWD_EN →
      fldOf w F.LG_CTL.FWD_RATE = s.fld (R.LG_CTL g) F.LG_CTL.FWD_RATE →
      s1 = s.setFld (R.LG_CTL g) F.LG_CTL.ADAPT_CONT (fldOf w F.LG_CTL.ADAPT_CONT) →
      s2 = (if s1.bit (R.LG_CTL g) F.LG_CTL.FWD_EN then
          (s1.setFld (laneReg R.LG_LN_STATUS (16 * g + 15)) F.LG_LN_STATUS.LMF 0).setBit (laneReg R.LG_LN_STATUS (16 * g + 15))
            F.LG_LN_STATUS.LMF_STALE true
        else s1.setBit (R.LG_STATUS g) F.LG_STATUS.FWD_LOCK false) →
      exec (.firLoad fn g v) s = .next (((s2.firLoad g).showLane (16 * g + 15)).settle s)) ∧
    (∀ w s1, s.writable fn (R.LG_LN_FIR_B g l) = true → w = taken (R.LG_LN_FIR_B g l) (putFlds v [(F.LG_LN_FIR_B.LOAD, 1)]) →
      s1 = s.setReg (R.LG_LN_FIR_B g l) (putFld (w &&& 0x8000FFFF) F.LG_LN_FIR_B.LOAD 0) →
      s1.laneEnabled (16 * g + l) = true → s1.ownFir (16 * g + l) = true →
      exec (.laneFirLoad fn g l v) s = .next ((s1.loadFir (16 * g + l)).settle s)) ∧
    (∀ w s0 s1, s.writable fn (R.LG_LN_TEST g l) = true → w = taken (R.LG_LN_TEST g l) v →
      fldOf w F.LG_LN_TEST.TX_INV = s.fld (R.LG_LN_TEST g l) F.LG_LN_TEST.TX_INV →
      fldOf w F.LG_LN_TEST.RX_INV = s.fld (R.LG_LN_TEST g l) F.LG_LN_TEST.RX_INV →
      fldOf w F.LG_LN_TEST.RX_ON = s.fld (R.LG_LN_TEST g l) F.LG_LN_TEST.RX_ON →
      fldOf w F.LG_LN_TEST.TX_SRC = 0 → fldOf w F.LG_LN_TEST.CHK_PAT ≠ 0 →
      s.patRefused (16 * g + l) (fldOf w F.LG_LN_TEST.CHK_PAT) = false →
      s.patRefused (16 * g + l) (fldOf w F.LG_LN_TEST.GEN_PAT) = false →
      s0 = [F.LG_LN_TEST.RX_ON, F.LG_LN_TEST.LOOP, F.LG_LN_TEST.CHK_PAT, F.LG_LN_TEST.GEN_PAT, F.LG_LN_TEST.TX_SRC].foldl
        (fun s f => s.setFld (R.LG_LN_TEST g l) f (fldOf w f)) (s.prbsTake (16 * g + l)) →
      s1 = (if fldOf w F.LG_LN_TEST.LOOP = s.fld (R.LG_LN_TEST g l) F.LG_LN_TEST.LOOP then s0
        else s0.loopChange (16 * g + l)).prbsRestart (16 * g + l) →
      s1.prbsErrs (16 * g + l) = 0 ∧ s1.bit (R.LG_LN_PRBS_ERR_HI g l) F.LG_LN_PRBS_ERR_HI.LOCK = false ∧
        exec (.chkPatWrite fn g l v) s = .next (((s1.showLane (16 * g + l)).synceCheck).settle s)) ∧
    (∀ w s1, s.writable fn (R.LG_LN_EYE_CTL g l) = true → s.eyeBusy (16 * g + l) = false →
      w = taken (R.LG_LN_EYE_CTL g l) (putFlds v [(F.LG_LN_EYE_CTL.GO, 1)]) →
      s1 = s.setReg (R.LG_LN_EYE_CTL g l) (putFld (w &&& 0x603FFF8F) F.LG_LN_EYE_CTL.GO 0) →
      s1.fld (R.LG_LN_EYE_CTL g l) F.LG_LN_EYE_CTL.EYE ≠ 3 →
      (s.cdrLock (16 * g + l) = true → ∃ t, t.eyeBusy (16 * g + l) = true ∧
        t = ((s1.setBit (R.LG_LN_EYE_CTL g l) F.LG_LN_EYE_CTL.GO true).setBit (R.LG_LN_STATUS g l) F.LG_LN_STATUS.LMF_STALE
          true).setLane (16 * g + l) { s.lane (16 * g + l) with whole := false } ∧
        exec (.eyeScanGo fn g l v) s = .next (t.settle s)) ∧
      (s.cdrLock (16 * g + l) = false → ∃ t, t.reg (R.LG_LN_EYE_RES g l) = 0xFFFFFFFF ∧ t.eyeBusy (16 * g + l) = false ∧
        t = s1.eyeEnd (16 * g + l) (2 ^ 32 - 1) ∧ exec (.eyeScanGo fn g l v) s = .next (t.settle s))) ∧
    (∀ s0 s1, s.writable fn (R.LG_LN_RST g l) = true → (s.portOfLane (16 * g + l)).any (fun n => (s.port n).inPortReset) = false →
      s.pipeHeld (g.val / 4) = false → s0 = (if s.fwd15 (16 * g + l) then s.fwdLoss g else s) →
      s1 = ((((s0.lockLost (16 * g + l)).rxUnlock (16 * g + l)).prbsRestart (16 * g + l)).setFld (R.LG_LN_STATUS g l)
        F.LG_LN_STATUS.LMF 0).setBit (R.LG_LN_STATUS g l) F.LG_LN_STATUS.LMF_STALE true →
      s1.bit (R.LG_LN_STATUS g l) F.LG_LN_STATUS.LMF_STALE = true ∧ s1.fld (R.LG_LN_STATUS g l) F.LG_LN_STATUS.LMF = 0 ∧
        exec (.laneResetGo fn g l) s =
          .next ((if s1.eyeBusy (16 * g + l) then s1.eyeEnd (16 * g + l) (2 ^ 32 - 1) else s1).settle s))

/-- PORT_CTL.EN and PORT_RST.GO (R91, R92, R105, R532): a write that changes nothing else enables a port of a Pitch that may enable
it, is refused with CFG where it may not, or disables it: the frames being sent are cut, LINK_UP falls, the queues are flushed with code
0xF2, EN and what the link had found clear, and the receivers that RX_ON does not hold go off. A port reset takes an enabled port down and
ends by starting it; the end of a group's timeline starts its enabled ports. -/
def Obligations.PortCommands : Prop :=
  ∀ (fn : FnNo) (n : PortNo) (v : Word) (s : State),
    (∀ w, s.writable fn (R.PORT_CTL n) = true → w = taken (R.PORT_CTL n) (putFlds v [(F.PORT_CTL.EN, 1)]) →
      fldOf w F.PORT_CTL.FC_MODE = s.fcMode n → fldOf w F.PORT_CTL.MAXLEN = s.fld (R.PORT_CTL n) F.PORT_CTL.MAXLEN →
      s.bit (R.PORT_CTL n) F.PORT_CTL.EN = false → s.ownerOfPort n ≠ 0 →
      (s.enAllowed n = true → (s.setBit (R.PORT_CTL n) F.PORT_CTL.EN true).bit (R.PORT_CTL n) F.PORT_CTL.EN = true ∧
        exec (.portEnable fn n v) s = .next (((s.setBit (R.PORT_CTL n) F.PORT_CTL.EN true).portEnable n).settle s)) ∧
      (s.enAllowed n = false →
        ∃ t, exec (.portEnable fn n v) s = .next (t.settle s) ∧ t = s.cause (R.PORT_CAUSE n) F.PORT_CAUSE.CFG ∧
          t.bit (R.PORT_CTL n) F.PORT_CTL.EN = false ∧ (t.reg (R.PORT_CAUSE n)).getLsbD F.PORT_CAUSE.CFG.lo = true)) ∧
    (∀ w, s.writable fn (R.PORT_CTL n) = true → w = taken (R.PORT_CTL n) (putFlds v [(F.PORT_CTL.EN, 0)]) →
      fldOf w F.PORT_CTL.FC_MODE = s.fcMode n → fldOf w F.PORT_CTL.MAXLEN = s.fld (R.PORT_CTL n) F.PORT_CTL.MAXLEN →
      s.bit (R.PORT_CTL n) F.PORT_CTL.EN = true →
      exec (.portDisable fn n v) s = .next ((s.portDisable n).settle s) ∧
      (s.formed n = false → s.portDisable n = s.setBit (R.PORT_CTL n) F.PORT_CTL.EN false ∧
        (s.portDisable n).bit (R.PORT_CTL n) F.PORT_CTL.EN = false) ∧
      (s.formed n = true → ∃ s0 s1 s2 s3 s4,
        s0 = (s.txCut n).linkFall n ∧ s0.linkUp n = false ∧ (s0.ptm n).tx = [] ∧
        s1 = (List.range 16).foldl (fun s c => s.flushQueue n c 0xF2) s0 ∧
        s2 = ((((s1.tmPortEnd n).pauseRelease n).calAbort n).setLive n false).setBit (R.PORT_CTL n) F.PORT_CTL.EN false ∧
        s2.bit (R.PORT_CTL n) F.PORT_CTL.EN = false ∧ s2.live n = false ∧
        s3 = ((s2.linkClear n).setPort n { (s2.linkClear n).port n with inPortReset := false }).setBit (R.PORT_RST n) F.PORT_RST.GO false ∧
        (s3.port n).inPortReset = false ∧ (s3.port n).pcsLock = false ∧ s3.bit (R.PORT_STATUS n) F.PORT_STATUS.AN_DONE = false ∧
        s4 = ((s3.lanesOf n).foldl (fun s l => if s.rxOn l then s else s.rxOff l) s3).fwdOff (n.val / 16) ∧
        s.portDisable n = ((s4.showLanes (s4.lanesOf n ++ [16 * (n.val / 16) + 15])).stallEvals n).synceCheck)) ∧
    (∀ (u : State) (c : ClassNo), ((u.flushQueue n c 0xF2).tmq n c).pkts = []) ∧
    (s.writable fn (R.PORT_RST n) = true → (s.port n).inPortReset = false → s.portEnabled n = true → s.inReset (s.ownerOfPort n) = false →
      (s.port n).timeline = false →
      ∃ s0 s1 s2 t, s0 = (s.txCut n).linkFall n ∧ s1 = (s0.lanesOf n).foldl (fun s l => ((s.lockLost l).rxUnlock l).rxAbort l) s0 ∧
        s2 = ((s1.linkClear n).pauseRelease n).stallEvals n ∧
        t = (s2.setPort n { s2.port n with inPortReset := true }).setBit (R.PORT_RST n) F.PORT_RST.GO true ∧
        (t.port n).inPortReset = true ∧ t.bit (R.PORT_RST n) F.PORT_RST.GO = true ∧
        exec (.portResetGo fn n) s = .next ((t.showLanes (t.lanesOf n)).settle s)) ∧
    ((s.port n).inPortReset = true →
      ∃ s1, s1 = ((s.setPort n { s.port n with inPortReset := false }).setBit (R.PORT_RST n) F.PORT_RST.GO false).portStart n false ∧
        exec (.portResetRestart n) s = .next (if s1.mode n = 4 then s1.addCnt (C.ONZ_RESTARTS n) 1 else s1)) ∧
    (∀ (g : GroupNo) (i : Fin 16) (m : Nat), m = 16 * g + i → (∀ j, j < 16 → (s.port (16 * g + j)).timeline = decide (j = i.val)) →
      ∃ s1 s2, s1 = s.setPort m { s.port m with timeline := false } ∧ (s1.port m).timeline = false ∧
        s2 = (s1.lanesOf m).foldl (fun s l => s.loadFir l) s1 ∧
        (s2.portEnabled m = false → exec (.formationTimelineEnd g) s = .next s2) ∧
        (s2.portEnabled m = true → (s2.lanesOf m).any s2.los = false →
          exec (.formationTimelineEnd g) s = .next (s2.portStart m false)))

/-- What a port receives beside frames (R119, R120, R134, R532, R568): LINK_UP sets where all it needs holds, falls where the receive path
has no lock or the link is lost, and Local and Remote Fault show in PORT_STATUS, with their cause, and take the link down. A port whose link
logic does not run (disabled, in a rate change or a port reset, or with the clocks of the part lost) finds nothing. A fault that stands keeps
LINK_UP from rising (log entry 18, DEDUCED). -/
def Obligations.LinkState : Prop :=
  ∀ (n : PortNo) (s : State),
    (∀ (pcs : PcsObs) (s1 : State), s1 = s.pcsRx n pcs →
      (s1.linkReady n = true → s1.linkUp n = false → s1.mode n ≠ 4 →
        exec (.linkUpRise n pcs) s = .next (s1.linkRise n) ∧ (s1.linkRise n).linkUp n = true ∧ (s1.linkRise n).downDrop n = false) ∧
      (s1.linkReady n = false → (s1.mode n = 4 ∨ s1.linkUp n = false ∨ s1.rxPathUp n = true) →
        exec (.linkUpRise n pcs) s = .next (s1.linePort n)) ∧
      (s1.mode n ≠ 4 → s1.linkUp n = true → s1.rxPathUp n = false →
        exec (.linkUpRise n pcs) s = .next ((s1.linkFall n).linePort n) ∧ (s1.linkFall n).linkUp n = false) ∧
      (s.linkRuns n = true → (s.lanesOf n).all s.laneGives = true →
        (s1.port n).pcsLock = pcs.lock ∧ (s1.port n).fecLock = (pcs.fec && (s.fecBits n).isSome) ∧ s1.regs = s.regs)) ∧
    (s.linkRuns n = true → s.mode n ≤ 3 → (s.lanesOf n).all s.laneGives = true → s.bit (R.PORT_STATUS n) F.PORT_STATUS.RX_LF = false →
      s.bit (R.PORT_STATUS n) F.PORT_STATUS.RX_RF = false → (s.anEn n = false ∨ s.bit (R.PORT_STATUS n) F.PORT_STATUS.AN_DONE = true) →
      (s.trainEn n = false ∨ s.bit (R.PORT_STATUS n) F.PORT_STATUS.TRAIN_DONE = true) → s.linkUp n = false →
      ∃ t, exec (.linkUpRise n { lock := true, fec := true, headers := [] }) s = .next t ∧ t.linkUp n = true) ∧
    (∀ s1, s1 = s.pcsDown n → s.mode n ≠ 4 → s.linkUp n = true →
      exec (.linkDown n) s = .next ((s1.linkFall n).linePort n) ∧ (s1.linkFall n).linkUp n = false ∧ (s1.linkFall n).live n = false ∧
        (s1.linkFall n).ptm n = { s.ptm n with ctl := [], ctlLine := [] } ∧
        ((s1.linkFall n).reg (R.PORT_CAUSE n)).getLsbD F.PORT_CAUSE.LINK_DOWN.lo = true) ∧
    (s.linkRuns n = false →
      (∀ on, exec (.localFaultRx n on) s = .next s ∧ exec (.remoteFaultRx n on) s = .next s) ∧
      ∀ pcs, s.pcsRx n pcs = s ∧ s.linkReady n = false) ∧
    (s.linkRuns n = true → s.mode n ≠ 4 →
      (s.bit (R.PORT_STATUS n) F.PORT_STATUS.RX_LF = false →
        exec (.localFaultRx n true) s =
          .next (((s.setBit (R.PORT_STATUS n) F.PORT_STATUS.RX_LF true).ariseF (R.PORT_CAUSE n) F.PORT_CAUSE.RX_LF).linkLost n)) ∧
      (s.bit (R.PORT_STATUS n) F.PORT_STATUS.RX_LF = true →
        ∃ t, exec (.localFaultRx n false) s = .next t ∧ t = (s.setBit (R.PORT_STATUS n) F.PORT_STATUS.RX_LF false).linePort n ∧
          t.bit (R.PORT_STATUS n) F.PORT_STATUS.RX_LF = false ∧ t.linkUp n = s.linkUp n) ∧
      (s.bit (R.PORT_STATUS n) F.PORT_STATUS.RX_RF = false →
        exec (.remoteFaultRx n true) s =
          .next (((s.setBit (R.PORT_STATUS n) F.PORT_STATUS.RX_RF true).ariseF (R.PORT_CAUSE n) F.PORT_CAUSE.RX_RF).linkLost n)) ∧
      (s.bit (R.PORT_STATUS n) F.PORT_STATUS.RX_RF = true →
        ∃ t, exec (.remoteFaultRx n false) s = .next t ∧ t = (s.setBit (R.PORT_STATUS n) F.PORT_STATUS.RX_RF false).linePort n ∧
          t.bit (R.PORT_STATUS n) F.PORT_STATUS.RX_RF = false ∧ t.linkUp n = s.linkUp n))

/-- Auto-negotiation and link training (R116, R117, R118): a failure sets AN_FAIL and waits; the restart ends the wait; completion sets
AN_DONE; the training timer's end sets TRAIN_TIMEOUT and brings the loaded tap sets back, and restarts the training of an Onazel port; a
training frame asks for a tap to go up (1) or down (2), which it does where the set stays valid and is answered as moved, and is answered as
at its limit where it does not; for the loaded set again (3); or for nothing (0), which has no answer (log entry 152, DEDUCED); and TRAIN_DONE
sets with the last. In a port reset and without the part's clocks none of it acts. -/
def Obligations.Negotiation : Prop :=
  ∀ (n : PortNo) (s : State),
    (s.linkRuns n = false → (exec (.anFail n) s = .next s ∧ exec (.anComplete n) s = .next s ∧ exec (.trainTimeout n) s = .next s ∧
      ∀ (l : LaneNo) (tap : Fin 6) (dir : Fin 4) (done : Bool), exec (.linkTrainingFrameRx n l tap dir done) s = .next s)) ∧
    (s.linkRuns n = true → s.anEn n = true → s.bit (R.PORT_STATUS n) F.PORT_STATUS.AN_DONE = false →
      ∃ t, exec (.anFail n) s = .next t ∧ (t.port n).anWait = true ∧ (t.reg (R.PORT_CAUSE n)).getLsbD F.PORT_CAUSE.AN_FAIL.lo = true ∧
        Alarms [R.PORT_CAUSE n] (s.setPort n { s.port n with anWait := true }) t) ∧
    (∃ t, exec (.anRestart n) s = .next t ∧ (t.port n).anWait = false ∧ (∀ m, m ≠ n.val → t.port m = s.port m) ∧ ∃ p, t = { s with ports := p }) ∧
    (s.linkRuns n = true → s.anEn n = true → (s.port n).anWait = false →
      ∃ t, exec (.anComplete n) s = .next t ∧ t.bit (R.PORT_STATUS n) F.PORT_STATUS.AN_DONE = true ∧
        t = (s.setBit (R.PORT_STATUS n) F.PORT_STATUS.AN_DONE true).linePort n ∧ (∀ a, a ≠ R.PORT_STATUS n → t.reg a = s.reg a) ∧
        { t with regs := s.regs, lanes := s.lanes, outbox := s.outbox } = s) ∧
    (s.mode n ≠ 4 → s.training n = true →
      ∃ s1, s1 = (s.lanesOf n).foldl (fun s l => s.setWorkFir l (s.lane l).loaded) (s.cause (R.PORT_CAUSE n) F.PORT_CAUSE.TRAIN_TIMEOUT) ∧
        (s1.anEn n = true → exec (.trainTimeout n) s = .next ((s1.setBit (R.PORT_STATUS n) F.PORT_STATUS.AN_DONE false).linePort n)) ∧
        (s1.anEn n = false → exec (.trainTimeout n) s = .next s1)) ∧
    (s.mode n = 4 → s.linkRuns n = true → 1 ≤ s.onzState n → s.onzState n ≤ 5 →
      exec (.trainTimeout n) s = .next ((s.cause (R.PORT_CAUSE n) F.PORT_CAUSE.TRAIN_TIMEOUT).onzRestart n)) ∧
    (∀ (l : LaneNo) (tap : Fin 6) (dir : Fin 4) (done : Bool), s.training n = true → l.val ∈ s.lanesOf n →
      ∃ t, exec (.linkTrainingFrameRx n l tap dir done) s =
          .next (if done then (t.setBit (R.PORT_STATUS n) F.PORT_STATUS.TRAIN_DONE true).linePort n else t) ∧
        (dir.val = 0 → t = s) ∧
        (dir.val = 3 → t = (s.setWorkFir l (s.lane l).loaded).emit (.trainAnswer n l false)) ∧
        (∀ v : Int, (dir.val = 1 ∧ v = (s.workFir l).getD tap 0 + 1 ∨ dir.val = 2 ∧ v = (s.workFir l).getD tap 0 - 1) →
          (-128 ≤ v → v ≤ 127 → firValid (listSet (s.workFir l) tap v) = true →
            t = (s.setWorkFir l (listSet (s.workFir l) tap v)).emit (.trainAnswer n l false)) ∧
          ((v < -128 ∨ 127 < v ∨ firValid (listSet (s.workFir l) tap v) = false) →
            t.outbox = s.outbox ++ [.trainAnswer n l true] ∧ { t with outbox := s.outbox } = s)))

/-- Onazel training and markers, and forwarded-clock alignment (R124, R125, R128, R130, R132): the symbols of a training block, unstuffed
and descrambled, give its payload; a first valid block in SEEK counts; a bad block counts as an error in every state of training, and outside
training none is taken; a marker brings an Onazel port in data up, a training marker or silence takes it down. A run of fewer than 32 symbols
is none; one of 36 to 44 of level 0, 1 or 3 is a marker and acts as its level gives; one of level 2 or of another length is a marker error and
counts, with the frame that it cuts short, whose symbols are descrambled all the same, and then acts as its level gives. Data symbols after an
idle marker count as a marker error. A second good set of alignment blocks aligns a MODE 5 port, a lane that gives no symbols having none, a
fourth bad one in a row takes alignment away, and its loss takes the link down. -/
def Obligations.OnazelAndAlignment : Prop :=
  ∀ (n : PortNo) (s : State),
    (s.linkRuns n = true → s.mode n = 4 →
      ∀ (syms : List (Fin 4)) (p : Nat), p = ((s.onzGet n 2 (syms.map Fin.val)).1.take 128).foldl (fun v b => 2 * v + bitN b) 0 →
      (onzValid p = false → 1 ≤ s.onzState n → s.onzState n ≤ 5 →
        ∃ t, exec (.onzTrainingBlockRx n syms) s = .next t ∧ t.cnt (C.ONZ_TB_ERR n) = min (s.cnt (C.ONZ_TB_ERR n) + 1) (2 ^ 48 - 1) ∧
          (t.port n).onz.good = (if s.onzState n = 1 then 0 else (s.port n).onz.good) ∧ t.regs = s.regs) ∧
      ((s.onzState n = 0 ∨ 6 ≤ s.onzState n) → exec (.onzTrainingBlockRx n syms) s = .next (s.onzGet n 2 (syms.map Fin.val)).2) ∧
      (onzValid p = true → 1 ≤ s.onzState n → s.onzState n ≤ 5 → s.onzRole n ≠ 0 → (onzParse p).role = s.onzRole n →
        exec (.onzTrainingBlockRx n syms) s = .next ((s.onzGet n 2 (syms.map Fin.val)).2.onzRestart n)) ∧
      (onzValid p = true → s.onzState n = 1 → s.onzRole n = 0 → (s.port n).onz.good = 0 →
        ∃ t, exec (.onzTrainingBlockRx n syms) s = .next t ∧ (t.port n).onz.good = 1 ∧ (∀ m, m ≠ n.val → t.port m = s.port m) ∧
          ∃ q, t = { s with ports := q })) ∧
    (s.linkRuns n = true → s.mode n = 4 → s.onzState n = 6 →
      (s.linkUp n = false → exec (.onzIdleMarkerRx n) s = .next (s.linkRise n) ∧ (s.linkRise n).linkUp n = true) ∧
      exec (.onzTrainingMarkerRx n) s = .next (s.linkLost n) ∧ exec (.onzMarkerTimeout n) s = .next (s.linkLost n)) ∧
    (s.portEnabled n = true → s.mode n = 4 →
      (∀ (lv : Fin 4) len syms b, 32 ≤ len → (lv.val = 2 ∨ len < 36 ∨ 44 < len) →
        ∃ t1 t2, t1 = s.addCnt (C.ONZ_MARKER_ERR n) 1 ∧ t1.cnt (C.ONZ_MARKER_ERR n) = min (s.cnt (C.ONZ_MARKER_ERR n) + 1) (2 ^ 48 - 1) ∧
          (∀ a, a ≠ C.ONZ_MARKER_ERR n → t1.cnt a = s.cnt a) ∧
          (b = false → t2 = t1) ∧ (b = true → s.linkUp n = false → t2 = (t1.onzGet n 0 (syms.map Fin.val)).2) ∧
          (b = true → s.linkUp n = true → t2 = ((t1.onzGet n 0 (syms.map Fin.val)).2).addCnt (C.RX_FCS_ERR n) 1) ∧
          exec (.onzMarkerError n (.run lv len syms) b) s =
            .next (if lv.val = 2 then t2 else if lv.val = 1 then t2.onzDrop n else t2.onzMarkerUp n)) ∧
      (∀ (lv : Fin 4) len syms b, lv.val ≠ 2 → 36 ≤ len → len ≤ 44 →
        exec (.onzMarkerError n (.run lv len syms) b) s = .next (if lv.val = 1 then s.onzDrop n else s.onzMarkerUp n)) ∧
      (∀ (lv : Fin 4) len syms, len < 32 → ∀ b, exec (.onzMarkerError n (.run lv len syms) b) s = .next s) ∧
      (∀ (syms : List (Fin 4)) b, ∃ t, exec (.onzMarkerError n (.stray syms) b) s = .next t ∧
        t.cnt (C.ONZ_MARKER_ERR n) = min (s.cnt (C.ONZ_MARKER_ERR n) + 1) (2 ^ 48 - 1) ∧ t.regs = s.regs ∧ t.pipes = s.pipes)) ∧
    (∀ (bs got : List Bytes), s.linkRuns n = true → s.mode n = 5 →
      got = ((s.lanesOf n).zipIdx.map fun e => if s.laneGives e.1 then bs.getD e.2 [] else []) →
      (∀ o, alignOrder (s.width n) got = some o →
        ∃ t, exec (.alignBlockRx n bs) s = .next t ∧ (t.port n).alignBad = 0 ∧ (t.port n).alignGood = min 2 ((s.port n).alignGood + 1) ∧
          (1 ≤ (s.port n).alignGood → (t.port n).aligned = true ∧ (t.port n).order = o) ∧ ∃ q, t = { s with ports := q }) ∧
      (alignOrder (s.width n) got = none → (s.port n).alignBad < 3 →
        ∃ t, exec (.alignBlockRx n bs) s = .next t ∧ (t.port n).alignBad = (s.port n).alignBad + 1 ∧ (t.port n).alignGood = 0 ∧
          (t.port n).aligned = (s.port n).aligned ∧ ∃ q, t = { s with ports := q }) ∧
      (alignOrder (s.width n) got = none → 3 ≤ (s.port n).alignBad →
        exec (.alignBlockRx n bs) s = exec (.alignmentLoss n) s)) ∧
    (∃ s1, s1 = s.setPort n { s.port n with aligned := false, alignGood := 0, alignBad := 0 } ∧ (s1.port n).aligned = false ∧
      exec (.alignmentLoss n) s = .next (s1.linkLost n))

/-- A frame reaches a port (R20, R21, R26, R99, R108, R109, R125). What the line gives the MAC is the frame itself, or in near-end or
parallel loopback the next frame of the port's own, or on an Onazel port the data of its symbols. With the link down it is not received;
one that is no whole number of bytes, or that was in flight at a change of LOOP (what is in flight then is log entry 138, DEDUCED), counts as
such; then the first fault, in the order PCS
error, FCS, runt, oversize, counts it; the MAC consumes a frame of the time links on whatever port it comes, once it has passed the same
checks (R346); any other good frame counts, takes a buffer and joins the entry queue of its pipeline, or is dropped and counted where no
buffer is granted or 256 frames wait. -/
def Obligations.FrameReceipt : Prop :=
  (∀ (n : PortNo) (rx : RxFrame) (s : State),
    ((s.lanesOf n).any s.landsOff = false → s.mode n ≠ 4 → 4 * (s.port n).loopAt ≤ s.edge64 rx.age →
      s.rxLine n rx = (some (rx, true, false), s)) ∧
    (s.mode n ≠ 4 → s.edge64 rx.age < 4 * (s.port n).loopAt → s.rxLine n rx = (some (rx, true, true), s)) ∧
    (∀ ds t, s.mode n = 4 → s.onzGet n 0 (rx.syms.map Fin.val) = (ds, t) →
      ((s.lanesOf n).any s.landsOff = false → 4 * (s.port n).loopAt ≤ s.edge64 rx.age →
        s.rxLine n rx = (some ({ rx with bytes := bitsBytes ds }, decide (ds.length % 8 = 0), false), t)) ∧
      (s.edge64 rx.age < 4 * (s.port n).loopAt →
        s.rxLine n rx = (some ({ rx with bytes := bitsBytes ds }, decide (ds.length % 8 = 0), true), t))) ∧
    (4 * (s.port n).loopAt ≤ s.edge64 rx.age → (s.lanesOf n).any s.landsOff = true →
      (∀ bs bad rest, (s.port n).loopRx = (bs, bad) :: rest →
        s.rxLine n rx = (some ({ rx with bytes := bs }, true, bad), s.setPort n { s.port n with loopRx := rest })) ∧
      ((s.port n).loopRx = [] → exec (.frameArrival n rx) s = .next s))) ∧
  ∀ (n : PortNo) (rx' rx : RxFrame) (whole hit : Bool) (s sl s0 : State), s.rxLine n rx' = (some (rx, whole, hit), sl) →
    s0 = ((sl.farEnd n rx).fecCount n rx.fecCorr rx.fecUncorr rx.fecSym).onzMarkerUp n →
    (s0.linkUp n = false → exec (.frameArrival n rx') s = .next s0) ∧
    (s0.linkUp n = true → whole = false → exec (.frameArrival n rx') s = .next (s0.addCnt (C.ONZ_ALIGN_ERR n) 1)) ∧
    (s0.linkUp n = true → whole = true → hit = true → rx.fecUncorr = 0 → exec (.frameArrival n rx') s =
      .next (s0.addCnt (if rx.pcsErr then C.RX_PCS_ERR n else C.RX_FCS_ERR n) 1)) ∧
    (s0.linkUp n = true → whole = true → hit = false → rx.pcsErr = false → rx.fecUncorr = 0 → s0.linkFrame rx.bytes = true →
      exec (.frameArrival n rx') s = .next (s0.linkFrameRx n rx.bytes rx.age) ∧
      (∀ c, s0.rxFault n rx = some c → ∃ t, t = s0.linkFrameRx n rx.bytes rx.age ∧ t.cnt c = min (s0.cnt c + 1) (2 ^ 48 - 1) ∧
        t.bpm = s0.bpm ∧ t.pipes = s0.pipes ∧ t.time = s0.time)) ∧
    (s0.linkUp n = true → whole = true → hit = false →
      (rx.pcsErr = true ∨ rx.fecUncorr ≠ 0 ∨ s0.linkFrame rx.bytes = false) →
      (∀ c, s0.rxFault n rx = some c →
        ∃ t, exec (.frameArrival n rx') s = .next t ∧ t.cnt c = min (s0.cnt c + 1) (2 ^ 48 - 1) ∧
          (∀ a, a ≠ c → t.cnt a = s0.cnt a) ∧ t.regs = s0.regs ∧ t.pipes = s0.pipes ∧ t.bpm = s0.bpm) ∧
      (s0.rxFault n rx = none → beNat (slice rx.bytes 12 2) ≠ 0x8808 → s0.pipeHeld (pipeOfPort n) = false →
        ∀ s1, s1 = (s0.addCnt (C.RX_FRAMES n) 1).addCnt (C.RX_BYTES n) rx.bytes.length →
          (∀ h s2 s3, s1.bpmAlloc (pipeOfPort n) rx.bytes.length rx.bytes = (.granted h, s2) →
            s3 = s2.mirrorCopy n 0 (s2.rxPkt n h rx) rx.bytes →
            ((s3.pipe (pipeOfPort n)).entry.length < 256 →
              ∃ t, exec (.frameArrival n rx') s = .next t ∧
                (t.pipe (pipeOfPort n)).entry = (s3.pipe (pipeOfPort n)).entry ++ [s2.rxPkt n h rx] ∧
                ∃ q, t = { s3 with pipes := q }) ∧
            (256 ≤ (s3.pipe (pipeOfPort n)).entry.length →
              exec (.frameArrival n rx') s = .next ((s3.addCnt (C.RX_ENTRY_DROP n) 1).bpmRelease (pipeOfPort n) h))) ∧
          (∀ a s2, (∀ h, a ≠ .granted h) → s1.bpmAlloc (pipeOfPort n) rx.bytes.length rx.bytes = (a, s2) →
            exec (.frameArrival n rx') s = .next (s2.addCnt (C.RX_ADMIT_DROP n) 1)))) ∧
    (∀ x : State, (rx.pcsErr = true → x.rxFault n rx = some (C.RX_PCS_ERR n)) ∧
      (rx.pcsErr = false → rx.fecUncorr = 0 →
        (fcsOk rx.bytes = false → x.rxFault n rx = some (C.RX_FCS_ERR n)) ∧
        (fcsOk rx.bytes = true → rx.bytes.length < 64 → x.rxFault n rx = some (C.RX_RUNT n)) ∧
        (fcsOk rx.bytes = true → 64 ≤ rx.bytes.length → x.maxLen n < rx.bytes.length → x.rxFault n rx = some (C.RX_OVERSIZE n)) ∧
        (fcsOk rx.bytes = true → 64 ≤ rx.bytes.length → rx.bytes.length ≤ x.maxLen n → x.rxFault n rx = none)))

/-- A request for a new buffer is granted only where all three conditions of R273 hold: the requester's holds are below its quota, the Pitch's
below its effective reserve or the Warden's below the unreserved count, and a slice that is not fenced has a free buffer. A grant takes a free
buffer of the smallest pool that takes the frame (a pool has at most 2^21 buffers), of the slice whose turn it is; the buffer then holds the
frame under one primary hold of the requester, charged to its owner, and every count moves at once. Where a condition fails nothing is
granted and no buffer changes. The release of the primary hold while copies remain ends the requester's charge and not the owner's; the
release of the last hold frees the buffer and ends that. -/
def Obligations.BufferGrant : Prop :=
  (∀ (s : State) (rq len q n : Nat) (bs : Bytes) (may : Prop), s.canonical → s.layoutFixed = true → s.poolFor len = some q →
    s.poolCount q ≤ 2 ^ 21 → n = s.rqOwner rq →
    (may ↔ s.rqHolds rq q < s.rqQuota rq q ∧ (n ≠ 0 → s.ownHolds n q < s.effRsv n q) ∧ (n = 0 → s.ownHolds n q < s.unreserved q) ∧
      ∃ sl, sl < 16 ∧ s.sliceFenced sl = false ∧ 0 < s.freeInSlice q sl) →
    (may → ∃ h t b, s.bpmAlloc rq len bs = (.granted h, t) ∧ poolOfH h = q ∧ s.buf h = none ∧ s.sliceFenced (sliceOfH h) = false ∧
      s.nextSlice q = some (sliceOfH h) ∧
      t.buf h = some b ∧ b.primary = some rq ∧ b.copies = [] ∧ b.owner = n ∧ b.bytes = bs ∧ b.holds = 1 ∧
      (∀ h', h' ≠ h → t.buf h' = s.buf h') ∧ t.rqHolds rq q = s.rqHolds rq q + 1 ∧ t.ownHolds n q = s.ownHolds n q + 1 ∧
      t.cnt (C.BPM_ADMITTED n) = min (s.cnt (C.BPM_ADMITTED n) + 1) (2 ^ 48 - 1) ∧ t.regs = s.regs ∧
      (t.bpmRelease rq h).buf h = none ∧ (∀ h', h' ≠ h → (t.bpmRelease rq h).buf h' = t.buf h')) ∧
    (¬may → ∃ a t, s.bpmAlloc rq len bs = (a, t) ∧ (∀ h, a ≠ .granted h) ∧ t.bpm = s.bpm)) ∧
  (∀ (s t : State) (h rq q : Nat) (b : Buf), s.canonical → s.buf h = some b → b.primary = some rq → q = poolOfH h → t = s.bpmRelease rq h →
    t.rqHolds rq q + 1 = s.rqHolds rq q ∧
    (b.copies ≠ [] → t.ownHolds b.owner q = s.ownHolds b.owner q ∧ t.buf h = some { b with primary := none }) ∧
    (b.copies = [] → t.ownHolds b.owner q + 1 = s.ownHolds b.owner q ∧ t.buf h = none)) ∧
  (∀ (s t : State) (h rq q : Nat) (b : Buf), s.canonical → s.buf h = some b → b.primary = none → b.copies = [rq] → q = poolOfH h →
    t = s.bpmRelease rq h → t.rqHolds rq q + 1 = s.rqHolds rq q ∧ t.ownHolds b.owner q + 1 = s.ownHolds b.owner q ∧ t.buf h = none)

/-- One tick of the berths of a half of a pipeline (R23, R25, R27, R28, R292, R315): of the packets that are ready in it the first 8, as far
as the credit lets them, take berths in the order of readiness and the rotating lane, or of selection and the rotating port, ports that the
last tick left unserved first, once in the tick; a selected frame is ready once its header window has been read. With the next tick of the
half the rotation moves on, from the second tick on, whether or not anything took a berth, and berths that nothing took had no credit; a
pipeline that does not run takes none. A packet is 8 ticks in the parser and counts as it leaves it. Each tick counts one column of berths, the
one that leaves the half, under its classes; a column that leaves before any has entered held nothing (log entry 157, DESIGN CHOICE). -/
def Obligations.Berths : Prop :=
  ∀ (p : PipeNo) (credit : Nat) (s : State),
    (s.pipeRuns p = false → ∀ eg, exec (.berthTake p eg credit) s = .next s) ∧
    (s.pipeRuns p = true → ∀ n q, q = s.pipe p →
      (q.egOpen = false → exec (.berthTake p true credit) s = .next s) ∧
      (q.igOpen = false → exec (.berthTake p false credit) s = .next s) ∧
      (∀ ready es, q.egOpen = true → ready = q.egress.filter (fun k => decide (k.tmTick ≤ s.tm.tick)) →
        es = egressOrder q.egWait q.egRot ready → n = min (min 8 es.length) credit →
        ∃ t, exec (.berthTake p true credit) s = .next t ∧
          (t.pipe p).egress = es.drop n ++ q.egress.filter (fun k => decide (s.tm.tick < k.tmTick)) ∧
          t.waiting p 16 = s.waiting p 16 ++ ((es.take n).zipIdx.map fun e => { e.1 with berth := e.2, tick := q.egTick }) ∧
          (t.pipe p).egWait = (egressPorts q.egWait q.egRot ready).filter (fun m => !((es.take n).map (·.outPort)).contains m) ∧
          (t.pipe p).egOpen = false ∧ (t.pipe p).egRot = q.egRot ∧ (t.pipe p).entry = q.entry ∧ t.regs = s.regs ∧ t.bpm = s.bpm) ∧
      (∀ es, q.igOpen = true → es = berthOrder q.rot (q.entry.filter q.isReady) → n = min (min 8 es.length) credit → ∀ s1 s2 (at_ : Pkt × Nat → Pkt),
        at_ = (fun e => { e.1 with berth := e.2, tick := q.igTick }) →
        s1 = s.setPipe p { q with entry := es.drop n ++ q.entry.filter (fun k => !q.isReady k), igOpen := false } →
        s2 = s1.setWaiting p 26 (s1.waiting p 26 ++ (es.take n).zipIdx.map fun e => s1.parsePkt p (at_ e)) →
        exec (.berthTake p false credit) s = .next (s2.setCols p false (s2.cols p false ++
          [{ tick := q.igTick, left := n, carried := 0, wasted := 0, front := 8 - min 8 es.length, back := min 8 es.length - n }])))) ∧
    (∀ out s1, out = (s.waiting p 26).filter (fun k => decide (k.tick + 8 ≤ (s.pipe p).igTick)) →
      s1 = s.setWaiting p 26 ((s.waiting p 26).filter fun k => decide ((s.pipe p).igTick < k.tick + 8)) →
      s.parserPass p = out.foldl (fun s k => s.parserOut p k) (s1.setWaiting p 0 (s1.waiting p 0 ++ out))) ∧
    (∀ (wait : List Nat) (rot : Nat) (ks : List Pkt) (m m' : Nat), m ∈ wait → m ∈ ks.map (·.outPort) → m' ∉ wait →
      m' ∈ ks.map (·.outPort) → (egressPorts wait rot ks).idxOf m < (egressPorts wait rot ks).idxOf m') ∧
    (∀ q q', q = s.pipe p →
      (q.igOpen = false → q' = { q with igTick := q.igTick + 1, igOpen := true, rot := if q.igTick = 0 then q.rot else (q.rot + 1) % 64 } →
        s.berthTick p false = s.setPipe p q') ∧
      (q.egOpen = false → q' = { q with egTick := q.egTick + 1, egOpen := true, egRot := if q.egTick = 0 then q.egRot else (q.egRot + 1) % 64 } →
        s.berthTick p true = s.setPipe p q') ∧
      (q.igOpen = true → s.berthTick p false = (s.berthIngress p 0).berthTick p false) ∧
      (q.egOpen = true → s.berthTick p true = (s.berthEgress p 0).berthTick p true)) ∧
    (∀ (eg : Bool) (c : Col),
      (∀ cs, s.cols p eg = c :: cs → c.tick + halfDepth eg ≤ (s.pipe p).now eg → s.colOut p eg = (s.colCount p eg c).setCols p eg cs) ∧
      ((s.cols p eg = [] ∨ ∃ c cs, s.cols p eg = c :: cs ∧ (s.pipe p).now eg < c.tick + halfDepth eg) →
        s.colOut p eg = s.colCount p eg emptyCol) ∧
      (∀ a k, (a, k) ∈ (if eg then
          [(C.EG_TICKS p, 1), (C.EG_CARRIED p, c.carried + c.left), (C.EG_WASTED p, c.wasted), (C.EG_STARVED_FRONT p, c.front),
            (C.EG_STARVED_BACK p, c.back)]
        else [(C.IG_TICKS p, 1), (C.IG_CARRIED p, c.carried + c.left), (C.IG_WASTED p, c.wasted), (C.IG_STARVED_FRONT p, c.front),
          (C.IG_STARVED_BACK p, c.back)]) → (s.colCount p eg c).cnt a = (s.cnt a + k) % 2 ^ 48))

/-- A packet passes a stage (R23, R160, R223, R292): the one that has waited longest is served, once the ticks that Table 1.2 gives it in the
stage have begun, and waits for the next stage, from ingress stage 15 for the traffic manager, which it enters when those ticks are over,
and from egress stage 7 for the deparser; an empty stage does nothing, nor does one whose pulse was withheld (R495; which command belongs
to which tick is log entry 166, DEDUCED). A packet whose ticks in the stage are over passes it within the half's tick; within them it passes
with its command (log entry 157, DESIGN CHOICE). -/
def Obligations.StagePassage : Prop :=
  ∀ (p : PipeNo) (st : StageNo) (s : State),
    (s.stageOn p st = false → exec (.stageEnter p st) s = .next s) ∧
    (s.waiting p st = [] → exec (.stageEnter p st) s = .next s) ∧
    (∀ k rest, s.waiting p st = k :: rest → (s.pipe p).now (decide (16 ≤ st.val)) < stageFrom k.tick st →
      exec (.stageEnter p st) s = .next s) ∧
    (∀ k rest k0 s0 k1 s1, s.stageOn p st = true → s.waiting p st = k :: rest →
      stageFrom k.tick st ≤ (s.pipe p).now (decide (16 ≤ st.val)) → s0 = s.setWaiting p st rest →
      k0 = (if st.val = 16 then s0.egressEntry p k else k) → s0.stageRun p st k0 = (k1, s1) →
      (st.val ≠ 15 → st.val ≠ 23 →
        ∃ t, exec (.stageEnter p st) s = .next t ∧ t.waiting p (st + 1) = s1.waiting p (st + 1) ++ [k1] ∧ ∃ q, t = { s1 with pipes := q }) ∧
      (st.val = 23 → ∀ k2 s2, s1.excAtExit p 1 k1 = (k2, s2) →
        ∃ t, exec (.stageEnter p st) s = .next t ∧ t.waiting p 25 = s2.waiting p 25 ++ [k2] ∧ ∃ q, t = { s2 with pipes := q }) ∧
      (st.val = 15 → ∀ k2 s2, s1.excAtExit p 0 k1 = (k2, s2) →
        exec (.stageEnter p st) s = .next ((s2.setWaiting p 27 (s2.waiting p 27 ++ [k2])).berthLeave p false k2.drop))) ∧
    (∃ q, s.tmEnter p = { s with pipes := q } ∧
      (s.tmEnter p).waiting p 24 = s.waiting p 24 ++
        ((s.waiting p 27).filter fun k => decide (stageBy k.tick 15 ≤ (s.pipe p).igTick)).map (fun k => { k with tmTick := s.tm.tick }) ∧
      (s.tmEnter p).waiting p 27 = (s.waiting p 27).filter fun k => decide ((s.pipe p).igTick < stageBy k.tick 15)) ∧
    (∀ k rest fuel, s.waiting p st = k :: rest →
      (stageBy k.tick st ≤ (s.pipe p).now (decide (16 ≤ st.val)) → s.stagePass p st (fuel + 1) = (s.stageEnter p st).stagePass p st fuel) ∧
      ((s.pipe p).now (decide (16 ≤ st.val)) < stageBy k.tick st → s.stagePass p st fuel = s))

/-- Enqueue (R292, R293, R294, R300): a packet that says DROP is dropped with its code, a reserved destination kind with 0xFF, a packet in a
fenced slice with 0xF4 (the place of this check in the order is log entry 37, DEDUCED); else the destination is resolved, the policer judges,
and the ingress limit drops it with 0xFA, with HEADROOM where it is lossless; then the limits of queue and port admit a unicast packet to its
queue, from which the scheduler may take it 3 ticks after it entered, or drop it with the code of the first check that fails; a multicast
packet moves its hold to the replicator, or is dropped with 0xF7 where it has no room for the hold and 0xF0 where 512 packets wait, and joins
the replicator's FIFO in tick t + 2. Packets whose three ticks are over pass within the traffic manager's tick (log entry 157, DESIGN CHOICE). -/
def Obligations.Enqueue : Prop :=
  ∀ (p : PipeNo) (s : State),
    (s.tmOn p = false → exec (.tmEnqueue p) s = .next s) ∧
    (s.waiting p 24 = [] → exec (.tmEnqueue p) s = .next s) ∧
    (∀ k rest s0, s.tmOn p = true → s.waiting p 24 = k :: rest → s0 = s.setWaiting p 24 rest →
      (k.drop = true → exec (.tmEnqueue p) s = .next (s0.dropWhole k k.dropCode)) ∧
      (k.drop = false → k.f 7 28 2 = 3 → exec (.tmEnqueue p) s = .next (s0.dropWhole k 0xFF)) ∧
      (k.drop = false → k.f 7 28 2 ≠ 3 → s0.bufFenced k.handle = true →
        exec (.tmEnqueue p) s = .next ((s0.sliceLoss k.rq k.handle).dropWhole k 0xF4)) ∧
      (k.drop = false → k.f 7 28 2 ≠ 3 → s0.bufFenced k.handle = false →
        (∀ code s1, s0.resolve p k = (.no code, s1) → exec (.tmEnqueue p) s = .next (s1.dropWhole k code)) ∧
        (∀ n s1 code s2, s0.resolve p k = (.one n, s1) → s1.police p k = (.error code, s2) →
          exec (.tmEnqueue p) s = .next (s2.dropWhole k code)) ∧
        (∀ n s1 k1 s2 c k2, s0.resolve p k = (.one n, s1) → s1.police p k = (.ok k1, s2) → c = k1.f 7 24 4 →
          k2 = { k1 with cls := c, lossless := s2.isLossless k1.port c, floor := s2.ttMark (s2.ownerOfPipe p) c } →
          s2.inOcc k1.port c + k1.len ≤ s2.fld (R.TM_IN_DROP k1.port c) F.TM_IN_DROP.UNITS * 256 →
          (s2.step6 n c k1.len (s2.isLossless k1.port c) = none →
            exec (.tmEnqueue p) s =
              .next ((s2.occAdd k1.port c k1.len).tmPush n c { k2 with inCharged := true, tmTick := k2.tmTick + 3 })) ∧
          (∀ code, s2.step6 n c k1.len (s2.isLossless k1.port c) = some code →
            exec (.tmEnqueue p) s = .next ((s2.qDropCount n c k1.len code).dropWhole k2 code))) ∧
        (∀ d s1 k1 s2 c, s0.resolve p k = (d, s1) → (∀ code, d ≠ .no code) → s1.police p k = (.ok k1, s2) → c = k1.f 7 24 4 →
          s2.fld (R.TM_IN_DROP k1.port c) F.TM_IN_DROP.UNITS * 256 < s2.inOcc k1.port c + k1.len →
          exec (.tmEnqueue p) s =
            .next ((if s2.isLossless k1.port c then s2.cause (R.TM_PORT_CAUSE k1.port) F.TM_PORT_CAUSE.HEADROOM else s2).dropWhole k1 0xFA)) ∧
        (∀ ns s1 code s2, s0.resolve p k = (.many ns, s1) → s1.police p k = (.error code, s2) →
          exec (.tmEnqueue p) s = .next (s2.dropWhole k code)) ∧
        (∀ ns s1 k1 s2 c k2 rq, s0.resolve p k = (.many ns, s1) → s1.police p k = (.ok k1, s2) → c = k1.f 7 24 4 →
          k2 = { k1 with cls := c, lossless := s2.isLossless k1.port c, floor := s2.ttMark (s2.ownerOfPipe p) c } →
          s2.inOcc k1.port c + k1.len ≤ s2.fld (R.TM_IN_DROP k1.port c) F.TM_IN_DROP.UNITS * 256 → rq = rqCode (s2.ownerOfPipe p) 6 →
          (∀ s3, s2.bpmMove rq k1.handle = (false, s3) → exec (.tmEnqueue p) s = .next (s3.dropWhole k2 0xF7)) ∧
          (∀ s3 k3, s2.bpmMove rq k1.handle = (true, s3) → k3 = { k2 with rq := rq, tmTick := k2.tmTick + 2 } →
            (512 ≤ (s3.pipe p).repl.length → exec (.tmEnqueue p) s = .next (s3.dropWhole k3 0xF0)) ∧
            ((s3.pipe p).repl.length < 512 → ∃ t, exec (.tmEnqueue p) s = .next t ∧
              (t.pipe p).repl = (s3.pipe p).repl ++ [({ k3 with kind := .replica }, ns)] ∧
              t.inOcc k1.port c = s3.inOcc k1.port c + k1.len ∧ t.bpm = s3.bpm ∧
              SMap.get (fun _ => none) t.tm.mc k1.handle =
                some { left := ns.length, port := k1.port, cls := c, len := k1.len, rq := rq, charged := true }))))) ∧
    (∀ fuel, s.tmPass p (fuel + 1) =
      match s.waiting p 24 with
      | [] => s
      | k :: _ => if k.tmTick + 3 ≤ s.tm.tick then (s.tmEnqueue p).tmPass p fuel else s) ∧
    (∀ k rest n c, s.tmOn p = true → s.waiting p 24 = k :: rest → k.drop = false → k.f 7 28 2 = 0 → n = k.f 7 0 16 % 1024 → c = k.f 7 24 4 →
      nbit (k.r 9) 31 = false → s.bufFenced k.handle = false → s.ownerOfPort n = s.ownerOfPipe p → s.portEnabled n = true →
      s.inOcc k.port c + k.len ≤ s.fld (R.TM_IN_DROP k.port c) F.TM_IN_DROP.UNITS * 256 →
      s.step6 n c k.len (s.isLossless k.port c) = none →
      ∃ t k', exec (.tmEnqueue p) s = .next t ∧ (t.tmq n c).pkts = (s.tmq n c).pkts ++ [k'] ∧ k'.handle = k.handle ∧ k'.len = k.len ∧
        k'.cls = c ∧ k'.outPort = n ∧ k'.inCharged = true ∧ k'.tmTick = k.tmTick + 3 ∧ t.inOcc k.port c = s.inOcc k.port c + k.len ∧ t.waiting p 24 = rest ∧
        t.cnt (C.TM_Q_ENQ_FRAMES n c) = min (s.cnt (C.TM_Q_ENQ_FRAMES n c) + 1) (2 ^ 48 - 1)) ∧
    (∀ (t : State) (n c : Nat) (k : Pkt), ∃ k', (t.tmPush n c k).cnt (C.TM_Q_ENQ_FRAMES n c) =
        min (t.cnt (C.TM_Q_ENQ_FRAMES n c) + 1) (2 ^ 48 - 1) ∧
      ((t.tmPush n c k).tmq n c).pkts = (t.tmq n c).pkts ++ [k'] ∧ k'.handle = k.handle ∧ k'.len = k.len ∧ k'.cls = c ∧ k'.outPort = n)

/-- The replicator makes at most 16 replicas in a tick, of the packet at its head, once in the tick and not before the packet is in its FIFO,
each meeting the limits of its queue one tick later (R300); one whose port is no longer enabled is dropped and counted with 0xF2 (R295). -/
def Obligations.Replicator : Prop :=
  ∀ (p : PipeNo) (s : State),
    (s.tmOn p = false → exec (.replicaMake p) s = .next s) ∧
    ((s.pipe p).repl = [] → exec (.replicaMake p) s = .next s) ∧
    (∀ k ns rest, (s.pipe p).repl = (k, ns) :: rest → (s.tm.tick < k.tmTick ∨ s.tm.tick < (s.pipe p).replAt) →
      exec (.replicaMake p) s = .next s) ∧
    (∀ k ns rest k0 s0, s.tmOn p = true → (s.pipe p).repl = (k, ns) :: rest → k.tmTick ≤ s.tm.tick → (s.pipe p).replAt ≤ s.tm.tick →
      k0 = { k with tmTick := s.tm.tick + 1 } →
      s0 = s.setPipe p { s.pipe p with repl := if ns.length ≤ 16 then rest else (k, ns.drop 16) :: rest, replAt := s.tm.tick + 1 } →
      exec (.replicaMake p) s = .next ((ns.take 16).foldl (fun s n =>
        if s.portEnabled n = false then s.dropQueued n k.cls k0 0xF2
        else match s.step6 n k.cls k.len k.lossless with
          | some code => s.dropQueued n k.cls k0 code
          | none => s.tmPush n k.cls k0) s0))

/-- The port scheduler (R312, R313, R314, R390): a port whose link is down selects nothing; the one frame of an unheld strict queue goes
where nothing else waits; a Timetable frame that is due goes first; else
the highest strict class of the committed queues, else of the peak ones, goes; among DWRR queues the deficits choose. A frame selected
leaves its queue, counts, and waits for an egress berth, which it can take 25 ticks later (R292). Which packet is the head of a queue with
Timetable packets is log entry 147 (DEDUCED), and how a pause stops its class log entry 150 (DESIGN CHOICE). -/
def Obligations.Scheduler : Prop :=
  ∀ (n : PortNo) (s : State),
    ((s.tmOn (pipeOfPort n) = false ∨ s.linkUp n = false ∨ s.portOk n = false) → exec (.schedulerSelect n) s = .next s) ∧
    (s.tmOn (pipeOfPort n) = true → s.linkUp n = true → s.portOk n = true → ∀ due ptr,
      due = (s.ttHeld n).filter (fun e =>
        e.1.dueNow && !s.held n e.1.cls && s.peakOk n e.1.cls && decide (e.1.tmTick ≤ s.tm.tick)) →
      ptr = s.fld (R.PORT_TT_TIE n) F.PORT_TT_TIE.PTR →
      (∀ k d, ttFirst ptr due = some (k, d) → (∀ e ∈ due, e.2 = d → e.1 = k) →
        exec (.schedulerSelect n) s = .next (s.dispatch n k.cls k)) ∧
      (∀ k d, ttFirst ptr due = some (k, d) → (∃ e ∈ due, e.2 = d ∧ e.1 ≠ k) →
        exec (.schedulerSelect n) s =
          .next ((s.setFld (R.PORT_TT_TIE n) F.PORT_TT_TIE.PTR ((k.port + 1) % 1024)).dispatch n k.cls k)) ∧
      (due = [] → ∀ s1 elig com set, s1 = s.dwrrClear n →
        elig = (List.range 16).filterMap (fun c => (s1.eligible n c).map fun k => (c, k)) →
        com = elig.filter (fun e => decide ((s1.qShp n e.1).cir ≠ 0) &&
          bucketOk (s1.tmq n e.1).cb (s1.qShp n e.1).cir (s1.qShp n e.1).cbs s1.clk16) →
        set = (if com = [] then elig else com) →
        (∀ c k, (set.filter fun e => !s1.isDwrr n e.1).getLast? = some (c, k) → exec (.schedulerSelect n) s = .next (s1.dispatch n c k)) ∧
        (set = [] → exec (.schedulerSelect n) s = .next s1) ∧
        (∀ s2 c k, (set.filter fun e => !s1.isDwrr n e.1) = [] →
          s1.dwrr n set 3000 (s1.ptm n).cur (s1.ptm n).visited = (s2, some (c, k)) →
          exec (.schedulerSelect n) s = .next (s2.dispatch n c k)))) ∧
    (∀ (c : ClassNo) k rest, s.tmOn (pipeOfPort n) = true → s.linkUp n = true → s.portOk n = true → (s.tmq n c).pkts = k :: rest →
      k.tmTick ≤ s.tm.tick →
      (∀ x ∈ k :: rest, x.floor = none) → (∀ d, d < 16 → d ≠ c.val → (s.tmq n d).pkts = []) → s.held n c = false →
      s.peakOk n c = true → s.isDwrr n c = false → s.bufFenced k.handle = false →
      ∃ t, exec (.schedulerSelect n) s = .next t ∧ (t.tmq n c).pkts = rest ∧
        (t.pipe (pipeOfPort n)).egress = (s.pipe (pipeOfPort n)).egress ++ [{ k with tmTick := s.tm.tick + 25 }] ∧
        t.cnt (C.TM_Q_TX_FRAMES n c) = min (s.cnt (C.TM_Q_TX_FRAMES n c) + 1) (2 ^ 48 - 1) ∧ t.regs = s.regs) ∧
    (∀ (t : State) (c : Nat) (k : Pkt), t.bufFenced k.handle = false →
      ((t.dispatch n c k).tmq n c).pkts = (t.tmq n c).pkts.erase k ∧
      ((t.dispatch n c k).pipe (pipeOfPort n)).egress = (t.pipe (pipeOfPort n)).egress ++ [{ k with tmTick := t.tm.tick + 25 }] ∧
      (t.dispatch n c k).cnt (C.TM_Q_TX_FRAMES n c) = min (t.cnt (C.TM_Q_TX_FRAMES n c) + 1) (2 ^ 48 - 1) ∧ (t.dispatch n c k).regs = t.regs)

/-- A held Timetable packet becomes due when the time base reaches its release instant (R389): in its queue the packets that have a floor
and whose instant has come are marked due, with the late reason that holds then; nothing else changes. -/
def Obligations.TimetableRelease : Prop :=
  ∀ (n : PortNo) (c : ClassNo) (s : State), s.pipeRuns (pipeOfPort n) = true →
    ∃ t, exec (.ttReleaseDue n c) s = .next t ∧ (t.tmq n c).pkts.length = (s.tmq n c).pkts.length ∧
      (∀ (i : Nat) (k : Pkt), (s.tmq n c).pkts[i]? = some k →
        (k.floor = none → (t.tmq n c).pkts[i]? = some k) ∧
        (k.dueNow = true → (t.tmq n c).pkts[i]? = some k) ∧
        (∀ fl, k.floor = some fl → k.dueNow = false →
          (s.ttReached n (s.ttDue k fl) = true → (t.tmq n c).pkts[i]? = some { k with dueNow := true, reason := s.lateReason n c }) ∧
          (s.ttReached n (s.ttDue k fl) = false → (t.tmq n c).pkts[i]? = some k))) ∧
      (∀ m d, (m ≠ n.val ∨ d ≠ c.val) → m < 1024 → d < 16 → t.tmq m d = s.tmq m d) ∧ ∃ q, t = { s with tm := q }

/-- The deparser (R96, R108, R219, R223, R288, R371): a packet that egress drops counts under its code and is gone; a port that is not
enabled loses the packet, as does a fenced slice and a port whose generator drives (in which of two counters is log entry 111, DESIGN CHOICE),
and a packet whose owner no longer holds its buffer sends nothing (log entry 158, DESIGN CHOICE); the whole frame is read through SECDED (log
entry 42, DEDUCED); a frame longer than MAXLEN passes the copy point and is dropped and counted (log entry 141, DEDUCED);
else the frame, with what was inserted and a new FCS, waits at the MAC for its slot, never before the frame ahead has ended, at the boundary
that the operand names where more than one will do (log entry 145, DESIGN CHOICE). It reaches the deparser's end 32 ticks after its berth, and
not in a tick whose pulse was withheld (R23, R495). -/
def Obligations.Deparser : Prop :=
  ∀ (p : PipeNo) (slot : Nat) (s : State),
    (s.stageOn p 16 = false → exec (.deparse p slot) s = .next s) ∧
    (s.waiting p 25 = [] → exec (.deparse p slot) s = .next s) ∧
    (∀ k rest, s.waiting p 25 = k :: rest → (s.pipe p).egTick < k.tick + 32 → exec (.deparse p slot) s = .next s) ∧
    (∀ k rest s0, s.stageOn p 16 = true → s.waiting p 25 = k :: rest → k.tick + 32 ≤ (s.pipe p).egTick → s0 = s.setWaiting p 25 rest →
      (k.runs = true → k.drop = true →
        exec (.deparse p slot) s =
          .next ((((s0.berthLeave p true true).addCnt (C.EG_DROP p k.dropCode) 1).wbDropped k).pktGone k false)) ∧
      (∀ s1 n, (k.runs = false ∨ k.drop = false) → s1 = s0.berthLeave p true false → n = k.outPort →
        (s1.portEnabled n = false → exec (.deparse p slot) s = .next ((s1.wbDropped k).pktGone k false)) ∧
        (s1.portEnabled n = true → s1.ownBuf (s1.rqOwner k.rq) k.handle = false →
          exec (.deparse p slot) s = .next ((s1.wbDropped k).pktGone k false)) ∧
        (s1.portEnabled n = true → s1.ownBuf (s1.rqOwner k.rq) k.handle = true → s1.bufFenced k.handle = true →
          exec (.deparse p slot) s = .next (((s1.sliceLoss k.rq k.handle).wbDropped k).pktGone k false)) ∧
        (s1.portEnabled n = true → s1.ownBuf (s1.rqOwner k.rq) k.handle = true → s1.bufFenced k.handle = false → s1.genOn n = true →
          exec (.deparse p slot) s = .next (((s1.genDrop n).wbDropped k).pktGone k false)) ∧
        (∀ frame bad s2 e, s1.portEnabled n = true → s1.ownBuf (s1.rqOwner k.rq) k.handle = true → s1.bufFenced k.handle = false →
          s1.genOn n = false →
          frame = (s1.buf k.handle).elim [] (·.bytes) → s1.readBuf k.handle 0 frame.length = (bad, s2) → e = s2.rawOut p k frame →
          (s2.maxLen n < (wholeOut k e).length → exec (.deparse p slot) s =
            .next ((((s2.mirrorCopy n 1 k (wholeOut k e)).addCnt (C.TX_OVERSIZE_DROP n) 1).wbDropped k).pktGone k false)) ∧
          ((wholeOut k e).length ≤ s2.maxLen n → exec (.deparse p slot) s = .next (s2.toMac n slot k e bad) ∧
            ∀ s3, k.runs = false → k.floor = none → s3 = s2.mirrorCopy n 1 k (wholeOut k e) →
              ∃ f, ((s2.toMac n slot k e bad).ptm n).tx = (s3.ptm n).tx ++ [f] ∧ f.pkt = k ∧ f.bytes = wholeOut k e ∧ f.bad = bad ∧
                f.start = s2.txSlot n slot none ∧ f.stop = f.start + s3.wire16 n f.bytes.length ∧ f.started = false ∧ f.reason = 0 ∧
                ((s2.toMac n slot k e bad).ptm n).lastEnd = f.stop)))) ∧
    (∀ k rest b n, s.stageOn p 16 = true → s.waiting p 25 = k :: rest → k.tick + 32 ≤ (s.pipe p).egTick → k.kind = .injected → n = k.outPort → k.floor = none → s.portEnabled n = true →
      s.genOn n = false → s.ownBuf (s.rqOwner k.rq) k.handle = true → s.bufFenced k.handle = false → s.buf k.handle = some b → b.flips = [] →
      (b.bytes.take k.len).length ≤ s.maxLen n → s.bit R.PIT_MIR_CTL F.PIT_MIR_CTL.EN = false →
      ∃ t f, exec (.deparse p slot) s = .next t ∧ (t.ptm n).tx = (s.ptm n).tx ++ [f] ∧ f.pkt = k ∧ f.bytes = b.bytes.take k.len ∧
        f.start = s.txSlot n slot none ∧ f.stop = f.start + s.wire16 n f.bytes.length ∧ f.started = false ∧ f.bad = false ∧
        (t.ptm n).lastEnd = f.stop ∧ t.waiting p 25 = rest) ∧
    (∀ (t : State) (n : Nat) (d : Option Int), max t.t16 (max (t.ptm n).lastEnd (t.ptm n).ctlEnd) ≤ t.txSlot n slot d)

/-- The MAC (R99, R108, R114, R119, R121, R131, R270, R346, R371, R381, R393, R395): the next frame starts, a Timetable frame is counted, as
late where it is, and an Onazel port sends its symbols together or a forwarded-clock port lines its blocks up (log entry 137, DEDUCED), none
with the link down; a frame that has started ends, is counted, leaves the part where the port drives its lands, only with its link up (log
entry 44, DEDUCED), or comes back through a loopback, and releases its hold, and control frames whose slot comes next leave after it. A
control frame in line, of flow control, of a time link or of a calibration, goes at the next boundary that nothing whose slot is fixed takes,
behind the frames whose slots come first (log entry 43, DEDUCED), and not before a Timetable frame whose target it would pass; one longer than
MAXLEN is dropped and counted, and one to a port whose generator drives is dropped. -/
def Obligations.MacFrames : Prop :=
  ∀ (n : PortNo) (s : State),
    (∀ f, (s.ptm n).tx.find? (fun f => !f.started) = some f → f.pkt.floor = none →
      ∃ s1, (s1.ptm n).tx = (s.ptm n).tx.map (fun g => if g = f then { g with started := true } else g) ∧ (∃ q, s1 = { s with tm := q }) ∧
        ((s.linkUp n = false ∨ s.mode n ≠ 4 ∧ s.mode n ≠ 5) → exec (.frameTxStart n) s = .next s1) ∧
        (s.linkUp n = true → s.mode n = 4 → exec (.frameTxStart n) s = .next (s1.onzSendFrame n f.sent)) ∧
        (s.linkUp n = true → s.mode n = 5 → exec (.frameTxStart n) s = .next (s1.fwdFrame n f.sent) ∧
          ((s1.fwdFrame n f.sent).port n).fwdQ = (s.port n).fwdQ ++ frameBlocks (s.port n).gap f.sent)) ∧
    (∀ f fl s1, (s.ptm n).tx.find? (fun f => !f.started) = some f → f.pkt.floor = some fl →
      s1 = (s.setPtm n { s.ptm n with tx := (s.ptm n).tx.map fun g => if g = f then { g with started := true } else g }).lineFrame n f.sent →
      ∃ t, exec (.frameTxStart n) s = .next t ∧ t = s1.ttSent n f.pkt.port f.reason f.late (s1.ttDue f.pkt fl) ∧
        t.cnt (C.TT_DUE n) = min (s1.cnt (C.TT_DUE n) + 1) (2 ^ 48 - 1) ∧
        (f.reason = 0 → t = s1.addCnt (C.TT_DUE n) 1) ∧
        (f.reason ≠ 0 → t.cnt (C.TT_LATE n) = min (s1.cnt (C.TT_LATE n) + 1) (2 ^ 48 - 1) ∧
          (t.reg (R.PORT_TT_LATE_MAX n)).toNat = max (s1.reg (R.PORT_TT_LATE_MAX n)).toNat (min f.late (2 ^ 32 - 1)) ∧
          (t.reg (R.TT_CAUSE (s1.ownerOfPort n))).getLsbD F.TT_CAUSE.LATE.lo = true)) ∧
    ((s.ptm n).tx.find? (fun f => !f.started) = none → exec (.frameTxStart n) s = .next s) ∧
    (∀ f rest s1 s2, (s.ptm n).tx = f :: rest → f.started = true → s.mode n ≠ 4 →
      s1 = s.setPtm n { s.ptm n with tx := rest } →
      s2 = (s1.addCnt (C.TX_FRAMES n) 1).addCnt (C.TX_BYTES n) f.bytes.length →
      s2.cnt (C.TX_FRAMES n) = min (s.cnt (C.TX_FRAMES n) + 1) (2 ^ 48 - 1) ∧
      s2.cnt (C.TX_BYTES n) = min (s.cnt (C.TX_BYTES n) + f.bytes.length) (2 ^ 48 - 1) ∧
      (s.loopedBack n = true → s.linkUp n = true → exec (.frameTxEnd n) s =
        .next (((s2.setPort n { s2.port n with loopRx := (s2.port n).loopRx ++ [(f.sent, false)] }).ctlLeave n).pktGone f.pkt true)) ∧
      (s.loopedBack n = false → s.macDrives n = true →
        exec (.frameTxEnd n) s = .next (((s2.emit (.frame n f.sent false)).ctlLeave n).pktGone f.pkt true)) ∧
      (s.loopedBack n = false → s.macDrives n = false → exec (.frameTxEnd n) s = .next ((s2.ctlLeave n).pktGone f.pkt true))) ∧
    ((s.ptm n).ctlLine = [] → s.ctlLeave n = s) ∧
    (∀ rest b start, (s.ptm n).ctl = .fc :: rest → s.linkUp n = true → s.genOn n = false → s.macDrives n = true → s.loopedBack n = false →
      s.mode n ≠ 4 → s.mode n ≠ 5 → 64 ≤ s.maxLen n → (s.ptm n).ctlLine = [] → start = s.ctlStart n (s.wire16 n 64) →
      s.ttBefore n (start + s.wire16 n 64) = false → s.fcFrame n = some b →
      ∃ t, exec (.controlFrameSend n) s = .next t ∧ (t.ptm n).ctl = rest ∧
        (t.ptm n).changed = 0 ∧ t.cnt (C.TX_MAC_CTRL n) = min (s.cnt (C.TX_MAC_CTRL n) + 1) (2 ^ 48 - 1) ∧ t.regs = s.regs ∧
        ((∀ f ∈ (s.ptm n).tx, f.started = false ∧ start < f.start) →
          t.outbox = s.outbox ++ [.ctrlFrame n (withFcs b)] ∧ (t.ptm n).ctlLine = []) ∧
        ((∃ f ∈ (s.ptm n).tx, f.started = true ∨ f.start ≤ start) → t.outbox = s.outbox ∧ (t.ptm n).ctlLine = [(start, b)])) ∧
    (∀ c rest len start t s1, (s.ptm n).ctl = c :: rest → len = (match c with | .timeLink _ => 68 | _ => 64) →
      start = s.ctlStart n (s.wire16 n len) → t = s.egressStamp n start →
      s1 = s.setPtm n { s.ptm n with ctl := rest, ctlEnd := start + s.wire16 n len, spans := spanAdd start (start + s.wire16 n len) (s.ptm n).spans } →
      ((s.linkUp n = false ∨ s.ttBefore n (start + s.wire16 n len) = true) → exec (.controlFrameSend n) s = .next s) ∧
      (s.linkUp n = true → s.ttBefore n (start + s.wire16 n len) = false →
        (s.genOn n = true → exec (.controlFrameSend n) s = .next (s.setPtm n { s.ptm n with ctl := rest })) ∧
        (s.genOn n = false → s.maxLen n < len →
          exec (.controlFrameSend n) s = .next ((s.setPtm n { s.ptm n with ctl := rest }).addCnt (C.TX_OVERSIZE_DROP n) 1)) ∧
        (s.genOn n = false → len ≤ s.maxLen n →
          (∀ k, c = .timeLink k →
            exec (.controlFrameSend n) s = .next ((s1.tlSentAt k t).ctlGive n start (s.tlFrame k n t)) ∧
            ((s1.tlSentAt k t).tlSt k).sent = t :: (s1.tlSt k).sent.take 3) ∧
          (∀ q, c = .cal q → s1.calRun n = none → exec (.controlFrameSend n) s = .next (s1.ctlGive n start (s.calFrame n q))) ∧
          (∀ q r, c = .cal q → s1.calRun n = some r →
            exec (.controlFrameSend n) s =
              .next ((s1.setCal n (some { r with sent := r.sent ++ [(q, t, start)] })).ctlGive n start (s.calFrame n q)))))) ∧
    (∀ (u : State) (start : Nat) (b : Bytes), u.mode n ≠ 4 → u.mode n ≠ 5 → u.loopedBack n = false → u.macDrives n = true →
      (u.ptm n).tx = [] → (u.ptm n).ctlLine = [] → ∃ t, u.ctlGive n start b = t ∧ t.outbox = u.outbox ++ [.ctrlFrame n (withFcs b)] ∧
        (t.ptm n).ctlLine = [] ∧ { t with outbox := u.outbox, tm := u.tm } = u) ∧
    (((s.reg (R.TM_FC_STATUS n)).toNat ≠ 0 → ∃ t, exec (.pfcRefresh n) s = .next t ∧ CtlKind.fc ∈ (t.ptm n).ctl ∧ ∃ q, t = { s with tm := q }) ∧
      ((s.reg (R.TM_FC_STATUS n)).toNat = 0 → exec (.pfcRefresh n) s = .next s))

/-- Received MAC control frames (R111, Table 4.2): a pause frame in FC_MODE 1 pauses all 16 classes, a PFC frame in FC_MODE 2 each class mapped
from an enabled priority whose bit it sets; these count in RX_MAC_CTRL. In another mode, without such a bit, or with another opcode nothing is
paused and the frame counts in RX_MAC_CTRL_OTHER. A write of FC_MODE 3 is stored, acts as 0 and sets PORT_CAUSE.CFG. A pause time that ends
releases its class. -/
def Obligations.PauseReceipt : Prop :=
  ∀ (n : PortNo) (s : State),
    (∀ (bs : Bytes) (op : Nat), op = beNat (slice bs 14 2) → s.linkUp n = true →
      (op = 1 → ∀ q : Fin 65536, q.val = beNat (slice bs 16 2) → exec (.pauseRx n q) s = .next (s.macCtrlRx n bs)) ∧
      (op = 0x0101 → ∀ vec : Fin 65536, vec.val = beNat (slice bs 16 2) →
        exec (.pfcRx n vec ((List.range 8).map fun p => beNat (slice bs (18 + 2 * p) 2))) s = .next (s.macCtrlRx n bs)) ∧
      (op ≠ 1 → op ≠ 0x0101 → ∃ t, exec (.macCtrlOtherRx n) s = .next t ∧ s.macCtrlRx n bs = t.stallEvals n)) ∧
    (∀ (vec : Fin 65536) (qs : List Nat), s.linkUp n = true →
      (s.fcMode n ≠ 2 ∨ ∀ i, i < 8 → nbit vec i = true → (s.pfcClass n i).isSome = false) →
      ∃ t, exec (.pfcRx n vec qs) s = .next t ∧ t.ports = s.ports ∧ t.regs = s.regs ∧
        t.cnt (C.RX_MAC_CTRL_OTHER n) = min (s.cnt (C.RX_MAC_CTRL_OTHER n) + 1) (2 ^ 48 - 1) ∧ t.cnt (C.RX_MAC_CTRL n) = s.cnt (C.RX_MAC_CTRL n)) ∧
    (∀ v : Word, fldOf v F.PORT_CTL.FC_MODE = 3 → fldOf v F.PORT_CTL.EN = 0 → fldOf v F.PORT_CTL.MAXLEN = s.fld (R.PORT_CTL n) F.PORT_CTL.MAXLEN →
      s.bit (R.PORT_CTL n) F.PORT_CTL.EN = false → s.fcMode n ≠ 3 →
      (s.portCtlWrite n v).fcMode n = 3 ∧ ((s.portCtlWrite n v).reg (R.PORT_CAUSE n)).getLsbD F.PORT_CAUSE.CFG.lo = true) ∧
    (∀ q, s.linkUp n = true → s.fcMode n = 1 →
      ∃ t, exec (.pauseRx n q) s = .next t ∧ (∀ c, c < 16 → t.paused n c = decide (q ≠ 0)) ∧ (∀ m, m ≠ n.val → t.port m = s.port m) ∧
        t.regs = s.regs ∧ t.cnt (C.RX_MAC_CTRL n) = min (s.cnt (C.RX_MAC_CTRL n) + 1) (2 ^ 48 - 1)) ∧
    (∀ q, s.linkUp n = true → s.fcMode n ≠ 1 → ∃ t, exec (.pauseRx n q) s = .next t ∧ t.ports = s.ports ∧ t.regs = s.regs ∧
      t.cnt (C.RX_MAC_CTRL_OTHER n) = min (s.cnt (C.RX_MAC_CTRL_OTHER n) + 1) (2 ^ 48 - 1)) ∧
    (∀ (vec : Fin 65536) (qs : List Nat), s.linkUp n = true → s.fcMode n = 2 →
      (∃ i, i < 8 ∧ nbit vec i = true ∧ (s.pfcClass n i).isSome = true) →
      ∃ t, exec (.pfcRx n vec qs) s = .next t ∧
        (∀ c, (∀ i, i < 8 → nbit vec i = true → s.pfcClass n i ≠ some c) → t.paused n c = s.paused n c) ∧
        (∀ c i, i < 8 → nbit vec i = true → s.pfcClass n i = some c → qs.getD i 0 ≠ 0 →
          (∀ j, j < 8 → j ≠ i → s.pfcClass n j ≠ some c) → t.paused n c = true) ∧
        t.regs = s.regs ∧ t.cnt (C.RX_MAC_CTRL n) = min (s.cnt (C.RX_MAC_CTRL n) + 1) (2 ^ 48 - 1)) ∧
    (s.linkUp n = true → ∃ t, exec (.macCtrlOtherRx n) s = .next t ∧ t.regs = s.regs ∧ t.ports = s.ports ∧
      t.cnt (C.RX_MAC_CTRL_OTHER n) = min (s.cnt (C.RX_MAC_CTRL_OTHER n) + 1) (2 ^ 48 - 1) ∧ (∀ a, a ≠ C.RX_MAC_CTRL_OTHER n → t.cnt a = s.cnt a)) ∧
    (∀ c : ClassNo, s.paused n c = true →
      ∃ t, exec (.pauseExpiry n c) s = .next t ∧ t.paused n c = false ∧ (∀ m, m ≠ n.val → t.port m = s.port m) ∧
        (∀ d, d ≠ c.val → d < 16 → t.paused n d = s.paused n d) ∧ t.regs = s.regs ∧ t.cnts = s.cnts)

/-- A port goes away and comes back (R297, R310, R322). LIVE sets where the link is up, and nothing else changes. A port whose link stays
down for DOWN_FLUSH begins to drop, with its cause, and each of its queues is emptied; a port whose link is up, which is not enabled, which
drops already or whose DOWN_FLUSH is 0 does nothing. The watchdog's look passes over every queue, of which one that is stalled for its time
enters discard mode and one that is empty for it leaves. -/
def Obligations.PortAway : Prop :=
  ∀ (n : PortNo) (s : State),
    (s.linkUp n = true → exec (.portLiveSet n) s = .next (s.setLive n true) ∧ (s.setLive n true).live n = true ∧
      (∀ b, b ≠ n.val → b < 1024 → (s.setLive n true).live b = s.live b) ∧ (s.setLive n true).downDrop n = s.downDrop n ∧
      (∀ a, a ≠ R.TM_PORT_STATUS n → (s.setLive n true).reg a = s.reg a) ∧ ∃ r, s.setLive n true = { s with regs := r }) ∧
    (s.linkUp n = false → exec (.portLiveSet n) s = .next s) ∧
    (s.linkUp n = false → s.portEnabled n = true → s.downDrop n = false → s.fld (R.TM_PORT_CTL n) F.TM_PORT_CTL.DOWN_FLUSH ≠ 0 →
      ∃ s1 s2, s1 = s.setBit (R.TM_PORT_STATUS n) F.TM_PORT_STATUS.DOWN_DROP true ∧ s1.downDrop n = true ∧
        s2 = s1.ariseF (R.TM_PORT_CAUSE n) F.TM_PORT_CAUSE.DOWN_FLUSH ∧ exec (.downFlushExpiry n) s = .next (s2.flushPort n 0xF6) ∧
        (∀ c, c < 16 → ((s2.flushQueue n c 0xF6).tmq n c).pkts = [])) ∧
    ((s.linkUp n = true ∨ s.portEnabled n = false ∨ s.downDrop n = true ∨ s.fld (R.TM_PORT_CTL n) F.TM_PORT_CTL.DOWN_FLUSH = 0) →
      exec (.downFlushExpiry n) s = .next s) ∧
    exec .watchdogCheck s = .next (s.tm.q.foldl (fun s e => s.wdLook (e.1 / 16) (e.1 % 16)) s) ∧
    (∀ c, c < 16 →
      (s.discarding n c = true →
        (∀ x, (s.tmq n c).emptyAt = some x → x + s.wdTime n ≤ s.clk16 → s.wdLook n c = s.wdLeave n c ∧ (s.wdLeave n c).discarding n c = false) ∧
        (∀ x, (s.tmq n c).emptyAt = some x → s.clk16 < x + s.wdTime n → s.wdLook n c = s) ∧
        ((s.tmq n c).emptyAt = none → s.wdLook n c = s)) ∧
      (s.discarding n c = false →
        (∀ x, s.wdTime n ≠ 0 → (s.tmq n c).stallAt = some x → x + s.wdTime n ≤ s.clk16 → s.wdLook n c = s.wdEnter n c) ∧
        (∀ x, (s.tmq n c).stallAt = some x → s.clk16 < x + s.wdTime n → s.wdLook n c = s) ∧
        ((s.tmq n c).stallAt = none → s.wdLook n c = s))) ∧
    (∀ c q, s.tm.q = [(n.val * 16 + c, q)] → c < 16 → s.wdTime n ≠ 0 →
      (∀ x, s.discarding n c = false → q.stallAt = some x → x + s.wdTime n ≤ s.clk16 →
        exec .watchdogCheck s = .next (s.wdEnter n c)) ∧
      (∀ x, s.discarding n c = true → q.emptyAt = some x → x + s.wdTime n ≤ s.clk16 →
        exec .watchdogCheck s = .next (s.wdLeave n c)) ∧
      (s.discarding n c = false → q.stallAt = none → exec .watchdogCheck s = .next s)) ∧
    (∀ c b, c < 16 → (s.setDiscard n c b).discarding n c = b ∧ ∀ d, d ≠ c → (s.setDiscard n c b).discarding n d = s.discarding n d)

/-- The indirect commands of an exact-match table (R168, R182, Table 6.6), by a function that may give them, on a stage that runs none, of a
pipeline that is loaded and not held, for a table that is defined. The command is taken: GO reads 1 and RESULT 0xF until the engine of the
stage, with no invalidation before it, has carried it out, in at most 48 ticks. Then READ_ADDR answers the entry at a location, WRITE_ADDR
writes one, LOOKUP answers the entry with the key, INSERT inserts one whose key is not held, UPDATE rewrites and DELETE clears the one
with the key, each with its result; FLUSH_DYNAMIC begins. The location that is shown where R182 names none is log entry 118 (DESIGN CHOICE),
and at which of the 48 ticks an operation ends is free (log entry 136, DESIGN CHOICE). An invalidation that comes while the command runs waits
for its end. -/
def Obligations.EmIndirect : Prop :=
  (∀ (fn : FnNo) (p : PipeNo) (st : StageNo) (v : Word) (s : State) (t : Nat) (s1 : Nat → State),
    s.writable fn (R.STG_IA_CMD p st) = true → s.bit (R.STG_IA_CMD p st) F.STG_IA_CMD.GO = false →
    s.pipeHeld p = false → (s.pipe p).img.isSome = true → t = fldOf v F.STG_IA_CMD.TABLE → s.emDefined p st t = true →
    (∀ op, s1 op = ((s.wrote fn (R.STG_IA_CMD p st) (putFlds v [(F.STG_IA_CMD.OP, op), (F.STG_IA_CMD.GO, 1)])).iaTake p st
      .indirect).iaDone p st 0xF 0) →
    ((fldOf v F.STG_IA_CMD.STASH = 0 → fldOf v F.STG_IA_CMD.ROW < s.emD p st t) →
      (fldOf v F.STG_IA_CMD.STASH ≠ 0 → fldOf v F.STG_IA_CMD.ROW < 16) →
      exec (.emReadAddr fn p st v) s = .next ((s1 0).settle s) ∧ exec (.emWriteAddr fn p st v) s = .next ((s1 1).settle s)) ∧
    exec (.emLookupCmd fn p st v) s = .next ((s1 2).settle s) ∧
    exec (.emInsert fn p st v) s = .next ((s1 3).settle s) ∧
    exec (.emUpdate fn p st v) s = .next ((s1 4).settle s) ∧
    exec (.emDelete fn p st v) s = .next ((s1 5).settle s) ∧
    exec (.emFlushDynamic fn p st v) s = .next ((s1 6).settle s) ∧
    (∀ op, op < 7 → (s1 op).bit (R.STG_IA_CMD p st) F.STG_IA_CMD.GO = true ∧ ((s1 op).emStage p st).job = some .indirect ∧
      (s1 op).fld (R.STG_IA_CMD p st) F.STG_IA_CMD.OP = op ∧ (s1 op).fld (R.STG_IA_CMD p st) F.STG_IA_CMD.TABLE = t ∧
      (s1 op).reg (R.STG_IA_STATUS p st) = 0xF0000000)) ∧
  (∀ (p : PipeNo) (st : StageNo) (s : State), (s.emStage p st).toClear ≠ [] →
    ((s.emStage p st).job = none ∨ (s.emStage p st).onJob = false) → 47 ≤ (s.emStage p st).busy →
    ∃ x : State, s.iaTurn p st = x.parityInvalidate p st ∧ x.emStage p st = { s.emStage p st with busy := 0 } ∧
      { x with em := s.em, freeIx := s.freeIx } = s) ∧
  (∀ (p : PipeNo) (st : StageNo) (s : State), ((s.emStage p st).toClear = [] ∨ (s.emStage p st).onJob = true) →
    (s.emStage p st).job = some .indirect →
    (47 ≤ (s.emStage p st).busy → ∃ x : State, s.iaTurn p st = x.iaRun p st ∧ x.emStage p st = { s.emStage p st with busy := 0, job := none } ∧
      x.bit (R.STG_IA_CMD p st) F.STG_IA_CMD.GO = false ∧ (∀ a, a ≠ R.STG_IA_CMD p st → x.reg a = s.reg a) ∧
      (∀ f ∈ [F.STG_IA_CMD.OP, F.STG_IA_CMD.TABLE, F.STG_IA_CMD.STASH, F.STG_IA_CMD.WAY, F.STG_IA_CMD.ROW],
        x.fld (R.STG_IA_CMD p st) f = s.fld (R.STG_IA_CMD p st) f) ∧
      { x with regs := s.regs, em := s.em, freeIx := s.freeIx } = s)) ∧
  (∀ (p : PipeNo) (st : StageNo) (s : State) (op t row loc : Nat), op = s.fld (R.STG_IA_CMD p st) F.STG_IA_CMD.OP →
    t = s.fld (R.STG_IA_CMD p st) F.STG_IA_CMD.TABLE → row = s.fld (R.STG_IA_CMD p st) F.STG_IA_CMD.ROW → s.emDefined p st t = true →
    loc = (if s.bit (R.STG_IA_CMD p st) F.STG_IA_CMD.STASH then stashLoc t row
      else wayLoc t (s.fld (R.STG_IA_CMD p st) F.STG_IA_CMD.WAY) row) →
    ((if s.bit (R.STG_IA_CMD p st) F.STG_IA_CMD.STASH then row < 16 else row < s.emD p st t) →
      (op = 0 → (s.emRow p st loc).bad = [] → s.iaRun p st = (s.iaReturn p st loc).iaDone p st 0 loc) ∧
      (op = 0 → (s.emRow p st loc).bad ≠ [] → s.iaRun p st = ((s.iaReturn p st loc).emParity p st loc false).iaDone p st 8 loc) ∧
      (op = 1 → s.iaRun p st = (s.emWrite p st loc (s.iaBytes p st (s.emE p st (locTable loc)))).iaDone p st 0 loc)) ∧
    (∀ x, s.iaFind p st t = (none, x) →
      (op = 2 → s.iaRun p st = x.iaDone p st 1 0) ∧ (op = 4 → s.iaRun p st = x.iaDone p st 1 0) ∧ (op = 5 → s.iaRun p st = x.iaDone p st 1 0) ∧
      (op = 3 →
        (∀ l y, x.emInsert p st t (x.iaEntry p st t) 3 true = (.inserted l, y) → s.iaRun p st = y.iaDone p st 0 l) ∧
        (∀ l y, x.emInsert p st t (x.iaEntry p st t) 3 true = (.stashed l, y) → s.iaRun p st = y.iaDone p st 2 l) ∧
        (∀ l old y, x.emInsert p st t (x.iaEntry p st t) 3 true = (.evicted l old, y) →
          s.iaRun p st = (y.setIaBytes p st (fitBytes (y.emE p st t) old.bytes)).iaDone p st 3 l) ∧
        (∀ y, x.emInsert p st t (x.iaEntry p st t) 3 true = (.failed, y) → s.iaRun p st = y.iaDone p st 4 0))) ∧
    (∀ l x, s.iaFind p st t = (some l, x) →
      (op = 2 → s.iaRun p st = (x.iaReturn p st l).iaDone p st 0 l) ∧ (op = 3 → s.iaRun p st = x.iaDone p st 5 l) ∧
      (op = 4 → s.iaRun p st = (x.emWrite p st l (x.iaEntry p st t)).iaDone p st 0 l) ∧
      (op = 5 → s.iaRun p st = ((x.emClear p st l).emFreed p st l).iaDone p st 0 l)) ∧
    (op = 6 → s.iaRun p st = ((s.setEmStage p st { s.emStage p st with flush := some 0 }).setBit (R.STG_IA_CMD p st) F.STG_IA_CMD.GO
      true).iaDone p st 0xF 0))

/-- The table engine of a stage (R168, R171, R173, R178, R179, R182): with no earlier work the learn request at the head is acted on, or
waits where its notifications have no room; a key that no location holds is inserted, one that a dynamic entry holds refreshes it or, with
another action or other data, rewrites it, and one that a static or a marked entry holds is refused, the marked entry being judged before an
unmarked one (R261); a freed row draws an entry from the stash, with its timestamp read; a row that failed parity is cleared and notified; a
flush takes 16 indexes at a step and ends with the stash. What runs is ended first, and without a tick nothing is done (R495). Where a failed
insertion is shown is log entry 118, and the order of two notifications log entry 164 (both DESIGN CHOICE). -/
def Obligations.EmEngine : Prop :=
  ∀ (p : PipeNo) (st : StageNo) (s : State),
    ((s.stageOn p st = false ∨ (s.emStage p st).busy ≠ 0) →
      exec (.learnProcess p st) s = .next s ∧ exec (.stashReinsert p st) s = .next s ∧ exec (.parityInvalidate p st) s = .next s ∧
      exec (.emFlushStep p st) s = .next s) ∧
    (s.stageOn p st = true → (s.emStage p st).busy = 0 →
    (∀ q rest s1 notes s2 on, s.emLearnTurn p st = true → (s.emStage p st).learn = q :: rest →
      s1 = s.setEmStage p st { s.emStage p st with learn := rest } → s1.learnOutcome p st q = (notes, s2) →
      on = notes.filter (fun n => s.noteOn p st q.table n.1) →
      (on.length ≤ s.noteRoom p st →
        exec (.learnProcess p st) s = .next (on.foldl (fun s n => s.pushNote p st n.1 n.2.1 n.2.2) s2)) ∧
      (s.noteRoom p st < on.length → exec (.learnProcess p st) s = .next s)) ∧
    (∀ loc rest s1, s.emLearnTurn p st = true → s.learnNext p st = none → (s.emStage p st).freed = loc :: rest →
      s1 = s.setEmStage p st { s.emStage p st with freed := rest } →
      (s1.stashPick p st loc = none → exec (.stashReinsert p st) s = .next s1) ∧
      (∀ l s2 r, s1.stashPick p st loc = some l → s2 = s1.emTsRead p st l → r = s2.emRow p st l →
        (∀ d s3, s2.emPlace p st (locTable loc) 0 (r.key (s2.emK p st (locTable loc))) = (some d, s3) →
          exec (.stashReinsert p st) s = .next ((s3.setEmRow p st d r).setEmRow p st l r.clear)) ∧
        (∀ s3, s2.emPlace p st (locTable loc) 0 (r.key (s2.emK p st (locTable loc))) = (none, s3) →
          exec (.stashReinsert p st) s = .next s3))) ∧
    (∀ loc rest s1, (s.emStage p st).toClear = loc :: rest → s1 = s.setEmStage p st { s.emStage p st with toClear := rest } →
      ((s.emRow p st loc).bad = [] → exec (.parityInvalidate p st) s = .next s1) ∧
      ((s.emRow p st loc).bad ≠ [] →
        exec (.parityInvalidate p st) s = .next ((s1.emClear p st loc).pushNote p st 7 loc (s.emRow p st loc).bytes))) ∧
    (∀ i t, (s.emStage p st).toClear = [] → (s.emStage p st).flush = some i → t = s.fld (R.STG_IA_CMD p st) F.STG_IA_CMD.TABLE →
      (i * 16 < s.emD p st t → ∃ s1, s1 = s.flushLocs p st ((List.range 16).flatMap fun k => (List.range 4).map fun w => wayLoc t w (i * 16 + k)) ∧
        exec (.emFlushStep p st) s = .next (s1.setEmStage p st { s1.emStage p st with flush := some (i + 1) })) ∧
      (s.emD p st t ≤ i * 16 → ∃ s1 s2 u, s1 = s.flushLocs p st (stashLocs t) ∧
        s2 = s1.setEmStage p st { s1.emStage p st with flush := none } ∧ exec (.emFlushStep p st) s = .next u ∧
        u = (s2.setBit (R.STG_IA_CMD p st) F.STG_IA_CMD.GO false).iaDone p st 0 0 ∧ u.bit (R.STG_IA_CMD p st) F.STG_IA_CMD.GO = false ∧
        (u.reg (R.STG_IA_STATUS p st)).toNat = 0))) ∧
    (∀ q rest t notes s2, (s.emStage p st).learn = q :: rest → t = q.table →
      (s.emFind p st t q.key (fun _ => true)).1 = none →
      s.learnOutcome p st q = (notes, s2) →
      (∃ e s3 o, s3 = s.emParities p st (s.emFind p st t q.key (fun _ => true)).2 ∧ e = emEntry (s.emE p st t) false q.action q.key q.data ∧
        o = s3.emInsert p st t e 3 true ∧
        (∀ l, o.1 = .inserted l ∨ o.1 = .stashed l → notes = [(1, l, e)] ∧ s2 = o.2.addCnt (C.EM_LEARNED p st t) 1) ∧
        (∀ l old, o.1 = .evicted l old → notes = [(1, l, e), (5, l, old.bytes)] ∧ s2 = o.2.addCnt (C.EM_LEARNED p st t) 1) ∧
        (o.1 = .failed → notes = [(6, t * 2 ^ 20, e)] ∧ s2 = o.2.addCnt (C.EM_INSERT_FAIL p st t) 1))) ∧
    (∀ q rest t l s3 r e data, (s.emStage p st).learn = q :: rest → t = q.table →
      (s.emFind p st t q.key EmRow.marked).1.or (s.emFind p st t q.key (fun _ => true)).1 = some l →
      s3 = s.emParities p st (s.emFind p st t q.key (fun _ => true)).2 → r = s3.emRow p st l →
      e = emEntry (s.emE p st t) false q.action q.key q.data → data = (fun b => (fitBytes (s3.emE p st t) b).drop (4 + s3.emK p st t)) →
      ((r.static = true ∨ r.marked = true) → ∃ b, s.learnOutcome p st q = ([(3, l, b)], s3.addCnt (C.EM_MOVE_REFUSED p st t) 1)) ∧
      (r.static = false → r.marked = false →
        (r.action = q.action → data r.bytes = data e → s.learnOutcome p st q =
          ([], (s3.setEmRow p st l { r with ts := s3.emUnit p st t, tsBad := false }).addCnt (C.EM_LEARN_REFRESH p st t) 1)) ∧
        ((r.action ≠ q.action ∨ data r.bytes ≠ data e) → s.learnOutcome p st q =
          ([(2, l, e)], (s3.setEmRow p st l { bytes := e, ts := s3.emUnit p st t }).addCnt (C.EM_MOVED p st t) 1))))

/-- One visit of the ager (R176): it looks in turn at the four ways of one index, or at the stash, of the tables that are defined, begins
again after the last, and moves on by one where nothing stopped it; a half without a tick has none, and an engine that runs an operation
ends it first (R168). A look at a whole, valid,
dynamic entry whose age has reached the limit clears and counts it, or stops where its notification finds no room (R181); a static or a
marked entry, a younger one, or a table without a limit it leaves; an entry that fails parity it reports (R179). -/
def Obligations.AgerVisit : Prop :=
  ∀ (p : PipeNo) (st : StageNo) (s : State),
    ((s.stageOn p st = false ∨ (s.emStage p st).busy ≠ 0) → exec (.agerVisit p st) s = .next s) ∧
    (s.stageOn p st = true → (s.emStage p st).busy = 0 → ∃ tabs i locs u,
      tabs = (List.range 4).filter (fun t => s.emDefined p st t) ∧
      i = (if (s.agerVisitLocs p st tabs (s.emStage p st).ager).isSome then (s.emStage p st).ager else 0) ∧
      locs = (s.agerVisitLocs p st tabs i).getD [] ∧
      u = locs.foldl (fun acc l => if acc.1 then acc.2.ageLoc p st l else acc) (true, s) ∧
      exec (.agerVisit p st) s = .next (u.2.setEmStage p st { u.2.emStage p st with ager := if u.1 then i + 1 else i }) ∧
      ((∀ l ∈ locs, s.ageLoc p st l = (true, s)) →
        exec (.agerVisit p st) s = .next (s.setEmStage p st { s.emStage p st with ager := i + 1 }))) ∧
    (∀ t rest i, (i < s.emD p st t → s.agerVisitLocs p st (t :: rest) i = some ((List.range 4).map fun w => wayLoc t w i)) ∧
      s.agerVisitLocs p st (t :: rest) (s.emD p st t) = some (stashLocs t) ∧
      s.agerVisitLocs p st (t :: rest) (s.emD p st t + 1 + i) = s.agerVisitLocs p st rest i) ∧
    (∀ loc, (s.emRow p st loc).bad ≠ [] → s.ageLoc p st loc = (true, s.emParity p st loc false)) ∧
    (∀ loc r t, r = s.emRow p st loc → t = locTable loc → r.bad = [] → r.tsBad = false →
      ((s.fld (R.STG_EM_AGE p st t) F.STG_EM_AGE.AGE_LIMIT = 0 ∨ r.valid = false ∨ r.static = true ∨ r.marked = true ∨
          (s.emUnit p st t + 65536 - r.ts) % 65536 < s.fld (R.STG_EM_AGE p st t) F.STG_EM_AGE.AGE_LIMIT) → s.ageLoc p st loc = (true, s)) ∧
      (s.fld (R.STG_EM_AGE p st t) F.STG_EM_AGE.AGE_LIMIT ≠ 0 → r.valid = true → r.static = false → r.marked = false →
        s.fld (R.STG_EM_AGE p st t) F.STG_EM_AGE.AGE_LIMIT ≤ (s.emUnit p st t + 65536 - r.ts) % 65536 →
        (s.noteOn p st t 4 = true → s.noteRoom p st = 0 → s.ageLoc p st loc = (false, s)) ∧
        ((s.noteOn p st t 4 = false ∨ s.noteRoom p st ≠ 0) → ∃ u, s.ageLoc p st loc = (true, u) ∧
          (u.emRow p st loc) = r.clear ∧ (∀ l, l ≠ loc → u.emRow p st l = s.emRow p st l) ∧
          u.cnt (C.EM_AGED p st t) = min (s.cnt (C.EM_AGED p st t) + 1) (2 ^ 48 - 1))))

/-- The indirect commands of the TCAM engine (R201, R202, R203, R210, Table 7.4), by a function that may give them, on an engine that runs
none, of a pipeline that is loaded and not held, for a table that is defined and an address within it. The command is taken: GO reads 1 and
RESULT 0xF until the engine has carried it out, in at most 1,024 ticks once it has begun, a position search in at most 16. READ_ADDR answers
an entry and compares its copies, WRITE_ADDR writes, DELETE_ADDR clears,
UPDATE_RESULT changes the result, SEARCH answers the winner, FLUSH clears the table; an INSERT that finds its place makes its copies, one
in a tick, and ends with the entry; else it ends with its refusal. The address that is shown where R210 names none is log entry 118, and at
which of those ticks an operation ends is free (log entry 136; both DESIGN CHOICE). -/
def Obligations.TcIndirect : Prop :=
  (∀ (fn : FnNo) (p : PipeNo) (v : Word) (s : State) (st t a : Nat) (s1 : Nat → State),
    s.writable fn (R.TC_IA_CMD p) = true → s.bit (R.TC_IA_CMD p) F.TC_IA_CMD.GO = false → s.pipeHeld p = false →
    (s.pipe p).img.isSome = true →
    st = fldOf v F.TC_IA_CMD.STAGE → t = fldOf v F.TC_IA_CMD.TABLE → a = fldOf v F.TC_IA_CMD.ADDR →
    s.tcDefined p st t = true → a < 1024 * s.tcSlices p st t →
    (∀ op, s1 op = ((s.wrote fn (R.TC_IA_CMD p) (putFlds v [(F.TC_IA_CMD.OP, op), (F.TC_IA_CMD.GO, 1)])).tcTake p .indirect).tcDone p 0xF 0) →
    exec (.tcReadAddr fn p v) s = .next ((s1 0).settle s) ∧
    exec (.tcWriteAddr fn p v) s = .next ((s1 1).settle s) ∧
    exec (.tcInsert fn p v) s = .next ((s1 2).settle s) ∧
    exec (.tcDeleteAddr fn p v) s = .next ((s1 3).settle s) ∧
    exec (.tcUpdateResult fn p v) s = .next ((s1 4).settle s) ∧
    exec (.tcSearchCmd fn p v) s = .next ((s1 5).settle s) ∧
    exec (.tcFlush fn p v) s = .next ((s1 6).settle s) ∧
    (∀ op, op < 7 → (s1 op).bit (R.TC_IA_CMD p) F.TC_IA_CMD.GO = true ∧ ((s1 op).tcPipe p).job = some .indirect ∧
      (s1 op).fld (R.TC_IA_CMD p) F.TC_IA_CMD.OP = op ∧ (s1 op).fld (R.TC_IA_STATUS p) F.TC_IA_STATUS.RESULT = 0xF)) ∧
  (∀ (p : PipeNo) (s : State), (s.tcPipe p).move = none → (s.tcPipe p).job = some .indirect →
    (1023 ≤ (s.tcPipe p).busy ∨ s.fld (R.TC_IA_CMD p) F.TC_IA_CMD.OP = 2 ∧ 15 ≤ (s.tcPipe p).busy) →
    ∃ x : State, s.tcTurn p = x.tcRun p ∧ (x.tcPipe p).rows = (s.tcPipe p).rows ∧ (x.tcPipe p).toClear = (s.tcPipe p).toClear ∧
      x.regs = s.regs ∧ { x with tc := s.tc, freeIx := s.freeIx } = s) ∧
  (∀ (p : PipeNo) (s f : State) (op st t a k : Nat) (r : TcRow), op = s.fld (R.TC_IA_CMD p) F.TC_IA_CMD.OP →
    st = s.fld (R.TC_IA_CMD p) F.TC_IA_CMD.STAGE → t = s.fld (R.TC_IA_CMD p) F.TC_IA_CMD.TABLE →
    a = s.fld (R.TC_IA_CMD p) F.TC_IA_CMD.ADDR → k = tcKey st t a → f = s.tcFree p → r = f.tcRow p k →
    s.tcDefined p st t = true → a < 1024 * s.tcSlices p st t →
    (op = 0 → (∀ j, j < f.tcW p st t → tcCompare r (f.tcW p st t) j = .same) →
      s.tcRun p = (f.tcReturn p st t r).tcDone p (if r.valid then 0 else 1) a) ∧
    (op = 1 → s.tcRun p = ((f.setTcRow p k (f.tcIaEntry p st t 3)).tcOutside p r).tcDone p 0 a) ∧
    (op = 2 → (∀ res, s.tcInsert p st t (s.tcIaEntry p st t 3) = .inl res →
        s.tcRun p = (f.setFld (R.TC_IA_STATUS p) F.TC_IA_STATUS.MOVES 0).tcDone p res 0) ∧
      (∀ m, s.tcInsert p st t (s.tcIaEntry p st t 3) = .inr m → s.tcRun p = s.setTcPipe p { s.tcPipe p with move := some m })) ∧
    (op = 3 → (r.valid = false → s.tcRun p = f.tcDone p 1 a) ∧
      (r.valid = true → s.tcRun p = ((f.setTcRow p k r.clear).tcOutside p r).tcDone p 0 a)) ∧
    (op = 4 → (r.valid = false → s.tcRun p = f.tcDone p 1 a) ∧
      (r.valid = true → s.tcRun p = ((f.setTcRow p k
        { r with action := f.tcIaAction p, data := f.tcIaData p, see := 3 }).tcOutside p r).tcDone p 0 a)) ∧
    (op = 5 → ∀ g best bad x y, g = f.tcMask p st t (f.fld (R.TC_IA_ENT p) F.TC_IA_ENT.GSEL) →
      f.tcSearch p st t (f.tcIaVal p (f.tcW p st t)) g (f.iaTag p) = (best, bad, x) →
      y = (if bad then x.addCnt (C.TC_SLICE_PAR_MISS p st t) 1 else x) →
      (best = none → s.tcRun p = y.tcDone p 1 0) ∧
      (∀ k' r', best = some (k', r') → s.tcRun p = (y.tcReturn p st t r').tcDone p 0 (k' % 2 ^ 17))) ∧
    (op = 6 → s.tcRun p = f.tcFlush p st t ∧
      ∀ e ∈ ((f.tcFlush p st t).tcPipe p).rows, e.1 / 2 ^ 17 = 2 * st + t → ((f.tcFlush p st t).tcRow p e.1).valid = false)) ∧
  (∀ (p : PipeNo) (s : State) (m : TcMove),
    (∀ c rest, m.todo = c :: rest → ∃ u, s.tcMoveTurn p m = u ∧ (u.tcPipe p).move = some { m with todo := rest, pair := some c } ∧
      u.tcRow p c.1 = (s.tcRow p c.2).copied ∧ (∀ k, k ≠ c.1 → u.tcRow p k = s.tcRow p k) ∧ u.regs = s.regs) ∧
    (m.todo = [] → (s.tcPipe p).job = some .indirect → ∃ u, s.tcMoveTurn p m = u ∧ (u.tcPipe p).move = none ∧ (u.tcPipe p).job = none ∧
      u.tcRow p m.key = m.row ∧ (∀ k, k ≠ m.key → u.tcRow p k = s.tcRow p k) ∧ u.bit (R.TC_IA_CMD p) F.TC_IA_CMD.GO = false ∧
      u.fld (R.TC_IA_STATUS p) F.TC_IA_STATUS.RESULT = 0 ∧ u.fld (R.TC_IA_STATUS p) F.TC_IA_STATUS.ADDR = m.key % 2 ^ 17 ∧
      u.cnt (C.TC_INSERTS p) = min (s.cnt (C.TC_INSERTS p) + 1) (2 ^ 48 - 1)))

/-- The TCAM engine's own work (R192, R201, R204, R206, R207): TAKE puts the staged mask sets in use; a visit of the scrubber in its turn
counts and moves on by one row, and where the two copies differ it writes them alike or, where they differ in what they mean, reports the
entry, which then waits for invalidation where it lasts; out of its turn, or switched off, it visits nothing; the entry that waits longest
is cleared in both copies, once no operation runs, whatever its VALID reads (R261); and a half without a tick does neither (R495). That the
waiting invalidation keeps its row is log entry 174 (DESIGN CHOICE). -/
def Obligations.TcEngine : Prop :=
  ∀ (fn : FnNo) (p : PipeNo) (s : State),
    (∀ (st : StageNo) (t : Fin 2), s.writable fn (R.TC_GMASK_CTL p st t) = true →
      ∃ u, exec (.tcGmaskTake fn p st t) s = .next (u.settle s) ∧ (∃ m, u = { s with gmask := m }) ∧
        ∀ g k, g < 4 → k < 20 → SMap.get (fun _ => 0xFFFFFFFF) u.gmask (((p * 24 + st) * 2 + t) * 80 + g * 20 + k) = s.reg (R.TC_GMASK p st t g k)) ∧
    (s.stageOn p 0 = true → s.scrubTurn p = true → ∀ s1, s1 = s.setTcPipe p { s.tcPipe p with since := 0 } →
      (((s.pipe p).img = none ∨ s.bit (R.TC_SCRUB_CTL p) F.TC_SCRUB_CTL.EN = false ∨ ∃ img, (s.pipe p).img = some img ∧ tcBlocks img = []) →
        exec (.scrubVisit p) s = .next s1) ∧
      (∀ img b first blk st t sl j w row k r s2 s3 blk' row', (s.pipe p).img = some img →
        s.bit (R.TC_SCRUB_CTL p) F.TC_SCRUB_CTL.EN = true → tcBlocks img = first :: (tcBlocks img).tail →
        b = s.fld (R.TC_SCRUB_POS p) F.TC_SCRUB_POS.BLOCK →
        ((tcBlocks img).find? (fun x => decide (b ≤ x.1))).getD first = (blk, st, t, sl, j) →
        row = (if blk = b then s.fld (R.TC_SCRUB_POS p) F.TC_SCRUB_POS.ROW else 0) →
        (blk', row') = (if row + 1 < 1024 then (blk, row + 1) else ((((tcBlocks img).find? fun x => decide (blk < x.1)).getD first).1, 0)) →
        blk' < 2 ^ F.TC_SCRUB_POS.BLOCK.w →
        w = s.tcW p st t → k = tcKey st t (sl * 1024 + row) → r = s.tcRow p k → s2 = s1.addCnt (C.TC_SCRUB_ROWS p) 1 →
        s3 = (match tcCompare r w j with
          | .same => s2
          | .normal => ((s2.setTcRow p k (tcNormalise r w j)).addCnt (C.TC_NORMALISED p) 1).cause (R.TC_CAUSE p) F.TC_CAUSE.NORMALISED
          | .mismatch => s2.tcFault p k false
          | .parity => s2.tcFault p k true) →
        ∃ u, exec (.scrubVisit p) s = .next u ∧ u.fld (R.TC_SCRUB_POS p) F.TC_SCRUB_POS.BLOCK = blk' ∧
          u.fld (R.TC_SCRUB_POS p) F.TC_SCRUB_POS.ROW = row' ∧ u.tcPipe p = s3.tcPipe p ∧ u.cnts = s3.cnts ∧
          (∀ a, a ≠ R.TC_SCRUB_POS p → u.reg a = s3.reg a) ∧
          u.cnt (C.TC_SCRUB_ROWS p) = min (s.cnt (C.TC_SCRUB_ROWS p) + 1) (2 ^ 48 - 1) ∧
          (tcCompare r w j = .same → u.tcPipe p = { s.tcPipe p with since := 0 }))) ∧
    ((s.stageOn p 0 = false ∨ s.scrubTurn p = false) → exec (.scrubVisit p) s = .next s) ∧
    (s.stageOn p 0 = true → (s.tcPipe p).runs = false → ∀ k rest r, (s.tcPipe p).toClear = k :: rest → r = s.tcRow p k →
      ∃ u, exec (.tcInvalidate p) s = .next u ∧ u.tcRow p k = r.clear ∧ (u.tcPipe p).toClear = rest ∧
        (∀ k', k' ≠ k → u.tcRow p k' = s.tcRow p k') ∧ (r.marked = false → u.regs = s.regs ∧ u.cnts = s.cnts) ∧
        (r.marked = true → u.cnt (C.VER_GRP_LOST p) = min (s.cnt (C.VER_GRP_LOST p) + 1) (2 ^ 48 - 1) ∧
          (u.reg (R.VER_CAUSE (s.ownerOfPipe p))).getLsbD F.VER_CAUSE.GRP_LOST.lo = true)) ∧
    ((s.stageOn p 0 = false ∨ (s.tcPipe p).runs = true ∨ (s.tcPipe p).toClear = []) → exec (.tcInvalidate p) s = .next s) ∧
    (∀ k parity, ∃ u, u = s.tcFault p k parity ∧ (s.tcPipe p).lasting k ∈ (u.tcPipe p).toClear ∧ (u.tcPipe p).rows = (s.tcPipe p).rows)

/-- The version commands (R248, R252, R253), by a function that may give them, in the window of a pipeline of Pitch n that is not in
reset: OPEN opens a group, is held while a change retires, or is refused; COMMIT of an idle or open Pitch leaves at once for every
pipeline, or waits for a Round boundary, while which an OPEN is still accepted (log entry 47, DEDUCED); ABANDON of an open group begins to
undo it and cancels a COMMIT that waits (log entry 45, DEDUCED); while a group operation runs both are refused with
0x5; another code is refused with 0x4. -/
def Obligations.VersionCommands : Prop :=
  ∀ (fn : FnNo) (p : PipeNo) (v : Word) (s : State) (n : Nat) (s1 : Nat → State),
    s.writable fn (verAddr p) = true → n = s.ownerOfPipe p → s.inReset n = false →
    (∀ c, s1 c = s.wrote fn (verAddr p) (putFlds v [(F.VER_CMD.CMD, c), (F.VER_CMD.GO, 1)])) →
    (s.verState n = 0 → ∃ t : State, t = ((s1 1).setVerState n 1).verResult n 0 ∧ exec (.verOpen fn p v) s = .next (t.settle s) ∧
      t.verState n = 1 ∧ t.fld (R.VER_CMD n) F.VER_CMD.RESULT = 0) ∧
    ((s.verState n = 3 ∨ s.verState n = 4 ∨ s.verState n = 5) → ∃ t : State, exec (.verOpen fn p v) s = .next (t.settle s) ∧
      t.bit (R.VER_STATUS n) F.VER_STATUS.OPEN_HELD = true ∧ t.verState n = s.verState n ∧ t.fld (R.VER_CMD n) F.VER_CMD.RESULT = 3 ∧
      t = ((s1 1).setBit (R.VER_STATUS n) F.VER_STATUS.OPEN_HELD true).verResult n 3) ∧
    ((s.verState n = 1 ∨ s.verState n = 2) → ∃ t : State, exec (.verOpen fn p v) s = .next (t.settle s) ∧ t = (s1 1).verResult n 1 ∧
      t.fld (R.VER_CMD n) F.VER_CMD.RESULT = 1 ∧ (t.reg (R.VER_CAUSE n)).getLsbD F.VER_CAUSE.CMD_REFUSED.lo = true) ∧
    (s.verState n ≤ 1 → s.groupRuns n = false → fldOf v F.VER_CMD.AT_ROUND = 0 →
      ∃ t : State, exec (.verCommit fn p v) s = .next (t.settle s) ∧
        t = ((s1 2).verResult n 0).commitLeave n ∧ t.verState n = 2 ∧ (∀ q ∈ s.pipesOf n, (t.pipe q).landing = true) ∧
        t.fld (R.VER_CMD n) F.VER_CMD.RESULT = 0) ∧
    (s.verState n ≤ 1 → s.groupRuns n = false → fldOf v F.VER_CMD.AT_ROUND = 1 →
      ∃ t : State, exec (.verCommit fn p v) s = .next (t.settle s) ∧ t.verState n = s.verState n ∧
        (t.verSt n).atRound = some s.boundariesLeft ∧ t.pipes = s.pipes ∧ t.fld (R.VER_CMD n) F.VER_CMD.RESULT = 0) ∧
    (s.verState n = 1 → s.groupRuns n = false → ∃ t : State, exec (.verAbandon fn p v) s = .next (t.settle s) ∧ t.verState n = 5 ∧
      (t.verSt n).atRound = none ∧ t.fld (R.VER_CMD n) F.VER_CMD.RESULT = 0) ∧
    (s.groupRuns n = true →
      (s.verState n ≤ 1 → ∃ t : State, exec (.verCommit fn p v) s = .next (t.settle s) ∧ t = (s1 2).verResult n 5 ∧
        t.fld (R.VER_CMD n) F.VER_CMD.RESULT = 5 ∧ t.verState n = s.verState n) ∧
      (s.verState n = 1 → ∃ t : State, exec (.verAbandon fn p v) s = .next (t.settle s) ∧ t = (s1 3).verResult n 5 ∧
        t.fld (R.VER_CMD n) F.VER_CMD.RESULT = 5 ∧ t.verState n = s.verState n)) ∧
    ((fldOf v F.VER_CMD.CMD = 0 ∨ 4 ≤ fldOf v F.VER_CMD.CMD) → ∃ t : State, exec (.verBadCmd fn p v) s = .next (t.settle s) ∧
      t = (s.wrote fn (verAddr p) (putFlds v [(F.VER_CMD.GO, 1)])).verResult n 4 ∧ t.fld (R.VER_CMD n) F.VER_CMD.RESULT = 4)

/-- How a version change goes on (R252, R254, R258, R259, R260): a pipeline that a commit crosses to takes the new tag, the last of the
Pitch counts the version and begins the drain; a drain with no old packet left is timed and retires; retiring and abandoning sweep every
pipeline (a row that an abandon frees may receive a stash entry: log entry 174, DESIGN CHOICE) and end, a held OPEN taking effect; a drain over its limit, an old packet living, is late and raises its cause, and one within
its limit goes on. -/
def Obligations.VersionProgress : Prop :=
  ∀ (s : State),
    (∀ (p : PipeNo) n s1, n = s.ownerOfPipe p → (s.pipe p).landing = true →
      s1 = (s.setPipe p { s.pipe p with landing := false }).setFld (R.VER_PIPE p) F.VER_PIPE.TAG (1 - s.verTag n) →
      (s1.pipeTag p = 1 - s.verTag n) ∧
      ((∃ q ∈ s.pipesOf n, q ≠ p.val ∧ (s.pipe q).landing = true) → exec (.commitApply p) s = .next s1) ∧
      ((∀ q ∈ s.pipesOf n, q ≠ p.val → (s.pipe q).landing = false) →
        ∃ t : State, exec (.commitApply p) s = .next t ∧ (t.reg (R.VER_NUM n)).toNat = ((s.reg (R.VER_NUM n)).toNat + 1) % 2 ^ 32 ∧
          t.verState n = 3 ∧ t.fld (R.VER_STATUS n) F.VER_STATUS.TAG = ((s.reg (R.VER_NUM n)).toNat + 1) % 2 ∧
          (t.verSt n).applied = s.t16 ∧ (t.verSt n).appliedNow = s.time.now ∧ (t.verSt n).late = false)) ∧
    (∀ (n : OwnerNo), n.val ≠ 0 →
      (s.verState n = 3 → (∀ p ∈ s.pipesOf n, s.oldLive p = 0) → ∃ t : State, exec (.drainComplete n) s = .next t ∧ t.verState n = 4 ∧
        t.reg (R.VER_DRAIN_LAST n) = BitVec.ofNat 32 (min (2 ^ 32 - 1) ((s.t16 - (s.verSt n).applied) / 16)) ∧ (t.verSt n).late = false) ∧
      ((s.verState n ≠ 3 ∨ ∃ p ∈ s.pipesOf n, s.oldLive p ≠ 0) → exec (.drainComplete n) s = .next s) ∧
      (s.verState n = 4 → exec (.retireDone n) s =
        .next (((s.pipesOf n).foldl (fun s p => s.verSweep p (1 - s.verTag n) true) s).verIdle n)) ∧
      (s.verState n = 5 → exec (.abandonDone n) s =
        .next (((s.pipesOf n).foldl (fun s p => s.verSweep p (1 - s.verTag n) false) s).verIdle n)) ∧
      (s.bit (R.VER_STATUS n) F.VER_STATUS.OPEN_HELD = false → (s.verIdle n).verState n = 0) ∧
      (s.bit (R.VER_STATUS n) F.VER_STATUS.OPEN_HELD = true → (s.verIdle n).verState n = 1 ∧
        (s.verIdle n).bit (R.VER_STATUS n) F.VER_STATUS.OPEN_HELD = false) ∧
      (∀ lim, lim = min 1000000 (s.fld (R.VER_DRAIN_LIMIT n) F.VER_DRAIN_LIMIT.LIMIT) → s.verState n = 3 → (s.verSt n).late = false →
        (lim ≠ 0 → (s.verSt n).appliedNow + 1000 * lim ≤ s.time.now → (∃ p ∈ s.pipesOf n, s.oldLive p ≠ 0) →
          ∃ t : State, exec (.drainTimeout n) s = .next t ∧ (t.verSt n).late = true ∧ t.verState n = 3 ∧
            (t.reg (R.VER_CAUSE n)).getLsbD F.VER_CAUSE.DRAIN_TIMEOUT.lo = true) ∧
        ((lim = 0 ∨ s.time.now < (s.verSt n).appliedNow + 1000 * lim ∨ ∀ p ∈ s.pipesOf n, s.oldLive p = 0) →
          exec (.drainTimeout n) s = .next s)))

/-- The group operations (R249, R250, R251), by a function that may give them, in an open group of a pipeline that is loaded and not
held, while no other operation runs: the operation is taken, with RESULT 0xF and GO 1, in the place of the indirect command of its engine,
which carries it out within 48 ticks of an exact-match table or 1,024 of a TCAM. What it inserts the pending view alone shows, what it
deletes or replaces only the current view shows until the commit; a group holds at most 2,048 locations, and each operation answers its
result and its location. An operation after a commit that waits for its Round boundary is refused with 7 (log entry 165), LOC is 0 where no
location is named and the counts of a G_TC_INSERT are log entry 174, and the tick of an operation's end is free (log entry 136; all DESIGN
CHOICE); the checks come in the order of log entry 46 (DEDUCED). -/
def Obligations.GroupOperations : Prop :=
  (∀ (fn : FnNo) (p : PipeNo) (w : Word) (s : State) (n st t : Nat) (s1 : Nat → State),
    s.writable fn (R.VER_GW_CMD p) = true → s.bit (R.VER_GW_CMD p) F.VER_GW_CMD.GO = false → n = s.ownerOfPipe p → s.verState n = 1 →
    s.pipeHeld p = false → (s.pipe p).img.isSome = true → st = fldOf w F.VER_GW_CMD.STAGE → t = fldOf w F.VER_GW_CMD.TABLE → st < 24 →
    (∀ op, s1 op = (s.wrote fn (R.VER_GW_CMD p) (putFlds w [(F.VER_GW_CMD.OP, op), (F.VER_GW_CMD.GO, 1)])).gwDone p
      (if (s.verSt n).atRound = none then 0xF else 7) 0) →
    ((s.verSt n).atRound ≠ none →
      (s.emDefined p st t = true → s.bit (R.STG_IA_CMD p st) F.STG_IA_CMD.GO = false → exec (.gInsert fn p w) s = .next ((s1 0).settle s) ∧
        exec (.gReplace fn p w) s = .next ((s1 1).settle s) ∧ exec (.gDelete fn p w) s = .next ((s1 2).settle s)) ∧
      (s.tcDefined p st t = true → s.bit (R.TC_IA_CMD p) F.TC_IA_CMD.GO = false → exec (.gTcInsert fn p w) s = .next ((s1 3).settle s) ∧
        (fldOf w F.VER_GW_CMD.ADDR < 1024 * s.tcSlices p st t → exec (.gTcDelete fn p w) s = .next ((s1 4).settle s))) ∧
      ∀ op, (s1 op).bit (R.VER_GW_CMD p) F.VER_GW_CMD.GO = false ∧ (s1 op).fld (R.VER_GW_STATUS p) F.VER_GW_STATUS.RESULT = 7) ∧
    ((s.verSt n).atRound = none →
    (∀ op, (s1 op).bit (R.VER_GW_CMD p) F.VER_GW_CMD.GO = true ∧ (s1 op).fld (R.VER_GW_STATUS p) F.VER_GW_STATUS.RESULT = 0xF) ∧
    (s.emDefined p st t = true → s.bit (R.STG_IA_CMD p st) F.STG_IA_CMD.GO = false → ∃ c : Nat → Word,
      (∀ op, op < 3 → fldOf (c op) F.VER_GW_CMD.OP = op ∧ fldOf (c op) F.VER_GW_CMD.STAGE = st ∧ fldOf (c op) F.VER_GW_CMD.TABLE = t) ∧
      exec (.gInsert fn p w) s = .next (((s1 0).iaTake p st (.group (c 0))).settle s) ∧
      exec (.gReplace fn p w) s = .next (((s1 1).iaTake p st (.group (c 1))).settle s) ∧
      exec (.gDelete fn p w) s = .next (((s1 2).iaTake p st (.group (c 2))).settle s)) ∧
    (s.tcDefined p st t = true → s.bit (R.TC_IA_CMD p) F.TC_IA_CMD.GO = false → ∃ c : Nat → Word,
      (∀ op, 3 ≤ op → op < 5 → fldOf (c op) F.VER_GW_CMD.OP = op ∧ fldOf (c op) F.VER_GW_CMD.STAGE = st ∧
        fldOf (c op) F.VER_GW_CMD.TABLE = t ∧ fldOf (c op) F.VER_GW_CMD.ADDR = fldOf w F.VER_GW_CMD.ADDR) ∧
      exec (.gTcInsert fn p w) s = .next (((s1 3).tcTake p (.group (c 3))).settle s) ∧
      (fldOf w F.VER_GW_CMD.ADDR < 1024 * s.tcSlices p st t →
        exec (.gTcDelete fn p w) s = .next (((s1 4).tcTake p (.group (c 4))).settle s))))) ∧
  (∀ (p : PipeNo) (s : State) (c : Word),
    (∀ st : StageNo, ((s.emStage p st).toClear = [] ∨ (s.emStage p st).onJob = true) → (s.emStage p st).job = some (.group c) →
      47 ≤ (s.emStage p st).busy →
      ∃ x : State, s.iaTurn p st = x.gwRun p c ∧ x.emStage p st = { s.emStage p st with busy := 0, job := none } ∧
        x.bit (R.STG_IA_CMD p st) F.STG_IA_CMD.GO = false ∧ (∀ a, a ≠ R.STG_IA_CMD p st → x.reg a = s.reg a) ∧
        { x with regs := s.regs, em := s.em, freeIx := s.freeIx } = s) ∧
    ((s.tcPipe p).move = none → (s.tcPipe p).job = some (.group c) →
      (1023 ≤ (s.tcPipe p).busy ∨ fldOf c F.VER_GW_CMD.OP = 3 ∧ 15 ≤ (s.tcPipe p).busy) →
      ∃ x : State, s.tcTurn p = x.gwRun p c ∧ (x.tcPipe p).rows = (s.tcPipe p).rows ∧ x.regs = s.regs ∧
        { x with tc := s.tc, freeIx := s.freeIx } = s)) ∧
  (∀ (p : PipeNo) (s : State) (c : Word) (n v st t : Nat), n = s.ownerOfPipe p → v = 1 - s.verTag n → s.verState n = 1 →
    (s.verSt n).atRound = none → s.pipeHeld p = false → (s.pipe p).img.isSome = true →
    st = fldOf c F.VER_GW_CMD.STAGE → t = fldOf c F.VER_GW_CMD.TABLE → st < 24 →
    (s.emDefined p st t = true →
      (∀ x, fldOf c F.VER_GW_CMD.OP = 0 → s.gwFind p st t v = (none, x) →
        (2048 ≤ x.verRows p → s.gwRun p c = x.gwDone p 5 0) ∧
        (x.verRows p < 2048 →
          (∀ l y, x.gwPlace p st t v = (some l, y) → s.gwRun p c = y.gwDone p 0 (l % 2 ^ 20)) ∧
          (∀ y, x.gwPlace p st t v = (none, y) → s.gwRun p c = y.gwDone p 3 0))) ∧
      (∀ l x, fldOf c F.VER_GW_CMD.OP = 0 → s.gwFind p st t v = (some l, x) → s.gwRun p c = x.gwDone p 2 0) ∧
      (∀ x, (fldOf c F.VER_GW_CMD.OP = 1 ∨ fldOf c F.VER_GW_CMD.OP = 2) → s.gwFind p st t v = (none, x) → s.gwRun p c = x.gwDone p 1 0) ∧
      (∀ l x, (fldOf c F.VER_GW_CMD.OP = 1 ∨ fldOf c F.VER_GW_CMD.OP = 2) → s.gwFind p st t v = (some l, x) →
        (x.emRow p st l).marked = true → s.gwRun p c = x.gwDone p 8 0) ∧
      (∀ l x l' y, fldOf c F.VER_GW_CMD.OP = 1 → s.gwFind p st t v = (some l, x) → (x.emRow p st l).marked = false → x.verRows p < 2047 →
        (x.setEmRow p st l { x.emRow p st l with see := 2 ^ (1 - v) }).gwPlace p st t v = (some l', y) →
        s.gwRun p c = y.gwDone p 0 (l' % 2 ^ 20)) ∧
      (∀ l x, fldOf c F.VER_GW_CMD.OP = 2 → s.gwFind p st t v = (some l, x) → (x.emRow p st l).marked = false → x.verRows p < 2048 →
        ∃ y : State, y = x.setEmRow p st l { x.emRow p st l with see := 2 ^ (1 - v) } ∧ seen v (y.emRow p st l) = false ∧
          s.gwRun p c = y.gwDone p 0 (l % 2 ^ 20))) ∧
    (s.tcDefined p st t = true →
      (fldOf c F.VER_GW_CMD.OP = 3 → (2048 ≤ s.verRows p → s.gwRun p c = (s.tcFree p).gwDone p 5 0) ∧
        (s.verRows p < 2048 →
          (∀ m, s.tcInsert p st t (s.tcIaEntry p st t (2 ^ v)) = .inr m →
            s.gwRun p c = s.setTcPipe p { s.tcPipe p with move := some m }) ∧
          (s.tcInsert p st t (s.tcIaEntry p st t (2 ^ v)) = .inl 2 → s.gwRun p c = (s.tcFree p).gwDone p 3 0))) ∧
      (∀ a r y, fldOf c F.VER_GW_CMD.OP = 4 → a = fldOf c F.VER_GW_CMD.ADDR → a < 1024 * s.tcSlices p st t → y = s.tcFree p →
        r = s.tcRow p (tcKey st t a) →
        (r.valid = false → s.gwRun p c = y.gwDone p 1 0) ∧
        (r.valid = true → r.marked = true → s.gwRun p c = y.gwDone p 8 0) ∧
        (r.valid = true → r.marked = false → s.verRows p < 2048 →
          s.gwRun p c = (y.setTcRow p (tcKey st t a) { r with see := 2 ^ (1 - v) }).gwDone p 0 a)))) ∧
  (∀ (p : PipeNo) (s : State) (m : TcMove) (c : Word), m.todo = [] → (s.tcPipe p).job = some (.group c) → ∃ u, s.tcMoveTurn p m = u ∧
    (u.tcPipe p).move = none ∧ (u.tcPipe p).job = none ∧ u.tcRow p m.key = m.row ∧ (∀ k, k ≠ m.key → u.tcRow p k = s.tcRow p k) ∧
    u.bit (R.VER_GW_CMD p) F.VER_GW_CMD.GO = false ∧ u.fld (R.VER_GW_STATUS p) F.VER_GW_STATUS.RESULT = 0 ∧
    u.fld (R.VER_GW_STATUS p) F.VER_GW_STATUS.LOC = m.key % 2 ^ 17)

/-- The swap of the customer banks of a pipeline (R234, R235, R635): GO inside a presence window with good standby banks begins the swap,
with bad ones reports the first that fails, outside a window is refused and audited; the landing makes the standby banks the active ones,
checked unless a new image was loaded meanwhile; the drain ends once no packet of the old bank is in a stage; a write of a standby word
stores it, or is ignored and reported while a swap runs. The audit entries of a refused and of a landed swap are log entry 83 (DEDUCED). -/
def Obligations.MicrocodeSwap : Prop :=
  ∀ (fn : FnNo) (p : PipeNo) (s : State),
    (s.writable fn (swapAddr p) = true →
      (s.presOpen = false →
        exec (.ucSwapGo fn p) s = .next (((s.presRefuse (host fn) (swapAddr p)).audit 0x0D true p (s.ucHash p)).settle s)) ∧
      (s.presOpen = true → (s.pipe p).swapDue = false → s.bit (R.STG_UC_SWAP p) F.STG_UC_SWAP.DRAINING = false →
        s.inReset (s.ownerOfPipe p) = false → (∃ g, (s.pipe p).img = some g ∧ Sys2Proof.Machine.Image.hasHooks g = true) →
        (s.ucSwapCheck p = none → ∃ t : State, exec (.ucSwapGo fn p) s = .next (t.settle s) ∧ (t.pipe p).swapDue = true ∧
          (t.pipe p).swapOld = false ∧
          t.fld (R.STG_UC_SWAP p) F.STG_UC_SWAP.RESULT = 15 ∧ t.bit (R.STG_UC_SWAP p) F.STG_UC_SWAP.GO = true ∧
          t.reg (R.STG_UC_SWAP_ERR p) = 0 ∧ t.ucBank p = s.ucBank p) ∧
        (∀ st wd ck, s.ucSwapCheck p = some (st, wd, ck) → ∃ t : State, t.reg (R.STG_UC_SWAP_ERR p) = putFlds 0 [(F.STG_UC_SWAP_ERR.VALID, 1),
            (F.STG_UC_SWAP_ERR.STAGE, st), (F.STG_UC_SWAP_ERR.CHECK, ck), (F.STG_UC_SWAP_ERR.WORD, wd)] ∧
          (∀ a, a ≠ R.STG_UC_SWAP_ERR p → t.reg a = s.reg a) ∧ (∃ r, t = { s with regs := r }) ∧
          exec (.ucSwapGo fn p) s = .next (((t.swapRefuse p 1).cause (R.STG_UC_CAUSE p 0) F.STG_UC_CAUSE.SWAP_FAIL).settle s)))) ∧
    ((s.pipe p).swapDue = true → ∃ t : State, (t.pipe p).swapDue = false ∧ t.ucBank p = (1 - s.ucBank p) % 2 ∧
      t.ucChecked p = !(s.pipe p).swapOld ∧
      t.bit (R.STG_UC_SWAP p) F.STG_UC_SWAP.DRAINING = true ∧ exec (.ucSwapLand p) s = .next (t.audit 0x0D false p (t.ucHash p))) ∧
    ((s.pipe p).swapDue = false → exec (.ucSwapLand p) s = .next s) ∧
    (s.oldBankIn p = false → ∃ t : State, exec (.ucSwapDrainEnd p) s = .next t ∧ t.bit (R.STG_UC_SWAP p) F.STG_UC_SWAP.DRAINING = false ∧
      (∀ a, a ≠ R.STG_UC_SWAP p → t.reg a = s.reg a) ∧ ∃ r, t = { s with regs := r }) ∧
    (s.oldBankIn p = true → exec (.ucSwapDrainEnd p) s = .next s) ∧
    (∀ (st : StageNo) (k : Fin 1024) (v : Word), s.writable fn (R.STG_UC_STBY p st k) = true →
      ((s.pipe p).swapDue = false → s.bit (R.STG_UC_SWAP p) F.STG_UC_SWAP.DRAINING = false → s.ucBank p < 2 →
        ∃ t : State, exec (.ucStbyWrite fn p st k v) s = .next (t.settle s) ∧ (t.ucStore p st).word (1 - s.ucBank p) (3072 + k) = taken (R.STG_UC_STBY p st k) v ∧
          (∀ b w, (b ≠ 1 - s.ucBank p ∨ w ≠ 3072 + k.val) → b < 2 → (t.ucStore p st).word b w = (s.ucStore p st).word b w) ∧ ∃ u, t = { s with uc := u }) ∧
      (((s.pipe p).swapDue = true ∨ s.bit (R.STG_UC_SWAP p) F.STG_UC_SWAP.DRAINING = true) →
        ∃ t : State, exec (.ucStbyWrite fn p st k v) s = .next (t.settle s) ∧ t.uc = s.uc ∧
        t = (s.cause (R.STG_UC_CAUSE p st) F.STG_UC_CAUSE.STBY_BUSY).busyWrite fn))

/-- An image load (R545, R592, R593, R596, R636), by a function that may give it, while none of its owner runs: with a pipeline that is no target it ends with
5, of an image that is not stored or with a bad length with 6, and while a Pitch commit runs with 9; else it is taken, with RESULT 15 and GO 1, behind the loads before it, and
ends when its turn is over, at a free tick (log entry 136, DESIGN CHOICE), every load from the store within 100 ms; one from host memory reads its LEN bytes. At its end, onto pipelines that have not failed (else log entry 100): outside a presence window a new image is refused with 3, with
an enabled port with 4, another layout with 7 and an image outside the loader's limits with 8; the image whose hash every pipeline holds is seated
again with 1, a good one is put in place with 0; one from host memory whose signature, over its bytes under the fused key, is bad ends with 2 and one that could not be read with 9; and each end is
audited. -/
def Obligations.ImageLoads : Prop :=
  (∀ (fn f : FnNo) (v : Word) (read : Option Image) (s s1 : State) (ps : List Nat), s.writable fn (R.DEV_LOAD_CTL f) = true →
    s.bit (R.DEV_LOAD_CTL f) F.DEV_LOAD_CTL.GO = false →
    s1 = s.wrote fn (R.DEV_LOAD_CTL f) (putFlds v [(F.DEV_LOAD_CTL.GO, 1)]) →
    ps = (List.range 16).filter (fun p => nbit (fldOf v F.DEV_LOAD_CTL.PIPES) p) →
    ((ps = [] ∨ ∃ p ∈ ps, s.pipeFused p = true ∨ s.ownerOfPipe p = 0 ∨ (f.val ≠ 0 ∧ s.ownerOfPipe p ≠ f)) →
      exec (.imageLoad fn f v read) s = .next ((s1.loadFin f 5 ps none).settle s)) ∧
    (ps ≠ [] → (∀ p ∈ ps, s.pipeFused p = false ∧ s.ownerOfPipe p ≠ 0 ∧ (f.val ≠ 0 → s.ownerOfPipe p = f)) →
      ∀ (len addr : Nat) (job : Bool → Option Image → LoadJob), len = (s.reg (R.DEV_LOAD_LEN f)).toNat →
      addr = (s.reg (R.DEV_LOAD_ADDR_LO f)).toNat + (s.reg (R.DEV_LOAD_ADDR_HI f)).toNat * 2 ^ 32 →
      job = (fun stored img =>
        { f := f, fn := fn, ost := false, pipes := ps, presOpen := s.presOpen, stored := stored, img := img, addr := addr, len := len,
          due := s.t16 + 1600000000 - 170 }) →
      (∀ g, fldOf v F.DEV_LOAD_CTL.SRC = 0 → s.pw.store.lookup (fldOf v F.DEV_LOAD_CTL.INDEX) = g →
        (g = none → exec (.imageLoad fn f v read) s = .next ((s1.loadFin f 6 ps none).settle s)) ∧
        (g ≠ none → s.pw.commit.isSome = true → exec (.imageLoad fn f v read) s = .next ((s1.loadFin f 9 ps g).settle s)) ∧
        (g ≠ none → s.pw.commit = none → ∃ t : State, exec (.imageLoad fn f v read) s = .next (t.settle s) ∧
          t.pw = { s.pw with loads := s.pw.loads ++ [job true g] } ∧
          t = (({ s1 with pw := t.pw } : State).setFld (R.DEV_LOAD_CTL f) F.DEV_LOAD_CTL.RESULT 15).setBit (R.DEV_LOAD_CTL f) F.DEV_LOAD_CTL.GO
            true)) ∧
      (fldOf v F.DEV_LOAD_CTL.SRC = 1 →
        ((len < 320 ∨ 13107200 < len) → exec (.imageLoad fn f v read) s = .next ((s1.loadFin f 6 ps none).settle s)) ∧
        (320 ≤ len → len ≤ 13107200 → s.pw.commit.isSome = true →
          exec (.imageLoad fn f v read) s = .next ((s1.loadFin f 9 ps none).settle s)) ∧
        (320 ≤ len → len ≤ 13107200 → s.pw.commit = none → ∃ t : State, exec (.imageLoad fn f v read) s = .next (t.settle s) ∧
          t.pw = { s.pw with loads := s.pw.loads ++ [job false (read.map fun g => { g with raw := g.raw.take len })] } ∧
          t.fld (R.DEV_LOAD_CTL f) F.DEV_LOAD_CTL.RESULT = 15 ∧ t.bit (R.DEV_LOAD_CTL f) F.DEV_LOAD_CTL.GO = true)))) ∧
  (∀ (s : State), (s.pw.loads = [] → s.loadTurn = s) ∧
    (∀ j rest, s.pw.loads = j :: rest →
      (s.freeBool.1 = false → (∀ k ∈ s.pw.loads, k.stored = true → s.t16 < k.due) → s.loadTurn = s.freeBool.2) ∧
      ((s.freeBool.1 = true ∨ ∃ k ∈ s.pw.loads, k.stored = true ∧ k.due ≤ s.t16) → ∃ x : State,
        x = (if j.stored then s.freeBool.2 else s.freeBool.2.hostReads j.f j.addr j.len) ∧
        s.loadTurn = State.loadEnd { x with pw := { x.pw with loads := rest } } j))) ∧
  (∀ (s : State) (j : LoadJob) (g : Image),
    (j.img = none → s.loadEnd j = s.loadFin j.f 9 j.pipes none) ∧
    (j.img = some g → (∀ p ∈ j.pipes, s.pipeFailed p = false) →
      (j.stored = false → sigGood s.fuse.keyHash g.raw = false → s.loadEnd j = s.loadFin j.f 2 j.pipes (some g)) ∧
      ((j.stored = true ∨ sigGood s.fuse.keyHash g.raw = true) →
        ((∀ p ∈ j.pipes, s.imgHash p = some (imageHash g)) → s.loadEnd j = (s.loadAccept j.pipes g true).loadFin j.f 1 j.pipes (some g)) ∧
        ((∃ p ∈ j.pipes, s.imgHash p ≠ some (imageHash g)) →
          (j.presOpen = false →
            s.loadEnd j = (s.presRefuse { fn := j.fn, ost := j.ost } (R.DEV_LOAD_CTL j.f)).loadFin j.f 3 j.pipes (some g)) ∧
          (j.presOpen = true →
            ((∃ p ∈ j.pipes, s.pipeHasEnabled p = true) → s.loadEnd j = s.loadFin j.f 4 j.pipes (some g)) ∧
            ((∀ p ∈ j.pipes, s.pipeHasEnabled p = false) →
              (s.layoutFixed = true → s.layout ≠ g.pools →
                s.loadEnd j = (s.cause R.BPM_CAUSE F.BPM_CAUSE.LAYOUT).loadFin j.f 7 j.pipes (some g)) ∧
              ((s.layoutFixed = true → s.layout = g.pools) →
                (imageOk g = true → s.loadEnd j = (s.loadAccept j.pipes g false).loadFin j.f 0 j.pipes (some g)) ∧
                (imageOk g = false → s.loadEnd j = s.loadFin j.f 8 j.pipes (some g))))))))) ∧
  (∀ (s : State) (f r : Nat) (ps : List Nat) (g : Image), r < 16 → ∃ t : State, s.loadFin f r ps (some g) = t.loadAudit (decide (2 ≤ r)) ps (some g) ∧
    t.fld (R.DEV_LOAD_CTL f) F.DEV_LOAD_CTL.RESULT = r ∧ t.bit (R.DEV_LOAD_CTL f) F.DEV_LOAD_CTL.GO = false ∧
    (∀ a, a ≠ R.DEV_LOAD_CTL f → t.reg a = s.reg a) ∧ ∃ m, t = { s with regs := m })

/-- An upset of a memory (R178, R179, R206, R240, R286, R441): the flipped bit of a program word, a store word, a row of a table or its
timestamp, or the array or the shadow of a TCAM entry changes it, and all but the array mark their parity; in a packet buffer and in the
Ostlers' data memory the flip is held beside the bytes until SECDED meets it. A second upset of the same bit gives the word and its mark back
(log entry 29, DEDUCED), and which bits stand in which shadow is log entry 119 (DEDUCED). Every register, counter and output stays. -/
def Obligations.Upsets : Prop :=
  ∀ (s : State),
    (∀ (n : OwnerNo) (word : Fin 65536) (bit : Fin 32), ∃ t : State, exec (.memoryUpset (.program n word bit)) s = .next t ∧
      t.psWord n word = s.psWord n word ^^^ BitVec.ofNat 32 (2 ^ bit.val) ∧ t.psBadAt n word = !s.psBadAt n word ∧
      (∀ w, w ≠ word.val → w < 65536 → t.psWord n w = s.psWord n w) ∧ (∃ o, t = { s with ost := o }) ∧
      ∃ u : State, exec (.memoryUpset (.program n word bit)) t = .next u ∧ u.psWord n word = s.psWord n word) ∧
    (∀ (p : PipeNo) (st : StageNo) (loc : Nat) (bit : Fin 16) (r : EmRow), s.emDefined p st (locTable loc) = true → r = s.emRow p st loc →
      ∃ t : State, exec (.memoryUpset (.emStamp p st loc bit)) s = .next t ∧
        t.emRow p st loc = { r with ts := flipNBit r.ts bit, tsBad := !r.tsBad } ∧
        (∀ l, l ≠ loc → t.emRow p st l = s.emRow p st l) ∧ ∃ m, t = { s with em := m }) ∧
    (∀ (p : PipeNo) (st : StageNo) (t a k w bit : Nat) (r : TcRow), s.tcDefined p st t = true → a < 1024 * s.tcSlices p st t →
      a < 2 ^ 17 → t < 2 → k = tcKey st t a → w = 80 * s.tcW p st t → r = s.tcRow p k →
      ∃ u : State, exec (.memoryUpset (.tcArray p k bit)) s = .next u ∧
        (bit < w → u.tcRow p k = { r with aV := flipNBit r.aV bit }) ∧
        (w ≤ bit → bit < 2 * w → u.tcRow p k = { r with aM := flipNBit r.aM (bit - w) }) ∧
        (bit = 2 * w → u.tcRow p k = { r with aValid := !r.aValid }) ∧ (2 * w < bit → u = s) ∧
        (∀ l, l ≠ k → u.tcRow p l = s.tcRow p l) ∧ ∃ m, u = { s with tc := m }) ∧
    (∀ (p : PipeNo) (st : StageNo) (bank : Fin 2) (word : Fin 4096) (bit : Fin 32) (x : UcStore), x = s.ucStore p st →
      ∃ t : State, exec (.memoryUpset (.store p st bank word bit)) s = .next t ∧
        (t.ucStore p st).word bank word = x.word bank word ^^^ BitVec.ofNat 32 (2 ^ bit.val) ∧
        (t.ucStore p st).bad = toggle x.bad (ucMark bank word) ∧
        (∀ b w, b < 2 → ucMark b w ≠ ucMark bank word → (t.ucStore p st).word b w = x.word b w) ∧ ∃ m, t = { s with uc := m }) ∧
    (∀ (h w : Nat) (bit : Fin 128) (b : Buf), s.buf h = some b →
      (16 * w < s.poolBytes (poolOfH h) → ∃ t : State, exec (.memoryUpset (.buffer h w bit)) s = .next t ∧
        t.buf h = some { b with flips := toggle b.flips (128 * w + bit) } ∧ (∀ k, k ≠ h → t.buf k = s.buf k) ∧ ∃ m, t = { s with bpm := m }) ∧
      (s.poolBytes (poolOfH h) ≤ 16 * w → exec (.memoryUpset (.buffer h w bit)) s = .next s)) ∧
    (∀ (h w : Nat) (bit : Fin 128), s.buf h = none → exec (.memoryUpset (.buffer h w bit)) s = .next s) ∧
    (∀ (quad : Fin 128) (bit : Fin 1048576), ∃ t : State, exec (.memoryUpset (.data quad bit)) s = .next t ∧
      (quad.val * 2 ^ 20 + bit.val ∈ s.ost.flips → t.ost.flips = s.ost.flips.erase (quad.val * 2 ^ 20 + bit.val)) ∧
      (quad.val * 2 ^ 20 + bit.val ∉ s.ost.flips → t.ost.flips = s.ost.flips ++ [quad.val * 2 ^ 20 + bit.val]) ∧
      t = { s with ost := { s.ost with flips := t.ost.flips } }) ∧
    (∀ (p : PipeNo) (st : StageNo) loc bit e, s.emDefined p st (locTable loc) = true → e = s.emE p st (locTable loc) → bit < 8 * e →
      (if locStash loc then loc % 2 ^ 16 < 16 else loc % 2 ^ 16 < s.emD p st (locTable loc)) → (s.emRow p st loc).bad = [] →
      ∃ t : State, exec (.memoryUpset (.emRow p st loc bit)) s = .next t ∧
        (t.emRow p st loc).bytes = flipBit (fitBytes e (s.emRow p st loc).bytes) bit ∧ (t.emRow p st loc).bad = [bit / 64] ∧
        (∀ l, l ≠ loc → t.emRow p st l = s.emRow p st l) ∧ ∃ m, t = { s with em := m }) ∧
    (∀ (p : PipeNo) (st : StageNo) (t a k : Nat) (pos : Fin 8) (bit : Fin 241), s.tcDefined p st t = true → a < 1024 * s.tcSlices p st t →
      a < 2 ^ 17 → t < 2 → k = tcKey st t a → pos.val < s.tcW p st t → (pos.val = 0 ∨ bit.val < 160) → (s.tcRow p k).bad = [] →
      ∃ u : State, exec (.memoryUpset (.tcShadow p k pos bit)) s = .next u ∧ (u.tcRow p k).bad = [pos.val] ∧
        ((u.tcRow p k).valid = (s.tcRow p k).valid ↔ bit.val ≠ 160) ∧ (bit.val < 161 → (u.tcRow p k).prio = (s.tcRow p k).prio) ∧
        (u.tcRow p k).aV = (s.tcRow p k).aV ∧ (u.tcRow p k).aM = (s.tcRow p k).aM ∧ (u.tcRow p k).aValid = (s.tcRow p k).aValid ∧
        (∀ l, l ≠ k → u.tcRow p l = s.tcRow p l) ∧ ∃ m, u = { s with tc := m })

/-- The indirect commands of the traffic manager (R321, R326, Table 11.5), by a function that may give them, on a pipeline that is not
held and runs none: an operation is taken, with RESULT 15 and GO 1, for one tick, or refused: a target or an index that does not exist
answers 1, a multicast group of another Pitch 2, a pipeline that is held 3; while one runs another is a busy write. In its tick READ answers
a policer, a member group, a slot or a multicast group of the Pitch in TM_IA_DATA; WRITE of a policer waits for the next Round boundary,
other targets take the words at once; READ_CLEAR answers a policer and clears its colour counts. Table 11.5 names result 3 for a Pitch in
reset; that every held pipeline answers it is log entry 40 (DEDUCED). -/
def Obligations.TmIndirect : Prop :=
  (∀ (fn : FnNo) (p : PipeNo) (v : Word) (s : State) (tg i g : Nat) (s1 : Nat → State),
    s.writable fn (R.TM_IA_CMD p) = true → tg = fldOf v F.TM_IA_CMD.TARGET → i = fldOf v F.TM_IA_CMD.INDEX → g = s.tmGroup p →
    (∀ op, s1 op = s.wrote fn (R.TM_IA_CMD p) (putFlds v [(F.TM_IA_CMD.OP, op), (F.TM_IA_CMD.GO, 1)])) →
    (s.bit (R.TM_IA_CMD p) F.TM_IA_CMD.GO = true →
      exec (.tmIaRead fn p v) s = .next ((s.busyWrite fn).settle s) ∧ exec (.tmIaWrite fn p v) s = .next ((s.busyWrite fn).settle s) ∧
      exec (.tmIaReadClear fn p v) s = .next ((s.busyWrite fn).settle s)) ∧
    (s.bit (R.TM_IA_CMD p) F.TM_IA_CMD.GO = false → s.pipeHeld p = true →
      exec (.tmIaRead fn p v) s = .next ((((s1 0).tmIaDone p 3).cause (R.TM_PIPE_CAUSE p) F.TM_PIPE_CAUSE.IDLE_VIOL).settle s)) ∧
    (s.bit (R.TM_IA_CMD p) F.TM_IA_CMD.GO = false → s.pipeHeld p = false →
      ((tg = 0 ∨ tg = 2 ∨ (tg = 1 ∧ i < 4096) ∨ (tg = 3 ∧ s.mcInRange (s.ownerOfPipe p) i = true)) →
        exec (.tmIaRead fn p v) s = .next (((s1 0).tmIaDone p 15).settle s)) ∧
      ((tg = 0 ∨ tg = 2 ∨ (tg = 1 ∧ i < 4096 ∧ g % 2 ^ 16 + g / 2 ^ 16 % 256 + 1 ≤ 65536) ∨
          (tg = 3 ∧ s.mcInRange (s.ownerOfPipe p) i = true)) →
        exec (.tmIaWrite fn p v) s = .next (((s1 1).tmIaDone p 15).settle s)) ∧
      (tg = 0 → exec (.tmIaReadClear fn p v) s = .next (((s1 2).tmIaDone p 15).settle s)) ∧
      ((3 < tg ∨ (tg = 1 ∧ 4096 ≤ i)) → exec (.tmIaRead fn p v) s = .next (((s1 0).tmIaDone p 1).settle s) ∧
        exec (.tmIaWrite fn p v) s = .next (((s1 1).tmIaDone p 1).settle s)) ∧
      (tg ≠ 0 → exec (.tmIaReadClear fn p v) s = .next (((s1 2).tmIaDone p 1).settle s)) ∧
      (tg = 3 → s.mcInRange (s.ownerOfPipe p) i = false → exec (.tmIaRead fn p v) s = .next (((s1 0).tmIaDone p 2).settle s) ∧
        exec (.tmIaWrite fn p v) s = .next (((s1 1).tmIaDone p 2).settle s))) ∧
    (∀ op r, op < 3 → r < 16 → ((s1 op).tmIaDone p r).fld (R.TM_IA_STATUS p) F.TM_IA_STATUS.RESULT = r ∧
      ((s1 op).tmIaDone p r).bit (R.TM_IA_CMD p) F.TM_IA_CMD.GO = decide (r = 15) ∧
      ((s1 op).tmIaDone p r).fld (R.TM_IA_CMD p) F.TM_IA_CMD.OP = op ∧ ((s1 op).tmIaDone p r).fld (R.TM_IA_CMD p) F.TM_IA_CMD.TARGET = tg ∧
      ((s1 op).tmIaDone p r).fld (R.TM_IA_CMD p) F.TM_IA_CMD.INDEX = i ∧ ((s1 op).tmIaDone p r).tm = s.tm)) ∧
  (∀ (p : PipeNo) (s u : State) (op tg i : Nat), op = s.fld (R.TM_IA_CMD p) F.TM_IA_CMD.OP → tg = s.fld (R.TM_IA_CMD p) F.TM_IA_CMD.TARGET →
    i = s.fld (R.TM_IA_CMD p) F.TM_IA_CMD.INDEX → s.tmIaRefusal p = 0 → u = s.tmIaDone p 0 →
    (tg = 2 →
      (op = 0 → s.tmIaRun p = u.setTmData p [(SMap.get (fun _ => 0) s.tm.slot (p * 2 ^ 16 + i)).toNat]) ∧
      (op = 1 → ∃ t, s.tmIaRun p = t ∧ t.regs = u.regs ∧
        (SMap.get (fun _ => 0) t.tm.slot (p * 2 ^ 16 + i)).toNat = Nat.land (s.reg (R.TM_IA_DATA p 0)).toNat 0xC3FFFFFF ∧
        ∀ j, j ≠ p * 2 ^ 16 + i → SMap.get (fun _ => 0) t.tm.slot j = SMap.get (fun _ => 0) s.tm.slot j)) ∧
    (tg = 1 →
      (op = 0 → s.tmIaRun p = u.setTmData p [(SMap.get (fun _ => 0) s.tm.grp (p * 2 ^ 12 + i)).toNat]) ∧
      (op = 1 → ∃ t, s.tmIaRun p = t ∧ t.regs = u.regs ∧
        (SMap.get (fun _ => 0) t.tm.grp (p * 2 ^ 12 + i)).toNat = Nat.land (s.reg (R.TM_IA_DATA p 0)).toNat 0x80FFFFFF ∧
        ∀ j, j ≠ p * 2 ^ 12 + i → SMap.get (fun _ => 0) t.tm.grp j = SMap.get (fun _ => 0) s.tm.grp j)) ∧
    (tg = 0 → ∀ q, q = s.policer p i →
      (op = 0 → ∃ t, s.tmIaRun p = t ∧ t.regs = (u.setTmData p q.words).regs ∧ t.policer p i = q) ∧
      (op = 2 → ∃ t, s.tmIaRun p = t ∧ t.regs = (u.setTmData p q.words).regs ∧
        t.policer p i = { q with green := 0, yellow := 0, red := 0 }) ∧
      (op = 1 → ∀ c, c = PolCfg.mk ((s.reg (R.TM_IA_DATA p 0)).toNat % 2 ^ 21) ((s.reg (R.TM_IA_DATA p 1)).toNat % 2 ^ 21)
          ((s.reg (R.TM_IA_DATA p 2)).toNat % 2 ^ 24) ((s.reg (R.TM_IA_DATA p 3)).toNat % 2 ^ 24)
          (Nat.land (s.reg (R.TM_IA_DATA p 4)).toNat 0x4000FF0F) → c.act % 4 ≠ 3 → c.act / 4 % 4 ≠ 3 →
        s.tmIaRun p = u.setPolicer p i (if s.lateInRound then { q with late := some c } else { q with pend := some c }))) ∧
    (tg = 3 →
      (op = 0 → s.tmIaRun p =
        u.setTmData p ((List.range 32).map fun k => SMap.get (fun _ => 0) s.tm.mcast i / 2 ^ (32 * k) % 2 ^ 32)) ∧
      (op = 1 → ∃ t, s.tmIaRun p = t ∧ t.regs = u.regs ∧
        SMap.get (fun _ => 0) t.tm.mcast i = (List.range 32).foldr (fun k a => (s.reg (R.TM_IA_DATA p k)).toNat + 2 ^ 32 * a) 0 ∧
        ∀ j, j ≠ i → SMap.get (fun _ => 0) t.tm.mcast j = SMap.get (fun _ => 0) s.tm.mcast j)) ∧
    (s.bit (R.TM_IA_CMD p) F.TM_IA_CMD.GO = true → (∀ m : PipeNo, m ≠ p → s.bit (R.TM_IA_CMD m) F.TM_IA_CMD.GO = false) →
      s.tmIaTurn = s.tmIaRun p))

/-- The commands of the Buffer Pool Manager (R284, R285, R287, Table 10.3): POP takes the head orphan report; RECLAIM answers why a handle
cannot be reclaimed, or runs its check, with RESULT 15 and GO 1, for at most 2 µs, while another GO is a busy write;
then it frees a buffer that nothing references or used meanwhile, with every hold, and answers 0, or else 1; a slice is fenced by command or
by its bank controller, once, and raises FENCE. The time of the check within its 2 µs is free, and what counts as a use of the handle, which a
flipped bit is not, is log entry 159 (DESIGN CHOICE). -/
def Obligations.BufferCommands : Prop :=
  ∀ (fn : FnNo) (s : State),
    (∀ n : OwnerNo, s.writable fn (R.BPM_AUD_CTL n) = true →
      ∃ t : State, exec (.bpmAudPop fn n) s = .next (t.settle s) ∧ t.audQ n = (s.audQ n).tail ∧ (∀ m, m ≠ n.val → t.audQ m = s.audQ m) ∧
        ∃ b, t = { s with bpm := b }) ∧
    (∀ (n : OwnerNo) (v : Word) (s1 : State) (h : Nat), s.writable fn (R.BPM_RECLAIM n) = true →
      s1 = s.wrote fn (R.BPM_RECLAIM n) (putFlds v [(F.BPM_RECLAIM.GO, 1)]) → h = fldOf v F.BPM_RECLAIM.HANDLE →
      ((s.recl n).isSome = true → exec (.bpmReclaim fn n v) s = .next ((s1.busyWrite fn).settle s)) ∧
      (s.recl n = none →
        (n.val ≠ 0 → s.inReset n = true → exec (.bpmReclaim fn n v) s = .next ((s1.reclaimEnd n 6).settle s)) ∧
        ((n.val = 0 ∨ s.inReset n = false) →
          (s.handleOk h = false → exec (.bpmReclaim fn n v) s = .next ((s1.reclaimEnd n 4).settle s)) ∧
          (s.handleOk h = true →
            (s.buf h = none → exec (.bpmReclaim fn n v) s = .next ((s1.reclaimEnd n 2).settle s)) ∧
            (∀ b, s.buf h = some b → n.val ≠ 0 → b.primary.map s.rqOwner ≠ some n.val →
              exec (.bpmReclaim fn n v) s = .next ((s1.reclaimEnd n 3).settle s)) ∧
            (∀ b, s.buf h = some b → (n.val = 0 ∨ b.primary.map s.rqOwner = some n.val) →
              ∃ (t : State) (due : Nat), exec (.bpmReclaim fn n v) s = .next (t.settle s) ∧ t.recl n = some ⟨h, due, b, s.referenced h⟩ ∧
                s.t16 < due ∧ due ≤ s.t16 + 32000 ∧
                t.fld (R.BPM_RECLAIM n) F.BPM_RECLAIM.RESULT = 15 ∧ t.bit (R.BPM_RECLAIM n) F.BPM_RECLAIM.GO = true ∧
                (∀ k, t.buf k = s.buf k) ∧ (∀ a, a ≠ R.BPM_RECLAIM n → t.reg a = s.reg a)))))) ∧
    (∀ (n : OwnerNo) (r : Nat), r < 16 → (s.reclaimEnd n r).recl n = none ∧
      (s.reclaimEnd n r).fld (R.BPM_RECLAIM n) F.BPM_RECLAIM.RESULT = r ∧ (s.reclaimEnd n r).bit (R.BPM_RECLAIM n) F.BPM_RECLAIM.GO = false ∧
      (∀ k, (s.reclaimEnd n r).buf k = s.buf k)) ∧
    (∀ (n : OwnerNo) (x : Recl), s.recl n = some x → x.due ≤ s.t16 →
      ((x.used = true ∨ s.referenced x.handle = true ∨ (s.buf x.handle).map Buf.clean ≠ some x.seen.clean) →
        s.reclaimStep n = s.reclaimEnd n 1) ∧
      (x.used = false → s.referenced x.handle = false → (s.buf x.handle).map Buf.clean = some x.seen.clean →
        ∃ t : State, s.reclaimStep n = t ∧ t.buf x.handle = none ∧ (∀ k, k ≠ x.handle → t.buf k = s.buf k) ∧
          t.fld (R.BPM_RECLAIM n) F.BPM_RECLAIM.RESULT = 0 ∧
          t.cnt (C.BPM_RECLAIMED n) = min (s.cnt (C.BPM_RECLAIMED n) + 1) (2 ^ 48 - 1))) ∧
    (∀ (v : Word) (s1 : State), s.writable fn R.BPM_FENCE_CTL = true → s1 = s.wrote fn R.BPM_FENCE_CTL (putFlds v [(F.BPM_FENCE_CTL.GO, 1)]) →
      exec (.bpmFenceGo fn v) s = .next ((s1.fenceSlice (fldOf v F.BPM_FENCE_CTL.SLICE)).settle s)) ∧
    (∀ sl : Fin 16, s.sliceFenced sl = false → ∃ t : State, exec (.bankControllerFault sl) s = .next t ∧ t.sliceFenced sl = true ∧
      (∀ m, m < 16 → m ≠ sl.val → t.sliceFenced m = s.sliceFenced m) ∧ (t.reg R.BPM_CAUSE).getLsbD F.BPM_CAUSE.FENCE.lo = true ∧
      Alarms [R.BPM_STATUS, R.BPM_CAUSE] s t) ∧
    (∀ sl : Fin 16, s.sliceFenced sl = true → exec (.bankControllerFault sl) s = .next s)

/-- Setting and adjusting the time base (R332, R333, R334, R336, R341), by a function that may write the registers. A set with a staged
time out of range answers 2; one that is free-running loads the staged seconds, nanoseconds and fraction and sets VALID, or arms for the
next PPS_IN edge and times out with 3; while one is armed another is a busy write. An adjustment under a servo answers 3, one below zero 2;
a trim within the step threshold moves the time and the trims' sum, a larger one is a step. A frequency word is taken, or refused under a
servo. A change of source restarts the servo inside a presence window and is refused outside; a code of 4 to 7 written again raises
SRC_BUSY and does nothing else. That the count of errors starts again is log entry 49 and what a write beside a pending set does log entry
53 (both DEDUCED). -/
def Obligations.TimeCommands : Prop :=
  ∀ (fn : FnNo) (v : Word) (s : State),
    (∀ (s1 : State), s.writable fn R.TIME_SET_CTL = true → s1 = s.wrote fn R.TIME_SET_CTL (putFlds v [(F.TIME_SET_CTL.GO, 1)]) →
      (s.setBusy = true → exec (.timeSetGo fn v) s = .next ((s1.busyWrite fn).settle s)) ∧
      (s.setBusy = false → 1000000000 ≤ (s.reg R.TIME_SET_NS).toNat % 2 ^ 30 →
        exec (.timeSetGo fn v) s = .next ((s1.setFld R.TIME_SET_CTL F.TIME_SET_CTL.RESULT 2).settle s)) ∧
      (s.setBusy = false → (s.reg R.TIME_SET_NS).toNat % 2 ^ 30 < 1000000000 → fldOf v F.TIME_SET_CTL.AT = 1 →
        ∃ t : State, exec (.timeSetGo fn v) s = .next (t.settle s) ∧ t.setBusy = true ∧ t.bit R.TIME_SET_CTL F.TIME_SET_CTL.GO = true ∧
          (∀ a, a ≠ R.TIME_SET_CTL → t.reg a = s.reg a) ∧ ∃ r, t = { s with regs := r }) ∧
      (s.setBusy = false → (s.reg R.TIME_SET_NS).toNat % 2 ^ 30 < 1000000000 → fldOf v F.TIME_SET_CTL.AT = 0 →
        ∃ t : State, exec (.timeSetGo fn v) s = .next (t.settle s) ∧
          t.time.s = (s.reg R.TIME_SET_S).toNat + (s.reg R.TIME_SET_SF).toNat / 2 ^ 16 * 2 ^ 32 ∧
          t.time.n = (s.reg R.TIME_SET_NS).toNat % 2 ^ 30 ∧ t.time.fr = (s.reg R.TIME_SET_SF).toNat % 2 ^ 16 * 2 ^ 28 ∧
          t.timeValid = true ∧ t.time.sigma = 0 ∧ t.fld R.TIME_SET_CTL F.TIME_SET_CTL.RESULT = 0 ∧
          t.reg R.TIME_STEP_CNT = s.reg R.TIME_STEP_CNT + 1)) ∧
    (s.setBusy = false → exec .timeSetTimeout s = .next s) ∧
    (s.setBusy = true → ∃ t : State, exec .timeSetTimeout s = .next t ∧ t.fld R.TIME_SET_CTL F.TIME_SET_CTL.RESULT = 3 ∧
      t.bit R.TIME_SET_CTL F.TIME_SET_CTL.GO = false ∧ (∀ a, a ≠ R.TIME_SET_CTL → t.reg a = s.reg a) ∧ ∃ r, t = { s with regs := r }) ∧
    (∀ (s1 : State) (a thr : Int), s.writable fn R.TIME_ADJ_CTL = true →
      s1 = s.wrote fn R.TIME_ADJ_CTL (putFlds v [(F.TIME_ADJ_CTL.GO, 1)]) →
      a = sext 32 (s.reg R.TIME_ADJ_NS).toNat * 65536 + fldOf v F.TIME_ADJ_CTL.FRAC → thr = (s.stepThr : Int) * 65536 →
      (s.timeSrc ≠ 0 → exec (.timeAdjGo fn v) s = .next ((s1.srcBusy.setFld R.TIME_ADJ_CTL F.TIME_ADJ_CTL.RESULT 3).settle s)) ∧
      (s.timeSrc = 0 → (s.tnow.units : Int) + a < 0 →
        exec (.timeAdjGo fn v) s = .next ((s1.setFld R.TIME_ADJ_CTL F.TIME_ADJ_CTL.RESULT 2).settle s)) ∧
      (s.timeSrc = 0 → 0 ≤ (s.tnow.units : Int) + a → (s.tnow.units : Int) + a < 2 ^ 48 * 1000000000 * 65536 → ∃ t : State,
        exec (.timeAdjGo fn v) s = .next (t.settle s) ∧ (t.tnow.units : Int) = (s.tnow.units : Int) + a ∧
        t.fld R.TIME_ADJ_CTL F.TIME_ADJ_CTL.RESULT = 0 ∧
        (-thr ≤ a → a ≤ thr → -thr ≤ s.time.sigma + a → s.time.sigma + a ≤ thr →
          t.time.sigma = s.time.sigma + a ∧ t.reg R.TIME_TRIM_CNT = s.reg R.TIME_TRIM_CNT + 1 ∧
          t.reg R.TIME_STEP_CNT = s.reg R.TIME_STEP_CNT) ∧
        ((a < -thr ∨ thr < a ∨ s.time.sigma + a < -thr ∨ thr < s.time.sigma + a) →
          t.time.sigma = 0 ∧ t.reg R.TIME_STEP_CNT = s.reg R.TIME_STEP_CNT + 1 ∧ t.reg R.TIME_TRIM_CNT = s.reg R.TIME_TRIM_CNT))) ∧
    (s.writable fn R.TIME_FREQ = true →
      (s.timeSrc = 0 → exec (.timeFreqWrite fn v) s = .next ((s.setReg R.TIME_FREQ v).settle s)) ∧
      (s.timeSrc ≠ 0 → exec (.timeFreqWrite fn v) s = .next (s.srcBusy.settle s))) ∧
    (s.writable fn R.TIME_SRC_CTL = true → s.reg R.TIME_SRC_CTL ≠ v → taken R.TIME_SRC_CTL v = v →
      (s.reg R.TIME_SRC_CTL &&& 0xFF37 = s.reg R.TIME_SRC_CTL) →
      (s.presOpen = false → ∃ t : State, exec (.timeSrcChange fn v) s = .next (t.settle s) ∧ t.reg R.TIME_SRC_CTL = s.reg R.TIME_SRC_CTL ∧
        t.time = s.time ∧ (t.reg R.DEV_PRES_CAUSE).getLsbD F.DEV_PRES_CAUSE.REFUSED.lo = true) ∧
      (s.presOpen = true → fldOf v F.TIME_SRC_CTL.SRC ≠ s.fld R.TIME_SRC_CTL F.TIME_SRC_CTL.SRC →
        ∃ t : State, exec (.timeSrcChange fn v) s = .next (t.settle s) ∧ t.reg R.TIME_SRC_CTL = v ∧
          t.timeSrc = (if 4 ≤ fldOf v F.TIME_SRC_CTL.SRC then 0 else fldOf v F.TIME_SRC_CTL.SRC) ∧ t.holdover = false ∧
          t.bit R.TIME_STATUS F.TIME_STATUS.LOCKED = false ∧ t.time.errs = [] ∧ t.time.corr = none)) ∧
    (s.writable fn R.TIME_SRC_CTL = true → s.reg R.TIME_SRC_CTL = v → taken R.TIME_SRC_CTL v = v → 4 ≤ fldOf v F.TIME_SRC_CTL.SRC →
      ∃ t : State, exec (.timeSrcChange fn v) s = .next (t.settle s) ∧ (t.reg R.TIME_CAUSE).getLsbD F.TIME_CAUSE.SRC_BUSY.lo = true ∧
        Alarms [R.TIME_CAUSE] s t)

/-- The events of the time sources (R331, R337, R342 to R345, R350): an upset of one counter copy clears VALID and releases every held
Timetable frame, and a second upset of the same bit ends the fault; a PPS_IN edge applies an armed set, so that the edge reads exactly the
staged value (at once, or with the next time clock cycle where the present one began before the time base can stand), is measured, or is an
outlier under lock; under SRC 1 an edge of TIME_REF_IN is measured against the nearest 100 ns and its error acts as every other does (log
entry 139, DEDUCED), but that it ends no row of outliers of PPS_IN; the servo's correction is a step beyond the threshold and else leaves the
time alone, for the word that the loop writes to ADJ is free (log entry 50, DESIGN CHOICE); a lost source enters holdover where the servo was
ever locked (the lock, log entry 49, DEDUCED); a source that is back ends the loss; a dataset that is current expires. -/
def Obligations.TimeSources : Prop :=
  ∀ (s : State),
    (∀ (second : Bool) (bit : Fin 122), s.time.copy1 = none → ∃ t : State, exec (.counterFault second bit) s = .next t ∧
      t.timeValid = false ∧ t.bit R.TIME_STATUS F.TIME_STATUS.CNT_FAULT = true ∧
      (t.reg R.TIME_CAUSE).getLsbD F.TIME_CAUSE.CNT_FAULT.lo = true ∧
      (∀ n c, ∀ k ∈ (t.tmq n c).pkts, k.floor.isSome = true → k.dueNow = true) ∧
      t.time.raw = (if second then s.time.raw else s.time.raw.flip bit) ∧
      ∃ u : State, exec (.counterFault second bit) t = .next u ∧ u.time.raw = s.time.raw ∧ u.time.copy1 = none ∧
        u.bit R.TIME_STATUS F.TIME_STATUS.CNT_FAULT = false) ∧
    (∀ (age : Nat), (∀ v : Int, s.setBusy = true → v = (s.stagedSet : Int) * 2 ^ 28 + ((age : Int) - (s.t16 % 16 : Nat)) * 2 ^ 40 →
        (s.time.setDue.isSome = true → exec (.ppsInEdge age) s = .next s) ∧
        (s.time.setDue = none → v < 0 → exec (.ppsInEdge age) s = .next { s with time := { s.time with setDue := some (s.t16 - age) } }) ∧
        (s.time.setDue = none → 0 ≤ v → v < 2 ^ 48 * 1000000000 * 2 ^ 44 → ∃ t : State, exec (.ppsInEdge age) s = .next t ∧
          t.setBusy = false ∧ t.timeValid = true ∧ t.bit R.TIME_SET_CTL F.TIME_SET_CTL.GO = false ∧
          (((t.time.s * 1000000000 + t.time.n) * 2 ^ 44 + t.time.fr : Nat) : Int) = v)) ∧
      (s.setBusy = false → ((s.timeSrc ≠ 1 ∧ s.timeSrc ≠ 2) ∨ s.time.lost = true) → exec (.ppsInEdge age) s = .next s) ∧
      (s.setBusy = false → (s.timeSrc = 1 ∨ s.timeSrc = 2) → s.time.lost = false →
        ∀ e : Int, e = secondDist (stamp16 (s.fine age) 0) - sext 32 (s.reg R.TIME_PPS_IN_COMP).toNat →
        ((s.bit R.TIME_STATUS F.TIME_STATUS.LOCKED = false ∨ (-16000 ≤ e ∧ e ≤ 16000)) → ∃ t : State, exec (.ppsInEdge age) s = .next t ∧
          t.time.corr = some e ∧ t.time.errs = e :: s.time.errs.take 7 ∧ t.time.raw = s.time.raw ∧ t.reg R.TIME_SRC_ERR = sat32 e ∧
          (t.bit R.TIME_STATUS F.TIME_STATUS.LOCKED = true ↔ t.time.errs.length = 8 ∧ ∀ x ∈ t.time.errs, -128 ≤ x ∧ x ≤ 128)) ∧
        (s.bit R.TIME_STATUS F.TIME_STATUS.LOCKED = true → (e < -16000 ∨ 16000 < e) → ∃ t : State, exec (.ppsInEdge age) s = .next t ∧
          t.reg R.TIME_PPS_OUTLIER = s.reg R.TIME_PPS_OUTLIER + 1 ∧
          (s.time.outliers < 2 → t.time.outliers = s.time.outliers + 1 ∧ t.time.raw = s.time.raw) ∧
          (2 ≤ s.time.outliers → t.reg R.TIME_STEP_CNT = s.reg R.TIME_STEP_CNT + 1)))) ∧
    ((s.time.setDue = none → s.timeSetTurn = s) ∧
      (∀ e v : Nat, s.time.setDue = some e → v = s.stagedSet * 2 ^ 28 + (s.t16 - s.t16 % 16 - e) * 2 ^ 40 →
        v < 2 ^ 48 * 1000000000 * 2 ^ 44 → s.timeSetTurn.setBusy = false ∧ s.timeSetTurn.timeValid = true ∧
        s.timeSetTurn.bit R.TIME_SET_CTL F.TIME_SET_CTL.GO = false ∧ s.timeSetTurn.time.setDue = none ∧
        (s.timeSetTurn.time.s * 1000000000 + s.timeSetTurn.time.n) * 2 ^ 44 + s.timeSetTurn.time.fr = v)) ∧
    ((s.time.corr = none → exec (.servoCorrection none) s = .next s) ∧
      (∀ at_ : Nat, ((s.timeSrc ≠ 1 ∨ s.time.lost = true) → exec (.servoCorrection (some at_)) s = exec (.servoCorrection none) s) ∧
        (s.timeSrc = 1 → s.time.lost = false → ∃ (t : State) (e k : Int),
          exec (.servoCorrection (some at_)) s = exec (.servoCorrection none) t ∧
          -800 < e ∧ e ≤ 800 ∧ stamp16 (s.timeMoved (4 * (s.t16 - at_))) 0 = 1600 * k + e ∧ t.reg R.TIME_SRC_ERR = BitVec.ofInt 32 e ∧
          t.time.corr = some e ∧ t.time.errs = e :: s.time.errs.take 7 ∧
          (t.bit R.TIME_STATUS F.TIME_STATUS.LOCKED = true ↔ t.time.errs.length = 8 ∧ ∀ x ∈ t.time.errs, -128 ≤ x ∧ x ≤ 128) ∧
          t.time.raw = s.time.raw ∧ t.time.outliers = s.time.outliers ∧ t.timeSrc = 1 ∧ t.freeIx = s.freeIx ∧
          t.reg R.TIME_STEP_CNT = s.reg R.TIME_STEP_CNT)) ∧
      (∀ e, s.time.corr = some e → (s.timeSrc ≠ 3 ∨ s.timeValid = true) → ∃ t : State, exec (.servoCorrection none) s = .next t ∧
        t.time.corr = none ∧
        ((-((s.stepThr : Int) * 16) ≤ e ∧ e ≤ (s.stepThr : Int) * 16) → t.time.raw = s.time.raw ∧ t.freeIx = s.freeIx + 1 ∧
          t.reg R.TIME_STEP_CNT = s.reg R.TIME_STEP_CNT) ∧
        ((e < -((s.stepThr : Int) * 16) ∨ (s.stepThr : Int) * 16 < e) → t.time.raw = s.time.raw.move (-e * 4096) ∧
          t.reg R.TIME_STEP_CNT = s.reg R.TIME_STEP_CNT + 1 ∧ t.reg R.TIME_FREQ = s.reg R.TIME_FREQ))) ∧
    ((s.timeSrc = 0 ∨ s.time.lost = true ∨ (s.timeSrc = 3 ∧ s.bit R.TIME_STATUS F.TIME_STATUS.TL_SLAVE = true) →
        exec .sourceLoss s = .next s) ∧
      (s.timeSrc ≠ 0 → s.time.lost = false → (s.timeSrc ≠ 3 ∨ s.bit R.TIME_STATUS F.TIME_STATUS.TL_SLAVE = false) →
        ∃ t : State, exec .sourceLoss s = .next t ∧ t.time.lost = true ∧
        (t.reg R.TIME_CAUSE).getLsbD F.TIME_CAUSE.REF_LOSS.lo = true ∧
        (s.time.wasLocked = true → t.holdover = true) ∧
        (s.time.wasLocked = true → s.holdover = false → t.reg R.TIME_FREQ = BitVec.ofInt 32 s.adjAverage ∧
          (t.reg R.TIME_CAUSE).getLsbD F.TIME_CAUSE.HOLDOVER.lo = true) ∧
        (s.time.wasLocked = false → t.holdover = s.holdover ∧ t.reg R.TIME_FREQ = s.reg R.TIME_FREQ))) ∧
    ((s.time.lost = false ∨ (s.timeSrc = 3 ∧ s.bit R.TIME_STATUS F.TIME_STATUS.TL_SLAVE = false) → exec .sourceRevert s = .next s) ∧
      (s.time.lost = true → (s.timeSrc ≠ 3 ∨ s.bit R.TIME_STATUS F.TIME_STATUS.TL_SLAVE = true) →
        exec .sourceRevert s = .next { s with time := { s.time with
          lost := false, back := true,
          adjs := if s.bit R.TIME_STATUS F.TIME_STATUS.LOCKED = true then [(s.t16, s.adj)] else s.time.adjs } })) ∧
    (∀ k : Fin 4, (s.bit (R.TIME_TL_STAT k) F.TIME_TL_STAT.CURRENT = false → exec (.datasetExpiry k) s = .next s) ∧
      (s.bit (R.TIME_TL_STAT k) F.TIME_TL_STAT.CURRENT = true → ∃ t : State, exec (.datasetExpiry k) s = .next t ∧
        t.bit (R.TIME_TL_STAT k) F.TIME_TL_STAT.CURRENT = false ∧ t.time.raw = s.time.raw ∧
        t.bit R.TIME_STATUS F.TIME_STATUS.TL_SLAVE = t.tlBest.isSome))

/-- Time link frames (R346 to R350): each interval one is queued on every active time link port and on no other; a received one on a
link that no port carries changes nothing; one that fails a check of its port, or of a bad format, is counted alone; a good one fills the
link's dataset, and where it echoes a frame that was sent the offset and the delay are measured. Of two links that name one port the first
sends (log entry 167, DESIGN CHOICE). -/
def Obligations.TimeLinkFrames : Prop :=
  ∀ (s : State),
    ((∀ k : Fin 4, s.tlPort k = none) → exec .timeLinkFrameTx s = .next s) ∧
    ((∀ j k : Fin 4, j ≠ k → s.tlPort j = s.tlPort k → s.tlPort j = none) → exec .timeLinkFrameTx s =
      .next ([0, 1, 2, 3].foldl (fun (s1 : State) k => match s.tlPort k with
        | some n => s1.ctlPush n (.timeLink k)
        | none => s1) s)) ∧
    (∀ (k j : Fin 4) (n : Nat), k < j → s.tlPort k = some n → s.tlPort j = some n → (∀ i : Fin 4, i ≠ k → i ≠ j → s.tlPort i = none) →
      exec .timeLinkFrameTx s = .next (s.ctlPush n (.timeLink k))) ∧
    (∀ (k : Fin 4) (bs : Bytes) (age : RefAt), s.tlPort k = none → exec (.timeLinkFrameRx k bs age) s = .next s) ∧
    (∀ (k : Fin 4) (bs : Bytes) (age : RefAt) (n : Nat), s.tlPort k = some n →
      (fcsOk bs = false → exec (.timeLinkFrameRx k bs age) s = .next ((s.addWrap32 R.TIME_TL_BAD 1).addCnt (C.RX_FCS_ERR n) 1)) ∧
      (fcsOk bs = true → bs.length < 64 → exec (.timeLinkFrameRx k bs age) s = .next (s.addCnt (C.RX_RUNT n) 1)) ∧
      (fcsOk bs = true → 64 ≤ bs.length → s.maxLen n < bs.length →
        exec (.timeLinkFrameRx k bs age) s = .next (s.addCnt (C.RX_OVERSIZE n) 1)) ∧
      (s.frameFault n bs = none → (byteAt bs 14 ≠ 1 ∨ 15 ≤ (byteAt bs 26).toNat) →
        exec (.timeLinkFrameRx k bs age) s = .next (s.addWrap32 R.TIME_TL_BAD 1)) ∧
      (s.frameFault n bs = none → byteAt bs 14 = 1 → (byteAt bs 26).toNat < 15 → ∃ t : State, exec (.timeLinkFrameRx k bs age) s = .next t ∧
        t.bit (R.TIME_TL_STAT k) F.TIME_TL_STAT.CURRENT = true ∧ t.fld (R.TIME_TL_STAT k) F.TIME_TL_STAT.STEPS = (byteAt bs 26).toNat ∧
        t.fld (R.TIME_TL_STAT k) F.TIME_TL_STAT.GM_CLASS = (byteAt bs 16).toNat ∧
        t.fld (R.TIME_TL_STAT k) F.TIME_TL_STAT.GM_ACC = (byteAt bs 17).toNat ∧
        t.bit (R.TIME_TL_STAT k) F.TIME_TL_STAT.PEER_VALID = nbit (byteAt bs 15).toNat 7 ∧
        (t.tlSt k).echo = some (tlTimeAt bs 28, s.ingressStamp n age) ∧ (t.tlSt k).sent = (s.tlSt k).sent ∧
        ((s.tlSt k).sent.all (fun x => !decide (x = tlTimeAt bs 40)) = true → t.reg (R.TIME_TL_OFS k) = s.reg (R.TIME_TL_OFS k) ∧
          t.reg (R.TIME_TL_DELAY k) = s.reg (R.TIME_TL_DELAY k)) ∧
        (tlTimeAt bs 40 ∈ (s.tlSt k).sent → ∀ t1 t2 t3 t4 : Int, t1 = (tlTimeAt bs 28).units → t2 = (tlTimeAt bs 40).units →
          t3 = (tlTimeAt bs 52).units → t4 = (s.ingressStamp n age).units →
          t.reg (R.TIME_TL_DELAY k) = sat32 (half16 ((t4 - t2) - (t1 - t3))) ∧
          t.reg (R.TIME_TL_OFS k) = sat32 (half16 ((t3 - t2) + (t1 - t4))))))

/-- Pulse outputs and capture inputs (R340, R353, R354, R356). An arm with a start out of range raises PPS_CFG and changes no schedule; a
good one takes the start, the period and the width within their bounds, and schedules a train or a one-shot that lies ahead, or ends and
counts a one-shot that lies behind. A disarm ends an output, after its pulse. An arm while ARM reads 1, and a disarm while DISARM
does, is a busy write and does nothing else. A due edge is given: the leading edge that a step made
late, the end of a pulse, then a scheduled leading edge. Mode 0 or 3 ends a pulse, and a disarm that waited for its end. A selected edge of
a capture input enters the FIFO with the time, the steps and the holdover of its instant, or is lost within 8 ns of
the one before or on a full FIFO. DISARM before ARM in one write is log entry 53 and the time of an edge log entry 140 (both DEDUCED), and a
changed level leaves the part where its land is the part's (log entry 113, DESIGN CHOICE). -/
def Obligations.PulsesAndCaptures : Prop :=
  ∀ (fn : FnNo) (k : Fin 4) (s : State),
    (∀ (v : Word), s.writable fn (R.TIME_PPS_CTL k) = true → fldOf v F.TIME_PPS_CTL.DISARM = 0 →
      fldOf v F.TIME_PPS_CTL.MODE = s.ppsMode k → s.ppsMode k ≠ 3 → s.bit (R.TIME_PPS_CTL k) F.TIME_PPS_CTL.ARM = false →
      (1000000000 ≤ (s.reg (R.TIME_PPS_START_NS k)).toNat % 2 ^ 30 → ∃ t : State, exec (.ppsArm fn k v) s = .next (t.settle s) ∧
        t.time = s.time ∧ (t.reg R.TIME_CAUSE).getLsbD F.TIME_CAUSE.PPS_CFG.lo = true) ∧
      ((s.reg (R.TIME_PPS_START_NS k)).toNat % 2 ^ 30 < 1000000000 → ∀ start per w : Nat,
        start = s.staged (R.TIME_PPS_START_S k) (R.TIME_PPS_START_SF k) (R.TIME_PPS_START_NS k) →
        per = max 1000 (min 4000000000 (s.reg (R.TIME_PPS_PERIOD k)).toNat) →
        w = (if per ≤ max 8 (s.reg (R.TIME_PPS_WIDTH k)).toNat then per / 2 else max 8 (s.reg (R.TIME_PPS_WIDTH k)).toNat) →
        ∃ t : State, exec (.ppsArm fn k v) s = .next (t.settle s) ∧ (t.ppsOut k).start = start ∧ (t.ppsOut k).period = per * 65536 ∧
          (t.ppsOut k).width = w * 65536 ∧ (t.ppsOut k).on = true ∧ (∀ j, j ≠ k.val → t.ppsOut j = s.ppsOut j) ∧
          ((s.ppsMode k = 2 ∨ (s.ppsMode k = 1 ∧ s.tnow.units < start)) → t.fld (R.TIME_PPS_CTL k) F.TIME_PPS_CTL.STATE = 1 ∧
            t.bit (R.TIME_PPS_CTL k) F.TIME_PPS_CTL.ARM = true ∧ (s.tnow.units < start → (t.ppsOut k).next = some start)) ∧
          (s.ppsMode k = 1 → start ≤ s.tnow.units → t.fld (R.TIME_PPS_CTL k) F.TIME_PPS_CTL.STATE = 3 ∧ (t.ppsOut k).next = none ∧
            t.reg (R.TIME_PPS_SKIP k) = s.reg (R.TIME_PPS_SKIP k) + 1))) ∧
    (∀ (v : Word), s.writable fn (R.TIME_PPS_CTL k) = true → fldOf v F.TIME_PPS_CTL.MODE = s.ppsMode k →
      (fldOf v F.TIME_PPS_CTL.DISARM = 0 → s.bit (R.TIME_PPS_CTL k) F.TIME_PPS_CTL.ARM = true →
        ∃ t : State, exec (.ppsArm fn k v) s = .next ((t.busyWrite fn).settle s) ∧ t.time = s.time) ∧
      (fldOf v F.TIME_PPS_CTL.ARM = 0 → s.bit (R.TIME_PPS_CTL k) F.TIME_PPS_CTL.DISARM = true →
        ∃ t : State, exec (.ppsDisarm fn k v) s = .next ((t.busyWrite fn).settle s) ∧ t.time = s.time)) ∧
    (∀ (v : Word), s.writable fn (R.TIME_PPS_CTL k) = true → fldOf v F.TIME_PPS_CTL.ARM = 0 →
      s.bit (R.TIME_PPS_CTL k) F.TIME_PPS_CTL.DISARM = false →
      ∃ t : State, exec (.ppsDisarm fn k v) s = .next (t.settle s) ∧ t.bit (R.TIME_PPS_CTL k) F.TIME_PPS_CTL.ARM = false ∧
        (t.ppsOut k).next = none ∧ (t.ppsOut k).on = false ∧ (∀ j, j ≠ k.val → t.ppsOut j = s.ppsOut j) ∧
        ((s.ppsOut k).stop = none → t.fld (R.TIME_PPS_CTL k) F.TIME_PPS_CTL.STATE = 3) ∧
        ((s.ppsOut k).stop ≠ none → fldOf v F.TIME_PPS_CTL.MODE = s.ppsMode k → (t.ppsOut k).stop = (s.ppsOut k).stop ∧
          (t.ppsOut k).disarm = true ∧ t.bit (R.TIME_PPS_CTL k) F.TIME_PPS_CTL.DISARM = true)) ∧
    (((s.ppsHalt k).ppsOut k).stop = none ∧ ((s.ppsHalt k).ppsOut k).disarm = false ∧ (∀ j, j ≠ k.val → (s.ppsHalt k).ppsOut j = s.ppsOut j) ∧
      ((s.ppsOut k).disarm = true → (s.ppsHalt k).bit (R.TIME_PPS_CTL k) F.TIME_PPS_CTL.DISARM = false ∧
        (s.ppsHalt k).fld (R.TIME_PPS_CTL k) F.TIME_PPS_CTL.STATE = 3) ∧
      ((s.ppsOut k).disarm = false → (s.ppsHalt k).regs = s.regs)) ∧
    (∀ now : Nat, now = s.tnow.units →
      ((s.ppsOut k).lateDue = true → ∃ t : State, exec (.ppsEdgeEmit k) s = .next t ∧ (t.ppsOut k).lateDue = false ∧
        (t.ppsOut k).stop = some (now + (s.ppsOut k).width) ∧ t.reg (R.TIME_PPS_LATE k) = s.reg (R.TIME_PPS_LATE k) + 1 ∧
        t.fld (R.TIME_PPS_CTL k) F.TIME_PPS_CTL.STATE = 2) ∧
      (∀ e, (s.ppsOut k).lateDue = false → (s.ppsOut k).stop = some e → e ≤ now → ∃ t : State, exec (.ppsEdgeEmit k) s = .next t ∧
        t.ppsOut k = { s.ppsOut k with stop := none, disarm := false, on := (s.ppsOut k).on && !(s.ppsOut k).disarm } ∧
        (((s.ppsOut k).disarm = true ∨ (s.ppsMode k = 1 ∧ (s.ppsOut k).next = none)) → t.fld (R.TIME_PPS_CTL k) F.TIME_PPS_CTL.STATE = 3) ∧
        ((s.ppsOut k).disarm = false → (s.ppsMode k ≠ 1 ∨ (s.ppsOut k).next ≠ none) → t.regs = s.regs) ∧
        t.outbox = (if s.ppsLevel k = t.ppsLevel k ∨ s.outputsLost = true then s.outbox else s.outbox ++ [.pps k (t.ppsLevel k)])) ∧
      (∀ e, (s.ppsOut k).lateDue = false → (∀ x, (s.ppsOut k).stop = some x → now < x) → (s.ppsOut k).next = some e → e ≤ now →
        ∃ t : State, exec (.ppsEdgeEmit k) s = .next t ∧ (t.ppsOut k).stop = some (now + (s.ppsOut k).width) ∧
          (t.ppsOut k).next = ppsNext (s.ppsOut k) (s.ppsMode k) now ∧ t.fld (R.TIME_PPS_CTL k) F.TIME_PPS_CTL.STATE = 2 ∧
          t.bit (R.TIME_PPS_CTL k) F.TIME_PPS_CTL.ARM = false ∧
          t.outbox = (if s.ppsLevel k = t.ppsLevel k ∨ s.outputsLost = true then s.outbox else s.outbox ++ [.pps k (t.ppsLevel k)])) ∧
      ((s.ppsOut k).lateDue = false → (∀ x, (s.ppsOut k).stop = some x → now < x) → (∀ x, (s.ppsOut k).next = some x → now < x) →
        exec (.ppsEdgeEmit k) s = .next s)) ∧
    (∀ (fall : Bool) (age : Nat),
      (nbit (s.fld (R.TIME_EVT_CTL k) F.TIME_EVT_CTL.EDGE) (if fall then 1 else 0) = false → exec (.evtCapture k fall age) s = .next s) ∧
      (nbit (s.fld (R.TIME_EVT_CTL k) F.TIME_EVT_CTL.EDGE) (if fall then 1 else 0) = true →
        (∀ l, (s.evtIn k).last = some l → s.t16 - age < l + 128 →
          exec (.evtCapture k fall age) s = .next (s.addWrap32 (R.TIME_EVT_LOST k) 1)) ∧
        ((∀ l, (s.evtIn k).last = some l → l + 128 ≤ s.t16 - age) →
          (∀ g e, g = s.segAt (4 * (s.t16 - age)) → e = { t := s.tfine age, fall := fall, seq := g.steps % 256, hold := g.hold } →
            (s.evtIn k).fifo.length < 16 → exec (.evtCapture k fall age) s =
              .next (s.setEvt k { fifo := (s.evtIn k).fifo ++ [e], last := some (s.t16 - age) })) ∧
          (16 ≤ (s.evtIn k).fifo.length → ∃ t : State, exec (.evtCapture k fall age) s = .next t ∧ (t.evtIn k).fifo = (s.evtIn k).fifo ∧
            t.reg (R.TIME_EVT_LOST k) = s.reg (R.TIME_EVT_LOST k) + 1 ∧
            (t.reg R.TIME_CAUSE).getLsbD F.TIME_CAUSE.EVT_OVF.lo = true)))) ∧
    (∀ (v : Word) (s1 : State), s.writable fn (R.TIME_EVT_CTL k) = true →
      s1 = s.wrote fn (R.TIME_EVT_CTL k) (putFlds v [(F.TIME_EVT_CTL.POP, 1)]) →
      exec (.timeEvtPop fn k v) s = .next ((s1.setEvt k { s.evtIn k with fifo := (s.evtIn k).fifo.tail }).settle s))

/-- The queues of records and a port's calibration (R171, R378, R381, R396, R564). A POP of a two-step, late, notification or history
queue, by a function that may write its control, removes the head entry of that queue and nothing else, none of an empty one. A
calibration runs on an enabled port with its link up, for as many frames as COUNT says, and is else refused; it sends one frame at a
time, matches a frame that returns within 10 µs against the loop length of its start, and ends with the mean, the spread and a result that
asks for half of the frames. A calibration frame that reaches a port without a run counts in TIME_TL_BAD, and one that fails a check of the
port in the counter of that check. That a frame due while the link is down is not sent is log entry 43, and a stamp is that of log entry 140
(both DEDUCED). -/
def Obligations.StampQueuesAndCalibration : Prop :=
  ∀ (fn : FnNo) (s : State),
    (∀ (n : PortNo), s.writable fn (R.PORT_TS_TXQ_CTL n) = true → exec (.txqPop fn n) s = .next ((s.setTxq n (s.txq n).tail).settle s)) ∧
    (∀ (n : OwnerNo), s.writable fn (R.TT_LATE_CTL n) = true → exec (.ttLatePop fn n) s = .next ((s.setLateQ n (s.lateQ n).tail).settle s)) ∧
    (∀ (p : PipeNo) (st : StageNo), s.writable fn (R.STG_NOTE_CTL p st) = true → exec (.stgNotePop fn p st) s =
      .next ((s.setEmStage p st { s.emStage p st with notes := (s.emStage p st).notes.tail }).settle s)) ∧
    (∀ (n : OwnerNo), s.writable fn (R.IRQ_HIST_CTL n) = true → ∃ t : State, exec (.irqHistPop fn n) s = .next (t.settle s) ∧
      t.hist n = (s.hist n).tail ∧ (∀ m, m ≠ n.val → t.hist m = s.hist m) ∧ ∃ q, t = { s with irq := { s.irq with hist := q } }) ∧
    (∀ (n : PortNo) (v : Word) (s1 : State), s.writable fn (R.PORT_TS_CAL_CTL n) = true →
      s1 = s.wrote fn (R.PORT_TS_CAL_CTL n) (putFlds v [(F.PORT_TS_CAL_CTL.GO, 1)]) →
      (s.calRun n ≠ none → exec (.calGo fn n v) s = .next ((s1.busyWrite fn).settle s)) ∧
      (s.calRun n = none → (s.portEnabled n && s.linkUp n) = false →
        exec (.calGo fn n v) s = .next ((s1.setFld (R.PORT_TS_CAL_CTL n) F.PORT_TS_CAL_CTL.RESULT 1).settle s)) ∧
      (s.calRun n = none → (s.portEnabled n && s.linkUp n) = true → ∃ t : State, exec (.calGo fn n v) s = .next (t.settle s) ∧
        t.calRun n = some { left := 2 ^ (10 + fldOf v F.PORT_TS_CAL_CTL.COUNT), loop := (s.reg (R.PORT_TS_CAL_LOOP n)).toNat } ∧
        t.fld (R.PORT_TS_CAL_CTL n) F.PORT_TS_CAL_CTL.RESULT = 15 ∧ t.bit (R.PORT_TS_CAL_CTL n) F.PORT_TS_CAL_CTL.GO = true ∧
        (∀ m, m ≠ n.val → t.calRun m = s.calRun m) ∧ ∀ a, a ≠ R.PORT_TS_CAL_CTL n → t.reg a = s.reg a)) ∧
    (∀ (n : PortNo), (s.calRun n = none → exec (.calFrameTx n) s = .next s ∧ exec (.calDone n) s = .next s) ∧
      (∀ c, s.calRun n = some c →
        (c.left = 0 → exec (.calFrameTx n) s = .next s) ∧ (c.left ≠ 0 → exec (.calDone n) s = .next s) ∧
        (∀ s1, c.left ≠ 0 → s1 = s.setCal n (some { c with left := c.left - 1, seq := c.seq + 1 }) →
          exec (.calFrameTx n) s = .next (if s.linkUp n then s1.ctlPush n (.cal c.seq) else s1)) ∧
        (c.left = 0 → ∃ t : State, exec (.calDone n) s = .next t ∧ t.calRun n = none ∧ t.bit (R.PORT_TS_CAL_CTL n) F.PORT_TS_CAL_CTL.GO = false ∧
          t.reg (R.PORT_TS_CAL_SPREAD n) = BitVec.ofInt 32 (c.hi - c.lo) ∧
          t.reg (R.PORT_TS_CAL_MEAN n) = BitVec.ofInt 32 (if c.got = 0 then 0 else (c.sum * 2 + c.got) / (2 * c.got)) ∧
          (c.seq ≤ 2 * c.got → t.fld (R.PORT_TS_CAL_CTL n) F.PORT_TS_CAL_CTL.RESULT = 0) ∧
          (2 * c.got < c.seq → t.fld (R.PORT_TS_CAL_CTL n) F.PORT_TS_CAL_CTL.RESULT = 2 ∧
            (t.reg (R.PORT_TS_CAUSE n)).getLsbD F.PORT_TS_CAUSE.CAL_FAIL.lo = true)))) ∧
    (∀ (n : PortNo) (bs : Bytes) (age : RefAt), s.linkUp n = true →
      byteAt bs 14 = 0x81 → beNat (slice bs 12 2) = s.fld R.TIME_TL_CTL F.TIME_TL_CTL.ETYPE →
      (s.frameFault n bs = none → s.calRun n = none → exec (.calFrameRx n bs age) s = .next (s.addWrap32 R.TIME_TL_BAD 1)) ∧
      (fcsOk bs = false → exec (.calFrameRx n bs age) s = .next ((s.addWrap32 R.TIME_TL_BAD 1).addCnt (C.RX_FCS_ERR n) 1)) ∧
      (fcsOk bs = true → bs.length < 64 → exec (.calFrameRx n bs age) s = .next (s.addCnt (C.RX_RUNT n) 1)) ∧
      (fcsOk bs = true → 64 ≤ bs.length → s.maxLen n < bs.length →
        exec (.calFrameRx n bs age) s = .next (s.addCnt (C.RX_OVERSIZE n) 1))) ∧
    (∀ (n : PortNo) (bs : Bytes) (age : RefAt) (c : CalRun) (q at_ : Nat) (x e : TimeVal), s.linkUp n = true → s.calRun n = some c →
      s.frameFault n bs = none →
      byteAt bs 14 = 0x81 → beNat (slice bs 12 2) = s.fld R.TIME_TL_CTL F.TIME_TL_CTL.ETYPE → q = beNat (slice bs 15 2) →
      x = s.ingressStamp n age →
      (c.sent.find? (fun y => y.1 = q) = none → exec (.calFrameRx n bs age) s = .next s) ∧
      (c.sent.find? (fun y => y.1 = q) = some (q, e, at_) → s.edge64 age ≤ 4 * (at_ + 160000) → ∃ c', c'.got = c.got + 1 ∧
        c'.sum = c.sum + ((x.units : Int) / 4096 - (e.units : Int) / 4096 - c.loop) ∧ c'.loop = c.loop ∧
        c'.left = c.left ∧ c'.seq = c.seq ∧ c'.sent = c.sent.filter (fun y => y.1 ≠ q) ∧
        exec (.calFrameRx n bs age) s = .next (s.setCal n (some c'))) ∧
      (c.sent.find? (fun y => y.1 = q) = some (q, e, at_) → 4 * (at_ + 160000) < s.edge64 age →
        exec (.calFrameRx n bs age) s = .next (s.setCal n (some { c with sent := c.sent.filter fun y => y.1 ≠ q }))))

/-- The commands and events of the Waybill (R412, R413, R415, R416, R418, R421, R422). A flush closes an open sheet that holds a record,
with CLOSE 3; a change of key by function 0 inside a presence window closes it with CLOSE 4 under the old slot and is refused outside; a
key command loads or erases a slot that no stream names (a refused one is entered as log entry 82 says); a write of an export port is taken
for a port of the Pitch that it names, and else entered as refused (log entry 81). An engine takes the audit stream's sheet first, and no
second sheet of a stream beside its first; a sheet that an engine closes is then ready, and none of a stream that no engine serves; the sheet
whose export is next, once it is ready, is offered to the next port that serves its stream and takes it, and again where it was refused; and
a hash engine leaves or returns, each stream's bucket being counted at its old rate first, the sheet that a lost engine was closing waiting
again, and the gap of the losses while both were out is written as one returns. Which of several Pitch streams an engine serves is log entry
169 (DESIGN CHOICE); 81 and 82 are DEDUCED. -/
def Obligations.WaybillCommands : Prop :=
  ∀ (fn : FnNo) (s : State),
    (∀ (n : OwnerNo) (v : Word) (a : Nat) (s1 : State), a = R.WB_STRM_CTL n → s.writable fn a = true →
      s1 = (if fn.val = 0 then ((s.setFld a F.WB_STRM_CTL.CLOSE_ROUNDS (fldOf v F.WB_STRM_CTL.CLOSE_ROUNDS)).setFld a
        F.WB_STRM_CTL.BACKLOG (fldOf v F.WB_STRM_CTL.BACKLOG)).stallRise n (s.wbStalled n) else s.setFld a F.WB_STRM_CTL.CLOSE_ROUNDS (fldOf v F.WB_STRM_CTL.CLOSE_ROUNDS)) →
      (fn.val = 0 ∨ fldOf v F.WB_STRM_CTL.BACKLOG = s.fld a F.WB_STRM_CTL.BACKLOG) →
      (n.val = 0 ∨ fldOf v F.WB_STRM_CTL.DMA = s.fld a F.WB_STRM_CTL.DMA) →
      (fldOf v F.WB_STRM_CTL.KEY_IDX = s.keyIdx n →
        ∃ t : State, exec (.wbFlush fn n v) s = .next (t.settle s) ∧ t = s1.wbClose n 3 ∧
          ((∀ o, (s.strm n).cur = some o → o.recs = []) → t = s1) ∧
          (∀ o, (s.strm n).cur = some o → o.recs ≠ [] → (t.strm n).cur = none ∧ (t.strm n).sheet = (s.strm n).sheet + 1 ∧
            ((s.wbKey (s.keyIdx n)).isSome = false → (t.strm n).noKey = true ∧
              (t.reg (R.WB_STRM_CAUSE n)).getLsbD F.WB_STRM_CAUSE.NOKEY.lo = true) ∧
            (s.engUp 0 = true → s.engAt 0 = none → s.inEngine n = false → (∀ m : OwnerNo, m ≠ n → s.engWaits m = false) →
              t.engAt 0 = some n.val) ∧
            ∃ q, (t.strm n).closed = (s.strm n).closed ++ [q] ∧ q.recs = o.recs ∧ q.close = 3 ∧ q.num = (s.strm n).sheet ∧
              q.key = (if (s.wbKey (s.keyIdx n)).isSome then s.keyIdx n else 0xFF))) ∧
      (fldOf v F.WB_STRM_CTL.KEY_IDX ≠ s.keyIdx n → fldOf v F.WB_STRM_CTL.FLUSH = 0 →
        (fn.val ≠ 0 → exec (.wbKeyIdxWrite fn n v) s = .next ((s1.accessViolation fn a true false).settle s)) ∧
        (fn.val = 0 → s.presOpen = false → exec (.wbKeyIdxWrite fn n v) s =
          .next (((s1.presRefuse (host fn) a).auditWrite true n a (s.reg a) (taken a v)).settle s)) ∧
        (fn.val = 0 → s.presOpen = true → ∃ t : State, exec (.wbKeyIdxWrite fn n v) s = .next (t.settle s) ∧
          t.keyIdx n = fldOf v F.WB_STRM_CTL.KEY_IDX ∧
          (∀ o, n.val ≠ 0 → (s.strm n).cur = some o → o.recs ≠ [] → (t.strm n).cur = none ∧
            ∃ q, (t.strm n).closed = (s.strm n).closed ++ [q] ∧ q.recs = o.recs ∧ q.close = 4 ∧
              q.key = (if (s.wbKey (s.keyIdx n)).isSome then s.keyIdx n else 0xFF))))) ∧
    (∀ (v : Word) (s1 : State) (slot len : Nat), s.writable fn R.WB_KEY_CTL = true →
      s1 = s.wrote fn R.WB_KEY_CTL (putFlds v [(F.WB_KEY_CTL.GO, 1)]) → slot = fldOf v F.WB_KEY_CTL.SLOT → len = fldOf v F.WB_KEY_CTL.LEN →
      (s.presOpen = false → exec (.wbKeyGo fn v) s =
        .next (((((s1.presRefuse (host fn) R.WB_KEY_CTL).keyRefused).setFld R.WB_KEY_CTL F.WB_KEY_CTL.GO 0).wbKeyWipe).settle s)) ∧
      (∀ (k : Fin 8) (x : State), x.wbKeyWipe.reg (R.WB_KEY_DATA k) = 0 ∧ ∀ a, (∀ j : Fin 8, a ≠ R.WB_KEY_DATA j) → x.wbKeyWipe.reg a = x.reg a) ∧
      (s.presOpen = true → ∃ t : State, exec (.wbKeyGo fn v) s = .next (t.settle s) ∧ (∀ k : Fin 8, t.reg (R.WB_KEY_DATA k) = 0) ∧
        ((s.wbKey slot).isSome = true → s.keyNamed slot = true → t.fld R.WB_KEY_CTL F.WB_KEY_CTL.RESULT = 1 ∧ t.wbKey slot = s.wbKey slot) ∧
        (((s.wbKey slot).isSome = false ∨ s.keyNamed slot = false) →
          (len ≠ 0 → (len < 16 ∨ 32 < len) → t.fld R.WB_KEY_CTL F.WB_KEY_CTL.RESULT = 2 ∧ t.wbKey slot = s.wbKey slot) ∧
          (len = 0 → t.fld R.WB_KEY_CTL F.WB_KEY_CTL.RESULT = 0 ∧ t.wbKey slot = none ∧ t.reg (R.WB_KEY_KCV slot) = 0) ∧
          (16 ≤ len → len ≤ 32 → t.fld R.WB_KEY_CTL F.WB_KEY_CTL.RESULT = 0 ∧ t.wbKey slot = some (s.wbKeyData.take len) ∧
            t.reg (R.WB_KEY_KCV slot) = BitVec.ofNat 32 (beNat ((hmac256 (s.wbKeyData.take len) (List.replicate 32 0)).take 4)))))) ∧
    (∀ (k : Fin 4) (v : Word) (a : Nat), a = R.WB_EXP_PORT k → s.writable fn a = true → taken a (s.reg a) = s.reg a → taken a v ≠ s.reg a →
      (s.presOpen = true → s.expOwned v = true → ∃ t : State, exec (.wbExpPortWrite fn k v) s = .next (t.settle s) ∧ t.reg a = taken a v) ∧
      (s.presOpen = true → s.expOwned v = false →
        exec (.wbExpPortWrite fn k v) s = .next ((s.auditWrite true 0 a (s.reg a) (taken a v)).settle s)) ∧
      (s.presOpen = false → ∃ t : State, exec (.wbExpPortWrite fn k v) s = .next (t.settle s) ∧ t.reg a = s.reg a ∧
        (t.reg R.DEV_PRES_CAUSE).getLsbD F.DEV_PRES_CAUSE.REFUSED.lo = true)) ∧
    (∀ (e : Fin 2), ((s.engUp e = false ∨ (s.engAt e).isSome = true) → s.engTake e = s) ∧
      (s.engUp e = true → s.engAt e = none →
        (s.engWaits 0 = true → (s.engTake e).engAt e = some 0) ∧
        ((∀ m : OwnerNo, s.engWaits m = false) → s.engTake e = s) ∧
        (∀ n : OwnerNo, s.engWaits 0 = false → s.engWaits n = true → ∃ m : OwnerNo, m.val ≠ 0 ∧ s.engWaits m = true ∧
          (s.engTake e).engAt e = some m.val ∧ ((∀ k : OwnerNo, k ≠ n → s.engWaits k = false) → m = n)))) ∧
    (∀ (n : OwnerNo), (s.inEngine n = false → exec (.sheetHashDone n) s = .next s) ∧
      (∀ pre q post, s.inEngine n = true → (s.strm n).closed = pre ++ q :: post → (∀ x ∈ pre, x.place ≠ .hashing) → q.place = .hashing →
        (∀ x ∈ pre ++ post, x.num ≠ q.num) →
        (∀ (s2 : State) bytes chain, (q.handle = none → s2 = s) →
          (∀ h, q.handle = some h → s.readBuf h 0 (64 + q.recs.flatten.length) = (false, s2)) →
          sheetBytes n s2.serialBytes (s2.strm n).chain q = (bytes, chain) → ∃ t : State, exec (.sheetHashDone n) s = .next t ∧
            (t.strm n).closed = pre ++ { q with bytes := bytes, place := .ready } :: post ∧ (t.strm n).chain = chain ∧
            (∀ m, m ≠ n.val → t.strm m = s.strm m) ∧ t.regs = s2.regs ∧ t.cnts = s2.cnts ∧
            ((∀ m : OwnerNo, m ≠ n → s.engWaits m = false) → (∀ x ∈ post, x.place ≠ .hashing) → ∀ e : Fin 2, t.engAt e ≠ some n.val)) ∧
        (∀ (s2 : State) h, q.handle = some h → s.readBuf h 0 (64 + q.recs.flatten.length) = (true, s2) →
          exec (.sheetHashDone n) s = .next ((s2.sheetLose n q.num).engDone n)))) ∧
    (∀ (n : OwnerNo) (e : Fin 2),
      ((n.val = 0 ∨ s.wbByDma n = true) → exec (.sheetExport n) s = .next s ∧ exec (.exportRetry n) s = .next s) ∧
      ((∀ q, s.sheetDue n = some q → q.place ≠ .ready) → exec (.sheetExport n) s = .next s) ∧
      ((∀ q ∈ (s.strm n).closed, q.place ≠ .retry) → exec (.exportRetry n) s = .next s) ∧
      (∀ q h (k : Fin 4) (dest : Nat) (s0 s1 : State), n.val ≠ 0 → s.wbByDma n = false → q.handle = some h →
        (∀ j : Fin 4, j ≠ k → s.expServes n j = false) → s.expServes n k = true → s.expFits k (18 + q.bytes.length) = true →
        dest = s.fld (R.WB_EXP_PORT k) F.WB_EXP_PORT.PORT →
        s1 = s0.setStrm n { s.strm n with rot := (k.val + 1) % 4 } →
        ∀ ok s2, s1.tmDirect dest (s.fld (R.WB_EXP_PORT k) F.WB_EXP_PORT.CLASS)
            { kind := .sheet n, handle := h, rq := rqCode n 5, port := 1024, len := 18 + q.bytes.length, win := s.expHeader k } = (ok, s2) →
          (s.sheetDue n = some q → q.place = .ready → s0 = s →
            exec (.sheetExport n) s = .next (s2.wbPlace n q.num (if ok then .queued dest else .retry))) ∧
          ((s.strm n).closed.find? (fun q => q.place = .retry) = some q → s0 = s.addCnt (C.WB_EXP_RETRY n) 1 →
            exec (.exportRetry n) s = .next (s2.wbPlace n q.num (if ok then .queued dest else .retry)))) ∧
      (∃ t : State, exec (.hashEngineLoss e) s = .next t ∧
        t.fld R.WB_STATUS F.WB_STATUS.ENGINE_UP = clrNBit (s.fld R.WB_STATUS F.WB_STATUS.ENGINE_UP) e ∧
        (t.reg R.WB_CAUSE).getLsbD F.WB_CAUSE.ENGINE.lo = true ∧ t.engAt e = none ∧
        t.strm n = { s.strm n with b := (s.strm n).b.refill (s.wbRate n) s.clk16 }) ∧
      (∃ t : State, exec (.hashEngineReturn e) s = .next t ∧
        t.fld R.WB_STATUS F.WB_STATUS.ENGINE_UP = setNBit (s.fld R.WB_STATUS F.WB_STATUS.ENGINE_UP) e ∧
        ((s.enginesUp ≠ 0 ∨ s.engineGap n = false) → t.strm n = { s.strm n with b := (s.strm n).b.refill (s.wbRate n) s.clk16 }) ∧
        (∀ g o, s.enginesUp = 0 → (s.strm n).gaps = [g] → g.reason = 3 → (s.strm n).cur = some o → o.recs.length < 255 →
          (t.strm n).gaps = [] ∧ ∃ o', (t.strm n).cur = some o' ∧ o'.recs = o.recs ++ [gapRec n g])))

/-- The arithmetic and logic of an Ostler (R442, R458, Table 16.6): of a word that thread `t` issues, RD takes the value that the row
gives for RA and RB, or for RA and the immediate, the next word follows, and nothing else changes, data memory included; g0 reads zero
and a write of it is ignored. -/
def Obligations.OstlerArithmetic : Prop :=
  ∀ (t : ThreadNo) (w : Word) (s : State) (q : Thr) (a b : Word) (imm : Nat),
    s.Issues t w → q = s.thr t → a = q.reg (iRa w) → b = q.reg (iRb w) → imm = w.toNat % 2 ^ 16 →
    (q.cwp < 7 → ∀ r, r < 32 → r ≠ iRd w → q.place r ≠ q.place (iRd w)) ∧
    (iOp w = 0x01 → ∃ u : State, exec (.ostAdd t) s = .next u ∧ Gave t w (BitVec.ofNat 32 (a.toNat + b.toNat)) s u) ∧
    (iOp w = 0x02 → ∃ u : State, exec (.ostSub t) s = .next u ∧ Gave t w (BitVec.ofInt 32 ((a.toNat : Int) - b.toNat)) s u) ∧
    (iOp w = 0x03 → ∃ u : State, exec (.ostAnd t) s = .next u ∧ Gave t w (a &&& b) s u) ∧
    (iOp w = 0x04 → ∃ u : State, exec (.ostOr t) s = .next u ∧ Gave t w (a ||| b) s u) ∧
    (iOp w = 0x05 → ∃ u : State, exec (.ostXor t) s = .next u ∧ Gave t w (a ^^^ b) s u) ∧
    (iOp w = 0x06 → ∃ u : State, exec (.ostShl t) s = .next u ∧ Gave t w (BitVec.ofNat 32 (a.toNat * 2 ^ (b.toNat % 32))) s u) ∧
    (iOp w = 0x07 → ∃ u : State, exec (.ostShr t) s = .next u ∧ Gave t w (BitVec.ofNat 32 (a.toNat / 2 ^ (b.toNat % 32))) s u) ∧
    (iOp w = 0x08 → ∃ u : State, exec (.ostSar t) s = .next u ∧ Gave t w (BitVec.ofInt 32 (a.toInt / 2 ^ (b.toNat % 32))) s u) ∧
    (iOp w = 0x09 → ∃ u : State, exec (.ostMul t) s = .next u ∧ Gave t w (BitVec.ofNat 32 (a.toNat * b.toNat)) s u) ∧
    (iOp w = 0x0A → ∃ u : State, exec (.ostSltu t) s = .next u ∧ Gave t w (if a.toNat < b.toNat then 1 else 0) s u) ∧
    (iOp w = 0x0B → ∃ u : State, exec (.ostSlt t) s = .next u ∧ Gave t w (if a.toInt < b.toInt then 1 else 0) s u) ∧
    (iOp w = 0x0C → ∃ u : State, exec (.ostMulhu t) s = .next u ∧ Gave t w (BitVec.ofNat 32 (a.toNat * b.toNat / 2 ^ 32)) s u) ∧
    (iOp w = 0x10 → ∃ u : State, exec (.ostAddi t) s = .next u ∧ Gave t w (BitVec.ofInt 32 ((a.toNat : Int) + sext 16 imm)) s u) ∧
    (iOp w = 0x11 → ∃ u : State, exec (.ostAndi t) s = .next u ∧ Gave t w (a &&& BitVec.ofNat 32 imm) s u) ∧
    (iOp w = 0x12 → ∃ u : State, exec (.ostOri t) s = .next u ∧ Gave t w (a ||| BitVec.ofNat 32 imm) s u) ∧
    (iOp w = 0x13 → ∃ u : State, exec (.ostXori t) s = .next u ∧ Gave t w (a ^^^ BitVec.ofNat 32 imm) s u) ∧
    (iOp w = 0x14 → ∃ u : State, exec (.ostShli t) s = .next u ∧ Gave t w (BitVec.ofNat 32 (a.toNat * 2 ^ (imm % 32))) s u) ∧
    (iOp w = 0x15 → ∃ u : State, exec (.ostShri t) s = .next u ∧ Gave t w (BitVec.ofNat 32 (a.toNat / 2 ^ (imm % 32))) s u) ∧
    (iOp w = 0x16 → ∃ u : State, exec (.ostSari t) s = .next u ∧ Gave t w (BitVec.ofInt 32 (a.toInt / 2 ^ (imm % 32))) s u) ∧
    (iOp w = 0x17 → ∃ u : State, exec (.ostLui t) s = .next u ∧ Gave t w (BitVec.ofNat 32 (imm * 2 ^ 16)) s u) ∧
    (iOp w = 0x18 → ∃ u : State, exec (.ostSltiu t) s = .next u ∧ Gave t w (if a.toNat < imm then 1 else 0) s u)

/-- The loads, stores and atomics of an Ostler and its register accesses (R440, R441, R459). At an address that is aligned and inside the
owner's data space a load waits for the bytes there, zero-extended, a store puts the low bytes of RD there and an atomic puts the sum or
the new word there and waits for the old one; every other byte stays. A misaligned address faults with 6, one outside with 7, an
uncorrectable word with 8. A completed access gives its value and the thread goes on. FLD and FST act as the owner's function, the thread
waiting as they do; a thread that the access itself stopped or started anew takes no result of it. That an access acts as it issues is log
entry 56, its byte order log entry 58 (DESIGN CHOICE), the order of the faults log entry 59 and the function that FLD and FST act as log
entry 67 (the others DEDUCED). -/
def Obligations.OstlerMemory : Prop :=
  ∀ (t : ThreadNo) (w : Word) (s : State) (q : Thr) (ea a : Word) (val : Nat → Nat → Word),
    q = s.thr t → a = q.reg (iRa w) → ea = BitVec.ofInt 32 ((a.toNat : Int) + sext 16 (w.toNat % 2 ^ 16)) →
    (∀ pl k, val pl k = BitVec.ofNat 32 (leNat ((List.range k).map fun j => s.dataByte (pl + j)))) →
    (s.Issues t w →
      (∀ pl, s.dataFlips pl < 2 →
        (iOp w = 0x20 → s.DataAt t 4 ea pl → ∃ u : State, exec (.ostLdw t) s = .next u ∧ u.ost.data = s.ost.data ∧
          u.ost.flips = s.ost.flips ∧ Waits t (some (iRd w)) (val pl 4) s u) ∧
        (iOp w = 0x21 → s.DataAt t 2 ea pl → ∃ u : State, exec (.ostLdh t) s = .next u ∧ u.ost.data = s.ost.data ∧
          u.ost.flips = s.ost.flips ∧ Waits t (some (iRd w)) (val pl 2) s u) ∧
        (iOp w = 0x22 → s.DataAt t 1 ea pl → ∃ u : State, exec (.ostLdb t) s = .next u ∧ u.ost.data = s.ost.data ∧
          u.ost.flips = s.ost.flips ∧ Waits t (some (iRd w)) (val pl 1) s u) ∧
        (iOp w = 0x26 → s.DataAt t 4 a pl → ∃ u : State, exec (.ostAmoadd t) s = .next u ∧
          Stored pl 4 (val pl 4 + q.reg (iRb w)).toNat s u ∧ Waits t (some (iRd w)) (val pl 4) s u) ∧
        (iOp w = 0x27 → s.DataAt t 4 a pl → ∃ u : State, exec (.ostAmoswap t) s = .next u ∧
          Stored pl 4 (q.reg (iRb w)).toNat s u ∧ Waits t (some (iRd w)) (val pl 4) s u)) ∧
      (∀ pl, (iOp w = 0x23 → s.DataAt t 4 ea pl → ∃ u : State, exec (.ostStw t) s = .next u ∧
          Stored pl 4 (q.reg (iRd w)).toNat s u ∧ Waits t none 0 s u) ∧
        (iOp w = 0x24 → s.DataAt t 2 ea pl → ∃ u : State, exec (.ostSth t) s = .next u ∧
          Stored pl 2 (q.reg (iRd w)).toNat s u ∧ Waits t none 0 s u) ∧
        (iOp w = 0x25 → s.DataAt t 1 ea pl → ∃ u : State, exec (.ostStb t) s = .next u ∧
          Stored pl 1 (q.reg (iRd w)).toNat s u ∧ Waits t none 0 s u)) ∧
      (∀ i k, (i = Instr.ostLdw t ∧ iOp w = 0x20 ∧ k = 4) ∨ (i = .ostLdh t ∧ iOp w = 0x21 ∧ k = 2) ∨ (i = .ostLdb t ∧ iOp w = 0x22 ∧ k = 1) ∨
          (i = Instr.ostStw t ∧ iOp w = 0x23 ∧ k = 4) ∨ (i = .ostSth t ∧ iOp w = 0x24 ∧ k = 2) ∨ (i = .ostStb t ∧ iOp w = 0x25 ∧ k = 1) →
        (ea.toNat % k ≠ 0 → exec i s = .next ((s.issued t w).thrFault t 6 ea)) ∧
        (ea.toNat % k = 0 → s.dataPlace (s.thrOwner t) ea.toNat = none → exec i s = .next ((s.issued t w).thrFault t 7 ea)) ∧
        (∀ pl, iOp w ≤ 0x22 → s.DataAt t k ea pl → 2 ≤ s.dataFlips pl → exec i s = .next ((s.issued t w).thrFault t 8 ea))) ∧
      (∀ i, (i = Instr.ostAmoadd t ∧ iOp w = 0x26) ∨ (i = .ostAmoswap t ∧ iOp w = 0x27) →
        (a.toNat % 4 ≠ 0 → exec i s = .next ((s.issued t w).thrFault t 6 a)) ∧
        (a.toNat % 4 = 0 → s.dataPlace (s.thrOwner t) a.toNat = none → exec i s = .next ((s.issued t w).thrFault t 7 a)) ∧
        (∀ pl, s.DataAt t 4 a pl → 2 ≤ s.dataFlips pl → exec i s = .next ((s.issued t w).thrFault t 8 a))) ∧
      (∀ s0 n rq, s0 = (s.issued t w).ostWait t none 0 → n = s.thrOwner t → rq = 17 + t.val / 128 → ea.toNat % 4 = 0 → s.pw.fabricLost = false →
        (∀ (x : State) rd v, ((x.thr t).st ≠ 4 → x.fabWait t rd v = x) ∧
          ((x.thr t).st = 4 → x.fabWait t rd v = x.setThr t { x.thr t with acc := some ⟨rd, v⟩ })) ∧
        (iOp w = 0x36 → exec (.ostFld t) s = .next (((s0.regRead n rq ea.toNat).2.fabricAv n
          (s0.outside n rq ea.toNat false)).fabWait t (some (iRd w)) (s0.regRead n rq ea.toNat).1)) ∧
        (iOp w = 0x37 → ∃ x : State, x = s0.regWrite { fn := n, ost := true } ea.toNat (q.reg (iRd w)) ∧
          exec (.ostFst t) s = .next ((x.fabricAv n (s0.outside n rq ea.toNat true)).fabWait t none 0))) ∧
      (ea.toNat % 4 ≠ 0 → (iOp w = 0x36 → exec (.ostFld t) s = .next ((s.issued t w).thrFault t 6 ea)) ∧
        (iOp w = 0x37 → exec (.ostFst t) s = .next ((s.issued t w).thrFault t 6 ea)))) ∧
    (q.st ≠ 4 → exec (.accessComplete t) s = .next s) ∧
    (q.st = 4 → q.acc = none → exec (.accessComplete t) s = .next s) ∧
    (∀ rd v, q.st = 4 → q.acc = some ⟨rd, v⟩ → ∃ u : State, exec (.accessComplete t) s = .next u ∧ u.ost.data = s.ost.data ∧
      Ran t { (match rd with | some r => q.setR r v | none => q) with st := 1, acc := none } s u)

/-- Branches, jumps, calls and returns of an Ostler (R443, R444, R445, R455, R458). A branch that is taken goes to the next word plus the
offset, another to the next word. JR or CALLR of a customer word to a vendor word that is no entry faults with 4, the target in the record;
a jump or call else goes there, a call in a new window of zeros whose w15 holds the word after the call. With seven windows resident a call
traps to the overflow handler, and a return of the last one with spilled frames to the underflow handler; a trap inside a trap, or one too
deep, is a double window fault; the handler's return moves one frame and runs the trapped word again (log entry 62, DEDUCED; FADDR of an
overflow is free by log entry 61, DESIGN CHOICE, and not spoken of). -/
def Obligations.OstlerControl : Prop :=
  ∀ (t : ThreadNo) (w : Word) (s s0 : State) (q : Thr) (a b : Word) (imm next away : Nat), s.canonical → s.Issues t w → q = s.thr t →
    s0 = s.issued t w → a = q.reg (iRd w) → b = q.reg (iRa w) → imm = w.toNat % 2 ^ 16 → next = (q.pc + 1) % 65536 →
    away = (((q.pc : Int) + 1 + sext 16 imm) % 65536).toNat →
    (iOp w = 0x28 → ∃ u : State, exec (.ostBeq t) s = .next u ∧ Went t (if a = b then away else next) s u) ∧
    (iOp w = 0x29 → ∃ u : State, exec (.ostBne t) s = .next u ∧ Went t (if a = b then next else away) s u) ∧
    (iOp w = 0x2A → ∃ u : State, exec (.ostBltu t) s = .next u ∧ Went t (if a.toNat < b.toNat then away else next) s u) ∧
    (iOp w = 0x2B → ∃ u : State, exec (.ostBgeu t) s = .next u ∧ Went t (if b.toNat ≤ a.toNat then away else next) s u) ∧
    (iOp w = 0x2C → ∃ u : State, exec (.ostJmp t) s = .next u ∧ Went t imm s u) ∧
    (iOp w = 0x2E → jumpAllowed q.pc (b.toNat % 65536) → ∃ u : State, exec (.ostJr t) s = .next u ∧ Went t (b.toNat % 65536) s u) ∧
    (iOp w = 0x2D → q.trap = false → q.resident ≠ 7 → ∃ u : State, exec (.ostCall t) s = .next u ∧ Called t imm s u) ∧
    (iOp w = 0x2F → jumpAllowed q.pc (b.toNat % 65536) → q.trap = false → q.resident ≠ 7 →
      ∃ u : State, exec (.ostCallr t) s = .next u ∧ Called t (b.toNat % 65536) s u) ∧
    (∀ i, (i = Instr.ostJr t ∧ iOp w = 0x2E) ∨ (i = .ostCallr t ∧ iOp w = 0x2F) →
      ¬ jumpAllowed q.pc (b.toNat % 65536) → exec i s = .next (s0.thrFault t 4 (BitVec.ofNat 32 (b.toNat % 65536)))) ∧
    (∀ i pc, (i = Instr.ostCall t ∧ iOp w = 0x2D ∧ pc = imm) ∨ (i = .ostCallr t ∧ iOp w = 0x2F ∧ pc = b.toNat % 65536 ∧ jumpAllowed q.pc pc) →
      (q.trap = false → q.resident = 7 → q.spilled < 16 → ∃ u : State, exec i s = .next u ∧
        u.thr t = { q with trap := true, trapOver := true, trapPc := q.pc, pc := 0x100, smp := (u.thr t).smp } ∧
        u.cnt (C.OST_SPILLS (s.thrOwner t)) = min (s.cnt (C.OST_SPILLS (s.thrOwner t)) + 1) (2 ^ 48 - 1) ∧ u.regs = s.regs) ∧
      (q.trap = false → q.resident = 7 → 16 ≤ q.spilled → ∃ u : State, exec i s = .next u ∧
        (u.thr t).st = 6 ∧ (u.thr t).code = 13 ∧ (u.thr t).detail = 0 ∧ (u.thr t).faultPc = q.pc) ∧
      (q.trap = true → ∃ u : State, exec i s = .next u ∧
        (u.thr t).st = 6 ∧ (u.thr t).code = 13 ∧ (u.thr t).detail = 1 ∧ (u.thr t).faultPc = q.pc)) ∧
    (iOp w = 0x30 →
      (q.trap = true → ∃ u : State, exec (.ostRet t) s = .next u ∧ Ran t (u.thr t) s u ∧ u.ost.data = s.ost.data ∧
        (u.thr t).trap = false ∧ (u.thr t).pc = q.trapPc ∧ (u.thr t).cwp = q.cwp ∧
        (q.trapOver = true → (u.thr t).resident = q.resident - 1 ∧ (u.thr t).spilled = q.spilled + 1 ∧ (u.thr t).r = q.r ∧
          ∀ k, k < 16 → SMap.get (fun _ => 0) (u.thr t).spill (q.spilled * 16 + k) =
            SMap.get (fun _ => 0) q.r ((q.cwp + 8 - q.resident) % 7 * 16 + k)) ∧
        (q.trapOver = false → (u.thr t).resident = q.resident + 1 ∧ (u.thr t).spilled = q.spilled - 1 ∧
          ∀ k, k < 16 → SMap.get (fun _ => 0) (u.thr t).r ((q.cwp + 6) % 7 * 16 + k) =
            SMap.get (fun _ => 0) q.spill ((q.spilled - 1) * 16 + k))) ∧
      (q.trap = false → q.resident ≠ 1 → ∃ u : State, exec (.ostRet t) s = .next u ∧ u.ost.data = s.ost.data ∧
        Ran t { q with pc := (q.reg 15).toNat % 65536, cwp := (q.cwp + 6) % 7, resident := q.resident - 1 } s u) ∧
      (q.trap = false → q.resident = 1 → 0 < q.spilled → ∃ u : State, exec (.ostRet t) s = .next u ∧
        u.thr t = { q with trap := true, trapOver := false, trapPc := q.pc, pc := 0x104, smp := (u.thr t).smp } ∧
        u.cnt (C.OST_FILLS (s.thrOwner t)) = min (s.cnt (C.OST_FILLS (s.thrOwner t)) + 1) (2 ^ 48 - 1) ∧ u.regs = s.regs) ∧
      (q.trap = false → q.resident = 1 → q.spilled = 0 → exec (.ostRet t) s = .next (s0.thrExit t 0)))

/-- Creating, joining, ending and waiting (R430, R434 to R439, R447, R464). FORK starts a free thread of the owner, or gives all ones and
counts; JOIN asks the arbiter, which decides one caller after another, those of an earlier cycle first and those of one cycle in ascending
ID: a JOIN of a thread that cannot be joined faults with 11 and of one that waits for this one with 12, else gives the exit value, or
all ones of a faulted one, or waits; EXIT frees a detached thread, gives the value to its joiner, or keeps it. WAITT gives what is due
at once or waits for it, and wakes with it; RDT reads the time and the thread's own numbers, or by a selector above 3 a free value; a reset
frees a thread, SUP_START starts the supervisor at word 0, and KICK is seen by the waiting threads of the owner that select it. Log entries
55, 62 and 66 (DEDUCED) and 60 (DESIGN CHOICE) hold what is the model's reading. -/
def Obligations.OstlerThreads : Prop :=
  ∀ (t : ThreadNo) (s : State), s.canonical →
    (∀ (w : Word) (s0 : State) (q : Thr) (a b : Word) (next : Nat), s.Issues t w → q = s.thr t → s0 = s.issued t w → a = q.reg (iRa w) →
      b = q.reg (iRb w) → next = (q.pc + 1) % 65536 →
      (iOp w = 0x31 → (s.freeThread (s.thrOwner t) (t.val / 128) = none → ∃ u : State, exec (.ostFork t) s = .next u ∧
          u.thr t = { q.setR (iRd w) 0xFFFFFFFF with pc := next, smp := (u.thr t).smp } ∧
          u.cnt (C.OST_FORK_FAIL (s.thrOwner t)) = min (s.cnt (C.OST_FORK_FAIL (s.thrOwner t)) + 1) (2 ^ 48 - 1) ∧
          ∀ i, i ≠ t.val → u.thr i = s.thr i) ∧
        (∀ c, s.freeThread (s.thrOwner t) (t.val / 128) = some c → ∃ u : State, exec (.ostFork t) s = .next u ∧ c ≠ t.val ∧
          s.thrOwner c = s.thrOwner t ∧ (s.thr c).st = 0 ∧
          u.thr t = { q.setR (iRd w) (BitVec.ofNat 32 c) with pc := next, smp := (u.thr t).smp } ∧ (u.thr c).st = 1 ∧
          (u.thr c).pc = a.toNat % 65536 ∧ (u.thr c).reg 17 = b ∧ (u.thr c).reg 18 = BitVec.ofNat 32 t.val ∧
          (u.thr c).detach = decide (w.toNat % 2 = 1) ∧ (∀ r, r < 32 → r ≠ 17 → r ≠ 18 → (u.thr c).reg r = 0) ∧
          (∀ i, i ≠ t.val → i ≠ c → u.thr i = s.thr i) ∧
          u.cnt (C.OST_FORKS (s.thrOwner t)) = min (s.cnt (C.OST_FORKS (s.thrOwner t)) + 1) (2 ^ 48 - 1))) ∧
      (iOp w = 0x32 → ∀ j v due, (s.core (t.val / 16)).due = (j, v) :: due → ∃ u : State, exec (.ostJoin t) s = .next u ∧
        u.ost.data = s.ost.data ∧ Ran t { q with st := 3, ask := some (j, a), rd := iRd w } s u) ∧
      (iOp w = 0x33 → q.slots = [] → (q.detach = true → ∃ u : State, exec (.ostExit t) s = .next u ∧ u.thr t = {} ∧ ∀ i, i ≠ t.val → u.thr i = s.thr i) ∧
        (q.detach = false → s.joiner t = none → ∃ u : State, exec (.ostExit t) s = .next u ∧ u.ost.data = s.ost.data ∧
          Ran t { q with st := 5, exitVal := a } s u) ∧
        (∀ j, q.detach = false → s.joiner t = some j → ∃ u : State, exec (.ostExit t) s = .next u ∧ u.thr t = {} ∧ j ≠ t.val ∧
          (u.thr j).st = 1 ∧ ((s.thr j).rd ≠ 16 → (u.thr j).reg (s.thr j).rd = a) ∧ ∀ i, i ≠ t.val → i ≠ j → u.thr i = s.thr i)) ∧
      (iOp w = 0x34 → ∀ dl m ev, dl = a.toNat * 2 ^ 32 + b.toNat → m = w.toNat % 8 → ev = s.thrEvents t m false →
        ((dl ≤ s.time.now ∨ ev ≠ 0) → ∃ u : State, exec (.ostWaitt t) s = .next u ∧ u.ost.data = s.ost.data ∧
          Ran t { q.setR (iRd w) (BitVec.ofNat 32 ((if dl ≤ s.time.now then 8 else 0) + ev)) with pc := next } s u) ∧
        (s.time.now < dl → ev = 0 → ∃ u : State, exec (.ostWaitt t) s = .next u ∧ u.ost.data = s.ost.data ∧
          Ran t { q with st := 2, deadline := dl, mask := m, rd := iRd w, kicked := false, pc := next } s u)) ∧
      (iOp w = 0x35 → ∀ sel, sel = w.toNat % 2 ^ 16 → ∃ u : State, exec (.ostRdt t) s = .next u ∧ u.ost.data = s.ost.data ∧
        (sel = 0 → Ran t { q.setR (iRd w) (BitVec.ofNat 32 s.time.now) with pc := next, nowHi := BitVec.ofNat 32 (s.time.now / 2 ^ 32) } s u) ∧
        (sel = 1 → Ran t { q.setR (iRd w) q.nowHi with pc := next } s u) ∧
        (sel = 2 → Ran t { q.setR (iRd w) (BitVec.ofNat 32 t.val) with pc := next } s u) ∧
        (sel = 3 → Ran t { q.setR (iRd w) (BitVec.ofNat 32 (s.thrOwner t)) with pc := next } s u) ∧
        (4 ≤ sel → ∃ v, Ran t { q.setR (iRd w) v with pc := next } s u))) ∧
    (∀ (q x : Thr) (j g next : Nat) (a : Word), q = s.thr t → q.ask = some (j, a) → g = a.toNat → x = s.thr g → next = (q.pc + 1) % 65536 →
      ((512 ≤ g ∨ s.thrOwner g ≠ s.thrOwner t ∨ g = t.val ∨ x.st = 0 ∨ x.detach = true ∨ s.joiner g ≠ none) →
        s.joinDecide t = (s.setThr t { q with st := 1, ask := none }).thrFault t 11 a) ∧
      (g < 512 → s.thrOwner g = s.thrOwner t → g ≠ t.val → x.detach = false → s.joiner g = none →
        (x.st = 5 → (s.joinDecide t).thr g = {} ∧
          (s.joinDecide t).thr t = { q.setR q.rd x.exitVal with st := 1, ask := none, pc := next } ∧
          ∀ i, i ≠ t.val → i ≠ g → (s.joinDecide t).thr i = s.thr i) ∧
        (x.st = 6 → Ran t { q.setR q.rd 0xFFFFFFFF with st := 1, ask := none, pc := next } s (s.joinDecide t)) ∧
        (x.st ≠ 0 → x.st ≠ 5 → x.st ≠ 6 → s.joinChain t 512 g = true →
          s.joinDecide t = (s.setThr t { q with st := 1, ask := none }).thrFault t 12 a) ∧
        (x.st ≠ 0 → x.st ≠ 5 → x.st ≠ 6 → s.joinChain t 512 g = false →
          Ran t { q with st := 3, ask := none, target := g, pc := next } s (s.joinDecide t)))) ∧
    ((∀ k, k ∈ s.joinAsks ↔ (s.thr k).ask.isSome = true) ∧
      s.joinAsks.Pairwise fun k m => ∀ i x j y, (s.thr k).ask = some (i, x) → (s.thr m).ask = some (j, y) → i < j ∨ (i = j ∧ k < m)) ∧
    ((s.thr t).st ≠ 2 → exec (.waittWake t) s = .next s) ∧
    (∀ q ev, q = s.thr t → q.st = 2 → ev = s.thrEvents t q.mask q.kicked →
      (s.time.now < q.deadline → ev = 0 → exec (.waittWake t) s = .next s) ∧
      ((q.deadline ≤ s.time.now ∨ ev ≠ 0) → ∃ u : State, exec (.waittWake t) s = .next u ∧ u.ost.data = s.ost.data ∧
        Ran t { q.setR q.rd (BitVec.ofNat 32 ((if q.deadline ≤ s.time.now then 8 else 0) + ev)) with st := 1, kicked := false } s u)) ∧
    (∀ (fn : FnNo), s.writable fn (thrAddr t) = true → ∃ u : State, exec (.ostThreadReset fn t) s = .next (u.settle s) ∧ u.thr t = {} ∧
      ((s.thr t).slots = [] → s.joiner t = none → ∀ i, i ≠ t.val → u.thr i = s.thr i)) ∧
    (∀ (fn : FnNo) (n : OwnerNo), s.writable fn (R.OST_OWN_CTL n) = true →
      (∀ c, s.supervisor n = some c →
        (s.ostFw n = true → s.ostMayRun n = true → s.clusterUp c = true → ∃ u : State, exec (.supStart fn n) s = .next (u.settle s) ∧
          (u.thr c).st = 1 ∧ (u.thr c).pc = 0 ∧ (u.thr c).reg 17 = BitVec.ofNat 32 n.val) ∧
        ((s.ostFw n = false ∨ s.ostMayRun n = false ∨ s.clusterUp c = false) → exec (.supStart fn n) s = .next (s.settle s))) ∧
      (s.supervisor n = none → exec (.supStart fn n) s = .next (s.settle s)) ∧
      (∃ u : State, exec (.ostKick fn n) s = .next (u.settle s) ∧ (∃ o, u = { s with ost := o }) ∧
        u.thr t = (if (s.thr t).st = 2 ∧ nbit (s.thr t).mask 2 = true ∧ s.thrOwner t = n then { s.thr t with kicked := true } else s.thr t)))

/-- The handle slots of an Ostler thread (R460 to R463). An instruction that needs an empty slot faults with 9 on a full one, and one
that needs a full slot on an empty one. XGET takes the head exception copy of the cluster's queue, or gives 0; BALLOC takes a buffer or
gives why not; BFREE empties the slot and releases the hold, or reports a double free; BLD and BST read and write the buffer at an
aligned place inside it, and BLD the exception header in its window; BSEND hands the buffer to a queue of a port of the owner, or drops
it; HPUT gives up the handle and keeps the hold, HTAKE takes one without a hold. No frame of another owner can be reached (R47): of a buffer
that another owner holds BFREE is a double free, and BLD, BST and BSEND fault with 9 (the model's reading, log entry 117). BST and BSEND
write back whole the words of 16 bytes that they store to, and keep the bytes of the buffer beyond the frame; a word that cannot be read
fails them as it fails a BLD. Log entries 58 and 60 (DESIGN CHOICE) and 63 and 64 (DEDUCED) hold the byte order, the size codes, what HTAKE
holds and the bytes never written. -/
def Obligations.OstlerHandles : Prop :=
  ∀ (t : ThreadNo) (w : Word) (s s0 : State) (q : Thr) (a b : Word) (i next rq : Nat), s.Issues t w → q = s.thr t → s0 = s.issued t w →
    a = q.reg (iRa w) → b = q.reg (iRb w) → i = w.toNat % 4 → next = (q.pc + 1) % 65536 → rq = rqCode (s.thrOwner t) (t.val / 128) →
    (∀ c x, (c = Instr.ostXget t ∧ iOp w = 0x38) ∨ (c = .ostBalloc t ∧ iOp w = 0x39) ∨ (c = .ostHtake t ∧ iOp w = 0x3E ∧ nbit w.toNat 4 = true) →
      q.slot i = some x → exec c s = .next (s0.thrFault t 9 (BitVec.ofNat 32 i))) ∧
    (∀ c, (c = Instr.ostBfree t ∧ iOp w = 0x3A) ∨ (c = .ostBld t ∧ iOp w = 0x3B) ∨ (c = .ostBst t ∧ iOp w = 0x3C) ∨
        (c = .ostBsend t ∧ iOp w = 0x3D) ∨ (c = .ostHput t ∧ iOp w = 0x3E ∧ nbit w.toNat 4 = false) →
      q.slot i = none → exec c s = .next (s0.thrFault t 9 (BitVec.ofNat 32 i))) ∧
    (iOp w = 0x38 → q.slot i = none → (s.excQ (s.thrOwner t) (t.val / 128) = [] → ∃ u : State, exec (.ostXget t) s = .next u ∧
        u.ost.data = s.ost.data ∧ Ran t { q.setR (iRd w) 0 with pc := next } s u) ∧
      (∀ x rest, s.excQ (s.thrOwner t) (t.val / 128) = x :: rest → ∃ u : State, exec (.ostXget t) s = .next u ∧
        u.excQ (s.thrOwner t) (t.val / 128) = rest ∧ (u.thr t).slot i = some { handle := x.handle, hdr := some x.hdr } ∧
        (iRd w ≠ 16 → (u.thr t).reg (iRd w) = BitVec.ofNat 32 (2 ^ 31 + x.handle)) ∧ (u.thr t).pc = next ∧
        u.cnt (C.OST_EXC_TAKEN (s.thrOwner t)) = min (s.cnt (C.OST_EXC_TAKEN (s.thrOwner t)) + 1) (2 ^ 48 - 1))) ∧
    (iOp w = 0x39 → q.slot i = none → ((a = 0 ∨ 10240 < a.toNat) → exec (.ostBalloc t) s = .next (s0.ostRd t (iRd w) 5)) ∧
      (a ≠ 0 → a.toNat ≤ 10240 → ∀ ans s1, s0.bpmAlloc rq a.toNat [] = (ans, s1) →
        (∀ h, ans = .granted h → exec (.ostBalloc t) s = .next ((s1.setSlot t i (some { handle := h })).ostRd t (iRd w) 1)) ∧
        (ans = .quota → exec (.ostBalloc t) s = .next (s1.ostRd t (iRd w) 2)) ∧
        (ans = .reserve → exec (.ostBalloc t) s = .next (s1.ostRd t (iRd w) 3)) ∧
        (ans = .empty → exec (.ostBalloc t) s = .next (s1.ostRd t (iRd w) 4)))) ∧
    (∀ x, q.slot i = some x →
      (iOp w = 0x3A → (s.buf x.handle ≠ none → s.foreignBuf (s.thrOwner t) x.handle = false → exec (.ostBfree t) s = .next (((s0.setSlot t i none).ostRelease rq x.handle).ostRd t (iRd w) 0)) ∧
        ((s.buf x.handle = none ∨ s.foreignBuf (s.thrOwner t) x.handle = true) → exec (.ostBfree t) s = .next (((s0.setSlot t i none).bpmDoubleFree rq x.handle).ostRd t (iRd w) 1))) ∧
      (∀ c, (c = Instr.ostBld t ∧ iOp w = 0x3B) ∨ (c = .ostBst t ∧ iOp w = 0x3C) ∨ (c = .ostBsend t ∧ iOp w = 0x3D) →
        s.foreignBuf (s.thrOwner t) x.handle = true → exec c s = .next (s0.thrFault t 9 (BitVec.ofNat 32 i))) ∧
      (∀ k, k = 4 / 2 ^ (w.toNat / 4 % 4) → s.foreignBuf (s.thrOwner t) x.handle = false →
        (iOp w = 0x3B → (a.toNat % k ≠ 0 → exec (.ostBld t) s = .next (s0.thrFault t 6 a)) ∧
          (∀ hd, a.toNat % k = 0 → 16320 ≤ a.toNat → a.toNat < 16384 → x.hdr = some hd → ∃ u : State, exec (.ostBld t) s = .next u ∧
            u.ost.data = s.ost.data ∧ Ran t { q with st := 4, pc := next, acc := some ⟨some (iRd w), BitVec.ofNat 32 (leNat (slice hd (a.toNat - 16320) k))⟩ } s u) ∧
          ((a.toNat < 16320 ∨ 16384 ≤ a.toNat ∨ x.hdr = none) → a.toNat % k = 0 →
            (s.handleBytes x.handle ≤ a.toNat → exec (.ostBld t) s = .next (s0.thrFault t 10 a)) ∧
            (∀ s1, a.toNat < s.handleBytes x.handle → s0.readBuf x.handle a.toNat k = (true, s1) →
              exec (.ostBld t) s = .next (s1.ostBufFail t i x a)) ∧
            (∀ s1 s2 bs, a.toNat < s.handleBytes x.handle → s0.readBuf x.handle a.toNat k = (false, s1) →
              s1.bufBytesAt x.handle a.toNat k = (bs, s2) →
              exec (.ostBld t) s = .next (s2.ostWait t (some (iRd w)) (BitVec.ofNat 32 (leNat bs)))))) ∧
        (iOp w = 0x3C → (a.toNat % k ≠ 0 → exec (.ostBst t) s = .next (s0.thrFault t 6 a)) ∧
          (a.toNat % k = 0 → s.handleBytes x.handle ≤ a.toNat → exec (.ostBst t) s = .next (s0.thrFault t 10 a)) ∧
          (∀ s1, a.toNat % k = 0 → a.toNat < s.handleBytes x.handle → s0.readBuf x.handle a.toNat k = (true, s1) →
            exec (.ostBst t) s = .next (s1.ostBufFail t i x a)) ∧
          (∀ s1 bf, a.toNat % k = 0 → a.toNat < s.handleBytes x.handle → s0.readBuf x.handle a.toNat k = (false, s1) → s1.buf x.handle = some bf →
            ∃ (u : State) (bf' : Buf), exec (.ostBst t) s = .next u ∧ u.buf x.handle = some bf' ∧
              (∀ j, j < k → byteAt bf'.bytes (a.toNat + j) = BitVec.ofNat 8 ((q.reg (iRd w)).toNat / 256 ^ j)) ∧
              (∀ j, j < bf.bytes.length → (j < a.toNat ∨ a.toNat + k ≤ j) → byteAt bf'.bytes j = byteAt bf.bytes j) ∧
              bf'.flips = (bf.flips.filter fun f => !decide (f / 128 = a.toNat / 16)) ∧
              (∀ h, h ≠ x.handle → u.buf h = s1.buf h) ∧ (u.thr t).st = 4 ∧ (u.thr t).pc = next) ∧
          (∀ s1, a.toNat % k = 0 → a.toNat < s.handleBytes x.handle → s0.readBuf x.handle a.toNat k = (false, s1) → s1.buf x.handle = none →
            exec (.ostBst t) s = .next (s1.ostWait t none 0)))) ∧
      (iOp w = 0x3E → nbit w.toNat 4 = false → ∃ u : State, exec (.ostHput t) s = .next u ∧ u.bpm = s.bpm ∧ (u.thr t).slot i = none ∧
        (∀ j, j ≠ i → (u.thr t).slot j = q.slot j) ∧ (iRd w ≠ 16 → (u.thr t).reg (iRd w) = BitVec.ofNat 32 x.handle) ∧ (u.thr t).pc = next) ∧
      (iOp w = 0x3D → s.foreignBuf (s.thrOwner t) x.handle = false → (a.toNat < 64 ∨ s.handleBytes x.handle < a.toNat) → exec (.ostBsend t) s = .next (s0.thrFault t 10 a)) ∧
      (iOp w = 0x3D → s.foreignBuf (s.thrOwner t) x.handle = false → 64 ≤ a.toNat → a.toNat ≤ s.handleBytes x.handle → ∀ sr,
        s0.readBuf x.handle 0 a.toNat = (true, sr) → exec (.ostBsend t) s = .next (sr.ostBufFail t i x a)) ∧
      (iOp w = 0x3D → s.foreignBuf (s.thrOwner t) x.handle = false → 64 ≤ a.toNat → a.toNat ≤ s.handleBytes x.handle → ∀ sr bs s1 bf e c k s2,
        s0.readBuf x.handle 0 a.toNat = (false, sr) →
        sr.bufBytesAt x.handle 0 (a.toNat - 4) = (bs, s1) → sr.buf x.handle = some bf → e = b.toNat % 2 ^ 10 → c = b.toNat / 2 ^ 16 % 16 →
        k = { kind := .injected, handle := x.handle, rq := s.holdRq rq x.handle, port := 1024, len := a.toNat, win := bs.take 512 } →
        s2 = (s1.bufPut x.handle (min bf.bytes.length (a.toNat - 4)) ((withFcs bs).drop (min bf.bytes.length (a.toNat - 4)))).setSlot t i none →
        (∃ bf', s2.buf x.handle = some bf' ∧ bf'.bytes = withFcs bs ++ bf.bytes.drop a.toNat) ∧
        (s.thrOwner t ≠ 0 → s.ownerOfPort e ≠ s.thrOwner t →
          exec (.ostBsend t) s = .next (((s2.xdrop (s.thrOwner t) 1).pktGone k false).ostOn t)) ∧
        ((s.thrOwner t = 0 ∨ s.ownerOfPort e = s.thrOwner t) → ∀ ok s3, s2.tmDirect e c k = (ok, s3) →
          exec (.ostBsend t) s = .next ((if ok then s3 else s3.pktGone k false).ostOn t)))) ∧
    (∀ h, iOp w = 0x3E → nbit w.toNat 4 = true → q.slot i = none → h = a.toNat % 2 ^ 24 → s.handleOk h = true →
      (∀ bf r, s.buf h = some bf → bf.primary = some r → s.rqOwner r = s.thrOwner t) →
      ∃ u : State, exec (.ostHtake t) s = .next u ∧ u.bpm = s.bpm ∧ (u.thr t).slot i = some { handle := h, hold := false } ∧
        (∀ j, j ≠ i → (u.thr t).slot j = q.slot j) ∧ (u.thr t).pc = next)

/-- The program store, the customer region and faults (R445, R446, R449, R451 to R456, R458). A write of program data, by a function that
may give it, stores a customer word and steps the address; it is a violation in the vendor region and busy while the region is on or
checked, and steps all the same; a read answers the word and steps. Enabling an empty owner is refused, else the check begins; it ends
with the entry thread or with the first word that fails; disabling faults the threads that run there. A word that no row lists, one of
bad parity and one of a region that is off fault with 1, 5 and 3, and a fault stops the thread with its record. The entry thread starts
in the lowest free thread of the supervisor's cluster, or CUST_NOSTART is set. In a cycle a core issues the thread of its slot, where that
is enabled and the thread ready, else the first ready thread after it (R432); another thread's word does not issue, and of two cycles within
one core tick each has its own choice. Log entries 55, 65, 66 and 102 (DEDUCED) hold the model's readings. -/
def Obligations.OstlerProgram : Prop :=
  ∀ (fn : FnNo) (n : OwnerNo) (s : State), s.canonical →
    (∀ (v : Word) (pc : Nat) (s1 : State), s.writable fn (R.OST_PS_DATA n) = true → pc = s.fld (R.OST_PS_ADDR n) F.OST_PS_ADDR.ADDR →
      (pc < 0xC000 → exec (.ostPsDataWrite fn n v) s = .next (((s.accessViolation fn (R.OST_PS_DATA n) true false).psStep n).settle s)) ∧
      (0xC000 ≤ pc → s.custState n ≠ 0 → exec (.ostPsDataWrite fn n v) s = .next (((s.custBusy n).psStep n).settle s)) ∧
      (0xC000 ≤ pc → s.custState n = 0 → ∃ u : State, exec (.ostPsDataWrite fn n v) s = .next (u.settle s) ∧ u.psWord n pc = v ∧
        u.psBadAt n pc = false ∧ (∀ x, x < 65536 → x ≠ pc → u.psWord n x = s.psWord n x) ∧
        u.fld (R.OST_PS_ADDR n) F.OST_PS_ADDR.ADDR = (pc + 1) % 65536 ∧ u.ost.thr = s.ost.thr) ∧
      (s1 = s.psStep n → exec (.ostPsDataRead fn n) s = .next (s1.emit (.readData fn (R.OST_PS_DATA n)
        (((s.waitingReg (R.OST_PS_DATA n)).getD (s.psWord n pc)).zeroExtend 64))))) ∧
    (s.writable fn (R.OST_CUST_CTL n) = true →
      (s.custState n = 1 → exec (.ostCustEnable fn n) s = .next ((s.custBusy n).settle s) ∧
        exec (.ostCustDisable fn n) s = .next ((s.custBusy n).settle s)) ∧
      (s.custState n ≠ 1 → s.fld (R.OST_CUST_CTL n) F.OST_CUST_CTL.EN = 0 → exec (.ostCustDisable fn n) s = .next (s.settle s)) ∧
      (s.custState n ≠ 1 → s.presOpen = true →
        (((n.val ≠ 0 ∧ s.inReset n = true) ∨ s.quadsOf n = [] ∨ s.ostFw n = false) → ∃ u : State,
          exec (.ostCustEnable fn n) s = .next (u.settle s) ∧ u.fld (R.OST_CUST_CTL n) F.OST_CUST_CTL.RESULT = 2 ∧
          u.custState n = s.custState n) ∧
        ((n.val = 0 ∨ s.inReset n = false) → s.quadsOf n ≠ [] → s.ostFw n = true → ∃ u : State,
          exec (.ostCustEnable fn n) s = .next (u.settle s) ∧ u.custState n = 1 ∧ u.bit (R.OST_CUST_CTL n) F.OST_CUST_CTL.EN = true ∧
          u.fld (R.OST_CUST_CTL n) F.OST_CUST_CTL.RESULT = 15)) ∧
      (s.custState n ≠ 1 → s.presOpen = true → s.fld (R.OST_CUST_CTL n) F.OST_CUST_CTL.EN = 1 → ∃ u : State,
        exec (.ostCustDisable fn n) s = .next (u.settle s) ∧ u.custState n = 0 ∧ u.bit (R.OST_CUST_CTL n) F.OST_CUST_CTL.EN = false ∧
        ∀ t, t < 512 → s.thrOwner t = n → customer (s.thr t).pc = true → 1 ≤ (s.thr t).st → (s.thr t).st ≤ 4 → (u.thr t).st = 6) ∧
      (∀ i, i = Instr.ostCustEnable fn n ∨ (i = .ostCustDisable fn n ∧ s.fld (R.OST_CUST_CTL n) F.OST_CUST_CTL.EN = 1) →
        s.custState n ≠ 1 → s.presOpen = false → ∃ u : State,
        exec i s = .next (u.settle s) ∧ u.custState n = s.custState n ∧ u.ost = s.ost ∧
        (u.reg R.DEV_PRES_CAUSE).getLsbD F.DEV_PRES_CAUSE.REFUSED.lo = true)) ∧
    ((s.ostMayRun n = false → s.custEntry n = s) ∧
      (s.ostMayRun n = true → (∀ sup, s.supervisor n = some sup → s.freeThread n (sup / 128) = none) →
        s.custEntry n = s.cause (R.OST_OWN_CAUSE n) F.OST_OWN_CAUSE.CUST_NOSTART) ∧
      (∀ sup c, s.ostMayRun n = true → s.supervisor n = some sup → s.freeThread n (sup / 128) = some c →
        s.custEntry n = (s.thrStart c 0xC000 0 (BitVec.ofNat 32 sup) true).addCnt (C.OST_FORKS n) 1)) ∧
    (∀ (c : Fin 32) (j v : Nat) (due : List (Nat × Nat)), ((s.core c).due = [] → s.corePick c = none) ∧
      ((s.core c).due = (j, v) :: due →
        (nbit v 7 = true → (s.thr (16 * c + v % 16)).st = 1 → s.corePick c = some (16 * c + v % 16)) ∧
        (∀ d, (nbit v 7 = false ∨ (s.thr (16 * c + v % 16)).st ≠ 1) → 1 ≤ d → d ≤ 16 → (s.thr (16 * c + (v % 16 + d) % 16)).st = 1 →
          (∀ e, 1 ≤ e → e < d → (s.thr (16 * c + (v % 16 + e) % 16)).st ≠ 1) → s.corePick c = some (16 * c + (v % 16 + d) % 16)) ∧
        ((∀ k, k < 16 → (s.thr (16 * c + k)).st ≠ 1) → s.corePick c = none) ∧
        (∀ t, t / 16 = c.val → ((s.coreIssued t).core c).due = due)) ∧
      (((s.coreCycle j c).core c).slot = ((s.core c).slot + 1) % 64 ∧
        ((s.core c).at_ = s.t16 → ((s.coreCycle j c).core c).due = (s.core c).due ++ [(j, s.ostSlotAt c (((s.core c).slot + 1) % 64))]) ∧
        ((s.core c).at_ ≠ s.t16 → ((s.coreCycle j c).core c).due = [(j, s.ostSlotAt c (((s.core c).slot + 1) % 64))]))) ∧
    (∀ (t : ThreadNo), s.ostTurn t = false → exec (.ostIllegal t) s = .next s ∧ exec (.ostAdd t) s = .next s) ∧
    ((s.custState n ≠ 1 → exec (.ostCustCheckDone n) s = .next s) ∧
      (s.custState n = 1 → (∀ pc, 0xC000 ≤ pc → pc < 65536 → custWordCheck pc (s.psWord n pc) = none) →
        ∃ u : State, exec (.ostCustCheckDone n) s = .next (u.custEntry n) ∧ u.custState n = 2 ∧
          u.fld (R.OST_CUST_CTL n) F.OST_CUST_CTL.RESULT = 0 ∧ u.reg (R.OST_CUST_ERR n) = 0 ∧ ∃ r, u = { s with regs := r }) ∧
      (∀ pc c, s.custState n = 1 → 0xC000 ≤ pc → pc < 65536 → (∀ x, 0xC000 ≤ x → x < pc → custWordCheck x (s.psWord n x) = none) →
        custWordCheck pc (s.psWord n pc) = some c → ∃ u : State, exec (.ostCustCheckDone n) s = .next u ∧ u.custState n = 0 ∧
          u.fld (R.OST_CUST_CTL n) F.OST_CUST_CTL.RESULT = 1 ∧ u.reg (R.OST_CUST_ERR n) = BitVec.ofNat 32 (2 ^ 31 + c * 2 ^ 16 + pc) ∧
          (u.reg (R.OST_OWN_CAUSE n)).getLsbD F.OST_OWN_CAUSE.CUST_FAIL.lo = true ∧ u.ost = s.ost)) ∧
    (∀ (t : ThreadNo) (q : Thr) (w a : Word) (s0 : State), q = s.thr t → s.ostTurn t = true → s0 = s.coreIssued t →
      w = s.psWord (s.thrOwner t) q.pc → a = BitVec.ofNat 32 q.pc →
      (customer q.pc = true → s.custState (s.thrOwner t) ≠ 2 → exec (.ostIllegal t) s = .next (s0.thrFault t 3 a) ∧
        exec (.ostAdd t) s = .next (s0.thrFault t 3 a)) ∧
      ((customer q.pc = false ∨ s.custState (s.thrOwner t) = 2) → s.psBadAt (s.thrOwner t) q.pc = true →
        exec (.ostIllegal t) s = .next (s0.thrFault t 5 a) ∧ exec (.ostAdd t) s = .next (s0.thrFault t 5 a)) ∧
      ((customer q.pc = false ∨ s.custState (s.thrOwner t) = 2) → s.psBadAt (s.thrOwner t) q.pc = false →
        (ostListed (iOp w) = false → exec (.ostIllegal t) s = .next (s0.thrFault t 1 w)) ∧
        (iOp w = 0x01 → w.toNat % 2 ^ 11 ≠ 0 → exec (.ostAdd t) s = .next ((s.issued t w).thrFault t 1 w))) ∧
      (∀ code, ∃ u, u = s.thrFault t code a ∧ (u.thr t).st = 6 ∧ (u.thr t).faultV = true ∧ (u.thr t).faultPc = q.pc ∧
        (q.trap = false → (u.thr t).code = code ∧ (u.thr t).detail = 0 ∧ (u.thr t).faddr = a) ∧
        (q.trap = true → (u.thr t).code = 13 ∧ (u.thr t).detail = 2 ∧ (u.thr t).faddr = BitVec.ofNat 32 code) ∧
        u.cnt (C.OST_FAULTS (s.thrOwner t)) = min (s.cnt (C.OST_FAULTS (s.thrOwner t)) + 1) (2 ^ 48 - 1) ∧
        (u.reg (R.OST_OWN_CAUSE (s.thrOwner t))).getLsbD F.OST_OWN_CAUSE.FAULT.lo = true ∧
        ((s.fq (s.thrOwner t)).length < 16 → u.fq (s.thrOwner t) = s.fq (s.thrOwner t) ++ [t.val])))

/-- Counters and host DMA (R470, R472, R486, R576, R577, R581 to R590). A snapshot is begun for the instant 1,000 ns on, or a busy write
while one runs or stands, and GO reads 1 while it runs; at that instant every counter of the owner is copied, and done, the snapshot freezes
what they read and records the instant; THAW gives the live values back. RESTART empties the sample
buffer. A tail that fits is taken, one that does not stops the ring with error 3, at the write or as the ring starts; EN = 0 zeroes the
pointers; a ready ring stops with 1 on a failed read, also after 10 ms, and with 2 on a malformed descriptor; sheets of stream 0 are served
first and the functions in rotation after them; a frame is injected or refused with its code; a copy and a sheet are written whole and the
descriptor completes, with its status little-endian; a kept hold is released, or the free is bad or double; and a reset of a function
ends its rings and releases every hold of its DMA requester. What the manual leaves open here is log entries 68, 87 and 88 (DEDUCED) and 86,
143, 144 and 158 (DESIGN CHOICE): the instant of a snapshot, the lengths, the turn of a descriptor, a buffer that is too small, cannot be
read or is no longer the function's. -/
def Obligations.CountersAndDma : Prop :=
  ∀ (fn f : FnNo) (n : OwnerNo) (r : RingNo) (v : Word) (s : State),
    (s.writable fn (R.CNT_SNAP_CTL n) = true →
      ((s.snapBusy n || s.frozen n) = true → exec (.cntSnapGo fn n) s = .next ((s.busyWrite fn).settle s)) ∧
      ((s.snapBusy n || s.frozen n) = false → ∃ t : State, exec (.cntSnapGo fn n) s = .next (t.settle s) ∧ t.snapBusy n = true ∧
        t.bit (R.CNT_SNAP_CTL n) F.CNT_SNAP_CTL.GO = true ∧
        t.frozen n = false ∧ t.snapRun n = some { at_ := (s.t16 / 16 + 1000) * 16, got := none } ∧ t.cnts = s.cnts ∧
        ∀ a, a ≠ R.CNT_SNAP_CTL n → t.reg a = s.reg a) ∧
      (∃ t : State, exec (.cntThaw fn n) s = .next (t.settle s) ∧ t.frozen n = false ∧ t.cnts = s.cnts ∧
        (∀ a, s.cntOwner a = some n.val → t.cntRead a = s.cnt a) ∧ ∀ a, a ≠ R.CNT_SNAP_CTL n → t.reg a = s.reg a)) ∧
    (∀ q, s.snapRun n = some q → ∃ c, (s.snapTake n q).snapRun n = some { q with got := some (c, (s.timeAt (4 * q.at_) / 2 ^ 28).toNat, s.reg R.DEV_ROUND_NUM) } ∧
      c.pipes = s.pipesOf n ∧ (∀ e, e ∈ c.copies ↔ e ∈ s.cnts ∧ s.cntOwner e.1 = some n.val) ∧ (s.snapTake n q).cnts = s.cnts ∧ (s.snapTake n q).regs = s.regs) ∧
    ((s.snapRun n = none ∨ (∃ q, s.snapRun n = some q ∧ q.got = none)) → exec (.cntSnapDone n) s = .next s) ∧
    (∀ q c u0 round, s.snapRun n = some q → q.got = some (c, u0, round) → ∃ t : State, exec (.cntSnapDone n) s = .next t ∧
      t.frozen n = true ∧ t.snapBusy n = false ∧ t.snapRun n = none ∧ t.bit (R.CNT_SNAP_CTL n) F.CNT_SNAP_CTL.GO = false ∧
      t.reg (R.CNT_SNAP_NS n) = BitVec.ofNat 32 (TimeVal.ofUnits u0).n ∧ t.reg (R.CNT_SNAP_S n) = BitVec.ofNat 32 (TimeVal.ofUnits u0).s ∧
      t.reg (R.CNT_SNAP_ROUND n) = round ∧
      ∀ (u : State) a, u.cntOwner a = some n.val → u.frozen n = true → u.ctr.snap = t.ctr.snap →
        u.cntRead a = SMap.get (fun _ => 0) c.copies a) ∧
    (s.writable fn (R.CNT_SMP_CTL n) = true → ∃ t : State, exec (.smpRestart fn n v) s = .next (t.settle s) ∧ t.reg (R.CNT_SMP_PTR n) = 0 ∧
      t.fld (R.CNT_SMP_CTL n) F.CNT_SMP_CTL.PERIOD = fldOf v F.CNT_SMP_CTL.PERIOD ∧
      t.bit (R.CNT_SMP_CTL n) F.CNT_SMP_CTL.EN = decide (fldOf v F.CNT_SMP_CTL.EN = 1)) ∧
    (s.writable fn (R.DMA_RING_TAIL f r) = true → ∀ size held more tl, size = s.ringSize f r → tl = fldOf v F.DMA_RING_TAIL.INDEX →
      held = (s.ringTail f r + size - s.ringHead f r) % size → more = (tl + size - s.ringTail f r % size) % size →
      ((s.ringEn f r = false ∨ (tl < size ∧ held + more < size)) →
        exec (.dmaTailWrite fn f r v) s = .next ((s.setFld (R.DMA_RING_TAIL f r) F.DMA_RING_TAIL.INDEX tl).settle s)) ∧
      (s.ringEn f r = true → s.bit (R.DMA_RING_CTL f r) F.DMA_RING_CTL.STOPPED = false → (size ≤ tl ∨ size ≤ held + more) →
        exec (.dmaTailWrite fn f r v) s = .next ((s.ringError f r 3 tl).settle s))) ∧
    (s.writable fn (R.DMA_RING_CTL f r) = true → fldOf v F.DMA_RING_CTL.SIZE_LOG2 = s.fld (R.DMA_RING_CTL f r) F.DMA_RING_CTL.SIZE_LOG2 →
      ∃ t : State, exec (.dmaRingEnWrite fn f r v) s = .next (t.settle s) ∧ t.ringEn f r = decide (fldOf v F.DMA_RING_CTL.EN = 1) ∧
        (fldOf v F.DMA_RING_CTL.EN = 0 → t.ringHead f r = 0 ∧ t.ringTail f r = 0 ∧ t.bit (R.DMA_RING_CTL f r) F.DMA_RING_CTL.STOPPED = false) ∧
        (fldOf v F.DMA_RING_CTL.EN = 1 → (s.ringEn f r = true ∨ s.ringTail f r < s.ringSize f r) →
          ∀ a, a ≠ R.DMA_RING_CTL f r → t.reg a = s.reg a) ∧
        (fldOf v F.DMA_RING_CTL.EN = 1 → s.ringEn f r = false → s.ringSize f r ≤ s.ringTail f r →
          t.bit (R.DMA_RING_CTL f r) F.DMA_RING_CTL.STOPPED = true ∧
          t.reg (R.DMA_RING_ERR f r) = BitVec.ofNat 32 (2 ^ 31 + 3 * 2 ^ 24 + s.ringTail f r))) ∧
    (s.ringReady f r = false → exec (.dmaCompletionTimeout f r) s = .next s) ∧
    (s.ringReady f r = true → exec (.dmaCompletionTimeout f r) s = .next (s.ringError f r 1 (s.ringHead f r))) ∧
    (∀ code ix, code < 16 → ix < 65536 → ∃ t, t = s.ringError f r code ix ∧ t.bit (R.DMA_RING_CTL f r) F.DMA_RING_CTL.STOPPED = true ∧
      t.reg (R.DMA_RING_ERR f r) = BitVec.ofNat 32 (2 ^ 31 + code * 2 ^ 24 + ix) ∧ (t.reg (R.DMA_CAUSE f)).getLsbD (F.DMA_CAUSE.RING_ERR.lo + r) = true) ∧
    (∀ len h code, ∃ ms, (s.ringDone f r len h code).outbox = s.outbox ++ .hostDesc f r (s.ringHead f r) (descBack r len h code) :: ms ∧
      (∀ m ∈ ms, ∃ k, m = .msi k) ∧ (s.ringDone f r len h code).ringHead f r = (s.ringHead f r + 1) % s.ringSize f r % 65536) ∧
    (∀ len code, descBack 0 len none code = [(24, natLE 4 (2 ^ 31 + code))] ∧
      ∀ h, descBack 1 len (some h) code = [(10, natLE 2 len), (16, natLE 4 h), (24, natLE 4 (2 ^ 31 + code))]) ∧
    ((s.ringWork 0 3 = true → (f.val ≠ 0 ∨ r.val ≠ 3) → s.dmaTurn f r = false) ∧ (s.ringWork 0 3 = true → s.dmaTurn 0 3 = true) ∧
      (s.dmaTurn f r = true → (f.val ≠ 0 ∨ r.val ≠ 3) → (s.dmaServed f r).dma.turn = (f + 1) % 17 ∧
        ∃ i, i < 17 ∧ f = (s.dma.turn + i) % 17 ∧ ∀ j, j < i → s.dmaWork ((s.dma.turn + j) % 17) = false) ∧
      (s.dmaTurn f 0 = false → ∀ d frame err, exec (.dmaTxDescriptor f d frame err) s = .next s)) ∧
    (∀ (d frame : Bytes) (s0 : State), s.dmaTurn f 0 = true → s0 = s.dmaServed f 0 →
      exec (.dmaTxDescriptor f d frame true) s = .next (s0.ringError f 0 1 (s.ringHead f 0)) ∧
      (descBad 0 d = true → exec (.dmaTxDescriptor f d frame false) s = .next (s0.ringError f 0 2 (s.ringHead f 0))) ∧
      (descBad 0 d = false → (descLen d < 64 ∨ 10240 < descLen d) → exec (.dmaTxDescriptor f d frame false) s = .next (s0.txRefuse f 6)) ∧
      (descBad 0 d = false → 64 ≤ descLen d → descLen d ≤ 10240 → nbit (descCtl d) 21 = true → ∀ h s1, h = descFld d 16 4 →
        s1 = s0.setKept f ((s.kept f).erase h) →
        ((h ∉ s.kept f ∨ s.ownBuf f h = false) → exec (.dmaTxDescriptor f d frame false) s = .next (s0.txRefuse f 7)) ∧
        (h ∈ s.kept f → s.ownBuf f h = true →
          (s.poolBytes (poolOfH h) < descLen d → ∃ b s2, s0.freeBool = (b, s2) ∧
            exec (.dmaTxDescriptor f d frame false) s = .next (s2.txRefuse f (if b then 6 else 7))) ∧
          (descLen d ≤ s.poolBytes (poolOfH h) → nbit (descCtl d) 20 = false →
            exec (.dmaTxDescriptor f d frame false) s = .next (s1.txInject f d h (descLen d))) ∧
          (∀ sr, descLen d ≤ s.poolBytes (poolOfH h) → nbit (descCtl d) 20 = true → s0.readBuf h 0 (descLen d) = (true, sr) →
            exec (.dmaTxDescriptor f d frame false) s =
              .next (((sr.ringError f 0 1 (sr.ringHead f 0)).setKept f ((s.kept f).erase h)).bpmRelease (rqCode f 4) h)) ∧
          (∀ sr bf bs s2 off, descLen d ≤ s.poolBytes (poolOfH h) → nbit (descCtl d) 20 = true → s0.readBuf h 0 (descLen d) = (false, sr) →
            sr.buf h = some bf → sr.bufBytesAt h 0 (descLen d - 4) = (bs, s2) → off = min bf.bytes.length (descLen d - 4) → ∃ t : State,
            exec (.dmaTxDescriptor f d frame false) s = .next (t.txInject f d h (descLen d)) ∧
            t = (s2.bufPut h off ((withFcs bs).drop off)).setKept f ((s.kept f).erase h) ∧
            ∃ bf', t.buf h = some bf' ∧ bf'.bytes = withFcs bs ++ bf.bytes.drop (descLen d)))) ∧
      (descBad 0 d = false → 64 ≤ descLen d → descLen d ≤ 10240 → nbit (descCtl d) 21 = false → ∀ bs ans s1, bs = fitBytes (descLen d) frame →
        s0.bpmAlloc (rqCode f 4) (descLen d) (if nbit (descCtl d) 20 then fcsAt bs (descLen d) else bs) = (ans, s1) →
        (∀ h, ans = .granted h → exec (.dmaTxDescriptor f d frame false) s = .next (s1.txInject f d h (descLen d))) ∧
        (ans = .quota → exec (.dmaTxDescriptor f d frame false) s = .next (s1.txRefuse f 1)) ∧
        (ans = .reserve → exec (.dmaTxDescriptor f d frame false) s = .next (s1.txRefuse f 2)) ∧
        (ans = .empty → exec (.dmaTxDescriptor f d frame false) s = .next (s1.txRefuse f 3)))) ∧
    (∀ (d : Bytes) c rest s0, (r.val = 1 ∨ r.val = 2) → s.dmaTurn f r = true → descBad r d = false → s.ringQ f r = c :: rest → s0 = s.dmaServed f r →
      (s.ownBuf f c.handle = false → exec (.dmaExcWrite f r d false) s = .next ((s0.setRingQ f r rest).excNotMade f)) ∧
      (∀ s1 bs s2 out code, s.ownBuf f c.handle = true → s0.readBuf c.handle 0 c.len = (false, s1) →
        (s1.setRingQ f r rest).bufBytesAt c.handle 0 c.len = (bs, s2) →
        out = (c.hdr ++ bs).take (descLen d) → code = (if descLen d < (c.hdr ++ bs).length then 5 else 0) →
        (nbit (descCtl d) 0 = false → exec (.dmaExcWrite f r d false) s = .next ((((s2.emit (.hostWrite f r (s2.ringHead f r) out)).bpmRelease
          (rqCode f 4) c.handle).ringDone f r out.length none code).addCnt (C.DMA_EXC_WRITTEN f) 1)) ∧
        (nbit (descCtl d) 0 = true → exec (.dmaExcWrite f r d false) s = .next ((((s2.emit (.hostWrite f r (s2.ringHead f r) out)).setKept f
          (s2.kept f ++ [c.handle])).ringDone f r out.length (some c.handle) code).addCnt (C.DMA_EXC_WRITTEN f) 1))) ∧
      (∀ s1, s.ownBuf f c.handle = true → s0.readBuf c.handle 0 c.len = (true, s1) → s1.bufFenced c.handle = false →
        exec (.dmaExcWrite f r d false) s = .next (s1.ringError f r 1 (s1.ringHead f r)))) ∧
    (∀ (d : Bytes) q s0, s.dmaTurn f 3 = true → descBad 3 d = false → s.sheetNext f = some q → s0 = s.dmaServed f 3 →
      (∀ s1, q.bytes.length ≤ descLen d → (q.handle = none → s1 = s0) →
        (∀ h, q.handle = some h → s0.readBuf h 0 q.bytes.length = (false, s1)) →
        exec (.dmaSheetWrite f d false) s = .next ((((s1.emit (.hostWrite f 3 (s1.ringHead f 3) q.bytes)).ringDone
          f 3 q.bytes.length none 0).wbExported f q.num).addCnt (C.DMA_WB_SHEETS f) 1)) ∧
      (descLen d < q.bytes.length → exec (.dmaSheetWrite f d false) s =
        .next ((s0.ringDone f 3 0 none 4).cause (R.DMA_CAUSE f) F.DMA_CAUSE.DESC_ERR))) ∧
    (∀ h, s.writable fn (R.DMA_FREE f) = true → h = fldOf v F.DMA_FREE.HANDLE →
      (s.buf h = none → exec (.dmaFree fn f v) s = .next ((s.bpmDoubleFree (rqCode f 4) h).settle s)) ∧
      (s.buf h ≠ none → h ∉ s.kept f → exec (.dmaFree fn f v) s = .next ((s.cause (R.DMA_CAUSE f) F.DMA_CAUSE.BAD_FREE).settle s)) ∧
      (s.buf h ≠ none → h ∈ s.kept f →
        exec (.dmaFree fn f v) s = .next (((s.setKept f ((s.kept f).erase h)).bpmRelease (rqCode f 4) h).settle s))) ∧
    (∃ t : State, exec (.functionLevelReset f) s = .next t ∧ t.ringQ f 1 = [] ∧ t.ringQ f 2 = [] ∧ t.kept f = [] ∧
      (s.canonical → ∀ h bf, t.buf h = some bf → bf.primary ≠ some (rqCode f 4) ∧ rqCode f 4 ∉ bf.copies) ∧
      (∀ a, 0xD10000 + f.val * 0x1000 ≤ a → a < 0xD11000 + f.val * 0x1000 → t.reg a = resetValue a) ∧
      (∀ a, (a < 0xD10000 + f.val * 0x1000 ∨ 0xD11000 + f.val * 0x1000 ≤ a) → t.reg a = s.reg a) ∧ t.irq.pcie = s.irq.pcie) ∧
    (∃ t : State, exec .pcieHotReset s = .next t ∧ t.pw.linkUp = false ∧ t.irq.pcie = [] ∧ t.kept f = [] ∧ t.ringEn f r = false ∧
      ∀ a, (a < 0xD10000 ∨ 0xD21000 ≤ a) → t.reg a = s.reg a)

/-- Power, droop, temperature and domains (R491, R493, R497, R498, R504, R506, R509, R513, R515, R545 to R547, R570, R614). An input that
lowers the budget below that behind the grants is granted anew, unless the Postilion missed its boundary; input, heat and overvoltage turn
every switched domain off, the last and the loss of the always-on domain taking the machine's power; a voltage below the droop threshold
raises a region's skip, which falls by 8; low margin holds a region; a sensor at the limit raises its region's skip by 4 and one 3 degrees
below it lowers it, so far as that acts, and THERM_LIMIT sets; a pair of neighbours that goes beyond a limit shows and is counted once, and is
brought together by a step until it lies within the lower limit; a boundary that the Postilion missed raises no ratio for the neighbour rule;
lane groups and domains come up in their turn, become ready, or fail, a fault of a shared domain being DOM_FAULT, and arrays that lose their
power lose their entries. The model's readings are log entries 71, 73 to 76 (DEDUCED) and 72, 160, 161, 168 and 173 (DESIGN CHOICE). -/
def Obligations.PowerAndDomains : Prop :=
  ∀ (s : State),
    (∀ mv : Fin 65536, ((s.pw.b60 ≤ min 396000 (mv * 11) ∨ s.pw.postil = true) → exec (.inputDropRegrant mv) s = .next s) ∧
      (min 396000 (mv * 11) < s.pw.b60 → s.pw.postil = false → ∃ t : State, exec (.inputDropRegrant mv) s = .next t ∧ t.pw.b60 = s.budget60 mv ∧
        t.fld R.PST_BUDGET F.PST_BUDGET.INPUT = s.budget60 mv / 60 ∧ (t.reg R.PST_CAUSE).getLsbD F.PST_CAUSE.INPUT_DROP.lo = true ∧
        t.cnt C.PST_INPUT_DROP = min (s.cnt C.PST_INPUT_DROP + 1) (2 ^ 48 - 1))) ∧
    (s.pw.alive = false → exec .inputUndervoltage s = .next s ∧ exec .thermalTrip s = .next s ∧ exec .inputOvervoltage s = .next s ∧
      ∀ mv : Fin 5000, exec (.alwaysOnDomainLost mv) s = .next { s with pw := { s.pw with inLow := decide (mv.val < 3000) } }) ∧
    (s.pw.alive = true →
      (∃ t : State, exec .inputUndervoltage s = .next t ∧ (∀ d : DomainNo, t.domOn d = false) ∧ t.pw.under = true ∧ t.pw.alive = true ∧
        t.pw.linkUp = false ∧ (s.pw.inLow = false → t.faultNLow = true)) ∧
      (∃ t : State, exec .thermalTrip s = .next t ∧ (∀ d : DomainNo, t.domOn d = false) ∧ t.pw.trip = true ∧ t.pw.alive = true ∧
        t.pw.linkUp = false ∧ (s.pw.inLow = false → t.faultNLow = true)) ∧
      (∃ t : State, exec .inputOvervoltage s = .next t ∧ (∀ d : DomainNo, t.domOn d = false) ∧ t.pw.alive = false ∧ t.pw.overV = true) ∧
      (∀ mv : Fin 5000, ∃ t : State, exec (.alwaysOnDomainLost mv) s = .next t ∧ (∀ d : DomainNo, t.domOn d = false) ∧ t.pw.alive = false ∧
        t.pw.overV = s.pw.overV ∧ t.faultNLow = decide (3000 ≤ mv.val))) ∧
    (∀ (r : RegionNo) (dip : Nat), (dip ≤ s.droopThr → exec (.droopTrip r dip) s = .next s) ∧
      (s.droopThr < dip → ∃ t : State, exec (.droopTrip r dip) s = .next t ∧ (t.region r).droop = max (s.kPower r) s.droopK ∧
        (∀ x, x ≠ r.val → t.region x = s.region x) ∧ t.cnt C.PST_DROOP_EVENTS = min (s.cnt C.PST_DROOP_EVENTS + 1) (2 ^ 48 - 1) ∧
        (t.reg R.PST_CAUSE).getLsbD F.PST_CAUSE.DROOP.lo = true)) ∧
    (s.droopThr = max 8 (min 32 (s.fld R.PST_DROOP_CTL F.PST_DROOP_CTL.THR))) ∧
    (∀ r : RegionNo, ((s.region r).droop = 0 → exec (.droopRecovery r) s = .next s) ∧
      ((s.region r).droop ≠ 0 → ∃ t : State, exec (.droopRecovery r) s = .next t ∧
        (t.region r).droop = (if (s.region r).droop - 8 ≤ s.kPower r then 0 else (s.region r).droop - 8) ∧
        ∀ x, x ≠ r.val → t.region x = s.region x) ∧
      (∃ t : State, exec (.marginLow r) s = .next t ∧ t.region r = { s.region r with margin := true } ∧
        (t.reg R.PST_CAUSE).getLsbD F.PST_CAUSE.MARGIN.lo = true) ∧
      (∀ (c : Int) (k : Nat), -32768 ≤ c → c < 32768 →
        k = (if s.thermLimit ≤ c then min 63 ((s.region r).therm + 4) else if c ≤ s.thermLimit - 12 then (s.region r).therm - 4 else (s.region r).therm) →
        ∃ t : State, exec (.thermalSample [(r, c)]) s = .next t ∧ t.sensor r = some c ∧ (t.region r).therm ≤ k ∧
          (s.thermLimit ≤ c → s.thermHeld = false → (t.reg R.PST_CAUSE).getLsbD F.PST_CAUSE.THERM_LIMIT.lo = true) ∧
          (s.kBase r + k + s.kNb r ≤ 32 → (t.region r).therm = k))) ∧
    (∀ (a b : RegionNo) (q : Fin 3) (gone : Bool) (diff : Nat), b.val ∉ neighbours a → exec (.neighbourEqualise a b q gone diff) s = .next s) ∧
    (∀ (a b : RegionNo) (gone : Bool) (diff d : Nat) (u : State), b.val ∈ neighbours a → d = (if gone = true then min 50 diff else diff) →
      u = s.pairFound (a.val, b.val, 0) (decide (60 < d)) (decide (d ≤ 50)) →
      exec (.neighbourEqualise a b 2 gone diff) s = .next s.kRefresh ∧
      exec (.neighbourEqualise a b 1 gone diff) s = .next ((s.tempPair a b).kRefresh.unmetRise s) ∧
      ((a.val, b.val, 0) ∉ u.pw.equal → exec (.neighbourEqualise a b 0 gone diff) s = .next u) ∧
      ((a.val, b.val, 0) ∈ u.pw.equal → ∃ t : State, exec (.neighbourEqualise a b 0 gone diff) s = .next t ∧
        (t.region a).vraise = (s.region a).vraise + 1 ∧ (∀ x, x ≠ a.val → t.region x = s.region x) ∧ t.pw.beyond = u.pw.beyond)) ∧
    (∀ (a b : RegionNo) (x y : Int), s.sensor a = some x → s.sensor b = some y →
      s.tempPair a b = s.pairFound (a.val, b.val, 1) (decide (120 < x - y)) (decide (x - y ≤ 100))) ∧
    (∀ (a b q : Nat) (far close : Bool) (e : Nat × Nat × Nat) (u : State), e = (a, b, q) → u = s.pairFound e far close →
      (far = true → e ∉ s.pw.beyond → u.pw.beyond = s.pw.beyond ++ [e] ∧ (u.reg R.PST_CAUSE).getLsbD F.PST_CAUSE.NEIGHBOUR.lo = true ∧
        (close = false → e ∈ u.pw.equal) ∧ (e ∈ s.pw.equal → u.cnts = s.cnts) ∧
        (e ∉ s.pw.equal → u.cnt C.PST_NEIGHBOUR_EQ = min (s.cnt C.PST_NEIGHBOUR_EQ + 1) (2 ^ 48 - 1))) ∧
      (far = true → e ∈ s.pw.beyond → u.pw.beyond = s.pw.beyond ∧ u.cnts = s.cnts ∧ u.regs = s.regs) ∧
      (far = false → u.pw.beyond = s.pw.beyond.erase e ∧ u.regs = s.regs ∧ u.cnts = s.cnts ∧
        u.pw.equal = (if close = true then s.pw.equal.erase e else s.pw.equal) ∧
        (close = true → q = 1 → e ∈ s.pw.equal → (∀ x ∈ u.pw.equal, x.1 = a → x.2.2 ≠ 1) → (u.region a).nb = 0))) ∧
    (∀ r : RegionNo, (s.nbRound.region r).nb =
      (if (∃ e ∈ s.pw.equal, e.1 = r.val ∧ e.2.2 = 1) ∧ s.regionExempt r = false then min 63 ((s.region r).nb + 8) else (s.region r).nb)) ∧
    (∀ (o : RoundObs), o.granted = false → (s.grantRound o).pw.postil = true ∧
      ((s.grantRound o).reg R.PST_CAUSE).getLsbD F.PST_CAUSE.POSTILION.lo = true ∧ ∀ r : RegionNo, (s.grantRound o).region r = s.region r) ∧
    (∀ g : GroupNo, ((s.lgDue g = false ∨ (∃ h : GroupNo, h < g ∧ s.lgDue h = true) ∨ 8 ≤ s.lgCal ∨ s.t16 < s.pw.lgRail ∨ s.stage ≠ 9) →
        exec (.laneGroupAdmit g) s = .next s) ∧
      (s.lgDue g = true → (∀ h : GroupNo, h < g → s.lgDue h = false) → s.lgCal < 8 → s.pw.lgRail ≤ s.t16 → s.stage = 9 →
        (s.lgFits = true → ∃ t : State, exec (.laneGroupAdmit g) s = .next t ∧ t.domOn g = true ∧ (∀ d, d ≠ g.val → t.domOn d = s.domOn d) ∧
          ∃ r rail, s.t16 < rail ∧ rail ≤ s.t16 + 8000000 ∧
            t = { s with regs := r, freeIx := s.freeIx + 1, pw := { s.pw with lgWait := false, lgRail := rail } }) ∧
        (s.lgFits = false → ∃ t : State, exec (.laneGroupAdmit g) s = .next t ∧ t.pw = { s.pw with lgWait := true } ∧
          (t.reg R.PST_CAUSE).getLsbD F.PST_CAUSE.LG_DEFER.lo = true ∧ ∀ d : DomainNo, t.domOn d = s.domOn d)) ∧
      ((s.domOn g = false ∨ s.lgReady g = true) → ∀ ok, exec (.laneGroupCalDone g ok) s = .next s) ∧
      (s.domOn g = true → s.lgReady g = false → (∃ t : State, exec (.laneGroupCalDone g true) s = .next t ∧ t.lgReady g = true ∧
          t.bit (R.LG_STATUS g) F.LG_STATUS.PLL_LOCK = true ∧ t.domReady g = true ∧ t.domOn g = true) ∧
        (∃ t : State, exec (.laneGroupCalDone g false) s = .next t ∧ t.domOn g = false ∧
          SMap.get (fun _ => 0) t.pw.lgFails g = SMap.get (fun _ => 0) s.pw.lgFails g + 1 ∧
          (2 ≤ SMap.get (fun _ => 0) s.pw.lgFails g → t.domFail g = true)))) ∧
    (∀ d : DomainNo, (s.domDue d = true → ∃ t : State, exec (.domainAdmit d) s = .next t ∧ t.domOn d = true ∧
        (∀ e, e ≠ d.val → t.domOn e = s.domOn e) ∧ (domRegion d = none → ∃ r, t = { s with regs := r })) ∧
      (s.domDue d = false → exec (.domainAdmit d) s = .next s) ∧
      (64 ≤ d.val → s.domOn d = true → s.domReady d = false → s.domFail d = false →
        (∃ t : State, exec (.domainReady d true) s = .next t ∧ t.domReady d = true ∧ t.domOn d = true ∧ t.domFail d = false) ∧
        (∃ t : State, exec (.domainReady d false) s = .next t ∧ t.domReady d = false ∧ t.domOn d = false ∧ t.domFail d = true ∧
          (t.reg R.DEV_BOOT_CAUSE).getLsbD F.DEV_BOOT_CAUSE.DOM_FAIL.lo = true)) ∧
      ((s.domOn d = false ∨ d.val < 64) → exec (.domainFault d) s = .next s) ∧
      (s.domOn d = true → 96 ≤ d.val → d.val < 112 → exec (.domainFault d) s = .next (s.fenceSlice (d.val - 96))) ∧
      (s.domOn d = true → 64 ≤ d.val → (d.val < 96 ∨ 112 ≤ d.val) → ∃ t : State, exec (.domainFault d) s = .next t ∧ t.domOn d = false ∧
        (d.val < 96 → t.reg (R.PST_REG_GRANT (d.val - 64)) = 0) ∧
        (112 ≤ d.val → d.val < 128 → t.tcPipe (d.val - 112) = {} ∧ ∀ st, st < 24 → t.emStage (d.val - 112) st = {}) ∧
        t.domFail d = true ∧ (s.domShared d = true → (t.reg (R.IRQ_OWN_CAUSE 0)).getLsbD F.IRQ_OWN_CAUSE.DOM_FAULT.lo = true) ∧
        (s.domShared d = true ↔ 128 ≤ d.val ∧ (d.val < 136 ∨ (s.ownerOfPipe (2 * (d.val - 136)) ≠ 0 ∧
          s.ownerOfPipe (2 * (d.val - 136) + 1) ≠ 0 ∧ s.ownerOfPipe (2 * (d.val - 136)) ≠ s.ownerOfPipe (2 * (d.val - 136) + 1)))) ∧
        (d.val < 128 → (t.pipe (d.val % 16)).entry = [] ∧ (t.pipe (d.val % 16)).at_ = [] ∧ (t.pipe (d.val % 16)).egress = [] ∧
          (t.pipe (d.val % 16)).repl = []) ∧
        (d.val < 128 → s.ownerOfPipe (d.val % 16) ≠ 0 →
          (t.reg (R.IRQ_OWN_CAUSE (s.ownerOfPipe (d.val % 16)))).getLsbD F.IRQ_OWN_CAUSE.PIPE_FAULT.lo = true)))

/-- The clocks and the start of the part (R521, R538 to R543, R568, R569, R594, R595, R614). A lost reference or PLL shows and raises its
cause, its return shows; a PLL relocks only on a good reference of a part whose PLLs had locked; a lost fabric or endpoint asserts FAULT_N.
Power comes back with every register at reset, and steps 1 to 4 follow one another, each with its stamp, to the step that fails, where the
part stops; after an undervoltage that left the always-on domain the part takes up step 7 (the model's choice, log entry 162). PERST_N and
then the link come up, at a speed and a width that the endpoint has; the flash is read in the fastest mode and with the addresses that it
declares, or the part waits for the host with the cause; a push reads LEN bytes of host memory, in requests of at most the size that function
0's configuration allows, with GO at 1 until the container has been checked; and a container that passes every check, of its header and
sections, its signatures and its images, fixes the layout, fills the store and begins the admission, one that fails waits again with the
cause. When a step or a read ends within its bound, and where the audit stream begins, are the model's choices (log entries 136 and 163), a
fault of a domain at run time also raises DOM_FAIL by log entry 75 (DEDUCED), and the sizes after reset are log entry 172 (PRESUMED). -/
def Obligations.ClocksAndBoot : Prop :=
  ∀ (s : State),
    ((s.bit R.CLK_STATUS F.CLK_STATUS.REF_OK = false → exec .refclkLoss s = .next s) ∧
      (s.bit R.CLK_STATUS F.CLK_STATUS.REF_OK = true → ∃ t : State, exec .refclkLoss s = .next t ∧ t.bit R.CLK_STATUS F.CLK_STATUS.REF_OK = false ∧
        t.fld R.CLK_STATUS F.CLK_STATUS.PLL_LOCK = s.fld R.CLK_STATUS F.CLK_STATUS.PLL_LOCK ∧
        (t.reg R.CLK_CAUSE).getLsbD F.CLK_CAUSE.REF_LOSS.lo = true ∧ Alarms [R.CLK_STATUS, R.PST_STATUS, R.CLK_CAUSE] s t) ∧
      (s.pw.alive = true → s.bit R.CLK_STATUS F.CLK_STATUS.REF_OK = false → ∃ t : State, exec .refclkReturn s = .next t ∧
        t.bit R.CLK_STATUS F.CLK_STATUS.REF_OK = true ∧ t.bit R.PST_STATUS F.PST_STATUS.REF_LOCK = s.pw.pllsUp ∧
        (∀ a, a ≠ R.CLK_STATUS → a ≠ R.PST_STATUS → t.reg a = s.reg a) ∧
        ∃ r, t = { s with regs := r })) ∧
    (∀ k : Fin 7, (s.pllOk k = false → exec (.pllLossOfLock k) s = .next s) ∧
      (s.pllOk k = true → exec (.pllRelock k) s = .next s ∧ ∃ t : State, exec (.pllLossOfLock k) s = .next t ∧ t.pllOk k = false ∧
        (∀ j : Fin 7, j ≠ k → t.pllOk j = s.pllOk j) ∧ (t.reg R.CLK_CAUSE).getLsbD F.CLK_CAUSE.PLL_LOL.lo = true ∧
        (k.val = 1 → t.timeValid = false) ∧ (k.val = 3 → t.pw.fabricLost = true) ∧ (k.val = 5 → t.enginesUp = 0) ∧
        (k.val = 6 → t.pw.pcieLost = true) ∧ ((k.val = 0 ∨ k.val = 4) → ∀ n : PortNo, s.portEnabled n = true → t.linkUp n = false)) ∧
      (s.pllOk k = false → s.bit R.CLK_STATUS F.CLK_STATUS.REF_OK = true → s.pw.pllsUp = true → s.pw.alive = true →
        ∃ t : State, exec (.pllRelock k) s = .next t ∧ t.pllOk k = true ∧ (∀ j : Fin 7, j ≠ k → t.pllOk j = s.pllOk j) ∧
          ((k.val = 0 ∨ k.val = 4) → ∀ n : OwnerNo, n.val ≠ 0 → t.held2 n = true)) ∧
      (s.pllOk k = false → (s.bit R.CLK_STATUS F.CLK_STATUS.REF_OK = false ∨ s.pw.pllsUp = false ∨ s.pw.alive = false) →
        exec (.pllRelock k) s = .next s)) ∧
    (exec (.fabricLoss true) s = .next { s with pw := { s.pw with pcieLost := true } } ∧
      exec (.fabricLoss false) s = .next { s with pw := { s.pw with fabricLost := true } } ∧
      (s.pw.fabricLost = true ∨ s.pw.pcieLost = true → s.reach = false ∧ (s.pw.inLow = false → s.faultNLow = true))) ∧
    (∀ (loop refOk : Bool) (stop : Fin 10) (plls : Fin 128),
      ((s.pw.overV = true ∨ (s.pw.alive = true ∧ s.pw.under = false)) → exec (.powerGood loop refOk stop plls) s = .next s) ∧
      (s.pw.overV = false → s.pw.alive = true → s.pw.under = true → ∃ t : State, exec (.powerGood loop refOk stop plls) s = .next t ∧
        t.pw = { s.pw with under := false } ∧ t.stage = (if s.stage = 9 then 8 else s.stage) ∧ ∀ a, a ≠ R.DEV_BOOT_STATUS → t.reg a = s.reg a) ∧
      (s.pw.overV = false → exec (.overvoltageRecovery loop refOk stop plls) s = .next s) ∧
      (s.pw.alive = false → s.pw.overV = false → ∃ (t : State) (b : BootRun), exec (.powerGood loop refOk stop plls) s = .next t ∧
        t.pw.alive = true ∧ t.pw.boot = some b ∧ b.stop = stop.val ∧ b.plls = plls.val ∧ b.loop = loop ∧ b.refOk = refOk ∧
        (stop.val = 0 → b.due = s.t16 + 160000000) ∧ (stop.val ≠ 0 → s.t16 < b.due ∧ b.due ≤ s.t16 + 6 * 16000000) ∧
        t.pw.rounds = false ∧ t.pw.goodAt = s.t16 ∧ t.stage = 0 ∧ t.stopped = false ∧ t.reach = false ∧
        t.fuse = s.fuse ∧ t.pending = s.pending ∧ t.t16 = s.t16 ∧ t.presOpen = false ∧ t.em = State.reset.em ∧
        ∀ p : PipeNo, t.pipe p = State.reset.pipe p ∧ t.ownerOfPipe p = 0) ∧
      (s.pw.overV = true → exec (.overvoltageRecovery loop refOk stop plls) s = exec (.powerGood loop refOk stop plls)
        { s with pw := { s.pw with alive := false, overV := false } })) ∧
    (∀ (b : BootRun) (t : State), s.pw.boot = some b → t = s.bootTurn →
      (s.t16 < b.due → t = s) ∧
      (b.due ≤ s.t16 → s.stage = b.stop → b.stop ≤ 3 → t.stopped = true ∧ t.stage = s.stage ∧ t.pw.boot = none ∧
        (b.stop = 3 → b.plls < 128 → t.fld R.CLK_STATUS F.CLK_STATUS.PLL_LOCK = b.plls ∧ (t.reg R.CLK_CAUSE).getLsbD F.CLK_CAUSE.PLL_LOL.lo = true)) ∧
      (b.due ≤ s.t16 → s.stage ≤ 3 → s.stage ≠ b.stop →
        t.reg (R.DEV_BOOT_STAMP s.stage) = BitVec.ofNat 32 (2 ^ 31 + (s.t16 - s.pw.goodAt) / 16000000 % 2 ^ 20) ∧ t.stopped = s.stopped ∧
        (s.stage < 3 → t.stage = s.stage + 1 ∧ ∃ b' : BootRun, t.pw.boot = some b' ∧ { b' with due := b.due } = b ∧ s.t16 < b'.due ∧
          b'.due ≤ s.t16 + 160000000) ∧
        (s.stage = 0 → t.pw.rounds = true ∧ t.bit R.CLK_STATUS F.CLK_STATUS.REF_OK = b.refOk ∧ t.sealOk = b.loop ∧
          (b.loop = false → (t.reg R.DEV_PRES_CAUSE).getLsbD F.DEV_PRES_CAUSE.SEAL_OPEN.lo = true) ∧
          (b.refOk = false → (t.reg R.CLK_CAUSE).getLsbD F.CLK_CAUSE.REF_LOSS.lo = true)) ∧
        (s.stage = 3 → t.stage = 3 ∧ t.pw.boot = none ∧ t.pw.pllsUp = true ∧ t.fld R.CLK_STATUS F.CLK_STATUS.PLL_LOCK = 127 ∧
          t.sealOk = s.sealOk)) ∧
      (b.due ≤ s.t16 → 3 < s.stage → t.pw.boot = none ∧
        (b.ok = true → t.stage = 7 ∧ t.reg (R.DEV_BOOT_STAMP s.stage) = BitVec.ofNat 32 (2 ^ 31 + (s.t16 - s.pw.goodAt) / 16000000 % 2 ^ 20)) ∧
        (b.ok = false → t.stage = 5 ∧ (t.reg R.DEV_BOOT_CAUSE).getLsbD F.DEV_BOOT_CAUSE.HOST_SIG.lo = true))) ∧
    ((s.pw.alive = false → exec .perstDeassert s = .next s) ∧
      (s.pw.alive = true → exec .perstDeassert s = .next { s with pw := { s.pw with perst := true } })) ∧
    (∀ (speed : Fin 8) (lanes : Fin 32),
      ((s.pcieMay = false ∨ speed.val = 0 ∨ 5 < speed.val ∨ (lanes.val ≠ 1 ∧ lanes.val ≠ 2 ∧ lanes.val ≠ 4 ∧ lanes.val ≠ 8)) →
        exec (.pcieLinkUp speed lanes) s = .next s) ∧
      (1 ≤ speed.val → speed.val ≤ 5 → (lanes.val = 1 ∨ lanes.val = 2 ∨ lanes.val = 4 ∨ lanes.val = 8) →
        (s.pw.alive && s.pw.perst && s.pllOk 6 && s.pllOk 3 && !s.pw.linkUp && !s.pw.under && !s.pw.trip) = true → ∃ t : State,
        exec (.pcieLinkUp speed lanes) s = .next t ∧ t.pw.linkUp = true ∧ t.pw.speed = speed ∧ t.pw.lanes = lanes ∧ t.domOn 134 = true ∧
        t.domReady 134 = true)) ∧
    (∀ (modes : Fin 32) (four : Bool) (block : Bytes) (m : Nat), m = spiMode modes →
      (∀ k, k < 5 → (m = k + 1 ↔ nbit modes k = true ∧ ∀ j, k < j → j < 5 → nbit modes j = false)) ∧ (m = 0 ↔ modes.val = 0) ∧
      (s.stage ≠ 3 ∨ s.stopped = true ∨ s.bit (R.DEV_BOOT_STAMP 3) F.DEV_BOOT_STAMP.DONE = false →
        exec (.spiBootRead modes block four) s = .next s) ∧
      (s.stage = 3 → s.stopped = false → s.bit (R.DEV_BOOT_STAMP 3) F.DEV_BOOT_STAMP.DONE = true →
        ∃ t : State, exec (.spiBootRead modes block four) s = .next t ∧ t.fld R.DEV_BOOT_STATUS F.DEV_BOOT_STATUS.SPI_MODE = m ∧
          (m = 0 → t.stage = 5 ∧ (t.reg R.DEV_BOOT_CAUSE).getLsbD F.DEV_BOOT_CAUSE.SPI_NONE.lo = true) ∧
          (m ≠ 0 → containerHeadOk block = false → t.stage = 5 ∧ (t.reg R.DEV_BOOT_CAUSE).getLsbD F.DEV_BOOT_CAUSE.SPI_FORMAT.lo = true) ∧
          (m ≠ 0 → containerHeadOk block = true → t.stage = 4 ∧ t.pw.push = false ∧
            t.outbox = s.outbox ++ [.spiRead m (if four = true then 4 else 3) 0] ∧ ∃ b, t.pw.boot = some b ∧ b.ok = true ∧ s.t16 < b.due ∧
            b.due ≤ s.t16 + 790 * 16000000))) ∧
    (∀ (fn : FnNo) (ok : Bool), s.writable fn R.DEV_PUSH_CTL = true →
      ((s.stage ≠ 5 ∨ s.stopped = true) → exec (.containerPushGo fn ok) s = .next ((s.busyWrite fn).settle s)) ∧
      (s.stage = 5 → s.stopped = false → ∃ (t : State) (b : BootRun), exec (.containerPushGo fn ok) s = .next (t.settle s) ∧
        t.stage = 6 ∧ t.pw.push = true ∧ t.pw.boot = some b ∧ b.ok = ok ∧ s.t16 < b.due ∧ b.due ≤ s.t16 + 10 * 16000000 ∧
        t.bit R.DEV_PUSH_CTL F.DEV_PUSH_CTL.GO = true ∧ t.pw.pushLen = (s.reg R.DEV_PUSH_LEN).toNat ∧
        t.outbox = (s.hostReads 0 ((s.reg R.DEV_PUSH_ADDR_LO).toNat + (s.reg R.DEV_PUSH_ADDR_HI).toNat * 2 ^ 32)
          (s.reg R.DEV_PUSH_LEN).toNat).outbox)) ∧
    (∀ (f addr len m : Nat), m = 128 * 2 ^ (s.pcieCfg f).mrrs → ∃ rs : List (Nat × Nat),
      (s.hostReads f addr len).outbox = s.outbox ++ rs.map (fun r => .hostRead f r.1 r.2) ∧ (rs.map Prod.snd).sum = len ∧
      ∀ r ∈ rs, addr ≤ r.1 ∧ r.1 + r.2 ≤ addr + len ∧ 0 < r.2 ∧ r.1 % m + r.2 ≤ m) ∧
    (∀ (c0 c : Container), c = (if s.pw.push = true then { c0 with raw := c0.raw.take s.pw.pushLen } else c0) →
      ((s.stage ≠ 7 ∨ s.stopped = true) → exec (.deviceLoad c0) s = .next s) ∧
      (∀ f, s.stage = 7 → s.stopped = false → s.containerBad c = some f → ∃ t : State, exec (.deviceLoad c0) s = .next t ∧ t.stage = 5 ∧
        (t.reg R.DEV_BOOT_CAUSE).getLsbD f.lo = true ∧ t.pw.store = s.pw.store ∧ t.bit R.DEV_PUSH_CTL F.DEV_PUSH_CTL.GO = false) ∧
      (s.stage = 7 → s.stopped = false → s.containerBad c = none → ∃ t : State, exec (.deviceLoad c0) s = .next t ∧ t.stage = 8 ∧
        t.pw.store = containerImages c ∧ t.layoutFixed = true ∧ t.ostFw 0 = true ∧ t.bit R.DEV_PUSH_CTL F.DEV_PUSH_CTL.GO = false ∧
        t.fld R.DEV_BOOT_STATUS F.DEV_BOOT_STATUS.SOURCE = (if s.pw.push then 2 else 1)) ∧
      ((containerHeadOk c.raw = false ∨ sectsOk c.raw = false) → s.containerBad c = some F.DEV_BOOT_CAUSE.SPI_FORMAT) ∧
      (containerHeadOk c.raw = true → sectsOk c.raw = true →
        ((sigGood s.fuse.keyHash c.raw = false ∨ ∃ e ∈ containerImages c, sigGood s.fuse.keyHash e.2.raw = false) →
          s.containerBad c = some (if s.pw.push = true then F.DEV_BOOT_CAUSE.HOST_SIG else F.DEV_BOOT_CAUSE.SPI_SIG)) ∧
        (sigGood s.fuse.keyHash c.raw = true → (∀ e ∈ containerImages c, sigGood s.fuse.keyHash e.2.raw = true) →
          ((∃ e ∈ containerImages c, imageOk e.2 = false) → s.containerBad c = some F.DEV_BOOT_CAUSE.LOADER) ∧
          ((∃ e ∈ c.device, 0xC000 ≤ e.1) → s.containerBad c = some F.DEV_BOOT_CAUSE.LOADER) ∧
          ((∃ e ∈ containerImages c, ∃ x ∈ containerImages c, e.2.pools ≠ x.2.pools) → s.containerBad c = some F.DEV_BOOT_CAUSE.LOADER) ∧
          (∀ e0 ∈ containerImages c, (∀ e ∈ containerImages c, imageOk e.2 = true ∧ e.2.pools = e0.2.pools) →
            (∀ e ∈ c.device, e.1 < 0xC000) → s.containerBad c = none))))

/-- Pitches and the device reset (R42, R63, R64, R69, R530, R531). Outside a window a commit and a device reset change nothing but the
count, the cause and the record of the refusal, which the audit shows. A commit reports the first failed condition and changes no owner, or
runs, with GO at 1, and as it completes within 10 µs gives every pipeline the owner that was staged at GO. A write of PIT_CTL sets the bit of
its function, WARDEN_HOLD alone where the Pitch's own function has written in the same fabric cycle, and is held while a commit that affects
the Pitch runs, where it would end the hold; a Pitch that a bit newly holds enters reset at the end of the cycle, with no port enabled and no
packet in a pipeline, and one that no bit holds leaves it then, and the pipelines of others stay. A device reset leaves no owner, clears the
Ostlers and tables, keeps the clocks, the window, the time and the fuses, and returns the start of the part to step 4; a part that stopped
stays stopped. What the audit carries of a commit is log entry 97, which bits hold a Pitch log entry 96, what a Pitch reset and a device reset
keep log entries 77, 98 and 99, and the length of a fabric cycle log entry 116; the time of a commit is log entry 175. -/
def Obligations.PitchesAndDeviceReset : Prop :=
  ∀ (fn : FnNo) (s : State),
    (s.writable fn R.PIT_COMMIT = true → ∃ t : State, exec (.pitCommitGo fn) s = .next (t.settle s) ∧
      (s.presOpen = false → t.reg R.DEV_PRES_REFUSED = s.reg R.DEV_PRES_REFUSED + 1 ∧
        t.reg R.DEV_PRES_LAST = BitVec.ofNat 32 (fn * 2 ^ 27 + R.PIT_COMMIT) ∧
        (t.reg R.DEV_PRES_CAUSE).getLsbD F.DEV_PRES_CAUSE.REFUSED.lo = true ∧ t.reg R.PIT_COMMIT = s.reg R.PIT_COMMIT ∧
        (∃ u : State, Alarms [R.DEV_PRES_REFUSED, R.DEV_PRES_LAST, R.DEV_PRES_CAUSE] s u ∧
          t = u.audit 0x0C true 0 (ownerBytes s.stagedMap ++ natBE 1 (s.fld R.PIT_COMMIT F.PIT_COMMIT.RESULT))) ∧
        ∀ p : PipeNo, t.pipe p = s.pipe p ∧ t.ownerOfPipe p = s.ownerOfPipe p) ∧
      (∀ p : PipeNo, t.pipe p = s.pipe p ∧ t.ownerOfPipe p = s.ownerOfPipe p) ∧
      (s.presOpen = true → s.bit R.PIT_COMMIT F.PIT_COMMIT.GO = true → t.pw.commit = s.pw.commit ∧ t.reg R.PIT_COMMIT = s.reg R.PIT_COMMIT) ∧
      (s.presOpen = true → s.bit R.PIT_COMMIT F.PIT_COMMIT.GO = false →
        (s.commitCheck ≠ 0 → t.fld R.PIT_COMMIT F.PIT_COMMIT.RESULT = s.commitCheck ∧ t.pw.commit = s.pw.commit) ∧
        (s.commitCheck = 0 → t.fld R.PIT_COMMIT F.PIT_COMMIT.RESULT = 15 ∧ t.bit R.PIT_COMMIT F.PIT_COMMIT.GO = true ∧
          ∃ c : CommitRun, t.pw.commit = some c ∧ c.map = (List.range 16).map s.stagedOwner ∧ c.held = [] ∧ s.t16 < c.due ∧
            c.due ≤ s.t16 + 160000))) ∧
    ((s.pw.commit = none → s.commitTurn = s) ∧
      (∀ c, s.pw.commit = some c → (s.t16 < c.due → s.commitTurn = s) ∧
        (c.due ≤ s.t16 → (∀ p : PipeNo, c.map.getD p 0 ≤ 16) → ∃ t : State, s.commitTurn = t ∧ t.pw.commit = none ∧
          t.fld R.PIT_COMMIT F.PIT_COMMIT.RESULT = 0 ∧ t.bit R.PIT_COMMIT F.PIT_COMMIT.GO = false ∧
          ∀ p : PipeNo, t.ownerOfPipe p = c.map.getD p 0 ∧ (c.map.getD p 0 = s.ownerOfPipe p → t.pipe p = s.pipe p) ∧
            (c.map.getD p 0 ≠ s.ownerOfPipe p → t.pipe p = {})))) ∧
    ((∃ p : PipeNo, 17 ≤ s.stagedOwner p) ↔ s.commitCheck = 1) ∧
    (∀ p : PipeNo, s.commitCheck = 0 → s.stagedOwner p ≠ s.ownerOfPipe p → s.stagedOwner p ≤ 16 ∧
      (s.stagedOwner p ≠ 0 → s.pipeFused p = false ∧ s.held2 (s.stagedOwner p) = true) ∧
      (s.ownerOfPipe p ≠ 0 → s.held2 (s.ownerOfPipe p) = true) ∧ ∀ j ∈ s.pw.loads, p.val ∉ j.pipes) ∧
    (∀ (n : OwnerNo) (v : Word) c, n.val ≠ 0 → s.writable fn (R.PIT_CTL n) = true → s.pw.commit = some c → s.mapAffects c.map n = true →
      s.pitFrees fn n v = true → exec (.pitCtlWrite fn n v) s =
        .next (State.settle { s with pw := { s.pw with commit := some { c with held := c.held ++ [(fn.val, n.val, taken (R.PIT_CTL n) v)] } } } s)) ∧
    (∀ (n : OwnerNo) (v : Word), n.val ≠ 0 → s.writable fn (R.PIT_CTL n) = true →
      (∀ c, s.pw.commit = some c → s.mapAffects c.map n = true → s.pitFrees fn n v = false) →
      ∃ t : State, exec (.pitCtlWrite fn n v) s = .next (t.settle s) ∧
        t.fld (R.PIT_CTL n) F.PIT_CTL.SELF_RESET =
          (if fn.val = 0 ∧ s.pitWrote n = true then s.fld (R.PIT_CTL n) F.PIT_CTL.SELF_RESET else fldOf v F.PIT_CTL.SELF_RESET) ∧
        (∀ p : PipeNo, t.pipe p = s.pipe p) ∧
        (s.held2 n = true → t.held2 n = false → s.pitchExists n = true → n.val ∉ s.irq.pitEnter → n.val ∈ t.irq.pitLeave ∧ t.inReset n = true) ∧
        (s.held2 n = false → t.held2 n = true → s.pitchExists n = true → n.val ∉ s.irq.pitLeave → n.val ∈ t.irq.pitEnter ∧
          t.irq.pitLeave = s.irq.pitLeave ∧ t.inReset n = false) ∧
        (s.held2 n = true → t.held2 n = false → n.val ∈ s.irq.pitEnter → s.pitchExists n = true → t.irq.pitLeave = s.irq.pitLeave ∧
          t.irq.pitEnter = s.irq.pitEnter.filter (· != n.val)) ∧
        t.fld (R.PIT_CTL n) F.PIT_CTL.WARDEN_HOLD =
          (if fn.val = 0 then fldOf v F.PIT_CTL.WARDEN_HOLD else s.fld (R.PIT_CTL n) F.PIT_CTL.WARDEN_HOLD) ∧
        (∀ m : OwnerNo, m ≠ n → t.held2 m = s.held2 m) ∧ (∀ p : PipeNo, t.ownerOfPipe p = s.ownerOfPipe p)) ∧
    ((∀ n ∈ s.irq.pitEnter, 1 ≤ n ∧ n ≤ 16) →
      s.pitCycleEnd.irq.pitEnter = [] ∧ s.pitCycleEnd.irq.pitLeave = [] ∧ ∀ p : PipeNo, s.pitCycleEnd.ownerOfPipe p = s.ownerOfPipe p ∧
      (s.ownerOfPipe p ∉ s.irq.pitEnter → s.pitCycleEnd.pipe p = s.pipe p) ∧
      (s.ownerOfPipe p ∈ s.irq.pitEnter → s.pitCycleEnd.pipe p = { img := (s.pipe p).img } ∧
        ∀ e : PortNo, pipeOfPort e = p → s.pitCycleEnd.portEnabled e = false)) ∧
    (exec (.pitCtlWrite fn 0 0) s = .next s) ∧
    (s.writable fn R.CLK_RST_DEV = true → ∃ t : State, exec (.deviceResetGo fn) s = .next (t.settle s) ∧
      (s.presOpen = false → t.reg R.DEV_PRES_REFUSED = s.reg R.DEV_PRES_REFUSED + 1 ∧
        (t.reg R.DEV_PRES_CAUSE).getLsbD F.DEV_PRES_CAUSE.REFUSED.lo = true ∧ t.stage = s.stage ∧
        ∀ p : PipeNo, t.pipe p = s.pipe p ∧ t.ownerOfPipe p = s.ownerOfPipe p) ∧
      (s.presOpen = true → (∀ p : PipeNo, t.pipe p = {} ∧ t.ownerOfPipe p = 0) ∧ t.em = State.reset.em ∧ t.ost = State.reset.ost ∧
        t.fuse = s.fuse ∧ t.t16 = s.t16 ∧ t.time.raw = s.time.raw ∧ t.presOpen = true ∧ t.sealOk = s.sealOk ∧ t.stage = min s.stage 3 ∧
        t.stopped = s.stopped ∧
        t.reg R.CLK_STATUS = s.reg R.CLK_STATUS ∧ (s.timeSrc ≠ 3 → t.reg R.TIME_FREQ = s.reg R.TIME_FREQ) ∧ t.pw.linkUp = s.pw.linkUp ∧ t.pw.store = [] ∧
        t.fld R.CLK_RST_STATUS F.CLK_RST_STATUS.LAST = 1 ∧
        t.fld R.CLK_RST_STATUS F.CLK_RST_STATUS.DEV_RESETS = min 0xFFFF (s.fld R.CLK_RST_STATUS F.CLK_RST_STATUS.DEV_RESETS + 1)))

/-- Presence and the seal (R605, R607, R609), and a function's configuration and pending bits (R560, R576). On a part whose rails stand,
PRESENCE_N low opens or restarts the window where the loop is closed and step 2 has ended, which is when STAGE becomes 2 (Table 20.2); its rise
starts the countdown, and the window's time, CLOSE and the opening of the seal loop close it, each with its cause and its audit event. A write
of IRQ_PEND clears the bits it names and sends the message again while C_n stays; a write of the configuration space keeps what it sets, sizes
of at most 512 and 4,096 bytes among it, and sends a held message once the vector is unmasked. The order of the records of one command is the
model's choice (log entries 77, 97, 116). -/
def Obligations.PresenceSealAndMessages : Prop :=
  ∀ (fn : FnNo) (s : State),
    (∃ t : State, exec .presenceAssert s = .next t ∧ t.presHeld = true ∧
      ((s.pw.alive = true ∧ s.sealOk = true ∧ 2 ≤ s.stage) → ∃ u : State, Alarms [R.DEV_PRES_STATUS, R.DEV_PRES_CAUSE] { s with pres := u.pres } u ∧
        t = u.audit 0x02 false 0 (natBE 2 s.presWindow) ∧ t.presOpen = true ∧ u.pres.window = s.presWindow ∧
        u.pres.openAt = (if s.presOpen = true then s.pres.openAt else s.t16) ∧ u.pres.riseAt = s.pres.riseAt ∧
        (t.reg R.DEV_PRES_CAUSE).getLsbD F.DEV_PRES_CAUSE.WIN_OPEN.lo = true) ∧
      ((s.pw.alive = false ∨ s.sealOk = false ∨ s.stage < 2) → t.presOpen = s.presOpen ∧ (∀ a, a ≠ R.DEV_PRES_STATUS → t.reg a = s.reg a) ∧
        ∃ r, t = { s with regs := r })) ∧
    (s.presHeld = false → exec .presenceRelease s = .next s) ∧
    (s.presHeld = true → ∃ t : State, exec .presenceRelease s = .next t ∧ t.presHeld = false ∧ t.presOpen = s.presOpen ∧
      (∀ a, a ≠ R.DEV_PRES_STATUS → t.reg a = s.reg a) ∧ ∃ r, t = { s with regs := r, pres := { s.pres with riseAt := s.t16 } }) ∧
    ((s.presHeld = true ∨ s.presOpen = false ∨ s.t16 < s.pres.riseAt + s.pres.window * 16000000000) →
      exec .presenceWindowExpiry s = .next s) ∧
    (s.presHeld = false → s.presOpen = true → s.pres.riseAt + s.pres.window * 16000000000 ≤ s.t16 → ∃ t u : State,
      exec .presenceWindowExpiry s = .next t ∧
      Alarms [R.DEV_PRES_STATUS, R.DEV_PRES_CAUSE] s u ∧ t = u.audit 0x03 false 0 (natBE 2 ((s.t16 - s.pres.openAt) / 16000000000)) ∧
      t.presOpen = false ∧ (t.reg R.DEV_PRES_CAUSE).getLsbD F.DEV_PRES_CAUSE.WIN_CLOSE.lo = true) ∧
    (∀ v : Word, s.writable fn R.DEV_PRES_CTL = true → ∃ t : State, exec (.presClose fn v) s = .next (t.settle s) ∧ t.presOpen = false ∧
      t.fld R.DEV_PRES_CTL F.DEV_PRES_CTL.WINDOW =
        (if s.presOpen = true then fldOf v F.DEV_PRES_CTL.WINDOW else s.fld R.DEV_PRES_CTL F.DEV_PRES_CTL.WINDOW) ∧
      (s.presOpen = true → (t.reg R.DEV_PRES_CAUSE).getLsbD F.DEV_PRES_CAUSE.WIN_CLOSE.lo = true) ∧
      (s.presOpen = false → fldOf v F.DEV_PRES_CTL.WINDOW = s.fld R.DEV_PRES_CTL F.DEV_PRES_CTL.WINDOW →
        (∀ a, t.reg a = s.reg a) ∧ ∃ r, t = { s with regs := r })) ∧
    (s.sealOk = false → exec .sealOpen s = .next s) ∧
    (s.sealOk = true → ∃ t : State, exec .sealOpen s = .next t ∧ t.sealOk = false ∧ t.presOpen = false ∧
      (t.reg R.DEV_PRES_CAUSE).getLsbD F.DEV_PRES_CAUSE.SEAL_OPEN.lo = true ∧
      (s.presOpen = true → (t.reg R.DEV_PRES_CAUSE).getLsbD F.DEV_PRES_CAUSE.WIN_CLOSE.lo = true) ∧
      (s.presOpen = false → ∃ u : State, Alarms [R.DEV_PRES_STATUS, R.DEV_PRES_CAUSE] s u ∧ t = u.audit 0x04 false 0 [])) ∧
    ((s.sealOk = true ∨ s.pw.rounds = false) → exec .sealClose s = .next s) ∧
    (s.sealOk = false → s.pw.rounds = true → ∃ t u : State, exec .sealClose s = .next t ∧ Alarms [R.DEV_PRES_STATUS, R.DEV_PRES_CAUSE] s u ∧
      t = u.audit 0x05 false 0 [] ∧ t.sealOk = true ∧ t.presOpen = s.presOpen ∧
      (t.reg R.DEV_PRES_CAUSE).getLsbD F.DEV_PRES_CAUSE.SEAL_CLOSE.lo = true) ∧
    (∀ (n : OwnerNo) (v : Word), s.writable fn (R.IRQ_PEND n) = true → ∃ t u : State, exec (.irqPendWrite fn n v) s = .next (t.settle s) ∧
      u.reg (R.IRQ_PEND n) = s.reg (R.IRQ_PEND n) &&& ~~~v ∧ (∀ a, a ≠ R.IRQ_PEND n → u.reg a = s.reg a) ∧ (∃ r, u = { s with regs := r }) ∧
      t = if u.irqC n = true then u.sendMsi n else u) ∧
    (∀ (f : FnNo) (msiEn mask intxDis : Bool) (mps : Fin 3) (mrrs : Fin 6) (c : PcieCfg), c = s.pcieCfg f →
      ∃ t : State, exec (.pcieConfigWrite f msiEn mask intxDis mps mrrs) s = .next t ∧
        t.pcieCfg f = { msiEn := msiEn, msiMask := mask, msiHeld := c.msiHeld && !(msiEn && !mask), intxDis := intxDis, mps := mps, mrrs := mrrs } ∧
        (∀ g, g ≠ f.val → t.pcieCfg g = s.pcieCfg g) ∧
        t.outbox = (if c.msiHeld = true ∧ msiEn = true ∧ mask = false then s.outbox ++ [.msi f] else s.outbox) ∧
        { t with irq := { t.irq with pcie := s.irq.pcie }, outbox := s.outbox } = s)

/-- The side interfaces (R523, R536, R597 to R603). A transfer starts on an idle master for a command that fits its KIND, a bad one reports 0x5,
and a busy master takes none; it acts on what it took with it. An address that is not acknowledged is tried again after GAP_US while retries are
left; a bus that a check finds stuck ends the transfer with 0x3, and any other end gives the result, the count and the data, does on the bus what
the KIND says, frees the master and raises the cause of a NACK or of a stuck bus. A mailbox request without a cage, beyond its limits or without a
supervisor reports why, and else waits for the firmware, which does not serve a write that is allowed no more. The SMBus target answers from the
end of step 2, with PEC where the host clocks it, and acknowledges no write and no other code; a source that does not run yet reads all ones. The
TAP takes an instruction, BYPASS in place of one that may not take the lands, and the outputs show again what they should as one gives them
back. The lands of the flash are idle, in use and released as bring-up goes on, and an idle master's lands are released. Which lengths fit a KIND, the
order of the mailbox's results, the PEC polynomial, the bits of the boundary-scan register and the value that TRIES shows at a sixteenth attempt
are the model's (log entries 90, 92). -/
def Obligations.SideInterfaces : Prop :=
  ∀ (fn : FnNo) (s : State),
    (∀ (m : Fin 8) (v : Word) (w : Nat → Word),
      (∀ k, w k = taken (R.SB_I2C_CMD m) (putFlds v [(F.SB_I2C_CMD.KIND, k), (F.SB_I2C_CMD.GO, 1)])) → s.writable fn (R.SB_I2C_CMD m) = true →
      (s.bit (R.SB_I2C_CMD m) F.SB_I2C_CMD.GO = false →
        (i2cFits (w 0) = true → ∃ t : State, exec (.i2cWrite fn m v) s = .next (t.settle s) ∧ I2cBegun m 0 (w 0) s t) ∧
        (i2cFits (w 1) = true → ∃ t : State, exec (.i2cRead fn m v) s = .next (t.settle s) ∧ I2cBegun m 1 (w 1) s t) ∧
        (i2cFits (w 2) = true → ∃ t : State, exec (.i2cWriteRead fn m v) s = .next (t.settle s) ∧ I2cBegun m 2 (w 2) s t) ∧
        (∃ t : State, exec (.i2cBadKind fn m v) s = .next (t.settle s) ∧ t.fld (R.SB_I2C_CMD m) F.SB_I2C_CMD.KIND = 3 ∧
          t.reg (R.SB_I2C_STATUS m) = 0x50000000 ∧ t.bit (R.SB_I2C_CMD m) F.SB_I2C_CMD.GO = false ∧
          (∀ a, a ≠ R.SB_I2C_CMD m → a ≠ R.SB_I2C_STATUS m → t.reg a = s.reg a) ∧ ∃ r, t = { s with regs := r })) ∧
      (∀ (k : Fin 3) c, (c = .i2cWrite fn m v ∧ k = 0) ∨ (c = .i2cRead fn m v ∧ k = 1) ∨ (c = .i2cWriteRead fn m v ∧ k = 2) →
        s.bit (R.SB_I2C_CMD m) F.SB_I2C_CMD.GO = false → i2cFits (w k) = false → ∃ t : State, exec c s = .next (t.settle s) ∧
          t.reg (R.SB_I2C_STATUS m) = 0x50000000 ∧ t.bit (R.SB_I2C_CMD m) F.SB_I2C_CMD.GO = false ∧ t.side = s.side) ∧
      (∀ c, c = .i2cWrite fn m v ∨ c = .i2cRead fn m v ∨ c = .i2cWriteRead fn m v ∨ c = .i2cBadKind fn m v →
        s.bit (R.SB_I2C_CMD m) F.SB_I2C_CMD.GO = true → ∃ t : State, exec c s = .next (t.settle s) ∧ t.side = s.side ∧
          (t.reg (R.IRQ_OWN_CAUSE fn)).getLsbD F.IRQ_OWN_CAUSE.BUSY.lo = true ∧ t.reg (R.SB_I2C_STATUS m) = s.reg (R.SB_I2C_STATUS m))) ∧
    ((s.stage ≤ 3 → s.spiLands = .rest true false) ∧ (4 ≤ s.stage → s.stage < 8 → s.spiLands = .inUse) ∧ (8 ≤ s.stage → s.spiLands = .released) ∧
      ∀ m : Fin 8, s.bit (R.SB_I2C_CMD m) F.SB_I2C_CMD.GO = false → s.i2cLands m = some (true, true)) ∧
    (∀ (m : Fin 8) (q : I2cRun), q = s.i2cRun m →
      ((s.bit (R.SB_I2C_CMD m) F.SB_I2C_CMD.GO = false ∨ s.t16 < q.next ∨ fldOf q.ctl F.SB_I2C_CTL.RETRIES < q.tries) →
        exec (.i2cAddressRetry m) s = .next s) ∧
      (s.bit (R.SB_I2C_CMD m) F.SB_I2C_CMD.GO = true → q.next ≤ s.t16 → q.tries ≤ fldOf q.ctl F.SB_I2C_CTL.RETRIES →
        ∃ t : State, exec (.i2cAddressRetry m) s = .next t ∧
          t.i2cRun m = { q with tries := q.tries + 1, next := s.t16 + fldOf q.ctl F.SB_I2C_CTL.GAP_US * 16000 } ∧
          (q.tries < 15 → t.fld (R.SB_I2C_STATUS m) F.SB_I2C_STATUS.TRIES = q.tries + 1) ∧
          t.outbox = s.outbox ++ [.i2c m q.khz [.start, .addr (fldOf q.cmd F.SB_I2C_CMD.ADDR) (decide (fldOf q.cmd F.SB_I2C_CMD.KIND = 1)), .stop]] ∧
          (∀ a, a ≠ R.SB_I2C_STATUS m → t.reg a = s.reg a) ∧
          ∃ r d k, t = { s with regs := r, side := d, outbox := t.outbox, freeIx := k })) ∧
    (∀ q : I2cRun, (fldOf q.ctl F.SB_I2C_CTL.SPEED = 0 → q.khz = 100) ∧ (fldOf q.ctl F.SB_I2C_CTL.SPEED = 1 → q.khz = 400) ∧
      (fldOf q.ctl F.SB_I2C_CTL.SPEED = 2 → q.khz = 1000) ∧
      ∀ a wl rl, a = fldOf q.cmd F.SB_I2C_CMD.ADDR → wl = fldOf q.cmd F.SB_I2C_CMD.WLEN → rl = fldOf q.cmd F.SB_I2C_CMD.RLEN → i2cFits q.cmd = true →
        (fldOf q.cmd F.SB_I2C_CMD.KIND = 0 → q.bus 0 wl = [.start, .addr a false] ++ (q.data.take wl).map .write ++ [.stop]) ∧
        (fldOf q.cmd F.SB_I2C_CMD.KIND = 1 → q.bus 0 rl = [.start, .addr a true, .read rl, .stop]) ∧
        (fldOf q.cmd F.SB_I2C_CMD.KIND = 2 → q.bus 0 (wl + rl) = [.start, .addr a false] ++ (q.data.take wl).map .write ++
          [.start, .addr a true, .read rl, .stop])) ∧
    (∀ (m : Fin 8) (res : Fin 16) (done : Nat) (bytes : Bytes) (bus after : I2cBus) (q : I2cRun) (n : Nat) (frees : I2cBus → List I2cTok),
      q = s.i2cRun m → n = (if res = 0 then q.wlen + q.rlen else min done (q.wlen + q.rlen)) →
      (∀ b, frees b = if b.sdaLow = true then [.pulses, .stop] else []) →
      ((s.bit (R.SB_I2C_CMD m) F.SB_I2C_CMD.GO = false ∨ s.t16 < q.next ∨ (i2cStuck bus = false ∧ s.i2cMay m res = false)) →
        exec (.i2cDone m res done bytes bus after) s = .next s) ∧
      (s.i2cMay m res = true ↔ res.val = 0 ∨ (res.val = 1 ∧ q.tries = fldOf q.ctl F.SB_I2C_CTL.RETRIES + 1) ∨ res.val = 2 ∨ res.val = 4) ∧
      (s.bit (R.SB_I2C_CMD m) F.SB_I2C_CMD.GO = true → q.next ≤ s.t16 →
        (i2cStuck bus = true → ∃ t : State, exec (.i2cDone m res done bytes bus after) s = .next t ∧
          t.fld (R.SB_I2C_STATUS m) F.SB_I2C_STATUS.RESULT = 3 ∧ t.fld (R.SB_I2C_STATUS m) F.SB_I2C_STATUS.BYTES = 0 ∧
          t.bit (R.SB_I2C_STATUS m) F.SB_I2C_STATUS.RECOVERED = false ∧ t.bit (R.SB_I2C_CMD m) F.SB_I2C_CMD.GO = false ∧
          (t.reg R.SB_CAUSE).getLsbD (8 + m) = true ∧ (∀ k : Fin 32, t.reg (R.SB_I2C_DATA m k) = s.reg (R.SB_I2C_DATA m k)) ∧
          ∃ ms, t.outbox = s.outbox ++ (if bus.sdaLow = true then [.i2c m q.khz (frees bus)] else []) ++ ms) ∧
        (i2cStuck bus = false → s.i2cMay m res = true → ∀ held, held = (decide (res.val = 4) && i2cStuck after) →
          ∃ t : State, exec (.i2cDone m res done bytes bus after) s = .next t ∧
          t.fld (R.SB_I2C_STATUS m) F.SB_I2C_STATUS.RESULT = (if held = true then 3 else res.val) ∧
          t.fld (R.SB_I2C_STATUS m) F.SB_I2C_STATUS.BYTES = n % 256 ∧
          t.bit (R.SB_I2C_STATUS m) F.SB_I2C_STATUS.RECOVERED = (!held && (bus.sdaLow || (decide (res.val = 4) && after.sdaLow))) ∧
          t.bit (R.SB_I2C_CMD m) F.SB_I2C_CMD.GO = false ∧
          (∀ k : Fin 32, t.reg (R.SB_I2C_DATA m k) = if n ≤ q.wlen then s.reg (R.SB_I2C_DATA m k)
            else BitVec.ofNat 32 (leNat (slice (splice (s.dataWords (R.SB_I2C_DATA m)) 0 (bytes.take (n - q.wlen))) (4 * k) 4))) ∧
          (res = 1 → (t.reg R.SB_CAUSE).getLsbD m = true) ∧ (held = true → (t.reg R.SB_CAUSE).getLsbD (8 + m) = true) ∧
          (res ≠ 1 → held = false → t.reg R.SB_CAUSE = s.reg R.SB_CAUSE ∧
            t.outbox = s.outbox ++ [.i2c m q.khz (frees bus ++ (q.bus res n ++ if res.val = 4 then frees after else []))])))) ∧
    (∀ (n : PortNo) (v : Word) (w : Nat → Word), (∀ k, w k = putFlds v [(F.PORT_CMIS_CMD.WRITE, k), (F.PORT_CMIS_CMD.GO, 1)]) →
      s.writable fn (R.PORT_CMIS_CMD n) = true →
      (s.bit (R.PORT_CMIS_CMD n) F.PORT_CMIS_CMD.GO = false →
        (∃ t : State, exec (.cmisRead fn n v) s = .next (t.settle s) ∧ CmisTaken n false (w 0) s t) ∧
        (∃ t : State, exec (.cmisWrite fn n v) s = .next (t.settle s) ∧ CmisTaken n true (w 1) s t)) ∧
      (∀ c, c = .cmisRead fn n v ∨ c = .cmisWrite fn n v → s.bit (R.PORT_CMIS_CMD n) F.PORT_CMIS_CMD.GO = true →
        ∃ t : State, exec c s = .next (t.settle s) ∧ t.side = s.side ∧
          (t.reg (R.IRQ_OWN_CAUSE fn)).getLsbD F.IRQ_OWN_CAUSE.BUSY.lo = true)) ∧
    (∀ (n : PortNo) (res : Fin 16) (bytes data : Bytes) (v ad : Word) (wr len : Nat), s.cmisReq n = (v, ad, data) →
      wr = fldOf v F.PORT_CMIS_CMD.WRITE → len = fldOf v F.PORT_CMIS_CMD.LEN →
      ((s.side.cmis.contains n.val = false ∨ res = 1 ∨ 4 ≤ res.val) → exec (.cmisDone n res bytes) s = .next s) ∧
      (∀ ks, s.side.cmis = n.val :: ks → (res = 0 ∨ res = 2 ∨ res = 3) → ∃ t : State, exec (.cmisDone n res bytes) s = .next t ∧
        t.side.cmis = ks ∧ t.bit (R.PORT_CMIS_CMD n) F.PORT_CMIS_CMD.GO = false ∧
        (wr = 1 → s.cmisMayWrite n = false → t.fld (R.PORT_CMIS_STATUS n) F.PORT_CMIS_STATUS.RESULT = 4 ∧ t.outbox = s.outbox ∧
          ∀ k : Fin 32, t.reg (R.PORT_CMIS_DATA n k) = s.reg (R.PORT_CMIS_DATA n k)) ∧
        ((wr = 0 ∨ s.cmisMayWrite n = true) → t.fld (R.PORT_CMIS_STATUS n) F.PORT_CMIS_STATUS.RESULT = res ∧
          t.outbox = s.outbox ++ [.cmis n (s.reg (R.SB_CAGE_MAP n)) (fldOf ad F.PORT_CMIS_ADDR.BANK) (fldOf ad F.PORT_CMIS_ADDR.PAGE)
            (fldOf ad F.PORT_CMIS_ADDR.OFFSET) (if wr = 1 then data.take len else [])] ∧
          ∀ k : Fin 32, t.reg (R.PORT_CMIS_DATA n k) =
            if res = 0 ∧ wr = 0 then
              BitVec.ofNat 32 (leNat (slice (splice (s.dataWords (R.PORT_CMIS_DATA n)) 0 (bytes.take len)) (4 * k) 4))
            else s.reg (R.PORT_CMIS_DATA n k)))) ∧
    (∀ ask : SmbAsk, 1 < s.stage → s.pw.alive = true →
      exec (.smbStatus ask) s = .next (s.smbReply 0 false ask [BitVec.ofNat 8 ((if s.stopped then 128 else 0) + (if s.faultNLow then 64 else 0) +
        (if s.pw.trip then 32 else 0) + (if s.pw.fabricLost || s.pw.pcieLost then 16 else 0) + s.stage)]) ∧
      exec (.smbInputVoltage ask) s = .next (s.smbReply 1 false ask (natLE 2 (if s.reg R.PST_VIN = 0 then 0xFFFF else (s.reg R.PST_VIN).toNat))) ∧
      exec (.smbInputPower ask) s = .next (s.smbReply 2 false ask (natLE 2 (if s.reg R.PST_VIN = 0 then 0xFFFF else s.fld R.PST_PIN F.PST_PIN.AVG))) ∧
      (s.hottest = none → exec (.smbHottestSensor ask) s = .next (s.smbReply 3 false ask [0xFF, 0xFF])) ∧
      (∀ x, s.hottest = some x → exec (.smbHottestSensor ask) s = .next (s.smbReply 3 false ask (natLE 2 (trunc 16 x)))) ∧
      (s.pllOk 3 = true → exec (.smbIrqSummary ask) s = .next (s.smbReply 4 true ask (natLE 4 (s.irqSum 0) ++ natLE 1 (s.irqMaxSev 0)))) ∧
      (s.pllOk 3 = false → exec (.smbIrqSummary ask) s = .next (s.smbReply 4 true ask [0xFF, 0xFF, 0xFF, 0xFF, 0xFF])) ∧
      exec (.smbSerial ask) s = .next (s.smbReply 5 true ask (if 3 ≤ s.stage then natLE 8 s.fuse.serial.toNat else List.replicate 8 0xFF)) ∧
      exec (.smbPcieStatus ask) s = .next (s.smbReply 6 false ask (if s.pw.linkUp then natLE 1 (128 + s.pw.speed % 8 * 16 + s.pw.lanes % 16)
        else if s.pw.perst && s.pllOk 6 && s.pllOk 3 then [0] else [0xFF]))) ∧
    (∀ ask : SmbAsk, (s.stage ≤ 1 ∨ s.pw.alive = false) → exec (.smbStatus ask) s = .next s ∧ exec (.smbInputVoltage ask) s = .next s ∧
      exec (.smbInputPower ask) s = .next s ∧ exec (.smbHottestSensor ask) s = .next s ∧ exec (.smbIrqSummary ask) s = .next s ∧
      exec (.smbSerial ask) s = .next s ∧ exec (.smbPcieStatus ask) s = .next s) ∧
    (∀ (code : BitVec 8) (bits : List Bool),
      (s.pw.alive = true → exec (.jtagBypass code) s = .next (s.tapTakes (tapCode code) none) ∧ exec .jtagIdcode s = .next (s.tapTakes 1 (some 0x1A10954F)) ∧
        exec (.jtagSamplePreload bits) s = .next ((s.tapTakes 2 none).setBsr bits) ∧
        exec .jtagTestLogicReset s = .next (s.tapTakes 1 (some 0x1A10954F))) ∧
      (s.pw.alive = false → ∀ c ∈ [Instr.jtagBypass code, .jtagIdcode, .jtagSamplePreload bits, .jtagTestLogicReset, .jtagExtest, .jtagExtestPulse,
        .jtagExtestTrain, .jtagClamp, .jtagHighz], exec c s = .next s)) ∧
    (s.pw.alive = true → (∃ t : State, exec .jtagExtest s = .next t ∧ TapLands 3 s t) ∧ (∃ t : State, exec .jtagExtestPulse s = .next t ∧ TapLands 4 s t) ∧
      (∃ t : State, exec .jtagExtestTrain s = .next t ∧ TapLands 5 s t) ∧ (∃ t : State, exec .jtagClamp s = .next t ∧ TapLands 6 s t) ∧
      (∃ t : State, exec .jtagHighz s = .next t ∧ TapLands 7 s t))
end

