-- ==== Sys2Proof/Laws/Map.lean ====
section
/-! SUPPORT. The laws of sparse maps: a read after a write, and that a write and a removal keep the canonical form. -/

namespace Sys2Proof.Machine

theorem SMap.get_filter_ne {α : Type} (d : Nat → α) (m : SMap α) (k j : Nat) (h : j ≠ k) :
    SMap.get d (m.filter fun e => e.1 != k) j = SMap.get d m j := by
  induction m with
  | nil => rfl
  | cons e m ih =>
    obtain ⟨k', v⟩ := e
    rw [List.filter_cons]
    by_cases hk : k' = k
    · subst hk; simp [SMap.get, h, ih]
    · simp [hk, SMap.get, ih]

theorem SMap.get_filter_same {α : Type} (d : Nat → α) (m : SMap α) (k : Nat) :
    SMap.get d (m.filter fun e => e.1 != k) k = d k := by
  induction m with
  | nil => rfl
  | cons e m ih =>
    obtain ⟨k', v⟩ := e
    rw [List.filter_cons]
    by_cases hk : k' = k
    · subst hk; simpa using ih
    · have : k ≠ k' := fun e => hk e.symm
      simp [hk, SMap.get, this, ih]

theorem SMap.get_ins_ne {α : Type} (d : Nat → α) (m : SMap α) (k j : Nat) (v : α) (h : j ≠ k) :
    SMap.get d (SMap.ins m k v) j = SMap.get d m j := by
  induction m with
  | nil => simp [SMap.ins, SMap.get, h]
  | cons e m ih =>
    unfold SMap.ins
    split
    · simp [SMap.get, h]
    · simp [SMap.get, ih]

theorem SMap.get_ins_same {α : Type} (d : Nat → α) (m : SMap α) (k : Nat) (v : α) (h : ∀ e ∈ m, e.1 ≠ k) :
    SMap.get d (SMap.ins m k v) k = v := by
  induction m with
  | nil => simp [SMap.ins, SMap.get]
  | cons e m ih =>
    have he : e.1 ≠ k := h e (List.mem_cons_self ..)
    unfold SMap.ins
    split
    · simp [SMap.get]
    · have : k ≠ e.1 := fun x => he x.symm
      simp only [SMap.get, if_neg this]
      exact ih fun e' m' => h e' (List.mem_cons_of_mem _ m')

variable {α : Type} [DecidableEq α] (d : Nat → α)

/-- A read of another index is as before a write. -/
theorem SMap.get_put_ne (m : SMap α) (k j : Nat) (v : α) (h : j ≠ k) :
    SMap.get d (SMap.put d m k v) j = SMap.get d m j := by
  unfold SMap.put
  split
  · exact SMap.get_filter_ne d m k j h
  · rw [SMap.get_ins_ne d _ k j v h, SMap.get_filter_ne d m k j h]

/-- A read after a write to the same index gives the value written. -/
@[simp] theorem SMap.get_put_same (m : SMap α) (k : Nat) (v : α) : SMap.get d (SMap.put d m k v) k = v := by
  unfold SMap.put
  split
  · rename_i hv; rw [SMap.get_filter_same, hv]
  · refine SMap.get_ins_same d _ k v fun e he => ?_
    simpa using (List.mem_filter.mp he).2

/-- A read after a write. -/
theorem SMap.get_put (m : SMap α) (k j : Nat) (v : α) :
    SMap.get d (SMap.put d m k v) j = if j = k then v else SMap.get d m j := by
  split
  · rename_i h; subst h; exact SMap.get_put_same d m j v
  · rename_i h; exact SMap.get_put_ne d m k j v h

omit [DecidableEq α] in
/-- Weaken the lower bound of a rising list. -/
theorem SMap.rising_mono (b c : Nat) (m : SMap α) (hbc : b ≤ c) (h : SMap.rising c m = true) : SMap.rising b m = true := by
  cases m with
  | nil => rfl
  | cons e m =>
    obtain ⟨k, v⟩ := e
    simp only [SMap.rising, Bool.and_eq_true, decide_eq_true_eq] at h ⊢
    exact ⟨by omega, h.2⟩

omit [DecidableEq α] in
theorem SMap.rising_filter (p : Nat × α → Bool) (b : Nat) (m : SMap α) (h : SMap.rising b m = true) :
    SMap.rising b (m.filter p) = true := by
  induction m generalizing b with
  | nil => rfl
  | cons e m ih =>
    obtain ⟨k, v⟩ := e
    simp only [SMap.rising, Bool.and_eq_true, decide_eq_true_eq] at h
    rw [List.filter_cons]
    split
    · simp only [SMap.rising, Bool.and_eq_true, decide_eq_true_eq]; exact ⟨h.1, ih k h.2⟩
    · exact SMap.rising_mono b k _ (by omega) (ih k h.2)

omit [DecidableEq α] in
theorem SMap.sorted_of_rising (b : Nat) (m : SMap α) (h : SMap.rising b m = true) : SMap.sorted m = true := by
  cases m with
  | nil => rfl
  | cons e m => simp only [SMap.rising, Bool.and_eq_true] at h; exact h.2

omit [DecidableEq α] in
theorem SMap.sorted_filter (p : Nat × α → Bool) (m : SMap α) (h : SMap.sorted m = true) : SMap.sorted (m.filter p) = true := by
  cases m with
  | nil => rfl
  | cons e m =>
    have hr : SMap.rising e.1 m = true := h
    rw [List.filter_cons]
    split
    · exact SMap.rising_filter p e.1 m hr
    · exact SMap.sorted_of_rising e.1 _ (SMap.rising_filter p e.1 m hr)

/-- A removal keeps the canonical form. -/
theorem SMap.wf_filter (p : Nat × α → Bool) (m : SMap α) (h : SMap.wf d m = true) : SMap.wf d (m.filter p) = true := by
  simp only [SMap.wf, Bool.and_eq_true] at h ⊢
  refine ⟨SMap.sorted_filter p m h.1, ?_⟩
  rw [List.all_eq_true] at h ⊢
  exact fun x hx => h.2 x (List.mem_filter.mp hx).1

omit [DecidableEq α] in
theorem SMap.rising_ins (b : Nat) (m : SMap α) (k : Nat) (v : α) (hb : b < k) (hk : ∀ e ∈ m, e.1 ≠ k)
    (h : SMap.rising b m = true) : SMap.rising b (SMap.ins m k v) = true := by
  induction m generalizing b with
  | nil => simp [SMap.ins, SMap.rising, hb]
  | cons e m ih =>
    obtain ⟨k', v'⟩ := e
    have hne : k' ≠ k := hk _ (List.mem_cons_self ..)
    simp only [SMap.rising, Bool.and_eq_true, decide_eq_true_eq] at h
    unfold SMap.ins
    split
    · rename_i hlt; simp only [SMap.rising, Bool.and_eq_true, decide_eq_true_eq]; exact ⟨hb, hlt, h.2⟩
    · rename_i hlt
      simp only [SMap.rising, Bool.and_eq_true, decide_eq_true_eq]
      exact ⟨h.1, ih k' (by simp only [] at hlt; omega) (fun e he => hk e (List.mem_cons_of_mem _ he)) h.2⟩

omit [DecidableEq α] in
theorem SMap.sorted_ins (m : SMap α) (k : Nat) (v : α) (hk : ∀ e ∈ m, e.1 ≠ k) (h : SMap.sorted m = true) :
    SMap.sorted (SMap.ins m k v) = true := by
  cases m with
  | nil => rfl
  | cons e m =>
    obtain ⟨k', v'⟩ := e
    have hne : k' ≠ k := hk _ (List.mem_cons_self ..)
    unfold SMap.ins
    split
    · rename_i hlt; simp only [SMap.sorted, SMap.rising, Bool.and_eq_true, decide_eq_true_eq]; exact ⟨hlt, h⟩
    · rename_i hlt
      exact SMap.rising_ins k' m k v (by simp only [] at hlt; omega) (fun e he => hk e (List.mem_cons_of_mem _ he)) h

omit [DecidableEq α] in
theorem SMap.mem_ins (m : SMap α) (k : Nat) (v : α) (e : Nat × α) (h : e ∈ SMap.ins m k v) : e = (k, v) ∨ e ∈ m := by
  induction m with
  | nil => simpa [SMap.ins] using h
  | cons x m ih =>
    unfold SMap.ins at h
    split at h
    · simpa using h
    · rcases List.mem_cons.mp h with rfl | h
      · exact .inr (List.mem_cons_self ..)
      · rcases ih h with h | h
        · exact .inl h
        · exact .inr (List.mem_cons_of_mem _ h)

/-- A write keeps the canonical form. -/
theorem SMap.wf_put (m : SMap α) (k : Nat) (v : α) (h : SMap.wf d m = true) : SMap.wf d (SMap.put d m k v) = true := by
  have hf := SMap.wf_filter d (fun e => e.1 != k) m h
  unfold SMap.put
  split
  · exact hf
  · rename_i hv
    simp only [SMap.wf, Bool.and_eq_true] at hf ⊢
    refine ⟨SMap.sorted_ins _ k v (fun e he => by simpa using (List.mem_filter.mp he).2) hf.1, ?_⟩
    rw [List.all_eq_true] at hf ⊢
    intro e he
    rcases SMap.mem_ins _ k v e he with rfl | he
    · simpa using hv
    · exact hf.2 e he

theorem SMap.wf_foldl {β : Type} (f : SMap α → β → SMap α) (l : List β) (m : SMap α) (h : SMap.wf d m = true)
    (hf : ∀ m x, SMap.wf d m = true → SMap.wf d (f m x) = true) : SMap.wf d (l.foldl f m) = true := by
  induction l generalizing m with
  | nil => exact h
  | cons x l ih => exact ih _ (hf _ _ h)

end Sys2Proof.Machine
end

