-- ==== Sys2Proof/Laws/Reg.lean ====
section
/-! SUPPORT. The laws of register fields, registers and counters: a read after a write. -/

namespace Sys2Proof.Machine

/-- A word split at a field: what is below it, the field, and what is above it. -/
theorem fld_split (w lo k : Nat) : w = w / 2 ^ (lo + k) * 2 ^ (lo + k) + w / 2 ^ lo % 2 ^ k * 2 ^ lo + w % 2 ^ lo := by
  have h1 := Nat.div_add_mod w (2 ^ lo)
  have h2 := Nat.div_add_mod (w / 2 ^ lo) (2 ^ k)
  rw [Nat.div_div_eq_div_mul, ← Nat.pow_add] at h2
  have h3 : 2 ^ lo * (w / 2 ^ lo) = 2 ^ (lo + k) * (w / 2 ^ (lo + k)) + 2 ^ lo * (w / 2 ^ lo % 2 ^ k) := by
    conv_lhs => rw [← h2]
    rw [Nat.mul_add, ← Nat.mul_assoc, ← Nat.pow_add]
  rw [Nat.mul_comm (w / 2 ^ (lo + k)), Nat.mul_comm (w / 2 ^ lo % 2 ^ k)]
  omega

theorem putFld_toNat (w : Word) (f : Fld) (v : Nat) (h : f.lo + f.w ≤ 32) :
    (putFld w f v).toNat = w.toNat / 2 ^ (f.lo + f.w) * 2 ^ (f.lo + f.w) + v % 2 ^ f.w * 2 ^ f.lo + w.toNat % 2 ^ f.lo := by
  have hs := fld_split w.toNat f.lo f.w
  have hv : v % 2 ^ f.w < 2 ^ f.w := Nat.mod_lt _ (Nat.two_pow_pos _)
  have hl : w.toNat % 2 ^ f.lo < 2 ^ f.lo := Nat.mod_lt _ (Nat.two_pow_pos _)
  have hhi : w.toNat / 2 ^ (f.lo + f.w) < 2 ^ (32 - (f.lo + f.w)) := by
    rw [Nat.div_lt_iff_lt_mul (Nat.two_pow_pos _), ← Nat.pow_add]
    have : 32 - (f.lo + f.w) + (f.lo + f.w) = 32 := by omega
    rw [this]; exact w.isLt
  have hb : v % 2 ^ f.w * 2 ^ f.lo + w.toNat % 2 ^ f.lo < 2 ^ (f.lo + f.w) := by
    rw [Nat.pow_add]
    calc v % 2 ^ f.w * 2 ^ f.lo + w.toNat % 2 ^ f.lo < v % 2 ^ f.w * 2 ^ f.lo + 2 ^ f.lo := by omega
      _ = (v % 2 ^ f.w + 1) * 2 ^ f.lo := by rw [Nat.add_mul, Nat.one_mul]
      _ ≤ 2 ^ f.w * 2 ^ f.lo := Nat.mul_le_mul_right _ hv
      _ = 2 ^ f.lo * 2 ^ f.w := Nat.mul_comm ..
  have ht : w.toNat / 2 ^ (f.lo + f.w) * 2 ^ (f.lo + f.w) + 2 ^ (f.lo + f.w) ≤ 2 ^ 32 := by
    calc w.toNat / 2 ^ (f.lo + f.w) * 2 ^ (f.lo + f.w) + 2 ^ (f.lo + f.w)
        = (w.toNat / 2 ^ (f.lo + f.w) + 1) * 2 ^ (f.lo + f.w) := by rw [Nat.add_mul, Nat.one_mul]
      _ ≤ 2 ^ (32 - (f.lo + f.w)) * 2 ^ (f.lo + f.w) := Nat.mul_le_mul_right _ hhi
      _ = 2 ^ 32 := by rw [← Nat.pow_add]; congr 1; omega
  unfold putFld fldOf
  rw [BitVec.toNat_ofNat]
  have e : w.toNat - w.toNat / 2 ^ f.lo % 2 ^ f.w * 2 ^ f.lo + v % 2 ^ f.w * 2 ^ f.lo =
      w.toNat / 2 ^ (f.lo + f.w) * 2 ^ (f.lo + f.w) + v % 2 ^ f.w * 2 ^ f.lo + w.toNat % 2 ^ f.lo := by omega
  rw [e, Nat.mod_eq_of_lt (by omega)]

/-- A field reads the value written to it. -/
theorem fldOf_putFld (w : Word) (f : Fld) (v : Nat) (h : f.lo + f.w ≤ 32) : fldOf (putFld w f v) f = v % 2 ^ f.w := by
  have hv : v % 2 ^ f.w < 2 ^ f.w := Nat.mod_lt _ (Nat.two_pow_pos _)
  unfold fldOf
  rw [putFld_toNat w f v h]
  have : (w.toNat / 2 ^ (f.lo + f.w) * 2 ^ (f.lo + f.w) + v % 2 ^ f.w * 2 ^ f.lo + w.toNat % 2 ^ f.lo) / 2 ^ f.lo =
      w.toNat / 2 ^ (f.lo + f.w) * 2 ^ f.w + v % 2 ^ f.w := by
    have e : w.toNat / 2 ^ (f.lo + f.w) * 2 ^ (f.lo + f.w) + v % 2 ^ f.w * 2 ^ f.lo + w.toNat % 2 ^ f.lo =
        w.toNat % 2 ^ f.lo + 2 ^ f.lo * (w.toNat / 2 ^ (f.lo + f.w) * 2 ^ f.w + v % 2 ^ f.w) := by
      rw [Nat.mul_add, ← Nat.mul_assoc, Nat.mul_comm (2 ^ f.lo) (w.toNat / 2 ^ (f.lo + f.w)), Nat.mul_assoc, ← Nat.pow_add,
        Nat.mul_comm (2 ^ f.lo) (v % 2 ^ f.w)]
      omega
    rw [e, Nat.add_mul_div_left _ _ (Nat.two_pow_pos _), Nat.div_eq_of_lt (Nat.mod_lt _ (Nat.two_pow_pos _)), Nat.zero_add]
  rw [this, Nat.add_comm, Nat.add_mul_mod_self_right, Nat.mod_eq_of_lt hv]

/-- A field that lies beside the one written reads as before. -/
theorem fldOf_putFld_ne (w : Word) (f g : Fld) (v : Nat) (h : f.lo + f.w ≤ 32) (d : g.lo + g.w ≤ f.lo ∨ f.lo + f.w ≤ g.lo) :
    fldOf (putFld w f v) g = fldOf w g := by
  have hv : v % 2 ^ f.w < 2 ^ f.w := Nat.mod_lt _ (Nat.two_pow_pos _)
  have hl : w.toNat % 2 ^ f.lo < 2 ^ f.lo := Nat.mod_lt _ (Nat.two_pow_pos _)
  unfold fldOf
  rw [putFld_toNat w f v h]
  rcases d with d | d
  · -- below: the words agree modulo 2 ^ f.lo
    have key : ∀ x : Nat, x / 2 ^ g.lo % 2 ^ g.w = x % 2 ^ f.lo / 2 ^ g.lo % 2 ^ g.w := by
      intro x
      have : 2 ^ f.lo = 2 ^ g.lo * 2 ^ (f.lo - g.lo) := by rw [← Nat.pow_add]; congr 1; omega
      rw [this, Nat.mod_mul_right_div_self, Nat.mod_mod_of_dvd]
      exact Nat.pow_dvd_pow 2 (by omega)
    rw [key, key w.toNat]
    have : (w.toNat / 2 ^ (f.lo + f.w) * 2 ^ (f.lo + f.w) + v % 2 ^ f.w * 2 ^ f.lo + w.toNat % 2 ^ f.lo) % 2 ^ f.lo =
        w.toNat % 2 ^ f.lo := by
      rw [Nat.pow_add, Nat.mul_comm (2 ^ f.lo) (2 ^ f.w), ← Nat.mul_assoc, ← Nat.add_mul, Nat.add_comm, Nat.add_mul_mod_self_right,
        Nat.mod_mod]
    rw [this]
  · -- above: the words agree when divided by 2 ^ (f.lo + f.w)
    have key : ∀ x : Nat, x / 2 ^ g.lo = x / 2 ^ (f.lo + f.w) / 2 ^ (g.lo - (f.lo + f.w)) := by
      intro x
      rw [Nat.div_div_eq_div_mul, ← Nat.pow_add]; congr 2; omega
    have hb : v % 2 ^ f.w * 2 ^ f.lo + w.toNat % 2 ^ f.lo < 2 ^ (f.lo + f.w) := by
      rw [Nat.pow_add]
      calc v % 2 ^ f.w * 2 ^ f.lo + w.toNat % 2 ^ f.lo < v % 2 ^ f.w * 2 ^ f.lo + 2 ^ f.lo := by omega
        _ = (v % 2 ^ f.w + 1) * 2 ^ f.lo := by rw [Nat.add_mul, Nat.one_mul]
        _ ≤ 2 ^ f.w * 2 ^ f.lo := Nat.mul_le_mul_right _ hv
        _ = 2 ^ f.lo * 2 ^ f.w := Nat.mul_comm ..
    rw [key, key w.toNat]
    have : (w.toNat / 2 ^ (f.lo + f.w) * 2 ^ (f.lo + f.w) + v % 2 ^ f.w * 2 ^ f.lo + w.toNat % 2 ^ f.lo) / 2 ^ (f.lo + f.w) =
        w.toNat / 2 ^ (f.lo + f.w) := by
      rw [Nat.add_assoc, Nat.mul_comm (w.toNat / 2 ^ (f.lo + f.w)), Nat.mul_add_div (Nat.two_pow_pos _), Nat.div_eq_of_lt hb, Nat.add_zero]
    rw [this]

/-! ### Registers -/

variable (s : State)

@[simp] theorem State.reg_setReg (a : Nat) (v : Word) : (s.setReg a v).reg a = v := SMap.get_put_same ..

theorem State.reg_setReg_ne (a b : Nat) (v : Word) (h : b ≠ a) : (s.setReg a v).reg b = s.reg b := SMap.get_put_ne _ _ _ _ _ h

theorem State.reg_setReg_if (a b : Nat) (v : Word) : (s.setReg a v).reg b = if b = a then v else s.reg b := SMap.get_put ..

@[simp] theorem State.reg_setFld (a : Nat) (f : Fld) (v : Nat) : (s.setFld a f v).reg a = putFld (s.reg a) f v := SMap.get_put_same ..

theorem State.reg_setFld_ne (a b : Nat) (f : Fld) (v : Nat) (h : b ≠ a) : (s.setFld a f v).reg b = s.reg b :=
  SMap.get_put_ne _ _ _ _ _ h

theorem State.reg_setBit_ne (a b : Nat) (f : Fld) (v : Bool) (h : b ≠ a) : (s.setBit a f v).reg b = s.reg b :=
  SMap.get_put_ne _ _ _ _ _ h

theorem State.fld_setFld (a : Nat) (f : Fld) (v : Nat) (h : f.lo + f.w ≤ 32) : (s.setFld a f v).fld a f = v % 2 ^ f.w := by
  unfold State.fld; rw [State.reg_setFld, fldOf_putFld _ _ _ h]

theorem State.fld_setFld_beside (a : Nat) (f g : Fld) (v : Nat) (h : f.lo + f.w ≤ 32)
    (d : g.lo + g.w ≤ f.lo ∨ f.lo + f.w ≤ g.lo) : (s.setFld a f v).fld a g = s.fld a g := by
  unfold State.fld; rw [State.reg_setFld, fldOf_putFld_ne _ _ _ _ h d]

theorem State.fld_setFld_ne (a b : Nat) (f g : Fld) (v : Nat) (h : b ≠ a) : (s.setFld a f v).fld b g = s.fld b g := by
  unfold State.fld; rw [State.reg_setFld_ne _ _ _ _ _ h]

theorem State.fld_setBit_ne (a b : Nat) (f g : Fld) (v : Bool) (h : b ≠ a) : (s.setBit a f v).fld b g = s.fld b g := by
  unfold State.fld; rw [State.reg_setBit_ne _ _ _ _ _ h]

theorem State.fld_setReg (a : Nat) (f : Fld) (v : Word) : (s.setReg a v).fld a f = fldOf v f := by
  unfold State.fld; rw [State.reg_setReg]

theorem State.fld_setReg_ne (a b : Nat) (f : Fld) (v : Word) (h : b ≠ a) : (s.setReg a v).fld b f = s.fld b f := by
  unfold State.fld; rw [State.reg_setReg_ne _ _ _ _ h]

theorem State.bit_setBit (a : Nat) (f : Fld) (v : Bool) (h : f.lo + f.w ≤ 32) (h1 : 1 ≤ f.w) : (s.setBit a f v).bit a f = v := by
  have h2 : 1 < 2 ^ f.w := Nat.one_lt_two_pow (by omega)
  unfold State.bit State.setBit
  rw [State.fld_setFld _ _ _ _ h]
  cases v
  · simp
  · simp [Nat.mod_eq_of_lt h2]

theorem State.bit_setBit_ne (a b : Nat) (f g : Fld) (v : Bool) (h : b ≠ a) : (s.setBit a f v).bit b g = s.bit b g := by
  unfold State.bit; rw [State.fld_setBit_ne _ _ _ _ _ _ h]

theorem State.bit_setFld_ne (a b : Nat) (f g : Fld) (v : Nat) (h : b ≠ a) : (s.setFld a f v).bit b g = s.bit b g := by
  unfold State.bit; rw [State.fld_setFld_ne _ _ _ _ _ _ h]

theorem State.bit_setReg_ne (a b : Nat) (f : Fld) (v : Word) (h : b ≠ a) : (s.setReg a v).bit b f = s.bit b f := by
  unfold State.bit; rw [State.fld_setReg_ne _ _ _ _ _ h]

theorem State.bit_setBit_beside (a : Nat) (f g : Fld) (v : Bool) (h : f.lo + f.w ≤ 32)
    (d : g.lo + g.w ≤ f.lo ∨ f.lo + f.w ≤ g.lo) : (s.setBit a f v).bit a g = s.bit a g := by
  unfold State.bit State.setBit; rw [State.fld_setFld_beside _ _ _ _ _ h d]

/-! ### Counters -/

theorem State.cnt_setCnt (a v : Nat) : (s.setCnt a v).cnt a = v % 2 ^ 48 := by
  unfold State.cnt State.setCnt; simp [BitVec.toNat_ofNat]

theorem State.cnt_setCnt_ne (a b v : Nat) (h : b ≠ a) : (s.setCnt a v).cnt b = s.cnt b := by
  unfold State.cnt State.setCnt; rw [SMap.get_put_ne _ _ _ _ _ h]

theorem State.cnt_addCnt (a k : Nat) : (s.addCnt a k).cnt a = min (s.cnt a + k) (2 ^ 48 - 1) := by
  unfold State.addCnt; rw [State.cnt_setCnt]; exact Nat.mod_eq_of_lt (by omega)

theorem State.cnt_addCnt_ne (a b k : Nat) (h : b ≠ a) : (s.addCnt a k).cnt b = s.cnt b := State.cnt_setCnt_ne _ _ _ _ h

end Sys2Proof.Machine
end

