-- ==== Sys2Proof/Laws/Alarm.lean ====
section
/-! SUPPORT. What the start of a cause changes: its own bit, the interrupt block, and messages that leave the part. -/

namespace Sys2Proof.Machine

theorem Alarms.refl (as : List Nat) (s : State) : Alarms as s s := ⟨fun _ _ _ => rfl, rfl, [], by simp, by simp⟩

theorem Alarms.trans {as : List Nat} {s t u : State} (h : Alarms as s t) (k : Alarms as t u) : Alarms as s u := by
  obtain ⟨ms, e1, m1⟩ := h.out
  obtain ⟨ns, e2, m2⟩ := k.out
  refine ⟨fun b hb hi => (k.regs b hb hi).trans (h.regs b hb hi), ?_, ms ++ ns, by rw [e2, e1, List.append_assoc], ?_⟩
  · have hk := k.rest
    have hh := h.rest
    rw [← hh]
    conv_rhs => rw [← hk]
  · intro m hm
    rcases List.mem_append.1 hm with hm | hm
    · exact m1 m hm
    · exact m2 m hm

theorem Alarms.mono {as bs : List Nat} {s t : State} (h : Alarms as s t) (hs : ∀ a ∈ as, a ∈ bs ∨ irqBlock a) : Alarms bs s t :=
  ⟨fun b hb hi => h.regs b (fun hm => (hs b hm).elim hb hi) hi, h.rest, h.out⟩

/-- A register is stored. -/
theorem Alarms.setReg (as : List Nat) (s : State) (a : Nat) (v : Word) (ha : a ∈ as ∨ irqBlock a) : Alarms as s (s.setReg a v) := by
  refine ⟨fun b hb hi => ?_, rfl, [], by simp [State.setReg], by simp⟩
  have : b ≠ a := by rintro rfl; exact ha.elim hb hi
  exact State.reg_setReg_ne _ _ _ _ this

theorem State.sendMsi_alarms (as : List Nat) (s : State) (n : Nat) : Alarms as s (s.sendMsi n) := by
  unfold State.sendMsi
  dsimp only
  split
  · exact Alarms.refl ..
  · split
    · exact ⟨fun _ _ _ => rfl, rfl, [], by simp, by simp⟩
    · exact ⟨fun _ _ _ => rfl, rfl, [.msi n], rfl, by simp⟩

theorem irqBlock_pend {n : Nat} (h : n < 32) : irqBlock (R.IRQ_PEND n) := by unfold irqBlock R.IRQ_PEND; omega
theorem irqBlock_lastId {n : Nat} (h : n < 32) : irqBlock (R.IRQ_LAST_ID n) := by unfold irqBlock R.IRQ_LAST_ID; omega
theorem irqBlock_lastS {n : Nat} (h : n < 32) : irqBlock (R.IRQ_LAST_S n) := by unfold irqBlock R.IRQ_LAST_S; omega
theorem irqBlock_lastSF {n : Nat} (h : n < 32) : irqBlock (R.IRQ_LAST_SF n) := by unfold irqBlock R.IRQ_LAST_SF; omega
theorem irqBlock_lastNS {n : Nat} (h : n < 32) : irqBlock (R.IRQ_LAST_NS n) := by unfold irqBlock R.IRQ_LAST_NS; omega
theorem irqBlock_lost {n : Nat} (h : n < 32) : irqBlock (R.IRQ_HIST_LOST n) := by unfold irqBlock R.IRQ_HIST_LOST; omega
theorem irqBlock_own {n : Nat} (h : n < 32) : irqBlock (R.IRQ_OWN_CAUSE n) := by unfold irqBlock R.IRQ_OWN_CAUSE; omega

variable {as : List Nat} {n : Nat}

theorem State.setPend_alarms (s : State) (b : Nat) (h : n < 32) : Alarms as s (s.setPend n b) := by
  unfold State.setPend
  dsimp only
  have h1 := Alarms.setReg as s (R.IRQ_PEND n) (BitVec.ofNat 32 (setNBit (s.reg (R.IRQ_PEND n)).toNat b)) (.inr (irqBlock_pend h))
  split
  · exact h1.trans (State.sendMsi_alarms ..)
  · exact h1

theorem State.setLast_alarms (s : State) (e : HistEntry) (h : n < 32) : Alarms as s (s.setLast n e) := by
  unfold State.setLast
  have h0 : Alarms as s { s with irq := { s.irq with last := SMap.put (fun _ => none) s.irq.last n (some e) } } :=
    ⟨fun _ _ _ => rfl, rfl, [], by simp, by simp⟩
  exact (((h0.trans (Alarms.setReg _ _ _ _ (.inr (irqBlock_lastId h)))).trans (Alarms.setReg _ _ _ _ (.inr (irqBlock_lastS h)))).trans
    (Alarms.setReg _ _ _ _ (.inr (irqBlock_lastSF h)))).trans (Alarms.setReg _ _ _ _ (.inr (irqBlock_lastNS h)))

theorem State.setHist_alarms (s : State) (n : Nat) (q : List HistEntry) : Alarms as s (s.setHist n q) :=
  ⟨fun _ _ _ => rfl, rfl, [], by simp [State.setHist], by simp⟩

theorem State.showLast_alarms (s : State) (e : HistEntry) (h : n < 32) : Alarms as s (s.showLast n e) := by
  unfold State.showLast
  split
  · exact Alarms.refl ..
  · exact State.setLast_alarms s e h

theorem State.pushHist_alarms (s : State) (e : HistEntry) (h : n < 32) : Alarms as s (s.pushHist n e) := by
  unfold State.pushHist
  dsimp only
  generalize (if n = 0 then 0 else 1) = src
  have lost : ∀ s : State, Alarms as s (s.addWrap32 (R.IRQ_HIST_LOST n) 1) := fun s =>
    Alarms.setReg _ _ _ _ (.inr (irqBlock_lost h))
  have own : ∀ s : State, Alarms as s (s.setBit (R.IRQ_OWN_CAUSE n) F.IRQ_OWN_CAUSE.HIST_LOST true) := fun s =>
    Alarms.setReg _ _ _ _ (.inr (irqBlock_own h))
  split
  · exact (State.setHist_alarms s n _).trans (State.showLast_alarms _ e h)
  · have h1 := ((State.setHist_alarms s n ((histInsert e (s.hist n)).take (histCap n))).trans (lost _)).trans (State.showLast_alarms _ e h)
    split
    · exact h1
    · have h2 := h1.trans (own _)
      split
      · have h3 := h2.trans (State.setPend_alarms (n := n) _ src h)
        split
        · exact (h3.trans (lost _)).trans (State.setLast_alarms _ _ h)
        · exact h3
      · split
        · exact (h2.trans (lost _)).trans (State.setLast_alarms _ _ h)
        · exact h2

theorem State.startIn_alarms (s : State) (src inst bit sev : Nat) (h : n < 32) : Alarms as s (s.startIn n src inst bit sev) := by
  unfold State.startIn
  dsimp only
  split
  · split
    · exact (State.setPend_alarms s src h).trans (State.pushHist_alarms _ _ h)
    · exact State.setPend_alarms s src h
  · split
    · exact State.pushHist_alarms _ _ h
    · exact Alarms.refl ..

theorem Alarms.foldl {α : Type} {f : State → α → State} (l : List α) (hf : ∀ x ∈ l, ∀ s, Alarms as s (f s x)) (s : State) :
    Alarms as s (l.foldl f s) := by
  induction l generalizing s with
  | nil => exact Alarms.refl ..
  | cons x xs ih =>
    exact (hf x (by simp) s).trans (ih (fun y hy => hf y (by simp [hy])) _)

theorem State.rises_alarms (s before : State) : Alarms as s (s.rises before) := by
  unfold State.rises
  extract_lets devs dev s1
  have hd : ∀ x ∈ devs, x < 32 := by
    intro x hx
    have := (List.mem_filter.1 hx).1
    simp only [List.mem_map, List.mem_range] at this
    obtain ⟨y, hy, rfl⟩ := this
    omega
  have h1 : Alarms as s s1 := Alarms.foldl devs (fun x hx t => State.startIn_alarms t _ _ _ _ (hd x hx)) s
  clear_value devs dev s1
  split
  · exact h1.trans (State.startIn_alarms _ _ _ _ _ (by omega))
  · exact h1

theorem State.fld_lt (s : State) (a : Nat) (f : Fld) : s.fld a f < 2 ^ f.w := Nat.mod_lt _ (Nat.two_pow_pos _)

theorem State.ownerOfPipe_lt (s : State) (p : Nat) : s.ownerOfPipe p < 32 := State.fld_lt ..

/-- The number of a page that an owner has. -/
def pageOf : Region → Nat
  | .irqPage n | .tt n | .wbStrm n | .bpmPage n | .ostOwn n | .cnt n | .dma n => n
  | _ => 0

theorem pageOf_page {x : Nat} (h : x < 32) :
    pageOf (.irqPage x) < 32 ∧ pageOf (.tt x) < 32 ∧ pageOf (.wbStrm x) < 32 ∧ pageOf (.bpmPage x) < 32 ∧ pageOf (.ostOwn x) < 32 ∧
      pageOf (.cnt x) < 32 ∧ pageOf (.dma x) < 32 := ⟨h, h, h, h, h, h, h⟩

theorem pageOf_ite {b : Nat} {p : Prop} [Decidable p] {x y : Region} (hx : p → pageOf x < b) (hy : pageOf y < b) :
    pageOf (if p then x else y) < b := by
  split
  · exact hx ‹_›
  · exact hy

theorem pageOf_lt (a : Nat) : pageOf (regionOf a) < 32 := by
  unfold regionOf
  extract_lets
  repeat' refine pageOf_ite (fun _ => ?_) ?_
  all_goals first
    | exact (by decide : 0 < 32)
    | exact (pageOf_page (by omega)).1

/-- The owner of a cause is a number below 32. -/
theorem State.causeLocs_owner (s : State) (a : Nat) (l : CauseLoc) (h : l ∈ (s.causeLocs a).1) : l.owner < 32 := by
  unfold State.causeLocs at h
  split at h
  · simp at h
  · rename_i g r ix hr
    have hg : regionOf (windowOf a) = g := by
      unfold findReg at hr
      simp only [Option.map_eq_some_iff] at hr
      obtain ⟨x, -, hx⟩ := hr
      exact (Prod.mk.inj hx).1
    split at h
    · rename_i hv
      simp only [List.mem_map] at h
      obtain ⟨p, hp, rfl⟩ := h
      -- the pipelines of a Pitch have an owner
      unfold State.pipesOf at hp
      have := (List.mem_filter.1 hp).2
      have := State.ownerOfPipe_lt s p
      simp_all
    · split at h
      · rename_i l' hl
        have : l = l' := by simpa using h
        subst this
        have hp := pageOf_lt (windowOf a)
        rw [hg] at hp
        unfold State.causeLocOf at hl
        split at hl <;> first
          | (simp only [Option.some.injEq] at hl; subst hl; first
              | exact State.ownerOfPipe_lt ..
              | exact hp
              | (dsimp only; decide)
              | (split <;> first | decide | exact hp))
          | simp at hl
      · simp at h

theorem State.arise_alarms (s : State) (a bit : Nat) (ha : a ∈ as ∨ irqBlock a) : Alarms as s (s.arise a bit) := by
  have h0 := Alarms.setReg as s a (BitVec.ofNat 32 (setNBit (s.reg a).toNat bit)) ha
  have ho := State.causeLocs_owner s a
  unfold State.arise
  dsimp only
  split
  · rename_i l ls id hl
    rw [hl] at ho
    have h1 := h0.trans (State.startIn_alarms _ l.src l.inst bit (sevOf id bit) (ho l (by simp)))
    refine (h1.trans (Alarms.foldl ls ?_ _)).trans (State.rises_alarms ..)
    intro x hx t
    split
    · exact State.setPend_alarms t _ (ho x (by simp [hx]))
    · exact Alarms.refl ..
  · exact h0

theorem State.ariseF_alarms (s : State) (a : Nat) (f : Fld) (ha : a ∈ as ∨ irqBlock a) : Alarms as s (s.ariseF a f) :=
  State.arise_alarms s a _ ha

theorem State.cause_alarms (s : State) (a : Nat) (f : Fld) (ha : a ∈ as ∨ irqBlock a) : Alarms as s (s.cause a f) := by
  unfold State.cause State.causeBit
  split
  · exact Alarms.refl ..
  · exact State.arise_alarms s a _ ha

/-! ### Reading after the start of a cause -/

variable {s : State} {a b : Nat} {f g : Fld}

theorem State.ariseF_reg_ne (h : b ≠ a) (hi : ¬ irqBlock b) : (s.ariseF a f).reg b = s.reg b :=
  (State.ariseF_alarms (as := [a]) s a f (.inl (by simp))).regs b (by simpa using h) hi

theorem State.cause_reg_ne (h : b ≠ a) (hi : ¬ irqBlock b) : (s.cause a f).reg b = s.reg b :=
  (State.cause_alarms (as := [a]) s a f (.inl (by simp))).regs b (by simpa using h) hi

theorem State.fld_of_reg {t : State} (h : t.reg a = s.reg a) : t.fld a f = s.fld a f := by unfold State.fld; rw [h]

theorem State.bit_of_reg {t : State} (h : t.reg a = s.reg a) : t.bit a f = s.bit a f := by unfold State.bit; rw [State.fld_of_reg h]

theorem State.ariseF_fld_ne (h : b ≠ a) (hi : ¬ irqBlock b) : (s.ariseF a f).fld b g = s.fld b g := State.fld_of_reg (State.ariseF_reg_ne h hi)
theorem State.cause_fld_ne (h : b ≠ a) (hi : ¬ irqBlock b) : (s.cause a f).fld b g = s.fld b g := State.fld_of_reg (State.cause_reg_ne h hi)
theorem State.ariseF_bit_ne (h : b ≠ a) (hi : ¬ irqBlock b) : (s.ariseF a f).bit b g = s.bit b g := State.bit_of_reg (State.ariseF_reg_ne h hi)
theorem State.cause_bit_ne (h : b ≠ a) (hi : ¬ irqBlock b) : (s.cause a f).bit b g = s.bit b g := State.bit_of_reg (State.cause_reg_ne h hi)

theorem setNBit_get (w : Word) (i : Nat) (h : i < 32) : (BitVec.ofNat 32 (setNBit w.toNat i)).getLsbD i = true := by
  unfold setNBit
  split
  · rename_i hb
    rw [BitVec.ofNat_toNat]
    unfold nbit at hb
    rw [BitVec.getLsbD_setWidth]
    have : w.toNat.testBit i = true := by rw [Nat.testBit_eq_decide_div_mod_eq]; simpa using hb
    simpa [BitVec.getLsbD, h] using this
  · rename_i hb
    rw [BitVec.getLsbD_ofNat]
    have hb : w.toNat.testBit i = false := by
      rw [Nat.testBit_eq_decide_div_mod_eq]; unfold nbit at hb; simpa using hb
    have := Nat.testBit_two_pow_add_eq w.toNat i
    rw [Nat.add_comm] at this
    rw [this, hb]; simp [h]

/-- A cause that starts sets its bit, and leaves the other bits of its register. -/
theorem State.arise_reg (s : State) (a bit : Nat) (h : ¬ irqBlock a) :
    (s.arise a bit).reg a = BitVec.ofNat 32 (setNBit (s.reg a).toNat bit) := by
  have ho := State.causeLocs_owner s a
  unfold State.arise
  dsimp only
  split
  · rename_i l ls id hl
    rw [hl] at ho
    have h1 := State.startIn_alarms (as := []) (s.setReg a (BitVec.ofNat 32 (setNBit (s.reg a).toNat bit))) l.src l.inst bit
      (sevOf id bit) (ho l (by simp))
    have h2 := (h1.trans (Alarms.foldl ls
      (f := fun s l => if s.fld (R.IRQ_CTL l.owner) F.IRQ_CTL.SUM_MIN ≤ sevOf id bit then s.setPend l.owner l.src else s) (by
        intro x hx t
        split
        · exact State.setPend_alarms t _ (ho x (by simp [hx]))
        · exact Alarms.refl ..) _)).trans (State.rises_alarms (as := []) _ s)
    rw [h2.regs a (by simp) h, State.reg_setReg]
  · simp

theorem State.ariseF_set (h : ¬ irqBlock a) (hf : f.lo < 32) : ((s.ariseF a f).reg a).getLsbD f.lo = true := by
  unfold State.ariseF; rw [State.arise_reg _ _ _ h]; exact setNBit_get _ _ hf

theorem State.cause_set (h : ¬ irqBlock a) (hf : f.lo < 32) : ((s.cause a f).reg a).getLsbD f.lo = true := by
  unfold State.cause State.causeBit
  split
  · assumption
  · rw [State.arise_reg _ _ _ h]; exact setNBit_get _ _ hf

end Sys2Proof.Machine
end

