-- ==== Sys2Proof/Laws/Kept.lean ====
section
/-! SUPPORT. What one operation of the machine keeps (`Kept`): the rules from which the lemma of each operation follows. A lemma
`f_kept` says that what was kept up to a state is still kept after `f`. -/

namespace Sys2Proof.Machine
variable {s₀ s : State}

/-- A change of what `Kept` speaks of, in general. -/
theorem Kept.gen {s t : State} (h : Kept s₀ s) (e1 : t.fuse = s.fuse) (e2 : t.pending = s.pending) (e3 : s.outbox <+: t.outbox)
    (e4 : s.freeIx ≤ t.freeIx) (e5 : s.canonical → t.canonical) : Kept s₀ t :=
  ⟨e1.trans h.fuse, e2.trans h.queue, h.outbox.trans e3, Nat.le_trans h.free e4, fun c => e5 (h.canonical c)⟩

theorem Kept.foldl {α : Type} {f : State → α → State} {l : List α} (h : Kept s₀ s) (hf : ∀ s x, Kept s₀ s → Kept s₀ (f s x)) :
    Kept s₀ (l.foldl f s) := by
  induction l generalizing s with
  | nil => exact h
  | cons x l ih => exact ih (hf _ _ h)

theorem Kept.ite {c : Prop} [Decidable c] {a b : State} (ha : Kept s₀ a) (hb : Kept s₀ b) : Kept s₀ (if c then a else b) := by
  split <;> assumption

theorem Kept.foldl2 {α β : Type} {f : β × State → α → β × State} {l : List α} {a : β × State} (h : Kept s₀ a.2)
    (hf : ∀ a x, Kept s₀ a.2 → Kept s₀ (f a x).2) : Kept s₀ (l.foldl f a).2 := by
  induction l generalizing a with
  | nil => exact h
  | cons x l ih => exact ih (hf _ _ h)

theorem Kept.foldl1 {α β : Type} {f : State × β → α → State × β} {l : List α} {a : State × β} (h : Kept s₀ a.1)
    (hf : ∀ a x, Kept s₀ a.1 → Kept s₀ (f a x).1) : Kept s₀ (l.foldl f a).1 := by
  induction l generalizing a with
  | nil => exact h
  | cons x l ih => exact ih (hf _ _ h)

theorem Kept.snd {β : Type} {p : β × State} {b : β} (e : p = (b, s)) (h : Kept s₀ p.2) : Kept s₀ s := by subst e; exact h

theorem Kept.fst {β : Type} {p : State × β} {b : β} (e : p = (s, b)) (h : Kept s₀ p.1) : Kept s₀ s := by subst e; exact h

theorem Kept.snd2 {β γ : Type} {p : β × γ × State} {b : β} {c : γ} (e : p = (b, c, s)) (h : Kept s₀ p.2.2) : Kept s₀ s := by
  subst e; exact h

/-- A change of what `Kept` does not speak of. -/
theorem Kept.any (h : Kept s₀ s) {t16 time irq ports lanes pipes em tc uc ver excPol mirror tm ts wb dma pw pres side holds}
    : Kept s₀
    { pending := s.pending, regs := s.regs, pendRegs := s.pendRegs, lateRegs := s.lateRegs, cnts := s.cnts,
      fuse := s.fuse, t16 := t16, time := time, freeIx := s.freeIx, outbox := s.outbox, irq := irq, ports := ports,
      lanes := lanes, pipes := pipes, em := em, tc := tc, gmask := s.gmask, uc := uc, ver := ver, bpm := s.bpm,
      excPol := excPol, mirror := mirror, tm := tm, ts := ts, wb := wb, ost := s.ost, ctr := s.ctr, dma := dma, pw := pw,
      pres := pres, side := side, holds := holds } :=
  h.gen rfl rfl (List.prefix_refl _) (Nat.le_refl _) fun c => ⟨c.1, c.2, c.3, c.4, c.5, c.6, c.7, c.8, c.9, c.10, c.11⟩

/-- A change of what `Kept` does not speak of, in the Ostlers. -/
theorem Kept.anyOst (h : Kept s₀ s) {t16 time irq ports lanes pipes em tc uc ver excPol mirror tm ts wb dma pw pres side
    holds flips exc fq core} : Kept s₀
    { pending := s.pending, regs := s.regs, pendRegs := s.pendRegs, lateRegs := s.lateRegs, cnts := s.cnts,
      fuse := s.fuse, t16 := t16, time := time, freeIx := s.freeIx, outbox := s.outbox, irq := irq, ports := ports,
      lanes := lanes, pipes := pipes, em := em, tc := tc, gmask := s.gmask, uc := uc, ver := ver, bpm := s.bpm,
      excPol := excPol, mirror := mirror, tm := tm, ts := ts, wb := wb,
      ost := { thr := s.ost.thr, ps := s.ost.ps, psBad := s.ost.psBad, data := s.ost.data, flips := flips, exc := exc, fq := fq, core := core },
      ctr := s.ctr, dma := dma, pw := pw, pres := pres, side := side, holds := holds } :=
  h.gen rfl rfl (List.prefix_refl _) (Nat.le_refl _) fun c => ⟨c.1, c.2, c.3, c.4, c.5, c.6, c.7, c.8, c.9, c.10, c.11⟩

/-- A change of what `Kept` does not speak of, in the counter block. -/
theorem Kept.anyCtr (h : Kept s₀ s) {t16 time irq ports lanes pipes em tc uc ver excPol mirror tm ts wb dma pw pres side
    holds snap run fresh left} : Kept s₀
    { pending := s.pending, regs := s.regs, pendRegs := s.pendRegs, lateRegs := s.lateRegs, cnts := s.cnts,
      fuse := s.fuse, t16 := t16, time := time, freeIx := s.freeIx, outbox := s.outbox, irq := irq, ports := ports,
      lanes := lanes, pipes := pipes, em := em, tc := tc, gmask := s.gmask, uc := uc, ver := ver, bpm := s.bpm,
      excPol := excPol, mirror := mirror, tm := tm, ts := ts, wb := wb, ost := s.ost,
      ctr := { snap := snap, run := run, fresh := fresh, left := left, buf := s.ctr.buf }, dma := dma, pw := pw, pres := pres, side := side,
      holds := holds } :=
  h.gen rfl rfl (List.prefix_refl _) (Nat.le_refl _) fun c => ⟨c.1, c.2, c.3, c.4, c.5, c.6, c.7, c.8, c.9, c.10, c.11⟩

/-- A change of what `Kept` does not speak of, in the buffer pools. -/
theorem Kept.anyBpm (h : Kept s₀ s) {t16 time irq ports lanes pipes em tc uc ver excPol mirror tm ts wb dma pw pres side
    holds rot orphans out fifo errs recl} : Kept s₀
    { pending := s.pending, regs := s.regs, pendRegs := s.pendRegs, lateRegs := s.lateRegs, cnts := s.cnts,
      fuse := s.fuse, t16 := t16, time := time, freeIx := s.freeIx, outbox := s.outbox, irq := irq, ports := ports,
      lanes := lanes, pipes := pipes, em := em, tc := tc, gmask := s.gmask, uc := uc, ver := ver,
      bpm := { bufs := s.bpm.bufs, rot := rot, orphans := orphans, out := out, fifo := fifo, errs := errs, recl := recl },
      excPol := excPol, mirror := mirror, tm := tm, ts := ts, wb := wb, ost := s.ost, ctr := s.ctr, dma := dma, pw := pw,
      pres := pres, side := side, holds := holds } :=
  h.gen rfl rfl (List.prefix_refl _) (Nat.le_refl _) fun c => ⟨c.1, c.2, c.3, c.4, c.5, c.6, c.7, c.8, c.9, c.10, c.11⟩

/-- Free values are met. -/
theorem Kept.met (h : Kept s₀ s) {t16 time irq ports lanes pipes em tc uc ver excPol mirror tm ts wb dma pw pres side holds}
    {k : Nat} : Kept s₀
    { pending := s.pending, regs := s.regs, pendRegs := s.pendRegs, lateRegs := s.lateRegs, cnts := s.cnts,
      fuse := s.fuse, t16 := t16, time := time, freeIx := s.freeIx + k, outbox := s.outbox, irq := irq, ports := ports,
      lanes := lanes, pipes := pipes, em := em, tc := tc, gmask := s.gmask, uc := uc, ver := ver, bpm := s.bpm,
      excPol := excPol, mirror := mirror, tm := tm, ts := ts, wb := wb, ost := s.ost, ctr := s.ctr, dma := dma, pw := pw,
      pres := pres, side := side, holds := holds } :=
  h.gen rfl rfl (List.prefix_refl _) (Nat.le_add_right _ _) fun c => ⟨c.1, c.2, c.3, c.4, c.5, c.6, c.7, c.8, c.9, c.10, c.11⟩

/-- Registers return to their reset values. -/
theorem Kept.dropRegs (h : Kept s₀ s) {t16 time irq ports lanes pipes em tc uc ver excPol mirror tm ts wb dma pw pres side
    holds} {p : Nat × Word → Bool} : Kept s₀
    { pending := s.pending, regs := s.regs.filter p, pendRegs := s.pendRegs, lateRegs := s.lateRegs, cnts := s.cnts,
      fuse := s.fuse, t16 := t16, time := time, freeIx := s.freeIx, outbox := s.outbox, irq := irq, ports := ports,
      lanes := lanes, pipes := pipes, em := em, tc := tc, gmask := s.gmask, uc := uc, ver := ver, bpm := s.bpm,
      excPol := excPol, mirror := mirror, tm := tm, ts := ts, wb := wb, ost := s.ost, ctr := s.ctr, dma := dma, pw := pw,
      pres := pres, side := side, holds := holds } :=
  h.gen rfl rfl (List.prefix_refl _) (Nat.le_refl _) fun c => ⟨SMap.wf_filter _ _ _ c.1, c.2, c.3, c.4, c.5, c.6, c.7, c.8,
      c.9, c.10, c.11⟩

/-- Pending values go. -/
theorem Kept.dropPend (h : Kept s₀ s) {t16 time irq ports lanes pipes em tc uc ver excPol mirror tm ts wb dma pw pres side
    holds} {p q : Nat × Word → Bool} : Kept s₀
    { pending := s.pending, regs := s.regs, pendRegs := s.pendRegs.filter p, lateRegs := s.lateRegs.filter q,
      cnts := s.cnts, fuse := s.fuse, t16 := t16, time := time, freeIx := s.freeIx, outbox := s.outbox, irq := irq,
      ports := ports, lanes := lanes, pipes := pipes, em := em, tc := tc, gmask := s.gmask, uc := uc, ver := ver,
      bpm := s.bpm, excPol := excPol, mirror := mirror, tm := tm, ts := ts, wb := wb, ost := s.ost, ctr := s.ctr,
      dma := dma, pw := pw, pres := pres, side := side, holds := holds } :=
  h.gen rfl rfl (List.prefix_refl _) (Nat.le_refl _) fun c => ⟨c.1, SMap.wf_filter _ _ _ c.2, SMap.wf_filter _ _ _ c.3, c.4,
      c.5, c.6, c.7, c.8, c.9, c.10, c.11⟩

/-- A pending value is stored. -/
theorem Kept.putPend (h : Kept s₀ s) {t16 time irq ports lanes pipes em tc uc ver excPol mirror tm ts wb dma pw pres side
    holds} {a : Nat} {v : Word} : Kept s₀
    { pending := s.pending, regs := s.regs, pendRegs := SMap.put (fun _ => 0) s.pendRegs a v, lateRegs := s.lateRegs,
      cnts := s.cnts, fuse := s.fuse, t16 := t16, time := time, freeIx := s.freeIx, outbox := s.outbox, irq := irq,
      ports := ports, lanes := lanes, pipes := pipes, em := em, tc := tc, gmask := s.gmask, uc := uc, ver := ver,
      bpm := s.bpm, excPol := excPol, mirror := mirror, tm := tm, ts := ts, wb := wb, ost := s.ost, ctr := s.ctr,
      dma := dma, pw := pw, pres := pres, side := side, holds := holds } :=
  h.gen rfl rfl (List.prefix_refl _) (Nat.le_refl _) fun c => ⟨c.1, SMap.wf_put _ _ _ _ c.2, c.3, c.4, c.5, c.6, c.7, c.8,
      c.9, c.10, c.11⟩

/-- A late pending value is stored. -/
theorem Kept.putLate (h : Kept s₀ s) {t16 time irq ports lanes pipes em tc uc ver excPol mirror tm ts wb dma pw pres side
    holds} {a : Nat} {v : Word} : Kept s₀
    { pending := s.pending, regs := s.regs, pendRegs := s.pendRegs, lateRegs := SMap.put (fun _ => 0) s.lateRegs a v,
      cnts := s.cnts, fuse := s.fuse, t16 := t16, time := time, freeIx := s.freeIx, outbox := s.outbox, irq := irq,
      ports := ports, lanes := lanes, pipes := pipes, em := em, tc := tc, gmask := s.gmask, uc := uc, ver := ver,
      bpm := s.bpm, excPol := excPol, mirror := mirror, tm := tm, ts := ts, wb := wb, ost := s.ost, ctr := s.ctr,
      dma := dma, pw := pw, pres := pres, side := side, holds := holds } :=
  h.gen rfl rfl (List.prefix_refl _) (Nat.le_refl _) fun c => ⟨c.1, c.2, SMap.wf_put _ _ _ _ c.3, c.4, c.5, c.6, c.7, c.8,
      c.9, c.10, c.11⟩

/-- A boundary applied the pending values. -/
theorem Kept.swapPend (h : Kept s₀ s) {t16 time irq ports lanes pipes em tc uc ver excPol mirror tm ts wb dma pw pres side
    holds rot orphans out fifo errs recl} : Kept s₀
    { pending := s.pending, regs := s.regs, pendRegs := s.lateRegs, lateRegs := [], cnts := s.cnts, fuse := s.fuse,
      t16 := t16, time := time, freeIx := s.freeIx, outbox := s.outbox, irq := irq, ports := ports, lanes := lanes,
      pipes := pipes, em := em, tc := tc, gmask := s.gmask, uc := uc, ver := ver,
      bpm := { bufs := s.bpm.bufs, rot := rot, orphans := orphans, out := out, fifo := fifo, errs := errs, recl := recl },
      excPol := excPol, mirror := mirror, tm := tm, ts := ts, wb := wb, ost := s.ost, ctr := s.ctr, dma := dma, pw := pw,
      pres := pres, side := side, holds := holds } :=
  h.gen rfl rfl (List.prefix_refl _) (Nat.le_refl _) fun c => ⟨c.1, c.3, rfl, c.4, c.5, c.6, c.7, c.8, c.9, c.10, c.11⟩

/-- Program words go. -/
theorem Kept.dropPs (h : Kept s₀ s) {t16 time irq ports lanes pipes em tc uc ver excPol mirror tm ts wb dma pw pres side
    holds flips exc fq core} {p : Nat × Word → Bool} {q : Nat × Bool → Bool} : Kept s₀
    { pending := s.pending, regs := s.regs, pendRegs := s.pendRegs, lateRegs := s.lateRegs, cnts := s.cnts,
      fuse := s.fuse, t16 := t16, time := time, freeIx := s.freeIx, outbox := s.outbox, irq := irq, ports := ports,
      lanes := lanes, pipes := pipes, em := em, tc := tc, gmask := s.gmask, uc := uc, ver := ver, bpm := s.bpm,
      excPol := excPol, mirror := mirror, tm := tm, ts := ts, wb := wb,
      ost := { thr := s.ost.thr, ps := s.ost.ps.filter p, psBad := s.ost.psBad.filter q, data := s.ost.data, flips := flips, exc := exc, fq := fq, core := core },
      ctr := s.ctr, dma := dma, pw := pw, pres := pres, side := side, holds := holds } :=
  h.gen rfl rfl (List.prefix_refl _) (Nat.le_refl _) fun c => ⟨c.1, c.2, c.3, c.4, c.5, c.6, SMap.wf_filter _ _ _ c.7,
      SMap.wf_filter _ _ _ c.8, c.9, c.10, c.11⟩

/-- Parity marks go. -/
theorem Kept.dropBad (h : Kept s₀ s) {t16 time irq ports lanes pipes em tc uc ver excPol mirror tm ts wb dma pw pres side
    holds flips exc fq core} {q : Nat × Bool → Bool} : Kept s₀
    { pending := s.pending, regs := s.regs, pendRegs := s.pendRegs, lateRegs := s.lateRegs, cnts := s.cnts,
      fuse := s.fuse, t16 := t16, time := time, freeIx := s.freeIx, outbox := s.outbox, irq := irq, ports := ports,
      lanes := lanes, pipes := pipes, em := em, tc := tc, gmask := s.gmask, uc := uc, ver := ver, bpm := s.bpm,
      excPol := excPol, mirror := mirror, tm := tm, ts := ts, wb := wb,
      ost := { thr := s.ost.thr, ps := s.ost.ps, psBad := s.ost.psBad.filter q, data := s.ost.data, flips := flips, exc := exc, fq := fq, core := core },
      ctr := s.ctr, dma := dma, pw := pw, pres := pres, side := side, holds := holds } :=
  h.gen rfl rfl (List.prefix_refl _) (Nat.le_refl _) fun c => ⟨c.1, c.2, c.3, c.4, c.5, c.6, c.7, SMap.wf_filter _ _ _ c.8,
      c.9, c.10, c.11⟩

/-- A program word is stored. -/
theorem Kept.putPs (h : Kept s₀ s) {t16 time irq ports lanes pipes em tc uc ver excPol mirror tm ts wb dma pw pres side holds
    flips exc fq core} {a b : Nat} {v : Word} {x : Bool} : Kept s₀
    { pending := s.pending, regs := s.regs, pendRegs := s.pendRegs, lateRegs := s.lateRegs, cnts := s.cnts,
      fuse := s.fuse, t16 := t16, time := time, freeIx := s.freeIx, outbox := s.outbox, irq := irq, ports := ports,
      lanes := lanes, pipes := pipes, em := em, tc := tc, gmask := s.gmask, uc := uc, ver := ver, bpm := s.bpm,
      excPol := excPol, mirror := mirror, tm := tm, ts := ts, wb := wb,
      ost := { thr := s.ost.thr, ps := SMap.put (fun _ => 0) s.ost.ps a v, psBad := SMap.put (fun _ => false) s.ost.psBad b x, data := s.ost.data, flips := flips, exc := exc, fq := fq, core := core },
      ctr := s.ctr, dma := dma, pw := pw, pres := pres, side := side, holds := holds } :=
  h.gen rfl rfl (List.prefix_refl _) (Nat.le_refl _) fun c => ⟨c.1, c.2, c.3, c.4, c.5, c.6, SMap.wf_put _ _ _ _ c.7,
      SMap.wf_put _ _ _ _ c.8, c.9, c.10, c.11⟩

/-- Data bytes go. -/
theorem Kept.dropData (h : Kept s₀ s) {t16 time irq ports lanes pipes em tc uc ver excPol mirror tm ts wb dma pw pres side
    holds flips exc fq core} {p : Nat × Byte → Bool} : Kept s₀
    { pending := s.pending, regs := s.regs, pendRegs := s.pendRegs, lateRegs := s.lateRegs, cnts := s.cnts,
      fuse := s.fuse, t16 := t16, time := time, freeIx := s.freeIx, outbox := s.outbox, irq := irq, ports := ports,
      lanes := lanes, pipes := pipes, em := em, tc := tc, gmask := s.gmask, uc := uc, ver := ver, bpm := s.bpm,
      excPol := excPol, mirror := mirror, tm := tm, ts := ts, wb := wb,
      ost := { thr := s.ost.thr, ps := s.ost.ps, psBad := s.ost.psBad, data := s.ost.data.filter p, flips := flips, exc := exc, fq := fq, core := core },
      ctr := s.ctr, dma := dma, pw := pw, pres := pres, side := side, holds := holds } :=
  h.gen rfl rfl (List.prefix_refl _) (Nat.le_refl _) fun c => ⟨c.1, c.2, c.3, c.4, c.5, c.6, c.7, c.8, SMap.wf_filter _ _ _
      c.9, c.10, c.11⟩

/-- A global mask is stored. -/
theorem Kept.putMask (h : Kept s₀ s) {t16 time irq ports lanes pipes em tc uc ver excPol mirror tm ts wb dma pw pres side
    holds} {k : Nat} {v : Word} : Kept s₀
    { pending := s.pending, regs := s.regs, pendRegs := s.pendRegs, lateRegs := s.lateRegs, cnts := s.cnts,
      fuse := s.fuse, t16 := t16, time := time, freeIx := s.freeIx, outbox := s.outbox, irq := irq, ports := ports,
      lanes := lanes, pipes := pipes, em := em, tc := tc, gmask := SMap.put (fun _ => 0xFFFFFFFF) s.gmask k v, uc := uc,
      ver := ver, bpm := s.bpm, excPol := excPol, mirror := mirror, tm := tm, ts := ts, wb := wb, ost := s.ost,
      ctr := s.ctr, dma := dma, pw := pw, pres := pres, side := side, holds := holds } :=
  h.gen rfl rfl (List.prefix_refl _) (Nat.le_refl _) fun c => ⟨c.1, c.2, c.3, c.4, SMap.wf_put _ _ _ _ c.5, c.6, c.7, c.8,
      c.9, c.10, c.11⟩

/-- Global masks go. -/
theorem Kept.dropMask (h : Kept s₀ s) {t16 time irq ports lanes pipes em tc uc ver excPol mirror tm ts wb dma pw pres side
    holds} {p : Nat × Word → Bool} : Kept s₀
    { pending := s.pending, regs := s.regs, pendRegs := s.pendRegs, lateRegs := s.lateRegs, cnts := s.cnts,
      fuse := s.fuse, t16 := t16, time := time, freeIx := s.freeIx, outbox := s.outbox, irq := irq, ports := ports,
      lanes := lanes, pipes := pipes, em := em, tc := tc, gmask := s.gmask.filter p, uc := uc, ver := ver, bpm := s.bpm,
      excPol := excPol, mirror := mirror, tm := tm, ts := ts, wb := wb, ost := s.ost, ctr := s.ctr, dma := dma, pw := pw,
      pres := pres, side := side, holds := holds } :=
  h.gen rfl rfl (List.prefix_refl _) (Nat.le_refl _) fun c => ⟨c.1, c.2, c.3, c.4, SMap.wf_filter _ _ _ c.5, c.6, c.7, c.8,
      c.9, c.10, c.11⟩

/-- A sample entry is stored. -/
theorem Kept.putSample (h : Kept s₀ s) {t16 time irq ports lanes pipes em tc uc ver excPol mirror tm ts wb dma pw pres side
    holds snap run fresh left} {k : Nat} {v : BitVec 64} : Kept s₀
    { pending := s.pending, regs := s.regs, pendRegs := s.pendRegs, lateRegs := s.lateRegs, cnts := s.cnts,
      fuse := s.fuse, t16 := t16, time := time, freeIx := s.freeIx, outbox := s.outbox, irq := irq, ports := ports,
      lanes := lanes, pipes := pipes, em := em, tc := tc, gmask := s.gmask, uc := uc, ver := ver, bpm := s.bpm,
      excPol := excPol, mirror := mirror, tm := tm, ts := ts, wb := wb, ost := s.ost,
      ctr := { snap := snap, run := run, fresh := fresh, left := left, buf := SMap.put (fun _ => 0) s.ctr.buf k v }, dma := dma, pw := pw,
      pres := pres, side := side, holds := holds } :=
  h.gen rfl rfl (List.prefix_refl _) (Nat.le_refl _) fun c => ⟨c.1, c.2, c.3, c.4, c.5, c.6, c.7, c.8, c.9, SMap.wf_put _ _ _
      _ c.10, c.11⟩

/-- Sample entries go. -/
theorem Kept.dropSample (h : Kept s₀ s) {t16 time irq ports lanes pipes em tc uc ver excPol mirror tm ts wb dma pw pres side
    holds snap run fresh left} {p : Nat × BitVec 64 → Bool} : Kept s₀
    { pending := s.pending, regs := s.regs, pendRegs := s.pendRegs, lateRegs := s.lateRegs, cnts := s.cnts,
      fuse := s.fuse, t16 := t16, time := time, freeIx := s.freeIx, outbox := s.outbox, irq := irq, ports := ports,
      lanes := lanes, pipes := pipes, em := em, tc := tc, gmask := s.gmask, uc := uc, ver := ver, bpm := s.bpm,
      excPol := excPol, mirror := mirror, tm := tm, ts := ts, wb := wb, ost := s.ost,
      ctr := { snap := snap, run := run, fresh := fresh, left := left, buf := s.ctr.buf.filter p }, dma := dma, pw := pw, pres := pres, side := side,
      holds := holds } :=
  h.gen rfl rfl (List.prefix_refl _) (Nat.le_refl _) fun c => ⟨c.1, c.2, c.3, c.4, c.5, c.6, c.7, c.8, c.9, SMap.wf_filter _ _
      _ c.10, c.11⟩

/-- A packet buffer is stored. -/
theorem Kept.putBuf (h : Kept s₀ s) {t16 time irq ports lanes pipes em tc uc ver excPol mirror tm ts wb dma pw pres side
    holds rot orphans out fifo errs recl} {k : Nat} {v : Option Buf} : Kept s₀
    { pending := s.pending, regs := s.regs, pendRegs := s.pendRegs, lateRegs := s.lateRegs, cnts := s.cnts,
      fuse := s.fuse, t16 := t16, time := time, freeIx := s.freeIx, outbox := s.outbox, irq := irq, ports := ports,
      lanes := lanes, pipes := pipes, em := em, tc := tc, gmask := s.gmask, uc := uc, ver := ver,
      bpm := { bufs := SMap.put (fun _ => none) s.bpm.bufs k v, rot := rot, orphans := orphans, out := out, fifo := fifo, errs := errs, recl := recl },
      excPol := excPol, mirror := mirror, tm := tm, ts := ts, wb := wb, ost := s.ost, ctr := s.ctr, dma := dma, pw := pw,
      pres := pres, side := side, holds := holds } :=
  h.gen rfl rfl (List.prefix_refl _) (Nat.le_refl _) fun c => ⟨c.1, c.2, c.3, c.4, c.5, c.6, c.7, c.8, c.9, c.10, SMap.wf_put
      _ _ _ _ c.11⟩

/-- Everything but some registers returns to its state at power-on. -/
theorem Kept.wipe (h : Kept s₀ s) {t16 time irq ports lanes pipes em tc uc ver excPol mirror tm ts wb dma pw pres side holds
    flips exc fq core snap run fresh left rot orphans out fifo errs recl} {p : Nat × Word → Bool} : Kept s₀
    { pending := s.pending, regs := s.regs.filter p, pendRegs := [], lateRegs := [], cnts := [], fuse := s.fuse,
      t16 := t16, time := time, freeIx := s.freeIx, outbox := s.outbox, irq := irq, ports := ports, lanes := lanes,
      pipes := pipes, em := em, tc := tc, gmask := [], uc := uc, ver := ver,
      bpm := { bufs := [], rot := rot, orphans := orphans, out := out, fifo := fifo, errs := errs, recl := recl }, excPol := excPol,
      mirror := mirror, tm := tm, ts := ts, wb := wb,
      ost := { thr := [], ps := [], psBad := [], data := [], flips := flips, exc := exc, fq := fq, core := core },
      ctr := { snap := snap, run := run, fresh := fresh, left := left, buf := [] }, dma := dma, pw := pw, pres := pres, side := side, holds := holds } :=
  h.gen rfl rfl (List.prefix_refl _) (Nat.le_refl _) fun c => ⟨SMap.wf_filter _ _ _ c.1, rfl, rfl, rfl, rfl, rfl, rfl, rfl,
      rfl, rfl, rfl⟩

/-- Everything returns to its state at power-on. -/
theorem Kept.blank (h : Kept s₀ s) {t16 time irq ports lanes pipes em tc uc ver excPol mirror tm ts wb dma pw pres side holds
    flips exc fq core snap run fresh left rot orphans out fifo errs recl} : Kept s₀
    { pending := s.pending, regs := [], pendRegs := [], lateRegs := [], cnts := [], fuse := s.fuse, t16 := t16,
      time := time, freeIx := s.freeIx, outbox := s.outbox, irq := irq, ports := ports, lanes := lanes, pipes := pipes,
      em := em, tc := tc, gmask := [], uc := uc, ver := ver,
      bpm := { bufs := [], rot := rot, orphans := orphans, out := out, fifo := fifo, errs := errs, recl := recl }, excPol := excPol,
      mirror := mirror, tm := tm, ts := ts, wb := wb,
      ost := { thr := [], ps := [], psBad := [], data := [], flips := flips, exc := exc, fq := fq, core := core },
      ctr := { snap := snap, run := run, fresh := fresh, left := left, buf := [] }, dma := dma, pw := pw, pres := pres, side := side, holds := holds } :=
  h.gen rfl rfl (List.prefix_refl _) (Nat.le_refl _) fun _ => ⟨rfl, rfl, rfl, rfl, rfl, rfl, rfl, rfl, rfl, rfl, rfl⟩

theorem Kept.pw {p : PowerSt} (h : Kept s₀ s) : Kept s₀ { s with pw := p } := h.any

theorem State.setReg_kept {a : Nat} {v : Word} (h : Kept s₀ s) : Kept s₀ (s.setReg a v) :=
  h.gen rfl rfl (List.prefix_refl _) (Nat.le_refl _) fun c =>
    ⟨SMap.wf_put _ _ _ _ c.1, c.2, c.3, c.4, c.5, c.6, c.7, c.8, c.9, c.10, c.11⟩

theorem State.setCnt_kept {a v : Nat} (h : Kept s₀ s) : Kept s₀ (s.setCnt a v) :=
  h.gen rfl rfl (List.prefix_refl _) (Nat.le_refl _) fun c =>
    ⟨c.1, c.2, c.3, SMap.wf_put _ _ _ _ c.4, c.5, c.6, c.7, c.8, c.9, c.10, c.11⟩

theorem State.setThr_kept {t : Nat} {q : Thr} (h : Kept s₀ s) : Kept s₀ (s.setThr t q) :=
  h.gen rfl rfl (List.prefix_refl _) (Nat.le_refl _) fun c =>
    ⟨c.1, c.2, c.3, c.4, c.5, SMap.wf_put _ _ _ _ c.6, c.7, c.8, c.9, c.10, c.11⟩

theorem State.resetRegs_kept {p : Nat → Bool} (h : Kept s₀ s) : Kept s₀ (s.resetRegs p) :=
  h.gen rfl rfl (List.prefix_refl _) (Nat.le_refl _) fun c =>
    ⟨SMap.wf_filter _ _ _ c.1, SMap.wf_filter _ _ _ c.2, SMap.wf_filter _ _ _ c.3, c.4, c.5, c.6, c.7, c.8, c.9, c.10, c.11⟩

theorem State.clearCnts_kept {p : Nat → Bool} (h : Kept s₀ s) : Kept s₀ (s.clearCnts p) :=
  h.gen rfl rfl (List.prefix_refl _) (Nat.le_refl _) fun c =>
    ⟨c.1, c.2, c.3, SMap.wf_filter _ _ _ c.4, c.5, c.6, c.7, c.8, c.9, c.10, c.11⟩

theorem State.emit_kept {e : Emit} (h : Kept s₀ s) : Kept s₀ (s.emit e) :=
  h.gen rfl rfl (List.prefix_append _ _) (Nat.le_refl _) fun c => ⟨c.1, c.2, c.3, c.4, c.5, c.6, c.7, c.8, c.9, c.10, c.11⟩

end Sys2Proof.Machine
end

