-- ==== Sys2Proof/Laws/KeptA.lean ====
section
/-! SUPPORT. What every operation of Machine/ (Ops, Irq, Lane, Bpm, Parser, Exc, Uc, Em, Tc) keeps: one lemma for each, which the lemmas about its callers cite. -/

namespace Sys2Proof.Machine

variable {s₀ s : State}

/-! ### Machine/Ops.lean -/

theorem State.setFld_kept {a f v} (h : Kept s₀ s) : Kept s₀ (State.setFld s a f v) := by
  unfold State.setFld
  exact State.setReg_kept h

theorem State.setBit_kept {a f b} (h : Kept s₀ s) : Kept s₀ (State.setBit s a f b) := by
  unfold State.setBit
  exact State.setFld_kept h

theorem State.resetReg_kept {a} (h : Kept s₀ s) : Kept s₀ (State.resetReg s a) := by
  unfold State.resetReg
  exact State.setReg_kept h

theorem State.addCnt_kept {a k} (h : Kept s₀ s) : Kept s₀ (State.addCnt s a k) := by
  unfold State.addCnt
  exact State.setCnt_kept h

theorem State.addCntWrap_kept {a k} (h : Kept s₀ s) : Kept s₀ (State.addCntWrap s a k) := by
  unfold State.addCntWrap
  exact State.setCnt_kept h

theorem State.addSat32_kept {a k} (h : Kept s₀ s) : Kept s₀ (State.addSat32 s a k) := by
  unfold State.addSat32
  exact State.setReg_kept h

theorem State.addWrap32_kept {a k} (h : Kept s₀ s) : Kept s₀ (State.addWrap32 s a k) := by
  unfold State.addWrap32
  exact State.setReg_kept h

theorem State.timeMark_kept (h : Kept s₀ s) : Kept s₀ (State.timeMark s) := by
  unfold State.timeMark
  exact Kept.any h

theorem State.freeWord_kept (h : Kept s₀ s) : Kept s₀ (State.freeWord s).2 := by
  unfold State.freeWord
  dsimp -zeta only
  exact h.met

theorem State.freeBool_kept (h : Kept s₀ s) : Kept s₀ (State.freeBool s).2 := by
  unfold State.freeBool
  dsimp -zeta only
  exact h.met

theorem State.hostReads_kept {f addr len} (h : Kept s₀ s) : Kept s₀ (State.hostReads s f addr len) := by
  unfold State.hostReads
  extract_lets +onlyGivenNames x1
  clear_value x1
  refine Kept.foldl ?_ ?_
  · exact h
  · intro s2 x3 h4
    extract_lets +onlyGivenNames x5
    clear_value x5
    exact State.emit_kept h4

/-! ### Machine/Irq.lean -/

theorem State.sendMsi_kept {n} (h : Kept s₀ s) : Kept s₀ (State.sendMsi s n) := by
  unfold State.sendMsi
  extract_lets +onlyGivenNames c1
  clear_value c1
  exact Kept.ite h (Kept.ite h.any (State.emit_kept h))

theorem State.setPend_kept {n b} (h : Kept s₀ s) : Kept s₀ (State.setPend s n b) := by
  unfold State.setPend
  extract_lets +onlyGivenNames x1
  have h2 : Kept s₀ x1 := by
    dsimp -zeta only [x1]
    exact State.setReg_kept h
  clear_value x1
  exact Kept.ite (State.sendMsi_kept h2) h2

theorem State.setLast_kept {n e} (h : Kept s₀ s) : Kept s₀ (State.setLast s n e) := by
  unfold State.setLast
  extract_lets +onlyGivenNames x1
  extract_lets +onlyGivenNames s2
  have h3 : Kept s₀ s2 := by
    dsimp -zeta only [s2]
    exact Kept.any h
  clear_value s2
  extract_lets +onlyGivenNames s4
  have h5 : Kept s₀ s4 := by
    dsimp -zeta only [s4]
    exact State.setReg_kept h3
  clear_value s4
  extract_lets +onlyGivenNames s6
  have h7 : Kept s₀ s6 := by
    dsimp -zeta only [s6]
    exact State.setReg_kept h5
  clear_value s6
  extract_lets +onlyGivenNames s8
  have h9 : Kept s₀ s8 := by
    dsimp -zeta only [s8]
    exact State.setReg_kept h7
  clear_value s8
  exact State.setReg_kept h9

theorem State.setHist_kept {n q} (h : Kept s₀ s) : Kept s₀ (State.setHist s n q) := by
  unfold State.setHist
  exact Kept.any h

theorem State.showLast_kept {n e} (h : Kept s₀ s) : Kept s₀ (State.showLast s n e) := by
  unfold State.showLast
  exact Kept.ite h (State.setLast_kept h)

theorem State.pushHist_kept {n e} (h : Kept s₀ s) : Kept s₀ (State.pushHist s n e) := by
  unfold State.pushHist
  extract_lets +onlyGivenNames x1
  clear_value x1
  refine Kept.ite ?_ ?_
  · exact State.showLast_kept (State.setHist_kept h)
  · extract_lets +onlyGivenNames s2
    have h3 : Kept s₀ s2 := by
      dsimp -zeta only [s2]
      exact State.showLast_kept (State.addWrap32_kept (State.setHist_kept h))
    clear_value s2
    refine Kept.ite ?_ ?_
    · exact h3
    · extract_lets +onlyGivenNames s4
      have h5 : Kept s₀ s4 := by
        dsimp -zeta only [s4]
        exact State.setBit_kept h3
      clear_value s4
      extract_lets +onlyGivenNames x6
      clear_value x6
      extract_lets +onlyGivenNames x7
      clear_value x7
      extract_lets +onlyGivenNames s8
      have h9 : Kept s₀ s8 := by
        dsimp -zeta only [s8]
        exact Kept.ite (State.setPend_kept h5) h5
      clear_value s8
      exact Kept.ite (State.setLast_kept (State.addWrap32_kept h9)) h9

theorem State.startIn_kept {n src inst bit sev} (h : Kept s₀ s) : Kept s₀ (State.startIn s n src inst bit sev) := by
  unfold State.startIn
  extract_lets +onlyGivenNames s1
  have h2 : Kept s₀ s1 := by
    dsimp -zeta only [s1]
    exact Kept.ite (State.setPend_kept h) h
  clear_value s1
  exact Kept.ite (State.pushHist_kept h2) h2

theorem State.rises_kept {before} (h : Kept s₀ s) : Kept s₀ (State.rises s before) := by
  unfold State.rises
  extract_lets +onlyGivenNames x1
  clear_value x1
  extract_lets +onlyGivenNames x2
  clear_value x2
  extract_lets +onlyGivenNames s3
  have h4 : Kept s₀ s3 := by
    dsimp -zeta only [s3]
    refine Kept.foldl ?_ ?_
    · exact h
    · intro s5 x6 h7
      exact State.startIn_kept h7
  clear_value s3
  exact Kept.ite (State.startIn_kept h4) h4

theorem State.arise_kept {a bit} (h : Kept s₀ s) : Kept s₀ (State.arise s a bit) := by
  unfold State.arise
  split
  · rename_i x1 x2 x3 x4 e5
    extract_lets +onlyGivenNames x6
    clear_value x6
    extract_lets +onlyGivenNames s7
    have h8 : Kept s₀ s7 := by
      dsimp -zeta only [s7]
      exact State.setReg_kept h
    clear_value s7
    extract_lets +onlyGivenNames s9
    have h10 : Kept s₀ s9 := by
      dsimp -zeta only [s9]
      exact State.startIn_kept h8
    clear_value s9
    extract_lets +onlyGivenNames s11
    have h12 : Kept s₀ s11 := by
      dsimp -zeta only [s11]
      refine Kept.foldl ?_ ?_
      · exact h10
      · intro s13 x14 h15
        exact Kept.ite (State.setPend_kept h15) h15
    clear_value s11
    exact State.rises_kept h12
  · rename_i x16 x17
    exact State.setReg_kept h

theorem State.causeBit_kept {a bit} (h : Kept s₀ s) : Kept s₀ (State.causeBit s a bit) := by
  unfold State.causeBit
  exact Kept.ite h (State.arise_kept h)

theorem State.cause_kept {a f} (h : Kept s₀ s) : Kept s₀ (State.cause s a f) := by
  unfold State.cause
  exact State.causeBit_kept h

theorem State.ariseF_kept {a f} (h : Kept s₀ s) : Kept s₀ (State.ariseF s a f) := by
  unfold State.ariseF
  exact State.arise_kept h

theorem State.accessViolation_kept {f a write badSize} (h : Kept s₀ s) : Kept s₀ (State.accessViolation s f a write
    badSize) := by
  unfold State.accessViolation
  extract_lets +onlyGivenNames x1
  clear_value x1
  extract_lets +onlyGivenNames s2
  have h3 : Kept s₀ s2 := by
    dsimp -zeta only [s2]
    exact State.addSat32_kept h
  clear_value s2
  extract_lets +onlyGivenNames x4
  clear_value x4
  extract_lets +onlyGivenNames s5
  have h6 : Kept s₀ s5 := by
    dsimp -zeta only [s5]
    exact Kept.any h3
  clear_value s5
  extract_lets +onlyGivenNames s7
  have h8 : Kept s₀ s7 := by
    dsimp -zeta only [s7]
    exact Kept.ite h6 (State.setReg_kept h6)
  clear_value s7
  exact State.cause_kept h8

theorem State.busyWrite_kept {f} (h : Kept s₀ s) : Kept s₀ (State.busyWrite s f) := by
  unfold State.busyWrite
  exact State.cause_kept h

theorem State.xdrop_kept {n k} (h : Kept s₀ s) : Kept s₀ (State.xdrop s n k) := by
  unfold State.xdrop
  exact Kept.ite h (State.cause_kept (State.addSat32_kept h))

/-! ### Machine/Lane.lean -/

theorem State.setPort_kept {n q} (h : Kept s₀ s) : Kept s₀ (State.setPort s n q) := by
  unfold State.setPort
  exact h.any

theorem State.setLane_kept {l q} (h : Kept s₀ s) : Kept s₀ (State.setLane s l q) := by
  unfold State.setLane
  exact h.any

theorem State.laneCause_kept {l f} (h : Kept s₀ s) : Kept s₀ (State.laneCause s l f) := by
  unfold State.laneCause
  exact Kept.ite (State.cause_kept h) h

theorem State.laneArise_kept {l f} (h : Kept s₀ s) : Kept s₀ (State.laneArise s l f) := by
  unfold State.laneArise
  exact Kept.ite (State.ariseF_kept h) h

theorem State.setWorkFir_kept {l t} (h : Kept s₀ s) : Kept s₀ (State.setWorkFir s l t) := by
  unfold State.setWorkFir
  extract_lets +onlyGivenNames b1
  clear_value b1
  extract_lets +onlyGivenNames s2
  have h3 : Kept s₀ s2 := by
    dsimp -zeta only [s2]
    exact State.setReg_kept h
  clear_value s2
  exact State.setReg_kept h3

theorem State.loadFir_kept {l} (h : Kept s₀ s) : Kept s₀ (State.loadFir s l) := by
  unfold State.loadFir
  extract_lets +onlyGivenNames x1
  clear_value x1
  extract_lets +onlyGivenNames x2
  clear_value x2
  exact Kept.ite (State.setLane_kept (State.setWorkFir_kept h)) (Kept.ite (State.laneCause_kept h) (State.cause_kept h))

theorem State.lineShow_kept {l} (h : Kept s₀ s) : Kept s₀ (State.lineShow s l) := by
  unfold State.lineShow
  extract_lets +onlyGivenNames x1
  clear_value x1
  refine Kept.ite ?_ ?_
  · exact h
  · extract_lets +onlyGivenNames x2
    extract_lets +onlyGivenNames s3
    have h4 : Kept s₀ s3 := by
      dsimp -zeta only [s3]
      exact State.setLane_kept h
    clear_value s3
    exact Kept.ite h4 (State.emit_kept h4)

theorem State.linesBack_kept (h : Kept s₀ s) : Kept s₀ (State.linesBack s) := by
  unfold State.linesBack
  refine Kept.foldl ?_ ?_
  · exact h
  · intro s1 x2 h3
    exact State.emit_kept h3

theorem State.linePort_kept {n} (h : Kept s₀ s) : Kept s₀ (State.linePort s n) := by
  unfold State.linePort
  refine Kept.foldl ?_ ?_
  · exact h
  · intro s1 x2 h3
    exact State.lineShow_kept h3

theorem State.showLane_kept {l} (h : Kept s₀ s) : Kept s₀ (State.showLane s l) := by
  unfold State.showLane
  extract_lets +onlyGivenNames s1
  have h2 : Kept s₀ s1 := by
    dsimp -zeta only [s1]
    exact State.setBit_kept h
  clear_value s1
  extract_lets +onlyGivenNames x3
  clear_value x3
  exact State.lineShow_kept (State.setFld_kept h2)

theorem State.rxUnlock_kept {l} (h : Kept s₀ s) : Kept s₀ (State.rxUnlock s l) := by
  unfold State.rxUnlock
  extract_lets +onlyGivenNames x1
  clear_value x1
  extract_lets +onlyGivenNames s2
  have h3 : Kept s₀ s2 := by
    dsimp -zeta only [s2]
    exact State.setBit_kept (State.setBit_kept h)
  clear_value s2
  extract_lets +onlyGivenNames s4
  have h5 : Kept s₀ s4 := by
    dsimp -zeta only [s4]
    exact State.setFld_kept h3
  clear_value s4
  extract_lets +onlyGivenNames s6
  have h7 : Kept s₀ s6 := by
    dsimp -zeta only [s6]
    refine Kept.foldl ?_ ?_
    · exact h5
    · intro s8 x9 h10
      exact State.setReg_kept h10
  clear_value s6
  exact State.setLane_kept h7

theorem State.rxOff_kept {l} (h : Kept s₀ s) : Kept s₀ (State.rxOff s l) := by
  unfold State.rxOff
  extract_lets +onlyGivenNames x1
  clear_value x1
  extract_lets +onlyGivenNames s2
  have h3 : Kept s₀ s2 := by
    dsimp -zeta only [s2]
    exact State.rxUnlock_kept h
  clear_value s2
  extract_lets +onlyGivenNames s4
  have h5 : Kept s₀ s4 := by
    dsimp -zeta only [s4]
    exact Kept.ite h3 (State.laneArise_kept (State.setBit_kept h3))
  clear_value s4
  exact State.setBit_kept (State.setFld_kept h5)

theorem State.lmfAlarms_kept {l v} (h : Kept s₀ s) : Kept s₀ (State.lmfAlarms s l v) := by
  unfold State.lmfAlarms
  extract_lets +onlyGivenNames thr1
  clear_value thr1
  extract_lets +onlyGivenNames w2
  clear_value w2
  extract_lets +onlyGivenNames a3
  clear_value a3
  extract_lets +onlyGivenNames q4
  clear_value q4
  extract_lets +onlyGivenNames wr5
  clear_value wr5
  extract_lets +onlyGivenNames ar6
  clear_value ar6
  extract_lets +onlyGivenNames wOn7
  clear_value wOn7
  extract_lets +onlyGivenNames aOn8
  clear_value aOn8
  extract_lets +onlyGivenNames s9
  have h10 : Kept s₀ s9 := by
    dsimp -zeta only [s9]
    exact State.setLane_kept h
  clear_value s9
  extract_lets +onlyGivenNames s11
  have h12 : Kept s₀ s11 := by
    dsimp -zeta only [s11]
    exact Kept.ite (State.laneArise_kept h10) h10
  clear_value s11
  exact Kept.ite (State.laneArise_kept h12) h12

theorem State.lmfClear_kept {l} (h : Kept s₀ s) : Kept s₀ (State.lmfClear s l) := by
  unfold State.lmfClear
  extract_lets +onlyGivenNames x1
  clear_value x1
  exact Kept.ite h (State.setLane_kept h)

theorem State.lmfRound_kept {l eyes} (h : Kept s₀ s) : Kept s₀ (State.lmfRound s l eyes) := by
  unfold State.lmfRound
  extract_lets +onlyGivenNames st1
  clear_value st1
  extract_lets +onlyGivenNames q2
  clear_value q2
  extract_lets +onlyGivenNames now3
  clear_value now3
  extract_lets +onlyGivenNames x4
  clear_value x4
  extract_lets +onlyGivenNames x5
  have h6 : Kept s₀ x5 := by
    dsimp -zeta only [x5]
    exact Kept.ite (State.lmfAlarms_kept (State.setBit_kept (State.setFld_kept h))) (State.setBit_kept (State.setFld_kept h))
  clear_value x5
  exact State.setLane_kept h6

theorem State.lmfMin_kept {g} (h : Kept s₀ s) : Kept s₀ (State.lmfMin s g) := by
  unfold State.lmfMin
  extract_lets +onlyGivenNames x1
  clear_value x1
  exact State.setFld_kept h

theorem State.setRxSetting_kept {l k v} (h : Kept s₀ s) : Kept s₀ (State.setRxSetting s l k v) := by
  unfold State.setRxSetting
  exact Kept.ite (State.setFld_kept h) (State.setFld_kept h)

theorem State.adaptRound_kept {l} (h : Kept s₀ s) : Kept s₀ (State.adaptRound s l) := by
  unfold State.adaptRound
  extract_lets +onlyGivenNames q1
  clear_value q1
  refine Kept.ite h ?_
  extract_lets +onlyGivenNames lmf2
  clear_value lmf2
  extract_lets +onlyGivenNames s3
  have h4 : Kept s₀ s3 := by
    dsimp -zeta only [s3]
    split
    · exact Kept.ite (State.setRxSetting_kept h) h
    · exact h
  clear_value s3
  split
  · rename_i x10 x11 s12 e13
    extract_lets +onlyGivenNames k14
    clear_value k14
    extract_lets +onlyGivenNames old15
    clear_value old15
    extract_lets +onlyGivenNames up16
    clear_value up16
    extract_lets +onlyGivenNames new17
    clear_value new17
    exact State.setLane_kept (State.setRxSetting_kept (Kept.snd e13 (State.freeWord_kept h4)))

theorem State.setPrbsErrs_kept {l v} (h : Kept s₀ s) : Kept s₀ (State.setPrbsErrs s l v) := by
  unfold State.setPrbsErrs
  exact State.setFld_kept (State.setFld_kept h)

theorem State.prbsRestart_kept {l} (h : Kept s₀ s) : Kept s₀ (State.prbsRestart s l) := by
  unfold State.prbsRestart
  exact State.setBit_kept (State.setPrbsErrs_kept h)

theorem State.prbsAdd_kept {l k} (h : Kept s₀ s) : Kept s₀ (State.prbsAdd s l k) := by
  unfold State.prbsAdd
  exact Kept.ite (State.setPrbsErrs_kept h) h

theorem State.prbsTake_kept {l} (h : Kept s₀ s) : Kept s₀ (State.prbsTake s l) := by
  unfold State.prbsTake
  refine Kept.ite ?_ ?_
  · split
    · rename_i x1 x2 s3 e4
      exact State.prbsAdd_kept (Kept.snd e4 (State.freeWord_kept h))
  · exact h

theorem State.synceShow_kept {j} (h : Kept s₀ s) : Kept s₀ (State.synceShow s j) := by
  unfold State.synceShow
  extract_lets +onlyGivenNames x1
  clear_value x1
  extract_lets +onlyGivenNames x2
  clear_value x2
  refine Kept.ite ?_ ?_
  · exact h
  · extract_lets +onlyGivenNames x3
    extract_lets +onlyGivenNames s4
    have h5 : Kept s₀ s4 := by
      dsimp -zeta only [s4]
      exact Kept.any h
    clear_value s4
    split
    · rename_i e6
      exact h5
    · rename_i x7
      extract_lets +onlyGivenNames s8
      have h9 : Kept s₀ s8 := by
        dsimp -zeta only [s8]
        exact Kept.ite (State.emit_kept h5) h5
      clear_value s8
      exact State.emit_kept h9

theorem State.synceBack_kept (h : Kept s₀ s) : Kept s₀ (State.synceBack s) := by
  unfold State.synceBack
  refine Kept.foldl ?_ ?_
  · exact h
  · intro s1 x2 h3
    exact State.emit_kept h3

theorem State.synceCheck_kept (h : Kept s₀ s) : Kept s₀ (State.synceCheck s) := by
  unfold State.synceCheck
  extract_lets +onlyGivenNames s1
  have h2 : Kept s₀ s1 := by
    dsimp -zeta only [s1]
    exact State.synceShow_kept (State.synceShow_kept h)
  clear_value s1
  refine Kept.ite ?_ ?_
  · exact h2
  · extract_lets +onlyGivenNames x3
    clear_value x3
    extract_lets +onlyGivenNames s4
    have h5 : Kept s₀ s4 := by
      dsimp -zeta only [s4]
      exact Kept.any h2
    clear_value s4
    split
    · rename_i e6
      exact State.ariseF_kept h5
    · rename_i x7
      exact h5

/-! ### Machine/Bpm.lean -/

theorem State.setBuf_kept {h' b} (h : Kept s₀ s) : Kept s₀ (State.setBuf s h' b) := by
  unfold State.setBuf
  exact h.putBuf

theorem State.bpmRefuse_kept {n a} (h : Kept s₀ s) : Kept s₀ (State.bpmRefuse s n a) := by
  unfold State.bpmRefuse
  split
  · exact h
  · exact State.cause_kept (State.addCnt_kept h)
  · exact State.cause_kept (State.addCnt_kept h)
  · exact State.cause_kept (State.addCnt_kept h)

theorem State.bpmAlloc_kept {rq len bytes} (h : Kept s₀ s) : Kept s₀ (State.bpmAlloc s rq len bytes).2 := by
  unfold State.bpmAlloc
  extract_lets +onlyGivenNames n1
  clear_value n1
  split
  · dsimp -zeta only
    exact State.bpmRefuse_kept h
  · split
    · dsimp -zeta only
      exact State.bpmRefuse_kept h
    · split
      · dsimp -zeta only
        exact State.bpmRefuse_kept h
      · split
        · rename_i x17 x18 s19 e20
          extract_lets +onlyGivenNames x21
          clear_value x21
          extract_lets +onlyGivenNames h22
          clear_value h22
          extract_lets +onlyGivenNames b23
          clear_value b23
          extract_lets +onlyGivenNames s24
          have h25 : Kept s₀ s24 := by
            dsimp -zeta only [s24]
            exact State.setBuf_kept (Kept.snd e20 (State.freeWord_kept h))
          clear_value s24
          extract_lets +onlyGivenNames s26
          extract_lets +onlyGivenNames s27
          have h28 : Kept s₀ s27 := by
            dsimp -zeta only [s27]
            exact h25.anyBpm
          clear_value s27
          dsimp -zeta only
          exact State.addCnt_kept h28

theorem State.bpmCopy_kept {rq h'2} (h : Kept s₀ s) : Kept s₀ (State.bpmCopy s rq h'2).2 := by
  unfold State.bpmCopy
  extract_lets +onlyGivenNames x1
  clear_value x1
  split
  · rename_i x2 e3
    dsimp -zeta only
    exact State.bpmRefuse_kept h
  · rename_i x4 x5 e6
    split
    · rename_i e7
      dsimp -zeta only
      exact State.bpmRefuse_kept h
    · rename_i x8
      split
      · rename_i x9
        dsimp -zeta only
        exact State.bpmRefuse_kept h
      · rename_i x10
        dsimp -zeta only
        exact State.setBuf_kept h

theorem State.bpmMove_kept {rq h'2} (h : Kept s₀ s) : Kept s₀ (State.bpmMove s rq h'2).2 := by
  unfold State.bpmMove
  extract_lets +onlyGivenNames x1
  clear_value x1
  split
  · rename_i x2 e3
    dsimp -zeta only
    exact State.bpmRefuse_kept h
  · rename_i x4 x5 e6
    split
    · rename_i e7
      dsimp -zeta only
      exact State.bpmRefuse_kept h
    · rename_i x8
      split
      · rename_i x9
        dsimp -zeta only
        exact State.bpmRefuse_kept h
      · rename_i x10
        dsimp -zeta only
        exact State.setBuf_kept h

theorem State.bpmRelease_kept {rq h'} (h : Kept s₀ s) : Kept s₀ (State.bpmRelease s rq h') := by
  unfold State.bpmRelease
  split
  · exact h
  · extract_lets +onlyGivenNames x6
    exact State.setBuf_kept h

theorem State.bpmDoubleFree_kept {rq h'} (h : Kept s₀ s) : Kept s₀ (State.bpmDoubleFree s rq h') := by
  unfold State.bpmDoubleFree
  extract_lets +onlyGivenNames n1
  clear_value n1
  extract_lets +onlyGivenNames s2
  have h3 : Kept s₀ s2 := by
    dsimp -zeta only [s2]
    exact Kept.ite h (State.setReg_kept h)
  clear_value s2
  extract_lets +onlyGivenNames s4
  have h5 : Kept s₀ s4 := by
    dsimp -zeta only [s4]
    exact State.addCnt_kept h3
  clear_value s4
  exact State.cause_kept (State.cause_kept h5)

theorem State.bpmReleaseAll_kept {p} (h : Kept s₀ s) : Kept s₀ (State.bpmReleaseAll s p) := by
  unfold State.bpmReleaseAll
  refine Kept.foldl h ?_
  intro s1 x2 h3
  split
  · exact h3
  · extract_lets +onlyGivenNames x9
    exact State.setBuf_kept h3

theorem State.setBufBytes_kept {h' bytes} (h : Kept s₀ s) : Kept s₀ (State.setBufBytes s h' bytes) := by
  unfold State.setBufBytes
  split
  · exact h
  · exact State.setBuf_kept h

theorem State.fenceSlice_kept {sl} (h : Kept s₀ s) : Kept s₀ (State.fenceSlice s sl) := by
  unfold State.fenceSlice
  refine Kept.ite h ?_
  extract_lets +onlyGivenNames s1
  have h2 : Kept s₀ s1 := by
    dsimp -zeta only [s1]
    exact State.setFld_kept h
  clear_value s1
  exact State.ariseF_kept h2

theorem State.sliceLoss_kept {rq h'2} (h : Kept s₀ s) : Kept s₀ (State.sliceLoss s rq h'2) := by
  unfold State.sliceLoss
  extract_lets +onlyGivenNames x1
  clear_value x1
  exact State.cause_kept (State.addCnt_kept h)

theorem State.uncorrError_kept {sl} (h : Kept s₀ s) : Kept s₀ (State.uncorrError s sl) := by
  unfold State.uncorrError
  extract_lets +onlyGivenNames k1
  clear_value k1
  extract_lets +onlyGivenNames s2
  extract_lets +onlyGivenNames s3
  have h4 : Kept s₀ s3 := by
    dsimp -zeta only [s3]
    exact h.anyBpm
  clear_value s3
  extract_lets +onlyGivenNames s5
  have h6 : Kept s₀ s5 := by
    dsimp -zeta only [s5]
    exact State.cause_kept (State.addCnt_kept h4)
  clear_value s5
  extract_lets +onlyGivenNames thr7
  clear_value thr7
  exact Kept.ite (State.fenceSlice_kept h6) h6

theorem State.readBuf_kept {h' off len} (h : Kept s₀ s) : Kept s₀ (State.readBuf s h' off len).2 := by
  unfold State.readBuf
  split
  · dsimp -zeta only
    exact h
  · split
    · dsimp -zeta only
      exact h
    · extract_lets +onlyGivenNames ws8
      clear_value ws8
      refine Kept.foldl2 ?_ ?_
      · dsimp -zeta only
        exact h
      · intro a9 x10 h11
        extract_lets +onlyGivenNames k12
        clear_value k12
        split
        · exact h11
        · split
          · dsimp -zeta only
            exact State.addCnt_kept h11
          · dsimp -zeta only
            exact State.uncorrError_kept h11

/-! ### Machine/Parser.lean -/

theorem State.setPipe_kept {p q} (h : Kept s₀ s) : Kept s₀ (State.setPipe s p q) := by
  unfold State.setPipe
  exact h.any

theorem State.setWaiting_kept {p k l} (h : Kept s₀ s) : Kept s₀ (State.setWaiting s p k l) := by
  unfold State.setWaiting
  exact State.setPipe_kept h

theorem State.parseCount_kept {p reason frag} (h : Kept s₀ s) : Kept s₀ (State.parseCount s p reason frag) := by
  unfold State.parseCount
  extract_lets +onlyGivenNames s1
  have h2 : Kept s₀ s1 := by
    dsimp -zeta only [s1]
    exact State.addCnt_kept h
  clear_value s1
  extract_lets +onlyGivenNames s3
  have h4 : Kept s₀ s3 := by
    dsimp -zeta only [s3]
    exact Kept.ite (State.addCnt_kept h2) h2
  clear_value s3
  exact Kept.ite (State.cause_kept h4) h4

theorem State.setExcBuckets_kept {n b} (h : Kept s₀ s) : Kept s₀ (State.setExcBuckets s n b) := by
  unfold State.setExcBuckets
  exact h.any

theorem State.excJudge_kept {p len} (h : Kept s₀ s) : Kept s₀ (State.excJudge s p len).2 := by
  unfold State.excJudge
  extract_lets +onlyGivenNames x1
  clear_value x1
  split
  · rename_i x2 x3 x4 e5
    extract_lets +onlyGivenNames s6
    have h7 : Kept s₀ s6 := by
      dsimp -zeta only [s6]
      exact State.setExcBuckets_kept h
    clear_value s6
    split
    · rename_i x8
      dsimp -zeta only
      exact State.addCnt_kept h7
    · rename_i x9
      dsimp -zeta only
      exact State.addCnt_kept h7
    · rename_i x10
      dsimp -zeta only
      exact State.cause_kept (State.addCnt_kept h7)

/-! ### Machine/Exc.lean -/

theorem State.setExcQ_kept {n c q} (h : Kept s₀ s) : Kept s₀ (State.setExcQ s n c q) := by
  unfold State.setExcQ
  exact h.anyOst

theorem State.setRingQ_kept {f r q} (h : Kept s₀ s) : Kept s₀ (State.setRingQ s f r q) := by
  unfold State.setRingQ
  exact h.any

theorem State.excNotMade_kept {n} (h : Kept s₀ s) : Kept s₀ (State.excNotMade s n) := by
  unfold State.excNotMade
  exact State.cause_kept (State.addCnt_kept h)

theorem State.excOstDrop_kept {n} (h : Kept s₀ s) : Kept s₀ (State.excOstDrop s n) := by
  unfold State.excOstDrop
  exact State.excNotMade_kept (State.cause_kept (State.addCnt_kept h))

theorem State.excHold_kept {rq h'2 held} (h : Kept s₀ s) : Kept s₀ (State.excHold s rq h'2 held).2 := by
  unfold State.excHold
  split
  · rename_i e1
    exact h
  · rename_i x2
    exact State.bpmCopy_kept h

theorem State.excFree_kept {n d h'3 held} (h : Kept s₀ s) : Kept s₀ (State.excFree s n d h'3 held) := by
  unfold State.excFree
  split
  · rename_i x1 x2 e3
    exact Kept.ite (State.bpmRelease_kept h) h
  · rename_i x4 e5
    exact h

theorem State.excRoute_kept {n d held c} (h : Kept s₀ s) : Kept s₀ (State.excRoute s n d held c) := by
  unfold State.excRoute
  refine Kept.ite ?_ ?_
  · refine Kept.ite ?_ ?_
    · exact State.excNotMade_kept (State.excFree_kept h)
    · split
      · rename_i x1 s2 e3
        exact State.setRingQ_kept (Kept.snd e3 (State.excHold_kept h))
      · rename_i x4 s5 e6
        exact State.excNotMade_kept (Kept.snd e6 (State.excHold_kept h))
  · refine Kept.ite ?_ ?_
    · extract_lets +onlyGivenNames x7
      clear_value x7
      refine Kept.ite ?_ ?_
      · exact State.excOstDrop_kept (State.excFree_kept h)
      · split
        · rename_i x8 s9 e10
          exact State.setExcQ_kept (Kept.snd e10 (State.excHold_kept h))
        · rename_i x11 s12 e13
          exact State.excNotMade_kept (Kept.snd e13 (State.excHold_kept h))
    · exact State.excNotMade_kept (State.excFree_kept h)

theorem State.excOffer_kept {p code point k} (h : Kept s₀ s) : Kept s₀ (State.excOffer s p code point k) := by
  unfold State.excOffer
  extract_lets +onlyGivenNames x1
  clear_value x1
  exact Kept.ite h (State.setPipe_kept h)

theorem State.excAsks_kept (h : Kept s₀ s) : Kept s₀ (State.excAsks s) := by
  unfold State.excAsks
  refine Kept.foldl ?_ ?_
  · exact h
  · intro s1 x2 h3
    extract_lets +onlyGivenNames x4
    clear_value x4
    refine Kept.ite ?_ ?_
    · exact h3
    · split
      · rename_i x5 x6 s7 e8
        refine State.setPipe_kept ?_
        refine Kept.snd e8 ?_
        refine Kept.foldl2 ?_ ?_
        · exact h3
        · intro x9 x10 h11
          split
          · rename_i x12 e13
            exact h11
          · rename_i x14 x15 e16
            split
            · rename_i x17 s18 e19
              dsimp -zeta only
              exact Kept.snd e19 (State.bpmCopy_kept h11)
            · rename_i x20 s21 e22
              exact h11

theorem State.excSettle_kept {p x} (h : Kept s₀ s) : Kept s₀ (State.excSettle s p x) := by
  unfold State.excSettle
  extract_lets +onlyGivenNames x1
  clear_value x1
  refine Kept.ite ?_ ?_
  · exact State.excFree_kept h
  · split
    · rename_i x2 s3 e4
      exact State.excFree_kept (Kept.snd e4 (State.excJudge_kept h))
    · rename_i x5 x6 s7 x8 e9
      exact State.excRoute_kept (Kept.snd e9 (State.excJudge_kept h))

theorem State.excTurn_kept (h : Kept s₀ s) : Kept s₀ (State.excTurn s) := by
  unfold State.excTurn
  refine Kept.foldl ?_ ?_
  · exact h
  · intro s1 x2 h3
    extract_lets +onlyGivenNames x4
    clear_value x4
    refine Kept.ite ?_ ?_
    · exact h3
    · refine Kept.foldl ?_ ?_
      · exact State.setPipe_kept h3
      · intro s5 x6 h7
        exact State.excSettle_kept h7

/-! ### Machine/Uc.lean -/

theorem State.setUcStore_kept {p st u} (h : Kept s₀ s) : Kept s₀ (State.setUcStore s p st u) := by
  unfold State.setUcStore
  exact h.any

theorem State.ucParity_kept {p st mark} (h : Kept s₀ s) : Kept s₀ (State.ucParity s p st mark) := by
  unfold State.ucParity
  extract_lets +onlyGivenNames s1
  have h2 : Kept s₀ s1 := by
    dsimp -zeta only [s1]
    exact State.addCnt_kept h
  clear_value s1
  extract_lets +onlyGivenNames s3
  have h4 : Kept s₀ s3 := by
    dsimp -zeta only [s3]
    exact Kept.ite h2 (State.setReg_kept h2)
  clear_value s3
  exact State.cause_kept h4

/-! ### Machine/Em.lean -/

theorem State.setEmStage_kept {p st e} (h : Kept s₀ s) : Kept s₀ (State.setEmStage s p st e) := by
  unfold State.setEmStage
  exact h.any

theorem State.setEmRow_kept {p st loc r} (h : Kept s₀ s) : Kept s₀ (State.setEmRow s p st loc r) := by
  unfold State.setEmRow
  exact State.setEmStage_kept h

theorem State.grpLost_kept {p} (h : Kept s₀ s) : Kept s₀ (State.grpLost s p) := by
  unfold State.grpLost
  exact State.cause_kept (State.addCnt_kept h)

theorem State.emParity_kept {p st loc ts} (h : Kept s₀ s) : Kept s₀ (State.emParity s p st loc ts) := by
  unfold State.emParity
  extract_lets +onlyGivenNames s1
  have h2 : Kept s₀ s1 := by
    dsimp -zeta only [s1]
    exact State.addCnt_kept h
  clear_value s1
  extract_lets +onlyGivenNames s3
  have h4 : Kept s₀ s3 := by
    dsimp -zeta only [s3]
    exact Kept.ite h2 (State.setReg_kept h2)
  clear_value s3
  extract_lets +onlyGivenNames s5
  have h6 : Kept s₀ s5 := by
    dsimp -zeta only [s5]
    exact State.cause_kept h4
  clear_value s5
  extract_lets +onlyGivenNames e7
  clear_value e7
  exact Kept.ite h6 (State.setEmStage_kept h6)

theorem State.emTsRepair_kept {p st loc} (h : Kept s₀ s) : Kept s₀ (State.emTsRepair s p st loc) := by
  unfold State.emTsRepair
  extract_lets +onlyGivenNames s1
  have h2 : Kept s₀ s1 := by
    dsimp -zeta only [s1]
    exact State.emParity_kept h
  clear_value s1
  exact State.setEmRow_kept h2

theorem State.emTsRead_kept {p st loc} (h : Kept s₀ s) : Kept s₀ (State.emTsRead s p st loc) := by
  unfold State.emTsRead
  exact Kept.ite (State.emTsRepair_kept h) h

theorem State.pushNote_kept {p st kind loc entry} (h : Kept s₀ s) : Kept s₀ (State.pushNote s p st kind loc entry) := by
  unfold State.pushNote
  refine Kept.ite h ?_
  refine Kept.ite (Kept.ite (State.addCnt_kept h) h) ?_
  extract_lets +onlyGivenNames e1
  clear_value e1
  extract_lets +onlyGivenNames n2
  clear_value n2
  extract_lets +onlyGivenNames s3
  have h4 : Kept s₀ s3 := by
    dsimp -zeta only [s3]
    exact State.setEmStage_kept h
  clear_value s3
  exact Kept.ite (State.ariseF_kept h4) h4

theorem State.emParities_kept {p st locs} (h : Kept s₀ s) : Kept s₀ (State.emParities s p st locs) := by
  unfold State.emParities
  refine Kept.foldl h ?_
  intro s1 x2 h3
  exact State.emParity_kept h3

theorem State.emLookup_kept {p st t key v} (h : Kept s₀ s) : Kept s₀ (State.emLookup s p st t key v).2 := by
  unfold State.emLookup
  split
  · extract_lets +onlyGivenNames s5
    have h6 : Kept s₀ s5 := by
      dsimp -zeta only [s5]
      exact State.addCnt_kept (State.emParities_kept h)
    clear_value s5
    split
    · dsimp -zeta only
      exact h6
    · extract_lets +onlyGivenNames r10
      clear_value r10
      extract_lets +onlyGivenNames s11
      have h12 : Kept s₀ s11 := by
        dsimp -zeta only [s11]
        exact State.setEmRow_kept h6
      clear_value s11
      dsimp -zeta only
      exact State.addCnt_kept h12

theorem State.emMoves_kept {p st l} (h : Kept s₀ s) : Kept s₀ (State.emMoves s p st l) := by
  induction l generalizing s with
  | nil => exact h
  | cons a l ih =>
    cases l with
    | nil => exact h
    | cons b l => exact ih (State.setEmRow_kept (State.setEmRow_kept (State.emTsRead_kept h)))

theorem State.emPlace_kept {p st t skip key} (h : Kept s₀ s) : Kept s₀ (State.emPlace s p st t skip key).2 := by
  unfold State.emPlace
  extract_lets +onlyGivenNames x1
  clear_value x1
  extract_lets +onlyGivenNames x2
  clear_value x2
  extract_lets +onlyGivenNames bad3
  clear_value bad3
  split
  · dsimp -zeta only
    exact State.emParities_kept h
  · dsimp -zeta only
    exact State.emParities_kept (State.emMoves_kept h)

theorem State.emVictim_kept {p st t key} (h : Kept s₀ s) : Kept s₀ (State.emVictim s p st t key).2 := by
  unfold State.emVictim
  extract_lets +onlyGivenNames x1
  clear_value x1
  extract_lets +onlyGivenNames x2
  clear_value x2
  extract_lets +onlyGivenNames s3
  have h4 : Kept s₀ s3 := by
    dsimp -zeta only [s3]
    refine Kept.ite ?_ ?_
    · refine Kept.foldl ?_ ?_
      · exact h
      · intro s5 x6 h7
        exact State.emTsRead_kept h7
    · exact h
  clear_value s3
  extract_lets +onlyGivenNames x8
  clear_value x8
  split
  · rename_i e9
    split
    · rename_i x10 x11 s12 e13
      dsimp -zeta only
      exact Kept.snd e13 (State.freeWord_kept h4)
  · rename_i x14
    split
    · rename_i e15
      exact h4
    · rename_i x16
      exact h4

theorem State.emInsert_kept {p st t entry see evict} (h : Kept s₀ s) : Kept s₀ (State.emInsert s p st t entry see
    evict).2 := by
  unfold State.emInsert
  extract_lets +onlyGivenNames x1
  clear_value x1
  extract_lets +onlyGivenNames x2
  clear_value x2
  split
  · rename_i x3 x4 s5 e6
    dsimp -zeta only
    exact State.setEmRow_kept (Kept.snd e6 (State.emPlace_kept h))
  · rename_i x7 s8 e9
    split
    · rename_i x10 x11 e12
      dsimp -zeta only
      exact State.setEmRow_kept (Kept.snd e9 (State.emPlace_kept h))
    · rename_i x13 e14
      split
      · rename_i e15
        dsimp -zeta only
        exact Kept.snd e9 (State.emPlace_kept h)
      · rename_i x16
        split
        · rename_i x17 x18 s19 e20
          split
          · rename_i x21
            dsimp -zeta only
            exact Kept.snd e20 (State.emVictim_kept (Kept.snd e9 (State.emPlace_kept h)))
          · rename_i x22 x23
            extract_lets +onlyGivenNames x24
            clear_value x24
            dsimp -zeta only
            exact State.addCnt_kept (State.setEmRow_kept (Kept.snd e20 (State.emVictim_kept (Kept.snd e9
                (State.emPlace_kept h)))))

theorem State.emFreed_kept {p st loc} (h : Kept s₀ s) : Kept s₀ (State.emFreed s p st loc) := by
  unfold State.emFreed
  exact Kept.ite h (State.setEmStage_kept h)

theorem State.emClear_kept {p st loc} (h : Kept s₀ s) : Kept s₀ (State.emClear s p st loc) := by
  unfold State.emClear
  extract_lets +onlyGivenNames r1
  clear_value r1
  extract_lets +onlyGivenNames s2
  have h3 : Kept s₀ s2 := by
    dsimp -zeta only [s2]
    exact State.setEmRow_kept h
  clear_value s2
  exact Kept.ite (State.grpLost_kept h3) h3

theorem State.emWrite_kept {p st loc bytes} (h : Kept s₀ s) : Kept s₀ (State.emWrite s p st loc bytes) := by
  unfold State.emWrite
  extract_lets +onlyGivenNames r1
  clear_value r1
  extract_lets +onlyGivenNames s2
  have h3 : Kept s₀ s2 := by
    dsimp -zeta only [s2]
    exact State.setEmRow_kept h
  clear_value s2
  exact Kept.ite (State.grpLost_kept h3) h3

theorem State.learnRequest_kept {p st q} (h : Kept s₀ s) : Kept s₀ (State.learnRequest s p st q) := by
  unfold State.learnRequest
  extract_lets +onlyGivenNames s1
  have h2 : Kept s₀ s1 := by
    dsimp -zeta only [s1]
    exact State.addCnt_kept h
  clear_value s1
  extract_lets +onlyGivenNames e3
  clear_value e3
  split
  · exact State.addCnt_kept (State.setEmStage_kept h2)
  · exact Kept.ite (State.cause_kept (State.addCnt_kept h2)) (State.setEmStage_kept h2)

theorem State.learnOutcome_kept {p st q} (h : Kept s₀ s) : Kept s₀ (State.learnOutcome s p st q).2 := by
  unfold State.learnOutcome
  extract_lets +onlyGivenNames x1
  clear_value x1
  extract_lets +onlyGivenNames x2
  clear_value x2
  split
  · rename_i x3 x4 x5 e6
    split
    · rename_i x7 x8 x9 e10
      extract_lets +onlyGivenNames s11
      have h12 : Kept s₀ s11 := by
        dsimp -zeta only [s11]
        exact State.emParities_kept h
      clear_value s11
      split
      · rename_i x13 e14
        split
        · rename_i x15 x16 s17 e18
          dsimp -zeta only
          exact State.addCnt_kept (Kept.snd e18 (State.emInsert_kept h12))
        · rename_i x19 x20 s21 e22
          dsimp -zeta only
          exact State.addCnt_kept (Kept.snd e22 (State.emInsert_kept h12))
        · rename_i x23 x24 x25 s26 e27
          dsimp -zeta only
          exact State.addCnt_kept (Kept.snd e27 (State.emInsert_kept h12))
        · rename_i x28 s29 e30
          dsimp -zeta only
          exact State.addCnt_kept (Kept.snd e30 (State.emInsert_kept h12))
      · rename_i x31 x32 e33
        extract_lets +onlyGivenNames x34
        clear_value x34
        extract_lets +onlyGivenNames x35
        clear_value x35
        split
        · rename_i e36
          dsimp -zeta only
          exact State.addCnt_kept h12
        · rename_i x37
          split
          · rename_i x38
            dsimp -zeta only
            exact State.addCnt_kept (State.setEmRow_kept h12)
          · rename_i x39
            dsimp -zeta only
            exact State.addCnt_kept (State.setEmRow_kept h12)

theorem State.learnNext_kept {p st t} (h : Kept s₀ s) (e : s.learnNext p st = some t) : Kept s₀ t := by
  unfold State.learnNext at e
  split at e
  · cases e
  · dsimp only at e
    split at e
    · cases e
    · cases e
      exact Kept.foldl (State.learnOutcome_kept (State.setEmStage_kept h)) fun _ _ h => State.pushNote_kept h

theorem State.learnProcess_kept {p st} (h : Kept s₀ s) : Kept s₀ (State.learnProcess s p st) := by
  unfold State.learnProcess
  refine Kept.ite ?_ h
  cases e : s.learnNext p st with
  | none => exact h
  | some t => exact State.learnNext_kept h e

theorem State.stashReinsert_kept {p st} (h : Kept s₀ s) : Kept s₀ (State.stashReinsert s p st) := by
  unfold State.stashReinsert
  split
  · rename_i x1 e2
    exact h
  · rename_i x3 x4 x5 e6
    refine Kept.ite ?_ ?_
    · exact h
    · extract_lets +onlyGivenNames x7
      clear_value x7
      extract_lets +onlyGivenNames s8
      have h9 : Kept s₀ s8 := by
        dsimp -zeta only [s8]
        exact State.setEmStage_kept h
      clear_value s8
      split
      · rename_i x10 e11
        exact h9
      · rename_i x12 x13 e14
        extract_lets +onlyGivenNames s15
        have h16 : Kept s₀ s15 := by
          dsimp -zeta only [s15]
          exact State.emTsRead_kept h9
        clear_value s15
        extract_lets +onlyGivenNames x17
        clear_value x17
        split
        · rename_i x18 s19 e20
          exact Kept.snd e20 (State.emPlace_kept h16)
        · rename_i x21 x22 s23 e24
          exact State.setEmRow_kept (State.setEmRow_kept (Kept.snd e24 (State.emPlace_kept h16)))

theorem State.ageLoc_kept {p st loc} (h : Kept s₀ s) : Kept s₀ (State.ageLoc s p st loc).2 := by
  unfold State.ageLoc
  extract_lets +onlyGivenNames x1
  clear_value x1
  extract_lets +onlyGivenNames x2
  clear_value x2
  split
  · rename_i e3
    dsimp -zeta only
    exact State.emParity_kept h
  · rename_i x4
    extract_lets +onlyGivenNames s5
    have h6 : Kept s₀ s5 := by
      dsimp -zeta only [s5]
      exact State.emTsRead_kept h
    clear_value s5
    extract_lets +onlyGivenNames x7
    clear_value x7
    extract_lets +onlyGivenNames x8
    clear_value x8
    extract_lets +onlyGivenNames x9
    clear_value x9
    split
    · rename_i e10
      exact h6
    · rename_i x11
      split
      · rename_i e12
        exact h6
      · rename_i x13
        extract_lets +onlyGivenNames s14
        have h15 : Kept s₀ s14 := by
          dsimp -zeta only [s14]
          exact State.addCnt_kept (State.setEmRow_kept h6)
        clear_value s14
        dsimp -zeta only
        exact State.emFreed_kept (State.pushNote_kept h15)

theorem State.agerVisit_kept {p st} (h : Kept s₀ s) : Kept s₀ (State.agerVisit s p st) := by
  unfold State.agerVisit
  refine Kept.ite ?_ ?_
  · exact h
  · extract_lets +onlyGivenNames x1
    clear_value x1
    extract_lets +onlyGivenNames x2
    clear_value x2
    split
    · rename_i x3 x4 x5 e6
      split
      · rename_i x7 x8 s9 e10
        refine State.setEmStage_kept ?_
        refine Kept.snd e10 ?_
        refine Kept.foldl2 ?_ ?_
        · exact h
        · intro x11 x12 h13
          split
          · rename_i e14
            exact State.ageLoc_kept h13
          · rename_i x15
            exact h13

theorem State.parityInvalidate_kept {p st} (h : Kept s₀ s) : Kept s₀ (State.parityInvalidate s p st) := by
  unfold State.parityInvalidate
  refine Kept.ite ?_ ?_
  · exact h
  · split
    · rename_i x1 e2
      exact h
    · rename_i x3 x4 x5 e6
      extract_lets +onlyGivenNames x7
      extract_lets +onlyGivenNames s8
      have h9 : Kept s₀ s8 := by
        dsimp -zeta only [s8]
        exact State.setEmStage_kept h
      clear_value s8
      extract_lets +onlyGivenNames x10
      clear_value x10
      exact Kept.ite h9 (State.pushNote_kept (State.emClear_kept h9))

theorem State.setIaBytes_kept {p st b} (h : Kept s₀ s) : Kept s₀ (State.setIaBytes s p st b) := by
  unfold State.setIaBytes
  refine Kept.foldl h ?_
  intro s1 x2 h3
  exact State.setReg_kept h3

theorem State.iaDone_kept {p st res loc} (h : Kept s₀ s) : Kept s₀ (State.iaDone s p st res loc) := by
  unfold State.iaDone
  exact State.setReg_kept h

theorem State.iaReturn_kept {p st loc} (h : Kept s₀ s) : Kept s₀ (State.iaReturn s p st loc) := by
  unfold State.iaReturn
  extract_lets +onlyGivenNames s1
  have h2 : Kept s₀ s1 := by
    dsimp -zeta only [s1]
    exact State.emTsRead_kept h
  clear_value s1
  extract_lets +onlyGivenNames x3
  clear_value x3
  exact State.setReg_kept (State.setIaBytes_kept h2)

theorem State.iaRead_kept {p st loc} (h : Kept s₀ s) : Kept s₀ (State.iaRead s p st loc) := by
  unfold State.iaRead
  extract_lets +onlyGivenNames r1
  clear_value r1
  extract_lets +onlyGivenNames s2
  have h3 : Kept s₀ s2 := by
    dsimp -zeta only [s2]
    exact State.iaReturn_kept h
  clear_value s2
  exact Kept.ite (State.iaDone_kept h3) (State.iaDone_kept (State.emParity_kept h3))

theorem State.iaWrite_kept {p st loc} (h : Kept s₀ s) : Kept s₀ (State.iaWrite s p st loc) := by
  unfold State.iaWrite
  exact State.iaDone_kept (State.emWrite_kept h)

theorem State.iaFind_kept {p st t} (h : Kept s₀ s) : Kept s₀ (State.iaFind s p st t).2 := by
  unfold State.iaFind
  extract_lets +onlyGivenNames key1
  clear_value key1
  split
  · dsimp -zeta only
    exact State.emParities_kept h

theorem State.iaLookup_kept {p st t} (h : Kept s₀ s) : Kept s₀ (State.iaLookup s p st t) := by
  unfold State.iaLookup
  split
  · rename_i x1 s2 e3
    exact State.iaDone_kept (Kept.snd e3 (State.iaFind_kept h))
  · rename_i x4 x5 s6 e7
    exact State.iaDone_kept (State.iaReturn_kept (Kept.snd e7 (State.iaFind_kept h)))

theorem State.iaInsert_kept {p st t} (h : Kept s₀ s) : Kept s₀ (State.iaInsert s p st t) := by
  unfold State.iaInsert
  split
  · rename_i x1 x2 s3 e4
    exact State.iaDone_kept (Kept.snd e4 (State.iaFind_kept h))
  · rename_i x5 s6 e7
    split
    · rename_i x8 x9 s10 e11
      exact State.iaDone_kept (Kept.snd e11 (State.emInsert_kept (Kept.snd e7 (State.iaFind_kept h))))
    · rename_i x12 x13 s14 e15
      exact State.iaDone_kept (Kept.snd e15 (State.emInsert_kept (Kept.snd e7 (State.iaFind_kept h))))
    · rename_i x16 x17 x18 s19 e20
      exact State.iaDone_kept (State.setIaBytes_kept (Kept.snd e20 (State.emInsert_kept (Kept.snd e7 (State.iaFind_kept
          h)))))
    · rename_i x21 s22 e23
      exact State.iaDone_kept (Kept.snd e23 (State.emInsert_kept (Kept.snd e7 (State.iaFind_kept h))))

theorem State.iaUpdate_kept {p st t} (h : Kept s₀ s) : Kept s₀ (State.iaUpdate s p st t) := by
  unfold State.iaUpdate
  split
  · rename_i x1 s2 e3
    exact State.iaDone_kept (Kept.snd e3 (State.iaFind_kept h))
  · rename_i x4 x5 s6 e7
    exact State.iaDone_kept (State.emWrite_kept (Kept.snd e7 (State.iaFind_kept h)))

theorem State.iaDelete_kept {p st t} (h : Kept s₀ s) : Kept s₀ (State.iaDelete s p st t) := by
  unfold State.iaDelete
  split
  · rename_i x1 s2 e3
    exact State.iaDone_kept (Kept.snd e3 (State.iaFind_kept h))
  · rename_i x4 x5 s6 e7
    exact State.iaDone_kept (State.emFreed_kept (State.emClear_kept (Kept.snd e7 (State.iaFind_kept h))))

theorem State.iaTake_kept {p st j} (h : Kept s₀ s) : Kept s₀ (State.iaTake s p st j) := by
  unfold State.iaTake
  extract_lets +onlyGivenNames x1
  clear_value x1
  extract_lets +onlyGivenNames s2
  have h3 : Kept s₀ s2 := by
    dsimp -zeta only [s2]
    exact State.setEmStage_kept h
  clear_value s2
  exact State.setBit_kept h3

theorem State.iaFlush_kept {p st} (h : Kept s₀ s) : Kept s₀ (State.iaFlush s p st) := by
  unfold State.iaFlush
  extract_lets +onlyGivenNames s1
  clear_value s1
  extract_lets +onlyGivenNames s2
  have h3 : Kept s₀ s2 := by
    dsimp -zeta only [s2]
    exact State.setEmStage_kept h
  clear_value s2
  exact State.iaDone_kept (State.setBit_kept h3)

theorem State.flushLocs_kept {p st locs} (h : Kept s₀ s) : Kept s₀ (State.flushLocs s p st locs) := by
  unfold State.flushLocs
  refine Kept.foldl h ?_
  intro s1 x2 h3
  extract_lets +onlyGivenNames r4
  clear_value r4
  exact Kept.ite (State.emFreed_kept (State.emClear_kept h3)) h3

theorem State.flushStep_kept {p st} (h : Kept s₀ s) : Kept s₀ (State.flushStep s p st) := by
  unfold State.flushStep
  split
  · rename_i x1 e2
    exact h
  · rename_i x3 x4 e5
    extract_lets +onlyGivenNames x6
    clear_value x6
    extract_lets +onlyGivenNames x7
    clear_value x7
    refine Kept.ite ?_ ?_
    · extract_lets +onlyGivenNames x8
      clear_value x8
      extract_lets +onlyGivenNames s9
      have h10 : Kept s₀ s9 := by
        dsimp -zeta only [s9]
        exact State.flushLocs_kept h
      clear_value s9
      exact State.setEmStage_kept h10
    · extract_lets +onlyGivenNames s11
      have h12 : Kept s₀ s11 := by
        dsimp -zeta only [s11]
        exact State.flushLocs_kept h
      clear_value s11
      extract_lets +onlyGivenNames x13
      extract_lets +onlyGivenNames s14
      have h15 : Kept s₀ s14 := by
        dsimp -zeta only [s14]
        exact State.setEmStage_kept h12
      clear_value s14
      exact State.iaDone_kept (State.setBit_kept h15)

theorem State.iaGo_kept {p st} (h : Kept s₀ s) : Kept s₀ (State.iaGo s p st) := by
  unfold State.iaGo
  exact Kept.ite (State.iaDone_kept (State.cause_kept h)) (Kept.ite (State.iaDone_kept h) (State.iaDone_kept
      (State.iaTake_kept h)))

theorem State.iaRun_kept {p st} (h : Kept s₀ s) : Kept s₀ (State.iaRun s p st) := by
  unfold State.iaRun
  extract_lets +onlyGivenNames x1
  clear_value x1
  extract_lets +onlyGivenNames x2
  clear_value x2
  extract_lets +onlyGivenNames x3
  clear_value x3
  extract_lets +onlyGivenNames x4
  clear_value x4
  extract_lets +onlyGivenNames x5
  clear_value x5
  exact Kept.ite (State.iaDone_kept h) (Kept.ite (State.iaRead_kept h) (Kept.ite (State.iaWrite_kept h) (Kept.ite
      (State.iaLookup_kept h) (Kept.ite (State.iaInsert_kept h) (Kept.ite (State.iaUpdate_kept h) (Kept.ite
      (State.iaDelete_kept h) (State.iaFlush_kept h)))))))

theorem State.notePop_kept {p st} (h : Kept s₀ s) : Kept s₀ (State.notePop s p st) := by
  unfold State.notePop
  exact State.setEmStage_kept h

theorem State.emReset_kept {p st} (h : Kept s₀ s) : Kept s₀ (State.emReset s p st) := by
  unfold State.emReset
  extract_lets +onlyGivenNames x1
  clear_value x1
  extract_lets +onlyGivenNames x2
  clear_value x2
  extract_lets +onlyGivenNames s3
  have h4 : Kept s₀ s3 := by
    dsimp -zeta only [s3]
    exact State.setBit_kept (State.setEmStage_kept h)
  clear_value s3
  exact Kept.ite (State.iaDone_kept h4) h4

/-! ### Machine/Tc.lean -/

theorem State.setTcPipe_kept {p e} (h : Kept s₀ s) : Kept s₀ (State.setTcPipe s p e) := by
  unfold State.setTcPipe
  exact h.any

theorem State.setTcRow_kept {p key r} (h : Kept s₀ s) : Kept s₀ (State.setTcRow s p key r) := by
  unfold State.setTcRow
  exact State.setTcPipe_kept h

theorem State.gmaskTake_kept {p st t} (h : Kept s₀ s) : Kept s₀ (State.gmaskTake s p st t) := by
  unfold State.gmaskTake
  refine Kept.foldl h ?_
  intro s1 x2 h3
  extract_lets +onlyGivenNames k4
  clear_value k4
  extract_lets +onlyGivenNames v5
  clear_value v5
  exact h3.putMask

theorem State.tcFault_kept {p key parity} (h : Kept s₀ s) : Kept s₀ (State.tcFault s p key parity) := by
  unfold State.tcFault
  extract_lets +onlyGivenNames x1
  clear_value x1
  extract_lets +onlyGivenNames s2
  have h3 : Kept s₀ s2 := by
    dsimp -zeta only [s2]
    exact State.addCnt_kept h
  clear_value s2
  extract_lets +onlyGivenNames x4
  clear_value x4
  extract_lets +onlyGivenNames s5
  have h6 : Kept s₀ s5 := by
    dsimp -zeta only [s5]
    exact Kept.ite h3 (State.setReg_kept h3)
  clear_value s5
  extract_lets +onlyGivenNames s7
  have h8 : Kept s₀ s7 := by
    dsimp -zeta only [s7]
    exact State.cause_kept h6
  clear_value s7
  extract_lets +onlyGivenNames x9
  clear_value x9
  extract_lets +onlyGivenNames x10
  clear_value x10
  exact Kept.ite h8 (State.setTcPipe_kept h8)

theorem State.tcSearch_kept {p st t key g v} (h : Kept s₀ s) : Kept s₀ (State.tcSearch s p st t key g v).2.2 := by
  unfold State.tcSearch
  extract_lets +onlyGivenNames x1
  clear_value x1
  extract_lets +onlyGivenNames x2
  clear_value x2
  extract_lets +onlyGivenNames s3
  have h4 : Kept s₀ s3 := by
    dsimp -zeta only [s3]
    refine Kept.foldl ?_ ?_
    · exact h
    · intro s5 x6 h7
      exact State.tcFault_kept h7
  clear_value s3
  split
  · rename_i x8 e9
    exact h4
  · rename_i x10 x11 e12
    split
    · rename_i x13 e14
      exact h4
    · rename_i x15 x16 e17
      split
      · rename_i x18 x19 s20 e21
        dsimp -zeta only
        exact Kept.snd e21 (State.freeBool_kept h4)

theorem State.tcLookup_kept {p st t key g v} (h : Kept s₀ s) : Kept s₀ (State.tcLookup s p st t key g v).2 := by
  unfold State.tcLookup
  split
  · rename_i x1 x2 x3 s4 e5
    extract_lets +onlyGivenNames s6
    have h7 : Kept s₀ s6 := by
      dsimp -zeta only [s6]
      exact State.addCnt_kept (Kept.snd2 e5 (State.tcSearch_kept h))
    clear_value s6
    extract_lets +onlyGivenNames s8
    have h9 : Kept s₀ s8 := by
      dsimp -zeta only [s8]
      exact Kept.ite (State.addCnt_kept h7) h7
    clear_value s8
    split
    · dsimp -zeta only
      exact h9
    · dsimp -zeta only
      exact State.addCnt_kept h9

theorem State.tcCopy_kept {p c} (h : Kept s₀ s) : Kept s₀ (State.tcCopy s p c) := by
  unfold State.tcCopy
  extract_lets +onlyGivenNames s1
  have h2 : Kept s₀ s1 := by
    dsimp -zeta only [s1]
    exact State.setTcRow_kept h
  clear_value s1
  exact State.setTcPipe_kept h2

theorem State.tcOutside_kept {p old} (h : Kept s₀ s) : Kept s₀ (State.tcOutside s p old) := by
  unfold State.tcOutside
  exact Kept.ite (State.grpLost_kept h) h

theorem State.tcInvalidate_kept {p} (h : Kept s₀ s) : Kept s₀ (State.tcInvalidate s p) := by
  unfold State.tcInvalidate
  split
  · rename_i x1 e2
    exact h
  · rename_i x3 x4 x5 e6
    refine Kept.ite ?_ ?_
    · exact h
    · extract_lets +onlyGivenNames x7
      extract_lets +onlyGivenNames s8
      have h9 : Kept s₀ s8 := by
        dsimp -zeta only [s8]
        exact State.setTcPipe_kept h
      clear_value s8
      extract_lets +onlyGivenNames x10
      clear_value x10
      exact State.tcOutside_kept (State.setTcRow_kept h9)

theorem State.scrubStep_kept {p} (h : Kept s₀ s) : Kept s₀ (State.scrubStep s p) := by
  unfold State.scrubStep
  extract_lets +onlyGivenNames x1
  clear_value x1
  extract_lets +onlyGivenNames s2
  have h3 : Kept s₀ s2 := by
    dsimp -zeta only [s2]
    exact State.setTcPipe_kept h
  clear_value s2
  split
  · rename_i x4 e5
    exact h3
  · rename_i x6 x7 e8
    extract_lets +onlyGivenNames x9
    clear_value x9
    extract_lets +onlyGivenNames x10
    clear_value x10
    extract_lets +onlyGivenNames x11
    clear_value x11
    extract_lets +onlyGivenNames x12
    clear_value x12
    refine Kept.ite ?_ ?_
    · exact h3
    · extract_lets +onlyGivenNames x13
      clear_value x13
      split
      · rename_i x14 x15 x16 x17 x18 x19 e20
        extract_lets +onlyGivenNames x21
        clear_value x21
        extract_lets +onlyGivenNames x22
        clear_value x22
        extract_lets +onlyGivenNames x23
        clear_value x23
        extract_lets +onlyGivenNames x24
        clear_value x24
        extract_lets +onlyGivenNames s25
        have h26 : Kept s₀ s25 := by
          dsimp -zeta only [s25]
          exact State.addCnt_kept h3
        clear_value s25
        extract_lets +onlyGivenNames s27
        have h28 : Kept s₀ s27 := by
          dsimp -zeta only [s27]
          split
          · rename_i x29 e30
            exact h26
          · rename_i x31 e32
            exact State.cause_kept (State.addCnt_kept (State.setTcRow_kept h26))
          · rename_i x33 e34
            exact State.tcFault_kept h26
          · rename_i x35 e36
            exact State.tcFault_kept h26
        clear_value s27
        extract_lets +onlyGivenNames x37
        clear_value x37
        split
        · rename_i x38 x39 x40 e41
          exact State.setFld_kept (State.setFld_kept h28)

theorem State.scrubVisit_kept {p} (h : Kept s₀ s) : Kept s₀ (State.scrubVisit s p) := by
  unfold State.scrubVisit
  exact Kept.ite (State.scrubStep_kept h) h

theorem State.tcDone_kept {p res addr} (h : Kept s₀ s) : Kept s₀ (State.tcDone s p res addr) := by
  unfold State.tcDone
  exact State.setFld_kept (State.setFld_kept h)

theorem State.tcReturn_kept {p st t r} (h : Kept s₀ s) : Kept s₀ (State.tcReturn s p st t r) := by
  unfold State.tcReturn
  extract_lets +onlyGivenNames w1
  clear_value w1
  extract_lets +onlyGivenNames put2
  have h6 : ∀ a3 a4 a5, Kept s₀ a5 → Kept s₀ (put2 a3 a4 a5) := by
    intro a37 a48 s9 h10
    dsimp -zeta only [put2]
    refine Kept.foldl h10 ?_
    intro s11 x12 h13
    exact State.setReg_kept h13
  clear_value put2
  extract_lets +onlyGivenNames s14
  have h15 : Kept s₀ s14 := by
    dsimp -zeta only [s14]
    exact h6 _ _ _ h
  clear_value s14
  extract_lets +onlyGivenNames s16
  have h17 : Kept s₀ s16 := by
    dsimp -zeta only [s16]
    exact h6 _ _ _ h15
  clear_value s16
  extract_lets +onlyGivenNames s18
  have h19 : Kept s₀ s18 := by
    dsimp -zeta only [s18]
    exact State.setFld_kept (State.setBit_kept h17)
  clear_value s18
  extract_lets +onlyGivenNames s20
  have h21 : Kept s₀ s20 := by
    dsimp -zeta only [s20]
    exact State.setReg_kept h19
  clear_value s20
  exact State.setReg_kept h21

theorem State.tcRead_kept {p st t a} (h : Kept s₀ s) : Kept s₀ (State.tcRead s p st t a) := by
  unfold State.tcRead
  extract_lets +onlyGivenNames x1
  clear_value x1
  extract_lets +onlyGivenNames x2
  clear_value x2
  extract_lets +onlyGivenNames x3
  clear_value x3
  extract_lets +onlyGivenNames s4
  have h5 : Kept s₀ s4 := by
    dsimp -zeta only [s4]
    exact State.tcReturn_kept h
  clear_value s4
  exact Kept.ite (State.tcDone_kept (State.tcFault_kept h5)) (Kept.ite (State.tcDone_kept (State.tcFault_kept h5))
      (State.tcDone_kept h5))

theorem State.tcWrite_kept {p st t a} (h : Kept s₀ s) : Kept s₀ (State.tcWrite s p st t a) := by
  unfold State.tcWrite
  extract_lets +onlyGivenNames x1
  clear_value x1
  exact State.tcDone_kept (State.tcOutside_kept (State.setTcRow_kept h))

theorem State.tcDelete_kept {p st t a} (h : Kept s₀ s) : Kept s₀ (State.tcDelete s p st t a) := by
  unfold State.tcDelete
  extract_lets +onlyGivenNames x1
  clear_value x1
  exact Kept.ite (State.tcDone_kept h) (State.tcDone_kept (State.tcOutside_kept (State.setTcRow_kept h)))

theorem State.tcUpdate_kept {p st t a} (h : Kept s₀ s) : Kept s₀ (State.tcUpdate s p st t a) := by
  unfold State.tcUpdate
  extract_lets +onlyGivenNames x1
  clear_value x1
  refine Kept.ite ?_ ?_
  · exact State.tcDone_kept h
  · extract_lets +onlyGivenNames x2
    clear_value x2
    exact State.tcDone_kept (State.tcOutside_kept (State.setTcRow_kept h))

theorem State.tcIaSearch_kept {p st t} (h : Kept s₀ s) : Kept s₀ (State.tcIaSearch s p st t) := by
  unfold State.tcIaSearch
  extract_lets +onlyGivenNames x1
  clear_value x1
  split
  · rename_i x2 x3 x4 s5 e6
    extract_lets +onlyGivenNames s7
    have h8 : Kept s₀ s7 := by
      dsimp -zeta only [s7]
      exact Kept.ite (State.addCnt_kept (Kept.snd2 e6 (State.tcSearch_kept h))) (Kept.snd2 e6 (State.tcSearch_kept h))
    clear_value s7
    split
    · rename_i x9
      exact State.tcDone_kept h8
    · rename_i x10 x11 x12
      exact State.tcDone_kept (State.tcReturn_kept h8)

theorem State.tcFlush_kept {p st t} (h : Kept s₀ s) : Kept s₀ (State.tcFlush s p st t) := by
  unfold State.tcFlush
  extract_lets +onlyGivenNames x1
  clear_value x1
  refine State.tcDone_kept ?_
  refine Kept.foldl ?_ ?_
  · exact h
  · intro s2 x3 h4
    exact State.tcOutside_kept (State.setTcRow_kept h4)

theorem State.tcTake_kept {p j} (h : Kept s₀ s) : Kept s₀ (State.tcTake s p j) := by
  unfold State.tcTake
  extract_lets +onlyGivenNames x1
  clear_value x1
  extract_lets +onlyGivenNames s2
  have h3 : Kept s₀ s2 := by
    dsimp -zeta only [s2]
    exact State.setTcPipe_kept h
  clear_value s2
  exact State.setBit_kept h3

theorem State.tcFree_kept {p} (h : Kept s₀ s) : Kept s₀ (State.tcFree s p) := by
  unfold State.tcFree
  extract_lets +onlyGivenNames x1
  clear_value x1
  extract_lets +onlyGivenNames s2
  have h3 : Kept s₀ s2 := by
    dsimp -zeta only [s2]
    exact State.setTcPipe_kept h
  clear_value s2
  exact State.setBit_kept h3

theorem State.tcGo_kept {p} (h : Kept s₀ s) : Kept s₀ (State.tcGo s p) := by
  unfold State.tcGo
  exact Kept.ite (State.tcDone_kept (State.cause_kept h)) (Kept.ite (State.tcDone_kept h) (State.tcDone_kept
      (State.tcTake_kept h)))

theorem State.tcStart_kept {p m} (h : Kept s₀ s) : Kept s₀ (State.tcStart s p m) := by
  unfold State.tcStart
  exact State.setTcPipe_kept h

theorem State.tcRun_kept {p} (h : Kept s₀ s) : Kept s₀ (State.tcRun s p) := by
  unfold State.tcRun
  extract_lets +onlyGivenNames x1
  clear_value x1
  extract_lets +onlyGivenNames x2
  clear_value x2
  extract_lets +onlyGivenNames x3
  clear_value x3
  extract_lets +onlyGivenNames x4
  clear_value x4
  extract_lets +onlyGivenNames x5
  clear_value x5
  refine Kept.ite ?_ ?_
  · exact State.tcDone_kept (State.tcFree_kept h)
  · refine Kept.ite ?_ ?_
    · exact State.tcRead_kept (State.tcFree_kept h)
    · refine Kept.ite ?_ ?_
      · exact State.tcWrite_kept (State.tcFree_kept h)
      · refine Kept.ite ?_ ?_
        · split
          · rename_i x6 x7 e8
            exact State.tcDone_kept (State.setFld_kept (State.tcFree_kept h))
          · rename_i x9 x10 e11
            exact State.tcStart_kept h
        · exact Kept.ite (State.tcDelete_kept (State.tcFree_kept h)) (Kept.ite (State.tcUpdate_kept (State.tcFree_kept
            h)) (Kept.ite (State.tcIaSearch_kept (State.tcFree_kept h)) (State.tcFlush_kept (State.tcFree_kept h))))

theorem State.tcEmpty_kept {p} (h : Kept s₀ s) : Kept s₀ (State.tcEmpty s p) := by
  unfold State.tcEmpty
  exact State.resetReg_kept (State.setTcPipe_kept h)

theorem State.tcReset_kept {p} (h : Kept s₀ s) : Kept s₀ (State.tcReset s p) := by
  unfold State.tcReset
  extract_lets +onlyGivenNames x1
  clear_value x1
  extract_lets +onlyGivenNames s2
  have h3 : Kept s₀ s2 := by
    dsimp -zeta only [s2]
    exact State.setBit_kept (State.resetReg_kept (State.setTcPipe_kept h))
  clear_value s2
  exact Kept.ite (State.tcDone_kept h3) h3

end Sys2Proof.Machine
end

