-- ==== Sys2Proof/Laws/KeptB.lean ====
section
/-! SUPPORT. What every operation of Machine/ (Stage, Port, Wb, Time) keeps: one lemma for each, which the lemmas about its callers cite. -/

namespace Sys2Proof.Machine

variable {s₀ s : State}

/-! ### Machine/Stage.lean -/

theorem State.setCols_kept {p eg cs} (h : Kept s₀ s) : Kept s₀ (State.setCols s p eg cs) := by
  unfold State.setCols
  exact State.setPipe_kept h

theorem State.colCount_kept {p eg c} (h : Kept s₀ s) : Kept s₀ (State.colCount s p eg c) := by
  unfold State.colCount
  extract_lets +onlyGivenNames x1
  clear_value x1
  extract_lets +onlyGivenNames s2
  have h3 : Kept s₀ s2 := by
    dsimp -zeta only [s2]
    exact State.addCntWrap_kept h
  clear_value s2
  extract_lets +onlyGivenNames s4
  have h5 : Kept s₀ s4 := by
    dsimp -zeta only [s4]
    exact State.addCntWrap_kept h3
  clear_value s4
  extract_lets +onlyGivenNames s6
  have h7 : Kept s₀ s6 := by
    dsimp -zeta only [s6]
    exact State.addCntWrap_kept h5
  clear_value s6
  extract_lets +onlyGivenNames s8
  have h9 : Kept s₀ s8 := by
    dsimp -zeta only [s8]
    exact State.addCntWrap_kept h7
  clear_value s8
  exact State.addCntWrap_kept h9

theorem State.colOut_kept {p eg} (h : Kept s₀ s) : Kept s₀ (State.colOut s p eg) := by
  unfold State.colOut
  split
  · rename_i x1 e2
    exact State.colCount_kept h
  · rename_i x3 x4 x5 e6
    exact Kept.ite (State.setCols_kept (State.colCount_kept h)) (State.colCount_kept h)

theorem State.berthLeave_kept {p eg wasted} (h : Kept s₀ s) : Kept s₀ (State.berthLeave s p eg wasted) := by
  unfold State.berthLeave
  exact State.setCols_kept h

theorem State.parserOut_kept {p k} (h : Kept s₀ s) : Kept s₀ (State.parserOut s p k) := by
  unfold State.parserOut
  exact Kept.ite (State.excOffer_kept (State.parseCount_kept h)) (State.parseCount_kept h)

theorem State.berthIngress_kept {p credit} (h : Kept s₀ s) : Kept s₀ (State.berthIngress s p credit) := by
  unfold State.berthIngress
  extract_lets +onlyGivenNames x1
  clear_value x1
  extract_lets +onlyGivenNames x2
  clear_value x2
  extract_lets +onlyGivenNames x3
  clear_value x3
  extract_lets +onlyGivenNames x4
  clear_value x4
  extract_lets +onlyGivenNames s5
  have h6 : Kept s₀ s5 := by
    dsimp -zeta only [s5]
    exact State.setPipe_kept h
  clear_value s5
  extract_lets +onlyGivenNames s7
  have h8 : Kept s₀ s7 := by
    dsimp -zeta only [s7]
    exact State.setWaiting_kept h6
  clear_value s7
  exact State.setCols_kept h8

theorem State.berthEgress_kept {p credit} (h : Kept s₀ s) : Kept s₀ (State.berthEgress s p credit) := by
  unfold State.berthEgress
  extract_lets +onlyGivenNames x1
  clear_value x1
  extract_lets +onlyGivenNames x2
  clear_value x2
  extract_lets +onlyGivenNames x3
  clear_value x3
  extract_lets +onlyGivenNames x4
  clear_value x4
  extract_lets +onlyGivenNames x5
  clear_value x5
  extract_lets +onlyGivenNames x6
  clear_value x6
  extract_lets +onlyGivenNames s7
  have h8 : Kept s₀ s7 := by
    dsimp -zeta only [s7]
    exact State.setPipe_kept h
  clear_value s7
  extract_lets +onlyGivenNames s9
  have h10 : Kept s₀ s9 := by
    dsimp -zeta only [s9]
    exact State.setWaiting_kept h8
  clear_value s9
  exact State.setCols_kept h10

theorem State.berthTake_kept {p eg credit} (h : Kept s₀ s) : Kept s₀ (State.berthTake s p eg credit) := by
  unfold State.berthTake
  exact Kept.ite (Kept.ite (State.berthEgress_kept h) h) (Kept.ite (State.berthIngress_kept h) h)

theorem State.berthTick_kept {p eg} (h : Kept s₀ s) : Kept s₀ (State.berthTick s p eg) := by
  unfold State.berthTick
  extract_lets +onlyGivenNames s1
  have h2 : Kept s₀ s1 := by
    dsimp -zeta only [s1]
    exact State.berthTake_kept h
  clear_value s1
  extract_lets +onlyGivenNames x3
  clear_value x3
  exact State.setPipe_kept h2

theorem State.chainAdd_kept {a h' v} (h : Kept s₀ s) : Kept s₀ (State.chainAdd s a h' v) := by
  unfold State.chainAdd
  exact Kept.ite h (Kept.ite (State.setCnt_kept h) (Kept.ite (State.setCnt_kept h) (State.setCnt_kept (State.setCnt_kept
      h))))

theorem State.actCount_kept {p st c len} (h : Kept s₀ s) : Kept s₀ (State.actCount s p st c len) := by
  unfold State.actCount
  extract_lets +onlyGivenNames x1
  clear_value x1
  exact Kept.ite (Kept.ite (State.addCnt_kept h) (State.chainAdd_kept (State.chainAdd_kept h))) (State.addCnt_kept
      (State.addCnt_kept h))

theorem State.ucGo_kept {p st bank fuel pc r} (h : Kept s₀ s) : Kept s₀ (State.ucGo s p st bank fuel pc r).2.2 := by
  unfold State.ucGo
  split
  · split
    · dsimp -zeta only
      exact State.ucParity_kept h
    · dsimp -zeta only
      exact h

theorem State.ucSeg_kept {p st bank d r} (h : Kept s₀ s) : Kept s₀ (State.ucSeg s p st bank d r).2 := by
  unfold State.ucSeg
  extract_lets +onlyGivenNames n1
  clear_value n1
  split
  · dsimp -zeta only
    exact h
  · split
    · rename_i x4 x5 x6 s7 e8
      dsimp -zeta only
      exact Kept.snd2 e8 (State.ucGo_kept h)

theorem State.ucTable_kept {p st bank t q r} (h : Kept s₀ s) : Kept s₀ (State.ucTable s p st bank t q r).2 := by
  unfold State.ucTable
  extract_lets +onlyGivenNames x1
  clear_value x1
  split
  · rename_i x2 x3 s4 e5
    split
    · refine State.ucSeg_kept ?_
      refine Kept.snd e5 ?_
      split
      · split
        · dsimp -zeta only
          exact h
        · dsimp -zeta only
          exact State.cause_kept (State.addCnt_kept h)
      · dsimp -zeta only
        exact h
    · dsimp -zeta only
      refine Kept.snd e5 ?_
      split
      · split
        · dsimp -zeta only
          exact h
        · dsimp -zeta only
          exact State.cause_kept (State.addCnt_kept h)
      · dsimp -zeta only
        exact h

theorem State.stageLookups_kept {p st v si hv m} (h : Kept s₀ s) : Kept s₀ (State.stageLookups s p st v si hv m).2 := by
  unfold State.stageLookups
  extract_lets +onlyGivenNames em1
  have h5 : ∀ a2 a3 a4, Kept s₀ a3.2 → Kept s₀ (em1 a2 a3 a4).2 := by
    intro a26 a37 a48 h9
    dsimp -zeta only [em1]
    split
    · dsimp -zeta only
      exact h9
    · dsimp -zeta only
      exact State.emLookup_kept h9
  clear_value em1
  extract_lets +onlyGivenNames tc15
  have h18 : ∀ a16 a17, Kept s₀ a16.2 → Kept s₀ (tc15 a16 a17).2 := by
    intro x19 x20 h21
    dsimp -zeta only [tc15]
    split
    · dsimp -zeta only
      exact h21
    · extract_lets +onlyGivenNames g27
      clear_value g27
      dsimp -zeta only
      exact State.tcLookup_kept h21
  clear_value tc15
  extract_lets +onlyGivenNames acc28
  have h29 : Kept s₀ acc28.2 := by
    dsimp -zeta only [acc28]
    refine Kept.foldl2 ?_ ?_
    · dsimp -zeta only
      exact h
    · intro a30 x31 h32
      exact h5 _ _ _ h32
  clear_value acc28
  extract_lets +onlyGivenNames acc33
  have h34 : Kept s₀ acc33.2 := by
    dsimp -zeta only [acc33]
    refine Kept.foldl2 h29 ?_
    intro a35 x36 h37
    exact h5 _ _ _ h37
  clear_value acc33
  refine Kept.foldl2 h34 ?_
  intro a38 x39 h40
  exact h18 _ _ h40

theorem State.stageRun_kept {p st k} (h : Kept s₀ s) : Kept s₀ (State.stageRun s p st k).2 := by
  unfold State.stageRun
  extract_lets +onlyGivenNames x1
  clear_value x1
  extract_lets +onlyGivenNames x2
  clear_value x2
  extract_lets +onlyGivenNames x3
  clear_value x3
  extract_lets +onlyGivenNames x4
  clear_value x4
  extract_lets +onlyGivenNames x5
  have h6 : ∀ a7 a8 a9, Kept s₀ a9 → Kept s₀ (x5 a7 a8 a9).2 := by
    intro x10 x11 s12 h13
    dsimp -zeta only [x5]
    extract_lets +onlyGivenNames s14
    have h15 : Kept s₀ s14 := by
      dsimp -zeta only [s14]
      refine Kept.foldl ?_ ?_
      · exact h13
      · intro s16 x17 h18
        exact State.actCount_kept h18
    clear_value s14
    extract_lets +onlyGivenNames s19
    have h20 : Kept s₀ s19 := by
      dsimp -zeta only [s19]
      split
      · rename_i x21 x22 e23
        exact State.learnRequest_kept h15
      · rename_i x24 e25
        exact h15
    clear_value s19
    exact h20
  clear_value x5
  split
  · rename_i e26
    exact h
  · rename_i x27
    split
    · rename_i e28
      split
      · rename_i x29 e30
        exact h
      · rename_i x31 x32 e33
        split
        · rename_i x34 x35 s36 e37
          exact h6 _ _ _ (Kept.snd e37 (State.ucSeg_kept h))
    · rename_i x38
      extract_lets +onlyGivenNames x39
      clear_value x39
      extract_lets +onlyGivenNames x40
      clear_value x40
      split
      · rename_i x41 x42 x43 s44 e45
        extract_lets +onlyGivenNames x46
        clear_value x46
        split
        · rename_i x47 x48 s49 e50
          split
          · rename_i x51 x52 s53 e54
            split
            · rename_i x55 x56 s57 e58
              refine h6 _ _ _ ?_
              refine Kept.snd e58 ?_
              refine Kept.foldl2 ?_ ?_
              · dsimp -zeta only
                refine Kept.snd e54 ?_
                split
                · rename_i x59 x60
                  split
                  · rename_i x61 x62 x63 s64 e65
                    dsimp -zeta only
                    refine Kept.snd2 e65 ?_
                    refine State.ucGo_kept ?_
                    refine Kept.snd e50 ?_
                    refine State.stageLookups_kept ?_
                    refine Kept.snd2 e45 ?_
                    split
                    · rename_i e66
                      exact h
                    · rename_i x67
                      exact State.ucGo_kept h
                · rename_i x68
                  dsimp -zeta only
                  refine Kept.snd e50 ?_
                  refine State.stageLookups_kept ?_
                  refine Kept.snd2 e45 ?_
                  split
                  · rename_i e69
                    exact h
                  · rename_i x70
                    exact State.ucGo_kept h
              · intro x71 x72 h73
                extract_lets +onlyGivenNames x74
                clear_value x74
                split
                · rename_i e75
                  exact State.ucTable_kept h73
                · rename_i x76
                  exact h73

theorem State.excAtExit_kept {p point k} (h : Kept s₀ s) : Kept s₀ (State.excAtExit s p point k).2 := by
  unfold State.excAtExit
  split
  · rename_i e1
    extract_lets +onlyGivenNames s2
    have h3 : Kept s₀ s2 := by
      dsimp -zeta only [s2]
      exact State.excOffer_kept h
    clear_value s2
    exact h3
  · rename_i x4
    exact h

theorem State.stageEnter_kept {p st} (h : Kept s₀ s) : Kept s₀ (State.stageEnter s p st) := by
  unfold State.stageEnter
  split
  · rename_i x1 e2
    exact h
  · rename_i x3 x4 x5 e6
    refine Kept.ite ?_ ?_
    · exact h
    · extract_lets +onlyGivenNames s7
      have h8 : Kept s₀ s7 := by
        dsimp -zeta only [s7]
        exact State.setWaiting_kept h
      clear_value s7
      extract_lets +onlyGivenNames x9
      clear_value x9
      split
      · rename_i x10 x11 s12 e13
        refine Kept.ite ?_ ?_
        · split
          · rename_i x14 x15 s16 e17
            exact State.berthLeave_kept (State.setWaiting_kept (Kept.snd e17 (State.excAtExit_kept (Kept.snd e13
                (State.stageRun_kept h8)))))
        · refine Kept.ite ?_ ?_
          · split
            · rename_i x18 x19 s20 e21
              exact State.setWaiting_kept (Kept.snd e21 (State.excAtExit_kept (Kept.snd e13 (State.stageRun_kept h8))))
          · exact State.setWaiting_kept (Kept.snd e13 (State.stageRun_kept h8))

theorem State.parserPass_kept {p} (h : Kept s₀ s) : Kept s₀ (State.parserPass s p) := by
  unfold State.parserPass
  extract_lets +onlyGivenNames x1
  clear_value x1
  extract_lets +onlyGivenNames x2
  clear_value x2
  extract_lets +onlyGivenNames s3
  have h4 : Kept s₀ s3 := by
    dsimp -zeta only [s3]
    exact State.setWaiting_kept h
  clear_value s3
  extract_lets +onlyGivenNames s5
  have h6 : Kept s₀ s5 := by
    dsimp -zeta only [s5]
    exact State.setWaiting_kept h4
  clear_value s5
  refine Kept.foldl ?_ ?_
  · exact h6
  · intro s7 x8 h9
    exact State.parserOut_kept h9

theorem State.tmEnter_kept {p} (h : Kept s₀ s) : Kept s₀ (State.tmEnter s p) := by
  unfold State.tmEnter
  extract_lets +onlyGivenNames x1
  clear_value x1
  extract_lets +onlyGivenNames x2
  clear_value x2
  extract_lets +onlyGivenNames s3
  have h4 : Kept s₀ s3 := by
    dsimp -zeta only [s3]
    exact State.setWaiting_kept h
  clear_value s3
  exact State.setWaiting_kept h4

theorem State.stagePass_kept {p st k} (h : Kept s₀ s) : Kept s₀ (State.stagePass s p st k) := by
  induction k generalizing s with
  | zero => exact h
  | succ k ih =>
    unfold State.stagePass
    split
    · exact h
    · exact Kept.ite (ih (State.stageEnter_kept h)) h

/-! ### Machine/Port.lean -/

theorem State.setPause_kept {n c e} (h : Kept s₀ s) : Kept s₀ (State.setPause s n c e) := by
  unfold State.setPause
  exact State.setPort_kept h

theorem State.pauseClass_kept {n q c} (h : Kept s₀ s) : Kept s₀ (State.pauseClass s n q c) := by
  unfold State.pauseClass
  exact Kept.ite (State.setPause_kept h) (State.setPause_kept h)

theorem State.pauseRelease_kept {n} (h : Kept s₀ s) : Kept s₀ (State.pauseRelease s n) := by
  unfold State.pauseRelease
  exact State.setPort_kept h

theorem State.rxPause_kept {n quanta} (h : Kept s₀ s) : Kept s₀ (State.rxPause s n quanta) := by
  unfold State.rxPause
  refine Kept.ite h ?_
  refine Kept.ite ?_ (State.addCnt_kept h)
  refine State.addCnt_kept ?_
  refine Kept.foldl h ?_
  intro s1 x2 h3
  exact State.pauseClass_kept h3

theorem State.rxPfc_kept {n vec quanta} (h : Kept s₀ s) : Kept s₀ (State.rxPfc s n vec quanta) := by
  unfold State.rxPfc
  refine Kept.ite h ?_
  extract_lets +onlyGivenNames x1
  clear_value x1
  refine Kept.ite ?_ (State.addCnt_kept h)
  refine State.addCnt_kept ?_
  refine Kept.foldl h ?_
  intro s2 x3 h4
  split
  · exact State.pauseClass_kept h4
  · exact h4

theorem State.rxMacCtrlOther_kept {n} (h : Kept s₀ s) : Kept s₀ (State.rxMacCtrlOther s n) := by
  unfold State.rxMacCtrlOther
  exact Kept.ite h (State.addCnt_kept h)

theorem State.pcsRx_kept {n o} (h : Kept s₀ s) : Kept s₀ (State.pcsRx s n o) := by
  unfold State.pcsRx
  refine Kept.ite ?_ ?_
  · exact h
  · extract_lets +onlyGivenNames s1
    have h2 : Kept s₀ s1 := by
      dsimp -zeta only [s1]
      refine Kept.ite ?_ ?_
      · refine Kept.foldl ?_ ?_
        · exact h
        · intro s3 x4 h5
          exact State.setLane_kept h5
      · exact h
    clear_value s1
    extract_lets +onlyGivenNames x6
    extract_lets +onlyGivenNames s7
    have h8 : Kept s₀ s7 := by
      dsimp -zeta only [s7]
      exact State.setPort_kept h2
    clear_value s7
    exact Kept.ite (State.setPort_kept h8) h8

theorem State.pcsDown_kept {n} (h : Kept s₀ s) : Kept s₀ (State.pcsDown s n) := by
  unfold State.pcsDown
  extract_lets +onlyGivenNames x1
  clear_value x1
  extract_lets +onlyGivenNames s2
  have h3 : Kept s₀ s2 := by
    dsimp -zeta only [s2]
    exact State.setPort_kept h
  clear_value s2
  refine Kept.foldl ?_ ?_
  · exact h3
  · intro s4 x5 h6
    exact State.setLane_kept h6

theorem State.onzMarker_kept {n brk} (h : Kept s₀ s) : Kept s₀ (State.onzMarker s n brk).1 := by
  unfold State.onzMarker
  extract_lets +onlyGivenNames x1
  clear_value x1
  split
  · rename_i x2 x3 x4 x5 x6 e7
    dsimp -zeta only
    exact State.setPort_kept h

theorem State.onzData_kept {n bits} (h : Kept s₀ s) : Kept s₀ (State.onzData s n bits).1 := by
  unfold State.onzData
  extract_lets +onlyGivenNames x1
  clear_value x1
  extract_lets +onlyGivenNames x2
  clear_value x2
  extract_lets +onlyGivenNames x3
  clear_value x3
  dsimp -zeta only
  exact State.setPort_kept h

theorem State.onzOut_kept {n syms k} (h : Kept s₀ s) : Kept s₀ (State.onzOut s n syms k) := by
  unfold State.onzOut
  extract_lets +onlyGivenNames x1
  extract_lets +onlyGivenNames s2
  have h3 : Kept s₀ s2 := by
    dsimp -zeta only [s2]
    exact State.setPort_kept h
  clear_value s2
  exact State.addCnt_kept (Kept.ite (State.emit_kept h3) h3)

theorem State.onzSendFrame_kept {n bytes} (h : Kept s₀ s) : Kept s₀ (State.onzSendFrame s n bytes) := by
  unfold State.onzSendFrame
  split
  · rename_i x1 s2 x3 x4 e5
    split
    · rename_i x6 s7 x8 x9 e10
      extract_lets +onlyGivenNames s11
      have h12 : Kept s₀ s11 := by
        dsimp -zeta only [s11]
        exact State.onzOut_kept (Kept.fst e10 (State.onzData_kept (Kept.fst e5 (State.onzMarker_kept h))))
      clear_value s11
      exact Kept.ite (State.addCnt_kept h12) h12

theorem State.onzSendIdle_kept {n} (h : Kept s₀ s) : Kept s₀ (State.onzSendIdle s n) := by
  unfold State.onzSendIdle
  split
  · rename_i x1 s2 x3 x4 e5
    exact State.onzOut_kept (Kept.fst e5 (State.onzMarker_kept h))

theorem State.onzGet_kept {n brk syms} (h : Kept s₀ s) : Kept s₀ (State.onzGet s n brk syms).2 := by
  unfold State.onzGet
  extract_lets +onlyGivenNames x1
  clear_value x1
  extract_lets +onlyGivenNames x2
  clear_value x2
  split
  · rename_i x3 x4 x5 e6
    dsimp -zeta only
    exact State.setPort_kept h

theorem State.setOnzState_kept {n v} (h : Kept s₀ s) : Kept s₀ (State.setOnzState s n v) := by
  unfold State.setOnzState
  exact State.setFld_kept h

theorem State.setOnz_kept {n o} (h : Kept s₀ s) : Kept s₀ (State.setOnz s n o) := by
  unfold State.setOnz
  exact State.setPort_kept h

theorem State.onzSeek_kept {n} (h : Kept s₀ s) : Kept s₀ (State.onzSeek s n) := by
  unfold State.onzSeek
  split
  · rename_i x1 x2 s3 e4
    extract_lets +onlyGivenNames s5
    have h6 : Kept s₀ s5 := by
      dsimp -zeta only [s5]
      exact State.setOnz_kept (Kept.snd e4 (State.freeWord_kept h))
    clear_value s5
    exact State.setFld_kept (State.setOnzState_kept h6)

theorem State.onzRestart_kept {n} (h : Kept s₀ s) : Kept s₀ (State.onzRestart s n) := by
  unfold State.onzRestart
  exact State.cause_kept (State.addCnt_kept (State.onzSeek_kept h))

theorem State.onzTryReady_kept {n} (h : Kept s₀ s) : Kept s₀ (State.onzTryReady s n) := by
  unfold State.onzTryReady
  extract_lets +onlyGivenNames x1
  clear_value x1
  exact Kept.ite (State.setOnz_kept (State.setOnzState_kept h)) h

theorem State.onzLead_kept {n} (h : Kept s₀ s) : Kept s₀ (State.onzLead s n) := by
  unfold State.onzLead
  extract_lets +onlyGivenNames x1
  clear_value x1
  exact Kept.ite (State.setOnz_kept (State.setOnzState_kept h)) h

theorem State.onzRequest_kept {n b} (h : Kept s₀ s) : Kept s₀ (State.onzRequest s n b) := by
  unfold State.onzRequest
  extract_lets +onlyGivenNames o1
  clear_value o1
  refine Kept.ite (State.setOnz_kept h) ?_
  refine Kept.ite h ?_
  refine Kept.ite (State.setOnz_kept (State.setWorkFir_kept h)) ?_
  extract_lets +onlyGivenNames t2
  clear_value t2
  extract_lets +onlyGivenNames v3
  clear_value v3
  exact Kept.ite (State.setOnz_kept h) (Kept.ite (State.setOnz_kept (State.setWorkFir_kept h)) (State.setOnz_kept h))

theorem State.onzResolve_kept {n pn} (h : Kept s₀ s) : Kept s₀ (State.onzResolve s n pn) := by
  unfold State.onzResolve
  extract_lets +onlyGivenNames o1
  clear_value o1
  refine Kept.ite (State.onzRestart_kept h) ?_
  extract_lets +onlyGivenNames s2
  have h3 : Kept s₀ s2 := by
    dsimp -zeta only [s2]
    exact State.setOnz_kept h
  clear_value s2
  exact State.setFld_kept (State.setOnzState_kept h3)

theorem State.onzAnswer_kept {n b} (h : Kept s₀ s) : Kept s₀ (State.onzAnswer s n b) := by
  unfold State.onzAnswer
  extract_lets +onlyGivenNames x1
  extract_lets +onlyGivenNames x2
  exact State.setOnz_kept h

theorem State.onzAsk_kept {n} (h : Kept s₀ s) : Kept s₀ (State.onzAsk s n) := by
  unfold State.onzAsk
  extract_lets +onlyGivenNames x1
  clear_value x1
  refine Kept.ite ?_ ?_
  · exact h
  · split
    · rename_i x2 x3 s4 e5
      split
      · rename_i x6 x7 s8 e9
        exact Kept.ite (State.setOnz_kept (Kept.snd e9 (State.freeWord_kept (Kept.snd e5 (State.freeBool_kept h)))))
            (Kept.snd e9 (State.freeWord_kept (Kept.snd e5 (State.freeBool_kept h))))

theorem State.onzBlockTx_kept {n} (h : Kept s₀ s) : Kept s₀ (State.onzBlockTx s n) := by
  unfold State.onzBlockTx
  extract_lets +onlyGivenNames s1
  have h2 : Kept s₀ s1 := by
    dsimp -zeta only [s1]
    exact State.onzAsk_kept h
  clear_value s1
  extract_lets +onlyGivenNames x3
  clear_value x3
  extract_lets +onlyGivenNames x4
  clear_value x4
  extract_lets +onlyGivenNames x5
  have h6 : Kept s₀ x5.2 := by
    dsimp -zeta only [x5]
    split
    · rename_i e7
      exact State.freeWord_kept h2
    · rename_i x8
      exact h2
  clear_value x5
  extract_lets +onlyGivenNames x9
  clear_value x9
  extract_lets +onlyGivenNames s10
  have h11 : Kept s₀ s10 := by
    dsimp -zeta only [s10]
    exact h6
  clear_value s10
  extract_lets +onlyGivenNames x12
  clear_value x12
  extract_lets +onlyGivenNames x13
  extract_lets +onlyGivenNames s14
  have h15 : Kept s₀ s14 := by
    dsimp -zeta only [s14]
    exact State.setPort_kept h11
  clear_value s14
  extract_lets +onlyGivenNames x16
  have h17 : Kept s₀ x16.1 := by
    dsimp -zeta only [x16]
    exact State.onzMarker_kept h15
  clear_value x16
  extract_lets +onlyGivenNames x18
  have h19 : Kept s₀ x18.1 := by
    dsimp -zeta only [x18]
    exact State.onzData_kept h17
  clear_value x18
  extract_lets +onlyGivenNames x20
  clear_value x20
  extract_lets +onlyGivenNames s21
  have h22 : Kept s₀ s21 := by
    dsimp -zeta only [s21]
    exact State.onzOut_kept h19
  clear_value s21
  extract_lets +onlyGivenNames s23
  have h24 : Kept s₀ s23 := by
    dsimp -zeta only [s23]
    exact State.setOnz_kept h22
  clear_value s23
  exact Kept.ite (State.setOnzState_kept h24) (Kept.ite (State.linePort_kept (State.onzSendIdle_kept
      (State.setOnzState_kept h24))) (State.onzLead_kept h24))

theorem State.onzBlockRx_kept {n payload} (h : Kept s₀ s) : Kept s₀ (State.onzBlockRx s n payload) := by
  unfold State.onzBlockRx
  extract_lets +onlyGivenNames x1
  clear_value x1
  refine Kept.ite ?_ ?_
  · exact h
  · refine Kept.ite ?_ ?_
    · exact State.setOnz_kept (State.addCnt_kept h)
    · extract_lets +onlyGivenNames x2
      clear_value x2
      extract_lets +onlyGivenNames x3
      clear_value x3
      extract_lets +onlyGivenNames x4
      clear_value x4
      refine Kept.ite ?_ ?_
      · exact State.onzRestart_kept h
      · refine Kept.ite ?_ ?_
        · exact Kept.ite (State.setOnz_kept h) (State.onzResolve_kept h)
        · refine Kept.ite ?_ ?_
          · exact Kept.ite (State.onzResolve_kept h) (State.onzRestart_kept h)
          · extract_lets +onlyGivenNames s5
            have h6 : Kept s₀ s5 := by
              dsimp -zeta only [s5]
              exact State.onzAnswer_kept (State.onzRequest_kept h)
            clear_value s5
            extract_lets +onlyGivenNames x7
            extract_lets +onlyGivenNames s8
            have h9 : Kept s₀ s8 := by
              dsimp -zeta only [s8]
              exact State.setOnz_kept h6
            clear_value s8
            extract_lets +onlyGivenNames s10
            have h11 : Kept s₀ s10 := by
              dsimp -zeta only [s10]
              exact State.onzTryReady_kept h9
            clear_value s10
            exact Kept.ite (State.setOnz_kept (State.setOnzState_kept h11)) (State.onzLead_kept h11)

theorem State.onzBlockSyms_kept {n syms} (h : Kept s₀ s) : Kept s₀ (State.onzBlockSyms s n syms) := by
  unfold State.onzBlockSyms
  split
  · rename_i x1 x2 s3 e4
    exact State.onzBlockRx_kept (Kept.snd e4 (State.onzGet_kept h))

theorem State.fwdFrame_kept {n bytes} (h : Kept s₀ s) : Kept s₀ (State.fwdFrame s n bytes) := by
  unfold State.fwdFrame
  extract_lets +onlyGivenNames x1
  clear_value x1
  exact State.setPort_kept h

theorem State.fwdBlocks_kept {n} (h : Kept s₀ s) : Kept s₀ (State.fwdBlocks s n) := by
  unfold State.fwdBlocks
  extract_lets +onlyGivenNames x1
  clear_value x1
  extract_lets +onlyGivenNames x2
  clear_value x2
  split
  · rename_i x3 x4 x5 e6
    extract_lets +onlyGivenNames s7
    have h8 : Kept s₀ s7 := by
      dsimp -zeta only [s7]
      exact State.setPort_kept h
    clear_value s7
    exact Kept.ite (State.emit_kept h8) h8

theorem State.alignTurn_kept {n} (h : Kept s₀ s) : Kept s₀ (State.alignTurn s n) := by
  unfold State.alignTurn
  extract_lets +onlyGivenNames x1
  clear_value x1
  extract_lets +onlyGivenNames x2
  clear_value x2
  refine Kept.ite ?_ ?_
  · exact h
  · extract_lets +onlyGivenNames s3
    have h4 : Kept s₀ s3 := by
      dsimp -zeta only [s3]
      exact State.setPort_kept h
    clear_value s3
    exact Kept.ite (State.fwdBlocks_kept h4) (Kept.ite (State.emit_kept h4) h4)

/-! ### Machine/Wb.lean -/

theorem State.setStrm_kept {n q} (h : Kept s₀ s) : Kept s₀ (State.setStrm s n q) := by
  unfold State.setStrm
  exact h.any

theorem State.wbGone_kept {n q} (h : Kept s₀ s) : Kept s₀ (State.wbGone s n q) := by
  unfold State.wbGone
  extract_lets +onlyGivenNames x1
  clear_value x1
  extract_lets +onlyGivenNames s2
  have h3 : Kept s₀ s2 := by
    dsimp -zeta only [s2]
    exact State.setStrm_kept h
  clear_value s2
  split
  · rename_i x4 x5 e6
    exact State.bpmRelease_kept h3
  · rename_i x7 e8
    exact h3

theorem State.sheetLose_kept {n num} (h : Kept s₀ s) : Kept s₀ (State.sheetLose s n num) := by
  unfold State.sheetLose
  split
  · rename_i x1 e2
    exact h
  · rename_i x3 x4 e5
    exact State.addCnt_kept (State.wbGone_kept h)

theorem State.setEng_kept {e n} (h : Kept s₀ s) : Kept s₀ (State.setEng s e n) := by
  unfold State.setEng
  exact Kept.any h

theorem State.engTake_kept {e} (h : Kept s₀ s) : Kept s₀ (State.engTake s e) := by
  unfold State.engTake
  refine Kept.ite ?_ ?_
  · exact h
  · refine Kept.ite ?_ ?_
    · exact State.setEng_kept h
    · split
      · rename_i x1 e2
        exact h
      · rename_i x3 x4 e5
        exact State.setEng_kept h
      · rename_i x6 x7 x8 x9 e10
        split
        · rename_i x11 x12 s13 e14
          exact State.setEng_kept (Kept.snd e14 (State.freeWord_kept h))

theorem State.engServe_kept (h : Kept s₀ s) : Kept s₀ (State.engServe s) := by
  unfold State.engServe
  exact State.engTake_kept (State.engTake_kept h)

theorem State.engDone_kept {n} (h : Kept s₀ s) : Kept s₀ (State.engDone s n) := by
  unfold State.engDone
  refine State.engServe_kept ?_
  refine Kept.foldl ?_ ?_
  · exact h
  · intro s1 x2 h3
    exact Kept.ite (State.setEng_kept h3) h3

theorem State.wbHashNow_kept {n} (h : Kept s₀ s) : Kept s₀ (State.wbHashNow s n) := by
  unfold State.wbHashNow
  split
  · rename_i x1 e2
    exact h
  · rename_i x3 x4 e5
    split
    · rename_i x6 s7 e8
      refine State.sheetLose_kept ?_
      refine Kept.snd e8 ?_
      unfold Option.elim
      split
      · rename_i x9 x10 x11 x12 e13
        dsimp -zeta only
        exact State.readBuf_kept h
      · rename_i x14 x15 x16 e17
        exact h
    · rename_i x18 s19 e20
      extract_lets +onlyGivenNames x21
      clear_value x21
      split
      · rename_i x22 x23 x24 e25
        extract_lets +onlyGivenNames s26
        have h27 : Kept s₀ s26 := by
          dsimp -zeta only [s26]
          refine State.setStrm_kept ?_
          refine Kept.snd e20 ?_
          unfold Option.elim
          split
          · rename_i x28 x29 x30 x31 e32
            dsimp -zeta only
            exact State.readBuf_kept h
          · rename_i x33 x34 x35 e36
            exact h
        clear_value s26
        split
        · rename_i x37 x38 e39
          exact State.setBufBytes_kept h27
        · rename_i x40 e41
          exact h27

theorem State.wbHash_kept {n} (h : Kept s₀ s) : Kept s₀ (State.wbHash s n) := by
  unfold State.wbHash
  exact Kept.ite (State.engDone_kept (State.wbHashNow_kept h)) h

theorem State.wbFenced_kept {n} (h : Kept s₀ s) : Kept s₀ (State.wbFenced s n) := by
  unfold State.wbFenced
  extract_lets +onlyGivenNames x1
  clear_value x1
  split
  · rename_i x2 e3
    exact h
  · rename_i x4 x5 e6
    split
    · rename_i x7 e8
      exact h
    · rename_i x9 x10 e11
      refine Kept.ite ?_ ?_
      · exact h
      · extract_lets +onlyGivenNames s12
        have h13 : Kept s₀ s12 := by
          dsimp -zeta only [s12]
          exact State.bpmRelease_kept (State.setStrm_kept h)
        clear_value s12
        exact Kept.ite h13 (State.addCnt_kept h13)

theorem State.wbOpen_kept {n first} (h : Kept s₀ s) : Kept s₀ (State.wbOpen s n first).2 := by
  unfold State.wbOpen
  split
  · dsimp -zeta only
    exact h
  · split
    · dsimp -zeta only
      exact State.setStrm_kept h
    · split
      · rename_i x5 e6 s7 e8
        dsimp -zeta only
        exact State.setStrm_kept (Kept.snd e8 (State.bpmAlloc_kept h))
      · rename_i x9 x10 s11 x12 e13
        dsimp -zeta only
        exact Kept.snd e13 (State.bpmAlloc_kept h)

theorem State.stallRise_kept {n was} (h : Kept s₀ s) : Kept s₀ (State.stallRise s n was) := by
  unfold State.stallRise
  exact Kept.ite h (Kept.ite (State.cause_kept h) (State.ariseF_kept h))

theorem State.setNoKey_kept {n b} (h : Kept s₀ s) : Kept s₀ (State.setNoKey s n b) := by
  unfold State.setNoKey
  exact State.setStrm_kept h

theorem State.noKeyRise_kept {n} (h : Kept s₀ s) : Kept s₀ (State.noKeyRise s n) := by
  unfold State.noKeyRise
  exact Kept.ite (State.cause_kept h) (State.ariseF_kept (State.setNoKey_kept h))

theorem State.noKeyEnd_kept (h : Kept s₀ s) : Kept s₀ (State.noKeyEnd s) := by
  unfold State.noKeyEnd
  refine Kept.foldl ?_ ?_
  · exact h
  · intro s1 x2 h3
    exact Kept.ite (State.setNoKey_kept h3) h3

theorem State.wbClose_kept {n code} (h : Kept s₀ s) : Kept s₀ (State.wbClose s n code) := by
  unfold State.wbClose
  extract_lets +onlyGivenNames x1
  clear_value x1
  split
  · rename_i x2 e3
    exact h
  · rename_i x4 x5 e6
    refine Kept.ite ?_ ?_
    · exact h
    · extract_lets +onlyGivenNames x7
      clear_value x7
      extract_lets +onlyGivenNames x8
      clear_value x8
      extract_lets +onlyGivenNames x9
      clear_value x9
      extract_lets +onlyGivenNames s10
      have h11 : Kept s₀ s10 := by
        dsimp -zeta only [s10]
        exact State.addCnt_kept (State.setStrm_kept h)
      clear_value s10
      extract_lets +onlyGivenNames s12
      have h13 : Kept s₀ s12 := by
        dsimp -zeta only [s12]
        exact Kept.ite h11 (State.noKeyRise_kept h11)
      clear_value s12
      exact State.engServe_kept (State.stallRise_kept h13)

theorem State.wbRoom_kept {n k first} (h : Kept s₀ s) : Kept s₀ (State.wbRoom s n k first).2 := by
  unfold State.wbRoom
  extract_lets +onlyGivenNames s1
  have h2 : Kept s₀ s1 := by
    dsimp -zeta only [s1]
    exact State.wbFenced_kept h
  clear_value s1
  split
  · rename_i x3 x4 e5
    split
    · rename_i x6
      exact h2
    · rename_i x7
      exact State.wbOpen_kept (State.wbClose_kept h2)
  · rename_i x8 e9
    exact State.wbOpen_kept h2

theorem State.wbPut_kept {n rec ts hold} (h : Kept s₀ s) : Kept s₀ (State.wbPut s n rec ts hold) := by
  unfold State.wbPut
  extract_lets +onlyGivenNames x1
  clear_value x1
  split
  · rename_i x2 e3
    exact h
  · rename_i x4 x5 e6
    extract_lets +onlyGivenNames x7
    clear_value x7
    extract_lets +onlyGivenNames x8
    clear_value x8
    extract_lets +onlyGivenNames x9
    clear_value x9
    extract_lets +onlyGivenNames s10
    have h11 : Kept s₀ s10 := by
      dsimp -zeta only [s10]
      exact State.setStrm_kept h
    clear_value s10
    exact Kept.ite (State.wbClose_kept h11) h11

theorem State.wbGaps_kept {n sq k} (h : Kept s₀ s) : Kept s₀ (State.wbGaps s n sq k).2 := by
  induction k generalizing s with
  | zero => exact h
  | succ k ih =>
    unfold State.wbGaps
    split
    · exact h
    · split
      · rename_i e; exact Kept.snd e (State.wbRoom_kept h)
      · rename_i e
        exact ih (State.cause_kept (State.addCnt_kept (State.wbPut_kept (State.setStrm_kept (Kept.snd e
            (State.wbRoom_kept h))))))

theorem State.wbLose_kept {n reason sq t hold} (h : Kept s₀ s) : Kept s₀ (State.wbLose s n reason sq t hold) := by
  unfold State.wbLose
  extract_lets +onlyGivenNames w1
  clear_value w1
  extract_lets +onlyGivenNames new2
  clear_value new2
  extract_lets +onlyGivenNames x3
  clear_value x3
  exact State.addCnt_kept (State.setStrm_kept h)

theorem State.wbRefill_kept {n} (h : Kept s₀ s) : Kept s₀ (State.wbRefill s n) := by
  unfold State.wbRefill
  exact State.setStrm_kept h

theorem State.wbPresent_kept {n mk t hold} (h : Kept s₀ s) : Kept s₀ (State.wbPresent s n mk t hold) := by
  unfold State.wbPresent
  extract_lets +onlyGivenNames x1
  clear_value x1
  extract_lets +onlyGivenNames x2
  extract_lets +onlyGivenNames s3
  have h4 : Kept s₀ s3 := by
    dsimp -zeta only [s3]
    exact State.setStrm_kept h
  clear_value s3
  extract_lets +onlyGivenNames s5
  have h6 : Kept s₀ s5 := by
    dsimp -zeta only [s5]
    exact State.wbRefill_kept h4
  clear_value s5
  refine Kept.ite ?_ ?_
  · exact State.wbLose_kept h6
  · refine Kept.ite ?_ ?_
    · exact State.wbLose_kept h6
    · extract_lets +onlyGivenNames x7
      extract_lets +onlyGivenNames s8
      have h9 : Kept s₀ s8 := by
        dsimp -zeta only [s8]
        exact Kept.ite h6 (State.setStrm_kept h6)
      clear_value s8
      split
      · rename_i x10 s11 e12
        exact State.wbLose_kept (Kept.snd e12 (State.wbGaps_kept h9))
      · rename_i x13 s14 e15
        extract_lets +onlyGivenNames x16
        clear_value x16
        split
        · rename_i x17 s18 e19
          exact State.wbLose_kept (Kept.snd e19 (State.wbRoom_kept (Kept.snd e15 (State.wbGaps_kept h9))))
        · rename_i x20 s21 e22
          refine State.addCnt_kept ?_
          refine Kept.foldl ?_ ?_
          · exact Kept.snd e22 (State.wbRoom_kept (Kept.snd e15 (State.wbGaps_kept h9)))
          · intro s23 x24 h25
            exact State.wbPut_kept h25

theorem State.wbTick_kept (h : Kept s₀ s) : Kept s₀ (State.wbTick s) := by
  unfold State.wbTick
  refine Kept.foldl ?_ ?_
  · exact Kept.any h
  · intro s1 x2 h3
    exact State.wbPresent_kept h3

theorem State.audit_kept {ev refused subj data} (h : Kept s₀ s) : Kept s₀ (State.audit s ev refused subj data) := by
  unfold State.audit
  extract_lets +onlyGivenNames x1
  clear_value x1
  extract_lets +onlyGivenNames r2
  clear_value r2
  extract_lets +onlyGivenNames t3
  clear_value t3
  exact State.wbPresent_kept h

theorem State.auditWrite_kept {refused subj addr old new} (h : Kept s₀ s) : Kept s₀ (State.auditWrite s refused subj addr
    old new) := by
  unfold State.auditWrite
  exact State.audit_kept h

theorem State.wbKeyWipe_kept (h : Kept s₀ s) : Kept s₀ (State.wbKeyWipe s) := by
  unfold State.wbKeyWipe
  refine Kept.foldl ?_ ?_
  · exact h
  · intro s1 x2 h3
    exact State.setReg_kept h3

theorem State.wbKeyDone_kept {res} (h : Kept s₀ s) : Kept s₀ (State.wbKeyDone s res) := by
  unfold State.wbKeyDone
  exact State.wbKeyWipe_kept (State.setFld_kept h)

theorem State.wbKeyLoad_kept (h : Kept s₀ s) : Kept s₀ (State.wbKeyLoad s) := by
  unfold State.wbKeyLoad
  extract_lets +onlyGivenNames x1
  clear_value x1
  extract_lets +onlyGivenNames x2
  clear_value x2
  extract_lets +onlyGivenNames x3
  clear_value x3
  extract_lets +onlyGivenNames x4
  clear_value x4
  extract_lets +onlyGivenNames x5
  clear_value x5
  extract_lets +onlyGivenNames x6
  have h7 : ∀ a8 a9, Kept s₀ a8 → Kept s₀ (x6 a8 a9) := by
    intro s10 x11 h12
    dsimp -zeta only [x6]
    exact State.audit_kept h12
  clear_value x6
  refine Kept.ite ?_ ?_
  · exact State.wbKeyDone_kept (h7 _ _ h)
  · refine Kept.ite ?_ ?_
    · exact State.wbKeyDone_kept (h7 _ _ h)
    · extract_lets +onlyGivenNames x13
      extract_lets +onlyGivenNames s14
      have h15 : Kept s₀ s14 := by
        dsimp -zeta only [s14]
        exact Kept.any h
      clear_value s14
      extract_lets +onlyGivenNames s16
      have h17 : Kept s₀ s16 := by
        dsimp -zeta only [s16]
        exact State.setFld_kept h15
      clear_value s16
      extract_lets +onlyGivenNames s18
      have h19 : Kept s₀ s18 := by
        dsimp -zeta only [s18]
        exact State.noKeyEnd_kept (State.setReg_kept h17)
      clear_value s18
      exact State.wbKeyDone_kept (h7 _ _ h19)

theorem State.wbKeyIdx_kept {n slot} (h : Kept s₀ s) : Kept s₀ (State.wbKeyIdx s n slot) := by
  unfold State.wbKeyIdx
  extract_lets +onlyGivenNames x1
  clear_value x1
  refine Kept.ite ?_ ?_
  · exact h
  · extract_lets +onlyGivenNames s2
    have h3 : Kept s₀ s2 := by
      dsimp -zeta only [s2]
      exact State.wbClose_kept h
    clear_value s2
    extract_lets +onlyGivenNames s4
    have h5 : Kept s₀ s4 := by
      dsimp -zeta only [s4]
      exact State.noKeyEnd_kept (State.setFld_kept h3)
    clear_value s4
    exact State.audit_kept h5

theorem State.wbRound_kept (h : Kept s₀ s) : Kept s₀ (State.wbRound s) := by
  unfold State.wbRound
  refine Kept.foldl h ?_
  intro s1 x2 h3
  split
  · exact h3
  · refine Kept.ite h3 ?_
    extract_lets +onlyGivenNames s9
    clear_value s9
    extract_lets +onlyGivenNames s10
    have h11 : Kept s₀ s10 := by
      dsimp -zeta only [s10]
      exact State.setStrm_kept h3
    clear_value s10
    extract_lets +onlyGivenNames lim12
    clear_value lim12
    exact Kept.ite (State.wbClose_kept h11) h11

theorem State.wbEngine_kept {e up} (h : Kept s₀ s) : Kept s₀ (State.wbEngine s e up) := by
  unfold State.wbEngine
  extract_lets +onlyGivenNames s1
  have h2 : Kept s₀ s1 := by
    dsimp -zeta only [s1]
    refine Kept.foldl ?_ ?_
    · exact h
    · intro s3 x4 h5
      exact State.wbRefill_kept h5
  clear_value s1
  extract_lets +onlyGivenNames x6
  clear_value x6
  extract_lets +onlyGivenNames x7
  clear_value x7
  extract_lets +onlyGivenNames s8
  have h9 : Kept s₀ s8 := by
    dsimp -zeta only [s8]
    exact State.setFld_kept h2
  clear_value s8
  extract_lets +onlyGivenNames s10
  have h11 : Kept s₀ s10 := by
    dsimp -zeta only [s10]
    exact State.engServe_kept (Kept.ite h9 (State.setEng_kept h9))
  clear_value s10
  refine Kept.ite ?_ ?_
  · refine Kept.ite ?_ ?_
    · exact h11
    · refine Kept.foldl ?_ ?_
      · exact h11
      · intro s12 x13 h14
        exact Kept.ite (State.wbGaps_kept h14) h14
  · exact Kept.ite (State.ariseF_kept h11) (State.cause_kept h11)

theorem State.wbExported_kept {n num} (h : Kept s₀ s) : Kept s₀ (State.wbExported s n num) := by
  unfold State.wbExported
  split
  · rename_i x1 e2
    exact h
  · rename_i x3 x4 e5
    exact State.addCnt_kept (State.wbGone_kept h)

theorem State.wbPlace_kept {n num p} (h : Kept s₀ s) : Kept s₀ (State.wbPlace s n num p) := by
  unfold State.wbPlace
  extract_lets +onlyGivenNames w1
  clear_value w1
  exact State.setStrm_kept h

theorem State.wbReqDrop_kept {n} (h : Kept s₀ s) : Kept s₀ (State.wbReqDrop s n) := by
  unfold State.wbReqDrop
  exact Kept.ite h (State.addCnt_kept h)

theorem State.wbReset_kept {n d} (h : Kept s₀ s) : Kept s₀ (State.wbReset s n d) := by
  unfold State.wbReset
  extract_lets +onlyGivenNames x1
  clear_value x1
  extract_lets +onlyGivenNames s2
  have h3 : Kept s₀ s2 := by
    dsimp -zeta only [s2]
    refine Kept.foldl ?_ ?_
    · exact h
    · intro s4 x5 h6
      exact State.wbHashNow_kept h6
  clear_value s2
  extract_lets +onlyGivenNames x7
  clear_value x7
  extract_lets +onlyGivenNames x8
  clear_value x8
  extract_lets +onlyGivenNames s9
  have h10 : Kept s₀ s9 := by
    dsimp -zeta only [s9]
    refine Kept.foldl ?_ ?_
    · exact h3
    · intro s11 x12 h13
      split
      · rename_i x14 x15 e16
        exact State.bpmRelease_kept h13
      · rename_i x17 e18
        exact h13
  clear_value s9
  extract_lets +onlyGivenNames s19
  have h20 : Kept s₀ s19 := by
    dsimp -zeta only [s19]
    split
    · rename_i x21 x22 e23
      split
      · rename_i x24 x25 e26
        exact State.bpmRelease_kept h10
      · rename_i x27 e28
        exact h10
    · rename_i x29 e30
      exact h10
  clear_value s19
  extract_lets +onlyGivenNames s31
  have h32 : Kept s₀ s31 := by
    dsimp -zeta only [s31]
    exact Kept.ite h20 (State.addCnt_kept h20)
  clear_value s31
  extract_lets +onlyGivenNames x33
  clear_value x33
  extract_lets +onlyGivenNames x34
  clear_value x34
  extract_lets +onlyGivenNames x35
  clear_value x35
  extract_lets +onlyGivenNames x36
  clear_value x36
  extract_lets +onlyGivenNames x37
  clear_value x37
  extract_lets +onlyGivenNames x38
  clear_value x38
  extract_lets +onlyGivenNames x39
  clear_value x39
  extract_lets +onlyGivenNames x40
  clear_value x40
  extract_lets +onlyGivenNames x41
  clear_value x41
  extract_lets +onlyGivenNames x42
  clear_value x42
  extract_lets +onlyGivenNames x43
  clear_value x43
  extract_lets +onlyGivenNames x44
  clear_value x44
  extract_lets +onlyGivenNames x45
  clear_value x45
  extract_lets +onlyGivenNames x46
  clear_value x46
  extract_lets +onlyGivenNames x47
  clear_value x47
  extract_lets +onlyGivenNames x48
  clear_value x48
  extract_lets +onlyGivenNames s49
  have h50 : Kept s₀ s49 := by
    dsimp -zeta only [s49]
    exact State.engDone_kept (State.setStrm_kept h32)
  clear_value s49
  refine Kept.ite ?_ ?_
  · exact h50
  · split
    · rename_i x51 s52 e53
      extract_lets +onlyGivenNames x54
      extract_lets +onlyGivenNames s55
      have h56 : Kept s₀ s55 := by
        dsimp -zeta only [s55]
        split
        · rename_i x57 x58 e59
          split
          · rename_i e60
            exact State.setStrm_kept (Kept.snd e53 (State.wbGaps_kept h50))
          · rename_i x61
            exact Kept.snd e53 (State.wbGaps_kept h50)
        · rename_i x62 e63
          exact Kept.snd e53 (State.wbGaps_kept h50)
      clear_value s55
      exact State.wbClose_kept h56
    · rename_i x64 s65 e66
      exact Kept.snd e66 (State.wbGaps_kept h50)

/-! ### Machine/Time.lean -/

theorem State.setTime_kept {t} (h : Kept s₀ s) : Kept s₀ (State.setTime s t) := by
  unfold State.setTime
  exact h.any

theorem State.timeCycle_kept (h : Kept s₀ s) : Kept s₀ (State.timeCycle s) := by
  unfold State.timeCycle
  extract_lets +onlyGivenNames t1
  clear_value t1
  exact State.setTime_kept h

theorem State.counterFault_kept {c0 c1} (h : Kept s₀ s) : Kept s₀ (State.counterFault s c0 c1) := by
  unfold State.counterFault
  extract_lets +onlyGivenNames s1
  have h2 : Kept s₀ s1 := by
    dsimp -zeta only [s1]
    exact State.timeMark_kept h
  clear_value s1
  extract_lets +onlyGivenNames s3
  have h4 : Kept s₀ s3 := by
    dsimp -zeta only [s3]
    exact State.setTime_kept h2
  clear_value s3
  refine Kept.ite ?_ ?_
  · exact State.setBit_kept h4
  · extract_lets +onlyGivenNames s5
    have h6 : Kept s₀ s5 := by
      dsimp -zeta only [s5]
      exact State.setBit_kept (State.setBit_kept h4)
    clear_value s5
    exact State.ariseF_kept h6

theorem State.setPps_kept {k p} (h : Kept s₀ s) : Kept s₀ (State.setPps s k p) := by
  unfold State.setPps
  exact State.setTime_kept h

theorem State.ppsShow_kept {before k} (h : Kept s₀ s) : Kept s₀ (State.ppsShow s before k) := by
  unfold State.ppsShow
  exact Kept.ite h (State.emit_kept h)

theorem State.timeBack_kept (h : Kept s₀ s) : Kept s₀ (State.timeBack s) := by
  unfold State.timeBack
  refine State.synceBack_kept ?_
  refine Kept.foldl ?_ ?_
  · exact h
  · intro s1 x2 h3
    exact State.emit_kept h3

theorem State.landsBack_kept (h : Kept s₀ s) : Kept s₀ (State.landsBack s) := by
  unfold State.landsBack
  exact Kept.ite (State.linesBack_kept h) (State.timeBack_kept (State.linesBack_kept h))

theorem State.ppsResume_kept {k t} (h : Kept s₀ s) : Kept s₀ (State.ppsResume s k t) := by
  unfold State.ppsResume
  extract_lets +onlyGivenNames p1
  clear_value p1
  exact State.setPps_kept h

theorem State.ppsRise_kept {k t} (h : Kept s₀ s) : Kept s₀ (State.ppsRise s k t) := by
  unfold State.ppsRise
  extract_lets +onlyGivenNames p1
  clear_value p1
  extract_lets +onlyGivenNames x2
  have h3 : Kept s₀ x2 := by
    dsimp -zeta only [x2]
    exact State.setPps_kept h
  clear_value x2
  extract_lets +onlyGivenNames x4
  have h5 : Kept s₀ x4 := by
    dsimp -zeta only [x4]
    exact State.setBit_kept h3
  clear_value x4
  exact State.ppsShow_kept (State.setFld_kept h5)

theorem State.ppsFall_kept {k} (h : Kept s₀ s) : Kept s₀ (State.ppsFall s k) := by
  unfold State.ppsFall
  extract_lets +onlyGivenNames x1
  clear_value x1
  extract_lets +onlyGivenNames x2
  clear_value x2
  extract_lets +onlyGivenNames s3
  have h4 : Kept s₀ s3 := by
    dsimp -zeta only [s3]
    exact State.setPps_kept h
  clear_value s3
  extract_lets +onlyGivenNames s5
  have h6 : Kept s₀ s5 := by
    dsimp -zeta only [s5]
    exact Kept.ite (State.setBit_kept h4) h4
  clear_value s5
  exact State.ppsShow_kept (Kept.ite (State.setFld_kept h6) h6)

theorem State.ppsDue_kept {k} (h : Kept s₀ s) : Kept s₀ (State.ppsDue s k) := by
  unfold State.ppsDue
  extract_lets +onlyGivenNames p1
  clear_value p1
  extract_lets +onlyGivenNames t2
  clear_value t2
  exact Kept.ite (State.cause_kept (State.addWrap32_kept (State.ppsRise_kept h))) (Kept.ite (State.ppsFall_kept h)
      (Kept.ite (State.ppsRise_kept h) h))

theorem State.ppsStep_kept {t0 t1 k} (h : Kept s₀ s) : Kept s₀ (State.ppsStep s t0 t1 k) := by
  unfold State.ppsStep
  extract_lets +onlyGivenNames x1
  clear_value x1
  extract_lets +onlyGivenNames x2
  clear_value x2
  extract_lets +onlyGivenNames x3
  clear_value x3
  extract_lets +onlyGivenNames x4
  clear_value x4
  extract_lets +onlyGivenNames x5
  clear_value x5
  extract_lets +onlyGivenNames s6
  have h7 : Kept s₀ s6 := by
    dsimp -zeta only [s6]
    exact State.setPps_kept h
  clear_value s6
  refine Kept.ite ?_ ?_
  · exact h7
  · extract_lets +onlyGivenNames s8
    have h9 : Kept s₀ s8 := by
      dsimp -zeta only [s8]
      exact State.cause_kept (State.addWrap32_kept h7)
    clear_value s8
    exact Kept.ite (State.setBit_kept (State.setFld_kept h9)) h9

theorem State.ppsTrim_kept {k} (h : Kept s₀ s) : Kept s₀ (State.ppsTrim s k) := by
  unfold State.ppsTrim
  exact Kept.ite (State.ppsRise_kept h) h

theorem State.ppsArm_kept {k} (h : Kept s₀ s) : Kept s₀ (State.ppsArm s k) := by
  unfold State.ppsArm
  refine Kept.ite ?_ ?_
  · exact State.cause_kept h
  · extract_lets +onlyGivenNames x1
    clear_value x1
    extract_lets +onlyGivenNames x2
    clear_value x2
    extract_lets +onlyGivenNames x3
    clear_value x3
    extract_lets +onlyGivenNames x4
    clear_value x4
    extract_lets +onlyGivenNames s5
    have h6 : Kept s₀ s5 := by
      dsimp -zeta only [s5]
      exact State.setBit_kept h
    clear_value s5
    extract_lets +onlyGivenNames x7
    clear_value x7
    extract_lets +onlyGivenNames x8
    clear_value x8
    extract_lets +onlyGivenNames x9
    clear_value x9
    extract_lets +onlyGivenNames s10
    have h11 : Kept s₀ s10 := by
      dsimp -zeta only [s10]
      exact State.setPps_kept h6
    clear_value s10
    extract_lets +onlyGivenNames s12
    have h13 : Kept s₀ s12 := by
      dsimp -zeta only [s12]
      exact State.addWrap32_kept (State.setFld_kept h11)
    clear_value s12
    extract_lets +onlyGivenNames s14
    have h15 : Kept s₀ s14 := by
      dsimp -zeta only [s14]
      exact Kept.ite (State.cause_kept h13) (State.setBit_kept (State.setFld_kept h11))
    clear_value s14
    exact State.ppsShow_kept h15

theorem State.ppsDisarm_kept {k} (h : Kept s₀ s) : Kept s₀ (State.ppsDisarm s k) := by
  unfold State.ppsDisarm
  extract_lets +onlyGivenNames x1
  clear_value x1
  extract_lets +onlyGivenNames s2
  have h3 : Kept s₀ s2 := by
    dsimp -zeta only [s2]
    exact State.setBit_kept h
  clear_value s2
  exact Kept.ite (State.setBit_kept (State.setPps_kept h3)) (State.setFld_kept (State.setPps_kept h3))

theorem State.ppsHalt_kept {k} (h : Kept s₀ s) : Kept s₀ (State.ppsHalt s k) := by
  unfold State.ppsHalt
  extract_lets +onlyGivenNames x1
  clear_value x1
  extract_lets +onlyGivenNames s2
  have h3 : Kept s₀ s2 := by
    dsimp -zeta only [s2]
    exact State.setPps_kept h
  clear_value s2
  exact Kept.ite (State.setFld_kept (State.setBit_kept h3)) h3

theorem State.ppsWrite_kept {fn k v} (h : Kept s₀ s) : Kept s₀ (State.ppsWrite s fn k v) := by
  unfold State.ppsWrite
  extract_lets +onlyGivenNames x1
  clear_value x1
  extract_lets +onlyGivenNames x2
  have h3 : ∀ a4 a5, Kept s₀ a4 → Kept s₀ (x2 a4 a5) := by
    intro s6 x7 h8
    dsimp -zeta only [x2]
    exact State.setFld_kept h8
  clear_value x2
  extract_lets +onlyGivenNames s9
  have h10 : Kept s₀ s9 := by
    dsimp -zeta only [s9]
    exact h3 _ _ (h3 _ _ (h3 _ _ h))
  clear_value s9
  extract_lets +onlyGivenNames s11
  have h12 : Kept s₀ s11 := by
    dsimp -zeta only [s11]
    exact Kept.ite (State.cause_kept h10) h10
  clear_value s11
  extract_lets +onlyGivenNames s13
  have h14 : Kept s₀ s13 := by
    dsimp -zeta only [s13]
    exact State.ppsResume_kept h12
  clear_value s13
  extract_lets +onlyGivenNames s15
  have h16 : Kept s₀ s15 := by
    dsimp -zeta only [s15]
    exact Kept.ite h12 (Kept.ite (State.ppsHalt_kept h14) h14)
  clear_value s15
  extract_lets +onlyGivenNames s17
  have h18 : Kept s₀ s17 := by
    dsimp -zeta only [s17]
    exact State.ppsShow_kept h16
  clear_value s17
  extract_lets +onlyGivenNames s19
  have h20 : Kept s₀ s19 := by
    dsimp -zeta only [s19]
    exact Kept.ite h18 (Kept.ite (State.busyWrite_kept h18) (State.ppsDisarm_kept h18))
  clear_value s19
  exact Kept.ite h20 (Kept.ite (State.busyWrite_kept h20) (State.ppsArm_kept h20))

theorem State.showSigma_kept (h : Kept s₀ s) : Kept s₀ (State.showSigma s) := by
  unfold State.showSigma
  extract_lets +onlyGivenNames v1
  clear_value v1
  extract_lets +onlyGivenNames r2
  clear_value r2
  exact State.setReg_kept h

theorem State.stepped_kept {before} (h : Kept s₀ s) : Kept s₀ (State.stepped s before) := by
  unfold State.stepped
  extract_lets +onlyGivenNames d1
  clear_value d1
  extract_lets +onlyGivenNames s2
  clear_value s2
  extract_lets +onlyGivenNames s3
  have h4 : Kept s₀ s3 := by
    dsimp -zeta only [s3]
    exact State.showSigma_kept (State.setTime_kept h)
  clear_value s3
  extract_lets +onlyGivenNames s5
  have h6 : Kept s₀ s5 := by
    dsimp -zeta only [s5]
    exact State.cause_kept (State.addWrap32_kept h4)
  clear_value s5
  extract_lets +onlyGivenNames s7
  have h8 : Kept s₀ s7 := by
    dsimp -zeta only [s7]
    refine Kept.foldl h6 ?_
    intro s9 x10 h11
    exact State.ppsStep_kept h11
  clear_value s7
  exact State.audit_kept h8

theorem State.timeMove_kept {a} (h : Kept s₀ s) : Kept s₀ (State.timeMove s a) := by
  unfold State.timeMove
  extract_lets +onlyGivenNames s1
  have h2 : Kept s₀ s1 := by
    dsimp -zeta only [s1]
    exact State.timeMark_kept h
  clear_value s1
  exact State.setTime_kept h2

theorem State.timeStep_kept {a} (h : Kept s₀ s) : Kept s₀ (State.timeStep s a) := by
  unfold State.timeStep
  exact State.stepped_kept (State.timeMove_kept h)

theorem State.servoRestart_kept (h : Kept s₀ s) : Kept s₀ (State.servoRestart s) := by
  unfold State.servoRestart
  extract_lets +onlyGivenNames x1
  clear_value x1
  exact State.setBit_kept (State.setTime_kept h)

theorem State.timeLoad_kept {v} (h : Kept s₀ s) : Kept s₀ (State.timeLoad s v) := by
  unfold State.timeLoad
  extract_lets +onlyGivenNames s1
  have h2 : Kept s₀ s1 := by
    dsimp -zeta only [s1]
    exact State.timeMark_kept h
  clear_value s1
  extract_lets +onlyGivenNames x3
  clear_value x3
  extract_lets +onlyGivenNames s4
  have h5 : Kept s₀ s4 := by
    dsimp -zeta only [s4]
    exact State.setTime_kept h2
  clear_value s4
  extract_lets +onlyGivenNames s6
  have h7 : Kept s₀ s6 := by
    dsimp -zeta only [s6]
    exact State.setBit_kept (State.setBit_kept h5)
  clear_value s6
  exact State.servoRestart_kept (State.stepped_kept h7)

theorem State.setResult_kept {r} (h : Kept s₀ s) : Kept s₀ (State.setResult s r) := by
  unfold State.setResult
  exact State.setFld_kept h

theorem State.timeSetGo_kept (h : Kept s₀ s) : Kept s₀ (State.timeSetGo s) := by
  unfold State.timeSetGo
  exact Kept.ite (State.setResult_kept h) (Kept.ite (State.setBit_kept (State.setResult_kept h)) (State.setResult_kept
      (State.timeLoad_kept h)))

theorem State.timeSetAt_kept {age} (h : Kept s₀ s) : Kept s₀ (State.timeSetAt s age) := by
  unfold State.timeSetAt
  extract_lets +onlyGivenNames x1
  clear_value x1
  exact Kept.ite h (Kept.ite (State.setTime_kept h) (State.setBit_kept (State.setResult_kept (State.timeLoad_kept h))))

theorem State.timeSetTurn_kept (h : Kept s₀ s) : Kept s₀ (State.timeSetTurn s) := by
  unfold State.timeSetTurn
  split
  · rename_i x1 e2
    exact h
  · rename_i x3 x4 e5
    extract_lets +onlyGivenNames x6
    extract_lets +onlyGivenNames s7
    have h8 : Kept s₀ s7 := by
      dsimp -zeta only [s7]
      exact State.setTime_kept h
    clear_value s7
    exact State.setBit_kept (State.setResult_kept (State.timeLoad_kept h8))

theorem State.timeSetTimeout_kept (h : Kept s₀ s) : Kept s₀ (State.timeSetTimeout s) := by
  unfold State.timeSetTimeout
  exact Kept.ite (State.setBit_kept (State.setResult_kept h)) h

theorem State.srcBusy_kept (h : Kept s₀ s) : Kept s₀ (State.srcBusy s) := by
  unfold State.srcBusy
  exact State.cause_kept h

theorem State.timeAdjGo_kept (h : Kept s₀ s) : Kept s₀ (State.timeAdjGo s) := by
  unfold State.timeAdjGo
  extract_lets +onlyGivenNames a1
  clear_value a1
  extract_lets +onlyGivenNames res2
  have h5 : ∀ a3 a4, Kept s₀ a3 → Kept s₀ (res2 a3 a4) := by
    intro s6 a47 h8
    dsimp -zeta only [res2]
    exact State.setFld_kept h8
  clear_value res2
  refine Kept.ite (h5 _ _ (State.srcBusy_kept h)) ?_
  refine Kept.ite (h5 _ _ h) ?_
  extract_lets +onlyGivenNames thr9
  clear_value thr9
  extract_lets +onlyGivenNames sum10
  clear_value sum10
  refine Kept.ite ?_ (h5 _ _ (State.timeStep_kept h))
  extract_lets +onlyGivenNames s11
  have h12 : Kept s₀ s11 := by
    dsimp -zeta only [s11]
    exact State.timeMove_kept h
  clear_value s11
  extract_lets +onlyGivenNames s13
  clear_value s13
  extract_lets +onlyGivenNames s14
  have h15 : Kept s₀ s14 := by
    dsimp -zeta only [s14]
    exact State.showSigma_kept (State.setTime_kept h12)
  clear_value s14
  extract_lets +onlyGivenNames s16
  have h17 : Kept s₀ s16 := by
    dsimp -zeta only [s16]
    exact State.addWrap32_kept h15
  clear_value s16
  refine h5 _ _ ?_
  refine Kept.foldl h17 ?_
  intro s18 x19 h20
  exact State.ppsTrim_kept h20

theorem State.setAdj_kept {v} (h : Kept s₀ s) : Kept s₀ (State.setAdj s v) := by
  unfold State.setAdj
  exact State.setReg_kept (State.timeMark_kept h)

theorem State.timeFreqWrite_kept {v} (h : Kept s₀ s) : Kept s₀ (State.timeFreqWrite s v) := by
  unfold State.timeFreqWrite
  exact Kept.ite (State.srcBusy_kept h) (State.setAdj_kept h)

theorem State.servoError_kept {e} (h : Kept s₀ s) : Kept s₀ (State.servoError s e) := by
  unfold State.servoError
  extract_lets +onlyGivenNames x1
  clear_value x1
  extract_lets +onlyGivenNames x2
  clear_value x2
  extract_lets +onlyGivenNames was3
  clear_value was3
  extract_lets +onlyGivenNames x4
  clear_value x4
  extract_lets +onlyGivenNames s5
  clear_value s5
  extract_lets +onlyGivenNames s6
  have h7 : Kept s₀ s6 := by
    dsimp -zeta only [s6]
    exact State.setTime_kept h
  clear_value s6
  extract_lets +onlyGivenNames s8
  have h9 : Kept s₀ s8 := by
    dsimp -zeta only [s8]
    exact State.setBit_kept h7
  clear_value s8
  exact State.setReg_kept h9

theorem State.holdoverEnd_kept (h : Kept s₀ s) : Kept s₀ (State.holdoverEnd s) := by
  unfold State.holdoverEnd
  refine Kept.ite ?_ h
  extract_lets +onlyGivenNames s1
  clear_value s1
  extract_lets +onlyGivenNames s2
  have h3 : Kept s₀ s2 := by
    dsimp -zeta only [s2]
    exact State.setTime_kept h
  clear_value s2
  exact Kept.ite (State.audit_kept (State.setBit_kept h3)) h3

theorem State.servoLoop_kept (h : Kept s₀ s) : Kept s₀ (State.servoLoop s) := by
  unfold State.servoLoop
  split
  · rename_i x1 x2 s3 e4
    extract_lets +onlyGivenNames s5
    have h6 : Kept s₀ s5 := by
      dsimp -zeta only [s5]
      exact State.setAdj_kept (Kept.snd e4 (State.freeWord_kept h))
    clear_value s5
    exact Kept.ite (State.setTime_kept h6) h6

theorem State.refIn_kept {age} (h : Kept s₀ s) : Kept s₀ (State.refIn s age) := by
  unfold State.refIn
  refine Kept.ite ?_ ?_
  · exact h
  · extract_lets +onlyGivenNames x1
    clear_value x1
    extract_lets +onlyGivenNames s2
    have h3 : Kept s₀ s2 := by
      dsimp -zeta only [s2]
      exact State.servoError_kept h
    clear_value s2
    exact State.setTime_kept h3

theorem State.servoCorrect_kept (h : Kept s₀ s) : Kept s₀ (State.servoCorrect s) := by
  unfold State.servoCorrect
  split
  · rename_i x1 e2
    exact h
  · rename_i x3 x4 e5
    extract_lets +onlyGivenNames x6
    clear_value x6
    extract_lets +onlyGivenNames s7
    have h8 : Kept s₀ s7 := by
      dsimp -zeta only [s7]
      exact State.setTime_kept h
    clear_value s7
    extract_lets +onlyGivenNames s9
    have h10 : Kept s₀ s9 := by
      dsimp -zeta only [s9]
      exact Kept.ite (State.timeLoad_kept h8) (Kept.ite (State.timeStep_kept h8) (State.servoLoop_kept h8))
    clear_value s9
    exact State.holdoverEnd_kept h10

theorem State.ppsIn_kept {age} (h : Kept s₀ s) : Kept s₀ (State.ppsIn s age) := by
  unfold State.ppsIn
  refine Kept.ite (State.timeSetAt_kept h) ?_
  refine Kept.ite h ?_
  extract_lets +onlyGivenNames e1
  clear_value e1
  refine Kept.ite ?_ (State.servoError_kept h)
  extract_lets +onlyGivenNames s2
  have h3 : Kept s₀ s2 := by
    dsimp -zeta only [s2]
    exact State.cause_kept (State.addWrap32_kept h)
  clear_value s2
  exact Kept.ite (State.setTime_kept h3) (State.holdoverEnd_kept (State.timeStep_kept (State.setTime_kept h3)))

theorem State.sourceLoss_kept (h : Kept s₀ s) : Kept s₀ (State.sourceLoss s) := by
  unfold State.sourceLoss
  refine Kept.ite ?_ ?_
  · exact h
  · extract_lets +onlyGivenNames x1
    clear_value x1
    extract_lets +onlyGivenNames x2
    clear_value x2
    extract_lets +onlyGivenNames x3
    extract_lets +onlyGivenNames s4
    have h5 : Kept s₀ s4 := by
      dsimp -zeta only [s4]
      exact State.setTime_kept h
    clear_value s4
    extract_lets +onlyGivenNames s6
    have h7 : Kept s₀ s6 := by
      dsimp -zeta only [s6]
      exact State.ariseF_kept h5
    clear_value s6
    refine Kept.ite ?_ ?_
    · extract_lets +onlyGivenNames s8
      have h9 : Kept s₀ s8 := by
        dsimp -zeta only [s8]
        exact State.setAdj_kept h7
      clear_value s8
      extract_lets +onlyGivenNames s10
      have h11 : Kept s₀ s10 := by
        dsimp -zeta only [s10]
        exact State.ariseF_kept (State.setBit_kept h9)
      clear_value s10
      exact State.audit_kept h11
    · exact h7

theorem State.sourceBack_kept (h : Kept s₀ s) : Kept s₀ (State.sourceBack s) := by
  unfold State.sourceBack
  refine Kept.ite ?_ ?_
  · exact h
  · extract_lets +onlyGivenNames x1
    clear_value x1
    exact State.setTime_kept h

theorem State.tlSelect_kept (h : Kept s₀ s) : Kept s₀ (State.tlSelect s) := by
  unfold State.tlSelect
  extract_lets +onlyGivenNames x1
  clear_value x1
  extract_lets +onlyGivenNames x2
  clear_value x2
  extract_lets +onlyGivenNames s3
  have h4 : Kept s₀ s3 := by
    dsimp -zeta only [s3]
    exact State.setBit_kept h
  clear_value s3
  extract_lets +onlyGivenNames s5
  have h6 : Kept s₀ s5 := by
    dsimp -zeta only [s5]
    exact State.setFld_kept h4
  clear_value s5
  extract_lets +onlyGivenNames s7
  have h8 : Kept s₀ s7 := by
    dsimp -zeta only [s7]
    refine Kept.foldl ?_ ?_
    · exact h6
    · intro s9 x10 h11
      exact State.setBit_kept h11
  clear_value s7
  extract_lets +onlyGivenNames s12
  have h13 : Kept s₀ s12 := by
    dsimp -zeta only [s12]
    exact Kept.ite h8 (State.cause_kept h8)
  clear_value s12
  exact Kept.ite h13 (Kept.ite (State.sourceLoss_kept (Kept.ite h13 (State.ariseF_kept h13))) h13)

theorem State.timeSrcWrite_kept {v} (h : Kept s₀ s) : Kept s₀ (State.timeSrcWrite s v) := by
  unfold State.timeSrcWrite
  extract_lets +onlyGivenNames x1
  clear_value x1
  extract_lets +onlyGivenNames x2
  clear_value x2
  extract_lets +onlyGivenNames s3
  have h4 : Kept s₀ s3 := by
    dsimp -zeta only [s3]
    exact State.setFld_kept h
  clear_value s3
  extract_lets +onlyGivenNames s5
  have h6 : Kept s₀ s5 := by
    dsimp -zeta only [s5]
    exact State.setFld_kept h4
  clear_value s5
  extract_lets +onlyGivenNames s7
  have h8 : Kept s₀ s7 := by
    dsimp -zeta only [s7]
    exact Kept.ite (State.srcBusy_kept h6) h6
  clear_value s7
  refine Kept.ite ?_ ?_
  · exact h8
  · extract_lets +onlyGivenNames s9
    have h10 : Kept s₀ s9 := by
      dsimp -zeta only [s9]
      exact State.setFld_kept h8
    clear_value s9
    extract_lets +onlyGivenNames s11
    have h12 : Kept s₀ s11 := by
      dsimp -zeta only [s11]
      exact State.setFld_kept h10
    clear_value s11
    extract_lets +onlyGivenNames s13
    have h14 : Kept s₀ s13 := by
      dsimp -zeta only [s13]
      exact State.setBit_kept (State.timeMark_kept (State.servoRestart_kept h12))
    clear_value s13
    extract_lets +onlyGivenNames x15
    extract_lets +onlyGivenNames s16
    have h17 : Kept s₀ s16 := by
      dsimp -zeta only [s16]
      exact State.setTime_kept h14
    clear_value s16
    extract_lets +onlyGivenNames s18
    have h19 : Kept s₀ s18 := by
      dsimp -zeta only [s18]
      exact State.audit_kept h17
    clear_value s18
    exact State.tlSelect_kept h19

theorem State.tlExpire_kept {k} (h : Kept s₀ s) : Kept s₀ (State.tlExpire s k) := by
  unfold State.tlExpire
  exact Kept.ite (State.tlSelect_kept (State.setBit_kept h)) h

theorem State.setEvt_kept {k e} (h : Kept s₀ s) : Kept s₀ (State.setEvt s k e) := by
  unfold State.setEvt
  exact State.setTime_kept h

theorem State.evtEdge_kept {k fall age} (h : Kept s₀ s) : Kept s₀ (State.evtEdge s k fall age) := by
  unfold State.evtEdge
  extract_lets +onlyGivenNames x1
  clear_value x1
  extract_lets +onlyGivenNames x2
  clear_value x2
  extract_lets +onlyGivenNames x3
  clear_value x3
  refine Kept.ite ?_ ?_
  · exact h
  · refine Kept.ite ?_ ?_
    · exact State.addWrap32_kept h
    · refine Kept.ite ?_ ?_
      · exact State.cause_kept (State.addWrap32_kept (State.setEvt_kept h))
      · extract_lets +onlyGivenNames x4
        clear_value x4
        exact State.setEvt_kept h

theorem State.evtPop_kept {k} (h : Kept s₀ s) : Kept s₀ (State.evtPop s k) := by
  unfold State.evtPop
  exact State.setEvt_kept h

theorem State.timeNsRead_kept {rq} (h : Kept s₀ s) : Kept s₀ (State.timeNsRead s rq).2 := by
  unfold State.timeNsRead
  extract_lets +onlyGivenNames v1
  clear_value v1
  dsimp -zeta only
  exact State.setTime_kept h

end Sys2Proof.Machine
end

