-- ==== Sys2Proof/Laws/KeptC.lean ====
section
/-! SUPPORT. What every operation of Machine/ (Ts, Tm, Export, Cnt, OstCore) keeps: one lemma for each, which the lemmas about its callers cite. -/

namespace Sys2Proof.Machine

variable {s₀ s : State}

/-! ### Machine/Ts.lean -/

theorem State.rxCompMark_kept {n old} (h : Kept s₀ s) : Kept s₀ (State.rxCompMark s n old) := by
  unfold State.rxCompMark
  exact Kept.ite h (Kept.any h)

theorem State.p2pMark_kept {n old} (h : Kept s₀ s) : Kept s₀ (State.p2pMark s n old) := by
  unfold State.p2pMark
  exact Kept.ite h (Kept.any h)

theorem State.belowCheck_kept {before} (h : Kept s₀ s) : Kept s₀ (State.belowCheck s before) := by
  unfold State.belowCheck
  refine Kept.foldl h ?_
  intro s1 x2 h3
  exact Kept.ite (State.ariseF_kept h3) h3

theorem State.setLateQ_kept {n q} (h : Kept s₀ s) : Kept s₀ (State.setLateQ s n q) := by
  unfold State.setLateQ
  exact h.any

theorem State.ttSent_kept {e iport reason amt d} (h : Kept s₀ s) : Kept s₀ (State.ttSent s e iport reason amt d) := by
  unfold State.ttSent
  extract_lets +onlyGivenNames n1
  clear_value n1
  extract_lets +onlyGivenNames s2
  have h3 : Kept s₀ s2 := by
    dsimp -zeta only [s2]
    exact State.addCnt_kept h
  clear_value s2
  refine Kept.ite h3 ?_
  extract_lets +onlyGivenNames s4
  have h5 : Kept s₀ s4 := by
    dsimp -zeta only [s4]
    exact State.addCnt_kept (State.addCnt_kept h3)
  clear_value s4
  extract_lets +onlyGivenNames amt6
  clear_value amt6
  extract_lets +onlyGivenNames s7
  have h8 : Kept s₀ s7 := by
    dsimp -zeta only [s7]
    exact Kept.ite (State.setReg_kept h5) h5
  clear_value s7
  extract_lets +onlyGivenNames s9
  have h10 : Kept s₀ s9 := by
    dsimp -zeta only [s9]
    exact State.cause_kept h8
  clear_value s9
  exact Kept.ite (State.cause_kept (State.addCnt_kept h10)) (State.setLateQ_kept h10)

theorem State.latePop_kept {n} (h : Kept s₀ s) : Kept s₀ (State.latePop s n) := by
  unfold State.latePop
  exact State.setLateQ_kept h

theorem State.setTxq_kept {n q} (h : Kept s₀ s) : Kept s₀ (State.setTxq s n q) := by
  unfold State.setTxq
  exact h.any

theorem State.txqPush_kept {n r} (h : Kept s₀ s) : Kept s₀ (State.txqPush s n r) := by
  unfold State.txqPush
  exact Kept.ite (State.cause_kept (State.addCnt_kept h)) (State.addCnt_kept (State.setTxq_kept h))

theorem State.txqPop_kept {n} (h : Kept s₀ s) : Kept s₀ (State.txqPop s n) := by
  unfold State.txqPop
  exact State.setTxq_kept h

theorem State.setCal_kept {n c} (h : Kept s₀ s) : Kept s₀ (State.setCal s n c) := by
  unfold State.setCal
  exact h.any

theorem State.calResult_kept {n r} (h : Kept s₀ s) : Kept s₀ (State.calResult s n r) := by
  unfold State.calResult
  exact State.setFld_kept h

theorem State.calGo_kept {n} (h : Kept s₀ s) : Kept s₀ (State.calGo s n) := by
  unfold State.calGo
  exact Kept.ite (State.setCal_kept (State.setBit_kept (State.calResult_kept h))) (State.calResult_kept h)

theorem State.calEnd_kept {n r} (h : Kept s₀ s) : Kept s₀ (State.calEnd s n r) := by
  unfold State.calEnd
  extract_lets +onlyGivenNames s1
  have h2 : Kept s₀ s1 := by
    dsimp -zeta only [s1]
    exact State.setBit_kept (State.calResult_kept (State.setCal_kept h))
  clear_value s1
  exact Kept.ite (State.cause_kept h2) h2

theorem State.calAbort_kept {n} (h : Kept s₀ s) : Kept s₀ (State.calAbort s n) := by
  unfold State.calAbort
  exact Kept.ite (State.calEnd_kept h) h

theorem State.calDone_kept {n} (h : Kept s₀ s) : Kept s₀ (State.calDone s n) := by
  unfold State.calDone
  split
  · exact h
  · refine Kept.ite h ?_
    extract_lets +onlyGivenNames x6
    clear_value x6
    extract_lets +onlyGivenNames s7
    have h8 : Kept s₀ s7 := by
      dsimp -zeta only [s7]
      exact State.setReg_kept h
    clear_value s7
    extract_lets +onlyGivenNames s9
    have h10 : Kept s₀ s9 := by
      dsimp -zeta only [s9]
      exact State.setReg_kept h8
    clear_value s9
    exact State.calEnd_kept h10

theorem State.calReturn_kept {n q age} (h : Kept s₀ s) : Kept s₀ (State.calReturn s n q age) := by
  unfold State.calReturn
  split
  · rename_i x1 e2
    exact State.addWrap32_kept h
  · rename_i x3 x4 e5
    split
    · rename_i x6 e7
      exact h
    · rename_i x8 x9 x10 x11 e12
      extract_lets +onlyGivenNames x13
      clear_value x13
      extract_lets +onlyGivenNames x14
      clear_value x14
      extract_lets +onlyGivenNames x15
      clear_value x15
      exact Kept.ite (State.setCal_kept h) (State.setCal_kept h)

/-! ### Machine/Tm.lean -/

theorem State.setPtm_kept {n q} (h : Kept s₀ s) : Kept s₀ (State.setPtm s n q) := by
  unfold State.setPtm
  exact h.any

theorem State.setTmq_kept {n c q} (h : Kept s₀ s) : Kept s₀ (State.setTmq s n c q) := by
  unfold State.setTmq
  exact h.any

theorem State.setLive_kept {n b} (h : Kept s₀ s) : Kept s₀ (State.setLive s n b) := by
  unfold State.setLive
  exact State.setBit_kept h

theorem State.ctlPush_kept {n c} (h : Kept s₀ s) : Kept s₀ (State.ctlPush s n c) := by
  unfold State.ctlPush
  exact Kept.ite h (State.setPtm_kept h)

theorem State.fcEval_kept {n} (h : Kept s₀ s) : Kept s₀ (State.fcEval s n) := by
  unfold State.fcEval
  extract_lets +onlyGivenNames old1
  clear_value old1
  extract_lets +onlyGivenNames new2
  clear_value new2
  refine Kept.ite h ?_
  extract_lets +onlyGivenNames s3
  have h4 : Kept s₀ s3 := by
    dsimp -zeta only [s3]
    exact State.setReg_kept h
  clear_value s3
  extract_lets +onlyGivenNames s5
  clear_value s5
  extract_lets +onlyGivenNames s6
  have h7 : Kept s₀ s6 := by
    dsimp -zeta only [s6]
    exact State.setPtm_kept h4
  clear_value s6
  exact State.ctlPush_kept h7

theorem State.fcRefresh_kept {n} (h : Kept s₀ s) : Kept s₀ (State.fcRefresh s n) := by
  unfold State.fcRefresh
  exact Kept.ite h (State.ctlPush_kept h)

theorem State.occAdd_kept {n c k} (h : Kept s₀ s) : Kept s₀ (State.occAdd s n c k) := by
  unfold State.occAdd
  exact State.fcEval_kept h.any

theorem State.occSub_kept {n c k} (h : Kept s₀ s) : Kept s₀ (State.occSub s n c k) := by
  unfold State.occSub
  exact State.fcEval_kept h.any

theorem State.mcDone_kept {h'} (h : Kept s₀ s) : Kept s₀ (State.mcDone s h') := by
  unfold State.mcDone
  split
  · exact h
  · extract_lets +onlyGivenNames put6
    have h9 : ∀ a7 a8, Kept s₀ a7 → Kept s₀ (put6 a7 a8) := by
      intro s10 a811 h12
      dsimp -zeta only [put6]
      exact h12.any
    clear_value put6
    refine Kept.ite (h9 _ _ h) ?_
    extract_lets +onlyGivenNames s13
    have h14 : Kept s₀ s13 := by
      dsimp -zeta only [s13]
      exact State.bpmRelease_kept (h9 _ _ h)
    clear_value s13
    exact Kept.ite (State.occSub_kept h14) h14

theorem State.pktGone_kept {k sent} (h : Kept s₀ s) : Kept s₀ (State.pktGone s k sent) := by
  unfold State.pktGone
  split
  · rename_i x1 e2
    exact State.mcDone_kept h
  · rename_i x3 x4 e5
    split
    · rename_i x6 e7
      exact h
    · rename_i x8 x9 e10
      exact Kept.ite (State.wbExported_kept h) (Kept.ite (State.sheetLose_kept h) (State.wbPlace_kept h))
  · rename_i x11 x12 x13
    extract_lets +onlyGivenNames s14
    have h15 : Kept s₀ s14 := by
      dsimp -zeta only [s14]
      exact State.bpmRelease_kept h
    clear_value s14
    exact Kept.ite (State.occSub_kept h15) h15

theorem State.wbDropped_kept {k} (h : Kept s₀ s) : Kept s₀ (State.wbDropped s k) := by
  unfold State.wbDropped
  exact Kept.ite (State.wbReqDrop_kept h) h

theorem State.tmDropCount_kept {k code} (h : Kept s₀ s) : Kept s₀ (State.tmDropCount s k code) := by
  unfold State.tmDropCount
  exact Kept.ite (State.addCnt_kept h) h

theorem State.qDropCount_kept {n c len code} (h : Kept s₀ s) : Kept s₀ (State.qDropCount s n c len code) := by
  unfold State.qDropCount
  extract_lets +onlyGivenNames s1
  have h2 : Kept s₀ s1 := by
    dsimp -zeta only [s1]
    exact State.addCnt_kept (State.addCnt_kept h)
  clear_value s1
  extract_lets +onlyGivenNames s3
  have h4 : Kept s₀ s3 := by
    dsimp -zeta only [s3]
    exact Kept.ite (State.addCnt_kept h2) h2
  clear_value s3
  exact Kept.ite (State.cause_kept h4) h4

theorem State.dropWhole_kept {k code} (h : Kept s₀ s) : Kept s₀ (State.dropWhole s k code) := by
  unfold State.dropWhole
  extract_lets +onlyGivenNames s1
  have h2 : Kept s₀ s1 := by
    dsimp -zeta only [s1]
    exact State.addCnt_kept (State.tmDropCount_kept h)
  clear_value s1
  exact State.pktGone_kept (State.wbDropped_kept h2)

theorem State.dropQueued_kept {n c k code} (h : Kept s₀ s) : Kept s₀ (State.dropQueued s n c k code) := by
  unfold State.dropQueued
  exact State.pktGone_kept (State.wbDropped_kept (State.qDropCount_kept (State.tmDropCount_kept h)))

theorem State.stallEval_kept {n c} (h : Kept s₀ s) : Kept s₀ (State.stallEval s n c) := by
  unfold State.stallEval
  extract_lets +onlyGivenNames x1
  clear_value x1
  exact Kept.ite (Kept.ite h (State.setTmq_kept h)) (Kept.ite (State.setTmq_kept h) h)

theorem State.stallEvals_kept {n} (h : Kept s₀ s) : Kept s₀ (State.stallEvals s n) := by
  unfold State.stallEvals
  refine Kept.foldl h ?_
  intro s1 x2 h3
  exact State.stallEval_kept h3

theorem State.flushQueue_kept {n c code} (h : Kept s₀ s) : Kept s₀ (State.flushQueue s n c code) := by
  unfold State.flushQueue
  extract_lets +onlyGivenNames ps1
  clear_value ps1
  extract_lets +onlyGivenNames s2
  clear_value s2
  extract_lets +onlyGivenNames s3
  have h4 : Kept s₀ s3 := by
    dsimp -zeta only [s3]
    exact State.setTmq_kept h
  clear_value s3
  refine State.stallEval_kept ?_
  refine Kept.foldl h4 ?_
  intro s5 x6 h7
  exact State.dropQueued_kept h7

theorem State.flushPort_kept {n code} (h : Kept s₀ s) : Kept s₀ (State.flushPort s n code) := by
  unfold State.flushPort
  refine Kept.foldl h ?_
  intro s1 x2 h3
  exact State.flushQueue_kept h3

theorem State.setDiscard_kept {n c b} (h : Kept s₀ s) : Kept s₀ (State.setDiscard s n c b) := by
  unfold State.setDiscard
  extract_lets +onlyGivenNames d1
  clear_value d1
  exact State.setFld_kept h

theorem State.wdEnter_kept {n c} (h : Kept s₀ s) : Kept s₀ (State.wdEnter s n c) := by
  unfold State.wdEnter
  extract_lets +onlyGivenNames x1
  clear_value x1
  extract_lets +onlyGivenNames s2
  have h3 : Kept s₀ s2 := by
    dsimp -zeta only [s2]
    exact State.addCnt_kept (State.setDiscard_kept h)
  clear_value s2
  extract_lets +onlyGivenNames x4
  clear_value x4
  extract_lets +onlyGivenNames s5
  have h6 : Kept s₀ s5 := by
    dsimp -zeta only [s5]
    exact State.setTmq_kept h3
  clear_value s5
  extract_lets +onlyGivenNames s7
  have h8 : Kept s₀ s7 := by
    dsimp -zeta only [s7]
    exact Kept.ite (State.ariseF_kept h6) (State.cause_kept h6)
  clear_value s7
  exact State.flushQueue_kept h8

theorem State.wdLeave_kept {n c} (h : Kept s₀ s) : Kept s₀ (State.wdLeave s n c) := by
  unfold State.wdLeave
  extract_lets +onlyGivenNames s1
  clear_value s1
  extract_lets +onlyGivenNames s2
  have h3 : Kept s₀ s2 := by
    dsimp -zeta only [s2]
    exact State.setTmq_kept (State.setDiscard_kept h)
  clear_value s2
  exact State.stallEval_kept (State.cause_kept h3)

theorem State.wdLook_kept {n c} (h : Kept s₀ s) : Kept s₀ (State.wdLook s n c) := by
  unfold State.wdLook
  extract_lets +onlyGivenNames x1
  clear_value x1
  exact Kept.ite (Kept.ite (State.wdLeave_kept h) h) (Kept.ite (State.wdEnter_kept h) h)

theorem State.wdCheck_kept (h : Kept s₀ s) : Kept s₀ (State.wdCheck s) := by
  unfold State.wdCheck
  refine Kept.foldl ?_ ?_
  · exact h
  · intro s1 x2 h3
    exact State.wdLook_kept h3

theorem State.ttReleaseDue_kept {n c} (h : Kept s₀ s) : Kept s₀ (State.ttReleaseDue s n c) := by
  unfold State.ttReleaseDue
  extract_lets +onlyGivenNames q1
  clear_value q1
  exact State.setTmq_kept h

theorem State.ttFault_kept (h : Kept s₀ s) : Kept s₀ (State.ttFault s) := by
  unfold State.ttFault
  refine Kept.foldl ?_ ?_
  · exact h
  · intro s1 x2 h3
    extract_lets +onlyGivenNames x4
    clear_value x4
    exact State.setTmq_kept h3

theorem State.tmPush_kept {n c k} (h : Kept s₀ s) : Kept s₀ (State.tmPush s n c k) := by
  unfold State.tmPush
  extract_lets +onlyGivenNames k1
  clear_value k1
  extract_lets +onlyGivenNames s2
  have h3 : Kept s₀ s2 := by
    dsimp -zeta only [s2]
    exact State.addCnt_kept (State.addCnt_kept h)
  clear_value s2
  exact State.stallEval_kept (State.setTmq_kept h3)

theorem State.resolve_kept {p k} (h : Kept s₀ s) : Kept s₀ (State.resolve s p k).2 := by
  unfold State.resolve
  extract_lets +onlyGivenNames pit1
  clear_value pit1
  extract_lets +onlyGivenNames x2
  clear_value x2
  extract_lets +onlyGivenNames one3
  have h5 : ∀ a4, Kept s₀ (one3 a4).2 := by
    intro a46
    dsimp -zeta only [one3]
    split
    · dsimp -zeta only
      exact h
    · dsimp -zeta only
      exact Kept.ite (State.xdrop_kept h) h
  clear_value one3
  split
  · exact h5 _
  · split
    · dsimp -zeta only
      exact State.xdrop_kept h
    · extract_lets +onlyGivenNames bm18
      clear_value bm18
      extract_lets +onlyGivenNames ok19
      clear_value ok19
      extract_lets +onlyGivenNames x20
      clear_value x20
      extract_lets +onlyGivenNames s21
      have h22 : Kept s₀ s21 := by
        dsimp -zeta only [s21]
        exact State.xdrop_kept h
      clear_value s21
      dsimp -zeta only
      exact h22
  · extract_lets +onlyGivenNames w26
    clear_value w26
    split
    · dsimp -zeta only
      exact h
    · extract_lets +onlyGivenNames h29
      clear_value h29
      split
      · dsimp -zeta only
        exact h
      · exact h5 _

theorem State.setPolicer_kept {p i q} (h : Kept s₀ s) : Kept s₀ (State.setPolicer s p i q) := by
  unfold State.setPolicer
  exact h.any

theorem State.police_kept {p k} (h : Kept s₀ s) : Kept s₀ (State.police s p k).2 := by
  unfold State.police
  split
  · rename_i e1
    exact h
  · rename_i x2
    extract_lets +onlyGivenNames x3
    clear_value x3
    extract_lets +onlyGivenNames x4
    clear_value x4
    split
    · rename_i x5 x6 x7 e8
      extract_lets +onlyGivenNames x9
      clear_value x9
      extract_lets +onlyGivenNames x10
      clear_value x10
      extract_lets +onlyGivenNames x11
      clear_value x11
      split
      · rename_i x12
        dsimp -zeta only
        exact State.setPolicer_kept h
      · rename_i x13
        dsimp -zeta only
        exact State.setPolicer_kept h
      · rename_i x14
        dsimp -zeta only
        exact State.setPolicer_kept h

theorem State.tmAdmit_kept {p k d} (h : Kept s₀ s) : Kept s₀ (State.tmAdmit s p k d) := by
  unfold State.tmAdmit
  extract_lets +onlyGivenNames x1
  clear_value x1
  extract_lets +onlyGivenNames x2
  clear_value x2
  refine Kept.ite ?_ ?_
  · extract_lets +onlyGivenNames s3
    have h4 : Kept s₀ s3 := by
      dsimp -zeta only [s3]
      exact Kept.ite (State.cause_kept h) h
    clear_value s3
    exact State.dropWhole_kept h4
  · extract_lets +onlyGivenNames x5
    clear_value x5
    split
    · rename_i x6 x7
      exact State.dropWhole_kept h
    · rename_i x8 x9
      split
      · rename_i x10 x11 e12
        exact State.dropWhole_kept (State.qDropCount_kept h)
      · rename_i x13 e14
        exact State.tmPush_kept (State.occAdd_kept h)
    · rename_i x15 x16
      split
      · rename_i x17 s18 e19
        exact State.dropWhole_kept (Kept.snd e19 (State.bpmMove_kept h))
      · rename_i x20 s21 e22
        extract_lets +onlyGivenNames x23
        clear_value x23
        extract_lets +onlyGivenNames x24
        clear_value x24
        refine Kept.ite ?_ ?_
        · exact State.dropWhole_kept (Kept.snd e22 (State.bpmMove_kept h))
        · extract_lets +onlyGivenNames x25
          clear_value x25
          extract_lets +onlyGivenNames x26
          extract_lets +onlyGivenNames s27
          have h28 : Kept s₀ s27 := by
            dsimp -zeta only [s27]
            exact Kept.any (Kept.snd e22 (State.bpmMove_kept h))
          clear_value s27
          exact State.occAdd_kept (State.setPipe_kept h28)

theorem State.tmEnqueue_kept {p} (h : Kept s₀ s) : Kept s₀ (State.tmEnqueue s p) := by
  unfold State.tmEnqueue
  split
  · exact h
  · extract_lets +onlyGivenNames s7
    have h8 : Kept s₀ s7 := by
      dsimp -zeta only [s7]
      exact State.setWaiting_kept h
    clear_value s7
    refine Kept.ite (State.dropWhole_kept h8) ?_
    refine Kept.ite (State.dropWhole_kept h8) ?_
    refine Kept.ite (State.dropWhole_kept (State.sliceLoss_kept h8)) ?_
    split
    · rename_i x9 x10 s11 e12
      exact State.dropWhole_kept (Kept.snd e12 (State.resolve_kept h8))
    · rename_i x13 x14 s15 x16 e17
      split
      · rename_i x18 x19 s20 e21
        exact State.dropWhole_kept (Kept.snd e21 (State.police_kept (Kept.snd e17 (State.resolve_kept h8))))
      · rename_i x22 x23 s24 e25
        exact State.tmAdmit_kept (Kept.snd e25 (State.police_kept (Kept.snd e17 (State.resolve_kept h8))))

theorem State.tmDirect_kept {n c k} (h : Kept s₀ s) : Kept s₀ (State.tmDirect s n c k).2 := by
  unfold State.tmDirect
  split
  · rename_i e1
    dsimp -zeta only
    exact State.qDropCount_kept (State.tmDropCount_kept h)
  · rename_i x2
    split
    · rename_i x3 x4 e5
      dsimp -zeta only
      exact State.qDropCount_kept (State.tmDropCount_kept h)
    · rename_i x6 e7
      dsimp -zeta only
      exact State.tmPush_kept h

theorem State.tmPass_kept {p k} (h : Kept s₀ s) : Kept s₀ (State.tmPass s p k) := by
  induction k generalizing s with
  | zero => exact h
  | succ k ih =>
    unfold State.tmPass
    split
    · exact h
    · exact Kept.ite (ih (State.tmEnqueue_kept h)) h

theorem State.replicaMake_kept {p} (h : Kept s₀ s) : Kept s₀ (State.replicaMake s p) := by
  unfold State.replicaMake
  split
  · rename_i x1 e2
    exact h
  · rename_i x3 x4 x5 x6 e7
    refine Kept.ite ?_ ?_
    · exact h
    · extract_lets +onlyGivenNames x8
      clear_value x8
      extract_lets +onlyGivenNames x9
      extract_lets +onlyGivenNames s10
      have h11 : Kept s₀ s10 := by
        dsimp -zeta only [s10]
        exact State.setPipe_kept h
      clear_value s10
      extract_lets +onlyGivenNames x12
      clear_value x12
      refine Kept.foldl ?_ ?_
      · exact h11
      · intro s13 x14 h15
        refine Kept.ite ?_ ?_
        · exact State.dropQueued_kept h15
        · split
          · rename_i x16 x17 e18
            exact State.dropQueued_kept h15
          · rename_i x19 e20
            exact State.tmPush_kept h15

theorem State.dwrr_kept {n set k cur b} (h : Kept s₀ s) : Kept s₀ (State.dwrr s n set k cur b).1 := by
  induction k generalizing s cur b with
  | zero => exact h
  | succ k ih =>
    unfold State.dwrr
    split
    · dsimp only
      split
      · exact State.setPtm_kept (State.setTmq_kept h)
      · exact ih h
    · split
      · exact h
      · exact ih (State.setTmq_kept h)

theorem State.dwrrClear_kept {n} (h : Kept s₀ s) : Kept s₀ (State.dwrrClear s n) := by
  unfold State.dwrrClear
  refine Kept.foldl h ?_
  intro s1 x2 h3
  extract_lets +onlyGivenNames q4
  clear_value q4
  exact Kept.ite (State.setTmq_kept h3) h3

theorem State.shpTake_kept {n c len} (h : Kept s₀ s) : Kept s₀ (State.shpTake s n c len) := by
  unfold State.shpTake
  extract_lets +onlyGivenNames x1
  clear_value x1
  extract_lets +onlyGivenNames x2
  clear_value x2
  extract_lets +onlyGivenNames x3
  clear_value x3
  extract_lets +onlyGivenNames s4
  have h5 : Kept s₀ s4 := by
    dsimp -zeta only [s4]
    exact State.setTmq_kept h
  clear_value s4
  exact State.setPtm_kept h5

theorem State.dispatch_kept {n c k} (h : Kept s₀ s) : Kept s₀ (State.dispatch s n c k) := by
  unfold State.dispatch
  extract_lets +onlyGivenNames s1
  have h2 : Kept s₀ s1 := by
    dsimp -zeta only [s1]
    exact State.setTmq_kept h
  clear_value s1
  refine Kept.ite ?_ ?_
  · exact State.stallEval_kept (State.dropQueued_kept (State.sliceLoss_kept h2))
  · extract_lets +onlyGivenNames s3
    have h4 : Kept s₀ s3 := by
      dsimp -zeta only [s3]
      exact State.shpTake_kept h2
    clear_value s3
    extract_lets +onlyGivenNames s5
    have h6 : Kept s₀ s5 := by
      dsimp -zeta only [s5]
      exact State.addCnt_kept (State.addCnt_kept h4)
    clear_value s5
    extract_lets +onlyGivenNames x7
    extract_lets +onlyGivenNames s8
    have h9 : Kept s₀ s8 := by
      dsimp -zeta only [s8]
      exact State.setTmq_kept h6
    clear_value s8
    extract_lets +onlyGivenNames x10
    clear_value x10
    exact State.stallEval_kept (State.setPipe_kept h9)

theorem State.schedulerSelect_kept {n} (h : Kept s₀ s) : Kept s₀ (State.schedulerSelect s n) := by
  unfold State.schedulerSelect
  refine Kept.ite ?_ ?_
  · exact h
  · extract_lets +onlyGivenNames x1
    clear_value x1
    extract_lets +onlyGivenNames x2
    clear_value x2
    split
    · rename_i x3 x4 x5 e6
      extract_lets +onlyGivenNames x7
      clear_value x7
      extract_lets +onlyGivenNames s8
      have h9 : Kept s₀ s8 := by
        dsimp -zeta only [s8]
        exact Kept.ite (State.setFld_kept h) h
      clear_value s8
      exact State.dispatch_kept h9
    · rename_i x10 e11
      extract_lets +onlyGivenNames s12
      have h13 : Kept s₀ s12 := by
        dsimp -zeta only [s12]
        exact State.dwrrClear_kept h
      clear_value s12
      extract_lets +onlyGivenNames x14
      clear_value x14
      extract_lets +onlyGivenNames x15
      clear_value x15
      extract_lets +onlyGivenNames x16
      clear_value x16
      split
      · rename_i x17 x18 x19 e20
        exact State.dispatch_kept h13
      · rename_i x21 e22
        split
        · rename_i x23 s24 x25 x26 e27
          exact State.dispatch_kept (Kept.fst e27 (State.dwrr_kept h13))
        · rename_i x28 s29 e30
          exact Kept.fst e30 (State.dwrr_kept h13)

theorem State.liveSet_kept {n} (h : Kept s₀ s) : Kept s₀ (State.liveSet s n) := by
  unfold State.liveSet
  exact Kept.ite (State.setLive_kept h) h

theorem State.downFlush_kept {n} (h : Kept s₀ s) : Kept s₀ (State.downFlush s n) := by
  unfold State.downFlush
  refine Kept.ite h ?_
  extract_lets +onlyGivenNames s1
  have h2 : Kept s₀ s1 := by
    dsimp -zeta only [s1]
    exact State.setBit_kept h
  clear_value s1
  exact State.flushPort_kept (State.ariseF_kept h2)

theorem State.tmPortEnd_kept {n} (h : Kept s₀ s) : Kept s₀ (State.tmPortEnd s n) := by
  unfold State.tmPortEnd
  extract_lets +onlyGivenNames s1
  have h2 : Kept s₀ s1 := by
    dsimp -zeta only [s1]
    refine Kept.foldl ?_ ?_
    · exact h
    · intro s3 x4 h5
      exact State.setTmq_kept h5
  clear_value s1
  extract_lets +onlyGivenNames s6
  have h7 : Kept s₀ s6 := by
    dsimp -zeta only [s6]
    exact State.setFld_kept h2
  clear_value s6
  extract_lets +onlyGivenNames x8
  clear_value x8
  extract_lets +onlyGivenNames s9
  have h10 : Kept s₀ s9 := by
    dsimp -zeta only [s9]
    exact State.setReg_kept h7
  clear_value s9
  extract_lets +onlyGivenNames x11
  clear_value x11
  extract_lets +onlyGivenNames s12
  have h13 : Kept s₀ s12 := by
    dsimp -zeta only [s12]
    exact State.setPtm_kept h10
  clear_value s12
  exact Kept.ite (State.ctlPush_kept h13) h13

theorem State.setTmData_kept {p ws} (h : Kept s₀ s) : Kept s₀ (State.setTmData s p ws) := by
  unfold State.setTmData
  refine Kept.foldl h ?_
  intro s1 x2 h3
  exact State.setReg_kept h3

theorem State.tmIaDone_kept {p r} (h : Kept s₀ s) : Kept s₀ (State.tmIaDone s p r) := by
  unfold State.tmIaDone
  exact State.setBit_kept (State.setFld_kept h)

theorem State.tmIaRefuse_kept {p r} (h : Kept s₀ s) : Kept s₀ (State.tmIaRefuse s p r) := by
  unfold State.tmIaRefuse
  extract_lets +onlyGivenNames s1
  have h2 : Kept s₀ s1 := by
    dsimp -zeta only [s1]
    exact State.tmIaDone_kept h
  clear_value s1
  exact Kept.ite (State.cause_kept h2) h2

theorem State.tmIaGo_kept {p} (h : Kept s₀ s) : Kept s₀ (State.tmIaGo s p) := by
  unfold State.tmIaGo
  extract_lets +onlyGivenNames x1
  clear_value x1
  exact Kept.ite (State.tmIaRefuse_kept h) (State.tmIaDone_kept h)

theorem State.tmIaRun_kept {p} (h : Kept s₀ s) : Kept s₀ (State.tmIaRun s p) := by
  unfold State.tmIaRun
  extract_lets +onlyGivenNames x1
  clear_value x1
  extract_lets +onlyGivenNames x2
  clear_value x2
  extract_lets +onlyGivenNames x3
  clear_value x3
  extract_lets +onlyGivenNames x4
  clear_value x4
  extract_lets +onlyGivenNames x5
  clear_value x5
  extract_lets +onlyGivenNames x6
  clear_value x6
  refine Kept.ite ?_ ?_
  · exact State.tmIaRefuse_kept h
  · extract_lets +onlyGivenNames s7
    have h8 : Kept s₀ s7 := by
      dsimp -zeta only [s7]
      exact State.tmIaDone_kept h
    clear_value s7
    split
    · rename_i x9 x10 e11
      extract_lets +onlyGivenNames x12
      clear_value x12
      extract_lets +onlyGivenNames x13
      clear_value x13
      extract_lets +onlyGivenNames s14
      have h15 : Kept s₀ s14 := by
        dsimp -zeta only [s14]
        exact State.setPolicer_kept h8
      clear_value s14
      exact Kept.ite (State.cause_kept h15) h15
    · rename_i x16 x17 e18
      extract_lets +onlyGivenNames x19
      clear_value x19
      extract_lets +onlyGivenNames s20
      have h21 : Kept s₀ s20 := by
        dsimp -zeta only [s20]
        exact State.setTmData_kept h8
      clear_value s20
      extract_lets +onlyGivenNames x22
      clear_value x22
      extract_lets +onlyGivenNames x23
      extract_lets +onlyGivenNames s24
      have h25 : Kept s₀ s24 := by
        dsimp -zeta only [s24]
        exact Kept.any h21
      clear_value s24
      exact Kept.ite (State.setPolicer_kept h25) h25
    · rename_i x26 x27 e28
      exact Kept.any h8
    · rename_i x29 x30 e31
      exact State.setTmData_kept h8
    · rename_i x32 x33 e34
      exact Kept.any h8
    · rename_i x35 x36 e37
      exact State.setTmData_kept h8
    · rename_i x38 x39 x40 x41 x42 x43 e44
      extract_lets +onlyGivenNames x45
      clear_value x45
      exact Kept.any h8
    · rename_i x46 x47 x48 x49 x50 x51 e52
      extract_lets +onlyGivenNames x53
      clear_value x53
      exact State.setTmData_kept h8

theorem State.tmIaTurn_kept (h : Kept s₀ s) : Kept s₀ (State.tmIaTurn s) := by
  unfold State.tmIaTurn
  refine Kept.foldl ?_ ?_
  · exact h
  · intro s1 x2 h3
    exact Kept.ite (State.tmIaRun_kept h3) h3

theorem State.tmPulse_kept {on} (h : Kept s₀ s) : Kept s₀ (State.tmPulse s on) := by
  unfold State.tmPulse
  refine Kept.ite ?_ ?_
  · exact Kept.any h
  · extract_lets +onlyGivenNames s1
    have h2 : Kept s₀ s1 := by
      dsimp -zeta only [s1]
      refine Kept.foldl ?_ ?_
      · exact h
      · intro s3 x4 h5
        exact State.replicaMake_kept h5
    clear_value s1
    extract_lets +onlyGivenNames x6
    extract_lets +onlyGivenNames s7
    have h8 : Kept s₀ s7 := by
      dsimp -zeta only [s7]
      exact Kept.any h2
    clear_value s7
    refine State.tmIaTurn_kept ?_
    refine Kept.foldl ?_ ?_
    · exact h8
    · intro s9 x10 h11
      exact State.tmPass_kept h11

theorem State.polRound_kept (h : Kept s₀ s) : Kept s₀ (State.polRound s) := by
  unfold State.polRound
  refine Kept.foldl ?_ ?_
  · exact h
  · intro s1 x2 h3
    extract_lets +onlyGivenNames x4
    clear_value x4
    extract_lets +onlyGivenNames x5
    clear_value x5
    extract_lets +onlyGivenNames x6
    clear_value x6
    split
    · rename_i x7 e8
      exact State.setPolicer_kept h3
    · rename_i x9 x10 e11
      exact State.setPolicer_kept h3

theorem State.qShpReset_kept {n c} (h : Kept s₀ s) : Kept s₀ (State.qShpReset s n c) := by
  unfold State.qShpReset
  extract_lets +onlyGivenNames x1
  clear_value x1
  extract_lets +onlyGivenNames x2
  clear_value x2
  exact State.setTmq_kept h

theorem State.portShpReset_kept {n} (h : Kept s₀ s) : Kept s₀ (State.portShpReset s n) := by
  unfold State.portShpReset
  extract_lets +onlyGivenNames x1
  clear_value x1
  extract_lets +onlyGivenNames x2
  clear_value x2
  exact State.setPtm_kept h

theorem State.mirDrop_kept (h : Kept s₀ s) : Kept s₀ (State.mirDrop s) := by
  unfold State.mirDrop
  exact State.addSat32_kept h

theorem State.mirrorCopy_kept {n pt k frame} (h : Kept s₀ s) : Kept s₀ (State.mirrorCopy s n pt k frame) := by
  unfold State.mirrorCopy
  exact Kept.ite h (Kept.any h)

theorem State.mirrorMake_kept {k frame} (h : Kept s₀ s) : Kept s₀ (State.mirrorMake s k frame) := by
  unfold State.mirrorMake
  extract_lets +onlyGivenNames x1
  clear_value x1
  extract_lets +onlyGivenNames x2
  clear_value x2
  extract_lets +onlyGivenNames x3
  clear_value x3
  extract_lets +onlyGivenNames x4
  clear_value x4
  extract_lets +onlyGivenNames x5
  clear_value x5
  extract_lets +onlyGivenNames x6
  clear_value x6
  refine Kept.ite ?_ ?_
  · exact State.mirDrop_kept h
  · refine Kept.ite ?_ ?_
    · exact State.mirDrop_kept (Kept.any h)
    · split
      · rename_i x7 x8 s9 e10
        extract_lets +onlyGivenNames s11
        have h12 : Kept s₀ s11 := by
          dsimp -zeta only [s11]
          exact Kept.any (Kept.snd e10 (State.bpmAlloc_kept h))
        clear_value s11
        extract_lets +onlyGivenNames x13
        clear_value x13
        split
        · rename_i x14 s15 e16
          exact Kept.snd e16 (State.tmDirect_kept h12)
        · rename_i x17 s18 e19
          exact State.pktGone_kept (Kept.snd e19 (State.tmDirect_kept h12))
      · rename_i x20 x21 s22 x23 e24
        exact State.mirDrop_kept (Kept.snd e24 (State.bpmAlloc_kept h))

theorem State.mirrorTurn_kept (h : Kept s₀ s) : Kept s₀ (State.mirrorTurn s) := by
  unfold State.mirrorTurn
  refine Kept.foldl ?_ ?_
  · exact Kept.any h
  · intro s1 x2 h3
    exact State.mirrorMake_kept h3

/-! ### Machine/Export.lean -/

theorem State.sheetOffer_kept {n q} (h : Kept s₀ s) : Kept s₀ (State.sheetOffer s n q) := by
  unfold State.sheetOffer
  split
  · exact h
  · extract_lets +onlyGivenNames len6
    clear_value len6
    extract_lets +onlyGivenNames x7
    clear_value x7
    extract_lets +onlyGivenNames x8
    clear_value x8
    extract_lets +onlyGivenNames x9
    clear_value x9
    extract_lets +onlyGivenNames s10
    have h11 : Kept s₀ s10 := by
      dsimp -zeta only [s10]
      exact Kept.ite h (State.cause_kept h)
    clear_value s10
    split
    · exact h11
    · extract_lets +onlyGivenNames e17
      clear_value e17
      extract_lets +onlyGivenNames s18
      clear_value s18
      extract_lets +onlyGivenNames s19
      have h20 : Kept s₀ s19 := by
        dsimp -zeta only [s19]
        exact State.setStrm_kept h11
      clear_value s19
      extract_lets +onlyGivenNames p21
      clear_value p21
      split
      · rename_i x22 s23 e24
        exact State.wbPlace_kept (Kept.snd e24 (State.tmDirect_kept h20))
      · rename_i x25 s26 e27
        exact State.wbPlace_kept (Kept.snd e27 (State.tmDirect_kept h20))

theorem State.sheetExport_kept {n} (h : Kept s₀ s) : Kept s₀ (State.sheetExport s n) := by
  unfold State.sheetExport
  refine Kept.ite ?_ ?_
  · exact h
  · split
    · rename_i x1 e2
      exact h
    · rename_i x3 x4 e5
      exact State.sheetOffer_kept h

theorem State.exportRetry_kept {n} (h : Kept s₀ s) : Kept s₀ (State.exportRetry s n) := by
  unfold State.exportRetry
  refine Kept.ite h ?_
  split
  · exact h
  · exact Kept.ite (State.sheetOffer_kept (State.addCnt_kept h)) h

theorem State.expLeave_kept (h : Kept s₀ s) : Kept s₀ (State.expLeave s) := by
  unfold State.expLeave
  refine Kept.foldl h ?_
  intro s1 x2 h3
  extract_lets +onlyGivenNames a4
  clear_value a4
  exact Kept.ite (State.setBit_kept h3) h3

/-! ### Machine/Cnt.lean -/

theorem State.setSnap_kept {n c} (h : Kept s₀ s) : Kept s₀ (State.setSnap s n c) := by
  unfold State.setSnap
  exact h.anyCtr

theorem State.setSnapRun_kept {n r} (h : Kept s₀ s) : Kept s₀ (State.setSnapRun s n r) := by
  unfold State.setSnapRun
  exact Kept.anyCtr h

theorem State.snapThaw_kept {n} (h : Kept s₀ s) : Kept s₀ (State.snapThaw s n) := by
  unfold State.snapThaw
  exact State.setSnap_kept (State.setBit_kept h)

theorem State.snapIdle_kept {n} (h : Kept s₀ s) : Kept s₀ (State.snapIdle s n) := by
  unfold State.snapIdle
  exact State.setBit_kept (State.setBit_kept h)

theorem State.snapWrite_kept {f n go thaw} (h : Kept s₀ s) : Kept s₀ (State.snapWrite s f n go thaw) := by
  unfold State.snapWrite
  extract_lets +onlyGivenNames s1
  have h2 : Kept s₀ s1 := by
    dsimp -zeta only [s1]
    exact Kept.ite h (Kept.ite (State.busyWrite_kept h) (State.setSnapRun_kept (State.setBit_kept (State.setBit_kept
        h))))
  clear_value s1
  exact Kept.ite (State.snapThaw_kept h2) h2

theorem State.snapTake_kept {n r} (h : Kept s₀ s) : Kept s₀ (State.snapTake s n r) := by
  unfold State.snapTake
  extract_lets +onlyGivenNames x1
  clear_value x1
  exact State.setSnapRun_kept h

theorem State.snapDone_kept {n} (h : Kept s₀ s) : Kept s₀ (State.snapDone s n) := by
  unfold State.snapDone
  split
  · rename_i x1 x2 x3 x4 x5 e6
    extract_lets +onlyGivenNames x7
    clear_value x7
    extract_lets +onlyGivenNames s8
    have h9 : Kept s₀ s8 := by
      dsimp -zeta only [s8]
      exact State.setSnapRun_kept (State.setSnap_kept h)
    clear_value s8
    extract_lets +onlyGivenNames s10
    have h11 : Kept s₀ s10 := by
      dsimp -zeta only [s10]
      exact State.setReg_kept h9
    clear_value s10
    extract_lets +onlyGivenNames s12
    have h13 : Kept s₀ s12 := by
      dsimp -zeta only [s12]
      exact State.setReg_kept h11
    clear_value s12
    extract_lets +onlyGivenNames s14
    have h15 : Kept s₀ s14 := by
      dsimp -zeta only [s14]
      exact State.setReg_kept h13
    clear_value s14
    extract_lets +onlyGivenNames s16
    have h17 : Kept s₀ s16 := by
      dsimp -zeta only [s16]
      exact State.setReg_kept h15
    clear_value s16
    exact State.setBit_kept (State.snapIdle_kept h17)
  · rename_i x18 x19
    exact h

theorem State.snapTurn_kept {t1} (h : Kept s₀ s) : Kept s₀ (State.snapTurn s t1) := by
  unfold State.snapTurn
  refine Kept.foldl ?_ ?_
  · exact h
  · intro s1 x2 h3
    split
    · rename_i x4 x5 e6
      extract_lets +onlyGivenNames s7
      have h8 : Kept s₀ s7 := by
        dsimp -zeta only [s7]
        exact Kept.ite (State.snapTake_kept h3) h3
      clear_value s7
      exact Kept.ite (State.snapDone_kept h8) h8
    · rename_i x9 e10
      exact h3

theorem State.snapReset_kept {n} (h : Kept s₀ s) : Kept s₀ (State.snapReset s n) := by
  unfold State.snapReset
  exact State.snapIdle_kept (State.setSnapRun_kept (State.snapThaw_kept h))

theorem State.setFresh_kept {k b} (h : Kept s₀ s) : Kept s₀ (State.setFresh s k b) := by
  unfold State.setFresh
  exact Kept.anyCtr h

theorem State.monCause_kept {before n} (h : Kept s₀ s) : Kept s₀ (State.monCause s before n) := by
  unfold State.monCause
  exact Kept.ite (State.ariseF_kept h) h

theorem State.monTick_kept {n i} (h : Kept s₀ s) : Kept s₀ (State.monTick s n i) := by
  unfold State.monTick
  extract_lets +onlyGivenNames x1
  clear_value x1
  extract_lets +onlyGivenNames x2
  clear_value x2
  extract_lets +onlyGivenNames x3
  clear_value x3
  extract_lets +onlyGivenNames s4
  have h5 : Kept s₀ s4 := by
    dsimp -zeta only [s4]
    exact State.setFresh_kept h
  clear_value s4
  refine Kept.ite ?_ ?_
  · exact State.setBit_kept h5
  · extract_lets +onlyGivenNames x6
    clear_value x6
    extract_lets +onlyGivenNames s7
    have h8 : Kept s₀ s7 := by
      dsimp -zeta only [s7]
      exact State.setReg_kept h5
    clear_value s7
    refine Kept.ite ?_ ?_
    · extract_lets +onlyGivenNames s9
      have h10 : Kept s₀ s9 := by
        dsimp -zeta only [s9]
        exact State.addCnt_kept h8
      clear_value s9
      exact Kept.ite h10 (State.monCause_kept (State.setBit_kept (State.addCnt_kept h10)))
    · exact State.setBit_kept h8

theorem State.monTicks_kept {ticks} (h : Kept s₀ s) : Kept s₀ (State.monTicks s ticks) := by
  unfold State.monTicks
  refine Kept.foldl ?_ ?_
  · exact h
  · intro s1 x2 h3
    extract_lets +onlyGivenNames x4
    clear_value x4
    exact Kept.ite (Kept.ite (State.monTick_kept h3) h3) (Kept.ite (State.monTick_kept h3) h3)

theorem State.monWrite_kept {n i v} (h : Kept s₀ s) : Kept s₀ (State.monWrite s n i v) := by
  unfold State.monWrite
  extract_lets +onlyGivenNames x1
  clear_value x1
  extract_lets +onlyGivenNames x2
  clear_value x2
  extract_lets +onlyGivenNames s3
  have h4 : Kept s₀ s3 := by
    dsimp -zeta only [s3]
    exact State.setReg_kept h
  clear_value s3
  extract_lets +onlyGivenNames s5
  have h6 : Kept s₀ s5 := by
    dsimp -zeta only [s5]
    exact Kept.ite (State.setFresh_kept h4) h4
  clear_value s5
  exact Kept.ite h6 (State.cause_kept h6)

theorem State.smpInterval_kept {n} (h : Kept s₀ s) : Kept s₀ (State.smpInterval s n).2 := by
  unfold State.smpInterval
  extract_lets +onlyGivenNames p1
  clear_value p1
  split
  · split
    · rename_i x3 x4 s5 e6
      dsimp -zeta only
      exact Kept.snd e6 (State.freeWord_kept h)
  · dsimp -zeta only
    exact h

theorem State.setSmpLeft_kept {n v} (h : Kept s₀ s) : Kept s₀ (State.setSmpLeft s n v) := by
  unfold State.setSmpLeft
  exact h.anyCtr

theorem State.smpRestartCount_kept {n} (h : Kept s₀ s) : Kept s₀ (State.smpRestartCount s n) := by
  unfold State.smpRestartCount
  split
  · rename_i x1 x2 s3 e4
    exact State.setSmpLeft_kept (Kept.snd e4 (State.smpInterval_kept h))

theorem State.smpIssue_kept {n t cls pc} (h : Kept s₀ s) : Kept s₀ (State.smpIssue s n t cls pc) := by
  unfold State.smpIssue
  refine Kept.ite h ?_
  extract_lets +onlyGivenNames x1
  clear_value x1
  refine Kept.ite (State.setSmpLeft_kept h) ?_
  refine Kept.ite h ?_
  extract_lets +onlyGivenNames s2
  clear_value s2
  extract_lets +onlyGivenNames s3
  have h4 : Kept s₀ s3 := by
    dsimp -zeta only [s3]
    exact State.setThr_kept h
  clear_value s3
  extract_lets +onlyGivenNames s5
  have h6 : Kept s₀ s5 := by
    dsimp -zeta only [s5]
    exact State.smpRestartCount_kept h4
  clear_value s5
  exact State.setSmpLeft_kept h6

theorem State.smpKind_kept {t k} (h : Kept s₀ s) : Kept s₀ (State.smpKind s t k) := by
  unfold State.smpKind
  split
  · exact h
  · exact State.setThr_kept h

theorem State.smpWrite_kept {n e} (h : Kept s₀ s) : Kept s₀ (State.smpWrite s n e) := by
  unfold State.smpWrite
  extract_lets +onlyGivenNames a1
  clear_value a1
  extract_lets +onlyGivenNames x2
  clear_value x2
  extract_lets +onlyGivenNames x3
  clear_value x3
  extract_lets +onlyGivenNames x4
  clear_value x4
  refine Kept.ite (State.addCnt_kept h) ?_
  extract_lets +onlyGivenNames s5
  extract_lets +onlyGivenNames s6
  have h7 : Kept s₀ s6 := by
    dsimp -zeta only [s6]
    exact h.putSample
  clear_value s6
  extract_lets +onlyGivenNames s8
  have h9 : Kept s₀ s8 := by
    dsimp -zeta only [s8]
    exact State.setFld_kept h7
  clear_value s8
  extract_lets +onlyGivenNames s10
  have h11 : Kept s₀ s10 := by
    dsimp -zeta only [s10]
    exact State.addCnt_kept h9
  clear_value s10
  refine Kept.ite (State.setBit_kept (State.addCnt_kept h11)) ?_
  extract_lets +onlyGivenNames s12
  have h13 : Kept s₀ s12 := by
    dsimp -zeta only [s12]
    exact State.setFld_kept h11
  clear_value s12
  exact Kept.ite (State.ariseF_kept (State.setBit_kept h13)) h13

theorem State.smpComplete_kept {n t} (h : Kept s₀ s) : Kept s₀ (State.smpComplete s n t) := by
  unfold State.smpComplete
  split
  · exact h
  · exact State.smpWrite_kept (State.setThr_kept h)

theorem State.smpLose_kept {n t} (h : Kept s₀ s) : Kept s₀ (State.smpLose s n t) := by
  unfold State.smpLose
  split
  · exact h
  · exact State.addCnt_kept (State.setThr_kept h)

theorem State.smpRestart_kept {n} (h : Kept s₀ s) : Kept s₀ (State.smpRestart s n) := by
  unfold State.smpRestart
  exact State.resetReg_kept h

theorem State.smpCtlWrite_kept {n v} (h : Kept s₀ s) : Kept s₀ (State.smpCtlWrite s n v) := by
  unfold State.smpCtlWrite
  extract_lets +onlyGivenNames was1
  clear_value was1
  extract_lets +onlyGivenNames s2
  have h3 : Kept s₀ s2 := by
    dsimp -zeta only [s2]
    exact Kept.ite (State.smpRestart_kept h) h
  clear_value s2
  extract_lets +onlyGivenNames s4
  have h5 : Kept s₀ s4 := by
    dsimp -zeta only [s4]
    exact State.setReg_kept h3
  clear_value s4
  refine Kept.ite (State.smpRestartCount_kept h5) ?_
  refine Kept.ite ?_ h5
  refine Kept.foldl h5 ?_
  intro s6 x7 h8
  exact State.smpLose_kept h8

theorem State.smpFiltWrite_kept {n v} (h : Kept s₀ s) : Kept s₀ (State.smpFiltWrite s n v) := by
  unfold State.smpFiltWrite
  extract_lets +onlyGivenNames s1
  have h2 : Kept s₀ s1 := by
    dsimp -zeta only [s1]
    exact State.setReg_kept h
  clear_value s1
  exact Kept.ite (State.cause_kept h2) h2

theorem State.cntReset_kept {n} (h : Kept s₀ s) : Kept s₀ (State.cntReset s n) := by
  unfold State.cntReset
  extract_lets +onlyGivenNames s1
  have h2 : Kept s₀ s1 := by
    dsimp -zeta only [s1]
    exact State.smpRestart_kept (State.snapReset_kept h)
  clear_value s1
  extract_lets +onlyGivenNames s3
  have h4 : Kept s₀ s3 := by
    dsimp -zeta only [s3]
    exact State.smpRestartCount_kept h2
  clear_value s3
  extract_lets +onlyGivenNames x5
  clear_value x5
  extract_lets +onlyGivenNames s6
  have h7 : Kept s₀ s6 := by
    dsimp -zeta only [s6]
    exact Kept.dropSample h4
  clear_value s6
  extract_lets +onlyGivenNames s8
  have h9 : Kept s₀ s8 := by
    dsimp -zeta only [s8]
    refine Kept.foldl ?_ ?_
    · exact h7
    · intro s10 x11 h12
      exact State.resetReg_kept (State.setBit_kept h12)
  clear_value s8
  exact State.clearCnts_kept h9

/-! ### Machine/OstCore.lean -/

theorem State.setCustState_kept {n v} (h : Kept s₀ s) : Kept s₀ (State.setCustState s n v) := by
  unfold State.setCustState
  exact State.setFld_kept h

theorem State.custResult_kept {n v} (h : Kept s₀ s) : Kept s₀ (State.custResult s n v) := by
  unfold State.custResult
  exact State.setFld_kept h

theorem State.setCore_kept {c x} (h : Kept s₀ s) : Kept s₀ (State.setCore s c x) := by
  unfold State.setCore
  exact Kept.anyOst h

theorem State.coreCycle_kept {j c} (h : Kept s₀ s) : Kept s₀ (State.coreCycle s j c) := by
  unfold State.coreCycle
  extract_lets +onlyGivenNames x1
  clear_value x1
  extract_lets +onlyGivenNames x2
  clear_value x2
  exact State.setCore_kept h

theorem State.coreIssued_kept {t} (h : Kept s₀ s) : Kept s₀ (State.coreIssued s t) := by
  unfold State.coreIssued
  extract_lets +onlyGivenNames x1
  clear_value x1
  exact State.setCore_kept h

theorem State.smpDone_kept {t} (h : Kept s₀ s) : Kept s₀ (State.smpDone s t) := by
  unfold State.smpDone
  extract_lets +onlyGivenNames x1
  exact Kept.ite h (State.smpComplete_kept h)

theorem State.thrWake_kept {t v kind} (h : Kept s₀ s) : Kept s₀ (State.thrWake s t v kind) := by
  unfold State.thrWake
  extract_lets +onlyGivenNames x1
  clear_value x1
  extract_lets +onlyGivenNames x2
  extract_lets +onlyGivenNames s3
  have h4 : Kept s₀ s3 := by
    dsimp -zeta only [s3]
    exact State.setThr_kept h
  clear_value s3
  exact State.smpDone_kept (State.smpKind_kept h4)

theorem State.joinWake_kept {t v} (h : Kept s₀ s) : Kept s₀ (State.joinWake s t v) := by
  unfold State.joinWake
  split
  · exact h
  · exact State.thrWake_kept h

theorem State.ostRelease_kept {rq h'2} (h : Kept s₀ s) : Kept s₀ (State.ostRelease s rq h'2) := by
  unfold State.ostRelease
  exact Kept.ite (State.bpmRelease_kept h) h

theorem State.slotsFree_kept {t} (h : Kept s₀ s) : Kept s₀ (State.slotsFree s t) := by
  unfold State.slotsFree
  extract_lets +onlyGivenNames rq1
  clear_value rq1
  extract_lets +onlyGivenNames q2
  clear_value q2
  extract_lets +onlyGivenNames s3
  have h4 : Kept s₀ s3 := by
    dsimp -zeta only [s3]
    exact State.setThr_kept h
  clear_value s3
  refine Kept.foldl h4 ?_
  intro s5 x6 h7
  split
  · exact Kept.ite (State.bpmRelease_kept h7) h7
  · exact h7

theorem State.thrReset_kept {t} (h : Kept s₀ s) : Kept s₀ (State.thrReset s t) := by
  unfold State.thrReset
  extract_lets +onlyGivenNames s1
  have h2 : Kept s₀ s1 := by
    dsimp -zeta only [s1]
    exact State.joinWake_kept (State.slotsFree_kept h)
  clear_value s1
  exact State.setThr_kept (State.smpLose_kept h2)

theorem State.thrStart_kept {t pc g1 g2 detach} (h : Kept s₀ s) : Kept s₀ (State.thrStart s t pc g1 g2 detach) := by
  unfold State.thrStart
  exact State.setThr_kept h

theorem State.thrExit_kept {t v} (h : Kept s₀ s) : Kept s₀ (State.thrExit s t v) := by
  unfold State.thrExit
  extract_lets +onlyGivenNames s1
  have h2 : Kept s₀ s1 := by
    dsimp -zeta only [s1]
    exact State.smpComplete_kept (State.slotsFree_kept h)
  clear_value s1
  exact Kept.ite (State.setThr_kept h2) (Kept.ite (State.setThr_kept (State.joinWake_kept h2)) (State.setThr_kept h2))

theorem State.setFq_kept {n q} (h : Kept s₀ s) : Kept s₀ (State.setFq s n q) := by
  unfold State.setFq
  exact h.anyOst

theorem State.thrStop_kept {t code detail addr} (h : Kept s₀ s) : Kept s₀ (State.thrStop s t code detail addr) := by
  unfold State.thrStop
  extract_lets +onlyGivenNames x1
  clear_value x1
  extract_lets +onlyGivenNames x2
  clear_value x2
  extract_lets +onlyGivenNames x3
  clear_value x3
  extract_lets +onlyGivenNames s4
  have h5 : Kept s₀ s4 := by
    dsimp -zeta only [s4]
    exact State.setThr_kept h
  clear_value s4
  extract_lets +onlyGivenNames s6
  have h7 : Kept s₀ s6 := by
    dsimp -zeta only [s6]
    exact State.addCnt_kept h5
  clear_value s6
  extract_lets +onlyGivenNames s8
  have h9 : Kept s₀ s8 := by
    dsimp -zeta only [s8]
    exact Kept.ite (State.cause_kept (State.addCnt_kept h7)) (State.setFq_kept h7)
  clear_value s8
  extract_lets +onlyGivenNames s10
  have h11 : Kept s₀ s10 := by
    dsimp -zeta only [s10]
    exact Kept.ite (State.cause_kept h9) (State.ariseF_kept h9)
  clear_value s10
  extract_lets +onlyGivenNames s12
  have h13 : Kept s₀ s12 := by
    dsimp -zeta only [s12]
    exact Kept.ite (State.ariseF_kept h11) h11
  clear_value s12
  exact State.smpComplete_kept (State.smpKind_kept (State.joinWake_kept h13))

theorem State.thrFault_kept {t code addr} (h : Kept s₀ s) : Kept s₀ (State.thrFault s t code addr) := by
  unfold State.thrFault
  exact Kept.ite (State.thrStop_kept h) (State.thrStop_kept h)

theorem State.winDouble_kept {t detail} (h : Kept s₀ s) : Kept s₀ (State.winDouble s t detail) := by
  unfold State.winDouble
  split
  · rename_i x1 x2 s3 e4
    exact State.thrStop_kept (Kept.snd e4 (State.freeWord_kept h))

theorem State.ostIssue_kept {t row body} (h : Kept s₀ s) (hg3 : ∀ a0 a1, Kept s₀ a0 → Kept s₀ (body a0 a1)) : Kept s₀
    (State.ostIssue s t row body) := by
  unfold State.ostIssue
  extract_lets +onlyGivenNames x1
  clear_value x1
  extract_lets +onlyGivenNames x2
  clear_value x2
  extract_lets +onlyGivenNames x3
  clear_value x3
  refine Kept.ite ?_ ?_
  · exact h
  · refine Kept.ite ?_ ?_
    · exact State.thrFault_kept (State.coreIssued_kept h)
    · refine Kept.ite ?_ ?_
      · exact State.thrFault_kept (State.coreIssued_kept h)
      · extract_lets +onlyGivenNames x4
        clear_value x4
        refine Kept.ite ?_ ?_
        · exact h
        · refine Kept.ite ?_ ?_
          · exact State.thrFault_kept (State.coreIssued_kept h)
          · extract_lets +onlyGivenNames s5
            have h6 : Kept s₀ s5 := by
              dsimp -zeta only [s5]
              exact State.smpIssue_kept (State.coreIssued_kept h)
            clear_value s5
            exact Kept.ite (State.thrFault_kept h6) (Kept.ite (State.thrFault_kept h6) (hg3 _ _ h6))

theorem State.ostTo_kept {t pc} (h : Kept s₀ s) : Kept s₀ (State.ostTo s t pc) := by
  unfold State.ostTo
  exact State.smpDone_kept (State.setThr_kept h)

theorem State.ostOn_kept {t} (h : Kept s₀ s) : Kept s₀ (State.ostOn s t) := by
  unfold State.ostOn
  exact State.ostTo_kept h

theorem State.ostRd_kept {t rd v} (h : Kept s₀ s) : Kept s₀ (State.ostRd s t rd v) := by
  unfold State.ostRd
  exact State.ostOn_kept (State.setThr_kept h)

theorem State.ostWait_kept {t rd v} (h : Kept s₀ s) : Kept s₀ (State.ostWait s t rd v) := by
  unfold State.ostWait
  extract_lets +onlyGivenNames q1
  clear_value q1
  exact State.smpKind_kept (State.setThr_kept h)

theorem State.accessComplete_kept {t} (h : Kept s₀ s) : Kept s₀ (State.accessComplete s t) := by
  unfold State.accessComplete
  extract_lets +onlyGivenNames x1
  clear_value x1
  refine Kept.ite ?_ ?_
  · exact h
  · split
    · rename_i x2 e3
      exact h
    · rename_i x4 x5 e6
      extract_lets +onlyGivenNames x7
      clear_value x7
      exact State.smpDone_kept (State.setThr_kept h)

theorem State.ostAluR_kept {t row f} (h : Kept s₀ s) : Kept s₀ (State.ostAluR s t row f) := by
  unfold State.ostAluR
  refine State.ostIssue_kept h ?_
  intro s1 b2 h3
  exact State.ostRd_kept h3

theorem State.ostAluI_kept {t row f} (h : Kept s₀ s) : Kept s₀ (State.ostAluI s t row f) := by
  unfold State.ostAluI
  refine State.ostIssue_kept h ?_
  intro s1 b2 h3
  exact State.ostRd_kept h3

theorem State.dataWrite_kept {pl k v} (h : Kept s₀ s) : Kept s₀ (State.dataWrite s pl k v) := by
  refine h.gen rfl rfl (List.prefix_refl _) (Nat.le_refl _) fun c => ⟨c.1, c.2, c.3, c.4, c.5, c.6, c.7, c.8, ?_, c.10, c.11⟩
  have : ∀ (l : List Nat) (m : SMap Byte), SMap.wf (fun _ => 0) m = true →
      SMap.wf (fun _ => 0) (l.foldl (fun m i => SMap.put (fun _ => 0) m (pl + i) (BitVec.ofNat 8 (v / 256 ^ i))) m) =
          true := by
    intro l
    induction l with
    | nil => exact fun _ h => h
    | cons x l ih => exact fun m h => ih _ (SMap.wf_put _ _ _ _ h)
  exact this _ _ c.9

theorem State.ostData_kept {t k a go} (h : Kept s₀ s) (h1 : ∀ a b, Kept s₀ a → Kept s₀ (go a b)) : Kept s₀ (State.ostData
    s t k a go) := by
  unfold State.ostData
  refine Kept.ite (State.thrFault_kept h) ?_
  split
  · exact State.thrFault_kept h
  · exact h1 _ _ h

theorem State.ostLoad_kept {t row k} (h : Kept s₀ s) : Kept s₀ (State.ostLoad s t row k) := by
  unfold State.ostLoad
  refine State.ostIssue_kept h ?_
  intro s1 b2 h3
  refine State.ostData_kept h3 ?_
  intro s4 b5 h6
  exact Kept.ite (State.thrFault_kept h6) (State.ostWait_kept h6)

theorem State.ostStore_kept {t row k} (h : Kept s₀ s) : Kept s₀ (State.ostStore s t row k) := by
  unfold State.ostStore
  refine State.ostIssue_kept h ?_
  intro s1 b2 h3
  refine State.ostData_kept h3 ?_
  intro s4 b5 h6
  exact State.ostWait_kept (State.dataWrite_kept h6)

theorem State.ostAmo_kept {t row f} (h : Kept s₀ s) : Kept s₀ (State.ostAmo s t row f) := by
  unfold State.ostAmo
  refine State.ostIssue_kept h ?_
  intro s1 b2 h3
  extract_lets +onlyGivenNames a4
  clear_value a4
  refine State.ostData_kept h3 ?_
  intro s5 b6 h7
  refine Kept.ite (State.thrFault_kept h7) ?_
  extract_lets +onlyGivenNames old8
  clear_value old8
  exact State.ostWait_kept (State.dataWrite_kept h7)

theorem State.ostBranch_kept {t row p} (h : Kept s₀ s) : Kept s₀ (State.ostBranch s t row p) := by
  unfold State.ostBranch
  refine State.ostIssue_kept h ?_
  intro s1 b2 h3
  extract_lets +onlyGivenNames q4
  clear_value q4
  exact Kept.ite (State.ostTo_kept h3) (State.ostOn_kept h3)

theorem State.winTrap_kept {t deep} (h : Kept s₀ s) : Kept s₀ (State.winTrap s t deep) := by
  unfold State.winTrap
  extract_lets +onlyGivenNames n1
  clear_value n1
  extract_lets +onlyGivenNames q2
  clear_value q2
  extract_lets +onlyGivenNames s3
  have h4 : Kept s₀ s3 := by
    dsimp -zeta only [s3]
    exact State.setThr_kept h
  clear_value s3
  exact State.smpKind_kept (State.addCnt_kept h4)

theorem State.ostCall_kept {t pc} (h : Kept s₀ s) : Kept s₀ (State.ostCall s t pc) := by
  unfold State.ostCall
  extract_lets +onlyGivenNames q1
  clear_value q1
  refine Kept.ite (State.winDouble_kept h) ?_
  refine Kept.ite (Kept.ite (State.winDouble_kept h) (State.winTrap_kept h)) ?_
  extract_lets +onlyGivenNames c2
  clear_value c2
  extract_lets +onlyGivenNames r3
  clear_value r3
  exact State.ostTo_kept (State.setThr_kept h)

theorem State.ostRet_kept {t} (h : Kept s₀ s) : Kept s₀ (State.ostRet s t) := by
  unfold State.ostRet
  extract_lets +onlyGivenNames x1
  clear_value x1
  refine Kept.ite ?_ ?_
  · extract_lets +onlyGivenNames s2
    have h3 : Kept s₀ s2 := by
      dsimp -zeta only [s2]
      exact State.smpDone_kept h
    clear_value s2
    exact State.setThr_kept h3
  · refine Kept.ite ?_ ?_
    · exact Kept.ite (State.winTrap_kept h) (State.thrExit_kept h)
    · extract_lets +onlyGivenNames x4
      clear_value x4
      exact State.ostTo_kept (State.setThr_kept h)

theorem State.ostXfer_kept {t a go} (h : Kept s₀ s) (hg3 : ∀ a0 a1, Kept s₀ a0 → Kept s₀ (go a0 a1)) : Kept s₀
    (State.ostXfer s t a go) := by
  unfold State.ostXfer
  extract_lets +onlyGivenNames x1
  clear_value x1
  exact Kept.ite (State.thrFault_kept h) (hg3 _ _ h)

theorem State.ostFork_kept {t w} (h : Kept s₀ s) : Kept s₀ (State.ostFork s t w) := by
  unfold State.ostFork
  extract_lets +onlyGivenNames n1
  clear_value n1
  extract_lets +onlyGivenNames q2
  clear_value q2
  split
  · exact State.ostRd_kept (State.addCnt_kept h)
  · extract_lets +onlyGivenNames s8
    have h9 : Kept s₀ s8 := by
      dsimp -zeta only [s8]
      exact State.thrStart_kept h
    clear_value s8
    exact State.ostRd_kept (State.addCnt_kept h9)

theorem State.ostJoin_kept {t j w} (h : Kept s₀ s) : Kept s₀ (State.ostJoin s t j w) := by
  unfold State.ostJoin
  extract_lets +onlyGivenNames x1
  clear_value x1
  exact State.setThr_kept h

theorem State.joinDecide_kept {t} (h : Kept s₀ s) : Kept s₀ (State.joinDecide s t) := by
  unfold State.joinDecide
  extract_lets +onlyGivenNames x1
  clear_value x1
  split
  · rename_i x2 e3
    exact h
  · rename_i x4 x5 x6 e7
    extract_lets +onlyGivenNames s8
    have h9 : Kept s₀ s8 := by
      dsimp -zeta only [s8]
      exact State.setThr_kept h
    clear_value s8
    extract_lets +onlyGivenNames x10
    clear_value x10
    extract_lets +onlyGivenNames x11
    clear_value x11
    exact Kept.ite (State.thrFault_kept h9) (Kept.ite (State.ostRd_kept (State.setThr_kept h9)) (Kept.ite
        (State.ostRd_kept h9) (Kept.ite (State.thrFault_kept h9) (State.setThr_kept h9))))

theorem State.joinTurn_kept (h : Kept s₀ s) : Kept s₀ (State.joinTurn s) := by
  unfold State.joinTurn
  refine Kept.foldl ?_ ?_
  · exact h
  · intro s1 x2 h3
    exact State.joinDecide_kept h3

theorem State.ostWaitt_kept {t w} (h : Kept s₀ s) : Kept s₀ (State.ostWaitt s t w) := by
  unfold State.ostWaitt
  extract_lets +onlyGivenNames q1
  clear_value q1
  extract_lets +onlyGivenNames dl2
  clear_value dl2
  extract_lets +onlyGivenNames m3
  clear_value m3
  extract_lets +onlyGivenNames ev4
  clear_value ev4
  exact Kept.ite (State.ostRd_kept h) (State.setThr_kept h)

theorem State.waittWake_kept {t} (h : Kept s₀ s) : Kept s₀ (State.waittWake s t) := by
  unfold State.waittWake
  extract_lets +onlyGivenNames q1
  clear_value q1
  refine Kept.ite h ?_
  extract_lets +onlyGivenNames ev2
  clear_value ev2
  extract_lets +onlyGivenNames due3
  clear_value due3
  exact Kept.ite (State.thrWake_kept h) h

theorem State.ostKick_kept {n} (h : Kept s₀ s) : Kept s₀ (State.ostKick s n) := by
  refine h.gen rfl rfl (List.prefix_refl _) (Nat.le_refl _) fun c => ⟨c.1, c.2, c.3, c.4, c.5, ?_, c.7, c.8, c.9, c.10, c.11⟩
  have key := c.6
  simp only [SMap.wf, Bool.and_eq_true] at key ⊢
  have hs : ∀ (f : Nat × Thr → Nat × Thr), (∀ e, (f e).1 = e.1) → ∀ (m : SMap Thr), SMap.sorted m = true →
      SMap.sorted (m.map f) = true := by
    intro f hf m
    have hr : ∀ (m : SMap Thr) b, SMap.rising b m = true → SMap.rising b (m.map f) = true := by
      intro m
      induction m with
      | nil => exact fun _ h => h
      | cons e m ih =>
        intro b h
        simp only [List.map_cons, SMap.rising, Bool.and_eq_true, decide_eq_true_eq, hf] at h ⊢
        exact ⟨h.1, ih _ h.2⟩
    cases m with
    | nil => exact fun h => h
    | cons e m => intro h; simp only [List.map_cons, SMap.sorted, hf] at h ⊢; exact hr m _ h
  refine ⟨hs _ (fun e => ?_) _ key.1, ?_⟩
  · dsimp only; split <;> rfl
  · rw [List.all_eq_true] at key ⊢
    intro x hx
    obtain ⟨e, he, rfl⟩ := List.mem_map.mp hx
    have h0 := key.2 e he
    dsimp only
    split
    · rename_i hc
      simp only [Bool.and_eq_true, decide_eq_true_eq] at hc ⊢
      intro h2
      have := congrArg Thr.st h2
      rw [hc.1.1] at this
      cases this
    · exact h0

theorem State.ostRdt_kept {t w} (h : Kept s₀ s) : Kept s₀ (State.ostRdt s t w) := by
  unfold State.ostRdt
  extract_lets +onlyGivenNames q1
  clear_value q1
  extract_lets +onlyGivenNames sel2
  clear_value sel2
  refine Kept.ite (State.ostRd_kept (State.setThr_kept h)) ?_
  refine Kept.ite (State.ostRd_kept h) ?_
  refine Kept.ite (State.ostRd_kept h) ?_
  refine Kept.ite (State.ostRd_kept h) ?_
  split
  · rename_i x3 x4 s5 e6
    exact State.ostRd_kept (Kept.snd e6 (State.freeWord_kept h))

theorem State.setSlot_kept {t i x} (h : Kept s₀ s) : Kept s₀ (State.setSlot s t i x) := by
  unfold State.setSlot
  exact State.setThr_kept h

theorem State.ostSlot_kept {t i go} (h : Kept s₀ s) (h1 : ∀ a b, Kept s₀ a → Kept s₀ (go a b)) : Kept s₀ (State.ostSlot s
    t i go) := by
  unfold State.ostSlot
  split
  · exact State.thrFault_kept h
  · exact h1 _ _ h

theorem State.ostOwnSlot_kept {t i go} (h : Kept s₀ s) (hg3 : ∀ a0 a1, Kept s₀ a0 → Kept s₀ (go a0 a1)) : Kept s₀
    (State.ostOwnSlot s t i go) := by
  unfold State.ostOwnSlot
  refine State.ostSlot_kept ?_ ?_
  · exact h
  · intro s1 x2 h3
    exact Kept.ite (State.thrFault_kept h3) (hg3 _ _ h3)

theorem State.ostEmpty_kept {t i go} (h : Kept s₀ s) (h1 : ∀ a, Kept s₀ a → Kept s₀ (go a)) : Kept s₀ (State.ostEmpty s t
    i go) := by
  unfold State.ostEmpty
  exact Kept.ite (State.thrFault_kept h) (h1 _ h)

theorem State.ostXget_kept {t w} (h : Kept s₀ s) : Kept s₀ (State.ostXget s t w) := by
  unfold State.ostXget
  extract_lets +onlyGivenNames i1
  clear_value i1
  extract_lets +onlyGivenNames n2
  clear_value n2
  extract_lets +onlyGivenNames c3
  clear_value c3
  refine State.ostEmpty_kept h ?_
  intro s4 h5
  split
  · exact State.ostRd_kept h5
  · extract_lets +onlyGivenNames s12
    have h13 : Kept s₀ s12 := by
      dsimp -zeta only [s12]
      exact State.addCnt_kept (State.setSlot_kept (State.setExcQ_kept h5))
    clear_value s12
    exact State.ostRd_kept h13

theorem State.ostBalloc_kept {t w} (h : Kept s₀ s) : Kept s₀ (State.ostBalloc s t w) := by
  unfold State.ostBalloc
  extract_lets +onlyGivenNames i1
  clear_value i1
  refine State.ostEmpty_kept h ?_
  intro s2 h3
  extract_lets +onlyGivenNames len4
  clear_value len4
  refine Kept.ite (State.ostRd_kept h3) ?_
  split
  · rename_i x5 e6 s7 e8
    exact State.ostRd_kept (State.setSlot_kept (Kept.snd e8 (State.bpmAlloc_kept h3)))
  · rename_i x9 s10 e11
    exact State.ostRd_kept (Kept.snd e11 (State.bpmAlloc_kept h3))
  · rename_i x12 s13 e14
    exact State.ostRd_kept (Kept.snd e14 (State.bpmAlloc_kept h3))
  · rename_i x15 s16 e17
    exact State.ostRd_kept (Kept.snd e17 (State.bpmAlloc_kept h3))

theorem State.ostBfree_kept {t w} (h : Kept s₀ s) : Kept s₀ (State.ostBfree s t w) := by
  unfold State.ostBfree
  extract_lets +onlyGivenNames x1
  clear_value x1
  refine State.ostSlot_kept ?_ ?_
  · exact h
  · intro s2 x3 h4
    extract_lets +onlyGivenNames x5
    clear_value x5
    extract_lets +onlyGivenNames s6
    have h7 : Kept s₀ s6 := by
      dsimp -zeta only [s6]
      exact State.setSlot_kept h4
    clear_value s6
    exact Kept.ite (State.ostRd_kept (State.ostRelease_kept h7)) (State.ostRd_kept (State.bpmDoubleFree_kept h7))

theorem State.bufBytesAt_kept {h' off k} (h : Kept s₀ s) : Kept s₀ (State.bufBytesAt s h' off k).2 := by
  unfold State.bufBytesAt
  extract_lets +onlyGivenNames bs1
  clear_value bs1
  dsimp -zeta only
  exact h.met

theorem State.ostBufFail_kept {t i x a} (h : Kept s₀ s) : Kept s₀ (State.ostBufFail s t i x a) := by
  unfold State.ostBufFail
  extract_lets +onlyGivenNames rq1
  clear_value rq1
  extract_lets +onlyGivenNames s2
  have h3 : Kept s₀ s2 := by
    dsimp -zeta only [s2]
    exact State.setSlot_kept h
  clear_value s2
  exact State.thrFault_kept (Kept.ite (State.bpmRelease_kept h3) h3)

theorem State.ostBld_kept {t w} (h : Kept s₀ s) : Kept s₀ (State.ostBld s t w) := by
  unfold State.ostBld
  extract_lets +onlyGivenNames x1
  clear_value x1
  extract_lets +onlyGivenNames x2
  clear_value x2
  extract_lets +onlyGivenNames x3
  clear_value x3
  refine State.ostOwnSlot_kept ?_ ?_
  · exact h
  · intro s4 x5 h6
    refine Kept.ite ?_ ?_
    · exact State.thrFault_kept h6
    · refine Kept.ite ?_ ?_
      · exact State.ostWait_kept h6
      · refine Kept.ite ?_ ?_
        · exact State.thrFault_kept h6
        · split
          · rename_i x7 s8 e9
            exact State.ostBufFail_kept (Kept.snd e9 (State.readBuf_kept h6))
          · rename_i x10 s11 e12
            split
            · rename_i x13 x14 s15 e16
              exact State.ostWait_kept (Kept.snd e16 (State.bufBytesAt_kept (Kept.snd e12 (State.readBuf_kept h6))))

theorem State.bufPut_kept {h'1 off v} (h : Kept s₀ s) : Kept s₀ (State.bufPut s h'1 off v) := by
  unfold State.bufPut
  split
  · rename_i x1 e2
    exact h
  · rename_i x3 x4 e5
    extract_lets +onlyGivenNames x6
    clear_value x6
    extract_lets +onlyGivenNames x7
    clear_value x7
    extract_lets +onlyGivenNames s8
    have h9 : Kept s₀ s8 := by
      dsimp -zeta only [s8]
      exact Kept.met h
    clear_value s8
    exact State.setBuf_kept h9

theorem State.ostBst_kept {t w} (h : Kept s₀ s) : Kept s₀ (State.ostBst s t w) := by
  unfold State.ostBst
  extract_lets +onlyGivenNames x1
  clear_value x1
  extract_lets +onlyGivenNames x2
  clear_value x2
  extract_lets +onlyGivenNames x3
  clear_value x3
  refine State.ostOwnSlot_kept ?_ ?_
  · exact h
  · intro s4 x5 h6
    refine Kept.ite ?_ ?_
    · exact State.thrFault_kept h6
    · refine Kept.ite ?_ ?_
      · exact State.thrFault_kept h6
      · split
        · rename_i x7 s8 e9
          exact State.ostBufFail_kept (Kept.snd e9 (State.readBuf_kept h6))
        · rename_i x10 s11 e12
          exact State.ostWait_kept (State.bufPut_kept (Kept.snd e12 (State.readBuf_kept h6)))

theorem State.ostHput_kept {t w} (h : Kept s₀ s) : Kept s₀ (State.ostHput s t w) := by
  unfold State.ostHput
  extract_lets +onlyGivenNames i1
  clear_value i1
  refine State.ostSlot_kept h ?_
  intro s2 b3 h4
  exact State.ostRd_kept (State.setSlot_kept h4)

theorem State.ostHtake_kept {t w} (h : Kept s₀ s) : Kept s₀ (State.ostHtake s t w) := by
  unfold State.ostHtake
  extract_lets +onlyGivenNames i1
  clear_value i1
  extract_lets +onlyGivenNames h2
  clear_value h2
  refine State.ostEmpty_kept h ?_
  intro s3 h4
  extract_lets +onlyGivenNames x5
  clear_value x5
  exact Kept.ite (State.thrFault_kept h4) (State.ostOn_kept (State.setSlot_kept h4))

theorem State.ostBsend_kept {t w} (h : Kept s₀ s) : Kept s₀ (State.ostBsend s t w) := by
  unfold State.ostBsend
  extract_lets +onlyGivenNames x1
  clear_value x1
  extract_lets +onlyGivenNames x2
  clear_value x2
  extract_lets +onlyGivenNames x3
  clear_value x3
  extract_lets +onlyGivenNames x4
  clear_value x4
  extract_lets +onlyGivenNames x5
  clear_value x5
  extract_lets +onlyGivenNames x6
  clear_value x6
  refine State.ostOwnSlot_kept ?_ ?_
  · exact h
  · intro s7 x8 h9
    refine Kept.ite ?_ ?_
    · exact State.thrFault_kept h9
    · split
      · rename_i x10 s11 e12
        exact State.ostBufFail_kept (Kept.snd e12 (State.readBuf_kept h9))
      · rename_i x13 s14 e15
        split
        · rename_i x16 x17 s18 e19
          extract_lets +onlyGivenNames x20
          clear_value x20
          extract_lets +onlyGivenNames s21
          have h22 : Kept s₀ s21 := by
            dsimp -zeta only [s21]
            exact State.bufPut_kept (Kept.snd e19 (State.bufBytesAt_kept (Kept.snd e15 (State.readBuf_kept h9))))
          clear_value s21
          extract_lets +onlyGivenNames x23
          clear_value x23
          extract_lets +onlyGivenNames s24
          have h25 : Kept s₀ s24 := by
            dsimp -zeta only [s24]
            exact State.setSlot_kept h22
          clear_value s24
          refine Kept.ite ?_ ?_
          · exact State.ostOn_kept (State.pktGone_kept (State.xdrop_kept h25))
          · split
            · rename_i x26 s27 e28
              exact State.ostOn_kept (Kept.snd e28 (State.tmDirect_kept h25))
            · rename_i x29 s30 e31
              exact State.ostOn_kept (State.pktGone_kept (Kept.snd e31 (State.tmDirect_kept h25)))

theorem State.custEntry_kept {n} (h : Kept s₀ s) : Kept s₀ (State.custEntry s n) := by
  unfold State.custEntry
  refine Kept.ite ?_ ?_
  · exact h
  · split
    · rename_i x1 e2
      exact State.cause_kept h
    · rename_i x3 x4 x5 e6
      exact State.addCnt_kept (State.thrStart_kept h)

theorem State.custCheckDone_kept {n} (h : Kept s₀ s) : Kept s₀ (State.custCheckDone s n) := by
  unfold State.custCheckDone
  refine Kept.ite h ?_
  split
  · exact State.custEntry_kept (State.resetReg_kept (State.custResult_kept (State.setCustState_kept h)))
  · extract_lets +onlyGivenNames s7
    have h8 : Kept s₀ s7 := by
      dsimp -zeta only [s7]
      exact State.setReg_kept (State.custResult_kept (State.setCustState_kept h))
    clear_value s7
    exact State.cause_kept h8

theorem State.custBusy_kept {n} (h : Kept s₀ s) : Kept s₀ (State.custBusy s n) := by
  unfold State.custBusy
  exact State.cause_kept h

theorem State.custEnable_kept {n} (h : Kept s₀ s) : Kept s₀ (State.custEnable s n) := by
  unfold State.custEnable
  exact Kept.ite (State.custBusy_kept h) (Kept.ite (State.custResult_kept h) (State.custResult_kept
      (State.setCustState_kept (State.setBit_kept h))))

theorem State.custDisable_kept {n} (h : Kept s₀ s) : Kept s₀ (State.custDisable s n) := by
  unfold State.custDisable
  refine Kept.ite (State.custBusy_kept h) ?_
  extract_lets +onlyGivenNames s1
  have h2 : Kept s₀ s1 := by
    dsimp -zeta only [s1]
    exact State.custResult_kept (State.setCustState_kept (State.setBit_kept h))
  clear_value s1
  refine Kept.foldl h2 ?_
  intro s3 x4 h5
  exact State.thrFault_kept h5

theorem State.psStep_kept {n} (h : Kept s₀ s) : Kept s₀ (State.psStep s n) := by
  unfold State.psStep
  exact State.setFld_kept h

theorem State.psWrite_kept {f n a v} (h : Kept s₀ s) : Kept s₀ (State.psWrite s f n a v) := by
  unfold State.psWrite
  extract_lets +onlyGivenNames pc1
  clear_value pc1
  extract_lets +onlyGivenNames x2
  extract_lets +onlyGivenNames x3
  have h4 : Kept s₀ x3 := by
    dsimp -zeta only [x3]
    exact Kept.ite (State.accessViolation_kept h) (Kept.ite (State.custBusy_kept h) h.putPs)
  clear_value x3
  exact State.psStep_kept h4

theorem State.supStart_kept {n} (h : Kept s₀ s) : Kept s₀ (State.supStart s n) := by
  unfold State.supStart
  split
  · rename_i x1 e2
    exact h
  · rename_i x3 x4 e5
    exact Kept.ite (State.thrStart_kept h) h

theorem State.supRestart_kept {n} (h : Kept s₀ s) : Kept s₀ (State.supRestart s n) := by
  unfold State.supRestart
  split
  · rename_i x1 e2
    exact h
  · rename_i x3 x4 e5
    exact Kept.ite (State.supStart_kept (State.thrReset_kept h)) h

theorem State.fwLoad_kept {n ws} (h : Kept s₀ s) : Kept s₀ (State.fwLoad s n ws) := by
  unfold State.fwLoad
  extract_lets +onlyGivenNames old new
  refine Kept.ite h ?_
  extract_lets +onlyGivenNames s1
  have h1 : Kept s₀ s1 := Kept.foldl h fun _ _ h => State.thrReset_kept h
  clear_value s1 new
  extract_lets +onlyGivenNames keep ps bad o s2
  have h2 : Kept s₀ s2 := by
    refine h1.gen rfl rfl (List.prefix_refl _) (Nat.le_refl _) fun c => ⟨c.1, c.2, c.3, c.4, c.5, c.6, ?_, SMap.wf_filter
        _ _ _ c.8, c.9, c.10, c.11⟩
    have hk : SMap.wf (fun _ => (0 : Word)) keep = true := SMap.wf_filter _ _ _ c.7
    have : ∀ (l m : SMap Word), SMap.wf (fun _ => 0) m = true →
        SMap.wf (fun _ => 0) (l.foldl (fun m e => SMap.put (fun _ => 0) m e.1 e.2) m) = true := by
      intro l
      induction l with
      | nil => exact fun _ h => h
      | cons x l ih => exact fun m h => ih _ (SMap.wf_put _ _ _ _ h)
    exact this new keep hk
  exact State.supStart_kept (State.setBit_kept h2)

theorem State.fwReseat_kept {n ws} (h : Kept s₀ s) : Kept s₀ (State.fwReseat s n ws) :=
  h.gen rfl rfl (List.prefix_refl _) (Nat.le_refl _) fun c =>
    ⟨c.1, c.2, c.3, c.4, c.5, c.6, SMap.wf_foldl _ _ _ _ (SMap.wf_filter _ _ _ c.7) fun m x hm => by
      split
      · exact SMap.wf_put _ _ _ _ hm
      · exact hm, SMap.wf_filter _ _ _ c.8, c.9, c.10, c.11⟩

theorem State.dataClear_kept {p} (h : Kept s₀ s) : Kept s₀ (State.dataClear s p) := by
  unfold State.dataClear
  exact h.dropData

theorem State.ostReset_kept {n} (h : Kept s₀ s) : Kept s₀ (State.ostReset s n) := by
  unfold State.ostReset
  extract_lets +onlyGivenNames s1
  have h2 : Kept s₀ s1 := by
    dsimp -zeta only [s1]
    refine Kept.foldl h ?_
    intro s3 x4 h5
    exact State.thrReset_kept h5
  clear_value s1
  extract_lets +onlyGivenNames s6
  have h7 : Kept s₀ s6 := by
    dsimp -zeta only [s6]
    refine Kept.foldl h2 ?_
    intro s8 x9 h10
    refine State.setExcQ_kept ?_
    refine Kept.foldl h10 ?_
    intro s11 x12 h13
    exact State.bpmRelease_kept h13
  clear_value s6
  extract_lets +onlyGivenNames qs14
  clear_value qs14
  exact State.resetReg_kept (State.dataClear_kept (State.setFq_kept h7))

theorem State.ostRelease1_kept {n} (h : Kept s₀ s) : Kept s₀ (State.ostRelease1 s n) := by
  unfold State.ostRelease1
  extract_lets +onlyGivenNames s1
  have h2 : Kept s₀ s1 := by
    dsimp -zeta only [s1]
    exact State.supStart_kept h
  clear_value s1
  exact Kept.ite (State.custEntry_kept h2) h2

theorem State.quadMove_kept {q n} (h : Kept s₀ s) : Kept s₀ (State.quadMove s q n) := by
  unfold State.quadMove
  extract_lets +onlyGivenNames s1
  have h2 : Kept s₀ s1 := by
    dsimp -zeta only [s1]
    refine Kept.foldl ?_ ?_
    · exact h
    · intro s3 x4 h5
      exact State.thrReset_kept h5
  clear_value s1
  exact State.dataClear_kept (State.setFld_kept h2)

end Sys2Proof.Machine
end

