-- ==== Sys2Proof/Laws/KeptD.lean ====
section
/-! SUPPORT. What every operation of Machine/ (Dma, Pst, Side, TimeLink, Tx) keeps: one lemma for each, which the lemmas about its callers cite. -/

namespace Sys2Proof.Machine

variable {s₀ s : State}

/-! ### Machine/Dma.lean -/

theorem State.ringError_kept {f r code index} (h : Kept s₀ s) : Kept s₀ (State.ringError s f r code index) := by
  unfold State.ringError
  extract_lets +onlyGivenNames s1
  have h2 : Kept s₀ s1 := by
    dsimp -zeta only [s1]
    exact State.setBit_kept h
  clear_value s1
  extract_lets +onlyGivenNames s3
  have h4 : Kept s₀ s3 := by
    dsimp -zeta only [s3]
    exact State.setReg_kept h2
  clear_value s3
  exact State.arise_kept h4

theorem State.tailWrite_kept {f r v} (h : Kept s₀ s) : Kept s₀ (State.tailWrite s f r v) := by
  unfold State.tailWrite
  extract_lets +onlyGivenNames t1
  clear_value t1
  extract_lets +onlyGivenNames x2
  clear_value x2
  refine Kept.ite (State.setFld_kept h) ?_
  extract_lets +onlyGivenNames x3
  clear_value x3
  extract_lets +onlyGivenNames x4
  clear_value x4
  exact Kept.ite (State.ringError_kept h) (State.setFld_kept h)

theorem State.ringCtlWrite_kept {f r v} (h : Kept s₀ s) : Kept s₀ (State.ringCtlWrite s f r v) := by
  unfold State.ringCtlWrite
  extract_lets +onlyGivenNames x1
  clear_value x1
  extract_lets +onlyGivenNames x2
  clear_value x2
  extract_lets +onlyGivenNames x3
  clear_value x3
  extract_lets +onlyGivenNames x4
  clear_value x4
  extract_lets +onlyGivenNames s5
  have h6 : Kept s₀ s5 := by
    dsimp -zeta only [s5]
    exact Kept.ite h (Kept.ite (State.cause_kept h) (State.setFld_kept h))
  clear_value s5
  extract_lets +onlyGivenNames s7
  have h8 : Kept s₀ s7 := by
    dsimp -zeta only [s7]
    exact State.setBit_kept h6
  clear_value s7
  exact Kept.ite (Kept.ite (State.ringError_kept h8) h8) (State.setReg_kept (State.setReg_kept (State.setBit_kept h8)))

theorem State.ringDone_kept {f r len handle code} (h : Kept s₀ s) : Kept s₀ (State.ringDone s f r len handle code) := by
  unfold State.ringDone
  extract_lets +onlyGivenNames x1
  clear_value x1
  extract_lets +onlyGivenNames s2
  have h3 : Kept s₀ s2 := by
    dsimp -zeta only [s2]
    exact State.emit_kept h
  clear_value s2
  extract_lets +onlyGivenNames s4
  have h5 : Kept s₀ s4 := by
    dsimp -zeta only [s4]
    exact State.setFld_kept h3
  clear_value s4
  exact State.causeBit_kept h5

theorem State.dmaServed_kept {f r} (h : Kept s₀ s) : Kept s₀ (State.dmaServed s f r) := by
  unfold State.dmaServed
  exact Kept.ite h (Kept.any h)

theorem State.ringTake_kept {f r d err go} (h : Kept s₀ s) (hg5 : ∀ a0, Kept s₀ a0 → Kept s₀ (go a0)) : Kept s₀
    (State.ringTake s f r d err go) := by
  unfold State.ringTake
  refine Kept.ite ?_ ?_
  · exact h
  · extract_lets +onlyGivenNames s1
    have h2 : Kept s₀ s1 := by
      dsimp -zeta only [s1]
      exact State.dmaServed_kept h
    clear_value s1
    exact Kept.ite (State.ringError_kept h2) (Kept.ite (State.ringError_kept h2) (hg5 _ h2))

theorem State.ringTimeout_kept {f r} (h : Kept s₀ s) : Kept s₀ (State.ringTimeout s f r) := by
  unfold State.ringTimeout
  exact Kept.ite h (State.ringError_kept h)

theorem State.setKept_kept {f l} (h : Kept s₀ s) : Kept s₀ (State.setKept s f l) := by
  unfold State.setKept
  exact h.any

theorem State.dmaFree_kept {f h'} (h : Kept s₀ s) : Kept s₀ (State.dmaFree s f h') := by
  unfold State.dmaFree
  exact Kept.ite (State.bpmDoubleFree_kept h) (Kept.ite (State.bpmRelease_kept (State.setKept_kept h)) (State.cause_kept h))

theorem State.txRefuse_kept {f code} (h : Kept s₀ s) : Kept s₀ (State.txRefuse s f code) := by
  unfold State.txRefuse
  exact State.cause_kept (State.addCnt_kept (State.ringDone_kept h))

theorem State.txInject_kept {f d h'3 len} (h : Kept s₀ s) : Kept s₀ (State.txInject s f d h'3 len) := by
  unfold State.txInject
  extract_lets +onlyGivenNames s1
  have h2 : Kept s₀ s1 := by
    dsimp -zeta only [s1]
    exact State.addCnt_kept (State.ringDone_kept h)
  clear_value s1
  extract_lets +onlyGivenNames x3
  clear_value x3
  extract_lets +onlyGivenNames x4
  clear_value x4
  extract_lets +onlyGivenNames x5
  clear_value x5
  refine Kept.ite ?_ ?_
  · exact State.pktGone_kept (State.xdrop_kept h2)
  · split
    · rename_i x6 s7 e8
      exact Kept.snd e8 (State.tmDirect_kept h2)
    · rename_i x9 s10 e11
      exact State.pktGone_kept (Kept.snd e11 (State.tmDirect_kept h2))

theorem State.dmaTx_kept {f d frame err} (h : Kept s₀ s) : Kept s₀ (State.dmaTx s f d frame err) := by
  unfold State.dmaTx
  refine State.ringTake_kept ?_ ?_
  · exact h
  · intro s1 h2
    extract_lets +onlyGivenNames x3
    clear_value x3
    extract_lets +onlyGivenNames x4
    clear_value x4
    extract_lets +onlyGivenNames x5
    clear_value x5
    refine Kept.ite ?_ ?_
    · exact State.txRefuse_kept h2
    · refine Kept.ite ?_ ?_
      · extract_lets +onlyGivenNames x6
        clear_value x6
        refine Kept.ite ?_ ?_
        · exact State.txRefuse_kept h2
        · refine Kept.ite ?_ ?_
          · split
            · rename_i x7 x8 s9 e10
              exact State.txRefuse_kept (Kept.snd e10 (State.freeBool_kept h2))
          · refine Kept.ite ?_ ?_
            · split
              · rename_i x11 s12 e13
                exact State.bpmRelease_kept (State.setKept_kept (State.ringError_kept (Kept.snd e13
                    (State.readBuf_kept h2))))
              · rename_i x14 s15 e16
                split
                · rename_i x17 x18 s19 e20
                  extract_lets +onlyGivenNames x21
                  clear_value x21
                  exact State.txInject_kept (State.setKept_kept (State.bufPut_kept (Kept.snd e20
                      (State.bufBytesAt_kept (Kept.snd e16 (State.readBuf_kept h2))))))
            · exact State.txInject_kept (State.setKept_kept h2)
      · extract_lets +onlyGivenNames x22
        clear_value x22
        split
        · rename_i x23 x24 s25 e26
          exact State.txInject_kept (Kept.snd e26 (State.bpmAlloc_kept h2))
        · rename_i x27 s28 e29
          exact State.txRefuse_kept (Kept.snd e29 (State.bpmAlloc_kept h2))
        · rename_i x30 s31 e32
          exact State.txRefuse_kept (Kept.snd e32 (State.bpmAlloc_kept h2))
        · rename_i x33 s34 e35
          exact State.txRefuse_kept (Kept.snd e35 (State.bpmAlloc_kept h2))

theorem State.ringBufError_kept {f r h'3 free} (h : Kept s₀ s) (hg4 : ∀ a0, Kept s₀ a0 → Kept s₀ (free a0)) : Kept s₀
    (State.ringBufError s f r h'3 free) := by
  unfold State.ringBufError
  extract_lets +onlyGivenNames s1
  have h2 : Kept s₀ s1 := by
    dsimp -zeta only [s1]
    exact State.ringError_kept h
  clear_value s1
  exact Kept.ite (hg4 _ h2) h2

theorem State.dmaExc_kept {f r d err} (h : Kept s₀ s) : Kept s₀ (State.dmaExc s f r d err) := by
  unfold State.dmaExc
  refine Kept.ite ?_ ?_
  · exact h
  · split
    · rename_i x1 e2
      exact h
    · rename_i x3 x4 x5 e6
      refine State.ringTake_kept ?_ ?_
      · exact h
      · intro s7 h8
        refine Kept.ite ?_ ?_
        · exact State.excNotMade_kept (State.setRingQ_kept h8)
        · split
          · rename_i x9 s10 e11
            refine State.ringBufError_kept ?_ ?_
            · exact Kept.snd e11 (State.readBuf_kept h8)
            · intro s12 h13
              exact State.bpmRelease_kept (State.setRingQ_kept h13)
          · rename_i x14 s15 e16
            extract_lets +onlyGivenNames s17
            have h18 : Kept s₀ s17 := by
              dsimp -zeta only [s17]
              exact State.setRingQ_kept (Kept.snd e16 (State.readBuf_kept h8))
            clear_value s17
            split
            · rename_i x19 x20 s21 e22
              extract_lets +onlyGivenNames x23
              clear_value x23
              extract_lets +onlyGivenNames x24
              clear_value x24
              extract_lets +onlyGivenNames x25
              clear_value x25
              extract_lets +onlyGivenNames x26
              clear_value x26
              extract_lets +onlyGivenNames s27
              have h28 : Kept s₀ s27 := by
                dsimp -zeta only [s27]
                exact State.emit_kept (Kept.snd e22 (State.bufBytesAt_kept h18))
              clear_value s27
              extract_lets +onlyGivenNames s29
              have h30 : Kept s₀ s29 := by
                dsimp -zeta only [s29]
                exact Kept.ite (State.setKept_kept h28) (State.bpmRelease_kept h28)
              clear_value s29
              exact State.addCnt_kept (State.ringDone_kept h30)

theorem State.dmaSheet_kept {f d err} (h : Kept s₀ s) : Kept s₀ (State.dmaSheet s f d err) := by
  unfold State.dmaSheet
  split
  · rename_i x1 e2
    exact h
  · rename_i x3 x4 e5
    refine State.ringTake_kept ?_ ?_
    · exact h
    · intro s6 h7
      refine Kept.ite ?_ ?_
      · exact State.cause_kept (State.ringDone_kept h7)
      · split
        · rename_i x8 s9 e10
          refine State.ringBufError_kept ?_ ?_
          · refine Kept.snd e10 ?_
            unfold Option.elim
            split
            · rename_i x11 x12 x13 x14 e15
              dsimp -zeta only
              exact State.readBuf_kept h7
            · rename_i x16 x17 x18 e19
              exact h7
          · intro s20 h21
            exact State.sheetLose_kept h21
        · rename_i x22 s23 e24
          extract_lets +onlyGivenNames s25
          have h26 : Kept s₀ s25 := by
            dsimp -zeta only [s25]
            refine State.emit_kept ?_
            refine Kept.snd e24 ?_
            unfold Option.elim
            split
            · rename_i x27 x28 x29 x30 e31
              dsimp -zeta only
              exact State.readBuf_kept h7
            · rename_i x32 x33 x34 e35
              exact h7
          clear_value s25
          exact State.addCnt_kept (State.wbExported_kept (State.ringDone_kept h26))

theorem State.excRingClear_kept {f} (h : Kept s₀ s) : Kept s₀ (State.excRingClear s f) := by
  unfold State.excRingClear
  refine Kept.foldl ?_ ?_
  · exact h
  · intro s1 x2 h3
    extract_lets +onlyGivenNames x4
    clear_value x4
    exact Kept.ite (State.setPipe_kept h3) h3

theorem State.dmaRelease_kept {f} (h : Kept s₀ s) : Kept s₀ (State.dmaRelease s f) := by
  unfold State.dmaRelease
  extract_lets +onlyGivenNames s1
  have h2 : Kept s₀ s1 := by
    dsimp -zeta only [s1]
    exact State.excRingClear_kept (State.bpmReleaseAll_kept h)
  clear_value s1
  exact State.setKept_kept (State.setRingQ_kept (State.setRingQ_kept h2))

theorem State.dmaPitchReset_kept {n} (h : Kept s₀ s) : Kept s₀ (State.dmaPitchReset s n) := by
  unfold State.dmaPitchReset
  extract_lets +onlyGivenNames s1
  have h2 : Kept s₀ s1 := by
    dsimp -zeta only [s1]
    exact State.dmaRelease_kept h
  clear_value s1
  extract_lets +onlyGivenNames s3
  have h4 : Kept s₀ s3 := by
    dsimp -zeta only [s3]
    refine Kept.foldl h2 ?_
    intro s5 x6 h7
    extract_lets +onlyGivenNames s8
    have h9 : Kept s₀ s8 := by
      dsimp -zeta only [s8]
      exact State.setBit_kept (State.setBit_kept h7)
    clear_value s8
    exact State.setReg_kept (State.setReg_kept h9)
  clear_value s3
  exact State.clearCnts_kept h4

theorem State.flr_kept {f} (h : Kept s₀ s) : Kept s₀ (State.flr s f) := by
  unfold State.flr
  refine Kept.ite h ?_
  extract_lets +onlyGivenNames s1
  have h2 : Kept s₀ s1 := by
    dsimp -zeta only [s1]
    exact State.dmaRelease_kept h
  clear_value s1
  extract_lets +onlyGivenNames s3
  have h4 : Kept s₀ s3 := by
    dsimp -zeta only [s3]
    exact State.resetRegs_kept h2
  clear_value s3
  exact State.clearCnts_kept h4

theorem State.hotReset_kept (h : Kept s₀ s) : Kept s₀ (State.hotReset s) := by
  unfold State.hotReset
  extract_lets +onlyGivenNames s1
  have h2 : Kept s₀ s1 := by
    dsimp -zeta only [s1]
    refine Kept.foldl h ?_
    intro s3 x4 h5
    exact State.flr_kept h5
  clear_value s1
  exact h2.any

/-! ### Machine/Pst.lean -/

theorem State.setDomBit_kept {reg d b} (h : Kept s₀ s) : Kept s₀ (State.setDomBit s reg d b) := by
  unfold State.setDomBit
  extract_lets +onlyGivenNames v1
  clear_value v1
  exact State.setReg_kept h

theorem State.noGrant_kept {r} (h : Kept s₀ s) : Kept s₀ (State.noGrant s r) := by
  unfold State.noGrant
  exact State.setFld_kept (State.setReg_kept h)

theorem State.domDown_kept {d} (h : Kept s₀ s) : Kept s₀ (State.domDown s d) := by
  unfold State.domDown
  extract_lets +onlyGivenNames s1
  have h2 : Kept s₀ s1 := by
    dsimp -zeta only [s1]
    exact State.setDomBit_kept (State.setBit_kept h)
  clear_value s1
  exact Kept.ite (State.setBit_kept (State.setBit_kept (State.setBit_kept h2))) (Kept.ite (State.noGrant_kept h2)
      (Kept.ite (State.noGrant_kept h2) h2))

theorem State.domFailed_kept {d} (h : Kept s₀ s) : Kept s₀ (State.domFailed s d) := by
  unfold State.domFailed
  extract_lets +onlyGivenNames had1
  clear_value had1
  extract_lets +onlyGivenNames s2
  have h3 : Kept s₀ s2 := by
    dsimp -zeta only [s2]
    exact State.setDomBit_kept h
  clear_value s2
  exact Kept.ite (State.cause_kept h3) (State.ariseF_kept h3)

theorem State.setRegion_kept {r q} (h : Kept s₀ s) : Kept s₀ (State.setRegion s r q) := by
  unfold State.setRegion
  exact h.any

theorem State.clipNote_kept (h : Kept s₀ s) : Kept s₀ (State.clipNote s) := by
  unfold State.clipNote
  extract_lets +onlyGivenNames x1
  clear_value x1
  extract_lets +onlyGivenNames x2
  clear_value x2
  extract_lets +onlyGivenNames x3
  extract_lets +onlyGivenNames s4
  have h5 : Kept s₀ s4 := by
    dsimp -zeta only [s4]
    exact Kept.any h
  clear_value s4
  refine Kept.ite ?_ ?_
  · exact h5
  · extract_lets +onlyGivenNames s6
    have h7 : Kept s₀ s6 := by
      dsimp -zeta only [s6]
      exact State.cause_kept (State.addCnt_kept h5)
    clear_value s6
    exact Kept.ite (State.ariseF_kept h7) (State.cause_kept h7)

theorem State.kRefresh_kept (h : Kept s₀ s) : Kept s₀ (State.kRefresh s) := by
  unfold State.kRefresh
  extract_lets +onlyGivenNames x1
  clear_value x1
  refine State.clipNote_kept ?_
  refine Kept.foldl ?_ ?_
  · exact h
  · intro s2 x3 h4
    extract_lets +onlyGivenNames x5
    clear_value x5
    extract_lets +onlyGivenNames x6
    clear_value x6
    extract_lets +onlyGivenNames x7
    clear_value x7
    extract_lets +onlyGivenNames x8
    clear_value x8
    exact State.setReg_kept h4

theorem State.forceWrite_kept {r v} (h : Kept s₀ s) : Kept s₀ (State.forceWrite s r v) := by
  unfold State.forceWrite
  extract_lets +onlyGivenNames s1
  have h2 : Kept s₀ s1 := by
    dsimp -zeta only [s1]
    exact State.setReg_kept h
  clear_value s1
  exact State.kRefresh_kept (Kept.any h2)

theorem State.grantClip_kept (h : Kept s₀ s) : Kept s₀ (State.grantClip s) := by
  unfold State.grantClip
  extract_lets +onlyGivenNames x1
  have h2 : ∀ a3, Kept s₀ a3 → Kept s₀ (x1 a3) := by
    intro s4 h5
    dsimp -zeta only [x1]
    extract_lets +onlyGivenNames x6
    clear_value x6
    refine Kept.foldl ?_ ?_
    · exact h5
    · intro s7 x8 h9
      exact State.setFld_kept h9
  clear_value x1
  exact h2 _ (h2 _ h)

theorem State.domUp_kept {d} (h : Kept s₀ s) : Kept s₀ (State.domUp s d) := by
  unfold State.domUp
  extract_lets +onlyGivenNames s1
  have h2 : Kept s₀ s1 := by
    dsimp -zeta only [s1]
    exact State.setBit_kept h
  clear_value s1
  exact Kept.ite (State.kRefresh_kept (State.grantClip_kept h2)) h2

theorem State.pourAll_kept {left cs} (h : Kept s₀ s) : Kept s₀ (State.pourAll s left cs).2 := by
  unfold State.pourAll
  extract_lets +onlyGivenNames x1
  clear_value x1
  extract_lets +onlyGivenNames x2
  clear_value x2
  extract_lets +onlyGivenNames x3
  clear_value x3
  split
  · rename_i x4 x5 s6 e7
    split
    · rename_i x8
      dsimp -zeta only
      exact Kept.snd e7 (State.freeWord_kept h)
    · rename_i x9
      exact h

theorem State.plan_kept {die} (h : Kept s₀ s) : Kept s₀ (State.plan s die).2 := by
  unfold State.plan
  extract_lets +onlyGivenNames x1
  clear_value x1
  extract_lets +onlyGivenNames x2
  clear_value x2
  extract_lets +onlyGivenNames x3
  clear_value x3
  extract_lets +onlyGivenNames x4
  clear_value x4
  extract_lets +onlyGivenNames x5
  clear_value x5
  extract_lets +onlyGivenNames x6
  clear_value x6
  extract_lets +onlyGivenNames x7
  clear_value x7
  extract_lets +onlyGivenNames x8
  clear_value x8
  extract_lets +onlyGivenNames x9
  clear_value x9
  extract_lets +onlyGivenNames x10
  clear_value x10
  extract_lets +onlyGivenNames x11
  clear_value x11
  extract_lets +onlyGivenNames x12
  clear_value x12
  split
  · rename_i e13
    exact h
  · rename_i x14
    extract_lets +onlyGivenNames x15
    clear_value x15
    extract_lets +onlyGivenNames x16
    clear_value x16
    extract_lets +onlyGivenNames x17
    clear_value x17
    extract_lets +onlyGivenNames x18
    clear_value x18
    split
    · rename_i x19 x20 s21 e22
      extract_lets +onlyGivenNames x23
      clear_value x23
      extract_lets +onlyGivenNames x24
      clear_value x24
      dsimp -zeta only
      refine Kept.snd e22 ?_
      split
      · rename_i e25
        exact h
      · rename_i x26
        exact State.pourAll_kept h

theorem State.applyPlan_kept {pl} (h : Kept s₀ s) : Kept s₀ (State.applyPlan s pl) := by
  unfold State.applyPlan
  extract_lets +onlyGivenNames s1
  have h2 : Kept s₀ s1 := by
    dsimp -zeta only [s1]
    refine Kept.foldl ?_ ?_
    · exact h
    · intro s3 x4 h5
      exact State.noGrant_kept h5
  clear_value s1
  extract_lets +onlyGivenNames s6
  have h7 : Kept s₀ s6 := by
    dsimp -zeta only [s6]
    refine Kept.foldl ?_ ?_
    · exact h2
    · intro s8 x9 h10
      exact State.setReg_kept h10
  clear_value s6
  extract_lets +onlyGivenNames s11
  have h12 : Kept s₀ s11 := by
    dsimp -zeta only [s11]
    refine Kept.foldl ?_ ?_
    · exact h7
    · intro s13 x14 h15
      extract_lets +onlyGivenNames x16
      clear_value x16
      extract_lets +onlyGivenNames x17
      clear_value x17
      extract_lets +onlyGivenNames x18
      clear_value x18
      extract_lets +onlyGivenNames x19
      clear_value x19
      extract_lets +onlyGivenNames s20
      have h21 : Kept s₀ s20 := by
        dsimp -zeta only [s20]
        refine State.setReg_kept ?_
        split
        · rename_i x22
          exact State.freeWord_kept h15
        · rename_i x23
          exact h15
      clear_value s20
      exact State.setFld_kept h21
  clear_value s11
  extract_lets +onlyGivenNames s24
  have h25 : Kept s₀ s24 := by
    dsimp -zeta only [s24]
    exact State.grantClip_kept h12
  clear_value s24
  extract_lets +onlyGivenNames s26
  have h27 : Kept s₀ s26 := by
    dsimp -zeta only [s26]
    refine Kept.foldl ?_ ?_
    · exact h25
    · intro s28 x29 h30
      extract_lets +onlyGivenNames x31
      clear_value x31
      exact State.setReg_kept h30
  clear_value s26
  extract_lets +onlyGivenNames s32
  have h33 : Kept s₀ s32 := by
    dsimp -zeta only [s32]
    exact Kept.ite (State.cause_kept h27) h27
  clear_value s32
  exact State.kRefresh_kept h33

theorem State.unmetRise_kept {before} (h : Kept s₀ s) : Kept s₀ (State.unmetRise s before) := by
  unfold State.unmetRise
  exact Kept.ite (State.ariseF_kept h) h

theorem State.lgOff_kept {g} (h : Kept s₀ s) : Kept s₀ (State.lgOff s g) := by
  unfold State.lgOff
  extract_lets +onlyGivenNames x1
  clear_value x1
  extract_lets +onlyGivenNames s2
  have h3 : Kept s₀ s2 := by
    dsimp -zeta only [s2]
    exact State.domDown_kept h
  clear_value s2
  extract_lets +onlyGivenNames s4
  have h5 : Kept s₀ s4 := by
    dsimp -zeta only [s4]
    refine Kept.foldl ?_ ?_
    · exact h3
    · intro s6 x7 h8
      exact State.showLane_kept (State.rxOff_kept h8)
  clear_value s4
  exact State.synceCheck_kept (Kept.ite (State.ariseF_kept h5) h5)

theorem State.idlePolicy_kept (h : Kept s₀ s) : Kept s₀ (State.idlePolicy s) := by
  unfold State.idlePolicy
  refine Kept.foldl ?_ ?_
  · exact h
  · intro s1 x2 h3
    exact Kept.ite (State.lgOff_kept h3) h3

theorem State.regrant_kept {mv} (h : Kept s₀ s) : Kept s₀ (State.regrant s mv) := by
  unfold State.regrant
  extract_lets +onlyGivenNames s1
  have h2 : Kept s₀ s1 := by
    dsimp -zeta only [s1]
    exact h
  clear_value s1
  extract_lets +onlyGivenNames x3
  clear_value x3
  split
  · rename_i x4 x5 s6 e7
    extract_lets +onlyGivenNames x8
    clear_value x8
    extract_lets +onlyGivenNames s9
    have h10 : Kept s₀ s9 := by
      dsimp -zeta only [s9]
      refine State.setReg_kept ?_
      refine Kept.snd e7 ?_
      split
      · rename_i x11 x12 e13
        exact h
      · rename_i x14 e15
        exact State.freeWord_kept h
    clear_value s9
    extract_lets +onlyGivenNames s16
    have h17 : Kept s₀ s16 := by
      dsimp -zeta only [s16]
      exact Kept.ite (State.idlePolicy_kept h10) h10
    clear_value s16
    split
    · rename_i x18 x19 s20 e21
      extract_lets +onlyGivenNames s22
      have h23 : Kept s₀ s22 := by
        dsimp -zeta only [s22]
        exact State.applyPlan_kept (Kept.snd e21 (State.plan_kept h17))
      clear_value s22
      extract_lets +onlyGivenNames x24
      extract_lets +onlyGivenNames s25
      have h26 : Kept s₀ s25 := by
        dsimp -zeta only [s25]
        exact Kept.any h23
      clear_value s25
      exact State.unmetRise_kept h26

theorem State.takeMeasures_kept {o} (h : Kept s₀ s) : Kept s₀ (State.takeMeasures s o) := by
  unfold State.takeMeasures
  extract_lets +onlyGivenNames s1
  have h2 : Kept s₀ s1 := by
    dsimp -zeta only [s1]
    exact State.setReg_kept h
  clear_value s1
  extract_lets +onlyGivenNames s3
  have h4 : Kept s₀ s3 := by
    dsimp -zeta only [s3]
    exact State.setReg_kept h2
  clear_value s3
  extract_lets +onlyGivenNames s5
  have h6 : Kept s₀ s5 := by
    dsimp -zeta only [s5]
    refine Kept.foldl h4 ?_
    intro s7 x8 h9
    exact Kept.ite (State.setFld_kept h9) h9
  clear_value s5
  extract_lets +onlyGivenNames lk10
  clear_value lk10
  extract_lets +onlyGivenNames s11
  clear_value s11
  extract_lets +onlyGivenNames s12
  have h13 : Kept s₀ s12 := by
    dsimp -zeta only [s12]
    exact h6.any
  clear_value s12
  extract_lets +onlyGivenNames s14
  have h15 : Kept s₀ s14 := by
    dsimp -zeta only [s14]
    refine Kept.foldl h13 ?_
    intro s16 x17 h18
    exact State.setRegion_kept h18
  clear_value s14
  refine Kept.foldl h15 ?_
  intro s19 x20 h21
  extract_lets +onlyGivenNames ds22
  clear_value ds22
  exact State.setReg_kept h21

theorem State.nbRound_kept (h : Kept s₀ s) : Kept s₀ (State.nbRound s) := by
  unfold State.nbRound
  extract_lets +onlyGivenNames x1
  clear_value x1
  refine Kept.foldl ?_ ?_
  · exact h
  · intro s2 x3 h4
    exact Kept.ite h4 (State.setRegion_kept h4)

theorem State.grantRound_kept {o} (h : Kept s₀ s) : Kept s₀ (State.grantRound s o) := by
  unfold State.grantRound
  extract_lets +onlyGivenNames s1
  have h2 : Kept s₀ s1 := by
    dsimp -zeta only [s1]
    exact State.idlePolicy_kept h
  clear_value s1
  extract_lets +onlyGivenNames x3
  clear_value x3
  extract_lets +onlyGivenNames x4
  extract_lets +onlyGivenNames s5
  have h6 : Kept s₀ s5 := by
    dsimp -zeta only [s5]
    exact Kept.any h2
  clear_value s5
  exact Kept.ite (State.kRefresh_kept (Kept.ite (State.ariseF_kept h6) (State.cause_kept h6))) (State.regrant_kept
      (State.takeMeasures_kept (State.nbRound_kept h6)))

theorem State.inputDrop_kept {mv} (h : Kept s₀ s) : Kept s₀ (State.inputDrop s mv) := by
  unfold State.inputDrop
  exact Kept.ite (State.cause_kept (State.addCnt_kept (State.regrant_kept h))) h

theorem State.droopTrip_kept {r dip} (h : Kept s₀ s) : Kept s₀ (State.droopTrip s r dip) := by
  unfold State.droopTrip
  refine Kept.ite ?_ ?_
  · exact h
  · extract_lets +onlyGivenNames x1
    extract_lets +onlyGivenNames s2
    have h3 : Kept s₀ s2 := by
      dsimp -zeta only [s2]
      exact State.setRegion_kept h
    clear_value s2
    exact State.cause_kept (State.addCnt_kept (State.kRefresh_kept h3))

theorem State.droopRecover_kept {r} (h : Kept s₀ s) : Kept s₀ (State.droopRecover s r) := by
  unfold State.droopRecover
  extract_lets +onlyGivenNames x1
  clear_value x1
  refine Kept.ite ?_ ?_
  · exact h
  · extract_lets +onlyGivenNames x2
    clear_value x2
    exact State.kRefresh_kept (State.setRegion_kept h)

theorem State.marginLow_kept {r} (h : Kept s₀ s) : Kept s₀ (State.marginLow s r) := by
  unfold State.marginLow
  exact Kept.ite h (State.cause_kept (State.kRefresh_kept (State.setRegion_kept h)))

theorem State.thermRise_kept {before} (h : Kept s₀ s) : Kept s₀ (State.thermRise s before) := by
  unfold State.thermRise
  extract_lets +onlyGivenNames s1
  have h2 : Kept s₀ s1 := by
    dsimp -zeta only [s1]
    exact Kept.ite (State.ariseF_kept h) h
  clear_value s1
  exact Kept.ite (State.ariseF_kept h2) h2

theorem State.thermTrim_kept {ks r} (h : Kept s₀ s) : Kept s₀ (State.thermTrim s ks r) := by
  unfold State.thermTrim
  extract_lets +onlyGivenNames x1
  clear_value x1
  extract_lets +onlyGivenNames x2
  clear_value x2
  exact Kept.ite h (State.setRegion_kept h)

theorem State.beyondStart_kept {e} (h : Kept s₀ s) : Kept s₀ (State.beyondStart s e) := by
  unfold State.beyondStart
  extract_lets +onlyGivenNames x1
  clear_value x1
  extract_lets +onlyGivenNames x2
  clear_value x2
  extract_lets +onlyGivenNames x3
  extract_lets +onlyGivenNames s4
  have h5 : Kept s₀ s4 := by
    dsimp -zeta only [s4]
    exact Kept.any h
  clear_value s4
  extract_lets +onlyGivenNames s6
  have h7 : Kept s₀ s6 := by
    dsimp -zeta only [s6]
    exact Kept.ite h5 (State.addCnt_kept h5)
  clear_value s6
  exact Kept.ite (State.ariseF_kept h7) (State.cause_kept h7)

theorem State.equalEnd_kept {e} (h : Kept s₀ s) : Kept s₀ (State.equalEnd s e) := by
  unfold State.equalEnd
  extract_lets +onlyGivenNames x1
  extract_lets +onlyGivenNames s2
  have h3 : Kept s₀ s2 := by
    dsimp -zeta only [s2]
    exact Kept.any h
  clear_value s2
  exact Kept.ite (State.setRegion_kept h3) h3

theorem State.pairFound_kept {e far close} (h : Kept s₀ s) : Kept s₀ (State.pairFound s e far close) := by
  unfold State.pairFound
  extract_lets +onlyGivenNames x1
  extract_lets +onlyGivenNames s2
  have h3 : Kept s₀ s2 := by
    dsimp -zeta only [s2]
    exact Kept.ite (Kept.ite h (State.beyondStart_kept h)) (Kept.ite (Kept.any h) h)
  clear_value s2
  exact Kept.ite (State.equalEnd_kept h3) h3

theorem State.tempPair_kept {a b} (h : Kept s₀ s) : Kept s₀ (State.tempPair s a b) := by
  unfold State.tempPair
  split
  · rename_i x1 x2 x3 x4 e5 e6
    exact State.pairFound_kept h
  · rename_i x7 x8 x9
    exact h

theorem State.thermalSample_kept {ts} (h : Kept s₀ s) : Kept s₀ (State.thermalSample s ts) := by
  unfold State.thermalSample
  extract_lets +onlyGivenNames s1
  have h2 : Kept s₀ s1 := by
    dsimp -zeta only [s1]
    exact h
  clear_value s1
  extract_lets +onlyGivenNames s3
  have h4 : Kept s₀ s3 := by
    dsimp -zeta only [s3]
    refine Kept.foldl ?_ ?_
    · exact h
    · intro s5 x6 h7
      exact Kept.ite (State.setReg_kept h7) h7
  clear_value s3
  extract_lets +onlyGivenNames s8
  have h9 : Kept s₀ s8 := by
    dsimp -zeta only [s8]
    refine Kept.foldl ?_ ?_
    · exact h4
    · intro s10 x11 h12
      split
      · rename_i x13 e14
        exact h12
      · rename_i x15 x16 e17
        extract_lets +onlyGivenNames x18
        clear_value x18
        split
        · rename_i x19
          exact State.setRegion_kept h12
        · rename_i x20
          split
          · rename_i x21
            exact State.setRegion_kept h12
          · rename_i x22
            exact h12
  clear_value s8
  extract_lets +onlyGivenNames s23
  have h24 : Kept s₀ s23 := by
    dsimp -zeta only [s23]
    refine Kept.foldl ?_ ?_
    · exact h9
    · intro s25 x26 h27
      split
      · rename_i e28
        refine Kept.foldl ?_ ?_
        · exact h27
        · intro s29 x30 h31
          exact Kept.ite (State.lgOff_kept h31) h31
      · rename_i x32
        exact h27
  clear_value s23
  extract_lets +onlyGivenNames s33
  have h34 : Kept s₀ s33 := by
    dsimp -zeta only [s33]
    refine Kept.foldl ?_ ?_
    · exact h24
    · intro s35 x36 h37
      exact State.thermTrim_kept h37
  clear_value s33
  extract_lets +onlyGivenNames s38
  have h39 : Kept s₀ s38 := by
    dsimp -zeta only [s38]
    refine Kept.foldl ?_ ?_
    · exact h34
    · intro s40 x41 h42
      refine Kept.foldl ?_ ?_
      · exact h42
      · intro s43 x44 h45
        exact State.tempPair_kept h45
  clear_value s38
  exact State.unmetRise_kept (State.thermRise_kept (State.kRefresh_kept h39))

theorem State.neighbourEq_kept {a b q diff} (h : Kept s₀ s) : Kept s₀ (State.neighbourEq s a b q diff) := by
  unfold State.neighbourEq
  extract_lets +onlyGivenNames x1
  clear_value x1
  refine Kept.ite ?_ ?_
  · exact h
  · refine Kept.ite ?_ ?_
    · exact State.kRefresh_kept h
    · refine Kept.ite ?_ ?_
      · exact State.unmetRise_kept (State.kRefresh_kept (State.tempPair_kept h))
      · extract_lets +onlyGivenNames s2
        have h3 : Kept s₀ s2 := by
          dsimp -zeta only [s2]
          exact State.pairFound_kept h
        clear_value s2
        exact Kept.ite (State.kRefresh_kept (State.setRegion_kept h3)) h3

theorem State.lgAdmit_kept {g} (h : Kept s₀ s) : Kept s₀ (State.lgAdmit s g) := by
  unfold State.lgAdmit
  refine Kept.ite ?_ ?_
  · exact h
  · refine Kept.ite ?_ ?_
    · exact Kept.ite (State.cause_kept h) (State.ariseF_kept (Kept.any h))
    · split
      · rename_i x1 x2 s3 e4
        exact State.domUp_kept (Kept.any (Kept.snd e4 (State.freeWord_kept h)))

theorem State.lgWaitEnd_kept (h : Kept s₀ s) : Kept s₀ (State.lgWaitEnd s) := by
  unfold State.lgWaitEnd
  exact Kept.ite (Kept.any h) h

/-! ### Machine/Side.lean -/

theorem State.setI2c_kept {m r} (h : Kept s₀ s) : Kept s₀ (State.setI2c s m r) := by
  unfold State.setI2c
  exact Kept.any h

theorem State.i2cWrite_kept {f m v} (h : Kept s₀ s) : Kept s₀ (State.i2cWrite s f m v) := by
  unfold State.i2cWrite
  extract_lets +onlyGivenNames x1
  clear_value x1
  extract_lets +onlyGivenNames x2
  clear_value x2
  extract_lets +onlyGivenNames s3
  have h4 : Kept s₀ s3 := by
    dsimp -zeta only [s3]
    exact State.setReg_kept h
  clear_value s3
  refine Kept.ite ?_ ?_
  · exact h4
  · refine Kept.ite ?_ ?_
    · exact State.busyWrite_kept h4
    · refine Kept.ite ?_ ?_
      · exact State.setReg_kept h4
      · extract_lets +onlyGivenNames s5
        have h6 : Kept s₀ s5 := by
          dsimp -zeta only [s5]
          exact State.setI2c_kept h4
        clear_value s5
        exact State.setReg_kept (State.setBit_kept h6)

theorem State.i2cTries_kept {m n} (h : Kept s₀ s) : Kept s₀ (State.i2cTries s m n) := by
  unfold State.i2cTries
  refine Kept.ite ?_ ?_
  · exact State.setFld_kept h
  · split
    · rename_i x1 x2 s3 e4
      exact State.setFld_kept (Kept.snd e4 (State.freeWord_kept h))

theorem State.i2cRetry_kept {m} (h : Kept s₀ s) : Kept s₀ (State.i2cRetry s m) := by
  unfold State.i2cRetry
  extract_lets +onlyGivenNames x1
  clear_value x1
  refine Kept.ite ?_ ?_
  · extract_lets +onlyGivenNames s2
    have h3 : Kept s₀ s2 := by
      dsimp -zeta only [s2]
      exact State.emit_kept h
    clear_value s2
    exact State.i2cTries_kept (State.setI2c_kept h3)
  · exact h

theorem State.setDataWords_kept {a bs} (h : Kept s₀ s) : Kept s₀ (State.setDataWords s a bs) := by
  unfold State.setDataWords
  extract_lets +onlyGivenNames all1
  clear_value all1
  refine Kept.foldl h ?_
  intro s2 x3 h4
  exact State.setReg_kept h4

theorem State.i2cEnd_kept {m res done bs bus after} (h : Kept s₀ s) : Kept s₀ (State.i2cEnd s m res done bs bus after)
    := by
  unfold State.i2cEnd
  extract_lets +onlyGivenNames x1
  clear_value x1
  refine Kept.ite ?_ ?_
  · exact h
  · extract_lets +onlyGivenNames x2
    clear_value x2
    extract_lets +onlyGivenNames x3
    clear_value x3
    extract_lets +onlyGivenNames x4
    clear_value x4
    extract_lets +onlyGivenNames x5
    clear_value x5
    extract_lets +onlyGivenNames s6
    have h7 : Kept s₀ s6 := by
      dsimp -zeta only [s6]
      exact State.setFld_kept (State.setFld_kept h)
    clear_value s6
    extract_lets +onlyGivenNames s8
    have h9 : Kept s₀ s8 := by
      dsimp -zeta only [s8]
      exact State.setBit_kept (State.setBit_kept h7)
    clear_value s8
    extract_lets +onlyGivenNames s10
    have h11 : Kept s₀ s10 := by
      dsimp -zeta only [s10]
      exact Kept.ite h9 (State.emit_kept h9)
    clear_value s10
    extract_lets +onlyGivenNames s12
    have h13 : Kept s₀ s12 := by
      dsimp -zeta only [s12]
      exact Kept.ite h11 (State.setDataWords_kept h11)
    clear_value s12
    extract_lets +onlyGivenNames x14
    clear_value x14
    extract_lets +onlyGivenNames s15
    have h16 : Kept s₀ s15 := by
      dsimp -zeta only [s15]
      exact State.setI2c_kept h13
    clear_value s15
    extract_lets +onlyGivenNames x17
    extract_lets +onlyGivenNames s18
    have h19 : Kept s₀ s18 := by
      dsimp -zeta only [s18]
      exact Kept.any h16
    clear_value s18
    exact Kept.ite (Kept.ite (State.causeBit_kept h19) (State.arise_kept h19)) (Kept.ite (State.causeBit_kept h19) h19)

theorem State.cmisResult_kept {n r} (h : Kept s₀ s) : Kept s₀ (State.cmisResult s n r) := by
  unfold State.cmisResult
  exact State.setFld_kept h

theorem State.setCmis_kept {n q r} (h : Kept s₀ s) : Kept s₀ (State.setCmis s n q r) := by
  unfold State.setCmis
  exact Kept.any h

theorem State.cmisWrite_kept {f n v} (h : Kept s₀ s) : Kept s₀ (State.cmisWrite s f n v) := by
  unfold State.cmisWrite
  extract_lets +onlyGivenNames x1
  clear_value x1
  extract_lets +onlyGivenNames x2
  clear_value x2
  extract_lets +onlyGivenNames s3
  have h4 : Kept s₀ s3 := by
    dsimp -zeta only [s3]
    exact State.setReg_kept h
  clear_value s3
  refine Kept.ite ?_ ?_
  · exact h4
  · refine Kept.ite ?_ ?_
    · exact State.busyWrite_kept h4
    · refine Kept.ite ?_ ?_
      · exact State.cmisResult_kept h4
      · refine Kept.ite ?_ ?_
        · exact State.cmisResult_kept h4
        · refine Kept.ite ?_ ?_
          · exact State.cmisResult_kept h4
          · extract_lets +onlyGivenNames s5
            have h6 : Kept s₀ s5 := by
              dsimp -zeta only [s5]
              exact State.setCmis_kept h4
            clear_value s5
            exact State.cmisResult_kept (State.setBit_kept h6)

theorem State.cmisDone_kept {n res bs} (h : Kept s₀ s) : Kept s₀ (State.cmisDone s n res bs) := by
  unfold State.cmisDone
  extract_lets +onlyGivenNames x1
  clear_value x1
  extract_lets +onlyGivenNames x2
  clear_value x2
  refine Kept.ite ?_ ?_
  · exact h
  · split
    · rename_i x3 x4 x5 x6 e7
      extract_lets +onlyGivenNames x8
      clear_value x8
      extract_lets +onlyGivenNames x9
      clear_value x9
      extract_lets +onlyGivenNames s10
      have h11 : Kept s₀ s10 := by
        dsimp -zeta only [s10]
        exact State.setBit_kept (State.setCmis_kept h)
      clear_value s10
      refine Kept.ite ?_ ?_
      · exact State.cmisResult_kept h11
      · extract_lets +onlyGivenNames s12
        have h13 : Kept s₀ s12 := by
          dsimp -zeta only [s12]
          exact State.emit_kept (State.cmisResult_kept h11)
        clear_value s12
        exact Kept.ite (State.setDataWords_kept h13) h13

theorem State.cmisAbort_kept {n} (h : Kept s₀ s) : Kept s₀ (State.cmisAbort s n) := by
  unfold State.cmisAbort
  exact Kept.ite (State.cmisResult_kept (State.setBit_kept (State.setCmis_kept h))) h

theorem State.smbAnswer_kept {code ask block bs} (h : Kept s₀ s) : Kept s₀ (State.smbAnswer s code ask block bs) := by
  unfold State.smbAnswer
  refine Kept.ite ?_ ?_
  · exact h
  · split
    · rename_i x1 x2
      exact State.emit_kept h
    · rename_i x3
      exact State.emit_kept h
    · rename_i x4 x5
      exact Kept.ite (State.emit_kept h) (State.emit_kept h)

theorem State.scanShow_kept {ir} (h : Kept s₀ s) : Kept s₀ (State.scanShow s ir) := by
  unfold State.scanShow
  exact Kept.ite (State.emit_kept h) (Kept.ite (State.emit_kept h) h)

theorem State.setBsr_kept {bits} (h : Kept s₀ s) : Kept s₀ (State.setBsr s bits) := by
  unfold State.setBsr
  exact Kept.any h

theorem State.jtagTake_kept {ir dr} (h : Kept s₀ s) : Kept s₀ (State.jtagTake s ir dr) := by
  unfold State.jtagTake
  refine Kept.ite ?_ ?_
  · exact h
  · extract_lets +onlyGivenNames x1
    extract_lets +onlyGivenNames s2
    have h3 : Kept s₀ s2 := by
      dsimp -zeta only [s2]
      exact State.emit_kept (Kept.any h)
    clear_value s2
    exact Kept.ite (State.landsBack_kept h3) (State.scanShow_kept h3)

theorem State.jtagPreload_kept {bits} (h : Kept s₀ s) : Kept s₀ (State.jtagPreload s bits) := by
  unfold State.jtagPreload
  exact Kept.ite h (State.setBsr_kept (State.jtagTake_kept h))

theorem State.jtagLands_kept {ir} (h : Kept s₀ s) : Kept s₀ (State.jtagLands s ir) := by
  unfold State.jtagLands
  extract_lets +onlyGivenNames x1
  clear_value x1
  refine Kept.ite ?_ ?_
  · exact h
  · refine Kept.ite ?_ ?_
    · extract_lets +onlyGivenNames s2
      have h3 : Kept s₀ s2 := by
        dsimp -zeta only [s2]
        exact Kept.ite (State.setBit_kept h) h
      clear_value s2
      exact State.jtagTake_kept h3
    · exact State.jtagTake_kept (State.setBit_kept h)

/-! ### Machine/TimeLink.lean -/

theorem State.setTl_kept {k t} (h : Kept s₀ s) : Kept s₀ (State.setTl s k t) := by
  unfold State.setTl
  exact State.setTime_kept h

theorem State.tlReceive_kept {k bs age} (h : Kept s₀ s) : Kept s₀ (State.tlReceive s k bs age) := by
  unfold State.tlReceive
  split
  · rename_i x1 e2
    exact h
  · rename_i x3 x4 e5
    refine Kept.ite ?_ ?_
    · exact State.addWrap32_kept h
    · extract_lets +onlyGivenNames x6
      clear_value x6
      extract_lets +onlyGivenNames x7
      clear_value x7
      extract_lets +onlyGivenNames x8
      clear_value x8
      extract_lets +onlyGivenNames x9
      clear_value x9
      extract_lets +onlyGivenNames x10
      clear_value x10
      extract_lets +onlyGivenNames x11
      clear_value x11
      extract_lets +onlyGivenNames x12
      clear_value x12
      extract_lets +onlyGivenNames x13
      clear_value x13
      extract_lets +onlyGivenNames x14
      extract_lets +onlyGivenNames s15
      have h16 : Kept s₀ s15 := by
        dsimp -zeta only [s15]
        exact State.setReg_kept h
      clear_value s15
      extract_lets +onlyGivenNames s17
      have h18 : Kept s₀ s17 := by
        dsimp -zeta only [s17]
        exact State.setReg_kept h16
      clear_value s17
      extract_lets +onlyGivenNames s19
      have h20 : Kept s₀ s19 := by
        dsimp -zeta only [s19]
        exact State.setReg_kept h18
      clear_value s19
      extract_lets +onlyGivenNames x21
      extract_lets +onlyGivenNames s22
      have h23 : Kept s₀ s22 := by
        dsimp -zeta only [s22]
        exact State.setTl_kept h20
      clear_value s22
      extract_lets +onlyGivenNames s24
      have h25 : Kept s₀ s24 := by
        dsimp -zeta only [s24]
        exact Kept.ite (State.tlSelect_kept h23) h23
      clear_value s24
      refine Kept.ite ?_ ?_
      · extract_lets +onlyGivenNames x26
        clear_value x26
        extract_lets +onlyGivenNames x27
        clear_value x27
        extract_lets +onlyGivenNames x28
        clear_value x28
        extract_lets +onlyGivenNames s29
        have h30 : Kept s₀ s29 := by
          dsimp -zeta only [s29]
          exact State.setReg_kept h25
        clear_value s29
        extract_lets +onlyGivenNames s31
        have h32 : Kept s₀ s31 := by
          dsimp -zeta only [s31]
          exact State.setReg_kept h30
        clear_value s31
        exact Kept.ite (State.servoError_kept h32) h32
      · exact h25

theorem State.tlSentAt_kept {k t1} (h : Kept s₀ s) : Kept s₀ (State.tlSentAt s k t1) := by
  unfold State.tlSentAt
  exact State.setTl_kept h

/-! ### Machine/Tx.lean -/

theorem State.tsInsert_kept {n k e t} (h : Kept s₀ s) : Kept s₀ (State.tsInsert s n k e t).2 := by
  unfold State.tsInsert
  extract_lets +onlyGivenNames x1
  clear_value x1
  extract_lets +onlyGivenNames off2
  clear_value off2
  extract_lets +onlyGivenNames fix3
  clear_value fix3
  extract_lets +onlyGivenNames udp4
  clear_value udp4
  split
  · dsimp -zeta only
    exact h
  · split
    · split
      · dsimp -zeta only
        exact State.txqPush_kept h
      · dsimp -zeta only
        exact h
    · split
      · dsimp -zeta only
        exact State.cause_kept (State.addCnt_kept h)
      · extract_lets +onlyGivenNames x19
        clear_value x19
        extract_lets +onlyGivenNames x20
        clear_value x20
        extract_lets +onlyGivenNames s21
        have h22 : Kept s₀ s21 := by
          dsimp -zeta only [s21]
          exact State.addCnt_kept h
        clear_value s21
        extract_lets +onlyGivenNames s23
        have h24 : Kept s₀ s23 := by
          dsimp -zeta only [s23]
          exact Kept.ite (State.cause_kept (State.addCnt_kept h22)) h22
        clear_value s23
        dsimp -zeta only
        exact h24

theorem State.wbFrame_kept {n k t reason} (h : Kept s₀ s) : Kept s₀ (State.wbFrame s n k t reason) := by
  unfold State.wbFrame
  extract_lets +onlyGivenNames x1
  clear_value x1
  exact Kept.any h

theorem State.emitMac_kept {n e} (h : Kept s₀ s) : Kept s₀ (State.emitMac s n e) := by
  unfold State.emitMac
  exact Kept.ite (State.setPort_kept h) (Kept.ite (State.emit_kept h) h)

theorem State.lineFrame_kept {n bytes} (h : Kept s₀ s) : Kept s₀ (State.lineFrame s n bytes) := by
  unfold State.lineFrame
  exact Kept.ite h (Kept.ite (State.onzSendFrame_kept h) (Kept.ite (State.fwdFrame_kept h) h))

theorem State.genDrop_kept {n} (h : Kept s₀ s) : Kept s₀ (State.genDrop s n) := by
  unfold State.genDrop
  split
  · rename_i x1 x2 s3 e4
    exact State.addCnt_kept (Kept.snd e4 (State.freeBool_kept h))

theorem State.lateAmount_kept {amt} (h : Kept s₀ s) : Kept s₀ (State.lateAmount s amt).2 := by
  unfold State.lateAmount
  split
  · rename_i x1
    exact h
  · rename_i x2
    exact State.freeWord_kept h

theorem State.toMac_kept {n slot k e bad} (h : Kept s₀ s) : Kept s₀ (State.toMac s n slot k e bad) := by
  unfold State.toMac
  extract_lets +onlyGivenNames x1
  clear_value x1
  extract_lets +onlyGivenNames x2
  clear_value x2
  extract_lets +onlyGivenNames x3
  clear_value x3
  extract_lets +onlyGivenNames x4
  clear_value x4
  extract_lets +onlyGivenNames x5
  clear_value x5
  extract_lets +onlyGivenNames x6
  clear_value x6
  split
  · rename_i x7 x8 s9 e10
    split
    · rename_i x11 x12 s13 e14
      extract_lets +onlyGivenNames x15
      clear_value x15
      extract_lets +onlyGivenNames s16
      have h17 : Kept s₀ s16 := by
        dsimp -zeta only [s16]
        exact Kept.ite (State.wbFrame_kept (Kept.snd e14 (State.tsInsert_kept (Kept.snd e10 (State.lateAmount_kept
            h))))) (Kept.snd e14 (State.tsInsert_kept (Kept.snd e10 (State.lateAmount_kept h))))
      clear_value s16
      extract_lets +onlyGivenNames s18
      have h19 : Kept s₀ s18 := by
        dsimp -zeta only [s18]
        exact State.mirrorCopy_kept h17
      clear_value s18
      extract_lets +onlyGivenNames x20
      clear_value x20
      extract_lets +onlyGivenNames x21
      clear_value x21
      exact State.setPtm_kept h19

theorem State.deparse_kept {p slot} (h : Kept s₀ s) : Kept s₀ (State.deparse s p slot) := by
  unfold State.deparse
  split
  · rename_i x1 e2
    exact h
  · rename_i x3 x4 x5 e6
    refine Kept.ite ?_ ?_
    · exact h
    · extract_lets +onlyGivenNames s7
      have h8 : Kept s₀ s7 := by
        dsimp -zeta only [s7]
        exact State.setWaiting_kept h
      clear_value s7
      extract_lets +onlyGivenNames x9
      clear_value x9
      refine Kept.ite ?_ ?_
      · exact State.pktGone_kept (State.wbDropped_kept (State.addCnt_kept (State.berthLeave_kept h8)))
      · extract_lets +onlyGivenNames s10
        have h11 : Kept s₀ s10 := by
          dsimp -zeta only [s10]
          exact State.berthLeave_kept h8
        clear_value s10
        refine Kept.ite ?_ ?_
        · exact State.pktGone_kept (State.wbDropped_kept h11)
        · refine Kept.ite ?_ ?_
          · exact State.pktGone_kept (State.wbDropped_kept h11)
          · refine Kept.ite ?_ ?_
            · exact State.pktGone_kept (State.wbDropped_kept (State.sliceLoss_kept h11))
            · refine Kept.ite ?_ ?_
              · exact State.pktGone_kept (State.wbDropped_kept (State.genDrop_kept h11))
              · extract_lets +onlyGivenNames x12
                clear_value x12
                split
                · rename_i x13 x14 s15 e16
                  extract_lets +onlyGivenNames x17
                  clear_value x17
                  exact Kept.ite (State.pktGone_kept (State.wbDropped_kept (State.addCnt_kept (State.mirrorCopy_kept
                      (Kept.snd e16 (State.readBuf_kept h11)))))) (State.toMac_kept (Kept.snd e16 (State.readBuf_kept
                      h11)))

theorem State.ctlOut_kept {n b} (h : Kept s₀ s) : Kept s₀ (State.ctlOut s n b) := by
  unfold State.ctlOut
  exact State.lineFrame_kept (State.emitMac_kept h)

theorem State.ctlLeave_kept {n} (h : Kept s₀ s) : Kept s₀ (State.ctlLeave s n) := by
  unfold State.ctlLeave
  refine Kept.foldl ?_ ?_
  · exact h
  · intro s1 x2 h3
    exact State.ctlOut_kept (State.setPtm_kept h3)

theorem State.onzRest_kept {n} (h : Kept s₀ s) : Kept s₀ (State.onzRest s n) := by
  unfold State.onzRest
  exact Kept.ite (State.onzSendIdle_kept h) h

theorem State.txStart_kept {n} (h : Kept s₀ s) : Kept s₀ (State.txStart s n) := by
  unfold State.txStart
  split
  · rename_i x1 e2
    exact h
  · rename_i x3 x4 e5
    extract_lets +onlyGivenNames x6
    clear_value x6
    extract_lets +onlyGivenNames s7
    have h8 : Kept s₀ s7 := by
      dsimp -zeta only [s7]
      exact State.setPtm_kept h
    clear_value s7
    extract_lets +onlyGivenNames s9
    have h10 : Kept s₀ s9 := by
      dsimp -zeta only [s9]
      exact State.lineFrame_kept h8
    clear_value s9
    split
    · rename_i x11 e12
      exact h10
    · rename_i x13 x14 e15
      exact State.ttSent_kept h10

theorem State.txEnd_kept {n} (h : Kept s₀ s) : Kept s₀ (State.txEnd s n) := by
  unfold State.txEnd
  split
  · rename_i x1 e2
    exact h
  · rename_i x3 x4 x5 e6
    refine Kept.ite ?_ ?_
    · exact h
    · extract_lets +onlyGivenNames x7
      extract_lets +onlyGivenNames s8
      have h9 : Kept s₀ s8 := by
        dsimp -zeta only [s8]
        exact State.setPtm_kept h
      clear_value s8
      extract_lets +onlyGivenNames s10
      have h11 : Kept s₀ s10 := by
        dsimp -zeta only [s10]
        exact State.addCnt_kept (State.addCnt_kept h9)
      clear_value s10
      extract_lets +onlyGivenNames s12
      have h13 : Kept s₀ s12 := by
        dsimp -zeta only [s12]
        exact State.emitMac_kept h11
      clear_value s12
      exact State.pktGone_kept (State.onzRest_kept (State.ctlLeave_kept h13))

theorem State.txCut_kept {n} (h : Kept s₀ s) : Kept s₀ (State.txCut s n) := by
  unfold State.txCut
  extract_lets +onlyGivenNames x1
  clear_value x1
  extract_lets +onlyGivenNames x2
  extract_lets +onlyGivenNames s3
  have h4 : Kept s₀ s3 := by
    dsimp -zeta only [s3]
    exact State.setPtm_kept h
  clear_value s3
  extract_lets +onlyGivenNames x5
  extract_lets +onlyGivenNames s6
  have h7 : Kept s₀ s6 := by
    dsimp -zeta only [s6]
    exact State.setPort_kept h4
  clear_value s6
  refine Kept.foldl ?_ ?_
  · exact h7
  · intro s8 x9 h10
    extract_lets +onlyGivenNames s11
    have h12 : Kept s₀ s11 := by
      dsimp -zeta only [s11]
      split
      · rename_i e13
        exact State.emitMac_kept (State.addCnt_kept h10)
      · rename_i x14
        exact h10
    clear_value s11
    exact State.pktGone_kept h12

theorem State.genStart_kept {n} (h : Kept s₀ s) : Kept s₀ (State.genStart s n) := by
  unfold State.genStart
  refine Kept.foldl ?_ ?_
  · exact State.txCut_kept h
  · intro s1 x2 h3
    exact State.genDrop_kept h3

theorem State.ctlGive_kept {n start b} (h : Kept s₀ s) : Kept s₀ (State.ctlGive s n start b) := by
  unfold State.ctlGive
  exact State.onzRest_kept (State.ctlLeave_kept (State.setPtm_kept h))

theorem State.ctlSend_kept {n} (h : Kept s₀ s) : Kept s₀ (State.ctlSend s n) := by
  unfold State.ctlSend
  split
  · rename_i x1 e2
    exact h
  · rename_i x3 x4 x5 e6
    extract_lets +onlyGivenNames x7
    clear_value x7
    extract_lets +onlyGivenNames x8
    clear_value x8
    extract_lets +onlyGivenNames x9
    clear_value x9
    refine Kept.ite ?_ ?_
    · exact h
    · refine Kept.ite ?_ ?_
      · exact State.setPtm_kept h
      · refine Kept.ite ?_ ?_
        · exact State.addCnt_kept (State.setPtm_kept h)
        · extract_lets +onlyGivenNames x10
          clear_value x10
          extract_lets +onlyGivenNames x11
          extract_lets +onlyGivenNames s12
          have h13 : Kept s₀ s12 := by
            dsimp -zeta only [s12]
            exact State.setPtm_kept h
          clear_value s12
          split
          · rename_i x14
            split
            · rename_i x15 e16
              exact State.setPtm_kept h
            · rename_i x17 x18 e19
              exact State.ctlGive_kept (State.addCnt_kept (State.setPtm_kept h13))
          · rename_i x20 x21
            exact State.ctlGive_kept (State.tlSentAt_kept h13)
          · rename_i x22 x23
            extract_lets +onlyGivenNames s24
            have h25 : Kept s₀ s24 := by
              dsimp -zeta only [s24]
              split
              · rename_i x26 x27 e28
                exact State.setCal_kept h13
              · rename_i x29 e30
                exact h13
            clear_value s24
            exact State.ctlGive_kept h25

theorem State.tlTx_kept (h : Kept s₀ s) : Kept s₀ (State.tlTx s) := by
  unfold State.tlTx
  refine Kept.foldl ?_ ?_
  · exact h
  · intro s1 x2 h3
    split
    · rename_i x4 x5 e6
      exact Kept.ite (State.ctlPush_kept h3) h3
    · rename_i x7 e8
      exact h3

theorem State.onzIdleTurn_kept {n} (h : Kept s₀ s) : Kept s₀ (State.onzIdleTurn s n) := by
  unfold State.onzIdleTurn
  exact Kept.ite h (State.onzSendIdle_kept h)

theorem State.onzTurn_kept {n} (h : Kept s₀ s) : Kept s₀ (State.onzTurn s n) := by
  unfold State.onzTurn
  exact Kept.ite h (Kept.ite (State.onzIdleTurn_kept (State.onzIdleTurn_kept h)) (Kept.ite h (State.onzBlockTx_kept h)))

theorem State.calTx_kept {n} (h : Kept s₀ s) : Kept s₀ (State.calTx s n) := by
  unfold State.calTx
  split
  · exact h
  · refine Kept.ite h ?_
    extract_lets +onlyGivenNames x6
    have h7 : Kept s₀ x6 := by
      dsimp -zeta only [x6]
      exact State.setCal_kept h
    clear_value x6
    exact Kept.ite (State.ctlPush_kept h7) h7

end Sys2Proof.Machine
end

