-- ==== Sys2Proof/Laws/KeptE.lean ====
section
/-! SUPPORT. What every operation of Machine/ (Pres, PortCtl, Rx, Ver) keeps: one lemma for each, which the lemmas about its callers cite. -/

namespace Sys2Proof.Machine

variable {s₀ s : State}

/-! ### Machine/Pres.lean -/

theorem State.presRefuse_kept {i a} (h : Kept s₀ s) : Kept s₀ (State.presRefuse s i a) := by
  unfold State.presRefuse
  extract_lets +onlyGivenNames s1
  have h2 : Kept s₀ s1 := by
    dsimp -zeta only [s1]
    exact State.addWrap32_kept h
  clear_value s1
  extract_lets +onlyGivenNames s3
  have h4 : Kept s₀ s3 := by
    dsimp -zeta only [s3]
    exact State.setReg_kept h2
  clear_value s3
  exact State.cause_kept h4

theorem State.rwpGate_kept {i subj a old new} (h : Kept s₀ s) : Kept s₀ (State.rwpGate s i subj a old new).2 := by
  unfold State.rwpGate
  split
  · dsimp -zeta only
    exact h
  · split
    · dsimp -zeta only
      exact State.auditWrite_kept h
    · dsimp -zeta only
      exact State.auditWrite_kept (State.presRefuse_kept h)

theorem State.presStart_kept (h : Kept s₀ s) : Kept s₀ (State.presStart s) := by
  unfold State.presStart
  extract_lets +onlyGivenNames was1
  clear_value was1
  extract_lets +onlyGivenNames w2
  clear_value w2
  extract_lets +onlyGivenNames s3
  have h4 : Kept s₀ s3 := by
    dsimp -zeta only [s3]
    exact State.setBit_kept h
  clear_value s3
  extract_lets +onlyGivenNames s5
  clear_value s5
  extract_lets +onlyGivenNames s6
  have h7 : Kept s₀ s6 := by
    dsimp -zeta only [s6]
    exact h4.any
  clear_value s6
  exact State.audit_kept (State.cause_kept h7)

theorem State.presEnd_kept (h : Kept s₀ s) : Kept s₀ (State.presEnd s) := by
  unfold State.presEnd
  refine Kept.ite ?_ h
  extract_lets +onlyGivenNames t1
  clear_value t1
  extract_lets +onlyGivenNames s2
  have h3 : Kept s₀ s2 := by
    dsimp -zeta only [s2]
    exact State.setBit_kept h
  clear_value s2
  exact State.audit_kept (State.cause_kept h3)

theorem State.presAssert_kept (h : Kept s₀ s) : Kept s₀ (State.presAssert s) := by
  unfold State.presAssert
  extract_lets +onlyGivenNames s1
  have h2 : Kept s₀ s1 := by
    dsimp -zeta only [s1]
    exact State.setBit_kept h
  clear_value s1
  exact Kept.ite (State.presStart_kept h2) h2

theorem State.presRelease_kept (h : Kept s₀ s) : Kept s₀ (State.presRelease s) := by
  unfold State.presRelease
  refine Kept.ite ?_ h
  extract_lets +onlyGivenNames x1
  have h2 : Kept s₀ x1 := by
    dsimp -zeta only [x1]
    exact State.setBit_kept h
  clear_value x1
  exact h2.any

theorem State.presExpire_kept (h : Kept s₀ s) : Kept s₀ (State.presExpire s) := by
  unfold State.presExpire
  exact Kept.ite (State.presEnd_kept h) h

theorem State.sealOpens_kept (h : Kept s₀ s) : Kept s₀ (State.sealOpens s) := by
  unfold State.sealOpens
  refine Kept.ite ?_ h
  extract_lets +onlyGivenNames s1
  have h2 : Kept s₀ s1 := by
    dsimp -zeta only [s1]
    exact State.setBit_kept h
  clear_value s1
  exact State.presEnd_kept (State.audit_kept (State.ariseF_kept h2))

theorem State.sealCloses_kept (h : Kept s₀ s) : Kept s₀ (State.sealCloses s) := by
  unfold State.sealCloses
  refine Kept.ite ?_ ?_
  · exact h
  · extract_lets +onlyGivenNames s1
    have h2 : Kept s₀ s1 := by
      dsimp -zeta only [s1]
      exact State.setBit_kept h
    clear_value s1
    exact State.audit_kept (State.cause_kept h2)

/-! ### Machine/PortCtl.lean -/

theorem State.linkFall_kept {n} (h : Kept s₀ s) : Kept s₀ (State.linkFall s n) := by
  unfold State.linkFall
  refine Kept.ite ?_ ?_
  · exact h
  · extract_lets +onlyGivenNames s1
    have h2 : Kept s₀ s1 := by
      dsimp -zeta only [s1]
      exact State.setLive_kept (State.setBit_kept h)
    clear_value s1
    extract_lets +onlyGivenNames x3
    extract_lets +onlyGivenNames s4
    have h5 : Kept s₀ s4 := by
      dsimp -zeta only [s4]
      exact State.linePort_kept (State.stallEvals_kept (State.setPtm_kept h2))
    clear_value s4
    exact State.ariseF_kept h5

theorem State.linkRise_kept {n} (h : Kept s₀ s) : Kept s₀ (State.linkRise s n) := by
  unfold State.linkRise
  extract_lets +onlyGivenNames s1
  have h2 : Kept s₀ s1 := by
    dsimp -zeta only [s1]
    exact State.setBit_kept h
  clear_value s1
  extract_lets +onlyGivenNames s3
  have h4 : Kept s₀ s3 := by
    dsimp -zeta only [s3]
    exact State.setBit_kept h2
  clear_value s3
  extract_lets +onlyGivenNames s5
  have h6 : Kept s₀ s5 := by
    dsimp -zeta only [s5]
    exact Kept.ite (State.setLive_kept h4) h4
  clear_value s5
  exact State.linePort_kept (State.stallEvals_kept h6)

theorem State.linkLost_kept {n} (h : Kept s₀ s) : Kept s₀ (State.linkLost s n) := by
  unfold State.linkLost
  extract_lets +onlyGivenNames s1
  have h2 : Kept s₀ s1 := by
    dsimp -zeta only [s1]
    exact State.linkFall_kept h
  clear_value s1
  refine Kept.ite ?_ ?_
  · extract_lets +onlyGivenNames s3
    have h4 : Kept s₀ s3 := by
      dsimp -zeta only [s3]
      exact State.onzSeek_kept h2
    clear_value s3
    exact State.linePort_kept (State.setPort_kept h4)
  · exact State.linePort_kept h2

theorem State.linkTry_kept {n} (h : Kept s₀ s) : Kept s₀ (State.linkTry s n) := by
  unfold State.linkTry
  exact Kept.ite (State.linePort_kept h) (Kept.ite (State.linkRise_kept h) (Kept.ite (State.linkLost_kept h)
      (State.linePort_kept h)))

theorem State.lockLost_kept {l} (h : Kept s₀ s) : Kept s₀ (State.lockLost s l) := by
  unfold State.lockLost
  refine Kept.ite ?_ ?_
  · exact h
  · extract_lets +onlyGivenNames x1
    clear_value x1
    extract_lets +onlyGivenNames s2
    have h3 : Kept s₀ s2 := by
      dsimp -zeta only [s2]
      exact State.setBit_kept (State.setBit_kept h)
    clear_value s2
    extract_lets +onlyGivenNames x4
    clear_value x4
    extract_lets +onlyGivenNames s5
    have h6 : Kept s₀ s5 := by
      dsimp -zeta only [s5]
      exact State.laneArise_kept (State.setLane_kept h3)
    clear_value s5
    extract_lets +onlyGivenNames s7
    have h8 : Kept s₀ s7 := by
      dsimp -zeta only [s7]
      split
      · rename_i x9 x10 e11
        exact State.linkLost_kept (State.pcsDown_kept h6)
      · rename_i x12 e13
        exact h6
    clear_value s7
    exact State.synceCheck_kept h8

theorem State.signalLoss_kept {l} (h : Kept s₀ s) : Kept s₀ (State.signalLoss s l) := by
  unfold State.signalLoss
  refine Kept.ite ?_ ?_
  · exact h
  · extract_lets +onlyGivenNames s1
    have h2 : Kept s₀ s1 := by
      dsimp -zeta only [s1]
      exact State.laneArise_kept (State.setBit_kept h)
    clear_value s1
    extract_lets +onlyGivenNames s3
    have h4 : Kept s₀ s3 := by
      dsimp -zeta only [s3]
      split
      · rename_i x5 x6 e7
        exact State.linkLost_kept (State.pcsDown_kept h2)
      · rename_i x8 e9
        exact h2
    clear_value s3
    exact State.synceCheck_kept h4

theorem State.signalReturn_kept {l} (h : Kept s₀ s) : Kept s₀ (State.signalReturn s l) := by
  unfold State.signalReturn
  exact Kept.ite h (State.synceCheck_kept (State.setBit_kept h))

theorem State.deskewTrain_kept {l} (h : Kept s₀ s) : Kept s₀ (State.deskewTrain s l) := by
  unfold State.deskewTrain
  refine Kept.ite ?_ ?_
  · split
    · rename_i x1 x2 s3 e4
      exact State.setLane_kept (Kept.snd e4 (State.freeWord_kept h))
  · exact h

theorem State.cdrLocks_kept {l} (h : Kept s₀ s) : Kept s₀ (State.cdrLocks s l) := by
  unfold State.cdrLocks
  exact Kept.ite h (State.synceCheck_kept (State.deskewTrain_kept (State.setBit_kept h)))

theorem State.adapted_kept {l ctle taps} (h : Kept s₀ s) : Kept s₀ (State.adapted s l ctle taps) := by
  unfold State.adapted
  refine Kept.ite h ?_
  extract_lets +onlyGivenNames s1
  have h2 : Kept s₀ s1 := by
    dsimp -zeta only [s1]
    refine Kept.ite h ?_
    refine Kept.foldl h ?_
    intro s3 x4 h5
    exact State.setRxSetting_kept h5
  clear_value s1
  extract_lets +onlyGivenNames s6
  have h7 : Kept s₀ s6 := by
    dsimp -zeta only [s6]
    exact State.setBit_kept h2
  clear_value s6
  exact Kept.ite (State.onzTryReady_kept h7) h7

theorem State.fwdLoss_kept {g} (h : Kept s₀ s) : Kept s₀ (State.fwdLoss s g) := by
  unfold State.fwdLoss
  refine Kept.ite ?_ ?_
  · exact h
  · extract_lets +onlyGivenNames s1
    have h2 : Kept s₀ s1 := by
      dsimp -zeta only [s1]
      exact State.ariseF_kept (State.setBit_kept h)
    clear_value s1
    refine Kept.foldl ?_ ?_
    · exact h2
    · intro s3 x4 h5
      exact State.lockLost_kept h5

theorem State.rxDown_kept {l} (h : Kept s₀ s) : Kept s₀ (State.rxDown s l) := by
  unfold State.rxDown
  extract_lets +onlyGivenNames s1
  have h2 : Kept s₀ s1 := by
    dsimp -zeta only [s1]
    exact State.rxOff_kept h
  clear_value s1
  exact Kept.ite (State.fwdLoss_kept h2) h2

theorem State.fwdOff_kept {g} (h : Kept s₀ s) : Kept s₀ (State.fwdOff s g) := by
  unfold State.fwdOff
  extract_lets +onlyGivenNames x1
  clear_value x1
  exact Kept.ite (State.rxDown_kept h) h

theorem State.fwdLocks_kept {g} (h : Kept s₀ s) : Kept s₀ (State.fwdLocks s g) := by
  unfold State.fwdLocks
  exact Kept.ite (State.setBit_kept h) h

theorem State.txPllLoss_kept {g} (h : Kept s₀ s) : Kept s₀ (State.txPllLoss s g) := by
  unfold State.txPllLoss
  exact Kept.ite h (State.ariseF_kept (State.setBit_kept h))

theorem State.txPllLock_kept {g} (h : Kept s₀ s) : Kept s₀ (State.txPllLock s g) := by
  unfold State.txPllLock
  exact Kept.ite (State.setBit_kept h) h

theorem State.linkClear_kept {n} (h : Kept s₀ s) : Kept s₀ (State.linkClear s n) := by
  unfold State.linkClear
  extract_lets +onlyGivenNames x1
  clear_value x1
  extract_lets +onlyGivenNames s2
  have h3 : Kept s₀ s2 := by
    dsimp -zeta only [s2]
    exact State.setBit_kept (State.setBit_kept h)
  clear_value s2
  extract_lets +onlyGivenNames s4
  have h5 : Kept s₀ s4 := by
    dsimp -zeta only [s4]
    exact State.setBit_kept (State.setBit_kept h3)
  clear_value s4
  extract_lets +onlyGivenNames s6
  have h7 : Kept s₀ s6 := by
    dsimp -zeta only [s6]
    exact State.setFld_kept (State.setFld_kept h5)
  clear_value s6
  exact State.setPort_kept h7

theorem State.showLanes_kept {ls} (h : Kept s₀ s) : Kept s₀ (State.showLanes s ls) := by
  unfold State.showLanes
  refine Kept.foldl h ?_
  intro s1 x2 h3
  exact State.showLane_kept h3

theorem State.portStart_kept {n load} (h : Kept s₀ s) : Kept s₀ (State.portStart s n load) := by
  unfold State.portStart
  refine Kept.ite ?_ ?_
  · exact h
  · extract_lets +onlyGivenNames s1
    have h2 : Kept s₀ s1 := by
      dsimp -zeta only [s1]
      refine Kept.ite ?_ ?_
      · refine Kept.foldl ?_ ?_
        · exact h
        · intro s3 x4 h5
          exact State.loadFir_kept h5
      · exact h
    clear_value s1
    extract_lets +onlyGivenNames s6
    have h7 : Kept s₀ s6 := by
      dsimp -zeta only [s6]
      exact State.linkClear_kept h2
    clear_value s6
    extract_lets +onlyGivenNames s8
    have h9 : Kept s₀ s8 := by
      dsimp -zeta only [s8]
      exact Kept.ite (State.onzSeek_kept h7) h7
    clear_value s8
    extract_lets +onlyGivenNames s10
    have h11 : Kept s₀ s10 := by
      dsimp -zeta only [s10]
      exact State.synceCheck_kept (State.showLanes_kept h9)
    clear_value s10
    exact Kept.ite (State.onzSendIdle_kept h11) h11

theorem State.portEnable_kept {n} (h : Kept s₀ s) : Kept s₀ (State.portEnable s n) := by
  unfold State.portEnable
  refine Kept.ite h ?_
  refine State.portStart_kept ?_
  refine Kept.foldl h ?_
  intro s1 x2 h3
  exact Kept.ite (State.laneArise_kept h3) h3

theorem State.portEnd_kept {n} (h : Kept s₀ s) : Kept s₀ (State.portEnd s n) := by
  unfold State.portEnd
  extract_lets +onlyGivenNames s1
  have h2 : Kept s₀ s1 := by
    dsimp -zeta only [s1]
    exact State.flushPort_kept (State.linkFall_kept (State.txCut_kept h))
  clear_value s1
  exact State.calAbort_kept (State.pauseRelease_kept (State.tmPortEnd_kept h2))

theorem State.portDisable_kept {n} (h : Kept s₀ s) : Kept s₀ (State.portDisable s n) := by
  unfold State.portDisable
  refine Kept.ite ?_ ?_
  · exact State.setBit_kept h
  · extract_lets +onlyGivenNames s1
    have h2 : Kept s₀ s1 := by
      dsimp -zeta only [s1]
      exact State.setLive_kept (State.portEnd_kept h)
    clear_value s1
    extract_lets +onlyGivenNames s3
    have h4 : Kept s₀ s3 := by
      dsimp -zeta only [s3]
      exact State.linkClear_kept (State.setBit_kept h2)
    clear_value s3
    extract_lets +onlyGivenNames x5
    clear_value x5
    extract_lets +onlyGivenNames s6
    have h7 : Kept s₀ s6 := by
      dsimp -zeta only [s6]
      exact State.setPort_kept h4
    clear_value s6
    extract_lets +onlyGivenNames s8
    have h9 : Kept s₀ s8 := by
      dsimp -zeta only [s8]
      exact State.setBit_kept h7
    clear_value s8
    extract_lets +onlyGivenNames s10
    have h11 : Kept s₀ s10 := by
      dsimp -zeta only [s10]
      refine State.fwdOff_kept ?_
      refine Kept.foldl ?_ ?_
      · exact h9
      · intro s12 x13 h14
        split
        · rename_i e15
          exact h14
        · rename_i x16
          exact State.rxOff_kept h14
    clear_value s10
    exact State.synceCheck_kept (State.stallEvals_kept (State.showLanes_kept h11))

theorem State.portCtlWrite_kept {n v} (h : Kept s₀ s) : Kept s₀ (State.portCtlWrite s n v) := by
  unfold State.portCtlWrite
  extract_lets +onlyGivenNames a1
  clear_value a1
  extract_lets +onlyGivenNames on2
  clear_value on2
  extract_lets +onlyGivenNames ask3
  clear_value ask3
  extract_lets +onlyGivenNames own4
  clear_value own4
  extract_lets +onlyGivenNames x5
  clear_value x5
  extract_lets +onlyGivenNames s6
  have h7 : Kept s₀ s6 := by
    dsimp -zeta only [s6]
    exact Kept.ite h (Kept.ite (State.cause_kept h) (State.cause_kept h))
  clear_value s6
  extract_lets +onlyGivenNames en8
  clear_value en8
  extract_lets +onlyGivenNames x9
  clear_value x9
  extract_lets +onlyGivenNames old10
  clear_value old10
  extract_lets +onlyGivenNames put11
  have h14 : ∀ a12 a13, Kept s₀ a12 → Kept s₀ (put11 a12 a13) := by
    intro s15 x16 h17
    dsimp -zeta only [put11]
    exact Kept.ite h17 (Kept.ite (State.setFld_kept h17) (State.cause_kept h17))
  clear_value put11
  extract_lets +onlyGivenNames s18
  have h19 : Kept s₀ s18 := by
    dsimp -zeta only [s18]
    exact h14 _ _ (h14 _ _ h7)
  clear_value s18
  extract_lets +onlyGivenNames s20
  have h21 : Kept s₀ s20 := by
    dsimp -zeta only [s20]
    exact Kept.ite (State.cause_kept h19) h19
  clear_value s20
  extract_lets +onlyGivenNames s22
  have h23 : Kept s₀ s22 := by
    dsimp -zeta only [s22]
    exact Kept.ite h21 (State.stallEvals_kept (State.fcEval_kept h21))
  clear_value s22
  exact Kept.ite (State.portEnable_kept (State.setBit_kept h23)) (Kept.ite (State.portDisable_kept h23) h23)

theorem State.pfcMapWrite_kept {n p v} (h : Kept s₀ s) : Kept s₀ (State.pfcMapWrite s n p v) := by
  unfold State.pfcMapWrite
  extract_lets +onlyGivenNames a1
  clear_value a1
  extract_lets +onlyGivenNames en2
  clear_value en2
  extract_lets +onlyGivenNames c3
  clear_value c3
  exact Kept.ite h (Kept.ite (State.cause_kept h) (State.stallEvals_kept (State.fcEval_kept (State.setFld_kept
      (State.setFld_kept h)))))

theorem State.setFormation_kept {n f} (h : Kept s₀ s) : Kept s₀ (State.setFormation s n f) := by
  unfold State.setFormation
  extract_lets +onlyGivenNames s1
  have h2 : Kept s₀ s1 := by
    dsimp -zeta only [s1]
    exact State.setFld_kept h
  clear_value s1
  exact State.setPort_kept (State.setFld_kept h2)

theorem State.patCheck_kept {l} (h : Kept s₀ s) : Kept s₀ (State.patCheck s l) := by
  unfold State.patCheck
  extract_lets +onlyGivenNames x1
  clear_value x1
  extract_lets +onlyGivenNames s2
  have h3 : Kept s₀ s2 := by
    dsimp -zeta only [s2]
    exact Kept.ite (State.setBit_kept h) h
  clear_value s2
  exact Kept.ite (State.laneCause_kept h3) h3

theorem State.formGroup_kept {g pend} (h : Kept s₀ s) : Kept s₀ (State.formGroup s g pend) := by
  unfold State.formGroup
  extract_lets +onlyGivenNames x1
  clear_value x1
  extract_lets +onlyGivenNames x2
  clear_value x2
  refine Kept.ite ?_ ?_
  · refine Kept.foldl ?_ ?_
    · exact h
    · intro s3 x4 h5
      exact State.cause_kept h5
  · extract_lets +onlyGivenNames x6
    clear_value x6
    extract_lets +onlyGivenNames x7
    clear_value x7
    extract_lets +onlyGivenNames x8
    clear_value x8
    extract_lets +onlyGivenNames x9
    clear_value x9
    extract_lets +onlyGivenNames x10
    clear_value x10
    extract_lets +onlyGivenNames s11
    have h12 : Kept s₀ s11 := by
      dsimp -zeta only [s11]
      refine Kept.foldl ?_ ?_
      · exact h
      · intro s13 x14 h15
        exact State.portEnd_kept h15
    clear_value s11
    extract_lets +onlyGivenNames s16
    have h17 : Kept s₀ s16 := by
      dsimp -zeta only [s16]
      refine Kept.foldl ?_ ?_
      · exact h12
      · intro s18 x19 h20
        exact State.lockLost_kept h20
    clear_value s16
    extract_lets +onlyGivenNames s21
    have h22 : Kept s₀ s21 := by
      dsimp -zeta only [s21]
      refine Kept.foldl ?_ ?_
      · exact h17
      · intro s23 x24 h25
        exact State.setPort_kept (State.linkClear_kept h25)
    clear_value s21
    extract_lets +onlyGivenNames s26
    have h27 : Kept s₀ s26 := by
      dsimp -zeta only [s26]
      refine Kept.foldl ?_ ?_
      · exact h22
      · intro s28 x29 h30
        exact State.setBit_kept h30
    clear_value s26
    extract_lets +onlyGivenNames s31
    have h32 : Kept s₀ s31 := by
      dsimp -zeta only [s31]
      refine Kept.foldl ?_ ?_
      · exact h27
      · intro s33 x34 h35
        exact Kept.ite (State.setFormation_kept h35) h35
    clear_value s31
    extract_lets +onlyGivenNames s36
    have h37 : Kept s₀ s36 := by
      dsimp -zeta only [s36]
      refine Kept.foldl ?_ ?_
      · exact h32
      · intro s38 x39 h40
        exact State.setPort_kept h40
    clear_value s36
    extract_lets +onlyGivenNames s41
    have h42 : Kept s₀ s41 := by
      dsimp -zeta only [s41]
      refine State.fwdOff_kept ?_
      refine Kept.foldl ?_ ?_
      · exact h37
      · intro s43 x44 h45
        split
        · rename_i e46
          exact h45
        · rename_i x47
          exact State.rxOff_kept h45
    clear_value s41
    extract_lets +onlyGivenNames s48
    have h49 : Kept s₀ s48 := by
      dsimp -zeta only [s48]
      refine Kept.foldl ?_ ?_
      · exact h42
      · intro s50 x51 h52
        exact State.patCheck_kept h52
    clear_value s48
    exact State.synceCheck_kept (State.showLanes_kept h49)

theorem State.formRound_kept {pend} (h : Kept s₀ s) : Kept s₀ (State.formRound s pend) := by
  unfold State.formRound
  refine Kept.foldl h ?_
  intro s1 x2 h3
  extract_lets +onlyGivenNames ps4
  clear_value ps4
  exact Kept.ite h3 (State.formGroup_kept h3)

theorem State.timelineEnd_kept {g} (h : Kept s₀ s) : Kept s₀ (State.timelineEnd s g) := by
  unfold State.timelineEnd
  extract_lets +onlyGivenNames ns1
  clear_value ns1
  refine Kept.foldl h ?_
  intro s2 x3 h4
  extract_lets +onlyGivenNames s5
  clear_value s5
  extract_lets +onlyGivenNames s6
  have h7 : Kept s₀ s6 := by
    dsimp -zeta only [s6]
    exact State.setPort_kept h4
  clear_value s6
  extract_lets +onlyGivenNames s8
  have h9 : Kept s₀ s8 := by
    dsimp -zeta only [s8]
    refine Kept.foldl h7 ?_
    intro s10 x11 h12
    exact State.loadFir_kept h12
  clear_value s8
  refine Kept.ite h9 ?_
  extract_lets +onlyGivenNames s13
  have h14 : Kept s₀ s13 := by
    dsimp -zeta only [s13]
    refine Kept.foldl h9 ?_
    intro s15 x16 h17
    exact Kept.ite (State.laneCause_kept h17) h17
  clear_value s13
  exact State.portStart_kept h14

theorem State.eyeEnd_kept {l errs} (h : Kept s₀ s) : Kept s₀ (State.eyeEnd s l errs) := by
  unfold State.eyeEnd
  exact State.setBit_kept (State.setReg_kept h)

theorem State.rxAbort_kept {l} (h : Kept s₀ s) : Kept s₀ (State.rxAbort s l) := by
  unfold State.rxAbort
  extract_lets +onlyGivenNames s1
  have h2 : Kept s₀ s1 := by
    dsimp -zeta only [s1]
    exact State.setBit_kept h
  clear_value s1
  exact Kept.ite (State.eyeEnd_kept h2) h2

theorem State.portReset_kept {f n} (h : Kept s₀ s) : Kept s₀ (State.portReset s f n) := by
  unfold State.portReset
  refine Kept.ite ?_ ?_
  · exact State.busyWrite_kept h
  · refine Kept.ite ?_ ?_
    · exact h
    · refine Kept.ite ?_ ?_
      · exact State.cause_kept h
      · extract_lets +onlyGivenNames s1
        have h2 : Kept s₀ s1 := by
          dsimp -zeta only [s1]
          exact State.linkFall_kept (State.txCut_kept h)
        clear_value s1
        extract_lets +onlyGivenNames s3
        have h4 : Kept s₀ s3 := by
          dsimp -zeta only [s3]
          refine Kept.foldl ?_ ?_
          · exact h2
          · intro s5 x6 h7
            exact State.rxAbort_kept (State.rxUnlock_kept (State.lockLost_kept h7))
        clear_value s3
        extract_lets +onlyGivenNames s8
        have h9 : Kept s₀ s8 := by
          dsimp -zeta only [s8]
          exact State.stallEvals_kept (State.pauseRelease_kept (State.linkClear_kept h4))
        clear_value s8
        extract_lets +onlyGivenNames x10
        extract_lets +onlyGivenNames s11
        have h12 : Kept s₀ s11 := by
          dsimp -zeta only [s11]
          exact State.setPort_kept h9
        clear_value s11
        extract_lets +onlyGivenNames s13
        have h14 : Kept s₀ s13 := by
          dsimp -zeta only [s13]
          exact State.setBit_kept h12
        clear_value s13
        exact State.showLanes_kept h14

theorem State.portRestart_kept {n} (h : Kept s₀ s) : Kept s₀ (State.portRestart s n) := by
  unfold State.portRestart
  refine Kept.ite h ?_
  extract_lets +onlyGivenNames s1
  clear_value s1
  extract_lets +onlyGivenNames s2
  have h3 : Kept s₀ s2 := by
    dsimp -zeta only [s2]
    exact State.setPort_kept h
  clear_value s2
  extract_lets +onlyGivenNames s4
  have h5 : Kept s₀ s4 := by
    dsimp -zeta only [s4]
    exact State.portStart_kept (State.setBit_kept h3)
  clear_value s4
  exact Kept.ite (State.addCnt_kept h5) h5

theorem State.laneReset_kept {l} (h : Kept s₀ s) : Kept s₀ (State.laneReset s l) := by
  unfold State.laneReset
  refine Kept.ite ?_ ?_
  · exact h
  · extract_lets +onlyGivenNames s1
    have h2 : Kept s₀ s1 := by
      dsimp -zeta only [s1]
      exact Kept.ite (State.fwdLoss_kept h) h
    clear_value s1
    extract_lets +onlyGivenNames s3
    have h4 : Kept s₀ s3 := by
      dsimp -zeta only [s3]
      exact State.prbsRestart_kept (State.rxUnlock_kept (State.lockLost_kept h2))
    clear_value s3
    extract_lets +onlyGivenNames s5
    have h6 : Kept s₀ s5 := by
      dsimp -zeta only [s5]
      exact State.setFld_kept h4
    clear_value s5
    extract_lets +onlyGivenNames s7
    have h8 : Kept s₀ s7 := by
      dsimp -zeta only [s7]
      exact State.setBit_kept h6
    clear_value s7
    exact Kept.ite (State.eyeEnd_kept h8) h8

theorem State.firLoad_kept {g} (h : Kept s₀ s) : Kept s₀ (State.firLoad s g) := by
  unfold State.firLoad
  refine Kept.foldl h ?_
  intro s1 x2 h3
  extract_lets +onlyGivenNames l4
  clear_value l4
  exact Kept.ite (State.loadFir_kept h3) h3

theorem State.lgCtlWrite_kept {g v} (h : Kept s₀ s) : Kept s₀ (State.lgCtlWrite s g v) := by
  unfold State.lgCtlWrite
  extract_lets +onlyGivenNames x1
  clear_value x1
  extract_lets +onlyGivenNames x2
  clear_value x2
  extract_lets +onlyGivenNames x3
  clear_value x3
  extract_lets +onlyGivenNames s4
  have h5 : Kept s₀ s4 := by
    dsimp -zeta only [s4]
    exact State.setFld_kept h
  clear_value s4
  extract_lets +onlyGivenNames x6
  have h7 : ∀ a8 a9, Kept s₀ a8 → Kept s₀ (x6 a8 a9) := by
    intro s10 x11 h12
    dsimp -zeta only [x6]
    exact Kept.ite h12 (Kept.ite (State.setFld_kept h12) (State.cause_kept h12))
  clear_value x6
  extract_lets +onlyGivenNames s13
  have h14 : Kept s₀ s13 := by
    dsimp -zeta only [s13]
    exact h7 _ _ (h7 _ _ h5)
  clear_value s13
  extract_lets +onlyGivenNames s15
  have h16 : Kept s₀ s15 := by
    dsimp -zeta only [s15]
    exact Kept.ite (State.cause_kept h14) h14
  clear_value s15
  extract_lets +onlyGivenNames x17
  clear_value x17
  extract_lets +onlyGivenNames s18
  have h19 : Kept s₀ s18 := by
    dsimp -zeta only [s18]
    refine Kept.ite ?_ ?_
    · exact h16
    · refine Kept.foldl ?_ ?_
      · exact h16
      · intro s20 x21 h22
        exact State.lockLost_kept h22
  clear_value s18
  extract_lets +onlyGivenNames s23
  have h24 : Kept s₀ s23 := by
    dsimp -zeta only [s23]
    exact Kept.ite (State.setBit_kept (State.setFld_kept h19)) (State.setBit_kept h19)
  clear_value s23
  extract_lets +onlyGivenNames s25
  have h26 : Kept s₀ s25 := by
    dsimp -zeta only [s25]
    exact Kept.ite (State.firLoad_kept h24) h24
  clear_value s25
  exact State.showLane_kept h26

theorem State.firBWrite_kept {l v} (h : Kept s₀ s) : Kept s₀ (State.firBWrite s l v) := by
  unfold State.firBWrite
  extract_lets +onlyGivenNames a1
  clear_value a1
  extract_lets +onlyGivenNames s2
  have h3 : Kept s₀ s2 := by
    dsimp -zeta only [s2]
    exact State.setReg_kept h
  clear_value s2
  exact Kept.ite (State.loadFir_kept h3) h3

theorem State.loopChange_kept {l} (h : Kept s₀ s) : Kept s₀ (State.loopChange s l) := by
  unfold State.loopChange
  split
  · rename_i x1 e2
    exact h
  · rename_i x3 x4 e5
    refine Kept.ite ?_ ?_
    · exact h
    · extract_lets +onlyGivenNames x6
      extract_lets +onlyGivenNames s7
      have h8 : Kept s₀ s7 := by
        dsimp -zeta only [s7]
        exact State.setPtm_kept h
      clear_value s7
      extract_lets +onlyGivenNames x9
      clear_value x9
      extract_lets +onlyGivenNames x10
      extract_lets +onlyGivenNames s11
      have h12 : Kept s₀ s11 := by
        dsimp -zeta only [s11]
        exact State.setPort_kept h8
      clear_value s11
      exact Kept.ite h12 (State.addCnt_kept h12)

theorem State.laneTestWrite_kept {l v} (h : Kept s₀ s) : Kept s₀ (State.laneTestWrite s l v) := by
  unfold State.laneTestWrite
  extract_lets +onlyGivenNames s1
  have h2 : Kept s₀ s1 := by
    dsimp -zeta only [s1]
    exact State.prbsTake_kept h
  clear_value s1
  extract_lets +onlyGivenNames x3
  clear_value x3
  extract_lets +onlyGivenNames x4
  clear_value x4
  extract_lets +onlyGivenNames x5
  have h6 : ∀ a7 a8, Kept s₀ a7 → Kept s₀ (x5 a7 a8) := by
    intro s9 x10 h11
    dsimp -zeta only [x5]
    exact State.setFld_kept h11
  clear_value x5
  extract_lets +onlyGivenNames x12
  have h13 : ∀ a14 a15, Kept s₀ a14 → Kept s₀ (x12 a14 a15) := by
    intro s16 x17 h18
    dsimp -zeta only [x12]
    exact Kept.ite h18 (Kept.ite (State.cause_kept h18) (h6 _ _ h18))
  clear_value x12
  extract_lets +onlyGivenNames s19
  have h20 : Kept s₀ s19 := by
    dsimp -zeta only [s19]
    exact h13 _ _ (h13 _ _ h2)
  clear_value s19
  extract_lets +onlyGivenNames s21
  have h22 : Kept s₀ s21 := by
    dsimp -zeta only [s21]
    refine Kept.foldl ?_ ?_
    · exact h20
    · intro s23 x24 h25
      exact h6 _ _ h25
  clear_value s21
  extract_lets +onlyGivenNames x26
  extract_lets +onlyGivenNames s27
  have h28 : Kept s₀ s27 := by
    dsimp -zeta only [s27]
    exact Kept.ite (Kept.ite (State.laneArise_kept h22) h22) (Kept.ite (State.rxDown_kept h22) h22)
  clear_value s27
  extract_lets +onlyGivenNames s29
  have h30 : Kept s₀ s29 := by
    dsimp -zeta only [s29]
    exact Kept.ite h28 (State.loopChange_kept h28)
  clear_value s29
  extract_lets +onlyGivenNames s31
  have h32 : Kept s₀ s31 := by
    dsimp -zeta only [s31]
    exact Kept.ite (State.setLane_kept (State.freeWord_kept h30)) h30
  clear_value s31
  extract_lets +onlyGivenNames x33
  clear_value x33
  extract_lets +onlyGivenNames s34
  have h35 : Kept s₀ s34 := by
    dsimp -zeta only [s34]
    exact Kept.ite (State.laneCause_kept h32) h32
  clear_value s34
  extract_lets +onlyGivenNames s36
  have h37 : Kept s₀ s36 := by
    dsimp -zeta only [s36]
    exact Kept.ite (State.prbsRestart_kept h35) (State.setBit_kept h35)
  clear_value s36
  extract_lets +onlyGivenNames s38
  have h39 : Kept s₀ s38 := by
    dsimp -zeta only [s38]
    refine Kept.ite ?_ ?_
    · split
      · rename_i x40 x41 e42
        split
        · rename_i e43
          exact State.genStart_kept h37
        · rename_i x44
          exact h37
      · rename_i x45 e46
        exact h37
    · exact h37
  clear_value s38
  exact State.synceCheck_kept (State.showLane_kept h39)

theorem State.prbsLocks_kept {l} (h : Kept s₀ s) : Kept s₀ (State.prbsLocks s l) := by
  unfold State.prbsLocks
  exact Kept.ite (State.setBit_kept h) h

theorem State.prbsLoses_kept {l errs} (h : Kept s₀ s) : Kept s₀ (State.prbsLoses s l errs) := by
  unfold State.prbsLoses
  extract_lets +onlyGivenNames a1
  clear_value a1
  exact Kept.ite (State.laneCause_kept (State.setBit_kept (State.prbsAdd_kept h))) h

theorem State.eyeWrite_kept {f l v} (h : Kept s₀ s) : Kept s₀ (State.eyeWrite s f l v) := by
  unfold State.eyeWrite
  extract_lets +onlyGivenNames a1
  clear_value a1
  extract_lets +onlyGivenNames x2
  clear_value x2
  extract_lets +onlyGivenNames s3
  have h4 : Kept s₀ s3 := by
    dsimp -zeta only [s3]
    exact State.setReg_kept h
  clear_value s3
  refine Kept.ite h4 ?_
  refine Kept.ite (State.busyWrite_kept h4) ?_
  refine Kept.ite (State.laneCause_kept (State.eyeEnd_kept h4)) ?_
  refine Kept.ite (State.eyeEnd_kept h4) ?_
  extract_lets +onlyGivenNames s5
  have h6 : Kept s₀ s5 := by
    dsimp -zeta only [s5]
    exact State.setBit_kept (State.setBit_kept h4)
  clear_value s5
  exact State.setLane_kept h6

theorem State.eyeDone_kept {l errs} (h : Kept s₀ s) : Kept s₀ (State.eyeDone s l errs) := by
  unfold State.eyeDone
  exact Kept.ite (State.eyeEnd_kept h) h

theorem State.faultRx_kept {n f c on} (h : Kept s₀ s) : Kept s₀ (State.faultRx s n f c on) := by
  unfold State.faultRx
  extract_lets +onlyGivenNames x1
  clear_value x1
  refine Kept.ite ?_ ?_
  · exact h
  · extract_lets +onlyGivenNames s2
    have h3 : Kept s₀ s2 := by
      dsimp -zeta only [s2]
      exact State.setBit_kept h
    clear_value s2
    exact Kept.ite (State.linkLost_kept (State.ariseF_kept h3)) (State.linePort_kept h3)

theorem State.anFails_kept {n} (h : Kept s₀ s) : Kept s₀ (State.anFails s n) := by
  unfold State.anFails
  exact Kept.ite (State.cause_kept (State.setPort_kept h)) h

theorem State.anRestarts_kept {n} (h : Kept s₀ s) : Kept s₀ (State.anRestarts s n) := by
  unfold State.anRestarts
  exact State.setPort_kept h

theorem State.anCompletes_kept {n} (h : Kept s₀ s) : Kept s₀ (State.anCompletes s n) := by
  unfold State.anCompletes
  exact Kept.ite (State.linePort_kept (State.setBit_kept h)) h

theorem State.trainExpires_kept {n} (h : Kept s₀ s) : Kept s₀ (State.trainExpires s n) := by
  unfold State.trainExpires
  extract_lets +onlyGivenNames x1
  have h2 : ∀ a3, Kept s₀ a3 → Kept s₀ (x1 a3) := by
    intro s4 h5
    dsimp -zeta only [x1]
    exact State.cause_kept h5
  clear_value x1
  refine Kept.ite ?_ ?_
  · exact Kept.ite (State.onzRestart_kept (h2 _ h)) h
  · refine Kept.ite ?_ ?_
    · extract_lets +onlyGivenNames s6
      have h7 : Kept s₀ s6 := by
        dsimp -zeta only [s6]
        refine Kept.foldl ?_ ?_
        · exact h2 _ h
        · intro s8 x9 h10
          exact State.setWorkFir_kept h10
      clear_value s6
      exact Kept.ite (State.linePort_kept (State.setBit_kept h7)) h7
    · exact h

theorem State.trainRx_kept {n l tap dir done} (h : Kept s₀ s) : Kept s₀ (State.trainRx s n l tap dir done) := by
  unfold State.trainRx
  refine Kept.ite ?_ ?_
  · exact h
  · extract_lets +onlyGivenNames x1
    clear_value x1
    extract_lets +onlyGivenNames x2
    clear_value x2
    extract_lets +onlyGivenNames s3
    have h4 : Kept s₀ s3 := by
      dsimp -zeta only [s3]
      exact Kept.ite h (Kept.ite (State.emit_kept (State.setWorkFir_kept h)) (Kept.ite (State.emit_kept
          (State.setWorkFir_kept h)) (State.emit_kept h)))
    clear_value s3
    exact Kept.ite (State.linePort_kept (State.setBit_kept h4)) h4

theorem State.onzMarkerUp_kept {n} (h : Kept s₀ s) : Kept s₀ (State.onzMarkerUp s n) := by
  unfold State.onzMarkerUp
  exact Kept.ite (State.linkRise_kept h) h

theorem State.onzDrop_kept {n} (h : Kept s₀ s) : Kept s₀ (State.onzDrop s n) := by
  unfold State.onzDrop
  exact Kept.ite (State.linkLost_kept h) h

theorem State.onzRun_kept {n level} (h : Kept s₀ s) : Kept s₀ (State.onzRun s n level) := by
  unfold State.onzRun
  exact Kept.ite (State.onzMarkerUp_kept h) (Kept.ite (State.onzDrop_kept h) h)

theorem State.onzBadMarker_kept {n level syms inFrame} (h : Kept s₀ s) : Kept s₀ (State.onzBadMarker s n level syms
    inFrame) := by
  unfold State.onzBadMarker
  refine Kept.ite ?_ ?_
  · exact h
  · extract_lets +onlyGivenNames s1
    have h2 : Kept s₀ s1 := by
      dsimp -zeta only [s1]
      exact State.addCnt_kept h
    clear_value s1
    extract_lets +onlyGivenNames s3
    have h4 : Kept s₀ s3 := by
      dsimp -zeta only [s3]
      exact Kept.ite (State.onzGet_kept h2) h2
    clear_value s3
    extract_lets +onlyGivenNames s5
    have h6 : Kept s₀ s5 := by
      dsimp -zeta only [s5]
      exact Kept.ite (State.addCnt_kept h4) h4
    clear_value s5
    exact State.onzRun_kept h6

theorem State.onzBadRx_kept {n bad inFrame} (h : Kept s₀ s) : Kept s₀ (State.onzBadRx s n bad inFrame) := by
  unfold State.onzBadRx
  split
  · rename_i x1 x2 x3 x4
    exact Kept.ite h (Kept.ite (State.onzRun_kept h) (State.onzBadMarker_kept h))
  · rename_i x5 x6
    exact Kept.ite h (State.addCnt_kept (State.onzGet_kept h))

theorem State.alignLost_kept {n} (h : Kept s₀ s) : Kept s₀ (State.alignLost s n) := by
  unfold State.alignLost
  exact State.linkLost_kept (State.setPort_kept h)

theorem State.alignRx_kept {n bs} (h : Kept s₀ s) : Kept s₀ (State.alignRx s n bs) := by
  unfold State.alignRx
  refine Kept.ite ?_ ?_
  · exact h
  · extract_lets +onlyGivenNames x1
    clear_value x1
    split
    · rename_i x2 x3 e4
      extract_lets +onlyGivenNames x5
      clear_value x5
      exact State.setPort_kept h
    · rename_i x6 e7
      exact Kept.ite (State.alignLost_kept h) (State.setPort_kept h)

theorem State.lgCalDone_kept {g ok} (h : Kept s₀ s) : Kept s₀ (State.lgCalDone s g ok) := by
  unfold State.lgCalDone
  refine Kept.ite h ?_
  refine Kept.ite ?_ ?_
  · extract_lets +onlyGivenNames s1
    have h2 : Kept s₀ s1 := by
      dsimp -zeta only [s1]
      exact State.setDomBit_kept (State.setBit_kept (State.setBit_kept h))
    clear_value s1
    refine Kept.foldl h2 ?_
    intro s3 x4 h5
    exact State.portStart_kept h5
  · extract_lets +onlyGivenNames k6
    clear_value k6
    extract_lets +onlyGivenNames s7
    clear_value s7
    extract_lets +onlyGivenNames s8
    have h9 : Kept s₀ s8 := by
      dsimp -zeta only [s8]
      exact h.any
    clear_value s8
    extract_lets +onlyGivenNames s10
    have h11 : Kept s₀ s10 := by
      dsimp -zeta only [s10]
      exact State.lgOff_kept h9
    clear_value s10
    exact Kept.ite (State.domFailed_kept h11) h11

/-! ### Machine/Rx.lean -/

theorem State.fecCount_kept {n corr unc sym} (h : Kept s₀ s) : Kept s₀ (State.fecCount s n corr unc sym) := by
  unfold State.fecCount
  refine Kept.ite h ?_
  extract_lets +onlyGivenNames s1
  have h2 : Kept s₀ s1 := by
    dsimp -zeta only [s1]
    exact State.addCnt_kept (State.addCnt_kept (State.addCnt_kept h))
  clear_value s1
  exact Kept.ite h2 (State.cause_kept h2)

theorem State.macCtrlRx_kept {n bs} (h : Kept s₀ s) : Kept s₀ (State.macCtrlRx s n bs) := by
  unfold State.macCtrlRx
  extract_lets +onlyGivenNames op1
  clear_value op1
  extract_lets +onlyGivenNames s2
  have h3 : Kept s₀ s2 := by
    dsimp -zeta only [s2]
    exact Kept.ite (State.rxPause_kept h) (Kept.ite (State.rxPfc_kept h) (State.rxMacCtrlOther_kept h))
  clear_value s2
  exact State.stallEvals_kept h3

theorem State.rxAdmit_kept {n rx} (h : Kept s₀ s) : Kept s₀ (State.rxAdmit s n rx) := by
  unfold State.rxAdmit
  extract_lets +onlyGivenNames p1
  clear_value p1
  extract_lets +onlyGivenNames s2
  have h3 : Kept s₀ s2 := by
    dsimp -zeta only [s2]
    exact State.addCnt_kept (State.addCnt_kept h)
  clear_value s2
  split
  · rename_i x4 e5 s6 e7
    extract_lets +onlyGivenNames k8
    clear_value k8
    extract_lets +onlyGivenNames s9
    have h10 : Kept s₀ s9 := by
      dsimp -zeta only [s9]
      exact State.mirrorCopy_kept (Kept.snd e7 (State.bpmAlloc_kept h3))
    clear_value s9
    exact Kept.ite (State.bpmRelease_kept (State.addCnt_kept h10)) (State.setPipe_kept h10)
  · rename_i x11 x12 s13 x14 e15
    exact State.addCnt_kept (Kept.snd e15 (State.bpmAlloc_kept h3))

theorem State.linkFrameRx_kept {n bs age} (h : Kept s₀ s) : Kept s₀ (State.linkFrameRx s n bs age) := by
  unfold State.linkFrameRx
  split
  · rename_i x1 x2 e3
    exact State.addCnt_kept (Kept.ite (State.addWrap32_kept h) h)
  · rename_i x4 e5
    refine Kept.ite ?_ ?_
    · exact State.calReturn_kept h
    · split
      · rename_i x6 x7 e8
        exact State.tlReceive_kept h
      · rename_i x9 e10
        exact Kept.ite (State.addWrap32_kept h) h

theorem State.rxLine_kept {n rx} (h : Kept s₀ s) : Kept s₀ (State.rxLine s n rx).2 := by
  unfold State.rxLine
  extract_lets +onlyGivenNames x1
  clear_value x1
  split
  · rename_i e2
    split
    · rename_i x3 e4
      exact h
    · rename_i x5 x6 x7 e8
      dsimp -zeta only
      exact State.setPort_kept h
  · rename_i x9
    split
    · rename_i e10
      split
      · rename_i x11 x12 s13 e14
        dsimp -zeta only
        exact Kept.snd e14 (State.onzGet_kept h)
    · rename_i x15
      exact h

theorem State.farEnd_kept {n rx} (h : Kept s₀ s) : Kept s₀ (State.farEnd s n rx) := by
  unfold State.farEnd
  exact Kept.ite (State.emit_kept h) h

theorem State.frameArrival_kept {n rx} (h : Kept s₀ s) : Kept s₀ (State.frameArrival s n rx) := by
  unfold State.frameArrival
  split
  · rename_i x1 s2 e3
    exact Kept.snd e3 (State.rxLine_kept h)
  · rename_i x4 x5 x6 x7 s8 e9
    extract_lets +onlyGivenNames s10
    have h11 : Kept s₀ s10 := by
      dsimp -zeta only [s10]
      exact State.onzMarkerUp_kept (State.fecCount_kept (State.farEnd_kept (Kept.snd e9 (State.rxLine_kept h))))
    clear_value s10
    refine Kept.ite ?_ ?_
    · exact h11
    · refine Kept.ite ?_ ?_
      · exact State.addCnt_kept h11
      · refine Kept.ite ?_ ?_
        · exact State.addCnt_kept h11
        · refine Kept.ite ?_ ?_
          · exact State.linkFrameRx_kept h11
          · split
            · rename_i x12 x13 e14
              exact State.addCnt_kept h11
            · rename_i x15 e16
              exact Kept.ite (State.macCtrlRx_kept h11) (Kept.ite h11 (State.rxAdmit_kept h11))

theorem State.calFrameRx_kept {n bs age} (h : Kept s₀ s) : Kept s₀ (State.calFrameRx s n bs age) := by
  unfold State.calFrameRx
  exact Kept.ite (State.linkFrameRx_kept h) h

theorem State.tlFrameRx_kept {k bs age} (h : Kept s₀ s) : Kept s₀ (State.tlFrameRx s k bs age) := by
  unfold State.tlFrameRx
  split
  · rename_i x1 e2
    exact h
  · rename_i x3 x4 e5
    split
    · rename_i x6 x7 e8
      exact State.addCnt_kept (Kept.ite (State.addWrap32_kept h) h)
    · rename_i x9 e10
      exact State.tlReceive_kept h

/-! ### Machine/Ver.lean -/

theorem State.setVer_kept {n v} (h : Kept s₀ s) : Kept s₀ (State.setVer s n v) := by
  unfold State.setVer
  exact h.any

theorem State.setVerState_kept {n v} (h : Kept s₀ s) : Kept s₀ (State.setVerState s n v) := by
  unfold State.setVerState
  exact State.setFld_kept h

theorem State.verResult_kept {n r} (h : Kept s₀ s) : Kept s₀ (State.verResult s n r) := by
  unfold State.verResult
  extract_lets +onlyGivenNames s1
  have h2 : Kept s₀ s1 := by
    dsimp -zeta only [s1]
    exact State.setFld_kept h
  clear_value s1
  exact Kept.ite h2 (State.cause_kept h2)

theorem State.verOpen_kept {n} (h : Kept s₀ s) : Kept s₀ (State.verOpen s n) := by
  unfold State.verOpen
  extract_lets +onlyGivenNames st1
  clear_value st1
  exact Kept.ite (State.verResult_kept h) (Kept.ite (State.verResult_kept (State.setVerState_kept h)) (Kept.ite
      (State.verResult_kept (State.setBit_kept h)) (State.verResult_kept h)))

theorem State.commitLeave_kept {n} (h : Kept s₀ s) : Kept s₀ (State.commitLeave s n) := by
  unfold State.commitLeave
  extract_lets +onlyGivenNames s1
  clear_value s1
  extract_lets +onlyGivenNames s2
  have h3 : Kept s₀ s2 := by
    dsimp -zeta only [s2]
    exact State.setVer_kept h
  clear_value s2
  refine Kept.foldl (State.setVerState_kept h3) ?_
  intro s4 x5 h6
  exact State.setPipe_kept h6

theorem State.verCommit_kept {n} (h : Kept s₀ s) : Kept s₀ (State.verCommit s n) := by
  unfold State.verCommit
  extract_lets +onlyGivenNames x1
  clear_value x1
  refine Kept.ite ?_ ?_
  · exact State.verResult_kept h
  · refine Kept.ite ?_ ?_
    · exact State.verResult_kept h
    · refine Kept.ite ?_ ?_
      · exact State.verResult_kept h
      · extract_lets +onlyGivenNames s2
        have h3 : Kept s₀ s2 := by
          dsimp -zeta only [s2]
          exact State.verResult_kept h
        clear_value s2
        exact Kept.ite (State.setVer_kept h3) (State.commitLeave_kept h3)

theorem State.verAbandon_kept {n} (h : Kept s₀ s) : Kept s₀ (State.verAbandon s n) := by
  unfold State.verAbandon
  exact Kept.ite (State.verResult_kept h) (Kept.ite (State.verResult_kept h) (Kept.ite (State.verResult_kept h)
      (State.verResult_kept (State.setVerState_kept (State.setVer_kept h)))))

theorem State.verBadCmd_kept {n} (h : Kept s₀ s) : Kept s₀ (State.verBadCmd s n) := by
  unfold State.verBadCmd
  exact Kept.ite (State.verResult_kept h) (State.verResult_kept h)

theorem State.verGo_kept {n} (h : Kept s₀ s) : Kept s₀ (State.verGo s n) := by
  unfold State.verGo
  split
  · exact State.verOpen_kept h
  · exact State.verCommit_kept h
  · exact State.verAbandon_kept h
  · exact State.verBadCmd_kept h

theorem State.verRound_kept (h : Kept s₀ s) : Kept s₀ (State.verRound s) := by
  unfold State.verRound
  refine Kept.foldl h ?_
  intro s1 x2 h3
  split
  · exact h3
  · exact Kept.ite (State.setVer_kept h3) (Kept.ite (State.commitLeave_kept h3) (State.setVer_kept h3))

theorem State.commitApply_kept {p} (h : Kept s₀ s) : Kept s₀ (State.commitApply s p) := by
  unfold State.commitApply
  extract_lets +onlyGivenNames x1
  clear_value x1
  refine Kept.ite ?_ ?_
  · exact h
  · extract_lets +onlyGivenNames x2
    clear_value x2
    extract_lets +onlyGivenNames s3
    have h4 : Kept s₀ s3 := by
      dsimp -zeta only [s3]
      exact State.setPipe_kept h
    clear_value s3
    extract_lets +onlyGivenNames s5
    have h6 : Kept s₀ s5 := by
      dsimp -zeta only [s5]
      exact State.setFld_kept h4
    clear_value s5
    refine Kept.ite ?_ ?_
    · exact h6
    · extract_lets +onlyGivenNames s7
      have h8 : Kept s₀ s7 := by
        dsimp -zeta only [s7]
        exact State.addWrap32_kept h6
      clear_value s7
      extract_lets +onlyGivenNames s9
      have h10 : Kept s₀ s9 := by
        dsimp -zeta only [s9]
        exact State.setFld_kept h8
      clear_value s9
      exact State.setVerState_kept (State.setVer_kept h10)

theorem State.drainComplete_kept {n} (h : Kept s₀ s) : Kept s₀ (State.drainComplete s n) := by
  unfold State.drainComplete
  refine Kept.ite h ?_
  extract_lets +onlyGivenNames ns1
  clear_value ns1
  extract_lets +onlyGivenNames s2
  have h3 : Kept s₀ s2 := by
    dsimp -zeta only [s2]
    exact State.setReg_kept h
  clear_value s2
  exact State.setVerState_kept (State.setVer_kept h3)

theorem State.drainTimeout_kept {n} (h : Kept s₀ s) : Kept s₀ (State.drainTimeout s n) := by
  unfold State.drainTimeout
  exact Kept.ite h (State.ariseF_kept (State.setVer_kept h))

theorem State.verSweep_kept {p gone stamp} (h : Kept s₀ s) : Kept s₀ (State.verSweep s p gone stamp) := by
  unfold State.verSweep
  extract_lets +onlyGivenNames s1
  have h2 : Kept s₀ s1 := by
    dsimp -zeta only [s1]
    refine Kept.foldl ?_ ?_
    · exact h
    · intro s3 x4 h5
      extract_lets +onlyGivenNames x6
      exact Kept.ite (State.emFreed_kept (State.setEmRow_kept h5)) (Kept.ite (State.setEmRow_kept h5)
          (State.setEmRow_kept h5))
  clear_value s1
  refine Kept.foldl ?_ ?_
  · exact h2
  · intro s7 x8 h9
    extract_lets +onlyGivenNames x10
    clear_value x10
    exact State.setTcRow_kept h9

theorem State.verIdle_kept {n} (h : Kept s₀ s) : Kept s₀ (State.verIdle s n) := by
  unfold State.verIdle
  exact Kept.ite (State.setVerState_kept (State.setBit_kept h)) (State.setVerState_kept h)

theorem State.retireDone_kept {n} (h : Kept s₀ s) : Kept s₀ (State.retireDone s n) := by
  unfold State.retireDone
  refine Kept.ite h ?_
  refine State.verIdle_kept ?_
  refine Kept.foldl h ?_
  intro s1 x2 h3
  exact State.verSweep_kept h3

theorem State.abandonDone_kept {n} (h : Kept s₀ s) : Kept s₀ (State.abandonDone s n) := by
  unfold State.abandonDone
  refine Kept.ite h ?_
  refine State.verIdle_kept ?_
  refine Kept.foldl h ?_
  intro s1 x2 h3
  exact State.verSweep_kept h3

theorem State.gwDone_kept {p res loc} (h : Kept s₀ s) : Kept s₀ (State.gwDone s p res loc) := by
  unfold State.gwDone
  exact State.setBit_kept (State.setFld_kept (State.setFld_kept h))

theorem State.gwPlace_kept {p st t v} (h : Kept s₀ s) : Kept s₀ (State.gwPlace s p st t v).2 := by
  unfold State.gwPlace
  split
  · rename_i x1 x2 s3 e4
    dsimp -zeta only
    exact Kept.snd e4 (State.emInsert_kept h)
  · rename_i x5 x6 s7 e8
    dsimp -zeta only
    exact Kept.snd e8 (State.emInsert_kept h)
  · rename_i x9 x10 s11 x12 x13 e14
    dsimp -zeta only
    exact Kept.snd e14 (State.emInsert_kept h)

theorem State.gwFind_kept {p st t v} (h : Kept s₀ s) : Kept s₀ (State.gwFind s p st t v).2 := by
  unfold State.gwFind
  extract_lets +onlyGivenNames key1
  clear_value key1
  split
  · dsimp -zeta only
    exact State.emParities_kept h

theorem State.gInsert_kept {p st t v} (h : Kept s₀ s) : Kept s₀ (State.gInsert s p st t v) := by
  unfold State.gInsert
  split
  · rename_i x1 x2 s3 e4
    exact State.gwDone_kept (Kept.snd e4 (State.gwFind_kept h))
  · rename_i x5 s6 e7
    refine Kept.ite (State.gwDone_kept (Kept.snd e7 (State.gwFind_kept h))) ?_
    split
    · rename_i x8 x9 s10 e11
      exact State.gwDone_kept (Kept.snd e11 (State.gwPlace_kept (Kept.snd e7 (State.gwFind_kept h))))
    · rename_i x12 s13 e14
      exact State.gwDone_kept (Kept.snd e14 (State.gwPlace_kept (Kept.snd e7 (State.gwFind_kept h))))

theorem State.gReplace_kept {p st t v} (h : Kept s₀ s) : Kept s₀ (State.gReplace s p st t v) := by
  unfold State.gReplace
  split
  · rename_i x1 s2 e3
    exact State.gwDone_kept (Kept.snd e3 (State.gwFind_kept h))
  · rename_i x4 x5 s6 e7
    extract_lets +onlyGivenNames r8
    clear_value r8
    refine Kept.ite (State.gwDone_kept (Kept.snd e7 (State.gwFind_kept h))) ?_
    refine Kept.ite (State.gwDone_kept (Kept.snd e7 (State.gwFind_kept h))) ?_
    split
    · rename_i x9 x10 s11 e12
      exact State.gwDone_kept (Kept.snd e12 (State.gwPlace_kept (State.setEmRow_kept (Kept.snd e7 (State.gwFind_kept h)))))
    · rename_i x13 s14 e15
      exact State.gwDone_kept (State.setEmRow_kept (Kept.snd e15 (State.gwPlace_kept (State.setEmRow_kept (Kept.snd e7
          (State.gwFind_kept h))))))

theorem State.gDelete_kept {p st t v} (h : Kept s₀ s) : Kept s₀ (State.gDelete s p st t v) := by
  unfold State.gDelete
  split
  · rename_i x1 s2 e3
    exact State.gwDone_kept (Kept.snd e3 (State.gwFind_kept h))
  · rename_i x4 x5 s6 e7
    extract_lets +onlyGivenNames r8
    clear_value r8
    exact Kept.ite (State.gwDone_kept (Kept.snd e7 (State.gwFind_kept h))) (Kept.ite (State.gwDone_kept (Kept.snd e7
        (State.gwFind_kept h))) (State.gwDone_kept (State.setEmRow_kept (Kept.snd e7 (State.gwFind_kept h)))))

theorem State.gTcInsert_kept {p st t v} (h : Kept s₀ s) : Kept s₀ (State.gTcInsert s p st t v) := by
  unfold State.gTcInsert
  refine Kept.ite ?_ ?_
  · exact State.gwDone_kept (State.tcFree_kept h)
  · split
    · rename_i x1 x2 e3
      exact State.gwDone_kept (State.tcFree_kept h)
    · rename_i x4 x5 e6
      exact State.tcStart_kept h

theorem State.gTcDelete_kept {p st t v a} (h : Kept s₀ s) : Kept s₀ (State.gTcDelete s p st t v a) := by
  unfold State.gTcDelete
  extract_lets +onlyGivenNames x1
  clear_value x1
  exact Kept.ite (State.gwDone_kept h) (Kept.ite (State.gwDone_kept h) (Kept.ite (State.gwDone_kept h)
      (State.gwDone_kept (State.setTcRow_kept h))))

theorem State.gwGo_kept {p} (h : Kept s₀ s) : Kept s₀ (State.gwGo s p) := by
  unfold State.gwGo
  extract_lets +onlyGivenNames x1
  clear_value x1
  extract_lets +onlyGivenNames x2
  clear_value x2
  refine Kept.ite ?_ ?_
  · exact State.gwDone_kept h
  · extract_lets +onlyGivenNames s3
    have h4 : Kept s₀ s3 := by
      dsimp -zeta only [s3]
      exact State.gwDone_kept h
    clear_value s3
    exact Kept.ite (State.iaTake_kept h4) (State.tcTake_kept h4)

theorem State.gwRun_kept {p c} (h : Kept s₀ s) : Kept s₀ (State.gwRun s p c) := by
  unfold State.gwRun
  extract_lets +onlyGivenNames x1
  clear_value x1
  extract_lets +onlyGivenNames x2
  clear_value x2
  extract_lets +onlyGivenNames x3
  clear_value x3
  extract_lets +onlyGivenNames x4
  clear_value x4
  extract_lets +onlyGivenNames x5
  clear_value x5
  refine Kept.ite ?_ ?_
  · exact State.gwDone_kept (Kept.ite h (State.tcFree_kept h))
  · split
    · rename_i x6
      exact State.gInsert_kept h
    · rename_i x7
      exact State.gReplace_kept h
    · rename_i x8
      exact State.gDelete_kept h
    · rename_i x9
      exact State.gTcInsert_kept h
    · rename_i x10 x11 x12 x13 x14
      exact State.gTcDelete_kept (State.tcFree_kept h)

theorem State.iaTurn_kept {p st} (h : Kept s₀ s) : Kept s₀ (State.iaTurn s p st) := by
  unfold State.iaTurn
  extract_lets +onlyGivenNames x1
  clear_value x1
  refine Kept.ite ?_ ?_
  · exact h
  · extract_lets +onlyGivenNames x2
    clear_value x2
    split
    · rename_i x3 x4 s5 e6
      refine Kept.ite ?_ ?_
      · exact State.setEmStage_kept (Kept.snd e6 (State.freeBool_kept h))
      · extract_lets +onlyGivenNames s7
        have h8 : Kept s₀ s7 := by
          dsimp -zeta only [s7]
          exact State.setEmStage_kept (Kept.snd e6 (State.freeBool_kept h))
        clear_value s7
        refine Kept.ite ?_ ?_
        · exact State.parityInvalidate_kept h8
        · extract_lets +onlyGivenNames s9
          have h10 : Kept s₀ s9 := by
            dsimp -zeta only [s9]
            exact State.setBit_kept (State.setEmStage_kept h8)
          clear_value s9
          split
          · rename_i x11 x12 e13
            exact State.gwRun_kept h10
          · rename_i x14 x15
            exact State.iaRun_kept h10

theorem State.tcMoveTurn_kept {p m} (h : Kept s₀ s) : Kept s₀ (State.tcMoveTurn s p m) := by
  unfold State.tcMoveTurn
  split
  · rename_i x1 x2 x3 e4
    extract_lets +onlyGivenNames s5
    have h6 : Kept s₀ s5 := by
      dsimp -zeta only [s5]
      exact State.tcCopy_kept h
    clear_value s5
    exact State.setTcPipe_kept h6
  · rename_i x7 e8
    extract_lets +onlyGivenNames x9
    clear_value x9
    extract_lets +onlyGivenNames s10
    have h11 : Kept s₀ s10 := by
      dsimp -zeta only [s10]
      exact State.addCnt_kept (State.addCnt_kept (State.setTcRow_kept h))
    clear_value s10
    extract_lets +onlyGivenNames x12
    clear_value x12
    extract_lets +onlyGivenNames s13
    have h14 : Kept s₀ s13 := by
      dsimp -zeta only [s13]
      exact State.setTcPipe_kept h11
    clear_value s13
    extract_lets +onlyGivenNames s15
    have h16 : Kept s₀ s15 := by
      dsimp -zeta only [s15]
      exact State.setFld_kept (State.tcFree_kept h14)
    clear_value s15
    split
    · rename_i x17 x18
      exact State.gwDone_kept h16
    · rename_i x19 x20
      exact State.tcDone_kept h16

theorem State.tcJobTurn_kept {p j} (h : Kept s₀ s) : Kept s₀ (State.tcJobTurn s p j) := by
  unfold State.tcJobTurn
  extract_lets +onlyGivenNames x1
  clear_value x1
  split
  · rename_i x2 x3 s4 e5
    refine Kept.ite ?_ ?_
    · exact State.setTcPipe_kept (Kept.snd e5 (State.freeBool_kept h))
    · extract_lets +onlyGivenNames s6
      have h7 : Kept s₀ s6 := by
        dsimp -zeta only [s6]
        exact State.setTcPipe_kept (Kept.snd e5 (State.freeBool_kept h))
      clear_value s6
      split
      · rename_i x8 x9
        exact State.gwRun_kept h7
      · rename_i x10
        exact State.tcRun_kept h7

theorem State.tcTurn_kept {p} (h : Kept s₀ s) : Kept s₀ (State.tcTurn s p) := by
  unfold State.tcTurn
  extract_lets +onlyGivenNames x1
  extract_lets +onlyGivenNames s2
  have h3 : Kept s₀ s2 := by
    dsimp -zeta only [s2]
    exact State.setTcPipe_kept h
  clear_value s2
  extract_lets +onlyGivenNames x4
  clear_value x4
  split
  · rename_i x5 x6 e7
    exact State.tcMoveTurn_kept h3
  · rename_i x8 e9
    refine Kept.ite ?_ ?_
    · exact State.tcInvalidate_kept h3
    · refine Kept.ite ?_ ?_
      · exact State.scrubStep_kept h3
      · split
        · rename_i x10 e11
          exact h3
        · rename_i x12 x13 e14
          exact State.tcJobTurn_kept h3

theorem State.verReset_kept {n} (h : Kept s₀ s) : Kept s₀ (State.verReset s n) := by
  unfold State.verReset
  extract_lets +onlyGivenNames s1
  have h2 : Kept s₀ s1 := by
    dsimp -zeta only [s1]
    exact State.setReg_kept (State.setReg_kept h)
  clear_value s1
  extract_lets +onlyGivenNames s3
  have h4 : Kept s₀ s3 := by
    dsimp -zeta only [s3]
    exact State.setReg_kept (State.setVer_kept h2)
  clear_value s3
  refine Kept.foldl ?_ ?_
  · exact h4
  · intro s5 x6 h7
    extract_lets +onlyGivenNames x8
    clear_value x8
    extract_lets +onlyGivenNames s9
    have h10 : Kept s₀ s9 := by
      dsimp -zeta only [s9]
      exact State.setPipe_kept h7
    clear_value s9
    extract_lets +onlyGivenNames s11
    have h12 : Kept s₀ s11 := by
      dsimp -zeta only [s11]
      exact Kept.ite (State.gwDone_kept h10) h10
    clear_value s11
    exact State.setCnt_kept (State.setFld_kept h12)

end Sys2Proof.Machine
end

