-- ==== Sys2Proof/Laws/KeptF.lean ====
section
/-! SUPPORT. What every operation of Machine/ (Audit, Pitch, Loader, Clk, Tick) keeps: one lemma for each, which the lemmas about its callers cite. -/

namespace Sys2Proof.Machine

variable {s₀ s : State}

/-! ### Machine/Audit.lean -/

theorem State.setOrphan_kept {h' o} (h : Kept s₀ s) : Kept s₀ (State.setOrphan s h' o) := by
  unfold State.setOrphan
  exact h.anyBpm

theorem State.setAudQ_kept {n q} (h : Kept s₀ s) : Kept s₀ (State.setAudQ s n q) := by
  unfold State.setAudQ
  exact h.anyBpm

theorem State.audReport_kept {h' b o} (h : Kept s₀ s) : Kept s₀ (State.audReport s h' b o) := by
  unfold State.audReport
  extract_lets +onlyGivenNames n1
  clear_value n1
  refine Kept.ite (State.cause_kept (State.addCnt_kept h)) ?_
  extract_lets +onlyGivenNames x2
  clear_value x2
  extract_lets +onlyGivenNames s3
  have h4 : Kept s₀ s3 := by
    dsimp -zeta only [s3]
    exact State.setAudQ_kept h
  clear_value s3
  extract_lets +onlyGivenNames s5
  have h6 : Kept s₀ s5 := by
    dsimp -zeta only [s5]
    exact State.setOrphan_kept (State.addCnt_kept h4)
  clear_value s5
  exact Kept.ite (State.ariseF_kept h6) (State.cause_kept h6)

theorem State.inconsistent_kept {h'1} (h : Kept s₀ s) : Kept s₀ (State.inconsistent s h'1) := by
  unfold State.inconsistent
  extract_lets +onlyGivenNames s1
  have h2 : Kept s₀ s1 := by
    dsimp -zeta only [s1]
    exact Kept.ite h (State.setReg_kept h)
  clear_value s1
  extract_lets +onlyGivenNames s3
  have h4 : Kept s₀ s3 := by
    dsimp -zeta only [s3]
    exact State.cause_kept (State.addCnt_kept h2)
  clear_value s3
  exact Kept.anyBpm h4

theorem State.audCheck_kept {h' r} (h : Kept s₀ s) : Kept s₀ (State.audCheck s h' r) := by
  unfold State.audCheck
  split
  · exact State.setOrphan_kept h
  · refine Kept.ite (State.setOrphan_kept h) ?_
    split
    · exact State.setOrphan_kept h
    · exact Kept.ite (State.audReport_kept h) h

theorem State.auditRound_kept {r} (h : Kept s₀ s) : Kept s₀ (State.auditRound s r) := by
  unfold State.auditRound
  refine Kept.ite h ?_
  extract_lets +onlyGivenNames x1
  clear_value x1
  extract_lets +onlyGivenNames s2
  have h3 : Kept s₀ s2 := by
    dsimp -zeta only [s2]
    refine Kept.foldl h ?_
    intro s4 x5 h6
    exact State.inconsistent_kept h6
  clear_value s2
  refine Kept.foldl h3 ?_
  intro s7 x8 h9
  exact State.audCheck_kept h9

theorem State.audPop_kept {n} (h : Kept s₀ s) : Kept s₀ (State.audPop s n) := by
  unfold State.audPop
  exact State.setAudQ_kept h

theorem State.setRecl_kept {n x} (h : Kept s₀ s) : Kept s₀ (State.setRecl s n x) := by
  unfold State.setRecl
  exact Kept.anyBpm h

theorem State.reclaimEnd_kept {n r} (h : Kept s₀ s) : Kept s₀ (State.reclaimEnd s n r) := by
  unfold State.reclaimEnd
  extract_lets +onlyGivenNames x1
  clear_value x1
  exact State.setFld_kept (State.setBit_kept (State.setRecl_kept h))

theorem State.reclaim_kept {n} (h : Kept s₀ s) : Kept s₀ (State.reclaim s n) := by
  unfold State.reclaim
  extract_lets +onlyGivenNames x1
  clear_value x1
  extract_lets +onlyGivenNames x2
  clear_value x2
  refine Kept.ite ?_ ?_
  · exact State.reclaimEnd_kept h
  · refine Kept.ite ?_ ?_
    · exact State.reclaimEnd_kept h
    · split
      · rename_i x3 e4
        exact State.reclaimEnd_kept h
      · rename_i x5 x6 e7
        refine Kept.ite ?_ ?_
        · exact State.reclaimEnd_kept h
        · split
          · rename_i x8 x9 s10 e11
            exact State.setFld_kept (State.setBit_kept (State.setRecl_kept (Kept.snd e11 (State.freeWord_kept h))))

theorem State.reclaimFree_kept {h'1} (h : Kept s₀ s) : Kept s₀ (State.reclaimFree s h'1) := by
  unfold State.reclaimFree
  extract_lets +onlyGivenNames s1
  have h2 : Kept s₀ s1 := by
    dsimp -zeta only [s1]
    exact State.setBuf_kept h
  clear_value s1
  exact Kept.any h2

theorem State.reclaimStep_kept {n} (h : Kept s₀ s) : Kept s₀ (State.reclaimStep s n) := by
  unfold State.reclaimStep
  split
  · rename_i x1 e2
    exact h
  · rename_i x3 x4 e5
    extract_lets +onlyGivenNames x6
    clear_value x6
    exact Kept.ite (Kept.ite h (State.setRecl_kept h)) (Kept.ite (State.reclaimEnd_kept h) (State.reclaimEnd_kept
        (State.addCnt_kept (State.reclaimFree_kept h))))

theorem State.reclaimTurn_kept (h : Kept s₀ s) : Kept s₀ (State.reclaimTurn s) := by
  unfold State.reclaimTurn
  refine Kept.ite ?_ ?_
  · exact h
  · refine Kept.foldl ?_ ?_
    · exact h
    · intro s1 x2 h3
      exact State.reclaimStep_kept h3

/-! ### Machine/Pitch.lean -/

theorem State.wasteCols_kept {p eg} (h : Kept s₀ s) : Kept s₀ (State.wasteCols s p eg) := by
  unfold State.wasteCols
  refine State.setCols_kept ?_
  refine Kept.foldl ?_ ?_
  · exact h
  · intro s1 x2 h3
    exact State.colCount_kept h3

theorem State.pipeClear_kept {p} (h : Kept s₀ s) : Kept s₀ (State.pipeClear s p) := by
  unfold State.pipeClear
  extract_lets +onlyGivenNames q1
  clear_value q1
  extract_lets +onlyGivenNames ks2
  clear_value ks2
  extract_lets +onlyGivenNames s3
  have h4 : Kept s₀ s3 := by
    dsimp -zeta only [s3]
    refine Kept.foldl h ?_
    intro s5 x6 h7
    exact State.pktGone_kept h7
  clear_value s3
  extract_lets +onlyGivenNames s8
  have h9 : Kept s₀ s8 := by
    dsimp -zeta only [s8]
    refine Kept.foldl h4 ?_
    intro s10 x11 h12
    refine Kept.foldl h12 ?_
    intro s13 x14 h15
    exact State.mcDone_kept h15
  clear_value s8
  extract_lets +onlyGivenNames s16
  have h17 : Kept s₀ s16 := by
    dsimp -zeta only [s16]
    exact State.wasteCols_kept (State.wasteCols_kept h9)
  clear_value s16
  extract_lets +onlyGivenNames s18
  have h19 : Kept s₀ s18 := by
    dsimp -zeta only [s18]
    exact Kept.ite (State.setFld_kept h17) h17
  clear_value s18
  extract_lets +onlyGivenNames s20
  have h21 : Kept s₀ s20 := by
    dsimp -zeta only [s20]
    exact Kept.ite (State.setBit_kept h19) h19
  clear_value s20
  extract_lets +onlyGivenNames s22
  have h23 : Kept s₀ s22 := by
    dsimp -zeta only [s22]
    exact State.setBit_kept h21
  clear_value s22
  extract_lets +onlyGivenNames s24
  have h25 : Kept s₀ s24 := by
    dsimp -zeta only [s24]
    exact State.setPipe_kept h23
  clear_value s24
  extract_lets +onlyGivenNames pol26
  clear_value pol26
  extract_lets +onlyGivenNames grp27
  clear_value grp27
  extract_lets +onlyGivenNames x28
  clear_value x28
  extract_lets +onlyGivenNames s29
  clear_value s29
  extract_lets +onlyGivenNames s30
  have h31 : Kept s₀ s30 := by
    dsimp -zeta only [s30]
    exact h25.any
  clear_value s30
  extract_lets +onlyGivenNames s32
  have h33 : Kept s₀ s32 := by
    dsimp -zeta only [s32]
    refine Kept.foldl h31 ?_
    intro s34 x35 h36
    exact State.emReset_kept h36
  clear_value s32
  exact State.tcReset_kept h33

theorem State.lanesClear_kept {p} (h : Kept s₀ s) : Kept s₀ (State.lanesClear s p) := by
  unfold State.lanesClear
  dsimp only
  refine Kept.foldl (Kept.foldl h fun s x h => ?_) fun s x h => State.lgOff_kept h
  have h1 : Kept s₀ ((if s.eyeBusy (64 * p + x) then s.eyeEnd (64 * p + x) 0 else s).lmfClear (64 * p + x)) :=
    State.lmfClear_kept (Kept.ite (State.eyeEnd_kept h) h)
  exact Kept.ite h1 (State.prbsRestart_kept h1)

theorem State.dropPend_kept {p} (h : Kept s₀ s) : Kept s₀ (State.dropPend s p) := by
  unfold State.dropPend
  exact h.dropPend

theorem State.pitchEnter_kept {n} (h : Kept s₀ s) : Kept s₀ (State.pitchEnter s n) := by
  unfold State.pitchEnter
  extract_lets +onlyGivenNames x1
  clear_value x1
  extract_lets +onlyGivenNames x2
  clear_value x2
  extract_lets +onlyGivenNames s3
  have h4 : Kept s₀ s3 := by
    dsimp -zeta only [s3]
    exact State.wbTick_kept h
  clear_value s3
  extract_lets +onlyGivenNames x5
  clear_value x5
  extract_lets +onlyGivenNames x6
  clear_value x6
  extract_lets +onlyGivenNames s7
  have h8 : Kept s₀ s7 := by
    dsimp -zeta only [s7]
    refine Kept.foldl ?_ ?_
    · exact h4
    · intro s9 x10 h11
      exact State.cmisAbort_kept h11
  clear_value s7
  extract_lets +onlyGivenNames s12
  have h13 : Kept s₀ s12 := by
    dsimp -zeta only [s12]
    refine Kept.foldl ?_ ?_
    · exact h8
    · intro s14 x15 h16
      exact State.setBit_kept (State.portDisable_kept h16)
  clear_value s12
  extract_lets +onlyGivenNames s17
  have h18 : Kept s₀ s17 := by
    dsimp -zeta only [s17]
    refine Kept.foldl ?_ ?_
    · exact h13
    · intro s19 x20 h21
      exact State.pipeClear_kept h21
  clear_value s17
  extract_lets +onlyGivenNames x22
  clear_value x22
  extract_lets +onlyGivenNames x23
  clear_value x23
  extract_lets +onlyGivenNames x24
  clear_value x24
  extract_lets +onlyGivenNames x25
  clear_value x25
  extract_lets +onlyGivenNames x26
  clear_value x26
  extract_lets +onlyGivenNames s27
  have h28 : Kept s₀ s27 := by
    dsimp -zeta only [s27]
    exact Kept.any h18
  clear_value s27
  extract_lets +onlyGivenNames s29
  have h30 : Kept s₀ s29 := by
    dsimp -zeta only [s29]
    refine Kept.foldl ?_ ?_
    · exact h28
    · intro s31 x32 h33
      exact State.setReg_kept h33
  clear_value s29
  extract_lets +onlyGivenNames s34
  have h35 : Kept s₀ s34 := by
    dsimp -zeta only [s34]
    exact State.dmaPitchReset_kept (State.ostReset_kept h30)
  clear_value s34
  extract_lets +onlyGivenNames s36
  have h37 : Kept s₀ s36 := by
    dsimp -zeta only [s36]
    exact State.setAudQ_kept (State.bpmReleaseAll_kept h35)
  clear_value s36
  extract_lets +onlyGivenNames s38
  have h39 : Kept s₀ s38 := by
    dsimp -zeta only [s38]
    split
    · rename_i e40
      exact State.reclaimEnd_kept h37
    · rename_i x41
      exact h37
  clear_value s38
  extract_lets +onlyGivenNames s42
  have h43 : Kept s₀ s42 := by
    dsimp -zeta only [s42]
    exact State.wbReset_kept h39
  clear_value s42
  extract_lets +onlyGivenNames s44
  have h45 : Kept s₀ s44 := by
    dsimp -zeta only [s44]
    exact State.cntReset_kept (State.verReset_kept h43)
  clear_value s44
  extract_lets +onlyGivenNames s46
  have h47 : Kept s₀ s46 := by
    dsimp -zeta only [s46]
    refine Kept.foldl ?_ ?_
    · exact h45
    · intro s48 x49 h50
      exact State.lanesClear_kept h50
  clear_value s46
  extract_lets +onlyGivenNames s51
  have h52 : Kept s₀ s51 := by
    dsimp -zeta only [s51]
    refine Kept.foldl ?_ ?_
    · exact h47
    · intro s53 x54 h55
      refine Kept.foldl ?_ ?_
      · exact h55
      · intro s56 x57 h58
        exact State.domDown_kept h58
  clear_value s51
  extract_lets +onlyGivenNames s59
  have h60 : Kept s₀ s59 := by
    dsimp -zeta only [s59]
    exact State.kRefresh_kept (State.setReg_kept h52)
  clear_value s59
  extract_lets +onlyGivenNames s61
  have h62 : Kept s₀ s61 := by
    dsimp -zeta only [s61]
    exact State.dropPend_kept h60
  clear_value s61
  extract_lets +onlyGivenNames s63
  have h64 : Kept s₀ s63 := by
    dsimp -zeta only [s63]
    exact Kept.dropRegs h62
  clear_value s63
  extract_lets +onlyGivenNames s65
  have h66 : Kept s₀ s65 := by
    dsimp -zeta only [s65]
    exact State.clearCnts_kept h64
  clear_value s65
  exact Kept.any h66

theorem State.pitchLeave_kept {n} (h : Kept s₀ s) : Kept s₀ (State.pitchLeave s n) := by
  unfold State.pitchLeave
  extract_lets +onlyGivenNames ps1
  clear_value ps1
  extract_lets +onlyGivenNames x2
  clear_value x2
  extract_lets +onlyGivenNames tm3
  clear_value tm3
  extract_lets +onlyGivenNames tm4
  clear_value tm4
  extract_lets +onlyGivenNames s5
  have h6 : Kept s₀ s5 := by
    dsimp -zeta only [s5]
    exact h.any
  clear_value s5
  extract_lets +onlyGivenNames s7
  have h8 : Kept s₀ s7 := by
    dsimp -zeta only [s7]
    refine Kept.foldl h6 ?_
    intro s9 x10 h11
    refine Kept.ite ?_ h11
    extract_lets +onlyGivenNames x12
    have h13 : Kept s₀ x12 := by
      dsimp -zeta only [x12]
      exact State.setDomBit_kept h11
    clear_value x12
    exact h13.any
  clear_value s7
  exact State.ostRelease1_kept h8

theorem State.setPitLeave_kept {ns} (h : Kept s₀ s) : Kept s₀ (State.setPitLeave s ns) := by
  unfold State.setPitLeave
  exact Kept.any h

theorem State.setPitEnter_kept {ns} (h : Kept s₀ s) : Kept s₀ (State.setPitEnter s ns) := by
  unfold State.setPitEnter
  exact Kept.any h

theorem State.pitFollow_kept {n was} (h : Kept s₀ s) : Kept s₀ (State.pitFollow s n was) := by
  unfold State.pitFollow
  exact Kept.ite h (Kept.ite (Kept.ite (State.setPitLeave_kept h) (State.setPitEnter_kept h)) (Kept.ite (Kept.ite
      (State.setPitEnter_kept h) (State.setPitLeave_kept h)) h))

theorem State.pitCycleEnd_kept (h : Kept s₀ s) : Kept s₀ (State.pitCycleEnd s) := by
  unfold State.pitCycleEnd
  extract_lets +onlyGivenNames s1
  have h2 : Kept s₀ s1 := by
    dsimp -zeta only [s1]
    refine Kept.foldl ?_ ?_
    · exact State.setPitEnter_kept h
    · intro s3 x4 h5
      exact State.pitchEnter_kept h5
  clear_value s1
  refine Kept.foldl ?_ ?_
  · exact State.setPitLeave_kept h2
  · intro s6 x7 h8
    exact State.pitchLeave_kept h8

theorem State.pitCtlApply_kept {f n v} (h : Kept s₀ s) : Kept s₀ (State.pitCtlApply s f n v) := by
  unfold State.pitCtlApply
  extract_lets +onlyGivenNames x1
  clear_value x1
  extract_lets +onlyGivenNames x2
  clear_value x2
  extract_lets +onlyGivenNames x3
  clear_value x3
  extract_lets +onlyGivenNames s4
  have h5 : Kept s₀ s4 := by
    dsimp -zeta only [s4]
    exact Kept.ite (State.accessViolation_kept h) h
  clear_value s4
  extract_lets +onlyGivenNames s6
  have h7 : Kept s₀ s6 := by
    dsimp -zeta only [s6]
    exact Kept.ite (State.setFld_kept h5) h5
  clear_value s6
  extract_lets +onlyGivenNames s8
  have h9 : Kept s₀ s8 := by
    dsimp -zeta only [s8]
    exact Kept.ite h7 (State.setFld_kept h7)
  clear_value s8
  extract_lets +onlyGivenNames x10
  extract_lets +onlyGivenNames s11
  have h12 : Kept s₀ s11 := by
    dsimp -zeta only [s11]
    exact Kept.ite h9 (Kept.any h9)
  clear_value s11
  exact State.pitFollow_kept h12

theorem State.pitCtlWrite_kept {f n v} (h : Kept s₀ s) : Kept s₀ (State.pitCtlWrite s f n v) := by
  unfold State.pitCtlWrite
  split
  · rename_i x1 x2 e3
    exact Kept.ite (Kept.any h) (State.pitCtlApply_kept h)
  · rename_i x4 e5
    exact State.pitCtlApply_kept h

theorem State.wardenIdle_kept (h : Kept s₀ s) : Kept s₀ (State.wardenIdle s) := by
  unfold State.wardenIdle
  exact State.cause_kept h

theorem State.mcRangeWrite_kept {n v} (h : Kept s₀ s) : Kept s₀ (State.mcRangeWrite s n v) := by
  unfold State.mcRangeWrite
  extract_lets +onlyGivenNames a1
  clear_value a1
  extract_lets +onlyGivenNames v2
  clear_value v2
  extract_lets +onlyGivenNames r3
  clear_value r3
  extract_lets +onlyGivenNames x4
  clear_value x4
  exact Kept.ite h (Kept.ite (State.wardenIdle_kept h) (State.setReg_kept h))

theorem State.bufRsvWrite_kept {n q v} (h : Kept s₀ s) : Kept s₀ (State.bufRsvWrite s n q v) := by
  unfold State.bufRsvWrite
  extract_lets +onlyGivenNames a1
  clear_value a1
  extract_lets +onlyGivenNames x2
  clear_value x2
  extract_lets +onlyGivenNames x3
  clear_value x3
  exact Kept.ite h (Kept.ite (State.wardenIdle_kept h) (State.setFld_kept h))

theorem State.ostOwnerWrite_kept {q v} (h : Kept s₀ s) : Kept s₀ (State.ostOwnerWrite s q v) := by
  unfold State.ostOwnerWrite
  extract_lets +onlyGivenNames x1
  clear_value x1
  extract_lets +onlyGivenNames x2
  clear_value x2
  extract_lets +onlyGivenNames x3
  clear_value x3
  extract_lets +onlyGivenNames x4
  clear_value x4
  exact Kept.ite h (Kept.ite (State.wardenIdle_kept h) (Kept.ite (State.wardenIdle_kept h) (State.quadMove_kept h)))

theorem State.unload_kept {p} (h : Kept s₀ s) : Kept s₀ (State.unload s p) := by
  unfold State.unload
  extract_lets +onlyGivenNames s1
  have h2 : Kept s₀ s1 := by
    dsimp -zeta only [s1]
    exact State.setPipe_kept h
  clear_value s1
  extract_lets +onlyGivenNames s3
  have h4 : Kept s₀ s3 := by
    dsimp -zeta only [s3]
    refine Kept.foldl ?_ ?_
    · exact h2
    · intro s5 x6 h7
      exact State.setUcStore_kept h7
  clear_value s3
  extract_lets +onlyGivenNames s8
  have h9 : Kept s₀ s8 := by
    dsimp -zeta only [s8]
    exact Kept.dropRegs h4
  clear_value s8
  extract_lets +onlyGivenNames s10
  have h11 : Kept s₀ s10 := by
    dsimp -zeta only [s10]
    exact Kept.dropRegs h9
  clear_value s10
  extract_lets +onlyGivenNames s12
  have h13 : Kept s₀ s12 := by
    dsimp -zeta only [s12]
    refine Kept.foldl ?_ ?_
    · exact h11
    · intro s14 x15 h16
      exact State.setReg_kept h16
  clear_value s12
  exact State.setBit_kept (State.setBit_kept h13)

theorem State.pitchEmptied_kept {n} (h : Kept s₀ s) : Kept s₀ (State.pitchEmptied s n) := by
  unfold State.pitchEmptied
  extract_lets +onlyGivenNames s1
  have h2 : Kept s₀ s1 := by
    dsimp -zeta only [s1]
    exact State.setReg_kept h
  clear_value s1
  extract_lets +onlyGivenNames s3
  have h4 : Kept s₀ s3 := by
    dsimp -zeta only [s3]
    refine Kept.foldl h2 ?_
    intro s5 x6 h7
    exact State.setReg_kept h7
  clear_value s3
  extract_lets +onlyGivenNames s8
  have h9 : Kept s₀ s8 := by
    dsimp -zeta only [s8]
    refine Kept.foldl h4 ?_
    intro s10 x11 h12
    exact State.quadMove_kept h12
  clear_value s8
  extract_lets +onlyGivenNames ps13
  clear_value ps13
  extract_lets +onlyGivenNames s14
  extract_lets +onlyGivenNames s15
  have h16 : Kept s₀ s15 := by
    dsimp -zeta only [s15]
    exact h9.dropPs
  clear_value s15
  extract_lets +onlyGivenNames s17
  have h18 : Kept s₀ s17 := by
    dsimp -zeta only [s17]
    exact State.setBit_kept (State.setBit_kept h16)
  clear_value s17
  extract_lets +onlyGivenNames s19
  have h20 : Kept s₀ s19 := by
    dsimp -zeta only [s19]
    exact State.setCustState_kept h18
  clear_value s19
  extract_lets +onlyGivenNames pst21
  clear_value pst21
  extract_lets +onlyGivenNames ids22
  clear_value ids22
  extract_lets +onlyGivenNames x23
  clear_value x23
  extract_lets +onlyGivenNames s24
  have h25 : Kept s₀ s24 := by
    dsimp -zeta only [s24]
    exact State.resetRegs_kept h20
  clear_value s24
  exact h25.any

theorem State.commitApplyMap_kept {map} (h : Kept s₀ s) : Kept s₀ (State.commitApplyMap s map) := by
  unfold State.commitApplyMap
  extract_lets +onlyGivenNames x1
  clear_value x1
  extract_lets +onlyGivenNames x2
  clear_value x2
  extract_lets +onlyGivenNames x3
  clear_value x3
  extract_lets +onlyGivenNames s4
  have h5 : Kept s₀ s4 := by
    dsimp -zeta only [s4]
    refine Kept.foldl ?_ ?_
    · exact h
    · intro s6 x7 h8
      split
      · rename_i e9
        exact State.portDisable_kept h8
      · rename_i x10
        exact h8
  clear_value s4
  extract_lets +onlyGivenNames s11
  have h12 : Kept s₀ s11 := by
    dsimp -zeta only [s11]
    refine Kept.foldl ?_ ?_
    · refine Kept.foldl ?_ ?_
      · exact h5
      · intro s13 x14 h15
        exact State.lanesClear_kept (State.pipeClear_kept h15)
    · intro s16 x17 h18
      exact State.unload_kept h18
  clear_value s11
  extract_lets +onlyGivenNames x19
  clear_value x19
  extract_lets +onlyGivenNames s20
  have h21 : Kept s₀ s20 := by
    dsimp -zeta only [s20]
    exact Kept.dropRegs h12
  clear_value s20
  extract_lets +onlyGivenNames s22
  have h23 : Kept s₀ s22 := by
    dsimp -zeta only [s22]
    exact State.clearCnts_kept h21
  clear_value s22
  extract_lets +onlyGivenNames s24
  have h25 : Kept s₀ s24 := by
    dsimp -zeta only [s24]
    exact State.dropPend_kept h23
  clear_value s24
  extract_lets +onlyGivenNames s26
  have h27 : Kept s₀ s26 := by
    dsimp -zeta only [s26]
    refine Kept.foldl ?_ ?_
    · exact h25
    · intro s28 x29 h30
      exact State.setFld_kept h30
  clear_value s26
  extract_lets +onlyGivenNames s31
  have h32 : Kept s₀ s31 := by
    dsimp -zeta only [s31]
    refine Kept.foldl ?_ ?_
    · exact h27
    · intro s33 x34 h35
      exact State.pitchEmptied_kept h35
  clear_value s31
  exact State.expLeave_kept h32

theorem State.pitCommit_kept {i} (h : Kept s₀ s) : Kept s₀ (State.pitCommit s i) := by
  unfold State.pitCommit
  extract_lets +onlyGivenNames x1
  clear_value x1
  refine Kept.ite ?_ ?_
  · exact State.audit_kept (State.presRefuse_kept h)
  · refine Kept.ite ?_ ?_
    · exact State.busyWrite_kept h
    · extract_lets +onlyGivenNames x2
      clear_value x2
      refine Kept.ite ?_ ?_
      · split
        · rename_i x3 x4 s5 e6
          extract_lets +onlyGivenNames s7
          have h8 : Kept s₀ s7 := by
            dsimp -zeta only [s7]
            exact State.setBit_kept (State.setFld_kept (Kept.snd e6 (State.freeWord_kept h)))
          clear_value s7
          exact Kept.any h8
      · exact State.audit_kept (State.setFld_kept h)

theorem State.commitEnd_kept {c} (h : Kept s₀ s) : Kept s₀ (State.commitEnd s c) := by
  unfold State.commitEnd
  extract_lets +onlyGivenNames x1
  extract_lets +onlyGivenNames s2
  have h3 : Kept s₀ s2 := by
    dsimp -zeta only [s2]
    exact Kept.any h
  clear_value s2
  extract_lets +onlyGivenNames s4
  have h5 : Kept s₀ s4 := by
    dsimp -zeta only [s4]
    exact State.rises_kept (State.kRefresh_kept (State.commitApplyMap_kept h3))
  clear_value s4
  extract_lets +onlyGivenNames s6
  have h7 : Kept s₀ s6 := by
    dsimp -zeta only [s6]
    exact State.setBit_kept (State.setFld_kept h5)
  clear_value s6
  refine Kept.foldl ?_ ?_
  · exact State.audit_kept h7
  · intro s8 x9 h10
    exact State.pitCtlApply_kept h10

theorem State.commitTurn_kept (h : Kept s₀ s) : Kept s₀ (State.commitTurn s) := by
  unfold State.commitTurn
  split
  · rename_i x1 x2 e3
    exact Kept.ite h (State.commitEnd_kept h)
  · rename_i x4 e5
    exact h

/-! ### Machine/Loader.lean -/

theorem State.fixLayout_kept {ps} (h : Kept s₀ s) : Kept s₀ (State.fixLayout s ps) := by
  unfold State.fixLayout
  extract_lets +onlyGivenNames s1
  have h2 : Kept s₀ s1 := by
    dsimp -zeta only [s1]
    refine Kept.foldl h ?_
    intro s3 x4 h5
    extract_lets +onlyGivenNames a6
    clear_value a6
    split
    · exact State.setReg_kept h5
    · exact State.setFld_kept (State.setFld_kept (State.setBit_kept h5))
  clear_value s1
  exact State.setFld_kept (State.setBit_kept h2)

theorem State.setHash_kept {r h'} (h : Kept s₀ s) : Kept s₀ (State.setHash s r h') := by
  unfold State.setHash
  refine Kept.foldl h ?_
  intro s1 x2 h3
  exact State.setReg_kept h3

theorem State.loadCount_kept {p} (h : Kept s₀ s) : Kept s₀ (State.loadCount s p) := by
  unfold State.loadCount
  exact State.setFld_kept h

theorem State.signedPut_kept {p st img} (h : Kept s₀ s) : Kept s₀ (State.signedPut s p st img) := by
  unfold State.signedPut
  extract_lets +onlyGivenNames x1
  clear_value x1
  exact State.setUcStore_kept h

theorem State.learnWipe_kept {p st} (h : Kept s₀ s) : Kept s₀ (State.learnWipe s p st) := by
  unfold State.learnWipe
  refine Kept.foldl ?_ ?_
  · exact h
  · intro s1 x2 h3
    exact State.addCnt_kept h3

theorem State.imagePut_kept {p img} (h : Kept s₀ s) : Kept s₀ (State.imagePut s p img) := by
  unfold State.imagePut
  extract_lets +onlyGivenNames x1
  extract_lets +onlyGivenNames s2
  have h3 : Kept s₀ s2 := by
    dsimp -zeta only [s2]
    exact State.setPipe_kept h
  clear_value s2
  extract_lets +onlyGivenNames s4
  have h5 : Kept s₀ s4 := by
    dsimp -zeta only [s4]
    refine Kept.foldl ?_ ?_
    · exact h3
    · intro s6 x7 h8
      extract_lets +onlyGivenNames x9
      clear_value x9
      extract_lets +onlyGivenNames s10
      have h11 : Kept s₀ s10 := by
        dsimp -zeta only [s10]
        exact State.signedPut_kept h8
      clear_value s10
      extract_lets +onlyGivenNames s12
      have h13 : Kept s₀ s12 := by
        dsimp -zeta only [s12]
        exact State.learnWipe_kept h11
      clear_value s12
      extract_lets +onlyGivenNames s14
      have h15 : Kept s₀ s14 := by
        dsimp -zeta only [s14]
        exact State.setEmStage_kept h13
      clear_value s14
      extract_lets +onlyGivenNames s16
      have h17 : Kept s₀ s16 := by
        dsimp -zeta only [s16]
        refine Kept.foldl ?_ ?_
        · exact h15
        · intro s18 x19 h20
          exact State.setReg_kept h20
      clear_value s16
      extract_lets +onlyGivenNames s21
      have h22 : Kept s₀ s21 := by
        dsimp -zeta only [s21]
        refine Kept.foldl ?_ ?_
        · exact h17
        · intro s23 x24 h25
          exact State.setReg_kept h25
      clear_value s21
      refine Kept.foldl ?_ ?_
      · exact h22
      · intro s26 x27 h28
        exact State.setReg_kept h28
  clear_value s4
  extract_lets +onlyGivenNames s29
  have h30 : Kept s₀ s29 := by
    dsimp -zeta only [s29]
    exact State.tcEmpty_kept h5
  clear_value s29
  extract_lets +onlyGivenNames s31
  have h32 : Kept s₀ s31 := by
    dsimp -zeta only [s31]
    exact State.setBit_kept h30
  clear_value s31
  extract_lets +onlyGivenNames s33
  have h34 : Kept s₀ s33 := by
    dsimp -zeta only [s33]
    exact State.setBit_kept (State.setBit_kept h32)
  clear_value s33
  exact State.loadCount_kept (State.setHash_kept h34)

theorem State.imageReseat_kept {p img} (h : Kept s₀ s) : Kept s₀ (State.imageReseat s p img) := by
  unfold State.imageReseat
  refine State.loadCount_kept ?_
  refine Kept.foldl ?_ ?_
  · exact h
  · intro s1 x2 h3
    exact State.signedPut_kept h3

theorem State.fwDevice_kept {ws} (h : Kept s₀ s) : Kept s₀ (State.fwDevice s ws) := by
  unfold State.fwDevice
  exact Kept.ite (State.fwLoad_kept h) (Kept.ite h (State.cause_kept h))

theorem State.loadAccept_kept {ps img reseat} (h : Kept s₀ s) : Kept s₀ (State.loadAccept s ps img reseat) := by
  unfold State.loadAccept
  extract_lets +onlyGivenNames x1
  clear_value x1
  refine Kept.ite ?_ ?_
  · extract_lets +onlyGivenNames s2
    have h3 : Kept s₀ s2 := by
      dsimp -zeta only [s2]
      refine Kept.foldl ?_ ?_
      · exact h
      · intro s4 x5 h6
        exact State.imageReseat_kept h6
    clear_value s2
    extract_lets +onlyGivenNames s7
    have h8 : Kept s₀ s7 := by
      dsimp -zeta only [s7]
      exact Kept.ite (State.fwReseat_kept h3) h3
    clear_value s7
    refine Kept.foldl ?_ ?_
    · exact h8
    · intro s9 x10 h11
      exact State.fwReseat_kept h11
  · extract_lets +onlyGivenNames s12
    have h13 : Kept s₀ s12 := by
      dsimp -zeta only [s12]
      exact Kept.ite h (State.fixLayout_kept h)
    clear_value s12
    extract_lets +onlyGivenNames s14
    have h15 : Kept s₀ s14 := by
      dsimp -zeta only [s14]
      refine Kept.foldl ?_ ?_
      · exact h13
      · intro s16 x17 h18
        exact State.imagePut_kept h18
    clear_value s14
    refine Kept.foldl ?_ ?_
    · exact State.fwDevice_kept h15
    · intro s19 x20 h21
      exact State.fwLoad_kept h21

theorem State.loadAudit_kept {refused ps img} (h : Kept s₀ s) : Kept s₀ (State.loadAudit s refused ps img) := by
  unfold State.loadAudit
  split
  · rename_i x1 x2 s3 e4
    refine Kept.foldl ?_ ?_
    · refine Kept.snd e4 ?_
      split
      · rename_i x5 x6
        exact h
      · rename_i x7
        dsimp -zeta only
        exact Kept.met h
    · intro s8 x9 h10
      exact State.audit_kept h10

theorem State.loadFin_kept {f r ps img} (h : Kept s₀ s) : Kept s₀ (State.loadFin s f r ps img) := by
  unfold State.loadFin
  exact State.loadAudit_kept (State.setBit_kept (State.setFld_kept h))

theorem State.imageLoad_kept {i f read} (h : Kept s₀ s) : Kept s₀ (State.imageLoad s i f read) := by
  unfold State.imageLoad
  extract_lets +onlyGivenNames x1
  clear_value x1
  extract_lets +onlyGivenNames x2
  clear_value x2
  extract_lets +onlyGivenNames x3
  clear_value x3
  extract_lets +onlyGivenNames x4
  clear_value x4
  extract_lets +onlyGivenNames x5
  clear_value x5
  extract_lets +onlyGivenNames x6
  clear_value x6
  extract_lets +onlyGivenNames x7
  clear_value x7
  extract_lets +onlyGivenNames x8
  clear_value x8
  refine Kept.ite ?_ ?_
  · exact State.busyWrite_kept h
  · refine Kept.ite ?_ ?_
    · exact State.loadFin_kept h
    · refine Kept.ite ?_ ?_
      · exact State.loadFin_kept h
      · refine Kept.ite ?_ ?_
        · exact State.loadFin_kept h
        · extract_lets +onlyGivenNames x9
          clear_value x9
          extract_lets +onlyGivenNames x10
          extract_lets +onlyGivenNames s11
          have h12 : Kept s₀ s11 := by
            dsimp -zeta only [s11]
            exact Kept.any h
          clear_value s11
          exact State.setBit_kept (State.setFld_kept h12)

theorem State.loadEnd_kept {j} (h : Kept s₀ s) : Kept s₀ (State.loadEnd s j) := by
  unfold State.loadEnd
  split
  · rename_i x1 e2
    exact State.loadFin_kept h
  · rename_i x3 x4 e5
    extract_lets +onlyGivenNames x6
    clear_value x6
    refine Kept.ite ?_ ?_
    · split
      · rename_i x7 x8 s9 e10
        exact State.loadFin_kept (Kept.snd e10 (State.freeWord_kept h))
    · extract_lets +onlyGivenNames s11
      have h12 : Kept s₀ s11 := by
        dsimp -zeta only [s11]
        exact Kept.ite (State.presRefuse_kept h) h
      clear_value s11
      extract_lets +onlyGivenNames s13
      have h14 : Kept s₀ s13 := by
        dsimp -zeta only [s13]
        exact Kept.ite (State.cause_kept h12) h12
      clear_value s13
      extract_lets +onlyGivenNames s15
      have h16 : Kept s₀ s15 := by
        dsimp -zeta only [s15]
        exact Kept.ite (State.loadAccept_kept h14) h14
      clear_value s15
      exact State.loadFin_kept h16

theorem State.loadTurn_kept (h : Kept s₀ s) : Kept s₀ (State.loadTurn s) := by
  unfold State.loadTurn
  split
  · rename_i x1 e2
    exact h
  · rename_i x3 x4 x5 e6
    split
    · rename_i x7 x8 s9 e10
      refine Kept.ite ?_ ?_
      · extract_lets +onlyGivenNames s11
        have h12 : Kept s₀ s11 := by
          dsimp -zeta only [s11]
          exact Kept.ite (Kept.snd e10 (State.freeBool_kept h)) (State.hostReads_kept (Kept.snd e10
              (State.freeBool_kept h)))
        clear_value s11
        exact State.loadEnd_kept (Kept.any h12)
      · exact Kept.snd e10 (State.freeBool_kept h)

theorem State.bootStamp_kept {k} (h : Kept s₀ s) : Kept s₀ (State.bootStamp s k) := by
  unfold State.bootStamp
  exact State.setReg_kept h

theorem State.setStage_kept {k} (h : Kept s₀ s) : Kept s₀ (State.setStage s k) := by
  unfold State.setStage
  exact State.setFld_kept h

theorem State.setBoot_kept {b} (h : Kept s₀ s) : Kept s₀ (State.setBoot s b) := by
  unfold State.setBoot
  exact Kept.any h

theorem State.bootBegin_kept {k ms b} (h : Kept s₀ s) : Kept s₀ (State.bootBegin s k ms b) := by
  unfold State.bootBegin
  split
  · rename_i x1 x2 s3 e4
    exact State.setBoot_kept (State.setStage_kept (Kept.snd e4 (State.freeWord_kept h)))

theorem State.waitHost_kept {c} (h : Kept s₀ s) : Kept s₀ (State.waitHost s c) := by
  unfold State.waitHost
  exact State.cause_kept (State.setStage_kept h)

theorem State.deviceLoad_kept {c} (h : Kept s₀ s) : Kept s₀ (State.deviceLoad s c) := by
  unfold State.deviceLoad
  refine Kept.ite ?_ ?_
  · exact h
  · extract_lets +onlyGivenNames x1
    clear_value x1
    extract_lets +onlyGivenNames s2
    have h3 : Kept s₀ s2 := by
      dsimp -zeta only [s2]
      exact State.setBit_kept h
    clear_value s2
    split
    · rename_i x4 x5 e6
      exact State.waitHost_kept (State.bootStamp_kept h3)
    · rename_i x7 e8
      extract_lets +onlyGivenNames x9
      clear_value x9
      extract_lets +onlyGivenNames s10
      have h11 : Kept s₀ s10 := by
        dsimp -zeta only [s10]
        exact State.fixLayout_kept (State.emit_kept h3)
      clear_value s10
      extract_lets +onlyGivenNames s12
      have h13 : Kept s₀ s12 := by
        dsimp -zeta only [s12]
        exact State.fwLoad_kept h11
      clear_value s12
      extract_lets +onlyGivenNames x14
      extract_lets +onlyGivenNames s15
      have h16 : Kept s₀ s15 := by
        dsimp -zeta only [s15]
        exact Kept.any h13
      clear_value s15
      extract_lets +onlyGivenNames x17
      clear_value x17
      extract_lets +onlyGivenNames s18
      have h19 : Kept s₀ s18 := by
        dsimp -zeta only [s18]
        exact State.setHash_kept h16
      clear_value s18
      extract_lets +onlyGivenNames s20
      have h21 : Kept s₀ s20 := by
        dsimp -zeta only [s20]
        exact State.setFld_kept h19
      clear_value s20
      exact State.setStage_kept (State.bootStamp_kept (State.audit_kept h21))

theorem State.spiRead_kept {mode four block} (h : Kept s₀ s) : Kept s₀ (State.spiRead s mode four block) := by
  unfold State.spiRead
  refine Kept.ite ?_ ?_
  · exact h
  · extract_lets +onlyGivenNames s1
    have h2 : Kept s₀ s1 := by
      dsimp -zeta only [s1]
      exact State.setFld_kept h
    clear_value s1
    refine Kept.ite ?_ ?_
    · exact State.waitHost_kept h2
    · extract_lets +onlyGivenNames s3
      have h4 : Kept s₀ s3 := by
        dsimp -zeta only [s3]
        exact State.emit_kept h2
      clear_value s3
      exact Kept.ite (State.waitHost_kept h4) (State.bootBegin_kept (Kept.any h4))

theorem State.pushGo_kept {f ok} (h : Kept s₀ s) : Kept s₀ (State.pushGo s f ok) := by
  unfold State.pushGo
  refine Kept.ite ?_ ?_
  · exact State.busyWrite_kept h
  · extract_lets +onlyGivenNames x1
    clear_value x1
    extract_lets +onlyGivenNames s2
    have h3 : Kept s₀ s2 := by
      dsimp -zeta only [s2]
      exact State.setBit_kept (State.bootStamp_kept h)
    clear_value s2
    extract_lets +onlyGivenNames s4
    have h5 : Kept s₀ s4 := by
      dsimp -zeta only [s4]
      exact State.hostReads_kept h3
    clear_value s4
    exact State.bootBegin_kept (Kept.any h5)

theorem State.readEnd_kept {ok} (h : Kept s₀ s) : Kept s₀ (State.readEnd s ok) := by
  unfold State.readEnd
  extract_lets +onlyGivenNames s1
  have h2 : Kept s₀ s1 := by
    dsimp -zeta only [s1]
    exact State.setBoot_kept h
  clear_value s1
  exact Kept.ite (State.waitHost_kept (State.setBit_kept h2)) (State.setStage_kept (State.bootStamp_kept h2))

theorem State.deviceDone_kept (h : Kept s₀ s) : Kept s₀ (State.deviceDone s) := by
  unfold State.deviceDone
  exact Kept.ite (State.setStage_kept (State.bootStamp_kept h)) h

/-! ### Machine/Clk.lean -/

theorem State.squelchAll_kept (h : Kept s₀ s) : Kept s₀ (State.squelchAll s) := by
  unfold State.squelchAll
  refine Kept.foldl h ?_
  intro s1 x2 h3
  exact Kept.ite (State.linkFall_kept (State.txCut_kept h3)) h3

theorem State.arraysLost_kept {p} (h : Kept s₀ s) : Kept s₀ (State.arraysLost s p) := by
  unfold State.arraysLost
  refine State.tcReset_kept ?_
  refine Kept.foldl ?_ ?_
  · exact h
  · intro s1 x2 h3
    exact State.emReset_kept h3

theorem State.domsOff_kept (h : Kept s₀ s) : Kept s₀ (State.domsOff s) := by
  unfold State.domsOff
  extract_lets +onlyGivenNames s1
  have h2 : Kept s₀ s1 := by
    dsimp -zeta only [s1]
    refine Kept.foldl ?_ ?_
    · exact State.squelchAll_kept h
    · intro s3 x4 h5
      exact Kept.ite h5 (Kept.ite (State.lgOff_kept h5) (Kept.ite (State.arraysLost_kept (State.domDown_kept h5))
          (Kept.ite (State.wbEngine_kept (State.domDown_kept h5)) (State.domDown_kept h5))))
  clear_value s1
  exact State.kRefresh_kept (Kept.any h2)

theorem State.undervolt_kept (h : Kept s₀ s) : Kept s₀ (State.undervolt s) := by
  unfold State.undervolt
  exact Kept.ite h (Kept.pw (State.domsOff_kept h))

theorem State.thermTrip_kept (h : Kept s₀ s) : Kept s₀ (State.thermTrip s) := by
  unfold State.thermTrip
  exact Kept.ite h (Kept.pw (State.domsOff_kept h))

theorem State.alwaysOnLost_kept {mv} (h : Kept s₀ s) : Kept s₀ (State.alwaysOnLost s mv) := by
  unfold State.alwaysOnLost
  extract_lets +onlyGivenNames x1
  clear_value x1
  refine Kept.ite ?_ ?_
  · exact Kept.any h
  · extract_lets +onlyGivenNames s2
    have h3 : Kept s₀ s2 := by
      dsimp -zeta only [s2]
      exact State.domsOff_kept h
    clear_value s2
    exact Kept.any h3

theorem State.overvolt_kept (h : Kept s₀ s) : Kept s₀ (State.overvolt s) := by
  unfold State.overvolt
  refine Kept.ite ?_ ?_
  · exact h
  · extract_lets +onlyGivenNames s1
    have h2 : Kept s₀ s1 := by
      dsimp -zeta only [s1]
      exact State.domsOff_kept h
    clear_value s1
    exact Kept.any h2

theorem State.bootStage_kept {k b} (h : Kept s₀ s) : Kept s₀ (State.bootStage s k b) := by
  unfold State.bootStage
  exact Kept.ite (State.setBoot_kept (State.setStage_kept h)) (State.bootBegin_kept h)

theorem State.powerUp_kept {b} (h : Kept s₀ s) : Kept s₀ (State.powerUp s b) := by
  unfold State.powerUp
  extract_lets +onlyGivenNames u1
  exact State.bootStage_kept h.blank

theorem State.bootStop_kept {k b} (h : Kept s₀ s) : Kept s₀ (State.bootStop s k b) := by
  unfold State.bootStop
  extract_lets +onlyGivenNames s1
  have h2 : Kept s₀ s1 := by
    dsimp -zeta only [s1]
    exact State.setBit_kept (State.setBoot_kept h)
  clear_value s1
  exact Kept.ite (State.ariseF_kept (State.setFld_kept h2)) h2

theorem State.bootRails_kept {b} (h : Kept s₀ s) : Kept s₀ (State.bootRails s b) := by
  unfold State.bootRails
  extract_lets +onlyGivenNames x1
  extract_lets +onlyGivenNames s2
  have h3 : Kept s₀ s2 := by
    dsimp -zeta only [s2]
    exact State.setBit_kept (State.setBit_kept (Kept.any h))
  clear_value s2
  extract_lets +onlyGivenNames s4
  have h5 : Kept s₀ s4 := by
    dsimp -zeta only [s4]
    exact State.audit_kept h3
  clear_value s4
  extract_lets +onlyGivenNames s6
  have h7 : Kept s₀ s6 := by
    dsimp -zeta only [s6]
    exact Kept.ite h5 (State.sealOpens_kept h5)
  clear_value s6
  exact Kept.ite h7 (State.ariseF_kept h7)

theorem State.bootFuses_kept (h : Kept s₀ s) : Kept s₀ (State.bootFuses s) := by
  unfold State.bootFuses
  refine State.kRefresh_kept ?_
  refine Kept.foldl ?_ ?_
  · exact h
  · intro s1 x2 h3
    exact State.setFld_kept h3

theorem State.bootPlls_kept (h : Kept s₀ s) : Kept s₀ (State.bootPlls s) := by
  unfold State.bootPlls
  extract_lets +onlyGivenNames x1
  extract_lets +onlyGivenNames s2
  have h3 : Kept s₀ s2 := by
    dsimp -zeta only [s2]
    exact Kept.any h
  clear_value s2
  exact State.setBit_kept (State.setFld_kept h3)

theorem State.bootStep_kept {k b} (h : Kept s₀ s) : Kept s₀ (State.bootStep s k b) := by
  unfold State.bootStep
  refine Kept.ite ?_ ?_
  · exact State.bootStop_kept h
  · extract_lets +onlyGivenNames s1
    have h2 : Kept s₀ s1 := by
      dsimp -zeta only [s1]
      exact State.bootStamp_kept h
    clear_value s1
    split
    · rename_i x3
      exact State.bootStage_kept (State.bootRails_kept h2)
    · rename_i x4
      exact State.bootStage_kept h2
    · rename_i x5
      exact State.bootStage_kept (State.bootFuses_kept h2)
    · rename_i x6 x7 x8 x9
      exact State.bootPlls_kept h2

theorem State.bootTurn_kept (h : Kept s₀ s) : Kept s₀ (State.bootTurn s) := by
  unfold State.bootTurn
  split
  · rename_i x1 e2
    exact h
  · rename_i x3 x4 e5
    exact Kept.ite h (Kept.ite (State.bootStep_kept h) (State.readEnd_kept h))

theorem State.powerGood_kept {loop refOk stop plls} (h : Kept s₀ s) : Kept s₀ (State.powerGood s loop refOk stop plls) := by
  unfold State.powerGood
  exact Kept.ite h (Kept.ite (State.powerUp_kept h) (Kept.ite (Kept.ite (State.setStage_kept h.pw) h.pw) h))

theorem State.overvoltRecovery_kept {loop refOk stop plls} (h : Kept s₀ s) : Kept s₀ (State.overvoltRecovery s loop
    refOk stop plls) := by
  unfold State.overvoltRecovery
  exact Kept.ite (State.powerUp_kept h) h

theorem State.perstDeassert_kept (h : Kept s₀ s) : Kept s₀ (State.perstDeassert s) := by
  unfold State.perstDeassert
  exact Kept.ite h.any h

theorem State.pcieUp_kept {speed lanes} (h : Kept s₀ s) : Kept s₀ (State.pcieUp s speed lanes) := by
  unfold State.pcieUp
  refine Kept.ite ?_ ?_
  · extract_lets +onlyGivenNames s1
    have h2 : Kept s₀ s1 := by
      dsimp -zeta only [s1]
      exact State.setDomBit_kept (State.domUp_kept h)
    clear_value s1
    exact Kept.any h2
  · exact h

theorem State.refLoss_kept (h : Kept s₀ s) : Kept s₀ (State.refLoss s) := by
  unfold State.refLoss
  refine Kept.ite h ?_
  extract_lets +onlyGivenNames s1
  have h2 : Kept s₀ s1 := by
    dsimp -zeta only [s1]
    exact State.setBit_kept (State.setBit_kept h)
  clear_value s1
  exact State.ariseF_kept h2

theorem State.refReturn_kept (h : Kept s₀ s) : Kept s₀ (State.refReturn s) := by
  unfold State.refReturn
  exact Kept.ite (State.setBit_kept (State.setBit_kept h)) h

theorem State.fabricLoss_kept {pcie} (h : Kept s₀ s) : Kept s₀ (State.fabricLoss s pcie) := by
  unfold State.fabricLoss
  exact Kept.ite h.any h.any

theorem State.squelchShow_kept (h : Kept s₀ s) : Kept s₀ (State.squelchShow s) := by
  unfold State.squelchShow
  exact State.showLanes_kept h

theorem State.pllLoss_kept {k} (h : Kept s₀ s) : Kept s₀ (State.pllLoss s k) := by
  unfold State.pllLoss
  refine Kept.ite ?_ ?_
  · exact h
  · extract_lets +onlyGivenNames x1
    clear_value x1
    extract_lets +onlyGivenNames s2
    have h3 : Kept s₀ s2 := by
      dsimp -zeta only [s2]
      exact State.setFld_kept (Kept.ite (State.timeMark_kept h) h)
    clear_value s2
    extract_lets +onlyGivenNames s4
    have h5 : Kept s₀ s4 := by
      dsimp -zeta only [s4]
      exact State.ariseF_kept h3
    clear_value s4
    split
    · rename_i x6
      exact State.squelchShow_kept (State.squelchAll_kept h5)
    · rename_i x7
      refine State.squelchShow_kept ?_
      refine Kept.foldl ?_ ?_
      · exact State.squelchAll_kept h5
      · intro s8 x9 h10
        exact State.lockLost_kept h10
    · rename_i x11
      exact State.ttFault_kept (State.counterFault_kept h5)
    · rename_i x12
      exact State.fabricLoss_kept h5
    · rename_i x13
      exact State.wbEngine_kept (State.wbEngine_kept h5)
    · rename_i x14
      exact State.fabricLoss_kept h5
    · rename_i x15 x16 x17 x18 x19 x20 x21
      exact h5

theorem State.holdAll_kept (h : Kept s₀ s) : Kept s₀ (State.holdAll s) := by
  unfold State.holdAll
  refine Kept.foldl ?_ ?_
  · exact h
  · intro s1 x2 h3
    extract_lets +onlyGivenNames x4
    clear_value x4
    exact State.pitFollow_kept (State.setBit_kept h3)

theorem State.engineBack_kept {e} (h : Kept s₀ s) : Kept s₀ (State.engineBack s e) := by
  unfold State.engineBack
  exact Kept.ite (State.wbEngine_kept h) h

theorem State.pllRelock_kept {k} (h : Kept s₀ s) : Kept s₀ (State.pllRelock s k) := by
  unfold State.pllRelock
  refine Kept.ite ?_ ?_
  · exact h
  · extract_lets +onlyGivenNames x1
    clear_value x1
    extract_lets +onlyGivenNames s2
    have h3 : Kept s₀ s2 := by
      dsimp -zeta only [s2]
      exact State.setFld_kept (Kept.ite (State.timeMark_kept h) h)
    clear_value s2
    split
    · rename_i x4
      extract_lets +onlyGivenNames s5
      have h6 : Kept s₀ s5 := by
        dsimp -zeta only [s5]
        exact State.holdAll_kept h3
      clear_value s5
      exact Kept.any h6
    · rename_i x7
      exact Kept.any h3
    · rename_i x8
      exact State.holdAll_kept h3
    · rename_i x9
      exact State.engineBack_kept (State.engineBack_kept h3)
    · rename_i x10 x11 x12 x13 x14
      exact h3

theorem State.domAdmit_kept {d} (h : Kept s₀ s) : Kept s₀ (State.domAdmit s d) := by
  unfold State.domAdmit
  exact Kept.ite (State.domUp_kept h) h

theorem State.domLost_kept {d} (h : Kept s₀ s) : Kept s₀ (State.domLost s d) := by
  unfold State.domLost
  refine Kept.ite ?_ ?_
  · exact h
  · refine Kept.ite ?_ ?_
    · exact State.arraysLost_kept h
    · refine Kept.ite ?_ ?_
      · exact State.fenceSlice_kept h
      · refine Kept.ite ?_ ?_
        · refine Kept.foldl ?_ ?_
          · exact h
          · intro s1 x2 h3
            exact Kept.ite h3 (State.thrReset_kept h3)
        · refine Kept.ite ?_ ?_
          · exact Kept.ite (State.wbEngine_kept h) h
          · refine Kept.ite ?_ ?_
            · extract_lets +onlyGivenNames x4
              clear_value x4
              extract_lets +onlyGivenNames s5
              have h6 : Kept s₀ s5 := by
                dsimp -zeta only [s5]
                refine Kept.foldl ?_ ?_
                · exact h
                · intro s7 x8 h9
                  extract_lets +onlyGivenNames x10
                  clear_value x10
                  split
                  · rename_i e11
                    exact State.linkFall_kept (State.txCut_kept h9)
                  · rename_i x12
                    exact h9
              clear_value s5
              refine Kept.foldl ?_ ?_
              · exact h6
              · intro s13 x14 h15
                exact State.lgOff_kept h15
            · exact h

theorem State.pipeFault_kept {p} (h : Kept s₀ s) : Kept s₀ (State.pipeFault s p) := by
  unfold State.pipeFault
  extract_lets +onlyGivenNames s1
  have h2 : Kept s₀ s1 := by
    dsimp -zeta only [s1]
    refine Kept.foldl ?_ ?_
    · exact h
    · intro s3 x4 h5
      extract_lets +onlyGivenNames x6
      clear_value x6
      split
      · rename_i e7
        exact State.flushPort_kept (State.linkFall_kept (State.txCut_kept (State.showLanes_kept h5)))
      · rename_i x8
        exact h5
  clear_value s1
  extract_lets +onlyGivenNames x9
  clear_value x9
  split
  · rename_i x10 x11 s12 e13
    extract_lets +onlyGivenNames x14
    have h15 : ∀ a16 a17, Kept s₀ a16 → Kept s₀ (x14 a16 a17) := by
      intro s18 x19 h20
      dsimp -zeta only [x14]
      exact State.wbDropped_kept (State.tmDropCount_kept h20)
    clear_value x14
    extract_lets +onlyGivenNames x21
    clear_value x21
    extract_lets +onlyGivenNames s22
    have h23 : Kept s₀ s22 := by
      dsimp -zeta only [s22]
      refine Kept.foldl ?_ ?_
      · exact Kept.snd e13 (State.freeWord_kept h2)
      · intro s24 x25 h26
        exact State.pktGone_kept (h15 _ _ h26)
    clear_value s22
    extract_lets +onlyGivenNames s27
    have h28 : Kept s₀ s27 := by
      dsimp -zeta only [s27]
      refine Kept.foldl ?_ ?_
      · exact h23
      · intro s29 x30 h31
        refine Kept.foldl ?_ ?_
        · exact h31
        · intro s32 x33 h34
          exact State.mcDone_kept (h15 _ _ h34)
    clear_value s27
    extract_lets +onlyGivenNames x35
    extract_lets +onlyGivenNames s36
    have h37 : Kept s₀ s36 := by
      dsimp -zeta only [s36]
      exact State.setPipe_kept h28
    clear_value s36
    extract_lets +onlyGivenNames x38
    clear_value x38
    exact Kept.ite h37 (State.ariseF_kept h37)

theorem State.domDone_kept {d ok} (h : Kept s₀ s) : Kept s₀ (State.domDone s d ok) := by
  unfold State.domDone
  refine Kept.ite ?_ ?_
  · exact h
  · refine Kept.ite ?_ ?_
    · extract_lets +onlyGivenNames s1
      have h2 : Kept s₀ s1 := by
        dsimp -zeta only [s1]
        exact State.setDomBit_kept h
      clear_value s1
      extract_lets +onlyGivenNames s3
      have h4 : Kept s₀ s3 := by
        dsimp -zeta only [s3]
        exact Kept.ite (State.supStart_kept h2) h2
      clear_value s3
      extract_lets +onlyGivenNames s5
      have h6 : Kept s₀ s5 := by
        dsimp -zeta only [s5]
        exact Kept.ite (State.wbEngine_kept h4) h4
      clear_value s5
      exact State.deviceDone_kept h6
    · extract_lets +onlyGivenNames s7
      have h8 : Kept s₀ s7 := by
        dsimp -zeta only [s7]
        exact State.kRefresh_kept (State.domLost_kept (State.domFailed_kept (State.domDown_kept h)))
      clear_value s7
      extract_lets +onlyGivenNames s9
      have h10 : Kept s₀ s9 := by
        dsimp -zeta only [s9]
        exact Kept.ite (State.pipeFault_kept h8) h8
      clear_value s9
      exact State.deviceDone_kept h10

theorem State.domFault_kept {d} (h : Kept s₀ s) : Kept s₀ (State.domFault s d) := by
  unfold State.domFault
  refine Kept.ite ?_ ?_
  · exact h
  · refine Kept.ite ?_ ?_
    · exact State.fenceSlice_kept h
    · extract_lets +onlyGivenNames s1
      have h2 : Kept s₀ s1 := by
        dsimp -zeta only [s1]
        exact State.kRefresh_kept (State.domLost_kept (State.domFailed_kept (State.domDown_kept h)))
      clear_value s1
      extract_lets +onlyGivenNames x3
      extract_lets +onlyGivenNames s4
      have h5 : Kept s₀ s4 := by
        dsimp -zeta only [s4]
        exact Kept.any h2
      clear_value s4
      refine Kept.ite ?_ ?_
      · exact State.pipeFault_kept h5
      · split
        · rename_i e6
          exact State.ariseF_kept h5
        · rename_i x7
          exact h5

theorem State.deviceCleared_kept (h : Kept s₀ s) : Kept s₀ (State.deviceCleared s) := by
  unfold State.deviceCleared
  extract_lets +onlyGivenNames u1 u2 u3 u4 u5 u6 u7 u8 u9 u10 u11 u12 u13 u14
  have h0 : Kept s₀ u14 := h.wipe
  clear_value u14
  extract_lets +onlyGivenNames x3
  have h4 : Kept s₀ x3 := State.setBit_kept (State.setReg_kept h0)
  clear_value x3
  extract_lets +onlyGivenNames x5
  have h6 : Kept s₀ x5 := Kept.foldl h4 fun s x h => State.setReg_kept h
  clear_value x5
  extract_lets +onlyGivenNames x7
  have h8 : Kept s₀ x7 := State.setDomBit_kept (State.setBit_kept h6)
  clear_value x7
  exact State.synceCheck_kept (State.kRefresh_kept (State.tlSelect_kept (State.setBit_kept (State.setStage_kept h8))))

theorem State.deviceReset_kept {i v} (h : Kept s₀ s) : Kept s₀ (State.deviceReset s i v) := by
  unfold State.deviceReset
  extract_lets +onlyGivenNames x1
  clear_value x1
  refine Kept.ite ?_ ?_
  · exact State.auditWrite_kept (State.presRefuse_kept h)
  · extract_lets +onlyGivenNames x2
    clear_value x2
    extract_lets +onlyGivenNames s3
    have h4 : Kept s₀ s3 := by
      dsimp -zeta only [s3]
      refine Kept.foldl ?_ ?_
      · exact h
      · intro s5 x6 h7
        exact Kept.ite (State.pitchEnter_kept h7) h7
    clear_value s3
    extract_lets +onlyGivenNames x8
    clear_value x8
    extract_lets +onlyGivenNames s9
    have h10 : Kept s₀ s9 := by
      dsimp -zeta only [s9]
      exact State.deviceCleared_kept h4
    clear_value s9
    extract_lets +onlyGivenNames s11
    have h12 : Kept s₀ s11 := by
      dsimp -zeta only [s11]
      exact Kept.ite (State.timeBack_kept h10) h10
    clear_value s11
    extract_lets +onlyGivenNames s13
    have h14 : Kept s₀ s13 := by
      dsimp -zeta only [s13]
      exact State.setFld_kept h12
    clear_value s13
    extract_lets +onlyGivenNames s15
    have h16 : Kept s₀ s15 := by
      dsimp -zeta only [s15]
      exact State.setFld_kept h14
    clear_value s15
    exact State.audit_kept h16

/-! ### Machine/Tick.lean -/

theorem State.latchFrame_kept {rs} (h : Kept s₀ s) : Kept s₀ (State.latchFrame s rs) := by
  unfold State.latchFrame
  refine Kept.foldl ?_ ?_
  · exact h
  · intro s1 x2 h3
    extract_lets +onlyGivenNames x4
    clear_value x4
    exact State.setRegion_kept h3

theorem State.exemptSkips_kept {i} (h : Kept s₀ s) : Kept s₀ (State.exemptSkips s i) := by
  unfold State.exemptSkips
  extract_lets +onlyGivenNames k1
  clear_value k1
  exact Kept.ite h (State.cause_kept (State.addCnt_kept h))

theorem State.deparsePass_kept {p k} (h : Kept s₀ s) : Kept s₀ (State.deparsePass s p k) := by
  induction k generalizing s with
  | zero => exact h
  | succ k ih =>
    unfold State.deparsePass
    split
    · exact h
    · exact Kept.ite (ih (State.deparse_kept h)) h

theorem State.lockstep_kept {p eg} (h : Kept s₀ s) : Kept s₀ (State.lockstep s p eg) := by
  unfold State.lockstep
  extract_lets +onlyGivenNames s1
  have h2 : Kept s₀ s1 := by
    dsimp -zeta only [s1]
    exact Kept.ite h (State.parserPass_kept h)
  clear_value s1
  extract_lets +onlyGivenNames s3
  have h4 : Kept s₀ s3 := by
    dsimp -zeta only [s3]
    refine Kept.foldl ?_ ?_
    · exact h2
    · intro s5 x6 h7
      exact State.stagePass_kept h7
  clear_value s3
  extract_lets +onlyGivenNames s8
  have h9 : Kept s₀ s8 := by
    dsimp -zeta only [s8]
    exact Kept.ite (State.deparsePass_kept h4) (State.tmEnter_kept h4)
  clear_value s8
  exact State.colOut_kept h9

theorem State.halfTick_kept {p eg} (h : Kept s₀ s) : Kept s₀ (State.halfTick s p eg) := by
  unfold State.halfTick
  extract_lets +onlyGivenNames s1
  have h2 : Kept s₀ s1 := by
    dsimp -zeta only [s1]
    exact State.lockstep_kept (State.berthTick_kept h)
  clear_value s1
  refine Kept.ite ?_ ?_
  · exact h2
  · extract_lets +onlyGivenNames s3
    have h4 : Kept s₀ s3 := by
      dsimp -zeta only [s3]
      refine Kept.foldl ?_ ?_
      · exact h2
      · intro s5 x6 h7
        exact State.iaTurn_kept h7
    clear_value s3
    exact Kept.ite h4 (State.tcTurn_kept h4)

theorem State.pipeTicks_kept {ticks} (h : Kept s₀ s) : Kept s₀ (State.pipeTicks s ticks) := by
  unfold State.pipeTicks
  extract_lets +onlyGivenNames x1
  clear_value x1
  extract_lets +onlyGivenNames s2
  have h3 : Kept s₀ s2 := by
    dsimp -zeta only [s2]
    refine Kept.foldl ?_ ?_
    · exact h
    · intro s4 x5 h6
      refine Kept.ite ?_ ?_
      · exact h6
      · extract_lets +onlyGivenNames x7
        extract_lets +onlyGivenNames s8
        have h9 : Kept s₀ s8 := by
          dsimp -zeta only [s8]
          exact State.setPipe_kept h6
        clear_value s8
        exact Kept.ite (State.halfTick_kept h9) h9
  clear_value s2
  refine Kept.foldl ?_ ?_
  · exact h3
  · intro s10 x11 h12
    refine Kept.ite ?_ ?_
    · exact h12
    · extract_lets +onlyGivenNames x13
      extract_lets +onlyGivenNames s14
      have h15 : Kept s₀ s14 := by
        dsimp -zeta only [s14]
        exact State.setPipe_kept h12
      clear_value s14
      exact Kept.ite (State.halfTick_kept h15) h15

theorem State.ostPulse_kept {j} (h : Kept s₀ s) : Kept s₀ (State.ostPulse s j) := by
  unfold State.ostPulse
  extract_lets +onlyGivenNames s1
  have h2 : Kept s₀ s1 := by
    dsimp -zeta only [s1]
    exact Kept.ite (State.latchFrame_kept h) h
  clear_value s1
  refine Kept.foldl ?_ ?_
  · exact h2
  · intro s3 x4 h5
    refine Kept.ite ?_ ?_
    · refine Kept.foldl ?_ ?_
      · exact h5
      · intro s6 x7 h8
        exact State.coreCycle_kept h8
    · exact h5

theorem State.ostPulses_kept {t0 t1} (h : Kept s₀ s) : Kept s₀ (State.ostPulses s t0 t1) := by
  unfold State.ostPulses
  extract_lets +onlyGivenNames s1
  have h2 : Kept s₀ s1 := by
    dsimp -zeta only [s1]
    exact State.joinTurn_kept h
  clear_value s1
  extract_lets +onlyGivenNames x3
  clear_value x3
  refine Kept.foldl ?_ ?_
  · exact h2
  · intro s4 x5 h6
    exact State.ostPulse_kept h6

theorem State.corePulse_kept {i} (h : Kept s₀ s) : Kept s₀ (State.corePulse s i) := by
  unfold State.corePulse
  extract_lets +onlyGivenNames s1
  have h2 : Kept s₀ s1 := by
    dsimp -zeta only [s1]
    exact Kept.ite (State.latchFrame_kept h) h
  clear_value s1
  extract_lets +onlyGivenNames x3
  clear_value x3
  extract_lets +onlyGivenNames s4
  have h5 : Kept s₀ s4 := by
    dsimp -zeta only [s4]
    exact State.tmPulse_kept h2
  clear_value s4
  exact State.pipeTicks_kept (State.monTicks_kept (State.exemptSkips_kept h5))

theorem State.postCycles_kept {k} (h : Kept s₀ s) : Kept s₀ (State.postCycles s k) := by
  unfold State.postCycles
  extract_lets +onlyGivenNames x1
  clear_value x1
  exact State.setFld_kept (Kept.any h)

theorem State.lineTurns_kept (h : Kept s₀ s) : Kept s₀ (State.lineTurns s) := by
  unfold State.lineTurns
  refine Kept.foldl ?_ ?_
  · exact h
  · intro s1 x2 h3
    exact Kept.ite (State.onzTurn_kept h3) (Kept.ite (State.alignTurn_kept h3) h3)

theorem State.tick_kept (h : Kept s₀ s) : Kept s₀ (State.tick s) := by
  unfold State.tick
  extract_lets +onlyGivenNames x1
  clear_value x1
  extract_lets +onlyGivenNames x2
  clear_value x2
  refine Kept.ite ?_ ?_
  · exact Kept.any h
  · extract_lets +onlyGivenNames s3
    have h4 : Kept s₀ s3 := by
      dsimp -zeta only [s3]
      exact State.snapTurn_kept (State.mirrorTurn_kept (State.wbTick_kept (State.excAsks_kept h)))
    clear_value s3
    extract_lets +onlyGivenNames s5
    have h6 : Kept s₀ s5 := by
      dsimp -zeta only [s5]
      exact Kept.any h4
    clear_value s5
    extract_lets +onlyGivenNames s7
    have h8 : Kept s₀ s7 := by
      dsimp -zeta only [s7]
      exact Kept.ite (State.pitCycleEnd_kept h6) h6
    clear_value s7
    extract_lets +onlyGivenNames s9
    have h10 : Kept s₀ s9 := by
      dsimp -zeta only [s9]
      exact State.bootTurn_kept (State.commitTurn_kept h8)
    clear_value s9
    extract_lets +onlyGivenNames s11
    have h12 : Kept s₀ s11 := by
      dsimp -zeta only [s11]
      exact Kept.ite (State.excTurn_kept h10) h10
    clear_value s11
    extract_lets +onlyGivenNames s13
    have h14 : Kept s₀ s13 := by
      dsimp -zeta only [s13]
      exact Kept.ite (State.timeSetTurn_kept (State.timeCycle_kept h12)) h12
    clear_value s13
    extract_lets +onlyGivenNames s15
    have h16 : Kept s₀ s15 := by
      dsimp -zeta only [s15]
      exact Kept.ite (State.postCycles_kept h14) h14
    clear_value s15
    extract_lets +onlyGivenNames s17
    have h18 : Kept s₀ s17 := by
      dsimp -zeta only [s17]
      exact State.lineTurns_kept (State.loadTurn_kept (State.reclaimTurn_kept (State.lgWaitEnd_kept h16)))
    clear_value s17
    extract_lets +onlyGivenNames s19
    have h20 : Kept s₀ s19 := by
      dsimp -zeta only [s19]
      exact Kept.ite (State.ostPulses_kept h18) h18
    clear_value s19
    exact Kept.ite (State.corePulse_kept h20) h20

end Sys2Proof.Machine
end

