-- ==== Sys2Proof/Laws/KeptG.lean ====
section
/-! SUPPORT. What every operation of Machine/ (Round, RegRead, RegWrite, OstFab, Cmd) keeps: one lemma for each, which the lemmas about its callers cite. -/

namespace Sys2Proof.Machine

variable {s₀ s : State}

/-! ### Machine/Round.lean -/

theorem State.applyPend_kept {a v} (h : Kept s₀ s) : Kept s₀ (State.applyPend s a v) := by
  unfold State.applyPend
  extract_lets +onlyGivenNames x1
  clear_value x1
  extract_lets +onlyGivenNames s2
  have h3 : Kept s₀ s2 := by
    dsimp -zeta only [s2]
    exact State.setReg_kept h
  clear_value s2
  refine Kept.ite ?_ ?_
  · extract_lets +onlyGivenNames x4
    clear_value x4
    exact State.audit_kept h3
  · exact h3

theorem State.pendRound_kept {due} (h : Kept s₀ s) : Kept s₀ (State.pendRound s due) := by
  unfold State.pendRound
  extract_lets +onlyGivenNames x1
  clear_value x1
  extract_lets +onlyGivenNames s2
  have h3 : Kept s₀ s2 := by
    dsimp -zeta only [s2]
    refine Kept.foldl ?_ ?_
    · exact h
    · intro s4 x5 h6
      exact State.applyPend_kept h6
  clear_value s2
  extract_lets +onlyGivenNames s7
  have h8 : Kept s₀ s7 := by
    dsimp -zeta only [s7]
    refine Kept.foldl ?_ ?_
    · exact h3
    · intro s9 x10 h11
      exact State.qShpReset_kept h11
  clear_value s7
  extract_lets +onlyGivenNames s12
  have h13 : Kept s₀ s12 := by
    dsimp -zeta only [s12]
    refine Kept.foldl ?_ ?_
    · exact h8
    · intro s14 x15 h16
      exact State.portShpReset_kept h16
  clear_value s12
  extract_lets +onlyGivenNames s17
  have h18 : Kept s₀ s17 := by
    dsimp -zeta only [s17]
    refine Kept.foldl ?_ ?_
    · exact h13
    · intro s19 x20 h21
      exact Kept.any h21
  clear_value s17
  exact State.polRound_kept h18

theorem State.laneRound_kept {o} (h : Kept s₀ s) : Kept s₀ (State.laneRound s o) := by
  unfold State.laneRound
  extract_lets +onlyGivenNames s1
  have h2 : Kept s₀ s1 := by
    dsimp -zeta only [s1]
    refine Kept.foldl h ?_
    intro s3 x4 h5
    exact State.prbsAdd_kept h5
  clear_value s1
  extract_lets +onlyGivenNames s6
  have h7 : Kept s₀ s6 := by
    dsimp -zeta only [s6]
    refine Kept.foldl h2 ?_
    intro s8 x9 h10
    exact State.lmfRound_kept h10
  clear_value s6
  extract_lets +onlyGivenNames s11
  have h12 : Kept s₀ s11 := by
    dsimp -zeta only [s11]
    refine Kept.foldl h7 ?_
    intro s13 x14 h15
    exact State.lmfMin_kept h15
  clear_value s11
  extract_lets +onlyGivenNames s16
  have h17 : Kept s₀ s16 := by
    dsimp -zeta only [s16]
    refine Kept.foldl h12 ?_
    intro s18 x19 h20
    exact Kept.ite (State.adaptRound_kept h20) h20
  clear_value s16
  refine Kept.foldl h17 ?_
  intro s21 x22 h23
  exact Kept.ite (State.onzTryReady_kept h23) h23

theorem State.nextRound_kept (h : Kept s₀ s) : Kept s₀ (State.nextRound s) := by
  unfold State.nextRound
  extract_lets +onlyGivenNames x1
  clear_value x1
  extract_lets +onlyGivenNames x2
  clear_value x2
  extract_lets +onlyGivenNames x3
  extract_lets +onlyGivenNames s4
  have h5 : Kept s₀ s4 := by
    dsimp -zeta only [s4]
    exact Kept.any h
  clear_value s4
  exact State.setFld_kept (State.setReg_kept h5)

theorem State.roundBoundary_kept {o} (h : Kept s₀ s) : Kept s₀ (State.roundBoundary s o) := by
  unfold State.roundBoundary
  refine Kept.ite ?_ ?_
  · exact h
  · extract_lets +onlyGivenNames s1
    have h2 : Kept s₀ s1 := by
      dsimp -zeta only [s1]
      exact h
    clear_value s1
    extract_lets +onlyGivenNames x3
    clear_value x3
    extract_lets +onlyGivenNames x4
    extract_lets +onlyGivenNames s5
    have h6 : Kept s₀ s5 := by
      dsimp -zeta only [s5]
      exact Kept.swapPend h
    clear_value s5
    extract_lets +onlyGivenNames s7
    have h8 : Kept s₀ s7 := by
      dsimp -zeta only [s7]
      refine Kept.foldl ?_ ?_
      · exact h6
      · intro s9 x10 h11
        exact State.fecCount_kept h11
    clear_value s7
    extract_lets +onlyGivenNames s12
    have h13 : Kept s₀ s12 := by
      dsimp -zeta only [s12]
      exact State.laneRound_kept h8
    clear_value s12
    extract_lets +onlyGivenNames x14
    clear_value x14
    extract_lets +onlyGivenNames s15
    have h16 : Kept s₀ s15 := by
      dsimp -zeta only [s15]
      refine Kept.foldl ?_ ?_
      · exact h13
      · intro s17 x18 h19
        exact State.applyPend_kept h19
    clear_value s15
    extract_lets +onlyGivenNames s20
    have h21 : Kept s₀ s20 := by
      dsimp -zeta only [s20]
      exact State.grantRound_kept (State.unmetRise_kept h16)
    clear_value s20
    extract_lets +onlyGivenNames s22
    have h23 : Kept s₀ s22 := by
      dsimp -zeta only [s22]
      exact State.pendRound_kept h21
    clear_value s22
    extract_lets +onlyGivenNames x24
    clear_value x24
    extract_lets +onlyGivenNames s25
    have h26 : Kept s₀ s25 := by
      dsimp -zeta only [s25]
      refine Kept.foldl ?_ ?_
      · exact h23
      · intro s27 x28 h29
        exact State.setReg_kept h29
    clear_value s25
    extract_lets +onlyGivenNames s30
    have h31 : Kept s₀ s30 := by
      dsimp -zeta only [s30]
      exact State.formRound_kept h26
    clear_value s30
    extract_lets +onlyGivenNames s32
    have h33 : Kept s₀ s32 := by
      dsimp -zeta only [s32]
      exact State.verRound_kept (State.nextRound_kept h31)
    clear_value s32
    extract_lets +onlyGivenNames s34
    have h35 : Kept s₀ s34 := by
      dsimp -zeta only [s34]
      exact State.wbRound_kept (State.auditRound_kept h33)
    clear_value s34
    exact State.belowCheck_kept h35

/-! ### Machine/RegRead.lean -/

theorem State.setHold_kept {rq g h'} (h : Kept s₀ s) : Kept s₀ (State.setHold s rq g h') := by
  unfold State.setHold
  exact h.any

theorem State.pairLoad_kept {rq a hi} (h : Kept s₀ s) : Kept s₀ (State.pairLoad s rq a hi) := by
  unfold State.pairLoad
  exact State.setHold_kept h

theorem State.pairTake_kept {rq a hi} (h : Kept s₀ s) : Kept s₀ (State.pairTake s rq a hi).2 := by
  unfold State.pairTake
  extract_lets +onlyGivenNames h1
  clear_value h1
  split
  · dsimp -zeta only
    exact State.setHold_kept h
  · dsimp -zeta only
    exact h

theorem State.gpioRead_kept (h : Kept s₀ s) : Kept s₀ (State.gpioRead s).2 := by
  unfold State.gpioRead
  extract_lets +onlyGivenNames f1
  have h2 : Kept s₀ f1.2 := by
    dsimp -zeta only [f1]
    exact State.freeWord_kept h
  clear_value f1
  extract_lets +onlyGivenNames oe3
  clear_value oe3
  dsimp -zeta only
  exact h2

theorem State.clearRc_kept {a r} (h : Kept s₀ s) : Kept s₀ (State.clearRc s a r) := by
  unfold State.clearRc
  exact State.setReg_kept h

theorem State.readFresh_kept {g r} (h : Kept s₀ s) : Kept s₀ (State.readFresh s g r) := by
  unfold State.readFresh
  split
  · rename_i x1 x2 x3
    exact Kept.ite (State.prbsTake_kept h) h
  · rename_i x4 x5
    exact h

theorem State.readReg_kept {fn rq a pa g r ix} (h : Kept s₀ s) : Kept s₀ (State.readReg s fn rq a pa g r ix).2 := by
  unfold State.readReg
  extract_lets +onlyGivenNames s1
  have h2 : Kept s₀ s1 := by
    dsimp -zeta only [s1]
    exact State.readFresh_kept h
  clear_value s1
  extract_lets +onlyGivenNames x3
  clear_value x3
  split
  · rename_i e4
    exact State.timeNsRead_kept h2
  · rename_i x5
    split
    · rename_i e6
      exact State.gpioRead_kept h2
    · rename_i x7
      split
      · rename_i e8
        split
        · rename_i x9 x10
          dsimp -zeta only
          exact State.psStep_kept h2
        · rename_i x11 x12
          exact h2
      · rename_i x13
        split
        · rename_i e14
          exact State.pairTake_kept h2
        · rename_i x15
          split
          · rename_i e16
            split
            · rename_i x17 x18 x19 x20 x21 e22
              dsimp -zeta only
              exact State.pairLoad_kept h2
            · rename_i x23 x24
              exact h2
          · rename_i x25
            split
            · rename_i e26
              dsimp -zeta only
              exact State.clearRc_kept h2
            · rename_i x27
              exact h2

theorem State.regRead_kept {fn rq a} (h : Kept s₀ s) : Kept s₀ (State.regRead s fn rq a).2 := by
  unfold State.regRead
  split
  · dsimp -zeta only
    exact State.accessViolation_kept h
  · split
    · dsimp -zeta only
      exact h
    · dsimp -zeta only
      exact State.accessViolation_kept h
  · split
    · exact State.readReg_kept h
    · dsimp -zeta only
      exact State.accessViolation_kept h
  · split
    · split
      · exact State.pairTake_kept h
      · dsimp -zeta only
        exact State.pairLoad_kept h
    · dsimp -zeta only
      exact State.accessViolation_kept h

theorem State.sizedRead_kept {fn rq a size} (h : Kept s₀ s) : Kept s₀ (State.sizedRead s fn rq a size).2 := by
  unfold State.sizedRead
  split
  · rename_i x1
    extract_lets +onlyGivenNames x2
    have h3 : Kept s₀ x2.2 := by
      dsimp -zeta only [x2]
      exact State.regRead_kept h
    clear_value x2
    exact h3
  · rename_i x4
    split
    · rename_i x5
      extract_lets +onlyGivenNames x6
      have h7 : Kept s₀ x6.2 := by
        dsimp -zeta only [x6]
        exact State.regRead_kept h
      clear_value x6
      extract_lets +onlyGivenNames x8
      have h9 : Kept s₀ x8.2 := by
        dsimp -zeta only [x8]
        exact State.regRead_kept h7
      clear_value x8
      exact h9
    · rename_i x10
      dsimp -zeta only
      exact State.accessViolation_kept h

theorem State.readOut_kept {fn rq a size} (h : Kept s₀ s) : Kept s₀ (State.readOut s fn rq a size) := by
  unfold State.readOut
  extract_lets +onlyGivenNames x1
  have h2 : Kept s₀ x1.2 := by
    dsimp -zeta only [x1]
    exact State.sizedRead_kept h
  clear_value x1
  exact State.emit_kept h2

/-! ### Machine/RegWrite.lean -/

theorem State.rwiCause_kept {w} (h : Kept s₀ s) : Kept s₀ (State.rwiCause s w) := by
  unfold State.rwiCause
  split
  · exact State.cause_kept h
  · exact State.cause_kept h
  · exact State.cause_kept h
  · exact State.cause_kept h
  · exact h

theorem State.gate_kept {w old} (h : Kept s₀ s) : Kept s₀ (State.gate s w old).2 := by
  unfold State.gate
  extract_lets +onlyGivenNames m1
  clear_value m1
  split
  · dsimp -zeta only
    exact h
  · exact State.rwpGate_kept h

theorem State.pendWrite_kept {w} (h : Kept s₀ s) : Kept s₀ (State.pendWrite s w) := by
  unfold State.pendWrite
  extract_lets +onlyGivenNames old1
  clear_value old1
  extract_lets +onlyGivenNames q2
  have h3 : Kept s₀ q2.2 := by
    dsimp -zeta only [q2]
    exact State.gate_kept h
  clear_value q2
  extract_lets +onlyGivenNames wr4
  clear_value wr4
  extract_lets +onlyGivenNames new5
  clear_value new5
  extract_lets +onlyGivenNames x6
  clear_value x6
  refine Kept.ite h3 ?_
  extract_lets +onlyGivenNames nw7
  clear_value nw7
  refine Kept.ite ?_ ?_
  · extract_lets +onlyGivenNames x8
    have h9 : Kept s₀ x8 := by
      dsimp -zeta only [x8]
      exact h3
    exact h9.putLate
  · extract_lets +onlyGivenNames x10
    have h11 : Kept s₀ x10 := by
      dsimp -zeta only [x10]
      exact h3
    exact h11.putPend

theorem State.plainWrite_kept {w} (h : Kept s₀ s) : Kept s₀ (State.plainWrite s w) := by
  unfold State.plainWrite
  refine Kept.ite (State.pendWrite_kept h) ?_
  extract_lets +onlyGivenNames old1
  clear_value old1
  extract_lets +onlyGivenNames q2
  have h3 : Kept s₀ q2.2 := by
    dsimp -zeta only [q2]
    exact State.gate_kept h
  clear_value q2
  extract_lets +onlyGivenNames s4
  have h5 : Kept s₀ s4 := by
    dsimp -zeta only [s4]
    exact h3
  extract_lets +onlyGivenNames rwi6
  clear_value rwi6
  extract_lets +onlyGivenNames x7
  clear_value x7
  extract_lets +onlyGivenNames wr8
  clear_value wr8
  extract_lets +onlyGivenNames clr9
  clear_value clr9
  extract_lets +onlyGivenNames s10
  have h11 : Kept s₀ s10 := by
    dsimp -zeta only [s10]
    exact State.setReg_kept h5
  clear_value s10
  exact Kept.ite (State.rwiCause_kept h11) h11

theorem State.keyRefused_kept (h : Kept s₀ s) : Kept s₀ (State.keyRefused s) := by
  unfold State.keyRefused
  extract_lets +onlyGivenNames len1
  clear_value len1
  extract_lets +onlyGivenNames key2
  clear_value key2
  extract_lets +onlyGivenNames kcv3
  clear_value kcv3
  exact State.audit_kept h

theorem State.writeDev_kept {w} (h : Kept s₀ s) : Kept s₀ (State.writeDev s w) := by
  unfold State.writeDev
  split
  · extract_lets +onlyGivenNames s3
    have h4 : Kept s₀ s3 := by
      dsimp -zeta only [s3]
      exact State.plainWrite_kept h
    clear_value s3
    exact Kept.ite (State.presEnd_kept h4) h4
  · refine Kept.ite ?_ h
    split
    · exact State.pushGo_kept h
    · extract_lets +onlyGivenNames q12
      have h13 : Kept s₀ q12.2 := by
        dsimp -zeta only [q12]
        exact State.freeBool_kept h
      clear_value q12
      exact State.pushGo_kept h13
  · extract_lets +onlyGivenNames s16
    have h17 : Kept s₀ s16 := by
      dsimp -zeta only [s16]
      exact State.plainWrite_kept h
    clear_value s16
    exact Kept.ite (State.imageLoad_kept h17) h17
  · exact State.plainWrite_kept h

theorem State.pendClear_kept {n w} (h : Kept s₀ s) : Kept s₀ (State.pendClear s n w) := by
  unfold State.pendClear
  extract_lets +onlyGivenNames s1
  have h2 : Kept s₀ s1 := by
    dsimp -zeta only [s1]
    exact State.plainWrite_kept h
  clear_value s1
  exact Kept.ite (State.sendMsi_kept h2) h2

theorem State.writeIrq_kept {w} (h : Kept s₀ s) : Kept s₀ (State.writeIrq s w) := by
  unfold State.writeIrq
  split
  · rename_i x1 x2 x3 e4 e5
    exact State.pendClear_kept h
  · rename_i x6 x7 x8 e9 e10
    extract_lets +onlyGivenNames s11
    have h12 : Kept s₀ s11 := by
      dsimp -zeta only [s11]
      exact State.plainWrite_kept h
    clear_value s11
    exact Kept.ite (State.sendMsi_kept h12) h12
  · rename_i x13 x14 x15 e16 e17
    extract_lets +onlyGivenNames s18
    have h19 : Kept s₀ s18 := by
      dsimp -zeta only [s18]
      exact State.plainWrite_kept h
    clear_value s18
    extract_lets +onlyGivenNames s20
    have h21 : Kept s₀ s20 := by
      dsimp -zeta only [s20]
      exact Kept.ite h19 (State.setFld_kept h19)
    clear_value s20
    exact State.rises_kept h21
  · rename_i x22 x23 x24 e25 e26
    exact Kept.ite (State.setHist_kept h) h
  · rename_i x27 x28 e29
    exact State.rises_kept (State.plainWrite_kept h)
  · rename_i x30 x31 x32 x33 x34 x35 x36
    exact State.plainWrite_kept h

theorem State.writePst_kept {w} (h : Kept s₀ s) : Kept s₀ (State.writePst s w) := by
  unfold State.writePst
  split
  · rename_i x1 e2
    exact State.thermRise_kept (State.plainWrite_kept h)
  · rename_i x3 e4
    exact State.forceWrite_kept h
  · rename_i x5 x6 x7
    exact State.plainWrite_kept h

theorem State.writeClk_kept {w} (h : Kept s₀ s) : Kept s₀ (State.writeClk s w) := by
  unfold State.writeClk
  split
  · exact Kept.ite (State.deviceReset_kept h) h
  · exact State.plainWrite_kept h

theorem State.writePit_kept {w} (h : Kept s₀ s) : Kept s₀ (State.writePit s w) := by
  unfold State.writePit
  split
  · exact Kept.ite (State.pitCommit_kept h) h
  · extract_lets +onlyGivenNames old7
    clear_value old7
    extract_lets +onlyGivenNames s8
    have h9 : Kept s₀ s8 := by
      dsimp -zeta only [s8]
      exact State.plainWrite_kept h
    clear_value s8
    exact Kept.ite (State.cause_kept h9) h9
  · exact State.plainWrite_kept h.any
  · extract_lets +onlyGivenNames d16
    clear_value d16
    extract_lets +onlyGivenNames x17
    have h18 : Kept s₀ x17 := by
      dsimp -zeta only [x17]
      exact State.plainWrite_kept h.any
    clear_value x17
    exact h18.any
  · exact State.ostOwnerWrite_kept h
  · exact State.pitCtlWrite_kept h
  · exact State.mcRangeWrite_kept h
  · exact State.bufRsvWrite_kept h
  · exact State.plainWrite_kept h

theorem State.writeTime_kept {w} (h : Kept s₀ s) : Kept s₀ (State.writeTime s w) := by
  unfold State.writeTime
  split
  · rename_i x1 e2
    exact Kept.ite (State.busyWrite_kept h) (State.plainWrite_kept h)
  · rename_i x3 e4
    exact Kept.ite (State.busyWrite_kept h) (State.plainWrite_kept h)
  · rename_i x5 e6
    exact Kept.ite (State.busyWrite_kept h) (State.plainWrite_kept h)
  · rename_i x7 e8
    extract_lets +onlyGivenNames x9
    clear_value x9
    extract_lets +onlyGivenNames s10
    have h11 : Kept s₀ s10 := by
      dsimp -zeta only [s10]
      exact State.plainWrite_kept h
    clear_value s10
    exact Kept.ite h11 (Kept.ite (State.busyWrite_kept h11) (State.timeSetGo_kept h11))
  · rename_i x12 e13
    extract_lets +onlyGivenNames s14
    have h15 : Kept s₀ s14 := by
      dsimp -zeta only [s14]
      exact State.plainWrite_kept h
    clear_value s14
    exact Kept.ite (State.timeAdjGo_kept h15) h15
  · rename_i x16 e17
    exact State.timeFreqWrite_kept h
  · rename_i x18 e19
    extract_lets +onlyGivenNames x20
    have h21 : Kept s₀ x20.2 := by
      dsimp -zeta only [x20]
      exact State.gate_kept h
    clear_value x20
    exact Kept.ite (State.timeSrcWrite_kept h21) h21
  · rename_i x22 e23
    exact State.ppsWrite_kept h
  · rename_i x24 e25
    extract_lets +onlyGivenNames s26
    have h27 : Kept s₀ s26 := by
      dsimp -zeta only [s26]
      exact State.plainWrite_kept h
    clear_value s26
    exact Kept.ite (State.evtPop_kept h27) h27
  · rename_i x28 e29
    extract_lets +onlyGivenNames x30
    clear_value x30
    extract_lets +onlyGivenNames x31
    clear_value x31
    extract_lets +onlyGivenNames s32
    have h33 : Kept s₀ s32 := by
      dsimp -zeta only [s32]
      exact State.plainWrite_kept h
    clear_value s32
    exact State.tlSelect_kept (Kept.ite h33 (State.setTl_kept h33))
  · rename_i x34 e35
    exact State.tlSelect_kept (State.plainWrite_kept h)
  · rename_i x36 e37
    exact State.tlSelect_kept (State.plainWrite_kept h)
  · rename_i x38 x39 x40 x41 x42 x43 x44 x45 x46 x47 x48 x49 x50
    exact State.plainWrite_kept h

theorem State.writeTt_kept {w} (h : Kept s₀ s) : Kept s₀ (State.writeTt s w) := by
  unfold State.writeTt
  split
  · exact Kept.ite (State.latePop_kept h) h
  · exact State.plainWrite_kept h

theorem State.expPortWrite_kept {w} (h : Kept s₀ s) : Kept s₀ (State.expPortWrite s w) := by
  unfold State.expPortWrite
  exact Kept.ite (State.auditWrite_kept h) (State.plainWrite_kept h)

theorem State.keyGo_kept {i} (h : Kept s₀ s) : Kept s₀ (State.keyGo s i) := by
  unfold State.keyGo
  exact Kept.ite (State.wbKeyLoad_kept h) (State.wbKeyWipe_kept (State.setFld_kept (State.keyRefused_kept
      (State.presRefuse_kept h))))

theorem State.writeWb_kept {w} (h : Kept s₀ s) : Kept s₀ (State.writeWb s w) := by
  unfold State.writeWb
  split
  · extract_lets +onlyGivenNames s3
    have h4 : Kept s₀ s3 := by
      dsimp -zeta only [s3]
      exact State.plainWrite_kept h
    clear_value s3
    exact Kept.ite (State.keyGo_kept h4) h4
  · exact State.expPortWrite_kept h
  · exact State.plainWrite_kept h

theorem State.strmCtlWrite_kept {n w} (h : Kept s₀ s) : Kept s₀ (State.strmCtlWrite s n w) := by
  unfold State.strmCtlWrite
  extract_lets +onlyGivenNames x1
  clear_value x1
  extract_lets +onlyGivenNames x2
  clear_value x2
  extract_lets +onlyGivenNames x3
  clear_value x3
  extract_lets +onlyGivenNames x4
  clear_value x4
  extract_lets +onlyGivenNames s5
  have h6 : Kept s₀ s5 := by
    dsimp -zeta only [s5]
    exact State.setFld_kept h
  clear_value s5
  extract_lets +onlyGivenNames x7
  clear_value x7
  extract_lets +onlyGivenNames x8
  clear_value x8
  extract_lets +onlyGivenNames x9
  extract_lets +onlyGivenNames s10
  have h11 : Kept s₀ s10 := by
    dsimp -zeta only [s10]
    exact State.stallRise_kept (State.setFld_kept h6)
  clear_value s10
  extract_lets +onlyGivenNames s12
  have h13 : Kept s₀ s12 := by
    dsimp -zeta only [s12]
    exact Kept.ite (State.setFld_kept (State.auditWrite_kept h11)) h11
  clear_value s12
  extract_lets +onlyGivenNames s14
  have h15 : Kept s₀ s14 := by
    dsimp -zeta only [s14]
    exact Kept.ite (Kept.ite (State.accessViolation_kept h6) h6) (Kept.ite h11 (Kept.ite (State.auditWrite_kept
        (State.presRefuse_kept h11)) (State.wbKeyIdx_kept h13)))
  clear_value s14
  exact Kept.ite (State.wbClose_kept h15) h15

theorem State.strmQuotaWrite_kept {n w} (h : Kept s₀ s) : Kept s₀ (State.strmQuotaWrite s n w) := by
  unfold State.strmQuotaWrite
  extract_lets +onlyGivenNames r1
  clear_value r1
  extract_lets +onlyGivenNames x2
  clear_value x2
  exact Kept.ite h (Kept.ite (State.cause_kept h) (State.setFld_kept (State.wbRefill_kept h)))

theorem State.writeStrm_kept {w} (h : Kept s₀ s) : Kept s₀ (State.writeStrm s w) := by
  unfold State.writeStrm
  split
  · exact State.strmCtlWrite_kept h
  · exact State.strmQuotaWrite_kept h
  · exact State.plainWrite_kept h

theorem State.writeLane_kept {w} (h : Kept s₀ s) : Kept s₀ (State.writeLane s w) := by
  unfold State.writeLane
  split
  · exact State.lgCtlWrite_kept h
  · exact State.firBWrite_kept h
  · exact State.laneTestWrite_kept h
  · exact State.eyeWrite_kept h
  · exact Kept.ite (State.laneReset_kept h) h
  · exact State.plainWrite_kept h

theorem State.writePort_kept {w} (h : Kept s₀ s) : Kept s₀ (State.writePort s w) := by
  unfold State.writePort
  split
  · rename_i x1 x2 x3 e4 e5
    exact State.portCtlWrite_kept h
  · rename_i x6 x7 x8 e9 e10
    exact State.pfcMapWrite_kept h
  · rename_i x11 x12 x13 e14 e15
    extract_lets +onlyGivenNames x16
    clear_value x16
    extract_lets +onlyGivenNames s17
    have h18 : Kept s₀ s17 := by
      dsimp -zeta only [s17]
      exact State.plainWrite_kept h
    clear_value s17
    exact Kept.ite h18 (Kept.ite (State.busyWrite_kept h18) (State.calGo_kept h18))
  · rename_i x19 x20 x21 e22 e23
    exact Kept.ite (State.txqPop_kept h) h
  · rename_i x24 x25 x26 e27 e28
    exact State.rxCompMark_kept (State.plainWrite_kept h)
  · rename_i x29 x30 x31 e32 e33
    exact State.rxCompMark_kept (State.plainWrite_kept h)
  · rename_i x34 x35 x36 e37 e38
    exact State.p2pMark_kept (State.plainWrite_kept h)
  · rename_i x39 x40 x41 e42 e43
    exact Kept.ite (State.portReset_kept h) h
  · rename_i x44 x45 x46 e47 e48
    exact State.cmisWrite_kept h
  · rename_i x49 x50 x51 x52 x53 x54 x55 x56 x57 x58 x59
    exact State.plainWrite_kept h

theorem State.writeBpm_kept {w} (h : Kept s₀ s) : Kept s₀ (State.writeBpm s w) := by
  unfold State.writeBpm
  split
  · rename_i x1 x2 e3
    extract_lets +onlyGivenNames s4
    have h5 : Kept s₀ s4 := by
      dsimp -zeta only [s4]
      exact State.plainWrite_kept h
    clear_value s4
    exact Kept.ite (State.fenceSlice_kept h5) h5
  · rename_i x6 x7 x8 e9 e10
    exact Kept.ite (State.plainWrite_kept h) h
  · rename_i x11 x12 x13 e14 e15
    exact Kept.ite (State.audPop_kept h) h
  · rename_i x16 x17 x18 e19 e20
    extract_lets +onlyGivenNames s21
    have h22 : Kept s₀ s21 := by
      dsimp -zeta only [s21]
      exact State.plainWrite_kept h
    clear_value s21
    exact Kept.ite h22 (Kept.ite (State.busyWrite_kept h22) (State.reclaim_kept h22))
  · rename_i x23 x24 x25 x26 x27 x28
    exact State.plainWrite_kept h

theorem State.writeTm_kept {w} (h : Kept s₀ s) : Kept s₀ (State.writeTm s w) := by
  unfold State.writeTm
  split
  · rename_i x1 x2 x3 e4 e5
    refine Kept.ite ?_ ?_
    · exact State.busyWrite_kept h
    · extract_lets +onlyGivenNames s6
      have h7 : Kept s₀ s6 := by
        dsimp -zeta only [s6]
        exact State.plainWrite_kept h
      clear_value s6
      exact Kept.ite (State.tmIaGo_kept h7) h7
  · rename_i x8 x9 x10 e11 e12
    refine Kept.ite ?_ ?_
    · exact State.busyWrite_kept h
    · extract_lets +onlyGivenNames x13
      clear_value x13
      exact State.setReg_kept h
  · rename_i x14 x15 x16 e17 e18
    extract_lets +onlyGivenNames s19
    have h20 : Kept s₀ s19 := by
      dsimp -zeta only [s19]
      exact State.plainWrite_kept h
    clear_value s19
    exact State.setTmq_kept h20
  · rename_i x21 x22 x23 e24 e25
    exact State.stallEvals_kept (State.plainWrite_kept h)
  · rename_i x26 x27 x28 e29 e30
    exact State.fcEval_kept (State.plainWrite_kept h)
  · rename_i x31 x32 x33 e34 e35
    exact State.fcEval_kept (State.plainWrite_kept h)
  · rename_i x36 x37 x38 e39 e40
    exact State.fcEval_kept (State.plainWrite_kept h)
  · rename_i x41 x42 x43 e44 e45
    exact State.fcEval_kept (State.plainWrite_kept h)
  · rename_i x46 x47 x48 x49 x50 x51 x52 x53 x54 x55
    exact State.plainWrite_kept h

theorem State.custWrite_kept {n w} (h : Kept s₀ s) : Kept s₀ (State.custWrite s n w) := by
  unfold State.custWrite
  refine Kept.ite ?_ ?_
  · exact State.custBusy_kept h
  · refine Kept.ite ?_ ?_
    · exact h
    · refine Kept.ite ?_ ?_
      · exact State.custResult_kept (State.auditWrite_kept h)
      · extract_lets +onlyGivenNames x1
        have h2 : Kept s₀ x1.2 := by
          dsimp -zeta only [x1]
          exact State.gate_kept h
        clear_value x1
        exact Kept.ite h2 (Kept.ite (State.custEnable_kept h2) (State.custDisable_kept h2))

theorem State.writeOst_kept {w} (h : Kept s₀ s) : Kept s₀ (State.writeOst s w) := by
  unfold State.writeOst
  split
  · exact Kept.ite (State.thrReset_kept h) h
  · extract_lets +onlyGivenNames s13
    have h14 : Kept s₀ s13 := by
      dsimp -zeta only [s13]
      exact Kept.ite (State.supRestart_kept h) h
    clear_value s13
    exact Kept.ite (State.ostKick_kept h14) h14
  · exact State.custWrite_kept h
  · exact State.psWrite_kept h
  · exact State.plainWrite_kept h

theorem State.writeCnt_kept {w} (h : Kept s₀ s) : Kept s₀ (State.writeCnt s w) := by
  unfold State.writeCnt
  split
  · exact State.snapWrite_kept h
  · exact State.monWrite_kept h
  · exact State.smpCtlWrite_kept h
  · exact State.smpFiltWrite_kept h
  · exact State.plainWrite_kept h

theorem State.writeDma_kept {w} (h : Kept s₀ s) : Kept s₀ (State.writeDma s w) := by
  unfold State.writeDma
  split
  · exact State.ringCtlWrite_kept h
  · exact State.tailWrite_kept h
  · exact State.dmaFree_kept h
  · exact State.plainWrite_kept h

theorem State.writeSb_kept {w} (h : Kept s₀ s) : Kept s₀ (State.writeSb s w) := by
  unfold State.writeSb
  split
  · exact State.i2cWrite_kept h
  · exact State.plainWrite_kept h

theorem State.swapRefuse_kept {p r} (h : Kept s₀ s) : Kept s₀ (State.swapRefuse s p r) := by
  unfold State.swapRefuse
  exact State.audit_kept (State.setFld_kept h)

theorem State.swapGo_kept {i p a} (h : Kept s₀ s) : Kept s₀ (State.swapGo s i p a) := by
  unfold State.swapGo
  extract_lets +onlyGivenNames x1
  clear_value x1
  refine Kept.ite ?_ ?_
  · exact State.audit_kept (State.presRefuse_kept h)
  · refine Kept.ite ?_ ?_
    · exact State.busyWrite_kept h
    · refine Kept.ite ?_ ?_
      · exact State.swapRefuse_kept h
      · refine Kept.ite ?_ ?_
        · exact State.swapRefuse_kept h
        · split
          · rename_i x2 x3 x4 x5 e6
            exact State.cause_kept (State.swapRefuse_kept (State.setReg_kept h))
          · rename_i x7 e8
            extract_lets +onlyGivenNames x9
            extract_lets +onlyGivenNames s10
            have h11 : Kept s₀ s10 := by
              dsimp -zeta only [s10]
              exact State.setPipe_kept (State.setReg_kept h)
            clear_value s10
            exact State.setBit_kept (State.setFld_kept h11)

theorem State.swapLand_kept {p} (h : Kept s₀ s) : Kept s₀ (State.swapLand s p) := by
  unfold State.swapLand
  refine Kept.ite ?_ ?_
  · exact h
  · extract_lets +onlyGivenNames x1
    clear_value x1
    extract_lets +onlyGivenNames x2
    clear_value x2
    extract_lets +onlyGivenNames x3
    extract_lets +onlyGivenNames s4
    have h5 : Kept s₀ s4 := by
      dsimp -zeta only [s4]
      exact State.setPipe_kept h
    clear_value s4
    extract_lets +onlyGivenNames s6
    have h7 : Kept s₀ s6 := by
      dsimp -zeta only [s6]
      exact State.setReg_kept h5
    clear_value s6
    exact State.audit_kept h7

theorem State.swapDrained_kept {p} (h : Kept s₀ s) : Kept s₀ (State.swapDrained s p) := by
  unfold State.swapDrained
  exact Kept.ite h (State.setBit_kept h)

theorem State.stbyWrite_kept {f p st k v} (h : Kept s₀ s) : Kept s₀ (State.stbyWrite s f p st k v) := by
  unfold State.stbyWrite
  exact Kept.ite (State.busyWrite_kept (State.cause_kept h)) (State.setUcStore_kept h)

theorem State.writeStg_kept {w} (h : Kept s₀ s) : Kept s₀ (State.writeStg s w) := by
  unfold State.writeStg
  split
  · refine Kept.ite (State.busyWrite_kept h) ?_
    extract_lets +onlyGivenNames s7
    have h8 : Kept s₀ s7 := by
      dsimp -zeta only [s7]
      exact State.plainWrite_kept h
    clear_value s7
    exact Kept.ite (State.iaGo_kept h8) h8
  · exact Kept.ite (State.busyWrite_kept h) (State.plainWrite_kept h)
  · exact Kept.ite (State.notePop_kept h) h
  · exact Kept.ite (State.gmaskTake_kept h) h
  · exact Kept.ite (State.swapGo_kept h) h
  · extract_lets +onlyGivenNames s39
    have h40 : Kept s₀ s39 := by
      dsimp -zeta only [s39]
      exact State.plainWrite_kept h
    clear_value s39
    exact Kept.ite (State.cause_kept h40) h40
  · exact State.stbyWrite_kept h
  · exact State.plainWrite_kept h

theorem State.writeTc_kept {w} (h : Kept s₀ s) : Kept s₀ (State.writeTc s w) := by
  unfold State.writeTc
  split
  · rename_i x1 x2 x3 e4 e5
    refine Kept.ite ?_ ?_
    · exact State.busyWrite_kept h
    · extract_lets +onlyGivenNames s6
      have h7 : Kept s₀ s6 := by
        dsimp -zeta only [s6]
        exact State.plainWrite_kept h
      clear_value s6
      exact Kept.ite (State.tcGo_kept h7) h7
  · rename_i x8 x9 x10 e11 e12
    exact Kept.ite (State.busyWrite_kept h) (State.plainWrite_kept h)
  · rename_i x13 x14 x15 e16 e17
    exact Kept.ite (State.busyWrite_kept h) (State.plainWrite_kept h)
  · rename_i x18 x19 x20 e21 e22
    exact Kept.ite (State.busyWrite_kept h) (State.plainWrite_kept h)
  · rename_i x23 x24 x25 e26 e27
    exact Kept.ite (State.busyWrite_kept h) (State.plainWrite_kept h)
  · rename_i x28 x29 x30 e31 e32
    exact Kept.ite (State.busyWrite_kept h) (State.plainWrite_kept h)
  · rename_i x33 x34 x35 e36 e37
    exact Kept.ite (State.busyWrite_kept h) (State.plainWrite_kept h)
  · rename_i x38 x39 x40 x41 x42 x43 x44 x45 x46
    exact State.plainWrite_kept h

theorem State.writeVer_kept {w} (h : Kept s₀ s) : Kept s₀ (State.writeVer s w) := by
  unfold State.writeVer
  split
  · rename_i x1 x2 x3 e4 e5
    extract_lets +onlyGivenNames s6
    have h7 : Kept s₀ s6 := by
      dsimp -zeta only [s6]
      exact State.plainWrite_kept h
    clear_value s6
    exact Kept.ite (State.verGo_kept h7) h7
  · rename_i x8 x9 x10 e11 e12
    extract_lets +onlyGivenNames x13
    clear_value x13
    extract_lets +onlyGivenNames s14
    have h15 : Kept s₀ s14 := by
      dsimp -zeta only [s14]
      exact State.plainWrite_kept h
    clear_value s14
    exact Kept.ite h15 (Kept.ite (State.busyWrite_kept h15) (State.gwGo_kept h15))
  · rename_i x16 x17 x18 x19
    exact State.plainWrite_kept h

theorem State.regAct_kept {w} (h : Kept s₀ s) : Kept s₀ (State.regAct s w) := by
  unfold State.regAct
  split
  · exact State.writeDev_kept h
  · exact State.writeIrq_kept h
  · exact State.writeIrq_kept h
  · exact State.writePst_kept h
  · exact State.writeClk_kept h
  · exact State.writePit_kept h
  · exact State.writePit_kept h
  · exact State.writeTime_kept h
  · exact State.writeTt_kept h
  · exact State.writeWb_kept h
  · exact State.writeStrm_kept h
  · exact State.writeLane_kept h
  · exact State.writeLane_kept h
  · exact State.writePort_kept h
  · exact State.writeBpm_kept h
  · exact State.writeBpm_kept h
  · exact State.writeBpm_kept h
  · exact State.writeTm_kept h
  · exact State.writeTm_kept h
  · exact State.writeOst_kept h
  · exact State.writeOst_kept h
  · exact State.writeCnt_kept h
  · exact State.writeDma_kept h
  · exact State.writeDma_kept h
  · exact State.writeSb_kept h
  · exact State.writeStg_kept h
  · exact State.writeTc_kept h
  · exact State.writeVer_kept h
  · exact State.plainWrite_kept h

theorem State.settle_kept {before} (h : Kept s₀ s) : Kept s₀ (State.settle s before) := by
  unfold State.settle
  exact State.synceCheck_kept (State.belowCheck_kept h)

theorem State.regWriteX_kept {i a v img push} (h : Kept s₀ s) : Kept s₀ (State.regWriteX s i a v img push) := by
  unfold State.regWriteX
  split
  · exact State.accessViolation_kept h
  · exact Kept.ite h (State.accessViolation_kept h)
  · exact Kept.ite (State.settle_kept (State.regAct_kept h)) (State.accessViolation_kept h)
  · exact Kept.ite h (State.accessViolation_kept h)

theorem State.regWrite_kept {i a v} (h : Kept s₀ s) : Kept s₀ (State.regWrite s i a v) := by
  unfold State.regWrite
  exact State.regWriteX_kept h

theorem State.hostWrite_kept {fn a size v} (h : Kept s₀ s) : Kept s₀ (State.hostWrite s fn a size v) := by
  unfold State.hostWrite
  extract_lets +onlyGivenNames i1
  clear_value i1
  exact Kept.ite (State.regWrite_kept h) (Kept.ite (State.regWrite_kept (State.regWrite_kept h))
      (State.accessViolation_kept h))

/-! ### Machine/OstFab.lean -/

theorem State.fabricAv_kept {n out} (h : Kept s₀ s) : Kept s₀ (State.fabricAv s n out) := by
  unfold State.fabricAv
  exact Kept.ite (State.addCnt_kept h) h

theorem State.fabWait_kept {t rd v} (h : Kept s₀ s) : Kept s₀ (State.fabWait s t rd v) := by
  unfold State.fabWait
  extract_lets +onlyGivenNames x1
  clear_value x1
  exact Kept.ite (State.setThr_kept h) h

theorem State.ostFabric_kept {t row go} (h : Kept s₀ s) (h1 : ∀ a b c, Kept s₀ a → Kept s₀ (go a b c)) : Kept s₀
    (State.ostFabric s t row go) := by
  unfold State.ostFabric
  refine State.ostIssue_kept h ?_
  intro s1 b2 h3
  extract_lets +onlyGivenNames a4
  clear_value a4
  exact Kept.ite (State.thrFault_kept h3) (Kept.ite (State.setThr_kept h3) (h1 _ _ _ h3))

theorem State.ostFld_kept {t} (h : Kept s₀ s) : Kept s₀ (State.ostFld s t) := by
  unfold State.ostFld
  refine State.ostFabric_kept ?_ ?_
  · exact h
  · intro s1 x2 x3 h4
    extract_lets +onlyGivenNames x5
    clear_value x5
    extract_lets +onlyGivenNames s6
    have h7 : Kept s₀ s6 := by
      dsimp -zeta only [s6]
      exact State.ostWait_kept h4
    clear_value s6
    extract_lets +onlyGivenNames x8
    have h9 : Kept s₀ x8.2 := by
      dsimp -zeta only [x8]
      exact State.regRead_kept h7
    clear_value x8
    exact State.fabWait_kept (State.fabricAv_kept h9)

theorem State.ostFst_kept {t} (h : Kept s₀ s) : Kept s₀ (State.ostFst s t) := by
  unfold State.ostFst
  refine State.ostFabric_kept ?_ ?_
  · exact h
  · intro s1 x2 x3 h4
    extract_lets +onlyGivenNames x5
    clear_value x5
    extract_lets +onlyGivenNames x6
    clear_value x6
    extract_lets +onlyGivenNames s7
    have h8 : Kept s₀ s7 := by
      dsimp -zeta only [s7]
      exact State.ostWait_kept h4
    clear_value s7
    extract_lets +onlyGivenNames s9
    have h10 : Kept s₀ s9 := by
      dsimp -zeta only [s9]
      exact State.regWrite_kept h8
    clear_value s9
    exact State.fabWait_kept (State.fabricAv_kept h10)

/-! ### Machine/Cmd.lean -/

theorem State.command_kept {fn a v fs} (h : Kept s₀ s) : Kept s₀ (State.command s fn a v fs) := by
  unfold State.command
  exact Kept.ite (State.regWrite_kept h) h

theorem State.hostStore_kept {fn a size v} (h : Kept s₀ s) : Kept s₀ (State.hostStore s fn a size v) := by
  unfold State.hostStore
  exact Kept.ite (State.hostWrite_kept h) h

theorem State.hostLoad_kept {fn a size} (h : Kept s₀ s) : Kept s₀ (State.hostLoad s fn a size) := by
  unfold State.hostLoad
  exact Kept.ite (State.readOut_kept h) h

theorem State.reqLoad_kept {rq own a size} (h : Kept s₀ s) : Kept s₀ (State.reqLoad s rq own a size) := by
  unfold State.reqLoad
  exact Kept.ite (State.hostLoad_kept h) (Kept.ite h (State.readOut_kept h))

theorem State.badVerCmd_kept {fn p v} (h : Kept s₀ s) : Kept s₀ (State.badVerCmd s fn p v) := by
  unfold State.badVerCmd
  exact Kept.ite h (State.command_kept h)

theorem State.copyFlip_kept {second bit} (h : Kept s₀ s) : Kept s₀ (State.copyFlip s second bit) := by
  unfold State.copyFlip
  extract_lets +onlyGivenNames x1
  clear_value x1
  extract_lets +onlyGivenNames x2
  clear_value x2
  extract_lets +onlyGivenNames s3
  have h4 : Kept s₀ s3 := by
    dsimp -zeta only [s3]
    exact Kept.ite (State.counterFault_kept h) (State.counterFault_kept h)
  clear_value s3
  exact Kept.ite (State.ttFault_kept h4) h4

theorem State.pcieConfig_kept {f en mask dis mps mrrs} (h : Kept s₀ s) : Kept s₀ (State.pcieConfig s f en mask dis mps
    mrrs) := by
  unfold State.pcieConfig
  extract_lets +onlyGivenNames x1
  clear_value x1
  extract_lets +onlyGivenNames x2
  clear_value x2
  extract_lets +onlyGivenNames x3
  clear_value x3
  extract_lets +onlyGivenNames x4
  extract_lets +onlyGivenNames s5
  have h6 : Kept s₀ s5 := by
    dsimp -zeta only [s5]
    exact Kept.any h
  clear_value s5
  exact Kept.ite (State.emit_kept h6) h6

theorem State.upset_kept {a} (h : Kept s₀ s) : Kept s₀ (State.upset s a) := by
  unfold State.upset
  split
  · rename_i x1 x2 x3 x4 x5
    extract_lets +onlyGivenNames x6
    clear_value x6
    extract_lets +onlyGivenNames x7
    clear_value x7
    refine Kept.ite ?_ ?_
    · exact h
    · extract_lets +onlyGivenNames x8
      clear_value x8
      exact State.setEmRow_kept h
  · rename_i x9 x10 x11 x12 x13
    refine Kept.ite ?_ ?_
    · exact h
    · extract_lets +onlyGivenNames x14
      clear_value x14
      exact State.setEmRow_kept h
  · rename_i x15 x16 x17 x18
    extract_lets +onlyGivenNames x19
    clear_value x19
    extract_lets +onlyGivenNames x20
    clear_value x20
    extract_lets +onlyGivenNames x21
    clear_value x21
    refine Kept.ite ?_ ?_
    · exact h
    · extract_lets +onlyGivenNames x22
      clear_value x22
      exact State.setTcRow_kept h
  · rename_i x23 x24 x25 x26 x27
    extract_lets +onlyGivenNames x28
    clear_value x28
    extract_lets +onlyGivenNames x29
    clear_value x29
    extract_lets +onlyGivenNames x30
    clear_value x30
    refine Kept.ite ?_ ?_
    · exact h
    · extract_lets +onlyGivenNames x31
      clear_value x31
      extract_lets +onlyGivenNames x32
      clear_value x32
      extract_lets +onlyGivenNames x33
      clear_value x33
      exact State.setTcRow_kept h
  · rename_i x34 x35 x36 x37 x38 x39
    extract_lets +onlyGivenNames x40
    clear_value x40
    extract_lets +onlyGivenNames x41
    clear_value x41
    extract_lets +onlyGivenNames x42
    clear_value x42
    exact State.setUcStore_kept h
  · rename_i x43 x44 x45 x46
    split
    · rename_i x47 e48
      exact h
    · rename_i x49 x50 e51
      exact Kept.ite h (State.setBuf_kept h)
  · rename_i x52 x53 x54
    exact Kept.anyOst h
  · rename_i x55 x56 x57 x58
    extract_lets +onlyGivenNames x59
    clear_value x59
    exact Kept.putPs h

end Sys2Proof.Machine
end

