-- ==== Sys2Proof/Laws/Place.lean ====
section
/-! SUPPORT. Where the commands' registers lie, and what a permitted write of one does. -/

namespace Sys2Proof.Machine

theorem findReg_at {a : Nat} {g : Region} {r : Row} {ix : List Nat} (o : Nat) (hg : regionOf a = g) (ho : a - baseOf g = o)
    (hr : findRow (rowsOf g) o = some (r, ix)) : findReg a = some (g, r, ix) := by
  subst hg ho; simp only [findReg, hr]; rfl

/-- A permitted write of a register held at `pa` acts, and the causes that other state drives follow. -/
theorem State.regWriteX_of_writable {s : State} {fn a pa : Nat} {g : Region} {r : Row} {ix : List Nat} {v : Word}
    {img : Option Image} {push : Option Bool} (h : s.writable fn a = true) (hp : s.physAddr fn a = some pa ∨ s.physAddr fn a = none)
    (hr : findReg a = some (g, r, ix)) :
    s.regWriteX (host fn) a v img push =
      (s.regAct ⟨host fn, a, pa, g, r, ix, taken a v, img, push⟩).settle s := by
  have ht : taken a v = v &&& r.mask fun _ => true := by unfold taken; rw [hr]
  unfold State.writable at h
  rw [Bool.and_eq_true] at h
  have h := h.2
  unfold State.regWriteX
  rw [ht]
  have hp0 : s.place (host fn).fn (host fn).fn a = s.place fn fn a := rfl
  rw [hp0]
  by_cases hf : (pipeOfRegion (regionOf a)).any s.pipeFused = true
  · have e : s.place fn fn a = .gap := by unfold State.place; rw [if_pos hf]
    rw [e] at h; exact absurd h (by simp)
  · rcases hp with hp | hp
    · have e : s.place fn fn a = .reg pa g r ix := by unfold State.place; rw [if_neg hf, hp]; simp only [hr]
      rw [e] at h ⊢
      have hv : s.viewWrite (host fn).fn g (some r.id) ix = true := h
      simp only [hv]; rfl
    · have e : s.place fn fn a = .zero := by unfold State.place; rw [if_neg hf, hp]
      rw [e] at h; exact absurd h (by simp)

theorem State.reach_of_writable {s : State} {fn a : Nat} (h : s.writable fn a = true) : s.reach = true := by
  unfold State.writable at h; rw [Bool.and_eq_true] at h; exact h.1

/-- A command whose write is permitted. -/
theorem State.command_of_writable {s : State} {fn a pa : Nat} {g : Region} {r : Row} {ix : List Nat} {v : Word}
    {fs : List (Fld × Nat)} (h : s.writable fn a = true) (hp : s.physAddr fn a = some pa ∨ s.physAddr fn a = none)
    (hr : findReg a = some (g, r, ix)) :
    s.command fn a v fs = (s.regAct ⟨host fn, a, pa, g, r, ix, taken a (putFlds v fs), none, none⟩).settle s := by
  unfold State.command State.regWrite
  rw [State.reach_of_writable h, if_pos rfl, State.regWriteX_of_writable h hp hr]

theorem region_bpm (o : Nat) (ho : o < 0x1000) : regionOf (0x300000 + o) = .bpm := by
  unfold regionOf
  repeat rw [if_neg (by omega)]
  rw [if_pos (by omega)]

theorem region_bpmPage (n : Nat) (o : Nat) (hn : n < 17) (ho : o < 0x1000) : regionOf (0x301000 + n * 0x1000 + o) = .bpmPage n := by
  unfold regionOf
  repeat rw [if_neg (by omega)]
  rw [if_pos (by omega)]; congr 1; omega

theorem region_clk (o : Nat) (ho : o < 0x10000) : regionOf (0x30000 + o) = .clk := by
  unfold regionOf
  repeat rw [if_neg (by omega)]
  rw [if_pos (by omega)]

theorem region_cnt (n : Nat) (o : Nat) (hn : n < 17) (ho : o < 0x10000) : regionOf (0xC00000 + n * 0x10000 + o) = .cnt n := by
  unfold regionOf
  repeat rw [if_neg (by omega)]
  rw [if_pos (by omega)]; congr 1; omega

theorem region_dev (o : Nat) (ho : o < 0x10000) : regionOf (0x0 + o) = .dev := by
  unfold regionOf
  rw [if_pos (by omega)]

theorem region_dma (n : Nat) (o : Nat) (hn : n < 17) (ho : o < 0x1000) (ho2 : 0x100 ≤ o) : regionOf (0xD10000 + n * 0x1000 + o) = .dma n := by
  unfold regionOf
  repeat rw [if_neg (by omega)]
  rw [if_pos (by omega)]; dsimp only; rw [if_neg (by omega)]; congr 1; omega

theorem region_irqPage (n : Nat) (o : Nat) (hn : n < 17) (ho : o < 0x200) : regionOf (0x10000 + n * 0x200 + o) = .irqPage n := by
  unfold regionOf
  repeat rw [if_neg (by omega)]
  rw [if_pos (by omega)]; congr 1; omega

theorem region_lane (n : Nat) (l : Nat) (o : Nat) (hn : n < 64) (hl : l < 16) (ho : o < 0x380) : regionOf (0x100800 + n * 0x4000 + l * 0x380 + o) = .lane n l := by
  have e1 : (0x100800 + n * 0x4000 + l * 0x380 + o - 0x100000) / 0x4000 = n := by omega
  have e2 : (0x100800 + n * 0x4000 + l * 0x380 + o - 0x100000) % 0x4000 = 0x800 + (l * 0x380 + o) := by omega
  have e3 : (0x800 + (l * 0x380 + o) - 0x800) / 0x380 = l := by rw [Nat.add_sub_cancel_left]; omega
  have b1 : 0x100000 ≤ 0x100800 + n * 0x4000 + l * 0x380 + o ∧ 0x100800 + n * 0x4000 + l * 0x380 + o < 0x200000 := by omega
  have e4 : 0x800 ≤ 0x800 + (l * 0x380 + o) := by omega
  generalize 0x800 + (l * 0x380 + o) = b at e2 e3 e4
  generalize 0x100800 + n * 0x4000 + l * 0x380 + o = a at e1 e2 b1 ⊢
  unfold regionOf
  repeat rw [if_neg (by omega)]
  rw [if_pos (by omega)]; dsimp only; rw [e1, e2, e3, if_neg (by omega), if_pos hl]

theorem region_lg (n : Nat) (o : Nat) (hn : n < 64) (ho : o < 0x800) : regionOf (0x100000 + n * 0x4000 + o) = .lg n := by
  unfold regionOf
  repeat rw [if_neg (by omega)]
  rw [if_pos (by omega)]; dsimp only; rw [if_pos (by omega)]; congr 1; omega

theorem region_ostOwn (n : Nat) (o : Nat) (hn : n < 17) (ho : o < 0x1000) : regionOf (0x880000 + n * 0x1000 + o) = .ostOwn n := by
  unfold regionOf
  repeat rw [if_neg (by omega)]
  rw [if_pos (by omega)]; dsimp only; rw [if_neg (by omega), if_neg (by omega), if_pos (by omega)]; congr 1; omega

theorem region_ostThr (c : Nat) (k : Nat) (t : Nat) (o : Nat) (hc : c < 4) (hk : k < 8) (ht : t < 16) (ho : o < 0x100) : regionOf (0x810000 + c * 0x100000 + k * 0x1000 + t * 0x100 + o) = .ostThr c k t := by
  unfold regionOf
  repeat rw [if_neg (by omega)]
  rw [if_pos (by omega)]; dsimp only; rw [if_neg (by omega), if_pos (by omega)]; congr 1 <;> omega

theorem region_pitG (o : Nat) (ho : o < 0x1000) : regionOf (0x40000 + o) = .pitG := by
  unfold regionOf
  repeat rw [if_neg (by omega)]
  rw [if_pos (by omega)]

theorem region_pitPage (n : Nat) (o : Nat) (hn : n < 17) (ho : o < 0x1000) (h1 : 1 ≤ n) : regionOf (0x40000 + n * 0x1000 + o) = .pitPage n := by
  unfold regionOf
  repeat rw [if_neg (by omega)]
  rw [if_pos (by omega)]; congr 1; omega

theorem region_port (n : Nat) (o : Nat) (hn : n < 1024) (ho : o < 0x400) : regionOf (0x200000 + n * 0x400 + o) = .port n := by
  unfold regionOf
  repeat rw [if_neg (by omega)]
  rw [if_pos (by omega)]; congr 1; omega

theorem region_ring (f : Nat) (r : Nat) (o : Nat) (hf : f < 17) (hr : r < 4) (ho : o < 0x40) : regionOf (0xD10000 + f * 0x1000 + r * 0x40 + o) = .ring f r := by
  unfold regionOf
  repeat rw [if_neg (by omega)]
  rw [if_pos (by omega)]; dsimp only; rw [if_pos (by omega)]; congr 1 <;> omega

theorem region_sb (o : Nat) (ho : o < 0x100000) : regionOf (0xE00000 + o) = .sb := by
  unfold regionOf
  repeat rw [if_neg (by omega)]
  rw [if_pos (by omega)]

theorem region_stg (p : Nat) (s : Nat) (o : Nat) (hp : p < 16) (hs : s < 24) (ho : o < 0x80000) : regionOf (0x10100000 + p * 0x1000000 + s * 0x80000 + o) = .stg p s := by
  unfold regionOf
  repeat rw [if_neg (by omega)]
  rw [if_pos (by omega)]; dsimp only; rw [if_neg (by omega), if_pos (by omega)]; congr 1 <;> omega

theorem region_tc (n : Nat) (o : Nat) (hn : n < 16) (ho : o < 0x100000) : regionOf (0x10D00000 + n * 0x1000000 + o) = .tc n := by
  unfold regionOf
  repeat rw [if_neg (by omega)]
  rw [if_pos (by omega)]; dsimp only; rw [if_neg (by omega), if_neg (by omega), if_pos (by omega)]; congr 1; omega

theorem region_time (o : Nat) (ho : o < 0x40000) : regionOf (0x80000 + o) = .time := by
  unfold regionOf
  repeat rw [if_neg (by omega)]
  rw [if_pos (by omega)]

theorem region_tmPipe (n : Nat) (o : Nat) (hn : n < 16) (ho : o < 0x4000) : regionOf (0x410000 + n * 0x4000 + o) = .tmPipe n := by
  unfold regionOf
  repeat rw [if_neg (by omega)]
  rw [if_pos (by omega)]; congr 1; omega

theorem region_tt (n : Nat) (o : Nat) (hn : n < 17) (ho : o < 0x800) (h1 : 1 ≤ n) : regionOf (0xC0000 + n * 0x800 + o) = .tt n := by
  unfold regionOf
  repeat rw [if_neg (by omega)]
  rw [if_pos (by omega)]; congr 1; omega

theorem region_ver (n : Nat) (o : Nat) (hn : n < 16) (ho : o < 0x100000) : regionOf (0x10E00000 + n * 0x1000000 + o) = .ver n := by
  unfold regionOf
  repeat rw [if_neg (by omega)]
  rw [if_pos (by omega)]; dsimp only; rw [if_neg (by omega), if_neg (by omega), if_neg (by omega), if_pos (by omega)]; congr 1; omega

theorem region_wb (o : Nat) (ho : o < 0x1000) : regionOf (0xC9000 + o) = .wb := by
  unfold regionOf
  repeat rw [if_neg (by omega)]
  rw [if_pos (by omega)]

theorem region_wbStrm (n : Nat) (o : Nat) (hn : n < 17) (ho : o < 0x400) : regionOf (0xCA000 + n * 0x400 + o) = .wbStrm n := by
  unfold regionOf
  repeat rw [if_neg (by omega)]
  rw [if_pos (by omega)]; congr 1; omega

/-- A register outside the windows that share one is held at its own address. -/
theorem State.physAddr_self {s : State} {rq a : Nat} {g : Region} (hg : regionOf a = g)
    (h : match g with | .par _ => False | .ver _ => 0x100 ≤ a % 0x100000 | .stg _ _ => ¬ (0x3840 ≤ (a % 0x1000000 - 0x100000) % 0x80000 ∧ (a % 0x1000000 - 0x100000) % 0x80000 < 0x3880) | _ => a ≠ 0x80004 ∧ a ≠ 0x80008) :
    s.physAddr rq a = some a := by
  unfold State.physAddr; rw [hg]
  cases g <;> simp only at h ⊢ <;> first | exact h.elim | (rw [if_neg (by omega)])

theorem region_PIT_COMMIT  : regionOf (R.PIT_COMMIT) = .pitG := by
  have h := region_pitG (0x80) (by omega)
  have e : (R.PIT_COMMIT) = 0x40000 + (0x80) := by unfold R.PIT_COMMIT; omega
  rw [e]; exact h

theorem findReg_PIT_COMMIT  :
    findReg (R.PIT_COMMIT) = some (.pitG, ⟨.PIT_COMMIT, 0x80, [], 0x0, [(F.PIT_COMMIT.RESULT, .ro), (F.PIT_COMMIT.GO, .sc)], false⟩, []) := by
  refine findReg_at (0x80) (region_PIT_COMMIT) (by show R.PIT_COMMIT - (0x40000) = 0x80; unfold R.PIT_COMMIT; omega) ?_
  rfl

theorem State.command_PIT_COMMIT {st : State} {fn : Nat} {v : Word} {fs : List (Fld × Nat)}
    (h : st.writable fn (R.PIT_COMMIT) = true) :
    st.command fn (R.PIT_COMMIT) v fs =
      (st.regAct ⟨host fn, R.PIT_COMMIT, R.PIT_COMMIT, .pitG, ⟨.PIT_COMMIT, 0x80, [], 0x0, [(F.PIT_COMMIT.RESULT, .ro), (F.PIT_COMMIT.GO, .sc)], false⟩, [],
        taken (R.PIT_COMMIT) (putFlds v fs), none, none⟩).settle st :=
  State.command_of_writable h (.inl (State.physAddr_self (region_PIT_COMMIT) (by show _ ≠ _ ∧ _ ≠ _; unfold R.PIT_COMMIT; omega)))
    (findReg_PIT_COMMIT)

theorem region_PIT_CTL (n : Nat) (hn : n < 17) (h1 : 1 ≤ n) : regionOf (R.PIT_CTL n) = .pitPage n := by
  have h := region_pitPage n (0x0) hn (by omega) h1
  have e : (R.PIT_CTL n) = 0x40000 + n * 0x1000 + (0x0) := by unfold R.PIT_CTL; omega
  rw [e]; exact h

theorem findReg_PIT_CTL (n : Nat) (hn : n < 17) (h1 : 1 ≤ n) :
    findReg (R.PIT_CTL n) = some (.pitPage n, ⟨.PIT_CTL, 0x0, [], 0x0, [(F.PIT_CTL.WARDEN_HOLD, .rw), (F.PIT_CTL.SELF_RESET, .rw)], false⟩, []) := by
  refine findReg_at (0x0) (region_PIT_CTL n hn h1) (by show R.PIT_CTL n - (0x40000 + n * 0x1000) = 0x0; unfold R.PIT_CTL; omega) ?_
  rfl

theorem State.command_PIT_CTL {st : State} {fn : Nat} {v : Word} {fs : List (Fld × Nat)} (n : Nat) (hn : n < 17) (h1 : 1 ≤ n)
    (h : st.writable fn (R.PIT_CTL n) = true) :
    st.command fn (R.PIT_CTL n) v fs =
      (st.regAct ⟨host fn, R.PIT_CTL n, R.PIT_CTL n, .pitPage n, ⟨.PIT_CTL, 0x0, [], 0x0, [(F.PIT_CTL.WARDEN_HOLD, .rw), (F.PIT_CTL.SELF_RESET, .rw)], false⟩, [],
        taken (R.PIT_CTL n) (putFlds v fs), none, none⟩).settle st :=
  State.command_of_writable h (.inl (State.physAddr_self (region_PIT_CTL n hn h1) (by show _ ≠ _ ∧ _ ≠ _; unfold R.PIT_CTL; omega)))
    (findReg_PIT_CTL n hn h1)

theorem region_CLK_RST_DEV  : regionOf (R.CLK_RST_DEV) = .clk := by
  have h := region_clk (0x10) (by omega)
  have e : (R.CLK_RST_DEV) = 0x30000 + (0x10) := by unfold R.CLK_RST_DEV; omega
  rw [e]; exact h

theorem findReg_CLK_RST_DEV  :
    findReg (R.CLK_RST_DEV) = some (.clk, ⟨.CLK_RST_DEV, 0x10, [], 0x0, [(F.CLK_RST_DEV.GO, .sc), (F.CLK_RST_DEV.BUSY, .ro)], false⟩, []) := by
  refine findReg_at (0x10) (region_CLK_RST_DEV) (by show R.CLK_RST_DEV - (0x30000) = 0x10; unfold R.CLK_RST_DEV; omega) ?_
  rfl

theorem State.command_CLK_RST_DEV {st : State} {fn : Nat} {v : Word} {fs : List (Fld × Nat)}
    (h : st.writable fn (R.CLK_RST_DEV) = true) :
    st.command fn (R.CLK_RST_DEV) v fs =
      (st.regAct ⟨host fn, R.CLK_RST_DEV, R.CLK_RST_DEV, .clk, ⟨.CLK_RST_DEV, 0x10, [], 0x0, [(F.CLK_RST_DEV.GO, .sc), (F.CLK_RST_DEV.BUSY, .ro)], false⟩, [],
        taken (R.CLK_RST_DEV) (putFlds v fs), none, none⟩).settle st :=
  State.command_of_writable h (.inl (State.physAddr_self (region_CLK_RST_DEV) (by show _ ≠ _ ∧ _ ≠ _; unfold R.CLK_RST_DEV; omega)))
    (findReg_CLK_RST_DEV)

theorem region_DEV_PUSH_CTL  : regionOf (R.DEV_PUSH_CTL) = .dev := by
  have h := region_dev (0x40C) (by omega)
  have e : (R.DEV_PUSH_CTL) = 0x0 + (0x40C) := by unfold R.DEV_PUSH_CTL; omega
  rw [e]; exact h

theorem findReg_DEV_PUSH_CTL  :
    findReg (R.DEV_PUSH_CTL) = some (.dev, ⟨.DEV_PUSH_CTL, 0x40C, [], 0x0, [(F.DEV_PUSH_CTL.GO, .sc)], false⟩, []) := by
  refine findReg_at (0x40C) (region_DEV_PUSH_CTL) (by show R.DEV_PUSH_CTL - (0x0) = 0x40C; unfold R.DEV_PUSH_CTL; omega) ?_
  rfl

theorem State.command_DEV_PUSH_CTL {st : State} {fn : Nat} {v : Word} {fs : List (Fld × Nat)}
    (h : st.writable fn (R.DEV_PUSH_CTL) = true) :
    st.command fn (R.DEV_PUSH_CTL) v fs =
      (st.regAct ⟨host fn, R.DEV_PUSH_CTL, R.DEV_PUSH_CTL, .dev, ⟨.DEV_PUSH_CTL, 0x40C, [], 0x0, [(F.DEV_PUSH_CTL.GO, .sc)], false⟩, [],
        taken (R.DEV_PUSH_CTL) (putFlds v fs), none, none⟩).settle st :=
  State.command_of_writable h (.inl (State.physAddr_self (region_DEV_PUSH_CTL) (by show _ ≠ _ ∧ _ ≠ _; unfold R.DEV_PUSH_CTL; omega)))
    (findReg_DEV_PUSH_CTL)

theorem region_DEV_PRES_CTL  : regionOf (R.DEV_PRES_CTL) = .dev := by
  have h := region_dev (0x204) (by omega)
  have e : (R.DEV_PRES_CTL) = 0x0 + (0x204) := by unfold R.DEV_PRES_CTL; omega
  rw [e]; exact h

theorem findReg_DEV_PRES_CTL  :
    findReg (R.DEV_PRES_CTL) = some (.dev, ⟨.DEV_PRES_CTL, 0x204, [], 0x3C, [(F.DEV_PRES_CTL.CLOSE, .sc), (F.DEV_PRES_CTL.WINDOW, .rwp)], false⟩, []) := by
  refine findReg_at (0x204) (region_DEV_PRES_CTL) (by show R.DEV_PRES_CTL - (0x0) = 0x204; unfold R.DEV_PRES_CTL; omega) ?_
  rfl

theorem State.command_DEV_PRES_CTL {st : State} {fn : Nat} {v : Word} {fs : List (Fld × Nat)}
    (h : st.writable fn (R.DEV_PRES_CTL) = true) :
    st.command fn (R.DEV_PRES_CTL) v fs =
      (st.regAct ⟨host fn, R.DEV_PRES_CTL, R.DEV_PRES_CTL, .dev, ⟨.DEV_PRES_CTL, 0x204, [], 0x3C, [(F.DEV_PRES_CTL.CLOSE, .sc), (F.DEV_PRES_CTL.WINDOW, .rwp)], false⟩, [],
        taken (R.DEV_PRES_CTL) (putFlds v fs), none, none⟩).settle st :=
  State.command_of_writable h (.inl (State.physAddr_self (region_DEV_PRES_CTL) (by show _ ≠ _ ∧ _ ≠ _; unfold R.DEV_PRES_CTL; omega)))
    (findReg_DEV_PRES_CTL)

theorem region_IRQ_PEND (n : Nat) (hn : n < 17) : regionOf (R.IRQ_PEND n) = .irqPage n := by
  have h := region_irqPage n (0x4) hn (by omega)
  have e : (R.IRQ_PEND n) = 0x10000 + n * 0x200 + (0x4) := by unfold R.IRQ_PEND; omega
  rw [e]; exact h

theorem findReg_IRQ_PEND (n : Nat) (hn : n < 17) :
    findReg (R.IRQ_PEND n) = some (.irqPage n, ⟨.IRQ_PEND, 0x4, [], 0x0, [(F.IRQ_PEND.SRC, .w1c)], false⟩, []) := by
  refine findReg_at (0x4) (region_IRQ_PEND n hn) (by show R.IRQ_PEND n - (0x10000 + n * 0x200) = 0x4; unfold R.IRQ_PEND; omega) ?_
  rfl

theorem State.command_IRQ_PEND {st : State} {fn : Nat} {v : Word} {fs : List (Fld × Nat)} (n : Nat) (hn : n < 17)
    (h : st.writable fn (R.IRQ_PEND n) = true) :
    st.command fn (R.IRQ_PEND n) v fs =
      (st.regAct ⟨host fn, R.IRQ_PEND n, R.IRQ_PEND n, .irqPage n, ⟨.IRQ_PEND, 0x4, [], 0x0, [(F.IRQ_PEND.SRC, .w1c)], false⟩, [],
        taken (R.IRQ_PEND n) (putFlds v fs), none, none⟩).settle st :=
  State.command_of_writable h (.inl (State.physAddr_self (region_IRQ_PEND n hn) (by show _ ≠ _ ∧ _ ≠ _; unfold R.IRQ_PEND; omega)))
    (findReg_IRQ_PEND n hn)

theorem region_IRQ_HIST_CTL (n : Nat) (hn : n < 17) : regionOf (R.IRQ_HIST_CTL n) = .irqPage n := by
  have h := region_irqPage n (0x20) hn (by omega)
  have e : (R.IRQ_HIST_CTL n) = 0x10000 + n * 0x200 + (0x20) := by unfold R.IRQ_HIST_CTL; omega
  rw [e]; exact h

theorem findReg_IRQ_HIST_CTL (n : Nat) (hn : n < 17) :
    findReg (R.IRQ_HIST_CTL n) = some (.irqPage n, ⟨.IRQ_HIST_CTL, 0x20, [], 0x0, [(F.IRQ_HIST_CTL.POP, .sc), (F.IRQ_HIST_CTL.LEVEL, .ro)], false⟩, []) := by
  refine findReg_at (0x20) (region_IRQ_HIST_CTL n hn) (by show R.IRQ_HIST_CTL n - (0x10000 + n * 0x200) = 0x20; unfold R.IRQ_HIST_CTL; omega) ?_
  rfl

theorem State.command_IRQ_HIST_CTL {st : State} {fn : Nat} {v : Word} {fs : List (Fld × Nat)} (n : Nat) (hn : n < 17)
    (h : st.writable fn (R.IRQ_HIST_CTL n) = true) :
    st.command fn (R.IRQ_HIST_CTL n) v fs =
      (st.regAct ⟨host fn, R.IRQ_HIST_CTL n, R.IRQ_HIST_CTL n, .irqPage n, ⟨.IRQ_HIST_CTL, 0x20, [], 0x0, [(F.IRQ_HIST_CTL.POP, .sc), (F.IRQ_HIST_CTL.LEVEL, .ro)], false⟩, [],
        taken (R.IRQ_HIST_CTL n) (putFlds v fs), none, none⟩).settle st :=
  State.command_of_writable h (.inl (State.physAddr_self (region_IRQ_HIST_CTL n hn) (by show _ ≠ _ ∧ _ ≠ _; unfold R.IRQ_HIST_CTL; omega)))
    (findReg_IRQ_HIST_CTL n hn)

theorem region_TM_IA_CMD (n : Nat) (hn : n < 16) : regionOf (R.TM_IA_CMD n) = .tmPipe n := by
  have h := region_tmPipe n (0x0) hn (by omega)
  have e : (R.TM_IA_CMD n) = 0x410000 + n * 0x4000 + (0x0) := by unfold R.TM_IA_CMD; omega
  rw [e]; exact h

theorem findReg_TM_IA_CMD (n : Nat) (hn : n < 16) :
    findReg (R.TM_IA_CMD n) = some (.tmPipe n, ⟨.TM_IA_CMD, 0x0, [], 0x0, [(F.TM_IA_CMD.GO, .sc), (F.TM_IA_CMD.OP, .rw), (F.TM_IA_CMD.TARGET, .rw), (F.TM_IA_CMD.INDEX, .rw)], false⟩, []) := by
  refine findReg_at (0x0) (region_TM_IA_CMD n hn) (by show R.TM_IA_CMD n - (0x410000 + n * 0x4000) = 0x0; unfold R.TM_IA_CMD; omega) ?_
  rfl

theorem State.command_TM_IA_CMD {st : State} {fn : Nat} {v : Word} {fs : List (Fld × Nat)} (n : Nat) (hn : n < 16)
    (h : st.writable fn (R.TM_IA_CMD n) = true) :
    st.command fn (R.TM_IA_CMD n) v fs =
      (st.regAct ⟨host fn, R.TM_IA_CMD n, R.TM_IA_CMD n, .tmPipe n, ⟨.TM_IA_CMD, 0x0, [], 0x0, [(F.TM_IA_CMD.GO, .sc), (F.TM_IA_CMD.OP, .rw), (F.TM_IA_CMD.TARGET, .rw), (F.TM_IA_CMD.INDEX, .rw)], false⟩, [],
        taken (R.TM_IA_CMD n) (putFlds v fs), none, none⟩).settle st :=
  State.command_of_writable h (.inl (State.physAddr_self (region_TM_IA_CMD n hn) (by show _ ≠ _ ∧ _ ≠ _; unfold R.TM_IA_CMD; omega)))
    (findReg_TM_IA_CMD n hn)

theorem region_BPM_AUD_CTL (n : Nat) (hn : n < 17) : regionOf (R.BPM_AUD_CTL n) = .bpmPage n := by
  have h := region_bpmPage n (0x408) hn (by omega)
  have e : (R.BPM_AUD_CTL n) = 0x301000 + n * 0x1000 + (0x408) := by unfold R.BPM_AUD_CTL; omega
  rw [e]; exact h

theorem findReg_BPM_AUD_CTL (n : Nat) (hn : n < 17) :
    findReg (R.BPM_AUD_CTL n) = some (.bpmPage n, ⟨.BPM_AUD_CTL, 0x408, [], 0x0, [(F.BPM_AUD_CTL.POP, .sc), (F.BPM_AUD_CTL.LEVEL, .ro)], false⟩, []) := by
  refine findReg_at (0x408) (region_BPM_AUD_CTL n hn) (by show R.BPM_AUD_CTL n - (0x301000 + n * 0x1000) = 0x408; unfold R.BPM_AUD_CTL; omega) ?_
  rfl

theorem State.command_BPM_AUD_CTL {st : State} {fn : Nat} {v : Word} {fs : List (Fld × Nat)} (n : Nat) (hn : n < 17)
    (h : st.writable fn (R.BPM_AUD_CTL n) = true) :
    st.command fn (R.BPM_AUD_CTL n) v fs =
      (st.regAct ⟨host fn, R.BPM_AUD_CTL n, R.BPM_AUD_CTL n, .bpmPage n, ⟨.BPM_AUD_CTL, 0x408, [], 0x0, [(F.BPM_AUD_CTL.POP, .sc), (F.BPM_AUD_CTL.LEVEL, .ro)], false⟩, [],
        taken (R.BPM_AUD_CTL n) (putFlds v fs), none, none⟩).settle st :=
  State.command_of_writable h (.inl (State.physAddr_self (region_BPM_AUD_CTL n hn) (by show _ ≠ _ ∧ _ ≠ _; unfold R.BPM_AUD_CTL; omega)))
    (findReg_BPM_AUD_CTL n hn)

theorem region_BPM_RECLAIM (n : Nat) (hn : n < 17) : regionOf (R.BPM_RECLAIM n) = .bpmPage n := by
  have h := region_bpmPage n (0x410) hn (by omega)
  have e : (R.BPM_RECLAIM n) = 0x301000 + n * 0x1000 + (0x410) := by unfold R.BPM_RECLAIM; omega
  rw [e]; exact h

theorem findReg_BPM_RECLAIM (n : Nat) (hn : n < 17) :
    findReg (R.BPM_RECLAIM n) = some (.bpmPage n, ⟨.BPM_RECLAIM, 0x410, [], 0x0, [(F.BPM_RECLAIM.GO, .sc), (F.BPM_RECLAIM.RESULT, .ro), (F.BPM_RECLAIM.HANDLE, .rw)], false⟩, []) := by
  refine findReg_at (0x410) (region_BPM_RECLAIM n hn) (by show R.BPM_RECLAIM n - (0x301000 + n * 0x1000) = 0x410; unfold R.BPM_RECLAIM; omega) ?_
  rfl

theorem State.command_BPM_RECLAIM {st : State} {fn : Nat} {v : Word} {fs : List (Fld × Nat)} (n : Nat) (hn : n < 17)
    (h : st.writable fn (R.BPM_RECLAIM n) = true) :
    st.command fn (R.BPM_RECLAIM n) v fs =
      (st.regAct ⟨host fn, R.BPM_RECLAIM n, R.BPM_RECLAIM n, .bpmPage n, ⟨.BPM_RECLAIM, 0x410, [], 0x0, [(F.BPM_RECLAIM.GO, .sc), (F.BPM_RECLAIM.RESULT, .ro), (F.BPM_RECLAIM.HANDLE, .rw)], false⟩, [],
        taken (R.BPM_RECLAIM n) (putFlds v fs), none, none⟩).settle st :=
  State.command_of_writable h (.inl (State.physAddr_self (region_BPM_RECLAIM n hn) (by show _ ≠ _ ∧ _ ≠ _; unfold R.BPM_RECLAIM; omega)))
    (findReg_BPM_RECLAIM n hn)

theorem region_BPM_FENCE_CTL  : regionOf (R.BPM_FENCE_CTL) = .bpm := by
  have h := region_bpm (0x10) (by omega)
  have e : (R.BPM_FENCE_CTL) = 0x300000 + (0x10) := by unfold R.BPM_FENCE_CTL; omega
  rw [e]; exact h

theorem findReg_BPM_FENCE_CTL  :
    findReg (R.BPM_FENCE_CTL) = some (.bpm, ⟨.BPM_FENCE_CTL, 0x10, [], 0x10, [(F.BPM_FENCE_CTL.GO, .sc), (F.BPM_FENCE_CTL.SLICE, .rw), (F.BPM_FENCE_CTL.UNCORR_THR, .rw)], false⟩, []) := by
  refine findReg_at (0x10) (region_BPM_FENCE_CTL) (by show R.BPM_FENCE_CTL - (0x300000) = 0x10; unfold R.BPM_FENCE_CTL; omega) ?_
  rfl

theorem State.command_BPM_FENCE_CTL {st : State} {fn : Nat} {v : Word} {fs : List (Fld × Nat)}
    (h : st.writable fn (R.BPM_FENCE_CTL) = true) :
    st.command fn (R.BPM_FENCE_CTL) v fs =
      (st.regAct ⟨host fn, R.BPM_FENCE_CTL, R.BPM_FENCE_CTL, .bpm, ⟨.BPM_FENCE_CTL, 0x10, [], 0x10, [(F.BPM_FENCE_CTL.GO, .sc), (F.BPM_FENCE_CTL.SLICE, .rw), (F.BPM_FENCE_CTL.UNCORR_THR, .rw)], false⟩, [],
        taken (R.BPM_FENCE_CTL) (putFlds v fs), none, none⟩).settle st :=
  State.command_of_writable h (.inl (State.physAddr_self (region_BPM_FENCE_CTL) (by show _ ≠ _ ∧ _ ≠ _; unfold R.BPM_FENCE_CTL; omega)))
    (findReg_BPM_FENCE_CTL)

theorem region_LG_CTL (n : Nat) (hn : n < 64) : regionOf (R.LG_CTL n) = .lg n := by
  have h := region_lg n (0x0) hn (by omega)
  have e : (R.LG_CTL n) = 0x100000 + n * 0x4000 + (0x0) := by unfold R.LG_CTL; omega
  rw [e]; exact h

theorem findReg_LG_CTL (n : Nat) (hn : n < 64) :
    findReg (R.LG_CTL n) = some (.lg n, ⟨.LG_CTL, 0x0, [], 0x1, [(F.LG_CTL.FIR_LOAD, .sc), (F.LG_CTL.FWD_RATE, .rwi), (F.LG_CTL.FWD_EN, .rwi), (F.LG_CTL.ADAPT_CONT, .rw)], false⟩, []) := by
  refine findReg_at (0x0) (region_LG_CTL n hn) (by show R.LG_CTL n - (0x100000 + n * 0x4000) = 0x0; unfold R.LG_CTL; omega) ?_
  rfl

theorem State.command_LG_CTL {st : State} {fn : Nat} {v : Word} {fs : List (Fld × Nat)} (n : Nat) (hn : n < 64)
    (h : st.writable fn (R.LG_CTL n) = true) :
    st.command fn (R.LG_CTL n) v fs =
      (st.regAct ⟨host fn, R.LG_CTL n, R.LG_CTL n, .lg n, ⟨.LG_CTL, 0x0, [], 0x1, [(F.LG_CTL.FIR_LOAD, .sc), (F.LG_CTL.FWD_RATE, .rwi), (F.LG_CTL.FWD_EN, .rwi), (F.LG_CTL.ADAPT_CONT, .rw)], false⟩, [],
        taken (R.LG_CTL n) (putFlds v fs), none, none⟩).settle st :=
  State.command_of_writable h (.inl (State.physAddr_self (region_LG_CTL n hn) (by show _ ≠ _ ∧ _ ≠ _; unfold R.LG_CTL; omega)))
    (findReg_LG_CTL n hn)

theorem region_LG_LN_FIR_B (n : Nat) (l : Nat) (hn : n < 64) (hl : l < 16) : regionOf (R.LG_LN_FIR_B n l) = .lane n l := by
  have h := region_lane n l (0x14) hn hl (by omega)
  have e : (R.LG_LN_FIR_B n l) = 0x100800 + n * 0x4000 + l * 0x380 + (0x14) := by unfold R.LG_LN_FIR_B; omega
  rw [e]; exact h

theorem findReg_LG_LN_FIR_B (n : Nat) (l : Nat) (hn : n < 64) (hl : l < 16) :
    findReg (R.LG_LN_FIR_B n l) = some (.lane n l, ⟨.LG_LN_FIR_B, 0x14, [], 0xF8, [(F.LG_LN_FIR_B.OWN, .rw), (F.LG_LN_FIR_B.LOAD, .sc), (F.LG_LN_FIR_B.T5, .rw), (F.LG_LN_FIR_B.T4, .rw)], false⟩, []) := by
  refine findReg_at (0x14) (region_LG_LN_FIR_B n l hn hl) (by show R.LG_LN_FIR_B n l - (0x100800 + n * 0x4000 + l * 0x380) = 0x14; unfold R.LG_LN_FIR_B; omega) ?_
  rfl

theorem State.command_LG_LN_FIR_B {st : State} {fn : Nat} {v : Word} {fs : List (Fld × Nat)} (n : Nat) (l : Nat) (hn : n < 64) (hl : l < 16)
    (h : st.writable fn (R.LG_LN_FIR_B n l) = true) :
    st.command fn (R.LG_LN_FIR_B n l) v fs =
      (st.regAct ⟨host fn, R.LG_LN_FIR_B n l, R.LG_LN_FIR_B n l, .lane n l, ⟨.LG_LN_FIR_B, 0x14, [], 0xF8, [(F.LG_LN_FIR_B.OWN, .rw), (F.LG_LN_FIR_B.LOAD, .sc), (F.LG_LN_FIR_B.T5, .rw), (F.LG_LN_FIR_B.T4, .rw)], false⟩, [],
        taken (R.LG_LN_FIR_B n l) (putFlds v fs), none, none⟩).settle st :=
  State.command_of_writable h (.inl (State.physAddr_self (region_LG_LN_FIR_B n l hn hl) (by show _ ≠ _ ∧ _ ≠ _; unfold R.LG_LN_FIR_B; omega)))
    (findReg_LG_LN_FIR_B n l hn hl)

theorem region_LG_LN_TEST (n : Nat) (l : Nat) (hn : n < 64) (hl : l < 16) : regionOf (R.LG_LN_TEST n l) = .lane n l := by
  have h := region_lane n l (0x40) hn hl (by omega)
  have e : (R.LG_LN_TEST n l) = 0x100800 + n * 0x4000 + l * 0x380 + (0x40) := by unfold R.LG_LN_TEST; omega
  rw [e]; exact h

theorem findReg_LG_LN_TEST (n : Nat) (l : Nat) (hn : n < 64) (hl : l < 16) :
    findReg (R.LG_LN_TEST n l) = some (.lane n l, ⟨.LG_LN_TEST, 0x40, [], 0x0, [(F.LG_LN_TEST.RX_ON, .rw), (F.LG_LN_TEST.TX_INV, .rwi), (F.LG_LN_TEST.RX_INV, .rwi), (F.LG_LN_TEST.LOOP, .rw), (F.LG_LN_TEST.CHK_PAT, .rw), (F.LG_LN_TEST.GEN_PAT, .rw), (F.LG_LN_TEST.TX_SRC, .rw)], false⟩, []) := by
  refine findReg_at (0x40) (region_LG_LN_TEST n l hn hl) (by show R.LG_LN_TEST n l - (0x100800 + n * 0x4000 + l * 0x380) = 0x40; unfold R.LG_LN_TEST; omega) ?_
  rfl

theorem State.command_LG_LN_TEST {st : State} {fn : Nat} {v : Word} {fs : List (Fld × Nat)} (n : Nat) (l : Nat) (hn : n < 64) (hl : l < 16)
    (h : st.writable fn (R.LG_LN_TEST n l) = true) :
    st.command fn (R.LG_LN_TEST n l) v fs =
      (st.regAct ⟨host fn, R.LG_LN_TEST n l, R.LG_LN_TEST n l, .lane n l, ⟨.LG_LN_TEST, 0x40, [], 0x0, [(F.LG_LN_TEST.RX_ON, .rw), (F.LG_LN_TEST.TX_INV, .rwi), (F.LG_LN_TEST.RX_INV, .rwi), (F.LG_LN_TEST.LOOP, .rw), (F.LG_LN_TEST.CHK_PAT, .rw), (F.LG_LN_TEST.GEN_PAT, .rw), (F.LG_LN_TEST.TX_SRC, .rw)], false⟩, [],
        taken (R.LG_LN_TEST n l) (putFlds v fs), none, none⟩).settle st :=
  State.command_of_writable h (.inl (State.physAddr_self (region_LG_LN_TEST n l hn hl) (by show _ ≠ _ ∧ _ ≠ _; unfold R.LG_LN_TEST; omega)))
    (findReg_LG_LN_TEST n l hn hl)

theorem region_LG_LN_EYE_CTL (n : Nat) (l : Nat) (hn : n < 64) (hl : l < 16) : regionOf (R.LG_LN_EYE_CTL n l) = .lane n l := by
  have h := region_lane n l (0x60) hn hl (by omega)
  have e : (R.LG_LN_EYE_CTL n l) = 0x100800 + n * 0x4000 + l * 0x380 + (0x60) := by unfold R.LG_LN_EYE_CTL; omega
  rw [e]; exact h

theorem findReg_LG_LN_EYE_CTL (n : Nat) (l : Nat) (hn : n < 64) (hl : l < 16) :
    findReg (R.LG_LN_EYE_CTL n l) = some (.lane n l, ⟨.LG_LN_EYE_CTL, 0x60, [], 0x0, [(F.LG_LN_EYE_CTL.GO, .sc), (F.LG_LN_EYE_CTL.EYE, .rw), (F.LG_LN_EYE_CTL.PHASE, .rw), (F.LG_LN_EYE_CTL.VOFF, .rw), (F.LG_LN_EYE_CTL.LEN, .rw)], false⟩, []) := by
  refine findReg_at (0x60) (region_LG_LN_EYE_CTL n l hn hl) (by show R.LG_LN_EYE_CTL n l - (0x100800 + n * 0x4000 + l * 0x380) = 0x60; unfold R.LG_LN_EYE_CTL; omega) ?_
  rfl

theorem State.command_LG_LN_EYE_CTL {st : State} {fn : Nat} {v : Word} {fs : List (Fld × Nat)} (n : Nat) (l : Nat) (hn : n < 64) (hl : l < 16)
    (h : st.writable fn (R.LG_LN_EYE_CTL n l) = true) :
    st.command fn (R.LG_LN_EYE_CTL n l) v fs =
      (st.regAct ⟨host fn, R.LG_LN_EYE_CTL n l, R.LG_LN_EYE_CTL n l, .lane n l, ⟨.LG_LN_EYE_CTL, 0x60, [], 0x0, [(F.LG_LN_EYE_CTL.GO, .sc), (F.LG_LN_EYE_CTL.EYE, .rw), (F.LG_LN_EYE_CTL.PHASE, .rw), (F.LG_LN_EYE_CTL.VOFF, .rw), (F.LG_LN_EYE_CTL.LEN, .rw)], false⟩, [],
        taken (R.LG_LN_EYE_CTL n l) (putFlds v fs), none, none⟩).settle st :=
  State.command_of_writable h (.inl (State.physAddr_self (region_LG_LN_EYE_CTL n l hn hl) (by show _ ≠ _ ∧ _ ≠ _; unfold R.LG_LN_EYE_CTL; omega)))
    (findReg_LG_LN_EYE_CTL n l hn hl)

theorem region_LG_LN_RST (n : Nat) (l : Nat) (hn : n < 64) (hl : l < 16) : regionOf (R.LG_LN_RST n l) = .lane n l := by
  have h := region_lane n l (0xC0) hn hl (by omega)
  have e : (R.LG_LN_RST n l) = 0x100800 + n * 0x4000 + l * 0x380 + (0xC0) := by unfold R.LG_LN_RST; omega
  rw [e]; exact h

theorem findReg_LG_LN_RST (n : Nat) (l : Nat) (hn : n < 64) (hl : l < 16) :
    findReg (R.LG_LN_RST n l) = some (.lane n l, ⟨.LG_LN_RST, 0xC0, [], 0x0, [(F.LG_LN_RST.GO, .sc)], false⟩, []) := by
  refine findReg_at (0xC0) (region_LG_LN_RST n l hn hl) (by show R.LG_LN_RST n l - (0x100800 + n * 0x4000 + l * 0x380) = 0xC0; unfold R.LG_LN_RST; omega) ?_
  rfl

theorem State.command_LG_LN_RST {st : State} {fn : Nat} {v : Word} {fs : List (Fld × Nat)} (n : Nat) (l : Nat) (hn : n < 64) (hl : l < 16)
    (h : st.writable fn (R.LG_LN_RST n l) = true) :
    st.command fn (R.LG_LN_RST n l) v fs =
      (st.regAct ⟨host fn, R.LG_LN_RST n l, R.LG_LN_RST n l, .lane n l, ⟨.LG_LN_RST, 0xC0, [], 0x0, [(F.LG_LN_RST.GO, .sc)], false⟩, [],
        taken (R.LG_LN_RST n l) (putFlds v fs), none, none⟩).settle st :=
  State.command_of_writable h (.inl (State.physAddr_self (region_LG_LN_RST n l hn hl) (by show _ ≠ _ ∧ _ ≠ _; unfold R.LG_LN_RST; omega)))
    (findReg_LG_LN_RST n l hn hl)

theorem region_PORT_CTL (n : Nat) (hn : n < 1024) : regionOf (R.PORT_CTL n) = .port n := by
  have h := region_port n (0x4) hn (by omega)
  have e : (R.PORT_CTL n) = 0x200000 + n * 0x400 + (0x4) := by unfold R.PORT_CTL; omega
  rw [e]; exact h

theorem findReg_PORT_CTL (n : Nat) (hn : n < 1024) :
    findReg (R.PORT_CTL n) = some (.port n, ⟨.PORT_CTL, 0x4, [], 0x2800, [(F.PORT_CTL.EN, .rw), (F.PORT_CTL.FC_MODE, .rwi), (F.PORT_CTL.MAXLEN, .rwi)], false⟩, []) := by
  refine findReg_at (0x4) (region_PORT_CTL n hn) (by show R.PORT_CTL n - (0x200000 + n * 0x400) = 0x4; unfold R.PORT_CTL; omega) ?_
  rfl

theorem State.command_PORT_CTL {st : State} {fn : Nat} {v : Word} {fs : List (Fld × Nat)} (n : Nat) (hn : n < 1024)
    (h : st.writable fn (R.PORT_CTL n) = true) :
    st.command fn (R.PORT_CTL n) v fs =
      (st.regAct ⟨host fn, R.PORT_CTL n, R.PORT_CTL n, .port n, ⟨.PORT_CTL, 0x4, [], 0x2800, [(F.PORT_CTL.EN, .rw), (F.PORT_CTL.FC_MODE, .rwi), (F.PORT_CTL.MAXLEN, .rwi)], false⟩, [],
        taken (R.PORT_CTL n) (putFlds v fs), none, none⟩).settle st :=
  State.command_of_writable h (.inl (State.physAddr_self (region_PORT_CTL n hn) (by show _ ≠ _ ∧ _ ≠ _; unfold R.PORT_CTL; omega)))
    (findReg_PORT_CTL n hn)

theorem region_PORT_RST (n : Nat) (hn : n < 1024) : regionOf (R.PORT_RST n) = .port n := by
  have h := region_port n (0xC0) hn (by omega)
  have e : (R.PORT_RST n) = 0x200000 + n * 0x400 + (0xC0) := by unfold R.PORT_RST; omega
  rw [e]; exact h

theorem findReg_PORT_RST (n : Nat) (hn : n < 1024) :
    findReg (R.PORT_RST n) = some (.port n, ⟨.PORT_RST, 0xC0, [], 0x0, [(F.PORT_RST.GO, .sc)], false⟩, []) := by
  refine findReg_at (0xC0) (region_PORT_RST n hn) (by show R.PORT_RST n - (0x200000 + n * 0x400) = 0xC0; unfold R.PORT_RST; omega) ?_
  rfl

theorem State.command_PORT_RST {st : State} {fn : Nat} {v : Word} {fs : List (Fld × Nat)} (n : Nat) (hn : n < 1024)
    (h : st.writable fn (R.PORT_RST n) = true) :
    st.command fn (R.PORT_RST n) v fs =
      (st.regAct ⟨host fn, R.PORT_RST n, R.PORT_RST n, .port n, ⟨.PORT_RST, 0xC0, [], 0x0, [(F.PORT_RST.GO, .sc)], false⟩, [],
        taken (R.PORT_RST n) (putFlds v fs), none, none⟩).settle st :=
  State.command_of_writable h (.inl (State.physAddr_self (region_PORT_RST n hn) (by show _ ≠ _ ∧ _ ≠ _; unfold R.PORT_RST; omega)))
    (findReg_PORT_RST n hn)

theorem region_STG_IA_CMD (p : Nat) (s : Nat) (hp : p < 16) (hs : s < 24) : regionOf (R.STG_IA_CMD p s) = .stg p s := by
  have h := region_stg p s (0x1000) hp hs (by omega)
  have e : (R.STG_IA_CMD p s) = 0x10100000 + p * 0x1000000 + s * 0x80000 + (0x1000) := by unfold R.STG_IA_CMD; omega
  rw [e]; exact h

theorem findReg_STG_IA_CMD (p : Nat) (s : Nat) (hp : p < 16) (hs : s < 24) :
    findReg (R.STG_IA_CMD p s) = some (.stg p s, ⟨.STG_IA_CMD, 0x1000, [], 0x0, [(F.STG_IA_CMD.GO, .sc), (F.STG_IA_CMD.OP, .rw), (F.STG_IA_CMD.TABLE, .rw), (F.STG_IA_CMD.STASH, .rw), (F.STG_IA_CMD.WAY, .rw), (F.STG_IA_CMD.ROW, .rw)], false⟩, []) := by
  refine findReg_at (0x1000) (region_STG_IA_CMD p s hp hs) (by show R.STG_IA_CMD p s - (0x10100000 + p * 0x1000000 + s * 0x80000) = 0x1000; unfold R.STG_IA_CMD; omega) ?_
  rfl

theorem State.command_STG_IA_CMD {st : State} {fn : Nat} {v : Word} {fs : List (Fld × Nat)} (p : Nat) (s : Nat) (hp : p < 16) (hs : s < 24)
    (h : st.writable fn (R.STG_IA_CMD p s) = true) :
    st.command fn (R.STG_IA_CMD p s) v fs =
      (st.regAct ⟨host fn, R.STG_IA_CMD p s, R.STG_IA_CMD p s, .stg p s, ⟨.STG_IA_CMD, 0x1000, [], 0x0, [(F.STG_IA_CMD.GO, .sc), (F.STG_IA_CMD.OP, .rw), (F.STG_IA_CMD.TABLE, .rw), (F.STG_IA_CMD.STASH, .rw), (F.STG_IA_CMD.WAY, .rw), (F.STG_IA_CMD.ROW, .rw)], false⟩, [],
        taken (R.STG_IA_CMD p s) (putFlds v fs), none, none⟩).settle st :=
  State.command_of_writable h (.inl (State.physAddr_self (region_STG_IA_CMD p s hp hs) (by show ¬ (0x3840 ≤ _ ∧ _); unfold R.STG_IA_CMD; omega)))
    (findReg_STG_IA_CMD p s hp hs)

theorem region_STG_NOTE_CTL (p : Nat) (s : Nat) (hp : p < 16) (hs : s < 24) : regionOf (R.STG_NOTE_CTL p s) = .stg p s := by
  have h := region_stg p s (0x2008) hp hs (by omega)
  have e : (R.STG_NOTE_CTL p s) = 0x10100000 + p * 0x1000000 + s * 0x80000 + (0x2008) := by unfold R.STG_NOTE_CTL; omega
  rw [e]; exact h

theorem findReg_STG_NOTE_CTL (p : Nat) (s : Nat) (hp : p < 16) (hs : s < 24) :
    findReg (R.STG_NOTE_CTL p s) = some (.stg p s, ⟨.STG_NOTE_CTL, 0x2008, [], 0x0, [(F.STG_NOTE_CTL.POP, .sc), (F.STG_NOTE_CTL.LEVEL, .ro)], false⟩, []) := by
  refine findReg_at (0x2008) (region_STG_NOTE_CTL p s hp hs) (by show R.STG_NOTE_CTL p s - (0x10100000 + p * 0x1000000 + s * 0x80000) = 0x2008; unfold R.STG_NOTE_CTL; omega) ?_
  rfl

theorem State.command_STG_NOTE_CTL {st : State} {fn : Nat} {v : Word} {fs : List (Fld × Nat)} (p : Nat) (s : Nat) (hp : p < 16) (hs : s < 24)
    (h : st.writable fn (R.STG_NOTE_CTL p s) = true) :
    st.command fn (R.STG_NOTE_CTL p s) v fs =
      (st.regAct ⟨host fn, R.STG_NOTE_CTL p s, R.STG_NOTE_CTL p s, .stg p s, ⟨.STG_NOTE_CTL, 0x2008, [], 0x0, [(F.STG_NOTE_CTL.POP, .sc), (F.STG_NOTE_CTL.LEVEL, .ro)], false⟩, [],
        taken (R.STG_NOTE_CTL p s) (putFlds v fs), none, none⟩).settle st :=
  State.command_of_writable h (.inl (State.physAddr_self (region_STG_NOTE_CTL p s hp hs) (by show ¬ (0x3840 ≤ _ ∧ _); unfold R.STG_NOTE_CTL; omega)))
    (findReg_STG_NOTE_CTL p s hp hs)

theorem region_TC_GMASK_CTL (p : Nat) (s : Nat) (i : Nat) (hp : p < 16) (hs : s < 24) (hi : i < 2) : regionOf (R.TC_GMASK_CTL p s i) = .stg p s := by
  have h := region_stg p s (0x3008 + i * 0x400) hp hs (by omega)
  have e : (R.TC_GMASK_CTL p s i) = 0x10100000 + p * 0x1000000 + s * 0x80000 + (0x3008 + i * 0x400) := by unfold R.TC_GMASK_CTL; omega
  rw [e]; exact h

theorem findReg_TC_GMASK_CTL (p : Nat) (s : Nat) (i : Nat) (hp : p < 16) (hs : s < 24) (hi : i < 2) :
    findReg (R.TC_GMASK_CTL p s i) = some (.stg p s, ⟨.TC_GMASK_CTL, 0x3008, [(2, 0x400)], 0x0, [(F.TC_GMASK_CTL.TAKE, .sc)], false⟩, [i]) := by
  refine findReg_at (0x3008 + i * 0x400) (region_TC_GMASK_CTL p s i hp hs hi) (by show R.TC_GMASK_CTL p s i - (0x10100000 + p * 0x1000000 + s * 0x80000) = 0x3008 + i * 0x400; unfold R.TC_GMASK_CTL; omega) ?_
  have key : ∀ i : Fin 2, findRow rows_stg (0x3008 + i.val * 0x400) = some ((⟨.TC_GMASK_CTL, 0x3008, [(2, 0x400)], 0x0, [(F.TC_GMASK_CTL.TAKE, .sc)], false⟩ : Row), [i.val]) := by decide +kernel
  exact key ⟨i, hi⟩

theorem State.command_TC_GMASK_CTL {st : State} {fn : Nat} {v : Word} {fs : List (Fld × Nat)} (p : Nat) (s : Nat) (i : Nat) (hp : p < 16) (hs : s < 24) (hi : i < 2)
    (h : st.writable fn (R.TC_GMASK_CTL p s i) = true) :
    st.command fn (R.TC_GMASK_CTL p s i) v fs =
      (st.regAct ⟨host fn, R.TC_GMASK_CTL p s i, R.TC_GMASK_CTL p s i, .stg p s, ⟨.TC_GMASK_CTL, 0x3008, [(2, 0x400)], 0x0, [(F.TC_GMASK_CTL.TAKE, .sc)], false⟩, [i],
        taken (R.TC_GMASK_CTL p s i) (putFlds v fs), none, none⟩).settle st :=
  State.command_of_writable h (.inl (State.physAddr_self (region_TC_GMASK_CTL p s i hp hs hi) (by show ¬ (0x3840 ≤ _ ∧ _); unfold R.TC_GMASK_CTL; omega)))
    (findReg_TC_GMASK_CTL p s i hp hs hi)

theorem region_TC_IA_CMD (n : Nat) (hn : n < 16) : regionOf (R.TC_IA_CMD n) = .tc n := by
  have h := region_tc n (0x1000) hn (by omega)
  have e : (R.TC_IA_CMD n) = 0x10D00000 + n * 0x1000000 + (0x1000) := by unfold R.TC_IA_CMD; omega
  rw [e]; exact h

theorem findReg_TC_IA_CMD (n : Nat) (hn : n < 16) :
    findReg (R.TC_IA_CMD n) = some (.tc n, ⟨.TC_IA_CMD, 0x1000, [], 0x0, [(F.TC_IA_CMD.GO, .sc), (F.TC_IA_CMD.OP, .rw), (F.TC_IA_CMD.STAGE, .rw), (F.TC_IA_CMD.TABLE, .rw), (F.TC_IA_CMD.ADDR, .rw)], false⟩, []) := by
  refine findReg_at (0x1000) (region_TC_IA_CMD n hn) (by show R.TC_IA_CMD n - (0x10D00000 + n * 0x1000000) = 0x1000; unfold R.TC_IA_CMD; omega) ?_
  rfl

theorem State.command_TC_IA_CMD {st : State} {fn : Nat} {v : Word} {fs : List (Fld × Nat)} (n : Nat) (hn : n < 16)
    (h : st.writable fn (R.TC_IA_CMD n) = true) :
    st.command fn (R.TC_IA_CMD n) v fs =
      (st.regAct ⟨host fn, R.TC_IA_CMD n, R.TC_IA_CMD n, .tc n, ⟨.TC_IA_CMD, 0x1000, [], 0x0, [(F.TC_IA_CMD.GO, .sc), (F.TC_IA_CMD.OP, .rw), (F.TC_IA_CMD.STAGE, .rw), (F.TC_IA_CMD.TABLE, .rw), (F.TC_IA_CMD.ADDR, .rw)], false⟩, [],
        taken (R.TC_IA_CMD n) (putFlds v fs), none, none⟩).settle st :=
  State.command_of_writable h (.inl (State.physAddr_self (region_TC_IA_CMD n hn) (by show _ ≠ _ ∧ _ ≠ _; unfold R.TC_IA_CMD; omega)))
    (findReg_TC_IA_CMD n hn)

theorem region_STG_UC_STBY (p : Nat) (s : Nat) (i : Nat) (hp : p < 16) (hs : s < 24) (hi : i < 1024) : regionOf (R.STG_UC_STBY p s i) = .stg p s := by
  have h := region_stg p s (0x44000 + i * 0x4) hp hs (by omega)
  have e : (R.STG_UC_STBY p s i) = 0x10100000 + p * 0x1000000 + s * 0x80000 + (0x44000 + i * 0x4) := by unfold R.STG_UC_STBY; omega
  rw [e]; exact h

theorem findReg_STG_UC_STBY (p : Nat) (s : Nat) (i : Nat) (hp : p < 16) (hs : s < 24) (hi : i < 1024) :
    findReg (R.STG_UC_STBY p s i) = some (.stg p s, ⟨.STG_UC_STBY, 0x44000, [(1024, 0x4)], 0x0, [(F.STG_UC_STBY.WORD, .rw)], false⟩, [i]) := by
  refine findReg_at (0x44000 + i * 0x4) (region_STG_UC_STBY p s i hp hs hi) (by show R.STG_UC_STBY p s i - (0x10100000 + p * 0x1000000 + s * 0x80000) = 0x44000 + i * 0x4; unfold R.STG_UC_STBY; omega) ?_
  have key : ∀ i : Fin 1024, findRow rows_stg (0x44000 + i.val * 0x4) = some ((⟨.STG_UC_STBY, 0x44000, [(1024, 0x4)], 0x0, [(F.STG_UC_STBY.WORD, .rw)], false⟩ : Row), [i.val]) := by decide +kernel
  exact key ⟨i, hi⟩

theorem State.command_STG_UC_STBY {st : State} {fn : Nat} {v : Word} {fs : List (Fld × Nat)} (p : Nat) (s : Nat) (i : Nat) (hp : p < 16) (hs : s < 24) (hi : i < 1024)
    (h : st.writable fn (R.STG_UC_STBY p s i) = true) :
    st.command fn (R.STG_UC_STBY p s i) v fs =
      (st.regAct ⟨host fn, R.STG_UC_STBY p s i, R.STG_UC_STBY p s i, .stg p s, ⟨.STG_UC_STBY, 0x44000, [(1024, 0x4)], 0x0, [(F.STG_UC_STBY.WORD, .rw)], false⟩, [i],
        taken (R.STG_UC_STBY p s i) (putFlds v fs), none, none⟩).settle st :=
  State.command_of_writable h (.inl (State.physAddr_self (region_STG_UC_STBY p s i hp hs hi) (by show ¬ (0x3840 ≤ _ ∧ _); unfold R.STG_UC_STBY; omega)))
    (findReg_STG_UC_STBY p s i hp hs hi)

theorem region_DEV_LOAD_CTL (i : Nat) (hi : i < 17) : regionOf (R.DEV_LOAD_CTL i) = .dev := by
  have h := region_dev (0x800 + i * 0x20) (by omega)
  have e : (R.DEV_LOAD_CTL i) = 0x0 + (0x800 + i * 0x20) := by unfold R.DEV_LOAD_CTL; omega
  rw [e]; exact h

theorem findReg_DEV_LOAD_CTL (i : Nat) (hi : i < 17) :
    findReg (R.DEV_LOAD_CTL i) = some (.dev, ⟨.DEV_LOAD_CTL, 0x800, [(17, 0x20)], 0x0, [(F.DEV_LOAD_CTL.GO, .sc), (F.DEV_LOAD_CTL.SRC, .rw), (F.DEV_LOAD_CTL.RESULT, .ro), (F.DEV_LOAD_CTL.INDEX, .rw), (F.DEV_LOAD_CTL.PIPES, .rw)], false⟩, [i]) := by
  refine findReg_at (0x800 + i * 0x20) (region_DEV_LOAD_CTL i hi) (by show R.DEV_LOAD_CTL i - (0x0) = 0x800 + i * 0x20; unfold R.DEV_LOAD_CTL; omega) ?_
  have key : ∀ i : Fin 17, findRow rows_dev (0x800 + i.val * 0x20) = some ((⟨.DEV_LOAD_CTL, 0x800, [(17, 0x20)], 0x0, [(F.DEV_LOAD_CTL.GO, .sc), (F.DEV_LOAD_CTL.SRC, .rw), (F.DEV_LOAD_CTL.RESULT, .ro), (F.DEV_LOAD_CTL.INDEX, .rw), (F.DEV_LOAD_CTL.PIPES, .rw)], false⟩ : Row), [i.val]) := by decide +kernel
  exact key ⟨i, hi⟩

theorem State.command_DEV_LOAD_CTL {st : State} {fn : Nat} {v : Word} {fs : List (Fld × Nat)} (i : Nat) (hi : i < 17)
    (h : st.writable fn (R.DEV_LOAD_CTL i) = true) :
    st.command fn (R.DEV_LOAD_CTL i) v fs =
      (st.regAct ⟨host fn, R.DEV_LOAD_CTL i, R.DEV_LOAD_CTL i, .dev, ⟨.DEV_LOAD_CTL, 0x800, [(17, 0x20)], 0x0, [(F.DEV_LOAD_CTL.GO, .sc), (F.DEV_LOAD_CTL.SRC, .rw), (F.DEV_LOAD_CTL.RESULT, .ro), (F.DEV_LOAD_CTL.INDEX, .rw), (F.DEV_LOAD_CTL.PIPES, .rw)], false⟩, [i],
        taken (R.DEV_LOAD_CTL i) (putFlds v fs), none, none⟩).settle st :=
  State.command_of_writable h (.inl (State.physAddr_self (region_DEV_LOAD_CTL i hi) (by show _ ≠ _ ∧ _ ≠ _; unfold R.DEV_LOAD_CTL; omega)))
    (findReg_DEV_LOAD_CTL i hi)

theorem region_VER_GW_CMD (n : Nat) (hn : n < 16) : regionOf (R.VER_GW_CMD n) = .ver n := by
  have h := region_ver n (0x110) hn (by omega)
  have e : (R.VER_GW_CMD n) = 0x10E00000 + n * 0x1000000 + (0x110) := by unfold R.VER_GW_CMD; omega
  rw [e]; exact h

theorem findReg_VER_GW_CMD (n : Nat) (hn : n < 16) :
    findReg (R.VER_GW_CMD n) = some (.ver n, ⟨.VER_GW_CMD, 0x110, [], 0x0, [(F.VER_GW_CMD.GO, .sc), (F.VER_GW_CMD.OP, .rw), (F.VER_GW_CMD.STAGE, .rw), (F.VER_GW_CMD.TABLE, .rw), (F.VER_GW_CMD.ADDR, .rw)], false⟩, []) := by
  refine findReg_at (0x110) (region_VER_GW_CMD n hn) (by show R.VER_GW_CMD n - (0x10E00000 + n * 0x1000000) = 0x110; unfold R.VER_GW_CMD; omega) ?_
  rfl

theorem State.command_VER_GW_CMD {st : State} {fn : Nat} {v : Word} {fs : List (Fld × Nat)} (n : Nat) (hn : n < 16)
    (h : st.writable fn (R.VER_GW_CMD n) = true) :
    st.command fn (R.VER_GW_CMD n) v fs =
      (st.regAct ⟨host fn, R.VER_GW_CMD n, R.VER_GW_CMD n, .ver n, ⟨.VER_GW_CMD, 0x110, [], 0x0, [(F.VER_GW_CMD.GO, .sc), (F.VER_GW_CMD.OP, .rw), (F.VER_GW_CMD.STAGE, .rw), (F.VER_GW_CMD.TABLE, .rw), (F.VER_GW_CMD.ADDR, .rw)], false⟩, [],
        taken (R.VER_GW_CMD n) (putFlds v fs), none, none⟩).settle st :=
  State.command_of_writable h (.inl (State.physAddr_self (region_VER_GW_CMD n hn) (by show 0x100 ≤ _; unfold R.VER_GW_CMD; omega)))
    (findReg_VER_GW_CMD n hn)

theorem region_TIME_SET_CTL  : regionOf (R.TIME_SET_CTL) = .time := by
  have h := region_time (0x2C) (by omega)
  have e : (R.TIME_SET_CTL) = 0x80000 + (0x2C) := by unfold R.TIME_SET_CTL; omega
  rw [e]; exact h

theorem findReg_TIME_SET_CTL  :
    findReg (R.TIME_SET_CTL) = some (.time, ⟨.TIME_SET_CTL, 0x2C, [], 0x0, [(F.TIME_SET_CTL.GO, .sc), (F.TIME_SET_CTL.AT, .rw), (F.TIME_SET_CTL.RESULT, .ro)], false⟩, []) := by
  refine findReg_at (0x2C) (region_TIME_SET_CTL) (by show R.TIME_SET_CTL - (0x80000) = 0x2C; unfold R.TIME_SET_CTL; omega) ?_
  rfl

theorem State.command_TIME_SET_CTL {st : State} {fn : Nat} {v : Word} {fs : List (Fld × Nat)}
    (h : st.writable fn (R.TIME_SET_CTL) = true) :
    st.command fn (R.TIME_SET_CTL) v fs =
      (st.regAct ⟨host fn, R.TIME_SET_CTL, R.TIME_SET_CTL, .time, ⟨.TIME_SET_CTL, 0x2C, [], 0x0, [(F.TIME_SET_CTL.GO, .sc), (F.TIME_SET_CTL.AT, .rw), (F.TIME_SET_CTL.RESULT, .ro)], false⟩, [],
        taken (R.TIME_SET_CTL) (putFlds v fs), none, none⟩).settle st :=
  State.command_of_writable h (.inl (State.physAddr_self (region_TIME_SET_CTL) (by show _ ≠ _ ∧ _ ≠ _; unfold R.TIME_SET_CTL; omega)))
    (findReg_TIME_SET_CTL)

theorem region_TIME_ADJ_CTL  : regionOf (R.TIME_ADJ_CTL) = .time := by
  have h := region_time (0x34) (by omega)
  have e : (R.TIME_ADJ_CTL) = 0x80000 + (0x34) := by unfold R.TIME_ADJ_CTL; omega
  rw [e]; exact h

theorem findReg_TIME_ADJ_CTL  :
    findReg (R.TIME_ADJ_CTL) = some (.time, ⟨.TIME_ADJ_CTL, 0x34, [], 0x0, [(F.TIME_ADJ_CTL.GO, .sc), (F.TIME_ADJ_CTL.RESULT, .ro), (F.TIME_ADJ_CTL.FRAC, .rw)], false⟩, []) := by
  refine findReg_at (0x34) (region_TIME_ADJ_CTL) (by show R.TIME_ADJ_CTL - (0x80000) = 0x34; unfold R.TIME_ADJ_CTL; omega) ?_
  rfl

theorem State.command_TIME_ADJ_CTL {st : State} {fn : Nat} {v : Word} {fs : List (Fld × Nat)}
    (h : st.writable fn (R.TIME_ADJ_CTL) = true) :
    st.command fn (R.TIME_ADJ_CTL) v fs =
      (st.regAct ⟨host fn, R.TIME_ADJ_CTL, R.TIME_ADJ_CTL, .time, ⟨.TIME_ADJ_CTL, 0x34, [], 0x0, [(F.TIME_ADJ_CTL.GO, .sc), (F.TIME_ADJ_CTL.RESULT, .ro), (F.TIME_ADJ_CTL.FRAC, .rw)], false⟩, [],
        taken (R.TIME_ADJ_CTL) (putFlds v fs), none, none⟩).settle st :=
  State.command_of_writable h (.inl (State.physAddr_self (region_TIME_ADJ_CTL) (by show _ ≠ _ ∧ _ ≠ _; unfold R.TIME_ADJ_CTL; omega)))
    (findReg_TIME_ADJ_CTL)

theorem region_TIME_FREQ  : regionOf (R.TIME_FREQ) = .time := by
  have h := region_time (0x38) (by omega)
  have e : (R.TIME_FREQ) = 0x80000 + (0x38) := by unfold R.TIME_FREQ; omega
  rw [e]; exact h

theorem findReg_TIME_FREQ  :
    findReg (R.TIME_FREQ) = some (.time, ⟨.TIME_FREQ, 0x38, [], 0x0, [(F.TIME_FREQ.ADJ, .rw)], false⟩, []) := by
  refine findReg_at (0x38) (region_TIME_FREQ) (by show R.TIME_FREQ - (0x80000) = 0x38; unfold R.TIME_FREQ; omega) ?_
  rfl

theorem State.command_TIME_FREQ {st : State} {fn : Nat} {v : Word} {fs : List (Fld × Nat)}
    (h : st.writable fn (R.TIME_FREQ) = true) :
    st.command fn (R.TIME_FREQ) v fs =
      (st.regAct ⟨host fn, R.TIME_FREQ, R.TIME_FREQ, .time, ⟨.TIME_FREQ, 0x38, [], 0x0, [(F.TIME_FREQ.ADJ, .rw)], false⟩, [],
        taken (R.TIME_FREQ) (putFlds v fs), none, none⟩).settle st :=
  State.command_of_writable h (.inl (State.physAddr_self (region_TIME_FREQ) (by show _ ≠ _ ∧ _ ≠ _; unfold R.TIME_FREQ; omega)))
    (findReg_TIME_FREQ)

theorem region_TIME_SRC_CTL  : regionOf (R.TIME_SRC_CTL) = .time := by
  have h := region_time (0x40) (by omega)
  have e : (R.TIME_SRC_CTL) = 0x80000 + (0x40) := by unfold R.TIME_SRC_CTL; omega
  rw [e]; exact h

theorem findReg_TIME_SRC_CTL  :
    findReg (R.TIME_SRC_CTL) = some (.time, ⟨.TIME_SRC_CTL, 0x40, [], 0x510, [(F.TIME_SRC_CTL.REVERT, .rwp), (F.TIME_SRC_CTL.BW, .rwp), (F.TIME_SRC_CTL.SRC, .rwp)], false⟩, []) := by
  refine findReg_at (0x40) (region_TIME_SRC_CTL) (by show R.TIME_SRC_CTL - (0x80000) = 0x40; unfold R.TIME_SRC_CTL; omega) ?_
  rfl

theorem State.command_TIME_SRC_CTL {st : State} {fn : Nat} {v : Word} {fs : List (Fld × Nat)}
    (h : st.writable fn (R.TIME_SRC_CTL) = true) :
    st.command fn (R.TIME_SRC_CTL) v fs =
      (st.regAct ⟨host fn, R.TIME_SRC_CTL, R.TIME_SRC_CTL, .time, ⟨.TIME_SRC_CTL, 0x40, [], 0x510, [(F.TIME_SRC_CTL.REVERT, .rwp), (F.TIME_SRC_CTL.BW, .rwp), (F.TIME_SRC_CTL.SRC, .rwp)], false⟩, [],
        taken (R.TIME_SRC_CTL) (putFlds v fs), none, none⟩).settle st :=
  State.command_of_writable h (.inl (State.physAddr_self (region_TIME_SRC_CTL) (by show _ ≠ _ ∧ _ ≠ _; unfold R.TIME_SRC_CTL; omega)))
    (findReg_TIME_SRC_CTL)

theorem region_TIME_PPS_CTL (i : Nat) (hi : i < 4) : regionOf (R.TIME_PPS_CTL i) = .time := by
  have h := region_time (0x100 + i * 0x20) (by omega)
  have e : (R.TIME_PPS_CTL i) = 0x80000 + (0x100 + i * 0x20) := by unfold R.TIME_PPS_CTL; omega
  rw [e]; exact h

theorem findReg_TIME_PPS_CTL (i : Nat) (hi : i < 4) :
    findReg (R.TIME_PPS_CTL i) = some (.time, ⟨.TIME_PPS_CTL, 0x100, [(4, 0x20)], 0x0, [(F.TIME_PPS_CTL.ARM, .sc), (F.TIME_PPS_CTL.DISARM, .sc), (F.TIME_PPS_CTL.MODE, .rw), (F.TIME_PPS_CTL.LATE, .rw), (F.TIME_PPS_CTL.INV, .rw), (F.TIME_PPS_CTL.STATE, .ro)], false⟩, [i]) := by
  refine findReg_at (0x100 + i * 0x20) (region_TIME_PPS_CTL i hi) (by show R.TIME_PPS_CTL i - (0x80000) = 0x100 + i * 0x20; unfold R.TIME_PPS_CTL; omega) ?_
  have key : ∀ i : Fin 4, findRow rows_time (0x100 + i.val * 0x20) = some ((⟨.TIME_PPS_CTL, 0x100, [(4, 0x20)], 0x0, [(F.TIME_PPS_CTL.ARM, .sc), (F.TIME_PPS_CTL.DISARM, .sc), (F.TIME_PPS_CTL.MODE, .rw), (F.TIME_PPS_CTL.LATE, .rw), (F.TIME_PPS_CTL.INV, .rw), (F.TIME_PPS_CTL.STATE, .ro)], false⟩ : Row), [i.val]) := by decide +kernel
  exact key ⟨i, hi⟩

theorem State.command_TIME_PPS_CTL {st : State} {fn : Nat} {v : Word} {fs : List (Fld × Nat)} (i : Nat) (hi : i < 4)
    (h : st.writable fn (R.TIME_PPS_CTL i) = true) :
    st.command fn (R.TIME_PPS_CTL i) v fs =
      (st.regAct ⟨host fn, R.TIME_PPS_CTL i, R.TIME_PPS_CTL i, .time, ⟨.TIME_PPS_CTL, 0x100, [(4, 0x20)], 0x0, [(F.TIME_PPS_CTL.ARM, .sc), (F.TIME_PPS_CTL.DISARM, .sc), (F.TIME_PPS_CTL.MODE, .rw), (F.TIME_PPS_CTL.LATE, .rw), (F.TIME_PPS_CTL.INV, .rw), (F.TIME_PPS_CTL.STATE, .ro)], false⟩, [i],
        taken (R.TIME_PPS_CTL i) (putFlds v fs), none, none⟩).settle st :=
  State.command_of_writable h (.inl (State.physAddr_self (region_TIME_PPS_CTL i hi) (by show _ ≠ _ ∧ _ ≠ _; unfold R.TIME_PPS_CTL; omega)))
    (findReg_TIME_PPS_CTL i hi)

theorem region_TIME_EVT_CTL (i : Nat) (hi : i < 4) : regionOf (R.TIME_EVT_CTL i) = .time := by
  have h := region_time (0x200 + i * 0x20) (by omega)
  have e : (R.TIME_EVT_CTL i) = 0x80000 + (0x200 + i * 0x20) := by unfold R.TIME_EVT_CTL; omega
  rw [e]; exact h

theorem findReg_TIME_EVT_CTL (i : Nat) (hi : i < 4) :
    findReg (R.TIME_EVT_CTL i) = some (.time, ⟨.TIME_EVT_CTL, 0x200, [(4, 0x20)], 0x0, [(F.TIME_EVT_CTL.POP, .sc), (F.TIME_EVT_CTL.EDGE, .rw), (F.TIME_EVT_CTL.LEVEL, .ro)], false⟩, [i]) := by
  refine findReg_at (0x200 + i * 0x20) (region_TIME_EVT_CTL i hi) (by show R.TIME_EVT_CTL i - (0x80000) = 0x200 + i * 0x20; unfold R.TIME_EVT_CTL; omega) ?_
  have key : ∀ i : Fin 4, findRow rows_time (0x200 + i.val * 0x20) = some ((⟨.TIME_EVT_CTL, 0x200, [(4, 0x20)], 0x0, [(F.TIME_EVT_CTL.POP, .sc), (F.TIME_EVT_CTL.EDGE, .rw), (F.TIME_EVT_CTL.LEVEL, .ro)], false⟩ : Row), [i.val]) := by decide +kernel
  exact key ⟨i, hi⟩

theorem State.command_TIME_EVT_CTL {st : State} {fn : Nat} {v : Word} {fs : List (Fld × Nat)} (i : Nat) (hi : i < 4)
    (h : st.writable fn (R.TIME_EVT_CTL i) = true) :
    st.command fn (R.TIME_EVT_CTL i) v fs =
      (st.regAct ⟨host fn, R.TIME_EVT_CTL i, R.TIME_EVT_CTL i, .time, ⟨.TIME_EVT_CTL, 0x200, [(4, 0x20)], 0x0, [(F.TIME_EVT_CTL.POP, .sc), (F.TIME_EVT_CTL.EDGE, .rw), (F.TIME_EVT_CTL.LEVEL, .ro)], false⟩, [i],
        taken (R.TIME_EVT_CTL i) (putFlds v fs), none, none⟩).settle st :=
  State.command_of_writable h (.inl (State.physAddr_self (region_TIME_EVT_CTL i hi) (by show _ ≠ _ ∧ _ ≠ _; unfold R.TIME_EVT_CTL; omega)))
    (findReg_TIME_EVT_CTL i hi)

theorem region_PORT_TS_TXQ_CTL (n : Nat) (hn : n < 1024) : regionOf (R.PORT_TS_TXQ_CTL n) = .port n := by
  have h := region_port n (0xA0) hn (by omega)
  have e : (R.PORT_TS_TXQ_CTL n) = 0x200000 + n * 0x400 + (0xA0) := by unfold R.PORT_TS_TXQ_CTL; omega
  rw [e]; exact h

theorem findReg_PORT_TS_TXQ_CTL (n : Nat) (hn : n < 1024) :
    findReg (R.PORT_TS_TXQ_CTL n) = some (.port n, ⟨.PORT_TS_TXQ_CTL, 0xA0, [], 0x0, [(F.PORT_TS_TXQ_CTL.POP, .sc), (F.PORT_TS_TXQ_CTL.LEVEL, .ro)], false⟩, []) := by
  refine findReg_at (0xA0) (region_PORT_TS_TXQ_CTL n hn) (by show R.PORT_TS_TXQ_CTL n - (0x200000 + n * 0x400) = 0xA0; unfold R.PORT_TS_TXQ_CTL; omega) ?_
  rfl

theorem State.command_PORT_TS_TXQ_CTL {st : State} {fn : Nat} {v : Word} {fs : List (Fld × Nat)} (n : Nat) (hn : n < 1024)
    (h : st.writable fn (R.PORT_TS_TXQ_CTL n) = true) :
    st.command fn (R.PORT_TS_TXQ_CTL n) v fs =
      (st.regAct ⟨host fn, R.PORT_TS_TXQ_CTL n, R.PORT_TS_TXQ_CTL n, .port n, ⟨.PORT_TS_TXQ_CTL, 0xA0, [], 0x0, [(F.PORT_TS_TXQ_CTL.POP, .sc), (F.PORT_TS_TXQ_CTL.LEVEL, .ro)], false⟩, [],
        taken (R.PORT_TS_TXQ_CTL n) (putFlds v fs), none, none⟩).settle st :=
  State.command_of_writable h (.inl (State.physAddr_self (region_PORT_TS_TXQ_CTL n hn) (by show _ ≠ _ ∧ _ ≠ _; unfold R.PORT_TS_TXQ_CTL; omega)))
    (findReg_PORT_TS_TXQ_CTL n hn)

theorem region_PORT_TS_CAL_CTL (n : Nat) (hn : n < 1024) : regionOf (R.PORT_TS_CAL_CTL n) = .port n := by
  have h := region_port n (0x80) hn (by omega)
  have e : (R.PORT_TS_CAL_CTL n) = 0x200000 + n * 0x400 + (0x80) := by unfold R.PORT_TS_CAL_CTL; omega
  rw [e]; exact h

theorem findReg_PORT_TS_CAL_CTL (n : Nat) (hn : n < 1024) :
    findReg (R.PORT_TS_CAL_CTL n) = some (.port n, ⟨.PORT_TS_CAL_CTL, 0x80, [], 0x0, [(F.PORT_TS_CAL_CTL.GO, .sc), (F.PORT_TS_CAL_CTL.RESULT, .ro), (F.PORT_TS_CAL_CTL.COUNT, .rw)], false⟩, []) := by
  refine findReg_at (0x80) (region_PORT_TS_CAL_CTL n hn) (by show R.PORT_TS_CAL_CTL n - (0x200000 + n * 0x400) = 0x80; unfold R.PORT_TS_CAL_CTL; omega) ?_
  rfl

theorem State.command_PORT_TS_CAL_CTL {st : State} {fn : Nat} {v : Word} {fs : List (Fld × Nat)} (n : Nat) (hn : n < 1024)
    (h : st.writable fn (R.PORT_TS_CAL_CTL n) = true) :
    st.command fn (R.PORT_TS_CAL_CTL n) v fs =
      (st.regAct ⟨host fn, R.PORT_TS_CAL_CTL n, R.PORT_TS_CAL_CTL n, .port n, ⟨.PORT_TS_CAL_CTL, 0x80, [], 0x0, [(F.PORT_TS_CAL_CTL.GO, .sc), (F.PORT_TS_CAL_CTL.RESULT, .ro), (F.PORT_TS_CAL_CTL.COUNT, .rw)], false⟩, [],
        taken (R.PORT_TS_CAL_CTL n) (putFlds v fs), none, none⟩).settle st :=
  State.command_of_writable h (.inl (State.physAddr_self (region_PORT_TS_CAL_CTL n hn) (by show _ ≠ _ ∧ _ ≠ _; unfold R.PORT_TS_CAL_CTL; omega)))
    (findReg_PORT_TS_CAL_CTL n hn)

theorem region_TT_LATE_CTL (n : Nat) (hn : n < 17) (h1 : 1 ≤ n) : regionOf (R.TT_LATE_CTL n) = .tt n := by
  have h := region_tt n (0x14) hn (by omega) h1
  have e : (R.TT_LATE_CTL n) = 0xC0000 + n * 0x800 + (0x14) := by unfold R.TT_LATE_CTL; omega
  rw [e]; exact h

theorem findReg_TT_LATE_CTL (n : Nat) (hn : n < 17) (h1 : 1 ≤ n) :
    findReg (R.TT_LATE_CTL n) = some (.tt n, ⟨.TT_LATE_CTL, 0x14, [], 0x0, [(F.TT_LATE_CTL.POP, .sc), (F.TT_LATE_CTL.LEVEL, .ro)], false⟩, []) := by
  refine findReg_at (0x14) (region_TT_LATE_CTL n hn h1) (by show R.TT_LATE_CTL n - (0xC0000 + n * 0x800) = 0x14; unfold R.TT_LATE_CTL; omega) ?_
  rfl

theorem State.command_TT_LATE_CTL {st : State} {fn : Nat} {v : Word} {fs : List (Fld × Nat)} (n : Nat) (hn : n < 17) (h1 : 1 ≤ n)
    (h : st.writable fn (R.TT_LATE_CTL n) = true) :
    st.command fn (R.TT_LATE_CTL n) v fs =
      (st.regAct ⟨host fn, R.TT_LATE_CTL n, R.TT_LATE_CTL n, .tt n, ⟨.TT_LATE_CTL, 0x14, [], 0x0, [(F.TT_LATE_CTL.POP, .sc), (F.TT_LATE_CTL.LEVEL, .ro)], false⟩, [],
        taken (R.TT_LATE_CTL n) (putFlds v fs), none, none⟩).settle st :=
  State.command_of_writable h (.inl (State.physAddr_self (region_TT_LATE_CTL n hn h1) (by show _ ≠ _ ∧ _ ≠ _; unfold R.TT_LATE_CTL; omega)))
    (findReg_TT_LATE_CTL n hn h1)

theorem region_WB_STRM_CTL (n : Nat) (hn : n < 17) : regionOf (R.WB_STRM_CTL n) = .wbStrm n := by
  have h := region_wbStrm n (0x0) hn (by omega)
  have e : (R.WB_STRM_CTL n) = 0xCA000 + n * 0x400 + (0x0) := by unfold R.WB_STRM_CTL; omega
  rw [e]; exact h

theorem findReg_WB_STRM_CTL (n : Nat) (hn : n < 17) :
    findReg (R.WB_STRM_CTL n) = some (.wbStrm n, ⟨.WB_STRM_CTL, 0x0, [], 0x80100, [(F.WB_STRM_CTL.DMA, .rwp), (F.WB_STRM_CTL.KEY_IDX, .rwp), (F.WB_STRM_CTL.BACKLOG, .rw), (F.WB_STRM_CTL.CLOSE_ROUNDS, .rw), (F.WB_STRM_CTL.FLUSH, .sc)], false⟩, []) := by
  refine findReg_at (0x0) (region_WB_STRM_CTL n hn) (by show R.WB_STRM_CTL n - (0xCA000 + n * 0x400) = 0x0; unfold R.WB_STRM_CTL; omega) ?_
  rfl

theorem State.command_WB_STRM_CTL {st : State} {fn : Nat} {v : Word} {fs : List (Fld × Nat)} (n : Nat) (hn : n < 17)
    (h : st.writable fn (R.WB_STRM_CTL n) = true) :
    st.command fn (R.WB_STRM_CTL n) v fs =
      (st.regAct ⟨host fn, R.WB_STRM_CTL n, R.WB_STRM_CTL n, .wbStrm n, ⟨.WB_STRM_CTL, 0x0, [], 0x80100, [(F.WB_STRM_CTL.DMA, .rwp), (F.WB_STRM_CTL.KEY_IDX, .rwp), (F.WB_STRM_CTL.BACKLOG, .rw), (F.WB_STRM_CTL.CLOSE_ROUNDS, .rw), (F.WB_STRM_CTL.FLUSH, .sc)], false⟩, [],
        taken (R.WB_STRM_CTL n) (putFlds v fs), none, none⟩).settle st :=
  State.command_of_writable h (.inl (State.physAddr_self (region_WB_STRM_CTL n hn) (by show _ ≠ _ ∧ _ ≠ _; unfold R.WB_STRM_CTL; omega)))
    (findReg_WB_STRM_CTL n hn)

theorem region_WB_KEY_CTL  : regionOf (R.WB_KEY_CTL) = .wb := by
  have h := region_wb (0x10) (by omega)
  have e : (R.WB_KEY_CTL) = 0xC9000 + (0x10) := by unfold R.WB_KEY_CTL; omega
  rw [e]; exact h

theorem findReg_WB_KEY_CTL  :
    findReg (R.WB_KEY_CTL) = some (.wb, ⟨.WB_KEY_CTL, 0x10, [], 0x0, [(F.WB_KEY_CTL.GO, .sc), (F.WB_KEY_CTL.SLOT, .rw), (F.WB_KEY_CTL.LEN, .rw), (F.WB_KEY_CTL.RESULT, .ro)], false⟩, []) := by
  refine findReg_at (0x10) (region_WB_KEY_CTL) (by show R.WB_KEY_CTL - (0xC9000) = 0x10; unfold R.WB_KEY_CTL; omega) ?_
  rfl

theorem State.command_WB_KEY_CTL {st : State} {fn : Nat} {v : Word} {fs : List (Fld × Nat)}
    (h : st.writable fn (R.WB_KEY_CTL) = true) :
    st.command fn (R.WB_KEY_CTL) v fs =
      (st.regAct ⟨host fn, R.WB_KEY_CTL, R.WB_KEY_CTL, .wb, ⟨.WB_KEY_CTL, 0x10, [], 0x0, [(F.WB_KEY_CTL.GO, .sc), (F.WB_KEY_CTL.SLOT, .rw), (F.WB_KEY_CTL.LEN, .rw), (F.WB_KEY_CTL.RESULT, .ro)], false⟩, [],
        taken (R.WB_KEY_CTL) (putFlds v fs), none, none⟩).settle st :=
  State.command_of_writable h (.inl (State.physAddr_self (region_WB_KEY_CTL) (by show _ ≠ _ ∧ _ ≠ _; unfold R.WB_KEY_CTL; omega)))
    (findReg_WB_KEY_CTL)

theorem region_WB_EXP_PORT (i : Nat) (hi : i < 4) : regionOf (R.WB_EXP_PORT i) = .wb := by
  have h := region_wb (0x80 + i * 0x10) (by omega)
  have e : (R.WB_EXP_PORT i) = 0xC9000 + (0x80 + i * 0x10) := by unfold R.WB_EXP_PORT; omega
  rw [e]; exact h

theorem findReg_WB_EXP_PORT (i : Nat) (hi : i < 4) :
    findReg (R.WB_EXP_PORT i) = some (.wb, ⟨.WB_EXP_PORT, 0x80, [(4, 0x10)], 0x0, [(F.WB_EXP_PORT.EN, .rwp), (F.WB_EXP_PORT.PITCH, .rwp), (F.WB_EXP_PORT.CLASS, .rwp), (F.WB_EXP_PORT.PORT, .rwp)], false⟩, [i]) := by
  refine findReg_at (0x80 + i * 0x10) (region_WB_EXP_PORT i hi) (by show R.WB_EXP_PORT i - (0xC9000) = 0x80 + i * 0x10; unfold R.WB_EXP_PORT; omega) ?_
  have key : ∀ i : Fin 4, findRow rows_wb (0x80 + i.val * 0x10) = some ((⟨.WB_EXP_PORT, 0x80, [(4, 0x10)], 0x0, [(F.WB_EXP_PORT.EN, .rwp), (F.WB_EXP_PORT.PITCH, .rwp), (F.WB_EXP_PORT.CLASS, .rwp), (F.WB_EXP_PORT.PORT, .rwp)], false⟩ : Row), [i.val]) := by decide +kernel
  exact key ⟨i, hi⟩

theorem State.command_WB_EXP_PORT {st : State} {fn : Nat} {v : Word} {fs : List (Fld × Nat)} (i : Nat) (hi : i < 4)
    (h : st.writable fn (R.WB_EXP_PORT i) = true) :
    st.command fn (R.WB_EXP_PORT i) v fs =
      (st.regAct ⟨host fn, R.WB_EXP_PORT i, R.WB_EXP_PORT i, .wb, ⟨.WB_EXP_PORT, 0x80, [(4, 0x10)], 0x0, [(F.WB_EXP_PORT.EN, .rwp), (F.WB_EXP_PORT.PITCH, .rwp), (F.WB_EXP_PORT.CLASS, .rwp), (F.WB_EXP_PORT.PORT, .rwp)], false⟩, [i],
        taken (R.WB_EXP_PORT i) (putFlds v fs), none, none⟩).settle st :=
  State.command_of_writable h (.inl (State.physAddr_self (region_WB_EXP_PORT i hi) (by show _ ≠ _ ∧ _ ≠ _; unfold R.WB_EXP_PORT; omega)))
    (findReg_WB_EXP_PORT i hi)

theorem region_OST_THR_CTL (c : Nat) (k : Nat) (t : Nat) (hc : c < 4) (hk : k < 8) (ht : t < 16) : regionOf (R.OST_THR_CTL c k t) = .ostThr c k t := by
  have h := region_ostThr c k t (0x10) hc hk ht (by omega)
  have e : (R.OST_THR_CTL c k t) = 0x810000 + c * 0x100000 + k * 0x1000 + t * 0x100 + (0x10) := by unfold R.OST_THR_CTL; omega
  rw [e]; exact h

theorem findReg_OST_THR_CTL (c : Nat) (k : Nat) (t : Nat) (hc : c < 4) (hk : k < 8) (ht : t < 16) :
    findReg (R.OST_THR_CTL c k t) = some (.ostThr c k t, ⟨.OST_THR_CTL, 0x10, [], 0x0, [(F.OST_THR_CTL.RESET, .sc)], false⟩, []) := by
  refine findReg_at (0x10) (region_OST_THR_CTL c k t hc hk ht) (by show R.OST_THR_CTL c k t - (0x810000 + c * 0x100000 + k * 0x1000 + t * 0x100) = 0x10; unfold R.OST_THR_CTL; omega) ?_
  rfl

theorem State.command_OST_THR_CTL {st : State} {fn : Nat} {v : Word} {fs : List (Fld × Nat)} (c : Nat) (k : Nat) (t : Nat) (hc : c < 4) (hk : k < 8) (ht : t < 16)
    (h : st.writable fn (R.OST_THR_CTL c k t) = true) :
    st.command fn (R.OST_THR_CTL c k t) v fs =
      (st.regAct ⟨host fn, R.OST_THR_CTL c k t, R.OST_THR_CTL c k t, .ostThr c k t, ⟨.OST_THR_CTL, 0x10, [], 0x0, [(F.OST_THR_CTL.RESET, .sc)], false⟩, [],
        taken (R.OST_THR_CTL c k t) (putFlds v fs), none, none⟩).settle st :=
  State.command_of_writable h (.inl (State.physAddr_self (region_OST_THR_CTL c k t hc hk ht) (by show _ ≠ _ ∧ _ ≠ _; unfold R.OST_THR_CTL; omega)))
    (findReg_OST_THR_CTL c k t hc hk ht)

theorem region_OST_OWN_CTL (n : Nat) (hn : n < 17) : regionOf (R.OST_OWN_CTL n) = .ostOwn n := by
  have h := region_ostOwn n (0x8) hn (by omega)
  have e : (R.OST_OWN_CTL n) = 0x880000 + n * 0x1000 + (0x8) := by unfold R.OST_OWN_CTL; omega
  rw [e]; exact h

theorem findReg_OST_OWN_CTL (n : Nat) (hn : n < 17) :
    findReg (R.OST_OWN_CTL n) = some (.ostOwn n, ⟨.OST_OWN_CTL, 0x8, [], 0x0, [(F.OST_OWN_CTL.SUP_START, .sc), (F.OST_OWN_CTL.KICK, .sc)], false⟩, []) := by
  refine findReg_at (0x8) (region_OST_OWN_CTL n hn) (by show R.OST_OWN_CTL n - (0x880000 + n * 0x1000) = 0x8; unfold R.OST_OWN_CTL; omega) ?_
  rfl

theorem State.command_OST_OWN_CTL {st : State} {fn : Nat} {v : Word} {fs : List (Fld × Nat)} (n : Nat) (hn : n < 17)
    (h : st.writable fn (R.OST_OWN_CTL n) = true) :
    st.command fn (R.OST_OWN_CTL n) v fs =
      (st.regAct ⟨host fn, R.OST_OWN_CTL n, R.OST_OWN_CTL n, .ostOwn n, ⟨.OST_OWN_CTL, 0x8, [], 0x0, [(F.OST_OWN_CTL.SUP_START, .sc), (F.OST_OWN_CTL.KICK, .sc)], false⟩, [],
        taken (R.OST_OWN_CTL n) (putFlds v fs), none, none⟩).settle st :=
  State.command_of_writable h (.inl (State.physAddr_self (region_OST_OWN_CTL n hn) (by show _ ≠ _ ∧ _ ≠ _; unfold R.OST_OWN_CTL; omega)))
    (findReg_OST_OWN_CTL n hn)

theorem region_OST_PS_DATA (n : Nat) (hn : n < 17) : regionOf (R.OST_PS_DATA n) = .ostOwn n := by
  have h := region_ostOwn n (0x1C) hn (by omega)
  have e : (R.OST_PS_DATA n) = 0x880000 + n * 0x1000 + (0x1C) := by unfold R.OST_PS_DATA; omega
  rw [e]; exact h

theorem findReg_OST_PS_DATA (n : Nat) (hn : n < 17) :
    findReg (R.OST_PS_DATA n) = some (.ostOwn n, ⟨.OST_PS_DATA, 0x1C, [], 0x0, [(F.OST_PS_DATA.WORD, .rw)], false⟩, []) := by
  refine findReg_at (0x1C) (region_OST_PS_DATA n hn) (by show R.OST_PS_DATA n - (0x880000 + n * 0x1000) = 0x1C; unfold R.OST_PS_DATA; omega) ?_
  rfl

theorem State.command_OST_PS_DATA {st : State} {fn : Nat} {v : Word} {fs : List (Fld × Nat)} (n : Nat) (hn : n < 17)
    (h : st.writable fn (R.OST_PS_DATA n) = true) :
    st.command fn (R.OST_PS_DATA n) v fs =
      (st.regAct ⟨host fn, R.OST_PS_DATA n, R.OST_PS_DATA n, .ostOwn n, ⟨.OST_PS_DATA, 0x1C, [], 0x0, [(F.OST_PS_DATA.WORD, .rw)], false⟩, [],
        taken (R.OST_PS_DATA n) (putFlds v fs), none, none⟩).settle st :=
  State.command_of_writable h (.inl (State.physAddr_self (region_OST_PS_DATA n hn) (by show _ ≠ _ ∧ _ ≠ _; unfold R.OST_PS_DATA; omega)))
    (findReg_OST_PS_DATA n hn)

theorem region_OST_CUST_CTL (n : Nat) (hn : n < 17) : regionOf (R.OST_CUST_CTL n) = .ostOwn n := by
  have h := region_ostOwn n (0x10) hn (by omega)
  have e : (R.OST_CUST_CTL n) = 0x880000 + n * 0x1000 + (0x10) := by unfold R.OST_CUST_CTL; omega
  rw [e]; exact h

theorem findReg_OST_CUST_CTL (n : Nat) (hn : n < 17) :
    findReg (R.OST_CUST_CTL n) = some (.ostOwn n, ⟨.OST_CUST_CTL, 0x10, [], 0x0, [(F.OST_CUST_CTL.EN, .rwp), (F.OST_CUST_CTL.STATE, .ro), (F.OST_CUST_CTL.RESULT, .ro)], false⟩, []) := by
  refine findReg_at (0x10) (region_OST_CUST_CTL n hn) (by show R.OST_CUST_CTL n - (0x880000 + n * 0x1000) = 0x10; unfold R.OST_CUST_CTL; omega) ?_
  rfl

theorem State.command_OST_CUST_CTL {st : State} {fn : Nat} {v : Word} {fs : List (Fld × Nat)} (n : Nat) (hn : n < 17)
    (h : st.writable fn (R.OST_CUST_CTL n) = true) :
    st.command fn (R.OST_CUST_CTL n) v fs =
      (st.regAct ⟨host fn, R.OST_CUST_CTL n, R.OST_CUST_CTL n, .ostOwn n, ⟨.OST_CUST_CTL, 0x10, [], 0x0, [(F.OST_CUST_CTL.EN, .rwp), (F.OST_CUST_CTL.STATE, .ro), (F.OST_CUST_CTL.RESULT, .ro)], false⟩, [],
        taken (R.OST_CUST_CTL n) (putFlds v fs), none, none⟩).settle st :=
  State.command_of_writable h (.inl (State.physAddr_self (region_OST_CUST_CTL n hn) (by show _ ≠ _ ∧ _ ≠ _; unfold R.OST_CUST_CTL; omega)))
    (findReg_OST_CUST_CTL n hn)

theorem region_CNT_SMP_CTL (n : Nat) (hn : n < 17) : regionOf (R.CNT_SMP_CTL n) = .cnt n := by
  have h := region_cnt n (0x1000) hn (by omega)
  have e : (R.CNT_SMP_CTL n) = 0xC00000 + n * 0x10000 + (0x1000) := by unfold R.CNT_SMP_CTL; omega
  rw [e]; exact h

theorem findReg_CNT_SMP_CTL (n : Nat) (hn : n < 17) :
    findReg (R.CNT_SMP_CTL n) = some (.cnt n, ⟨.CNT_SMP_CTL, 0x1000, [], 0x400, [(F.CNT_SMP_CTL.EN, .rw), (F.CNT_SMP_CTL.RESTART, .sc), (F.CNT_SMP_CTL.MODE, .rw), (F.CNT_SMP_CTL.JITTER, .rw), (F.CNT_SMP_CTL.PERIOD, .rw)], false⟩, []) := by
  refine findReg_at (0x1000) (region_CNT_SMP_CTL n hn) (by show R.CNT_SMP_CTL n - (0xC00000 + n * 0x10000) = 0x1000; unfold R.CNT_SMP_CTL; omega) ?_
  rfl

theorem State.command_CNT_SMP_CTL {st : State} {fn : Nat} {v : Word} {fs : List (Fld × Nat)} (n : Nat) (hn : n < 17)
    (h : st.writable fn (R.CNT_SMP_CTL n) = true) :
    st.command fn (R.CNT_SMP_CTL n) v fs =
      (st.regAct ⟨host fn, R.CNT_SMP_CTL n, R.CNT_SMP_CTL n, .cnt n, ⟨.CNT_SMP_CTL, 0x1000, [], 0x400, [(F.CNT_SMP_CTL.EN, .rw), (F.CNT_SMP_CTL.RESTART, .sc), (F.CNT_SMP_CTL.MODE, .rw), (F.CNT_SMP_CTL.JITTER, .rw), (F.CNT_SMP_CTL.PERIOD, .rw)], false⟩, [],
        taken (R.CNT_SMP_CTL n) (putFlds v fs), none, none⟩).settle st :=
  State.command_of_writable h (.inl (State.physAddr_self (region_CNT_SMP_CTL n hn) (by show _ ≠ _ ∧ _ ≠ _; unfold R.CNT_SMP_CTL; omega)))
    (findReg_CNT_SMP_CTL n hn)

theorem region_CNT_SNAP_CTL (n : Nat) (hn : n < 17) : regionOf (R.CNT_SNAP_CTL n) = .cnt n := by
  have h := region_cnt n (0x0) hn (by omega)
  have e : (R.CNT_SNAP_CTL n) = 0xC00000 + n * 0x10000 + (0x0) := by unfold R.CNT_SNAP_CTL; omega
  rw [e]; exact h

theorem findReg_CNT_SNAP_CTL (n : Nat) (hn : n < 17) :
    findReg (R.CNT_SNAP_CTL n) = some (.cnt n, ⟨.CNT_SNAP_CTL, 0x0, [], 0x0, [(F.CNT_SNAP_CTL.GO, .sc), (F.CNT_SNAP_CTL.THAW, .sc), (F.CNT_SNAP_CTL.BUSY, .ro), (F.CNT_SNAP_CTL.FROZEN, .ro)], false⟩, []) := by
  refine findReg_at (0x0) (region_CNT_SNAP_CTL n hn) (by show R.CNT_SNAP_CTL n - (0xC00000 + n * 0x10000) = 0x0; unfold R.CNT_SNAP_CTL; omega) ?_
  rfl

theorem State.command_CNT_SNAP_CTL {st : State} {fn : Nat} {v : Word} {fs : List (Fld × Nat)} (n : Nat) (hn : n < 17)
    (h : st.writable fn (R.CNT_SNAP_CTL n) = true) :
    st.command fn (R.CNT_SNAP_CTL n) v fs =
      (st.regAct ⟨host fn, R.CNT_SNAP_CTL n, R.CNT_SNAP_CTL n, .cnt n, ⟨.CNT_SNAP_CTL, 0x0, [], 0x0, [(F.CNT_SNAP_CTL.GO, .sc), (F.CNT_SNAP_CTL.THAW, .sc), (F.CNT_SNAP_CTL.BUSY, .ro), (F.CNT_SNAP_CTL.FROZEN, .ro)], false⟩, [],
        taken (R.CNT_SNAP_CTL n) (putFlds v fs), none, none⟩).settle st :=
  State.command_of_writable h (.inl (State.physAddr_self (region_CNT_SNAP_CTL n hn) (by show _ ≠ _ ∧ _ ≠ _; unfold R.CNT_SNAP_CTL; omega)))
    (findReg_CNT_SNAP_CTL n hn)

theorem region_DMA_RING_TAIL (f : Nat) (r : Nat) (hf : f < 17) (hr : r < 4) : regionOf (R.DMA_RING_TAIL f r) = .ring f r := by
  have h := region_ring f r (0xC) hf hr (by omega)
  have e : (R.DMA_RING_TAIL f r) = 0xD10000 + f * 0x1000 + r * 0x40 + (0xC) := by unfold R.DMA_RING_TAIL; omega
  rw [e]; exact h

theorem findReg_DMA_RING_TAIL (f : Nat) (r : Nat) (hf : f < 17) (hr : r < 4) :
    findReg (R.DMA_RING_TAIL f r) = some (.ring f r, ⟨.DMA_RING_TAIL, 0xC, [], 0x0, [(F.DMA_RING_TAIL.INDEX, .rw)], false⟩, []) := by
  refine findReg_at (0xC) (region_DMA_RING_TAIL f r hf hr) (by show R.DMA_RING_TAIL f r - (0xD10000 + f * 0x1000 + r * 0x40) = 0xC; unfold R.DMA_RING_TAIL; omega) ?_
  rfl

theorem State.command_DMA_RING_TAIL {st : State} {fn : Nat} {v : Word} {fs : List (Fld × Nat)} (f : Nat) (r : Nat) (hf : f < 17) (hr : r < 4)
    (h : st.writable fn (R.DMA_RING_TAIL f r) = true) :
    st.command fn (R.DMA_RING_TAIL f r) v fs =
      (st.regAct ⟨host fn, R.DMA_RING_TAIL f r, R.DMA_RING_TAIL f r, .ring f r, ⟨.DMA_RING_TAIL, 0xC, [], 0x0, [(F.DMA_RING_TAIL.INDEX, .rw)], false⟩, [],
        taken (R.DMA_RING_TAIL f r) (putFlds v fs), none, none⟩).settle st :=
  State.command_of_writable h (.inl (State.physAddr_self (region_DMA_RING_TAIL f r hf hr) (by show _ ≠ _ ∧ _ ≠ _; unfold R.DMA_RING_TAIL; omega)))
    (findReg_DMA_RING_TAIL f r hf hr)

theorem region_DMA_RING_CTL (f : Nat) (r : Nat) (hf : f < 17) (hr : r < 4) : regionOf (R.DMA_RING_CTL f r) = .ring f r := by
  have h := region_ring f r (0x0) hf hr (by omega)
  have e : (R.DMA_RING_CTL f r) = 0xD10000 + f * 0x1000 + r * 0x40 + (0x0) := by unfold R.DMA_RING_CTL; omega
  rw [e]; exact h

theorem findReg_DMA_RING_CTL (f : Nat) (r : Nat) (hf : f < 17) (hr : r < 4) :
    findReg (R.DMA_RING_CTL f r) = some (.ring f r, ⟨.DMA_RING_CTL, 0x0, [], 0x6, [(F.DMA_RING_CTL.EN, .rw), (F.DMA_RING_CTL.STOPPED, .ro), (F.DMA_RING_CTL.SIZE_LOG2, .rwi)], false⟩, []) := by
  refine findReg_at (0x0) (region_DMA_RING_CTL f r hf hr) (by show R.DMA_RING_CTL f r - (0xD10000 + f * 0x1000 + r * 0x40) = 0x0; unfold R.DMA_RING_CTL; omega) ?_
  rfl

theorem State.command_DMA_RING_CTL {st : State} {fn : Nat} {v : Word} {fs : List (Fld × Nat)} (f : Nat) (r : Nat) (hf : f < 17) (hr : r < 4)
    (h : st.writable fn (R.DMA_RING_CTL f r) = true) :
    st.command fn (R.DMA_RING_CTL f r) v fs =
      (st.regAct ⟨host fn, R.DMA_RING_CTL f r, R.DMA_RING_CTL f r, .ring f r, ⟨.DMA_RING_CTL, 0x0, [], 0x6, [(F.DMA_RING_CTL.EN, .rw), (F.DMA_RING_CTL.STOPPED, .ro), (F.DMA_RING_CTL.SIZE_LOG2, .rwi)], false⟩, [],
        taken (R.DMA_RING_CTL f r) (putFlds v fs), none, none⟩).settle st :=
  State.command_of_writable h (.inl (State.physAddr_self (region_DMA_RING_CTL f r hf hr) (by show _ ≠ _ ∧ _ ≠ _; unfold R.DMA_RING_CTL; omega)))
    (findReg_DMA_RING_CTL f r hf hr)

theorem region_DMA_FREE (n : Nat) (hn : n < 17) : regionOf (R.DMA_FREE n) = .dma n := by
  have h := region_dma n (0x104) hn (by omega) (by omega)
  have e : (R.DMA_FREE n) = 0xD10000 + n * 0x1000 + (0x104) := by unfold R.DMA_FREE; omega
  rw [e]; exact h

theorem findReg_DMA_FREE (n : Nat) (hn : n < 17) :
    findReg (R.DMA_FREE n) = some (.dma n, ⟨.DMA_FREE, 0x104, [], 0x0, [(F.DMA_FREE.HANDLE, .wo)], false⟩, []) := by
  refine findReg_at (0x104) (region_DMA_FREE n hn) (by show R.DMA_FREE n - (0xD10000 + n * 0x1000) = 0x104; unfold R.DMA_FREE; omega) ?_
  rfl

theorem State.command_DMA_FREE {st : State} {fn : Nat} {v : Word} {fs : List (Fld × Nat)} (n : Nat) (hn : n < 17)
    (h : st.writable fn (R.DMA_FREE n) = true) :
    st.command fn (R.DMA_FREE n) v fs =
      (st.regAct ⟨host fn, R.DMA_FREE n, R.DMA_FREE n, .dma n, ⟨.DMA_FREE, 0x104, [], 0x0, [(F.DMA_FREE.HANDLE, .wo)], false⟩, [],
        taken (R.DMA_FREE n) (putFlds v fs), none, none⟩).settle st :=
  State.command_of_writable h (.inl (State.physAddr_self (region_DMA_FREE n hn) (by show _ ≠ _ ∧ _ ≠ _; unfold R.DMA_FREE; omega)))
    (findReg_DMA_FREE n hn)

theorem region_SB_I2C_CMD (i : Nat) (hi : i < 8) : regionOf (R.SB_I2C_CMD i) = .sb := by
  have h := region_sb (0x1004 + i * 0x100) (by omega)
  have e : (R.SB_I2C_CMD i) = 0xE00000 + (0x1004 + i * 0x100) := by unfold R.SB_I2C_CMD; omega
  rw [e]; exact h

theorem findReg_SB_I2C_CMD (i : Nat) (hi : i < 8) :
    findReg (R.SB_I2C_CMD i) = some (.sb, ⟨.SB_I2C_CMD, 0x1004, [(8, 0x100)], 0x0, [(F.SB_I2C_CMD.GO, .sc), (F.SB_I2C_CMD.KIND, .rw), (F.SB_I2C_CMD.WLEN, .rw), (F.SB_I2C_CMD.RLEN, .rw), (F.SB_I2C_CMD.ADDR, .rw)], false⟩, [i]) := by
  refine findReg_at (0x1004 + i * 0x100) (region_SB_I2C_CMD i hi) (by show R.SB_I2C_CMD i - (0xE00000) = 0x1004 + i * 0x100; unfold R.SB_I2C_CMD; omega) ?_
  have key : ∀ i : Fin 8, findRow rows_sb (0x1004 + i.val * 0x100) = some ((⟨.SB_I2C_CMD, 0x1004, [(8, 0x100)], 0x0, [(F.SB_I2C_CMD.GO, .sc), (F.SB_I2C_CMD.KIND, .rw), (F.SB_I2C_CMD.WLEN, .rw), (F.SB_I2C_CMD.RLEN, .rw), (F.SB_I2C_CMD.ADDR, .rw)], false⟩ : Row), [i.val]) := by decide +kernel
  exact key ⟨i, hi⟩

theorem State.command_SB_I2C_CMD {st : State} {fn : Nat} {v : Word} {fs : List (Fld × Nat)} (i : Nat) (hi : i < 8)
    (h : st.writable fn (R.SB_I2C_CMD i) = true) :
    st.command fn (R.SB_I2C_CMD i) v fs =
      (st.regAct ⟨host fn, R.SB_I2C_CMD i, R.SB_I2C_CMD i, .sb, ⟨.SB_I2C_CMD, 0x1004, [(8, 0x100)], 0x0, [(F.SB_I2C_CMD.GO, .sc), (F.SB_I2C_CMD.KIND, .rw), (F.SB_I2C_CMD.WLEN, .rw), (F.SB_I2C_CMD.RLEN, .rw), (F.SB_I2C_CMD.ADDR, .rw)], false⟩, [i],
        taken (R.SB_I2C_CMD i) (putFlds v fs), none, none⟩).settle st :=
  State.command_of_writable h (.inl (State.physAddr_self (region_SB_I2C_CMD i hi) (by show _ ≠ _ ∧ _ ≠ _; unfold R.SB_I2C_CMD; omega)))
    (findReg_SB_I2C_CMD i hi)

theorem region_PORT_CMIS_CMD (n : Nat) (hn : n < 1024) : regionOf (R.PORT_CMIS_CMD n) = .port n := by
  have h := region_port n (0x300) hn (by omega)
  have e : (R.PORT_CMIS_CMD n) = 0x200000 + n * 0x400 + (0x300) := by unfold R.PORT_CMIS_CMD; omega
  rw [e]; exact h

theorem findReg_PORT_CMIS_CMD (n : Nat) (hn : n < 1024) :
    findReg (R.PORT_CMIS_CMD n) = some (.port n, ⟨.PORT_CMIS_CMD, 0x300, [], 0x0, [(F.PORT_CMIS_CMD.GO, .sc), (F.PORT_CMIS_CMD.WRITE, .rw), (F.PORT_CMIS_CMD.LEN, .rw)], false⟩, []) := by
  refine findReg_at (0x300) (region_PORT_CMIS_CMD n hn) (by show R.PORT_CMIS_CMD n - (0x200000 + n * 0x400) = 0x300; unfold R.PORT_CMIS_CMD; omega) ?_
  rfl

theorem State.command_PORT_CMIS_CMD {st : State} {fn : Nat} {v : Word} {fs : List (Fld × Nat)} (n : Nat) (hn : n < 1024)
    (h : st.writable fn (R.PORT_CMIS_CMD n) = true) :
    st.command fn (R.PORT_CMIS_CMD n) v fs =
      (st.regAct ⟨host fn, R.PORT_CMIS_CMD n, R.PORT_CMIS_CMD n, .port n, ⟨.PORT_CMIS_CMD, 0x300, [], 0x0, [(F.PORT_CMIS_CMD.GO, .sc), (F.PORT_CMIS_CMD.WRITE, .rw), (F.PORT_CMIS_CMD.LEN, .rw)], false⟩, [],
        taken (R.PORT_CMIS_CMD n) (putFlds v fs), none, none⟩).settle st :=
  State.command_of_writable h (.inl (State.physAddr_self (region_PORT_CMIS_CMD n hn) (by show _ ≠ _ ∧ _ ≠ _; unfold R.PORT_CMIS_CMD; omega)))
    (findReg_PORT_CMIS_CMD n hn)

theorem fldOf_and (v m : Word) (f : Fld) (h : fldOf m f = 2 ^ f.w - 1) : fldOf (v &&& m) f = fldOf v f := by
  unfold fldOf at *
  rw [BitVec.toNat_and]
  apply Nat.eq_of_testBit_eq
  intro i
  have hm : (m.toNat / 2 ^ f.lo % 2 ^ f.w).testBit i = (2 ^ f.w - 1).testBit i := by rw [h]
  simp only [Nat.testBit_mod_two_pow, Nat.testBit_div_two_pow, Nat.testBit_and, Nat.testBit_two_pow_sub_one] at hm ⊢
  by_cases hi : i < f.w
  · simp only [hi, decide_true, Bool.true_and] at hm ⊢; rw [hm, Bool.and_true]
  · simp [hi]

/-- A field of the word taken is the field of the word offered. -/
theorem fldOf_taken {a : Nat} {g : Region} {r : Row} {ix : List Nat} (hr : findReg a = some (g, r, ix)) (v : Word) (f : Fld)
    (h : fldOf (r.mask fun _ => true) f = 2 ^ f.w - 1) : fldOf (taken a v) f = fldOf v f := by
  unfold taken; rw [hr]; exact fldOf_and _ _ _ h

theorem fldOf_putFlds_one (v : Word) (f : Fld) (x : Nat) (h : f.lo + f.w ≤ 32) : fldOf (putFlds v [(f, x)]) f = x % 2 ^ f.w :=
  fldOf_putFld _ _ _ h

theorem fldOf_putFlds_one_ne (v : Word) (f g : Fld) (x : Nat) (h : f.lo + f.w ≤ 32) (d : g.lo + g.w ≤ f.lo ∨ f.lo + f.w ≤ g.lo) :
    fldOf (putFlds v [(f, x)]) g = fldOf v g := fldOf_putFld_ne _ _ _ _ h d

theorem region_swap (p : Nat) (hp : p < 16) : regionOf (swapAddr p) = .stg p 0 := by
  have h := region_stg p 0 0x3840 hp (by omega) (by omega)
  have e : swapAddr p = 0x10100000 + p * 0x1000000 + 0 * 0x80000 + 0x3840 := by unfold swapAddr; omega
  rw [e]; exact h

theorem findReg_swap (p : Nat) (hp : p < 16) :
    findReg (swapAddr p) = some (.stg p 0, ⟨.STG_UC_SWAP, 0x3840, [], 0x0, [(F.STG_UC_SWAP.GO, .sc), (F.STG_UC_SWAP.RESULT, .ro), (F.STG_UC_SWAP.CHECKED, .ro), (F.STG_UC_SWAP.DRAINING, .ro), (F.STG_UC_SWAP.BANK, .ro)], false⟩, []) := by
  refine findReg_at 0x3840 (region_swap p hp) (by simp only [baseOf, swapAddr]; omega) ?_
  rfl

theorem State.physAddr_stg {s : State} {rq a p st o : Nat} (hg : regionOf a = .stg p st) (ho : (a % 0x1000000 - 0x100000) % 0x80000 = o)
    (h : 0x3840 ≤ o ∧ o < 0x3880) : s.physAddr rq a = some (0x20200000 + p * 0x4000 + o) := by
  subst ho
  unfold State.physAddr
  rw [hg]
  exact if_pos h

theorem State.physAddr_swap (s : State) (rq p : Nat) (hp : p < 16) : s.physAddr rq (swapAddr p) = some (R.STG_UC_SWAP p) :=
  State.physAddr_stg (o := 0x3840) (region_swap p hp) (by unfold swapAddr; omega) (by omega)

theorem region_verAddr (p : Nat) (hp : p < 16) : regionOf (verAddr p) = .ver p := by
  have h := region_ver p 0 hp (by omega)
  have e : verAddr p = 0x10E00000 + p * 0x1000000 + 0 := by unfold verAddr; omega
  rw [e]; exact h

theorem findReg_verAddr (p : Nat) (hp : p < 16) :
    findReg (verAddr p) = some (.ver p, ⟨.VER_CMD, 0x0, [], 0x0, [(F.VER_CMD.GO, .sc), (F.VER_CMD.CMD, .rw), (F.VER_CMD.AT_ROUND, .rw), (F.VER_CMD.RESULT, .ro)], false⟩, []) := by
  refine findReg_at 0 (region_verAddr p hp) (by simp only [baseOf, verAddr]; omega) ?_
  rfl

theorem State.physAddr_ver {s : State} {rq a p o : Nat} (hg : regionOf a = .ver p) (ho : a % 0x100000 = o) (h : o < 0x100) :
    s.physAddr rq a = if s.ownerOfPipe p = 0 then none else some (0x20100000 + s.ownerOfPipe p * 0x1000 + o) := by
  subst ho
  unfold State.physAddr
  rw [hg]
  exact if_pos h

theorem State.physAddr_verAddr (s : State) (rq p : Nat) (hp : p < 16) :
    s.physAddr rq (verAddr p) = some (R.VER_CMD (s.ownerOfPipe p)) ∨ s.physAddr rq (verAddr p) = none := by
  rw [State.physAddr_ver (o := 0) (region_verAddr p hp) (by unfold verAddr; omega) (by omega)]
  by_cases h : s.ownerOfPipe p = 0
  · exact .inr (if_pos h)
  · exact .inl (if_neg h)

/-! ### A write that only stores -/

theorem fldOf_mix (old new m : Word) (f : Fld) (h : fldOf m f = 2 ^ f.w - 1) : fldOf (mix old new m) f = fldOf new f := by
  unfold fldOf at *
  apply Nat.eq_of_testBit_eq
  intro i
  have hm : (m.toNat / 2 ^ f.lo % 2 ^ f.w).testBit i = (2 ^ f.w - 1).testBit i := by rw [h]
  simp only [Nat.testBit_mod_two_pow, Nat.testBit_div_two_pow, Nat.testBit_two_pow_sub_one] at hm ⊢
  by_cases hi : i < f.w
  · simp only [hi, decide_true, Bool.true_and, BitVec.testBit_toNat] at hm ⊢
    have hl : i + f.lo < 32 := by
      by_contra hc
      rw [BitVec.getLsbD_of_ge _ _ (by omega)] at hm; exact absurd hm (by decide)
    rw [BitVec.getLsbD_eq_getElem hl] at hm
    simp [mix, hm, hl]
  · simp [hi]

theorem fldOf_mix_out (old new m : Word) (f : Fld) (h : fldOf m f = 0) : fldOf (mix old new m) f = fldOf old f := by
  unfold fldOf at *
  apply Nat.eq_of_testBit_eq
  intro i
  have hm : (m.toNat / 2 ^ f.lo % 2 ^ f.w).testBit i = false := by rw [h]; exact Nat.zero_testBit i
  simp only [Nat.testBit_mod_two_pow, Nat.testBit_div_two_pow] at hm ⊢
  by_cases hi : i < f.w
  · simp only [hi, decide_true, Bool.true_and, BitVec.testBit_toNat] at hm ⊢
    by_cases hl : i + f.lo < 32
    · rw [BitVec.getLsbD_eq_getElem hl] at hm
      simp [mix, hm, hl]
    · rw [BitVec.getLsbD_of_ge _ _ (by omega), BitVec.getLsbD_of_ge _ _ (by omega)]
  · simp [hi]

theorem Row.mask_none {r : Row} {p : FTy → Bool} (h : ∀ f ∈ r.fields, p f.2 = false) : r.mask p = 0 := by
  unfold Row.mask
  rw [List.filter_eq_nil_iff.mpr fun f hf => by simp [h f hf]]; rfl

theorem Row.mask_congr {r : Row} {p q : FTy → Bool} (h : ∀ f ∈ r.fields, p f.2 = q f.2) : r.mask p = r.mask q := by
  unfold Row.mask; rw [List.filter_congr h]

theorem State.wrote_at {s : State} {fn a pa : Nat} {v : Word} {g : Region} {r : Row} {ix : List Nat} (hr : findReg a = some (g, r, ix))
    (hp : s.physAddr fn a = some pa) :
    s.wrote fn a v = s.setReg pa (mix (s.reg pa) (taken a v) (r.mask (· == .rw))) := by unfold State.wrote; rw [hr, hp]

/-- A write of a register of RW, RO, SC and RC fields that is not Round-effective only stores its RW fields. -/
theorem State.plainWrite_wrote {s : State} {w : Wr} {fn : Nat} {v : Word} (hr : findReg w.a = some (w.g, w.row, w.ix))
    (hp : s.physAddr fn w.a = some w.pa) (h1 : w.row.roundEff = false)
    (h : ∀ f ∈ w.row.fields, f.2 = .rw ∨ f.2 = .ro ∨ f.2 = .sc ∨ f.2 = .rc) (hv : w.v = taken w.a v) :
    s.plainWrite w = s.wrote fn w.a v := by
  have m0 : ∀ p : FTy → Bool, p .rw = false → p .ro = false → p .sc = false → p .rc = false → w.row.mask p = 0 := fun p a b c d =>
    Row.mask_none fun f hf => by rcases h f hf with e | e | e | e <;> rw [e] <;> assumption
  have g : s.gate w (s.reg w.pa) = (true, s) := by
    unfold State.gate; rw [m0 (· == .rwp) rfl rfl rfl rfl]; simp
  have mw : ∀ b : Bool, (w.row.mask fun t => t == .rw || t == .wo || (true && t == .rwp) || (b && t == .rwi)) = w.row.mask (· == .rw) :=
    fun b => Row.mask_congr fun f hf => by rcases h f hf with e | e | e | e <;> rw [e] <;> cases b <;> rfl
  rw [State.wrote_at hr hp]
  unfold State.plainWrite
  rw [if_neg (by rw [h1]; decide)]
  dsimp only
  rw [g]
  dsimp only
  rw [mw, m0 (· == .w1c) rfl rfl rfl rfl, m0 (· == .rwi) rfl rfl rfl rfl, hv]
  have e : ∀ x y z : Word, x &&& ~~~(y &&& 0 &&& z) = x := by
    intro x y z
    rw [show y &&& 0 = 0 from by simp, show 0 &&& z = 0 from by simp, show ~~~(0 : Word) = BitVec.allOnes 32 from rfl, BitVec.and_allOnes]
  rw [e]
  simp

theorem State.wrote_rest (s : State) (fn a : Nat) (v : Word) : ∃ r, s.wrote fn a v = { s with regs := r } := by
  unfold State.wrote; split
  · exact ⟨_, rfl⟩
  · exact ⟨s.regs, rfl⟩

/-- An RW field takes its value. -/
theorem State.fld_wrote {s : State} {fn a pa : Nat} {v : Word} {g : Region} {r : Row} {ix : List Nat} {f : Fld}
    (hr : findReg a = some (g, r, ix)) (hp : s.physAddr fn a = some pa)
    (h : fldOf (r.mask (· == .rw)) f = 2 ^ f.w - 1) (h' : fldOf (r.mask fun _ => true) f = 2 ^ f.w - 1) :
    (s.wrote fn a v).fld pa f = fldOf v f := by
  rw [State.wrote_at hr hp, State.fld_setReg, fldOf_mix _ _ _ _ h, fldOf_taken hr _ _ h']

/-- A field that is not RW keeps what it holds. -/
theorem State.fld_wrote_keep {s : State} {fn a pa : Nat} {v : Word} {g : Region} {r : Row} {ix : List Nat} {f : Fld}
    (hr : findReg a = some (g, r, ix)) (hp : s.physAddr fn a = some pa) (h : fldOf (r.mask (· == .rw)) f = 0) :
    (s.wrote fn a v).fld pa f = s.fld pa f := by
  rw [State.wrote_at hr hp, State.fld_setReg, fldOf_mix_out _ _ _ _ h]; rfl

/-- Every other register stays. -/
theorem State.wrote_reg_ne {s : State} {fn a pa b : Nat} {v : Word} {g : Region} {r : Row} {ix : List Nat} (hr : findReg a = some (g, r, ix))
    (hp : s.physAddr fn a = some pa) (h : b ≠ pa) : (s.wrote fn a v).reg b = s.reg b := by
  rw [State.wrote_at hr hp, State.reg_setReg_ne _ _ _ _ h]

end Sys2Proof.Machine
end

