-- ==== Sys2Proof/Laws/Sort.lean ====
section
/-! SUPPORT. What sorting a list does: it keeps what the list holds, and puts it in the order. -/

namespace Sys2Proof.Machine

theorem insertBy_perm {α : Type} (le : α → α → Bool) (x : α) (ys : List α) : (insertBy le x ys).Perm (x :: ys) := by
  induction ys with
  | nil => exact .refl _
  | cons y ys ih =>
    unfold insertBy
    split
    · exact .refl _
    · exact (ih.cons y).trans (.swap x y ys)

theorem sortBy_perm {α : Type} (le : α → α → Bool) (xs : List α) : (sortBy le xs).Perm xs := by
  induction xs with
  | nil => exact .refl _
  | cons x xs ih => exact (insertBy_perm le x _).trans (ih.cons x)

@[simp] theorem mem_sortBy {α : Type} (le : α → α → Bool) (xs : List α) (a : α) : a ∈ sortBy le xs ↔ a ∈ xs := (sortBy_perm le xs).mem_iff

@[simp] theorem length_sortBy {α : Type} (le : α → α → Bool) (xs : List α) : (sortBy le xs).length = xs.length := (sortBy_perm le xs).length_eq

theorem insertBy_sorted {α : Type} {le : α → α → Bool} (total : ∀ a b, le a b || le b a) (trans : ∀ a b c, le a b → le b c → le a c)
    (x : α) {ys : List α} (h : ys.Pairwise fun a b => le a b) : (insertBy le x ys).Pairwise fun a b => le a b := by
  induction ys with
  | nil => simp [insertBy]
  | cons y ys ih =>
    obtain ⟨hy, hys⟩ := List.pairwise_cons.mp h
    unfold insertBy
    split
    · next hxy => exact .cons (List.forall_mem_cons.mpr ⟨hxy, fun a ha => trans _ _ _ hxy (hy a ha)⟩) h
    · next hxy =>
      refine .cons (fun a ha => ?_) (ih hys)
      rcases List.mem_cons.mp ((insertBy_perm le x ys).mem_iff.mp ha) with rfl | ha
      · simpa [hxy] using total a y
      · exact hy a ha

/-- Where the order is total and transitive, a sorted list stands in it. -/
theorem sortBy_sorted {α : Type} {le : α → α → Bool} (total : ∀ a b, le a b || le b a) (trans : ∀ a b c, le a b → le b c → le a c)
    (xs : List α) : (sortBy le xs).Pairwise fun a b => le a b := by
  induction xs with
  | nil => exact .nil
  | cons x xs ih => exact insertBy_sorted total trans x ih

end Sys2Proof.Machine
end

