-- ==== Sys2Proof/Laws/State.lean ====
section
/-! SUPPORT. For each update of the state, the fields that it leaves as they are, and what it leaves to be read where it writes. -/

namespace Sys2Proof.Machine

variable (s : State)

/-! ### setReg -/

@[simp] theorem State.setReg_pending (a : Nat) (v : Word) : (s.setReg a v).pending = s.pending := rfl
@[simp] theorem State.setReg_pendRegs (a : Nat) (v : Word) : (s.setReg a v).pendRegs = s.pendRegs := rfl
@[simp] theorem State.setReg_lateRegs (a : Nat) (v : Word) : (s.setReg a v).lateRegs = s.lateRegs := rfl
@[simp] theorem State.setReg_cnts (a : Nat) (v : Word) : (s.setReg a v).cnts = s.cnts := rfl
@[simp] theorem State.setReg_fuse (a : Nat) (v : Word) : (s.setReg a v).fuse = s.fuse := rfl
@[simp] theorem State.setReg_t16 (a : Nat) (v : Word) : (s.setReg a v).t16 = s.t16 := rfl
@[simp] theorem State.setReg_time (a : Nat) (v : Word) : (s.setReg a v).time = s.time := rfl
@[simp] theorem State.setReg_freeIx (a : Nat) (v : Word) : (s.setReg a v).freeIx = s.freeIx := rfl
@[simp] theorem State.setReg_outbox (a : Nat) (v : Word) : (s.setReg a v).outbox = s.outbox := rfl
@[simp] theorem State.setReg_irq (a : Nat) (v : Word) : (s.setReg a v).irq = s.irq := rfl
@[simp] theorem State.setReg_ports (a : Nat) (v : Word) : (s.setReg a v).ports = s.ports := rfl
@[simp] theorem State.setReg_lanes (a : Nat) (v : Word) : (s.setReg a v).lanes = s.lanes := rfl
@[simp] theorem State.setReg_pipes (a : Nat) (v : Word) : (s.setReg a v).pipes = s.pipes := rfl
@[simp] theorem State.setReg_em (a : Nat) (v : Word) : (s.setReg a v).em = s.em := rfl
@[simp] theorem State.setReg_tc (a : Nat) (v : Word) : (s.setReg a v).tc = s.tc := rfl
@[simp] theorem State.setReg_gmask (a : Nat) (v : Word) : (s.setReg a v).gmask = s.gmask := rfl
@[simp] theorem State.setReg_uc (a : Nat) (v : Word) : (s.setReg a v).uc = s.uc := rfl
@[simp] theorem State.setReg_ver (a : Nat) (v : Word) : (s.setReg a v).ver = s.ver := rfl
@[simp] theorem State.setReg_bpm (a : Nat) (v : Word) : (s.setReg a v).bpm = s.bpm := rfl
@[simp] theorem State.setReg_excPol (a : Nat) (v : Word) : (s.setReg a v).excPol = s.excPol := rfl
@[simp] theorem State.setReg_mirror (a : Nat) (v : Word) : (s.setReg a v).mirror = s.mirror := rfl
@[simp] theorem State.setReg_tm (a : Nat) (v : Word) : (s.setReg a v).tm = s.tm := rfl
@[simp] theorem State.setReg_ts (a : Nat) (v : Word) : (s.setReg a v).ts = s.ts := rfl
@[simp] theorem State.setReg_wb (a : Nat) (v : Word) : (s.setReg a v).wb = s.wb := rfl
@[simp] theorem State.setReg_ost (a : Nat) (v : Word) : (s.setReg a v).ost = s.ost := rfl
@[simp] theorem State.setReg_ctr (a : Nat) (v : Word) : (s.setReg a v).ctr = s.ctr := rfl
@[simp] theorem State.setReg_dma (a : Nat) (v : Word) : (s.setReg a v).dma = s.dma := rfl
@[simp] theorem State.setReg_pw (a : Nat) (v : Word) : (s.setReg a v).pw = s.pw := rfl
@[simp] theorem State.setReg_pres (a : Nat) (v : Word) : (s.setReg a v).pres = s.pres := rfl
@[simp] theorem State.setReg_side (a : Nat) (v : Word) : (s.setReg a v).side = s.side := rfl
@[simp] theorem State.setReg_holds (a : Nat) (v : Word) : (s.setReg a v).holds = s.holds := rfl

/-! ### setFld -/

@[simp] theorem State.setFld_pending (a : Nat) (f : Fld) (v : Nat) : (s.setFld a f v).pending = s.pending := rfl
@[simp] theorem State.setFld_pendRegs (a : Nat) (f : Fld) (v : Nat) : (s.setFld a f v).pendRegs = s.pendRegs := rfl
@[simp] theorem State.setFld_lateRegs (a : Nat) (f : Fld) (v : Nat) : (s.setFld a f v).lateRegs = s.lateRegs := rfl
@[simp] theorem State.setFld_cnts (a : Nat) (f : Fld) (v : Nat) : (s.setFld a f v).cnts = s.cnts := rfl
@[simp] theorem State.setFld_fuse (a : Nat) (f : Fld) (v : Nat) : (s.setFld a f v).fuse = s.fuse := rfl
@[simp] theorem State.setFld_t16 (a : Nat) (f : Fld) (v : Nat) : (s.setFld a f v).t16 = s.t16 := rfl
@[simp] theorem State.setFld_time (a : Nat) (f : Fld) (v : Nat) : (s.setFld a f v).time = s.time := rfl
@[simp] theorem State.setFld_freeIx (a : Nat) (f : Fld) (v : Nat) : (s.setFld a f v).freeIx = s.freeIx := rfl
@[simp] theorem State.setFld_outbox (a : Nat) (f : Fld) (v : Nat) : (s.setFld a f v).outbox = s.outbox := rfl
@[simp] theorem State.setFld_irq (a : Nat) (f : Fld) (v : Nat) : (s.setFld a f v).irq = s.irq := rfl
@[simp] theorem State.setFld_ports (a : Nat) (f : Fld) (v : Nat) : (s.setFld a f v).ports = s.ports := rfl
@[simp] theorem State.setFld_lanes (a : Nat) (f : Fld) (v : Nat) : (s.setFld a f v).lanes = s.lanes := rfl
@[simp] theorem State.setFld_pipes (a : Nat) (f : Fld) (v : Nat) : (s.setFld a f v).pipes = s.pipes := rfl
@[simp] theorem State.setFld_em (a : Nat) (f : Fld) (v : Nat) : (s.setFld a f v).em = s.em := rfl
@[simp] theorem State.setFld_tc (a : Nat) (f : Fld) (v : Nat) : (s.setFld a f v).tc = s.tc := rfl
@[simp] theorem State.setFld_gmask (a : Nat) (f : Fld) (v : Nat) : (s.setFld a f v).gmask = s.gmask := rfl
@[simp] theorem State.setFld_uc (a : Nat) (f : Fld) (v : Nat) : (s.setFld a f v).uc = s.uc := rfl
@[simp] theorem State.setFld_ver (a : Nat) (f : Fld) (v : Nat) : (s.setFld a f v).ver = s.ver := rfl
@[simp] theorem State.setFld_bpm (a : Nat) (f : Fld) (v : Nat) : (s.setFld a f v).bpm = s.bpm := rfl
@[simp] theorem State.setFld_excPol (a : Nat) (f : Fld) (v : Nat) : (s.setFld a f v).excPol = s.excPol := rfl
@[simp] theorem State.setFld_mirror (a : Nat) (f : Fld) (v : Nat) : (s.setFld a f v).mirror = s.mirror := rfl
@[simp] theorem State.setFld_tm (a : Nat) (f : Fld) (v : Nat) : (s.setFld a f v).tm = s.tm := rfl
@[simp] theorem State.setFld_ts (a : Nat) (f : Fld) (v : Nat) : (s.setFld a f v).ts = s.ts := rfl
@[simp] theorem State.setFld_wb (a : Nat) (f : Fld) (v : Nat) : (s.setFld a f v).wb = s.wb := rfl
@[simp] theorem State.setFld_ost (a : Nat) (f : Fld) (v : Nat) : (s.setFld a f v).ost = s.ost := rfl
@[simp] theorem State.setFld_ctr (a : Nat) (f : Fld) (v : Nat) : (s.setFld a f v).ctr = s.ctr := rfl
@[simp] theorem State.setFld_dma (a : Nat) (f : Fld) (v : Nat) : (s.setFld a f v).dma = s.dma := rfl
@[simp] theorem State.setFld_pw (a : Nat) (f : Fld) (v : Nat) : (s.setFld a f v).pw = s.pw := rfl
@[simp] theorem State.setFld_pres (a : Nat) (f : Fld) (v : Nat) : (s.setFld a f v).pres = s.pres := rfl
@[simp] theorem State.setFld_side (a : Nat) (f : Fld) (v : Nat) : (s.setFld a f v).side = s.side := rfl
@[simp] theorem State.setFld_holds (a : Nat) (f : Fld) (v : Nat) : (s.setFld a f v).holds = s.holds := rfl

/-! ### setBit -/

@[simp] theorem State.setBit_pending (a : Nat) (f : Fld) (b : Bool) : (s.setBit a f b).pending = s.pending := rfl
@[simp] theorem State.setBit_pendRegs (a : Nat) (f : Fld) (b : Bool) : (s.setBit a f b).pendRegs = s.pendRegs := rfl
@[simp] theorem State.setBit_lateRegs (a : Nat) (f : Fld) (b : Bool) : (s.setBit a f b).lateRegs = s.lateRegs := rfl
@[simp] theorem State.setBit_cnts (a : Nat) (f : Fld) (b : Bool) : (s.setBit a f b).cnts = s.cnts := rfl
@[simp] theorem State.setBit_fuse (a : Nat) (f : Fld) (b : Bool) : (s.setBit a f b).fuse = s.fuse := rfl
@[simp] theorem State.setBit_t16 (a : Nat) (f : Fld) (b : Bool) : (s.setBit a f b).t16 = s.t16 := rfl
@[simp] theorem State.setBit_time (a : Nat) (f : Fld) (b : Bool) : (s.setBit a f b).time = s.time := rfl
@[simp] theorem State.setBit_freeIx (a : Nat) (f : Fld) (b : Bool) : (s.setBit a f b).freeIx = s.freeIx := rfl
@[simp] theorem State.setBit_outbox (a : Nat) (f : Fld) (b : Bool) : (s.setBit a f b).outbox = s.outbox := rfl
@[simp] theorem State.setBit_irq (a : Nat) (f : Fld) (b : Bool) : (s.setBit a f b).irq = s.irq := rfl
@[simp] theorem State.setBit_ports (a : Nat) (f : Fld) (b : Bool) : (s.setBit a f b).ports = s.ports := rfl
@[simp] theorem State.setBit_lanes (a : Nat) (f : Fld) (b : Bool) : (s.setBit a f b).lanes = s.lanes := rfl
@[simp] theorem State.setBit_pipes (a : Nat) (f : Fld) (b : Bool) : (s.setBit a f b).pipes = s.pipes := rfl
@[simp] theorem State.setBit_em (a : Nat) (f : Fld) (b : Bool) : (s.setBit a f b).em = s.em := rfl
@[simp] theorem State.setBit_tc (a : Nat) (f : Fld) (b : Bool) : (s.setBit a f b).tc = s.tc := rfl
@[simp] theorem State.setBit_gmask (a : Nat) (f : Fld) (b : Bool) : (s.setBit a f b).gmask = s.gmask := rfl
@[simp] theorem State.setBit_uc (a : Nat) (f : Fld) (b : Bool) : (s.setBit a f b).uc = s.uc := rfl
@[simp] theorem State.setBit_ver (a : Nat) (f : Fld) (b : Bool) : (s.setBit a f b).ver = s.ver := rfl
@[simp] theorem State.setBit_bpm (a : Nat) (f : Fld) (b : Bool) : (s.setBit a f b).bpm = s.bpm := rfl
@[simp] theorem State.setBit_excPol (a : Nat) (f : Fld) (b : Bool) : (s.setBit a f b).excPol = s.excPol := rfl
@[simp] theorem State.setBit_mirror (a : Nat) (f : Fld) (b : Bool) : (s.setBit a f b).mirror = s.mirror := rfl
@[simp] theorem State.setBit_tm (a : Nat) (f : Fld) (b : Bool) : (s.setBit a f b).tm = s.tm := rfl
@[simp] theorem State.setBit_ts (a : Nat) (f : Fld) (b : Bool) : (s.setBit a f b).ts = s.ts := rfl
@[simp] theorem State.setBit_wb (a : Nat) (f : Fld) (b : Bool) : (s.setBit a f b).wb = s.wb := rfl
@[simp] theorem State.setBit_ost (a : Nat) (f : Fld) (b : Bool) : (s.setBit a f b).ost = s.ost := rfl
@[simp] theorem State.setBit_ctr (a : Nat) (f : Fld) (b : Bool) : (s.setBit a f b).ctr = s.ctr := rfl
@[simp] theorem State.setBit_dma (a : Nat) (f : Fld) (b : Bool) : (s.setBit a f b).dma = s.dma := rfl
@[simp] theorem State.setBit_pw (a : Nat) (f : Fld) (b : Bool) : (s.setBit a f b).pw = s.pw := rfl
@[simp] theorem State.setBit_pres (a : Nat) (f : Fld) (b : Bool) : (s.setBit a f b).pres = s.pres := rfl
@[simp] theorem State.setBit_side (a : Nat) (f : Fld) (b : Bool) : (s.setBit a f b).side = s.side := rfl
@[simp] theorem State.setBit_holds (a : Nat) (f : Fld) (b : Bool) : (s.setBit a f b).holds = s.holds := rfl

/-! ### setCnt -/

@[simp] theorem State.setCnt_pending (a v : Nat) : (s.setCnt a v).pending = s.pending := rfl
@[simp] theorem State.setCnt_regs (a v : Nat) : (s.setCnt a v).regs = s.regs := rfl
@[simp] theorem State.setCnt_pendRegs (a v : Nat) : (s.setCnt a v).pendRegs = s.pendRegs := rfl
@[simp] theorem State.setCnt_lateRegs (a v : Nat) : (s.setCnt a v).lateRegs = s.lateRegs := rfl
@[simp] theorem State.setCnt_fuse (a v : Nat) : (s.setCnt a v).fuse = s.fuse := rfl
@[simp] theorem State.setCnt_t16 (a v : Nat) : (s.setCnt a v).t16 = s.t16 := rfl
@[simp] theorem State.setCnt_time (a v : Nat) : (s.setCnt a v).time = s.time := rfl
@[simp] theorem State.setCnt_freeIx (a v : Nat) : (s.setCnt a v).freeIx = s.freeIx := rfl
@[simp] theorem State.setCnt_outbox (a v : Nat) : (s.setCnt a v).outbox = s.outbox := rfl
@[simp] theorem State.setCnt_irq (a v : Nat) : (s.setCnt a v).irq = s.irq := rfl
@[simp] theorem State.setCnt_ports (a v : Nat) : (s.setCnt a v).ports = s.ports := rfl
@[simp] theorem State.setCnt_lanes (a v : Nat) : (s.setCnt a v).lanes = s.lanes := rfl
@[simp] theorem State.setCnt_pipes (a v : Nat) : (s.setCnt a v).pipes = s.pipes := rfl
@[simp] theorem State.setCnt_em (a v : Nat) : (s.setCnt a v).em = s.em := rfl
@[simp] theorem State.setCnt_tc (a v : Nat) : (s.setCnt a v).tc = s.tc := rfl
@[simp] theorem State.setCnt_gmask (a v : Nat) : (s.setCnt a v).gmask = s.gmask := rfl
@[simp] theorem State.setCnt_uc (a v : Nat) : (s.setCnt a v).uc = s.uc := rfl
@[simp] theorem State.setCnt_ver (a v : Nat) : (s.setCnt a v).ver = s.ver := rfl
@[simp] theorem State.setCnt_bpm (a v : Nat) : (s.setCnt a v).bpm = s.bpm := rfl
@[simp] theorem State.setCnt_excPol (a v : Nat) : (s.setCnt a v).excPol = s.excPol := rfl
@[simp] theorem State.setCnt_mirror (a v : Nat) : (s.setCnt a v).mirror = s.mirror := rfl
@[simp] theorem State.setCnt_tm (a v : Nat) : (s.setCnt a v).tm = s.tm := rfl
@[simp] theorem State.setCnt_ts (a v : Nat) : (s.setCnt a v).ts = s.ts := rfl
@[simp] theorem State.setCnt_wb (a v : Nat) : (s.setCnt a v).wb = s.wb := rfl
@[simp] theorem State.setCnt_ost (a v : Nat) : (s.setCnt a v).ost = s.ost := rfl
@[simp] theorem State.setCnt_ctr (a v : Nat) : (s.setCnt a v).ctr = s.ctr := rfl
@[simp] theorem State.setCnt_dma (a v : Nat) : (s.setCnt a v).dma = s.dma := rfl
@[simp] theorem State.setCnt_pw (a v : Nat) : (s.setCnt a v).pw = s.pw := rfl
@[simp] theorem State.setCnt_pres (a v : Nat) : (s.setCnt a v).pres = s.pres := rfl
@[simp] theorem State.setCnt_side (a v : Nat) : (s.setCnt a v).side = s.side := rfl
@[simp] theorem State.setCnt_holds (a v : Nat) : (s.setCnt a v).holds = s.holds := rfl

/-! ### addCnt -/

@[simp] theorem State.addCnt_pending (a k : Nat) : (s.addCnt a k).pending = s.pending := rfl
@[simp] theorem State.addCnt_regs (a k : Nat) : (s.addCnt a k).regs = s.regs := rfl
@[simp] theorem State.addCnt_pendRegs (a k : Nat) : (s.addCnt a k).pendRegs = s.pendRegs := rfl
@[simp] theorem State.addCnt_lateRegs (a k : Nat) : (s.addCnt a k).lateRegs = s.lateRegs := rfl
@[simp] theorem State.addCnt_fuse (a k : Nat) : (s.addCnt a k).fuse = s.fuse := rfl
@[simp] theorem State.addCnt_t16 (a k : Nat) : (s.addCnt a k).t16 = s.t16 := rfl
@[simp] theorem State.addCnt_time (a k : Nat) : (s.addCnt a k).time = s.time := rfl
@[simp] theorem State.addCnt_freeIx (a k : Nat) : (s.addCnt a k).freeIx = s.freeIx := rfl
@[simp] theorem State.addCnt_outbox (a k : Nat) : (s.addCnt a k).outbox = s.outbox := rfl
@[simp] theorem State.addCnt_irq (a k : Nat) : (s.addCnt a k).irq = s.irq := rfl
@[simp] theorem State.addCnt_ports (a k : Nat) : (s.addCnt a k).ports = s.ports := rfl
@[simp] theorem State.addCnt_lanes (a k : Nat) : (s.addCnt a k).lanes = s.lanes := rfl
@[simp] theorem State.addCnt_pipes (a k : Nat) : (s.addCnt a k).pipes = s.pipes := rfl
@[simp] theorem State.addCnt_em (a k : Nat) : (s.addCnt a k).em = s.em := rfl
@[simp] theorem State.addCnt_tc (a k : Nat) : (s.addCnt a k).tc = s.tc := rfl
@[simp] theorem State.addCnt_gmask (a k : Nat) : (s.addCnt a k).gmask = s.gmask := rfl
@[simp] theorem State.addCnt_uc (a k : Nat) : (s.addCnt a k).uc = s.uc := rfl
@[simp] theorem State.addCnt_ver (a k : Nat) : (s.addCnt a k).ver = s.ver := rfl
@[simp] theorem State.addCnt_bpm (a k : Nat) : (s.addCnt a k).bpm = s.bpm := rfl
@[simp] theorem State.addCnt_excPol (a k : Nat) : (s.addCnt a k).excPol = s.excPol := rfl
@[simp] theorem State.addCnt_mirror (a k : Nat) : (s.addCnt a k).mirror = s.mirror := rfl
@[simp] theorem State.addCnt_tm (a k : Nat) : (s.addCnt a k).tm = s.tm := rfl
@[simp] theorem State.addCnt_ts (a k : Nat) : (s.addCnt a k).ts = s.ts := rfl
@[simp] theorem State.addCnt_wb (a k : Nat) : (s.addCnt a k).wb = s.wb := rfl
@[simp] theorem State.addCnt_ost (a k : Nat) : (s.addCnt a k).ost = s.ost := rfl
@[simp] theorem State.addCnt_ctr (a k : Nat) : (s.addCnt a k).ctr = s.ctr := rfl
@[simp] theorem State.addCnt_dma (a k : Nat) : (s.addCnt a k).dma = s.dma := rfl
@[simp] theorem State.addCnt_pw (a k : Nat) : (s.addCnt a k).pw = s.pw := rfl
@[simp] theorem State.addCnt_pres (a k : Nat) : (s.addCnt a k).pres = s.pres := rfl
@[simp] theorem State.addCnt_side (a k : Nat) : (s.addCnt a k).side = s.side := rfl
@[simp] theorem State.addCnt_holds (a k : Nat) : (s.addCnt a k).holds = s.holds := rfl

/-! ### emit -/

@[simp] theorem State.emit_pending (e : Emit) : (s.emit e).pending = s.pending := rfl
@[simp] theorem State.emit_regs (e : Emit) : (s.emit e).regs = s.regs := rfl
@[simp] theorem State.emit_pendRegs (e : Emit) : (s.emit e).pendRegs = s.pendRegs := rfl
@[simp] theorem State.emit_lateRegs (e : Emit) : (s.emit e).lateRegs = s.lateRegs := rfl
@[simp] theorem State.emit_cnts (e : Emit) : (s.emit e).cnts = s.cnts := rfl
@[simp] theorem State.emit_fuse (e : Emit) : (s.emit e).fuse = s.fuse := rfl
@[simp] theorem State.emit_t16 (e : Emit) : (s.emit e).t16 = s.t16 := rfl
@[simp] theorem State.emit_time (e : Emit) : (s.emit e).time = s.time := rfl
@[simp] theorem State.emit_freeIx (e : Emit) : (s.emit e).freeIx = s.freeIx := rfl
@[simp] theorem State.emit_irq (e : Emit) : (s.emit e).irq = s.irq := rfl
@[simp] theorem State.emit_ports (e : Emit) : (s.emit e).ports = s.ports := rfl
@[simp] theorem State.emit_lanes (e : Emit) : (s.emit e).lanes = s.lanes := rfl
@[simp] theorem State.emit_pipes (e : Emit) : (s.emit e).pipes = s.pipes := rfl
@[simp] theorem State.emit_em (e : Emit) : (s.emit e).em = s.em := rfl
@[simp] theorem State.emit_tc (e : Emit) : (s.emit e).tc = s.tc := rfl
@[simp] theorem State.emit_gmask (e : Emit) : (s.emit e).gmask = s.gmask := rfl
@[simp] theorem State.emit_uc (e : Emit) : (s.emit e).uc = s.uc := rfl
@[simp] theorem State.emit_ver (e : Emit) : (s.emit e).ver = s.ver := rfl
@[simp] theorem State.emit_bpm (e : Emit) : (s.emit e).bpm = s.bpm := rfl
@[simp] theorem State.emit_excPol (e : Emit) : (s.emit e).excPol = s.excPol := rfl
@[simp] theorem State.emit_mirror (e : Emit) : (s.emit e).mirror = s.mirror := rfl
@[simp] theorem State.emit_tm (e : Emit) : (s.emit e).tm = s.tm := rfl
@[simp] theorem State.emit_ts (e : Emit) : (s.emit e).ts = s.ts := rfl
@[simp] theorem State.emit_wb (e : Emit) : (s.emit e).wb = s.wb := rfl
@[simp] theorem State.emit_ost (e : Emit) : (s.emit e).ost = s.ost := rfl
@[simp] theorem State.emit_ctr (e : Emit) : (s.emit e).ctr = s.ctr := rfl
@[simp] theorem State.emit_dma (e : Emit) : (s.emit e).dma = s.dma := rfl
@[simp] theorem State.emit_pw (e : Emit) : (s.emit e).pw = s.pw := rfl
@[simp] theorem State.emit_pres (e : Emit) : (s.emit e).pres = s.pres := rfl
@[simp] theorem State.emit_side (e : Emit) : (s.emit e).side = s.side := rfl
@[simp] theorem State.emit_holds (e : Emit) : (s.emit e).holds = s.holds := rfl

/-! ### setPort -/

@[simp] theorem State.setPort_pending (n : Nat) (q : PortSt) : (s.setPort n q).pending = s.pending := rfl
@[simp] theorem State.setPort_regs (n : Nat) (q : PortSt) : (s.setPort n q).regs = s.regs := rfl
@[simp] theorem State.setPort_pendRegs (n : Nat) (q : PortSt) : (s.setPort n q).pendRegs = s.pendRegs := rfl
@[simp] theorem State.setPort_lateRegs (n : Nat) (q : PortSt) : (s.setPort n q).lateRegs = s.lateRegs := rfl
@[simp] theorem State.setPort_cnts (n : Nat) (q : PortSt) : (s.setPort n q).cnts = s.cnts := rfl
@[simp] theorem State.setPort_fuse (n : Nat) (q : PortSt) : (s.setPort n q).fuse = s.fuse := rfl
@[simp] theorem State.setPort_t16 (n : Nat) (q : PortSt) : (s.setPort n q).t16 = s.t16 := rfl
@[simp] theorem State.setPort_time (n : Nat) (q : PortSt) : (s.setPort n q).time = s.time := rfl
@[simp] theorem State.setPort_freeIx (n : Nat) (q : PortSt) : (s.setPort n q).freeIx = s.freeIx := rfl
@[simp] theorem State.setPort_outbox (n : Nat) (q : PortSt) : (s.setPort n q).outbox = s.outbox := rfl
@[simp] theorem State.setPort_irq (n : Nat) (q : PortSt) : (s.setPort n q).irq = s.irq := rfl
@[simp] theorem State.setPort_lanes (n : Nat) (q : PortSt) : (s.setPort n q).lanes = s.lanes := rfl
@[simp] theorem State.setPort_pipes (n : Nat) (q : PortSt) : (s.setPort n q).pipes = s.pipes := rfl
@[simp] theorem State.setPort_em (n : Nat) (q : PortSt) : (s.setPort n q).em = s.em := rfl
@[simp] theorem State.setPort_tc (n : Nat) (q : PortSt) : (s.setPort n q).tc = s.tc := rfl
@[simp] theorem State.setPort_gmask (n : Nat) (q : PortSt) : (s.setPort n q).gmask = s.gmask := rfl
@[simp] theorem State.setPort_uc (n : Nat) (q : PortSt) : (s.setPort n q).uc = s.uc := rfl
@[simp] theorem State.setPort_ver (n : Nat) (q : PortSt) : (s.setPort n q).ver = s.ver := rfl
@[simp] theorem State.setPort_bpm (n : Nat) (q : PortSt) : (s.setPort n q).bpm = s.bpm := rfl
@[simp] theorem State.setPort_excPol (n : Nat) (q : PortSt) : (s.setPort n q).excPol = s.excPol := rfl
@[simp] theorem State.setPort_mirror (n : Nat) (q : PortSt) : (s.setPort n q).mirror = s.mirror := rfl
@[simp] theorem State.setPort_tm (n : Nat) (q : PortSt) : (s.setPort n q).tm = s.tm := rfl
@[simp] theorem State.setPort_ts (n : Nat) (q : PortSt) : (s.setPort n q).ts = s.ts := rfl
@[simp] theorem State.setPort_wb (n : Nat) (q : PortSt) : (s.setPort n q).wb = s.wb := rfl
@[simp] theorem State.setPort_ost (n : Nat) (q : PortSt) : (s.setPort n q).ost = s.ost := rfl
@[simp] theorem State.setPort_ctr (n : Nat) (q : PortSt) : (s.setPort n q).ctr = s.ctr := rfl
@[simp] theorem State.setPort_dma (n : Nat) (q : PortSt) : (s.setPort n q).dma = s.dma := rfl
@[simp] theorem State.setPort_pw (n : Nat) (q : PortSt) : (s.setPort n q).pw = s.pw := rfl
@[simp] theorem State.setPort_pres (n : Nat) (q : PortSt) : (s.setPort n q).pres = s.pres := rfl
@[simp] theorem State.setPort_side (n : Nat) (q : PortSt) : (s.setPort n q).side = s.side := rfl
@[simp] theorem State.setPort_holds (n : Nat) (q : PortSt) : (s.setPort n q).holds = s.holds := rfl

/-! ### setLane -/

@[simp] theorem State.setLane_pending (l : Nat) (q : LaneSt) : (s.setLane l q).pending = s.pending := rfl
@[simp] theorem State.setLane_regs (l : Nat) (q : LaneSt) : (s.setLane l q).regs = s.regs := rfl
@[simp] theorem State.setLane_pendRegs (l : Nat) (q : LaneSt) : (s.setLane l q).pendRegs = s.pendRegs := rfl
@[simp] theorem State.setLane_lateRegs (l : Nat) (q : LaneSt) : (s.setLane l q).lateRegs = s.lateRegs := rfl
@[simp] theorem State.setLane_cnts (l : Nat) (q : LaneSt) : (s.setLane l q).cnts = s.cnts := rfl
@[simp] theorem State.setLane_fuse (l : Nat) (q : LaneSt) : (s.setLane l q).fuse = s.fuse := rfl
@[simp] theorem State.setLane_t16 (l : Nat) (q : LaneSt) : (s.setLane l q).t16 = s.t16 := rfl
@[simp] theorem State.setLane_time (l : Nat) (q : LaneSt) : (s.setLane l q).time = s.time := rfl
@[simp] theorem State.setLane_freeIx (l : Nat) (q : LaneSt) : (s.setLane l q).freeIx = s.freeIx := rfl
@[simp] theorem State.setLane_outbox (l : Nat) (q : LaneSt) : (s.setLane l q).outbox = s.outbox := rfl
@[simp] theorem State.setLane_irq (l : Nat) (q : LaneSt) : (s.setLane l q).irq = s.irq := rfl
@[simp] theorem State.setLane_ports (l : Nat) (q : LaneSt) : (s.setLane l q).ports = s.ports := rfl
@[simp] theorem State.setLane_pipes (l : Nat) (q : LaneSt) : (s.setLane l q).pipes = s.pipes := rfl
@[simp] theorem State.setLane_em (l : Nat) (q : LaneSt) : (s.setLane l q).em = s.em := rfl
@[simp] theorem State.setLane_tc (l : Nat) (q : LaneSt) : (s.setLane l q).tc = s.tc := rfl
@[simp] theorem State.setLane_gmask (l : Nat) (q : LaneSt) : (s.setLane l q).gmask = s.gmask := rfl
@[simp] theorem State.setLane_uc (l : Nat) (q : LaneSt) : (s.setLane l q).uc = s.uc := rfl
@[simp] theorem State.setLane_ver (l : Nat) (q : LaneSt) : (s.setLane l q).ver = s.ver := rfl
@[simp] theorem State.setLane_bpm (l : Nat) (q : LaneSt) : (s.setLane l q).bpm = s.bpm := rfl
@[simp] theorem State.setLane_excPol (l : Nat) (q : LaneSt) : (s.setLane l q).excPol = s.excPol := rfl
@[simp] theorem State.setLane_mirror (l : Nat) (q : LaneSt) : (s.setLane l q).mirror = s.mirror := rfl
@[simp] theorem State.setLane_tm (l : Nat) (q : LaneSt) : (s.setLane l q).tm = s.tm := rfl
@[simp] theorem State.setLane_ts (l : Nat) (q : LaneSt) : (s.setLane l q).ts = s.ts := rfl
@[simp] theorem State.setLane_wb (l : Nat) (q : LaneSt) : (s.setLane l q).wb = s.wb := rfl
@[simp] theorem State.setLane_ost (l : Nat) (q : LaneSt) : (s.setLane l q).ost = s.ost := rfl
@[simp] theorem State.setLane_ctr (l : Nat) (q : LaneSt) : (s.setLane l q).ctr = s.ctr := rfl
@[simp] theorem State.setLane_dma (l : Nat) (q : LaneSt) : (s.setLane l q).dma = s.dma := rfl
@[simp] theorem State.setLane_pw (l : Nat) (q : LaneSt) : (s.setLane l q).pw = s.pw := rfl
@[simp] theorem State.setLane_pres (l : Nat) (q : LaneSt) : (s.setLane l q).pres = s.pres := rfl
@[simp] theorem State.setLane_side (l : Nat) (q : LaneSt) : (s.setLane l q).side = s.side := rfl
@[simp] theorem State.setLane_holds (l : Nat) (q : LaneSt) : (s.setLane l q).holds = s.holds := rfl

/-! ### setPipe -/

@[simp] theorem State.setPipe_pending (p : Nat) (q : PipeSt) : (s.setPipe p q).pending = s.pending := rfl
@[simp] theorem State.setPipe_regs (p : Nat) (q : PipeSt) : (s.setPipe p q).regs = s.regs := rfl
@[simp] theorem State.setPipe_pendRegs (p : Nat) (q : PipeSt) : (s.setPipe p q).pendRegs = s.pendRegs := rfl
@[simp] theorem State.setPipe_lateRegs (p : Nat) (q : PipeSt) : (s.setPipe p q).lateRegs = s.lateRegs := rfl
@[simp] theorem State.setPipe_cnts (p : Nat) (q : PipeSt) : (s.setPipe p q).cnts = s.cnts := rfl
@[simp] theorem State.setPipe_fuse (p : Nat) (q : PipeSt) : (s.setPipe p q).fuse = s.fuse := rfl
@[simp] theorem State.setPipe_t16 (p : Nat) (q : PipeSt) : (s.setPipe p q).t16 = s.t16 := rfl
@[simp] theorem State.setPipe_time (p : Nat) (q : PipeSt) : (s.setPipe p q).time = s.time := rfl
@[simp] theorem State.setPipe_freeIx (p : Nat) (q : PipeSt) : (s.setPipe p q).freeIx = s.freeIx := rfl
@[simp] theorem State.setPipe_outbox (p : Nat) (q : PipeSt) : (s.setPipe p q).outbox = s.outbox := rfl
@[simp] theorem State.setPipe_irq (p : Nat) (q : PipeSt) : (s.setPipe p q).irq = s.irq := rfl
@[simp] theorem State.setPipe_ports (p : Nat) (q : PipeSt) : (s.setPipe p q).ports = s.ports := rfl
@[simp] theorem State.setPipe_lanes (p : Nat) (q : PipeSt) : (s.setPipe p q).lanes = s.lanes := rfl
@[simp] theorem State.setPipe_em (p : Nat) (q : PipeSt) : (s.setPipe p q).em = s.em := rfl
@[simp] theorem State.setPipe_tc (p : Nat) (q : PipeSt) : (s.setPipe p q).tc = s.tc := rfl
@[simp] theorem State.setPipe_gmask (p : Nat) (q : PipeSt) : (s.setPipe p q).gmask = s.gmask := rfl
@[simp] theorem State.setPipe_uc (p : Nat) (q : PipeSt) : (s.setPipe p q).uc = s.uc := rfl
@[simp] theorem State.setPipe_ver (p : Nat) (q : PipeSt) : (s.setPipe p q).ver = s.ver := rfl
@[simp] theorem State.setPipe_bpm (p : Nat) (q : PipeSt) : (s.setPipe p q).bpm = s.bpm := rfl
@[simp] theorem State.setPipe_excPol (p : Nat) (q : PipeSt) : (s.setPipe p q).excPol = s.excPol := rfl
@[simp] theorem State.setPipe_mirror (p : Nat) (q : PipeSt) : (s.setPipe p q).mirror = s.mirror := rfl
@[simp] theorem State.setPipe_tm (p : Nat) (q : PipeSt) : (s.setPipe p q).tm = s.tm := rfl
@[simp] theorem State.setPipe_ts (p : Nat) (q : PipeSt) : (s.setPipe p q).ts = s.ts := rfl
@[simp] theorem State.setPipe_wb (p : Nat) (q : PipeSt) : (s.setPipe p q).wb = s.wb := rfl
@[simp] theorem State.setPipe_ost (p : Nat) (q : PipeSt) : (s.setPipe p q).ost = s.ost := rfl
@[simp] theorem State.setPipe_ctr (p : Nat) (q : PipeSt) : (s.setPipe p q).ctr = s.ctr := rfl
@[simp] theorem State.setPipe_dma (p : Nat) (q : PipeSt) : (s.setPipe p q).dma = s.dma := rfl
@[simp] theorem State.setPipe_pw (p : Nat) (q : PipeSt) : (s.setPipe p q).pw = s.pw := rfl
@[simp] theorem State.setPipe_pres (p : Nat) (q : PipeSt) : (s.setPipe p q).pres = s.pres := rfl
@[simp] theorem State.setPipe_side (p : Nat) (q : PipeSt) : (s.setPipe p q).side = s.side := rfl
@[simp] theorem State.setPipe_holds (p : Nat) (q : PipeSt) : (s.setPipe p q).holds = s.holds := rfl

/-! ### setEmStage -/

@[simp] theorem State.setEmStage_pending (p st : Nat) (e : EmStage) : (s.setEmStage p st e).pending = s.pending := rfl
@[simp] theorem State.setEmStage_regs (p st : Nat) (e : EmStage) : (s.setEmStage p st e).regs = s.regs := rfl
@[simp] theorem State.setEmStage_pendRegs (p st : Nat) (e : EmStage) : (s.setEmStage p st e).pendRegs = s.pendRegs := rfl
@[simp] theorem State.setEmStage_lateRegs (p st : Nat) (e : EmStage) : (s.setEmStage p st e).lateRegs = s.lateRegs := rfl
@[simp] theorem State.setEmStage_cnts (p st : Nat) (e : EmStage) : (s.setEmStage p st e).cnts = s.cnts := rfl
@[simp] theorem State.setEmStage_fuse (p st : Nat) (e : EmStage) : (s.setEmStage p st e).fuse = s.fuse := rfl
@[simp] theorem State.setEmStage_t16 (p st : Nat) (e : EmStage) : (s.setEmStage p st e).t16 = s.t16 := rfl
@[simp] theorem State.setEmStage_time (p st : Nat) (e : EmStage) : (s.setEmStage p st e).time = s.time := rfl
@[simp] theorem State.setEmStage_freeIx (p st : Nat) (e : EmStage) : (s.setEmStage p st e).freeIx = s.freeIx := rfl
@[simp] theorem State.setEmStage_outbox (p st : Nat) (e : EmStage) : (s.setEmStage p st e).outbox = s.outbox := rfl
@[simp] theorem State.setEmStage_irq (p st : Nat) (e : EmStage) : (s.setEmStage p st e).irq = s.irq := rfl
@[simp] theorem State.setEmStage_ports (p st : Nat) (e : EmStage) : (s.setEmStage p st e).ports = s.ports := rfl
@[simp] theorem State.setEmStage_lanes (p st : Nat) (e : EmStage) : (s.setEmStage p st e).lanes = s.lanes := rfl
@[simp] theorem State.setEmStage_pipes (p st : Nat) (e : EmStage) : (s.setEmStage p st e).pipes = s.pipes := rfl
@[simp] theorem State.setEmStage_tc (p st : Nat) (e : EmStage) : (s.setEmStage p st e).tc = s.tc := rfl
@[simp] theorem State.setEmStage_gmask (p st : Nat) (e : EmStage) : (s.setEmStage p st e).gmask = s.gmask := rfl
@[simp] theorem State.setEmStage_uc (p st : Nat) (e : EmStage) : (s.setEmStage p st e).uc = s.uc := rfl
@[simp] theorem State.setEmStage_ver (p st : Nat) (e : EmStage) : (s.setEmStage p st e).ver = s.ver := rfl
@[simp] theorem State.setEmStage_bpm (p st : Nat) (e : EmStage) : (s.setEmStage p st e).bpm = s.bpm := rfl
@[simp] theorem State.setEmStage_excPol (p st : Nat) (e : EmStage) : (s.setEmStage p st e).excPol = s.excPol := rfl
@[simp] theorem State.setEmStage_mirror (p st : Nat) (e : EmStage) : (s.setEmStage p st e).mirror = s.mirror := rfl
@[simp] theorem State.setEmStage_tm (p st : Nat) (e : EmStage) : (s.setEmStage p st e).tm = s.tm := rfl
@[simp] theorem State.setEmStage_ts (p st : Nat) (e : EmStage) : (s.setEmStage p st e).ts = s.ts := rfl
@[simp] theorem State.setEmStage_wb (p st : Nat) (e : EmStage) : (s.setEmStage p st e).wb = s.wb := rfl
@[simp] theorem State.setEmStage_ost (p st : Nat) (e : EmStage) : (s.setEmStage p st e).ost = s.ost := rfl
@[simp] theorem State.setEmStage_ctr (p st : Nat) (e : EmStage) : (s.setEmStage p st e).ctr = s.ctr := rfl
@[simp] theorem State.setEmStage_dma (p st : Nat) (e : EmStage) : (s.setEmStage p st e).dma = s.dma := rfl
@[simp] theorem State.setEmStage_pw (p st : Nat) (e : EmStage) : (s.setEmStage p st e).pw = s.pw := rfl
@[simp] theorem State.setEmStage_pres (p st : Nat) (e : EmStage) : (s.setEmStage p st e).pres = s.pres := rfl
@[simp] theorem State.setEmStage_side (p st : Nat) (e : EmStage) : (s.setEmStage p st e).side = s.side := rfl
@[simp] theorem State.setEmStage_holds (p st : Nat) (e : EmStage) : (s.setEmStage p st e).holds = s.holds := rfl

/-! ### setTcPipe -/

@[simp] theorem State.setTcPipe_pending (p : Nat) (e : TcPipe) : (s.setTcPipe p e).pending = s.pending := rfl
@[simp] theorem State.setTcPipe_regs (p : Nat) (e : TcPipe) : (s.setTcPipe p e).regs = s.regs := rfl
@[simp] theorem State.setTcPipe_pendRegs (p : Nat) (e : TcPipe) : (s.setTcPipe p e).pendRegs = s.pendRegs := rfl
@[simp] theorem State.setTcPipe_lateRegs (p : Nat) (e : TcPipe) : (s.setTcPipe p e).lateRegs = s.lateRegs := rfl
@[simp] theorem State.setTcPipe_cnts (p : Nat) (e : TcPipe) : (s.setTcPipe p e).cnts = s.cnts := rfl
@[simp] theorem State.setTcPipe_fuse (p : Nat) (e : TcPipe) : (s.setTcPipe p e).fuse = s.fuse := rfl
@[simp] theorem State.setTcPipe_t16 (p : Nat) (e : TcPipe) : (s.setTcPipe p e).t16 = s.t16 := rfl
@[simp] theorem State.setTcPipe_time (p : Nat) (e : TcPipe) : (s.setTcPipe p e).time = s.time := rfl
@[simp] theorem State.setTcPipe_freeIx (p : Nat) (e : TcPipe) : (s.setTcPipe p e).freeIx = s.freeIx := rfl
@[simp] theorem State.setTcPipe_outbox (p : Nat) (e : TcPipe) : (s.setTcPipe p e).outbox = s.outbox := rfl
@[simp] theorem State.setTcPipe_irq (p : Nat) (e : TcPipe) : (s.setTcPipe p e).irq = s.irq := rfl
@[simp] theorem State.setTcPipe_ports (p : Nat) (e : TcPipe) : (s.setTcPipe p e).ports = s.ports := rfl
@[simp] theorem State.setTcPipe_lanes (p : Nat) (e : TcPipe) : (s.setTcPipe p e).lanes = s.lanes := rfl
@[simp] theorem State.setTcPipe_pipes (p : Nat) (e : TcPipe) : (s.setTcPipe p e).pipes = s.pipes := rfl
@[simp] theorem State.setTcPipe_em (p : Nat) (e : TcPipe) : (s.setTcPipe p e).em = s.em := rfl
@[simp] theorem State.setTcPipe_gmask (p : Nat) (e : TcPipe) : (s.setTcPipe p e).gmask = s.gmask := rfl
@[simp] theorem State.setTcPipe_uc (p : Nat) (e : TcPipe) : (s.setTcPipe p e).uc = s.uc := rfl
@[simp] theorem State.setTcPipe_ver (p : Nat) (e : TcPipe) : (s.setTcPipe p e).ver = s.ver := rfl
@[simp] theorem State.setTcPipe_bpm (p : Nat) (e : TcPipe) : (s.setTcPipe p e).bpm = s.bpm := rfl
@[simp] theorem State.setTcPipe_excPol (p : Nat) (e : TcPipe) : (s.setTcPipe p e).excPol = s.excPol := rfl
@[simp] theorem State.setTcPipe_mirror (p : Nat) (e : TcPipe) : (s.setTcPipe p e).mirror = s.mirror := rfl
@[simp] theorem State.setTcPipe_tm (p : Nat) (e : TcPipe) : (s.setTcPipe p e).tm = s.tm := rfl
@[simp] theorem State.setTcPipe_ts (p : Nat) (e : TcPipe) : (s.setTcPipe p e).ts = s.ts := rfl
@[simp] theorem State.setTcPipe_wb (p : Nat) (e : TcPipe) : (s.setTcPipe p e).wb = s.wb := rfl
@[simp] theorem State.setTcPipe_ost (p : Nat) (e : TcPipe) : (s.setTcPipe p e).ost = s.ost := rfl
@[simp] theorem State.setTcPipe_ctr (p : Nat) (e : TcPipe) : (s.setTcPipe p e).ctr = s.ctr := rfl
@[simp] theorem State.setTcPipe_dma (p : Nat) (e : TcPipe) : (s.setTcPipe p e).dma = s.dma := rfl
@[simp] theorem State.setTcPipe_pw (p : Nat) (e : TcPipe) : (s.setTcPipe p e).pw = s.pw := rfl
@[simp] theorem State.setTcPipe_pres (p : Nat) (e : TcPipe) : (s.setTcPipe p e).pres = s.pres := rfl
@[simp] theorem State.setTcPipe_side (p : Nat) (e : TcPipe) : (s.setTcPipe p e).side = s.side := rfl
@[simp] theorem State.setTcPipe_holds (p : Nat) (e : TcPipe) : (s.setTcPipe p e).holds = s.holds := rfl

/-! ### setUcStore -/

@[simp] theorem State.setUcStore_pending (p st : Nat) (u : UcStore) : (s.setUcStore p st u).pending = s.pending := rfl
@[simp] theorem State.setUcStore_regs (p st : Nat) (u : UcStore) : (s.setUcStore p st u).regs = s.regs := rfl
@[simp] theorem State.setUcStore_pendRegs (p st : Nat) (u : UcStore) : (s.setUcStore p st u).pendRegs = s.pendRegs := rfl
@[simp] theorem State.setUcStore_lateRegs (p st : Nat) (u : UcStore) : (s.setUcStore p st u).lateRegs = s.lateRegs := rfl
@[simp] theorem State.setUcStore_cnts (p st : Nat) (u : UcStore) : (s.setUcStore p st u).cnts = s.cnts := rfl
@[simp] theorem State.setUcStore_fuse (p st : Nat) (u : UcStore) : (s.setUcStore p st u).fuse = s.fuse := rfl
@[simp] theorem State.setUcStore_t16 (p st : Nat) (u : UcStore) : (s.setUcStore p st u).t16 = s.t16 := rfl
@[simp] theorem State.setUcStore_time (p st : Nat) (u : UcStore) : (s.setUcStore p st u).time = s.time := rfl
@[simp] theorem State.setUcStore_freeIx (p st : Nat) (u : UcStore) : (s.setUcStore p st u).freeIx = s.freeIx := rfl
@[simp] theorem State.setUcStore_outbox (p st : Nat) (u : UcStore) : (s.setUcStore p st u).outbox = s.outbox := rfl
@[simp] theorem State.setUcStore_irq (p st : Nat) (u : UcStore) : (s.setUcStore p st u).irq = s.irq := rfl
@[simp] theorem State.setUcStore_ports (p st : Nat) (u : UcStore) : (s.setUcStore p st u).ports = s.ports := rfl
@[simp] theorem State.setUcStore_lanes (p st : Nat) (u : UcStore) : (s.setUcStore p st u).lanes = s.lanes := rfl
@[simp] theorem State.setUcStore_pipes (p st : Nat) (u : UcStore) : (s.setUcStore p st u).pipes = s.pipes := rfl
@[simp] theorem State.setUcStore_em (p st : Nat) (u : UcStore) : (s.setUcStore p st u).em = s.em := rfl
@[simp] theorem State.setUcStore_tc (p st : Nat) (u : UcStore) : (s.setUcStore p st u).tc = s.tc := rfl
@[simp] theorem State.setUcStore_gmask (p st : Nat) (u : UcStore) : (s.setUcStore p st u).gmask = s.gmask := rfl
@[simp] theorem State.setUcStore_ver (p st : Nat) (u : UcStore) : (s.setUcStore p st u).ver = s.ver := rfl
@[simp] theorem State.setUcStore_bpm (p st : Nat) (u : UcStore) : (s.setUcStore p st u).bpm = s.bpm := rfl
@[simp] theorem State.setUcStore_excPol (p st : Nat) (u : UcStore) : (s.setUcStore p st u).excPol = s.excPol := rfl
@[simp] theorem State.setUcStore_mirror (p st : Nat) (u : UcStore) : (s.setUcStore p st u).mirror = s.mirror := rfl
@[simp] theorem State.setUcStore_tm (p st : Nat) (u : UcStore) : (s.setUcStore p st u).tm = s.tm := rfl
@[simp] theorem State.setUcStore_ts (p st : Nat) (u : UcStore) : (s.setUcStore p st u).ts = s.ts := rfl
@[simp] theorem State.setUcStore_wb (p st : Nat) (u : UcStore) : (s.setUcStore p st u).wb = s.wb := rfl
@[simp] theorem State.setUcStore_ost (p st : Nat) (u : UcStore) : (s.setUcStore p st u).ost = s.ost := rfl
@[simp] theorem State.setUcStore_ctr (p st : Nat) (u : UcStore) : (s.setUcStore p st u).ctr = s.ctr := rfl
@[simp] theorem State.setUcStore_dma (p st : Nat) (u : UcStore) : (s.setUcStore p st u).dma = s.dma := rfl
@[simp] theorem State.setUcStore_pw (p st : Nat) (u : UcStore) : (s.setUcStore p st u).pw = s.pw := rfl
@[simp] theorem State.setUcStore_pres (p st : Nat) (u : UcStore) : (s.setUcStore p st u).pres = s.pres := rfl
@[simp] theorem State.setUcStore_side (p st : Nat) (u : UcStore) : (s.setUcStore p st u).side = s.side := rfl
@[simp] theorem State.setUcStore_holds (p st : Nat) (u : UcStore) : (s.setUcStore p st u).holds = s.holds := rfl

/-! ### setVer -/

@[simp] theorem State.setVer_pending (n : Nat) (v : VerSt) : (s.setVer n v).pending = s.pending := rfl
@[simp] theorem State.setVer_regs (n : Nat) (v : VerSt) : (s.setVer n v).regs = s.regs := rfl
@[simp] theorem State.setVer_pendRegs (n : Nat) (v : VerSt) : (s.setVer n v).pendRegs = s.pendRegs := rfl
@[simp] theorem State.setVer_lateRegs (n : Nat) (v : VerSt) : (s.setVer n v).lateRegs = s.lateRegs := rfl
@[simp] theorem State.setVer_cnts (n : Nat) (v : VerSt) : (s.setVer n v).cnts = s.cnts := rfl
@[simp] theorem State.setVer_fuse (n : Nat) (v : VerSt) : (s.setVer n v).fuse = s.fuse := rfl
@[simp] theorem State.setVer_t16 (n : Nat) (v : VerSt) : (s.setVer n v).t16 = s.t16 := rfl
@[simp] theorem State.setVer_time (n : Nat) (v : VerSt) : (s.setVer n v).time = s.time := rfl
@[simp] theorem State.setVer_freeIx (n : Nat) (v : VerSt) : (s.setVer n v).freeIx = s.freeIx := rfl
@[simp] theorem State.setVer_outbox (n : Nat) (v : VerSt) : (s.setVer n v).outbox = s.outbox := rfl
@[simp] theorem State.setVer_irq (n : Nat) (v : VerSt) : (s.setVer n v).irq = s.irq := rfl
@[simp] theorem State.setVer_ports (n : Nat) (v : VerSt) : (s.setVer n v).ports = s.ports := rfl
@[simp] theorem State.setVer_lanes (n : Nat) (v : VerSt) : (s.setVer n v).lanes = s.lanes := rfl
@[simp] theorem State.setVer_pipes (n : Nat) (v : VerSt) : (s.setVer n v).pipes = s.pipes := rfl
@[simp] theorem State.setVer_em (n : Nat) (v : VerSt) : (s.setVer n v).em = s.em := rfl
@[simp] theorem State.setVer_tc (n : Nat) (v : VerSt) : (s.setVer n v).tc = s.tc := rfl
@[simp] theorem State.setVer_gmask (n : Nat) (v : VerSt) : (s.setVer n v).gmask = s.gmask := rfl
@[simp] theorem State.setVer_uc (n : Nat) (v : VerSt) : (s.setVer n v).uc = s.uc := rfl
@[simp] theorem State.setVer_bpm (n : Nat) (v : VerSt) : (s.setVer n v).bpm = s.bpm := rfl
@[simp] theorem State.setVer_excPol (n : Nat) (v : VerSt) : (s.setVer n v).excPol = s.excPol := rfl
@[simp] theorem State.setVer_mirror (n : Nat) (v : VerSt) : (s.setVer n v).mirror = s.mirror := rfl
@[simp] theorem State.setVer_tm (n : Nat) (v : VerSt) : (s.setVer n v).tm = s.tm := rfl
@[simp] theorem State.setVer_ts (n : Nat) (v : VerSt) : (s.setVer n v).ts = s.ts := rfl
@[simp] theorem State.setVer_wb (n : Nat) (v : VerSt) : (s.setVer n v).wb = s.wb := rfl
@[simp] theorem State.setVer_ost (n : Nat) (v : VerSt) : (s.setVer n v).ost = s.ost := rfl
@[simp] theorem State.setVer_ctr (n : Nat) (v : VerSt) : (s.setVer n v).ctr = s.ctr := rfl
@[simp] theorem State.setVer_dma (n : Nat) (v : VerSt) : (s.setVer n v).dma = s.dma := rfl
@[simp] theorem State.setVer_pw (n : Nat) (v : VerSt) : (s.setVer n v).pw = s.pw := rfl
@[simp] theorem State.setVer_pres (n : Nat) (v : VerSt) : (s.setVer n v).pres = s.pres := rfl
@[simp] theorem State.setVer_side (n : Nat) (v : VerSt) : (s.setVer n v).side = s.side := rfl
@[simp] theorem State.setVer_holds (n : Nat) (v : VerSt) : (s.setVer n v).holds = s.holds := rfl

/-! ### setThr -/

@[simp] theorem State.setThr_pending (t : Nat) (q : Thr) : (s.setThr t q).pending = s.pending := rfl
@[simp] theorem State.setThr_regs (t : Nat) (q : Thr) : (s.setThr t q).regs = s.regs := rfl
@[simp] theorem State.setThr_pendRegs (t : Nat) (q : Thr) : (s.setThr t q).pendRegs = s.pendRegs := rfl
@[simp] theorem State.setThr_lateRegs (t : Nat) (q : Thr) : (s.setThr t q).lateRegs = s.lateRegs := rfl
@[simp] theorem State.setThr_cnts (t : Nat) (q : Thr) : (s.setThr t q).cnts = s.cnts := rfl
@[simp] theorem State.setThr_fuse (t : Nat) (q : Thr) : (s.setThr t q).fuse = s.fuse := rfl
@[simp] theorem State.setThr_t16 (t : Nat) (q : Thr) : (s.setThr t q).t16 = s.t16 := rfl
@[simp] theorem State.setThr_time (t : Nat) (q : Thr) : (s.setThr t q).time = s.time := rfl
@[simp] theorem State.setThr_freeIx (t : Nat) (q : Thr) : (s.setThr t q).freeIx = s.freeIx := rfl
@[simp] theorem State.setThr_outbox (t : Nat) (q : Thr) : (s.setThr t q).outbox = s.outbox := rfl
@[simp] theorem State.setThr_irq (t : Nat) (q : Thr) : (s.setThr t q).irq = s.irq := rfl
@[simp] theorem State.setThr_ports (t : Nat) (q : Thr) : (s.setThr t q).ports = s.ports := rfl
@[simp] theorem State.setThr_lanes (t : Nat) (q : Thr) : (s.setThr t q).lanes = s.lanes := rfl
@[simp] theorem State.setThr_pipes (t : Nat) (q : Thr) : (s.setThr t q).pipes = s.pipes := rfl
@[simp] theorem State.setThr_em (t : Nat) (q : Thr) : (s.setThr t q).em = s.em := rfl
@[simp] theorem State.setThr_tc (t : Nat) (q : Thr) : (s.setThr t q).tc = s.tc := rfl
@[simp] theorem State.setThr_gmask (t : Nat) (q : Thr) : (s.setThr t q).gmask = s.gmask := rfl
@[simp] theorem State.setThr_uc (t : Nat) (q : Thr) : (s.setThr t q).uc = s.uc := rfl
@[simp] theorem State.setThr_ver (t : Nat) (q : Thr) : (s.setThr t q).ver = s.ver := rfl
@[simp] theorem State.setThr_bpm (t : Nat) (q : Thr) : (s.setThr t q).bpm = s.bpm := rfl
@[simp] theorem State.setThr_excPol (t : Nat) (q : Thr) : (s.setThr t q).excPol = s.excPol := rfl
@[simp] theorem State.setThr_mirror (t : Nat) (q : Thr) : (s.setThr t q).mirror = s.mirror := rfl
@[simp] theorem State.setThr_tm (t : Nat) (q : Thr) : (s.setThr t q).tm = s.tm := rfl
@[simp] theorem State.setThr_ts (t : Nat) (q : Thr) : (s.setThr t q).ts = s.ts := rfl
@[simp] theorem State.setThr_wb (t : Nat) (q : Thr) : (s.setThr t q).wb = s.wb := rfl
@[simp] theorem State.setThr_ctr (t : Nat) (q : Thr) : (s.setThr t q).ctr = s.ctr := rfl
@[simp] theorem State.setThr_dma (t : Nat) (q : Thr) : (s.setThr t q).dma = s.dma := rfl
@[simp] theorem State.setThr_pw (t : Nat) (q : Thr) : (s.setThr t q).pw = s.pw := rfl
@[simp] theorem State.setThr_pres (t : Nat) (q : Thr) : (s.setThr t q).pres = s.pres := rfl
@[simp] theorem State.setThr_side (t : Nat) (q : Thr) : (s.setThr t q).side = s.side := rfl
@[simp] theorem State.setThr_holds (t : Nat) (q : Thr) : (s.setThr t q).holds = s.holds := rfl

/-! ### setStrm -/

@[simp] theorem State.setStrm_pending (n : Nat) (q : WbStream) : (s.setStrm n q).pending = s.pending := rfl
@[simp] theorem State.setStrm_regs (n : Nat) (q : WbStream) : (s.setStrm n q).regs = s.regs := rfl
@[simp] theorem State.setStrm_pendRegs (n : Nat) (q : WbStream) : (s.setStrm n q).pendRegs = s.pendRegs := rfl
@[simp] theorem State.setStrm_lateRegs (n : Nat) (q : WbStream) : (s.setStrm n q).lateRegs = s.lateRegs := rfl
@[simp] theorem State.setStrm_cnts (n : Nat) (q : WbStream) : (s.setStrm n q).cnts = s.cnts := rfl
@[simp] theorem State.setStrm_fuse (n : Nat) (q : WbStream) : (s.setStrm n q).fuse = s.fuse := rfl
@[simp] theorem State.setStrm_t16 (n : Nat) (q : WbStream) : (s.setStrm n q).t16 = s.t16 := rfl
@[simp] theorem State.setStrm_time (n : Nat) (q : WbStream) : (s.setStrm n q).time = s.time := rfl
@[simp] theorem State.setStrm_freeIx (n : Nat) (q : WbStream) : (s.setStrm n q).freeIx = s.freeIx := rfl
@[simp] theorem State.setStrm_outbox (n : Nat) (q : WbStream) : (s.setStrm n q).outbox = s.outbox := rfl
@[simp] theorem State.setStrm_irq (n : Nat) (q : WbStream) : (s.setStrm n q).irq = s.irq := rfl
@[simp] theorem State.setStrm_ports (n : Nat) (q : WbStream) : (s.setStrm n q).ports = s.ports := rfl
@[simp] theorem State.setStrm_lanes (n : Nat) (q : WbStream) : (s.setStrm n q).lanes = s.lanes := rfl
@[simp] theorem State.setStrm_pipes (n : Nat) (q : WbStream) : (s.setStrm n q).pipes = s.pipes := rfl
@[simp] theorem State.setStrm_em (n : Nat) (q : WbStream) : (s.setStrm n q).em = s.em := rfl
@[simp] theorem State.setStrm_tc (n : Nat) (q : WbStream) : (s.setStrm n q).tc = s.tc := rfl
@[simp] theorem State.setStrm_gmask (n : Nat) (q : WbStream) : (s.setStrm n q).gmask = s.gmask := rfl
@[simp] theorem State.setStrm_uc (n : Nat) (q : WbStream) : (s.setStrm n q).uc = s.uc := rfl
@[simp] theorem State.setStrm_ver (n : Nat) (q : WbStream) : (s.setStrm n q).ver = s.ver := rfl
@[simp] theorem State.setStrm_bpm (n : Nat) (q : WbStream) : (s.setStrm n q).bpm = s.bpm := rfl
@[simp] theorem State.setStrm_excPol (n : Nat) (q : WbStream) : (s.setStrm n q).excPol = s.excPol := rfl
@[simp] theorem State.setStrm_mirror (n : Nat) (q : WbStream) : (s.setStrm n q).mirror = s.mirror := rfl
@[simp] theorem State.setStrm_tm (n : Nat) (q : WbStream) : (s.setStrm n q).tm = s.tm := rfl
@[simp] theorem State.setStrm_ts (n : Nat) (q : WbStream) : (s.setStrm n q).ts = s.ts := rfl
@[simp] theorem State.setStrm_ost (n : Nat) (q : WbStream) : (s.setStrm n q).ost = s.ost := rfl
@[simp] theorem State.setStrm_ctr (n : Nat) (q : WbStream) : (s.setStrm n q).ctr = s.ctr := rfl
@[simp] theorem State.setStrm_dma (n : Nat) (q : WbStream) : (s.setStrm n q).dma = s.dma := rfl
@[simp] theorem State.setStrm_pw (n : Nat) (q : WbStream) : (s.setStrm n q).pw = s.pw := rfl
@[simp] theorem State.setStrm_pres (n : Nat) (q : WbStream) : (s.setStrm n q).pres = s.pres := rfl
@[simp] theorem State.setStrm_side (n : Nat) (q : WbStream) : (s.setStrm n q).side = s.side := rfl
@[simp] theorem State.setStrm_holds (n : Nat) (q : WbStream) : (s.setStrm n q).holds = s.holds := rfl

/-! ### setTmq -/

@[simp] theorem State.setTmq_pending (n c : Nat) (q : QueueSt) : (s.setTmq n c q).pending = s.pending := rfl
@[simp] theorem State.setTmq_regs (n c : Nat) (q : QueueSt) : (s.setTmq n c q).regs = s.regs := rfl
@[simp] theorem State.setTmq_pendRegs (n c : Nat) (q : QueueSt) : (s.setTmq n c q).pendRegs = s.pendRegs := rfl
@[simp] theorem State.setTmq_lateRegs (n c : Nat) (q : QueueSt) : (s.setTmq n c q).lateRegs = s.lateRegs := rfl
@[simp] theorem State.setTmq_cnts (n c : Nat) (q : QueueSt) : (s.setTmq n c q).cnts = s.cnts := rfl
@[simp] theorem State.setTmq_fuse (n c : Nat) (q : QueueSt) : (s.setTmq n c q).fuse = s.fuse := rfl
@[simp] theorem State.setTmq_t16 (n c : Nat) (q : QueueSt) : (s.setTmq n c q).t16 = s.t16 := rfl
@[simp] theorem State.setTmq_time (n c : Nat) (q : QueueSt) : (s.setTmq n c q).time = s.time := rfl
@[simp] theorem State.setTmq_freeIx (n c : Nat) (q : QueueSt) : (s.setTmq n c q).freeIx = s.freeIx := rfl
@[simp] theorem State.setTmq_outbox (n c : Nat) (q : QueueSt) : (s.setTmq n c q).outbox = s.outbox := rfl
@[simp] theorem State.setTmq_irq (n c : Nat) (q : QueueSt) : (s.setTmq n c q).irq = s.irq := rfl
@[simp] theorem State.setTmq_ports (n c : Nat) (q : QueueSt) : (s.setTmq n c q).ports = s.ports := rfl
@[simp] theorem State.setTmq_lanes (n c : Nat) (q : QueueSt) : (s.setTmq n c q).lanes = s.lanes := rfl
@[simp] theorem State.setTmq_pipes (n c : Nat) (q : QueueSt) : (s.setTmq n c q).pipes = s.pipes := rfl
@[simp] theorem State.setTmq_em (n c : Nat) (q : QueueSt) : (s.setTmq n c q).em = s.em := rfl
@[simp] theorem State.setTmq_tc (n c : Nat) (q : QueueSt) : (s.setTmq n c q).tc = s.tc := rfl
@[simp] theorem State.setTmq_gmask (n c : Nat) (q : QueueSt) : (s.setTmq n c q).gmask = s.gmask := rfl
@[simp] theorem State.setTmq_uc (n c : Nat) (q : QueueSt) : (s.setTmq n c q).uc = s.uc := rfl
@[simp] theorem State.setTmq_ver (n c : Nat) (q : QueueSt) : (s.setTmq n c q).ver = s.ver := rfl
@[simp] theorem State.setTmq_bpm (n c : Nat) (q : QueueSt) : (s.setTmq n c q).bpm = s.bpm := rfl
@[simp] theorem State.setTmq_excPol (n c : Nat) (q : QueueSt) : (s.setTmq n c q).excPol = s.excPol := rfl
@[simp] theorem State.setTmq_mirror (n c : Nat) (q : QueueSt) : (s.setTmq n c q).mirror = s.mirror := rfl
@[simp] theorem State.setTmq_ts (n c : Nat) (q : QueueSt) : (s.setTmq n c q).ts = s.ts := rfl
@[simp] theorem State.setTmq_wb (n c : Nat) (q : QueueSt) : (s.setTmq n c q).wb = s.wb := rfl
@[simp] theorem State.setTmq_ost (n c : Nat) (q : QueueSt) : (s.setTmq n c q).ost = s.ost := rfl
@[simp] theorem State.setTmq_ctr (n c : Nat) (q : QueueSt) : (s.setTmq n c q).ctr = s.ctr := rfl
@[simp] theorem State.setTmq_dma (n c : Nat) (q : QueueSt) : (s.setTmq n c q).dma = s.dma := rfl
@[simp] theorem State.setTmq_pw (n c : Nat) (q : QueueSt) : (s.setTmq n c q).pw = s.pw := rfl
@[simp] theorem State.setTmq_pres (n c : Nat) (q : QueueSt) : (s.setTmq n c q).pres = s.pres := rfl
@[simp] theorem State.setTmq_side (n c : Nat) (q : QueueSt) : (s.setTmq n c q).side = s.side := rfl
@[simp] theorem State.setTmq_holds (n c : Nat) (q : QueueSt) : (s.setTmq n c q).holds = s.holds := rfl

/-! ### setPtm -/

@[simp] theorem State.setPtm_pending (n : Nat) (q : PortTm) : (s.setPtm n q).pending = s.pending := rfl
@[simp] theorem State.setPtm_regs (n : Nat) (q : PortTm) : (s.setPtm n q).regs = s.regs := rfl
@[simp] theorem State.setPtm_pendRegs (n : Nat) (q : PortTm) : (s.setPtm n q).pendRegs = s.pendRegs := rfl
@[simp] theorem State.setPtm_lateRegs (n : Nat) (q : PortTm) : (s.setPtm n q).lateRegs = s.lateRegs := rfl
@[simp] theorem State.setPtm_cnts (n : Nat) (q : PortTm) : (s.setPtm n q).cnts = s.cnts := rfl
@[simp] theorem State.setPtm_fuse (n : Nat) (q : PortTm) : (s.setPtm n q).fuse = s.fuse := rfl
@[simp] theorem State.setPtm_t16 (n : Nat) (q : PortTm) : (s.setPtm n q).t16 = s.t16 := rfl
@[simp] theorem State.setPtm_time (n : Nat) (q : PortTm) : (s.setPtm n q).time = s.time := rfl
@[simp] theorem State.setPtm_freeIx (n : Nat) (q : PortTm) : (s.setPtm n q).freeIx = s.freeIx := rfl
@[simp] theorem State.setPtm_outbox (n : Nat) (q : PortTm) : (s.setPtm n q).outbox = s.outbox := rfl
@[simp] theorem State.setPtm_irq (n : Nat) (q : PortTm) : (s.setPtm n q).irq = s.irq := rfl
@[simp] theorem State.setPtm_ports (n : Nat) (q : PortTm) : (s.setPtm n q).ports = s.ports := rfl
@[simp] theorem State.setPtm_lanes (n : Nat) (q : PortTm) : (s.setPtm n q).lanes = s.lanes := rfl
@[simp] theorem State.setPtm_pipes (n : Nat) (q : PortTm) : (s.setPtm n q).pipes = s.pipes := rfl
@[simp] theorem State.setPtm_em (n : Nat) (q : PortTm) : (s.setPtm n q).em = s.em := rfl
@[simp] theorem State.setPtm_tc (n : Nat) (q : PortTm) : (s.setPtm n q).tc = s.tc := rfl
@[simp] theorem State.setPtm_gmask (n : Nat) (q : PortTm) : (s.setPtm n q).gmask = s.gmask := rfl
@[simp] theorem State.setPtm_uc (n : Nat) (q : PortTm) : (s.setPtm n q).uc = s.uc := rfl
@[simp] theorem State.setPtm_ver (n : Nat) (q : PortTm) : (s.setPtm n q).ver = s.ver := rfl
@[simp] theorem State.setPtm_bpm (n : Nat) (q : PortTm) : (s.setPtm n q).bpm = s.bpm := rfl
@[simp] theorem State.setPtm_excPol (n : Nat) (q : PortTm) : (s.setPtm n q).excPol = s.excPol := rfl
@[simp] theorem State.setPtm_mirror (n : Nat) (q : PortTm) : (s.setPtm n q).mirror = s.mirror := rfl
@[simp] theorem State.setPtm_ts (n : Nat) (q : PortTm) : (s.setPtm n q).ts = s.ts := rfl
@[simp] theorem State.setPtm_wb (n : Nat) (q : PortTm) : (s.setPtm n q).wb = s.wb := rfl
@[simp] theorem State.setPtm_ost (n : Nat) (q : PortTm) : (s.setPtm n q).ost = s.ost := rfl
@[simp] theorem State.setPtm_ctr (n : Nat) (q : PortTm) : (s.setPtm n q).ctr = s.ctr := rfl
@[simp] theorem State.setPtm_dma (n : Nat) (q : PortTm) : (s.setPtm n q).dma = s.dma := rfl
@[simp] theorem State.setPtm_pw (n : Nat) (q : PortTm) : (s.setPtm n q).pw = s.pw := rfl
@[simp] theorem State.setPtm_pres (n : Nat) (q : PortTm) : (s.setPtm n q).pres = s.pres := rfl
@[simp] theorem State.setPtm_side (n : Nat) (q : PortTm) : (s.setPtm n q).side = s.side := rfl
@[simp] theorem State.setPtm_holds (n : Nat) (q : PortTm) : (s.setPtm n q).holds = s.holds := rfl

/-! ### setBuf -/

@[simp] theorem State.setBuf_pending (h : Nat) (b : Option Buf) : (s.setBuf h b).pending = s.pending := rfl
@[simp] theorem State.setBuf_regs (h : Nat) (b : Option Buf) : (s.setBuf h b).regs = s.regs := rfl
@[simp] theorem State.setBuf_pendRegs (h : Nat) (b : Option Buf) : (s.setBuf h b).pendRegs = s.pendRegs := rfl
@[simp] theorem State.setBuf_lateRegs (h : Nat) (b : Option Buf) : (s.setBuf h b).lateRegs = s.lateRegs := rfl
@[simp] theorem State.setBuf_cnts (h : Nat) (b : Option Buf) : (s.setBuf h b).cnts = s.cnts := rfl
@[simp] theorem State.setBuf_fuse (h : Nat) (b : Option Buf) : (s.setBuf h b).fuse = s.fuse := rfl
@[simp] theorem State.setBuf_t16 (h : Nat) (b : Option Buf) : (s.setBuf h b).t16 = s.t16 := rfl
@[simp] theorem State.setBuf_time (h : Nat) (b : Option Buf) : (s.setBuf h b).time = s.time := rfl
@[simp] theorem State.setBuf_freeIx (h : Nat) (b : Option Buf) : (s.setBuf h b).freeIx = s.freeIx := rfl
@[simp] theorem State.setBuf_outbox (h : Nat) (b : Option Buf) : (s.setBuf h b).outbox = s.outbox := rfl
@[simp] theorem State.setBuf_irq (h : Nat) (b : Option Buf) : (s.setBuf h b).irq = s.irq := rfl
@[simp] theorem State.setBuf_ports (h : Nat) (b : Option Buf) : (s.setBuf h b).ports = s.ports := rfl
@[simp] theorem State.setBuf_lanes (h : Nat) (b : Option Buf) : (s.setBuf h b).lanes = s.lanes := rfl
@[simp] theorem State.setBuf_pipes (h : Nat) (b : Option Buf) : (s.setBuf h b).pipes = s.pipes := rfl
@[simp] theorem State.setBuf_em (h : Nat) (b : Option Buf) : (s.setBuf h b).em = s.em := rfl
@[simp] theorem State.setBuf_tc (h : Nat) (b : Option Buf) : (s.setBuf h b).tc = s.tc := rfl
@[simp] theorem State.setBuf_gmask (h : Nat) (b : Option Buf) : (s.setBuf h b).gmask = s.gmask := rfl
@[simp] theorem State.setBuf_uc (h : Nat) (b : Option Buf) : (s.setBuf h b).uc = s.uc := rfl
@[simp] theorem State.setBuf_ver (h : Nat) (b : Option Buf) : (s.setBuf h b).ver = s.ver := rfl
@[simp] theorem State.setBuf_excPol (h : Nat) (b : Option Buf) : (s.setBuf h b).excPol = s.excPol := rfl
@[simp] theorem State.setBuf_mirror (h : Nat) (b : Option Buf) : (s.setBuf h b).mirror = s.mirror := rfl
@[simp] theorem State.setBuf_tm (h : Nat) (b : Option Buf) : (s.setBuf h b).tm = s.tm := rfl
@[simp] theorem State.setBuf_ts (h : Nat) (b : Option Buf) : (s.setBuf h b).ts = s.ts := rfl
@[simp] theorem State.setBuf_wb (h : Nat) (b : Option Buf) : (s.setBuf h b).wb = s.wb := rfl
@[simp] theorem State.setBuf_ost (h : Nat) (b : Option Buf) : (s.setBuf h b).ost = s.ost := rfl
@[simp] theorem State.setBuf_ctr (h : Nat) (b : Option Buf) : (s.setBuf h b).ctr = s.ctr := rfl
@[simp] theorem State.setBuf_dma (h : Nat) (b : Option Buf) : (s.setBuf h b).dma = s.dma := rfl
@[simp] theorem State.setBuf_pw (h : Nat) (b : Option Buf) : (s.setBuf h b).pw = s.pw := rfl
@[simp] theorem State.setBuf_pres (h : Nat) (b : Option Buf) : (s.setBuf h b).pres = s.pres := rfl
@[simp] theorem State.setBuf_side (h : Nat) (b : Option Buf) : (s.setBuf h b).side = s.side := rfl
@[simp] theorem State.setBuf_holds (h : Nat) (b : Option Buf) : (s.setBuf h b).holds = s.holds := rfl

/-! ### setSnap -/

@[simp] theorem State.setSnap_pending (n : Nat) (c : Option Snap) : (s.setSnap n c).pending = s.pending := rfl
@[simp] theorem State.setSnap_regs (n : Nat) (c : Option Snap) : (s.setSnap n c).regs = s.regs := rfl
@[simp] theorem State.setSnap_pendRegs (n : Nat) (c : Option Snap) : (s.setSnap n c).pendRegs = s.pendRegs := rfl
@[simp] theorem State.setSnap_lateRegs (n : Nat) (c : Option Snap) : (s.setSnap n c).lateRegs = s.lateRegs := rfl
@[simp] theorem State.setSnap_cnts (n : Nat) (c : Option Snap) : (s.setSnap n c).cnts = s.cnts := rfl
@[simp] theorem State.setSnap_fuse (n : Nat) (c : Option Snap) : (s.setSnap n c).fuse = s.fuse := rfl
@[simp] theorem State.setSnap_t16 (n : Nat) (c : Option Snap) : (s.setSnap n c).t16 = s.t16 := rfl
@[simp] theorem State.setSnap_time (n : Nat) (c : Option Snap) : (s.setSnap n c).time = s.time := rfl
@[simp] theorem State.setSnap_freeIx (n : Nat) (c : Option Snap) : (s.setSnap n c).freeIx = s.freeIx := rfl
@[simp] theorem State.setSnap_outbox (n : Nat) (c : Option Snap) : (s.setSnap n c).outbox = s.outbox := rfl
@[simp] theorem State.setSnap_irq (n : Nat) (c : Option Snap) : (s.setSnap n c).irq = s.irq := rfl
@[simp] theorem State.setSnap_ports (n : Nat) (c : Option Snap) : (s.setSnap n c).ports = s.ports := rfl
@[simp] theorem State.setSnap_lanes (n : Nat) (c : Option Snap) : (s.setSnap n c).lanes = s.lanes := rfl
@[simp] theorem State.setSnap_pipes (n : Nat) (c : Option Snap) : (s.setSnap n c).pipes = s.pipes := rfl
@[simp] theorem State.setSnap_em (n : Nat) (c : Option Snap) : (s.setSnap n c).em = s.em := rfl
@[simp] theorem State.setSnap_tc (n : Nat) (c : Option Snap) : (s.setSnap n c).tc = s.tc := rfl
@[simp] theorem State.setSnap_gmask (n : Nat) (c : Option Snap) : (s.setSnap n c).gmask = s.gmask := rfl
@[simp] theorem State.setSnap_uc (n : Nat) (c : Option Snap) : (s.setSnap n c).uc = s.uc := rfl
@[simp] theorem State.setSnap_ver (n : Nat) (c : Option Snap) : (s.setSnap n c).ver = s.ver := rfl
@[simp] theorem State.setSnap_bpm (n : Nat) (c : Option Snap) : (s.setSnap n c).bpm = s.bpm := rfl
@[simp] theorem State.setSnap_excPol (n : Nat) (c : Option Snap) : (s.setSnap n c).excPol = s.excPol := rfl
@[simp] theorem State.setSnap_mirror (n : Nat) (c : Option Snap) : (s.setSnap n c).mirror = s.mirror := rfl
@[simp] theorem State.setSnap_tm (n : Nat) (c : Option Snap) : (s.setSnap n c).tm = s.tm := rfl
@[simp] theorem State.setSnap_ts (n : Nat) (c : Option Snap) : (s.setSnap n c).ts = s.ts := rfl
@[simp] theorem State.setSnap_wb (n : Nat) (c : Option Snap) : (s.setSnap n c).wb = s.wb := rfl
@[simp] theorem State.setSnap_ost (n : Nat) (c : Option Snap) : (s.setSnap n c).ost = s.ost := rfl
@[simp] theorem State.setSnap_dma (n : Nat) (c : Option Snap) : (s.setSnap n c).dma = s.dma := rfl
@[simp] theorem State.setSnap_pw (n : Nat) (c : Option Snap) : (s.setSnap n c).pw = s.pw := rfl
@[simp] theorem State.setSnap_pres (n : Nat) (c : Option Snap) : (s.setSnap n c).pres = s.pres := rfl
@[simp] theorem State.setSnap_side (n : Nat) (c : Option Snap) : (s.setSnap n c).side = s.side := rfl
@[simp] theorem State.setSnap_holds (n : Nat) (c : Option Snap) : (s.setSnap n c).holds = s.holds := rfl

/-! ### setRegion -/

@[simp] theorem State.setRegion_pending (r : Nat) (q : RegionSt) : (s.setRegion r q).pending = s.pending := rfl
@[simp] theorem State.setRegion_regs (r : Nat) (q : RegionSt) : (s.setRegion r q).regs = s.regs := rfl
@[simp] theorem State.setRegion_pendRegs (r : Nat) (q : RegionSt) : (s.setRegion r q).pendRegs = s.pendRegs := rfl
@[simp] theorem State.setRegion_lateRegs (r : Nat) (q : RegionSt) : (s.setRegion r q).lateRegs = s.lateRegs := rfl
@[simp] theorem State.setRegion_cnts (r : Nat) (q : RegionSt) : (s.setRegion r q).cnts = s.cnts := rfl
@[simp] theorem State.setRegion_fuse (r : Nat) (q : RegionSt) : (s.setRegion r q).fuse = s.fuse := rfl
@[simp] theorem State.setRegion_t16 (r : Nat) (q : RegionSt) : (s.setRegion r q).t16 = s.t16 := rfl
@[simp] theorem State.setRegion_time (r : Nat) (q : RegionSt) : (s.setRegion r q).time = s.time := rfl
@[simp] theorem State.setRegion_freeIx (r : Nat) (q : RegionSt) : (s.setRegion r q).freeIx = s.freeIx := rfl
@[simp] theorem State.setRegion_outbox (r : Nat) (q : RegionSt) : (s.setRegion r q).outbox = s.outbox := rfl
@[simp] theorem State.setRegion_irq (r : Nat) (q : RegionSt) : (s.setRegion r q).irq = s.irq := rfl
@[simp] theorem State.setRegion_ports (r : Nat) (q : RegionSt) : (s.setRegion r q).ports = s.ports := rfl
@[simp] theorem State.setRegion_lanes (r : Nat) (q : RegionSt) : (s.setRegion r q).lanes = s.lanes := rfl
@[simp] theorem State.setRegion_pipes (r : Nat) (q : RegionSt) : (s.setRegion r q).pipes = s.pipes := rfl
@[simp] theorem State.setRegion_em (r : Nat) (q : RegionSt) : (s.setRegion r q).em = s.em := rfl
@[simp] theorem State.setRegion_tc (r : Nat) (q : RegionSt) : (s.setRegion r q).tc = s.tc := rfl
@[simp] theorem State.setRegion_gmask (r : Nat) (q : RegionSt) : (s.setRegion r q).gmask = s.gmask := rfl
@[simp] theorem State.setRegion_uc (r : Nat) (q : RegionSt) : (s.setRegion r q).uc = s.uc := rfl
@[simp] theorem State.setRegion_ver (r : Nat) (q : RegionSt) : (s.setRegion r q).ver = s.ver := rfl
@[simp] theorem State.setRegion_bpm (r : Nat) (q : RegionSt) : (s.setRegion r q).bpm = s.bpm := rfl
@[simp] theorem State.setRegion_excPol (r : Nat) (q : RegionSt) : (s.setRegion r q).excPol = s.excPol := rfl
@[simp] theorem State.setRegion_mirror (r : Nat) (q : RegionSt) : (s.setRegion r q).mirror = s.mirror := rfl
@[simp] theorem State.setRegion_tm (r : Nat) (q : RegionSt) : (s.setRegion r q).tm = s.tm := rfl
@[simp] theorem State.setRegion_ts (r : Nat) (q : RegionSt) : (s.setRegion r q).ts = s.ts := rfl
@[simp] theorem State.setRegion_wb (r : Nat) (q : RegionSt) : (s.setRegion r q).wb = s.wb := rfl
@[simp] theorem State.setRegion_ost (r : Nat) (q : RegionSt) : (s.setRegion r q).ost = s.ost := rfl
@[simp] theorem State.setRegion_ctr (r : Nat) (q : RegionSt) : (s.setRegion r q).ctr = s.ctr := rfl
@[simp] theorem State.setRegion_dma (r : Nat) (q : RegionSt) : (s.setRegion r q).dma = s.dma := rfl
@[simp] theorem State.setRegion_pres (r : Nat) (q : RegionSt) : (s.setRegion r q).pres = s.pres := rfl
@[simp] theorem State.setRegion_side (r : Nat) (q : RegionSt) : (s.setRegion r q).side = s.side := rfl
@[simp] theorem State.setRegion_holds (r : Nat) (q : RegionSt) : (s.setRegion r q).holds = s.holds := rfl

/-! ### setTime -/

@[simp] theorem State.setTime_pending (t : TimeSt) : (s.setTime t).pending = s.pending := rfl
@[simp] theorem State.setTime_regs (t : TimeSt) : (s.setTime t).regs = s.regs := rfl
@[simp] theorem State.setTime_pendRegs (t : TimeSt) : (s.setTime t).pendRegs = s.pendRegs := rfl
@[simp] theorem State.setTime_lateRegs (t : TimeSt) : (s.setTime t).lateRegs = s.lateRegs := rfl
@[simp] theorem State.setTime_cnts (t : TimeSt) : (s.setTime t).cnts = s.cnts := rfl
@[simp] theorem State.setTime_fuse (t : TimeSt) : (s.setTime t).fuse = s.fuse := rfl
@[simp] theorem State.setTime_t16 (t : TimeSt) : (s.setTime t).t16 = s.t16 := rfl
@[simp] theorem State.setTime_freeIx (t : TimeSt) : (s.setTime t).freeIx = s.freeIx := rfl
@[simp] theorem State.setTime_outbox (t : TimeSt) : (s.setTime t).outbox = s.outbox := rfl
@[simp] theorem State.setTime_irq (t : TimeSt) : (s.setTime t).irq = s.irq := rfl
@[simp] theorem State.setTime_ports (t : TimeSt) : (s.setTime t).ports = s.ports := rfl
@[simp] theorem State.setTime_lanes (t : TimeSt) : (s.setTime t).lanes = s.lanes := rfl
@[simp] theorem State.setTime_pipes (t : TimeSt) : (s.setTime t).pipes = s.pipes := rfl
@[simp] theorem State.setTime_em (t : TimeSt) : (s.setTime t).em = s.em := rfl
@[simp] theorem State.setTime_tc (t : TimeSt) : (s.setTime t).tc = s.tc := rfl
@[simp] theorem State.setTime_gmask (t : TimeSt) : (s.setTime t).gmask = s.gmask := rfl
@[simp] theorem State.setTime_uc (t : TimeSt) : (s.setTime t).uc = s.uc := rfl
@[simp] theorem State.setTime_ver (t : TimeSt) : (s.setTime t).ver = s.ver := rfl
@[simp] theorem State.setTime_bpm (t : TimeSt) : (s.setTime t).bpm = s.bpm := rfl
@[simp] theorem State.setTime_excPol (t : TimeSt) : (s.setTime t).excPol = s.excPol := rfl
@[simp] theorem State.setTime_mirror (t : TimeSt) : (s.setTime t).mirror = s.mirror := rfl
@[simp] theorem State.setTime_tm (t : TimeSt) : (s.setTime t).tm = s.tm := rfl
@[simp] theorem State.setTime_ts (t : TimeSt) : (s.setTime t).ts = s.ts := rfl
@[simp] theorem State.setTime_wb (t : TimeSt) : (s.setTime t).wb = s.wb := rfl
@[simp] theorem State.setTime_ost (t : TimeSt) : (s.setTime t).ost = s.ost := rfl
@[simp] theorem State.setTime_ctr (t : TimeSt) : (s.setTime t).ctr = s.ctr := rfl
@[simp] theorem State.setTime_dma (t : TimeSt) : (s.setTime t).dma = s.dma := rfl
@[simp] theorem State.setTime_pw (t : TimeSt) : (s.setTime t).pw = s.pw := rfl
@[simp] theorem State.setTime_pres (t : TimeSt) : (s.setTime t).pres = s.pres := rfl
@[simp] theorem State.setTime_side (t : TimeSt) : (s.setTime t).side = s.side := rfl
@[simp] theorem State.setTime_holds (t : TimeSt) : (s.setTime t).holds = s.holds := rfl

/-! ### setPps -/

@[simp] theorem State.setPps_pending (k : Nat) (p : PpsSt) : (s.setPps k p).pending = s.pending := rfl
@[simp] theorem State.setPps_regs (k : Nat) (p : PpsSt) : (s.setPps k p).regs = s.regs := rfl
@[simp] theorem State.setPps_pendRegs (k : Nat) (p : PpsSt) : (s.setPps k p).pendRegs = s.pendRegs := rfl
@[simp] theorem State.setPps_lateRegs (k : Nat) (p : PpsSt) : (s.setPps k p).lateRegs = s.lateRegs := rfl
@[simp] theorem State.setPps_cnts (k : Nat) (p : PpsSt) : (s.setPps k p).cnts = s.cnts := rfl
@[simp] theorem State.setPps_fuse (k : Nat) (p : PpsSt) : (s.setPps k p).fuse = s.fuse := rfl
@[simp] theorem State.setPps_t16 (k : Nat) (p : PpsSt) : (s.setPps k p).t16 = s.t16 := rfl
@[simp] theorem State.setPps_freeIx (k : Nat) (p : PpsSt) : (s.setPps k p).freeIx = s.freeIx := rfl
@[simp] theorem State.setPps_outbox (k : Nat) (p : PpsSt) : (s.setPps k p).outbox = s.outbox := rfl
@[simp] theorem State.setPps_irq (k : Nat) (p : PpsSt) : (s.setPps k p).irq = s.irq := rfl
@[simp] theorem State.setPps_ports (k : Nat) (p : PpsSt) : (s.setPps k p).ports = s.ports := rfl
@[simp] theorem State.setPps_lanes (k : Nat) (p : PpsSt) : (s.setPps k p).lanes = s.lanes := rfl
@[simp] theorem State.setPps_pipes (k : Nat) (p : PpsSt) : (s.setPps k p).pipes = s.pipes := rfl
@[simp] theorem State.setPps_em (k : Nat) (p : PpsSt) : (s.setPps k p).em = s.em := rfl
@[simp] theorem State.setPps_tc (k : Nat) (p : PpsSt) : (s.setPps k p).tc = s.tc := rfl
@[simp] theorem State.setPps_gmask (k : Nat) (p : PpsSt) : (s.setPps k p).gmask = s.gmask := rfl
@[simp] theorem State.setPps_uc (k : Nat) (p : PpsSt) : (s.setPps k p).uc = s.uc := rfl
@[simp] theorem State.setPps_ver (k : Nat) (p : PpsSt) : (s.setPps k p).ver = s.ver := rfl
@[simp] theorem State.setPps_bpm (k : Nat) (p : PpsSt) : (s.setPps k p).bpm = s.bpm := rfl
@[simp] theorem State.setPps_excPol (k : Nat) (p : PpsSt) : (s.setPps k p).excPol = s.excPol := rfl
@[simp] theorem State.setPps_mirror (k : Nat) (p : PpsSt) : (s.setPps k p).mirror = s.mirror := rfl
@[simp] theorem State.setPps_tm (k : Nat) (p : PpsSt) : (s.setPps k p).tm = s.tm := rfl
@[simp] theorem State.setPps_ts (k : Nat) (p : PpsSt) : (s.setPps k p).ts = s.ts := rfl
@[simp] theorem State.setPps_wb (k : Nat) (p : PpsSt) : (s.setPps k p).wb = s.wb := rfl
@[simp] theorem State.setPps_ost (k : Nat) (p : PpsSt) : (s.setPps k p).ost = s.ost := rfl
@[simp] theorem State.setPps_ctr (k : Nat) (p : PpsSt) : (s.setPps k p).ctr = s.ctr := rfl
@[simp] theorem State.setPps_dma (k : Nat) (p : PpsSt) : (s.setPps k p).dma = s.dma := rfl
@[simp] theorem State.setPps_pw (k : Nat) (p : PpsSt) : (s.setPps k p).pw = s.pw := rfl
@[simp] theorem State.setPps_pres (k : Nat) (p : PpsSt) : (s.setPps k p).pres = s.pres := rfl
@[simp] theorem State.setPps_side (k : Nat) (p : PpsSt) : (s.setPps k p).side = s.side := rfl
@[simp] theorem State.setPps_holds (k : Nat) (p : PpsSt) : (s.setPps k p).holds = s.holds := rfl

/-! ### setEvt -/

@[simp] theorem State.setEvt_pending (k : Nat) (p : EvtSt) : (s.setEvt k p).pending = s.pending := rfl
@[simp] theorem State.setEvt_regs (k : Nat) (p : EvtSt) : (s.setEvt k p).regs = s.regs := rfl
@[simp] theorem State.setEvt_pendRegs (k : Nat) (p : EvtSt) : (s.setEvt k p).pendRegs = s.pendRegs := rfl
@[simp] theorem State.setEvt_lateRegs (k : Nat) (p : EvtSt) : (s.setEvt k p).lateRegs = s.lateRegs := rfl
@[simp] theorem State.setEvt_cnts (k : Nat) (p : EvtSt) : (s.setEvt k p).cnts = s.cnts := rfl
@[simp] theorem State.setEvt_fuse (k : Nat) (p : EvtSt) : (s.setEvt k p).fuse = s.fuse := rfl
@[simp] theorem State.setEvt_t16 (k : Nat) (p : EvtSt) : (s.setEvt k p).t16 = s.t16 := rfl
@[simp] theorem State.setEvt_freeIx (k : Nat) (p : EvtSt) : (s.setEvt k p).freeIx = s.freeIx := rfl
@[simp] theorem State.setEvt_outbox (k : Nat) (p : EvtSt) : (s.setEvt k p).outbox = s.outbox := rfl
@[simp] theorem State.setEvt_irq (k : Nat) (p : EvtSt) : (s.setEvt k p).irq = s.irq := rfl
@[simp] theorem State.setEvt_ports (k : Nat) (p : EvtSt) : (s.setEvt k p).ports = s.ports := rfl
@[simp] theorem State.setEvt_lanes (k : Nat) (p : EvtSt) : (s.setEvt k p).lanes = s.lanes := rfl
@[simp] theorem State.setEvt_pipes (k : Nat) (p : EvtSt) : (s.setEvt k p).pipes = s.pipes := rfl
@[simp] theorem State.setEvt_em (k : Nat) (p : EvtSt) : (s.setEvt k p).em = s.em := rfl
@[simp] theorem State.setEvt_tc (k : Nat) (p : EvtSt) : (s.setEvt k p).tc = s.tc := rfl
@[simp] theorem State.setEvt_gmask (k : Nat) (p : EvtSt) : (s.setEvt k p).gmask = s.gmask := rfl
@[simp] theorem State.setEvt_uc (k : Nat) (p : EvtSt) : (s.setEvt k p).uc = s.uc := rfl
@[simp] theorem State.setEvt_ver (k : Nat) (p : EvtSt) : (s.setEvt k p).ver = s.ver := rfl
@[simp] theorem State.setEvt_bpm (k : Nat) (p : EvtSt) : (s.setEvt k p).bpm = s.bpm := rfl
@[simp] theorem State.setEvt_excPol (k : Nat) (p : EvtSt) : (s.setEvt k p).excPol = s.excPol := rfl
@[simp] theorem State.setEvt_mirror (k : Nat) (p : EvtSt) : (s.setEvt k p).mirror = s.mirror := rfl
@[simp] theorem State.setEvt_tm (k : Nat) (p : EvtSt) : (s.setEvt k p).tm = s.tm := rfl
@[simp] theorem State.setEvt_ts (k : Nat) (p : EvtSt) : (s.setEvt k p).ts = s.ts := rfl
@[simp] theorem State.setEvt_wb (k : Nat) (p : EvtSt) : (s.setEvt k p).wb = s.wb := rfl
@[simp] theorem State.setEvt_ost (k : Nat) (p : EvtSt) : (s.setEvt k p).ost = s.ost := rfl
@[simp] theorem State.setEvt_ctr (k : Nat) (p : EvtSt) : (s.setEvt k p).ctr = s.ctr := rfl
@[simp] theorem State.setEvt_dma (k : Nat) (p : EvtSt) : (s.setEvt k p).dma = s.dma := rfl
@[simp] theorem State.setEvt_pw (k : Nat) (p : EvtSt) : (s.setEvt k p).pw = s.pw := rfl
@[simp] theorem State.setEvt_pres (k : Nat) (p : EvtSt) : (s.setEvt k p).pres = s.pres := rfl
@[simp] theorem State.setEvt_side (k : Nat) (p : EvtSt) : (s.setEvt k p).side = s.side := rfl
@[simp] theorem State.setEvt_holds (k : Nat) (p : EvtSt) : (s.setEvt k p).holds = s.holds := rfl

/-! ### setRecl -/

@[simp] theorem State.setRecl_pending (n : Nat) (x : Option Recl) : (s.setRecl n x).pending = s.pending := rfl
@[simp] theorem State.setRecl_regs (n : Nat) (x : Option Recl) : (s.setRecl n x).regs = s.regs := rfl
@[simp] theorem State.setRecl_pendRegs (n : Nat) (x : Option Recl) : (s.setRecl n x).pendRegs = s.pendRegs := rfl
@[simp] theorem State.setRecl_lateRegs (n : Nat) (x : Option Recl) : (s.setRecl n x).lateRegs = s.lateRegs := rfl
@[simp] theorem State.setRecl_cnts (n : Nat) (x : Option Recl) : (s.setRecl n x).cnts = s.cnts := rfl
@[simp] theorem State.setRecl_fuse (n : Nat) (x : Option Recl) : (s.setRecl n x).fuse = s.fuse := rfl
@[simp] theorem State.setRecl_t16 (n : Nat) (x : Option Recl) : (s.setRecl n x).t16 = s.t16 := rfl
@[simp] theorem State.setRecl_time (n : Nat) (x : Option Recl) : (s.setRecl n x).time = s.time := rfl
@[simp] theorem State.setRecl_freeIx (n : Nat) (x : Option Recl) : (s.setRecl n x).freeIx = s.freeIx := rfl
@[simp] theorem State.setRecl_outbox (n : Nat) (x : Option Recl) : (s.setRecl n x).outbox = s.outbox := rfl
@[simp] theorem State.setRecl_irq (n : Nat) (x : Option Recl) : (s.setRecl n x).irq = s.irq := rfl
@[simp] theorem State.setRecl_ports (n : Nat) (x : Option Recl) : (s.setRecl n x).ports = s.ports := rfl
@[simp] theorem State.setRecl_lanes (n : Nat) (x : Option Recl) : (s.setRecl n x).lanes = s.lanes := rfl
@[simp] theorem State.setRecl_pipes (n : Nat) (x : Option Recl) : (s.setRecl n x).pipes = s.pipes := rfl
@[simp] theorem State.setRecl_em (n : Nat) (x : Option Recl) : (s.setRecl n x).em = s.em := rfl
@[simp] theorem State.setRecl_tc (n : Nat) (x : Option Recl) : (s.setRecl n x).tc = s.tc := rfl
@[simp] theorem State.setRecl_gmask (n : Nat) (x : Option Recl) : (s.setRecl n x).gmask = s.gmask := rfl
@[simp] theorem State.setRecl_uc (n : Nat) (x : Option Recl) : (s.setRecl n x).uc = s.uc := rfl
@[simp] theorem State.setRecl_ver (n : Nat) (x : Option Recl) : (s.setRecl n x).ver = s.ver := rfl
@[simp] theorem State.setRecl_excPol (n : Nat) (x : Option Recl) : (s.setRecl n x).excPol = s.excPol := rfl
@[simp] theorem State.setRecl_mirror (n : Nat) (x : Option Recl) : (s.setRecl n x).mirror = s.mirror := rfl
@[simp] theorem State.setRecl_tm (n : Nat) (x : Option Recl) : (s.setRecl n x).tm = s.tm := rfl
@[simp] theorem State.setRecl_ts (n : Nat) (x : Option Recl) : (s.setRecl n x).ts = s.ts := rfl
@[simp] theorem State.setRecl_wb (n : Nat) (x : Option Recl) : (s.setRecl n x).wb = s.wb := rfl
@[simp] theorem State.setRecl_ost (n : Nat) (x : Option Recl) : (s.setRecl n x).ost = s.ost := rfl
@[simp] theorem State.setRecl_ctr (n : Nat) (x : Option Recl) : (s.setRecl n x).ctr = s.ctr := rfl
@[simp] theorem State.setRecl_dma (n : Nat) (x : Option Recl) : (s.setRecl n x).dma = s.dma := rfl
@[simp] theorem State.setRecl_pw (n : Nat) (x : Option Recl) : (s.setRecl n x).pw = s.pw := rfl
@[simp] theorem State.setRecl_pres (n : Nat) (x : Option Recl) : (s.setRecl n x).pres = s.pres := rfl
@[simp] theorem State.setRecl_side (n : Nat) (x : Option Recl) : (s.setRecl n x).side = s.side := rfl
@[simp] theorem State.setRecl_holds (n : Nat) (x : Option Recl) : (s.setRecl n x).holds = s.holds := rfl

/-! ### setPitEnter -/

@[simp] theorem State.setPitEnter_pending (ns : List Nat) : (s.setPitEnter ns).pending = s.pending := rfl
@[simp] theorem State.setPitEnter_regs (ns : List Nat) : (s.setPitEnter ns).regs = s.regs := rfl
@[simp] theorem State.setPitEnter_pendRegs (ns : List Nat) : (s.setPitEnter ns).pendRegs = s.pendRegs := rfl
@[simp] theorem State.setPitEnter_lateRegs (ns : List Nat) : (s.setPitEnter ns).lateRegs = s.lateRegs := rfl
@[simp] theorem State.setPitEnter_cnts (ns : List Nat) : (s.setPitEnter ns).cnts = s.cnts := rfl
@[simp] theorem State.setPitEnter_fuse (ns : List Nat) : (s.setPitEnter ns).fuse = s.fuse := rfl
@[simp] theorem State.setPitEnter_t16 (ns : List Nat) : (s.setPitEnter ns).t16 = s.t16 := rfl
@[simp] theorem State.setPitEnter_time (ns : List Nat) : (s.setPitEnter ns).time = s.time := rfl
@[simp] theorem State.setPitEnter_freeIx (ns : List Nat) : (s.setPitEnter ns).freeIx = s.freeIx := rfl
@[simp] theorem State.setPitEnter_outbox (ns : List Nat) : (s.setPitEnter ns).outbox = s.outbox := rfl
@[simp] theorem State.setPitEnter_ports (ns : List Nat) : (s.setPitEnter ns).ports = s.ports := rfl
@[simp] theorem State.setPitEnter_lanes (ns : List Nat) : (s.setPitEnter ns).lanes = s.lanes := rfl
@[simp] theorem State.setPitEnter_pipes (ns : List Nat) : (s.setPitEnter ns).pipes = s.pipes := rfl
@[simp] theorem State.setPitEnter_em (ns : List Nat) : (s.setPitEnter ns).em = s.em := rfl
@[simp] theorem State.setPitEnter_tc (ns : List Nat) : (s.setPitEnter ns).tc = s.tc := rfl
@[simp] theorem State.setPitEnter_gmask (ns : List Nat) : (s.setPitEnter ns).gmask = s.gmask := rfl
@[simp] theorem State.setPitEnter_uc (ns : List Nat) : (s.setPitEnter ns).uc = s.uc := rfl
@[simp] theorem State.setPitEnter_ver (ns : List Nat) : (s.setPitEnter ns).ver = s.ver := rfl
@[simp] theorem State.setPitEnter_bpm (ns : List Nat) : (s.setPitEnter ns).bpm = s.bpm := rfl
@[simp] theorem State.setPitEnter_excPol (ns : List Nat) : (s.setPitEnter ns).excPol = s.excPol := rfl
@[simp] theorem State.setPitEnter_mirror (ns : List Nat) : (s.setPitEnter ns).mirror = s.mirror := rfl
@[simp] theorem State.setPitEnter_tm (ns : List Nat) : (s.setPitEnter ns).tm = s.tm := rfl
@[simp] theorem State.setPitEnter_ts (ns : List Nat) : (s.setPitEnter ns).ts = s.ts := rfl
@[simp] theorem State.setPitEnter_wb (ns : List Nat) : (s.setPitEnter ns).wb = s.wb := rfl
@[simp] theorem State.setPitEnter_ost (ns : List Nat) : (s.setPitEnter ns).ost = s.ost := rfl
@[simp] theorem State.setPitEnter_ctr (ns : List Nat) : (s.setPitEnter ns).ctr = s.ctr := rfl
@[simp] theorem State.setPitEnter_dma (ns : List Nat) : (s.setPitEnter ns).dma = s.dma := rfl
@[simp] theorem State.setPitEnter_pw (ns : List Nat) : (s.setPitEnter ns).pw = s.pw := rfl
@[simp] theorem State.setPitEnter_pres (ns : List Nat) : (s.setPitEnter ns).pres = s.pres := rfl
@[simp] theorem State.setPitEnter_side (ns : List Nat) : (s.setPitEnter ns).side = s.side := rfl
@[simp] theorem State.setPitEnter_holds (ns : List Nat) : (s.setPitEnter ns).holds = s.holds := rfl

/-! ### setHist -/

@[simp] theorem State.setHist_pending (n : Nat) (q : List HistEntry) : (s.setHist n q).pending = s.pending := rfl
@[simp] theorem State.setHist_regs (n : Nat) (q : List HistEntry) : (s.setHist n q).regs = s.regs := rfl
@[simp] theorem State.setHist_pendRegs (n : Nat) (q : List HistEntry) : (s.setHist n q).pendRegs = s.pendRegs := rfl
@[simp] theorem State.setHist_lateRegs (n : Nat) (q : List HistEntry) : (s.setHist n q).lateRegs = s.lateRegs := rfl
@[simp] theorem State.setHist_cnts (n : Nat) (q : List HistEntry) : (s.setHist n q).cnts = s.cnts := rfl
@[simp] theorem State.setHist_fuse (n : Nat) (q : List HistEntry) : (s.setHist n q).fuse = s.fuse := rfl
@[simp] theorem State.setHist_t16 (n : Nat) (q : List HistEntry) : (s.setHist n q).t16 = s.t16 := rfl
@[simp] theorem State.setHist_time (n : Nat) (q : List HistEntry) : (s.setHist n q).time = s.time := rfl
@[simp] theorem State.setHist_freeIx (n : Nat) (q : List HistEntry) : (s.setHist n q).freeIx = s.freeIx := rfl
@[simp] theorem State.setHist_outbox (n : Nat) (q : List HistEntry) : (s.setHist n q).outbox = s.outbox := rfl
@[simp] theorem State.setHist_ports (n : Nat) (q : List HistEntry) : (s.setHist n q).ports = s.ports := rfl
@[simp] theorem State.setHist_lanes (n : Nat) (q : List HistEntry) : (s.setHist n q).lanes = s.lanes := rfl
@[simp] theorem State.setHist_pipes (n : Nat) (q : List HistEntry) : (s.setHist n q).pipes = s.pipes := rfl
@[simp] theorem State.setHist_em (n : Nat) (q : List HistEntry) : (s.setHist n q).em = s.em := rfl
@[simp] theorem State.setHist_tc (n : Nat) (q : List HistEntry) : (s.setHist n q).tc = s.tc := rfl
@[simp] theorem State.setHist_gmask (n : Nat) (q : List HistEntry) : (s.setHist n q).gmask = s.gmask := rfl
@[simp] theorem State.setHist_uc (n : Nat) (q : List HistEntry) : (s.setHist n q).uc = s.uc := rfl
@[simp] theorem State.setHist_ver (n : Nat) (q : List HistEntry) : (s.setHist n q).ver = s.ver := rfl
@[simp] theorem State.setHist_bpm (n : Nat) (q : List HistEntry) : (s.setHist n q).bpm = s.bpm := rfl
@[simp] theorem State.setHist_excPol (n : Nat) (q : List HistEntry) : (s.setHist n q).excPol = s.excPol := rfl
@[simp] theorem State.setHist_mirror (n : Nat) (q : List HistEntry) : (s.setHist n q).mirror = s.mirror := rfl
@[simp] theorem State.setHist_tm (n : Nat) (q : List HistEntry) : (s.setHist n q).tm = s.tm := rfl
@[simp] theorem State.setHist_ts (n : Nat) (q : List HistEntry) : (s.setHist n q).ts = s.ts := rfl
@[simp] theorem State.setHist_wb (n : Nat) (q : List HistEntry) : (s.setHist n q).wb = s.wb := rfl
@[simp] theorem State.setHist_ost (n : Nat) (q : List HistEntry) : (s.setHist n q).ost = s.ost := rfl
@[simp] theorem State.setHist_ctr (n : Nat) (q : List HistEntry) : (s.setHist n q).ctr = s.ctr := rfl
@[simp] theorem State.setHist_dma (n : Nat) (q : List HistEntry) : (s.setHist n q).dma = s.dma := rfl
@[simp] theorem State.setHist_pw (n : Nat) (q : List HistEntry) : (s.setHist n q).pw = s.pw := rfl
@[simp] theorem State.setHist_pres (n : Nat) (q : List HistEntry) : (s.setHist n q).pres = s.pres := rfl
@[simp] theorem State.setHist_side (n : Nat) (q : List HistEntry) : (s.setHist n q).side = s.side := rfl
@[simp] theorem State.setHist_holds (n : Nat) (q : List HistEntry) : (s.setHist n q).holds = s.holds := rfl

/-! ### setEng -/

@[simp] theorem State.setEng_pending (e : Nat) (n : Option Nat) : (s.setEng e n).pending = s.pending := rfl
@[simp] theorem State.setEng_regs (e : Nat) (n : Option Nat) : (s.setEng e n).regs = s.regs := rfl
@[simp] theorem State.setEng_pendRegs (e : Nat) (n : Option Nat) : (s.setEng e n).pendRegs = s.pendRegs := rfl
@[simp] theorem State.setEng_lateRegs (e : Nat) (n : Option Nat) : (s.setEng e n).lateRegs = s.lateRegs := rfl
@[simp] theorem State.setEng_cnts (e : Nat) (n : Option Nat) : (s.setEng e n).cnts = s.cnts := rfl
@[simp] theorem State.setEng_fuse (e : Nat) (n : Option Nat) : (s.setEng e n).fuse = s.fuse := rfl
@[simp] theorem State.setEng_t16 (e : Nat) (n : Option Nat) : (s.setEng e n).t16 = s.t16 := rfl
@[simp] theorem State.setEng_time (e : Nat) (n : Option Nat) : (s.setEng e n).time = s.time := rfl
@[simp] theorem State.setEng_freeIx (e : Nat) (n : Option Nat) : (s.setEng e n).freeIx = s.freeIx := rfl
@[simp] theorem State.setEng_outbox (e : Nat) (n : Option Nat) : (s.setEng e n).outbox = s.outbox := rfl
@[simp] theorem State.setEng_irq (e : Nat) (n : Option Nat) : (s.setEng e n).irq = s.irq := rfl
@[simp] theorem State.setEng_ports (e : Nat) (n : Option Nat) : (s.setEng e n).ports = s.ports := rfl
@[simp] theorem State.setEng_lanes (e : Nat) (n : Option Nat) : (s.setEng e n).lanes = s.lanes := rfl
@[simp] theorem State.setEng_pipes (e : Nat) (n : Option Nat) : (s.setEng e n).pipes = s.pipes := rfl
@[simp] theorem State.setEng_em (e : Nat) (n : Option Nat) : (s.setEng e n).em = s.em := rfl
@[simp] theorem State.setEng_tc (e : Nat) (n : Option Nat) : (s.setEng e n).tc = s.tc := rfl
@[simp] theorem State.setEng_gmask (e : Nat) (n : Option Nat) : (s.setEng e n).gmask = s.gmask := rfl
@[simp] theorem State.setEng_uc (e : Nat) (n : Option Nat) : (s.setEng e n).uc = s.uc := rfl
@[simp] theorem State.setEng_ver (e : Nat) (n : Option Nat) : (s.setEng e n).ver = s.ver := rfl
@[simp] theorem State.setEng_bpm (e : Nat) (n : Option Nat) : (s.setEng e n).bpm = s.bpm := rfl
@[simp] theorem State.setEng_excPol (e : Nat) (n : Option Nat) : (s.setEng e n).excPol = s.excPol := rfl
@[simp] theorem State.setEng_mirror (e : Nat) (n : Option Nat) : (s.setEng e n).mirror = s.mirror := rfl
@[simp] theorem State.setEng_tm (e : Nat) (n : Option Nat) : (s.setEng e n).tm = s.tm := rfl
@[simp] theorem State.setEng_ts (e : Nat) (n : Option Nat) : (s.setEng e n).ts = s.ts := rfl
@[simp] theorem State.setEng_ost (e : Nat) (n : Option Nat) : (s.setEng e n).ost = s.ost := rfl
@[simp] theorem State.setEng_ctr (e : Nat) (n : Option Nat) : (s.setEng e n).ctr = s.ctr := rfl
@[simp] theorem State.setEng_dma (e : Nat) (n : Option Nat) : (s.setEng e n).dma = s.dma := rfl
@[simp] theorem State.setEng_pw (e : Nat) (n : Option Nat) : (s.setEng e n).pw = s.pw := rfl
@[simp] theorem State.setEng_pres (e : Nat) (n : Option Nat) : (s.setEng e n).pres = s.pres := rfl
@[simp] theorem State.setEng_side (e : Nat) (n : Option Nat) : (s.setEng e n).side = s.side := rfl
@[simp] theorem State.setEng_holds (e : Nat) (n : Option Nat) : (s.setEng e n).holds = s.holds := rfl

/-! ### setNoKey -/

@[simp] theorem State.setNoKey_pending (n : Nat) (b : Bool) : (s.setNoKey n b).pending = s.pending := rfl
@[simp] theorem State.setNoKey_regs (n : Nat) (b : Bool) : (s.setNoKey n b).regs = s.regs := rfl
@[simp] theorem State.setNoKey_pendRegs (n : Nat) (b : Bool) : (s.setNoKey n b).pendRegs = s.pendRegs := rfl
@[simp] theorem State.setNoKey_lateRegs (n : Nat) (b : Bool) : (s.setNoKey n b).lateRegs = s.lateRegs := rfl
@[simp] theorem State.setNoKey_cnts (n : Nat) (b : Bool) : (s.setNoKey n b).cnts = s.cnts := rfl
@[simp] theorem State.setNoKey_fuse (n : Nat) (b : Bool) : (s.setNoKey n b).fuse = s.fuse := rfl
@[simp] theorem State.setNoKey_t16 (n : Nat) (b : Bool) : (s.setNoKey n b).t16 = s.t16 := rfl
@[simp] theorem State.setNoKey_time (n : Nat) (b : Bool) : (s.setNoKey n b).time = s.time := rfl
@[simp] theorem State.setNoKey_freeIx (n : Nat) (b : Bool) : (s.setNoKey n b).freeIx = s.freeIx := rfl
@[simp] theorem State.setNoKey_outbox (n : Nat) (b : Bool) : (s.setNoKey n b).outbox = s.outbox := rfl
@[simp] theorem State.setNoKey_irq (n : Nat) (b : Bool) : (s.setNoKey n b).irq = s.irq := rfl
@[simp] theorem State.setNoKey_ports (n : Nat) (b : Bool) : (s.setNoKey n b).ports = s.ports := rfl
@[simp] theorem State.setNoKey_lanes (n : Nat) (b : Bool) : (s.setNoKey n b).lanes = s.lanes := rfl
@[simp] theorem State.setNoKey_pipes (n : Nat) (b : Bool) : (s.setNoKey n b).pipes = s.pipes := rfl
@[simp] theorem State.setNoKey_em (n : Nat) (b : Bool) : (s.setNoKey n b).em = s.em := rfl
@[simp] theorem State.setNoKey_tc (n : Nat) (b : Bool) : (s.setNoKey n b).tc = s.tc := rfl
@[simp] theorem State.setNoKey_gmask (n : Nat) (b : Bool) : (s.setNoKey n b).gmask = s.gmask := rfl
@[simp] theorem State.setNoKey_uc (n : Nat) (b : Bool) : (s.setNoKey n b).uc = s.uc := rfl
@[simp] theorem State.setNoKey_ver (n : Nat) (b : Bool) : (s.setNoKey n b).ver = s.ver := rfl
@[simp] theorem State.setNoKey_bpm (n : Nat) (b : Bool) : (s.setNoKey n b).bpm = s.bpm := rfl
@[simp] theorem State.setNoKey_excPol (n : Nat) (b : Bool) : (s.setNoKey n b).excPol = s.excPol := rfl
@[simp] theorem State.setNoKey_mirror (n : Nat) (b : Bool) : (s.setNoKey n b).mirror = s.mirror := rfl
@[simp] theorem State.setNoKey_tm (n : Nat) (b : Bool) : (s.setNoKey n b).tm = s.tm := rfl
@[simp] theorem State.setNoKey_ts (n : Nat) (b : Bool) : (s.setNoKey n b).ts = s.ts := rfl
@[simp] theorem State.setNoKey_ost (n : Nat) (b : Bool) : (s.setNoKey n b).ost = s.ost := rfl
@[simp] theorem State.setNoKey_ctr (n : Nat) (b : Bool) : (s.setNoKey n b).ctr = s.ctr := rfl
@[simp] theorem State.setNoKey_dma (n : Nat) (b : Bool) : (s.setNoKey n b).dma = s.dma := rfl
@[simp] theorem State.setNoKey_pw (n : Nat) (b : Bool) : (s.setNoKey n b).pw = s.pw := rfl
@[simp] theorem State.setNoKey_pres (n : Nat) (b : Bool) : (s.setNoKey n b).pres = s.pres := rfl
@[simp] theorem State.setNoKey_side (n : Nat) (b : Bool) : (s.setNoKey n b).side = s.side := rfl
@[simp] theorem State.setNoKey_holds (n : Nat) (b : Bool) : (s.setNoKey n b).holds = s.holds := rfl

/-! ### setI2c -/

@[simp] theorem State.setI2c_pending (m : Nat) (r : I2cRun) : (s.setI2c m r).pending = s.pending := rfl
@[simp] theorem State.setI2c_regs (m : Nat) (r : I2cRun) : (s.setI2c m r).regs = s.regs := rfl
@[simp] theorem State.setI2c_pendRegs (m : Nat) (r : I2cRun) : (s.setI2c m r).pendRegs = s.pendRegs := rfl
@[simp] theorem State.setI2c_lateRegs (m : Nat) (r : I2cRun) : (s.setI2c m r).lateRegs = s.lateRegs := rfl
@[simp] theorem State.setI2c_cnts (m : Nat) (r : I2cRun) : (s.setI2c m r).cnts = s.cnts := rfl
@[simp] theorem State.setI2c_fuse (m : Nat) (r : I2cRun) : (s.setI2c m r).fuse = s.fuse := rfl
@[simp] theorem State.setI2c_t16 (m : Nat) (r : I2cRun) : (s.setI2c m r).t16 = s.t16 := rfl
@[simp] theorem State.setI2c_time (m : Nat) (r : I2cRun) : (s.setI2c m r).time = s.time := rfl
@[simp] theorem State.setI2c_freeIx (m : Nat) (r : I2cRun) : (s.setI2c m r).freeIx = s.freeIx := rfl
@[simp] theorem State.setI2c_outbox (m : Nat) (r : I2cRun) : (s.setI2c m r).outbox = s.outbox := rfl
@[simp] theorem State.setI2c_irq (m : Nat) (r : I2cRun) : (s.setI2c m r).irq = s.irq := rfl
@[simp] theorem State.setI2c_ports (m : Nat) (r : I2cRun) : (s.setI2c m r).ports = s.ports := rfl
@[simp] theorem State.setI2c_lanes (m : Nat) (r : I2cRun) : (s.setI2c m r).lanes = s.lanes := rfl
@[simp] theorem State.setI2c_pipes (m : Nat) (r : I2cRun) : (s.setI2c m r).pipes = s.pipes := rfl
@[simp] theorem State.setI2c_em (m : Nat) (r : I2cRun) : (s.setI2c m r).em = s.em := rfl
@[simp] theorem State.setI2c_tc (m : Nat) (r : I2cRun) : (s.setI2c m r).tc = s.tc := rfl
@[simp] theorem State.setI2c_gmask (m : Nat) (r : I2cRun) : (s.setI2c m r).gmask = s.gmask := rfl
@[simp] theorem State.setI2c_uc (m : Nat) (r : I2cRun) : (s.setI2c m r).uc = s.uc := rfl
@[simp] theorem State.setI2c_ver (m : Nat) (r : I2cRun) : (s.setI2c m r).ver = s.ver := rfl
@[simp] theorem State.setI2c_bpm (m : Nat) (r : I2cRun) : (s.setI2c m r).bpm = s.bpm := rfl
@[simp] theorem State.setI2c_excPol (m : Nat) (r : I2cRun) : (s.setI2c m r).excPol = s.excPol := rfl
@[simp] theorem State.setI2c_mirror (m : Nat) (r : I2cRun) : (s.setI2c m r).mirror = s.mirror := rfl
@[simp] theorem State.setI2c_tm (m : Nat) (r : I2cRun) : (s.setI2c m r).tm = s.tm := rfl
@[simp] theorem State.setI2c_ts (m : Nat) (r : I2cRun) : (s.setI2c m r).ts = s.ts := rfl
@[simp] theorem State.setI2c_wb (m : Nat) (r : I2cRun) : (s.setI2c m r).wb = s.wb := rfl
@[simp] theorem State.setI2c_ost (m : Nat) (r : I2cRun) : (s.setI2c m r).ost = s.ost := rfl
@[simp] theorem State.setI2c_ctr (m : Nat) (r : I2cRun) : (s.setI2c m r).ctr = s.ctr := rfl
@[simp] theorem State.setI2c_dma (m : Nat) (r : I2cRun) : (s.setI2c m r).dma = s.dma := rfl
@[simp] theorem State.setI2c_pw (m : Nat) (r : I2cRun) : (s.setI2c m r).pw = s.pw := rfl
@[simp] theorem State.setI2c_pres (m : Nat) (r : I2cRun) : (s.setI2c m r).pres = s.pres := rfl
@[simp] theorem State.setI2c_holds (m : Nat) (r : I2cRun) : (s.setI2c m r).holds = s.holds := rfl

/-! ### setCmis -/

@[simp] theorem State.setCmis_pending (n : Nat) (q : List Nat) (r : Word × Word × Bytes) : (s.setCmis n q r).pending = s.pending := rfl
@[simp] theorem State.setCmis_regs (n : Nat) (q : List Nat) (r : Word × Word × Bytes) : (s.setCmis n q r).regs = s.regs := rfl
@[simp] theorem State.setCmis_pendRegs (n : Nat) (q : List Nat) (r : Word × Word × Bytes) : (s.setCmis n q r).pendRegs = s.pendRegs := rfl
@[simp] theorem State.setCmis_lateRegs (n : Nat) (q : List Nat) (r : Word × Word × Bytes) : (s.setCmis n q r).lateRegs = s.lateRegs := rfl
@[simp] theorem State.setCmis_cnts (n : Nat) (q : List Nat) (r : Word × Word × Bytes) : (s.setCmis n q r).cnts = s.cnts := rfl
@[simp] theorem State.setCmis_fuse (n : Nat) (q : List Nat) (r : Word × Word × Bytes) : (s.setCmis n q r).fuse = s.fuse := rfl
@[simp] theorem State.setCmis_t16 (n : Nat) (q : List Nat) (r : Word × Word × Bytes) : (s.setCmis n q r).t16 = s.t16 := rfl
@[simp] theorem State.setCmis_time (n : Nat) (q : List Nat) (r : Word × Word × Bytes) : (s.setCmis n q r).time = s.time := rfl
@[simp] theorem State.setCmis_freeIx (n : Nat) (q : List Nat) (r : Word × Word × Bytes) : (s.setCmis n q r).freeIx = s.freeIx := rfl
@[simp] theorem State.setCmis_outbox (n : Nat) (q : List Nat) (r : Word × Word × Bytes) : (s.setCmis n q r).outbox = s.outbox := rfl
@[simp] theorem State.setCmis_irq (n : Nat) (q : List Nat) (r : Word × Word × Bytes) : (s.setCmis n q r).irq = s.irq := rfl
@[simp] theorem State.setCmis_ports (n : Nat) (q : List Nat) (r : Word × Word × Bytes) : (s.setCmis n q r).ports = s.ports := rfl
@[simp] theorem State.setCmis_lanes (n : Nat) (q : List Nat) (r : Word × Word × Bytes) : (s.setCmis n q r).lanes = s.lanes := rfl
@[simp] theorem State.setCmis_pipes (n : Nat) (q : List Nat) (r : Word × Word × Bytes) : (s.setCmis n q r).pipes = s.pipes := rfl
@[simp] theorem State.setCmis_em (n : Nat) (q : List Nat) (r : Word × Word × Bytes) : (s.setCmis n q r).em = s.em := rfl
@[simp] theorem State.setCmis_tc (n : Nat) (q : List Nat) (r : Word × Word × Bytes) : (s.setCmis n q r).tc = s.tc := rfl
@[simp] theorem State.setCmis_gmask (n : Nat) (q : List Nat) (r : Word × Word × Bytes) : (s.setCmis n q r).gmask = s.gmask := rfl
@[simp] theorem State.setCmis_uc (n : Nat) (q : List Nat) (r : Word × Word × Bytes) : (s.setCmis n q r).uc = s.uc := rfl
@[simp] theorem State.setCmis_ver (n : Nat) (q : List Nat) (r : Word × Word × Bytes) : (s.setCmis n q r).ver = s.ver := rfl
@[simp] theorem State.setCmis_bpm (n : Nat) (q : List Nat) (r : Word × Word × Bytes) : (s.setCmis n q r).bpm = s.bpm := rfl
@[simp] theorem State.setCmis_excPol (n : Nat) (q : List Nat) (r : Word × Word × Bytes) : (s.setCmis n q r).excPol = s.excPol := rfl
@[simp] theorem State.setCmis_mirror (n : Nat) (q : List Nat) (r : Word × Word × Bytes) : (s.setCmis n q r).mirror = s.mirror := rfl
@[simp] theorem State.setCmis_tm (n : Nat) (q : List Nat) (r : Word × Word × Bytes) : (s.setCmis n q r).tm = s.tm := rfl
@[simp] theorem State.setCmis_ts (n : Nat) (q : List Nat) (r : Word × Word × Bytes) : (s.setCmis n q r).ts = s.ts := rfl
@[simp] theorem State.setCmis_wb (n : Nat) (q : List Nat) (r : Word × Word × Bytes) : (s.setCmis n q r).wb = s.wb := rfl
@[simp] theorem State.setCmis_ost (n : Nat) (q : List Nat) (r : Word × Word × Bytes) : (s.setCmis n q r).ost = s.ost := rfl
@[simp] theorem State.setCmis_ctr (n : Nat) (q : List Nat) (r : Word × Word × Bytes) : (s.setCmis n q r).ctr = s.ctr := rfl
@[simp] theorem State.setCmis_dma (n : Nat) (q : List Nat) (r : Word × Word × Bytes) : (s.setCmis n q r).dma = s.dma := rfl
@[simp] theorem State.setCmis_pw (n : Nat) (q : List Nat) (r : Word × Word × Bytes) : (s.setCmis n q r).pw = s.pw := rfl
@[simp] theorem State.setCmis_pres (n : Nat) (q : List Nat) (r : Word × Word × Bytes) : (s.setCmis n q r).pres = s.pres := rfl
@[simp] theorem State.setCmis_holds (n : Nat) (q : List Nat) (r : Word × Word × Bytes) : (s.setCmis n q r).holds = s.holds := rfl

/-! ### setBsr -/

@[simp] theorem State.setBsr_pending (bits : List Bool) : (s.setBsr bits).pending = s.pending := rfl
@[simp] theorem State.setBsr_regs (bits : List Bool) : (s.setBsr bits).regs = s.regs := rfl
@[simp] theorem State.setBsr_pendRegs (bits : List Bool) : (s.setBsr bits).pendRegs = s.pendRegs := rfl
@[simp] theorem State.setBsr_lateRegs (bits : List Bool) : (s.setBsr bits).lateRegs = s.lateRegs := rfl
@[simp] theorem State.setBsr_cnts (bits : List Bool) : (s.setBsr bits).cnts = s.cnts := rfl
@[simp] theorem State.setBsr_fuse (bits : List Bool) : (s.setBsr bits).fuse = s.fuse := rfl
@[simp] theorem State.setBsr_t16 (bits : List Bool) : (s.setBsr bits).t16 = s.t16 := rfl
@[simp] theorem State.setBsr_time (bits : List Bool) : (s.setBsr bits).time = s.time := rfl
@[simp] theorem State.setBsr_freeIx (bits : List Bool) : (s.setBsr bits).freeIx = s.freeIx := rfl
@[simp] theorem State.setBsr_outbox (bits : List Bool) : (s.setBsr bits).outbox = s.outbox := rfl
@[simp] theorem State.setBsr_irq (bits : List Bool) : (s.setBsr bits).irq = s.irq := rfl
@[simp] theorem State.setBsr_ports (bits : List Bool) : (s.setBsr bits).ports = s.ports := rfl
@[simp] theorem State.setBsr_lanes (bits : List Bool) : (s.setBsr bits).lanes = s.lanes := rfl
@[simp] theorem State.setBsr_pipes (bits : List Bool) : (s.setBsr bits).pipes = s.pipes := rfl
@[simp] theorem State.setBsr_em (bits : List Bool) : (s.setBsr bits).em = s.em := rfl
@[simp] theorem State.setBsr_tc (bits : List Bool) : (s.setBsr bits).tc = s.tc := rfl
@[simp] theorem State.setBsr_gmask (bits : List Bool) : (s.setBsr bits).gmask = s.gmask := rfl
@[simp] theorem State.setBsr_uc (bits : List Bool) : (s.setBsr bits).uc = s.uc := rfl
@[simp] theorem State.setBsr_ver (bits : List Bool) : (s.setBsr bits).ver = s.ver := rfl
@[simp] theorem State.setBsr_bpm (bits : List Bool) : (s.setBsr bits).bpm = s.bpm := rfl
@[simp] theorem State.setBsr_excPol (bits : List Bool) : (s.setBsr bits).excPol = s.excPol := rfl
@[simp] theorem State.setBsr_mirror (bits : List Bool) : (s.setBsr bits).mirror = s.mirror := rfl
@[simp] theorem State.setBsr_tm (bits : List Bool) : (s.setBsr bits).tm = s.tm := rfl
@[simp] theorem State.setBsr_ts (bits : List Bool) : (s.setBsr bits).ts = s.ts := rfl
@[simp] theorem State.setBsr_wb (bits : List Bool) : (s.setBsr bits).wb = s.wb := rfl
@[simp] theorem State.setBsr_ost (bits : List Bool) : (s.setBsr bits).ost = s.ost := rfl
@[simp] theorem State.setBsr_ctr (bits : List Bool) : (s.setBsr bits).ctr = s.ctr := rfl
@[simp] theorem State.setBsr_dma (bits : List Bool) : (s.setBsr bits).dma = s.dma := rfl
@[simp] theorem State.setBsr_pw (bits : List Bool) : (s.setBsr bits).pw = s.pw := rfl
@[simp] theorem State.setBsr_pres (bits : List Bool) : (s.setBsr bits).pres = s.pres := rfl
@[simp] theorem State.setBsr_holds (bits : List Bool) : (s.setBsr bits).holds = s.holds := rfl

/-! ### setCore -/

@[simp] theorem State.setCore_pending (c : Nat) (x : OstCore) : (s.setCore c x).pending = s.pending := rfl
@[simp] theorem State.setCore_regs (c : Nat) (x : OstCore) : (s.setCore c x).regs = s.regs := rfl
@[simp] theorem State.setCore_pendRegs (c : Nat) (x : OstCore) : (s.setCore c x).pendRegs = s.pendRegs := rfl
@[simp] theorem State.setCore_lateRegs (c : Nat) (x : OstCore) : (s.setCore c x).lateRegs = s.lateRegs := rfl
@[simp] theorem State.setCore_cnts (c : Nat) (x : OstCore) : (s.setCore c x).cnts = s.cnts := rfl
@[simp] theorem State.setCore_fuse (c : Nat) (x : OstCore) : (s.setCore c x).fuse = s.fuse := rfl
@[simp] theorem State.setCore_t16 (c : Nat) (x : OstCore) : (s.setCore c x).t16 = s.t16 := rfl
@[simp] theorem State.setCore_time (c : Nat) (x : OstCore) : (s.setCore c x).time = s.time := rfl
@[simp] theorem State.setCore_freeIx (c : Nat) (x : OstCore) : (s.setCore c x).freeIx = s.freeIx := rfl
@[simp] theorem State.setCore_outbox (c : Nat) (x : OstCore) : (s.setCore c x).outbox = s.outbox := rfl
@[simp] theorem State.setCore_irq (c : Nat) (x : OstCore) : (s.setCore c x).irq = s.irq := rfl
@[simp] theorem State.setCore_ports (c : Nat) (x : OstCore) : (s.setCore c x).ports = s.ports := rfl
@[simp] theorem State.setCore_lanes (c : Nat) (x : OstCore) : (s.setCore c x).lanes = s.lanes := rfl
@[simp] theorem State.setCore_pipes (c : Nat) (x : OstCore) : (s.setCore c x).pipes = s.pipes := rfl
@[simp] theorem State.setCore_em (c : Nat) (x : OstCore) : (s.setCore c x).em = s.em := rfl
@[simp] theorem State.setCore_tc (c : Nat) (x : OstCore) : (s.setCore c x).tc = s.tc := rfl
@[simp] theorem State.setCore_gmask (c : Nat) (x : OstCore) : (s.setCore c x).gmask = s.gmask := rfl
@[simp] theorem State.setCore_uc (c : Nat) (x : OstCore) : (s.setCore c x).uc = s.uc := rfl
@[simp] theorem State.setCore_ver (c : Nat) (x : OstCore) : (s.setCore c x).ver = s.ver := rfl
@[simp] theorem State.setCore_bpm (c : Nat) (x : OstCore) : (s.setCore c x).bpm = s.bpm := rfl
@[simp] theorem State.setCore_excPol (c : Nat) (x : OstCore) : (s.setCore c x).excPol = s.excPol := rfl
@[simp] theorem State.setCore_mirror (c : Nat) (x : OstCore) : (s.setCore c x).mirror = s.mirror := rfl
@[simp] theorem State.setCore_tm (c : Nat) (x : OstCore) : (s.setCore c x).tm = s.tm := rfl
@[simp] theorem State.setCore_ts (c : Nat) (x : OstCore) : (s.setCore c x).ts = s.ts := rfl
@[simp] theorem State.setCore_wb (c : Nat) (x : OstCore) : (s.setCore c x).wb = s.wb := rfl
@[simp] theorem State.setCore_ctr (c : Nat) (x : OstCore) : (s.setCore c x).ctr = s.ctr := rfl
@[simp] theorem State.setCore_dma (c : Nat) (x : OstCore) : (s.setCore c x).dma = s.dma := rfl
@[simp] theorem State.setCore_pw (c : Nat) (x : OstCore) : (s.setCore c x).pw = s.pw := rfl
@[simp] theorem State.setCore_pres (c : Nat) (x : OstCore) : (s.setCore c x).pres = s.pres := rfl
@[simp] theorem State.setCore_side (c : Nat) (x : OstCore) : (s.setCore c x).side = s.side := rfl
@[simp] theorem State.setCore_holds (c : Nat) (x : OstCore) : (s.setCore c x).holds = s.holds := rfl

/-! ### setSnapRun -/

@[simp] theorem State.setSnapRun_pending (n : Nat) (r : Option SnapRun) : (s.setSnapRun n r).pending = s.pending := rfl
@[simp] theorem State.setSnapRun_regs (n : Nat) (r : Option SnapRun) : (s.setSnapRun n r).regs = s.regs := rfl
@[simp] theorem State.setSnapRun_pendRegs (n : Nat) (r : Option SnapRun) : (s.setSnapRun n r).pendRegs = s.pendRegs := rfl
@[simp] theorem State.setSnapRun_lateRegs (n : Nat) (r : Option SnapRun) : (s.setSnapRun n r).lateRegs = s.lateRegs := rfl
@[simp] theorem State.setSnapRun_cnts (n : Nat) (r : Option SnapRun) : (s.setSnapRun n r).cnts = s.cnts := rfl
@[simp] theorem State.setSnapRun_fuse (n : Nat) (r : Option SnapRun) : (s.setSnapRun n r).fuse = s.fuse := rfl
@[simp] theorem State.setSnapRun_t16 (n : Nat) (r : Option SnapRun) : (s.setSnapRun n r).t16 = s.t16 := rfl
@[simp] theorem State.setSnapRun_time (n : Nat) (r : Option SnapRun) : (s.setSnapRun n r).time = s.time := rfl
@[simp] theorem State.setSnapRun_freeIx (n : Nat) (r : Option SnapRun) : (s.setSnapRun n r).freeIx = s.freeIx := rfl
@[simp] theorem State.setSnapRun_outbox (n : Nat) (r : Option SnapRun) : (s.setSnapRun n r).outbox = s.outbox := rfl
@[simp] theorem State.setSnapRun_irq (n : Nat) (r : Option SnapRun) : (s.setSnapRun n r).irq = s.irq := rfl
@[simp] theorem State.setSnapRun_ports (n : Nat) (r : Option SnapRun) : (s.setSnapRun n r).ports = s.ports := rfl
@[simp] theorem State.setSnapRun_lanes (n : Nat) (r : Option SnapRun) : (s.setSnapRun n r).lanes = s.lanes := rfl
@[simp] theorem State.setSnapRun_pipes (n : Nat) (r : Option SnapRun) : (s.setSnapRun n r).pipes = s.pipes := rfl
@[simp] theorem State.setSnapRun_em (n : Nat) (r : Option SnapRun) : (s.setSnapRun n r).em = s.em := rfl
@[simp] theorem State.setSnapRun_tc (n : Nat) (r : Option SnapRun) : (s.setSnapRun n r).tc = s.tc := rfl
@[simp] theorem State.setSnapRun_gmask (n : Nat) (r : Option SnapRun) : (s.setSnapRun n r).gmask = s.gmask := rfl
@[simp] theorem State.setSnapRun_uc (n : Nat) (r : Option SnapRun) : (s.setSnapRun n r).uc = s.uc := rfl
@[simp] theorem State.setSnapRun_ver (n : Nat) (r : Option SnapRun) : (s.setSnapRun n r).ver = s.ver := rfl
@[simp] theorem State.setSnapRun_bpm (n : Nat) (r : Option SnapRun) : (s.setSnapRun n r).bpm = s.bpm := rfl
@[simp] theorem State.setSnapRun_excPol (n : Nat) (r : Option SnapRun) : (s.setSnapRun n r).excPol = s.excPol := rfl
@[simp] theorem State.setSnapRun_mirror (n : Nat) (r : Option SnapRun) : (s.setSnapRun n r).mirror = s.mirror := rfl
@[simp] theorem State.setSnapRun_tm (n : Nat) (r : Option SnapRun) : (s.setSnapRun n r).tm = s.tm := rfl
@[simp] theorem State.setSnapRun_ts (n : Nat) (r : Option SnapRun) : (s.setSnapRun n r).ts = s.ts := rfl
@[simp] theorem State.setSnapRun_wb (n : Nat) (r : Option SnapRun) : (s.setSnapRun n r).wb = s.wb := rfl
@[simp] theorem State.setSnapRun_ost (n : Nat) (r : Option SnapRun) : (s.setSnapRun n r).ost = s.ost := rfl
@[simp] theorem State.setSnapRun_dma (n : Nat) (r : Option SnapRun) : (s.setSnapRun n r).dma = s.dma := rfl
@[simp] theorem State.setSnapRun_pw (n : Nat) (r : Option SnapRun) : (s.setSnapRun n r).pw = s.pw := rfl
@[simp] theorem State.setSnapRun_pres (n : Nat) (r : Option SnapRun) : (s.setSnapRun n r).pres = s.pres := rfl
@[simp] theorem State.setSnapRun_side (n : Nat) (r : Option SnapRun) : (s.setSnapRun n r).side = s.side := rfl
@[simp] theorem State.setSnapRun_holds (n : Nat) (r : Option SnapRun) : (s.setSnapRun n r).holds = s.holds := rfl

/-! ### setFresh -/

@[simp] theorem State.setFresh_pending (k : Nat) (b : Bool) : (s.setFresh k b).pending = s.pending := rfl
@[simp] theorem State.setFresh_regs (k : Nat) (b : Bool) : (s.setFresh k b).regs = s.regs := rfl
@[simp] theorem State.setFresh_pendRegs (k : Nat) (b : Bool) : (s.setFresh k b).pendRegs = s.pendRegs := rfl
@[simp] theorem State.setFresh_lateRegs (k : Nat) (b : Bool) : (s.setFresh k b).lateRegs = s.lateRegs := rfl
@[simp] theorem State.setFresh_cnts (k : Nat) (b : Bool) : (s.setFresh k b).cnts = s.cnts := rfl
@[simp] theorem State.setFresh_fuse (k : Nat) (b : Bool) : (s.setFresh k b).fuse = s.fuse := rfl
@[simp] theorem State.setFresh_t16 (k : Nat) (b : Bool) : (s.setFresh k b).t16 = s.t16 := rfl
@[simp] theorem State.setFresh_time (k : Nat) (b : Bool) : (s.setFresh k b).time = s.time := rfl
@[simp] theorem State.setFresh_freeIx (k : Nat) (b : Bool) : (s.setFresh k b).freeIx = s.freeIx := rfl
@[simp] theorem State.setFresh_outbox (k : Nat) (b : Bool) : (s.setFresh k b).outbox = s.outbox := rfl
@[simp] theorem State.setFresh_irq (k : Nat) (b : Bool) : (s.setFresh k b).irq = s.irq := rfl
@[simp] theorem State.setFresh_ports (k : Nat) (b : Bool) : (s.setFresh k b).ports = s.ports := rfl
@[simp] theorem State.setFresh_lanes (k : Nat) (b : Bool) : (s.setFresh k b).lanes = s.lanes := rfl
@[simp] theorem State.setFresh_pipes (k : Nat) (b : Bool) : (s.setFresh k b).pipes = s.pipes := rfl
@[simp] theorem State.setFresh_em (k : Nat) (b : Bool) : (s.setFresh k b).em = s.em := rfl
@[simp] theorem State.setFresh_tc (k : Nat) (b : Bool) : (s.setFresh k b).tc = s.tc := rfl
@[simp] theorem State.setFresh_gmask (k : Nat) (b : Bool) : (s.setFresh k b).gmask = s.gmask := rfl
@[simp] theorem State.setFresh_uc (k : Nat) (b : Bool) : (s.setFresh k b).uc = s.uc := rfl
@[simp] theorem State.setFresh_ver (k : Nat) (b : Bool) : (s.setFresh k b).ver = s.ver := rfl
@[simp] theorem State.setFresh_bpm (k : Nat) (b : Bool) : (s.setFresh k b).bpm = s.bpm := rfl
@[simp] theorem State.setFresh_excPol (k : Nat) (b : Bool) : (s.setFresh k b).excPol = s.excPol := rfl
@[simp] theorem State.setFresh_mirror (k : Nat) (b : Bool) : (s.setFresh k b).mirror = s.mirror := rfl
@[simp] theorem State.setFresh_tm (k : Nat) (b : Bool) : (s.setFresh k b).tm = s.tm := rfl
@[simp] theorem State.setFresh_ts (k : Nat) (b : Bool) : (s.setFresh k b).ts = s.ts := rfl
@[simp] theorem State.setFresh_wb (k : Nat) (b : Bool) : (s.setFresh k b).wb = s.wb := rfl
@[simp] theorem State.setFresh_ost (k : Nat) (b : Bool) : (s.setFresh k b).ost = s.ost := rfl
@[simp] theorem State.setFresh_dma (k : Nat) (b : Bool) : (s.setFresh k b).dma = s.dma := rfl
@[simp] theorem State.setFresh_pw (k : Nat) (b : Bool) : (s.setFresh k b).pw = s.pw := rfl
@[simp] theorem State.setFresh_pres (k : Nat) (b : Bool) : (s.setFresh k b).pres = s.pres := rfl
@[simp] theorem State.setFresh_side (k : Nat) (b : Bool) : (s.setFresh k b).side = s.side := rfl
@[simp] theorem State.setFresh_holds (k : Nat) (b : Bool) : (s.setFresh k b).holds = s.holds := rfl

/-! ### setKept -/

@[simp] theorem State.setKept_pending (f : Nat) (l : List Nat) : (s.setKept f l).pending = s.pending := rfl
@[simp] theorem State.setKept_regs (f : Nat) (l : List Nat) : (s.setKept f l).regs = s.regs := rfl
@[simp] theorem State.setKept_pendRegs (f : Nat) (l : List Nat) : (s.setKept f l).pendRegs = s.pendRegs := rfl
@[simp] theorem State.setKept_lateRegs (f : Nat) (l : List Nat) : (s.setKept f l).lateRegs = s.lateRegs := rfl
@[simp] theorem State.setKept_cnts (f : Nat) (l : List Nat) : (s.setKept f l).cnts = s.cnts := rfl
@[simp] theorem State.setKept_fuse (f : Nat) (l : List Nat) : (s.setKept f l).fuse = s.fuse := rfl
@[simp] theorem State.setKept_t16 (f : Nat) (l : List Nat) : (s.setKept f l).t16 = s.t16 := rfl
@[simp] theorem State.setKept_time (f : Nat) (l : List Nat) : (s.setKept f l).time = s.time := rfl
@[simp] theorem State.setKept_freeIx (f : Nat) (l : List Nat) : (s.setKept f l).freeIx = s.freeIx := rfl
@[simp] theorem State.setKept_outbox (f : Nat) (l : List Nat) : (s.setKept f l).outbox = s.outbox := rfl
@[simp] theorem State.setKept_irq (f : Nat) (l : List Nat) : (s.setKept f l).irq = s.irq := rfl
@[simp] theorem State.setKept_ports (f : Nat) (l : List Nat) : (s.setKept f l).ports = s.ports := rfl
@[simp] theorem State.setKept_lanes (f : Nat) (l : List Nat) : (s.setKept f l).lanes = s.lanes := rfl
@[simp] theorem State.setKept_pipes (f : Nat) (l : List Nat) : (s.setKept f l).pipes = s.pipes := rfl
@[simp] theorem State.setKept_em (f : Nat) (l : List Nat) : (s.setKept f l).em = s.em := rfl
@[simp] theorem State.setKept_tc (f : Nat) (l : List Nat) : (s.setKept f l).tc = s.tc := rfl
@[simp] theorem State.setKept_gmask (f : Nat) (l : List Nat) : (s.setKept f l).gmask = s.gmask := rfl
@[simp] theorem State.setKept_uc (f : Nat) (l : List Nat) : (s.setKept f l).uc = s.uc := rfl
@[simp] theorem State.setKept_ver (f : Nat) (l : List Nat) : (s.setKept f l).ver = s.ver := rfl
@[simp] theorem State.setKept_bpm (f : Nat) (l : List Nat) : (s.setKept f l).bpm = s.bpm := rfl
@[simp] theorem State.setKept_excPol (f : Nat) (l : List Nat) : (s.setKept f l).excPol = s.excPol := rfl
@[simp] theorem State.setKept_mirror (f : Nat) (l : List Nat) : (s.setKept f l).mirror = s.mirror := rfl
@[simp] theorem State.setKept_tm (f : Nat) (l : List Nat) : (s.setKept f l).tm = s.tm := rfl
@[simp] theorem State.setKept_ts (f : Nat) (l : List Nat) : (s.setKept f l).ts = s.ts := rfl
@[simp] theorem State.setKept_wb (f : Nat) (l : List Nat) : (s.setKept f l).wb = s.wb := rfl
@[simp] theorem State.setKept_ost (f : Nat) (l : List Nat) : (s.setKept f l).ost = s.ost := rfl
@[simp] theorem State.setKept_ctr (f : Nat) (l : List Nat) : (s.setKept f l).ctr = s.ctr := rfl
@[simp] theorem State.setKept_pw (f : Nat) (l : List Nat) : (s.setKept f l).pw = s.pw := rfl
@[simp] theorem State.setKept_pres (f : Nat) (l : List Nat) : (s.setKept f l).pres = s.pres := rfl
@[simp] theorem State.setKept_side (f : Nat) (l : List Nat) : (s.setKept f l).side = s.side := rfl
@[simp] theorem State.setKept_holds (f : Nat) (l : List Nat) : (s.setKept f l).holds = s.holds := rfl

/-! ### setBoot -/

@[simp] theorem State.setBoot_pending (b : Option BootRun) : (s.setBoot b).pending = s.pending := rfl
@[simp] theorem State.setBoot_regs (b : Option BootRun) : (s.setBoot b).regs = s.regs := rfl
@[simp] theorem State.setBoot_pendRegs (b : Option BootRun) : (s.setBoot b).pendRegs = s.pendRegs := rfl
@[simp] theorem State.setBoot_lateRegs (b : Option BootRun) : (s.setBoot b).lateRegs = s.lateRegs := rfl
@[simp] theorem State.setBoot_cnts (b : Option BootRun) : (s.setBoot b).cnts = s.cnts := rfl
@[simp] theorem State.setBoot_fuse (b : Option BootRun) : (s.setBoot b).fuse = s.fuse := rfl
@[simp] theorem State.setBoot_t16 (b : Option BootRun) : (s.setBoot b).t16 = s.t16 := rfl
@[simp] theorem State.setBoot_time (b : Option BootRun) : (s.setBoot b).time = s.time := rfl
@[simp] theorem State.setBoot_freeIx (b : Option BootRun) : (s.setBoot b).freeIx = s.freeIx := rfl
@[simp] theorem State.setBoot_outbox (b : Option BootRun) : (s.setBoot b).outbox = s.outbox := rfl
@[simp] theorem State.setBoot_irq (b : Option BootRun) : (s.setBoot b).irq = s.irq := rfl
@[simp] theorem State.setBoot_ports (b : Option BootRun) : (s.setBoot b).ports = s.ports := rfl
@[simp] theorem State.setBoot_lanes (b : Option BootRun) : (s.setBoot b).lanes = s.lanes := rfl
@[simp] theorem State.setBoot_pipes (b : Option BootRun) : (s.setBoot b).pipes = s.pipes := rfl
@[simp] theorem State.setBoot_em (b : Option BootRun) : (s.setBoot b).em = s.em := rfl
@[simp] theorem State.setBoot_tc (b : Option BootRun) : (s.setBoot b).tc = s.tc := rfl
@[simp] theorem State.setBoot_gmask (b : Option BootRun) : (s.setBoot b).gmask = s.gmask := rfl
@[simp] theorem State.setBoot_uc (b : Option BootRun) : (s.setBoot b).uc = s.uc := rfl
@[simp] theorem State.setBoot_ver (b : Option BootRun) : (s.setBoot b).ver = s.ver := rfl
@[simp] theorem State.setBoot_bpm (b : Option BootRun) : (s.setBoot b).bpm = s.bpm := rfl
@[simp] theorem State.setBoot_excPol (b : Option BootRun) : (s.setBoot b).excPol = s.excPol := rfl
@[simp] theorem State.setBoot_mirror (b : Option BootRun) : (s.setBoot b).mirror = s.mirror := rfl
@[simp] theorem State.setBoot_tm (b : Option BootRun) : (s.setBoot b).tm = s.tm := rfl
@[simp] theorem State.setBoot_ts (b : Option BootRun) : (s.setBoot b).ts = s.ts := rfl
@[simp] theorem State.setBoot_wb (b : Option BootRun) : (s.setBoot b).wb = s.wb := rfl
@[simp] theorem State.setBoot_ost (b : Option BootRun) : (s.setBoot b).ost = s.ost := rfl
@[simp] theorem State.setBoot_ctr (b : Option BootRun) : (s.setBoot b).ctr = s.ctr := rfl
@[simp] theorem State.setBoot_dma (b : Option BootRun) : (s.setBoot b).dma = s.dma := rfl
@[simp] theorem State.setBoot_pres (b : Option BootRun) : (s.setBoot b).pres = s.pres := rfl
@[simp] theorem State.setBoot_side (b : Option BootRun) : (s.setBoot b).side = s.side := rfl
@[simp] theorem State.setBoot_holds (b : Option BootRun) : (s.setBoot b).holds = s.holds := rfl

/-! ### setPitLeave -/

@[simp] theorem State.setPitLeave_pending (ns : List Nat) : (s.setPitLeave ns).pending = s.pending := rfl
@[simp] theorem State.setPitLeave_regs (ns : List Nat) : (s.setPitLeave ns).regs = s.regs := rfl
@[simp] theorem State.setPitLeave_pendRegs (ns : List Nat) : (s.setPitLeave ns).pendRegs = s.pendRegs := rfl
@[simp] theorem State.setPitLeave_lateRegs (ns : List Nat) : (s.setPitLeave ns).lateRegs = s.lateRegs := rfl
@[simp] theorem State.setPitLeave_cnts (ns : List Nat) : (s.setPitLeave ns).cnts = s.cnts := rfl
@[simp] theorem State.setPitLeave_fuse (ns : List Nat) : (s.setPitLeave ns).fuse = s.fuse := rfl
@[simp] theorem State.setPitLeave_t16 (ns : List Nat) : (s.setPitLeave ns).t16 = s.t16 := rfl
@[simp] theorem State.setPitLeave_time (ns : List Nat) : (s.setPitLeave ns).time = s.time := rfl
@[simp] theorem State.setPitLeave_freeIx (ns : List Nat) : (s.setPitLeave ns).freeIx = s.freeIx := rfl
@[simp] theorem State.setPitLeave_outbox (ns : List Nat) : (s.setPitLeave ns).outbox = s.outbox := rfl
@[simp] theorem State.setPitLeave_ports (ns : List Nat) : (s.setPitLeave ns).ports = s.ports := rfl
@[simp] theorem State.setPitLeave_lanes (ns : List Nat) : (s.setPitLeave ns).lanes = s.lanes := rfl
@[simp] theorem State.setPitLeave_pipes (ns : List Nat) : (s.setPitLeave ns).pipes = s.pipes := rfl
@[simp] theorem State.setPitLeave_em (ns : List Nat) : (s.setPitLeave ns).em = s.em := rfl
@[simp] theorem State.setPitLeave_tc (ns : List Nat) : (s.setPitLeave ns).tc = s.tc := rfl
@[simp] theorem State.setPitLeave_gmask (ns : List Nat) : (s.setPitLeave ns).gmask = s.gmask := rfl
@[simp] theorem State.setPitLeave_uc (ns : List Nat) : (s.setPitLeave ns).uc = s.uc := rfl
@[simp] theorem State.setPitLeave_ver (ns : List Nat) : (s.setPitLeave ns).ver = s.ver := rfl
@[simp] theorem State.setPitLeave_bpm (ns : List Nat) : (s.setPitLeave ns).bpm = s.bpm := rfl
@[simp] theorem State.setPitLeave_excPol (ns : List Nat) : (s.setPitLeave ns).excPol = s.excPol := rfl
@[simp] theorem State.setPitLeave_mirror (ns : List Nat) : (s.setPitLeave ns).mirror = s.mirror := rfl
@[simp] theorem State.setPitLeave_tm (ns : List Nat) : (s.setPitLeave ns).tm = s.tm := rfl
@[simp] theorem State.setPitLeave_ts (ns : List Nat) : (s.setPitLeave ns).ts = s.ts := rfl
@[simp] theorem State.setPitLeave_wb (ns : List Nat) : (s.setPitLeave ns).wb = s.wb := rfl
@[simp] theorem State.setPitLeave_ost (ns : List Nat) : (s.setPitLeave ns).ost = s.ost := rfl
@[simp] theorem State.setPitLeave_ctr (ns : List Nat) : (s.setPitLeave ns).ctr = s.ctr := rfl
@[simp] theorem State.setPitLeave_dma (ns : List Nat) : (s.setPitLeave ns).dma = s.dma := rfl
@[simp] theorem State.setPitLeave_pw (ns : List Nat) : (s.setPitLeave ns).pw = s.pw := rfl
@[simp] theorem State.setPitLeave_pres (ns : List Nat) : (s.setPitLeave ns).pres = s.pres := rfl
@[simp] theorem State.setPitLeave_side (ns : List Nat) : (s.setPitLeave ns).side = s.side := rfl
@[simp] theorem State.setPitLeave_holds (ns : List Nat) : (s.setPitLeave ns).holds = s.holds := rfl

/-! ### Reading after writing -/

theorem State.port_setPort (n m : Nat) (q : PortSt) : (s.setPort n q).port m = if m = n then q else s.port m := SMap.get_put ..

theorem State.lane_setLane (n m : Nat) (q : LaneSt) : (s.setLane n q).lane m = if m = n then q else s.lane m := SMap.get_put ..

theorem State.pipe_setPipe (n m : Nat) (q : PipeSt) : (s.setPipe n q).pipe m = if m = n then q else s.pipe m := SMap.get_put ..

theorem State.thr_setThr (n m : Nat) (q : Thr) : (s.setThr n q).thr m = if m = n then q else s.thr m := SMap.get_put ..

theorem State.strm_setStrm (n m : Nat) (q : WbStream) : (s.setStrm n q).strm m = if m = n then q else s.strm m := SMap.get_put ..

theorem State.verSt_setVer (n m : Nat) (q : VerSt) : (s.setVer n q).verSt m = if m = n then q else s.verSt m := SMap.get_put ..

theorem State.buf_setBuf (n m : Nat) (q : Option Buf) : (s.setBuf n q).buf m = if m = n then q else s.buf m := SMap.get_put ..

theorem State.ptm_setPtm (n m : Nat) (q : PortTm) : (s.setPtm n q).ptm m = if m = n then q else s.ptm m := SMap.get_put ..

theorem State.region_setRegion (n m : Nat) (q : RegionSt) : (s.setRegion n q).region m = if m = n then q else s.region m := SMap.get_put ..

theorem State.ppsOut_setPps (n m : Nat) (q : PpsSt) : (s.setPps n q).ppsOut m = if m = n then q else s.ppsOut m := SMap.get_put ..

theorem State.evtIn_setEvt (n m : Nat) (q : EvtSt) : (s.setEvt n q).evtIn m = if m = n then q else s.evtIn m := SMap.get_put ..

theorem State.recl_setRecl (n m : Nat) (q : Option Recl) : (s.setRecl n q).recl m = if m = n then q else s.recl m := SMap.get_put ..

theorem State.core_setCore (n m : Nat) (q : OstCore) : (s.setCore n q).core m = if m = n then q else s.core m := SMap.get_put ..

theorem State.snapRun_setSnapRun (n m : Nat) (q : Option SnapRun) : (s.setSnapRun n q).snapRun m = if m = n then q else s.snapRun m :=
  SMap.get_put ..

theorem State.kept_setKept (n m : Nat) (q : List Nat) : (s.setKept n q).kept m = if m = n then q else s.kept m := SMap.get_put ..

@[simp] theorem State.setBoot_boot (b : Option BootRun) : (s.setBoot b).pw.boot = b := rfl

@[simp] theorem State.setPitLeave_pitLeave (ns : List Nat) : (s.setPitLeave ns).irq.pitLeave = ns := rfl

@[simp] theorem State.setPitEnter_pitEnter (ns : List Nat) : (s.setPitEnter ns).irq.pitEnter = ns := rfl

@[simp] theorem State.setBsr_bsr (bits : List Bool) : (s.setBsr bits).side.bsr = bits := rfl

@[simp] theorem State.setCmis_cmis (n : Nat) (q : List Nat) (r : Word × Word × Bytes) : (s.setCmis n q r).side.cmis = q := rfl

theorem State.hist_setHist (n m : Nat) (q : List HistEntry) : (s.setHist n q).hist m = if m = n then q else s.hist m := SMap.get_put ..

theorem State.engAt_setEng (e j : Nat) (n : Option Nat) : (s.setEng e n).engAt j = if j = e then n else s.engAt j := SMap.get_put ..

theorem State.i2cRun_setI2c (n m : Nat) (r : I2cRun) : (s.setI2c n r).i2cRun m = if m = n then r else s.i2cRun m := SMap.get_put ..

theorem State.cmisReq_setCmis (n m : Nat) (q : List Nat) (r : Word × Word × Bytes) :
    (s.setCmis n q r).cmisReq m = if m = n then r else s.cmisReq m := SMap.get_put ..

end Sys2Proof.Machine
end

