-- ==== Sys2Proof/WellFormed.lean ====
section
/-! DEFINITION. What a command's operands must be beyond what their types say: the shapes that an access, a frame, an image or an
observation has on this part. A command that is not well formed cannot arrive from outside. -/

namespace Sys2Proof

/-- A received frame holds at least one byte (R109). -/
def RxFrame.wf (rx : RxFrame) : Bool := !rx.bytes.isEmpty

/-- An image has no more bytes than a load can name (Table 22.8), and its graph has an emit mask per state (Table 8.2). -/
def Image.wf (i : Image) : Bool := decide (i.raw.length < 2 ^ 32 ∧ i.emit.length = i.graph.length ∧ i.stages.length ≤ 24)

/-- A container's images are well formed, and no more than it may hold (R591). -/
def Container.wf (c : Container) : Bool := decide (c.images.length ≤ 16) && c.images.all Image.wf

/-- What a boundary observes concerns lanes, ports, domains and regions that exist. -/
def RoundObs.wf (o : RoundObs) : Bool :=
  (o.eyes.all fun e => decide (e.1 < 1024)) && (o.prbs.all fun e => decide (e.1 < 1024)) &&
  (o.use.all fun e => decide (e.1 < 144)) && (o.leak.all fun e => decide (e.1 < 37)) && (o.fec.all fun e => decide (e.1 < 1024))

/-- A place of a memory that can flip: a stage's TCAM key names one of its two tables, a buffer handle has 24 bits. -/
def UpsetAt.wf : UpsetAt → Bool
  | .tcArray _ key _ => decide (key < 24 * 2 ^ 18)
  | .tcShadow _ key _ _ => decide (key < 24 * 2 ^ 18)
  | .buffer h _ _ => decide (h < 2 ^ 24)
  | .emRow _ _ _ _ => true
  | .emStamp _ _ _ _ => true
  | .store _ _ _ _ _ => true
  | .data _ _ => true
  | .program _ _ _ => true

/-- The operands of a command are ones that can arrive. Rows whose operand types bound them are well formed with every operand. -/
def Instr.wf : Instr → Bool
  -- a write of the register window carries 1 to 8 bytes
  | .registerWrite _ _ size v => decide (1 ≤ size ∧ size ≤ 8 ∧ v.toNat < 2 ^ (8 * size))
  | .roundBoundary obs => obs.wf
  | .frameArrival _ rx => rx.wf
  -- eight PFC timers of 16 bits (R111)
  | .pfcRx _ _ quanta => decide (quanta.length = 8) && quanta.all fun q => decide (q < 65536)
  -- twelve 8-bit tap coefficients (R82)
  | .adaptDone _ _ taps => decide (taps.length = 12) && taps.all fun t => decide (t < 256)
  -- an access of the register window has 1 to 8 bytes (R13)
  | .rcRead _ _ size | .counterPairRead _ _ _ size | .timeNsRead _ _ size => decide (1 ≤ size ∧ size ≤ 8)
  -- a 66-bit alignment block has 8 bytes beside its sync header (R131)
  | .alignBlockRx _ blocks => blocks.all fun b => decide (b.length = 8)
  | .imageLoad _ _ _ img => img.all Image.wf
  | .deviceLoad c => c.wf
  | .memoryUpset a => a.wf
  -- time link frames are 68 bytes (R347), calibration frames 64 (R381)
  | .timeLinkFrameRx _ bytes _ => decide (bytes.length = 68)
  | .calFrameRx _ bytes _ => decide (bytes.length = 64)
  -- sensors 0 to 63 (R514)
  | .thermalSample ts => ts.all fun e => decide (e.1 < 64)
  | .neighbourEqualise a b _ _ => decide (a ≠ b)
  -- a descriptor is 32 bytes (R582)
  | .dmaTxDescriptor _ desc _ _ => decide (desc.length = 32)
  | .dmaExcWrite _ _ desc _ => decide (desc.length = 32)
  | .dmaSheetWrite _ desc _ => decide (desc.length = 32)
  -- an I2C master reads at most 128 bytes (R598), a mailbox moves at most 128 (R601)
  | .i2cDone _ _ _ bytes _ _ => decide (bytes.length ≤ 128)
  | .cmisDone _ _ bytes => decide (bytes.length ≤ 128)
  | _ => true

end Sys2Proof
end

