-- ==== Sys2Proof/Tests/Slice0.lean ====
section
/-! SUPPORT. Small tests: one step each, and the witnesses of the statements. -/

namespace Sys2Proof.Tests
open Sys2Proof.Machine

set_option maxRecDepth 100000

/-- `s` with registers set to words that hold the fields listed. -/
def setup (s : State) (l : List (Nat × List (Fld × Nat))) : State := l.foldl (fun s e => s.setReg e.1 (putFlds 0 e.2)) s

/-- A part with its clocks in order and its PCIe link up, in which Pitch 1 owns pipeline 0, with an image, powered; a presence window is
open. -/
def part : State :=
  (setup { State.reset with pw := { linkUp := true } } [(R.CLK_STATUS, [(F.CLK_STATUS.PLL_LOCK, 127), (F.CLK_STATUS.REF_OK, 1)]), (R.PIT_MAP 0, [(F.PIT_MAP.OWNER, 1)]),
    (R.PST_DOM_READY 2, [(⟨0, 32⟩, 0x10001)]), (R.PST_DOM_READY 3, [(⟨0, 32⟩, 0x10000)]), (R.DEV_PRES_STATUS, [(F.DEV_PRES_STATUS.OPEN, 1)]),
    (R.DEV_BOOT_STATUS, [(F.DEV_BOOT_STATUS.STAGE, 9)])]).setPipe 0 { img := some {} }

/-- That part with port 0 formed of one lane of a ready group, enabled, its lane locked, and the link up. -/
def port : State :=
  setup part [(R.LG_STATUS 0, [(F.LG_STATUS.READY, 1), (F.LG_STATUS.PLL_LOCK, 1)]), (R.PORT_CTL 0, [(F.PORT_CTL.EN, 1), (F.PORT_CTL.MAXLEN, 9600)]),
    (R.PORT_STATUS 0, [(F.PORT_STATUS.WIDTH_APPLIED, 1), (F.PORT_STATUS.LINK_UP, 1)]),
    (laneReg R.LG_LN_STATUS 0, [(F.LG_LN_STATUS.CDR_LOCK, 1)])]

/-- The empty queue: one tick. -/
theorem test_tick : ∃ t, step State.reset = .next t ∧ t.t16 = 10 := ⟨_, rfl, by decide⟩

/-- What the check of operands refuses, one ill-formed term for each check. -/
theorem test_ill_formed : ∀ c ∈ ([.registerWrite 0 0 9 0, .registerWrite 0 0 1 0x100, .roundBoundary { prbs := [(1024, 1)] },
    .frameArrival 0 { bytes := [] }, .pfcRx 0 0 [1], .adaptDone 0 0 [1, 2], .rcRead 0 0 0, .counterPairRead 0 0 0 9, .timeNsRead 0 0 9,
    .alignBlockRx 0 [[1]], .imageLoad 0 0 0 (some { emit := [1] }), .deviceLoad { images := List.replicate 17 {} }, .memoryUpset (.buffer (2 ^ 24) 0 0),
    .memoryUpset (.tcArray 0 (24 * 2 ^ 18) 0), .memoryUpset (.tcShadow 0 (24 * 2 ^ 18) 0 0), .timeLinkFrameRx 0 [] {}, .calFrameRx 0 [] {},
    .thermalSample [(64, 0)], .neighbourEqualise 0 0 0 true, .dmaTxDescriptor 0 [] [] false, .dmaExcWrite 0 1 [] false,
    .dmaSheetWrite 0 [] false, .i2cDone 0 0 0 (List.replicate 129 0), .cmisDone 0 0 (List.replicate 129 0)] : List Instr), c.wf = false := by decide

/-- A frame, an image, a container and a Round that are well formed. -/
theorem test_well_formed : ∀ c ∈ ([.registerWrite 0 0 4 5, .roundBoundary {}, .frameArrival 0 { bytes := [0] },
    .imageLoad 0 0 0 (some { raw := [1] }), .deviceLoad { raw := [1], images := [{}] }] : List Instr), c.wf = true := by decide

/-- A canonical state that answers a step, a front command, and a command that answers. -/
theorem wit_step : part.canonical ∧ (∃ t, step part = .next t) ∧ (∃ t, exec .sealClose part = .next t) ∧ part.pending = [] ∧
    ({ part with pending := [.sealClose, .sealOpen] } : State).pending = .sealClose :: [.sealOpen] :=
  ⟨by constructor <;> decide, ⟨_, rfl⟩, ⟨_, rfl⟩, by decide, rfl⟩

theorem wit_part : part.pipeRuns 0 = true ∧ part.pipeRuns 1 = false ∧ part.inReset 1 = false ∧ part.ownerOfPipe 0 = 1 ∧ part.presOpen = true ∧
    part.reach = true ∧ State.reset.presOpen = false ∧ { part with pw := { part.pw with pcieLost := true } }.reach = false := by decide

theorem wit_port : port.portEnabled 0 = true ∧ port.linkUp 0 = true ∧ port.rxPowered 0 = true ∧ port.cdrLock 0 = true ∧
    port.lanesOf 0 = [0] ∧ port.mode 0 = 0 ∧ port.macDrives 0 = true := by decide

/-- A write that the view takes, one that it does not take, and a gap. -/
theorem wit_RegisterWriteRoutes : part.writable 0 R.DEV_PRES_CTL = true ∧ part.place 0 0 0x0FFFFFFC = .gap ∧
    (∃ pa g r ix, part.place 1 1 R.DEV_PRES_CTL = .reg pa g r ix ∧ part.viewWrite 1 g (some r.id) ix = false) :=
  ⟨by decide, by decide, ⟨_, _, _, _, rfl, by decide⟩⟩

/-- A register with RWP fields, which is not Round-effective. -/
theorem wit_AccessTypes : ∃ g r ix, findReg R.TIME_SRC_CTL = some (g, r, ix) ∧ r.roundEff = false ∧ ∃ f ∈ r.fields, f.2 = .rwp :=
  ⟨_, _, _, rfl, by decide⟩

theorem wit_RoundEffective : ∃ pa g r ix, part.writable 0 R.PST_SHARED = true ∧ part.place 0 0 R.PST_SHARED = .reg pa g r ix ∧
    findReg R.PST_SHARED = some (g, r, ix) ∧ r.roundEff = true ∧ (∀ f ∈ r.fields, f.2 ≠ .rwp) ∧ part.lateInRound = false ∧
    SMap.get (fun _ => 0) part.lateRegs pa = 0 := ⟨_, _, _, _, by decide, rfl, rfl, by decide⟩

theorem wit_RoundBoundaryOrder : part.pw.rounds = false ∧
    (let s : State := { part with pw := { part.pw with alive := true, rounds := true, cyc := 62500 } };
      s.pw.alive = true ∧ s.pw.rounds = true ∧ 62500 ≤ s.pw.cyc) := by decide

theorem wit_Reads : part.waitingReg R.PIT_MIR_DROP = none ∧ part.pipeFused 0 = false ∧ part.waitingReg (R.TIME_SHD_S 0) = none ∧
    (∃ pa g r ix f, part.place 0 0 R.PIT_MIR_DROP = .reg pa g r ix ∧ part.viewRead 0 g (some r.id) ix = true ∧ r.fields = [(f, .rc)]) ∧
    part.place 1 1 (C.RX_FRAMES 0) = .cnt (C.RX_FRAMES 0) false ∧ part.place 1 1 (C.RX_FRAMES 0 + 4) = .cnt (C.RX_FRAMES 0) true ∧
    part.viewRead 1 (regionOf (C.RX_FRAMES 0)) none [] = true ∧ part.viewRead 1 .time (some .TIME_NS) [] = true :=
  ⟨by decide, by decide, by decide, ⟨_, _, _, _, _, rfl, by decide, rfl⟩, by decide, by decide, by decide, by decide⟩

/-- A lane of an enabled port loses its signal, or its lock, locks again and adapts; the loop of its link; a locked checker and a scan. -/
theorem wit_LaneEvents : port.los 0 = false ∧ port.loop 0 ≠ 1 ∧ port.loop 0 ≠ 3 ∧ port.adaptDone 0 = false ∧ port.mode 0 ≠ 4 ∧
    port.rxHeld 0 = false ∧ port.bit (R.LG_CTL 0) F.LG_CTL.FWD_EN = false ∧ port.lgReady 0 = true ∧
    port.bit (R.LG_STATUS 0) F.LG_STATUS.PLL_LOCK = true ∧
    (setup port [(laneReg R.LG_LN_TEST 0, [(F.LG_LN_TEST.LOOP, 1)])]).loop 0 = 1 ∧
    (let s := setup port [(laneReg R.LG_LN_TEST 0, [(F.LG_LN_TEST.CHK_PAT, 1)]), (laneReg R.LG_LN_PRBS_ERR_HI 0, [(F.LG_LN_PRBS_ERR_HI.LOCK, 1)]),
        (laneReg R.LG_LN_EYE_CTL 0, [(F.LG_LN_EYE_CTL.GO, 1)])];
      s.prbsOn 0 = true ∧ s.rxPowered 0 = true ∧ s.bit (laneReg R.LG_LN_PRBS_ERR_HI 0) F.LG_LN_PRBS_ERR_HI.LOCK = true ∧ s.eyeBusy 0 = true) ∧
    (let s := setup port [(R.LG_CTL 0, [(F.LG_CTL.FWD_EN, 1)]), (R.LG_STATUS 0, [(F.LG_STATUS.READY, 1), (F.LG_STATUS.FWD_LOCK, 1)])];
      s.fwdLock 0 = true ∧ s.bit (R.LG_CTL 0) F.LG_CTL.FWD_EN = true ∧ s.rxPowered 15 = true) := by decide

/-- Writes that load a group's set and a lane's own, run the checker, start a scan of a locked lane and of one that is not, and reset a
lane. -/
theorem wit_LaneCommands : port.writable 0 (R.LG_CTL 0) = true ∧ port.writable 0 (R.LG_LN_FIR_B 0 0) = true ∧
    port.writable 0 (R.LG_LN_TEST 0 0) = true ∧ port.writable 0 (R.LG_LN_EYE_CTL 0 0) = true ∧ port.writable 0 (R.LG_LN_RST 0 0) = true ∧
    taken (R.LG_CTL 0) (putFlds 0 [(F.LG_CTL.FIR_LOAD, 1)]) = 0x100 ∧ port.laneEnabled 0 = true ∧
    (setup port [(R.LG_LN_FIR_B 0 0, [(F.LG_LN_FIR_B.OWN, 1)])]).ownFir 0 = true ∧ port.patRefused 0 1 = false ∧ port.patRefused 0 0 = false ∧
    fldOf (taken (R.LG_LN_TEST 0 0) 0x10000) F.LG_LN_TEST.CHK_PAT = 1 ∧ port.eyeBusy 0 = false ∧ port.cdrLock 1 = false ∧
    (port.portOfLane 0).any (fun n => (port.port n).inPortReset) = false ∧ port.pipeHeld 0 = false := by decide

/-- A port that may be enabled, one that may not, and one that is; a port reset and its end; the end of a timeline. -/
theorem wit_PortCommands : part.writable 1 (R.PORT_CTL 0) = true ∧ part.bit (R.PORT_CTL 0) F.PORT_CTL.EN = false ∧ part.ownerOfPort 0 ≠ 0 ∧
    part.enAllowed 0 = true ∧ (part.setPipe 0 {}).enAllowed 0 = false ∧ (part.setPipe 0 {}).writable 1 (R.PORT_CTL 0) = true ∧
    port.writable 1 (R.PORT_CTL 0) = true ∧ port.bit (R.PORT_CTL 0) F.PORT_CTL.EN = true ∧ part.formed 0 = false ∧
    (let w := taken (R.PORT_CTL 0) (putFlds (port.reg (R.PORT_CTL 0)) [(F.PORT_CTL.EN, 0)]);
      fldOf w F.PORT_CTL.FC_MODE = port.fcMode 0 ∧ fldOf w F.PORT_CTL.MAXLEN = port.fld (R.PORT_CTL 0) F.PORT_CTL.MAXLEN) ∧
    port.writable 1 (R.PORT_RST 0) = true ∧ (port.port 0).inPortReset = false ∧ port.inReset (port.ownerOfPort 0) = false ∧
    (port.port 0).timeline = false ∧ ((port.setPort 0 { inPortReset := true }).port 0).inPortReset = true ∧
    (let s := port.setPort 0 { timeline := true };
      (∀ j, j < 16 → (s.port (16 * 0 + j)).timeline = decide (j = 0)) ∧ s.portEnabled 0 = true ∧ (s.lanesOf 0).any s.los = false) := by decide

/-- A port whose link can come up, one whose link is up, and faults. -/
theorem wit_LinkState : (let s := port.setBit (R.PORT_STATUS 0) F.PORT_STATUS.LINK_UP false;
      s.portEnabled 0 = true ∧ s.mode 0 ≤ 3 ∧ (s.lanesOf 0).all s.laneGives = true ∧ (s.port 0).timeline = false ∧
      (s.port 0).inPortReset = false ∧ s.bit (R.PORT_STATUS 0) F.PORT_STATUS.RX_LF = false ∧
      s.bit (R.PORT_STATUS 0) F.PORT_STATUS.RX_RF = false ∧ s.anEn 0 = false ∧ s.trainEn 0 = false ∧ s.linkUp 0 = false ∧
      s.linkReady 0 = false ∧ (s.pcsRx 0 { lock := true, fec := true, headers := [] }).linkReady 0 = true) ∧
    port.linkUp 0 = true ∧ port.mode 0 ≠ 4 ∧
    (port.setBit (R.PORT_STATUS 0) F.PORT_STATUS.RX_LF true).bit (R.PORT_STATUS 0) F.PORT_STATUS.RX_LF = true := by decide

/-- A port that negotiates, and one that trains. -/
theorem wit_Negotiation : (let s := setup port [(R.PORT_AN_CTL 0, [(F.PORT_AN_CTL.AN_EN, 1)])];
      s.portEnabled 0 = true ∧ s.anEn 0 = true ∧ s.bit (R.PORT_STATUS 0) F.PORT_STATUS.AN_DONE = false ∧ (s.port 0).anWait = false) ∧
    (let s := (setup port [(R.PORT_AN_CTL 0, [(F.PORT_AN_CTL.TRAIN_EN, 1)])]).setWorkFir 0 [0, 0, 0, 100, 0, 0];
      s.training 0 = true ∧ s.mode 0 ≠ 4 ∧ s.anEn 0 = false ∧ 0 ∈ s.lanesOf 0 ∧
      firValid (listSet (s.workFir 0) 2 ((s.workFir 0).getD 2 0 + 1)) = true ∧
      firValid (listSet (s.workFir 0) 3 31) = false) := by decide

/-- An Onazel port in SEEK, one in data with its link down and up, and a forwarded-clock port that aligns. -/
theorem wit_OnazelAndAlignment :
    (let s := setup port [(R.PORT_STATUS 0, [(F.PORT_STATUS.WIDTH_APPLIED, 1), (F.PORT_STATUS.MODE_APPLIED, 4), (F.PORT_STATUS.ONZ_STATE, 1)])];
      s.portEnabled 0 = true ∧ s.mode 0 = 4 ∧ s.onzState 0 = 1 ∧ s.onzRole 0 = 0 ∧ (s.port 0).onz.good = 0 ∧
      onzValid (onzPayload (onzParse 0)) = true ∧ onzValid (onzPayload (onzParse 0) + 1) = false) ∧
    (let s := setup port [(R.PORT_STATUS 0, [(F.PORT_STATUS.WIDTH_APPLIED, 1), (F.PORT_STATUS.MODE_APPLIED, 4), (F.PORT_STATUS.ONZ_STATE, 6)])];
      s.portEnabled 0 = true ∧ s.mode 0 = 4 ∧ s.onzState 0 = 6 ∧ s.linkUp 0 = false) ∧
    (let s := setup port [(R.PORT_STATUS 0, [(F.PORT_STATUS.WIDTH_APPLIED, 1), (F.PORT_STATUS.MODE_APPLIED, 5)])];
      s.portEnabled 0 = true ∧ s.mode 0 = 5 ∧ (s.lanesOf 0).all s.cdrLock = true ∧
      alignOrder (s.width 0) [[0x5A, 0, 1, 0, 0xA5, 0xFF, 0xFE, 0xFF]] = some [0]) := by decide
/-- A frame of 64 bytes of zeros. -/
def frame0 : Bytes := withFcs (List.replicate 60 0)

/-- A packet of that frame in buffer 0. -/
def pkt0 : Pkt := { handle := 0, len := 64, win := List.replicate 60 0 }

/-- That port's part with a pool of 512-byte buffers. -/
def pool : State :=
  setup port [(R.BPM_STATUS, [(F.BPM_STATUS.LAYOUT, 1)]), (R.BPM_POOL_CFG 0, [(F.BPM_POOL_CFG.DEFINED, 1), (F.BPM_POOL_CFG.SIZE, 2), (F.BPM_POOL_CFG.COUNT, 1600)]),
    (R.BPM_WR_QUOTA 0 0, [(F.BPM_WR_QUOTA.VALUE, 10)]), (R.PIT_BUF_RSV 1 0, [(F.PIT_BUF_RSV.RSV, 100)])]

theorem wit_FrameReceipt : fcsOk frame0 = true ∧ frame0.length = 64 ∧
    (let rx : RxFrame := { bytes := frame0 };
      (pool.lanesOf 0).any pool.landsOff = false ∧ pool.rxLine 0 rx = (some (rx, true, false), pool) ∧
      ((pool.farEnd 0 rx).fecCount 0 0 0 0).onzMarkerUp 0 = pool ∧ pool.linkFrame rx.bytes = false ∧ pool.rxFault 0 rx = none ∧
      pool.mode 0 ≠ 4 ∧ 4 * (pool.port 0).loopAt ≤ pool.edge64 rx.age ∧
      pool.rxFault 0 { rx with pcsErr := true } = some (C.RX_PCS_ERR 0) ∧ pool.rxFault 0 { rx with bytes := frame0 ++ [0] } = some (C.RX_FCS_ERR 0) ∧
      (pool.pipe 0).entry.length < 256 ∧ beNat (slice rx.bytes 12 2) ≠ 0x8808) ∧
    (let s := setup pool [(laneReg R.LG_LN_TEST 0, [(F.LG_LN_TEST.LOOP, 1)])]; (s.lanesOf 0).any s.landsOff = true ∧ (s.port 0).loopRx = [] ∧
      ((s.setPort 0 { loopRx := [(frame0, false)] }).port 0).loopRx = (frame0, false) :: []) ∧
    (let s := pool.setPort 0 { loopAt := 5 }; s.mode 0 ≠ 4 ∧ s.edge64 {} < 4 * (s.port 0).loopAt) ∧
    (let b := withFcs (List.replicate 12 0 ++ natBE 2 (pool.fld R.TIME_TL_CTL F.TIME_TL_CTL.ETYPE) ++ List.replicate 46 0);
      pool.linkFrame b = true ∧ pool.linkFrame (b.take 63) = true ∧ pool.rxFault 0 { bytes := withFcs (b.take 50) } = some (C.RX_RUNT 0)) := by decide

theorem wit_BufferGrant : pool.layoutFixed = true ∧ pool.poolFor 64 = some 0 ∧ pool.bpmJudge 0 0 = none ∧ pool.nextSlice 0 = some 0 ∧
    pool.rqOwner 0 = 1 := by decide

/-- A pipeline that runs with its ingress tick open, and a packet ready in it; and one with no tick open. -/
theorem wit_Berths : (let s := pool.setPipe 0 { img := some {}, entry := [pkt0], egress := [pkt0], igTick := 1, egTick := 1, igOpen := true, egOpen := true };
      s.pipeRuns 0 = true ∧ (s.pipe 0).igOpen = true ∧ berthOrder (s.pipe 0).rot ((s.pipe 0).entry.filter (s.pipe 0).isReady) = [pkt0] ∧
      (s.pipe 0).egOpen = true ∧ s.egReady 0 = [pkt0]) ∧
    (let s := (pool.setPipe 0 { img := some {}, igTick := 72 }).setCols 0 false [emptyCol];
      s.cols 0 false = [emptyCol] ∧ emptyCol.tick + halfDepth false ≤ (s.pipe 0).now false ∧ s.cols 0 true = [] ∧
      ((pool.setCols 0 false [emptyCol]).pipe 0).now false < emptyCol.tick + halfDepth false) ∧
    (pool.pipe 0).igOpen = false ∧ (pool.pipe 0).egOpen = false := by decide

/-- A packet at a stage; at the first egress stage; at the last stages of both halves. -/
theorem wit_StagePassage : ∀ st ∈ [3, 15, 16, 23], (pool.setWaiting 0 st [pkt0]).pipeRuns 0 = true ∧ (pool.setWaiting 0 st [pkt0]).waiting 0 st = [pkt0] ∧
    pool.waiting 0 st = [] ∧ ((pool.setWaiting 0 st [pkt0]).pipe 0).now (decide (16 ≤ st)) < stageBy pkt0.tick st ∧
    stageBy pkt0.tick st ≤ ((pool.setPipe 0 { img := some {}, igTick := 99, egTick := 99 }).pipe 0).now (decide (16 ≤ st)) := by decide

/-- Packets that are dropped, and one that reaches its queue: m7 names port 0 and class 3. -/
theorem wit_Enqueue : (let k : Pkt := { pkt0 with m := [0, 0, 0, 0, 0, 0, 0, 3 * 2 ^ 24] };
    let s := setup (pool.setWaiting 0 24 [k]) [(R.TM_IN_DROP 0 3, [(F.TM_IN_DROP.UNITS, 100)]), (R.TM_Q_LIMIT 0 3, [(F.TM_Q_LIMIT.LIMIT, 100)]),
      (R.TM_PORT_LIMIT 0, [(⟨0, 20⟩, 100)])];
    s.pipeRuns 0 = true ∧ s.waiting 0 24 = [k] ∧ k.drop = false ∧ k.f 7 28 2 = 0 ∧ k.f 7 0 16 % 1024 = 0 ∧ k.f 7 24 4 = 3 ∧ nbit (k.r 9) 31 = false ∧
    s.bufFenced k.handle = false ∧ s.ownerOfPort 0 = s.ownerOfPipe 0 ∧ s.portEnabled 0 = true ∧
    s.inOcc 0 3 + k.len ≤ s.fld (R.TM_IN_DROP 0 3) F.TM_IN_DROP.UNITS * 256 ∧ s.step6 0 3 k.len (s.isLossless 0 3) = none) ∧
    ({ pkt0 with m := [0, 0, 0, 0, 0, 0, 0, 3 * 2 ^ 28] } : Pkt).f 7 28 2 = 3 := by decide

theorem wit_Replicator : (let s := pool.setPipe 0 { img := some {}, repl := [(pkt0, [0])] }; s.pipeRuns 0 = true ∧ (s.pipe 0).repl = [(pkt0, [0])]) := by decide

/-- One frame in a strict queue; a Timetable frame that is due. -/
theorem wit_Scheduler : (let s := pool.setTmq 0 3 { pkts := [pkt0] };
      s.linkUp 0 = true ∧ s.portOk 0 = true ∧ (s.tmq 0 3).pkts = [pkt0] ∧ pkt0.floor = none ∧ (∀ d, d < 16 → d ≠ 3 → (s.tmq 0 d).pkts = []) ∧
      s.held 0 3 = false ∧ s.peakOk 0 3 = true ∧ s.isDwrr 0 3 = false ∧ s.bufFenced 0 = false ∧ s.pipeRuns 0 = true) ∧
    (let k : Pkt := { pkt0 with floor := some 5, dueNow := true }; let s := pool.setTmq 0 0 { pkts := [k] };
      let due := (s.ttHeld 0).filter (fun e => e.1.dueNow && !s.held 0 e.1.cls && s.peakOk 0 e.1.cls);
      due.length = 1 ∧ (ttFirst 0 due).isSome = true) ∧ pool.portOk 1 = true ∧ pool.linkUp 1 = false := by decide

/-- A held packet whose release instant has come. -/
theorem wit_TimetableRelease : (let k : Pkt := { pkt0 with floor := some 0 }; let s := pool.setTmq 0 3 { pkts := [k] };
    s.pipeRuns 0 = true ∧ (s.tmq 0 3).pkts = [k] ∧ s.ttReached 0 (s.ttDue k 0) = true) := by decide

/-- An injected frame at the deparser; a packet that egress drops. -/
theorem wit_Deparser : (let k : Pkt := { pkt0 with kind := .injected };
      let s := (pool.setBuf 0 (some { primary := some 0, owner := 1, bytes := frame0 })).setWaiting 0 25 [k];
      s.pipeRuns 0 = true ∧ s.waiting 0 25 = [k] ∧ k.outPort = 0 ∧ k.runs = false ∧ s.portEnabled 0 = true ∧ s.genOn 0 = false ∧
      s.bufFenced 0 = false ∧ (s.buf 0).isSome = true ∧ (frame0.take k.len).length ≤ s.maxLen 0 ∧ s.bit R.PIT_MIR_CTL F.PIT_MIR_CTL.EN = false ∧
      s.ownBuf (s.rqOwner k.rq) 0 = true ∧ pool.ownBuf (pool.rqOwner k.rq) 0 = false ∧
      (s.setBuf 0 (some { primary := some 1, owner := 1 })).ownBuf (s.rqOwner k.rq) 0 = false) ∧
    (let k : Pkt := { pkt0 with m := [0, 0, 0, 0, 0, 0, 0, 2 ^ 31] }; k.runs = true ∧ k.drop = true) := by decide

/-- Frames that start and end, and a pause frame in line. -/
theorem wit_MacFrames : (let f : TxFrame := { pkt := pkt0, bytes := frame0 }; let s := pool.setPtm 0 { tx := [f] };
      (s.ptm 0).tx.find? (fun f => !f.started) = some f ∧ f.pkt.floor = none ∧ s.mode 0 ≠ 4 ∧ s.mode 0 ≠ 5 ∧ s.loopedBack 0 = false ∧
      s.macDrives 0 = true ∧ s.linkUp 0 = true ∧ pool.linkUp 1 = false ∧
      ((pool.setPtm 0 { tx := [{ f with started := true }] }).ptm 0).tx = [{ f with started := true }]) ∧
    (∀ m ∈ [4, 5], let s := setup pool [(R.PORT_STATUS 0, [(F.PORT_STATUS.WIDTH_APPLIED, 1), (F.PORT_STATUS.MODE_APPLIED, m), (F.PORT_STATUS.LINK_UP, 1)])];
      s.linkUp 0 = true ∧ s.mode 0 = m) ∧
    (let s := setup (pool.setPtm 0 { ctl := [.fc] }) [(R.PORT_CTL 0, [(F.PORT_CTL.EN, 1), (F.PORT_CTL.MAXLEN, 9600), (F.PORT_CTL.FC_MODE, 1)]),
        (R.TM_FC_STATUS 0, [(F.TM_FC_STATUS.PORT_XOFF, 1)])];
      (s.ptm 0).ctl = [.fc] ∧ s.linkUp 0 = true ∧ s.genOn 0 = false ∧ s.macDrives 0 = true ∧ s.loopedBack 0 = false ∧ 64 ≤ s.maxLen 0 ∧
      s.ttBefore 0 (s.ctlStart 0 (s.wire16 0 64) + s.wire16 0 64) = false ∧ (s.fcFrame 0).isSome = true ∧ (s.reg (R.TM_FC_STATUS 0)).toNat ≠ 0 ∧
      (s.ptm 0).ctlLine = [] ∧ (∀ f ∈ (s.ptm 0).tx, f.started = false ∧ s.ctlStart 0 (s.wire16 0 64) < f.start) ∧
      (let u := s.setPtm 0 { s.ptm 0 with tx := [{ pkt := pkt0, bytes := frame0, started := true }] };
        (∃ f ∈ (u.ptm 0).tx, f.started = true ∨ f.start ≤ u.ctlStart 0 (u.wire16 0 64)) ∧ (u.ptm 0).ctlLine = [] ∧
        u.ttBefore 0 (u.ctlStart 0 (u.wire16 0 64) + u.wire16 0 64) = false)) := by decide

theorem wit_PauseReceipt : (let s := setup port [(R.PORT_CTL 0, [(F.PORT_CTL.EN, 1), (F.PORT_CTL.FC_MODE, 1)])]; s.fcMode 0 = 1 ∧ s.linkUp 0 = true) ∧
    (let s := setup port [(R.PORT_CTL 0, [(F.PORT_CTL.EN, 1), (F.PORT_CTL.FC_MODE, 2)]), (R.PORT_PFC_MAP 0 2, [(F.PORT_PFC_MAP.EN, 1), (F.PORT_PFC_MAP.CLASS, 5)])];
      s.fcMode 0 = 2 ∧ s.linkUp 0 = true ∧ nbit 4 2 = true ∧ s.pfcClass 0 2 = some 5 ∧ (∀ j, j < 8 → j ≠ 2 → s.pfcClass 0 j ≠ some 5)) ∧
    (∃ t, exec (.pauseRx 0 9) (setup port [(R.PORT_CTL 0, [(F.PORT_CTL.EN, 1), (F.PORT_CTL.FC_MODE, 1)])]) = .next t ∧
      t.paused 0 3 = true) := ⟨by decide, by decide, ⟨_, rfl, by decide⟩⟩

theorem wit_PortAway : (let s := setup part [(R.PORT_STATUS 0, [(F.PORT_STATUS.WIDTH_APPLIED, 1)]), (R.PORT_CTL 0, [(F.PORT_CTL.EN, 1)]),
      (R.TM_PORT_CTL 0, [(F.TM_PORT_CTL.DOWN_FLUSH, 1)])];
      s.linkUp 0 = false ∧ s.portEnabled 0 = true ∧ s.downDrop 0 = false ∧ s.fld (R.TM_PORT_CTL 0) F.TM_PORT_CTL.DOWN_FLUSH ≠ 0) ∧
    (let s : State := { (setup port [(R.TM_WD_CTL 0, [(F.TM_WD_CTL.T, 1)])]) with time := { now := 1000000 }, tm := { q := [(0 * 16 + 3, { pkts := [pkt0], stallAt := some 0 })] } };
      s.wdTime 0 ≠ 0 ∧ s.discarding 0 3 = false ∧ 0 + s.wdTime 0 ≤ s.clk16 ∧ (s.tmq 0 3).stallAt = some 0 ∧ (s.tmq 0 4).stallAt = none ∧
      s.clk16 < (s.clk16 + 1) + s.wdTime 0) ∧
    (let s : State := { (setup port [(R.TM_WD_CTL 0, [(F.TM_WD_CTL.T, 1)]), (R.TM_PORT_STATUS 0, [(F.TM_PORT_STATUS.DISCARD, 0xFFFF)])]) with
        time := { now := 1000000 }, tm := { q := [(0 * 16 + 3, { emptyAt := some 0 })] } };
      s.discarding 0 3 = true ∧ (s.tmq 0 3).emptyAt = some 0 ∧ 0 + s.wdTime 0 ≤ s.clk16 ∧ (s.tmq 0 4).emptyAt = none ∧ s.discarding 0 4 = true) := by decide
/-- That part with a table of 16-byte entries in stage 0 of pipeline 0 and a TCAM table of one slice. -/
def tables : State :=
  setup part [(R.STG_EM_CFG 0 0 0, [(F.STG_EM_CFG.DEFINED, 1), (F.STG_EM_CFG.DEPTH_LOG2, 6), (F.STG_EM_CFG.KEY_LEN, 4)]),
    (R.TC_CFG 0 0 0, [(F.TC_CFG.DEFINED, 1), (F.TC_CFG.SLICES, 1), (F.TC_CFG.WIDTH, 1)])]

/-- A valid dynamic entry. -/
def row0 : EmRow := { bytes := emEntry 16 false 1 [1, 2, 3, 4] [] }

/-- An indirect command that is taken; its turn at the engine; and its key, not held and held. -/
theorem wit_EmIndirect : tables.writable 1 (R.STG_IA_CMD 0 0) = true ∧ tables.bit (R.STG_IA_CMD 0 0) F.STG_IA_CMD.GO = false ∧
    tables.pipeHeld 0 = false ∧ (tables.pipe 0).img.isSome = true ∧ tables.emDefined 0 0 0 = true ∧ 0 < tables.emD 0 0 0 ∧
    (let s := tables.setEmStage 0 0 { job := some .indirect, busy := 47 };
      (s.emStage 0 0).toClear = [] ∧ (s.emStage 0 0).job = some .indirect ∧ 47 ≤ (s.emStage 0 0).busy) ∧
    (tables.iaFind 0 0 0).1 = none ∧ (tables.emRow 0 0 0).bad = [] := by decide

/-- A learn request at the head; a freed row; a row that failed; a flush. -/
theorem wit_EmEngine : row0.valid = true ∧ row0.static = false ∧ row0.marked = false ∧
    (let s := tables.setEmStage 0 0 { learn := [{ table := 0, key := [1, 2, 3, 4], action := 1, data := [] }], freed := [0] };
      s.pipeRuns 0 = true ∧ s.emLearnTurn 0 0 = true ∧ (s.emFind 0 0 0 [1, 2, 3, 4] (fun _ => true)).1 = none ∧
      ((s.learnOutcome 0 0 { table := 0, key := [1, 2, 3, 4], action := 1, data := [] }).1.filter fun n => s.noteOn 0 0 0 n.1).length ≤ s.noteRoom 0 0) ∧
    (let s := tables.setEmStage 0 0 { freed := [0] }; s.emLearnTurn 0 0 = true ∧ (s.learnNext 0 0).isNone = true ∧ (s.stashPick 0 0 0).isNone = true) ∧
    (∀ m ∈ [0, 1, 2], let q : LearnReq := { table := 0, key := [1, 2, 3, 4], action := if m = 1 then 2 else 1, data := [] };
      let s := tables.setEmStage 0 0 { learn := [q] };
      let l := (s.emCands 0 0 0 q.key).headD 0;
      let u := s.setEmRow 0 0 l { row0 with see := if m = 2 then 1 else 3 };
      (u.emFind 0 0 0 q.key (fun _ => true)).1 = some l ∧ (u.emRow 0 0 l).static = false ∧ (u.emRow 0 0 l).marked = decide (m = 2) ∧
      decide ((u.emRow 0 0 l).action = q.action) = decide (m ≠ 1) ∧ (u.emFind 0 0 0 q.key (fun _ => true)).2 = [] ∧
      (fitBytes 16 row0.bytes).drop 8 = (fitBytes 16 (emEntry 16 false q.action q.key q.data)).drop 8) ∧
    (let s := (tables.setEmStage 0 0 { toClear := [0] }).setEmRow 0 0 0 { row0 with bad := [0] };
      (s.emStage 0 0).toClear = [0] ∧ (s.emRow 0 0 0).bad ≠ []) ∧
    (let s := tables.setEmStage 0 0 { flush := some 4 }; (s.emStage 0 0).flush = some 4 ∧ s.emD 0 0 0 ≤ 4 * 16) := by decide

/-- A visit that finds an entry of the age limit, and one that finds it younger. -/
theorem wit_AgerVisit : (let s := setup tables [(R.STG_EM_AGE 0 0 0, [(F.STG_EM_AGE.AGE_LIMIT, 1)])];
      s.agerVisitLocs 0 0 ((List.range 4).filter fun t => s.emDefined 0 0 t) 0 = some [0, 65536, 131072, 196608] ∧
      s.fld (R.STG_EM_AGE 0 0 0) F.STG_EM_AGE.AGE_LIMIT ≠ 0 ∧ s.noteRoom 0 0 ≠ 0 ∧ row0.bad = [] ∧ row0.tsBad = false ∧ s.pipeRuns 0 = true ∧
      0 < s.emD 0 0 0 ∧ (∀ l ∈ [0, 65536, 131072, 196608], s.ageLoc 0 0 l = (true, s)) ∧
      ((s.setEmRow 0 0 0 { row0 with bad := [0] }).emRow 0 0 0).bad ≠ []) := by decide

/-- A TCAM command that is taken, its turn, and an entry's place. -/
theorem wit_TcIndirect : tables.writable 1 (R.TC_IA_CMD 0) = true ∧ tables.bit (R.TC_IA_CMD 0) F.TC_IA_CMD.GO = false ∧
    tables.tcDefined 0 0 0 = true ∧ 5 < 1024 * tables.tcSlices 0 0 0 ∧
    (let s := tables.setTcPipe 0 { job := some .indirect, busy := 1023, toClear := [7] };
      (s.tcPipe 0).move = none ∧ (s.tcPipe 0).job = some .indirect ∧ 1023 ≤ (s.tcPipe 0).busy) ∧
    (let s := (setup tables [(R.TC_IA_CMD 0, [(F.TC_IA_CMD.OP, 2)])]).setTcPipe 0 { job := some .indirect, busy := 15 };
      (s.tcPipe 0).move = none ∧ (s.tcPipe 0).job = some .indirect ∧ s.fld (R.TC_IA_CMD 0) F.TC_IA_CMD.OP = 2 ∧ 15 ≤ (s.tcPipe 0).busy) ∧
    (tables.tcFree 0).tcRow 0 5 = {} ∧ (∀ j, j < 1 → tcCompare ({} : TcRow) 1 j = .same) ∧
    (tables.tcSearch 0 0 0 0 0 0).1 = none := by decide

/-- The staged mask sets; a scrubber that has its turn; a faulty entry. -/
theorem wit_TcEngine : tables.writable 1 (R.TC_GMASK_CTL 0 0 0) = true ∧ tables.scrubTurn 0 = true ∧ tables.pipeRuns 0 = true ∧
    (tables.setTcPipe 0 { toClear := [5] }).scrubTurn 0 = false ∧ ((tables.setTcPipe 0 { toClear := [5] }).tcPipe 0).runs = false ∧
    ((tables.setTcPipe 0 { toClear := [5] }).tcPipe 0).toClear = [5] ∧ ((tables.setTcPipe 0 { toClear := [5], busy := 3 }).tcPipe 0).runs = true ∧
    tables.pipeRuns 1 = false ∧ tables.bit (R.TC_SCRUB_CTL 1) F.TC_SCRUB_CTL.EN = true ∧
    (let g : Image := { stages := [{ tc := [some { sel := [], width := 1, slices := [0] }] }] };
      tcBlocks g = (0, 0, 0, 0, 0) :: (tcBlocks g).tail ∧
      ((tcBlocks g).find? (fun x => decide (tables.fld (R.TC_SCRUB_POS 0) F.TC_SCRUB_POS.BLOCK ≤ x.1))).getD (0, 0, 0, 0, 0) = (0, 0, 0, 0, 0) ∧
      0 < 2 ^ F.TC_SCRUB_POS.BLOCK.w ∧ tcCompare ({} : TcRow) 1 0 = .same) ∧
    tcBlocks { stages := [{ tc := [some { sel := [], width := 1, slices := [0] }] }] } = [(0, 0, 0, 0, 0)] ∧
    (setup tables [(R.TC_SCRUB_CTL 0, [(F.TC_SCRUB_CTL.EN, 1)])]).bit (R.TC_SCRUB_CTL 0) F.TC_SCRUB_CTL.EN = true ∧
    tables.fld (R.TC_SCRUB_POS 0) F.TC_SCRUB_POS.ROW + 1 < 1024 := by decide

/-- Pitch 1 with its version block in state `v`. -/
def verIn (v : Nat) : State := tables.setVerState 1 v

/-- A version command in every state that it may find. -/
theorem wit_VersionCommands : (∀ v ∈ [0, 1, 2, 3], (verIn v).writable 1 (verAddr 0) = true ∧ (verIn v).inReset 1 = false ∧
      (verIn v).verState 1 = v ∧ (verIn v).ownerOfPipe 0 = 1) ∧ (verIn 1).groupRuns 1 = false ∧
    (setup (verIn 1) [(R.VER_GW_CMD 0, [(F.VER_GW_CMD.GO, 1)])]).groupRuns 1 = true := by decide

/-- A commit that crosses; a drain; its end, and its limit. -/
theorem wit_VersionProgress : ((verIn 2).setPipe 0 { img := some {}, landing := true }).ownerOfPipe 0 = 1 ∧
    (∀ q ∈ (verIn 2).pipesOf 1, q ≠ 0 → ((verIn 2).pipe q).landing = false) ∧ (verIn 3).verState 1 = 3 ∧
    (∀ p ∈ (verIn 3).pipesOf 1, (verIn 3).oldLive p = 0) ∧ (verIn 4).verState 1 = 4 ∧ (verIn 5).verState 1 = 5 ∧
    (verIn 4).bit (R.VER_STATUS 1) F.VER_STATUS.OPEN_HELD = false ∧
    (let s : State := { setup (((verIn 3).setPipe 0 { img := some {} }).setWaiting 0 3 [{ tag := true }])
        [(R.VER_DRAIN_LIMIT 1, [(F.VER_DRAIN_LIMIT.LIMIT, 1)])] with time := { now := 5000 } };
      min 1000000 (s.fld (R.VER_DRAIN_LIMIT 1) F.VER_DRAIN_LIMIT.LIMIT) = 1 ∧ s.verState 1 = 3 ∧ (s.verSt 1).late = false ∧
      (s.verSt 1).appliedNow + 1000 * 1 ≤ s.time.now ∧ (∃ p ∈ s.pipesOf 1, s.oldLive p ≠ 0)) := by decide

/-- A group operation that is taken; its turn; its key; and the end of a TCAM insert. -/
theorem wit_GroupOperations : (let s := verIn 1;
      s.writable 1 (R.VER_GW_CMD 0) = true ∧ s.bit (R.VER_GW_CMD 0) F.VER_GW_CMD.GO = false ∧ s.verState 1 = 1 ∧ s.pipeHeld 0 = false ∧
      (s.pipe 0).img.isSome = true ∧ s.emDefined 0 0 0 = true ∧ s.tcDefined 0 0 0 = true ∧
      s.bit (R.STG_IA_CMD 0 0) F.STG_IA_CMD.GO = false ∧ s.bit (R.TC_IA_CMD 0) F.TC_IA_CMD.GO = false ∧
      (s.gwFind 0 0 0 1).1 = none ∧ s.verRows 0 = 0 ∧ (s.verSt 1).atRound = none ∧
      ((s.setVer 1 { s.verSt 1 with atRound := some 5 }).verSt 1).atRound ≠ none) ∧
    (let c : Word := putFlds 0 [(F.VER_GW_CMD.OP, 3)]; fldOf c F.VER_GW_CMD.OP = 3 ∧
      (((verIn 1).setTcPipe 0 { job := some (.group c), busy := 15 }).tcPipe 0) = { job := some (.group c), busy := 15 }) ∧
    ((verIn 1).setEmStage 0 0 { job := some (.group 0), busy := 47 }).emStage 0 0 = { job := some (.group 0), busy := 47 } ∧
    (((verIn 1).setTcPipe 0 { job := some (.group 0) }).tcPipe 0).job = some (.group 0) := by decide

/-- A swap that begins, one that lands, one that drains, and a standby word. -/
theorem wit_MicrocodeSwap : (let s := part.setPipe 0 { img := some { stages := [{ dir := [{ e := 0, start := 3072, slots := 1, cust := true }] }] } };
      s.writable 1 (swapAddr 0) = true ∧ s.presOpen = true ∧ (s.pipe 0).swapDue = false ∧
      s.bit (R.STG_UC_SWAP 0) F.STG_UC_SWAP.DRAINING = false ∧ s.inReset (s.ownerOfPipe 0) = false ∧
      (∃ g, (s.pipe 0).img = some g ∧ Sys2Proof.Machine.Image.hasHooks g = true)) ∧ part.oldBankIn 0 = false ∧
    ((part.setPipe 0 { swapDue := true }).pipe 0).swapDue = true ∧ part.writable 1 (R.STG_UC_STBY 0 0 0) = true ∧ part.ucBank 0 < 2 :=
  ⟨⟨by decide, by decide, by decide, by decide, by decide, ⟨_, rfl, by decide⟩⟩, by decide⟩

/-- A load that is refused, one that is taken, and the ends of one. -/
theorem wit_ImageLoads : (let s : State := { State.reset with pw := { linkUp := true } };
      s.writable 0 (R.DEV_LOAD_CTL 0) = true ∧ s.bit (R.DEV_LOAD_CTL 0) F.DEV_LOAD_CTL.GO = false) ∧
    part.pipeFused 0 = false ∧ part.ownerOfPipe 0 ≠ 0 ∧ part.writable 0 (R.DEV_LOAD_CTL 0) = true ∧
    ((List.range 16).filter fun p => nbit (fldOf (putFlds 0 [(F.DEV_LOAD_CTL.PIPES, 1)]) F.DEV_LOAD_CTL.PIPES) p) = [0] ∧
    part.pipeFailed 0 = false ∧ part.imgHash 0 ≠ some [1] ∧ part.pipeHasEnabled 0 = false ∧ port.pipeHasEnabled 0 = true ∧
    part.layoutFixed = false ∧ imageOk {} = false := by decide

/-- A word of a program, a row of a table, and the shadow of an entry, that an upset may hit. -/
theorem wit_Upsets : tables.emDefined 0 0 (locTable 3) = true ∧ 7 < 8 * tables.emE 0 0 (locTable 3) ∧ locStash 3 = false ∧
    3 % 2 ^ 16 < tables.emD 0 0 (locTable 3) ∧ (tables.emRow 0 0 3).bad = [] ∧ tables.tcDefined 0 0 0 = true ∧
    5 < 1024 * tables.tcSlices 0 0 0 ∧ 0 < tables.tcW 0 0 0 ∧ (tables.tcRow 0 (tcKey 0 0 5)).bad = [] := by decide
/-- That part's pipeline has word `w` to write in TM_IA_CMD: a slot, a policer, a group of no one. -/
theorem wit_TmIndirect : part.writable 1 (R.TM_IA_CMD 0) = true ∧ part.pipeHeld 0 = false ∧
    fldOf (putFlds 0 [(F.TM_IA_CMD.TARGET, 2)]) F.TM_IA_CMD.TARGET = 2 ∧ part.mcInRange (part.ownerOfPipe 0) 70000 = false ∧
    part.lateInRound = false ∧ part.bit (R.TM_IA_CMD 0) F.TM_IA_CMD.GO = false ∧ part.tmIaRefusal 0 = 0 ∧
    (let s := setup part [(R.TM_IA_CMD 0, [(F.TM_IA_CMD.GO, 1), (F.TM_IA_CMD.TARGET, 2)])];
      s.bit (R.TM_IA_CMD 0) F.TM_IA_CMD.GO = true ∧ s.tmIaRefusal 0 = 0 ∧ ∀ m : PipeNo, m ≠ 0 → s.bit (R.TM_IA_CMD m) F.TM_IA_CMD.GO = false) ∧
    (∃ s : State, s.bit (R.TM_IA_CMD 0) F.TM_IA_CMD.GO = false ∧ s.writable 1 (R.TM_IA_CMD 0) = true ∧ s.pipeHeld 0 = true) :=
  ⟨by decide, by decide, by decide, by decide, by decide, by decide, by decide, by decide,
    ⟨setup part [(R.PIT_CTL 1, [(F.PIT_CTL.SELF_RESET, 1)])], by decide⟩⟩

/-- Buffers that may be reclaimed, are referenced by nothing, or belong to another; a fenced slice. -/
theorem wit_BufferCommands : (let s := pool.setBuf 0 (some { primary := some 0, owner := 1 });
      s.writable 1 (R.BPM_AUD_CTL 1) = true ∧ s.writable 1 (R.BPM_RECLAIM 1) = true ∧ s.inReset 1 = false ∧ s.handleOk 0 = true ∧
      (s.buf 0).isSome = true ∧ s.rqOwner 0 = 1 ∧ s.referenced 0 = false ∧ s.writable 0 (R.BPM_RECLAIM 2) = true ∧ pool.buf 0 = none ∧
      s.recl 1 = none ∧ s.handleOk (2 ^ 24 - 1) = false) ∧
    (let b : Buf := { primary := some 0, owner := 1 }; let s := (pool.setBuf 0 (some b)).setRecl 1 (some ⟨0, 0, b, false⟩);
      s.recl 1 = some ⟨0, 0, b, false⟩ ∧ s.buf 0 = some b ∧ s.referenced 0 = false ∧ 0 ≤ s.t16 ∧
      (s.setRecl 1 (some ⟨0, 0, b, true⟩)).recl 1 = some ⟨0, 0, b, true⟩) ∧
    pool.writable 0 R.BPM_FENCE_CTL = true ∧ pool.sliceFenced 3 = false ∧
    (setup pool [(R.BPM_STATUS, [(F.BPM_STATUS.FENCED, 8)])]).sliceFenced 3 = true := by decide

/-- A set, an adjustment, a frequency and a source that may be written; a set that is armed; a servo; a window and none. -/
theorem wit_TimeCommands : part.writable 0 R.TIME_SET_CTL = true ∧ part.setBusy = false ∧ (part.reg R.TIME_SET_NS).toNat % 2 ^ 30 < 1000000000 ∧
    (setup part [(R.TIME_SET_CTL, [(F.TIME_SET_CTL.RESULT, 15)])]).setBusy = true ∧
    1000000000 ≤ ((setup part [(R.TIME_SET_NS, [(⟨0, 30⟩, 1000000000)])]).reg R.TIME_SET_NS).toNat % 2 ^ 30 ∧
    part.writable 0 R.TIME_ADJ_CTL = true ∧ part.timeSrc = 0 ∧ (setup part [(R.TIME_STATUS, [(F.TIME_STATUS.SRC, 2)])]).timeSrc = 2 ∧
    part.writable 0 R.TIME_FREQ = true ∧ part.writable 0 R.TIME_SRC_CTL = true ∧ taken R.TIME_SRC_CTL 2 = 2 ∧ part.reg R.TIME_SRC_CTL ≠ 2 ∧
    (part.reg R.TIME_SRC_CTL &&& 0xFF37 = part.reg R.TIME_SRC_CTL) ∧ part.presOpen = true ∧
    (setup part [(R.DEV_PRES_STATUS, [])]).presOpen = false ∧ (part.tnow.units : Int) + -1 < 0 := by decide

/-- A servo under every source; an armed set; a lost source; a dataset that is current. -/
theorem wit_TimeSources : part.time.copy1 = none ∧
    (let s := setup part [(R.TIME_STATUS, [(F.TIME_STATUS.SRC, 2)])]; s.setBusy = false ∧ s.timeSrc = 2 ∧ s.time.lost = false ∧ s.time.corr = none) ∧
    (let s := setup part [(R.TIME_STATUS, [(F.TIME_STATUS.SRC, 1)])]; s.timeSrc = 1 ∧ s.time.lost = false ∧ s.time.corr = none) ∧
    (setup part [(R.TIME_STATUS, [(F.TIME_STATUS.SRC, 2), (F.TIME_STATUS.LOCKED, 1)])]).bit R.TIME_STATUS F.TIME_STATUS.LOCKED = true ∧
    (setup part [(R.TIME_TL_STAT 2, [(F.TIME_TL_STAT.CURRENT, 1)])]).bit (R.TIME_TL_STAT 2) F.TIME_TL_STAT.CURRENT = true ∧
    (part.setTime { lost := true }).time.lost = true ∧ (part.setTime { corr := some 5 }).time.corr = some 5 ∧ part.timeSrc ≠ 1 := by decide

/-- A time link that one port carries, and a good frame for it. -/
theorem wit_TimeLinkFrames : (let s := setup port [(R.TIME_TL_PORT 1, [(F.TIME_TL_PORT.EN, 1), (F.TIME_TL_PORT.PORT, 0)])];
      s.tlPort 1 = some 0 ∧ (∀ j : Fin 4, j ≠ 1 → s.tlPort j = none)) ∧ (∀ k : Fin 4, part.tlPort k = none) ∧
    (let b := withFcs (List.replicate 14 0 ++ [1] ++ List.replicate 49 0); fcsOk b = true ∧ byteAt b 14 = 1 ∧ (byteAt b 26).toNat < 15 ∧
      ((port.tlSt 1).sent.all fun x => !decide (x = tlTimeAt b 40)) = true ∧ port.frameFault 0 b = none ∧ fcsOk (b ++ [0]) = false ∧
      fcsOk (withFcs (b.take 50)) = true ∧ (withFcs (b.take 50)).length < 64) ∧
    (let s := setup port [(R.PORT_CTL 0, [(F.PORT_CTL.EN, 1), (F.PORT_CTL.MAXLEN, 64)])]; let b := withFcs (List.replicate 64 0);
      fcsOk b = true ∧ 64 ≤ b.length ∧ s.maxLen 0 < b.length) ∧
    (let s := setup port [(R.TIME_TL_PORT 1, [(F.TIME_TL_PORT.EN, 1), (F.TIME_TL_PORT.PORT, 0)]),
        (R.TIME_TL_PORT 2, [(F.TIME_TL_PORT.EN, 1), (F.TIME_TL_PORT.PORT, 0)])];
      s.tlPort 1 = some 0 ∧ s.tlPort 2 = some 0 ∧ ∀ i : Fin 4, i ≠ 1 → i ≠ 2 → s.tlPort i = none) := by decide

/-- An output that may be armed and disarmed, one that is armed, pulses that are due, and an input that selects its edge. -/
theorem wit_PulsesAndCaptures : part.writable 0 (R.TIME_PPS_CTL 2) = true ∧ part.ppsMode 2 ≠ 3 ∧
    part.bit (R.TIME_PPS_CTL 2) F.TIME_PPS_CTL.ARM = false ∧ part.bit (R.TIME_PPS_CTL 2) F.TIME_PPS_CTL.DISARM = false ∧
    (part.reg (R.TIME_PPS_START_NS 2)).toNat % 2 ^ 30 < 1000000000 ∧
    ((part.setPps 2 { lateDue := true }).ppsOut 2).lateDue = true ∧ ((part.setPps 2 { stop := some 0 }).ppsOut 2).stop = some 0 ∧
    ((part.setPps 2 { next := some 0 }).ppsOut 2).next = some 0 ∧ part.tnow.units = 0 ∧
    ((part.setPps 2 { stop := some 0, disarm := true }).ppsOut 2).disarm = true ∧
    (let s := setup part [(R.TIME_EVT_CTL 2, [(F.TIME_EVT_CTL.EDGE, 1)])];
      nbit (s.fld (R.TIME_EVT_CTL 2) F.TIME_EVT_CTL.EDGE) 0 = true ∧ (s.evtIn 2).last = none ∧ (s.evtIn 2).fifo.length < 16 ∧
      s.writable 0 (R.TIME_EVT_CTL 2) = true) ∧ nbit (part.fld (R.TIME_EVT_CTL 2) F.TIME_EVT_CTL.EDGE) 1 = false := by decide

/-- Queues that may be popped; a calibration that runs, and a frame that returns to it. -/
theorem wit_StampQueuesAndCalibration : port.writable 1 (R.PORT_TS_TXQ_CTL 0) = true ∧ port.writable 1 (R.TT_LATE_CTL 1) = true ∧
    port.writable 1 (R.STG_NOTE_CTL 0 0) = true ∧ port.writable 1 (R.IRQ_HIST_CTL 1) = true ∧ port.writable 1 (R.PORT_TS_CAL_CTL 0) = true ∧
    port.calRun 0 = none ∧ (port.portEnabled 0 && port.linkUp 0) = true ∧ (part.portEnabled 0 && part.linkUp 0) = false ∧
    (let s := port.setCal 0 (some { left := 2, sent := [(0, {}, 0)] }); s.linkUp 0 = true ∧ s.calRun 0 = some { left := 2, sent := [(0, {}, 0)] } ∧
      s.edge64 {} ≤ 4 * (0 + 160000)) ∧
    (let e := port.fld R.TIME_TL_CTL F.TIME_TL_CTL.ETYPE;
      let b := withFcs (List.replicate 12 0 ++ natBE 2 e ++ [0x81] ++ List.replicate 45 0);
      fcsOk b = true ∧ byteAt b 14 = 0x81 ∧ beNat (slice b 12 2) = e ∧ beNat (slice b 15 2) = 0 ∧ port.frameFault 0 b = none ∧
      fcsOk (b ++ [0]) = false ∧ byteAt (b ++ [0]) 14 = 0x81 ∧ beNat (slice (b ++ [0]) 12 2) = e ∧
      (let c := withFcs (b.take 40); fcsOk c = true ∧ c.length < 64 ∧ byteAt c 14 = 0x81 ∧ beNat (slice c 12 2) = e) ∧
      (let c := withFcs b; fcsOk c = true ∧ byteAt c 14 = 0x81 ∧ beNat (slice c 12 2) = e ∧
        (setup port [(R.PORT_CTL 0, [(F.PORT_CTL.EN, 1), (F.PORT_CTL.MAXLEN, 64)])]).maxLen 0 < c.length)) := by decide

/-- A sheet with a record. -/
def sheet0 : Sheet :=
  { num := 0, key := 0xFF, kb := [], close := 3, recs := [[1]], baseS := 0, handle := none, first := 0, tLo := none, tHi := none }

/-- A flush, a key and an export port that may be written; a sheet to hash, and one that an export port serves. -/
theorem wit_WaybillCommands : part.writable 1 (R.WB_STRM_CTL 1) = true ∧ part.writable 0 (R.WB_STRM_CTL 1) = true ∧ part.writable 0 R.WB_KEY_CTL = true ∧
    part.presOpen = true ∧ (part.wbKey 3).isSome = false ∧ part.writable 0 (R.WB_EXP_PORT 0) = true ∧
    part.expOwned (putFlds 0 [(F.WB_EXP_PORT.PITCH, 1)]) = true ∧ part.expOwned 0 = false ∧
    ((part.setStrm 1 { closed := [sheet0] }).strm 1).closed = [sheet0] ∧ sheet0.place = .hashing ∧ part.wbByDma 1 = false ∧
    (let s := setup port [(R.WB_EXP_PORT 0, [(F.WB_EXP_PORT.EN, 1), (F.WB_EXP_PORT.PITCH, 1)])];
      s.expServes 1 0 = true ∧ (∀ j : Fin 4, j ≠ 0 → s.expServes 1 j = false) ∧ s.expFits 0 100 = true) ∧
    (∀ pl ∈ [SheetAt.ready, .retry], (part.setStrm 1 { closed := [{ sheet0 with place := pl }] }).sheetDue 1 = some { sheet0 with place := pl }) ∧
    part.enginesUp ≠ 0 ∧ (setup part [(R.WB_STATUS, [])]).enginesUp = 0 ∧ part.engineGap 1 = false := by decide

/-- A part whose Pitch 1 owns the first quad, of a cluster that is up, its thread 0 at a word of the vendor region and its core's choice. -/
def thread (w : Word) (q : Thr) : State :=
  let s := (setup part [(R.PIT_OST_OWNER 0, [(F.PIT_OST_OWNER.OWNER, 1)]), (R.OST_OWN_STATUS 1, [(F.OST_OWN_STATUS.FW, 1)]),
    (R.PST_DOM_READY 4, [(⟨0, 32⟩, 1)])]).setThr 0
    { q with st := 1, pc := 0x400 }
  { s with ost := { s.ost with ps := [(0x10400, w)], core := [(0, { due := [(0, 0)] })] } }

/-- The word of row `op` with every other field 0. -/
def rowWord (op : Nat) : Word := BitVec.ofNat 32 (op * 2 ^ 26)

/-- The thread issues a word of any listed row of arithmetic, memory, control and handles, on its one owner. -/
theorem wit_issues : ∀ op ∈ [0x01, 0x10, 0x20, 0x26, 0x28, 0x2D, 0x30, 0x31, 0x34, 0x38, 0x3A, 0x3E],
    ((thread (rowWord op) {}).thr 0).st = 1 ∧ (thread (rowWord op) {}).ostTurn 0 = true ∧ customer ((thread (rowWord op) {}).thr 0).pc = false ∧
      (thread (rowWord op) {}).psWord 1 0x400 = rowWord op ∧ (thread (rowWord op) {}).psBadAt 1 0x400 = false ∧
      ostBadField (rowWord op) = false ∧ iOp (rowWord op) = op ∧ (thread (rowWord op) {}).thrOwner 0 = 1 := by decide

theorem wit_OstlerArithmetic : (thread (rowWord 0x01) {}).Issues 0 (rowWord 0x01) := by constructor <;> decide

/-- A word of data that a load reads, one outside the owner's space, and an access on its way. -/
theorem wit_OstlerMemory : (thread (rowWord 0x20) {}).Issues 0 (rowWord 0x20) ∧ (thread (rowWord 0x20) {}).DataAt 0 4 0 0 ∧
    (thread (rowWord 0x20) {}).dataFlips 0 < 2 ∧ (thread (rowWord 0x20) {}).dataPlace 1 0x20000 = none ∧
    (part.setThr 0 { st := 4, acc := some ⟨none, 0⟩ }).thr 0 = { st := 4, acc := some ⟨none, 0⟩ } :=
  ⟨by constructor <;> decide, by constructor <;> decide, by decide⟩

/-- A call that goes, one that traps, and a return of the last window. -/
theorem wit_OstlerControl : (thread (rowWord 0x2D) {}).canonical ∧ (thread (rowWord 0x2D) {}).Issues 0 (rowWord 0x2D) ∧ jumpAllowed 0x400 0 ∧
    ¬ jumpAllowed 0xC400 0x400 ∧ ((thread (rowWord 0x2D) { resident := 7 }).thr 0).resident = 7 ∧
    ((thread (rowWord 0x30) {}).thr 0).resident = 1 ∧ ((thread (rowWord 0x30) {}).thr 0).trap = false :=
  ⟨by constructor <;> decide, by constructor <;> decide, .inl (by decide), by unfold jumpAllowed; decide, by decide⟩

/-- A fork that finds a thread; threads that can be joined, wait, and are reset; a supervisor. -/
theorem wit_OstlerThreads : (thread (rowWord 0x31) {}).freeThread 1 0 = some 1 ∧
    (let s := (thread (rowWord 0x32) {}).setThr 1 { st := 5 }; s.thrOwner 1 = 1 ∧ (s.thr 1).st = 5 ∧ (s.thr 1).detach = false ∧ s.joiner 1 = none) ∧
    (let s := part.setThr 0 { st := 2 }; (s.thr 0).st = 2 ∧ s.thrEvents 0 0 false = 0) ∧
    (thread 0 {}).writable 0 (thrAddr 0) = true ∧ (thread 0 {}).writable 0 (R.OST_OWN_CTL 1) = true ∧ (thread 0 {}).supervisor 1 = some 0 ∧
    (thread 0 {}).ostFw 1 = true ∧ (thread 0 {}).ostMayRun 1 = true ∧ (thread 0 {}).clusterUp 0 = true ∧ part.clusterUp 0 = false ∧
    part.supervisor 2 = none := by decide

/-- A full slot of a buffer that its owner holds, and one of a buffer that another holds. -/
theorem wit_OstlerHandles : (let s := (thread (rowWord 0x3A) { slots := [(0, some { handle := 0 })] }).setBuf 0 (some { primary := some 0, owner := 1 });
      (s.thr 0).slot 0 = some { handle := 0 } ∧ s.buf 0 ≠ none ∧ s.foreignBuf (s.thrOwner 0) 0 = false ∧ s.foreignBuf 2 0 = true ∧
      (s.readBuf 0 0 1).1 = false ∧ (s.readBuf 0 0 1).2.buf 0 ≠ none ∧
      ((s.setBuf 0 (some { primary := some 0, owner := 1, bytes := frame0, flips := [0, 1] })).readBuf 0 0 1).1 = true) ∧
    (thread (rowWord 0x38) {}).excQ 1 0 = [] ∧ ((thread (rowWord 0x38) {}).thr 0).slot 0 = none ∧ (pool.handleOk 0 = true) := by decide

/-- Program writes of both regions; the customer region off, checked and on; a word that no row lists. -/
theorem wit_OstlerProgram : (thread 0 {}).writable 0 (R.OST_PS_DATA 1) = true ∧ (thread 0 {}).custState 1 = 0 ∧
    (thread 0 {}).writable 0 (R.OST_CUST_CTL 1) = true ∧ (thread 0 {}).presOpen = true ∧ (thread 0 {}).quadsOf 1 ≠ [] ∧
    (setup (thread 0 {}) [(R.OST_CUST_CTL 1, [(F.OST_CUST_CTL.STATE, 1)])]).custState 1 = 1 ∧ ostListed (iOp (rowWord 0x1F)) = false ∧
    custWordCheck 0xC000 (rowWord 0x1F) = some 1 ∧ ((thread (rowWord 0x1F) {}).fq 1).length < 16 ∧
    (thread (rowWord 0x1F) {}).ostTurn 0 = true ∧ (thread 0 {}).ostTurn 1 = false ∧
    (thread 0 {}).fld (R.OST_CUST_CTL 1) F.OST_CUST_CTL.EN = 0 ∧
    (setup (thread 0 {}) [(R.OST_CUST_CTL 1, [(F.OST_CUST_CTL.EN, 1)])]).fld (R.OST_CUST_CTL 1) F.OST_CUST_CTL.EN = 1 ∧
    (setup (thread 0 {}) [(R.DEV_PRES_STATUS, [])]).presOpen = false ∧
    (thread 0 {}).ostMayRun 1 = true ∧ (thread 0 {}).supervisor 1 = some 0 ∧ (thread 0 {}).freeThread 1 0 = some 1 ∧
    part.ostMayRun 1 = true ∧ part.supervisor 1 = none ∧ (setup part [(R.PIT_CTL 1, [(F.PIT_CTL.SELF_RESET, 1)])]).ostMayRun 1 = false ∧
    ((thread 0 {}).core 0).due = [(0, 0)] ∧ (thread 0 {}).corePick 0 = some 0 ∧ part.corePick 0 = none := by decide

/-- A ring of function 1 that is ready and has its turn, and descriptors good and bad. -/
def ring : State :=
  let s := setup part [(R.DMA_RING_CTL 1 0, [(F.DMA_RING_CTL.EN, 1), (F.DMA_RING_CTL.SIZE_LOG2, 6)]), (R.DMA_RING_TAIL 1 0, [(F.DMA_RING_TAIL.INDEX, 1)])]
  { s with pw := { s.pw with linkUp := true } }

theorem wit_CountersAndDma : part.writable 1 (R.CNT_SNAP_CTL 1) = true ∧ (part.snapBusy 1 || part.frozen 1) = false ∧
    part.writable 1 (R.CNT_SMP_CTL 1) = true ∧ ring.ringReady 1 0 = true ∧ ring.ringWork 0 3 = false ∧ ring.dmaTurn 1 0 = true ∧
    ring.dmaTurn 2 0 = false ∧ ring.writable 1 (R.DMA_RING_TAIL 1 0) = true ∧ ring.writable 1 (R.DMA_RING_CTL 1 0) = true ∧
    ring.ringSize 1 0 = 64 ∧ (let d : Bytes := splice (List.replicate 32 0) 8 [64]; descBad 0 d = false ∧ descLen d = 64 ∧ nbit (descCtl d) 21 = false) ∧
    descBad 0 (List.replicate 32 1) = true ∧ part.writable 1 (R.DMA_FREE 1) = true ∧ part.buf 5 = none ∧
    (let q : SnapRun := { at_ := 0 }; (part.setSnapRun 1 (some q)).snapRun 1 = some q ∧ part.snapRun 1 = none ∧
      (let q : SnapRun := { at_ := 0, got := some ({ copies := [], pipes := [0] }, 5, 0) }; (part.setSnapRun 1 (some q)).snapRun 1 = some q)) ∧
    (let s := ((setup ring [(R.BPM_STATUS, [(F.BPM_STATUS.LAYOUT, 1)]), (R.BPM_POOL_CFG 0, [(F.BPM_POOL_CFG.DEFINED, 1), (F.BPM_POOL_CFG.SIZE, 2),
        (F.BPM_POOL_CFG.COUNT, 1600)])]).setBuf 0 (some { primary := some 0, owner := 1 })).setKept 1 [0];
      s.kept 1 = [0] ∧ s.ownBuf 1 0 = true ∧ 64 ≤ s.poolBytes (poolOfH 0) ∧ (ring.setKept 1 [0]).ownBuf 1 0 = false ∧ s.poolBytes (poolOfH 0) < 10240 ∧
      ∀ b ∈ [0x20, 0x30], (let d : Bytes := splice (splice (List.replicate 32 0) 8 [64]) 14 [b]; descBad 0 d = false ∧ descLen d = 64 ∧
        nbit (descCtl d) 21 = true ∧ nbit (descCtl d) 20 = decide (b = 0x30))) := by decide
/-- A part that is up; a drop of its input; neighbours; groups and domains in their turn, and ones that are not. -/
theorem wit_PowerAndDomains : (let s : State := { setup part [(R.PST_BUDGET, [(F.PST_BUDGET.INPUT, 9000)])] with pw := { part.pw with alive := true } };
      s.pw.alive = true) ∧ part.pw.alive = false ∧
    (let s : State := { part with pw := { part.pw with b60 := 12 } }; min 396000 (0 * 11) < s.pw.b60 ∧ s.pw.postil = false ∧ s.pw.inLow = false) ∧
    part.pw.b60 ≤ min 396000 (0 * 11) ∧ part.droopThr < 33 ∧ 3 ≤ part.droopThr ∧
    (let s := setup part [(R.PST_SENSOR 0, [(F.PST_SENSOR.VALID, 1), (F.PST_SENSOR.TEMP, 400)]), (R.PST_SENSOR 1, [(F.PST_SENSOR.VALID, 1), (F.PST_SENSOR.TEMP, 200)])]; s.sensor 0 = some 400 ∧ s.sensor 1 = some 200 ∧ (0, 1, 1) ∉ s.pw.beyond ∧ 120 < (400 : Int) - 200) ∧
    (let s : State := { part with pw := { part.pw with beyond := [(0, 16, 0), (0, 16, 1)] } };
      (0, 16, 0) ∈ s.pw.beyond ∧ (0, 16, 1) ∈ s.pw.beyond ∧ s.regionExempt 0 = false) ∧
    part.kBase 3 + 4 + part.kNb 3 ≤ 32 ∧
    (part.region 3).droop = 0 ∧ ((part.setRegion 3 { droop := 9 }).region 3).droop ≠ 0 ∧ 16 ∈ neighbours 0 ∧ 1 ∉ neighbours 0 ∧
    part.lgDue 0 = false ∧ (let s := setup part [(R.PST_DOM_STATUS 136, [(F.PST_DOM_STATUS.ON, 1)]), (laneReg R.LG_LN_TEST 0, [(F.LG_LN_TEST.RX_ON, 1)])];
      s.lgDue 0 = true ∧ s.lgCal < 8 ∧ s.stage = 9 ∧ s.pw.lgRail ≤ s.t16 ∧ s.lgFits = false ∧
      (setup s [(R.PST_BUDGET, [(F.PST_BUDGET.DIE, 9000)])]).lgFits = true) ∧
    (let s := setup part [(R.PST_DOM_STATUS 0, [(F.PST_DOM_STATUS.ON, 1)]), (R.PST_DOM_STATUS 65, [(F.PST_DOM_STATUS.ON, 1)]), (R.PST_DOM_STATUS 96, [(F.PST_DOM_STATUS.ON, 1)])];
      s.domOn 0 = true ∧ s.lgReady 0 = false ∧ s.domOn 65 = true ∧ s.domReady 65 = false ∧ s.domFail 65 = false ∧ s.domOn 96 = true ∧
      s.ownerOfPipe (64 % 16) ≠ 0) := by decide

/-- A part at each stage of its start, with a clock that is lost and one that is not. -/
theorem wit_ClocksAndBoot : part.bit R.CLK_STATUS F.CLK_STATUS.REF_OK = true ∧ State.reset.bit R.CLK_STATUS F.CLK_STATUS.REF_OK = false ∧
    part.pllOk 3 = true ∧ State.reset.pllOk 3 = false ∧ part.pw.overV = false ∧ part.stopped = false ∧ part.pw.pllsUp = false ∧
    (let s : State := { part with pw := { part.pw with alive := true, perst := true, linkUp := false } };
      (s.pw.alive && s.pw.perst && s.pllOk 6 && s.pllOk 3 && !s.pw.linkUp && !s.pw.under && !s.pw.trip) = true) ∧ part.pcieMay = false ∧
    (let s : State := { setup part [(R.CLK_STATUS, [(F.CLK_STATUS.REF_OK, 1)])] with pw := { part.pw with alive := true, pllsUp := true } };
      s.pllOk 0 = false ∧ s.bit R.CLK_STATUS F.CLK_STATUS.REF_OK = true ∧ s.pw.pllsUp = true ∧ s.pw.alive = true) ∧
    (let s : State := { part with pw := { part.pw with alive := true, under := true } }; s.pw.overV = false ∧ s.pw.alive = true ∧ s.pw.under = true) ∧
    (∀ k : Fin 10, ∀ u : Bool, let b : BootRun := { due := if u then 1 else 0 };
      let s : State := { setup part [(R.DEV_BOOT_STATUS, [(F.DEV_BOOT_STATUS.STAGE, k)])] with pw := { part.pw with boot := some b } };
      s.pw.boot = some b ∧ s.stage = k ∧ (if u then s.t16 < b.due else b.due ≤ s.t16)) ∧
    (let s := setup part [(R.DEV_BOOT_STATUS, [(F.DEV_BOOT_STATUS.STAGE, 3)]), (R.DEV_BOOT_STAMP 3, [(F.DEV_BOOT_STAMP.DONE, 1)])];
      s.stage = 3 ∧ s.stopped = false ∧ s.bit (R.DEV_BOOT_STAMP 3) F.DEV_BOOT_STAMP.DONE = true) ∧
    (let s := setup part [(R.DEV_BOOT_STATUS, [(F.DEV_BOOT_STATUS.STAGE, 5)])]; s.stage = 5 ∧ s.writable 0 R.DEV_PUSH_CTL = true) ∧
    (let s := setup part [(R.DEV_BOOT_STATUS, [(F.DEV_BOOT_STATUS.STAGE, 7)])];
      s.stage = 7 ∧ (s.containerBad {}).isSome = true) := by decide

/-- A commit that is accepted, one that fails its first condition, a hold, and a device reset. -/
theorem wit_PitchesAndDeviceReset : part.writable 0 R.PIT_COMMIT = true ∧ part.presOpen = true ∧ (setup part [(R.DEV_PRES_STATUS, [])]).presOpen = false ∧
    (setup part [(R.PIT_MAP_STAGE 0, [(F.PIT_MAP_STAGE.OWNER, 1)])]).commitCheck = 0 ∧
    (setup part [(R.PIT_MAP_STAGE 0, [(F.PIT_MAP_STAGE.OWNER, 17)])]).commitCheck = 1 ∧ part.writable 0 (R.PIT_CTL 1) = true ∧ part.held2 1 = false ∧
    part.writable 0 R.CLK_RST_DEV = true ∧ part.pitWrote 1 = false ∧
    ({ part with irq := { part.irq with pitCyc := [(1, 1)] } } : State).pitWrote 1 = true ∧ part.pitchExists 1 = true ∧
    part.irq.pitLeave.contains 1 = false ∧ (setup part [(R.PIT_CTL 1, [(F.PIT_CTL.WARDEN_HOLD, 1)])]).held2 1 = true := by decide

/-- Presence low and high, a window open and closed, the loop closed and open, and a held message. -/
theorem wit_PresenceSealAndMessages :
    (let s := setup part [(R.DEV_PRES_STATUS, [(F.DEV_PRES_STATUS.OPEN, 1), (F.DEV_PRES_STATUS.HELD, 1), (F.DEV_PRES_STATUS.SEAL_OK, 1)])];
      s.presHeld = true ∧ s.presOpen = true ∧ s.sealOk = true ∧ 3 ≤ s.stage) ∧ part.presHeld = false ∧ part.sealOk = false ∧
    part.writable 0 R.DEV_PRES_CTL = true ∧ part.writable 1 (R.IRQ_PEND 1) = true ∧ State.reset.stage < 3 := by decide

/-- A master that is free, one that runs, commands that fit and do not; requests; and the target before and after step 2. -/
theorem wit_SideInterfaces : part.writable 0 (R.SB_I2C_CMD 2) = true ∧ part.bit (R.SB_I2C_CMD 2) F.SB_I2C_CMD.GO = false ∧
    (setup part [(R.SB_I2C_CMD 2, [(F.SB_I2C_CMD.GO, 1)])]).bit (R.SB_I2C_CMD 2) F.SB_I2C_CMD.GO = true ∧
    i2cFits (putFlds 0 [(F.SB_I2C_CMD.KIND, 0), (F.SB_I2C_CMD.WLEN, 1), (F.SB_I2C_CMD.ADDR, 0x50)]) = true ∧
    i2cFits (putFlds 0 [(F.SB_I2C_CMD.KIND, 1), (F.SB_I2C_CMD.RLEN, 1), (F.SB_I2C_CMD.ADDR, 0x50)]) = true ∧
    i2cFits (putFlds 0 [(F.SB_I2C_CMD.KIND, 2), (F.SB_I2C_CMD.WLEN, 1), (F.SB_I2C_CMD.RLEN, 1), (F.SB_I2C_CMD.ADDR, 0x50)]) = true ∧
    i2cFits (putFlds 0 [(F.SB_I2C_CMD.KIND, 0), (F.SB_I2C_CMD.RLEN, 1)]) = false ∧
    part.writable 1 (R.PORT_CMIS_CMD 0) = true ∧ part.bit (R.PORT_CMIS_CMD 0) F.PORT_CMIS_CMD.GO = false ∧
    ({ part with side := { cmis := [0] } } : State).side.cmis = [0] ∧ 1 < part.stage ∧ State.reset.stage ≤ 1 ∧ part.hottest = none ∧
    State.reset.stage ≤ 3 ∧ (part.i2cRun 2).next ≤ part.t16 ∧
    fldOf (part.cmisReq 0).1 F.PORT_CMIS_CMD.WRITE = 0 := by decide

/-- A value that waits and is read; a write of an RWP field of a Round-effective register inside a window and outside; the last cycles of a
Round. -/
theorem wit_RoundEffective_waits :
    (let s : State := { part with pendRegs := [(R.TT_FLOOR 1, 5)] }; s.waitingReg (R.TT_FLOOR 1) = some 5 ∧ s.reach = true ∧
      ∃ pa g r ix, s.place 1 1 (R.TT_FLOOR 1) = .reg pa g r ix ∧ s.waitingReg pa = some 5 ∧ s.viewRead 1 g (some r.id) ix = true ∧
        r.roundEff = true ∧ (∀ f ∈ r.fields, f.2 = .rw ∨ f.2 = .ro ∨ f.2 = .rwp) ∧ r.id = .TT_FLOOR ∧ pairHigh r.id = false ∧
        pairLow r.id = false ∧ (∀ f ∈ r.fields, f.2 ≠ .rw) ∧ ∀ gr l, g ≠ .lane gr l) ∧
    (∃ g r ix, findReg (R.TT_FLOOR 1) = some (g, r, ix) ∧
      let w : Wr := ⟨host 1, R.TT_FLOOR 1, R.TT_FLOOR 1, g, r, ix, 7, none, none⟩;
      part.lateInRound = false ∧ (part.reg w.pa &&& w.row.mask (· == .rwp)) ≠ (w.v &&& w.row.mask (· == .rwp))) ∧
    (setup part [(R.DEV_ROUND_PHASE, [(F.DEV_ROUND_PHASE.PHASE, 62400)])]).lateInRound = true :=
  ⟨⟨by decide, by decide, _, _, _, _, rfl, by decide, by decide, by decide, by decide, by decide, by decide, by decide, by decide,
      (by decide : regionOf (R.TT_FLOOR 1) = .tt 1) ▸ fun _ _ h => Region.noConfusion h⟩,
    ⟨_, _, _, rfl, by decide, by decide⟩, by decide⟩

/-- A port that is formed and one that is not; a tap that goes down, one at its limit, the loaded set again and nothing; an Onazel port whose
training ends; and ports whose link logic runs and does not. -/
theorem wit_PortLogic : port.formed 0 = true ∧ port.linkRuns 0 = true ∧ (port.setPort 0 { inPortReset := true }).linkRuns 0 = false ∧
    part.linkRuns 1 = false ∧
    (let s := (setup port [(R.PORT_AN_CTL 0, [(F.PORT_AN_CTL.TRAIN_EN, 1)])]).setWorkFir 0 [0, 0, 0, 100, 0, 0];
      s.training 0 = true ∧ firValid (listSet (s.workFir 0) 2 ((s.workFir 0).getD 2 0 - 1)) = true ∧
      -128 ≤ (s.workFir 0).getD 2 0 - 1 ∧ (s.workFir 0).getD 2 0 + 1 ≤ 127 ∧
      firValid (listSet (s.workFir 0) 3 ((s.workFir 0).getD 3 0 + 1)) = true ∧
      (let u := s.setWorkFir 0 [0, 0, 0, 127, 0, 0]; u.training 0 = true ∧ 127 < (u.workFir 0).getD 3 0 + 1) ∧
      (let u := s.setWorkFir 0 [0, 0, 0, 32, 0, 0]; firValid (listSet (u.workFir 0) 3 ((u.workFir 0).getD 3 0 - 1)) = false)) ∧
    (∀ k ∈ [1, 5, 6], let s := setup port [(R.PORT_STATUS 0, [(F.PORT_STATUS.WIDTH_APPLIED, 1), (F.PORT_STATUS.MODE_APPLIED, 4),
        (F.PORT_STATUS.ONZ_STATE, k), (F.PORT_STATUS.LINK_UP, if k = 6 then 1 else 0)])];
      s.mode 0 = 4 ∧ s.linkRuns 0 = true ∧ s.onzState 0 = k ∧ s.linkUp 0 = decide (k = 6)) := by decide

/-- A received role that is the port's own; sets of alignment blocks that give an order and that give none; line symbols. -/
theorem wit_OnazelRoles : onzValid (onzPayload (onzParse 0)) = true ∧
    (let s := setup port [(R.PORT_STATUS 0, [(F.PORT_STATUS.WIDTH_APPLIED, 1), (F.PORT_STATUS.MODE_APPLIED, 4), (F.PORT_STATUS.ONZ_STATE, 2),
        (F.PORT_STATUS.ONZ_ROLE, (onzParse (onzPayload { onzParse 0 with role := 1 })).role)])];
      s.onzRole 0 = 1 ∧ onzValid (onzPayload { onzParse 0 with role := 1 }) = true ∧ s.onzState 0 = 2 ∧ s.linkRuns 0 = true) ∧
    (let s := (setup port [(R.PORT_STATUS 0, [(F.PORT_STATUS.WIDTH_APPLIED, 1), (F.PORT_STATUS.MODE_APPLIED, 5)])]);
      s.linkRuns 0 = true ∧ s.mode 0 = 5 ∧ alignOrder (s.width 0) [[]] = none ∧ (s.port 0).alignBad < 3 ∧
      ((s.setPort 0 { alignBad := 3 }).port 0).alignBad = 3 ∧ ((s.setPort 0 { alignGood := 1 }).port 0).alignGood = 1 ∧
      (s.lanesOf 0).zipIdx.map (fun e => if s.laneGives e.1 then [[0x5A, 0, 1, 0, 0xA5, 0xFF, 0xFE, (0xFF : BitVec 8)]].getD e.2 [] else []) =
        [[0x5A, 0, 1, 0, 0xA5, 0xFF, 0xFE, 0xFF]]) ∧
    (let s := setup pool [(R.PORT_STATUS 0, [(F.PORT_STATUS.WIDTH_APPLIED, 1), (F.PORT_STATUS.MODE_APPLIED, 4)])];
      s.mode 0 = 4 ∧ (s.lanesOf 0).any s.landsOff = false ∧ 4 * (s.port 0).loopAt ≤ s.edge64 {} ∧
      ((s.setPort 0 { loopAt := 5 }).edge64 {}) < 4 * ((s.setPort 0 { loopAt := 5 }).port 0).loopAt) := by decide

/-- A grant that may be made and one that may not; a hold released with a copy left, and the last one. -/
theorem wit_BufferHolds : pool.canonical ∧ pool.poolCount 0 ≤ 2 ^ 21 ∧ pool.rqHolds 0 0 < pool.rqQuota 0 0 ∧
    pool.ownHolds 1 0 < pool.effRsv 1 0 ∧ pool.sliceFenced 0 = false ∧ 0 < pool.freeInSlice 0 0 ∧ (setup pool [(R.BPM_WR_QUOTA 0 0, [(F.BPM_WR_QUOTA.VALUE, 0)])]).rqQuota 0 0 = 0 ∧
    (∀ b ∈ [{ primary := some 0, owner := 1, copies := [3] }, { primary := some 0, owner := 1 }, { primary := none, copies := [3], owner := 1 }],
      (pool.setBuf 0 (some b)).buf 0 = some b) ∧ (pool.setBuf 0 (some { primary := some 0, owner := 1 })).canonical ∧
    (pool.setBuf 0 (some { primary := some 0, owner := 1, copies := [3] })).canonical ∧
    (pool.setBuf 0 (some { primary := none, copies := [3], owner := 1 })).canonical :=
  ⟨by constructor <;> decide, by decide, by decide, by decide, by decide, by decide, by decide, by decide, by constructor <;> decide,
    by constructor <;> decide, by constructor <;> decide⟩

/-- A packet for port 1 and one for port 0. -/
def two : List Pkt := [{ pkt0 with outPort := 1 }, pkt0]

/-- Packets in the parser and behind it; a port that waited and one that did not; a half with its tick open and not. -/
theorem wit_BerthTicks : (let s := (pool.setPipe 0 { img := some {}, igTick := 8, egOpen := true, egress := [pkt0], egWait := [0] }).setWaiting 0 26 [pkt0, { pkt0 with tick := 1 }];
      (s.waiting 0 26).filter (fun k => decide (k.tick + 8 ≤ (s.pipe 0).igTick)) = [pkt0] ∧
      egressOrder (s.pipe 0).egWait (s.pipe 0).egRot (s.egReady 0) = [pkt0] ∧ s.pipeRuns 0 = true) ∧
    (1 ∈ [1] ∧ 1 ∈ (two.map (·.outPort)) ∧ 0 ∉ [1] ∧ 0 ∈ (two.map (·.outPort))) := by decide

/-- A stage whose pulse comes and one without; a packet whose ticks in the stage have begun, not begun, and are over; packets on their way
to the traffic manager. -/
theorem wit_StageTicks : (∀ st ∈ [3, 15, 16, 23], part.stageOn 0 st = true ∧ part.stageOn 1 st = false ∧
      stageFrom pkt0.tick st ≤ ((pool.setPipe 0 { img := some {}, igTick := stageFrom 0 st, egTick := stageFrom 0 st }).pipe 0).now (decide (16 ≤ st)) ∧
      (pool.pipe 0).now (decide (16 ≤ st)) < stageFrom 5 st) ∧
    (let s := (pool.setPipe 0 { img := some {}, igTick := stageBy 0 15 }).setWaiting 0 27 [pkt0, { pkt0 with tick := 1 }];
      (s.waiting 0 27).filter (fun k => decide (stageBy k.tick 15 ≤ (s.pipe 0).igTick)) = [pkt0] ∧
      (s.waiting 0 27).filter (fun k => decide ((s.pipe 0).igTick < stageBy k.tick 15)) = [{ pkt0 with tick := 1 }]) := by decide

/-- A part whose traffic manager has a pulse for a packet with word `w` in m7, with limits that let it through or not, and with a group of
ports 0 and 1. -/
def tmPart (w units limit mq : Nat) : State :=
  setup (pool.setWaiting 0 24 [{ pkt0 with m := [0, 0, 0, 0, 0, 0, 0, w] }])
    [(R.TM_IN_DROP 0 3, [(F.TM_IN_DROP.UNITS, units)]), (R.TM_Q_LIMIT 0 3, [(F.TM_Q_LIMIT.LIMIT, limit)]),
      (R.TM_PORT_LIMIT 0, [(⟨0, 20⟩, 100)]), (R.BPM_WR_QUOTA (rqCode 1 6) 0, [(F.BPM_WR_QUOTA.VALUE, mq)])]

/-- That part with a packet for the multicast group 0, of port 0, whose frame the owner holds. -/
def manyPart : State :=
  let s := setup ((tmPart (2 ^ 28 + 3 * 2 ^ 24) 100 100 0).setBuf 0 (some { primary := some 0, owner := 1 }))
    [(R.PIT_MC_RANGE 1, [(F.PIT_MC_RANGE.COUNT, 1)]), (R.BPM_RQ_QUOTA 1 6 0, [(F.BPM_RQ_QUOTA.QUOTA, 5)])]
  { s with tm := { s.tm with mcast := [(0, 1)] } }

/-- The packet that waits there resolves to one port or to none; the ingress limit, the queue's limit and the buffer are met or not. -/
theorem wit_EnqueuePaths : part.tmOn 0 = true ∧ part.tmOn 1 = false ∧
    (let s := tmPart (3 * 2 ^ 24) 100 100 0; ∃ k, s.waiting 0 24 = [k] ∧
      ((s.setWaiting 0 24 []).resolve 0 k).1 = .one 0 ∧ (s.bufFenced k.handle) = false ∧
      (∃ k1, ((s.setWaiting 0 24 []).police 0 k).1 = .ok k1) ∧ s.inOcc k.port 3 + k.len ≤ s.fld (R.TM_IN_DROP k.port 3) F.TM_IN_DROP.UNITS * 256 ∧
      s.step6 0 3 k.len (s.isLossless 0 3) = none) ∧
    (∃ k, manyPart.waiting 0 24 = [k] ∧ ((manyPart.setWaiting 0 24 []).resolve 0 { k with port := 1024 }).1 = .many [0] ∧
      (manyPart.bpmMove (rqCode 1 6) 0).1 = true ∧ (pool.bpmMove (rqCode 1 6) 0).1 = false ∧ (manyPart.pipe 0).repl.length < 512) ∧
    (let s := tmPart (3 * 2 ^ 24) 0 100 0; s.fld (R.TM_IN_DROP 0 3) F.TM_IN_DROP.UNITS * 256 < s.inOcc 0 3 + pkt0.len) ∧
    (let s := tmPart (3 * 2 ^ 24) 100 0 0; (s.step6 0 3 64 (s.isLossless 0 3)).isSome = true) ∧
    (let s := tmPart (3 * 2 ^ 24 + 1) 100 100 0; ∃ k c, s.waiting 0 24 = [k] ∧ ((s.setWaiting 0 24 []).resolve 0 k).1 = .no c) := by
  refine ⟨by decide, by decide, ⟨_, rfl, by decide, by decide, ⟨_, rfl⟩, by decide, by decide⟩, ⟨_, rfl, by decide +kernel, by decide, by decide, by decide⟩, by decide, by decide,
    ⟨_, _, rfl, rfl⟩⟩

/-- A packet that the replicator may begin on, one that is not in its FIFO yet, and one after a turn in this tick. -/
theorem wit_ReplicatorTurns : (∀ r ∈ [0, 1], let s := pool.setPipe 0 { img := some {}, repl := [(pkt0, [0])], replAt := r };
      s.tmOn 0 = true ∧ (s.pipe 0).repl = [(pkt0, [0])] ∧ pkt0.tmTick ≤ s.tm.tick ∧ decide ((s.pipe 0).replAt ≤ s.tm.tick) = decide (r = 0)) ∧
    pool.tm.tick < ({ pkt0 with tmTick := 2 } : Pkt).tmTick ∧ pool.portEnabled 1 = false := by decide

/-- An injected frame whose ticks in the deparser are over, and one that is not there yet; a fenced slice, a port whose generator drives, a
frame longer than MAXLEN, a packet that runs. -/
theorem wit_DeparserTicks : (let k : Pkt := { pkt0 with kind := .injected };
      let s := ((pool.setPipe 0 { img := some {}, egTick := 32 }).setBuf 0 (some { primary := some 0, owner := 1, bytes := frame0 })).setWaiting 0 25 [k];
      s.stageOn 0 16 = true ∧ s.waiting 0 25 = [k] ∧ k.tick + 32 ≤ (s.pipe 0).egTick ∧ (pool.pipe 0).egTick < k.tick + 32 ∧
      s.ownBuf (s.rqOwner k.rq) 0 = true ∧ s.bufFenced 0 = false ∧ s.genOn 0 = false ∧ s.portEnabled 0 = true ∧ k.runs = false ∧
      s.bit R.PIT_MIR_CTL F.PIT_MIR_CTL.EN = false ∧ (frame0.take k.len).length ≤ s.maxLen 0 ∧
      (wholeOut k (s.rawOut 0 k frame0)).length ≤ s.maxLen 0 ∧
      (setup s [(R.BPM_STATUS, [(F.BPM_STATUS.LAYOUT, 1), (F.BPM_STATUS.FENCED, 1)])]).bufFenced 0 = true ∧
      (setup s [(laneReg R.LG_LN_TEST 0, [(F.LG_LN_TEST.TX_SRC, 1)])]).genOn 0 = true ∧
      (let u := setup s [(R.PORT_CTL 0, [(F.PORT_CTL.EN, 1), (F.PORT_CTL.MAXLEN, 64)])]; let j := { k with len := 65 };
        u.maxLen 0 < (wholeOut j (u.rawOut 0 j (frame0 ++ [0]))).length)) ∧
    part.portEnabled 0 = false ∧ part.stageOn 1 16 = false := by decide

/-- A Timetable frame that starts in time and one that starts late; control frames of a time link and of a calibration in line, which go, wait,
are dropped and are lost; a MODE 5 port. -/
theorem wit_ControlFrames : (∀ r ∈ [0, 4], let f : TxFrame := { pkt := { pkt0 with floor := some 5 }, bytes := frame0, reason := r };
      let s := pool.setPtm 0 { tx := [f] }; (s.ptm 0).tx.find? (fun f => !f.started) = some f ∧ f.pkt.floor = some 5) ∧
    (∀ c ∈ [CtlKind.timeLink 2, CtlKind.cal 3], let s := pool.setPtm 0 { ctl := [c] };
      (s.ptm 0).ctl = [c] ∧ s.linkUp 0 = true ∧ s.genOn 0 = false ∧ s.ttBefore 0 (s.ctlStart 0 (s.wire16 0 68) + s.wire16 0 68) = false ∧
      s.ttBefore 0 (s.ctlStart 0 (s.wire16 0 64) + s.wire16 0 64) = false ∧ 68 ≤ s.maxLen 0 ∧ s.calRun 0 = none ∧
      ((s.setCal 0 (some { left := 2 })).calRun 0).isSome = true ∧
      (setup s [(R.PORT_CTL 0, [(F.PORT_CTL.EN, 1), (F.PORT_CTL.MAXLEN, 64)])]).maxLen 0 < 68 ∧
      (setup s [(laneReg R.LG_LN_TEST 0, [(F.LG_LN_TEST.TX_SRC, 1)])]).genOn 0 = true) ∧
    (pool.mode 0 ≠ 4 ∧ pool.mode 0 ≠ 5 ∧ pool.loopedBack 0 = false ∧ pool.macDrives 0 = true ∧ (pool.ptm 0).tx = [] ∧ (pool.ptm 0).ctlLine = []) := by
  decide

/-- Control frames that are read off their bytes; a PFC frame that names no priority in use; FC_MODE 3. -/
theorem wit_MacControl : (∀ op ∈ [1, 0x0101, 2], beNat (slice (List.replicate 14 0 ++ natBE 2 op ++ List.replicate 44 0) 14 2) = op) ∧
    port.linkUp 0 = true ∧ port.fcMode 0 ≠ 1 ∧ port.fcMode 0 ≠ 2 ∧ port.fcMode 0 ≠ 3 ∧
    (let s := setup port [(R.PORT_CTL 0, [(F.PORT_CTL.EN, 1), (F.PORT_CTL.FC_MODE, 2)])]; s.fcMode 0 = 2 ∧ ∀ i, i < 8 → (s.pfcClass 0 i).isSome = false) ∧
    (let v := (putFlds 0 [(F.PORT_CTL.FC_MODE, 3), (F.PORT_CTL.MAXLEN, part.fld (R.PORT_CTL 0) F.PORT_CTL.MAXLEN)]);
      fldOf v F.PORT_CTL.FC_MODE = 3 ∧ fldOf v F.PORT_CTL.EN = 0 ∧ fldOf v F.PORT_CTL.MAXLEN = part.fld (R.PORT_CTL 0) F.PORT_CTL.MAXLEN ∧
      part.bit (R.PORT_CTL 0) F.PORT_CTL.EN = false ∧ part.fcMode 0 ≠ 3) ∧ ((port.setPort 0 { pause := [(5, some 9)] }).paused 0 5 = true) := by decide

/-- A key that signs, the digest of it that a part may have fused, and a signature block with the two numbers `rs`. -/
def pubKey : Bytes := natBE 96 0xd8a17e55b8e2f47bc369fd9616695ce273dce4e307830a65f5a4a9aa8967c987aeea7ad365677a13bfd65c3fe5a66939bdc53542c5213a51345dba8220abb23c71659a4d850b3bbaff8d035bd08a59eb32099c96a9049e4d7d435cf675713bc8
def keyDigest : Bytes := natBE 48 0x1525835b7b8a909808e3e9ffd902452192ea5d297175d87b27042e8d1705350a18de427b565ff612b85984a5df4b8cdd
def sigBlock (rs : Nat) : Bytes := [4] ++ pubKey ++ List.replicate 63 0 ++ natBE 96 rs

/-- A structure image of a header and its signature, whose graph has one state, and a container that holds it as image 3, beside device firmware. -/
def goodImage : Image :=
  { raw := [0x41, 0x4C, 0x39, 0x49, 1, 0, 0, 0] ++ natLE 4 320 ++ List.replicate 52 0 ++ sigBlock 0x866c1c200a8d887d2707db944b929fba4e490ef711be9924a5b55833037b6ca27e6eca73d34ba9e37ae34804a46a943838c32957c480acb9311f7a9a214e229bd9a5d404987e6d809f3174c554c05eb69d18bc139d7b0577583adfc4c6fe797a,
    graph := [{}], emit := [0], pools := [(6, 16)], stages := [{ dir := [⟨1, 0, 1, false⟩], words := [(0, 0x04000000)] }] }
def goodContainer : Container :=
  { raw := [0x41, 0x4C, 0x39, 0x43, 1, 0, 2, 0] ++ natLE 4 768 ++ List.replicate 52 0 ++ [1, 0, 0, 0] ++ natLE 4 128 ++ natLE 4 4 ++
      List.replicate 4 0 ++ [2, 0, 3, 0] ++ natLE 4 192 ++ natLE 4 320 ++ List.replicate 100 0 ++ goodImage.raw ++
      sigBlock 0xc6c8f4fe8a5d3d80f7e0558f8ff91649f5241dbbb34aa31cd8e7ec5fdf56a266be45d0ebeef794f6a545f171cf653ad160b749c271a1a76ced131b2fddf47a326ad28ccd68b656f8f222dbe21c66b81aca0268584bbcdcd5cfa3958cf720dcfc,
    images := [goodImage] }

/-- A part at STAGE 7 that holds the key's digest. -/
def keyed : State :=
  { setup part [(R.DEV_BOOT_STATUS, [(F.DEV_BOOT_STATUS.STAGE, 7)])] with fuse := { part.fuse with keyHash := keyDigest } }

/-- An image and a container that pass every check of theirs, and a signature under another key. -/
theorem wit_Signatures : imageOk goodImage = true ∧ sigGood keyDigest goodImage.raw = true ∧ sigGood part.fuse.keyHash goodImage.raw = false := by
  decide +kernel

theorem wit_Containers : keyed.stage = 7 ∧ keyed.stopped = false ∧ containerHeadOk goodContainer.raw = true ∧ sectsOk goodContainer.raw = true ∧
    (containerImages goodContainer).map (·.1) = [3] ∧ sigGood part.fuse.keyHash goodContainer.raw = false ∧
    containerHeadOk (goodContainer.raw.set 15 1) = false ∧ sectsOk (goodContainer.raw.set 76 1) = false := by decide +kernel

theorem wit_Container_good : keyed.containerBad goodContainer = none := by decide +kernel

/-- An engine with an invalidation before a command, one that runs a command first, and one of a group; a stage without a tick; a look and a
turn of the scrubber with a tick. -/
theorem wit_EngineTurns : (let s := tables.setEmStage 0 0 { toClear := [0], busy := 47, job := some .indirect };
      (s.emStage 0 0).toClear ≠ [] ∧ (s.emStage 0 0).onJob = false ∧ 47 ≤ (s.emStage 0 0).busy) ∧
    (let s := tables.setEmStage 0 0 { toClear := [0], busy := 47, onJob := true, job := some .indirect };
      (s.emStage 0 0).onJob = true ∧ (s.emStage 0 0).job = some .indirect) ∧
    ((tables.setEmStage 0 0 { toClear := [0], busy := 47 }).emStage 0 0).job = none ∧
    tables.stageOn 0 0 = true ∧ tables.stageOn 1 0 = false ∧ (tables.emStage 0 0).busy = 0 ∧
    ((tables.setEmStage 0 0 { busy := 3 }).emStage 0 0).busy ≠ 0 ∧
    ((tables.setTcPipe 0 { toClear := [5], busy := 3 }).tcPipe 0).runs = true ∧ ((tables.setTcPipe 0 { toClear := [5] }).tcPipe 0).runs = false ∧
    (let q : LearnReq := { table := 0, key := [1, 2, 3, 4], action := 1, data := [] };
      let s := tables.setEmStage 0 0 { learn := [q] }; let l := (s.emCands 0 0 0 q.key).headD 0;
      let u := s.setEmRow 0 0 l { row0 with see := 1 };
      (u.emFind 0 0 0 q.key EmRow.marked).1.or (u.emFind 0 0 0 q.key (fun _ => true)).1 = some l ∧ (u.emRow 0 0 l).marked = true) := by decide

/-- Memory places of the other kinds: a timestamp, the array of a TCAM entry, a store word, a buffer, and the Ostlers' data. -/
theorem wit_UpsetPlaces : tables.tcDefined 0 0 0 = true ∧ 5 < 1024 * tables.tcSlices 0 0 0 ∧ 80 * tables.tcW 0 0 0 = 80 ∧
    (let s := pool.setBuf 0 (some { primary := some 0, owner := 1 }); (s.buf 0).isSome = true ∧ 16 * 2 < s.poolBytes (poolOfH 0) ∧
      s.poolBytes (poolOfH 0) ≤ 16 * 2 ^ 12) ∧ pool.buf 1 = none ∧ 5 ∉ part.ost.flips ∧
    5 ∈ ({ part with ost := { part.ost with flips := [5] } } : State).ost.flips ∧ ucMark 0 3 ≠ ucMark 0 4 := by decide

/-- A load that is taken from the store and one from the host; a commit that runs; the turn of a load, and one that is overdue. -/
theorem wit_LoadTurns : (let s : State := { part with pw := { part.pw with store := [(3, goodImage)] } };
      s.pw.store.lookup 3 = some goodImage ∧ s.pw.commit = none) ∧
    ({ part with pw := { part.pw with commit := some { due := 5, map := [] } } } : State).pw.commit.isSome = true ∧
    (let s := setup part [(R.DEV_LOAD_LEN 0, [(⟨0, 32⟩, 320)])]; (s.reg (R.DEV_LOAD_LEN 0)).toNat = 320) ∧
    fldOf (putFlds 0 [(F.DEV_LOAD_CTL.SRC, 1)]) F.DEV_LOAD_CTL.SRC = 1 ∧
    (∀ st : Bool, let j : LoadJob := { f := 0, fn := 0, ost := false, pipes := [0], presOpen := true, stored := st, img := some goodImage, due := 0 };
      let s : State := { part with pw := { part.pw with loads := [j] } }; s.pw.loads = [j] ∧ (∃ k ∈ s.pw.loads, k.due ≤ s.t16)) ∧
    (∀ p ∈ [0], part.imgHash p ≠ some (imageHash goodImage)) ∧ part.layoutFixed = false ∧ pool.layoutFixed = true ∧
    pool.layout ≠ goodImage.pools := by decide +kernel

/-- A time whose set waits for its edge, one that has begun before the time base, and one that ends at once. -/
theorem wit_TimeSets : (let s := setup part [(R.TIME_SET_CTL, [(F.TIME_SET_CTL.RESULT, 15)])]; s.setBusy = true ∧ s.time.setDue = none ∧
      (s.stagedSet : Int) * 2 ^ 28 + ((0 : Nat) - (s.t16 % 16 : Nat)) * 2 ^ 40 = 0 ∧
      (let u : State := { s with t16 := 21 }; (u.stagedSet : Int) * 2 ^ 28 + ((0 : Int) - (u.t16 % 16 : Nat)) * 2 ^ 40 < 0) ∧
      ({ s with time := { s.time with setDue := some 3 } } : State).time.setDue = some 3 ∧
      s.stagedSet * 2 ^ 28 + (s.t16 - s.t16 % 16 - 0) * 2 ^ 40 < 2 ^ 48 * 1000000000 * 2 ^ 44) := by decide

/-- Time links on distinct ports. -/
theorem wit_TimeLinkPorts : let s := setup port [(R.TIME_TL_PORT 1, [(F.TIME_TL_PORT.EN, 1), (F.TIME_TL_PORT.PORT, 0)]),
      (R.TIME_TL_PORT 2, [(F.TIME_TL_PORT.EN, 1), (F.TIME_TL_PORT.PORT, 1)]),
      (R.PORT_CTL 1, [(F.PORT_CTL.EN, 1)]), (R.PORT_STATUS 1, [(F.PORT_STATUS.WIDTH_APPLIED, 1), (F.PORT_STATUS.LINK_UP, 1)])];
    s.tlPort 1 = some 0 ∧ s.tlPort 2 = some 1 ∧ ∀ j k : Fin 4, j ≠ k → s.tlPort j = s.tlPort k → s.tlPort j = none := by decide

/-- Hash engines: one that is free with sheets of two streams waiting, the audit stream's among them; one that a Pitch stream alone waits for. -/
theorem wit_HashEngines : part.engUp 0 = true ∧ part.engAt 0 = none ∧ (setup part [(R.WB_STATUS, [])]).engUp 0 = false ∧
    (let s := part.setStrm 1 { closed := [sheet0] }; s.engWaits 0 = false ∧ s.engWaits 1 = true ∧ s.inEngine 1 = false ∧
      (∀ m : OwnerNo, m ≠ 1 → s.engWaits m = false) ∧ (s.setStrm 0 { closed := [sheet0] }).engWaits 0 = true ∧
      (s.engTake 0).inEngine 1 = true ∧ ((s.engTake 0).engAt 0).isSome = true ∧
      ((s.engTake 0).strm 1).closed = [] ++ sheet0 :: [] ∧ (∀ m : OwnerNo, m ≠ 1 → (s.engTake 0).engWaits m = false)) := by decide

/-- A JOIN that waits for the arbiter: of no thread, of one that has ended, faulted, waits for the caller, and runs; and two of one cycle. -/
theorem wit_OstlerJoins : (∀ st ∈ [1, 5, 6], let s := ((thread (rowWord 0x32) {}).setThr 1 { st := st }).setThr 0 { st := 3, ask := some (4, 1) };
      s.canonical ∧ (s.thr 0).ask = some (4, 1) ∧ s.thrOwner 1 = s.thrOwner 0 ∧ (s.thr 1).st = st ∧ (s.thr 1).detach = false ∧
      s.joiner 1 = none ∧ s.joinChain 0 512 1 = false) ∧
    (let s := ((thread 0 {}).setThr 1 { st := 3, target := 0 }).setThr 0 { st := 3, ask := some (4, 1) };
      s.joinChain 0 512 1 = true ∧ s.joiner 1 = none) ∧
    (((thread 0 {}).setThr 1 { st := 3, ask := some (4, 0) }).setThr 0 { st := 3, ask := some (4, 1) }).joinAsks = [0, 1] ∧
    ((thread (rowWord 0x32) {}).core 0).due = [(0, 0)] := by
  refine ⟨fun st h => ?_, by decide, by decide, by decide⟩
  simp only [List.mem_cons, List.not_mem_nil, or_false] at h
  rcases h with rfl | rfl | rfl <;> exact ⟨by constructor <;> decide, by decide⟩

/-- A core with a slot that is enabled and one that is not, of a thread that is ready or is not; and a core in a fresh tick. -/
theorem wit_CoreCycles : (let s := thread 0 {}; (s.core 0).due = (0, 0) :: [] ∧ nbit 0 7 = false ∧ (s.thr 0).st = 1 ∧ (s.core 0).at_ = s.t16 ∧
      ({ s with t16 := 10 } : State).t16 ≠ (s.core 0).at_ ∧ (part.core 0).due = []) ∧
    (let s := (thread 0 {}).setCore 0 { due := [(3, 0x80), (4, 0)] };
      (s.core 0).due = (3, 0x80) :: [(4, 0)] ∧ nbit 0x80 7 = true ∧ (s.thr (16 * 0 + 0x80 % 16)).st = 1 ∧ s.corePick 0 = some 0) ∧
    (∀ k, k < 16 → (part.thr k).st ≠ 1) := by decide

/-- A buffer that a BSEND reads whole, and one whose word cannot be read. -/
theorem wit_OstlerSends : ∀ fl ∈ [[], [0, 1]],
    let s := (thread (rowWord 0x3D) { slots := [(0, some { handle := 0 })], r := [(1, 64)] }).setBuf 0
      (some { primary := some 0, owner := 1, bytes := frame0, flips := fl });
    ((s.issued 0 (rowWord 0x3D)).readBuf 0 0 64).1 = decide (fl ≠ []) ∧ s.foreignBuf (s.thrOwner 0) 0 = false := by decide

/-- A ring whose TAIL is beyond it when it starts; a copy of a frame that the function's Pitch holds, and of one that it holds no more; one
that cannot be read; a sheet. -/
theorem wit_Rings : (let s := setup part [(R.DMA_RING_CTL 1 0, [(F.DMA_RING_CTL.SIZE_LOG2, 6)]), (R.DMA_RING_TAIL 1 0, [(F.DMA_RING_TAIL.INDEX, 64)])];
      s.ringEn 1 0 = false ∧ s.ringSize 1 0 ≤ s.ringTail 1 0 ∧ ring.ringEn 1 0 = true) ∧
    (let s := setup (part.setRingQ 1 1 [{ handle := 0, len := 64, hdr := [] }])
        [(R.DMA_RING_CTL 1 1, [(F.DMA_RING_CTL.EN, 1), (F.DMA_RING_CTL.SIZE_LOG2, 6)]), (R.DMA_RING_TAIL 1 1, [(F.DMA_RING_TAIL.INDEX, 1)])];
      s.dmaTurn 1 1 = true ∧ (s.ringQ 1 1).length = 1 ∧ s.ownBuf 1 0 = false ∧
      (∀ fl ∈ [[], [0, 1]], let u := s.setBuf 0 (some { primary := some (rqCode 1 4), owner := 1, bytes := frame0, flips := fl });
        u.ownBuf 1 0 = true ∧ (((u.dmaServed 1 1).readBuf 0 0 64).1 = decide (fl ≠ [])) ∧
        ((u.dmaServed 1 1).readBuf 0 0 64).2.bufFenced 0 = false)) := by decide

/-- A pair that goes beyond its limit, one that stays beyond it, one that comes back part of the way and all of it. -/
theorem wit_NeighbourPairs : (0, 16, 1) ∉ part.pw.beyond ∧ (0, 16, 1) ∉ part.pw.equal ∧
    (let s : State := { part with pw := { part.pw with beyond := [(0, 16, 1)], equal := [(0, 16, 1)] } };
      (0, 16, 1) ∈ s.pw.beyond ∧ (0, 16, 1) ∈ s.pw.equal ∧ (∀ x ∈ (s.pairFound (0, 16, 1) false true).pw.equal, x.1 = 0 → x.2.2 ≠ 1)) ∧
    (0, 16, 0) ∈ (part.pairFound (0, 16, 0) true false).pw.equal ∧ 16 ∈ neighbours 0 ∧
    domRegion 0 = none ∧ (domRegion 129).isSome = true ∧ part.domShared 129 = true ∧ part.domShared 3 = false ∧
    part.thermHeld = false := by decide

/-- A commit that is due and one that is not; a write of PIT_CTL that it holds; Pitches that enter reset, leave it, and do neither. -/
theorem wit_CommitTurns : (let s : State := { part with pw := { part.pw with commit := some { due := 5, map := List.replicate 16 1 } } };
      s.t16 < 5 ∧ (∀ p : PipeNo, (List.replicate 16 1).getD p 0 ≤ 16) ∧
      ({ s with t16 := 10 } : State).pw.commit = some { due := 5, map := List.replicate 16 1 } ∧
      s.mapAffects (List.replicate 16 1) 1 = true ∧ part.mapAffects (List.replicate 16 0) 5 = false ∧
      (setup s [(R.PIT_CTL 1, [(F.PIT_CTL.WARDEN_HOLD, 1)])]).pitFrees 0 1 0 = true ∧
      s.pitFrees 0 1 (putFlds 0 [(F.PIT_CTL.WARDEN_HOLD, 1)]) = false) ∧
    part.bit R.PIT_COMMIT F.PIT_COMMIT.GO = false ∧ (setup part [(R.PIT_COMMIT, [(F.PIT_COMMIT.GO, 1)])]).bit R.PIT_COMMIT F.PIT_COMMIT.GO = true ∧
    (let s : State := { part with irq := { part.irq with pitEnter := [1] } }; (∀ n ∈ s.irq.pitEnter, 1 ≤ n ∧ n ≤ 16) ∧ s.ownerOfPipe 0 ∈ s.irq.pitEnter ∧
      s.ownerOfPipe 1 ∉ s.irq.pitEnter) ∧ part.irq.pitEnter = [] := by decide

/-- A presence window whose time is over, and one whose time is not; the last stage without a window and the first with one. -/
theorem wit_PresenceTimes : (∀ st ∈ [1, 2], (setup part [(R.DEV_BOOT_STATUS, [(F.DEV_BOOT_STATUS.STAGE, st)])]).stage = st) ∧
    part.presHeld = false ∧ part.presOpen = true ∧ part.pres.riseAt + part.pres.window * 16000000000 ≤
      ({ part with t16 := 60 * 16000000000 } : State).t16 ∧
    (let s : State := { part with pres := { part.pres with riseAt := 5 } }; s.t16 < s.pres.riseAt + s.pres.window * 16000000000) ∧
    ({ setup part [(R.DEV_PRES_STATUS, [(F.DEV_PRES_STATUS.SEAL_OK, 1)])] with pw := { part.pw with alive := true } } : State).sealOk = true ∧
    ({ part with pw := { part.pw with rounds := true } } : State).pw.rounds = true ∧
    (setup part [(R.IRQ_PEND 1, [(⟨3, 1⟩, 1)])]).reg (R.IRQ_PEND 1) ≠ 0 ∧
    ({ part with irq := { part.irq with pcie := [(1, { msiHeld := true })] } } : State).pcieCfg 1 = { msiHeld := true } := by decide

/-- A transfer at its first attempt and at its last; a bus that is free, held low, and freed; and requests of the mailbox. -/
theorem wit_SideTransfers :
    (∀ k ∈ [0, 1, 2],
      let s := (setup part [(R.SB_I2C_CMD 2, [(F.SB_I2C_CMD.GO, 1), (F.SB_I2C_CMD.KIND, k), (F.SB_I2C_CMD.WLEN, 1),
        (F.SB_I2C_CMD.RLEN, 1)])]).setI2c 2 { ctl := putFlds 0 [(F.SB_I2C_CTL.RETRIES, 1)], tries := 1 };
      s.bit (R.SB_I2C_CMD 2) F.SB_I2C_CMD.GO = true ∧ (s.i2cRun 2).next ≤ s.t16 ∧ (s.i2cRun 2).tries ≤ fldOf (s.i2cRun 2).ctl F.SB_I2C_CTL.RETRIES ∧
      s.i2cMay 2 0 = true ∧ s.i2cMay 2 1 = false ∧ (s.setI2c 2 { s.i2cRun 2 with tries := 2 }).i2cMay 2 1 = true ∧ s.i2cMay 2 3 = false ∧
      fldOf ({ s.i2cRun 2 with tries := 2 } : I2cRun).ctl F.SB_I2C_CTL.RETRIES < 2) ∧
    i2cStuck {} = false ∧ i2cStuck { sclLow := true } = true ∧ i2cStuck { sdaLow := true, sdaAfter := true } = true ∧ i2cStuck { sdaLow := true } = false ∧
    (setup part [(R.SB_CMIS_WR, [(F.SB_CMIS_WR.PITCH, 1)])]).cmisMayWrite 0 = true ∧ part.cmisMayWrite 0 = false ∧
    ({ part with pw := { part.pw with alive := true } } : State).pw.alive = true ∧ part.stage = 9 := by decide

/-- The endpoint's bounds on speed and width; a flash that is read with a good first block; a good container. -/
theorem wit_BootReads : (∀ l ∈ [1, 2, 4, 8], l = 1 ∨ l = 2 ∨ l = 4 ∨ l = 8) ∧ containerHeadOk [] = false ∧ spiMode 16 = 5 ∧ spiMode 0 = 0 ∧
    part.pcieMay = false ∧ 0 < part.stage := by decide

end Sys2Proof.Tests
end

section
/-! SUPPORT. What every command and every step keeps (`Kept`): the outcome of each row of the opcode table, from the lemma of the operation
that the row calls. -/

namespace Sys2Proof.Machine

theorem Kept.refl (s : State) : Kept s s :=
  ⟨rfl, rfl, List.prefix_refl _, Nat.le_refl _, id⟩

/-- An outcome that is no next state, or one up to which everything of `Kept` is kept. -/
def KeptOut (s : State) (o : Out) : Prop := ∀ t, o = .next t → Kept s t

theorem KeptOut.next {s t : State} (h : Kept s t) : KeptOut s (.next t) := by
  rintro _ ⟨⟩
  exact h

/-- A refusal has no next state, so that it keeps everything. -/
theorem KeptOut.refused {s : State} {r : Refusal} : KeptOut s (.refused r) := by
  rintro _ ⟨⟩

theorem State.ostSys_keptOut {s₀ s : State} {t : Nat} (h : Kept s₀ s) : KeptOut s₀ (s.ostSys t) := by
  unfold State.ostSys
  extract_lets q vendor
  cases vendor with
  | true => exact .refused
  | false => exact .next (State.ostIssue_kept h fun _ _ h => h)

/-- Every row of the opcode table: a row that writes a command register keeps what a write keeps, any other what its operation keeps. -/
theorem exec_keptOut (c : Instr) (s : State) : KeptOut s (exec c s) := by
  have h := Kept.refl s
  cases c with
  | registerWrite => exact .next (State.hostStore_kept h)
  | rcRead | ostPsDataRead => exact .next (State.hostLoad_kept h)
  | counterPairRead | timeNsRead => exact .next (State.reqLoad_kept h)
  | roundEffectiveWrite => exact .next (.ite (State.hostStore_kept h) h)
  | roundBoundary => exact .next (State.roundBoundary_kept h)
  | frameArrival => exact .next (State.frameArrival_kept h)
  | berthTake => exact .next (.ite (State.berthTake_kept h) h)
  | stageEnter => exact .next (.ite (State.stageEnter_kept h) h)
  | tmEnqueue => exact .next (.ite (State.tmEnqueue_kept h) h)
  | replicaMake => exact .next (.ite (State.replicaMake_kept h) h)
  | schedulerSelect => exact .next (.ite (State.schedulerSelect_kept h) h)
  | ttReleaseDue => exact .next (.ite (State.ttReleaseDue_kept h) h)
  | deparse => exact .next (.ite (State.deparse_kept h) h)
  | frameTxStart => exact .next (State.txStart_kept h)
  | frameTxEnd => exact .next (State.txEnd_kept h)
  | controlFrameSend => exact .next (State.ctlSend_kept h)
  | pfcRefresh => exact .next (State.fcRefresh_kept h)
  | pauseRx => exact .next (.ite (State.stallEvals_kept (State.rxPause_kept h)) h)
  | pfcRx => exact .next (.ite (State.stallEvals_kept (State.rxPfc_kept h)) h)
  | macCtrlOtherRx => exact .next (.ite (State.rxMacCtrlOther_kept h) h)
  | pauseExpiry => exact .next (.ite (State.stallEval_kept (State.setPause_kept h)) h)
  | portEnable | portDisable | firLoad | laneFirLoad | chkPatWrite | eyeScanGo | emReadAddr | emWriteAddr | emLookupCmd
  | emInsert | emUpdate | emDelete | emFlushDynamic | stgNotePop | tcGmaskTake | tcReadAddr | tcWriteAddr | tcInsert
  | tcDeleteAddr | tcUpdateResult | tcSearchCmd | tcFlush | ucSwapGo | ucStbyWrite | verOpen | verCommit | verAbandon | gInsert
  | gReplace | gDelete | gTcInsert | gTcDelete | bpmAudPop | bpmReclaim | bpmFenceGo | tmIaRead | tmIaWrite | tmIaReadClear
  | timeSetGo | timeAdjGo | timeFreqWrite | timeSrcChange | ppsArm | ppsDisarm | timeEvtPop | txqPop | calGo | ttLatePop
  | wbFlush | wbKeyIdxWrite | wbKeyGo | wbExpPortWrite | ostThreadReset | supStart | ostKick | ostPsDataWrite | ostCustEnable
  | ostCustDisable | smpRestart | cntSnapGo | cntThaw | pitCommitGo | deviceResetGo | portResetGo | laneResetGo | irqPendWrite
  | irqHistPop | dmaTailWrite | dmaRingEnWrite | dmaFree | i2cWrite | i2cRead | i2cWriteRead | i2cBadKind | cmisRead | cmisWrite
  | presClose => exact .next (State.command_kept h)
  | formationTimelineEnd => exact .next (State.timelineEnd_kept h)
  | signalLoss => exact .next (State.signalLoss_kept h)
  | signalReturn => exact .next (State.signalReturn_kept h)
  | cdrLockLoss => exact .next (State.lockLost_kept h)
  | cdrLock => exact .next (State.cdrLocks_kept h)
  | adaptDone => exact .next (State.adapted_kept h)
  | fwdClockLoss => exact .next (State.fwdLoss_kept h)
  | prbsLock => exact .next (State.prbsLocks_kept h)
  | prbsLol => exact .next (State.prbsLoses_kept h)
  | eyeScanDone => exact .next (State.eyeDone_kept h)
  | linkUpRise => exact .next (State.linkTry_kept (State.pcsRx_kept h))
  | linkDown => exact .next (State.linkLost_kept (State.pcsDown_kept h))
  | localFaultRx | remoteFaultRx => exact .next (State.faultRx_kept h)
  | anFail => exact .next (State.anFails_kept h)
  | anRestart => exact .next (State.anRestarts_kept h)
  | trainTimeout => exact .next (State.trainExpires_kept h)
  | onzTrainingBlockRx => exact .next (State.onzBlockSyms_kept h)
  | onzIdleMarkerRx => exact .next (State.onzMarkerUp_kept h)
  | onzTrainingMarkerRx | onzMarkerTimeout => exact .next (State.onzDrop_kept h)
  | onzMarkerError => exact .next (State.onzBadRx_kept h)
  | alignBlockRx => exact .next (State.alignRx_kept h)
  | alignmentLoss => exact .next (State.alignLost_kept h)
  | learnProcess => exact .next (.ite (State.learnProcess_kept h) h)
  | stashReinsert => exact .next (.ite (State.stashReinsert_kept h) h)
  | agerVisit => exact .next (.ite (State.agerVisit_kept h) h)
  | parityInvalidate => exact .next (.ite (State.parityInvalidate_kept h) h)
  | emFlushStep => exact .next (.ite (State.flushStep_kept h) h)
  | scrubVisit => exact .next (.ite (State.scrubVisit_kept h) h)
  | tcInvalidate => exact .next (.ite (State.tcInvalidate_kept h) h)
  | ucSwapLand => exact .next (State.swapLand_kept h)
  | ucSwapDrainEnd => exact .next (State.swapDrained_kept h)
  | imageLoad | containerPushGo => exact .next (.ite (State.regWriteX_kept h) h)
  | verBadCmd => exact .next (State.badVerCmd_kept h)
  | commitApply => exact .next (State.commitApply_kept h)
  | drainComplete => exact .next (.ite h (State.drainComplete_kept h))
  | retireDone => exact .next (.ite h (State.retireDone_kept h))
  | abandonDone => exact .next (.ite h (State.abandonDone_kept h))
  | drainTimeout => exact .next (.ite h (State.drainTimeout_kept h))
  | bankControllerFault => exact .next (State.fenceSlice_kept h)
  | portLiveSet => exact .next (State.liveSet_kept h)
  | watchdogCheck => exact .next (State.wdCheck_kept h)
  | downFlushExpiry => exact .next (State.downFlush_kept h)
  | timeSetTimeout => exact .next (State.timeSetTimeout_kept h)
  | counterFault => exact .next (State.copyFlip_kept h)
  | ppsInEdge => exact .next (State.ppsIn_kept h)
  | servoCorrection ref =>
    cases ref with
    | none => exact .next (State.servoCorrect_kept h)
    | some age => exact .next (State.servoCorrect_kept (State.refIn_kept h))
  | sourceLoss => exact .next (State.sourceLoss_kept h)
  | sourceRevert => exact .next (State.sourceBack_kept h)
  | timeLinkFrameTx => exact .next (State.tlTx_kept h)
  | timeLinkFrameRx => exact .next (State.tlFrameRx_kept h)
  | datasetExpiry => exact .next (State.tlExpire_kept h)
  | ppsEdgeEmit => exact .next (State.ppsDue_kept h)
  | evtCapture => exact .next (State.evtEdge_kept h)
  | calFrameTx => exact .next (State.calTx_kept h)
  | calFrameRx => exact .next (State.calFrameRx_kept h)
  | calDone => exact .next (State.calDone_kept h)
  | sheetHashDone => exact .next (State.wbHash_kept h)
  | sheetExport => exact .next (State.sheetExport_kept h)
  | exportRetry => exact .next (State.exportRetry_kept h)
  | hashEngineLoss | hashEngineReturn => exact .next (State.wbEngine_kept h)
  | ostAdd | ostSub | ostAnd | ostOr | ostXor | ostMul | ostMulhu | ostShl | ostShr | ostSar | ostSltu | ostSlt => exact .next (State.ostAluR_kept h)
  | ostAddi | ostAndi | ostOri | ostXori | ostLui | ostShli | ostShri | ostSari | ostSltiu => exact .next (State.ostAluI_kept h)
  | ostLdw | ostLdh | ostLdb => exact .next (State.ostLoad_kept h)
  | ostStw | ostSth | ostStb => exact .next (State.ostStore_kept h)
  | ostAmoadd | ostAmoswap => exact .next (State.ostAmo_kept h)
  | ostBeq | ostBne | ostBltu | ostBgeu => exact .next (State.ostBranch_kept h)
  | ostJmp => exact .next (State.ostIssue_kept h fun _ _ h => State.ostTo_kept h)
  | ostCall => exact .next (State.ostIssue_kept h fun _ _ h => State.ostCall_kept h)
  | ostJr => exact .next (State.ostIssue_kept h fun _ _ h => State.ostXfer_kept h fun _ _ h => State.ostTo_kept h)
  | ostCallr => exact .next (State.ostIssue_kept h fun _ _ h => State.ostXfer_kept h fun _ _ h => State.ostCall_kept h)
  | ostRet => exact .next (State.ostIssue_kept h fun _ _ h => State.ostRet_kept h)
  | ostFork => exact .next (State.ostIssue_kept h fun _ _ h => State.ostFork_kept h)
  | ostWaitt => exact .next (State.ostIssue_kept h fun _ _ h => State.ostWaitt_kept h)
  | ostRdt => exact .next (State.ostIssue_kept h fun _ _ h => State.ostRdt_kept h)
  | ostXget => exact .next (State.ostIssue_kept h fun _ _ h => State.ostXget_kept h)
  | ostBalloc => exact .next (State.ostIssue_kept h fun _ _ h => State.ostBalloc_kept h)
  | ostBfree => exact .next (State.ostIssue_kept h fun _ _ h => State.ostBfree_kept h)
  | ostBld => exact .next (State.ostIssue_kept h fun _ _ h => State.ostBld_kept h)
  | ostBst => exact .next (State.ostIssue_kept h fun _ _ h => State.ostBst_kept h)
  | ostBsend => exact .next (State.ostIssue_kept h fun _ _ h => State.ostBsend_kept h)
  | ostHput => exact .next (State.ostIssue_kept h fun _ _ h => State.ostHput_kept h)
  | ostHtake => exact .next (State.ostIssue_kept h fun _ _ h => State.ostHtake_kept h)
  | ostIllegal => exact .next (State.ostIssue_kept h fun _ _ h => h)
  | ostJoin => exact .next (State.ostIssue_kept h fun _ _ h => State.ostJoin_kept h)
  | ostExit => exact .next (State.ostIssue_kept h fun _ _ h => State.thrExit_kept h)
  | waittWake => exact .next (State.waittWake_kept h)
  | ostFld => exact .next (State.ostFld_kept h)
  | ostFst => exact .next (State.ostFst_kept h)
  | accessComplete => exact .next (State.accessComplete_kept h)
  | ostSys => exact State.ostSys_keptOut h
  | ostCustCheckDone => exact .next (State.custCheckDone_kept h)
  | cntSnapDone => exact .next (State.snapDone_kept h)
  | inputDropRegrant => exact .next (State.inputDrop_kept h)
  | inputUndervoltage => exact .next (State.undervolt_kept h)
  | inputOvervoltage => exact .next (State.overvolt_kept h)
  | droopTrip => exact .next (State.droopTrip_kept h)
  | droopRecovery => exact .next (State.droopRecover_kept h)
  | thermalSample => exact .next (State.thermalSample_kept h)
  | thermalTrip => exact .next (State.thermTrip_kept h)
  | neighbourEqualise => exact .next (State.neighbourEq_kept h)
  | marginLow => exact .next (State.marginLow_kept h)
  | laneGroupAdmit => exact .next (State.lgAdmit_kept h)
  | laneGroupCalDone => exact .next (State.lgCalDone_kept h)
  | domainAdmit => exact .next (State.domAdmit_kept h)
  | domainReady => exact .next (State.domDone_kept h)
  | domainFault => exact .next (State.domFault_kept h)
  | refclkLoss => exact .next (State.refLoss_kept h)
  | refclkReturn => exact .next (State.refReturn_kept h)
  | pllLossOfLock => exact .next (State.pllLoss_kept h)
  | pllRelock => exact .next (State.pllRelock_kept h)
  | fabricLoss => exact .next (State.fabricLoss_kept h)
  | pitCtlWrite => exact .next (.ite h (State.command_kept h))
  | portResetRestart => exact .next (State.portRestart_kept h)
  | powerGood => exact .next (State.powerGood_kept h)
  | perstDeassert => exact .next (State.perstDeassert_kept h)
  | pcieLinkUp => exact .next (State.pcieUp_kept h)
  | spiBootRead => exact .next (State.spiRead_kept h)
  | deviceLoad => exact .next (State.deviceLoad_kept h)
  | dmaTxDescriptor => exact .next (State.dmaTx_kept h)
  | dmaExcWrite => exact .next (State.dmaExc_kept h)
  | dmaSheetWrite => exact .next (State.dmaSheet_kept h)
  | functionLevelReset => exact .next (State.flr_kept h)
  | pcieHotReset => exact .next (State.hotReset_kept h)
  | i2cAddressRetry => exact .next (State.i2cRetry_kept h)
  | i2cDone => exact .next (State.i2cEnd_kept h)
  | cmisDone => exact .next (State.cmisDone_kept h)
  | smbStatus | smbIrqSummary | smbSerial | smbPcieStatus | smbInputVoltage | smbInputPower | smbHottestSensor => exact .next (State.smbAnswer_kept h)
  | jtagBypass | jtagIdcode | jtagTestLogicReset => exact .next (State.jtagTake_kept h)
  | jtagSamplePreload => exact .next (State.jtagPreload_kept h)
  | jtagExtest | jtagExtestPulse | jtagExtestTrain | jtagClamp | jtagHighz => exact .next (State.jtagLands_kept h)
  | presenceAssert => exact .next (State.presAssert_kept h)
  | presenceRelease => exact .next (State.presRelease_kept h)
  | presenceWindowExpiry => exact .next (State.presExpire_kept h)
  | sealOpen => exact .next (State.sealOpens_kept h)
  | sealClose => exact .next (State.sealCloses_kept h)
  | fwdClockLock => exact .next (State.fwdLocks_kept h)
  | txPllLossOfLock => exact .next (State.txPllLoss_kept h)
  | txPllRelock => exact .next (State.txPllLock_kept h)
  | alwaysOnDomainLost => exact .next (State.alwaysOnLost_kept h)
  | overvoltageRecovery => exact .next (State.overvoltRecovery_kept h)
  | dmaCompletionTimeout => exact .next (State.ringTimeout_kept h)
  | pcieConfigWrite => exact .next (State.pcieConfig_kept h)
  | anComplete => exact .next (State.anCompletes_kept h)
  | linkTrainingFrameRx => exact .next (State.trainRx_kept h)
  | memoryUpset => exact .next (State.upset_kept h)

/-- Settles O4: each row's operation keeps what `Kept` speaks of. -/
theorem execKept : Obligations.ExecKept :=
  fun c s => exec_keptOut c s

theorem State.tick_unpowered {s : State} (h : s.pw.alive = false) : s.tick = { s with t16 := s.t16 + 10 } := by
  simp only [State.tick, h, Bool.not_false, if_true]

theorem step_of_idle {s : State} (h : s.pending = []) : step s = .next s.tick := by
  simp only [step, h]

/-- Settles O2: an idle step is a tick, and a tick keeps what each of its turns keeps. -/
theorem idleTick : Obligations.IdleTick :=
  fun s h => ⟨step_of_idle h, State.tick_kept (Kept.refl s), State.tick_unpowered⟩

end Sys2Proof.Machine
end

section
/-! SUPPORT. The access types (R11, R535): the bits that the fields of a register hold, how the register maps lay them out, and what a write
that only stores leaves in each. -/

namespace Sys2Proof.Machine

/-! ### Bits of fields -/

/-- Bit `i` of a word belongs to the field. -/
abbrev Has (f : Fld) (i : Nat) : Prop := f.lo ≤ i ∧ i < f.lo + f.w

theorem fldOf_testBit (w : Word) (f : Fld) (i : Nat) : (fldOf w f).testBit i = (decide (i < f.w) && w.getLsbD (i + f.lo)) := by
  rw [fldOf, Nat.testBit_mod_two_pow, Nat.testBit_div_two_pow]
  rfl

/-- Words that agree in a field's bits hold the same value there. -/
theorem fldOf_congr {x y : Word} {f : Fld} (h : ∀ i, Has f i → x.getLsbD i = y.getLsbD i) : fldOf x f = fldOf y f := by
  refine Nat.eq_of_testBit_eq fun i => ?_
  rw [fldOf_testBit, fldOf_testBit]
  by_cases hi : i < f.w
  · rw [h (i + f.lo) (by unfold Has; omega)]
  · simp [hi]

theorem maskOf_bit (f : Fld) (i : Nat) (hi : i < 32) : (BitVec.ofNat 32 (maskOf f)).getLsbD i = decide (Has f i) := by
  rw [BitVec.getLsbD_ofNat, maskOf, Nat.testBit_mul_two_pow, Nat.testBit_two_pow_sub_one]
  simp only [hi, decide_true, Bool.true_and, ← Bool.decide_and]
  exact decide_eq_decide.2 (by unfold Has; omega)

theorem mix_bit (old new m : Word) (i : Nat) :
    (mix old new m).getLsbD i = if m.getLsbD i then new.getLsbD i else old.getLsbD i := by
  by_cases hi : i < 32
  · simp only [mix, BitVec.getLsbD_or, BitVec.getLsbD_and, BitVec.getLsbD_not, hi, decide_true, Bool.true_and]
    cases m.getLsbD i <;> simp
  · simp [BitVec.getLsbD_of_ge _ _ (Nat.le_of_not_lt hi)]

/-! ### How registers are laid out -/

/-- The fields lie beside each other. -/
abbrev Beside (f g : Fld × FTy) : Prop := f.1.lo + f.1.w ≤ g.1.lo ∨ g.1.lo + g.1.w ≤ f.1.lo

/-- A register's fields lie beside each other, and within its 32 bits. -/
abbrev Laid (r : Row) : Prop := r.fields.Pairwise Beside ∧ ∀ f ∈ r.fields, 1 ≤ f.1.w ∧ f.1.lo + f.1.w ≤ 32

theorem Beside.not_has {f g : Fld × FTy} (h : Beside f g) {i : Nat} (hf : Has f.1 i) : ¬ Has g.1 i := by
  unfold Has at *; omega

/-- Every register map of the window is laid out so. -/
theorem rowsOf_laid (g : Region) : ∀ r ∈ rowsOf g, Laid r := by
  cases g <;> simp only [rowsOf] <;> decide

theorem findRow_mem {rs : List Row} {o : Nat} {r : Row} {ix : List Nat} (h : findRow rs o = some (r, ix)) : r ∈ rs := by
  induction rs with
  | nil => simp [findRow] at h
  | cons x xs ih =>
    simp only [findRow] at h
    split at h
    · split at h
      · simp only [Option.some.injEq, Prod.mk.injEq] at h
        simp [h.1]
      · exact List.mem_cons_of_mem _ (ih h)
    · exact List.mem_cons_of_mem _ (ih h)

theorem findReg_laid {a : Nat} {g : Region} {r : Row} {ix : List Nat} (h : findReg a = some (g, r, ix)) : Laid r := by
  simp only [findReg, Option.map_eq_some_iff] at h
  obtain ⟨⟨r', ix'⟩, hrow, heq⟩ := h
  simp only [Prod.mk.injEq] at heq
  obtain ⟨-, rfl, -⟩ := heq
  exact rowsOf_laid _ _ (findRow_mem hrow)

/-- Two fields of a register are one field, or lie beside each other. -/
theorem Laid.beside {r : Row} (h : Laid r) {f f' : Fld × FTy} (hf : f ∈ r.fields) (hf' : f' ∈ r.fields) (hne : f ≠ f') :
    Beside f f' := by
  have hp := h.1.imp (S := fun f f' => f ≠ f' → Beside f f') fun hb _ => hb
  have hq := h.1.imp (S := fun f f' => f' ≠ f → Beside f' f) fun hb _ => hb.symm
  exact hp.forall_of_forall_of_flip (fun _ _ hn => (hn rfl).elim) hq hf hf' hne

/-! ### Masks -/

/-- The sum of the masks of fields that lie beside each other holds the bits of each. -/
theorem maskSum_bit {l : List (Fld × FTy)} (hl : l.Pairwise Beside) {m i : Nat} (hi : i < 32)
    (hm : ∀ f ∈ l, ∀ j, j < 32 → Has f.1 j → (BitVec.ofNat 32 m).getLsbD j = false) :
    (BitVec.ofNat 32 (l.foldl (fun m f => m + maskOf f.1) m)).getLsbD i =
      ((BitVec.ofNat 32 m).getLsbD i || decide (∃ f ∈ l, Has f.1 i)) := by
  induction l generalizing m with
  | nil => simp
  | cons f l ih =>
    obtain ⟨hfl, hl⟩ := List.pairwise_cons.1 hl
    have hdisj : BitVec.ofNat 32 m &&& BitVec.ofNat 32 (maskOf f.1) = 0#32 := by
      refine BitVec.eq_of_getLsbD_eq fun j hj => ?_
      rw [BitVec.getLsbD_and, maskOf_bit _ _ hj]
      by_cases hh : Has f.1 j
      · simp [hm f (by simp) j hj hh]
      · simp [hh]
    have hsum : ∀ j, j < 32 → (BitVec.ofNat 32 (m + maskOf f.1)).getLsbD j =
        ((BitVec.ofNat 32 m).getLsbD j || decide (Has f.1 j)) := by
      intro j hj
      rw [BitVec.ofNat_add, BitVec.add_eq_or_of_and_eq_zero _ _ hdisj, BitVec.getLsbD_or, maskOf_bit _ _ hj]
    rw [List.foldl_cons, ih hl, hsum i hi]
    · simp only [Bool.or_assoc, ← Bool.decide_or, List.exists_mem_cons_iff]
    · intro g hg j hj hh
      rw [hsum j hj, hm g (by simp [hg]) j hj hh]
      simpa using fun hf => (hfl g hg).not_has hf hh

/-- A mask of picked types holds a field's bits where it picks the field's type, and no others of them. -/
theorem Laid.mask_bit {r : Row} (h : Laid r) (p : FTy → Bool) {f : Fld × FTy} (hf : f ∈ r.fields) {i : Nat} (hi : Has f.1 i) :
    (r.mask p).getLsbD i = p f.2 := by
  have h32 : i < 32 := by
    have := (h.2 f hf).2
    unfold Has at hi; omega
  rw [Row.mask, maskSum_bit (h.1.filter _) h32 (by simp)]
  have honly : ∀ g ∈ r.fields, Has g.1 i → g = f := fun g hg hgi =>
    Classical.byContradiction fun hne => (h.beside hg hf hne).not_has hgi hi
  have : (∃ g ∈ r.fields.filter fun f => p f.2, Has g.1 i) ↔ p f.2 = true := by
    constructor
    · rintro ⟨g, hg, hgi⟩
      obtain ⟨hg, hp⟩ := List.mem_filter.1 hg
      exact honly g hg hgi ▸ hp
    · exact fun hp => ⟨f, List.mem_filter.2 ⟨hf, hp⟩, hi⟩
  rw [BitVec.getLsbD_zero, Bool.false_or, Bool.eq_iff_iff, decide_eq_true_iff, this]

theorem Row.mask_eq_zero {r : Row} {p : FTy → Bool} (h : ∀ f ∈ r.fields, p f.2 = false) : r.mask p = 0 := by
  have : (r.fields.filter fun f => p f.2) = [] := List.filter_eq_nil_iff.2 fun f hf => by simp [h f hf]
  rw [Row.mask, this]
  rfl

/-! ### A write that only stores -/

/-- The types that a write with no RWP field at stake stores, where the block is idle or not. -/
def storedType (idle : Bool) (t : FTy) : Bool := t == .rw || t == .wo || t == .rwp || (idle && t == .rwi)

/-- The word that such a write leaves in the register. -/
def State.storedWord (s : State) (w : Wr) : Word :=
  mix (s.reg w.pa) w.v (w.row.mask (storedType (s.rwiIdle w))) &&&
    ~~~(w.v &&& w.row.mask (· == .w1c) &&& ~~~s.persist w.pa w.g w.row.id)

theorem State.gate_of_noRwp {s : State} {w : Wr} {old : Word} (h : ∀ f ∈ w.row.fields, f.2 ≠ .rwp) : s.gate w old = (true, s) := by
  have h0 : w.row.mask (· == .rwp) = 0 := Row.mask_eq_zero fun f hf => by simp [h f hf]
  simp [State.gate, h0]

theorem State.plainWrite_of_noRwp {s : State} {w : Wr} (hr : w.row.roundEff = false) (h : ∀ f ∈ w.row.fields, f.2 ≠ .rwp) :
    s.plainWrite w =
      if !s.rwiIdle w && (s.reg w.pa &&& w.row.mask (· == .rwi)) ≠ (w.v &&& w.row.mask (· == .rwi)) then
        (s.setReg w.pa (s.storedWord w)).rwiCause w
      else s.setReg w.pa (s.storedWord w) := by
  simp only [State.plainWrite, hr, State.gate_of_noRwp h]
  rfl

/-- Bit `i` of a field after the write, by the field's type. -/
theorem State.storedWord_bit {s : State} {w : Wr} (hl : Laid w.row) {f : Fld × FTy} (hf : f ∈ w.row.fields) {i : Nat} (hi : Has f.1 i) :
    (s.storedWord w).getLsbD i =
      ((if storedType (s.rwiIdle w) f.2 then w.v.getLsbD i else (s.reg w.pa).getLsbD i) &&
        !(w.v.getLsbD i && f.2 == .w1c && !(s.persist w.pa w.g w.row.id).getLsbD i)) := by
  have h32 : i < 32 := by
    have := (hl.2 f hf).2
    unfold Has at hi; omega
  simp only [State.storedWord, BitVec.getLsbD_and, BitVec.getLsbD_not, mix_bit, hl.mask_bit _ hf hi, h32, decide_true, Bool.true_and]

/-- A field of another type than W1C takes the value written where the write stores its type, and keeps its own elsewhere. -/
theorem State.storedWord_fld {s : State} {w : Wr} (hl : Laid w.row) {f : Fld × FTy} (hf : f ∈ w.row.fields) (hc : f.2 ≠ .w1c) :
    fldOf (s.storedWord w) f.1 = if storedType (s.rwiIdle w) f.2 then fldOf w.v f.1 else s.fld w.pa f.1 := by
  have hc : (f.2 == FTy.w1c) = false := by simpa using hc
  cases ht : storedType (s.rwiIdle w) f.2 with
  | true => exact fldOf_congr fun i hi => by simp [State.storedWord_bit hl hf hi, ht, hc]
  | false => exact fldOf_congr fun i hi => by simp [State.storedWord_bit hl hf hi, ht, hc]

/-- A write that would change RWP fields passes where a presence window is open (R608). -/
theorem State.gate_of_change {s : State} {w : Wr} {old : Word} (h : (old &&& w.row.mask (· == .rwp)) ≠ (w.v &&& w.row.mask (· == .rwp))) :
    (s.gate w old).1 = s.presOpen := by
  have hne : old ≠ w.v := fun e => h (by rw [e])
  simp only [State.gate, h, if_false, State.rwpGate, hne]
  cases s.presOpen <;> rfl

/-- Settles O8: the fields lie beside each other, so that each bit of a register obeys the type of one field. -/
theorem accessTypes : Obligations.AccessTypes := by
  intro s w hreg hround
  have hl := findReg_laid hreg
  refine ⟨fun f hf f' hf' hne => hl.beside hf hf' hne, hl.2, fun hrwp => ?_, fun _ _ _ h => State.gate_of_change h⟩
  have hreg : (s.setReg w.pa (s.storedWord w)).reg w.pa = s.storedWord w := State.reg_setReg ..
  refine ⟨s.setReg w.pa (s.storedWord w), by rw [hreg], fun f hf => ?_, fun hidle => ?_, fun hbusy => ?_⟩
  · rw [State.fld_setReg, hreg]
    refine ⟨fun ht => ?_, fun ht => ?_, fun ht => ?_, fun ht i hlo hhi => ?_⟩
    · rcases ht with ht | ht <;> simp [State.storedWord_fld hl hf, ht, storedType]
    · rcases ht with ht | ht | ht <;> simp [State.storedWord_fld hl hf, ht, storedType]
    · simp [State.storedWord_fld hl hf, ht, storedType]
    · simp [State.storedWord_bit hl hf ⟨hlo, hhi⟩, ht, storedType]
  · simp [State.plainWrite_of_noRwp hround hrwp, hidle]
  · simp [State.plainWrite_of_noRwp hround hrwp, hbusy]

end Sys2Proof.Machine
end

section
/-! SUPPORT. The Round boundary (R7, R34, R631): when it is due, and what the advance of the Round's number leaves. -/

namespace Sys2Proof.Machine

theorem State.roundDue_iff (s : State) : s.roundDue = true ↔ s.pw.alive = true ∧ s.pw.rounds = true ∧ 62500 ≤ s.pw.cyc := by
  simp [State.roundDue, and_assoc]

theorem State.roundBoundary_of_not_due {s : State} (h : s.roundDue = false) (o : RoundObs) : s.roundBoundary o = s := by
  simp [State.roundBoundary, h]

/-- The registers do not see what the power state holds. -/
theorem State.reg_pw (s : State) (p : PowerSt) (a : Nat) : ({ s with pw := p } : State).reg a = s.reg a := rfl

theorem State.nextRound_num (s : State) :
    s.nextRound.reg R.DEV_ROUND_NUM = BitVec.ofNat 32 (((s.reg R.DEV_ROUND_NUM).toNat + 1) % 2 ^ 32) := by
  rw [State.nextRound, State.reg_setFld_ne _ _ _ _ _ (by decide), State.reg_setReg]

theorem State.nextRound_phase (s : State) :
    s.nextRound.fld R.DEV_ROUND_PHASE F.DEV_ROUND_PHASE.PHASE = min 62499 (s.pw.cyc - 62500) := by
  have h : F.DEV_ROUND_PHASE.PHASE.w = 16 := rfl
  rw [State.nextRound, State.fld_setFld _ _ _ _ (by decide), h]
  exact Nat.mod_eq_of_lt (by omega)

theorem State.nextRound_cyc (s : State) : s.nextRound.pw.cyc = s.pw.cyc - 62500 := rfl

theorem State.nextRound_reg_ne (s : State) {a : Nat} (hn : a ≠ R.DEV_ROUND_NUM) (hp : a ≠ R.DEV_ROUND_PHASE) :
    s.nextRound.reg a = s.reg a := by
  rw [State.nextRound, State.reg_setFld_ne _ _ _ _ _ hp, State.reg_setReg_ne _ _ _ _ hn, State.reg_pw]

/-- Settles O10: the duties of a boundary that is due, each from the state that the one before it leaves. -/
theorem roundBoundaryOrder : Obligations.RoundBoundaryOrder := by
  intro o s
  refine ⟨fun hnot => ?_, fun halive hrounds hcyc => ?_⟩
  · have hdue : s.roundDue = false := by
      rw [Bool.eq_false_iff, Ne, State.roundDue_iff]
      rcases hnot with h | h | h
      · simp [h]
      · simp [h]
      · exact fun hd => Nat.not_le_of_lt h hd.2.2
    exact congrArg Host.Outcome.next (State.roundBoundary_of_not_due hdue o)
  · have hdue : s.roundDue = true := s.roundDue_iff.2 ⟨halive, hrounds, hcyc⟩
    refine ⟨_, _, _, _, _, _, _, rfl, rfl, rfl, rfl, rfl, rfl, rfl, State.nextRound_num _, State.nextRound_phase _,
      State.nextRound_cyc _, fun _ => State.nextRound_reg_ne _, ?_⟩
    change Host.Outcome.next (s.roundBoundary o) = _
    rw [State.roundBoundary, hdue]
    rfl

end Sys2Proof.Machine
end

section
/-! SUPPORT. Accesses over PCI Express (R13, R14, R53, R55, R56): what an access violation leaves, and where a write goes. -/

namespace Sys2Proof.Machine

/-! ### What the start of a cause leaves in the interrupt block -/

/-- From `s` to `t` no bit of an owner's IRQ_OWN_CAUSE went, and the cycles of the last access violations stayed. -/
structure Rung (s t : State) : Prop where
  owns : ∀ n i, (s.reg (R.IRQ_OWN_CAUSE n)).getLsbD i = true → (t.reg (R.IRQ_OWN_CAUSE n)).getLsbD i = true
  avCyc : t.irq.avCyc = s.irq.avCyc

theorem Rung.refl (s : State) : Rung s s := ⟨fun _ _ h => h, rfl⟩

theorem Rung.trans {s t u : State} (h : Rung s t) (k : Rung t u) : Rung s u :=
  ⟨fun n i hb => k.owns n i (h.owns n i hb), k.avCyc.trans h.avCyc⟩

theorem Rung.foldl {α : Type} {f : State → α → State} (l : List α) (hf : ∀ s x, Rung s (f s x)) (s : State) : Rung s (l.foldl f s) := by
  induction l generalizing s with
  | nil => exact Rung.refl s
  | cons x l ih => exact (hf s x).trans (ih _)

theorem Rung.ite {c : Prop} [Decidable c] {s t u : State} (ht : Rung s t) (hu : Rung s u) : Rung s (if c then t else u) := by
  split <;> assumption

/-- A register that is no IRQ_OWN_CAUSE is stored. -/
theorem Rung.setReg (s : State) {a : Nat} (v : Word) (h : ∀ n, R.IRQ_OWN_CAUSE n ≠ a) : Rung s (s.setReg a v) :=
  ⟨fun n i hb => by rw [State.reg_setReg_ne _ _ _ _ (h n)]; exact hb, rfl⟩

theorem putFld_one_bit {w : Word} {f : Fld} (hw : f.w = 1) (hlo : f.lo < 32) {i : Nat} (hb : w.getLsbD i = true) :
    (putFld w f 1).getLsbD i = true := by
  have hfit : f.lo + f.w ≤ 32 := by omega
  have hi : i < 32 := by
    by_contra hge
    rw [BitVec.getLsbD_of_ge _ _ (Nat.le_of_not_lt hge)] at hb
    exact Bool.false_ne_true hb
  have hbit : ∀ x : Word, x.getLsbD i = (fldOf x ⟨i, 1⟩).testBit 0 := fun x => by
    rw [fldOf_testBit]
    simp
  rw [hbit] at hb ⊢
  by_cases hne : i = f.lo
  · have hf : f = ⟨i, 1⟩ := by cases f; simp_all
    rw [← hf, fldOf_putFld _ _ _ hfit, hw]
    rfl
  · rwa [fldOf_putFld_ne _ _ _ _ hfit (by dsimp only; omega)]

/-- A one-bit field of a register sets. -/
theorem Rung.setBit (s : State) (a : Nat) {f : Fld} (hw : f.w = 1) (hlo : f.lo < 32) : Rung s (s.setBit a f true) := by
  refine ⟨fun n i hb => ?_, rfl⟩
  by_cases h : R.IRQ_OWN_CAUSE n = a
  · rw [h] at hb ⊢
    rw [State.setBit, State.reg_setFld]
    exact putFld_one_bit hw hlo hb
  · rwa [State.reg_setBit_ne _ _ _ _ _ h]

theorem irqOwn_ne_pend (n m : Nat) : R.IRQ_OWN_CAUSE n ≠ R.IRQ_PEND m := by unfold R.IRQ_OWN_CAUSE R.IRQ_PEND; omega
theorem irqOwn_ne_lost (n m : Nat) : R.IRQ_OWN_CAUSE n ≠ R.IRQ_HIST_LOST m := by unfold R.IRQ_OWN_CAUSE R.IRQ_HIST_LOST; omega
theorem irqOwn_ne_lastId (n m : Nat) : R.IRQ_OWN_CAUSE n ≠ R.IRQ_LAST_ID m := by unfold R.IRQ_OWN_CAUSE R.IRQ_LAST_ID; omega
theorem irqOwn_ne_lastS (n m : Nat) : R.IRQ_OWN_CAUSE n ≠ R.IRQ_LAST_S m := by unfold R.IRQ_OWN_CAUSE R.IRQ_LAST_S; omega
theorem irqOwn_ne_lastSF (n m : Nat) : R.IRQ_OWN_CAUSE n ≠ R.IRQ_LAST_SF m := by unfold R.IRQ_OWN_CAUSE R.IRQ_LAST_SF; omega
theorem irqOwn_ne_lastNS (n m : Nat) : R.IRQ_OWN_CAUSE n ≠ R.IRQ_LAST_NS m := by unfold R.IRQ_OWN_CAUSE R.IRQ_LAST_NS; omega

theorem State.sendMsi_rung (s : State) (n : Nat) : Rung s (s.sendMsi n) :=
  Rung.ite (Rung.refl s) (Rung.ite ⟨fun _ _ h => h, rfl⟩ ⟨fun _ _ h => h, rfl⟩)

theorem State.setPend_rung (s : State) (n b : Nat) : Rung s (s.setPend n b) :=
  have h := Rung.setReg s (a := R.IRQ_PEND n) _ fun m => irqOwn_ne_pend m n
  Rung.ite (h.trans (State.sendMsi_rung _ n)) h

theorem State.setLast_rung (s : State) (n : Nat) (e : HistEntry) : Rung s (s.setLast n e) :=
  have h : Rung s { s with irq := { s.irq with last := SMap.put (fun _ => none) s.irq.last n (some e) } } := ⟨fun _ _ h => h, rfl⟩
  (((h.trans (Rung.setReg _ _ fun m => irqOwn_ne_lastId m n)).trans (Rung.setReg _ _ fun m => irqOwn_ne_lastS m n)).trans
    (Rung.setReg _ _ fun m => irqOwn_ne_lastSF m n)).trans (Rung.setReg _ _ fun m => irqOwn_ne_lastNS m n)

theorem State.showLast_rung (s : State) (n : Nat) (e : HistEntry) : Rung s (s.showLast n e) :=
  Rung.ite (Rung.refl s) (State.setLast_rung s n e)

theorem State.countLost_rung (s : State) (n : Nat) : Rung s (s.addWrap32 (R.IRQ_HIST_LOST n) 1) :=
  Rung.setReg s _ fun m => irqOwn_ne_lost m n

theorem State.setHist_rung (s : State) (n : Nat) (q : List HistEntry) : Rung s (s.setHist n q) := ⟨fun _ _ h => h, rfl⟩

theorem State.pushHist_rung (s : State) (n : Nat) (e : HistEntry) : Rung s (s.pushHist n e) := by
  unfold State.pushHist
  extract_lets q s1 s2 src sv s3
  have h1 : Rung s s1 := ((State.setHist_rung s n _).trans (State.countLost_rung _ n)).trans (State.showLast_rung _ n e)
  have h2 : Rung s s2 := h1.trans (Rung.setBit s1 _ rfl (by decide))
  have h3 : Rung s s3 := Rung.ite (h2.trans (State.setPend_rung s2 n src)) h2
  exact Rung.ite ((State.setHist_rung s n q).trans (State.showLast_rung _ n e))
    (Rung.ite h1 (Rung.ite ((h3.trans (State.countLost_rung s3 n)).trans (State.setLast_rung _ n _)) h3))

theorem State.startIn_rung (s : State) (n src inst bit sev : Nat) : Rung s (s.startIn n src inst bit sev) := by
  unfold State.startIn
  extract_lets s1
  have h1 : Rung s s1 := Rung.ite (State.setPend_rung s n src) (Rung.refl s)
  exact Rung.ite (h1.trans (State.pushHist_rung s1 n _)) h1

theorem State.rises_rung (s before : State) : Rung s (s.rises before) := by
  unfold State.rises
  extract_lets devs dev s1
  have h1 : Rung s s1 := Rung.foldl devs (fun t n => State.startIn_rung t n 0 0 1 dev) s
  exact Rung.ite (h1.trans (State.startIn_rung s1 _ _ _ _ _)) h1

/-- The tree follows from the detail bit that a cause sets. -/
theorem State.arise_rung (s : State) (a bit : Nat) :
    Rung (s.setReg a (BitVec.ofNat 32 (setNBit (s.reg a).toNat bit))) (s.arise a bit) := by
  unfold State.arise
  split
  · refine (State.startIn_rung _ _ _ _ _ _).trans ((Rung.foldl _ (fun t l => ?_) _).trans (State.rises_rung _ s))
    exact Rung.ite (State.setPend_rung t _ _) (Rung.refl t)
  · exact Rung.refl _

theorem State.cause_avCyc (s : State) (a : Nat) (f : Fld) : (s.cause a f).irq.avCyc = s.irq.avCyc := by
  unfold State.cause State.causeBit
  split
  · rfl
  · exact (State.arise_rung s a f.lo).avCyc

theorem State.cause_ownCause (s : State) (n : Nat) {f : Fld} (hf : f.lo < 32) :
    ((s.cause (R.IRQ_OWN_CAUSE n) f).reg (R.IRQ_OWN_CAUSE n)).getLsbD f.lo = true := by
  unfold State.cause State.causeBit
  split
  · assumption
  · exact (State.arise_rung s _ f.lo).owns n f.lo (by rw [State.reg_setReg]; exact setNBit_get _ _ hf)

/-! ### Access violations (R56) -/

/-- The word that records an access violation at offset `a`. -/
def avWord (a : Nat) (write bad : Bool) : Word :=
  BitVec.ofNat 32 ((if write then 2 ^ 31 else 0) + (if bad then 2 ^ 30 else 0) + a % 2 ^ 29)

theorem avWord_toNat (a : Nat) (write bad : Bool) :
    (avWord a write bad).toNat = (if write then 2 ^ 31 else 0) + (if bad then 2 ^ 30 else 0) + a % 2 ^ 29 := by
  rw [avWord, BitVec.toNat_ofNat]
  split <;> split <;> omega

theorem avWord_offset (a : Nat) (write bad : Bool) : (avWord a write bad).toNat % 2 ^ 29 = a % 2 ^ 29 := by
  rw [avWord_toNat]
  split <;> split <;> omega

theorem avWord_write (a : Nat) (write bad : Bool) : (avWord a write bad).getLsbD 31 = write := by
  rw [BitVec.getLsbD, avWord_toNat, Nat.testBit_eq_decide_div_mod_eq, Bool.eq_iff_iff, decide_eq_true_iff]
  split <;> split <;> simp_all <;> omega

theorem avWord_bad (a : Nat) (write bad : Bool) : (avWord a write bad).getLsbD 30 = bad := by
  rw [BitVec.getLsbD, avWord_toNat, Nat.testBit_eq_decide_div_mod_eq, Bool.eq_iff_iff, decide_eq_true_iff]
  split <;> split <;> simp_all <;> omega

/-- The cycle of the last access violation of function `f` is the one that runs now. -/
def State.avCycle (s : State) (f : Nat) : State :=
  { s with irq := { s.irq with avCyc := SMap.put (fun _ => 0) s.irq.avCyc f (s.fabCycle + 1) } }

/-- An access violation of function `f` is counted, and its cycle is kept. -/
def State.avCounted (s : State) (f : Nat) : State := (s.addSat32 (R.PIT_AV_CNT f) 1).avCycle f

/-- The state in which the cause of an access violation starts: it is counted, and recorded unless it yields. -/
def State.avNoted (s : State) (f a : Nat) (write bad : Bool) : State :=
  if s.avYields f a then s.avCounted f else (s.avCounted f).setReg (R.PIT_AV_ADDR f) (avWord a write bad)

theorem State.accessViolation_eq (s : State) (f a : Nat) (write bad : Bool) :
    s.accessViolation f a write bad = (s.avNoted f a write bad).cause (R.IRQ_OWN_CAUSE f) F.IRQ_OWN_CAUSE.AV := rfl

theorem avCnt_ne_avAddr (f : Nat) : R.PIT_AV_CNT f ≠ R.PIT_AV_ADDR f := by unfold R.PIT_AV_CNT R.PIT_AV_ADDR; omega
theorem avCnt_not_irqBlock (f : Nat) : ¬ irqBlock (R.PIT_AV_CNT f) := by unfold irqBlock R.PIT_AV_CNT; omega
theorem avAddr_not_irqBlock (f : Nat) : ¬ irqBlock (R.PIT_AV_ADDR f) := by unfold irqBlock R.PIT_AV_ADDR; omega

theorem State.avCycle_reg (s : State) (f a : Nat) : (s.avCycle f).reg a = s.reg a := rfl

theorem State.avCycle_avCyc (s : State) (f : Nat) : SMap.get (fun _ => 0) (s.avCycle f).irq.avCyc f = s.fabCycle + 1 := by
  rw [State.avCycle, SMap.get_put_same]

theorem State.avCycle_alarms (as : List Nat) (s : State) (f : Nat) : Alarms as s (s.avCycle f) :=
  ⟨fun b _ _ => State.avCycle_reg s f b, rfl, [], by simp [State.avCycle], by simp⟩

theorem State.avCounted_reg (s : State) (f a : Nat) : (s.avCounted f).reg a = (s.addSat32 (R.PIT_AV_CNT f) 1).reg a :=
  State.avCycle_reg ..

theorem State.avNoted_cnt (s : State) (f a : Nat) (write bad : Bool) :
    (s.avNoted f a write bad).reg (R.PIT_AV_CNT f) = BitVec.ofNat 32 (min ((s.reg (R.PIT_AV_CNT f)).toNat + 1) (2 ^ 32 - 1)) := by
  have h : (s.avNoted f a write bad).reg (R.PIT_AV_CNT f) = (s.avCounted f).reg (R.PIT_AV_CNT f) := by
    unfold State.avNoted
    split
    · rfl
    · exact State.reg_setReg_ne _ _ _ _ (avCnt_ne_avAddr f)
  rw [h, State.avCounted_reg, State.addSat32, State.reg_setReg]

theorem State.avNoted_addr (s : State) (f a : Nat) (write bad : Bool) :
    (s.avNoted f a write bad).reg (R.PIT_AV_ADDR f) = if s.avYields f a then s.reg (R.PIT_AV_ADDR f) else avWord a write bad := by
  unfold State.avNoted
  split
  · rw [State.avCounted_reg, State.addSat32, State.reg_setReg_ne _ _ _ _ (avCnt_ne_avAddr f).symm]
  · exact State.reg_setReg ..

theorem State.avCounted_avCyc (s : State) (f : Nat) :
    SMap.get (fun _ => 0) (s.avCounted f).irq.avCyc f = s.fabCycle + 1 := by
  have h : (s.addSat32 (R.PIT_AV_CNT f) 1).fabCycle = s.fabCycle := by rw [State.fabCycle, State.addSat32, State.setReg_t16, State.fabCycle]
  rw [State.avCounted, State.avCycle_avCyc, h]

theorem State.avNoted_avCyc (s : State) (f a : Nat) (write bad : Bool) :
    SMap.get (fun _ => 0) (s.avNoted f a write bad).irq.avCyc f = s.fabCycle + 1 := by
  unfold State.avNoted
  split
  · exact State.avCounted_avCyc s f
  · rw [State.setReg_irq, State.avCounted_avCyc]

theorem State.avNoted_alarms (s : State) (f a : Nat) (write bad : Bool) :
    Alarms [R.PIT_AV_CNT f, R.PIT_AV_ADDR f] s (s.avNoted f a write bad) := by
  have h1 : Alarms [R.PIT_AV_CNT f, R.PIT_AV_ADDR f] s (s.addSat32 (R.PIT_AV_CNT f) 1) := Alarms.setReg _ s _ _ (.inl (by simp))
  have h2 := h1.trans (State.avCycle_alarms _ _ f)
  unfold State.avNoted
  split
  · exact h2
  · exact h2.trans (Alarms.setReg _ _ _ _ (.inl (by simp)))

theorem Alarms.t16 {as : List Nat} {s t : State} (h : Alarms as s t) : t.t16 = s.t16 := by
  rw [← h.rest]

theorem State.accessViolation_alarms (s : State) {f : Nat} (hf : f < 32) (a : Nat) (write bad : Bool) :
    Alarms [R.PIT_AV_CNT f, R.PIT_AV_ADDR f] s (s.accessViolation f a write bad) := by
  rw [State.accessViolation_eq]
  exact (State.avNoted_alarms s f a write bad).trans (State.cause_alarms _ _ _ (.inr (irqBlock_own hf)))

section
variable (s : State) {f : Nat} (a : Nat) (write bad : Bool)

/-- Beside the interrupt block, the cause of an access violation changes no register. -/
theorem State.accessViolation_reg {b : Nat} (hf : f < 32) (hb : ¬ irqBlock b) :
    (s.accessViolation f a write bad).reg b = (s.avNoted f a write bad).reg b := by
  rw [State.accessViolation_eq]
  exact (State.cause_alarms (as := []) _ _ _ (.inr (irqBlock_own hf))).regs b (by simp) hb

theorem State.accessViolation_cnt (hf : f < 32) :
    (s.accessViolation f a write bad).reg (R.PIT_AV_CNT f) = BitVec.ofNat 32 (min ((s.reg (R.PIT_AV_CNT f)).toNat + 1) (2 ^ 32 - 1)) := by
  rw [State.accessViolation_reg s a write bad hf (avCnt_not_irqBlock f), State.avNoted_cnt]

theorem State.accessViolation_addr (hf : f < 32) : (s.accessViolation f a write bad).reg (R.PIT_AV_ADDR f) =
    if s.avYields f a then s.reg (R.PIT_AV_ADDR f) else avWord a write bad := by
  rw [State.accessViolation_reg s a write bad hf (avAddr_not_irqBlock f), State.avNoted_addr]

theorem State.accessViolation_own :
    ((s.accessViolation f a write bad).reg (R.IRQ_OWN_CAUSE f)).getLsbD F.IRQ_OWN_CAUSE.AV.lo = true := by
  rw [State.accessViolation_eq]
  exact State.cause_ownCause _ f (by decide)

/-- After a violation that was recorded, one of the same cycle yields where it stands at a lower offset. -/
theorem State.accessViolation_yields (hf : f < 32) (hy : s.avYields f a = false) (b : Nat) :
    (s.accessViolation f a write bad).avYields f b = decide (b % 2 ^ 29 < a % 2 ^ 29) := by
  have hcyc : (s.accessViolation f a write bad).fabCycle = s.fabCycle := by
    rw [State.fabCycle, (State.accessViolation_alarms s hf a write bad).t16, State.fabCycle]
  have hav : SMap.get (fun _ => 0) (s.accessViolation f a write bad).irq.avCyc f = s.fabCycle + 1 := by
    rw [State.accessViolation_eq, State.cause_avCyc, State.avNoted_avCyc]
  rw [State.avYields, hav, hcyc, State.accessViolation_addr s a write bad hf, hy, if_neg Bool.false_ne_true, avWord_offset,
    decide_eq_true rfl, Bool.true_and]

end

/-! ### Where a write goes (R13, R14, R53, R55) -/

theorem State.hostWrite_of_odd {s : State} {fn a size : Nat} {v : BitVec 64} (h4 : size ≠ 4 ∨ a % 4 ≠ 0) (h8 : size ≠ 8 ∨ a % 8 ≠ 0) :
    s.hostWrite fn a size v = s.accessViolation fn a true true := by
  simp only [State.hostWrite]
  rw [if_neg (by omega), if_neg (by omega)]

theorem State.hostWrite_four {s : State} {fn a : Nat} {v : BitVec 64} (h : a % 4 = 0) :
    s.hostWrite fn a 4 v = s.regWrite (host fn) a (v.truncate 32) := by
  simp only [State.hostWrite, h, and_self, if_true]
  rfl

theorem State.hostWrite_eight {s : State} {fn a : Nat} {v : BitVec 64} (h : a % 8 = 0) :
    s.hostWrite fn a 8 v = (s.regWrite (host fn) a (v.truncate 32)).regWrite (host fn) (a + 4) ((v >>> 32).truncate 32) := by
  simp only [State.hostWrite]
  rw [if_neg (by omega), if_pos ⟨trivial, h⟩]
  rfl

theorem State.regWrite_gap {s : State} {fn a : Nat} {v : Word} (h : s.place fn fn a = .gap) :
    s.regWrite (host fn) a v = s.accessViolation fn a true false := by
  simp only [State.regWrite, State.regWriteX, host, h]

theorem State.regWrite_reg {s : State} {fn a pa : Nat} {g : Region} {r : Row} {ix : List Nat} {v : Word}
    (h : s.place fn fn a = .reg pa g r ix) :
    s.regWrite (host fn) a v = if s.viewWrite fn g (some r.id) ix
      then (s.regAct ⟨host fn, a, pa, g, r, ix, v &&& r.mask fun _ => true, none, none⟩).settle s
      else s.accessViolation fn a true false := by
  simp only [State.regWrite, State.regWriteX, host, h]
  rfl

theorem State.viewWrite_of_writable {s : State} {fn a pa : Nat} {g : Region} {r : Row} {ix : List Nat} (hw : s.writable fn a = true)
    (h : s.place fn fn a = .reg pa g r ix) : s.viewWrite fn g (some r.id) ix = true := by
  simp only [State.writable, h, Bool.and_eq_true] at hw
  exact hw.2

theorem exec_registerWrite_unreached {s : State} {fn : FnNo} {addr : Addr} {size : Nat} {v : BitVec 64} (h : s.reach = false) :
    exec (.registerWrite fn addr size v) s = .next s := by
  change Host.Outcome.next (s.hostStore fn addr.toNat size v) = _
  simp [State.hostStore, h]

theorem exec_registerWrite_reached {s : State} {fn : FnNo} {addr : Addr} {size : Nat} {v : BitVec 64} (h : s.reach = true) :
    exec (.registerWrite fn addr size v) s = .next (s.hostWrite fn addr.toNat size v) := by
  change Host.Outcome.next (s.hostStore fn addr.toNat size v) = _
  simp [State.hostStore, h]

/-- Settles O7: a write is judged by its size, then by the place of its address, then by the view; a violation's count, its record and
its cause lie apart. -/
theorem registerWriteRoutes : Obligations.RegisterWriteRoutes := by
  intro fn addr v s
  have hf : fn.val < 32 := by omega
  refine ⟨fun h size => exec_registerWrite_unreached h, fun hreach => ⟨fun size h4 h8 => ?_, fun h4 => ⟨fun hw pa g r ix hp => ?_,
    fun hp => ?_, fun pa g r ix hp hv => ?_⟩, fun h8 => ?_⟩, fun write bad a => ⟨_, rfl, ?_⟩⟩
  · rw [exec_registerWrite_reached hreach, State.hostWrite_of_odd h4 h8]
  · rw [exec_registerWrite_reached hreach, State.hostWrite_four h4, State.regWrite_reg hp, State.viewWrite_of_writable hw hp, if_pos rfl]
  · rw [exec_registerWrite_reached hreach, State.hostWrite_four h4, State.regWrite_gap hp]
  · rw [exec_registerWrite_reached hreach, State.hostWrite_four h4, State.regWrite_reg hp, hv, if_neg Bool.false_ne_true]
  · rw [exec_registerWrite_reached hreach, State.hostWrite_eight h8]
  · have haddr := State.accessViolation_addr s a write bad hf
    refine ⟨State.accessViolation_cnt s a write bad hf, fun hy => ?_, fun hy => ?_, State.accessViolation_own s a write bad,
      State.accessViolation_alarms s hf a write bad⟩
    · rw [hy, if_neg Bool.false_ne_true] at haddr
      rw [haddr]
      exact ⟨avWord_offset a write bad, avWord_write a write bad, avWord_bad a write bad, State.accessViolation_yields s a write bad hf hy⟩
    · rw [haddr, hy, if_pos rfl]

end Sys2Proof.Machine
end

section
/-! SUPPORT. Reads (R11, R13, R14, R335, R528): where a read goes, what each kind of register answers, and what the read leaves. -/

namespace Sys2Proof.Machine

/-! ### Where a read goes -/

theorem exec_rcRead (fn : FnNo) (addr : Addr) (size : Nat) (s : State) :
    exec (.rcRead fn addr size) s = .next (s.hostLoad fn addr.toNat size) := rfl

theorem exec_counterPairRead (rq : Fin 21) (own : FnNo) (addr : Addr) (size : Nat) (s : State) :
    exec (.counterPairRead rq own addr size) s = .next (s.reqLoad rq own addr.toNat size) := rfl

theorem exec_timeNsRead (rq : Fin 21) (own : FnNo) (size : Nat) (s : State) :
    exec (.timeNsRead rq own size) s = .next (s.reqLoad rq own R.TIME_NS size) := rfl

theorem State.hostLoad_of_reach {s : State} (h : s.reach = true) (fn a size : Nat) : s.hostLoad fn a size = s.readOut fn fn a size := by
  simp only [State.hostLoad, h, if_true]

theorem State.hostLoad_unreached {s : State} (h : s.reach = false) (fn a size : Nat) : s.hostLoad fn a size = s := by
  simp only [State.hostLoad, h, Bool.false_eq_true, if_false]

/-- A requester reads in the view of its function, an Ostler cluster in that of its owner. -/
theorem State.reqLoad_four {s : State} {rq own fn a : Nat} (hfn : fn = if rq < 17 then rq else own) (hr : rq < 17 → s.reach = true)
    (hf : s.pw.fabricLost = false) (ha : a % 4 = 0) : s.reqLoad rq own a 4 = s.readOut fn rq a 4 := by
  subst hfn
  unfold State.reqLoad
  split
  · exact State.hostLoad_of_reach (hr ‹_›) rq a 4
  · rw [if_neg (by simp [hf, ha])]

theorem State.reqLoad_lost {s : State} {rq own a size : Nat} (hrq : 17 ≤ rq) (h : s.pw.fabricLost = true ∨ a % 4 ≠ 0) :
    s.reqLoad rq own a size = s := by
  rw [State.reqLoad, if_neg (by omega), if_pos (by simpa using h)]

theorem State.fabric_of_reach {s : State} (h : s.reach = true) : s.pw.fabricLost = false := by
  simp only [State.reach, Bool.and_eq_true, Bool.not_eq_true'] at h
  exact h.2

theorem State.readOut_four {s t : State} {fn rq a : Nat} {v : Word} (ha : a % 4 = 0) (h : s.regRead fn rq a = (v, t)) :
    s.readOut fn rq a 4 = t.emit (.readData rq a (v.zeroExtend 64)) := by
  simp only [State.readOut, State.sizedRead, ha, and_self, if_true, h]

theorem State.readOut_eight {s t u : State} {fn rq a : Nat} {lo hi : Word} (ha : a % 8 = 0) (hlo : s.regRead fn rq a = (lo, t))
    (hhi : t.regRead fn rq (a + 4) = (hi, u)) : s.readOut fn rq a 8 = u.emit (.readData rq a (hi ++ lo)) := by
  have h4 : ¬ ((8 : Nat) = 4 ∧ a % 4 = 0) := by omega
  simp only [State.readOut, State.sizedRead, h4, ha, and_self, if_true, if_false, hlo, hhi]

theorem State.readOut_odd {s : State} {fn rq a size : Nat} (h4 : size ≠ 4 ∨ a % 4 ≠ 0) (h8 : size ≠ 8 ∨ a % 8 ≠ 0) :
    s.readOut fn rq a size = (s.accessViolation fn a false true).emit (.readData rq a 0) := by
  have h4 : ¬ (size = 4 ∧ a % 4 = 0) := by omega
  have h8 : ¬ (size = 8 ∧ a % 8 = 0) := by omega
  simp only [State.readOut, State.sizedRead, h4, h8, if_false]

theorem State.regRead_gap {s : State} {fn rq a : Nat} (h : s.place fn rq a = .gap) :
    s.regRead fn rq a = (0, s.accessViolation fn a false false) := by
  simp only [State.regRead, h]

theorem State.regRead_reg {s : State} {fn rq a pa : Nat} {g : Region} {r : Row} {ix : List Nat} (h : s.place fn rq a = .reg pa g r ix)
    (hv : s.viewRead fn g (some r.id) ix = true) : s.regRead fn rq a = s.readReg fn rq a pa g r ix := by
  simp only [State.regRead, h, hv, if_true]

theorem State.regRead_cntLow {s : State} {fn rq a c : Nat} (h : s.place fn rq a = .cnt c false)
    (hv : s.viewRead fn (regionOf a) none [] = true) :
    s.regRead fn rq a = (cntWord (s.cntRead c) false, s.pairLoad rq a (cntWord (s.cntRead c) true)) := by
  simp only [State.regRead, h, hv, if_true, Bool.false_eq_true, if_false]

theorem State.regRead_cntHigh {s : State} {fn rq a c : Nat} (h : s.place fn rq a = .cnt c true)
    (hv : s.viewRead fn (regionOf a) none [] = true) : s.regRead fn rq a = s.pairTake rq a (cntWord (s.cntRead c) true) := by
  simp only [State.regRead, h, hv, if_true]

/-- Function 0 decodes every register. -/
theorem State.viewRead_zero (s : State) (g : Region) (id : Option RegId) (ix : List Nat) : s.viewRead 0 g id ix = true := rfl

theorem findReg_region {a : Nat} {g : Region} {r : Row} {ix : List Nat} (h : findReg a = some (g, r, ix)) : regionOf a = g := by
  simp only [findReg, Option.map_eq_some_iff] at h
  obtain ⟨_, -, heq⟩ := h
  exact (Prod.mk.inj heq).1

theorem findReg_mem {a : Nat} {g : Region} {r : Row} {ix : List Nat} (h : findReg a = some (g, r, ix)) : r ∈ rowsOf g := by
  simp only [findReg, Option.map_eq_some_iff] at h
  obtain ⟨⟨r', ix'⟩, hrow, heq⟩ := h
  simp only [Prod.mk.injEq] at heq
  obtain ⟨rfl, rfl, -⟩ := heq
  exact findRow_mem hrow

theorem State.place_reg {s : State} {fn rq a pa : Nat} {g : Region} {r : Row} {ix : List Nat} (hr : findReg a = some (g, r, ix))
    (hf : (pipeOfRegion g).any s.pipeFused = false) (hp : s.physAddr rq a = some pa) : s.place fn rq a = .reg pa g r ix := by
  simp only [State.place, findReg_region hr, hf, hp, hr, Bool.false_eq_true, if_false]

theorem State.findReg_of_place {s : State} {fn rq a pa : Nat} {g : Region} {r : Row} {ix : List Nat}
    (h : s.place fn rq a = .reg pa g r ix) : findReg a = some (g, r, ix) := by
  unfold State.place at h
  split at h
  · cases h
  · split at h
    · cases h
    · split at h
      · simp only [Place.reg.injEq] at h
        obtain ⟨-, rfl, rfl, rfl⟩ := h
        assumption
      · split at h
        · cases h
        · split at h <;> cases h

/-! ### RC registers (R11) -/

/-- Reading a register of this name does no more than answer its word and clear its RC fields. -/
def ReadsPlain (id : RegId) : Prop :=
  id ≠ .TIME_NS ∧ id ≠ .SB_GPIO_IN ∧ id ≠ .OST_PS_DATA ∧ pairHigh id = false ∧ pairLow id = false ∧
    id ≠ .LG_LN_PRBS_ERR_LO ∧ id ≠ .LG_LN_PRBS_ERR_HI

/-- Each register of the maps that has an RC field reads so. -/
theorem rowsOf_rc (g : Region) : ∀ r ∈ rowsOf g, (∃ f ∈ r.fields, f.2 = .rc) → ReadsPlain r.id := by
  unfold ReadsPlain
  cases g <;> simp only [rowsOf] <;> decide

theorem State.readReg_rc {s : State} {fn rq a pa : Nat} {g : Region} {r : Row} {ix : List Nat} (hp : ReadsPlain r.id)
    (hrc : ∃ f ∈ r.fields, f.2 = .rc) : s.readReg fn rq a pa g r ix = (s.showReg fn rq pa g r ix, s.clearRc pa r) := by
  obtain ⟨hns, hgpio, hps, hhigh, hlow, hlo, hhi⟩ := hp
  have hfresh : s.readFresh g r = s := by
    unfold State.readFresh
    split
    · simp [hlo, hhi]
    · rfl
  have hany : (r.fields.any fun f => f.2 = .rc) = true := by simpa using hrc
  simp only [State.readReg, hfresh, hns, hgpio, hps, hhigh, hlow, hany, if_true, if_false, Bool.false_eq_true]

theorem State.clearRc_single {s : State} {a : Nat} {r : Row} {f : Fld} (h : r.fields = [(f, .rc)]) : s.clearRc a r = s.setFld a f 0 := by
  simp only [State.clearRc, h, List.foldl_cons, List.foldl_nil, if_true, State.setFld]

theorem State.showReg_single {s : State} {fn rq pa : Nat} {g : Region} {r : Row} {ix : List Nat} {f : Fld} (h : r.fields = [(f, .rc)])
    (hw : s.waitingReg pa = none) : s.showReg fn rq pa g r ix = s.liveReg fn rq pa g r.id ix := by
  simp [State.showReg, h, hw]

/-- A read of a register whose one field is RC answers its word and clears it. -/
theorem State.readOut_rc {s : State} {fn rq a pa : Nat} {g : Region} {r : Row} {ix : List Nat} {f : Fld} (ha : a % 4 = 0)
    (hp : s.place fn rq a = .reg pa g r ix) (hv : s.viewRead fn g (some r.id) ix = true) (hf : r.fields = [(f, .rc)]) :
    s.readOut fn rq a 4 = (s.setFld pa f 0).emit (.readData rq a ((s.showReg fn rq pa g r ix).zeroExtend 64)) := by
  have hrc : ∃ f ∈ r.fields, f.2 = .rc := ⟨(f, .rc), by simp [hf], rfl⟩
  have hplain := rowsOf_rc g r (findReg_mem (State.findReg_of_place hp)) hrc
  refine State.readOut_four ha ?_
  rw [State.regRead_reg hp hv, State.readReg_rc hplain hrc, State.clearRc_single hf]

/-- What such a read leaves: the field is 0, no other register changed, and the completion is the last output. -/
theorem State.setFld_zero_emit {s : State} {pa : Nat} {f : Fld} (hfit : f.lo + f.w ≤ 32) (e : Emit) :
    ((s.setFld pa f 0).emit e).fld pa f = 0 ∧ (∀ b, b ≠ pa → ((s.setFld pa f 0).emit e).reg b = s.reg b) ∧
      ((s.setFld pa f 0).emit e).outbox = s.outbox ++ [e] := by
  refine ⟨?_, fun b hb => State.reg_setFld_ne s pa b f 0 hb, rfl⟩
  exact (State.fld_setFld s pa f 0 hfit).trans (Nat.zero_mod _)

/-- The register at `a` has the one RC field `f`, is held at its own address in a pipeline that is there, and shows what it holds. -/
structure State.RcAt (s : State) (a : Nat) (f : Fld) (g : Region) (r : Row) (ix : List Nat) : Prop where
  aligned : a % 4 = 0
  found : findReg a = some (g, r, ix)
  fields : r.fields = [(f, .rc)]
  held : s.physAddr 0 a = some a
  there : (pipeOfRegion g).any s.pipeFused = false
  shown : s.liveReg 0 0 a g r.id ix = s.reg a

theorem State.rcAt_PIT_MIR_DROP (s : State) : ∃ g r ix, s.RcAt R.PIT_MIR_DROP F.PIT_MIR_DROP.COUNT g r ix :=
  ⟨.pitG, _, _, by decide, rfl, rfl, State.physAddr_self (g := .pitG) (by decide) (by decide), rfl, rfl⟩

theorem State.rcAt_PIT_AV_CNT (s : State) {n : Nat} (hn : n < 17) :
    ∃ g r ix, s.RcAt (R.PIT_AV_CNT n) F.PIT_AV_CNT.COUNT g r ix := by
  have ha : R.PIT_AV_CNT n = 0x40000 + (0x300 + n * 0x10) := by unfold R.PIT_AV_CNT; omega
  have hg : regionOf (R.PIT_AV_CNT n) = .pitG := ha ▸ region_pitG _ (by omega)
  have hrow : ∀ i : Fin 17, findRow rows_pitG (0x300 + i.val * 0x10) =
      some ((⟨.PIT_AV_CNT, 0x300, [(17, 0x10)], 0x0, [(F.PIT_AV_CNT.COUNT, .rc)], false⟩ : Row), [i.val]) := by decide
  exact ⟨.pitG, _, _, by omega, findReg_at _ hg (by rw [ha]; exact Nat.add_sub_cancel_left ..) (hrow ⟨n, hn⟩), rfl,
    State.physAddr_self hg (by dsimp only; omega), rfl, rfl⟩

theorem State.rcAt_PIT_XDROP (s : State) {n : Nat} (h1 : 1 ≤ n) (hn : n < 17) :
    ∃ g r ix, s.RcAt (R.PIT_XDROP n) F.PIT_XDROP.COUNT g r ix := by
  have hg : regionOf (R.PIT_XDROP n) = .pitPage n := region_pitPage n 0x8 hn (by omega) h1
  have ha : R.PIT_XDROP n = 0x40000 + n * 0x1000 + 0x8 := rfl
  exact ⟨.pitPage n, _, _, by omega, findReg_at 0x8 hg (by rw [ha]; exact Nat.add_sub_cancel_left ..) rfl, rfl,
    State.physAddr_self hg (by dsimp only; omega), rfl, rfl⟩

theorem State.rcAt_PORT_TT_LATE_MAX (s : State) {n : Nat} (hn : n < 1024) (hf : s.pipeFused (n / 64) = false) :
    ∃ g r ix, s.RcAt (R.PORT_TT_LATE_MAX n) F.PORT_TT_LATE_MAX.LATENESS g r ix := by
  have hg : regionOf (R.PORT_TT_LATE_MAX n) = .port n := region_port n 0xB8 hn (by omega)
  have ha : R.PORT_TT_LATE_MAX n = 0x200000 + n * 0x400 + 0xB8 := rfl
  exact ⟨.port n, _, _, by omega, findReg_at 0xB8 hg (by rw [ha]; exact Nat.add_sub_cancel_left ..) rfl, rfl,
    State.physAddr_self hg (by dsimp only; omega), hf, rfl⟩

theorem State.rcAt_CNT_MON_MAX (s : State) {n i : Nat} (hn : n < 17) (hi : i < 32) :
    ∃ g r ix, s.RcAt (R.CNT_MON_MAX n i) F.CNT_MON_MAX.VALUE g r ix := by
  have ha : R.CNT_MON_MAX n i = 0xC00000 + n * 0x10000 + (0x108 + i * 0x40) := by unfold R.CNT_MON_MAX; omega
  have hg : regionOf (R.CNT_MON_MAX n i) = .cnt n := ha ▸ region_cnt n _ hn (by omega)
  have hrow : ∀ i : Fin 32, findRow rows_cnt (0x108 + i.val * 0x40) =
      some ((⟨.CNT_MON_MAX, 0x108, [(32, 0x40)], 0x0, [(F.CNT_MON_MAX.VALUE, .rc)], false⟩ : Row), [i.val]) := by decide
  exact ⟨.cnt n, _, _, by omega, findReg_at _ hg (by rw [ha]; exact Nat.add_sub_cancel_left ..) (hrow ⟨i, hi⟩), rfl,
    State.physAddr_self hg (by dsimp only; omega), rfl, rfl⟩

theorem State.fits_of_place {s : State} {fn rq a pa : Nat} {g : Region} {r : Row} {ix : List Nat} {f : Fld × FTy}
    (hp : s.place fn rq a = .reg pa g r ix) (hf : f ∈ r.fields) : f.1.lo + f.1.w ≤ 32 :=
  ((findReg_laid (State.findReg_of_place hp)).2 f hf).2

/-- A function's read of a register whose one field is RC, which its view holds. -/
theorem exec_rcRead_rc {s : State} {fn : FnNo} {addr : Addr} {pa : Nat} {g : Region} {r : Row} {ix : List Nat} {f : Fld}
    (hreach : s.reach = true) (ha : addr.toNat % 4 = 0) (hp : s.place fn fn addr.toNat = .reg pa g r ix)
    (hv : s.viewRead fn g (some r.id) ix = true) (hf : r.fields = [(f, .rc)]) :
    ∃ t, exec (.rcRead fn addr 4) s = .next t ∧ t.fld pa f = 0 ∧ (∀ a, a ≠ pa → t.reg a = s.reg a) ∧
      t.outbox = s.outbox ++ [.readData fn addr.toNat ((s.showReg fn fn pa g r ix).zeroExtend 64)] := by
  have hfit : f.lo + f.w ≤ 32 := State.fits_of_place (f := (f, .rc)) hp (by simp [hf])
  refine ⟨_, ?_, State.setFld_zero_emit hfit _⟩
  rw [exec_rcRead, State.hostLoad_of_reach hreach, State.readOut_rc ha hp hv hf]

theorem exec_rcRead_rcAt {s : State} {addr : Addr} {g : Region} {r : Row} {ix : List Nat} {f : Fld} (h : s.RcAt addr.toNat f g r ix)
    (hreach : s.reach = true) (hw : s.waitingReg addr.toNat = none) :
    ∃ t, exec (.rcRead 0 addr 4) s = .next t ∧ t.fld addr.toNat f = 0 ∧ (∀ a, a ≠ addr.toNat → t.reg a = s.reg a) ∧
      t.outbox = s.outbox ++ [.readData 0 addr.toNat ((s.reg addr.toNat).zeroExtend 64)] := by
  have hread := exec_rcRead_rc (fn := 0) hreach h.aligned (State.place_reg h.found h.there h.held) (s.viewRead_zero _ _ _) h.fields
  rwa [show s.showReg (0 : FnNo) (0 : FnNo) addr.toNat g r ix = s.reg addr.toNat from
    (State.showReg_single h.fields hw).trans h.shown] at hread

/-! ### Counters and their pairs (R528) -/

theorem State.hold_setHold (s : State) (rq : Nat) (g : Region) (h : Hold) : (s.setHold rq g h).hold rq g = h := SMap.get_put_same ..

theorem State.hold_emit (s : State) (e : Emit) (rq : Nat) (g : Region) : (s.emit e).hold rq g = s.hold rq g := rfl

theorem State.hold_congr {s t : State} (h : s.holds = t.holds) (rq : Nat) (g : Region) : s.hold rq g = t.hold rq g := by
  rw [State.hold, h, State.hold]

theorem State.pairTake_of_tag {s : State} {rq a : Nat} {hi : Word} {w : Word} (h : s.hold rq (regionOf a) = ⟨some (a - 4), w⟩) :
    s.pairTake rq a hi = (w, s.setHold rq (regionOf a) {}) := by
  simp only [State.pairTake, h, if_true]

/-- A read of a counter's low word leaves the counters and the registers, and holds the high word. -/
theorem State.reqLoad_cntLow {s : State} {rq own fn a c : Nat} (hfn : fn = if rq < 17 then rq else own) (hr : rq < 17 → s.reach = true)
    (hf : s.pw.fabricLost = false) (ha : a % 4 = 0) (hp : s.place fn rq a = .cnt c false)
    (hv : s.viewRead fn (regionOf a) none [] = true) :
    s.reqLoad rq own a 4 = (s.setHold rq (regionOf a) ⟨some a, cntWord (s.cntRead c) true⟩).emit
      (.readData rq a ((cntWord (s.cntRead c) false).zeroExtend 64)) := by
  rw [State.reqLoad_four hfn hr hf ha, State.readOut_four ha (State.regRead_cntLow hp hv)]
  rfl

/-- A read of the high word whose low word was read before answers the word held. -/
theorem State.reqLoad_cntHigh {s : State} {rq own fn a c : Nat} {w : Word} (hfn : fn = if rq < 17 then rq else own)
    (hr : rq < 17 → s.reach = true) (hf : s.pw.fabricLost = false) (ha : a % 4 = 0) (hp : s.place fn rq a = .cnt c true)
    (hv : s.viewRead fn (regionOf a) none [] = true) (hh : s.hold rq (regionOf a) = ⟨some (a - 4), w⟩) :
    s.reqLoad rq own a 4 = (s.setHold rq (regionOf a) {}).emit (.readData rq a (w.zeroExtend 64)) := by
  rw [State.reqLoad_four hfn hr hf ha]
  exact State.readOut_four ha ((State.regRead_cntHigh hp hv).trans (State.pairTake_of_tag hh))

theorem State.place_RX_FRAMES {s : State} {n : Nat} (fn rq : Nat) (hn : n < 1024) (hf : s.pipeFused (n / 64) = false) :
    s.place fn rq (C.RX_FRAMES n) = .cnt (C.RX_FRAMES n) false ∧ regionOf (C.RX_FRAMES n) = .port n := by
  have hg : regionOf (C.RX_FRAMES n) = .port n := region_port n 0x100 hn (by omega)
  have ha : C.RX_FRAMES n = 0x200000 + n * 0x400 + 0x100 := rfl
  have ho : C.RX_FRAMES n - baseOf (.port n) = 0x100 := by rw [ha]; exact Nat.add_sub_cancel_left ..
  have hreg : findReg (C.RX_FRAMES n) = none := by
    simp only [findReg, hg, ho]
    rfl
  have hcnt : findCnt (C.RX_FRAMES n) = some (C.RX_FRAMES n, false) := by
    simp only [findCnt, hg, ho]
    rfl
  have hfuse : (pipeOfRegion (regionOf (C.RX_FRAMES n))).any s.pipeFused = false := by rw [hg]; exact hf
  have hphys : s.physAddr rq (C.RX_FRAMES n) = some (C.RX_FRAMES n) := State.physAddr_self hg (by dsimp only; omega)
  refine ⟨?_, hg⟩
  simp only [State.place, hfuse, hphys, hreg, hcnt, Bool.false_eq_true, if_false]

/-! ### TIME_NS and its shadows (R335) -/

/-- The word that a read of TIME_NS answers. -/
def State.nsWord (s : State) : Word := BitVec.ofNat 32 ((s.reg R.TIME_STATUS).toNat / 2 ^ 30 * 2 ^ 30 + s.time.n)

/-- The state once requester `rq` has taken S and F into its shadows. -/
def State.shadowed (s : State) (rq : Nat) : State :=
  s.setTime { s.time with shadow := SMap.put (fun _ => (0, 0)) s.time.shadow rq (s.time.s, s.time.fr / 2 ^ 28) }

theorem State.shadowed_shadow (s : State) (rq : Nat) :
    SMap.get (fun _ => (0, 0)) (s.shadowed rq).time.shadow rq = (s.time.s, s.time.fr / 2 ^ 28) := SMap.get_put_same ..

theorem State.regRead_timeNs {s : State} {fn rq : Nat} (hv : s.viewRead fn .time (some .TIME_NS) [] = true) :
    s.regRead fn rq R.TIME_NS = (s.nsWord, s.shadowed rq) := by
  have hreg : ∃ r, findReg R.TIME_NS = some (.time, r, []) ∧ r.id = .TIME_NS := ⟨_, rfl, rfl⟩
  obtain ⟨r, hr, hid⟩ := hreg
  have hp : s.place fn rq R.TIME_NS = .reg R.TIME_NS .time r [] :=
    State.place_reg hr rfl (State.physAddr_self (g := .time) (by decide) (by decide))
  rw [State.regRead_reg hp (hid ▸ hv)]
  simp only [State.readReg, hid, if_true]
  rfl

/-- The shadow of S reads what TIME_NS left in it. -/
theorem State.regRead_shadow {s : State} {rq : Nat} (hw : s.waitingReg (R.TIME_SHD_S rq) = none) :
    s.regRead 0 rq (R.TIME_NS + 4) = (BitVec.ofNat 32 (SMap.get (fun _ => (0, 0)) s.time.shadow rq).1, s) := by
  have hreg : ∃ r f, findReg (R.TIME_NS + 4) = some (.time, r, []) ∧ r.id = .TIME_SHD_S ∧ r.fields = [(f, .ro)] := ⟨_, _, rfl, rfl, rfl⟩
  obtain ⟨r, f, hr, hid, hf⟩ := hreg
  have hphys : s.physAddr rq (R.TIME_NS + 4) = some (R.TIME_SHD_S rq) := rfl
  rw [State.regRead_reg (State.place_reg hr rfl hphys) rfl]
  simp [State.readReg, State.readFresh, State.showReg, State.liveReg, State.liveTime, hid, hf, hw, pairHigh, pairLow]

/-- A read of TIME_NS by any requester whose view holds it. -/
theorem exec_timeNsRead_four {s : State} {rq : Fin 21} {own : FnNo} {fn : Nat} (hfn : fn = if rq.val < 17 then rq.val else own.val)
    (hr : rq.val < 17 → s.reach = true) (hf : s.pw.fabricLost = false) (hv : s.viewRead fn .time (some .TIME_NS) [] = true) :
    ∃ t, exec (.timeNsRead rq own 4) s = .next t ∧ t.regs = s.regs ∧
      SMap.get (fun _ => (0, 0)) t.time.shadow rq = (s.time.s, s.time.fr / 2 ^ 28) ∧
      t.outbox = s.outbox ++ [.readData rq R.TIME_NS (s.nsWord.zeroExtend 64)] := by
  refine ⟨(s.shadowed rq).emit (.readData rq R.TIME_NS (s.nsWord.zeroExtend 64)), ?_, rfl, State.shadowed_shadow s rq, rfl⟩
  rw [exec_timeNsRead, State.reqLoad_four hfn hr hf (by decide), State.readOut_four (by decide) (State.regRead_timeNs hv)]

/-- Eight bytes at TIME_NS are N and then, from the shadow, S. -/
theorem exec_timeNsRead_eight {s : State} (hreach : s.reach = true) (hw : s.waitingReg (R.TIME_SHD_S 0) = none) :
    exec (.timeNsRead 0 0 8) s =
      .next ((s.shadowed 0).emit (.readData 0 R.TIME_NS (BitVec.ofNat 32 s.time.s ++ s.nsWord))) := by
  have hlo : s.regRead 0 0 R.TIME_NS = (s.nsWord, s.shadowed 0) := State.regRead_timeNs rfl
  have hhi : (s.shadowed 0).regRead 0 0 (R.TIME_NS + 4) = (BitVec.ofNat 32 s.time.s, s.shadowed 0) := by
    rw [State.regRead_shadow (s := s.shadowed 0) (rq := 0) hw, State.shadowed_shadow]
  have hload : s.reqLoad 0 0 R.TIME_NS 8 = s.readOut 0 0 R.TIME_NS 8 := State.hostLoad_of_reach hreach 0 _ 8
  rw [exec_timeNsRead]
  exact congrArg Host.Outcome.next (hload.trans (State.readOut_eight (by decide) hlo hhi))

/-- Settles O11: each read goes to its place, and each place has its own answer. -/
theorem reads : Obligations.Reads := by
  intro s
  refine ⟨fun addr f hreach hw hrc => ?_, fun fn addr pa g r ix f hreach ha hp hv hf => exec_rcRead_rc hreach ha hp hv hf,
    fun fn addr hreach => ⟨fun ha hp => ?_, fun size h4 h8 => ?_, fun ha lo hi s1 s2 hlo hhi => ?_⟩,
    fun fn addr size hreach => ?_, fun n addr hreach hf ha => ?_, fun rq own addr c fn hfn hr hf ha hp hv => ?_,
    fun rq own addr size hrq h => ?_, fun hreach => ?_, fun hreach hw => ?_, fun rq own fn hfn hr hf hv => ?_⟩
  · have hat : ∃ g r ix, s.RcAt addr.toNat f g r ix := by
      rcases hrc with ⟨ha, rfl⟩ | ⟨n, hn, ha, rfl⟩ | ⟨n, h1, hn, ha, rfl⟩ | ⟨n, hn, hf, ha, rfl⟩ | ⟨n, i, hn, hi, ha, rfl⟩
      · exact ha ▸ s.rcAt_PIT_MIR_DROP
      · exact ha ▸ s.rcAt_PIT_AV_CNT hn
      · exact ha ▸ s.rcAt_PIT_XDROP h1 hn
      · exact ha ▸ s.rcAt_PORT_TT_LATE_MAX hn hf
      · exact ha ▸ s.rcAt_CNT_MON_MAX hn hi
    obtain ⟨g, r, ix, hat⟩ := hat
    exact exec_rcRead_rcAt hat hreach hw
  · rw [exec_rcRead, State.hostLoad_of_reach hreach, State.readOut_four ha (State.regRead_gap hp)]
    rfl
  · rw [exec_rcRead, State.hostLoad_of_reach hreach, State.readOut_odd h4 h8]
  · rw [exec_rcRead, State.hostLoad_of_reach hreach, State.readOut_eight ha hlo hhi]
  · rw [exec_rcRead, State.hostLoad_unreached hreach]
  · obtain ⟨hp, hg⟩ := State.place_RX_FRAMES (s := s) 0 0 n.isLt hf
    rw [exec_counterPairRead, ha]
    have hload := State.reqLoad_cntLow (rq := 0) (own := 0) (fn := 0) rfl (fun _ => hreach) (State.fabric_of_reach hreach)
      (by unfold C.RX_FRAMES; omega) hp rfl
    rw [hg] at hload
    exact ⟨_, congrArg _ hload, rfl, rfl, (State.hold_emit ..).trans (State.hold_setHold ..), rfl⟩
  · refine ⟨_, (exec_counterPairRead ..).trans (congrArg _ (State.reqLoad_cntLow hfn hr hf ha hp hv)), rfl, rfl, rfl,
      fun u hi hhi hreg hholds hru hfu hpu hvu => ?_⟩
    refine ⟨_, (exec_counterPairRead ..).trans (congrArg _ (State.reqLoad_cntHigh hfn hru hfu (by omega) hpu hvu ?_)), rfl⟩
    rw [State.hold_congr hholds, State.hold_emit, hreg, State.hold_setHold, hhi, Nat.add_sub_cancel]
  · rw [exec_counterPairRead, State.reqLoad_lost hrq h]
  · exact exec_timeNsRead_four (fn := 0) rfl (fun _ => hreach) (State.fabric_of_reach hreach) rfl
  · exact ⟨_, _, _, exec_timeNsRead_eight hreach hw, rfl, rfl, rfl⟩
  · exact exec_timeNsRead_four hfn hr hf hv

end Sys2Proof.Machine
end

section
/-! SUPPORT. The places of a pipeline (R23, R160, R292): what waits at each, and how a packet passes from one to the next. -/

namespace Sys2Proof.Machine

/-! ### The places at which packets wait -/

theorem State.pipe_setPipe_same (s : State) (p : Nat) (q : PipeSt) : (s.setPipe p q).pipe p = q := SMap.get_put_same ..

@[simp] theorem State.waiting_setWaiting (s : State) (p k : Nat) (l : List Pkt) : (s.setWaiting p k l).waiting p k = l := by
  rw [State.waiting, State.setWaiting, State.pipe_setPipe_same, SMap.get_put_same]

theorem State.waiting_setWaiting_ne (s : State) (p : Nat) {k j : Nat} (l : List Pkt) (h : j ≠ k) :
    (s.setWaiting p k l).waiting p j = s.waiting p j := by
  rw [State.waiting, State.setWaiting, State.pipe_setPipe_same, SMap.get_put_ne _ _ _ _ _ h, State.waiting]

/-! ### The passage through a stage -/

theorem exec_stageEnter_on {p : PipeNo} {st : StageNo} {s : State} (h : s.stageOn p st = true) :
    exec (.stageEnter p st) s = .next (s.stageEnter p st) := by
  change Host.Outcome.next (if s.stageOn p st then s.stageEnter p st else s) = _
  rw [if_pos h]

theorem exec_stageEnter_idle {p : PipeNo} {st : StageNo} {s : State} (h : s.stageOn p st = true → s.stageEnter p st = s) :
    exec (.stageEnter p st) s = .next s := by
  change Host.Outcome.next (if s.stageOn p st then s.stageEnter p st else s) = _
  split
  · rw [h ‹_›]
  · rfl

theorem State.stageEnter_empty {s : State} {p st : Nat} (h : s.waiting p st = []) : s.stageEnter p st = s := by
  simp only [State.stageEnter, h]

theorem State.stageEnter_early {s : State} {p st : Nat} {k : Pkt} {rest : List Pkt} (h : s.waiting p st = k :: rest)
    (hnow : (s.pipe p).now (decide (16 ≤ st)) < stageFrom k.tick st) : s.stageEnter p st = s := by
  simp only [State.stageEnter, h, hnow, if_true]

/-- What becomes of the packet that stage `st` has served: it waits for the next stage, after stage 15 for the traffic manager, after
stage 23 for the deparser. -/
def State.stageNext (s : State) (p st : Nat) (k : Pkt) : State :=
  if st = 15 then ((s.excAtExit p 0 k).2.setWaiting p 27
    ((s.excAtExit p 0 k).2.waiting p 27 ++ [(s.excAtExit p 0 k).1])).berthLeave p false (s.excAtExit p 0 k).1.drop
  else if st = 23 then (s.excAtExit p 1 k).2.setWaiting p 25 ((s.excAtExit p 1 k).2.waiting p 25 ++ [(s.excAtExit p 1 k).1])
  else s.setWaiting p (st + 1) (s.waiting p (st + 1) ++ [k])

theorem State.stageEnter_served {s s0 s1 : State} {p st : Nat} {k k0 k1 : Pkt} {rest : List Pkt} (h : s.waiting p st = k :: rest)
    (hnow : stageFrom k.tick st ≤ (s.pipe p).now (decide (16 ≤ st))) (h0 : s0 = s.setWaiting p st rest)
    (hk : k0 = if st = 16 then s0.egressEntry p k else k) (hrun : s0.stageRun p st k0 = (k1, s1)) :
    s.stageEnter p st = s1.stageNext p st k1 := by
  subst h0 hk
  simp only [State.stageEnter, h, Nat.not_lt.2 hnow, if_false, hrun]
  rfl

theorem State.tmEnter_eq (s : State) (p : Nat) : ∃ q, s.tmEnter p = { s with pipes := q } := ⟨_, rfl⟩

theorem State.tmEnter_waiting (s : State) (p : Nat) : (s.tmEnter p).waiting p 24 = s.waiting p 24 ++
    ((s.waiting p 27).filter fun k => decide (stageBy k.tick 15 ≤ (s.pipe p).igTick)).map (fun k => { k with tmTick := s.tm.tick }) := by
  rw [State.tmEnter, State.waiting_setWaiting, State.waiting_setWaiting_ne _ _ _ (by decide)]

theorem State.tmEnter_left (s : State) (p : Nat) : (s.tmEnter p).waiting p 27 =
    (s.waiting p 27).filter fun k => decide ((s.pipe p).igTick < stageBy k.tick 15) := by
  rw [State.tmEnter, State.waiting_setWaiting_ne _ _ _ (by decide), State.waiting_setWaiting]

theorem State.stagePass_over {s : State} {p st : Nat} {k : Pkt} {rest : List Pkt} (fuel : Nat) (h : s.waiting p st = k :: rest)
    (hby : stageBy k.tick st ≤ (s.pipe p).now (decide (16 ≤ st))) :
    s.stagePass p st (fuel + 1) = (s.stageEnter p st).stagePass p st fuel := by
  simp only [State.stagePass, h, hby, if_true]

theorem State.stagePass_within {s : State} {p st : Nat} {k : Pkt} {rest : List Pkt} (fuel : Nat) (h : s.waiting p st = k :: rest)
    (hby : (s.pipe p).now (decide (16 ≤ st)) < stageBy k.tick st) : s.stagePass p st fuel = s := by
  cases fuel with
  | zero => rfl
  | succ fuel => simp only [State.stagePass, h, Nat.not_le.2 hby, if_false]

/-- Settles O21: a stage serves the packet at the head of its place, and hands it to the next place. -/
theorem stagePassage : Obligations.StagePassage := by
  intro p st s
  refine ⟨fun hoff => exec_stageEnter_idle fun hon => absurd hon (by simp [hoff]), fun hw => exec_stageEnter_idle fun _ =>
    State.stageEnter_empty hw, fun k rest hw hnow => exec_stageEnter_idle fun _ => State.stageEnter_early hw hnow,
    fun k rest k0 s0 k1 s1 hon hw hnow h0 hk hrun => ?_, ?_, fun k rest fuel hw =>
    ⟨State.stagePass_over fuel hw, State.stagePass_within fuel hw⟩⟩
  · rw [exec_stageEnter_on hon, State.stageEnter_served hw hnow h0 hk hrun]
    refine ⟨fun h15 h23 => ?_, fun h23 k2 s2 hexc => ?_, fun h15 k2 s2 hexc => ?_⟩
    · rw [State.stageNext, if_neg h15, if_neg h23]
      exact ⟨_, rfl, State.waiting_setWaiting .., _, rfl⟩
    · rw [State.stageNext, if_neg (by omega), if_pos h23, hexc]
      exact ⟨_, rfl, State.waiting_setWaiting .., _, rfl⟩
    · rw [State.stageNext, if_pos h15, hexc]
  · obtain ⟨q, hq⟩ := s.tmEnter_eq p
    exact ⟨q, hq, s.tmEnter_waiting p, s.tmEnter_left p⟩

end Sys2Proof.Machine
end

section
/-! SUPPORT. The berths of a half of a pipeline (R23, R25, R27, R28, R292, R315): who takes them, in which order, how they are counted, and
how a packet leaves the parser. -/

namespace Sys2Proof.Machine

/-! ### The berths of a tick -/

theorem exec_berthTake_on {p : PipeNo} {s : State} (h : s.pipeRuns p = true) (eg : Bool) (credit : Nat) :
    exec (.berthTake p eg credit) s = .next (s.berthTake p eg credit) := by
  change Host.Outcome.next (if s.pipeRuns p then s.berthTake p eg credit else s) = _
  rw [if_pos h]

theorem exec_berthTake_off {p : PipeNo} {s : State} (h : s.pipeRuns p = false) (eg : Bool) (credit : Nat) :
    exec (.berthTake p eg credit) s = .next s := by
  change Host.Outcome.next (if s.pipeRuns p then s.berthTake p eg credit else s) = _
  rw [h]
  rfl

section
variable {s : State} {p : Nat}

theorem State.berthTake_ingress_open (h : (s.pipe p).igOpen = true) (c : Nat) : s.berthTake p false c = s.berthIngress p c := by
  simp [State.berthTake, h]

theorem State.berthTake_ingress_shut (h : (s.pipe p).igOpen = false) (c : Nat) : s.berthTake p false c = s := by
  simp [State.berthTake, h]

theorem State.berthTake_egress_open (h : (s.pipe p).egOpen = true) (c : Nat) : s.berthTake p true c = s.berthEgress p c := by
  simp [State.berthTake, h]

theorem State.berthTake_egress_shut (h : (s.pipe p).egOpen = false) (c : Nat) : s.berthTake p true c = s := by
  simp [State.berthTake, h]

end

@[simp] theorem State.pipe_setWaiting (s : State) (p k : Nat) (l : List Pkt) :
    (s.setWaiting p k l).pipe p = { s.pipe p with at_ := SMap.put (fun _ => []) (s.pipe p).at_ k l } := State.pipe_setPipe_same ..

@[simp] theorem State.pipe_setCols_false (s : State) (p : Nat) (cs : List Col) :
    (s.setCols p false cs).pipe p = { s.pipe p with igCols := cs } := State.pipe_setPipe_same ..

@[simp] theorem State.pipe_setCols_true (s : State) (p : Nat) (cs : List Col) :
    (s.setCols p true cs).pipe p = { s.pipe p with egCols := cs } := State.pipe_setPipe_same ..

@[simp] theorem State.waiting_setCols (s : State) (p k : Nat) (eg : Bool) (cs : List Col) :
    (s.setCols p eg cs).waiting p k = s.waiting p k := by
  cases eg <;> simp [State.waiting]

/-- Once berths have been taken, the tick has no more. -/
theorem State.berthIngress_igOpen (s : State) (p c : Nat) : ((s.berthIngress p c).pipe p).igOpen = false := by
  simp [State.berthIngress, State.pipe_setPipe_same]

theorem State.berthEgress_egOpen (s : State) (p c : Nat) : ((s.berthEgress p c).pipe p).egOpen = false := by
  simp [State.berthEgress, State.pipe_setPipe_same]

/-- What the egress half's berths leave: the first `n` selected frames whose header window has been read take them. -/
theorem State.berthEgress_pipe {s : State} {p c n : Nat} {q : PipeSt} {ready es : List Pkt} (hq : q = s.pipe p)
    (hr : ready = q.egress.filter fun k => decide (k.tmTick ≤ s.tm.tick)) (he : es = egressOrder q.egWait q.egRot ready)
    (hn : n = min (min 8 es.length) c) :
    ((s.berthEgress p c).pipe p).egress = es.drop n ++ q.egress.filter (fun k => decide (s.tm.tick < k.tmTick)) ∧
    ((s.berthEgress p c).pipe p).egWait =
      (egressPorts q.egWait q.egRot ready).filter (fun m => !((es.take n).map (·.outPort)).contains m) ∧
    ((s.berthEgress p c).pipe p).egRot = q.egRot ∧ ((s.berthEgress p c).pipe p).entry = q.entry ∧
    (s.berthEgress p c).waiting p 16 = s.waiting p 16 ++ ((es.take n).zipIdx.map fun e => { e.1 with berth := e.2, tick := q.egTick }) := by
  subst hq hr he hn
  simp [State.berthEgress, State.egReady, State.waiting, State.pipe_setPipe_same]

/-! ### The order in which ports are served (R315) -/

theorem egressPorts_waits_first {wait : List Nat} {rot : Nat} {ks : List Pkt} {m m' : Nat} (hm : m ∈ wait)
    (hk : m ∈ ks.map (·.outPort)) (hm' : m' ∉ wait) : (egressPorts wait rot ks).idxOf m < (egressPorts wait rot ks).idxOf m' := by
  have hfirst : m ∈ wait.filter ((ks.map (·.outPort)).eraseDups).contains :=
    List.mem_filter.2 ⟨hm, List.contains_iff_mem.2 (List.mem_eraseDups.2 hk)⟩
  have hlast : m' ∉ wait.filter ((ks.map (·.outPort)).eraseDups).contains := fun h => hm' (List.mem_filter.1 h).1
  rw [egressPorts, List.idxOf_append_of_mem hfirst, List.idxOf_append_of_notMem hlast]
  have := List.idxOf_lt_length_of_mem hfirst
  omega

/-! ### The next tick of a half -/

theorem State.berthTick_ingress {s : State} {p : Nat} {q : PipeSt} (hq : q = s.pipe p) (h : q.igOpen = false) : s.berthTick p false =
    s.setPipe p { q with igTick := q.igTick + 1, igOpen := true, rot := if q.igTick = 0 then q.rot else (q.rot + 1) % 64 } := by
  subst hq
  rw [State.berthTick, State.berthTake_ingress_shut h]
  rfl

theorem State.berthTick_egress {s : State} {p : Nat} {q : PipeSt} (hq : q = s.pipe p) (h : q.egOpen = false) : s.berthTick p true =
    s.setPipe p { q with egTick := q.egTick + 1, egOpen := true, egRot := if q.egTick = 0 then q.egRot else (q.egRot + 1) % 64 } := by
  subst hq
  rw [State.berthTick, State.berthTake_egress_shut h]
  rfl

/-- A tick whose berths nothing has taken ends as if they had been taken without credit. -/
theorem State.berthTick_ingress_open {s : State} {p : Nat} (h : (s.pipe p).igOpen = true) :
    s.berthTick p false = (s.berthIngress p 0).berthTick p false := by
  rw [State.berthTick, State.berthTick, State.berthTake_ingress_open h, State.berthTake_ingress_shut (s.berthIngress_igOpen p 0)]

theorem State.berthTick_egress_open {s : State} {p : Nat} (h : (s.pipe p).egOpen = true) :
    s.berthTick p true = (s.berthEgress p 0).berthTick p true := by
  rw [State.berthTick, State.berthTick, State.berthTake_egress_open h, State.berthTake_egress_shut (s.berthEgress_egOpen p 0)]

/-! ### The columns of berths (R479, R481) -/

theorem State.colOut_due {s : State} {p : Nat} {eg : Bool} {c : Col} {cs : List Col} (h : s.cols p eg = c :: cs)
    (hd : c.tick + halfDepth eg ≤ (s.pipe p).now eg) : s.colOut p eg = (s.colCount p eg c).setCols p eg cs := by
  simp only [State.colOut, h, hd, if_true]

theorem State.colOut_empty {s : State} {p : Nat} {eg : Bool}
    (h : s.cols p eg = [] ∨ ∃ c cs, s.cols p eg = c :: cs ∧ (s.pipe p).now eg < c.tick + halfDepth eg) :
    s.colOut p eg = s.colCount p eg emptyCol := by
  rcases h with h | ⟨c, cs, h, hd⟩
  · simp only [State.colOut, h]
  · simp only [State.colOut, h, Nat.not_le.2 hd, if_false]

theorem State.cnt_addCntWrap (s : State) (a k : Nat) : (s.addCntWrap a k).cnt a = (s.cnt a + k) % 2 ^ 48 := State.cnt_setCnt ..

theorem State.cnt_addCntWrap_ne (s : State) {a b : Nat} (k : Nat) (h : b ≠ a) : (s.addCntWrap a k).cnt b = s.cnt b :=
  State.cnt_setCnt_ne _ _ _ _ h

/-- The counters that a column of berths moves in its half, each with what it adds. -/
def colCounts (p : Nat) (eg : Bool) (c : Col) : List (Nat × Nat) :=
  if eg then
    [(C.EG_TICKS p, 1), (C.EG_CARRIED p, c.carried + c.left), (C.EG_WASTED p, c.wasted), (C.EG_STARVED_FRONT p, c.front),
      (C.EG_STARVED_BACK p, c.back)]
  else
    [(C.IG_TICKS p, 1), (C.IG_CARRIED p, c.carried + c.left), (C.IG_WASTED p, c.wasted), (C.IG_STARVED_FRONT p, c.front),
      (C.IG_STARVED_BACK p, c.back)]

theorem State.colCount_eq (s : State) (p : Nat) (eg : Bool) (c : Col) :
    s.colCount p eg c = (colCounts p eg c).foldl (fun s e => s.addCntWrap e.1 e.2) s := by
  cases eg <;> rfl

theorem colCounts_nodup (p : Nat) (eg : Bool) (c : Col) : ((colCounts p eg c).map (·.1)).Nodup := by
  cases eg
  · simp [colCounts, C.IG_TICKS, C.IG_CARRIED, C.IG_WASTED, C.IG_STARVED_FRONT, C.IG_STARVED_BACK]
  · simp [colCounts, C.EG_TICKS, C.EG_CARRIED, C.EG_WASTED, C.EG_STARVED_FRONT, C.EG_STARVED_BACK]

theorem State.cnt_foldl_of_notMem {l : List (Nat × Nat)} (s : State) {a : Nat} (h : a ∉ l.map (·.1)) :
    (l.foldl (fun s e => s.addCntWrap e.1 e.2) s).cnt a = s.cnt a := by
  induction l generalizing s with
  | nil => rfl
  | cons e l ih =>
    simp only [List.map_cons, List.mem_cons, not_or] at h
    rw [List.foldl_cons, ih _ h.2, State.cnt_addCntWrap_ne _ _ h.1]

/-- Counters at addresses of their own each count what stands beside them. -/
theorem State.cnt_foldl_of_mem {l : List (Nat × Nat)} (hl : (l.map (·.1)).Nodup) (s : State) {a k : Nat} (h : (a, k) ∈ l) :
    (l.foldl (fun s e => s.addCntWrap e.1 e.2) s).cnt a = (s.cnt a + k) % 2 ^ 48 := by
  induction l generalizing s with
  | nil => cases h
  | cons e l ih =>
    obtain ⟨he, hl⟩ := List.nodup_cons.1 hl
    rw [List.foldl_cons]
    rcases List.mem_cons.1 h with rfl | h
    · rw [State.cnt_foldl_of_notMem _ he, State.cnt_addCntWrap]
    · have hne : a ≠ e.1 := fun hae => he (List.mem_map.2 ⟨(a, k), h, hae⟩)
      rw [ih hl _ h, State.cnt_addCntWrap_ne _ _ hne]

theorem State.colCount_cnt (s : State) {p : Nat} {eg : Bool} {c : Col} {a k : Nat} (h : (a, k) ∈ colCounts p eg c) :
    (s.colCount p eg c).cnt a = (s.cnt a + k) % 2 ^ 48 := by
  rw [State.colCount_eq, State.cnt_foldl_of_mem (colCounts_nodup p eg c) s h]

/-- Settles O20: the berths of a tick that has them go to the first of those that are ready, each column of them counts as it leaves, and
the rotation moves on with the tick. -/
theorem berths : Obligations.Berths := by
  intro p credit s
  refine ⟨fun hoff eg => exec_berthTake_off hoff eg credit, fun hon n q hq => ⟨fun hshut => ?_, fun hshut => ?_,
    fun ready es hopen hr he hn => ?_, fun es hopen he hn s1 s2 at_ hat hs1 hs2 => ?_⟩, fun out s1 hout hs1 => ?_,
    fun wait rot ks m m' hm hk hm' _ => egressPorts_waits_first hm hk hm', fun q q' hq =>
    ⟨fun h hq' => hq' ▸ State.berthTick_ingress hq h, fun h hq' => hq' ▸ State.berthTick_egress hq h,
      fun h => State.berthTick_ingress_open (hq ▸ h), fun h => State.berthTick_egress_open (hq ▸ h)⟩,
    fun eg c => ⟨fun cs h hd => State.colOut_due h hd, State.colOut_empty, fun a k h => State.colCount_cnt s h⟩⟩
  · rw [exec_berthTake_on hon, State.berthTake_egress_shut (hq ▸ hshut)]
  · rw [exec_berthTake_on hon, State.berthTake_ingress_shut (hq ▸ hshut)]
  · rw [exec_berthTake_on hon, State.berthTake_egress_open (hq ▸ hopen)]
    obtain ⟨hegress, hwait, hrot, hentry, hplace⟩ := State.berthEgress_pipe hq hr he hn
    exact ⟨_, rfl, hegress, hplace, hwait, s.berthEgress_egOpen p credit, hrot, hentry, rfl, rfl⟩
  · rw [exec_berthTake_on hon, State.berthTake_ingress_open (hq ▸ hopen)]
    subst hs2 hs1 hat hn he hq
    rfl
  · subst hs1 hout
    rfl

end Sys2Proof.Machine
end

section
/-! SUPPORT. The deparser (R96, R108, R219, R223, R288, R371): where a packet whose ticks are over goes, and what waits for it at the MAC. -/

namespace Sys2Proof.Machine

/-! ### Where the packet goes -/

theorem exec_deparse_on {p : PipeNo} {s : State} (h : s.stageOn p 16 = true) (slot : Nat) :
    exec (.deparse p slot) s = .next (s.deparse p slot) := by
  change Host.Outcome.next (if s.stageOn p 16 then s.deparse p slot else s) = _
  rw [if_pos h]

theorem exec_deparse_idle {p : PipeNo} {slot : Nat} {s : State} (h : s.stageOn p 16 = true → s.deparse p slot = s) :
    exec (.deparse p slot) s = .next s := by
  change Host.Outcome.next (if s.stageOn p 16 then s.deparse p slot else s) = _
  split
  · rw [h ‹_›]
  · rfl

theorem State.deparse_empty {s : State} {p : Nat} (slot : Nat) (h : s.waiting p 25 = []) : s.deparse p slot = s := by
  simp only [State.deparse, h]

theorem State.deparse_early {s : State} {p : Nat} {k : Pkt} {rest : List Pkt} (slot : Nat) (h : s.waiting p 25 = k :: rest)
    (hnow : (s.pipe p).egTick < k.tick + 32) : s.deparse p slot = s := by
  simp only [State.deparse, h, hnow, if_true]

/-- The packet is gone without a record of it. -/
def State.lost (s : State) (k : Pkt) : State := (s.wbDropped k).pktGone k false

/-- The frame that the deparser has read out of the buffer goes to the MAC, or is too long for its port. -/
def State.frameOut (s : State) (p slot : Nat) (k : Pkt) (frame : Bytes) (bad : Bool) : State :=
  if s.maxLen k.outPort < (wholeOut k (s.rawOut p k frame)).length then
    ((s.mirrorCopy k.outPort 1 k (wholeOut k (s.rawOut p k frame))).addCnt (C.TX_OVERSIZE_DROP k.outPort) 1).lost k
  else s.toMac k.outPort slot k (s.rawOut p k frame) bad

/-- The bytes that the packet's buffer holds. -/
def State.frameOf (s : State) (k : Pkt) : Bytes := (s.buf k.handle).elim [] (·.bytes)

/-- What becomes of a packet that egress did not drop, by its port and its buffer. -/
def State.portOut (s : State) (p slot : Nat) (k : Pkt) : State :=
  if !s.portEnabled k.outPort then s.lost k
  else if !s.ownBuf (s.rqOwner k.rq) k.handle then s.lost k
  else if s.bufFenced k.handle then (s.sliceLoss k.rq k.handle).lost k
  else if s.genOn k.outPort then (s.genDrop k.outPort).lost k
  else (s.readBuf k.handle 0 (s.frameOf k).length).2.frameOut p slot k (s.frameOf k) (s.readBuf k.handle 0 (s.frameOf k).length).1

section
variable {s s0 : State} {p slot : Nat} {k : Pkt} {rest : List Pkt}

theorem State.deparse_dropped (h : s.waiting p 25 = k :: rest) (hnow : k.tick + 32 ≤ (s.pipe p).egTick) (h0 : s0 = s.setWaiting p 25 rest)
    (hr : k.runs = true) (hd : k.drop = true) : s.deparse p slot = ((s0.berthLeave p true true).addCnt (C.EG_DROP p k.dropCode) 1).lost k := by
  subst h0
  simp only [State.deparse, h, Nat.not_lt.2 hnow, hr, hd, Bool.and_true, if_true, if_false]
  rfl

theorem State.deparse_sent (h : s.waiting p 25 = k :: rest) (hnow : k.tick + 32 ≤ (s.pipe p).egTick) (h0 : s0 = s.setWaiting p 25 rest)
    (hr : k.runs = false ∨ k.drop = false) : s.deparse p slot = (s0.berthLeave p true false).portOut p slot k := by
  subst h0
  have hr : (k.runs && k.drop) = false := by rcases hr with h | h <;> simp [h]
  simp only [State.deparse, h, Nat.not_lt.2 hnow, hr, if_false]
  rfl

end

section
variable {s : State} {p slot : Nat} {k : Pkt}

theorem State.portOut_disabled (he : s.portEnabled k.outPort = false) : s.portOut p slot k = s.lost k := by
  simp [State.portOut, he]

theorem State.portOut_foreign (he : s.portEnabled k.outPort = true) (ho : s.ownBuf (s.rqOwner k.rq) k.handle = false) :
    s.portOut p slot k = s.lost k := by
  simp [State.portOut, he, ho]

theorem State.portOut_fenced (he : s.portEnabled k.outPort = true) (ho : s.ownBuf (s.rqOwner k.rq) k.handle = true)
    (hf : s.bufFenced k.handle = true) : s.portOut p slot k = (s.sliceLoss k.rq k.handle).lost k := by
  simp [State.portOut, he, ho, hf]

theorem State.portOut_generator (he : s.portEnabled k.outPort = true) (ho : s.ownBuf (s.rqOwner k.rq) k.handle = true)
    (hf : s.bufFenced k.handle = false) (hg : s.genOn k.outPort = true) : s.portOut p slot k = (s.genDrop k.outPort).lost k := by
  simp [State.portOut, he, ho, hf, hg]

theorem State.portOut_read {frame : Bytes} {bad : Bool} {s2 : State} (he : s.portEnabled k.outPort = true)
    (ho : s.ownBuf (s.rqOwner k.rq) k.handle = true) (hf : s.bufFenced k.handle = false) (hg : s.genOn k.outPort = false)
    (hframe : frame = s.frameOf k) (hread : s.readBuf k.handle 0 frame.length = (bad, s2)) :
    s.portOut p slot k = s2.frameOut p slot k frame bad := by
  subst hframe
  simp [State.portOut, he, ho, hf, hg, hread]

end

/-! ### What waits at the MAC -/

/-- The frame `f` stands behind the others that wait at the MAC of port `n`. -/
def State.txJoin (s : State) (n : Nat) (f : TxFrame) : State :=
  s.setPtm n { s.ptm n with tx := (s.ptm n).tx ++ [f], lastEnd := f.stop, spans := spanAdd f.start f.stop (s.ptm n).spans }

theorem State.ptm_txJoin (s : State) (n : Nat) (f : TxFrame) : (s.txJoin n f).ptm n =
    { s.ptm n with tx := (s.ptm n).tx ++ [f], lastEnd := f.stop, spans := spanAdd f.start f.stop (s.ptm n).spans } := SMap.get_put_same ..

/-- The frame of a packet with no due time, as it waits at the MAC of port `n`: it takes the first slot, and is never late. -/
def State.plainTx (s : State) (n slot : Nat) (k : Pkt) (bytes : Bytes) (bad : Bool) : TxFrame :=
  { pkt := k, bytes := bytes, stamp := s.egressStamp n (s.txSlot n slot none), start := s.txSlot n slot none,
    stop := s.txSlot n slot none + s.wire16 n bytes.length, late := 0, reason := 0, bad := bad }

theorem State.wire16_mirrorCopy (s : State) (n m pt len : Nat) (k : Pkt) (frame : Bytes) :
    (s.mirrorCopy m pt k frame).wire16 n len = s.wire16 n len := by
  unfold State.mirrorCopy
  split <;> rfl

/-- A packet that runs no microcode has no insertion and no record. -/
theorem State.toMac_plain {s : State} {n slot : Nat} {k : Pkt} {e : Bytes} {bad : Bool} (hr : k.runs = false) (hf : k.floor = none) :
    s.toMac n slot k e bad = (s.mirrorCopy n 1 k (wholeOut k e)).txJoin n (s.plainTx n slot k (wholeOut k e) bad) := by
  simp [State.toMac, hr, hf, State.tsInsert, State.lateAmount, State.txJoin, State.plainTx, State.wire16_mirrorCopy]

theorem State.txSlot_free (s : State) (n slot : Nat) (d : Option Int) :
    max s.t16 (max (s.ptm n).lastEnd (s.ptm n).ctlEnd) ≤ s.txSlot n slot d := by
  have hfirst : ∀ x, max s.t16 (max (s.ptm n).lastEnd (s.ptm n).ctlEnd) ≤ max (max s.t16 (s.macFree n)) x := fun x => le_max_left ..
  simp only [State.txSlot]
  split
  · exact iteInduction (fun _ => hfirst _) fun _ => hfirst _
  · exact hfirst _

/-! ### A frame that software injected -/

theorem State.readBuf_whole {s : State} {h : Nat} {b : Buf} (hb : s.buf h = some b) (hw : b.flips = []) (hf : s.bufFenced h = false)
    (off len : Nat) : s.readBuf h off len = (false, s) := by
  have hfold : ∀ ws : List Nat, ws.foldl (fun (acc : Bool × State) _ => acc) (false, s) = (false, s) := fun ws => by
    induction ws with
    | nil => rfl
    | cons w ws ih => exact ih
  simp only [State.readBuf, hb, hf, hw, List.filter_nil, List.length_nil, if_true, if_false, Bool.false_eq_true, hfold]

theorem State.mirrorCopy_off {s : State} (h : s.bit R.PIT_MIR_CTL F.PIT_MIR_CTL.EN = false) (n pt : Nat) (k : Pkt) (frame : Bytes) :
    s.mirrorCopy n pt k frame = s := by
  simp [State.mirrorCopy, State.mirSource, h]

theorem State.rawOut_injected {s : State} {p : Nat} {k : Pkt} (h : k.kind = .injected) (frame : Bytes) :
    s.rawOut p k frame = frame.take k.len := by
  simp only [State.rawOut, h]

theorem wholeOut_injected {k : Pkt} (h : k.kind = .injected) (e : Bytes) : wholeOut k e = e := by
  simp only [wholeOut, h]

/-- An injected frame that fits its port goes to the MAC as it stands in its buffer. -/
theorem State.portOut_injected {s : State} {p slot : Nat} {k : Pkt} {b : Buf} (hkind : k.kind = .injected) (hfloor : k.floor = none)
    (he : s.portEnabled k.outPort = true) (hg : s.genOn k.outPort = false) (ho : s.ownBuf (s.rqOwner k.rq) k.handle = true)
    (hf : s.bufFenced k.handle = false) (hb : s.buf k.handle = some b) (hw : b.flips = [])
    (hlen : (b.bytes.take k.len).length ≤ s.maxLen k.outPort) (hm : s.bit R.PIT_MIR_CTL F.PIT_MIR_CTL.EN = false) :
    s.portOut p slot k = s.txJoin k.outPort (s.plainTx k.outPort slot k (b.bytes.take k.len) false) := by
  have hframe : b.bytes = s.frameOf k := by rw [State.frameOf, hb]; rfl
  rw [State.portOut_read he ho hf hg hframe (State.readBuf_whole hb hw hf ..), State.frameOut, State.rawOut_injected hkind,
    wholeOut_injected hkind, if_neg (Nat.not_lt.2 hlen), State.toMac_plain (by simp [Pkt.runs, hkind]) hfloor,
    wholeOut_injected hkind, State.mirrorCopy_off hm]

/-- Settles O26: the deparser judges the packet at the head of its place by its port and its buffer, and the frame of one that passes
takes its slot at the MAC. -/
theorem deparser : Obligations.Deparser := by
  intro p slot s
  refine ⟨fun hoff => exec_deparse_idle fun hon => absurd hon (by simp [hoff]), fun hw => exec_deparse_idle fun _ =>
    State.deparse_empty slot hw, fun k rest hw hnow => exec_deparse_idle fun _ => State.deparse_early slot hw hnow,
    fun k rest s0 hon hw hnow h0 => ⟨fun hr hd => ?_, fun s1 n hr h1 hn => ?_⟩,
    fun k rest b n hon hw hnow hkind hn hfloor hen hgen hown hfence hbuf hflips hlen hmir => ?_,
    fun t n d => t.txSlot_free n slot d⟩
  · rw [exec_deparse_on hon, State.deparse_dropped hw hnow h0 hr hd]
    rfl
  · rw [exec_deparse_on hon, State.deparse_sent hw hnow h0 hr, ← h1]
    subst hn
    refine ⟨fun he => ?_, fun he ho => ?_, fun he ho hf => ?_, fun he ho hf hg => ?_, fun frame bad s2 e he ho hf hg hframe hread hraw =>
      ?_⟩
    · rw [State.portOut_disabled he]
      rfl
    · rw [State.portOut_foreign he ho]
      rfl
    · rw [State.portOut_fenced he ho hf]
      rfl
    · rw [State.portOut_generator he ho hf hg]
      rfl
    · rw [State.portOut_read he ho hf hg hframe hread]
      subst hraw
      refine ⟨fun hlong => ?_, fun hfits => ⟨?_, fun s3 hr hfl h3 => ?_⟩⟩
      · rw [State.frameOut, if_pos hlong]
        rfl
      · rw [State.frameOut, if_neg (Nat.not_lt.2 hfits)]
      · rw [State.toMac_plain hr hfl, ← h3, State.ptm_txJoin]
        refine ⟨_, rfl, rfl, rfl, rfl, rfl, ?_, rfl, rfl, rfl⟩
        rw [h3, State.wire16_mirrorCopy]
        rfl
  · have hq : ∃ q, (s.setWaiting p 25 rest).berthLeave p true false = { s with pipes := q } := ⟨_, rfl⟩
    have hleft : ((s.setWaiting p 25 rest).berthLeave p true false).waiting p 25 = rest := by simp [State.berthLeave]
    obtain ⟨q, hq⟩ := hq
    subst hn
    rw [exec_deparse_on hon, State.deparse_sent hw hnow rfl (.inl (by simp [Pkt.runs, hkind])), hq,
      State.portOut_injected (s := { s with pipes := q }) hkind hfloor hen hgen hown hfence hbuf hflips hlen hmir]
    rw [hq] at hleft
    refine ⟨_, s.plainTx k.outPort slot k (b.bytes.take k.len) false, rfl, ?_⟩
    rw [State.ptm_txJoin]
    exact ⟨rfl, rfl, rfl, rfl, rfl, rfl, rfl, rfl, hleft⟩

end Sys2Proof.Machine
end

section
/-! SUPPORT. Frame receipt (R20, R21, R26, R99, R108, R109, R125, R346): what the line gives the MAC, the faults in their order, and where a
good frame goes. -/

namespace Sys2Proof.Machine

theorem exec_frameArrival (n : PortNo) (rx : RxFrame) (s : State) : exec (.frameArrival n rx) s = .next (s.frameArrival n rx) := rfl

/-! ### What the line gives the MAC -/

section
variable {s : State} {n : Nat} {rx : RxFrame}

theorem State.rxLine_straight (hloop : (s.lanesOf n).any s.landsOff = false ∨ s.edge64 rx.age < 4 * (s.port n).loopAt) (hm : s.mode n ≠ 4) :
    s.rxLine n rx = (some (rx, true, decide (s.edge64 rx.age < 4 * (s.port n).loopAt)), s) := by
  have h : ((s.lanesOf n).any s.landsOff && !decide (s.edge64 rx.age < 4 * (s.port n).loopAt)) = false := by
    rcases hloop with h | h <;> simp [h]
  simp only [State.rxLine, h, hm, if_false, Bool.false_eq_true]

theorem State.rxLine_onazel (hloop : (s.lanesOf n).any s.landsOff = false ∨ s.edge64 rx.age < 4 * (s.port n).loopAt) (hm : s.mode n = 4)
    {ds : List Bool} {t : State} (hg : s.onzGet n 0 (rx.syms.map Fin.val) = (ds, t)) :
    s.rxLine n rx = (some ({ rx with bytes := bitsBytes ds }, decide (ds.length % 8 = 0),
      decide (s.edge64 rx.age < 4 * (s.port n).loopAt)), t) := by
  have h : ((s.lanesOf n).any s.landsOff && !decide (s.edge64 rx.age < 4 * (s.port n).loopAt)) = false := by
    rcases hloop with h | h <;> simp [h]
  simp only [State.rxLine, h, hm, if_false, if_true, Bool.false_eq_true, hg]

theorem State.rxLine_looped (hl : (s.lanesOf n).any s.landsOff = true) (ha : 4 * (s.port n).loopAt ≤ s.edge64 rx.age) {e : Bytes × Bool}
    {rest : List (Bytes × Bool)} (hq : (s.port n).loopRx = e :: rest) :
    s.rxLine n rx = (some ({ rx with bytes := e.1 }, true, e.2), s.setPort n { s.port n with loopRx := rest }) := by
  simp [State.rxLine, hl, ha, hq]

theorem State.rxLine_nothing (hl : (s.lanesOf n).any s.landsOff = true) (ha : 4 * (s.port n).loopAt ≤ s.edge64 rx.age)
    (hq : (s.port n).loopRx = []) : s.rxLine n rx = (none, s) := by
  simp [State.rxLine, hl, ha, hq]

end

/-! ### The first fault (R109) -/

section
variable (s : State) (n : Nat) {rx : RxFrame}

theorem State.rxFault_pcs (h : rx.pcsErr = true) : s.rxFault n rx = some (C.RX_PCS_ERR n) := by
  simp [State.rxFault, h]

/-- A frame without an error of its line fails the check of every received frame, if any. -/
theorem State.rxFault_line (hp : rx.pcsErr = false) (hu : rx.fecUncorr = 0) : s.rxFault n rx = s.frameFault n rx.bytes := by
  simp [State.rxFault, hp, hu]

theorem State.frameFault_fcs {bs : Bytes} (h : fcsOk bs = false) : s.frameFault n bs = some (C.RX_FCS_ERR n) := by
  simp [State.frameFault, h]

theorem State.frameFault_runt {bs : Bytes} (h : fcsOk bs = true) (hl : bs.length < 64) : s.frameFault n bs = some (C.RX_RUNT n) := by
  simp [State.frameFault, h, hl]

theorem State.frameFault_oversize {bs : Bytes} (h : fcsOk bs = true) (hl : 64 ≤ bs.length) (hm : s.maxLen n < bs.length) :
    s.frameFault n bs = some (C.RX_OVERSIZE n) := by
  simp [State.frameFault, h, Nat.not_lt.2 hl, hm]

theorem State.frameFault_none {bs : Bytes} (h : fcsOk bs = true) (hl : 64 ≤ bs.length) (hm : bs.length ≤ s.maxLen n) :
    s.frameFault n bs = none := by
  simp [State.frameFault, h, Nat.not_lt.2 hl, Nat.not_lt.2 hm]

end

/-! ### A frame of the time links (R346) -/

/-- A frame of the time links that fails a check is counted as such, and nothing but the counters and a register sees it. -/
theorem State.linkFrameRx_fault {s : State} {n c : Nat} {bs : Bytes} (age : RefAt) (h : s.frameFault n bs = some c) :
    (s.linkFrameRx n bs age).cnt c = min (s.cnt c + 1) (2 ^ 48 - 1) ∧ (s.linkFrameRx n bs age).bpm = s.bpm ∧
      (s.linkFrameRx n bs age).pipes = s.pipes ∧ (s.linkFrameRx n bs age).time = s.time := by
  simp only [State.linkFrameRx, h]
  split <;> exact ⟨State.cnt_addCnt .., rfl, rfl, rfl⟩

/-! ### Where the frame goes -/

/-- The line is in a fault for the frame: a PCS error, or a codeword that its FEC could not correct. -/
def lineErr (rx : RxFrame) : Bool := rx.pcsErr || decide (rx.fecUncorr ≠ 0)

/-- What becomes of a frame that the MAC of port `n` has found whole, with its link up, and not in flight at a change of LOOP. -/
def State.rxJudge (s : State) (n : Nat) (rx : RxFrame) : State :=
  if !(lineErr rx) && s.linkFrame rx.bytes then s.linkFrameRx n rx.bytes rx.age
  else
    match s.rxFault n rx with
    | some c => s.addCnt c 1
    | none =>
      if beNat (slice rx.bytes 12 2) = 0x8808 then s.macCtrlRx n rx.bytes
      else if s.pipeHeld (pipeOfPort n) then s
      else s.rxAdmit n rx

section
variable {s sl s0 : State} {n : Nat} {rx' rx : RxFrame} {whole hit : Bool}

theorem State.frameArrival_nothing (h : s.rxLine n rx' = (none, s)) : s.frameArrival n rx' = s := by
  simp only [State.frameArrival, h]

theorem State.frameArrival_frame (h : s.rxLine n rx' = (some (rx, whole, hit), sl))
    (h0 : s0 = ((sl.farEnd n rx).fecCount n rx.fecCorr rx.fecUncorr rx.fecSym).onzMarkerUp n) :
    s.frameArrival n rx' =
      if !s0.linkUp n then s0
      else if !whole then s0.addCnt (C.ONZ_ALIGN_ERR n) 1
      else if hit then s0.addCnt (if lineErr rx then C.RX_PCS_ERR n else C.RX_FCS_ERR n) 1
      else s0.rxJudge n rx := by
  subst h0
  simp only [State.frameArrival, h]
  rfl

end

section
variable {s : State} {n : Nat} {rx : RxFrame}

theorem State.rxJudge_link (hl : lineErr rx = false) (hf : s.linkFrame rx.bytes = true) :
    s.rxJudge n rx = s.linkFrameRx n rx.bytes rx.age := by
  simp [State.rxJudge, hl, hf]

theorem State.rxJudge_fault (h : lineErr rx = true ∨ s.linkFrame rx.bytes = false) {c : Nat} (hc : s.rxFault n rx = some c) :
    s.rxJudge n rx = s.addCnt c 1 := by
  have h : (!(lineErr rx) && s.linkFrame rx.bytes) = false := by rcases h with h | h <;> simp [h]
  simp only [State.rxJudge, h, hc, if_false, Bool.false_eq_true]

theorem State.rxJudge_good (h : lineErr rx = true ∨ s.linkFrame rx.bytes = false) (hc : s.rxFault n rx = none)
    (ht : beNat (slice rx.bytes 12 2) ≠ 0x8808) (hp : s.pipeHeld (pipeOfPort n) = false) : s.rxJudge n rx = s.rxAdmit n rx := by
  have h : (!(lineErr rx) && s.linkFrame rx.bytes) = false := by rcases h with h | h <;> simp [h]
  simp only [State.rxJudge, h, hc, ht, hp, if_false, Bool.false_eq_true]

end

/-! ### The buffer and the entry queue (R21, R26) -/

section
variable {s s1 s2 : State} {n : Nat} {rx : RxFrame}

theorem State.rxAdmit_granted {h : Nat} (h1 : s1 = (s.addCnt (C.RX_FRAMES n) 1).addCnt (C.RX_BYTES n) rx.bytes.length)
    (ha : s1.bpmAlloc (pipeOfPort n) rx.bytes.length rx.bytes = (.granted h, s2)) {s3 : State}
    (h3 : s3 = s2.mirrorCopy n 0 (s2.rxPkt n h rx) rx.bytes) :
    s.rxAdmit n rx =
      if 256 ≤ (s3.pipe (pipeOfPort n)).entry.length then (s3.addCnt (C.RX_ENTRY_DROP n) 1).bpmRelease (pipeOfPort n) h
      else s3.setPipe (pipeOfPort n)
        { s3.pipe (pipeOfPort n) with entry := (s3.pipe (pipeOfPort n)).entry ++ [s2.rxPkt n h rx] } := by
  subst h1 h3
  simp only [State.rxAdmit, ha]

theorem State.rxAdmit_refused {a : BpmAns} (h1 : s1 = (s.addCnt (C.RX_FRAMES n) 1).addCnt (C.RX_BYTES n) rx.bytes.length)
    (ha : s1.bpmAlloc (pipeOfPort n) rx.bytes.length rx.bytes = (a, s2)) (hg : ∀ h, a ≠ .granted h) :
    s.rxAdmit n rx = s2.addCnt (C.RX_ADMIT_DROP n) 1 := by
  subst h1
  cases a with
  | granted h => exact absurd rfl (hg h)
  | quota | reserve | empty => simp only [State.rxAdmit, ha]

end

theorem lineErr_of_pcs {rx : RxFrame} (hu : rx.fecUncorr = 0) : lineErr rx = rx.pcsErr := by
  simp [lineErr, hu]

/-- Settles O18: the MAC judges what the line gives it, fault by fault, and a frame without one asks for a buffer and a place in the
entry queue. -/
theorem frameReceipt : Obligations.FrameReceipt := by
  refine ⟨fun n rx s => ⟨fun hl hm ha => ?_, fun hm ha => ?_, fun ds t hm hg => ⟨fun hl ha => ?_, fun ha => ?_⟩, fun ha hl =>
    ⟨fun bs bad rest hq => State.rxLine_looped hl ha hq, fun hq => ?_⟩⟩,
    fun n rx' rx whole hit s sl s0 hline h0 => ?_⟩
  · rw [State.rxLine_straight (.inl hl) hm, decide_eq_false (Nat.not_lt.2 ha)]
  · rw [State.rxLine_straight (.inr ha) hm, decide_eq_true ha]
  · rw [State.rxLine_onazel (.inl hl) hm hg, decide_eq_false (Nat.not_lt.2 ha)]
  · rw [State.rxLine_onazel (.inr ha) hm hg, decide_eq_true ha]
  · rw [exec_frameArrival, State.frameArrival_nothing (State.rxLine_nothing hl ha hq)]
  · rw [exec_frameArrival, State.frameArrival_frame hline h0]
    refine ⟨fun hup => ?_, fun hup hw => ?_, fun hup hw hh hu => ?_, fun hup hw hh hp hu hlf => ⟨?_, fun c hc => ?_⟩,
      fun hup hw hh hno => ?_, fun x => ⟨fun hp => x.rxFault_pcs n hp, fun hp hu => ?_⟩⟩
    · simp only [hup, Bool.not_false, if_true]
    · simp only [hup, hw, Bool.not_false, Bool.not_true, Bool.false_eq_true, if_true, if_false]
    · simp only [hup, hw, hh, lineErr_of_pcs hu, Bool.not_true, Bool.false_eq_true, if_true, if_false]
    · have hl : lineErr rx = false := by rw [lineErr_of_pcs hu, hp]
      simp only [hup, hw, hh, State.rxJudge_link hl hlf, Bool.not_true, Bool.false_eq_true, if_false]
    · rw [State.rxFault_line _ _ hp hu] at hc
      exact ⟨_, rfl, State.linkFrameRx_fault rx.age hc⟩
    · have hno : lineErr rx = true ∨ s0.linkFrame rx.bytes = false := by
        simpa [lineErr, or_assoc] using hno
      simp only [hup, hw, hh, Bool.not_true, Bool.false_eq_true, if_false]
      refine ⟨fun c hc => ?_, fun hc ht hheld s1 h1 => ⟨fun h s2 s3 ha h3 => ?_, fun a s2 hg ha => ?_⟩⟩
      · rw [State.rxJudge_fault hno hc]
        exact ⟨_, rfl, State.cnt_addCnt .., fun a hne => State.cnt_addCnt_ne _ _ _ _ hne, rfl, rfl, rfl⟩
      · rw [State.rxJudge_good hno hc ht hheld, State.rxAdmit_granted h1 ha h3]
        refine ⟨fun hroom => ?_, fun hfull => by rw [if_pos hfull]⟩
        rw [if_neg (Nat.not_le.2 hroom)]
        refine ⟨_, rfl, ?_, _, rfl⟩
        rw [State.pipe_setPipe, if_pos rfl]
      · rw [State.rxJudge_good hno hc ht hheld, State.rxAdmit_refused h1 ha hg]
    · rw [State.rxFault_line _ _ hp hu]
      exact ⟨fun h => x.frameFault_fcs n h, fun h hl => x.frameFault_runt n h hl, fun h hl hm => x.frameFault_oversize n h hl hm,
        fun h hl hm => x.frameFault_none n h hl hm⟩

end Sys2Proof.Machine
end

section
/-! SUPPORT. What waits for a Round boundary (R36) stays as it is while an audit event is entered and while a cause starts: one lemma for
each operation of the Waybill that an entry runs. -/

namespace Sys2Proof.Machine

/-- From `s` to `t` the values that wait for a boundary stay as they are. -/
structure KeepsPend (s t : State) : Prop where
  pend : t.pendRegs = s.pendRegs
  late : t.lateRegs = s.lateRegs

theorem KeepsPend.refl (s : State) : KeepsPend s s := ⟨rfl, rfl⟩

theorem KeepsPend.trans {s t u : State} (h : KeepsPend s t) (k : KeepsPend t u) : KeepsPend s u :=
  ⟨k.pend.trans h.pend, k.late.trans h.late⟩

theorem KeepsPend.ite {c : Prop} [Decidable c] {s t u : State} (ht : KeepsPend s t) (hu : KeepsPend s u) :
    KeepsPend s (if c then t else u) := by
  split <;> assumption

theorem KeepsPend.snd {α : Type} {s t : State} {p : α × State} {a : α} (e : p = (a, t)) (h : KeepsPend s p.2) : KeepsPend s t := by
  rwa [e] at h

theorem KeepsPend.foldl {α : Type} {f : State → α → State} (l : List α) (hf : ∀ s x, KeepsPend s (f s x)) (s : State) :
    KeepsPend s (l.foldl f s) := by
  induction l generalizing s with
  | nil => exact .refl s
  | cons x l ih => exact (hf s x).trans (ih _)

theorem Alarms.keepsPend {as : List Nat} {s t : State} (h : Alarms as s t) : KeepsPend s t :=
  ⟨(congrArg State.pendRegs h.rest :), (congrArg State.lateRegs h.rest :)⟩

theorem State.cause_keepsPend (s : State) (a : Nat) (f : Fld) : KeepsPend s (s.cause a f) :=
  (State.cause_alarms (as := [a]) s a f (.inl (by simp))).keepsPend

theorem State.ariseF_keepsPend (s : State) (a : Nat) (f : Fld) : KeepsPend s (s.ariseF a f) :=
  (State.ariseF_alarms (as := [a]) s a f (.inl (by simp))).keepsPend

theorem State.addCnt_keepsPend (s : State) (a k : Nat) : KeepsPend s (s.addCnt a k) := ⟨rfl, rfl⟩

theorem State.setReg_keepsPend (s : State) (a : Nat) (v : Word) : KeepsPend s (s.setReg a v) := ⟨rfl, rfl⟩

theorem State.setStrm_keepsPend (s : State) (n : Nat) (q : WbStream) : KeepsPend s (s.setStrm n q) := ⟨rfl, rfl⟩

/-! ### Buffers -/

theorem State.bpmRefuse_keepsPend (s : State) (n : Nat) (a : BpmAns) : KeepsPend s (s.bpmRefuse n a) := by
  cases a with
  | granted => exact .refl s
  | quota | reserve | empty => exact (s.addCnt_keepsPend _ _).trans (State.cause_keepsPend _ _ _)

theorem State.bpmAlloc_keepsPend (s : State) (rq len : Nat) (bytes : Bytes) : KeepsPend s (s.bpmAlloc rq len bytes).2 := by
  simp only [State.bpmAlloc]
  split
  · exact s.bpmRefuse_keepsPend (s.rqOwner rq) .empty
  · split
    · exact s.bpmRefuse_keepsPend (s.rqOwner rq) _
    · split
      · exact s.bpmRefuse_keepsPend (s.rqOwner rq) .empty
      · exact ⟨rfl, rfl⟩

theorem State.bpmRelease_keepsPend (s : State) (rq h : Nat) : KeepsPend s (s.bpmRelease rq h) := by
  unfold State.bpmRelease
  split
  · exact .refl s
  · exact ⟨rfl, rfl⟩

/-! ### Sheets and their engines -/

theorem State.setEng_keepsPend (s : State) (e : Nat) (n : Option Nat) : KeepsPend s (s.setEng e n) := ⟨rfl, rfl⟩

theorem State.engTake_keepsPend (s : State) (e : Nat) : KeepsPend s (s.engTake e) := by
  unfold State.engTake
  refine .ite (.refl s) (.ite (s.setEng_keepsPend _ _) ?_)
  split
  · exact .refl s
  · exact s.setEng_keepsPend _ _
  · exact ⟨rfl, rfl⟩

theorem State.engServe_keepsPend (s : State) : KeepsPend s s.engServe := (s.engTake_keepsPend 0).trans (State.engTake_keepsPend _ 1)

theorem State.stallRise_keepsPend (s : State) (n : Nat) (was : Bool) : KeepsPend s (s.stallRise n was) :=
  .ite (.refl s) (.ite (s.cause_keepsPend _ _) (s.ariseF_keepsPend _ _))

theorem State.noKeyRise_keepsPend (s : State) (n : Nat) : KeepsPend s (s.noKeyRise n) :=
  .ite (s.cause_keepsPend _ _) ((s.setStrm_keepsPend n _).trans (State.ariseF_keepsPend (s.setNoKey n true) _ _))

theorem State.wbFenced_keepsPend (s : State) (n : Nat) : KeepsPend s (s.wbFenced n) := by
  unfold State.wbFenced
  extract_lets w
  split
  · exact .refl s
  · split
    · exact .refl s
    · refine .ite (.refl s) ?_
      extract_lets s1
      have h1 : KeepsPend s s1 := (s.setStrm_keepsPend n _).trans (State.bpmRelease_keepsPend _ _ _)
      exact .ite h1 (h1.trans (State.addCnt_keepsPend _ _ _))

theorem State.wbOpen_keepsPend (s : State) (n first : Nat) : KeepsPend s (s.wbOpen n first).2 := by
  unfold State.wbOpen
  split
  · exact .refl s
  · split
    · exact s.setStrm_keepsPend n _
    · split
      · rename_i e
        exact .trans (.snd e (s.bpmAlloc_keepsPend _ _ _)) (State.setStrm_keepsPend _ n _)
      · rename_i e
        exact .snd e (s.bpmAlloc_keepsPend _ _ _)

theorem State.wbClose_keepsPend (s : State) (n code : Nat) : KeepsPend s (s.wbClose n code) := by
  unfold State.wbClose
  extract_lets w slot was
  split
  · exact .refl s
  · refine .ite (.refl s) ?_
    extract_lets q s1 s2
    have h1 : KeepsPend s s1 := (s.setStrm_keepsPend n _).trans (State.addCnt_keepsPend _ _ _)
    have h2 : KeepsPend s s2 := .ite h1 (h1.trans (State.noKeyRise_keepsPend s1 n))
    exact (h2.trans (State.stallRise_keepsPend s2 n was)).trans (State.engServe_keepsPend _)

theorem State.wbRoom_keepsPend (s : State) (n k first : Nat) : KeepsPend s (s.wbRoom n k first).2 := by
  have h := s.wbFenced_keepsPend n
  unfold State.wbRoom
  extract_lets s1
  split
  · split
    · exact h
    · exact (h.trans (State.wbClose_keepsPend s1 n 0)).trans (State.wbOpen_keepsPend _ n first)
  · exact h.trans (State.wbOpen_keepsPend s1 n first)

/-! ### Records -/

theorem State.wbPut_keepsPend (s : State) (n : Nat) (rec : Bytes) (ts : List TimeVal) (hold : Bool) :
    KeepsPend s (s.wbPut n rec ts hold) := by
  simp only [State.wbPut]
  split
  · exact .refl s
  · have h := s.setStrm_keepsPend n
    exact .ite ((h _).trans (State.wbClose_keepsPend _ n 0)) (h _)

theorem State.wbGaps_keepsPend (s : State) (n sq fuel : Nat) : KeepsPend s (s.wbGaps n sq fuel).2 := by
  induction fuel generalizing s with
  | zero => exact .refl s
  | succ fuel ih =>
    unfold State.wbGaps
    split
    · exact .refl s
    · split
      · rename_i e
        exact .snd e (s.wbRoom_keepsPend _ _ _)
      · rename_i s1 e
        have h1 : KeepsPend s s1 := .snd e (s.wbRoom_keepsPend _ _ _)
        refine .trans ?_ (ih _)
        exact (((h1.trans (s1.setStrm_keepsPend n _)).trans (State.wbPut_keepsPend _ n _ _ _)).trans
          (State.addCnt_keepsPend _ _ _)).trans (State.cause_keepsPend _ _ _)

theorem State.wbLose_keepsPend (s : State) (n reason sq : Nat) (t : TimeVal) (hold : Bool) :
    KeepsPend s (s.wbLose n reason sq t hold) := ⟨rfl, rfl⟩

theorem State.wbPresent_keepsPend (s : State) (n : Nat) (mk : Nat → List Bytes) (t : TimeVal) (hold : Bool) :
    KeepsPend s (s.wbPresent n mk t hold) := by
  unfold State.wbPresent
  extract_lets sq w s1 s2 w3 s3 recs
  have h2 : KeepsPend s s2 := ⟨rfl, rfl⟩
  have hlose : ∀ {u} reason, KeepsPend s u → KeepsPend s (u.wbLose n reason sq t hold) := fun {u} reason h =>
    h.trans (u.wbLose_keepsPend n reason sq t hold)
  refine .ite (hlose 3 h2) (.ite (hlose 1 h2) ?_)
  have h3 : KeepsPend s s3 := .ite h2 (h2.trans (State.setStrm_keepsPend s2 n _))
  split
  · rename_i s4 e
    exact hlose 2 (.snd e (h3.trans (s3.wbGaps_keepsPend _ _ _)))
  · rename_i s4 e
    have h4 : KeepsPend s s4 := .snd e (h3.trans (s3.wbGaps_keepsPend _ _ _))
    split
    · rename_i s5 e
      exact hlose 2 (.snd e (h4.trans (s4.wbRoom_keepsPend _ _ _)))
    · rename_i s5 e
      have h5 : KeepsPend s s5 := .snd e (h4.trans (s4.wbRoom_keepsPend _ _ _))
      exact (h5.trans (.foldl recs (fun u r => u.wbPut_keepsPend n r _ _) s5)).trans (State.addCnt_keepsPend _ _ _)

theorem State.audit_keepsPend (s : State) (ev : Nat) (refused : Bool) (subj : Nat) (data : Bytes) :
    KeepsPend s (s.audit ev refused subj data) := by
  unfold State.audit
  extract_lets hold r t
  exact s.wbPresent_keepsPend _ _ _ _

theorem State.auditWrite_keepsPend (s : State) (refused : Bool) (subj addr : Nat) (old new : Word) :
    KeepsPend s (s.auditWrite refused subj addr old new) := by
  unfold State.auditWrite
  exact s.audit_keepsPend _ _ _ _

/-! ### The gate of RWP fields (R608) -/

theorem State.presRefuse_keepsPend (s : State) (i : Issuer) (a : Nat) : KeepsPend s (s.presRefuse i a) := by
  unfold State.presRefuse
  exact ((s.setReg_keepsPend _ _).trans (State.setReg_keepsPend _ _ _)).trans (State.cause_keepsPend _ _ _)

theorem State.rwpGate_keepsPend (s : State) (i : Issuer) (subj a : Nat) (old new : Word) : KeepsPend s (s.rwpGate i subj a old new).2 := by
  unfold State.rwpGate
  split
  · exact .refl s
  · split <;> dsimp only
    · exact s.auditWrite_keepsPend false subj a old new
    · exact (s.presRefuse_keepsPend i a).trans (State.auditWrite_keepsPend _ true subj a old new)

theorem State.gate_keepsPend (s : State) (w : Wr) (old : Word) : KeepsPend s (s.gate w old).2 := by
  unfold State.gate
  extract_lets m
  split
  · exact .refl s
  · exact s.rwpGate_keepsPend _ _ _ _ _

end Sys2Proof.Machine
end

section
/-! SUPPORT. Round-effective registers (R36, R608): what a write of one leaves to wait, and that a read shows it. -/

namespace Sys2Proof.Machine

/-! ### A value that waits -/

/-- The value `v` of the register at `a` waits: for the next boundary, or, late in the Round, for the one after. -/
def State.putPend (s : State) (late : Bool) (a : Nat) (v : Word) : State :=
  if late then { s with lateRegs := SMap.put (fun _ => 0) s.lateRegs a v }
  else { s with pendRegs := SMap.put (fun _ => 0) s.pendRegs a v }

theorem State.waitingReg_putPend {s : State} {late : Bool} {a : Nat} {v : Word} (hv : v ≠ 0)
    (hl : late = false → SMap.get (fun _ => 0) s.lateRegs a = 0) : (s.putPend late a v).waitingReg a = some v := by
  cases late with
  | true => simp only [State.putPend, State.waitingReg, if_true, SMap.get_put_same, if_pos hv]
  | false =>
    simp only [State.putPend, State.waitingReg, Bool.false_eq_true, if_false, SMap.get_put_same, hl rfl, ne_eq, not_true_eq_false, if_pos hv]

theorem State.putPend_regs (s : State) (late : Bool) (a : Nat) (v : Word) : (s.putPend late a v).regs = s.regs := by
  cases late <;> rfl

theorem KeepsPend.waitingReg {s t : State} (h : KeepsPend s t) (a : Nat) : t.waitingReg a = s.waitingReg a := by
  simp only [State.waitingReg, h.pend, h.late]

/-- A word with PENDING set is not 0. -/
theorem pending_ne_zero (w : Word) : putFld w ⟨31, 1⟩ 1 ≠ 0 := by
  intro h
  have hf := fldOf_putFld w ⟨31, 1⟩ 1 (by decide)
  rw [h] at hf
  exact absurd hf (by decide)

/-! ### What a write stores -/

theorem mix_and_mask (old new m : Word) : mix old new m &&& m = new &&& m := by
  refine BitVec.eq_of_getLsbD_eq fun i _ => ?_
  rw [BitVec.getLsbD_and, BitVec.getLsbD_and, mix_bit]
  cases m.getLsbD i <;> simp

/-- The mask of the fields that a write of a Round-effective register stores, where its RWP fields pass or not. -/
def roundMask (r : Row) (passes : Bool) : Word := r.mask fun t => t == .rw || (passes && t == .rwp)

theorem roundMask_passes (r : Row) : roundMask r true = r.mask fun t => t == .rw || t == .rwp :=
  Row.mask_congr fun _ _ => by rw [Bool.true_and]

theorem roundMask_noRwp {r : Row} (h : ∀ f ∈ r.fields, f.2 ≠ .rwp) (passes : Bool) : roundMask r passes = r.mask (· == .rw) :=
  Row.mask_congr fun f hf => by simp [h f hf]

theorem roundMask_noRw {r : Row} (h : ∀ f ∈ r.fields, f.2 ≠ .rw) : roundMask r true = r.mask (· == .rwp) :=
  Row.mask_congr fun f hf => by simp [h f hf]

theorem roundMask_refused {r : Row} (h : ∀ f ∈ r.fields, f.2 ≠ .rw) : roundMask r false = 0 :=
  Row.mask_eq_zero fun f hf => by simp [h f hf]

section
variable {s : State} {w : Wr} {old : Word} {q : Bool × State}

/-- A write of a Round-effective register leaves the new value to wait, unless it stores no RW field and changes nothing else. -/
theorem State.plainWrite_roundEff (hr : w.row.roundEff = true) (ho : old = (s.waitingReg w.pa).getD (s.reg w.pa)) (hq : q = s.gate w old) :
    s.plainWrite w =
      if !(w.row.fields.any fun f => f.2 == .rw) && decide (w.v &&& roundMask w.row q.1 = old &&& roundMask w.row q.1) then q.2
      else q.2.putPend s.lateInRound w.pa (putFld (mix old w.v (roundMask w.row q.1)) ⟨31, 1⟩ 1) := by
  subst ho hq
  rw [← mix_and_mask ((s.waitingReg w.pa).getD (s.reg w.pa)) w.v]
  simp only [State.plainWrite, hr, if_true]
  rfl

theorem State.plainWrite_waits (hr : w.row.roundEff = true) (ho : old = (s.waitingReg w.pa).getD (s.reg w.pa)) (hq : q = s.gate w old)
    (hs : (∃ f ∈ w.row.fields, f.2 = .rw) ∨ w.v &&& roundMask w.row q.1 ≠ old &&& roundMask w.row q.1) :
    s.plainWrite w = q.2.putPend s.lateInRound w.pa (putFld (mix old w.v (roundMask w.row q.1)) ⟨31, 1⟩ 1) := by
  rw [State.plainWrite_roundEff hr ho hq, if_neg]
  rcases hs with ⟨f, hf, ht⟩ | hs
  · have hany : (w.row.fields.any fun f => f.2 == .rw) = true := List.any_eq_true.2 ⟨f, hf, by rw [ht]; rfl⟩
    simp only [hany, Bool.not_true, Bool.false_and, Bool.false_eq_true, not_false_eq_true]
  · simp only [hs, decide_false, Bool.and_false, Bool.false_eq_true, not_false_eq_true]

/-- Of a write that stores nothing, nothing waits. -/
theorem State.plainWrite_refused (hr : w.row.roundEff = true) (ho : old = (s.waitingReg w.pa).getD (s.reg w.pa)) (hq : q = s.gate w old)
    (hg : q.1 = false) (hf : ∀ f ∈ w.row.fields, f.2 ≠ .rw) : s.plainWrite w = q.2 := by
  have hany : (w.row.fields.any fun f => f.2 == .rw) = false := by simpa using hf
  rw [State.plainWrite_roundEff hr ho hq, hg, roundMask_refused hf, hany, if_pos]
  rw [show w.v &&& 0 = old &&& 0 from BitVec.and_zero.trans BitVec.and_zero.symm]
  simp only [Bool.not_false, decide_true, Bool.and_self]

/-- A write that would change RWP fields, and passes, changes what it stores. -/
theorem stores_of_change (h : old &&& w.row.mask (· == .rwp) ≠ w.v &&& w.row.mask (· == .rwp)) :
    (∃ f ∈ w.row.fields, f.2 = .rw) ∨ w.v &&& roundMask w.row true ≠ old &&& roundMask w.row true := by
  by_cases hrw : ∃ f ∈ w.row.fields, f.2 = .rw
  · exact .inl hrw
  · right
    rw [roundMask_noRw fun f hf ht => hrw ⟨f, hf, ht⟩]
    exact h.symm

end

/-! ### Which registers are Round-effective -/

/-- The Round-effective registers of a block. -/
def roundRegs : Region → List RegId
  | .pst => [.PST_CAP, .PST_SHARED, .PST_PIT_CTL, .PST_PIT_SHARE]
  | .port _ => [.PORT_FORM]
  | .par _ => [.PAR_EXC_POL_CTL, .PAR_EXC_CIR, .PAR_EXC_PIR, .PAR_EXC_CBS, .PAR_EXC_PBS]
  | .tmPort _ => [.TM_PORT_SHP_CTL, .TM_PORT_CIR, .TM_PORT_PIR, .TM_PORT_CBS, .TM_PORT_PBS, .TM_Q_SHP_CTL, .TM_Q_CIR, .TM_Q_PIR, .TM_Q_CBS,
      .TM_Q_PBS]
  | .tt _ => [.TT_CTL, .TT_FLOOR]
  | _ => []

/-- The maps hold these, and each has a field that a write stores. -/
theorem rowsOf_roundEff (g : Region) : ∀ r ∈ rowsOf g, r.roundEff = true →
    r.id ∈ roundRegs g ∧ ((∃ f ∈ r.fields, f.2 = .rw) ∨ ∃ f ∈ r.fields, f.2 = .rwp) := by
  cases g <;> simp only [rowsOf, roundRegs] <;> decide

/-- None of them has an effect of its own: a write of one only stores. -/
theorem State.regAct_roundEff {s : State} {w : Wr} (h : w.row.id ∈ roundRegs w.g) : s.regAct w = s.plainWrite w := by
  cases hg : w.g <;> simp only [hg, roundRegs, List.mem_cons, List.not_mem_nil, or_false] at h
  case par => simp only [State.regAct, hg]
  case pst => rcases h with h | h | h | h <;> simp only [State.regAct, State.writePst, hg, h]
  case port => simp only [State.regAct, State.writePort, hg, h]
  case tmPort => rcases h with h | h | h | h | h | h | h | h | h | h <;> simp only [State.regAct, State.writeTm, hg, h]
  case tt => rcases h with h | h <;> simp only [State.regAct, State.writeTt, hg, h]

/-! ### Reads and writes by a function -/

theorem State.showReg_waiting {s : State} {fn rq pa : Nat} {g : Region} {r : Row} {ix : List Nat} {v : Word}
    (hw : s.waitingReg pa = some v) (hf : ∀ f ∈ r.fields, f.2 ≠ .wo) : s.showReg fn rq pa g r ix = v := by
  have hfold : ∀ fs : List (Fld × FTy), (∀ f ∈ fs, f.2 ≠ .wo) →
      fs.foldl (fun v f => if f.2 = .wo then putFld v f.1 0 else v) v = v := by
    intro fs hfs
    induction fs with
    | nil => rfl
    | cons f fs ih =>
      rw [List.foldl_cons, if_neg (hfs f (by simp))]
      exact ih fun f hf => hfs f (by simp [hf])
  simp only [State.showReg, hw, Option.getD_some, hfold r.fields hf]

/-- A read of a register without an effect of its own answers what it shows. -/
theorem State.readReg_shown {s : State} {fn rq a pa : Nat} {g : Region} {r : Row} {ix : List Nat} (hg : ∀ gr l, g ≠ .lane gr l)
    (hns : r.id ≠ .TIME_NS) (hgpio : r.id ≠ .SB_GPIO_IN) (hps : r.id ≠ .OST_PS_DATA) (hhigh : pairHigh r.id = false)
    (hlow : pairLow r.id = false) (hrc : ∀ f ∈ r.fields, f.2 ≠ .rc) : s.readReg fn rq a pa g r ix = (s.showReg fn rq pa g r ix, s) := by
  have hfresh : s.readFresh g r = s := by
    unfold State.readFresh
    split
    · exact absurd rfl (hg _ _)
    · rfl
  have hany : (r.fields.any fun f => f.2 = .rc) = false := by simpa using hrc
  simp only [State.readReg, hfresh, hns, hgpio, hps, hhigh, hlow, hany, if_false, Bool.false_eq_true]

theorem exec_roundEffectiveWrite {s : State} {fn : FnNo} {addr : Addr} {v : Word} {pa : Nat} {g : Region} {r : Row} {ix : List Nat}
    (ha : addr.toNat % 4 = 0) (hw : s.writable fn addr.toNat = true) (hp : s.place fn fn addr.toNat = .reg pa g r ix)
    (hr : r.roundEff = true) : exec (.roundEffectiveWrite fn addr v) s =
      .next ((s.plainWrite ⟨host fn, addr.toNat, pa, g, r, ix, taken addr.toNat v, none, none⟩).settle s) := by
  have hreg := State.findReg_of_place hp
  have hact : ∀ w : Wr, w.g = g → w.row = r → s.regAct w = s.plainWrite w := fun w hwg hwr =>
    State.regAct_roundEff (by rw [hwg, hwr]; exact (rowsOf_roundEff g r (findReg_mem hreg) hr).1)
  change Host.Outcome.next (if (findReg addr.toNat).any fun r => r.2.1.roundEff then s.hostStore fn addr.toNat 4 (v.zeroExtend 64) else s) = _
  rw [hreg, if_pos (by simpa using hr), State.hostStore, if_pos (State.reach_of_writable hw), State.hostWrite_four ha, State.regWrite_reg hp,
    State.viewWrite_of_writable hw hp, if_pos rfl, hact _ rfl rfl, taken, hreg]
  simp

/-- Settles O9: a Round-effective register is only ever stored, and what is stored waits with PENDING set, as far as the gate of its
RWP fields lets it. -/
theorem roundEffective : Obligations.RoundEffective := by
  refine ⟨fun fn addr s pa g r ix nw hreach ha hp hv _ hf hw hns hgpio hps hhigh hlow hg => ?_,
    fun s w old hr ho hlate hchange => ⟨State.gate_of_change hchange, fun hopen => ?_, fun hshut hrw => ?_⟩,
    fun fn addr v s pa g r ix nw ha hw hp _ hr hrwp hlate hnw => ?_⟩
  · have hno : ∀ f ∈ r.fields, f.2 ≠ .rc ∧ f.2 ≠ .wo := fun f hm => by
      rcases hf f hm with h | h | h <;> simp [h]
    rw [exec_rcRead, State.hostLoad_of_reach hreach, State.readOut_four ha ((State.regRead_reg hp hv).trans
      (State.readReg_shown hg hns hgpio hps hhigh hlow fun f hm => (hno f hm).1)), State.showReg_waiting hw fun f hm => (hno f hm).2]
  · have hpass : (s.gate w old).1 = true := (State.gate_of_change hchange).trans hopen
    rw [State.plainWrite_waits hr ho rfl (hpass ▸ stores_of_change hchange), hpass, roundMask_passes]
    refine State.waitingReg_putPend (pending_ne_zero _) fun hl => ?_
    rw [(s.gate_keepsPend w old).late, hlate hl]
  · have hstop : (s.gate w old).1 = false := (State.gate_of_change hchange).trans hshut
    have hplain := State.plainWrite_refused hr ho rfl hstop hrw
    exact ⟨hplain, fun a => hplain ▸ (s.gate_keepsPend w old).waitingReg a⟩
  · have hrw := (rowsOf_roundEff g r (findReg_mem (State.findReg_of_place hp)) hr).2.resolve_right
      fun ⟨f, hf, ht⟩ => hrwp f hf ht
    refine ⟨s.putPend s.lateInRound pa nw, ?_, s.putPend_regs _ _ _, State.waitingReg_putPend (hnw ▸ pending_ne_zero _) hlate, rfl⟩
    rw [exec_roundEffectiveWrite ha hw hp hr, State.plainWrite_waits hr rfl (State.gate_of_noRwp hrwp).symm (.inl hrw), hnw,
      roundMask_noRwp hrwp]

end Sys2Proof.Machine
end

section
/-! SUPPORT. An Ostler instruction that issues (R432, R458, R464): what an issue, an access and an answer leave of the thread and of the rest, and which
command a word runs. -/

namespace Sys2Proof.Machine

theorem Alarms.eq {as : List Nat} {s t : State} (h : Alarms as s t) : t = { s with regs := t.regs, irq := t.irq, outbox := t.outbox } := by
  have e := h.rest
  conv_rhs => rw [← e]

/-- `Ran`, with data memory as it was. -/
structure Goes (t : Nat) (q : Thr) (s u : State) : Prop extends Ran t q s u where
  data : u.ost.data = s.ost.data
  flips : u.ost.flips = s.ost.flips

variable {t : Nat} {q q' : Thr} {s u v : State}

theorem Ran.reg (h : Ran t q s u) {a : Nat} (ha : a < 0xC00000) (hi : ¬ irqBlock a) : u.reg a = s.reg a :=
  h.regs a (by unfold R.CNT_SMP_PTR; omega) (by unfold R.CNT_CAUSE; omega) hi

theorem Ran.thrOwner (h : Ran t q s u) {i : Nat} (hi : i < 512) : u.thrOwner i = s.thrOwner i :=
  State.fld_of_reg (h.reg (by unfold R.PIT_OST_OWNER; omega) (by unfold irqBlock R.PIT_OST_OWNER; omega))

theorem Goes.trans (ht : t < 512) (h : Goes t q s u) (k : Goes t q' u v) : Goes t q' s v where
  thread := k.thread
  others i hi := (k.others i hi).trans (h.others i hi)
  ost := by
    have e := h.ost
    rw [← k.ost] at e
    exact e
  cores c hc := (k.cores c hc).trans (h.cores c hc)
  regs a h1 h2 hi := (k.regs a (by rwa [h.thrOwner ht]) (by rwa [h.thrOwner ht]) hi).trans (h.regs a h1 h2 hi)
  cnts c h1 h2 h3 := (k.cnts c (by rwa [h.thrOwner ht]) (by rwa [h.thrOwner ht]) (by rwa [h.thrOwner ht])).trans (h.cnts c h1 h2 h3)
  rest := by
    have e := h.rest
    rw [← k.rest] at e
    exact e
  data := k.data.trans h.data
  flips := k.flips.trans h.flips

/-- A thread that takes another value keeps the rest as it is. -/
theorem State.setThr_goes (s : State) (t : Nat) (q : Thr) : Goes t q s (s.setThr t q) where
  thread := by rw [State.thr_setThr, if_pos rfl]
  others i hi := by rw [State.thr_setThr, if_neg hi]
  ost := rfl
  cores _ _ := rfl
  regs _ _ _ _ := rfl
  cnts _ _ _ _ := rfl
  rest := rfl
  data := rfl
  flips := rfl

/-- What sampling writes beside the threads. -/
theorem Goes.update {r c i o x f} (h : Goes t q s u)
    (hr : ∀ a, a ≠ R.CNT_SMP_PTR (s.thrOwner t) → a ≠ R.CNT_CAUSE (s.thrOwner t) → ¬ irqBlock a → SMap.get resetValue r a = u.reg a)
    (hc : ∀ k, k ≠ C.SMP_TAKEN (s.thrOwner t) → k ≠ C.SMP_LOST (s.thrOwner t) → k ≠ C.SMP_OVERWRITE (s.thrOwner t) →
      (SMap.get (fun _ => 0) c k).toNat = u.cnt k) :
    Goes t q s { u with regs := r, cnts := c, irq := i, outbox := o, ctr := x, freeIx := f } where
  thread := h.thread
  others := h.others
  ost := h.ost
  cores := h.cores
  regs a h1 h2 hi := (hr a h1 h2 hi).trans (h.regs a h1 h2 hi)
  cnts k h1 h2 h3 := (hc k h1 h2 h3).trans (h.cnts k h1 h2 h3)
  rest := h.rest
  data := h.data
  flips := h.flips

theorem Goes.ctr {x} (h : Goes t q s u) : Goes t q s { u with ctr := x } :=
  h.update (fun _ _ _ _ => rfl) (fun _ _ _ _ => rfl)

theorem Goes.setReg {a : Nat} {w : Word} (h : Goes t q s u) (ha : a = R.CNT_SMP_PTR (s.thrOwner t)) : Goes t q s (u.setReg a w) :=
  h.update (fun b h1 _ _ => State.reg_setReg_ne u a b w (by rwa [ha])) (fun _ _ _ _ => rfl)

theorem Goes.addCnt {a k : Nat} (h : Goes t q s u)
    (ha : a = C.SMP_TAKEN (s.thrOwner t) ∨ a = C.SMP_LOST (s.thrOwner t) ∨ a = C.SMP_OVERWRITE (s.thrOwner t)) :
    Goes t q s (u.addCnt a k) :=
  h.update (fun _ _ _ _ => rfl) fun b h1 h2 h3 => State.cnt_addCnt_ne u a b k (by rintro rfl; simp_all)

theorem Goes.ariseF {f : Fld} (h : Goes t q s u) : Goes t q s (u.ariseF (R.CNT_CAUSE (s.thrOwner t)) f) := by
  have ha := State.ariseF_alarms (as := [R.CNT_CAUSE (s.thrOwner t)]) u (R.CNT_CAUSE (s.thrOwner t)) f (.inl (by simp))
  rw [ha.eq]
  exact h.update (fun a _ h2 hi => ha.regs a (by simpa using h2) hi) (fun _ _ _ _ => rfl)

theorem Goes.setCore {x : OstCore} (h : Goes t q s u) : Goes t q s (u.setCore (t / 16) x) where
  thread := h.thread
  others := h.others
  ost := h.ost
  cores c hc := by rw [State.core_setCore, if_neg hc]; exact h.cores c hc
  regs := h.regs
  cnts := h.cnts
  rest := h.rest
  data := h.data
  flips := h.flips

/-! ### The sampler -/

theorem Goes.smpWrite {n : Nat} {e : BitVec 64} (h : Goes t q s u) (hn : n = s.thrOwner t) : Goes t q s (u.smpWrite n e) := by
  subst hn
  unfold State.smpWrite
  dsimp only
  split
  · exact h.addCnt (by simp)
  · split
    · exact ((h.ctr.setReg rfl |>.addCnt (.inl rfl)).addCnt (by simp)).setReg rfl
    · split
      · exact (((h.ctr.setReg rfl |>.addCnt (.inl rfl)).setReg rfl).setReg rfl).ariseF
      · exact (h.ctr.setReg rfl |>.addCnt (.inl rfl)).setReg rfl

/-- The sample in flight is none of what `Goes` tells of the thread. -/
theorem Goes.smp {x : Option Smp} (h : Goes t q s u) : Goes t q s (u.setThr t { u.thr t with smp := x }) where
  thread := by rw [State.thr_setThr, if_pos rfl, h.thread]
  others i hi := by rw [State.thr_setThr, if_neg hi]; exact h.others i hi
  ost := h.ost
  cores := h.cores
  regs := h.regs
  cnts := h.cnts
  rest := h.rest
  data := h.data
  flips := h.flips

theorem Goes.smpKind {k : Nat} (h : Goes t q s u) : Goes t q s (u.smpKind t k) := by
  unfold State.smpKind
  split
  · exact h
  · exact h.smp

theorem Goes.smpComplete {n : Nat} (h : Goes t q s u) (hn : n = s.thrOwner t) : Goes t q s (u.smpComplete n t) := by
  unfold State.smpComplete
  split
  · exact h
  · exact h.smp.smpWrite hn

theorem Goes.smpDone (ht : t < 512) (h : Goes t q s u) : Goes t q s (u.smpDone t) := by
  unfold State.smpDone
  dsimp only
  split
  · exact h
  · exact h.smpComplete (h.thrOwner ht)

theorem Goes.smpRestartCount {n : Nat} (h : Goes t q s u) : Goes t q s (u.smpRestartCount n) := by
  unfold State.smpRestartCount State.smpInterval
  dsimp only
  split
  · exact h.update (fun _ _ _ _ => rfl) (fun _ _ _ _ => rfl)
  · exact h.ctr

theorem Goes.smpIssue {n cls pc : Nat} (h : Goes t q s u) : Goes t q s (u.smpIssue n t cls pc) := by
  unfold State.smpIssue
  dsimp only
  split
  · exact h
  · split
    · exact h.ctr
    · split
      · exact h
      · exact (h.smp.smpRestartCount).ctr

/-! ### An instruction -/

theorem Goes.refl (s : State) (t : Nat) : Goes t (s.thr t) s s :=
  ⟨⟨rfl, fun _ _ => rfl, rfl, fun _ _ => rfl, fun _ _ _ _ => rfl, fun _ _ _ _ => rfl, rfl⟩, rfl, rfl⟩

/-- As a word issues, its thread is what it was but for a sample in flight. -/
theorem State.issued_goes (s : State) (t : Nat) (w : Word) : Goes t (s.thr t) s (s.issued t w) :=
  (Goes.refl s t).setCore.smpIssue

theorem State.ostTo_goes (ht : t < 512) (s : State) (pc : Nat) : Goes t { s.thr t with pc := pc % 65536 } s (s.ostTo t pc) :=
  (s.setThr_goes t _).smpDone ht

@[simp] theorem Thr.setR_pc (q : Thr) (r : Nat) (v : Word) : (q.setR r v).pc = q.pc := by
  unfold Thr.setR
  split <;> rfl

@[simp] theorem Thr.setR_slots (q : Thr) (r : Nat) (v : Word) : (q.setR r v).slots = q.slots := by
  unfold Thr.setR
  split <;> rfl

theorem Thr.reg_setR (q : Thr) {r : Nat} (v : Word) (hr : r ≠ 16) : (q.setR r v).reg r = v := by
  simp only [Thr.setR, Thr.reg, hr, if_false]
  exact SMap.get_put_same ..

theorem State.ostRd_goes (ht : t < 512) (s : State) (rd : Nat) (v : Word) :
    Goes t { (s.thr t).setR rd v with pc := ((s.thr t).pc + 1) % 65536 } s (s.ostRd t rd v) := by
  have h := (s.setThr_goes t ((s.thr t).setR rd v)).trans ht (State.ostTo_goes ht _ (((s.setThr t ((s.thr t).setR rd v)).thr t).pc + 1))
  rw [State.thr_setThr, if_pos rfl, Thr.setR_pc] at h
  rwa [State.ostRd, State.ostOn, State.thr_setThr, if_pos rfl, Thr.setR_pc]

theorem State.ostWait_goes (s : State) (t : Nat) (rd : Option Nat) (v : Word) :
    Goes t { s.thr t with st := 4, pc := ((s.thr t).pc + 1) % 65536, acc := some ⟨rd, v⟩ } s (s.ostWait t rd v) :=
  (s.setThr_goes t _).smpKind

/-! ### What an instruction reads as it issues -/

variable {w : Word}

theorem State.smpInterval_eq (s : State) (n : Nat) : (s.smpInterval n).2 = { s with freeIx := (s.smpInterval n).2.freeIx } := by
  unfold State.smpInterval
  dsimp only
  split <;> rfl

theorem State.smpRestartCount_eq (s : State) (n : Nat) :
    s.smpRestartCount n = { s with ctr := (s.smpRestartCount n).ctr, freeIx := (s.smpRestartCount n).freeIx } := by
  have e := s.smpInterval_eq n
  unfold State.smpRestartCount
  dsimp only
  rw [e]
  rfl

theorem State.smpIssue_eq (s : State) (n t cls pc : Nat) : s.smpIssue n t cls pc =
    { s with ost := (s.smpIssue n t cls pc).ost, ctr := (s.smpIssue n t cls pc).ctr, freeIx := (s.smpIssue n t cls pc).freeIx } := by
  unfold State.smpIssue
  dsimp only
  split
  · rfl
  · split
    · rfl
    · split
      · rfl
      · rw [State.smpRestartCount_eq]
        rfl

theorem State.issued_eq (s : State) (t : Nat) (w : Word) :
    s.issued t w = { s with ost := (s.issued t w).ost, ctr := (s.issued t w).ctr, freeIx := (s.issued t w).freeIx } :=
  State.smpIssue_eq ..

@[simp] theorem State.issued_reg (s : State) (t : Nat) (w : Word) (a : Nat) : (s.issued t w).reg a = s.reg a := by
  rw [State.issued_eq]; rfl

@[simp] theorem State.issued_cnt (s : State) (t : Nat) (w : Word) (a : Nat) : (s.issued t w).cnt a = s.cnt a := by
  rw [State.issued_eq]; rfl

@[simp] theorem State.issued_bpm (s : State) (t : Nat) (w : Word) : (s.issued t w).bpm = s.bpm := by
  rw [State.issued_eq]

@[simp] theorem State.issued_buf (s : State) (t : Nat) (w : Word) (h : Nat) : (s.issued t w).buf h = s.buf h := by
  rw [State.buf, State.issued_bpm, State.buf]

@[simp] theorem State.issued_thrOwner (s : State) (t : Nat) (w : Word) (i : Nat) : (s.issued t w).thrOwner i = s.thrOwner i :=
  State.fld_of_reg (State.issued_reg ..)

@[simp] theorem State.issued_ownerOfPipe (s : State) (t : Nat) (w : Word) (p : Nat) : (s.issued t w).ownerOfPipe p = s.ownerOfPipe p :=
  State.fld_of_reg (State.issued_reg ..)

@[simp] theorem State.issued_rqOwner (s : State) (t : Nat) (w : Word) (r : Nat) : (s.issued t w).rqOwner r = s.rqOwner r := by
  simp only [State.rqOwner, State.issued_ownerOfPipe]

@[simp] theorem State.issued_foreignBuf (s : State) (t : Nat) (w : Word) (n h : Nat) :
    (s.issued t w).foreignBuf n h = s.foreignBuf n h := by
  simp only [State.foreignBuf, State.issued_buf, State.issued_rqOwner]

@[simp] theorem State.issued_fld (s : State) (t : Nat) (w : Word) (a : Nat) (f : Fld) : (s.issued t w).fld a f = s.fld a f :=
  State.fld_of_reg (State.issued_reg ..)

@[simp] theorem State.issued_bit (s : State) (t : Nat) (w : Word) (a : Nat) (f : Fld) : (s.issued t w).bit a f = s.bit a f :=
  State.bit_of_reg (State.issued_reg ..)

@[simp] theorem State.issued_handleBytes (s : State) (t : Nat) (w : Word) (h : Nat) : (s.issued t w).handleBytes h = s.handleBytes h := by
  simp only [State.handleBytes, State.poolBytes, State.issued_fld]

@[simp] theorem State.issued_handleOk (s : State) (t : Nat) (w : Word) (h : Nat) : (s.issued t w).handleOk h = s.handleOk h := by
  unfold State.handleOk State.poolDefined State.poolCount
  rw [State.issued_bit, State.issued_fld]

@[simp] theorem State.issued_excQ (s : State) (t : Nat) (w : Word) (n c : Nat) : (s.issued t w).excQ n c = s.excQ n c := by
  have e := (s.issued_goes t w).ost
  unfold State.excQ
  rw [← e]

theorem State.issued_thr (s : State) (t : Nat) (w : Word) :
    (s.issued t w).thr t = { s.thr t with smp := ((s.issued t w).thr t).smp } := (s.issued_goes t w).thread

@[simp] theorem State.issued_slot (s : State) (t : Nat) (w : Word) (i : Nat) : ((s.issued t w).thr t).slot i = (s.thr t).slot i := by
  rw [State.issued_thr]; rfl

@[simp] theorem State.issued_thrReg (s : State) (t : Nat) (w : Word) (r : Nat) : ((s.issued t w).thr t).reg r = (s.thr t).reg r := by
  rw [State.issued_thr]; rfl

@[simp] theorem State.issued_pc (s : State) (t : Nat) (w : Word) : ((s.issued t w).thr t).pc = (s.thr t).pc := by
  rw [State.issued_thr]

theorem State.ostIssue_of_issues {row : Nat} {body : State → Word → State} (h : s.Issues t w) (hr : ostRow w = row) (h41 : row ≠ 0x41)
    (h3f : iOp w ≠ 0x3F) : s.ostIssue t row body = body (s.issued t w) w := by
  obtain ⟨⟨-, -, hturn⟩, hreg, ⟨hw, hbad⟩, hf⟩ := h
  have hc : (customer (s.thr t).pc && decide (s.custState (s.thrOwner t) ≠ 2)) = false := by
    cases e : customer (s.thr t).pc
    · rfl
    · simp [hreg e]
  simp only [State.ostIssue, hturn, hc, hbad, hw, hr, h41, h3f, hf, ne_eq, not_true_eq_false, if_false, Bool.not_true, Bool.false_eq_true,
    false_and]
  rfl

theorem ostRow_of_op (h : 0x38 ≤ iOp w ∧ iOp w ≤ 0x3E) (hh : iOp w = 0x3E → nbit w.toNat 4 = false) : ostRow w = iOp w := by
  have hb : nbit (iFn w) 4 = nbit w.toNat 4 := by unfold nbit iFn; congr 1; omega
  have hl : ostListed (iOp w) = true := by unfold ostListed; simp; omega
  rw [ostRow, hl, hb, Bool.not_true, if_neg Bool.false_ne_true, if_neg]
  rintro ⟨h1, h2⟩
  rw [hh h1] at h2
  exact absurd h2 Bool.false_ne_true

theorem ostRow_htake (h : iOp w = 0x3E) (hb : nbit w.toNat 4 = true) : ostRow w = 0x40 := by
  have hb : nbit (iFn w) 4 = true := by rw [← hb]; unfold nbit iFn; congr 1; omega
  simp [ostRow, h, hb, ostListed]

theorem State.ostIssue_of_op {row : Nat} {body : State → Word → State} (h : s.Issues t w) (ho : iOp w = row)
    (hr : 0x38 ≤ row ∧ row ≤ 0x3D) : s.ostIssue t row body = body (s.issued t w) w :=
  State.ostIssue_of_issues h ((ostRow_of_op (by omega) (by omega)).trans ho) (by omega) (by omega)

theorem iImm_slot (w : Word) : iImm w % 4 = w.toNat % 4 := by unfold iImm; omega
theorem iFn_slot (w : Word) : iFn w % 4 = w.toNat % 4 := by unfold iFn; omega
theorem iFn_size (w : Word) : iFn w / 4 % 4 = w.toNat / 4 % 4 := by unfold iFn; omega

/-! ### Slots -/

section
variable {i : Nat} {x : HSlot}

theorem State.ostEmpty_full {go : State → State} (h : (s.thr t).slot i = some x) :
    s.ostEmpty t i go = s.thrFault t 9 (BitVec.ofNat 32 i) := by simp [State.ostEmpty, h]

theorem State.ostEmpty_empty {go : State → State} (h : (s.thr t).slot i = none) : s.ostEmpty t i go = go s := by simp [State.ostEmpty, h]

variable {go : State → HSlot → State}

theorem State.ostSlot_empty (h : (s.thr t).slot i = none) : s.ostSlot t i go = s.thrFault t 9 (BitVec.ofNat 32 i) := by
  simp [State.ostSlot, h]

theorem State.ostSlot_full (h : (s.thr t).slot i = some x) : s.ostSlot t i go = go s x := by simp [State.ostSlot, h]

theorem State.ostOwnSlot_empty (h : (s.thr t).slot i = none) : s.ostOwnSlot t i go = s.thrFault t 9 (BitVec.ofNat 32 i) :=
  State.ostSlot_empty h

theorem State.ostOwnSlot_foreign (h : (s.thr t).slot i = some x) (hf : s.foreignBuf (s.thrOwner t) x.handle = true) :
    s.ostOwnSlot t i go = s.thrFault t 9 (BitVec.ofNat 32 i) := by simp [State.ostOwnSlot, State.ostSlot_full h, hf]

theorem State.ostOwnSlot_own (h : (s.thr t).slot i = some x) (hf : s.foreignBuf (s.thrOwner t) x.handle = false) :
    s.ostOwnSlot t i go = go s x := by simp [State.ostOwnSlot, State.ostSlot_full h, hf]

end

/-! ### The commands -/

section
variable {t : ThreadNo} (h : s.Issues t w)
include h

theorem exec_ostXget (ho : iOp w = 0x38) : exec (.ostXget t) s = .next ((s.issued t w).ostXget t w) :=
  congrArg Host.Outcome.next (State.ostIssue_of_op h ho (by decide))

theorem exec_ostBalloc (ho : iOp w = 0x39) : exec (.ostBalloc t) s = .next ((s.issued t w).ostBalloc t w) :=
  congrArg Host.Outcome.next (State.ostIssue_of_op h ho (by decide))

theorem exec_ostBfree (ho : iOp w = 0x3A) : exec (.ostBfree t) s = .next ((s.issued t w).ostBfree t w) :=
  congrArg Host.Outcome.next (State.ostIssue_of_op h ho (by decide))

theorem exec_ostBld (ho : iOp w = 0x3B) : exec (.ostBld t) s = .next ((s.issued t w).ostBld t w) :=
  congrArg Host.Outcome.next (State.ostIssue_of_op h ho (by decide))

theorem exec_ostBst (ho : iOp w = 0x3C) : exec (.ostBst t) s = .next ((s.issued t w).ostBst t w) :=
  congrArg Host.Outcome.next (State.ostIssue_of_op h ho (by decide))

theorem exec_ostBsend (ho : iOp w = 0x3D) : exec (.ostBsend t) s = .next ((s.issued t w).ostBsend t w) :=
  congrArg Host.Outcome.next (State.ostIssue_of_op h ho (by decide))

theorem exec_ostHput (ho : iOp w = 0x3E) (hb : nbit w.toNat 4 = false) : exec (.ostHput t) s = .next ((s.issued t w).ostHput t w) :=
  congrArg Host.Outcome.next (State.ostIssue_of_issues h ((ostRow_of_op (by omega) fun _ => hb).trans ho) (by decide) (by omega))

theorem exec_ostHtake (ho : iOp w = 0x3E) (hb : nbit w.toNat 4 = true) : exec (.ostHtake t) s = .next ((s.issued t w).ostHtake t w) :=
  congrArg Host.Outcome.next (State.ostIssue_of_issues h (ostRow_htake ho hb) (by decide) (by omega))

end

/-! ### Buffers of a slot -/

@[simp] theorem State.setSlot_bpm (s : State) (t i : Nat) (x : Option HSlot) : (s.setSlot t i x).bpm = s.bpm := rfl

theorem State.slot_setSlot (s : State) (t i j : Nat) (x : Option HSlot) :
    ((s.setSlot t i x).thr t).slot j = if j = i then x else (s.thr t).slot j := by
  rw [State.setSlot, State.thr_setThr, if_pos rfl]
  exact SMap.get_put ..

theorem State.pc_setSlot (s : State) (t i : Nat) (x : Option HSlot) : ((s.setSlot t i x).thr t).pc = (s.thr t).pc := by
  rw [State.setSlot, State.thr_setThr, if_pos rfl]

theorem State.ostRd_slot (ht : t < 512) (s : State) (rd : Nat) (v : Word) (i : Nat) :
    ((s.ostRd t rd v).thr t).slot i = (s.thr t).slot i := by
  rw [(State.ostRd_goes ht s rd v).thread]
  simp [Thr.slot]

theorem State.ostRd_reg (ht : t < 512) (s : State) {rd : Nat} (v : Word) (hrd : rd ≠ 16) : ((s.ostRd t rd v).thr t).reg rd = v := by
  rw [(State.ostRd_goes ht s rd v).thread]
  exact Thr.reg_setR _ v hrd

theorem State.ostRd_pc (ht : t < 512) (s : State) (rd : Nat) (v : Word) : ((s.ostRd t rd v).thr t).pc = ((s.thr t).pc + 1) % 65536 := by
  rw [(State.ostRd_goes ht s rd v).thread]

theorem Goes.bpm (h : Goes t q s u) : u.bpm = s.bpm := by
  rw [← h.rest]

theorem Goes.excQ (h : Goes t q s u) (n c : Nat) : u.excQ n c = s.excQ n c := by
  have e := h.ost
  unfold State.excQ
  rw [← e]

/-! ### Exception copies and handles -/

theorem State.thrOwner_lt (s : State) (t : Nat) : s.thrOwner t < 32 := State.fld_lt ..

theorem State.ostXget_none {i : Nat} (hi : iImm w % 4 = i) (hs : (s.thr t).slot i = none) (hq : s.excQ (s.thrOwner t) (thrCluster t) = []) :
    s.ostXget t w = s.ostRd t (iRd w) 0 := by
  simp [State.ostXget, hi, State.ostEmpty_empty hs, hq]

/-- XGET with a copy in the queue, before it writes RD (R462). -/
def State.xgot (s : State) (t i : Nat) (x : ExcCopy) (rest : List ExcCopy) : State :=
  (((s.setExcQ (s.thrOwner t) (thrCluster t) rest).setSlot t i (some { handle := x.handle, hdr := some x.hdr })).addCnt
    (C.OST_EXC_TAKEN (s.thrOwner t)) 1)

theorem State.ostXget_some {i : Nat} {x : ExcCopy} {rest : List ExcCopy} (hi : iImm w % 4 = i) (hs : (s.thr t).slot i = none)
    (hq : s.excQ (s.thrOwner t) (thrCluster t) = x :: rest) :
    s.ostXget t w = (s.xgot t i x rest).ostRd t (iRd w) (BitVec.ofNat 32 (2 ^ 31 + x.handle)) := by
  simp [State.ostXget, hi, State.ostEmpty_empty hs, hq, State.xgot]

theorem State.xgot_excQ (s : State) (t i : Nat) (x : ExcCopy) (rest : List ExcCopy) :
    (s.xgot t i x rest).excQ (s.thrOwner t) (thrCluster t) = rest := SMap.get_put_same ..

theorem State.xgot_slot (s : State) (t i : Nat) (x : ExcCopy) (rest : List ExcCopy) :
    ((s.xgot t i x rest).thr t).slot i = some { handle := x.handle, hdr := some x.hdr } := by
  refine (State.slot_setSlot (s.setExcQ (s.thrOwner t) (thrCluster t) rest) t i i _).trans (if_pos rfl)

theorem State.xgot_pc (s : State) (t i : Nat) (x : ExcCopy) (rest : List ExcCopy) : ((s.xgot t i x rest).thr t).pc = (s.thr t).pc :=
  State.pc_setSlot (s.setExcQ (s.thrOwner t) (thrCluster t) rest) t i _

theorem State.ostXget_cnt (ht : t < 512) {i : Nat} {x : ExcCopy} {rest : List ExcCopy} {rd : Nat} {v : Word} :
    ((s.xgot t i x rest).ostRd t rd v).cnt (C.OST_EXC_TAKEN (s.thrOwner t)) =
      min (s.cnt (C.OST_EXC_TAKEN (s.thrOwner t)) + 1) (2 ^ 48 - 1) := by
  have hn := s.thrOwner_lt t
  have ho : (s.xgot t i x rest).thrOwner t = s.thrOwner t := rfl
  refine ((State.ostRd_goes ht _ rd v).cnts _ ?_ ?_ ?_).trans (State.cnt_addCnt ..)
  all_goals rw [ho]; unfold C.OST_EXC_TAKEN
  · unfold C.SMP_TAKEN; omega
  · unfold C.SMP_LOST; omega
  · unfold C.SMP_OVERWRITE; omega

end Sys2Proof.Machine
end

section
/-! SUPPORT. The bytes of a buffer (R286, R462): what the check of its words leaves, and what a store puts into it. -/

namespace Sys2Proof.Machine

variable {t : Nat} {q : Thr} {s u v : State} {w : Word}

/-! ### What the check of the words leaves as it was -/

/-- `u` is `s` after errors of the buffer memory have been counted: the threads, the buffers and the registers of other units are as
they were. -/
structure Errs (s u : State) : Prop where
  ost : u.ost = s.ost
  bufs : u.bpm.bufs = s.bpm.bufs
  regs : ∀ a, a < 0x300000 → ¬ irqBlock a → u.reg a = s.reg a

theorem Errs.refl (s : State) : Errs s s := ⟨rfl, rfl, fun _ _ _ => rfl⟩

theorem Errs.trans (h : Errs s u) (k : Errs u v) : Errs s v :=
  ⟨k.ost.trans h.ost, k.bufs.trans h.bufs, fun a ha hi => (k.regs a ha hi).trans (h.regs a ha hi)⟩

theorem State.addCnt_errs (s : State) (a k : Nat) : Errs s (s.addCnt a k) := ⟨rfl, rfl, fun _ _ _ => rfl⟩

theorem State.setFld_errs (s : State) {a : Nat} (f : Fld) (v : Nat) (ha : 0x300000 ≤ a) : Errs s (s.setFld a f v) :=
  ⟨rfl, rfl, fun b hb _ => State.reg_setFld_ne s a b f v (by omega)⟩

theorem State.ariseF_errs (s : State) {a : Nat} (f : Fld) (ha : 0x300000 ≤ a) : Errs s (s.ariseF a f) := by
  have h := State.ariseF_alarms (as := [a]) s a f (.inl (by simp))
  exact ⟨by rw [h.eq], by rw [h.eq], fun b hb hi => h.regs b (by simp; omega) hi⟩

theorem State.cause_errs (s : State) {a : Nat} (f : Fld) (ha : 0x300000 ≤ a) : Errs s (s.cause a f) := by
  have h := State.cause_alarms (as := [a]) s a f (.inl (by simp))
  exact ⟨by rw [h.eq], by rw [h.eq], fun b hb hi => h.regs b (by simp; omega) hi⟩

theorem State.fenceSlice_errs (s : State) (sl : Nat) : Errs s (s.fenceSlice sl) := by
  unfold State.fenceSlice
  split
  · exact .refl s
  · exact (s.setFld_errs _ _ (by decide)).trans (State.ariseF_errs _ _ (by decide))

theorem Errs.errs {x : SMap Nat} (h : Errs s u) : Errs s { u with bpm := { u.bpm with errs := x } } := ⟨h.ost, h.bufs, h.regs⟩

theorem State.uncorrError_errs (s : State) (sl : Nat) : Errs s (s.uncorrError sl) := by
  unfold State.uncorrError
  dsimp only
  split
  · exact (((Errs.refl s).errs.trans (State.addCnt_errs ..)).trans (State.cause_errs _ _ (by decide))).trans (State.fenceSlice_errs ..)
  · exact ((Errs.refl s).errs.trans (State.addCnt_errs ..)).trans (State.cause_errs _ _ (by decide))

theorem Errs.foldl2 {α β : Type} {f : β × State → α → β × State} (hf : ∀ x a, Errs x.2 (f x a).2) (l : List α) (x : β × State) :
    Errs x.2 (l.foldl f x).2 := by
  induction l generalizing x with
  | nil => exact .refl _
  | cons a l ih => exact (hf x a).trans (ih _)

theorem State.readBuf_errs (s : State) (h off len : Nat) : Errs s (s.readBuf h off len).2 := by
  unfold State.readBuf
  split
  · exact .refl s
  · split
    · exact .refl s
    · refine Errs.foldl2 (fun x a => ?_) _ (false, s)
      dsimp only
      split
      · exact .refl _
      · split
        · exact State.addCnt_errs ..
        · exact State.uncorrError_errs ..

theorem Errs.buf (h : Errs s u) (k : Nat) : u.buf k = s.buf k := by simp only [State.buf, h.bufs]

theorem Errs.thr (h : Errs s u) (k : Nat) : u.thr k = s.thr k := by simp only [State.thr, h.ost]

theorem Errs.thrOwner (h : Errs s u) {i : Nat} (hi : i < 512) : u.thrOwner i = s.thrOwner i :=
  State.fld_of_reg (h.regs _ (by unfold R.PIT_OST_OWNER; omega) (by unfold irqBlock R.PIT_OST_OWNER; omega))

theorem pipeOfPort_lt {e : Nat} (h : e < 1024) : pipeOfPort e < 16 := by unfold pipeOfPort; omega

theorem Errs.ownerOfPort (h : Errs s u) {e : Nat} (he : e < 1024) : u.ownerOfPort e = s.ownerOfPort e :=
  State.fld_of_reg (h.regs _ (by have := pipeOfPort_lt he; unfold R.PIT_MAP; omega) (by unfold irqBlock R.PIT_MAP; omega))

theorem Errs.holdRq (h : Errs s u) (rq k : Nat) : u.holdRq rq k = s.holdRq rq k := by simp only [State.holdRq, h.buf]

/-! ### Bytes put into a buffer -/

/-- Buffer `bf` after the bytes `v` have been put at `off`, its gap filled with the bytes of `free`. -/
def Buf.withBytes (bf : Buf) (off : Nat) (v : Bytes) (free : Nat → Byte) : Buf :=
  { bf with
    bytes := (bf.bytes ++ (List.range (off - bf.bytes.length)).map free).take off ++ v ++
      (bf.bytes ++ (List.range (off - bf.bytes.length)).map free).drop (off + v.length)
    flips := bf.flips.filter fun f => !(decide (off / 16 ≤ f / 128 ∧ f / 128 ≤ (off + v.length - 1) / 16)) }

theorem State.bufPut_some {h off : Nat} {v : Bytes} {bf : Buf} (hb : s.buf h = some bf) :
    s.bufPut h off v = ({ s with freeIx := s.freeIx + (off - bf.bytes.length) } : State).setBuf h
      (some (bf.withBytes off v fun j => Config.freeByte (s.freeIx + j))) := by
  unfold State.bufPut
  rw [hb]
  rfl

theorem Buf.withBytes_take (bf : Buf) (off : Nat) (free : Nat → Byte) :
    ((bf.bytes ++ (List.range (off - bf.bytes.length)).map free).take off).length = off := by
  simp; omega

theorem Buf.withBytes_inside (bf : Buf) (off : Nat) (v : Bytes) (free : Nat → Byte) {j : Nat} (hj : j < v.length) :
    byteAt (bf.withBytes off v free).bytes (off + j) = byteAt v j := by
  have hl := bf.withBytes_take off free
  simp only [byteAt, Buf.withBytes, List.getD_eq_getElem?_getD]
  rw [List.append_assoc, List.getElem?_append_right (by omega), hl, List.getElem?_append_left (by omega)]
  congr 2
  omega

theorem Buf.withBytes_outside (bf : Buf) (off : Nat) (v : Bytes) (free : Nat → Byte) {j : Nat} (hj : j < bf.bytes.length)
    (ho : j < off ∨ off + v.length ≤ j) : byteAt (bf.withBytes off v free).bytes j = byteAt bf.bytes j := by
  have hl := bf.withBytes_take off free
  simp only [byteAt, Buf.withBytes, List.getD_eq_getElem?_getD]
  rcases ho with ho | ho
  · rw [List.append_assoc, List.getElem?_append_left (by omega), List.getElem?_take, if_pos ho, List.getElem?_append_left hj]
  · rw [List.getElem?_append_right (by simp; omega), List.getElem?_drop, List.getElem?_append_left (by simp; omega)]
    congr 2
    simp
    omega

theorem length_natLE (k n : Nat) : (natLE k n).length = k := by
  induction k generalizing n with
  | zero => rfl
  | succ k ih => simp [natLE, ih]

theorem byteAt_natLE {k j : Nat} (n : Nat) (hj : j < k) : byteAt (natLE k n) j = BitVec.ofNat 8 (n / 256 ^ j) := by
  induction k generalizing n j with
  | zero => omega
  | succ k ih =>
    cases j with
    | zero => simp [natLE, byteAt]
    | succ j =>
      have e := ih (n / 256) (j := j) (by omega)
      rw [Nat.div_div_eq_div_mul, ← Nat.pow_succ'] at e
      exact e

/-- The words that an aligned store of `k` bytes touches are the one that it stores to. -/
theorem Buf.withBytes_flips (bf : Buf) {off k : Nat} {v : Bytes} (free : Nat → Byte) (hv : v.length = k) (hk : k = 1 ∨ k = 2 ∨ k = 4)
    (ha : off % k = 0) : (bf.withBytes off v free).flips = bf.flips.filter fun f => !decide (f / 128 = off / 16) := by
  have e : (off + v.length - 1) / 16 = off / 16 := by
    rw [hv]
    rcases hk with rfl | rfl | rfl <;> omega
  simp only [Buf.withBytes, e]
  congr 1
  funext f
  congr 2
  exact propext (by omega)

/-- The whole frame: a buffer takes its checksum, and the bytes beyond the frame stay. -/
theorem Buf.withBytes_frame (bf : Buf) {bs full : Bytes} {n : Nat} (free : Nat → Byte) (hf : full.length = n + 4)
    (hb : full.take n = bs) (hbs : ∀ j, j < bf.bytes.length → j < n → bs[j]? = bf.bytes[j]?) :
    (bf.withBytes (min bf.bytes.length n) (full.drop (min bf.bytes.length n)) free).bytes = full ++ bf.bytes.drop (n + 4) := by
  have hgap : min bf.bytes.length n - bf.bytes.length = 0 := by omega
  have htake : bf.bytes.take (min bf.bytes.length n) = full.take (min bf.bytes.length n) := by
    apply List.ext_getElem?
    intro j
    rw [List.getElem?_take, List.getElem?_take]
    split
    · rw [← hbs j (by omega) (by omega), ← hb, List.getElem?_take, if_pos (by omega)]
    · rfl
  simp only [Buf.withBytes, hgap, List.range_zero, List.map_nil, List.append_nil, htake, List.take_append_drop, List.length_drop]
  congr 2
  omega

end Sys2Proof.Machine
end

section
/-! SUPPORT. The handle slots of an Ostler thread (R47, R460 to R463), command by command. -/

namespace Sys2Proof.Machine

section
variable {t : Nat} {s u : State} {w : Word} {i : Nat} {x : HSlot} {k : Nat} {a : Word} {bf : Buf}

/-! ### The commands on a slot -/

theorem State.ostBalloc_badLen (hi : iImm w % 4 = i) (hs : (s.thr t).slot i = none) (ha : (s.thr t).reg (iRa w) = a)
    (hl : a = 0 ∨ 10240 < a.toNat) : s.ostBalloc t w = s.ostRd t (iRd w) 5 := by
  have hl : a.toNat = 0 ∨ 10240 < a.toNat := hl.imp_left (by rintro rfl; rfl)
  simp [State.ostBalloc, hi, State.ostEmpty_empty hs, ha, hl]

/-- The answer of the buffer manager, as BALLOC gives it to the thread. -/
def State.balloced (s : State) (t i rd : Nat) : BpmAns → State
  | .granted h => (s.setSlot t i (some { handle := h })).ostRd t rd 1
  | .quota => s.ostRd t rd 2
  | .reserve => s.ostRd t rd 3
  | .empty => s.ostRd t rd 4

theorem State.ostBalloc_alloc {ans : BpmAns} (hi : iImm w % 4 = i) (hs : (s.thr t).slot i = none) (ha : (s.thr t).reg (iRa w) = a)
    (h0 : a ≠ 0) (hl : a.toNat ≤ 10240) (hb : s.bpmAlloc (s.thrRq t) a.toNat [] = (ans, u)) :
    s.ostBalloc t w = u.balloced t i (iRd w) ans := by
  have hl : ¬ (a.toNat = 0 ∨ 10240 < a.toNat) := by
    rintro (h | h)
    · exact h0 (BitVec.eq_of_toNat_eq h)
    · omega
  simp only [State.ostBalloc, hi, State.ostEmpty_empty hs, ha, hl, if_false, hb]
  cases ans <;> rfl

theorem State.ostBfree_full (hi : iImm w % 4 = i) (hs : (s.thr t).slot i = some x) :
    s.ostBfree t w =
      if (s.buf x.handle).isSome && !s.foreignBuf (s.thrOwner t) x.handle then
        ((s.setSlot t i none).ostRelease (s.thrRq t) x.handle).ostRd t (iRd w) 0
      else ((s.setSlot t i none).bpmDoubleFree (s.thrRq t) x.handle).ostRd t (iRd w) 1 := by
  simp only [State.ostBfree, hi, State.ostSlot_full hs]
  rfl

section
variable (hi : iFn w % 4 = i) (hk : 4 / 2 ^ (iFn w / 4 % 4) = k) (ha : (s.thr t).reg (iRa w) = a)
  (hs : (s.thr t).slot i = some x) (hf : s.foreignBuf (s.thrOwner t) x.handle = false)
include hi ha hs hf

section
include hk

theorem State.ostBld_own : s.ostBld t w =
    if a.toNat % k ≠ 0 then s.thrFault t 6 a
    else if 16320 ≤ a.toNat ∧ a.toNat < 16384 ∧ x.hdr.isSome then
      s.ostWait t (some (iRd w)) (BitVec.ofNat 32 (leNat (slice (x.hdr.getD []) (a.toNat - 16320) k)))
    else if s.handleBytes x.handle ≤ a.toNat then s.thrFault t 10 a
    else if (s.readBuf x.handle a.toNat k).1 then (s.readBuf x.handle a.toNat k).2.ostBufFail t i x a
    else ((s.readBuf x.handle a.toNat k).2.bufBytesAt x.handle a.toNat k).2.ostWait t (some (iRd w))
      (BitVec.ofNat 32 (leNat ((s.readBuf x.handle a.toNat k).2.bufBytesAt x.handle a.toNat k).1)) := by
  simp only [State.ostBld, hi, hk, ha, State.ostOwnSlot_own hs hf]
  rcases s.readBuf x.handle a.toNat k with ⟨_ | _, s1⟩ <;> rfl

theorem State.ostBst_own : s.ostBst t w =
    if a.toNat % k ≠ 0 then s.thrFault t 6 a
    else if s.handleBytes x.handle ≤ a.toNat then s.thrFault t 10 a
    else if (s.readBuf x.handle a.toNat k).1 then (s.readBuf x.handle a.toNat k).2.ostBufFail t i x a
    else ((s.readBuf x.handle a.toNat k).2.bufPut x.handle a.toNat
      (natLE k (((s.readBuf x.handle a.toNat k).2.thr t).reg (iRd w)).toNat)).ostWait t none 0 := by
  simp only [State.ostBst, hi, hk, ha, State.ostOwnSlot_own hs hf]
  rcases s.readBuf x.handle a.toNat k with ⟨_ | _, s1⟩ <;> rfl

end

theorem State.ostBsend_badLen (hl : a.toNat < 64 ∨ s.handleBytes x.handle < a.toNat) : s.ostBsend t w = s.thrFault t 10 a := by
  simp only [State.ostBsend, hi, ha, State.ostOwnSlot_own hs hf, hl, if_true]

theorem State.ostBsend_badWord (hl : 64 ≤ a.toNat) (hh : a.toNat ≤ s.handleBytes x.handle) (hr : s.readBuf x.handle 0 a.toNat = (true, u)) :
    s.ostBsend t w = u.ostBufFail t i x a := by
  have hn : ¬ (a.toNat < 64 ∨ s.handleBytes x.handle < a.toNat) := by omega
  simp only [State.ostBsend, hi, ha, State.ostOwnSlot_own hs hf, hn, if_false, hr]

end

end

section
variable {t : Nat} {s u sr s1 s2 : State} {w : Word} {i : Nat} {x : HSlot} {k : Nat} {a b : Word} {bf : Buf} {bs : Bytes}

/-! ### BSEND -/

/-- The packet in its port's queue, or lost (R462). -/
def State.bsent (s : State) (t n e c : Nat) (k : Pkt) : State :=
  if n ≠ 0 ∧ s.ownerOfPort e ≠ n then ((s.xdrop n 1).pktGone k false).ostOn t
  else
    match s.tmDirect e c k with
    | (true, s) => s.ostOn t
    | (false, s) => (s.pktGone k false).ostOn t

theorem State.bsent_foreign {n e c : Nat} {y : Pkt} (hn : n ≠ 0) (he : s.ownerOfPort e ≠ n) :
    s.bsent t n e c y = ((s.xdrop n 1).pktGone y false).ostOn t := if_pos ⟨hn, he⟩

theorem State.bsent_own {n e c : Nat} {y : Pkt} {ok : Bool} (h : n = 0 ∨ s.ownerOfPort e = n) (hd : s.tmDirect e c y = (ok, u)) :
    s.bsent t n e c y = (if ok then u else u.pktGone y false).ostOn t := by
  rw [State.bsent, if_neg (by rintro ⟨h1, h2⟩; exact h.elim h1 h2), hd]
  cases ok <;> rfl

theorem State.bufBytesAt_state (hb : s.bufBytesAt k i t = (bs, u)) : u = { s with freeIx := u.freeIx } := by
  cases hb
  rfl

theorem State.bufBytesAt_bytes (hb : s.bufBytesAt k 0 t = (bs, u)) (hbuf : s.buf k = some bf) :
    bs.length = t ∧ ∀ j, j < bf.bytes.length → j < t → bs[j]? = bf.bytes[j]? := by
  cases hb
  constructor
  · simp
  · intro j hj ht
    simp [hbuf, ht, hj]

theorem State.bufPut_holdRq (s : State) (h off : Nat) (v : Bytes) (rq : Nat) : (s.bufPut h off v).holdRq rq h = s.holdRq rq h := by
  rcases hb : s.buf h with _ | bf
  · simp [State.bufPut, hb]
  · have e := State.buf_setBuf ({ s with freeIx := s.freeIx + (off - bf.bytes.length) } : State) h h
      (some (bf.withBytes off v fun j => Config.freeByte (s.freeIx + j)))
    rw [if_pos rfl] at e
    rw [State.bufPut_some hb, State.holdRq, e, State.holdRq, hb]
    rfl

theorem State.bufPut_thrOwner (s : State) (h off : Nat) (v : Bytes) (i : Nat) : (s.bufPut h off v).thrOwner i = s.thrOwner i := by
  rcases hb : s.buf h with _ | bf
  · simp [State.bufPut, hb]
  · rw [State.bufPut_some hb]
    rfl

theorem State.bufPut_ownerOfPort (s : State) (h off : Nat) (v : Bytes) (e : Nat) : (s.bufPut h off v).ownerOfPort e = s.ownerOfPort e := by
  rcases hb : s.buf h with _ | bf
  · simp [State.bufPut, hb]
  · rw [State.bufPut_some hb]
    rfl

theorem State.bufPut_thr (s : State) (h off : Nat) (v : Bytes) (i : Nat) : (s.bufPut h off v).thr i = s.thr i := by
  rcases hb : s.buf h with _ | bf
  · simp [State.bufPut, hb]
  · rw [State.bufPut_some hb]
    rfl

/-- The frame that BSEND reads, with its checksum, back in its buffer (R462). -/
def State.fcsPut (s : State) (h n : Nat) (bs : Bytes) (bf : Buf) : State :=
  s.bufPut h (min bf.bytes.length n) ((withFcs bs).drop (min bf.bytes.length n))

theorem State.fcsPut_buf (hb : sr.bufBytesAt k 0 i = (bs, s1)) (hbuf : sr.buf k = some bf) :
    ∃ bf', (s1.fcsPut k i bs bf).buf k = some bf' ∧ bf'.bytes = withFcs bs ++ bf.bytes.drop (i + 4) := by
  obtain ⟨hlen, hbytes⟩ := State.bufBytesAt_bytes hb hbuf
  have h1 : s1.buf k = some bf := by rw [State.bufBytesAt_state hb]; exact hbuf
  refine ⟨bf.withBytes (min bf.bytes.length i) ((withFcs bs).drop (min bf.bytes.length i)) fun j => Config.freeByte (s1.freeIx + j), ?_, ?_⟩
  · rw [State.fcsPut, State.bufPut_some h1, State.buf_setBuf, if_pos rfl]
  · refine bf.withBytes_frame _ (bs := bs) ?_ ?_ hbytes
    · simp [withFcs, length_natLE, hlen]
    · rw [withFcs, List.take_append_of_le_length (by omega), ← hlen, List.take_length]

theorem State.ostBsend_sends (ht : t < 512) (hi : iFn w % 4 = i) (ha : (s.thr t).reg (iRa w) = a) (hb : (s.thr t).reg (iRb w) = b)
    (hs : (s.thr t).slot i = some x) (hf : s.foreignBuf (s.thrOwner t) x.handle = false) (hl : 64 ≤ a.toNat)
    (hh : a.toNat ≤ s.handleBytes x.handle) (hr : s.readBuf x.handle 0 a.toNat = (false, sr))
    (hbs : sr.bufBytesAt x.handle 0 (a.toNat - 4) = (bs, s1)) (hbuf : sr.buf x.handle = some bf) :
    s.ostBsend t w = ((s1.fcsPut x.handle (a.toNat - 4) bs bf).setSlot t i none).bsent t (s.thrOwner t) (b.toNat % 2 ^ 10) (b.toNat / 2 ^ 16 % 16)
      { kind := .injected, handle := x.handle, rq := s.holdRq (s.thrRq t) x.handle, port := 1024, len := a.toNat, win := bs.take 512 } := by
  have hn : ¬ (a.toNat < 64 ∨ s.handleBytes x.handle < a.toNat) := by omega
  have he : Errs s sr := by have := s.readBuf_errs x.handle 0 a.toNat; rwa [hr] at this
  have h1 : s1.buf x.handle = some bf := by rw [State.bufBytesAt_state hbs]; exact hbuf
  have hq : (s1.fcsPut x.handle (a.toNat - 4) bs bf).holdRq ((s1.fcsPut x.handle (a.toNat - 4) bs bf).thrRq t) x.handle =
      s.holdRq (s.thrRq t) x.handle := by
    rw [State.fcsPut, State.bufPut_holdRq, State.thrRq, State.bufPut_thrOwner, State.bufBytesAt_state hbs]
    exact (he.holdRq ..).trans (by rw [State.thrRq]; exact congrArg (fun n => s.holdRq (rqCode n _) _) (he.thrOwner ht))
  rw [← hq]
  simp only [State.ostBsend, hi, ha, hb, State.ostOwnSlot_own hs hf, hn, if_false, hr, hbs, h1, Option.map_some, Option.getD_some]
  rfl

end

section
variable {s u s1 : State} {w : Word} {i : Nat} {x : HSlot} {k : Nat} {a : Word} {bf : Buf}

/-! ### HPUT and HTAKE -/

theorem State.ostHput_full {t : Nat} (hi : iFn w % 4 = i) (hs : (s.thr t).slot i = some x) :
    s.ostHput t w = (s.setSlot t i none).ostRd t (iRd w) (BitVec.ofNat 32 x.handle) := by
  simp only [State.ostHput, hi, State.ostSlot_full hs]

theorem State.ostHtake_own {t h : Nat} (hi : iFn w % 4 = i) (hs : (s.thr t).slot i = none) (hh : ((s.thr t).reg (iRa w)).toNat % 2 ^ 24 = h)
    (hok : s.handleOk h = true) (hown : ∀ bf r, s.buf h = some bf → bf.primary = some r → s.rqOwner r = s.thrOwner t) :
    s.ostHtake t w = (s.setSlot t i (some { handle := h, hold := false })).ostOn t := by
  have hf : ((s.buf h).any fun b => b.primary.any fun r => decide (s.rqOwner r ≠ s.thrOwner t)) = false := by
    rcases hb : s.buf h with _ | bf
    · rfl
    · rcases hp : bf.primary with _ | r
      · simp [hp]
      · simp [hp, hown bf r hb hp]
  simp only [State.ostHtake, hi, hh, State.ostEmpty_empty hs, hf, hok, Bool.not_true, Bool.or_false, Bool.false_eq_true, if_false]

/-! ### BST -/

theorem State.ostWait_bpm (s : State) (t : Nat) (rd : Option Nat) (v : Word) : (s.ostWait t rd v).bpm = s.bpm := (s.ostWait_goes t rd v).bpm

theorem State.ostWait_st (s : State) (t : Nat) (rd : Option Nat) (v : Word) : ((s.ostWait t rd v).thr t).st = 4 := by
  rw [(s.ostWait_goes t rd v).thread]

theorem State.ostWait_pc (s : State) (t : Nat) (rd : Option Nat) (v : Word) :
    ((s.ostWait t rd v).thr t).pc = ((s.thr t).pc + 1) % 65536 := by
  rw [(s.ostWait_goes t rd v).thread]

/-- The size codes that an instruction of a good form carries are of 4, 2 and 1 bytes. -/
theorem size_cases (ho : iOp w = 0x3C) (hb : ostBadField w = false) (hk : 4 / 2 ^ (w.toNat / 4 % 4) = k) : k = 1 ∨ k = 2 ∨ k = 4 := by
  have h3 : w.toNat / 4 % 4 ≠ 3 := by
    rw [← iFn_size]
    simp only [ostBadField, Bool.or_eq_false_iff, Bool.and_eq_false_imp, decide_eq_true_eq, decide_eq_false_iff_not] at hb
    exact hb.2 (.inr ho)
  have h4 : w.toNat / 4 % 4 < 4 := Nat.mod_lt _ (by decide)
  generalize w.toNat / 4 % 4 = c at *
  interval_cases c
  · exact .inr (.inr hk.symm)
  · exact .inr (.inl hk.symm)
  · exact .inl hk.symm
  · exact absurd rfl h3

/-- A store of `k` bytes into a buffer (R462). -/
theorem State.bufPut_stored {h off v : Nat} (hb : s.buf h = some bf) (hk : k = 1 ∨ k = 2 ∨ k = 4) (ha : off % k = 0) :
    ∃ bf', (s.bufPut h off (natLE k v)).buf h = some bf' ∧
      (∀ j, j < k → byteAt bf'.bytes (off + j) = BitVec.ofNat 8 (v / 256 ^ j)) ∧
      (∀ j, j < bf.bytes.length → (j < off ∨ off + k ≤ j) → byteAt bf'.bytes j = byteAt bf.bytes j) ∧
      bf'.flips = bf.flips.filter fun f => !decide (f / 128 = off / 16) := by
  refine ⟨bf.withBytes off (natLE k v) fun j => Config.freeByte (s.freeIx + j), ?_, ?_, ?_, ?_⟩
  · rw [State.bufPut_some hb, State.buf_setBuf, if_pos rfl]
  · intro j hj
    rw [bf.withBytes_inside _ _ _ (by rwa [length_natLE]), byteAt_natLE v hj]
  · intro j hj ho
    exact bf.withBytes_outside _ _ _ hj (by rwa [length_natLE])
  · exact bf.withBytes_flips _ (length_natLE ..) hk ha

theorem State.bufPut_others {h off : Nat} {v : Bytes} {m : Nat} (hm : m ≠ h) : (s.bufPut h off v).buf m = s.buf m := by
  rcases hb : s.buf h with _ | bf
  · simp [State.bufPut, hb]
  · rw [State.bufPut_some hb, State.buf_setBuf, if_neg hm]
    rfl

theorem State.bufPut_none {h off : Nat} {v : Bytes} (hb : s.buf h = none) : s.bufPut h off v = s := by
  simp [State.bufPut, hb]

end

theorem Thr.setR_smp (q : Thr) (y : Option Smp) (r : Nat) (v : Word) : { q with smp := y }.setR r v = { q.setR r v with smp := y } := by
  unfold Thr.setR
  split <;> rfl

section
variable {t : ThreadNo} {s : State} {w a : Word} {i : Nat} {x : HSlot} (h : s.Issues t w)
include h

/-- An instruction that needs an empty slot faults on a full one (R461). -/
theorem exec_fullSlot {c : Instr}
    (hc : (c = Instr.ostXget t ∧ iOp w = 0x38) ∨ (c = .ostBalloc t ∧ iOp w = 0x39) ∨ (c = .ostHtake t ∧ iOp w = 0x3E ∧ nbit w.toNat 4 = true))
    (hs : (s.thr t).slot (w.toNat % 4) = some x) :
    exec c s = .next ((s.issued t w).thrFault t 9 (BitVec.ofNat 32 (w.toNat % 4))) := by
  have hs := (s.issued_slot t w _).trans hs
  rcases hc with ⟨rfl, ho⟩ | ⟨rfl, ho⟩ | ⟨rfl, ho, hb⟩
  · rw [exec_ostXget h ho, State.ostXget, iImm_slot, State.ostEmpty_full hs]
  · rw [exec_ostBalloc h ho, State.ostBalloc, iImm_slot, State.ostEmpty_full hs]
  · rw [exec_ostHtake h ho hb, State.ostHtake, iFn_slot, State.ostEmpty_full hs]

/-- An instruction that needs a full slot faults on an empty one (R461). -/
theorem exec_emptySlot {c : Instr}
    (hc : (c = Instr.ostBfree t ∧ iOp w = 0x3A) ∨ (c = .ostBld t ∧ iOp w = 0x3B) ∨ (c = .ostBst t ∧ iOp w = 0x3C) ∨
      (c = .ostBsend t ∧ iOp w = 0x3D) ∨ (c = .ostHput t ∧ iOp w = 0x3E ∧ nbit w.toNat 4 = false))
    (hs : (s.thr t).slot (w.toNat % 4) = none) :
    exec c s = .next ((s.issued t w).thrFault t 9 (BitVec.ofNat 32 (w.toNat % 4))) := by
  have hs := (s.issued_slot t w _).trans hs
  rcases hc with ⟨rfl, ho⟩ | ⟨rfl, ho⟩ | ⟨rfl, ho⟩ | ⟨rfl, ho⟩ | ⟨rfl, ho, hb⟩
  · rw [exec_ostBfree h ho, State.ostBfree, iImm_slot, State.ostSlot_empty hs]
  · rw [exec_ostBld h ho, State.ostBld, iFn_slot, State.ostOwnSlot_empty hs]
  · rw [exec_ostBst h ho, State.ostBst, iFn_slot, State.ostOwnSlot_empty hs]
  · rw [exec_ostBsend h ho, State.ostBsend, iFn_slot, State.ostOwnSlot_empty hs]
  · rw [exec_ostHput h ho hb, State.ostHput, iFn_slot, State.ostSlot_empty hs]

/-- No frame of another owner can be reached (R47). -/
theorem exec_foreignSlot {c : Instr}
    (hc : (c = Instr.ostBld t ∧ iOp w = 0x3B) ∨ (c = .ostBst t ∧ iOp w = 0x3C) ∨ (c = .ostBsend t ∧ iOp w = 0x3D))
    (hs : (s.thr t).slot (w.toNat % 4) = some x) (hf : s.foreignBuf (s.thrOwner t) x.handle = true) :
    exec c s = .next ((s.issued t w).thrFault t 9 (BitVec.ofNat 32 (w.toNat % 4))) := by
  have hs := (s.issued_slot t w _).trans hs
  have hf : (s.issued t w).foreignBuf ((s.issued t w).thrOwner t) x.handle = true := by simpa using hf
  rcases hc with ⟨rfl, ho⟩ | ⟨rfl, ho⟩ | ⟨rfl, ho⟩
  · rw [exec_ostBld h ho, State.ostBld, iFn_slot, State.ostOwnSlot_foreign hs hf]
  · rw [exec_ostBst h ho, State.ostBst, iFn_slot, State.ostOwnSlot_foreign hs hf]
  · rw [exec_ostBsend h ho, State.ostBsend, iFn_slot, State.ostOwnSlot_foreign hs hf]

/-! ### XGET -/

theorem exec_xget_none (ho : iOp w = 0x38) (hs : (s.thr t).slot (w.toNat % 4) = none) (hq : s.excQ (s.thrOwner t) (t.val / 128) = []) :
    ∃ u : State, exec (.ostXget t) s = .next u ∧ u.ost.data = s.ost.data ∧
      Ran t { (s.thr t).setR (iRd w) 0 with pc := ((s.thr t).pc + 1) % 65536 } s u := by
  have g := (s.issued_goes t w).trans t.isLt ((s.issued t w).ostRd_goes t.isLt (iRd w) 0)
  refine ⟨_, by rw [exec_ostXget h ho, State.ostXget_none (iImm_slot w) (by simpa using hs) (by simpa [thrCluster] using hq)], g.data, ?_⟩
  exact { g.toRan with thread := by rw [g.thread, State.issued_thr, Thr.setR_smp] }

theorem exec_xget_some (ho : iOp w = 0x38) (hs : (s.thr t).slot (w.toNat % 4) = none) {y : ExcCopy} {rest : List ExcCopy}
    (hq : s.excQ (s.thrOwner t) (t.val / 128) = y :: rest) :
    ∃ u : State, exec (.ostXget t) s = .next u ∧ u.excQ (s.thrOwner t) (t.val / 128) = rest ∧
      (u.thr t).slot (w.toNat % 4) = some { handle := y.handle, hdr := some y.hdr } ∧
      (iRd w ≠ 16 → (u.thr t).reg (iRd w) = BitVec.ofNat 32 (2 ^ 31 + y.handle)) ∧ (u.thr t).pc = ((s.thr t).pc + 1) % 65536 ∧
      u.cnt (C.OST_EXC_TAKEN (s.thrOwner t)) = min (s.cnt (C.OST_EXC_TAKEN (s.thrOwner t)) + 1) (2 ^ 48 - 1) := by
  have g := ((s.issued t w).xgot t (w.toNat % 4) y rest).ostRd_goes t.isLt (iRd w) (BitVec.ofNat 32 (2 ^ 31 + y.handle))
  have hn := s.issued_thrOwner t w t
  refine ⟨_, by rw [exec_ostXget h ho, State.ostXget_some (iImm_slot w) (by simpa using hs) (by simpa [thrCluster] using hq)], ?_, ?_, ?_, ?_, ?_⟩
  · rw [g.excQ, ← hn]
    exact State.xgot_excQ ..
  · rw [State.ostRd_slot t.isLt, State.xgot_slot]
  · exact State.ostRd_reg t.isLt _ _
  · rw [State.ostRd_pc t.isLt, State.xgot_pc, State.issued_pc]
  · rw [← hn, State.ostXget_cnt t.isLt, State.issued_cnt]

/-! ### HPUT and HTAKE -/

theorem exec_hput (ho : iOp w = 0x3E) (hb : nbit w.toNat 4 = false) (hs : (s.thr t).slot (w.toNat % 4) = some x) :
    ∃ u : State, exec (.ostHput t) s = .next u ∧ u.bpm = s.bpm ∧ (u.thr t).slot (w.toNat % 4) = none ∧
      (∀ j, j ≠ w.toNat % 4 → (u.thr t).slot j = (s.thr t).slot j) ∧ (iRd w ≠ 16 → (u.thr t).reg (iRd w) = BitVec.ofNat 32 x.handle) ∧
      (u.thr t).pc = ((s.thr t).pc + 1) % 65536 := by
  refine ⟨_, by rw [exec_ostHput h ho hb, State.ostHput_full (iFn_slot w) ((s.issued_slot t w _).trans hs)], ?_, ?_, ?_, ?_, ?_⟩
  · rw [(State.ostRd_goes t.isLt _ _ _).bpm, State.setSlot_bpm, State.issued_bpm]
  · rw [State.ostRd_slot t.isLt, State.slot_setSlot, if_pos rfl]
  · intro j hj
    rw [State.ostRd_slot t.isLt, State.slot_setSlot, if_neg hj, State.issued_slot]
  · exact State.ostRd_reg t.isLt _ _
  · rw [State.ostRd_pc t.isLt, State.pc_setSlot, State.issued_pc]

theorem exec_htake (ho : iOp w = 0x3E) (hb : nbit w.toNat 4 = true) (hs : (s.thr t).slot (w.toNat % 4) = none) {k : Nat}
    (hk : ((s.thr t).reg (iRa w)).toNat % 2 ^ 24 = k) (hok : s.handleOk k = true)
    (hown : ∀ bf r, s.buf k = some bf → bf.primary = some r → s.rqOwner r = s.thrOwner t) :
    ∃ u : State, exec (.ostHtake t) s = .next u ∧ u.bpm = s.bpm ∧ (u.thr t).slot (w.toNat % 4) = some { handle := k, hold := false } ∧
      (∀ j, j ≠ w.toNat % 4 → (u.thr t).slot j = (s.thr t).slot j) ∧ (u.thr t).pc = ((s.thr t).pc + 1) % 65536 := by
  have g := State.ostTo_goes t.isLt ((s.issued t w).setSlot t (w.toNat % 4) (some { handle := k, hold := false }))
    ((((s.issued t w).setSlot t (w.toNat % 4) (some { handle := k, hold := false })).thr t).pc + 1)
  refine ⟨_, by rw [exec_ostHtake h ho hb, State.ostHtake_own (iFn_slot w) ((s.issued_slot t w _).trans hs) (by simpa using hk)
    (by simpa using hok) (by simpa using hown)], ?_, ?_, ?_, ?_⟩
  · rw [State.ostOn, g.bpm, State.setSlot_bpm, State.issued_bpm]
  · rw [State.ostOn, g.thread]
    exact (State.slot_setSlot ..).trans (if_pos rfl)
  · intro j hj
    rw [State.ostOn, g.thread]
    exact ((State.slot_setSlot ..).trans (if_neg hj)).trans (State.issued_slot ..)
  · rw [State.ostOn, g.thread, State.pc_setSlot, State.issued_pc]

end

section
section
variable {t : ThreadNo} {s s1 s2 sr : State} {w : Word} {x : HSlot} {k : Nat} {bf : Buf} (h : s.Issues t w)
include h

/-! ### BALLOC and BFREE -/

theorem exec_balloc_badLen (ho : iOp w = 0x39) (hs : (s.thr t).slot (w.toNat % 4) = none)
    (hl : (s.thr t).reg (iRa w) = 0 ∨ 10240 < ((s.thr t).reg (iRa w)).toNat) :
    exec (.ostBalloc t) s = .next ((s.issued t w).ostRd t (iRd w) 5) := by
  rw [exec_ostBalloc h ho, State.ostBalloc_badLen (iImm_slot w) ((s.issued_slot t w _).trans hs) (s.issued_thrReg t w _) hl]

theorem exec_balloc (ho : iOp w = 0x39) (hs : (s.thr t).slot (w.toNat % 4) = none) (h0 : (s.thr t).reg (iRa w) ≠ 0)
    (hl : ((s.thr t).reg (iRa w)).toNat ≤ 10240) {ans : BpmAns}
    (hb : (s.issued t w).bpmAlloc (rqCode (s.thrOwner t) (t.val / 128)) ((s.thr t).reg (iRa w)).toNat [] = (ans, s1)) :
    exec (.ostBalloc t) s = .next (s1.balloced t (w.toNat % 4) (iRd w) ans) := by
  rw [exec_ostBalloc h ho, State.ostBalloc_alloc (iImm_slot w) ((s.issued_slot t w _).trans hs) (s.issued_thrReg t w _) h0 hl]
  rwa [State.thrRq, State.issued_thrOwner]

theorem exec_bfree (ho : iOp w = 0x3A) (hs : (s.thr t).slot (w.toNat % 4) = some x) :
    exec (.ostBfree t) s = .next (
      if (s.buf x.handle).isSome && !s.foreignBuf (s.thrOwner t) x.handle then
        (((s.issued t w).setSlot t (w.toNat % 4) none).ostRelease (rqCode (s.thrOwner t) (t.val / 128)) x.handle).ostRd t (iRd w) 0
      else (((s.issued t w).setSlot t (w.toNat % 4) none).bpmDoubleFree (rqCode (s.thrOwner t) (t.val / 128)) x.handle).ostRd t (iRd w) 1) := by
  rw [exec_ostBfree h ho, State.ostBfree_full (iImm_slot w) ((s.issued_slot t w _).trans hs), State.issued_buf, State.issued_thrOwner,
    State.issued_foreignBuf, State.thrRq, State.issued_thrOwner]
  rfl

variable (hs : (s.thr t).slot (w.toNat % 4) = some x) (hf : s.foreignBuf (s.thrOwner t) x.handle = false)
include hs hf

/-! ### BLD -/

section
variable (ho : iOp w = 0x3B) (hk : k = 4 / 2 ^ (w.toNat / 4 % 4))
include ho hk

theorem exec_bld : exec (.ostBld t) s = .next (
    if ((s.thr t).reg (iRa w)).toNat % k ≠ 0 then (s.issued t w).thrFault t 6 ((s.thr t).reg (iRa w))
    else if 16320 ≤ ((s.thr t).reg (iRa w)).toNat ∧ ((s.thr t).reg (iRa w)).toNat < 16384 ∧ x.hdr.isSome then
      (s.issued t w).ostWait t (some (iRd w)) (BitVec.ofNat 32 (leNat (slice (x.hdr.getD []) (((s.thr t).reg (iRa w)).toNat - 16320) k)))
    else if s.handleBytes x.handle ≤ ((s.thr t).reg (iRa w)).toNat then (s.issued t w).thrFault t 10 ((s.thr t).reg (iRa w))
    else if ((s.issued t w).readBuf x.handle ((s.thr t).reg (iRa w)).toNat k).1 then
      ((s.issued t w).readBuf x.handle ((s.thr t).reg (iRa w)).toNat k).2.ostBufFail t (w.toNat % 4) x ((s.thr t).reg (iRa w))
    else (((s.issued t w).readBuf x.handle ((s.thr t).reg (iRa w)).toNat k).2.bufBytesAt x.handle ((s.thr t).reg (iRa w)).toNat k).2.ostWait t
      (some (iRd w)) (BitVec.ofNat 32 (leNat
        (((s.issued t w).readBuf x.handle ((s.thr t).reg (iRa w)).toNat k).2.bufBytesAt x.handle ((s.thr t).reg (iRa w)).toNat k).1))) := by
  rw [exec_ostBld h ho, State.ostBld_own (iFn_slot w) (by rw [iFn_size, ← hk]) (s.issued_thrReg t w _) ((s.issued_slot t w _).trans hs)
    (by simpa using hf), State.issued_handleBytes]

theorem exec_bld_header {hd : Bytes} (ha : ((s.thr t).reg (iRa w)).toNat % k = 0) (hl : 16320 ≤ ((s.thr t).reg (iRa w)).toNat)
    (hh : ((s.thr t).reg (iRa w)).toNat < 16384) (hx : x.hdr = some hd) :
    ∃ u : State, exec (.ostBld t) s = .next u ∧ u.ost.data = s.ost.data ∧
      Ran t { s.thr t with
        st := 4, pc := ((s.thr t).pc + 1) % 65536,
        acc := some ⟨some (iRd w), BitVec.ofNat 32 (leNat (slice hd (((s.thr t).reg (iRa w)).toNat - 16320) k))⟩ } s u := by
  have g := (s.issued_goes t w).trans t.isLt ((s.issued t w).ostWait_goes t (some (iRd w))
    (BitVec.ofNat 32 (leNat (slice hd (((s.thr t).reg (iRa w)).toNat - 16320) k))))
  refine ⟨_, by rw [exec_bld h hs hf ho hk, if_neg (by simpa using ha), if_pos ⟨hl, hh, by simp [hx]⟩, hx]; rfl, g.data, ?_⟩
  exact { g.toRan with thread := by rw [g.thread, State.issued_thr] }

end

/-! ### BST -/

section
variable (ho : iOp w = 0x3C) (hk : k = 4 / 2 ^ (w.toNat / 4 % 4))
include ho hk

theorem exec_bst : exec (.ostBst t) s = .next (
    if ((s.thr t).reg (iRa w)).toNat % k ≠ 0 then (s.issued t w).thrFault t 6 ((s.thr t).reg (iRa w))
    else if s.handleBytes x.handle ≤ ((s.thr t).reg (iRa w)).toNat then (s.issued t w).thrFault t 10 ((s.thr t).reg (iRa w))
    else if ((s.issued t w).readBuf x.handle ((s.thr t).reg (iRa w)).toNat k).1 then
      ((s.issued t w).readBuf x.handle ((s.thr t).reg (iRa w)).toNat k).2.ostBufFail t (w.toNat % 4) x ((s.thr t).reg (iRa w))
    else (((s.issued t w).readBuf x.handle ((s.thr t).reg (iRa w)).toNat k).2.bufPut x.handle ((s.thr t).reg (iRa w)).toNat
      (natLE k ((s.thr t).reg (iRd w)).toNat)).ostWait t none 0) := by
  rw [exec_ostBst h ho, State.ostBst_own (iFn_slot w) (by rw [iFn_size, ← hk]) (s.issued_thrReg t w _) ((s.issued_slot t w _).trans hs)
    (by simpa using hf), State.issued_handleBytes, (State.readBuf_errs ..).thr, State.issued_thrReg]

theorem exec_bst_store (ha : ((s.thr t).reg (iRa w)).toNat % k = 0) (hl : ((s.thr t).reg (iRa w)).toNat < s.handleBytes x.handle)
    (hr : (s.issued t w).readBuf x.handle ((s.thr t).reg (iRa w)).toNat k = (false, s1)) :
    exec (.ostBst t) s = .next ((s1.bufPut x.handle ((s.thr t).reg (iRa w)).toNat (natLE k ((s.thr t).reg (iRd w)).toNat)).ostWait t none 0) := by
  rw [exec_bst h hs hf ho hk, if_neg (by simpa using ha), if_neg (by omega), hr]
  rfl

theorem exec_bst_stored (ha : ((s.thr t).reg (iRa w)).toNat % k = 0) (hl : ((s.thr t).reg (iRa w)).toNat < s.handleBytes x.handle)
    (hr : (s.issued t w).readBuf x.handle ((s.thr t).reg (iRa w)).toNat k = (false, s1)) (hb : s1.buf x.handle = some bf) :
    ∃ (u : State) (bf' : Buf), exec (.ostBst t) s = .next u ∧ u.buf x.handle = some bf' ∧
      (∀ j, j < k → byteAt bf'.bytes (((s.thr t).reg (iRa w)).toNat + j) = BitVec.ofNat 8 (((s.thr t).reg (iRd w)).toNat / 256 ^ j)) ∧
      (∀ j, j < bf.bytes.length → (j < ((s.thr t).reg (iRa w)).toNat ∨ ((s.thr t).reg (iRa w)).toNat + k ≤ j) →
        byteAt bf'.bytes j = byteAt bf.bytes j) ∧
      bf'.flips = (bf.flips.filter fun f => !decide (f / 128 = ((s.thr t).reg (iRa w)).toNat / 16)) ∧
      (∀ m, m ≠ x.handle → u.buf m = s1.buf m) ∧ (u.thr t).st = 4 ∧ (u.thr t).pc = ((s.thr t).pc + 1) % 65536 := by
  obtain ⟨bf', hbuf, hin, hout, hflips⟩ :=
    State.bufPut_stored (v := ((s.thr t).reg (iRd w)).toNat) hb (size_cases ho h.fields hk.symm) ha
  have hbpm (s : State) (m : Nat) : (s.ostWait t none 0).buf m = s.buf m := by rw [State.buf, State.ostWait_bpm, State.buf]
  have e1 : s1.thr t = (s.issued t w).thr t := by
    have := (State.readBuf_errs (s.issued t w) x.handle ((s.thr t).reg (iRa w)).toNat k).thr t
    rwa [hr] at this
  refine ⟨_, bf', exec_bst_store h hs hf ho hk ha hl hr, (hbpm ..).trans hbuf, hin, hout, hflips, ?_, State.ostWait_st .., ?_⟩
  · intro m hm
    rw [hbpm, State.bufPut_others hm]
  · rw [State.ostWait_pc, State.bufPut_thr, e1, State.issued_pc]

end

/-! ### BSEND -/

section
variable (ho : iOp w = 0x3D)
include ho

theorem exec_bsend_badLen (hl : ((s.thr t).reg (iRa w)).toNat < 64 ∨ s.handleBytes x.handle < ((s.thr t).reg (iRa w)).toNat) :
    exec (.ostBsend t) s = .next ((s.issued t w).thrFault t 10 ((s.thr t).reg (iRa w))) := by
  rw [exec_ostBsend h ho, State.ostBsend_badLen (iFn_slot w) (s.issued_thrReg t w _) ((s.issued_slot t w _).trans hs) (by simpa using hf)
    (by simpa using hl)]

variable (hl : 64 ≤ ((s.thr t).reg (iRa w)).toNat) (hh : ((s.thr t).reg (iRa w)).toNat ≤ s.handleBytes x.handle)
include hl hh

theorem exec_bsend_badWord (hr : (s.issued t w).readBuf x.handle 0 ((s.thr t).reg (iRa w)).toNat = (true, sr)) :
    exec (.ostBsend t) s = .next (sr.ostBufFail t (w.toNat % 4) x ((s.thr t).reg (iRa w))) := by
  rw [exec_ostBsend h ho, State.ostBsend_badWord (iFn_slot w) (s.issued_thrReg t w _) ((s.issued_slot t w _).trans hs) (by simpa using hf)
    hl (by simpa using hh) hr]

theorem exec_bsend {bs : Bytes} (hr : (s.issued t w).readBuf x.handle 0 ((s.thr t).reg (iRa w)).toNat = (false, sr))
    (hbs : sr.bufBytesAt x.handle 0 (((s.thr t).reg (iRa w)).toNat - 4) = (bs, s1)) (hbuf : sr.buf x.handle = some bf) :
    exec (.ostBsend t) s = .next (((s1.fcsPut x.handle (((s.thr t).reg (iRa w)).toNat - 4) bs bf).setSlot t (w.toNat % 4) none).bsent t
      (s.thrOwner t) (((s.thr t).reg (iRb w)).toNat % 2 ^ 10) (((s.thr t).reg (iRb w)).toNat / 2 ^ 16 % 16)
      { kind := .injected, handle := x.handle, rq := s.holdRq (rqCode (s.thrOwner t) (t.val / 128)) x.handle, port := 1024,
        len := ((s.thr t).reg (iRa w)).toNat, win := bs.take 512 }) := by
  have hq : (s.issued t w).holdRq ((s.issued t w).thrRq t) x.handle = s.holdRq (rqCode (s.thrOwner t) (t.val / 128)) x.handle := by
    rw [State.thrRq, State.issued_thrOwner, State.holdRq, State.issued_buf]
    rfl
  rw [exec_ostBsend h ho, State.ostBsend_sends t.isLt (iFn_slot w) (s.issued_thrReg t w _) (s.issued_thrReg t w _)
    ((s.issued_slot t w _).trans hs) (by simpa using hf) hl (by simpa using hh) hr hbs hbuf, hq, State.issued_thrOwner]

omit h hs hf ho hl hh in
/-- The words of a frame that BSEND reads do not change the owner of a port. -/
theorem sent_ownerOfPort {bs : Bytes} {e n m : Nat} (he : e < 1024) (hr : (s.issued t w).readBuf x.handle 0 n = (false, sr))
    (hbs : sr.bufBytesAt x.handle 0 m = (bs, s1)) :
    ((s1.fcsPut x.handle m bs bf).setSlot t (w.toNat % 4) none).ownerOfPort e = s.ownerOfPort e := by
  have he' : Errs (s.issued t w) sr := by have := (s.issued t w).readBuf_errs x.handle 0 n; rwa [hr] at this
  have e1 : s1.ownerOfPort e = sr.ownerOfPort e := by rw [State.bufBytesAt_state hbs]; rfl
  calc ((s1.fcsPut x.handle m bs bf).setSlot t (w.toNat % 4) none).ownerOfPort e
    _ = s1.ownerOfPort e := State.bufPut_ownerOfPort ..
    _ = (s.issued t w).ownerOfPort e := e1.trans (he'.ownerOfPort he)
    _ = s.ownerOfPort e := State.issued_ownerOfPipe ..

end
end

end

/-- Settles O53, one clause per command: the word issues, the slot is full or empty, and the command's own equation follows. -/
theorem ostlerHandles : Obligations.OstlerHandles := by
  unfold Obligations.OstlerHandles
  rintro t w s s0 q a b i next rq h rfl rfl rfl rfl rfl rfl rfl
  refine ⟨fun c x hc hs => exec_fullSlot h hc hs, fun c hc hs => exec_emptySlot h hc hs,
    fun ho hs => ⟨fun hq => exec_xget_none h ho hs hq, fun x rest hq => exec_xget_some h ho hs hq⟩,
    fun ho hs => ⟨fun hl => exec_balloc_badLen h ho hs hl, fun h0 hl ans s1 hb => ?_⟩, fun x hs => ⟨fun ho => ?_,
      fun c hc hf => exec_foreignSlot h hc hs hf, fun k hk hf => ⟨fun ho => ?_, fun ho => ?_⟩, fun ho hb => exec_hput h ho hb hs,
      fun ho hf hl => exec_bsend_badLen h hs hf ho hl, fun ho hf hl hh sr hr => exec_bsend_badWord h hs hf ho hl hh hr, ?_⟩, ?_⟩
  case refine_1 =>
    have e := exec_balloc h ho hs h0 hl hb
    exact ⟨fun m hm => by subst hm; exact e, fun hm => by subst hm; exact e, fun hm => by subst hm; exact e, fun hm => by subst hm; exact e⟩
  case refine_2 =>
    have e := exec_bfree h ho hs
    refine ⟨fun hb hf => e.trans (by rw [hf, Option.isSome_iff_ne_none.2 hb]; rfl), fun hb => e.trans ?_⟩
    rcases hb with hb | hf
    · rw [hb]
      rfl
    · rw [hf, Bool.not_true, Bool.and_false]
      rfl
  case refine_3 =>
    have e := exec_bld h hs hf ho hk
    refine ⟨fun ha => e.trans (by rw [if_pos ha]), fun hd ha hl hh hx => exec_bld_header h hs hf ho hk ha hl hh hx, fun hw ha => ?_⟩
    have hw : ¬ (16320 ≤ ((s.thr t).reg (iRa w)).toNat ∧ ((s.thr t).reg (iRa w)).toNat < 16384 ∧ x.hdr.isSome) := by
      rintro ⟨h1, h2, h3⟩
      rcases hw with hw | hw | hw
      · omega
      · omega
      · simp [hw] at h3
    rw [if_neg (not_not.2 ha), if_neg hw] at e
    refine ⟨fun hl => e.trans (by rw [if_pos hl]), fun s1 hl hr => e.trans ?_, fun s1 s2 bs hl hr hbs => e.trans ?_⟩
    · rw [if_neg (by omega), hr]
      rfl
    · rw [if_neg (by omega), hr, hbs]
      rfl
  case refine_4 =>
    have e := exec_bst h hs hf ho hk
    refine ⟨fun ha => e.trans (by rw [if_pos ha]), fun ha hl => e.trans (by rw [if_neg (not_not.2 ha), if_pos hl]),
      fun s1 ha hl hr => e.trans (by rw [if_neg (not_not.2 ha), if_neg (by omega), hr]; rfl),
      fun s1 bf ha hl hr hb => exec_bst_stored h hs hf ho hk ha hl hr hb, fun s1 ha hl hr hb => ?_⟩
    rw [exec_bst_store h hs hf ho hk ha hl hr, State.bufPut_none hb]
  case refine_5 =>
    rintro ho hf hl hh sr bs s1 bf e c k s2 hr hbs hbuf rfl rfl rfl rfl
    have hsend := exec_bsend h hs hf ho hl hh hr hbs hbuf
    have hown := sent_ownerOfPort (bf := bf) (e := ((s.thr t).reg (iRb w)).toNat % 2 ^ 10) (Nat.mod_lt _ (by decide)) hr hbs
    refine ⟨?_, fun hn he => hsend.trans ?_, fun he ok s3 hd => hsend.trans ?_⟩
    · have hput := State.fcsPut_buf hbs hbuf
      rwa [Nat.sub_add_cancel (by omega)] at hput
    · exact congrArg Host.Outcome.next (State.bsent_foreign hn (hown.trans_ne he))
    · exact congrArg Host.Outcome.next (State.bsent_own (he.imp_right hown.trans) hd)
  case refine_6 =>
    rintro k ho hb hs rfl hok hown
    exact exec_htake h ho hb hs rfl hok hown

end Sys2Proof.Machine
end

section
/-! SUPPORT. What a Pitch reset, a commit and a device reset must not reach (R66, R69, R531), the registers on the way, and the causes. -/

namespace Sys2Proof.Machine

section

/-! ### The watch -/

/-- What `Calm` watches beside what it always does: the tables, the Ostlers and the flash (`books`), the trim of the time base (`freq`), and
the pipelines (all but those of `moved`). -/
structure Watch where
  books : Prop
  freq : Prop
  moved : Nat → Prop

/-- A pipeline as a clear leaves it: nothing but its image. -/
def PipeSt.Bare (x : PipeSt) : Prop := x = { img := x.img }

/-- The registers of the device and of its clocks, the Pitch map and its commit. -/
def Fixed (a : Nat) : Prop := a < 0x1000 ∨ (0x30000 ≤ a ∧ a < 0x40084)

/-- The registers of which `Calm` watches no field. -/
def Free (a : Nat) : Prop := 0x1000 ≤ a ∧ (a < 0x30000 ∨ 0x40084 ≤ a) ∧ a ≠ 0x80038 ∧ a ≠ 0x80010

/-- No PORT_CTL stands here. -/
def OffPage (a : Nat) : Prop := a < 0x200000 ∨ 0x300000 ≤ a ∨ a % 0x400 ≠ 4

/-- From `s` to `t` the machine stays as it was where a Pitch reset, a commit and a device reset must not reach: the fixed registers, the
pipelines that none of them moves, the time, the fuses, the commit and the Pitches that wait for the end of the cycle; a port that is
disabled stays so. -/
def Calm (w : Watch) (s t : State) : Prop :=
  (∀ a, Fixed a → t.reg a = s.reg a) ∧ t.timeSrc = s.timeSrc ∧ (w.freq → t.reg R.TIME_FREQ = s.reg R.TIME_FREQ) ∧
  (∀ e : PortNo, s.fld (R.PORT_CTL e) F.PORT_CTL.EN = 0 → t.fld (R.PORT_CTL e) F.PORT_CTL.EN = 0) ∧
  (∀ p, (¬ w.moved p → t.pipe p = s.pipe p) ∧ (t.pipe p).img = (s.pipe p).img ∧ ((s.pipe p).Bare → t.pipe p = s.pipe p)) ∧
  (w.books → t.em = s.em ∧ t.ost = s.ost ∧ t.pw.store = s.pw.store) ∧
  (t.fuse = s.fuse ∧ t.t16 = s.t16 ∧ t.time.raw = s.time.raw ∧ t.pw.linkUp = s.pw.linkUp ∧ t.pw.commit = s.pw.commit ∧
    t.irq.pitEnter = s.irq.pitEnter ∧ t.irq.pitLeave = s.irq.pitLeave)

variable {w : Watch} {s₀ s t u : State}

theorem Calm.refl (w : Watch) (s : State) : Calm w s s :=
  ⟨fun _ _ => rfl, rfl, fun _ => rfl, fun _ h => h, fun _ => ⟨fun _ => rfl, rfl, fun _ => rfl⟩, fun _ => ⟨rfl, rfl, rfl⟩,
    rfl, rfl, rfl, rfl, rfl, rfl, rfl⟩

theorem Calm.trans (h : Calm w s t) (k : Calm w t u) : Calm w s u := by
  obtain ⟨hreg, hsrc, hfreq, hen, hpipe, hbook, hfuse, ht, hraw, hlink, hcom, hent, hlea⟩ := h
  obtain ⟨kreg, ksrc, kfreq, ken, kpipe, kbook, kfuse, kt, kraw, klink, kcom, kent, klea⟩ := k
  refine ⟨fun a ha => (kreg a ha).trans (hreg a ha), ksrc.trans hsrc, fun hw => (kfreq hw).trans (hfreq hw), fun e he => ken e (hen e he),
    fun p => ?_, fun hw => ?_, kfuse.trans hfuse, kt.trans ht, kraw.trans hraw, klink.trans hlink, kcom.trans hcom, kent.trans hent,
    klea.trans hlea⟩
  · obtain ⟨h1, h2, h3⟩ := hpipe p
    obtain ⟨k1, k2, k3⟩ := kpipe p
    exact ⟨fun hp => (k1 hp).trans (h1 hp), k2.trans h2, fun hb => (k3 (by rwa [h3 hb])).trans (h3 hb)⟩
  · obtain ⟨h1, h2, h3⟩ := hbook hw
    obtain ⟨k1, k2, k3⟩ := kbook hw
    exact ⟨k1.trans h1, k2.trans h2, k3.trans h3⟩

theorem Calm.ite {c : Prop} [Decidable c] (ht : Calm w s t) (hu : Calm w s u) : Calm w s (if c then t else u) := by
  split <;> assumption

theorem Calm.snd {α : Type} {p : α × State} {a : α} (e : p = (a, t)) (h : Calm w s p.2) : Calm w s t := by rwa [e] at h

theorem Calm.foldl {α : Type} {f : State → α → State} {l : List α} (h : Calm w s₀ s) (hf : ∀ t, ∀ x ∈ l, Calm w s₀ t → Calm w s₀ (f t x)) :
    Calm w s₀ (l.foldl f s) := by
  induction l generalizing s with
  | nil => exact h
  | cons x l ih => exact ih (hf s x (by simp) h) fun t y hy => hf t y (by simp [hy])

theorem Calm.reg (h : Calm w s t) {a : Nat} (ha : Fixed a) : t.reg a = s.reg a := h.1 a ha

theorem Calm.fld (h : Calm w s t) {a : Nat} (ha : Fixed a) (f : Fld) : t.fld a f = s.fld a f := State.fld_of_reg (h.reg ha)

theorem Calm.bit (h : Calm w s t) {a : Nat} (ha : Fixed a) (f : Fld) : t.bit a f = s.bit a f := State.bit_of_reg (h.reg ha)

theorem Calm.timeSrc (h : Calm w s t) : t.timeSrc = s.timeSrc := h.2.1

theorem Calm.portCtl (h : Calm w s t) (e : PortNo) (he : s.fld (R.PORT_CTL e) F.PORT_CTL.EN = 0) :
    t.fld (R.PORT_CTL e) F.PORT_CTL.EN = 0 := h.2.2.2.1 e he

theorem Calm.pipe (h : Calm w s t) {p : Nat} (hp : ¬ w.moved p) : t.pipe p = s.pipe p := (h.2.2.2.2.1 p).1 hp

theorem Calm.img (h : Calm w s t) (p : Nat) : (t.pipe p).img = (s.pipe p).img := (h.2.2.2.2.1 p).2.1

theorem Calm.pipe_of_bare (h : Calm w s t) {p : Nat} (hb : (s.pipe p).Bare) : t.pipe p = s.pipe p := (h.2.2.2.2.1 p).2.2 hb

theorem Calm.bare (h : Calm w s t) {p : Nat} (hb : (s.pipe p).Bare) : (t.pipe p).Bare := by rwa [h.pipe_of_bare hb]

theorem Calm.books (h : Calm w s t) (hw : w.books) : t.em = s.em ∧ t.ost = s.ost ∧ t.pw.store = s.pw.store := h.2.2.2.2.2.1 hw

theorem Calm.commit (h : Calm w s t) : t.pw.commit = s.pw.commit := h.2.2.2.2.2.2.2.2.2.2.1

theorem Calm.enter (h : Calm w s t) : t.irq.pitEnter = s.irq.pitEnter := h.2.2.2.2.2.2.2.2.2.2.2.1

theorem Calm.leave (h : Calm w s t) : t.irq.pitLeave = s.irq.pitLeave := h.2.2.2.2.2.2.2.2.2.2.2.2

theorem fixed_pitMap {p : Nat} (hp : p < 16) : Fixed (R.PIT_MAP p) := by unfold Fixed R.PIT_MAP; omega

theorem Calm.ownerOfPipe (h : Calm w s t) {p : Nat} (hp : p < 16) : t.ownerOfPipe p = s.ownerOfPipe p := h.fld (fixed_pitMap hp) _

theorem Calm.pipesOf (h : Calm w s t) (n : Nat) : t.pipesOf n = s.pipesOf n := by
  unfold State.pipesOf
  refine List.filter_congr fun p hp => ?_
  rw [h.ownerOfPipe (List.mem_range.1 hp)]

/-! ### One register -/

theorem fldOf_putFld_en {v : Word} {f : Fld} {n : Nat} (hf : f.lo + f.w ≤ 31) : fldOf (putFld v f n) F.PORT_CTL.EN = fldOf v F.PORT_CTL.EN :=
  fldOf_putFld_ne _ _ _ _ (by omega) (.inr hf)

/-- A register of which nothing is watched takes a value that enables no port. -/
theorem Calm.setReg {a : Nat} {v : Word} (h : Calm w s₀ s) (ha : Free a)
    (hv : OffPage a ∨ (fldOf (s.reg a) F.PORT_CTL.EN = 0 → fldOf v F.PORT_CTL.EN = 0)) : Calm w s₀ (s.setReg a v) := by
  obtain ⟨h1, h2, h3, h4⟩ := ha
  refine h.trans ⟨fun b hb => ?_, ?_, fun _ => ?_, fun e he => ?_, fun _ => ⟨fun _ => rfl, rfl, fun _ => rfl⟩, fun _ => ⟨rfl, rfl, rfl⟩,
    rfl, rfl, rfl, rfl, rfl, rfl, rfl⟩
  · exact State.reg_setReg_ne _ _ _ _ (by unfold Fixed at hb; omega)
  · exact State.fld_setReg_ne _ _ _ _ _ (by unfold R.TIME_STATUS; omega)
  · exact State.reg_setReg_ne _ _ _ _ (by unfold R.TIME_FREQ; omega)
  · by_cases hea : R.PORT_CTL e = a
    · have hp : ¬ OffPage a := by subst hea; unfold OffPage R.PORT_CTL; omega
      subst hea
      rw [State.fld_setReg]
      exact hv.resolve_left hp he
    · rwa [State.fld_setReg_ne _ _ _ _ _ hea]

theorem State.setReg_calm {a : Nat} {v : Word} (h : Calm w s₀ s) (ha : Free a) (hv : OffPage a) : Calm w s₀ (s.setReg a v) :=
  h.setReg ha (.inl hv)

theorem State.zeroReg_calm {a : Nat} (h : Calm w s₀ s) (ha : Free a) : Calm w s₀ (s.setReg a 0) :=
  h.setReg ha (.inr fun _ => by decide)

theorem State.setFld_calm {a : Nat} {f : Fld} {v : Nat} (h : Calm w s₀ s) (ha : Free a) (hf : f.lo + f.w ≤ 31) : Calm w s₀ (s.setFld a f v) :=
  h.setReg ha (.inr fun h0 => by rwa [fldOf_putFld_en hf])

theorem State.setTopFld_calm {a : Nat} {f : Fld} {v : Nat} (h : Calm w s₀ s) (ha : Free a) (hv : OffPage a) : Calm w s₀ (s.setFld a f v) :=
  h.setReg ha (.inl hv)

theorem State.setBit_calm {a : Nat} {f : Fld} {b : Bool} (h : Calm w s₀ s) (ha : Free a) (hf : f.lo + f.w ≤ 31) : Calm w s₀ (s.setBit a f b) :=
  State.setFld_calm h ha hf

theorem State.setTopBit_calm {a : Nat} {f : Fld} {b : Bool} (h : Calm w s₀ s) (ha : Free a) (hv : OffPage a) : Calm w s₀ (s.setBit a f b) :=
  State.setTopFld_calm h ha hv

/-- Bit 31 of a register ends. -/
theorem State.clearTopBit_calm {a : Nat} (h : Calm w s₀ s) (ha : Free a) : Calm w s₀ (s.setBit a ⟨31, 1⟩ false) :=
  h.setReg ha (.inr fun _ => fldOf_putFld _ _ _ (by decide))

theorem resetValue_portCtl (e : PortNo) : fldOf (resetValue (R.PORT_CTL e)) F.PORT_CTL.EN = 0 := by
  have hw : windowOf (R.PORT_CTL e) = R.PORT_CTL e := if_pos (by unfold R.PORT_CTL; omega)
  unfold resetValue
  rw [hw, findReg_PORT_CTL e e.isLt]
  exact (by decide : fldOf (BitVec.ofNat 32 10240) F.PORT_CTL.EN = 0)

/-- A register takes its reset value, which enables no port. -/
theorem State.resetReg_calm {a : Nat} (h : Calm w s₀ s) (ha : Free a) : Calm w s₀ (s.resetReg a) := by
  by_cases he : ∃ e : PortNo, a = R.PORT_CTL e
  · obtain ⟨e, rfl⟩ := he
    exact h.setReg ha (.inr fun _ => resetValue_portCtl e)
  · refine h.setReg ha (.inl ?_)
    by_contra hp
    refine he ⟨⟨(a - 0x200000) / 0x400, by unfold OffPage at hp; omega⟩, ?_⟩
    unfold OffPage at hp
    unfold R.PORT_CTL
    dsimp only
    omega

theorem SMap.get_drop {α : Type} (d : Nat → α) (m : SMap α) (p : Nat → Bool) (k : Nat) :
    SMap.get d (SMap.drop m p) k = if p k then d k else SMap.get d m k := by
  induction m with
  | nil => simp [SMap.drop, SMap.get]
  | cons e m ih =>
    unfold SMap.drop at ih ⊢
    simp only [List.filter_cons, SMap.get]
    by_cases hk : k = e.1
    · subst hk
      by_cases hp : p e.1 <;> simp_all [SMap.get]
    · by_cases hp : p e.1 <;> simp_all [SMap.get]

/-- Registers of which nothing is watched take their reset values. -/
theorem Calm.drop {p : Nat → Bool} (h : Calm w s₀ s) (hp : ∀ a, p a = true → Free a) :
    Calm w s₀ { s with regs := SMap.drop s.regs p } := by
  have hreg : ∀ a, State.reg { s with regs := SMap.drop s.regs p } a = if p a then resetValue a else s.reg a := fun a =>
    SMap.get_drop resetValue s.regs p a
  have hsame : ∀ a, ¬ Free a → State.reg { s with regs := SMap.drop s.regs p } a = s.reg a := fun a ha => by
    rw [hreg, if_neg fun h => ha (hp a h)]
  refine h.trans ⟨fun a ha => hsame a ?_, State.fld_of_reg (hsame _ ?_), fun _ => hsame _ ?_, fun e he => ?_,
    fun _ => ⟨fun _ => rfl, rfl, fun _ => rfl⟩, fun _ => ⟨rfl, rfl, rfl⟩, rfl, rfl, rfl, rfl, rfl, rfl, rfl⟩
  · unfold Fixed at ha
    unfold Free
    omega
  · unfold Free R.TIME_STATUS
    omega
  · unfold Free R.TIME_FREQ
    omega
  · unfold State.fld at he ⊢
    rw [hreg]
    split
    · exact resetValue_portCtl e
    · exact he

end

section

/-! ### The start of a cause -/

/-- From `s` to `t` the Pitches that wait for the end of the fabric cycle stay. -/
structure KeepsPit (s t : State) : Prop where
  enter : t.irq.pitEnter = s.irq.pitEnter
  leave : t.irq.pitLeave = s.irq.pitLeave

variable {w : Watch} {s₀ s t u : State} {n m : Nat} {a : Nat} {f : Fld}

theorem KeepsPit.refl (s : State) : KeepsPit s s := ⟨rfl, rfl⟩

theorem KeepsPit.trans (h : KeepsPit s t) (k : KeepsPit t u) : KeepsPit s u := ⟨k.enter.trans h.enter, k.leave.trans h.leave⟩

theorem KeepsPit.ite {c : Prop} [Decidable c] (ht : KeepsPit s t) (hu : KeepsPit s u) : KeepsPit s (if c then t else u) := by
  split <;> assumption

theorem KeepsPit.foldl {α : Type} {f : State → α → State} (l : List α) (hf : ∀ s x, KeepsPit s (f s x)) (s : State) :
    KeepsPit s (l.foldl f s) := by
  induction l generalizing s with
  | nil => exact .refl s
  | cons x l ih => exact (hf s x).trans (ih _)

theorem State.setReg_keepsPit (s : State) (a : Nat) (v : Word) : KeepsPit s (s.setReg a v) := ⟨rfl, rfl⟩

theorem State.sendMsi_keepsPit (s : State) (n : Nat) : KeepsPit s (s.sendMsi n) := .ite (.refl s) (.ite ⟨rfl, rfl⟩ ⟨rfl, rfl⟩)

theorem State.setPend_keepsPit (s : State) (n b : Nat) : KeepsPit s (s.setPend n b) :=
  have h := s.setReg_keepsPit (R.IRQ_PEND n) _
  .ite (h.trans (State.sendMsi_keepsPit _ n)) h

theorem State.setLast_keepsPit (s : State) (n : Nat) (e : HistEntry) : KeepsPit s (s.setLast n e) :=
  have h : KeepsPit s { s with irq := { s.irq with last := SMap.put (fun _ => none) s.irq.last n (some e) } } := ⟨rfl, rfl⟩
  (((h.trans (State.setReg_keepsPit _ _ _)).trans (State.setReg_keepsPit _ _ _)).trans (State.setReg_keepsPit _ _ _)).trans
    (State.setReg_keepsPit _ _ _)

theorem State.showLast_keepsPit (s : State) (n : Nat) (e : HistEntry) : KeepsPit s (s.showLast n e) := .ite (.refl s) (s.setLast_keepsPit n e)

theorem State.setHist_keepsPit (s : State) (n : Nat) (q : List HistEntry) : KeepsPit s (s.setHist n q) := ⟨rfl, rfl⟩

theorem State.pushHist_keepsPit (s : State) (n : Nat) (e : HistEntry) : KeepsPit s (s.pushHist n e) := by
  unfold State.pushHist
  extract_lets q s1 s2 src sv s3
  have h1 : KeepsPit s s1 := ((s.setHist_keepsPit n _).trans (State.setReg_keepsPit _ _ _)).trans (State.showLast_keepsPit _ n e)
  have h2 : KeepsPit s s2 := h1.trans (s1.setReg_keepsPit _ _)
  have h3 : KeepsPit s s3 := .ite (h2.trans (s2.setPend_keepsPit n src)) h2
  exact .ite ((s.setHist_keepsPit n q).trans (State.showLast_keepsPit _ n e)) (.ite h1 (.ite ((h3.trans (s3.setReg_keepsPit _ _)).trans (State.setLast_keepsPit _ n _)) h3))

theorem State.startIn_keepsPit (s : State) (n src inst bit sev : Nat) : KeepsPit s (s.startIn n src inst bit sev) := by
  unfold State.startIn
  extract_lets s1
  have h1 : KeepsPit s s1 := .ite (s.setPend_keepsPit n src) (.refl s)
  exact .ite (h1.trans (s1.pushHist_keepsPit n _)) h1

theorem State.rises_keepsPit (s before : State) : KeepsPit s (s.rises before) := by
  unfold State.rises
  extract_lets devs dev s1
  have h1 : KeepsPit s s1 := .foldl devs (fun t n => t.startIn_keepsPit n 0 0 1 dev) s
  exact .ite (h1.trans (s1.startIn_keepsPit _ _ _ _ _)) h1

theorem State.arise_keepsPit (s : State) (a bit : Nat) : KeepsPit s (s.arise a bit) := by
  unfold State.arise
  split
  · refine ((s.setReg_keepsPit a _).trans (State.startIn_keepsPit _ _ _ _ _ _)).trans ((KeepsPit.foldl _ (fun t l => ?_) _).trans
      (State.rises_keepsPit _ s))
    exact .ite (t.setPend_keepsPit _ _) (.refl t)
  · exact s.setReg_keepsPit a _

/-- Bits of a register at `as` and of the interrupt block start. -/
theorem Alarms.calm {as : List Nat} (h : Calm w s₀ s) (k : Alarms as s t) (kp : KeepsPit s t) (ha : ∀ a ∈ as, Free a)
    (he : ∀ e : PortNo, s.fld (R.PORT_CTL e) F.PORT_CTL.EN = 0 → t.fld (R.PORT_CTL e) F.PORT_CTL.EN = 0) : Calm w s₀ t := by
  have hreg : ∀ b, ¬ Free b → t.reg b = s.reg b := fun b hb =>
    k.regs b (fun hm => hb (ha b hm)) (fun hi => hb (by unfold irqBlock at hi; unfold Free; omega))
  have hpipe : t.pipes = s.pipes := by rw [← k.rest]
  refine h.trans ⟨fun b hb => hreg b ?_, State.fld_of_reg (hreg _ ?_), fun _ => hreg _ ?_, he, fun p => ?_, fun _ => ?_,
    by rw [← k.rest], by rw [← k.rest], by rw [← k.rest], by rw [← k.rest], by rw [← k.rest], kp.enter, kp.leave⟩
  · unfold Fixed at hb
    unfold Free
    omega
  · unfold Free R.TIME_STATUS
    omega
  · unfold Free R.TIME_FREQ
    omega
  · unfold State.pipe
    rw [hpipe]
    exact ⟨fun _ => rfl, rfl, fun _ => rfl⟩
  · exact ⟨by rw [← k.rest], by rw [← k.rest], by rw [← k.rest]⟩

theorem Alarms.portCtl {as : List Nat} (k : Alarms as s t) (e : PortNo) (he : R.PORT_CTL e ∉ as) :
    t.reg (R.PORT_CTL e) = s.reg (R.PORT_CTL e) :=
  k.regs _ he (by unfold irqBlock R.PORT_CTL; omega)

/-- A bit below another leaves it. -/
theorem setNBit_div {v i k : Nat} (hi : i < k) : setNBit v i / 2 ^ k = v / 2 ^ k := by
  unfold setNBit
  split
  · rfl
  · rename_i hb
    have heven : v / 2 ^ i % 2 = 0 := by
      unfold nbit at hb
      simp at hb
      omega
    have hhalf : (v + 2 ^ i) / 2 ^ i / 2 = v / 2 ^ i / 2 := by
      rw [Nat.add_div_right _ (Nat.two_pow_pos i)]
      omega
    have hk : 2 ^ k = 2 ^ i * 2 * 2 ^ (k - i - 1) := by
      rw [← Nat.pow_succ, ← Nat.pow_add]
      congr 1
      omega
    rw [hk, ← Nat.div_div_eq_div_mul, ← Nat.div_div_eq_div_mul, hhalf, Nat.div_div_eq_div_mul, Nat.div_div_eq_div_mul, ← Nat.mul_assoc]

theorem fldOf_setNBit_en (v : Word) {i : Nat} (hi : i < 31) : fldOf (BitVec.ofNat 32 (setNBit v.toNat i)) F.PORT_CTL.EN = fldOf v F.PORT_CTL.EN := by
  have h := setNBit_div (v := v.toNat) hi
  unfold fldOf F.PORT_CTL.EN
  dsimp only
  rw [BitVec.toNat_ofNat]
  omega

theorem State.rises_calm {b : State} (h : Calm w s₀ s) : Calm w s₀ (s.rises b) :=
  (s.rises_alarms b (as := [])).calm h (s.rises_keepsPit b) (by simp) fun e he => by
    rwa [State.fld_of_reg ((s.rises_alarms b (as := [])).portCtl e (by simp))]

/-- A bit of a register of which nothing is watched starts, no bit that could enable a port. -/
theorem State.arise_calm {bit : Nat} (h : Calm w s₀ s) (ha : Free a) (hb : bit < 31 ∨ OffPage a) : Calm w s₀ (s.arise a bit) := by
  have k := s.arise_alarms (as := [a]) a bit (.inl (by simp))
  refine k.calm h (s.arise_keepsPit a bit) (by simpa using ha) fun e he => ?_
  by_cases hea : R.PORT_CTL e = a
  · have hp : ¬ OffPage a := by subst hea; unfold OffPage R.PORT_CTL; omega
    subst hea
    unfold State.fld
    rw [State.arise_reg _ _ _ (by unfold irqBlock R.PORT_CTL; omega), fldOf_setNBit_en _ (hb.resolve_right hp)]
    exact he
  · rwa [State.fld_of_reg (k.portCtl e (by simpa using hea))]

theorem State.ariseF_calm (h : Calm w s₀ s) (ha : Free a) (hf : f.lo < 31) : Calm w s₀ (s.ariseF a f) := State.arise_calm h ha (.inl hf)

theorem State.cause_calm (h : Calm w s₀ s) (ha : Free a) (hf : f.lo < 31) : Calm w s₀ (s.cause a f) := .ite h (State.arise_calm h ha (.inl hf))

theorem State.addCnt_calm {k : Nat} (h : Calm w s₀ s) : Calm w s₀ (s.addCnt a k) := h

end

end Sys2Proof.Machine
end

section
/-! SUPPORT. The audit with its buffers and Waybill streams, the selection of the time source and the supply leave alone what no Pitch reset
may reach. -/

namespace Sys2Proof.Machine

section

variable {w : Watch} {s₀ s t u : State} {n m : Nat} {a : Nat} {f : Fld}

theorem free_of_le (h : 0x80039 ≤ a) : Free a := by
  unfold Free
  omega

theorem free_wbStrmCause (n : Nat) : Free (R.WB_STRM_CAUSE n) := free_of_le (by unfold R.WB_STRM_CAUSE; omega)

/-! ### Buffers -/

theorem State.bpmRefuse_calm {x : BpmAns} (h : Calm w s₀ s) : Calm w s₀ (s.bpmRefuse n x) := by
  have ha : Free (R.BPM_OWN_CAUSE n) := free_of_le (by unfold R.BPM_OWN_CAUSE; omega)
  cases x with
  | granted => exact h
  | quota | reserve | empty => exact State.cause_calm (State.addCnt_calm h) ha (by decide)

theorem State.setBuf_calm {b : Option Buf} (h : Calm w s₀ s) : Calm w s₀ (s.setBuf n b) := h

theorem State.bpmAlloc_calm {rq len : Nat} {bytes : Bytes} (h : Calm w s₀ s) : Calm w s₀ (s.bpmAlloc rq len bytes).2 := by
  simp only [State.bpmAlloc]
  split
  · exact State.bpmRefuse_calm h
  · split
    · exact State.bpmRefuse_calm h
    · split
      · exact State.bpmRefuse_calm h
      · exact h

theorem State.bpmRelease_calm {rq : Nat} (h : Calm w s₀ s) : Calm w s₀ (s.bpmRelease rq n) := by
  unfold State.bpmRelease
  split
  · exact h
  · exact State.setBuf_calm h

theorem State.bpmReleaseAll_calm {p : Nat → Bool} (h : Calm w s₀ s) : Calm w s₀ (s.bpmReleaseAll p) := by
  refine h.foldl fun t e _ ht => ?_
  split
  · exact ht
  · exact State.setBuf_calm ht

theorem State.setBufBytes_calm {b : Bytes} (h : Calm w s₀ s) : Calm w s₀ (s.setBufBytes n b) := by
  unfold State.setBufBytes
  split
  · exact h
  · exact State.setBuf_calm h

theorem State.fenceSlice_calm (h : Calm w s₀ s) : Calm w s₀ (s.fenceSlice n) :=
  .ite h (State.ariseF_calm (State.setFld_calm h (free_of_le (by decide)) (by decide)) (free_of_le (by decide)) (by decide))

theorem State.uncorrError_calm (h : Calm w s₀ s) : Calm w s₀ (s.uncorrError n) := by
  unfold State.uncorrError
  extract_lets k b s1 s2 thr
  have h1 : Calm w s₀ s1 := h
  have h2 : Calm w s₀ s2 := State.cause_calm (State.addCnt_calm h1) (free_of_le (by decide)) (by decide)
  exact .ite (State.fenceSlice_calm h2) h2

theorem Calm.foldl2 {α β : Type} {f : β × State → α → β × State} {l : List α} {x : β × State} (h : Calm w s₀ x.2)
    (hf : ∀ x a, Calm w s₀ x.2 → Calm w s₀ (f x a).2) : Calm w s₀ (l.foldl f x).2 := by
  induction l generalizing x with
  | nil => exact h
  | cons a l ih => exact ih (hf x a h)

theorem State.readBuf_calm {off len : Nat} (h : Calm w s₀ s) : Calm w s₀ (s.readBuf n off len).2 := by
  unfold State.readBuf
  split
  · exact h
  · split
    · exact h
    · refine Calm.foldl2 h fun x a hx => ?_
      dsimp only
      split
      · exact hx
      · split
        · exact State.addCnt_calm hx
        · exact State.uncorrError_calm hx

/-! ### Sheets and their engines -/

theorem State.setStrm_calm {q : WbStream} (h : Calm w s₀ s) : Calm w s₀ (s.setStrm n q) := h

theorem State.setEng_calm {q : Option Nat} (h : Calm w s₀ s) : Calm w s₀ (s.setEng n q) := h

theorem State.wbGone_calm {q : Sheet} (h : Calm w s₀ s) : Calm w s₀ (s.wbGone n q) := by
  unfold State.wbGone
  extract_lets x s1
  have h1 : Calm w s₀ s1 := h
  split
  · exact State.bpmRelease_calm h1
  · exact h1

theorem State.sheetLose_calm (h : Calm w s₀ s) : Calm w s₀ (s.sheetLose n m) := by
  unfold State.sheetLose
  split
  · exact h
  · exact State.addCnt_calm (State.wbGone_calm h)

theorem State.wbExported_calm (h : Calm w s₀ s) : Calm w s₀ (s.wbExported n m) := by
  unfold State.wbExported
  split
  · exact h
  · exact State.addCnt_calm (State.wbGone_calm h)

theorem State.engTake_calm (h : Calm w s₀ s) : Calm w s₀ (s.engTake n) := by
  unfold State.engTake
  refine .ite h (.ite (State.setEng_calm h) ?_)
  split
  · exact h
  · exact State.setEng_calm h
  · exact h

theorem State.engServe_calm (h : Calm w s₀ s) : Calm w s₀ s.engServe := State.engTake_calm (State.engTake_calm h)

theorem State.engDone_calm (h : Calm w s₀ s) : Calm w s₀ (s.engDone n) :=
  State.engServe_calm (h.foldl fun _ _ _ ht => .ite (State.setEng_calm ht) ht)

theorem State.wbHashNow_calm (h : Calm w s₀ s) : Calm w s₀ (s.wbHashNow n) := by
  unfold State.wbHashNow
  split
  · exact h
  · rename_i q _
    have hr : Calm w s₀ (q.handle.elim (false, s) fun k => s.readBuf k 0 (64 + q.recs.flatten.length)).2 := by
      cases q.handle with
      | none => exact h
      | some k => exact State.readBuf_calm h
    split
    · rename_i s1 e
      exact State.sheetLose_calm (.snd e hr)
    · rename_i s1 e
      have h1 : Calm w s₀ s1 := .snd e hr
      dsimp only
      split
      · exact State.setBufBytes_calm (State.setStrm_calm h1)
      · exact State.setStrm_calm h1

theorem State.stallRise_calm {was : Bool} (h : Calm w s₀ s) : Calm w s₀ (s.stallRise n was) :=
  .ite h (.ite (State.cause_calm h (free_wbStrmCause n) (by decide)) (State.ariseF_calm h (free_wbStrmCause n) (by decide)))

theorem State.noKeyRise_calm (h : Calm w s₀ s) : Calm w s₀ (s.noKeyRise n) :=
  .ite (State.cause_calm h (free_wbStrmCause n) (by decide)) (State.ariseF_calm (State.setStrm_calm h) (free_wbStrmCause n) (by decide))

theorem State.wbFenced_calm (h : Calm w s₀ s) : Calm w s₀ (s.wbFenced n) := by
  unfold State.wbFenced
  extract_lets x
  split
  · exact h
  · split
    · exact h
    · refine .ite h ?_
      extract_lets s1
      have h1 : Calm w s₀ s1 := State.bpmRelease_calm (State.setStrm_calm h)
      exact .ite h1 (State.addCnt_calm h1)

theorem State.wbOpen_calm {first : Nat} (h : Calm w s₀ s) : Calm w s₀ (s.wbOpen n first).2 := by
  unfold State.wbOpen
  split
  · exact h
  · split
    · exact State.setStrm_calm h
    · split
      · rename_i e
        exact State.setStrm_calm (.snd e (State.bpmAlloc_calm h))
      · rename_i e
        exact .snd e (State.bpmAlloc_calm h)

theorem State.wbClose_calm {code : Nat} (h : Calm w s₀ s) : Calm w s₀ (s.wbClose n code) := by
  unfold State.wbClose
  extract_lets x slot was
  split
  · exact h
  · refine .ite h ?_
    extract_lets q s1 s2
    have h1 : Calm w s₀ s1 := State.addCnt_calm (State.setStrm_calm h)
    have h2 : Calm w s₀ s2 := .ite h1 (State.noKeyRise_calm h1)
    exact State.engServe_calm (State.stallRise_calm h2)

theorem State.wbRoom_calm {k first : Nat} (h : Calm w s₀ s) : Calm w s₀ (s.wbRoom n k first).2 := by
  unfold State.wbRoom
  extract_lets s1
  have h1 : Calm w s₀ s1 := State.wbFenced_calm h
  split
  · split
    · exact h1
    · exact State.wbOpen_calm (State.wbClose_calm h1)
  · exact State.wbOpen_calm h1

/-! ### Records -/

theorem State.wbPut_calm {rec : Bytes} {ts : List TimeVal} {hold : Bool} (h : Calm w s₀ s) : Calm w s₀ (s.wbPut n rec ts hold) := by
  simp only [State.wbPut]
  split
  · exact h
  · exact .ite (State.wbClose_calm (State.setStrm_calm h)) (State.setStrm_calm h)

theorem State.wbGaps_calm {sq fuel : Nat} (h : Calm w s₀ s) : Calm w s₀ (s.wbGaps n sq fuel).2 := by
  induction fuel generalizing s with
  | zero => exact h
  | succ fuel ih =>
    unfold State.wbGaps
    split
    · exact h
    · split
      · rename_i e
        exact .snd e (State.wbRoom_calm h)
      · rename_i s1 e
        have h1 : Calm w s₀ s1 := .snd e (State.wbRoom_calm h)
        exact ih (State.cause_calm (State.addCnt_calm (State.wbPut_calm (State.setStrm_calm h1))) (free_wbStrmCause n) (by decide))

theorem State.wbLose_calm {reason sq : Nat} {t : TimeVal} {hold : Bool} (h : Calm w s₀ s) : Calm w s₀ (s.wbLose n reason sq t hold) := h

theorem State.wbPresent_calm {mk : Nat → List Bytes} {t : TimeVal} {hold : Bool} (h : Calm w s₀ s) :
    Calm w s₀ (s.wbPresent n mk t hold) := by
  unfold State.wbPresent
  extract_lets sq w s1 s2 w3 s3 recs
  have h2 : Calm _ s₀ s2 := h
  refine .ite (State.wbLose_calm h2) (.ite (State.wbLose_calm h2) ?_)
  have h3 : Calm _ s₀ s3 := .ite h2 (State.setStrm_calm h2)
  split
  · rename_i s4 e
    exact State.wbLose_calm (.snd e (State.wbGaps_calm h3))
  · rename_i s4 e
    have h4 : Calm _ s₀ s4 := .snd e (State.wbGaps_calm h3)
    split
    · rename_i s5 e
      exact State.wbLose_calm (.snd e (State.wbRoom_calm h4))
    · rename_i s5 e
      have h5 : Calm _ s₀ s5 := .snd e (State.wbRoom_calm h4)
      exact State.addCnt_calm (h5.foldl fun _ _ _ hu => State.wbPut_calm hu)

theorem State.wbTick_calm (h : Calm w s₀ s) : Calm w s₀ s.wbTick := by
  have h1 : Calm w s₀ { s with wb := { s.wb with due := [] } } := h
  exact h1.foldl fun _ _ _ ht => State.wbPresent_calm ht

theorem State.audit_calm {ev : Nat} {refused : Bool} {subj : Nat} {data : Bytes} (h : Calm w s₀ s) :
    Calm w s₀ (s.audit ev refused subj data) := State.wbPresent_calm h

theorem State.auditWrite_calm {refused : Bool} {subj : Nat} {old new : Word} (h : Calm w s₀ s) :
    Calm w s₀ (s.auditWrite refused subj a old new) := State.audit_calm h

theorem State.wbReset_calm {d : ResetDrops} (h : Calm w s₀ s) : Calm w s₀ (s.wbReset n d) := by
  unfold State.wbReset
  extract_lets unhashed s1 x lost s2 s3 s4 opened firsts waits tl th holds lo hi held g6 g4 g5 kept base wasOpen gaps s5
  have h1 : Calm w s₀ s1 := h.foldl fun _ _ _ ht => State.wbHashNow_calm ht
  have h2 : Calm w s₀ s2 := h1.foldl fun t q _ ht => by
    split
    · exact State.bpmRelease_calm ht
    · exact ht
  have h3 : Calm w s₀ s3 := by
    unfold s3
    split
    · split
      · exact State.bpmRelease_calm h2
      · exact h2
    · exact h2
  have h4 : Calm w s₀ s4 := .ite h3 (State.addCnt_calm h3)
  have h5 : Calm w s₀ s5 := State.engDone_calm (State.setStrm_calm h4)
  clear_value s5
  refine .ite h5 ?_
  split
  · rename_i s6 e
    have h6 : Calm w s₀ s6 := .snd e (State.wbGaps_calm h5)
    refine State.wbClose_calm ?_
    split
    · exact .ite (State.setStrm_calm h6) h6
    · exact h6
  · rename_i s6 e
    exact .snd e (State.wbGaps_calm h5)

/-! ### The clock outputs, the time sources and the supply -/

theorem State.synceShow_calm (h : Calm w s₀ s) : Calm w s₀ (s.synceShow n) := by
  unfold State.synceShow
  extract_lets old new tm s1 s2
  have h1 : Calm w s₀ s1 := h
  exact .ite h (.ite h1 (.ite h1 h1))

theorem State.synceCheck_calm (h : Calm w s₀ s) : Calm w s₀ s.synceCheck := by
  unfold State.synceCheck
  extract_lets s1 tm s2
  have h1 : Calm w s₀ s1 := State.synceShow_calm (State.synceShow_calm h)
  have h2 : Calm w s₀ s2 := h1
  exact .ite h1 (.ite (State.ariseF_calm h2 (by unfold Free R.TIME_CAUSE; omega) (by decide)) h2)

theorem State.timeBack_calm (h : Calm w s₀ s) : Calm w s₀ s.timeBack :=
  Calm.foldl (Calm.foldl h fun _ _ _ ht => ht) fun _ _ _ ht => ht

end

section

variable {w : Watch} {s₀ s t u : State} {n m : Nat} {a : Nat} {f : Fld}

/-! ### The time sources -/

/-- A field of TIME_STATUS beside SRC takes a value. -/
theorem State.setTimeStatus_calm {v : Nat} (h : Calm w s₀ s) (hf : f.lo + f.w ≤ 32)
    (hd : F.TIME_STATUS.SRC.lo + F.TIME_STATUS.SRC.w ≤ f.lo ∨ f.lo + f.w ≤ F.TIME_STATUS.SRC.lo) :
    Calm w s₀ (s.setFld R.TIME_STATUS f v) := by
  refine h.trans ⟨fun b hb => ?_, State.fld_setFld_beside _ _ _ _ _ hf hd, fun _ => ?_, fun e he => ?_, fun _ => ⟨fun _ => rfl, rfl, fun _ => rfl⟩,
    fun _ => ⟨rfl, rfl, rfl⟩, rfl, rfl, rfl, rfl, rfl, rfl, rfl⟩
  · exact State.reg_setFld_ne _ _ _ _ _ (by unfold Fixed at hb; unfold R.TIME_STATUS; omega)
  · exact State.reg_setFld_ne _ _ _ _ _ (by decide)
  · rwa [State.fld_setFld_ne _ _ _ _ _ _ (by unfold R.TIME_STATUS R.PORT_CTL; omega)]

theorem free_timeCause : Free R.TIME_CAUSE := by
  unfold Free R.TIME_CAUSE
  omega

theorem State.setAdj_calm {v : Word} (h : Calm w s₀ s) (hw : ¬ w.freq) : Calm w s₀ (s.setAdj v) := by
  refine h.trans ⟨fun b hb => ?_, ?_, fun hf => absurd hf hw, fun e he => ?_, fun _ => ⟨fun _ => rfl, rfl, fun _ => rfl⟩,
    fun _ => ⟨rfl, rfl, rfl⟩, rfl, rfl, rfl, rfl, rfl, rfl, rfl⟩
  · exact State.reg_setReg_ne _ _ _ _ (by unfold Fixed at hb; unfold R.TIME_FREQ; omega)
  · exact State.fld_setReg_ne _ _ _ _ _ (by decide)
  · rwa [State.setAdj, State.fld_setReg_ne _ _ _ _ _ (by unfold R.TIME_FREQ R.PORT_CTL; omega)]

theorem State.sourceLoss_calm (h : Calm w s₀ s) (hw : ¬ w.freq) : Calm w s₀ s.sourceLoss := by
  unfold State.sourceLoss
  refine .ite h ?_
  extract_lets avg locked tm s1 s2 s3 s4
  have h1 : Calm w s₀ s1 := h
  have h2 : Calm w s₀ s2 := State.ariseF_calm h1 free_timeCause (by decide)
  have h3 : Calm w s₀ s3 := State.setAdj_calm h2 hw
  have h4 : Calm w s₀ s4 := State.ariseF_calm (State.setTimeStatus_calm h3 (by decide) (by decide)) free_timeCause (by decide)
  exact .ite (State.audit_calm h4) h2

theorem State.tlSelect_calm (h : Calm w s₀ s) (hw : w.freq → s.timeSrc ≠ 3) : Calm w s₀ s.tlSelect := by
  unfold State.tlSelect
  extract_lets old new s1 s2 s3 s4
  have h2 : Calm w s s2 := State.setTimeStatus_calm (State.setTimeStatus_calm (.refl w s) (by decide) (by decide)) (by decide) (by decide)
  have h3 : Calm w s s3 := h2.foldl fun t k hk ht => by
    have hk := List.mem_range.1 hk
    exact State.setTopBit_calm ht (free_of_le (by unfold R.TIME_TL_STAT; omega)) (.inl (by unfold R.TIME_TL_STAT; omega))
  have h4 : Calm w s s4 := .ite h3 (State.cause_calm h3 free_timeCause (by decide))
  clear_value s4
  refine h.trans ?_
  split
  · exact h4
  · rename_i hsrc
    have hw : ¬ w.freq := fun hf => hw hf (by rw [← h4.timeSrc]; exact not_not.1 hsrc)
    exact .ite (State.sourceLoss_calm (.ite h4 (State.ariseF_calm h4 free_timeCause (by decide))) hw) h4

/-! ### The supply -/

theorem State.clipNote_calm (h : Calm w s₀ s) : Calm w s₀ s.clipNote := by
  have ha : Free R.PST_CAUSE := by
    unfold Free R.PST_CAUSE
    omega
  unfold State.clipNote
  extract_lets now k pw s1 s2
  have h1 : Calm w s₀ s1 := h
  have h2 : Calm w s₀ s2 := State.cause_calm (State.addCnt_calm h1) ha (by decide)
  exact .ite h1 (.ite (State.ariseF_calm h2 ha (by decide)) (State.cause_calm h2 ha (by decide)))

theorem State.kRefresh_calm (h : Calm w s₀ s) : Calm w s₀ s.kRefresh := by
  unfold State.kRefresh
  extract_lets ks
  refine State.clipNote_calm (h.foldl fun t r hr ht => ?_)
  have hr := List.mem_range.1 hr
  exact State.setReg_calm ht (by unfold Free R.PST_REG_STATUS; omega) (.inl (by unfold R.PST_REG_STATUS; omega))

theorem State.setDomBit_calm {r : Nat → Nat} {d : Nat} {b : Bool} (h : Calm w s₀ s) (ha : Free (r (d / 32))) (hp : r (d / 32) < 0x200000) :
    Calm w s₀ (s.setDomBit r d b) := State.setReg_calm h ha (.inl hp)

theorem State.noGrant_calm {r : Nat} (h : Calm w s₀ s) (hr : r < 64) : Calm w s₀ (s.noGrant r) :=
  State.setFld_calm (State.zeroReg_calm h (by unfold Free R.PST_REG_GRANT; omega)) (by unfold Free R.PST_REG_STATUS; omega) (by decide)

theorem free_lgStatus (g : Nat) : Free (R.LG_STATUS g) := free_of_le (by unfold R.LG_STATUS; omega)

theorem State.domDown_calm {d : Nat} (h : Calm w s₀ s) (hd : d < 135) : Calm w s₀ (s.domDown d) := by
  unfold State.domDown
  extract_lets s1
  have h1 : Calm w s₀ s1 := State.setDomBit_calm (State.setTopBit_calm h (by unfold Free R.PST_DOM_STATUS; omega)
    (.inl (by unfold R.PST_DOM_STATUS; omega))) (by unfold Free R.PST_DOM_READY; omega) (by unfold R.PST_DOM_READY; omega)
  clear_value s1
  split
  · exact State.setBit_calm (State.setBit_calm (State.setBit_calm h1 (free_lgStatus d) (by decide)) (free_lgStatus d) (by decide))
      (free_lgStatus d) (by decide)
  · split
    · exact State.noGrant_calm h1 (by omega)
    · split
      · exact State.noGrant_calm h1 (by omega)
      · exact h1

end

end Sys2Proof.Machine
end

section
/-! SUPPORT. Lanes, ports and the traffic manager as a Pitch leaves them leave alone what no Pitch reset may reach. -/

namespace Sys2Proof.Machine

variable {w : Watch} {s₀ s t u : State} {n m l : Nat} {a : Nat} {f : Fld}

/-! ### Lanes -/

theorem free_lnStatus (l : Nat) : Free (laneReg R.LG_LN_STATUS l) := free_of_le (by unfold laneReg R.LG_LN_STATUS; omega)

theorem free_prbsHi (l : Nat) : Free (laneReg R.LG_LN_PRBS_ERR_HI l) := free_of_le (by unfold laneReg R.LG_LN_PRBS_ERR_HI; omega)

theorem free_portStatus (n : Nat) : Free (R.PORT_STATUS n) := free_of_le (by unfold R.PORT_STATUS; omega)

theorem free_lgCause (g : Nat) : Free (R.LG_CAUSE g) := free_of_le (by unfold R.LG_CAUSE; omega)

theorem State.setLane_calm {q : LaneSt} (h : Calm w s₀ s) : Calm w s₀ (s.setLane l q) := h

theorem State.setPort_calm {q : PortSt} (h : Calm w s₀ s) : Calm w s₀ (s.setPort n q) := h

theorem State.emit_calm {e : Emit} (h : Calm w s₀ s) : Calm w s₀ (s.emit e) := h

theorem State.laneArise_calm (h : Calm w s₀ s) (hf : f.lo < 31) : Calm w s₀ (s.laneArise l f) :=
  .ite (State.ariseF_calm h (free_of_le (by unfold laneReg R.LG_LN_CAUSE; omega)) hf) h

theorem State.lineShow_calm (h : Calm w s₀ s) : Calm w s₀ (s.lineShow l) := by
  unfold State.lineShow
  extract_lets g q s1
  have h1 : Calm w s₀ s1 := State.setLane_calm h
  exact .ite h (.ite h1 (State.emit_calm h1))

theorem State.linePort_calm (h : Calm w s₀ s) : Calm w s₀ (s.linePort n) := h.foldl fun _ _ _ ht => State.lineShow_calm ht

theorem State.showLane_calm (h : Calm w s₀ s) : Calm w s₀ (s.showLane l) := by
  unfold State.showLane
  extract_lets s1 rate
  have h1 : Calm w s₀ s1 := State.setBit_calm h (free_lnStatus l) (by decide)
  exact State.lineShow_calm (State.setFld_calm h1 (free_lnStatus l) (by decide))

theorem State.showLanes_calm {ls : List Nat} (h : Calm w s₀ s) : Calm w s₀ (s.showLanes ls) := h.foldl fun _ _ _ ht => State.showLane_calm ht

theorem State.rxUnlock_calm (h : Calm w s₀ s) : Calm w s₀ (s.rxUnlock l) := by
  unfold State.rxUnlock
  extract_lets st s1 s2 s3
  have h1 : Calm w s₀ s1 := State.setBit_calm (State.setBit_calm h (free_lnStatus l) (by decide)) (free_lnStatus l) (by decide)
  have h2 : Calm w s₀ s2 := State.setFld_calm h1 (free_of_le (by unfold laneReg R.LG_LN_RXEQ; omega)) (by decide)
  have h3 : Calm w s₀ s3 := h2.foldl fun t k _ ht => by
    change Calm w s₀ (t.resetReg (R.LG_LN_RXEQ_TAP (l / 16) (l % 16) k))
    exact State.resetReg_calm ht (free_of_le (by unfold R.LG_LN_RXEQ_TAP; omega))
  exact State.setLane_calm h3

theorem State.zeroFld_calm {v : Nat} (h : Calm w s₀ s) (ha : Free a) (hv : v % 2 ^ f.w = 0) (hf : f.lo + f.w ≤ 32) (hd : f.lo ≤ 31) :
    Calm w s₀ (s.setFld a f v) := by
  refine h.setReg ha (.inr fun h0 => ?_)
  by_cases ht : f.lo + f.w ≤ 31
  · rwa [fldOf_putFld_en ht]
  · refine Nat.eq_of_testBit_eq fun i => ?_
    have hi := congrArg (fun x => Nat.testBit x (31 - f.lo)) (fldOf_putFld (s.reg a) f v hf)
    simp only [hv, fldOf_testBit, Nat.zero_testBit] at hi ⊢
    rw [show 31 - f.lo + f.lo = 31 by omega] at hi
    by_cases h0 : i < F.PORT_CTL.EN.w
    · have h1 : i = 0 := by unfold F.PORT_CTL.EN at h0; dsimp only at h0; omega
      have h2 : 31 - f.lo < f.w := by omega
      subst h1
      simpa [h2, F.PORT_CTL.EN] using hi
    · simp [h0]

theorem State.rxOff_calm (h : Calm w s₀ s) : Calm w s₀ (s.rxOff l) := by
  unfold State.rxOff
  extract_lets st s1 s2
  have h1 : Calm w s₀ s1 := State.rxUnlock_calm h
  have h2 : Calm w s₀ s2 := .ite h1 (State.laneArise_calm (State.setBit_calm h1 (free_lnStatus l) (by decide)) (by decide))
  exact State.setBit_calm (State.zeroFld_calm h2 (free_lnStatus l) (by decide) (by decide) (by decide)) (free_lnStatus l) (by decide)

theorem State.lmfClear_calm (h : Calm w s₀ s) : Calm w s₀ (s.lmfClear l) := .ite h (State.setLane_calm h)

theorem State.prbsRestart_calm (h : Calm w s₀ s) : Calm w s₀ (s.prbsRestart l) := by
  have h1 := State.zeroFld_calm (a := laneReg R.LG_LN_PRBS_ERR_LO l) (f := F.LG_LN_PRBS_ERR_LO.COUNT_LO) (v := 0) h
    (free_of_le (by unfold laneReg R.LG_LN_PRBS_ERR_LO; omega)) (by decide) (by decide) (by decide)
  exact State.clearTopBit_calm (State.setFld_calm h1 (free_prbsHi l) (by decide)) (free_prbsHi l)

/-- An eye run that a reset ends counted nothing. -/
theorem State.eyeStop_calm (h : Calm w s₀ s) : Calm w s₀ (s.eyeEnd l 0) :=
  State.clearTopBit_calm (State.zeroReg_calm h (free_of_le (by unfold laneReg R.LG_LN_EYE_RES; omega)))
    (free_of_le (by unfold laneReg R.LG_LN_EYE_CTL; omega))

/-! ### The traffic manager -/

theorem free_tmPortStatus (n : Nat) : Free (R.TM_PORT_STATUS n) := free_of_le (by unfold R.TM_PORT_STATUS; omega)

theorem State.setPtm_calm {q : PortTm} (h : Calm w s₀ s) : Calm w s₀ (s.setPtm n q) := h

theorem State.setTmq_calm {q : QueueSt} (h : Calm w s₀ s) : Calm w s₀ (s.setTmq n m q) := h

theorem State.setLive_calm {b : Bool} (h : Calm w s₀ s) : Calm w s₀ (s.setLive n b) :=
  State.setTopBit_calm h (free_tmPortStatus n) (.inr (.inl (by unfold R.TM_PORT_STATUS; omega)))

theorem State.ctlPush_calm {c : CtlKind} (h : Calm w s₀ s) : Calm w s₀ (s.ctlPush n c) := .ite h (State.setPtm_calm h)

theorem free_fcStatus (n : Nat) : Free (R.TM_FC_STATUS n) := free_of_le (by unfold R.TM_FC_STATUS; omega)

theorem State.fcEval_calm (h : Calm w s₀ s) : Calm w s₀ (s.fcEval n) := by
  unfold State.fcEval
  extract_lets old new s1 s2
  have h1 : Calm w s₀ s1 := State.setReg_calm h (free_fcStatus n) (.inr (.inl (by unfold R.TM_FC_STATUS; omega)))
  exact .ite h (State.ctlPush_calm (State.setPtm_calm h1))

theorem State.occSub_calm {c k : Nat} (h : Calm w s₀ s) : Calm w s₀ (s.occSub n c k) := by
  unfold State.occSub
  exact State.fcEval_calm h

theorem State.mcDone_calm (h : Calm w s₀ s) : Calm w s₀ (s.mcDone n) := by
  unfold State.mcDone
  split
  · exact h
  · extract_lets put s1
    have h1 : Calm w s₀ s1 := State.bpmRelease_calm h
    exact .ite h (.ite (State.occSub_calm h1) h1)

theorem State.pktGone_calm {k : Pkt} {sent : Bool} (h : Calm w s₀ s) : Calm w s₀ (s.pktGone k sent) := by
  unfold State.pktGone
  split
  · exact State.mcDone_calm h
  · split
    · exact h
    · exact .ite (State.wbExported_calm h) (.ite (State.sheetLose_calm h) h)
  · exact .ite (State.occSub_calm (State.bpmRelease_calm h)) (State.bpmRelease_calm h)

theorem State.qDropCount_calm {c len code : Nat} (h : Calm w s₀ s) : Calm w s₀ (s.qDropCount n c len code) := by
  unfold State.qDropCount
  extract_lets s1 s2
  have h1 : Calm w s₀ s1 := h
  have h2 : Calm w s₀ s2 := .ite h1 h1
  exact .ite (State.cause_calm h2 (free_of_le (by unfold R.TM_PORT_CAUSE; omega)) (by decide)) h2

theorem State.dropQueued_calm {c code : Nat} {k : Pkt} (h : Calm w s₀ s) : Calm w s₀ (s.dropQueued n c k code) := by
  have h1 : Calm w s₀ (s.tmDropCount k code) := .ite h h
  have h2 : Calm w s₀ ((s.tmDropCount k code).qDropCount n c k.len code) := State.qDropCount_calm h1
  exact State.pktGone_calm (.ite (.ite h2 h2) h2)

theorem State.stallEval_calm {c : Nat} (h : Calm w s₀ s) : Calm w s₀ (s.stallEval n c) := by
  unfold State.stallEval
  extract_lets q
  exact .ite (.ite h (State.setTmq_calm h)) (.ite (State.setTmq_calm h) h)

theorem State.stallEvals_calm (h : Calm w s₀ s) : Calm w s₀ (s.stallEvals n) := h.foldl fun _ _ _ ht => State.stallEval_calm ht

theorem State.flushQueue_calm {c code : Nat} (h : Calm w s₀ s) : Calm w s₀ (s.flushQueue n c code) := by
  unfold State.flushQueue
  extract_lets ps q s1
  have h1 : Calm w s₀ s1 := State.setTmq_calm h
  exact State.stallEval_calm (h1.foldl fun _ _ _ ht => State.dropQueued_calm ht)

theorem State.flushPort_calm {code : Nat} (h : Calm w s₀ s) : Calm w s₀ (s.flushPort n code) := h.foldl fun _ _ _ ht => State.flushQueue_calm ht

theorem State.tmPortEnd_calm (h : Calm w s₀ s) : Calm w s₀ (s.tmPortEnd n) := by
  unfold State.tmPortEnd
  extract_lets s1 s2 old s3 q s4
  have h1 : Calm w s₀ s1 := h.foldl fun _ _ _ ht => State.setTmq_calm ht
  have h2 : Calm w s₀ s2 := State.zeroFld_calm h1 (free_tmPortStatus n) (by decide) (by decide) (by decide)
  have h4 : Calm w s₀ s4 := State.setPtm_calm (State.zeroReg_calm h2 (free_fcStatus n))
  exact .ite (State.ctlPush_calm h4) h4

/-! ### Ports -/

theorem State.emitMac_calm {e : Emit} (h : Calm w s₀ s) : Calm w s₀ (s.emitMac n e) :=
  .ite (State.setPort_calm h) (.ite (State.emit_calm h) h)

theorem State.txCut_calm (h : Calm w s₀ s) : Calm w s₀ (s.txCut n) := by
  unfold State.txCut
  extract_lets fs q s1 r s2
  have h2 : Calm w s₀ s2 := h
  refine h2.foldl fun t f _ ht => ?_
  extract_lets t1
  have k1 : Calm w s₀ t1 := .ite (State.emitMac_calm (State.addCnt_calm ht)) ht
  exact State.pktGone_calm k1

theorem State.pcsDown_calm (h : Calm w s₀ s) : Calm w s₀ (s.pcsDown n) :=
  Calm.foldl (State.setPort_calm h) fun _ _ _ ht => State.setLane_calm ht

theorem State.setOnzState_calm {v : Nat} (h : Calm w s₀ s) : Calm w s₀ (s.setOnzState n v) :=
  State.setFld_calm h (free_portStatus n) (by decide)

theorem State.onzSeek_calm (h : Calm w s₀ s) : Calm w s₀ (s.onzSeek n) := by
  unfold State.onzSeek
  exact State.setFld_calm (State.setOnzState_calm h) (free_portStatus n) (by decide)

theorem State.calEnd_calm {r : Nat} (h : Calm w s₀ s) : Calm w s₀ (s.calEnd n r) := by
  have ha : Free (R.PORT_TS_CAL_CTL n) := free_of_le (by unfold R.PORT_TS_CAL_CTL; omega)
  unfold State.calEnd
  extract_lets s1
  have h0 : Calm w s₀ (s.setCal n none) := h
  have h1 : Calm w s₀ s1 := State.clearTopBit_calm (State.setFld_calm h0 ha (by decide)) ha
  exact .ite (State.cause_calm h1 (free_of_le (by unfold R.PORT_TS_CAUSE; omega)) (by decide)) h1

theorem State.calAbort_calm (h : Calm w s₀ s) : Calm w s₀ (s.calAbort n) := .ite (State.calEnd_calm h) h

theorem State.linkFall_calm (h : Calm w s₀ s) : Calm w s₀ (s.linkFall n) := by
  unfold State.linkFall
  refine .ite h ?_
  extract_lets s1 q s2
  have h1 : Calm w s₀ s1 := State.setLive_calm (State.clearTopBit_calm h (free_portStatus n))
  have h2 : Calm w s₀ s2 := State.linePort_calm (State.stallEvals_calm (State.setPtm_calm h1))
  exact State.ariseF_calm h2 (free_of_le (by unfold R.PORT_CAUSE; omega)) (by decide)

theorem State.linkLost_calm (h : Calm w s₀ s) : Calm w s₀ (s.linkLost n) := by
  unfold State.linkLost
  extract_lets s1 s2 q
  have h1 : Calm w s₀ s1 := State.linkFall_calm h
  exact .ite (State.linePort_calm (State.setPort_calm (State.onzSeek_calm h1))) (State.linePort_calm h1)

theorem State.lockLost_calm (h : Calm w s₀ s) : Calm w s₀ (s.lockLost l) := by
  unfold State.lockLost
  refine .ite h ?_
  extract_lets st s1 q s2 s3
  have h1 : Calm w s₀ s1 := State.setBit_calm (State.setBit_calm h (free_lnStatus l) (by decide)) (free_lnStatus l) (by decide)
  have h2 : Calm w s₀ s2 := State.laneArise_calm (State.setLane_calm h1) (by decide)
  have h3 : Calm w s₀ s3 := by
    unfold s3
    split
    · exact State.linkLost_calm (State.pcsDown_calm h2)
    · exact h2
  exact State.synceCheck_calm h3

theorem State.fwdLoss_calm (h : Calm w s₀ s) : Calm w s₀ (s.fwdLoss n) := by
  unfold State.fwdLoss
  refine .ite h ?_
  have h1 := State.ariseF_calm (State.setBit_calm (f := F.LG_STATUS.FWD_LOCK) (b := false) h (free_lgStatus n) (by decide)) (free_lgCause n)
    (f := F.LG_CAUSE.FWD_LOL) (by decide)
  exact h1.foldl fun _ _ _ ht => State.lockLost_calm ht

theorem State.rxDown_calm (h : Calm w s₀ s) : Calm w s₀ (s.rxDown l) := .ite (State.fwdLoss_calm (State.rxOff_calm h)) (State.rxOff_calm h)

theorem State.fwdOff_calm (h : Calm w s₀ s) : Calm w s₀ (s.fwdOff n) := .ite (State.rxDown_calm h) h

theorem State.linkClear_calm (h : Calm w s₀ s) : Calm w s₀ (s.linkClear n) := by
  unfold State.linkClear
  extract_lets a s1 s2 s3
  have ha : Free a := free_portStatus n
  have h1 : Calm w s₀ s1 := State.setBit_calm (State.setBit_calm h ha (by decide)) ha (by decide)
  have h2 : Calm w s₀ s2 := State.setBit_calm (State.setBit_calm h1 ha (by decide)) ha (by decide)
  have h3 : Calm w s₀ s3 := State.setFld_calm (State.setFld_calm h2 ha (by decide)) ha (by decide)
  exact State.setPort_calm h3

theorem State.portEnd_calm (h : Calm w s₀ s) : Calm w s₀ (s.portEnd n) :=
  State.calAbort_calm (State.setPort_calm (State.tmPortEnd_calm (State.flushPort_calm (State.linkFall_calm (State.txCut_calm h)))))

theorem free_portCtl (n : Nat) : Free (R.PORT_CTL n) := free_of_le (by unfold R.PORT_CTL; omega)

theorem State.portDisable_calm (h : Calm w s₀ s) : Calm w s₀ (s.portDisable n) := by
  unfold State.portDisable
  refine .ite (State.clearTopBit_calm h (free_portCtl n)) ?_
  extract_lets s1 s2 q s3 s4 s5
  have h1 : Calm w s₀ s1 := State.setLive_calm (State.portEnd_calm h)
  have h2 : Calm w s₀ s2 := State.linkClear_calm (State.clearTopBit_calm h1 (free_portCtl n))
  have h4 : Calm w s₀ s4 := State.clearTopBit_calm (State.setPort_calm h2) (free_of_le (by unfold R.PORT_RST; omega))
  have h5 : Calm w s₀ s5 := State.fwdOff_calm (h4.foldl fun _ _ _ ht => .ite ht (State.rxOff_calm ht))
  exact State.synceCheck_calm (State.stallEvals_calm (State.showLanes_calm h5))

/-- A port that is disabled enables no more. -/
theorem State.portDisable_en (s : State) (e : PortNo) : (s.portDisable e).fld (R.PORT_CTL e) F.PORT_CTL.EN = 0 := by
  have hclear (t : State) : (t.setBit (R.PORT_CTL e) F.PORT_CTL.EN false).fld (R.PORT_CTL e) F.PORT_CTL.EN = 0 :=
    State.fld_setFld _ _ _ _ (by decide)
  unfold State.portDisable
  split
  · exact hclear s
  · extract_lets s1 s2 q s3 s4 s5
    have h2 : Calm ⟨True, True, fun _ => False⟩ (s1.setBit (R.PORT_CTL e) F.PORT_CTL.EN false) s2 := State.linkClear_calm (.refl _ _)
    have h4 : Calm ⟨True, True, fun _ => False⟩ (s1.setBit (R.PORT_CTL e) F.PORT_CTL.EN false) s4 :=
      State.clearTopBit_calm (State.setPort_calm h2) (free_of_le (by unfold R.PORT_RST; omega))
    have h5 : Calm ⟨True, True, fun _ => False⟩ (s1.setBit (R.PORT_CTL e) F.PORT_CTL.EN false) s5 :=
      State.fwdOff_calm (h4.foldl fun _ _ _ ht => .ite ht (State.rxOff_calm ht))
    exact (State.synceCheck_calm (State.stallEvals_calm (State.showLanes_calm h5))).portCtl e (hclear s1)

theorem State.cmisAbort_calm (h : Calm w s₀ s) : Calm w s₀ (s.cmisAbort n) := by
  have h1 : Calm w s₀ (s.setCmis n (s.side.cmis.erase n) (0, 0, [])) := h
  exact .ite (State.setTopFld_calm (State.clearTopBit_calm h1 (free_of_le (by unfold R.PORT_CMIS_CMD; omega)))
    (free_of_le (by unfold R.PORT_CMIS_STATUS; omega)) (by unfold OffPage R.PORT_CMIS_STATUS; omega)) h

/-! ### The lanes of a pipeline -/

theorem State.lgOff_calm (h : Calm w s₀ s) (hn : n < 64) : Calm w s₀ (s.lgOff n) := by
  unfold State.lgOff
  extract_lets fwd s1 s2
  have h1 : Calm w s₀ s1 := State.domDown_calm h (by omega)
  have h2 : Calm w s₀ s2 := h1.foldl fun _ _ _ ht => State.showLane_calm (State.rxOff_calm ht)
  exact State.synceCheck_calm (.ite (State.ariseF_calm h2 (free_lgCause n) (by decide)) h2)

theorem State.lanesClear_calm (h : Calm w s₀ s) (hn : n < 16) : Calm w s₀ (s.lanesClear n) := by
  unfold State.lanesClear
  extract_lets s1
  have h1 : Calm w s₀ s1 := h.foldl fun t i _ ht => by
    extract_lets l t1 t2
    have k1 : Calm w s₀ t1 := .ite (State.eyeStop_calm ht) ht
    have k2 : Calm w s₀ t2 := State.lmfClear_calm k1
    exact .ite k2 (State.prbsRestart_calm k2)
  exact h1.foldl fun _ i hi ht => State.lgOff_calm ht (by have := List.mem_range.1 hi; omega)

end Sys2Proof.Machine
end

section
/-! SUPPORT. The clears of a pipeline, of the Ostlers, of DMA and of the tables as a Pitch leaves them leave alone what no Pitch reset may reach. -/

namespace Sys2Proof.Machine

section

variable {w : Watch} {s₀ s t u : State} {n m p : Nat} {a : Nat} {f : Fld}

/-! ### Registers that a reset clears -/

/-- The regions that no Pitch owns: of the device, its clocks, the Pitch map and the time. -/
def Region.Shared (g : Region) : Prop := g = .dev ∨ g = .clk ∨ g = .pitG ∨ g = .time

theorem regionOf_shared (h : ¬ Free a) : (regionOf a).Shared ∧ a < 0x90000 := by
  have hc : a < 0x1000 ∨ (0x30000 ≤ a ∧ a < 0x40000) ∨ (0x40000 ≤ a ∧ a < 0x40084) ∨ a = 0x80038 ∨ a = 0x80010 := by
    unfold Free at h
    omega
  refine ⟨?_, by omega⟩
  unfold Region.Shared
  rcases hc with h | ⟨h, hlt⟩ | ⟨h, hlt⟩ | rfl | rfl
  · exact .inl (by unfold regionOf; rw [if_pos (by omega)])
  · obtain ⟨o, rfl⟩ := Nat.exists_eq_add_of_le h
    exact .inr (.inl (region_clk o (by omega)))
  · obtain ⟨o, rfl⟩ := Nat.exists_eq_add_of_le h
    exact .inr (.inr (.inl (region_pitG o (by omega))))
  · exact .inr (.inr (.inr rfl))
  · exact .inr (.inr (.inr rfl))

theorem rowsOf_shared {g : Region} (h : g.Shared) : ∀ r ∈ rowsOf g, r.id ≠ .VER_CAUSE := by
  rcases h with rfl | rfl | rfl | rfl <;> simp only [rowsOf] <;> decide

theorem State.causeLocOf_shared {g : Region} {id : RegId} {l : CauseLoc} (h : g.Shared) (hl : s.causeLocOf g id = some l) : l.owner = 0 := by
  unfold State.causeLocOf at hl
  rcases h with rfl | rfl | rfl | rfl
  all_goals
    split at hl <;> simp_all only [reduceCtorEq, Option.some.injEq]
    all_goals rw [← hl]

theorem windowOf_low (h : a < 0x90000) : windowOf a = a := if_pos (by omega)

theorem State.causeLocs_shared (h : ¬ Free a) : ∀ l ∈ (s.causeLocs a).1, l.owner = 0 := by
  obtain ⟨hg, ha⟩ := regionOf_shared h
  unfold State.causeLocs
  rw [windowOf_low ha]
  split
  · simp
  · rename_i g r ix hr
    have hrow := findReg_mem hr
    have hg : g.Shared := by
      unfold findReg at hr
      simp only [Option.map_eq_some_iff] at hr
      obtain ⟨x, -, hx⟩ := hr
      rw [← (Prod.mk.inj hx).1]
      exact hg
    rw [if_neg (rowsOf_shared hg r hrow)]
    split
    · rename_i l hl
      simpa using State.causeLocOf_shared hg hl
    · simp

theorem State.regOwner_shared (h : ¬ Free a) : s.regOwner a = none := by
  obtain ⟨hg, ha⟩ := regionOf_shared h
  unfold State.regOwner
  rw [if_neg (by omega), if_neg (by omega), if_neg (by omega)]
  rcases hg with h | h | h | h <;> rw [h]

theorem pipeAt_shared (h : ¬ Free a) : pipeAt a = none := by
  obtain ⟨hg, ha⟩ := regionOf_shared h
  unfold pipeAt
  rw [if_neg (by omega), if_neg (by omega)]
  rcases hg with h | h | h | h <;> rw [h]

theorem State.pitchCleared_free (hn : n ≠ 0) (h : s.pitchCleared n a = true) : Free a := by
  by_contra hf
  unfold State.pitchCleared at h
  rw [State.regOwner_shared hf, Bool.or_eq_true, List.any_eq_true] at h
  rcases h with ⟨l, hl, ho⟩ | h
  · rw [State.causeLocs_shared hf l hl] at ho
    simp at ho
    omega
  · simp at h

theorem pipeCleared_free (h : pipeCleared p a = true) : Free a := by
  by_contra hf
  unfold pipeCleared at h
  rw [pipeAt_shared hf] at h
  simp at h

theorem pipeRetained_free (h : pipeRetained p a = true) : Free a := by
  by_contra hf
  unfold pipeRetained at h
  obtain ⟨hg, -⟩ := regionOf_shared hf
  rcases hg with hg | hg | hg | hg <;> simp [hg] at h

/-! ### Pipelines -/

/-- A pipeline that may move changes, but not its image, and not once it is bare. -/
theorem State.setPipe_calm {q : PipeSt} (h : Calm w s₀ s) (hp : w.moved p) (hi : q.img = (s.pipe p).img)
    (hb : (s.pipe p).Bare → q = s.pipe p) : Calm w s₀ (s.setPipe p q) := by
  refine h.trans ⟨fun _ _ => rfl, rfl, fun _ => rfl, fun _ h => h, fun k => ?_, fun _ => ⟨rfl, rfl, rfl⟩, rfl, rfl, rfl, rfl, rfl, rfl, rfl⟩
  rw [State.pipe_setPipe]
  split
  · rename_i hk
    subst hk
    exact ⟨fun hn => absurd hp hn, hi, hb⟩
  · exact ⟨fun _ => rfl, rfl, fun _ => rfl⟩

theorem State.addCntWrap_calm (h : Calm w s₀ s) : Calm w s₀ (s.addCntWrap a n) := h

theorem State.colCount_calm {eg : Bool} {c : Col} (h : Calm w s₀ s) : Calm w s₀ (s.colCount p eg c) :=
  State.addCntWrap_calm (State.addCntWrap_calm (State.addCntWrap_calm (State.addCntWrap_calm (State.addCntWrap_calm h))))

theorem State.wasteCols_calm {eg : Bool} (h : Calm w s₀ s) (hp : w.moved p) : Calm w s₀ (s.wasteCols p eg) := by
  unfold State.wasteCols State.setCols
  have h1 : Calm w s₀ ((s.cols p eg).foldl (fun s c => s.colCount p eg { c with left := 0, wasted := c.wasted + c.left }) s) :=
    h.foldl fun _ _ _ ht => State.colCount_calm ht
  refine State.setPipe_calm h1 hp ?_ fun hb => ?_
  · cases eg <;> rfl
  · rw [hb]
    cases eg <;> rfl

theorem State.setEmStage_calm {e : EmStage} (h : Calm w s₀ s) (hw : ¬ w.books) : Calm w s₀ (s.setEmStage p n e) :=
  h.trans ⟨fun _ _ => rfl, rfl, fun _ => rfl, fun _ h => h, fun _ => ⟨fun _ => rfl, rfl, fun _ => rfl⟩, fun hb => absurd hb hw,
    rfl, rfl, rfl, rfl, rfl, rfl, rfl⟩

theorem State.emReset_calm (h : Calm w s₀ s) (hw : ¬ w.books) : Calm w s₀ (s.emReset p n) := by
  unfold State.emReset
  extract_lets running group s1
  have h1 : Calm w s₀ s1 := State.setTopBit_calm (State.setEmStage_calm h hw) (free_of_le (by unfold R.STG_IA_CMD; omega))
    (.inr (.inl (by unfold R.STG_IA_CMD; omega)))
  exact .ite (State.setReg_calm h1 (free_of_le (by unfold R.STG_IA_STATUS; omega)) (.inr (.inl (by unfold R.STG_IA_STATUS; omega)))) h1

theorem State.tcReset_calm (h : Calm w s₀ s) : Calm w s₀ (s.tcReset p) := by
  have ha : Free (R.TC_IA_STATUS p) := free_of_le (by unfold R.TC_IA_STATUS; omega)
  have ho : OffPage (R.TC_IA_STATUS p) := .inr (.inl (by unfold R.TC_IA_STATUS; omega))
  unfold State.tcReset
  extract_lets own s1
  have h0 : Calm w s₀ (s.setTcPipe p {}) := h
  have h1 : Calm w s₀ s1 := State.setTopBit_calm (State.resetReg_calm h0 (free_of_le (by unfold R.TC_SCRUB_POS; omega)))
    (free_of_le (by unfold R.TC_IA_CMD; omega)) (.inr (.inl (by unfold R.TC_IA_CMD; omega)))
  exact .ite (State.setTopFld_calm (State.setTopFld_calm h1 ha ho) ha ho) h1

theorem free_ucSwap (p : Nat) : Free (R.STG_UC_SWAP p) := free_of_le (by unfold R.STG_UC_SWAP; omega)

theorem offPage_ucSwap (p : Nat) : OffPage (R.STG_UC_SWAP p) := .inr (.inl (by unfold R.STG_UC_SWAP; omega))

/-- A pipeline that is cleared keeps its image alone. -/
theorem State.pipeClear_spec (s : State) (hw : ¬ w.books) (hp : w.moved p) :
    Calm w s (s.pipeClear p) ∧ (s.pipeClear p).pipe p = { img := (s.pipe p).img } := by
  unfold State.pipeClear
  extract_lets q ks s1 s2 s3 s4 s5 s6 s7 pol grp slot tm s8 s9
  have h1 : Calm w s s1 := Calm.foldl (.refl w s) fun _ _ _ ht => State.pktGone_calm ht
  have h2 : Calm w s s2 := h1.foldl fun _ _ _ ht => ht.foldl fun _ _ _ ht => State.mcDone_calm ht
  have h3 : Calm w s s3 := State.wasteCols_calm (State.wasteCols_calm h2 hp) hp
  have h4 : Calm w s s4 := .ite (State.setTopFld_calm h3 (free_ucSwap p) (offPage_ucSwap p)) h3
  have h5 : Calm w s s5 := .ite (State.setTopBit_calm h4 (free_ucSwap p) (offPage_ucSwap p)) h4
  have h6 : Calm w s s6 := State.setTopBit_calm h5 (free_ucSwap p) (offPage_ucSwap p)
  have himg : (s6.pipe p).img = q.img := h6.img p
  have h7 : Calm w s s7 := State.setPipe_calm h6 hp himg.symm fun hb => by rw [hb, himg]
  have hbare : s7.pipe p = { img := q.img } := State.pipe_setPipe_same ..
  clear_value s7 pol grp slot tm
  have htail {v : Watch} {b : State} (hv : ¬ v.books) (hb : Calm v b s7) : Calm v b (s9.tcReset p) := by
    have h8 : Calm v b s8 := hb
    have h9 : Calm v b s9 := h8.foldl fun _ _ _ ht => State.emReset_calm ht hv
    exact State.tcReset_calm h9
  refine ⟨htail hw h7, ?_⟩
  rw [(htail hw (.refl w s7)).pipe_of_bare (by rw [hbare]; rfl), hbare]

theorem State.pipeClear_calm (h : Calm w s₀ s) (hw : ¬ w.books) (hp : w.moved p) : Calm w s₀ (s.pipeClear p) :=
  h.trans (s.pipeClear_spec hw hp).1

end

section

variable {w : Watch} {s₀ s t u : State} {n m p : Nat} {a : Nat} {f : Fld}

/-! ### Ostlers -/

theorem State.setThr_calm {q : Thr} (h : Calm w s₀ s) (hw : ¬ w.books) : Calm w s₀ (s.setThr n q) :=
  h.trans ⟨fun _ _ => rfl, rfl, fun _ => rfl, fun _ h => h, fun _ => ⟨fun _ => rfl, rfl, fun _ => rfl⟩, fun hb => absurd hb hw,
    rfl, rfl, rfl, rfl, rfl, rfl, rfl⟩

/-- What the Ostlers hold beside their threads changes. -/
theorem Calm.ost {x : OstSt} (h : Calm w s₀ s) (hw : ¬ w.books) : Calm w s₀ { s with ost := x } :=
  h.trans ⟨fun _ _ => rfl, rfl, fun _ => rfl, fun _ h => h, fun _ => ⟨fun _ => rfl, rfl, fun _ => rfl⟩, fun hb => absurd hb hw,
    rfl, rfl, rfl, rfl, rfl, rfl, rfl⟩

theorem free_smpPtr (n : Nat) : Free (R.CNT_SMP_PTR n) := free_of_le (by unfold R.CNT_SMP_PTR; omega)

theorem offPage_smpPtr (n : Nat) : OffPage (R.CNT_SMP_PTR n) := .inr (.inl (by unfold R.CNT_SMP_PTR; omega))

theorem State.smpWrite_calm {e : BitVec 64} (h : Calm w s₀ s) : Calm w s₀ (s.smpWrite n e) := by
  unfold State.smpWrite
  extract_lets a wrap count next c s1 s2 s3 s4
  have h1 : Calm w s₀ s1 := h
  have h2 : Calm w s₀ s2 := State.setTopFld_calm h1 (free_smpPtr n) (offPage_smpPtr n)
  have h3 : Calm w s₀ s3 := State.addCnt_calm h2
  have h4 : Calm w s₀ s4 := State.setTopFld_calm h3 (free_smpPtr n) (offPage_smpPtr n)
  exact .ite (State.addCnt_calm h) (.ite (State.setTopBit_calm (State.addCnt_calm h3) (free_smpPtr n) (offPage_smpPtr n))
    (.ite (State.ariseF_calm (State.setTopBit_calm h4 (free_smpPtr n) (offPage_smpPtr n)) (free_of_le (by unfold R.CNT_CAUSE; omega))
      (by decide)) h4))

theorem State.smpComplete_calm {t : Nat} (h : Calm w s₀ s) (hw : ¬ w.books) : Calm w s₀ (s.smpComplete n t) := by
  unfold State.smpComplete
  split
  · exact h
  · exact State.smpWrite_calm (State.setThr_calm h hw)

theorem State.smpLose_calm {t : Nat} (h : Calm w s₀ s) (hw : ¬ w.books) : Calm w s₀ (s.smpLose n t) := by
  unfold State.smpLose
  split
  · exact h
  · exact State.addCnt_calm (State.setThr_calm h hw)

theorem State.smpKind_calm {k : Nat} (h : Calm w s₀ s) (hw : ¬ w.books) : Calm w s₀ (s.smpKind n k) := by
  unfold State.smpKind
  split
  · exact h
  · exact State.setThr_calm h hw

theorem State.smpDone_calm (h : Calm w s₀ s) (hw : ¬ w.books) : Calm w s₀ (s.smpDone n) := .ite h (State.smpComplete_calm h hw)

theorem State.joinWake_calm {v : Word} (h : Calm w s₀ s) (hw : ¬ w.books) : Calm w s₀ (s.joinWake n v) := by
  unfold State.joinWake
  split
  · exact h
  · exact State.smpDone_calm (State.smpKind_calm (State.setThr_calm h hw) hw) hw

theorem State.slotsFree_calm (h : Calm w s₀ s) (hw : ¬ w.books) : Calm w s₀ (s.slotsFree n) := by
  unfold State.slotsFree
  extract_lets rq q s1
  have h1 : Calm w s₀ s1 := State.setThr_calm h hw
  refine h1.foldl fun t e _ ht => ?_
  split
  · exact .ite (State.bpmRelease_calm ht) ht
  · exact ht

theorem State.thrReset_calm (h : Calm w s₀ s) (hw : ¬ w.books) : Calm w s₀ (s.thrReset n) :=
  State.setThr_calm (State.smpLose_calm (State.joinWake_calm (State.slotsFree_calm h hw) hw) hw) hw

theorem State.setExcQ_calm {q : List ExcCopy} (h : Calm w s₀ s) (hw : ¬ w.books) : Calm w s₀ (s.setExcQ n m q) := h.ost hw

theorem free_ostOwnCause (n : Nat) : Free (R.OST_OWN_CAUSE n) := free_of_le (by unfold R.OST_OWN_CAUSE; omega)

theorem State.ostReset_calm (h : Calm w s₀ s) (hw : ¬ w.books) : Calm w s₀ (s.ostReset n) := by
  unfold State.ostReset
  extract_lets s1 s2 qs
  have h1 : Calm w s₀ s1 := h.foldl fun _ _ _ ht => State.thrReset_calm ht hw
  have h2 : Calm w s₀ s2 := h1.foldl fun _ _ _ ht => State.setExcQ_calm (ht.foldl fun _ _ _ ht => State.bpmRelease_calm ht) hw
  exact State.resetReg_calm ((h2.ost hw).ost hw) (free_ostOwnCause n)

theorem State.thrStart_calm {pc : Nat} {g1 g2 : Word} {d : Bool} (h : Calm w s₀ s) (hw : ¬ w.books) :
    Calm w s₀ (s.thrStart n pc g1 g2 d) := State.setThr_calm h hw

theorem State.custEntry_calm (h : Calm w s₀ s) (hw : ¬ w.books) : Calm w s₀ (s.custEntry n) := by
  unfold State.custEntry
  split
  · exact h
  · split
    · exact State.cause_calm h (free_ostOwnCause n) (by decide)
    · exact State.addCnt_calm (State.thrStart_calm h hw)

theorem State.supStart_calm (h : Calm w s₀ s) (hw : ¬ w.books) : Calm w s₀ (s.supStart n) := by
  unfold State.supStart
  split
  · exact h
  · exact .ite (State.thrStart_calm h hw) h

theorem State.ostRelease1_calm (h : Calm w s₀ s) (hw : ¬ w.books) : Calm w s₀ (s.ostRelease1 n) :=
  .ite (State.custEntry_calm (State.supStart_calm h hw) hw) (State.supStart_calm h hw)

theorem State.quadMove_calm (h : Calm w s₀ s) (hw : ¬ w.books) (hn : n < 128) : Calm w s₀ (s.quadMove n m) := by
  unfold State.quadMove
  extract_lets s1
  have h1 : Calm w s₀ s1 := h.foldl fun _ _ _ ht => State.thrReset_calm ht hw
  exact (State.setFld_calm h1 (by unfold Free R.PIT_OST_OWNER; omega) (by decide)).ost hw

/-! ### Rings, versions and counters of a Pitch -/

theorem State.excRingClear_calm (h : Calm w s₀ s) (hp : ∀ p ∈ s.pipesOf n, w.moved p) : Calm w s₀ (s.excRingClear n) := by
  refine h.foldl fun t p hm ht => ?_
  extract_lets q
  refine .ite (State.setPipe_calm ht (hp p hm) rfl fun hb => ?_) ht
  have hq : q.excWait = [] := by unfold q; rw [hb]
  show { q with excWait := q.excWait.filter fun x => decide (x.steer ≠ 1 ∧ x.steer ≠ 2) } = q
  rw [hq]
  unfold q
  rw [hb]
  rfl

theorem State.setRingQ_calm {q : List ExcCopy} (h : Calm w s₀ s) : Calm w s₀ (s.setRingQ n m q) := h

theorem State.setKept_calm {q : List Nat} (h : Calm w s₀ s) : Calm w s₀ (s.setKept n q) := h

theorem State.clearCnts_calm {q : Nat → Bool} (h : Calm w s₀ s) : Calm w s₀ (s.clearCnts q) := h

theorem State.setCnt_calm (h : Calm w s₀ s) : Calm w s₀ (s.setCnt a n) := h

theorem State.setVer_calm {q : VerSt} (h : Calm w s₀ s) : Calm w s₀ (s.setVer n q) := h

theorem State.dmaPitchReset_calm (h : Calm w s₀ s) (hp : ∀ p ∈ s.pipesOf n, w.moved p) : Calm w s₀ (s.dmaPitchReset n) := by
  have hr : Calm w s₀ (s.dmaRelease n) := State.setKept_calm (State.setRingQ_calm (State.setRingQ_calm (State.excRingClear_calm
    (State.bpmReleaseAll_calm h) fun p hm => hp p (by rwa [(State.bpmReleaseAll_calm (.refl w s)).pipesOf] at hm))))
  have ha (r : Nat) : Free (R.DMA_RING_CTL n r) := free_of_le (by unfold R.DMA_RING_CTL; omega)
  have ho (r : Nat) : OffPage (R.DMA_RING_CTL n r) := .inr (.inl (by unfold R.DMA_RING_CTL; omega))
  unfold State.dmaPitchReset
  extract_lets s1 s2
  have h2 : Calm w s₀ s2 := hr.foldl fun t r _ ht =>
    State.zeroReg_calm (State.zeroReg_calm (State.setTopBit_calm (State.setTopBit_calm ht (ha r) (ho r)) (ha r) (ho r))
      (free_of_le (by unfold R.DMA_RING_HEAD; omega))) (free_of_le (by unfold R.DMA_RING_TAIL; omega))
  exact State.clearCnts_calm h2

theorem State.gwDone_calm {res loc : Nat} (h : Calm w s₀ s) : Calm w s₀ (s.gwDone p res loc) := by
  have ha : Free (R.VER_GW_STATUS p) := free_of_le (by unfold R.VER_GW_STATUS; omega)
  have ho : OffPage (R.VER_GW_STATUS p) := .inr (.inl (by unfold R.VER_GW_STATUS; omega))
  exact State.setTopBit_calm (State.setTopFld_calm (State.setTopFld_calm h ha ho) ha ho) (free_of_le (by unfold R.VER_GW_CMD; omega))
    (.inr (.inl (by unfold R.VER_GW_CMD; omega)))

theorem State.verReset_calm (h : Calm w s₀ s) (hp : ∀ p ∈ s.pipesOf n, w.moved p) : Calm w s₀ (s.verReset n) := by
  unfold State.verReset
  extract_lets s1 s2
  have h2 {v : Watch} {b : State} (hb : Calm v b s) : Calm v b s2 :=
    State.zeroReg_calm (State.setVer_calm (State.zeroReg_calm (State.zeroReg_calm hb (free_of_le (by unfold R.VER_STATUS; omega)))
      (free_of_le (by unfold R.VER_NUM; omega)))) (free_of_le (by unfold R.VER_CAUSE; omega))
  refine (h2 h).foldl fun t p hm ht => ?_
  rw [(h2 (.refl w s)).pipesOf] at hm
  extract_lets q t1 t2
  have k1 : Calm w s₀ t1 := State.setPipe_calm ht (hp p hm) rfl fun hb => by
    show { t.pipe p with landing := false } = t.pipe p
    rw [hb]
  have k2 : Calm w s₀ t2 := .ite (State.gwDone_calm k1) k1
  exact State.setCnt_calm (State.setTopFld_calm k2 (free_of_le (by unfold R.VER_PIPE; omega)) (.inr (.inl (by unfold R.VER_PIPE; omega))))

theorem State.snapReset_calm (h : Calm w s₀ s) : Calm w s₀ (s.snapReset n) := by
  have ha : Free (R.CNT_SNAP_CTL n) := free_of_le (by unfold R.CNT_SNAP_CTL; omega)
  have ho : OffPage (R.CNT_SNAP_CTL n) := .inr (.inl (by unfold R.CNT_SNAP_CTL; omega))
  have h1 : Calm w s₀ ((s.snapThaw n).setSnapRun n none) := State.setTopBit_calm (s := s) h ha ho
  exact State.setTopBit_calm (State.setTopBit_calm h1 ha ho) ha ho

theorem State.smpRestartCount_calm (h : Calm w s₀ s) : Calm w s₀ (s.smpRestartCount n) := by
  unfold State.smpRestartCount State.smpInterval
  dsimp only
  split
  · exact h
  · exact h

theorem State.cntReset_calm (h : Calm w s₀ s) : Calm w s₀ (s.cntReset n) := by
  unfold State.cntReset
  extract_lets s1 s2 c s3 s4
  have h1 : Calm w s₀ s1 := State.resetReg_calm (State.snapReset_calm h) (free_smpPtr n)
  have h3 : Calm w s₀ s3 := State.smpRestartCount_calm h1
  have h4 : Calm w s₀ s4 := h3.foldl fun t i _ ht =>
    State.resetReg_calm (State.setTopBit_calm ht (free_of_le (by unfold R.CNT_MON_CTL; omega)) (.inr (.inl (by unfold R.CNT_MON_CTL; omega))))
      (free_of_le (by unfold R.CNT_MON_MAX; omega))
  exact State.clearCnts_calm h4

theorem State.reclaimEnd_calm {r : Nat} (h : Calm w s₀ s) : Calm w s₀ (s.reclaimEnd n r) := by
  have ha : Free (R.BPM_RECLAIM n) := free_of_le (by unfold R.BPM_RECLAIM; omega)
  have ho : OffPage (R.BPM_RECLAIM n) := .inr (.inl (by unfold R.BPM_RECLAIM; omega))
  have h1 : Calm w s₀ (s.setRecl n none) := h
  exact State.setTopFld_calm (State.setTopBit_calm h1 ha ho) ha ho

end

end Sys2Proof.Machine
end

section
/-! SUPPORT. The Pitches that enter and leave reset at the end of a fabric cycle (R69). -/

namespace Sys2Proof.Machine

section

variable {w : Watch} {s₀ s t u : State} {n m p : Nat} {a : Nat} {f : Fld}

/-! ### A Pitch enters reset, and leaves it -/

/-- What a step of a run over a list makes true for its own element, and no step undoes, holds of every element at the end. -/
theorem foldl_all {α : Type} {g : State → α → State} {Q : α → State → Prop} {l : List α} (hg : ∀ t, ∀ x ∈ l, Q x (g t x))
    (hk : ∀ t x, ∀ y ∈ l, Q x t → Q x (g t y)) (s : State) : ∀ x ∈ l, Q x (l.foldl g s) := by
  have keep : ∀ (l' : List α) (t : State) (x : α), (∀ y ∈ l', y ∈ l) → Q x t → Q x (l'.foldl g t) := by
    intro l'
    induction l' with
    | nil => exact fun _ _ _ h => h
    | cons y l' ih => exact fun t x hl h => ih _ x (fun z hz => hl z (by simp [hz])) (hk t x y (hl y (by simp)) h)
  have all : ∀ (l' : List α) (t : State), (∀ y ∈ l', y ∈ l) → ∀ x ∈ l', Q x (l'.foldl g t) := by
    intro l'
    induction l' with
    | nil => simp
    | cons y l' ih =>
      intro t hl x hx
      have hl' : ∀ z ∈ l', z ∈ l := fun z hz => hl z (by simp [hz])
      rcases List.mem_cons.1 hx with rfl | hx
      · exact keep l' _ x hl' (hg t x (hl x (by simp)))
      · exact ih _ hl' x hx
  exact all l s fun _ h => h

theorem State.setAudQ_calm {q : List AudRep} (h : Calm w s₀ s) : Calm w s₀ (s.setAudQ n q) := h

theorem State.dropPend_calm {q : Nat → Bool} (h : Calm w s₀ s) : Calm w s₀ (s.dropPend q) := h

theorem Calm.tm {x : TmSt} {y : TsSt} {z : SMap Buckets} (h : Calm w s₀ s) : Calm w s₀ { s with tm := x, ts := y, excPol := z } := h

theorem Calm.faulted {x : SMap Bool} (h : Calm w s₀ s) : Calm w s₀ { s with pw := { s.pw with faulted := x } } := h

theorem Calm.hist {x : SMap (List HistEntry)} {y : SMap (Option HistEntry)} (h : Calm w s₀ s) :
    Calm w s₀ { s with irq := { s.irq with hist := x, last := y } } := h

theorem State.mem_pipesOf (s : State) (n p : Nat) : p ∈ s.pipesOf n ↔ p < 16 ∧ s.ownerOfPipe p = n := by
  simp [State.pipesOf]

theorem mem_portsOf {ps : List Nat} {e : Nat} : e ∈ ps.flatMap (fun p => (List.range 64).map (64 * p + ·)) ↔ e / 64 ∈ ps := by
  simp only [List.mem_flatMap, List.mem_map, List.mem_range]
  constructor
  · rintro ⟨p, hp, i, hi, rfl⟩
    rwa [show (64 * p + i) / 64 = p by omega]
  · exact fun h => ⟨e / 64, h, e % 64, by omega, by omega⟩

theorem pipeDoms_lt {d : Nat} (hp : p < 16) (hd : d ∈ pipeDoms p) : d < 135 := by
  simp only [pipeDoms, List.mem_cons, List.not_mem_nil, or_false] at hd
  omega

theorem State.pipeClear_bare (s : State) (p : Nat) : ((s.pipeClear p).pipe p).Bare := by
  rw [(s.pipeClear_spec (w := ⟨False, True, fun _ => True⟩) id trivial).2]
  rfl

theorem State.portDrop_calm (h : Calm w s₀ s) : Calm w s₀ ((s.portDisable n).setBit (R.TM_PORT_STATUS n) F.TM_PORT_STATUS.DOWN_DROP false) :=
  State.setTopBit_calm (State.portDisable_calm h) (free_tmPortStatus n) (.inr (.inl (by unfold R.TM_PORT_STATUS; omega)))

/-- The pipelines of Pitch `n` may move, and so may the books. -/
def Watch.pitch (M : Nat → Prop) : Watch := ⟨False, True, M⟩

theorem State.pitchEnter_spec (s : State) {M : Nat → Prop} (hn : 1 ≤ n ∧ n ≤ 16) (hM : ∀ p ∈ s.pipesOf n, M p) :
    Calm (.pitch M) s (s.pitchEnter n) ∧ (∀ p ∈ s.pipesOf n, ((s.pitchEnter n).pipe p).Bare) ∧
      ∀ e : PortNo, pipeOfPort e ∈ s.pipesOf n → (s.pitchEnter n).fld (R.PORT_CTL e) F.PORT_CTL.EN = 0 := by
  have hp16 {p : Nat} (h : p ∈ s.pipesOf n) : p < 16 := ((s.mem_pipesOf n p).1 h).1
  have hb (M) : ¬ (Watch.pitch M).books := id
  unfold State.pitchEnter
  extract_lets ps ports s1 count now s2 s3 s4 mine tm0 tm ts0 ts s5 s6 s7 s8 s9 s10 s11 s12 s13 s14 s15 s16 s17 irq
  have h3 : Calm (.pitch M) s s3 := Calm.foldl (Calm.foldl (State.wbTick_calm (.refl _ s)) fun _ _ _ ht => State.cmisAbort_calm ht)
    fun _ _ _ ht => State.portDrop_calm ht
  have hen : ∀ e ∈ ports, ∀ h : e < 1024, s3.fld (R.PORT_CTL e) F.PORT_CTL.EN = 0 :=
    foldl_all (Q := fun e t => ∀ h : e < 1024, t.fld (R.PORT_CTL e) F.PORT_CTL.EN = 0)
      (fun t e _ h => (State.setTopBit_calm (w := .pitch M) (.refl _ _) (free_tmPortStatus e)
        (.inr (.inl (by unfold R.TM_PORT_STATUS; omega)))).portCtl ⟨e, h⟩ (t.portDisable_en ⟨e, h⟩))
      (fun t e y _ he h => (State.portDrop_calm (w := .pitch M) (.refl _ _)).portCtl ⟨e, h⟩ (he h)) s2
  clear_value s3
  have h4 : Calm (.pitch M) s s4 := h3.foldl fun _ p hp ht => State.pipeClear_calm ht (hb M) (hM p hp)
  have hbare : ∀ p ∈ ps, (s4.pipe p).Bare :=
    foldl_all (Q := fun p t => (t.pipe p).Bare) (fun t p _ => t.pipeClear_bare p)
      (fun t p y hy h => (State.pipeClear_calm (w := .pitch fun _ => True) (.refl _ t) (hb _) trivial).bare h) s3
  have hen4 : ∀ e ∈ ports, ∀ h : e < 1024, s4.fld (R.PORT_CTL e) F.PORT_CTL.EN = 0 := fun e he h => by
    have k : Calm (.pitch fun _ => True) s3 s4 := Calm.foldl (.refl _ _) fun _ p _ ht => State.pipeClear_calm ht (hb _) trivial
    exact k.portCtl ⟨e, h⟩ (hen e he h)
  clear_value s4
  have h5 : Calm (.pitch M) s4 s5 := (Calm.refl _ s4).tm
  clear_value s5
  have h6 : Calm (.pitch M) s4 s6 := h5.foldl fun _ e _ ht => State.zeroReg_calm ht (free_fcStatus e)
  have hpipes {t : State} (ht : Calm (.pitch M) s4 t) : ∀ p ∈ t.pipesOf n, M p := fun p hp => hM p (by
    rwa [(h4.trans ht).pipesOf] at hp)
  have h6' : Calm (.pitch M) s4 (s6.ostReset n) := State.ostReset_calm h6 (hb M)
  have h7 : Calm (.pitch M) s4 s7 := State.dmaPitchReset_calm h6' (hpipes h6')
  clear_value s7
  have h8 : Calm (.pitch M) s4 s8 := State.setAudQ_calm (State.bpmReleaseAll_calm h7)
  have h9 : Calm (.pitch M) s4 s9 := .ite (State.reclaimEnd_calm h8) h8
  have h10 : Calm (.pitch M) s4 s10 := State.wbReset_calm h9
  have h11 : Calm (.pitch M) s4 s11 := State.cntReset_calm (State.verReset_calm h10 (hpipes h10))
  clear_value s11
  have h12 : Calm (.pitch M) s4 s12 := h11.foldl fun _ p hp ht => State.lanesClear_calm ht (hp16 hp)
  have h13 : Calm (.pitch M) s4 s13 := h12.foldl fun _ p hp ht => ht.foldl fun _ d hd ht => State.domDown_calm ht (pipeDoms_lt (hp16 hp) hd)
  have h14 : Calm (.pitch M) s4 s14 := State.kRefresh_calm (State.zeroReg_calm h13 (by unfold Free R.PST_PIT_GRANT; omega))
  clear_value s14
  have h15 : Calm (.pitch M) s4 s15 := State.dropPend_calm h14
  have h16 : Calm (.pitch M) s4 s16 := h15.drop fun a ha => State.pitchCleared_free (by omega) ha
  have h17 : Calm (.pitch M) s4 s17 := State.clearCnts_calm h16
  have hend := h17.hist (x := SMap.drop s17.irq.hist (· == n)) (y := SMap.drop s17.irq.last (· == n))
  refine ⟨h4.trans hend, fun p hp => hend.bare (hbare p hp), fun e he => hend.portCtl e (hen4 e (mem_portsOf.2 he) e.isLt)⟩

theorem State.pitchLeave_calm (h : Calm w s₀ s) (hw : ¬ w.books) : Calm w s₀ (s.pitchLeave n) := by
  have hps {d : Nat} (hd : d ∈ (s.pipesOf n).flatMap pipeDoms) : d < 135 := by
    obtain ⟨p, hp, hd⟩ := List.mem_flatMap.1 hd
    exact pipeDoms_lt ((s.mem_pipesOf n p).1 hp).1 hd
  unfold State.pitchLeave
  extract_lets ps mine tm0 tm s1 s2
  have h1 : Calm w s₀ s1 := h.tm
  have h2 : Calm w s₀ s2 := h1.foldl fun t d hd ht => by
    have hd := hps hd
    extract_lets pw
    have k : Calm w s₀ (t.setDomBit R.PST_DOM_FAIL d false) :=
      State.setDomBit_calm ht (by unfold Free R.PST_DOM_FAIL; omega) (by unfold R.PST_DOM_FAIL; omega)
    exact .ite k.faulted ht
  exact State.ostRelease1_calm h2 hw

end

section

variable {w : Watch} {s₀ s t u : State} {n m p : Nat} {a : Nat} {f : Fld}

/-! ### The end of the fabric cycle -/

/-- The pipelines of Pitch `n` are empty, and its ports disabled. -/
def State.Halted (s : State) (n : Nat) : Prop :=
  ∀ p ∈ s.pipesOf n, (s.pipe p).Bare ∧ ∀ e : PortNo, pipeOfPort e = p → s.fld (R.PORT_CTL e) F.PORT_CTL.EN = 0

theorem State.pitchEnter_halted (s : State) (hn : 1 ≤ n ∧ n ≤ 16) : (s.pitchEnter n).Halted n := by
  obtain ⟨hc, hb, he⟩ := s.pitchEnter_spec (M := fun _ => True) hn fun _ _ => trivial
  intro p hp
  rw [hc.pipesOf] at hp
  exact ⟨hb p hp, fun e h => he e (by rwa [h])⟩

theorem Calm.halted (h : Calm w s t) (hs : s.Halted n) : t.Halted n := by
  intro p hp
  rw [h.pipesOf] at hp
  exact ⟨h.bare (hs p hp).1, fun e he => h.portCtl e ((hs p hp).2 e he)⟩

theorem State.pitchesEnter_calm {l : List Nat} {M : Nat → Prop} (hl : ∀ n ∈ l, 1 ≤ n ∧ n ≤ 16) (hM : ∀ n ∈ l, ∀ p ∈ s.pipesOf n, M p) :
    Calm (.pitch M) s (l.foldl (fun s n => s.pitchEnter n) s) :=
  (Calm.refl _ s).foldl fun t n hn ht => ht.trans (t.pitchEnter_spec (hl n hn) fun p hp => hM n hn p (by rwa [ht.pipesOf] at hp)).1

theorem State.pitchesEnter_halted {l : List Nat} (hl : ∀ n ∈ l, 1 ≤ n ∧ n ≤ 16) :
    ∀ n ∈ l, (l.foldl (fun s n => s.pitchEnter n) s).Halted n :=
  foldl_all (Q := fun n t => t.Halted n) (fun t n hn => t.pitchEnter_halted (hl n hn))
    (fun t _ m hm h => (t.pitchEnter_spec (M := fun _ => True) (hl m hm) fun _ _ => trivial).1.halted h) s

theorem State.portEnabled_of_en (h : s.fld (R.PORT_CTL n) F.PORT_CTL.EN = 0) : s.portEnabled n = false := by
  simp [State.portEnabled, State.bit, h]

/-- What the end of a fabric cycle leaves of the Pitch map and of the pipelines (R69, R530). -/
theorem State.pitCycleEnd_spec (hl : ∀ n ∈ s.irq.pitEnter, 1 ≤ n ∧ n ≤ 16) :
    s.pitCycleEnd.irq.pitEnter = [] ∧ s.pitCycleEnd.irq.pitLeave = [] ∧ ∀ p : PipeNo, s.pitCycleEnd.ownerOfPipe p = s.ownerOfPipe p ∧
      (s.ownerOfPipe p ∉ s.irq.pitEnter → s.pitCycleEnd.pipe p = s.pipe p) ∧
      (s.ownerOfPipe p ∈ s.irq.pitEnter → s.pitCycleEnd.pipe p = { img := (s.pipe p).img } ∧
        ∀ e : PortNo, pipeOfPort e = p → s.pitCycleEnd.portEnabled e = false) := by
  unfold State.pitCycleEnd
  extract_lets s1
  have h1 : Calm (.pitch fun p => s.ownerOfPipe p ∈ s.irq.pitEnter) (s.setPitEnter []) s1 := State.pitchesEnter_calm hl fun n hn p hp => by
    rwa [show s.ownerOfPipe p = n from (((s.setPitEnter []).mem_pipesOf n p).1 hp).2]
  have hhalt : ∀ n ∈ s.irq.pitEnter, s1.Halted n := State.pitchesEnter_halted hl
  clear_value s1
  generalize hq : s1.irq.pitLeave = q
  clear hq
  have h2 : Calm (.pitch fun p => s.ownerOfPipe p ∈ s.irq.pitEnter) (s1.setPitLeave []) (q.foldl (fun s n => s.pitchLeave n) (s1.setPitLeave [])) :=
    (Calm.refl _ _).foldl fun _ _ _ ht => State.pitchLeave_calm ht id
  have howner (p : PipeNo) : (q.foldl (fun s n => s.pitchLeave n) (s1.setPitLeave [])).ownerOfPipe p = s.ownerOfPipe p :=
    (h2.ownerOfPipe p.isLt).trans (h1.ownerOfPipe p.isLt)
  refine ⟨h2.enter.trans h1.enter, h2.leave, fun p => ⟨howner p, fun hp => (h2.pipe hp).trans (h1.pipe hp), fun hp => ?_⟩⟩
  have hmem : p.val ∈ (q.foldl (fun s n => s.pitchLeave n) (s1.setPitLeave [])).pipesOf (s.ownerOfPipe p) :=
    (State.mem_pipesOf ..).2 ⟨p.isLt, howner p⟩
  have hend : State.Halted (s1.setPitLeave []) (s.ownerOfPipe p) := hhalt _ hp
  obtain ⟨hbare, hen⟩ := h2.halted hend p.val hmem
  refine ⟨?_, fun e he => State.portEnabled_of_en (hen e he)⟩
  rw [hbare, h2.img, show ((s1.setPitLeave []).pipe p).img = (s1.pipe p).img from rfl, h1.img]
  rfl

/-! ### A commit -/

theorem State.setUcStore_calm {q : UcStore} (h : Calm w s₀ s) : Calm w s₀ (s.setUcStore p n q) := h

/-- A pipeline is unloaded: it is empty, and nothing but registers of its own and its microcode goes with it (R66). -/
theorem State.unload_calm (hp : p < 16) : Calm (.pitch fun _ => False) (s.setPipe p {}) (s.unload p) := by
  unfold State.unload
  extract_lets s1 s2 s3 s4 s5
  change Calm _ s1 _
  clear_value s1
  have h1 : Calm (.pitch fun _ => False) s1 s1 := .refl _ _
  have h2 : Calm (.pitch fun _ => False) s1 s2 := h1.foldl fun _ _ _ ht => State.setUcStore_calm ht
  have h3 : Calm (.pitch fun _ => False) s1 s3 := h2.drop fun a ha => free_of_le (by have := of_decide_eq_true ha; omega)
  have h4 : Calm (.pitch fun _ => False) s1 s4 := h3.drop fun a ha => pipeRetained_free ha
  have h5 : Calm (.pitch fun _ => False) s1 s5 := h4.foldl fun _ i hi ht =>
    State.zeroReg_calm ht (by have := List.mem_range.1 hi; unfold Free R.DEV_IMG_HASH; omega)
  have ha : Free (R.DEV_IMG_STATUS p) := by
    unfold Free R.DEV_IMG_STATUS
    omega
  have ho : OffPage (R.DEV_IMG_STATUS p) := .inl (by unfold R.DEV_IMG_STATUS; omega)
  exact State.setTopBit_calm (State.setTopBit_calm h5 ha ho) ha ho

theorem State.setPipe_reg (s : State) (p : Nat) (q : PipeSt) (a : Nat) : (s.setPipe p q).reg a = s.reg a := rfl

theorem State.setPipe_commit (s : State) (p : Nat) (q : PipeSt) : (s.setPipe p q).pw.commit = s.pw.commit := rfl

/-- From `s` to `t` the pipelines of `l` have been emptied. -/
structure Emptied (l : List Nat) (s t : State) : Prop where
  fixed : ∀ a, Fixed a → t.reg a = s.reg a
  commit : t.pw.commit = s.pw.commit
  pipe : ∀ p, t.pipe p = if p ∈ l then {} else s.pipe p

theorem State.unloads_emptied {l : List Nat} (hl : ∀ p ∈ l, p < 16) (s : State) : Emptied l s (l.foldl (fun s p => s.unload p) s) := by
  induction l generalizing s with
  | nil => exact ⟨fun _ _ => rfl, rfl, fun _ => rfl⟩
  | cons k l ih =>
    have hu := State.unload_calm (s := s) (hl k (by simp))
    obtain ⟨hfix, hcom, hpipe⟩ := ih (fun p hp => hl p (by simp [hp])) (s.unload k)
    rw [List.foldl_cons]
    refine ⟨fun a ha => ?_, ?_, fun p => ?_⟩
    · rw [hfix a ha, hu.reg ha, State.setPipe_reg]
    · rw [hcom, hu.commit, State.setPipe_commit]
    rw [hpipe p]
    rw [hu.pipe id, State.pipe_setPipe]
    by_cases hk : p = k <;> by_cases hl : p ∈ l <;> simp [hk, hl]

/-- The Pitch map takes the owners of `map` for the pipelines of `l`. -/
theorem State.mapped_spec {l map : List Nat} (hl : ∀ p ∈ l, p < 16) (hm : ∀ p ∈ l, map.getD p 0 ≤ 16) (s : State) :
    (l.foldl (fun s p => s.setFld (R.PIT_MAP p) F.PIT_MAP.OWNER (map.getD p 0)) s).pipes = s.pipes ∧
    (l.foldl (fun s p => s.setFld (R.PIT_MAP p) F.PIT_MAP.OWNER (map.getD p 0)) s).pw = s.pw ∧
    ∀ p, (l.foldl (fun s p => s.setFld (R.PIT_MAP p) F.PIT_MAP.OWNER (map.getD p 0)) s).ownerOfPipe p =
      if p ∈ l then map.getD p 0 else s.ownerOfPipe p := by
  induction l generalizing s with
  | nil => exact ⟨rfl, rfl, fun _ => rfl⟩
  | cons k l ih =>
    obtain ⟨h1, h2, h3⟩ := ih (fun p hp => hl p (by simp [hp])) (fun p hp => hm p (by simp [hp]))
      (s.setFld (R.PIT_MAP k) F.PIT_MAP.OWNER (map.getD k 0))
    refine ⟨h1, h2, fun p => (h3 p).trans ?_⟩
    by_cases hpl : p ∈ l
    · simp [hpl]
    · rw [if_neg hpl]
      by_cases hpk : p = k
      · subst hpk
        rw [if_pos (by simp), State.ownerOfPipe, State.fld_setFld _ _ _ _ (by decide)]
        exact Nat.mod_eq_of_lt (Nat.lt_of_le_of_lt (hm p (by simp)) (by decide))
      · rw [if_neg (by simp [hpk, hpl])]
        exact State.fld_setFld_ne _ _ _ _ _ _ (by unfold R.PIT_MAP; omega)

theorem State.pitchEmptied_calm (h : Calm w s₀ s) (hw : ¬ w.books) (hn : 1 ≤ n ∧ n < 32) : Calm w s₀ (s.pitchEmptied n) := by
  unfold State.pitchEmptied
  extract_lets s1 s2 s3 ps ost s4 s5 s6 pst ids back s7
  have h1 : Calm w s₀ s1 := State.zeroReg_calm h (by unfold Free R.PIT_MC_RANGE; omega)
  have h2 : Calm w s₀ s2 := h1.foldl fun _ q hq ht =>
    State.zeroReg_calm ht (by have := List.mem_range.1 hq; unfold Free R.PIT_BUF_RSV; omega)
  have h3 : Calm w s₀ s3 := h2.foldl fun _ q hq ht => State.quadMove_calm ht hw (by
    simp only [State.quadsOf, List.mem_filter, List.mem_range] at hq
    exact hq.1)
  have h4 : Calm w s₀ s4 := h3.ost hw
  clear_value s4
  have h5 : Calm w s₀ s5 := State.setTopBit_calm (State.setBit_calm h4 (free_of_le (by unfold R.OST_OWN_STATUS; omega)) (by decide))
    (free_of_le (by unfold R.OST_CUST_CTL; omega)) (.inr (.inl (by unfold R.OST_CUST_CTL; omega)))
  have h6 : Calm w s₀ s6 := State.setFld_calm h5 (free_of_le (by unfold R.OST_CUST_CTL; omega)) (by decide)
  clear_value s6
  have h7 : Calm w s₀ s7 := State.dropPend_calm (h6.drop fun a ha => by
    simp only [back, pst, Bool.or_eq_true, Bool.and_eq_true, beq_iff_eq, decide_eq_true_eq] at ha
    rcases ha with (rfl | rfl) | ⟨ho, -⟩
    · unfold Free R.PST_PIT_SHARE
      omega
    · unfold Free R.PST_PIT_CTL
      omega
    · by_contra hf
      rw [State.regOwner_shared hf] at ho
      exact absurd ho (by simp))
  exact h7.tm

theorem State.expLeave_calm (h : Calm w s₀ s) : Calm w s₀ s.expLeave := by
  refine h.foldl fun t k hk ht => ?_
  have hk := List.mem_range.1 hk
  extract_lets a
  exact .ite (State.setTopBit_calm ht (free_of_le (by unfold a R.WB_EXP_PORT; omega)) (.inl (by unfold a R.WB_EXP_PORT; omega))) ht

end

end Sys2Proof.Machine
end

section
/-! SUPPORT. The commit of the Pitch map (R64 to R66): its start, its conditions and its end. -/

namespace Sys2Proof.Machine

section

variable {w : Watch} {s₀ s t u : State} {n m p : Nat} {a : Nat} {f : Fld}

/-- From `s` to `t` the Pitch map has become `map`: the pipelines that change owner are empty, and the others as they were (R66). -/
structure Remapped (map : List Nat) (s t : State) : Prop where
  commit : t.pw.commit = s.pw.commit
  owner : ∀ p < 16, t.ownerOfPipe p = map.getD p 0
  stays : ∀ p < 16, map.getD p 0 = s.ownerOfPipe p → t.pipe p = s.pipe p
  moves : ∀ p < 16, map.getD p 0 ≠ s.ownerOfPipe p → t.pipe p = {}

theorem Remapped.calm {map : List Nat} {v : Nat → Prop} (h : Remapped map s t) (k : Calm (.pitch v) t u) (hv : ∀ p < 16, ¬ v p) : Remapped map s u where
  commit := k.commit.trans h.commit
  owner p hp := (k.ownerOfPipe hp).trans (h.owner p hp)
  stays p hp he := (k.pipe (hv p hp)).trans (h.stays p hp he)
  moves p hp he := (k.pipe (hv p hp)).trans (h.moves p hp he)

theorem State.commitApplyMap_spec (s : State) {map : List Nat} (hm : ∀ p < 16, map.getD p 0 ≤ 16) : Remapped map s (s.commitApplyMap map) := by
  have hmem {p : Nat} : p ∈ ((List.range 16).filter fun p => decide (map.getD p 0 ≠ s.ownerOfPipe p)) ↔ p < 16 ∧ map.getD p 0 ≠ s.ownerOfPipe p := by
    simp
  unfold State.commitApplyMap
  extract_lets ch olds ports s1 s2 moved s3 s4 s5 s6 s7
  have hch {p : Nat} : p ∈ ch ↔ p < 16 ∧ map.getD p 0 ≠ s.ownerOfPipe p := hmem
  have holds : ∀ n ∈ olds, 1 ≤ n ∧ n < 32 := fun n hn => by
    simp only [olds, List.mem_filter, List.mem_eraseDups, List.mem_map, decide_eq_true_eq] at hn
    obtain ⟨⟨p, -, rfl⟩, h0⟩ := hn
    exact ⟨by omega, s.ownerOfPipe_lt p⟩
  clear_value ch olds
  have h1 : Calm (.pitch (· ∈ ch)) s s1 := (Calm.refl _ s).foldl fun _ _ _ ht => .ite (State.portDisable_calm ht) ht
  have hc : Calm (.pitch (· ∈ ch)) s (ch.foldl (fun s p => (s.pipeClear p).lanesClear p) s1) := h1.foldl fun _ p hp ht =>
    State.lanesClear_calm (State.pipeClear_calm ht id hp) (hch.1 hp).1
  have h2 : Emptied ch (ch.foldl (fun s p => (s.pipeClear p).lanesClear p) s1) s2 := State.unloads_emptied (fun p hp => (hch.1 hp).1) _
  clear_value s2
  have h3 : Calm (.pitch fun _ => False) s2 s3 := (Calm.refl _ s2).drop fun a ha => by
    obtain ⟨p, -, hp⟩ := List.any_eq_true.1 ha
    exact pipeCleared_free hp
  have h5 : Calm (.pitch fun _ => False) s2 s5 := State.dropPend_calm (State.clearCnts_calm h3)
  clear_value s5
  obtain ⟨hpipes, hpw, hown⟩ := State.mapped_spec (fun p hp => (hch.1 hp).1) (fun p hp => hm p (hch.1 hp).1) s5
  change s6.pipes = _ at hpipes
  change s6.pw = _ at hpw
  change ∀ p, s6.ownerOfPipe p = _ at hown
  clear_value s6
  have h7 : Calm (.pitch fun _ => False) s6 s7 := (Calm.refl _ s6).foldl fun _ n hn ht =>
    State.pitchEmptied_calm ht id (holds n (List.mem_filter.1 hn).1)
  have hold (p : Nat) (hp : p < 16) : s5.ownerOfPipe p = s.ownerOfPipe p :=
    ((h5.ownerOfPipe hp).trans (State.fld_of_reg (h2.fixed _ (fixed_pitMap hp)))).trans (hc.ownerOfPipe hp)
  have hpipe (p : Nat) : s6.pipe p = if p ∈ ch then {} else s.pipe p := by
    rw [State.pipe, hpipes]
    change s5.pipe p = _
    rw [h5.pipe id, h2.pipe]
    split
    · rfl
    · rename_i hp
      exact hc.pipe hp
  have h6 : Remapped map s s6 := by
    refine ⟨?_, fun p hp => ?_, fun p hp he => ?_, fun p hp he => ?_⟩
    · rw [hpw, h5.commit, h2.commit, hc.commit]
    · rw [hown]
      split
      · rfl
      · rename_i hn
        rw [hold p hp]
        by_contra he
        exact hn (hch.2 ⟨hp, fun e => he e.symm⟩)
    · rw [hpipe, if_neg fun h => (hch.1 h).2 he]
    · rw [hpipe, if_pos (hch.2 ⟨hp, he⟩)]
  exact h6.calm (State.expLeave_calm h7) fun _ _ => id

/-! ### A write of PIT_CTL -/

/-- From `s` to `t` the pipelines, the power state and the Pitch map with its commit stay. -/
structure AtPit (s t : State) : Prop where
  pipes : t.pipes = s.pipes
  pw : t.pw = s.pw
  regs : ∀ a, 0x40040 ≤ a → a < 0x40084 → t.reg a = s.reg a

theorem AtPit.refl (s : State) : AtPit s s := ⟨rfl, rfl, fun _ _ _ => rfl⟩

theorem AtPit.trans (h : AtPit s t) (k : AtPit t u) : AtPit s u :=
  ⟨k.pipes.trans h.pipes, k.pw.trans h.pw, fun a h1 h2 => (k.regs a h1 h2).trans (h.regs a h1 h2)⟩

theorem AtPit.ite {c : Prop} [Decidable c] (ht : AtPit s t) (hu : AtPit s u) : AtPit s (if c then t else u) := by
  split <;> assumption

theorem AtPit.irq {x : IrqSt} (h : AtPit s t) : AtPit s { t with irq := x } := ⟨h.pipes, h.pw, h.regs⟩

theorem State.setReg_atPit (s : State) {a : Nat} (v : Word) (ha : ¬ (0x40040 ≤ a ∧ a < 0x40084)) : AtPit s (s.setReg a v) :=
  ⟨rfl, rfl, fun b h1 h2 => State.reg_setReg_ne _ _ _ _ (by omega)⟩

theorem State.accessViolation_atPit (s : State) (n a : Nat) (write bad : Bool) : AtPit s (s.accessViolation n a write bad) := by
  unfold State.accessViolation
  extract_lets yields s1 irq s2 s3
  have h1 : AtPit s s1 := s.setReg_atPit _ (by unfold R.PIT_AV_CNT; omega)
  have h2 : AtPit s s2 := h1.irq
  have h3 : AtPit s s3 := .ite h2 (h2.trans (s2.setReg_atPit _ (by unfold R.PIT_AV_ADDR; omega)))
  have k := State.cause_alarms (as := [R.IRQ_OWN_CAUSE n]) s3 (R.IRQ_OWN_CAUSE n) F.IRQ_OWN_CAUSE.AV (.inl (by simp))
  exact h3.trans ⟨(congrArg State.pipes k.rest :), (congrArg State.pw k.rest :), fun b h1 h2 => k.regs b (by simp only [List.mem_singleton]; unfold R.IRQ_OWN_CAUSE; omega)
    (by unfold irqBlock; omega)⟩

theorem State.pitFollow_atPit (s : State) (n : Nat) (was : Bool) : AtPit s (s.pitFollow n was) := by
  have h : ∀ l, AtPit s (s.setPitEnter l) ∧ AtPit s (s.setPitLeave l) := fun _ => ⟨⟨rfl, rfl, fun _ _ _ => rfl⟩, ⟨rfl, rfl, fun _ _ _ => rfl⟩⟩
  unfold State.pitFollow
  exact .ite (.refl s) (.ite (.ite (h _).2 (h _).1) (.ite (.ite (h _).1 (h _).2) (.refl s)))

theorem State.pitCtlApply_atPit (s : State) (k n : Nat) (v : Word) : AtPit s (s.pitCtlApply k n v) := by
  have ha : ¬ (0x40040 ≤ R.PIT_CTL n ∧ R.PIT_CTL n < 0x40084) := by
    unfold R.PIT_CTL
    omega
  unfold State.pitCtlApply
  extract_lets a hold was s1 s2 s3 irq s4
  have h1 : AtPit s s1 := .ite (s.accessViolation_atPit k a true false) (.refl s)
  have h2 : AtPit s s2 := .ite (h1.trans (s1.setReg_atPit _ ha)) h1
  have h3 : AtPit s s3 := .ite h2 (h2.trans (s2.setReg_atPit _ ha))
  have h4 : AtPit s s4 := .ite h3 (h3.irq)
  exact h4.trans (s4.pitFollow_atPit n was)

theorem AtPit.pipe (h : AtPit s t) (p : Nat) : t.pipe p = s.pipe p := by rw [State.pipe, h.pipes, State.pipe]

theorem AtPit.ownerOfPipe (h : AtPit s t) (hp : p < 16) : t.ownerOfPipe p = s.ownerOfPipe p :=
  State.fld_of_reg (h.regs _ (by unfold R.PIT_MAP; omega) (by unfold R.PIT_MAP; omega))

theorem AtPit.foldl {α : Type} {g : State → α → State} (l : List α) (hg : ∀ s x, AtPit s (g s x)) (s : State) : AtPit s (l.foldl g s) := by
  induction l generalizing s with
  | nil => exact .refl s
  | cons x l ih => exact (hg s x).trans (ih _)

/-! ### The end of a commit -/

theorem fixed_pitCommit : Fixed R.PIT_COMMIT := by
  unfold Fixed R.PIT_COMMIT
  omega

/-- What a commit that completes leaves (R64, R66). -/
theorem State.commitEnd_spec (s : State) {c : CommitRun} (hm : ∀ p < 16, c.map.getD p 0 ≤ 16) :
    (s.commitEnd c).pw.commit = none ∧ (s.commitEnd c).fld R.PIT_COMMIT F.PIT_COMMIT.RESULT = 0 ∧
      (s.commitEnd c).bit R.PIT_COMMIT F.PIT_COMMIT.GO = false ∧ ∀ p < 16, (s.commitEnd c).ownerOfPipe p = c.map.getD p 0 ∧
        (c.map.getD p 0 = s.ownerOfPipe p → (s.commitEnd c).pipe p = s.pipe p) ∧
        (c.map.getD p 0 ≠ s.ownerOfPipe p → (s.commitEnd c).pipe p = {}) := by
  unfold State.commitEnd
  extract_lets pw s1 s2 s3
  have h2 : Remapped c.map s1 s2 :=
    (s1.commitApplyMap_spec hm).calm (v := fun _ => False) (State.rises_calm (State.kRefresh_calm (.refl _ _))) fun _ _ => id
  clear_value s2
  have h3 : Remapped c.map s1 s3 := by
    refine ⟨h2.commit, fun p hp => ?_, h2.stays, h2.moves⟩
    rw [← h2.owner p hp]
    exact (State.fld_setBit_ne _ _ _ _ _ _ (by unfold R.PIT_MAP R.PIT_COMMIT; omega)).trans
      (State.fld_setFld_ne _ _ _ _ _ _ (by unfold R.PIT_MAP R.PIT_COMMIT; omega))
  have hres3 : s3.fld R.PIT_COMMIT F.PIT_COMMIT.RESULT = 0 :=
    (State.fld_setFld_beside _ _ _ _ _ (by decide) (by decide)).trans (State.fld_setFld _ _ _ _ (by decide))
  have hgo3 : s3.bit R.PIT_COMMIT F.PIT_COMMIT.GO = false := State.bit_setBit _ _ _ _ (by decide) (by decide)
  clear_value s3
  have ka : Calm (.pitch fun _ => False) s3 (s3.audit 0x0C false 0 (ownerBytes c.map ++ natBE 1 0)) := State.audit_calm (.refl _ _)
  have h4 := h3.calm ka fun _ _ => id
  have hres4 := (ka.fld fixed_pitCommit F.PIT_COMMIT.RESULT).trans hres3
  have hgo4 := (ka.bit fixed_pitCommit F.PIT_COMMIT.GO).trans hgo3
  generalize s3.audit 0x0C false 0 (ownerBytes c.map ++ natBE 1 0) = s4 at h4 hres4 hgo4 ⊢
  have k := AtPit.foldl (g := fun s e => s.pitCtlApply e.1 e.2.1 e.2.2) c.held (fun s e => s.pitCtlApply_atPit e.1 e.2.1 e.2.2) s4
  have hreg := k.regs R.PIT_COMMIT (by decide) (by decide)
  refine ⟨by rw [k.pw, h4.commit], (State.fld_of_reg hreg).trans hres4, (State.bit_of_reg hreg).trans hgo4, fun p hp => ?_⟩
  exact ⟨(k.ownerOfPipe hp).trans (h4.owner p hp), fun he => (k.pipe p).trans (h4.stays p hp he), fun he => (k.pipe p).trans (h4.moves p hp he)⟩

theorem State.commitTurn_none (h : s.pw.commit = none) : s.commitTurn = s := by
  rw [State.commitTurn, h]

theorem State.commitTurn_early {c : CommitRun} (h : s.pw.commit = some c) (ht : s.t16 < c.due) : s.commitTurn = s := by
  rw [State.commitTurn, h]
  exact if_pos ht

theorem State.commitTurn_due {c : CommitRun} (h : s.pw.commit = some c) (ht : c.due ≤ s.t16) : s.commitTurn = s.commitEnd c := by
  rw [State.commitTurn, h]
  exact if_neg (by omega)

end

section

variable {s t u : State} {n p : Nat}

/-! ### A refusal outside the window -/

theorem State.presRefuse_alarms (s : State) (i : Issuer) (a : Nat) :
    Alarms [R.DEV_PRES_REFUSED, R.DEV_PRES_LAST, R.DEV_PRES_CAUSE] s (s.presRefuse i a) :=
  ((Alarms.setReg _ _ _ _ (.inl (by simp))).trans (Alarms.setReg _ _ _ _ (.inl (by simp)))).trans (State.cause_alarms _ _ _ (.inl (by simp)))

/-- What the record of a refusal shows (R42). -/
theorem State.presRefuse_shows (s : State) (i : Issuer) (a : Nat) :
    (s.presRefuse i a).reg R.DEV_PRES_REFUSED = s.reg R.DEV_PRES_REFUSED + 1 ∧
    (s.presRefuse i a).reg R.DEV_PRES_LAST = BitVec.ofNat 32 ((if i.ost then 0x1F else i.fn) * 2 ^ 27 + a % 2 ^ 27) ∧
    ((s.presRefuse i a).reg R.DEV_PRES_CAUSE).getLsbD F.DEV_PRES_CAUSE.REFUSED.lo = true := by
  unfold State.presRefuse
  extract_lets s1 s2
  have hb (b : Nat) (h : b < 0x1000) : ¬ irqBlock b := by
    unfold irqBlock
    omega
  refine ⟨?_, ?_, State.cause_set (hb _ (by decide)) (by decide)⟩
  · rw [State.cause_reg_ne (by decide) (hb _ (by decide)), State.reg_setReg_ne _ _ _ _ (by decide)]
    exact (State.reg_setReg s _ _).trans (BitVec.eq_of_toNat_eq (by simp))
  · rw [State.cause_reg_ne (by decide) (hb _ (by decide)), State.reg_setReg]

theorem Alarms.pipe {as : List Nat} (h : Alarms as s t) (p : Nat) : t.pipe p = s.pipe p :=
  congrArg (fun q => SMap.get (fun _ => ({} : PipeSt)) q p) (congrArg State.pipes h.rest :)

theorem Alarms.ownerOfPipe {as : List Nat} (h : Alarms as s t) (hp : p < 16) (ha : ∀ a ∈ as, a < 0x1000) : t.ownerOfPipe p = s.ownerOfPipe p :=
  State.fld_of_reg (h.regs _ (fun hm => absurd (ha _ hm) (by unfold R.PIT_MAP; omega)) (by unfold irqBlock R.PIT_MAP; omega))

/-- An audit entry is seen by no pipeline, by no register of the device and by no commit. -/
theorem State.audit_still (s : State) (ev : Nat) (refused : Bool) (subj : Nat) (data : Bytes) :
    Calm ⟨True, True, fun _ => False⟩ s (s.audit ev refused subj data) := State.audit_calm (.refl _ _)

theorem presRegs_low : ∀ a ∈ [R.DEV_PRES_REFUSED, R.DEV_PRES_LAST, R.DEV_PRES_CAUSE], a < 0x1000 := by decide

/-! ### PIT_COMMIT.GO -/

theorem exec_pitCommitGo {fn : FnNo} (h : s.writable fn R.PIT_COMMIT = true) :
    exec (.pitCommitGo fn) s = .next ((s.pitCommit (host fn)).settle s) := by
  change Host.Outcome.next (s.command fn R.PIT_COMMIT 0 [(F.PIT_COMMIT.GO, 1)]) = _
  have hgo : fldOf (taken R.PIT_COMMIT (putFlds 0 [(F.PIT_COMMIT.GO, 1)])) F.PIT_COMMIT.GO = 1 := by
    rw [fldOf_taken findReg_PIT_COMMIT _ _ (by decide)]
    decide
  rw [State.command_PIT_COMMIT h]
  simp only [State.regAct, State.writePit, Wr.bit, hgo, ne_eq, one_ne_zero, not_false_eq_true, decide_true, if_true]

theorem State.pitCommit_shut {i : Issuer} (h : s.presOpen = false) : s.pitCommit i =
    (s.presRefuse i R.PIT_COMMIT).audit 0x0C true 0 (ownerBytes s.stagedMap ++ natBE 1 (s.fld R.PIT_COMMIT F.PIT_COMMIT.RESULT)) := by
  simp only [State.pitCommit, h, Bool.not_false, if_true]

theorem State.pitCommit_busy {i : Issuer} (h : s.presOpen = true) (hb : s.bit R.PIT_COMMIT F.PIT_COMMIT.GO = true) :
    s.pitCommit i = s.busyWrite i.fn := by
  simp only [State.pitCommit, h, Bool.not_true, Bool.false_eq_true, if_false, hb, if_true]

theorem State.pitCommit_fails {i : Issuer} (h : s.presOpen = true) (hb : s.bit R.PIT_COMMIT F.PIT_COMMIT.GO = false) (hc : s.commitCheck ≠ 0) :
    s.pitCommit i = (s.setFld R.PIT_COMMIT F.PIT_COMMIT.RESULT s.commitCheck).audit 0x0C true 0
      (ownerBytes s.stagedMap ++ natBE 1 s.commitCheck) := by
  simp only [State.pitCommit, h, Bool.not_true, Bool.false_eq_true, if_false, hb, hc]

/-- The state in which a commit runs from GO on. -/
def State.committing (s : State) : State :=
  (({ s with freeIx := s.freeIx + 1 } : State).setFld R.PIT_COMMIT F.PIT_COMMIT.RESULT 15).setBit R.PIT_COMMIT F.PIT_COMMIT.GO true

theorem State.pitCommit_goes {i : Issuer} (h : s.presOpen = true) (hb : s.bit R.PIT_COMMIT F.PIT_COMMIT.GO = false) (hc : s.commitCheck = 0) :
    s.pitCommit i = { s.committing with pw := { s.pw with commit := some {
      due := s.t16 + 1 + (Config.freeWord s.freeIx).toNat % 160000, map := s.committing.stagedMap } } } := by
  simp only [State.pitCommit, h, Bool.not_true, Bool.false_eq_true, if_false, hb, hc, if_true]
  rfl

theorem State.committing_reg (s : State) {a : Nat} (ha : a ≠ R.PIT_COMMIT) : s.committing.reg a = s.reg a :=
  (State.reg_setBit_ne _ _ _ _ _ ha).trans (State.reg_setFld_ne _ _ _ _ _ ha)

theorem State.committing_stagedMap (s : State) : s.committing.stagedMap = (List.range 16).map s.stagedOwner := by
  refine List.map_congr_left fun p hp => State.fld_of_reg (s.committing_reg ?_)
  have := List.mem_range.1 hp
  unfold R.PIT_MAP_STAGE R.PIT_COMMIT
  omega

theorem State.commitCheck_lt (s : State) : s.commitCheck < 6 := by
  unfold State.commitCheck
  extract_lets
  repeat' split
  all_goals decide

theorem pitMap_ne_commit (hp : p < 16) : R.PIT_MAP p ≠ R.PIT_COMMIT := by
  unfold R.PIT_MAP R.PIT_COMMIT
  omega

/-- A write of GO changes no owner and no pipeline. -/
theorem State.pitCommit_still (s : State) {i : Issuer} (hi : i.fn < 32) (hp : p < 16) :
    (s.pitCommit i).pipe p = s.pipe p ∧ (s.pitCommit i).ownerOfPipe p = s.ownerOfPipe p := by
  rcases ho : s.presOpen
  · rw [State.pitCommit_shut ho]
    have k := s.presRefuse_alarms i R.PIT_COMMIT
    have h := (s.presRefuse i R.PIT_COMMIT).audit_still 0x0C true 0
      (ownerBytes s.stagedMap ++ natBE 1 (s.fld R.PIT_COMMIT F.PIT_COMMIT.RESULT))
    exact ⟨(h.pipe id).trans (k.pipe p), (h.ownerOfPipe hp).trans (k.ownerOfPipe hp presRegs_low)⟩
  · rcases hb : s.bit R.PIT_COMMIT F.PIT_COMMIT.GO
    · by_cases hc : s.commitCheck = 0
      · rw [State.pitCommit_goes ho hb hc]
        exact ⟨rfl, State.fld_of_reg (s.committing_reg (pitMap_ne_commit hp))⟩
      · rw [State.pitCommit_fails ho hb hc]
        have h := (s.setFld R.PIT_COMMIT F.PIT_COMMIT.RESULT s.commitCheck).audit_still 0x0C true 0
          (ownerBytes s.stagedMap ++ natBE 1 s.commitCheck)
        exact ⟨(h.pipe id).trans rfl, (h.ownerOfPipe hp).trans (State.fld_setFld_ne _ _ _ _ _ _ (pitMap_ne_commit hp))⟩
    · rw [State.pitCommit_busy ho hb]
      have k := State.cause_alarms (as := []) s (R.IRQ_OWN_CAUSE i.fn) F.IRQ_OWN_CAUSE.BUSY (.inr (by unfold irqBlock R.IRQ_OWN_CAUSE; omega))
      exact ⟨k.pipe p, k.ownerOfPipe hp (by simp)⟩

theorem State.pitCommit_shut_spec (s : State) {fn : FnNo} (ho : s.presOpen = false) :
    (s.pitCommit (host fn)).reg R.DEV_PRES_REFUSED = s.reg R.DEV_PRES_REFUSED + 1 ∧
      (s.pitCommit (host fn)).reg R.DEV_PRES_LAST = BitVec.ofNat 32 (fn * 2 ^ 27 + R.PIT_COMMIT) ∧
      ((s.pitCommit (host fn)).reg R.DEV_PRES_CAUSE).getLsbD F.DEV_PRES_CAUSE.REFUSED.lo = true ∧
      (s.pitCommit (host fn)).reg R.PIT_COMMIT = s.reg R.PIT_COMMIT ∧
      ∃ u : State, Alarms [R.DEV_PRES_REFUSED, R.DEV_PRES_LAST, R.DEV_PRES_CAUSE] s u ∧
        s.pitCommit (host fn) = u.audit 0x0C true 0 (ownerBytes s.stagedMap ++ natBE 1 (s.fld R.PIT_COMMIT F.PIT_COMMIT.RESULT)) := by
  have k := s.presRefuse_alarms (host fn) R.PIT_COMMIT
  obtain ⟨hcount, hlast, hcause⟩ := s.presRefuse_shows (host fn) R.PIT_COMMIT
  have h := (s.presRefuse (host fn) R.PIT_COMMIT).audit_still 0x0C true 0
    (ownerBytes s.stagedMap ++ natBE 1 (s.fld R.PIT_COMMIT F.PIT_COMMIT.RESULT))
  have hfix {a : Nat} (ha : a < 0x1000) : Fixed a := .inl ha
  refine ⟨?_, ?_, ?_, ?_, _, k, State.pitCommit_shut ho⟩
  all_goals rw [State.pitCommit_shut ho]
  · rw [h.reg (hfix (by decide)), hcount]
  · rw [h.reg (hfix (by decide)), hlast]
    rfl
  · rw [h.reg (hfix (by decide)), hcause]
  · rw [h.reg fixed_pitCommit, k.regs _ (by decide) (by unfold irqBlock R.PIT_COMMIT; omega)]

theorem State.pitCommit_busy_spec (s : State) {fn : FnNo} (ho : s.presOpen = true) (hb : s.bit R.PIT_COMMIT F.PIT_COMMIT.GO = true) :
    (s.pitCommit (host fn)).pw.commit = s.pw.commit ∧ (s.pitCommit (host fn)).reg R.PIT_COMMIT = s.reg R.PIT_COMMIT := by
  have k := State.cause_alarms (as := []) s (R.IRQ_OWN_CAUSE fn) F.IRQ_OWN_CAUSE.BUSY (.inr (by unfold irqBlock R.IRQ_OWN_CAUSE; omega))
  rw [State.pitCommit_busy ho hb]
  exact ⟨(congrArg (·.pw.commit) k.rest :), k.regs _ (by simp) (by unfold irqBlock R.PIT_COMMIT; omega)⟩

theorem State.pitCommit_fails_spec (s : State) {i : Issuer} (ho : s.presOpen = true) (hb : s.bit R.PIT_COMMIT F.PIT_COMMIT.GO = false)
    (hc : s.commitCheck ≠ 0) :
    (s.pitCommit i).fld R.PIT_COMMIT F.PIT_COMMIT.RESULT = s.commitCheck ∧ (s.pitCommit i).pw.commit = s.pw.commit := by
  have h := (s.setFld R.PIT_COMMIT F.PIT_COMMIT.RESULT s.commitCheck).audit_still 0x0C true 0
    (ownerBytes s.stagedMap ++ natBE 1 s.commitCheck)
  rw [State.pitCommit_fails ho hb hc, h.fld fixed_pitCommit, h.commit, State.fld_setFld _ _ _ _ (by decide)]
  exact ⟨Nat.mod_eq_of_lt (Nat.lt_trans s.commitCheck_lt (by decide)), rfl⟩

theorem State.committing_result (s : State) : s.committing.fld R.PIT_COMMIT F.PIT_COMMIT.RESULT = 15 :=
  (State.fld_setFld_beside _ _ _ _ _ (by decide) (by decide)).trans (State.fld_setFld _ _ _ _ (by decide))

theorem State.committing_go (s : State) : s.committing.bit R.PIT_COMMIT F.PIT_COMMIT.GO = true :=
  State.bit_setBit _ _ _ _ (by decide) (by decide)

theorem State.pitCommit_goes_spec (s : State) {i : Issuer} (ho : s.presOpen = true) (hb : s.bit R.PIT_COMMIT F.PIT_COMMIT.GO = false)
    (hc : s.commitCheck = 0) :
    (s.pitCommit i).fld R.PIT_COMMIT F.PIT_COMMIT.RESULT = 15 ∧ (s.pitCommit i).bit R.PIT_COMMIT F.PIT_COMMIT.GO = true ∧
      ∃ c : CommitRun, (s.pitCommit i).pw.commit = some c ∧ c.map = (List.range 16).map s.stagedOwner ∧ c.held = [] ∧ s.t16 < c.due ∧
        c.due ≤ s.t16 + 160000 := by
  have hw : (Config.freeWord s.freeIx).toNat % 160000 < 160000 := Nat.mod_lt _ (by decide)
  have hres := s.committing_result
  have hgo := s.committing_go
  have hmap := s.committing_stagedMap
  rw [State.pitCommit_goes ho hb hc]
  generalize s.committing = u at hres hgo hmap ⊢
  generalize (Config.freeWord s.freeIx).toNat % 160000 = x at hw ⊢
  exact ⟨hres, hgo, _, rfl, hmap, rfl, Nat.lt_of_lt_of_le (Nat.lt_succ_self _) (Nat.le_add_right _ _), by dsimp only; omega⟩

/-! ### The conditions of a commit (Table 2.3) -/

theorem State.commitCheck_one (s : State) : (∃ p : PipeNo, 17 ≤ s.stagedOwner p) ↔ s.commitCheck = 1 := by
  have hex : (∃ p : PipeNo, 17 ≤ s.stagedOwner p) ↔ ((List.range 16).any fun p => decide (17 ≤ s.stagedOwner p)) = true := by
    simp only [List.any_eq_true, List.mem_range, decide_eq_true_eq]
    exact ⟨fun ⟨p, hp⟩ => ⟨p, p.isLt, hp⟩, fun ⟨p, hlt, hp⟩ => ⟨⟨p, hlt⟩, hp⟩⟩
  rw [hex, State.commitCheck]
  constructor
  · exact fun h => if_pos h
  · intro h
    by_contra hn
    rw [if_neg hn] at h
    revert h
    repeat' split
    all_goals decide

theorem State.commitCheck_zero (s : State) {p : PipeNo} (h : s.commitCheck = 0) (hp : s.stagedOwner p ≠ s.ownerOfPipe p) :
    s.stagedOwner p ≤ 16 ∧ (s.stagedOwner p ≠ 0 → s.pipeFused p = false ∧ s.held2 (s.stagedOwner p) = true) ∧
      (s.ownerOfPipe p ≠ 0 → s.held2 (s.ownerOfPipe p) = true) ∧ ∀ j ∈ s.pw.loads, p.val ∉ j.pipes := by
  unfold State.commitCheck at h
  extract_lets ps ch hit still dst at h
  have hmem : p.val ∈ ps := List.mem_range.2 p.isLt
  have hch : p.val ∈ ch := List.mem_filter.2 ⟨hmem, by simpa using hp⟩
  split at h
  · simp at h
  rename_i h1
  split at h
  · simp at h
  rename_i h2
  split at h
  · simp at h
  rename_i h3
  split at h
  · simp at h
  split at h
  · simp at h
  rename_i h5
  simp only [List.any_eq_true, decide_eq_true_eq, Bool.and_eq_true, Bool.not_eq_true', not_exists, not_and, Bool.not_eq_true] at h1 h2 h3 h5
  have hstill {n : Nat} (h0 : n ≠ 0) (hn : n = s.stagedOwner p ∨ n = s.ownerOfPipe p) : s.held2 n = true := by
    have hhit : n ∈ hit := List.mem_filter.2 ⟨List.mem_flatMap.2 ⟨p, hch, by simpa using hn⟩, by simpa using h0⟩
    have := h3 n hhit
    simp only [still, Bool.and_eq_false_iff, Bool.not_eq_false', not_or] at this
    simpa using this.1
  refine ⟨?_, fun h0 => ⟨by simpa using h2 p hmem h0, hstill h0 (.inl rfl)⟩, fun h0 => hstill h0 (.inr rfl), fun j hj hpj => ?_⟩
  · have := h1 p hmem
    omega
  · have := h5 j hj p hpj
    simp [hch] at this

end

end Sys2Proof.Machine
end

section
/-! SUPPORT. Writes of PIT_CTL (R68, R69), the device reset (R530, R531), and the settling of their statements. -/

namespace Sys2Proof.Machine

section

variable {s t u : State} {n p : Nat}

theorem State.cause_keepsPit (s : State) (a : Nat) (f : Fld) : KeepsPit s (s.cause a f) := .ite (.refl s) (s.arise_keepsPit _ _)

theorem State.accessViolation_keepsPit (s : State) (n a : Nat) (write bad : Bool) : KeepsPit s (s.accessViolation n a write bad) := by
  unfold State.accessViolation
  extract_lets yields s1 irq s2 s3
  have h2 : KeepsPit s s2 := ⟨rfl, rfl⟩
  have h3 : KeepsPit s s3 := .ite h2 (h2.trans (s2.setReg_keepsPit _ _))
  exact h3.trans (s3.cause_keepsPit _ _)

/-! ### The bits of PIT_CTL (R69) -/

theorem State.reg_irq (s : State) (x : IrqSt) (a : Nat) : State.reg { s with irq := x } a = s.reg a := rfl

theorem State.accessViolation_pitCtl (s : State) {f a : Nat} (hf : f < 17) (n : Nat) (write bad : Bool) :
    (s.accessViolation f a write bad).reg (R.PIT_CTL n) = s.reg (R.PIT_CTL n) := by
  have hcnt : R.PIT_CTL n ≠ R.PIT_AV_CNT f := by unfold R.PIT_CTL R.PIT_AV_CNT; omega
  have haddr : R.PIT_CTL n ≠ R.PIT_AV_ADDR f := by unfold R.PIT_CTL R.PIT_AV_ADDR; omega
  unfold State.accessViolation
  extract_lets yields s1 irq s2 s3
  have h1 : s1.reg (R.PIT_CTL n) = s.reg (R.PIT_CTL n) := State.reg_setReg_ne s _ _ _ hcnt
  have h2 : s2.reg (R.PIT_CTL n) = s.reg (R.PIT_CTL n) := (State.reg_irq s1 irq _).trans h1
  have h3 : s3.reg (R.PIT_CTL n) = s.reg (R.PIT_CTL n) := by
    unfold s3
    split
    · exact h2
    · exact (State.reg_setReg_ne _ _ _ _ haddr).trans h2
  exact (State.cause_reg_ne (by unfold R.PIT_CTL R.IRQ_OWN_CAUSE; omega) (by unfold irqBlock R.PIT_CTL; omega)).trans h3

/-- A write of PIT_CTL[n] by function f has set its bits, and the Pitch does not follow them yet. -/
def State.pitCtlSet (s : State) (f n : Nat) (v : Word) : State :=
  let a := R.PIT_CTL n
  let s1 := if f ≠ 0 ∧ fldOf v F.PIT_CTL.WARDEN_HOLD ≠ s.fld a F.PIT_CTL.WARDEN_HOLD then s.accessViolation f a true false else s
  let s2 := if f = 0 then s1.setFld a F.PIT_CTL.WARDEN_HOLD (fldOf v F.PIT_CTL.WARDEN_HOLD) else s1
  let s3 := if f = 0 && s2.pitWrote n then s2 else s2.setFld a F.PIT_CTL.SELF_RESET (fldOf v F.PIT_CTL.SELF_RESET)
  if f = 0 then s3 else { s3 with irq := { s3.irq with pitCyc := SMap.put (fun _ => 0) s3.irq.pitCyc n (s3.fabCycle + 1) } }

theorem State.pitCtlApply_eq (s : State) (f n : Nat) (v : Word) : s.pitCtlApply f n v = (s.pitCtlSet f n v).pitFollow n (s.held2 n) := rfl

theorem pitCtl_ne {m n : Nat} (h : m ≠ n) : R.PIT_CTL m ≠ R.PIT_CTL n := by
  unfold R.PIT_CTL
  omega

/-- What a write of PIT_CTL[n] sets. -/
structure PitSet (f n : Nat) (v : Word) (s t : State) : Prop where
  at_ : AtPit s t
  keeps : KeepsPit s t
  self : t.fld (R.PIT_CTL n) F.PIT_CTL.SELF_RESET =
    if f = 0 ∧ s.pitWrote n = true then s.fld (R.PIT_CTL n) F.PIT_CTL.SELF_RESET else fldOf v F.PIT_CTL.SELF_RESET
  hold : t.fld (R.PIT_CTL n) F.PIT_CTL.WARDEN_HOLD =
    if f = 0 then fldOf v F.PIT_CTL.WARDEN_HOLD else s.fld (R.PIT_CTL n) F.PIT_CTL.WARDEN_HOLD
  other : ∀ m, m ≠ n → t.reg (R.PIT_CTL m) = s.reg (R.PIT_CTL m)

theorem State.setPitCtl_atPit (s : State) (n : Nat) (v : Word) : AtPit s (s.setReg (R.PIT_CTL n) v) :=
  s.setReg_atPit v (by unfold R.PIT_CTL; omega)

theorem fldOf_mod (v : Word) (f : Fld) : fldOf v f % 2 ^ f.w = fldOf v f := Nat.mod_mod _ _

theorem State.setSelf_spec (s : State) (n : Nat) (v : Word) :
    (s.setFld (R.PIT_CTL n) F.PIT_CTL.SELF_RESET (fldOf v F.PIT_CTL.SELF_RESET)).fld (R.PIT_CTL n) F.PIT_CTL.SELF_RESET =
        fldOf v F.PIT_CTL.SELF_RESET ∧
      (s.setFld (R.PIT_CTL n) F.PIT_CTL.SELF_RESET (fldOf v F.PIT_CTL.SELF_RESET)).fld (R.PIT_CTL n) F.PIT_CTL.WARDEN_HOLD =
        s.fld (R.PIT_CTL n) F.PIT_CTL.WARDEN_HOLD :=
  ⟨(State.fld_setFld _ _ _ _ (by decide)).trans (fldOf_mod _ _), State.fld_setFld_beside _ _ _ _ _ (by decide) (by decide)⟩

theorem State.setHold_spec (s : State) (n : Nat) (v : Word) :
    (s.setFld (R.PIT_CTL n) F.PIT_CTL.WARDEN_HOLD (fldOf v F.PIT_CTL.WARDEN_HOLD)).fld (R.PIT_CTL n) F.PIT_CTL.WARDEN_HOLD =
        fldOf v F.PIT_CTL.WARDEN_HOLD ∧
      (s.setFld (R.PIT_CTL n) F.PIT_CTL.WARDEN_HOLD (fldOf v F.PIT_CTL.WARDEN_HOLD)).fld (R.PIT_CTL n) F.PIT_CTL.SELF_RESET =
        s.fld (R.PIT_CTL n) F.PIT_CTL.SELF_RESET :=
  ⟨(State.fld_setFld _ _ _ _ (by decide)).trans (fldOf_mod _ _), State.fld_setFld_beside _ _ _ _ _ (by decide) (by decide)⟩

/-- The Warden's write. -/
theorem State.pitCtlSet_warden (s : State) (n : Nat) (v : Word) : PitSet 0 n v s (s.pitCtlSet 0 n v) := by
  have hset : s.pitCtlSet 0 n v =
      if (s.setFld (R.PIT_CTL n) F.PIT_CTL.WARDEN_HOLD (fldOf v F.PIT_CTL.WARDEN_HOLD)).pitWrote n = true then
        s.setFld (R.PIT_CTL n) F.PIT_CTL.WARDEN_HOLD (fldOf v F.PIT_CTL.WARDEN_HOLD)
      else (s.setFld (R.PIT_CTL n) F.PIT_CTL.WARDEN_HOLD (fldOf v F.PIT_CTL.WARDEN_HOLD)).setFld (R.PIT_CTL n) F.PIT_CTL.SELF_RESET
        (fldOf v F.PIT_CTL.SELF_RESET) := by
    simp [State.pitCtlSet]
  have hw : (s.setFld (R.PIT_CTL n) F.PIT_CTL.WARDEN_HOLD (fldOf v F.PIT_CTL.WARDEN_HOLD)).pitWrote n = s.pitWrote n := rfl
  obtain ⟨hhold, hself⟩ := s.setHold_spec n v
  have hat : AtPit s (s.setFld (R.PIT_CTL n) F.PIT_CTL.WARDEN_HOLD (fldOf v F.PIT_CTL.WARDEN_HOLD)) := s.setPitCtl_atPit n _
  have hkeep : KeepsPit s (s.setFld (R.PIT_CTL n) F.PIT_CTL.WARDEN_HOLD (fldOf v F.PIT_CTL.WARDEN_HOLD)) := s.setReg_keepsPit _ _
  have hother (m : Nat) (h : m ≠ n) := State.reg_setFld_ne s _ _ F.PIT_CTL.WARDEN_HOLD (fldOf v F.PIT_CTL.WARDEN_HOLD) (pitCtl_ne h)
  rw [hset, hw]
  generalize s.setFld (R.PIT_CTL n) F.PIT_CTL.WARDEN_HOLD (fldOf v F.PIT_CTL.WARDEN_HOLD) = t at hhold hself hat hkeep hother ⊢
  obtain ⟨kself, khold⟩ := t.setSelf_spec n v
  rcases hwr : s.pitWrote n
  · exact ⟨hat.trans (t.setPitCtl_atPit n _), hkeep.trans (t.setReg_keepsPit _ _), by simp [kself, hwr], by simp [khold, hhold],
      fun m h => (State.reg_setFld_ne _ _ _ _ _ (pitCtl_ne h)).trans (hother m h)⟩
  · exact ⟨hat, hkeep, by simp [hself, hwr], by simp [hhold], hother⟩

/-- The write of a Pitch's function. -/
theorem State.pitCtlSet_pitch (s : State) {f : Nat} (hf : f ≠ 0 ∧ f < 17) (n : Nat) (v : Word) : PitSet f n v s (s.pitCtlSet f n v) := by
  obtain ⟨hf0, hf⟩ := hf
  unfold State.pitCtlSet
  extract_lets a s1 s2 s3
  have h1 : AtPit s s1 ∧ KeepsPit s s1 ∧ ∀ m, s1.reg (R.PIT_CTL m) = s.reg (R.PIT_CTL m) := by
    unfold s1
    split
    · exact ⟨s.accessViolation_atPit .., s.accessViolation_keepsPit .., fun m => s.accessViolation_pitCtl hf m _ _⟩
    · exact ⟨.refl s, .refl s, fun _ => rfl⟩
  have h3 : s3 = s1.setFld (R.PIT_CTL n) F.PIT_CTL.SELF_RESET (fldOf v F.PIT_CTL.SELF_RESET) := by simp [s3, s2, a, hf0]
  clear_value s3 s1
  obtain ⟨hat, hkeep, hctl⟩ := h1
  obtain ⟨kself, khold⟩ := s1.setSelf_spec n v
  subst h3
  rw [if_neg hf0]
  have hk := hkeep.trans (s1.setReg_keepsPit (R.PIT_CTL n) (putFld (s1.reg (R.PIT_CTL n)) F.PIT_CTL.SELF_RESET (fldOf v F.PIT_CTL.SELF_RESET)))
  exact ⟨(hat.trans (s1.setPitCtl_atPit n _)).irq, ⟨hk.enter, hk.leave⟩, kself.trans (by simp [hf0]),
    khold.trans ((State.fld_of_reg (hctl n)).trans (by simp [hf0])), fun m h => (State.reg_setFld_ne _ _ _ _ _ (pitCtl_ne h)).trans (hctl m)⟩

theorem State.pitCtlSet_spec (s : State) {f : Nat} (hf : f < 17) (n : Nat) (v : Word) : PitSet f n v s (s.pitCtlSet f n v) := by
  by_cases h : f = 0
  · subst h
    exact s.pitCtlSet_warden n v
  · exact s.pitCtlSet_pitch ⟨h, hf⟩ n v

/-! ### The Pitch follows its bits -/

theorem State.pitFollow_reg (s : State) (n : Nat) (was : Bool) (a : Nat) : (s.pitFollow n was).reg a = s.reg a := by
  unfold State.pitFollow
  repeat' split
  all_goals rfl

theorem AtPit.pitchExists (h : AtPit s t) (n : Nat) : t.pitchExists n = s.pitchExists n := by
  have hp : t.pipesOf n = s.pipesOf n := List.filter_congr fun p hp => by rw [h.ownerOfPipe (List.mem_range.1 hp)]
  unfold State.pitchExists
  rw [hp]

theorem held2_of_reg (h : t.reg (R.PIT_CTL n) = s.reg (R.PIT_CTL n)) : t.held2 n = s.held2 n := by
  unfold State.held2
  rw [State.bit_of_reg h, State.bit_of_reg h]

theorem State.pitFollow_leaves (hx : s.pitchExists n = true) (hh : s.held2 n = false) (he : n ∉ s.irq.pitEnter) :
    s.pitFollow n true = s.setPitLeave (s.irq.pitLeave ++ [n]) := by
  simp [State.pitFollow, hx, hh, he]

theorem State.pitFollow_stays (hx : s.pitchExists n = true) (hh : s.held2 n = false) (he : n ∈ s.irq.pitEnter) :
    s.pitFollow n true = s.setPitEnter (s.irq.pitEnter.filter (· != n)) := by
  simp [State.pitFollow, hx, hh, he]

theorem State.pitFollow_enters (hx : s.pitchExists n = true) (hh : s.held2 n = true) (hl : n ∉ s.irq.pitLeave) :
    s.pitFollow n false = s.setPitEnter (s.irq.pitEnter ++ [n]) := by
  simp [State.pitFollow, hx, hh, hl]

/-- What a write of PIT_CTL[n] by function f that is not held leaves (R69). -/
theorem State.pitCtlApply_spec (s : State) {f : Nat} (hf : f < 17) (n : Nat) (v : Word) :
    (s.pitCtlApply f n v).fld (R.PIT_CTL n) F.PIT_CTL.SELF_RESET =
        (if f = 0 ∧ s.pitWrote n = true then s.fld (R.PIT_CTL n) F.PIT_CTL.SELF_RESET else fldOf v F.PIT_CTL.SELF_RESET) ∧
      (s.pitCtlApply f n v).fld (R.PIT_CTL n) F.PIT_CTL.WARDEN_HOLD =
        (if f = 0 then fldOf v F.PIT_CTL.WARDEN_HOLD else s.fld (R.PIT_CTL n) F.PIT_CTL.WARDEN_HOLD) ∧
      ∀ m, m ≠ n → (s.pitCtlApply f n v).reg (R.PIT_CTL m) = s.reg (R.PIT_CTL m) := by
  have h := s.pitCtlSet_spec hf n v
  have hreg (a : Nat) : (s.pitCtlApply f n v).reg a = (s.pitCtlSet f n v).reg a := State.pitFollow_reg _ _ _ _
  exact ⟨(State.fld_of_reg (hreg _)).trans h.self, (State.fld_of_reg (hreg _)).trans h.hold, fun m hm => (hreg _).trans (h.other m hm)⟩

/-- The Pitch whose last bit the write takes away leaves reset at the end of the cycle. -/
theorem State.pitCtlApply_leaves {f : Nat} {v : Word} (hf : f < 17) (hs : s.held2 n = true) (ht : (s.pitCtlApply f n v).held2 n = false)
    (hx : s.pitchExists n = true) (he : n ∉ s.irq.pitEnter) :
    n ∈ (s.pitCtlApply f n v).irq.pitLeave ∧ (s.pitCtlApply f n v).inReset n = true := by
  have h := s.pitCtlSet_spec hf n v
  rw [State.pitCtlApply_eq, hs] at ht ⊢
  rw [held2_of_reg (State.pitFollow_reg _ _ _ _)] at ht
  rw [State.pitFollow_leaves ((h.at_.pitchExists n).trans hx) ht (by rwa [h.keeps.enter])]
  simp [State.inReset, State.setPitLeave]

/-- The Pitch that was to enter reset at the end of the cycle stays out of it. -/
theorem State.pitCtlApply_stays {f : Nat} {v : Word} (hf : f < 17) (hs : s.held2 n = true) (ht : (s.pitCtlApply f n v).held2 n = false)
    (hx : s.pitchExists n = true) (he : n ∈ s.irq.pitEnter) :
    (s.pitCtlApply f n v).irq.pitLeave = s.irq.pitLeave ∧ (s.pitCtlApply f n v).irq.pitEnter = s.irq.pitEnter.filter (· != n) := by
  have h := s.pitCtlSet_spec hf n v
  rw [State.pitCtlApply_eq, hs] at ht ⊢
  rw [held2_of_reg (State.pitFollow_reg _ _ _ _)] at ht
  rw [State.pitFollow_stays ((h.at_.pitchExists n).trans hx) ht (by rwa [h.keeps.enter]), h.keeps.enter]
  exact ⟨h.keeps.leave, rfl⟩

/-- The Pitch that the write newly holds enters reset at the end of the cycle, and is not in it before. -/
theorem State.pitCtlApply_enters {f : Nat} {v : Word} (hf : f < 17) (hs : s.held2 n = false) (ht : (s.pitCtlApply f n v).held2 n = true)
    (hx : s.pitchExists n = true) (hl : n ∉ s.irq.pitLeave) :
    n ∈ (s.pitCtlApply f n v).irq.pitEnter ∧ (s.pitCtlApply f n v).irq.pitLeave = s.irq.pitLeave ∧
      (s.pitCtlApply f n v).inReset n = false := by
  have h := s.pitCtlSet_spec hf n v
  rw [State.pitCtlApply_eq, hs] at ht ⊢
  rw [held2_of_reg (State.pitFollow_reg _ _ _ _)] at ht
  have hxu := (h.at_.pitchExists n).trans hx
  have hlu : n ∉ (s.pitCtlSet f n v).irq.pitLeave := by rwa [h.keeps.leave]
  rw [State.pitFollow_enters hxu ht hlu]
  have hxt : State.pitchExists ((s.pitCtlSet f n v).setPitEnter ((s.pitCtlSet f n v).irq.pitEnter ++ [n])) n = true := hxu
  refine ⟨by simp [State.setPitEnter], h.keeps.leave, ?_⟩
  simp [State.inReset, hxt]
  simp [State.setPitEnter, hlu]

/-! ### The command -/

theorem pitCtlTaken (n : OwnerNo) (hn : n.val ≠ 0) (v : Word) :
    fldOf (taken (R.PIT_CTL n) v) F.PIT_CTL.WARDEN_HOLD = fldOf v F.PIT_CTL.WARDEN_HOLD ∧
      fldOf (taken (R.PIT_CTL n) v) F.PIT_CTL.SELF_RESET = fldOf v F.PIT_CTL.SELF_RESET :=
  ⟨fldOf_taken (findReg_PIT_CTL n n.isLt (by omega)) _ _ (by decide), fldOf_taken (findReg_PIT_CTL n n.isLt (by omega)) _ _ (by decide)⟩

theorem exec_pitCtlWrite {fn : FnNo} {n : OwnerNo} {v : Word} (hn : n.val ≠ 0) (h : s.writable fn (R.PIT_CTL n) = true) :
    exec (.pitCtlWrite fn n v) s = .next ((s.pitCtlWrite fn n (taken (R.PIT_CTL n) v)).settle s) := by
  change Host.Outcome.next (if n.val = 0 then s else s.command fn (R.PIT_CTL n) v []) = _
  rw [if_neg hn, State.command_PIT_CTL n n.isLt (by omega) h]
  rfl

theorem State.pitFrees_taken (s : State) (f : Nat) {n : OwnerNo} (hn : n.val ≠ 0) (v : Word) :
    s.pitFrees f n (taken (R.PIT_CTL n) v) = s.pitFrees f n v := by
  obtain ⟨hhold, hself⟩ := pitCtlTaken n hn v
  simp only [State.pitFrees, hhold, hself]

theorem State.pitCtlWrite_held {f : Nat} {v : Word} {c : CommitRun} (hc : s.pw.commit = some c) (hm : s.mapAffects c.map n = true)
    (hf : s.pitFrees f n v = true) :
    s.pitCtlWrite f n v = { s with pw := { s.pw with commit := some { c with held := c.held ++ [(f, n, v)] } } } := by
  rw [State.pitCtlWrite, hc]
  exact if_pos (by simp [hm, hf])

theorem State.pitCtlWrite_applied {f : Nat} {v : Word} (h : ∀ c, s.pw.commit = some c → s.mapAffects c.map n = true → s.pitFrees f n v = false) :
    s.pitCtlWrite f n v = s.pitCtlApply f n v := by
  rw [State.pitCtlWrite]
  split
  · rename_i c hc
    refine if_neg fun hcond => ?_
    rw [Bool.and_eq_true] at hcond
    simp [h c hc hcond.1] at hcond
  · rfl

end

section

variable {s t u : State} {n p : Nat}

theorem Calm.fuse {w : Watch} (h : Calm w s t) : t.fuse = s.fuse := h.2.2.2.2.2.2.1

theorem Calm.t16 {w : Watch} (h : Calm w s t) : t.t16 = s.t16 := h.2.2.2.2.2.2.2.1

theorem Calm.raw {w : Watch} (h : Calm w s t) : t.time.raw = s.time.raw := h.2.2.2.2.2.2.2.2.1

theorem Calm.freq {w : Watch} (h : Calm w s t) (hw : w.freq) : t.reg R.TIME_FREQ = s.reg R.TIME_FREQ := h.2.2.1 hw

theorem Calm.linkUp {w : Watch} (h : Calm w s t) : t.pw.linkUp = s.pw.linkUp := h.2.2.2.2.2.2.2.2.2.1

/-! ### What a device reset keeps and clears (R530, R531) -/

/-- From `s` to `t` the part has reset: no owner, no packet, no entry and no thread is left, and the clocks, the window, the time and the
fuses stay. -/
structure Cleared (s t : State) : Prop where
  pipe : ∀ p, t.pipe p = {}
  owner : ∀ p < 16, t.ownerOfPipe p = 0
  books : t.em = State.reset.em ∧ t.ost = State.reset.ost ∧ t.pw.store = []
  kept : t.fuse = s.fuse ∧ t.t16 = s.t16 ∧ t.time.raw = s.time.raw ∧ t.pw.linkUp = s.pw.linkUp
  pres : t.reg R.DEV_PRES_STATUS = s.reg R.DEV_PRES_STATUS
  clk : t.reg R.CLK_STATUS = s.reg R.CLK_STATUS
  src : t.timeSrc = s.timeSrc
  freq : s.timeSrc ≠ 3 → t.reg R.TIME_FREQ = s.reg R.TIME_FREQ

/-- What `Calm` watches while the part starts again. -/
def Watch.restart (s : State) : Watch := ⟨True, s.timeSrc ≠ 3, fun _ => False⟩

theorem Cleared.calm (h : Cleared s t) (k : Calm (.restart s) t u) : Cleared s u := by
  obtain ⟨hfuse, ht, hraw, hlink⟩ := h.kept
  obtain ⟨hem, host, hstore⟩ := h.books
  obtain ⟨kem, kost, kstore⟩ := k.books trivial
  exact {
    pipe := fun p => (k.pipe id).trans (h.pipe p)
    owner := fun p hp => (k.ownerOfPipe hp).trans (h.owner p hp)
    books := ⟨kem.trans hem, kost.trans host, kstore.trans hstore⟩
    kept := ⟨k.fuse.trans hfuse, k.t16.trans ht, k.raw.trans hraw, k.linkUp.trans hlink⟩
    pres := (k.reg (.inl (by decide))).trans h.pres
    clk := (k.reg (.inr (by decide))).trans h.clk
    src := k.timeSrc.trans h.src
    freq := fun hs => (k.freq hs).trans (h.freq hs) }

/-- A register beside those that a device reset keeps or empties. -/
def Spare (a : Nat) : Prop := a < 0x200 ∨ a = 0x300 ∨ (0x20000 ≤ a ∧ a < 0x30000) ∨ a = 0x30014

theorem Cleared.setReg {a : Nat} {v : Word} (h : Cleared s t) (ha : Spare a) : Cleared s (t.setReg a v) := by
  have hne {b : Nat} (hb : ¬ Spare b) : (t.setReg a v).reg b = t.reg b := State.reg_setReg_ne _ _ _ _ fun e => hb (by rwa [e])
  unfold Spare at hne
  exact {
    pipe := h.pipe
    owner := fun p hp => (State.fld_of_reg (hne (by unfold R.PIT_MAP; omega))).trans (h.owner p hp)
    books := h.books
    kept := h.kept
    pres := (hne (by decide)).trans h.pres
    clk := (hne (by decide)).trans h.clk
    src := (State.fld_of_reg (hne (by decide))).trans h.src
    freq := fun hs => (hne (by decide)).trans (h.freq hs) }

/-- What comes before, with every Pitch in reset. -/
theorem Cleared.after {M : Nat → Prop} (k : Calm (.pitch M) s t) (h : Cleared t u) : Cleared s u := by
  obtain ⟨hfuse, ht, hraw, hlink⟩ := h.kept
  exact {
    pipe := h.pipe
    owner := h.owner
    books := h.books
    kept := ⟨hfuse.trans k.fuse, ht.trans k.t16, hraw.trans k.raw, hlink.trans k.linkUp⟩
    pres := h.pres.trans (k.reg (.inl (by decide)))
    clk := h.clk.trans (k.reg (.inr (by decide)))
    src := h.src.trans k.timeSrc
    freq := fun hs => (h.freq (by rwa [k.timeSrc])).trans (k.freq trivial) }

theorem deviceKept_status : ∀ a ∈ [R.DEV_PRES_STATUS, R.CLK_STATUS, R.TIME_STATUS, R.TIME_FREQ], deviceKept a = true := by decide

theorem pitMap_unowned : ∀ p : PipeNo, deviceKept (R.PIT_MAP p) = false ∧ fldOf (resetValue (R.PIT_MAP p)) F.PIT_MAP.OWNER = 0 := by decide

/-- A state whose registers are those that a device reset keeps of `s`. -/
theorem keptRegs_reg (s t : State) (ht : t.regs = s.regs.filter fun e => deviceKept e.1) (a : Nat) :
    t.reg a = if deviceKept a then s.reg a else resetValue a := by
  have hdrop : t.regs = SMap.drop s.regs fun a => !deviceKept a := by
    rw [ht, SMap.drop]
    exact List.filter_congr fun e _ => (Bool.not_not _).symm
  rw [State.reg, hdrop, SMap.get_drop]
  cases deviceKept a <;> rfl

theorem Cleared.of_regs (ht : t.regs = s.regs.filter fun e => deviceKept e.1) (hp : t.pipes = [])
    (hb : t.em = State.reset.em ∧ t.ost = State.reset.ost ∧ t.pw.store = [])
    (hk : t.fuse = s.fuse ∧ t.t16 = s.t16 ∧ t.time.raw = s.time.raw ∧ t.pw.linkUp = s.pw.linkUp) : Cleared s t := by
  have hreg := keptRegs_reg s t ht
  have hsame {a : Nat} (ha : a ∈ [R.DEV_PRES_STATUS, R.CLK_STATUS, R.TIME_STATUS, R.TIME_FREQ]) : t.reg a = s.reg a := by
    rw [hreg, deviceKept_status a ha, if_pos rfl]
  refine ⟨fun p => ?_, fun p hp => ?_, hb, hk, hsame (by simp), hsame (by simp), State.fld_of_reg (hsame (by simp)), fun _ => hsame (by simp)⟩
  · rw [State.pipe, hp]
    rfl
  · obtain ⟨hkept, howner⟩ := pitMap_unowned ⟨p, hp⟩
    rw [State.ownerOfPipe, State.fld, hreg, hkept]
    exact howner

theorem State.deviceCleared_spec (s : State) :
    Cleared s s.deviceCleared ∧ s.deviceCleared.stage = min s.stage 3 ∧ s.deviceCleared.stopped = s.stopped := by
  unfold State.deviceCleared
  extract_lets s0 pw0 pw tm time jt link linkReady stop st stamps refl side0 s1 s2 s3 s4
  have h1 : Cleared s s1 := .of_regs rfl rfl ⟨rfl, rfl, rfl⟩ ⟨rfl, rfl, rfl, rfl⟩
  clear_value s1
  have h2 : Cleared s s2 := (h1.setReg (.inr (.inl rfl))).setReg (.inr (.inr (.inl (by decide))))
  have h3 : Cleared s s3 := List.foldlRecOn _ _ h2 fun t ht k hk => ht.setReg (by
    have := List.mem_range.1 hk
    unfold Spare R.DEV_BOOT_STAMP
    omega)
  have h4 : Cleared s s4 := (h3.setReg (.inr (.inr (.inl (by decide))))).setReg (.inr (.inr (.inl (by decide))))
  clear_value s4
  have h5 : Cleared s ((s4.setStage (min st 3)).setBit R.DEV_BOOT_STATUS F.DEV_BOOT_STATUS.STOPPED stop) :=
    (h4.setReg (.inl (by decide))).setReg (.inl (by decide))
  have hstage : ((s4.setStage (min st 3)).setBit R.DEV_BOOT_STATUS F.DEV_BOOT_STATUS.STOPPED stop).stage = min st 3 := by
    refine (State.fld_setFld_beside _ _ _ _ _ (by decide) (by decide)).trans ((State.fld_setFld _ _ _ _ (by decide)).trans (Nat.mod_eq_of_lt ?_))
    exact Nat.lt_of_le_of_lt (Nat.min_le_right _ _) (by decide)
  have hstop : ((s4.setStage (min st 3)).setBit R.DEV_BOOT_STATUS F.DEV_BOOT_STATUS.STOPPED stop).stopped = stop :=
    State.bit_setBit _ _ _ _ (by decide) (by decide)
  generalize (s4.setStage (min st 3)).setBit R.DEV_BOOT_STATUS F.DEV_BOOT_STATUS.STOPPED stop = s5 at h5 hstage hstop ⊢
  have k : Calm (.restart s) s5 s5.tlSelect.kRefresh.synceCheck :=
    State.synceCheck_calm (State.kRefresh_calm (State.tlSelect_calm (.refl _ _) fun hs => by rwa [h5.src]))
  have hboot : Fixed R.DEV_BOOT_STATUS := .inl (by decide)
  exact ⟨h5.calm k, (k.fld hboot _).trans hstage, (k.bit hboot _).trans hstop⟩

/-! ### CLK_RST_DEV.GO -/

theorem exec_deviceResetGo {fn : FnNo} (h : s.writable fn R.CLK_RST_DEV = true) :
    exec (.deviceResetGo fn) s =
      .next ((s.deviceReset (host fn) (taken R.CLK_RST_DEV (putFlds 0 [(F.CLK_RST_DEV.GO, 1)]))).settle s) := by
  change Host.Outcome.next (s.command fn R.CLK_RST_DEV 0 [(F.CLK_RST_DEV.GO, 1)]) = _
  have hgo : fldOf (taken R.CLK_RST_DEV (putFlds 0 [(F.CLK_RST_DEV.GO, 1)])) F.CLK_RST_DEV.GO = 1 := by
    rw [fldOf_taken findReg_CLK_RST_DEV _ _ (by decide)]
    decide
  rw [State.command_CLK_RST_DEV h]
  simp only [State.regAct, State.writeClk, Wr.bit, hgo, ne_eq, one_ne_zero, not_false_eq_true, decide_true, if_true]

theorem State.deviceReset_shut {i : Issuer} {v : Word} (h : s.presOpen = false) :
    s.deviceReset i v = (s.presRefuse i R.CLK_RST_DEV).auditWrite true 0 R.CLK_RST_DEV (s.reg R.CLK_RST_DEV) v := by
  simp only [State.deviceReset, h, Bool.not_false, if_true]

theorem State.deviceReset_shut_spec {i : Issuer} {v : Word} (h : s.presOpen = false) :
    (s.deviceReset i v).reg R.DEV_PRES_REFUSED = s.reg R.DEV_PRES_REFUSED + 1 ∧
      ((s.deviceReset i v).reg R.DEV_PRES_CAUSE).getLsbD F.DEV_PRES_CAUSE.REFUSED.lo = true ∧ (s.deviceReset i v).stage = s.stage ∧
      ∀ p : PipeNo, (s.deviceReset i v).pipe p = s.pipe p ∧ (s.deviceReset i v).ownerOfPipe p = s.ownerOfPipe p := by
  have k := s.presRefuse_alarms i R.CLK_RST_DEV
  obtain ⟨hcount, -, hcause⟩ := s.presRefuse_shows i R.CLK_RST_DEV
  rw [State.deviceReset_shut h]
  generalize s.presRefuse i R.CLK_RST_DEV = u at k hcount hcause ⊢
  have ka : Calm ⟨True, True, fun _ => False⟩ u (u.auditWrite true 0 R.CLK_RST_DEV (s.reg R.CLK_RST_DEV) v) := State.auditWrite_calm (.refl _ _)
  have hfix {a : Nat} (ha : a < 0x1000) : Fixed a := .inl ha
  refine ⟨(ka.reg (hfix (by decide))).trans hcount, ?_, ?_, fun p => ⟨(ka.pipe id).trans (k.pipe p),
    (ka.ownerOfPipe p.isLt).trans (k.ownerOfPipe p.isLt presRegs_low)⟩⟩
  · rw [ka.reg (hfix (by decide)), hcause]
  · exact (ka.fld (hfix (by decide)) _).trans (State.fld_of_reg (k.regs _ (by decide) (by unfold irqBlock R.DEV_BOOT_STATUS; omega)))

/-- From `s` to `t` a device reset has run. -/
structure DeviceReset (s t : State) : Prop where
  cleared : Cleared s t
  stage : t.stage = min s.stage 3
  stopped : t.stopped = s.stopped
  last : t.fld R.CLK_RST_STATUS F.CLK_RST_STATUS.LAST = 1
  count : t.fld R.CLK_RST_STATUS F.CLK_RST_STATUS.DEV_RESETS = min 0xFFFF (s.fld R.CLK_RST_STATUS F.CLK_RST_STATUS.DEV_RESETS + 1)

theorem State.deviceReset_open {i : Issuer} {v : Word} (h : s.presOpen = true) : DeviceReset s (s.deviceReset i v) := by
  unfold State.deviceReset
  extract_lets a n s1 lost s2 s3 s4 s5
  rw [if_neg (by simp [h])]
  have h1 : Calm (.pitch fun _ => True) s s1 := (Calm.refl _ s).foldl fun t n hn ht => by
    have hn : 1 ≤ n ∧ n ≤ 16 := by
      obtain ⟨m, hm, rfl⟩ := List.mem_map.1 hn
      have := List.mem_range.1 hm
      omega
    exact .ite (ht.trans (t.pitchEnter_spec hn fun _ _ => trivial).1) ht
  clear_value s1
  obtain ⟨h2, hstage, hstop⟩ := s1.deviceCleared_spec
  have h2 : Cleared s s2 := .after h1 h2
  have hboot : Fixed R.DEV_BOOT_STATUS := .inl (by decide)
  have hstage : s2.stage = min s.stage 3 := hstage.trans (congrArg (min · 3) (h1.fld hboot _))
  have hstop : s2.stopped = s.stopped := hstop.trans (h1.bit hboot _)
  clear_value s2
  have k3 : Calm (.restart s) s2 s3 := .ite (State.timeBack_calm (.refl _ _)) (.refl _ _)
  have h5 : Cleared s s5 := ((h2.calm k3).setReg (.inr (.inr (.inr rfl)))).setReg (.inr (.inr (.inr rfl)))
  have hreg5 : s5.reg R.DEV_BOOT_STATUS = s3.reg R.DEV_BOOT_STATUS :=
    (State.reg_setFld_ne s4 _ _ _ _ (by decide)).trans (State.reg_setFld_ne s3 _ _ _ _ (by decide))
  have hlast : s5.fld R.CLK_RST_STATUS F.CLK_RST_STATUS.LAST = 1 :=
    (State.fld_setFld_beside s4 _ _ _ _ (by decide) (by decide)).trans (State.fld_setFld s3 _ _ _ (by decide))
  have hcount : s5.fld R.CLK_RST_STATUS F.CLK_RST_STATUS.DEV_RESETS = min 0xFFFF (n + 1) :=
    (State.fld_setFld s4 _ _ _ (by decide)).trans (Nat.mod_eq_of_lt (Nat.lt_of_le_of_lt (Nat.min_le_left _ _) (by decide)))
  clear_value s5
  have k6 : Calm (.restart s) s5 (s5.audit 0x01 false 0 [1]) := State.audit_calm (.refl _ _)
  have hclk : Fixed R.CLK_RST_STATUS := .inr (by decide)
  refine ⟨h5.calm k6, ?_, ?_, (k6.fld hclk _).trans hlast, (k6.fld hclk _).trans hcount⟩
  · exact ((k6.fld hboot _).trans (State.fld_of_reg hreg5)).trans ((k3.fld hboot _).trans hstage)
  · exact ((k6.bit hboot _).trans (State.bit_of_reg hreg5)).trans ((k3.bit hboot _).trans hstop)

theorem DeviceReset.spec (h : DeviceReset s t) (ho : s.presOpen = true) :
    (∀ p : PipeNo, t.pipe p = {} ∧ t.ownerOfPipe p = 0) ∧ t.em = State.reset.em ∧ t.ost = State.reset.ost ∧ t.fuse = s.fuse ∧ t.t16 = s.t16 ∧
      t.time.raw = s.time.raw ∧ t.presOpen = true ∧ t.sealOk = s.sealOk ∧ t.stage = min s.stage 3 ∧ t.stopped = s.stopped ∧
      t.reg R.CLK_STATUS = s.reg R.CLK_STATUS ∧ (s.timeSrc ≠ 3 → t.reg R.TIME_FREQ = s.reg R.TIME_FREQ) ∧ t.pw.linkUp = s.pw.linkUp ∧
      t.pw.store = [] ∧ t.fld R.CLK_RST_STATUS F.CLK_RST_STATUS.LAST = 1 ∧
      t.fld R.CLK_RST_STATUS F.CLK_RST_STATUS.DEV_RESETS = min 0xFFFF (s.fld R.CLK_RST_STATUS F.CLK_RST_STATUS.DEV_RESETS + 1) := by
  obtain ⟨hem, host, hstore⟩ := h.cleared.books
  obtain ⟨hfuse, ht, hraw, hlink⟩ := h.cleared.kept
  exact ⟨fun p => ⟨h.cleared.pipe p, h.cleared.owner p p.isLt⟩, hem, host, hfuse, ht, hraw, (State.bit_of_reg h.cleared.pres).trans ho,
    State.bit_of_reg h.cleared.pres, h.stage, h.stopped, h.cleared.clk, h.cleared.freq, hlink, hstore, h.last, h.count⟩

theorem host_fn_lt (fn : FnNo) : (host fn).fn < 32 := Nat.lt_trans fn.isLt (by decide)

/-- A write of PIT_CTL that is not held (R69). -/
theorem State.pitCtlWrite_applied_spec {fn : FnNo} {n : OwnerNo} {v : Word} (hn : n.val ≠ 0) (hw : s.writable fn (R.PIT_CTL n) = true)
    (hheld : ∀ c, s.pw.commit = some c → s.mapAffects c.map n = true → s.pitFrees fn n v = false) :
    ∃ t : State, exec (.pitCtlWrite fn n v) s = .next (t.settle s) ∧
      t.fld (R.PIT_CTL n) F.PIT_CTL.SELF_RESET =
        (if fn.val = 0 ∧ s.pitWrote n = true then s.fld (R.PIT_CTL n) F.PIT_CTL.SELF_RESET else fldOf v F.PIT_CTL.SELF_RESET) ∧
      (∀ p : PipeNo, t.pipe p = s.pipe p) ∧
      (s.held2 n = true → t.held2 n = false → s.pitchExists n = true → n.val ∉ s.irq.pitEnter → n.val ∈ t.irq.pitLeave ∧ t.inReset n = true) ∧
      (s.held2 n = false → t.held2 n = true → s.pitchExists n = true → n.val ∉ s.irq.pitLeave → n.val ∈ t.irq.pitEnter ∧
        t.irq.pitLeave = s.irq.pitLeave ∧ t.inReset n = false) ∧
      (s.held2 n = true → t.held2 n = false → n.val ∈ s.irq.pitEnter → s.pitchExists n = true → t.irq.pitLeave = s.irq.pitLeave ∧
        t.irq.pitEnter = s.irq.pitEnter.filter (· != n.val)) ∧
      t.fld (R.PIT_CTL n) F.PIT_CTL.WARDEN_HOLD =
        (if fn.val = 0 then fldOf v F.PIT_CTL.WARDEN_HOLD else s.fld (R.PIT_CTL n) F.PIT_CTL.WARDEN_HOLD) ∧
      (∀ m : OwnerNo, m ≠ n → t.held2 m = s.held2 m) ∧ (∀ p : PipeNo, t.ownerOfPipe p = s.ownerOfPipe p) := by
  obtain ⟨hthold, htself⟩ := pitCtlTaken n hn v
  obtain ⟨hself, hhold, hother⟩ := s.pitCtlApply_spec fn.isLt n (taken (R.PIT_CTL n) v)
  have hat := s.pitCtlApply_atPit fn n (taken (R.PIT_CTL n) v)
  refine ⟨_, (exec_pitCtlWrite hn hw).trans (by rw [State.pitCtlWrite_applied (by simpa only [s.pitFrees_taken fn hn] using hheld)]), ?_,
    fun p => hat.pipe p, fun hs ht hx he => State.pitCtlApply_leaves fn.isLt hs ht hx he,
    fun hs ht hx hl => State.pitCtlApply_enters fn.isLt hs ht hx hl,
    fun hs ht he hx => State.pitCtlApply_stays fn.isLt hs ht hx he, ?_, fun m hm => ?_, fun p => hat.ownerOfPipe p.isLt⟩
  · rw [hself, htself]
  · rw [hhold, hthold]
  · exact held2_of_reg (hother m fun h => hm (Fin.ext h))

/-- Settles O58: a commit by its checks and its end, a write of PIT_CTL by its bits and what the Pitch follows of them, and a device reset by
what it clears and keeps. -/
theorem pitchesAndDeviceReset : Obligations.PitchesAndDeviceReset := by
  unfold Obligations.PitchesAndDeviceReset
  intro fn s
  refine ⟨fun hw => ⟨_, exec_pitCommitGo hw, fun ho => ?_, fun p => s.pitCommit_still (host_fn_lt fn) p.isLt, s.pitCommit_busy_spec, fun ho hb =>
    ⟨s.pitCommit_fails_spec ho hb, s.pitCommit_goes_spec ho hb⟩⟩, ⟨State.commitTurn_none, fun c hc => ⟨State.commitTurn_early hc, fun hd hm => ?_⟩⟩,
    s.commitCheck_one, fun p => s.commitCheck_zero, fun n v c hn hw hc hm hf => ?_, fun n v hn hw hheld => ?_, fun hl => s.pitCycleEnd_spec hl, rfl,
    fun hw => ⟨_, exec_deviceResetGo hw, State.deviceReset_shut_spec, fun ho => ?_⟩⟩
  · obtain ⟨hcount, hlast, hcause, hreg, haudit⟩ := s.pitCommit_shut_spec ho
    exact ⟨hcount, hlast, hcause, hreg, haudit, fun p => s.pitCommit_still (host_fn_lt fn) p.isLt⟩
  · obtain ⟨hcommit, hres, hgo, hpipes⟩ := s.commitEnd_spec fun p hp => hm ⟨p, hp⟩
    exact ⟨_, State.commitTurn_due hc hd, hcommit, hres, hgo, fun p => hpipes p p.isLt⟩
  · rw [exec_pitCtlWrite hn hw, State.pitCtlWrite_held hc hm (by rwa [s.pitFrees_taken fn hn])]
  · exact State.pitCtlWrite_applied_spec hn hw hheld
  · exact (State.deviceReset_open ho).spec ho

end

end Sys2Proof.Machine
end

section
/-! SUPPORT. A lane of a part whose bridge PLL has lost lock (R82, R568): what the statement of the lane events (O12) leaves out. -/

namespace Sys2Proof.Machine

/-- A receiver that RX_ON holds on in a ready group, with a signal, on a part whose PLLs are locked but for that of the bridges. -/
def unclockedReceiver : State :=
  { regs := [(R.CLK_STATUS, putFlds 0 [(F.CLK_STATUS.PLL_LOCK, 0x6F), (F.CLK_STATUS.REF_OK, 1)]),
      (R.LG_STATUS 0, putFlds 0 [(F.LG_STATUS.READY, 1), (F.LG_STATUS.PLL_LOCK, 1)]), (laneReg R.LG_LN_STATUS 0, 0),
      (laneReg R.LG_LN_TEST 0, putFlds 0 [(F.LG_LN_TEST.RX_ON, 1)])] }

/-- It meets what O12 asks of a receiver that locks, and is not locked. -/
theorem unclockedReceiver_waits : unclockedReceiver.pllOk 4 = false ∧ unclockedReceiver.rxPowered 0 = true ∧ unclockedReceiver.los 0 = false ∧
    unclockedReceiver.rxHeld 0 = false ∧ unclockedReceiver.bit (R.LG_CTL 0) F.LG_CTL.FWD_EN = false ∧ unclockedReceiver.cdrLock 0 = false := by
  decide

/-- Without the clock of the bridges no receiver locks (Table 21.3). -/
theorem State.cdrLocks_unclocked {s : State} {l : Nat} (h : s.pllOk 4 = false) : s.cdrLocks l = s := by
  simp [State.cdrLocks, h]

theorem exec_cdrLock_unclocked {s : State} {l : LaneNo} (h : s.pllOk 4 = false) : exec (.cdrLock l) s = .next s :=
  congrArg Host.Outcome.next (State.cdrLocks_unclocked h)

/-- Refutes O12: its clause of the lock asks for a powered receiver with a signal that no port holds, and not for the clock of the bridges,
without which the receiver stays unlocked. -/
theorem not_laneEvents : ¬ Obligations.LaneEvents := by
  unfold Obligations.LaneEvents
  rintro ⟨hlanes, -⟩
  obtain ⟨hpll, hpow, hlos, hheld, hfwd, hlock⟩ := unclockedReceiver_waits
  obtain ⟨-, -, -, -, hlocks⟩ := hlanes 0 unclockedReceiver
  obtain ⟨t, ht, hlocked, -, -⟩ := hlocks hpow hlos hheld (.inl hfwd)
  rw [exec_cdrLock_unclocked hpll] at ht
  cases ht
  exact absurd hlocked (by rw [Fin.val_zero, hlock]; decide)

end Sys2Proof.Machine
end

section
/-! SUPPORT. Writes of a lane's and a group's command bits (O13): how each reaches its register and what the write does. -/

namespace Sys2Proof.Machine

variable {s : State} {l : Nat} {w : Word}

/-! ### The commands reach their registers -/

theorem laneReg_at (f : Nat → Nat → Nat) (g : Nat) {l : Nat} (hl : l < 16) : laneReg f (16 * g + l) = f g l := by
  unfold laneReg
  rw [show (16 * g + l) / 16 = g by omega, show (16 * g + l) % 16 = l by omega]

/-- A field that a command sets stands in the word that its register takes. -/
theorem fldOf_taken_set {a : Nat} {g : Region} {r : Row} {ix : List Nat} (hr : findReg a = some (g, r, ix)) (v : Word) (f : Fld) (x : Nat)
    (h : fldOf (r.mask fun _ => true) f = 2 ^ f.w - 1) (hf : f.lo + f.w ≤ 32) : fldOf (taken a (putFlds v [(f, x)])) f = x % 2 ^ f.w :=
  (fldOf_taken hr _ _ h).trans (fldOf_putFlds_one v f x hf)

section

variable {fn : FnNo} {g : GroupNo} {i : Fin 16} {v : Word}

theorem exec_firLoad (h : s.writable fn (R.LG_CTL g) = true) : exec (.firLoad fn g v) s =
    .next ((s.lgCtlWrite g (taken (R.LG_CTL g) (putFlds v [(F.LG_CTL.FIR_LOAD, 1)]))).settle s) :=
  congrArg Host.Outcome.next (State.command_LG_CTL g g.isLt h)

theorem exec_laneFirLoad (h : s.writable fn (R.LG_LN_FIR_B g i) = true) : exec (.laneFirLoad fn g i v) s =
    .next ((s.firBWrite (16 * g + i) (taken (R.LG_LN_FIR_B g i) (putFlds v [(F.LG_LN_FIR_B.LOAD, 1)]))).settle s) :=
  congrArg Host.Outcome.next (State.command_LG_LN_FIR_B g i g.isLt i.isLt h)

theorem exec_chkPatWrite (h : s.writable fn (R.LG_LN_TEST g i) = true) : exec (.chkPatWrite fn g i v) s =
    .next ((s.laneTestWrite (16 * g + i) (taken (R.LG_LN_TEST g i) v)).settle s) :=
  congrArg Host.Outcome.next (State.command_LG_LN_TEST g i g.isLt i.isLt h)

theorem exec_eyeScanGo (h : s.writable fn (R.LG_LN_EYE_CTL g i) = true) : exec (.eyeScanGo fn g i v) s =
    .next ((s.eyeWrite fn (16 * g + i) (taken (R.LG_LN_EYE_CTL g i) (putFlds v [(F.LG_LN_EYE_CTL.GO, 1)]))).settle s) :=
  congrArg Host.Outcome.next (State.command_LG_LN_EYE_CTL g i g.isLt i.isLt h)

theorem exec_laneResetGo (h : s.writable fn (R.LG_LN_RST g i) = true) : exec (.laneResetGo fn g i) s =
    .next ((s.laneReset (16 * g + i)).settle s) := by
  have hgo : fldOf (taken (R.LG_LN_RST g i) (putFlds 0 [(F.LG_LN_RST.GO, 1)])) F.LG_LN_RST.GO = 1 :=
    fldOf_taken_set (findReg_LG_LN_RST g i g.isLt i.isLt) _ _ _ (by decide) (by decide)
  refine congrArg Host.Outcome.next ((State.command_LG_LN_RST g i g.isLt i.isLt h).trans ?_)
  simp only [State.regAct, State.writeLane, Wr.bit, hgo, ne_eq, one_ne_zero, not_false_eq_true, decide_true, if_true]

end

/-! ### LG_CTL, LG_LN_FIR_B -/

theorem State.lgCtlWrite_firLoad {g : Nat} (hen : fldOf w F.LG_CTL.FWD_EN = s.fld (R.LG_CTL g) F.LG_CTL.FWD_EN)
    (hrate : fldOf w F.LG_CTL.FWD_RATE = s.fld (R.LG_CTL g) F.LG_CTL.FWD_RATE) (hload : fldOf w F.LG_CTL.FIR_LOAD = 1) {t : State}
    (ht : t = s.setFld (R.LG_CTL g) F.LG_CTL.ADAPT_CONT (fldOf w F.LG_CTL.ADAPT_CONT)) :
    s.lgCtlWrite g w = ((if t.bit (R.LG_CTL g) F.LG_CTL.FWD_EN then
        (t.setFld (laneReg R.LG_LN_STATUS (16 * g + 15)) F.LG_LN_STATUS.LMF 0).setBit (laneReg R.LG_LN_STATUS (16 * g + 15))
          F.LG_LN_STATUS.LMF_STALE true
      else t.setBit (R.LG_STATUS g) F.LG_STATUS.FWD_LOCK false).firLoad g).showLane (16 * g + 15) := by
  have hkeep {f : Fld} (d : f.lo + f.w ≤ F.LG_CTL.ADAPT_CONT.lo ∨ F.LG_CTL.ADAPT_CONT.lo + F.LG_CTL.ADAPT_CONT.w ≤ f.lo) :
      t.fld (R.LG_CTL g) f = fldOf (s.reg (R.LG_CTL g)) f := by
    rw [ht]
    exact State.fld_setFld_beside _ _ _ _ _ (by decide) d
  unfold State.fld at hen hrate
  simp only [State.lgCtlWrite, hen, hrate, hload, if_true, ← ht, hkeep (f := F.LG_CTL.FWD_EN) (by decide),
    hkeep (f := F.LG_CTL.FWD_RATE) (by decide), ne_eq, not_true_eq_false, false_and, if_false]

theorem State.firBWrite_load {v : Word} {t : State} (hload : fldOf v F.LG_LN_FIR_B.LOAD = 1)
    (ht : t = s.setReg (laneReg R.LG_LN_FIR_B l) (putFld (v &&& 0x8000FFFF) F.LG_LN_FIR_B.LOAD 0)) (hen : t.laneEnabled l = true)
    (hown : t.ownFir l = true) : s.firBWrite l v = t.loadFir l := by
  simp only [State.firBWrite, hload, ← ht, hen, hown, decide_true, Bool.and_self, if_true]

/-! ### LG_LN_TEST -/

theorem State.prbsTake_reg {a : Nat} (hlo : a ≠ laneReg R.LG_LN_PRBS_ERR_LO l) (hhi : a ≠ laneReg R.LG_LN_PRBS_ERR_HI l) :
    (s.prbsTake l).reg a = s.reg a := by
  have hset (t : State) (v : Nat) : (t.setPrbsErrs l v).reg a = t.reg a :=
    (State.reg_setFld_ne _ _ _ _ _ hhi).trans (State.reg_setFld_ne _ _ _ _ _ hlo)
  have hadd (t : State) (k : Nat) : (t.prbsAdd l k).reg a = t.reg a := by
    unfold State.prbsAdd
    split
    · exact hset t _
    · rfl
  unfold State.prbsTake
  split
  · exact hadd _ _
  · rfl

theorem State.loopChange_regs : (s.loopChange l).regs = s.regs := by
  unfold State.loopChange
  split
  · rfl
  · split
    · rfl
    · extract_lets q t k u
      split <;> rfl

theorem State.prbsErrs_prbsRestart : (s.prbsRestart l).prbsErrs l = 0 := by
  have hne : laneReg R.LG_LN_PRBS_ERR_LO l ≠ laneReg R.LG_LN_PRBS_ERR_HI l := by
    unfold laneReg R.LG_LN_PRBS_ERR_LO R.LG_LN_PRBS_ERR_HI
    omega
  unfold State.prbsErrs State.prbsRestart State.setPrbsErrs
  rw [State.fld_setBit_ne _ _ _ _ _ _ hne, State.fld_setFld_ne _ _ _ _ _ _ hne, State.fld_setFld _ _ _ _ (by decide), State.setBit,
    State.fld_setFld_beside _ _ _ _ _ (by decide) (by decide), State.fld_setFld _ _ _ _ (by decide)]
  decide

theorem State.prbsRestart_unlocked : (s.prbsRestart l).bit (laneReg R.LG_LN_PRBS_ERR_HI l) F.LG_LN_PRBS_ERR_HI.LOCK = false :=
  State.bit_setBit _ _ _ _ (by decide) (by decide)

/-- Whether a pattern is refused follows from the formations. -/
theorem State.patRefused_congr {t : State} (h : ∀ n, t.reg (R.PORT_STATUS n) = s.reg (R.PORT_STATUS n)) (v : Nat) :
    t.patRefused l v = s.patRefused l v := by
  have hwidth : t.width = s.width := funext fun n => congrArg widthLanes (State.fld_of_reg (h n))
  have hmode : t.mode = s.mode := funext fun n => State.fld_of_reg (h n)
  unfold State.patRefused State.laneNrz State.portOfLane
  rw [hwidth, hmode]

/-- The word of LG_LN_TEST as a write stores it, where the inversions stay. -/
def State.putTest (s : State) (a : Nat) (w : Word) : State :=
  [F.LG_LN_TEST.RX_ON, F.LG_LN_TEST.LOOP, F.LG_LN_TEST.CHK_PAT, F.LG_LN_TEST.GEN_PAT, F.LG_LN_TEST.TX_SRC].foldl
    (fun s f => s.setFld a f (fldOf w f)) s

theorem State.putTest_reg_ne {a b : Nat} (h : b ≠ a) : (s.putTest a w).reg b = s.reg b := by
  simp only [State.putTest, List.foldl, State.reg_setFld_ne _ _ _ _ _ h]

theorem State.putTest_rxOn {a : Nat} : (s.putTest a w).fld a F.LG_LN_TEST.RX_ON = fldOf w F.LG_LN_TEST.RX_ON := by
  simp only [State.putTest, List.foldl]
  rw [State.fld_setFld_beside _ _ _ _ _ (by decide) (by decide), State.fld_setFld_beside _ _ _ _ _ (by decide) (by decide),
    State.fld_setFld_beside _ _ _ _ _ (by decide) (by decide), State.fld_setFld_beside _ _ _ _ _ (by decide) (by decide),
    State.fld_setFld _ _ _ _ (by decide), fldOf_mod]

theorem State.putTest_chkPat {a : Nat} : (s.putTest a w).fld a F.LG_LN_TEST.CHK_PAT = fldOf w F.LG_LN_TEST.CHK_PAT := by
  simp only [State.putTest, List.foldl]
  rw [State.fld_setFld_beside _ _ _ _ _ (by decide) (by decide), State.fld_setFld_beside _ _ _ _ _ (by decide) (by decide),
    State.fld_setFld _ _ _ _ (by decide), fldOf_mod]

theorem portStatus_ne_lane (n o : Nat) {l : Nat} (hl : l < 1024) (ho : o < 0x380) :
    R.PORT_STATUS n ≠ 0x100800 + l / 16 * 0x4000 + l % 16 * 0x380 + o := by
  unfold R.PORT_STATUS
  omega

/-- A write of LG_LN_TEST that keeps the inversions, the receiver and the MAC as source, and runs the checker (R98, log entry 128). -/
theorem State.laneTestWrite_checker (hl : l < 1024) {t : State}
    (htx : fldOf w F.LG_LN_TEST.TX_INV = s.fld (laneReg R.LG_LN_TEST l) F.LG_LN_TEST.TX_INV)
    (hrx : fldOf w F.LG_LN_TEST.RX_INV = s.fld (laneReg R.LG_LN_TEST l) F.LG_LN_TEST.RX_INV)
    (hon : fldOf w F.LG_LN_TEST.RX_ON = s.fld (laneReg R.LG_LN_TEST l) F.LG_LN_TEST.RX_ON)
    (hsrc : fldOf w F.LG_LN_TEST.TX_SRC = 0) (hchk : fldOf w F.LG_LN_TEST.CHK_PAT ≠ 0)
    (hpat : s.patRefused l (fldOf w F.LG_LN_TEST.CHK_PAT) = false) (hgen : s.patRefused l (fldOf w F.LG_LN_TEST.GEN_PAT) = false)
    (ht : t = if fldOf w F.LG_LN_TEST.LOOP = s.fld (laneReg R.LG_LN_TEST l) F.LG_LN_TEST.LOOP then
        (s.prbsTake l).putTest (laneReg R.LG_LN_TEST l) w
      else ((s.prbsTake l).putTest (laneReg R.LG_LN_TEST l) w).loopChange l) :
    s.laneTestWrite l w = ((t.prbsRestart l).showLane l).synceCheck := by
  have hold : (s.prbsTake l).reg (laneReg R.LG_LN_TEST l) = s.reg (laneReg R.LG_LN_TEST l) :=
    State.prbsTake_reg (by unfold laneReg R.LG_LN_TEST R.LG_LN_PRBS_ERR_LO; omega) (by unfold laneReg R.LG_LN_TEST R.LG_LN_PRBS_ERR_HI; omega)
  have hrxon : ((s.prbsTake l).putTest (laneReg R.LG_LN_TEST l) w).rxOn l = decide (fldOf w F.LG_LN_TEST.RX_ON = 1) := by
    have hlt : fldOf w F.LG_LN_TEST.RX_ON < 2 := Nat.mod_lt _ (by decide)
    rw [State.rxOn, State.bit, State.putTest_rxOn, decide_eq_decide]
    omega
  have hregs : t.regs = ((s.prbsTake l).putTest (laneReg R.LG_LN_TEST l) w).regs := by
    rw [ht]
    split
    · rfl
    · exact State.loopChange_regs
  have hstatus (n : Nat) : t.reg (R.PORT_STATUS n) = s.reg (R.PORT_STATUS n) := by
    unfold State.reg
    rw [hregs]
    exact (State.putTest_reg_ne (portStatus_ne_lane n 0x40 hl (by decide))).trans
      (State.prbsTake_reg (portStatus_ne_lane n 0x48 hl (by decide)) (portStatus_ne_lane n 0x4C hl (by decide)))
  have hprbs : t.prbsOn l = true := by
    have hfld : t.fld (laneReg R.LG_LN_TEST l) F.LG_LN_TEST.CHK_PAT = fldOf w F.LG_LN_TEST.CHK_PAT := by
      rw [← State.putTest_chkPat (s := s.prbsTake l)]
      unfold State.fld State.reg
      rw [hregs]
    simp only [State.prbsOn, hfld, State.patRefused_congr hstatus, hpat, hchk, ne_eq, not_false_eq_true, decide_true, Bool.not_false,
      Bool.and_self]
  unfold State.laneTestWrite
  unfold State.fld at htx hrx hon ht
  extract_lets p a old put rwi s1 s2 was s3 s4 s5 bad s6 s7 s8
  have h1 : s1 = p := by simp only [s1, rwi, old, hold, a, p, htx, hrx, if_true]
  have h2 : s2 = p.putTest a w := by simp only [s2, h1]; rfl
  have h3 : s3 = s2 := by
    have : s2.rxOn l = decide was := by
      rw [h2, hrxon]
      simp only [was, old, a, p, hold, hon]
    simp only [s3, this]
    by_cases hw : was <;> simp [hw]
  have h4 : s4 = t := by
    simp only [s4, h3, h2, ht, old, a, p, hold]
  have h5 : s5 = t := by simp only [s5, hsrc, h4]; simp
  have h6 : s6 = t := by
    simp only [s6, bad, h5, State.patRefused_congr hstatus, hpat, hgen]
    simp
  have h7 : s7 = t.prbsRestart l := by simp only [s7, h6, hprbs, if_true]
  have h8 : s8 = t.prbsRestart l := by simp only [s8, hsrc, h7]; simp
  rw [h8]

/-! ### LG_LN_EYE_CTL -/

theorem State.reg_setLane (s : State) (l : Nat) (q : LaneSt) (a : Nat) : (s.setLane l q).reg a = s.reg a := rfl

theorem State.eyeWrite_of_idle {f : Nat} {v : Word} {t : State} (hgo : fldOf v F.LG_LN_EYE_CTL.GO = 1) (hbusy : s.eyeBusy l = false)
    (ht : t = s.setReg (laneReg R.LG_LN_EYE_CTL l) (putFld (v &&& 0x603FFF8F) F.LG_LN_EYE_CTL.GO 0))
    (heye : t.fld (laneReg R.LG_LN_EYE_CTL l) F.LG_LN_EYE_CTL.EYE ≠ 3) :
    s.eyeWrite f l v = if s.cdrLock l then
        ((t.setBit (laneReg R.LG_LN_EYE_CTL l) F.LG_LN_EYE_CTL.GO true).setBit (laneReg R.LG_LN_STATUS l) F.LG_LN_STATUS.LMF_STALE
          true).setLane l { s.lane l with whole := false }
      else t.eyeEnd l (2 ^ 32 - 1) := by
  have hlock : t.cdrLock l = s.cdrLock l := by
    unfold State.cdrLock
    rw [ht, State.bit_setReg_ne _ _ _ _ _ (by unfold laneReg R.LG_LN_STATUS R.LG_LN_EYE_CTL; omega)]
  have hlane : ((t.setBit (laneReg R.LG_LN_EYE_CTL l) F.LG_LN_EYE_CTL.GO true).setBit (laneReg R.LG_LN_STATUS l)
      F.LG_LN_STATUS.LMF_STALE true).lane l = s.lane l := by
    rw [State.lane, State.setBit_lanes, State.setBit_lanes, ht, State.setReg_lanes, State.lane]
  have hite : (if false = true then 1 else 0) = 0 := if_neg Bool.false_ne_true
  rw [State.eyeWrite, hbusy, hite, ← ht, hgo, if_neg one_ne_zero, if_neg Bool.false_ne_true, if_neg heye, hlock]
  cases s.cdrLock l
  · rw [if_pos Bool.not_false, if_neg Bool.false_ne_true]
  · rw [if_neg (by decide), if_pos rfl]
    dsimp only
    rw [hlane]

theorem State.eyeBusy_eyeEnd {k : Nat} : (s.eyeEnd l k).eyeBusy l = false := State.bit_setBit _ _ _ _ (by decide) (by decide)

/-- A scan that has started is busy, its status and its lane aside. -/
theorem State.eyeBusy_started {q : LaneSt} : (((s.setBit (laneReg R.LG_LN_EYE_CTL l) F.LG_LN_EYE_CTL.GO true).setBit
    (laneReg R.LG_LN_STATUS l) F.LG_LN_STATUS.LMF_STALE true).setLane l q).eyeBusy l = true := by
  rw [State.eyeBusy, State.bit_of_reg (State.reg_setLane _ _ _ _),
    State.bit_setBit_ne _ _ _ _ _ _ (by unfold laneReg R.LG_LN_EYE_CTL R.LG_LN_STATUS; omega), State.bit_setBit _ _ _ _ (by decide) (by decide)]

theorem State.eyeEnd_result {k : Nat} : (s.eyeEnd l k).reg (laneReg R.LG_LN_EYE_RES l) = BitVec.ofNat 32 (min k (2 ^ 32 - 1)) :=
  (State.reg_setBit_ne _ _ _ _ _ (by unfold laneReg R.LG_LN_EYE_RES R.LG_LN_EYE_CTL; omega)).trans (State.reg_setReg _ _ _)

/-! ### LG_LN_RST -/

theorem State.laneReset_of_free (hport : (s.portOfLane l).any (fun n => (s.port n).inPortReset) = false) (hheld : s.pipeHeld (l / 64) = false)
    {t u : State} (ht : t = if s.fwd15 l then s.fwdLoss (l / 16) else s)
    (hu : u = ((((t.lockLost l).rxUnlock l).prbsRestart l).setFld (laneReg R.LG_LN_STATUS l) F.LG_LN_STATUS.LMF 0).setBit
      (laneReg R.LG_LN_STATUS l) F.LG_LN_STATUS.LMF_STALE true) :
    s.laneReset l = if u.eyeBusy l then u.eyeEnd l (2 ^ 32 - 1) else u := by
  simp only [State.laneReset, hport, hheld, Bool.or_self, Bool.false_eq_true, if_false, ← ht, ← hu]

/-! ### The commands -/

section

variable {fn : FnNo} {g : GroupNo} {i : Fin 16} {v : Word}

theorem exec_firLoad_spec {s1 : State} (hw : s.writable fn (R.LG_CTL g) = true) (hwv : w = taken (R.LG_CTL g) (putFlds v [(F.LG_CTL.FIR_LOAD, 1)]))
    (hen : fldOf w F.LG_CTL.FWD_EN = s.fld (R.LG_CTL g) F.LG_CTL.FWD_EN)
    (hrate : fldOf w F.LG_CTL.FWD_RATE = s.fld (R.LG_CTL g) F.LG_CTL.FWD_RATE)
    (h1 : s1 = s.setFld (R.LG_CTL g) F.LG_CTL.ADAPT_CONT (fldOf w F.LG_CTL.ADAPT_CONT)) :
    exec (.firLoad fn g v) s = .next ((((if s1.bit (R.LG_CTL g) F.LG_CTL.FWD_EN then
        (s1.setFld (laneReg R.LG_LN_STATUS (16 * g + 15)) F.LG_LN_STATUS.LMF 0).setBit (laneReg R.LG_LN_STATUS (16 * g + 15))
          F.LG_LN_STATUS.LMF_STALE true
      else s1.setBit (R.LG_STATUS g) F.LG_STATUS.FWD_LOCK false).firLoad g).showLane (16 * g + 15)).settle s) := by
  have hload : fldOf w F.LG_CTL.FIR_LOAD = 1 := by
    rw [hwv]
    exact fldOf_taken_set (findReg_LG_CTL g g.isLt) _ _ _ (by decide) (by decide)
  rw [exec_firLoad hw, ← hwv, State.lgCtlWrite_firLoad hen hrate hload h1]

theorem exec_laneFirLoad_spec {s1 : State} (hw : s.writable fn (R.LG_LN_FIR_B g i) = true)
    (hwv : w = taken (R.LG_LN_FIR_B g i) (putFlds v [(F.LG_LN_FIR_B.LOAD, 1)]))
    (h1 : s1 = s.setReg (R.LG_LN_FIR_B g i) (putFld (w &&& 0x8000FFFF) F.LG_LN_FIR_B.LOAD 0))
    (hen : s1.laneEnabled (16 * g + i) = true) (hown : s1.ownFir (16 * g + i) = true) :
    exec (.laneFirLoad fn g i v) s = .next ((s1.loadFir (16 * g + i)).settle s) := by
  have hload : fldOf w F.LG_LN_FIR_B.LOAD = 1 := by
    rw [hwv]
    exact fldOf_taken_set (findReg_LG_LN_FIR_B g i g.isLt i.isLt) _ _ _ (by decide) (by decide)
  rw [← laneReg_at R.LG_LN_FIR_B g i.isLt] at h1
  rw [exec_laneFirLoad hw, ← hwv, State.firBWrite_load hload h1 hen hown]

theorem exec_eyeScanGo_of_idle {s1 : State} (hw : s.writable fn (R.LG_LN_EYE_CTL g i) = true) (hbusy : s.eyeBusy (16 * g + i) = false)
    (hwv : w = taken (R.LG_LN_EYE_CTL g i) (putFlds v [(F.LG_LN_EYE_CTL.GO, 1)]))
    (h1 : s1 = s.setReg (R.LG_LN_EYE_CTL g i) (putFld (w &&& 0x603FFF8F) F.LG_LN_EYE_CTL.GO 0))
    (heye : s1.fld (R.LG_LN_EYE_CTL g i) F.LG_LN_EYE_CTL.EYE ≠ 3) :
    exec (.eyeScanGo fn g i v) s = .next ((if s.cdrLock (16 * g + i) then
        ((s1.setBit (R.LG_LN_EYE_CTL g i) F.LG_LN_EYE_CTL.GO true).setBit (R.LG_LN_STATUS g i) F.LG_LN_STATUS.LMF_STALE
          true).setLane (16 * g + i) { s.lane (16 * g + i) with whole := false }
      else s1.eyeEnd (16 * g + i) (2 ^ 32 - 1)).settle s) := by
  have hgo : fldOf w F.LG_LN_EYE_CTL.GO = 1 := by
    rw [hwv]
    exact fldOf_taken_set (findReg_LG_LN_EYE_CTL g i g.isLt i.isLt) _ _ _ (by decide) (by decide)
  rw [← laneReg_at R.LG_LN_EYE_CTL g i.isLt] at h1 heye ⊢
  rw [exec_eyeScanGo hw, ← hwv, State.eyeWrite_of_idle hgo hbusy h1 heye, ← laneReg_at R.LG_LN_STATUS g i.isLt]

theorem exec_laneResetGo_spec {s0 s1 : State} (hw : s.writable fn (R.LG_LN_RST g i) = true)
    (hport : (s.portOfLane (16 * g + i)).any (fun n => (s.port n).inPortReset) = false) (hheld : s.pipeHeld (g.val / 4) = false)
    (h0 : s0 = if s.fwd15 (16 * g + i) then s.fwdLoss g else s)
    (h1 : s1 = ((((s0.lockLost (16 * g + i)).rxUnlock (16 * g + i)).prbsRestart (16 * g + i)).setFld (R.LG_LN_STATUS g i)
        F.LG_LN_STATUS.LMF 0).setBit (R.LG_LN_STATUS g i) F.LG_LN_STATUS.LMF_STALE true) :
    exec (.laneResetGo fn g i) s =
      .next ((if s1.eyeBusy (16 * g + i) then s1.eyeEnd (16 * g + i) (2 ^ 32 - 1) else s1).settle s) := by
  have hheld : s.pipeHeld ((16 * g.val + i.val) / 64) = false := by rwa [show (16 * g.val + i.val) / 64 = g.val / 4 by omega]
  have h0 : s0 = if s.fwd15 (16 * g + i) then s.fwdLoss ((16 * g.val + i.val) / 16) else s := by
    rwa [show (16 * g.val + i.val) / 16 = g.val by omega]
  rw [← laneReg_at R.LG_LN_STATUS g i.isLt] at h1
  rw [exec_laneResetGo hw, State.laneReset_of_free hport hheld h0 h1]

end

/-- Settles O13: each command reaches its register, whose write is one of the equations above. -/
theorem laneCommands : Obligations.LaneCommands := by
  unfold Obligations.LaneCommands
  intro fn g l v s
  have hat (f : Nat → Nat → Nat) : laneReg f (16 * g.val + l.val) = f g l := laneReg_at f g l.isLt
  refine ⟨fun w s1 s2 hw hwv hen hrate h1 h2 => ?_, fun w s1 => exec_laneFirLoad_spec,
    fun w s0 s1 hw hwv htx hrx hon hsrc hchk hpat hgen h0 h1 => ?_, fun w s1 hw hbusy hwv h1 heye => ?_, fun s0 s1 hw hport hheld h0 h1 => ?_⟩
  · rw [h2, exec_firLoad_spec hw hwv hen hrate h1]
  · rw [h1]
    refine ⟨State.prbsErrs_prbsRestart, ?_, ?_⟩
    · rw [← hat R.LG_LN_PRBS_ERR_HI]
      exact State.prbsRestart_unlocked
    · rw [exec_chkPatWrite hw, ← hwv]
      rw [← hat R.LG_LN_TEST] at htx hrx hon h0 ⊢
      rw [State.laneTestWrite_checker (by omega) htx hrx hon hsrc hchk hpat hgen rfl, h0, State.putTest]
  · rw [exec_eyeScanGo_of_idle hw hbusy hwv h1 heye]
    refine ⟨fun hlock => ⟨_, ?_, rfl, by rw [if_pos hlock]⟩,
      fun hlock => ⟨_, ?_, State.eyeBusy_eyeEnd, rfl, by rw [hlock, if_neg Bool.false_ne_true]⟩⟩
    · rw [← hat R.LG_LN_EYE_CTL, ← hat R.LG_LN_STATUS]
      exact State.eyeBusy_started
    · rw [← hat R.LG_LN_EYE_RES]
      exact State.eyeEnd_result
  · refine ⟨?_, ?_, exec_laneResetGo_spec hw hport hheld h0 h1⟩
    · rw [h1]
      exact State.bit_setBit _ _ _ _ (by decide) (by decide)
    · rw [h1]
      exact (State.fld_setFld_beside _ _ _ _ _ (by decide) (by decide)).trans (State.fld_setFld _ _ _ _ (by decide))

end Sys2Proof.Machine
end

section
/-! SUPPORT. A late frame whose reason is none of Table 14.2: what the statement of the MAC's frames (O27) leaves open. -/

namespace Sys2Proof.Machine

/-- A Timetable frame that is late for a reason far beyond the seven of Table 14.2. -/
def strayLateFrame : TxFrame := { pkt := { floor := some 0 }, bytes := [], reason := 163872 }

/-- Port 0 of a part after reset has that frame next in its MAC. -/
def strayLatePort : State := State.reset.setPtm 0 { tx := [strayLateFrame] }

theorem strayLatePort_next : (strayLatePort.ptm 0).tx.find? (fun f => !f.started) = some strayLateFrame := by decide

/-- The state in which the frame has started and is not yet judged. -/
def strayLateStarted : State := (strayLatePort.setPtm 0 { strayLatePort.ptm 0 with
  tx := (strayLatePort.ptm 0).tx.map fun g => if g = strayLateFrame then { g with started := true } else g }).lineFrame 0 strayLateFrame.sent

/-- The count by the reason lies where that of all Timetable frames of the port does, so that the frame counts there twice. -/
theorem strayLatePort_counts : C.TT_LATE_BY (strayLateStarted.ownerOfPort 0) (strayLateFrame.reason - 1) = C.TT_DUE 0 ∧
    strayLateStarted.cnt (C.TT_DUE 0) = 0 ∧ (strayLatePort.txStart 0).cnt (C.TT_DUE 0) = 2 := by decide

/-- Refutes O27: its clause of a late frame bounds the late reason nowhere. In a state that no run reaches, in which the reason is no row of
Table 14.2, TT_LATE_BY of the reason lies at the address of TT_DUE, which the frame then raises by 2. -/
theorem not_macFrames : ¬ Obligations.MacFrames := by
  unfold Obligations.MacFrames
  intro h
  obtain ⟨-, hlate, -⟩ := h 0 strayLatePort
  obtain ⟨-, hzero, htwo⟩ := strayLatePort_counts
  obtain ⟨t, ht, -, hdue, -⟩ := hlate strayLateFrame 0 strayLateStarted strayLatePort_next rfl rfl
  have ht : t = strayLatePort.txStart 0 := (Host.Outcome.next.inj ht).symm
  have hdue : t.cnt (C.TT_DUE 0) = min (strayLateStarted.cnt (C.TT_DUE 0) + 1) (2 ^ 48 - 1) := hdue
  rw [ht, htwo, hzero] at hdue
  exact absurd hdue (by decide)

end Sys2Proof.Machine
end

section
/-! SUPPORT. The frames that the end of a packet, a flush and the fall of a link leave in the MACs and the queues. -/

namespace Sys2Proof.Machine

/-- From `s` to `t` no MAC and no queue has gained or lost a frame. -/
def KeepsFrames (s t : State) : Prop :=
  (∀ n, (t.ptm n).tx = (s.ptm n).tx) ∧ ∀ n c, (t.tmq n c).pkts = (s.tmq n c).pkts

variable {s₀ s t : State} {n c : Nat}

theorem KeepsFrames.refl (s : State) : KeepsFrames s s := ⟨fun _ => rfl, fun _ _ => rfl⟩

theorem KeepsFrames.ite {p : Prop} [Decidable p] (ht : KeepsFrames s₀ s) (hu : KeepsFrames s₀ t) : KeepsFrames s₀ (if p then s else t) := by
  split <;> assumption

theorem KeepsFrames.foldl {α : Type} {f : State → α → State} {l : List α} (h : KeepsFrames s₀ s)
    (hf : ∀ t x, KeepsFrames s₀ t → KeepsFrames s₀ (f t x)) : KeepsFrames s₀ (l.foldl f s) := by
  induction l generalizing s with
  | nil => exact h
  | cons x l ih => exact ih (hf s x h)

/-- What leaves the traffic manager alone leaves its frames. -/
theorem KeepsFrames.of_tm (h : KeepsFrames s₀ s) (e : t.tm = s.tm) : KeepsFrames s₀ t := by
  unfold KeepsFrames State.ptm State.tmq at h ⊢
  rwa [e]

theorem KeepsFrames.setBit {a : Nat} {f : Fld} {b : Bool} (h : KeepsFrames s₀ s) : KeepsFrames s₀ (s.setBit a f b) := h.of_tm rfl

theorem KeepsFrames.setPtm {q : PortTm} (h : KeepsFrames s₀ s) (hq : q.tx = (s.ptm n).tx) : KeepsFrames s₀ (s.setPtm n q) := by
  obtain ⟨htx, hpkts⟩ := h
  refine ⟨fun m => ?_, hpkts⟩
  rw [State.ptm_setPtm, ← htx m]
  split
  · next hm => rw [hm, hq]
  · rfl

theorem State.tmq_setTmq (s : State) (n c m d : Nat) (q : QueueSt) :
    (s.setTmq n c q).tmq m d = if m * 16 + d = n * 16 + c then q else s.tmq m d := SMap.get_put ..

theorem KeepsFrames.setTmq {q : QueueSt} (h : KeepsFrames s₀ s) (hq : q.pkts = (s.tmq n c).pkts) : KeepsFrames s₀ (s.setTmq n c q) := by
  obtain ⟨htx, hpkts⟩ := h
  refine ⟨htx, fun m d => ?_⟩
  rw [State.tmq_setTmq, ← hpkts m d]
  split
  · next hm => rw [hq, State.tmq, State.tmq, hm]
  · rfl

theorem Alarms.keepsFrames {as : List Nat} (h : KeepsFrames s₀ s) (k : Alarms as s t) : KeepsFrames s₀ t := h.of_tm (by rw [k.eq])

theorem State.ariseF_keepsFrames {a : Nat} {f : Fld} (h : KeepsFrames s₀ s) : KeepsFrames s₀ (s.ariseF a f) :=
  (State.ariseF_alarms (as := [a]) s a f (.inl (List.mem_singleton_self a))).keepsFrames h

theorem State.cause_keepsFrames {a : Nat} {f : Fld} (h : KeepsFrames s₀ s) : KeepsFrames s₀ (s.cause a f) :=
  (State.cause_alarms (as := [a]) s a f (.inl (List.mem_singleton_self a))).keepsFrames h

/-! ### The end of a packet -/

theorem State.bpmRelease_tm (s : State) (rq h : Nat) : (s.bpmRelease rq h).tm = s.tm := by
  unfold State.bpmRelease
  split <;> rfl

theorem State.wbGone_tm (s : State) (n : Nat) (q : Sheet) : (s.wbGone n q).tm = s.tm := by
  unfold State.wbGone
  extract_lets w t
  split
  · exact State.bpmRelease_tm t _ _
  · rfl

theorem State.wbExported_tm (s : State) (n num : Nat) : (s.wbExported n num).tm = s.tm := by
  unfold State.wbExported
  split
  · rfl
  · exact State.wbGone_tm s n _

theorem State.sheetLose_tm (s : State) (n num : Nat) : (s.sheetLose n num).tm = s.tm := by
  unfold State.sheetLose
  split
  · rfl
  · exact State.wbGone_tm s n _

theorem State.fcEval_keepsFrames (h : KeepsFrames s₀ s) : KeepsFrames s₀ (s.fcEval n) := by
  unfold State.fcEval
  extract_lets old new t1 q t2
  have h1 : KeepsFrames s₀ t1 := h.of_tm rfl
  have h2 : KeepsFrames s₀ t2 := h1.setPtm rfl
  exact .ite h (.ite h2 (h2.setPtm rfl))

theorem State.occSub_keepsFrames {k : Nat} (h : KeepsFrames s₀ s) : KeepsFrames s₀ (s.occSub n c k) := by
  unfold State.occSub
  exact State.fcEval_keepsFrames h

theorem State.mcDone_keepsFrames {b : Nat} (h : KeepsFrames s₀ s) : KeepsFrames s₀ (s.mcDone b) := by
  unfold State.mcDone
  split
  · exact h
  · extract_lets put t
    have ht : KeepsFrames s₀ t := KeepsFrames.of_tm (s := put s none) h (State.bpmRelease_tm _ _ _)
    exact .ite h (.ite (State.occSub_keepsFrames ht) ht)

theorem State.pktGone_keepsFrames {k : Pkt} {sent : Bool} (h : KeepsFrames s₀ s) : KeepsFrames s₀ (s.pktGone k sent) := by
  have hfree : KeepsFrames s₀ (s.bpmRelease k.rq k.handle) := h.of_tm (State.bpmRelease_tm _ _ _)
  unfold State.pktGone
  split
  · exact State.mcDone_keepsFrames h
  · split
    · exact h
    · exact .ite (h.of_tm (State.wbExported_tm _ _ _)) (.ite (h.of_tm (State.sheetLose_tm _ _ _)) h)
  · exact .ite (State.occSub_keepsFrames hfree) hfree

theorem State.dropQueued_keepsFrames {k : Pkt} {code : Nat} (h : KeepsFrames s₀ s) : KeepsFrames s₀ (s.dropQueued n c k code) := by
  have hin : KeepsFrames s₀ (s.tmDropCount k code) := .ite h h
  have hq : KeepsFrames s₀ ((s.tmDropCount k code).qDropCount n c k.len code) := by
    unfold State.qDropCount
    extract_lets t1 t2
    have h2 : KeepsFrames s₀ t2 := .ite hin hin
    exact .ite (State.cause_keepsFrames h2) h2
  exact State.pktGone_keepsFrames (.ite (.ite hq hq) hq)

theorem State.stallEval_keepsFrames (h : KeepsFrames s₀ s) : KeepsFrames s₀ (s.stallEval n c) := by
  unfold State.stallEval
  extract_lets q
  exact .ite (.ite h (h.setTmq rfl)) (.ite (h.setTmq rfl) h)

theorem State.stallEvals_keepsFrames (h : KeepsFrames s₀ s) : KeepsFrames s₀ (s.stallEvals n) :=
  h.foldl fun _ _ ht => State.stallEval_keepsFrames ht

theorem State.flushQueue_empty (s : State) (n c code : Nat) : ((s.flushQueue n c code).tmq n c).pkts = [] := by
  unfold State.flushQueue
  extract_lets ps q t
  have hempty : (t.tmq n c).pkts = [] := by rw [State.tmq_setTmq, if_pos rfl]
  have hdrop : KeepsFrames t (ps.foldl (fun s k => s.dropQueued n c k code) t) :=
    (KeepsFrames.refl t).foldl fun _ _ ht => State.dropQueued_keepsFrames ht
  rw [(State.stallEval_keepsFrames hdrop).2 n c, hempty]

/-! ### The fall of a link -/

theorem State.lineShow_keepsFrames {l : Nat} (h : KeepsFrames s₀ s) : KeepsFrames s₀ (s.lineShow l) := by
  unfold State.lineShow
  extract_lets g q t
  have ht : KeepsFrames s₀ t := h
  exact .ite h (.ite ht ht)

theorem State.linePort_keepsFrames (h : KeepsFrames s₀ s) : KeepsFrames s₀ (s.linePort n) := h.foldl fun _ _ ht => State.lineShow_keepsFrames ht

theorem State.linkFall_keepsFrames (h : KeepsFrames s₀ s) : KeepsFrames s₀ (s.linkFall n) := by
  unfold State.linkFall
  refine .ite h ?_
  extract_lets t1 q t2
  have h1 : KeepsFrames s₀ t1 := h.setBit.setBit
  have h2 : KeepsFrames s₀ t2 := State.linePort_keepsFrames (State.stallEvals_keepsFrames (h1.setPtm rfl))
  exact State.ariseF_keepsFrames h2

theorem State.emitMac_keepsFrames {e : Emit} (h : KeepsFrames s₀ s) : KeepsFrames s₀ (s.emitMac n e) := .ite h (.ite h h)

theorem State.txCut_empty (s : State) (n : Nat) : ((s.txCut n).ptm n).tx = [] := by
  unfold State.txCut
  extract_lets fs q t1 r t2
  have hempty : (t2.ptm n).tx = [] := by
    change (t1.ptm n).tx = []
    rw [State.ptm_setPtm, if_pos rfl]
  refine ((KeepsFrames.foldl (.refl t2) fun t f ht => ?_).1 n).trans hempty
  exact State.pktGone_keepsFrames (.ite (State.emitMac_keepsFrames (s := t.addCnt (C.TX_CUT n) 1) ht) ht)

end Sys2Proof.Machine
end

section
/-! SUPPORT. PORT_CTL.EN, PORT_RST.GO and the end of a group's timeline (O14). -/

namespace Sys2Proof.Machine

variable {s t : State} {n : Nat} {w : Word}

theorem not_irqBlock_portCtl (n : Nat) : ¬ irqBlock (R.PORT_CTL n) := by unfold irqBlock R.PORT_CTL; omega

theorem not_irqBlock_portStatus (n : Nat) : ¬ irqBlock (R.PORT_STATUS n) := by unfold irqBlock R.PORT_STATUS; omega

theorem not_irqBlock_portCause (n : Nat) : ¬ irqBlock (R.PORT_CAUSE n) := by unfold irqBlock R.PORT_CAUSE; omega

/-! ### LINK_UP falls -/

/-- From `s` to `t` no register has changed. -/
def KeepsRegs (s t : State) : Prop := t.regs = s.regs

theorem KeepsRegs.ite {s₀ : State} {p : Prop} [Decidable p] (hs : KeepsRegs s₀ s) (ht : KeepsRegs s₀ t) :
    KeepsRegs s₀ (if p then s else t) := by
  split <;> assumption

theorem KeepsRegs.foldl {s₀ : State} {α : Type} {f : State → α → State} {l : List α} (h : KeepsRegs s₀ s)
    (hf : ∀ t x, KeepsRegs s₀ t → KeepsRegs s₀ (f t x)) : KeepsRegs s₀ (l.foldl f s) := by
  induction l generalizing s with
  | nil => exact h
  | cons x l ih => exact ih (hf s x h)

theorem State.stallEval_keepsRegs {s₀ : State} {c : Nat} (h : KeepsRegs s₀ s) : KeepsRegs s₀ (s.stallEval n c) := by
  unfold State.stallEval
  extract_lets q
  have hset (q' : QueueSt) : KeepsRegs s₀ (s.setTmq n c q') := h
  exact .ite (.ite h (hset _)) (.ite (hset _) h)

theorem State.lineShow_keepsRegs {s₀ : State} {l : Nat} (h : KeepsRegs s₀ s) : KeepsRegs s₀ (s.lineShow l) := by
  unfold State.lineShow
  extract_lets g q t
  have ht : KeepsRegs s₀ t := h
  exact .ite h (.ite ht ht)

theorem State.stallEvals_keepsRegs {s₀ : State} (h : KeepsRegs s₀ s) : KeepsRegs s₀ (s.stallEvals n) :=
  h.foldl fun _ _ ht => State.stallEval_keepsRegs ht

theorem State.linePort_keepsRegs {s₀ : State} (h : KeepsRegs s₀ s) : KeepsRegs s₀ (s.linePort n) :=
  h.foldl fun _ _ ht => State.lineShow_keepsRegs ht

theorem State.linkUp_linkFall (s : State) (n : Nat) : (s.linkFall n).linkUp n = false := by
  unfold State.linkFall
  by_cases hup : s.linkUp n = true
  · rw [hup, if_neg (by decide)]
    extract_lets t q u
    have ht : t.linkUp n = false :=
      (State.bit_setBit_ne _ _ _ _ _ _ (by unfold R.PORT_STATUS R.TM_PORT_STATUS; omega)).trans (State.bit_setBit _ _ _ _ (by decide) (by decide))
    have hregs : KeepsRegs t u := State.linePort_keepsRegs (State.stallEvals_keepsRegs (State.setPtm_regs ..))
    have hu : u.reg (R.PORT_STATUS n) = t.reg (R.PORT_STATUS n) := congrArg (SMap.get resetValue · (R.PORT_STATUS n)) hregs
    rw [State.linkUp, State.ariseF_bit_ne (by unfold R.PORT_STATUS R.PORT_CAUSE; omega) (not_irqBlock_portStatus n), State.bit_of_reg hu]
    exact ht
  · rw [Bool.not_eq_true] at hup
    rw [hup, if_pos Bool.not_false]
    exact hup

/-! ### What the link had found clears -/

theorem State.port_setBit (s : State) (a : Nat) (f : Fld) (b : Bool) (n : Nat) : (s.setBit a f b).port n = s.port n := by
  rw [State.port, State.setBit_ports, State.port]

/-- A port as a write of one of its bits finds it, where the port was just set. -/
theorem State.port_setPort_setBit (s : State) (n : Nat) (q : PortSt) (a : Nat) (f : Fld) (b : Bool) :
    (((s.setPort n q).setBit a f b).port n) = q := by
  rw [State.port_setBit, State.port_setPort, if_pos rfl]

theorem State.pcsLock_linkClear (s : State) (n : Nat) : ((s.linkClear n).port n).pcsLock = false := by
  rw [State.linkClear, State.port_setPort, if_pos rfl]

theorem State.bit_setFld_beside (s : State) (a : Nat) (f g : Fld) (v : Nat) (h : f.lo + f.w ≤ 32)
    (d : g.lo + g.w ≤ f.lo ∨ f.lo + f.w ≤ g.lo) : (s.setFld a f v).bit a g = s.bit a g := by
  unfold State.bit
  rw [State.fld_setFld_beside _ _ _ _ _ h d]

theorem State.bit_setPort (s : State) (n : Nat) (q : PortSt) (a : Nat) (f : Fld) : (s.setPort n q).bit a f = s.bit a f := rfl

theorem State.anDone_linkClear (s : State) (n : Nat) : (s.linkClear n).bit (R.PORT_STATUS n) F.PORT_STATUS.AN_DONE = false := by
  unfold State.linkClear
  extract_lets a t1 t2 t3
  have h2 : t2.bit a F.PORT_STATUS.AN_DONE = false :=
    (State.bit_setBit_beside _ _ _ _ _ (by decide) (by decide)).trans (State.bit_setBit _ _ _ _ (by decide) (by decide))
  have h3 : t3.bit a F.PORT_STATUS.AN_DONE = false :=
    (State.bit_setFld_beside _ _ _ _ _ (by decide) (by decide)).trans ((State.bit_setFld_beside _ _ _ _ _ (by decide) (by decide)).trans h2)
  exact (State.bit_setPort _ _ _ _ _).trans h3

/-! ### PORT_CTL -/

theorem exec_portEnable {fn : FnNo} {n : PortNo} {v : Word} (h : s.writable fn (R.PORT_CTL n) = true) : exec (.portEnable fn n v) s =
    .next ((s.portCtlWrite n (taken (R.PORT_CTL n) (putFlds v [(F.PORT_CTL.EN, 1)]))).settle s) :=
  congrArg Host.Outcome.next (State.command_PORT_CTL n n.isLt h)

theorem exec_portDisable {fn : FnNo} {n : PortNo} {v : Word} (h : s.writable fn (R.PORT_CTL n) = true) : exec (.portDisable fn n v) s =
    .next ((s.portCtlWrite n (taken (R.PORT_CTL n) (putFlds v [(F.PORT_CTL.EN, 0)]))).settle s) :=
  congrArg Host.Outcome.next (State.command_PORT_CTL n n.isLt h)

theorem exec_portResetGo {fn : FnNo} {n : PortNo} (h : s.writable fn (R.PORT_RST n) = true) : exec (.portResetGo fn n) s =
    .next ((s.portReset fn n).settle s) := by
  have hgo : fldOf (taken (R.PORT_RST n) (putFlds 0 [(F.PORT_RST.GO, 1)])) F.PORT_RST.GO = 1 :=
    fldOf_taken_set (findReg_PORT_RST n n.isLt) _ _ _ (by decide) (by decide)
  refine congrArg Host.Outcome.next ((State.command_PORT_RST n n.isLt h).trans ?_)
  simp only [State.regAct, State.writePort, Wr.bit, hgo, ne_eq, one_ne_zero, not_false_eq_true, decide_true, if_true]
  rfl

theorem State.portCtlWrite_enable (hfc : fldOf w F.PORT_CTL.FC_MODE = s.fcMode n)
    (hmax : fldOf w F.PORT_CTL.MAXLEN = s.fld (R.PORT_CTL n) F.PORT_CTL.MAXLEN) (hask : fldOf w F.PORT_CTL.EN = 1)
    (hon : s.bit (R.PORT_CTL n) F.PORT_CTL.EN = false) (hown : s.ownerOfPort n ≠ 0) (hok : s.enAllowed n = true) :
    s.portCtlWrite n w = (s.setBit (R.PORT_CTL n) F.PORT_CTL.EN true).portEnable n := by
  unfold State.fcMode State.fld at hfc
  unfold State.fld at hmax
  simp [State.portCtlWrite, State.fcMode, State.fld, hfc, hmax, hask, hon, hown, hok]

theorem State.portCtlWrite_refused (hfc : fldOf w F.PORT_CTL.FC_MODE = s.fcMode n)
    (hmax : fldOf w F.PORT_CTL.MAXLEN = s.fld (R.PORT_CTL n) F.PORT_CTL.MAXLEN) (hask : fldOf w F.PORT_CTL.EN = 1)
    (hon : s.bit (R.PORT_CTL n) F.PORT_CTL.EN = false) (hown : s.ownerOfPort n ≠ 0) (hno : s.enAllowed n = false) :
    s.portCtlWrite n w = s.cause (R.PORT_CAUSE n) F.PORT_CAUSE.CFG := by
  have hreg : (s.cause (R.PORT_CAUSE n) F.PORT_CAUSE.CFG).reg (R.PORT_CTL n) = s.reg (R.PORT_CTL n) :=
    State.cause_reg_ne (by unfold R.PORT_CTL R.PORT_CAUSE; omega) (not_irqBlock_portCtl n)
  unfold State.fcMode State.fld at hfc
  unfold State.fld at hmax
  simp [State.portCtlWrite, State.fcMode, State.fld, hreg, hfc, hmax, hask, hon, hown, hno]

theorem State.portCtlWrite_disable (hfc : fldOf w F.PORT_CTL.FC_MODE = s.fcMode n)
    (hmax : fldOf w F.PORT_CTL.MAXLEN = s.fld (R.PORT_CTL n) F.PORT_CTL.MAXLEN) (hask : fldOf w F.PORT_CTL.EN = 0)
    (hon : s.bit (R.PORT_CTL n) F.PORT_CTL.EN = true) : s.portCtlWrite n w = s.portDisable n := by
  unfold State.fcMode State.fld at hfc
  unfold State.fld at hmax
  simp [State.portCtlWrite, State.fcMode, State.fld, hfc, hmax, hask, hon]

theorem State.portDisable_unformed (hf : s.formed n = false) : s.portDisable n = s.setBit (R.PORT_CTL n) F.PORT_CTL.EN false := by
  rw [State.portDisable, hf, if_pos Bool.not_false]

/-- A formed port is disabled: what ends with its stop, then what it had found, then its receivers and outputs (R92). -/
theorem State.portDisable_formed {s0 s1 s2 s3 s4 : State} (hf : s.formed n = true) (h0 : s0 = (s.txCut n).linkFall n)
    (h1 : s1 = s0.flushPort n 0xF2)
    (h2 : s2 = ((((s1.tmPortEnd n).pauseRelease n).calAbort n).setLive n false).setBit (R.PORT_CTL n) F.PORT_CTL.EN false)
    (h3 : s3 = ((s2.linkClear n).setPort n { (s2.linkClear n).port n with inPortReset := false }).setBit (R.PORT_RST n) F.PORT_RST.GO false)
    (h4 : s4 = ((s3.lanesOf n).foldl (fun s l => if s.rxOn l then s else s.rxOff l) s3).fwdOff (n / 16)) :
    s.portDisable n = ((s4.showLanes (s4.lanesOf n ++ [16 * (n / 16) + 15])).stallEvals n).synceCheck := by
  subst h0 h1 h2 h3 h4
  rw [State.portDisable, hf, if_neg (by decide), State.portEnd]

/-! ### PORT_RST and the timeline -/

theorem State.portReset_runs {f : Nat} {s0 s1 s2 t : State} (hfree : (s.port n).inPortReset = false) (hen : s.portEnabled n = true)
    (hpit : s.inReset (s.ownerOfPort n) = false) (hline : (s.port n).timeline = false) (h0 : s0 = (s.txCut n).linkFall n)
    (h1 : s1 = (s0.lanesOf n).foldl (fun s l => ((s.lockLost l).rxUnlock l).rxAbort l) s0)
    (h2 : s2 = ((s1.linkClear n).pauseRelease n).stallEvals n)
    (ht : t = (s2.setPort n { s2.port n with inPortReset := true }).setBit (R.PORT_RST n) F.PORT_RST.GO true) :
    s.portReset f n = t.showLanes (t.lanesOf n) := by
  subst h0 h1 h2 ht
  rw [State.portReset, hfree, hen, hpit, hline, if_neg Bool.false_ne_true, if_neg (by decide), if_neg Bool.false_ne_true]

theorem State.portRestart_of_reset {t : State} (hrst : (s.port n).inPortReset = true)
    (ht : t = ((s.setPort n { s.port n with inPortReset := false }).setBit (R.PORT_RST n) F.PORT_RST.GO false).portStart n false) :
    s.portRestart n = if t.mode n = 4 then t.addCnt (C.ONZ_RESTARTS n) 1 else t := by
  subst ht
  rw [State.portRestart, hrst, if_neg (by decide)]

theorem filter_range_eq (i : Fin 16) : (List.range 16).filter (fun j => decide (j = i.val)) = [i.val] := by decide +revert

/-- The port of a group whose timeline runs, where it is one alone. -/
theorem filter_timeline {g : Nat} {i : Fin 16} (h : ∀ j, j < 16 → (s.port (16 * g + j)).timeline = decide (j = i.val)) :
    ((List.range 16).map (16 * g + ·)).filter (fun n => (s.port n).timeline) = [16 * g + i] := by
  have hone : (List.range 16).filter ((fun n => (s.port n).timeline) ∘ (16 * g + ·)) = [i.val] :=
    (List.filter_congr fun j hj => h j (List.mem_range.mp hj)).trans (filter_range_eq i)
  rw [List.filter_map, hone, List.map_singleton]

/-- What no lane calls for leaves the state alone. -/
theorem foldl_unless {ls : List Nat} {p : State → Nat → Bool} {f : State → Nat → State} (h : ls.any (p s) = false) :
    ls.foldl (fun s l => if p s l then f s l else s) s = s := by
  induction ls with
  | nil => rfl
  | cons l ls ih =>
    rw [List.any_cons, Bool.or_eq_false_iff] at h
    obtain ⟨hl, hls⟩ := h
    rw [List.foldl_cons, hl, if_neg Bool.false_ne_true]
    exact ih hls

theorem State.timelineEnd_of_one {g : Nat} {i : Fin 16} {s2 : State} (h : ∀ j, j < 16 → (s.port (16 * g + j)).timeline = decide (j = i.val))
    (h2 : s2 = ((s.setPort (16 * g + i) { s.port (16 * g + i) with timeline := false }).lanesOf (16 * g + i)).foldl (fun s l => s.loadFir l)
      (s.setPort (16 * g + i) { s.port (16 * g + i) with timeline := false })) :
    s.timelineEnd g = if !s2.portEnabled (16 * g + i) then s2
      else ((s2.lanesOf (16 * g + i)).foldl (fun s l => if s.los l then s.laneCause l F.LG_LN_CAUSE.LOS else s) s2).portStart (16 * g + i)
        false := by
  subst h2
  rw [State.timelineEnd, filter_timeline h, List.foldl_cons, List.foldl_nil]

/-! ### The commands -/

/-- Settles O14: each command reaches its register, whose write is one of the equations above. -/
theorem portCommands : Obligations.PortCommands := by
  unfold Obligations.PortCommands
  intro fn n v s
  refine ⟨fun w hw hwv hfc hmax hon hown => ?_, fun w hw hwv hfc hmax hon => ?_, fun u c => State.flushQueue_empty u n c _,
    fun hw hfree hen hpit hline => ?_, fun hrst => ⟨_, rfl, ?_⟩, fun g i m hm hline => ?_⟩
  · have hask : fldOf w F.PORT_CTL.EN = 1 := by
      rw [hwv]
      exact fldOf_taken_set (findReg_PORT_CTL n n.isLt) _ _ _ (by decide) (by decide)
    rw [exec_portEnable hw, ← hwv]
    refine ⟨fun hok => ⟨State.bit_setBit _ _ _ _ (by decide) (by decide), ?_⟩,
      fun hno => ⟨_, ?_, rfl, ?_, State.cause_set (not_irqBlock_portCause n) (by decide)⟩⟩
    · rw [State.portCtlWrite_enable hfc hmax hask hon hown hok]
    · rw [State.portCtlWrite_refused hfc hmax hask hon hown hno]
    · rw [State.cause_bit_ne (by unfold R.PORT_CTL R.PORT_CAUSE; omega) (not_irqBlock_portCtl n), hon]
  · have hask : fldOf w F.PORT_CTL.EN = 0 := by
      rw [hwv]
      exact fldOf_taken_set (findReg_PORT_CTL n n.isLt) _ _ _ (by decide) (by decide)
    refine ⟨?_, fun hf => ⟨State.portDisable_unformed hf, ?_⟩, fun hf => ?_⟩
    · rw [exec_portDisable hw, ← hwv, State.portCtlWrite_disable hfc hmax hask hon]
    · rw [State.portDisable_unformed hf, State.bit_setBit _ _ _ _ (by decide) (by decide)]
    · refine ⟨_, _, _, _, _, rfl, State.linkUp_linkFall _ _, ?_, rfl, rfl, State.bit_setBit _ _ _ _ (by decide) (by decide), ?_, rfl, ?_, ?_, ?_,
        rfl, State.portDisable_formed hf rfl rfl rfl rfl rfl⟩
      · rw [(State.linkFall_keepsFrames (.refl _)).1 n.val, State.txCut_empty]
      · exact (State.bit_setBit_ne _ _ _ _ _ _ (by unfold R.TM_PORT_STATUS R.PORT_CTL; omega)).trans
          (State.bit_setBit _ _ _ _ (by decide) (by decide))
      · rw [State.port_setPort_setBit]
      · rw [State.port_setPort_setBit]
        exact State.pcsLock_linkClear _ _
      · rw [State.bit_setBit_ne _ _ _ _ _ _ (by unfold R.PORT_STATUS R.PORT_RST; omega), State.bit_setPort, State.anDone_linkClear]
  · rw [exec_portResetGo hw]
    refine ⟨_, _, _, _, rfl, rfl, rfl, rfl, ?_, State.bit_setBit _ _ _ _ (by decide) (by decide), ?_⟩
    · rw [State.port_setPort_setBit]
    · rw [State.portReset_runs hfree hen hpit hline rfl rfl rfl rfl]
  · exact congrArg Host.Outcome.next (State.portRestart_of_reset hrst rfl)
  · subst hm
    refine ⟨_, _, rfl, ?_, rfl, fun hoff => ?_, fun hen hlos => ?_⟩
    · rw [State.port_setPort, if_pos rfl]
    · refine congrArg Host.Outcome.next ((State.timelineEnd_of_one hline rfl).trans ?_)
      rw [hoff, if_pos Bool.not_false]
    · refine congrArg Host.Outcome.next ((State.timelineEnd_of_one hline rfl).trans ?_)
      rw [hen, if_neg (by decide), foldl_unless hlos]

end Sys2Proof.Machine
end

section
/-! SUPPORT. What the judging of a port's stalls and the showing of its outputs leave, and what LINK_UP takes with it as it rises and as it
falls (R90, R119, R120, R297, R310, R322). -/

namespace Sys2Proof.Machine

variable {s : State} {n : Nat}

/-! ### Stalls and outputs -/

theorem State.stallEval_queues (s : State) (n c : Nat) : ∃ q, s.stallEval n c = { s with tm := { s.tm with q := q } } := by
  unfold State.stallEval
  extract_lets q
  split <;> split <;> exact ⟨_, rfl⟩

theorem State.stallEvals_queues (s : State) (n : Nat) : ∃ q, s.stallEvals n = { s with tm := { s.tm with q := q } } := by
  refine List.foldlRecOn (motive := fun t => ∃ q, t = { s with tm := { s.tm with q := q } }) _ _ ?_ ?_
  · exact ⟨s.tm.q, rfl⟩
  · rintro _ ⟨q, rfl⟩ c -
    obtain ⟨q', h⟩ := State.stallEval_queues { s with tm := { s.tm with q := q } } n c
    exact ⟨q', h⟩

@[simp] theorem State.stallEvals_regs (s : State) (n : Nat) : (s.stallEvals n).regs = s.regs := State.stallEvals_keepsRegs rfl

@[simp] theorem State.stallEvals_ports (s : State) (n : Nat) : (s.stallEvals n).ports = s.ports := by
  obtain ⟨q, h⟩ := s.stallEvals_queues n
  rw [h]

@[simp] theorem State.stallEvals_cnts (s : State) (n : Nat) : (s.stallEvals n).cnts = s.cnts := by
  obtain ⟨q, h⟩ := s.stallEvals_queues n
  rw [h]

theorem State.ptm_stallEvals (s : State) (n m : Nat) : (s.stallEvals n).ptm m = s.ptm m := by
  obtain ⟨q, h⟩ := s.stallEvals_queues n
  rw [h]
  rfl

theorem State.lineShow_outputs (s : State) (l : Nat) : ∃ ls es, s.lineShow l = { s with lanes := ls, outbox := es } := by
  unfold State.lineShow
  extract_lets g t
  split
  · exact ⟨_, _, rfl⟩
  · split <;> exact ⟨_, _, rfl⟩

theorem State.linePort_outputs (s : State) (n : Nat) : ∃ ls es, s.linePort n = { s with lanes := ls, outbox := es } := by
  refine List.foldlRecOn (motive := fun t => ∃ ls es, t = { s with lanes := ls, outbox := es }) _ _ ?_ ?_
  · exact ⟨s.lanes, s.outbox, rfl⟩
  · rintro _ ⟨ls, es, rfl⟩ l -
    obtain ⟨ls', es', h⟩ := State.lineShow_outputs { s with lanes := ls, outbox := es } l
    exact ⟨ls', es', h⟩

@[simp] theorem State.linePort_regs (s : State) (n : Nat) : (s.linePort n).regs = s.regs := State.linePort_keepsRegs rfl

theorem State.ptm_linePort (s : State) (n m : Nat) : (s.linePort n).ptm m = s.ptm m := by
  obtain ⟨ls, es, h⟩ := s.linePort_outputs n
  rw [h]
  rfl

/-! ### What registers show -/

theorem State.reg_of_regs {t : State} (h : t.regs = s.regs) (a : Nat) : t.reg a = s.reg a := congrArg (SMap.get resetValue · a) h

theorem State.bit_of_regs {t : State} (h : t.regs = s.regs) (a : Nat) (f : Fld) : t.bit a f = s.bit a f := State.bit_of_reg (State.reg_of_regs h a)

/-! ### LINK_UP rises -/

/-- The state in which LINK_UP has risen and the queues and outputs of the port have not yet followed: DOWN_DROP has ended, and with an UP_HOLD
of 0 the port is live. -/
def State.linkRisen (s : State) (n : Nat) : State :=
  let t := (s.setBit (R.PORT_STATUS n) F.PORT_STATUS.LINK_UP true).setBit (R.TM_PORT_STATUS n) F.TM_PORT_STATUS.DOWN_DROP false
  if t.fld (R.TM_PORT_CTL n) F.TM_PORT_CTL.UP_HOLD = 0 then t.setLive n true else t

theorem State.linkRise_regs (s : State) (n : Nat) : (s.linkRise n).regs = (s.linkRisen n).regs := by
  change (((s.linkRisen n).stallEvals n).linePort n).regs = _
  rw [State.linePort_regs, State.stallEvals_regs]

theorem State.linkUp_linkRise (s : State) (n : Nat) : (s.linkRise n).linkUp n = true := by
  have hne : R.PORT_STATUS n ≠ R.TM_PORT_STATUS n := by unfold R.PORT_STATUS R.TM_PORT_STATUS; omega
  have hup : ((s.setBit (R.PORT_STATUS n) F.PORT_STATUS.LINK_UP true).setBit (R.TM_PORT_STATUS n) F.TM_PORT_STATUS.DOWN_DROP false).linkUp n = true :=
    (State.bit_setBit_ne _ _ _ _ _ _ hne).trans (State.bit_setBit _ _ _ _ (by decide) (by decide))
  rw [State.linkUp, State.bit_of_regs (s.linkRise_regs n), State.linkRisen]
  split
  · exact (State.bit_setBit_ne _ _ _ _ _ _ hne).trans hup
  · exact hup

theorem State.downDrop_linkRise (s : State) (n : Nat) : (s.linkRise n).downDrop n = false := by
  have hdrop (t : State) : (t.setBit (R.TM_PORT_STATUS n) F.TM_PORT_STATUS.DOWN_DROP false).downDrop n = false :=
    State.bit_setBit _ _ _ _ (by decide) (by decide)
  rw [State.downDrop, State.bit_of_regs (s.linkRise_regs n), State.linkRisen]
  split
  · exact (State.bit_setBit_beside _ _ _ _ _ (by decide) (by decide)).trans (hdrop _)
  · exact hdrop _

/-! ### LINK_UP falls -/

/-- As LINK_UP falls the port is no longer live, its MAC forgets the control frames in line, and the cause starts. -/
theorem State.linkFall_of_up (h : s.linkUp n = true) : ∃ t : State, s.linkFall n = t.ariseF (R.PORT_CAUSE n) F.PORT_CAUSE.LINK_DOWN ∧
    t.regs = ((s.setBit (R.PORT_STATUS n) F.PORT_STATUS.LINK_UP false).setLive n false).regs ∧
    t.ptm n = { s.ptm n with ctl := [], ctlLine := [] } := by
  have hptm : ((s.setBit (R.PORT_STATUS n) F.PORT_STATUS.LINK_UP false).setLive n false).ptm n = s.ptm n := by
    rw [State.ptm, State.setLive, State.setBit_tm, State.setBit_tm, State.ptm]
  rw [State.linkFall, h, if_neg (by decide)]
  refine ⟨_, rfl, ?_, ?_⟩
  · rw [State.linePort_regs, State.stallEvals_regs, State.setPtm_regs]
  · rw [State.ptm_linePort, State.ptm_stallEvals, State.ptm_setPtm, if_pos rfl, hptm]

theorem State.mode_linkFall (s : State) (n : Nat) : (s.linkFall n).mode n = s.mode n := by
  by_cases h : s.linkUp n = true
  · obtain ⟨t, e, hregs, -⟩ := State.linkFall_of_up h
    rw [e, State.mode, State.ariseF_fld_ne (by unfold R.PORT_STATUS R.PORT_CAUSE; omega) (not_irqBlock_portStatus n),
      State.fld_of_reg (State.reg_of_regs hregs _), State.setLive,
      State.fld_setBit_ne _ _ _ _ _ _ (by unfold R.PORT_STATUS R.TM_PORT_STATUS; omega)]
    exact State.fld_setFld_beside _ _ _ _ _ (by decide) (by decide)
  · rw [State.linkFall, (Bool.not_eq_true _).mp h, if_pos (by decide)]

theorem State.linkLost_of_mode (h : s.mode n ≠ 4) : s.linkLost n = (s.linkFall n).linePort n := by
  rw [State.linkLost, if_neg]
  exact fun hm => h ((s.mode_linkFall n).symm.trans hm.1)

theorem State.live_linkFall (h : s.linkUp n = true) : (s.linkFall n).live n = false := by
  obtain ⟨t, e, hregs, -⟩ := State.linkFall_of_up h
  have hirq : ¬ irqBlock (R.TM_PORT_STATUS n) := by unfold irqBlock R.TM_PORT_STATUS; omega
  rw [e, State.live, State.ariseF_bit_ne (by unfold R.TM_PORT_STATUS R.PORT_CAUSE; omega) hirq, State.bit_of_regs hregs]
  exact State.bit_setBit _ _ _ _ (by decide) (by decide)

theorem State.ptm_linkFall (h : s.linkUp n = true) : (s.linkFall n).ptm n = { s.ptm n with ctl := [], ctlLine := [] } := by
  obtain ⟨t, e, -, hptm⟩ := State.linkFall_of_up h
  rw [e, ← hptm, State.ptm, (State.ariseF_alarms (as := [R.PORT_CAUSE n]) t _ _ (.inl (List.mem_singleton_self _))).eq]
  rfl

theorem State.linkDown_linkFall (h : s.linkUp n = true) :
    ((s.linkFall n).reg (R.PORT_CAUSE n)).getLsbD F.PORT_CAUSE.LINK_DOWN.lo = true := by
  obtain ⟨t, e, -⟩ := State.linkFall_of_up h
  rw [e]
  exact State.ariseF_set (not_irqBlock_portCause n) (by decide)

end Sys2Proof.Machine
end

section
/-! SUPPORT. What a port receives beside frames (R119, R120, R134, R532, R568; O15). -/

namespace Sys2Proof.Machine

variable {s t : State} {n : Nat}

/-! ### What the PCS and the FEC find -/

theorem foldl_setLane {α : Type} (es : List α) (l : α → Nat) (q : State → α → LaneSt) (s : State) :
    ∃ ls, es.foldl (fun s e => s.setLane (l e) (q s e)) s = { s with lanes := ls } := by
  refine List.foldlRecOn (motive := fun t => ∃ ls, t = { s with lanes := ls }) _ _ ?_ ?_
  · exact ⟨s.lanes, rfl⟩
  · rintro _ ⟨ls, rfl⟩ e -
    exact ⟨_, rfl⟩

/-- A port whose link logic runs and whose lanes give symbols takes what its PCS and its FEC report into its own state and that of its
lanes. -/
theorem State.pcsRx_of_gives (o : PcsObs) (hr : s.linkRuns n = true) (hg : (s.lanesOf n).all s.laneGives = true) :
    (∃ ls ps, s.pcsRx n o = { s with lanes := ls, ports := ps }) ∧
      ∃ b, (s.pcsRx n o).port n = { s.port n with pcsLock := o.lock, fecLock := o.fec && (s.fecBits n).isSome, locked := b } := by
  rw [State.pcsRx, hr, hg, if_neg (by decide)]
  extract_lets t q u
  have ht : ∃ ls, t = { s with lanes := ls } := by
    simp only [t]
    split
    · exact foldl_setLane _ _ _ s
    · exact ⟨_, rfl⟩
  clear_value t
  obtain ⟨ls, rfl⟩ := ht
  have hu : u.port n = { s.port n with pcsLock := o.lock, fecLock := o.fec && (s.fecBits n).isSome } :=
    (State.port_setPort _ _ _ _).trans (if_pos rfl)
  split
  · exact ⟨⟨_, _, rfl⟩, true,
      (State.port_setPort ..).trans ((if_pos rfl).trans (congrArg (fun q : PortSt => { q with locked := true }) hu))⟩
  · exact ⟨⟨_, _, rfl⟩, _, hu⟩

theorem State.pcsRx_of_stopped (o : PcsObs) (h : s.linkRuns n = false) : s.pcsRx n o = s := by
  rw [State.pcsRx, h, if_pos (by rfl)]

theorem State.linkReady_of_stopped (h : s.linkRuns n = false) : s.linkReady n = false := by
  simp only [State.linkReady, h, Bool.false_and]

/-- An IEEE port whose lanes give symbols and which receives no fault, with nothing to negotiate or train any more, is ready once its PCS and
its FEC have lock. -/
theorem State.linkReady_pcsRx (hr : s.linkRuns n = true) (hm : s.mode n ≤ 3) (hg : (s.lanesOf n).all s.laneGives = true)
    (hlf : s.bit (R.PORT_STATUS n) F.PORT_STATUS.RX_LF = false) (hrf : s.bit (R.PORT_STATUS n) F.PORT_STATUS.RX_RF = false)
    (han : s.anEn n = false ∨ s.bit (R.PORT_STATUS n) F.PORT_STATUS.AN_DONE = true)
    (htr : s.trainEn n = false ∨ s.bit (R.PORT_STATUS n) F.PORT_STATUS.TRAIN_DONE = true) :
    (s.pcsRx n { lock := true, fec := true, headers := [] }).linkReady n = true := by
  obtain ⟨⟨ls, ps, e⟩, b, hport⟩ := State.pcsRx_of_gives { lock := true, fec := true, headers := [] } hr hg
  rw [e] at hport ⊢
  generalize hu : ({ s with lanes := ls, ports := ps } : State) = u at hport ⊢
  have hmode : u.mode n = s.mode n := by rw [← hu]; rfl
  have hfec : u.fecBits n = s.fecBits n := by rw [State.fecBits, hport, ← hu]; rfl
  have hruns : u.linkRuns n = true := by rw [← hr, State.linkRuns, hport, ← hu]; rfl
  have hpath : u.rxPathUp n = true := by
    have hgive : (u.lanesOf n).all u.laneGives = true := by rw [← hg, ← hu]; rfl
    rw [State.rxPathUp, hgive, hport, hfec, if_neg (by omega)]
    cases s.fecBits n <;> simp
  have hno (f : Fld) : u.bit (R.PORT_STATUS n) f = s.bit (R.PORT_STATUS n) f := by rw [← hu]; rfl
  have hneg : u.anEn n = s.anEn n := by rw [← hu]; rfl
  have htrain : u.trainEn n = s.trainEn n := by rw [← hu]; rfl
  rw [State.linkReady, hruns, hpath, hno, hno, hno, hno, hneg, htrain, hlf, hrf]
  rcases han with h | h <;> rcases htr with h' | h' <;> simp [h, h']

theorem State.pcsDown_finds (s : State) (n : Nat) : ∃ ls ps, s.pcsDown n = { s with lanes := ls, ports := ps } := by
  obtain ⟨ls, h⟩ := foldl_setLane (s.lanesOf n) id (fun s l => { s.lane l with blkLock := false, hdrs := 0, badHdrs := 0 })
    (s.setPort n { s.port n with pcsLock := false, fecLock := false })
  exact ⟨ls, _, h⟩

/-! ### The receive path is judged -/

theorem State.linkTry_rises (hm : s.mode n ≠ 4) (hr : s.linkReady n = true) (hu : s.linkUp n = false) : s.linkTry n = s.linkRise n := by
  rw [State.linkTry, if_neg hm, hr, hu, if_pos (by decide)]

theorem State.linkTry_falls (hm : s.mode n ≠ 4) (hu : s.linkUp n = true) (hp : s.rxPathUp n = false) :
    s.linkTry n = (s.linkFall n).linePort n := by
  rw [State.linkTry, if_neg hm, hu, hp, if_neg (by simp), if_pos (by decide), State.linkLost_of_mode hm]

theorem State.linkTry_stays (hr : s.linkReady n = false) (h : s.mode n = 4 ∨ s.linkUp n = false ∨ s.rxPathUp n = true) :
    s.linkTry n = s.linePort n := by
  rw [State.linkTry, hr]
  rcases h with h | h | h <;> simp [h]

/-! ### Local and Remote Fault -/

section
variable {f c : Fld}

theorem State.faultRx_of_stopped (on : Bool) (h : s.linkRuns n = false) : s.faultRx n f c on = s := by
  rw [State.faultRx, h, if_pos (by rfl)]

theorem State.faultRx_begins (hr : s.linkRuns n = true) (hm : s.mode n ≠ 4) (h : s.bit (R.PORT_STATUS n) f = false) :
    s.faultRx n f c true = ((s.setBit (R.PORT_STATUS n) f true).ariseF (R.PORT_CAUSE n) c).linkLost n := by
  rw [State.faultRx, hr, h, if_neg (by simp [hm]), if_pos rfl]

theorem State.faultRx_ends (hr : s.linkRuns n = true) (hm : s.mode n ≠ 4) (h : s.bit (R.PORT_STATUS n) f = true) :
    s.faultRx n f c false = (s.setBit (R.PORT_STATUS n) f false).linePort n := by
  rw [State.faultRx, hr, h, if_neg (by simp [hm]), if_neg (by decide)]

/-- A fault that has ended no longer shows, and LINK_UP is what it was. -/
theorem State.bits_faultEnded (hlo : f.lo + f.w ≤ 31) (h1 : 1 ≤ f.w) (ht : t = (s.setBit (R.PORT_STATUS n) f false).linePort n) :
    t.bit (R.PORT_STATUS n) f = false ∧ t.linkUp n = s.linkUp n := by
  subst ht
  rw [State.linkUp, State.bit_of_regs (State.linePort_regs _ _), State.bit_of_regs (State.linePort_regs _ _)]
  exact ⟨State.bit_setBit _ _ _ _ (by omega) h1, State.bit_setBit_beside _ _ _ _ _ (by omega) (.inr hlo)⟩

end

/-- Settles O15: what the PCS finds is judged by one of the equations of `linkTry`, a loss of the link is its fall, and a fault begins or ends. -/
theorem linkState : Obligations.LinkState := by
  unfold Obligations.LinkState
  intro n s
  refine ⟨fun pcs s1 h1 => ⟨fun hr hu hm => ⟨?_, State.linkUp_linkRise _ _, State.downDrop_linkRise _ _⟩, fun hr h => ?_,
    fun hm hu hp => ⟨?_, State.linkUp_linkFall _ _⟩, fun hr hg => ?_⟩, fun hr hm hg hlf hrf han htr hu => ⟨_, rfl, ?_⟩,
    fun s1 h1 hm hu => ?_,
    fun hr => ⟨fun on => ⟨?_, ?_⟩, fun pcs => ⟨State.pcsRx_of_stopped pcs hr, State.linkReady_of_stopped hr⟩⟩,
    fun hr hm => ⟨fun h => ?_, fun h => ⟨_, ?_, rfl, State.bits_faultEnded (by decide) (by decide) rfl⟩, fun h => ?_,
      fun h => ⟨_, ?_, rfl, State.bits_faultEnded (by decide) (by decide) rfl⟩⟩⟩
  · subst h1
    exact congrArg Host.Outcome.next (State.linkTry_rises hm hr hu)
  · subst h1
    exact congrArg Host.Outcome.next (State.linkTry_stays hr h)
  · subst h1
    exact congrArg Host.Outcome.next (State.linkTry_falls hm hu hp)
  · obtain ⟨⟨ls, ps, e⟩, b, hport⟩ := State.pcsRx_of_gives pcs hr hg
    rw [h1, hport, e]
    exact ⟨rfl, rfl, rfl⟩
  · obtain ⟨⟨ls, ps, e⟩, -⟩ := State.pcsRx_of_gives { lock := true, fec := true, headers := [] } hr hg
    rw [State.linkTry_rises _ (State.linkReady_pcsRx hr hm hg hlf hrf han htr)]
    · exact State.linkUp_linkRise _ _
    · rw [e]
      exact hu
    · rw [e]
      exact fun h4 => absurd (h4.symm.trans_le hm) (by decide)
  · obtain ⟨ls, ps, e⟩ := s.pcsDown_finds n
    have hm1 : s1.mode n ≠ 4 := by rw [h1, e]; exact hm
    have hu1 : s1.linkUp n = true := by rw [h1, e]; exact hu
    have hptm : s1.ptm n = s.ptm n := by rw [h1, e]; rfl
    refine ⟨?_, State.linkUp_linkFall _ _, State.live_linkFall hu1, ?_, State.linkDown_linkFall hu1⟩
    · rw [← State.linkLost_of_mode hm1, h1]
      rfl
    · rw [State.ptm_linkFall hu1, hptm]
  · exact congrArg Host.Outcome.next (State.faultRx_of_stopped on hr)
  · exact congrArg Host.Outcome.next (State.faultRx_of_stopped on hr)
  · exact congrArg Host.Outcome.next (State.faultRx_begins hr hm h)
  · exact congrArg Host.Outcome.next (State.faultRx_ends hr hm h)
  · exact congrArg Host.Outcome.next (State.faultRx_begins hr hm h)
  · exact congrArg Host.Outcome.next (State.faultRx_ends hr hm h)

end Sys2Proof.Machine
end

section
/-! SUPPORT. Auto-negotiation and link training (R116, R117, R118, R129; O16). -/

namespace Sys2Proof.Machine

variable {s t u : State} {n : Nat}

/-! ### What changes of one port alone -/

/-- From `s` to `t` the state of port `n` alone has changed. -/
def OnlyPort (n : Nat) (s t : State) : Prop := (∀ m, m ≠ n → t.port m = s.port m) ∧ ∃ ps, t = { s with ports := ps }

theorem OnlyPort.refl (n : Nat) (s : State) : OnlyPort n s s := ⟨fun _ _ => rfl, _, rfl⟩

theorem OnlyPort.trans (h : OnlyPort n s t) (k : OnlyPort n t u) : OnlyPort n s u := by
  obtain ⟨hp, ps, rfl⟩ := h
  obtain ⟨kp, ps', rfl⟩ := k
  exact ⟨fun m hm => (kp m hm).trans (hp m hm), ps', rfl⟩

theorem OnlyPort.regs (h : OnlyPort n s t) : t.regs = s.regs := by
  obtain ⟨-, ps, rfl⟩ := h
  rfl

theorem OnlyPort.cnt (h : OnlyPort n s t) (a : Nat) : t.cnt a = s.cnt a := by
  obtain ⟨-, ps, rfl⟩ := h
  rfl

theorem State.setPort_onlyPort (s : State) (n : Nat) (q : PortSt) : OnlyPort n s (s.setPort n q) :=
  ⟨fun _ hm => (State.port_setPort ..).trans (if_neg hm), _, rfl⟩

/-! ### A port that runs no link logic -/

theorem State.training_of_stopped (h : s.linkRuns n = false) : s.training n = false := by simp only [State.training, h, Bool.false_and]

theorem State.anFails_of_stopped (h : s.linkRuns n = false) : s.anFails n = s := by
  rw [State.anFails, h, if_neg (by simp)]

theorem State.anCompletes_of_stopped (h : s.linkRuns n = false) : s.anCompletes n = s := by
  rw [State.anCompletes, h, if_neg (by simp)]

theorem State.trainExpires_of_stopped (h : s.linkRuns n = false) : s.trainExpires n = s := by
  simp [State.trainExpires, State.training_of_stopped h, h]

theorem State.trainRx_of_stopped (l tap dir : Nat) (done : Bool) (h : s.linkRuns n = false) : s.trainRx n l tap dir done = s := by
  rw [State.trainRx, State.training_of_stopped h, if_pos (by simp)]

/-! ### Auto-negotiation (R116) -/

theorem State.anFails_of_runs (hr : s.linkRuns n = true) (han : s.anEn n = true) (hd : s.bit (R.PORT_STATUS n) F.PORT_STATUS.AN_DONE = false) :
    s.anFails n = (s.setPort n { s.port n with anWait := true }).cause (R.PORT_CAUSE n) F.PORT_CAUSE.AN_FAIL := by
  rw [State.anFails, hr, han, hd, if_pos (by decide)]

theorem State.anCompletes_of_runs (hr : s.linkRuns n = true) (han : s.anEn n = true) (hw : (s.port n).anWait = false) :
    s.anCompletes n = (s.setBit (R.PORT_STATUS n) F.PORT_STATUS.AN_DONE true).linePort n := by
  rw [State.anCompletes, hr, han, hw, if_pos (by decide)]

theorem State.port_cause (s : State) (a : Nat) (f : Fld) (m : Nat) : (s.cause a f).port m = s.port m := by
  rw [State.port, (State.cause_alarms (as := [a]) s a f (.inl (List.mem_singleton_self a))).eq, State.port]

/-- A register bit that a port sets, as its outputs follow, is all that they leave changed beside the lanes and what leaves the part. -/
theorem State.setBit_linePort_frame (s : State) (a : Nat) (f : Fld) (b : Bool) (n : Nat) :
    { (s.setBit a f b).linePort n with regs := s.regs, lanes := s.lanes, outbox := s.outbox } = s := by
  obtain ⟨ls, es, h⟩ := (s.setBit a f b).linePort_outputs n
  rw [h]
  rfl

/-! ### The training timer (R118, R129) -/

theorem State.trainExpires_of_ieee {s1 : State} (hm : s.mode n ≠ 4) (ht : s.training n = true)
    (h1 : s1 = (s.lanesOf n).foldl (fun s l => s.setWorkFir l (s.lane l).loaded) (s.cause (R.PORT_CAUSE n) F.PORT_CAUSE.TRAIN_TIMEOUT)) :
    s.trainExpires n = if s1.anEn n then (s1.setBit (R.PORT_STATUS n) F.PORT_STATUS.AN_DONE false).linePort n else s1 := by
  rw [State.trainExpires, if_neg hm, if_pos ht, h1]

theorem State.trainExpires_of_onazel (hm : s.mode n = 4) (hr : s.linkRuns n = true) (h1 : 1 ≤ s.onzState n) (h5 : s.onzState n ≤ 5) :
    s.trainExpires n = (s.cause (R.PORT_CAUSE n) F.PORT_CAUSE.TRAIN_TIMEOUT).onzRestart n := by
  rw [State.trainExpires, if_pos hm, hr, if_pos (by simp [h1, h5])]

/-! ### Training frames (R117) -/

/-- Lane `l` of port `n` after its partner has asked for tap `tap` to move in direction `dir`. -/
def State.tapAsked (s : State) (n l tap dir : Nat) : State :=
  let v := (s.workFir l).getD tap 0 + (if dir = 1 then 1 else -1)
  if dir = 0 ∨ 6 ≤ tap then s
  else if dir = 3 then (s.setWorkFir l (s.lane l).loaded).emit (.trainAnswer n l false)
  else if -128 ≤ v ∧ v ≤ 127 ∧ firValid (listSet (s.workFir l) tap v) then
    (s.setWorkFir l (listSet (s.workFir l) tap v)).emit (.trainAnswer n l false)
  else s.emit (.trainAnswer n l true)

section
variable {l tap dir : Nat}

theorem State.trainRx_of_training (done : Bool) (ht : s.training n = true) (hl : l ∈ s.lanesOf n) : s.trainRx n l tap dir done =
    if done then ((s.tapAsked n l tap dir).setBit (R.PORT_STATUS n) F.PORT_STATUS.TRAIN_DONE true).linePort n else s.tapAsked n l tap dir := by
  rw [State.trainRx, ht, List.contains_iff_mem.mpr hl, if_neg (by decide), State.tapAsked]

theorem State.tapAsked_nothing (h : dir = 0) : s.tapAsked n l tap dir = s := if_pos (.inl h)

theorem State.tapAsked_loaded (htap : tap < 6) (h : dir = 3) :
    s.tapAsked n l tap dir = (s.setWorkFir l (s.lane l).loaded).emit (.trainAnswer n l false) := by
  rw [State.tapAsked, if_neg (by omega), if_pos h]

/-- A tap that is asked to go up or down goes to the value `v` beside its own, where the set with it stays valid. -/
theorem State.tapAsked_step {v : Int} (htap : tap < 6)
    (hv : dir = 1 ∧ v = (s.workFir l).getD tap 0 + 1 ∨ dir = 2 ∧ v = (s.workFir l).getD tap 0 - 1) :
    s.tapAsked n l tap dir = if -128 ≤ v ∧ v ≤ 127 ∧ firValid (listSet (s.workFir l) tap v) then
      (s.setWorkFir l (listSet (s.workFir l) tap v)).emit (.trainAnswer n l false) else s.emit (.trainAnswer n l true) := by
  have hto : (s.workFir l).getD tap 0 + (if dir = 1 then 1 else -1) = v := by
    rcases hv with ⟨rfl, rfl⟩ | ⟨rfl, rfl⟩ <;> rfl
  rw [State.tapAsked, hto, if_neg (by omega), if_neg (by omega)]

end

/-- Settles O16: outside a running link nothing acts, and each event on a running one is one of the equations above. -/
theorem negotiation : Obligations.Negotiation := by
  unfold Obligations.Negotiation
  intro n s
  refine ⟨fun hr => ⟨?_, ?_, ?_, fun l tap dir done => ?_⟩,
    fun hr han hd => ⟨_, congrArg Host.Outcome.next (State.anFails_of_runs hr han hd), ?_⟩,
    ⟨_, rfl, ?_, s.setPort_onlyPort _ _⟩, fun hr han hw => ⟨_, congrArg Host.Outcome.next (State.anCompletes_of_runs hr han hw), ?_, rfl, ?_,
      State.setBit_linePort_frame ..⟩, fun hm ht => ⟨_, rfl, fun h => ?_, fun h => ?_⟩,
    fun hm hr h1 h5 => congrArg Host.Outcome.next (State.trainExpires_of_onazel hm hr h1 h5), fun l tap dir done ht hl =>
      ⟨_, congrArg Host.Outcome.next (State.trainRx_of_training done ht hl), State.tapAsked_nothing, State.tapAsked_loaded tap.isLt,
        fun v hv => ⟨fun hlo hhi hok => ?_, fun hno => ?_⟩⟩⟩
  · exact congrArg Host.Outcome.next (State.anFails_of_stopped hr)
  · exact congrArg Host.Outcome.next (State.anCompletes_of_stopped hr)
  · exact congrArg Host.Outcome.next (State.trainExpires_of_stopped hr)
  · exact congrArg Host.Outcome.next (State.trainRx_of_stopped l tap dir done hr)
  · refine ⟨?_, State.cause_set (not_irqBlock_portCause n) (by decide), State.cause_alarms _ _ _ (.inl (List.mem_singleton_self _))⟩
    rw [State.port_cause, State.port_setPort, if_pos rfl]
  · exact congrArg PortSt.anWait ((State.port_setPort ..).trans (if_pos rfl))
  · rw [State.bit_of_regs (State.linePort_regs _ _), State.bit_setBit _ _ _ _ (by decide) (by decide)]
  · exact fun a ha => (State.reg_of_regs (State.linePort_regs _ _) a).trans (State.reg_setBit_ne _ _ _ _ _ ha)
  · refine congrArg Host.Outcome.next ((State.trainExpires_of_ieee hm ht rfl).trans ?_)
    rw [h, if_pos rfl]
  · refine congrArg Host.Outcome.next ((State.trainExpires_of_ieee hm ht rfl).trans ?_)
    rw [h, if_neg Bool.false_ne_true]
  · rw [State.tapAsked_step tap.isLt hv, if_pos ⟨hlo, hhi, hok⟩]
  · rw [State.tapAsked_step tap.isLt hv, if_neg]
    · exact ⟨rfl, rfl⟩
    · rintro ⟨hlo, hhi, hok⟩
      rcases hno with h | h | h
      · omega
      · omega
      · exact Bool.false_ne_true (h.symm.trans hok)

end Sys2Proof.Machine
end

section
/-! SUPPORT. Onazel training and markers, and forwarded-clock alignment (R124, R125, R128, R130, R132; O17). -/

namespace Sys2Proof.Machine

variable {s : State} {n : Nat}

/-! ### Data through the descrambler (R121, R123) -/

theorem State.onzGet_onlyPort (s : State) (n brk : Nat) (syms : List Nat) : OnlyPort n s (s.onzGet n brk syms).2 := s.setPort_onlyPort n _

theorem State.port_onzGet (s : State) (n brk : Nat) (syms : List Nat) :
    ∃ st, (s.onzGet n brk syms).2.port n = { s.port n with descram := st } := ⟨_, (State.port_setPort ..).trans (if_pos rfl)⟩

theorem State.linkRuns_onzGet (s : State) (n brk : Nat) (syms : List Nat) : (s.onzGet n brk syms).2.linkRuns n = s.linkRuns n := by
  obtain ⟨st, h⟩ := s.port_onzGet n brk syms
  rw [State.linkRuns, h]
  rfl

theorem State.onz_onzGet (s : State) (n brk : Nat) (syms : List Nat) : ((s.onzGet n brk syms).2.port n).onz = (s.port n).onz := by
  obtain ⟨st, h⟩ := s.port_onzGet n brk syms
  rw [h]

theorem State.portEnabled_of_linkRuns (h : s.linkRuns n = true) : s.portEnabled n = true := by
  simp only [State.linkRuns, Bool.and_eq_true] at h
  exact h.1.1.1.1

/-! ### Training blocks (R127 to R129) -/

section
variable {p : Nat}

theorem State.onzBlockRx_outside (p : Nat) (h : s.onzState n = 0 ∨ 6 ≤ s.onzState n) : s.onzBlockRx n p = s := by
  rw [State.onzBlockRx, if_pos (by simp [h])]

variable (hr : s.linkRuns n = true) (hm : s.mode n = 4)
include hr hm

theorem State.onzBlockRx_bad (h1 : 1 ≤ s.onzState n) (h5 : s.onzState n ≤ 5) (hv : onzValid p = false) :
    s.onzBlockRx n p = (s.addCnt (C.ONZ_TB_ERR n) 1).setOnz n
      { (s.port n).onz with good := if s.onzState n = 1 then 0 else (s.port n).onz.good } := by
  have hin : ¬ (s.onzState n = 0 ∨ 6 ≤ s.onzState n) := by omega
  rw [State.onzBlockRx, hr, hv, if_neg (by simp [hm, hin]), if_pos (by decide)]

theorem State.onzBlockRx_sameRole (h1 : 1 ≤ s.onzState n) (h5 : s.onzState n ≤ 5) (hv : onzValid p = true) (h0 : s.onzRole n ≠ 0)
    (hsame : (onzParse p).role = s.onzRole n) :
    s.onzBlockRx n p = s.onzRestart n := by
  have hin : ¬ (s.onzState n = 0 ∨ 6 ≤ s.onzState n) := by omega
  rw [State.onzBlockRx, hr, hv, if_neg (by simp [hm, hin]), if_neg (by decide), if_pos ⟨h0, hsame⟩]

theorem State.onzBlockRx_first (hv : onzValid p = true) (h0 : s.onzRole n = 0) (hs : s.onzState n = 1) (hg : (s.port n).onz.good = 0) :
    s.onzBlockRx n p = s.setOnz n { (s.port n).onz with good := 1 } := by
  have hin : ¬ (s.onzState n = 0 ∨ 6 ≤ s.onzState n) := by omega
  rw [State.onzBlockRx, hr, hv, if_neg (by simp [hm, hin]), if_neg (by decide), if_neg (fun h => h.1 h0), if_pos hs, if_pos hg]

end

theorem State.onz_setOnz (s : State) (n : Nat) (o : OnzSt) : ((s.setOnz n o).port n).onz = o := by
  rw [State.setOnz, State.port_setPort, if_pos rfl]

/-! ### Markers (R124, R128, R130) -/

theorem State.onzMarkerUp_rises (hr : s.linkRuns n = true) (hm : s.mode n = 4) (h6 : s.onzState n = 6) (hu : s.linkUp n = false) :
    s.onzMarkerUp n = s.linkRise n := by
  rw [State.onzMarkerUp, hr, hu, if_pos (by simp [hm, h6])]

theorem State.onzDrop_falls (he : s.portEnabled n = true) (hm : s.mode n = 4) (h6 : s.onzState n = 6) : s.onzDrop n = s.linkLost n := by
  rw [State.onzDrop, he, if_pos (by simp [hm, h6])]

theorem State.onzRun_eq (s : State) (n : Nat) (lv : Fin 4) :
    s.onzRun n lv = if lv.val = 2 then s else if lv.val = 1 then s.onzDrop n else s.onzMarkerUp n := by
  fin_cases lv <;> rfl

/-- An Onazel port once a marker error has been counted, with the frame that it cuts short, whose symbols `syms` have gone through the
descrambler. -/
def State.onzErred (s : State) (n : Nat) (syms : List Nat) (inFrame : Bool) : State :=
  let t := s.addCnt (C.ONZ_MARKER_ERR n) 1
  let t := if inFrame then (t.onzGet n 0 syms).2 else t
  if inFrame && t.linkUp n then t.addCnt (C.RX_FCS_ERR n) 1 else t

theorem State.onzBadMarker_of_enabled (level : Nat) (syms : List Nat) (b : Bool) (he : s.portEnabled n = true) (hm : s.mode n = 4) :
    s.onzBadMarker n level syms b = (s.onzErred n syms b).onzRun n level := by
  rw [State.onzBadMarker, he, if_neg (by simp [hm]), State.onzErred]

theorem State.onzErred_outside (s : State) (n : Nat) (syms : List Nat) : s.onzErred n syms false = s.addCnt (C.ONZ_MARKER_ERR n) 1 := rfl

theorem State.onzErred_down (syms : List Nat) (hu : s.linkUp n = false) :
    s.onzErred n syms true = ((s.addCnt (C.ONZ_MARKER_ERR n) 1).onzGet n 0 syms).2 := by
  have hd : ((s.addCnt (C.ONZ_MARKER_ERR n) 1).onzGet n 0 syms).2.linkUp n = false := hu
  rw [State.onzErred, if_pos rfl, hd, if_neg (by decide)]

theorem State.onzErred_up (syms : List Nat) (hu : s.linkUp n = true) :
    s.onzErred n syms true = ((s.addCnt (C.ONZ_MARKER_ERR n) 1).onzGet n 0 syms).2.addCnt (C.RX_FCS_ERR n) 1 := by
  have hd : ((s.addCnt (C.ONZ_MARKER_ERR n) 1).onzGet n 0 syms).2.linkUp n = true := hu
  rw [State.onzErred, if_pos rfl, hd, if_pos (by decide)]

section
variable {lv : Fin 4} {len : Nat} {syms : List (Fin 4)} {b : Bool}

theorem State.onzBadRx_short (h : len < 32) : s.onzBadRx n (.run lv len syms) b = s := if_pos h

theorem State.onzBadRx_marker (hlv : lv.val ≠ 2) (h36 : 36 ≤ len) (h44 : len ≤ 44) : s.onzBadRx n (.run lv len syms) b = s.onzRun n lv :=
  (if_neg (by omega)).trans (if_pos ⟨hlv, h36, h44⟩)

theorem State.onzBadRx_error (he : s.portEnabled n = true) (hm : s.mode n = 4) (h32 : 32 ≤ len) (h : lv.val = 2 ∨ len < 36 ∨ 44 < len) :
    s.onzBadRx n (.run lv len syms) b = (s.onzErred n (syms.map Fin.val) b).onzRun n lv :=
  (if_neg (by omega)).trans ((if_neg (by omega)).trans (State.onzBadMarker_of_enabled lv _ b he hm))

theorem State.onzBadRx_stray (he : s.portEnabled n = true) (hm : s.mode n = 4) :
    s.onzBadRx n (.stray syms) b = (s.onzGet n 3 (syms.map Fin.val)).2.addCnt (C.ONZ_MARKER_ERR n) 1 :=
  if_neg (by simp [he, hm])

end

/-! ### Alignment (R132) -/

section
variable {bs got : List Bytes} (hr : s.linkRuns n = true) (hm : s.mode n = 5)
  (hgot : got = (s.lanesOf n).zipIdx.map fun e => if s.laneGives e.1 then bs.getD e.2 [] else [])
include hr hm hgot

theorem State.alignRx_good {o : List Nat} (h : alignOrder (s.width n) got = some o) :
    s.alignRx n bs = s.setPort n { s.port n with
      alignGood := min 2 ((s.port n).alignGood + 1), alignBad := 0, aligned := (s.port n).aligned || decide (min 2 ((s.port n).alignGood + 1) = 2),
      order := if min 2 ((s.port n).alignGood + 1) = 2 then o else (s.port n).order } := by
  subst hgot
  rw [State.alignRx, hr, if_neg (by simp [hm])]
  simp only [h]

theorem State.alignRx_bad (h : alignOrder (s.width n) got = none) : s.alignRx n bs =
    if 3 ≤ (s.port n).alignBad then s.alignLost n
    else s.setPort n { s.port n with alignGood := 0, alignBad := (s.port n).alignBad + 1 } := by
  subst hgot
  rw [State.alignRx, hr, if_neg (by simp [hm])]
  simp only [h]

end

/-- Settles O17: a training block is judged by the payload that its symbols give, a run by its level and its length, and a period's alignment
blocks by the order of lanes that they show. -/
theorem onazelAndAlignment : Obligations.OnazelAndAlignment := by
  unfold Obligations.OnazelAndAlignment
  intro n s
  refine ⟨fun hr hm syms p hp => ?_, fun hr hm h6 => ?_, fun he hm => ⟨fun lv len syms b h32 h => ?_, fun lv len syms b hlv h36 h44 => ?_,
    fun lv len syms h b => congrArg Host.Outcome.next (State.onzBadRx_short h),
    fun syms b => ⟨_, congrArg Host.Outcome.next (State.onzBadRx_stray he hm), State.cnt_addCnt _ _ _, rfl, rfl⟩⟩,
    fun bs got hr hm hgot => ⟨fun o ho => ?_, fun hno hfew => ?_, fun hno hmany => ?_⟩, ⟨_, rfl, ?_, rfl⟩⟩
  · have hru := (s.linkRuns_onzGet n 2 (syms.map Fin.val)).trans hr
    have hblock : exec (.onzTrainingBlockRx n syms) s = .next ((s.onzGet n 2 (syms.map Fin.val)).2.onzBlockRx n p) := by rw [hp]; rfl
    have honz := s.onz_onzGet n 2 (syms.map Fin.val)
    refine ⟨fun hv h1 h5 => ⟨_, hblock.trans (congrArg Host.Outcome.next (State.onzBlockRx_bad hru hm h1 h5 hv)), ?_, ?_,
        (State.setPort_onlyPort ..).regs.trans (s.onzGet_onlyPort n 2 (syms.map Fin.val)).regs⟩,
      fun h => hblock.trans (congrArg Host.Outcome.next (State.onzBlockRx_outside p h)),
      fun hv h1 h5 h0 hsame => hblock.trans (congrArg Host.Outcome.next (State.onzBlockRx_sameRole hru hm h1 h5 hv h0 hsame)),
      fun hv hs h0 hg => ⟨_, hblock.trans (congrArg Host.Outcome.next
        (State.onzBlockRx_first hru hm hv h0 hs (honz ▸ hg))), ?_,
        (s.onzGet_onlyPort n 2 _).trans (State.setPort_onlyPort ..)⟩⟩
    · exact ((State.setPort_onlyPort _ n _).cnt _).trans ((State.cnt_addCnt _ _ _).trans (by rw [(s.onzGet_onlyPort n 2 _).cnt]))
    · rw [State.onz_setOnz, honz]
      rfl
    · rw [State.onz_setOnz]
  · have hdrop : Host.Outcome.next (s.onzDrop n) = (.next (s.linkLost n) : Out) :=
      congrArg Host.Outcome.next (State.onzDrop_falls (State.portEnabled_of_linkRuns hr) hm h6)
    exact ⟨fun hu => ⟨congrArg Host.Outcome.next (State.onzMarkerUp_rises hr hm h6 hu), State.linkUp_linkRise _ _⟩, hdrop, hdrop⟩
  · refine ⟨_, s.onzErred n (syms.map Fin.val) b, rfl, State.cnt_addCnt _ _ _, fun a ha => State.cnt_addCnt_ne _ _ _ _ ha, ?_, ?_, ?_,
      congrArg Host.Outcome.next ((State.onzBadRx_error he hm h32 h).trans (State.onzRun_eq _ n lv))⟩
    · rintro rfl
      exact State.onzErred_outside _ _ _
    · rintro rfl hu
      exact State.onzErred_down _ hu
    · rintro rfl hu
      exact State.onzErred_up _ hu
  · refine congrArg Host.Outcome.next ((State.onzBadRx_marker hlv h36 h44).trans ?_)
    rw [State.onzRun_eq, if_neg hlv]
  · refine ⟨_, congrArg Host.Outcome.next (State.alignRx_good hr hm hgot ho), ?_, ?_, fun hg => ?_, (s.setPort_onlyPort n _).2⟩
    · rw [State.port_setPort, if_pos rfl]
    · rw [State.port_setPort, if_pos rfl]
    · have htwo : min 2 ((s.port n).alignGood + 1) = 2 := by omega
      rw [State.port_setPort, if_pos rfl, htwo, if_pos rfl]
      exact ⟨Bool.or_true _, rfl⟩
  · refine ⟨_, congrArg Host.Outcome.next ((State.alignRx_bad hr hm hgot hno).trans (if_neg (by omega))), ?_, ?_, ?_, (s.setPort_onlyPort n _).2⟩
    all_goals rw [State.port_setPort, if_pos rfl]
  · exact congrArg Host.Outcome.next ((State.alignRx_bad hr hm hgot hno).trans (if_pos hmany))
  · rw [State.port_setPort, if_pos rfl]

end Sys2Proof.Machine
end

section
/-! SUPPORT. Received MAC control frames: pause, PFC and others (R111, R112; O28). -/

namespace Sys2Proof.Machine

variable {s t : State} {n : Nat}

/-! ### The pause of a class (R112) -/

theorem OnlyPort.foldl {α : Type} {f : State → α → State} (hf : ∀ t x, OnlyPort n t (f t x)) (l : List α) (s : State) :
    OnlyPort n s (l.foldl f s) := by
  induction l generalizing s with
  | nil => exact .refl n s
  | cons x l ih => exact (hf s x).trans (ih _)

theorem State.paused_setPause (s : State) (n c : Nat) (e : Option Nat) (d : Nat) :
    (s.setPause n c e).paused n d = if d = c then e.isSome else s.paused n d := by
  rw [State.paused, State.pauseOf, State.setPause, State.port_setPort, if_pos rfl, SMap.get_put]
  split <;> rfl

theorem State.pauseClass_onlyPort (s : State) (n q c : Nat) : OnlyPort n s (s.pauseClass n q c) := by
  unfold State.pauseClass
  split <;> exact State.setPort_onlyPort ..

theorem State.paused_pauseClass (s : State) (n q c d : Nat) :
    (s.pauseClass n q c).paused n d = if d = c then decide (q ≠ 0) else s.paused n d := by
  unfold State.pauseClass
  split
  · next h => rw [State.paused_setPause, h]; rfl
  · next h => rw [State.paused_setPause, decide_eq_true h]; rfl

theorem State.paused_foldl_pauseClass (cs : List Nat) (s : State) (n q c : Nat) :
    (cs.foldl (fun s c => s.pauseClass n q c) s).paused n c = if c ∈ cs then decide (q ≠ 0) else s.paused n c := by
  induction cs generalizing s with
  | nil => rfl
  | cons d cs ih =>
    rw [List.foldl_cons, ih, State.paused_pauseClass]
    by_cases hmem : c ∈ cs <;> by_cases hd : c = d <;> simp [hmem, hd]

theorem State.paused_stallEvals (s : State) (n m c : Nat) : (s.stallEvals n).paused m c = s.paused m c := by
  rw [State.paused, State.pauseOf, State.port, State.stallEvals_ports]
  rfl

theorem State.port_stallEvals (s : State) (n m : Nat) : (s.stallEvals n).port m = s.port m := by
  rw [State.port, State.stallEvals_ports, State.port]

theorem State.cnt_stallEvals (s : State) (n a : Nat) : (s.stallEvals n).cnt a = s.cnt a := by
  rw [State.cnt, State.stallEvals_cnts, State.cnt]

/-! ### Pause frames -/

theorem State.rxPause_acts (q : Nat) (hu : s.linkUp n = true) (hm : s.fcMode n = 1) : s.rxPause n q =
    ((List.range 16).foldl (fun s c => s.pauseClass n q c) s).addCnt (C.RX_MAC_CTRL n) 1 := by
  rw [State.rxPause, hu, if_neg (by decide), if_pos hm]

theorem State.rxPause_other (q : Nat) (hu : s.linkUp n = true) (hm : s.fcMode n ≠ 1) :
    s.rxPause n q = s.addCnt (C.RX_MAC_CTRL_OTHER n) 1 := by
  rw [State.rxPause, hu, if_neg (by decide), if_neg hm]

/-! ### PFC frames -/

/-- The enabled priorities of port n whose bits a PFC frame sets. -/
def State.pfcHits (s : State) (n vec : Nat) : List Nat := (List.range 8).filter fun p => nbit vec p && (s.pfcClass n p).isSome

/-- Priority p of a PFC frame pauses the class that is mapped from it. -/
def State.pfcPause (s : State) (n : Nat) (quanta : List Nat) (p : Nat) : State :=
  match s.pfcClass n p with
  | some c => s.pauseClass n (quanta.getD p 0) c
  | none => s

section
variable {vec : Nat} {qs : List Nat}

theorem State.rxPfc_acts (hu : s.linkUp n = true) (hm : s.fcMode n = 2) (hh : s.pfcHits n vec ≠ []) : s.rxPfc n vec qs =
    ((s.pfcHits n vec).foldl (fun s p => s.pfcPause n qs p) s).addCnt (C.RX_MAC_CTRL n) 1 := by
  rw [State.rxPfc, hu, if_neg (by decide)]
  exact if_pos (⟨hm, hh⟩ : s.fcMode n = 2 ∧ s.pfcHits n vec ≠ [])

theorem State.rxPfc_other (hu : s.linkUp n = true) (h : s.fcMode n ≠ 2 ∨ s.pfcHits n vec = []) :
    s.rxPfc n vec qs = s.addCnt (C.RX_MAC_CTRL_OTHER n) 1 := by
  rw [State.rxPfc, hu, if_neg (by decide)]
  exact if_neg (show ¬ (s.fcMode n = 2 ∧ s.pfcHits n vec ≠ []) from fun ⟨hm, hh⟩ => h.elim (· hm) hh)

theorem State.mem_pfcHits {p : Nat} : p ∈ s.pfcHits n vec ↔ p < 8 ∧ nbit vec p = true ∧ (s.pfcClass n p).isSome = true := by
  rw [State.pfcHits, List.mem_filter, List.mem_range, Bool.and_eq_true]

theorem State.pfcPause_onlyPort (s : State) (n : Nat) (qs : List Nat) (p : Nat) : OnlyPort n s (s.pfcPause n qs p) := by
  rw [State.pfcPause]
  cases s.pfcClass n p with
  | none => exact .refl n s
  | some c => exact s.pauseClass_onlyPort ..

theorem OnlyPort.pfcClass (h : OnlyPort n s t) (m p : Nat) : t.pfcClass m p = s.pfcClass m p := by
  obtain ⟨-, ps, rfl⟩ := h
  rfl

theorem State.paused_pfcPause_some {p d : Nat} (h : s.pfcClass n p = some d) (c : Nat) :
    (s.pfcPause n qs p).paused n c = if c = d then decide (qs.getD p 0 ≠ 0) else s.paused n c := by
  rw [State.pfcPause, h]
  exact State.paused_pauseClass ..

theorem State.paused_pfcPause_ne {p c : Nat} (h : s.pfcClass n p ≠ some c) : (s.pfcPause n qs p).paused n c = s.paused n c := by
  cases hd : s.pfcClass n p with
  | none => simp only [State.pfcPause, hd]
  | some d => rw [State.paused_pfcPause_some hd, if_neg (by rintro rfl; exact h hd)]

/-- A class from which no priority of the frame is mapped stays as it was. -/
theorem State.paused_pfcFold_ne {ps : List Nat} {c : Nat} (h : ∀ p ∈ ps, s.pfcClass n p ≠ some c) :
    (ps.foldl (fun s p => s.pfcPause n qs p) s).paused n c = s.paused n c := by
  induction ps generalizing s with
  | nil => rfl
  | cons p ps ih =>
    have hstep := s.pfcPause_onlyPort n qs p
    rw [List.foldl_cons, ih fun q hq => by rw [hstep.pfcClass]; exact h q (List.mem_cons_of_mem _ hq)]
    exact State.paused_pfcPause_ne (h p List.mem_cons_self)

/-- A class is paused after the frame where every priority mapped to it asks for a time, and it was paused before or there is one. -/
theorem State.paused_pfcFold {ps : List Nat} {c : Nat} (hq : ∀ p ∈ ps, s.pfcClass n p = some c → qs.getD p 0 ≠ 0)
    (h : s.paused n c = true ∨ ∃ p ∈ ps, s.pfcClass n p = some c) : (ps.foldl (fun s p => s.pfcPause n qs p) s).paused n c = true := by
  induction ps generalizing s with
  | nil => exact h.resolve_right (by simp)
  | cons p ps ih =>
    have hstep := s.pfcPause_onlyPort n qs p
    refine ih (fun q hmem hc => hq q (List.mem_cons_of_mem _ hmem) (by rwa [hstep.pfcClass] at hc)) ?_
    by_cases hp : s.pfcClass n p = some c
    · rw [State.paused_pfcPause_some hp, if_pos rfl]
      exact .inl (decide_eq_true (hq p List.mem_cons_self hp))
    · rw [State.paused_pfcPause_ne hp]
      refine h.imp_right ?_
      rintro ⟨q, hmem, hc⟩
      refine ⟨q, (List.mem_cons.mp hmem).resolve_left (fun e => hp (e ▸ hc)), ?_⟩
      rwa [hstep.pfcClass]

end

/-! ### FC_MODE 3 -/

theorem State.fcEval_reg_ne (s : State) (n : Nat) {a : Nat} (h : a ≠ R.TM_FC_STATUS n) : (s.fcEval n).reg a = s.reg a := by
  have hpush (t : State) (c : CtlKind) : (t.ctlPush n c).regs = t.regs := by
    unfold State.ctlPush
    split <;> rfl
  rw [State.fcEval]
  split
  · rfl
  · rw [State.reg_of_regs (hpush _ _), State.reg_of_regs (State.setPtm_regs ..), State.reg_setReg_ne _ _ _ _ h]

/-- A write that asks for FC_MODE 3 on a port that is and stays disabled stores it and raises CFG; XOFF and the stalls are judged anew. -/
theorem State.portCtlWrite_reserved {v : Word} (hfc : fldOf v F.PORT_CTL.FC_MODE = 3) (hask : fldOf v F.PORT_CTL.EN = 0)
    (hmax : fldOf v F.PORT_CTL.MAXLEN = s.fld (R.PORT_CTL n) F.PORT_CTL.MAXLEN) (hoff : s.bit (R.PORT_CTL n) F.PORT_CTL.EN = false)
    (hold : s.fcMode n ≠ 3) : s.portCtlWrite n v =
      (((s.setFld (R.PORT_CTL n) F.PORT_CTL.FC_MODE 3).cause (R.PORT_CAUSE n) F.PORT_CAUSE.CFG).fcEval n).stallEvals n := by
  have hnew : (s.setFld (R.PORT_CTL n) F.PORT_CTL.FC_MODE 3).fcMode n = 3 := State.fld_setFld _ _ _ _ (by decide)
  have hnew' : ((s.setFld (R.PORT_CTL n) F.PORT_CTL.FC_MODE 3).cause (R.PORT_CAUSE n) F.PORT_CAUSE.CFG).fcMode n = 3 :=
    (State.cause_fld_ne (by unfold R.PORT_CTL R.PORT_CAUSE; omega) (not_irqBlock_portCtl n)).trans hnew
  have hold' : fldOf (s.reg (R.PORT_CTL n)) F.PORT_CTL.FC_MODE ≠ 3 := hold
  have hmax' : fldOf v F.PORT_CTL.MAXLEN = fldOf (s.reg (R.PORT_CTL n)) F.PORT_CTL.MAXLEN := hmax
  simp [State.portCtlWrite, hfc, hask, hmax', hoff, hold', Ne.symm hold', hnew, hnew']

theorem State.portCtlWrite_reserved_shows {v : Word} (hfc : fldOf v F.PORT_CTL.FC_MODE = 3) (hask : fldOf v F.PORT_CTL.EN = 0)
    (hmax : fldOf v F.PORT_CTL.MAXLEN = s.fld (R.PORT_CTL n) F.PORT_CTL.MAXLEN) (hoff : s.bit (R.PORT_CTL n) F.PORT_CTL.EN = false)
    (hold : s.fcMode n ≠ 3) : (s.portCtlWrite n v).fcMode n = 3 ∧
      ((s.portCtlWrite n v).reg (R.PORT_CAUSE n)).getLsbD F.PORT_CAUSE.CFG.lo = true := by
  rw [State.portCtlWrite_reserved hfc hask hmax hoff hold, State.fcMode, State.fld, State.reg_of_regs (State.stallEvals_regs _ _),
    State.reg_of_regs (State.stallEvals_regs _ _), State.fcEval_reg_ne _ _ (by unfold R.PORT_CTL R.TM_FC_STATUS; omega),
    State.fcEval_reg_ne _ _ (by unfold R.PORT_CAUSE R.TM_FC_STATUS; omega),
    State.cause_reg_ne (by unfold R.PORT_CTL R.PORT_CAUSE; omega) (not_irqBlock_portCtl n)]
  exact ⟨State.fld_setFld _ _ _ _ (by decide), State.cause_set (not_irqBlock_portCause n) (by decide)⟩

/-! ### The commands -/

theorem macCtrl_ne_other (n : Nat) : C.RX_MAC_CTRL n ≠ C.RX_MAC_CTRL_OTHER n := by unfold C.RX_MAC_CTRL C.RX_MAC_CTRL_OTHER; omega

theorem exec_pauseRx {n : PortNo} (q : Fin 65536) (hu : s.linkUp n = true) : exec (.pauseRx n q) s = .next ((s.rxPause n q).stallEvals n) :=
  congrArg Host.Outcome.next (if_pos hu)

theorem exec_pfcRx {n : PortNo} (vec : Fin 65536) (qs : List Nat) (hu : s.linkUp n = true) :
    exec (.pfcRx n vec qs) s = .next ((s.rxPfc n vec qs).stallEvals n) := congrArg Host.Outcome.next (if_pos hu)

theorem exec_macCtrlOtherRx {n : PortNo} (hu : s.linkUp n = true) : exec (.macCtrlOtherRx n) s = .next (s.rxMacCtrlOther n) :=
  congrArg Host.Outcome.next (if_pos hu)

theorem State.rxMacCtrlOther_up (hu : s.linkUp n = true) : s.rxMacCtrlOther n = s.addCnt (C.RX_MAC_CTRL_OTHER n) 1 := by
  rw [State.rxMacCtrlOther, hu, if_neg (by decide)]

theorem exec_pauseExpiry {n : PortNo} {c : ClassNo} (h : s.paused n c = true) :
    exec (.pauseExpiry n c) s = .next ((s.setPause n c none).stallEval n c) := congrArg Host.Outcome.next (if_pos h)

/-- A frame that the MAC consumes without action counts as another one, and leaves the registers and the ports alone. -/
theorem State.other_stallEvals (s : State) (n : Nat) : ((s.addCnt (C.RX_MAC_CTRL_OTHER n) 1).stallEvals n).ports = s.ports ∧
    ((s.addCnt (C.RX_MAC_CTRL_OTHER n) 1).stallEvals n).regs = s.regs ∧
    ((s.addCnt (C.RX_MAC_CTRL_OTHER n) 1).stallEvals n).cnt (C.RX_MAC_CTRL_OTHER n) = min (s.cnt (C.RX_MAC_CTRL_OTHER n) + 1) (2 ^ 48 - 1) ∧
    ((s.addCnt (C.RX_MAC_CTRL_OTHER n) 1).stallEvals n).cnt (C.RX_MAC_CTRL n) = s.cnt (C.RX_MAC_CTRL n) := by
  rw [State.cnt_stallEvals, State.cnt_stallEvals, State.stallEvals_ports, State.stallEvals_regs]
  exact ⟨rfl, rfl, State.cnt_addCnt .., State.cnt_addCnt_ne _ _ _ _ (macCtrl_ne_other n)⟩

/-- A frame that the MAC acts on changes its port from `s` to `t` and counts. -/
theorem OnlyPort.acted (h : OnlyPort n s t) : (∀ m, m ≠ n → ((t.addCnt (C.RX_MAC_CTRL n) 1).stallEvals n).port m = s.port m) ∧
    ((t.addCnt (C.RX_MAC_CTRL n) 1).stallEvals n).regs = s.regs ∧
    ((t.addCnt (C.RX_MAC_CTRL n) 1).stallEvals n).cnt (C.RX_MAC_CTRL n) = min (s.cnt (C.RX_MAC_CTRL n) + 1) (2 ^ 48 - 1) := by
  rw [State.cnt_stallEvals, State.stallEvals_regs, State.cnt_addCnt, h.cnt]
  exact ⟨fun m hm => (State.port_stallEvals ..).trans (h.1 m hm), h.regs, rfl⟩

/-- Settles O28: each frame acts, or counts as another one, by one of the equations above; then the stalls of the port are judged, which
pauses and releases nothing. -/
theorem pauseReceipt : Obligations.PauseReceipt := by
  unfold Obligations.PauseReceipt
  intro n s
  refine ⟨fun bs op hop hu => ⟨fun h1 q hq => ?_, fun h101 vec hvec => ?_, fun h1 h101 => ⟨_, exec_macCtrlOtherRx hu, ?_⟩⟩,
    fun vec qs hu h => ⟨_, exec_pfcRx vec qs hu, ?_⟩, fun v hfc hask hmax hoff hold => State.portCtlWrite_reserved_shows hfc hask hmax hoff hold,
    fun q hu hm => ⟨_, exec_pauseRx q hu, ?_⟩, fun q hu hm => ⟨_, exec_pauseRx q hu, ?_⟩,
    fun vec qs hu hm hhit => ⟨_, exec_pfcRx vec qs hu, ?_⟩,
    fun hu => ⟨_, exec_macCtrlOtherRx hu, ?_⟩, fun c hc => ⟨_, exec_pauseExpiry hc, ?_⟩⟩
  · rw [exec_pauseRx q hu, State.macCtrlRx, ← hop, if_pos h1, hq]
  · rw [exec_pfcRx vec _ hu, State.macCtrlRx, ← hop, if_neg (by omega), if_pos h101, hvec]
  · rw [State.macCtrlRx, ← hop, if_neg h1, if_neg h101]
  · have hnone : s.fcMode n ≠ 2 ∨ s.pfcHits n vec = [] := h.imp_right fun hno =>
      List.eq_nil_iff_forall_not_mem.mpr fun p hp => by
        obtain ⟨h8, hbit, hsome⟩ := State.mem_pfcHits.mp hp
        rw [hno p h8 hbit] at hsome
        exact Bool.false_ne_true hsome
    rw [State.rxPfc_other hu hnone]
    exact s.other_stallEvals n
  · have honly : OnlyPort n s ((List.range 16).foldl (fun s c => s.pauseClass n q c) s) :=
      .foldl (fun t c => t.pauseClass_onlyPort ..) _ s
    rw [State.rxPause_acts q hu hm]
    refine ⟨fun c hc => ?_, honly.acted⟩
    rw [State.paused_stallEvals]
    refine (State.paused_foldl_pauseClass _ s n q c).trans ?_
    rw [if_pos (List.mem_range.mpr hc), decide_eq_decide, Ne, Ne, Fin.val_eq_zero_iff]
  · obtain ⟨hports, hregs, hother, -⟩ := s.other_stallEvals n
    rw [State.rxPause_other q hu hm]
    exact ⟨hports, hregs, hother⟩
  · have hhits : s.pfcHits n vec ≠ [] := by
      obtain ⟨i, hi⟩ := hhit
      exact List.ne_nil_of_mem (State.mem_pfcHits.mpr hi)
    have honly : OnlyPort n s ((s.pfcHits n vec).foldl (fun s p => s.pfcPause n qs p) s) :=
      .foldl (fun t p => t.pfcPause_onlyPort ..) _ s
    rw [State.rxPfc_acts hu hm hhits]
    refine ⟨fun c hno => ?_, fun c i h8 hbit hc hq huniq => ?_, honly.acted.2⟩
    · rw [State.paused_stallEvals]
      refine State.paused_pfcFold_ne fun p hp => ?_
      obtain ⟨h8, hbit, -⟩ := State.mem_pfcHits.mp hp
      exact hno p h8 hbit
    · rw [State.paused_stallEvals]
      refine State.paused_pfcFold (fun p hp hpc => ?_) (.inr ⟨i, State.mem_pfcHits.mpr ⟨h8, hbit, by rw [hc]; rfl⟩, hc⟩)
      have hpi : p = i := by
        by_contra hne
        exact huniq p (State.mem_pfcHits.mp hp).1 hne hpc
      rwa [hpi]
  · rw [State.rxMacCtrlOther_up hu]
    exact ⟨rfl, rfl, State.cnt_addCnt .., fun a ha => State.cnt_addCnt_ne _ _ _ _ ha⟩
  · obtain ⟨q, h⟩ := (s.setPause n c none).stallEval_queues n c
    rw [h]
    refine ⟨(s.paused_setPause n c none c).trans (if_pos rfl), (s.setPort_onlyPort n _).1, fun d hd _ => ?_, rfl, rfl⟩
    exact (s.paused_setPause n c none d).trans (if_neg hd)

end Sys2Proof.Machine
end

section
/-! SUPPORT. The rows of the tables and the words of the stores (R164, R189, R233): what an update of one leaves to be read. -/

namespace Sys2Proof.Machine

variable {s : State} {p st : Nat}

/-! ### Exact-match rows -/

@[simp] theorem State.emStage_setEmStage (e : EmStage) : (s.setEmStage p st e).emStage p st = e := SMap.get_put_same ..

theorem State.emStage_of_em {t : State} (h : t.em = s.em) : t.emStage p st = s.emStage p st := by
  rw [State.emStage, h]
  rfl

theorem State.emRow_of_em {t : State} (h : t.em = s.em) (l : Nat) : t.emRow p st l = s.emRow p st l := by
  rw [State.emRow, State.emStage_of_em h]
  rfl

theorem State.emRow_setEmStage {e : EmStage} (h : e.rows = (s.emStage p st).rows) (l : Nat) :
    (s.setEmStage p st e).emRow p st l = s.emRow p st l := by
  rw [State.emRow, State.emStage_setEmStage, EmStage.row, h]
  rfl

theorem State.emRow_setEmRow (loc l : Nat) (r : EmRow) :
    (s.setEmRow p st loc r).emRow p st l = if l = loc then r else s.emRow p st l := by
  rw [State.emRow, State.setEmRow, State.emStage_setEmStage]
  exact SMap.get_put ..

/-- A row that is stored changes that row of the exact-match tables, and nothing else of the part. -/
theorem State.setEmRow_only (loc : Nat) (r : EmRow) : (s.setEmRow p st loc r).emRow p st loc = r ∧
    (∀ l, l ≠ loc → (s.setEmRow p st loc r).emRow p st l = s.emRow p st l) ∧ ∃ m, s.setEmRow p st loc r = { s with em := m } :=
  ⟨(State.emRow_setEmRow ..).trans (if_pos rfl), fun _ h => (State.emRow_setEmRow ..).trans (if_neg h), _, rfl⟩

/-! ### TCAM rows -/

@[simp] theorem State.tcPipe_setTcPipe (e : TcPipe) : (s.setTcPipe p e).tcPipe p = e := SMap.get_put_same ..

theorem State.tcRow_setTcRow (k l : Nat) (r : TcRow) : (s.setTcRow p k r).tcRow p l = if l = k then r else s.tcRow p l := by
  rw [State.tcRow, State.setTcRow, State.tcPipe_setTcPipe]
  exact SMap.get_put ..

/-- A row that is stored changes that row of the TCAM tables, and nothing else of the part. -/
theorem State.setTcRow_only (k : Nat) (r : TcRow) : (s.setTcRow p k r).tcRow p k = r ∧
    (∀ l, l ≠ k → (s.setTcRow p k r).tcRow p l = s.tcRow p l) ∧ ∃ m, s.setTcRow p k r = { s with tc := m } :=
  ⟨(State.tcRow_setTcRow ..).trans (if_pos rfl), fun _ h => (State.tcRow_setTcRow ..).trans (if_neg h), _, rfl⟩

theorem tcKey_stage {t a : Nat} (ht : t < 2) (ha : a < 2 ^ 17) : tcKey st t a / 2 ^ 18 = st := by unfold tcKey; omega

theorem tcKey_table {t a : Nat} (ht : t < 2) (ha : a < 2 ^ 17) : tcKey st t a / 2 ^ 17 % 2 = t := by unfold tcKey; omega

theorem tcKey_row {t a : Nat} (ha : a < 2 ^ 17) : tcKey st t a % 2 ^ 17 = a := by unfold tcKey; omega

/-! ### Words of a microcode store -/

@[simp] theorem State.ucStore_setUcStore (u : UcStore) : (s.setUcStore p st u).ucStore p st = u := SMap.get_put_same ..

theorem UcStore.word_put (u : UcStore) (b w : Nat) (v : Word) : (u.put b w v).word b w = v := by
  unfold UcStore.put UcStore.word
  by_cases hw : w < 3072
  · simp only [hw, if_true, SMap.get_put_same]
  · by_cases hb : b = 0
    · simp only [hw, hb, if_true, if_false, SMap.get_put_same]
    · simp only [hw, hb, if_false, SMap.get_put_same]

/-- Words with another mark stay: the vendor words have no bank, and the customer words of the two banks do not meet. -/
theorem UcStore.word_put_ne (u : UcStore) {b c w x : Nat} (v : Word) (hb : b < 2) (hc : c < 2) (h : ucMark c x ≠ ucMark b w) :
    (u.put b w v).word c x = u.word c x := by
  unfold ucMark at h
  unfold UcStore.put UcStore.word
  by_cases hw : w < 3072
  · by_cases hx : x < 3072
    · simp only [hw, hx, if_true] at h ⊢
      exact SMap.get_put_ne _ _ _ _ _ (by omega)
    · simp only [hw, hx, if_true, if_false]
  · by_cases hx : x < 3072
    · by_cases h0 : b = 0 <;> simp only [hw, hx, h0, if_true, if_false]
    · simp only [hw, hx, if_false] at h ⊢
      by_cases h0 : b = 0 <;> by_cases h1 : c = 0 <;> simp only [h0, h1, if_true, if_false]
      · exact SMap.get_put_ne _ _ _ _ _ (by subst h0 h1; omega)
      · exact SMap.get_put_ne _ _ _ _ _ (by rw [show b = 1 by omega, show c = 1 by omega] at h; omega)

theorem UcStore.word_bad (u : UcStore) (l : List Nat) (b w : Nat) : UcStore.word { u with bad := l } b w = u.word b w := rfl

end Sys2Proof.Machine
end

section
/-! SUPPORT. Upsets of memories (R178, R179, R206, R240, R286, R441; O40), place by place. -/

namespace Sys2Proof.Machine

variable {s : State}

theorem toggle_nil (x : Nat) : toggle [] x = [x] := rfl

theorem toggle_mem {l : List Nat} {x : Nat} (h : x ∈ l) : toggle l x = l.erase x := if_pos (List.contains_iff_mem.mpr h)

theorem toggle_not_mem {l : List Nat} {x : Nat} (h : x ∉ l) : toggle l x = l ++ [x] := if_neg fun hc => h (List.contains_iff_mem.mp hc)

theorem exec_memoryUpset (u : UpsetAt) (s : State) : exec (.memoryUpset u) s = .next (s.upset u) := rfl

/-! ### Program words and store words -/

theorem State.psWord_upset (n : OwnerNo) (word : Fin 65536) (bit : Fin 32) :
    (s.upset (.program n word bit)).psWord n word = s.psWord n word ^^^ BitVec.ofNat 32 (2 ^ bit.val) := SMap.get_put_same ..

theorem State.psWord_upset_ne (n : OwnerNo) (word : Fin 65536) (bit : Fin 32) {w : Nat} (h : w ≠ word.val) :
    (s.upset (.program n word bit)).psWord n w = s.psWord n w := SMap.get_put_ne _ _ _ _ _ (by omega)

theorem State.psBadAt_upset (n : OwnerNo) (word : Fin 65536) (bit : Fin 32) :
    (s.upset (.program n word bit)).psBadAt n word = !s.psBadAt n word := SMap.get_put_same ..

/-- The second upset of a bit gives the word back. -/
theorem State.psWord_upset_twice (n : OwnerNo) (word : Fin 65536) (bit : Fin 32) :
    ((s.upset (.program n word bit)).upset (.program n word bit)).psWord n word = s.psWord n word := by
  rw [State.psWord_upset, State.psWord_upset, BitVec.xor_assoc, BitVec.xor_self, BitVec.xor_zero]

theorem State.ucStore_upset (p : PipeNo) (st : StageNo) (bank : Fin 2) (word : Fin 4096) (bit : Fin 32) :
    (s.upset (.store p st bank word bit)).ucStore p st =
      { (s.ucStore p st).put bank word ((s.ucStore p st).word bank word ^^^ BitVec.ofNat 32 (2 ^ bit.val)) with
        bad := toggle (s.ucStore p st).bad (ucMark bank word) } := State.ucStore_setUcStore _

/-! ### Exact-match rows and their timestamps -/

theorem State.upset_emStamp {p : PipeNo} {st : StageNo} {loc : Nat} (bit : Fin 16) (h : s.emDefined p st (locTable loc) = true) :
    s.upset (.emStamp p st loc bit) =
      s.setEmRow p st loc { s.emRow p st loc with ts := flipNBit (s.emRow p st loc).ts bit, tsBad := !(s.emRow p st loc).tsBad } := by
  simp only [State.upset, h, Bool.not_true, Bool.false_eq_true, if_false]

theorem State.upset_emRow {p : PipeNo} {st : StageNo} {loc bit : Nat} (h : s.emDefined p st (locTable loc) = true)
    (hbit : bit < 8 * s.emE p st (locTable loc))
    (hloc : if locStash loc then loc % 2 ^ 16 < 16 else loc % 2 ^ 16 < s.emD p st (locTable loc)) :
    s.upset (.emRow p st loc bit) = s.setEmRow p st loc { s.emRow p st loc with
      bytes := flipBit (fitBytes (s.emE p st (locTable loc)) (s.emRow p st loc).bytes) bit,
      bad := toggle (s.emRow p st loc).bad (bit / 64) } := by
  have hin : (if locStash loc then decide (loc % 2 ^ 16 < 16) else decide (loc % 2 ^ 16 < s.emD p st (locTable loc))) = true := by
    split at hloc <;> simpa [*] using hloc
  simp only [State.upset, h, hin, Nat.not_le.mpr hbit, decide_false, Bool.not_true, Bool.or_self, Bool.false_eq_true, if_false]

/-! ### TCAM entries -/

/-- A TCAM entry whose array has one bit flipped: V below, M above it, VALID last. -/
def TcRow.flipArray (r : TcRow) (w bit : Nat) : TcRow :=
  if bit < w then { r with aV := flipNBit r.aV bit }
  else if bit < 2 * w then { r with aM := flipNBit r.aM (bit - w) } else { r with aValid := !r.aValid }

/-- A TCAM entry of `w` positions whose shadow has one bit of position `pos` flipped, its parity aside. -/
def TcRow.flipShadow (r : TcRow) (w pos bit : Nat) : TcRow :=
  if bit < 80 then { r with v := flipNBit r.v (80 * (w - 1 - pos) + bit % 80) }
  else if bit < 160 then { r with msk := flipNBit r.msk (80 * (w - 1 - pos) + bit % 80) }
  else if bit < 161 then { r with valid := !r.valid } else if bit < 177 then { r with prio := flipNBit r.prio (bit - 161) }
  else if bit < 181 then { r with action := flipNBit r.action (bit - 177) } else { r with data := flipNBit r.data (bit - 181) }

theorem TcRow.flipShadow_array (r : TcRow) (w pos bit : Nat) : (r.flipShadow w pos bit).aV = r.aV ∧ (r.flipShadow w pos bit).aM = r.aM ∧
    (r.flipShadow w pos bit).aValid = r.aValid := by
  unfold TcRow.flipShadow
  split_ifs <;> exact ⟨rfl, rfl, rfl⟩

theorem TcRow.flipShadow_bad (r : TcRow) (w pos bit : Nat) : (r.flipShadow w pos bit).bad = r.bad := by
  unfold TcRow.flipShadow
  split_ifs <;> rfl

theorem TcRow.flipShadow_valid (r : TcRow) (w pos bit : Nat) : (r.flipShadow w pos bit).valid = r.valid ↔ bit ≠ 160 := by
  unfold TcRow.flipShadow
  split_ifs <;> simp <;> omega

theorem TcRow.flipShadow_prio (r : TcRow) (w pos : Nat) {bit : Nat} (h : bit < 161) : (r.flipShadow w pos bit).prio = r.prio := by
  unfold TcRow.flipShadow
  rw [if_pos h]
  split_ifs <;> rfl

section

variable {p : PipeNo} {st : StageNo} {t a : Nat} (hdef : s.tcDefined p st t = true) (ha : a < 1024 * s.tcSlices p st t)
  (h17 : a < 2 ^ 17) (ht : t < 2)

include hdef ha h17 ht

theorem State.upset_tcArray (bit : Nat) : s.upset (.tcArray p (tcKey st t a) bit) =
    if 2 * (80 * s.tcW p st t) < bit then s
    else s.setTcRow p (tcKey st t a) ((s.tcRow p (tcKey st t a)).flipArray (80 * s.tcW p st t) bit) := by
  simp only [State.upset, tcKey_stage ht h17, tcKey_table ht h17, tcKey_row h17, hdef, Nat.not_le.mpr ha, false_or, Bool.not_true,
    Bool.false_or, decide_eq_true_eq, TcRow.flipArray]

theorem State.upset_tcShadow {pos : Fin 8} {bit : Fin 241} (hpos : pos.val < s.tcW p st t) (hbit : pos.val = 0 ∨ bit.val < 160) :
    s.upset (.tcShadow p (tcKey st t a) pos bit) = s.setTcRow p (tcKey st t a)
      { (s.tcRow p (tcKey st t a)).flipShadow (s.tcW p st t) pos bit with bad := toggle (s.tcRow p (tcKey st t a)).bad pos } := by
  have hin : ¬ (1024 * s.tcSlices p st t ≤ a ∨ s.tcW p st t ≤ pos.val ∨ 0 < pos.val ∧ 160 ≤ bit.val) := by omega
  unfold State.upset
  dsimp only
  rw [tcKey_stage ht h17, tcKey_table ht h17, tcKey_row h17, hdef, decide_eq_false hin, if_neg (by decide)]
  exact congrArg (fun bad => s.setTcRow p (tcKey st t a)
    { (s.tcRow p (tcKey st t a)).flipShadow (s.tcW p st t) pos bit with bad := toggle bad pos }) (TcRow.flipShadow_bad ..)

end

/-! ### Packet buffers -/

theorem State.upset_buffer {h w : Nat} {bit : Fin 128} {b : Buf} (hb : s.buf h = some b) : s.upset (.buffer h w bit) =
    if s.poolBytes (poolOfH h) ≤ 16 * w then s else s.setBuf h (some { b with flips := toggle b.flips (128 * w + bit.val) }) := by
  simp only [State.upset, hb]

theorem State.upset_buffer_free {h w : Nat} {bit : Fin 128} (hb : s.buf h = none) : s.upset (.buffer h w bit) = s := by
  simp only [State.upset, hb]

/-- Settles O40: each place that is upset is one word, row or list of flips that is stored. -/
theorem upsets : Obligations.Upsets := by
  unfold Obligations.Upsets
  intro s
  refine ⟨fun n word bit => ?_, fun p st loc bit r hdef hr => ?_, fun p st t a k w bit r hdef ha h17 ht hk hw hr => ?_,
    fun p st bank word bit x hx => ?_, fun h w bit b hb => ⟨fun hin => ?_, fun hout => ?_⟩, fun h w bit hb => ?_, fun quad bit => ?_,
    fun p st loc bit e hdef he hbit hloc hbad => ?_, fun p st t a k pos bit hdef ha h17 ht hk hpos hbit hbad => ?_⟩
  · exact ⟨_, rfl, State.psWord_upset .., State.psBadAt_upset .., fun w h _ => State.psWord_upset_ne _ _ _ h, ⟨_, rfl⟩, _, rfl,
      State.psWord_upset_twice ..⟩
  · rw [exec_memoryUpset, State.upset_emStamp bit hdef, ← hr]
    exact ⟨_, rfl, State.setEmRow_only ..⟩
  · subst hk hw hr
    rw [exec_memoryUpset, State.upset_tcArray hdef ha h17 ht]
    by_cases hout : 2 * (80 * s.tcW p st t) < bit
    · rw [if_pos hout]
      exact ⟨s, rfl, fun h => by omega, fun _ h => by omega, fun h => by omega, fun _ => rfl, fun _ _ => rfl, _, rfl⟩
    · obtain ⟨hrow, hrest, hall⟩ := State.setTcRow_only (s := s) (p := p) (tcKey st t a)
        ((s.tcRow p (tcKey st t a)).flipArray (80 * s.tcW p st t) bit)
      rw [if_neg hout]
      refine ⟨_, rfl, fun h => ?_, fun h h' => ?_, fun h => ?_, fun h => absurd h hout, hrest, hall⟩
      · rw [hrow, TcRow.flipArray, if_pos h]
      · rw [hrow, TcRow.flipArray, if_neg (by omega), if_pos h']
      · rw [hrow, TcRow.flipArray, if_neg (by omega), if_neg (by omega)]
  · subst hx
    rw [exec_memoryUpset]
    refine ⟨_, rfl, ?_, ?_, fun b w hb h => ?_, _, rfl⟩
    · rw [State.ucStore_upset, UcStore.word_bad, UcStore.word_put]
    · rw [State.ucStore_upset]
    · rw [State.ucStore_upset, UcStore.word_bad, UcStore.word_put_ne _ _ bank.isLt hb h]
  · rw [exec_memoryUpset, State.upset_buffer hb, if_neg (Nat.not_le.mpr hin)]
    exact ⟨_, rfl, (State.buf_setBuf ..).trans (if_pos rfl), fun k h => (State.buf_setBuf ..).trans (if_neg h), _, rfl⟩
  · rw [exec_memoryUpset, State.upset_buffer hb, if_pos hout]
  · rw [exec_memoryUpset, State.upset_buffer_free hb]
  · exact ⟨_, rfl, fun h => toggle_mem h, fun h => toggle_not_mem h, rfl⟩
  · subst he
    obtain ⟨hrow, hrest, hall⟩ := State.setEmRow_only (s := s) (p := p) (st := st) loc { s.emRow p st loc with
      bytes := flipBit (fitBytes (s.emE p st (locTable loc)) (s.emRow p st loc).bytes) bit, bad := [bit / 64] }
    rw [exec_memoryUpset, State.upset_emRow hdef hbit hloc, hbad, toggle_nil]
    exact ⟨_, rfl, by rw [hrow], by rw [hrow], hrest, hall⟩
  · subst hk
    obtain ⟨hrow, hrest, hall⟩ := State.setTcRow_only (s := s) (p := p) (tcKey st t a)
      { (s.tcRow p (tcKey st t a)).flipShadow (s.tcW p st t) pos bit with bad := [pos.val] }
    obtain ⟨hV, hM, hValid⟩ := (s.tcRow p (tcKey st t a)).flipShadow_array (s.tcW p st t) pos bit
    rw [exec_memoryUpset, State.upset_tcShadow hdef ha h17 ht hpos hbit, hbad, toggle_nil]
    refine ⟨_, rfl, ?_⟩
    rw [hrow]
    exact ⟨rfl, TcRow.flipShadow_valid .., fun h => TcRow.flipShadow_prio _ _ _ h, hV, hM, hValid, hrest, hall⟩

end Sys2Proof.Machine
end

section
/-! SUPPORT. The ager of a stage (R168, R176, R179, R181; O32): where it looks, and what it does there. -/

namespace Sys2Proof.Machine

variable {s : State} {p st : Nat}

/-! ### What a notification and a freed row leave -/

theorem State.ariseF_em (a : Nat) (f : Fld) : (s.ariseF a f).em = s.em := by rw [(State.ariseF_alarms (as := [a]) s a f (.inl (by simp))).eq]

theorem State.cnt_ariseF (a : Nat) (f : Fld) (c : Nat) : (s.ariseF a f).cnt c = s.cnt c := by
  rw [(State.ariseF_alarms (as := [a]) s a f (.inl (by simp))).eq]
  rfl

/-- A notification leaves the rows of the tables. -/
theorem State.emRow_pushNote (kind loc : Nat) (entry : Bytes) (l : Nat) : (s.pushNote p st kind loc entry).emRow p st l = s.emRow p st l := by
  unfold State.pushNote
  split
  · rfl
  · split
    · split <;> rfl
    · dsimp only
      split
      · exact (State.emRow_of_em (State.ariseF_em ..) l).trans (State.emRow_setEmStage (by rfl) l)
      · exact State.emRow_setEmStage (by rfl) l

/-- Of the notifications that find no room only PARITY is counted (R180). -/
theorem State.cnt_pushNote {kind : Nat} (h : kind ≠ 7) (loc : Nat) (entry : Bytes) (c : Nat) :
    (s.pushNote p st kind loc entry).cnt c = s.cnt c := by
  unfold State.pushNote
  rw [if_neg h]
  split
  · rfl
  · split
    · rfl
    · dsimp only
      split
      · exact State.cnt_ariseF ..
      · rfl

theorem State.emRow_emFreed (loc l : Nat) : (s.emFreed p st loc).emRow p st l = s.emRow p st l := by
  unfold State.emFreed
  split
  · rfl
  · exact State.emRow_setEmStage (by rfl) l

theorem State.cnt_emFreed (loc c : Nat) : (s.emFreed p st loc).cnt c = s.cnt c := by
  unfold State.emFreed
  split <;> rfl

/-! ### Where the ager looks -/

section

variable (s p st) (t : Nat) (rest : List Nat) (i : Nat)

theorem State.agerVisitLocs_ways (h : i < s.emD p st t) :
    s.agerVisitLocs p st (t :: rest) i = some ((List.range 4).map fun w => wayLoc t w i) := by
  rw [State.agerVisitLocs, if_pos h]

theorem State.agerVisitLocs_stash : s.agerVisitLocs p st (t :: rest) (s.emD p st t) = some (stashLocs t) := by
  rw [State.agerVisitLocs, if_neg (Nat.lt_irrefl _), if_pos rfl]

theorem State.agerVisitLocs_next : s.agerVisitLocs p st (t :: rest) (s.emD p st t + 1 + i) = s.agerVisitLocs p st rest i := by
  rw [State.agerVisitLocs, if_neg (by omega), if_neg (by omega), show s.emD p st t + 1 + i - s.emD p st t - 1 = i by omega]

end

/-! ### One look -/

theorem State.emTsRead_good {loc : Nat} (h : (s.emRow p st loc).tsBad = false) : s.emTsRead p st loc = s := by
  rw [State.emTsRead, h, if_neg Bool.false_ne_true]

theorem State.ageLoc_parity {loc : Nat} (h : (s.emRow p st loc).bad ≠ []) : s.ageLoc p st loc = (true, s.emParity p st loc false) := by
  have hbad : (s.emRow p st loc).bad.isEmpty = false := List.isEmpty_eq_false_iff.mpr h
  simp only [State.ageLoc, hbad, Bool.not_false, if_true]

section

variable {loc t limit age : Nat} {r : EmRow} (hr : r = s.emRow p st loc) (ht : t = locTable loc) (hbad : r.bad = []) (hts : r.tsBad = false)
  (hlimit : limit = s.fld (R.STG_EM_AGE p st t) F.STG_EM_AGE.AGE_LIMIT) (hage : age = (s.emUnit p st t + 65536 - r.ts) % 65536)

include hr ht hbad hts hlimit hage

/-- A look at a whole entry: it stays, or the ager stops at it, or it is removed. -/
theorem State.ageLoc_whole : s.ageLoc p st loc =
    if limit = 0 ∨ r.valid = false ∨ r.static = true ∨ r.marked = true ∨ age < limit then (true, s)
    else if s.noteOn p st t 4 = true ∧ s.noteRoom p st = 0 then (false, s)
    else (true, (((s.setEmRow p st loc r.clear).addCnt (C.EM_AGED p st t) 1).pushNote p st 4 loc r.bytes).emFreed p st loc) := by
  subst hr ht hlimit hage
  have hempty : (s.emRow p st loc).bad.isEmpty = true := List.isEmpty_iff.mpr hbad
  simp only [State.ageLoc, hempty, State.emTsRead_good hts, Bool.not_true, Bool.false_eq_true, if_false, Bool.or_eq_true,
    Bool.and_eq_true, decide_eq_true_eq, Bool.not_eq_true', or_assoc]

theorem State.ageLoc_stays (h : limit = 0 ∨ r.valid = false ∨ r.static = true ∨ r.marked = true ∨ age < limit) :
    s.ageLoc p st loc = (true, s) := by
  rw [State.ageLoc_whole hr ht hbad hts hlimit hage, if_pos h]

theorem State.ageLoc_aged (hl : limit ≠ 0) (hv : r.valid = true) (hs : r.static = false) (hm : r.marked = false) (ha : limit ≤ age) :
    s.ageLoc p st loc = if s.noteOn p st t 4 = true ∧ s.noteRoom p st = 0 then (false, s)
    else (true, (((s.setEmRow p st loc r.clear).addCnt (C.EM_AGED p st t) 1).pushNote p st 4 loc r.bytes).emFreed p st loc) := by
  rw [State.ageLoc_whole hr ht hbad hts hlimit hage, if_neg (by simp [hl, hv, hs, hm, ha])]

end

/-- What the removal of an aged entry leaves: the row cleared, the others as they were, and the entry counted. -/
theorem State.aged_spec (loc t : Nat) (r : EmRow) {u : State}
    (hu : u = (((s.setEmRow p st loc r.clear).addCnt (C.EM_AGED p st t) 1).pushNote p st 4 loc r.bytes).emFreed p st loc) :
    u.emRow p st loc = r.clear ∧ (∀ l, l ≠ loc → u.emRow p st l = s.emRow p st l) ∧
      u.cnt (C.EM_AGED p st t) = min (s.cnt (C.EM_AGED p st t) + 1) (2 ^ 48 - 1) := by
  have hrow (l : Nat) : u.emRow p st l = (s.setEmRow p st loc r.clear).emRow p st l := by
    rw [hu, State.emRow_emFreed, State.emRow_pushNote]
    exact State.emRow_of_em rfl l
  obtain ⟨hloc, hrest, -⟩ := State.setEmRow_only (s := s) (p := p) (st := st) loc r.clear
  refine ⟨(hrow loc).trans hloc, fun l h => (hrow l).trans (hrest l h), ?_⟩
  rw [hu, State.cnt_emFreed, State.cnt_pushNote (by decide), State.cnt_addCnt]
  rfl

/-! ### One visit -/

/-- The looks at the locations of a visit, up to one that stops the ager. -/
def State.ageLocs (s : State) (p st : Nat) (locs : List Nat) : Bool × State :=
  locs.foldl (fun acc l => if acc.1 then acc.2.ageLoc p st l else acc) (true, s)

theorem State.ageLocs_quiet {locs : List Nat} (h : ∀ l ∈ locs, s.ageLoc p st l = (true, s)) : s.ageLocs p st locs = (true, s) := by
  unfold State.ageLocs
  induction locs with
  | nil => rfl
  | cons l ls ih =>
    rw [List.foldl_cons, if_pos rfl, h l (List.mem_cons_self ..)]
    exact ih fun x hx => h x (List.mem_cons_of_mem _ hx)

theorem State.agerVisit_busy (h : (s.emStage p st).busy ≠ 0) : s.agerVisit p st = s := by
  simp only [State.agerVisit, EmStage.free, h, decide_false, Bool.not_false, if_true]

/-- A visit of a free engine: at the ager's index, or from the first where that lies past the last (R176). -/
theorem State.agerVisit_free {tabs locs : List Nat} {i : Nat} {u : Bool × State} (hfree : (s.emStage p st).busy = 0)
    (htabs : tabs = (List.range 4).filter fun t => s.emDefined p st t)
    (hi : i = if (s.agerVisitLocs p st tabs (s.emStage p st).ager).isSome then (s.emStage p st).ager else 0)
    (hlocs : locs = (s.agerVisitLocs p st tabs i).getD []) (hu : u = s.ageLocs p st locs) :
    s.agerVisit p st = u.2.setEmStage p st { u.2.emStage p st with ager := if u.1 then i + 1 else i } := by
  have hf : (s.emStage p st).free = true := decide_eq_true hfree
  subst hu hlocs hi htabs
  unfold State.agerVisit State.ageLocs
  rw [hf, if_neg (by decide)]
  cases h : s.agerVisitLocs p st ((List.range 4).filter fun t => s.emDefined p st t) (s.emStage p st).ager with
  | none => simp only [h, Option.isSome_none, Bool.false_eq_true, if_false]
  | some l => simp only [h, Option.isSome_some, if_true, Option.getD_some]

/-- Settles O32: a visit is the looks at its locations, and a look is judged by the entry it finds. -/
theorem agerVisit : Obligations.AgerVisit := by
  unfold Obligations.AgerVisit
  intro p st s
  refine ⟨fun h => congrArg Host.Outcome.next ?_, fun hon hfree => ⟨_, _, _, _, rfl, rfl, rfl, rfl, congrArg Host.Outcome.next ?_, fun hquiet =>
    congrArg Host.Outcome.next ?_⟩, fun t rest i => ⟨State.agerVisitLocs_ways s p st t rest i, State.agerVisitLocs_stash s p st t rest,
    State.agerVisitLocs_next s p st t rest i⟩, fun loc => State.ageLoc_parity, fun loc r t hr ht hbad hts =>
    ⟨State.ageLoc_stays hr ht hbad hts rfl rfl, fun hl hv hs hm ha => ?_⟩⟩
  · rcases h with hoff | hbusy
    · exact if_neg (by rw [hoff]; decide)
    · rw [State.agerVisit_busy hbusy, ite_self]
  · exact (if_pos hon).trans (State.agerVisit_free hfree rfl rfl rfl rfl)
  · exact (if_pos hon).trans (State.agerVisit_free hfree rfl rfl rfl (State.ageLocs_quiet hquiet).symm)
  · rw [State.ageLoc_aged hr ht hbad hts rfl rfl hl hv hs hm ha]
    refine ⟨fun hnote hroom => if_pos ⟨hnote, hroom⟩, fun h => ⟨_, if_neg ?_, State.aged_spec loc t r rfl⟩⟩
    rintro ⟨hnote, hroom⟩
    rcases h with h | h
    · rw [h] at hnote
      exact Bool.false_ne_true hnote
    · exact h hroom

end Sys2Proof.Machine
end

section
/-! SUPPORT. The table engine of a stage (R168, R171, R173, R178, R179, R182, R261; O31): learning, reinsertion, invalidation and flushing. -/

namespace Sys2Proof.Machine

variable {s : State} {p st : Nat}

/-! ### An engine that is not free for its own work -/

theorem State.emLearnTurn_busy (h : (s.emStage p st).busy ≠ 0) : s.emLearnTurn p st = false := by
  rw [State.emLearnTurn, EmStage.free, decide_eq_false h, Bool.false_and, Bool.false_and, Bool.false_and]

theorem State.learnProcess_busy (h : (s.emStage p st).busy ≠ 0) : s.learnProcess p st = s := by
  rw [State.learnProcess, State.emLearnTurn_busy h, if_neg Bool.false_ne_true]

theorem State.stashReinsert_busy (h : (s.emStage p st).busy ≠ 0) : s.stashReinsert p st = s := by
  unfold State.stashReinsert
  split
  · rfl
  · rw [State.emLearnTurn_busy h, Bool.not_false, Bool.true_or, if_pos rfl]

theorem State.parityInvalidate_busy (h : (s.emStage p st).busy ≠ 0) : s.parityInvalidate p st = s := by
  rw [State.parityInvalidate, EmStage.free, decide_eq_false h, Bool.not_false, if_pos rfl]

theorem State.flushStep_busy (h : (s.emStage p st).busy ≠ 0) : s.flushStep p st = s := by
  rw [State.flushStep, EmStage.free, decide_eq_false h, Bool.false_and, if_neg Bool.false_ne_true]

/-! ### The learn request at the head (R173, R181) -/

section

variable {q : LearnReq} {rest : List LearnReq} {s1 s2 : State} {notes on : List (Nat × Nat × Bytes)}
  (hlearn : (s.emStage p st).learn = q :: rest) (h1 : s1 = s.setEmStage p st { s.emStage p st with learn := rest })
  (hout : s1.learnOutcome p st q = (notes, s2)) (hon : on = notes.filter fun n => s.noteOn p st q.table n.1)

include hlearn h1 hout hon

theorem State.learnNext_head : s.learnNext p st =
    if s.noteRoom p st < on.length then none else some (on.foldl (fun s n => s.pushNote p st n.1 n.2.1 n.2.2) s2) := by
  subst h1 hon
  simp only [State.learnNext, hlearn, hout]

theorem State.learnProcess_room (hturn : s.emLearnTurn p st = true) (hroom : on.length ≤ s.noteRoom p st) :
    s.learnProcess p st = on.foldl (fun s n => s.pushNote p st n.1 n.2.1 n.2.2) s2 := by
  rw [State.learnProcess, if_pos hturn, State.learnNext_head hlearn h1 hout hon, if_neg (Nat.not_lt.mpr hroom), Option.getD_some]

theorem State.learnProcess_full (hturn : s.emLearnTurn p st = true) (hfull : s.noteRoom p st < on.length) : s.learnProcess p st = s := by
  rw [State.learnProcess, if_pos hturn, State.learnNext_head hlearn h1 hout hon, if_pos hfull, Option.getD_none]

end

/-- What an insertion of the entry `e` that a learn request asked for in table `t` reports and counts (Table 6.3). -/
def EmIns.learnt (o : EmIns × State) (p st t : Nat) (e : Bytes) : List (Nat × Nat × Bytes) × State :=
  match o with
  | (.inserted l, s) => ([(1, l, e)], s.addCnt (C.EM_LEARNED p st t) 1)
  | (.stashed l, s) => ([(1, l, e)], s.addCnt (C.EM_LEARNED p st t) 1)
  | (.evicted l v, s) => ([(1, l, e), (5, l, v.bytes)], s.addCnt (C.EM_LEARNED p st t) 1)
  | (.failed, s) => ([(6, t * 2 ^ 20, e)], s.addCnt (C.EM_INSERT_FAIL p st t) 1)

theorem EmIns.learnt_eq {o : EmIns × State} {t : Nat} {e : Bytes} {notes : List (Nat × Nat × Bytes)} {s2 : State}
    (h : EmIns.learnt o p st t e = (notes, s2)) :
    (∀ l, o.1 = .inserted l ∨ o.1 = .stashed l → notes = [(1, l, e)] ∧ s2 = o.2.addCnt (C.EM_LEARNED p st t) 1) ∧
    (∀ l old, o.1 = .evicted l old → notes = [(1, l, e), (5, l, old.bytes)] ∧ s2 = o.2.addCnt (C.EM_LEARNED p st t) 1) ∧
    (o.1 = .failed → notes = [(6, t * 2 ^ 20, e)] ∧ s2 = o.2.addCnt (C.EM_INSERT_FAIL p st t) 1) := by
  obtain ⟨i, s'⟩ := o
  have hnotes := congrArg Prod.fst h
  have hs2 := congrArg Prod.snd h
  refine ⟨fun l hi => ?_, fun l old hi => ?_, fun hi => ?_⟩
  · rcases hi with hi | hi <;> obtain rfl : i = _ := hi <;> exact ⟨hnotes.symm, hs2.symm⟩
  · obtain rfl : i = _ := hi
    exact ⟨hnotes.symm, hs2.symm⟩
  · obtain rfl : i = _ := hi
    exact ⟨hnotes.symm, hs2.symm⟩

/-- A key that no location holds, no marked one holds. -/
theorem State.emFind_marked_none {t : Nat} {key : Bytes} (h : (s.emFind p st t key fun _ => true).1 = none) :
    (s.emFind p st t key EmRow.marked).1 = none := by
  unfold State.emFind at h ⊢
  rw [List.find?_eq_none] at h ⊢
  intro l hl hm
  refine h l hl ?_
  simp only [Bool.and_eq_true] at hm ⊢
  obtain ⟨⟨⟨hv, hb⟩, -⟩, hk⟩ := hm
  exact ⟨⟨⟨hv, hb⟩, trivial⟩, hk⟩

/-- The machine after the parity errors that the search for a learn request's key finds. -/
def State.learnRead (s : State) (p st : Nat) (q : LearnReq) : State := s.emParities p st (s.emFind p st q.table q.key fun _ => true).2

theorem State.learnOutcome_absent {q : LearnReq} (h : (s.emFind p st q.table q.key fun _ => true).1 = none) :
    s.learnOutcome p st q = EmIns.learnt ((s.learnRead p st q).emInsert p st q.table (emEntry (s.emE p st q.table) false q.action q.key q.data)
      3 true) p st q.table (emEntry (s.emE p st q.table) false q.action q.key q.data) := by
  have hor : (s.emFind p st q.table q.key EmRow.marked).1.or (s.emFind p st q.table q.key fun _ => true).1 = none := by
    rw [h, State.emFind_marked_none h]
    rfl
  simp only [State.learnOutcome, hor]
  rfl

section

variable {q : LearnReq} {t l : Nat} {s3 : State} {r : EmRow} {e : Bytes} {data : Bytes → Bytes} (ht : t = q.table)
  (hhit : (s.emFind p st t q.key EmRow.marked).1.or (s.emFind p st t q.key fun _ => true).1 = some l)
  (h3 : s3 = s.emParities p st (s.emFind p st t q.key fun _ => true).2)
  (hr : r = s3.emRow p st l) (he : e = emEntry (s.emE p st t) false q.action q.key q.data)
  (hdata : data = fun b => (fitBytes (s3.emE p st t) b).drop (4 + s3.emK p st t))

include ht hhit h3 hr he hdata

/-- A key that a location holds is refused, or refreshes the entry, or rewrites it (Table 6.3, R261). -/
theorem State.learnOutcome_present : s.learnOutcome p st q =
    if (r.static || r.marked) = true then ([(3, l, fitBytes 48 r.bytes ++ slice e 4 16)], s3.addCnt (C.EM_MOVE_REFUSED p st t) 1)
    else if r.action = q.action ∧ data r.bytes = data e then
      ([], (s3.setEmRow p st l { r with ts := s3.emUnit p st t, tsBad := false }).addCnt (C.EM_LEARN_REFRESH p st t) 1)
    else ([(2, l, e)], (s3.setEmRow p st l { bytes := e, ts := s3.emUnit p st t }).addCnt (C.EM_MOVED p st t) 1) := by
  subst ht he hdata hr h3
  simp only [State.learnOutcome, hhit]

theorem State.learnOutcome_refused (h : r.static = true ∨ r.marked = true) :
    s.learnOutcome p st q = ([(3, l, fitBytes 48 r.bytes ++ slice e 4 16)], s3.addCnt (C.EM_MOVE_REFUSED p st t) 1) := by
  rw [State.learnOutcome_present ht hhit h3 hr he hdata, if_pos (Bool.or_eq_true_iff.mpr h)]

theorem State.learnOutcome_dynamic (hs : r.static = false) (hm : r.marked = false) : s.learnOutcome p st q =
    if r.action = q.action ∧ data r.bytes = data e then
      ([], (s3.setEmRow p st l { r with ts := s3.emUnit p st t, tsBad := false }).addCnt (C.EM_LEARN_REFRESH p st t) 1)
    else ([(2, l, e)], (s3.setEmRow p st l { bytes := e, ts := s3.emUnit p st t }).addCnt (C.EM_MOVED p st t) 1) := by
  rw [State.learnOutcome_present ht hhit h3 hr he hdata, if_neg (by rw [hs, hm]; decide)]

end

/-! ### Reinsertion from the stash (R171) -/

section

variable {loc : Nat} {rest : List Nat} {s1 : State} (hturn : s.emLearnTurn p st = true) (hnext : s.learnNext p st = none)
  (hfreed : (s.emStage p st).freed = loc :: rest) (h1 : s1 = s.setEmStage p st { s.emStage p st with freed := rest })

include hturn hnext hfreed h1

theorem State.stashReinsert_none (hpick : s1.stashPick p st loc = none) : s.stashReinsert p st = s1 := by
  subst h1
  simp only [State.stashReinsert, hfreed, hturn, hnext, hpick, Bool.not_true, Option.isSome_none, Bool.or_self, Bool.false_eq_true, if_false]

variable {l : Nat} {s2 s3 : State} {r : EmRow} (hpick : s1.stashPick p st loc = some l) (h2 : s2 = s1.emTsRead p st l) (hr : r = s2.emRow p st l)

include hpick h2 hr

theorem State.stashReinsert_placed {d : Nat}
    (hplace : s2.emPlace p st (locTable loc) 0 (r.key (s2.emK p st (locTable loc))) = (some d, s3)) :
    s.stashReinsert p st = (s3.setEmRow p st d r).setEmRow p st l r.clear := by
  subst h1 h2 hr
  simp only [State.stashReinsert, hfreed, hturn, hnext, hpick, hplace, Bool.not_true, Option.isSome_none, Bool.or_self, Bool.false_eq_true,
    if_false]

theorem State.stashReinsert_stays (hplace : s2.emPlace p st (locTable loc) 0 (r.key (s2.emK p st (locTable loc))) = (none, s3)) :
    s.stashReinsert p st = s3 := by
  subst h1 h2 hr
  simp only [State.stashReinsert, hfreed, hturn, hnext, hpick, hplace, Bool.not_true, Option.isSome_none, Bool.or_self, Bool.false_eq_true,
    if_false]

end

/-! ### Invalidation (R178) -/

theorem State.parityInvalidate_head {loc : Nat} {rest : List Nat} {s1 : State} (hfree : (s.emStage p st).busy = 0)
    (hclear : (s.emStage p st).toClear = loc :: rest) (h1 : s1 = s.setEmStage p st { s.emStage p st with toClear := rest }) :
    s.parityInvalidate p st = if (s.emRow p st loc).bad.isEmpty then s1
      else (s1.emClear p st loc).pushNote p st 7 loc (s.emRow p st loc).bytes := by
  have hrow : s1.emRow p st loc = s.emRow p st loc := h1 ▸ State.emRow_setEmStage (by rfl) loc
  rw [State.parityInvalidate, EmStage.free, decide_eq_true hfree, if_neg (by decide), hclear, ← hrow, h1]

/-! ### Flushing (R182) -/

section

variable {i : Nat} (hfree : (s.emStage p st).busy = 0) (hclear : (s.emStage p st).toClear = []) (hflush : (s.emStage p st).flush = some i)

include hfree hclear hflush

theorem State.flushStep_ways {s1 : State} {t : Nat} (ht : t = s.fld (R.STG_IA_CMD p st) F.STG_IA_CMD.TABLE) (hi : i * 16 < s.emD p st t)
    (h1 : s1 = s.flushLocs p st ((List.range 16).flatMap fun k => (List.range 4).map fun w => wayLoc t w (i * 16 + k))) :
    s.flushStep p st = s1.setEmStage p st { s1.emStage p st with flush := some (i + 1) } := by
  subst ht h1
  simp only [State.flushStep, EmStage.free, hfree, hclear, hflush, hi, List.isEmpty_nil, decide_true, Bool.and_self, if_true]

theorem State.flushStep_stash {s1 : State} {t : Nat} (ht : t = s.fld (R.STG_IA_CMD p st) F.STG_IA_CMD.TABLE) (hi : s.emD p st t ≤ i * 16)
    (h1 : s1 = s.flushLocs p st (stashLocs t)) : s.flushStep p st =
      ((s1.setEmStage p st { s1.emStage p st with flush := none }).setBit (R.STG_IA_CMD p st) F.STG_IA_CMD.GO false).iaDone p st 0 0 := by
  subst ht h1
  simp only [State.flushStep, EmStage.free, hfree, hclear, hflush, Nat.not_lt.mpr hi, List.isEmpty_nil, decide_true, Bool.and_self, if_true,
    if_false]

end

/-! ### The answer of an operation -/

theorem iaCmd_ne_status (p st : Nat) : R.STG_IA_CMD p st ≠ R.STG_IA_STATUS p st := by unfold R.STG_IA_CMD R.STG_IA_STATUS; omega

/-- The answer is a register of its own. -/
theorem State.iaDone_cmd (res loc : Nat) : (s.iaDone p st res loc).reg (R.STG_IA_CMD p st) = s.reg (R.STG_IA_CMD p st) :=
  State.reg_setReg_ne _ _ _ _ (iaCmd_ne_status p st)

theorem State.iaDone_status (res loc : Nat) :
    (s.iaDone p st res loc).reg (R.STG_IA_STATUS p st) = BitVec.ofNat 32 (res * 2 ^ 28 + loc % 2 ^ 20) := State.reg_setReg ..

theorem State.iaDone_goDown (res loc : Nat) : ((s.setBit (R.STG_IA_CMD p st) F.STG_IA_CMD.GO false).iaDone p st res loc).bit
    (R.STG_IA_CMD p st) F.STG_IA_CMD.GO = false :=
  (State.bit_of_reg (State.iaDone_cmd ..)).trans (State.bit_setBit _ _ _ _ (by decide) (by decide))

/-- Settles O31: what runs keeps the engine from its own work, and each piece of that work is one of the equations above. -/
theorem emEngine : Obligations.EmEngine := by
  unfold Obligations.EmEngine
  intro p st s
  refine ⟨fun h => ?_, fun hon hfree => ⟨fun q rest s1 notes s2 on hturn hlearn h1 hout hnotes => ⟨fun hroom => ?_, fun hfull => ?_⟩,
    fun loc rest s1 hturn hnext hfreed h1 => ⟨fun hpick => ?_, fun l s2 r hpick h2 hr => ⟨fun d s3 hplace => ?_, fun s3 hplace => ?_⟩⟩,
    fun loc rest s1 hclear h1 => ⟨fun hgood => ?_, fun hbad => ?_⟩,
    fun i t hclear hflush ht => ⟨fun hi => ⟨_, rfl, ?_⟩, fun hi => ⟨_, _, _, rfl, rfl, ?_, rfl, State.iaDone_goDown .., ?_⟩⟩⟩,
    fun q rest t notes s2 _ ht hnone hout => ?_,
    fun q rest t l s3 r e data _ ht hhit h3 hr he hdata => ⟨fun hrefused => ?_, fun hs hm => ⟨fun hact hsame => ?_, fun hother => ?_⟩⟩⟩
  · rcases h with hoff | hbusy
    · have hno (t : State) : (if s.stageOn p st then t else s) = s := if_neg (by rw [hoff]; decide)
      exact ⟨congrArg Host.Outcome.next (hno _), congrArg Host.Outcome.next (hno _), congrArg Host.Outcome.next (hno _),
        congrArg Host.Outcome.next (hno _)⟩
    · have hsame {t : State} (ht : t = s) : (if s.stageOn p st then t else s) = s := by rw [ht, ite_self]
      exact ⟨congrArg Host.Outcome.next (hsame (State.learnProcess_busy hbusy)),
        congrArg Host.Outcome.next (hsame (State.stashReinsert_busy hbusy)),
        congrArg Host.Outcome.next (hsame (State.parityInvalidate_busy hbusy)),
        congrArg Host.Outcome.next (hsame (State.flushStep_busy hbusy))⟩
  · exact congrArg Host.Outcome.next ((if_pos hon).trans (State.learnProcess_room hlearn h1 hout hnotes hturn hroom))
  · exact congrArg Host.Outcome.next ((if_pos hon).trans (State.learnProcess_full hlearn h1 hout hnotes hturn hfull))
  · exact congrArg Host.Outcome.next ((if_pos hon).trans (State.stashReinsert_none hturn hnext hfreed h1 hpick))
  · exact congrArg Host.Outcome.next ((if_pos hon).trans (State.stashReinsert_placed hturn hnext hfreed h1 hpick h2 hr hplace))
  · exact congrArg Host.Outcome.next ((if_pos hon).trans (State.stashReinsert_stays hturn hnext hfreed h1 hpick h2 hr hplace))
  · exact congrArg Host.Outcome.next ((if_pos hon).trans ((State.parityInvalidate_head hfree hclear h1).trans (if_pos (List.isEmpty_iff.mpr hgood))))
  · exact congrArg Host.Outcome.next ((if_pos hon).trans ((State.parityInvalidate_head hfree hclear h1).trans
      (if_neg fun h => hbad (List.isEmpty_iff.mp h))))
  · exact congrArg Host.Outcome.next ((if_pos hon).trans (State.flushStep_ways hfree hclear hflush ht hi rfl))
  · exact congrArg Host.Outcome.next ((if_pos hon).trans (State.flushStep_stash hfree hclear hflush ht hi rfl))
  · rw [State.iaDone_status]
    rfl
  · subst ht
    rw [State.learnOutcome_absent hnone] at hout
    exact ⟨_, _, _, rfl, rfl, rfl, EmIns.learnt_eq hout⟩
  · exact ⟨_, State.learnOutcome_refused ht hhit h3 hr he hdata hrefused⟩
  · rw [State.learnOutcome_dynamic ht hhit h3 hr he hdata hs hm, if_pos ⟨hact, hsame⟩]
  · rw [State.learnOutcome_dynamic ht hhit h3 hr he hdata hs hm, if_neg fun h => hother.elim (fun ha => ha h.1) fun hd => hd h.2]

end Sys2Proof.Machine
end

section
/-! SUPPORT. Indirect access to the exact-match tables (R168, R182, Table 6.6; O30): a command is taken, and the engine carries it out. -/

namespace Sys2Proof.Machine

variable {s : State}

/-! ### STG_IA_CMD -/

/-- Whether a pipeline is held does not follow from the registers of the pipelines' windows. -/
theorem State.pipeHeld_setReg {a : Nat} (v : Word) {p : Nat} (ha : 0x10000000 ≤ a) (hp : p < 16) :
    (s.setReg a v).pipeHeld p = s.pipeHeld p := by
  have hat : AtPit s (s.setReg a v) := s.setReg_atPit v (by omega)
  have hn : s.ownerOfPipe p < 32 := s.ownerOfPipe_lt p
  have hreg {b : Nat} (hb : b < 0x10000000) : (s.setReg a v).reg b = s.reg b := State.reg_setReg_ne _ _ _ _ (by omega)
  have hctl : (s.setReg a v).reg (R.PIT_CTL (s.ownerOfPipe p)) = s.reg (R.PIT_CTL (s.ownerOfPipe p)) := hreg (by unfold R.PIT_CTL; omega)
  have hfail (d : Nat) (hd : d < 128) : (s.setReg a v).domBit R.PST_DOM_FAIL d = s.domBit R.PST_DOM_FAIL d := by
    unfold State.domBit
    rw [hreg (by unfold R.PST_DOM_FAIL; omega)]
  unfold State.pipeHeld State.inReset State.pipeFailed
  rw [hat.ownerOfPipe hp, hat.pitchExists, State.bit_of_reg hctl, State.bit_of_reg hctl, hfail _ (by omega), hfail _ (by omega),
    hfail _ (by omega), State.setReg_irq]

/-- The word that an indirect command writes: that of its operand, with its operation and GO. -/
def iaWord (v : Word) (op : Nat) : Word := putFlds v [(F.STG_IA_CMD.OP, op), (F.STG_IA_CMD.GO, 1)]

theorem fldOf_iaWord_go (v : Word) (op : Nat) : fldOf (iaWord v op) F.STG_IA_CMD.GO = 1 := fldOf_putFld _ _ _ (by decide)

theorem fldOf_iaWord_op (v : Word) {op : Nat} (h : op < 16) : fldOf (iaWord v op) F.STG_IA_CMD.OP = op :=
  (fldOf_putFld_ne (putFld v F.STG_IA_CMD.OP op) _ _ _ (by decide) (by decide)).trans
    ((fldOf_putFld v F.STG_IA_CMD.OP op (by decide)).trans (Nat.mod_eq_of_lt h))

/-- The table and the location are those of the operand. -/
theorem fldOf_iaWord {v : Word} {op : Nat} {f : Fld} (h : f.lo + f.w ≤ 24) : fldOf (iaWord v op) f = fldOf v f :=
  (fldOf_putFld_ne (putFld v F.STG_IA_CMD.OP op) _ _ _ (by decide) (.inl (Nat.le_trans h (by decide)))).trans
    (fldOf_putFld_ne v F.STG_IA_CMD.OP _ op (by decide) (.inl h))

section

variable {fn : FnNo} {p : PipeNo} {st : StageNo} {v : Word} {op : Nat}

theorem State.physAddr_STG_IA_CMD : s.physAddr fn (R.STG_IA_CMD p st) = some (R.STG_IA_CMD p st) :=
  State.physAddr_self (region_STG_IA_CMD p st p.isLt st.isLt) (by show ¬ (0x3840 ≤ _ ∧ _); unfold R.STG_IA_CMD; omega)

/-- The state in which an indirect command is judged. -/
def State.iaWritten (s : State) (fn : FnNo) (p : PipeNo) (st : StageNo) (v : Word) (op : Nat) : State :=
  s.wrote fn (R.STG_IA_CMD p st) (iaWord v op)

theorem State.iaWritten_reg_ne {b : Nat} (h : b ≠ R.STG_IA_CMD p st) : (s.iaWritten fn p st v op).reg b = s.reg b :=
  State.wrote_reg_ne (findReg_STG_IA_CMD p st p.isLt st.isLt) State.physAddr_STG_IA_CMD h

theorem State.iaWritten_fld {f : Fld}
    (h : f ∈ [F.STG_IA_CMD.OP, F.STG_IA_CMD.TABLE, F.STG_IA_CMD.STASH, F.STG_IA_CMD.WAY, F.STG_IA_CMD.ROW]) :
    (s.iaWritten fn p st v op).fld (R.STG_IA_CMD p st) f = fldOf (iaWord v op) f := by
  refine State.fld_wrote (findReg_STG_IA_CMD p st p.isLt st.isLt) State.physAddr_STG_IA_CMD ?_ ?_ <;> revert f <;> decide

theorem State.iaWritten_eq : ∃ w, s.iaWritten fn p st v op = s.setReg (R.STG_IA_CMD p st) w :=
  ⟨_, State.wrote_at (findReg_STG_IA_CMD p st p.isLt st.isLt) State.physAddr_STG_IA_CMD⟩

/-- A permitted indirect command is judged where none runs. -/
theorem State.command_ia (hw : s.writable fn (R.STG_IA_CMD p st) = true) (hidle : s.bit (R.STG_IA_CMD p st) F.STG_IA_CMD.GO = false) :
    s.command fn (R.STG_IA_CMD p st) v [(F.STG_IA_CMD.OP, op), (F.STG_IA_CMD.GO, 1)] =
      ((s.iaWritten fn p st v op).iaGo p st).settle s := by
  have hgo : fldOf (taken (R.STG_IA_CMD p st) (iaWord v op)) F.STG_IA_CMD.GO = 1 :=
    (fldOf_taken (findReg_STG_IA_CMD p st p.isLt st.isLt) _ _ (by decide)).trans (fldOf_iaWord_go v op)
  refine (State.command_STG_IA_CMD p st p.isLt st.isLt hw).trans ?_
  have hplain := State.plainWrite_wrote (s := s) (fn := fn) (v := iaWord v op) (w := ⟨host fn, R.STG_IA_CMD p st, R.STG_IA_CMD p st, .stg p st, _, [],
    taken (R.STG_IA_CMD p st) (iaWord v op), none, none⟩) (findReg_STG_IA_CMD p st p.isLt st.isLt) State.physAddr_STG_IA_CMD rfl
    (by simp) (by dsimp only)
  change State.settle (State.regAct s ⟨_, _, _, _, _, _, taken (R.STG_IA_CMD p st) (iaWord v op), _, _⟩) s = _
  simp only [State.regAct, State.writeStg, Wr.bit, hidle, hgo, hplain, Bool.false_eq_true, if_false, ne_eq, one_ne_zero, not_false_eq_true,
    decide_true, if_true]
  rfl

end

/-- GO leaves the other fields of its register. -/
theorem State.fld_setGo {x : State} {p st : Nat} (h : x.regs = s.regs) (b : Bool) {f : Fld}
    (hf : f ∈ [F.STG_IA_CMD.OP, F.STG_IA_CMD.TABLE, F.STG_IA_CMD.STASH, F.STG_IA_CMD.WAY, F.STG_IA_CMD.ROW]) :
    (x.setBit (R.STG_IA_CMD p st) F.STG_IA_CMD.GO b).fld (R.STG_IA_CMD p st) f = s.fld (R.STG_IA_CMD p st) f := by
  have hlow : ∀ f ∈ [F.STG_IA_CMD.OP, F.STG_IA_CMD.TABLE, F.STG_IA_CMD.STASH, F.STG_IA_CMD.WAY, F.STG_IA_CMD.ROW], f.lo + f.w ≤ 31 := by
    decide
  exact (State.fld_setFld_beside _ _ _ _ _ (by decide) (.inl (hlow f hf))).trans (State.fld_of_reg (State.reg_of_regs h _))

/-! ### What is judged (Table 6.6) -/

theorem emCfg_ne_iaCmd (p st : Nat) {t : Nat} (ht : t < 4) : R.STG_EM_CFG p st t ≠ R.STG_IA_CMD p st := by
  unfold R.STG_EM_CFG R.STG_IA_CMD
  omega

theorem State.emDefined_of_reg {x : State} {p st t : Nat} (h : x.reg (R.STG_EM_CFG p st t) = s.reg (R.STG_EM_CFG p st t)) :
    x.emDefined p st t = s.emDefined p st t := by
  unfold State.emDefined
  rw [State.bit_of_reg h]

/-- An operation of Table 6.6, on a defined table and, where it names a location, on one of its locations. -/
theorem State.iaBad_false {p st op t row : Nat} (hop : op = s.fld (R.STG_IA_CMD p st) F.STG_IA_CMD.OP)
    (ht : t = s.fld (R.STG_IA_CMD p st) F.STG_IA_CMD.TABLE) (hrow : row = s.fld (R.STG_IA_CMD p st) F.STG_IA_CMD.ROW) (h7 : op < 7)
    (hdef : s.emDefined p st t = true)
    (hin : op ≤ 1 → if s.bit (R.STG_IA_CMD p st) F.STG_IA_CMD.STASH then row < 16 else row < s.emD p st t) : s.iaBad p st = false := by
  subst ht hop hrow
  by_cases h1 : s.fld (R.STG_IA_CMD p st) F.STG_IA_CMD.OP ≤ 1
  · have hin := hin h1
    unfold State.iaBad
    split at hin
    · next hs => simp only [hdef, hs, Nat.not_le.mpr h7, show ¬ 15 < s.fld (R.STG_IA_CMD p st) F.STG_IA_CMD.ROW by omega, if_true,
        decide_false, Bool.not_true, Bool.and_false, Bool.or_self]
    · next hs => simp only [hdef, hs, Nat.not_le.mpr h7, Nat.not_le.mpr hin, Bool.false_eq_true, if_false, decide_false, Bool.not_true,
        Bool.and_false, Bool.or_self]
  · simp only [State.iaBad, hdef, Nat.not_le.mpr h7, h1, decide_false, Bool.not_true, Bool.false_and, Bool.or_self]

theorem State.iaGo_takes {p st : Nat} (hheld : s.pipeHeld p = false) (himg : (s.pipe p).img.isSome = true) (hbad : s.iaBad p st = false) :
    s.iaGo p st = (s.iaTake p st .indirect).iaDone p st 0xF 0 := by
  have hnone : (s.pipe p).img.isNone = false := by rw [← Option.not_isSome, himg, Bool.not_true]
  simp only [State.iaGo, hheld, hnone, hbad, Bool.or_self, Bool.false_eq_true, if_false]

section

variable {fn : FnNo} {p : PipeNo} {st : StageNo} {v : Word} {op t : Nat} (hw : s.writable fn (R.STG_IA_CMD p st) = true)
  (hidle : s.bit (R.STG_IA_CMD p st) F.STG_IA_CMD.GO = false) (hheld : s.pipeHeld p = false) (himg : (s.pipe p).img.isSome = true)
  (ht : t = fldOf v F.STG_IA_CMD.TABLE) (hdef : s.emDefined p st t = true) (h7 : op < 7)
  (hin : op ≤ 1 → if fldOf v F.STG_IA_CMD.STASH = 0 then fldOf v F.STG_IA_CMD.ROW < s.emD p st t else fldOf v F.STG_IA_CMD.ROW < 16)

include hw hidle hheld himg ht hdef h7 hin

/-- A command of an operation of Table 6.6 on a loaded pipeline is taken. -/
theorem State.command_ia_taken : s.command fn (R.STG_IA_CMD p st) v [(F.STG_IA_CMD.OP, op), (F.STG_IA_CMD.GO, 1)] =
    ((((s.iaWritten fn p st v op).iaTake p st .indirect).iaDone p st 0xF 0)).settle s := by
  have h4 : t < 4 := ht ▸ Nat.mod_lt _ (by decide)
  have hcfg : (s.iaWritten fn p st v op).reg (R.STG_EM_CFG p st t) = s.reg (R.STG_EM_CFG p st t) :=
    State.iaWritten_reg_ne (emCfg_ne_iaCmd p st h4)
  have hstash : (s.iaWritten fn p st v op).bit (R.STG_IA_CMD p st) F.STG_IA_CMD.STASH = decide (fldOf v F.STG_IA_CMD.STASH ≠ 0) := by
    rw [State.bit, State.iaWritten_fld (by decide), fldOf_iaWord (by decide)]
  obtain ⟨w, hwritten⟩ := State.iaWritten_eq (s := s) (fn := fn) (p := p) (st := st) (v := v) (op := op)
  have hbad : (s.iaWritten fn p st v op).iaBad p st = false := by
    refine State.iaBad_false (op := op) (t := t) (row := fldOf v F.STG_IA_CMD.ROW) ?_ ?_ ?_ h7 ?_ fun h1 => ?_
    · rw [State.iaWritten_fld (by decide), fldOf_iaWord_op v (by omega)]
    · rw [State.iaWritten_fld (by decide), fldOf_iaWord (by decide), ht]
    · rw [State.iaWritten_fld (by decide), fldOf_iaWord (by decide)]
    · exact (State.emDefined_of_reg hcfg).trans hdef
    · rw [hstash, State.emD, State.fld_of_reg hcfg]
      have hin := hin h1
      by_cases h0 : fldOf v F.STG_IA_CMD.STASH = 0
      · rw [if_pos h0] at hin
        rwa [if_neg (by simp [h0])]
      · rw [if_neg h0] at hin
        rwa [if_pos (decide_eq_true h0)]
  have hheld : (s.iaWritten fn p st v op).pipeHeld p = false := by
    rw [hwritten, State.pipeHeld_setReg _ (by unfold R.STG_IA_CMD; omega) p.isLt]
    exact hheld
  have hpipe : (s.iaWritten fn p st v op).pipe p = s.pipe p := by
    rw [hwritten, State.pipe, State.setReg_pipes]
    rfl
  rw [State.command_ia hw hidle, State.iaGo_takes hheld (by rw [hpipe]; exact himg) hbad]

end

section

variable {fn : FnNo} {p : PipeNo} {st : StageNo} {v : Word} {op : Nat} {s1 : State}
  (h1 : s1 = ((s.iaWritten fn p st v op).iaTake p st .indirect).iaDone p st 0xF 0)

include h1

/-- A command that is taken shows GO and RESULT 0xF, and stands as source 2 of its engine. -/
theorem State.iaTaken_go : s1.bit (R.STG_IA_CMD p st) F.STG_IA_CMD.GO = true ∧ (s1.emStage p st).job = some .indirect ∧
    s1.reg (R.STG_IA_STATUS p st) = 0xF0000000 := by
  subst h1
  refine ⟨(State.bit_of_reg (State.iaDone_cmd ..)).trans (State.bit_setBit _ _ _ _ (by decide) (by decide)),
    ?_, State.iaDone_status ..⟩
  rw [State.iaDone, State.emStage_of_em (State.setReg_em ..), State.iaTake, State.emStage_of_em (State.setBit_em ..),
    State.emStage_setEmStage]

theorem State.iaTaken_fld {f : Fld}
    (h : f ∈ [F.STG_IA_CMD.OP, F.STG_IA_CMD.TABLE, F.STG_IA_CMD.STASH, F.STG_IA_CMD.WAY, F.STG_IA_CMD.ROW]) :
    s1.fld (R.STG_IA_CMD p st) f = fldOf (iaWord v op) f := by
  subst h1
  rw [State.fld_of_reg (State.iaDone_cmd ..), State.iaTake, State.fld_setGo (State.setEmStage_regs ..) _ h, State.iaWritten_fld h]

end

/-! ### The turn of the engine (R168) -/

section

variable {p st : Nat}

theorem State.iaTurn_invalidates (hclear : (s.emStage p st).toClear ≠ [])
    (hjob : (s.emStage p st).job = none ∨ (s.emStage p st).onJob = false) (hbusy : 47 ≤ (s.emStage p st).busy) :
    s.iaTurn p st = (s.freeBool.2.setEmStage p st { s.emStage p st with busy := 0 }).parityInvalidate p st := by
  have hempty : (s.emStage p st).toClear.isEmpty = false := List.isEmpty_eq_false_iff.mpr hclear
  have hrun : (s.emStage p st).free = false := decide_eq_false (by omega)
  have hlate : ¬ (s.emStage p st).busy < 47 := by omega
  have hon : ((s.emStage p st).job.isSome && ((s.emStage p st).onJob || false)) = false := by
    rcases hjob with h | h <;> simp [h]
  simp only [State.iaTurn, hempty, hrun, hon, hlate, Bool.false_and, Bool.false_eq_true, if_false, decide_false, Bool.and_false,
    Bool.not_false, if_true]

theorem State.iaTurn_indirect (hclear : (s.emStage p st).toClear = [] ∨ (s.emStage p st).onJob = true)
    (hjob : (s.emStage p st).job = some .indirect) (hbusy : 47 ≤ (s.emStage p st).busy) :
    s.iaTurn p st = (((s.freeBool.2.setEmStage p st { s.emStage p st with busy := 0 }).setEmStage p st
      { s.emStage p st with busy := 0, job := none }).setBit (R.STG_IA_CMD p st) F.STG_IA_CMD.GO false).iaRun p st := by
  have hrun : (s.emStage p st).free = false := decide_eq_false (by omega)
  have hlate : ¬ (s.emStage p st).busy < 47 := by omega
  have hon : ((s.emStage p st).onJob || (s.emStage p st).toClear.isEmpty) = true := by
    rcases hclear with h | h <;> simp [h]
  simp only [State.iaTurn, hjob, hrun, hon, hlate, Option.isNone_some, Option.isSome_some, Bool.and_false, Bool.false_eq_true, if_false,
    decide_false, Bool.and_self, Bool.not_true]

end

/-- What ends an operation of the engine changes a register, the tables' stages and the next free value. -/
theorem State.setBit_rest (s : State) (p st : Nat) (e e' : EmStage) (a : Nat) (f : Fld) (b : Bool) :
    { ((s.freeBool.2.setEmStage p st e).setEmStage p st e').setBit a f b with regs := s.regs, em := s.em, freeIx := s.freeIx } = s := rfl

/-! ### The operations (Table 6.6) -/

section

variable {p st : Nat}

/-- What the engine does for the operation `op` of table `t`, at the location `loc` where it names one. -/
def State.iaAct (s : State) (p st op t loc : Nat) : State :=
  match op with
  | 0 => s.iaRead p st loc
  | 1 => s.iaWrite p st loc
  | 2 => s.iaLookup p st t
  | 3 => s.iaInsert p st t
  | 4 => s.iaUpdate p st t
  | 5 => s.iaDelete p st t
  | _ => s.iaFlush p st

theorem State.iaRun_acts {op t row loc : Nat} (hop : op = s.fld (R.STG_IA_CMD p st) F.STG_IA_CMD.OP)
    (ht : t = s.fld (R.STG_IA_CMD p st) F.STG_IA_CMD.TABLE) (hrow : row = s.fld (R.STG_IA_CMD p st) F.STG_IA_CMD.ROW)
    (hloc : loc = if s.bit (R.STG_IA_CMD p st) F.STG_IA_CMD.STASH then stashLoc t row
      else wayLoc t (s.fld (R.STG_IA_CMD p st) F.STG_IA_CMD.WAY) row) (hbad : s.iaBad p st = false) :
    s.iaRun p st = s.iaAct p st op t loc := by
  unfold State.iaRun
  dsimp only
  rw [hbad, ← hop, ← ht, ← hrow, ← hloc, if_neg Bool.false_ne_true]
  unfold State.iaAct
  match op with
  | 0 | 1 | 2 | 3 | 4 | 5 => rfl
  | n + 6 => simp

theorem State.iaRead_good {loc : Nat} (h : (s.emRow p st loc).bad = []) : s.iaRead p st loc = (s.iaReturn p st loc).iaDone p st 0 loc := by
  simp only [State.iaRead, h, List.isEmpty_nil, if_true]

theorem State.iaRead_bad {loc : Nat} (h : (s.emRow p st loc).bad ≠ []) :
    s.iaRead p st loc = ((s.iaReturn p st loc).emParity p st loc false).iaDone p st 8 loc := by
  simp only [State.iaRead, List.isEmpty_eq_false_iff.mpr h, Bool.false_eq_true, if_false]

section

variable {t : Nat} {x y : State} (hfind : s.iaFind p st t = (none, x))

include hfind

theorem State.iaLookup_none : s.iaLookup p st t = x.iaDone p st 1 0 := by rw [State.iaLookup, hfind]

theorem State.iaUpdate_none : s.iaUpdate p st t = x.iaDone p st 1 0 := by rw [State.iaUpdate, hfind]

theorem State.iaDelete_none : s.iaDelete p st t = x.iaDone p st 1 0 := by rw [State.iaDelete, hfind]

theorem State.iaInsert_inserted {l : Nat} (h : x.emInsert p st t (x.iaEntry p st t) 3 true = (.inserted l, y)) :
    s.iaInsert p st t = y.iaDone p st 0 l := by simp only [State.iaInsert, hfind, h]

theorem State.iaInsert_stashed {l : Nat} (h : x.emInsert p st t (x.iaEntry p st t) 3 true = (.stashed l, y)) :
    s.iaInsert p st t = y.iaDone p st 2 l := by simp only [State.iaInsert, hfind, h]

theorem State.iaInsert_evicted {l : Nat} {old : EmRow} (h : x.emInsert p st t (x.iaEntry p st t) 3 true = (.evicted l old, y)) :
    s.iaInsert p st t = (y.setIaBytes p st (fitBytes (y.emE p st t) old.bytes)).iaDone p st 3 l := by simp only [State.iaInsert, hfind, h]

theorem State.iaInsert_failed (h : x.emInsert p st t (x.iaEntry p st t) 3 true = (.failed, y)) :
    s.iaInsert p st t = y.iaDone p st 4 0 := by simp only [State.iaInsert, hfind, h]

end

section

variable {t l : Nat} {x : State} (hfind : s.iaFind p st t = (some l, x))

include hfind

theorem State.iaLookup_some : s.iaLookup p st t = (x.iaReturn p st l).iaDone p st 0 l := by rw [State.iaLookup, hfind]

theorem State.iaInsert_held : s.iaInsert p st t = x.iaDone p st 5 l := by rw [State.iaInsert, hfind]

theorem State.iaUpdate_some : s.iaUpdate p st t = (x.emWrite p st l (x.iaEntry p st t)).iaDone p st 0 l := by rw [State.iaUpdate, hfind]

theorem State.iaDelete_some : s.iaDelete p st t = ((x.emClear p st l).emFreed p st l).iaDone p st 0 l := by rw [State.iaDelete, hfind]

end

end

/-- Settles O30: a command that is well formed is taken, its engine ends it after what stands before it, and each operation is one of the
equations above. -/
theorem emIndirect : Obligations.EmIndirect := by
  unfold Obligations.EmIndirect
  refine ⟨fun fn p st v s t s1 hw hidle hheld himg ht hdef hs1 => ?_, fun p st s hclear hjob hbusy => ?_,
    fun p st s hclear hjob hbusy => ?_, fun p st s op t row loc hop ht hrow hdef hloc => ?_⟩
  · have htaken {op : Nat} (h7 : op < 7) (hin : op ≤ 1 → if fldOf v F.STG_IA_CMD.STASH = 0 then fldOf v F.STG_IA_CMD.ROW < s.emD p st t
        else fldOf v F.STG_IA_CMD.ROW < 16) :
        s.command fn (R.STG_IA_CMD p st) v [(F.STG_IA_CMD.OP, op), (F.STG_IA_CMD.GO, 1)] = (s1 op).settle s := by
      rw [hs1]
      exact State.command_ia_taken hw hidle hheld himg ht hdef h7 hin
    have hkey {op : Nat} (h7 : op < 7) (h2 : 2 ≤ op) := htaken h7 fun h1 => absurd h1 (by omega)
    refine ⟨fun hrow hstash => ?_, congrArg Host.Outcome.next (hkey (op := 2) (by decide) (by decide)),
      congrArg Host.Outcome.next (hkey (op := 3) (by decide) (by decide)), congrArg Host.Outcome.next (hkey (op := 4) (by decide) (by decide)),
      congrArg Host.Outcome.next (hkey (op := 5) (by decide) (by decide)), congrArg Host.Outcome.next (hkey (op := 6) (by decide) (by decide)),
      fun op h7 => ?_⟩
    · have hin : if fldOf v F.STG_IA_CMD.STASH = 0 then fldOf v F.STG_IA_CMD.ROW < s.emD p st t else fldOf v F.STG_IA_CMD.ROW < 16 := by
        split
        · exact hrow ‹_›
        · exact hstash ‹_›
      exact ⟨congrArg Host.Outcome.next (htaken (op := 0) (by decide) fun _ => hin),
        congrArg Host.Outcome.next (htaken (op := 1) (by decide) fun _ => hin)⟩
    · obtain ⟨hgo, hjob, hstatus⟩ := State.iaTaken_go (hs1 op)
      refine ⟨hgo, hjob, ?_, ?_, hstatus⟩
      · rw [State.iaTaken_fld (hs1 op) (by decide), fldOf_iaWord_op v (by omega)]
      · rw [State.iaTaken_fld (hs1 op) (by decide), fldOf_iaWord (by decide), ht]
  · exact ⟨_, State.iaTurn_invalidates hclear hjob hbusy, State.emStage_setEmStage _, rfl⟩
  · exact ⟨_, State.iaTurn_indirect hclear hjob hbusy, (State.emStage_of_em (State.setBit_em ..)).trans (State.emStage_setEmStage _),
      State.bit_setBit _ _ _ _ (by decide) (by decide), fun a ha => State.reg_setBit_ne _ _ _ _ _ ha,
      fun f hf => State.fld_setGo ((State.setEmStage_regs ..).trans (State.setEmStage_regs ..)) _ hf, State.setBit_rest ..⟩
  · have hrun (h7 : op < 7) (hin : op ≤ 1 → if s.bit (R.STG_IA_CMD p st) F.STG_IA_CMD.STASH then row < 16 else row < s.emD p st t) :
        s.iaRun p st = s.iaAct p st op t loc := State.iaRun_acts hop ht hrow hloc (State.iaBad_false hop ht hrow h7 hdef hin)
    have hkey {k : Nat} (hk : op = k) (h2 : 2 ≤ k) (h7 : k < 7) : s.iaRun p st = s.iaAct p st k t loc :=
      hk ▸ hrun (by omega) fun h1 => absurd h1 (by omega)
    have hat {k : Nat} (hk : op = k) (hin : if s.bit (R.STG_IA_CMD p st) F.STG_IA_CMD.STASH then row < 16 else row < s.emD p st t)
        (h1 : k ≤ 1) : s.iaRun p st = s.iaAct p st k t loc := hk ▸ hrun (by omega) fun _ => hin
    refine ⟨fun hin => ⟨fun h0 hgood => (hat h0 hin (by decide)).trans (State.iaRead_good hgood),
        fun h0 hbad => (hat h0 hin (by decide)).trans (State.iaRead_bad hbad), fun h1 => hat h1 hin (by decide)⟩,
      fun x hfind => ⟨fun h2 => (hkey h2 (by decide) (by decide)).trans (State.iaLookup_none hfind),
        fun h4 => (hkey h4 (by decide) (by decide)).trans (State.iaUpdate_none hfind),
        fun h5 => (hkey h5 (by decide) (by decide)).trans (State.iaDelete_none hfind),
        fun h3 => ⟨fun l y h => (hkey h3 (by decide) (by decide)).trans (State.iaInsert_inserted hfind h),
          fun l y h => (hkey h3 (by decide) (by decide)).trans (State.iaInsert_stashed hfind h),
          fun l old y h => (hkey h3 (by decide) (by decide)).trans (State.iaInsert_evicted hfind h),
          fun y h => (hkey h3 (by decide) (by decide)).trans (State.iaInsert_failed hfind h)⟩⟩,
      fun l x hfind => ⟨fun h2 => (hkey h2 (by decide) (by decide)).trans (State.iaLookup_some hfind),
        fun h3 => (hkey h3 (by decide) (by decide)).trans (State.iaInsert_held hfind),
        fun h4 => (hkey h4 (by decide) (by decide)).trans (State.iaUpdate_some hfind),
        fun h5 => (hkey h5 (by decide) (by decide)).trans (State.iaDelete_some hfind)⟩,
      fun h6 => hkey h6 (by decide) (by decide)⟩

end Sys2Proof.Machine
end

section
/-! SUPPORT. The queues of records and the calibration of a port (R180, R181, R378, R381, R396, R564; O47). -/

namespace Sys2Proof.Machine

variable {s : State}

/-! ### The queues -/

section

variable {fn : FnNo}

theorem exec_txqPop {n : PortNo} (h : s.writable fn (R.PORT_TS_TXQ_CTL n) = true) :
    exec (.txqPop fn n) s = .next ((s.setTxq n (s.txq n).tail).settle s) := by
  have hpop : fldOf (taken (R.PORT_TS_TXQ_CTL n) (putFlds 0 [(F.PORT_TS_TXQ_CTL.POP, 1)])) F.PORT_TS_TXQ_CTL.POP = 1 :=
    fldOf_taken_set (findReg_PORT_TS_TXQ_CTL n n.isLt) _ _ _ (by decide) (by decide)
  refine congrArg Host.Outcome.next ((State.command_PORT_TS_TXQ_CTL n n.isLt h).trans ?_)
  simp only [State.regAct, State.writePort, Wr.bit, hpop, ne_eq, one_ne_zero, not_false_eq_true, decide_true, if_true, State.txqPop]

/-- The page of Timetable registers that owner 0 would have holds none. -/
theorem State.writable_lateCtl_zero : s.writable fn (R.TT_LATE_CTL 0) = false := by
  have hg : regionOf (R.TT_LATE_CTL 0) = .none := by decide
  have hr : findReg (R.TT_LATE_CTL 0) = none := by decide
  have hc : findCnt (R.TT_LATE_CTL 0) = none := by decide
  have hp : s.physAddr fn (R.TT_LATE_CTL 0) = some (R.TT_LATE_CTL 0) := State.physAddr_self hg (by show _ ≠ _ ∧ _ ≠ _; decide)
  unfold State.writable State.place
  rw [hp, hr, hc, Bool.and_eq_false_iff]
  refine .inr ?_
  split
  · next heq => split_ifs at heq
  · rfl

theorem exec_ttLatePop {n : OwnerNo} (h : s.writable fn (R.TT_LATE_CTL n) = true) :
    exec (.ttLatePop fn n) s = .next ((s.setLateQ n (s.lateQ n).tail).settle s) := by
  have hn : 1 ≤ n.val := by
    by_contra h0
    rw [show n.val = 0 by omega, State.writable_lateCtl_zero] at h
    exact Bool.false_ne_true h
  have hpop : fldOf (taken (R.TT_LATE_CTL n) (putFlds 0 [(F.TT_LATE_CTL.POP, 1)])) F.TT_LATE_CTL.POP = 1 :=
    fldOf_taken_set (findReg_TT_LATE_CTL n n.isLt hn) _ _ _ (by decide) (by decide)
  refine congrArg Host.Outcome.next ((State.command_TT_LATE_CTL n n.isLt hn h).trans ?_)
  simp only [State.regAct, State.writeTt, Wr.bit, hpop, ne_eq, one_ne_zero, not_false_eq_true, decide_true, if_true, State.latePop]

theorem exec_stgNotePop {p : PipeNo} {st : StageNo} (h : s.writable fn (R.STG_NOTE_CTL p st) = true) : exec (.stgNotePop fn p st) s =
    .next ((s.setEmStage p st { s.emStage p st with notes := (s.emStage p st).notes.tail }).settle s) := by
  have hpop : fldOf (taken (R.STG_NOTE_CTL p st) (putFlds 0 [(F.STG_NOTE_CTL.POP, 1)])) F.STG_NOTE_CTL.POP = 1 :=
    fldOf_taken_set (findReg_STG_NOTE_CTL p st p.isLt st.isLt) _ _ _ (by decide) (by decide)
  refine congrArg Host.Outcome.next ((State.command_STG_NOTE_CTL p st p.isLt st.isLt h).trans ?_)
  simp only [State.regAct, State.writeStg, Wr.bit, hpop, ne_eq, one_ne_zero, not_false_eq_true, decide_true, if_true, State.notePop,
    List.drop_one]

theorem exec_irqHistPop {n : OwnerNo} (h : s.writable fn (R.IRQ_HIST_CTL n) = true) :
    exec (.irqHistPop fn n) s = .next ((s.setHist n (s.hist n).tail).settle s) := by
  have hpop : fldOf (taken (R.IRQ_HIST_CTL n) (putFlds 0 [(F.IRQ_HIST_CTL.POP, 1)])) F.IRQ_HIST_CTL.POP = 1 :=
    fldOf_taken_set (findReg_IRQ_HIST_CTL n n.isLt) _ _ _ (by decide) (by decide)
  refine congrArg Host.Outcome.next ((State.command_IRQ_HIST_CTL n n.isLt h).trans ?_)
  simp only [State.regAct, State.writeIrq, Wr.bit, hpop, ne_eq, one_ne_zero, not_false_eq_true, decide_true, if_true]

end

/-! ### The run of a port -/

theorem State.calRun_setCal (n m : Nat) (c : Option CalRun) : (s.setCal n c).calRun m = if m = n then c else s.calRun m := SMap.get_put ..

theorem State.calRun_of_ts {t : State} (h : t.ts = s.ts) (n : Nat) : t.calRun n = s.calRun n := by
  rw [State.calRun, h]
  rfl

theorem State.cause_ts (a : Nat) (f : Fld) : (s.cause a f).ts = s.ts := by rw [(State.cause_alarms (as := [a]) s a f (.inl (by simp))).eq]

theorem not_irqBlock_port {n o a : Nat} (h : a = 0x200000 + n * 0x400 + o) : ¬ irqBlock a := by unfold irqBlock; omega

/-! ### PORT_TS_CAL_CTL.GO -/

section

variable {fn : FnNo} {n : PortNo} {v : Word} {s1 : State}

theorem State.physAddr_CAL_CTL : s.physAddr fn (R.PORT_TS_CAL_CTL n) = some (R.PORT_TS_CAL_CTL n) :=
  State.physAddr_self (region_PORT_TS_CAL_CTL n n.isLt) (by show _ ≠ _ ∧ _ ≠ _; unfold R.PORT_TS_CAL_CTL; omega)

variable (h1 : s1 = s.wrote fn (R.PORT_TS_CAL_CTL n) (putFlds v [(F.PORT_TS_CAL_CTL.GO, 1)]))

include h1

theorem State.calWritten_reg_ne {a : Nat} (h : a ≠ R.PORT_TS_CAL_CTL n) : s1.reg a = s.reg a :=
  h1 ▸ State.wrote_reg_ne (findReg_PORT_TS_CAL_CTL n n.isLt) State.physAddr_CAL_CTL h

theorem State.calWritten_count : s1.calCount n = 2 ^ (10 + fldOf v F.PORT_TS_CAL_CTL.COUNT) := by
  have hcount : s1.fld (R.PORT_TS_CAL_CTL n) F.PORT_TS_CAL_CTL.COUNT = fldOf v F.PORT_TS_CAL_CTL.COUNT := by
    rw [h1, State.fld_wrote (findReg_PORT_TS_CAL_CTL n n.isLt) State.physAddr_CAL_CTL (by decide) (by decide)]
    exact fldOf_putFlds_one_ne v _ _ _ (by decide) (by decide)
  rw [State.calCount, hcount]

/-- Whether a run can start does not follow from its own control. -/
theorem State.calWritten_ready : (s1.portEnabled n && s1.linkUp n) = (s.portEnabled n && s.linkUp n) := by
  have hstatus : s1.reg (R.PORT_STATUS n) = s.reg (R.PORT_STATUS n) :=
    State.calWritten_reg_ne h1 (by unfold R.PORT_STATUS R.PORT_TS_CAL_CTL; omega)
  have hctl : s1.reg (R.PORT_CTL n) = s.reg (R.PORT_CTL n) := State.calWritten_reg_ne h1 (by unfold R.PORT_CTL R.PORT_TS_CAL_CTL; omega)
  have hformed : s1.formed n = s.formed n := congrArg (fun w => decide (0 < widthLanes w)) (State.fld_of_reg hstatus)
  simp only [State.portEnabled, hformed, State.linkUp, State.bit_of_reg hstatus, State.bit_of_reg hctl]

theorem State.calWritten_ts : s1.ts = s.ts := by
  obtain ⟨r, hr⟩ := s.wrote_rest fn (R.PORT_TS_CAL_CTL n) (putFlds v [(F.PORT_TS_CAL_CTL.GO, 1)])
  rw [h1, hr]

theorem exec_calGo (hw : s.writable fn (R.PORT_TS_CAL_CTL n) = true) :
    exec (.calGo fn n v) s = .next ((if (s.calRun n).isSome then s1.busyWrite fn else s1.calGo n).settle s) := by
  have hgo : fldOf (taken (R.PORT_TS_CAL_CTL n) (putFlds v [(F.PORT_TS_CAL_CTL.GO, 1)])) F.PORT_TS_CAL_CTL.GO = 1 :=
    fldOf_taken_set (findReg_PORT_TS_CAL_CTL n n.isLt) _ _ _ (by decide) (by decide)
  have hplain := State.plainWrite_wrote (s := s) (fn := fn) (v := putFlds v [(F.PORT_TS_CAL_CTL.GO, 1)]) (w := ⟨host fn, R.PORT_TS_CAL_CTL n,
    R.PORT_TS_CAL_CTL n, .port n, _, [], taken (R.PORT_TS_CAL_CTL n) (putFlds v [(F.PORT_TS_CAL_CTL.GO, 1)]), none, none⟩)
    (findReg_PORT_TS_CAL_CTL n n.isLt) State.physAddr_CAL_CTL rfl (by simp) (by dsimp only)
  refine congrArg Host.Outcome.next ((State.command_PORT_TS_CAL_CTL n n.isLt hw).trans ?_)
  simp only [State.regAct, State.writePort, Wr.bit, hgo, hplain, h1, ne_eq, one_ne_zero, not_false_eq_true, decide_true, Bool.not_true,
    Bool.false_eq_true, if_false]
  rfl

end

theorem State.calGo_refused {n : Nat} (h : (s.portEnabled n && s.linkUp n) = false) :
    s.calGo n = s.setFld (R.PORT_TS_CAL_CTL n) F.PORT_TS_CAL_CTL.RESULT 1 := by rw [State.calGo, h, if_neg Bool.false_ne_true, State.calResult]

/-- A run that starts stands for its port alone, and shows RESULT 15 and GO. -/
theorem State.calGo_starts {n : Nat} {t : State} (h : (s.portEnabled n && s.linkUp n) = true) (ht : t = s.calGo n) :
    t.calRun n = some { left := s.calCount n, loop := (s.reg (R.PORT_TS_CAL_LOOP n)).toNat } ∧
      t.fld (R.PORT_TS_CAL_CTL n) F.PORT_TS_CAL_CTL.RESULT = 15 ∧ t.bit (R.PORT_TS_CAL_CTL n) F.PORT_TS_CAL_CTL.GO = true ∧
      (∀ m, m ≠ n → t.calRun m = s.calRun m) ∧ ∀ a, a ≠ R.PORT_TS_CAL_CTL n → t.reg a = s.reg a := by
  obtain ⟨u, hu⟩ : ∃ u, u = (s.calResult n 0xF).setBit (R.PORT_TS_CAL_CTL n) F.PORT_TS_CAL_CTL.GO true := ⟨_, rfl⟩
  have hts : u.ts = s.ts := by rw [hu, State.setBit_ts, State.calResult, State.setFld_ts]
  have hresult : u.fld (R.PORT_TS_CAL_CTL n) F.PORT_TS_CAL_CTL.RESULT = 15 := by
    rw [hu, State.setBit, State.fld_setFld_beside _ _ _ _ _ (by decide) (by decide), State.calResult, State.fld_setFld _ _ _ _ (by decide)]
    decide
  have hgo : u.bit (R.PORT_TS_CAL_CTL n) F.PORT_TS_CAL_CTL.GO = true := by rw [hu, State.bit_setBit _ _ _ _ (by decide) (by decide)]
  have hreg (a : Nat) (ha : a ≠ R.PORT_TS_CAL_CTL n) : u.reg a = s.reg a := by
    rw [hu, State.reg_setBit_ne _ _ _ _ _ ha, State.calResult, State.reg_setFld_ne _ _ _ _ _ ha]
  rw [State.calGo, if_pos h, ← hu] at ht
  subst ht
  refine ⟨(State.calRun_setCal ..).trans (if_pos rfl), hresult, hgo, fun m hm => ?_, hreg⟩
  rw [State.calRun_setCal, if_neg hm, State.calRun_of_ts hts]

/-! ### The frames of a run -/

theorem State.calTx_idle {n : Nat} (h : s.calRun n = none) : s.calTx n = s := by rw [State.calTx, h]

theorem State.calTx_all_sent {n : Nat} {c : CalRun} (h : s.calRun n = some c) (h0 : c.left = 0) : s.calTx n = s := by
  simp only [State.calTx, h, h0, if_true]

theorem State.calTx_sends {n : Nat} {c : CalRun} {s1 : State} (h : s.calRun n = some c) (h0 : c.left ≠ 0)
    (h1 : s1 = s.setCal n (some { c with left := c.left - 1, seq := c.seq + 1 })) :
    s.calTx n = if s.linkUp n then s1.ctlPush n (.cal c.seq) else s1 := by
  subst h1
  simp only [State.calTx, h, h0, if_false]

/-! ### The end of a run -/

section

variable {n r : Nat}

/-- The end of a run: no run stands, GO reads 0 and RESULT what the run gives. -/
theorem State.calEnd_shows (hr : r < 16) : (s.calEnd n r).calRun n = none ∧ (s.calEnd n r).bit (R.PORT_TS_CAL_CTL n) F.PORT_TS_CAL_CTL.GO = false ∧
    (s.calEnd n r).fld (R.PORT_TS_CAL_CTL n) F.PORT_TS_CAL_CTL.RESULT = r := by
  obtain ⟨u, hu⟩ : ∃ u, u = ((s.setCal n none).calResult n r).setBit (R.PORT_TS_CAL_CTL n) F.PORT_TS_CAL_CTL.GO false := ⟨_, rfl⟩
  have hrun : u.calRun n = none := by
    rw [hu, State.calRun_of_ts (State.setBit_ts ..), State.calResult, State.calRun_of_ts (State.setFld_ts ..), State.calRun_setCal, if_pos rfl]
  have hgo : u.bit (R.PORT_TS_CAL_CTL n) F.PORT_TS_CAL_CTL.GO = false := by rw [hu, State.bit_setBit _ _ _ _ (by decide) (by decide)]
  have hresult : u.fld (R.PORT_TS_CAL_CTL n) F.PORT_TS_CAL_CTL.RESULT = r := by
    rw [hu, State.setBit, State.fld_setFld_beside _ _ _ _ _ (by decide) (by decide), State.calResult, State.fld_setFld _ _ _ _ (by decide)]
    exact Nat.mod_eq_of_lt hr
  have hne : R.PORT_TS_CAL_CTL n ≠ R.PORT_TS_CAUSE n := by unfold R.PORT_TS_CAL_CTL R.PORT_TS_CAUSE; omega
  have hi : ¬ irqBlock (R.PORT_TS_CAL_CTL n) := not_irqBlock_port rfl
  unfold State.calEnd
  dsimp only
  rw [← hu]
  split
  · exact ⟨(State.calRun_of_ts (State.cause_ts ..) n).trans hrun, (State.cause_bit_ne hne hi).trans hgo, (State.cause_fld_ne hne hi).trans hresult⟩
  · exact ⟨hrun, hgo, hresult⟩

theorem State.calEnd_reg_ne {a : Nat} (hctl : a ≠ R.PORT_TS_CAL_CTL n) (hcause : a ≠ R.PORT_TS_CAUSE n) (hi : ¬ irqBlock a) :
    (s.calEnd n r).reg a = s.reg a := by
  have hbefore : (((s.setCal n none).calResult n r).setBit (R.PORT_TS_CAL_CTL n) F.PORT_TS_CAL_CTL.GO false).reg a = s.reg a := by
    rw [State.reg_setBit_ne _ _ _ _ _ hctl, State.calResult, State.reg_setFld_ne _ _ _ _ _ hctl]
    rfl
  unfold State.calEnd
  dsimp only
  split
  · exact (State.cause_reg_ne hcause hi).trans hbefore
  · exact hbefore

/-- A run that ends short of half of its frames, or is aborted, sets CAL_FAIL. -/
theorem State.calEnd_fails (h : r = 2 ∨ r = 3) : ((s.calEnd n r).reg (R.PORT_TS_CAUSE n)).getLsbD F.PORT_TS_CAUSE.CAL_FAIL.lo = true := by
  unfold State.calEnd
  dsimp only
  rw [if_pos h]
  exact State.cause_set (not_irqBlock_port rfl) (by decide)

end

/-- The mean residual of a run, rounded to the nearest 1/16 ns. -/
def CalRun.mean (c : CalRun) : Int := if c.got = 0 then 0 else (c.sum * 2 + c.got) / (2 * c.got)

theorem State.calDone_idle {n : Nat} (h : s.calRun n = none) : s.calDone n = s := by rw [State.calDone, h]

theorem State.calDone_sending {n : Nat} {c : CalRun} (h : s.calRun n = some c) (h0 : c.left ≠ 0) : s.calDone n = s := by
  simp only [State.calDone, h, h0, ne_eq, not_false_eq_true, if_true]

theorem State.calDone_ends {n : Nat} {c : CalRun} (h : s.calRun n = some c) (h0 : c.left = 0) : s.calDone n =
    ((s.setReg (R.PORT_TS_CAL_MEAN n) (BitVec.ofInt 32 c.mean)).setReg (R.PORT_TS_CAL_SPREAD n) (BitVec.ofInt 32 (c.hi - c.lo))).calEnd n
      (if c.seq ≤ 2 * c.got then 0 else 2) := by
  simp only [State.calDone, h, h0, ne_eq, not_true_eq_false, if_false, CalRun.mean]

/-- MEAN and SPREAD stay as the run ends. -/
theorem State.calEnd_figures {n r : Nat} (mean spread : Word) {t : State}
    (ht : t = ((s.setReg (R.PORT_TS_CAL_MEAN n) mean).setReg (R.PORT_TS_CAL_SPREAD n) spread).calEnd n r) :
    t.reg (R.PORT_TS_CAL_MEAN n) = mean ∧ t.reg (R.PORT_TS_CAL_SPREAD n) = spread := by
  subst ht
  have hmean : ¬ irqBlock (R.PORT_TS_CAL_MEAN n) := not_irqBlock_port rfl
  have hspread : ¬ irqBlock (R.PORT_TS_CAL_SPREAD n) := not_irqBlock_port rfl
  constructor
  · rw [State.calEnd_reg_ne (by unfold R.PORT_TS_CAL_MEAN R.PORT_TS_CAL_CTL; omega) (by unfold R.PORT_TS_CAL_MEAN R.PORT_TS_CAUSE; omega) hmean,
      State.reg_setReg_ne _ _ _ _ (by unfold R.PORT_TS_CAL_MEAN R.PORT_TS_CAL_SPREAD; omega), State.reg_setReg]
  · rw [State.calEnd_reg_ne (by unfold R.PORT_TS_CAL_SPREAD R.PORT_TS_CAL_CTL; omega) (by unfold R.PORT_TS_CAL_SPREAD R.PORT_TS_CAUSE; omega)
      hspread, State.reg_setReg]

/-! ### A calibration frame comes back -/

section

variable {n : Nat} {bs : Bytes} {age : RefAt}

theorem State.calFrameRx_link (hup : s.linkUp n = true) (h81 : byteAt bs 14 = 0x81)
    (htype : beNat (slice bs 12 2) = s.fld R.TIME_TL_CTL F.TIME_TL_CTL.ETYPE) : s.calFrameRx n bs age = s.linkFrameRx n bs age := by
  rw [State.calFrameRx, hup, decide_eq_true h81, State.linkFrame, decide_eq_true htype, if_pos (by decide)]

theorem State.linkFrameRx_bad {c : Nat} (h : s.frameFault n bs = some c) :
    s.linkFrameRx n bs age = (if c = C.RX_FCS_ERR n then s.addWrap32 R.TIME_TL_BAD 1 else s).addCnt c 1 := by
  rw [State.linkFrameRx, h]

theorem State.linkFrameRx_fcs (h : fcsOk bs = false) :
    s.linkFrameRx n bs age = (s.addWrap32 R.TIME_TL_BAD 1).addCnt (C.RX_FCS_ERR n) 1 := by
  rw [State.linkFrameRx_bad (s.frameFault_fcs n h), if_pos rfl]

theorem State.linkFrameRx_runt (h : fcsOk bs = true) (hl : bs.length < 64) : s.linkFrameRx n bs age = s.addCnt (C.RX_RUNT n) 1 := by
  rw [State.linkFrameRx_bad (s.frameFault_runt n h hl), if_neg (by unfold C.RX_RUNT C.RX_FCS_ERR; omega)]

theorem State.linkFrameRx_oversize (h : fcsOk bs = true) (hl : 64 ≤ bs.length) (hm : s.maxLen n < bs.length) :
    s.linkFrameRx n bs age = s.addCnt (C.RX_OVERSIZE n) 1 := by
  rw [State.linkFrameRx_bad (s.frameFault_oversize n h hl hm), if_neg (by unfold C.RX_OVERSIZE C.RX_FCS_ERR; omega)]

/-- VERSION 0x81 is none of a time link. -/
theorem tlBad_calibration (h81 : byteAt bs 14 = 0x81) : tlBad bs = true := decide_eq_true (.inl (by rw [h81]; decide))

/-- Without a run the frame is one of a time link with a bad VERSION, on whatever port it comes. -/
theorem State.linkFrameRx_no_run (h : s.frameFault n bs = none) (hrun : s.calRun n = none) (h81 : byteAt bs 14 = 0x81) :
    s.linkFrameRx n bs age = s.addWrap32 R.TIME_TL_BAD 1 := by
  simp only [State.linkFrameRx, h, hrun, Option.isSome_none, Bool.false_and, Bool.false_eq_true, if_false]
  cases hk : s.tlOfPort n with
  | none => simp only [tlBad_calibration h81, if_true]
  | some k =>
    have hport : s.tlPort k = some n := by simpa using List.find?_some hk
    simp only [State.tlReceive, hport, tlBad_calibration h81, if_true]

theorem State.linkFrameRx_run {c : CalRun} (h : s.frameFault n bs = none) (hrun : s.calRun n = some c) (h81 : byteAt bs 14 = 0x81) :
    s.linkFrameRx n bs age = s.calReturn n (beNat (slice bs 15 2)) age := by
  simp only [State.linkFrameRx, h, hrun, Option.isSome_some, decide_eq_true h81, Bool.and_self, if_true]

/-! ### It is matched -/

variable {c : CalRun} {q at_ : Nat} {e : TimeVal}

theorem State.calReturn_stray (hrun : s.calRun n = some c) (hq : c.sent.find? (fun y => y.1 = q) = none) : s.calReturn n q age = s := by
  simp only [State.calReturn, hrun, hq]

/-- A run without the frame of sequence number `q`. -/
def CalRun.drop (c : CalRun) (q : Nat) : CalRun := { c with sent := c.sent.filter fun y => y.1 ≠ q }

/-- A run with one more residual. -/
def CalRun.take (c : CalRun) (d : Int) : CalRun :=
  { c with got := c.got + 1, sum := c.sum + d, lo := if c.got = 0 then d else min c.lo d, hi := if c.got = 0 then d else max c.hi d }

theorem State.calReturn_matched (hrun : s.calRun n = some c) (hq : c.sent.find? (fun y => y.1 = q) = some (q, e, at_)) :
    s.calReturn n q age = s.setCal n (some (if s.edge64 age ≤ 4 * (at_ + 160000) then
      (c.drop q).take (((s.ingressStamp n age).units : Int) / 4096 - (e.units : Int) / 4096 - c.loop) else c.drop q)) := by
  simp only [State.calReturn, hrun, hq]
  split <;> rfl

end

/-- Settles O47: each pop removes a head, a run starts, sends and ends by one of the equations above, and a frame that comes back is judged,
then matched. -/
theorem stampQueuesAndCalibration : Obligations.StampQueuesAndCalibration := by
  unfold Obligations.StampQueuesAndCalibration
  intro fn s
  refine ⟨fun n => exec_txqPop, fun n => exec_ttLatePop, fun p st => exec_stgNotePop, fun n hw => ⟨_, exec_irqHistPop hw,
      (State.hist_setHist ..).trans (if_pos rfl), fun m hm => (State.hist_setHist ..).trans (if_neg hm), _, rfl⟩,
    fun n v s1 hw h1 => ⟨fun hrun => ?_, fun hrun hready => ?_, fun hrun hready => ?_⟩,
    fun n => ⟨fun hrun => ⟨congrArg Host.Outcome.next (State.calTx_idle hrun), congrArg Host.Outcome.next (State.calDone_idle hrun)⟩,
      fun c hrun => ⟨fun h0 => congrArg Host.Outcome.next (State.calTx_all_sent hrun h0),
        fun h0 => congrArg Host.Outcome.next (State.calDone_sending hrun h0),
        fun s1 h0 h1 => congrArg Host.Outcome.next (State.calTx_sends hrun h0 h1),
        fun h0 => ⟨_, congrArg Host.Outcome.next (State.calDone_ends hrun h0), ?_⟩⟩⟩,
    fun n bs age hup h81 htype => ⟨fun hok hrun => ?_, fun hfcs => ?_, fun hfcs hl => ?_, fun hfcs hl hm => ?_⟩,
    fun n bs age c q at_ x e hup hrun hok h81 htype hq hx => ?_⟩
  · rw [exec_calGo h1 hw, if_pos (Option.isSome_iff_ne_none.mpr hrun)]
  · rw [exec_calGo h1 hw, hrun, Option.isSome_none, if_neg Bool.false_ne_true,
      State.calGo_refused ((State.calWritten_ready h1).trans hready)]
  · obtain ⟨hstarts, hresult, hgo, hothers, hregs⟩ := State.calGo_starts ((State.calWritten_ready h1).trans hready) rfl
    refine ⟨s1.calGo n, ?_, ?_, hresult, hgo, fun m hm => ?_, fun a ha => (hregs a ha).trans (State.calWritten_reg_ne h1 ha)⟩
    · rw [exec_calGo h1 hw, hrun, Option.isSome_none, if_neg Bool.false_ne_true]
    · rw [hstarts, State.calWritten_count h1, State.calWritten_reg_ne h1 (by unfold R.PORT_TS_CAL_LOOP R.PORT_TS_CAL_CTL; omega)]
    · rw [hothers m hm, State.calRun_of_ts (State.calWritten_ts h1)]
  · obtain ⟨hmean, hspread⟩ := State.calEnd_figures (s := s) (n := n) (r := if c.seq ≤ 2 * c.got then 0 else 2) (BitVec.ofInt 32 c.mean)
      (BitVec.ofInt 32 (c.hi - c.lo)) rfl
    obtain ⟨hnone, hgo, hresult⟩ := State.calEnd_shows (s := (s.setReg (R.PORT_TS_CAL_MEAN n) (BitVec.ofInt 32 c.mean)).setReg
      (R.PORT_TS_CAL_SPREAD n) (BitVec.ofInt 32 (c.hi - c.lo))) (n := n) (r := if c.seq ≤ 2 * c.got then 0 else 2) (by split <;> decide)
    refine ⟨hnone, hgo, hspread, hmean, fun hhalf => ?_, fun hfew => ⟨?_, ?_⟩⟩
    · rw [hresult, if_pos hhalf]
    · rw [hresult, if_neg (Nat.not_le.mpr hfew)]
    · rw [if_neg (Nat.not_le.mpr hfew)]
      exact State.calEnd_fails (.inl rfl)
  · exact congrArg Host.Outcome.next ((State.calFrameRx_link hup h81 htype).trans (State.linkFrameRx_no_run hok hrun h81))
  · exact congrArg Host.Outcome.next ((State.calFrameRx_link hup h81 htype).trans (State.linkFrameRx_fcs hfcs))
  · exact congrArg Host.Outcome.next ((State.calFrameRx_link hup h81 htype).trans (State.linkFrameRx_runt hfcs hl))
  · exact congrArg Host.Outcome.next ((State.calFrameRx_link hup h81 htype).trans (State.linkFrameRx_oversize hfcs hl hm))
  · have hreturn : exec (.calFrameRx n bs age) s = .next (s.calReturn n q age) := by
      rw [hq]
      exact congrArg Host.Outcome.next ((State.calFrameRx_link hup h81 htype).trans (State.linkFrameRx_run hok hrun h81))
    rw [hreturn]
    refine ⟨fun hstray => ?_, fun hsent hin =>
      ⟨(c.drop q).take ((x.units : Int) / 4096 - (e.units : Int) / 4096 - c.loop), rfl, rfl, rfl, rfl, rfl, rfl, ?_⟩, fun hsent hlate => ?_⟩
    · rw [State.calReturn_stray hrun hstray]
    · rw [State.calReturn_matched hrun hsent, if_pos hin, hx]
    · rw [State.calReturn_matched hrun hsent, if_neg (Nat.not_le.mpr hlate)]
      rfl

end Sys2Proof.Machine
end

section
/-! SUPPORT. What the operations of a TCAM engine leave (R202, R206, R210, R261, R262): the entries of its tables, its registers, its counters. -/

namespace Sys2Proof.Machine

variable {s : State} {p : Nat}

/-! ### Entries -/

theorem State.tcPipe_of_tc {t : State} (h : t.tc = s.tc) : t.tcPipe p = s.tcPipe p := by
  rw [State.tcPipe, h]
  rfl

theorem State.tcRow_of_tc {t : State} (h : t.tc = s.tc) (k : Nat) : t.tcRow p k = s.tcRow p k := by
  rw [State.tcRow, State.tcPipe_of_tc h]
  rfl

theorem State.tcRow_setTcPipe {e : TcPipe} (h : e.rows = (s.tcPipe p).rows) (k : Nat) : (s.setTcPipe p e).tcRow p k = s.tcRow p k := by
  rw [State.tcRow, State.tcPipe_setTcPipe, h]
  rfl

/-- A row that is stored leaves what else the engine holds. -/
theorem State.tcPipe_setTcRow (k : Nat) (r : TcRow) : (s.setTcRow p k r).tcPipe p =
    { s.tcPipe p with rows := SMap.put (fun _ => {}) (s.tcPipe p).rows k r } := State.tcPipe_setTcPipe _

/-- An index reads as unlisted, or as an entry that is listed. -/
theorem SMap.get_default_or_mem {α : Type} (d : Nat → α) (m : SMap α) (k : Nat) : SMap.get d m k = d k ∨ (k, SMap.get d m k) ∈ m := by
  induction m with
  | nil => exact .inl rfl
  | cons e m ih =>
    obtain ⟨k', v⟩ := e
    by_cases h : k = k'
    · subst h
      exact .inr (by simp [SMap.get])
    · simp only [SMap.get, if_neg h]
      exact ih.imp_right (List.mem_cons_of_mem _)

/-! ### Causes, and a location that leaves its group -/

theorem State.cause_tc (a : Nat) (f : Fld) : (s.cause a f).tc = s.tc := by rw [(State.cause_alarms (as := [a]) s a f (.inl (by simp))).eq]

theorem State.cause_cnts (a : Nat) (f : Fld) : (s.cause a f).cnts = s.cnts := by
  rw [(State.cause_alarms (as := [a]) s a f (.inl (by simp))).eq]

theorem State.cnt_of_cnts {t : State} (h : t.cnts = s.cnts) (a : Nat) : t.cnt a = s.cnt a :=
  congrArg (fun m => (SMap.get (fun _ => (0 : BitVec 48)) m a).toNat) h

theorem verCause_not_irqBlock (n : Nat) : ¬ irqBlock (R.VER_CAUSE n) := by unfold irqBlock R.VER_CAUSE; omega

/-- A group that loses a location counts it and raises its cause. -/
theorem State.grpLost_shows : (s.grpLost p).cnt (C.VER_GRP_LOST p) = min (s.cnt (C.VER_GRP_LOST p) + 1) (2 ^ 48 - 1) ∧
    ((s.grpLost p).reg (R.VER_CAUSE (s.ownerOfPipe p))).getLsbD F.VER_CAUSE.GRP_LOST.lo = true :=
  ⟨(State.cnt_of_cnts (State.cause_cnts ..) _).trans (State.cnt_addCnt ..), State.cause_set (verCause_not_irqBlock _) (by decide)⟩

theorem State.tcOutside_tc (r : TcRow) : (s.tcOutside p r).tc = s.tc := by
  unfold State.tcOutside
  split
  · exact State.cause_tc ..
  · rfl

/-! ### Entries that are cleared -/

/-- The machine with VALID of an entry cleared in both copies, outside a group operation (R206, R210, R262). -/
def State.tcCleared (s : State) (p k : Nat) : State := (s.setTcRow p k (s.tcRow p k).clear).tcOutside p (s.tcRow p k)

theorem State.tcRow_tcCleared (k l : Nat) : (s.tcCleared p k).tcRow p l = if l = k then (s.tcRow p k).clear else s.tcRow p l :=
  (State.tcRow_of_tc (State.tcOutside_tc _) l).trans (State.tcRow_setTcRow ..)

theorem State.tcRow_foldl_tcCleared (keys : List Nat) (l : Nat) : (keys.foldl (fun s k => s.tcCleared p k) s).tcRow p l =
    if l ∈ keys then (s.tcRow p l).clear else s.tcRow p l := by
  induction keys generalizing s with
  | nil => rfl
  | cons k ks ih =>
    rw [List.foldl_cons, ih, State.tcRow_tcCleared]
    by_cases hk : l = k
    · subst hk
      rw [if_pos rfl, if_pos (List.mem_cons_self ..)]
      split <;> rfl
    · simp only [List.mem_cons, hk, false_or, if_false]

/-! ### The answer of an operation, and its end -/

theorem tcStatus_ne_cmd (p : Nat) : R.TC_IA_CMD p ≠ R.TC_IA_STATUS p := by unfold R.TC_IA_CMD R.TC_IA_STATUS; omega

/-- The answer is a register of its own. -/
theorem State.tcDone_reg_ne {a : Nat} (h : a ≠ R.TC_IA_STATUS p) (res addr : Nat) : (s.tcDone p res addr).reg a = s.reg a :=
  (State.reg_setFld_ne _ _ _ _ _ h).trans (State.reg_setFld_ne _ _ _ _ _ h)

theorem State.tcDone_tc (res addr : Nat) : (s.tcDone p res addr).tc = s.tc := (State.setFld_tc ..).trans (State.setFld_tc ..)

theorem State.tcDone_cnts (res addr : Nat) : (s.tcDone p res addr).cnts = s.cnts := (State.setFld_cnts ..).trans (State.setFld_cnts ..)

theorem State.tcDone_result (res addr : Nat) : (s.tcDone p res addr).fld (R.TC_IA_STATUS p) F.TC_IA_STATUS.RESULT = res % 2 ^ 4 :=
  (State.fld_setFld_beside _ _ _ _ _ (by decide) (.inr (by decide))).trans (State.fld_setFld _ _ _ _ (by decide))

theorem State.tcDone_addr (res addr : Nat) : (s.tcDone p res addr).fld (R.TC_IA_STATUS p) F.TC_IA_STATUS.ADDR = addr % 2 ^ 17 :=
  (State.fld_setFld _ _ _ _ (by decide)).trans (Nat.mod_mod ..)

/-- An engine that has done its operation has none, and GO reads 0; its tables are as they were. -/
theorem State.tcFree_shows : (s.tcFree p).tcPipe p = { s.tcPipe p with job := none } ∧
    (s.tcFree p).bit (R.TC_IA_CMD p) F.TC_IA_CMD.GO = false :=
  ⟨(State.tcPipe_of_tc (State.setBit_tc ..)).trans (State.tcPipe_setTcPipe _), State.bit_setBit _ _ _ _ (by decide) (by decide)⟩

theorem State.tcRow_tcFree (k : Nat) : (s.tcFree p).tcRow p k = s.tcRow p k :=
  (State.tcRow_of_tc (State.setBit_tc ..) k).trans (State.tcRow_setTcPipe (by rfl) k)

end Sys2Proof.Machine
end

section
/-! SUPPORT. Indirect access to the TCAM tables (R201, R202, R203, R210, Table 7.4; O33): a command is taken, and the engine carries it out. -/

namespace Sys2Proof.Machine

variable {s : State}

/-! ### TC_IA_CMD: its OP and GO stand where those of STG_IA_CMD stand, so that `iaWord` is the word that a command writes -/

section

variable {fn : FnNo} {p : PipeNo} {v : Word} {op : Nat}

theorem State.physAddr_TC_IA_CMD : s.physAddr fn (R.TC_IA_CMD p) = some (R.TC_IA_CMD p) :=
  State.physAddr_self (region_TC_IA_CMD p p.isLt) (by show _ ≠ _ ∧ _ ≠ _; unfold R.TC_IA_CMD; omega)

/-- The state in which an indirect command of the TCAM is judged. -/
def State.tcWritten (s : State) (fn : FnNo) (p : PipeNo) (v : Word) (op : Nat) : State := s.wrote fn (R.TC_IA_CMD p) (iaWord v op)

theorem State.tcWritten_reg_ne {b : Nat} (h : b ≠ R.TC_IA_CMD p) : (s.tcWritten fn p v op).reg b = s.reg b :=
  State.wrote_reg_ne (findReg_TC_IA_CMD p p.isLt) State.physAddr_TC_IA_CMD h

theorem State.tcWritten_fld {f : Fld} (h : f ∈ [F.TC_IA_CMD.OP, F.TC_IA_CMD.STAGE, F.TC_IA_CMD.TABLE, F.TC_IA_CMD.ADDR]) :
    (s.tcWritten fn p v op).fld (R.TC_IA_CMD p) f = fldOf (iaWord v op) f := by
  refine State.fld_wrote (findReg_TC_IA_CMD p p.isLt) State.physAddr_TC_IA_CMD ?_ ?_ <;> revert f <;> decide

theorem State.tcWritten_eq : ∃ w, s.tcWritten fn p v op = s.setReg (R.TC_IA_CMD p) w :=
  ⟨_, State.wrote_at (findReg_TC_IA_CMD p p.isLt) State.physAddr_TC_IA_CMD⟩

/-- A permitted indirect command is judged where none runs. -/
theorem State.command_tc (hw : s.writable fn (R.TC_IA_CMD p) = true) (hidle : s.bit (R.TC_IA_CMD p) F.TC_IA_CMD.GO = false) :
    s.command fn (R.TC_IA_CMD p) v [(F.TC_IA_CMD.OP, op), (F.TC_IA_CMD.GO, 1)] = ((s.tcWritten fn p v op).tcGo p).settle s := by
  have hgo : fldOf (taken (R.TC_IA_CMD p) (iaWord v op)) F.TC_IA_CMD.GO = 1 :=
    (fldOf_taken (findReg_TC_IA_CMD p p.isLt) _ _ (by decide)).trans (fldOf_iaWord_go v op)
  refine (State.command_TC_IA_CMD p p.isLt hw).trans ?_
  have hplain := State.plainWrite_wrote (s := s) (fn := fn) (v := iaWord v op) (w := ⟨host fn, R.TC_IA_CMD p, R.TC_IA_CMD p, .tc p, _, [],
    taken (R.TC_IA_CMD p) (iaWord v op), none, none⟩) (findReg_TC_IA_CMD p p.isLt) State.physAddr_TC_IA_CMD rfl (by simp) (by dsimp only)
  change State.settle (State.regAct s ⟨_, _, _, _, _, _, taken (R.TC_IA_CMD p) (iaWord v op), _, _⟩) s = _
  simp only [State.regAct, State.writeTc, Wr.bit, hidle, hgo, hplain, Bool.false_eq_true, if_false, ne_eq, one_ne_zero, not_false_eq_true,
    decide_true, if_true]
  rfl

end

/-! ### What is judged (Table 7.4) -/

theorem State.tcDefined_table {p st t : Nat} (h : s.tcDefined p st t = true) : t < 2 := by
  unfold State.tcDefined at h
  exact (of_decide_eq_true (Bool.and_eq_true_iff.mp h).1).2

theorem tcCfg_ne_cmd (p st : Nat) {t : Nat} (ht : t < 2) : R.TC_CFG p st t ≠ R.TC_IA_CMD p := by
  unfold R.TC_CFG R.TC_IA_CMD
  omega

/-- An operation of Table 7.4, on a defined table and an address within it. -/
theorem State.tcBad_false {p op st t a : Nat} (hop : op = s.fld (R.TC_IA_CMD p) F.TC_IA_CMD.OP)
    (hst : st = s.fld (R.TC_IA_CMD p) F.TC_IA_CMD.STAGE) (ht : t = s.fld (R.TC_IA_CMD p) F.TC_IA_CMD.TABLE)
    (ha : a = s.fld (R.TC_IA_CMD p) F.TC_IA_CMD.ADDR) (h7 : op < 7) (hdef : s.tcDefined p st t = true) (hin : a < 1024 * s.tcSlices p st t) :
    s.tcBad p = false := by
  subst hop hst ht ha
  simp only [State.tcBad, hdef, Nat.not_le.mpr h7, Nat.not_le.mpr hin, decide_false, Bool.not_true, Bool.and_false, Bool.or_self]

theorem State.tcGo_takes {p : Nat} (hheld : s.pipeHeld p = false) (himg : (s.pipe p).img.isSome = true) (hbad : s.tcBad p = false) :
    s.tcGo p = (s.tcTake p .indirect).tcDone p 0xF 0 := by
  have hnone : (s.pipe p).img.isNone = false := by rw [← Option.not_isSome, himg, Bool.not_true]
  simp only [State.tcGo, hheld, hnone, hbad, Bool.or_self, Bool.false_eq_true, if_false]

/-- A command of an operation of Table 7.4 on a loaded pipeline is taken. -/
theorem State.command_tc_taken {fn : FnNo} {p : PipeNo} {v : Word} {op st t a : Nat} (hw : s.writable fn (R.TC_IA_CMD p) = true)
    (hidle : s.bit (R.TC_IA_CMD p) F.TC_IA_CMD.GO = false) (hheld : s.pipeHeld p = false) (himg : (s.pipe p).img.isSome = true)
    (hst : st = fldOf v F.TC_IA_CMD.STAGE) (ht : t = fldOf v F.TC_IA_CMD.TABLE) (ha : a = fldOf v F.TC_IA_CMD.ADDR)
    (hdef : s.tcDefined p st t = true) (hin : a < 1024 * s.tcSlices p st t) (h7 : op < 7) :
    s.command fn (R.TC_IA_CMD p) v [(F.TC_IA_CMD.OP, op), (F.TC_IA_CMD.GO, 1)] =
      (((s.tcWritten fn p v op).tcTake p .indirect).tcDone p 0xF 0).settle s := by
  have hcfg : (s.tcWritten fn p v op).reg (R.TC_CFG p st t) = s.reg (R.TC_CFG p st t) := 
    State.tcWritten_reg_ne (tcCfg_ne_cmd p st (State.tcDefined_table hdef))
  obtain ⟨w, hwritten⟩ := State.tcWritten_eq (s := s) (fn := fn) (p := p) (v := v) (op := op)
  have hbad : (s.tcWritten fn p v op).tcBad p = false := by
    refine State.tcBad_false (op := op) (st := st) (t := t) (a := a) ?_ ?_ ?_ ?_ h7 ?_ ?_
    · rw [State.tcWritten_fld (by decide)]
      exact (fldOf_iaWord_op v (by omega)).symm
    · rw [State.tcWritten_fld (by decide), fldOf_iaWord (by decide), hst]
    · rw [State.tcWritten_fld (by decide), fldOf_iaWord (by decide), ht]
    · rw [State.tcWritten_fld (by decide), fldOf_iaWord (by decide), ha]
    · rw [State.tcDefined, State.bit_of_reg hcfg]
      exact hdef
    · rw [State.tcSlices, State.fld_of_reg hcfg]
      exact hin
  have hheld : (s.tcWritten fn p v op).pipeHeld p = false := by
    rw [hwritten, State.pipeHeld_setReg _ (by unfold R.TC_IA_CMD; omega) p.isLt]
    exact hheld
  have hpipe : (s.tcWritten fn p v op).pipe p = s.pipe p := by
    rw [hwritten, State.pipe, State.setReg_pipes]
    rfl
  rw [State.command_tc hw hidle, State.tcGo_takes hheld (by rw [hpipe]; exact himg) hbad]

/-- A command that is taken shows GO, its operation and RESULT 0xF, and stands as source 2 of the engine. -/
theorem State.tcTaken_shows {fn : FnNo} {p : PipeNo} {v : Word} {op : Nat} {s1 : State}
    (h1 : s1 = ((s.tcWritten fn p v op).tcTake p .indirect).tcDone p 0xF 0) (h16 : op < 16) :
    s1.bit (R.TC_IA_CMD p) F.TC_IA_CMD.GO = true ∧ (s1.tcPipe p).job = some .indirect ∧ s1.fld (R.TC_IA_CMD p) F.TC_IA_CMD.OP = op ∧
      s1.fld (R.TC_IA_STATUS p) F.TC_IA_STATUS.RESULT = 0xF := by
  subst h1
  have hcmd : ∀ x : State, (x.tcDone p 0xF 0).reg (R.TC_IA_CMD p) = x.reg (R.TC_IA_CMD p) := fun x =>
    State.tcDone_reg_ne (tcStatus_ne_cmd p) ..
  refine ⟨(State.bit_of_reg (hcmd _)).trans (State.bit_setBit _ _ _ _ (by decide) (by decide)), ?_, ?_, State.tcDone_result ..⟩
  · rw [State.tcPipe_of_tc (State.tcDone_tc ..), State.tcTake, State.tcPipe_of_tc (State.setBit_tc ..), State.tcPipe_setTcPipe]
  · rw [State.fld_of_reg (hcmd _)]
    refine (State.fld_setFld_beside _ _ _ _ _ (by decide) (by decide)).trans
      ((State.fld_of_reg (State.reg_of_regs (State.setTcPipe_regs ..) _)).trans ((State.tcWritten_fld (by decide)).trans ?_))
    exact fldOf_iaWord_op v h16

/-! ### The turn of the engine (R201, R203) -/

section

variable {p : Nat}

/-- What runs goes on: the operation that stands as source 2 has its tick. -/
theorem State.tcTurn_job {j : EngJob} (hmove : (s.tcPipe p).move = none) (hjob : (s.tcPipe p).job = some j) (hbusy : (s.tcPipe p).busy ≠ 0) :
    s.tcTurn p = (s.setTcPipe p { s.tcPipe p with since := (s.tcPipe p).since + 1 }).tcJobTurn p j := by
  simp only [State.tcTurn, State.tcPipe_setTcPipe, TcPipe.runs, hmove, hjob, hbusy, ne_eq, not_false_eq_true, decide_true, Bool.or_true,
    Bool.not_true, Bool.false_and, Bool.false_eq_true, if_false]

/-- At the last tick that it may take, an indirect operation is carried out. -/
theorem State.tcJobTurn_last (h : (if s.tcInserts p then 16 else 1024) ≤ (s.tcPipe p).busy + 1) :
    s.tcJobTurn p .indirect = (s.freeBool.2.setTcPipe p { s.tcPipe p with busy := 0 }).tcRun p := by
  have hlate : decide ((s.tcPipe p).busy + 1 < if s.tcInserts p then 16 else 1024) = false := decide_eq_false (Nat.not_lt.mpr h)
  have hinserts : s.freeBool.2.tcInserts p = s.tcInserts p := rfl
  simp only [State.tcJobTurn, hinserts, hlate, Bool.and_false, Bool.false_eq_true, if_false]

theorem State.tcInserts_indirect (hjob : (s.tcPipe p).job = some .indirect) :
    s.tcInserts p = decide (s.fld (R.TC_IA_CMD p) F.TC_IA_CMD.OP = 2) := by
  rw [State.tcInserts, hjob]

/-- The machine in which the engine carries an operation out at the last tick that it may take. -/
def State.tcLast (s : State) (p : Nat) : State :=
  (s.setTcPipe p { s.tcPipe p with since := (s.tcPipe p).since + 1 }).freeBool.2.setTcPipe p
    { s.tcPipe p with since := (s.tcPipe p).since + 1, busy := 0 }

theorem State.tcTurn_last (hmove : (s.tcPipe p).move = none) (hjob : (s.tcPipe p).job = some .indirect)
    (hbusy : 1023 ≤ (s.tcPipe p).busy ∨ s.fld (R.TC_IA_CMD p) F.TC_IA_CMD.OP = 2 ∧ 15 ≤ (s.tcPipe p).busy) :
    s.tcTurn p = (s.tcLast p).tcRun p := by
  rw [State.tcTurn_job hmove hjob (by omega), State.tcJobTurn_last, State.tcPipe_setTcPipe]
  · rfl
  · rw [State.tcPipe_setTcPipe, State.tcInserts_indirect (by rw [State.tcPipe_setTcPipe, hjob]),
      State.fld_of_reg (State.reg_of_regs (State.setTcPipe_regs ..) _)]
    rcases hbusy with hlong | ⟨hop, hshort⟩
    · split <;> (dsimp only; omega)
    · rw [if_pos (decide_eq_true hop)]
      dsimp only
      omega

theorem State.tcLast_shows : ((s.tcLast p).tcPipe p).rows = (s.tcPipe p).rows ∧ ((s.tcLast p).tcPipe p).toClear = (s.tcPipe p).toClear ∧
    (s.tcLast p).regs = s.regs ∧ { s.tcLast p with tc := s.tc, freeIx := s.freeIx } = s := by
  unfold State.tcLast
  rw [State.tcPipe_setTcPipe]
  exact ⟨rfl, rfl, rfl, rfl⟩

end

/-! ### The operations (Table 7.4) -/

section

variable {p st t a : Nat}

/-- What the engine does with an INSERT that is refused, or placed (R202). -/
def State.tcInserted (s : State) (p : Nat) : Nat ⊕ TcMove → State
  | .inl res => ((s.tcFree p).setFld (R.TC_IA_STATUS p) F.TC_IA_STATUS.MOVES 0).tcDone p res 0
  | .inr m => s.tcStart p m

/-- An operation of Table 7.4 is carried out by the equation of its code. -/
theorem State.tcRun_acts {op : Nat} (hop : op = s.fld (R.TC_IA_CMD p) F.TC_IA_CMD.OP) (hst : st = s.fld (R.TC_IA_CMD p) F.TC_IA_CMD.STAGE)
    (ht : t = s.fld (R.TC_IA_CMD p) F.TC_IA_CMD.TABLE) (ha : a = s.fld (R.TC_IA_CMD p) F.TC_IA_CMD.ADDR)
    (hdef : s.tcDefined p st t = true) (hin : a < 1024 * s.tcSlices p st t) :
    (op = 0 → s.tcRun p = (s.tcFree p).tcRead p st t a) ∧ (op = 1 → s.tcRun p = (s.tcFree p).tcWrite p st t a) ∧
      (op = 2 → s.tcRun p = s.tcInserted p (s.tcInsert p st t (s.tcIaEntry p st t 3))) ∧
      (op = 3 → s.tcRun p = (s.tcFree p).tcDelete p st t a) ∧ (op = 4 → s.tcRun p = (s.tcFree p).tcUpdate p st t a) ∧
      (op = 5 → s.tcRun p = (s.tcFree p).tcIaSearch p st t) ∧ (op = 6 → s.tcRun p = (s.tcFree p).tcFlush p st t) := by
  have hgood (h7 : op < 7) : s.tcBad p = false := State.tcBad_false hop hst ht ha h7 hdef hin
  unfold State.tcRun
  dsimp only
  rw [← hop, ← hst, ← ht, ← ha]
  refine ⟨fun h => ?_, fun h => ?_, fun h => ?insert, fun h => ?_, fun h => ?_, fun h => ?_, fun h => ?_⟩
  case insert => cases s.tcInsert p st t (s.tcIaEntry p st t 3) <;> simp [hgood (by omega), h, State.tcInserted]
  all_goals simp [hgood (by omega), h]

/-- An entry whose copies agree is returned as it is (R210). -/
theorem State.tcRead_same {r : TcRow} (hr : r = s.tcRow p (tcKey st t a))
    (h : ∀ j, j < s.tcW p st t → tcCompare r (s.tcW p st t) j = .same) :
    s.tcRead p st t a = (s.tcReturn p st t r).tcDone p (if r.valid then 0 else 1) a := by
  subst hr
  have hno {d : TcDiff} (hd : d ≠ .same) :
      ((List.range (s.tcW p st t)).map (tcCompare (s.tcRow p (tcKey st t a)) (s.tcW p st t))).contains d = false := by
    rw [List.contains_eq_mem, decide_eq_false_iff_not, List.mem_map]
    rintro ⟨j, hj, hjd⟩
    exact hd (hjd.symm.trans (h j (List.mem_range.mp hj)))
  simp only [State.tcRead, hno (show TcDiff.parity ≠ .same by decide), hno (show TcDiff.mismatch ≠ .same by decide), Bool.false_eq_true, if_false]

section

variable {r : TcRow} (hr : r = s.tcRow p (tcKey st t a))

include hr

theorem State.tcDelete_invalid (h : r.valid = false) : s.tcDelete p st t a = s.tcDone p 1 a := by
  rw [State.tcDelete, ← hr, h, Bool.not_false, if_pos rfl]

theorem State.tcDelete_valid (h : r.valid = true) :
    s.tcDelete p st t a = ((s.setTcRow p (tcKey st t a) r.clear).tcOutside p r).tcDone p 0 a := by
  rw [State.tcDelete, ← hr, h, Bool.not_true, if_neg Bool.false_ne_true]

theorem State.tcUpdate_invalid (h : r.valid = false) : s.tcUpdate p st t a = s.tcDone p 1 a := by
  rw [State.tcUpdate, ← hr, h, Bool.not_false, if_pos rfl]

theorem State.tcUpdate_valid (h : r.valid = true) : s.tcUpdate p st t a =
    ((s.setTcRow p (tcKey st t a) { r with action := s.tcIaAction p, data := s.tcIaData p, see := 3 }).tcOutside p r).tcDone p 0 a := by
  simp only [State.tcUpdate, ← hr, h, Bool.not_true, Bool.false_eq_true, if_false]

end

section

variable {g : Nat} {best : Option (Nat × TcRow)} {bad : Bool} {x y : State}
  (hg : g = s.tcMask p st t (s.fld (R.TC_IA_ENT p) F.TC_IA_ENT.GSEL))
  (hsearch : s.tcSearch p st t (s.tcIaVal p (s.tcW p st t)) g (s.iaTag p) = (best, bad, x))
  (hy : y = if bad then x.addCnt (C.TC_SLICE_PAR_MISS p st t) 1 else x)

include hg hsearch hy

theorem State.tcIaSearch_none (h : best = none) : s.tcIaSearch p st t = y.tcDone p 1 0 := by
  subst hg hy h
  simp only [State.tcIaSearch, hsearch]

theorem State.tcIaSearch_some {k : Nat} {r : TcRow} (h : best = some (k, r)) :
    s.tcIaSearch p st t = (y.tcReturn p st t r).tcDone p 0 (k % 2 ^ 17) := by
  subst hg hy h
  simp only [State.tcIaSearch, hsearch]

end

/-- FLUSH leaves no entry of its table valid. -/
theorem State.tcFlush_invalid {k : Nat} (hk : k / 2 ^ 17 = 2 * st + t) : ((s.tcFlush p st t).tcRow p k).valid = false := by
  refine (congrArg TcRow.valid ((State.tcRow_of_tc (State.tcDone_tc ..) k).trans (State.tcRow_foldl_tcCleared _ k))).trans ?_
  split
  · rfl
  · next hnot =>
    rcases SMap.get_default_or_mem (fun _ => {}) (s.tcPipe p).rows k with hdefault | hmem
    · exact congrArg TcRow.valid hdefault
    · rw [Bool.eq_false_iff]
      intro hvalid
      have hkeeps : (decide (k / 2 ^ 17 = 2 * st + t) && ((s.tcRow p k).valid || (s.tcRow p k).aValid)) = true := by
        rw [decide_eq_true hk, hvalid]
        rfl
      exact hnot (List.mem_map.mpr ⟨(k, s.tcRow p k), List.mem_filter.mpr ⟨hmem, hkeeps⟩, rfl⟩)

end

/-! ### The copies of an INSERT (R202, R203) -/

section

variable {p : Nat} {m : TcMove}

/-- A tick in which a copy is made writes one row, and leaves the registers. -/
theorem State.tcMoveTurn_copy {c : Nat × Nat} {rest : List (Nat × Nat)} (h : m.todo = c :: rest) :
    ((s.tcMoveTurn p m).tcPipe p).move = some { m with todo := rest, pair := some c } ∧
      (s.tcMoveTurn p m).tcRow p c.1 = (s.tcRow p c.2).copied ∧ (∀ k, k ≠ c.1 → (s.tcMoveTurn p m).tcRow p k = s.tcRow p k) ∧
      (s.tcMoveTurn p m).regs = s.regs := by
  have hturn : s.tcMoveTurn p m =
      (s.tcCopy p c).setTcPipe p { (s.tcCopy p c).tcPipe p with move := some { m with todo := rest, pair := some c } } := by
    simp only [State.tcMoveTurn, h]
  have hrow (k : Nat) : (s.tcMoveTurn p m).tcRow p k = if k = c.1 then (s.tcRow p c.2).copied else s.tcRow p k := by
    rw [hturn, State.tcRow_setTcPipe (by rfl), State.tcCopy, State.tcRow_setTcPipe (by rfl), State.tcRow_setTcRow]
  refine ⟨?_, (hrow _).trans (if_pos rfl), fun k hk => (hrow k).trans (if_neg hk), ?_⟩
  · rw [hturn, State.tcPipe_setTcPipe]
  · rw [hturn]
    rfl

/-- The machine with the entry of an INSERT at its place, counted, and the engine free. -/
def State.tcPlaced (s : State) (p : Nat) (m : TcMove) : State :=
  let s := ((s.setTcRow p m.key m.row).addCnt (C.TC_MOVES p) m.copies).addCnt (C.TC_INSERTS p) 1
  let s := s.setTcPipe p { s.tcPipe p with move := none }
  (s.tcFree p).setFld (R.TC_IA_STATUS p) F.TC_IA_STATUS.MOVES m.copies

/-- The tick after the last copy places the entry and answers with its address. -/
theorem State.tcMoveTurn_end (h : m.todo = []) (hjob : (s.tcPipe p).job = some .indirect) :
    s.tcMoveTurn p m = (s.tcPlaced p m).tcDone p 0 (m.key % 2 ^ 17) := by
  simp only [State.tcMoveTurn, h, hjob]
  rfl

theorem State.tcPipe_tcPlaced : (s.tcPlaced p m).tcPipe p =
    { s.tcPipe p with rows := SMap.put (fun _ => {}) (s.tcPipe p).rows m.key m.row, move := none, job := none } := by
  rw [State.tcPlaced, State.tcPipe_of_tc (State.setFld_tc ..), State.tcFree_shows.1, State.tcPipe_setTcPipe,
    State.tcPipe_of_tc (State.addCnt_tc ..), State.tcPipe_of_tc (State.addCnt_tc ..), State.tcPipe_setTcRow]

theorem State.tcRow_tcPlaced (k : Nat) : (s.tcPlaced p m).tcRow p k = if k = m.key then m.row else s.tcRow p k := by
  rw [State.tcRow, State.tcPipe_tcPlaced]
  exact SMap.get_put ..

theorem State.tcPlaced_go : (s.tcPlaced p m).bit (R.TC_IA_CMD p) F.TC_IA_CMD.GO = false :=
  (State.bit_setFld_ne _ _ _ _ _ _ (tcStatus_ne_cmd p)).trans State.tcFree_shows.2

theorem State.cnt_tcPlaced : (s.tcPlaced p m).cnt (C.TC_INSERTS p) = min (s.cnt (C.TC_INSERTS p) + 1) (2 ^ 48 - 1) := by
  have hcnts : (s.tcPlaced p m).cnts = (((s.setTcRow p m.key m.row).addCnt (C.TC_MOVES p) m.copies).addCnt (C.TC_INSERTS p) 1).cnts := by
    rw [State.tcPlaced, State.setFld_cnts, State.tcFree, State.setBit_cnts, State.setTcPipe_cnts, State.setTcPipe_cnts]
  rw [State.cnt_of_cnts hcnts, State.cnt_addCnt, State.cnt_addCnt_ne _ _ _ _ (by unfold C.TC_INSERTS C.TC_MOVES; omega),
    State.setTcRow, State.cnt_of_cnts (State.setTcPipe_cnts ..)]

end

/-- Settles O33: a command that is well formed is taken, the engine carries it out at the last tick that it may take, and each operation and
each tick of an INSERT is one of the equations above. -/
theorem tcIndirect : Obligations.TcIndirect := by
  unfold Obligations.TcIndirect
  refine ⟨fun fn p v s st t a s1 hw hidle hheld himg hst ht ha hdef hin hs1 => ?_,
    fun p s hmove hjob hbusy => ⟨_, State.tcTurn_last hmove hjob hbusy, State.tcLast_shows⟩,
    fun p s f op st t a k r hop hst ht ha hk hf hr hdef hin => ?_,
    fun p s m => ⟨fun c rest h => ⟨_, rfl, State.tcMoveTurn_copy h⟩, fun h hjob => ⟨_, State.tcMoveTurn_end h hjob, ?_⟩⟩⟩
  · have htaken {op : Nat} (h7 : op < 7) : Host.Outcome.next (s.command fn (R.TC_IA_CMD p) v [(F.TC_IA_CMD.OP, op), (F.TC_IA_CMD.GO, 1)]) =
        (Host.Outcome.next ((s1 op).settle s) : Out) := by
      rw [hs1]
      exact congrArg Host.Outcome.next (State.command_tc_taken hw hidle hheld himg hst ht ha hdef hin h7)
    exact ⟨htaken (op := 0) (by decide), htaken (op := 1) (by decide), htaken (op := 2) (by decide), htaken (op := 3) (by decide),
      htaken (op := 4) (by decide), htaken (op := 5) (by decide), htaken (op := 6) (by decide),
      fun op h7 => State.tcTaken_shows (hs1 op) (by omega)⟩
  · subst hk hf
    obtain ⟨hread, hwrite, hinsert, hdelete, hupdate, hsearch, hflush⟩ := State.tcRun_acts hop hst ht ha hdef hin
    refine ⟨fun h0 hsame => (hread h0).trans (State.tcRead_same hr hsame), fun h1 => hr ▸ hwrite h1,
      fun h2 => ⟨fun res hres => (hinsert h2).trans (congrArg (s.tcInserted p) hres),
        fun m hm => (hinsert h2).trans (congrArg (s.tcInserted p) hm)⟩,
      fun h3 => ⟨fun hv => (hdelete h3).trans (State.tcDelete_invalid hr hv), fun hv => (hdelete h3).trans (State.tcDelete_valid hr hv)⟩,
      fun h4 => ⟨fun hv => (hupdate h4).trans (State.tcUpdate_invalid hr hv), fun hv => (hupdate h4).trans (State.tcUpdate_valid hr hv)⟩,
      fun h5 g best bad x y hg hs hy => ⟨fun h => (hsearch h5).trans (State.tcIaSearch_none hg hs hy h),
        fun k' r' h => (hsearch h5).trans (State.tcIaSearch_some hg hs hy h)⟩,
      fun h6 => ⟨hflush h6, fun e _ he => State.tcFlush_invalid he⟩⟩
  · have hpipe := State.tcPipe_of_tc (p := p) (State.tcDone_tc (s := s.tcPlaced p m) (p := p) 0 (m.key % 2 ^ 17))
    have hrow (k : Nat) : ((s.tcPlaced p m).tcDone p 0 (m.key % 2 ^ 17)).tcRow p k = if k = m.key then m.row else s.tcRow p k :=
      (State.tcRow_of_tc (State.tcDone_tc ..) k).trans (State.tcRow_tcPlaced k)
    refine ⟨?_, ?_, (hrow _).trans (if_pos rfl), fun k hk => (hrow k).trans (if_neg hk),
      (State.bit_of_reg (State.tcDone_reg_ne (tcStatus_ne_cmd p) ..)).trans State.tcPlaced_go, State.tcDone_result ..,
      (State.tcDone_addr ..).trans (Nat.mod_mod ..),
      (State.cnt_of_cnts (State.tcDone_cnts ..) _).trans State.cnt_tcPlaced⟩
    · rw [hpipe, State.tcPipe_tcPlaced]
    · rw [hpipe, State.tcPipe_tcPlaced]

end Sys2Proof.Machine
end

section
/-! SUPPORT. The TCAM engine's own work (R192, R201, R204, R206, R207, R261, R495; O34): the mask sets, the scrubber, and the invalidation of
faulty entries. -/

namespace Sys2Proof.Machine

variable {s : State}

/-! ### The global mask sets (R192) -/

/-- The machine with word `i` of the staged mask sets of a table in use. -/
def State.gmaskWord (s : State) (p st t i : Nat) : State :=
  { s with gmask := SMap.put (fun _ => 0xFFFFFFFF) s.gmask (((p * 24 + st) * 2 + t) * 80 + i) (s.reg (R.TC_GMASK p st t (i / 20) (i % 20))) }

/-- The words taken so far are in use, and nothing else of the part changed. -/
theorem State.gmaskWords_take (p st t n : Nat) : ∃ m, (List.range n).foldl (fun s i => s.gmaskWord p st t i) s = { s with gmask := m } ∧
    ∀ i, i < n → SMap.get (fun _ => 0xFFFFFFFF) m (((p * 24 + st) * 2 + t) * 80 + i) = s.reg (R.TC_GMASK p st t (i / 20) (i % 20)) := by
  induction n with
  | zero => exact ⟨s.gmask, rfl, fun i hi => absurd hi (Nat.not_lt_zero i)⟩
  | succ n ih =>
    obtain ⟨m, hfold, hm⟩ := ih
    rw [List.range_succ, List.foldl_append, hfold]
    refine ⟨_, rfl, fun i hi => ?_⟩
    rw [SMap.get_put]
    by_cases hn : i = n
    · subst hn
      exact if_pos rfl
    · rw [if_neg (by omega)]
      exact hm i (by omega)

theorem State.gmaskTake_takes (p st t : Nat) : ∃ m, s.gmaskTake p st t = { s with gmask := m } ∧ ∀ g k, g < 4 → k < 20 →
    SMap.get (fun _ => 0xFFFFFFFF) m (((p * 24 + st) * 2 + t) * 80 + g * 20 + k) = s.reg (R.TC_GMASK p st t g k) := by
  obtain ⟨m, htake, hm⟩ := s.gmaskWords_take p st t 80
  refine ⟨m, htake, fun g k hg hk => ?_⟩
  have hword := hm (g * 20 + k) (by omega)
  rwa [← Nat.add_assoc, show (g * 20 + k) / 20 = g by omega, show (g * 20 + k) % 20 = k by omega] at hword

theorem exec_tcGmaskTake {fn : FnNo} {p : PipeNo} {st : StageNo} {t : Fin 2} (h : s.writable fn (R.TC_GMASK_CTL p st t) = true) :
    exec (.tcGmaskTake fn p st t) s = .next ((s.gmaskTake p st t).settle s) := by
  have htake : fldOf (taken (R.TC_GMASK_CTL p st t) (putFlds 0 [(F.TC_GMASK_CTL.TAKE, 1)])) F.TC_GMASK_CTL.TAKE = 1 :=
    fldOf_taken_set (findReg_TC_GMASK_CTL p st t p.isLt st.isLt t.isLt) _ _ _ (by decide) (by decide)
  refine congrArg Host.Outcome.next ((State.command_TC_GMASK_CTL p st t p.isLt st.isLt t.isLt h).trans ?_)
  simp only [State.regAct, State.writeStg, Wr.bit, htake, ne_eq, one_ne_zero, not_false_eq_true, decide_true, if_true]
  rfl

variable {p : Nat}

/-! ### An entry that is reported (R206, R207) -/

/-- The machine with a faulty entry counted, its address recorded and its cause raised. -/
def State.tcReported (s : State) (p key : Nat) (parity : Bool) : State :=
  let f := if parity then F.TC_CAUSE.SHADOW_PAR else F.TC_CAUSE.MISMATCH
  let s := s.addCnt (if parity then C.TC_SHADOW_PAR p else C.TC_MISMATCH p) 1
  let s := if s.bit (R.TC_CAUSE p) f then s
    else s.setReg (R.TC_ERR_ADDR p)
      (BitVec.ofNat 32 (2 ^ 31 + (if parity then 2 ^ 30 else 0) + key / 2 ^ 18 * 2 ^ 19 + key / 2 ^ 17 % 2 * 2 ^ 18 + key % 2 ^ 17))
  s.cause (R.TC_CAUSE p) f

theorem State.tcFault_reports (key : Nat) (parity : Bool) : s.tcFault p key parity =
    if ((s.tcReported p key parity).tcPipe p).toClear.contains (((s.tcReported p key parity).tcPipe p).lasting key)
    then s.tcReported p key parity
    else (s.tcReported p key parity).setTcPipe p { (s.tcReported p key parity).tcPipe p with
      toClear := ((s.tcReported p key parity).tcPipe p).toClear ++ [((s.tcReported p key parity).tcPipe p).lasting key] } := rfl

theorem State.tcReported_tc (key : Nat) (parity : Bool) : (s.tcReported p key parity).tc = s.tc := by
  unfold State.tcReported
  exact (State.cause_tc ..).trans ((apply_ite State.tc ..).trans (ite_self _))

theorem State.tcReported_cnts (key : Nat) (parity : Bool) :
    (s.tcReported p key parity).cnts = (s.addCnt (if parity then C.TC_SHADOW_PAR p else C.TC_MISMATCH p) 1).cnts := by
  unfold State.tcReported
  exact (State.cause_cnts ..).trans ((apply_ite State.cnts ..).trans (ite_self _))

/-- A reported entry waits for invalidation where it lasts, and the tables are as they were. -/
theorem State.tcFault_waits (key : Nat) (parity : Bool) : (s.tcPipe p).lasting key ∈ ((s.tcFault p key parity).tcPipe p).toClear ∧
    ((s.tcFault p key parity).tcPipe p).rows = (s.tcPipe p).rows := by
  have hpipe : (s.tcReported p key parity).tcPipe p = s.tcPipe p := State.tcPipe_of_tc (State.tcReported_tc ..)
  rw [State.tcFault_reports, hpipe]
  split
  · next hin => exact ⟨by rw [hpipe]; exact List.contains_iff_mem.mp hin, congrArg TcPipe.rows hpipe⟩
  · rw [State.tcPipe_setTcPipe]
    exact ⟨List.mem_append_right _ (List.mem_singleton_self _), rfl⟩

theorem State.cnt_tcFault {c : Nat} (key : Nat) (parity : Bool) (hpar : c ≠ C.TC_SHADOW_PAR p) (hmis : c ≠ C.TC_MISMATCH p) :
    (s.tcFault p key parity).cnt c = s.cnt c := by
  have hreported : (s.tcReported p key parity).cnt c = s.cnt c := by
    refine (State.cnt_of_cnts (State.tcReported_cnts ..) c).trans (State.cnt_addCnt_ne _ _ _ _ ?_)
    split
    · exact hpar
    · exact hmis
  rw [State.tcFault_reports]
  split
  · exact hreported
  · exact (State.cnt_of_cnts (State.setTcPipe_cnts ..) c).trans hreported

/-! ### The scrubber (R204 to R206) -/

/-- What a visit does with the row at `k` by what the comparison of its copies found. -/
def State.scrubFound (s : State) (p k : Nat) (r : TcRow) (w j : Nat) : TcDiff → State
  | .same => s
  | .normal => ((s.setTcRow p k (tcNormalise r w j)).addCnt (C.TC_NORMALISED p) 1).cause (R.TC_CAUSE p) F.TC_CAUSE.NORMALISED
  | .mismatch => s.tcFault p k false
  | .parity => s.tcFault p k true

/-- What is found leaves the count of the rows visited. -/
theorem State.cnt_scrubFound (k : Nat) (r : TcRow) (w j : Nat) (d : TcDiff) :
    (s.scrubFound p k r w j d).cnt (C.TC_SCRUB_ROWS p) = s.cnt (C.TC_SCRUB_ROWS p) := by
  have hfault (parity : Bool) : (s.tcFault p k parity).cnt (C.TC_SCRUB_ROWS p) = s.cnt (C.TC_SCRUB_ROWS p) :=
    State.cnt_tcFault _ _ (by unfold C.TC_SCRUB_ROWS C.TC_SHADOW_PAR; omega) (by unfold C.TC_SCRUB_ROWS C.TC_MISMATCH; omega)
  cases d with
  | same => rfl
  | normal =>
    refine (State.cnt_of_cnts (State.cause_cnts ..) _).trans ((State.cnt_addCnt_ne _ _ _ _ ?_).trans
      (State.cnt_of_cnts (State.setTcPipe_cnts ..) _))
    unfold C.TC_SCRUB_ROWS C.TC_NORMALISED
    omega
  | mismatch => exact hfault false
  | parity => exact hfault true

section

variable {s1 : State} (h1 : s1 = s.setTcPipe p { s.tcPipe p with since := 0 })

include h1

/-- Without an image, without a table, or switched off, the scrubber visits nothing. -/
theorem State.scrubStep_idle (h : (s.pipe p).img = none ∨ s.bit (R.TC_SCRUB_CTL p) F.TC_SCRUB_CTL.EN = false ∨
    ∃ img, (s.pipe p).img = some img ∧ tcBlocks img = []) : s.scrubStep p = s1 := by
  have hpipe : (s.setTcPipe p { s.tcPipe p with since := 0 }).pipe p = s.pipe p := rfl
  have hen : (s.setTcPipe p { s.tcPipe p with since := 0 }).bit (R.TC_SCRUB_CTL p) F.TC_SCRUB_CTL.EN =
      s.bit (R.TC_SCRUB_CTL p) F.TC_SCRUB_CTL.EN := rfl
  rw [h1, State.scrubStep, hpipe]
  rcases h with hnone | hoff | ⟨img, himg, hempty⟩
  · rw [hnone]
  · split
    · rfl
    · rw [hen, hoff]
      rfl
  · rw [himg]
    dsimp only
    rw [hempty, List.isEmpty_nil, Bool.or_true, if_pos rfl]

/-- A visit compares the copies of the row where the scrubber stands, counts it, and moves on by one row. -/
theorem State.scrubStep_visits {img : Image} {b blk st t sl j w row k blk' row' : Nat} {first : Nat × Nat × Nat × Nat × Nat} {r : TcRow}
    {s2 s3 : State} (himg : (s.pipe p).img = some img) (hen : s.bit (R.TC_SCRUB_CTL p) F.TC_SCRUB_CTL.EN = true)
    (hblocks : tcBlocks img = first :: (tcBlocks img).tail) (hb : b = s.fld (R.TC_SCRUB_POS p) F.TC_SCRUB_POS.BLOCK)
    (hat : ((tcBlocks img).find? (fun x => decide (b ≤ x.1))).getD first = (blk, st, t, sl, j))
    (hrow : row = if blk = b then s.fld (R.TC_SCRUB_POS p) F.TC_SCRUB_POS.ROW else 0)
    (hnext : (blk', row') = if row + 1 < 1024 then (blk, row + 1)
      else ((((tcBlocks img).find? fun x => decide (blk < x.1)).getD first).1, 0))
    (hw : w = s.tcW p st t) (hk : k = tcKey st t (sl * 1024 + row)) (hr : r = s.tcRow p k) (h2 : s2 = s1.addCnt (C.TC_SCRUB_ROWS p) 1)
    (h3 : s3 = s2.scrubFound p k r w j (tcCompare r w j)) :
    s.scrubStep p = (s3.setFld (R.TC_SCRUB_POS p) F.TC_SCRUB_POS.BLOCK blk').setFld (R.TC_SCRUB_POS p) F.TC_SCRUB_POS.ROW row' := by
  have hhead : (tcBlocks img).headD (0, 0, 0, 0, 0) = first := by
    rw [hblocks]
    rfl
  have hsome : (tcBlocks img).isEmpty = false := by
    rw [hblocks]
    rfl
  have hpipe : s1.pipe p = s.pipe p := by rw [h1]; rfl
  have hreg (a : Nat) : s1.reg a = s.reg a := State.reg_of_regs (by rw [h1, State.setTcPipe_regs]) a
  have hkept (l : Nat) : s1.tcRow p l = s.tcRow p l := by rw [h1, State.tcRow_setTcPipe (by rfl)]
  have hwidth : s1.tcW p st t = s.tcW p st t := State.fld_of_reg (hreg _)
  unfold State.scrubStep
  rw [← h1]
  dsimp only
  rw [hpipe, himg]
  dsimp only
  rw [State.bit_of_reg (hreg _), hen, hsome, hhead, State.fld_of_reg (hreg _), ← hb, hat]
  dsimp only
  rw [State.fld_of_reg (hreg _), ← hrow, ← hk, hkept, ← hr, hwidth, ← hw, ← h2, ← hnext, h3]
  cases tcCompare r w j <;> rfl

end

/-! ### Invalidation (R206, R208, R261) -/

theorem State.tcInvalidate_idle (h : (s.tcPipe p).runs = true ∨ (s.tcPipe p).toClear = []) : s.tcInvalidate p = s := by
  unfold State.tcInvalidate
  split
  · rfl
  · next hclear => rw [if_pos (h.resolve_right (by rw [hclear]; exact List.cons_ne_nil _ _))]

theorem State.tcInvalidate_head {k : Nat} {rest : List Nat} (hfree : (s.tcPipe p).runs = false) (hclear : (s.tcPipe p).toClear = k :: rest) :
    s.tcInvalidate p = (s.setTcPipe p { s.tcPipe p with toClear := rest }).tcCleared p k := by
  simp only [State.tcInvalidate, hclear, hfree, Bool.false_eq_true, if_false]
  rfl

theorem State.toClear_tcCleared (k : Nat) : ((s.tcCleared p k).tcPipe p).toClear = (s.tcPipe p).toClear := by
  rw [State.tcCleared, State.tcPipe_of_tc (State.tcOutside_tc _), State.tcPipe_setTcRow]

theorem State.tcCleared_unmarked {k : Nat} (h : (s.tcRow p k).marked = false) :
    (s.tcCleared p k).regs = s.regs ∧ (s.tcCleared p k).cnts = s.cnts := by
  rw [State.tcCleared, State.tcOutside, h, if_neg Bool.false_ne_true]
  exact ⟨rfl, rfl⟩

theorem State.tcCleared_marked {k : Nat} (h : (s.tcRow p k).marked = true) :
    (s.tcCleared p k).cnt (C.VER_GRP_LOST p) = min (s.cnt (C.VER_GRP_LOST p) + 1) (2 ^ 48 - 1) ∧
      ((s.tcCleared p k).reg (R.VER_CAUSE (s.ownerOfPipe p))).getLsbD F.VER_CAUSE.GRP_LOST.lo = true := by
  rw [State.tcCleared, State.tcOutside, h, if_pos rfl]
  exact State.grpLost_shows

/-! ### The two rows of the opcode table -/

theorem exec_scrubVisit {p : PipeNo} (hon : s.stageOn p 0 = true) (hturn : s.scrubTurn p = true) :
    exec (.scrubVisit p) s = .next (s.scrubStep p) :=
  congrArg Host.Outcome.next ((if_pos hon).trans (if_pos hturn))

theorem exec_scrubVisit_not {p : PipeNo} (h : s.stageOn p 0 = false ∨ s.scrubTurn p = false) : exec (.scrubVisit p) s = .next s := by
  refine congrArg Host.Outcome.next (ite_eq_right_iff.mpr fun hon => if_neg ?_)
  rw [h.resolve_left (by rw [hon]; decide)]
  decide

theorem exec_tcInvalidate {p : PipeNo} (hon : s.stageOn p 0 = true) : exec (.tcInvalidate p) s = .next (s.tcInvalidate p) :=
  congrArg Host.Outcome.next (if_pos hon)

theorem exec_tcInvalidate_not {p : PipeNo} (h : s.stageOn p 0 = false ∨ (s.tcPipe p).runs = true ∨ (s.tcPipe p).toClear = []) :
    exec (.tcInvalidate p) s = .next s :=
  congrArg Host.Outcome.next (ite_eq_right_iff.mpr fun hon => State.tcInvalidate_idle (h.resolve_left (by rw [hon]; decide)))

/-- Settles O34: the mask sets are taken word by word, a visit is one of the equations of the scrubber, and the entry that waits longest is
cleared. -/
theorem tcEngine : Obligations.TcEngine := by
  unfold Obligations.TcEngine
  intro fn p s
  refine ⟨fun st t hw => ?_, fun hon hturn s1 h1 => ⟨fun hidle => ?_, ?_⟩, exec_scrubVisit_not, fun hon hfree k rest r hclear hr => ?_,
    exec_tcInvalidate_not, fun k parity => ⟨_, rfl, State.tcFault_waits k parity⟩⟩
  · obtain ⟨m, htake, hm⟩ := s.gmaskTake_takes p st t
    exact ⟨_, exec_tcGmaskTake hw, ⟨m, htake⟩, by rw [htake]; exact hm⟩
  · rw [exec_scrubVisit hon hturn, State.scrubStep_idle h1 hidle]
  · intro img b first blk st t sl j w row k r s2 s3 blk' row' himg hen hblocks hb hat hrow hnext hfit hwidth hk hr h2 h3
    have hfound : s3 = s2.scrubFound p k r w j (tcCompare r w j) := h3.trans (by cases tcCompare r w j <;> rfl)
    have hlast : row' < 1024 := by
      have hrow' := congrArg Prod.snd hnext
      dsimp only at hrow'
      split at hrow' <;> omega
    refine ⟨_, exec_scrubVisit hon hturn, ?_⟩
    rw [State.scrubStep_visits h1 himg hen hblocks hb hat hrow hnext hwidth hk hr h2 hfound]
    refine ⟨?_, (State.fld_setFld _ _ _ _ (by decide)).trans (Nat.mod_eq_of_lt hlast), ?_, ?_, fun a ha => ?_, ?_, fun hsame => ?_⟩
    · rw [State.fld_setFld_beside _ _ _ _ _ (by decide) (by decide), State.fld_setFld _ _ _ _ (by decide), Nat.mod_eq_of_lt hfit]
    · exact State.tcPipe_of_tc ((State.setFld_tc ..).trans (State.setFld_tc ..))
    · exact (State.setFld_cnts ..).trans (State.setFld_cnts ..)
    · rw [State.reg_setFld_ne _ _ _ _ _ ha, State.reg_setFld_ne _ _ _ _ _ ha]
    · rw [State.cnt_of_cnts (State.setFld_cnts ..), State.cnt_of_cnts (State.setFld_cnts ..), hfound, State.cnt_scrubFound, h2,
        State.cnt_addCnt, h1, State.cnt_of_cnts (State.setTcPipe_cnts ..)]
    · rw [State.tcPipe_of_tc (State.setFld_tc ..), State.tcPipe_of_tc (State.setFld_tc ..), hfound, hsame, State.scrubFound, h2,
        State.tcPipe_of_tc (State.addCnt_tc ..), h1, State.tcPipe_setTcPipe]
  · have hkept (l : Nat) : (s.setTcPipe p { s.tcPipe p with toClear := rest }).tcRow p l = s.tcRow p l := State.tcRow_setTcPipe (by rfl) l
    refine ⟨_, exec_tcInvalidate hon, ?_⟩
    rw [State.tcInvalidate_head hfree hclear]
    refine ⟨?_, ?_, fun k' hk => ?_, fun hm => ?_, fun hm => ?_⟩
    · rw [State.tcRow_tcCleared, if_pos rfl, hkept, hr]
    · rw [State.toClear_tcCleared, State.tcPipe_setTcPipe]
    · rw [State.tcRow_tcCleared, if_neg hk, hkept]
    · exact State.tcCleared_unmarked (by rw [hkept, ← hr, hm])
    · exact State.tcCleared_marked (by rw [hkept, ← hr, hm])

end Sys2Proof.Machine
end

section
/-! SUPPORT. The swap of the customer banks of a pipeline (R234, R235, R635; O38): GO, the landing, the drain, and the standby words. -/

namespace Sys2Proof.Machine

variable {s : State} {p : Nat}

theorem swapErr_ne_swap (p : Nat) : R.STG_UC_SWAP_ERR p ≠ R.STG_UC_SWAP p := by
  unfold R.STG_UC_SWAP_ERR R.STG_UC_SWAP
  omega

/-! ### GO (R234) -/

theorem exec_ucSwapGo {fn : FnNo} {p : PipeNo} (h : s.writable fn (swapAddr p) = true) :
    exec (.ucSwapGo fn p) s = .next ((s.swapGo (host fn) p (swapAddr p)).settle s) := by
  have hgo : fldOf (taken (swapAddr p) (putFlds 0 [(F.STG_UC_SWAP.GO, 1)])) F.STG_UC_SWAP.GO = 1 :=
    fldOf_taken_set (findReg_swap p p.isLt) _ _ _ (by decide) (by decide)
  refine congrArg Host.Outcome.next ((State.command_of_writable h (.inl (s.physAddr_swap fn p p.isLt)) (findReg_swap p p.isLt)).trans ?_)
  simp only [State.regAct, State.writeStg, Wr.bit, hgo, ne_eq, one_ne_zero, not_false_eq_true, decide_true, if_true]

theorem State.swapGo_closed {i : Issuer} {a : Nat} (h : s.presOpen = false) :
    s.swapGo i p a = (s.presRefuse i a).audit 0x0D true p (s.ucHash p) := by
  simp only [State.swapGo, h, Bool.not_false, if_true]

/-- The machine in which a swap of pipeline p runs, until it lands. -/
def State.swapBegun (s : State) (p : Nat) : State :=
  let s := (s.setReg (R.STG_UC_SWAP_ERR p) 0).setPipe p { s.pipe p with swapDue := true, swapOld := false }
  (s.setFld (R.STG_UC_SWAP p) F.STG_UC_SWAP.RESULT 15).setBit (R.STG_UC_SWAP p) F.STG_UC_SWAP.GO true

/-- The machine with the first failure of the standby banks of pipeline p recorded. -/
def State.swapErr (s : State) (p st wd ck : Nat) : State :=
  s.setReg (R.STG_UC_SWAP_ERR p) (putFlds 0 [(F.STG_UC_SWAP_ERR.VALID, 1), (F.STG_UC_SWAP_ERR.STAGE, st),
    (F.STG_UC_SWAP_ERR.CHECK, ck), (F.STG_UC_SWAP_ERR.WORD, wd)])

theorem any_hooks {o : Option Image} (h : ∃ g, o = some g ∧ Image.hasHooks g = true) : (o.any fun g => Image.hasHooks g) = true :=
  let ⟨_, ho, hg⟩ := h
  ho ▸ hg

section

variable {i : Issuer} {a : Nat} (hopen : s.presOpen = true) (hdue : (s.pipe p).swapDue = false)
  (hdrain : s.bit (R.STG_UC_SWAP p) F.STG_UC_SWAP.DRAINING = false) (hreset : s.inReset (s.ownerOfPipe p) = false)
  (hhooks : ∃ g, (s.pipe p).img = some g ∧ Image.hasHooks g = true)

include hopen hdue hdrain hreset hhooks

theorem State.swapGo_good (h : s.ucSwapCheck p = none) : s.swapGo i p a = s.swapBegun p := by
  simp only [State.swapGo, hopen, hdue, hdrain, hreset, any_hooks hhooks, h, Bool.not_true, Bool.or_self, Bool.false_eq_true,
    if_false]
  rfl

theorem State.swapGo_bad {st wd ck : Nat} (h : s.ucSwapCheck p = some (st, wd, ck)) :
    s.swapGo i p a = ((s.swapErr p st wd ck).swapRefuse p 1).cause (R.STG_UC_CAUSE p 0) F.STG_UC_CAUSE.SWAP_FAIL := by
  simp only [State.swapGo, hopen, hdue, hdrain, hreset, any_hooks hhooks, h, Bool.not_true, Bool.or_self, Bool.false_eq_true,
    if_false]
  rfl

end

theorem State.pipe_swapBegun : (s.swapBegun p).pipe p = { s.pipe p with swapDue := true, swapOld := false } := SMap.get_put_same ..

theorem State.result_swapBegun : (s.swapBegun p).fld (R.STG_UC_SWAP p) F.STG_UC_SWAP.RESULT = 15 :=
  (State.fld_setFld_beside _ _ _ _ _ (by decide) (by decide)).trans (State.fld_setFld _ _ _ _ (by decide))

theorem State.go_swapBegun : (s.swapBegun p).bit (R.STG_UC_SWAP p) F.STG_UC_SWAP.GO = true := by
  rw [State.swapBegun, State.bit_setBit _ _ _ _ (by decide) (by decide)]

theorem State.reg_swapBegun {b : Nat} (h : b ≠ R.STG_UC_SWAP p) : (s.swapBegun p).reg b = (s.setReg (R.STG_UC_SWAP_ERR p) 0).reg b := by
  rw [State.swapBegun, State.reg_setBit_ne _ _ _ _ _ h, State.reg_setFld_ne _ _ _ _ _ h, State.setPipe_reg]

/-- A swap that begins leaves the active bank. -/
theorem State.ucBank_swapBegun : (s.swapBegun p).ucBank p = s.ucBank p :=
  (State.fld_setFld_beside _ _ _ _ _ (by decide) (by decide)).trans <|
    (State.fld_setFld_beside _ _ _ _ _ (by decide) (by decide)).trans <|
      State.fld_of_reg ((State.setPipe_reg ..).trans (State.reg_setReg_ne _ _ _ _ (swapErr_ne_swap p).symm))

/-! ### The landing (R235, R635) -/

/-- STG_UC_SWAP as a swap lands. -/
def landedWord (chk bank : Nat) : Word :=
  putFlds 0 [(F.STG_UC_SWAP.CHECKED, chk), (F.STG_UC_SWAP.DRAINING, 1), (F.STG_UC_SWAP.BANK, bank)]

theorem fldOf_landedWord_bank (chk bank : Nat) : fldOf (landedWord chk bank) F.STG_UC_SWAP.BANK = bank % 2 :=
  fldOf_putFld _ F.STG_UC_SWAP.BANK _ (by decide)

theorem fldOf_landedWord_draining (chk bank : Nat) : fldOf (landedWord chk bank) F.STG_UC_SWAP.DRAINING = 1 :=
  (fldOf_putFld_ne _ F.STG_UC_SWAP.BANK _ _ (by decide) (by decide)).trans (fldOf_putFld _ F.STG_UC_SWAP.DRAINING _ (by decide))

theorem fldOf_landedWord_checked (chk bank : Nat) : fldOf (landedWord chk bank) F.STG_UC_SWAP.CHECKED = chk % 2 :=
  (fldOf_putFld_ne _ F.STG_UC_SWAP.BANK _ _ (by decide) (by decide)).trans
    ((fldOf_putFld_ne _ F.STG_UC_SWAP.DRAINING _ _ (by decide) (by decide)).trans (fldOf_putFld _ F.STG_UC_SWAP.CHECKED _ (by decide)))

/-- The machine with the standby banks of pipeline p active, before the audit of the swap. -/
def State.swapLanded (s : State) (p : Nat) : State :=
  (s.setPipe p { s.pipe p with swapDue := false, swapOld := false }).setReg (R.STG_UC_SWAP p)
    (landedWord (if (s.pipe p).swapOld then 0 else 1) (1 - s.ucBank p))

theorem State.swapLand_due (h : (s.pipe p).swapDue = true) :
    s.swapLand p = (s.swapLanded p).audit 0x0D false p ((s.swapLanded p).ucHash p) := by
  simp only [State.swapLand, h, Bool.not_true, Bool.false_eq_true, if_false]
  rfl

theorem State.swapLand_idle (h : (s.pipe p).swapDue = false) : s.swapLand p = s := by
  simp only [State.swapLand, h, Bool.not_false, if_true]

theorem State.pipe_swapLanded : (s.swapLanded p).pipe p = { s.pipe p with swapDue := false, swapOld := false } := SMap.get_put_same ..

theorem State.fld_swapLanded (f : Fld) : (s.swapLanded p).fld (R.STG_UC_SWAP p) f =
    fldOf (landedWord (if (s.pipe p).swapOld then 0 else 1) (1 - s.ucBank p)) f := State.fld_setReg ..

theorem State.ucBank_swapLanded : (s.swapLanded p).ucBank p = (1 - s.ucBank p) % 2 :=
  (State.fld_swapLanded _).trans (fldOf_landedWord_bank ..)

theorem State.draining_swapLanded : (s.swapLanded p).bit (R.STG_UC_SWAP p) F.STG_UC_SWAP.DRAINING = true := by
  rw [State.bit, State.fld_swapLanded, fldOf_landedWord_draining]
  rfl

/-- The banks that land are checked unless a new image was loaded meanwhile (R635). -/
theorem State.ucChecked_swapLanded : (s.swapLanded p).ucChecked p = !(s.pipe p).swapOld := by
  rw [State.ucChecked, State.bit, State.fld_swapLanded, fldOf_landedWord_checked]
  cases (s.pipe p).swapOld <;> rfl

/-! ### The drain (R235) -/

theorem State.swapDrained_done (h : s.oldBankIn p = false) :
    s.swapDrained p = s.setBit (R.STG_UC_SWAP p) F.STG_UC_SWAP.DRAINING false := by
  simp only [State.swapDrained, h, Bool.false_eq_true, if_false]

theorem State.swapDrained_waits (h : s.oldBankIn p = true) : s.swapDrained p = s := if_pos h

/-! ### The standby words (R235) -/

theorem exec_ucStbyWrite {fn : FnNo} {p : PipeNo} {st : StageNo} {k : Fin 1024} {v : Word}
    (h : s.writable fn (R.STG_UC_STBY p st k) = true) :
    exec (.ucStbyWrite fn p st k v) s = .next ((s.stbyWrite fn p st k (taken (R.STG_UC_STBY p st k) v)).settle s) :=
  congrArg Host.Outcome.next ((State.command_STG_UC_STBY p st k p.isLt st.isLt k.isLt h).trans
    (by simp only [State.regAct, State.writeStg, putFlds, List.foldl_nil, host, ix0, List.headD_cons]))

theorem State.stbyWrite_stores {f st k : Nat} {v : Word} (hdue : (s.pipe p).swapDue = false)
    (hdrain : s.bit (R.STG_UC_SWAP p) F.STG_UC_SWAP.DRAINING = false) :
    s.stbyWrite f p st k v = s.setUcStore p st ((s.ucStore p st).put (1 - s.ucBank p) (3072 + k) v) := by
  simp only [State.stbyWrite, hdue, hdrain, Bool.or_self, Bool.false_eq_true, if_false]

theorem State.stbyWrite_busy {f st k : Nat} {v : Word}
    (h : (s.pipe p).swapDue = true ∨ s.bit (R.STG_UC_SWAP p) F.STG_UC_SWAP.DRAINING = true) :
    s.stbyWrite f p st k v = (s.cause (R.STG_UC_CAUSE p st) F.STG_UC_CAUSE.STBY_BUSY).busyWrite f := if_pos (Bool.or_eq_true_iff.mpr h)

theorem State.cause_uc (a : Nat) (f : Fld) : (s.cause a f).uc = s.uc := by rw [(State.cause_alarms (as := [a]) s a f (.inl (by simp))).eq]

/-- A customer word that is stored leaves the words of the other bank, and the other words of its own. -/
theorem UcStore.word_put_hook (u : UcStore) {b c w x : Nat} (v : Word) (hb : b < 2) (hc : c < 2) (hw : 3072 ≤ w) (h : c ≠ b ∨ x ≠ w) :
    (u.put b w v).word c x = u.word c x := by
  have hmark : ucMark b w = b * 4096 + w := by rw [ucMark, if_neg (by omega)]
  by_cases hx : x < 3072
  · exact UcStore.word_put_ne u v hb hc (by rw [hmark, ucMark, if_pos hx]; omega)
  · unfold UcStore.put UcStore.word
    simp only [hx, show ¬ w < 3072 by omega, if_false]
    by_cases h0 : b = 0 <;> by_cases h1 : c = 0 <;> simp only [h0, h1, if_true, if_false]
    all_goals exact SMap.get_put_ne _ _ _ _ _ (by omega)

/-- Settles O38: GO is refused, begins a swap or reports the failure of its check; the landing and the drain are judged by what they wait
for; and a standby word is stored where no swap runs. -/
theorem microcodeSwap : Obligations.MicrocodeSwap := by
  unfold Obligations.MicrocodeSwap
  intro fn p s
  refine ⟨fun hw => ⟨fun hclosed => ?_, fun hopen hdue hdrain hreset hhooks => ⟨fun hgood => ?_, fun st wd ck hbad => ?_⟩⟩,
    fun hdue => ?_, fun hidle => congrArg Host.Outcome.next (State.swapLand_idle hidle), fun hdone => ?_,
    fun hwaits => congrArg Host.Outcome.next (State.swapDrained_waits hwaits),
    fun st k v hw => ⟨fun hdue hdrain hbank => ?_, fun hbusy => ?_⟩⟩
  · rw [exec_ucSwapGo hw, State.swapGo_closed hclosed]
  · refine ⟨s.swapBegun p, ?_, ?_, ?_, State.result_swapBegun, State.go_swapBegun, ?_, State.ucBank_swapBegun⟩
    · rw [exec_ucSwapGo hw, State.swapGo_good hopen hdue hdrain hreset hhooks hgood]
    · rw [State.pipe_swapBegun]
    · rw [State.pipe_swapBegun]
    · rw [State.reg_swapBegun (swapErr_ne_swap p), State.reg_setReg]
  · refine ⟨s.swapErr p st wd ck, State.reg_setReg .., fun a ha => State.reg_setReg_ne _ _ _ _ ha, ⟨_, rfl⟩, ?_⟩
    rw [exec_ucSwapGo hw, State.swapGo_bad hopen hdue hdrain hreset hhooks hbad]
  · refine ⟨s.swapLanded p, ?_, State.ucBank_swapLanded, State.ucChecked_swapLanded, State.draining_swapLanded,
      congrArg Host.Outcome.next (State.swapLand_due hdue)⟩
    rw [State.pipe_swapLanded]
  · exact ⟨_, congrArg Host.Outcome.next (State.swapDrained_done hdone), State.bit_setBit _ _ _ _ (by decide) (by decide),
      fun a ha => State.reg_setBit_ne _ _ _ _ _ ha, _, rfl⟩
  · refine ⟨_, exec_ucStbyWrite hw, ?_⟩
    rw [State.stbyWrite_stores hdue hdrain]
    refine ⟨?_, fun b w hother hb => ?_, _, rfl⟩
    · rw [State.ucStore_setUcStore, UcStore.word_put]
    · rw [State.ucStore_setUcStore, UcStore.word_put_hook _ _ (by omega) hb (by omega) hother]
  · refine ⟨_, exec_ucStbyWrite hw, ?_⟩
    rw [State.stbyWrite_busy hbusy]
    exact ⟨(State.cause_uc ..).trans (State.cause_uc ..), rfl⟩

end Sys2Proof.Machine
end

section
/-! SUPPORT. The version block of a Pitch (R248, R252, R253): where its registers are held, what a command's write leaves, and what a result
and a change of STATE leave of each other. -/

namespace Sys2Proof.Machine

variable {s t : State} {n : Nat}

/-! ### The pipelines of a Pitch, and its reset -/

theorem State.pipesOf_of_reg (h : ∀ p, p < 16 → t.reg (R.PIT_MAP p) = s.reg (R.PIT_MAP p)) : t.pipesOf n = s.pipesOf n :=
  List.filter_congr fun p hp => by rw [State.ownerOfPipe, State.fld_of_reg (h p (List.mem_range.mp hp))]; rfl

section

variable {a : Nat} (v : Word) (ha : 0x10000000 ≤ a)

include ha

theorem State.pipesOf_setReg : (s.setReg a v).pipesOf n = s.pipesOf n :=
  State.pipesOf_of_reg fun p hp => State.reg_setReg_ne _ _ _ _ (by unfold R.PIT_MAP; omega)

theorem State.inReset_setReg (hn : n < 32) : (s.setReg a v).inReset n = s.inReset n := by
  have hctl : (s.setReg a v).reg (R.PIT_CTL n) = s.reg (R.PIT_CTL n) := State.reg_setReg_ne _ _ _ _ (by unfold R.PIT_CTL; omega)
  unfold State.inReset
  rw [(s.setReg_atPit v (by omega)).pitchExists, State.bit_of_reg hctl, State.bit_of_reg hctl, State.setReg_irq]

theorem State.boundariesLeft_setReg : (s.setReg a v).boundariesLeft = s.boundariesLeft := by
  unfold State.boundariesLeft State.lateInRound
  rw [State.fld_setReg_ne _ _ _ _ _ (by unfold R.DEV_ROUND_PHASE; omega)]

end

/-! ### Results and STATE -/

theorem State.verState_of_reg (h : t.reg (R.VER_STATUS n) = s.reg (R.VER_STATUS n)) : t.verState n = s.verState n := State.fld_of_reg h

theorem State.verState_setVerState {v : Nat} (h : v < 8) : (s.setVerState n v).verState n = v :=
  (State.fld_setFld _ _ _ _ (by decide)).trans (Nat.mod_eq_of_lt h)

theorem verStatus_ne_cmd (n : Nat) : R.VER_STATUS n ≠ R.VER_CMD n := by unfold R.VER_STATUS R.VER_CMD; omega

theorem verStatus_ne_cause (n : Nat) : R.VER_STATUS n ≠ R.VER_CAUSE n := by unfold R.VER_STATUS R.VER_CAUSE; omega

theorem verStatus_not_irqBlock (n : Nat) : ¬ irqBlock (R.VER_STATUS n) := by unfold irqBlock R.VER_STATUS; omega

/-- A result that refuses nothing is shown, and raises no cause. -/
theorem State.verResult_accepts {r : Nat} (h : r = 0 ∨ r = 3) : s.verResult n r = s.setFld (R.VER_CMD n) F.VER_CMD.RESULT r := if_pos h

theorem State.verResult_refuses {r : Nat} (h : ¬ (r = 0 ∨ r = 3)) :
    s.verResult n r = (s.setFld (R.VER_CMD n) F.VER_CMD.RESULT r).cause (R.VER_CAUSE n) F.VER_CAUSE.CMD_REFUSED := if_neg h

/-- A result leaves the registers of the version block but VER_CMD and VER_CAUSE. -/
theorem State.reg_verResult {b : Nat} (r : Nat) (hcmd : b ≠ R.VER_CMD n) (hcause : b ≠ R.VER_CAUSE n) (hirq : ¬ irqBlock b) :
    (s.verResult n r).reg b = s.reg b := by
  have hset : (s.setFld (R.VER_CMD n) F.VER_CMD.RESULT r).reg b = s.reg b := State.reg_setFld_ne _ _ _ _ _ hcmd
  by_cases h : r = 0 ∨ r = 3
  · rw [State.verResult_accepts h, hset]
  · rw [State.verResult_refuses h, State.cause_reg_ne hcause hirq, hset]

theorem State.verState_verResult (r : Nat) : (s.verResult n r).verState n = s.verState n :=
  State.verState_of_reg (State.reg_verResult r (verStatus_ne_cmd n) (verStatus_ne_cause n) (verStatus_not_irqBlock n))

theorem State.result_verResult {r : Nat} (h16 : r < 16) : (s.verResult n r).fld (R.VER_CMD n) F.VER_CMD.RESULT = r := by
  have hset : (s.setFld (R.VER_CMD n) F.VER_CMD.RESULT r).fld (R.VER_CMD n) F.VER_CMD.RESULT = r :=
    (State.fld_setFld _ _ _ _ (by decide)).trans (Nat.mod_eq_of_lt h16)
  by_cases h : r = 0 ∨ r = 3
  · rw [State.verResult_accepts h, hset]
  · rw [State.verResult_refuses h, State.cause_fld_ne (by unfold R.VER_CMD R.VER_CAUSE; omega) (by unfold irqBlock R.VER_CMD; omega), hset]

theorem State.refused_verResult {r : Nat} (h : ¬ (r = 0 ∨ r = 3)) :
    ((s.verResult n r).reg (R.VER_CAUSE n)).getLsbD F.VER_CAUSE.CMD_REFUSED.lo = true := by
  rw [State.verResult_refuses h]
  exact State.cause_set (verCause_not_irqBlock n) (by decide)

/-! ### VER_CMD: its CMD and GO stand where OP and GO of STG_IA_CMD stand, so that `iaWord` is the word that a command writes -/

section

variable {fn : FnNo} {p : PipeNo} {v w : Word} {c : Nat} (hw : s.writable fn (verAddr p) = true) (hn : n = s.ownerOfPipe p)

include hw

/-- A function may write VER_CMD in the window of a pipeline that has an owner. -/
theorem State.physAddr_verAddr_writable : s.physAddr fn (verAddr p) = some (R.VER_CMD (s.ownerOfPipe p)) := by
  refine (s.physAddr_verAddr fn p p.isLt).resolve_right fun hnone => ?_
  have hplace : s.place fn fn (verAddr p) = .gap ∨ s.place fn fn (verAddr p) = .zero := by
    unfold State.place
    rw [hnone]
    split
    · exact .inl rfl
    · exact .inr rfl
  rw [State.writable, Bool.and_eq_true_iff] at hw
  rcases hplace with h | h <;> simp [h] at hw

include hn

theorem State.wrote_ver : ∃ x, s.wrote fn (verAddr p) w = s.setReg (R.VER_CMD n) x :=
  hn ▸ ⟨_, State.wrote_at (findReg_verAddr p p.isLt) (State.physAddr_verAddr_writable hw)⟩

theorem State.fld_wrote_ver {f : Fld} (h : f ∈ [F.VER_CMD.CMD, F.VER_CMD.AT_ROUND]) :
    (s.wrote fn (verAddr p) w).fld (R.VER_CMD n) f = fldOf w f := by
  subst hn
  refine State.fld_wrote (findReg_verAddr p p.isLt) (State.physAddr_verAddr_writable hw) ?_ ?_ <;> revert f <;> decide

/-- The write of a command leaves what the command is judged by. -/
theorem State.wrote_ver_keeps : (s.wrote fn (verAddr p) w).verState n = s.verState n ∧ (s.wrote fn (verAddr p) w).inReset n = s.inReset n ∧
    (s.wrote fn (verAddr p) w).groupRuns n = s.groupRuns n ∧ (s.wrote fn (verAddr p) w).boundariesLeft = s.boundariesLeft ∧
    (s.wrote fn (verAddr p) w).pipesOf n = s.pipesOf n := by
  have hcmd : 0x10000000 ≤ R.VER_CMD n := by unfold R.VER_CMD; omega
  obtain ⟨x, hx⟩ := State.wrote_ver (w := w) hw hn
  rw [hx]
  refine ⟨State.verState_of_reg (State.reg_setReg_ne _ _ _ _ (verStatus_ne_cmd n)),
    State.inReset_setReg x hcmd (hn ▸ s.ownerOfPipe_lt p), ?_, State.boundariesLeft_setReg x hcmd, State.pipesOf_setReg x hcmd⟩
  unfold State.groupRuns
  rw [State.pipesOf_setReg x hcmd, Bool.eq_iff_iff, List.any_eq_true, List.any_eq_true]
  refine exists_congr fun q => and_congr_right fun hq => ?_
  have hq16 := ((s.mem_pipesOf n q).mp hq).1
  rw [State.bit_setReg_ne _ _ _ _ _ (by unfold R.VER_GW_CMD R.VER_CMD; omega)]

/-- A permitted command is judged in the state that its write leaves. -/
theorem State.command_ver {fs : List (Fld × Nat)} (hgo : fldOf (putFlds v fs) F.VER_CMD.GO = 1) :
    s.command fn (verAddr p) v fs = ((s.wrote fn (verAddr p) (putFlds v fs)).verGo n).settle s := by
  have hphys := State.physAddr_verAddr_writable hw
  have htaken : fldOf (taken (verAddr p) (putFlds v fs)) F.VER_CMD.GO = 1 :=
    (fldOf_taken (findReg_verAddr p p.isLt) _ _ (by decide)).trans hgo
  have howner : (s.wrote fn (verAddr p) (putFlds v fs)).ownerOfPipe p = n := by
    obtain ⟨x, hx⟩ := State.wrote_ver (w := putFlds v fs) hw hn
    rw [hx, (s.setReg_atPit x (by unfold R.VER_CMD; omega)).ownerOfPipe p.isLt, hn]
  have hplain := State.plainWrite_wrote (s := s) (fn := fn) (v := putFlds v fs) (w := ⟨host fn, verAddr p, R.VER_CMD (s.ownerOfPipe p), .ver p,
    _, [], taken (verAddr p) (putFlds v fs), none, none⟩) (findReg_verAddr p p.isLt) hphys rfl (by simp) rfl
  refine (State.command_of_writable hw (.inl hphys) (findReg_verAddr p p.isLt)).trans ?_
  simp only [State.regAct, State.writeVer, Wr.bit, htaken, hplain, howner, ne_eq, one_ne_zero, not_false_eq_true, decide_true, if_true]

/-- The state in which a version command of code `c` is judged. -/
def State.verAsked (s : State) (fn : FnNo) (p : PipeNo) (v : Word) (c : Nat) : State := s.wrote fn (verAddr p) (iaWord v c)

theorem State.command_verAsked : s.command fn (verAddr p) v [(F.VER_CMD.CMD, c), (F.VER_CMD.GO, 1)] =
    ((s.verAsked fn p v c).verGo n).settle s := State.command_ver hw hn (fldOf_iaWord_go v c)

theorem State.verAsked_keeps : (s.verAsked fn p v c).verState n = s.verState n ∧ (s.verAsked fn p v c).inReset n = s.inReset n ∧
    (s.verAsked fn p v c).groupRuns n = s.groupRuns n ∧ (s.verAsked fn p v c).boundariesLeft = s.boundariesLeft ∧
    (s.verAsked fn p v c).pipesOf n = s.pipesOf n := State.wrote_ver_keeps hw hn

theorem State.pipes_verAsked : (s.verAsked fn p v c).pipes = s.pipes := by
  obtain ⟨x, hx⟩ := State.wrote_ver (w := iaWord v c) hw hn
  rw [State.verAsked, hx, State.setReg_pipes]

theorem State.cmd_verAsked (h : c < 16) : (s.verAsked fn p v c).fld (R.VER_CMD n) F.VER_CMD.CMD = c :=
  (State.fld_wrote_ver hw hn (by decide)).trans (fldOf_iaWord_op v h)

end

/-- What a commit crosses to, and the boundary that it waits for, do not follow from VER_CMD. -/
theorem State.verResult_zero_keeps : (s.verResult n 0).boundariesLeft = s.boundariesLeft ∧ (s.verResult n 0).pipesOf n = s.pipesOf n ∧
    (s.verResult n 0).pipes = s.pipes ∧ (s.verResult n 0).ver = s.ver := by
  have hcmd : 0x10000000 ≤ R.VER_CMD n := by unfold R.VER_CMD; omega
  rw [State.verResult_accepts (.inl rfl), State.setFld]
  exact ⟨State.boundariesLeft_setReg _ hcmd, State.pipesOf_setReg _ hcmd, rfl, rfl⟩

theorem State.verSt_of_ver (h : t.ver = s.ver) : t.verSt n = s.verSt n :=
  congrArg (SMap.get (fun _ => ({} : VerSt)) · n) h

theorem State.verState_setVer (m : Nat) (x : VerSt) : (s.setVer m x).verState n = s.verState n := rfl

theorem State.fld_setVer (m : Nat) (x : VerSt) (a : Nat) (f : Fld) : (s.setVer m x).fld a f = s.fld a f := rfl

/-! ### The commands by their codes -/

theorem State.verGo_open (h : s.fld (R.VER_CMD n) F.VER_CMD.CMD = 1) : s.verGo n = s.verOpen n := by simp only [State.verGo, h]

theorem State.verGo_commit (h : s.fld (R.VER_CMD n) F.VER_CMD.CMD = 2) : s.verGo n = s.verCommit n := by simp only [State.verGo, h]

theorem State.verGo_abandon (h : s.fld (R.VER_CMD n) F.VER_CMD.CMD = 3) : s.verGo n = s.verAbandon n := by simp only [State.verGo, h]

theorem State.verGo_bad (h : s.fld (R.VER_CMD n) F.VER_CMD.CMD = 0 ∨ 4 ≤ s.fld (R.VER_CMD n) F.VER_CMD.CMD) :
    s.verGo n = s.verBadCmd n := by
  unfold State.verGo
  split
  case h_4 => rfl
  all_goals omega

section

variable {fn : FnNo} {p : PipeNo} {v : Word} (hw : s.writable fn (verAddr p) = true) (hn : n = s.ownerOfPipe p)

include hw hn

theorem exec_verOpen (h : (s.verAsked fn p v 1).verOpen n = t) : exec (.verOpen fn p v) s = .next (t.settle s) :=
  congrArg Host.Outcome.next ((State.command_verAsked hw hn).trans
    (congrArg (State.settle · s) ((State.verGo_open (State.cmd_verAsked hw hn (by decide))).trans h)))

theorem exec_verCommit (h : (s.verAsked fn p v 2).verCommit n = t) : exec (.verCommit fn p v) s = .next (t.settle s) :=
  congrArg Host.Outcome.next ((State.command_verAsked hw hn).trans
    (congrArg (State.settle · s) ((State.verGo_commit (State.cmd_verAsked hw hn (by decide))).trans h)))

theorem exec_verAbandon (h : (s.verAsked fn p v 3).verAbandon n = t) : exec (.verAbandon fn p v) s = .next (t.settle s) :=
  congrArg Host.Outcome.next ((State.command_verAsked hw hn).trans
    (congrArg (State.settle · s) ((State.verGo_abandon (State.cmd_verAsked hw hn (by decide))).trans h)))

theorem exec_verBadCmd (hbad : fldOf v F.VER_CMD.CMD = 0 ∨ 4 ≤ fldOf v F.VER_CMD.CMD)
    (h : (s.wrote fn (verAddr p) (putFlds v [(F.VER_CMD.GO, 1)])).verBadCmd n = t) :
    exec (.verBadCmd fn p v) s = .next (t.settle s) := by
  have hcode : (s.wrote fn (verAddr p) (putFlds v [(F.VER_CMD.GO, 1)])).fld (R.VER_CMD n) F.VER_CMD.CMD = fldOf v F.VER_CMD.CMD :=
    (State.fld_wrote_ver hw hn (by decide)).trans (fldOf_putFlds_one_ne v _ _ 1 (by decide) (by decide))
  refine congrArg Host.Outcome.next ((if_neg (by omega)).trans
    ((State.command_ver hw hn (fldOf_putFlds_one v _ 1 (by decide))).trans (congrArg (State.settle · s) ((State.verGo_bad ?_).trans h))))
  rwa [hcode]

end

/-! ### What the commands do (R248, R252, R253) -/

section

variable (hreset : s.inReset n = false)

include hreset

theorem State.verOpen_idle (h : s.verState n = 0) : s.verOpen n = (s.setVerState n 1).verResult n 0 := by
  simp only [State.verOpen, hreset, h, Bool.false_eq_true, if_false, if_true]

theorem State.verOpen_held (h : s.verState n = 3 ∨ s.verState n = 4 ∨ s.verState n = 5) :
    s.verOpen n = (s.setBit (R.VER_STATUS n) F.VER_STATUS.OPEN_HELD true).verResult n 3 := by
  simp only [State.verOpen, hreset, h, show s.verState n ≠ 0 by omega, Bool.false_eq_true, if_false, if_true]

theorem State.verOpen_refused (h : s.verState n = 1 ∨ s.verState n = 2) : s.verOpen n = s.verResult n 1 := by
  simp only [State.verOpen, hreset, show s.verState n ≠ 0 by omega, show ¬ (s.verState n = 3 ∨ s.verState n = 4 ∨ s.verState n = 5) by omega,
    Bool.false_eq_true, if_false]

theorem State.verBadCmd_refused : s.verBadCmd n = s.verResult n 4 := by
  simp only [State.verBadCmd, hreset, Bool.false_eq_true, if_false]

theorem State.verCommit_busy (h1 : s.verState n ≤ 1) (hruns : s.groupRuns n = true) : s.verCommit n = s.verResult n 5 := by
  simp only [State.verCommit, hreset, hruns, Nat.not_le.mpr (show s.verState n < 2 by omega), Bool.false_eq_true, if_false, if_true]

theorem State.verAbandon_busy (h1 : s.verState n = 1) (hruns : s.groupRuns n = true) : s.verAbandon n = s.verResult n 5 := by
  simp only [State.verAbandon, hreset, hruns, h1, ne_eq, not_true_eq_false, Bool.false_eq_true, if_false, if_true]

theorem State.verAbandon_open (h1 : s.verState n = 1) (hruns : s.groupRuns n = false) :
    s.verAbandon n = ((s.setVer n { s.verSt n with atRound := none }).setVerState n 5).verResult n 0 := by
  simp only [State.verAbandon, hreset, hruns, h1, ne_eq, not_true_eq_false, Bool.false_eq_true, if_false]

section

variable (h1 : s.verState n ≤ 1) (hruns : s.groupRuns n = false)

include h1 hruns

theorem State.verCommit_now (hround : s.fld (R.VER_CMD n) F.VER_CMD.AT_ROUND = 0) : s.verCommit n = (s.verResult n 0).commitLeave n := by
  have hbit : (s.verResult n 0).bit (R.VER_CMD n) F.VER_CMD.AT_ROUND = false :=
    decide_eq_false (not_not_intro ((State.fld_setFld_beside _ _ _ _ _ (by decide) (by decide)).trans hround))
  simp only [State.verCommit, hreset, hruns, hbit, Nat.not_le.mpr (show s.verState n < 2 by omega), Bool.false_eq_true, if_false]

theorem State.verCommit_atRound (hround : s.fld (R.VER_CMD n) F.VER_CMD.AT_ROUND = 1) : s.verCommit n =
    (s.verResult n 0).setVer n { (s.verResult n 0).verSt n with atRound := some (s.verResult n 0).boundariesLeft } := by
  have hbit : (s.verResult n 0).bit (R.VER_CMD n) F.VER_CMD.AT_ROUND = true :=
    decide_eq_true (((State.fld_setFld_beside _ _ _ _ _ (by decide) (by decide)).trans hround).trans_ne one_ne_zero)
  simp only [State.verCommit, hreset, hruns, hbit, Nat.not_le.mpr (show s.verState n < 2 by omega), Bool.false_eq_true, if_false, if_true]

end

end

/-! ### A commit on its way (R253) -/

/-- The machine in which a commit crosses to the pipelines `ps`. -/
def State.commitCrosses (s : State) (ps : List Nat) : State := ps.foldl (fun s p => s.setPipe p { s.pipe p with landing := true }) s

theorem State.commitLeave_crosses :
    s.commitLeave n = ((s.setVer n { s.verSt n with atRound := none }).setVerState n 2).commitCrosses (s.pipesOf n) := rfl

theorem State.commitCrosses_regs (ps : List Nat) : (s.commitCrosses ps).regs = s.regs := by
  induction ps generalizing s with
  | nil => rfl
  | cons p ps ih => exact ih

theorem State.landing_commitCrosses {ps : List Nat} {q : Nat} (h : q ∈ ps ∨ (s.pipe q).landing = true) :
    ((s.commitCrosses ps).pipe q).landing = true := by
  induction ps generalizing s with
  | nil => exact h.resolve_left List.not_mem_nil
  | cons p ps ih =>
    refine ih ?_
    rw [State.pipe_setPipe]
    by_cases hq : q = p
    · exact .inr (by rw [if_pos hq])
    · rw [if_neg hq]
      exact h.imp_left fun hm => (List.mem_cons.mp hm).resolve_left hq

/-- A commit that leaves is on its way to every pipeline of the Pitch, and leaves VER_CMD. -/
theorem State.commitLeave_shows : (s.commitLeave n).verState n = 2 ∧ (∀ q ∈ s.pipesOf n, ((s.commitLeave n).pipe q).landing = true) ∧
    (s.commitLeave n).reg (R.VER_CMD n) = s.reg (R.VER_CMD n) := by
  have hregs := State.commitCrosses_regs (s := (s.setVer n { s.verSt n with atRound := none }).setVerState n 2) (s.pipesOf n)
  rw [State.commitLeave_crosses]
  exact ⟨(State.verState_of_reg (State.reg_of_regs hregs _)).trans (State.verState_setVerState (by decide)),
    fun q hq => State.landing_commitCrosses (.inl hq),
    (State.reg_of_regs hregs _).trans (State.reg_setFld_ne _ _ _ _ _ (verStatus_ne_cmd n).symm)⟩

/-- Settles O35: each command reaches the version block of its Pitch, and does what one of the equations above says. -/
theorem versionCommands : Obligations.VersionCommands := by
  unfold Obligations.VersionCommands
  intro fn p v s n s1 hw hn hreset hs1
  obtain rfl : s1 = s.verAsked fn p v := funext hs1
  clear hs1
  obtain ⟨hstate1, hreset1, -, -, -⟩ := State.verAsked_keeps (v := v) (c := 1) hw hn
  obtain ⟨hstate2, hreset2, hruns2, hleft2, hpipes2⟩ := State.verAsked_keeps (v := v) (c := 2) hw hn
  obtain ⟨hstate3, hreset3, hruns3, -, -⟩ := State.verAsked_keeps (v := v) (c := 3) hw hn
  obtain ⟨-, hreset0, -, -, -⟩ := State.wrote_ver_keeps (w := putFlds v [(F.VER_CMD.GO, 1)]) hw hn
  have hround2 : (s.verAsked fn p v 2).fld (R.VER_CMD n) F.VER_CMD.AT_ROUND = fldOf v F.VER_CMD.AT_ROUND :=
    (State.fld_wrote_ver hw hn (by decide)).trans (fldOf_iaWord (by decide))
  obtain ⟨hleft, hpipesOf, hpipes, -⟩ := State.verResult_zero_keeps (s := s.verAsked fn p v 2) (n := n)
  refine ⟨fun h => ⟨_, rfl, exec_verOpen hw hn (State.verOpen_idle (hreset1.trans hreset) (hstate1.trans h)), ?idle⟩,
    fun h => ⟨_, exec_verOpen hw hn (State.verOpen_held (hreset1.trans hreset) (by rwa [hstate1])), ?held⟩,
    fun h => ⟨_, exec_verOpen hw hn (State.verOpen_refused (hreset1.trans hreset) (by rwa [hstate1])), rfl,
      State.result_verResult (by decide), State.refused_verResult (by decide)⟩,
    fun h hruns hround => ⟨_, exec_verCommit hw hn (State.verCommit_now (hreset2.trans hreset) (hstate2.trans_le h) (hruns2.trans hruns)
      (hround2.trans hround)), rfl, ?now⟩,
    fun h hruns hround => ⟨_, exec_verCommit hw hn (State.verCommit_atRound (hreset2.trans hreset) (hstate2.trans_le h)
      (hruns2.trans hruns) (hround2.trans hround)), ?atRound⟩,
    fun h hruns => ⟨_, exec_verAbandon hw hn (State.verAbandon_open (hreset3.trans hreset) (hstate3.trans h) (hruns3.trans hruns)),
      ?abandon⟩,
    fun hruns => ⟨fun h => ⟨_, exec_verCommit hw hn (State.verCommit_busy (hreset2.trans hreset) (hstate2.trans_le h)
        (hruns2.trans hruns)), rfl, State.result_verResult (by decide), (State.verState_verResult 5).trans hstate2⟩,
      fun h => ⟨_, exec_verAbandon hw hn (State.verAbandon_busy (hreset3.trans hreset) (hstate3.trans h) (hruns3.trans hruns)), rfl,
        State.result_verResult (by decide), (State.verState_verResult 5).trans hstate3⟩⟩,
    fun h => ⟨_, exec_verBadCmd hw hn h (State.verBadCmd_refused (hreset0.trans hreset)), rfl, State.result_verResult (by decide)⟩⟩
  case idle => exact ⟨(State.verState_verResult 0).trans (State.verState_setVerState (by decide)), State.result_verResult (by decide)⟩
  case held =>
    have hshown := State.reg_verResult (s := (s.verAsked fn p v 1).setBit (R.VER_STATUS n) F.VER_STATUS.OPEN_HELD true) 3
      (verStatus_ne_cmd n) (verStatus_ne_cause n) (verStatus_not_irqBlock n)
    exact ⟨(State.bit_of_reg hshown).trans (State.bit_setBit _ _ _ _ (by decide) (by decide)),
      ((State.verState_verResult 3).trans (State.fld_setFld_beside _ _ _ _ _ (by decide) (by decide))).trans hstate1,
      State.result_verResult (by decide), rfl⟩
  case now =>
    obtain ⟨htwo, hlanding, hcmd⟩ := State.commitLeave_shows (s := (s.verAsked fn p v 2).verResult n 0) (n := n)
    exact ⟨htwo, fun q hq => hlanding q (by rwa [hpipesOf, hpipes2]), (State.fld_of_reg hcmd).trans (State.result_verResult (by decide))⟩
  case atRound =>
    rw [State.verState_setVer, State.verState_verResult, State.verSt_setVer, if_pos rfl, hleft, State.setVer_pipes, hpipes, State.fld_setVer]
    exact ⟨hstate2, congrArg some hleft2, State.pipes_verAsked hw hn, State.result_verResult (by decide)⟩
  case abandon =>
    obtain ⟨-, -, -, hver⟩ := State.verResult_zero_keeps (n := n)
      (s := ((s.verAsked fn p v 3).setVer n { (s.verAsked fn p v 3).verSt n with atRound := none }).setVerState n 5)
    refine ⟨(State.verState_verResult 0).trans (State.verState_setVerState (by decide)), ?_, State.result_verResult (by decide)⟩
    rw [State.verSt_of_ver hver, State.setVerState, State.verSt_of_ver (State.setFld_ver ..), State.verSt_setVer, if_pos rfl]

end Sys2Proof.Machine
end

section
/-! SUPPORT. How a version change goes on (R252, R254, R258, R259, R260; O36): the commit that crosses, the drain and its limit, and the end of
a group. -/

namespace Sys2Proof.Machine

variable {s t : State} {n : Nat}

/-! ### A pipeline takes the new tag (R254) -/

/-- The machine in which pipeline p gives the tag of the next version of its Pitch. -/
def State.tagTurned (s : State) (p : Nat) : State :=
  (s.setPipe p { s.pipe p with landing := false }).setFld (R.VER_PIPE p) F.VER_PIPE.TAG (1 - s.verTag (s.ownerOfPipe p))

theorem State.pipeTag_tagTurned (p : Nat) : (s.tagTurned p).pipeTag p = 1 - s.verTag (s.ownerOfPipe p) :=
  (State.fld_setFld _ _ _ _ (by decide)).trans (Nat.mod_eq_of_lt (Nat.lt_succ_of_le (Nat.sub_le 1 _)))

theorem State.pipe_setFld (a : Nat) (f : Fld) (v q : Nat) : (s.setFld a f v).pipe q = s.pipe q := rfl

theorem State.landing_tagTurned (p q : Nat) : ((s.tagTurned p).pipe q).landing = (decide (q ≠ p) && (s.pipe q).landing) := by
  rw [State.tagTurned, State.pipe_setFld, State.pipe_setPipe]
  by_cases h : q = p <;> simp [h]

theorem State.tagTurned_clocks (p : Nat) : (s.tagTurned p).t16 = s.t16 ∧ (s.tagTurned p).time = s.time := by
  rw [State.tagTurned, State.setFld_t16, State.setFld_time]
  exact ⟨State.setPipe_t16 .., State.setPipe_time ..⟩

theorem State.pipesOf_tagTurned (p : Nat) : (s.tagTurned p).pipesOf n = s.pipesOf n :=
  State.pipesOf_setReg (s := s.setPipe p _) _ (by unfold R.VER_PIPE; omega)

/-- Whether the commit still crosses to a pipeline of the Pitch. -/
theorem State.crosses_tagTurned (p : Nat) : ((s.tagTurned p).pipesOf n).any (fun q => ((s.tagTurned p).pipe q).landing) = true ↔
    ∃ q ∈ s.pipesOf n, q ≠ p ∧ (s.pipe q).landing = true := by
  simp only [State.pipesOf_tagTurned, State.landing_tagTurned, List.any_eq_true, Bool.and_eq_true, decide_eq_true_eq]

/-- The machine in which Pitch n has counted its version. -/
def State.versionCounted (s : State) (n : Nat) : State :=
  let s := s.addWrap32 (R.VER_NUM n) 1
  s.setFld (R.VER_STATUS n) F.VER_STATUS.TAG (s.verTag n)

/-- The machine in which Pitch n has counted its version and begins to drain the packets of the one before. -/
def State.versionApplied (s : State) (n : Nat) : State :=
  let s := s.versionCounted n
  (s.setVer n { s.verSt n with applied := s.t16, appliedNow := s.time.now, late := false }).setVerState n 3

theorem State.commitApply_lands {p : Nat} (h : (s.pipe p).landing = true) : s.commitApply p =
    if ((s.tagTurned p).pipesOf (s.ownerOfPipe p)).any fun q => ((s.tagTurned p).pipe q).landing then s.tagTurned p
    else (s.tagTurned p).versionApplied (s.ownerOfPipe p) := by
  unfold State.commitApply
  dsimp only
  rw [h, Bool.not_true, if_neg Bool.false_ne_true]
  rfl

theorem verNum_ne_status (n : Nat) : R.VER_NUM n ≠ R.VER_STATUS n := by unfold R.VER_NUM R.VER_STATUS; omega

theorem State.num_versionCounted : (s.versionCounted n).reg (R.VER_NUM n) = BitVec.ofNat 32 ((s.reg (R.VER_NUM n)).toNat + 1) := by
  rw [State.versionCounted, State.reg_setFld_ne _ _ _ _ _ (verNum_ne_status n), State.addWrap32, State.reg_setReg]

theorem State.tag_versionCounted :
    (s.versionCounted n).fld (R.VER_STATUS n) F.VER_STATUS.TAG = ((s.reg (R.VER_NUM n)).toNat + 1) % 2 := by
  have htag : (s.addWrap32 (R.VER_NUM n) 1).verTag n = ((s.reg (R.VER_NUM n)).toNat + 1) % 2 := by
    rw [State.verTag, State.addWrap32, State.reg_setReg, BitVec.toNat_ofNat, Nat.mod_mod_of_dvd _ (by decide)]
  rw [State.versionCounted, State.fld_setFld _ _ _ _ (by decide), htag]
  exact Nat.mod_mod ..

theorem State.versionCounted_clocks : (s.versionCounted n).t16 = s.t16 ∧ (s.versionCounted n).time = s.time := by
  rw [State.versionCounted, State.setFld_t16, State.setFld_time]
  exact ⟨State.setReg_t16 .., State.setReg_time ..⟩

theorem State.versionApplied_shows : (s.versionApplied n).reg (R.VER_NUM n) = (s.versionCounted n).reg (R.VER_NUM n) ∧
    (s.versionApplied n).verState n = 3 ∧
    (s.versionApplied n).fld (R.VER_STATUS n) F.VER_STATUS.TAG = (s.versionCounted n).fld (R.VER_STATUS n) F.VER_STATUS.TAG ∧
    ((s.versionApplied n).verSt n).applied = s.t16 ∧ ((s.versionApplied n).verSt n).appliedNow = s.time.now ∧
    ((s.versionApplied n).verSt n).late = false := by
  obtain ⟨ht16, htime⟩ := s.versionCounted_clocks (n := n)
  refine ⟨?_, State.verState_setVerState (by decide), ?_, ?_⟩
  · rw [State.versionApplied, State.setVerState, State.reg_setFld_ne _ _ _ _ _ (verNum_ne_status n), State.reg_of_regs (State.setVer_regs ..)]
  · rw [State.versionApplied, State.setVerState, State.fld_setFld_beside _ _ _ _ _ (by decide) (by decide), State.fld_setVer]
  · rw [State.versionApplied, State.setVerState, State.verSt_of_ver (State.setFld_ver ..), State.verSt_setVer, if_pos rfl]
    exact ⟨ht16, congrArg TimeSt.now htime, rfl⟩

/-! ### The drain (R258, R260) -/

theorem State.anyOld_iff : ((s.pipesOf n).any fun p => decide (s.oldLive p ≠ 0)) = true ↔ ∃ p ∈ s.pipesOf n, s.oldLive p ≠ 0 := by
  simp only [List.any_eq_true, decide_eq_true_eq]

theorem State.anyOld_none (h : ∀ p ∈ s.pipesOf n, s.oldLive p = 0) : ((s.pipesOf n).any fun p => decide (s.oldLive p ≠ 0)) = false :=
  Bool.eq_false_iff.mpr fun hany =>
    let ⟨p, hp, hold⟩ := State.anyOld_iff.mp hany
    hold (h p hp)

/-- The machine in which Pitch n, with no old packet left, has timed its drain and retires. -/
def State.drained (s : State) (n : Nat) : State :=
  let s := s.setReg (R.VER_DRAIN_LAST n) (BitVec.ofNat 32 (min (2 ^ 32 - 1) ((s.t16 - (s.verSt n).applied) / 16)))
  (s.setVer n { s.verSt n with late := false }).setVerState n 4

theorem State.drainComplete_done (h3 : s.verState n = 3) (hold : ∀ p ∈ s.pipesOf n, s.oldLive p = 0) : s.drainComplete n = s.drained n := by
  rw [State.drainComplete, State.anyOld_none hold, h3]
  rfl

theorem State.drainComplete_waits (h : s.verState n ≠ 3 ∨ ∃ p ∈ s.pipesOf n, s.oldLive p ≠ 0) : s.drainComplete n = s :=
  if_pos (Bool.or_eq_true_iff.mpr (h.imp decide_eq_true State.anyOld_iff.mpr))

theorem State.drained_last : (s.drained n).reg (R.VER_DRAIN_LAST n) =
    BitVec.ofNat 32 (min (2 ^ 32 - 1) ((s.t16 - (s.verSt n).applied) / 16)) :=
  (State.reg_setFld_ne _ _ _ _ _ (by unfold R.VER_DRAIN_LAST R.VER_STATUS; omega)).trans (State.reg_setReg ..)

theorem State.verSt_drained : (s.drained n).verSt n = { s.verSt n with late := false } := (State.verSt_setVer ..).trans (if_pos rfl)

/-- The machine in which the drain of Pitch n is late. -/
def State.drainIsLate (s : State) (n : Nat) : State :=
  (s.setVer n { s.verSt n with late := true }).ariseF (R.VER_CAUSE n) F.VER_CAUSE.DRAIN_TIMEOUT

theorem State.drainIsLate_shows : ((s.drainIsLate n).verSt n).late = true ∧ (s.drainIsLate n).verState n = s.verState n ∧
    ((s.drainIsLate n).reg (R.VER_CAUSE n)).getLsbD F.VER_CAUSE.DRAIN_TIMEOUT.lo = true := by
  have hver : (s.drainIsLate n).ver = (s.setVer n { s.verSt n with late := true }).ver := by
    rw [State.drainIsLate, (State.ariseF_alarms (as := [R.VER_CAUSE n]) _ _ F.VER_CAUSE.DRAIN_TIMEOUT (.inl (by simp))).eq]
  refine ⟨?_, ?_, State.ariseF_set (verCause_not_irqBlock n) (by decide)⟩
  · rw [State.verSt_of_ver hver, State.verSt_setVer, if_pos rfl]
  · exact (State.verState_of_reg (State.ariseF_reg_ne (verStatus_ne_cause n) (verStatus_not_irqBlock n))).trans (State.verState_setVer ..)

section

variable {lim : Nat} (hlim : lim = min 1000000 (s.fld (R.VER_DRAIN_LIMIT n) F.VER_DRAIN_LIMIT.LIMIT))

include hlim

theorem State.drainLate_iff : s.drainLate n = true ↔
    (lim ≠ 0 ∧ (s.verSt n).appliedNow + 1000 * lim ≤ s.time.now) ∧ ∃ p ∈ s.pipesOf n, s.oldLive p ≠ 0 := by
  rw [State.drainLate, ← hlim, Bool.and_eq_true_iff, State.anyOld_iff, decide_eq_true_iff]

theorem State.drainTimeout_late (h3 : s.verState n = 3) (hlate : (s.verSt n).late = false) (h0 : lim ≠ 0)
    (hpast : (s.verSt n).appliedNow + 1000 * lim ≤ s.time.now) (hold : ∃ p ∈ s.pipesOf n, s.oldLive p ≠ 0) :
    s.drainTimeout n = s.drainIsLate n := by
  rw [State.drainTimeout, h3, hlate, (State.drainLate_iff hlim).mpr ⟨⟨h0, hpast⟩, hold⟩]
  rfl

theorem State.drainTimeout_within
    (h : lim = 0 ∨ s.time.now < (s.verSt n).appliedNow + 1000 * lim ∨ ∀ p ∈ s.pipesOf n, s.oldLive p = 0) : s.drainTimeout n = s := by
  have hno : s.drainLate n = false := by
    rw [Bool.eq_false_iff, ne_eq, State.drainLate_iff hlim]
    rintro ⟨⟨h0, hpast⟩, p, hp, hold⟩
    rcases h with h | h | h
    · exact h0 h
    · exact absurd hpast (Nat.not_le.mpr h)
    · exact hold (h p hp)
  rw [State.drainTimeout, hno, Bool.not_false, Bool.or_true, if_pos rfl]

end

/-! ### The end of a group (R252, R259) -/

theorem State.verIdle_plain (h : s.bit (R.VER_STATUS n) F.VER_STATUS.OPEN_HELD = false) : (s.verIdle n).verState n = 0 := by
  rw [State.verIdle, h, if_neg Bool.false_ne_true, State.verState_setVerState (by decide)]

/-- A held OPEN takes effect. -/
theorem State.verIdle_held (h : s.bit (R.VER_STATUS n) F.VER_STATUS.OPEN_HELD = true) : (s.verIdle n).verState n = 1 ∧
    (s.verIdle n).bit (R.VER_STATUS n) F.VER_STATUS.OPEN_HELD = false := by
  rw [State.verIdle, h, if_pos rfl]
  refine ⟨State.verState_setVerState (by decide), ?_⟩
  rw [State.setVerState, State.bit, State.fld_setFld_beside _ _ _ _ _ (by decide) (by decide)]
  exact State.bit_setBit _ _ _ _ (by decide) (by decide)

/-- Settles O36: each event of a version change is one of the equations above. -/
theorem versionProgress : Obligations.VersionProgress := by
  unfold Obligations.VersionProgress
  refine fun s => ⟨fun p n s1 hn hlanding hs1 => ?_, fun n hn => ?_⟩
  · obtain rfl : s1 = s.tagTurned p := by rw [hs1, hn, State.tagTurned]
    subst hn
    have hlands : exec (.commitApply p) s = .next _ := congrArg Host.Outcome.next (State.commitApply_lands hlanding)
    refine ⟨State.pipeTag_tagTurned p, fun hmore => ?_, fun hlast => ⟨(s.tagTurned p).versionApplied (s.ownerOfPipe p), ?_, ?_⟩⟩
    · rw [hlands, if_pos ((State.crosses_tagTurned p).mpr hmore)]
    · rw [hlands, if_neg]
      rw [State.crosses_tagTurned]
      rintro ⟨q, hq, hne, hq'⟩
      exact Bool.false_ne_true ((hlast q hq hne).symm.trans hq')
    · have hnum : (s.tagTurned p).reg (R.VER_NUM (s.ownerOfPipe p)) = s.reg (R.VER_NUM (s.ownerOfPipe p)) :=
        State.reg_setFld_ne _ _ _ _ _ (by unfold R.VER_NUM R.VER_PIPE; omega)
      obtain ⟨hcount, hstate, htag, happlied, hnow, hlate⟩ := State.versionApplied_shows (s := s.tagTurned p) (n := s.ownerOfPipe p)
      rw [hcount, State.num_versionCounted, htag, State.tag_versionCounted, hnum]
      obtain ⟨ht16, htime⟩ := s.tagTurned_clocks p
      exact ⟨BitVec.toNat_ofNat .., hstate, rfl, happlied.trans ht16, hnow.trans (congrArg TimeSt.now htime), hlate⟩
  · have hon (x : State) : (if n.val = 0 then s else x) = x := if_neg hn
    have hdrain : exec (.drainComplete n) s = .next (s.drainComplete n) := congrArg Host.Outcome.next (hon _)
    have htimeout : exec (.drainTimeout n) s = .next (s.drainTimeout n) := congrArg Host.Outcome.next (hon _)
    refine ⟨fun h3 hold => ⟨s.drained n, ?_, State.verState_setVerState (by decide), State.drained_last, ?_⟩,
      fun h => ?_, fun h4 => congrArg Host.Outcome.next ((hon _).trans (if_neg (not_not_intro h4))),
      fun h5 => congrArg Host.Outcome.next ((hon _).trans (if_neg (not_not_intro h5))), State.verIdle_plain, State.verIdle_held,
      fun lim hlim h3 hlate => ⟨fun h0 hpast hold => ⟨s.drainIsLate n, ?_, ?_⟩, fun h => ?_⟩⟩
    · rw [hdrain, State.drainComplete_done h3 hold]
    · rw [State.verSt_drained]
    · rw [hdrain, State.drainComplete_waits h]
    · rw [htimeout, State.drainTimeout_late hlim h3 hlate h0 hpast hold]
    · obtain ⟨hlate', hstate, hcause⟩ := State.drainIsLate_shows (s := s) (n := n)
      exact ⟨hlate', hstate.trans h3, hcause⟩
    · rw [htimeout, State.drainTimeout_within hlim h]

end Sys2Proof.Machine
end

section
/-! SUPPORT. Group operations as they are asked for (R249, R250, Table 9.5; O37): the write of VER_GW_CMD, the refusals, and the place that an
operation takes at its engine. -/

namespace Sys2Proof.Machine

variable {s : State}

/-! ### The answer of a group operation (R249) -/

section

variable {p : Nat}

theorem gwStatus_ne_cmd (p : Nat) : R.VER_GW_STATUS p ≠ R.VER_GW_CMD p := by unfold R.VER_GW_STATUS R.VER_GW_CMD; omega

/-- GO reads 1 while the result is 0xF. -/
theorem State.gwDone_go (res loc : Nat) : (s.gwDone p res loc).bit (R.VER_GW_CMD p) F.VER_GW_CMD.GO = decide (res = 0xF) :=
  State.bit_setBit _ _ _ _ (by decide) (by decide)

theorem State.gwDone_result (res loc : Nat) : (s.gwDone p res loc).fld (R.VER_GW_STATUS p) F.VER_GW_STATUS.RESULT = res % 2 ^ 4 := by
  rw [State.gwDone, State.fld_setBit_ne _ _ _ _ _ _ (gwStatus_ne_cmd p), State.fld_setFld_beside _ _ _ _ _ (by decide) (by decide)]
  exact State.fld_setFld _ _ _ _ (by decide)

theorem State.gwDone_loc (res loc : Nat) : (s.gwDone p res loc).fld (R.VER_GW_STATUS p) F.VER_GW_STATUS.LOC = loc % 2 ^ 20 := by
  rw [State.gwDone, State.fld_setBit_ne _ _ _ _ _ _ (gwStatus_ne_cmd p)]
  exact State.fld_setFld _ _ _ _ (by decide)

theorem State.gwDone_tc (res loc : Nat) : (s.gwDone p res loc).tc = s.tc :=
  (State.setBit_tc ..).trans ((State.setFld_tc ..).trans (State.setFld_tc ..))

end

/-! ### Refusals (Table 9.5) -/

section

variable {p : Nat} {c : Word}

/-- The word `c` names an operation of Table 9.2 on a defined table and, for G_TC_DELETE, an entry of it. -/
structure State.GwNames (s : State) (p : Nat) (c : Word) : Prop where
  op : fldOf c F.VER_GW_CMD.OP < 5
  stage : fldOf c F.VER_GW_CMD.STAGE < 24
  table : (if fldOf c F.VER_GW_CMD.OP ≤ 2 then s.emDefined p (fldOf c F.VER_GW_CMD.STAGE) (fldOf c F.VER_GW_CMD.TABLE)
    else s.tcDefined p (fldOf c F.VER_GW_CMD.STAGE) (fldOf c F.VER_GW_CMD.TABLE)) = true
  entry : fldOf c F.VER_GW_CMD.OP = 4 →
    fldOf c F.VER_GW_CMD.ADDR < 1024 * s.tcSlices p (fldOf c F.VER_GW_CMD.STAGE) (fldOf c F.VER_GW_CMD.TABLE)

theorem State.gwNames_em (hop : fldOf c F.VER_GW_CMD.OP ≤ 2) (hst : fldOf c F.VER_GW_CMD.STAGE < 24)
    (hdef : s.emDefined p (fldOf c F.VER_GW_CMD.STAGE) (fldOf c F.VER_GW_CMD.TABLE) = true) : s.GwNames p c :=
  ⟨by omega, hst, by rw [if_pos hop, hdef], fun h4 => absurd hop (by omega)⟩

theorem State.tcDefined_stage {st t : Nat} (h : s.tcDefined p st t = true) : st < 24 := by
  unfold State.tcDefined at h
  exact (of_decide_eq_true (Bool.and_eq_true_iff.mp h).1).1

theorem State.gwNames_tc (hop : fldOf c F.VER_GW_CMD.OP = 3 ∨ fldOf c F.VER_GW_CMD.OP = 4 ∧
      fldOf c F.VER_GW_CMD.ADDR < 1024 * s.tcSlices p (fldOf c F.VER_GW_CMD.STAGE) (fldOf c F.VER_GW_CMD.TABLE))
    (hdef : s.tcDefined p (fldOf c F.VER_GW_CMD.STAGE) (fldOf c F.VER_GW_CMD.TABLE) = true) : s.GwNames p c :=
  ⟨by omega, State.tcDefined_stage hdef, by rw [if_neg (by omega), hdef], fun h4 => (hop.resolve_left (by omega)).2⟩

/-- In an open group of a loaded pipeline an operation on a table is refused only once a commit waits for its boundary. -/
theorem State.gwRefusal_named (hheld : s.pipeHeld p = false) (himg : (s.pipe p).img.isSome = true)
    (hopen : s.verState (s.ownerOfPipe p) = 1) (hnames : s.GwNames p c) :
    s.gwRefusal p c = if (s.verSt (s.ownerOfPipe p)).atRound = none then 0 else 7 := by
  obtain ⟨hop, hst, htable, hentry⟩ := hnames
  have hnone : (s.pipe p).img.isNone = false := by rw [← Option.not_isSome, himg, Bool.not_true]
  have htable : (if fldOf c F.VER_GW_CMD.OP ≤ 2 then !s.emDefined p (fldOf c F.VER_GW_CMD.STAGE) (fldOf c F.VER_GW_CMD.TABLE)
      else !s.tcDefined p (fldOf c F.VER_GW_CMD.STAGE) (fldOf c F.VER_GW_CMD.TABLE)) = false := by
    split at htable <;> simp [*]
  have hentry : (decide (fldOf c F.VER_GW_CMD.OP = 4) && decide (1024 * s.tcSlices p (fldOf c F.VER_GW_CMD.STAGE)
      (fldOf c F.VER_GW_CMD.TABLE) ≤ fldOf c F.VER_GW_CMD.ADDR)) = false := by
    simpa using hentry
  simp only [State.gwRefusal, hheld, hnone, htable, hentry, hopen, Nat.not_le.mpr hop, Nat.not_le.mpr hst, decide_false, Bool.or_self,
    Bool.false_eq_true, if_false, ne_eq, not_true_eq_false, false_or]
  cases (s.verSt (s.ownerOfPipe p)).atRound <;> rfl

/-! ### GO (R250) -/

theorem State.gwGo_refused {r : Nat} (h : s.gwRefusal p (s.reg (R.VER_GW_CMD p)) = r) (h0 : r ≠ 0) : s.gwGo p = s.gwDone p r 0 := by
  subst h
  exact if_pos h0

/-- The operation stands in the place of the indirect command of its engine. -/
theorem State.gwGo_taken (hc : c = s.reg (R.VER_GW_CMD p)) (h : s.gwRefusal p c = 0) : s.gwGo p =
    if fldOf c F.VER_GW_CMD.OP ≤ 2 then (s.gwDone p 0xF 0).iaTake p (fldOf c F.VER_GW_CMD.STAGE) (.group c)
    else (s.gwDone p 0xF 0).tcTake p (.group c) := by
  subst hc
  exact if_neg (not_not_intro h)

end

/-! ### VER_GW_CMD: its OP and GO stand where those of STG_IA_CMD stand, so that `iaWord` is the word that an operation writes -/

section

variable {fn : FnNo} {p : PipeNo} {w : Word} {op : Nat}

theorem State.physAddr_VER_GW_CMD : s.physAddr fn (R.VER_GW_CMD p) = some (R.VER_GW_CMD p) :=
  State.physAddr_self (region_VER_GW_CMD p p.isLt) (by show 0x100 ≤ _; unfold R.VER_GW_CMD; omega)

/-- The state in which a group operation is judged. -/
def State.gwWritten (s : State) (fn : FnNo) (p : PipeNo) (w : Word) (op : Nat) : State := s.wrote fn (R.VER_GW_CMD p) (iaWord w op)

/-- The word of VER_GW_CMD in that state. -/
def State.gwWord (s : State) (fn : FnNo) (p : PipeNo) (w : Word) (op : Nat) : Word := (s.gwWritten fn p w op).reg (R.VER_GW_CMD p)

theorem State.gwWritten_eq : ∃ x, s.gwWritten fn p w op = s.setReg (R.VER_GW_CMD p) x :=
  ⟨_, State.wrote_at (findReg_VER_GW_CMD p p.isLt) State.physAddr_VER_GW_CMD⟩

theorem State.fldOf_gwWord_op (h : op < 16) : fldOf (s.gwWord fn p w op) F.VER_GW_CMD.OP = op :=
  (State.fld_wrote (findReg_VER_GW_CMD p p.isLt) State.physAddr_VER_GW_CMD (by decide) (by decide)).trans (fldOf_iaWord_op w h)

theorem State.fldOf_gwWord {f : Fld} (h : f ∈ [F.VER_GW_CMD.STAGE, F.VER_GW_CMD.TABLE, F.VER_GW_CMD.ADDR]) :
    fldOf (s.gwWord fn p w op) f = fldOf w f := by
  have hlow : ∀ f ∈ [F.VER_GW_CMD.STAGE, F.VER_GW_CMD.TABLE, F.VER_GW_CMD.ADDR], f.lo + f.w ≤ 24 := by decide
  refine (State.fld_wrote (findReg_VER_GW_CMD p p.isLt) State.physAddr_VER_GW_CMD ?_ ?_).trans (fldOf_iaWord (hlow f h)) <;>
    (revert f; decide)

theorem State.pipe_setReg (a : Nat) (v : Word) (q : Nat) : (s.setReg a v).pipe q = s.pipe q := rfl

/-- The write of an operation leaves what the operation is judged by. -/
theorem State.gwWritten_keeps : (s.gwWritten fn p w op).pipeHeld p = s.pipeHeld p ∧ (s.gwWritten fn p w op).pipe p = s.pipe p ∧
    (s.gwWritten fn p w op).ownerOfPipe p = s.ownerOfPipe p ∧ (∀ n, (s.gwWritten fn p w op).verState n = s.verState n) ∧
    (s.gwWritten fn p w op).ver = s.ver := by
  obtain ⟨x, hx⟩ := State.gwWritten_eq (s := s) (fn := fn) (p := p) (w := w) (op := op)
  rw [hx]
  exact ⟨State.pipeHeld_setReg x (by unfold R.VER_GW_CMD; omega) p.isLt, State.pipe_setReg ..,
    (s.setReg_atPit x (by unfold R.VER_GW_CMD; omega)).ownerOfPipe p.isLt,
    fun n => State.verState_of_reg (State.reg_setReg_ne _ _ _ _ (by unfold R.VER_STATUS R.VER_GW_CMD; omega)), State.setReg_ver ..⟩

theorem State.emDefined_table {p st t : Nat} (h : s.emDefined p st t = true) : t < 4 := by
  unfold State.emDefined at h
  exact of_decide_eq_true (Bool.and_eq_true_iff.mp h).1

/-- It leaves the tables. -/
theorem State.gwWritten_tables {st t : Nat} :
    (s.emDefined p st t = true → (s.gwWritten fn p w op).emDefined p st t = true) ∧
    (s.tcDefined p st t = true → (s.gwWritten fn p w op).tcDefined p st t = true ∧
      (s.gwWritten fn p w op).tcSlices p st t = s.tcSlices p st t) := by
  have hne {b : Nat} (h : b ≠ R.VER_GW_CMD p) : (s.gwWritten fn p w op).reg b = s.reg b :=
    State.wrote_reg_ne (findReg_VER_GW_CMD p p.isLt) State.physAddr_VER_GW_CMD h
  refine ⟨fun hdef => ?_, fun hdef => ?_⟩
  · have ht := State.emDefined_table hdef
    rw [State.emDefined_of_reg (hne (by unfold R.STG_EM_CFG R.VER_GW_CMD; omega)), hdef]
  · have ht := State.tcDefined_table hdef
    have hcfg := hne (show R.TC_CFG p st t ≠ R.VER_GW_CMD p by unfold R.TC_CFG R.VER_GW_CMD; omega)
    rw [State.tcDefined, State.bit_of_reg hcfg, State.tcSlices, State.fld_of_reg hcfg]
    exact ⟨hdef, rfl⟩

/-- A permitted operation is judged where neither another one nor its engine's indirect command runs. -/
theorem State.command_gw (hw : s.writable fn (R.VER_GW_CMD p) = true) (hidle : s.bit (R.VER_GW_CMD p) F.VER_GW_CMD.GO = false) (h16 : op < 16)
    (hem : op ≤ 2 → s.bit (R.STG_IA_CMD p (fldOf w F.VER_GW_CMD.STAGE)) F.STG_IA_CMD.GO = false)
    (htc : 2 < op → s.bit (R.TC_IA_CMD p) F.TC_IA_CMD.GO = false) :
    s.command fn (R.VER_GW_CMD p) w [(F.VER_GW_CMD.OP, op), (F.VER_GW_CMD.GO, 1)] = ((s.gwWritten fn p w op).gwGo p).settle s := by
  have htaken {f : Fld} (h : f ∈ [F.VER_GW_CMD.GO, F.VER_GW_CMD.OP, F.VER_GW_CMD.STAGE]) :
      fldOf (taken (R.VER_GW_CMD p) (iaWord w op)) f = fldOf (iaWord w op) f :=
    fldOf_taken (findReg_VER_GW_CMD p p.isLt) _ _ (by revert f; decide)
  have hgo : fldOf (taken (R.VER_GW_CMD p) (iaWord w op)) F.VER_GW_CMD.GO = 1 := (htaken (by decide)).trans (fldOf_iaWord_go w op)
  have hop : fldOf (taken (R.VER_GW_CMD p) (iaWord w op)) F.VER_GW_CMD.OP = op := (htaken (by decide)).trans (fldOf_iaWord_op w h16)
  have hst : fldOf (taken (R.VER_GW_CMD p) (iaWord w op)) F.VER_GW_CMD.STAGE = fldOf w F.VER_GW_CMD.STAGE :=
    (htaken (by decide)).trans (fldOf_iaWord (by decide))
  have hbusy : s.gwBusy p (taken (R.VER_GW_CMD p) (iaWord w op)) = false := by
    unfold State.gwBusy
    dsimp only
    rw [hop, hst]
    split
    · next h => rw [hem h, Bool.and_false]
    · next h => exact htc (Nat.lt_of_not_le h)
  have hplain := State.plainWrite_wrote (s := s) (fn := fn) (v := iaWord w op) (w := ⟨host fn, R.VER_GW_CMD p, R.VER_GW_CMD p, .ver p, _, [],
    taken (R.VER_GW_CMD p) (iaWord w op), none, none⟩) (findReg_VER_GW_CMD p p.isLt) State.physAddr_VER_GW_CMD rfl (by simp) (by dsimp only)
  refine (State.command_VER_GW_CMD p p.isLt hw).trans ?_
  change State.settle (State.regAct s ⟨_, _, _, _, _, _, taken (R.VER_GW_CMD p) (iaWord w op), _, _⟩) s = _
  simp only [State.regAct, State.writeVer, Wr.bit, hidle, hbusy, hgo, hplain, Bool.or_self, ne_eq, one_ne_zero, not_false_eq_true,
    decide_true, Bool.not_true, Bool.false_eq_true, if_false]
  rfl

theorem State.gwWritten_names_em (h2 : op ≤ 2) (hst : fldOf w F.VER_GW_CMD.STAGE < 24)
    (hdef : s.emDefined p (fldOf w F.VER_GW_CMD.STAGE) (fldOf w F.VER_GW_CMD.TABLE) = true) :
    (s.gwWritten fn p w op).GwNames p (s.gwWord fn p w op) := by
  refine State.gwNames_em ?_ ?_ ?_
  · rwa [State.fldOf_gwWord_op (by omega)]
  · rwa [State.fldOf_gwWord (by decide)]
  · rw [State.fldOf_gwWord (by decide), State.fldOf_gwWord (by decide)]
    exact State.gwWritten_tables.1 hdef

theorem State.gwWritten_names_tc (hop : op = 3 ∨ op = 4 ∧
      fldOf w F.VER_GW_CMD.ADDR < 1024 * s.tcSlices p (fldOf w F.VER_GW_CMD.STAGE) (fldOf w F.VER_GW_CMD.TABLE))
    (hdef : s.tcDefined p (fldOf w F.VER_GW_CMD.STAGE) (fldOf w F.VER_GW_CMD.TABLE) = true) :
    (s.gwWritten fn p w op).GwNames p (s.gwWord fn p w op) := by
  obtain ⟨hdef', hslices⟩ := (State.gwWritten_tables (fn := fn) (w := w) (op := op)).2 hdef
  refine State.gwNames_tc ?_ ?_
  · rwa [State.fldOf_gwWord_op (by omega), State.fldOf_gwWord (by decide), State.fldOf_gwWord (by decide), State.fldOf_gwWord (by decide),
      hslices]
  · rwa [State.fldOf_gwWord (by decide), State.fldOf_gwWord (by decide)]

/-- Operation `op` of the word `w` is one of Table 9.2 on a table of the pipeline, and its engine runs no indirect command. -/
structure State.GwFree (s : State) (fn : FnNo) (p : PipeNo) (w : Word) (op : Nat) : Prop where
  code : op < 5
  names : (s.gwWritten fn p w op).GwNames p (s.gwWord fn p w op)
  em : op ≤ 2 → s.bit (R.STG_IA_CMD p (fldOf w F.VER_GW_CMD.STAGE)) F.STG_IA_CMD.GO = false
  tc : 2 < op → s.bit (R.TC_IA_CMD p) F.TC_IA_CMD.GO = false

theorem State.gwFree_em (h2 : op ≤ 2) (hst : fldOf w F.VER_GW_CMD.STAGE < 24)
    (hdef : s.emDefined p (fldOf w F.VER_GW_CMD.STAGE) (fldOf w F.VER_GW_CMD.TABLE) = true)
    (hfree : s.bit (R.STG_IA_CMD p (fldOf w F.VER_GW_CMD.STAGE)) F.STG_IA_CMD.GO = false) : s.GwFree fn p w op :=
  ⟨by omega, State.gwWritten_names_em h2 hst hdef, fun _ => hfree, fun h => absurd h2 (Nat.not_le.mpr h)⟩

theorem State.gwFree_tc (hop : op = 3 ∨ op = 4 ∧
      fldOf w F.VER_GW_CMD.ADDR < 1024 * s.tcSlices p (fldOf w F.VER_GW_CMD.STAGE) (fldOf w F.VER_GW_CMD.TABLE))
    (hdef : s.tcDefined p (fldOf w F.VER_GW_CMD.STAGE) (fldOf w F.VER_GW_CMD.TABLE) = true)
    (hfree : s.bit (R.TC_IA_CMD p) F.TC_IA_CMD.GO = false) : s.GwFree fn p w op :=
  ⟨by omega, State.gwWritten_names_tc hop hdef, fun h2 => absurd h2 (by omega), fun _ => hfree⟩

section

variable {n : Nat} (hw : s.writable fn (R.VER_GW_CMD p) = true) (hidle : s.bit (R.VER_GW_CMD p) F.VER_GW_CMD.GO = false)
  (hn : n = s.ownerOfPipe p) (hopen : s.verState n = 1) (hheld : s.pipeHeld p = false) (himg : (s.pipe p).img.isSome = true)
  (hfree : s.GwFree fn p w op)

include hn hopen hheld himg hfree

theorem State.gwRefusal_written :
    (s.gwWritten fn p w op).gwRefusal p (s.gwWord fn p w op) = if (s.verSt n).atRound = none then 0 else 7 := by
  obtain ⟨hheld', hpipe, howner, hstate, hver⟩ := State.gwWritten_keeps (s := s) (fn := fn) (p := p) (w := w) (op := op)
  rw [State.gwRefusal_named (hheld'.trans hheld) (hpipe ▸ himg) (by rw [howner, hstate, ← hn, hopen]) hfree.names, howner, ← hn,
    State.verSt_of_ver hver]

include hw hidle

/-- An operation of a group whose commit waits for its boundary is refused. -/
theorem State.command_gw_waits (hround : (s.verSt n).atRound ≠ none) :
    s.command fn (R.VER_GW_CMD p) w [(F.VER_GW_CMD.OP, op), (F.VER_GW_CMD.GO, 1)] = ((s.gwWritten fn p w op).gwDone p 7 0).settle s := by
  have hrefuse := (State.gwRefusal_written hn hopen hheld himg hfree).trans (if_neg hround)
  obtain ⟨hcode, -, hem, htc⟩ := hfree
  rw [State.command_gw hw hidle (by omega) hem htc, State.gwGo_refused hrefuse (by decide)]

/-- Another one is taken by its engine. -/
theorem State.command_gw_taken (hround : (s.verSt n).atRound = none) :
    s.command fn (R.VER_GW_CMD p) w [(F.VER_GW_CMD.OP, op), (F.VER_GW_CMD.GO, 1)] =
      (if op ≤ 2 then ((s.gwWritten fn p w op).gwDone p 0xF 0).iaTake p (fldOf w F.VER_GW_CMD.STAGE) (.group (s.gwWord fn p w op))
        else ((s.gwWritten fn p w op).gwDone p 0xF 0).tcTake p (.group (s.gwWord fn p w op))).settle s := by
  have hgood := (State.gwRefusal_written hn hopen hheld himg hfree).trans (if_pos hround)
  obtain ⟨hcode, -, hem, htc⟩ := hfree
  rw [State.command_gw hw hidle (by omega) hem htc, State.gwGo_taken (c := s.gwWord fn p w op) rfl hgood,
    State.fldOf_gwWord_op (by omega), State.fldOf_gwWord (by decide)]

end

end

end Sys2Proof.Machine
end

section
/-! SUPPORT. Group operations as their engines carry them out (R249, R250, R251, Table 9.5; O37): the turn, the operation, and the end of a
G_TC_INSERT. -/

namespace Sys2Proof.Machine

variable {s : State} {p : Nat} {c : Word}

/-! ### The turns of the engines (R168, R201, R250) -/

theorem State.iaTurn_group {st : Nat} (hclear : (s.emStage p st).toClear = [] ∨ (s.emStage p st).onJob = true)
    (hjob : (s.emStage p st).job = some (.group c)) (hbusy : 47 ≤ (s.emStage p st).busy) :
    s.iaTurn p st = (((s.freeBool.2.setEmStage p st { s.emStage p st with busy := 0 }).setEmStage p st
      { s.emStage p st with busy := 0, job := none }).setBit (R.STG_IA_CMD p st) F.STG_IA_CMD.GO false).gwRun p c := by
  have hrun : (s.emStage p st).free = false := decide_eq_false (by omega)
  have hlate : ¬ (s.emStage p st).busy < 47 := by omega
  have hon : ((s.emStage p st).onJob || (s.emStage p st).toClear.isEmpty) = true := by
    rcases hclear with h | h <;> simp [h]
  simp only [State.iaTurn, hjob, hrun, hon, hlate, Option.isNone_some, Option.isSome_some, Bool.and_false, Bool.false_eq_true, if_false,
    decide_false, Bool.and_self, Bool.not_true]

theorem State.tcInserts_group (hjob : (s.tcPipe p).job = some (.group c)) : s.tcInserts p = decide (fldOf c F.VER_GW_CMD.OP = 3) := by
  rw [State.tcInserts, hjob]

/-- At the last tick that it may take, a group operation is carried out. -/
theorem State.tcJobTurn_group (h : (if s.tcInserts p then 16 else 1024) ≤ (s.tcPipe p).busy + 1) :
    s.tcJobTurn p (.group c) = (s.freeBool.2.setTcPipe p { s.tcPipe p with busy := 0 }).gwRun p c := by
  have hlate : decide ((s.tcPipe p).busy + 1 < if s.tcInserts p then 16 else 1024) = false := decide_eq_false (Nat.not_lt.mpr h)
  have hinserts : s.freeBool.2.tcInserts p = s.tcInserts p := rfl
  simp only [State.tcJobTurn, hinserts, hlate, Bool.and_false, Bool.false_eq_true, if_false]

theorem State.tcTurn_group (hmove : (s.tcPipe p).move = none) (hjob : (s.tcPipe p).job = some (.group c))
    (hbusy : 1023 ≤ (s.tcPipe p).busy ∨ fldOf c F.VER_GW_CMD.OP = 3 ∧ 15 ≤ (s.tcPipe p).busy) :
    s.tcTurn p = (s.tcLast p).gwRun p c := by
  rw [State.tcTurn_job hmove hjob (by omega), State.tcJobTurn_group, State.tcPipe_setTcPipe]
  · rfl
  · rw [State.tcPipe_setTcPipe, State.tcInserts_group (by rw [State.tcPipe_setTcPipe, hjob])]
    rcases hbusy with hlong | ⟨hop, hshort⟩
    · split <;> (dsimp only; omega)
    · rw [if_pos (decide_eq_true hop)]
      dsimp only
      omega

/-! ### The operation of a word that no check refuses -/

section

variable (h : s.gwRefusal p c = 0)

include h

theorem State.gwRun_insert (hop : fldOf c F.VER_GW_CMD.OP = 0) : s.gwRun p c =
    s.gInsert p (fldOf c F.VER_GW_CMD.STAGE) (fldOf c F.VER_GW_CMD.TABLE) (1 - s.verTag (s.ownerOfPipe p)) := by
  simp only [State.gwRun, h, hop, ne_eq, not_true_eq_false, if_false]

theorem State.gwRun_replace (hop : fldOf c F.VER_GW_CMD.OP = 1) : s.gwRun p c =
    s.gReplace p (fldOf c F.VER_GW_CMD.STAGE) (fldOf c F.VER_GW_CMD.TABLE) (1 - s.verTag (s.ownerOfPipe p)) := by
  simp only [State.gwRun, h, hop, ne_eq, not_true_eq_false, if_false]

theorem State.gwRun_delete (hop : fldOf c F.VER_GW_CMD.OP = 2) : s.gwRun p c =
    s.gDelete p (fldOf c F.VER_GW_CMD.STAGE) (fldOf c F.VER_GW_CMD.TABLE) (1 - s.verTag (s.ownerOfPipe p)) := by
  simp only [State.gwRun, h, hop, ne_eq, not_true_eq_false, if_false]

theorem State.gwRun_tcInsert (hop : fldOf c F.VER_GW_CMD.OP = 3) : s.gwRun p c =
    s.gTcInsert p (fldOf c F.VER_GW_CMD.STAGE) (fldOf c F.VER_GW_CMD.TABLE) (1 - s.verTag (s.ownerOfPipe p)) := by
  simp only [State.gwRun, h, hop, ne_eq, not_true_eq_false, if_false]

theorem State.gwRun_tcDelete (hop : fldOf c F.VER_GW_CMD.OP = 4) : s.gwRun p c =
    (s.tcFree p).gTcDelete p (fldOf c F.VER_GW_CMD.STAGE) (fldOf c F.VER_GW_CMD.TABLE) (1 - s.verTag (s.ownerOfPipe p))
      (fldOf c F.VER_GW_CMD.ADDR) := by
  simp only [State.gwRun, h, hop, ne_eq, not_true_eq_false, if_false]

end

/-! ### Exact-match entries (R249, R251) -/

section

variable {st t v : Nat}

section

variable {x : State} (hfind : s.gwFind p st t v = (none, x))

include hfind

theorem State.gReplace_none : s.gReplace p st t v = x.gwDone p 1 0 := by rw [State.gReplace, hfind]

theorem State.gDelete_none : s.gDelete p st t v = x.gwDone p 1 0 := by rw [State.gDelete, hfind]

theorem State.gInsert_full (hrows : 2048 ≤ x.verRows p) : s.gInsert p st t v = x.gwDone p 5 0 := by
  simp only [State.gInsert, hfind, show 2048 < x.verRows p + 1 by omega, if_true]

theorem State.gInsert_placed {l : Nat} {y : State} (hrows : x.verRows p < 2048) (hplace : x.gwPlace p st t v = (some l, y)) :
    s.gInsert p st t v = y.gwDone p 0 (l % 2 ^ 20) := by
  simp only [State.gInsert, hfind, hplace, show ¬ 2048 < x.verRows p + 1 by omega, if_false]

theorem State.gInsert_noPlace {y : State} (hrows : x.verRows p < 2048) (hplace : x.gwPlace p st t v = (none, y)) :
    s.gInsert p st t v = y.gwDone p 3 0 := by
  simp only [State.gInsert, hfind, hplace, show ¬ 2048 < x.verRows p + 1 by omega, if_false]

end

section

variable {x : State} {l : Nat} (hfind : s.gwFind p st t v = (some l, x))

include hfind

theorem State.gInsert_held : s.gInsert p st t v = x.gwDone p 2 0 := by rw [State.gInsert, hfind]

theorem State.gReplace_marked (hmarked : (x.emRow p st l).marked = true) : s.gReplace p st t v = x.gwDone p 8 0 := by
  simp only [State.gReplace, hfind, hmarked, if_true]

theorem State.gDelete_marked (hmarked : (x.emRow p st l).marked = true) : s.gDelete p st t v = x.gwDone p 8 0 := by
  simp only [State.gDelete, hfind, hmarked, if_true]

theorem State.gReplace_placed {l' : Nat} {y : State} (hmarked : (x.emRow p st l).marked = false) (hrows : x.verRows p < 2047)
    (hplace : (x.setEmRow p st l { x.emRow p st l with see := 2 ^ (1 - v) }).gwPlace p st t v = (some l', y)) :
    s.gReplace p st t v = y.gwDone p 0 (l' % 2 ^ 20) := by
  simp only [State.gReplace, hfind, hmarked, hplace, show ¬ 2048 < x.verRows p + 2 by omega, Bool.false_eq_true, if_false]

theorem State.gDelete_marks (hmarked : (x.emRow p st l).marked = false) (hrows : x.verRows p < 2048) :
    s.gDelete p st t v = (x.setEmRow p st l { x.emRow p st l with see := 2 ^ (1 - v) }).gwDone p 0 (l % 2 ^ 20) := by
  simp only [State.gDelete, hfind, hmarked, show ¬ 2048 < x.verRows p + 1 by omega, Bool.false_eq_true, if_false]

end

/-- What the current view alone shows, the pending view does not (R246). -/
theorem seen_other (hv : v ≤ 1) (r : EmRow) : seen v { r with see := 2 ^ (1 - v) } = false := by
  change nbit (2 ^ (1 - v)) v = false
  rcases Nat.le_one_iff_eq_zero_or_eq_one.mp hv with rfl | rfl <;> rfl

/-! ### TCAM entries (R249, R251) -/

theorem State.gTcInsert_full (hrows : 2048 ≤ s.verRows p) : s.gTcInsert p st t v = (s.tcFree p).gwDone p 5 0 :=
  if_pos (by omega)

theorem State.gTcInsert_placed {m : TcMove} (hrows : s.verRows p < 2048) (hplace : s.tcInsert p st t (s.tcIaEntry p st t (2 ^ v)) = .inr m) :
    s.gTcInsert p st t v = s.setTcPipe p { s.tcPipe p with move := some m } := by
  simp only [State.gTcInsert, hplace, show ¬ 2048 < s.verRows p + 1 by omega, if_false]
  rfl

theorem State.gTcInsert_noPlace (hrows : s.verRows p < 2048) (hplace : s.tcInsert p st t (s.tcIaEntry p st t (2 ^ v)) = .inl 2) :
    s.gTcInsert p st t v = (s.tcFree p).gwDone p 3 0 := by
  simp only [State.gTcInsert, hplace, show ¬ 2048 < s.verRows p + 1 by omega, if_false, if_true]

/-- An engine that has done its operation has marked no further location. -/
theorem State.verRows_tcFree : (s.tcFree p).verRows p = s.verRows p := by
  have hem : (s.tcFree p).em = s.em := (State.setBit_em ..).trans (State.setTcPipe_em ..)
  rw [State.verRows, State.emMarked, hem, State.tcMarked, State.tcFree_shows.1]
  rfl

section

variable {a : Nat} {r : TcRow} (hr : r = s.tcRow p (tcKey st t a))

include hr

theorem State.gTcDelete_none (hvalid : r.valid = false) : s.gTcDelete p st t v a = s.gwDone p 1 0 := by
  simp only [State.gTcDelete, ← hr, hvalid, Bool.not_false, if_true]

theorem State.gTcDelete_marked (hvalid : r.valid = true) (hmarked : r.marked = true) : s.gTcDelete p st t v a = s.gwDone p 8 0 := by
  simp only [State.gTcDelete, ← hr, hvalid, hmarked, Bool.not_true, Bool.false_eq_true, if_false, if_true]

theorem State.gTcDelete_marks (hvalid : r.valid = true) (hmarked : r.marked = false) (hrows : s.verRows p < 2048) :
    s.gTcDelete p st t v a = (s.setTcRow p (tcKey st t a) { r with see := 2 ^ (1 - v) }).gwDone p 0 a := by
  simp only [State.gTcDelete, ← hr, hvalid, hmarked, show ¬ 2048 < s.verRows p + 1 by omega, Bool.not_true, Bool.false_eq_true, if_false]

end

end

/-- The tick after the last copy places the entry of a G_TC_INSERT and answers with its address (R250). -/
theorem State.tcMoveTurn_endGroup {m : TcMove} (h : m.todo = []) (hjob : (s.tcPipe p).job = some (.group c)) :
    s.tcMoveTurn p m = (s.tcPlaced p m).gwDone p 0 (m.key % 2 ^ 17) := by
  simp only [State.tcMoveTurn, h, hjob]
  rfl

/-- Settles O37: a word that names an operation is taken, its engine carries it out at the last tick that it may take, and each operation and
the end of a G_TC_INSERT is one of the equations above. -/
theorem groupOperations : Obligations.GroupOperations := by
  unfold Obligations.GroupOperations
  refine ⟨fun fn p w s n st t s1 hw hidle hn hopen hheld himg hst ht hst24 hs1 => ?_,
    fun p s c => ⟨fun st hclear hjob hbusy => ?_, fun hmove hjob hbusy => ?_⟩,
    fun p s c n v st t hn hv hopen hround hheld himg hst ht hst24 => ?_,
    fun p s m c h hjob => ⟨_, State.tcMoveTurn_endGroup h hjob, ?_⟩⟩
  · subst hst ht
    refine ⟨fun hround => ?waits, fun hround => ?taken⟩
    case waits =>
      have hs1 (op : Nat) : s1 op = (s.gwWritten fn p w op).gwDone p 7 0 := by
        rw [hs1, if_neg hround]
        rfl
      have hwaits {op : Nat} (hfree : s.GwFree fn p w op) : Host.Outcome.next (s.command fn (R.VER_GW_CMD p) w
          [(F.VER_GW_CMD.OP, op), (F.VER_GW_CMD.GO, 1)]) = (Host.Outcome.next ((s1 op).settle s) : Out) := by
        rw [hs1, State.command_gw_waits hw hidle hn hopen hheld himg hfree hround]
      refine ⟨fun hdef hgo => ?_, fun hdef hgo => ⟨hwaits (State.gwFree_tc (.inl rfl) hdef hgo),
        fun hin => hwaits (State.gwFree_tc (.inr ⟨rfl, hin⟩) hdef hgo)⟩, fun op => ?_⟩
      · have hem {op : Nat} (h2 : op ≤ 2) := hwaits (State.gwFree_em h2 hst24 hdef hgo)
        exact ⟨hem (by decide), hem (by decide), hem (by decide)⟩
      · rw [hs1]
        exact ⟨State.gwDone_go .., State.gwDone_result ..⟩
    case taken =>
      have hs1 (op : Nat) : s1 op = (s.gwWritten fn p w op).gwDone p 0xF 0 := by
        rw [hs1, if_pos hround]
        rfl
      have htaken {op : Nat} (hfree : s.GwFree fn p w op) : Host.Outcome.next (s.command fn (R.VER_GW_CMD p) w
          [(F.VER_GW_CMD.OP, op), (F.VER_GW_CMD.GO, 1)]) = (Host.Outcome.next
            ((if op ≤ 2 then (s1 op).iaTake p (fldOf w F.VER_GW_CMD.STAGE) (.group (s.gwWord fn p w op))
              else (s1 op).tcTake p (.group (s.gwWord fn p w op))).settle s) : Out) := by
        rw [hs1, State.command_gw_taken hw hidle hn hopen hheld himg hfree hround]
      refine ⟨fun op => ?_, fun hdef hgo => ⟨s.gwWord fn p w, fun op h => ⟨State.fldOf_gwWord_op (by omega),
          State.fldOf_gwWord (by decide), State.fldOf_gwWord (by decide)⟩, ?_⟩,
        fun hdef hgo => ⟨s.gwWord fn p w, fun op _ h => ⟨State.fldOf_gwWord_op (by omega), State.fldOf_gwWord (by decide),
            State.fldOf_gwWord (by decide), State.fldOf_gwWord (by decide)⟩, htaken (State.gwFree_tc (.inl rfl) hdef hgo),
          fun hin => htaken (State.gwFree_tc (.inr ⟨rfl, hin⟩) hdef hgo)⟩⟩
      · rw [hs1]
        exact ⟨State.gwDone_go .., State.gwDone_result ..⟩
      · have hem {op : Nat} (h2 : op ≤ 2) := htaken (State.gwFree_em h2 hst24 hdef hgo)
        exact ⟨hem (op := 0) (by decide), hem (op := 1) (by decide), hem (op := 2) (by decide)⟩
  · exact ⟨_, State.iaTurn_group hclear hjob hbusy, (State.emStage_of_em (State.setBit_em ..)).trans (State.emStage_setEmStage _),
      State.bit_setBit _ _ _ _ (by decide) (by decide), fun a ha => State.reg_setBit_ne _ _ _ _ _ ha, State.setBit_rest ..⟩
  · obtain ⟨hrows, -, hregs, hrest⟩ := State.tcLast_shows (s := s) (p := p)
    exact ⟨_, State.tcTurn_group hmove hjob hbusy, hrows, hregs, hrest⟩
  · subst hv hst ht hn
    have hgood (hnames : s.GwNames p c) : s.gwRefusal p c = 0 := (State.gwRefusal_named hheld himg hopen hnames).trans (if_pos hround)
    refine ⟨fun hdef => ?_, fun hdef => ?_⟩
    · have hem (hop : fldOf c F.VER_GW_CMD.OP ≤ 2) : s.gwRefusal p c = 0 := hgood (State.gwNames_em hop hst24 hdef)
      have hinsert (h0 : fldOf c F.VER_GW_CMD.OP = 0) := State.gwRun_insert (hem (by omega)) h0
      have hreplace (h1 : fldOf c F.VER_GW_CMD.OP = 1) := State.gwRun_replace (hem (by omega)) h1
      have hdelete (h2 : fldOf c F.VER_GW_CMD.OP = 2) := State.gwRun_delete (hem (by omega)) h2
      exact ⟨fun x h0 hfind => ⟨fun hrows => (hinsert h0).trans (State.gInsert_full hfind hrows),
          fun hrows => ⟨fun l y hplace => (hinsert h0).trans (State.gInsert_placed hfind hrows hplace),
            fun y hplace => (hinsert h0).trans (State.gInsert_noPlace hfind hrows hplace)⟩⟩,
        fun l x h0 hfind => (hinsert h0).trans (State.gInsert_held hfind),
        fun x h12 hfind => h12.elim (fun h1 => (hreplace h1).trans (State.gReplace_none hfind))
          (fun h2 => (hdelete h2).trans (State.gDelete_none hfind)),
        fun l x h12 hfind hmarked => h12.elim (fun h1 => (hreplace h1).trans (State.gReplace_marked hfind hmarked))
          (fun h2 => (hdelete h2).trans (State.gDelete_marked hfind hmarked)),
        fun l x l' y h1 hfind hmarked hrows hplace => (hreplace h1).trans (State.gReplace_placed hfind hmarked hrows hplace),
        fun l x h2 hfind hmarked hrows => ⟨_, rfl,
          ((State.emRow_setEmRow ..).trans (if_pos rfl)).symm ▸ seen_other (Nat.sub_le ..) _,
          (hdelete h2).trans (State.gDelete_marks hfind hmarked hrows)⟩⟩
    · have hinsert (h3 : fldOf c F.VER_GW_CMD.OP = 3) := State.gwRun_tcInsert (hgood (State.gwNames_tc (.inl h3) hdef)) h3
      refine ⟨fun h3 => ⟨fun hrows => (hinsert h3).trans (State.gTcInsert_full hrows),
          fun hrows => ⟨fun m hplace => (hinsert h3).trans (State.gTcInsert_placed hrows hplace),
            fun hplace => (hinsert h3).trans (State.gTcInsert_noPlace hrows hplace)⟩⟩,
        fun a r y h4 ha hin hy hr => ?_⟩
      subst ha hy
      have hdelete := State.gwRun_tcDelete (hgood (State.gwNames_tc (.inr ⟨h4, hin⟩) hdef)) h4
      have hr := hr.trans (State.tcRow_tcFree _).symm
      exact ⟨fun hvalid => hdelete.trans (State.gTcDelete_none hr hvalid),
        fun hvalid hmarked => hdelete.trans (State.gTcDelete_marked hr hvalid hmarked),
        fun hvalid hmarked hrows => hdelete.trans (State.gTcDelete_marks hr hvalid hmarked (State.verRows_tcFree.trans_lt hrows))⟩
  · have htc := State.gwDone_tc (s := s.tcPlaced p m) (p := p) 0 (m.key % 2 ^ 17)
    have hrow (k : Nat) := (State.tcRow_of_tc htc k).trans (State.tcRow_tcPlaced k)
    refine ⟨?_, ?_, (hrow _).trans (if_pos rfl), fun k hk => (hrow k).trans (if_neg hk), State.gwDone_go .., State.gwDone_result .., ?_⟩
    · rw [State.tcPipe_of_tc htc, State.tcPipe_tcPlaced]
    · rw [State.tcPipe_of_tc htc, State.tcPipe_tcPlaced]
    · rw [State.gwDone_loc]
      omega

end Sys2Proof.Machine
end

section
/-! SUPPORT. The holds of the buffers and the grant of one (R267, R269, R270, R273; O19): the counts of a pool as sums over its buffers, the
free buffer that a grant takes, what the conditions of R273 say, and what a grant and a release leave. -/

namespace Sys2Proof.Machine

/-! ### Sums over a sparse map -/

section

variable {α : Type}

theorem SMap.lt_of_rising {b : Nat} {m : SMap α} (h : SMap.rising b m = true) : ∀ e ∈ m, b < e.1 := by
  induction m generalizing b with
  | nil => simp
  | cons e m ih =>
    obtain ⟨hb, hm⟩ : b < e.1 ∧ SMap.rising e.1 m = true := by simpa [SMap.rising] using h
    exact List.forall_mem_cons.mpr ⟨hb, fun x hx => hb.trans (ih hm x hx)⟩

theorem SMap.ins_perm (m : SMap α) (k : Nat) (v : α) : (SMap.ins m k v).Perm ((k, v) :: m) := by
  induction m with
  | nil => exact .refl _
  | cons e m ih =>
    unfold SMap.ins
    split
    · exact .refl _
    · exact (ih.cons e).trans (.swap (k, v) e m)

variable {m : SMap (Option α)} {g : Nat × Option α → Nat}

/-- The entry of an index leaves a sum with its weight. -/
theorem SMap.sum_filter (hm : SMap.sorted m = true) (hg : ∀ k, g (k, none) = 0) (k : Nat) :
    ((m.filter fun e => e.1 != k).map g).sum + g (k, SMap.get (fun _ => none) m k) = (m.map g).sum := by
  induction m with
  | nil => exact (Nat.zero_add _).trans (hg k)
  | cons e m ih =>
    obtain ⟨j, v⟩ := e
    have ih := ih (SMap.sorted_of_rising j m hm)
    by_cases hj : k = j
    · subst hj
      have hrest : (m.filter fun e => e.1 != k) = m :=
        List.filter_eq_self.mpr fun e he => by simpa using (SMap.lt_of_rising hm e he).ne'
      simp [SMap.get, hrest, Nat.add_comm]
    · have hj' : (j != k) = true := by simpa using Ne.symm hj
      rw [List.filter_cons_of_pos (p := fun e : Nat × Option α => e.1 != k) hj', List.map_cons, List.sum_cons, List.map_cons,
        List.sum_cons, SMap.get, if_neg hj]
      omega

/-- A write takes the old entry's weight from a sum and adds the new one's. -/
theorem SMap.sum_put [DecidableEq α] (hm : SMap.sorted m = true) (hg : ∀ k, g (k, none) = 0) (k : Nat) (v : Option α) :
    ((SMap.put (fun _ => none) m k v).map g).sum + g (k, SMap.get (fun _ => none) m k) = (m.map g).sum + g (k, v) := by
  have hsum := SMap.sum_filter hm hg k
  unfold SMap.put
  split
  · next hv => rw [hsum, hv, hg, Nat.add_zero]
  · rw [((SMap.ins_perm _ k v).map g).sum_eq, List.map_cons, List.sum_cons]
    omega

end

/-! ### The counts of a pool -/

/-- What the entry of a buffer adds to a count of pool q, where a buffer adds `c`; one that is free adds nothing. -/
def poolWeight (q : Nat) (c : Buf → Nat) (e : Nat × Option Buf) : Nat := if poolOfH e.1 = q then (e.2.map c).getD 0 else 0

/-- A count over the buffers of pool q. -/
def State.poolSum (s : State) (q : Nat) (c : Buf → Nat) : Nat := (s.bpm.bufs.map (poolWeight q c)).sum

/-- What a buffer counts against owner n. -/
def Buf.chargedTo (n : Nat) (b : Buf) : Nat := if b.owner = n then 1 else 0

@[simp] theorem poolWeight_none (q : Nat) (c : Buf → Nat) (h : Nat) : poolWeight q c (h, none) = 0 := ite_self 0

theorem poolWeight_some (c : Buf → Nat) (h : Nat) (b : Buf) : poolWeight (poolOfH h) c (h, some b) = c b := if_pos rfl

section

variable {s t : State} {h q : Nat}

theorem State.sum_poolBufs (s : State) (q : Nat) (c : Buf → Nat) : ((s.poolBufs q).map fun e => c e.2).sum = s.poolSum q c := by
  unfold State.poolBufs State.poolSum
  induction s.bpm.bufs with
  | nil => rfl
  | cons e m ih =>
    obtain ⟨k, o⟩ := e
    rw [List.map_cons, List.sum_cons, ← ih, List.filterMap_cons]
    by_cases hq : poolOfH k = q <;> cases o <;> simp [poolWeight, hq]

theorem State.rqHolds_eq (s : State) (rq q : Nat) : s.rqHolds rq q = s.poolSum q (Buf.holdsOf · rq) :=
  s.sum_poolBufs q (Buf.holdsOf · rq)

theorem State.ownHolds_eq (s : State) (n q : Nat) : s.ownHolds n q = s.poolSum q (Buf.chargedTo n) := by
  rw [← State.sum_poolBufs, State.ownHolds]
  induction s.poolBufs q with
  | nil => rfl
  | cons e m ih => by_cases hn : e.2.owner = n <;> simp [Buf.chargedTo, hn, ih, Nat.add_comm]

theorem State.poolSum_of_bufs (h : t.bpm.bufs = s.bpm.bufs) (q : Nat) (c : Buf → Nat) : t.poolSum q c = s.poolSum q c := by
  rw [State.poolSum, h, State.poolSum]

theorem State.buf_of_bufs (h : t.bpm.bufs = s.bpm.bufs) (k : Nat) : t.buf k = s.buf k := by rw [State.buf, h, State.buf]

theorem State.poolSum_setBuf (hc : s.canonical) (h : Nat) (b : Option Buf) (q : Nat) (c : Buf → Nat) :
    (s.setBuf h b).poolSum q c + poolWeight q c (h, s.buf h) = s.poolSum q c + poolWeight q c (h, b) :=
  SMap.sum_put (Bool.and_eq_true_iff.mp hc.bufs).1 (poolWeight_none q c) h b

/-! ### The release of a hold -/

/-- A buffer after a hold of requester `rq` is released; none where that was the last. -/
def Buf.released (b : Buf) (rq : Nat) : Option Buf :=
  let b' := if b.primary = some rq then { b with primary := none } else { b with copies := b.copies.erase rq }
  if b'.holds = 0 then none else some b'

variable {b : Buf} {rq : Nat}

theorem Buf.released_primary (hp : b.primary = some rq) (hcopies : b.copies ≠ []) : b.released rq = some { b with primary := none } := by
  simp [Buf.released, hp, Buf.holds, hcopies]

theorem Buf.released_last_primary (hp : b.primary = some rq) (hcopies : b.copies = []) : b.released rq = none := by
  simp [Buf.released, hp, Buf.holds, hcopies]

theorem Buf.released_last_copy (hp : b.primary = none) (hcopies : b.copies = [rq]) : b.released rq = none := by
  simp [Buf.released, hp, Buf.holds, hcopies]

theorem Buf.holdsOf_of_primary (hp : b.primary = some rq) : b.holdsOf rq = ({ b with primary := none } : Buf).holdsOf rq + 1 := by
  simp [Buf.holdsOf, hp]

theorem State.bpmRelease_held (hb : s.buf h = some b) : s.bpmRelease rq h = s.setBuf h (b.released rq) := by
  rw [State.bpmRelease, hb]
  rfl

theorem State.buf_bpmRelease (hb : s.buf h = some b) (k : Nat) :
    (s.bpmRelease rq h).buf k = if k = h then b.released rq else s.buf k := by rw [State.bpmRelease_held hb, State.buf_setBuf]

/-- A release changes a count of the buffer's pool by what the buffer added and adds. -/
theorem State.poolSum_bpmRelease (hc : s.canonical) (hb : s.buf h = some b) (c : Buf → Nat) :
    (s.bpmRelease rq h).poolSum (poolOfH h) c + c b = s.poolSum (poolOfH h) c + ((b.released rq).map c).getD 0 := by
  have hsum := State.poolSum_setBuf hc h (b.released rq) (poolOfH h) c
  rw [hb, poolWeight_some] at hsum
  rw [State.bpmRelease_held hb, hsum, poolWeight, if_pos rfl]

/-- A release of the last hold ends the charges of its requester and of the owner. -/
theorem State.bpmRelease_last (hc : s.canonical) (hb : s.buf h = some b) (hlast : b.released rq = none) (hone : b.holdsOf rq = 1) :
    (s.bpmRelease rq h).rqHolds rq (poolOfH h) + 1 = s.rqHolds rq (poolOfH h) ∧
      (s.bpmRelease rq h).ownHolds b.owner (poolOfH h) + 1 = s.ownHolds b.owner (poolOfH h) ∧ (s.bpmRelease rq h).buf h = none := by
  have hsum (c : Buf → Nat) := State.poolSum_bpmRelease (rq := rq) hc hb c
  simp only [hlast, Option.map_none, Option.getD_none, Nat.add_zero] at hsum
  refine ⟨?_, ?_, by rw [State.buf_bpmRelease hb, if_pos rfl, hlast]⟩
  · rw [State.rqHolds_eq, State.rqHolds_eq, ← hsum, hone]
  · rw [State.ownHolds_eq, State.ownHolds_eq, ← hsum, Buf.chargedTo, if_pos rfl]

/-- A release of the primary hold while copies remain ends the charge of its requester alone. -/
theorem State.bpmRelease_copies (hc : s.canonical) (hb : s.buf h = some b) (hp : b.primary = some rq) (hcopies : b.copies ≠ []) :
    (s.bpmRelease rq h).rqHolds rq (poolOfH h) + 1 = s.rqHolds rq (poolOfH h) ∧
      (s.bpmRelease rq h).ownHolds b.owner (poolOfH h) = s.ownHolds b.owner (poolOfH h) ∧
      (s.bpmRelease rq h).buf h = some { b with primary := none } := by
  have hleft := Buf.released_primary hp hcopies
  have hsum (c : Buf → Nat) := State.poolSum_bpmRelease (rq := rq) hc hb c
  simp only [hleft, Option.map_some, Option.getD_some] at hsum
  have hrq := hsum (Buf.holdsOf · rq)
  rw [← State.rqHolds_eq, ← State.rqHolds_eq, Buf.holdsOf_of_primary hp] at hrq
  have hown := Nat.add_right_cancel (hsum (Buf.chargedTo b.owner))
  rw [← State.ownHolds_eq, ← State.ownHolds_eq] at hown
  exact ⟨by omega, hown, by rw [State.buf_bpmRelease hb, if_pos rfl, hleft]⟩

end

/-! ### The free buffer that a grant takes (R269) -/

theorem kthFree_cons (u : Nat) (us : List Nat) (k : Nat) : kthFree (u :: us) k = kthFree us (if u ≤ k then k + 1 else k) := rfl

theorem kthFree_of_lt {us : List Nat} {k : Nat} (h : ∀ u ∈ us, k < u) : kthFree us k = k := by
  induction us with
  | nil => rfl
  | cons u us ih =>
    obtain ⟨hu, hus⟩ := List.forall_mem_cons.mp h
    rw [kthFree_cons, if_neg (by omega), ih hus]

theorem kthFree_bounds (us : List Nat) (k : Nat) : k ≤ kthFree us k ∧ kthFree us k ≤ k + us.length := by
  induction us generalizing k with
  | nil => exact ⟨le_rfl, le_rfl⟩
  | cons u us ih =>
    obtain ⟨hlo, hhi⟩ := ih (if u ≤ k then k + 1 else k)
    rw [kthFree_cons, List.length_cons]
    split_ifs at hlo hhi ⊢ <;> omega

theorem kthFree_not_mem {us : List Nat} (h : us.Pairwise (· ≤ ·)) (k : Nat) : kthFree us k ∉ us := by
  induction us generalizing k with
  | nil => simp
  | cons u us ih =>
    obtain ⟨hu, hus⟩ := List.pairwise_cons.mp h
    rw [kthFree_cons, List.mem_cons, not_or]
    refine ⟨?_, ih hus _⟩
    split_ifs with hk
    · have hlo := (kthFree_bounds us (k + 1)).1
      omega
    · rw [kthFree_of_lt fun x hx => by have := hu x hx; omega]
      omega

section

variable {s : State} {q sl : Nat}

theorem State.usedPlaces_sorted (s : State) (q sl : Nat) : (s.usedPlaces q sl).Pairwise (· ≤ ·) := by
  refine (sortBy_sorted (le := fun a b => decide (a ≤ b)) (by simp; omega) (by simp; omega) _).imp ?_
  simp

theorem State.mem_usedPlaces {h : Nat} {b : Buf} (hb : s.buf h = some b) : indexOfH h / 16 ∈ s.usedPlaces (poolOfH h) (sliceOfH h) := by
  have hmem : (h, some b) ∈ s.bpm.bufs := by
    rcases SMap.get_default_or_mem (fun _ => none) s.bpm.bufs h with hn | hm
    · exact absurd (hb.symm.trans hn) (by simp)
    · rwa [show SMap.get (fun _ => none) s.bpm.bufs h = some b from hb] at hm
  have hpool : (h, b) ∈ s.poolBufs (poolOfH h) := List.mem_filterMap.mpr ⟨_, hmem, by simp⟩
  refine (mem_sortBy ..).mpr (List.mem_map.mpr ⟨h, List.mem_filter.mpr ⟨?_, by simp⟩, rfl⟩)
  exact List.mem_append_left _ (List.mem_map.mpr ⟨_, hpool, rfl⟩)

/-- The handle that a grant from slice sl of pool q gives, with the free number `w`. -/
def State.freeHandle (s : State) (q sl w : Nat) : Nat :=
  handleOf q (kthFree (s.usedPlaces q sl) (w % max 1 (s.freeInSlice q sl)) * 16 + sl)

/-- It names a free buffer of that pool and that slice, where the slice has one and the pool's indexes fit a handle. -/
theorem State.freeHandle_free (hcount : s.poolCount q ≤ 2 ^ 21) (hsl : sl < 16) (hfree : 0 < s.freeInSlice q sl) (w : Nat) :
    poolOfH (s.freeHandle q sl w) = q ∧ sliceOfH (s.freeHandle q sl w) = sl ∧ s.buf (s.freeHandle q sl w) = none := by
  obtain ⟨p, hp⟩ : ∃ p, p = kthFree (s.usedPlaces q sl) (w % max 1 (s.freeInSlice q sl)) := ⟨_, rfl⟩
  have hh : s.freeHandle q sl w = q * 2 ^ 21 + (p * 16 + sl) := hp ▸ rfl
  have hw : w % max 1 (s.freeInSlice q sl) < s.freeInSlice q sl := (Nat.mod_lt _ (by omega)).trans_eq (by omega)
  have hlt : p < s.poolCount q / 16 := by
    have hle := (kthFree_bounds (s.usedPlaces q sl) (w % max 1 (s.freeInSlice q sl))).2
    have hdef : s.freeInSlice q sl = s.poolCount q / 16 - (s.usedPlaces q sl).length := rfl
    omega
  have hpool : poolOfH (s.freeHandle q sl w) = q := by rw [hh, poolOfH]; omega
  have hslice : sliceOfH (s.freeHandle q sl w) = sl := by rw [hh, sliceOfH]; omega
  refine ⟨hpool, hslice, Option.eq_none_iff_forall_ne_some.mpr fun b hb => ?_⟩
  have hmem := State.mem_usedPlaces hb
  rw [hpool, hslice, show indexOfH (s.freeHandle q sl w) / 16 = p by rw [hh, indexOfH]; omega, hp] at hmem
  exact kthFree_not_mem (s.usedPlaces_sorted q sl) _ hmem

/-! ### The conditions of R273 -/

theorem State.nextSlice_some (h : s.nextSlice q = some sl) : sl < 16 ∧ s.sliceFenced sl = false ∧ 0 < s.freeInSlice q sl := by
  obtain ⟨i, -, rfl⟩ := List.mem_map.mp (List.mem_of_find?_eq_some h)
  have hp := List.find?_some h
  simp only [Bool.and_eq_true, Bool.not_eq_true', decide_eq_true_eq] at hp
  exact ⟨Nat.mod_lt _ (by decide), hp⟩

/-- The rotation meets every slice. -/
theorem State.nextSlice_isSome_iff :
    (s.nextSlice q).isSome = true ↔ ∃ sl, sl < 16 ∧ s.sliceFenced sl = false ∧ 0 < s.freeInSlice q sl := by
  constructor
  · intro h
    obtain ⟨sl, hsl⟩ := Option.isSome_iff_exists.mp h
    exact ⟨sl, State.nextSlice_some hsl⟩
  · rintro ⟨sl, hsl, hfence, hfree⟩
    refine List.find?_isSome.mpr ⟨sl, List.mem_map.mpr
      ⟨(sl + 16 - SMap.get (fun _ => 0) s.bpm.rot q % 16) % 16, List.mem_range.mpr (Nat.mod_lt _ (by decide)), ?_⟩, by simp [hfence, hfree]⟩
    omega

variable {rq len : Nat} {bs : Bytes}

/-- A check of three conditions in turn finds nothing where none fails. -/
theorem firstFailed_none {α : Type} {c₁ c₂ c₃ : Prop} [Decidable c₁] [Decidable c₂] [Decidable c₃] {x y z : α} :
    (if c₁ then some x else if c₂ then some y else if c₃ then some z else none) = none ↔ ¬ c₁ ∧ ¬ c₂ ∧ ¬ c₃ := by
  split_ifs with h₁ h₂ h₃ <;> simp [*]

/-- No condition fails where all three hold. -/
theorem State.bpmJudge_none_iff : s.bpmJudge rq q = none ↔
    s.rqHolds rq q < s.rqQuota rq q ∧ (s.rqOwner rq ≠ 0 → s.ownHolds (s.rqOwner rq) q < s.effRsv (s.rqOwner rq) q) ∧
      (s.rqOwner rq = 0 → s.ownHolds (s.rqOwner rq) q < s.unreserved q) ∧
      ∃ sl, sl < 16 ∧ s.sliceFenced sl = false ∧ 0 < s.freeInSlice q sl := by
  have hreserve : ¬ (if s.rqOwner rq = 0 then s.unreserved q else s.effRsv (s.rqOwner rq) q) ≤ s.ownHolds (s.rqOwner rq) q ↔
      (s.rqOwner rq ≠ 0 → s.ownHolds (s.rqOwner rq) q < s.effRsv (s.rqOwner rq) q) ∧
        (s.rqOwner rq = 0 → s.ownHolds (s.rqOwner rq) q < s.unreserved q) := by
    rw [Nat.not_le]
    split_ifs with h0
    · exact ⟨fun h => ⟨fun hne => absurd h0 hne, fun _ => h⟩, fun h => h.2 h0⟩
    · exact ⟨fun h => ⟨fun _ => h, fun he => absurd he h0⟩, fun h => h.1 h0⟩
  have hslice : ¬ (s.nextSlice q).isNone = true ↔ (s.nextSlice q).isSome = true := by
    rw [Option.isNone_iff_eq_none, ← ne_eq, Option.ne_none_iff_isSome]
  rw [← State.nextSlice_isSome_iff, ← hslice, ← and_assoc (c := ¬ _), ← hreserve, ← Nat.not_le]
  exact firstFailed_none

theorem State.bpmJudge_ne_granted {a : BpmAns} (h : s.bpmJudge rq q = some a) (k : Nat) : a ≠ .granted k := by
  rintro rfl
  simp only [State.bpmJudge] at h
  split_ifs at h <;> cases h

theorem State.bpmRefuse_bpm (s : State) (n : Nat) (a : BpmAns) : (s.bpmRefuse n a).bpm = s.bpm := by
  have hcause (t : State) (a : Nat) (f : Fld) : (t.cause a f).bpm = t.bpm := by
    rw [(State.cause_alarms (as := [a]) t a f (.inl (by simp))).eq]
  cases a with
  | granted k => rfl
  | quota => exact hcause ..
  | reserve => exact hcause ..
  | empty => exact hcause ..

/-! ### The decision -/

theorem State.bpmAlloc_refused {a : BpmAns} (hl : s.layoutFixed = true) (hp : s.poolFor len = some q) (hj : s.bpmJudge rq q = some a) :
    s.bpmAlloc rq len bs = (a, s.bpmRefuse (s.rqOwner rq) a) := by
  simp only [State.bpmAlloc, hl, if_true, hp, hj]

/-- The record of a buffer that requester `rq` has just been granted. -/
def State.grantBuf (s : State) (rq : Nat) (bs : Bytes) : Buf :=
  { primary := some rq, owner := s.rqOwner rq, alloc := (s.reg R.DEV_ROUND_NUM).toNat % 65536, bytes := bs }

theorem State.bpmAlloc_granted (hl : s.layoutFixed = true) (hp : s.poolFor len = some q) (hj : s.bpmJudge rq q = none)
    (hsl : s.nextSlice q = some sl) :
    ∃ t, s.bpmAlloc rq len bs = (.granted (s.freeHandle q sl s.freeWord.1), t) ∧
      t.bpm.bufs = (s.setBuf (s.freeHandle q sl s.freeWord.1) (some (s.grantBuf rq bs))).bpm.bufs ∧
      t.cnts = (s.addCnt (C.BPM_ADMITTED (s.rqOwner rq)) 1).cnts ∧ t.regs = s.regs := by
  simp only [State.bpmAlloc, hl, if_true, hp, hj, hsl]
  exact ⟨_, rfl, rfl, rfl, rfl⟩

/-- A buffer that was free and is granted counts once for its requester and once for the owner. -/
theorem State.grant_counts {t : State} {k : Nat} (hc : s.canonical) (hfree : s.buf k = none)
    (hbufs : t.bpm.bufs = (s.setBuf k (some (s.grantBuf rq bs))).bpm.bufs) :
    t.rqHolds rq (poolOfH k) = s.rqHolds rq (poolOfH k) + 1 ∧
      t.ownHolds (s.rqOwner rq) (poolOfH k) = s.ownHolds (s.rqOwner rq) (poolOfH k) + 1 := by
  have hsum (c : Buf → Nat) : t.poolSum (poolOfH k) c = s.poolSum (poolOfH k) c + c (s.grantBuf rq bs) := by
    have hput := State.poolSum_setBuf hc k (some (s.grantBuf rq bs)) (poolOfH k) c
    rwa [hfree, poolWeight_none, Nat.add_zero, ← State.poolSum_of_bufs hbufs, poolWeight_some] at hput
  have hholds : (s.grantBuf rq bs).holdsOf rq = 1 := by simp [Buf.holdsOf, State.grantBuf]
  rw [State.rqHolds_eq, State.rqHolds_eq, State.ownHolds_eq, State.ownHolds_eq, hsum, hsum, hholds]
  exact ⟨rfl, congrArg _ (if_pos rfl)⟩

end

/-- Settles O19: the conditions of R273 are those of `bpmJudge`; a grant and a release change the counts of a pool, which are sums over its
buffers, by what the one buffer adds to them. -/
theorem bufferGrant : Obligations.BufferGrant := by
  refine ⟨?_, ?_, ?_⟩
  · intro s rq len q n bs may hc hl hp hcount hn hmay
    subst hn
    rw [← State.bpmJudge_none_iff] at hmay
    refine ⟨fun h => ?_, fun h => ?_⟩
    · have hj := hmay.mp h
      obtain ⟨sl, hsl⟩ : ∃ sl, s.nextSlice q = some sl :=
        Option.isSome_iff_exists.mp (State.nextSlice_isSome_iff.mpr (State.bpmJudge_none_iff.mp hj).2.2.2)
      obtain ⟨hsl16, hfence, hfree⟩ := State.nextSlice_some hsl
      obtain ⟨hpool, hslice, hbuf⟩ := State.freeHandle_free hcount hsl16 hfree s.freeWord.1
      obtain ⟨t, ht, hbufs, hcnts, hregs⟩ := State.bpmAlloc_granted (bs := bs) hl hp hj hsl
      obtain ⟨k, hk⟩ : ∃ k, k = s.freeHandle q sl s.freeWord.1 := ⟨_, rfl⟩
      rw [← hk] at hpool hslice hbuf ht hbufs
      have hget (k' : Nat) : t.buf k' = if k' = k then some (s.grantBuf rq bs) else s.buf k' := by
        rw [State.buf_of_bufs hbufs, State.buf_setBuf]
      have hown : t.buf k = some (s.grantBuf rq bs) := (hget k).trans (if_pos rfl)
      obtain ⟨hrqHolds, hownHolds⟩ := State.grant_counts hc hbuf hbufs
      rw [hpool] at hrqHolds hownHolds
      refine ⟨k, t, s.grantBuf rq bs, ht, hpool, hbuf, by rw [hslice, hfence], by rw [hslice, hsl], hown, rfl, rfl, rfl, rfl, rfl,
        fun k' hk' => (hget k').trans (if_neg hk'), hrqHolds, hownHolds, ?_, hregs, ?_, fun k' hk' => ?_⟩
      · rw [State.cnt_of_cnts hcnts, State.cnt_addCnt]
      · rw [State.buf_bpmRelease hown, if_pos rfl, Buf.released_last_primary rfl rfl]
      · rw [State.buf_bpmRelease hown, if_neg hk']
    · obtain ⟨a, ha⟩ := Option.ne_none_iff_exists'.mp (mt hmay.mpr h)
      exact ⟨a, _, State.bpmAlloc_refused hl hp ha, State.bpmJudge_ne_granted ha, s.bpmRefuse_bpm _ _⟩
  · intro s t h rq q b hc hb hp hq ht
    subst hq ht
    refine ⟨?_, fun hcopies => (State.bpmRelease_copies hc hb hp hcopies).2, fun hcopies => ?_⟩
    · by_cases hcopies : b.copies = []
      · exact (State.bpmRelease_last hc hb (Buf.released_last_primary hp hcopies) (by simp [Buf.holdsOf, hp, hcopies])).1
      · exact (State.bpmRelease_copies hc hb hp hcopies).1
    · exact (State.bpmRelease_last hc hb (Buf.released_last_primary hp hcopies) (by simp [Buf.holdsOf, hp, hcopies])).2
  · intro s t h rq q b hc hb hp hcopies hq ht
    subst hq ht
    exact State.bpmRelease_last hc hb (Buf.released_last_copy hp hcopies) (by simp [Buf.holdsOf, hp, hcopies])

end Sys2Proof.Machine
end

section
/-! SUPPORT. The commands of the Buffer Pool Manager (R284, R285, R287, Table 10.3; O42): POP, a reclaim from its command to its end, and
the fence of a slice. -/

namespace Sys2Proof.Machine

variable {s : State}

/-! ### BPM_AUD_CTL.POP (R284) -/

theorem State.audQ_setAudQ (n m : Nat) (q : List AudRep) : (s.setAudQ n q).audQ m = if m = n then q else s.audQ m := SMap.get_put ..

section

variable {fn : FnNo}

theorem exec_bpmAudPop {n : OwnerNo} (h : s.writable fn (R.BPM_AUD_CTL n) = true) :
    exec (.bpmAudPop fn n) s = .next ((s.setAudQ n (s.audQ n).tail).settle s) := by
  have hpop : fldOf (taken (R.BPM_AUD_CTL n) (putFlds 0 [(F.BPM_AUD_CTL.POP, 1)])) F.BPM_AUD_CTL.POP = 1 :=
    fldOf_taken_set (findReg_BPM_AUD_CTL n n.isLt) _ _ _ (by decide) (by decide)
  refine congrArg Host.Outcome.next ((State.command_BPM_AUD_CTL n n.isLt h).trans ?_)
  simp only [State.regAct, State.writeBpm, Wr.bit, hpop, ne_eq, one_ne_zero, not_false_eq_true, decide_true, if_true, State.audPop]

/-! ### BPM_RECLAIM.GO is written -/

theorem State.recl_of_bpm {t : State} (h : t.bpm = s.bpm) (n : Nat) : t.recl n = s.recl n := by rw [State.recl, h, State.recl]

section

variable {n : OwnerNo} {v : Word}

theorem State.physAddr_RECLAIM : s.physAddr fn (R.BPM_RECLAIM n) = some (R.BPM_RECLAIM n) :=
  State.physAddr_self (region_BPM_RECLAIM n n.isLt) (by show _ ≠ _ ∧ _ ≠ _; unfold R.BPM_RECLAIM; omega)

/-- A reclaim that is asked for is judged in the state that the write leaves. -/
theorem exec_bpmReclaim {s1 : State} (hw : s.writable fn (R.BPM_RECLAIM n) = true)
    (h1 : s1 = s.wrote fn (R.BPM_RECLAIM n) (putFlds v [(F.BPM_RECLAIM.GO, 1)])) :
    exec (.bpmReclaim fn n v) s = .next ((if (s.recl n).isSome then s1.busyWrite fn else s1.reclaim n).settle s) := by
  have hgo : fldOf (taken (R.BPM_RECLAIM n) (putFlds v [(F.BPM_RECLAIM.GO, 1)])) F.BPM_RECLAIM.GO = 1 :=
    fldOf_taken_set (findReg_BPM_RECLAIM n n.isLt) _ _ _ (by decide) (by decide)
  have hplain := State.plainWrite_wrote (s := s) (fn := fn) (v := putFlds v [(F.BPM_RECLAIM.GO, 1)]) (w := ⟨host fn, R.BPM_RECLAIM n,
    R.BPM_RECLAIM n, .bpmPage n, _, [], taken (R.BPM_RECLAIM n) (putFlds v [(F.BPM_RECLAIM.GO, 1)]), none, none⟩)
    (findReg_BPM_RECLAIM n n.isLt) State.physAddr_RECLAIM rfl (by simp) (by dsimp only)
  have hrecl : s1.recl n = s.recl n := by
    obtain ⟨r, hr⟩ := s.wrote_rest fn (R.BPM_RECLAIM n) (putFlds v [(F.BPM_RECLAIM.GO, 1)])
    rw [h1, hr]
    rfl
  refine congrArg Host.Outcome.next ((State.command_BPM_RECLAIM n n.isLt hw).trans ?_)
  simp only [State.regAct, State.writeBpm, Wr.bit, hgo, hplain, ← h1, hrecl, ne_eq, one_ne_zero, not_false_eq_true, decide_true, Bool.not_true,
    Bool.false_eq_true, if_false]
  rfl

theorem State.fld_wrote_handle : (s.wrote fn (R.BPM_RECLAIM n) (putFlds v [(F.BPM_RECLAIM.GO, 1)])).fld (R.BPM_RECLAIM n) F.BPM_RECLAIM.HANDLE =
    fldOf v F.BPM_RECLAIM.HANDLE :=
  (State.fld_wrote (findReg_BPM_RECLAIM n n.isLt) State.physAddr_RECLAIM (by decide) (by decide)).trans
    (fldOf_putFlds_one_ne v _ _ _ (by decide) (by decide))

theorem State.wrote_reclaim (v : Word) : ∃ x, s.wrote fn (R.BPM_RECLAIM n) v = s.setReg (R.BPM_RECLAIM n) x :=
  ⟨_, State.wrote_at (findReg_BPM_RECLAIM n n.isLt) State.physAddr_RECLAIM⟩

end

end

/-! ### What a reclaim is judged by stays as its command is written -/

section

variable {n : OwnerNo} (x : Word)

theorem State.setReclaim_atPit : AtPit s (s.setReg (R.BPM_RECLAIM n) x) := s.setReg_atPit x (by unfold R.BPM_RECLAIM; omega)

theorem State.inReset_setReclaim : (s.setReg (R.BPM_RECLAIM n) x).inReset n = s.inReset n := by
  have hctl : (s.setReg (R.BPM_RECLAIM n) x).reg (R.PIT_CTL n) = s.reg (R.PIT_CTL n) :=
    State.reg_setReg_ne _ _ _ _ (by unfold R.PIT_CTL R.BPM_RECLAIM; omega)
  unfold State.inReset
  rw [(State.setReclaim_atPit x).pitchExists, State.bit_of_reg hctl, State.bit_of_reg hctl, State.setReg_irq]

theorem State.rqOwner_setReclaim (code : Nat) : (s.setReg (R.BPM_RECLAIM n) x).rqOwner code = s.rqOwner code := by
  unfold State.rqOwner
  split
  · next h => rw [(State.setReclaim_atPit x).ownerOfPipe h]
  · rfl

theorem State.handleOk_setReclaim {h : Nat} (hh : h < 2 ^ 24) : (s.setReg (R.BPM_RECLAIM n) x).handleOk h = s.handleOk h := by
  have hcfg : (s.setReg (R.BPM_RECLAIM n) x).reg (R.BPM_POOL_CFG (poolOfH h)) = s.reg (R.BPM_POOL_CFG (poolOfH h)) :=
    State.reg_setReg_ne _ _ _ _ (by unfold R.BPM_POOL_CFG R.BPM_RECLAIM poolOfH; omega)
  unfold State.handleOk State.poolDefined State.poolCount
  rw [State.bit_of_reg hcfg, State.fld_of_reg hcfg]

end

/-- A reclaim as its command leaves it to be judged. -/
theorem State.reclaim_written {fn : FnNo} {n : OwnerNo} {v : Word} {s1 : State} {h : Nat}
    (h1 : s1 = s.wrote fn (R.BPM_RECLAIM n) (putFlds v [(F.BPM_RECLAIM.GO, 1)])) (hh : h = fldOf v F.BPM_RECLAIM.HANDLE) :
    s1.fld (R.BPM_RECLAIM n) F.BPM_RECLAIM.HANDLE = h ∧ s1.inReset n = s.inReset n ∧ s1.handleOk h = s.handleOk h ∧
      s1.rqOwner = s.rqOwner ∧ (∀ a, a ≠ R.BPM_RECLAIM n → s1.reg a = s.reg a) ∧ ∃ r, s1 = { s with regs := r } := by
  have hhandle : s1.fld (R.BPM_RECLAIM n) F.BPM_RECLAIM.HANDLE = h := by rw [h1, State.fld_wrote_handle, hh]
  have hh24 : h < 2 ^ 24 := hh ▸ Nat.mod_lt _ (by decide)
  obtain ⟨x, hx⟩ := State.wrote_reclaim (s := s) (fn := fn) (n := n) (putFlds v [(F.BPM_RECLAIM.GO, 1)])
  rw [hx] at h1
  subst h1
  exact ⟨hhandle, State.inReset_setReclaim x, State.handleOk_setReclaim x hh24, funext (State.rqOwner_setReclaim x),
    fun a ha => State.reg_setReg_ne _ _ _ _ ha, _, rfl⟩

/-! ### What a reclaim is answered (R285, Table 10.3) -/

section

variable {n h : Nat}

theorem State.reclaim_inReset (hn : n ≠ 0) (hr : s.inReset n = true) : s.reclaim n = s.reclaimEnd n 6 := by simp [State.reclaim, hn, hr]

/-- The check of buffer `h`, found as `b`, begins. -/
def State.reclaimChecks (s : State) (n h : Nat) (b : Buf) : State :=
  ((s.freeWord.2.setRecl n (some ⟨h, s.t16 + 1 + s.freeWord.1 % 32000, b, s.referenced h⟩)).setBit (R.BPM_RECLAIM n)
    F.BPM_RECLAIM.GO true).setFld (R.BPM_RECLAIM n) F.BPM_RECLAIM.RESULT 15

variable (hr : n = 0 ∨ s.inReset n = false) (hh : s.fld (R.BPM_RECLAIM n) F.BPM_RECLAIM.HANDLE = h)

include hr in
theorem State.reclaim_goesOn : ¬ (decide (n ≠ 0) && s.inReset n) = true := by rcases hr with h0 | h0 <;> simp [h0]

include hr hh

theorem State.reclaim_badHandle (hok : s.handleOk h = false) : s.reclaim n = s.reclaimEnd n 4 := by
  rw [State.reclaim, if_neg (State.reclaim_goesOn hr), hh, hok, Bool.not_false, if_pos rfl]

section

variable (hok : s.handleOk h = true)

include hok

theorem State.reclaim_free (hb : s.buf h = none) : s.reclaim n = s.reclaimEnd n 2 := by
  rw [State.reclaim, if_neg (State.reclaim_goesOn hr), hh, hok, Bool.not_true, if_neg Bool.false_ne_true, hb]

variable {b : Buf} (hb : s.buf h = some b)

include hb

theorem State.reclaim_foreign (hn : n ≠ 0) (hown : b.primary.map s.rqOwner ≠ some n) : s.reclaim n = s.reclaimEnd n 3 := by
  rw [State.reclaim, if_neg (State.reclaim_goesOn hr), hh, hok, Bool.not_true, if_neg Bool.false_ne_true, hb]
  exact if_pos ⟨hn, hown⟩

theorem State.reclaim_checks (hown : n = 0 ∨ b.primary.map s.rqOwner = some n) : s.reclaim n = s.reclaimChecks n h b := by
  rw [State.reclaim, if_neg (State.reclaim_goesOn hr), hh, hok, Bool.not_true, if_neg Bool.false_ne_true, hb]
  exact if_neg fun hf => hown.elim hf.1 hf.2

end

end

/-- What a check of buffer `h` that begins shows: the buffer as it was found, an end within 2 µs, RESULT 15 and GO, and nothing else. -/
theorem State.reclaimChecks_shows (s : State) (n h : Nat) (b : Buf) :
    (s.reclaimChecks n h b).recl n = some ⟨h, s.t16 + 1 + s.freeWord.1 % 32000, b, s.referenced h⟩ ∧
      (s.reclaimChecks n h b).fld (R.BPM_RECLAIM n) F.BPM_RECLAIM.RESULT = 15 ∧
      (s.reclaimChecks n h b).bit (R.BPM_RECLAIM n) F.BPM_RECLAIM.GO = true ∧ (∀ k, (s.reclaimChecks n h b).buf k = s.buf k) ∧
      ∀ a, a ≠ R.BPM_RECLAIM n → (s.reclaimChecks n h b).reg a = s.reg a := by
  obtain ⟨u, hu⟩ : ∃ u, u = s.freeWord.2.setRecl n (some ⟨h, s.t16 + 1 + s.freeWord.1 % 32000, b, s.referenced h⟩) := ⟨_, rfl⟩
  have hbpm : (s.reclaimChecks n h b).bpm = u.bpm := by rw [State.reclaimChecks, State.setFld_bpm, State.setBit_bpm, hu]
  rw [State.recl_of_bpm hbpm, hu, State.recl_setRecl, if_pos rfl]
  refine ⟨rfl, ?_, ?_, fun k => ?_, fun a ha => ?_⟩
  · rw [State.reclaimChecks, State.fld_setFld _ _ _ _ (by decide)]
    decide
  · rw [State.reclaimChecks, State.bit, State.fld_setFld_beside _ _ _ _ _ (by decide) (by decide)]
    exact State.bit_setBit _ _ _ _ (by decide) (by decide)
  · rw [State.buf_of_bufs (congrArg BpmSt.bufs hbpm), hu]
    rfl
  · rw [State.reclaimChecks, State.reg_setFld_ne _ _ _ _ _ ha, State.reg_setBit_ne _ _ _ _ _ ha]
    rfl

/-! ### A reclaim ends -/

section

variable {n : Nat}

theorem State.bpm_reclaimEnd (r : Nat) : (s.reclaimEnd n r).bpm = (s.setRecl n none).bpm := by
  rw [State.reclaimEnd, State.setFld_bpm, State.setBit_bpm]

theorem State.recl_reclaimEnd (r : Nat) : (s.reclaimEnd n r).recl n = none := by
  rw [State.recl_of_bpm (State.bpm_reclaimEnd r), State.recl_setRecl, if_pos rfl]

theorem State.buf_reclaimEnd (r k : Nat) : (s.reclaimEnd n r).buf k = s.buf k :=
  State.buf_of_bufs (congrArg BpmSt.bufs (State.bpm_reclaimEnd r)) k

theorem State.cnt_reclaimEnd (r c : Nat) : (s.reclaimEnd n r).cnt c = s.cnt c :=
  State.cnt_of_cnts (by rw [State.reclaimEnd, State.setFld_cnts, State.setBit_cnts, State.setRecl_cnts]) c

theorem State.result_reclaimEnd {r : Nat} (h : r < 16) : (s.reclaimEnd n r).fld (R.BPM_RECLAIM n) F.BPM_RECLAIM.RESULT = r := by
  rw [State.reclaimEnd, State.fld_setFld _ _ _ _ (by decide)]
  exact Nat.mod_eq_of_lt h

theorem State.go_reclaimEnd (r : Nat) : (s.reclaimEnd n r).bit (R.BPM_RECLAIM n) F.BPM_RECLAIM.GO = false := by
  rw [State.reclaimEnd, State.bit, State.fld_setFld_beside _ _ _ _ _ (by decide) (by decide)]
  exact State.bit_setBit _ _ _ _ (by decide) (by decide)

variable {x : Recl} (hx : s.recl n = some x) (hdue : x.due ≤ s.t16)

include hx hdue

theorem State.reclaimStep_used
    (h : x.used = true ∨ s.referenced x.handle = true ∨ (s.buf x.handle).map Buf.clean ≠ some x.seen.clean) :
    s.reclaimStep n = s.reclaimEnd n 1 := by
  have hused : (x.used || s.referenced x.handle || decide ((s.buf x.handle).map Buf.clean ≠ some x.seen.clean)) = true := by
    simpa only [Bool.or_eq_true, decide_eq_true_eq, or_assoc] using h
  rw [State.reclaimStep, hx]
  dsimp only
  rw [if_neg (by omega), hused, if_pos rfl]

theorem State.reclaimStep_frees (hused : x.used = false) (href : s.referenced x.handle = false)
    (hseen : (s.buf x.handle).map Buf.clean = some x.seen.clean) :
    s.reclaimStep n = ((s.reclaimFree x.handle).addCnt (C.BPM_RECLAIMED n) 1).reclaimEnd n 0 := by
  rw [State.reclaimStep, hx]
  dsimp only
  rw [if_neg (by omega), hused, href, decide_eq_false (not_not.mpr hseen), Bool.or_false, Bool.or_false, if_neg Bool.false_ne_true]

end

theorem State.buf_reclaimed (h n a r k : Nat) :
    (((s.reclaimFree h).addCnt a 1).reclaimEnd n r).buf k = if k = h then none else s.buf k := by
  rw [State.buf_reclaimEnd, State.buf_of_bufs (congrArg BpmSt.bufs (State.addCnt_bpm ..))]
  exact State.buf_setBuf ..

/-! ### The fence of a slice (R287) -/

theorem setNBit_lt {v i w : Nat} (hv : v < 2 ^ w) (hi : i < w) : setNBit v i < 2 ^ w := by
  rw [← Nat.div_eq_zero_iff_lt (Nat.two_pow_pos w), setNBit_div hi, Nat.div_eq_of_lt hv]

theorem nbit_eq_testBit (v i : Nat) : nbit v i = v.testBit i := by
  rw [Nat.testBit_eq_decide_div_mod_eq, nbit, beq_eq_decide]

theorem nbit_setNBit (v i j : Nat) : nbit (setNBit v i) j = (decide (i = j) || nbit v j) := by
  by_cases hv : nbit v i = true
  · rw [setNBit, if_pos hv]
    by_cases hij : i = j
    · rw [← hij, hv, Bool.or_true]
    · rw [decide_eq_false hij, Bool.false_or]
  · rcases lt_trichotomy i j with hlt | rfl | hgt
    · rw [nbit, setNBit_div hlt, decide_eq_false hlt.ne, Bool.false_or, nbit]
    · rw [setNBit, if_neg hv, nbit_eq_testBit, Nat.add_comm, Nat.testBit_two_pow_add_eq, ← nbit_eq_testBit, Bool.eq_false_iff.mpr hv,
        decide_eq_true rfl, Bool.not_false, Bool.true_or]
    · rw [setNBit, if_neg hv, nbit_eq_testBit, nbit_eq_testBit, Nat.add_comm, Nat.testBit_two_pow_add_gt hgt, decide_eq_false hgt.ne',
        Bool.false_or]

theorem State.fenceSlice_fenced {sl : Nat} (h : s.sliceFenced sl = true) : s.fenceSlice sl = s := if_pos h

theorem State.fenceSlice_alarms (s : State) (sl : Nat) : Alarms [R.BPM_STATUS, R.BPM_CAUSE] s (s.fenceSlice sl) := by
  unfold State.fenceSlice
  split
  · exact .refl ..
  · exact (Alarms.setReg _ s _ _ (.inl (by simp))).trans (State.ariseF_alarms _ _ _ (.inl (by simp)))

section

variable {sl : Nat} (h : s.sliceFenced sl = false)

include h

theorem State.fenceSlice_eq : s.fenceSlice sl =
    (s.setFld R.BPM_STATUS F.BPM_STATUS.FENCED (setNBit (s.fld R.BPM_STATUS F.BPM_STATUS.FENCED) sl)).ariseF R.BPM_CAUSE F.BPM_CAUSE.FENCE :=
  if_neg (by simp [h])

theorem State.fenceSlice_cause : ((s.fenceSlice sl).reg R.BPM_CAUSE).getLsbD F.BPM_CAUSE.FENCE.lo = true := by
  rw [State.fenceSlice_eq h]
  exact State.ariseF_set (by unfold irqBlock; decide) (by decide)

/-- A slice is fenced with those that were. -/
theorem State.sliceFenced_fenceSlice (hsl : sl < 16) (m : Nat) : (s.fenceSlice sl).sliceFenced m = (decide (sl = m) || s.sliceFenced m) := by
  have hfield : s.fld R.BPM_STATUS F.BPM_STATUS.FENCED < 2 ^ 16 := Nat.mod_lt _ (by decide)
  rw [State.fenceSlice_eq h, State.sliceFenced, State.ariseF_fld_ne (by decide) (by unfold irqBlock; decide), State.fld_setFld _ _ _ _ (by decide),
    show F.BPM_STATUS.FENCED.w = 16 from rfl, Nat.mod_eq_of_lt (setNBit_lt hfield hsl), nbit_setNBit, State.sliceFenced]

end

section

variable {fn : FnNo} {v : Word}

theorem exec_bpmFenceGo {s1 : State} (hw : s.writable fn R.BPM_FENCE_CTL = true)
    (h1 : s1 = s.wrote fn R.BPM_FENCE_CTL (putFlds v [(F.BPM_FENCE_CTL.GO, 1)])) :
    exec (.bpmFenceGo fn v) s = .next ((s1.fenceSlice (fldOf v F.BPM_FENCE_CTL.SLICE)).settle s) := by
  have hgo : fldOf (taken R.BPM_FENCE_CTL (putFlds v [(F.BPM_FENCE_CTL.GO, 1)])) F.BPM_FENCE_CTL.GO = 1 :=
    fldOf_taken_set findReg_BPM_FENCE_CTL _ _ _ (by decide) (by decide)
  have hslice : fldOf (taken R.BPM_FENCE_CTL (putFlds v [(F.BPM_FENCE_CTL.GO, 1)])) F.BPM_FENCE_CTL.SLICE = fldOf v F.BPM_FENCE_CTL.SLICE :=
    (fldOf_taken findReg_BPM_FENCE_CTL _ _ (by decide)).trans (fldOf_putFlds_one_ne v _ _ _ (by decide) (by decide))
  have hphys : s.physAddr fn R.BPM_FENCE_CTL = some R.BPM_FENCE_CTL :=
    State.physAddr_self region_BPM_FENCE_CTL (by show _ ≠ _ ∧ _ ≠ _; decide)
  have hplain := State.plainWrite_wrote (s := s) (fn := fn) (v := putFlds v [(F.BPM_FENCE_CTL.GO, 1)]) (w := ⟨host fn, R.BPM_FENCE_CTL,
    R.BPM_FENCE_CTL, .bpm, _, [], taken R.BPM_FENCE_CTL (putFlds v [(F.BPM_FENCE_CTL.GO, 1)]), none, none⟩)
    findReg_BPM_FENCE_CTL hphys rfl (by simp) (by dsimp only)
  refine congrArg Host.Outcome.next ((State.command_BPM_FENCE_CTL hw).trans ?_)
  simp only [State.regAct, State.writeBpm, Wr.bit, Wr.fld, hgo, hslice, hplain, ← h1, ne_eq, one_ne_zero, not_false_eq_true, decide_true,
    if_true]

end

/-- Settles O42: each command reaches its register and does what its own lemmas say; the write of BPM_RECLAIM leaves what the reclaim is
judged by. -/
theorem bufferCommands : Obligations.BufferCommands := by
  intro fn s
  refine ⟨fun n hw => ?_, fun n v s1 h hw h1 hh => ?_, fun n r hr => ?_, fun n x hx hdue => ⟨?_, fun hused href hseen => ?_⟩,
    fun v s1 hw h1 => exec_bpmFenceGo hw h1, fun sl hsl => ?_, fun sl hsl => congrArg Host.Outcome.next (State.fenceSlice_fenced hsl)⟩
  · exact ⟨_, exec_bpmAudPop hw, (State.audQ_setAudQ ..).trans (if_pos rfl), fun m hm => (State.audQ_setAudQ ..).trans (if_neg hm), _, rfl⟩
  · have hexec := exec_bpmReclaim hw h1
    refine ⟨fun hbusy => hexec.trans (by rw [hbusy, if_pos rfl]), fun hidle => ?_⟩
    rw [hidle, Option.isSome_none, if_neg Bool.false_ne_true] at hexec
    obtain ⟨hhandle, hreset, hok, howner, hregs, q, hrest⟩ := State.reclaim_written h1 hh
    have hbuf (k : Nat) : s1.buf k = s.buf k := by rw [hrest]; rfl
    have hanswer {t : State} (ht : s1.reclaim n = t) : exec (.bpmReclaim fn n v) s = .next (t.settle s) := ht ▸ hexec
    rw [← hreset, ← hok, ← howner]
    refine ⟨fun hn hr => hanswer (State.reclaim_inReset hn hr), fun hr => ⟨fun hbad => hanswer (State.reclaim_badHandle hr hhandle hbad),
      fun hgood => ⟨fun hb => hanswer (State.reclaim_free hr hhandle hgood ((hbuf h).trans hb)),
        fun b hb hn hother => hanswer (State.reclaim_foreign hr hhandle hgood ((hbuf h).trans hb) hn hother), fun b hb hmine => ?_⟩⟩⟩
    obtain ⟨hrecl, hresult, hgo, hbufs, hreg⟩ := s1.reclaimChecks_shows n h b
    have ht16 : s1.t16 = s.t16 := by rw [hrest]
    have href : s1.referenced h = s.referenced h := by rw [hrest]; rfl
    rw [ht16, href] at hrecl
    exact ⟨_, _, hanswer (State.reclaim_checks hr hhandle hgood ((hbuf h).trans hb) hmine), hrecl, by omega,
      by have := Nat.mod_lt s1.freeWord.1 (show 32000 > 0 by decide); omega, hresult, hgo,
      fun k => (hbufs k).trans (hbuf k), fun a ha => (hreg a ha).trans (hregs a ha)⟩
  · exact ⟨State.recl_reclaimEnd r, State.result_reclaimEnd hr, State.go_reclaimEnd r, State.buf_reclaimEnd r⟩
  · exact State.reclaimStep_used hx hdue
  · refine ⟨_, State.reclaimStep_frees hx hdue hused href hseen, ?_, fun k hk => ?_, State.result_reclaimEnd (by decide), ?_⟩
    · exact (State.buf_reclaimed ..).trans (if_pos rfl)
    · exact (State.buf_reclaimed ..).trans (if_neg hk)
    · rw [State.cnt_reclaimEnd, State.cnt_addCnt]
      rfl
  · have hset := State.sliceFenced_fenceSlice hsl sl.isLt
    exact ⟨_, rfl, by simp [hset], fun m _ hm => by simp [hset, hm.symm], State.fenceSlice_cause hsl, s.fenceSlice_alarms sl⟩

end Sys2Proof.Machine
end

section
/-! SUPPORT. The queues of the traffic manager (R292, R302, R310): what a frame that joins one, a frame that leaves one, the occupancy of a
class and the judging of XOFF leave as they were. -/

namespace Sys2Proof.Machine

variable {s : State} {n c : Nat} {k : Pkt}

/-! ### The ingress occupancy (R302, R306) -/

theorem State.ctlPush_ports (s : State) (n : Nat) (c : CtlKind) : ∃ ps, s.ctlPush n c = { s with tm := { s.tm with ports := ps } } := by
  unfold State.ctlPush
  split <;> exact ⟨_, rfl⟩

theorem State.fcEval_rest (s : State) (n : Nat) : ∃ r ps, s.fcEval n = { s with regs := r, tm := { s.tm with ports := ps } } := by
  have hpush (r : SMap Word) (q : PortTm) : ∃ ps, (State.setPtm { s with regs := r } n q).ctlPush n .fc =
      { s with regs := r, tm := { s.tm with ports := ps } } := by
    obtain ⟨ps, h⟩ := (State.setPtm { s with regs := r } n q).ctlPush_ports n .fc
    exact ⟨ps, h⟩
  unfold State.fcEval State.setReg
  extract_lets old new t1
  split
  · exact ⟨s.regs, s.tm.ports, rfl⟩
  · exact ⟨_, hpush _ _⟩

/-- The occupancy of a class grows, and XOFF of its port is judged. -/
theorem State.occAdd_rest (s : State) (n c k : Nat) : ∃ r ps, s.occAdd n c k =
    { s with regs := r, tm := { s.tm with ports := ps, occ := SMap.put (fun _ => 0) s.tm.occ (n * 16 + c) (s.inOcc n c + k) } } :=
  State.fcEval_rest ..

theorem State.inOcc_occAdd (s : State) (n c k : Nat) : (s.occAdd n c k).inOcc n c = s.inOcc n c + k := by
  obtain ⟨r, ps, h⟩ := s.occAdd_rest n c k
  rw [h]
  exact SMap.get_put_same ..

theorem State.pipe_occAdd (s : State) (n c k p : Nat) : (s.occAdd n c k).pipe p = s.pipe p := by
  obtain ⟨r, ps, h⟩ := s.occAdd_rest n c k
  rw [h]
  rfl

theorem State.tmq_occAdd (s : State) (n c k m d : Nat) : (s.occAdd n c k).tmq m d = s.tmq m d := by
  obtain ⟨r, ps, h⟩ := s.occAdd_rest n c k
  rw [h]
  rfl

theorem State.cnt_occAdd (s : State) (n c k a : Nat) : (s.occAdd n c k).cnt a = s.cnt a := by
  obtain ⟨r, ps, h⟩ := s.occAdd_rest n c k
  rw [h]
  rfl

theorem State.mc_occAdd (s : State) (n c k : Nat) : (s.occAdd n c k).tm.mc = s.tm.mc := by
  obtain ⟨r, ps, h⟩ := s.occAdd_rest n c k
  rw [h]

/-! ### A frame joins a queue -/

theorem State.ttArrive_marks (s : State) (n : Nat) (k : Pkt) :
    ∃ d r f, s.ttArrive n k = { k with dueNow := d, reason := r, freed := f } := by
  unfold State.ttArrive
  split
  · exact ⟨_, _, _, rfl⟩
  · split
    · exact ⟨_, _, _, rfl⟩
    · split <;> exact ⟨_, _, _, rfl⟩

theorem enqFrames_ne_bytes (n c : Nat) : C.TM_Q_ENQ_FRAMES n c ≠ C.TM_Q_ENQ_BYTES n c := by
  unfold C.TM_Q_ENQ_FRAMES C.TM_Q_ENQ_BYTES
  omega

theorem txFrames_ne_bytes (n c : Nat) : C.TM_Q_TX_FRAMES n c ≠ C.TM_Q_TX_BYTES n c := by
  unfold C.TM_Q_TX_FRAMES C.TM_Q_TX_BYTES
  omega

theorem State.stallEval_pkts (s : State) (n c m d : Nat) : ((s.stallEval n c).tmq m d).pkts = (s.tmq m d).pkts :=
  (State.stallEval_keepsFrames (.refl s)).2 m d

theorem State.cnt_stallEval (s : State) (n c a : Nat) : (s.stallEval n c).cnt a = s.cnt a := by
  obtain ⟨q, h⟩ := s.stallEval_queues n c
  rw [h]
  rfl

theorem State.pipe_stallEval (s : State) (n c p : Nat) : (s.stallEval n c).pipe p = s.pipe p := by
  obtain ⟨q, h⟩ := s.stallEval_queues n c
  rw [h]
  rfl

theorem State.stallEval_regs (s : State) (n c : Nat) : (s.stallEval n c).regs = s.regs := State.stallEval_keepsRegs rfl

theorem State.inOcc_stallEval (s : State) (n c m d : Nat) : (s.stallEval n c).inOcc m d = s.inOcc m d := by
  obtain ⟨q, h⟩ := s.stallEval_queues n c
  rw [h]
  rfl

theorem State.inOcc_setTmq (s : State) (n c : Nat) (q : QueueSt) (m d : Nat) : (s.setTmq n c q).inOcc m d = s.inOcc m d := rfl

theorem State.pipe_tmPush (s : State) (n c : Nat) (k : Pkt) (p : Nat) : (s.tmPush n c k).pipe p = s.pipe p := by
  rw [State.tmPush, State.pipe_stallEval, State.pipe, State.setTmq_pipes, State.addCnt_pipes, State.addCnt_pipes, State.pipe]

theorem State.inOcc_tmPush (s : State) (n c : Nat) (k : Pkt) (m d : Nat) : (s.tmPush n c k).inOcc m d = s.inOcc m d := by
  rw [State.tmPush, State.inOcc_stallEval, State.inOcc_setTmq, State.inOcc, State.addCnt_tm, State.addCnt_tm, State.inOcc]

theorem State.tmPush_pkts (s : State) (n c : Nat) (k : Pkt) :
    ((s.tmPush n c k).tmq n c).pkts = (s.tmq n c).pkts ++ [s.ttArrive n { k with outPort := n, cls := c }] := by
  rw [State.tmPush, State.stallEval_pkts, State.tmq_setTmq, if_pos rfl]
  rfl

/-- What joins the queue is the packet with its class and its port. -/
theorem State.tmPush_joins (s : State) (n c : Nat) (k : Pkt) : ∃ k', ((s.tmPush n c k).tmq n c).pkts = (s.tmq n c).pkts ++ [k'] ∧
    k'.handle = k.handle ∧ k'.len = k.len ∧ k'.cls = c ∧ k'.outPort = n ∧ k'.inCharged = k.inCharged ∧ k'.tmTick = k.tmTick := by
  obtain ⟨d, r, f, harrive⟩ := s.ttArrive_marks n { k with outPort := n, cls := c }
  refine ⟨_, s.tmPush_pkts n c k, ?_⟩
  rw [harrive]
  exact ⟨rfl, rfl, rfl, rfl, rfl, rfl⟩

theorem State.tmPush_frames (s : State) (n c : Nat) (k : Pkt) : (s.tmPush n c k).cnt (C.TM_Q_ENQ_FRAMES n c) =
    min (s.cnt (C.TM_Q_ENQ_FRAMES n c) + 1) (2 ^ 48 - 1) := by
  rw [State.tmPush, State.cnt_stallEval, State.cnt_of_cnts (State.setTmq_cnts ..), State.cnt_addCnt_ne _ _ _ _ (enqFrames_ne_bytes n c),
    State.cnt_addCnt]

/-! ### A frame leaves a queue (R292) -/

theorem State.shpTake_keepsFrames (s : State) (n c len : Nat) : KeepsFrames s (s.shpTake n c len) := by
  unfold State.shpTake
  extract_lets one q p t
  exact KeepsFrames.setPtm (KeepsFrames.setTmq (.refl s) rfl) rfl

theorem State.shpTake_leaves (s : State) (n c len : Nat) : (s.shpTake n c len).cnts = s.cnts ∧ (s.shpTake n c len).regs = s.regs ∧
    (s.shpTake n c len).pipes = s.pipes ∧ (s.shpTake n c len).tm.tick = s.tm.tick := by
  have htick (q : QueueSt) (p : PortTm) : ((s.setTmq n c q).setPtm n p).tm.tick = s.tm.tick := rfl
  unfold State.shpTake
  extract_lets one q p t
  exact ⟨by rw [State.setPtm_cnts, State.setTmq_cnts], by rw [State.setPtm_regs, State.setTmq_regs],
    by rw [State.setPtm_pipes, State.setTmq_pipes], htick _ _⟩

/-- The state in which the packet `k` has left queue (n, c) and spent its tokens. -/
def State.unqueued (s : State) (n c : Nat) (k : Pkt) : State := (s.setTmq n c ((s.tmq n c).take k)).shpTake n c k.len

/-- The state in which it has counted, too, and no stall of its queue goes on. -/
def State.departed (s : State) (n c : Nat) (k : Pkt) : State :=
  let t := ((s.unqueued n c k).addCnt (C.TM_Q_TX_FRAMES n c) 1).addCnt (C.TM_Q_TX_BYTES n c) k.len
  t.setTmq n c { t.tmq n c with stallAt := none }

theorem State.tmq_of_tm {t : State} (h : t.tm = s.tm) (n c : Nat) : t.tmq n c = s.tmq n c := by rw [State.tmq, h, State.tmq]

theorem State.departed_pkts (s : State) (n c : Nat) (k : Pkt) : ((s.departed n c k).tmq n c).pkts = (s.tmq n c).pkts.erase k := by
  have hshp := (State.shpTake_keepsFrames (s.setTmq n c ((s.tmq n c).take k)) n c k.len).2 n c
  rw [State.tmq_setTmq, if_pos rfl] at hshp
  rw [State.departed, State.tmq_setTmq, if_pos rfl]
  dsimp only
  rw [State.tmq_of_tm (State.addCnt_tm ..), State.tmq_of_tm (State.addCnt_tm ..), State.unqueued, hshp, QueueSt.take]

theorem State.departed_frames (s : State) (n c : Nat) (k : Pkt) :
    (s.departed n c k).cnt (C.TM_Q_TX_FRAMES n c) = min (s.cnt (C.TM_Q_TX_FRAMES n c) + 1) (2 ^ 48 - 1) := by
  have hcnts : (s.unqueued n c k).cnts = s.cnts := (State.shpTake_leaves ..).1.trans (State.setTmq_cnts ..)
  rw [State.departed, State.cnt_of_cnts (State.setTmq_cnts ..), State.cnt_addCnt_ne _ _ _ _ (txFrames_ne_bytes n c), State.cnt_addCnt,
    State.cnt_of_cnts hcnts]

theorem State.departed_leaves (s : State) (n c : Nat) (k : Pkt) : (s.departed n c k).regs = s.regs ∧ (s.departed n c k).pipes = s.pipes ∧
    (s.departed n c k).tm.tick = s.tm.tick := by
  have htick (t : State) (q : QueueSt) : (t.setTmq n c q).tm.tick = t.tm.tick := rfl
  obtain ⟨-, hregs, hpipes, hshp⟩ := (s.setTmq n c ((s.tmq n c).take k)).shpTake_leaves n c k.len
  rw [State.departed, State.setTmq_regs, State.setTmq_pipes, htick, State.addCnt_regs, State.addCnt_regs, State.addCnt_pipes, State.addCnt_pipes,
    State.addCnt_tm, State.addCnt_tm]
  exact ⟨hregs, hpipes, hshp⟩

theorem State.dispatch_departs (hf : s.bufFenced k.handle = false) : s.dispatch n c k =
    ((s.departed n c k).setPipe (pipeOfPort n) { s.pipe (pipeOfPort n) with
      egress := (s.pipe (pipeOfPort n)).egress ++ [{ k with tmTick := s.tm.tick + 25 }] }).stallEval n c := by
  have hf : ¬ (s.setTmq n c ((s.tmq n c).take k)).bufFenced k.handle = true := Bool.eq_false_iff.mp hf
  obtain ⟨-, hpipes, htick⟩ := s.departed_leaves n c k
  have hpipe : (s.departed n c k).pipe (pipeOfPort n) = s.pipe (pipeOfPort n) := by rw [State.pipe, hpipes, State.pipe]
  rw [← hpipe, ← htick]
  exact if_neg hf

/-- A selected packet whose slice is not fenced leaves its queue, counts, and waits for an egress berth. -/
theorem State.dispatch_sent (hf : s.bufFenced k.handle = false) :
    ((s.dispatch n c k).tmq n c).pkts = (s.tmq n c).pkts.erase k ∧
      ((s.dispatch n c k).pipe (pipeOfPort n)).egress = (s.pipe (pipeOfPort n)).egress ++ [{ k with tmTick := s.tm.tick + 25 }] ∧
      (s.dispatch n c k).cnt (C.TM_Q_TX_FRAMES n c) = min (s.cnt (C.TM_Q_TX_FRAMES n c) + 1) (2 ^ 48 - 1) ∧
      (s.dispatch n c k).regs = s.regs := by
  rw [State.dispatch_departs hf]
  refine ⟨?_, ?_, ?_, ?_⟩
  · rw [State.stallEval_pkts]
    exact s.departed_pkts n c k
  · rw [State.pipe_stallEval, State.pipe_setPipe, if_pos rfl]
  · rw [State.cnt_stallEval]
    exact s.departed_frames n c k
  · rw [State.stallEval_regs]
    exact (State.setPipe_regs ..).trans (s.departed_leaves n c k).1

end Sys2Proof.Machine
end

section
/-! SUPPORT. A port that goes away and comes back (R297, R310, R322; O29): LIVE, DOWN_DROP with the flush of the queues, and the discard mode of
the watchdog. -/

namespace Sys2Proof.Machine

variable {s : State} {n c : Nat}

/-! ### LIVE and DOWN_DROP -/

theorem not_irqBlock_tmPortStatus (n : Nat) : ¬ irqBlock (R.TM_PORT_STATUS n) := by unfold irqBlock R.TM_PORT_STATUS; omega

theorem State.liveSet_up (h : s.linkUp n = true) : s.liveSet n = s.setLive n true := if_pos h

theorem State.liveSet_down (h : s.linkUp n = false) : s.liveSet n = s := if_neg (by simp [h])

theorem State.live_setLive (s : State) (n : Nat) (b : Bool) : (s.setLive n b).live n = b := State.bit_setBit _ _ _ _ (by decide) (by decide)

theorem State.reg_setLive_ne {a : Nat} (s : State) (b : Bool) (h : a ≠ R.TM_PORT_STATUS n) : (s.setLive n b).reg a = s.reg a :=
  State.reg_setBit_ne _ _ _ _ _ h

theorem tmPortStatus_ne {m n : Nat} (h : m ≠ n) : R.TM_PORT_STATUS m ≠ R.TM_PORT_STATUS n := by unfold R.TM_PORT_STATUS; omega

theorem State.downDrop_setLive (s : State) (n : Nat) (b : Bool) : (s.setLive n b).downDrop n = s.downDrop n :=
  State.bit_setBit_beside _ _ _ _ _ (by decide) (by decide)

/-- The port does not drop while its link is up, it is not enabled, it drops already, or DOWN_FLUSH is 0 (R322). -/
theorem State.downFlush_idle (h : s.linkUp n = true ∨ s.portEnabled n = false ∨ s.downDrop n = true ∨
    s.fld (R.TM_PORT_CTL n) F.TM_PORT_CTL.DOWN_FLUSH = 0) : s.downFlush n = s := by
  refine if_pos ?_
  rcases h with h | h | h | h <;> simp [h]

theorem State.downFlush_drops (hdown : s.linkUp n = false) (hen : s.portEnabled n = true) (hnot : s.downDrop n = false)
    (htime : s.fld (R.TM_PORT_CTL n) F.TM_PORT_CTL.DOWN_FLUSH ≠ 0) :
    s.downFlush n = ((s.setBit (R.TM_PORT_STATUS n) F.TM_PORT_STATUS.DOWN_DROP true).ariseF (R.TM_PORT_CAUSE n)
      F.TM_PORT_CAUSE.DOWN_FLUSH).flushPort n 0xF6 :=
  if_neg (by simp [hdown, hen, hnot, htime])

/-! ### Discard mode (R310, R311) -/

theorem clrNBit_le (v i : Nat) : clrNBit v i ≤ v := by
  unfold clrNBit
  split
  · exact Nat.sub_le ..
  · exact le_rfl

theorem nbit_clrNBit (v i j : Nat) : nbit (clrNBit v i) j = if i = j then false else nbit v j := by
  by_cases hv : nbit v i = true
  · rw [clrNBit, if_pos hv]
    have hle : 2 ^ i ≤ v := Nat.ge_two_pow_of_testBit (nbit_eq_testBit v i ▸ hv)
    have hclear : nbit (v - 2 ^ i) i = false := by
      have hflip := Nat.testBit_two_pow_add_eq (v - 2 ^ i) i
      rw [Nat.add_sub_cancel' hle, ← nbit_eq_testBit, ← nbit_eq_testBit, hv] at hflip
      simpa using hflip.symm
    have hset : setNBit (v - 2 ^ i) i = v := by
      rw [setNBit, hclear, if_neg Bool.false_ne_true, Nat.sub_add_cancel hle]
    have hj := nbit_setNBit (v - 2 ^ i) i j
    rw [hset] at hj
    split
    · next hij => rw [← hij, hclear]
    · next hij => rw [hj, decide_eq_false hij, Bool.false_or]
  · rw [clrNBit, if_neg hv]
    split
    · next hij => rw [← hij, Bool.eq_false_iff.mpr hv]
    · rfl

theorem State.discarding_setDiscard (s : State) {c : Nat} (hc : c < 16) (b : Bool) (d : Nat) :
    (s.setDiscard n c b).discarding n d = if c = d then b else s.discarding n d := by
  have hold : s.fld (R.TM_PORT_STATUS n) F.TM_PORT_STATUS.DISCARD < 2 ^ 16 := State.fld_lt ..
  unfold State.discarding State.setDiscard
  rw [State.fld_setFld _ _ _ _ (by decide), show F.TM_PORT_STATUS.DISCARD.w = 16 from rfl]
  cases b
  · rw [if_neg Bool.false_ne_true, Nat.mod_eq_of_lt ((clrNBit_le _ c).trans_lt hold), nbit_clrNBit]
  · rw [if_pos rfl, Nat.mod_eq_of_lt (setNBit_lt hold hc), nbit_setNBit]
    by_cases h : c = d <;> simp [h]

theorem State.discarding_of_reg {t : State} (h : t.reg (R.TM_PORT_STATUS n) = s.reg (R.TM_PORT_STATUS n)) (c : Nat) :
    t.discarding n c = s.discarding n c := by unfold State.discarding; rw [State.fld_of_reg h]

theorem State.discarding_wdLeave (s : State) (n : Nat) {c : Nat} (hc : c < 16) : (s.wdLeave n c).discarding n c = false := by
  have hkeeps (t : State) : ((t.cause (R.TM_PORT_CAUSE n) F.TM_PORT_CAUSE.WD_EXIT).stallEval n c).reg (R.TM_PORT_STATUS n) =
      t.reg (R.TM_PORT_STATUS n) :=
    (State.reg_of_regs (State.stallEval_regs ..) _).trans
      (State.cause_reg_ne (by unfold R.TM_PORT_STATUS R.TM_PORT_CAUSE; omega) (not_irqBlock_tmPortStatus n))
  rw [State.wdLeave, State.discarding_of_reg (hkeeps _), State.discarding_of_reg (State.reg_of_regs (State.setTmq_regs ..) _),
    s.discarding_setDiscard hc, if_pos rfl]

/-! ### A look of the watchdog (R310) -/

/-- A queue in discard mode leaves it where it has been empty for the watchdog's time. -/
theorem State.wdLook_discarding (hd : s.discarding n c = true) : s.wdLook n c =
    if (s.tmq n c).emptyAt.any (fun x => decide (x + s.wdTime n ≤ s.clk16)) then s.wdLeave n c else s := if_pos hd

/-- Another queue enters it where it has stalled for the watchdog's time. -/
theorem State.wdLook_serving (hd : s.discarding n c = false) : s.wdLook n c =
    if s.wdTime n ≠ 0 && (s.tmq n c).stallAt.any (fun x => decide (x + s.wdTime n ≤ s.clk16)) then s.wdEnter n c else s :=
  if_neg (Bool.eq_false_iff.mp hd)

section

variable {x : Nat}

section

variable (hd : s.discarding n c = true)

include hd

theorem State.wdLook_leaves (hx : (s.tmq n c).emptyAt = some x) (hdue : x + s.wdTime n ≤ s.clk16) : s.wdLook n c = s.wdLeave n c := by
  rw [State.wdLook_discarding hd, hx, Option.any_some, decide_eq_true hdue, if_pos rfl]

theorem State.wdLook_early (hx : (s.tmq n c).emptyAt = some x) (hearly : s.clk16 < x + s.wdTime n) : s.wdLook n c = s := by
  rw [State.wdLook_discarding hd, hx, Option.any_some, decide_eq_false (Nat.not_le.mpr hearly), if_neg Bool.false_ne_true]

theorem State.wdLook_notEmpty (hx : (s.tmq n c).emptyAt = none) : s.wdLook n c = s := by
  rw [State.wdLook_discarding hd, hx, Option.any_none, if_neg Bool.false_ne_true]

end

variable (hd : s.discarding n c = false)

include hd

theorem State.wdLook_enters (ht : s.wdTime n ≠ 0) (hx : (s.tmq n c).stallAt = some x) (hdue : x + s.wdTime n ≤ s.clk16) :
    s.wdLook n c = s.wdEnter n c := by
  rw [State.wdLook_serving hd, hx, Option.any_some, decide_eq_true ht, decide_eq_true hdue, Bool.and_self, if_pos rfl]

theorem State.wdLook_stalling (hx : (s.tmq n c).stallAt = some x) (hearly : s.clk16 < x + s.wdTime n) : s.wdLook n c = s := by
  rw [State.wdLook_serving hd, hx, Option.any_some, decide_eq_false (Nat.not_le.mpr hearly), Bool.and_false, if_neg Bool.false_ne_true]

theorem State.wdLook_flowing (hx : (s.tmq n c).stallAt = none) : s.wdLook n c = s := by
  rw [State.wdLook_serving hd, hx, Option.any_none, Bool.and_false, if_neg Bool.false_ne_true]

end

/-- A traffic manager with one queue is looked at there. -/
theorem State.wdCheck_one {q : QueueSt} (hq : s.tm.q = [(n * 16 + c, q)]) (hc : c < 16) : s.wdCheck = s.wdLook n c ∧ s.tmq n c = q := by
  constructor
  · rw [State.wdCheck, hq, List.foldl_cons, List.foldl_nil, show (n * 16 + c) / 16 = n by omega, show (n * 16 + c) % 16 = c by omega]
  · rw [State.tmq, hq, SMap.get, if_pos rfl]

/-- Settles O29: LIVE, the flush and each look of the watchdog are judged by the equations above. -/
theorem portAway : Obligations.PortAway := by
  intro n s
  refine ⟨fun hup => ⟨congrArg Host.Outcome.next (State.liveSet_up hup), s.live_setLive n true,
      fun b hb _ => State.bit_of_reg (s.reg_setLive_ne true (tmPortStatus_ne hb)), s.downDrop_setLive n true,
      fun a ha => s.reg_setLive_ne true ha, _, rfl⟩,
    fun hdown => congrArg Host.Outcome.next (State.liveSet_down hdown),
    fun hdown hen hnot htime => ⟨_, _, rfl, State.bit_setBit _ _ _ _ (by decide) (by decide), rfl,
      congrArg Host.Outcome.next (State.downFlush_drops hdown hen hnot htime), fun c _ => State.flushQueue_empty ..⟩,
    fun hidle => congrArg Host.Outcome.next (State.downFlush_idle hidle), rfl,
    fun c hc => ⟨fun hd => ⟨fun x hx hdue => ⟨State.wdLook_leaves hd hx hdue, s.discarding_wdLeave n hc⟩,
        fun x hx hearly => State.wdLook_early hd hx hearly, fun hx => State.wdLook_notEmpty hd hx⟩,
      fun hd => ⟨fun x ht hx hdue => State.wdLook_enters hd ht hx hdue, fun x hx hearly => State.wdLook_stalling hd hx hearly,
        fun hx => State.wdLook_flowing hd hx⟩⟩, fun c q hq hc ht => ?_, fun c b hc => ⟨?_, fun d hd => ?_⟩⟩
  · obtain ⟨hcheck, hqueue⟩ := State.wdCheck_one hq hc
    have hexec : exec .watchdogCheck s = .next (s.wdLook n c) := congrArg Host.Outcome.next hcheck
    rw [hexec]
    exact ⟨fun x hd hx hdue => congrArg Host.Outcome.next (State.wdLook_enters hd ht (hqueue ▸ hx) hdue),
      fun x hd hx hdue => congrArg Host.Outcome.next (State.wdLook_leaves hd (hqueue ▸ hx) hdue),
      fun hd hx => congrArg Host.Outcome.next (State.wdLook_flowing hd (hqueue ▸ hx))⟩
  · rw [s.discarding_setDiscard hc, if_pos rfl]
  · rw [s.discarding_setDiscard hc, if_neg hd.symm]

end Sys2Proof.Machine
end

section
/-! SUPPORT. Enqueue and replication (R292, R293, R294, R295, R300; O22, O23): the drops in their order, the queue and the replicator's FIFO that
a packet joins, and the replicas of a tick. -/

namespace Sys2Proof.Machine

variable {s s0 s1 s2 s3 : State} {p n code : Nat} {k k1 k2 : Pkt} {rest : List Pkt} {d : Dest} {ns : List Nat}

/-! ### A packet leaves stage 15 (R293) -/

theorem exec_tmEnqueue_idle {p : PipeNo} (h : s.tmOn p = true → s.tmEnqueue p = s) : exec (.tmEnqueue p) s = .next s := by
  change Host.Outcome.next (if s.tmOn p then s.tmEnqueue p else s) = _
  split
  · rw [h ‹_›]
  · rfl

theorem exec_tmEnqueue_on {p : PipeNo} {t : State} (h : s.tmOn p = true) (ht : s.tmEnqueue p = t) : exec (.tmEnqueue p) s = .next t :=
  congrArg Host.Outcome.next ((if_pos h).trans ht)

theorem State.tmEnqueue_empty (h : s.waiting p 24 = []) : s.tmEnqueue p = s := by simp only [State.tmEnqueue, h]

section

variable (hw : s.waiting p 24 = k :: rest) (h0 : s0 = s.setWaiting p 24 rest)

include hw h0

theorem State.tmEnqueue_drops (hd : k.drop = true) : s.tmEnqueue p = s0.dropWhole k k.dropCode := by
  subst h0
  simp only [State.tmEnqueue, hw, hd, if_true]

variable (hd : k.drop = false)

include hd

theorem State.tmEnqueue_reserved (hk : k.f 7 28 2 = 3) : s.tmEnqueue p = s0.dropWhole k 0xFF := by
  subst h0
  simp only [State.tmEnqueue, hw, hd, hk, Bool.false_eq_true, if_false, if_true]

variable (hk : k.f 7 28 2 ≠ 3)

include hk

theorem State.tmEnqueue_fenced (hf : s0.bufFenced k.handle = true) : s.tmEnqueue p = (s0.sliceLoss k.rq k.handle).dropWhole k 0xF4 := by
  subst h0
  simp only [State.tmEnqueue, hw, hd, hk, hf, Bool.false_eq_true, if_false, if_true]

variable (hf : s0.bufFenced k.handle = false)

include hf

theorem State.tmEnqueue_unresolved (hr : s0.resolve p k = (.no code, s1)) : s.tmEnqueue p = s1.dropWhole k code := by
  subst h0
  simp only [State.tmEnqueue, hw, hd, hk, hf, hr, Bool.false_eq_true, if_false]

variable (hr : s0.resolve p k = (d, s1)) (hgoes : ∀ code, d ≠ .no code)

include hr hgoes

theorem State.tmEnqueue_policed (hp : s1.police p k = (.error code, s2)) : s.tmEnqueue p = s2.dropWhole k code := by
  subst h0
  cases d with
  | no c => exact absurd rfl (hgoes c)
  | one n | many ns => simp only [State.tmEnqueue, hw, hd, hk, hf, hr, hp, Bool.false_eq_true, if_false]

theorem State.tmEnqueue_admits (hp : s1.police p k = (.ok k1, s2)) : s.tmEnqueue p = s2.tmAdmit p k1 d := by
  subst h0
  cases d with
  | no c => exact absurd rfl (hgoes c)
  | one n | many ns => simp only [State.tmEnqueue, hw, hd, hk, hf, hr, hp, Bool.false_eq_true, if_false]

end

/-! ### The hold moves to the replicator (R300) -/

theorem State.bpmMove_moved {rq h : Nat} (hmove : s.bpmMove rq h = (true, s3)) : ∃ b, s3 = s.setBuf h b := by
  unfold State.bpmMove at hmove
  dsimp only at hmove
  split at hmove
  · exact absurd (congrArg Prod.fst hmove) Bool.false_ne_true
  · split_ifs at hmove
    · exact absurd (congrArg Prod.fst hmove) Bool.false_ne_true
    · exact absurd (congrArg Prod.fst hmove) Bool.false_ne_true
    · exact ⟨_, (congrArg Prod.snd hmove).symm⟩

theorem State.ownerOfPipe_bpmMove {rq h : Nat} (hmove : s.bpmMove rq h = (true, s3)) (p : Nat) : s3.ownerOfPipe p = s.ownerOfPipe p := by
  obtain ⟨b, rfl⟩ := State.bpmMove_moved hmove
  rfl

/-! ### The limits (R293, R302 to R304) -/

/-- The ingress limit drops a packet, a lossless one with HEADROOM. -/
theorem State.tmAdmit_full {c : Nat} (hc : c = k.f 7 24 4)
    (hfull : s.fld (R.TM_IN_DROP k.port c) F.TM_IN_DROP.UNITS * 256 < s.inOcc k.port c + k.len) : s.tmAdmit p k d =
      (if s.isLossless k.port c then s.cause (R.TM_PORT_CAUSE k.port) F.TM_PORT_CAUSE.HEADROOM else s).dropWhole k 0xFA := by
  subst hc
  exact if_pos hfull

section

variable {c : Nat} (hc : c = k.f 7 24 4)
  (h2 : k2 = { k with cls := c, lossless := s.isLossless k.port c, floor := s.ttMark (s.ownerOfPipe p) c })
  (hroom : s.inOcc k.port c + k.len ≤ s.fld (R.TM_IN_DROP k.port c) F.TM_IN_DROP.UNITS * 256)

include hc h2 hroom

theorem State.tmAdmit_queued (hpass : s.step6 n c k.len (s.isLossless k.port c) = none) : s.tmAdmit p k (.one n) =
    (s.occAdd k.port c k.len).tmPush n c { k2 with inCharged := true, tmTick := k2.tmTick + 3 } := by
  subst hc h2
  simp only [State.tmAdmit, if_neg (Nat.not_lt.mpr hroom), hpass]

theorem State.tmAdmit_limited (hlimit : s.step6 n c k.len (s.isLossless k.port c) = some code) :
    s.tmAdmit p k (.one n) = (s.qDropCount n c k.len code).dropWhole k2 code := by
  subst hc h2
  simp only [State.tmAdmit, if_neg (Nat.not_lt.mpr hroom), hlimit]

variable {rq : Nat} (hrq : rq = rqCode (s.ownerOfPipe p) 6)

include hrq

theorem State.tmAdmit_unheld (hmove : s.bpmMove rq k.handle = (false, s3)) : s.tmAdmit p k (.many ns) = s3.dropWhole k2 0xF7 := by
  subst hc h2 hrq
  simp only [State.tmAdmit, if_neg (Nat.not_lt.mpr hroom), hmove]

variable (hmove : s.bpmMove rq k.handle = (true, s3)) {k3 : Pkt} (h3 : k3 = { k2 with rq := rq, tmTick := k2.tmTick + 2 })

include hmove h3

theorem State.tmAdmit_crowded (hlen : 512 ≤ (s3.pipe p).repl.length) : s.tmAdmit p k (.many ns) = s3.dropWhole k3 0xF0 := by
  have hown := State.ownerOfPipe_bpmMove hmove p
  subst hc h2 hrq h3
  simp only [State.tmAdmit, if_neg (Nat.not_lt.mpr hroom), hmove, hown, if_pos hlen]

/-- The state in which packet `k` is in the replicator's FIFO, with the ports `ns` of its replicas, and its occupancy is not yet counted. -/
def State.replicating (s : State) (p : Nat) (k : Pkt) (ns : List Nat) : State :=
  let r : McRec := { left := ns.length, port := k.port, cls := k.cls, len := k.len, rq := k.rq, charged := true }
  State.setPipe { s with tm := { s.tm with mc := SMap.put (fun _ => none) s.tm.mc k.handle (some r) } } p
    { s.pipe p with repl := (s.pipe p).repl ++ [({ k with kind := .replica }, ns)] }

omit hc h2 hroom hrq hmove h3 in
theorem State.replicating_mc (s : State) (p : Nat) (k : Pkt) (ns : List Nat) : SMap.get (fun _ => none) (s.replicating p k ns).tm.mc k.handle =
    some { left := ns.length, port := k.port, cls := k.cls, len := k.len, rq := k.rq, charged := true } := by
  change SMap.get _ (SMap.put (fun _ => none) s.tm.mc k.handle (some _)) k.handle = _
  exact SMap.get_put_same (fun _ => none) ..

/-- A multicast packet joins the replicator's FIFO with the ports of its replicas, and its record is kept until they are gone. -/
theorem State.tmAdmit_replicates (hlen : (s3.pipe p).repl.length < 512) : ∃ t, s.tmAdmit p k (.many ns) = t ∧
    (t.pipe p).repl = (s3.pipe p).repl ++ [({ k3 with kind := .replica }, ns)] ∧ t.inOcc k.port c = s3.inOcc k.port c + k.len ∧
    t.bpm = s3.bpm ∧ SMap.get (fun _ => none) t.tm.mc k.handle =
      some { left := ns.length, port := k.port, cls := c, len := k.len, rq := rq, charged := true } := by
  have hown := State.ownerOfPipe_bpmMove hmove p
  have hadmit : s.tmAdmit p k (.many ns) = (s3.replicating p k3 ns).occAdd k.port c k.len := by
    subst hc h2 hrq h3
    simp only [State.tmAdmit, State.replicating, if_neg (Nat.not_lt.mpr hroom), hmove, hown, if_neg (Nat.not_le.mpr hlen)]
  have hshown : k3.handle = k.handle ∧ k3.port = k.port ∧ k3.cls = c ∧ k3.len = k.len ∧ k3.rq = rq := by
    subst h3 h2
    exact ⟨rfl, rfl, rfl, rfl, rfl⟩
  obtain ⟨hhandle, hport, hcls, hlen', hrq'⟩ := hshown
  refine ⟨_, hadmit, ?_, State.inOcc_occAdd .., ?_, ?_⟩
  · rw [State.pipe_occAdd]
    exact congrArg PipeSt.repl (State.pipe_setPipe_same ..)
  · obtain ⟨r, ps, hocc⟩ := (s3.replicating p k3 ns).occAdd_rest k.port c k.len
    rw [hocc]
    rfl
  · rw [State.mc_occAdd, ← hhandle, State.replicating_mc, hport, hcls, hlen', hrq']

end

/-! ### A unicast packet (R293) -/

/-- An enabled port of the pipeline's Pitch is where a unicast packet goes. -/
theorem State.resolve_unicast (hk : k.f 7 28 2 = 0) (hown : s.ownerOfPort (k.f 7 0 16 % 1024) = s.ownerOfPipe p)
    (hen : s.portEnabled (k.f 7 0 16 % 1024) = true) : s.resolve p k = (.one (k.f 7 0 16 % 1024), s) := by
  simp [State.resolve, State.portCode, hk, hown, hen]

theorem State.police_unpoliced (h : nbit (k.r 9) 31 = false) : s.police p k = (.ok k, s) := by simp [State.police, h]

/-- A unicast packet to an enabled port of the Pitch, unpoliced and within the limits, joins its queue with its occupancy counted. -/
theorem State.tmEnqueue_unicast {c : Nat} (hw : s.waiting p 24 = k :: rest) (hd : k.drop = false) (hk : k.f 7 28 2 = 0)
    (hn : n = k.f 7 0 16 % 1024) (hc : c = k.f 7 24 4) (hpol : nbit (k.r 9) 31 = false) (hf : s.bufFenced k.handle = false)
    (hown : s.ownerOfPort n = s.ownerOfPipe p) (hen : s.portEnabled n = true)
    (hroom : s.inOcc k.port c + k.len ≤ s.fld (R.TM_IN_DROP k.port c) F.TM_IN_DROP.UNITS * 256)
    (hpass : s.step6 n c k.len (s.isLossless k.port c) = none) : ∃ k2 : Pkt, k2.handle = k.handle ∧ k2.len = k.len ∧ k2.tmTick = k.tmTick ∧
      s.tmEnqueue p = ((s.setWaiting p 24 rest).occAdd k.port c k.len).tmPush n c { k2 with inCharged := true, tmTick := k2.tmTick + 3 } := by
  have hr : (s.setWaiting p 24 rest).resolve p k = (.one n, s.setWaiting p 24 rest) := by
    subst hn
    exact State.resolve_unicast hk hown hen
  have hadmits := State.tmEnqueue_admits hw rfl hd (by rw [hk]; decide) hf hr nofun (State.police_unpoliced hpol)
  refine ⟨_, ?_, ?_, ?_, hadmits.trans (State.tmAdmit_queued hc rfl hroom hpass)⟩ <;> rfl

/-! ### The replicator (R295, R300) -/

theorem exec_replicaMake_idle {p : PipeNo} (h : s.tmOn p = true → s.replicaMake p = s) : exec (.replicaMake p) s = .next s := by
  change Host.Outcome.next (if s.tmOn p then s.replicaMake p else s) = _
  split
  · rw [h ‹_›]
  · rfl

theorem State.replicaMake_empty (h : (s.pipe p).repl = []) : s.replicaMake p = s := by simp only [State.replicaMake, h]

section

variable {fifo : List (Pkt × List Nat)} (h : (s.pipe p).repl = (k, ns) :: fifo)

include h

theorem State.replicaMake_early (hearly : s.tm.tick < k.tmTick ∨ s.tm.tick < (s.pipe p).replAt) : s.replicaMake p = s := by
  simp only [State.replicaMake, h, if_pos hearly]

/-- The replica of packet `k` for port `n`: dropped where the port is not enabled or a limit of its queue is met, else in the queue. -/
def State.replica (k : Pkt) (s : State) (n : Nat) : State :=
  if s.portEnabled n = false then s.dropQueued n k.cls k 0xF2
  else match s.step6 n k.cls k.len k.lossless with
    | some code => s.dropQueued n k.cls k code
    | none => s.tmPush n k.cls k

theorem State.replicaMake_makes (hk : k.tmTick ≤ s.tm.tick) (hat : (s.pipe p).replAt ≤ s.tm.tick) : s.replicaMake p =
    (ns.take 16).foldl (State.replica { k with tmTick := s.tm.tick + 1 }) (s.setPipe p { s.pipe p with
      repl := if ns.length ≤ 16 then fifo else (k, ns.drop 16) :: fifo, replAt := s.tm.tick + 1 }) := by
  have hnow : ¬ (s.tm.tick < k.tmTick ∨ s.tm.tick < (s.pipe p).replAt) := by omega
  simp only [State.replicaMake, h, if_neg hnow, List.isEmpty_iff, List.drop_eq_nil_iff, Bool.not_eq_true']
  rfl

end

/-- Settles O23: the packet at the head of the FIFO makes its replicas, each judged as it is made. -/
theorem replicator : Obligations.Replicator := by
  intro p s
  refine ⟨fun hoff => exec_replicaMake_idle fun hon => absurd hon (by simp [hoff]),
    fun h => exec_replicaMake_idle fun _ => State.replicaMake_empty h,
    fun k ns fifo h hearly => exec_replicaMake_idle fun _ => State.replicaMake_early h hearly, fun k ns fifo k0 s0 hon h hk hat hk0 hs0 => ?_⟩
  subst hk0 hs0
  exact congrArg Host.Outcome.next ((if_pos hon).trans (State.replicaMake_makes h hk hat))

/-- Settles O22: a packet is judged by the equations above in the order of R293. -/
theorem enqueue : Obligations.Enqueue := by
  intro p s
  refine ⟨fun hoff => exec_tmEnqueue_idle fun hon => absurd hon (by simp [hoff]), fun h => exec_tmEnqueue_idle fun _ => State.tmEnqueue_empty h,
    fun k rest s0 hon hw h0 => ⟨fun hd => exec_tmEnqueue_on hon (State.tmEnqueue_drops hw h0 hd),
      fun hd hk => exec_tmEnqueue_on hon (State.tmEnqueue_reserved hw h0 hd hk),
      fun hd hk hf => exec_tmEnqueue_on hon (State.tmEnqueue_fenced hw h0 hd hk hf),
      fun hd hk hf => ⟨fun code s1 hr => exec_tmEnqueue_on hon (State.tmEnqueue_unresolved hw h0 hd hk hf hr), ?_⟩⟩,
    fun fuel => rfl, ?_, fun t n c k => ?_⟩
  · have hone (n code : Nat) : Dest.one n ≠ .no code := nofun
    have hmany (ns : List Nat) (code : Nat) : Dest.many ns ≠ .no code := nofun
    refine ⟨fun n s1 code s2 hr hp => exec_tmEnqueue_on hon (State.tmEnqueue_policed hw h0 hd hk hf hr (hone n) hp),
      fun n s1 k1 s2 c k2 hr hp hc h2 hroom => ?_, fun d s1 k1 s2 c hr hgoes hp hc hfull => ?_,
      fun ns s1 code s2 hr hp => exec_tmEnqueue_on hon (State.tmEnqueue_policed hw h0 hd hk hf hr (hmany ns) hp),
      fun ns s1 k1 s2 c k2 rq hr hp hc h2 hroom hrq => ?_⟩
    · have hadmits := State.tmEnqueue_admits hw h0 hd hk hf hr (hone n) hp
      exact ⟨fun hpass => exec_tmEnqueue_on hon (hadmits.trans (State.tmAdmit_queued hc h2 hroom hpass)),
        fun code hlimit => exec_tmEnqueue_on hon (hadmits.trans (State.tmAdmit_limited hc h2 hroom hlimit))⟩
    · exact exec_tmEnqueue_on hon ((State.tmEnqueue_admits hw h0 hd hk hf hr hgoes hp).trans (State.tmAdmit_full hc hfull))
    · have hadmits := State.tmEnqueue_admits hw h0 hd hk hf hr (hmany ns) hp
      refine ⟨fun s3 hmove => exec_tmEnqueue_on hon (hadmits.trans (State.tmAdmit_unheld hc h2 hroom hrq hmove)),
        fun s3 k3 hmove h3 => ⟨fun hlen => exec_tmEnqueue_on hon (hadmits.trans (State.tmAdmit_crowded hc h2 hroom hrq hmove h3 hlen)),
          fun hlen => ?_⟩⟩
      obtain ⟨t, ht, hshows⟩ := State.tmAdmit_replicates (ns := ns) hc h2 hroom hrq hmove h3 hlen
      exact ⟨t, exec_tmEnqueue_on hon (hadmits.trans ht), hshows⟩
  · intro k rest n c hon hw hd hk hn hc hpol hf hown hen hroom hpass
    obtain ⟨k2, hhandle, hlen, htick, ht⟩ := State.tmEnqueue_unicast hw hd hk hn hc hpol hf hown hen hroom hpass
    obtain ⟨k', hpkts, hhandle', hlen', hcls, hport, hcharged, htick'⟩ :=
      ((s.setWaiting p 24 rest).occAdd k.port c k.len).tmPush_joins n c { k2 with inCharged := true, tmTick := k2.tmTick + 3 }
    refine ⟨_, k', exec_tmEnqueue_on hon ht, ?_, hhandle'.trans hhandle, hlen'.trans hlen, hcls, hport, hcharged,
      htick'.trans (congrArg (· + 3) htick), ?_, ?_, ?_⟩
    · rw [hpkts, State.tmq_occAdd]
      rfl
    · rw [State.inOcc_tmPush, State.inOcc_occAdd]
      rfl
    · rw [State.waiting, State.pipe_tmPush, State.pipe_occAdd]
      exact State.waiting_setWaiting ..
    · rw [State.tmPush_frames, State.cnt_occAdd]
      rfl
  · obtain ⟨k', hpkts, hhandle, hlen, hcls, hport, -⟩ := t.tmPush_joins n c k
    exact ⟨k', t.tmPush_frames n c k, hpkts, hhandle, hlen, hcls, hport⟩

end Sys2Proof.Machine
end

section
/-! SUPPORT. The port scheduler (R312, R313, R314, R390; O24): Timetable frames that are due, the highest strict class, and the DWRR queues. -/

namespace Sys2Proof.Machine

variable {s : State} {n : Nat} {k : Pkt}

/-! ### Whether the port is scheduled (R312) -/

theorem exec_schedulerSelect_idle {n : PortNo} (h : s.tmOn (pipeOfPort n) = true → s.schedulerSelect n = s) :
    exec (.schedulerSelect n) s = .next s := by
  change Host.Outcome.next (if s.tmOn (pipeOfPort n) then s.schedulerSelect n else s) = _
  split
  · rw [h ‹_›]
  · rfl

theorem exec_schedulerSelect_on {n : PortNo} {t : State} (h : s.tmOn (pipeOfPort n) = true) (ht : s.schedulerSelect n = t) :
    exec (.schedulerSelect n) s = .next t := congrArg Host.Outcome.next ((if_pos h).trans ht)

theorem State.schedulerSelect_stopped (h : s.linkUp n = false ∨ s.portOk n = false) : s.schedulerSelect n = s := by
  refine if_pos ?_
  rcases h with h | h <;> simp [h]

/-! ### Timetable frames that are due (R390, R391) -/

/-- The Timetable packets of port n that are due and that nothing holds, with their due times. -/
def State.ttGoing (s : State) (n : Nat) : List (Pkt × Int) :=
  (s.ttHeld n).filter fun e => e.1.dueNow && !s.held n e.1.cls && s.peakOk n e.1.cls && decide (e.1.tmTick ≤ s.tm.tick)

/-! ### Ordinary frames (R313, R314) -/

/-- The queues of port n that may send their ordinary heads, in ascending class order. -/
def State.eligibles (s : State) (n : Nat) : List (Nat × Pkt) :=
  (List.range 16).filterMap fun c => (s.eligible n c).map fun k => (c, k)

/-- Those of them whose committed bucket lets a frame go. -/
def State.committedOf (s : State) (n : Nat) (elig : List (Nat × Pkt)) : List (Nat × Pkt) :=
  elig.filter fun e => decide ((s.qShp n e.1).cir ≠ 0) && bucketOk (s.tmq n e.1).cb (s.qShp n e.1).cir (s.qShp n e.1).cbs s.clk16

/-- The queues among which the scheduler selects: the committed ones, or else all. -/
def State.contenders (s : State) (n : Nat) : List (Nat × Pkt) :=
  if (s.committedOf n (s.eligibles n)).isEmpty then s.eligibles n else s.committedOf n (s.eligibles n)

/-- The strict ones among them. -/
def State.strictOnes (s : State) (n : Nat) : List (Nat × Pkt) := (s.contenders n).filter fun e => !s.isDwrr n e.1

section

variable (hup : s.linkUp n = true) (hok : s.portOk n = true)

include hup hok

theorem State.schedulerSelect_runs : ¬ (!s.linkUp n || !s.portOk n) = true := by simp [hup, hok]

section

variable {d : Int} (hfirst : ttFirst (s.fld (R.PORT_TT_TIE n) F.PORT_TT_TIE.PTR) (s.ttGoing n) = some (k, d))

include hfirst

theorem State.schedulerSelect_due (hone : ∀ e ∈ s.ttGoing n, e.2 = d → e.1 = k) : s.schedulerSelect n = s.dispatch n k.cls k := by
  have hno : (s.ttGoing n).any (fun e => decide (e.2 = d ∧ e.1 ≠ k)) = false := by
    simpa [List.any_eq_false] using fun a b hm hd => hone (a, b) hm hd
  unfold State.ttGoing at hfirst hno
  simp only [State.schedulerSelect, if_neg (State.schedulerSelect_runs hup hok), hfirst, hno, Bool.false_eq_true, if_false]

theorem State.schedulerSelect_tie (hmore : ∃ e ∈ s.ttGoing n, e.2 = d ∧ e.1 ≠ k) : s.schedulerSelect n =
    (s.setFld (R.PORT_TT_TIE n) F.PORT_TT_TIE.PTR ((k.port + 1) % 1024)).dispatch n k.cls k := by
  have htie : (s.ttGoing n).any (fun e => decide (e.2 = d ∧ e.1 ≠ k)) = true := by
    obtain ⟨e, hm, he⟩ := hmore
    exact List.any_eq_true.mpr ⟨e, hm, decide_eq_true he⟩
  unfold State.ttGoing at hfirst htie
  simp only [State.schedulerSelect, if_neg (State.schedulerSelect_runs hup hok), hfirst, htie, if_true]

end

variable {t : State} (hnone : s.ttGoing n = []) (ht : t = s.dwrrClear n)

include hnone ht

theorem State.schedulerSelect_strict {c : Nat} (hlast : (t.strictOnes n).getLast? = some (c, k)) : s.schedulerSelect n = t.dispatch n c k := by
  rw [ht] at hlast ⊢
  unfold State.ttGoing at hnone
  unfold State.strictOnes State.contenders State.committedOf State.eligibles at hlast
  unfold State.schedulerSelect
  simp only [if_neg (State.schedulerSelect_runs hup hok), hnone, ttFirst, hlast]

section

variable (hstrict : t.strictOnes n = [])

include hstrict

/-- Without a strict contender the deficits choose, or nothing goes. -/
theorem State.schedulerSelect_dwrr {u : State} {r : Option (Nat × Pkt)}
    (hdwrr : t.dwrr n (t.contenders n) 3000 (t.ptm n).cur (t.ptm n).visited = (u, r)) :
    s.schedulerSelect n = r.elim u fun e => u.dispatch n e.1 e.2 := by
  rw [ht] at hstrict hdwrr
  unfold State.ttGoing at hnone
  unfold State.strictOnes at hstrict
  unfold State.contenders State.committedOf State.eligibles at hstrict hdwrr
  unfold State.schedulerSelect
  simp only [if_neg (State.schedulerSelect_runs hup hok), hnone, ttFirst, hstrict, List.getLast?_nil, hdwrr]
  cases r <;> rfl

end

theorem State.schedulerSelect_nothing (hempty : t.contenders n = []) : s.schedulerSelect n = t := by
  have hdwrr (fuel cur : Nat) (visited : Bool) : t.dwrr n [] (fuel + 1) cur visited = (t, none) := by cases visited <;> rfl
  refine State.schedulerSelect_dwrr (r := none) hup hok hnone ht ?_ (hempty ▸ hdwrr 2999 _ _)
  rw [State.strictOnes, hempty, List.filter_nil]

end

theorem State.contenders_eq (s : State) (n : Nat) {elig com : List (Nat × Pkt)} (he : elig = s.eligibles n) (hc : com = s.committedOf n elig) :
    s.contenders n = if com = [] then elig else com := by
  subst hc he
  simp only [State.contenders, List.isEmpty_iff]

/-! ### The one frame of an unheld strict queue -/

theorem State.dwrrClear_leaves (s : State) (n : Nat) : (∃ q, s.dwrrClear n = { s with tm := { s.tm with q := q } }) ∧
    ∀ m d, ∃ x, (s.dwrrClear n).tmq m d = { s.tmq m d with deficit := x } := by
  unfold State.dwrrClear
  refine List.foldlRecOn (motive := fun t : State => (∃ q, t = { s with tm := { s.tm with q := q } }) ∧
    ∀ m d, ∃ x, t.tmq m d = { s.tmq m d with deficit := x }) _ _ ⟨⟨s.tm.q, rfl⟩, fun m d => ⟨_, rfl⟩⟩ ?_
  rintro _ ⟨⟨q, rfl⟩, htmq⟩ c -
  dsimp only
  split
  · refine ⟨⟨_, rfl⟩, fun m d => ?_⟩
    rw [State.tmq_setTmq]
    split
    · next hmd =>
      obtain ⟨x, hx⟩ := htmq n c
      have hsame : s.tmq m d = s.tmq n c := by rw [State.tmq, State.tmq, hmd]
      exact ⟨0, by rw [hx, hsame]⟩
    · exact htmq m d
  · exact ⟨⟨_, rfl⟩, htmq⟩

theorem State.ttHeld_nil (h : ∀ c, c < 16 → ∀ x ∈ (s.tmq n c).pkts, x.floor = none) : s.ttHeld n = [] := by
  refine List.flatMap_eq_nil_iff.mpr fun c hc => List.filterMap_eq_nil_iff.mpr fun x hx => ?_
  rw [h c (List.mem_range.mp hc) x hx, Option.map_none]

section

variable {c : Nat}

theorem State.eligible_empty (h : (s.tmq n c).pkts = []) : s.eligible n c = none := by
  simp only [State.eligible, QueueSt.head, h, List.head?_nil, Option.filter_none]

/-- The ordinary head of an unheld queue may go where no Timetable packet waits. -/
theorem State.eligible_head {rest : List Pkt} (hpkts : (s.tmq n c).pkts = k :: rest) (hfloor : k.floor = none) (hheld : s.held n c = false)
    (hpeak : s.peakOk n c = true) (htick : k.tmTick ≤ s.tm.tick) (hnext : s.ttHeld n = []) : s.eligible n c = some k := by
  have hhead : (s.tmq n c).head = some k := by simp [QueueSt.head, hpkts, hfloor]
  have hnone : s.ttNext n = none := by rw [State.ttNext, hnext, List.map_nil]
  simp [State.eligible, hhead, hheld, hpeak, Nat.not_lt.mpr htick, hnone]

theorem filterMap_range_single {β : Type} {f : Nat → Option β} {b : β} {m : Nat} (hc : c < m) (hf : f c = some b)
    (hne : ∀ d, d < m → d ≠ c → f d = none) : (List.range m).filterMap f = [b] := by
  induction m with
  | zero => omega
  | succ m ih =>
    rw [List.range_succ, List.filterMap_append]
    by_cases hcm : c = m
    · subst hcm
      rw [List.filterMap_eq_nil_iff.mpr fun d hd => hne d (by have := List.mem_range.mp hd; omega) (by have := List.mem_range.mp hd; omega)]
      simp [hf]
    · rw [ih (by omega) fun d hd => hne d (by omega)]
      simp [hne m (by omega) (Ne.symm hcm)]

/-- One queue that may send its head is the only contender, committed or not. -/
theorem State.contenders_single (h : s.eligibles n = [(c, k)]) : s.contenders n = [(c, k)] := by
  have hone (p : Nat × Pkt → Bool) : (if [(c, k)].filter p = [] then [(c, k)] else [(c, k)].filter p) = [(c, k)] := by
    rw [List.filter_singleton]
    cases p (c, k) <;> rfl
  rw [s.contenders_eq n rfl rfl, h]
  exact hone _

end

section

variable {c : Nat} {rest : List Pkt} (hpkts : (s.tmq n c).pkts = k :: rest) (hfloor : ∀ x ∈ k :: rest, x.floor = none)
  (hothers : ∀ d, d < 16 → d ≠ c → (s.tmq n d).pkts = [])

include hpkts hfloor hothers

theorem State.ttHeld_ordinary : s.ttHeld n = [] := by
  refine State.ttHeld_nil fun d hd x hx => ?_
  by_cases hdc : d = c
  · subst hdc
    exact hfloor x (hpkts ▸ hx)
  · rw [hothers d hd hdc] at hx
    exact absurd hx (List.not_mem_nil)

/-- The head of the only queue with packets, unheld, strict and of ordinary packets, goes. -/
theorem State.schedulerSelect_single (hc : c < 16) (hup : s.linkUp n = true) (hok : s.portOk n = true) (htick : k.tmTick ≤ s.tm.tick)
    (hheld : s.held n c = false) (hpeak : s.peakOk n c = true) (hstrict : s.isDwrr n c = false) :
    s.schedulerSelect n = (s.dwrrClear n).dispatch n c k := by
  obtain ⟨t, ht⟩ : ∃ t, t = s.dwrrClear n := ⟨_, rfl⟩
  obtain ⟨⟨q, hq⟩, htmq⟩ := s.dwrrClear_leaves n
  rw [← ht] at hq htmq ⊢
  have hsame (d : Nat) : (t.tmq n d).pkts = (s.tmq n d).pkts := by
    obtain ⟨x, hx⟩ := htmq n d
    rw [hx]
  have hpeak' : t.peakOk n c = true := by
    obtain ⟨x, hx⟩ := htmq n c
    rw [State.peakOk, hx]
    rw [hq]
    exact hpeak
  have heach : t.eligible n c = some k := by
    refine State.eligible_head ((hsame c).trans hpkts) (hfloor k List.mem_cons_self) (by rw [hq]; exact hheld) hpeak' (by rw [hq]; exact htick) ?_
    exact State.ttHeld_ordinary ((hsame c).trans hpkts) hfloor fun d hd hdc => (hsame d).trans (hothers d hd hdc)
  have helig : t.eligibles n = [(c, k)] := filterMap_range_single hc (by rw [heach, Option.map_some]) fun d hd hdc => by
    rw [State.eligible_empty ((hsame d).trans (hothers d hd hdc)), Option.map_none]
  have hdwrr : t.isDwrr n c = false := by rw [hq]; exact hstrict
  have hgoing : s.ttGoing n = [] := by rw [State.ttGoing, State.ttHeld_ordinary hpkts hfloor hothers, List.filter_nil]
  refine State.schedulerSelect_strict hup hok hgoing ht ?_
  rw [State.strictOnes, State.contenders_single helig, List.filter_singleton, hdwrr]
  rfl

end

theorem State.bufFenced_dwrrClear (s : State) (n h : Nat) : (s.dwrrClear n).bufFenced h = s.bufFenced h := by
  obtain ⟨⟨q, hq⟩, -⟩ := s.dwrrClear_leaves n
  rw [hq]
  rfl

/-- Settles O24: a frame is selected by one of the equations above, and leaves its queue for an egress berth. -/
theorem scheduler : Obligations.Scheduler := by
  intro n s
  refine ⟨fun h => exec_schedulerSelect_idle fun hon => ?_, fun hon hup hok due ptr hdue hptr => ?_,
    fun c k rest hon hup hok hpkts htick hfloor hothers hheld hpeak hstrict hf => ?_, fun t c k hf => State.dispatch_sent hf⟩
  · rcases h with h | h
    · exact absurd hon (by simp [h])
    · exact State.schedulerSelect_stopped h
  · subst hptr
    rw [← State.ttGoing] at hdue
    rw [hdue]
    refine ⟨fun k d hfirst hone => exec_schedulerSelect_on hon (State.schedulerSelect_due hup hok hfirst hone),
      fun k d hfirst hmore => exec_schedulerSelect_on hon (State.schedulerSelect_tie hup hok hfirst hmore),
      fun hnone s1 elig com set h1 helig hcom hset => ?_⟩
    have hcontend : s1.contenders n = set := (s1.contenders_eq n helig hcom).trans hset.symm
    rw [← hcontend]
    exact ⟨fun c k hlast => exec_schedulerSelect_on hon (State.schedulerSelect_strict hup hok hnone h1 hlast),
      fun hempty => exec_schedulerSelect_on hon (State.schedulerSelect_nothing hup hok hnone h1 hempty),
      fun s2 c k hstrict hdwrr => exec_schedulerSelect_on hon (State.schedulerSelect_dwrr hup hok hnone h1 hstrict hdwrr)⟩
  · refine ⟨_, exec_schedulerSelect_on hon (State.schedulerSelect_single hpkts hfloor hothers c.isLt hup hok htick hheld hpeak hstrict), ?_⟩
    obtain ⟨hleft, hwaits, hcount, hregs⟩ := State.dispatch_sent (n := n) (c := c) ((s.bufFenced_dwrrClear n _).trans hf)
    obtain ⟨⟨q, hq⟩, htmq⟩ := s.dwrrClear_leaves n
    obtain ⟨x, hx⟩ := htmq n c
    refine ⟨?_, ?_, ?_, ?_⟩
    · rw [hleft, hx, hpkts, List.erase_cons_head]
    · rw [hwaits, hq]
      rfl
    · rw [hcount, hq]
      rfl
    · rw [hregs, hq]

end Sys2Proof.Machine
end

section
/-! SUPPORT. The indirect commands of the traffic manager (R321, R326, Table 11.5; O41): how a command is judged, and what its operation reads
and writes in its tick. -/

namespace Sys2Proof.Machine

variable {s : State} {p : Nat}

/-! ### What the registers from 0x400000 on do not decide -/

section

variable {a : Nat} (v : Word) (ha : 0x400000 ≤ a)

include ha

theorem State.reg_setReg_low {b : Nat} (hb : b < 0x400000) : (s.setReg a v).reg b = s.reg b := State.reg_setReg_ne _ _ _ _ (by omega)

theorem State.ownerOfPipe_setReg_high (hp : p < 16) : (s.setReg a v).ownerOfPipe p = s.ownerOfPipe p :=
  State.fld_of_reg (State.reg_setReg_low v ha (by unfold R.PIT_MAP; omega))

theorem State.pipeHeld_setReg_high (hp : p < 16) : (s.setReg a v).pipeHeld p = s.pipeHeld p := by
  have hn : s.ownerOfPipe p < 32 := s.ownerOfPipe_lt p
  have hctl : (s.setReg a v).reg (R.PIT_CTL (s.ownerOfPipe p)) = s.reg (R.PIT_CTL (s.ownerOfPipe p)) :=
    State.reg_setReg_low v ha (by unfold R.PIT_CTL; omega)
  have hfail (d : Nat) (hd : d < 128) : (s.setReg a v).domBit R.PST_DOM_FAIL d = s.domBit R.PST_DOM_FAIL d := by
    unfold State.domBit
    rw [State.reg_setReg_low v ha (by unfold R.PST_DOM_FAIL; omega)]
  unfold State.pipeHeld State.inReset State.pipeFailed
  rw [State.ownerOfPipe_setReg_high v ha hp, (s.setReg_atPit v (by omega)).pitchExists, State.bit_of_reg hctl, State.bit_of_reg hctl,
    hfail _ (by omega), hfail _ (by omega), hfail _ (by omega), State.setReg_irq]

theorem State.mcInRange_setReg_high {n : Nat} (hn : n < 32) (g : Nat) : (s.setReg a v).mcInRange n g = s.mcInRange n g := by
  have hrange : (s.setReg a v).reg (R.PIT_MC_RANGE n) = s.reg (R.PIT_MC_RANGE n) :=
    State.reg_setReg_low v ha (by unfold R.PIT_MC_RANGE; omega)
  unfold State.mcInRange
  rw [State.fld_of_reg hrange, State.fld_of_reg hrange]

end

/-! ### How an operation is judged (Table 11.5) -/

/-- The result that refuses operation `op` on entry `i` of target `tg`; 0 where none does. -/
def State.tmIaJudge (s : State) (p op tg i : Nat) : Nat :=
  if s.pipeHeld p then 3
  else if 2 < op ∨ 3 < tg ∨ (op = 2 ∧ tg ≠ 0) ∨ (tg = 1 ∧ 4096 ≤ i) ∨
      (tg = 1 ∧ op = 1 ∧ 65536 < s.tmGroup p % 2 ^ 16 + s.tmGroup p / 2 ^ 16 % 256 + 1) then 1
  else if tg = 3 && !s.mcInRange (s.ownerOfPipe p) i then 2
  else 0

theorem State.tmIaRefusal_eq (s : State) (p : Nat) : s.tmIaRefusal p =
    s.tmIaJudge p (s.fld (R.TM_IA_CMD p) F.TM_IA_CMD.OP) (s.fld (R.TM_IA_CMD p) F.TM_IA_CMD.TARGET) (s.fld (R.TM_IA_CMD p) F.TM_IA_CMD.INDEX) := rfl

section

variable {op tg i : Nat}

theorem State.tmIaJudge_held (h : s.pipeHeld p = true) : s.tmIaJudge p op tg i = 3 := if_pos h

variable (h : s.pipeHeld p = false)

include h

/-- No such operation, target or entry, or a member group whose slots go beyond the last one. -/
theorem State.tmIaJudge_missing (hbad : 2 < op ∨ 3 < tg ∨ (op = 2 ∧ tg ≠ 0) ∨ (tg = 1 ∧ 4096 ≤ i) ∨
    (tg = 1 ∧ op = 1 ∧ 65536 < s.tmGroup p % 2 ^ 16 + s.tmGroup p / 2 ^ 16 % 256 + 1)) : s.tmIaJudge p op tg i = 1 := by
  rw [State.tmIaJudge, h, if_neg Bool.false_ne_true, if_pos hbad]

theorem State.tmIaJudge_foreign (hop : op < 2) (htg : tg = 3) (hmc : s.mcInRange (s.ownerOfPipe p) i = false) : s.tmIaJudge p op tg i = 2 := by
  rw [State.tmIaJudge, h, if_neg Bool.false_ne_true, if_neg (by omega), htg, hmc]
  rfl

theorem State.tmIaJudge_accepts (hop : op < 2 ∨ op = 2 ∧ tg = 0) (htg : tg = 0 ∨ tg = 2 ∨
    (tg = 1 ∧ i < 4096 ∧ (op = 1 → s.tmGroup p % 2 ^ 16 + s.tmGroup p / 2 ^ 16 % 256 + 1 ≤ 65536)) ∨
    (tg = 3 ∧ s.mcInRange (s.ownerOfPipe p) i = true)) : s.tmIaJudge p op tg i = 0 := by
  have hmc : (decide (tg = 3) && !s.mcInRange (s.ownerOfPipe p) i) = false := by
    rcases htg with h0 | h2 | ⟨h1, -, -⟩ | ⟨-, hin⟩
    · simp [h0]
    · simp [h2]
    · simp [h1]
    · simp [hin]
  rw [State.tmIaJudge, h, if_neg Bool.false_ne_true, if_neg (by omega), hmc, if_neg Bool.false_ne_true]

end

/-! ### TM_IA_CMD is written: its OP and GO stand where those of STG_IA_CMD stand, so that `iaWord` is the word that a command writes -/

section

variable {fn : FnNo} {p : PipeNo} {v : Word} {op : Nat}

theorem State.physAddr_TM_IA_CMD : s.physAddr fn (R.TM_IA_CMD p) = some (R.TM_IA_CMD p) :=
  State.physAddr_self (region_TM_IA_CMD p p.isLt) (by show _ ≠ _ ∧ _ ≠ _; unfold R.TM_IA_CMD; omega)

/-- The state in which an indirect command of the traffic manager is judged. -/
def State.tmIaWritten (s : State) (fn : FnNo) (p : PipeNo) (v : Word) (op : Nat) : State := s.wrote fn (R.TM_IA_CMD p) (iaWord v op)

theorem State.tmIaWritten_fld {f : Fld} (h : f ∈ [F.TM_IA_CMD.OP, F.TM_IA_CMD.TARGET, F.TM_IA_CMD.INDEX]) :
    (s.tmIaWritten fn p v op).fld (R.TM_IA_CMD p) f = fldOf (iaWord v op) f := by
  refine State.fld_wrote (findReg_TM_IA_CMD p p.isLt) State.physAddr_TM_IA_CMD ?_ ?_ <;> revert f <;> decide

theorem State.tmIaWritten_eq : ∃ w, s.tmIaWritten fn p v op = s.setReg (R.TM_IA_CMD p) w :=
  ⟨_, State.wrote_at (findReg_TM_IA_CMD p p.isLt) State.physAddr_TM_IA_CMD⟩

theorem tmIaData_ne_cmd (p k m : Nat) (hk : k < 32) : R.TM_IA_CMD m ≠ R.TM_IA_DATA p k := by
  unfold R.TM_IA_CMD R.TM_IA_DATA
  omega

theorem State.tmIaWritten_refusal (h16 : op < 16) : (s.tmIaWritten fn p v op).tmIaRefusal p =
    s.tmIaJudge p op (fldOf v F.TM_IA_CMD.TARGET) (fldOf v F.TM_IA_CMD.INDEX) := by
  rw [State.tmIaRefusal_eq, State.tmIaWritten_fld (by decide), State.tmIaWritten_fld (by decide), State.tmIaWritten_fld (by decide)]
  rw [show fldOf (iaWord v op) F.TM_IA_CMD.OP = op from fldOf_iaWord_op v h16, fldOf_iaWord (by decide), fldOf_iaWord (by decide)]
  obtain ⟨w, hwritten⟩ := State.tmIaWritten_eq (s := s) (fn := fn) (p := p) (v := v) (op := op)
  have hhigh : 0x400000 ≤ R.TM_IA_CMD p := by unfold R.TM_IA_CMD; omega
  have hgroup : (s.setReg (R.TM_IA_CMD p) w).tmGroup p = s.tmGroup p := by
    rw [State.tmGroup, State.tmData, State.reg_setReg_ne _ _ _ _ (tmIaData_ne_cmd p 0 p (by decide)).symm, State.tmGroup, State.tmData]
  rw [hwritten, State.tmIaJudge, State.pipeHeld_setReg_high w hhigh p.isLt, hgroup, State.ownerOfPipe_setReg_high w hhigh p.isLt,
    State.mcInRange_setReg_high w hhigh (s.ownerOfPipe_lt p), State.tmIaJudge]

variable (hw : s.writable fn (R.TM_IA_CMD p) = true)

include hw

/-- A permitted command is a busy write while one runs. -/
theorem State.command_tmIa_busy (hbusy : s.bit (R.TM_IA_CMD p) F.TM_IA_CMD.GO = true) :
    s.command fn (R.TM_IA_CMD p) v [(F.TM_IA_CMD.OP, op), (F.TM_IA_CMD.GO, 1)] = (s.busyWrite fn).settle s := by
  refine (State.command_TM_IA_CMD p p.isLt hw).trans ?_
  simp only [State.regAct, State.writeTm, hbusy, if_true]
  rfl

variable (hidle : s.bit (R.TM_IA_CMD p) F.TM_IA_CMD.GO = false)

include hidle

/-- It is judged where none runs. -/
theorem State.command_tmIa : s.command fn (R.TM_IA_CMD p) v [(F.TM_IA_CMD.OP, op), (F.TM_IA_CMD.GO, 1)] =
    ((s.tmIaWritten fn p v op).tmIaGo p).settle s := by
  have hgo : fldOf (taken (R.TM_IA_CMD p) (iaWord v op)) F.TM_IA_CMD.GO = 1 :=
    (fldOf_taken (findReg_TM_IA_CMD p p.isLt) _ _ (by decide)).trans (fldOf_iaWord_go v op)
  refine (State.command_TM_IA_CMD p p.isLt hw).trans ?_
  have hplain := State.plainWrite_wrote (s := s) (fn := fn) (v := iaWord v op) (w := ⟨host fn, R.TM_IA_CMD p, R.TM_IA_CMD p, .tmPipe p, _, [],
    taken (R.TM_IA_CMD p) (iaWord v op), none, none⟩) (findReg_TM_IA_CMD p p.isLt) State.physAddr_TM_IA_CMD rfl (by simp) (by dsimp only)
  change State.settle (State.regAct s ⟨_, _, _, _, _, _, taken (R.TM_IA_CMD p) (iaWord v op), _, _⟩) s = _
  simp only [State.regAct, State.writeTm, Wr.bit, hidle, hgo, hplain, Bool.false_eq_true, if_false, ne_eq, one_ne_zero, not_false_eq_true,
    decide_true, if_true]
  rfl

variable {tg i : Nat} (htg : tg = fldOf v F.TM_IA_CMD.TARGET) (hi : i = fldOf v F.TM_IA_CMD.INDEX) (h16 : op < 16)

include htg hi h16

theorem State.command_tmIa_taken (hjudge : s.tmIaJudge p op tg i = 0) :
    s.command fn (R.TM_IA_CMD p) v [(F.TM_IA_CMD.OP, op), (F.TM_IA_CMD.GO, 1)] = ((s.tmIaWritten fn p v op).tmIaDone p 15).settle s := by
  subst htg hi
  rw [State.command_tmIa hw hidle, State.tmIaGo, State.tmIaWritten_refusal h16, hjudge]
  rfl

theorem State.command_tmIa_refused {r : Nat} (hjudge : s.tmIaJudge p op tg i = r) (hr : r ≠ 0) :
    s.command fn (R.TM_IA_CMD p) v [(F.TM_IA_CMD.OP, op), (F.TM_IA_CMD.GO, 1)] = ((s.tmIaWritten fn p v op).tmIaRefuse p r).settle s := by
  subst htg hi
  rw [State.command_tmIa hw hidle, State.tmIaGo, State.tmIaWritten_refusal h16, hjudge]
  exact congrArg (State.settle · s) (if_pos hr)

end

theorem State.tmIaRefuse_held (s : State) (p : Nat) :
    s.tmIaRefuse p 3 = (s.tmIaDone p 3).cause (R.TM_PIPE_CAUSE p) F.TM_PIPE_CAUSE.IDLE_VIOL := by
  simp only [State.tmIaRefuse, if_true]

theorem State.tmIaRefuse_quiet (s : State) (p : Nat) {r : Nat} (h : r ≠ 3) : s.tmIaRefuse p r = s.tmIaDone p r := if_neg h

/-! ### What the command's registers show -/

theorem tmIaStatus_ne_cmd (p m : Nat) : R.TM_IA_STATUS p ≠ R.TM_IA_CMD m := by
  unfold R.TM_IA_STATUS R.TM_IA_CMD
  omega

theorem State.tmIaDone_result (s : State) (p : Nat) {r : Nat} (hr : r < 16) : (s.tmIaDone p r).fld (R.TM_IA_STATUS p) F.TM_IA_STATUS.RESULT = r := by
  rw [State.tmIaDone, State.fld_setBit_ne _ _ _ _ _ _ (tmIaStatus_ne_cmd p p), State.fld_setFld _ _ _ _ (by decide)]
  exact Nat.mod_eq_of_lt hr

theorem State.tmIaDone_go (s : State) (p r : Nat) : (s.tmIaDone p r).bit (R.TM_IA_CMD p) F.TM_IA_CMD.GO = decide (r = 15) :=
  State.bit_setBit _ _ _ _ (by decide) (by decide)

theorem State.tmIaDone_fld (s : State) (p r : Nat) {f : Fld} (h : f.lo + f.w ≤ 31) :
    (s.tmIaDone p r).fld (R.TM_IA_CMD p) f = s.fld (R.TM_IA_CMD p) f :=
  (State.fld_setFld_beside _ _ _ _ _ (by decide) (.inl h)).trans (State.fld_setFld_ne _ _ _ _ _ _ (tmIaStatus_ne_cmd p p).symm)

theorem State.tmIaDone_tm (s : State) (p r : Nat) : (s.tmIaDone p r).tm = s.tm := by
  rw [State.tmIaDone, State.setBit_tm, State.setFld_tm]

theorem State.tmIaDone_reg_ne (s : State) (p r : Nat) {a : Nat} (hs : a ≠ R.TM_IA_STATUS p) (hc : a ≠ R.TM_IA_CMD p) :
    (s.tmIaDone p r).reg a = s.reg a := (State.reg_setBit_ne _ _ _ _ _ hc).trans (State.reg_setFld_ne _ _ _ _ _ hs)

/-! ### TM_IA_DATA after a READ -/

theorem State.setTmData_tm (s : State) (p : Nat) (ws : List Nat) : (s.setTmData p ws).tm = s.tm :=
  List.foldlRecOn (motive := fun t : State => t.tm = s.tm) _ _ rfl fun _ h _ _ => (State.setReg_tm ..).trans h

theorem State.setTmData_reg_ne (s : State) (p : Nat) (ws : List Nat) {a : Nat} (h : ∀ k, k < 32 → a ≠ R.TM_IA_DATA p k) :
    (s.setTmData p ws).reg a = s.reg a :=
  List.foldlRecOn (motive := fun t : State => t.reg a = s.reg a) _ _ rfl fun _ ht k hk =>
    (State.reg_setReg_ne _ _ _ _ (h k (List.mem_range.mp hk))).trans ht

/-- What a policer shows in its words that software cannot write. -/
def PolSt.shown (q : PolSt) : List Nat := [0, 0, 0, 0, q.words.getD 4 0 / 2 ^ 31 * 2 ^ 31, q.green, q.yellow, q.red]

/-- The pipeline keeps what its last READ of a policer showed there. -/
def State.setPolRo (s : State) (p : Nat) (ro : List Nat) : State :=
  { s with tm := { s.tm with polRo := SMap.put (fun _ => []) s.tm.polRo p ro } }

theorem State.setPolRo_regs (s : State) (p : Nat) (ro : List Nat) : (s.setPolRo p ro).regs = s.regs := rfl

theorem State.policer_setPolRo (s : State) (p : Nat) (ro : List Nat) (m i : Nat) : (s.setPolRo p ro).policer m i = s.policer m i := rfl

theorem State.setPolicer_regs (s : State) (p i : Nat) (q : PolSt) : (s.setPolicer p i q).regs = s.regs := rfl

theorem State.policer_setPolicer (s : State) (p i : Nat) (q : PolSt) : (s.setPolicer p i q).policer p i = q := SMap.get_put_same ..

theorem State.policer_of_tm {t : State} (h : t.tm = s.tm) (m i : Nat) : t.policer m i = s.policer m i := by
  rw [State.policer, h, State.policer]

/-- A member slot is written. -/
def State.setMemberSlot (s : State) (j : Nat) (w : Word) : State := { s with tm := { s.tm with slot := SMap.put (fun _ => 0) s.tm.slot j w } }

theorem State.memberSlot_setMemberSlot (s : State) (j : Nat) (w : Word) (l : Nat) :
    SMap.get (fun _ => 0) (s.setMemberSlot j w).tm.slot l = if l = j then w else SMap.get (fun _ => 0) s.tm.slot l := SMap.get_put ..

theorem State.setMemberSlot_regs (s : State) (j : Nat) (w : Word) : (s.setMemberSlot j w).regs = s.regs := rfl

/-- A member group is written. -/
def State.setMemberGroup (s : State) (j : Nat) (w : Word) : State := { s with tm := { s.tm with grp := SMap.put (fun _ => 0) s.tm.grp j w } }

theorem State.memberGroup_setMemberGroup (s : State) (j : Nat) (w : Word) (l : Nat) :
    SMap.get (fun _ => 0) (s.setMemberGroup j w).tm.grp l = if l = j then w else SMap.get (fun _ => 0) s.tm.grp l := SMap.get_put ..

theorem State.setMemberGroup_regs (s : State) (j : Nat) (w : Word) : (s.setMemberGroup j w).regs = s.regs := rfl

/-- The bitmap of a multicast group is written (R299). -/
def State.setMcast (s : State) (i v : Nat) : State := { s with tm := { s.tm with mcast := SMap.put (fun _ => 0) s.tm.mcast i v } }

theorem State.mcast_setMcast (s : State) (i v j : Nat) :
    SMap.get (fun _ => 0) (s.setMcast i v).tm.mcast j = if j = i then v else SMap.get (fun _ => 0) s.tm.mcast j := SMap.get_put ..

theorem State.setMcast_regs (s : State) (i v : Nat) : (s.setMcast i v).regs = s.regs := rfl

/-! ### The operation runs (R326) -/

section

variable (hok : s.tmIaRefusal p = 0) {u : State} (hu : u = s.tmIaDone p 0) {op i : Nat} (hop : s.fld (R.TM_IA_CMD p) F.TM_IA_CMD.OP = op)
  (hi : s.fld (R.TM_IA_CMD p) F.TM_IA_CMD.INDEX = i)

include hok hu hop hi

section

variable (htg : s.fld (R.TM_IA_CMD p) F.TM_IA_CMD.TARGET = 2)

include htg

theorem State.tmIaRun_readSlot (h : op = 0) : s.tmIaRun p =
    u.setTmData p [(SMap.get (fun _ => 0) s.tm.slot (p * 2 ^ 16 + i)).toNat] := by
  simp only [State.tmIaRun, hok, hop, htg, hi, h, ← hu, ne_eq, not_true_eq_false, if_false, zero_ne_one, decide_false]
  rw [hu, State.tmIaDone_tm]

theorem State.tmIaRun_writeSlot (h : op = 1) : s.tmIaRun p =
    u.setMemberSlot (p * 2 ^ 16 + i) (BitVec.ofNat 32 (andBits (s.tmData p 0) 0xC3FFFFFF)) := by
  simp only [State.tmIaRun, hok, hop, htg, hi, h, ← hu, ne_eq, not_true_eq_false, if_false, decide_true]
  rfl

end

section

variable (htg : s.fld (R.TM_IA_CMD p) F.TM_IA_CMD.TARGET = 1)

include htg

theorem State.tmIaRun_readGroup (h : op = 0) : s.tmIaRun p =
    u.setTmData p [(SMap.get (fun _ => 0) s.tm.grp (p * 2 ^ 12 + i)).toNat] := by
  simp only [State.tmIaRun, hok, hop, htg, hi, h, ← hu, ne_eq, not_true_eq_false, if_false, zero_ne_one, decide_false]
  rw [hu, State.tmIaDone_tm]

theorem State.tmIaRun_writeGroup (h : op = 1) : s.tmIaRun p =
    u.setMemberGroup (p * 2 ^ 12 + i) (BitVec.ofNat 32 (s.tmGroup p)) := by
  simp only [State.tmIaRun, hok, hop, htg, hi, h, ← hu, ne_eq, not_true_eq_false, if_false, decide_true]
  rfl

end

section

variable (htg : s.fld (R.TM_IA_CMD p) F.TM_IA_CMD.TARGET = 3)

include htg

theorem State.tmIaRun_readMcast (h : op = 0) : s.tmIaRun p =
    u.setTmData p ((List.range 32).map fun k => SMap.get (fun _ => 0) s.tm.mcast i / 2 ^ (32 * k) % 2 ^ 32) := by
  simp only [State.tmIaRun, hok, hop, htg, hi, h, ← hu, ne_eq, not_true_eq_false, if_false, zero_ne_one, decide_false]
  rw [hu, State.tmIaDone_tm]

theorem State.tmIaRun_writeMcast (h : op = 1) : s.tmIaRun p =
    u.setMcast i ((List.range 32).foldr (fun k a => (s.reg (R.TM_IA_DATA p k)).toNat + 2 ^ 32 * a) 0) := by
  simp only [State.tmIaRun, State.tmData, hok, hop, htg, hi, h, ← hu, ne_eq, not_true_eq_false, if_false, decide_true]
  rfl

end

section

variable (htg : s.fld (R.TM_IA_CMD p) F.TM_IA_CMD.TARGET = 0)

include htg

theorem State.tmIaRun_readPolicer (h : op = 0) : s.tmIaRun p =
    (u.setTmData p (s.policer p i).words).setPolRo p (s.policer p i).shown := by
  have hpol : u.policer p i = s.policer p i := State.policer_of_tm (hu ▸ s.tmIaDone_tm p 0) p i
  simp only [State.tmIaRun, hok, hop, htg, hi, h, ← hu, hpol, ne_eq, not_true_eq_false, if_false, zero_ne_one, decide_false,
    OfNat.zero_ne_ofNat]
  rfl

theorem State.tmIaRun_clearPolicer (h : op = 2) : s.tmIaRun p =
    ((u.setTmData p (s.policer p i).words).setPolRo p (s.policer p i).shown).setPolicer p i
      { s.policer p i with green := 0, yellow := 0, red := 0 } := by
  have hpol : u.policer p i = s.policer p i := State.policer_of_tm (hu ▸ s.tmIaDone_tm p 0) p i
  simp only [State.tmIaRun, hok, hop, htg, hi, h, ← hu, hpol, ne_eq, not_true_eq_false, if_false, if_true, OfNat.ofNat_ne_one, decide_false]
  rfl

/-- A configuration without a reserved action waits for the next boundary, or for the one after it. -/
theorem State.tmIaRun_writePolicer (h : op = 1) {c : PolCfg} (hc : c = ⟨s.tmData p 0 % 2 ^ 21, s.tmData p 1 % 2 ^ 21, s.tmData p 2 % 2 ^ 24,
      s.tmData p 3 % 2 ^ 24, andBits (s.tmData p 4) 0x4000FF0F⟩) (hyellow : c.act % 4 ≠ 3) (hred : c.act / 4 % 4 ≠ 3) :
    s.tmIaRun p = u.setPolicer p i (if s.lateInRound then { s.policer p i with late := some c } else { s.policer p i with pend := some c }) := by
  have hpol : u.policer p i = s.policer p i := State.policer_of_tm (hu ▸ s.tmIaDone_tm p 0) p i
  have hlate : u.lateInRound = s.lateInRound := by
    rw [hu, State.lateInRound, State.fld_of_reg (s.tmIaDone_reg_ne p 0 (by unfold R.DEV_ROUND_PHASE R.TM_IA_STATUS; omega)
      (by unfold R.DEV_ROUND_PHASE R.TM_IA_CMD; omega)), State.lateInRound]
  have hact : c.act = andBits (s.tmData p 4) 0x4000FF0F := by rw [hc]
  rw [hact] at hyellow hred
  simp only [State.tmIaRun, hok, hop, htg, hi, h, ← hu, ← hc, hpol, hlate, if_neg (not_or.mpr ⟨hyellow, hred⟩), ne_eq,
    not_true_eq_false, if_false, decide_true]

end

end

/-! ### The turn of the pipelines -/

/-- What an operation leaves of the commands of the other pipelines. -/
theorem State.tmIaRun_cmd_ne {m : Nat} (hok : s.tmIaRefusal p = 0) (hm : m ≠ p) : (s.tmIaRun p).reg (R.TM_IA_CMD m) = s.reg (R.TM_IA_CMD m) := by
  obtain ⟨u, hu⟩ : ∃ u, u = s.tmIaDone p 0 := ⟨_, rfl⟩
  have hdone : u.reg (R.TM_IA_CMD m) = s.reg (R.TM_IA_CMD m) :=
    hu ▸ s.tmIaDone_reg_ne p 0 (tmIaStatus_ne_cmd p m).symm (by unfold R.TM_IA_CMD; omega)
  have hdata (ws : List Nat) : (u.setTmData p ws).reg (R.TM_IA_CMD m) = s.reg (R.TM_IA_CMD m) :=
    (u.setTmData_reg_ne p ws fun k hk => tmIaData_ne_cmd p k m hk).trans hdone
  have hcause (t : State) : (t.cause (R.TM_PIPE_CAUSE p) F.TM_PIPE_CAUSE.CFG).reg (R.TM_IA_CMD m) = t.reg (R.TM_IA_CMD m) :=
    State.cause_reg_ne (by unfold R.TM_IA_CMD R.TM_PIPE_CAUSE; omega) (by unfold irqBlock R.TM_IA_CMD; omega)
  unfold State.tmIaRun
  simp only [hok, ne_eq, not_true_eq_false, if_false, ← hu]
  have htm (x : TmSt) : State.reg { u with tm := x } (R.TM_IA_CMD m) = s.reg (R.TM_IA_CMD m) := hdone
  have hset (t : State) (i : Nat) (q : PolSt) (ht : t.reg (R.TM_IA_CMD m) = s.reg (R.TM_IA_CMD m)) :
      (t.setPolicer p i q).reg (R.TM_IA_CMD m) = s.reg (R.TM_IA_CMD m) := (State.reg_of_regs (t.setPolicer_regs p i q) _).trans ht
  have hro (t : State) (ro : List Nat) (ht : t.reg (R.TM_IA_CMD m) = s.reg (R.TM_IA_CMD m)) :
      (t.setPolRo p ro).reg (R.TM_IA_CMD m) = s.reg (R.TM_IA_CMD m) := (State.reg_of_regs (t.setPolRo_regs p ro) _).trans ht
  split
  · split
    · exact (hcause _).trans (hset _ _ _ hdone)
    · exact hset _ _ _ hdone
  · split
    · exact hset _ _ _ (hro _ _ (hdata _))
    · exact hro _ _ (hdata _)
  · exact htm _
  · exact hdata _
  · exact htm _
  · exact hdata _
  · exact htm _
  · exact hdata _

theorem foldl_once {α β : Type} {f : β → α → β} {s : β} {l : List α} {x : α} (hx : x ∈ l) (hl : l.Nodup)
    (hbefore : ∀ y ∈ l, y ≠ x → f s y = s) (hafter : ∀ y ∈ l, y ≠ x → f (f s x) y = f s x) : l.foldl f s = f s x := by
  induction l with
  | nil => exact absurd hx List.not_mem_nil
  | cons y l ih =>
    obtain ⟨hy, hnodup⟩ := List.nodup_cons.mp hl
    rw [List.foldl_cons]
    by_cases hyx : y = x
    · subst hyx
      exact List.foldlRecOn (motive := fun t => t = f s y) _ _ rfl fun t ht z hz => by
        rw [ht]
        exact hafter z (List.mem_cons_of_mem _ hz) fun e => hy (e ▸ hz)
    · rw [hbefore y List.mem_cons_self hyx]
      exact ih ((List.mem_cons.mp hx).resolve_left fun e => hyx e.symm) hnodup (fun z hz => hbefore z (List.mem_cons_of_mem _ hz))
        fun z hz => hafter z (List.mem_cons_of_mem _ hz)

/-- The one operation that runs is carried out. -/
theorem State.tmIaTurn_one {p : PipeNo} (hok : s.tmIaRefusal p = 0) (hgo : s.bit (R.TM_IA_CMD p) F.TM_IA_CMD.GO = true)
    (hidle : ∀ m : PipeNo, m ≠ p → s.bit (R.TM_IA_CMD m) F.TM_IA_CMD.GO = false) : s.tmIaTurn = s.tmIaRun p := by
  have hother {m : Nat} (hm : m ∈ List.range 16) (hne : m ≠ p) : s.bit (R.TM_IA_CMD m) F.TM_IA_CMD.GO = false :=
    hidle ⟨m, List.mem_range.mp hm⟩ fun e => hne (congrArg Fin.val e)
  refine (foldl_once (x := p.val) (List.mem_range.mpr p.isLt) List.nodup_range (fun m hm hne => ?_) fun m hm hne => ?_).trans (if_pos hgo)
  · rw [hother hm hne, if_neg Bool.false_ne_true]
  · rw [if_pos hgo, State.bit_of_reg (State.tmIaRun_cmd_ne hok hne), hother hm hne, if_neg Bool.false_ne_true]

/-- A word without some of its bits is a word. -/
theorem toNat_andBits (w : Word) (m : Nat) : (BitVec.ofNat 32 (andBits w.toNat m)).toNat = Nat.land w.toNat m := by
  rw [BitVec.toNat_ofNat]
  exact Nat.mod_eq_of_lt (Nat.and_le_left.trans_lt w.isLt)

/-- Settles O41: a command is judged by its words, and the operation that it names is one of the equations above. -/
theorem tmIndirect : Obligations.TmIndirect := by
  refine ⟨fun fn p v s tg i g s1 hw htg hi hg hs1 => ?_, fun p s u op tg i hop htg hi hok hu => ?_⟩
  · have hs1 (op : Nat) : s1 op = s.tmIaWritten fn p v op := hs1 op
    refine ⟨fun hbusy => ⟨congrArg Host.Outcome.next (State.command_tmIa_busy hw hbusy),
        congrArg Host.Outcome.next (State.command_tmIa_busy hw hbusy), congrArg Host.Outcome.next (State.command_tmIa_busy hw hbusy)⟩,
      fun hidle hheld => ?_, fun hidle hheld => ?_, fun op r hop hr => ?_⟩
    · rw [hs1, ← State.tmIaRefuse_held]
      exact congrArg Host.Outcome.next (State.command_tmIa_refused hw hidle htg hi (by decide) (State.tmIaJudge_held hheld) (by decide))
    · have htaken {op : Nat} (hjudge : s.tmIaJudge p op tg i = 0) (h3 : op < 3) :
          s.command fn (R.TM_IA_CMD p) v [(F.TM_IA_CMD.OP, op), (F.TM_IA_CMD.GO, 1)] = ((s1 op).tmIaDone p 15).settle s := by
        rw [hs1, State.command_tmIa_taken hw hidle htg hi (by omega) hjudge]
      have hrefused {op r : Nat} (hjudge : s.tmIaJudge p op tg i = r) (h3 : op < 3) (h0 : r ≠ 0) (hquiet : r ≠ 3) :
          s.command fn (R.TM_IA_CMD p) v [(F.TM_IA_CMD.OP, op), (F.TM_IA_CMD.GO, 1)] = ((s1 op).tmIaDone p r).settle s := by
        rw [hs1, State.command_tmIa_refused hw hidle htg hi (by omega) hjudge h0, State.tmIaRefuse_quiet _ _ hquiet]
      subst hg
      refine ⟨fun h => ?_, fun h => ?_, fun h => ?_, fun h => ⟨?_, ?_⟩, fun h => ?_, fun h hmc => ⟨?_, ?_⟩⟩
      · exact congrArg Host.Outcome.next (htaken (State.tmIaJudge_accepts hheld (.inl (by decide))
          (h.imp_right (.imp_right (.imp_left fun ⟨h1, hin⟩ => ⟨h1, hin, nofun⟩)))) (by decide))
      · exact congrArg Host.Outcome.next (htaken (State.tmIaJudge_accepts hheld (.inl (by decide))
          (h.imp_right (.imp_right (.imp_left fun ⟨h1, hin, hfits⟩ => ⟨h1, hin, fun _ => hfits⟩)))) (by decide))
      · exact congrArg Host.Outcome.next (htaken (State.tmIaJudge_accepts hheld (.inr ⟨rfl, h⟩) (.inl h)) (by decide))
      · exact congrArg Host.Outcome.next (hrefused (State.tmIaJudge_missing hheld (by omega)) (by decide) (by decide) (by decide))
      · exact congrArg Host.Outcome.next (hrefused (State.tmIaJudge_missing hheld (by omega)) (by decide) (by decide) (by decide))
      · exact congrArg Host.Outcome.next (hrefused (State.tmIaJudge_missing hheld (by omega)) (by decide) (by decide) (by decide))
      · exact congrArg Host.Outcome.next (hrefused (State.tmIaJudge_foreign hheld (by decide) h hmc) (by decide) (by decide) (by decide))
      · exact congrArg Host.Outcome.next (hrefused (State.tmIaJudge_foreign hheld (by decide) h hmc) (by decide) (by decide) (by decide))
    · rw [hs1, State.tmIaDone_result _ _ hr, State.tmIaDone_go, State.tmIaDone_fld _ _ _ (by decide), State.tmIaDone_fld _ _ _ (by decide),
        State.tmIaDone_fld _ _ _ (by decide), State.tmIaDone_tm, State.tmIaWritten_fld (by decide), State.tmIaWritten_fld (by decide),
        State.tmIaWritten_fld (by decide), fldOf_iaWord (f := F.TM_IA_CMD.TARGET) (by decide), fldOf_iaWord (f := F.TM_IA_CMD.INDEX) (by decide),
        ← htg, ← hi]
      obtain ⟨w, hwritten⟩ := State.tmIaWritten_eq (s := s) (fn := fn) (p := p) (v := v) (op := op)
      exact ⟨rfl, rfl, fldOf_iaWord_op v (by omega), rfl, rfl, by rw [hwritten, State.setReg_tm]⟩
  · have hop := hop.symm
    have hi := hi.symm
    refine ⟨fun h2 => ?_, fun h1 => ?_, fun h0 q hq => ?_, fun h3 => ?_, fun hgo hidle => State.tmIaTurn_one hok hgo hidle⟩
    · have htg := htg.symm.trans h2
      refine ⟨State.tmIaRun_readSlot hok hu hop hi htg, fun h => ⟨_, State.tmIaRun_writeSlot hok hu hop hi htg h, State.setMemberSlot_regs ..,
        ?_, fun j hj => ?_⟩⟩
      · rw [State.memberSlot_setMemberSlot, if_pos rfl]
        exact toNat_andBits ..
      · rw [State.memberSlot_setMemberSlot, if_neg hj, hu, State.tmIaDone_tm]
    · have htg := htg.symm.trans h1
      refine ⟨State.tmIaRun_readGroup hok hu hop hi htg, fun h => ⟨_, State.tmIaRun_writeGroup hok hu hop hi htg h, State.setMemberGroup_regs ..,
        ?_, fun j hj => ?_⟩⟩
      · rw [State.memberGroup_setMemberGroup, if_pos rfl]
        exact toNat_andBits ..
      · rw [State.memberGroup_setMemberGroup, if_neg hj, hu, State.tmIaDone_tm]
    · have htg := htg.symm.trans h0
      subst hq
      refine ⟨fun h => ⟨_, State.tmIaRun_readPolicer hok hu hop hi htg h, State.setPolRo_regs .., ?_⟩,
        fun h => ⟨_, State.tmIaRun_clearPolicer hok hu hop hi htg h, ?_, State.policer_setPolicer ..⟩,
        fun h c hc hyellow hred => State.tmIaRun_writePolicer hok hu hop hi htg h hc hyellow hred⟩
      · rw [State.policer_setPolRo, State.policer_of_tm (State.setTmData_tm ..), hu, State.policer_of_tm (State.tmIaDone_tm ..)]
      · rw [State.setPolicer_regs, State.setPolRo_regs]
    · have htg := htg.symm.trans h3
      refine ⟨State.tmIaRun_readMcast hok hu hop hi htg, fun h => ⟨_, State.tmIaRun_writeMcast hok hu hop hi htg h, State.setMcast_regs ..,
        (State.mcast_setMcast ..).trans (if_pos rfl), fun j hj => ?_⟩⟩
      rw [State.mcast_setMcast, if_neg hj, hu, State.tmIaDone_tm]

end Sys2Proof.Machine
end
